-- ==== Sys2Proof/Word.lean ====
section
/-!
DEFINITION. The bit-level words of the block (00, Numbers and units; 17, R443) and the shape of its sparse
tables: a list of key and value pairs with strictly rising keys and no entry equal to the default.
-/
namespace Sys2Proof

/-- A register's 32 bits (R443). -/
abbrev Word := BitVec 32

/-- One byte. -/
abbrev Byte := BitVec 8

/-- A sparse table: keys strictly rising, no entry equal to the table's default value. -/
abbrev NMap (α : Type) := List (Nat × α)

end Sys2Proof
end

