-- ==== Sys2Proof/Syntax.lean ====
section
/-!
DEFINITION. The commands of the block: one constructor of `Instr` for each row of spec/opcode_table.json, in the
table's order, with the operands the row's rules name. A frame's fields are those of Tables 09-1 to 09-9, a
sequencer word is its 64 bits (Table 06-1), a thread instruction the low 26 bits of its word (Tables 04-2 and
04-3; the op field is the row's own), a register access its path, byte address and value.
-/
namespace Sys2Proof

/-- Who makes a register access (00 R4; 16 R428; 17 Table 17-8): the PF's BAR0, the BAR0 of VF `n`, the SPI
slave, the Trestle line, a tenant 0 MGMT request from the fabric, the hub's own service cores, or a debugger of a halted
group, through PF0's pages (03 R91). -/
inductive Path where
  | pf
  | vf (n : Fin 256)
  | spi
  | trestle
  | mgmt
  | cores
  | debug
deriving DecidableEq, Repr

/-- The contents of a tick marker (Table 02-2, Table 09-7). -/
structure Marker where
  tick : Nat
  attempt : Nat
  verdict : Nat
  detMode : Bool
  stretch : Bool
  hops : Nat
  keystone : Nat
  epoch : Nat
  sec : Nat
  ns : Nat
  accDelay : Nat
  len : Nat
deriving DecidableEq, Repr

/-- The contents of a VOTE frame (Table 09-8): kind 0 VOTE, 1 ECHO, 2 HALT. -/
structure Vote where
  tick : Nat
  attempt : Nat
  kind : Nat
  fail : Bool
  escalate : Bool
  verdict : Nat
  halted : Bool
  count : Nat
  code : Nat
  unit : Nat
  device : Nat
deriving DecidableEq, Repr

/-- A block of four codewords as it arrived (R208): its number since the lanes aligned, the symbols of its interleaved stream that
were received wrong, and those of its codewords that carry the frame. -/
structure CwBlock where
  number : Nat
  errs : List (Fin 2176)
  carry : List (Fin 4)
deriving DecidableEq, Repr

/-- The blocks that brought a frame (R208, R210). -/
abbrev Codewords := List CwBlock

/-- What the receiver found of an arriving frame: its class sequence number and key phase (Table 09-1), the
codewords that carried it (R210, R241) and whether its GCM tag verified (R239, R242). -/
structure Arrival where
  seq : Nat
  kp : Bool
  codewords : Codewords
  tagOk : Bool
deriving DecidableEq, Repr

/-- The routed classes (Table 09-2): a MGMT frame is a request or, with flag [5], a response. -/
inductive RClass where
  | req
  | rsp
  | mgmt
  | mgmtRsp
  | toss
deriving DecidableEq, Repr

/-- The type fields of a routed frame (Table 09-3) and its tenant tag (Table 09-1). -/
structure RHead where
  tenant : Nat
  dst : Nat
  src : Nat
  vc : Nat
  rank : Nat
  hops : Nat
deriving DecidableEq, Repr

/-- The access block (Table 09-5). -/
structure Access where
  addr : Nat
  op : Nat
  atom : Nat
  size : Nat
  issue : Nat
  homeUnit : Nat
  homeEntry : Nat
  cas : Nat
  hsn : Nat
deriving DecidableEq, Repr

/-- The response block (Table 09-6). -/
structure Response where
  homeUnit : Nat
  homeEntry : Nat
  status : Nat
  nack : Nat
  len : Nat
deriving DecidableEq, Repr

/-- A routed frame: a request, toss or MGMT request uses `access`, a response `resp`. -/
structure RFrame where
  cls : RClass
  head : RHead
  access : Access
  resp : Response
  data : List Byte
deriving DecidableEq, Repr

/-- A SLOT frame (Tables 09-2 and 09-3). -/
structure SlotFrame where
  tenant : Nat
  slot : Nat
  seg : Nat
  poison : Bool
  corrupt : Bool
  replay : Bool
  data : List Byte
deriving DecidableEq, Repr

/-- A HELLO message of the link-up exchange (Table 09-13). -/
structure Hello where
  version : Nat
  serial : Nat
  device : Nat
  port : Nat
  nonce : List Byte
  ecdh : List Byte
  chain : List Byte
deriving DecidableEq, Repr

/-- A HELLO as its frame came (R239, R258). -/
structure HelloFrame where
  arrival : Arrival
  hello : Hello
deriving DecidableEq, Repr

/-- A SIGN as its frame came: the 96 bytes of its signature (R239, R259). -/
structure SignFrame where
  arrival : Arrival
  signature : List Byte
deriving DecidableEq, Repr

/-- A load record (Table 10-1). -/
structure LoadRecord where
  chain : Nat
  kind : Nat
  xor : Bool
  keeper : Nat
  len : Nat
  offset : Nat
  number : Nat
  payload : List Byte
deriving DecidableEq, Repr

/-- How a completion of a device read of host memory ended (R290). -/
inductive HostRead where
  | ok (data : List Byte)
  | unsupported
  | aborted
  | poisoned
deriving DecidableEq, Repr

/-- What a frame on an Ethernet-mode port carries (Table 08-7). -/
inductive EthBody where
  | pause
  | arpRequest (target : Nat)
  | neighbourSolicit (target : Nat)
  | fragment
  | tcp
  | rdma
  | icmp
  | ipOptions
  | udp (dstIp dstPort srcIp : Nat) (v6 : Bool)
  | other
deriving DecidableEq, Repr

/-- A frame received on an Ethernet-mode port (R228): its length, whether its FCS is right, its destination MAC
address, the VLAN IDs of its tags, its sender's MAC address and what it carries. -/
structure EthFrame where
  len : Nat
  fcsOk : Bool
  dstMac : Nat
  vlans : List Nat
  srcMac : Nat
  body : EthBody
deriving DecidableEq, Repr

/-- An IEEE 1588 message as the slave-only clock uses it (R345): its domain, clockClass and, for a Sync pair, whether it is
one-step, the master's TAI (s, ns) and the receive timestamp; for a delay exchange, its mechanism (peer or end-to-end) and four
timestamps. Timestamps of the device are at its pins, in 0.25 ns of its own time (R230); so are those of a delay exchange. -/
inductive PtpMsg where
  | announce (domain clockClass : Nat)
  | sync (domain clockClass : Nat) (oneStep : Bool) (sec ns : Nat) (rx : Int)
  | delay (domain : Nat) (peer : Bool) (t1 t2 t3 t4 : Int)
deriving DecidableEq, Repr

/-- A PTP message as it came: the transport that carried it, as PTP_CFG numbers them, and what it says (R228, R345). -/
structure PtpFrame where
  transport : Fin 3
  msg : PtpMsg
deriving DecidableEq, Repr

/-- A tile datagram (Table 12-3) with the UDP fields R323 checks. -/
structure Tile where
  dstIp : Nat
  dstPort : Nat
  srcIp : Nat
  v6 : Bool
  magic : Nat
  version : Nat
  sensor : Nat
  len : Nat
  exposure : Nat
  index : Nat
  count : Nat
  crc : Word
  sec : Nat
  ns : Nat
  payload : List Byte
deriving DecidableEq, Repr

/-- A received IDLE unit's bytes, or a frame of a reserved type (R236). -/
inductive IdleUnit where
  | unit (bytes : List Byte)
  | reserved (type : Nat)
deriving DecidableEq, Repr

/-- A Trestle frame as received (Tables 16-2 and 16-3): whether its FCS verified and its fields. -/
structure TrsHead where
  fcsOk : Bool
  lenOk : Bool
  reservedOk : Bool
  dst : Nat
  src : Nat
  seq : Nat
deriving DecidableEq, Repr

/-- What an adaptation loop sets on one lane (Table 08-4). -/
inductive Adapt where
  | ctle (code : Nat)
  | dfe (t1 t2 t3 : Int)
  | slicer (a b c : Int)
deriving DecidableEq, Repr

/-- A scrubber's memory: a cluster's scratchpad or a quarter store (R202, R204). -/
inductive ScrubUnit where
  | cluster (c : Fin 512)
  | quarter (q : Fin 4)
deriving DecidableEq, Repr

/-- The source a time reference loss or qualification names (R347, Table 13-5). -/
inductive TimeSource where
  | pps
  | ptp14
  | ptp15
  | tenMhz
deriving DecidableEq, Repr

/-- One firmware copy as the boot SPI master read and checked it (R435). -/
structure FwCopy where
  headerOk : Bool
  keyOk : Bool
  secureOk : Bool
  sigOk : Bool
  digestOk : Bool
  version : Nat
deriving DecidableEq, Repr

/-- What SFDP discovery found (R433): signature, density in MiB, fast-read widths and Quad Enable method. -/
structure Sfdp where
  sigOk : Bool
  mib : Nat
  has144 : Bool
  has114 : Bool
  quadEnable : Nat
deriving DecidableEq, Repr

/-- What BIST found (R369): the faulty clusters by physical number, and whether hub SRAM, a quarter-store bank or a
handle table is faulty. -/
structure Bist where
  badClusters : List (Fin 544)
  fatal : Bool
deriving DecidableEq, Repr

/-- The steps of a tear-safe tag commit at which the field may collapse (Table 16-10). -/
inductive TearPoint where
  | command
  | erase
  | program
  | counter
  | reply
deriving DecidableEq, Repr

/-- A command of the block: a row of spec/opcode_table.json with its operands. -/
inductive Instr where
  /-- REGISTER_WRITE (R450). -/
  | registerWrite (p : Path) (addr : Nat) (v : Word) (hi : Option Word)
  /-- RC_READ (R4). -/
  | rcRead (p : Path) (addr : Nat) (wide : Bool)
  /-- ERR_INFO_VALID_CLEAR (R444). -/
  | errInfoValidClear (p : Path) (addr : Nat)
  /-- FREEZE (R445). -/
  | freeze (p : Path) (addr : Nat) (on : Bool)
  /-- LOCK (R446). -/
  | lock (p : Path) (addr : Nat)
  /-- ACK (R459). -/
  | ack (p : Path) (v : Word)
  /-- ROUTE_WRITE (R459). -/
  | routeWrite (p : Path) (t : Fin 29) (v : Word)
  /-- ROLE_WRITE (R16). -/
  | roleWrite (p : Path) (v : Word)
  /-- DIMS_WRITE (R455). -/
  | dimsWrite (p : Path) (v : Word)
  /-- POS_WRITE (R455). -/
  | posWrite (p : Path) (v : Word)
  /-- LOCAL_TICK_START (R41). -/
  | localTickStart
  /-- MARKER (R38). -/
  | marker (port : Fin 16) (a : Arrival) (arrived : Int) (m : Marker)
  /-- OPEN_END (R41). -/
  | openEnd
  /-- REPAIR_START (R31). -/
  | repairStart
  /-- SEAL_START (R45). -/
  | sealStart
  /-- VOTE (R46). -/
  | vote (port : Fin 16) (a : Arrival) (v : Vote)
  /-- VOTE_DEADLINE (R46). -/
  | voteDeadline
  /-- ECHO (R47). -/
  | echo (port : Fin 16) (a : Arrival) (v : Vote)
  /-- ECHO_DEADLINE (R47). -/
  | echoDeadline
  /-- KEYSTONE_TAKEOVER (R42). -/
  | keystoneTakeover
  /-- START (R66). -/
  | start (p : Path)
  /-- HOLD (R65). -/
  | hold (p : Path)
  /-- RESUME (R57). -/
  | resume (p : Path)
  /-- STRETCH_REQ (R58). -/
  | stretchReq (p : Path) (on : Bool)
  /-- RERUN_LIMIT_ATTEMPT_CAP_WRITE (R56). -/
  | rerunLimitAttemptCapWrite (p : Path) (limit cap : Nat)
  /-- STRETCH_SEAL_MARKER (R59). -/
  | stretchSealMarker
  /-- HALT_REPORT (R59). -/
  | haltReport (port : Fin 16) (a : Arrival) (v : Vote)
  /-- DBG_MAX_EXPIRY (R60). -/
  | dbgMaxExpiry
  /-- DET_MODE_WRITE (R61). -/
  | detModeWrite (p : Path) (on : Bool)
  /-- LAUNCH (R75). -/
  | launch (c : Fin 512) (k : Fin 9) (w : BitVec 64)
  /-- JOIN (R166). -/
  | join (c : Fin 512) (k : Fin 9) (w : BitVec 64)
  /-- JOIN_COMPLETE (R76). -/
  | joinComplete (c : Fin 512) (blk : Fin 16)
  /-- COPY_COMPLETE (R79). -/
  | copyComplete (c : Fin 512) (id : Nat)
  /-- CTX_RESTART (R90). -/
  | ctxRestart (p : Path) (tenant : Fin 256)
  /-- DEBUG_HALT (R91). -/
  | debugHalt (p : Path) (c : Fin 512)
  /-- DEBUG_STEP (R92). -/
  | debugStep (p : Path) (c : Fin 512)
  /-- DEBUG_RESUME (R92). -/
  | debugResume (p : Path) (c : Fin 512)
  /-- STEP_COMPLETE (R92). -/
  | stepComplete (c : Fin 512)
  /-- DBG_REG_DATA_WRITE (R92). -/
  | dbgRegDataWrite (p : Path) (c : Fin 512) (v : Word)
  /-- IADD (R102). -/
  | iadd (c : Fin 512) (g : Fin 64) (w : BitVec 26)
  /-- ISUB (R102). -/
  | isub (c : Fin 512) (g : Fin 64) (w : BitVec 26)
  /-- IMUL (R102). -/
  | imul (c : Fin 512) (g : Fin 64) (w : BitVec 26)
  /-- IMULHU (R102). -/
  | imulhu (c : Fin 512) (g : Fin 64) (w : BitVec 26)
  /-- IMAC (R102). -/
  | imac (c : Fin 512) (g : Fin 64) (w : BitVec 26)
  /-- AND (R102). -/
  | and (c : Fin 512) (g : Fin 64) (w : BitVec 26)
  /-- OR (R102). -/
  | or (c : Fin 512) (g : Fin 64) (w : BitVec 26)
  /-- XOR (R102). -/
  | xor (c : Fin 512) (g : Fin 64) (w : BitVec 26)
  /-- SHL (R102). -/
  | shl (c : Fin 512) (g : Fin 64) (w : BitVec 26)
  /-- SHR (R102). -/
  | shr (c : Fin 512) (g : Fin 64) (w : BitVec 26)
  /-- SAR (R102). -/
  | sar (c : Fin 512) (g : Fin 64) (w : BitVec 26)
  /-- IMIN (R102). -/
  | imin (c : Fin 512) (g : Fin 64) (w : BitVec 26)
  /-- IMAX (R102). -/
  | imax (c : Fin 512) (g : Fin 64) (w : BitVec 26)
  /-- UMIN (R102). -/
  | umin (c : Fin 512) (g : Fin 64) (w : BitVec 26)
  /-- UMAX (R102). -/
  | umax (c : Fin 512) (g : Fin 64) (w : BitVec 26)
  /-- MOV (R102). -/
  | mov (c : Fin 512) (g : Fin 64) (w : BitVec 26)
  /-- ICMP (R103). -/
  | icmp (c : Fin 512) (g : Fin 64) (w : BitVec 26)
  /-- PBOOL (R104). -/
  | pbool (c : Fin 512) (g : Fin 64) (w : BitVec 26)
  /-- LANEQ (R104). -/
  | laneq (c : Fin 512) (g : Fin 64) (w : BitVec 26)
  /-- XLANE (R105). -/
  | xlane (c : Fin 512) (g : Fin 64) (w : BitVec 26)
  /-- SYSV (R106). -/
  | sysv (c : Fin 512) (g : Fin 64) (w : BitVec 26)
  /-- FADD (R108). -/
  | fadd (c : Fin 512) (g : Fin 64) (w : BitVec 26)
  /-- FSUB (R108). -/
  | fsub (c : Fin 512) (g : Fin 64) (w : BitVec 26)
  /-- FMUL (R108). -/
  | fmul (c : Fin 512) (g : Fin 64) (w : BitVec 26)
  /-- FFMA (R108). -/
  | ffma (c : Fin 512) (g : Fin 64) (w : BitVec 26)
  /-- FMIN (R108). -/
  | fmin (c : Fin 512) (g : Fin 64) (w : BitVec 26)
  /-- FMAX (R108). -/
  | fmax (c : Fin 512) (g : Fin 64) (w : BitVec 26)
  /-- FCMP (R103). -/
  | fcmp (c : Fin 512) (g : Fin 64) (w : BitVec 26)
  /-- CVT (R110). -/
  | cvt (c : Fin 512) (g : Fin 64) (w : BitVec 26)
  /-- TFN (R109). -/
  | tfn (c : Fin 512) (g : Fin 64) (w : BitVec 26)
  /-- IADDI (R102). -/
  | iaddi (c : Fin 512) (g : Fin 64) (w : BitVec 26)
  /-- ANDI (R102). -/
  | andi (c : Fin 512) (g : Fin 64) (w : BitVec 26)
  /-- ORI (R102). -/
  | ori (c : Fin 512) (g : Fin 64) (w : BitVec 26)
  /-- XORI (R102). -/
  | xori (c : Fin 512) (g : Fin 64) (w : BitVec 26)
  /-- SHLI (R102). -/
  | shli (c : Fin 512) (g : Fin 64) (w : BitVec 26)
  /-- SHRI (R102). -/
  | shri (c : Fin 512) (g : Fin 64) (w : BitVec 26)
  /-- SARI (R102). -/
  | sari (c : Fin 512) (g : Fin 64) (w : BitVec 26)
  /-- ICMPI (R103). -/
  | icmpi (c : Fin 512) (g : Fin 64) (w : BitVec 26)
  /-- MOVL (R102). -/
  | movl (c : Fin 512) (g : Fin 64) (w : BitVec 26)
  /-- MOVH (R102). -/
  | movh (c : Fin 512) (g : Fin 64) (w : BitVec 26)
  /-- UMOVL (R107). -/
  | umovl (c : Fin 512) (g : Fin 64) (w : BitVec 26)
  /-- UMOVH (R107). -/
  | umovh (c : Fin 512) (g : Fin 64) (w : BitVec 26)
  /-- UADDI (R107). -/
  | uaddi (c : Fin 512) (g : Fin 64) (w : BitVec 26)
  /-- RDLANE (R107). -/
  | rdlane (c : Fin 512) (g : Fin 64) (w : BitVec 26)
  /-- LD (R111). -/
  | ld (c : Fin 512) (g : Fin 64) (w : BitVec 26)
  /-- ST (R111). -/
  | st (c : Fin 512) (g : Fin 64) (w : BitVec 26)
  /-- ATOM (R117). -/
  | atom (c : Fin 512) (g : Fin 64) (w : BitVec 26)
  /-- BRA (R119). -/
  | bra (c : Fin 512) (g : Fin 64) (w : BitVec 26)
  /-- JMARK (R119). -/
  | jmark (c : Fin 512) (g : Fin 64) (w : BitVec 26)
  /-- JN (R119). -/
  | jn (c : Fin 512) (g : Fin 64) (w : BitVec 26)
  /-- EXIT (R121). -/
  | exit (c : Fin 512) (g : Fin 64) (w : BitVec 26)
  /-- FENCE (R122). -/
  | fence (c : Fin 512) (g : Fin 64) (w : BitVec 26)
  /-- FENCE_RELEASE (R122). -/
  | fenceRelease (c : Fin 512) (g : Fin 64)
  /-- ARRIVE (R123). -/
  | arrive (c : Fin 512) (g : Fin 64) (w : BitVec 26)
  /-- WAITA (R123). -/
  | waita (c : Fin 512) (g : Fin 64) (w : BitVec 26)
  /-- WAITA_RELEASE (R123). -/
  | waitaRelease (c : Fin 512) (g : Fin 64)
  /-- CPY (R124). -/
  | cpy (c : Fin 512) (g : Fin 64) (w : BitVec 26)
  /-- ISSUE_T (R160). -/
  | issueT (c : Fin 512) (k : Fin 9) (w : BitVec 64)
  /-- ISSUE_V (R160). -/
  | issueV (c : Fin 512) (k : Fin 9) (w : BitVec 64)
  /-- ISSUE_D (R160). -/
  | issueD (c : Fin 512) (k : Fin 9) (w : BitVec 64)
  /-- TENSOR_COMPLETE (R145). -/
  | tensorComplete (c : Fin 512)
  /-- VECTOR_COMPLETE (R152). -/
  | vectorComplete (c : Fin 512)
  /-- COPY_DESCRIPTOR_COMPLETE (R162). -/
  | copyDescriptorComplete (c : Fin 512)
  /-- WAIT_AT (R159). -/
  | waitAt (c : Fin 512) (k : Fin 9) (w : BitVec 64)
  /-- WAIT_FOR (R159). -/
  | waitFor (c : Fin 512) (k : Fin 9) (w : BitVec 64)
  /-- WAIT_IDLE (R159). -/
  | waitIdle (c : Fin 512) (k : Fin 9) (w : BitVec 64)
  /-- WAIT_RELEASE (R159). -/
  | waitRelease (c : Fin 512) (k : Fin 9)
  /-- SLOT_TX (R163). -/
  | slotTx (c : Fin 512) (k : Fin 9) (w : BitVec 64)
  /-- SLOT_RX (R163). -/
  | slotRx (c : Fin 512) (k : Fin 9) (w : BitVec 64)
  /-- LEASE (R165). -/
  | lease (c : Fin 512) (k : Fin 9) (w : BitVec 64)
  /-- MARK_END (R167). -/
  | markEnd (c : Fin 512) (k : Fin 9) (w : BitVec 64)
  /-- MARK_TRACE (R167). -/
  | markTrace (c : Fin 512) (k : Fin 9) (w : BitVec 64)
  /-- LOOP_SET (R168). -/
  | loopSet (c : Fin 512) (k : Fin 9) (w : BitVec 64)
  /-- LOOP_BACK (R168). -/
  | loopBack (c : Fin 512) (k : Fin 9) (w : BitVec 64)
  /-- HALT (R169). -/
  | halt (c : Fin 512) (k : Fin 9) (w : BitVec 64)
  /-- PROG_ADV (R169). -/
  | progAdv (p : Path) (tenant : Fin 256)
  /-- ADMISSION_COMPLETE (R179). -/
  | admissionComplete
  /-- HDL_WRITE (R199). -/
  | hdlWrite (p : Path) (c : Fin 512)
  /-- HDL_READ (R199). -/
  | hdlRead (p : Path) (c : Fin 512)
  /-- SCRUB_VISIT (R202). -/
  | scrubVisit (u : ScrubUnit)
  /-- SCRUB_EVALUATION (R203). -/
  | scrubEvaluation (u : ScrubUnit)
  /-- PORT_START_TIME (R213). -/
  | portStartTime (port : Fin 16)
  /-- TRAINING_FRAME (R216). -/
  | trainingFrame (port : Fin 16) (lane : Fin 12) (cw : BitVec 64)
  /-- DETECT_TIMEOUT (R212). -/
  | detectTimeout (port : Fin 16)
  /-- TRAIN_TIMEOUT (R212). -/
  | trainTimeout (port : Fin 16)
  /-- ALIGN_LOCK (R212). -/
  | alignLock (port : Fin 16)
  /-- ALIGN_TIMEOUT (R212). -/
  | alignTimeout (port : Fin 16)
  /-- MEASURE_DONE (R212). -/
  | measureDone (port : Fin 16) (delayPs : Nat)
  /-- BACKOFF_EXPIRY (R214). -/
  | backoffExpiry (port : Fin 16)
  /-- LOSS_OF_LOCK (R220). -/
  | lossOfLock (port : Fin 16)
  /-- RETRAIN_TIMEOUT (R212). -/
  | retrainTimeout (port : Fin 16)
  /-- UNC_WINDOW (R211). -/
  | uncWindow (port : Fin 16)
  /-- ADAPTATION_UPDATE (R221). -/
  | adaptationUpdate (port : Fin 16) (lane : Fin 12) (a : Adapt)
  /-- BURST_GUARD_WINDOW (R222). -/
  | burstGuardWindow (port : Fin 16) (errors : List Nat)
  /-- LOOP_FREEZE_END (R222). -/
  | loopFreezeEnd (port : Fin 16)
  /-- FREEZE_LIMIT (R222). -/
  | freezeLimit (port : Fin 16)
  /-- OFF_TIMEOUT (R224). -/
  | offTimeout (port : Fin 16)
  /-- LIGHT_ANY_LOSS (R224). -/
  | lightAnyLoss (port : Fin 16)
  /-- BEACON_QUALIFIED (R224). -/
  | beaconQualified (port : Fin 16)
  /-- LIGHT_FULL_REACHED (R224). -/
  | lightFullReached (port : Fin 16)
  /-- RAISE_TIMEOUT (R224). -/
  | raiseTimeout (port : Fin 16)
  /-- LIGHT_FULL_LOSS (R224). -/
  | lightFullLoss (port : Fin 16)
  /-- ISLAND_LIGHT_CHECK (R225). -/
  | islandLightCheck (port : Fin 16)
  /-- LASER_DISABLE_RELEASE (R225). -/
  | laserDisableRelease (port : Fin 16)
  /-- OPT_INHIBIT_N (R225). -/
  | optInhibitN (low : Bool)
  /-- LASER_OFF (R226). -/
  | laserOff (p : Path) (port : Fin 16) (on : Bool)
  /-- ENGINE_CASE_OVERHEAT (R471). -/
  | engineCaseOverheat (port : Fin 16)
  /-- ENGINE_CASE_COOLED (R471). -/
  | engineCaseCooled (port : Fin 16)
  /-- ETHERNET_FRAME (R228). -/
  | ethernetFrame (port : Fin 16) (f : EthFrame)
  /-- PTP_MESSAGE (R345). -/
  | ptpMessage (port : Fin 16) (m : PtpFrame)
  /-- TILE (R323). -/
  | tile (port : Fin 16) (t : Tile)
  /-- TEST (R231). -/
  | test (p : Path) (port : Fin 16) (on : Bool)
  /-- LOOPBACK (R233). -/
  | loopback (p : Path) (port : Fin 16) (sel : Fin 4)
  /-- PRBS_RESTART (R232). -/
  | prbsRestart (p : Path) (port : Fin 16)
  /-- SPC_ENABLE (R234). -/
  | spcEnable (p : Path) (port : Fin 16) (on : Bool)
  /-- PORT_ENABLE (R213). -/
  | portEnable (p : Path) (port : Fin 16) (on : Bool)
  /-- IDLE_UNIT (R236). -/
  | idleUnit (port : Fin 16) (cw : Codewords) (u : IdleUnit)
  /-- SLOT_FRAME (R245). -/
  | slotFrame (port : Fin 16) (a : Arrival) (f : SlotFrame)
  /-- SLOT_START (R244). -/
  | slotStart (slot : Fin 65536)
  /-- SLOT_CHECK (R245). -/
  | slotCheck (slot : Fin 65536)
  /-- REQ (R251). -/
  | req (port : Fin 16) (a : Arrival) (h : RHead) (b : Access) (data : List Byte)
  /-- FRAME_FORWARD (R254). -/
  | frameForward (port : Fin 16) (a : Arrival) (f : RFrame)
  /-- ESCAPE_TIMEOUT (R254). -/
  | escapeTimeout (port : Fin 16) (cls : RClass)
  /-- RSP (R248). -/
  | rsp (port : Fin 16) (a : Arrival) (h : RHead) (r : Response) (data : List Byte)
  /-- MGMT (R250). -/
  | mgmt (port : Fin 16) (a : Arrival) (h : RHead) (b : Access) (data : List Byte)
  /-- MGMT_RESPONSE (R250). -/
  | mgmtResponse (port : Fin 16) (a : Arrival) (h : RHead) (r : Response) (data : List Byte)
  /-- TOSS (R251). -/
  | toss (port : Fin 16) (a : Arrival) (h : RHead) (b : Access) (data : List Byte)
  /-- ATOMIC_DUE (R257). -/
  | atomicDue
  /-- STATUS (R240). -/
  | status (port : Fin 16) (a : Arrival) (credits : List Nat) (acks : List Nat)
  /-- STATUS_TIMER (R240). -/
  | statusTimer (port : Fin 16)
  /-- RETRY (R240). -/
  | retry (port : Fin 16) (a : Arrival) (cls : Nat) (first : Nat) (count : Nat)
  /-- RETRY_TIMEOUT (R240). -/
  | retryTimeout (port : Fin 16) (cls : Nat) (seq : Nat)
  /-- REPLAY_REQ (R246). -/
  | replayReq (port : Fin 16) (a : Arrival) (slot : Nat) (tick : Nat)
  /-- PROBE (R39). -/
  | probe (port : Fin 16) (a : Arrival) (t1 t2 : Nat)
  /-- PROBE_RSP (R39). -/
  | probeRsp (port : Fin 16) (a : Arrival) (t1 t2 t3 t4 : Nat)
  /-- HELLO (R258). -/
  | hello (port : Fin 16) (h : HelloFrame)
  /-- SIGN (R259). -/
  | sign (port : Fin 16) (sig : SignFrame)
  /-- FINISH (R260). -/
  | finish (port : Fin 16) (a : Arrival) (acks : List Nat)
  /-- SECURE_TIMEOUT (R262). -/
  | secureTimeout (port : Fin 16)
  /-- FENCE_EXPIRY (R262). -/
  | fenceExpiry (port : Fin 16)
  /-- REKEY_TIMER (R261). -/
  | rekeyTimer (port : Fin 16)
  /-- OLD_PHASE_EXPIRY (R261). -/
  | oldPhaseExpiry (port : Fin 16)
  /-- DETOUR_SELECT (R255). -/
  | detourSelect (p : Path) (sel : Fin 16)
  /-- REVOKE_CNT_WRITE (R264). -/
  | revokeCntWrite (p : Path) (v : Word)
  /-- CHAIN_START (R265). -/
  | chainStart (p : Path)
  /-- CHAIN_ABORT (R286). -/
  | chainAbort (p : Path)
  /-- RELOAD (R271). -/
  | reload (p : Path)
  /-- REFILL (R282). -/
  | refill (p : Path) (v : Word)
  /-- SECTION_RECORD (R269). -/
  | sectionRecord (port : Fin 16) (r : LoadRecord)
  /-- SHARE_RECORD (R269). -/
  | shareRecord (port : Fin 16) (r : LoadRecord)
  /-- STATE_RECORD (R269). -/
  | stateRecord (port : Fin 16) (r : LoadRecord)
  /-- END_RECORD (R271). -/
  | endRecord (port : Fin 16) (r : LoadRecord)
  /-- SHARE_VERDICT (R273). -/
  | shareVerdict
  /-- REFILL_TIMEOUT (R284). -/
  | refillTimeout
  /-- CONFIG_REQUEST (R289). -/
  | configRequest (fn : Fin 256)
  /-- HOST_READ_COMPLETION (R290). -/
  | hostReadCompletion (tag : Nat) (r : HostRead)
  /-- COMPLETION_TIMEOUT (R290). -/
  | completionTimeout (tag : Nat)
  /-- BAR0_BAD_ACCESS (R292). -/
  | bar0BadAccess (p : Path) (addr len : Nat) (write : Bool)
  /-- BAR2_WRITE (R292). -/
  | bar2Write (fn : Fin 256) (addr : Nat)
  /-- RESULT_SLOT_READ (R302). -/
  | resultSlotRead (fn : Fin 256) (addr len : Nat)
  /-- QUEUE_ENABLE (R293). -/
  | queueEnable (fn : Fin 256) (q : Fin 64) (on : Bool)
  /-- CMDQ_DOORBELL (R294). -/
  | cmdqDoorbell (fn : Fin 256) (q : Fin 64) (v : Word)
  /-- NOP (R294). -/
  | nop (fn : Fin 256) (q : Fin 64)
  /-- SUBMIT (R295). -/
  | submit (fn : Fin 256) (q : Fin 64)
  /-- RING_DOORBELL (R298). -/
  | ringDoorbell (fn : Fin 256) (q : Fin 64) (v : Word)
  /-- QUEUE_RESTART (R307). -/
  | queueRestart (fn : Fin 256) (q : Fin 64)
  /-- SLOT_RELEASE (R304). -/
  | slotRelease (fn : Fin 256) (v : Word)
  /-- INVALIDATE (R308). -/
  | invalidate (p : Path) (scope : Fin 4)
  /-- INVALIDATE_COMPLETE (R308). -/
  | invalidateComplete
  /-- FLR (R312). -/
  | flr (fn : Fin 256)
  /-- VF_DISABLE (R312). -/
  | vfDisable
  /-- PF_FLR (R313). -/
  | pfFlr
  /-- FLR_COMPLETE (R312). -/
  | flrComplete (fn : Fin 256)
  /-- ZEROING_COMPLETE (R312). -/
  | zeroingComplete (tenant : Fin 256)
  /-- CREDIT_STALL (R27). -/
  | creditStall
  /-- POSTED_CREDIT_RETURN (R263). -/
  | postedCreditReturn (n : Nat)
  /-- MSIX_UNMASK (R310). -/
  | msixUnmask (fn : Fin 256) (vector : Fin 2048)
  /-- HOST_PORT_RESET (R371). -/
  | hostPortReset
  /-- COLLECTION_COMPLETE (R320). -/
  | collectionComplete (crcOk : List Bool)
  /-- STREAM_LIFETIME (R322). -/
  | streamLifetime (stream : Fin 65536)
  /-- FRAME_OPEN (R325). -/
  | frameOpen
  /-- FRAME_WINDOW_CLOSE (R326). -/
  | frameWindowClose (exposure sensor : Nat)
  /-- PUB_RING_DOORBELL (R329). -/
  | pubRingDoorbell (p : Path) (v : Word)
  /-- DIGEST_COMPLETE (R338). -/
  | digestComplete (stream : Fin 65536)
  /-- LEDGER_CHECKPOINT (R332). -/
  | ledgerCheckpoint
  /-- LEDGER_DOORBELL (R332). -/
  | ledgerDoorbell (p : Path) (v : Word)
  /-- NEW_NIGHT (R331). -/
  | newNight (p : Path)
  /-- PPS_EDGE (R346). -/
  | ppsEdge
  /-- REFERENCE_LOSS (R347). -/
  | referenceLoss (src : TimeSource)
  /-- QUALIFICATION_COMPLETE (R347). -/
  | qualificationComplete (src : TimeSource)
  /-- LOOP_UPDATE (R349). -/
  | loopUpdate (err : Int)
  /-- HOLDOVER_LIMIT (R352). -/
  | holdoverLimit
  /-- PPS_OUTPUT (R353). -/
  | ppsOutput
  /-- PPS_OUT_END (R353). -/
  | ppsOutEnd
  /-- TIME_SET (R357). -/
  | timeSet (p : Path)
  /-- TIME_LATCH (R361). -/
  | timeLatch (p : Path)
  /-- ANCHOR (R359). -/
  | anchor
  /-- SQ_NOTE (R359). -/
  | sqNote (p : Path) (v : Word)
  /-- NOTICE_APPLY (R359). -/
  | noticeApply
  /-- COLD_RESET (R370). -/
  | coldReset
  /-- SYS_RST_N_ASSERT (R370). -/
  | sysRstNAssert
  /-- WARM (R372). -/
  | warm (p : Path)
  /-- RESET_RELEASE (R367). -/
  | resetRelease (trsId : Fin 64)
  /-- ISLAND_BOOTED (R367). -/
  | islandBooted
  /-- BIST_COMPLETE (R369). -/
  | bistComplete (b : Bist) (f : Sfdp)
  /-- FIRMWARE_LOADED (R435). -/
  | firmwareLoaded (a b : FwCopy)
  /-- AVSBUS_FAILURE (R366). -/
  | avsbusFailure (rail : Fin 5)
  /-- AVS_RETRY (R366). -/
  | avsRetry (p : Path)
  /-- TELEMETRY_READ (R365). -/
  | telemetryRead (vout : List Nat) (pout : List Nat)
  /-- VOLTAGE_REACHED (R376). -/
  | voltageReached (q : Fin 4)
  /-- IDLE_STEP_DOWN (R378). -/
  | idleStepDown
  /-- DROOP (R379). -/
  | droop (q : Fin 4)
  /-- DROOP_END (R379). -/
  | droopEnd (q : Fin 4)
  /-- THERMAL_THRESHOLD (R381). -/
  | thermalThreshold (temps : List Nat)
  /-- DOZE (R384). -/
  | doze (p : Path)
  /-- DOZE_NOTE (R385). -/
  | dozeNote (p : Path)
  /-- DOZE_ENTRY_COMPLETE (R385). -/
  | dozeEntryComplete
  /-- WAKE (R388). -/
  | wake (p : Path)
  /-- EXIT_SIGNAL (R388). -/
  | exitSignal (port : Fin 16)
  /-- WAKE_COMPLETE (R389). -/
  | wakeComplete
  /-- AUTO_RESUME (R390). -/
  | autoResume
  /-- LOCKSTEP_MISMATCH (R395). -/
  | lockstepMismatch
  /-- ISLAND_REBOOT_COMPLETE (R395). -/
  | islandRebootComplete
  /-- JUNCTION_TRIP (R396). -/
  | junctionTrip (sensor : Fin 36) (temp : Nat)
  /-- SENSOR_IMPLAUSIBLE (R396). -/
  | sensorImplausible (sensor : Fin 36) (temp : Nat)
  /-- RAIL_OVERVOLTAGE (R396). -/
  | railOvervoltage (rail : Fin 12) (mv : Nat)
  /-- CORE_UNDERVOLTAGE (R396). -/
  | coreUndervoltage (q : Fin 4) (mv : Nat)
  /-- RETENTION_UNDERVOLTAGE (R396). -/
  | retentionUndervoltage (mv : Nat)
  /-- REGULATOR_FAULT (R396). -/
  | regulatorFault
  /-- QUARTER_CLOCK_FAULT (R396). -/
  | quarterClockFault (q : Fin 4) (mhz : Nat)
  /-- ISLAND_OSCILLATOR_FAULT (R396). -/
  | islandOscillatorFault (mhz : Nat)
  /-- HUB_WATCHDOG (R396). -/
  | hubWatchdog
  /-- LAUNCH_POWER_TRIP (R396). -/
  | launchPowerTrip (port : Fin 16)
  /-- GATE_CAUSE_CLEAR (R399). -/
  | gateCauseClear (cause : Fin 9)
  /-- KICK (R409). -/
  | kick (p : Path) (v : Word)
  /-- ALERT_ACK (R409). -/
  | alertAck (p : Path)
  /-- SELF_CHECK_COMPLETE (R400). -/
  | selfCheckComplete (bad : Option (Fin 512))
  /-- SELF_CHECK_ABANDON (R400). -/
  | selfCheckAbandon
  /-- VDD_OPT_FAULT (R405). -/
  | vddOptFault (mv : Nat)
  /-- VDD_OPT_RESTORE (R405). -/
  | vddOptRestore
  /-- BLACK_BOX_WRITE (R408). -/
  | blackBoxWrite
  /-- BEACON (R425). -/
  | beacon (h : TrsHead) (number source : Nat) (handover : Bool) (acks grants : Nat) (offUs : Int)
  /-- BEACON_MISS (R425). -/
  | beaconMiss
  /-- LISTEN_TIMEOUT (R425). -/
  | listenTimeout
  /-- ELECTION (R426). -/
  | election
  /-- SUPERFRAME_START (R425). -/
  | superframeStart
  /-- ASSIGNED_SLOT (R418). -/
  | assignedSlot
  /-- CONTENTION_SLOT (R423). -/
  | contentionSlot (slot : Fin 15)
  /-- CLAIM (R427). -/
  | claim (h : TrsHead)
  /-- TRESTLE_READ (R419). -/
  | trestleRead (h : TrsHead) (count addr : Nat)
  /-- TRESTLE_WRITE (R419). -/
  | trestleWrite (h : TrsHead) (addr : Nat) (words : List Word)
  /-- TRESTLE_WAKE (R422). -/
  | trestleWake (h : TrsHead)
  /-- SPI_READ (R430). -/
  | spiRead (cmd addr : Word) (words : Nat) (mode3 : Bool)
  /-- SPI_WRITE (R432). -/
  | spiWrite (cmd addr : Word) (words : List Word) (mode3 : Bool)
  /-- SPI_SELECT_RISE (R432). -/
  | spiSelectRise
  /-- FLASH_ERASE (R436). -/
  | flashErase (p : Path)
  /-- FLASH_PROGRAM (R436). -/
  | flashProgram (p : Path)
  /-- FLASH_READ (R436). -/
  | flashRead (p : Path)
  /-- FLASH_OPERATION_COMPLETE (R436). -/
  | flashOperationComplete
  /-- TAG_READ (R438). -/
  | tagRead (page : Nat) (crcOk : Bool)
  /-- TAG_WRITE (R439). -/
  | tagWrite (page : Nat) (data : List Byte) (crcOk : Bool)
  /-- READ_WIDE (R438). -/
  | readWide (page : Nat) (crcOk : Bool)
  /-- WRITE_BLOCK (R439). -/
  | writeBlock (blk : Nat) (data : List Byte) (crcOk : Bool)
  /-- GET_STATE (R438). -/
  | getState (crcOk : Bool)
  /-- TAG_COMMIT_COMPLETE (R440). -/
  | tagCommitComplete
  /-- FIELD_COLLAPSE (R440). -/
  | fieldCollapse (point : TearPoint)
  /-- SERVICE_RECORD_UPDATE (R437). -/
  | serviceRecordUpdate
  /-- PRBS_CHECKER_LOCK (R232). -/
  | prbsCheckerLock (port : Fin 16) (lane : Fin 12)
  /-- PRBS_CHECKER_LOCK_LOSS (R232). -/
  | prbsCheckerLockLoss (port : Fin 16) (lane : Fin 12)
  /-- LINK_DELAY_PROBE (R39). -/
  | linkDelayProbe (port : Fin 16) (t1 : Nat)
  /-- ETHERNET_LINK_UP (R228). -/
  | ethernetLinkUp (port : Fin 16)
  /-- ETHERNET_LINK_DOWN (R329). -/
  | ethernetLinkDown (port : Fin 16)
  /-- PCIE_LINK_RETURNS_TO_L0 (R370). -/
  | pcieLinkReturnsToL0
  /-- POWER_REMOVAL (R397). -/
  | powerRemoval
deriving DecidableEq, Repr

end Sys2Proof
end

