-- ==== Sys2Proof/Config.lean ====
section
/-!
DEFINITION. What an implementation or a board fixes and the spec leaves open, and the free values: opaque constants,
so that no proof can see one. Log entries name each.
-/
namespace Sys2Proof.Config

/-- The `n`-th free value drawn (log 4). -/
opaque freeWord : Nat → BitVec 64

/-- The `n`-th free byte string: byte `i` of it (log 4). -/
opaque freeByte : Nat → Nat → BitVec 8

/-- Whether a leaseholder at work is using the bank when another group's access to a row meets it: draw, and the row's number
among all scratchpads' (R188; log 4). -/
opaque bankBusy : Nat → Nat → Bool

/-- Whether the group of an active entry has its next instruction's operands when another group is ready: draw and entry (R70;
log 50). -/
opaque operandsIn : Nat → Nat → Bool

/-- The device is an AKL512-O (Table 00-2; log 5). -/
opaque variantO : Bool

/-- The silicon stepping number (Table 17-1; log 5). -/
opaque stepping : BitVec 8

/-- A host is attached (Table 17-1 CAP; log 5). -/
opaque hostAttached : Bool

/-- The fused 64-bit serial (R454; log 5). -/
opaque serial : BitVec 64

/-- WLD.CLU_BAD as fused (R285; log 5). -/
opaque cluBadFuse : Nat → BitVec 32

/-- Some byte of the `n` from bus address `a` lies in a BAR of the device as host software has programmed it after so many
configuration requests (R305 in_device_bars; log 6): requests, `a` and `n`. -/
opaque inDeviceBars : Nat → Nat → Nat → Bool

/-- Enable Relaxed Ordering of a function's configuration space after so many configuration requests (Table 11-1; log 6). -/
opaque relaxedOn : Nat → Nat → Bool

/-- The unit field of TCK.FAULT and votes for a link, the device, and no unit (R46, Table 02-6; log 10). -/
opaque linkUnit : Nat → Nat
opaque deviceUnit : Nat
opaque noUnit : Nat

/-- ERR_INFO codes of a stale-epoch marker, of a missing echo, of a tick number that cannot be reconciled, and of a stream that a
full table refuses, which the spec does not number (R43, R47, R48, R26; logs 12 and 53). -/
opaque staleEpochCode : Nat
opaque streamFullCode : Nat
opaque missingEchoCode : Nat
opaque tickGapCode : Nat

/-- Residence time of a marker in ps (R38; log 14). -/
opaque residence : Nat → Nat

/-- The fused V/F table: quarter and clock in MHz to mV (R373; log 5). -/
opaque vfTable : Nat → Nat → Nat

/-- PWR.STS's code of a failing boot step: 0 BIST, 1 firmware (R369; log 10). -/
opaque bootStep : Nat → Nat

/-- A byte of the tag's production pages 0 to 63 (Table 16-8; log 5). -/
opaque tagByte : Nat → BitVec 8

/-- A byte of the boot flash as the board fits it (R434; log 5). -/
opaque flashByte : Nat → BitVec 8

/-- The device's certificate chain (Table 09-13; log 5). -/
opaque certChain : List (BitVec 8)

/-- EXP2 and LOG2 of a finite input Table 04-8 does not list: a fixed function of it, which of the values near the exact one
the spec leaves to the device (R109; log 7). -/
opaque exp2 : BitVec 32 → BitVec 32
opaque log2 : BitVec 32 → BitVec 32

/-- What places a tensor descriptor's clk between the bounds that bank conflicts allow: a fixed function of the descriptor
and its handle entries (R189; log 44). -/
opaque conflictClk : List (BitVec 8) → List Nat → Nat

/-- The SHA-384 digest of the root, as fused (R259; log 5). -/
opaque rootDigest : List (BitVec 8)

/-- A certificate chain verifies to the root of a digest (R259; log 8): digest and chain. -/
opaque chainGood : List (BitVec 8) → List (BitVec 8) → Bool

/-- An ECDSA signature on P-384 by the device key of a chain verifies over a digest (R258, R259; log 8): chain, digest, signature. -/
opaque sigGood : List (BitVec 8) → List (BitVec 8) → List (BitVec 8) → Bool

/-- The 48-byte ECDH secret on P-384 of two ephemeral public keys, A's first (R258, R260; log 8). -/
opaque ecdhSecret : List (BitVec 8) → List (BitVec 8) → List (BitVec 8)

/-- AES-256-GCM: the ciphertext of a body, with the 16-byte tag behind it (R260; log 8): key, IV, AAD and body. -/
opaque gcm : List (BitVec 8) → List (BitVec 8) → List (BitVec 8) → List (BitVec 8) → List (BitVec 8)

/-- What a lane's receiver asks of the partner's transmit FFE, request + 4 × tap, and whether it is trained: draw (R212, R217; log
55). -/
opaque ffeWant : Nat → Nat
opaque rxTrained : Nat → Bool

/-- Bit errors that a locked PRBS checker meets in some bits: draw, and how many bits (R232; log 56). -/
opaque prbsErrors : Nat → Nat → Nat

/-- An Ethernet-mode port's list of at most 8 multicast MAC addresses: port and entry (Table 08-7; log 57). -/
opaque multicastMac : Nat → Nat → Option Nat

/-- The SHA-256 of a section as its table entry states it. The section holds a copy of that table, so which of its bytes the
digest covers the spec leaves open (R174, R176; log 23). -/
opaque sectionDigest : List (BitVec 8) → List (BitVec 8)

/-- What the host port's link trained to, after so many configuration requests and trainings: which of the rates and widths of
Table 11-1 (HST.LINK; log 5). -/
opaque pcieLink : Nat → Nat

/-- The received optical power of a port's lane at a time, in 0.1 dBm (PRT.OPT_LANE; log 4). -/
opaque rxPower : Nat → Nat → Nat → BitVec 16

/-- The rate of load hashing over the second before a time, in MB/s (PRV.LOAD_RATE, R270; log 4). -/
opaque loadRate : Nat → BitVec 16

/-- The NACK code that answers a MGMT write which a register refuses: Table 09-10 names none (R5; log 27). -/
opaque refusalNack : Nat

end Sys2Proof.Config
end

