-- ==== Sys2Proof/Machine/Map.lean ====
section
/-!
DEFINITION. Sparse tables, little-endian bytes, bit fields and sign extension (00 R2, Conventions).
-/
namespace Sys2Proof.Machine

/-- The entry of key `k`, if the table lists one. -/
def mfind {α : Type} (m : NMap α) (k : Nat) : Option α :=
  match m with
  | [] => none
  | (a, v) :: r => if a = k then some v else mfind r k

/-- The entry of key `k`, or the table's default. -/
def mget {α : Type} (d : α) (m : NMap α) (k : Nat) : α :=
  match mfind m k with
  | some v => v
  | none => d

/-- The table with `v` at `k`, keys kept rising. -/
def mput {α : Type} (m : NMap α) (k : Nat) (v : α) : NMap α :=
  match m with
  | [] => [(k, v)]
  | (a, w) :: r => if k < a then (k, v) :: (a, w) :: r else if k = a then (k, v) :: r else (a, w) :: mput r k v

/-- The table without the entry of `k`. -/
def merase {α : Type} (m : NMap α) (k : Nat) : NMap α := m.filter (fun p => p.1 != k)

/-- The table with `v` at `k`, where a default value is not listed. -/
def mset {α : Type} [DecidableEq α] (d : α) (m : NMap α) (k : Nat) (v : α) : NMap α :=
  if v = d then merase m k else mput m k v

/-- Keys strictly rising above `lo`, and no entry equal to the default. -/
def mwfFrom {α : Type} [DecidableEq α] (d : α) (lo : Nat) (m : NMap α) : Bool :=
  match m with
  | [] => true
  | (a, v) :: r => decide (lo ≤ a) && decide (v ≠ d) && mwfFrom d (a + 1) r

/-- Keys strictly rising, and no entry equal to the default. -/
def mwf {α : Type} [DecidableEq α] (d : α) (m : NMap α) : Bool := mwfFrom d 0 m

/-- `bits(x, hi, lo)` (00, Pseudocode). -/
def bits (x hi lo : Nat) : Nat := x / 2 ^ lo % 2 ^ (hi + 1 - lo)

/-- Bit `n` of `x`. -/
def bit (x n : Nat) : Bool := x / 2 ^ n % 2 == 1

/-- 1 for true. -/
def b2n (b : Bool) : Nat := if b then 1 else 0

/-- `x` with bits [hi:lo] set to `v`. -/
def setBits (x hi lo v : Nat) : Nat := x - bits x hi lo * 2 ^ lo + v % 2 ^ (hi + 1 - lo) * 2 ^ lo

/-- The integer that the low `w` bits of `x` spell in two's complement. -/
def sext (w x : Nat) : Int := if x % 2 ^ w < 2 ^ (w - 1) then (x % 2 ^ w : Nat) else (x % 2 ^ w : Nat) - (2 ^ w : Nat)

/-- An integer modulo 2^w. -/
def wrap (w : Nat) (x : Int) : Nat := (x % (2 ^ w : Nat)).toNat

/-- `n` little-endian bytes of `x` (R2). -/
def leBytes (n x : Nat) : List Byte :=
  match n with
  | 0 => []
  | n + 1 => BitVec.ofNat 8 x :: leBytes n (x / 256)

/-- The number that little-endian bytes spell (R2). -/
def leNat (l : List Byte) : Nat :=
  match l with
  | [] => 0
  | b :: r => b.toNat + 256 * leNat r

/-- `n` little-endian bytes of `l` from offset `o`, as a number; absent bytes read 0. -/
def leAt (l : List Byte) (o n : Nat) : Nat := leNat ((l.drop o).take n)

/-- `n` zero bytes. -/
def zeros (n : Nat) : List Byte := List.replicate n 0#8

/-- `l` cut or zero-filled to `n` bytes. -/
def padTo (n : Nat) (l : List Byte) : List Byte := (l ++ zeros (n - l.length)).take n

/-- The largest value of a 32-bit event counter (R472). -/
def cntMax : Nat := 0xFFFFFFFF

/-- A saturating count (R472). -/
def satAdd (x n : Nat) : Nat := min cntMax (x + n)

/-- Sum of a list. -/
def natSum (l : List Nat) : Nat := l.foldl (· + ·) 0

/-- Insert into a list kept in order `le`, behind its equals. -/
def insBy {α : Type} (le : α → α → Bool) (x : α) (l : List α) : List α :=
  match l with
  | [] => [x]
  | y :: r => if le y x then y :: insBy le x r else x :: y :: r

/-- A list sorted by `le`, equals in their order. -/
def sortBy {α : Type} (le : α → α → Bool) (l : List α) : List α := l.foldl (fun r x => insBy le x r) []

/-- `l` without its repeats of `x`. -/
def dropAll (l : List Nat) (x : Nat) : List Nat := l.filter (fun y => y != x)

/-- `l` with `x` once, at the end. -/
def addOnce (l : List Nat) (x : Nat) : List Nat := if l.contains x then l else l ++ [x]

/-- A 32-bit register word of a number. -/
def w32 (x : Nat) : Word := BitVec.ofNat 32 x

/-- Entry `k` of an association list kept in order of arrival. -/
def lfind {α : Type} (l : List (Nat × α)) (k : Nat) : Option α := (l.find? (fun p => p.1 == k)).map (·.2)

/-- The association list with entry `k` replaced, or added at the end. -/
def lput {α : Type} (l : List (Nat × α)) (k : Nat) (v : α) : List (Nat × α) :=
  if l.any (fun p => p.1 == k) then l.map (fun p => if p.1 == k then (k, v) else p) else l ++ [(k, v)]

/-- The association list without entry `k`. -/
def ldrop {α : Type} (l : List (Nat × α)) (k : Nat) : List (Nat × α) := l.filter (fun p => p.1 != k)

end Sys2Proof.Machine
end

