-- ==== Sys2Proof/Machine/Hash.lean ====
section
/-!
DEFINITION. The checks and digests the spec names: CRC-32C of payloads (12), the tag's CRC-16 (16 R440), SHA-256 (12
R334 to R337), and SHA-384 with HKDF (09 R258, R260), by their published definitions.
-/
namespace Sys2Proof.Machine

/-- One bit step of the reflected CRC-32C. -/
def crc32Bit (c : BitVec 32) : BitVec 32 := if c.getLsbD 0 then (c >>> 1) ^^^ 0x82F63B78#32 else c >>> 1

/-- One byte of CRC-32C. -/
def crc32Byte (c : BitVec 32) (b : Byte) : BitVec 32 := (List.range 8).foldl (fun x _ => crc32Bit x) (c ^^^ b.setWidth 32)

/-- CRC-32C of bytes. -/
def crc32c (l : List Byte) : BitVec 32 := (l.foldl crc32Byte 0xFFFFFFFF#32) ^^^ 0xFFFFFFFF#32

/-- One byte of CRC-16/CCITT: polynomial 0x1021. -/
def crc16Byte (c : BitVec 16) (b : Byte) : BitVec 16 :=
  (List.range 8).foldl (fun x _ => if x.getLsbD 15 then (x <<< 1) ^^^ 0x1021#16 else x <<< 1) (c ^^^ (b.setWidth 16 <<< 8))

/-- CRC-16/CCITT of bytes from 0xFFFF. -/
def crc16 (l : List Byte) : BitVec 16 := l.foldl crc16Byte 0xFFFF#16

/-- The greatest `r < 2 ^ bits` whose `k`-th power is at most `n`, found from its top bit down. -/
def rootFloor (k n : Nat) (bits : Nat) : Nat :=
  match bits with
  | 0 => 0
  | b + 1 =>
    let r := rootFloor k (n / 2 ^ k) b * 2
    if (r + 1) ^ k ≤ n then r + 1 else r

/-- The primes below 410: the first 80. -/
def smallPrimes : List Nat :=
  (List.range 410).filter (fun n => decide (2 ≤ n) && (List.range 21).all (fun d => decide (d < 2) || n % d != 0 || n == d))

/-- The first `w` bits after the point of the `k`-th root of `n`. -/
def rootFraction (w k n : Nat) : BitVec w := BitVec.ofNat w (rootFloor k (n * 2 ^ (w * k)) (w + 5))

/-- What tells the two digests of the SHA-2 family apart beside their word width: two rotations and a shift of each schedule
function, three rotations of each round function, the round constants and the first state. -/
structure Sha2 (w : Nat) where
  late : Nat × Nat × Nat
  early : Nat × Nat × Nat
  choose : Nat × Nat × Nat
  vote : Nat × Nat × Nat
  rounds : List (BitVec w)
  first : List (BitVec w)

/-- SHA-256: constants of the cube roots of the first 64 primes, and of the square roots of the first 8. -/
def Sha2.of256 : Sha2 32 :=
  { late := (17, 19, 10), early := (7, 18, 3), choose := (6, 11, 25), vote := (2, 13, 22),
    rounds := (smallPrimes.take 64).map (rootFraction 32 3), first := (smallPrimes.take 8).map (rootFraction 32 2) }

/-- SHA-384: constants of the cube roots of the first 80 primes, and of the square roots of the ninth to the sixteenth. -/
def Sha2.of384 : Sha2 64 :=
  { late := (19, 61, 6), early := (1, 8, 7), choose := (14, 18, 41), vote := (28, 34, 39),
    rounds := smallPrimes.map (rootFraction 64 3), first := ((smallPrimes.drop 8).take 8).map (rootFraction 64 2) }

/-- A word rotated by two counts and shifted by a third, mixed. -/
def mixShift {w : Nat} (x : BitVec w) (r : Nat × Nat × Nat) : BitVec w := x.rotateRight r.1 ^^^ x.rotateRight r.2.1 ^^^ (x >>> r.2.2)

/-- A word rotated by three counts, mixed. -/
def mixTurn {w : Nat} (x : BitVec w) (r : Nat × Nat × Nat) : BitVec w :=
  x.rotateRight r.1 ^^^ x.rotateRight r.2.1 ^^^ x.rotateRight r.2.2

/-- The message schedule, newest word first, lengthened by `n` words: each from the last 16. -/
def Sha2.schedule {w : Nat} (h : Sha2 w) (n : Nat) (l : List (BitVec w)) : List (BitVec w) :=
  match n with
  | 0 => l
  | n + 1 =>
    let x (i : Nat) : BitVec w := l.getD i 0
    h.schedule n ((mixShift (x 1) h.late + x 6 + mixShift (x 14) h.early + x 15) :: l)

/-- One round on the eight words of the state, with a round constant and a word of the schedule. -/
def Sha2.round {w : Nat} (h : Sha2 w) (s : List (BitVec w)) (kw : BitVec w × BitVec w) : List (BitVec w) :=
  let v (i : Nat) : BitVec w := s.getD i 0
  let in_ := v 7 + mixTurn (v 4) h.choose + ((v 4 &&& (v 5 ^^^ v 6)) ^^^ v 6) + kw.1 + kw.2
  let out := mixTurn (v 0) h.vote + ((v 0 &&& (v 1 ||| v 2)) ||| (v 1 &&& v 2))
  [in_ + out, v 0, v 1, v 2, v 3 + in_, v 4, v 5, v 6]

/-- A big-endian number of bytes. -/
def beNat (l : List Byte) : Nat := l.foldl (fun x b => x * 256 + b.toNat) 0

/-- `n` big-endian bytes of `x`. -/
def beBytes (n x : Nat) : List Byte := (leBytes n x).reverse

/-- One block of 16 words. -/
def Sha2.block {w : Nat} (h : Sha2 w) (s : List (BitVec w)) (b : List Byte) : List (BitVec w) :=
  let words := (List.range 16).map (fun i => BitVec.ofNat w (beNat ((b.drop (w / 8 * i)).take (w / 8))))
  let all := (h.schedule (h.rounds.length - 16) words.reverse).reverse
  List.zipWith (· + ·) s ((h.rounds.zip all).foldl h.round s)

/-- The blocks of a padded message. -/
def Sha2.blocks {w : Nat} (h : Sha2 w) (n : Nat) (s : List (BitVec w)) (l : List Byte) : List (BitVec w) :=
  match n with
  | 0 => s
  | n + 1 => h.blocks n (h.block s (l.take (2 * w))) (l.drop (2 * w))

/-- The digest of bytes, all eight words of it: the message is padded with a set bit and zeros, and its length in bits in two
words ends it. -/
def Sha2.digest {w : Nat} (h : Sha2 w) (l : List Byte) : List Byte :=
  let tail := w / 4
  let m := l ++ [0x80#8] ++ zeros ((2 * w * 2 - 1 - tail - l.length % (2 * w)) % (2 * w)) ++ beBytes tail (8 * l.length)
  (h.blocks (m.length / (2 * w)) h.first m).flatMap (fun x => beBytes (w / 8) x.toNat)

/-- SHA-256 of bytes. -/
def sha256 (l : List Byte) : List Byte := Sha2.of256.digest l

/-- SHA-384 of bytes: the first 48 of the digest (R258). -/
def sha384 (l : List Byte) : List Byte := (Sha2.of384.digest l).take 48

/-- HMAC-SHA-384 of a message under a key of at most 128 bytes. -/
def hmac384 (key m : List Byte) : List Byte :=
  let k := padTo 128 key
  sha384 (k.map (· ^^^ 0x5C#8) ++ sha384 (k.map (· ^^^ 0x36#8) ++ m))

/-- HKDF-SHA-384: `n` bytes, at most 96, from keying material, a salt and an info string (R260). -/
def hkdf384 (ikm salt info : List Byte) (n : Nat) : List Byte :=
  let prk := hmac384 salt ikm
  let t1 := hmac384 prk (info ++ [1#8])
  (t1 ++ hmac384 prk (t1 ++ info ++ [2#8])).take n

end Sys2Proof.Machine
end

