-- ==== Sys2Proof/Machine/State.lean ====
section
/-!
DEFINITION. What the block holds: every register, buffer, queue, counter, mode and pin the spec gives the device,
as plain data. `State.reset` is the device as a cold reset leaves it, before SYS_RST_N rises (14 R367, R370).
-/
namespace Sys2Proof.Machine

/-- Why a step may stop. No meaning of this block raises one: every violation of the spec is answered, logged and
the device goes on (00 R5). -/
inductive Fault where
  /-- Kept for an access outside the address spaces of 01 R20; no meaning raises it. Safe. -/
  | outsideAddressSpace (addr : Nat)
deriving DecidableEq, Repr

/-- Why a command may have no meaning. -/
inductive Refusal where
  /-- Raised by an arm of `exec` whose command has no meaning yet, by its mnemonic. Safe. -/
  | notModelled (mnemonic : String)
deriving DecidableEq, Repr

/-! ### What the device sends -/

/-- What a frame on a Ronba port carries (Tables 09-2 and 09-4). -/
inductive Content where
  /-- A SLOT frame's segment (R244). -/
  | slot (f : SlotFrame)
  /-- A REQ, RSP, MGMT or TOSS frame (R254). -/
  | routed (f : RFrame)
  /-- A tick marker (R37, R38). -/
  | marker (m : Marker)
  /-- A vote, echo or halt report (R46, R47, R59). -/
  | vote (v : Vote)
  /-- LINK frames (Table 09-9): credit counters and acknowledgements, RETRY, REPLAY_REQ, and a probe of one timestamp or a
  response of three, in ps (R39, R240, R245). -/
  | status (credits acks : List Nat)
  | retry (cls first count : Nat)
  | replayReq (slot tick : Nat)
  | probe (stamps : List Nat)
  /-- SECURE messages (Table 09-13). -/
  | hello (h : Hello)
  | sign (sig : List Byte)
  | finish (acks : List Nat)
deriving DecidableEq, Repr

/-- A frame on a Ronba port (Table 09-1): its key phase, its sequence number, the key and salt it is encrypted under, none of a
frame in clear (R258, R260), and what it carries. -/
structure Frame where
  kp : Bool
  seq : Nat
  key : List Byte
  content : Content
deriving DecidableEq, Repr

/-- One thing the device has sent to the outside (log 3). -/
inductive Out where
  /-- A frame on a Ronba port (R236). -/
  | frame (port : Nat) (f : Frame)
  /-- A training frame on a lane, by its control word (R216, Table 08-3). -/
  | training (port lane : Nat) (cw : BitVec 64)
  /-- The answer to a load record (R267): its port, chain, number, and 0 for OK or the NACK code. -/
  | recordReply (port chain number nack : Nat)
  /-- A write of at most 512 bytes to host memory at a bus address, and whether it carries Relaxed Ordering (R287, R297, R332). -/
  | hostWrite (addr : Nat) (data : List Byte) (relaxed : Bool)
  /-- A read request to host memory (R290). -/
  | hostRead (tag addr len : Nat)
  /-- An MSI-X message of a function's vector (R310). -/
  | msix (fn vector : Nat)
  /-- The answer to a register read (Table 00-3). -/
  | regData (p : Path) (addr : Nat) (lo : Word) (hi : Option Word)
  /-- The answer to a BAR2 read (R302). -/
  | bar2Data (fn : Nat) (data : List Byte)
  /-- A configuration request answered (R289): true when ready, false for retry status. -/
  | config (fn : Nat) (ready : Bool)
  /-- An AER report (R290): 0 uncorrectable non-fatal, 1 poisoned TLP. -/
  | aer (kind : Nat)
  /-- An error response to a violating write (R5). -/
  | denied (p : Path) (addr : Nat)
  /-- A publication datagram on an Ethernet-mode port (R329): next-hop MAC, source address and port, destination address and
  port, record. -/
  | datagram (port mac src srcUdp ip udp : Nat) (data : List Byte)
  /-- An ARP or neighbour advertisement (Table 08-7). -/
  | neighbourReply (port mac ip : Nat)
  /-- A DAC frame (R350). -/
  | dac (prefixByte : Option Nat) (code : Nat)
  /-- An AVSBus voltage write: rail select, mV (R365). -/
  | avs (rail mv : Nat)
  /-- A frame on the Trestle line (Table 16-3, Table 16-4). -/
  | trestle (type dst src seq : Nat) (payload : List Byte)
  /-- The words MISO carries in an SPI frame (R430). -/
  | miso (words : List Word)
  /-- A tag answer: 16 bytes, or ACK 0xA, or NAK code (Table 16-9). -/
  | tagData (data : List Byte)
  | tagAck
  | tagNak (code : Nat)
  /-- The low-power-idle exit signal on a port (R388). -/
  | exitSignal (port : Nat)
deriving DecidableEq, Repr

/-! ### The tick (02) -/

/-- TCK.STS.state (Table 02-7). -/
inductive TickState where
  | idle
  | run
  | hold
  | stretch
deriving DecidableEq, Repr

/-- The phase of the tick in progress (Table 02-1); `waiting` when the open phase ended with no marker (R41), `none`
when no tick runs. -/
inductive Phase where
  | none
  | opening
  | waiting
  | body
  | repair
  | sealing
deriving DecidableEq, Repr

/-- The unit a tick fault is charged to (Table 02-6). -/
inductive FaultUnit where
  | cluster (c : Nat)
  | link (port : Nat)
  | device
  | none
deriving DecidableEq, Repr

/-- A tick fault: its code (Table 02-6) and the unit charged. -/
structure TickFault where
  code : Nat
  unit : FaultUnit
deriving DecidableEq, Repr

/-- A vote as it is merged up the marker tree (R46). -/
structure VoteSum where
  fail : Bool
  escalate : Bool
  count : Nat
  code : Nat
  unit : Nat
  device : Nat
deriving DecidableEq, Repr

/-- The tick machine of the device (R30 to R66). -/
structure Tick where
  state : TickState
  phase : Phase
  /-- The tick timer: ns since the local tick start (R39). -/
  ns : Nat
  /-- TCK.COUNT (R34). -/
  count : Nat
  attempt : Nat
  /-- The device has flipped speculatively and not yet applied a verdict (R45, R48). -/
  undecided : Bool
  /-- The followed, and the highest seen, keystone epoch (R43). -/
  epoch : Nat
  /-- The device has accepted a marker since the image load (R34). -/
  joined : Bool
  /-- A marker for the tick in progress has been accepted (R41). -/
  marked : Bool
  /-- The parent's marker of this tick was damaged; an alternate may stand in (R241). -/
  parentDamaged : Bool
  /-- The parent's marker of the tick that is about to start was damaged (R241). -/
  damagedEarly : Bool
  /-- The last marker accepted. -/
  last : Option Marker
  /-- Tick starts since the last accepted marker (R42, R66). -/
  silent : Nat
  /-- Markers of other ports that disagreed with the parent's by more than 5 ns (R38). -/
  disagree : Nat
  /-- The tick start that the parent's last marker gave, with its tick and attempt, and those of other ports' markers that
  came before it (R38, R39): ps after the predicted start. -/
  mkParent : Option (Nat × Nat × Int)
  mkOthers : List (Nat × Nat × Int)
  /-- Uptime at which the two marker periods after the last accepted marker end (R66). -/
  heardUntil : Nat
  /-- The device emits markers (SPN.ROLE.keystone, Table 01-2). -/
  keystone : Bool
  /-- The device declared itself failed (R48). -/
  selfFailed : Bool
  /-- The first fault of the attempt, and the TCK.FAULT record (R53). -/
  fault : Option TickFault
  /-- Every fault of the attempt with its unit (R56). -/
  faults : List TickFault
  faultReg : Word
  /-- Failed attempts per unit for the tick in progress (R56): cluster c at c, port p at 512 + p, device at 528. -/
  fails : NMap Nat
  /-- Ports that lead to children on the marker tree (R46; log 11). -/
  children : List Nat
  /-- A vote deadline has passed since the children were forgotten, so that every child is known (log 11). -/
  treeKnown : Bool
  reported : List Nat
  votes : VoteSum
  voteSent : Bool
  /-- The keystone's decision for the attempt, and whether the backup echoed it (R45, R47). -/
  decision : Option Nat
  echoed : Bool
  /-- The verdict this device, as backup, echoed for the attempt (R42, R47). -/
  echoSent : Option Nat
  /-- TCK.CMD.hold, PWR.CMD.doze or DBG_MAX expiry asks for STOP at the next seal (R60, R65, R384). -/
  stopAsked : Bool
  /-- TCK.CMD.start or resume waits for the clock raises (R378): 1 start, 2 resume. -/
  starting : Nat
  /-- det_eff and the effective stretch bit (R61, R58). -/
  detEff : Bool
  stretchEff : Bool
  /-- A device of a child's subtree reports a halted group (R59). -/
  haltedBelow : List Nat
  /-- A group was halted on the span during the attempt, as far as the device knows (R59). -/
  haltSeen : Bool
  /-- The gate was seen closed in the attempt (R398). -/
  gateSeen : Bool
  /-- A viaduct transfer of the attempt was uncorrectable (Table 02-6). No command brings one about (log 43). -/
  viaductUe : Bool
  /-- An uncorrectable word of hub SRAM was read in the attempt (R200, Table 02-6). No command brings one about (log 43). -/
  hubUe : Bool
  /-- Tenants whose context was killed in the attempt, and the dead ones (R89, R90). -/
  killed : List Nat
  /-- The fault code of each kill of the attempt (R322, Table 11-5). -/
  killCodes : List (Nat × Nat)
  dead : List Nat
  /-- Restarts waiting for the next seal (R90), and program advances (R169). -/
  restarts : List Nat
  advances : List Nat
  /-- Tenants withdrawn at the next committing seal (R312). -/
  withdrawals : List Nat
deriving DecidableEq, Repr

/-! ### Clusters (03 to 07) -/

/-- An entry of the join stack (Table 04-1). -/
structure JoinEntry where
  path : Bool
  pc : Nat
  mask : Word
deriving DecidableEq, Repr

/-- What holds a group back (R70). -/
inductive GroupWait where
  | ready
  | fence (scope : Nat)
  | counter (c v : Nat)
  | response
deriving DecidableEq, Repr

/-- A launched group (Table 04-1 and R70 to R76). -/
structure Group where
  tenant : Nat
  block : Nat
  index : Nat
  code : Nat
  window : Nat
  /-- Launch order (R72). -/
  order : Nat
  t : NMap Word
  p : NMap Word
  u : NMap Word
  pc : Nat
  active : Word
  stk : List JoinEntry
  wait : GroupWait
  /-- Remote requests without a response, and copies outstanding (R70, R116). -/
  remote : Nat
  copies : Nat
  /-- Debug (R92): halted; running one step; the step's instruction has issued, and its results are not all written. -/
  halted : Bool
  stepping : Bool
  stepped : Bool
  bpHit : Bool
deriving DecidableEq, Repr

/-- A live block (R67, R76): its tenant, groups not yet retired, copies outstanding, arrival counters and whether a
JOIN waits for it. -/
structure Block where
  tenant : Nat
  groups : Nat
  copies : Nat
  counters : NMap Nat
deriving DecidableEq, Repr

/-- An ARRIVE that waits for its group's earlier accesses, those asked for before `upto` (R79, R123): the group's slot, tenant and
block, the counter, and the address of the instruction. It outlives the group. -/
structure Arrive where
  slot : Nat
  tenant : Nat
  block : Nat
  upto : Nat
  counter : Nat
  addr : Nat
deriving DecidableEq, Repr

/-- A thread copy in the copy engine (R78, R124): `slot` is the group slot that issued it. -/
structure ThreadCopy where
  id : Nat
  tenant : Nat
  slot : Nat
  block : Nat
  counter : Nat
  src : Nat
  dst : Nat
  srcOff : Nat
  dstOff : Nat
  len : Nat
  /-- Pieces still without their response; a remote side has R473's pieces. -/
  pieces : Nat
  data : List Byte
  /-- Launch order of the issuing group, and the span address of the CPY (R80, R130). -/
  order : Nat
  addr : Nat
deriving DecidableEq, Repr

/-- A descriptor in an engine (R145): its tenant, context, code offset and bytes, the clk it takes (R145, R152, R162, R189) and
those it has run; `raced` when another descriptor wrote what it reads while it ran (R144). `order` numbers the device's
descriptors as their engines accept them; `held` and `had` are the banks leased to its engine in every clk, and in some clk,
since it started (R165). -/
structure Desc where
  tenant : Nat
  ctx : Nat
  addr : Nat
  bytes : List Byte
  total : Nat
  ran : Nat
  raced : Bool
  order : Nat
  held : Word
  had : Word
deriving DecidableEq, Repr

/-- One engine: one running and one queued descriptor (R145). -/
structure Engine where
  running : Option Desc
  queued : Option Desc
deriving DecidableEq, Repr

/-- SEQ context states (Table 06-11). -/
inductive CtxState where
  | empty
  | run
  | wait
  | done
  | halted
  | dead
  | off
deriving DecidableEq, Repr

/-- What a context in WAIT waits for (R159, R166). -/
inductive CtxWait where
  | none
  | until (ns : Nat)
  | clks (n : Nat)
  | idle (mask : Nat)
  | join (blk : Nat)
deriving DecidableEq, Repr

/-- A context table entry (Table 06-7). -/
structure CtxEntry where
  tenant : Nat
  used : Bool
  blockMask : Nat
  allot : Nat
  programs : Nat
  base : Nat
  len : Nat
  list : Nat
deriving DecidableEq, Repr

/-- A sequencer context (R156). -/
structure Ctx where
  pc : Nat
  lc : NMap Nat
  state : CtxState
  /-- Of a DEAD context: the state it returns to at a restart (R90). -/
  prior : CtxState
  wait : CtxWait
  program : Nat
  /-- It issued a word in the attempt's body (R173). -/
  live : Bool
  /-- clk during which it issues nothing (Table 06-1 hold, R168). -/
  hold : Nat
deriving DecidableEq, Repr

/-- What a re-run restores of a cluster (R55, R156). -/
structure ClusterSave where
  ctxs : NMap Ctx
  leases : List Word
  sr : BitVec 64
deriving DecidableEq, Repr

/-- A scrubber (R202 to R205), of a cluster or a quarter store. -/
structure Scrub where
  n : Nat
  visit : Nat
  /-- Evaluations in a row with no corrected error, and the count since the last evaluation (R203). -/
  clean : Nat
  errors : Nat
  /-- Words queued for repair, and the row read and not yet written back (R201, R205). -/
  repair : List Nat
  row : Option Nat
  /-- TCK.COUNT when the pass began (R204). -/
  started : Nat
deriving DecidableEq, Repr

/-- One logical cluster. -/
structure Cluster where
  /-- The handle table: 1,024 entries of 128 bits (Table 07-2), and written entries not yet in force (R199). -/
  handles : NMap (BitVec 128)
  handlePend : NMap (BitVec 128)
  hdlRefused : Bool
  hdlReason : Nat
  ctxTab : NMap CtxEntry
  ctxs : NMap Ctx
  groups : NMap Group
  /-- The active set: entry to group slot (R67, R72). -/
  active : NMap Nat
  rotate : Nat
  rotateDet : Nat
  launches : Nat
  blocks : NMap Block
  copies : List ThreadCopy
  copyIds : Nat
  /-- ARRIVEs not yet performed, oldest first (R79). -/
  arrivals : List Arrive
  tensor : Engine
  vector : Engine
  copier : Engine
  /-- Bank leases T, V, D, G (R187), and grants not yet in effect: mask, group and the clk left (R165). -/
  leases : List Word
  grants : List (Word × Nat × Nat)
  sr : BitVec 64
  /-- The least slack of the attempt (R173), in ns, and the last committed one. -/
  slackNow : Option Nat
  slack : Nat
  scrub : Scrub
  /-- The group slot halted for debug (R91). -/
  dbgBusy : Bool
  traceIdx : Nat
  saved : ClusterSave
deriving DecidableEq, Repr

/-! ### Ports (08) and link state (09) -/

/-- PRT.STS.state (Table 08-2). -/
inductive PortState where
  | quiet
  | detect
  | backoff
  | train
  | align
  | measure
  | secure
  | up
  | retrain
  | fenced
deriving DecidableEq, Repr

/-- The interlock states (Table 08-6). -/
inductive OptState where
  | off
  | beacon
  | raise
  | full
deriving DecidableEq, Repr

/-- One lane: FFE taps in 1/64 (R217), adaptation values (R221) now and 10 µs before, PRBS lock, rx_ready counts. -/
structure Lane where
  taps : List Int
  status : Nat
  ctle : Nat
  dfe : List Int
  slicer : List Int
  /-- CTLE, DFE and threshold values at the ends of the last windows of 1 µs, newest first (R222). -/
  held : List (Nat × List Int × List Int)
  /-- The coefficients stored when the port last came up: taps, CTLE, DFE and thresholds (Table 08-2 RETRAIN). -/
  stored : Option (List Int × Nat × List Int × List Int)
  seen : Bool
  /-- Consecutive frames with rx_ready set, received and sent; this lane's receiver is trained (R212, Table 08-3). -/
  ready : Nat
  ours : Nat
  trained : Bool
  /-- The FFE request this end holds, and its tap (R217). -/
  request : Nat
  tap : Nat
  prbsLock : Bool
  /-- Error counts of the last windows, newest first, freeze windows left out (R222). -/
  history : List Nat
deriving DecidableEq, Repr

/-- Sequence and retry state of one class on one port (R238 to R240). -/
structure ClassSeq where
  next : Nat
  top : Nat
  w0 : BitVec 64
  w1 : BitVec 64
  started : Bool
  /-- Frames sent and not acknowledged, oldest first (R240). -/
  unacked : List Frame
  /-- Frames that wait for room in the window of 128, or a vote for credit (R240, R249). -/
  waiting : List Content
deriving DecidableEq, Repr

/-- The identity exchange on a port (R258 to R262). -/
structure Secure where
  hello : Option Hello
  theirs : Option Hello
  accepted : Bool
  /-- Keys and salts in use (R260): transmit, receive; those an exchange derived, which are not in use yet; and the old receive
  key during a rekey (R261). -/
  txKey : List Byte
  rxKey : List Byte
  newTx : List Byte
  newRx : List Byte
  oldKey : Option (List Byte)
  /-- Key phase sent, and key phase received. -/
  kp : Bool
  rxKp : Bool
  /-- Receive state of the old phase while it is accepted (R261). -/
  oldSeqs : NMap ClassSeq
  rekeying : Bool
  switchAt : Bool
  /-- When the exchanges of the last 100 ms started, in ns since reset release (R261). -/
  starts : List Nat
  fences : Nat
  /-- When the tag failures on clean codewords of the last 1 ms came (R242). -/
  authFails : List Nat
deriving DecidableEq, Repr

/-- One port. -/
structure Port where
  state : PortState
  started : Bool
  ethernet : Bool
  ethUp : Bool
  failReason : Nat
  uncAlarm : Bool
  fecLock : Bool
  signal : Nat
  partner : Option (Nat × Nat)
  backoffN : Nat
  /-- Expected neighbour's logical number (Table 06-15), none with no image. -/
  expected : Option Nat
  lanes : NMap Lane
  delay : Nat
  /-- The number of the next block of codewords not yet counted (R208, R210). -/
  blocks : Nat
  uncWindow : Nat
  /-- The burst guard (R222): loops frozen, windows of 1 µs since the freeze began. -/
  frozen : Bool
  frozenFor : Nat
  /-- The optical engine (R223 to R227). -/
  opt : OptState
  optHot : Bool
  lpi : Bool
  seqs : NMap ClassSeq
  /-- Credits: units freed by us, and the partner's counters, per pool in Table 09-9's order; units we have spent. -/
  freed : NMap Nat
  granted : NMap Nat
  spent : NMap Nat
  /-- Routed frames waiting at this output, with the port each came in on (16: this device) (R249, R253, R254). -/
  queue : List (Nat × RFrame)
  /-- A counter or an acknowledgement has changed since the last STATUS, and when that was sent (R240). -/
  statusDue : Bool
  statusAt : Nat
  secure : Secure
deriving DecidableEq, Repr

/-! ### The fabric (09) -/

/-- A slot table entry in force (Table 09-11). -/
structure Slot where
  dir : Nat
  port : Nat
  outPort : Nat
  cluster : Nat
  owner : Nat
  start : Nat
  len : Nat
  outStart : Nat
deriving DecidableEq, Repr

/-- A slot armed by a context, or by the WLD engine (R163, R275), and what became of it in the attempt. -/
structure Armed where
  slot : Nat
  tx : Bool
  cluster : Nat
  handle : Nat
  offset : Nat
  late : Bool
  refresh : Bool
  sent : Bool
  replay : Bool
  /-- Receive side: segments received, segments discarded for a flag or an entry check, whether a frame failed its entry
  check, replay asked, slot checked, and whether bytes differed from the test pattern (R234, R245). `sent` and `replay`
  also say that a frame of the body, or of the replay, was received. -/
  got : List Nat
  exc : List Nat
  failed : Bool
  asked : Bool
  closed : Bool
  differs : Bool
deriving DecidableEq, Repr

/-- Why a confirmed request was sent (R116, R473, R267). -/
inductive ReqUse where
  | lane (cluster slot lane reg : Nat) (wide : Nat) (sext : Bool)
  | store (cluster slot : Nat)
  | atom (cluster slot lane reg : Nat)
  | copy (cluster id : Nat) (write : Bool) (offset : Nat)
  | record (chain number : Nat)
  | mgmt (device : Nat)
  /-- Of a group of a block that has retired (R76, R116): whether it writes. -/
  | gone (cluster slot block : Nat) (write : Bool)
deriving DecidableEq, Repr

/-- An outstanding request with its reserved home (R248). -/
structure Pending where
  unit : Nat
  entry : Nat
  tenant : Nat
  addr : Nat
  size : Nat
  use : ReqUse
  /-- When it was asked for, among the device's requests (R79). -/
  order : Nat
  discarded : Bool
deriving DecidableEq, Repr

/-- A confirmed request that waits for a home (R248); `via` where it does not follow its address: a port, or a physical
torus number (R267). -/
structure Request where
  tenant : Nat
  unit : Nat
  access : Access
  data : List Byte
  use : ReqUse
  order : Nat
  mgmt : Bool
  via : Option (Bool × Nat)
deriving DecidableEq, Repr

/-- An atomic held at its home (R257). -/
structure HeldAtomic where
  port : Nat
  head : RHead
  access : Access
  data : List Byte
deriving DecidableEq, Repr

/-- A detour table (R255, Table 06-18). -/
structure Detour where
  map : NMap Nat
  escape : NMap Nat
  ranks : NMap Nat
  mask : Nat
  express : List (Nat × Nat)
deriving DecidableEq, Repr

/-- The fabric of the device. -/
structure Fabric where
  /-- Slot tables by placement 0 to 8: key placement × 65,536 + slot. -/
  slots : NMap Slot
  armed : List Armed
  /-- Slots whose replay is wanted, with the ns at which it ends once sent, 0 before (R246). -/
  replays : List (Nat × Nat)
  /-- Slots, with their ports, of which a frame failed its entry check while none was armed (R245). -/
  bad : List (Nat × Nat)
  /-- Home reservations: key unit × 256 + tenant; homes in use are the entries of `pending`. -/
  homes : NMap Nat
  pending : List Pending
  /-- Requests that wait for a home, oldest first (R248). -/
  sendq : List Request
  /-- Requests asked for and descriptors accepted so far. -/
  asked : Nat
  /-- Responses of this device to its own requests, and its own MGMT requests, on the way to delivery (R251). -/
  back : List RFrame
  /-- MGMT requests outstanding per device (R250). -/
  mgmtOut : NMap Nat
  atomics : List HeldAtomic
  detours : NMap Detour
  /-- The detour table in effect (FAB.STS). -/
  detour : Nat
deriving DecidableEq, Repr

/-! ### Image and load (06, 10) -/

/-- Stream class (Table 06-22). -/
structure StreamClass where
  cls : Nat
  tenant : Nat
  source : Nat
  paths : Nat
  inLimit : Nat
  outLimit : Nat
  life : Nat
  tiles : Nat
  window : Nat
  intake : List (Nat × Nat × Nat)
  outlets : List (Nat × Nat)
deriving DecidableEq, Repr

/-- A run of bytes of a handle (Table 06-20). -/
structure Extent where
  cluster : Nat
  handle : Nat
  offset : Nat
  len : Nat
deriving DecidableEq, Repr

/-- A refresh list record (Table 06-21): entries are slot, cluster, handle, offset. -/
structure Refresh where
  tenant : Nat
  program : Nat
  ticks : Nat
  entries : List (Nat × Nat × Nat × Nat)
deriving DecidableEq, Repr

/-- A redundancy group (Table 06-23). -/
structure RGroup where
  index : Nat
  form : Nat
  members : List Nat
  copy : List Extent
  state : List (Nat × Extent)
deriving DecidableEq, Repr

/-- The image and its admission (R174 to R179). -/
structure Image where
  loaded : Bool
  /-- SPN.ADMIT: done, pass, failing check, item. -/
  admitDone : Bool
  admitPass : Bool
  admitCheck : Nat
  admitItem : Nat
  self : Nat
  fSched : Nat
  tenants : Nat
  imgDigest : List Byte
  wgtDigest : List Byte
  /-- Tick, repair and free-window lengths of each placement: the header's, then the shadows' (R281). -/
  lengths : List (Nat × Nat × Nat)
  shareLen : Nat
  shareDigest : List Byte
  shareExtents : List Extent
  stateExtents : List Extent
  refreshes : List Refresh
  groups : List RGroup
  classes : List StreamClass
  /-- Code regions: quarter, offset, length (R157). -/
  code : List (Nat × Nat × Nat)
  /-- Physical cluster of each logical cluster that is not its own (R285). -/
  spared : NMap Nat
  /-- Program boundaries of each tenant since image load (Table 12-6). -/
  epochs : NMap Nat
  /-- Refresh ticks left of each tenant whose contexts are OFF for a staging refresh (R275). -/
  staging : NMap Nat
deriving DecidableEq, Repr

/-- One chain entry under way (R266, R267): the next record its head reads, records read and not yet answered, and the
parts of records as host memory delivers them. -/
structure Chain where
  running : Bool
  next : Nat
  unanswered : Nat
  parts : NMap (List Byte)
deriving DecidableEq, Repr

/-- Which request a withheld record's answer goes to (R269): its port, or its frame's header and access block; or, of a record
that this device's own head-host entry has read, that entry. -/
structure HeldRecord where
  record : LoadRecord
  port : Nat
  frame : Option (RHead × Access)
  head : Option Nat
deriving DecidableEq, Repr

/-- Loading at this device as keeper and as link (R267 to R271). -/
structure Load where
  chains : NMap Chain
  /-- Per chain ID: the lowest record number not yet received, and those received above it (R267). -/
  windows : List (Nat × Nat × List Nat)
  /-- Payloads of the section by offset, and of the share (R269, R270). -/
  section_ : NMap (List Byte)
  share : NMap (List Byte)
  shareBytes : Nat
  stateBytes : Nat
  /-- Records withheld until admission, or until the span leaves RUN and STRETCH (R265, R269). -/
  held : List HeldRecord
  ended : Bool
  /-- WLD.STS.verdict: 0 none, 1 LOADING, 2 OK, 3 BAD. -/
  verdict : Nat
  firstBad : Nat
  clustersShort : Bool
deriving DecidableEq, Repr

/-! ### Host port (11) -/

/-- What a device read of host memory is for (R290). -/
inductive ReadUse where
  | entry (fn q : Nat)
  | walk (id : Nat)
  | input (fn q part : Nat)
  | kind3 (id part : Nat)
  | chain (entry number part : Nat)
deriving DecidableEq, Repr

/-- What a walk serves (R305, R307). -/
inductive WalkUse where
  | submit (fn q : Nat)
  | output (stream : Nat)
  | kind3 (id : Nat)
  | chain (entry number : Nat)
deriving DecidableEq, Repr

/-- A part of an access, within one 4 KiB page: window offset, length and whether it writes (R305). -/
structure Part where
  off : Nat
  len : Nat
  write : Bool
deriving DecidableEq, Repr

/-- A walk under way (R305): its tenant, the part it translates now, the level and table it has reached, the parts still
to come, and the bus addresses of those done. `stale` when an invalidation met it (R308). -/
structure Walk where
  id : Nat
  tenant : Nat
  part : Part
  level : Nat
  table : Nat
  rest : List Part
  done : List (Nat × Part)
  use : WalkUse
  stale : Bool
deriving DecidableEq, Repr

/-- A kind 3 access under way (R305, R309): the port its request came on, its head, fields and data, and for one that reads, the
bus addresses of its parts and what has been read of them. -/
structure Kind3 where
  id : Nat
  port : Nat
  head : RHead
  access : Access
  data : List Byte
  parts : List (Nat × Part)
  got : NMap (List Byte)
deriving DecidableEq, Repr

/-- A cached leaf translation, and the bus address of the table entry it came from (R308, R305). -/
structure Tlb where
  tenant : Nat
  level : Nat
  va : Nat
  pa : Nat
  write : Bool
  entry : Nat
deriving DecidableEq, Repr

/-- QSTS.state (Table 11-10). -/
inductive QueueState where
  | off
  | run
  | stopped
deriving DecidableEq, Repr

/-- A SUBMIT under way: its entry, the bus addresses of its input parts, and the input read so far by part (R295). -/
structure Submit where
  entry : List Byte
  parts : List (Nat × Part)
  got : NMap (List Byte)
deriving DecidableEq, Repr

/-- A completion entry on its way to a ring (Table 11-5): committing tick, stream and bytes without phase. -/
structure RingEntry where
  tick : Nat
  stream : Option Nat
  bytes : List Byte
deriving DecidableEq, Repr

/-- A queue pair (R293 to R299). -/
structure Queue where
  state : QueueState
  status : Nat
  /-- The configuration taken when enable was set (R293). -/
  base : Nat
  size : Nat
  ringBase : Nat
  ringSize : Nat
  ringCfg : Nat
  head : Nat
  tail : Nat
  /-- A fetch is outstanding; the entry fetched and not yet checked. -/
  fetching : Bool
  fetched : Option (List Byte)
  job : Option Submit
  ringTail : Nat
  phase : Bool
  ringHead : Nat
  /-- Completions waiting for room in the ring (R299). -/
  waiting : List RingEntry
  /-- The committed tick whose MSI-X message the ring has sent (R297). -/
  msgTick : Nat
  faultVa : Nat
  faultEntry : Nat
  faultCode : Word
deriving DecidableEq, Repr

/-- A result slot (Table 11-6). -/
structure ResultSlot where
  generation : Nat
  state : Nat
  bytes : List Byte
deriving DecidableEq, Repr

/-- A function (R287 to R315). -/
structure Function where
  ready : Bool
  flr : Bool
  zeroing : Bool
  slots : NMap ResultSlot
  /-- MSI-X: vectors unmasked, and messages pending under a mask (R310; log 18). -/
  unmasked : List Nat
  pendingMsg : List Nat
deriving DecidableEq, Repr

/-- A host-bound write or message: its function, the tenant and virtual address it was translated from (R308), and the stream
whose completion it is (R297). -/
structure HostOut where
  out : Out
  fn : Nat
  trans : Option (Nat × Nat)
  stream : Option Nat
deriving DecidableEq, Repr

/-- The host port. -/
structure HostPort where
  linkUp : Bool
  fns : NMap Function
  queues : NMap Queue
  /-- Outstanding reads by tag: the function each serves, its bus address and use (R290). -/
  reads : List (Nat × Nat × Nat × ReadUse)
  tags : Nat
  /-- Reads that wait for one of the 1,024 places: function, bus address, length and use (R287). -/
  readq : List (Nat × Nat × Nat × ReadUse)
  walks : List Walk
  walkIds : Nat
  kind3s : List Kind3
  kind3Ids : Nat
  tlb : List Tlb
  /-- An invalidation under way: scope, tenant, virtual address and pages (R308). -/
  inval : Option (Nat × Nat × Nat × Nat)
  /-- Host-bound writes held for posted credits, oldest first (R263). -/
  held : List HostOut
  /-- The host has held posted credits for more than 1 ms (R27). -/
  stalled : Bool
  /-- Routes that may send (ERR.ACK, R459): the disarmed ones. -/
  disarmed : List Nat
  /-- Configuration requests answered and link trainings, which may each change what the host programmed (log 6). -/
  configs : Nat
  /-- Command-queue doorbells that came during an attempt and wait for the next commit: function, queue and tail (R52). -/
  doorbells : List (Nat × Nat × Nat)
deriving DecidableEq, Repr

/-! ### Services (12) -/

/-- What a SUBMIT left in its stream's completion record (Table 11-3, R25). -/
structure HostCmd where
  fn : Nat
  queue : Nat
  ring : Nat
  cmdId : Nat
  toSlot : Bool
  slot : Nat
  generation : Nat
  toOut : Bool
  outOff : Nat
  outLimit : Nat
deriving DecidableEq, Repr

/-- A stream of the stream table (R25, R316). -/
structure Stream where
  cls : Nat
  tenant : Nat
  /-- A host-submitted stream's command. -/
  host : Option HostCmd
  /-- Hash input of the delivered intake units (R336). -/
  inputs : List Byte
  /-- The tick in which its first unit was delivered. -/
  started : Option Nat
  /-- Finished, in which tick with what status, detail and payload (R322); time and quality of that tick. -/
  finished : Bool
  status : Nat
  detail : Nat
  output : List Byte
  /-- The payload CRC of the record that finished it (R404). -/
  crc : Nat
  tick : Nat
  sec : Nat
  ns : Nat
  quality : Nat
  /-- Bytes 0x98 to 0xA7 of the provenance block, and the input and provenance digests (R336, R337). -/
  block : List Byte
  inDigest : List Byte
  digest : List Byte
  pubNo : Nat
  /-- Its digest is complete and its egress released (R338, R297). -/
  released : Bool
deriving DecidableEq, Repr

/-- An intake unit (Table 12-2) of one target: cluster and handle, 64-byte header and payload. -/
structure Unit_ where
  stream : Nat
  cluster : Nat
  handle : Nat
  index : Nat
  header : List Byte
  payload : List Byte
  /-- It counts for the stream's input digest, once among the targets of its class. -/
  hashed : Bool
  /-- Delivered in the attempt in progress (R318). -/
  given : Bool
deriving DecidableEq, Repr

/-- An open frame (R325, R326): the tile indexes received, the tick of the first delivery, counts, and whether its window
has closed in the tick in progress. -/
structure OpenFrame where
  exposure : Nat
  sensor : Nat
  stream : Nat
  got : List Nat
  first : Option Nat
  late : Nat
  dup : Nat
  closing : Bool
deriving DecidableEq, Repr

/-- An outlet record collected in the attempt (R319, R320): a RESULT or a SPAWN. -/
structure OutRecord where
  spawn : Bool
  status : Nat
  stream : Nat
  cls : Nat
  payload : List Byte
  /-- The payload's CRC-32C, computed at collection and carried from there on (R404). -/
  crc : Nat
deriving DecidableEq, Repr

/-- A night-ledger entry (Table 12-5). -/
structure LedgerEntry where
  number : Nat
  tick : Nat
  kind : Nat
  detail : Nat
  quality : Nat
  tenant : Nat
  sec : Nat
  ns : Nat
  body : List Byte
deriving DecidableEq, Repr

/-- One thing in the egress hold (R51): a kind 3 write with its translation (R309), or a NOP's completion (R296). -/
inductive Egress where
  | write (tenant va addr : Nat) (data : List Byte)
  | nop (fn q ring cmdId : Nat)
deriving DecidableEq, Repr

/-- The hub's services. -/
structure Service where
  streams : List (Nat × Stream)
  units : List Unit_
  /-- Inputs that arrived during the attempt and wait for the next commit (R52). -/
  arriving : List Unit_
  frames : List OpenFrame
  /-- Frames whose windows have closed: exposure, sensor (R326). -/
  closed : List (Nat × Nat)
  /-- The ingest hold (R325): tiles waiting to open their frame, oldest first. -/
  holdTiles : List Tile
  collecting : Bool
  records : List OutRecord
  /-- Streams whose lifetime has passed; they finish at the next commit (R322). -/
  expired : List Nat
  egress : List Egress
  /-- Events to be ledgered at the next commit, and the ledger ring. -/
  events : List (Nat × Nat × List Byte)
  ledger : List LedgerEntry
  entryNo : Nat
  blockNo : Nat
  pubNo : Nat
  prevDigest : List Byte
  /-- A block waits for room in the host ring (R332). -/
  blockDue : Bool
  ledgerSlot : Nat
  ledgerPhase : Bool
  ledgerHead : Nat
  /-- The host publication ring (R329). -/
  pubTail : Nat
  pubPhase : Bool
  pubHead : Nat
  pubWaiting : List (List Byte)
deriving DecidableEq, Repr

/-! ### Time (13) -/

/-- Time unit states (Table 13-2). -/
inductive TimeState where
  | locked
  | holdover
  | freeRun
  | qualifying
deriving DecidableEq, Repr

/-- A quality notice held for its effective tick (R359). -/
structure Notice where
  quality : Nat
  event : Nat
  state : Nat
  tick : Nat
  /-- It is visible (R52). -/
  visible : Bool
deriving DecidableEq, Repr

/-- The time unit (R340 to R360). -/
structure TimeUnit where
  sec : Nat
  ns : Nat
  /-- TAI of the attempt's start, and of the marker before (R340, R342). -/
  startSec : Nat
  startNs : Nat
  prevTai : Int
  have_ : Bool
  state : TimeState
  came : TimeState
  source : Nat
  trusted : List Nat
  qualifying : List Nat
  holdover : Nat
  theta : Int
  freq : Int
  slewing : Bool
  slewRate : Int
  stepDue : Int
  /-- The step of the tick in progress, for its TICK_TIME entry (R360). -/
  stepDone : Int
  slewRemainder : Int
  /-- The bound when the last time source was lost (R358), and the quality byte last announced (R359). -/
  lockedBound : Nat
  announced : Nat
  setDone : Bool
  quality : Nat
  notices : List Notice
  anchorTicks : Nat
  lastEdge : Option Int
  edgesGood : Nat
  missed : Nat
  clockClass : Nat
  meanPath : Nat
  ppsOut : Bool
  lastPulse : Option Int
deriving DecidableEq, Repr

/-! ### Power (14), safety island (15) -/

/-- PWR.STS.state (Table 14-8). -/
inductive PowerState where
  | boot
  | active
  | entering
  | doze
  | waking
  | recovery
deriving DecidableEq, Repr

/-- One quarter's clock and rail (R373 to R379). -/
structure Quarter where
  f : Nat
  set : Nat
  readback : Nat
  /-- A raise waits for its voltage (R376); a lowering waits for the open phase. -/
  raiseTo : Option Nat
  lowerTo : Option Nat
  avsStopped : Bool
  noDown : Nat
  overran : Bool
  stretched : Bool
  /-- clk since body start, and two-thousandths carried (ns against MHz, R380). -/
  clk : Nat
  frac : Nat
  slack : Nat
  temp : Nat
deriving DecidableEq, Repr

/-- Power control. -/
structure Power where
  /-- Rails are up; SYS_RST_N is high; the board removed power. -/
  on : Bool
  released : Bool
  state : PowerState
  throttle : Bool
  /-- What sets throttle: a junction at 105 °C, and the power cap (R381, R383). -/
  hot : Bool
  capped : Bool
  thermalCrit : Bool
  avsFault : Bool
  bootFail : Bool
  bootStep : Nat
  wakeSrc : Nat
  wakeHeld : List Nat
  /-- A wake has come since the span last ran (R390). -/
  woken : Bool
  quarters : NMap Quarter
  avsFails : NMap Nat
  capOver : Nat
  capUnder : Nat
  pout : List Nat
  rstCause : Nat
  bootTime : Nat
  dozeAsked : Bool
  wakeNs : Nat
  /-- ns since reset release. -/
  uptime : Nat
  bistDone : Bool
deriving DecidableEq, Repr

/-- A fault record (Table 15-8). -/
structure FaultRecord where
  number : Nat
  code : Nat
  actions : Nat
  time : Nat
  detail : Nat
  unit : Nat
deriving DecidableEq, Repr

/-- The safety island. -/
structure Island where
  ready : Bool
  /-- GATE_CAUSE bits that hold (Table 15-5). -/
  causes : List Nat
  kill : Bool
  alert : Bool
  sensorCrit : Bool
  latched : Bool
  /-- Laser-disable lines by port, with the reasons that hold them: 0 reboot or reset, 1 light, 2 VDD_OPT, 3 launch. Only a
  port with an optical engine has the line (Table 00-2), so an entry of another port holds nothing. -/
  lines : List (Nat × Nat)
  sensorsFailed : List Nat
  /-- The two sets of isolation comparators disagree (R402). -/
  disagree : Bool
  records : List FaultRecord
  recHead : Nat
  copied : Nat
  firstMismatch : Option Nat
  inhibit : Bool
  cleanTick : Nat
  cleanRun : Nat
  /-- The self-check of the attempt's seal passed (R401). -/
  selfOk : Bool
  firmware : Bool
  tripped : List Nat
deriving DecidableEq, Repr

/-! ### Management paths (16) -/

/-- Trestle node states (Table 16-6). -/
inductive TrsState where
  | listen
  | follow
  | coast
  | silent
  | source
deriving DecidableEq, Repr

/-- A frame the node holds until a slot comes (R418). -/
structure TrsFrame where
  type : Nat
  dst : Nat
  seq : Nat
  payload : List Byte
  attempts : Nat
  usedSlot : Option Nat
  /-- The time since reset before which no assigned slot takes it (R419). -/
  due : Nat
deriving DecidableEq, Repr

/-- The Trestle node (R413 to R427). -/
structure Trestle where
  strap : Nat
  state : TrsState
  number : Nat
  source : Nat
  grants : Nat
  acks : Nat
  missed : Nat
  idConflict : Bool
  held : List TrsFrame
  /-- Per source: last REQ number executed, and its RSP (R420). -/
  lastReq : List (Nat × Nat × List Byte)
  eventSeq : Nat
  handover : Bool
  /-- Contention slots still to wait (R423), the contention slot in progress, and the slots of this superframe in which a
  frame with a valid FCS came (R423). -/
  wait : Option Nat
  slot : Option Nat
  heard : Nat
  /-- The number of the last good beacon's superframe (R426). -/
  lastGood : Nat
deriving DecidableEq, Repr

/-- The SPI slave (R429 to R432): words still expected when a frame was left, mid-word or not. -/
structure Spi where
  partialFrame : Bool
  badCmd : Bool
  mode3 : Bool
  inFrame : Bool
  expected : Nat
deriving DecidableEq, Repr

/-- The boot flash (R433 to R436). -/
structure Flash where
  booted : Nat
  aValid : Bool
  bValid : Bool
  width : Nat
  clock : Nat
  version : Nat
  /-- Operation under way: 1 erase, 2 program, 3 read; its address, and the bytes to program. -/
  op : Option (Nat × Nat × List Byte)
  bytes : NMap Byte
deriving DecidableEq, Repr

/-- The commit state of one tag block (R440): copies with their CRCs valid for a counter, and the counter words. -/
structure TagBlock where
  c0 : List Byte
  c1 : List Byte
  ok0 : Option Nat
  ok1 : Option Nat
  w0 : Option Nat
  w1 : Option Nat
deriving DecidableEq, Repr

/-- An operation that waits at the tag while another commit runs (R439): a read of 16 bytes within 256 or 512 pages,
GET_STATE, a reader's page or block write, a store of the device's, and the black box head for a record. -/
inductive TagJob where
  | read (page pages : Nat)
  | state
  | page (page : Nat) (data : List Byte)
  | block (blk : Nat) (data : List Byte)
  | store (blk : Nat) (data : List Byte)
  | head (number : Nat)
deriving DecidableEq, Repr

/-- The service tag (R437 to R441). -/
structure Tag where
  blocks : NMap TagBlock
  field : Bool
  ready : Bool
  /-- A commit under way: block, data, from a reader (true) or the island or device. -/
  op : Option (Nat × List Byte × Bool)
  queue : List TagJob
  commits : Nat
  /-- Boots and power-on hours since production; the first update of this boot is still to come (Table 16-8). -/
  boots : Nat
  hours : Nat
  fresh : Bool
deriving DecidableEq, Repr

/-- Pins that are inputs or outputs on their own (Table 18-2). -/
structure Pins where
  optInhibit : Bool
  vrFault : Bool
  perst : Bool
deriving DecidableEq, Repr

/-! ### The state -/

/-- The block's whole state. `pending` is the queue of waiting commands. -/
structure State where
  pending : List Instr
  /-- Registers: key (bank × 65,536 + page) × 1,024 + offset / 4; unlisted reads the register's reset value. -/
  regs : NMap Word
  /-- Values in force of the registers that take effect at a seal (R33, R450). -/
  eff : NMap Word
  /-- RC events gathered while their page is frozen (R445). -/
  hidden : NMap Nat
  /-- Scratchpads (cluster × 2^22 + P) and quarter stores (2^31 + quarter × 2^26 + offset). -/
  mem : List Host.Cell
  /-- 64-bit words with a bad check code: 1 single-bit, 2 uncorrectable (R200, R201). Key: byte address / 8;
  handle-table words lie above 2^40. For hub SRAM see `Tick.hubUe`. -/
  ecc : NMap Nat
  /-- Byte addresses of scratchpads and quarter stores written since the attempt began (R49). -/
  written : List Nat
  freeCtr : Nat
  out : List Out
  tick : Tick
  image : Image
  clusters : NMap Cluster
  /-- The quarter stores' scrubbers (R204). -/
  scrubs : NMap Scrub
  ports : NMap Port
  fabric : Fabric
  load : Load
  host : HostPort
  svc : Service
  time : TimeUnit
  power : Power
  island : Island
  trestle : Trestle
  spi : Spi
  flash : Flash
  tag : Tag
  pins : Pins
deriving DecidableEq, Repr

/-! ### The state after reset

A cold reset with SYS_RST_N still low (14 R367, R370). A value with no rule named is the model's (log 9). -/

/-- The tick machine: IDLE, count 0 (Table 02-7). -/
def Tick.reset : Tick :=
  { state := .idle, phase := .none, ns := 0, count := 0, attempt := 0, undecided := false, epoch := 0, joined := false,
    marked := false, parentDamaged := false, damagedEarly := false, last := none, silent := 0, disagree := 0,
    mkParent := none, mkOthers := [], heardUntil := 0, keystone := false,
    selfFailed := false, fault := none, faults := [], faultReg := 0#32, fails := [], children := [],
    treeKnown := false, reported := [], votes := ⟨false, false, 0, 0, 0, 0⟩, voteSent := false, decision := none, echoed := false,
    echoSent := none, stopAsked := false, starting := 0, detEff := false, stretchEff := false,
    haltedBelow := [], haltSeen := false, gateSeen := false, viaductUe := false, hubUe := false, killed := [], killCodes := [], dead := [], restarts := [], advances := [],
    withdrawals := [] }

/-- A context: EMPTY (Table 06-11). -/
def Ctx.reset : Ctx :=
  { pc := 0, lc := [], state := .empty, prior := .empty, wait := .none, program := 0, live := false, hold := 0 }

/-- An unused context table entry (Table 06-7). -/
def CtxEntry.reset : CtxEntry :=
  { tenant := 0, used := false, blockMask := 0, allot := 0, programs := 0, base := 0, len := 0, list := 0 }

/-- A scratchpad scrubber: n = 14 (Table 07-4). -/
def Scrub.reset (n : Nat) : Scrub :=
  { n := n, visit := 0, clean := 0, errors := 0, repair := [], row := none, started := 0 }

/-- All 32 banks leased to the D port, none to T, V, G (R187, Table 07-4). -/
def leasesReset : List Word := [0#32, 0#32, 0xFFFFFFFF#32, 0#32]

/-- The retained copy of a cluster with nothing in it. -/
def ClusterSave.reset : ClusterSave := { ctxs := [], leases := leasesReset, sr := 0#64 }

/-- A cluster after reset (03, 05, 06, 07). -/
def Cluster.reset : Cluster :=
  { handles := [], handlePend := [], hdlRefused := false, hdlReason := 0, ctxTab := [], ctxs := [], groups := [],
    active := [], rotate := 0, rotateDet := 0, launches := 0, blocks := [], copies := [], copyIds := 0, arrivals := [],
    tensor := ⟨none, none⟩, vector := ⟨none, none⟩, copier := ⟨none, none⟩, leases := leasesReset, grants := [], sr := 0#64,
    slackNow := none, slack := 0, scrub := Scrub.reset 14, dbgBusy := false,
    traceIdx := 0, saved := ClusterSave.reset }

/-- A lane: taps at preset, adaptation values 0. -/
def Lane.reset : Lane :=
  { taps := [0, 0, 0, 0], status := 0, ctle := 0, dfe := [0, 0, 0], slicer := [0, 0, 0], held := [],
    stored := none, seen := false, ready := 0, ours := 0, trained := false, request := 0, tap := 0, prbsLock := false, history := [] }

/-- The state of one class of a link not yet started (R238). -/
def ClassSeq.reset : ClassSeq :=
  { next := 0, top := 0, w0 := 0#64, w1 := 0#64, started := false, unacked := [], waiting := [] }

/-- No identity exchange, no keys (R258). -/
def Secure.reset : Secure :=
  { hello := none, theirs := none, accepted := false, txKey := [], rxKey := [], newTx := [], newRx := [], oldKey := none, kp := false,
    rxKp := false, oldSeqs := [],
    rekeying := false, switchAt := false, starts := [], fences := 0, authFails := [] }

/-- A port: QUIET, engine OFF (R212, R224). -/
def Port.reset : Port :=
  { state := .quiet, started := false, ethernet := false, ethUp := false, failReason := 0, uncAlarm := false,
    fecLock := false, signal := 0, partner := none, backoffN := 0, expected := none, lanes := [], delay := 0,
    blocks := 0, uncWindow := 0, frozen := false, frozenFor := 0, opt := .off, optHot := false, lpi := false,
    seqs := [], freed := [], granted := [], spent := [], queue := [], statusDue := false, statusAt := 0,
    secure := Secure.reset }

/-- A detour table that names nothing (R255). -/
def Detour.reset : Detour := { map := [], escape := [], ranks := [], mask := 0, express := [] }

/-- The fabric with no slots, homes or requests. -/
def Fabric.reset : Fabric :=
  { slots := [], armed := [], replays := [], bad := [], homes := [], pending := [], sendq := [], asked := 0, back := [], mgmtOut := [], atomics := [], detours := [],
    detour := 0 }

/-- No image (R174, Table 17-5). -/
def Image.reset : Image :=
  { loaded := false, admitDone := false, admitPass := false, admitCheck := 0, admitItem := 0, self := 0x7FF,
    fSched := 0, tenants := 0, imgDigest := [], wgtDigest := [], lengths := [], shareLen := 0, shareDigest := [], shareExtents := [],
    stateExtents := [], refreshes := [], groups := [], classes := [], code := [], spared := [], epochs := [],
    staging := [] }

/-- A chain entry at rest. -/
def Chain.reset : Chain := { running := false, next := 0, unanswered := 0, parts := [] }

/-- No load under way, verdict 0 (Table 10-5). -/
def Load.reset : Load :=
  { chains := [], windows := [], section_ := [], share := [], shareBytes := 0, stateBytes := 0, held := [],
    ended := false, verdict := 0, firstBad := 0, clustersShort := false }

/-- A queue pair: OFF, phase 1 (Table 11-10). -/
def Queue.reset : Queue :=
  { state := .off, status := 0, base := 0, size := 0, ringBase := 0, ringSize := 0, ringCfg := 0, head := 0, tail := 0,
    fetching := false, fetched := none, job := none, ringTail := 0, phase := true, ringHead := 0, waiting := [],
    msgTick := 0, faultVa := 0, faultEntry := 0, faultCode := 0#32 }

/-- A slot: FREE, generation 0 (R302). -/
def ResultSlot.reset : ResultSlot := { generation := 0, state := 0, bytes := [] }

/-- A function: not ready, vectors masked (Table 11-9; log 18). -/
def Function.reset : Function :=
  { ready := false, flr := false, zeroing := false, slots := [], unmasked := [], pendingMsg := [] }

/-- The host port: link down, nothing outstanding. -/
def HostPort.reset : HostPort :=
  { linkUp := false, fns := [], queues := [], reads := [], tags := 0, readq := [], walks := [], walkIds := 0, kind3s := [],
    kind3Ids := 0, tlb := [], inval := none, held := [], stalled := false, disarmed := [], configs := 0, doorbells := [] }

/-- Services with no streams, numbers at 0 (12). -/
def Service.reset : Service :=
  { streams := [], units := [], arriving := [], frames := [], closed := [], holdTiles := [], collecting := false,
    records := [], expired := [], egress := [], events := [], ledger := [], entryNo := 0, blockNo := 0, pubNo := 0,
    prevDigest := [], blockDue := false, ledgerSlot := 0, ledgerPhase := true, ledgerHead := 0, pubTail := 0,
    pubPhase := true, pubHead := 0, pubWaiting := [] }

/-- The time unit: FREE-RUN, quality 0xFB (R352, Table 13-6). -/
def TimeUnit.reset : TimeUnit :=
  { sec := 0, ns := 0, startSec := 0, startNs := 0, prevTai := 0, have_ := false, state := .freeRun, came := .freeRun,
    source := 0, trusted := [], qualifying := [], holdover := 0, theta := 0, freq := 0, slewing := false, slewRate := 0,
    stepDue := 0, stepDone := 0, slewRemainder := 0, lockedBound := 0, announced := 0xFB, setDone := false, quality := 0xFB, notices := [], anchorTicks := 0,
    lastEdge := none, edgesGood := 0, missed := 0, clockClass := 0, meanPath := 0, ppsOut := false,
    lastPulse := none }

/-- A quarter at 900 MHz and 800 mV (Table 14-8). -/
def Quarter.reset : Quarter :=
  { f := 900, set := 800, readback := 800, raiseTo := none, lowerTo := none, avsStopped := false,
    noDown := 0, overran := false, stretched := false, clk := 0, frac := 0, slack := 0, temp := 0 }

/-- Power control: BOOT, rails up, SYS_RST_N low, cause cold (R367, R370). -/
def Power.reset : Power :=
  { on := true, released := false, state := .boot, throttle := false, hot := false, capped := false, thermalCrit := false, avsFault := false,
    bootFail := false, bootStep := 0, wakeSrc := 0, wakeHeld := [], woken := false, quarters := [], avsFails := [], capOver := 0,
    capUnder := 0, pout := [], rstCause := 1, bootTime := 0, dozeAsked := false, wakeNs := 0, uptime := 0,
    bistDone := false }

/-- The island: gate cause reset holds, firmware not running, no records (R399, Table 15-9). -/
def Island.reset : Island :=
  { ready := false, causes := [0], kill := false, alert := false, sensorCrit := false, latched := false,
    lines := [(4, 0), (5, 0), (6, 0), (7, 0), (8, 0), (9, 0), (10, 0), (11, 0)],
    sensorsFailed := [], disagree := false, records := [], recHead := 0, copied := 0, firstMismatch := none, inhibit := false,
    cleanTick := 0, cleanRun := 0, selfOk := false, firmware := false, tripped := [] }

/-- The Trestle node: LISTEN (Table 16-11). -/
def Trestle.reset : Trestle :=
  { strap := 0, state := .listen, number := 0, source := 0, grants := 0, acks := 0, missed := 0, idConflict := false,
    held := [], lastReq := [], eventSeq := 0, handover := false, wait := none, slot := none, heard := 0, lastGood := 0 }

/-- The SPI slave at rest. -/
def Spi.reset : Spi := { partialFrame := false, badCmd := false, mode3 := false, inFrame := false, expected := 0 }

/-- Boot flash not yet read. -/
def Flash.reset : Flash :=
  { booted := 0, aValid := false, bValid := false, width := 0, clock := 0, version := 0, op := none, bytes := [] }

/-- A tag block whose copies hold zeros at counter 0. -/
def TagBlock.reset : TagBlock :=
  { c0 := List.replicate 16 0#8, c1 := List.replicate 16 0#8, ok0 := some 0, ok1 := none, w0 := some 0, w1 := some 0 }

/-- The service tag at rest. -/
def Tag.reset : Tag :=
  { blocks := [], field := false, ready := false, op := none, queue := [], commits := 0, boots := 0, hours := 0,
    fresh := false }

/-- The block right after a cold reset. -/
def State.reset : State :=
  { pending := [], regs := [], eff := [], hidden := [], mem := [], ecc := [], written := [], freeCtr := 0, out := [],
    tick := Tick.reset, image := Image.reset, clusters := [], scrubs := [], ports := [], fabric := Fabric.reset, load := Load.reset,
    host := HostPort.reset, svc := Service.reset, time := TimeUnit.reset, power := Power.reset, island := Island.reset,
    trestle := Trestle.reset, spi := Spi.reset, flash := Flash.reset, tag := Tag.reset,
    pins := ⟨false, false, false⟩ }

end Sys2Proof.Machine
end

