-- ==== Sys2Proof/Machine/Frames.lean ====
section
/-!
DEFINITION. Frames on a Ronba port bit for bit (09 R236, R237, R260, Tables 09-1 to 09-9 and 09-13), the symbols of a block of codewords on
the lanes (08 R207, R208), training frames (R216) and the test patterns (R232).
-/
namespace Sys2Proof.Machine

/-! ### Blocks of codewords (R207, R208) -/

/-- The lane of symbol `n` of block `k`: the stream is dealt four symbols at a time, across block boundaries. -/
def symbolLane (k n : Nat) : Nat := (2176 * k + n) / 4 % 12

/-- The codeword of symbol `n` of a block: the four codewords are written symbol by symbol in turn. -/
def symbolWord (n : Nat) : Nat := n % 4

/-- The lanes of the symbol errors in codeword `i` of a block. -/
def lanesOf (b : CwBlock) (i : Nat) : List Nat :=
  ((b.errs.dedup.map Fin.val).filter (fun n => symbolWord n == i)).map (symbolLane b.number)

/-- A codeword with more than 15 symbol errors is uncorrectable (R207). -/
def badWord (lanes : List Nat) : Bool := decide (15 < lanes.length)

/-- A codeword of the block that carries the frame is uncorrectable (R241). -/
def spoils (b : CwBlock) : Bool := b.carry.any (fun i => badWord (lanesOf b i))

/-! ### Headers (Tables 09-1 to 09-3) -/

/-- A frame's type (Table 09-2). -/
def Content.type (c : Content) : Nat :=
  match c with
  | .slot _ => 1
  | .routed f => match f.cls with
    | .req => 2
    | .rsp => 3
    | .mgmt | .mgmtRsp => 4
    | .toss => 5
  | .marker _ => 6
  | .vote _ => 7
  | .status _ _ | .retry _ _ _ | .replayReq _ _ | .probe _ => 8
  | .hello _ | .sign _ | .finish _ => 9

/-- Its class, which is numbered as the type (Table 09-2). -/
def Content.cls (c : Content) : Nat := c.type

/-- Its flags, header bits [7:5] (Table 09-2). -/
def Content.flags (c : Content) : Nat :=
  match c with
  | .slot f => b2n f.poison + 2 * b2n f.corrupt + 4 * b2n f.replay
  | .routed f => b2n (f.cls == .mgmtRsp)
  | .finish _ => 1
  | _ => 0

/-- Its tenant tag; 0 for frames of no tenant. -/
def Content.tenant (c : Content) : Nat :=
  match c with
  | .slot f => f.tenant
  | .routed f => f.head.tenant
  | _ => 0

/-- Its type fields, header bits [127:80] (Table 09-3). -/
def Content.fields (c : Content) : Nat :=
  match c with
  | .slot f => f.slot % 2 ^ 16 + f.seg % 2 ^ 16 * 2 ^ 16
  | .routed f =>
    let h := f.head
    h.dst % 2 ^ 11 + h.src % 2 ^ 11 * 2 ^ 11 + h.vc % 4 * 2 ^ 22 + h.rank % 2 ^ 16 * 2 ^ 24 + h.hops % 32 * 2 ^ 40
  | _ => 0

/-! ### Bodies (Tables 09-4 to 09-9, 09-13) -/

/-- The access block (Table 09-5). -/
def accessBytes (b : Access) : List Byte :=
  leBytes 8 (b.addr % 2 ^ 56 + b.op % 16 * 2 ^ 56 + b.atom % 8 * 2 ^ 60) ++ leBytes 4 (b.size % 2 ^ 13) ++ leBytes 4 b.issue ++
    leBytes 4 (b.homeUnit % 1024 + b.homeEntry % 1024 * 2 ^ 10) ++ leBytes 4 b.cas ++ leBytes 8 (if b.op = 2 then b.hsn else 0)

/-- The response block (Table 09-6). -/
def responseBytes (r : Response) : List Byte :=
  leBytes 4 (r.homeUnit % 1024 + r.homeEntry % 1024 * 2 ^ 10 + r.status % 4 * 2 ^ 20 + r.nack % 256 * 2 ^ 22) ++
    leBytes 4 (r.len % 2 ^ 13) ++ zeros 24

/-- The marker body (Table 09-7). -/
def markerBytes (m : Marker) : List Byte :=
  leBytes 8 m.tick ++ leBytes 4 (m.attempt % 16 + m.verdict % 4 * 2 ^ 4 + b2n m.detMode * 2 ^ 6 + b2n m.stretch * 2 ^ 7 +
    m.hops % 32 * 2 ^ 8 + m.keystone % 2048 * 2 ^ 13) ++ leBytes 2 m.epoch ++ leBytes 6 m.sec ++ leBytes 4 m.ns ++
    leBytes 4 m.accDelay ++ leBytes 4 (m.len % 2 ^ 24)

/-- The vote body (Table 09-8). -/
def voteBytes (v : Vote) : List Byte :=
  leBytes 8 v.tick ++ leBytes 4 (v.attempt % 16 + v.kind % 4 * 2 ^ 4 + b2n v.fail * 2 ^ 6 + b2n v.escalate * 2 ^ 7 +
    v.verdict % 4 * 2 ^ 8 + b2n v.halted * 2 ^ 10) ++ leBytes 4 (v.count % 2 ^ 12 + v.code % 256 * 2 ^ 12) ++
    leBytes 4 (v.unit % 1024 + v.device % 2048 * 2 ^ 10)

/-- A HELLO's bytes (Table 09-13). -/
def helloBytes (h : Hello) : List Byte :=
  leBytes 1 h.version ++ leBytes 8 h.serial ++ leBytes 2 h.device ++ leBytes 1 h.port ++ h.nonce ++ h.ecdh ++ h.chain

/-- The content of a body, before its padding (Table 09-4). -/
def Content.bytes (c : Content) : List Byte :=
  match c with
  | .slot f => if f.poison then [] else f.data
  | .routed f => (match f.cls with
    | .rsp | .mgmtRsp => responseBytes f.resp
    | .req | .mgmt | .toss => accessBytes f.access) ++ f.data
  | .marker m => markerBytes m
  | .vote v => voteBytes v
  | .status credits acks => padTo 0x20 ([1#8, 0#8, 0#8, 0#8] ++ credits.flatMap (leBytes 2)) ++ acks.flatMap (leBytes 8)
  | .retry cls first count => padTo 64 ([2#8, BitVec.ofNat 8 cls] ++ zeros 6 ++ leBytes 8 first ++ leBytes 1 count)
  | .replayReq id tick => padTo 64 ([3#8, 0#8, 0#8, 0#8] ++ leBytes 2 id ++ zeros 2 ++ leBytes 8 tick)
  | .probe l => padTo 64 ([if l.length = 1 then 4#8 else 5#8] ++ zeros 7 ++ l.flatMap (leBytes 8))
  | .hello h => helloBytes h
  | .sign s => s
  | .finish acks => acks.flatMap (leBytes 8)

/-- Body length in 32-byte units. -/
def Content.blen (c : Content) : Nat := (c.bytes.length + 31) / 32

/-- The body: its content padded with zeros to whole units (R237). -/
def Content.body (c : Content) : List Byte := padTo (32 * c.blen) c.bytes

/-- The 16-byte header (Table 09-1). -/
def Frame.head (f : Frame) : BitVec 128 :=
  let c := f.content
  BitVec.ofNat 128 (c.type + b2n f.kp * 2 ^ 4 + c.flags % 8 * 2 ^ 5 + c.blen % 2 ^ 12 * 2 ^ 8 + c.tenant % 256 * 2 ^ 24 +
    f.seq % 2 ^ 48 * 2 ^ 32 + c.fields * 2 ^ 80)

/-- The IV of an encrypted frame: the sender's salt, then class and sequence number (R260). -/
def Frame.iv (f : Frame) : List Byte := (f.key.drop 32).take 4 ++ leBytes 8 (f.content.cls * 2 ^ 48 + f.seq % 2 ^ 48)

/-- The bytes of a frame on the link (R236, R260): its header, its body, encrypted under the frame's key with the header as AAD, and
the tag; a SECURE frame carries no tag. -/
def Frame.bytes (f : Frame) : List Byte :=
  let head := leBytes 16 f.head.toNat
  if f.key.isEmpty then head ++ f.content.body
  else
    let x := Config.gcm (f.key.take 32) f.iv head f.content.body
    head ++ (if f.content.cls = 9 then x.take f.content.body.length else x)

/-- The IDLE unit, which fills the stream where no frame goes (R236; log 3). -/
def idleUnit : List Byte := zeros 32

/-! ### Training frames (R216) -/

/-- Two bits as a PAM4 level, the first bit the more significant (Table 08-9). -/
def pam4 (a b : Bool) : Nat := if a then (if b then 2 else 3) else b2n b

/-- The taps of a PRBS pattern's polynomial, and its length (Table 08-8). -/
def prbsTaps (code : Nat) : List Nat × Nat :=
  match code with
  | 1 => ([7, 6], 7)
  | 2 => ([13, 12, 2, 1], 13)
  | _ => ([31, 28], 31)

/-- The next bit of a pattern from its last bits, newest first (Table 08-8). -/
def prbsBit (code : Nat) (l : List Bool) : Bool := (prbsTaps code).1.foldl (fun b k => b ^^ l.getD (k - 1) false) false

/-- The next `n` bits of a pattern, from its last bits, newest first. -/
def prbsBitsFrom (code n : Nat) (l : List Bool) : List Bool :=
  match n with
  | 0 => []
  | n + 1 =>
    let b := prbsBit code l
    b :: prbsBitsFrom code n ((b :: l).take 31)

/-- Bits in pairs as PAM4 levels (Table 08-9). -/
def levels (l : List Bool) : List Nat :=
  match l with
  | a :: b :: r => pam4 a b :: levels r
  | _ => []

/-- The first `n` symbols of a lane's PRBS generator, from its seed of ones (R232, Tables 08-8 and 08-9). -/
def prbsSymbols (code n : Nat) : List Nat := levels (prbsBitsFrom code (2 * n) (List.replicate (prbsTaps code).2 true))

/-- The 4,096 symbols of a training frame: the marker, the control word at 4 UI to the bit, and PRBS13 (R216). -/
def trainingSymbols (cw : BitVec 64) : List Nat :=
  List.replicate 32 3 ++ List.replicate 32 0 ++
    (List.range 64).flatMap (fun i => List.replicate 4 (if cw.getLsbD i then 3 else 0)) ++ prbsSymbols 2 3776

end Sys2Proof.Machine
end

