-- ==== Sys2Proof/Machine/RegMap.lean ====
section
/-!
DEFINITION. The register map: the page types and their places in the PF's BAR0 (17 Table 17-3, R452), the VF's pages
(11 Table 11-2), and for each page type its registers with offsets, access, writable bits, reset values and selectors
(02 Table 02-7; 03 Table 03-7; 05 Table 05-11; 06 Table 06-11; 07 Table 07-4; 08 Table 08-11; 09 Table 09-14; 10 Table
10-5; 11 Tables 11-9 to 11-11; 12 Table 12-7; 13 Table 13-6; 14 Table 14-8; 15 Table 15-9; 16 Table 16-11; 17 Tables
17-5, 17-6, 17-10).
-/
namespace Sys2Proof.Machine

/-- The 29 page types in type-code order (Table 17-3). -/
inductive PageType where
  | err
  | spn
  | tck
  | fab
  | wld
  | hst
  | slt
  | xlt
  | ing
  | pub
  | ldg
  | prv
  | tim
  | pwr
  | saf
  | trs
  | spi
  | btf
  | tag
  | hsq
  | prt
  | qst
  | clu
  | tgp
  | ten
  | vec
  | seq
  | spd
  | hdl
deriving DecidableEq, Repr

/-- The page type's code (Table 17-3). -/
def pageCode (p : PageType) : Nat :=
  match p with
  | .err => 0
  | .spn => 1
  | .tck => 2
  | .fab => 3
  | .wld => 4
  | .hst => 5
  | .slt => 6
  | .xlt => 7
  | .ing => 8
  | .pub => 9
  | .ldg => 10
  | .prv => 11
  | .tim => 12
  | .pwr => 13
  | .saf => 14
  | .trs => 15
  | .spi => 16
  | .btf => 17
  | .tag => 18
  | .hsq => 19
  | .prt => 20
  | .qst => 21
  | .clu => 22
  | .tgp => 23
  | .ten => 24
  | .vec => 25
  | .seq => 26
  | .spd => 27
  | .hdl => 28

/-- The page type of a code. -/
def pageOfCode (n : Nat) : Option PageType :=
  match n with
  | 0 => some .err
  | 1 => some .spn
  | 2 => some .tck
  | 3 => some .fab
  | 4 => some .wld
  | 5 => some .hst
  | 6 => some .slt
  | 7 => some .xlt
  | 8 => some .ing
  | 9 => some .pub
  | 10 => some .ldg
  | 11 => some .prv
  | 12 => some .tim
  | 13 => some .pwr
  | 14 => some .saf
  | 15 => some .trs
  | 16 => some .spi
  | 17 => some .btf
  | 18 => some .tag
  | 19 => some .hsq
  | 20 => some .prt
  | 21 => some .qst
  | 22 => some .clu
  | 23 => some .tgp
  | 24 => some .ten
  | 25 => some .vec
  | 26 => some .seq
  | 27 => some .spd
  | 28 => some .hdl
  | _ => none

/-- The number of a page: its BAR0 offset / 4,096 (Table 17-3). Instances: HST by function, HSQ by function × 64 + queue,
PRT by port, QST by quarter, cluster pages by logical cluster. A VF's pages (Table 11-2) lie from 0x4000, 16 to a VF. -/
def pageNo (p : PageType) (i : Nat) : Nat :=
  match p with
  | .hst => if i = 0 then 5 else 0x4000 + 16 * i
  | .hsq => if i / 64 = 0 then 0x20 + i else 0x4000 + 16 * (i / 64) + 1 + i % 64
  | .prt => 0x80 + i
  | .qst => 0x90 + i
  | .clu | .tgp | .ten | .vec | .seq | .spd | .hdl => 0x1000 + 8 * i + (pageCode p - 22)
  | p => pageCode p

/-- The page type and instance of a page number; none for a reserved page slot (R448, R452). -/
def pageAt (n : Nat) : Option (PageType × Nat) :=
  if n < 19 then (pageOfCode n).map (fun p => (p, 0))
  else if 0x20 ≤ n ∧ n < 0x60 then some (.hsq, n - 0x20)
  else if 0x80 ≤ n ∧ n < 0x90 then some (.prt, n - 0x80)
  else if 0x90 ≤ n ∧ n < 0x94 then some (.qst, n - 0x90)
  else if 0x1000 ≤ n ∧ n < 0x2000 then
    if n % 8 = 7 then none else (pageOfCode (22 + n % 8)).map (fun p => (p, (n - 0x1000) / 8))
  else if 0x4010 ≤ n ∧ n < 0x5000 then
    if n % 16 = 0 then some (.hst, (n - 0x4000) / 16)
    else if n % 16 ≤ 8 then some (.hsq, (n - 0x4000) / 16 * 64 + n % 16 - 1) else none
  else none

/-- How a register is accessed (Table 00-3). A mixed register's RW bits are its `wmask`. -/
inductive Acc where
  | ro
  | rw
  | wo
  | rc
  | w1c
deriving DecidableEq, Repr

/-- The selector register that picks which copy an access reaches, if any. -/
inductive Bank where
  | none
  | chain
  | tsel
  | psel
  | dest
  | qsel
  | lane
  | quota
deriving DecidableEq, Repr

/-- A register, or an array of `count` registers `step` bytes apart: its reset value, the bits that are not reserved,
the RW bits, the W1C bits, its selector, and whether only the PF has it. -/
structure RegDef where
  off : Nat
  count : Nat
  step : Nat
  acc : Acc
  reset : Nat
  mask : Nat
  wmask : Nat
  w1c : Nat
  bank : Bank
  pf : Bool
deriving DecidableEq, Repr

/-- Registers of the ERR page. -/
def regsErr : List RegDef :=
  [⟨0x040, 1, 4, .ro, 0x0, 0x7FFFF, 0x0, 0x0, .none, false⟩,
   ⟨0x044, 1, 4, .ro, 0x0, 0xFFFFF, 0x0, 0x0, .none, false⟩,
   ⟨0x048, 1, 4, .ro, 0x0, 0xFFFFFFFF, 0x0, 0x0, .none, false⟩,
   ⟨0x04C, 1, 4, .ro, 0x0, 0xFFFFFFFF, 0x0, 0x0, .none, false⟩,
   ⟨0x050, 16, 4, .ro, 0x0, 0xFFFFFFFF, 0x0, 0x0, .none, false⟩,
   ⟨0x090, 1, 4, .rw, 0x0, 0x1FF, 0x1FF, 0x0, .none, false⟩,
   ⟨0x094, 1, 4, .ro, 0x0, 0x7F, 0x0, 0x0, .none, false⟩,
   ⟨0x098, 1, 4, .wo, 0x0, 0x0, 0x0, 0x0, .none, false⟩,
   ⟨0x09C, 1, 4, .ro, 0x0, 0x1FFFFFFF, 0x0, 0x0, .none, false⟩,
   ⟨0x0A0, 1, 4, .rc, 0x0, 0xFFFFFFFF, 0x0, 0x0, .none, false⟩,
   ⟨0x0A4, 1, 4, .rc, 0x0, 0xFFFFFFFF, 0x0, 0x0, .none, false⟩,
   ⟨0x100, 29, 4, .rw, 0x10000, 0x107FF, 0x107FF, 0x0, .none, false⟩]

/-- Registers of the SPN page. -/
def regsSpn : List RegDef :=
  [⟨0x040, 1, 4, .rw, 0x0, 0x1, 0x1, 0x0, .none, false⟩,
   ⟨0x044, 1, 4, .ro, 0x0, 0x3, 0x0, 0x0, .none, false⟩,
   ⟨0x048, 1, 4, .ro, 0x0, 0xFF, 0x1F, 0x0, .none, false⟩,
   ⟨0x04C, 1, 4, .ro, 0x0, 0xFFFFFF03, 0x0, 0x0, .none, false⟩,
   ⟨0x050, 1, 4, .wo, 0x0, 0x0, 0x0, 0x0, .none, false⟩,
   ⟨0x054, 1, 4, .wo, 0x0, 0x0, 0x0, 0x0, .none, false⟩,
   ⟨0x058, 1, 4, .rw, 0x0, 0xF1F1F, 0xF1F1F, 0x0, .none, false⟩,
   ⟨0x05C, 1, 4, .rw, 0x7FF, 0x7FF, 0x7FF, 0x0, .none, false⟩,
   ⟨0x060, 1, 4, .ro, 0x7FF, 0x7FF, 0x0, 0x0, .none, false⟩,
   ⟨0x064, 1, 4, .ro, 0x0, 0xFFFFFFFF, 0x0, 0x0, .none, false⟩,
   ⟨0x068, 1, 4, .ro, 0x0, 0xFFFFFFFF, 0x0, 0x0, .none, false⟩,
   ⟨0x070, 8, 4, .ro, 0x0, 0xFFFFFFFF, 0x0, 0x0, .none, false⟩,
   ⟨0x090, 8, 4, .rw, 0x0, 0xFFFFFFFF, 0xFFFFFFFF, 0x0, .none, false⟩,
   ⟨0x0B0, 16, 4, .rw, 0x0, 0x8000FFFF, 0x8000FFFF, 0x0, .none, false⟩,
   ⟨0x0F0, 4, 4, .rw, 0x0, 0x807FFFFF, 0x807FFFFF, 0x0, .none, false⟩]

/-- Registers of the TCK page. -/
def regsTck : List RegDef :=
  [⟨0x040, 1, 4, .rw, 0x80003, 0xFF010F, 0xFF010F, 0x0, .none, false⟩,
   ⟨0x044, 1, 4, .rw, 0x7A120, 0xFFFFFF, 0xFFFFFF, 0x0, .none, false⟩,
   ⟨0x048, 1, 4, .rw, 0x2710, 0xFFFFFF, 0xFFFFFF, 0x0, .none, false⟩,
   ⟨0x04C, 1, 4, .ro, 0x0, 0xFFFFFF, 0x0, 0x0, .none, false⟩,
   ⟨0x050, 1, 4, .ro, 0x0, 0xFFFFFFFF, 0x0, 0x0, .none, false⟩,
   ⟨0x054, 1, 4, .ro, 0x0, 0xFFFFFFFF, 0x0, 0x0, .none, false⟩,
   ⟨0x058, 1, 4, .ro, 0x0, 0xFF, 0x0, 0x0, .none, false⟩,
   ⟨0x05C, 1, 4, .rw, 0x0, 0x7FF07FF, 0x7FF07FF, 0x0, .none, false⟩,
   ⟨0x060, 1, 4, .ro, 0x0, 0xFFFF, 0x0, 0x0, .none, false⟩,
   ⟨0x064, 1, 4, .ro, 0x0, 0xFFE3FFFF, 0x0, 0x0, .none, false⟩,
   ⟨0x068, 1, 4, .rc, 0x0, 0xFFFFFFFF, 0x0, 0x0, .none, false⟩,
   ⟨0x06C, 1, 4, .rc, 0x0, 0xFFFFFFFF, 0x0, 0x0, .none, false⟩,
   ⟨0x070, 1, 4, .rw, 0x3B6, 0x3FF, 0x3FF, 0x0, .none, false⟩,
   ⟨0x074, 1, 4, .rw, 0x0, 0x1FFFF, 0x1FFFF, 0x0, .none, false⟩,
   ⟨0x078, 1, 4, .rw, 0xEA60, 0xFFFFFF, 0xFFFFFF, 0x0, .none, false⟩,
   ⟨0x07C, 1, 4, .rc, 0x0, 0xFFFFFFFF, 0x0, 0x0, .none, false⟩,
   ⟨0x080, 1, 4, .wo, 0x0, 0x0, 0x0, 0x0, .none, false⟩]

/-- Registers of the FAB page. -/
def regsFab : List RegDef :=
  [⟨0x040, 1, 4, .rw, 0x0, 0xF, 0xF, 0x0, .none, false⟩,
   ⟨0x044, 1, 4, .ro, 0x0, 0x1F, 0x0, 0x0, .none, false⟩,
   ⟨0x048, 1, 4, .rc, 0x0, 0xFFFFFFFF, 0x0, 0x0, .none, false⟩,
   ⟨0x04C, 1, 4, .rc, 0x0, 0xFFFFFFFF, 0x0, 0x0, .none, false⟩,
   ⟨0x050, 1, 4, .rc, 0x0, 0xFFFFFFFF, 0x0, 0x0, .none, false⟩,
   ⟨0x054, 1, 4, .rc, 0x0, 0xFFFFFFFF, 0x0, 0x0, .none, false⟩,
   ⟨0x058, 1, 4, .rc, 0x0, 0xFFFFFFFF, 0x0, 0x0, .none, false⟩,
   ⟨0x05C, 1, 4, .rc, 0x0, 0xFFFFFFFF, 0x0, 0x0, .none, false⟩,
   ⟨0x060, 1, 4, .rc, 0x0, 0xFFFFFFFF, 0x0, 0x0, .none, false⟩,
   ⟨0x064, 1, 4, .rc, 0x0, 0xFFFFFFFF, 0x0, 0x0, .none, false⟩,
   ⟨0x068, 1, 4, .rc, 0x0, 0xFFFFFFFF, 0x0, 0x0, .none, false⟩,
   ⟨0x06C, 1, 4, .rc, 0x0, 0xFFFFFFFF, 0x0, 0x0, .none, false⟩,
   ⟨0x070, 1, 4, .rc, 0x0, 0xFFFFFFFF, 0x0, 0x0, .none, false⟩,
   ⟨0x074, 1, 4, .rc, 0x0, 0xFFFFFFFF, 0x0, 0x0, .none, false⟩,
   ⟨0x080, 8, 4, .rw, 0x0, 0xFFFFFFFF, 0xFFFFFFFF, 0x0, .none, false⟩,
   ⟨0x0A0, 1, 4, .rw, 0x0, 0xFFF, 0xFFF, 0x0, .none, false⟩,
   ⟨0x0A4, 1, 4, .rw, 0x0, 0x1FF, 0x1FF, 0x0, .none, false⟩]

/-- Registers of the WLD page. -/
def regsWld : List RegDef :=
  [⟨0x040, 1, 4, .ro, 0x0, 0xFFFF001F, 0x0, 0x0, .none, false⟩,
   ⟨0x044, 1, 4, .ro, 0x0, 0xFFFFFFFF, 0x0, 0x0, .none, false⟩,
   ⟨0x048, 1, 4, .ro, 0x0, 0xFFFFFFFF, 0x0, 0x0, .none, false⟩,
   ⟨0x04C, 1, 4, .rw, 0x0, 0x7, 0x7, 0x0, .none, false⟩,
   ⟨0x050, 1, 4, .rw, 0x0, 0x7FFFFFFF, 0x7FFFFFFF, 0x0, .chain, false⟩,
   ⟨0x054, 1, 4, .rw, 0x0, 0xFFFFFFFF, 0xFFFFFFFF, 0x0, .chain, false⟩,
   ⟨0x058, 1, 4, .rw, 0x0, 0xFFFFFFFF, 0xFFFFFFFF, 0x0, .chain, false⟩,
   ⟨0x05C, 1, 4, .rw, 0x0, 0xFFFFFFFF, 0xFFFFFFFF, 0x0, .chain, false⟩,
   ⟨0x060, 1, 4, .rw, 0x0, 0xFFFFFFFF, 0xFFFFFFFF, 0x0, .chain, false⟩,
   ⟨0x064, 1, 4, .wo, 0x0, 0x0, 0x0, 0x0, .none, false⟩,
   ⟨0x068, 1, 4, .wo, 0x0, 0x0, 0x0, 0x0, .none, false⟩,
   ⟨0x06C, 1, 4, .rc, 0x0, 0xFFFFFFFF, 0x0, 0x0, .none, false⟩,
   ⟨0x070, 1, 4, .rc, 0x0, 0xFFFFFFFF, 0x0, 0x0, .none, false⟩,
   ⟨0x080, 17, 4, .rw, 0x0, 0xFFFFFFFF, 0xFFFFFFFF, 0x0, .none, false⟩,
   ⟨0x800, 512, 4, .wo, 0x0, 0x0, 0x0, 0x0, .none, false⟩]

/-- Registers of the HST page. -/
def regsHst : List RegDef :=
  [⟨0x040, 1, 4, .ro, 0x0, 0x7, 0x0, 0x0, .none, false⟩,
   ⟨0x044, 1, 4, .wo, 0x0, 0x0, 0x0, 0x0, .none, false⟩,
   ⟨0x048, 1, 4, .rc, 0x0, 0xFFFFFFFF, 0x0, 0x0, .none, false⟩,
   ⟨0x04C, 1, 4, .rc, 0x0, 0xFFFFFFFF, 0x0, 0x0, .none, false⟩,
   ⟨0x050, 1, 4, .ro, 0x0, 0x1FFFF, 0x0, 0x0, .none, false⟩,
   ⟨0x060, 1, 4, .ro, 0x0, 0x1F3, 0x0, 0x0, .none, true⟩,
   ⟨0x064, 1, 4, .rc, 0x0, 0xFFFFFFFF, 0x0, 0x0, .none, true⟩,
   ⟨0x068, 8, 4, .w1c, 0x0, 0xFFFFFFFF, 0x0, 0xFFFFFFFF, .none, true⟩,
   ⟨0x088, 1, 4, .rw, 0x0, 0xFF, 0xFF, 0x0, .none, true⟩,
   ⟨0x08C, 1, 4, .rw, 0x0, 0x1FFFF, 0x1FFFF, 0x0, .quota, true⟩]

/-- Registers of the SLT page. -/
def regsSlt : List RegDef :=
  [⟨0x040, 1, 4, .rw, 0x0, 0xFF, 0xFF, 0x0, .none, false⟩,
   ⟨0x044, 1, 4, .ro, 0x0, 0x1FFF1FFF, 0x0, 0x0, .none, false⟩,
   ⟨0x048, 1, 4, .ro, 0x0, 0x1FFF, 0x0, 0x0, .none, false⟩,
   ⟨0x04C, 1, 4, .rc, 0x0, 0xFFFFFFFF, 0x0, 0x0, .none, false⟩,
   ⟨0x050, 1, 4, .rc, 0x0, 0xFFFFFFFF, 0x0, 0x0, .none, false⟩]

/-- Registers of the XLT page. -/
def regsXlt : List RegDef :=
  [⟨0x040, 1, 4, .rw, 0x0, 0xFF, 0xFF, 0x0, .none, false⟩,
   ⟨0x044, 1, 4, .rw, 0x0, 0xFFFFF001, 0xFFFFF001, 0x0, .tsel, false⟩,
   ⟨0x048, 1, 4, .rw, 0x0, 0xFFFFF, 0xFFFFF, 0x0, .tsel, false⟩,
   ⟨0x04C, 1, 4, .rw, 0x0, 0x3FFF, 0x3FFF, 0x0, .tsel, false⟩,
   ⟨0x050, 1, 4, .wo, 0x0, 0x0, 0x0, 0x0, .none, false⟩,
   ⟨0x054, 1, 4, .rw, 0x0, 0xFFFFFFFF, 0xFFFFFFFF, 0x0, .none, false⟩,
   ⟨0x058, 1, 4, .rw, 0x0, 0xFFFFFFFF, 0xFFFFFFFF, 0x0, .none, false⟩,
   ⟨0x05C, 1, 4, .rw, 0x0, 0xFFFFF, 0xFFFFF, 0x0, .none, false⟩,
   ⟨0x060, 1, 4, .ro, 0x0, 0x1, 0x0, 0x0, .none, false⟩,
   ⟨0x064, 1, 4, .rc, 0x0, 0xFFFFFFFF, 0x0, 0x0, .none, false⟩,
   ⟨0x068, 1, 4, .rc, 0x0, 0xFFFFFFFF, 0x0, 0x0, .none, false⟩,
   ⟨0x06C, 1, 4, .rc, 0x0, 0xFFFFFFFF, 0x0, 0x0, .none, false⟩]

/-- Registers of the ING page. -/
def regsIng : List RegDef :=
  [⟨0x040, 1, 4, .rw, 0x0, 0x1, 0x1, 0x0, .none, false⟩,
   ⟨0x044, 1, 4, .rw, 0x0, 0xFFFFFFFF, 0xFFFFFFFF, 0x0, .psel, false⟩,
   ⟨0x048, 1, 4, .rw, 0x0, 0xFFFF, 0xFFFF, 0x0, .psel, false⟩,
   ⟨0x04C, 1, 4, .rw, 0x0, 0xFFFFFFFF, 0xFFFFFFFF, 0x0, .psel, false⟩,
   ⟨0x050, 4, 4, .rw, 0x0, 0xFFFFFFFF, 0xFFFFFFFF, 0x0, .psel, false⟩,
   ⟨0x060, 1, 4, .rw, 0x0, 0xFFFF, 0xFFFF, 0x0, .none, false⟩,
   ⟨0x064, 1, 4, .rw, 0x0, 0xFFFFFFFF, 0xFFFFFFFF, 0x0, .none, false⟩,
   ⟨0x068, 1, 4, .rw, 0x0, 0x1FFF, 0x1FFF, 0x0, .none, false⟩,
   ⟨0x06C, 1, 4, .rc, 0x0, 0xFFFFFFFF, 0x0, 0x0, .none, false⟩,
   ⟨0x070, 1, 4, .rc, 0x0, 0xFFFFFFFF, 0x0, 0x0, .none, false⟩,
   ⟨0x074, 1, 4, .rc, 0x0, 0xFFFFFFFF, 0x0, 0x0, .none, false⟩,
   ⟨0x078, 1, 4, .rc, 0x0, 0xFFFFFFFF, 0x0, 0x0, .none, false⟩,
   ⟨0x07C, 1, 4, .rc, 0x0, 0xFFFFFFFF, 0x0, 0x0, .none, false⟩,
   ⟨0x080, 1, 4, .rc, 0x0, 0xFFFFFFFF, 0x0, 0x0, .none, false⟩,
   ⟨0x084, 1, 4, .rc, 0x0, 0xFFFFFFFF, 0x0, 0x0, .none, false⟩]

/-- Registers of the PUB page. -/
def regsPub : List RegDef :=
  [⟨0x040, 1, 4, .rw, 0x0, 0x7, 0x7, 0x0, .none, false⟩,
   ⟨0x044, 1, 4, .rw, 0x0, 0x3, 0x3, 0x0, .dest, false⟩,
   ⟨0x048, 1, 4, .rw, 0x0, 0xFFFFFFFF, 0xFFFFFFFF, 0x0, .dest, false⟩,
   ⟨0x04C, 1, 4, .rw, 0x0, 0xFFFF, 0xFFFF, 0x0, .dest, false⟩,
   ⟨0x050, 4, 4, .rw, 0x0, 0xFFFFFFFF, 0xFFFFFFFF, 0x0, .dest, false⟩,
   ⟨0x060, 1, 4, .rw, 0x0, 0xFFFF, 0xFFFF, 0x0, .dest, false⟩,
   ⟨0x064, 1, 4, .rw, 0x0, 0xFFFF, 0xFFFF, 0x0, .none, false⟩,
   ⟨0x068, 1, 4, .rw, 0x0, 0xFFFFFFFF, 0xFFFFFFFF, 0x0, .none, false⟩,
   ⟨0x06C, 1, 4, .rw, 0x0, 0xFFFFFFFF, 0xFFFFFFFF, 0x0, .none, false⟩,
   ⟨0x070, 1, 4, .rw, 0x0, 0x11F, 0x11F, 0x0, .none, false⟩,
   ⟨0x074, 1, 4, .wo, 0x0, 0x0, 0x0, 0x0, .none, false⟩,
   ⟨0x078, 1, 4, .rc, 0x0, 0xFFFFFFFF, 0x0, 0x0, .none, false⟩,
   ⟨0x07C, 1, 4, .rc, 0x0, 0xFFFFFFFF, 0x0, 0x0, .none, false⟩,
   ⟨0x080, 1, 4, .rc, 0x0, 0xFFFFFFFF, 0x0, 0x0, .none, false⟩,
   ⟨0x084, 1, 4, .rc, 0x0, 0xFFFFFFFF, 0x0, 0x0, .none, false⟩,
   ⟨0x088, 1, 4, .rc, 0x0, 0xFFFFFFFF, 0x0, 0x0, .none, false⟩]

/-- Registers of the LDG page. -/
def regsLdg : List RegDef :=
  [⟨0x040, 1, 4, .rw, 0x0, 0xFFFFFFFF, 0xFFFFFFFF, 0x0, .none, false⟩,
   ⟨0x044, 1, 4, .rw, 0x0, 0xFFFFFFFF, 0xFFFFFFFF, 0x0, .none, false⟩,
   ⟨0x048, 1, 4, .rw, 0x0, 0x1F, 0x1F, 0x0, .none, false⟩,
   ⟨0x04C, 1, 4, .wo, 0x0, 0x0, 0x0, 0x0, .none, false⟩,
   ⟨0x050, 1, 4, .rw, 0x7D0, 0xFFFFFF, 0xFFFFFF, 0x0, .none, false⟩,
   ⟨0x054, 1, 4, .ro, 0x0, 0x31FFF, 0x0, 0x0, .none, false⟩,
   ⟨0x058, 1, 4, .wo, 0x0, 0x0, 0x0, 0x0, .none, false⟩]

/-- Registers of the PRV page. -/
def regsPrv : List RegDef :=
  [⟨0x040, 1, 4, .ro, 0x0, 0x3, 0x0, 0x0, .none, false⟩,
   ⟨0x044, 1, 4, .ro, 0x0, 0xFFFF, 0x0, 0x0, .none, false⟩,
   ⟨0x048, 8, 4, .ro, 0x0, 0xFFFFFFFF, 0x0, 0x0, .none, false⟩,
   ⟨0x068, 8, 4, .ro, 0x0, 0xFFFFFFFF, 0x0, 0x0, .none, false⟩,
   ⟨0x088, 1, 4, .rc, 0x0, 0xFFFFFFFF, 0x0, 0x0, .none, false⟩,
   ⟨0x08C, 1, 4, .ro, 0x0, 0xFFFFFFFF, 0x0, 0x0, .none, false⟩]

/-- Registers of the TIM page. -/
def regsTim : List RegDef :=
  [⟨0x040, 1, 4, .rw, 0x4, 0xF, 0xF, 0x0, .none, false⟩,
   ⟨0x044, 1, 4, .ro, 0xFB0002, 0xFF01FF, 0x0, 0x0, .none, false⟩,
   ⟨0x048, 1, 4, .rw, 0x431, 0x777, 0x777, 0x0, .none, false⟩,
   ⟨0x04C, 1, 4, .rw, 0xA, 0xF, 0xF, 0x0, .none, false⟩,
   ⟨0x050, 1, 4, .rw, 0x3840, 0xFFFFFF, 0xFFFFFF, 0x0, .none, false⟩,
   ⟨0x054, 1, 4, .rw, 0x64, 0xFFFF, 0xFFFF, 0x0, .none, false⟩,
   ⟨0x058, 1, 4, .rw, 0x640032, 0xFFFFFFFF, 0xFFFFFFFF, 0x0, .none, false⟩,
   ⟨0x05C, 1, 4, .rw, 0x64, 0x3FFF, 0x3FFF, 0x0, .none, false⟩,
   ⟨0x060, 1, 4, .ro, 0x0, 0xFFFFFFFF, 0x0, 0x0, .none, false⟩,
   ⟨0x064, 1, 4, .ro, 0x0, 0xFFFF, 0x0, 0x0, .none, false⟩,
   ⟨0x068, 1, 4, .ro, 0x0, 0xFFFFFFFF, 0x0, 0x0, .none, false⟩,
   ⟨0x06C, 1, 4, .ro, 0x0, 0xFFFFFFFF, 0x0, 0x0, .none, false⟩,
   ⟨0x070, 1, 4, .ro, 0x0, 0xFFFFFFFF, 0x0, 0x0, .none, false⟩,
   ⟨0x074, 1, 4, .ro, 0x0, 0xFFFFFFFF, 0x0, 0x0, .none, false⟩,
   ⟨0x078, 1, 4, .rw, 0x0, 0xFFFFFFFF, 0xFFFFFFFF, 0x0, .none, false⟩,
   ⟨0x07C, 1, 4, .rw, 0x0, 0xFFFF, 0xFFFF, 0x0, .none, false⟩,
   ⟨0x080, 1, 4, .rw, 0x0, 0xFFFFFFFF, 0xFFFFFFFF, 0x0, .none, false⟩,
   ⟨0x084, 1, 4, .wo, 0x0, 0x0, 0x0, 0x0, .none, false⟩,
   ⟨0x088, 1, 4, .rw, 0x0, 0xFFFFFFFF, 0xFFFFFFFF, 0x0, .none, false⟩,
   ⟨0x08C, 1, 4, .rw, 0x0, 0x8000FFFF, 0x8000FFFF, 0x0, .none, false⟩,
   ⟨0x090, 1, 4, .rw, 0x0, 0xFFFFFFFF, 0xFFFFFFFF, 0x0, .none, false⟩,
   ⟨0x094, 1, 4, .rw, 0x0, 0xFFFFFFFF, 0xFFFFFFFF, 0x0, .none, false⟩,
   ⟨0x098, 1, 4, .rw, 0x186A0, 0xFFFFFF, 0xFFFFFF, 0x0, .none, false⟩,
   ⟨0x09C, 1, 4, .rw, 0x0, 0xFFFF01FF, 0xFFFF01FF, 0x0, .none, false⟩,
   ⟨0x0A0, 1, 4, .rw, 0xFFFF0000, 0xFFFFFFFF, 0xFFFFFFFF, 0x0, .none, false⟩,
   ⟨0x0A4, 1, 4, .ro, 0x8000, 0xFFFF, 0x0, 0x0, .none, false⟩,
   ⟨0x0A8, 1, 4, .rw, 0x70000, 0xFF37FF, 0xFF37FF, 0x0, .none, false⟩,
   ⟨0x0AC, 1, 4, .ro, 0x0, 0xFFFFFFFF, 0x0, 0x0, .none, false⟩,
   ⟨0x0B0, 1, 4, .wo, 0x0, 0x0, 0x0, 0x0, .none, false⟩,
   ⟨0x0B4, 1, 4, .rw, 0x10, 0x1FFF, 0x1FFF, 0x0, .none, false⟩,
   ⟨0x0B8, 1, 4, .rw, 0x1D4C0, 0xFFFFFF, 0xFFFFFF, 0x0, .none, false⟩,
   ⟨0x0BC, 1, 4, .rc, 0x0, 0xFFFFFFFF, 0x0, 0x0, .none, false⟩,
   ⟨0x0C0, 1, 4, .rc, 0x0, 0xFFFFFFFF, 0x0, 0x0, .none, false⟩,
   ⟨0x0C4, 1, 4, .rc, 0x0, 0xFFFFFFFF, 0x0, 0x0, .none, false⟩,
   ⟨0x0C8, 1, 4, .rc, 0x0, 0xFFFFFFFF, 0x0, 0x0, .none, false⟩]

/-- Registers of the PWR page. -/
def regsPwr : List RegDef :=
  [⟨0x040, 1, 4, .rw, 0x3, 0x3, 0x3, 0x0, .none, false⟩,
   ⟨0x044, 1, 4, .ro, 0x0, 0xF0FF7, 0x0, 0x0, .none, false⟩,
   ⟨0x048, 1, 4, .rw, 0x51E, 0xFFFF, 0xFFFF, 0x0, .none, false⟩,
   ⟨0x04C, 1, 4, .rw, 0x280014, 0xFF00FF, 0xFF00FF, 0x0, .none, false⟩,
   ⟨0x050, 1, 4, .rw, 0x0, 0x3, 0x3, 0x0, .none, false⟩,
   ⟨0x054, 1, 4, .ro, 0x3840384, 0x7FF07FF, 0x0, 0x0, .qsel, false⟩,
   ⟨0x058, 1, 4, .ro, 0x3200320, 0x3FF03FF, 0x0, 0x0, .qsel, false⟩,
   ⟨0x05C, 1, 4, .ro, 0x0, 0xFFFFFF, 0x0, 0x0, .qsel, false⟩,
   ⟨0x060, 1, 4, .ro, 0x0, 0xFFF, 0x0, 0x0, .qsel, false⟩,
   ⟨0x064, 1, 4, .rc, 0x0, 0xFFFFFFFF, 0x0, 0x0, .qsel, false⟩,
   ⟨0x068, 1, 4, .rc, 0x0, 0xFFFFFFFF, 0x0, 0x0, .qsel, false⟩,
   ⟨0x06C, 1, 4, .rw, 0x0, 0xFFF, 0xFFF, 0x0, .none, false⟩,
   ⟨0x070, 1, 4, .wo, 0x0, 0x0, 0x0, 0x0, .none, false⟩,
   ⟨0x074, 1, 4, .rw, 0xF, 0xF, 0xF, 0x0, .none, false⟩,
   ⟨0x078, 1, 4, .rw, 0x1B8, 0xFFFF, 0xFFFF, 0x0, .none, false⟩,
   ⟨0x07C, 1, 4, .wo, 0x0, 0x0, 0x0, 0x0, .none, false⟩,
   ⟨0x080, 1, 4, .rc, 0x0, 0xFFFFFFFF, 0x0, 0x0, .none, false⟩,
   ⟨0x084, 1, 4, .ro, 0x1, 0x1F, 0x0, 0x0, .none, false⟩,
   ⟨0x088, 1, 4, .ro, 0x0, 0xFFFF, 0x0, 0x0, .none, false⟩]

/-- Registers of the SAF page. -/
def regsSaf : List RegDef :=
  [⟨0x040, 1, 4, .ro, 0x0, 0xFF3F, 0x0, 0x4, .none, false⟩,
   ⟨0x044, 1, 4, .ro, 0x1, 0x1FF, 0x0, 0x0, .none, false⟩,
   ⟨0x048, 1, 4, .wo, 0x0, 0x0, 0x0, 0x0, .none, false⟩,
   ⟨0x04C, 1, 4, .ro, 0x0, 0xFFFFFFFF, 0x0, 0x0, .none, false⟩,
   ⟨0x050, 1, 4, .ro, 0x0, 0xF, 0x0, 0x0, .none, false⟩,
   ⟨0x054, 1, 4, .ro, 0x0, 0xFFFFFFFF, 0x0, 0x0, .none, false⟩,
   ⟨0x058, 1, 4, .ro, 0x0, 0xFFFFFFFF, 0x0, 0x0, .none, false⟩,
   ⟨0x05C, 1, 4, .rc, 0x0, 0xFFFFFFFF, 0x0, 0x0, .none, false⟩,
   ⟨0x060, 1, 4, .rc, 0x0, 0xFFFFFFFF, 0x0, 0x0, .none, false⟩,
   ⟨0x064, 1, 4, .ro, 0x0, 0xFFFF, 0x0, 0x0, .none, false⟩,
   ⟨0x068, 1, 4, .rw, 0x0, 0x3F, 0x3F, 0x0, .none, false⟩,
   ⟨0x06C, 4, 4, .ro, 0x0, 0xFFFFFFFF, 0x0, 0x0, .none, false⟩]

/-- Registers of the TRS page. -/
def regsTrs : List RegDef :=
  [⟨0x040, 1, 4, .rw, 0x100, 0x1FF, 0x1FF, 0x0, .none, false⟩,
   ⟨0x044, 1, 4, .ro, 0x0, 0xFF03FF, 0x0, 0x0, .none, false⟩,
   ⟨0x048, 1, 4, .ro, 0x0, 0xFFFFFFFF, 0x0, 0x0, .none, false⟩,
   ⟨0x04C, 1, 4, .rc, 0x0, 0xFFFFFFFF, 0x0, 0x0, .none, false⟩,
   ⟨0x050, 1, 4, .rc, 0x0, 0xFFFFFFFF, 0x0, 0x0, .none, false⟩,
   ⟨0x054, 1, 4, .rc, 0x0, 0xFFFFFFFF, 0x0, 0x0, .none, false⟩,
   ⟨0x058, 1, 4, .rc, 0x0, 0xFFFFFFFF, 0x0, 0x0, .none, false⟩,
   ⟨0x05C, 1, 4, .rc, 0x0, 0xFFFFFFFF, 0x0, 0x0, .none, false⟩,
   ⟨0x060, 1, 4, .rc, 0x0, 0xFFFFFFFF, 0x0, 0x0, .none, false⟩]

/-- Registers of the SPI page. -/
def regsSpi : List RegDef :=
  [⟨0x040, 1, 4, .ro, 0x0, 0x7, 0x0, 0x3, .none, false⟩,
   ⟨0x044, 1, 4, .rc, 0x0, 0xFFFFFFFF, 0x0, 0x0, .none, false⟩,
   ⟨0x048, 1, 4, .rc, 0x0, 0xFFFFFFFF, 0x0, 0x0, .none, false⟩,
   ⟨0x04C, 1, 4, .rc, 0x0, 0xFFFFFFFF, 0x0, 0x0, .none, false⟩,
   ⟨0x050, 1, 4, .rc, 0x0, 0xFFFFFFFF, 0x0, 0x0, .none, false⟩]

/-- Registers of the BTF page. -/
def regsBtf : List RegDef :=
  [⟨0x040, 1, 4, .ro, 0x0, 0xFF3F, 0x0, 0x0, .none, false⟩,
   ⟨0x044, 1, 4, .ro, 0x0, 0xFFFFFFFF, 0x0, 0x0, .none, false⟩,
   ⟨0x048, 1, 4, .rw, 0x64, 0x7F, 0x7F, 0x0, .none, false⟩,
   ⟨0x04C, 1, 4, .rw, 0x0, 0xFFFFFFF, 0xFFFFFFF, 0x0, .none, false⟩,
   ⟨0x050, 1, 4, .wo, 0x0, 0x0, 0x0, 0x0, .none, false⟩,
   ⟨0x100, 64, 4, .rw, 0x0, 0xFFFFFFFF, 0xFFFFFFFF, 0x0, .none, false⟩]

/-- Registers of the TAG page. -/
def regsTag : List RegDef :=
  [⟨0x040, 1, 4, .ro, 0x0, 0x3, 0x0, 0x0, .none, false⟩,
   ⟨0x044, 1, 4, .rw, 0x0, 0x1FF, 0x1FF, 0x0, .none, false⟩,
   ⟨0x048, 1, 4, .ro, 0x0, 0xFFFFFFFF, 0x0, 0x0, .none, false⟩,
   ⟨0x04C, 1, 4, .rc, 0x0, 0xFFFFFFFF, 0x0, 0x0, .none, false⟩,
   ⟨0x050, 1, 4, .rc, 0x0, 0xFFFFFFFF, 0x0, 0x0, .none, false⟩]

/-- Registers of the HSQ page. -/
def regsHsq : List RegDef :=
  [⟨0x040, 1, 4, .rw, 0x0, 0xFFFFFFFF, 0xFFFFFFFF, 0x0, .none, false⟩,
   ⟨0x044, 1, 4, .rw, 0x0, 0xFFFFFFFF, 0xFFFFFFFF, 0x0, .none, false⟩,
   ⟨0x048, 1, 4, .rw, 0x0, 0x1F, 0x1F, 0x0, .none, false⟩,
   ⟨0x04C, 1, 4, .rw, 0x0, 0xFFFFFFFF, 0xFFFFFFFF, 0x0, .none, false⟩,
   ⟨0x050, 1, 4, .rw, 0x0, 0xFFFFFFFF, 0xFFFFFFFF, 0x0, .none, false⟩,
   ⟨0x054, 1, 4, .rw, 0x0, 0x1FFFF, 0x1FFFF, 0x0, .none, false⟩,
   ⟨0x058, 1, 4, .rw, 0x0, 0x1, 0x1, 0x0, .none, false⟩,
   ⟨0x05C, 1, 4, .wo, 0x0, 0x0, 0x0, 0x0, .none, false⟩,
   ⟨0x060, 1, 4, .ro, 0x0, 0xFF03, 0x0, 0x0, .none, false⟩,
   ⟨0x064, 1, 4, .ro, 0x0, 0xFFFF, 0x0, 0x0, .none, false⟩,
   ⟨0x068, 1, 4, .ro, 0x10000, 0x1FFFF, 0x0, 0x0, .none, false⟩,
   ⟨0x070, 1, 4, .ro, 0x0, 0xFFFFFFFF, 0x0, 0x0, .none, false⟩,
   ⟨0x074, 1, 4, .ro, 0x0, 0xFFFFFFFF, 0x0, 0x0, .none, false⟩,
   ⟨0x078, 1, 4, .ro, 0x0, 0xFFFFFFFF, 0x0, 0x0, .none, false⟩,
   ⟨0x07C, 1, 4, .ro, 0x0, 0xFFFFFFFF, 0x0, 0x0, .none, false⟩,
   ⟨0x080, 1, 4, .ro, 0x0, 0x80000077, 0x0, 0x0, .none, false⟩,
   ⟨0x100, 1, 4, .wo, 0x0, 0x0, 0x0, 0x0, .none, false⟩,
   ⟨0x104, 1, 4, .wo, 0x0, 0x0, 0x0, 0x0, .none, false⟩]

/-- Registers of the PRT page. -/
def regsPrt : List RegDef :=
  [⟨0x040, 1, 4, .rw, 0x1, 0x37, 0x37, 0x0, .none, false⟩,
   ⟨0x044, 1, 4, .ro, 0x0, 0xF3FFFF, 0x0, 0x20000, .none, false⟩,
   ⟨0x048, 1, 4, .ro, 0x0, 0xFFFF, 0x0, 0x0, .none, false⟩,
   ⟨0x04C, 1, 4, .ro, 0x0, 0xFFFF000F, 0x0, 0x0, .none, false⟩,
   ⟨0x050, 1, 4, .rc, 0x0, 0xFFFFFFFF, 0x0, 0x0, .none, false⟩,
   ⟨0x054, 1, 4, .rc, 0x0, 0xFFFFFFFF, 0x0, 0x0, .none, false⟩,
   ⟨0x058, 1, 4, .rc, 0x0, 0xFFFFFFFF, 0x0, 0x0, .none, false⟩,
   ⟨0x05C, 1, 4, .ro, 0x0, 0xFFFFFFFF, 0x0, 0x0, .none, false⟩,
   ⟨0x060, 1, 4, .ro, 0x0, 0xFFFFFFFF, 0x0, 0x0, .none, false⟩,
   ⟨0x064, 1, 4, .rc, 0x0, 0xFFFFFFFF, 0x0, 0x0, .none, false⟩,
   ⟨0x068, 1, 4, .rc, 0x0, 0xFFFFFFFF, 0x0, 0x0, .none, false⟩,
   ⟨0x06C, 15, 4, .rc, 0x0, 0xFFFFFFFF, 0x0, 0x0, .none, false⟩,
   ⟨0x0A8, 1, 4, .rw, 0x1, 0xFFFF, 0xFFFF, 0x0, .none, false⟩,
   ⟨0x0AC, 1, 4, .rw, 0x0, 0xF, 0xF, 0x0, .none, false⟩,
   ⟨0x0B0, 1, 4, .rc, 0x0, 0xFFFFFFFF, 0x0, 0x0, .lane, false⟩,
   ⟨0x0B4, 1, 4, .ro, 0x0, 0xFFFFFF0F, 0x0, 0x0, .lane, false⟩,
   ⟨0x0B8, 1, 4, .rc, 0x0, 0xFFFFFFFF, 0x0, 0x0, .none, false⟩,
   ⟨0x0BC, 1, 4, .ro, 0x0, 0xFFFFFFFF, 0x0, 0x0, .none, false⟩,
   ⟨0x0C0, 1, 4, .rw, 0x0, 0xFFFF, 0xFFFF, 0x0, .none, false⟩,
   ⟨0x0C4, 1, 4, .ro, 0x0, 0xFFF, 0x0, 0x0, .none, false⟩,
   ⟨0x0C8, 1, 4, .rc, 0x0, 0xFFFFFFFF, 0x0, 0x0, .lane, false⟩,
   ⟨0x0CC, 1, 4, .ro, 0x0, 0xFFFFFFFF, 0x0, 0x0, .lane, false⟩,
   ⟨0x0D0, 1, 4, .ro, 0x0, 0xFFFFFFFF, 0x0, 0x0, .lane, false⟩,
   ⟨0x0D4, 1, 4, .rw, 0x0, 0x1, 0x1, 0x0, .none, false⟩,
   ⟨0x0D8, 1, 4, .rc, 0x0, 0xFFFFFFFF, 0x0, 0x0, .none, false⟩,
   ⟨0x0DC, 1, 4, .rc, 0x0, 0xFFFFFFFF, 0x0, 0x0, .none, false⟩,
   ⟨0x0E0, 1, 4, .rc, 0x0, 0xFFFFFFFF, 0x0, 0x0, .none, false⟩,
   ⟨0x0E4, 1, 4, .ro, 0x0, 0x1F, 0x0, 0x0, .none, false⟩,
   ⟨0x0E8, 1, 4, .ro, 0x0, 0xFFFF, 0x0, 0x0, .lane, false⟩,
   ⟨0x0EC, 1, 4, .rc, 0x0, 0xFFFFFFFF, 0x0, 0x0, .none, false⟩,
   ⟨0x0F0, 1, 4, .rw, 0x5EE0000, 0x3FFF3FFF, 0x3FFF3FFF, 0x0, .none, false⟩,
   ⟨0x0F4, 1, 4, .rw, 0x0, 0xFFFFFFFF, 0xFFFFFFFF, 0x0, .none, false⟩,
   ⟨0x0F8, 1, 4, .rc, 0x0, 0xFFFFFFFF, 0x0, 0x0, .none, false⟩]

/-- Registers of the QST page. -/
def regsQst : List RegDef :=
  [⟨0x050, 1, 4, .rc, 0x0, 0xFFFFFFFF, 0x0, 0x0, .none, false⟩,
   ⟨0x054, 1, 4, .ro, 0x0, 0x83FFFFFF, 0x0, 0x0, .none, false⟩,
   ⟨0x058, 1, 4, .rc, 0x0, 0xFFFFFFFF, 0x0, 0x0, .none, false⟩,
   ⟨0x05C, 1, 4, .rw, 0x104040A, 0x1FF1F1F, 0x1FF1F1F, 0x0, .none, false⟩,
   ⟨0x060, 1, 4, .ro, 0xA, 0x3FFFFFF, 0x0, 0x0, .none, false⟩,
   ⟨0x064, 1, 4, .rc, 0x0, 0xFFFFFFFF, 0x0, 0x0, .none, false⟩,
   ⟨0x068, 1, 4, .ro, 0x0, 0xFFFFFFFF, 0x0, 0x0, .none, false⟩]

/-- Registers of the CLU page. -/
def regsClu : List RegDef :=
  [⟨0x040, 1, 4, .ro, 0x0, 0x7FF, 0x0, 0x0, .none, false⟩,
   ⟨0x044, 1, 4, .ro, 0x1, 0xFF0003, 0x0, 0x0, .none, false⟩,
   ⟨0x048, 1, 4, .ro, 0x0, 0x1FF, 0x0, 0x0, .none, false⟩]

/-- Registers of the TGP page. -/
def regsTgp : List RegDef :=
  [⟨0x040, 1, 4, .rc, 0x0, 0xFFFFFFFF, 0x0, 0x0, .none, false⟩,
   ⟨0x044, 1, 4, .ro, 0x0, 0xFFFF0F7F, 0x0, 0x0, .none, false⟩,
   ⟨0x048, 1, 4, .ro, 0x0, 0x80FF3FFF, 0x0, 0x0, .none, false⟩,
   ⟨0x04C, 1, 4, .rc, 0x0, 0xFFFFFFFF, 0x0, 0x0, .none, false⟩,
   ⟨0x060, 1, 4, .rw, 0x0, 0x3F, 0x3F, 0x0, .none, false⟩,
   ⟨0x064, 1, 4, .wo, 0x0, 0x0, 0x0, 0x0, .none, false⟩,
   ⟨0x068, 1, 4, .ro, 0x0, 0xFF0F, 0x0, 0x0, .none, false⟩,
   ⟨0x06C, 1, 4, .rw, 0x0, 0xFFFFFFFD, 0xFFFFFFFD, 0x0, .none, false⟩,
   ⟨0x070, 1, 4, .rw, 0x0, 0xFF1F, 0xFF1F, 0x0, .none, false⟩,
   ⟨0x074, 1, 4, .rw, 0x0, 0xFFFFFFFF, 0xFFFFFFFF, 0x0, .none, false⟩]

/-- Registers of the TEN page. -/
def regsTen : List RegDef :=
  [⟨0x040, 1, 4, .ro, 0x0, 0xFF0003, 0x0, 0x0, .none, false⟩,
   ⟨0x044, 1, 4, .rc, 0x0, 0xFFFFFFFF, 0x0, 0x0, .none, false⟩,
   ⟨0x048, 1, 4, .rc, 0x0, 0xFFFFFFFF, 0x0, 0x0, .none, false⟩]

/-- Registers of the VEC page. -/
def regsVec : List RegDef :=
  [⟨0x040, 1, 4, .ro, 0x0, 0xFF0003, 0x0, 0x0, .none, false⟩,
   ⟨0x044, 1, 4, .rc, 0x0, 0xFFFFFFFF, 0x0, 0x0, .none, false⟩,
   ⟨0x048, 1, 4, .rc, 0x0, 0xFFFFFFFF, 0x0, 0x0, .none, false⟩,
   ⟨0x050, 1, 4, .rw, 0x0, 0xFFFFFFFF, 0xFFFFFFFF, 0x0, .none, false⟩,
   ⟨0x054, 1, 4, .rw, 0x0, 0xFFFFFFFF, 0xFFFFFFFF, 0x0, .none, false⟩,
   ⟨0x058, 1, 4, .ro, 0x0, 0xFFFFFFFF, 0x0, 0x0, .none, false⟩,
   ⟨0x05C, 1, 4, .ro, 0x0, 0xFFFFFFFF, 0x0, 0x0, .none, false⟩]

/-- Registers of the SEQ page. -/
def regsSeq : List RegDef :=
  [⟨0x040, 1, 4, .ro, 0x0, 0x1FF01FF, 0x0, 0x0, .none, false⟩,
   ⟨0x044, 1, 4, .rw, 0x0, 0xF, 0xF, 0x0, .none, false⟩,
   ⟨0x048, 1, 4, .ro, 0x0, 0xFFF7, 0x0, 0x0, .none, false⟩,
   ⟨0x04C, 1, 4, .ro, 0x0, 0x3FFFFFF, 0x0, 0x0, .none, false⟩,
   ⟨0x050, 1, 4, .ro, 0x0, 0x80FF0FFF, 0x0, 0x0, .none, false⟩,
   ⟨0x054, 1, 4, .ro, 0x0, 0xFFFFFF, 0x0, 0x0, .none, false⟩,
   ⟨0x058, 1, 4, .rc, 0x0, 0xFFFFFFFF, 0x0, 0x0, .none, false⟩,
   ⟨0x05C, 1, 4, .rc, 0x0, 0xFFFFFFFF, 0x0, 0x0, .none, false⟩,
   ⟨0x060, 1, 4, .rc, 0x0, 0xFFFFFFFF, 0x0, 0x0, .none, false⟩,
   ⟨0x064, 1, 4, .ro, 0x0, 0x7F, 0x0, 0x0, .none, false⟩,
   ⟨0x800, 512, 4, .ro, 0x0, 0xFFFFFFFF, 0x0, 0x0, .none, false⟩]

/-- Registers of the SPD page. -/
def regsSpd : List RegDef :=
  [⟨0x040, 1, 4, .ro, 0x0, 0xFFFFFFFF, 0x0, 0x0, .none, false⟩,
   ⟨0x044, 1, 4, .ro, 0x0, 0xFFFFFFFF, 0x0, 0x0, .none, false⟩,
   ⟨0x048, 1, 4, .ro, 0xFFFFFFFF, 0xFFFFFFFF, 0x0, 0x0, .none, false⟩,
   ⟨0x04C, 1, 4, .ro, 0x0, 0xFFFFFFFF, 0x0, 0x0, .none, false⟩,
   ⟨0x050, 1, 4, .rc, 0x0, 0xFFFFFFFF, 0x0, 0x0, .none, false⟩,
   ⟨0x054, 1, 4, .ro, 0x0, 0x803FFFFF, 0x0, 0x0, .none, false⟩,
   ⟨0x058, 1, 4, .rc, 0x0, 0xFFFFFFFF, 0x0, 0x0, .none, false⟩,
   ⟨0x05C, 1, 4, .rw, 0x104080E, 0x1FF1F1F, 0x1FF1F1F, 0x0, .none, false⟩,
   ⟨0x060, 1, 4, .ro, 0xE, 0x3FFFFF, 0x0, 0x0, .none, false⟩,
   ⟨0x064, 1, 4, .rc, 0x0, 0xFFFFFFFF, 0x0, 0x0, .none, false⟩,
   ⟨0x068, 1, 4, .ro, 0x0, 0xFFFFFFFF, 0x0, 0x0, .none, false⟩,
   ⟨0x06C, 1, 4, .rc, 0x0, 0xFFFFFFFF, 0x0, 0x0, .none, false⟩]

/-- Registers of the HDL page. -/
def regsHdl : List RegDef :=
  [⟨0x040, 1, 4, .rw, 0x0, 0x3FF, 0x3FF, 0x0, .none, false⟩,
   ⟨0x044, 4, 4, .rw, 0x0, 0xFFFFFFFF, 0xFFFFFFFF, 0x0, .none, false⟩,
   ⟨0x054, 1, 4, .wo, 0x0, 0x0, 0x0, 0x0, .none, false⟩,
   ⟨0x058, 1, 4, .ro, 0x0, 0xF3, 0x0, 0x0, .none, false⟩]

/-- The registers of a page type. -/
def regsOf (p : PageType) : List RegDef :=
  match p with
  | .err => regsErr
  | .spn => regsSpn
  | .tck => regsTck
  | .fab => regsFab
  | .wld => regsWld
  | .hst => regsHst
  | .slt => regsSlt
  | .xlt => regsXlt
  | .ing => regsIng
  | .pub => regsPub
  | .ldg => regsLdg
  | .prv => regsPrv
  | .tim => regsTim
  | .pwr => regsPwr
  | .saf => regsSaf
  | .trs => regsTrs
  | .spi => regsSpi
  | .btf => regsBtf
  | .tag => regsTag
  | .hsq => regsHsq
  | .prt => regsPrt
  | .qst => regsQst
  | .clu => regsClu
  | .tgp => regsTgp
  | .ten => regsTen
  | .vec => regsVec
  | .seq => regsSeq
  | .spd => regsSpd
  | .hdl => regsHdl

/-- The register at an offset of a page, 0x040 or above (R443). -/
def regAt (p : PageType) (off : Nat) : Option RegDef :=
  (regsOf p).find? (fun r => decide (r.off ≤ off) && decide (off < r.off + r.count * r.step) && (off - r.off) % r.step == 0)

/-- A register by its page type and offset. -/
structure Reg where
  page : PageType
  off : Nat
deriving DecidableEq, Repr

/-- TCK.CTL (R65). -/
def R.tckCtl : Reg := ⟨.tck, 0x040⟩
/-- TCK.LEN (R30). -/
def R.tckLen : Reg := ⟨.tck, 0x044⟩
/-- TCK.REPAIR (R31). -/
def R.tckRepair : Reg := ⟨.tck, 0x048⟩
/-- TCK.FREE_TOTAL (R32). -/
def R.tckFreeTotal : Reg := ⟨.tck, 0x04C⟩
/-- TCK.COUNT_LO (R34). -/
def R.tckCountLo : Reg := ⟨.tck, 0x050⟩
/-- TCK.COUNT_HI (R34). -/
def R.tckCountHi : Reg := ⟨.tck, 0x054⟩
/-- TCK.STS (R65). -/
def R.tckSts : Reg := ⟨.tck, 0x058⟩
/-- TCK.KS_CFG (R36). -/
def R.tckKsCfg : Reg := ⟨.tck, 0x05C⟩
/-- TCK.EPOCH (R43). -/
def R.tckEpoch : Reg := ⟨.tck, 0x060⟩
/-- TCK.FAULT (R53). -/
def R.tckFault : Reg := ⟨.tck, 0x064⟩
/-- TCK.RERUN_CNT (R65). -/
def R.tckRerunCnt : Reg := ⟨.tck, 0x068⟩
/-- TCK.LATE_MK (R41). -/
def R.tckLateMk : Reg := ⟨.tck, 0x06C⟩
/-- TCK.VOTE_DL (R46). -/
def R.tckVoteDl : Reg := ⟨.tck, 0x070⟩
/-- TCK.MK_PARENT (R38). -/
def R.tckMkParent : Reg := ⟨.tck, 0x074⟩
/-- TCK.DBG_MAX (R60). -/
def R.tckDbgMax : Reg := ⟨.tck, 0x078⟩
/-- TCK.DBG_CNT (R59). -/
def R.tckDbgCnt : Reg := ⟨.tck, 0x07C⟩
/-- TCK.CMD (R66). -/
def R.tckCmd : Reg := ⟨.tck, 0x080⟩
/-- SPN.CTL (R61). -/
def R.spnCtl : Reg := ⟨.spn, 0x040⟩
/-- SPN.STS (R454). -/
def R.spnSts : Reg := ⟨.spn, 0x044⟩
/-- SPN.ROLE (R16). -/
def R.spnRole : Reg := ⟨.spn, 0x048⟩
/-- SPN.ADMIT (R179). -/
def R.spnAdmit : Reg := ⟨.spn, 0x04C⟩
/-- SPN.PROG_ADV (R169). -/
def R.spnProgAdv : Reg := ⟨.spn, 0x050⟩
/-- SPN.CTX_RESTART (R90). -/
def R.spnCtxRestart : Reg := ⟨.spn, 0x054⟩
/-- SPN.DIMS (R10). -/
def R.spnDims : Reg := ⟨.spn, 0x058⟩
/-- SPN.POS (R11). -/
def R.spnPos : Reg := ⟨.spn, 0x05C⟩
/-- SPN.SELF (R454). -/
def R.spnSelf : Reg := ⟨.spn, 0x060⟩
/-- SPN.SERIAL_LO (R454). -/
def R.spnSerialLo : Reg := ⟨.spn, 0x064⟩
/-- SPN.SERIAL_HI (R454). -/
def R.spnSerialHi : Reg := ⟨.spn, 0x068⟩
/-- SPN.CTX_DEAD (R90). -/
def R.spnCtxDead : Reg := ⟨.spn, 0x070⟩
/-- SPN.TEN_EN (R24). -/
def R.spnTenEn : Reg := ⟨.spn, 0x090⟩
/-- SPN.SLICE (R87). -/
def R.spnSlice : Reg := ⟨.spn, 0x0B0⟩
/-- SPN.SUBST (R281). -/
def R.spnSubst : Reg := ⟨.spn, 0x0F0⟩
/-- FAB.CTL (R255). -/
def R.fabCtl : Reg := ⟨.fab, 0x040⟩
/-- FAB.STS (R264). -/
def R.fabSts : Reg := ⟨.fab, 0x044⟩
/-- FAB.FRAME_BAD (R236). -/
def R.fabFrameBad : Reg := ⟨.fab, 0x048⟩
/-- FAB.REPLAY_DROP (R239). -/
def R.fabReplayDrop : Reg := ⟨.fab, 0x04C⟩
/-- FAB.AUTH_FAIL (R242). -/
def R.fabAuthFail : Reg := ⟨.fab, 0x050⟩
/-- FAB.SLOT_BAD (R245). -/
def R.fabSlotBad : Reg := ⟨.fab, 0x054⟩
/-- FAB.SLOT_REPLAY (R264). -/
def R.fabSlotReplay : Reg := ⟨.fab, 0x058⟩
/-- FAB.TOSS_DROP (R249). -/
def R.fabTossDrop : Reg := ⟨.fab, 0x05C⟩
/-- FAB.TOSS_SUPP (R62). -/
def R.fabTossSupp : Reg := ⟨.fab, 0x060⟩
/-- FAB.ESC_CNT (R254). -/
def R.fabEscCnt : Reg := ⟨.fab, 0x064⟩
/-- FAB.ROUTE_ERR (R254). -/
def R.fabRouteErr : Reg := ⟨.fab, 0x068⟩
/-- FAB.DET_LATE (R257). -/
def R.fabDetLate : Reg := ⟨.fab, 0x06C⟩
/-- FAB.FENCE_CNT (R262). -/
def R.fabFenceCnt : Reg := ⟨.fab, 0x070⟩
/-- FAB.NACK_TX (R264). -/
def R.fabNackTx : Reg := ⟨.fab, 0x074⟩
/-- FAB.TEN_SPAN (R252). -/
def R.fabTenSpan : Reg := ⟨.fab, 0x080⟩
/-- FAB.MEMBER_CNT (R264). -/
def R.fabMemberCnt : Reg := ⟨.fab, 0x0A0⟩
/-- FAB.REVOKE_CNT (R264). -/
def R.fabRevokeCnt : Reg := ⟨.fab, 0x0A4⟩
/-- WLD.STS (R271). -/
def R.wldSts : Reg := ⟨.wld, 0x040⟩
/-- WLD.BYTES_LO (R286). -/
def R.wldBytesLo : Reg := ⟨.wld, 0x044⟩
/-- WLD.BYTES_HI (R286). -/
def R.wldBytesHi : Reg := ⟨.wld, 0x048⟩
/-- WLD.CHAIN_SEL (R266). -/
def R.wldChainSel : Reg := ⟨.wld, 0x04C⟩
/-- WLD.CHAIN_CFG (R266). -/
def R.wldChainCfg : Reg := ⟨.wld, 0x050⟩
/-- WLD.SRC_LO (R266). -/
def R.wldSrcLo : Reg := ⟨.wld, 0x054⟩
/-- WLD.SRC_HI (R266). -/
def R.wldSrcHi : Reg := ⟨.wld, 0x058⟩
/-- WLD.LEN_LO (R266). -/
def R.wldLenLo : Reg := ⟨.wld, 0x05C⟩
/-- WLD.LEN_HI (R266). -/
def R.wldLenHi : Reg := ⟨.wld, 0x060⟩
/-- WLD.CMD (R286). -/
def R.wldCmd : Reg := ⟨.wld, 0x064⟩
/-- WLD.REFILL (R286). -/
def R.wldRefill : Reg := ⟨.wld, 0x068⟩
/-- WLD.REC_CNT (R286). -/
def R.wldRecCnt : Reg := ⟨.wld, 0x06C⟩
/-- WLD.CHAIN_ERR (R267). -/
def R.wldChainErr : Reg := ⟨.wld, 0x070⟩
/-- WLD.CLU_BAD (R285). -/
def R.wldCluBad : Reg := ⟨.wld, 0x080⟩
/-- WLD.PORTAL (R267). -/
def R.wldPortal : Reg := ⟨.wld, 0x800⟩
/-- SLT.FN_SEL (R455). -/
def R.sltFnSel : Reg := ⟨.slt, 0x040⟩
/-- SLT.COUNTS (R455). -/
def R.sltCounts : Reg := ⟨.slt, 0x044⟩
/-- SLT.FAULTED (R455). -/
def R.sltFaulted : Reg := ⟨.slt, 0x048⟩
/-- SLT.PUB_CNT (R455). -/
def R.sltPubCnt : Reg := ⟨.slt, 0x04C⟩
/-- SLT.BIND_CNT (R455). -/
def R.sltBindCnt : Reg := ⟨.slt, 0x050⟩
/-- XLT.TSEL (R305). -/
def R.xltTsel : Reg := ⟨.xlt, 0x040⟩
/-- XLT.ROOT_LO (R305). -/
def R.xltRootLo : Reg := ⟨.xlt, 0x044⟩
/-- XLT.ROOT_HI (R305). -/
def R.xltRootHi : Reg := ⟨.xlt, 0x048⟩
/-- XLT.BASE (R305). -/
def R.xltBase : Reg := ⟨.xlt, 0x04C⟩
/-- XLT.INV_CTL (R308). -/
def R.xltInvCtl : Reg := ⟨.xlt, 0x050⟩
/-- XLT.INV_ADDR_LO (R308). -/
def R.xltInvAddrLo : Reg := ⟨.xlt, 0x054⟩
/-- XLT.INV_ADDR_HI (R308). -/
def R.xltInvAddrHi : Reg := ⟨.xlt, 0x058⟩
/-- XLT.INV_PAGES (R308). -/
def R.xltInvPages : Reg := ⟨.xlt, 0x05C⟩
/-- XLT.INV_STS (R308). -/
def R.xltInvSts : Reg := ⟨.xlt, 0x060⟩
/-- XLT.HITS (R315). -/
def R.xltHits : Reg := ⟨.xlt, 0x064⟩
/-- XLT.WALKS (R315). -/
def R.xltWalks : Reg := ⟨.xlt, 0x068⟩
/-- XLT.WALK_FAULTS (R315). -/
def R.xltWalkFaults : Reg := ⟨.xlt, 0x06C⟩
/-- ING.PSEL (R339). -/
def R.ingPsel : Reg := ⟨.ing, 0x040⟩
/-- ING.MAC_LO (R339). -/
def R.ingMacLo : Reg := ⟨.ing, 0x044⟩
/-- ING.MAC_HI (R339). -/
def R.ingMacHi : Reg := ⟨.ing, 0x048⟩
/-- ING.IP4 (R339). -/
def R.ingIp4 : Reg := ⟨.ing, 0x04C⟩
/-- ING.IP6 (R339). -/
def R.ingIp6 : Reg := ⟨.ing, 0x050⟩
/-- ING.UDP_PORT (R323). -/
def R.ingUdpPort : Reg := ⟨.ing, 0x060⟩
/-- ING.SRC_IP4 (R323). -/
def R.ingSrcIp4 : Reg := ⟨.ing, 0x064⟩
/-- ING.HOLD_KIB (R325). -/
def R.ingHoldKib : Reg := ⟨.ing, 0x068⟩
/-- ING.DROP (R323). -/
def R.ingDrop : Reg := ⟨.ing, 0x06C⟩
/-- ING.BAD (R324). -/
def R.ingBad : Reg := ⟨.ing, 0x070⟩
/-- ING.DUP (R326). -/
def R.ingDup : Reg := ⟨.ing, 0x074⟩
/-- ING.LATE (R326). -/
def R.ingLate : Reg := ⟨.ing, 0x078⟩
/-- ING.HOLD_DROP (R325). -/
def R.ingHoldDrop : Reg := ⟨.ing, 0x07C⟩
/-- ING.CARRY (R318). -/
def R.ingCarry : Reg := ⟨.ing, 0x080⟩
/-- ING.TILE_OK (R339). -/
def R.ingTileOk : Reg := ⟨.ing, 0x084⟩
/-- PUB.DEST_SEL (R329). -/
def R.pubDestSel : Reg := ⟨.pub, 0x040⟩
/-- PUB.DEST_PORT (R329). -/
def R.pubDestPort : Reg := ⟨.pub, 0x044⟩
/-- PUB.DEST_MAC_LO (R329). -/
def R.pubDestMacLo : Reg := ⟨.pub, 0x048⟩
/-- PUB.DEST_MAC_HI (R329). -/
def R.pubDestMacHi : Reg := ⟨.pub, 0x04C⟩
/-- PUB.DEST_IP (R329). -/
def R.pubDestIp : Reg := ⟨.pub, 0x050⟩
/-- PUB.DEST_UDP (R329). -/
def R.pubDestUdp : Reg := ⟨.pub, 0x060⟩
/-- PUB.UDP_SRC (R329). -/
def R.pubUdpSrc : Reg := ⟨.pub, 0x064⟩
/-- PUB.RING_BASE_LO (R329). -/
def R.pubRingBaseLo : Reg := ⟨.pub, 0x068⟩
/-- PUB.RING_BASE_HI (R329). -/
def R.pubRingBaseHi : Reg := ⟨.pub, 0x06C⟩
/-- PUB.RING_CFG (R329). -/
def R.pubRingCfg : Reg := ⟨.pub, 0x070⟩
/-- PUB.RING_DB (R329). -/
def R.pubRingDb : Reg := ⟨.pub, 0x074⟩
/-- PUB.REC_BAD (R321). -/
def R.pubRecBad : Reg := ⟨.pub, 0x078⟩
/-- PUB.SPAWN_REF (R322). -/
def R.pubSpawnRef : Reg := ⟨.pub, 0x07C⟩
/-- PUB.ETH_DROP (R329). -/
def R.pubEthDrop : Reg := ⟨.pub, 0x080⟩
/-- PUB.TRUNC (R322). -/
def R.pubTrunc : Reg := ⟨.pub, 0x084⟩
/-- PUB.SENT (R339). -/
def R.pubSent : Reg := ⟨.pub, 0x088⟩
/-- LDG.HBASE_LO (R332). -/
def R.ldgHbaseLo : Reg := ⟨.ldg, 0x040⟩
/-- LDG.HBASE_HI (R332). -/
def R.ldgHbaseHi : Reg := ⟨.ldg, 0x044⟩
/-- LDG.HSIZE (R332). -/
def R.ldgHsize : Reg := ⟨.ldg, 0x048⟩
/-- LDG.HDB (R332). -/
def R.ldgHdb : Reg := ⟨.ldg, 0x04C⟩
/-- LDG.CKPT_TICKS (R332). -/
def R.ldgCkptTicks : Reg := ⟨.ldg, 0x050⟩
/-- LDG.STS (R333). -/
def R.ldgSts : Reg := ⟨.ldg, 0x054⟩
/-- LDG.CMD (R331). -/
def R.ldgCmd : Reg := ⟨.ldg, 0x058⟩
/-- PRV.STS (R455). -/
def R.prvSts : Reg := ⟨.prv, 0x040⟩
/-- PRV.LOAD_RATE (R270). -/
def R.prvLoadRate : Reg := ⟨.prv, 0x044⟩
/-- PRV.IMG_DIGEST (R334). -/
def R.prvImgDigest : Reg := ⟨.prv, 0x048⟩
/-- PRV.WGT_DIGEST (R335). -/
def R.prvWgtDigest : Reg := ⟨.prv, 0x068⟩
/-- PRV.RES_CNT (R455). -/
def R.prvResCnt : Reg := ⟨.prv, 0x088⟩
/-- PRV.RES_BACKLOG (R455). -/
def R.prvResBacklog : Reg := ⟨.prv, 0x08C⟩
/-- TIM.CTL (R361). -/
def R.timCtl : Reg := ⟨.tim, 0x040⟩
/-- TIM.STS (R361). -/
def R.timSts : Reg := ⟨.tim, 0x044⟩
/-- TIM.PRIO (R348). -/
def R.timPrio : Reg := ⟨.tim, 0x048⟩
/-- TIM.SLEW_RATE (R354). -/
def R.timSlewRate : Reg := ⟨.tim, 0x04C⟩
/-- TIM.HO_LIMIT (R352). -/
def R.timHoLimit : Reg := ⟨.tim, 0x050⟩
/-- TIM.HO_PPB (R358). -/
def R.timHoPpb : Reg := ⟨.tim, 0x054⟩
/-- TIM.REF_ERR (R358). -/
def R.timRefErr : Reg := ⟨.tim, 0x058⟩
/-- TIM.LOOP_TC (R349). -/
def R.timLoopTc : Reg := ⟨.tim, 0x05C⟩
/-- TIM.NOW_SEC_LO (R361). -/
def R.timNowSecLo : Reg := ⟨.tim, 0x060⟩
/-- TIM.NOW_SEC_HI (R361). -/
def R.timNowSecHi : Reg := ⟨.tim, 0x064⟩
/-- TIM.NOW_NS (R361). -/
def R.timNowNs : Reg := ⟨.tim, 0x068⟩
/-- TIM.OFFSET (R361). -/
def R.timOffset : Reg := ⟨.tim, 0x06C⟩
/-- TIM.FREQ (R349). -/
def R.timFreq : Reg := ⟨.tim, 0x070⟩
/-- TIM.HO_ELAPSED (R352). -/
def R.timHoElapsed : Reg := ⟨.tim, 0x074⟩
/-- TIM.SET_SEC_LO (R357). -/
def R.timSetSecLo : Reg := ⟨.tim, 0x078⟩
/-- TIM.SET_SEC_HI (R357). -/
def R.timSetSecHi : Reg := ⟨.tim, 0x07C⟩
/-- TIM.SET_NS (R357). -/
def R.timSetNs : Reg := ⟨.tim, 0x080⟩
/-- TIM.CMD (R357). -/
def R.timCmd : Reg := ⟨.tim, 0x084⟩
/-- TIM.TOD_NEXT_LO (R346). -/
def R.timTodNextLo : Reg := ⟨.tim, 0x088⟩
/-- TIM.TOD_NEXT_HI (R346). -/
def R.timTodNextHi : Reg := ⟨.tim, 0x08C⟩
/-- TIM.PPS_IN_COMP (R361). -/
def R.timPpsInComp : Reg := ⟨.tim, 0x090⟩
/-- TIM.PPS_OUT_COMP (R353). -/
def R.timPpsOutComp : Reg := ⟨.tim, 0x094⟩
/-- TIM.PPS_WIDTH (R353). -/
def R.timPpsWidth : Reg := ⟨.tim, 0x098⟩
/-- TIM.DAC_CFG (R349). -/
def R.timDacCfg : Reg := ⟨.tim, 0x09C⟩
/-- TIM.DAC_LIM (R349). -/
def R.timDacLim : Reg := ⟨.tim, 0x0A0⟩
/-- TIM.DAC_CODE (R350). -/
def R.timDacCode : Reg := ⟨.tim, 0x0A4⟩
/-- TIM.PTP_CFG (R345). -/
def R.timPtpCfg : Reg := ⟨.tim, 0x0A8⟩
/-- TIM.PTP_MPD (R361). -/
def R.timPtpMpd : Reg := ⟨.tim, 0x0AC⟩
/-- TIM.SQ_NOTE (R359). -/
def R.timSqNote : Reg := ⟨.tim, 0x0B0⟩
/-- TIM.Q_LEAD (R359). -/
def R.timQLead : Reg := ⟨.tim, 0x0B4⟩
/-- TIM.ANCHOR_TICKS (R359). -/
def R.timAnchorTicks : Reg := ⟨.tim, 0x0B8⟩
/-- TIM.REF_LOSS (R348). -/
def R.timRefLoss : Reg := ⟨.tim, 0x0BC⟩
/-- TIM.PPS_MISS (R361). -/
def R.timPpsMiss : Reg := ⟨.tim, 0x0C0⟩
/-- TIM.Q_LATE (R359). -/
def R.timQLate : Reg := ⟨.tim, 0x0C4⟩
/-- TIM.PPS_OUT_SKIP (R353). -/
def R.timPpsOutSkip : Reg := ⟨.tim, 0x0C8⟩
/-- PWR.CTL (R392). -/
def R.pwrCtl : Reg := ⟨.pwr, 0x040⟩
/-- PWR.STS (R392). -/
def R.pwrSts : Reg := ⟨.pwr, 0x044⟩
/-- PWR.SLACK_TGT (R375). -/
def R.pwrSlackTgt : Reg := ⟨.pwr, 0x048⟩
/-- PWR.DROOP (R374). -/
def R.pwrDroop : Reg := ⟨.pwr, 0x04C⟩
/-- PWR.Q_SEL (R392). -/
def R.pwrQSel : Reg := ⟨.pwr, 0x050⟩
/-- PWR.Q_FREQ (R373). -/
def R.pwrQFreq : Reg := ⟨.pwr, 0x054⟩
/-- PWR.Q_VOLT (R373). -/
def R.pwrQVolt : Reg := ⟨.pwr, 0x058⟩
/-- PWR.Q_SLACK (R375). -/
def R.pwrQSlack : Reg := ⟨.pwr, 0x05C⟩
/-- PWR.Q_TEMP (R381). -/
def R.pwrQTemp : Reg := ⟨.pwr, 0x060⟩
/-- PWR.DROOP_CNT (R379). -/
def R.pwrDroopCnt : Reg := ⟨.pwr, 0x064⟩
/-- PWR.STRETCH_CLK (R379). -/
def R.pwrStretchClk : Reg := ⟨.pwr, 0x068⟩
/-- PWR.PCAP (R383). -/
def R.pwrPcap : Reg := ⟨.pwr, 0x06C⟩
/-- PWR.CMD (R384). -/
def R.pwrCmd : Reg := ⟨.pwr, 0x070⟩
/-- PWR.WAKE_EN (R388). -/
def R.pwrWakeEn : Reg := ⟨.pwr, 0x074⟩
/-- PWR.WAKE_GUARD (R390). -/
def R.pwrWakeGuard : Reg := ⟨.pwr, 0x078⟩
/-- PWR.DOZE_NOTE (R385). -/
def R.pwrDozeNote : Reg := ⟨.pwr, 0x07C⟩
/-- PWR.DOZE_CNT (R392). -/
def R.pwrDozeCnt : Reg := ⟨.pwr, 0x080⟩
/-- PWR.RST_CAUSE (R370). -/
def R.pwrRstCause : Reg := ⟨.pwr, 0x084⟩
/-- PWR.BOOT_TIME (R392). -/
def R.pwrBootTime : Reg := ⟨.pwr, 0x088⟩
/-- SAF.STS (R409). -/
def R.safSts : Reg := ⟨.saf, 0x040⟩
/-- SAF.GATE_CAUSE (R399). -/
def R.safGateCause : Reg := ⟨.saf, 0x044⟩
/-- SAF.KICK (R409). -/
def R.safKick : Reg := ⟨.saf, 0x048⟩
/-- SAF.SENSOR_FAIL (R409). -/
def R.safSensorFail : Reg := ⟨.saf, 0x04C⟩
/-- SAF.SENSOR_FAIL_HUB (R409). -/
def R.safSensorFailHub : Reg := ⟨.saf, 0x050⟩
/-- SAF.SELFCHK_CLEAN_LO (R401). -/
def R.safSelfchkCleanLo : Reg := ⟨.saf, 0x054⟩
/-- SAF.SELFCHK_CLEAN_HI (R401). -/
def R.safSelfchkCleanHi : Reg := ⟨.saf, 0x058⟩
/-- SAF.SELFCHK_SKIP (R400). -/
def R.safSelfchkSkip : Reg := ⟨.saf, 0x05C⟩
/-- SAF.CHK_DIS (R402). -/
def R.safChkDis : Reg := ⟨.saf, 0x060⟩
/-- SAF.REC_HEAD (R409). -/
def R.safRecHead : Reg := ⟨.saf, 0x064⟩
/-- SAF.REC_SEL (R409). -/
def R.safRecSel : Reg := ⟨.saf, 0x068⟩
/-- SAF.REC_DATA (R409). -/
def R.safRecData : Reg := ⟨.saf, 0x06C⟩
/-- TRS.CFG (R442). -/
def R.trsCfg : Reg := ⟨.trs, 0x040⟩
/-- TRS.STS (R442). -/
def R.trsSts : Reg := ⟨.trs, 0x044⟩
/-- TRS.SF_NUM (R442). -/
def R.trsSfNum : Reg := ⟨.trs, 0x048⟩
/-- TRS.FCS_ERR (R417). -/
def R.trsFcsErr : Reg := ⟨.trs, 0x04C⟩
/-- TRS.BCN_MISS (R442). -/
def R.trsBcnMiss : Reg := ⟨.trs, 0x050⟩
/-- TRS.CONT_FAIL (R423). -/
def R.trsContFail : Reg := ⟨.trs, 0x054⟩
/-- TRS.DUP_DROP (R420). -/
def R.trsDupDrop : Reg := ⟨.trs, 0x058⟩
/-- TRS.WR_DENY (R419). -/
def R.trsWrDeny : Reg := ⟨.trs, 0x05C⟩
/-- TRS.TX_FRAMES (R442). -/
def R.trsTxFrames : Reg := ⟨.trs, 0x060⟩
/-- SPI.STS (R442). -/
def R.spiSts : Reg := ⟨.spi, 0x040⟩
/-- SPI.PARTIAL_CNT (R432). -/
def R.spiPartialCnt : Reg := ⟨.spi, 0x044⟩
/-- SPI.EXTRA_CNT (R432). -/
def R.spiExtraCnt : Reg := ⟨.spi, 0x048⟩
/-- SPI.BADCMD_CNT (R431). -/
def R.spiBadcmdCnt : Reg := ⟨.spi, 0x04C⟩
/-- SPI.WR_DENY (R432). -/
def R.spiWrDeny : Reg := ⟨.spi, 0x050⟩
/-- BTF.STS (R442). -/
def R.btfSts : Reg := ⟨.btf, 0x040⟩
/-- BTF.FW_VER (R442). -/
def R.btfFwVer : Reg := ⟨.btf, 0x044⟩
/-- BTF.MAX_MHZ (R433). -/
def R.btfMaxMhz : Reg := ⟨.btf, 0x048⟩
/-- BTF.ADDR (R436). -/
def R.btfAddr : Reg := ⟨.btf, 0x04C⟩
/-- BTF.CMD (R436). -/
def R.btfCmd : Reg := ⟨.btf, 0x050⟩
/-- BTF.BUF (R436). -/
def R.btfBuf : Reg := ⟨.btf, 0x100⟩
/-- TAG.STS (R442). -/
def R.tagSts : Reg := ⟨.tag, 0x040⟩
/-- TAG.PAGE_SEL (R442). -/
def R.tagPageSel : Reg := ⟨.tag, 0x044⟩
/-- TAG.PAGE_DATA (R442). -/
def R.tagPageData : Reg := ⟨.tag, 0x048⟩
/-- TAG.READER_WR (R442). -/
def R.tagReaderWr : Reg := ⟨.tag, 0x04C⟩
/-- TAG.NAK_CNT (R442). -/
def R.tagNakCnt : Reg := ⟨.tag, 0x050⟩
/-- HST.FN_STS (R315). -/
def R.hstFnSts : Reg := ⟨.hst, 0x040⟩
/-- HST.SLOT_REL (R304). -/
def R.hstSlotRel : Reg := ⟨.hst, 0x044⟩
/-- HST.REL_BAD (R304). -/
def R.hstRelBad : Reg := ⟨.hst, 0x048⟩
/-- HST.CMD_ERR (R296). -/
def R.hstCmdErr : Reg := ⟨.hst, 0x04C⟩
/-- HST.STREAMS (R300). -/
def R.hstStreams : Reg := ⟨.hst, 0x050⟩
/-- HST.LINK (R315). -/
def R.hstLink : Reg := ⟨.hst, 0x060⟩
/-- HST.CREDIT_STALL (R27). -/
def R.hstCreditStall : Reg := ⟨.hst, 0x064⟩
/-- HST.FN_EVT (R312). -/
def R.hstFnEvt : Reg := ⟨.hst, 0x068⟩
/-- HST.QUOTA_SEL (R300). -/
def R.hstQuotaSel : Reg := ⟨.hst, 0x088⟩
/-- HST.QUOTA_SET (R300). -/
def R.hstQuotaSet : Reg := ⟨.hst, 0x08C⟩
/-- HSQ.CMDQ_BASE_LO (R293). -/
def R.hsqCmdqBaseLo : Reg := ⟨.hsq, 0x040⟩
/-- HSQ.CMDQ_BASE_HI (R293). -/
def R.hsqCmdqBaseHi : Reg := ⟨.hsq, 0x044⟩
/-- HSQ.CMDQ_SIZE (R293). -/
def R.hsqCmdqSize : Reg := ⟨.hsq, 0x048⟩
/-- HSQ.RING_BASE_LO (R293). -/
def R.hsqRingBaseLo : Reg := ⟨.hsq, 0x04C⟩
/-- HSQ.RING_BASE_HI (R293). -/
def R.hsqRingBaseHi : Reg := ⟨.hsq, 0x050⟩
/-- HSQ.RING_CFG (R293). -/
def R.hsqRingCfg : Reg := ⟨.hsq, 0x054⟩
/-- HSQ.QCTL (R293). -/
def R.hsqQctl : Reg := ⟨.hsq, 0x058⟩
/-- HSQ.QCMD (R307). -/
def R.hsqQcmd : Reg := ⟨.hsq, 0x05C⟩
/-- HSQ.QSTS (R307). -/
def R.hsqQsts : Reg := ⟨.hsq, 0x060⟩
/-- HSQ.CMDQ_HEAD (R294). -/
def R.hsqCmdqHead : Reg := ⟨.hsq, 0x064⟩
/-- HSQ.RING_TAIL (R298). -/
def R.hsqRingTail : Reg := ⟨.hsq, 0x068⟩
/-- HSQ.FAULT_VA_LO (R307). -/
def R.hsqFaultVaLo : Reg := ⟨.hsq, 0x070⟩
/-- HSQ.FAULT_VA_HI (R307). -/
def R.hsqFaultVaHi : Reg := ⟨.hsq, 0x074⟩
/-- HSQ.FAULT_ENTRY_LO (R307). -/
def R.hsqFaultEntryLo : Reg := ⟨.hsq, 0x078⟩
/-- HSQ.FAULT_ENTRY_HI (R307). -/
def R.hsqFaultEntryHi : Reg := ⟨.hsq, 0x07C⟩
/-- HSQ.FAULT_CODE (R307). -/
def R.hsqFaultCode : Reg := ⟨.hsq, 0x080⟩
/-- HSQ.CMDQ_DB (R294). -/
def R.hsqCmdqDb : Reg := ⟨.hsq, 0x100⟩
/-- HSQ.RING_DB (R298). -/
def R.hsqRingDb : Reg := ⟨.hsq, 0x104⟩
/-- PRT.CTL (R235). -/
def R.prtCtl : Reg := ⟨.prt, 0x040⟩
/-- PRT.STS (R212). -/
def R.prtSts : Reg := ⟨.prt, 0x044⟩
/-- PRT.PARTNER (R235). -/
def R.prtPartner : Reg := ⟨.prt, 0x048⟩
/-- PRT.BACKOFF (R214). -/
def R.prtBackoff : Reg := ⟨.prt, 0x04C⟩
/-- PRT.EARLY_CNT (R212). -/
def R.prtEarlyCnt : Reg := ⟨.prt, 0x050⟩
/-- PRT.WIRE_ERR (R218). -/
def R.prtWireErr : Reg := ⟨.prt, 0x054⟩
/-- PRT.DOWN_CNT (R220). -/
def R.prtDownCnt : Reg := ⟨.prt, 0x058⟩
/-- PRT.CW_LO (R210). -/
def R.prtCwLo : Reg := ⟨.prt, 0x05C⟩
/-- PRT.CW_HI (R210). -/
def R.prtCwHi : Reg := ⟨.prt, 0x060⟩
/-- PRT.CORR_CNT (R210). -/
def R.prtCorrCnt : Reg := ⟨.prt, 0x064⟩
/-- PRT.UNC_CNT (R210). -/
def R.prtUncCnt : Reg := ⟨.prt, 0x068⟩
/-- PRT.HIST (R210). -/
def R.prtHist : Reg := ⟨.prt, 0x06C⟩
/-- PRT.UNC_THR (R211). -/
def R.prtUncThr : Reg := ⟨.prt, 0x0A8⟩
/-- PRT.LANE_SEL (R235). -/
def R.prtLaneSel : Reg := ⟨.prt, 0x0AC⟩
/-- PRT.LANE_SYM (R210). -/
def R.prtLaneSym : Reg := ⟨.prt, 0x0B0⟩
/-- PRT.LANE_EQ (R221). -/
def R.prtLaneEq : Reg := ⟨.prt, 0x0B4⟩
/-- PRT.FREEZE_CNT (R222). -/
def R.prtFreezeCnt : Reg := ⟨.prt, 0x0B8⟩
/-- PRT.DELAY (R39). -/
def R.prtDelay : Reg := ⟨.prt, 0x0BC⟩
/-- PRT.PRBS_CTL (R232). -/
def R.prtPrbsCtl : Reg := ⟨.prt, 0x0C0⟩
/-- PRT.PRBS_STS (R232). -/
def R.prtPrbsSts : Reg := ⟨.prt, 0x0C4⟩
/-- PRT.PRBS_ERR (R232). -/
def R.prtPrbsErr : Reg := ⟨.prt, 0x0C8⟩
/-- PRT.PRBS_BITS_LO (R232). -/
def R.prtPrbsBitsLo : Reg := ⟨.prt, 0x0CC⟩
/-- PRT.PRBS_BITS_HI (R232). -/
def R.prtPrbsBitsHi : Reg := ⟨.prt, 0x0D0⟩
/-- PRT.SPC_CTL (R234). -/
def R.prtSpcCtl : Reg := ⟨.prt, 0x0D4⟩
/-- PRT.SPC_ERR (R234). -/
def R.prtSpcErr : Reg := ⟨.prt, 0x0D8⟩
/-- PRT.SPC_MISS (R234). -/
def R.prtSpcMiss : Reg := ⟨.prt, 0x0DC⟩
/-- PRT.SPC_OK (R234). -/
def R.prtSpcOk : Reg := ⟨.prt, 0x0E0⟩
/-- PRT.OPT_STS (R227). -/
def R.prtOptSts : Reg := ⟨.prt, 0x0E4⟩
/-- PRT.OPT_LANE (R235). -/
def R.prtOptLane : Reg := ⟨.prt, 0x0E8⟩
/-- PRT.OPT_TRIP (R227). -/
def R.prtOptTrip : Reg := ⟨.prt, 0x0EC⟩
/-- PRT.ETH_CTL (R235). -/
def R.prtEthCtl : Reg := ⟨.prt, 0x0F0⟩
/-- PRT.ETH_ASYM (R230). -/
def R.prtEthAsym : Reg := ⟨.prt, 0x0F4⟩
/-- PRT.ETH_DROP (R229). -/
def R.prtEthDrop : Reg := ⟨.prt, 0x0F8⟩
/-- QST.CE_CNT (R206). -/
def R.qstCeCnt : Reg := ⟨.qst, 0x050⟩
/-- QST.CE_ADDR (R206). -/
def R.qstCeAddr : Reg := ⟨.qst, 0x054⟩
/-- QST.UE_CNT (R206). -/
def R.qstUeCnt : Reg := ⟨.qst, 0x058⟩
/-- QST.SCRUB_CTL (R204). -/
def R.qstScrubCtl : Reg := ⟨.qst, 0x05C⟩
/-- QST.SCRUB_STS (R206). -/
def R.qstScrubSts : Reg := ⟨.qst, 0x060⟩
/-- QST.SCRUB_PASS (R206). -/
def R.qstScrubPass : Reg := ⟨.qst, 0x064⟩
/-- QST.SCRUB_LAST (R206). -/
def R.qstScrubLast : Reg := ⟨.qst, 0x068⟩
/-- CLU.MAP (R285). -/
def R.cluMap : Reg := ⟨.clu, 0x040⟩
/-- CLU.STS (R455). -/
def R.cluSts : Reg := ⟨.clu, 0x044⟩
/-- CLU.QUAD (R68). -/
def R.cluQuad : Reg := ⟨.clu, 0x048⟩
/-- TGP.NDC (R64). -/
def R.tgpNdc : Reg := ⟨.tgp, 0x040⟩
/-- TGP.SLOTS (R94). -/
def R.tgpSlots : Reg := ⟨.tgp, 0x044⟩
/-- TGP.FAULT (R130). -/
def R.tgpFault : Reg := ⟨.tgp, 0x048⟩
/-- TGP.KILL_CNT (R89). -/
def R.tgpKillCnt : Reg := ⟨.tgp, 0x04C⟩
/-- TGP.DBG_SEL (R94). -/
def R.tgpDbgSel : Reg := ⟨.tgp, 0x060⟩
/-- TGP.DBG_CMD (R94). -/
def R.tgpDbgCmd : Reg := ⟨.tgp, 0x064⟩
/-- TGP.DBG_STS (R91). -/
def R.tgpDbgSts : Reg := ⟨.tgp, 0x068⟩
/-- TGP.DBG_BP (R92). -/
def R.tgpDbgBp : Reg := ⟨.tgp, 0x06C⟩
/-- TGP.DBG_REG_SEL (R94). -/
def R.tgpDbgRegSel : Reg := ⟨.tgp, 0x070⟩
/-- TGP.DBG_REG_DATA (R92). -/
def R.tgpDbgRegData : Reg := ⟨.tgp, 0x074⟩
/-- TEN.STS (R153). -/
def R.tenSts : Reg := ⟨.ten, 0x040⟩
/-- TEN.DESC_CNT (R153). -/
def R.tenDescCnt : Reg := ⟨.ten, 0x044⟩
/-- TEN.BUSY_CLK (R153). -/
def R.tenBusyClk : Reg := ⟨.ten, 0x048⟩
/-- VEC.STS (R153). -/
def R.vecSts : Reg := ⟨.vec, 0x040⟩
/-- VEC.DESC_CNT (R153). -/
def R.vecDescCnt : Reg := ⟨.vec, 0x044⟩
/-- VEC.BUSY_CLK (R153). -/
def R.vecBusyClk : Reg := ⟨.vec, 0x048⟩
/-- VEC.SR_SEED_LO (R136). -/
def R.vecSrSeedLo : Reg := ⟨.vec, 0x050⟩
/-- VEC.SR_SEED_HI (R136). -/
def R.vecSrSeedHi : Reg := ⟨.vec, 0x054⟩
/-- VEC.SR_STATE_LO (R136). -/
def R.vecSrStateLo : Reg := ⟨.vec, 0x058⟩
/-- VEC.SR_STATE_HI (R136). -/
def R.vecSrStateHi : Reg := ⟨.vec, 0x05C⟩
/-- SEQ.STS (R184). -/
def R.seqSts : Reg := ⟨.seq, 0x040⟩
/-- SEQ.CTX_SEL (R184). -/
def R.seqCtxSel : Reg := ⟨.seq, 0x044⟩
/-- SEQ.CTX_STS (R184). -/
def R.seqCtxSts : Reg := ⟨.seq, 0x048⟩
/-- SEQ.CTX_PC (R184). -/
def R.seqCtxPc : Reg := ⟨.seq, 0x04C⟩
/-- SEQ.FAULT (R171). -/
def R.seqFault : Reg := ⟨.seq, 0x050⟩
/-- SEQ.SLACK (R173). -/
def R.seqSlack : Reg := ⟨.seq, 0x054⟩
/-- SEQ.LATE_AT (R159). -/
def R.seqLateAt : Reg := ⟨.seq, 0x058⟩
/-- SEQ.LATE_SLOT (R164). -/
def R.seqLateSlot : Reg := ⟨.seq, 0x05C⟩
/-- SEQ.CONTEND (R155). -/
def R.seqContend : Reg := ⟨.seq, 0x060⟩
/-- SEQ.TRACE_IDX (R167). -/
def R.seqTraceIdx : Reg := ⟨.seq, 0x064⟩
/-- SEQ.TRACE (R184). -/
def R.seqTrace : Reg := ⟨.seq, 0x800⟩
/-- SPD.LEASE_T (R187). -/
def R.spdLeaseT : Reg := ⟨.spd, 0x040⟩
/-- SPD.LEASE_V (R187). -/
def R.spdLeaseV : Reg := ⟨.spd, 0x044⟩
/-- SPD.LEASE_D (R187). -/
def R.spdLeaseD : Reg := ⟨.spd, 0x048⟩
/-- SPD.LEASE_G (R187). -/
def R.spdLeaseG : Reg := ⟨.spd, 0x04C⟩
/-- SPD.CE_CNT (R201). -/
def R.spdCeCnt : Reg := ⟨.spd, 0x050⟩
/-- SPD.CE_ADDR (R201). -/
def R.spdCeAddr : Reg := ⟨.spd, 0x054⟩
/-- SPD.UE_CNT (R201). -/
def R.spdUeCnt : Reg := ⟨.spd, 0x058⟩
/-- SPD.SCRUB_CTL (R203). -/
def R.spdScrubCtl : Reg := ⟨.spd, 0x05C⟩
/-- SPD.SCRUB_STS (R202). -/
def R.spdScrubSts : Reg := ⟨.spd, 0x060⟩
/-- SPD.SCRUB_PASS (R204). -/
def R.spdScrubPass : Reg := ⟨.spd, 0x064⟩
/-- SPD.SCRUB_LAST (R204). -/
def R.spdScrubLast : Reg := ⟨.spd, 0x068⟩
/-- SPD.WB_CANCEL (R205). -/
def R.spdWbCancel : Reg := ⟨.spd, 0x06C⟩
/-- HDL.IDX (R199). -/
def R.hdlIdx : Reg := ⟨.hdl, 0x040⟩
/-- HDL.ENT (R199). -/
def R.hdlEnt : Reg := ⟨.hdl, 0x044⟩
/-- HDL.CMD (R199). -/
def R.hdlCmd : Reg := ⟨.hdl, 0x054⟩
/-- HDL.STS (R199). -/
def R.hdlSts : Reg := ⟨.hdl, 0x058⟩
/-- ERR.HUB_PEND (R458). -/
def R.errHubPend : Reg := ⟨.err, 0x040⟩
/-- ERR.PRT_PEND (R458). -/
def R.errPrtPend : Reg := ⟨.err, 0x044⟩
/-- ERR.HSQ_PEND_LO (R458). -/
def R.errHsqPendLo : Reg := ⟨.err, 0x048⟩
/-- ERR.HSQ_PEND_HI (R458). -/
def R.errHsqPendHi : Reg := ⟨.err, 0x04C⟩
/-- ERR.CLU_PEND (R458). -/
def R.errCluPend : Reg := ⟨.err, 0x050⟩
/-- ERR.CLU_SEL (R458). -/
def R.errCluSel : Reg := ⟨.err, 0x090⟩
/-- ERR.CLU_PAGES (R458). -/
def R.errCluPages : Reg := ⟨.err, 0x094⟩
/-- ERR.ACK (R459). -/
def R.errAck : Reg := ⟨.err, 0x098⟩
/-- ERR.ROUTE_PEND (R458). -/
def R.errRoutePend : Reg := ⟨.err, 0x09C⟩
/-- ERR.UNMAPPED_CNT (R448). -/
def R.errUnmappedCnt : Reg := ⟨.err, 0x0A0⟩
/-- ERR.DOZE_ACC (R449). -/
def R.errDozeAcc : Reg := ⟨.err, 0x0A4⟩
/-- ERR.ROUTE (R459). -/
def R.errRoute : Reg := ⟨.err, 0x100⟩

end Sys2Proof.Machine
end

