-- ==== Sys2Proof/Machine/Ops.lean ====
section
/-!
DEFINITION. The named operations on the state that every family uses: tables of clusters, ports and functions, the
register file with its counters, freezes and deferred values (R33, R443 to R450, R472), violations and interrupts
(R5 to R8, R457 to R459), memory bytes, tick faults (R53), and EVENT frames (R422).
-/
namespace Sys2Proof.Machine

/-- A meaning's outcome. -/
abbrev Res := Host.Outcome State Fault Refusal

/-- The tick allows an image load: IDLE, or HOLD for a re-map (R178, R265). -/
def State.mayLoad (s : State) : Bool := s.tick.state == .idle || s.tick.state == .hold

/-! ### Tables of parts -/

/-- Logical cluster `c`. -/
def State.cluster (s : State) (c : Nat) : Cluster := mget Cluster.reset s.clusters c

/-- The state with cluster `c` replaced. -/
def State.setCluster (s : State) (c : Nat) (x : Cluster) : State := { s with clusters := mput s.clusters c x }

/-- The state with cluster `c` changed. -/
def State.modCluster (s : State) (c : Nat) (f : Cluster → Cluster) : State := s.setCluster c (f (s.cluster c))

/-- Port `p`. -/
def State.port (s : State) (p : Nat) : Port := mget Port.reset s.ports p

/-- The state with port `p` changed. -/
def State.modPort (s : State) (p : Nat) (f : Port → Port) : State :=
  { s with ports := mput s.ports p (f (s.port p)) }

/-- Function `n`: PF 0, VF 1 to 255. -/
def State.fn (s : State) (n : Nat) : Function := mget Function.reset s.host.fns n

/-- The state with function `n` changed. -/
def State.modFn (s : State) (n : Nat) (f : Function → Function) : State :=
  { s with host := { s.host with fns := mput s.host.fns n (f (s.fn n)) } }

/-- Queue pair `q` of function `n`. -/
def State.queue (s : State) (n q : Nat) : Queue := mget Queue.reset s.host.queues (n * 64 + q)

/-- The state with a queue pair changed. -/
def State.modQueue (s : State) (n q : Nat) (f : Queue → Queue) : State :=
  { s with host := { s.host with queues := mput s.host.queues (n * 64 + q) (f (s.queue n q)) } }

/-- Quarter `q`. -/
def State.quarter (s : State) (q : Nat) : Quarter := mget Quarter.reset s.power.quarters q

/-- The state with quarter `q` changed. -/
def State.modQuarter (s : State) (q : Nat) (f : Quarter → Quarter) : State :=
  { s with power := { s.power with quarters := mput s.power.quarters q (f (s.quarter q)) } }

/-- The state with its tick machine changed. -/
def State.modTick (s : State) (f : Tick → Tick) : State := { s with tick := f s.tick }

/-- The state with its services changed. -/
def State.modSvc (s : State) (f : Service → Service) : State := { s with svc := f s.svc }

/-- The state with its fabric changed. -/
def State.modFab (s : State) (f : Fabric → Fabric) : State := { s with fabric := f s.fabric }

/-- The state with its host port changed. -/
def State.modHost (s : State) (f : HostPort → HostPort) : State := { s with host := f s.host }

/-- The state with its load engine changed. -/
def State.modLoad (s : State) (f : Load → Load) : State := { s with load := f s.load }

/-- The state with its time unit changed. -/
def State.modTime (s : State) (f : TimeUnit → TimeUnit) : State := { s with time := f s.time }

/-- Send to the outside (log 3). -/
def State.send (s : State) (o : Out) : State := { s with out := s.out ++ [o] }

/-- Take one free value (log 4). -/
def State.draw (s : State) : State := { s with freeCtr := s.freeCtr + 1 }

/-- Fold a list into the state, in order. -/
def State.each {α : Type} (s : State) (l : List α) (f : State → α → State) : State := l.foldl f s

/-- `t` where the condition holds, else the state unchanged. -/
def State.when (s : State) (c : Bool) (f : State → State) : State := if c then f s else s

/-! ### The register file -/

/-- The key of a register: its bank, page number and offset. -/
def regKey (pg off bank : Nat) : Nat := (bank * 65536 + pg) * 1024 + off / 4

/-- The TDP of the variant in W (Table 00-2), the reset value of PWR.PCAP (R383). -/
def tdp : Nat := if Config.variantO then 950 else 880

/-- A register's reset value: its table's, or where the table says fused, TDP or per tenant, that value. -/
def resetAt (p : PageType) (off bank : Nat) : Nat :=
  if p = .spn ∧ off = 0x64 then (Config.serial.toNat % 2 ^ 32)
  else if p = .spn ∧ off = 0x68 then (Config.serial.toNat / 2 ^ 32)
  else if p = .spn ∧ off = 0x90 then 1
  else if p = .spn ∧ 0x90 < off ∧ off < 0xB0 then 0
  else if p = .fab ∧ off = 0x80 then 1
  else if p = .wld ∧ 0x80 ≤ off ∧ off < 0xC4 then (Config.cluBadFuse ((off - 0x80) / 4)).toNat
  else if p = .pwr ∧ off = 0x6C then tdp
  else if p = .hst ∧ off = 0x8C then (if bank = 0 then 65536 else 0)
  else match regAt p off with
    | some d => d.reset
    | none => 0

/-- The value stored for a register of page type `p`, instance `i`. -/
def State.rawAt (s : State) (p : PageType) (i off bank : Nat) : Nat :=
  match mfind s.regs (regKey (pageNo p i) off bank) with
  | some w => w.toNat
  | none => resetAt p off bank

/-- Store a register's value. -/
def State.setRaw (s : State) (p : PageType) (i off bank v : Nat) : State :=
  { s with regs := mput s.regs (regKey (pageNo p i) off bank) (w32 v) }

/-- A register's stored value: of instance `i`, entry `idx` of an array, copy `bank` behind a selector. -/
def State.rd (s : State) (r : Reg) (i : Nat := 0) (bank : Nat := 0) (idx : Nat := 0) : Nat :=
  s.rawAt r.page i (r.off + 4 * idx) bank

/-- Store a register. -/
def State.wr (s : State) (r : Reg) (v : Nat) (i : Nat := 0) (bank : Nat := 0) (idx : Nat := 0) : State :=
  s.setRaw r.page i (r.off + 4 * idx) bank v

/-- Field [hi:lo] of a stored register. -/
def State.fld (s : State) (r : Reg) (hi lo : Nat) (i : Nat := 0) (bank : Nat := 0) (idx : Nat := 0) : Nat :=
  bits (s.rd r i bank idx) hi lo

/-- Bit `n` of a stored register. -/
def State.flag (s : State) (r : Reg) (n : Nat) (i : Nat := 0) : Bool := bit (s.rd r i) n

/-- The registers whose written value takes effect at a seal: KS_CFG (R36), det_mode (R61), TCK.CTL's stretch_req
(R58), ROLE (R17), TEN_EN, SLICE, SUBST (R455), detour_sel (R255), TEN_SPAN (R252), SPC_CTL (R234), and the service
pages' addresses and ring bases (R339). -/
def deferredAt (p : PageType) (off : Nat) : Bool :=
  match p with
  | .tck => off == 0x5C || off == 0x40
  | .spn => off == 0x40 || off == 0x48 || (decide (0x90 ≤ off) && decide (off < 0x100))
  | .fab => off == 0x40 || (decide (0x80 ≤ off) && decide (off < 0xA0))
  | .prt => off == 0xD4
  | .ing => decide (0x44 ≤ off) && decide (off < 0x60)
  | .pub => (decide (0x48 ≤ off) && decide (off < 0x60)) || off == 0x68 || off == 0x6C
  | .ldg => off == 0x40 || off == 0x44
  | _ => false

/-- The page and offset that a register key names on a hub page, with no selector. -/
def deferredKey (k : Nat) : Bool :=
  match pageAt (k / 1024 % 65536) with
  | some (p, _) => deferredAt p (k % 1024 * 4)
  | none => false

/-- The value in force of a register that takes effect at a seal (R33, R450). -/
def State.inForce (s : State) (r : Reg) (idx : Nat := 0) (i : Nat := 0) (bank : Nat := 0) : Nat :=
  match mfind s.eff (regKey (pageNo r.page i) (r.off + 4 * idx) bank) with
  | some w => w.toNat
  | none => resetAt r.page (r.off + 4 * idx) bank

/-- Every written value comes into force (R33, R450). -/
def State.takeEffect (s : State) : State := { s with eff := s.regs.filter (fun p => deferredKey p.1) }

/-- Bit `t` of an array of eight registers in force: a tenant's enable (R24, R252). -/
def State.tenantBit (s : State) (r : Reg) (t : Nat) : Bool := bit (s.inForce r (t / 32)) (t % 32)

/-! ### Headers, counters, violations, interrupts -/

/-- A header register of page number `pg` (Table 17-1). -/
def State.hdr (s : State) (pg off : Nat) : Nat := (mget 0#32 s.regs (regKey pg off 0)).toNat

/-- Store a header register. -/
def State.setHdr (s : State) (pg off v : Nat) : State := { s with regs := mput s.regs (regKey pg off 0) (w32 v) }

/-- Header offsets (Table 17-1). -/
def hCtl : Nat := 0x0C
def hIrqEn : Nat := 0x14
def hIrqSts : Nat := 0x18
def hErrCnt : Nat := 0x1C
def hErrLo : Nat := 0x20
def hErrHi : Nat := 0x24
def hErrInfo : Nat := 0x28
def hTickLo : Nat := 0x30
def hTickHi : Nat := 0x34
def hLock : Nat := 0x38

/-- Count `n` events in a counter, saturating (R472); while the page is frozen they gather in a hidden count (R445). -/
def State.cnt (s : State) (r : Reg) (i : Nat := 0) (n : Nat := 1) (bank : Nat := 0) (idx : Nat := 0) : State :=
  let pg := pageNo r.page i
  let k := regKey pg (r.off + 4 * idx) bank
  if bit (s.hdr pg hCtl) 0 then { s with hidden := mput s.hidden k (satAdd (mget 0 s.hidden k) n) }
  else s.wr r (satAdd (s.rd r i bank idx) n) i bank idx

/-- A page's interrupt line: IRQ_STS & IRQ_EN is not 0 (R457). -/
def State.pageLine (s : State) (pg : Nat) : Bool := s.hdr pg hIrqSts &&& s.hdr pg hIrqEn != 0

/-- The pages whose IRQ_STS has been written. -/
def State.irqPages (s : State) : List Nat :=
  (s.regs.filter (fun p => p.1 % 1024 == hIrqSts / 4 && decide (p.1 / 1024 < 65536))).map (fun p => p.1 / 1024)

/-- Route `t`'s line: the OR over every page of type `t` reached through the PF (R459). -/
def State.routeLine (s : State) (t : Nat) : Bool :=
  s.irqPages.any (fun pg => decide (pg < 0x4000) && s.pageLine pg &&
    (match pageAt pg with | some (p, _) => pageCode p == t | none => false))

/-- The line of VF `n`'s own pages, which signals its vector 0 (R310). -/
def State.vfLine (s : State) (n : Nat) : Bool :=
  s.irqPages.any (fun pg => decide (0x4000 + 16 * n ≤ pg) && decide (pg < 0x4010 + 16 * n) && s.pageLine pg)

/-- The stream ID falls free (R25, R297). -/
def State.freeId (s : State) (id : Nat) : State :=
  s.modSvc (fun v => { v with
    streams := merase v.streams id, units := v.units.filter (fun u => u.stream != id),
    arriving := v.arriving.filter (fun u => u.stream != id) })

/-- The stream whose completion a host-bound write is falls free (R25, R297). -/
def State.freeOf (s : State) (o : HostOut) : State :=
  match o.stream with
  | some id => s.freeId id
  | none => s

/-- A host-bound write or message leaves. A stream falls free once its completion entry is written (R297). -/
def State.post (s : State) (o : HostOut) : State := (s.send o.out).freeOf o

/-- A host-bound write or message leaves, or waits while posted credits are held (R27, R263). Of a function being reset none
is issued (R312). -/
def State.toHost (s : State) (o : HostOut) : State :=
  if (s.fn o.fn).flr then s.freeOf o
  else if s.host.stalled then s.modHost (fun h => { h with held := h.held ++ [o] }) else s.post o

/-- A write cut at the 512-byte multiples, the greatest payload (Table 11-1; log 16): at most `n` pieces. -/
def payloads (n a : Nat) (d : List Byte) : List (Nat × List Byte) :=
  match n with
  | 0 => []
  | n + 1 =>
    if d.isEmpty then [] else (a, d.take (512 - a % 512)) :: payloads n (a + (512 - a % 512)) (d.drop (512 - a % 512))

/-- Write bytes to host memory from bus address `a` for function `fn`, with the translation of the first and whether they carry
Relaxed Ordering (R287, R308). -/
def State.writeHost (s : State) (fn : Nat) (trans : Option (Nat × Nat)) (relaxed : Bool) (a : Nat) (d : List Byte) : State :=
  s.each (payloads (d.length / 512 + 2) a d) (fun t p =>
    t.toHost ⟨.hostWrite p.1 p.2 relaxed, fn, trans.map (fun x => (x.1, x.2 + (p.1 - a))), none⟩)

/-- Send an MSI-X message of a function's vector, or hold it under a mask (R310). -/
def State.msix (s : State) (fn v : Nat) : State :=
  if (s.fn fn).unmasked.contains v then s.toHost ⟨.msix fn v, fn, none, none⟩
  else s.modFn fn (fun f => { f with pendingMsg := addOnce f.pendingMsg v })

/-- Route `t`'s message, where the route is enabled and armed: sent at once, and the route is disarmed (R459, R311). -/
def State.routeSend (s : State) (t : Nat) : State :=
  let r := s.rawAt .err 0 (0x100 + 4 * t) 0
  if bit r 16 && !s.host.disarmed.contains t then
    (s.msix 0 (bits r 10 0)).modHost (fun h => { h with disarmed := h.disarmed ++ [t] })
  else s

/-- Change a page's IRQ_STS or IRQ_EN, and signal a line that rises by it (R310, R459). -/
def State.setIrq (s : State) (pg off v : Nat) : State :=
  let t := s.setHdr pg off v
  if 0x4000 ≤ pg then
    let n := (pg - 0x4000) / 16
    if !s.vfLine n && t.vfLine n then t.msix n 0 else t
  else match pageAt pg with
    | some (p, _) =>
      let c := pageCode p
      if !s.routeLine c && t.routeLine c then t.routeSend c else t
    | none => t

/-- Set bits of a page's IRQ_STS (R5, R457). -/
def State.irq (s : State) (pg m : Nat) : State := s.setIrq pg hIrqSts (s.hdr pg hIrqSts ||| m)

/-- A page event: its bit of Table 17-9 and bit 0 (R457). -/
def State.event (s : State) (p : PageType) (i n : Nat) : State := s.irq (pageNo p i) (2 ^ n ||| 1)

/-- A violation's contents: code, source, tenant, addr_form and address (R5, Table 17-7, Table 17-8). -/
structure Viol where
  code : Nat
  src : Nat
  tenant : Nat
  form : Nat
  addr : Nat
deriving DecidableEq, Repr

/-- The first of two violations in one clk: lowest source, then code, then address (R7). -/
def Viol.before (a b : Viol) : Bool :=
  if a.src ≠ b.src then decide (a.src < b.src)
  else if a.code ≠ b.code then decide (a.code < b.code)
  else decide (a.addr ≤ b.addr)

/-- Which of two violations in one clk is captured (R7). -/
def Viol.pick (a b : Viol) : Viol := if a.before b then a else b

/-- ERR_INFO of a captured violation (Table 17-1). -/
def errInfo (v : Viol) (more : Bool) : Nat :=
  v.code % 256 + v.src % 32 * 2 ^ 8 + v.tenant % 256 * 2 ^ 16 + v.form % 16 * 2 ^ 24 + b2n more * 2 ^ 30 + 2 ^ 31

/-- The capture of a violation: all four registers at once (R6). -/
def State.capture (s : State) (pg : Nat) (v : Viol) (more : Bool) : State :=
  let a := if v.form = 2 then 0 else v.addr
  ((((s.setHdr pg hErrInfo (errInfo v more)).setHdr pg hErrLo a).setHdr pg hErrHi (a / 2 ^ 32 % 2 ^ 24)).setHdr pg
    hTickLo s.tick.count).setHdr pg hTickHi (s.tick.count / 2 ^ 32)

/-- Violations that reach a page in one clk (R5 steps 2 to 6, R6, R7): captured if the registers are free, else `more`;
all counted; IRQ_STS bit 0. The error response is the caller's (R8). -/
def State.violateAll (s : State) (pg : Nat) (v : Viol) (vs : List Viol) : State :=
  let info := s.hdr pg hErrInfo
  let s1 := if bit info 31 then s.setHdr pg hErrInfo (info ||| 2 ^ 30)
            else s.capture pg (vs.foldl Viol.pick v) (!vs.isEmpty)
  (s1.setHdr pg hErrCnt (satAdd (s1.hdr pg hErrCnt) (1 + vs.length))).irq pg 1

/-- One violation on a page. -/
def State.violate (s : State) (p : PageType) (i : Nat) (v : Viol) : State := s.violateAll (pageNo p i) v []

/-- Violations found in one clk, each with its page number: those of one page reach it together (R7). -/
def State.logTogether (s : State) (l : List (Nat × Viol)) : State :=
  s.each (l.map (·.1)).dedup (fun t pg =>
    match (l.filter (fun x => x.1 == pg)).map (·.2) with
    | [] => t
    | v :: vs => t.violateAll pg v vs)

/-! ### Span addresses (Table 01-3) -/

/-- The kind 0 address of an offset of a cluster's scratchpad. -/
def spanScratch (dev clu off : Nat) : Nat := dev % 2048 * 2 ^ 45 + clu % 512 * 2 ^ 33 + off % 2 ^ 22

/-- The kind 1 address of a quarter-store offset. -/
def spanStore (dev q off : Nat) : Nat := dev % 2048 * 2 ^ 45 + 2 ^ 42 + q % 4 * 2 ^ 40 + off % 2 ^ 26

/-- The kind 2 address of a BAR0 offset. -/
def spanReg (dev off : Nat) : Nat := dev % 2048 * 2 ^ 45 + 2 * 2 ^ 42 + off % 2 ^ 26

/-- The kind 3 address of a tenant's window offset. -/
def spanHost (dev t off : Nat) : Nat := dev % 2048 * 2 ^ 45 + 3 * 2 ^ 42 + t % 256 * 2 ^ 34 + off % 2 ^ 34

/-- The device's logical number, SPN.SELF (R454). -/
def State.self (s : State) : Nat := s.image.self

/-! ### Memory -/

/-- The address of a scratchpad byte in `mem`. -/
def spAddr (c p : Nat) : Nat := c * 2 ^ 22 + p

/-- The address of a quarter-store byte in `mem`. -/
def qsAddr (q o : Nat) : Nat := 2 ^ 31 + q * 2 ^ 26 + o

/-- A byte of memory; an unlisted byte is 0 (14 Table 14-2). -/
def State.byte (s : State) (a : Nat) : Byte := mget 0#8 s.mem a

/-- Store a byte of memory. -/
def State.setByte (s : State) (a : Nat) (b : Byte) : State := { s with mem := mset 0#8 s.mem a b }

/-- `n` bytes of memory from `a`. -/
def State.bytes (s : State) (a n : Nat) : List Byte := (List.range n).map (fun i => s.byte (a + i))

/-- Store bytes from `a`. -/
def State.setBytes (s : State) (a : Nat) (l : List Byte) : State :=
  match l with
  | [] => s
  | b :: r => (s.setByte a b).setBytes (a + 1) r

/-- Every byte from `a` to `a + n - 1` becomes 0. -/
def State.zero (s : State) (a n : Nat) : State :=
  { s with mem := s.mem.filter (fun p => !(decide (a ≤ p.1) && decide (p.1 < a + n))),
           ecc := s.ecc.filter (fun p => !(decide (a ≤ 8 * p.1) && decide (8 * p.1 < a + n))) }

/-- Memory's canonical form: addresses strictly rising, no listed 0. -/
def memWf (m : List Host.Cell) : Bool := mwf 0#8 m

/-! ### Tick faults -/

/-- The unit field of a charged unit (Table 02-6; log 10). -/
def unitField (u : FaultUnit) : Nat :=
  match u with
  | .cluster c => c
  | .link p => Config.linkUnit p
  | .device => Config.deviceUnit
  | .none => Config.noUnit

/-- A fault of the attempt in progress: the first is recorded in TCK.FAULT (R53). -/
def State.sealFault (s : State) (code : Nat) (u : FaultUnit) : State :=
  let s1 := s.modTick (fun t => { t with faults := if t.faults.contains ⟨code, u⟩ then t.faults else t.faults ++ [⟨code, u⟩] })
  if s.tick.fault.isSome then s1
  else s1.modTick (fun t => { t with
    fault := some ⟨code, u⟩, faultReg := w32 (code % 256 + unitField u % 1024 * 2 ^ 8 + s.self % 2048 * 2 ^ 21) })

/-- A tick fault fails the attempt (R53). Outside a tick there is no attempt, and from seal start on its faults are final
(Table 02-5). -/
def State.tickFault (s : State) (code : Nat) (u : FaultUnit) : State :=
  if s.tick.phase = .none ∨ s.tick.phase = .sealing then s else s.sealFault code u

/-! ### Status words and EVENT frames -/

/-- The port has an optical engine (R227): P4 to P11 of an AKL512-O (Table 00-2). -/
def State.optical (_s : State) (p : Nat) : Bool := decide (4 ≤ p) && decide (p < 12) && Config.variantO

/-- The island asserts a port's laser-disable line (R225); a port without an engine has none (Table 00-2). -/
def State.islandLine (s : State) (p : Nat) : Bool := s.optical p && s.island.lines.any (fun x => x.1 == p)

/-- SAF.STS with the lines that `line` shows (Table 15-9). -/
def Island.sts (i : Island) (line : Nat → Bool) : Nat :=
  b2n i.causes.isEmpty + 2 * b2n i.ready + 4 * b2n i.alert + 8 * b2n i.kill + 16 * b2n i.latched +
    32 * b2n i.sensorCrit + natSum ((List.range 8).map (fun j => b2n (line (j + 4)) * 2 ^ (8 + j)))

/-- SAF.STS (Table 15-9). -/
def State.safSts (s : State) : Nat := s.island.sts s.islandLine

/-- SAF.STS as the reasons that hold lines make it: it changes where SAF.STS does, since a port without an engine takes no
reason. -/
def State.safHeld (s : State) : Nat := s.island.sts (fun p => s.island.lines.any (fun x => x.1 == p))

/-- PWR.STS.state's code (Table 14-8). -/
def powerCode (p : PowerState) : Nat :=
  match p with
  | .boot => 0
  | .active => 1
  | .entering => 2
  | .doze => 3
  | .waking => 4
  | .recovery => 5

/-- PWR.STS (Table 14-8). -/
def State.pwrSts (s : State) : Nat :=
  let p := s.power
  powerCode p.state + 16 * b2n p.throttle + 32 * b2n p.thermalCrit + 64 * b2n p.avsFault + 128 * b2n p.bootFail +
    p.bootStep % 16 * 2 ^ 8 + p.wakeSrc % 16 * 2 ^ 16

/-- An EVENT to node 0 where a bit of SAF.STS or PWR.STS[7:4] has changed since `old` (R422). The node runs once
firmware does (R425), and while TRS.CFG.enable is set. -/
def State.noteStatus (s old : State) : State :=
  if s.power.state = .boot ∨ s.power.state = .recovery ∨ s.flag R.trsCfg 8 = false ∨
      (s.safHeld = old.safHeld ∧ bits s.pwrSts 7 4 = bits old.pwrSts 7 4) then s
  else { s with trestle := { s.trestle with
    eventSeq := (s.trestle.eventSeq + 1) % 65536,
    held := s.trestle.held ++ [⟨4, 0, s.trestle.eventSeq, leBytes 4 s.safSts ++ leBytes 4 s.pwrSts, 0, none, s.power.uptime⟩] } }

/-- Change the power unit; a changed status is an EVENT (R422). -/
def State.modPower (s : State) (f : Power → Power) : State := ({ s with power := f s.power } : State).noteStatus s

/-- Change the safety island; a changed status is an EVENT (R422). -/
def State.modIsland (s : State) (f : Island → Island) : State := ({ s with island := f s.island } : State).noteStatus s

/-- TAI now, in ns (R340). -/
def State.tai (s : State) : Int := (s.time.sec : Int) * 1000000000 + s.time.ns

/-- The slot-pattern checker is effective on a port (08 R234). -/
def State.spc (s : State) (p : Nat) : Bool := bit (s.inForce R.prtSpcCtl 0 p) 0

/-- Committed egress is discarded and counted: in tick-stretch mode (R59), and while any port's slot-pattern checker is effective
(08 R234). -/
def State.egressOff (s : State) : Bool := s.tick.stretchEff || (List.range 16).any s.spc

/-- A night-ledger event, ledgered by the next committing tick (R331, R50): kind, detail, body and tenant. -/
def State.note (s : State) (kind detail tenant : Nat) (body : List Byte) : State :=
  s.modSvc (fun v => { v with events := v.events ++ [(kind * 256 + detail, tenant, body)] })

end Sys2Proof.Machine
end

