-- ==== Sys2Proof/Machine/Scratchpad.lean ====
section
/-!
DEFINITION. Scratchpads, quarter stores and handle tables (07): the fields of a handle entry (R191), its acceptance
(R192, R193), the mapping of offsets to banks (R194), reads and writes with leases (R187, R188), SECDED outcomes (R200,
R201) and local handles (R49), and the checks of kind 0 and kind 1 addresses (R190, R198).
-/
namespace Sys2Proof.Machine

/-! ### Handle entries (Table 07-2) -/

/-- A handle entry: its 128 bits, read field by field. -/
abbrev HEntry := BitVec 128

/-- Bits [hi:lo] of word `i` of an entry. -/
def hBits (e : HEntry) (i hi lo : Nat) : Nat := bits (e.toNat / 2 ^ (32 * i) % 2 ^ 32) hi lo

def hType (e : HEntry) : Nat := hBits e 0 2 0
def hKind (e : HEntry) : Nat := hBits e 0 4 3
def hHash (e : HEntry) : Nat := hBits e 0 6 5
def hCur (e : HEntry) : Nat := hBits e 0 7 7
def hOwner (e : HEntry) : Nat := hBits e 0 15 8
def hRights (e : HEntry) : Nat := hBits e 0 23 16
def hLbase (e : HEntry) : Nat := hBits e 1 16 0
def hBank (e : HEntry) : Nat := hBits e 1 21 17
def hK (e : HEntry) : Nat := hBits e 1 24 22
def hQpos (e : HEntry) : Nat := hBits e 1 1 0
def hNidx (e : HEntry) : Nat := hBits e 1 17 8
def hQoff (e : HEntry) : Nat := hBits e 1 25 0
def hLen (e : HEntry) : Nat := hBits e 2 31 0
def hSaddr (e : HEntry) : Nat := hBits e 1 31 0 + hBits e 3 23 0 * 2 ^ 32

/-- Right numbers within the rights field: 0 thread-read to 7 quad-visible (Table 07-2). -/
def hRight (e : HEntry) (n : Nat) : Bool := bit (hRights e) n

/-- The entry with its cur bit set to `v`. -/
def hSetCur (e : HEntry) (v : Nat) : HEntry := BitVec.ofNat 128 (setBits e.toNat 7 7 v)

/-- fb: bytes of one half in each bank (R193). -/
def hFb (e : HEntry) : Nat :=
  let n := 8 * 2 ^ hK e
  ((hLen e + n - 1) / n * 8 + 31) / 32 * 32

/-- F: bytes the entry occupies in each bank (R193). -/
def hF (e : HEntry) : Nat := if hKind e = 1 then 2 * hFb e else hFb e

/-- fold-B's bank term: the XOR of every k-bit chunk of the stripe index (R194). -/
def foldB (n x s k : Nat) : Nat :=
  match n with
  | 0 => 0
  | n + 1 => (x &&& s) ^^^ foldB n (x >>> k) s k

/-- `spd_map`: handle offset to scratchpad offset P, of half `h` (R194). -/
def spdMap (e : HEntry) (o h : Nat) : Nat :=
  let k := hK e
  let s := 2 ^ k - 1
  let w := o / 8
  let col := w &&& s
  let hi := w >>> k
  let f := if hHash e = 1 then hi &&& s else if hHash e = 2 ∧ 0 < k then foldB 32 hi s k else 0
  let bank := hBank e + (col ^^^ f)
  bank * 2 ^ 17 + (hLbase e + h * hFb e + hi * 8 + o % 8)

/-- The half a read of the entry uses: cur of a paired entry, else 0 (R113, R194). -/
def hReadHalf (e : HEntry) : Nat := if hKind e = 1 then hCur e else 0

/-- The half a write of the entry uses (R113). -/
def hWriteHalf (e : HEntry) : Nat := if hKind e = 1 then 1 - hCur e else 0

/-- Memory addresses of `n` bytes from offset `o` of a type 1 entry of cluster `c`, half `h`. -/
def hAddrs (c : Nat) (e : HEntry) (o n h : Nat) : List Nat :=
  (List.range n).map (fun i => spAddr c (spdMap e (o + i) h % 2 ^ 22))

/-- A malformed span address: reserved kind, reserved bit, or a bit above 55 (R20, R22). -/
def spanBad (a : Nat) : Bool :=
  let kind := bits a 44 42
  decide (2 ^ 56 ≤ a) || decide (4 ≤ kind) || (kind == 0 && bits a 32 22 != 0) || (kind == 1 && bits a 39 26 != 0) ||
    (kind == 2 && bits a 41 26 != 0)

/-- The reason an entry is refused before overlaps are looked at (R192, R193); 0 when it is not (log 20). -/
def hReason (e : HEntry) (qpos : Nat) : Nat :=
  let w (i : Nat) := hBits e i 31 0
  if hBits e 0 31 26 ≠ 0 then 1
  else if hType e = 0 then (if setBits (w 0) 7 7 0 ≠ 0 ∨ w 1 ≠ 0 ∨ w 2 ≠ 0 ∨ w 3 ≠ 0 then 1 else 0)
  else if 5 ≤ hType e ∨ hKind e = 3 ∨ hHash e = 3 then 1
  else match hType e with
    | 1 =>
      if hBits e 1 31 25 ≠ 0 ∨ w 3 ≠ 0 then 1
      else if 5 < hK e ∨ hLbase e % 32 ≠ 0 ∨ hBank e % 2 ^ hK e ≠ 0 then 2
      else if 131072 < hLbase e + hF e then 3
      else 0
    | 2 =>
      if hBits e 1 7 2 ≠ 0 ∨ hBits e 1 31 18 ≠ 0 ∨ w 3 ≠ 0 then 1
      else if hQpos e = qpos ∨ hKind e ≠ 0 ∨ hHash e ≠ 0 ∨ hRights e ≠ 0 ∨ hLen e ≠ 0 then 2
      else 0
    | 3 =>
      if hBits e 1 31 26 ≠ 0 ∨ w 3 ≠ 0 then 1
      else if hKind e = 1 ∨ hHash e ≠ 0 ∨ hRights e &&& 0x9F ≠ 0 ∨ hQoff e % 32 ≠ 0 then 2
      else if 2 ^ 26 < hQoff e + hLen e then 3
      else 0
    | _ =>
      if hBits e 3 31 24 ≠ 0 then 1
      else if hKind e ≠ 0 ∨ hHash e ≠ 0 ∨ hRights e &&& 0x9C ≠ 0 ∨ spanBad (hSaddr e) then 2
      else 0

/-- Two type 1 footprints meet (R193). -/
def hMeet (a b : HEntry) : Bool :=
  decide (hBank a < hBank b + 2 ^ hK b) && decide (hBank b < hBank a + 2 ^ hK a) &&
    decide (hLbase a < hLbase b + hF b) && decide (hLbase b < hLbase a + hF a) && decide (0 < hF a) && decide (0 < hF b)

/-- Two byte ranges meet. -/
def meet (a n b m : Nat) : Bool := decide (a < b + m) && decide (b < a + n)

/-- A cluster's entry in force. -/
def State.entry (s : State) (c i : Nat) : HEntry := mget 0#128 (s.cluster c).handles i

/-- The valid type 3 entries of a quarter's clusters: cluster, index and entry (R190). -/
def State.areas (s : State) (q : Nat) : List (Nat × Nat × HEntry) :=
  (s.clusters.filter (fun p => p.1 / 128 == q)).flatMap (fun p =>
    (p.2.handles.filter (fun h => hType h.2 == 3)).map (fun h => (p.1, h.1, h.2)))

/-- The entries of a cluster's table as they will stand once every written one is in force (R193). -/
def Cluster.entriesNext (k : Cluster) : NMap HEntry :=
  k.handles.filter (fun p => (mfind k.handlePend p.1).isNone) ++ k.handlePend

/-- The quarter's area list as it will stand once every written entry is in force: cluster, index and entry (R190). -/
def State.areasNext (s : State) (q : Nat) : List (Nat × Nat × HEntry) :=
  (s.clusters.filter (fun p => p.1 / 128 == q)).flatMap (fun p =>
    (p.2.entriesNext.filter (fun h => hType h.2 == 3)).map (fun h => (p.1, h.1, h.2)))

/-- The code regions of a quarter: offset and length (R157). -/
def State.codeOf (s : State) (q : Nat) : List (Nat × Nat) :=
  (s.image.code.filter (fun r => r.1 == q)).map (fun r => (r.2.1, r.2.2))

/-- A range of a quarter store meets a code region (R157). -/
def State.inCode (s : State) (q o n : Nat) : Bool := (s.codeOf q).any (fun r => meet o n r.1 r.2)

/-- The reason the device refuses entry `e` at index `i` of cluster `c`; 0 when it accepts it (R190, R192, R193). Written
entries not yet in force count as they will stand. -/
def State.entryReason (s : State) (c i : Nat) (e : HEntry) : Nat :=
  let r := hReason e (c % 4)
  if r ≠ 0 then r
  else if hType e = 3 then
    if s.inCode (c / 128) (hQoff e) (hLen e) then 3
    else if (s.areasNext (c / 128)).any (fun p => !(p.1 == c && p.2.1 == i) && hOwner p.2.2 != hOwner e &&
        meet (hQoff e) (hLen e) (hQoff p.2.2) (hLen p.2.2)) then 4
    else 0
  else if hType e = 1 then
    if (s.cluster c).entriesNext.any (fun p => p.1 != i && hType p.2 == 1 && hOwner p.2 != hOwner e && hMeet e p.2) then 4 else 0
  else 0

/-! ### SECDED words -/

/-- The SECDED condition of the 64-bit word that holds byte `a`: 0 clean, 1 single-bit, 2 uncorrectable. -/
def State.eccOf (s : State) (a : Nat) : Nat := mget 0 s.ecc (a / 8)

/-- The ecc key of word pair `w` (0 or 1) of a handle entry. -/
def hEccKey (c i w : Nat) : Nat := 2 ^ 40 + (c * 1024 + i) * 2 + w

/-- The page, instance, span address and charged unit of a memory word. -/
def State.wordHome (s : State) (a : Nat) : Reg × Reg × Reg × Nat × Nat × FaultUnit :=
  if a < 2 ^ 31 then
    (R.spdCeCnt, R.spdCeAddr, R.spdUeCnt, a / 2 ^ 22, spanScratch s.self (a / 2 ^ 22) (a % 2 ^ 22), .cluster (a / 2 ^ 22))
  else
    let o := a - 2 ^ 31
    (R.qstCeCnt, R.qstCeAddr, R.qstUeCnt, o / 2 ^ 26, spanStore s.self (o / 2 ^ 26) (o % 2 ^ 26), .device)

/-- The scrubber of the memory that holds byte `a`: cluster c at c, quarter q at 512 + q. -/
def scrubAt (a : Nat) : Nat := if a < 2 ^ 31 then a / 2 ^ 22 else 512 + (a - 2 ^ 31) / 2 ^ 26

/-- Scrubber `k`. A quarter store's starts at n = 10, its base interval of 1,024 clk (R204; log 13). -/
def State.scrub (s : State) (k : Nat) : Scrub :=
  if k < 512 then (s.cluster k).scrub else mget (Scrub.reset 10) s.scrubs (k - 512)

/-- The state with scrubber `k` changed. -/
def State.modScrub (s : State) (k : Nat) (f : Scrub → Scrub) : State :=
  if k < 512 then s.modCluster k (fun c => { c with scrub := f c.scrub })
  else { s with scrubs := mput s.scrubs (k - 512) (f (s.scrub k)) }

/-- Word `a` read with a single-bit error: counted, its place recorded, queued for repair (R201, R203). -/
def State.corrected (s : State) (a : Nat) : State :=
  let h := s.wordHome a
  let i := h.2.2.2.1
  let s1 := (s.cnt h.1 i).wr h.2.1 (2 ^ 31 + (if a < 2 ^ 31 then a % 2 ^ 22 else (a - 2 ^ 31) % 2 ^ 26) / 8 * 8) i
  s1.modScrub (scrubAt a) (fun c => { c with errors := c.errors + 1, repair := addOnce c.repair (a / 8) })

/-- Word `a` read with an uncorrectable error: counted and captured (R201); the tick fails unless the scrubber reads
(Table 07-3). -/
def State.uncorrectable (s : State) (a src tenant : Nat) (fails : Bool) : State :=
  let h := s.wordHome a
  let i := h.2.2.2.1
  let s1 := (s.cnt h.2.2.1 i).violate h.1.page i ⟨3, src, tenant, 0, h.2.2.2.2.1 / 8 * 8⟩
  if fails then s1.tickFault 3 h.2.2.2.2.2 else s1

/-- A read touches word `a` (Table 07-3). -/
def State.touch (s : State) (a src tenant : Nat) : State :=
  match s.eccOf a with
  | 0 => s
  | 1 => s.corrected a
  | _ => s.uncorrectable a src tenant true

/-- The distinct words of byte addresses, by their first byte. -/
def wordsOf (l : List Nat) : List Nat := (l.map (fun a => a / 8 * 8)).dedup

/-! ### Reads and writes -/

/-- Bank `b` of cluster `c` is leased to port group `g`: 0 T, 1 V, 2 D, 3 G (R187). -/
def State.leased (s : State) (c g b : Nat) : Bool := bit ((s.cluster c).leases.getD g 0#32).toNat b

/-- The clusters of `c`'s quad, whose threads, copies and copy engines reach its banks (R68). -/
def quadOf (c : Nat) : List Nat := (List.range 4).map (fun i => c / 4 * 4 + i)

/-- Port group `g` of cluster `c` may be accessing a bank now: an engine with a running descriptor; for D also copies under way
and slots armed there; for G a thread group of the quad (Table 07-1). -/
def State.groupBusy (s : State) (c g : Nat) : Bool :=
  match g with
  | 0 => (s.cluster c).tensor.running.isSome
  | 1 => (s.cluster c).vector.running.isSome
  | 2 => (quadOf c).any (fun n => (s.cluster n).copier.running.isSome || !(s.cluster n).copies.isEmpty) ||
      s.fabric.armed.any (fun a => a.cluster == c)
  | _ => (quadOf c).any (fun n => !(s.cluster n).groups.isEmpty)

/-- The leaseholder of bank `b` of cluster `c` may be accessing it. -/
def State.holderBusy (s : State) (c b : Nat) : Bool := [0, 1, 2, 3].any (fun g => s.leased c g b && s.groupBusy c g)

/-- An access of group `g` (4: one that waits, R188) to byte `a` is not served: its bank is not leased to the group and
the leaseholder, which is at work, uses it in that clk. -/
def State.lost (s : State) (g a : Nat) : Bool :=
  decide (a < 2 ^ 31) && decide (g < 4) && !s.leased (a / 2 ^ 22) g (a % 2 ^ 22 / 2 ^ 17) &&
    s.holderBusy (a / 2 ^ 22) (a % 2 ^ 22 / 2 ^ 17) && Config.bankBusy s.freeCtr (a / 32)

/-- The byte an access of group `g` reads at `a`, `i`-th of its bytes: 0 where the access is not served (R188), free
where its word is uncorrectable (Table 07-3) or where a local handle holds nothing written in the attempt (R49). -/
def State.readByte (s : State) (g : Nat) (loc : Bool) (i a : Nat) : Byte :=
  if s.lost g a then 0#8
  else if s.eccOf a ≥ 2 || (loc && !s.written.contains a) then Config.freeByte s.freeCtr i
  else s.byte a

/-- The bytes an access reads. -/
def State.readBytes (s : State) (g : Nat) (loc : Bool) (as : List Nat) : List Byte :=
  as.zipIdx.map (fun p => s.readByte g loc p.2 p.1)

/-- What a read does besides answering: SECDED outcomes of the words it reaches, and one free draw. -/
def State.afterRead (s : State) (g src tenant : Nat) (as : List Nat) : State :=
  (s.each (wordsOf (as.filter (fun a => !s.lost g a))) (fun t a => t.touch a src tenant)).draw

/-- A scrubber's pending write-back of the row of word `a` is cancelled by a write (R205). -/
def State.wbCancel (s : State) (a : Nat) : State :=
  let c := scrubAt a
  let p := if a < 2 ^ 31 then a % 2 ^ 22 else (a - 2 ^ 31) % 2 ^ 26
  let b := if a < 2 ^ 31 then 2 ^ 17 else 2 ^ 20
  let v := p % b / 32 * (if a < 2 ^ 31 then 32 else 64) + p / b
  if (s.scrub c).row = some v then
    let s1 := s.modScrub c (fun x => { x with row := none })
    if a < 2 ^ 31 then s1.cnt R.spdWbCancel c else s1
  else s

/-- The first byte of a scrubber's row: cluster c's at c, quarter q's at 512 + q (R202). -/
def rowByte (k v : Nat) : Nat :=
  if k < 512 then spAddr k (v % 32 * 2 ^ 17 + v / 32 * 32) else qsAddr (k - 512) (v % 64 * 2 ^ 20 + v / 64 * 32)

/-- The device writes every byte from `a` to `a + n - 1` itself: pending write-backs of rows there are cancelled (R205). -/
def State.wbCancelIn (s : State) (a n : Nat) : State :=
  let hit (k : Nat) : Bool := match (s.scrub k).row with
    | some v => decide (rowByte k v < a + n) && decide (a < rowByte k v + 32)
    | none => false
  let scrubbers : List Nat := List.map Prod.fst s.clusters ++ List.map (fun p : Nat × Scrub => 512 + p.1) s.scrubs
  s.each (scrubbers.filter hit) (fun t k =>
    t.wbCancel (rowByte k (((t.scrub k).row).getD 0)))

/-- The device zeroes `n` bytes from `a` (R196, R205, R312). -/
def State.zeroOut (s : State) (a n : Nat) : State := (s.wbCancelIn a n).zero a n

/-- A write reaches word `a`, fully or in part: a full write gives it valid check bits; a partial one is merged, and an
uncorrectable word keeps the poison pattern (Table 07-3). -/
def State.wordWritten (s : State) (a : Nat) (full : Bool) (src tenant : Nat) : State :=
  let s1 := s.wbCancel a
  if full then { s1 with ecc := merase s1.ecc (a / 8) }
  else match s1.eccOf a with
    | 0 => s1
    | 1 => { s1.corrected a with ecc := merase (s1.corrected a).ecc (a / 8) }
    | _ => s1.uncorrectable a src tenant true

/-- Store bytes at addresses, in order. -/
def State.storeAt (s : State) (l : List (Nat × Byte)) : State :=
  match l with
  | [] => s
  | (a, b) :: r => ({ s.setByte a b with written := addOnce s.written a } : State).storeAt r

/-- An access of group `g` writes `data` at addresses `as`: bytes whose access is not served are lost (R188). -/
def State.writeBytes (s : State) (g src tenant : Nat) (as : List Nat) (data : List Byte) : State :=
  let keep := (as.zip data).filter (fun p => !s.lost g p.1)
  let got := keep.map (·.1)
  let s1 := s.each (wordsOf got) (fun t a =>
    t.wordWritten a ((List.range 8).all (fun i => got.contains (a + i))) src tenant)
  (s1.storeAt keep).draw

/-! ### Handle reads -/

/-- A word of the handle entry is uncorrectable (Table 07-3). -/
def State.entryBad (s : State) (c i : Nat) : Bool :=
  decide (mget 0 s.ecc (hEccKey c i 0) ≥ 2) || decide (mget 0 s.ecc (hEccKey c i 1) ≥ 2)

/-- One 64-bit word of a handle entry is read (R201). -/
def State.touchEntryWord (s : State) (c i w src tenant : Nat) : State :=
  match mget 0 s.ecc (hEccKey c i w) with
  | 0 => s
  | 1 => { s.cnt R.spdCeCnt c with ecc := merase s.ecc (hEccKey c i w) }.modCluster c (fun x =>
      { x with scrub := { x.scrub with errors := x.scrub.errors + 1 } })
  | _ => ((s.cnt R.spdUeCnt c).violate .spd c ⟨3, src, tenant, 1, i + w * 1024⟩).tickFault 3 (.cluster c)

/-- What reading a handle entry does (R201). -/
def State.touchEntry (s : State) (c i src tenant : Nat) : State :=
  (s.touchEntryWord c i 0 src tenant).touchEntryWord c i 1 src tenant

/-! ### Accesses served at this cluster or quarter (R190, R198) -/

/-- What the check of an access at a target answers: the byte addresses to read and to write and whether the entry is
local, or a NACK code (Table 09-10). -/
inductive Served where
  | ok (rd wr : List Nat) (loc : Bool)
  | nack (code : Nat)
deriving DecidableEq, Repr

/-- All of P to P + n − 1 lie in the half-0 footprint of a type 1 entry (R198): the bytes lie within one bank's run. -/
def hHolds (e : HEntry) (p n : Nat) : Bool :=
  let b := p / 2 ^ 17
  let l := p % 2 ^ 17
  decide (hBank e ≤ b) && decide (b < hBank e + 2 ^ hK e) && decide (hLbase e ≤ l) && decide (l + n ≤ hLbase e + hFb e)

/-- A kind 0 access of a tenant at cluster `c`, offset `p`: the deciding entry and its halves (R198). `rd` and `wr` say
which rights it needs. NACK 0x42 HANDLE, 0x43 CONST. -/
def State.kind0 (s : State) (c p n tenant : Nat) (rd wr : Bool) : Served :=
  let qual := (s.cluster c).handles.filter (fun h => hType h.2 == 1 && hOwner h.2 == tenant && hHolds h.2 p n)
  match qual.find? (fun h => (!rd || hRight h.2 5) && (!wr || hRight h.2 6)) with
  | none => .nack 0x42
  | some (_, e) =>
    if wr && hKind e == 2 then .nack 0x43
    else
      let at_ (h : Nat) := (List.range n).map (fun i => spAddr c (p + i + h * hFb e))
      .ok (at_ (if rd && wr then hWriteHalf e else hReadHalf e)) (at_ (hWriteHalf e)) (hKind e == 0)

/-- A kind 1 access of a tenant at quarter `q`, offset `o` (R190). A write into a code region answers 0x43 (R157). -/
def State.kind1 (s : State) (q o n tenant : Nat) (rd wr : Bool) : Served :=
  if wr && s.inCode q o n then .nack 0x43
  else
    let inArea := (s.areas q).filter (fun p => hOwner p.2.2 == tenant && decide (hQoff p.2.2 ≤ o) &&
      decide (o + n ≤ hQoff p.2.2 + hLen p.2.2))
    match inArea.find? (fun p => (!rd || hRight p.2.2 5) && (!wr || hRight p.2.2 6)) with
    | none => .nack 0x42
    | some (_, _, e) =>
      if wr && hKind e == 2 then .nack 0x43
      else
        let l := (List.range n).map (fun i => qsAddr q (o + i))
        .ok l l (hKind e == 0)

/-! ### Handle writes through HDL (R199) -/

/-- A written entry comes into force: a valid paired entry it replaces passes its cur on, else cur is 0. -/
def State.entryInForce (s : State) (c i : Nat) (e : HEntry) : State :=
  let old := s.entry c i
  let e' := hSetCur e (if hType old ≠ 0 ∧ hKind old = 1 then hCur old else 0)
  let s1 := s.modCluster c (fun x => { x with handles := mset 0#128 x.handles i e', handlePend := merase x.handlePend i })
  { s1 with ecc := merase (merase s1.ecc (hEccKey c i 0)) (hEccKey c i 1) }

/-- Every written entry of a cluster comes into force. -/
def State.entriesInForce (s : State) (c : Nat) : State :=
  s.each (s.cluster c).handlePend (fun t p => t.entryInForce c p.1 p.2)

/-- A seal is coming: a change waits for it (R33). -/
def State.deferring (s : State) : Bool := s.tick.state == .run || s.tick.state == .stretch

/-- HDL.CMD.read (R199): ENT0 to ENT3 take the entry in force at IDX, undefined data where one of its words is uncorrectable
(Table 07-3). -/
def State.hdlRead (s : State) (c i src : Nat) : State :=
  let f := if s.entryBad c i then (Config.freeWord s.freeCtr).toNat + (Config.freeWord (s.freeCtr + 1)).toNat * 2 ^ 64
    else (s.entry c i).toNat
  let s1 := (s.touchEntry c i src 0).when (s.entryBad c i) (fun t => t.draw.draw)
  (((s1.wr R.hdlEnt f c 0 0).wr R.hdlEnt (f / 2 ^ 32) c 0 1).wr R.hdlEnt (f / 2 ^ 64) c 0 2).wr R.hdlEnt (f / 2 ^ 96) c 0 3

/-- HDL.CMD (R199): write takes ENT0 to ENT3 as entry IDX, or refuses it; read then loads them with the entry in force. -/
def State.hdlCmd (s : State) (c v src : Nat) : State :=
  let i := s.fld R.hdlIdx 9 0 c
  let e : HEntry := BitVec.ofNat 128 (s.rd R.hdlEnt c 0 0 + s.rd R.hdlEnt c 0 1 * 2 ^ 32 + s.rd R.hdlEnt c 0 2 * 2 ^ 64 +
    s.rd R.hdlEnt c 0 3 * 2 ^ 96)
  let s1 := if bit v 0 then
      let r := s.entryReason c i e
      if r ≠ 0 then
        (s.modCluster c (fun x => { x with hdlRefused := true, hdlReason := r })).violate .hdl c
          ⟨0x10, src, 0, 0, spanReg s.self (pageNo .hdl c * 4096 + 0x54)⟩
      else
        let s2 := s.modCluster c (fun x => { x with hdlRefused := false, hdlReason := 0, handlePend := mput x.handlePend i e })
        if s.deferring then s2 else s2.entriesInForce c
    else s
  if bit v 1 then s1.hdlRead c i src else s1

/-! ### Scrubbing (R202 to R205) -/

/-- A memory's scrubber and the visits of a full pass (R204). -/
def scrubPlace (u : ScrubUnit) : Nat × Nat :=
  match u with
  | .cluster c => (c.val, 131072)
  | .quarter q => (512 + q.val, 2097152)

/-- The first byte of the row of visit `v`: bank v mod banks, row v / banks. -/
def visitByte (u : ScrubUnit) (v : Nat) : Nat :=
  match u with
  | .cluster c => spAddr c.val (v % 32 * 2 ^ 17 + v / 32 * 32)
  | .quarter q => qsAddr q.val (v % 64 * 2 ^ 20 + v / 64 * 32)

/-- The words of the row at byte `a`. -/
def rowWords (a : Nat) : List Nat := [a, a + 8, a + 16, a + 24]

/-- The scrubber reads a row: single-bit words are counted, uncorrectable ones counted and captured without failing the
tick (Table 07-3). -/
def State.scrubRead (s : State) (a : Nat) : State :=
  s.each (rowWords a) (fun t w => match t.eccOf w with
    | 0 => t
    | 1 => t.corrected w
    | _ => t.uncorrectable w 11 0 false)

/-- The corrected words of a row are written back. -/
def State.scrubWrite (s : State) (a : Nat) : State :=
  { s with ecc := s.ecc.filter (fun p => !((rowWords a).contains (8 * p.1) && p.2 == 1)) }

/-- The rotation moves past visit `v`, where it stood there; a pass that ends counts, with the ticks it took (R204). -/
def State.rotated (s : State) (u : ScrubUnit) (v : Nat) : State :=
  let p := scrubPlace u
  let x := s.scrub p.1
  if x.visit ≠ v then s
  else if v + 1 < p.2 then s.modScrub p.1 (fun y => { y with visit := v + 1 })
  else
    let r := match u with
      | .cluster _ => (R.spdScrubPass, R.spdScrubLast)
      | .quarter _ => (R.qstScrubPass, R.qstScrubLast)
    ((s.cnt r.1 (p.1 % 512)).wr r.2 (s.tick.count - x.started) (p.1 % 512)).modScrub p.1 (fun y => { y with
      visit := 0, started := s.tick.count })

/-- A pending write-back lands: the row's corrected words are stored and the rotation moves on (R202). -/
def State.finishWb (s : State) (u : ScrubUnit) : State :=
  let p := scrubPlace u
  match (s.scrub p.1).row with
  | none => s
  | some v => ((s.scrubWrite (visitByte u v)).modScrub p.1 (fun x =>
      { x with row := none, repair := x.repair.filter (fun w => !(rowWords (visitByte u v)).contains (8 * w)) })).rotated u v

end Sys2Proof.Machine
end

