-- ==== Sys2Proof/Machine/Link.lean ====
section
/-!
DEFINITION. What a port does with frames: its states' first steps (R212 to R214), codeword counts (R210), damage, tags and fences
(R241, R242, R262), sequence numbers, retry and acknowledgements (R238 to R240), exchanges begun (R258, R261), credits (R249), and
the routing of free-plane frames (R252 to R255).
-/
namespace Sys2Proof.Machine

/-! ### Ports -/

/-- A port carries frames: UP, Ronba mode, not in test (R212, R231). -/
def State.portUp (s : State) (p : Nat) : Bool :=
  (s.port p).state == .up && !(s.port p).ethernet && !s.flag R.prtCtl 2 p

/-- A port in Ronba mode that is UP, the ports markers go out of (R37, R38). -/
def State.upPorts (s : State) : List Nat := (List.range 16).filter s.portUp

/-- Light carries the port's data and training frames: an optical engine only in FULL (R224). -/
def State.lit (s : State) (p : Nat) : Bool := !s.optical p || (s.port p).opt == .full

/-- A near-end loopback of a port in test holds its receiver (R233). -/
def State.looped (s : State) (p : Nat) : Bool :=
  s.flag R.prtCtl 2 p && (s.fld R.prtCtl 5 4 p == 1 || s.fld R.prtCtl 5 4 p == 2)

/-- The port's receiver hears the partner (R224, R233). -/
def State.hears (s : State) (p : Nat) : Bool := s.lit p && !s.looped p

/-- The classes that a port in low-power idle sends: MGMT, MARKER, VOTE and LINK (R386). -/
def dozeClass (cls : Nat) : Bool := cls == 4 || cls == 6 || cls == 7 || cls == 8

/-- A frame goes out on a port: none in test mode, nor on a dark engine, and in low-power idle only those R386 names (R224, R231). -/
def State.transmit (s : State) (p : Nat) (f : Frame) : State :=
  if s.lit p && !s.flag R.prtCtl 2 p && (!(s.port p).lpi || dozeClass f.content.cls) then s.send (.frame p f) else s

/-- Size of dimension `d` (0 X, 1 Y, 2 Z) as installed (R10). -/
def State.dim (s : State) (d : Nat) : Nat := s.fld R.spnDims (8 * d + 4) (8 * d)

/-- The dimension of a torus port (Table 01-1). -/
def portDim (p : Nat) : Nat := p / 4

/-- A torus port of a dimension of size 1 stays quiet (R13). -/
def State.dimOne (s : State) (p : Nat) : Bool := decide (p < 12) && s.dim (portDim p) == 1

/-- The port may leave QUIET: enabled, started, not of a dimension of size 1, Ronba mode, firmware running (R213, R369). -/
def State.portMayRun (s : State) (p : Nat) : Bool :=
  s.flag R.prtCtl 0 p && (s.port p).started && !s.dimOne p && !(s.port p).ethernet && s.island.firmware

/-- The port takes a state; entering or leaving UP is a page event (Table 17-9). -/
def State.portState (s : State) (p : Nat) (x : PortState) : State :=
  let s1 := s.modPort p (fun y => { y with state := x })
  if (s.port p).state ≠ x ∧ ((s.port p).state = .up ∨ x = .up) then s1.event .prt p 2 else s1

/-- Lane `l` of a port. -/
def Port.lane (x : Port) (l : Nat) : Lane := mget Lane.reset x.lanes l

/-- The state with a lane changed. -/
def State.modLane (s : State) (p l : Nat) (f : Lane → Lane) : State :=
  s.modPort p (fun x => { x with lanes := mput x.lanes l (f (x.lane l)) })

/-- A control word with its CRC (Table 08-3). -/
def cwMake (lane port device request tap status : Nat) (ready test : Bool) : BitVec 64 :=
  let v := lane % 16 + port % 16 * 2 ^ 4 + device % 2048 * 2 ^ 8 + request % 8 * 2 ^ 19 + tap % 8 * 2 ^ 22 + status % 8 * 2 ^ 25 +
    b2n ready * 2 ^ 28 + b2n test * 2 ^ 29
  BitVec.ofNat 64 (v + (crc16 (leBytes 6 v)).toNat * 2 ^ 48)

/-- The control word a lane sends now (Table 08-3). -/
def State.trainingWord (s : State) (p l : Nat) : BitVec 64 :=
  let x := (s.port p).lane l
  cwMake l p s.self x.request x.tap x.status x.trained (s.flag R.prtCtl 2 p)

/-- A lane sends its next training frame (R216): one as DETECT begins, and one for each that it receives (log 55). -/
def State.sendTraining (s : State) (p l : Nat) : State :=
  if s.lit p then s.send (.training p l (s.trainingWord p l)) else s

/-- A lane as DETECT begins: preset FFE (Table 08-2). -/
def Lane.preset (l : Lane) : Lane := { Lane.reset with prbsLock := l.prbsLock }

/-- DETECT begins: training frames on all lanes (Table 08-2). -/
def State.toDetect (s : State) (p : Nat) : State :=
  ((s.modPort p (fun y => { y with
    lanes := y.lanes.map (fun l => (l.1, l.2.preset)), partner := none, signal := 0, fecLock := false, frozen := false,
    frozenFor := 0 })).portState p .detect).each (List.range 12) (fun t l => t.sendTraining p l)

/-- Reload the coefficients stored when the port last came up (Table 08-2 RETRAIN). -/
def Lane.reload (l : Lane) : Lane :=
  match l.stored with
  | some (t, c, d, v) => { l with taps := t, ctle := c, dfe := d, slicer := v }
  | none => l

/-- A lane's coefficients are stored as the port comes up (Table 08-2). -/
def Lane.store (l : Lane) : Lane := { l with stored := some (l.taps, l.ctle, l.dfe, l.slicer) }

/-- BACKOFF begins, for the next interval (R214). -/
def State.backoff (s : State) (p reason : Nat) : State :=
  (s.modPort p (fun y => { y with backoffN := y.backoffN + 1, failReason := reason, fecLock := false })).portState p .backoff

/-- What a link held is lost as the port starts over: its sequence state and credits. -/
def State.dropLink (s : State) (p : Nat) : State :=
  s.modPort p (fun x => { x with seqs := [], freed := [], granted := [], spent := [] })

/-- The ports follow SPN.DIMS: those of a dimension of size 1 are quiet, and the others leave QUIET (R13, R213). -/
def State.followDims (s : State) : State :=
  s.each (List.range 12) (fun t p =>
    if t.dimOne p ∧ (t.port p).state ≠ .quiet then (t.dropLink p).portState p .quiet
    else if (t.port p).state = .quiet ∧ t.portMayRun p then t.toDetect p
    else t)

/-- A port tries DETECT again, where it may run (R213, R214). -/
def State.retry (s : State) (p : Nat) : State := if s.portMayRun p then s.toDetect p else s.portState p .quiet

/-! ### Test (R231, R232) -/

/-- A lane's checker is usable: the port in test, a pattern selected, the lane in the mask; in a near-end loopback it checks this
device's generator (R231 to R233). -/
def State.checkerOn (s : State) (p l : Nat) : Bool :=
  let c := s.fld R.prtPrbsCtl 3 2 p
  s.flag R.prtCtl 2 p && c != 0 && bit (s.rd R.prtPrbsCtl p) (4 + l) && (!s.looped p || s.fld R.prtPrbsCtl 1 0 p == c)

/-- A lane's checker is locked (R232). -/
def State.prbsLocked (s : State) (p l : Nat) : Bool := s.checkerOn p l && ((s.port p).lane l).prbsLock

/-- Errors in `n` bits on a lane: none where the encoded stream returns before the serialisers (R233; log 56). -/
def State.prbsErrors (s : State) (p n : Nat) : Nat :=
  if s.looped p && s.fld R.prtCtl 5 4 p == 2 then 0 else Config.prbsErrors s.freeCtr n

/-- A locked lane checks the bits of `n` ns, 224 to the ns; both counts stop at their largest value (R232, R472). -/
def State.prbsLane (s : State) (p n l : Nat) : State :=
  let e := s.prbsErrors p (224 * n)
  let v := min (2 ^ 64 - 1) (s.rd R.prtPrbsBitsLo p l + s.rd R.prtPrbsBitsHi p l * 2 ^ 32 + 224 * n)
  (((s.wr R.prtPrbsBitsLo (v % 2 ^ 32) p l).wr R.prtPrbsBitsHi (v / 2 ^ 32) p l).when (e != 0) (fun t => t.cnt R.prtPrbsErr p e l)).draw

/-- The locked checkers of every port run for `n` ns (R232). -/
def State.prbsRun (s : State) (n : Nat) : State :=
  s.each (List.range 16) (fun t p => t.each ((List.range 12).filter (t.prbsLocked p)) (fun u l => u.prbsLane p n l))

/-! ### Codewords and tags (R207 to R211, R242) -/

/-- One received codeword with the lanes of its symbol errors (R210). -/
def State.codeword (s : State) (p : Nat) (errs : List Nat) : State :=
  let lo := s.rd R.prtCwLo p
  let hi := s.rd R.prtCwHi p
  let s1 := if lo = cntMax then (if hi = cntMax then s else (s.wr R.prtCwLo 0 p).wr R.prtCwHi (hi + 1) p)
            else s.wr R.prtCwLo (lo + 1) p
  let k := errs.length
  if k = 0 then s1
  else if badWord errs then (s1.cnt R.prtUncCnt p).modPort p (fun x => { x with uncWindow := x.uncWindow + 1 })
  else ((s1.cnt R.prtCorrCnt p).cnt R.prtHist p 1 0 (k - 1)).each errs (fun t l => t.cnt R.prtLaneSym p 1 l)

/-- A block of four codewords is counted as it comes first (R208, R210). -/
def State.codeBlock (s : State) (p : Nat) (b : CwBlock) : State :=
  if b.number < (s.port p).blocks then s
  else (s.modPort p (fun x => { x with blocks := b.number + 1 })).each [0, 1, 2, 3] (fun t i => t.codeword p (lanesOf b i))

/-- The blocks that brought a frame are counted. -/
def State.takeBlocks (s : State) (p : Nat) (l : Codewords) : State := s.each l (fun t b => t.codeBlock p b)

/-- Fence a port (R242, R262): counted, fail_reason 5, page event of FAB. -/
def State.fencePort (s : State) (p : Nat) : State :=
  let wasUp := (s.port p).state == .up
  let s1 := ((s.cnt R.fabFenceCnt).modPort p (fun x => { x with
    state := .fenced, failReason := 5,
    secure := { x.secure with fences := x.secure.fences + 1 } })).event .fab 0 1
  if wasUp then s1.event .prt p 2 else s1

/-- Times of a list less than `d` ns ago. -/
def State.within (s : State) (d : Nat) (l : List Nat) : List Nat := l.filter (fun t => decide (s.power.uptime < t + d))

/-- A tag failure on clean codewords: counted; 16 within 1 ms fence the port (R242). -/
def State.authFail (s : State) (p : Nat) : State :=
  let l := s.within 1000000 (s.port p).secure.authFails ++ [s.power.uptime]
  let s1 := (s.cnt R.fabAuthFail).modPort p (fun y => { y with secure := { y.secure with
    authFails := if l.length < 16 then l else [] } })
  if l.length < 16 then s1 else s1.fencePort p

/-! ### Sequence numbers and acknowledgements (R238 to R240) -/

/-- `seq_accept` (R239): the class's receive state after sequence number `q`, or none where it is dropped. -/
def seqAccept (c : ClassSeq) (q : Nat) : Option ClassSeq :=
  let m : BitVec 128 := c.w1 ++ c.w0
  let put (m : BitVec 128) (top : Nat) : Option ClassSeq :=
    some { c with top := top, w1 := m.extractLsb' 64 64, w0 := m.extractLsb' 0 64, started := true }
  if c.top < q then
    let d := q - c.top
    put ((if 128 ≤ d then 0#128 else m <<< d) ||| 1#128) q
  else
    let d := c.top - q
    if 128 ≤ d then none
    else if m.getLsbD d then none
    else put (m ||| (1#128 <<< d)) c.top

/-- The highest seq h with every frame of the class up to h accepted; none before the first (Table 09-9). -/
def ackOf (c : ClassSeq) : Option Nat :=
  let m : BitVec 128 := c.w1 ++ c.w0
  if !c.started then none
  else match (List.range 128).reverse.find? (fun d => decide (d ≤ c.top) && !m.getLsbD d) with
    | some d => if d = c.top then none else some (c.top - d - 1)
    | none => some c.top

/-- A class whose frames are kept for link retry (Table 09-2): REQ 2, RSP 3, MGMT 4, VOTE 7. -/
def retried (cls : Nat) : Bool := cls == 2 || cls == 3 || cls == 4 || cls == 7

/-- The state of a class on a port. -/
def State.classSeq (s : State) (p cls : Nat) : ClassSeq := mget ClassSeq.reset (s.port p).seqs cls

/-- The state with a class's state on a port changed. -/
def State.modSeq (s : State) (p cls : Nat) (f : ClassSeq → ClassSeq) : State :=
  s.modPort p (fun x => { x with seqs := mput x.seqs cls (f (mget ClassSeq.reset x.seqs cls)) })

/-- The units of each pool's buffer at a receiving port (Table 09-12); the control buffer's of votes. -/
def poolSize (n : Nat) : Nat :=
  match n with
  | 0 | 3 => 1024
  | 1 | 2 | 4 | 5 => 256
  | 6 => 128
  | 7 | 8 => 64
  | 9 => 256
  | _ => 16

/-- The credit a sender has in a pool of port `p` (R249). -/
def State.credit (s : State) (p pool : Nat) : Nat :=
  let x := s.port p
  poolSize pool - (mget 0 x.spent pool + 65536 - mget 0 x.granted pool) % 65536

/-- `n` units of a pool are spent, or fall free (R249, Table 09-9). -/
def State.spend (s : State) (p pool n : Nat) : State :=
  s.modPort p (fun x => { x with spent := mput x.spent pool ((mget 0 x.spent pool + n) % 65536) })
def State.release (s : State) (p pool n : Nat) : State :=
  s.modPort p (fun x => { x with freed := mput x.freed pool ((mget 0 x.freed pool + n) % 65536), statusDue := true })

/-- The credit pool of votes, echoes and halt reports, and the units one takes (Tables 09-8 and 09-9). -/
def votePool : Nat := 10
def voteUnits : Nat := 2

/-! ### Sending -/

/-- The key a frame goes under (R258, R260, R261): HELLO and SIGN of a link not up in clear, its FINISH under the new key. -/
def Port.keyFor (x : Port) (c : Content) : List Byte :=
  if x.state = .up then x.secure.txKey
  else match c with
    | .hello _ | .sign _ => []
    | .finish _ => x.secure.newTx
    | _ => x.secure.txKey

/-- The frame that carries a content next on a port: its class's number, the key phase and the key (R238, R260). -/
def State.carrier (s : State) (p : Nat) (c : Content) : Frame :=
  let fresh := match c with
    | .finish _ => (s.port p).state != .up
    | _ => false
  ⟨!fresh && (s.port p).secure.kp, if fresh then 0 else (s.classSeq p c.cls).next, (s.port p).keyFor c, c⟩

/-- A frame takes its class's next number and goes out; one of a retried class is kept until it is acknowledged, and a vote spends
its credit (R238, R240, R249). -/
def State.sendNow (s : State) (p : Nat) (c : Content) : State :=
  let f := s.carrier p c
  let s1 := s.modSeq p c.cls (fun x => { x with
    next := x.next + 1, unacked := if retried c.cls then x.unacked ++ [f] else x.unacked })
  (s1.when (c.cls == 7) (fun t => t.spend p votePool voteUnits)).transmit p f

/-- A class's window and credit have room for one more frame (R240, R249). -/
def State.mayEmit (s : State) (p cls : Nat) : Bool :=
  !retried cls || (decide ((s.classSeq p cls).unacked.length < 128) && (cls != 7 || decide (voteUnits ≤ s.credit p votePool)))

/-- Send a content on a port; where its class has no room it waits, and what comes later waits behind it (R238, R240). -/
def State.sendOn (s : State) (p : Nat) (c : Content) : State :=
  if !s.portUp p then s
  else if s.mayEmit p c.cls && (s.classSeq p c.cls).waiting.isEmpty then s.sendNow p c
  else s.modSeq p c.cls (fun x => { x with waiting := x.waiting ++ [c] })

/-- Send what waits for room in a class's window (R240). -/
def State.drainWindow (s : State) (p cls n : Nat) : State :=
  match n with
  | 0 => s
  | n + 1 =>
    match (s.classSeq p cls).waiting with
    | [] => s
    | c :: r =>
      if !s.portUp p || !s.mayEmit p cls then s
      else ((s.modSeq p cls (fun x => { x with waiting := r })).sendNow p c).drainWindow p cls n

/-- The classes with acknowledgements, in Table 09-9's order. -/
def ackClasses : List Nat := [2, 3, 4, 7]

/-- No acknowledgement: all ones. -/
def ackNone : Nat := 2 ^ 48 - 1

/-- The acknowledgements of a port's classes. -/
def State.acksOf (s : State) (p : Nat) : List Nat := ackClasses.map (fun c => (ackOf (s.classSeq p c)).getD ackNone)

/-- The STATUS frame of a port (Table 09-9). -/
def State.sendStatus (s : State) (p : Nat) : State :=
  (s.sendOn p (.status ((List.range 11).map (fun k => mget 0 (s.port p).freed k)) (s.acksOf p))).modPort p (fun y => { y with
    statusDue := false, statusAt := s.power.uptime })

/-- STATUS goes where a counter or an acknowledgement has changed, at most every 500 ns (R240). -/
def State.dueStatus (s : State) : State :=
  s.each ((List.range 16).filter (fun p => (s.port p).statusDue && s.portUp p &&
    decide ((s.port p).statusAt + 500 ≤ s.power.uptime))) State.sendStatus

/-! ### Exchanges begun (R258, R261) -/

/-- A SECURE message: the next number of its class, whatever the port's state (R258). -/
def State.sendSecure (s : State) (p : Nat) (c : Content) : State :=
  (s.modSeq p 9 (fun x => { x with next := x.next + 1 })).transmit p (s.carrier p c)

/-- This device's HELLO on a port; nonce and ECDH key are free values (Table 09-13; log 4). -/
def State.helloOf (s : State) (p : Nat) : Hello :=
  { version := 1, serial := Config.serial.toNat, device := s.self, port := p,
    nonce := (List.range 32).map (Config.freeByte s.freeCtr),
    ecdh := (List.range 97).map (fun i => Config.freeByte s.freeCtr (32 + i)), chain := Config.certChain }

/-- An exchange begins with HELLO; the fifth within 100 ms enters BACKOFF (R258, R261). -/
def State.startExchange (s : State) (p : Nat) : State :=
  let l := s.within 100000000 (s.port p).secure.starts
  if 4 ≤ l.length then s.backoff p 5
  else
    let h := s.helloOf p
    ((s.modPort p (fun y => { y with secure := { y.secure with
      hello := some h, theirs := none, accepted := false, starts := l ++ [s.power.uptime] } })).draw).sendSecure p (.hello h)

/-- A rekey begins (R261), but not in low-power idle (R386). -/
def State.beginRekey (s : State) (p : Nat) : State :=
  if (s.port p).lpi then s else (s.modPort p (fun y => { y with secure := { y.secure with rekeying := true } })).startExchange p

/-- A port whose numbers have passed 2^47 rekeys (R261). -/
def State.dueRekey (s : State) : State :=
  s.each ((List.range 16).filter (fun p => s.portUp p && !(s.port p).secure.rekeying &&
    (s.port p).seqs.any (fun c => decide (2 ^ 47 < c.2.next) || decide (2 ^ 47 < c.2.top)))) State.beginRekey

/-! ### Receiving -/

/-- The first frame of a new key phase: the receiver turns to the new key and keeps the old phase for a while (R261). -/
def State.turnKey (s : State) (p : Nat) : State :=
  s.modPort p (fun x => { x with
    seqs := x.seqs.map (fun c => (c.1, { c.2 with top := 0, w0 := 0#64, w1 := 0#64, started := false })),
    secure := { x.secure with
      rxKp := !x.secure.rxKp, rekeying := false, oldKey := some x.secure.rxKey, rxKey := x.secure.newRx, oldSeqs := x.seqs } })

/-- What the receiver finds of an arriving frame. -/
inductive Found where
  | good
  | damaged
  | dropped
deriving DecidableEq, Repr

/-- A frame whose tag verified, of the phase in use or of the old one: its number is accepted or dropped (R239); a gap in a retried
class asks for RETRY, an acknowledgement has changed (R240), and a vote's buffer falls free (R249). -/
def State.accept (s : State) (p cls q : Nat) (old : Bool) : State × Found :=
  let c := if old then mget ClassSeq.reset (s.port p).secure.oldSeqs cls else s.classSeq p cls
  match seqAccept c q with
  | none => (s.cnt R.fabReplayDrop, .dropped)
  | some c' =>
    let s1 := if old then s.modPort p (fun x => { x with
        statusDue := true, secure := { x.secure with oldSeqs := mput x.secure.oldSeqs cls c' } })
      else (s.modSeq p cls (fun _ => c')).modPort p (fun x => { x with statusDue := true })
    let next := if c.started then c.top + 1 else 0
    let s2 := s1.when (retried cls && decide (next < q)) (fun t => t.sendOn p (.retry cls next (min 128 (q - next))))
    (s2.when (cls == 7) (fun t => t.release p votePool voteUnits), .good)

/-- Receive a frame of class `cls` on port `p` (R210, R239 to R242, R261): the state with everything counted, and
whether the frame goes on, is damaged, or is dropped. A port that is not UP takes nothing (R262), and a dark or looped one gets
nothing (R224, R233). -/
def State.receive (s : State) (p cls : Nat) (a : Arrival) : State × Found :=
  if !s.hears p then (s, .dropped)
  else
    let s1 := s.takeBlocks p a.codewords
    if !s.portUp p then (s1, .dropped)
    else if a.codewords.any spoils then (s1, .damaged)
    else
      let sec := (s1.port p).secure
      let old := a.kp != sec.rxKp && sec.oldKey.isSome
      let new := a.kp != sec.rxKp && !sec.oldKey.isSome && sec.rekeying
      if !a.tagOk || (a.kp != sec.rxKp && !old && !new) then (s1.authFail p, .damaged)
      else (s1.when new (fun t => t.turnKey p)).accept p cls a.seq old

/-! ### Credits (R249, Tables 09-9 and 09-12) -/

/-- A routed class's number (Table 09-2). -/
def clsNo (c : RClass) : Nat :=
  match c with
  | .req => 2
  | .rsp => 3
  | .mgmt | .mgmtRsp => 4
  | .toss => 5

/-- The pool of a class and VC in the order of Table 09-9. -/
def poolOf (c : RClass) (vc : Nat) : Nat :=
  match c with
  | .req => min vc 2
  | .rsp => 3 + min vc 2
  | .mgmt | .mgmtRsp => 6 + min vc 2
  | .toss => 9

/-- The 32-byte units a frame takes: header and tag, block, data (Table 09-1, R237). -/
def frameUnits (f : RFrame) : Nat := 2 + (f.data.length + 31) / 32

/-- A frame's pool covers the whole frame. -/
def State.covered (s : State) (p : Nat) (f : RFrame) : Bool :=
  decide (frameUnits f ≤ s.credit p (poolOf f.cls f.head.vc))

/-- Units of a receiving port's buffer fall free (Table 09-9). -/
def State.freeUnits (s : State) (p : Nat) (f : RFrame) : State :=
  if 16 ≤ p then s else s.release p (poolOf f.cls f.head.vc) (frameUnits f)

/-- Which of two routed frames an output serves first: class in drain order (R263), then issue time, then source (R253). -/
def served (a b : RFrame) : Bool :=
  let o (f : RFrame) : Nat := match f.cls with
    | .rsp => 0
    | .mgmt | .mgmtRsp => 1
    | .req => 2
    | .toss => 3
  if o a ≠ o b then decide (o a < o b)
  else if a.access.issue ≠ b.access.issue then decide (a.access.issue < b.access.issue)
  else decide (a.head.src ≤ b.head.src)

/-- Insert a frame into an output's order. -/
def insFrame (x : Nat × RFrame) (l : List (Nat × RFrame)) : List (Nat × RFrame) :=
  match l with
  | [] => [x]
  | y :: r => if served x.2 y.2 && !served y.2 x.2 then x :: y :: r else y :: insFrame x r

/-- Send from an output's queue every frame whose turn and credit have come; `blocked` lists the pools whose oldest frame
waits (R249, R253). In low-power idle only MGMT frames go (R386). -/
def State.pumpList (s : State) (p : Nat) (l : List (Nat × RFrame)) (blocked : List Nat) : State × List (Nat × RFrame) :=
  match l with
  | [] => (s, [])
  | (i, f) :: r =>
    let k := poolOf f.cls f.head.vc
    if blocked.contains k || !s.covered p f || ((s.port p).lpi && !dozeClass (clsNo f.cls)) then
      let t := s.pumpList p r (k :: blocked)
      (t.1, (i, f) :: t.2)
    else
      (((s.spend p k (frameUnits f)).sendOn p (.routed f)).freeUnits i f).pumpList p r blocked

/-- Serve an output (R253). -/
def State.pumpPort (s : State) (p : Nat) : State :=
  if !s.portUp p then s
  else
    let t := s.pumpList p (s.port p).queue []
    t.1.modPort p (fun x => { x with queue := t.2 })

/-- Put a frame in an output's queue and serve it. -/
def State.enqueue (s : State) (inp p : Nat) (f : RFrame) : State :=
  (s.modPort p (fun x => { x with queue := insFrame (inp, f) x.queue })).pumpPort p

/-! ### Routing (R10 to R14, R254, R255) -/

/-- Coordinate `d` of a torus number (R11). -/
def coord (n d : Nat) : Nat := n / 16 ^ d % 16

/-- A torus number with coordinate `d` set. -/
def setCoord (n d v : Nat) : Nat := n - coord n d * 16 ^ d + v * 16 ^ d

/-- The torus number of the device at port `p` (Table 01-1). -/
def State.neighbour (s : State) (p : Nat) : Nat :=
  let n := s.rd R.spnPos
  let d := portDim p
  let m := s.dim d
  let v := coord n d
  setCoord n d (if m = 0 then v else if p % 4 < 2 then (v + 1) % m else (v + m - 1) % m)

/-- Minimal distance between two positions on a ring. -/
def ringDist (m a b : Nat) : Nat :=
  let d := if a ≤ b then b - a else a - b
  min d (m - d)

/-- Minimal torus distance between two numbers. -/
def State.dist (s : State) (a b : Nat) : Nat :=
  natSum ((List.range 3).map (fun d => ringDist (s.dim d) (coord a d) (coord b d)))

/-- The active detour table (R255). -/
def State.table (s : State) : Detour := mget Detour.reset s.fabric.detours s.fabric.detour

/-- The SPN.SUBST entry in force that names a logical device (R281). -/
def State.subst (s : State) (dev : Nat) : Option Nat :=
  ((List.range 4).map (fun i => s.inForce R.spnSubst i)).find? (fun v => bit v 31 && bits v 10 0 == dev)

/-- The physical torus number of a logical device in the current placement, which a SUBST entry overrides; none where
there is none (R254 step 1, R281). A torus number outside DIMS is taken like any other (R11, R455; log 49). -/
def State.physical (s : State) (dev : Nat) : Option Nat :=
  match s.subst dev with
  | some v => if bit v 22 then none else some (bits v 21 11)
  | none =>
    let e := mget 0 s.table.map dev
    if bit e 15 then some (bits e 10 0) else none

/-- The other logical devices of the span: those the placement in force names (R250, R359, R385; log 22). -/
def State.others (s : State) : List Nat :=
  let l := s.table.map.map (·.1) ++ (List.range 4).map (fun i => bits (s.inForce R.spnSubst i) 10 0)
  l.dedup.filter (fun n => n != s.self && (s.physical n).isSome)

/-- The ports of a minimal hop that are UP and allowed (R254 step 4). -/
def State.minimal (s : State) (dst : Nat) : List Nat :=
  let here := s.rd R.spnPos
  (List.range 12).filter (fun p => s.portUp p && bit s.table.mask p && !s.dimOne p &&
    decide (s.dist (s.neighbour p) dst < s.dist here dst))

/-- Of ports, the one with most credit in the frame's pool; the lower number on a tie (R254 step 4). -/
def State.mostCredit (s : State) (pool : Nat) (l : List Nat) : Option Nat :=
  l.foldl (fun b p => match b with
    | none => some p
    | some q => if s.credit q pool < s.credit p pool then some p else some q) none

/-- Where a routed frame goes next. -/
inductive Hop where
  | port (p : Nat) (f : RFrame)
  | lost
  | noRoute
deriving DecidableEq, Repr

/-- The escape hop (R254 step 6): only where the entry is valid, the port is UP and the rank rises. -/
def State.escapeHop (s : State) (f : RFrame) : Hop :=
  let e := mget 0 s.table.escape f.head.dst
  let p := bits e 3 0
  let lv := bits e 4 4
  let rank := mget 0 s.table.ranks (2 * p + lv)
  if bit e 7 && s.portUp p && decide (f.head.rank < rank) then
    .port p { f with head := { f.head with vc := 1 + lv, rank := rank, hops := f.head.hops + 1 } }
  else .noRoute

/-- The next hop of a frame for another device (R254 steps 3 to 6); a toss without credit is lost (R249). The flag says
that it moved to the escape VC. -/
def State.nextHop (s : State) (f : RFrame) : Hop × Bool :=
  let tossed (h : Hop) : Hop := match h with
    | .port p g => if g.cls = .toss ∧ s.covered p g = false then .lost else .port p g
    | h => h
  let up (p : Nat) : Hop := .port p { f with head := { f.head with hops := f.head.hops + 1 } }
  if f.head.vc ≠ 0 then (tossed (s.escapeHop f), false)
  else match (s.table.express.find? (fun e => e.1 == f.head.dst && s.portUp e.2)) with
    | some e => (tossed (up e.2), false)
    | none =>
      let l := s.minimal f.head.dst
      let ok := l.filter (fun p => s.covered p f)
      match s.mostCredit (poolOf f.cls 0) (if ok.isEmpty then l else ok) with
      | some p => (tossed (up p), false)
      | none => if f.cls = .toss then (.noRoute, false) else (s.escapeHop f, true)

/-- Forward a frame that came in on port `inp` (16: from this device). The answer says whether an admissible hop was found;
where none was, ROUTE_ERR counts and the caller answers a request with ROUTE (R254). -/
def State.forward (s : State) (inp : Nat) (f : RFrame) : State × Bool :=
  let h := s.nextHop f
  let s1 := if h.2 then s.cnt R.fabEscCnt else s
  match h.1 with
  | .port p g => (s1.enqueue inp p g, true)
  | .lost => ((s1.cnt R.fabTossDrop).freeUnits inp f, true)
  | .noRoute => ((s1.cnt R.fabRouteErr).freeUnits inp f, false)

/-- Tag `t` is enabled span-wide in FAB.TEN_SPAN (R252). -/
def State.spanTag (s : State) (t : Nat) : Bool := s.tenantBit R.fabTenSpan t

/-- Tag `t` is enabled on the device in SPN.TEN_EN; tenant 0 always is (R24, Table 17-5). -/
def State.tagOn (s : State) (t : Nat) : Bool := t == 0 || s.tenantBit R.spnTenEn t

/-- A frame of a tag not enabled is discarded: a TAG_OFF violation of FAB with its destination address, or none (R252,
Table 17-7). -/
def State.tagOff (s : State) (tenant : Nat) (addr : Option Nat) : State :=
  s.violate .fab 0 ⟨0x15, 5, tenant, (if addr.isSome then 0 else 2), addr.getD 0⟩

/-! ### Control frames -/

/-- Send a marker on every port in Ronba mode but `skip` (R37, R38). -/
def State.sendMarker (s : State) (skip : Nat) (m : Marker) : State :=
  s.each (s.upPorts.filter (fun p => p != skip)) (fun t p => t.sendOn p (.marker m))

/-- Send a vote, echo or halt report on a port. -/
def State.sendVote (s : State) (p : Nat) (v : Vote) : State := s.sendOn p (.vote v)

/-- This device's service cores write `v` to the register at `off` of every other device: one MGMT request each, which wait for
a home of the hub (R248, R250, R359, R385). -/
def State.tellAll (s : State) (off v : Nat) : State :=
  s.each s.others (fun t n => t.modFab (fun f => { f with
    asked := f.asked + 1,
    sendq := f.sendq ++ [⟨0, 512, ⟨spanReg n off, 1, 0, 4, s.tick.ns, 0, 0, 0, 0⟩, leBytes 4 v, .mgmt n, f.asked + 1, true, none⟩] }))

end Sys2Proof.Machine
end

