-- ==== Sys2Proof/Machine/Groups.lean ====
section
/-!
DEFINITION. Thread groups as the device holds them: the active and pending sets (R70 to R72), retirement (R76), the kill
of a tenant's context (R89) and the two faults that cause it (R130, R171).
-/
namespace Sys2Proof.Machine

/-- The group in slot `g` of cluster `c`. -/
def State.group (s : State) (c g : Nat) : Option Group := mfind (s.cluster c).groups g

/-- Store the group of slot `g`. -/
def State.setGroup (s : State) (c g : Nat) (x : Group) : State :=
  s.modCluster c (fun k => { k with groups := mput k.groups g x })

/-- Change the group of slot `g`, where there is one. -/
def State.modGroup (s : State) (c g : Nat) (f : Group → Group) : State :=
  match s.group c g with
  | some x => s.setGroup c g (f x)
  | none => s

/-- A group may issue: it waits for nothing, and is neither halted nor in a step whose instruction has issued (R70, R92). -/
def Group.ready (x : Group) : Bool := x.wait == .ready && !x.halted && !x.stepped

/-- An active group that R72 lets be demoted: it waits on a counter, FENCE.S or a response from beyond its quad. -/
def Group.demotable (x : Group) : Bool :=
  match x.wait with
  | .counter _ _ => true
  | .fence sc => sc == 3
  | .response => true
  | .ready => false

/-- The active entry of slot `g`. -/
def Cluster.entryOf (k : Cluster) (g : Nat) : Option Nat := (k.active.find? (fun p => p.2 == g)).map (·.1)

/-- The ready pending groups, earliest launched first, lower slot on a tie (R72). -/
def Cluster.readyPending (k : Cluster) : List Nat :=
  let l := k.groups.filter (fun p => p.2.ready && (k.entryOf p.1).isNone)
  (sortBy (fun a b => decide (a.2.order < b.2.order) || (a.2.order == b.2.order && decide (a.1 ≤ b.1))) l).map (·.1)

/-- The slots that leave the active set: at most as many as ready pending groups, in entry order (R72 step 1). -/
def Cluster.demoted (k : Cluster) : List Nat :=
  ((k.active.filter (fun p => match mfind k.groups p.2 with
    | some x => x.demotable
    | none => false)).take k.readyPending.length).map (·.1)

/-- Fill empty active entries with pending groups, lowest entry first (R72 step 2). -/
def fillActive (act : NMap Nat) (free pend : List Nat) : NMap Nat :=
  match free, pend with
  | e :: fs, g :: ps => fillActive (mput act e g) fs ps
  | _, _ => act

/-- Demotion and promotion (R72). -/
def Cluster.schedule (k : Cluster) : Cluster :=
  let out := k.demoted
  let act := k.active.filter (fun p => (mfind k.groups p.2).isSome && !out.contains p.1)
  let free := (List.range 8).filter (fun e => (mfind act e).isNone)
  { k with active := fillActive act free k.readyPending }

/-- Demotion and promotion on cluster `c`. -/
def State.schedule (s : State) (c : Nat) : State := s.modCluster c Cluster.schedule

/-- `pick` (R71). -/
def pick (r mask : Nat) : Nat := (((List.range 8).map (fun k => (r + k) % 8)).find? (fun i => bit mask i)).getD 8

/-- The clk that cluster `c`'s quarter has counted (R71). -/
def State.clk (s : State) (c : Nat) : Nat := (s.quarter (c / 128)).clk

/-- The fixed rotation's pointer: 0 at a launch, and one more each clk (R62, R71). -/
def State.fixedPtr (s : State) (c : Nat) : Nat := (s.clk c + 8 - (s.cluster c).rotateDet % 8) % 8

/-- The pointer that selects (R71): the fixed rotation's with det_eff = 1, else the entry after the one that issued last. -/
def State.issuePtr (s : State) (c : Nat) : Nat := if s.tick.detEff then s.fixedPtr c else (s.cluster c).rotate

/-- A group leaves its slot: retired or withdrawn (R76, R89). -/
def State.removeGroup (s : State) (c g : Nat) : State :=
  s.modCluster c (fun k =>
    let blocks := match mfind k.groups g with
      | some x => match mfind k.blocks x.block with
        | some b => mput k.blocks x.block { b with groups := b.groups - 1 }
        | none => k.blocks
      | none => k.blocks
    { k with groups := merase k.groups g, active := k.active.filter (fun p => p.2 != g), blocks := blocks })

/-! ### Kills -/

/-- An engine without a tenant's descriptors: another tenant's queued one starts (R145), with the banks `m` leased to its
engine (R165). -/
def Engine.drop (e : Engine) (t : Nat) (m : Word) : Engine :=
  let keep (d : Option Desc) : Option Desc := match d with
    | some x => if x.tenant = t then none else some x
    | none => none
  match keep e.running with
  | some r => ⟨some r, keep e.queued⟩
  | none => ⟨(keep e.queued).map (fun d => { d with held := m, had := m }), none⟩

/-- A context of a killed tenant: DEAD, with the state it had (R89, R90). -/
def Ctx.kill (x : Ctx) : Ctx := if x.state = .dead then x else { x with state := .dead, prior := x.state, wait := .none }

/-- The tenant contexts of `t` in a cluster's table: their indexes. -/
def Cluster.ctxsOf (k : Cluster) (t : Nat) : List Nat :=
  (k.ctxTab.filter (fun p => p.2.used && decide (p.1 < 8) && p.2.tenant == t)).map (·.1)

/-- A cluster after the kill of tenant `t`: its groups, copies and descriptors are gone, its contexts DEAD (R89 steps 1 to
3). -/
def Cluster.kill (k : Cluster) (t : Nat) : Cluster :=
  let groups := k.groups.filter (fun p => p.2.tenant != t)
  { k with
    groups := groups, active := k.active.filter (fun p => (mfind groups p.2).isSome),
    blocks := k.blocks.filter (fun p => p.2.tenant != t), copies := k.copies.filter (fun x => x.tenant != t),
    arrivals := k.arrivals.filter (fun x => x.tenant != t),
    tensor := k.tensor.drop t (k.leases.getD 0 0#32), vector := k.vector.drop t (k.leases.getD 1 0#32),
    copier := k.copier.drop t (k.leases.getD 2 0#32),
    ctxs := (k.ctxsOf t).foldl (fun m i => mput m i (mget Ctx.reset m i).kill) k.ctxs }

/-- A request of the killed tenant's groups or copies. -/
def ReqUse.ofThread (u : ReqUse) : Bool :=
  match u with
  | .record _ _ => false
  | .mgmt _ => false
  | _ => true

/-- The tenant's context on the device is dead, or killed in the attempt (R89, R90). -/
def State.ctxDead (s : State) (t : Nat) : Bool := s.tick.dead.contains t || s.tick.killed.contains t

/-- A vector descriptor has an SROUND stage (Table 05-10). -/
def drawsSr (b : List Byte) : Bool :=
  (List.range (min 8 (leAt b 0 1))).any (fun i => leAt b (0x50 + 6 * i) 1 == 0x12)

/-- The generator of a cluster whose running vector descriptor is stopped by a kill: how many beats had drawn the spec
leaves open (R138, R145; log 4). -/
def State.killDraws (s : State) (c t : Nat) : State :=
  match (s.cluster c).vector.running with
  | some d =>
    if d.tenant = t ∧ drawsSr d.bytes = true then
      (s.modCluster c (fun k => { k with sr := Config.freeWord s.freeCtr })).draw
    else s
  | none => s

/-- The kill of tenant `t`'s context on the device with a fault code, counted on cluster `c` (R89). -/
def State.killContext (s : State) (c t code : Nat) : State :=
  if s.ctxDead t then s
  else
    let s0 := (s.cnt R.tgpKillCnt c).modTick (fun k => { k with
      killed := addOnce k.killed t, killCodes := lput k.killCodes t code })
    let s1 := s0.each (s0.clusters.map (·.1)) (fun u k => u.killDraws k t)
    { s1 with
      clusters := s1.clusters.map (fun p => (p.1, (p.2.kill t).schedule)),
      fabric := { s1.fabric with
        pending := s1.fabric.pending.map (fun p => if p.tenant = t ∧ p.use.ofThread then { p with discarded := true } else p),
        sendq := s1.fabric.sendq.filter (fun r => !(r.tenant == t && r.use.ofThread)) } }

/-- A thread fault: TGP.FAULT, the capture in the TGP page, and the kill (R89, R130). -/
def State.threadFault (s : State) (c g t code form addr : Nat) : State :=
  let s1 := (s.wr R.tgpFault (code + g % 64 * 2 ^ 8 + t % 256 * 2 ^ 16 + 2 ^ 31) c).violate .tgp c ⟨code, 7, t, form, addr⟩
  s1.killContext c t code

/-- The kind 1 span address of offset `o` of a context's code region (R157, R171). -/
def State.codeAddr (s : State) (c k o : Nat) : Nat :=
  spanStore s.self (c / 128) ((mget CtxEntry.reset (s.cluster c).ctxTab k).base + o)

/-- A sequencer fault of context `k`: SEQ.FAULT, the capture in the SEQ page, and the kill (R171). -/
def State.seqFault (s : State) (c k code : Nat) : State :=
  let e := mget CtxEntry.reset (s.cluster c).ctxTab k
  let x := mget Ctx.reset (s.cluster c).ctxs k
  let s1 := (s.wr R.seqFault (code + k % 16 * 2 ^ 8 + e.tenant % 256 * 2 ^ 16 + 2 ^ 31) c).violate .seq c
    ⟨code, 6, e.tenant, 0, s.codeAddr c k x.pc⟩
  s1.killContext c e.tenant code

/-- A poison frame kills the owner's context with code POISON, on the cluster that armed the slot (R89). -/
def State.poisonKill (s : State) (c t form addr : Nat) : State :=
  let s1 := (s.wr R.tgpFault (0x29 + t % 256 * 2 ^ 16 + 2 ^ 31) c).violate .tgp c ⟨0x29, 16, t, form, addr⟩
  s1.killContext c t 0x29

/-! ### Engines' queues (R145, R160) -/

/-- Which engine: 0 tensor, 1 vector, 2 copy. -/
def Cluster.engine (k : Cluster) (n : Nat) : Engine :=
  match n with
  | 0 => k.tensor
  | 1 => k.vector
  | _ => k.copier

/-- The cluster with engine `n` replaced. -/
def Cluster.setEngine (k : Cluster) (n : Nat) (e : Engine) : Cluster :=
  match n with
  | 0 => { k with tensor := e }
  | 1 => { k with vector := e }
  | _ => { k with copier := e }

/-- An engine with no running and no queued descriptor (R159). -/
def Engine.idle (e : Engine) : Bool := e.running.isNone && e.queued.isNone

/-- A descriptor taken: it runs on an idle engine, else waits in the queue entry (R145). -/
def Engine.take (e : Engine) (d : Desc) : Engine :=
  match e.running with
  | none => ⟨some d, e.queued⟩
  | some _ => ⟨e.running, some d⟩

/-- The running descriptor ends; the queued one starts (R145), with the banks `m` leased to its engine (R165). -/
def Engine.finish (e : Engine) (m : Word) : Engine :=
  ⟨e.queued.map (fun d => { d with held := m, had := m }), none⟩

/-- Port group `g`'s banks are now `m`: what its engine's running descriptor has held, and has had, of them (R165). -/
def Engine.leased (e : Engine) (m : Word) : Engine :=
  { e with running := e.running.map (fun d => { d with held := d.held &&& m, had := d.had ||| m }) }

/-- Every bank of a mask goes to group `g` and leaves the others (R165, R187). -/
def leaseTo (l : List Word) (m : Word) (g : Nat) : List Word :=
  (List.range 4).map (fun i => let x := l.getD i 0#32; if i = g then x ||| m else x &&& ~~~m)

/-- A grant takes effect (R165). -/
def Cluster.grant (k : Cluster) (m : Word) (g : Nat) : Cluster :=
  let l := leaseTo k.leases m g
  { k with
    leases := l, tensor := k.tensor.leased (l.getD 0 0#32), vector := k.vector.leased (l.getD 1 0#32),
    copier := k.copier.leased (l.getD 2 0#32) }

/-! ### Turns (R87, R88) -/

/-- The turn table in force: valid entries, tenant and count (R87). -/
def State.turns (s : State) : List (Nat × Nat) :=
  ((List.range 16).map (fun i => s.inForce R.spnSlice i)).filterMap (fun v =>
    if bit v 31 then some (bits v 7 0, bits v 15 8) else none)

/-- The tenant of position `n` of the turn table. -/
def turnAt (l : List (Nat × Nat)) (n : Nat) : Option Nat :=
  match l with
  | [] => none
  | (t, k) :: r => if n < k then some t else turnAt r (n - k)

/-- Tenant `t` takes its turn in tick `n`: absent tenants run every tick (R87). -/
def State.turn (s : State) (t n : Nat) : Bool :=
  let l := s.turns
  if l.any (fun p => p.1 == t) then turnAt l (n % natSum (l.map (·.2))) == some t else true

/-- Tenant `t` takes its turn in the tick in progress; a staging refresh counts as no turn (R88, R275). -/
def State.inTurn (s : State) (t : Nat) : Bool := s.turn t s.tick.count && mget 0 s.image.staging t == 0

end Sys2Proof.Machine
end

