-- ==== Sys2Proof/Machine/Clock.lean ====
section
/-!
DEFINITION. Time passing at the device: the tick timer (02 R39), TAI between markers (13 R340 to R342), the quarters' clk
with droop stretching (14 R379, R380), and what counts in clk on a cluster (05 Table 05-11, 06 R159, R170).
-/
namespace Sys2Proof.Machine

/-- TAI at the attempt's start, in ns (R340). -/
def State.startTai (s : State) : Int := (s.time.startSec : Int) * 1000000000 + s.time.startNs

/-- The device reports TAI `x` (R340). -/
def State.setTai (s : State) (x : Int) : State :=
  s.modTime (fun t => { t with sec := (x / 1000000000).toNat, ns := (x % 1000000000).toNat })

/-- TAI advance of a tick between markers: the last difference of marker times, within L ± L / 2,000 (R342). -/
def State.advanceOf (s : State) : Int :=
  let l : Int := s.rd R.tckLen
  max (l - l / 2000) (min (l + l / 2000) (s.startTai - s.time.prevTai))

/-- TAI once `n` ns more of the tick timer have passed (R342); a device never reports a time below one it has reported. -/
def State.taiAfter (s : State) (n : Nat) : Int :=
  let l : Int := s.rd R.tckLen
  if s.tick.state = .idle ∨ s.time.have_ = false then s.tai + n
  else if s.tick.keystone then max s.tai (s.startTai + s.tick.ns)
  else max s.tai (s.startTai + (s.tick.silent * l + s.tick.ns) * s.advanceOf / (if l = 0 then 1 else l))

/-- A context's clk counts after `d` clk (R159, R170): a word's hold runs once what it waits for has come. -/
def Ctx.after (x : Ctx) (d : Nat) : Ctx :=
  { x with
    hold := if x.state = .wait then x.hold else x.hold - d,
    wait := match x.wait with
      | .clks n => .clks (n - d)
      | w => w }

/-- An engine's running descriptor after `d` clk. -/
def Engine.after (e : Engine) (d : Nat) : Engine :=
  { e with running := e.running.map (fun x => { x with ran := min x.total (x.ran + d) }) }

/-- The clk of the next `d` that an engine spends running (Table 05-11). -/
def Engine.busy (e : Engine) (d : Nat) : Nat :=
  match e.running with
  | some x => min d (x.total - x.ran)
  | none => 0

/-- Grants whose 2 clk have passed take effect, in the order of their words (R165). -/
def Cluster.granted (k : Cluster) : Cluster :=
  let k1 := (k.grants.filter (fun x => x.2.2 == 0)).foldl (fun q x => q.grant x.1 x.2.1) k
  { k1 with grants := k.grants.filter (fun x => x.2.2 != 0) }

/-- A cluster after `d` clk. -/
def Cluster.after (k : Cluster) (d : Nat) : Cluster :=
  let k1 : Cluster := { k with
    ctxs := k.ctxs.map (fun p => (p.1, p.2.after d)), tensor := k.tensor.after d, vector := k.vector.after d,
    copier := k.copier.after d, grants := k.grants.map (fun x => (x.1, x.2.1, x.2.2 - d)) }
  k1.granted

/-- `d` clk pass on cluster `c`: BUSY_CLK of its engines counts (Table 05-11). -/
def State.clusterClk (s : State) (c d : Nat) : State :=
  let k := s.cluster c
  (((s.when (k.tensor.busy d != 0) (fun t => t.cnt R.tenBusyClk c (k.tensor.busy d))).when (k.vector.busy d != 0) (fun t =>
    t.cnt R.vecBusyClk c (k.vector.busy d)))).setCluster c (k.after d)

/-- `n` ns pass in quarter `q`: a stretched clk lasts twice as long and counts in STRETCH_CLK (R379, R380). -/
def State.quarterNs (s : State) (q n : Nat) : State :=
  let x := s.quarter q
  let tot := x.frac + n * (if x.stretched then x.f else 2 * x.f)
  let d := tot / 2000
  let s1 := s.modQuarter q (fun y => { y with clk := y.clk + d, frac := tot % 2000 })
  ((s1.when (x.stretched && d != 0) (fun t => t.cnt R.pwrStretchClk 0 d q)).each
    ((s1.clusters.map (·.1)).filter (fun c => c / 128 == q)) (fun t c => t.clusterClk c d))

/-- The clusters' clocks run: from body start to the end of the seal (R71, Table 06-25). -/
def State.clocked (s : State) : Bool :=
  s.tick.phase == .body || s.tick.phase == .repair || s.tick.phase == .sealing

/-- `n` ns pass: the tick timer, time, clocks, locked PRBS checkers, and what links send of themselves (R232, R240, R261). -/
def State.pass (s : State) (n : Nat) : State :=
  let s1 := if s.tick.state = .idle then s else s.modTick (fun t => { t with ns := t.ns + n })
  let s2 := (s1.setTai (s1.taiAfter n)).modTime (fun t => { t with
    holdover := if (t.state == .holdover || (t.state == .qualifying && t.came == .holdover)) && !t.trusted.contains 5 then
        t.holdover + n else t.holdover })
  let s3 : State := { s2 with power := { s2.power with uptime := s2.power.uptime + n } }
  (((if s3.clocked then s3.each [0, 1, 2, 3] (fun t q => t.quarterNs q n) else s3).prbsRun n).dueStatus).dueRekey

/-- The tick timer reaches `ns`, where it is not past it. -/
def State.passTo (s : State) (ns : Nat) : State := if s.tick.ns < ns then s.pass (ns - s.tick.ns) else s

end Sys2Proof.Machine
end

