-- ==== Sys2Proof/Machine/Streams.lean ====
section
/-!
DEFINITION. The stream table (01 R25, R26), intake units (12 R318, Table 12-2), ledger entries (Table 12-5), digests (R336,
R337), the finishing of streams (R322) and the bytes in the egress hold (02 R51).
-/
namespace Sys2Proof.Machine

/-- The class descriptor of a number (R316). -/
def State.classOf (s : State) (cls : Nat) : Option StreamClass := s.image.classes.find? (fun k => k.cls == cls)

/-- A stream of the stream table. -/
def State.stream (s : State) (id : Nat) : Option Stream := mfind s.svc.streams id

/-- Store a stream. -/
def State.setStream (s : State) (id : Nat) (x : Stream) : State :=
  s.modSvc (fun v => { v with streams := mput v.streams id x })

/-- Streams that tenant `t` holds (Table 11-9 STREAMS, R300). -/
def State.held (s : State) (t : Nat) : Nat := (s.svc.streams.filter (fun p => p.2.tenant == t)).length

/-- Why a stream of class `cls` and source `src` may not be created: 4 CLASS_BAD, 5 STREAM_QUOTA, 6 STREAM_FULL (Table
11-4); 0 when it may. -/
def State.createRefusal (s : State) (t cls src inLen outLen : Nat) : Nat :=
  match s.classOf cls with
  | none => 4
  | some k =>
    if k.tenant ≠ t ∨ k.cls ≠ cls ∨ (src = 1 ∧ k.source ≠ 1) ∨ k.inLimit < inLen ∨ k.outLimit < outLen then 4
    else if s.rd R.hstQuotaSet 0 t ≤ s.held t then 5
    else if 65536 ≤ s.svc.streams.length then 6
    else 0

/-- A stream refused because the stream table is full is logged and counted in the page of who asked (R26, 01 "When things go
wrong"). Which code it takes Table 17-7 does not say (log 53). -/
def State.streamRefused (s : State) (pg : PageType) (i src tenant refusal : Nat) : State :=
  if refusal = 6 then s.violate pg i ⟨Config.streamFullCode, src, tenant, 2, 0⟩ else s

/-- A stream ID that no stream holds; which one the spec leaves open (R25; log 4). -/
def State.freeStream (s : State) : Nat :=
  let a := (Config.freeWord s.freeCtr).toNat
  (((List.range (s.svc.streams.length + 1)).map (fun k => (a + k) % 65536)).find? (fun i =>
    (mfind s.svc.streams i).isNone)).getD (a % 65536)

/-- An intake unit's header (Table 12-2): flags, index, payload, tag, capture time. -/
def unitHeader (stream cls flags index : Nat) (payload : List Byte) (tag sec ns : Nat) : List Byte :=
  padTo 64 (leBytes 2 stream ++ leBytes 1 cls ++ leBytes 1 flags ++ leBytes 4 index ++ leBytes 4 payload.length ++
    leBytes 4 (crc32c payload).toNat ++ leBytes 8 tag ++ leBytes 6 sec ++ leBytes 2 0 ++ leBytes 4 ns)

/-- The intake targets of a class: cluster and handle; of a sensor, where the class is an ingest class (R316, R318). -/
def StreamClass.targets (k : StreamClass) (sensor : Nat) : List (Nat × Nat) :=
  (k.intake.filter (fun t => k.source != 2 || t.2.2 == sensor)).map (fun t => (t.1, t.2.1))

/-- The units of one header and payload, one for each target. -/
def unitsOf (l : List (Nat × Nat)) (stream index : Nat) (header payload : List Byte) : List Unit_ :=
  l.zipIdx.map (fun p => ⟨stream, p.1.1, p.1.2, index, header, payload, p.2 == 0, false⟩)

/-- A new stream, not finished. -/
def newStream (cls t : Nat) (host : Option HostCmd) (inputs : List Byte) : Stream :=
  { cls := cls, tenant := t, host := host, inputs := inputs, started := none, finished := false, status := 0, detail := 0,
    output := [], crc := 0, tick := 0, sec := 0, ns := 0, quality := 0, block := [], inDigest := [], digest := [], pubNo := 0,
    released := false }

/-- Create a stream (R25): it takes a free ID. -/
def State.createStream (s : State) (cls t : Nat) (host : Option HostCmd) (inputs : List Byte) : State × Nat :=
  let id := s.freeStream
  (s.draw.setStream id (newStream cls t host inputs), id)

/-- Units wait for the next commit (R52, R295). -/
def State.arrive (s : State) (l : List Unit_) : State := s.modSvc (fun v => { v with arriving := v.arriving ++ l })

/-! ### The ledger (R331, R333) -/

/-- A ledger entry is added with the tick and its start's TAI (R331). Where committed egress is discarded it is counted instead,
but for those of entry to and exit from stretch mode (R59). -/
def State.ledger (s : State) (kind detail tenant tick : Nat) (body : List Byte) : State :=
  if s.egressOff && !(kind == 4 && (detail == 3 || detail == 4)) then s.cnt R.tckDbgCnt
  else
  let v := s.svc
  let e : LedgerEntry := ⟨v.entryNo, tick, kind, detail, s.time.quality, tenant, s.time.startSec, s.time.startNs, padTo 88 body⟩
  let s1 := s.modSvc (fun v => { v with ledger := v.ledger ++ [e], entryNo := v.entryNo + 1 })
  if v.ledger.length < 6144 ∧ 6144 ≤ v.ledger.length + 1 then s1.event .ldg 0 1 else s1

/-- A ledger entry's 128 bytes (Table 12-5). -/
def LedgerEntry.bytes (e : LedgerEntry) : List Byte :=
  leBytes 8 e.number ++ leBytes 8 e.tick ++ leBytes 1 e.kind ++ leBytes 1 e.detail ++ leBytes 1 e.quality ++
    leBytes 1 e.tenant ++ zeros 4 ++ leBytes 6 e.sec ++ zeros 2 ++ leBytes 4 e.ns ++ zeros 4 ++ padTo 88 e.body

/-- The STREAM_END body (R331). -/
def endBody (dev id cls code outLen pubNo : Nat) (prov input : List Byte) : List Byte :=
  leBytes 2 dev ++ leBytes 2 id ++ leBytes 1 cls ++ leBytes 1 code ++ zeros 2 ++ leBytes 4 outLen ++ leBytes 8 pubNo ++
    padTo 32 prov ++ padTo 32 input

/-! ### Finishing a stream (R322, R336, R337) -/

/-- Bytes 0x98 to 0xA7 of the provenance block (Table 12-6). -/
def State.provTail (s : State) (id : Nat) (x : Stream) : List Byte :=
  leBytes 2 s.self ++ leBytes 2 id ++ leBytes 1 x.tenant ++ leBytes 1 x.cls ++ leBytes 1 (b2n s.tick.detEff) ++
    leBytes 1 s.fabric.detour ++ leBytes 4 (s.rd R.tckLen) ++ leBytes 2 (mget 0 s.image.epochs x.tenant) ++ zeros 2

/-- "THIERI-PROV-1" and three zero bytes (Table 12-6). -/
def provTag : List Byte :=
  [0x54, 0x48, 0x49, 0x45, 0x52, 0x49, 0x2D, 0x50, 0x52, 0x4F, 0x56, 0x2D, 0x31, 0, 0, 0]

/-- The 176-byte provenance block (Table 12-6). -/
def State.provBlock (s : State) (id : Nat) (x : Stream) (input output : List Byte) (tick : Nat) : List Byte :=
  provTag ++ padTo 32 s.image.imgDigest ++ padTo 32 s.image.wgtDigest ++ input ++ output ++ leBytes 8 tick ++
    s.provTail id x ++ zeros 8

/-- A stream finishes in a committing tick: FAULTED 0x0A with a detail, or OK with its payload (R322). A stream of source 2
or 3 that a RESULT finishes takes the next publication number (R328); a host-submitted one has none, and what its ledger
entry's field holds the spec leaves open (log 4). The payload's CRC is the one its record carries (R404). -/
def State.finish (s : State) (id tick status detail rstatus : Nat) (payload : List Byte) (crc : Nat) : State :=
  match s.stream id with
  | none => s
  | some x =>
    if x.finished then s
    else
      let pub := x.host.isNone && status == 0
      let ind := sha256 x.inputs
      let prov := sha256 (s.provBlock id x ind (sha256 payload) tick)
      let no := if pub then s.svc.pubNo else (Config.freeWord s.freeCtr).toNat
      let trunc := match x.host with
        | some h => h.toOut && decide (h.outLimit < payload.length)
        | none => false
      let s1 := s.setStream id { x with
        finished := true, status := status, detail := if pub then rstatus else detail, output := payload, crc := crc, tick := tick,
        sec := s.time.startSec, ns := s.time.startNs, quality := s.time.quality, block := s.provTail id x,
        inDigest := ind, digest := prov, pubNo := no }
      let s2 := (if pub then s1.modSvc (fun v => { v with pubNo := v.pubNo + 1 }) else s1.draw).when trunc (fun t => t.cnt R.pubTrunc)
      (s2.modSvc (fun v => { v with
        units := v.units.filter (fun u => u.stream != id),
        arriving := v.arriving.filter (fun u => u.stream != id) })).ledger 1 (if status = 0 then 0 else 1) x.tenant tick
        (endBody s.self id x.cls (if status = 0 then 0 else detail) payload.length no prov ind)

/-! ### The egress hold (R51) -/

/-- Bytes of one thing in the hold. -/
def Egress.size (e : Egress) : Nat :=
  match e with
  | .write _ _ _ d => d.length
  | .nop _ _ _ _ => 32

/-- Bytes of a host-bound write. -/
def HostOut.size (o : HostOut) : Nat :=
  match o.out with
  | .hostWrite _ d _ => d.length
  | _ => 0

/-- Bytes in the egress hold: the attempt's writes and collected results, committed results not yet released, records that
wait for the host publication ring (R330), and host-bound writes that wait for credits (R263). -/
def State.egressUsed (s : State) : Nat :=
  natSum (s.svc.egress.map Egress.size) + natSum (s.svc.records.map (fun r => r.payload.length)) +
    natSum (s.svc.streams.map (fun p => if p.2.finished then p.2.output.length else 0)) +
    natSum (s.svc.pubWaiting.map List.length) + natSum (s.host.held.map HostOut.size)

/-- The hold has no room for `n` more bytes of its 4 MiB (R51). -/
def State.egressFull (s : State) (n : Nat) : Bool := decide (4194304 < s.egressUsed + n)

/-- A tick is in progress: its products wait for its commit (R51). -/
def State.inTick (s : State) : Bool := s.tick.phase != .none

end Sys2Proof.Machine
end

