-- ==== Sys2Proof/Machine/HostOps.lean ====
section
/-!
DEFINITION. The host port's operations (11): reads of host memory (R290), translation (R305 to R308), command queues and
their checks (R293 to R296), completion rings (R297 to R299), result slots (R301 to R304) and the release of a finished
stream (R297, R307).
-/
namespace Sys2Proof.Machine

/-! ### Answers to fabric requests (R251) -/

/-- The response to a request (Table 09-6): 0 OK, 1 NACK, 2 DATA_ERROR, 3 DROPPED. It carries its request's issue time
(R253). -/
def responseTo (mgmt : Bool) (h : RHead) (b : Access) (status nack : Nat) (data : List Byte) : RFrame :=
  { cls := if mgmt then .mgmtRsp else .rsp,
    head := { tenant := h.tenant, dst := h.src, src := h.dst, vc := 0, rank := 0, hops := 0 },
    access := b, resp := ⟨b.homeUnit, b.homeEntry, status, nack, data.length⟩, data := if mgmt then padTo 4 data else data }

/-- Answer a request: to this device's own requester, or through the fabric (R251). -/
def State.respond (s : State) (mgmt : Bool) (h : RHead) (b : Access) (status nack : Nat) (data : List Byte) : State :=
  let f := responseTo mgmt h b status nack data
  if h.src = s.rd R.spnPos then s.modFab (fun x => { x with back := x.back ++ [f] }) else (s.forward 16 f).1

/-! ### Reads of host memory (R287, R290) -/

/-- A request is refused: NACK with a code; a toss is dropped and counted (R251). Port 17 stands for a toss. -/
def State.nack (s : State) (port : Nat) (h : RHead) (b : Access) (code : Nat) : State :=
  if port = 17 then s.cnt R.fabTossDrop else (s.cnt R.fabNackTx).respond false h b 1 code []

/-- Some byte of the `n` from bus address `a` lies in a BAR of the device as currently programmed (R305). -/
def State.inBars (s : State) (a n : Nat) : Bool := Config.inDeviceBars s.host.configs a n

/-- HST.LINK while the link is up (Tables 11-1 and 11-9): rate 1 to 3, and width 16, 8 or 4 (log 5). -/
def State.linkTrained (s : State) : Nat :=
  let v := Config.pcieLink s.host.configs
  v % 3 + 1 + 16 * [16, 8, 4].getD (v / 3 % 3) 0

/-- A read request to host memory for function `fn`, by tags that count up (log 16); with 1,024 outstanding it waits (R287). -/
def State.readHost (s : State) (fn addr len : Nat) (use : ReadUse) : State :=
  let t := s.host.tags
  if s.host.reads.length < 1024 then
    (s.modHost (fun h => { h with tags := (t + 1) % 16384, reads := h.reads ++ [(t, fn, addr, use)] })).send (.hostRead t addr len)
  else s.modHost (fun h => { h with readq := h.readq ++ [(fn, addr, len, use)] })

/-- The reads that wait are issued, oldest first, as far as there are places (R287). -/
def State.takeReads (s : State) : State :=
  (s.modHost (fun h => { h with readq := [] })).each s.host.readq (fun t r => t.readHost r.1 r.2.1 r.2.2.1 r.2.2.2)

/-- Outstanding and waiting reads whose use a test names are abandoned: their completions are discarded (R312). -/
def State.dropReads (s : State) (f : Nat → ReadUse → Bool) : State :=
  s.modHost (fun h => { h with
    reads := h.reads.filter (fun r => !f r.2.1 r.2.2.2), readq := h.readq.filter (fun r => !f r.1 r.2.2.2) })

/-- The source number of a function's own violations (Table 17-8). -/
def fnSrc (fn : Nat) : Nat := if fn = 0 then 0 else 1

/-- Queue pairs of a function (11). -/
def queuesOf (fn : Nat) : Nat := if fn = 0 then 64 else 8

/-- The function accepts doorbells and issues requests: not in FLR, and ready (R312). -/
def State.fnUp (s : State) (fn : Nat) : Bool := (s.fn fn).ready && !(s.fn fn).flr

/-- A queue stops with a status (R307, R290); its page event (Table 17-9). -/
def State.stopQueue (s : State) (fn q status : Nat) : State :=
  (s.modQueue fn q (fun x => { x with state := .stopped, status := status })).event .hsq (fn * 64 + q) 1

/-- Fetch the next command entry, one at a time, while the queue runs (R294, R307). -/
def State.fetch (s : State) (fn q : Nat) : State :=
  let x := s.queue fn q
  if x.state = .run ∧ x.head ≠ x.tail ∧ x.fetching = false ∧ x.fetched = none ∧ x.job = none ∧ s.fnUp fn then
    (s.modQueue fn q (fun y => { y with fetching := true })).readHost fn (x.base + 64 * x.head) 64 (.entry fn q)
  else s

/-- The tail of a command queue is set, and its entries are fetched (R294). -/
def State.setTail (s : State) (fn q v : Nat) : State :=
  if (s.queue fn q).state = .off ∨ s.fnUp fn = false then s
  else (s.modQueue fn q (fun y => { y with tail := v })).fetch fn q

/-- The doorbells of the attempts before a commit become visible, in order (R52). -/
def State.ringDoorbells (s : State) : State :=
  (s.modHost (fun h => { h with doorbells := [] })).each s.host.doorbells (fun t d => t.setTail d.1 d.2.1 d.2.2)

/-! ### Completion rings (R297 to R299) -/

/-- The ring is full: the next entry to write is the entry at the head minus one (R298). -/
def Queue.ringFull (x : Queue) : Bool := x.ringTail == (x.ringHead + 2 ^ x.ringSize - 1) % 2 ^ x.ringSize

/-- The 32 bytes of an entry with its phase bit (Table 11-5). -/
def Queue.entryBytes (x : Queue) (e : RingEntry) : List Byte := padTo 30 e.bytes ++ leBytes 2 (b2n x.phase * 2 ^ 15)

/-- A finished stream of the ring and tick still waits for its release (R297 step 4). -/
def State.moreFor (s : State) (fn r tick : Nat) : Bool :=
  s.svc.streams.any (fun p => p.2.finished && !p.2.released && p.2.tick == tick &&
    (match p.2.host with | some h => h.fn == fn && h.ring == r | none => false))

/-- At most one MSI-X message per ring per committed tick, after the tick's last entry; an error completion, of no tick,
sends its own (R296, R297, R311; log 21). -/
def State.ringMessage (s : State) (fn r tick : Nat) : State :=
  let cfg := (s.queue fn r).ringCfg
  if !bit cfg 16 then s
  else if tick = 0 then s.msix fn (bits cfg 15 5)
  else if (s.queue fn r).msgTick = tick ∨ s.moreFor fn r tick then s
  else (s.modQueue fn r (fun x => { x with msgTick := tick })).msix fn (bits cfg 15 5)

/-- Write one completion entry to its ring in one write, and send the message; its stream falls free when it is written (R298,
R297). -/
def State.writeEntry (s : State) (fn r : Nat) (e : RingEntry) : State :=
  let x := s.queue fn r
  let n := 2 ^ x.ringSize
  let s1 := s.toHost ⟨.hostWrite (x.ringBase + 32 * x.ringTail) (x.entryBytes e) false, fn, none, e.stream⟩
  (s1.modQueue fn r (fun y => { y with
    ringTail := (y.ringTail + 1) % n, phase := if y.ringTail + 1 = n then !y.phase else y.phase })).ringMessage fn r e.tick

/-- Write waiting completions while the ring has room (R299). -/
def State.drainRing (s : State) (fn r : Nat) (l : List RingEntry) : State :=
  match l with
  | [] => s
  | e :: t =>
    if (s.queue fn r).ringFull then s
    else ((s.modQueue fn r (fun x => { x with waiting := t })).writeEntry fn r e).drainRing fn r t

/-- The order of waiting completions: commit tick, then stream ID (R299). -/
def insEntry (e : RingEntry) (l : List RingEntry) : List RingEntry :=
  match l with
  | [] => [e]
  | x :: r => if e.tick < x.tick ∨ (e.tick = x.tick ∧ e.stream.getD 65536 < x.stream.getD 65536) then e :: x :: r
              else x :: insEntry e r

/-- The completions of a ring that waits are written while it has room (R299). A ring that is off takes none: they wait in their
streams' records, whose IDs are not used again before (R25; log 31). -/
def State.serveRing (s : State) (fn r : Nat) : State :=
  if (s.queue fn r).state = .off then s else s.drainRing fn r (s.queue fn r).waiting

/-- A completion goes to ring `r`, or waits (R299). -/
def State.complete (s : State) (fn r : Nat) (e : RingEntry) : State :=
  (s.modQueue fn r (fun x => { x with waiting := insEntry e x.waiting })).serveRing fn r

/-- Bytes of a completion entry but for the phase (Table 11-5). -/
def entryOf (cmdId stream status q gen tick written quality detail : Nat) : List Byte :=
  leBytes 2 cmdId ++ leBytes 2 stream ++ leBytes 1 status ++ leBytes 1 q ++ leBytes 2 gen ++ leBytes 8 tick ++
    leBytes 4 written ++ leBytes 1 quality ++ leBytes 1 detail ++ zeros 8

/-! ### Result slots (R301 to R304) -/

/-- Slot `i` of a function. -/
def State.slotOf (s : State) (fn i : Nat) : ResultSlot := mget ResultSlot.reset (s.fn fn).slots i

/-- Store a slot. -/
def State.setSlot (s : State) (fn i : Nat) (x : ResultSlot) : State :=
  s.modFn fn (fun f => { f with slots := mput f.slots i x })

/-- The first bytes of a slot: generation and state (Table 11-6). -/
def slotHead (gen state : Nat) : List Byte := leBytes 2 gen ++ leBytes 1 state

/-- Bind a FREE slot to a stream: PENDING, with the next generation (R302). -/
def State.bindSlot (s : State) (fn i stream : Nat) : State × Nat :=
  let g := (s.slotOf fn i).generation
  let g' := if 0xFFFF ≤ g then 1 else g + 1
  ((s.setSlot fn i ⟨g', 1, padTo 256 (slotHead g' 1 ++ zeros 1 ++ leBytes 2 stream)⟩).cnt R.sltBindCnt, g')

/-- Publish a slot: PUBLISHED, or FAULTED with the fault code (R302, R322). -/
def State.publishSlot (s : State) (h : HostCmd) (id : Nat) (x : Stream) : State :=
  if x.status = 0 then
    let p := x.output.take 192
    ((s.setSlot h.fn h.slot ⟨h.generation, 2, padTo 256 (slotHead h.generation 2 ++ leBytes 1 x.quality ++ leBytes 2 id ++
      leBytes 2 p.length ++ leBytes 8 x.tick ++ leBytes 6 x.sec ++ zeros 2 ++ leBytes 4 x.ns ++ leBytes 4 x.crc ++
      padTo 32 x.digest ++ p)⟩).cnt R.sltPubCnt)
  else
    s.setSlot h.fn h.slot ⟨h.generation, 3, padTo 256 (slotHead h.generation 3 ++ zeros 1 ++ leBytes 2 id ++ zeros 2 ++
      leBytes 8 x.tick ++ zeros 48 ++ leBytes 1 x.detail)⟩

/-! ### Completing commands -/

/-- A field of a command entry (Table 11-3): `n` bytes at offset `o`. -/
def cmdAt (e : List Byte) (o n : Nat) : Nat := leAt e o n

/-- A ring of the function that is enabled (Table 11-4). -/
def State.ringOn (s : State) (fn r : Nat) : Bool := decide (r < queuesOf fn) && (s.queue fn r).state != .off

/-- A refused command: an error completion at once, to its ring, or where that is not enabled to its own queue's; counted
(R294, R296). -/
def State.refuse (s : State) (fn q : Nat) (e : List Byte) (status detail : Nat) : State :=
  let r := if s.ringOn fn (cmdAt e 4 1) then cmdAt e 4 1 else q
  (((s.streamRefused .hst fn (fnSrc fn) fn status).cnt R.hstCmdErr fn).complete fn r ⟨0, none, entryOf (cmdAt e 2 2) 0xFFFF status q 0 0 0 s.time.quality detail⟩)

/-- The first failing check of an entry, in the order of Table 11-4; 0 when all up to SLOT_BUSY pass. -/
def State.checkEntry (s : State) (fn : Nat) (e : List Byte) : Nat :=
  let op := cmdAt e 0 1
  let fl := cmdAt e 1 1
  if op ≠ 1 ∧ op ≠ 2 then 1
  else if s.ringOn fn (cmdAt e 4 1) = false then 2
  else if op = 1 then
    if fl ≠ 0 ∨ (e.drop 5).any (fun b => b != 0#8) then 2
    else if s.tagOn fn = false then 3
    else 0
  else if 4 ≤ fl ∨ fl = 0 ∨ 4096 ≤ cmdAt e 6 2 ∨ 2 ^ 34 ≤ cmdAt e 0x10 8 ∨ 2 ^ 34 ≤ cmdAt e 0x18 8 ∨
      (e.drop 0x20).any (fun b => b != 0#8) then 2
  else if s.tagOn fn = false then 3
  else
    let r := s.createRefusal fn (cmdAt e 5 1) 1 (cmdAt e 8 4) (cmdAt e 12 4)
    if r ≠ 0 then r
    else if bit fl 0 && (s.slotOf fn (cmdAt e 6 2)).state != 0 then 7
    else 0

/-- The parts of a range, split at 4 KiB boundaries (R305); at most `n` of them. -/
def partsOf (n off len : Nat) (write : Bool) : List Part :=
  match n with
  | 0 => []
  | n + 1 =>
    if len = 0 then []
    else
      let k := min len (4096 - off % 4096)
      ⟨off, k, write⟩ :: partsOf n (off + k) (len - k) write

/-- The parts of a range. -/
def pages (off len : Nat) (write : Bool) : List Part := partsOf (len / 4096 + 2) off len write

/-! ### Translation (R305 to R308) -/

/-- The tenant's root table, enable and base (R305). -/
def State.root (s : State) (t : Nat) : Nat :=
  s.rd R.xltRootLo 0 t / 4096 * 4096 + s.rd R.xltRootHi 0 t % 2 ^ 20 * 2 ^ 32

def State.rootOn (s : State) (t : Nat) : Bool := bit (s.rd R.xltRootLo 0 t) 0

/-- The virtual address of a tenant's window offset (R305). -/
def State.va (s : State) (t off : Nat) : Nat := s.rd R.xltBase 0 t % 2 ^ 14 * 2 ^ 34 + off

/-- The shift of a level: 39, 30, 21, 12 (R305). -/
def levelShift (lv : Nat) : Nat := 48 - 9 * lv

/-- A cached leaf that serves the access (R308). -/
def State.hit (s : State) (t va : Nat) (write : Bool) : Option Tlb :=
  s.host.tlb.find? (fun e => e.tenant == t && va / 2 ^ levelShift e.level == e.va && (!write || e.write))

/-- The bus address of the entry that a walk reads at a level. -/
def entryAddr (table va lv : Nat) : Nat := table + 8 * bits va (levelShift lv + 8) (levelShift lv)

/-- Read the entry of a walk's current level. -/
def State.readLevel (s : State) (w : Walk) : State :=
  (s.modHost (fun h => { h with walks := h.walks ++ [w] })).readHost w.tenant
    (entryAddr w.table (s.va w.tenant w.part.off) w.level) 8 (.walk w.id)

/-- What a walk of all its parts ends in: the bus addresses, or the fault's code, level, entry address and part. -/
inductive WalkEnd where
  | going
  | done (l : List (Nat × Part))
  | fault (code level entry : Nat) (p : Part)
deriving DecidableEq, Repr

/-- Translate the parts that remain: from the buffer, or by starting a walk at the root (R305, R306, R308). -/
def State.translate (s : State) (id t : Nat) (use : WalkUse) (done : List (Nat × Part)) (l : List Part) : State × WalkEnd :=
  match l with
  | [] => (s, .done done)
  | p :: r =>
    let va := s.va t p.off
    match s.hit t va p.write with
    | some e =>
      let pa := e.pa + va % 2 ^ levelShift e.level
      let s1 := s.cnt R.xltHits
      if s1.inBars pa p.len then (s1.cnt R.xltWalkFaults, .fault 4 e.level e.entry p)
      else s1.translate id t use (done ++ [(pa, p)]) r
    | none =>
      let s1 := s.cnt R.xltWalks
      if !s.rootOn t then (s1.cnt R.xltWalkFaults, .fault 5 0 0 p)
      else if s.inBars (s.root t) 4096 then (s1.cnt R.xltWalkFaults, .fault 4 0 0 p)
      else (s1.readLevel ⟨id, t, p, 1, s.root t, r, done, use, false⟩, .going)

/-- The 4,096 most recent leaf translations: the oldest leaves a full buffer (R308). -/
def tlbAdd (e : Tlb) (l : List Tlb) : List Tlb := l.drop (l.length - 4095) ++ [e]

/-- One table entry has been read by a walk (R305): the next level, the next part, or the end. A walk that an
invalidation met starts again, its result discarded (R308). -/
def State.walkEntry (s : State) (w : Walk) (e : Nat) : State × WalkEnd :=
  let va := s.va w.tenant w.part.off
  let sh := levelShift w.level
  let at_ := entryAddr w.table va w.level
  let leaf := bit e 2
  let a := bits e 51 12 * 4096
  let bad (code : Nat) : State × WalkEnd := (s.cnt R.xltWalkFaults, .fault code w.level at_ w.part)
  if w.stale then s.translate w.id w.tenant w.use [] (w.done.map (·.2) ++ w.part :: w.rest)
  else if !bit e 0 then bad 1
  else if bits e 11 3 ≠ 0 ∨ bits e 63 52 ≠ 0 then bad 2
  else if (w.level = 1 ∧ leaf = true) ∨ (4 ≤ w.level ∧ leaf = false) then bad 2
  else if leaf then
    if a % 2 ^ sh ≠ 0 then bad 2
    else if w.part.write && !bit e 1 then bad 3
    else
      let pa := a + va % 2 ^ sh
      if s.inBars pa w.part.len then bad 4
      else (s.modHost (fun h => { h with tlb := tlbAdd ⟨w.tenant, w.level, va / 2 ^ sh, a, bit e 1, at_⟩ h.tlb })).translate
        w.id w.tenant w.use (w.done ++ [(pa, w.part)]) w.rest
  else if s.inBars a 4096 then bad 4
  else (s.readLevel { w with level := w.level + 1, table := a }, .going)

/-- A walk fault of a function's queue: recorded on the queue page, and the queue stops (R307). -/
def State.queueFault (s : State) (fn q code level entry off : Nat) : State :=
  ((s.modQueue fn q (fun x => { x with
    faultVa := s.va fn off, faultEntry := entry, faultCode := w32 (code % 8 + level % 8 * 16 + 2 ^ 31) })).stopQueue fn q 8)

/-- The violation every walk fault logs in the function's page (R307). -/
def State.walkViolation (s : State) (fn src code off : Nat) : State :=
  s.violate .hst fn ⟨0x50 + code, src, fn, 0, spanHost s.self fn off⟩

/-! ### SUBMIT (R295) -/

/-- A SUBMIT whose input is complete: the checks hold still, the stream is created, the slot bound, and its unit waits for
the next commit (R295). The next entry is fetched. -/
def State.acceptSubmit (s : State) (fn q : Nat) (j : Submit) : State :=
  let e := j.entry
  let s0 := s.modQueue fn q (fun x => { x with job := none })
  let r := s0.checkEntry fn e
  if r ≠ 0 then (s0.refuse fn q e r 0).fetch fn q
  else
    let data := j.got.flatMap (·.2)
    let cls := cmdAt e 5 1
    let cmd (gen : Nat) : HostCmd :=
      ⟨fn, q, cmdAt e 4 1, cmdAt e 2 2, bit (cmdAt e 1 1) 0, cmdAt e 6 2, gen, bit (cmdAt e 1 1) 1, cmdAt e 0x18 8, cmdAt e 12 4⟩
    let s1 := s0.createStream cls fn (some (cmd 0)) []
    let id := s1.2
    let s2 := if bit (cmdAt e 1 1) 0 then
        let b := s1.1.bindSlot fn (cmdAt e 6 2) id
        b.1.setStream id (newStream cls fn (some (cmd b.2)) [])
      else s1.1
    let targets := match s.classOf cls with
      | some k => k.targets 0
      | none => []
    (s2.arrive (unitsOf targets id 0 (unitHeader id cls 6 0 data (cmdAt e 2 2) 0 0) data)).fetch fn q

/-- Every page of a SUBMIT is translated: read its input, or accept it where it has none (R295). -/
def State.submitWalked (s : State) (fn q : Nat) (l : List (Nat × Part)) : State :=
  match (s.queue fn q).job with
  | none => s
  | some j =>
    let ins := l.filter (fun p => !p.2.write)
    let j' : Submit := { j with parts := ins }
    if ins.isEmpty then s.acceptSubmit fn q j'
    else (s.modQueue fn q (fun x => { x with job := some j' })).each ins.zipIdx (fun t p =>
      t.readHost fn p.1.1 p.1.2.len (.input fn q p.2))

/-! ### The release of a finished host stream (R297, R307) -/

/-- The end of a release: the slot, then the completion entry (R297 steps 2 and 3). -/
def State.releaseEnd (s : State) (id : Nat) (x : Stream) (h : HostCmd) (status detail written : Nat) : State :=
  let s1 := if h.toSlot then s.publishSlot h id x else s
  let s2 := s1.setStream id { x with released := true, output := [] }
  s2.complete h.fn h.ring ⟨x.tick, some id, entryOf h.cmdId id status h.queue (if h.toSlot then h.generation else 0) x.tick
    written x.quality detail⟩

/-- The bytes of a stream's output that go to parts of its range. -/
def cutParts (l : List (Nat × Part)) (d : List Byte) : List (Nat × Part × List Byte) :=
  match l with
  | [] => []
  | (a, p) :: r => (a, p, d.take p.len) :: cutParts r (d.drop p.len)

/-- The output parts of a stream are translated: they are written, then the stream's release ends (R297 step 1). -/
def State.outputWalked (s : State) (id : Nat) (l : List (Nat × Part)) : State :=
  match s.stream id with
  | none => s
  | some x => match x.host with
    | none => s
    | some h =>
      let out := x.output.take h.outLimit
      let s1 := s.each (cutParts l out) (fun t p =>
        t.writeHost h.fn (some (h.fn, t.va h.fn p.2.1.off)) (Config.relaxedOn t.host.configs h.fn) p.1 p.2.2)
      s1.releaseEnd id x h x.status x.detail out.length

/-- A page of a stream's output faults: the output is dropped, the completion says WALK_FAULT, the queue stops, the slot is
still published (R307). -/
def State.outputFault (s : State) (id code level entry off : Nat) : State :=
  match s.stream id with
  | none => s
  | some x => match x.host with
    | none => s
    | some h => ((s.queueFault h.fn h.queue code level entry off).walkViolation h.fn (fnSrc h.fn) code off).releaseEnd
        id x h 8 code 0

/-! ### What a walk serves -/

/-- The new value of an atomic (Table 04-11). -/
def atomNew (op : Nat) (m v cas : Word) : Word :=
  match op % 8 with
  | 0 => m + v
  | 1 => if m.toNat ≤ v.toNat then m else v
  | 2 => if m.toNat < v.toNat then v else m
  | 3 => m &&& v
  | 4 => m ||| v
  | 5 => m ^^^ v
  | 6 => v
  | _ => if m = cas then v else m

/-- A kind 3 access under way has ended. -/
def State.dropKind3 (s : State) (id : Nat) : State :=
  s.modHost (fun h => { h with kind3s := h.kind3s.filter (fun k => k.id != id) })

/-- Bytes from bus address `a`, as the write of others at `b` leaves them. -/
def overlay (a : Nat) (d : List Byte) (b : Nat) (w : List Byte) : List Byte :=
  d.zipIdx.map (fun x => if b ≤ a + x.2 ∧ a + x.2 < b + w.length then w.getD (a + x.2 - b) 0#8 else x.1)

/-- Host memory from bus address `a` as an atomic sees it: what was read, under the writes that the hub still holds, oldest first
(R257, R309; log 31). -/
def State.underHeld (s : State) (a : Nat) (d : List Byte) : List Byte :=
  s.svc.egress.foldl (fun d e => match e with
      | .write _ _ b w => overlay a d b w
      | .nop _ _ _ _ => d)
    (s.host.held.foldl (fun d o => match o.out with
      | .hostWrite b w _ => overlay a d b w
      | _ => d) d)

/-- A host-window write, translated, enters the egress hold, or finds it full, which drops it and fails the tick (R51, R251).
Outside a tick there is no commit to wait for. Port 17 stands for a toss, which is not answered. -/
def State.windowWrite (s : State) (k : Kind3) (l : List (Nat × Part)) (data old : List Byte) : State :=
  let t := k.head.tenant
  let ans (x : State) (status : Nat) (d : List Byte) : State :=
    if k.port = 17 then x else x.respond false k.head k.access status 0 d
  if s.egressFull data.length then ans ((s.violate .hst 0 ⟨9, 5, t, 2, 0⟩).tickFault 9 .none) 3 []
  else if s.inTick then ans (s.modSvc (fun v => { v with
    egress := v.egress ++ (cutParts l data).map (fun p => .write t (s.va t p.2.1.off) p.1 p.2.2) })) 0 old
  else ans (s.each (cutParts l data) (fun x p => x.writeHost t (some (t, x.va t p.2.1.off)) false p.1 p.2.2)) 0 old

/-- A kind 3 access is translated (R309): a READ, and an ATOM's read, goes to host memory; a WRITE enters the egress hold. -/
def State.kind3Walked (s : State) (id : Nat) (l : List (Nat × Part)) : State :=
  match s.host.kind3s.find? (fun k => k.id == id) with
  | none => s
  | some k =>
    if k.access.op = 1 then (s.dropKind3 id).windowWrite k l (padTo k.access.size k.data) []
    else (s.modHost (fun h => { h with kind3s := h.kind3s.map (fun x => if x.id = id then { x with parts := l } else x) })).each
      l.zipIdx (fun x p => x.readHost k.head.tenant p.1.1 p.1.2.len (.kind3 id p.2))

/-- A part of a kind 3 access has been read; with the last, a READ is answered, and an ATOM applied (R251, R257, R309). -/
def State.kind3Read (s : State) (id part : Nat) (data : List Byte) : State :=
  match s.host.kind3s.find? (fun k => k.id == id) with
  | none => s
  | some k =>
    let p := k.parts.getD part (0, ⟨0, 0, false⟩)
    let d := padTo p.2.len data
    let got := mput k.got part (if k.access.op = 2 then s.underHeld p.1 d else d)
    if got.length < k.parts.length then
      s.modHost (fun h => { h with kind3s := h.kind3s.map (fun x => if x.id = id then { x with got := got } else x) })
    else
      let s1 := s.dropKind3 id
      let old := got.flatMap (·.2)
      if k.access.op = 2 then
        let m := w32 (leAt old 0 4)
        s1.windowWrite k k.parts (leBytes 4 (atomNew k.access.atom m (w32 (leAt k.data 0 4)) (w32 k.access.cas)).toNat) old
      else if k.port = 17 then s1
      else s1.respond false k.head k.access 0 0 old

/-- A walk of a kind 3 access has faulted: NACK HOST (R307). -/
def State.kind3Refused (s : State) (id : Nat) : State :=
  match s.host.kind3s.find? (fun k => k.id == id) with
  | none => s
  | some k => (s.dropKind3 id).nack k.port k.head k.access 0x45

/-- A host read of a kind 3 access has failed: DATA_ERROR (R251, R290). -/
def State.kind3Failed (s : State) (fn id : Nat) : State :=
  match s.host.kind3s.find? (fun k => k.id == id) with
  | none => s
  | some k =>
    let s1 := (s.dropKind3 id).violate .hst fn ⟨0x58, 5, k.head.tenant, 0, k.access.addr⟩
    if k.port = 17 then s1 else s1.respond false k.head k.access 2 0 []

/-- A walk of all its parts has ended: what it served goes on (R295, R297, R307, R309). -/
def State.walkEnd (s : State) (t : Nat) (use : WalkUse) (e : WalkEnd) : State :=
  match e with
  | .going => s
  | .done l => match use with
    | .submit fn q => s.submitWalked fn q l
    | .output id => s.outputWalked id l
    | .kind3 id => s.kind3Walked id l
    | .chain entry number => s.each l.zipIdx (fun x p => x.readHost 0 p.1.1 p.1.2.len (.chain entry number p.2))
  | .fault code level entry p => match use with
    | .submit fn q => match (s.queue fn q).job with
      | none => s
      | some j => ((((s.modQueue fn q (fun x => { x with job := none })).queueFault fn q code level entry p.off).walkViolation
          fn (fnSrc fn) code p.off).refuse fn q j.entry 8 code)
    | .output id => s.outputFault id code level entry p.off
    | .kind3 id => (s.walkViolation t 5 code p.off).kind3Refused id
    | .chain e _ => (s.walkViolation t 12 code p.off).cnt R.wldChainErr |>.modLoad (fun l => { l with
        chains := mput l.chains e { mget Chain.reset l.chains e with running := false } })

/-- Translate parts for a use (R305). -/
def State.walk (s : State) (t : Nat) (use : WalkUse) (l : List Part) : State :=
  let id := s.host.walkIds
  let r := (s.modHost (fun h => { h with walkIds := id + 1 })).translate id t use [] l
  r.1.walkEnd t use r.2

/-- A kind 3 access starts: its parts are translated under the named tenant's tables (R305, R309). -/
def State.startKind3 (s : State) (port : Nat) (h : RHead) (b : Access) (data : List Byte) : State :=
  let id := s.host.kind3Ids
  (s.modHost (fun x => { x with kind3Ids := id + 1, kind3s := x.kind3s ++ [⟨id, port, h, b, data, [], []⟩] })).walk h.tenant
    (.kind3 id) (pages (bits b.addr 33 0) b.size (b.op == 1 || b.op == 2))

/-! ### Entries checked (R294) -/

/-- A NOP's completion: tick output, which waits for the commit (R296; log 21). -/
def State.nopDone (s : State) (fn q ring cmdId tick : Nat) : State :=
  s.complete fn ring ⟨tick, none, entryOf cmdId 0xFFFF 0 q 0 tick 0 s.time.quality 0⟩

/-- The next fetched entry of a queue, of a SUBMIT or of any other opcode, is checked and completed, or a SUBMIT's walks
start (R294, R295). -/
def State.process (s : State) (fn q : Nat) (submit : Bool) : State :=
  let x := s.queue fn q
  match x.fetched with
  | none => s
  | some e =>
    if (cmdAt e 0 1 == 2) != submit || x.state != .run || !s.fnUp fn then s
    else
      let s1 := s.modQueue fn q (fun y => { y with fetched := none })
      let r := s1.checkEntry fn e
      if r ≠ 0 then (s1.refuse fn q e r 0).fetch fn q
      else if submit then
        (s1.modQueue fn q (fun y => { y with job := some ⟨e, [], []⟩ })).walk fn (.submit fn q)
          (pages (cmdAt e 0x10 8) (cmdAt e 8 4) false ++ pages (cmdAt e 0x18 8) (cmdAt e 12 4) true)
      else if s.inTick then
        (s1.modSvc (fun v => { v with egress := v.egress ++ [.nop fn q (cmdAt e 4 1) (cmdAt e 2 2)] })).fetch fn q
      else (s1.nopDone fn q (cmdAt e 4 1) (cmdAt e 2 2) s.tick.count).fetch fn q

/-! ### Completions of device reads (R290) -/

/-- A failed read is a DMA error (R290): of its command, its walk, its queue or its requester. -/
def State.readFailed (s : State) (fn addr : Nat) (use : ReadUse) : State :=
  match use with
  | .entry fn q =>
    ((s.modQueue fn q (fun x => { x with fetching := false })).violate .hst fn ⟨0x58, fnSrc fn, fn, 1, addr % 2 ^ 56⟩).stopQueue fn q 9
  | .input fn q _ => match (s.queue fn q).job with
    | none => s
    | some j => (((s.dropReads (fun _ u => match u with
        | .input f k _ => f == fn && k == q
        | _ => false)).modQueue fn q (fun x => { x with job := none })).refuse fn q j.entry 9 0).fetch fn q
  | .walk id => match s.host.walks.find? (fun w => w.id == id) with
    | none => s
    | some w =>
      ((s.modHost (fun h => { h with walks := h.walks.filter (fun v => v.id != id) })).cnt R.xltWalkFaults).walkEnd w.tenant w.use
        (.fault 6 w.level (entryAddr w.table (s.va w.tenant w.part.off) w.level) w.part)
  | .kind3 id _ => s.kind3Failed fn id
  | .chain e _ _ => (s.violate .hst 0 ⟨0x58, 12, 0, 1, addr % 2 ^ 56⟩).cnt R.wldChainErr |>.modLoad (fun l => { l with
      chains := mput l.chains e { mget Chain.reset l.chains e with running := false } })

/-- Data of a read reaches its use; a chain's record is sent by the load engine. -/
def State.readDone (s : State) (use : ReadUse) (data : List Byte) : State :=
  match use with
  | .entry fn q =>
    s.modQueue fn q (fun x => { x with
      fetching := false, fetched := some (padTo 64 data), head := (x.head + 1) % 2 ^ x.size })
  | .input fn q part => match (s.queue fn q).job with
    | none => s
    | some j =>
      let j' : Submit := { j with got := mput j.got part (padTo ((j.parts.getD part (0, ⟨0, 0, false⟩)).2.len) data) }
      if j'.got.length = j.parts.length then s.acceptSubmit fn q j'
      else s.modQueue fn q (fun x => { x with job := some j' })
  | .walk id => match s.host.walks.find? (fun w => w.id == id) with
    | none => s
    | some w =>
      let r := (s.modHost (fun h => { h with walks := h.walks.filter (fun v => v.id != id) })).walkEntry w (leAt data 0 8)
      r.1.walkEnd w.tenant w.use r.2
  | .kind3 id part => s.kind3Read id part data
  | .chain _ _ _ => s

end Sys2Proof.Machine
end

