-- ==== Sys2Proof/Machine/Services.lean ====
section
/-!
DEFINITION. The hub's services (12): intake (R318), outlet collection (R319 to R321), what a commit does with streams,
ledger and egress (R322, R331, R50, R51), camera ingest (R323 to R327), publication (R328 to R330, R338), the night
ledger's blocks (R332, R333) and the withdrawal of a tenant (11 R312).
-/
namespace Sys2Proof.Machine

/-! ### Intake (R318) -/

/-- A unit with the missing flag (Table 12-2). -/
def Unit_.missing (u : Unit_) : Bool := bit ((u.header.getD 3 0#8).toNat) 0

/-- Delivery order: stream ID, missing units after the others (R326), unit index (R318). -/
def unitLe (a b : Unit_) : Bool :=
  if a.stream ≠ b.stream then decide (a.stream < b.stream)
  else if a.missing ≠ b.missing then !a.missing
  else decide (a.index ≤ b.index)

/-- Bytes of a unit in a target: header and payload, padded (R318). -/
def Unit_.size (u : Unit_) : Nat := 64 + (u.payload.length + 63) / 64 * 64

/-- The units that fit in `room` bytes, in order; once one does not fit, the rest carry over (R318). -/
def fitUnits (room : Nat) (l : List Unit_) : List Unit_ :=
  match l with
  | [] => []
  | u :: r => if room < u.size then [] else u :: fitUnits (room - u.size) r

/-- The frame of a stream is complete, or closes in the tick in progress, so that no unit follows those waiting (R326). -/
def State.frameEnds (s : State) (id : Nat) : Bool :=
  s.svc.frames.any (fun f => f.stream == id && (f.closing ||
    (match s.classOf ((s.stream id).getD (newStream 0 0 none [])).cls with
      | some k => f.got.length == k.tiles
      | none => false))) && !s.svc.arriving.any (fun u => u.stream == id)

/-- The units of a delivery with their first and last flags (Table 12-2): `due` is every unit of the target in order. -/
def State.flagUnits (s : State) (due now : List Unit_) : List Unit_ :=
  now.map (fun u =>
    let ofS := due.filter (fun v => v.stream == u.stream)
    let fresh := match s.stream u.stream with
      | some x => x.started.isNone
      | none => false
    let first := fresh && (ofS.head? == some u)
    let last := (s.frameEnds u.stream && (ofS.getLast? == some u)) || bit (u.header.getD 3 0#8).toNat 2
    { u with
      given := true,
      header := u.header.set 3 (BitVec.ofNat 8 (b2n u.missing + 2 * b2n (first || bit (u.header.getD 3 0#8).toNat 1) + 4 * b2n last)) })

/-- The bytes of a delivery: directory, then units (R318). -/
def intakeBytes (count : Nat) (l : List Unit_) : List Byte :=
  padTo 64 (leBytes 4 l.length ++ leBytes 4 (64 + natSum (l.map Unit_.size)) ++ leBytes 8 count) ++
    l.flatMap (fun u => padTo u.size (u.header ++ u.payload))

/-- The tenants whose classes name an intake target (R316). -/
def State.targetTenants (s : State) (p : Nat × Nat) : List Nat :=
  (s.image.classes.filter (fun k => k.intake.any (fun t => t.1 == p.1 && t.2.1 == p.2))).map (·.tenant)

/-- The hub's use of a handle of a tenant whose tag is not enabled is refused (R24; log 52). -/
def State.hubTagOff (s : State) (pg : PageType) (tenant : Nat) : State := s.violate pg 0 ⟨0x15, 13, tenant, 2, 0⟩

/-- The hub writes one target's intake (R318). A target that is no valid type 1 handle of its class's tenant receives nothing
(R317), nor does one whose owner does not take its turn (R88) or whose tag is not enabled (R24). -/
def State.intakeTarget (s : State) (p : Nat × Nat) : State :=
  let e := s.entry p.1 p.2
  if hType e ≠ 1 ∨ s.inTurn (hOwner e) = false ∨ (s.targetTenants p).contains (hOwner e) = false then s
  else if !s.tagOn (hOwner e) then s.hubTagOff .ing (hOwner e)
  else
    let s0 := s.touchEntry p.1 p.2 13 (hOwner e)
    if s.entryBad p.1 p.2 then s0
    else
      let mine (u : Unit_) : Bool := u.cluster == p.1 && u.handle == p.2
      let due := sortBy unitLe (s.svc.units.filter mine)
      let now := fitUnits (min (hLen e) 65536 - 64) due
      let given := s.flagUnits due now
      let data := (intakeBytes s.tick.count given).take (min (hLen e) 65536)
      (s0.modSvc (fun v => { v with
        units := v.units.filter (fun u => !mine u) ++ given ++ due.drop now.length })).writeBytes 2 13 (hOwner e)
          (hAddrs p.1 e 0 data.length (hWriteHalf e)) data

/-- The intake targets of the device, each once. -/
def State.allTargets (s : State) : List (Nat × Nat) :=
  (s.image.classes.flatMap (fun k => k.intake.map (fun t => (t.1, t.2.1)))).dedup

/-- The intake of an attempt (R318). -/
def State.intake (s : State) : State := s.each s.allTargets State.intakeTarget

/-- A re-run delivers the same units again (R318). -/
def State.intakeAgain (s : State) : State :=
  s.modSvc (fun v => { v with units := v.units.map (fun u => { u with given := false }) })

/-! ### Outlet collection (R319 to R321) -/

/-- A discarded record (R321). -/
def State.badRecord (s : State) (tenant addr : Nat) : State :=
  (s.cnt R.pubRecBad).violate .pub 0 ⟨0x18, 13, tenant, 0, addr⟩

/-- What a collection carries from record to record: the state and the CRC findings not yet used, in record order. -/
abbrev Collect := State × List Bool

/-- The records of an outlet from offset `off`: `n` of them (R319). Each takes its CRC finding; a mismatch fails the tick
(R320), and a record that R321 names is discarded. A record's payload CRC is computed here, and carried (R404). -/
def collectRecords (n : Nat) (x : Collect) (k : StreamClass) (c : Nat) (e : HEntry) (data : List Byte) (off : Nat) : Collect :=
  match n with
  | 0 => x
  | n + 1 =>
    let s := x.1
    let addr := spanScratch s.self c (spdMap e off 0)
    let len := leAt data (off + 8) 4
    if data.length < off + 64 ∨ data.length < off + 64 + len then (s.badRecord k.tenant addr, x.2)
    else
      let next := off + 64 + (len + 63) / 64 * 64
      let kind := leAt data off 1
      let id := leAt data (off + 2) 2
      let live := match s.stream id with
        | some st => st.tenant == k.tenant && !st.finished
        | none => false
      let done := s.svc.records.any (fun r => !r.spawn && r.stream == id)
      let rec1 : OutRecord := ⟨kind == 2, leAt data (off + 1) 1, id, if kind = 2 then leAt data (off + 4) 1 else k.cls,
        (data.drop (off + 64)).take len, (crc32c ((data.drop (off + 64)).take len)).toNat⟩
      let s1 :=
        if x.2.head? = some false then (s.violate .pub 0 ⟨8, 13, k.tenant, 0, addr⟩).tickFault 8 (.cluster c)
        else if (kind ≠ 1 ∧ kind ≠ 2) ∨ !live ∨ k.outLimit < len ∨ (kind = 1 ∧ done) then s.badRecord k.tenant addr
        else if s.egressFull len then (s.violate .pub 0 ⟨9, 13, k.tenant, 2, 0⟩).tickFault 9 .none
        else s.modSvc (fun v => { v with records := v.records ++ [rec1] })
      collectRecords n (s1, x.2.drop 1) k c e data next

/-- The hub reads one outlet (R320), a type 1 handle of the class's tenant (R317) whose tag is enabled (R24). Nothing of a dead
tenant is collected (R89). -/
def collectOutlet (x : Collect) (k : StreamClass) (o : Nat × Nat) : Collect :=
  let s := x.1
  let e := s.entry o.1 o.2
  if hType e ≠ 1 ∨ s.ctxDead k.tenant = true ∨ hOwner e ≠ k.tenant then x
  else if !s.tagOn k.tenant then (s.hubTagOff .pub k.tenant, x.2)
  else
    let s0 := s.touchEntry o.1 o.2 13 (hOwner e)
    if s.entryBad o.1 o.2 then (s0, x.2)
    else
      let as := hAddrs o.1 e 0 (min (hLen e) 65536) (hReadHalf e)
      let data := s.readBytes 2 (hKind e == 0) as
      let n := if as.length < 64 then 0 else leAt data 0 4
      collectRecords (min n 1024) (s0.afterRead 2 13 k.tenant as, x.2) k o.1 e data 64

/-- Every outlet of every class, in ascending class number, then outlet order (R320, R321). -/
def State.collect (s : State) (crcOk : List Bool) : State :=
  let ks := sortBy (fun a b => decide (a.cls ≤ b.cls)) s.image.classes
  (ks.foldl (fun x k => k.outlets.foldl (fun y o => collectOutlet y k o) x) (s, crcOk)).1

/-- COLLECTION_COMPLETE: the collection that the repair phase started ends (R320). `crcOk` says of each record read, in
collection order, whether its CRC-32C agreed. -/
def execCollectionComplete (crcOk : List Bool) (s : State) : Res :=
  .next (if s.svc.collecting && s.tick.phase == .repair then
    (s.modSvc (fun v => { v with collecting := false })).collect crcOk else s)

/-! ### The night ledger's blocks (R332, R333) -/

/-- The host ledger ring has no room, or is not set up (R332). -/
def State.ledgerRingFull (s : State) : Bool :=
  let n := s.fld R.ldgHsize 4 0
  n == 0 || decide (16 < n) || s.svc.ledgerSlot == (s.svc.ledgerHead + 2 ^ n - 1) % 2 ^ n

/-- The digest of the block before: of block 0 the image digest (R332). -/
def State.prevBlock (s : State) : List Byte := padTo 32 (if s.svc.blockNo = 0 then s.image.imgDigest else s.svc.prevDigest)

/-- A block's header up to its digest, with a phase (R332). -/
def State.blockHead (s : State) (l : List LedgerEntry) (phase : Nat) : List Byte :=
  leBytes 8 s.svc.blockNo ++ leBytes 8 ((l.head?.map (·.number)).getD 0) ++ leBytes 4 l.length ++ leBytes 4 phase ++
    leBytes 8 ((l.getLast?.map (·.tick)).getD 0) ++ s.prevBlock

/-- The waiting entries leave as one block, entries first and the header last; with the host ring full it waits (R332). -/
def State.writeBlock (s : State) : State :=
  if s.svc.ledger.isEmpty then s
  else if s.ledgerRingFull then s.modSvc (fun v => { v with blockDue := true })
  else
    let n := s.fld R.ldgHsize 4 0
    let l := s.svc.ledger.take 1023
    let body := l.flatMap LedgerEntry.bytes
    let dig := sha256 (s.blockHead l 0 ++ body)
    let a := s.inForce R.ldgHbaseLo + s.inForce R.ldgHbaseHi * 2 ^ 32 + 131072 * s.svc.ledgerSlot
    let s1 := (s.writeHost 0 none false (a + 128) body).writeHost 0 none false a
      (padTo 128 (s.blockHead l (b2n s.svc.ledgerPhase) ++ dig))
    (s1.modSvc (fun v => { v with
      ledger := v.ledger.drop 1023, blockNo := v.blockNo + 1, prevDigest := dig, blockDue := false,
      ledgerPhase := if v.ledgerSlot + 1 = 2 ^ n then !v.ledgerPhase else v.ledgerPhase,
      ledgerSlot := (v.ledgerSlot + 1) % 2 ^ n })).event .ldg 0 2

/-- LEDGER_CHECKPOINT: at a committing seal whose tick is a multiple of CKPT_TICKS, or with 1,023 entries waiting (R332). -/
def execLedgerCheckpoint (s : State) : Res :=
  let k := s.fld R.ldgCkptTicks 23 0
  .next (if (k != 0 && (s.tick.count - 1) % k == 0) || decide (1023 ≤ s.svc.ledger.length) then s.writeBlock else s)

/-- LDG.HDB: the host ledger ring's head; a block that waits leaves (R332). -/
def State.ledgerHead (s : State) (v : Nat) : State :=
  let s1 := s.modSvc (fun x => { x with ledgerHead := v % 2 ^ 16 })
  if s1.svc.blockDue then s1.writeBlock else s1

/-- LDG.CMD.new_night: entry, block and publication numbers restart at 0 (R331). -/
def State.newNight (s : State) : State :=
  (s.modSvc (fun v => { v with entryNo := 0, blockNo := 0, pubNo := 0 })).note 4 10 0 []

/-- The host ledger ring starts anew at entry 0 in phase 1 (R332). -/
def State.ledgerRestart (s : State) : State :=
  s.modSvc (fun v => { v with ledgerSlot := 0, ledgerPhase := true, ledgerHead := 0 })

/-! ### Publication (R328 to R330, R338) -/

/-- A publication record (Table 12-4), phase 0. -/
def State.pubRecord (s : State) (x : Stream) : List Byte :=
  leBytes 4 0x4255504C ++ leBytes 1 0 ++ leBytes 1 x.detail ++ leBytes 2 x.output.length ++ leBytes 8 x.tick ++
    leBytes 6 x.sec ++ leBytes 1 x.quality ++ zeros 1 ++ leBytes 4 x.ns ++ leBytes 4 x.crc ++
    padTo 16 x.block ++ leBytes 8 x.pubNo ++ zeros 8 ++ padTo 32 s.image.imgDigest ++ padTo 32 s.image.wgtDigest ++
    padTo 32 x.inDigest ++ padTo 32 x.digest ++ x.output

/-- A destination entry's or an own IPv6 address: four words, the first the least significant (Table 12-7). -/
def State.ipWords (s : State) (r : Reg) (bank : Nat) : Nat :=
  natSum ((List.range 4).map (fun i => s.inForce r i 0 bank * 2 ^ (32 * i)))

/-- A record leaves as a datagram of destination entry `d`, or its port is not up (R329). -/
def State.pubDatagram (s : State) (d : Nat) (rec1 : List Byte) : State :=
  let cfg := s.rd R.pubDestPort 0 d
  let p := 14 + cfg % 2
  if (s.port p).ethernet && (s.port p).ethUp then
    s.send (.datagram p (s.inForce R.pubDestMacLo 0 0 d + s.inForce R.pubDestMacHi 0 0 d * 2 ^ 32)
      (if bit cfg 1 then s.ipWords R.ingIp6 (p - 14) else s.inForce R.ingIp4 0 0 (p - 14)) (s.rd R.pubUdpSrc)
      (if bit cfg 1 then s.ipWords R.pubDestIp d else s.inForce R.pubDestIp 0 0 d) (s.rd R.pubDestUdp 0 d) rec1)
  else s.cnt R.pubEthDrop

/-- The host publication ring takes no more (R329, R298). -/
def State.pubFull (s : State) : Bool :=
  let n := s.fld R.pubRingCfg 4 0
  !s.flag R.pubRingCfg 8 || s.svc.pubTail == (s.svc.pubHead + 2 ^ n - 1) % 2 ^ n

/-- Records of the hold go to the host publication ring while it has room: bytes from 0x40, then the first 64 (R329). -/
def State.pubDrain (s : State) (l : List (List Byte)) : State :=
  match l with
  | [] => s
  | r :: t =>
    if s.pubFull then s
    else
      let n := s.fld R.pubRingCfg 4 0
      let a := s.inForce R.pubRingBaseLo + s.inForce R.pubRingBaseHi * 2 ^ 32 + 1024 * s.svc.pubTail
      let head := (r.take 64).set 4 (BitVec.ofNat 8 (b2n s.svc.pubPhase))
      let s1 := (s.writeHost 0 none false (a + 64) (r.drop 64)).writeHost 0 none false a head
      (s1.modSvc (fun v => { v with
        pubWaiting := t, pubPhase := if v.pubTail + 1 = 2 ^ n then !v.pubPhase else v.pubPhase,
        pubTail := (v.pubTail + 1) % 2 ^ n })).pubDrain t

/-- PUB.RING_DB: the host publication ring's head (R329). -/
def State.pubHead (s : State) (v : Nat) : State :=
  let s1 := s.modSvc (fun x => { x with pubHead := v % 2 ^ 16 })
  s1.pubDrain s1.svc.pubWaiting

/-- PUB.RING_CFG.enable rises: the ring starts at entry 0 in phase 1 (R329, R298). -/
def State.pubStart (s : State) : State :=
  let s1 := s.modSvc (fun v => { v with pubTail := 0, pubPhase := true, pubHead := 0 })
  s1.pubDrain s1.svc.pubWaiting

/-- A published stream leaves on the paths of its class (R329), and its ID falls free. -/
def State.publish (s : State) (id : Nat) (x : Stream) : State :=
  match s.classOf x.cls with
  | none => s.freeId id
  | some k =>
    let r := s.pubRecord x
    let s1 := (s.cnt R.pubSent).when (bit k.paths 0) (fun t => t.pubDatagram (bits k.paths 4 2) r)
    let s2 := if bit k.paths 1 then
        let t := s1.modSvc (fun v => { v with pubWaiting := v.pubWaiting ++ [r] })
        t.pubDrain t.svc.pubWaiting
      else s1
    s2.freeId id

/-- DIGEST_COMPLETE: a finished stream's digest is complete, and its egress is released (R330, R338, R297). -/
def execDigestComplete (stream : Fin 65536) (s : State) : Res :=
  .next (match s.stream stream with
    | none => s
    | some x =>
      if !x.finished || x.released then s
      else
        let s1 := (s.cnt R.prvResCnt).setStream stream { x with released := true }
        match x.host with
        | some h => if h.toOut && x.status == 0 && !(s.fn h.fn).flr then
            s1.walk h.fn (.output stream) (pages h.outOff (min x.output.length h.outLimit) true)
          else s1.releaseEnd stream x h x.status x.detail 0
        | none => if x.status = 0 then s1.publish stream x else s1.freeId stream)

/-! ### Lifetimes (R322) -/

/-- STREAM_LIFETIME: the stream's lifetime has passed; without a RESULT it finishes at the commit (R322). -/
def execStreamLifetime (stream : Fin 65536) (s : State) : Res :=
  .next (match s.stream stream with
    | none => s
    | some x => match s.classOf x.cls with
      | none => s
      | some k => if x.finished || k.life == 0 then s
          else s.modSvc (fun v => { v with expired := addOnce v.expired stream }))

/-! ### Withdrawal of a tenant (11 R312) -/

/-- `n` bytes the spec leaves open (log 4). -/
def State.openBytes (s : State) (n : Nat) : List Byte := (List.range n).map (fun i => Config.freeByte s.freeCtr i)

/-- A stream of the tenant is released; a result sealed and not written is ledgered "withdrawn" (R312). -/
def State.withdrawStream (s : State) (tick id : Nat) (x : Stream) : State :=
  let sealed := s.svc.records.any (fun r => !r.spawn && r.stream == id)
  let s1 := if x.finished then s.ledger 1 2 x.tenant tick (endBody s.self id x.cls 0 x.output.length x.pubNo x.digest x.inDigest)
    else if sealed then
      (s.ledger 1 2 x.tenant tick (leBytes 2 s.self ++ leBytes 2 id ++ leBytes 1 x.cls ++ s.openBytes 83)).draw
    else s
  s1.freeId id

/-- Step 3 of R312 for tenant `t`, with the start of step 5: its contexts die, its streams are released, and zeroing starts. -/
def State.withdrawNow (s : State) (t : Nat) : State :=
  let s1 := s.each (s.clusters.map (·.1)) (fun u k => u.killDraws k t)
  let s2 : State := { s1 with
    clusters := s1.clusters.map (fun p => (p.1, p.2.kill t)),
    fabric := { s1.fabric with
      pending := s1.fabric.pending.map (fun p => if p.tenant = t ∧ p.use.ofThread then { p with discarded := true } else p),
      sendq := s1.fabric.sendq.filter (fun r => !(r.tenant == t && r.use.ofThread)) } }
  let s3 := s2.modTick (fun k => { k with dead := addOnce k.dead t })
  let s4 := s3.each (s3.svc.streams.filter (fun p => p.2.tenant == t)) (fun u p => u.withdrawStream s.tick.count p.1 p.2)
  let s5 := s4.modSvc (fun v => { v with
    records := v.records.filter (fun r => match s.stream r.stream with
      | some x => x.tenant != t
      | none => true) })
  s5.modFn t (fun f => { f with zeroing := true })

/-- Step 4 of R312: HST.FN_EVT and PF vector 1 tell the span manager. -/
def State.signalFn (s : State) (t : Nat) : State :=
  ((s.wr R.hstFnEvt (s.rd R.hstFnEvt 0 0 (t / 32) ||| 2 ^ (t % 32)) 0 0 (t / 32)).event .hst 0 0).msix 0 1

/-- Steps 3 and 4 of R312. -/
def State.withdraw (s : State) (t : Nat) : State := (s.withdrawNow t).signalFn t

/-! ### The commit (R322, R331, R50, R51) -/

/-- Delivered units leave the queue and enter their streams' input digests (R336). -/
def State.delivered (s : State) : State :=
  let l := sortBy unitLe (s.svc.units.filter (fun u => u.given))
  let s1 := s.each l (fun t u => match t.stream u.stream with
    | none => t
    | some x => t.setStream u.stream { x with
        inputs := if u.hashed then x.inputs ++ u.header ++ u.payload else x.inputs,
        started := some (x.started.getD s.tick.count) })
  let carried := s.svc.units.filter (fun u => !u.given)
  (s1.when (!carried.isEmpty) (fun t => t.cnt R.ingCarry 0 carried.length)).modSvc (fun v => { v with
    units := v.units.filter (fun u => !u.given),
    frames := v.frames.map (fun f => if l.any (fun u => u.stream == f.stream) then { f with first := some (f.first.getD s.tick.count) } else f) })

/-- A frame closes: its INGEST entry (R327). -/
def State.closeFrame (s : State) (f : OpenFrame) : State :=
  let tiles := match s.stream f.stream with
    | some x => match s.classOf x.cls with
      | some k => k.tiles
      | none => f.got.length
    | none => f.got.length
  let tenant := match s.stream f.stream with
    | some x => x.tenant
    | none => 0
  (s.ledger 5 0 tenant s.tick.count
    (leBytes 4 f.got.length ++ leBytes 4 (tiles - f.got.length) ++ leBytes 4 f.dup ++ leBytes 4 f.late)).modSvc (fun v => { v with
      frames := v.frames.filter (fun g => !(g.exposure == f.exposure && g.sensor == f.sensor)),
      closed := v.closed ++ [(f.exposure, f.sensor)] })

/-- A SPAWN creates its stream, or is refused: dropped, counted and ledgered (R322). -/
def State.spawn (s : State) (r : OutRecord) : State :=
  match s.stream r.stream with
  | none => s
  | some p =>
    if s.createRefusal p.tenant r.cls 3 r.payload.length 0 ≠ 0 then
      ((s.cnt R.pubSpawnRef).ledger 1 3 p.tenant s.tick.count
        (leBytes 2 s.self ++ s.openBytes 2 ++ leBytes 1 r.cls ++ s.openBytes 83)).draw
    else
      let n := s.createStream r.cls p.tenant none (sha256 p.inputs)
      let targets := match s.classOf r.cls with
        | some k => k.targets 0
        | none => []
      n.1.arrive (unitsOf targets n.2 0 (unitHeader n.2 r.cls 6 0 r.payload r.stream 0 0) r.payload)

/-- A collected record at the commit (R322). Where committed egress is discarded, results are counted instead (R59, 08 R234). -/
def State.applyRecord (s : State) (r : OutRecord) : State :=
  match s.stream r.stream with
  | none => s
  | some x =>
    if s.tick.killed.contains x.tenant then s
    else if r.spawn then s.spawn r
    else if s.egressOff then (s.cnt R.tckDbgCnt).freeId r.stream
    else s.finish r.stream s.tick.count 0 0 r.status r.payload r.crc

/-- A stream finishes FAULTED (R322), or its completion is discarded with the committed egress (R59, 08 R234). -/
def State.faulted (s : State) (id code : Nat) : State :=
  match s.stream id with
  | none => s
  | some x => if x.finished then s else if s.egressOff then (s.cnt R.tckDbgCnt).freeId id
      else s.finish id s.tick.count 0x0A code 0 [] (crc32c []).toNat

/-- One thing of the egress hold is released (R48, R51); what a tenant killed in the attempt wrote is discarded (R89). -/
def State.releaseEgress (s : State) (e : Egress) : State :=
  if s.egressOff then s.cnt R.tckDbgCnt
  else match e with
    | .write t va addr data => if s.tick.killed.contains t then s else s.writeHost t (some (t, va)) false addr data
    | .nop fn q ring cmdId => s.nopDone fn q ring cmdId s.tick.count

/-- A ledger event of the tick (R331). -/
def State.ledgerEvent (s : State) (e : Nat × Nat × List Byte) : State :=
  s.ledger (e.1 / 256) (e.1 % 256) e.2.1 s.tick.count e.2.2

/-- The tick in progress commits: what its services did becomes visible (R50, R51, R322). -/
def State.commitServices (s : State) : State :=
  let s0 := s.each s.tick.withdrawals State.withdraw
  let s1 := s0.delivered
  let s2 := s1.each (s1.svc.frames.filter (fun f => f.closing)) State.closeFrame
  let s3 := s2.each s2.svc.records State.applyRecord
  let s4 := s3.each s3.svc.streams (fun t p => if t.tick.killed.contains p.2.tenant then
      t.faulted p.1 ((lfind t.tick.killCodes p.2.tenant).getD 0) else t)
  let s5 := s4.each s4.svc.expired (fun t id => t.faulted id 0xF0)
  let s6 := s5.each s5.svc.events State.ledgerEvent
  let s7 := s6.each s6.svc.egress State.releaseEgress
  ((s7.modSvc (fun v => { v with
    records := [], expired := [], events := [], egress := [], collecting := false, units := v.units ++ v.arriving,
    arriving := [] })).modTick (fun t => { t with withdrawals := [] })).ringDoorbells

/-- The attempt is undone: its egress and records are discarded, and its intake is delivered again (R48, R55, R318). -/
def State.undoServices (s : State) : State :=
  (s.modSvc (fun v => { v with records := [], egress := [], collecting := false })).intakeAgain

/-- Ledger entries a committing tick would add (R333). -/
def State.ledgerNeed (s : State) : Nat :=
  s.svc.records.length + s.svc.expired.length + s.svc.events.length + s.tick.advances.length + (s.svc.frames.filter (fun f => f.closing)).length +
    (s.svc.streams.filter (fun p => s.tick.killed.contains p.2.tenant || s.tick.withdrawals.contains p.2.tenant)).length

/-- At seal start: the ledger ring must have room (R333). -/
def State.ledgerFull (s : State) : Bool := decide (8192 < s.svc.ledger.length + s.ledgerNeed)

/-! ### Camera ingest (R323 to R327) -/

/-- A UDP datagram's addresses are those of the port's tiles (R323). -/
def State.tileAddressed (s : State) (port : Nat) (t : Tile) : Bool :=
  let b := port - 14
  (t.dstIp == (if t.v6 then s.ipWords R.ingIp6 b else s.inForce R.ingIp4 0 0 b)) &&
    t.dstPort == s.fld R.ingUdpPort 15 0 && (s.rd R.ingSrcIp4 == 0 || (!t.v6 && t.srcIp == s.rd R.ingSrcIp4))

/-- The class that lists a sensor (R324). -/
def State.sensorClass (s : State) (sensor : Nat) : Option StreamClass :=
  s.image.classes.find? (fun k => k.source == 2 && k.intake.any (fun t => t.2.2 == sensor))

/-- A tile is well formed for the class of its sensor (R324). -/
def tileGood (t : Tile) (k : StreamClass) : Bool :=
  t.magic == 0x4F54494C && t.version == 1 && t.len == t.payload.length && t.len % 2 == 0 && decide (2 ≤ t.len) &&
    decide (t.len ≤ 8192) && t.count == k.tiles && decide (t.index < t.count) && t.crc == crc32c t.payload

/-- The open frame of a tile. -/
def State.frameOf (s : State) (exposure sensor : Nat) : Option OpenFrame :=
  s.svc.frames.find? (fun f => f.exposure == exposure && f.sensor == sensor)

/-- The state with an open frame changed. -/
def State.modFrame (s : State) (exposure sensor : Nat) (f : OpenFrame → OpenFrame) : State :=
  s.modSvc (fun v => { v with frames := v.frames.map (fun x => if x.exposure == exposure && x.sensor == sensor then f x else x) })

/-- An accepted tile of an open frame (R325, R326). -/
def State.acceptTile (s : State) (t : Tile) (k : StreamClass) (f : OpenFrame) : State :=
  if f.closing then (s.cnt R.ingLate).modFrame t.exposure t.sensor (fun x => { x with late := x.late + 1 })
  else if f.got.contains t.index then (s.cnt R.ingDup).modFrame t.exposure t.sensor (fun x => { x with dup := x.dup + 1 })
  else
    let s1 := (s.cnt R.ingTileOk).modFrame t.exposure t.sensor (fun x => { x with got := x.got ++ [t.index] })
    match s.stream f.stream with
    | none => s1
    | some x => if x.finished then s1
        else s1.arrive (unitsOf (k.targets t.sensor) f.stream t.index
          (unitHeader f.stream k.cls 0 t.index t.payload (t.exposure + t.sensor * 2 ^ 32) t.sec t.ns) t.payload)

/-- A frame may open: fewer than 16 are open and its stream is not refused (R325). -/
def State.mayOpen (s : State) (k : StreamClass) : Bool :=
  decide (s.svc.frames.length < 16) && s.createRefusal k.tenant k.cls 2 0 0 == 0

/-- A frame opens as a new stream of its class (R325). -/
def State.openFrame (s : State) (t : Tile) (k : StreamClass) : State :=
  let n := s.createStream k.cls k.tenant none []
  n.1.modSvc (fun v => { v with frames := v.frames ++ [⟨t.exposure, t.sensor, n.2, [], none, 0, 0, false⟩] })

/-- A tile that passed R324: of a closed frame, of an open one, or one that opens its frame or waits in the hold (R325). -/
def State.placeTile (s : State) (t : Tile) (k : StreamClass) : State :=
  if s.svc.closed.contains (t.exposure, t.sensor) then s.cnt R.ingLate
  else match s.frameOf t.exposure t.sensor with
    | some f => s.acceptTile t k f
    | none =>
      if s.mayOpen k && !s.svc.holdTiles.any (fun x => x.exposure == t.exposure && x.sensor == t.sensor) then
        let s1 := s.openFrame t k
        match s1.frameOf t.exposure t.sensor with
        | some f => s1.acceptTile t k f
        | none => s1
      else
        let s1 := s.when (!s.svc.holdTiles.any (fun x => x.exposure == t.exposure && x.sensor == t.sensor)) (fun u =>
          u.streamRefused .ing 0 13 k.tenant (s.createRefusal k.tenant k.cls 2 0 0))
        if min (s.fld R.ingHoldKib 12 0) 4096 * 1024 < natSum (s.svc.holdTiles.map (fun x => x.payload.length)) + t.payload.length
        then (s1.cnt R.ingHoldDrop).event .ing 0 1
        else s1.modSvc (fun v => { v with holdTiles := v.holdTiles ++ [t] })

/-- A tile whose addresses are the port's, in its class where R324 accepts it: none otherwise. -/
def State.tileClass (s : State) (t : Tile) : Option StreamClass :=
  match s.sensorClass t.sensor with
  | some k => if tileGood t k then some k else none
  | none => none

/-- FRAME_OPEN: an entry has freed; the first waiting frame that may open does, and its tiles are accepted (R325). -/
def execFrameOpen (s : State) : Res :=
  .next (match s.svc.holdTiles.find? (fun t => match s.sensorClass t.sensor with
      | some k => s.mayOpen k
      | none => false) with
    | none => s
    | some t => match s.sensorClass t.sensor with
      | none => s
      | some k =>
        let mine (x : Tile) : Bool := x.exposure == t.exposure && x.sensor == t.sensor
        let s1 := (s.modSvc (fun v => { v with holdTiles := v.holdTiles.filter (fun x => !mine x) })).openFrame t k
        s1.each (s.svc.holdTiles.filter mine) (fun u x => match u.frameOf x.exposure x.sensor with
          | some f => u.acceptTile x k f
          | none => u))

/-- The missing units of a frame (R326). -/
def missingUnits (k : StreamClass) (f : OpenFrame) (got : List Nat) : List Unit_ :=
  ((List.range k.tiles).filter (fun i => !got.contains i)).flatMap (fun i =>
    unitsOf (k.targets f.sensor) f.stream i (unitHeader f.stream k.cls 1 i [] (f.exposure + f.sensor * 2 ^ 32) 0 0) [])

/-- FRAME_WINDOW_CLOSE: in the open phase of the tick that lies the class's window after the frame's first delivery, each
tile index never delivered becomes a missing unit (R326). A tile not yet visible in this tick is late. -/
def execFrameWindowClose (exposure sensor : Nat) (s : State) : Res :=
  .next (match s.frameOf exposure sensor with
    | none => s
    | some f => match s.sensorClass sensor, f.first with
      | some k, some t0 =>
        if f.closing || !(s.tick.phase == .opening || s.tick.phase == .waiting) || decide (s.tick.count < t0 + k.window) then s
        else
          let lateU := s.svc.arriving.filter (fun u => u.stream == f.stream)
          let got := f.got.filter (fun i => !lateU.any (fun u => u.index == i))
          let live := match s.stream f.stream with
            | some x => !x.finished
            | none => false
          let n := lateU.length
          ((s.when (n != 0) (fun t => t.cnt R.ingLate 0 n)).modFrame exposure sensor (fun x => { x with
            closing := true, got := got, late := x.late + n })).modSvc (fun v => { v with
              arriving := v.arriving.filter (fun u => u.stream != f.stream),
              units := if live then v.units ++ missingUnits k f got else v.units })
      | _, _ => s)

end Sys2Proof.Machine
end

