-- ==== Sys2Proof/Machine/Power.lean ====
section
/-!
DEFINITION. Clocks, rails and steering (14 R373 to R379), AVSBus (R365, R366), thermal and power limits (R381 to R383) and
doze (R384 to R391).
-/
namespace Sys2Proof.Machine

/-- The floor clock in MHz for a schedule clock and a DROOP_RES in 0.1% (R374); 900 with no image. -/
def floorFor (sched res : Nat) : Nat := max 900 ((sched * (1000 + res) + 24999) / 25000 * 25)

/-- f_floor of the loaded image (R374). -/
def State.floorMhz (s : State) : Nat :=
  if s.image.loaded then floorFor s.image.fSched (s.fld R.pwrDroop 7 0) else 900

/-- The fused voltage of a clock (R373). -/
def vf (q f : Nat) : Nat := Config.vfTable q f % 1024

/-- A voltage write over AVSBus (R365); the failures of the transaction before it count no longer (R366). -/
def State.avsWrite (s : State) (q mv : Nat) : State :=
  ((s.modQuarter q (fun x => { x with set := mv })).modPower (fun p => { p with avsFails := mput p.avsFails q 0 })).send (.avs q mv)

/-- A schedule runs (Table 14-4). -/
def State.running (s : State) : Bool := s.tick.state == .run || s.tick.state == .stretch

/-- A step up: the higher voltage first; the clock follows once it is reached (R376). -/
def State.stepUp (s : State) (q : Nat) : State :=
  let x := s.quarter q
  if x.avsStopped ∨ x.raiseTo.isSome = true ∨ 1850 ≤ x.f then s
  else (s.modQuarter q (fun y => { y with raiseTo := some (y.f + 25) })).avsWrite q (vf q (x.f + 25))

/-- A step down, taken in the open phase of the next tick, not below `low`; one that finds a step up still waiting for its voltage
takes that step back (R375, R376). -/
def State.stepDown (s : State) (q low : Nat) : State :=
  let x := s.quarter q
  if x.avsStopped then s
  else if x.raiseTo.isSome then (s.modQuarter q (fun y => { y with raiseTo := none })).avsWrite q (vf q x.f)
  else if x.f ≤ low then s
  else s.modQuarter q (fun y => { y with lowerTo := some (max low (y.f - 25)) })

/-- The clock is lowered, then the voltage (R376). -/
def State.lowerNow (s : State) (q : Nat) : State :=
  match (s.quarter q).lowerTo with
  | none => s
  | some f => (s.modQuarter q (fun y => { y with f := f, lowerTo := none })).avsWrite q (vf q f)

/-- The clock is raised where the regulator has reported its voltage (R376). -/
def State.raiseNow (s : State) (q : Nat) : State :=
  let x := s.quarter q
  match x.raiseTo with
  | none => s
  | some f => if x.readback < vf q f then s else s.modQuarter q (fun y => { y with f := f, raiseTo := none })

/-- Clock changes of an open phase (R376). -/
def State.applySteer (s : State) : State := s.each [0, 1, 2, 3] (fun t q => (t.lowerNow q).raiseNow q)

/-- Every quarter is at f_floor or above (R378). -/
def State.atFloor (s : State) : Bool := [0, 1, 2, 3].all (fun q => decide (s.floorMhz ≤ (s.quarter q).f))

/-- Raises towards f_floor for a start or a resume, one step at a time (R378). -/
def State.seekFloor (s : State) : State :=
  s.each [0, 1, 2, 3] (fun t q => if (t.quarter q).f < t.floorMhz then t.stepUp q else t)

/-- Before a body, no quarter runs below its floor (R374, R378): one still below is brought there. -/
def State.forceFloor (s : State) : State :=
  s.each [0, 1, 2, 3] (fun t q => if (t.quarter q).f < t.floorMhz then
    (t.modQuarter q (fun y => { y with f := t.floorMhz, raiseTo := none, lowerTo := none })).avsWrite q (vf q t.floorMhz) else t)

/-- The quarter's slack in ns: the least over its clusters with live contexts, none with no live context (R375). -/
def State.quarterSlack (s : State) (q : Nat) : Option Nat :=
  ((s.clusters.filter (fun p => p.1 / 128 == q)).filterMap (fun p => p.2.slackNow)).foldl
    (fun b x => match b with
      | none => some x
      | some y => some (min x y)) none

/-- Steering of a quarter at a committing seal (R375, R377, Table 14-4). -/
def State.steerQuarter (s : State) (q : Nat) : State :=
  let x := s.quarter q
  let sl := s.quarterSlack q
  let len := s.rd R.tckLen
  let s1 := s.modQuarter q (fun y => { y with slack := sl.getD y.slack, noDown := y.noDown - 1 })
  if s.flag R.pwrCtl 0 = false then s1
  else
    let down (t : State) : State := if x.noDown ≠ 0 then t else t.stepDown q s.floorMhz
    if s.power.throttle then down s1
    else match sl with
      | none => down s1
      | some v =>
        if v * 1000 < s.fld R.pwrSlackTgt 7 0 * len then s1.stepUp q
        else if (s.fld R.pwrSlackTgt 7 0 + s.fld R.pwrSlackTgt 15 8) * len ≤ v * 1000 then down s1
        else s1

/-- Quarters that an OVERRUN of the failed attempt charged (R377). -/
def State.noteOverruns (s : State) : State :=
  s.each s.tick.faults (fun t f => match f.unit with
    | .cluster c => if f.code = 1 then t.modQuarter (c / 128) (fun y => { y with overran := true, noDown := 1024 }) else t
    | _ => t)

/-- The step up that an earlier OVERRUN asks for, at a seal of any verdict (R377). -/
def State.overrunSteps (s : State) : State :=
  s.each [0, 1, 2, 3] (fun t q => if (t.quarter q).overran then
    (t.modQuarter q (fun y => { y with overran := false })).stepUp q else t)

/-- IDLE_STEP_DOWN: while no schedule runs, every quarter steps down to 900 MHz, one step per 1 ms (R378). -/
def execIdleStepDown (s : State) : Res :=
  .next (if s.running || s.tick.starting != 0 then s
    else s.each [0, 1, 2, 3] (fun t q => (t.stepDown q 900).lowerNow q))

/-! ### AVSBus (R366) -/

/-- The highest 25 MHz step a voltage supports, at most `f` (R366). -/
def stepFor (n q f mv : Nat) : Nat :=
  match n with
  | 0 => f
  | n + 1 => if vf q f ≤ mv ∨ f ≤ 900 then f else stepFor n q (f - 25) mv

/-- AVSBUS_FAILURE: a transaction fails; the third failure holds the rail at its last acknowledged voltage, caps the clock
and stops steering of the rail (R366). -/
def execAvsbusFailure (rail : Fin 5) (s : State) : Res :=
  let n := mget 0 s.power.avsFails rail + 1
  let s1 : State := { s with power := { s.power with avsFails := mput s.power.avsFails rail n } }
  .next (if n < 3 then s1
    else
      let s2 := ((s1.modPower (fun p => { p with avsFault := true })).event .pwr 0 3).violate .pwr 0 ⟨0x17, 13, 0, 1, rail⟩
      if rail.val = 4 then s2
      else s2.modQuarter rail (fun x => { x with
        set := x.readback, raiseTo := none, lowerTo := none, avsStopped := true, f := stepFor 40 rail x.f x.readback }))

/-- PWR.CMD.avs_retry: steering of the stopped rails goes on (R366). -/
def State.avsRetry (s : State) : State :=
  (s.modPower (fun p => { p with avsFault := false, avsFails := [] })).each [0, 1, 2, 3] (fun t q =>
    t.modQuarter q (fun x => { x with avsStopped := false }))

/-! ### Droop (R379) -/

/-- DROOP: a detector sees the supply fall below the threshold; the clock stretches (R379). -/
def execDroop (q : Fin 4) (s : State) : Res :=
  .next (if (s.quarter q).stretched then s
    else (s.cnt R.pwrDroopCnt 0 1 q).modQuarter q (fun x => { x with stretched := true }))

/-- DROOP_END: every detector has read above the threshold for 32 clk (R379). -/
def execDroopEnd (q : Fin 4) (s : State) : Res := .next (s.modQuarter q (fun x => { x with stretched := false }))

/-! ### Thermal and power limits (R381 to R383) -/

/-- Throttling as its two causes say; with no schedule running the clocks go to 900 MHz (Table 14-4). -/
def State.setThrottle (s : State) (hot capped : Bool) : State :=
  let t := hot || capped
  let s1 := s.modPower (fun p => { p with hot := hot, capped := capped, throttle := t })
  let s2 := if t && !s.power.throttle then s1.event .pwr 0 1 else s1
  if t && !s.running then s2.each [0, 1, 2, 3] (fun u q =>
    if (u.quarter q).avsStopped then u
    else (u.modQuarter q (fun x => { x with f := 900, raiseTo := none, lowerTo := none })).avsWrite q (vf q 900)) else s2

/-- The hottest of the sensors from `i`, `n` of them, in 0.1 °C. -/
def hottest (temps : List Nat) (i n : Nat) : Nat := ((temps.drop i).take n).foldl max 0

/-- PWR.STS.thermal_crit: the hottest sensor at 110 °C with 2 °C of hysteresis, or too few sensors (R381, Table 15-2). -/
def State.setCrit (s : State) (crit : Bool) : State :=
  let s1 := s.modPower (fun p => { p with thermalCrit := crit })
  if crit && !s.power.thermalCrit then s1.event .pwr 0 2 else s1

/-- THERMAL_THRESHOLD: the 36 junction sensors in 0.1 °C, 8q + i and then the hub's (R381, Table 14-4). -/
def execThermalThreshold (temps : List Nat) (s : State) : Res :=
  let m := hottest temps 0 36
  let s1 := s.each [0, 1, 2, 3] (fun t q => t.modQuarter q (fun x => { x with temp := hottest temps (8 * q) 8 }))
  let s2 := s1.setThrottle (decide (1050 ≤ m) || (s.power.hot && decide (1030 ≤ m))) s.power.capped
  .next (s2.setCrit (decide (1100 ≤ m) || (s.power.thermalCrit && decide (1080 ≤ m)) || s.island.sensorCrit))

/-- TELEMETRY_READ: voltages read back over AVSBus in mV and the core regulators' READ_POUT in W, every 1 ms (R365, R383).
A value not read keeps its last one. -/
def execTelemetryRead (vout pout : List Nat) (s : State) : Res :=
  let s1 := s.each vout.zipIdx (fun t v => if v.2 < 4 then t.modQuarter v.2 (fun x => { x with readback := v.1 }) else t)
  let p := pout ++ s.power.pout.drop pout.length
  let cap := s.fld R.pwrPcap 11 0
  let above := cap != 0 && decide (cap < natSum p)
  let o := if above then s.power.capOver + 1 else 0
  let u := if natSum p < cap then s.power.capUnder + 1 else 0
  let s2 : State := { s1 with power := { s1.power with pout := p, capOver := o, capUnder := u } }
  let s3 := if pout.length < s.power.pout.length then s2.violate .pwr 0 ⟨0x17, 13, 0, 1, pout.length⟩ else s2
  .next (s3.setThrottle s.power.hot (cap != 0 && (decide (10 ≤ o) || (s.power.capped && decide (u < 100)))))

/-! ### Doze (R384 to R391) -/

/-- The power state changes: the page event (Table 17-9). -/
def State.powerState (s : State) (x : PowerState) : State := (s.modPower (fun p => { p with state := x })).event .pwr 0 4

/-- From the start of doze entry to the end of the wake (R449). -/
def State.dozing (s : State) : Bool := s.power.state == .entering || s.power.state == .doze || s.power.state == .waking

/-- A load chain is active (R384). -/
def State.loadActive (s : State) : Bool := s.load.chains.any (fun p => p.2.running) || s.load.verdict == 1

/-- PWR.CMD.doze may be obeyed (R384): before a start, the keystone is the device that TCK.KS_CFG names. -/
def State.mayDoze (s : State) : Bool :=
  s.tick.state != .stretch && s.power.state == .active && !s.loadActive && s.time.state != .qualifying &&
    (s.tick.keystone || (s.tick.state == .idle && s.image.loaded && bits (s.inForce R.tckKsCfg) 10 0 == s.self))

/-- The device receives the doze notice: entry begins once the span is in HOLD or IDLE (R385). -/
def State.enterDoze (s : State) : State :=
  if s.power.state = .active ∧ (s.tick.state = .hold ∨ s.tick.state = .idle) then
    (s.cnt R.pwrDozeCnt).powerState .entering else s

/-- The keystone's service cores send the doze notice to every device, this one among them (R385). -/
def State.startDoze (s : State) : State :=
  ((s.modPower (fun p => { p with dozeAsked := false })).tellAll 0xD07C 0).enterDoze

/-- PWR.CMD.doze accepted: STOP at the next committing seal in RUN, at once in HOLD or IDLE (R384). -/
def State.askDoze (s : State) : State :=
  if s.tick.state = .run then (s.modPower (fun p => { p with dozeAsked := true })).modTick (fun t => { t with stopAsked := true })
  else s.startDoze

/-- A wake starts: every port in low-power idle signals its exit (R388, R389). -/
def State.startWake (s : State) (src : Nat) : State :=
  let s1 := (s.modPower (fun p => { p with wakeSrc := src, wakeHeld := [], woken := true, wakeNs := p.uptime })).powerState .waking
  s1.each ((List.range 16).filter (fun p => (s.port p).lpi)) (fun t p =>
    (t.send (.exitSignal p)).modPort p (fun x => { x with lpi := false }))

/-- A wake source fires: bits 0 to 3 of Table 14-6 where WAKE_EN enables them, 4 for a neighbour's exit signal. During entry
it is held; two at once record the lowest (R388, R391). -/
def State.wake (s : State) (src : Nat) : State :=
  if src < 4 ∧ s.flag R.pwrWakeEn src = false then s
  else match s.power.state with
    | .doze => s.startWake src
    | .entering => s.modPower (fun p => { p with wakeHeld := addOnce p.wakeHeld src })
    | .waking => if s.power.uptime = s.power.wakeNs then s.modPower (fun p => { p with wakeSrc := min p.wakeSrc src }) else s
    | _ => s

/-- DOZE_ENTRY_COMPLETE: rails at their doze values, ports in low-power idle (Table 14-5); a held wake source starts its
wake (R391). -/
def execDozeEntryComplete (s : State) : Res :=
  .next (if s.power.state ≠ .entering then s
    else
      let s1 := (s.each [0, 1, 2, 3] (fun t q => (t.modQuarter q (fun x => { x with raiseTo := none, lowerTo := none })).avsWrite q 620)).send (.avs 4 550)
      let s2 := s1.each ((List.range 16).filter (fun p => (s.port p).state == .up && !(s.port p).ethernet)) (fun t p =>
        t.modPort p (fun x => { x with lpi := true }))
      let s3 := s2.powerState .doze
      match s.power.wakeHeld with
      | [] => s3
      | n :: l => s3.startWake (l.foldl min n))

/-- EXIT_SIGNAL: a neighbour's port leaves low-power idle (R388). -/
def execExitSignal (port : Fin 16) (s : State) : Res := .next ((s.modPort port (fun x => { x with lpi := false })).wake 4)

/-- The clusters and rails of a wake that completes (Table 14-7). -/
def State.wakeRails (s : State) : State :=
  ((s.send (.avs 4 750)).each [0, 1, 2, 3] (fun t q =>
    (t.modQuarter q (fun x => { x with f := s.floorMhz })).avsWrite q (vf q s.floorMhz))).powerState .active

/-- TILE: a datagram on an Ethernet-mode port that is up. One the device takes no tiles from is dropped and counted, a malformed
one counted (R323, R324); an accepted one is placed (R325), and is a wake source (R388). -/
def execTile (port : Fin 16) (t : Tile) (s : State) : Res :=
  .next (if !(s.port port).ethernet || !(s.port port).ethUp then s
    else if bit (s.inForce R.spnRole) 2 && s.tileAddressed port t then
      match s.tileClass t with
      | some k => (s.placeTile t k).wake 2
      | none => s.cnt R.ingBad
    else (s.cnt R.ingDrop).cnt R.prtEthDrop port)

end Sys2Proof.Machine
end

