-- ==== Sys2Proof/Machine/Float.lean ====
section
/-!
DEFINITION. Number formats and arithmetic of the thread units and the engines: IEEE 754 binary32 rounded to nearest
even (R108), the narrow formats and conversions (R131 to R135, R110), the transcendental functions (R109), and
stochastic rounding (R136, R137). A finite value is a sign, an integer and a power of two, so that every sum and
product is exact before its one rounding.
-/
namespace Sys2Proof.Machine

/-- The canonical NaN (R108). -/
def qnan : Nat := 0x7FC00000

/-- A decoded value: NaN, an infinity, or (−1)^neg × m × 2^e. -/
inductive FVal where
  | nan
  | inf (neg : Bool)
  | fin (neg : Bool) (m : Nat) (e : Int)
deriving DecidableEq, Repr

/-- A float format (Table 05-2): exponent and mantissa widths, bias, and whether its top codes are infinity and NaN as in
IEEE 754; E4M3 has no infinity and one NaN code. -/
structure Fmt where
  ew : Nat
  mw : Nat
  bias : Nat
  ieee : Bool
deriving DecidableEq, Repr

def fmtE4M3 : Fmt := ⟨4, 3, 7, false⟩
def fmtE5M2 : Fmt := ⟨5, 2, 15, true⟩
def fmtBF16 : Fmt := ⟨8, 7, 127, true⟩
def fmtHalf : Fmt := ⟨5, 10, 15, true⟩
def fmtF32 : Fmt := ⟨8, 23, 127, true⟩

/-- The power of two of a format's least subnormal. -/
def Fmt.emin (f : Fmt) : Int := 1 - (f.bias : Int) - f.mw

/-- The bits of a format's infinity (R132), or of E4M3's NaN. -/
def Fmt.top (f : Fmt) : Nat := if f.ieee then (2 ^ f.ew - 1) * 2 ^ f.mw else 2 ^ (f.ew + f.mw) - 1

/-- The value that bits spell in a format (R132). -/
def Fmt.decode (f : Fmt) (x : Nat) : FVal :=
  let neg := bit x (f.ew + f.mw)
  let a := x % 2 ^ (f.ew + f.mw)
  let m := a % 2 ^ f.mw
  let e := a / 2 ^ f.mw
  if f.ieee && a == f.top then .inf neg
  else if a ≥ f.top then .nan
  else if e = 0 then .fin neg m f.emin
  else .fin neg (m + 2 ^ f.mw) (f.emin + e - 1)

/-- Number of bits of `m`. -/
def bitLen (m : Nat) : Nat := if m = 0 then 0 else Nat.log2 m + 1

/-- m × 2^e rounded to nearest even at precision `p` bits with least exponent `emin`: significand and exponent. -/
def roundNE (p : Nat) (emin : Int) (m : Nat) (e : Int) : Nat × Int :=
  let t : Int := max emin (e + bitLen m - p)
  if t ≤ e then (m * 2 ^ (e - t).toNat, t)
  else
    let d := (t - e).toNat
    let q := m / 2 ^ d
    let r := m % 2 ^ d
    let half := 2 ^ (d - 1)
    (if half < r ∨ (r = half ∧ q % 2 = 1) then q + 1 else q, t)

/-- Magnitude bits of m × 2^e in a format, rounded to nearest even, before overflow is looked at. -/
def Fmt.mag (f : Fmt) (m : Nat) (e : Int) : Nat :=
  let r := roundNE (f.mw + 1) f.emin m e
  (r.2 - f.emin).toNat * 2 ^ f.mw + r.1

/-- A format's NaN output (Table 05-3). -/
def Fmt.nanBits (f : Fmt) : Nat := if f.ieee then f.top + 2 ^ (f.mw - 1) else f.top

/-- The bits of a value in a format, rounded to nearest even; overflow as Table 05-3 (R134). -/
def Fmt.encode (f : Fmt) (v : FVal) : Nat :=
  match v with
  | .nan => f.nanBits
  | .inf neg => b2n neg * 2 ^ (f.ew + f.mw) + (if f.ieee then f.top else f.top - 1)
  | .fin neg m e =>
    let a := if m = 0 then 0 else f.mag m e
    let a := if f.ieee then min a f.top else min a (f.top - 1)
    b2n neg * 2 ^ (f.ew + f.mw) + a

/-- fbits: the value of 32 bits (R101). -/
def fbits (x : Nat) : FVal := fmtF32.decode x

/-- ubits: the 32 bits of a value, rounded once. -/
def ubits (v : FVal) : Nat := fmtF32.encode v

/-- A signed integer times 2^e, as a value; an exact zero takes sign `zneg`. -/
def ofInt (x : Int) (e : Int) (zneg : Bool) : FVal :=
  if x = 0 then .fin zneg 0 e else .fin (decide (x < 0)) x.natAbs e

/-- The signed integer of a finite value at exponent `t`, at most its own exponent. -/
def atExp (neg : Bool) (m : Nat) (e t : Int) : Int :=
  let a : Int := m * 2 ^ (e - t).toNat
  if neg then -a else a

/-- The exact sum of two values (before rounding); an exact zero sum is +0 unless both are negative zeros. -/
def addV (x y : FVal) : FVal :=
  match x, y with
  | .nan, _ => .nan
  | _, .nan => .nan
  | .inf a, .inf b => if a = b then .inf a else .nan
  | .inf a, _ => .inf a
  | _, .inf b => .inf b
  | .fin a m e, .fin b n f =>
    let t := min e f
    ofInt (atExp a m e t + atExp b n f t) t (a && b && m == 0 && n == 0)

/-- The exact product of two values. -/
def mulV (x y : FVal) : FVal :=
  match x, y with
  | .nan, _ => .nan
  | _, .nan => .nan
  | .inf a, .inf b => .inf (a != b)
  | .inf a, .fin b m _ => if m = 0 then .nan else .inf (a != b)
  | .fin a m _, .inf b => if m = 0 then .nan else .inf (a != b)
  | .fin a m e, .fin b n f => .fin (a != b) (m * n) (e + f)

/-- fadd, fmul and ffma: the binary32 result rounded to nearest even, `ffma` once (R101, R108). -/
def fadd (x y : Nat) : Nat := ubits (addV (fbits x) (fbits y))
def fmul (x y : Nat) : Nat := ubits (mulV (fbits x) (fbits y))
def ffma (x y z : Nat) : Nat := ubits (addV (mulV (fbits x) (fbits y)) (fbits z))

/-- A binary32 with its sign bit inverted. -/
def fneg (x : Nat) : Nat := if bit x 31 then x - 2 ^ 31 else x + 2 ^ 31

/-- A binary32 with its sign bit cleared. -/
def fabs (x : Nat) : Nat := x % 2 ^ 31

/-- Three-way order of two values that are not NaN; −0 and +0 are equal. -/
def cmpV (x y : FVal) : Ordering :=
  match x, y with
  | .inf a, .inf b => if a = b then .eq else if a then .lt else .gt
  | .inf a, _ => if a then .lt else .gt
  | _, .inf b => if b then .gt else .lt
  | .fin a m e, .fin b n f => compare (atExp a m e (min e f)) (atExp b n f (min e f))
  | _, _ => .eq

/-- A binary32 is NaN. -/
def isNan (x : Nat) : Bool := fbits x == .nan

/-- FMIN and FMAX (R108): the non-NaN operand where one is NaN; −0 below +0. -/
def fminmax (wantMax : Bool) (x y : Nat) : Nat :=
  if isNan x && isNan y then qnan
  else if isNan x then y
  else if isNan y then x
  else match cmpV (fbits x) (fbits y) with
    | .lt => if wantMax then y else x
    | .gt => if wantMax then x else y
    | .eq => if wantMax then (if bit x 31 then y else x) else (if bit x 31 then x else y)

/-- FCMP's conditions (Table 04-6). -/
def fcmp (cond x y : Nat) : Bool :=
  let un := isNan x || isNan y
  let o := cmpV (fbits x) (fbits y)
  match cond with
  | 0 => !un && o == .eq
  | 1 => un || o != .eq
  | 2 => !un && o == .lt
  | 3 => !un && o != .gt
  | 4 => !un && o == .gt
  | 5 => !un && o != .lt
  | 6 => !un
  | _ => un

/-- 2^k ÷ m to `k` bits with a sticky last bit: rounding it is rounding the exact quotient. -/
def divSticky (a b : Nat) : Nat := 2 * (a / b) + b2n (a % b != 0)

/-- RECIP, correctly rounded to nearest even; special inputs of Table 04-8 (R109). -/
def recip (x : Nat) : Nat :=
  match fbits x with
  | .nan => qnan
  | .inf neg => b2n neg * 2 ^ 31
  | .fin neg m e =>
    if m = 0 then ubits (.inf neg)
    else ubits (.fin neg (divSticky (2 ^ 80) m) (-81 - e))

/-- RSQRT, correctly rounded to nearest even; special inputs of Table 04-8 (R109). -/
def rsqrt (x : Nat) : Nat :=
  match fbits x with
  | .nan => qnan
  | .inf neg => if neg then qnan else 0
  | .fin neg m e =>
    if m = 0 then ubits (.inf neg)
    else if neg then qnan
    else
      let odd := e % 2 != 0
      let m' := if odd then 2 * m else m
      let e' := if odd then e - 1 else e
      let q := 2 ^ 160 / m'
      let r := Nat.sqrt q
      let exact := r * r == q && 2 ^ 160 % m' == 0
      ubits (.fin false (2 * r + b2n (!exact)) (-81 - e' / 2))

/-- ln 2 in 96 fraction bits. -/
def ln2 : Nat := 0xB17217F7D1CF79ABC9E3B398

/-- The sum of the first terms of e^z's series from term `t`, number `k`, on; all in 96 fraction bits. -/
def expTerms (n k t z : Nat) : Nat :=
  match n with
  | 0 => 0
  | n + 1 => t + expTerms n (k + 1) (t * z / 2 ^ 96 / (k + 1)) z

/-- 2^v of a finite value below 256 in size to more than 60 bits, from the series of e^(f ln 2) for its fraction f; out of that
range +0 or +inf. -/
def exp2Near (neg : Bool) (m : Nat) (e : Int) : FVal :=
  if (8 : Int) < e + bitLen m then (if neg then .fin false 0 0 else .inf false)
  else
    let a : Int := if -96 ≤ e then m * 2 ^ (e + 96).toNat else m / 2 ^ (-96 - e).toNat
    let x := if neg then -a else a
    .fin false (expTerms 32 0 (2 ^ 96) ((x % 2 ^ 96).toNat * ln2 / 2 ^ 96)) (x / 2 ^ 96 - 96)

/-- The first `n` fraction bits of log₂ (y ÷ 2^127), y ÷ 2^127 in [1, 2), put after `acc`: a square of 2 or more has the bit 1. -/
def log2Bits (n y acc : Nat) : Nat :=
  match n with
  | 0 => acc
  | n + 1 =>
    let q := y * y / 2 ^ 127
    if 2 ^ 128 ≤ q then log2Bits n (q / 2) (2 * acc + 1) else log2Bits n q (2 * acc)

/-- log₂ of m × 2^e, m not 0, from its first 64 fraction bits. -/
def log2Near (m : Nat) (e : Int) : FVal :=
  let l := bitLen m
  ofInt ((e + l - 1) * 2 ^ 64 + log2Bits 64 (m * 2 ^ (128 - l)) 0) (-64) false

/-- The place of 32 bits in the order of binary32 values, 0 for both zeros. -/
def place (x : Nat) : Int := if bit x 31 then -((x % 2 ^ 31 : Nat) : Int) else x

/-- The bits at a place. -/
def atPlace (c : Int) : Nat := if c < 0 then 2 ^ 31 + c.natAbs else c.toNat

/-- The value at a place lies within 2 ulp of (−1)^neg × m × 2^e (R109): both in units of 2^t. -/
def twoUlp (neg : Bool) (m : Nat) (e : Int) (c : Int) : Bool :=
  let a := c.natAbs
  let g : Nat × Int := if a < 2 ^ 23 then (a, -149) else (a % 2 ^ 23 + 2 ^ 23, a / 2 ^ 23 - 150)
  let ulp : Int := max (-149) (e + bitLen m - 24)
  let t := min e (min g.2 ulp)
  decide ((atExp (decide (c < 0)) g.1 g.2 t - atExp neg m e t).natAbs ≤ 2 * 2 ^ (ulp - t).toNat)

/-- A place whose value lies within 2 ulp of a finite value, among those from place `lo` on, as `pick` says (R109). -/
def within (v : FVal) (lo : Int) (pick : BitVec 32) : Int :=
  let c := place (ubits v)
  match v with
  | .fin neg m e =>
    let l := ((List.range 9).map (fun k => c + k - 4)).filter (fun x => decide (lo ≤ x) && twoUlp neg m e x)
    l.getD (pick.toNat % l.length) c
  | .inf _ | .nan => c

/-- EXP2 (R109): a value within 2 ulp of the exact one, a fixed function of the input that the spec leaves to the device (log 7). -/
def fexp2 (x : Nat) : Nat :=
  match fbits x with
  | .nan => qnan
  | .inf neg => if neg then 0 else 0x7F800000
  | .fin neg m e =>
    if m = 0 then 0x3F800000 else min (atPlace (within (exp2Near neg m e) 0 (Config.exp2 (BitVec.ofNat 32 x)))) 0x7F800000

/-- LOG2 (R109): a value within 2 ulp of the exact one, a fixed function of the input that the spec leaves to the device (log 7). -/
def flog2 (x : Nat) : Nat :=
  match fbits x with
  | .nan => qnan
  | .inf neg => if neg then qnan else 0x7F800000
  | .fin neg m e =>
    if m = 0 then 0xFF800000 else if neg then qnan
    else atPlace (within (log2Near m e) (-0x7F800000) (Config.log2 (BitVec.ofNat 32 x)))

/-- A TFN function by its selector x (R109). -/
def tfn (x a : Nat) : Nat :=
  match x with
  | 0 => fexp2 a
  | 1 => flog2 a
  | 2 => recip a
  | _ => rsqrt a

/-- A value rounded to the nearest even integer; infinities to ±2^64, NaN to 0. -/
def toInt (v : FVal) : Int :=
  match v with
  | .nan => 0
  | .inf neg => if neg then -(2 ^ 64) else 2 ^ 64
  | .fin neg m e =>
    if 70 < e then (if m = 0 then 0 else if neg then -(2 ^ 64) else 2 ^ 64)
    else
      let r := roundNE (bitLen m + 71) 0 m e
      let a : Int := r.1 * 2 ^ r.2.toNat
      if neg then -a else a

/-- `x` held between `lo` and `hi`. -/
def clampI (lo hi x : Int) : Int := max lo (min hi x)

/-- An integer as a binary32, rounded to nearest even. -/
def ofIntF (x : Int) : Nat := ubits (ofInt x 0 false)

/-- Every NaN read or written is canonical (R133, R134). -/
def canonNan (x : Nat) : Nat := if isNan x then qnan else x

/-- Widths of the element types in bits (Table 05-1). -/
def typeBits (t : Nat) : Nat :=
  match t with
  | 0 | 1 | 4 => 8
  | 2 | 3 => 16
  | 5 => 4
  | _ => 32

/-- The float format of a type code 0 to 3. -/
def typeFmt (t : Nat) : Fmt :=
  match t with
  | 0 => fmtE4M3
  | 1 => fmtE5M2
  | 2 => fmtBF16
  | _ => fmtHalf

/-- An element of a type read as FP32 (R133). -/
def toF32 (t x : Nat) : Nat :=
  match t with
  | 4 => ofIntF (sext 8 x)
  | 5 => ofIntF (sext 4 x)
  | 6 => canonNan (x % 2 ^ 32)
  | 7 => ofIntF (sext 32 x)
  | t => ubits ((typeFmt t).decode (x % 2 ^ typeBits t))

/-- FP32 converted to a type (R134, Table 05-3). -/
def ofF32 (t x : Nat) : Nat :=
  match t with
  | 4 => wrap 8 (clampI (-128) 127 (toInt (fbits x)))
  | 5 => wrap 4 (clampI (-8) 7 (toInt (fbits x)))
  | 6 => canonNan x
  | 7 => wrap 32 (clampI (-2147483648) 2147483647 (toInt (fbits x)))
  | t => (typeFmt t).encode (fbits x)

/-- The codes CVT defines (Table 04-9). -/
def cvtDefined (c : Nat) : Bool := decide (c < 4) || (decide (8 ≤ c) && decide (c < 16))

/-- CVT by its code (R110, Table 04-9). -/
def cvt (c x : Nat) : Nat :=
  match c with
  | 0 => ofF32 7 x
  | 1 => (clampI 0 4294967295 (toInt (fbits x))).toNat
  | 2 => ofIntF (sext 32 x)
  | 3 => ofIntF x
  | 8 => ofF32 2 x
  | 9 => toF32 2 x
  | 10 => ofF32 3 x
  | 11 => toF32 3 x
  | 12 => ofF32 0 x
  | 13 => toF32 0 x
  | 14 => ofF32 1 x
  | _ => toF32 1 x

/-- One draw of the stochastic-rounding generator: the new state and the 32 bits drawn (R136). -/
def srDraw (st : BitVec 64) : BitVec 64 × Nat :=
  let a := st ^^^ (st <<< 13)
  let b := a ^^^ (a >>> 7)
  let c := b ^^^ (b <<< 17)
  (c, c.toNat / 2 ^ 32)

/-- The initial generator state of a seed (R136). -/
def srInit (seed : BitVec 64) : BitVec 64 := if seed = 0#64 then 0x9E3779B97F4A7C15#64 else seed

/-- Whether a magnitude m × 2^e exceeds the largest finite magnitude of a type 0 to 5. -/
def beyond (t m : Nat) (e : Int) : Bool :=
  let big : Nat × Int := match t with
    | 4 => (127, 0)
    | 5 => (7, 0)
    | t => match (typeFmt t).decode ((typeFmt t).top - 1) with
      | .fin _ n f => (n, f)
      | _ => (0, 0)
  decide (atExp false big.1 big.2 (min e big.2) < atExp false m e (min e big.2))

/-- SROUND to type `t` of FP32 `v` with draw `d` (R137). −128 and −8 are in the integer types' finite range. -/
def sround (t v d : Nat) : Nat :=
  match fbits v with
  | .fin neg m e =>
    if beyond t m e && !(neg && (t == 4 || t == 5) &&
          decide (atExp false m e (min e 0) ≤ atExp false (if t = 4 then 128 else 8) 0 (min e 0))) then
      toF32 t (ofF32 t v)
    else
      let p := if t = 4 ∨ t = 5 then 0 else (typeFmt t).mw + 1
      let u : Int := if t = 4 ∨ t = 5 then 0 else max (typeFmt t).emin (e + bitLen m - p)
      if u ≤ e then (if (t == 4 || t == 5) && m == 0 then 0 else v)
      else
        let s := (u - e).toNat
        let lo := m / 2 ^ s
        let f := (m % 2 ^ s) * 2 ^ 32 / 2 ^ s
        let q := if d < f then lo + 1 else lo
        if q = 0 then (if t = 4 ∨ t = 5 then 0 else b2n neg * 2 ^ 31) else ubits (.fin neg q u)
  | _ => toF32 t (ofF32 t v)

/-- The exact sum of a group of values (R140): NaN for a NaN or for opposite infinities. -/
def sumV (l : List FVal) : FVal := l.foldl addV (.fin false 0 0)

end Sys2Proof.Machine
end

