-- ==== Sys2Proof/Machine/Gate.lean ====
section
/-!
DEFINITION. What the safety island shares with the isolation checks (15 R398, R399, R402, R408): the causes of the
results-valid gate, fault records, and a disagreement of the isolation comparators.
-/
namespace Sys2Proof.Machine

/-! ### Gate causes (Table 15-5) and fault codes (Table 15-8) -/

def gReset : Nat := 0
def gReboot : Nat := 1
def gUndervoltage : Nat := 2
def gClock : Nat := 3
def gOscillator : Nat := 4
def gWatchdog : Nat := 5
def gComparators : Nat := 6
def gSelfCheck : Nat := 7
def gRetention : Nat := 8

/-- Action bits of a record (Table 15-8). -/
def actGate : Nat := 1
def actLine : Nat := 2
def actKill : Nat := 4
def actAlert : Nat := 8
def actReboot : Nat := 16

/-- The attempt samples the gate from the start of the open phase until seal start (R398). -/
def State.sampling (s : State) : Bool :=
  match s.tick.phase with
  | .opening | .waiting | .body | .repair => true
  | .none | .sealing => false

/-- A gate cause begins (R399): the gate closes, and an attempt under way sees it (R398). -/
def State.closeGate (s : State) (n : Nat) : State :=
  let s1 := s.modIsland (fun i => { i with causes := addOnce i.causes n })
  let s2 := if s.island.causes.isEmpty then s1.event .saf 0 2 else s1
  if s.sampling then s2.modTick (fun t => { t with gateSeen := true }) else s2

/-- A gate cause ends; the gate opens with the last (R399). -/
def State.openGate (s : State) (n : Nat) : State := s.modIsland (fun i => { i with causes := dropAll i.causes n })

/-! ### Fault records (R408) -/

/-- Which trip a record belongs to, so that a monitor that stays tripped writes no further one (R408). -/
def tripKey (code unit : Nat) : Nat := code * 65536 + unit % 65536

/-- A fault record is written: the last 64 are kept, the alert is asserted, and the SAF page captures it (R408, Table 15-4,
Table 17-7). A monitor still tripped writes none. -/
def State.record (s : State) (code actions detail unit : Nat) : State :=
  if s.island.tripped.contains (tripKey code unit) then s
  else
    let r : FaultRecord := ⟨s.island.recHead, code, actions, s.time.sec % 2 ^ 32, detail % 2 ^ 32, unit % 65536⟩
    let l := s.island.records ++ [r]
    let s1 := s.modIsland (fun i => { i with
      records := l.drop (l.length - 64), recHead := (i.recHead + 1) % 65536, alert := true,
      tripped := i.tripped ++ [tripKey code unit] })
    (s1.event .saf 0 1).violate .saf 0 ⟨code, 15, 0, 1, unit⟩

/-- A monitor has cleared: its next trip writes a record again (R408). -/
def State.cleared (s : State) (code : Nat) : State :=
  s.modIsland (fun i => { i with tripped := i.tripped.filter (fun k => k / 65536 != code) })

/-! ### Isolation comparators (R402) -/

/-- An isolation check whose two comparator sets disagree (R402): counted in SAF.CHK_DIS and recorded, and the gate closes for
the attempt. While they agree this does nothing. -/
def State.disagreed (s : State) : State :=
  if s.island.disagree then ((s.cnt R.safChkDis).record 0x68 actGate 0 0).closeGate gComparators else s

end Sys2Proof.Machine
end

