-- ==== Sys2Proof/Machine/Load.lean ====
section
/-!
DEFINITION. Load chains (10 R265 to R271, R282): records and their windows, forwarding with parity, a keeper's section,
share and state, and the head's reads of host memory or of its own copies.
-/
namespace Sys2Proof.Machine

/-! ### Records (Table 10-1) -/

/-- A record's 2,048 bytes. -/
def recordBytes (r : LoadRecord) : List Byte :=
  padTo 2048 (leBytes 2 r.chain ++ leBytes 1 r.kind ++ leBytes 1 (b2n r.xor) ++ leBytes 2 (r.keeper % 2048) ++ leBytes 2 r.len ++
    leBytes 8 r.offset ++ leBytes 8 r.number ++ zeros 40 ++ r.payload)

/-- The record that 2,048 bytes spell. -/
def recordOf (l : List Byte) : LoadRecord :=
  let n := min (leAt l 6 2) 1984
  ⟨leAt l 0 2, leAt l 2 1, bit (leAt l 3 1) 0, leAt l 4 2 % 2048, n, leAt l 8 8, leAt l 16 8, (l.drop 64).take n⟩

/-! ### Chain entries (R266) -/

/-- Chain entry `e`'s fields: chain ID, role, and downstream hop; a routed hop to 0x7FF is none (log 22). -/
def State.chainCfg (s : State) (e : Nat) : Nat := s.rd R.wldChainCfg 0 e
def State.chainId (s : State) (e : Nat) : Nat := bits (s.chainCfg e) 15 0
def State.chainRole (s : State) (e : Nat) : Nat := bits (s.chainCfg e) 18 16
def State.chainVia (s : State) (e : Nat) : Option (Bool × Nat) :=
  let c := s.chainCfg e
  if bit c 19 then (if bits c 30 20 = 0x7FF then none else some (true, bits c 30 20)) else some (false, bits c 23 20)

/-- The configured entry of a chain ID. -/
def State.chainOf (s : State) (id : Nat) : Option Nat :=
  (List.range 8).find? (fun e => s.chainRole e != 0 && s.chainId e == id)

/-- A chain entry's progress. -/
def State.chain (s : State) (e : Nat) : Chain := mget Chain.reset s.load.chains e

/-- The state with a chain entry's progress changed. -/
def State.modChain (s : State) (e : Nat) (f : Chain → Chain) : State :=
  s.modLoad (fun l => { l with chains := mput l.chains e (f (mget Chain.reset l.chains e)) })

/-! ### Shares (R269) -/

/-- Memory addresses of an extent's bytes (Table 06-20): a run of a type 1 handle's half 0 or of a type 3 handle. -/
def State.extentAddrs (s : State) (x : Extent) : List Nat :=
  let e := s.entry x.cluster x.handle
  if hType e = 3 then (List.range x.len).map (fun i => qsAddr (x.cluster / 128) (hQoff e + x.offset + i))
  else hAddrs x.cluster e x.offset x.len 0

/-- Addresses of bytes [off, off + n) of extents in order. -/
def State.rangeAddrs (s : State) (l : List Extent) (off n : Nat) : List Nat :=
  match l with
  | [] => []
  | x :: r => if x.len ≤ off then s.rangeAddrs r (off - x.len) n
              else
                let a := ((s.extentAddrs x).drop off).take n
                a ++ s.rangeAddrs r 0 (n - a.length)

/-- Bytes [off, off + n) of the device's own share, 0 beyond its length (R268). -/
def State.shareRead (s : State) (off n : Nat) : List Byte :=
  padTo n (s.readBytes 4 false (s.rangeAddrs s.image.shareExtents off n))

/-- A record's payload XORed with this device's share (R268 step 2). -/
def State.parity (s : State) (r : LoadRecord) : LoadRecord :=
  { r with payload := List.zipWith (· ^^^ ·) r.payload (s.shareRead r.offset r.payload.length) }

/-! ### Windows (R267) -/

/-- A chain ID's window starts over, with the next stream's record 0 (log 22). -/
def State.restartWindow (s : State) (id : Nat) : State :=
  s.modLoad (fun l => { l with windows := l.windows.filter (fun w => w.1 != id) })

/-- WLD.CHAIN_CFG of entry `e` is written: the entry and its chain's window start over (log 22). -/
def State.chainConfig (s : State) (e : Nat) : State :=
  (s.modChain e (fun _ => Chain.reset)).restartWindow (s.chainId e)

/-- The window of a chain ID: its lowest number not yet received, and those received above it. -/
def State.window (s : State) (id : Nat) : Nat × List Nat := (lfind s.load.windows id).getD (0, [])

/-- A window's lowest number moves past what has been received. -/
def slide (n low : Nat) (l : List Nat) : Nat × List Nat :=
  match n with
  | 0 => (low, l)
  | n + 1 => if l.contains low then slide n (low + 1) (dropAll l low) else (low, l)

/-- Note a number as received. -/
def State.noteRecord (s : State) (id number : Nat) : State :=
  let w := s.window id
  s.modLoad (fun l => { l with windows := lput l.windows id (slide 257 w.1 (addOnce w.2 number)) })

/-! ### Sending (R267) -/

/-- The logical number that a physical torus number stands for (R21, R254): the lowest that the placement in force maps to it;
the number itself where none is, as before an image is loaded. -/
def State.logical (s : State) (phys : Nat) : Nat :=
  if s.image.loaded then ((List.range 2048).find? (fun l => s.physical l == some phys)).getD phys else phys

/-- The physical torus number of the device that port `p` reaches (Table 01-1, R14): the torus neighbour; on an express port
the destination of the override that names the port, else the device that the partner's HELLO names (log 22). -/
def State.portDevice (s : State) (p : Nat) : Nat :=
  if p < 12 then s.neighbour p
  else match s.table.express.find? (fun x => x.2 == p) with
    | some x => x.1
    | none => match (s.port p).secure.theirs with
      | some h => (s.physical h.device).getD h.device
      | none => 0x7FF

/-- The physical torus number of a hop. -/
def State.hopDevice (s : State) (v : Bool × Nat) : Nat := if v.1 then v.2 else s.portDevice v.2

/-- Send a record downstream of entry `e` (R267, R268): a confirmed request of tenant 0 to the next device's portal. At the
end of a chain it is dropped and counted. -/
def State.sendRecord (s : State) (e : Nat) (r : LoadRecord) : State :=
  match s.chainVia e with
  | none => s.cnt R.wldChainErr
  | some v =>
    (s.cnt R.wldRecCnt).modFab (fun f => { f with asked := f.asked + 1, sendq := f.sendq ++ [{
      tenant := 0, unit := 512,
      access := ⟨spanReg (s.logical (s.hopDevice v)) 0x4800, 1, 0, 2048, s.tick.ns, 0, 0, 0, 0⟩,
      data := recordBytes r, use := .record e r.number, mgmt := false, via := some v, order := f.asked }] })

/-- What became of a record at this device: answered OK, withheld, or refused with a NACK code. -/
inductive Taken where
  | ok
  | held
  | nack (code : Nat)
deriving DecidableEq, Repr

/-- A SHARE or STATE record's payload is written to its extents: a weight-load write (R269, R49). Share bytes of a parity
refill beyond the manifest's length are padding (R277; log 22). -/
def State.storeRecord (s : State) (r : LoadRecord) : State :=
  let s := s.modLoad (fun l => { l with verdict := if l.verdict = 0 then 1 else l.verdict })
  if r.kind = 2 then
    let p := if r.xor then r.payload.take (s.image.shareLen - r.offset) else r.payload
    let a := s.rangeAddrs s.image.shareExtents r.offset p.length
    (s.writeBytes 4 12 0 a p).modLoad (fun l => { l with
      share := mput l.share r.offset p, shareBytes := l.shareBytes + p.length })
  else
    let a := s.rangeAddrs s.image.stateExtents r.offset r.payload.length
    (s.writeBytes 4 12 0 a r.payload).modLoad (fun l => { l with stateBytes := l.stateBytes + r.payload.length })

/-- A load begins: what an earlier load left is gone, verdict LOADING (R179, Table 10-5). -/
def State.beginLoad (s : State) : State :=
  { s with
    load := { s.load with
      section_ := [], share := [], shareBytes := 0, stateBytes := 0, held := [], ended := false, verdict := 1, firstBad := 0,
      clustersShort := false },
    image := { s.image with admitDone := false, admitPass := false, admitCheck := 0, admitItem := 0, loaded := false } }

/-- A keeper takes a record (R269, R271). -/
def State.keep (s : State) (r : LoadRecord) : State × Taken :=
  match r.kind with
  | 1 =>
    let s1 := if s.image.admitDone || s.load.verdict == 0 then s.beginLoad else s
    (s1.modLoad (fun l => { l with section_ := mput l.section_ r.offset r.payload }), .ok)
  | 2 | 3 =>
    if !s.image.admitDone then (s, .held)
    else if !s.image.admitPass then (s.cnt R.wldChainErr, .ok)
    else (s.storeRecord r, .ok)
  | 4 => (s.modLoad (fun l => { l with ended := true }), .ok)
  | _ => (s.cnt R.wldChainErr, .ok)

/-- A record of a chain acts at this device (R268); of a chain it does not belong to, as at the end of one (log 22). -/
def State.actRecord (s : State) (r : LoadRecord) : State × Taken :=
  let e := s.chainOf r.chain
  if r.keeper = s.rd R.spnPos then s.keep r
  else match e with
    | none => (s.cnt R.wldChainErr, .ok)
    | some e => (s.sendRecord e (if r.xor && s.chainRole e == 3 then s.parity r else r), .ok)

/-- A record arrives (R267): outside its window it is refused; one already received is answered again; one that is withheld
counts as received only once it is taken. While the span runs, chains stand still (R265). -/
def State.takeRecord (s : State) (r : LoadRecord) : State × Taken :=
  let w := s.window r.chain
  if r.number < w.1 ∨ w.1 + 256 ≤ r.number then (s.cnt R.wldChainErr, .nack 0x47)
  else if w.2.contains r.number then (s, .ok)
  else if !s.mayLoad then (s, .held)
  else
    let t := s.actRecord r
    if t.2 = .held then t else (t.1.noteRecord r.chain r.number, t.2)

/-! ### Heads (R266, R267, R282) -/

/-- Records of a head-host entry's stream. -/
def State.chainTotal (s : State) (e : Nat) : Nat := (s.rd R.wldLenLo 0 e + s.rd R.wldLenHi 0 e * 2 ^ 32) / 2048

/-- The window offset of record `n` of a head-host entry. -/
def State.recordOff (s : State) (e n : Nat) : Nat := s.rd R.wldSrcLo 0 e + s.rd R.wldSrcHi 0 e * 2 ^ 32 + 2048 * n

/-- A head-host entry reads on while fewer than 256 of its records are unanswered (R267) and chains may run (R265). -/
def State.chainFill (s : State) (e n : Nat) : State :=
  match n with
  | 0 => s
  | n + 1 =>
    let c := s.chain e
    if c.running && s.mayLoad && s.chainRole e == 1 && decide (c.unanswered < 256) && decide (c.next < s.chainTotal e) then
      ((s.modChain e (fun c => { c with next := c.next + 1, unanswered := c.unanswered + 1 })).walk 0 (.chain e c.next)
        (pages (s.recordOff e c.next) 2048 false)).chainFill e n
    else s

/-- A record of entry `e` has been answered: the head reads on. -/
def State.recordAnswered (s : State) (e : Nat) : State :=
  if s.chainRole e = 1 then (s.modChain e (fun c => { c with unanswered := c.unanswered - 1 })).chainFill e 1 else s

/-- The answer to a record goes to its request, or to the head entry that read it. -/
def State.answerRecord (s : State) (h : HeldRecord) (nack : Nat) : State :=
  match h.head, h.frame with
  | some e, _ => s.recordAnswered e
  | none, some (hd, b) => s.respond false hd b (if nack = 0 then 0 else 1) nack []
  | none, none => s.send (.recordReply h.port h.record.chain h.record.number nack)

/-- A record is taken and answered, or withheld until admission or until chains may run (R265, R269). One that this device's
own head has read is of its own stream, and meets no window. -/
def State.serveRecord (s : State) (h : HeldRecord) : State :=
  let t := match h.head with
    | some _ => if s.mayLoad then s.keep h.record else (s, .held)
    | none => s.takeRecord h.record
  match t.2 with
  | .ok => t.1.answerRecord h 0
  | .nack c => t.1.answerRecord h c
  | .held => t.1.modLoad (fun l => { l with held := l.held ++ [h] })

/-- Withheld records are served again: admission has ended, or chains may run again (R265, R269). -/
def State.releaseHeld (s : State) : State :=
  (s.modLoad (fun l => { l with held := [] })).each s.load.held State.serveRecord

/-- Record `n` of a head-host entry acts at the head once all of it has been read (R267, R268): kept, sent downstream, or
dropped at the end of its chain. -/
def State.chainAct (s : State) (e n : Nat) : State :=
  let parts := (s.chain e).parts
  let all := mget [] parts (2 * n) ++ mget [] parts (2 * n + 1)
  if all.length < 2048 || !s.mayLoad then s
  else
    let r := recordOf all
    let s1 := s.modChain e (fun c => { c with parts := merase (merase parts (2 * n)) (2 * n + 1) })
    if r.keeper = s.rd R.spnPos then s1.serveRecord ⟨r, 0, none, some e⟩
    else if (s.chainVia e).isNone then (s1.sendRecord e r).recordAnswered e
    else s1.sendRecord e r

/-- A part of a head-host record has been read. -/
def State.chainRead (s : State) (e n part : Nat) (data : List Byte) : State :=
  if !(s.chain e).running then s
  else (s.modChain e (fun c => { c with parts := mput c.parts (2 * n + part) data })).chainAct e n

/-- A chain entry goes on: the records that its head has read act, and it reads on (R265). -/
def State.chainOn (s : State) (e : Nat) : State :=
  if (s.chain e).running then
    (s.each (((s.chain e).parts.map (fun p => p.1 / 2)).dedup) (fun t n => t.chainAct e n)).chainFill e 256
  else s

/-- Chains may run again: withheld records are served, heads go on, and waiting records are sent (R265). -/
def State.chainsGo (s : State) : State :=
  s.releaseHeld.each (List.range 8) State.chainOn

/-- The payloads of a run of addresses, 1,984 bytes each, with their offsets. -/
def State.cutRun (s : State) (n off : Nat) (l : List Nat) : List (Nat × List Byte) :=
  match n with
  | 0 => []
  | n + 1 => if l.isEmpty then [] else (off, s.readBytes 4 false (l.take 1984)) :: s.cutRun n (off + 1984) (l.drop 1984)

/-- The member of a redundancy group that physical device `target` stands for, or is to stand for (R278, R281): the one that
SPN.SUBST as written gives to it, else the one placed there; where none is, the manager has not said which, and it is free
(log 22). -/
def State.refilled (s : State) (g : RGroup) (target : Nat) : Nat :=
  let named (m : Nat) : Bool := ((List.range 4).map (fun i => s.rd R.spnSubst i)).any (fun v =>
    bit v 31 && !bit v 22 && bits v 10 0 == m && bits v 21 11 == target)
  if g.form = 1 then 0
  else match g.members.findIdx? named with
    | some i => i
    | none => match g.members.findIdx? (fun m => s.physical m == some target) with
      | some i => i
      | none => (Config.freeWord s.freeCtr).toNat % max 1 g.members.length

/-- A refill starts (R282): the group's copy, or the mirrored state of the member that is refilled (R278), is sent as records
through head-store entry `e`; parity records carry xor; the END record follows the state (log 22). -/
def State.refill (s : State) (e target what : Nat) (g : RGroup) : State :=
  let member := s.refilled g target
  let ext := if what = 1 then g.copy else (g.state.filter (fun x => x.1 == member)).map (·.2)
  let n := natSum (ext.map (·.len))
  let runs := s.cutRun (n / 1984 + 1) 0 (s.rangeAddrs ext 0 n)
  let first := (s.chain e).next
  let mk (p : (Nat × List Byte) × Nat) : LoadRecord :=
    ⟨s.chainId e, what + 1, what == 1 && g.form == 2, target, p.1.2.length, p.1.1, first + p.2, p.1.2⟩
  let recs := runs.zipIdx.map mk ++ (if what = 2 then [⟨s.chainId e, 4, false, target, 0, 0, first + runs.length, []⟩] else [])
  (s.draw.modChain e (fun c => { c with running := true, next := c.next + recs.length })).each recs (fun t r => t.sendRecord e r)

/-! ### The share verdict (R270, R271) -/

/-- Payloads by offset, joined. -/
def joinRuns (l : NMap (List Byte)) : List Byte := l.foldl (fun a p => padTo p.1 a ++ p.2) []

/-- SHA-256 of each 4 MiB piece (R270). -/
def pieceDigests (n : Nat) (l : List Byte) : List Byte :=
  match n with
  | 0 => []
  | n + 1 => if l.isEmpty then [] else sha256 (l.take 4194304) ++ pieceDigests n (l.drop 4194304)

/-- The share digest (R270). -/
def shareDigest (l : List Byte) : List Byte := sha256 (pieceDigests (l.length / 4194304 + 1) l ++ leBytes 8 l.length)

/-- Verdict BAD: every extent of the share is 0, the section is kept, and the WLD page logs CONFIG_MISMATCH, with which the
device's votes now fail (R271). Which piece failed the manifest does not tell; the field is free (log 4). The page event is
WLD's (Table 17-9). -/
def State.shareBad (s : State) : State :=
  let s1 := s.writeBytes 4 12 0 (s.rangeAddrs s.image.shareExtents 0 s.image.shareLen) (zeros s.image.shareLen)
  ((s1.draw.modLoad (fun l => { l with
    verdict := 3, firstBad := (Config.freeWord s.freeCtr).toNat % 65536 })).violate .wld 0 ⟨0x0B, 12, 0, 2, 0⟩).event .wld 0 1

/-- The share agrees with its manifest, in digest and length (R271). -/
def State.shareGood (s : State) : Bool :=
  decide (shareDigest (joinRuns s.load.share) = s.image.shareDigest) && s.load.shareBytes == s.image.shareLen

/-- Every STATE byte has arrived (R271). -/
def State.stateDone (s : State) : Bool := s.load.stateBytes == natSum (s.image.stateExtents.map (·.len))

/-- The verdict (R271): BAD where the share disagrees, else OK once every STATE byte has arrived. -/
def State.shareVerdict (s : State) : State :=
  if !s.shareGood then s.shareBad
  else if s.stateDone then (s.modLoad (fun l => { l with verdict := 2 })).event .wld 0 1
  else s

end Sys2Proof.Machine
end

