-- ==== Sys2Proof/Machine/Serve.lean ====
section
/-!
DEFINITION. The free plane at its two ends (09): homes and the sending of confirmed requests (R248), the service of
requests and tosses at their target (R22, R251), atomics (R257), and the delivery of responses to their requesters (R116,
R473).
-/
namespace Sys2Proof.Machine

/-! ### Serving (R251) -/

/-- Refuse and log a tenant violation in a page (R5, R22). -/
def State.refuseAccess (s : State) (p : PageType) (i port : Nat) (h : RHead) (b : Access) (code log : Nat) : State :=
  (s.violate p i ⟨log, 5, h.tenant, 0, b.addr⟩).nack port h b code

/-- Answer a served request. -/
def State.served (s : State) (port : Nat) (h : RHead) (b : Access) (status : Nat) (data : List Byte) : State :=
  if port = 17 then s else s.respond false h b status 0 data

/-- A checked access of memory: a READ, a WRITE or an ATOM of bytes at `rd` and `wr` (R198, R201). -/
def State.access (s : State) (port : Nat) (h : RHead) (b : Access) (data : List Byte) (rd wr : List Nat) (loc : Bool) : State :=
  let bad := (wordsOf rd).any (fun a => decide (2 ≤ s.eccOf a))
  match b.op with
  | 0 => (s.afterRead 4 5 h.tenant rd).served port h b (if bad then 2 else 0) (s.readBytes 4 loc rd)
  | 1 => (s.writeBytes 4 5 h.tenant wr (padTo b.size data)).served port h b 0 []
  | _ =>
    let old := s.readBytes 4 loc rd
    let new := atomNew b.atom (w32 (leNat old)) (w32 (leAt data 0 4)) (w32 b.cas)
    (((s.afterRead 4 5 h.tenant rd).writeBytes 4 5 h.tenant wr (leBytes 4 new.toNat)).served port h b (if bad then 2 else 0) old)

/-- The index of the entry that decides a kind 0 access (R198). -/
def State.decider (s : State) (c p n tenant : Nat) (rd wr : Bool) : Option Nat :=
  ((s.cluster c).handles.find? (fun h => hType h.2 == 1 && hOwner h.2 == tenant && hHolds h.2 p n &&
    (!rd || hRight h.2 5) && (!wr || hRight h.2 6))).map (·.1)

/-- Reading the deciding entry of a cluster's table meets its SECDED words; an uncorrectable one answers DATA_ERROR (Table
07-3). -/
def State.meetEntry (s : State) (c i : Nat) (port : Nat) (h : RHead) (b : Access) : State × Bool :=
  let t := s.touchEntry c i 5 h.tenant
  if s.entryBad c i then (t.served port h b 2 (zeros (if b.op = 1 then 0 else b.size)), false) else (t, true)

/-- An access of kind 0 or 1 at this device (R190, R198). -/
def State.serveMemory (s : State) (port : Nat) (h : RHead) (b : Access) (data : List Byte) : State :=
  let rd := b.op != 1
  let wr := b.op != 0
  if bits b.addr 44 42 = 0 then
    let c := bits b.addr 41 33
    let p := bits b.addr 21 0
    let entry : State × Bool := match s.decider c p b.size h.tenant rd wr with
      | some i => s.meetEntry c i port h b
      | none => (s, true)
    if !entry.2 then entry.1
    else if (s.fn h.tenant).zeroing then s.refuseAccess .hdl c port h b 0x42 0x42
    else match s.kind0 c p b.size h.tenant rd wr with
      | .nack code => entry.1.refuseAccess .hdl c port h b code code
      | .ok a w loc => entry.1.access port h b data a w loc
  else
    let q := bits b.addr 41 40
    let o := bits b.addr 25 0
    if (s.fn h.tenant).zeroing then s.refuseAccess .qst q port h b 0x42 0x42
    else match s.kind1 q o b.size h.tenant rd wr with
      | .nack code => s.refuseAccess .qst q port h b code (if wr && s.inCode q o b.size then 0x14 else code)
      | .ok a w loc => s.access port h b data a w loc

/-- An atomic's due time (R256). -/
def dueOf (b : Access) : Nat := b.hsn / 2 ^ 32

/-- A held atomic may be applied: with det_eff = 0 at once, with det_eff = 1 once the tick timer reaches its due time (R257). -/
def State.atomicDue (s : State) (a : HeldAtomic) : Bool := !s.tick.detEff || decide (dueOf a.access ≤ s.tick.ns)

/-- An atomic to the same 64-byte line of the host window is being applied (R257). -/
def State.lineBusy (s : State) (addr : Nat) : Bool :=
  s.host.kind3s.any (fun k => k.access.op == 2 && k.access.addr / 64 == addr / 64)

/-- The host serves the tenant's window: its function is up, and its footprints are not being zeroed (R309, R312). -/
def State.windowUp (s : State) (t : Nat) : Bool := s.fnUp t && !(s.fn t).zeroing

/-- An atomic is applied at its home; one to a line of the host window waits while another is under way there (R257, R309). -/
def State.applyAtomic (s : State) (a : HeldAtomic) : State :=
  if bits a.access.addr 44 42 ≠ 3 then s.serveMemory a.port a.head a.access a.data
  else if !s.windowUp a.head.tenant then s.refuseAccess .hst a.head.tenant a.port a.head a.access 0x45 0x45
  else if s.lineBusy a.access.addr then s.modFab (fun f => { f with atomics := f.atomics ++ [a] })
  else s.startKind3 a.port a.head a.access a.data

/-- An atomic reaches its home: held until it is due, or too late (R257). -/
def State.takeAtomic (s : State) (a : HeldAtomic) : State :=
  if !s.tick.detEff then s.applyAtomic a
  else if s.tick.ns ≤ dueOf a.access then s.modFab (fun f => { f with atomics := f.atomics ++ [a] })
  else s.cnt R.fabDetLate

/-- Serve a request, or a toss on port 17, whose destination is this device (R22, R251). -/
def State.serve (s : State) (port : Nat) (h : RHead) (b : Access) (data : List Byte) : State :=
  let kind := bits b.addr 44 42
  if spanBad b.addr then s.refuseAccess .fab 0 port h b 0x40 0x40
  else if !s.tagOn h.tenant then s.refuseAccess .fab 0 port h b 0x41 0x15
  else if kind = 2 then
    if h.tenant ≠ 0 then s.refuseAccess .fab 0 port h b 0x44 0x44
    else if port ≠ 17 ∧ b.op = 1 ∧ b.size = 2048 ∧ bits b.addr 25 0 = 0x4800 then
      s.serveRecord ⟨recordOf (padTo 2048 data), port, some (h, b), none⟩
    else s.refuseAccess .fab 0 port h b 0x47 0x47
  else if s.physical (b.addr / 2 ^ 45) ≠ some (s.rd R.spnPos) then s.refuseAccess .fab 0 port h b 0x40 0x40
  else if b.size = 0 ∨ 4096 < b.size ∨ b.addr % b.size ≠ 0 ∨ (b.op = 2 ∧ b.size ≠ 4) then s.refuseAccess .fab 0 port h b 0x47 0x47
  else if kind = 3 then
    if bits b.addr 41 34 ≠ h.tenant ∨ Config.hostAttached = false then s.refuseAccess .hst 0 port h b 0x45 0x45
    else if !s.windowUp h.tenant then s.refuseAccess .hst h.tenant port h b 0x45 0x45
    else if b.op = 2 then s.takeAtomic ⟨port, h, b, data⟩
    else s.startKind3 port h b data
  else if b.op = 2 then s.takeAtomic ⟨port, h, b, data⟩
  else s.serveMemory port h b data

/-- Insert a held atomic by its HSN (R257). -/
def insAtomic (a : HeldAtomic) (l : List HeldAtomic) : List HeldAtomic :=
  match l with
  | [] => [a]
  | x :: r => if a.access.hsn < x.access.hsn then a :: x :: r else x :: insAtomic a r

/-- The atomics that are due are applied: with det_eff = 1 in ascending HSN, with det_eff = 0 in order of arrival (R257). -/
def State.atomicsDue (s : State) : State :=
  let due := s.fabric.atomics.filter s.atomicDue
  (s.modFab (fun f => { f with atomics := f.atomics.filter (fun a => !s.atomicDue a) })).each
    (if s.tick.detEff then due.foldl (fun l a => insAtomic a l) [] else due) State.applyAtomic

/-! ### Delivering responses (R116, R473) -/

/-- Thread register t[r] of lane `l`. -/
def Group.treg (x : Group) (r l : Nat) : Word := mget 0#32 x.t (r * 32 + l)

/-- The group with t[r] of lane `l` set. -/
def Group.setT (x : Group) (r l : Nat) (v : Word) : Group := { x with t := mput x.t (r * 32 + l) v }

/-- The value a load of `size` bytes writes: its word, and for a double the high word (R111). -/
def loadWords (size : Nat) (sx : Bool) (d : List Byte) : List Word :=
  let v := leAt d 0 size
  if size = 8 then [w32 v, w32 (v / 2 ^ 32)]
  else if sx then [w32 (wrap 32 (sext (8 * size) v))]
  else [w32 v]

/-- Write loaded words to t[r], t[r + 1] of lane `l`. -/
def Group.setWords (x : Group) (r l : Nat) (v : List Word) : Group :=
  match v with
  | [] => x
  | w :: t => (x.setT r l w).setWords (r + 1) l t

/-- One response of the group's has arrived: it no longer waits on it (R70). -/
def Group.answered (x : Group) : Group :=
  { x with remote := x.remote - 1, wait := if x.wait = .response then .ready else x.wait }

/-- Counter `k` of a block rises by 1 (R79); a carry past 65,535 leaves it and faults the group that issued the copy or the
ARRIVE, at span address `addr` (R80). -/
def State.raise (s : State) (c g t blk k addr : Nat) : State :=
  match mfind (s.cluster c).blocks blk with
  | none => s
  | some b =>
    let v := mget 0 b.counters k
    if 65535 ≤ v then s.threadFault c g t 0x27 0 addr
    else s.modCluster c (fun x => { x with blocks := mput x.blocks blk { b with counters := mput b.counters k (v + 1) } })

/-- The group slot whose accesses a use is one of, with its cluster. -/
def ReqUse.slot (u : ReqUse) : Option (Nat × Nat) :=
  match u with
  | .lane c g _ _ _ _ | .store c g | .atom c g _ _ | .gone c g _ _ => some (c, g)
  | .copy _ _ _ _ | .record _ _ | .mgmt _ => none

/-- An access of group slot `g` asked for before `upto` has no response (R79, R116). -/
def State.outstanding (s : State) (c g upto : Nat) : Bool :=
  s.fabric.pending.any (fun p => !p.discarded && p.use.slot == some (c, g) && decide (p.order < upto)) ||
    s.fabric.sendq.any (fun r => r.use.slot == some (c, g) && decide (r.order < upto))

/-- ARRIVEs whose groups' earlier accesses are all performed are performed, whether or not the group has retired (R79). -/
def State.raiseDue (s : State) (c : Nat) : State :=
  let wait (a : Arrive) : Bool := s.outstanding c a.slot a.upto
  (s.modCluster c (fun k => { k with arrivals := k.arrivals.filter wait })).each
    ((s.cluster c).arrivals.filter (fun a => !wait a)) (fun t a => t.raise c a.slot a.tenant a.block a.counter a.addr)

/-- The largest power of two from 8 to 4,096 that fits a piece of a copy (R473). -/
def pieceSize (rem a b : Nat) : Nat :=
  ([4096, 2048, 1024, 512, 256, 128, 64, 32, 16].find? (fun p => decide (p ≤ rem) && a % p == 0 && b % p == 0)).getD 8

/-- A copy's pieces: offset and size, cut from the start of the range (R473). -/
def piecesOf (n off rem a b : Nat) : List (Nat × Nat) :=
  match n with
  | 0 => []
  | n + 1 => if rem = 0 then [] else
      let p := pieceSize rem a b
      (off, p) :: piecesOf n (off + p) (rem - p) (a + p) (b + p)

/-- The span address of a remote side of a copy (R197): a type 4 entry's address and offset. -/
def remoteAddr (e : HEntry) (off : Nat) : Nat := hSaddr e + off

/-- The alignment a side imposes on pieces: none, where it is local. -/
def sideAddr (e : HEntry) (off : Nat) : Nat := if hType e = 4 then remoteAddr e off else 0

/-- The span address of a side of a copy of cluster `c`: a local side's memory is this device's (R197, R198). -/
def State.sideSpan (s : State) (c : Nat) (e : HEntry) (off : Nat) : Nat :=
  match hType e with
  | 4 => remoteAddr e off
  | 3 => spanStore s.self (c / 128) (hQoff e + off)
  | 2 =>
    let n := c / 4 * 4 + hQpos e
    spanScratch s.self n (spdMap (s.entry n (hNidx e)) off 0 % 2 ^ 22)
  | _ => spanScratch s.self c (spdMap e off 0 % 2 ^ 22)

/-- The memory that a span address lies in: its device, kind and cluster, quarter or tenant (Table 01-3). -/
def spanMemory (a : Nat) : Nat := if bits a 44 42 = 3 then a / 2 ^ 34 else a / 2 ^ 33 * 2

/-- The pieces of a copy, in the order in which they are issued: descending where both sides lie in one memory of one device and
the destination starts above the source (R473). -/
def State.copyPieces (s : State) (c : Nat) (k : ThreadCopy) : List (Nat × Nat) :=
  let src := s.entry c k.src
  let dst := s.entry c k.dst
  let l := piecesOf (k.len / 8 + 1) 0 k.len (sideAddr src k.srcOff) (sideAddr dst k.dstOff)
  let a := s.sideSpan c src k.srcOff
  let b := s.sideSpan c dst k.dstOff
  if spanMemory a = spanMemory b ∧ bits a 44 42 = bits b 44 42 ∧ a < b then l.reverse else l

/-- A confirmed request of a cluster's group or copy (R116, R248). -/
def State.ask (s : State) (c tenant addr op size : Nat) (data : List Byte) (use : ReqUse) : State :=
  s.modFab (fun f => { f with
    asked := f.asked + 1
    sendq := f.sendq ++ [{
      tenant := tenant, unit := c, access := ⟨addr, op, 0, size, s.tick.ns, c, 0, 0, 0⟩, data := data, use := use,
      order := f.asked, mgmt := false, via := none }] })

/-- The copy of an identifier. -/
def Cluster.copyOf (k : Cluster) (id : Nat) : Option ThreadCopy := k.copies.find? (fun x => x.id == id)

/-- The state with a copy changed. -/
def State.modCopy (s : State) (c id : Nat) (f : ThreadCopy → ThreadCopy) : State :=
  s.modCluster c (fun k => { k with copies := k.copies.map (fun x => if x.id = id then f x else x) })

/-- Ask for the writes of a copy to a remote destination, with its data read (R473). -/
def State.copyWrites (s : State) (c : Nat) (k : ThreadCopy) : State :=
  let dst := s.entry c k.dst
  let l := s.copyPieces c k
  (s.modCopy c k.id (fun x => { x with pieces := l.length })).each l (fun t p =>
    t.ask c k.tenant (remoteAddr dst (k.dstOff + p.1)) 1 p.2 ((k.data.drop p.1).take p.2) (.copy c k.id true p.1))

/-- A copy's read piece has arrived; with the last one, the writes to a remote destination go out (R473). -/
def State.copyRead (s : State) (c id off : Nat) (d : List Byte) : State :=
  match (s.cluster c).copyOf id with
  | none => s
  | some k =>
    let k' := { k with data := k.data.take off ++ d ++ k.data.drop (off + d.length), pieces := k.pieces - 1 }
    let s1 := s.modCopy c id (fun _ => k')
    if k'.pieces = 0 ∧ hType (s.entry c k.dst) = 4 then s1.copyWrites c k' else s1

/-- The group slot a use belongs to, with its cluster, for a REMOTE_NACK. -/
def State.useSlot (s : State) (u : ReqUse) : Option (Nat × Nat) :=
  match u with
  | .lane c g _ _ _ _ | .store c g | .atom c g _ _ | .gone c g _ _ => some (c, g)
  | .copy c id _ _ => (((s.cluster c).copyOf id).map (fun k => (c, k.slot)))
  | .record _ _ | .mgmt _ => none

/-- A response reaches its requester (R116, R473): data for lanes, an undefined value on DATA_ERROR (R201), REMOTE_NACK. -/
def State.useRsp (s : State) (p : Pending) (r : Response) (data : List Byte) : State :=
  let free (n : Nat) : List Byte := (List.range n).map (fun i => Config.freeByte s.freeCtr i)
  let d (n : Nat) : List Byte := if r.status = 2 then free n else padTo n data
  let s1 := if r.status = 2 then s.draw else s
  if r.status = 1 then
    match p.use with
    | .record e _ => s.recordAnswered e
    | .mgmt dev => s.modFab (fun f => { f with mgmtOut := mput f.mgmtOut dev (mget 0 f.mgmtOut dev - 1) })
    | u => match s.useSlot u with
      | some (c, g) => s.threadFault c g p.tenant 0x26 0 p.addr
      | none => s
  else match p.use with
    | .lane c g l reg size sx =>
      ((s1.modGroup c g (fun x => (x.setWords reg l (loadWords size sx (d size))).answered)).raiseDue c).schedule c
    | .store c g => ((s1.modGroup c g Group.answered).raiseDue c).schedule c
    | .atom c g l reg => ((s1.modGroup c g (fun x => (x.setT reg l (w32 (leAt (d 4) 0 4))).answered)).raiseDue c).schedule c
    | .gone c _ _ _ => s1.raiseDue c
    | .copy c id w off =>
      if w then s1.modCopy c id (fun k => { k with pieces := k.pieces - 1 })
      else match (s.cluster c).copyOf id with
        | some k =>
          let n := ((s.copyPieces c k).find? (fun q => q.1 == off)).map (·.2)
          s1.copyRead c id off (d (n.getD 8))
        | none => s1
    | .record e _ => s1.recordAnswered e
    | .mgmt dev => s1.modFab (fun f => { f with mgmtOut := mput f.mgmtOut dev (mget 0 f.mgmtOut dev - 1) })

/-- A response is delivered to its home, which is freed (R248); the responses of a killed tenant's threads are discarded
(R89). -/
def State.deliver (s : State) (f : RFrame) : State :=
  let r := f.resp
  match s.fabric.pending.find? (fun p => p.unit == r.homeUnit && p.entry == r.homeEntry) with
  | none => s
  | some p =>
    let s1 := s.modFab (fun x => { x with
      pending := x.pending.filter (fun q => !(q.unit == r.homeUnit && q.entry == r.homeEntry)) })
    if p.discarded then s1 else s1.useRsp p r f.data

/-! ### Sending requests (R248) -/

/-- Homes reserved at the hub (R248). -/
def State.hubReserved (s : State) : Nat :=
  natSum ((s.fabric.homes.filter (fun p => decide (512 * 256 ≤ p.1) && decide (p.1 < 513 * 256))).map (·.2))

/-- Homes a tenant may use at a unit: those reserved; tenant 0 also uses the hub's unreserved ones (log 22). -/
def State.homeLimit (s : State) (unit tenant : Nat) : Nat :=
  mget 0 s.fabric.homes (unit * 256 + tenant) + (if unit = 512 ∧ tenant = 0 then 1024 - s.hubReserved else 0)

/-- A free home entry of a unit for a tenant (R248): the lowest (log 16). -/
def State.freeHome (s : State) (unit tenant : Nat) : Option Nat :=
  let used := s.fabric.pending.filter (fun p => p.unit == unit)
  if s.homeLimit unit tenant ≤ (used.filter (fun p => p.tenant == tenant)).length then none
  else (List.range (if unit = 512 then 1024 else 256)).find? (fun i => !used.any (fun p => p.entry == i))

/-- A request may go: at most 256 records of a chain, and 4 MGMT requests to a device, are outstanding (R250, R267); records
only while chains may run (R265). -/
def State.mayAsk (s : State) (r : Request) : Bool :=
  match r.use with
  | .record e _ => s.mayLoad && decide ((s.fabric.pending.filter (fun p => match p.use with
      | .record k _ => k == e
      | _ => false)).length < 256)
  | .mgmt dev => decide (mget 0 s.fabric.mgmtOut dev < 4)
  | _ => true

/-- This device answers its own request (R254). -/
def State.selfNack (s : State) (h : RHead) (b : Access) (mgmt : Bool) (code : Nat) : State :=
  let t := s.violate .fab 0 ⟨code, 5, h.tenant, 0, b.addr⟩
  t.modFab (fun f => { f with back := f.back ++ [responseTo mgmt h b 1 code []] })

/-- Send a request whose home is reserved: to this device, or through the fabric (R252, R254). -/
def State.sendRequest (s : State) (r : Request) (entry : Nat) : State :=
  let b := { r.access with homeUnit := r.unit, homeEntry := entry }
  let here := s.rd R.spnPos
  let dst := match r.via with
    | some (true, p) => some p
    | some (false, _) => some (bits r.access.addr 55 45)
    | none => s.physical (r.access.addr / 2 ^ 45)
  let head (d : Nat) : RHead := ⟨r.tenant, d, here, 0, 0, 0⟩
  let frame (d : Nat) : RFrame := ⟨if r.mgmt then .mgmt else .req, head d, b, ⟨0, 0, 0, 0, 0⟩, r.data⟩
  let s1 := s.modFab (fun f => { f with
    pending := f.pending ++ [⟨r.unit, entry, r.tenant, r.access.addr, r.access.size, r.use, r.order, false⟩],
    mgmtOut := match r.use with | .mgmt d => mput f.mgmtOut d (mget 0 f.mgmtOut d + 1) | _ => f.mgmtOut })
  if !s.spanTag r.tenant then s1.tagOff r.tenant (some r.access.addr)
  else match dst with
    | none => s1.selfNack (head here) b r.mgmt 0x40
    | some d =>
      match r.via with
      | some (false, p) => s1.enqueue 16 p (frame d)
      | _ =>
        if d = here then
          if r.mgmt then s1.modFab (fun f => { f with back := f.back ++ [frame d] }) else s1.serve 16 (head d) b r.data
        else
          let t := s1.forward 16 (frame d)
          if t.2 then t.1 else t.1.selfNack (head d) b r.mgmt 0x46

/-- Try the waiting requests in order; one with no home goes on waiting (R248). -/
def State.sendAll (s : State) (l : List Request) : State :=
  match l with
  | [] => s
  | r :: t =>
    (match (if s.mayAsk r then s.freeHome r.unit r.tenant else none) with
    | none => s.modFab (fun f => { f with sendq := f.sendq ++ [r] })
    | some e => s.sendRequest r e).sendAll t

/-- Deliver this device's answers to itself, and try waiting requests, until nothing moves; `n` bounds the rounds, and what
is left goes on at the next command. -/
def State.pumpN (s : State) (n : Nat) : State :=
  match n with
  | 0 => s
  | n + 1 =>
    let rsp := s.fabric.back.filter (fun f => f.cls != .mgmt)
    if rsp.isEmpty && s.fabric.sendq.isEmpty then s
    else
      let s1 := (s.modFab (fun f => { f with back := f.back.filter (fun f => f.cls == .mgmt) })).each rsp State.deliver
      ((s1.modFab (fun f => { f with sendq := [] })).sendAll s1.fabric.sendq).pumpN n

/-- A frame with no admissible hop: a request is answered with ROUTE (R254). -/
def State.noHop (s : State) (inp : Nat) (f : RFrame) : State :=
  if f.cls = .req then s.refuseAccess .fab 0 inp f.head f.access 0x46 0x46 else s

/-- Where a frame that waits at output `p` goes instead (R254): anywhere, where the port is no longer UP; to another minimal port
whose credit covers it, where that of its own does not. -/
def State.betterPort (s : State) (p : Nat) (f : RFrame) : Option Nat :=
  if f.head.vc ≠ 0 ∨ s.covered p f ∨ s.table.express.any (fun e => e.1 == f.head.dst && e.2 == p) then none
  else s.mostCredit (poolOf f.cls 0) ((s.minimal f.head.dst).filter (fun q => q != p && s.covered q f))

/-- A waiting frame takes another way, where there is one (R254). -/
def State.rerouteOne (s : State) (p : Nat) (x : Nat × RFrame) : State :=
  let out (t : State) : State := t.modPort p (fun y => { y with queue := y.queue.erase x })
  let g : RFrame := { x.2 with head := { x.2.head with hops := x.2.head.hops - 1 } }
  if !s.portUp p then
    let r := (out s).forward x.1 g
    if r.2 then r.1 else r.1.noHop x.1 g
  else match s.betterPort p x.2 with
    | some q => (out s).enqueue x.1 q x.2
    | none => s

/-- The frames that wait at the torus ports look for their way anew (R254). -/
def State.reroute (s : State) : State :=
  s.each (List.range 12) (fun t p => t.each (t.port p).queue (fun u x => u.rerouteOne p x))

/-- The free plane of the device moves on. -/
def State.pump (s : State) : State :=
  let t := s.reroute
  t.pumpN (t.fabric.sendq.length + t.fabric.back.length + 4)

/-- The span holds: load chains may run again (R265). -/
def State.chainsResume (s : State) : State := s.chainsGo.pump

end Sys2Proof.Machine
end

