-- ==== Sys2Proof/Machine/Debug.lean ====
section
/-!
DEFINITION. Halting, inspecting and stepping a group (03 R91 to R94) and the scrubbers (07 R202 to R205).
-/
namespace Sys2Proof.Machine

/-! ### Debug (R91, R92) -/

/-- A group of the device, or of a device below it on the marker tree, is halted (R59). -/
def State.anyHalted (s : State) : Bool :=
  !s.tick.haltedBelow.isEmpty || s.clusters.any (fun p => p.2.groups.any (fun g => g.2.halted || g.2.stepping))

/-- The port the device takes its tick from: the parent, or while that is not up the first alternate that is (R38). -/
def State.parentPort (s : State) : Nat :=
  let m := s.rd R.tckMkParent
  ([bits m 3 0, bits m 7 4, bits m 11 8].find? s.portUp).getD (bits m 3 0)

/-- A halt report of the device's subtree goes to the parent (R59). -/
def State.sendHalt (s : State) : State :=
  s.sendVote s.parentPort ⟨s.tick.count, s.tick.attempt, 2, false, false, 0, s.anyHalted, 0, 0, 0, 0⟩

/-- A halt is part of the attempt's history, and while tick-stretch mode is effective a change since `old` is reported up the
marker tree (R59). -/
def State.haltNote (s old : State) : State :=
  let s1 := s.modTick (fun t => { t with haltSeen := t.haltSeen || s.anyHalted })
  if s.tick.stretchEff && !s.tick.keystone && s.anyHalted != old.anyHalted then s1.sendHalt else s1

/-- The slot that TGP.DBG_SEL names. -/
def State.dbgSlot (s : State) (c : Nat) : Nat := s.fld R.tgpDbgSel 5 0 c

/-- Another group of the cluster is halted, or is stepping (R91). -/
def State.otherHalted (s : State) (c g : Nat) : Bool :=
  (s.cluster c).groups.any (fun p => p.1 != g && (p.2.halted || p.2.stepping))

/-- TGP.DBG_STS.busy set or cleared. -/
def State.setBusy (s : State) (c : Nat) (b : Bool) : State := s.modCluster c (fun k => { k with dbgBusy := b })

/-- A halt of the selected group. -/
def Group.dbgHalt (x : Group) : Group := { x with halted := true, stepping := false, stepped := false }

/-- A step of the selected group, which must be halted (R92). -/
def Group.dbgStep (x : Group) : Group := if x.halted then { x with halted := false, stepping := true, stepped := false } else x

/-- The selected group goes on (R92). -/
def Group.dbgResume (x : Group) : Group := { x with halted := false, stepping := false, stepped := false }

/-- TGP.DBG_CMD (R91, R92); the lowest bit set counts (log 24). A halt or a step while another group is halted is ignored. -/
def State.dbgCmd (s : State) (c v : Nat) : State :=
  let g := s.dbgSlot c
  let s1 :=
    if bit v 0 || bit v 1 then
      if s.otherHalted c g then s.setBusy c true
      else (s.setBusy c false).modGroup c g (if bit v 0 then Group.dbgHalt else Group.dbgStep)
    else if bit v 2 then (s.setBusy c false).modGroup c g Group.dbgResume
    else s
  (s1.schedule c).haltNote s

/-- TGP.DBG_REG_DATA's read: the selected register of the selected group; 0 where there is none. -/
def State.dbgReg (s : State) (c : Nat) : Word :=
  let v := s.rd R.tgpDbgRegSel c
  match s.group c (s.dbgSlot c) with
  | none => 0#32
  | some x =>
    match bits v 15 14 with
    | 0 => x.treg (bits v 13 8) (bits v 4 0)
    | 1 => mget 0#32 x.p (bits v 13 8)
    | 2 => mget 0#32 x.u (bits v 13 8)
    | _ => w32 x.pc

/-- A write of TGP.DBG_REG_DATA to a group: an index past the space's registers names none (log 24). -/
def Group.dbgSet (x : Group) (sel : Nat) (v : Word) : Group :=
  let i := bits sel 13 8
  match bits sel 15 14 with
  | 0 => x.setT i (bits sel 4 0) v
  | 1 => if i < 8 then { x with p := mput x.p i v } else x
  | 2 => if i < 16 then { x with u := mput x.u i v } else x
  | _ => { x with pc := v.toNat }

/-- A write of TGP.DBG_REG_DATA: ignored unless the selected group is halted (R92). -/
def State.dbgWrite (s : State) (c : Nat) (v : Word) : State :=
  match s.group c (s.dbgSlot c) with
  | some x => if x.halted then s.setGroup c (s.dbgSlot c) (x.dbgSet (s.rd R.tgpDbgRegSel c) v) else s.setBusy c true
  | none => s.setBusy c true

/-- TGP.DBG_STS, of the selected group (Table 03-7). -/
def State.dbgSts (s : State) (c : Nat) : Nat :=
  b2n (s.cluster c).dbgBusy * 8 + (match s.group c (s.dbgSlot c) with
    | some x => b2n x.halted + b2n x.stepping * 2 + b2n x.bpHit * 4 + x.tenant * 256
    | none => 0)

/-- A group whose stepped instruction has issued and has written every result, a beyond-quad access included, halts again
(R92). -/
def Group.stepOver (x : Group) : Group :=
  if x.stepping && x.stepped && x.remote == 0 then { x with halted := true, stepping := false, stepped := false } else x

/-- STEP_COMPLETE: the stepped group halts again (R92). -/
def execStepComplete (c : Fin 512) (s : State) : Res :=
  .next (s.setCluster c { s.cluster c with groups := (s.cluster c).groups.map (fun p => (p.1, p.2.stepOver)) })

/-! ### Scrubbers (R202 to R205) -/

/-- SCRUB_CTL of a scrubber. -/
def State.scrubCtl (s : State) (u : ScrubUnit) : Nat :=
  match u with
  | .cluster c => s.rd R.spdScrubCtl c
  | .quarter q => s.rd R.qstScrubCtl q

/-- The visit that word `w` (byte address / 8) lies in. -/
def wordVisit (u : ScrubUnit) (w : Nat) : Nat :=
  let a := 8 * w
  match u with
  | .cluster _ => a % 2 ^ 17 / 32 * 32 + a % 2 ^ 22 / 2 ^ 17
  | .quarter _ => a % 2 ^ 20 / 32 * 64 + a % 2 ^ 26 / 2 ^ 20

/-- Banks of a scrubber's memory. -/
def scrubBanks (u : ScrubUnit) : Nat :=
  match u with
  | .cluster _ => 32
  | .quarter _ => 64

/-- The visit to make: the oldest queued repair word of the rotation's bank goes ahead of the rotation (R203). -/
def Scrub.next (x : Scrub) (u : ScrubUnit) : Nat :=
  (((x.repair.map (wordVisit u)).find? (fun v => v % scrubBanks u == x.visit % scrubBanks u))).getD x.visit

/-- SCRUB_VISIT: one row is read; where a word needs repair, its write-back waits to land, and lands by the next visit (R202,
R205). -/
def execScrubVisit (u : ScrubUnit) (s : State) : Res :=
  let k := (scrubPlace u).1
  .next (if !bit (s.scrubCtl u) 24 || s.power.state == .entering || s.power.state == .doze || s.power.state == .waking then s
    else
      let s1 := s.finishWb u
      let v := (s1.scrub k).next u
      let a := visitByte u v
      let s2 := s1.scrubRead a
      if (rowWords a).any (fun w => s1.eccOf w == 1) then s2.modScrub k (fun x => { x with row := some v })
      else (s2.modScrub k (fun x => { x with repair := x.repair.filter (fun w => !(rowWords a).contains (8 * w)) })).rotated u v)

/-- The exponent after an evaluation (R203): `ctl` is SCRUB_CTL. -/
def Scrub.eval (x : Scrub) (ctl : Nat) : Scrub :=
  let clean := if x.errors = 0 then x.clean + 1 else 0
  let n := if bits ctl 23 16 ≤ x.errors then x.n - 1 else if 16 ≤ clean then x.n + 1 else x.n
  { x with n := max (bits ctl 12 8) (min (bits ctl 4 0) n), errors := 0, clean := if 16 ≤ clean then 0 else clean }

/-- SCRUB_EVALUATION: at a committing seal whose tick is a multiple of 1,024 (R203). -/
def execScrubEvaluation (u : ScrubUnit) (s : State) : Res :=
  .next (if (s.tick.count - 1) % 1024 ≠ 0 ∨ s.tick.count < 2 then s
    else s.modScrub (scrubPlace u).1 (fun x => x.eval (s.scrubCtl u)))

end Sys2Proof.Machine
end

