-- ==== Sys2Proof/Machine/Operands.lean ====
section
/-!
DEFINITION. Thread instructions before their effect: the fields of a word (04 Tables 04-2, 04-3), guards (R99), operand b
(R101), and the issue of a group's next instruction with its checks in order (R70, R91, R118, R128).
-/
namespace Sys2Proof.Machine

/-- The low 26 bits of a thread instruction (Table 04-2). -/
abbrev TWord := BitVec 26

/-- Bits [hi:lo] of a word. -/
def tw (w : TWord) (hi lo : Nat) : Nat := bits w.toNat hi lo

def wGe (w : TWord) : Bool := bit w.toNat 25
def wGn (w : TWord) : Bool := bit w.toNat 24
def wGp (w : TWord) : Nat := tw w 23 21
def wD (w : TWord) : Nat := tw w 20 15
def wA (w : TWord) : Nat := tw w 14 9
def wB (w : TWord) : Nat := tw w 8 3
def wBs (w : TWord) : Bool := bit w.toNat 2
def wX (w : TWord) : Nat := tw w 1 0
def wImm9 (w : TWord) : Nat := tw w 8 0
def wImm16 (w : TWord) : Nat := tw w 15 0
def wOff (w : TWord) : Nat := tw w 20 0

/-- Memory format fields (Table 04-3). -/
def wR (w : TWord) : Nat := tw w 20 15
def wH (w : TWord) : Nat := tw w 8 5
def wW (w : TWord) : Nat := tw w 4 3
def wS (w : TWord) : Nat := tw w 2 0

/-- The guard fields are legal (R99): gn and gp are 0 where ge is 0. -/
def guardOk (w : TWord) : Bool := wGe w || (!wGn w && wGp w == 0)

/-- A group-level instruction's guard: ge = 0 (R100). -/
def groupOk (w : TWord) : Bool := !wGe w && !wGn w && wGp w == 0

/-- Operand b is legal (R101): b[5:4] is 0 where it is a uniform register. -/
def bOk (w : TWord) : Bool := !wBs w || decide (wB w < 16)

/-- Predicate p[k]. -/
def Group.pred (x : Group) (k : Nat) : Word := mget 0#32 x.p k

/-- Uniform register u[k]. -/
def Group.ureg (x : Group) (k : Nat) : Word := mget 0#32 x.u k

/-- The group with p[k] set. -/
def Group.setP (x : Group) (k : Nat) (v : Word) : Group := { x with p := mput x.p k v }

/-- The group with u[k] set. -/
def Group.setU (x : Group) (k : Nat) (v : Word) : Group := { x with u := mput x.u k v }

/-- gmask() (R99). -/
def Group.gmask (x : Group) (w : TWord) : Word :=
  if wGe w then (if wGn w then ~~~(x.pred (wGp w)) else x.pred (wGp w)) else 0xFFFFFFFF#32

/-- ex = active & gmask() (R96). -/
def Group.ex (x : Group) (w : TWord) : Word := x.active &&& x.gmask w

/-- The executing lanes, ascending. -/
def lanes (ex : Word) : List Nat := (List.range 32).filter (fun l => ex.getLsbD l)

/-- B(l) (R101). -/
def Group.opB (x : Group) (w : TWord) (l : Nat) : Word := if wBs w then x.ureg (wB w % 16) else x.treg (wB w) l

/-- t[d][l] = f(l) on the executing lanes (R96). -/
def Group.each (x : Group) (w : TWord) (d : Nat) (f : Nat → Word) : Group :=
  (lanes (x.ex w)).foldl (fun y l => y.setT d l (f l)) x

/-- The lanes of `ex` on which `f` holds, as a mask. -/
def laneMask (ex : Word) (f : Nat → Bool) : Word :=
  (lanes ex).foldl (fun m l => if f l then m ||| (1#32 <<< l) else m) 0#32

/-- p[k] with the executing lanes set from a mask (R103, R104). -/
def Group.putPred (x : Group) (w : TWord) (k : Nat) (v : Word) : Group :=
  x.setP k ((x.pred k &&& ~~~(x.ex w)) ||| (v &&& x.ex w))

/-- The pc of the next word. -/
def Group.next (x : Group) : Group := { x with pc := (x.pc + 4) % 2 ^ 32 }

/-- sext(imm, 9) as a word. -/
def imm9 (w : TWord) : Word := w32 (wrap 32 (sext 9 (wImm9 w)))

/-- The thread registers that a group's outstanding requests will write (R97). -/
def State.awaited (s : State) (c g : Nat) : List Nat :=
  let of (u : ReqUse) : List Nat := match u with
    | .lane k j _ r size _ => if k = c ∧ j = g then (if size = 8 then [r, r + 1] else [r]) else []
    | .atom k j _ r => if k = c ∧ j = g then [r] else []
    | _ => []
  (s.fabric.pending.filter (fun p => !p.discarded)).flatMap (fun p => of p.use) ++ s.fabric.sendq.flatMap (fun r => of r.use)

/-- The kind 0 span address of the group's next instruction (R130). -/
def State.instrAddr (s : State) (c : Nat) (x : Group) : Nat :=
  spanScratch s.self c (spdMap (s.entry c x.code) x.pc 0 % 2 ^ 22)

/-- A thread fault at the instruction itself (R130). -/
def State.faultHere (s : State) (c g code : Nat) (x : Group) : State :=
  s.threadFault c g x.tenant code 0 (s.instrAddr c x)

/-! ### The word at pc (R69, R128) -/

/-- The opcodes that Table 04-4 defines. -/
def threadOps : List Nat :=
  (List.range 64).filter (fun n => n != 0 && n != 0x1F && n != 0x2E && n != 0x2F && n != 0x33 && decide (n < 0x3C))

/-- A thread instruction's 32-bit word (Table 04-2). -/
def threadWord (op : Nat) (w : TWord) : Nat := op * 2 ^ 26 + w.toNat

/-- The byte addresses of the group's next word in its code handle. -/
def State.pcAddrs (s : State) (c : Nat) (x : Group) : List Nat :=
  let e := s.entry c x.code
  hAddrs c e x.pc 4 (hReadHalf e)

/-- The word that the fetch at pc reads through the G port; none where an uncorrectable word or a bank in use by its leaseholder
leaves it undefined or 0 (R115, R188, Table 07-3). -/
def State.codeWord (s : State) (c : Nat) (x : Group) : Option Nat :=
  let a := s.pcAddrs c x
  if s.entryBad c x.code || (wordsOf a).any (fun w => decide (2 ≤ s.eccOf w)) || a.any (s.lost 3) then none
  else some (leNat (a.map s.byte))

/-- What the word at pc makes of a command that names an instruction: it is that instruction's, an illegal one, or another's
(log 41). -/
inductive Fetched where
  | this
  | illegal
  | other
deriving DecidableEq, Repr

/-- The word at pc against a commanded one: an undefined word may be any. A reserved opcode and the all-zero word are illegal
(R128). -/
def State.fetched (s : State) (c : Nat) (x : Group) (op : Nat) (w : TWord) : Fetched :=
  match s.codeWord c x with
  | none => .this
  | some v =>
    if v = threadWord op w then (if v = 0 then .illegal else .this)
    else if v = 0 || !threadOps.contains (v / 2 ^ 26) then .illegal
    else .other

/-! ### Readiness and selection (R70, R71, R248) -/

/-- Executing lanes with their byte offsets t[a][l] (R111). -/
def Group.offsets (x : Group) (w : TWord) : List (Nat × Nat) := (lanes (x.ex w)).map (fun l => (l, (x.treg (wA w) l).toNat))

/-- An access through a remote entry, asked for by the first executing lane, has a home and injection credit (R248): the tenant
has a free home, none of the group's requests waits for one, and the port it leaves by covers the frame. -/
def State.mayInject (s : State) (c g : Nat) (x : Group) (op : Nat) (w : TWord) : Bool :=
  let e := s.entry c ((x.ureg (wH w)).toNat % 1024)
  match x.offsets w with
  | [] => true
  | (_, o) :: _ =>
    if hType e ≠ 4 then true
    else
      let a := hSaddr e + o
      let here := s.rd R.spnPos
      let data := if op = 0 then [] else zeros (2 ^ wW w)
      (s.freeHome c x.tenant).isSome && !s.fabric.sendq.any (fun r => r.use.slot == some (c, g)) &&
        (match s.physical (a / 2 ^ 45) with
        | none => true
        | some d => d == here || (match (s.nextHop ⟨.req, ⟨x.tenant, d, here, 0, 0, 0⟩,
              ⟨a, op, 0, 2 ^ wW w, s.tick.ns, c, 0, 0, 0⟩, ⟨0, 0, 0, 0, 0⟩, data⟩).1 with
            | .port p f => s.covered p f
            | .lost | .noRoute => true))

/-- The group's next instruction is not held back by what it needs: a copy by 32 copies outstanding (R70), a remote access by
homes and credit (R248). -/
def State.unblocked (s : State) (c g : Nat) (x : Group) : Bool :=
  match s.codeWord c x with
  | none => true
  | some v =>
    let w : TWord := BitVec.ofNat 26 v
    match v / 2 ^ 26 with
    | 0x3B => decide (x.copies < 32)
    | 0x30 => s.mayInject c g x 0 w
    | 0x31 => s.mayInject c g x 1 w
    | 0x32 => s.mayInject c g x 2 w
    | _ => true

/-- The active entries whose groups are ready as group `g` issues (R70, R71). Whether another group has its operands is free
(log 50); `g` has them. -/
def State.issueMask (s : State) (c g : Nat) : Nat :=
  natSum ((s.cluster c).active.map (fun p => match mfind (s.cluster c).groups p.2 with
    | some x => if x.ready && s.unblocked c p.2 x && (p.2 == g || Config.operandsIn s.freeCtr p.1) then 2 ^ p.1 else 0
    | none => 0))

/-- The selection rule chooses group `g` in this clk (R71). -/
def State.groupPicked (s : State) (c g : Nat) : Bool :=
  (s.cluster c).entryOf g == some (pick (s.issuePtr c) (s.issueMask c g))

/-- The group may issue now: it has an active entry, is ready, and the selection rule chooses it (R70, R71, R92). -/
def State.mayIssue (s : State) (c g : Nat) : Option Group :=
  match s.group c g with
  | some x => if x.ready && s.unblocked c g x && s.groupPicked c g then some x else none
  | none => none

/-- A group issues in its active entry: with det_eff = 0 the pointer moves past it, and a clk whose two pointers choose differently
counts in TGP.NDC (R64, R71). -/
def State.issued (s : State) (c g : Nat) : State :=
  match (s.cluster c).entryOf g with
  | none => s
  | some e =>
    let m := s.issueMask c g
    let s1 := if !s.tick.detEff && decide (2 ≤ ((List.range 8).filter (fun i => bit m i)).length) && pick (s.fixedPtr c) m != e
      then s.cnt R.tgpNdc c else s
    (s1.modCluster c (fun x => { x with rotate := if s.tick.detEff then x.rotate else (e + 1) % 8 })).draw

/-- A breakpoint stands at the group's next instruction and has not let it pass (R92). -/
def State.breaks (s : State) (c : Nat) (x : Group) : Bool :=
  let b := s.rd R.tgpDbgBp c
  bit b 0 && b / 4 * 4 == x.pc && !x.bpHit && !x.stepping

/-- A breakpoint halts the group, where no other group of the cluster is halted (R91, R92). While one is, DBG_STS.busy is set and
the group does not issue (log 47). -/
def State.breakHalt (s : State) (c g : Nat) (x : Group) : State :=
  if s.otherHalted c g then s.setBusy c true
  else (s.setGroup c g { x with halted := true, bpHit := true }).haltNote s

/-- After an issue: a stepped group halts again (R92); the issue pointers move (R71); groups change places (R72). -/
def State.afterIssue (s : State) (c g : Nat) : State :=
  (s.modGroup c g (fun x => { x with stepped := x.stepping, bpHit := false })).schedule c

/-- The fetch of a group's next word reads its code entry and its code words (R201). -/
def State.fetchTouch (s : State) (c : Nat) (x : Group) : State :=
  (s.touchEntry c x.code 7 x.tenant).each (wordsOf (s.pcAddrs c x)) (fun t a => t.touch a 7 x.tenant)

/-- Issue one instruction of group `g`, of opcode `op` and word `w` (R70, R92, R118, R128), where the fetch at pc reads that word:
`legal` says its encoding is legal, `regs` the thread registers it reads or writes, `hold` that an earlier access must be
performed first (R85); `body` is its effect. -/
def State.issueHeld (s : State) (c g op : Nat) (w : TWord) (legal : Bool) (regs : List Nat) (hold : Group → Bool)
    (body : State → Group → State) : State :=
  match s.mayIssue c g with
  | none => s
  | some x =>
    let e := s.entry c x.code
    if s.breaks c x then s.breakHalt c g x
    else if hType e ≠ 1 ∨ hLen e < x.pc + 4 then (s.faultHere c g 0x22 x).schedule c
    else match s.fetched c x op w with
      | .other => s
      | .illegal => ((s.fetchTouch c x).faultHere c g 0x20 x).schedule c
      | .this =>
        if !legal then ((s.fetchTouch c x).faultHere c g 0x20 x).schedule c
        else if regs.any (fun r => (s.awaited c g).contains r) || hold x then
          (s.setGroup c g { x with wait := .response }).schedule c
        else (body ((s.fetchTouch c x).issued c g) x).afterIssue c g

/-- Issue one instruction that no earlier access holds back but through its registers. -/
def State.issue (s : State) (c g op : Nat) (w : TWord) (legal : Bool) (regs : List Nat) (body : State → Group → State) : State :=
  s.issueHeld c g op w legal regs (fun _ => false) body

/-- Issue an instruction whose effect is on the group alone. -/
def State.issueGroup (s : State) (c g op : Nat) (w : TWord) (legal : Bool) (regs : List Nat) (f : State → Group → Group) : State :=
  s.issue c g op w legal regs (fun t x => t.setGroup c g (f t x))

/-- The registers an O-format instruction reads and writes: d, a, and b where it is a thread register. -/
def oRegs (w : TWord) : List Nat := [wD w, wA w] ++ (if wBs w then [] else [wB w])

/-- Issue an O-format instruction that sets t[d][l] from A, B and t[d][l], with x = 0 (R102, R108). -/
def State.issueO (s : State) (c g code : Nat) (w : TWord) (op : Word → Word → Word → Word) : State :=
  s.issueGroup c g code w (guardOk w && bOk w && wX w == 0) (oRegs w) (fun _ x =>
    (x.each w (wD w) (fun l => op (x.treg (wA w) l) (x.opB w l) (x.treg (wD w) l))).next)

/-- Issue an I-format short instruction that sets t[d][l] from A (R102). -/
def State.issueI (s : State) (c g code : Nat) (w : TWord) (legal : Bool) (op : Word → Word) : State :=
  s.issueGroup c g code w (guardOk w && legal) [wD w, wA w] (fun _ x =>
    (x.each w (wD w) (fun l => op (x.treg (wA w) l))).next)

end Sys2Proof.Machine
end

