-- ==== Sys2Proof/Machine/ThreadMem.lean ====
section
/-!
DEFINITION. The thread memory instructions LD, ST and ATOM (04 R111 to R117) and asynchronous copies (R124, R125, R473, 03
R79).
-/
namespace Sys2Proof.Machine

/-! ### Resolving a handle (R197, Table 04-10) -/

/-- What a handle index resolves to: the cluster that holds the entry, the entry that decides (R197), and whether a word of it or
of the link entry is uncorrectable, so that the access is not performed (Table 07-3). -/
structure Resolved where
  cluster : Nat
  entry : HEntry
  index : Nat
  bad : Bool
deriving DecidableEq, Repr

/-- The quad neighbour that a type 2 entry names (R197, R68). -/
def neighbourOf (c : Nat) (e : HEntry) : Nat := c / 4 * 4 + hQpos e

/-- An entry is valid and its owner is the tenant, whose tag is enabled and whose footprints are not being zeroed (Table
04-10 step 1, R24, R312). -/
def State.owned (s : State) (e : HEntry) (t : Nat) : Bool :=
  hType e != 0 && hOwner e == t && s.tagOn t && !(s.fn t).zeroing

/-- Step 1 (Table 04-10): the entry, and the neighbour's entry it names, are valid and owned. -/
def State.resolve (s : State) (c i t : Nat) : Option Resolved :=
  let e := s.entry c i
  if hType e = 2 then
    let n := neighbourOf c e
    let f := s.entry n (hNidx e)
    if hOwner e = t ∧ s.owned f t = true then some ⟨n, f, hNidx e, s.entryBad c i || s.entryBad n (hNidx e)⟩ else none
  else if s.owned e t then some ⟨c, e, i, s.entryBad c i⟩ else none

/-- Step 2: the rights, and for a neighbour's entry, type 1 and quad-visible. -/
def Resolved.right (r : Resolved) (c : Nat) (need : List Nat) : Bool :=
  need.all (fun n => hRight r.entry n) && (r.cluster == c || (hType r.entry == 1 && hRight r.entry 7))

/-- The span address of byte `o` of an access (R130): a paired entry's in half 0's footprint (R198). -/
def State.accessAddr (s : State) (r : Resolved) (o : Nat) : Nat :=
  match hType r.entry with
  | 3 => spanStore s.self (r.cluster / 128) (hQoff r.entry + o)
  | 4 => (hSaddr r.entry + o) % 2 ^ 56
  | _ => spanScratch s.self r.cluster (spdMap r.entry o 0 % 2 ^ 22)

/-- A remote access over bytes [o, o + n) has a well-formed span address (R197, R22). -/
def remoteOk (e : HEntry) (o n : Nat) : Bool := !spanBad (hSaddr e + o) && !spanBad (hSaddr e + o + n - 1)

/-- The first failing check of one lane after steps 1 and 2: 3 CONST_WRITE, 4 MISALIGN, 5 HANDLE_RANGE, 6 SPAN_ADDR, or 7
for none (Table 04-10). -/
def laneStep (e : HEntry) (write : Bool) (o n : Nat) : Nat :=
  if write && hKind e == 2 then 3
  else if o % n ≠ 0 then 4
  else if hLen e < o + n then 5
  else if hType e = 4 ∧ remoteOk e o n = false then 6
  else 7

/-- The fault code of a check (Tables 04-10 and 03-6). -/
def stepCode (k : Nat) : Nat :=
  match k with
  | 1 => 0x21
  | 2 => 0x23
  | 3 => 0x28
  | 4 => 0x24
  | 5 => 0x22
  | _ => 0x25

/-- The failing check of the executing lanes that comes first, with the offset of the lowest lane that fails it (R112). -/
def firstFault (e : HEntry) (write : Bool) (n : Nat) (offs : List Nat) : Option (Nat × Nat) :=
  [3, 4, 5, 6].findSome? (fun k => (offs.find? (fun o => laneStep e write o n == k)).map (fun o => (k, o)))

/-! ### Local accesses (R113, R114, R117) -/

/-- Byte addresses of a lane's access, of the half read or written (R113). -/
def laneAddrs (r : Resolved) (o n : Nat) (write : Bool) : List Nat :=
  hAddrs r.cluster r.entry o n (if write then hWriteHalf r.entry else hReadHalf r.entry)

/-- The bytes each lane of a load reads: lane, bytes. Uncorrectable words, local handles and unleased banks read as R83,
R49 and R115 say; with a bad entry no lane's access is performed (Table 07-3). -/
def State.loadLanes (s : State) (r : Resolved) (n : Nat) (offs : List (Nat × Nat)) : List (Nat × List Byte) :=
  offs.map (fun p => (p.1,
    if r.bad then (List.range n).map (fun i => Config.freeByte s.freeCtr (p.1 * 8 + i))
    else (laneAddrs r p.2 n false).zipIdx.map (fun a => s.readByte 3 (hKind r.entry == 0) (p.1 * 8 + a.2) a.1)))

/-- What a load does besides answering. -/
def State.afterLoad (s : State) (r : Resolved) (t n : Nat) (offs : List (Nat × Nat)) : State :=
  if r.bad then s.draw
  else s.afterRead 3 7 t (offs.flatMap (fun p => laneAddrs r p.2 n false))

/-- A store's lanes write in ascending order, so the highest lane's value stays (R85). -/
def State.storeLanes (s : State) (r : Resolved) (t : Nat) (l : List (Nat × List Byte)) : State :=
  if r.bad then s
  else s.writeBytes 3 7 t (l.flatMap (fun p => laneAddrs r p.1 p.2.length true)) (l.flatMap (·.2))

/-- One lane's atomic: the old word, and the state with the new one (R117). -/
def State.atomLane (s : State) (r : Resolved) (t op o : Nat) (v cas : Word) : State × Word :=
  let a := laneAddrs r o 4 true
  if r.bad then (s.draw, (Config.freeWord s.freeCtr).setWidth 32)
  else
    let m := w32 (leNat (s.readBytes 3 (hKind r.entry == 0) a))
    ((s.afterRead 3 7 t a).writeBytes 3 7 t a (leBytes 4 (atomNew op m v cas).toNat), m)

/-- The lanes of an atomic, ascending. -/
def State.atomLanes (s : State) (r : Resolved) (t op reg : Nat) (x : Group) (l : List (Nat × Nat)) : State × Group :=
  match l with
  | [] => (s, x)
  | (ln, o) :: rest =>
    let a := s.atomLane r t op o (x.treg reg ln) (x.treg (reg + 1) ln)
    a.1.atomLanes r t op reg (x.setT reg ln a.2) rest

/-! ### Remote accesses (R116, R256) -/

/-- An atomic's home sequence number (R256). -/
def State.hsnOf (s : State) (c g l addr : Nat) : Nat :=
  let h := s.dist s.self (addr / 2 ^ 45)
  (s.tick.ns + 17 * (100 + 140 * h) / 10) % 2 ^ 32 * 2 ^ 32 + s.self % 2048 * 2 ^ 20 + c % 512 * 2 ^ 11 + g % 64 * 2 ^ 5 + l

/-- Send one confirmed request for each executing lane (R116). -/
def State.remoteLanes (s : State) (c g t op atom n : Nat) (e : HEntry) (l : List (Nat × Nat))
    (data : Nat → List Byte) (cas : Nat → Nat) (use : Nat → ReqUse) : State :=
  (s.modGroup c g (fun x => { x with remote := x.remote + l.length })).modFab (fun f => { f with
    asked := f.asked + 1
    sendq := f.sendq ++ l.map (fun p =>
      let a := hSaddr e + p.2
      { tenant := t, unit := c,
        access := ⟨a, op, atom, n, s.tick.ns, c, 0, cas p.1, if op = 2 then s.hsnOf c g p.1 a else 0⟩,
        data := data p.1, use := use p.1, order := f.asked, mgmt := false, via := none }) })

/-! ### LD, ST, ATOM -/

/-- A use writes its bytes at the target. -/
def ReqUse.writes (u : ReqUse) : Bool :=
  match u with
  | .store _ _ | .atom _ _ _ _ => true
  | _ => false

/-- An access of the group's lanes meets bytes of an earlier access of the group that has no response, one of the two writing: it
waits, so that a thread's accesses to a byte are performed in its order (R85; log 51). -/
def State.clashes (s : State) (c g : Nat) (w : TWord) (n : Nat) (write : Bool) (x : Group) : Bool :=
  match s.resolve c ((x.ureg (wH w)).toNat % 1024) x.tenant with
  | none => false
  | some r =>
    let hit (u : ReqUse) (a m : Nat) : Bool := u.slot == some (c, g) && (write || u.writes) &&
      (x.offsets w).any (fun p => meet (s.accessAddr r p.2) n a m)
    s.fabric.pending.any (fun p => !p.discarded && hit p.use p.addr p.size) ||
      s.fabric.sendq.any (fun q => hit q.use q.access.addr q.access.size)

/-- Run a memory instruction: the checks of Table 04-10 over the executing lanes (R112), then its effect with the entry
resolved. A tag that is not enabled is refused before them (R24; log 52). With no executing lane it only passes (R96). A disagreement of the comparators refuses the owner check (R402). -/
def State.memory (s : State) (c g : Nat) (w : TWord) (x : Group) (need : List Nat) (n : Nat)
    (act : State → Resolved → List (Nat × Nat) → State) : State :=
  let offs := x.offsets w
  let i := (x.ureg (wH w)).toNat % 1024
  let here := s.setGroup c g x.next
  match offs with
  | [] => here
  | (_, o0) :: _ =>
    if s.island.disagree then s.disagreed.faultHere c g 0x21 x
    else if !s.tagOn x.tenant then s.threadFault c g x.tenant 0x15 2 0
    else match s.resolve c i x.tenant with
    | none => s.faultHere c g 0x21 x
    | some r =>
      let s1 := if r.cluster = c then s else s.touchEntry c i 7 x.tenant
      if !r.right c need then s1.threadFault c g x.tenant 0x23 0 (s1.accessAddr r o0)
      else match firstFault r.entry (need.contains 1) n (offs.map (·.2)) with
        | some (k, o) => s1.threadFault c g x.tenant (stepCode k) 0 (if k = 6 then s1.instrAddr c x else s1.accessAddr r o)
        | none => act ((s1.touchEntry r.cluster r.index 7 x.tenant).setGroup c g x.next) r offs

/-- A double's value in t[r], t[r + 1], or a word's low bytes in t[r] (R111). -/
def Group.storeBytes (x : Group) (r n l : Nat) : List Byte :=
  leBytes n ((x.treg r l).toNat + (if n = 8 then (x.treg (r + 1) l).toNat * 2 ^ 32 else 0))

/-- LD (R111). -/
def execLd (c : Fin 512) (g : Fin 64) (w : BitVec 26) (s : State) : Res :=
  let n := 2 ^ wW w
  let sx := bit (wS w) 2
  .next ((s.issueHeld c g 0x30 w (guardOk w && wS w % 4 == 0 && !(sx && decide (2 ≤ wW w)) && !(wW w == 3 && wR w % 2 == 1))
    ([wR w, wA w] ++ if wW w = 3 then [wR w + 1] else []) (s.clashes c g w n false) (fun t x =>
      t.memory c g w x [0] n (fun t r offs =>
        if hType r.entry = 4 ∧ r.bad = false then
          t.remoteLanes c g x.tenant 0 0 n r.entry offs (fun _ => []) (fun _ => 0) (fun l => .lane c g l (wR w) n sx)
        else
          (t.afterLoad r x.tenant n offs).setGroup c g
            ((t.loadLanes r n offs).foldl (fun y p => y.setWords (wR w) p.1 (loadWords n sx p.2)) x.next)))).pump)

/-- ST (R111). -/
def execSt (c : Fin 512) (g : Fin 64) (w : BitVec 26) (s : State) : Res :=
  let n := 2 ^ wW w
  .next ((s.issueHeld c g 0x31 w (guardOk w && wS w == 0 && !(wW w == 3 && wR w % 2 == 1))
    ([wR w, wA w] ++ if wW w = 3 then [wR w + 1] else []) (s.clashes c g w n true) (fun t x =>
      t.memory c g w x [1] n (fun t r offs =>
        if hType r.entry = 4 ∧ r.bad = false then
          t.remoteLanes c g x.tenant 1 0 n r.entry offs (fun l => x.storeBytes (wR w) n l) (fun _ => 0) (fun _ => .store c g)
        else t.storeLanes r x.tenant (offs.map (fun p => (p.2, x.storeBytes (wR w) n p.1)))))).pump)

/-- ATOM (R117). -/
def execAtom (c : Fin 512) (g : Fin 64) (w : BitVec 26) (s : State) : Res :=
  let cas := wS w == 7
  .next ((s.issueHeld c g 0x32 w (guardOk w && wW w == 2 && !(cas && wR w % 2 == 1))
    ([wR w, wA w] ++ if cas then [wR w + 1] else []) (s.clashes c g w 4 true) (fun t x =>
      t.memory c g w x [0, 1] 4 (fun t r offs =>
        if hType r.entry = 4 ∧ r.bad = false then
          t.remoteLanes c g x.tenant 2 (wS w) 4 r.entry offs (fun l => x.storeBytes (wR w) 4 l)
            (fun l => if cas then (x.treg (wR w + 1) l).toNat else 0) (fun l => .atom c g l (wR w))
        else
          let a := t.atomLanes r x.tenant (wS w) (wR w) x.next offs
          a.1.setGroup c g a.2))).pump)

/-! ### Copies (R124, R125, R473, R79) -/

/-- A copy's descriptor from u[4k] to u[4k + 3] (Table 04-13a). -/
structure CopyDesc where
  dst : Nat
  src : Nat
  dstOff : Nat
  srcOff : Nat
  len : Nat
deriving DecidableEq, Repr

/-- The descriptor a CPY names. -/
def Group.copyDesc (x : Group) (k : Nat) : CopyDesc :=
  let u (i : Nat) : Nat := (x.ureg (4 * k + i)).toNat
  ⟨u 0 % 1024, bits (u 0) 25 16, u 1, u 2, u 3⟩

/-- One side's check of step `k` of Table 04-10 as a copy applies it (R125). A copy of length 0 has no range whose address could be
malformed (log 47). -/
def State.copyStep (s : State) (c t k i o len : Nat) (write : Bool) : Bool :=
  match s.resolve c i t with
  | none => k != 1
  | some r => match k with
    | 1 => true
    | 2 => r.right c [if write then 6 else 5]
    | 3 => !(write && hKind r.entry == 2)
    | 4 => o % 8 == 0 && len % 8 == 0
    | 5 => decide (len ≤ 4194304) && decide (o + len ≤ hLen r.entry)
    | _ => hType r.entry != 4 || len == 0 || remoteOk r.entry o len

/-- The first failing check of a copy: its step, and whether its source fails it (R125); the source's owner check, where the
comparators disagree (R402). -/
def State.copyFault (s : State) (c t : Nat) (d : CopyDesc) : Option (Nat × Bool) :=
  if s.island.disagree then some (1, true)
  else [1, 2, 3, 4, 5, 6].findSome? (fun k =>
    if !s.copyStep c t k d.src d.srcOff d.len false then some (k, true)
    else if !s.copyStep c t k d.dst d.dstOff d.len true then some (k, false)
    else none)

/-- The address a copy fault reports (R130). -/
def State.copyFaultAddr (s : State) (c : Nat) (x : Group) (d : CopyDesc) (k : Nat) (src : Bool) : Nat :=
  if k = 1 ∨ (k = 6 ∧ src = true) then s.instrAddr c x
  else match s.resolve c (if src then d.src else d.dst) x.tenant with
    | some r => s.accessAddr r (if src then d.srcOff else d.dstOff)
    | none => s.instrAddr c x

/-- Byte addresses of one local side of a copy (R197). -/
def localAddrs (r : Resolved) (o n : Nat) (write : Bool) : List Nat :=
  if hType r.entry = 3 then (List.range n).map (fun i => qsAddr (r.cluster / 128) (hQoff r.entry + o + i)) else laneAddrs r o n write

/-- A copy's local source bytes, read now (R125). -/
def State.copySource (s : State) (c t : Nat) (k : ThreadCopy) : State × List Byte :=
  match s.resolve c k.src t with
  | none => (s, zeros k.len)
  | some r =>
    let a := localAddrs r k.srcOff k.len false
    let s1 := s.touchEntry r.cluster r.index 10 t
    if r.bad then (s1.draw, (List.range k.len).map (fun i => Config.freeByte s.freeCtr i))
    else (s1.afterRead 2 10 t a, s.readBytes 2 (hKind r.entry == 0) a)

/-- Write a copy's data to its local destination. -/
def State.copyDest (s : State) (c t : Nat) (k : ThreadCopy) (d : List Byte) : State :=
  match s.resolve c k.dst t with
  | none => s
  | some r =>
    let s1 := s.touchEntry r.cluster r.index 10 t
    if r.bad then s1 else s1.writeBytes 2 10 t (localAddrs r k.dstOff k.len true) d

/-- Queue a checked copy; one with a remote side sends its first requests (R124, R473). -/
def State.startCopy (s : State) (c g : Nat) (x : Group) (d : CopyDesc) (counter : Nat) : State :=
  let id := (s.cluster c).copyIds
  let k : ThreadCopy := ⟨id, x.tenant, g, x.block, counter, d.src, d.dst, d.srcOff, d.dstOff, d.len, 0, zeros d.len, x.order,
    s.instrAddr c x⟩
  let s1 := (s.modCluster c (fun q => { q with
    copies := q.copies ++ [k], copyIds := id + 1,
    blocks := match mfind q.blocks x.block with
      | some b => mput q.blocks x.block { b with copies := b.copies + 1 }
      | none => q.blocks })).setGroup c g { x.next with copies := x.copies + 1 }
  let src := s.entry c d.src
  let dst := s.entry c d.dst
  let bad (i : Nat) : Bool := match s.resolve c i x.tenant with
    | some r => r.bad
    | none => false
  if d.len = 0 || (bad d.src && hType src == 4) || (bad d.dst && hType dst == 4) then
    ((s1.touchEntry c d.src 10 x.tenant).touchEntry c d.dst 10 x.tenant)
  else if hType src = 4 then
    let l := s1.copyPieces c k
    (s1.modCopy c id (fun y => { y with pieces := l.length })).each l (fun t p =>
      t.ask c x.tenant (remoteAddr src (d.srcOff + p.1)) 0 p.2 [] (.copy c id false p.1))
  else if hType dst = 4 then
    let r := s1.copySource c x.tenant k
    let k' := { k with data := r.2 }
    (r.1.modCopy c id (fun _ => k')).copyWrites c k'
  else s1

/-- CPY (R124): with 32 copies outstanding the group is not ready (R70). -/
def execCpy (c : Fin 512) (g : Fin 64) (w : BitVec 26) (s : State) : Res :=
  .next (if (match s.group c g with | some x => decide (32 ≤ x.copies) | none => false) then s
    else (s.issue c g 0x3B w (groupOk w && tw w 20 6 == 0) [] (fun t x =>
      let d := x.copyDesc (tw w 5 4)
      if !t.tagOn x.tenant then t.threadFault c g x.tenant 0x15 2 0
      else match t.copyFault c x.tenant d with
      | some (k, src) => t.disagreed.threadFault c g x.tenant (stepCode k) 0 (t.copyFaultAddr c x d k src)
      | none => t.startCopy c g x d (tw w 3 0))).pump)

/-- The copy is done with: its block and its group's slot count one less. -/
def State.endCopy (s : State) (c : Nat) (k : ThreadCopy) : State :=
  s.modCluster c (fun q => { q with
    copies := q.copies.filter (fun y => y.id != k.id),
    blocks := match mfind q.blocks k.block with
      | some b => mput q.blocks k.block { b with copies := b.copies - 1 }
      | none => q.blocks,
    groups := match mfind q.groups k.slot with
      | some x => if x.order = k.order then mput q.groups k.slot { x with copies := x.copies - 1 } else q.groups
      | none => q.groups })

/-- COPY_COMPLETE (R79): a copy whose requests are all answered writes its local destination, and its counter rises. -/
def execCopyComplete (c : Fin 512) (id : Nat) (s : State) : Res :=
  .next (match (s.cluster c).copyOf id with
    | none => s
    | some k =>
      if k.pieces ≠ 0 then s
      else
        let dst := s.entry c k.dst
        let src := s.entry c k.src
        let s1 := if k.len = 0 ∨ hType dst = 4 then s
          else
            let d := if hType src = 4 then (s, k.data) else s.copySource c k.tenant k
            d.1.copyDest c k.tenant k d.2
        ((s1.endCopy c k).raise c k.slot k.tenant k.block k.counter k.addr).schedule c)

end Sys2Proof.Machine
end

