-- ==== Sys2Proof/Machine/Engines.lean ====
section
/-!
DEFINITION. The engines (05) and the copy descriptor (06 R161, R162): the check of an accepted descriptor in the order of
Table 05-7 (R143), the clk each takes (R145, R152, R162, and 07 R189 for bank conflicts), and what it writes when it
completes (R139 to R142, R146 to R151).
-/
namespace Sys2Proof.Machine

/-! ### Checks (Table 05-7) -/

/-- `n` bytes from offset `o` of a descriptor are 0. -/
def zeroAt (b : List Byte) (o n : Nat) : Bool := leAt b o n == 0

/-- One handle a descriptor names: its index, the right it needs, whether it is written, and its footprint's start and end
(R142). -/
structure Operand where
  handle : Nat
  right : Nat
  write : Bool
  off : Nat
  foot : Nat
deriving DecidableEq, Repr

/-- The entry that an operand uses: of a copy descriptor, the one a type 2 entry names (R161). -/
def State.operandEntry (s : State) (c t : Nat) (copy : Bool) (o : Operand) : HEntry :=
  if copy then match s.resolve c o.handle t with
    | some r => r.entry
    | none => s.entry c o.handle
  else s.entry c o.handle

/-- An operand passes step `k` (Table 05-7; 06 R161 for copies). -/
def State.operandOk (s : State) (c t : Nat) (copy : Bool) (k : Nat) (o : Operand) : Bool :=
  let e := s.operandEntry c t copy o
  match k with
  | 2 => if copy then (s.resolve c o.handle t).isSome else s.owned e t
  | 3 => if copy then (match s.resolve c o.handle t with
          | some r => hType r.entry == 1 && r.right c [o.right]
          | none => true)
        else hType e == 1 && hRight e o.right
  | 4 => !(o.write && hKind e == 2)
  | _ => decide (o.foot ≤ hLen e)

/-- The first failing check of a descriptor, as its fault code (Table 05-7, Table 06-5): `form` is step 1, `aligned` step
5. A tag that is not enabled refuses the handles as TAG_OFF (R24; log 52). Comparators that disagree refuse the owner check
(R402). -/
def State.descFault (s : State) (c t : Nat) (copy form aligned : Bool) (l : List Operand) : Option Nat :=
  if !form then some 0x31
  else if !s.tagOn t then some 0x15
  else if s.island.disagree || !l.all (s.operandOk c t copy 2) then some 0x32
  else if !l.all (s.operandOk c t copy 3) then some 0x33
  else if !l.all (s.operandOk c t copy 4) then some 0x34
  else if !aligned then some 0x35
  else if !l.all (s.operandOk c t copy 6) then some 0x36
  else none

/-! ### Tensor descriptors (Table 05-6) -/

def tAt (b : List Byte) : Nat := leAt b 0 1 % 16
def tBt (b : List Byte) : Nat := leAt b 0 1 / 16
def tM (b : List Byte) : Nat := leAt b 2 2
def tKt (b : List Byte) : Nat := leAt b 4 2
def tNt (b : List Byte) : Nat := leAt b 6 2
def tA (b : List Byte) : Nat := leAt b 8 2
def tB (b : List Byte) : Nat := leAt b 0xA 2
def tC (b : List Byte) : Nat := leAt b 0xC 2
def tAOff (b : List Byte) : Nat := leAt b 0x10 4
def tAStride (b : List Byte) : Nat := leAt b 0x14 4
def tBOff (b : List Byte) : Nat := leAt b 0x18 4
def tCOff (b : List Byte) : Nat := leAt b 0x1C 4
def tCStride (b : List Byte) : Nat := leAt b 0x20 4

/-- A type code is INT8 or INT4. -/
def intType (t : Nat) : Bool := t == 4 || t == 5

/-- A and B are of one class (R139). -/
def classOk (a b : Nat) : Bool :=
  (decide (a < 2) && decide (b < 2)) || (a == b && decide (2 ≤ a) && decide (a < 6))

/-- Table 05-5: rows of a B tile, clk per A row, bytes and clk of a B tile. -/
def tKtile (t : Nat) : Nat := if t = 5 then 256 else 128
def tR (t : Nat) : Nat := if t = 2 ∨ t = 3 then 2 else 1
def tTb (t : Nat) : Nat := if t = 2 ∨ t = 3 then 16384 else 8192
def tBl (t : Nat) : Nat := if t = 2 ∨ t = 3 then 128 else 64

/-- Row bytes of A (R141). -/
def tRa (b : List Byte) : Nat := tKt b * 128 * tR (tAt b)

/-- Step 1 of a tensor descriptor. -/
def tensorForm (b : List Byte) : Bool :=
  zeroAt b 1 1 && zeroAt b 0xE 2 && zeroAt b 0x24 28 && decide (tA b < 1024) && decide (tB b < 1024) && decide (tC b < 1024) &&
    classOk (tAt b) (tBt b) && decide (1 ≤ tM b) && decide (tM b ≤ 512) && decide (1 ≤ tKt b) && decide (tKt b ≤ 512) &&
    decide (1 ≤ tNt b) && decide (tNt b ≤ 64) && decide (tRa b ≤ tAStride b) && decide (tNt b * 256 ≤ tCStride b)

/-- Step 5 of a tensor descriptor. -/
def tensorAligned (b : List Byte) : Bool :=
  tAOff b % 128 == 0 && tAStride b % 128 == 0 && tBOff b % 128 == 0 && tCOff b % 256 == 0 && tCStride b % 256 == 0

/-- The operands of a tensor descriptor with their footprints (R142). -/
def tensorOps (b : List Byte) : List Operand :=
  [⟨tA b, 3, false, tAOff b, tAOff b + (tM b - 1) * tAStride b + tRa b⟩,
   ⟨tB b, 3, false, tBOff b, tBOff b + tNt b * tKt b * tTb (tAt b)⟩,
   ⟨tC b, 4, true, tCOff b, tCOff b + (tM b - 1) * tCStride b + tNt b * 256⟩]

/-- Tt (R145). -/
def tensorClk (b : List Byte) : Nat :=
  let bl := tBl (tAt b)
  let step := max (tM b * tR (tAt b)) bl
  16 + bl + 196 + 2 * tM b + natSum ((List.range (tNt b)).map (fun j =>
    max (tKt b * step) (tKt b * bl + (if j = 0 then 0 else 2 * tM b))))

/-! ### Vector descriptors (Tables 05-8, 05-9) -/

/-- A stream block. -/
structure VStream where
  handle : Nat
  type : Nat
  on : Bool
  bcast : Bool
  off : Nat
  s1 : Nat
  s2 : Nat
  s3 : Nat
  /-- Its reserved fields are 0. -/
  clean : Bool
deriving DecidableEq, Repr

/-- The stream block at offset `o`. -/
def vStream (b : List Byte) (o : Nat) : VStream :=
  let f := leAt b (o + 2) 1
  ⟨leAt b o 2 % 1024, f % 16, bit f 4, bit f 5, leAt b (o + 4) 4, leAt b (o + 8) 4, leAt b (o + 12) 4, leAt b (o + 16) 4,
    decide (leAt b o 2 < 1024) && decide (f < 64) && zeroAt b (o + 3) 1⟩

def vX (b : List Byte) : VStream := vStream b 0x14
def vY (b : List Byte) : VStream := vStream b 0x28
def vZ (b : List Byte) : VStream := vStream b 0x3C

/-- Number of stages, and extent `i`. -/
def vN (b : List Byte) : Nat := leAt b 0 1
def vE (b : List Byte) (i : Nat) : Nat := leAt b (4 + 4 * i) 4

/-- A stage: op, mode and imm. -/
structure Stage where
  op : Nat
  mode : Nat
  imm : Nat
deriving DecidableEq, Repr

/-- The stages of a descriptor. -/
def vStages (b : List Byte) : List Stage :=
  (List.range (vN b)).map (fun i => ⟨leAt b (0x50 + 6 * i) 1, leAt b (0x51 + 6 * i) 1, leAt b (0x52 + 6 * i) 4⟩)

/-- A stage reads Y (R147). -/
def Stage.usesY (x : Stage) : Bool := x.mode % 2 == 1 || x.op == 4

/-- A reduction stage. -/
def Stage.reduces (x : Stage) : Bool := x.op == 0x13 || x.op == 0x14

/-- A transcendental stage (Table 05-10). -/
def Stage.hard (x : Stage) : Bool := decide (0xA ≤ x.op) && decide (x.op ≤ 0x10)

/-- A stage is legal at its place; `last` says it is the last (R149). -/
def Stage.legal (x : Stage) (last : Bool) : Bool :=
  match x.op with
  | 1 | 2 | 3 | 5 | 6 => decide (x.mode ≤ 1)
  | 4 => x.mode == 0
  | 7 | 8 | 9 | 0xA | 0xB | 0xC | 0xD | 0xE | 0xF | 0x10 => x.mode == 0 && x.imm == 0
  | 0x11 | 0x12 => x.mode == 0 && decide (x.imm ≤ 5)
  | 0x13 | 0x14 => last && x.mode == 0 && x.imm == 0
  | _ => false

/-- The last stage reduces. -/
def vReduces (b : List Byte) : Bool := (vStages b).any Stage.reduces

/-- Step 1 of a vector descriptor (R146, R147, R149). -/
def vectorForm (b : List Byte) : Bool :=
  let n := vN b
  zeroAt b 1 3 && decide (1 ≤ n) && decide (n ≤ 8) &&
    [0, 1, 2, 3].all (fun i => decide (1 ≤ vE b i) && decide (vE b i ≤ 16777216)) &&
    [vX b, vY b, vZ b].all (fun v => v.clean && decide (v.type < 8)) && (vX b).on && (vZ b).on && !(vZ b).bcast &&
    ((vY b).on == (vStages b).any Stage.usesY) &&
    (vStages b).zipIdx.all (fun p => p.1.legal (p.2 + 1 == n)) && zeroAt b (0x50 + 6 * n) (128 - (0x50 + 6 * n))

/-- Step 5: `off` is a multiple of the element size (R147). -/
def vectorAligned (b : List Byte) : Bool :=
  [vX b, vY b, vZ b].all (fun v => !v.on || v.off % (max 1 (typeBits v.type / 8)) == 0)

/-- The nibble address of element (i0, i1, i2, i3) of a stream (R147). -/
def VStream.at_ (v : VStream) (i0 i1 i2 i3 : Nat) : Nat :=
  2 * (v.off + i1 * v.s1 + i2 * v.s2 + i3 * v.s3) + (if v.bcast then 0 else i0 * (typeBits v.type / 4))

/-- The footprint's end of a stream; one element a row, where `one`. -/
def VStream.foot (v : VStream) (b : List Byte) (one : Bool) : Nat :=
  (v.at_ (if one then 0 else vE b 0 - 1) (vE b 1 - 1) (vE b 2 - 1) (vE b 3 - 1) + typeBits v.type / 4 + 1) / 2

/-- The operands of a vector descriptor. -/
def vectorOps (b : List Byte) : List Operand :=
  [⟨(vX b).handle, 3, false, (vX b).off, (vX b).foot b false⟩] ++
    (if (vY b).on then [⟨(vY b).handle, 3, false, (vY b).off, (vY b).foot b false⟩] else []) ++
    [⟨(vZ b).handle, 4, true, (vZ b).off, (vZ b).foot b (vReduces b)⟩]

/-- Tv (R152). -/
def vectorClk (b : List Byte) : Nat :=
  let per (v : VStream) : Nat := if v.on && !v.bcast then 64 * typeBits v.type / 8 else 0
  let bytes := per (vX b) + per (vY b) + (if vReduces b then 0 else per (vZ b))
  let q := ((vStages b).filter Stage.hard).length
  let cb := max 1 (max ((bytes + 127) / 128) (4 * ((q + 1) / 2)))
  let rows := vE b 1 * vE b 2 * vE b 3
  let x := b2n ((vX b).on && (vX b).bcast) + b2n ((vY b).on && (vY b).bcast) + b2n (vReduces b)
  12 + rows * ((vE b 0 + 63) / 64) * cb + rows * x + 10 + 4 * vN b

/-! ### Copy descriptors (06 Table 06-3) -/

def cSrc (b : List Byte) : Nat := leAt b 0 2
def cDst (b : List Byte) : Nat := leAt b 2 2
def cSrcOff (b : List Byte) : Nat := leAt b 4 4
def cDstOff (b : List Byte) : Nat := leAt b 8 4
def cRow (b : List Byte) : Nat := leAt b 0xC 4
def cRows (b : List Byte) : Nat := leAt b 0x10 4
def cSrcStride (b : List Byte) : Nat := leAt b 0x14 4
def cDstStride (b : List Byte) : Nat := leAt b 0x18 4

/-- Step 1 of a copy descriptor (R161). -/
def copyForm (b : List Byte) : Bool :=
  decide (cSrc b < 1024) && decide (cDst b < 1024) && decide (8 ≤ cRow b) && decide (cRow b ≤ 4194304) && decide (1 ≤ cRows b) &&
    decide (cRows b ≤ 65536) && zeroAt b 0x1C 36

/-- Step 5 of a copy descriptor (R161). -/
def copyAligned (b : List Byte) : Bool :=
  [cSrcOff b, cDstOff b, cRow b, cSrcStride b, cDstStride b].all (fun x => x % 8 == 0)

/-- The operands of a copy descriptor. -/
def copyOps (b : List Byte) : List Operand :=
  [⟨cSrc b, 5, false, cSrcOff b, cSrcOff b + (cRows b - 1) * cSrcStride b + cRow b⟩,
   ⟨cDst b, 6, true, cDstOff b, cDstOff b + (cRows b - 1) * cDstStride b + cRow b⟩]

/-- Td (R162). -/
def State.copyClk (s : State) (c : Nat) (b : List Byte) : Nat :=
  if hType (s.entry c (cSrc b)) = 2 ∨ hType (s.entry c (cDst b)) = 2 then 48 + cRows b * ((cRow b + 63) / 64)
  else 16 + cRows b * ((cRow b + 127) / 128)

/-! ### Engine `n`: 0 tensor, 1 vector, 2 copy -/

/-- Bytes of an engine's descriptor, and what its offset must be a multiple of (Table 06-2). -/
def descSize (n : Nat) : Nat := if n = 1 then 128 else 64

/-- The operands of engine `n`'s descriptor. -/
def opsOf (n : Nat) (b : List Byte) : List Operand :=
  match n with
  | 0 => tensorOps b
  | 1 => vectorOps b
  | _ => copyOps b

/-- The check of a descriptor handed to engine `n` (R143, R161). -/
def State.checkDesc (s : State) (c t n : Nat) (b : List Byte) : Option Nat :=
  match n with
  | 0 => s.descFault c t false (tensorForm b) (tensorAligned b) (tensorOps b)
  | 1 => s.descFault c t false (vectorForm b) (vectorAligned b) (vectorOps b)
  | _ => s.descFault c t true (copyForm b) (copyAligned b) (copyOps b)

/-- Error source of engine `n` (Table 17-8). -/
def engineSrc (n : Nat) : Nat := 8 + n

/-- The entries an operand's handle reads: its own, and the one a link names. -/
def State.operandEntries (s : State) (c t : Nat) (copy : Bool) (o : Operand) : List (Nat × Nat) :=
  (c, o.handle) :: (if copy then match s.resolve c o.handle t with
    | some r => if r.cluster = c then [] else [(r.cluster, r.index)]
    | none => []
  else [])

/-! ### Reading and writing (R144) -/

/-- Byte addresses of `n` bytes from offset `o` of a descriptor's handle: read or written half (R113). -/
def State.descAddrs (s : State) (c t : Nat) (copy : Bool) (h o n : Nat) (write : Bool) : List Nat :=
  if copy then match s.resolve c h t with
    | some r => hAddrs r.cluster r.entry o n (if write then hWriteHalf r.entry else hReadHalf r.entry)
    | none => []
  else
    let e := s.entry c h
    hAddrs c e o n (if write then hWriteHalf e else hReadHalf e)

/-- Rows of a vector descriptor in loop order: i1, i2, i3 (R148). -/
def vRows (b : List Byte) : List (Nat × Nat × Nat) :=
  (List.range (vE b 3)).flatMap (fun k => (List.range (vE b 2)).flatMap (fun j => (List.range (vE b 1)).map (fun i => (i, j, k))))

/-- Nibble addresses of a stream's elements in loop order; one a row, where `one`. -/
def vNibs (b : List Byte) (v : VStream) (one : Bool) : List Nat :=
  (vRows b).flatMap (fun r => (List.range (if one then 1 else vE b 0)).map (fun i => v.at_ i r.1 r.2.1 r.2.2))

/-- Bytes of an element: a nibble lies in one. -/
def elemLen (t : Nat) : Nat := max 1 (typeBits t / 8)

/-! ### Bank conflicts (07 R189) -/

/-- c of one clk: the most distinct rows that its accesses need from any one bank (R189). -/
def clkOf (as : List Nat) : Nat :=
  let rows := as.foldl (fun l a => if l.contains (a / 32) then l else a / 32 :: l) []
  rows.foldl (fun m r => max m (rows.filter (fun x => x / 4096 == r / 4096)).length) 1

/-- The pieces of at most `n` bytes that `len` bytes from `off` on are moved in: offset and length of each. -/
def pieces (off len n : Nat) : List (Nat × Nat) :=
  (List.range ((len + n - 1) / n)).map (fun i => (off + i * n, min n (len - i * n)))

/-- Clk that the chunks of a copy take beyond one each: a chunk's read and write share one c (R189). -/
def State.copyExtra (s : State) (c t : Nat) (b : List Byte) : Nat :=
  let n := if hType (s.entry c (cSrc b)) = 2 ∨ hType (s.entry c (cDst b)) = 2 then 64 else 128
  natSum ((List.range (cRows b)).flatMap (fun i => (pieces 0 (cRow b) n).map (fun p =>
    clkOf (s.descAddrs c t true (cSrc b) (cSrcOff b + i * cSrcStride b + p.1) p.2 false ++
      s.descAddrs c t true (cDst b) (cDstOff b + i * cDstStride b + p.1) p.2 true) - 1)))

/-- Clk that a stream's accesses take beyond one each: each row is read or written in pieces of 128 bytes from its first
element on, one element a row where `one` (R189; DEDUCED, log 44). -/
def State.streamExtra (s : State) (c : Nat) (b : List Byte) (v : VStream) (one write : Bool) : Nat :=
  natSum ((vRows b).flatMap (fun r =>
    let lo := v.at_ 0 r.1 r.2.1 r.2.2
    let len := if one then elemLen v.type else (vE b 0 * (typeBits v.type / 4) + 1) / 2
    (pieces (lo / 2) len 128).map (fun p => clkOf (s.descAddrs c 0 false v.handle p.1 p.2 write) - 1)))

/-- Clk that a vector descriptor's accesses take beyond one each (R189). -/
def State.vectorExtra (s : State) (c : Nat) (b : List Byte) : Nat :=
  let one (v : VStream) (write : Bool) := s.streamExtra c b v (v.bcast || (write && vReduces b)) write
  one (vX b) false + (if (vY b).on then one (vY b) false else 0) + one (vZ b) true

/-- c of one aligned 128-byte access of an entry (R189). -/
def hClk (e : HEntry) : Nat := if hK e = 0 then 4 else if hK e = 1 then 2 else 1

/-- Two entries lie in a common bank (R193). -/
def banksMeet (x y : HEntry) : Bool :=
  decide (hBank x < hBank y + 2 ^ hK y) && decide (hBank y < hBank x + 2 ^ hK x)

/-- The least and the most clk that a tensor descriptor's accesses can take beyond one each. The reads of A share their clk
with reads of B and writes of C; which with which the spec does not say (R189). -/
def State.tensorBounds (s : State) (c : Nat) (b : List Byte) : Nat × Nat :=
  let ea := s.entry c (tA b)
  let eb := s.entry c (tB b)
  let ec := s.entry c (tC b)
  let nA := tNt b * tM b * tRa b / 128
  let nB := tNt b * tKt b * tTb (tAt b) / 128
  let nC := tM b * tNt b * 2
  let xa := nA * (hClk ea - 1)
  let xb := nB * (hClk eb - 1) + nC * (hClk ec - 1)
  (max xa xb, xa + xb + (if banksMeet ea eb || banksMeet ea ec then min nA (nB + nC) else 0))

/-- Clk that a tensor descriptor's accesses take beyond one each: between its bounds, where a free function of the
descriptor and its entries puts it (log 44). -/
def State.tensorExtra (s : State) (c : Nat) (b : List Byte) : Nat :=
  let r := s.tensorBounds c b
  r.1 + Config.conflictClk b [(s.entry c (tA b)).toNat, (s.entry c (tB b)).toNat, (s.entry c (tC b)).toNat] % (r.2 - r.1 + 1)

/-- The clk that the descriptor of tenant `t` takes on engine `n`: Tt, Tv or Td with what bank conflicts add (R145, R152,
R162, R189). -/
def State.descClk (s : State) (c t n : Nat) (b : List Byte) : Nat :=
  match n with
  | 0 => tensorClk b + s.tensorExtra c b
  | 1 => vectorClk b + s.vectorExtra c b
  | _ => s.copyClk c b + s.copyExtra c t b

/-- Byte addresses of a stream's elements. -/
def State.vAddrs (s : State) (c : Nat) (b : List Byte) (v : VStream) (one write : Bool) : List Nat :=
  (vNibs b v one).flatMap (fun n => s.descAddrs c 0 false v.handle (n / 2) (elemLen v.type) write)

/-- Byte addresses that the rows of a range cover. -/
def State.rowAddrs (s : State) (c t : Nat) (copy : Bool) (h off stride rows len : Nat) (write : Bool) : List Nat :=
  (List.range rows).flatMap (fun i => s.descAddrs c t copy h (off + i * stride) len write)

/-- What engine `n`'s descriptor reads. -/
def State.descReads (s : State) (c t n : Nat) (b : List Byte) : List Nat :=
  match n with
  | 0 => s.rowAddrs c t false (tA b) (tAOff b) (tAStride b) (tM b) (tRa b) false ++
      s.descAddrs c t false (tB b) (tBOff b) (tNt b * tKt b * tTb (tAt b)) false
  | 1 => s.vAddrs c b (vX b) false false ++ (if (vY b).on then s.vAddrs c b (vY b) false false else [])
  | _ => s.rowAddrs c t true (cSrc b) (cSrcOff b) (cSrcStride b) (cRows b) (cRow b) false

/-- What it writes. -/
def State.descWrites (s : State) (c t n : Nat) (b : List Byte) : List Nat :=
  match n with
  | 0 => s.rowAddrs c t false (tC b) (tCOff b) (tCStride b) (tM b) (tNt b * 256) true
  | 1 => s.vAddrs c b (vZ b) (vReduces b) true
  | _ => s.rowAddrs c t true (cDst b) (cDstOff b) (cDstStride b) (cRows b) (cRow b) true

/-- Two sets of addresses meet. -/
def meets (a b : List Nat) : Bool := a.any (fun x => b.contains x)

/-- Z lies where X is read, element for element: the same bytes, and of INT4 the same nibbles (R151). -/
def State.inPlace (s : State) (c : Nat) (b : List Byte) : Bool :=
  !vReduces b && typeBits (vX b).type == typeBits (vZ b).type &&
    (vNibs b (vX b) false).map (· % 2) == (vNibs b (vZ b) false).map (· % 2) &&
    s.vAddrs c b (vX b) false false == s.vAddrs c b (vZ b) false true

/-- Byte addresses of an operand's footprint, in the half that it is read from or written to (R142, R144). -/
def State.footAddrs (s : State) (c t : Nat) (copy : Bool) (o : Operand) : List Nat :=
  s.descAddrs c t copy o.handle o.off (o.foot - o.off) o.write

/-- A descriptor's destination footprint overlaps a source footprint in the same half (R144). Of a vector descriptor that is in
place, X's does so with a defined result (R151). -/
def State.overlaps (s : State) (c n : Nat) (d : Desc) : Bool :=
  let l := opsOf n d.bytes
  let l := if n = 1 ∧ s.inPlace c d.bytes = true then l.drop 1 else l
  let ad := s.footAddrs c d.tenant (n == 2)
  (l.filter (fun o => o.write)).any (fun w => (l.filter (fun o => !o.write)).any (fun r => meets (ad r) (ad w)))

/-- The descriptors of the device's other engines, with their clusters and engines: those running, and those queued that were
accepted before descriptor `d`. -/
def State.rivalDescs (s : State) (c n : Nat) (d : Desc) : List (Nat × Nat × Desc) :=
  s.clusters.flatMap (fun p => ([0, 1, 2].filter (fun k => p.1 != c || k != n)).flatMap (fun k =>
    let e := p.2.engine k
    (e.running.toList ++ e.queued.toList.filter (fun x => decide (x.order < d.order))).map (fun x => (p.1, k, x))))

/-- The results of engine `n`'s descriptor are undefined (R144, R151, R162): it writes where it reads, or a descriptor of
another engine, on this cluster or a neighbour, has yet to write what it reads. -/
def State.undefinedResult (s : State) (c n : Nat) (d : Desc) : Bool :=
  let rd := s.descReads c d.tenant n d.bytes
  s.overlaps c n d || (s.rivalDescs c n d).any (fun x => meets rd (s.descWrites x.1 x.2.2.tenant x.2.1 x.2.2.bytes)) || d.raced

/-! ### Tensor results (R139, R140, R142) -/

/-- Elements of a type that bytes hold, in order (R132). -/
def elems (t : Nat) (l : List Byte) : List Nat :=
  if t = 5 then l.flatMap (fun b => [b.toNat % 16, b.toNat / 16])
  else if typeBits t = 8 then l.map BitVec.toNat
  else (List.range (l.length / (typeBits t / 8))).map (fun i => leAt l (i * (typeBits t / 8)) (typeBits t / 8))

/-- The float products of a K column, 16 at a time, summed exactly and rounded once each, then added in order (R140). -/
def dotFloat (n : Nat) (l : List FVal) (acc : Nat) : Nat :=
  match n with
  | 0 => acc
  | n + 1 => dotFloat n (l.drop 16) (fadd acc (ubits (sumV (l.take 16))))

/-- One element of C. -/
def dot (ta tb : Nat) (a b : List Nat) : Nat :=
  if intType ta then
    wrap 32 ((List.zipWith (fun x y => sext (typeBits ta) x * sext (typeBits tb) y) a b).foldl (· + ·) 0)
  else dotFloat (a.length / 16)
    (List.zipWith (fun x y => mulV ((typeFmt ta).decode x) ((typeFmt tb).decode y)) a b) 0

/-- Column `col` of a strip of B: K elements, 64 apart (R142). -/
def stripCol (strip : List Nat) (k col : Nat) : List Nat := (List.range k).map (fun i => strip.getD (i * 64 + col) 0)

/-- C's bytes: of each row, of each column in order. -/
def tensorBytes (b : List Byte) (abytes bbytes : List Byte) : List Byte :=
  let k := tKt b * tKtile (tAt b)
  let strips := (List.range (tNt b)).map (fun j =>
    elems (tBt b) ((bbytes.drop (j * tKt b * tTb (tAt b))).take (tKt b * tTb (tAt b))))
  let cols := strips.flatMap (fun s => (List.range 64).map (fun c => stripCol s k c))
  (List.range (tM b)).flatMap (fun i =>
    let row := elems (tAt b) ((abytes.drop (i * tRa b)).take (tRa b))
    cols.flatMap (fun c => leBytes 4 (dot (tAt b) (tBt b) row c)))

/-! ### Vector results (R148 to R150) -/

/-- EXP, SIGMOID and SILU (Table 05-10). -/
def vExp (v : Nat) : Nat := fexp2 (fmul v 0x3FB8AA3B)
def vSigmoid (v : Nat) : Nat := recip (fadd 0x3F800000 (vExp (fneg v)))

/-- One stage's result on `v` with operand Y and the lane's draw (Table 05-10). -/
def Stage.run (x : Stage) (v y draw : Nat) : Nat :=
  let s := if x.mode % 2 = 1 then y else x.imm
  match x.op with
  | 1 => fadd v s
  | 2 => fadd v (fneg s)
  | 3 => fmul v s
  | 4 => ffma v x.imm y
  | 5 => fminmax false v s
  | 6 => fminmax true v s
  | 7 => fabs v
  | 8 => fneg v
  | 9 => fminmax true v 0
  | 0xA => fexp2 v
  | 0xB => flog2 v
  | 0xC => recip v
  | 0xD => rsqrt v
  | 0xE => vExp v
  | 0xF => vSigmoid v
  | 0x10 => fmul v (vSigmoid v)
  | 0x11 => toF32 x.imm (ofF32 x.imm v)
  | 0x12 => sround x.imm v draw
  | _ => v

/-- A lane through the stages; `draws` are its draws, one for each SROUND stage. -/
def runLane (l : List Stage) (v y : Nat) (draws : List Nat) : Nat :=
  match l with
  | [] => v
  | x :: r => runLane r (x.run v y (draws.headD 0)) y (if x.op = 0x12 then draws.tail else draws)

/-- `n` draws (R136). -/
def drawMany (n : Nat) (st : BitVec 64) : BitVec 64 × List Nat :=
  match n with
  | 0 => (st, [])
  | n + 1 =>
    let a := srDraw st
    let r := drawMany n a.1
    (r.1, a.2 :: r.2)

/-- Neighbouring pairs combined (R150). -/
def pairUp (f : Nat → Nat → Nat) (l : List Nat) : List Nat :=
  match l with
  | a :: b :: r => f a b :: pairUp f r
  | l => l

/-- The fixed binary tree over 64 lanes (R150). -/
def tree64 (f : Nat → Nat → Nat) (l : List Nat) : Nat :=
  (pairUp f (pairUp f (pairUp f (pairUp f (pairUp f (pairUp f l)))))).headD 0

/-- A reduction's operation and identity (R150). -/
def redOp (op : Nat) : Nat → Nat → Nat := if op = 0x14 then fminmax true else fadd
def redId (op : Nat) : Nat := if op = 0x14 then 0xFF800000 else 0

/-- A row, beat by beat: the generator's state, and the lanes' results or, under a reduction, one value a beat (R138,
R148). -/
def rowBeats (n : Nat) (st : List Stage) (xs ys : List Nat) (sr : BitVec 64) : BitVec 64 × List Nat :=
  match n with
  | 0 => (sr, [])
  | n + 1 =>
    let ns := (st.filter (fun x => x.op == 0x12)).length
    let d := drawMany (64 * ns) sr
    let draws (l : Nat) : List Nat := (List.range ns).map (fun j => d.2.getD (j * 64 + l) 0)
    let out := ((xs.take 64).zip (ys.take 64)).zipIdx.map (fun p => runLane st p.1.1 p.1.2 (draws p.2))
    let r := rowBeats n st (xs.drop 64) (ys.drop 64) d.1
    match st.find? Stage.reduces with
    | some z => (r.1, tree64 (redOp z.op) (out ++ List.replicate (64 - out.length) (redId z.op)) :: r.2)
    | none => (r.1, out ++ r.2)

/-- Beats of a reduction combine in order. -/
def combine (f : Nat → Nat → Nat) (l : List Nat) : Nat :=
  match l with
  | [] => 0
  | a :: r => r.foldl f a

/-- All rows: the generator's state and Z's FP32 values in loop order. -/
def allRows (n : Nat) (b : List Byte) (xs ys : List Nat) (sr : BitVec 64) : BitVec 64 × List Nat :=
  match n with
  | 0 => (sr, [])
  | n + 1 =>
    let e := vE b 0
    let r := rowBeats ((e + 63) / 64) (vStages b) (xs.take e) (ys.take e) sr
    let out := match (vStages b).find? Stage.reduces with
      | some z => [combine (redOp z.op) r.2]
      | none => r.2
    let t := allRows n b (xs.drop e) (ys.drop e) r.1
    (t.1, out ++ t.2)

/-- The FP32 values of a stream's elements, read as engine accesses (R133, R144). -/
def State.vRead (s : State) (c : Nat) (b : List Byte) (v : VStream) : List Nat :=
  let e := s.entry c v.handle
  (vNibs b v false).zipIdx.map (fun p =>
    let bs := (s.descAddrs c 0 false v.handle (p.1 / 2) (elemLen v.type) false).zipIdx.map (fun a =>
      s.readByte 1 (hKind e == 0) (p.2 * 4 + a.2) a.1)
    toF32 v.type (if v.type = 5 then leNat bs / 16 ^ (p.1 % 2) % 16 else leNat bs))

/-- Write Z's elements: a nibble leaves the other of its byte as it is (R148). -/
def State.vWrite (s : State) (c t : Nat) (b : List Byte) (vals : List Nat) : State :=
  let v := vZ b
  let nibs := vNibs b v (vReduces b)
  let at_ (n : Nat) : List Nat := s.descAddrs c 0 false v.handle (n / 2) (elemLen v.type) true
  if v.type = 5 then
    let l := (nibs.zip vals).flatMap (fun p => (at_ p.1).map (fun a => (a, p.1 % 2, p.2)))
    let as := (l.map (·.1)).dedup
    s.writeBytes 1 9 t as (as.map (fun a => BitVec.ofNat 8 ((l.filter (fun p => p.1 == a)).foldl (fun x p =>
      if p.2.1 = 0 then x / 16 * 16 + p.2.2 % 16 else p.2.2 % 16 * 16 + x % 16) (s.byte a).toNat)))
  else
    let l := (nibs.zip vals).flatMap (fun p => (at_ p.1).zip (leBytes (elemLen v.type) p.2))
    s.writeBytes 1 9 t (l.map (·.1)) (l.map (·.2))

/-! ### Completion (R145, R152, R162) -/

/-- `n` free bytes. -/
def State.freeBytes (s : State) (n : Nat) : List Byte := (List.range n).map (fun i => Config.freeByte s.freeCtr i)

/-- The tensor result is stored. -/
def State.tensorStore (s : State) (c : Nat) (d : Desc) (undef : Bool) : State :=
  let b := d.bytes
  let a := s.rowAddrs c d.tenant false (tA b) (tAOff b) (tAStride b) (tM b) (tRa b) false
  let w := s.descAddrs c d.tenant false (tB b) (tBOff b) (tNt b * tKt b * tTb (tAt b)) false
  let s1 := s.afterRead 0 8 d.tenant a
  let s2 := s1.afterRead 0 8 d.tenant w
  let ab := s.readBytes 0 (hKind (s.entry c (tA b)) == 0) a
  let bb := s1.readBytes 0 (hKind (s.entry c (tB b)) == 0) w
  s2.writeBytes 0 8 d.tenant (s.descWrites c d.tenant 0 b)
    (if undef then s2.freeBytes (tM b * tNt b * 256) else tensorBytes b ab bb)

/-- The vector result is stored, and the generator moves on (R138). -/
def State.vectorStore (s : State) (c : Nat) (d : Desc) (undef : Bool) : State :=
  let b := d.bytes
  let xs := s.vRead c b (vX b)
  let s1 := s.afterRead 1 9 d.tenant (s.vAddrs c b (vX b) false false)
  let ys := if (vY b).on then s1.vRead c b (vY b) else xs.map (fun _ => 0)
  let s2 := if (vY b).on then s1.afterRead 1 9 d.tenant (s1.vAddrs c b (vY b) false false) else s1
  let r := allRows (vE b 1 * vE b 2 * vE b 3) b xs ys (s.cluster c).sr
  let s3 := s2.modCluster c (fun k => { k with sr := r.1 })
  s3.vWrite c d.tenant b (if undef then
      r.2.zipIdx.map (fun p => leNat ((List.range 4).map (fun i => Config.freeByte s3.freeCtr (4 * p.2 + i))))
    else r.2.map (fun x => ofF32 (vZ b).type x))

/-- The rows of a copy descriptor are moved. -/
def State.copyStore (s : State) (c : Nat) (d : Desc) (undef : Bool) : State :=
  let b := d.bytes
  let a := s.descReads c d.tenant 2 b
  let loc := match s.resolve c (cSrc b) d.tenant with
    | some r => hKind r.entry == 0
    | none => false
  let s1 := s.afterRead 2 10 d.tenant a
  s1.writeBytes 2 10 d.tenant (s.descWrites c d.tenant 2 b)
    (if undef then s1.freeBytes (cRow b * cRows b) else s.readBytes 2 loc a)

/-- Running descriptors of the device's other engines that read what this one wrote have undefined results (R144). -/
def State.race (s : State) (c n : Nat) (wr : List Nat) : State :=
  s.each (s.clusters.flatMap (fun p => ([0, 1, 2].filter (fun k => p.1 != c || k != n)).map (fun k => (p.1, k)))) (fun t p =>
    let e := (t.cluster p.1).engine p.2
    match e.running with
    | some x => if meets (t.descReads p.1 x.tenant p.2 x.bytes) wr then
        t.modCluster p.1 (fun q => q.setEngine p.2 { e with running := some { x with raced := true } })
      else t
    | none => t)

/-- The banks of its engine under which a descriptor's accesses are made: those leased in every clk of its run, and of those
leased in some of it a free choice, since in which clk each access falls the spec does not say (R165; log 39). -/
def Desc.banks (d : Desc) (free : Nat) : Word := d.held ||| (d.had &&& w32 (Config.freeWord free).toNat)

/-- The state in which engine `n` of cluster `c` holds banks `m`. -/
def State.holding (s : State) (c n : Nat) (m : Word) : State :=
  s.modCluster c (fun k => { k with leases := k.leases.set n m })

/-- Engine `n`'s running descriptor completes: its writes are performed, and the queued one starts (R145). -/
def State.engineComplete (s : State) (c n : Nat) : State :=
  let e := (s.cluster c).engine n
  match e.running with
  | none => s
  | some d =>
    let m := (s.cluster c).leases.getD n 0#32
    let undef := s.undefinedResult c n d
    let wr := s.descWrites c d.tenant n d.bytes
    let s0 := s.draw.holding c n (d.banks s.freeCtr)
    let s1 := match n with
      | 0 => ((s0.tensorStore c d undef).cnt R.tenDescCnt c).cnt R.tenBusyClk c (d.total - d.ran)
      | 1 => ((s0.vectorStore c d undef).cnt R.vecDescCnt c).cnt R.vecBusyClk c (d.total - d.ran)
      | _ => s0.copyStore c d undef
    ((s1.holding c n m).race c n wr).modCluster c (fun k => k.setEngine n ((k.engine n).finish m))

/-- TENSOR_COMPLETE (R145). -/
def execTensorComplete (c : Fin 512) (s : State) : Res := .next (s.engineComplete c 0)

/-- VECTOR_COMPLETE (R152). -/
def execVectorComplete (c : Fin 512) (s : State) : Res := .next (s.engineComplete c 1)

/-- COPY_DESCRIPTOR_COMPLETE (R162). -/
def execCopyDescriptorComplete (c : Fin 512) (s : State) : Res := .next (s.engineComplete c 2)

end Sys2Proof.Machine
end

