-- ==== Sys2Proof/Machine/Slots.lean ====
section
/-!
DEFINITION. Scheduled slots (09 R243 to R247): arming (06 R163, R164), sending and poison (03 R89), receiving, relays,
checks and replays, and the slot-pattern checker (08 R234).
-/
namespace Sys2Proof.Machine

/-- Start of the repair phase, and of the seal, in ns from tick start (Table 02-1). -/
def State.repairStart (s : State) : Nat := s.rd R.tckLen - s.rd R.tckRepair - 1000
def State.sealStart (s : State) : Nat := s.rd R.tckLen - 1000

/-- An unused slot table entry. -/
def Slot.unused : Slot := ⟨0, 0, 0, 0, 0, 0, 0, 0⟩

/-- A slot's entry in the table of the placement in effect (R243). -/
def State.slotEntry (s : State) (id : Nat) : Slot := mget Slot.unused s.fabric.slots (s.fabric.detour * 65536 + id)

/-- Segments of a slot: number, offset and length (R244). -/
def Slot.segments (x : Slot) : List (Nat × Nat × Nat) :=
  (List.range ((x.len + 65535) / 65536)).map (fun i => (i, i * 65536, min 65536 (x.len - i * 65536)))

/-- T_occ (R244). -/
def Slot.occ (x : Slot) : Nat :=
  let b := x.len + 32 * ((x.len + 65535) / 65536)
  (b * 544 + 172703) / 172704 + 12

/-- What is armed for a slot. -/
def State.armedOf (s : State) (id : Nat) (tx : Bool) : Option Armed :=
  s.fabric.armed.find? (fun a => a.slot == id && a.tx == tx)

/-- Change what is armed for a slot. -/
def State.modArmed (s : State) (id : Nat) (tx : Bool) (f : Armed → Armed) : State :=
  s.modFab (fun x => { x with armed := x.armed.map (fun a => if a.slot == id && a.tx == tx then f a else a) })

/-! ### The slot-pattern checker (R234) -/

/-- The pattern's first state (R234). -/
def spcSeed (slot tick : Nat) : Nat :=
  let x := ((slot <<< 15) ^^^ (tick % 2 ^ 31)) % 2 ^ 31
  if x = 0 then 2 ^ 31 - 1 else x

/-- One byte of the pattern, filled LSB first, with the state after it. -/
def spcByte (n x acc k : Nat) : Nat × Nat :=
  match n with
  | 0 => (acc, x)
  | n + 1 =>
    let b := (x / 2 ^ 30 + x / 2 ^ 27) % 2
    spcByte n ((2 * x + b) % 2 ^ 31) (acc + b * 2 ^ k) (k + 1)

/-- `n` bytes of the pattern. -/
def spcBytes (n x : Nat) : List Byte :=
  match n with
  | 0 => []
  | n + 1 =>
    let r := spcByte 8 x 0 0
    BitVec.ofNat 8 r.1 :: spcBytes n r.2

/-- The pattern of a slot's bytes [off, off + n). -/
def State.pattern (s : State) (id off n : Nat) : List Byte := (spcBytes (off + n) (spcSeed id s.tick.count)).drop off

/-! ### Sending (R244, R246) -/

/-- Byte addresses of `n` bytes at an armed slot's offset. -/
def State.armedAddrs (s : State) (a : Armed) (off n : Nat) : List Nat :=
  let e := s.entry a.cluster a.handle
  hAddrs a.cluster e (a.offset + off) n (if a.tx then hReadHalf e else hWriteHalf e)

/-- Send one segment of an armed slot; with an uncorrectable word its corrupt flag is set (Table 07-3). -/
def State.sendSeg (s : State) (x : Slot) (a : Armed) (replay : Bool) (g : Nat × Nat × Nat) : State :=
  let as := s.armedAddrs a g.2.1 g.2.2
  let bad := (wordsOf as).any (fun w => decide (2 ≤ s.eccOf w))
  let d := if s.spc x.port then s.pattern a.slot g.2.1 g.2.2
    else s.readBytes 2 (hKind (s.entry a.cluster a.handle) == 0) as
  (s.afterRead 2 16 x.owner as).sendOn x.port (.slot ⟨x.owner, a.slot, g.1, false, bad, replay, d⟩)

/-- Send a slot whole: poison where the owner's context is dead (R89). -/
def State.sendSlot (s : State) (id : Nat) (replay : Bool) : State :=
  let x := s.slotEntry id
  if s.ctxDead x.owner then
    s.each x.segments (fun t g => t.sendOn x.port (.slot ⟨x.owner, id, g.1, true, false, replay, []⟩))
  else match s.armedOf id true with
    | some a => (s.each x.segments (fun t g => t.sendSeg x a replay g)).modArmed id true (fun y => { y with sent := true })
    | none => s

/-- When a port is free of replays (R246). -/
def State.replayFree (s : State) (p : Nat) : Nat :=
  (s.fabric.replays.filter (fun r => (s.slotEntry r.1).port == p)).foldl (fun m r => max m r.2) (max s.tick.ns s.repairStart)

/-- Send one wanted replay: back to back on its port, and not where it would end after the repair phase; a slot that is not
armed waits for its arm (R164, R246). One that is not sent stays wanted. -/
def State.sendReplay (s : State) (id : Nat) : State :=
  let x := s.slotEntry id
  let done := s.replayFree x.port + x.occ
  if ((s.armedOf id true).isNone && !s.ctxDead x.owner) || decide (s.sealStart < done) then s
  else ((s.modFab (fun f => { f with replays := lput f.replays id done })).sendSlot id true).cnt R.fabSlotReplay

/-- The slots whose replay is wanted and not sent, in ascending order of start (R246). -/
def State.wantedReplays (s : State) : List Nat :=
  sortBy (fun a b => decide ((s.slotEntry a).start < (s.slotEntry b).start) ||
    ((s.slotEntry a).start == (s.slotEntry b).start && decide (a ≤ b)))
    ((s.fabric.replays.filter (fun r => r.2 == 0)).map (·.1))

/-- The wanted replays are sent, in the repair phase. -/
def State.sendReplays (s : State) : State :=
  if s.tick.phase = .repair then s.each s.wantedReplays State.sendReplay else s

/-- A replay of a slot is wanted, once (R246). -/
def State.want (s : State) (id : Nat) : State :=
  (if s.fabric.replays.any (fun r => r.1 == id) then s
   else s.modFab (fun f => { f with replays := f.replays ++ [(id, 0)] })).sendReplays

/-! ### Asking (R245) -/

/-- Ask for the replay of a receive slot, unless its owner's context is dead here. -/
def State.askReplay (s : State) (id : Nat) : State :=
  let x := s.slotEntry id
  if s.ctxDead x.owner then s
  else (s.sendOn x.port (.replayReq id s.tick.count)).modArmed id false (fun a => { a with asked := true })

/-- Segments of a receive slot that are missing. -/
def State.missing (s : State) (a : Armed) : List Nat :=
  ((s.slotEntry a.slot).segments.map (·.1)).filter (fun g => !a.got.contains g && !a.exc.contains g)

/-- Late receive arms ask in the repair phase (R164). -/
def State.askLate (s : State) : State :=
  if s.tick.phase = .repair then
    s.each ((s.fabric.armed.filter (fun a => !a.tx && a.late && !a.asked)).map (fun a => a.slot)) State.askReplay
  else s

/-! ### Arming (06 R163, R164) -/

/-- An arm is late: a TX that issues less than 100 ns before its slot starts, an RX that does not issue before (R164). -/
def lateArm (tx : Bool) (ns start : Nat) : Bool := if tx then decide (start < ns + 100) else decide (start ≤ ns)

/-- A slot armed (R163, R164). -/
def State.arm (s : State) (c id h off : Nat) (tx refresh : Bool) : State :=
  let late := lateArm tx s.tick.ns (s.slotEntry id).start && !refresh
  let a : Armed := ⟨id, tx, c, h, off, late, refresh, false, false, [], [], false, false, false, false⟩
  let s1 := (s.when late (fun t => t.cnt R.seqLateSlot c)).modFab (fun f => { f with
    armed := f.armed.filter (fun y => !(y.slot == id && y.tx == tx)) ++ [a] })
  if tx then (if late then s1.want id else s1.sendReplays) else s1.askLate

/-! ### Receiving (R245) -/

/-- A received segment is written to the armed handle, or compared with the pattern (R163, R234). -/
def State.takeSeg (s : State) (x : Slot) (a : Armed) (f : SlotFrame) : State :=
  let off := f.seg * 65536
  if s.spc x.port then
    let n := ((f.data.zip (s.pattern f.slot off f.data.length)).filter (fun p => p.1 != p.2)).length
    (s.when (n != 0) (fun t => t.cnt R.prtSpcErr x.port n)).modArmed f.slot false (fun y => { y with
      differs := y.differs || n != 0 })
  else s.writeBytes 2 16 x.owner (s.armedAddrs a off f.data.length) f.data

/-- A segment counts as received; a slot that is then whole, and matched the pattern, counts in SPC_OK (R234). -/
def State.gotSeg (s : State) (x : Slot) (f : SlotFrame) : State :=
  let s1 := s.modArmed f.slot false (fun y => { y with got := addOnce y.got f.seg })
  match s1.armedOf f.slot false with
  | some a => if s1.spc x.port && a.got.length == x.segments.length && !a.differs then s1.cnt R.prtSpcOk x.port else s1
  | none => s1

/-- A segment is discarded for its flag or by an entry check. -/
def State.excSeg (s : State) (f : SlotFrame) : State :=
  s.modArmed f.slot false (fun y => { y with exc := addOnce y.exc f.seg })

/-- The first frame of a replay starts the slot's receive state anew (R246). -/
def State.replayBegins (s : State) (f : SlotFrame) : State :=
  s.modArmed f.slot false (fun y => if f.replay && !y.replay then { y with replay := true, got := [], exc := [] } else
    { y with sent := y.sent || !f.replay })

/-- A frame that fails an entry check (R245): discarded and counted; its slot counts as failed. -/
def State.badSlot (s : State) (p : Nat) (f : SlotFrame) : State :=
  let s1 := (s.cnt R.fabSlotBad).violate .fab 0 ⟨2, 16, f.tenant, 2, 0⟩
  if (s1.armedOf f.slot false).isSome then (s1.excSeg f).modArmed f.slot false (fun y => { y with failed := true })
  else s1.modFab (fun x => { x with bad := x.bad ++ [(f.slot, p)] })

/-- A frame's entry accepts it (R245): RX or relay, on the port, of the owner, covering the segment. -/
def accepts (x : Slot) (p : Nat) (f : SlotFrame) : Bool :=
  (x.dir == 2 || x.dir == 3) && x.port == p && x.owner == f.tenant &&
    decide (f.seg * 65536 < x.len) && decide (f.seg * 65536 + f.data.length ≤ x.len) &&
    (f.poison || decide (f.data.length = min 65536 (x.len - f.seg * 65536)))

/-- A poison frame arrived in a receive slot: the owner's context is killed, on the cluster that armed the slot (R89). -/
def State.poisoned (s : State) (x : Slot) (f : SlotFrame) : State :=
  let s1 := (s.excSeg f).violate .fab 0 ⟨0x29, 16, x.owner, 2, 0⟩
  match s1.armedOf f.slot false with
  | some a => s1.poisonKill a.cluster x.owner 0 (spanScratch s.self a.cluster
      (spdMap (s.entry a.cluster a.handle) (a.offset + f.seg * 65536) 0))
  | none => s1.poisonKill x.cluster x.owner 2 0

/-- A frame of a slot that has been checked in the body is discarded, whatever it carries (R245). -/
def State.pastCheck (s : State) (f : SlotFrame) : Bool :=
  !f.replay && (match s.armedOf f.slot false with
    | some a => a.closed
    | none => false)

/-- A replay arrived for a receive slot that is not armed: it is lost (R164). -/
def State.unarmedReplay (s : State) (p : Nat) (f : SlotFrame) : State :=
  if f.replay then s.modFab (fun x => { x with bad := x.bad ++ [(f.slot, p)] }) else s

/-- A whole SLOT frame received (R245, R246); comparators that disagree refuse it (R402). -/
def State.slotIn (s : State) (p : Nat) (f : SlotFrame) : State :=
  let x := s.slotEntry f.slot
  if s.island.disagree then s.disagreed.badSlot p f
  else if !accepts x p f then s.badSlot p f
  else if x.dir = 3 then
    s.sendOn x.outPort (.slot (if s.spc x.outPort && !f.poison then
      { f with data := s.pattern f.slot (f.seg * 65536) f.data.length } else f))
  else if s.pastCheck f then s
  else
    let s1 := s.replayBegins f
    if f.poison then s1.poisoned x f
    else if f.corrupt then s1.excSeg f
    else match s1.armedOf f.slot false with
      | none => s1.unarmedReplay p f
      | some a => if !f.replay && a.late then s1 else (s1.takeSeg x a f).gotSeg x f

/-- An attempt's body or repair phase is in progress. -/
def State.slotPhase (s : State) : Bool := s.tick.phase == .body || s.tick.phase == .repair

/-- SLOT_FRAME (R245): a damaged frame is discarded, and its segment stays missing (R241). -/
def execSlotFrame (port : Fin 16) (a : Arrival) (f : SlotFrame) (s : State) : Res :=
  .next (match s.receive port 1 a with
    | (t, .good) => if t.slotPhase then t.slotIn port f else t
    | (t, _) => t)

/-- SLOT_START (R244): the slot's start; a transmit slot armed in time is sent, and poison where its owner is dead. -/
def execSlotStart (slot : Fin 65536) (s : State) : Res :=
  let x := s.slotEntry slot
  .next (if s.tick.phase ≠ .body ∨ x.dir ≠ 1 then s
    else
      let s1 := s.passTo x.start
      if s1.ctxDead x.owner then s1.sendSlot slot false
      else match s1.armedOf slot true with
        | some a => if a.late || a.sent then s1 else s1.sendSlot slot false
        | none => s1)

/-- SLOT_CHECK (R245): an armed receive slot with a missing segment asks for its replay; one armed late asks in the repair phase
(R164). One that got no frame counts in SPC_MISS while its port is tested (R234). -/
def execSlotCheck (slot : Fin 65536) (s : State) : Res :=
  let x := s.slotEntry slot
  .next (if s.slotPhase = false ∨ x.dir ≠ 2 then s
    else
      let s1 := s.passTo (x.start + x.occ + ((s.port x.port).delay + 999) / 1000 + 50)
      match s1.armedOf slot false with
      | none => s1
      | some a =>
        if a.closed then s1
        else
          let s2 := s1.modArmed slot false (fun y => { y with closed := true })
          let s3 := if s2.spc x.port && !a.sent then s2.cnt R.prtSpcMiss x.port else s2
          if a.late || (s3.missing a).isEmpty then s3 else s3.askReplay slot)

/-- REPLAY_REQ (R246): of this tick; a transmit slot of the port is to be replayed, and a relay passes the request
upstream. -/
def execReplayReq (port : Fin 16) (a : Arrival) (slot tick : Nat) (s : State) : Res :=
  .next (match s.receive port 8 a with
    | (t, .good) =>
      let x := t.slotEntry slot
      if tick ≠ t.tick.count ∨ t.slotPhase = false then t
      else if x.dir = 1 ∧ x.port = port.val then t.want slot
      else if x.dir = 3 ∧ x.outPort = port.val then t.sendOn x.port (.replayReq slot tick)
      else t
    | (t, _) => t)

/-! ### At the seal (R164, R246) -/

/-- The slots of the attempt that count as lost, with their ports: asked for and not replayed intact, or failed by an entry
check; replays that came unarmed, and replays of this device that were wanted and not sent (R164, R246). Not those of a dead
context. -/
def State.lostSlots (s : State) : List (Nat × Nat) :=
  let l := s.fabric.armed.filter (fun a => !a.tx && !s.ctxDead (s.slotEntry a.slot).owner &&
    (a.failed || ((a.asked || a.replay) && (!a.replay || !(s.missing a).isEmpty))))
  l.map (fun a => (a.slot, (s.slotEntry a.slot).port)) ++
    s.fabric.bad.filter (fun b => !s.ctxDead (s.slotEntry b.1).owner) ++
    ((s.fabric.replays.filter (fun r => r.2 == 0 && !s.ctxDead (s.slotEntry r.1).owner)).map (fun r =>
      (r.1, (s.slotEntry r.1).port)))

/-- The attempt's slots are over. -/
def State.slotsOver (s : State) : State := s.modFab (fun f => { f with armed := [], replays := [], bad := [] })

end Sys2Proof.Machine
end

