-- ==== Sys2Proof/Machine/Sequencer.lean ====
section
/-!
DEFINITION. The sequencer (06): contexts and arbitration (R154 to R156, R171), each word's legality (Tables 06-1, 06-2) and
effect (R159 to R169), the launch of blocks (03 R73 to R75), and schedule slack (R173).
-/
namespace Sys2Proof.Machine

/-! ### Words (Table 06-1) -/

/-- A sequencer word. -/
abbrev QWord := BitVec 64

/-- Bits [hi:lo] of a word. -/
def qw (w : QWord) (hi lo : Nat) : Nat := bits w.toNat hi lo

def qKind (w : QWord) : Nat := qw w 63 60
def qHold (w : QWord) : Nat := qw w 59 56

/-- The reserved field [55:48], and operand bits [hi:lo], are 0. -/
def qClear (w : QWord) (hi lo : Nat) : Bool := qw w 55 48 == 0 && qw w hi lo == 0

/-- The word is another of Table 06-2's kinds than `k`, not an illegal one. -/
def otherKind (w : QWord) (k : Nat) : Bool := qKind w != k && decide (1 ≤ qKind w) && decide (qKind w ≤ 12)

/-! ### Contexts -/

/-- Context `k` of cluster `c`. -/
def State.ctx (s : State) (c k : Nat) : Ctx := mget Ctx.reset (s.cluster c).ctxs k

/-- Store a context. -/
def State.setCtx (s : State) (c k : Nat) (x : Ctx) : State := s.modCluster c (fun q => { q with ctxs := mput q.ctxs k x })

/-- A context's table entry (Table 06-7). -/
def State.ctxEntry (s : State) (c k : Nat) : CtxEntry := mget CtxEntry.reset (s.cluster c).ctxTab k

/-- Sequencers issue in the body and the repair phase (Table 02-1). -/
def State.issuing (s : State) : Bool := s.tick.phase == .body || s.tick.phase == .repair

/-- A context may issue its next word: it runs (R156). -/
def State.ctxRuns (s : State) (c k : Nat) : Bool :=
  s.issuing && (s.ctxEntry c k).used && (s.ctx c k).state == .run

/-- The byte address in `mem` of offset `o` of a context's code region (R157). -/
def State.codeAt (s : State) (c k o : Nat) : Nat := qsAddr (c / 128) ((s.ctxEntry c k).base + o)

/-- The word at a context's pc. -/
def State.wordAt (s : State) (c k : Nat) : Nat := leNat (s.bytes (s.codeAt c k (s.ctx c k).pc) 8)

/-- The context's next word is an ISSUE whose engine's queue entry is occupied (R160). -/
def State.stalled (s : State) (c k : Nat) : Bool :=
  let kind := s.wordAt c k / 2 ^ 60
  decide (2 ≤ kind) && decide (kind ≤ 4) && ((s.cluster c).engine (kind - 2)).queued.isSome

/-- The context's next word may issue in this clk (R155): it runs, its hold has passed, and it is not stalled. -/
def State.contends (s : State) (c k : Nat) : Bool := s.ctxRuns c k && (s.ctx c k).hold == 0 && !s.stalled c k

/-- The other contexts whose next words may issue too. -/
def State.rivals (s : State) (c k : Nat) : List Nat := (List.range 9).filter (fun j => j != k && s.contends c j)

/-- Context `j` goes before `k`: the lease context first, then the lower index (R155). -/
def goesBefore (j k : Nat) : Bool := k != 8 && (j == 8 || decide (j < k))

/-- A context that has issued a word: its pc moves on, it holds (R170), and in the body it is live (R173). -/
def State.passed (s : State) (c k : Nat) (w : QWord) : Ctx :=
  let x := s.ctx c k
  { x with pc := x.pc + 8, hold := qHold w, live := x.live || s.tick.phase == .body }

/-- Slack of a context, in ns, towards the least of the attempt: only a live one counts (R173). -/
def State.noteSlack (s : State) (c : Nat) (live : Bool) (v : Nat) : State :=
  if !live then s
  else s.modCluster c (fun q => { q with slackNow := some (match q.slackNow with | some x => min x v | none => v) })

/-- The lease context meets a word it cannot issue: it issues nothing more in the attempt (R171). -/
def State.leaseStuck (s : State) (c : Nat) : State := s.setCtx c 8 { s.ctx c 8 with state := .wait, wait := .none }

/-- ns in which `n` clk of a quarter pass, rounded up. -/
def State.nsOfClk (s : State) (q n : Nat) : Nat :=
  let r := (if (s.quarter q).stretched then (s.quarter q).f else 2 * (s.quarter q).f)
  if r = 0 then 0 else (2000 * n + r - 1) / r

/-- A context's hold runs out (R170). -/
def State.passHold (s : State) (c k : Nat) : State :=
  let h := (s.ctx c k).hold
  if h = 0 then s else s.pass (s.nsOfClk (c / 128) h)

/-- The word that context `k` fetches: none outside its code region, or where the memory word is uncorrectable and may read
as any (R157, R171; log 41). -/
def State.seqFetched (s : State) (c k : Nat) : Option Nat :=
  let pc := (s.ctx c k).pc
  if (s.ctxEntry c k).len < pc + 8 || decide (2 ≤ s.eccOf (s.codeAt c k pc)) then none else some (s.wordAt c k)

/-- Context `k` may issue word `w` next: it runs, and its code region holds that word at its pc (R156, R157). -/
def State.mayIssueSeq (s : State) (c k : Nat) (w : QWord) : Bool :=
  s.ctxRuns c k && (match s.seqFetched c k with
    | some x => x == w.toNat
    | none => true)

/-- Issue word `w` of kind `kind` in context `k` (R154 to R156, R158, R171), once its hold has run out (R170): `legal` says its
operand is legal, `lease` whether the lease context may run it, `tenant` whether a tenant context may. -/
def State.issueSeq (s0 : State) (c k : Nat) (w : QWord) (kind : Nat) (legal lease tenant : Bool)
    (body : State → Ctx → State) : State :=
  let s := s0.passHold c k
  if !s0.mayIssueSeq c k w || otherKind w kind then s0
  else if (s.rivals c k).any (fun j => goesBefore j k) then s
  else
    let s1 := s.when (!(s.rivals c k).isEmpty) (fun t => t.cnt R.seqContend c (s.rivals c k).length)
    let x := s1.ctx c k
    let e := s1.ctxEntry c k
    let ok := legal && qKind w == kind && qw w 55 48 == 0 && (if k = 8 then lease else tenant)
    if e.len < x.pc + 8 then (if k = 8 then s1.leaseStuck c else s1.seqFault c k 0x3A)
    else
      let a := s1.codeAt c k x.pc
      let s2 := s1.touch a 6 e.tenant
      if k = 8 then (if !ok || decide (2 ≤ s1.eccOf a) then s2.leaseStuck c else body s2 x)
      else if !ok then s2.seqFault c k 0x30
      else body s2 x

/-- Issue a word whose effect never faults: the context moves on, and `f` does the rest. -/
def State.issueWord (s : State) (c k : Nat) (w : QWord) (kind : Nat) (legal lease tenant : Bool)
    (f : State → Ctx → State) : State :=
  s.issueSeq c k w kind legal lease tenant (fun t _ => let y := t.passed c k w; f (t.setCtx c k y) y)

/-! ### WAIT (R159) -/

/-- Every engine of a mask has no running and no queued descriptor (R159). -/
def Cluster.idleMask (q : Cluster) (m : Nat) : Bool := [0, 1, 2].all (fun n => !bit m n || (q.engine n).idle)

/-- WAIT.AT's target. -/
def qTarget (w : QWord) : Nat := qw w 23 0

/-- WAIT_AT (R159, R173). -/
def execWaitAt (c : Fin 512) (k : Fin 9) (w : BitVec 64) (s : State) : Res :=
  .next (if qKind w = 1 ∧ (qw w 41 40 = 1 ∨ qw w 41 40 = 2) then s
    else s.issueWord c k w 1 (qw w 41 40 == 0 && qClear w 47 42 && qClear w 39 24 && decide (qTarget w < s.repairStart)) true
      true (fun t y =>
        let t1 := t.noteSlack c y.live (qTarget w - t.tick.ns)
        if qTarget w < t.tick.ns then t1.cnt R.seqLateAt c
        else if qTarget w = t.tick.ns then t1
        else t1.setCtx c k { y with state := .wait, wait := .until (qTarget w) }))

/-- WAIT_FOR (R159). -/
def execWaitFor (c : Fin 512) (k : Fin 9) (w : BitVec 64) (s : State) : Res :=
  .next (if qKind w = 1 ∧ (qw w 41 40 = 0 ∨ qw w 41 40 = 2) then s
    else s.issueWord c k w 1 (qw w 41 40 == 1 && qClear w 47 42 && qClear w 39 32 && decide (1 ≤ qw w 31 0)) true true
      (fun t y => t.setCtx c k { y with state := .wait, wait := .clks (qw w 31 0) }))

/-- WAIT_IDLE (R159). -/
def execWaitIdle (c : Fin 512) (k : Fin 9) (w : BitVec 64) (s : State) : Res :=
  .next (if qKind w = 1 ∧ (qw w 41 40 = 0 ∨ qw w 41 40 = 1) then s
    else s.issueWord c k w 1 (qw w 41 40 == 2 && qClear w 47 42 && qClear w 39 3 && decide (1 ≤ qw w 2 0)) true true
      (fun t y => if (t.cluster c).idleMask (qw w 2 0) then t
        else t.setCtx c k { y with state := .wait, wait := .idle (qw w 2 0) }))

/-- A context whose wait is over: it runs, with one clk more than its word's hold before its next word (R159, R170). -/
def Ctx.released (x : Ctx) : Ctx := { x with state := .run, wait := .none, hold := x.hold + 1 }

/-- WAIT_RELEASE (R159): the condition holds. AT and FOR: the time it names has passed (log 15). -/
def execWaitRelease (c : Fin 512) (k : Fin 9) (s : State) : Res :=
  let x := s.ctx c k
  let go (t : State) : State := t.setCtx c k (t.ctx c k).released
  .next (if x.state ≠ .wait then s else match x.wait with
    | .until ns => go (s.passTo ns)
    | .clks n => go (s.pass (s.nsOfClk (c.val / 128) n))
    | .idle m => if (s.cluster c).idleMask m then go s else s
    | .join _ | .none => s)

/-! ### ISSUE (R160, R143) -/

/-- The descriptor that an ISSUE names, handed to engine `n` (R143, R160). A refused one is captured twice (R143); one whose
handle entries cannot be read is not performed (07 Table 07-3). -/
def State.hand (s : State) (c k n off : Nat) (w : QWord) : State :=
  let e := s.ctxEntry c k
  let t := e.tenant
  let a := s.codeAt c k off
  let b := s.bytes a (descSize n)
  let s1 := s.each (wordsOf ((List.range (descSize n)).map (fun i => a + i))) (fun u x => u.touch x 6 t)
  let copy := n == 2
  let ents := (opsOf n b).flatMap (fun o => s1.operandEntries c t copy o)
  let s2 := s1.each ents (fun u p => u.touchEntry p.1 p.2 (engineSrc n) t)
  if ents.any (fun p => s1.entryBad p.1 p.2) then s2.setCtx c k (s2.passed c k w)
  else match s2.checkDesc c t n b with
    | some code =>
      let s2' := if code = 0x32 then s2.disagreed else s2
      let s3 := if n = 2 then s2' else
        s2'.violate (if n = 0 then .ten else .vec) c ⟨code, engineSrc n, t, 0, s2.codeAddr c k off⟩
      s3.seqFault c k code
    | none => (s2.setCtx c k (s2.passed c k w)).modCluster c (fun q =>
        q.setEngine n ((q.engine n).take
          ⟨t, k, off, b, s2.descClk c t n b, 0, false, s2.fabric.asked, q.leases.getD n 0#32, q.leases.getD n 0#32⟩))
      |>.modFab (fun f => { f with asked := f.asked + 1 })

/-- Issue a descriptor to engine `n`; while its queue entry is occupied the context stalls (R145, R160). -/
def State.issueEngine (s : State) (c k : Nat) (w : QWord) (n : Nat) : State :=
  let off := qw w 25 0
  if ((s.cluster c).engine n).queued.isSome && s.mayIssueSeq c k w && qKind w == n + 2 then s
  else s.issueSeq c k w (n + 2) (qClear w 47 26 && off % descSize n == 0) false true (fun t _ =>
    if (t.ctxEntry c k).len < off + descSize n then t.seqFault c k 0x3A else t.hand c k n off w)

/-- ISSUE_T (R160). -/
def execIssueT (c : Fin 512) (k : Fin 9) (w : BitVec 64) (s : State) : Res := .next (s.issueEngine c k w 0)

/-- ISSUE_V (R160). -/
def execIssueV (c : Fin 512) (k : Fin 9) (w : BitVec 64) (s : State) : Res := .next (s.issueEngine c k w 1)

/-- ISSUE_D (R160). -/
def execIssueD (c : Fin 512) (k : Fin 9) (w : BitVec 64) (s : State) : Res := .next (s.issueEngine c k w 2)

/-! ### SLOT (R163, R164) -/

/-- Why a slot may not be armed (R163): SLOT_OWNER, then Table 05-7 steps 2, 3, 4 and 6; none when it may. Comparators
that disagree refuse the owner check (R402). -/
def State.slotFault (s : State) (c t id h off : Nat) (tx : Bool) : Option Nat :=
  let x := s.slotEntry id
  if s.island.disagree = true ∨ x.owner ≠ t ∨ x.dir ≠ (if tx then 1 else 2) then some 0x39
  else s.descFault c t false true true [⟨h, if tx then 5 else 6, !tx, off, off + x.len⟩]

/-- Issue SLOT.TX or SLOT.RX. -/
def State.issueSlot (s : State) (c k : Nat) (w : QWord) (kind : Nat) (tx : Bool) : State :=
  let id := qw w 15 0
  let h := qw w 25 16
  let off := qw w 47 26
  s.issueSeq c k w kind (off % 64 == 0) false true (fun t _ =>
    let tn := (t.ctxEntry c k).tenant
    let t1 := t.touchEntry c h 6 tn
    if t.entryBad c h then t1.setCtx c k (t1.passed c k w)
    else match t1.slotFault c tn id h off tx with
      | some code => t1.disagreed.seqFault c k code
      | none => (t1.setCtx c k (t1.passed c k w)).arm c id h off tx false)

/-- SLOT_TX (R163). -/
def execSlotTx (c : Fin 512) (k : Fin 9) (w : BitVec 64) (s : State) : Res := .next (s.issueSlot c k w 5 true)

/-- SLOT_RX (R163). -/
def execSlotRx (c : Fin 512) (k : Fin 9) (w : BitVec 64) (s : State) : Res := .next (s.issueSlot c k w 6 false)

/-! ### LEASE (R165) -/

/-- LEASE (R165): the grant takes effect 2 clk after issue. -/
def execLease (c : Fin 512) (k : Fin 9) (w : BitVec 64) (s : State) : Res :=
  .next (s.issueWord c k w 7 (qClear w 47 34) true false (fun t _ =>
    t.modCluster c (fun q => { q with grants := q.grants ++ [(w32 (qw w 31 0), qw w 33 32, 2)] })))

/-! ### LAUNCH and JOIN (R166; 03 R73 to R76) -/

/-- A launch record's fields (Table 03-2). -/
def lCode (b : List Byte) : Nat := leAt b 0 2
def lWindow (b : List Byte) : Nat := leAt b 2 2
def lEntry (b : List Byte) : Nat := leAt b 4 4
def lBlock (b : List Byte) : Nat := leAt b 8 1
def lCount (b : List Byte) : Nat := leAt b 9 1

/-- The tenant's group-slot allotment on a cluster (R75), and the slots its groups hold. -/
def Cluster.allotment (q : Cluster) (t : Nat) : Nat :=
  natSum (((q.ctxTab.filter (fun p => p.2.used && decide (p.1 < 8) && p.2.tenant == t))).map (fun p => p.2.allot))
def Cluster.slotsOf (q : Cluster) (t : Nat) : Nat := (q.groups.filter (fun p => p.2.tenant == t)).length

/-- The free group slots, ascending. -/
def Cluster.freeSlots (q : Cluster) : List Nat := (List.range 64).filter (fun g => (mfind q.groups g).isNone)

/-- The check of the code handle, or of the window handle (R75 step 6). -/
def State.launchHandle (s : State) (c t i : Nat) (window : Bool) : Option Nat :=
  let e := s.entry c i
  if !s.tagOn t then some 0x15
  else match s.resolve c i t with
  | none => some 0x32
  | some _ =>
    if window then
      if !hRight e 7 then some 0x33
      else if hLen e < 4096 ∨ 1048576 < hLen e ∨ hLen e % 4096 ≠ 0 then some 0x36
      else none
    else if hType e = 1 ∧ hRight e 2 = true then none else some 0x33

/-- Why a launch is refused, in R75's order. -/
def State.launchFault (s : State) (c k : Nat) (b : List Byte) : Option Nat :=
  let e := s.ctxEntry c k
  let q := s.cluster c
  if 1024 ≤ lCode b ∨ 1024 ≤ lWindow b ∨ 16 ≤ lBlock b ∨ zeroAt b 0xA 6 = false ∨ lEntry b % 4 ≠ 0 then some 0x31
  else if !bit e.blockMask (lBlock b) then some 0x37
  else if lCount b = 0 ∨ 16 < lCount b then some 0x38
  else if (mfind q.blocks (lBlock b)).isSome then some 0x37
  else if q.allotment e.tenant < q.slotsOf e.tenant + lCount b ∨ q.freeSlots.length < lCount b then some 0x38
  else match s.launchHandle c e.tenant (lCode b) false with
    | some f => some f
    | none => s.launchHandle c e.tenant (lWindow b) true

/-- The uniform registers of group `i` of a launch (R73). -/
def State.launchU (s : State) (c : Nat) (b : List Byte) (i : Nat) : NMap Word :=
  [(0, w32 i), (1, w32 (lCount b)), (2, w32 c), (3, w32 s.tick.count)] ++
    (List.range 12).map (fun j => (j + 4, w32 (leAt b (0x10 + 4 * j) 4)))

/-- A new group: thread registers and predicates 0, every lane active (R73). -/
def State.newGroup (s : State) (c t : Nat) (b : List Byte) (i order : Nat) : Group :=
  { tenant := t, block := lBlock b, index := i, code := lCode b, window := lWindow b, order := order, t := [], p := [],
    u := s.launchU c b i, pc := lEntry b, active := 0xFFFFFFFF#32, stk := [], wait := .ready, remote := 0, copies := 0,
    halted := false, stepping := false, stepped := false, bpHit := false }

/-- Launch a block (R73, R74): its groups take the lowest free slots and enter the pending set; the fixed rotation starts
anew (R71). -/
def State.launchBlock (s : State) (c t : Nat) (b : List Byte) : State :=
  let q := s.cluster c
  let l := (q.freeSlots.take (lCount b)).zipIdx
  (s.modCluster c (fun q => { q with
    groups := l.foldl (fun m p => mput m p.1 (s.newGroup c t b p.2 q.launches)) q.groups,
    blocks := mput q.blocks (lBlock b) ⟨t, lCount b, 0, []⟩, launches := q.launches + 1, rotateDet := s.clk c,
    rotate := if s.tick.detEff then 0 else q.rotate })).schedule c

/-- Launch descriptor `b` of context `k`, or fault; one whose handle entries cannot be read starts nothing (R166, R75, Table
07-3). -/
def State.launchOf (s : State) (c k t : Nat) (w : QWord) (b : List Byte) : State :=
  match s.launchFault c k b with
  | some code => s.seqFault c k code
  | none =>
    let s1 := (s.touchEntry c (lCode b) 6 t).touchEntry c (lWindow b) 6 t
    let s2 := s1.setCtx c k (s1.passed c k w)
    if s.entryBad c (lCode b) || s.entryBad c (lWindow b) then s2 else s2.launchBlock c t b

/-- LAUNCH (R166, R75). -/
def execLaunch (c : Fin 512) (k : Fin 9) (w : BitVec 64) (s : State) : Res :=
  let off := qw w 25 0
  .next (s.issueSeq c k w 8 (qClear w 47 26 && off % 64 == 0) false true (fun t _ =>
    let e := t.ctxEntry c k
    if e.len < off + 64 then t.seqFault c k 0x3A
    else
      let as := (List.range 64).map (fun i => t.codeAt c k off + i)
      (t.each (wordsOf as) (fun u x => u.touch x 6 e.tenant)).launchOf c k e.tenant w (t.readBytes 4 false as)))

/-- JOIN (R166). -/
def execJoin (c : Fin 512) (k : Fin 9) (w : BitVec 64) (s : State) : Res :=
  let blk := qw w 3 0
  .next (s.issueSeq c k w 9 (qClear w 47 4) false true (fun t _ =>
    if !bit (t.ctxEntry c k).blockMask blk then t.seqFault c k 0x37
    else
      let y := t.passed c k w
      if (mfind (t.cluster c).blocks blk).isNone then t.setCtx c k y
      else t.setCtx c k { y with state := .wait, wait := .join blk }))

/-- A context that waited for block `blk` runs again. -/
def Ctx.joined (x : Ctx) (blk : Nat) : Ctx :=
  if x.state = .wait ∧ x.wait = .join blk then x.released else x

/-- A write or an atomic of a block's retired groups has no response: it is not known to be performed (R76, R116). -/
def State.writesOut (s : State) (c blk : Nat) : Bool :=
  let of (u : ReqUse) : Bool := match u with
    | .gone k _ b w => k == c && b == blk && w
    | _ => false
  s.fabric.pending.any (fun p => !p.discarded && of p.use) || s.fabric.sendq.any (fun r => of r.use)

/-- JOIN_COMPLETE (R76): every group of a joined block has retired, every copy completed and every write performed; its ID is
free. -/
def execJoinComplete (c : Fin 512) (blk : Fin 16) (s : State) : Res :=
  let q := s.cluster c
  .next (match mfind q.blocks blk with
    | some b =>
      if b.groups = 0 ∧ b.copies = 0 ∧ s.writesOut c blk = false ∧ q.ctxs.any (fun p => p.2.state == .wait && p.2.wait == .join blk) then
        s.setCluster c { q with blocks := merase q.blocks blk, ctxs := q.ctxs.map (fun p => (p.1, p.2.joined blk)) }
      else s
    | none => s)

/-! ### MARK, LOOP, HALT (R167 to R169) -/

/-- MARK_END (R167, R173). -/
def execMarkEnd (c : Fin 512) (k : Fin 9) (w : BitVec 64) (s : State) : Res :=
  .next (if qKind w = 10 ∧ qw w 35 32 = 1 then s
    else s.issueWord c k w 10 (qw w 35 32 == 0 && qClear w 47 36 && qClear w 31 0) true true (fun t y =>
      (t.noteSlack c y.live (t.sealStart - t.tick.ns)).setCtx c k { y with state := .done }))

/-- One trace record's four words (Table 06-25). -/
def State.traceWords (s : State) (c k tag : Nat) : List Nat :=
  [tag % 2 ^ 16 + k % 16 * 2 ^ 16 + s.tick.attempt % 16 * 2 ^ 20, min (s.clk c) cntMax, s.tick.count % 2 ^ 32,
   s.tick.count / 2 ^ 32 % 2 ^ 32]

/-- MARK_TRACE (R167, R184). -/
def execMarkTrace (c : Fin 512) (k : Fin 9) (w : BitVec 64) (s : State) : Res :=
  .next (if qKind w = 10 ∧ qw w 35 32 = 0 then s
    else s.issueWord c k w 10 (qw w 35 32 == 1 && qClear w 47 36 && qClear w 31 16) true true (fun t _ =>
      let i := (t.cluster c).traceIdx
      ((t.traceWords c k (qw w 15 0)).zipIdx.foldl (fun u p => u.wr R.seqTrace p.1 c 0 (4 * i + p.2)) t).modCluster c (fun q =>
        { q with traceIdx := (i + 1) % 128 })))

/-- LOOP_SET (R168). -/
def execLoopSet (c : Fin 512) (k : Fin 9) (w : BitVec 64) (s : State) : Res :=
  .next (if qKind w = 11 ∧ qw w 41 40 = 1 then s
    else s.issueWord c k w 11 (qw w 41 40 == 0 && qClear w 47 42 && qClear w 39 38 && qClear w 35 32 &&
        decide (1 ≤ qw w 31 0)) true true (fun t y =>
      t.setCtx c k { y with lc := mput y.lc (qw w 37 36) (qw w 31 0) }))

/-- LOOP_BACK (R168). -/
def execLoopBack (c : Fin 512) (k : Fin 9) (w : BitVec 64) (s : State) : Res :=
  let i := qw w 37 36
  let dist := qw w 15 0
  .next (if qKind w = 11 ∧ qw w 41 40 = 0 then s
    else s.issueSeq c k w 11 (qw w 41 40 == 1 && qClear w 47 42 && qClear w 39 38 && qClear w 35 16 && decide (1 ≤ dist)) true
      true (fun t x =>
        if x.pc < 8 * dist then (if k.val = 8 then t.leaseStuck c else t.seqFault c k 0x3A)
        else
          let y := t.passed c k w
          let n := mget 0 x.lc i
          if 1 < n then t.setCtx c k { y with lc := mput x.lc i (n - 1), pc := x.pc - 8 * dist, hold := qHold w + 1 }
          else t.setCtx c k { y with lc := mput x.lc i 0 }))

/-- HALT (R169, R173). -/
def execHalt (c : Fin 512) (k : Fin 9) (w : BitVec 64) (s : State) : Res :=
  .next (s.issueWord c k w 12 (qClear w 47 0) false true (fun t y =>
    (t.noteSlack c y.live (t.sealStart - t.tick.ns)).setCtx c k { y with state := .halted }))

end Sys2Proof.Machine
end

