-- ==== Sys2Proof/Machine/Image.lean ====
section
/-!
DEFINITION. The span image's section as its bytes lay it out (06 R174 to R177, Tables 06-6 to 06-24, Table 10-3), and the
sequencer words of a code region (06 R158, R171).
-/
namespace Sys2Proof.Machine

/-- `n` runs of `k` bytes. -/
def chunks (k n : Nat) (l : List Byte) : List (List Byte) :=
  match n with
  | 0 => []
  | n + 1 => l.take k :: chunks k n (l.drop k)

/-- Every byte is 0. -/
def allZero (l : List Byte) : Bool := l.all (fun b => b == 0#8)

/-- Bytes [o, o + n) are 0. -/
def zeroIn (l : List Byte) (o n : Nat) : Bool := allZero ((l.drop o).take n)

/-! ### Directory (R176) -/

/-- A directory entry (Table 06-13). -/
structure DirEntry where
  type : Nat
  reserved : Nat
  count : Nat
  off : Nat
  len : Nat
deriving DecidableEq, Repr

/-- The directory of a section (Tables 06-12, 06-13); at most 32 entries. -/
def dirOf (b : List Byte) : List DirEntry :=
  (chunks 24 (min 32 (leAt b 8 4)) (b.drop (leAt b 0x10 8))).map (fun d =>
    ⟨leAt d 0 2, leAt d 2 2, leAt d 4 4, leAt d 8 8, leAt d 0x10 8⟩)

/-- The directory entry of an element type. -/
def dirEntry (b : List Byte) (t : Nat) : Option DirEntry := (dirOf b).find? (fun d => d.type == t)

/-- The bytes of an element; none of an absent one. -/
def elem (b : List Byte) (t : Nat) : List Byte :=
  match dirEntry b t with
  | some d => (b.drop d.off).take d.len
  | none => []

/-- The count of an element; 0 of an absent one. -/
def elemCount (b : List Byte) (t : Nat) : Nat :=
  match dirEntry b t with
  | some d => d.count
  | none => 0

/-- The size of an element's items, 0 of variable records (Table 06-14). -/
def itemSize (t : Nat) : Nat :=
  match t with
  | 0x01 => 128 | 0x02 => 56 | 0x03 => 528 | 0x04 => 112 | 0x05 => 4 | 0x06 => 16 | 0x07 => 32 | 0x08 => 8 | 0x0A => 24
  | 0x0B => 6480 | 0x0D => 42 | 0x0E => 16 | 0x10 => 224 | 0x12 => 8 | _ => 0

/-- The items of a fixed-size element. -/
def items (b : List Byte) (t : Nat) : List (List Byte) := chunks (itemSize t) (elemCount b t) (elem b t)

/-- `n` variable records, each as long as `size` says, padded to 8 bytes; none where they do not fill the bytes exactly
(R177). -/
def records (size : List Byte → Nat) (n : Nat) (l : List Byte) : Option (List (List Byte)) :=
  match n with
  | 0 => if l.isEmpty then some [] else none
  | n + 1 =>
    let k := size l
    let p := (k + 7) / 8 * 8
    if l.length < p ∨ k = 0 ∨ zeroIn l k (p - k) = false then none
    else match records size n (l.drop p) with
      | some r => some (l.take k :: r)
      | none => none

/-- Lengths of the variable records (Tables 06-16, 06-19, 06-21, 06-23). -/
def recordSize (t : Nat) (l : List Byte) : Nat :=
  match t with
  | 0x09 => 16 + leAt l 8 4
  | 0x0C => 0x30 + 16 * leAt l 0x28 4
  | 0x0F => 8 + 16 * leAt l 4 2
  | _ => 0x30 + 16 * leAt l 4 4 + 24 * leAt l 8 4

/-- The variable records of an element. -/
def varItems (b : List Byte) (t : Nat) : List (List Byte) :=
  (records (recordSize t) (elemCount b t) (elem b t)).getD []

/-! ### Header and configuration (Tables 06-6, 06-15) -/

/-- The image header copy's fields. -/
def ihDims (b : List Byte) : Nat × Nat × Nat :=
  let h := elem b 1
  (leAt h 8 1, leAt h 9 1, leAt h 0xA 1)
def ihShadows (b : List Byte) : Nat := leAt (elem b 1) 0xB 1
def ihLen (b : List Byte) : Nat := leAt (elem b 1) 0xC 4
def ihRepair (b : List Byte) : Nat := leAt (elem b 1) 0x10 4
def ihFree (b : List Byte) : Nat := leAt (elem b 1) 0x14 4
def ihEgress (b : List Byte) : Nat := leAt (elem b 1) 0x18 4
def ihSched (b : List Byte) : Nat := leAt (elem b 1) 0x1C 2
def ihTenants (b : List Byte) : Nat := leAt (elem b 1) 0x1E 2
def ihDigest (b : List Byte) : List Byte := ((elem b 1).drop 0x20).take 32
def ihSections (b : List Byte) : Nat := leAt (elem b 1) 0x48 4

/-- Devices of the span. -/
def ihDevices (b : List Byte) : Nat := (ihDims b).1 * (ihDims b).2.1 * (ihDims b).2.2

/-- The logical number of the section's device. -/
def secSelf (b : List Byte) : Nat := leAt b 6 2

/-- The device configuration's role set and Ethernet ports. -/
def dcRole (b : List Byte) : Nat := leAt (elem b 4) 0 4
def dcEth (b : List Byte) : Nat := leAt (elem b 4) 4 1

/-- A tenant the section enables on the device. -/
def dcTenant (b : List Byte) (t : Nat) : Bool := decide (t < 256) && bit (leAt (elem b 4) 8 32) t

/-- The section table entry of a device (R174). -/
def tableEntry (b : List Byte) (n : Nat) : Option (List Byte) := (items b 2).find? (fun e => leAt e 0 2 == n)

/-! ### Entries of the elements -/

/-- Handle entries: index 1,024 c + i and its bits, of those not all 0 (Table 07-2). -/
def secHandles (b : List Byte) : List (Nat × HEntry) :=
  ((items b 6).zipIdx.map (fun p => (p.2, BitVec.ofNat 128 (leNat p.1)))).filter (fun p => p.2 != 0#128)

/-- A context table entry (Table 06-7). -/
def ctxOf (l : List Byte) : CtxEntry :=
  { tenant := leAt l 0 1, used := bit (leAt l 1 1) 0, blockMask := leAt l 2 2, allot := leAt l 4 1, programs := leAt l 5 1,
    base := leAt l 8 4, len := leAt l 0xC 4, list := leAt l 0x10 4 }

/-- The context entries in use: index 9 c + k. -/
def secCtxs (b : List Byte) : List (Nat × CtxEntry) :=
  ((items b 7).zipIdx.map (fun p => (p.2, ctxOf p.1))).filter (fun p => p.2.used)

/-- A code region record: quarter, offset, length and bytes (Table 06-16). -/
def regionOf (l : List Byte) : Nat × Nat × Nat × List Byte := (leAt l 0 1, leAt l 4 4, leAt l 8 4, l.drop 16)

/-- The code regions. -/
def secRegions (b : List Byte) : List (Nat × Nat × Nat × List Byte) := (varItems b 9).map regionOf

/-- A slot record: placement, slot ID and entry (Tables 06-17, 09-11). -/
def slotRecord (l : List Byte) : Nat × Nat × Slot :=
  let w (i : Nat) := leAt l (8 + 4 * i) 4
  (leAt l 0 1, leAt l 2 2, ⟨bits (w 0) 1 0, bits (w 0) 5 2, bits (w 0) 9 6, bits (w 0) 18 10, bits (w 0) 31 24, bits (w 1) 23 0,
    w 2, bits (w 3) 23 0⟩)

/-- The slot records. -/
def secSlots (b : List Byte) : List (Nat × Nat × Slot) := (items b 0xA).map slotRecord

/-- `n` numbered entries of `k` bytes, those `f` keeps. -/
def tableOf (k n : Nat) (l : List Byte) (f : Nat → Option Nat) : NMap Nat :=
  ((chunks k n l).zipIdx.filterMap (fun p => (f (leNat p.1)).map (fun v => (p.2, v))))

/-- A detour table (Table 06-18). -/
def detourOf (l : List Byte) : Detour :=
  { map := tableOf 2 2048 l (fun v => if bit v 15 then some (bits v 10 0) else none),
    escape := tableOf 1 2048 (l.drop 0x1000) (fun v => if bit v 7 then some v else none),
    ranks := tableOf 2 32 (l.drop 0x1800) (fun v => if v = 0 then none else some v),
    mask := leAt l 0x1840 2,
    express := (chunks 4 (min 64 (leAt l 0x1842 2)) (l.drop 0x1850)).map (fun e => (bits (leNat e) 10 0, bits (leNat e) 19 16)) }

/-- An extent (Table 06-20). -/
def extentOf (l : List Byte) : Extent := ⟨leAt l 0 2, leAt l 2 2 % 1024, leAt l 4 4, leAt l 8 8⟩

/-- The extents that a run of bytes lists. -/
def extentsOf (n : Nat) (l : List Byte) : List Extent := (chunks 16 n l).map extentOf

/-- The weight manifest: share length, digest and extents (Table 06-19); a device that keeps no share has none. -/
def secShareLen (b : List Byte) : Nat := leAt (elem b 0xC) 0 8
def secShareDigest (b : List Byte) : List Byte := ((elem b 0xC).drop 8).take 32
def secShare (b : List Byte) : List Extent := extentsOf (leAt (elem b 0xC) 0x28 4) ((elem b 0xC).drop 0x30)

/-- The state list. -/
def secState (b : List Byte) : List Extent := (items b 0xE).map extentOf

/-- A refresh list record (Table 06-21). -/
def refreshOf (l : List Byte) : Refresh :=
  ⟨leAt l 0 1, leAt l 1 1, leAt l 2 1, (chunks 16 (leAt l 4 2) (l.drop 8)).map (fun e =>
    (leAt e 0 2, leAt e 2 2, leAt e 4 2 % 1024, leAt e 8 4))⟩

/-- A stream class descriptor (Table 06-22). -/
def classRecord (l : List Byte) : StreamClass :=
  { cls := leAt l 0 1, tenant := leAt l 1 1, source := leAt l 2 1, paths := leAt l 3 1, inLimit := leAt l 4 4,
    outLimit := leAt l 8 4, life := leAt l 0xC 4, tiles := leAt l 0x10 4, window := leAt l 0x14 4,
    intake := (chunks 8 (min 16 (leAt l 0x18 1)) (l.drop 0x20)).map (fun e => (leAt e 0 2, leAt e 2 2 % 1024, leAt e 4 1)),
    outlets := (chunks 4 (min 16 (leAt l 0x19 1)) (l.drop 0xA0)).map (fun e => (leAt e 0 2, leAt e 2 2 % 1024)) }

/-- A redundancy group record (Table 06-23). -/
def groupOf (l : List Byte) : RGroup :=
  let n := leAt l 4 4
  { index := leAt l 0 1, form := leAt l 1 1,
    members := (chunks 2 (min 16 (leAt l 2 1)) (l.drop 0x10)).map (fun e => leNat e % 2048),
    copy := extentsOf n (l.drop 0x30),
    state := (chunks 24 (leAt l 8 4) (l.drop (0x30 + 16 * n))).map (fun e => (leAt e 0 1, extentOf (e.drop 8))) }

/-- The home reservations: unit, tenant and homes (Table 06-24). -/
def secHomes (b : List Byte) : List (Nat × Nat × Nat) := (items b 0x12).map (fun e => (leAt e 0 2, leAt e 2 1, leAt e 4 2))

/-! ### The words of a code region (R158, R171) -/

/-- The kinds that only a tenant context may run, and their operands' extents in the region: a descriptor or a launch record
(Table 06-2). -/
def tenantOnly (k : Nat) : Bool := k == 2 || k == 3 || k == 4 || k == 5 || k == 6 || k == 8 || k == 9 || k == 0xC
def operandSize (k : Nat) : Nat := if k = 3 then 128 else if k = 2 ∨ k = 4 ∨ k = 8 then 64 else 0

/-- A word is legal by its fields, in a schedule whose repair phase starts at `rs` (Tables 06-1, 06-2, R159). -/
def wordLegal (w : QWord) (rs : Nat) : Bool :=
  qw w 55 48 == 0 && (match qKind w with
    | 1 => match qw w 41 40 with
      | 0 => qw w 47 42 == 0 && qw w 39 24 == 0 && decide (qw w 23 0 < rs)
      | 1 => qw w 47 42 == 0 && qw w 39 32 == 0 && qw w 31 0 != 0
      | 2 => qw w 47 42 == 0 && qw w 39 3 == 0 && qw w 2 0 != 0
      | _ => false
    | 2 | 4 | 8 => qw w 47 26 == 0 && qw w 25 0 % 64 == 0
    | 3 => qw w 47 26 == 0 && qw w 25 0 % 128 == 0
    | 5 | 6 => qw w 47 26 % 64 == 0
    | 7 => qw w 47 34 == 0
    | 9 => qw w 47 4 == 0
    | 10 => match qw w 35 32 with
      | 0 => qw w 47 36 == 0 && qw w 31 0 == 0
      | 1 => qw w 47 36 == 0 && qw w 31 16 == 0
      | _ => false
    | 11 => qw w 47 42 == 0 && qw w 39 38 == 0 && (match qw w 41 40 with
      | 0 => qw w 35 32 == 0 && qw w 31 0 != 0
      | 1 => qw w 35 16 == 0 && qw w 15 0 != 0
      | _ => false)
    | 12 => qw w 47 0 == 0
    | _ => false)

/-- The words in line from offset `pc`: up to the region's end, bytes in `data`, a HALT in a tenant context, or a zero word behind
a MARK.END, a LOOP.BACK or a HALT, which is the region's unused tail (log 23). -/
def lineWords (n pc : Nat) (bytes : List Byte) (data : List (Nat × Nat)) (lease after : Bool) : List (Nat × QWord) :=
  match n with
  | 0 => []
  | n + 1 =>
    if bytes.length < 8 ∨ data.any (fun d => decide (d.1 ≤ pc) && decide (pc < d.1 + d.2)) then []
    else
      let w : QWord := BitVec.ofNat 64 (leAt bytes 0 8)
      if after && w == 0#64 then []
      else if qKind w = 0xC ∧ lease = false then [(pc, w)]
      else (pc, w) :: lineWords n (pc + 8) (bytes.drop 8) data lease
        ((qKind w == 10 && qw w 35 32 == 0) || (qKind w == 11 && qw w 41 40 == 1) || qKind w == 12)

/-- The offsets in the region that LOOP.BACK words jump to (R170). -/
def loopStarts (l : List (Nat × QWord)) : List Nat :=
  l.filterMap (fun p => if qKind p.2 = 11 ∧ qw p.2 41 40 = 1 ∧ 8 * qw p.2 15 0 ≤ p.1 then some (p.1 - 8 * qw p.2 15 0) else none)

/-- The descriptors and launch records that words name: offset and size. -/
def namedData (l : List (Nat × QWord)) : List (Nat × Nat) :=
  l.filterMap (fun p => let z := operandSize (qKind p.2); if z = 0 then none else some (qw p.2 25 0, z))

/-- The words of a region from offsets where words start, given what is known to be data. -/
def wordsFrom (bytes : List Byte) (starts : List Nat) (data : List (Nat × Nat)) (lease : Bool) : List (Nat × QWord) :=
  starts.flatMap (fun e => lineWords (bytes.length / 8 + 1) e (bytes.drop e) data lease false)

/-- The words of a region: what the words of one pass name is data in the next, and where they jump to is a start, until a pass
finds nothing new (log 23). -/
def regionWords (n : Nat) (bytes : List Byte) (starts : List Nat) (data : List (Nat × Nat)) (lease : Bool) : List (Nat × QWord) :=
  match n with
  | 0 => wordsFrom bytes starts data lease
  | n + 1 =>
    let l := wordsFrom bytes starts data lease
    let new := (namedData l).filter (fun d => !data.contains d)
    let jumps := (loopStarts l).filter (fun e => !starts.contains e && !l.any (fun p => p.1 == e))
    if new.isEmpty && jumps.isEmpty then l else regionWords n bytes (starts ++ jumps.dedup) (data ++ new.dedup) lease

/-- The bytes of a context's region; zeros where no record gives them. -/
def ctxBytes (b : List Byte) (i : Nat) (e : CtxEntry) : List Byte :=
  match (secRegions b).find? (fun r => r.1 == i / 9 / 128 && r.2.1 == e.base && r.2.2.1 == e.len) with
  | some r => r.2.2.2.take e.len
  | none => zeros e.len

/-- A context's program entries (Table 06-7). -/
def ctxEntries (bytes : List Byte) (e : CtxEntry) : List Nat :=
  (chunks 4 e.programs (bytes.drop e.list)).map leNat

/-- A context's words: of the lease context, which holds no descriptor and no thread code, all that are in line (R171); of a tenant
context all that a program entry or a LOOP.BACK reaches. -/
def ctxWords (b : List Byte) (i : Nat) (e : CtxEntry) : List (Nat × QWord) :=
  let bytes := ctxBytes b i e
  regionWords (bytes.length / 8) bytes (ctxEntries bytes e) [(e.list, 4 * e.programs)] (i % 9 == 8)

end Sys2Proof.Machine
end

