-- ==== Sys2Proof/Machine/Island.lean ====
section
/-!
DEFINITION. The safety island (15 R394 to R409): its monitors and outputs, the end of gate causes, the arithmetic
self-check, the bytes of fault records, and the laser-disable lines (08 R225).
-/
namespace Sys2Proof.Machine

/-! ### Fault records (R408) -/

/-- The 16 bytes of a fault record (Table 15-8). -/
def FaultRecord.bytes (r : FaultRecord) : List Byte :=
  let b := leBytes 2 r.number ++ leBytes 1 r.code ++ leBytes 1 r.actions ++ leBytes 4 r.time ++ leBytes 4 r.detail ++
    leBytes 2 r.unit
  b ++ leBytes 2 (crc16 b).toNat

/-- PWR_KILL_N is asserted, and latches (R397). -/
def State.kill (s : State) : State := s.modIsland (fun i => { i with kill := true })

/-! ### Optical engines and the laser-disable lines (R223 to R227, R405) -/

/-- The engine goes OFF: counted in OPT_TRIP, and the page event (R227, Table 17-9). -/
def State.optOff (s : State) (p : Nat) : State :=
  if (s.port p).opt = .off then s else ((s.modPort p (fun x => { x with opt := .off })).cnt R.prtOptTrip p).event .prt p 3

/-- A reason asserts a port's laser-disable line, where the port has one; its engine is OFF (R225, Table 00-2). -/
def State.lineOn (s : State) (p reason : Nat) : State :=
  (s.modIsland (fun i => { i with
    lines := if i.lines.contains (p, reason) || !s.optical p then i.lines else i.lines ++ [(p, reason)] })).optOff p

/-- A reason for a port's line ends; the line is released with the last (R225). -/
def State.lineOff (s : State) (p reason : Nat) : State :=
  s.modIsland (fun i => { i with lines := if s.optical p then i.lines.filter (fun x => x != (p, reason)) else i.lines })

/-- The optical ports (R223). -/
def optPorts : List Nat := [4, 5, 6, 7, 8, 9, 10, 11]

/-- A reason asserts every line. -/
def State.linesOn (s : State) (reason : Nat) : State := s.each optPorts (fun t p => t.lineOn p reason)

/-- A reason ends on every line. -/
def State.linesOff (s : State) (reason : Nat) : State := s.each optPorts (fun t p => t.lineOff p reason)

/-! ### The monitors (R395, R396) -/

/-- LOCKSTEP_MISMATCH: the cores disagree: every line, the gate and the alert, then a reboot; a second mismatch within 1 s of
the first kills the power (R395). -/
def execLockstepMismatch (s : State) : Res :=
  let again := match s.island.firstMismatch with
    | some t => decide (s.power.uptime ≤ t + 1000000000)
    | none => false
  let s1 := ((s.linesOn 0).closeGate gReboot).cleared 0x60
  let s2 := s1.modIsland (fun i => { i with
    ready := false, firstMismatch := if again then i.firstMismatch else some s.power.uptime })
  let s3 := s2.record 0x60 (actGate + actLine + actAlert + actReboot + (if again then actKill else 0)) 0 0
  .next (if again then s3.kill else s3)

/-- ISLAND_REBOOT_COMPLETE: the outputs of a reboot are released (R395). -/
def execIslandRebootComplete (s : State) : Res :=
  .next (if s.island.causes.contains gReboot then
      ((s.modIsland (fun i => { i with ready := true })).openGate gReboot).linesOff 0
    else s)

/-- JUNCTION_TRIP: a sensor that is not ignored reads 115 °C or more twice in a row (Table 15-2). -/
def execJunctionTrip (sensor : Fin 36) (temp : Nat) (s : State) : Res :=
  .next (if s.island.sensorsFailed.contains sensor.val ∨ temp < 1150 then s
    else (s.record 0x61 actKill temp sensor).kill)

/-- The sensors of a sensor's die: a quarter's 8 or the hub's 4 (R394). -/
def dieOf (n : Nat) : List Nat := if n < 32 then (List.range 8).map (fun i => n / 8 * 8 + i) else [32, 33, 34, 35]

/-- SENSOR_IMPLAUSIBLE: the sensor is ignored from now on; a die with fewer than 4 working sensors is critical (Table
15-2). -/
def execSensorImplausible (sensor : Fin 36) (temp : Nat) (s : State) : Res :=
  if s.island.sensorsFailed.contains sensor.val then .next s
  else
    let s1 := (s.modIsland (fun i => { i with sensorsFailed := i.sensorsFailed ++ [sensor.val] })).record 0x62 0 temp sensor
    let left := (dieOf sensor).filter (fun n => !s1.island.sensorsFailed.contains n)
    .next (if left.length < 4 then (s1.modIsland (fun i => { i with sensorCrit := true })).setCrit true else s1)

/-- The overvoltage trip levels of Table 15-3, in mV, the rails in the order of Table 14-1 (log 58): VDD_Q0 to VDD_Q3, VDD_RET,
VDD_HUB, VDD_ISL, VDDA_LO, VDDA_HI, VDD_IO18, VDD_IO33, VDD_OPT. -/
def railTrips : List Nat := [920, 920, 920, 920, 850, 850, 900, 850, 1320, 1980, 3630, 3630]

/-- RAIL_OVERVOLTAGE: two samples above the rail's trip level (Table 15-2, Table 15-3); VDD_OPT is on the AKL512-O alone (Table
14-1). -/
def execRailOvervoltage (rail : Fin 12) (mv : Nat) (s : State) : Res :=
  .next (if mv ≤ railTrips.getD rail 0 ∨ (rail.val = 11 ∧ !Config.variantO) then s else (s.record 0x63 actKill mv rail).kill)

/-- The least voltage of a core rail in mV: 30 mV below the V/F value for the quarter's clock, or for half of it while it is
stretched (Table 15-2). -/
def State.coreFloor (s : State) (q : Nat) : Nat :=
  vf q (if (s.quarter q).stretched then (s.quarter q).f / 2 else (s.quarter q).f) - 30

/-- CORE_UNDERVOLTAGE: a core rail more than 30 mV below its value: the gate closes (Table 15-2). -/
def execCoreUndervoltage (q : Fin 4) (mv : Nat) (s : State) : Res :=
  .next (if s.coreFloor q ≤ mv then s else (s.record 0x64 actGate mv q).closeGate gUndervoltage)

/-- RETENTION_UNDERVOLTAGE: VDD_RET below 0.70 V awake, or 0.50 V in doze: the gate closes and latches (Table 15-2). -/
def execRetentionUndervoltage (mv : Nat) (s : State) : Res :=
  .next (if (if s.dozing then 500 else 700) ≤ mv then s
    else (s.record 0x6E actGate mv 0).closeGate gRetention)

/-- REGULATOR_FAULT: VR_FAULT_N low for 100 µs (Table 15-2). -/
def execRegulatorFault (s : State) : Res :=
  let s1 : State := { s with pins := { s.pins with vrFault := true } }
  .next ((s1.record 0x65 actKill 0 0).kill)

/-- `x` is more than `pct` percent away from `y`. -/
def offBy (pct x y : Nat) : Bool := decide (100 * x + pct * y < 100 * y ∨ 100 * y + pct * y < 100 * x)

/-- QUARTER_CLOCK_FAULT: the edges counted are more than 8% from the commanded clock: the gate closes (Table 15-2). -/
def execQuarterClockFault (q : Fin 4) (mhz : Nat) (s : State) : Res :=
  .next (if offBy 8 mhz (s.quarter q).f then (s.record 0x66 actGate mhz q).closeGate gClock else s)

/-- ISLAND_OSCILLATOR_FAULT: the 200 MHz island oscillator is more than 5% from the reference: the gate closes (Table 15-2). -/
def execIslandOscillatorFault (mhz : Nat) (s : State) : Res :=
  .next (if offBy 5 mhz 200 then (s.record 0x6D (actGate + actAlert) mhz 0).closeGate gOscillator else s)

/-- HUB_WATCHDOG: no SAF.KICK for 20 ms (Table 15-2). -/
def execHubWatchdog (s : State) : Res :=
  .next ((s.record 0x67 (actGate + actAlert) 0 0).closeGate gWatchdog)

/-- LAUNCH_POWER_TRIP: a lane launches above +4.0 dBm; the port's line is held for 1 s (Table 15-2, R405). -/
def execLaunchPowerTrip (port : Fin 16) (s : State) : Res :=
  .next (if s.optical port then (s.record 0x6A actLine 0 port).lineOn port 3 else s)

/-- GATE_CAUSE_CLEAR: a monitor has stayed in tolerance for 1 ms (Table 15-5). The other causes end as their own commands
say. -/
def execGateCauseClear (cause : Fin 9) (s : State) : Res :=
  .next (match cause.val with
    | 2 => (s.openGate gUndervoltage).cleared 0x64
    | 3 => (s.openGate gClock).cleared 0x66
    | 4 => (s.openGate gOscillator).cleared 0x6D
    | _ => s)

/-- A write of SAF.KICK: dropped unless the hub's service cores make it. It ends a watchdog cause and, once firmware runs, the
reset cause (R399, R409). -/
def State.kickIsland (s : State) (p : Path) : State :=
  if p = .cores ∧ s.island.firmware = true then
    ((s.openGate gWatchdog).openGate gReset).cleared 0x67
  else s

/-- SAF.STS.alert written 1: every record is acknowledged (Table 15-9). -/
def State.alertAck (s : State) : State := s.modIsland (fun i => { i with alert := false })

/-! ### The arithmetic self-check (R400, R401) -/

/-- SELF_CHECK_COMPLETE: every cluster passed, or one has a signature mismatch: the gate closes and latches (R400, R401). -/
def execSelfCheckComplete (bad : Option (Fin 512)) (s : State) : Res :=
  .next (if s.tick.phase = .sealing then
      match bad with
      | none => s.modIsland (fun i => { i with selfOk := true })
      | some c =>
        ((s.record 0x69 actGate (s.tick.count % 16) c).modIsland (fun i => { i with latched := true, selfOk := false })).closeGate
          gSelfCheck
    else s)

/-- SELF_CHECK_ABANDON: not finished 950 ns after seal start; counted (R400). -/
def execSelfCheckAbandon (s : State) : Res :=
  .next (if s.tick.phase = .sealing then (s.modIsland (fun i => { i with selfOk := false })).cnt R.safSelfchkSkip else s)

/-- A commit: the count of ticks in a row in which every cluster passed; at 16 SELFCHK_CLEAN takes the tick (R401). -/
def State.selfCheckCommit (s : State) : State :=
  s.modIsland (fun i =>
    if i.selfOk then
      { i with cleanRun := i.cleanRun + 1, cleanTick := if 16 ≤ i.cleanRun + 1 then s.tick.count else i.cleanTick, selfOk := false }
    else { i with cleanRun := 0 })

/-! ### VDD_OPT (R405) -/

/-- VDD_OPT_FAULT: the rail is outside 3.0 V to 3.63 V; every line is asserted (R405). -/
def execVddOptFault (mv : Nat) (s : State) : Res :=
  .next (if mv < 3000 ∨ 3630 < mv then s.linesOn 2 else s)

/-- VDD_OPT_RESTORE: 10 ms after the rail is back in its window (R405). -/
def execVddOptRestore (s : State) : Res := .next (s.linesOff 2)

end Sys2Proof.Machine
end

