-- ==== Sys2Proof/Machine/Tag.lean ====
section
/-!
DEFINITION. The service tag (16 R437 to R441, 15 R408) and the boot flash (16 R433 to R436).
-/
namespace Sys2Proof.Machine

/-! ### Blocks and tear-safe commits (R440) -/

/-- A block as production leaves it: the Type 2 header with its lock bytes and capability container, the identity pages, and
zeros (Table 16-8). -/
def tagInit (b : Nat) : List Byte :=
  if b = 0 then (List.range 10).map Config.tagByte ++ [0xFF#8, 0xFF#8, 0xE1#8, 0x10#8, 0x1E#8, 0x0F#8]
  else if b < 16 then (List.range 16).map (fun i => Config.tagByte (16 * b + i))
  else zeros 16

/-- A block of the tag. -/
def State.tagBlock (s : State) (b : Nat) : TagBlock := mget { TagBlock.reset with c0 := tagInit b } s.tag.blocks b

/-- A block's commit counter: the larger word whose CRC checks (R440). -/
def TagBlock.counter (x : TagBlock) : Nat := max (x.w0.getD 0) (x.w1.getD 0)

/-- A block's data: its active copy (R440). -/
def TagBlock.data (x : TagBlock) : List Byte := if x.counter % 2 = 0 then x.c0 else x.c1

/-- Steps 2 and 3: the inactive copy erased, or programmed for counter `n` (R440). -/
def TagBlock.program (x : TagBlock) (data : List Byte) (ok : Option Nat) : TagBlock :=
  if x.counter % 2 = 0 then { x with c1 := data, ok1 := ok } else { x with c0 := data, ok0 := ok }

/-- Step 4: the word that holds the smaller value, or whose CRC fails, takes the new counter; torn, its CRC fails (R440). -/
def TagBlock.count (x : TagBlock) (v : Option Nat) : TagBlock :=
  if x.w1 = none ∨ (x.w0 ≠ none ∧ x.w1.getD 0 < x.w0.getD 0) then { x with w1 := v } else { x with w0 := v }

/-- A whole commit of new data (R440). -/
def TagBlock.commit (x : TagBlock) (data : List Byte) : TagBlock :=
  (x.program data (some (x.counter + 1))).count (some (x.counter + 1))

/-- The state with its tag changed. -/
def State.modTag (s : State) (f : Tag → Tag) : State := { s with tag := f s.tag }

/-- The state with a tag block replaced. -/
def State.setTagBlock (s : State) (b : Nat) (x : TagBlock) : State := s.modTag (fun t => { t with blocks := mput t.blocks b x })

/-- The 16 bytes from `page` on, wrapping within `pages` pages (Table 16-9). -/
def State.tagPages (s : State) (page pages : Nat) : List Byte :=
  (List.range 4).flatMap (fun i =>
    let p := (page + i) % pages
    ((s.tagBlock (p / 4)).data.drop (p % 4 * 4)).take 4)

/-! ### Reader access (Table 16-8) -/

/-- The lock byte. -/
def State.tagLock (s : State) : Nat := ((s.tagBlock 63).data.getD 0 0#8).toNat

/-- A reader may write the block: an operator-notes area not locked, or the lock block (R439). -/
def State.tagWritable (s : State) (b : Nat) : Bool :=
  (decide (33 ≤ b) && decide (b < 48) && !bit s.tagLock 0) || (decide (80 ≤ b) && decide (b < 128) && !bit s.tagLock 1) || b == 63

/-- A NAK, counted (R438, Table 16-11). -/
def State.tagNak (s : State) (code : Nat) : State := (s.cnt R.tagNakCnt).send (.tagNak code)

/-- A reader's commit of a block begins, or is refused (R438, R439): the lock block's byte 0 is ORed and its other bytes are
reserved. -/
def State.tagBegin (s : State) (b : Nat) (data : List Byte) : State :=
  if s.tagWritable b = false ∨ data.length ≠ 16 then s.tagNak 0
  else if b = 63 then
    if (data.drop 1).any (fun x => x != 0#8) then s.tagNak 0
    else s.modTag (fun t => { t with op := some (63, ((data.getD 0 0#8) ||| BitVec.ofNat 8 s.tagLock) :: zeros 15, true) })
  else s.modTag (fun t => { t with op := some (b, data, true) })

/-- One operation, taken while no commit runs; the count of records written stops at its largest value (R438, R439, R472). -/
def State.tagRun (s : State) (j : TagJob) : State :=
  match j with
  | .read page pages => if page < pages then s.send (.tagData (s.tagPages page pages)) else s.tagNak 0
  | .state => s.send (.tagData (leBytes 4 s.tag.commits ++ (s.tagBlock 32).data.take 2 ++ leBytes 1 (b2n s.power.on) ++ zeros 9))
  | .page page data =>
    if 256 ≤ page ∨ data.length ≠ 4 then s.tagNak 0
    else
      let d := (s.tagBlock (page / 4)).data
      s.tagBegin (page / 4) (d.take (page % 4 * 4) ++ data ++ d.drop (page % 4 * 4 + 4))
  | .block b data => if 128 ≤ b then s.tagNak 0 else s.tagBegin b data
  | .store b data => s.modTag (fun t => { t with op := some (b, data, false) })
  | .head n =>
    s.modTag (fun t => { t with
      op := some (32, padTo 16 (leBytes 2 n ++ leBytes 1 (16 + n % 16) ++ leBytes 2 (min 65535 (leAt (s.tagBlock 32).data 3 2 + 1))), false) })

/-- The waiting operations are served in turn until one of them is a commit (R439). -/
def State.tagNext (s : State) (l : List TagJob) : State :=
  match l with
  | [] => s.modTag (fun t => { t with queue := [] })
  | j :: r => if s.tag.op.isSome then s.modTag (fun t => { t with queue := j :: r }) else (s.tagRun j).tagNext r

/-- An operation reaches the tag (R439). -/
def State.tagJob (s : State) (j : TagJob) : State :=
  if s.tag.op.isSome then s.modTag (fun t => { t with queue := t.queue ++ [j] }) else s.tagRun j

/-- A reader's operation: its field is present (Table 16-11), and a command with a CRC or parity error has NAK 0x1 (R438). -/
def State.tagReader (s : State) (crcOk : Bool) (j : TagJob) : State :=
  let s1 := s.modTag (fun t => { t with field := true })
  if crcOk then s1.tagJob j else s1.tagNak 1

/-- TAG_READ: 16 bytes from a page, wrapping within pages 0 to 255 (Table 16-9). -/
def execTagRead (page : Nat) (crcOk : Bool) (s : State) : Res := .next (s.tagReader crcOk (.read page 256))

/-- READ_WIDE: 16 bytes from a page, wrapping within pages 0 to 511 (Table 16-9). -/
def execReadWide (page : Nat) (crcOk : Bool) (s : State) : Res := .next (s.tagReader crcOk (.read page 512))

/-- GET_STATE (Table 16-9). -/
def execGetState (crcOk : Bool) (s : State) : Res := .next (s.tagReader crcOk .state)

/-- TAG_WRITE: one page of a block (R439). -/
def execTagWrite (page : Nat) (data : List Byte) (crcOk : Bool) (s : State) : Res := .next (s.tagReader crcOk (.page page data))

/-- WRITE_BLOCK: 16 bytes (R439). -/
def execWriteBlock (blk : Nat) (data : List Byte) (crcOk : Bool) (s : State) : Res := .next (s.tagReader crcOk (.block blk data))

/-- TAG_COMMIT_COMPLETE: the commit under way ends; a reader gets its ACK (R440). -/
def execTagCommitComplete (s : State) : Res :=
  .next (match s.tag.op with
    | none => s
    | some (b, data, reader) =>
      let s1 := (s.setTagBlock b ((s.tagBlock b).commit data)).modTag (fun t => { t with op := none, commits := t.commits + 1 })
      let s2 := if reader then (s1.cnt R.tagReaderWr).send .tagAck else s1
      s2.tagNext s2.tag.queue)

/-- A block after its commit was cut off (Table 16-10); `new` says which of two outcomes a torn counter word has. -/
def TagBlock.torn (x : TagBlock) (data : List Byte) (p : TearPoint) (new : Bool) : TagBlock :=
  match p with
  | .command => x
  | .erase => x.program (zeros 16) none
  | .program => x.program data none
  | .counter => if new then x.commit data else (x.program data (some (x.counter + 1))).count none
  | .reply => x.commit data

/-- A field too weak to finish a write may be told NAK 0x5, or have no reply (16, When things go wrong). -/
def unfinished (p : TearPoint) : Bool :=
  match p with
  | .erase | .program | .counter => true
  | .command | .reply => false

/-- FIELD_COLLAPSE: the reader's field ends; its commit under way has the outcome of Table 16-10. Which of two outcomes a torn
counter word has, and whether NAK 0x5 is sent, are free (log 4). -/
def execFieldCollapse (point : TearPoint) (s : State) : Res :=
  let s1 := s.modTag (fun t => { t with field := false })
  .next (match s.tag.op with
    | some (b, data, true) =>
      let x := (s.tagBlock b).torn data point ((Config.freeWord s.freeCtr).getLsbD 0)
      let s2 := (s1.setTagBlock b x).draw.modTag (fun t => { t with
        op := none, commits := if x.counter = (s.tagBlock b).counter then t.commits else t.commits + 1 })
      let s3 := if unfinished point && (Config.freeWord s.freeCtr).getLsbD 1 then s2.send (.tagNak 5) else s2
      s3.tagNext s3.tag.queue
    | _ => s1)

/-- VDD_ISL is lost: a commit of the device's own is cut off, with the same outcomes (R440); what waits is lost. -/
def State.tagPowerLoss (s : State) : State :=
  match s.tag.op with
  | some (b, data, false) =>
    let x := (s.tagBlock b).torn data .counter ((Config.freeWord s.freeCtr).getLsbD 0)
    (s.setTagBlock b x).draw.modTag (fun t => { t with op := none, queue := [], ready := false })
  | _ => s.modTag (fun t => { t with queue := [], ready := false })

/-- BLACK_BOX_WRITE: the oldest record not yet copied goes to its block, then the head (R408, R441). -/
def execBlackBoxWrite (s : State) : Res :=
  let l := s.island.records
  .next (if s.power.on = false ∨ s.island.copied = s.island.recHead then s
    else match (l.find? (fun r => r.number == s.island.copied)).or l.head? with
      | none => s
      | some r => ((s.modIsland (fun i => { i with copied := (r.number + 1) % 65536 })).tagJob (.store (16 + r.number % 16) r.bytes)).tagJob
          (.head r.number))

/-- The Trestle ID in use (R414). -/
def State.trsId (s : State) : Nat := if s.flag R.trsCfg 6 then s.fld R.trsCfg 5 0 else s.trestle.strap

/-- SERVICE_RECORD_UPDATE: at each boot and hourly (Table 16-8). -/
def execServiceRecordUpdate (s : State) : Res :=
  let s1 := s.modTag (fun t => { t with hours := if t.fresh then t.hours else t.hours + 1, fresh := false })
  let d := leBytes 4 s.flash.version ++ leBytes 4 s1.tag.boots ++ leBytes 4 s1.tag.hours ++ leBytes 1 s.power.rstCause ++
    leBytes 1 s.trsId ++ leBytes 6 s.time.sec
  .next (if s.power.on then (s1.tagJob (.store 64 (d.take 16))).tagJob (.store 65 (padTo 16 (d.drop 16))) else s)

/-! ### Boot flash (R433 to R436) -/

/-- A byte of the flash. -/
def State.flashByte (s : State) (a : Nat) : Byte := mget (Config.flashByte a) s.flash.bytes a

/-- Store bytes in the flash. -/
def State.setFlash (s : State) (a : Nat) (l : List Byte) : State :=
  match l with
  | [] => s
  | b :: r => ({ s with flash := { s.flash with bytes := mput s.flash.bytes a b } } : State).setFlash (a + 1) r

/-- An erase or a program at `a` touches the copy the device booted from (R436). -/
def State.inBooted (s : State) (a : Nat) : Bool := a / 0x800000 == s.flash.booted

/-- BTF.CMD is refused (R436). -/
def State.flashRefused (s : State) (v : Nat) : Bool := (bit v 0 || bit v 1) && s.inBooted (s.rd R.btfAddr)

/-- BTF.CMD starts an operation: erase a 4 KiB sector, program a 256-byte page, or read 256 bytes (Table 16-11). While one
runs another is not begun. -/
def State.flashStart (s : State) (v : Nat) : State :=
  let a := s.rd R.btfAddr
  let buf := (List.range 64).flatMap (fun i => leBytes 4 (s.rd R.btfBuf 0 0 i))
  if s.flash.op.isSome then s
  else if bit v 0 then { s with flash := { s.flash with op := some (1, a / 4096 * 4096, []) } }
  else if bit v 1 then { s with flash := { s.flash with op := some (2, a / 256 * 256, buf) } }
  else if bit v 2 then { s with flash := { s.flash with op := some (3, a, []) } }
  else s

/-- The bytes of a programmed page: what the spec leaves open for a byte that was not erased is a free value (log 4). -/
def State.programmed (s : State) (a : Nat) (l : List Byte) : List Byte :=
  l.zipIdx.map (fun p => if s.flashByte (a + p.2) = 0xFF#8 then p.1 else Config.freeByte s.freeCtr p.2)

/-- FLASH_OPERATION_COMPLETE (R436). -/
def execFlashOperationComplete (s : State) : Res :=
  let s1 : State := { s with flash := { s.flash with op := none } }
  .next (match s.flash.op with
    | none => s
    | some (1, a, _) => s1.setFlash a (List.replicate 4096 0xFF#8)
    | some (2, a, l) => (s1.setFlash a (s.programmed a l)).draw
    | some (_, a, _) => s1.each (List.range 64) (fun t i =>
        t.wr R.btfBuf (leNat ((List.range 4).map (fun j => s.flashByte (a + 4 * i + j)))) 0 0 i))

/-- BTF.STS (Table 16-11). -/
def State.btfSts (s : State) : Nat :=
  let f := s.flash
  f.booted + 2 * b2n f.aValid + 4 * b2n f.bValid + 8 * b2n f.op.isSome + 16 * f.width + 256 * f.clock

end Sys2Proof.Machine
end

