-- ==== Sys2Proof/Machine/Trestle.lean ====
section
/-!
DEFINITION. The Trestle line's node (16 R413 to R427): frames in and out, the superframe, beacon loss, election, and REQ
numbering. The register words of a REQ are served in Sys2Proof/Machine/Paths.lean.
-/
namespace Sys2Proof.Machine

/-- The state with its Trestle node changed. -/
def State.modTrs (s : State) (f : Trestle → Trestle) : State := { s with trestle := f s.trestle }

/-- The node runs: firmware does, and TRS.CFG.enable is set (R425). -/
def State.trsOn (s : State) : Bool := s.island.firmware && s.flag R.trsCfg 8

/-- An assigned slot is the node's: a valid ID, no conflict, and its bit of the grant map; a source grants all (R414, R418,
R424). -/
def State.trsGranted (s : State) : Bool :=
  decide (1 ≤ s.trsId) && decide (s.trsId ≤ 60) && !s.trestle.idConflict &&
    (s.trestle.state == .source || bit s.trestle.grants s.trsId)

/-- A frame is sent (Table 16-3, TRS.TX_FRAMES). -/
def State.trsSend (s : State) (type dst seq : Nat) (payload : List Byte) : State :=
  (s.cnt R.trsTxFrames).send (.trestle type dst s.trsId seq payload)

/-- A frame arrives: a damaged one is counted and dropped (R417); one in a contention slot is acknowledged by a source (R423);
the node's own ID as its source is a conflict (R424). -/
def State.trsReceive (s : State) (h : TrsHead) : Option State :=
  if s.trsOn = false then none
  else if (h.fcsOk && h.lenOk && h.reservedOk) = false then some (s.cnt R.trsFcsErr)
  else
    let s1 := match s.trestle.slot with
      | some c => s.modTrs (fun t => { t with heard := t.heard ||| 2 ^ c })
      | none => s
    some (if h.src = s.trsId then s1.modTrs (fun t => { t with idConflict := true }) else s1)

/-- The frame is whole and addressed to the node (R414, R417). -/
def State.trsMine (s : State) (h : TrsHead) : Bool :=
  s.trsOn && h.fcsOk && h.lenOk && h.reservedOk && (h.dst == s.trsId || h.dst == 0xFF)

/-- Acknowledgements of a beacon: a frame sent in a slot whose bit is set has succeeded; the eighth failure drops it (R423). -/
def State.trsAcks (s : State) (acks : Nat) : State :=
  s.each s.trestle.held (fun t f => match f.usedSlot with
    | none => t
    | some c =>
      let rest := t.trestle.held.erase f
      if bit acks c then t.modTrs (fun x => { x with held := rest })
      else if 7 ≤ f.attempts then (t.modTrs (fun x => { x with held := rest })).cnt R.trsContFail
      else t.modTrs (fun x => { x with
        held := x.held.map (fun g => if g = f then { g with attempts := g.attempts + 1, usedSlot := none } else g) }))

/-- A good beacon: valid, and within 10 µs of its time or the node in LISTEN or SILENT (R425). -/
def State.beaconGood (s : State) (offUs : Int) : Bool :=
  s.trestle.state == .listen || s.trestle.state == .silent || decide (-10 ≤ offUs ∧ offUs ≤ 10)

/-- BEACON: a good one is followed; a source follows any one from a node with a lower ID, and no other (Table 16-6). -/
def execBeacon (h : TrsHead) (number source : Nat) (handover : Bool) (acks grants : Nat) (offUs : Int) (s : State) : Res :=
  .next (match s.trsReceive h with
    | none => s
    | some s1 =>
      if s.trsMine h = false ∨ (s.trestle.state ≠ .source ∧ s.beaconGood offUs = false) ∨
          (s.trestle.state = .source ∧ s.trsId ≤ source) then s1
      else (s1.modTrs (fun t => { t with
        state := .follow, number := number, lastGood := number, source := source, grants := grants, acks := acks,
        missed := 0, handover := false, slot := none })).trsAcks acks)

/-- BEACON_MISS: FOLLOW coasts; the fourth beacon missing is SILENT (Table 16-6). -/
def execBeaconMiss (s : State) : Res :=
  .next (if s.trsOn = false then s
    else match s.trestle.state with
      | .follow => (s.modTrs (fun t => { t with state := .coast, missed := 1 })).cnt R.trsBcnMiss
      | .coast =>
        if s.trestle.missed < 3 then (s.modTrs (fun t => { t with missed := t.missed + 1 })).cnt R.trsBcnMiss
        else s.modTrs (fun t => { t with state := .silent })
      | _ => s)

/-- LISTEN_TIMEOUT: no beacon for 10.24 ms (Table 16-6). -/
def execListenTimeout (s : State) : Res :=
  .next (if s.trsOn ∧ s.trestle.state = .listen then s.modTrs (fun t => { t with state := .silent }) else s)

/-- A source's beacon: grant map all ones, acknowledgements of the superframe before; after one with handover it follows
(Table 16-4, Table 16-6, R427). -/
def State.sendBeacon (s : State) : State :=
  let t := s.trestle
  let p := leBytes 4 t.number ++ leBytes 1 s.trsId ++ leBytes 1 (b2n t.handover) ++ leBytes 2 t.heard ++ leBytes 8 (2 ^ 64 - 1)
  (s.trsSend 1 0xFF 0 p).modTrs (fun x => { x with
    state := if t.handover then .follow else .source, handover := false, heard := 0, source := s.trsId })

/-- ELECTION: the election time is reached with beacon_elig set; numbering goes on from the last good beacon (R426). -/
def execElection (s : State) : Res :=
  .next (if s.trsOn ∧ s.trestle.state = .silent ∧ s.flag R.trsCfg 7 then
      (s.modTrs (fun t => { t with state := .source, number := (t.lastGood + 8 + s.trsId) % 2 ^ 32 })).sendBeacon
    else s)

/-- SUPERFRAME_START: by the node's own prediction; a source sends its beacon; a fourth superframe with no beacon is SILENT
(Table 16-6). -/
def execSuperframeStart (s : State) : Res :=
  .next (if s.trsOn = false then s
    else
      let s1 := s.modTrs (fun t => { t with number := (t.number + 1) % 2 ^ 32, slot := none })
      match s.trestle.state with
      | .source => s1.sendBeacon
      | .coast => if 3 ≤ s.trestle.missed then s1.modTrs (fun t => { t with state := .silent }) else s1
      | _ => s1)

/-- The node may send in slots (Table 16-6). -/
def State.trsSends (s : State) : Bool :=
  s.trestle.state == .follow || s.trestle.state == .coast || s.trestle.state == .source

/-- ASSIGNED_SLOT: the node's own slot: one RSP or EVENT frame, the oldest that may go (R418, R419). -/
def execAssignedSlot (s : State) : Res :=
  .next (if s.trsOn ∧ s.trsSends ∧ s.trsGranted then
      match s.trestle.held.find? (fun f => decide (f.due ≤ s.power.uptime)) with
      | none => s.modTrs (fun t => { t with slot := none })
      | some f => (s.modTrs (fun t => { t with
          held := t.held.erase f, slot := none, wait := none })).trsSend f.type f.dst f.seq f.payload
    else s.modTrs (fun t => { t with slot := none }))

/-- CONTENTION_SLOT: with no usable assigned slot, the oldest frame not yet sent waits its drawn number of contention slots,
then goes (R423). The draw is a free value (log 4). -/
def execContentionSlot (slot : Fin 15) (s : State) : Res :=
  let s1 := s.modTrs (fun t => { t with slot := some slot })
  .next (if s.trsOn = false ∨ s.trestle.state ≠ .follow ∨ s.trsGranted then s1
    else match s.trestle.held.find? (fun f => f.usedSlot.isNone) with
      | none => s1
      | some f =>
        let (n, s2) := match s.trestle.wait with
          | some n => (n, s1)
          | none => ((Config.freeWord s.freeCtr).toNat % (15 * 2 ^ min f.attempts 6), s1.draw)
        if n = 0 then
          (s2.modTrs (fun t => { t with
            wait := none, held := t.held.map (fun g => if g = f then { g with usedSlot := some slot } else g) })).trsSend f.type f.dst
              f.seq f.payload
        else s2.modTrs (fun t => { t with wait := some (n - 1) }))

/-- CLAIM: a source sends one more beacon, with handover (R427). -/
def execClaim (h : TrsHead) (s : State) : Res :=
  .next (match s.trsReceive h with
    | none => s
    | some s1 =>
      if s.trsMine h ∧ h.src = 0 ∧ s.trestle.state = .source then s1.modTrs (fun t => { t with handover := true }) else s1)

/-- TRESTLE_WAKE: the wake source of bit 3 (R422, Table 14-6). -/
def execTrestleWake (h : TrsHead) (s : State) : Res :=
  .next (match s.trsReceive h with
    | none => s
    | some s1 => if s.trsMine h then s1.wake 3 else s1)

/-- A RSP waits for its slot, which starts 200 µs after its REQ ends or later (R418, R419). -/
def State.trsReply (s : State) (dst seq : Nat) (payload : List Byte) : State :=
  s.modTrs (fun t => { t with held := t.held ++ [⟨3, dst, seq, payload, 0, none, s.power.uptime + 200000⟩] })

/-- What a REQ's number says: the RSP to send again, that the REQ is executed, or that it is dropped (R420). -/
inductive ReqSeen where
  | again (payload : List Byte)
  | fresh
  | old
deriving DecidableEq, Repr

/-- A REQ's number against the last one of its source (R420). -/
def State.reqSeen (s : State) (h : TrsHead) : ReqSeen :=
  match s.trestle.lastReq.find? (fun p => p.1 == h.src) with
  | none => .fresh
  | some (_, q, r) =>
    let d := (h.seq + 65536 - q % 65536) % 65536
    if d = 0 then .again r else if d < 32768 then .fresh else .old

/-- A REQ executed: its number and RSP are kept for its source, and the RSP is held for a slot (R420). -/
def State.trsExecuted (s : State) (h : TrsHead) (payload : List Byte) : State :=
  (s.modTrs (fun t => { t with
    lastReq := t.lastReq.filter (fun p => p.1 != h.src) ++ [(h.src, h.seq, payload)] })).trsReply h.src h.seq payload

/-- TRS.STS's state code (Table 16-11). -/
def trsCode (x : TrsState) : Nat :=
  match x with
  | .listen => 0
  | .follow => 1
  | .coast => 2
  | .silent => 3
  | .source => 4

/-- TRS.STS (Table 16-11). -/
def State.trsSts (s : State) : Nat :=
  s.trsId % 64 + trsCode s.trestle.state * 64 + b2n s.trestle.idConflict * 512 + s.trestle.source % 256 * 65536

end Sys2Proof.Machine
end

