-- ==== Sys2Proof/Machine/Boot.lean ====
section
/-!
DEFINITION. Resets and the first second (14 R367 to R372, 15 R397, 16 R433 to R435).
-/
namespace Sys2Proof.Machine

/-- What every reset keeps: the commands that wait, what was sent, the free values drawn, board inputs, the count of the host's
configurations, the flash's bytes and the service tag (Table 14-3); everything else as State.reset. `strap` is the Trestle ID read last. -/
def State.resetTo (s : State) (cause : Nat) (island : Island) : State :=
  { State.reset with
    pending := s.pending, out := s.out, freeCtr := s.freeCtr, pins := { s.pins with vrFault := false }, tag := s.tag,
    flash := { Flash.reset with bytes := s.flash.bytes }, trestle := { Trestle.reset with strap := s.trestle.strap },
    power := { Power.reset with rstCause := cause }, island := island,
    host := { HostPort.reset with configs := s.host.configs + 1 } }

/-- COLD_RESET: all rails raised from off; everything is cleared but fuses and tag memory. After a safety trip RST_CAUSE also
shows it (Table 14-3). -/
def execColdReset (s : State) : Res :=
  .next (s.tagPowerLoss.resetTo (1 + 16 * b2n s.island.kill) Island.reset)

/-- What a warm reset keeps of the island: its fault records with their alert, and a latched PWR_KILL_N (Table 14-3, R397). -/
def State.warmIsland (s : State) : Island :=
  { Island.reset with
    records := s.island.records, recHead := s.island.recHead, copied := s.island.copied, alert := s.island.alert,
    kill := s.island.kill }

/-- A warm reset (R370, R372): its cause, and whether SYS_RST_N is high, so that the sequence of Table 14-2 begins at once. -/
def State.warmReset (s : State) (cause : Nat) (high : Bool) : State :=
  let t := s.resetTo cause s.warmIsland
  { t with power := { t.power with released := high } }

/-- SYS_RST_N_ASSERT: low for 1 ms with the rails good (Table 14-3). -/
def execSysRstNAssert (s : State) : Res := .next (if s.power.on then s.warmReset 2 false else s)

/-- RESET_RELEASE: SYS_RST_N rises; the Trestle straps are read (R367, R414). -/
def execResetRelease (trsId : Fin 64) (s : State) : Res :=
  .next (if s.power.on ∧ s.power.released = false then
      { s with power := { s.power with released := true, uptime := 0 }, trestle := { s.trestle with strap := trsId } }
    else s)

/-- ISLAND_BOOTED: the laser-disable lines that reset held are released (Table 14-2, R225). -/
def execIslandBooted (s : State) : Res :=
  .next (if s.power.released ∧ s.island.ready = false ∧ s.island.causes.contains gReboot = false then
      ((s.modIsland (fun i => { i with ready := true })).linesOff 0).modTag (fun t => { t with ready := true })
    else s)

/-- The device enters RECOVERY: PF0 alone becomes ready (R369). -/
def State.recovery (s : State) (step : Nat) : State :=
  (({ s with power := { s.power with
      state := .recovery, bootFail := true, bootStep := Config.bootStep step, bootTime := s.power.uptime / 1000000 } } : State).modFn 0
    (fun f => { f with ready := true })).modHost (fun h => { h with linkUp := true })

/-- A bit of WLD.CLU_BAD is set (R369). -/
def State.markBad (s : State) (c : Nat) : State := s.wr R.wldCluBad (s.rd R.wldCluBad 0 0 (c / 32) ||| 2 ^ (c % 32)) 0 0 (c / 32)

/-- The flash's read width: 1-4-4, 1-1-4 or 1-1-1 (R433, Table 16-11). -/
def flashWidth (f : Sfdp) : Nat := if 5 < f.quadEnable then 0 else if f.has144 then 2 else if f.has114 then 1 else 0

/-- BIST_COMPLETE: every SRAM word is 0; faulty clusters are marked; a fault elsewhere, or a flash that discovery rejects, is
RECOVERY (R369, R433). -/
def execBistComplete (b : Bist) (f : Sfdp) (s : State) : Res :=
  .next (if s.power.released = false ∨ s.power.state ≠ .boot ∨ s.power.bistDone then s
    else
      let s1 : State := { s with mem := [], ecc := [], written := [], power := { s.power with bistDone := true } }
      let s2 := s1.each (b.badClusters.map (·.val)) State.markBad
      if b.fatal then s2.recovery 0
      else if f.sigOk = false ∨ f.mib < 16 then s2.recovery 1
      else { s2 with flash := { s2.flash with width := flashWidth f, clock := min 100 (s2.fld R.btfMaxMhz 6 0) } })

/-- A firmware copy is valid (R435). -/
def copyGood (c : FwCopy) : Bool := c.headerOk && c.keyOk && c.secureOk && c.sigOk && c.digestOk

/-- POWER_REMOVAL: the rails go, VDD_ISL with them: PWR_KILL_N is released, and RST_CAUSE and the island's state are lost
(R397). -/
def execPowerRemoval (s : State) : Res :=
  let t := s.tagPowerLoss.resetTo 0 Island.reset
  .next { t with power := { t.power with on := false } }

/-- PCIE_LINK_RETURNS_TO_L0: the link is up again; FLR_COMPLETE makes each function ready 100 ms later (R370). -/
def execPcieLinkReturnsToL0 (s : State) : Res :=
  .next (if s.power.on ∧ s.power.released then s.modHost (fun h => { h with linkUp := true, configs := h.configs + 1 }) else s)

end Sys2Proof.Machine
end

