-- ==== Sys2Proof/Machine/Ports.lean ====
section
/-!
DEFINITION. Ports (08): the state machine of Table 08-2, training words (R216 to R218), adaptation and the burst guard (R221,
R222), the optical interlock (R223 to R227, 18 R471), Ethernet mode (R228, R229) and test (R231 to R234).
-/
namespace Sys2Proof.Machine

/-! ### The state machine (R212 to R215, R220) -/

/-- The current backoff interval in ms (R214). -/
def backoffMs (n : Nat) : Nat := if n = 0 then 0 else min (10 * 2 ^ (n - 1)) 2000

/-- PORT_START_TIME: an enabled port leaves QUIET for DETECT (R213). -/
def execPortStartTime (port : Fin 16) (s : State) : Res :=
  let s1 := s.modPort port (fun y => { y with started := true })
  .next (if (s.port port).state = .quiet ∧ s1.portMayRun port then s1.toDetect port else s1)

/-- PRT.CTL.enable changes: clearing it makes the port QUIET and ends a fence; setting it starts the port (R213, R262). -/
def State.portEnable (s : State) (p : Nat) (on : Bool) : State :=
  if on then (if (s.port p).state = .quiet ∧ s.portMayRun p then s.toDetect p else s)
  else
    ((s.modPort p (fun y => { y with secure := { y.secure with fences := 0 }, fecLock := false, signal := 0 })).dropLink p).portState
      p .quiet

/-- DETECT_TIMEOUT: 50 ms without an accepted partner (Table 08-2). -/
def execDetectTimeout (port : Fin 16) (s : State) : Res :=
  .next (if (s.port port).state = .detect then s.backoff port 1 else s)

/-- TRAIN_TIMEOUT: 500 ms without both ends ready (Table 08-2). -/
def execTrainTimeout (port : Fin 16) (s : State) : Res :=
  .next (if (s.port port).state = .train then s.backoff port 2 else s)

/-- ALIGN_LOCK: lanes deskewed, blocks and FEC locked, the first block being block 0 (Table 08-2, R208); in RETRAIN the step is
repeated. -/
def execAlignLock (port : Fin 16) (s : State) : Res :=
  let s1 := s.modPort port (fun y => { y with fecLock := true, blocks := 0 })
  .next (match (s.port port).state with
    | .align => s1.portState port .measure
    | .retrain => s1
    | _ => s)

/-- ALIGN_TIMEOUT: 10 ms without lock (Table 08-2). -/
def execAlignTimeout (port : Fin 16) (s : State) : Res :=
  .next (if (s.port port).state = .align then s.backoff port 3 else s)

/-- MEASURE_DONE: the link delay is measured and the identity exchange begins (Table 08-2, R39). -/
def execMeasureDone (port : Fin 16) (delayPs : Nat) (s : State) : Res :=
  let s1 := s.modPort port (fun y => { y with delay := delayPs % 2 ^ 32 })
  .next (match (s.port port).state with
    | .measure => (s1.portState port .secure).startExchange port
    | .retrain => if (s.port port).fecLock then s1.startExchange port else s
    | _ => s)

/-- BACKOFF_EXPIRY: DETECT again, but for a port of a dimension of size 1 (R213, R214). -/
def execBackoffExpiry (port : Fin 16) (s : State) : Res :=
  .next (if (s.port port).state = .backoff then s.retry port else s)

/-- LOSS_OF_LOCK: the port retrains with its stored coefficients (R220). -/
def execLossOfLock (port : Fin 16) (s : State) : Res :=
  .next (if (s.port port).state = .up ∧ (s.port port).ethernet = false then
      ((s.cnt R.prtDownCnt port).modPort port (fun y => { y with
        fecLock := false, lanes := y.lanes.map (fun l => (l.1, l.2.reload)) })).portState port .retrain
    else s)

/-- RETRAIN_TIMEOUT: 20 ms without UP (Table 08-2). -/
def execRetrainTimeout (port : Fin 16) (s : State) : Res :=
  .next (if (s.port port).state = .retrain then (s.dropLink port).retry port else s)

/-- The exchange has completed: UP; the backoff and the fences count from 0 again, and the coefficients are stored (R214, R262, Table
08-2). -/
def State.linkUp (s : State) (p : Nat) : State :=
  (s.modPort p (fun y => { y with
    backoffN := 0, lanes := y.lanes.map (fun l => (l.1, l.2.store)), secure := { y.secure with fences := 0 } })).portState p .up

/-! ### Training (R216 to R218) -/

/-- The control word's CRC is right (Table 08-3). -/
def cwGood (cw : BitVec 64) : Bool := (crc16 (leBytes 6 cw.toNat)).toNat == cw.toNat / 2 ^ 48

/-- The tap magnitudes beside c0 sum to at most 1, so that c0 keeps the sum at 1 (R217). -/
def tapsOk (l : List Int) : Bool := decide (natSum (l.map Int.natAbs) ≤ 64)

/-- The responder's answer to a request on a lane: its taps and status (R217). Taps are c−2, c−1, c+1, c+2 in 1/64. -/
def Lane.respond (l : Lane) (request tap : Nat) : Lane :=
  if l.status ≠ 0 then (if request = 0 then { l with status := 0 } else l)
  else if request = 0 then l
  else if request = 3 then { l with taps := [0, 0, 0, 0], status := 1 }
  else if 4 < tap then { l with status := 3 }
  else if tap = 2 then { l with status := 2 }
  else
    let i := if tap < 2 then tap else tap - 1
    let t := l.taps.set i (l.taps.getD i 0 + if request = 1 then 1 else -1)
    if tapsOk t then { l with taps := t, status := 1 } else { l with status := 2 }

/-- The requester's next request: one that waits is held until the partner's status leaves 0, then hold; a new one, `want`, goes once
the partner is back at 0 (R217; log 55). -/
def Lane.ask (l : Lane) (status want : Nat) : Lane :=
  if l.request ≠ 0 then (if status = 0 then l else { l with request := 0, tap := 0 })
  else if status = 0 then { l with request := want % 4, tap := want / 4 % 5 }
  else l

/-- Every lane satisfies `f`. -/
def Port.allLanes (x : Port) (f : Lane → Bool) : Bool := (List.range 12).all (fun l => f (x.lane l))

/-- With all lanes seen, and the engine in FULL, TRAIN begins (Table 08-2, R224). -/
def State.detected (s : State) (p : Nat) : State :=
  if (s.port p).allLanes (fun l => l.seen) ∧ s.lit p then s.portState p .train else s

/-- The partner is not the neighbour that the installed routing table names (R218). -/
def State.wiredWrong (s : State) (p dev : Nat) : Bool :=
  s.image.loaded && dev != 0x7FF && (match (s.port p).expected with
    | some n => dev != n
    | none => false)

/-- A partner frame in DETECT: the partner is checked, and its lane answered with the next training frame (R216, R218). -/
def State.detectFrame (s : State) (p lane : Nat) (cw : BitVec 64) : State :=
  let dev := bits cw.toNat 18 8
  let s1 := (s.modPort p (fun y => { y with partner := some (dev, bits cw.toNat 7 4), signal := y.signal ||| 2 ^ lane })).modLane p
    lane (fun l => { l with seen := true })
  if s.wiredWrong p dev then (s1.cnt R.prtWireErr p).backoff p 4 else (s1.sendTraining p lane).detected p

/-- A lane in TRAIN after a frame of the partner's: its request is answered, this end's own request moves on, and the frames with
rx_ready count (R217). What this end's receiver asks for, and whether it is trained, are free values (log 55). -/
def Lane.train (l : Lane) (cw : BitVec 64) (want : Nat) (trained : Bool) : Lane :=
  let l1 := (l.respond (bits cw.toNat 21 19) (bits cw.toNat 24 22)).ask (bits cw.toNat 27 25) want
  { l1 with
    ready := if bit cw.toNat 28 then l.ready + 1 else 0, trained := trained, ours := if trained then l.ours + 1 else 0 }

/-- A partner frame in TRAIN is answered; with 16 consecutive frames of rx_ready on every lane from both ends ALIGN begins (Table
08-2, R217). -/
def State.trainFrame (s : State) (p lane : Nat) (cw : BitVec 64) : State :=
  let s1 := ((s.modLane p lane (fun l => l.train cw (Config.ffeWant s.freeCtr) (Config.rxTrained s.freeCtr))).sendTraining p lane).draw
  if (s1.port p).allLanes (fun l => decide (16 ≤ l.ready) && decide (16 ≤ l.ours)) then s1.portState p .align else s1

/-- The remote loopback of a port in test sends each lane's symbols back (R233). -/
def State.remoteLoop (s : State) (p : Nat) : Bool := s.flag R.prtCtl 2 p && s.fld R.prtCtl 5 4 p == 3

/-- TRAINING_FRAME: counted in QUIET; a word whose CRC fails is ignored (Table 08-2, Table 08-3). -/
def execTrainingFrame (port : Fin 16) (lane : Fin 12) (cw : BitVec 64) (s : State) : Res :=
  .next (if !s.hears port then s
    else
      let s1 := s.when (s.remoteLoop port) (fun t => t.send (.training port lane cw))
      match (s.port port).state with
      | .quiet => s1.cnt R.prtEarlyCnt port
      | .detect => if cwGood cw then s1.detectFrame port lane cw else s1
      | .train => if cwGood cw then s1.trainFrame port lane cw else s1
      | _ => s1)

/-! ### Errors, adaptation and the burst guard (R211, R221, R222) -/

/-- UNC_WINDOW: a 1 s window ends (R211). -/
def execUncWindow (port : Fin 16) (s : State) : Res :=
  let s1 := if s.fld R.prtUncThr 15 0 port < (s.port port).uncWindow then
    (s.modPort port (fun y => { y with uncAlarm := true })).event .prt port 1 else s
  .next (s1.modPort port (fun y => { y with uncWindow := 0 }))

/-- A value moved towards another by at most 1 (Table 08-4). -/
def stepTo (old new : Int) : Int := max (old - 1) (min (old + 1) new)

/-- Each of three values moved towards another by at most 1. -/
def stepAll (old : List Int) (a b c : Int) : List Int :=
  [stepTo (old.getD 0 0) a, stepTo (old.getD 1 0) b, stepTo (old.getD 2 0) c]

/-- ADAPTATION_UPDATE: a loop sets a lane, within the limits of Table 08-4; frozen loops do not move, and in doze none does (R221, R222,
Table 14-5). -/
def execAdaptationUpdate (port : Fin 16) (lane : Fin 12) (a : Adapt) (s : State) : Res :=
  let x := s.port port
  .next (if (x.state ≠ .train ∧ x.state ≠ .up) ∨ x.frozen ∨ (x.state = .up ∧ s.dozing) then s
    else s.modLane port lane (fun l => match a with
      | .ctle code => { l with ctle := min 15 (stepTo l.ctle code).toNat }
      | .dfe p q r => { l with dfe := stepAll l.dfe p q r }
      | .slicer p q r => { l with slicer := stepAll l.slicer p q r }))

/-- A window of `e` errors is a step: e ≥ 16 × m + 8, m the mean over the lane's history (R222). -/
def isStep (l : Lane) (e : Nat) : Bool :=
  let n := l.history.length
  if n = 0 then decide (8 ≤ e) else decide (16 * natSum l.history + 8 * n ≤ e * n)

/-- A lane's values as held 10 µs before the window began, or the oldest known (R222). -/
def Lane.restore (l : Lane) : Lane :=
  match l.held[10]? <|> l.held.getLast? with
  | some (c, d, v) => { l with ctle := c, dfe := d, slicer := v }
  | none => l

/-- A window ends: the lane's values join those held (R222). -/
def Lane.hold (l : Lane) : Lane := { l with held := ((l.ctle, l.dfe, l.slicer) :: l.held).take 11 }

/-- BURST_GUARD_WINDOW: the errors of each lane in a window of 1 µs; a step restores the loops and freezes them (R222). After
the 16 ms limit the loops adapt until a freeze would have ended. -/
def execBurstGuardWindow (port : Fin 16) (errors : List Nat) (s : State) : Res :=
  let x := s.port port
  let step := (List.range 12).any (fun l => isStep (x.lane l) (errors.getD l 0))
  let s1 := if x.frozen then s.modPort port (fun y => { y with frozenFor := y.frozenFor + 1 })
    else s.each (List.range 12) (fun t l => t.modLane port l (fun k => { k with history := (errors.getD l 0 :: k.history).take 1000 }))
  let limited := !x.frozen && x.frozenFor != 0
  let ended (t : State) : State := t.each (List.range 12) (fun u l => u.modLane port l Lane.hold)
  .next (if x.state ≠ .up then s
    else if step = true ∧ limited = false then
      let s2 := ended (s1.each (List.range 12) (fun t l => t.modLane port l Lane.restore))
      if x.frozen then s2
      else (s2.modPort port (fun y => { y with frozen := true, frozenFor := 0 })).cnt R.prtFreezeCnt port
    else ended s1)

/-- LOOP_FREEZE_END: 1 ms after the last step window (R222). -/
def execLoopFreezeEnd (port : Fin 16) (s : State) : Res :=
  .next (s.modPort port (fun y => { y with frozen := false, frozenFor := 0 }))

/-- FREEZE_LIMIT: a freeze has lasted 16 ms; the loops resume although steps continue (R222). -/
def execFreezeLimit (port : Fin 16) (s : State) : Res :=
  .next (if (s.port port).frozen then s.modPort port (fun y => { y with frozen := false, frozenFor := 16000 }) else s)

/-! ### The optical interlock (Table 08-6) -/

/-- An engine in `a` goes to `b`. -/
def State.optMove (s : State) (p : Nat) (a b : OptState) : State :=
  if s.optical p ∧ (s.port p).opt = a then s.modPort p (fun y => { y with opt := b }) else s

/-- OFF_TIMEOUT: 10 ms in OFF; nothing may hold the engine (Table 08-6, R226, R471). -/
def execOffTimeout (port : Fin 16) (s : State) : Res :=
  .next (if s.islandLine port ∨ s.pins.optInhibit ∨ (s.port port).optHot ∨ s.flag R.prtCtl 1 port then s
    else s.optMove port .off .beacon)

/-- LIGHT_ANY_LOSS: a lane below LIGHT_ANY (Table 08-6). -/
def execLightAnyLoss (port : Fin 16) (s : State) : Res := .next (s.optOff port)

/-- BEACON_QUALIFIED: every lane at LIGHT_ANY for 100 ms (Table 08-6). -/
def execBeaconQualified (port : Fin 16) (s : State) : Res := .next (s.optMove port .beacon .raise)

/-- LIGHT_FULL_REACHED (Table 08-6): a port in DETECT can send its training frames now (R216, R224). -/
def execLightFullReached (port : Fin 16) (s : State) : Res :=
  let s1 := s.optMove port .raise .full
  .next (if (s.port port).state = .detect ∧ (s.port port).opt = .raise then s1.each (List.range 12) (fun t l => t.sendTraining port l)
    else s1)

/-- RAISE_TIMEOUT: 200 ms in RAISE (Table 08-6). -/
def execRaiseTimeout (port : Fin 16) (s : State) : Res := .next (s.optMove port .raise .beacon)

/-- LIGHT_FULL_LOSS: a lane below LIGHT_FULL (Table 08-6). -/
def execLightFullLoss (port : Fin 16) (s : State) : Res := .next (s.optMove port .full .beacon)

/-- ISLAND_LIGHT_CHECK: full drive with a lane below LIGHT_FULL for 60 µs: the island drives the port's line (R225). -/
def execIslandLightCheck (port : Fin 16) (s : State) : Res :=
  .next (if s.optical port ∧ ((s.port port).opt = .full ∨ (s.port port).opt = .raise) then
      (s.record 0x6B actLine 0 port).lineOn port 1 else s)

/-- LASER_DISABLE_RELEASE: the line has been held for 1 s (R225, R405). -/
def execLaserDisableRelease (port : Fin 16) (s : State) : Res :=
  .next (((s.lineOff port 1).lineOff port 3).modIsland (fun i => { i with
    tripped := dropAll (dropAll i.tripped (tripKey 0x6B port)) (tripKey 0x6A port) }))

/-- OPT_INHIBIT_N: while low every engine is OFF (R225). -/
def execOptInhibitN (low : Bool) (s : State) : Res :=
  let s1 : State := { s with pins := { s.pins with optInhibit := low } }
  .next (if low then (s1.record 0x6C actLine 0 0).each optPorts State.optOff else s1.cleared 0x6C)

/-- ENGINE_CASE_OVERHEAT: a case above 85 °C (R471). -/
def execEngineCaseOverheat (port : Fin 16) (s : State) : Res :=
  .next (if s.optical port then (s.modPort port (fun y => { y with optHot := true })).optOff port else s)

/-- ENGINE_CASE_COOLED: the case is below 80 °C; the engine leaves OFF by Table 08-6 (R471). -/
def execEngineCaseCooled (port : Fin 16) (s : State) : Res := .next (s.modPort port (fun y => { y with optHot := false }))

/-! ### Ethernet mode (R228, R229) -/

/-- The port's own MAC address (Table 12-7). -/
def State.ownMac (s : State) (p : Nat) : Nat := s.inForce R.ingMacLo 0 0 (p - 14) + s.inForce R.ingMacHi 0 0 (p - 14) % 65536 * 2 ^ 32

/-- The port's own IPv6 address. -/
def State.ownIp6 (s : State) (p : Nat) : Nat := s.ipWords R.ingIp6 (p - 14)

/-- A destination address that the port takes: its own, broadcast, the solicited-node address of its own IPv6 address, or one of its
at most 8 multicast addresses (Table 08-7; log 57). -/
def State.macTaken (s : State) (p mac : Nat) : Bool :=
  mac == s.ownMac p || mac == 2 ^ 48 - 1 || mac == 0x3333FF000000 + s.ownIp6 p % 2 ^ 24 ||
    (bit mac 40 && (List.range 8).any (fun i => Config.multicastMac p i == some mac))

/-- A frame that Table 08-7 does not support, or whose FCS, length or address is wrong (R228). -/
def State.ethBad (s : State) (p : Nat) (f : EthFrame) : Bool :=
  !f.fcsOk || decide (f.len < 64) || decide (min 9216 (s.fld R.prtEthCtl 29 16 p) < f.len) || decide (1 < f.vlans.length) ||
    (s.flag R.prtEthCtl 1 p && f.vlans != [s.fld R.prtEthCtl 13 2 p]) ||
    !s.macTaken p f.dstMac ||
    (match f.body with
      | .pause | .fragment | .tcp | .rdma | .icmp | .ipOptions | .other => true
      | .arpRequest _ | .neighbourSolicit _ | .udp _ _ _ _ => false)

/-- A UDP datagram is a tile's (R323). -/
def State.tilePort (s : State) (p dstIp dstPort srcIp : Nat) (v6 : Bool) : Bool :=
  bit (s.inForce R.spnRole) 2 && (dstIp == (if v6 then s.ownIp6 p else s.inForce R.ingIp4 0 0 (p - 14))) &&
    dstPort == s.fld R.ingUdpPort 15 0 && (s.rd R.ingSrcIp4 == 0 || (!v6 && srcIp == s.rd R.ingSrcIp4))

/-- ETHERNET_FRAME: what Table 08-7 does not support is dropped and counted; requests for the port's own address are answered;
a datagram that is neither a tile nor an IEEE 1588 message is dropped; every dropped frame counts (R228, R229, R323). -/
def execEthernetFrame (port : Fin 16) (f : EthFrame) (s : State) : Res :=
  let p := port.val
  .next (if (s.port p).ethernet = false ∨ (s.port p).ethUp = false then s
    else if s.ethBad p f then s.cnt R.prtEthDrop p
    else match f.body with
      | .arpRequest a => if a = s.inForce R.ingIp4 0 0 (p - 14) then s.send (.neighbourReply p f.srcMac a) else s.cnt R.prtEthDrop p
      | .neighbourSolicit a => if a = s.ownIp6 p then s.send (.neighbourReply p f.srcMac a) else s.cnt R.prtEthDrop p
      | .udp d dp si v6 => if dp = 319 ∨ dp = 320 ∨ s.tilePort p d dp si v6 then s else (s.cnt R.ingDrop).cnt R.prtEthDrop p
      | _ => s)

/-- The Ethernet link's state as PRT.STS shows it, and its page event. -/
def State.ethLink (s : State) (p : Nat) (up : Bool) : State :=
  if (s.port p).ethernet = false ∨ (s.port p).ethUp = up then s
  else (s.modPort p (fun y => { y with ethUp := up, state := if up then .up else .quiet })).event .prt p 2

/-- ETHERNET_LINK_UP (R228). -/
def execEthernetLinkUp (port : Fin 16) (s : State) : Res := .next (s.ethLink port true)

/-- ETHERNET_LINK_DOWN: later datagrams for the port are dropped and counted (R329). -/
def execEthernetLinkDown (port : Fin 16) (s : State) : Res := .next (s.ethLink port false)

/-! ### Test (R231, R232) -/

/-- PRT.CTL.test may not be set: a schedule runs or is held and the port is UP (R231). -/
def State.testRefused (s : State) (p : Nat) : Bool :=
  (s.tick.state == .run || s.tick.state == .hold) && (s.port p).state == .up

/-- PRBS_CHECKER_LOCK: 1,024 error-free bits (R232). -/
def execPrbsCheckerLock (port : Fin 16) (lane : Fin 12) (s : State) : Res :=
  .next (if s.checkerOn port lane then s.modLane port lane (fun l => { l with prbsLock := true }) else s)

/-- PRBS_CHECKER_LOCK_LOSS: 64 errors within 1,024 bits, counted while locked (R232; log 56). -/
def execPrbsCheckerLockLoss (port : Fin 16) (lane : Fin 12) (s : State) : Res :=
  .next (if s.prbsLocked port lane then
      (s.cnt R.prtPrbsErr port 64 lane).modLane port lane (fun l => { l with prbsLock := false })
    else s)

/-- PRT.PRBS_CTL.restart: the bits checked are cleared, and the checkers lock anew (Table 08-11). -/
def State.prbsRestart (s : State) (p : Nat) : State :=
  s.each (List.range 12) (fun t l =>
    ((t.wr R.prtPrbsBitsLo 0 p l).wr R.prtPrbsBitsHi 0 p l).modLane p l (fun k => { k with prbsLock := false }))

/-- PRT.STS's state code (Table 08-2). -/
def portCode (x : PortState) : Nat :=
  match x with
  | .quiet => 0
  | .detect => 1
  | .backoff => 2
  | .train => 3
  | .align => 4
  | .measure => 5
  | .secure => 6
  | .up => 7
  | .retrain => 8
  | .fenced => 9

/-- PRT.STS (Table 08-11). -/
def State.prtSts (s : State) (p : Nat) : Nat :=
  let x := s.port p
  portCode x.state + x.signal % 4096 * 16 + b2n x.fecLock * 2 ^ 16 + b2n x.uncAlarm * 2 ^ 17 + x.failReason % 16 * 2 ^ 20

/-- PRT.PARTNER. -/
def Port.partnerReg (x : Port) : Nat :=
  match x.partner with
  | some (d, p) => d % 2048 + p % 16 * 2 ^ 11 + 2 ^ 15
  | none => 0

/-- An interlock state's code (Table 08-11). -/
def optCode (x : OptState) : Nat :=
  match x with
  | .off => 0
  | .beacon => 1
  | .raise => 2
  | .full => 3

/-- PRT.OPT_STS (R227). -/
def State.optSts (s : State) (p : Nat) : Nat :=
  if s.optical p then 1 + optCode (s.port p).opt * 2 + b2n (s.islandLine p) * 8 + b2n s.pins.optInhibit * 16 else 0

/-- A signed byte. -/
def s8 (x : Int) : Nat := wrap 8 x

/-- PRT.LANE_EQ of a lane. -/
def Lane.eqReg (l : Lane) : Nat :=
  l.ctle % 16 + s8 (l.dfe.getD 0 0) * 2 ^ 8 + s8 (l.dfe.getD 1 0) * 2 ^ 16 + s8 (l.dfe.getD 2 0) * 2 ^ 24

/-- PRT.PRBS_STS. -/
def State.prbsSts (s : State) (p : Nat) : Nat := natSum ((List.range 12).map (fun l => b2n (s.prbsLocked p l) * 2 ^ l))

/-! ### The firmware starts (Table 14-2) -/

/-- FIRMWARE_LOADED: the valid copy of the higher version boots, copy A on a tie; with none the device is in RECOVERY. The
service cores then run, every page is served, and the functions become ready (Table 14-2, R435); a port whose start time has come
starts (R213). -/
def execFirmwareLoaded (a b : FwCopy) (s : State) : Res :=
  .next (if s.power.state ≠ .boot ∨ s.power.bistDone = false then s
    else
      let f := { s.flash with aValid := copyGood a, bValid := copyGood b }
      let s1 : State := { s with flash := f }
      if f.aValid = false ∧ f.bValid = false then s1.recovery 1
      else
        let useB := f.bValid && (!f.aValid || decide (a.version < b.version))
        let s2 : State := { s1 with
          flash := { f with booted := b2n useB, version := if useB then b.version else a.version },
          power := { s1.power with state := .active, bootTime := s1.power.uptime / 1000000 },
          host := { s1.host with linkUp := true, fns := (List.range 256).map (fun n => (n, { s1.fn n with ready := true })) } }
        ((s2.modIsland (fun i => { i with firmware := true })).modTag (fun t => { t with
          boots := t.boots + 1, fresh := true })).each (List.range 16) (fun t p =>
            if (t.port p).state = .quiet ∧ t.portMayRun p then t.toDetect p else t))

end Sys2Proof.Machine
end

