-- ==== Sys2Proof/Machine/Admission.lean ====
section
/-!
DEFINITION. The admission of a section: the checks of Table 06-8 in order, and what the load engine installs once they pass
(06 R178, R179; 07 R196; 10 R285).
-/
namespace Sys2Proof.Machine

/-- The index of the first item that fails. -/
def firstBad {α : Type} (l : List α) (bad : α → Bool) : Option Nat := l.findIdx? bad

/-- The first failure of several. -/
def firstOf (l : List (Option Nat)) : Option Nat := (l.filterMap id).head?

/-! ### 0x01: layout (R176, R177) -/

/-- An element's count is the one Table 06-14 gives. -/
def countOk (b : List Byte) (d : DirEntry) : Bool :=
  match d.type with
  | 0x01 | 0x04 | 0x0C => d.count == 1
  | 0x02 | 0x0D => d.count == ihDevices b
  | 0x03 => d.count == ihShadows b
  | 0x05 => decide (1 ≤ d.count) && decide (d.count ≤ 16)
  | 0x06 => d.count == 524288
  | 0x07 => d.count == 4608
  | 0x08 => d.count == 512
  | 0x0B => d.count == 9
  | _ => true

/-- A directory entry by itself (R176, R177). -/
def dirOk (b : List Byte) (d : DirEntry) : Bool :=
  d.reserved == 0 && decide (1 ≤ d.type) && decide (d.type ≤ 0x12) && d.off % 8 == 0 && decide (d.off + d.len ≤ b.length) &&
    countOk b d && (if itemSize d.type = 0 then (records (recordSize d.type) d.count (elem b d.type)).isSome
      else d.len == d.count * itemSize d.type)

/-- Types rise along the directory, and no two elements overlap. -/
def dirPairs (l : List DirEntry) : Bool :=
  match l with
  | [] => true
  | d :: r => r.all (fun x => decide (d.type < x.type) && !meet d.off d.len x.off x.len) && dirPairs r

/-- Bytes that no range covers are 0: ranges in order of offset, from position `pos`. -/
def gapsZero (l : List (Nat × Nat)) (pos : Nat) (b : List Byte) : Bool :=
  match l with
  | [] => allZero b
  | (a, n) :: r => allZero (b.take (a - pos)) && gapsZero r (max pos (a + n)) (b.drop (max pos (a + n) - pos))

/-- The section header (Table 06-12). -/
def secHeaderOk (b : List Byte) : Bool :=
  decide (64 ≤ b.length) && leAt b 0 4 == 0x5345434B && leAt b 4 2 == 1 && decide (1 ≤ leAt b 8 4) && decide (leAt b 8 4 ≤ 32) &&
    zeroIn b 0xC 4 && zeroIn b 0x18 40 && leAt b 0x10 8 % 8 == 0 && decide (leAt b 0x10 8 + 24 * leAt b 8 4 ≤ b.length)

/-- The image header copy (Table 06-6). -/
def imgHeaderOk (b : List Byte) : Bool :=
  let h := elem b 1
  leAt h 0 4 == 0x49534B41 && leAt h 4 2 == 1 && decide (leAt h 6 2 < 2) && zeroIn h 0x4C 52 &&
    decide (1 ≤ ihTenants b) && decide (ihTenants b ≤ 256)

/-- The elements that Table 06-14 requires by role set and header alone. -/
def required (b : List Byte) : List Nat :=
  [1, 2, 4, 0xB, 0xD] ++ (if ihShadows b = 0 then [] else [3]) ++
    (if bit (dcRole b) 0 || bit (dcRole b) 1 then [6, 7] else []) ++ (if bit (dcRole b) 0 then [8] else []) ++
    (if bit (dcRole b) 1 then [0x11] else []) ++ (if (secCtxs b).isEmpty then [] else [9])

/-- An extent's reserved bits and places (Table 06-20). -/
def extentOk (e : List Byte) : Bool := decide (leAt e 0 2 < 512) && decide (leAt e 2 2 < 1024)

/-- An extent of a section names a handle of a type and kind, within its length. -/
def extentNames (hs : List (Nat × HEntry)) (x : Extent) (ok : HEntry → Bool) : Bool :=
  match hs.find? (fun h => h.1 == 1024 * x.cluster + x.handle) with
  | some h => ok h.2 && decide (x.offset + x.len ≤ hLen h.2)
  | none => false

/-- An item of an element by itself (Tables 06-7, 06-15 to 06-24, 10-3). -/
def itemOk (b : List Byte) (hs : List (Nat × HEntry)) (t i : Nat) (l : List Byte) : Bool :=
  match t with
  | 0x02 => zeroIn l 2 6
  | 0x03 => decide (1 ≤ leAt l 0 1) && decide (leAt l 0 1 ≤ 3) && zeroIn l 1 3
  | 0x04 => decide (leAt l 0 4 < 32) && decide (leAt l 4 1 < 4) && zeroIn l 5 3 && decide (leAt l 0x48 4 < 2 ^ 17) &&
      leAt l 0x4C 4 &&& 0xF800F800 == 0 && (chunks 2 16 (l.drop 0x50)).all (fun e => decide (leNat e < 2048))
  | 0x05 => leAt l 0 4 &&& 0x7FFF0000 == 0
  | 0x07 => decide (leAt l 1 1 < 2) && zeroIn l 6 2 && zeroIn l 0x14 12 &&
      (leAt l 1 1 == 0 || (decide (1 ≤ leAt l 5 1) && decide (leAt l 5 1 ≤ 16) && leAt l 8 4 % 64 == 0 && leAt l 0xC 4 % 64 == 0)) &&
      (i % 9 != 8 || (leAt l 0 1 == 0 && leAt l 2 2 == 0 && leAt l 4 1 == 0))
  | 0x09 =>
    let r := regionOf l
    decide (r.1 < 4) && zeroIn l 1 3 && zeroIn l 0xC 4 && r.2.1 % 64 == 0 && r.2.2.1 % 64 == 0 &&
      (secCtxs b).any (fun c => c.1 / 9 / 128 == r.1 && c.2.base == r.2.1 && c.2.len == r.2.2.1)
  | 0x0A =>
    let x := (slotRecord l).2.2
    decide (leAt l 0 1 ≤ ihShadows b) && zeroIn l 1 1 && zeroIn l 4 4 && leAt l 8 4 &&& 0xF80000 == 0 && zeroIn l 15 1 &&
      zeroIn l 23 1 && (x.dir == 0 || (x.len % 64 == 0 && decide (64 ≤ x.len) && decide (x.len ≤ 4194304))) &&
      (x.dir != 3 || x.cluster == 0)
  | 0x0B => (chunks 2 2048 l).all (fun e => leNat e &&& 0x7800 == 0) && (chunks 1 2048 (l.drop 0x1000)).all (fun e =>
      leNat e &&& 0x60 == 0) && decide (leAt l 0x1842 2 ≤ 64) && zeroIn l 0x1844 12 &&
      (chunks 4 64 (l.drop 0x1850)).all (fun e => leNat e &&& 0xFFF0F800 == 0)
  | 0x0C =>
    let n := leAt l 0x28 4
    zeroIn l 0x2C 4 && (chunks 16 n (l.drop 0x30)).all extentOk && natSum ((secShare b).map (·.len)) == leAt l 0 8 &&
      (secShare b).all (fun x => extentNames hs x (fun e => (hType e == 1 || hType e == 3) && hKind e == 2))
  | 0x0D => i == 0 || decide (leAt ((items b 0x0D).getD (i - 1) []) 0 2 < leAt l 0 2)
  | 0x0E => extentOk l && extentNames hs (extentOf l) (fun e => hType e == 1 && hKind e == 1)
  | 0x0F => decide (leAt l 1 1 < 16) && zeroIn l 3 1 && zeroIn l 6 2 && (chunks 16 (leAt l 4 2) (l.drop 8)).all (fun e =>
      decide (leAt e 2 2 < 512) && decide (leAt e 4 2 < 1024) && zeroIn e 6 2 && leAt e 8 4 % 64 == 0 && zeroIn e 12 4)
  | 0x10 => decide (leAt l 3 1 < 32) && zeroIn l 0x1A 6 &&
      (chunks 8 16 (l.drop 0x20)).all (fun e => decide (leAt e 2 2 < 1024) && zeroIn e 5 3) &&
      (chunks 4 16 (l.drop 0xA0)).all (fun e => decide (leAt e 2 2 < 1024)) &&
      zeroIn l (0x20 + 8 * leAt l 0x18 1) (128 - 8 * leAt l 0x18 1) && zeroIn l (0xA0 + 4 * leAt l 0x19 1) (64 - 4 * leAt l 0x19 1)
  | 0x11 =>
    let n := leAt l 4 4
    decide (leAt l 0 1 < 64) && (if leAt l 1 1 = 1 then leAt l 2 1 == 1
      else leAt l 1 1 == 2 && decide (2 ≤ leAt l 2 1) && decide (leAt l 2 1 ≤ 16)) && zeroIn l 3 1 && zeroIn l 0xC 4 &&
      (chunks 2 16 (l.drop 0x10)).zipIdx.all (fun e => if e.2 < leAt l 2 1 then decide (leNat e.1 < 2048) else leNat e.1 == 0x7FF) &&
      (chunks 16 n (l.drop 0x30)).all extentOk &&
      (chunks 24 (leAt l 8 4) (l.drop (0x30 + 16 * n))).all (fun e => zeroIn e 1 7 && extentOk (e.drop 8))
  | 0x12 => zeroIn l 3 1 && zeroIn l 6 2
  | _ => true

/-- Check 0x01; the item is the place in the directory, 0 of the section itself (log 23). Two slot records that name one slot of
one placement are a breach of R177's tables in this model (log 47). -/
def check01 (b : List Byte) : Option Nat :=
  let dir := dirOf b
  if !secHeaderOk b || !dirPairs dir then some 0
  else match firstBad dir (fun d => !dirOk b d) with
    | some i => some i
    | none =>
      let hs := secHandles b
      let slots := (secSlots b).map (fun x => (x.1, x.2.1))
      if !imgHeaderOk b || !(required b).all (fun t => (dirEntry b t).isSome) || (tableEntry b (secSelf b)).isNone ||
          !gapsZero (sortBy (fun x y => decide (x.1 ≤ y.1)) ((0, 64) :: (leAt b 0x10 8, 24 * dir.length) ::
            dir.map (fun d => (d.off, d.len)))) 0 b then some 0
      else if decide (slots.dedup.length < slots.length) then firstBad dir (fun d => d.type == 0x0A)
      else firstBad dir (fun d => !((if itemSize d.type = 0 then varItems b d.type else items b d.type).zipIdx.all (fun p =>
          itemOk b hs d.type p.2 p.1)))

/-! ### 0x02 to 0x05 -/

/-- The image digest (R334). -/
def imageDigest (b : List Byte) : List Byte :=
  let h := elem b 1
  sha256 (h.take 0x20 ++ zeros 32 ++ h.drop 0x40 ++ (sortBy (fun x y => decide (leAt x 0 2 ≤ leAt y 0 2)) (items b 2)).flatten)

/-- Check 0x02: the section's length and digest, and the image digest (R334). -/
def check02 (b : List Byte) : Option Nat :=
  let e := (tableEntry b (secSelf b)).getD []
  if leAt e 0x10 8 ≠ b.length ∨ Config.sectionDigest b ≠ (e.drop 0x18).take 32 ∨ imageDigest b ≠ ihDigest b then some 0 else none

/-- Check 0x03: the dimensions installed (R10). -/
def State.check03 (s : State) (b : List Byte) : Option Nat :=
  if (s.dim 0, s.dim 1, s.dim 2) ≠ ihDims b ∨ ihSections b ≠ ihDevices b then some 0 else none

/-- A tick length and a repair length are within R30 and R31, and leave a body. -/
def lengthsOk (len rep : Nat) : Bool :=
  decide (20000 ≤ len) && decide (len ≤ 10000000) && decide (len ≤ 50 * rep) && decide (rep + 2000 ≤ len)

/-- Check 0x04; the item is 0 for the header, else one above the shadow. -/
def State.check04 (s : State) (b : List Byte) : Option Nat :=
  if !lengthsOk (ihLen b) (ihRepair b) || decide (4194304 < ihEgress b) || decide (ihSched b < 900) || decide (1850 < ihSched b) ||
      decide (1850 < floorFor (ihSched b) (s.fld R.pwrDroop 7 0)) then some 0
  else (firstBad (items b 3) (fun l => !lengthsOk (leAt l 4 4) (leAt l 8 4) || decide (5 * ihLen b < 4 * leAt l 4 4) ||
      (leAt l 0 1 == 1 && leAt l 4 4 != ihLen b) || decide (leAt l 4 4 < leAt l 8 4 + 2000 + leAt l 0xC 4))).map (· + 1)

/-- A role set is valid (R16): `eth` says that P14 or P15 is in Ethernet mode. -/
def roleOk (r : Nat) (eth : Bool) : Bool :=
  r == 0 || r == 2 || r == 16 || (decide (r < 16) && bit r 0 && !bit r 1 && (!bit r 2 || eth))

/-- Check 0x05. -/
def check05 (b : List Byte) : Option Nat :=
  if !roleOk (dcRole b) (dcEth b != 0) || decide (8 < ihShadows b) then some 0 else none

/-! ### 0x06 and 0x07: handles and code regions -/

/-- The code regions that a quarter's range meets. -/
def meetsCode (b : List Byte) (q o n : Nat) : Bool := (secRegions b).any (fun r => r.1 == q && meet o n r.2.1 r.2.2.1)

/-- A handle entry of a section is one the device accepts (R190, R192, R193), owned by an enabled tenant. -/
def handleOk (b : List Byte) (hs : List (Nat × HEntry)) (x : Nat × HEntry) : Bool :=
  let c := x.1 / 1024
  let e := x.2
  hReason e (c % 4) == 0 && (hType e == 0 || dcTenant b (hOwner e)) &&
    (match hType e with
      | 1 => !hs.any (fun y => y.1 / 1024 == c && hType y.2 == 1 && hOwner y.2 != hOwner e && hMeet e y.2)
      | 3 => !meetsCode b (c / 128) (hQoff e) (hLen e) && !hs.any (fun y => y.1 / 131072 == c / 128 && hType y.2 == 3 &&
          hOwner y.2 != hOwner e && meet (hQoff e) (hLen e) (hQoff y.2) (hLen y.2))
      | _ => true)

/-- Check 0x06; the item is 1,024 c + i. -/
def check06 (b : List Byte) : Option Nat :=
  let hs := secHandles b
  (hs.find? (fun x => !handleOk b hs x)).map (·.1)

/-- Check 0x07; the item is the region's record. -/
def check07 (b : List Byte) : Option Nat :=
  let rs := (secRegions b).zipIdx
  let hs := secHandles b
  (rs.find? (fun r => decide (67108864 < r.1.2.1 + r.1.2.2.1) ||
    rs.any (fun x => x.2 != r.2 && x.1.1 == r.1.1 && meet r.1.2.1 r.1.2.2.1 x.1.2.1 x.1.2.2.1) ||
    hs.any (fun h => hType h.2 == 3 && h.1 / 131072 == r.1.1 && meet r.1.2.1 r.1.2.2.1 (hQoff h.2) (hLen h.2)))).map (·.2)

/-! ### 0x08 to 0x0B: programs and allotments -/

/-- A word of a region is legal, its operand and a LOOP.BACK's target inside the region (Table 06-5). -/
def wordOk (len rs : Nat) (p : Nat × QWord) : Bool :=
  let k := qKind p.2
  wordLegal p.2 rs && (operandSize k == 0 || decide (qw p.2 25 0 + operandSize k ≤ len)) &&
    (k != 11 || qw p.2 41 40 != 1 || decide (8 * qw p.2 15 0 ≤ p.1))

/-- A context's program entries lie in its region, 8-byte aligned, and its words are legal. -/
def ctxOk (b : List Byte) (rs : Nat) (x : Nat × CtxEntry) : Bool :=
  decide (x.2.list + 4 * x.2.programs ≤ x.2.len) &&
    (ctxEntries (ctxBytes b x.1 x.2) x.2).all (fun e => e % 8 == 0 && decide (e + 8 ≤ x.2.len)) &&
    (ctxWords b x.1 x.2).all (wordOk x.2.len rs)

/-- Check 0x08; the item is the context, 9 c + k. -/
def check08 (b : List Byte) : Option Nat :=
  ((secCtxs b).find? (fun x => !ctxOk b (ihLen b - ihRepair b - 1000) x)).map (·.1)

/-- Check 0x09: a LEASE in a tenant context, or a tenant-only word in the lease context. -/
def check09 (b : List Byte) : Option Nat :=
  ((secCtxs b).find? (fun x => (ctxWords b x.1 x.2).any (fun w =>
    if x.1 % 9 = 8 then tenantOnly (qKind w.2) else qKind w.2 == 7))).map (·.1)

/-- Check 0x0A: the later of two tenant contexts of a cluster whose block masks overlap. -/
def check0A (b : List Byte) : Option Nat :=
  let l := (secCtxs b).filter (fun x => x.1 % 9 != 8)
  (l.find? (fun x => l.any (fun y => decide (y.1 < x.1) && y.1 / 9 == x.1 / 9 && x.2.blockMask &&& y.2.blockMask != 0))).map (·.1)

/-- The turn table's valid entries: tenant and count (R87). -/
def secTurns (b : List Byte) : List (Nat × Nat) :=
  ((items b 5).map leNat).filterMap (fun v => if bit v 31 then some (bits v 7 0, bits v 15 8) else none)

/-- The sum of allotments on a cluster of the tenants that `f` picks. -/
def allotted (l : List (Nat × CtxEntry)) (c : Nat) (f : Nat → Bool) : Nat :=
  natSum ((l.filter (fun x => x.1 / 9 == c && f x.2.tenant)).map (fun x => x.2.allot))

/-- Check 0x0B (R87); the item is the cluster, or the turn table's entry. -/
def check0B (b : List Byte) : Option Nat :=
  let l := (secCtxs b).filter (fun x => x.1 % 9 != 8)
  let ts := secTurns b
  match firstBad ts (fun t => t.1 == 0 || t.2 == 0) with
  | some i => some i
  | none => (List.range 512).find? (fun c =>
      decide (64 < allotted l c (fun _ => true)) &&
        (ts.isEmpty || ts.any (fun t => decide (64 < allotted l c (fun u => !ts.any (fun x => x.1 == u)) + allotted l c (· == t.1)))))

/-! ### 0x0C to 0x0E -/

/-- A placement's tick and repair lengths. -/
def placed (b : List Byte) (p : Nat) : Nat × Nat :=
  if p = 0 then (ihLen b, ihRepair b)
  else match (items b 3)[p - 1]? with
    | some l => (leAt l 4 4, leAt l 8 4)
    | none => (0, 0)

/-- What a slot occupies: port and direction (true: TX), and the time from start to end (R244). -/
def slotUses (x : Slot) : List (Nat × Bool × Nat × Nat) :=
  match x.dir with
  | 1 => [(x.port, true, x.start, x.start + x.occ)]
  | 2 => [(x.port, false, x.start, x.start + x.occ)]
  | 3 => [(x.port, false, x.start, x.start + x.occ), (x.outPort, true, x.outStart, x.outStart + x.occ)]
  | _ => []

/-- Two uses of one port and direction overlap in time. -/
def usesMeet (x y : Nat × Bool × Nat × Nat) : Bool :=
  x.1 == y.1 && x.2.1 == y.2.1 && decide (x.2.2.1 < y.2.2.2) && decide (y.2.2.1 < x.2.2.2)

/-- A slot's owner is enabled: on the device, or for a relay span-wide (R252). -/
def ownerOk (b : List Byte) (x : Slot) : Bool := if x.dir = 3 then bit (leAt (elem b 4) 0x28 32) x.owner else dcTenant b x.owner

/-- Check 0x0C; the item is the slot record. -/
def check0C (b : List Byte) : Option Nat :=
  let l := ((secSlots b).zipIdx).filter (fun p => p.1.2.2.dir != 0)
  (l.find? (fun p =>
    let x := p.1.2.2
    let pl := placed b p.1.1
    !ownerOk b x || (slotUses x).any (fun u => decide (pl.1 - pl.2 - 1000 < u.2.2.2)) ||
      (x.dir == 3 && decide (x.outStart < x.start + 250)) ||
      l.any (fun q => decide (q.2 < p.2) && q.1.1 == p.1.1 && (slotUses x).any (fun u => (slotUses q.1.2.2).any (usesMeet u))))).map (·.2)

/-- Check 0x0D; the item is the reservation. -/
def check0D (b : List Byte) : Option Nat :=
  let l := (secHomes b).zipIdx
  (l.find? (fun p => decide (512 < p.1.1) || !dcTenant b p.1.2.1 ||
    decide ((if p.1.1 = 512 then 1024 else 256) <
      natSum ((l.filter (fun q => decide (q.2 ≤ p.2) && q.1.1 == p.1.1)).map (fun q => q.1.2.2))))).map (·.2)

/-- An intake target or an outlet of a class (R317). -/
def targetOk (hs : List (Nat × HEntry)) (t c h : Nat) : Bool :=
  match hs.find? (fun x => x.1 == 1024 * c + h) with
  | some x => decide (c < 512) && hType x.2 == 1 && hKind x.2 == 0 && hOwner x.2 == t && decide (hLen x.2 ≤ 65536)
  | none => false

/-- A class is within Table 12-1 and R317. -/
def classOk' (hs : List (Nat × HEntry)) (k : StreamClass) (l : List Byte) : Bool :=
  decide (1 ≤ k.source) && decide (k.source ≤ 3) && decide (k.outLimit ≤ (if k.source = 1 then 65472 else 832)) &&
    decide (1 ≤ leAt l 0x18 1) && decide (leAt l 0x18 1 ≤ 16) && decide (1 ≤ leAt l 0x19 1) && decide (leAt l 0x19 1 ≤ 16) &&
    (k.source == 2 || (k.tiles == 0 && k.window == 0 && k.intake.all (fun t => t.2.2 == 0))) &&
    k.intake.all (fun t => targetOk hs k.tenant t.1 t.2.1) && k.outlets.all (fun o => targetOk hs k.tenant o.1 o.2)

/-- Check 0x0E; the item is the class descriptor. Two descriptors of one class are a breach in this model (log 47). -/
def check0E (b : List Byte) : Option Nat :=
  let hs := secHandles b
  let l := ((items b 0x10).map (fun x => (classRecord x, x))).zipIdx
  (l.find? (fun p => !classOk' hs p.1.1 p.1.2 || l.any (fun q => decide (q.2 < p.2) && q.1.1.cls == p.1.1.cls))).map (·.2)

/-- The checks of Table 06-8 in order, each with the item it fails on. -/
def State.checks (s : State) (b : List Byte) : List (Option Nat) :=
  [check01 b, check02 b, s.check03 b, s.check04 b, check05 b, check06 b, check07 b, check08 b, check09 b, check0A b, check0B b,
    check0C b, check0D b, check0E b]

/-- The first failing check of Table 06-8, with its item. -/
def State.admission (s : State) (b : List Byte) : Option (Nat × Nat) :=
  (s.checks b).zipIdx.findSome? (fun p => p.1.map (fun i => (p.2 + 1, i)))

/-! ### Cluster sparing (R285) -/

/-- WLD.CLU_BAD's bit of physical cluster `n`. -/
def State.cluBad (s : State) (n : Nat) : Bool := bit (s.rd R.wldCluBad 0 0 (n / 32)) (n % 32)

/-- Marked clusters of a quarter served by its unmarked spares, in ascending order: logical and physical. -/
def pairSpares (bad spare : List Nat) (q : Nat) : NMap Nat :=
  match bad, spare with
  | i :: r, j :: t => (128 * q + i, 136 * q + j) :: pairSpares r t q
  | _, _ => []

/-- The map of every quarter. -/
def State.spareMap (s : State) : NMap Nat :=
  [0, 1, 2, 3].flatMap (fun q => pairSpares ((List.range 128).filter (fun i => s.cluBad (136 * q + i)))
    (((List.range 8).map (· + 128)).filter (fun i => !s.cluBad (136 * q + i))) q)

/-- Some quarter has more than 8 marked clusters. -/
def State.sparesShort (s : State) : Bool :=
  [0, 1, 2, 3].any (fun q => decide (8 < ((List.range 136).filter (fun i => s.cluBad (136 * q + i))).length))

/-! ### Installation (R178) -/

/-- A cluster as an image load leaves it: its tables installed, every bank leased to D, the generator seeded, its contexts
DONE at their first program (R136, R156, R165, R196). -/
def State.loadCluster (s : State) (b : List Byte) (hs : List (Nat × HEntry)) (cs : List (Nat × CtxEntry)) (c : Nat) : Cluster :=
  let k := s.cluster c
  let seed := s.rd R.vecSrSeedLo c + s.rd R.vecSrSeedHi c * 2 ^ 32
  let mine := cs.filter (fun x => x.1 / 9 == c)
  { Cluster.reset with
    handles := (hs.filter (fun x => x.1 / 1024 == c)).map (fun x => (x.1 % 1024, hSetCur x.2 0)),
    ctxTab := mine.map (fun x => (x.1 % 9, x.2)),
    ctxs := mine.map (fun x => (x.1 % 9, { Ctx.reset with
      pc := (ctxEntries (ctxBytes b x.1 x.2) x.2).headD 0, state := .done })),
    sr := BitVec.ofNat 64 (if seed = 0 then 0x9E3779B97F4A7C15 else seed), scrub := k.scrub, traceIdx := k.traceIdx }

/-- Port modes and expected neighbours (R15, R218); a port whose mode changes starts anew. -/
def State.loadPort (s : State) (b : List Byte) (p : Nat) : State :=
  let eth := decide (14 ≤ p) && bit (dcEth b) (p - 14)
  let n := leAt (elem b 4) (0x50 + 2 * p) 2
  let s1 := s.modPort p (fun x => { x with expected := if n = 0x7FF then none else some n })
  if (s.port p).ethernet = eth then s1
  else
    let s2 := ((s1.dropLink p).portState p .quiet).modPort p (fun x => { x with ethernet := eth, ethUp := false })
    if s2.portMayRun p then s2.toDetect p else s2

/-- The tables of a section are installed, after every byte of memory outside code regions becomes 0, which cancels pending
write-backs (R178, R196, R205). -/
def State.install (s : State) (b : List Byte) : State :=
  let hs := secHandles b
  let cs := secCtxs b
  let rs := secRegions b
  let s0 := s.wbCancelIn 0 (2 ^ 64)
  let s1 : State := { s0 with
    mem := [], ecc := [], written := [],
    clusters := (List.range 512).map (fun c => (c, s0.loadCluster b hs cs c)),
    fabric := { s.fabric with
      slots := (secSlots b).foldl (fun m x => mput m (x.1 * 65536 + x.2.1) x.2.2) [],
      homes := (secHomes b).foldl (fun m h => mput m (h.1 * 256 + h.2.1) (mget 0 m (h.1 * 256 + h.2.1) + h.2.2)) [],
      detours := ((items b 0xB).map detourOf).zipIdx.map (fun p => (p.2, p.1)), armed := [], replays := [], bad := [] },
    image := { Image.reset with
      loaded := true, admitDone := true, admitPass := true, self := secSelf b, fSched := ihSched b, tenants := ihTenants b,
      imgDigest := ihDigest b, wgtDigest := sha256 (elem b 0xD),
      lengths := (ihLen b, ihRepair b, ihFree b) :: (items b 3).map (fun l => (leAt l 4 4, leAt l 8 4, leAt l 0xC 4)), shareLen := secShareLen b, shareDigest := secShareDigest b,
      shareExtents := secShare b, stateExtents := secState b, refreshes := (varItems b 0xF).map refreshOf,
      groups := (varItems b 0x11).map groupOf, classes := (items b 0x10).map classRecord,
      code := rs.map (fun r => (r.1, r.2.1, r.2.2.1)), spared := s.spareMap },
    tick := { s.tick with
      joined := false, dead := [], restarts := [], advances := [], children := [], treeKnown := false, selfFailed := false,
      last := none, silent := 0, echoSent := none, fails := [], keystone := false,
      state := if s.tick.keystone then .idle else s.tick.state } }
  let s2 := s1.each rs (fun t r => t.setBytes (qsAddr r.1 r.2.1) (r.2.2.2.take r.2.2.1))
  ((s2.wr R.tckFreeTotal (ihFree b)).each (List.range 16) (fun t p => t.loadPort b p)).note 4 1 0 []

/-- A section that is not admitted is discarded, and the device keeps no image (R179). -/
def State.discardSection (s : State) (check item : Nat) : State :=
  { s with
    image := { Image.reset with admitDone := true, admitCheck := check, admitItem := item % 65536 },
    load := { s.load with section_ := [] } }

/-- ADMISSION_COMPLETE: the checks of a delivered section end (R179); the result is an SPN event; records withheld until now
are answered (R269). -/
def execAdmissionComplete (s : State) : Res :=
  .next (if s.image.admitDone || s.load.section_.isEmpty || !s.mayLoad then s
    else
      let b := joinRuns s.load.section_
      let s1 := match s.admission b with
        | some (k, i) => s.discardSection k i
        | none => if s.sparesShort then (s.discardSection 0 0).modLoad (fun l => { l with clustersShort := true }) else s.install b
      ((s1.event .spn 0 1).releaseHeld).pump)

end Sys2Proof.Machine
end

