-- ==== Sys2Proof/Machine/HostCmds.lean ====
section
/-!
DEFINITION. The host port's commands (11): configuration requests, completions of device reads, BAR2, queues and doorbells,
releases, invalidation, function reset and MSI-X.
-/
namespace Sys2Proof.Machine

/-! ### Requests of the host (R289, R292, R302) -/

/-- CONFIG_REQUEST: answered once the function is ready, with retry status before (R289). -/
def execConfigRequest (fn : Fin 256) (s : State) : Res :=
  .next (if s.power.released then
      (s.modHost (fun h => { h with configs := h.configs + 1 })).send (.config fn ((s.fn fn).ready && !(s.fn fn).flr))
    else s)

/-- BAR2_WRITE: dropped and counted (R292). -/
def execBar2Write (fn : Fin 256) (addr : Nat) (s : State) : Res := .next (s.cnt R.hstRelBad fn)

/-- RESULT_SLOT_READ: 1 to 256 bytes that lie within one slot; any other read returns 0 (R292, R302). -/
def execResultSlotRead (fn : Fin 256) (addr len : Nat) (s : State) : Res :=
  let b := if 1 ≤ len ∧ addr % 256 + len ≤ 256 ∧ addr < 1048576 then
      let x := s.slotOf fn (addr / 256)
      ((padTo 256 (if x.state = 0 then slotHead x.generation 0 else x.bytes)).drop (addr % 256)).take len
    else zeros len
  .next (s.send (.bar2Data fn b))

/-- The ERR page, or a VF's function page, takes a BAR0 violation whose byte lies in no page of its own (R292). -/
def State.badAccess (s : State) (p : Path) (addr : Nat) : State :=
  let pg := addr / 4096
  match p with
  | .pf | .debug =>
    let v : Viol := ⟨0x10, 0, 0, 0, spanReg s.self addr⟩
    (if (pageAt pg).isSome ∧ pg < 0x4000 then s.violateAll pg v [] else s.violate .err 0 v).send (.denied p addr)
  | .vf n =>
    let v : Viol := ⟨0x10, 1, n, 1, addr % 2 ^ 20⟩
    (if pg ≤ 8 then s.violateAll (0x4000 + 16 * n + pg) v [] else s.violate .hst n v).send (.denied p addr)
  | _ => s

/-- BAR0_BAD_ACCESS: a misaligned or odd-sized access: a read returns 0, a write is dropped and logged (R292). -/
def execBar0BadAccess (p : Path) (addr len : Nat) (write : Bool) (s : State) : Res :=
  .next (if (len = 4 ∨ len = 8) ∧ addr % len = 0 then s
    else if write then s.badAccess p addr
    else s.send (.regData p addr 0#32 none))

/-! ### Completions of device reads (R290) -/

/-- A read has ended: the next ones that wait are issued, and atomics whose line is free go on (R257, R287). -/
def State.readNext (s : State) : State := s.takeReads.atomicsDue.pump

/-- HOST_READ_COMPLETION: data, or an error reported through AER; an abandoned read's completion is discarded (R290, R312).
-/
def execHostReadCompletion (tag : Nat) (r : HostRead) (s : State) : Res :=
  .next (match s.host.reads.find? (fun x => x.1 == tag) with
    | none => s
    | some (_, fn, addr, use) =>
      let s1 := s.modHost (fun h => { h with reads := h.reads.filter (fun x => x.1 != tag) })
      (match r with
      | .ok data => match use with
        | .chain e n part => s1.chainRead e n part data
        | _ => s1.readDone use data
      | .poisoned => (s1.send (.aer 1)).readFailed fn addr use
      | _ => (s1.send (.aer 0)).readFailed fn addr use).readNext)

/-- COMPLETION_TIMEOUT: reported as an uncorrectable non-fatal error; the read has failed (R290). -/
def execCompletionTimeout (tag : Nat) (s : State) : Res :=
  .next (match s.host.reads.find? (fun x => x.1 == tag) with
    | none => s
    | some (_, fn, addr, use) =>
      (((s.modHost (fun h => { h with reads := h.reads.filter (fun x => x.1 != tag) })).send (.aer 0)).readFailed fn addr use).readNext)

/-! ### Queue pairs (R293 to R299) -/

/-- A 64-bit base of a queue page. -/
def State.queueBase (s : State) (lo hi : Reg) (i : Nat) : Nat := s.rd lo i + s.rd hi i * 2 ^ 32

/-- The configuration of a queue pair is one that may be enabled (R293). -/
def State.queueGood (s : State) (i : Nat) : Bool :=
  let a := s.queueBase R.hsqCmdqBaseLo R.hsqCmdqBaseHi i
  let b := s.queueBase R.hsqRingBaseLo R.hsqRingBaseHi i
  let n := s.fld R.hsqCmdqSize 4 0 i
  let m := s.fld R.hsqRingCfg 4 0 i
  a % 4096 == 0 && b % 4096 == 0 && decide (4 ≤ n) && decide (n ≤ 16) && decide (4 ≤ m) && decide (m ≤ 16) &&
    !s.inBars a 1 && !s.inBars b 1

/-- The host publication ring may not be enabled with 2^n entries: n or its base is not one that R293 and R329 allow. -/
def State.pubRingBad (s : State) (n : Nat) : Bool :=
  let a := s.queueBase R.pubRingBaseLo R.pubRingBaseHi 0
  !(decide (4 ≤ n) && decide (n ≤ 16)) || a % 4096 != 0 || s.inBars a 1

/-- The path of a function's own BAR0, and the address there of offset `off` of its queue page `q`. -/
def fnPath (fn : Fin 256) : Path := if fn.val = 0 then .pf else .vf fn
def queueOff (fn q off : Nat) : Nat := if fn = 0 then 0x20000 + 4096 * q + off else 4096 * (q + 1) + off

/-- A violation by the host's write of a register of a function's queue page (Table 17-7). -/
def queueViol (s : State) (fn q off : Nat) : Viol :=
  ⟨0x19, fnSrc fn, fn, b2n (fn != 0), if fn = 0 then spanReg s.self (queueOff 0 q off) else queueOff fn q off⟩

/-- A queue pair is turned off: its reads and walks are abandoned. The completions that wait for its ring wait on in their
streams' records (R25; log 31). -/
def State.queueOffNow (s : State) (fn q : Nat) : State :=
  let walks := s.host.walks
  let s1 := (s.dropReads (fun _ u => match u with
      | .entry f k | .input f k _ => f == fn && k == q
      | .walk id => walks.any (fun w => w.id == id && (match w.use with | .submit f k => f == fn && k == q | _ => false))
      | _ => false)).modHost (fun h => { h with
    doorbells := h.doorbells.filter (fun d => !(d.1 == fn && d.2.1 == q)),
    walks := h.walks.filter (fun w => match w.use with
      | .submit f k => !(f == fn && k == q)
      | _ => true) })
  s1.modQueue fn q (fun x => { Queue.reset with waiting := x.waiting })

/-- QCTL.enable is written (R293). -/
def State.setQueue (s : State) (fn q : Nat) (on : Bool) : State :=
  let i := fn * 64 + q
  let was := s.flag R.hsqQctl 0 i
  let s1 := s.wr R.hsqQctl (b2n on) i
  if on = was ∨ queuesOf fn ≤ q then s
  else if !on then s1.queueOffNow fn q
  else if !s1.queueGood i then s1.violate .hsq (fn * 64 + q) (queueViol s fn q 0x58)
  else (s1.modQueue fn q (fun x => { Queue.reset with
    waiting := x.waiting, ringCfg := s.rd R.hsqRingCfg i, state := .run, base := s.queueBase R.hsqCmdqBaseLo R.hsqCmdqBaseHi i, size := s.fld R.hsqCmdqSize 4 0 i,
    ringBase := s.queueBase R.hsqRingBaseLo R.hsqRingBaseHi i, ringSize := s.fld R.hsqRingCfg 4 0 i })).serveRing fn q

/-- CMDQ_DB (R294): the tail; a queue that is off has no size, and takes none. A tail out of range is logged in the function's
page (11, "When things go wrong"). What comes during an attempt waits for the next commit (R52; log 54). -/
def State.cmdqDb (s : State) (fn q v : Nat) : State :=
  let x := s.queue fn q
  if queuesOf fn ≤ q ∨ s.fnUp fn = false ∨ x.state = .off then s
  else if 2 ^ x.size ≤ v % 65536 then s.violate .hst fn (queueViol s fn q 0x100)
  else if s.inTick || !s.host.doorbells.isEmpty then
    s.modHost (fun h => { h with doorbells := h.doorbells ++ [(fn, q, v % 65536)] })
  else s.setTail fn q (v % 65536)

/-- RING_DB (R298): the ring's head; waiting completions are written as it makes room (R299). -/
def State.ringDb (s : State) (fn q v : Nat) : State :=
  if queuesOf fn ≤ q ∨ s.fnUp fn = false ∨ (s.queue fn q).state = .off then s
  else
    (s.modQueue fn q (fun y => { y with ringHead := v % 65536 })).serveRing fn q

/-- QCMD.restart (R307): a stopped queue runs again. -/
def State.queueRestart (s : State) (fn q : Nat) : State :=
  if queuesOf fn ≤ q ∨ s.fnUp fn = false ∨ (s.queue fn q).state ≠ .stopped then s
  else (s.modQueue fn q (fun y => { y with state := .run, status := 0 })).fetch fn q

/-- NOP: the queue's fetched entry, of any opcode but SUBMIT's, is checked and completed (R294, Table 11-4). -/
def execNop (fn : Fin 256) (q : Fin 64) (s : State) : Res := .next (s.process fn q false)

/-- SUBMIT: the queue's fetched SUBMIT is checked, and its walks start (R294, R295). -/
def execSubmit (fn : Fin 256) (q : Fin 64) (s : State) : Res := .next (s.process fn q true)

/-! ### Releases (R304) -/

/-- HST.SLOT_REL: a PUBLISHED or FAULTED slot of the generation becomes FREE, keeping it; any other release is counted. -/
def State.slotRel (s : State) (fn v : Nat) : State :=
  let i := bits v 11 0
  let x := s.slotOf fn i
  if s.fnUp fn = false then s
  else if 2 ≤ x.state ∧ x.generation = bits v 31 16 then s.setSlot fn i ⟨x.generation, 0, []⟩
  else s.cnt R.hstRelBad fn

/-! ### Invalidation (R308) -/

/-- A page of level `lv` at virtual address `va` meets an invalidation's scope. -/
def scopeMeets (k : Nat × Nat × Nat × Nat) (t va len : Nat) : Bool :=
  k.1 == 0 || (k.2.1 == t && (k.1 == 1 || meet va len k.2.2.1 (4096 * k.2.2.2)))

/-- A held host-bound write was translated through an entry the scope matches. -/
def HostOut.meets (o : HostOut) (k : Nat × Nat × Nat × Nat) : Bool :=
  match o.trans with
  | some (t, va) => scopeMeets k t va o.size
  | none => false

/-- XLT.INV_CTL (R308): matching translations go, walks under way are discarded. A second invalidation while one is busy
widens it to all. Scope 3 is none. -/
def State.invalidate (s : State) (scope : Nat) : State :=
  if 3 ≤ scope then s
  else
    let k0 : Nat × Nat × Nat × Nat := (scope, s.fld R.xltTsel 7 0, s.rd R.xltInvAddrLo + s.rd R.xltInvAddrHi * 2 ^ 32,
      s.fld R.xltInvPages 19 0)
    let k := if s.host.inval.isSome then (0, 0, 0, 0) else k0
    s.modHost (fun h => { h with
      inval := some k,
      tlb := h.tlb.filter (fun e => !scopeMeets k e.tenant (e.va * 2 ^ levelShift e.level) (2 ^ levelShift e.level)),
      walks := h.walks.map (fun w => { w with stale := true }) })

/-- INVALIDATE_COMPLETE: busy clears once every walk that was under way has been discarded and every held write of the scope
has left (R308). -/
def execInvalidateComplete (s : State) : Res :=
  .next (match s.host.inval with
    | none => s
    | some k =>
      if s.host.walks.any (fun w => w.stale) || s.host.held.any (fun o => o.meets k) || s.svc.egress.any (fun e => match e with
          | .write t va _ d => scopeMeets k t va d.length
          | .nop _ _ _ _ => false) then s
      else s.modHost (fun h => { h with inval := none }))

/-! ### Function reset (R312, R313, R371, R451) -/

/-- An abandoned use of a function's read or walk: an output's stream ends without it, a chain stops. -/
def State.dropWalk (s : State) (u : WalkUse) : State :=
  match u with
  | .submit _ _ => s
  | .output id => match s.stream id with
    | some x => match x.host with
      | some h => s.releaseEnd id x h x.status x.detail 0
      | none => s
    | none => s
  | .kind3 _ => s
  | .chain e _ => (s.modChain e (fun c => { c with running := false })).cnt R.wldChainErr

def State.dropRead (s : State) (u : ReadUse) : State :=
  match u with
  | .chain e _ _ => (s.modChain e (fun c => { c with running := false })).cnt R.wldChainErr
  | _ => s

/-- The completions that wait for a function's rings are dropped with their streams (R312). -/
def State.dropWaiting (s : State) (fn q : Nat) : State :=
  (s.modQueue fn q (fun x => { x with waiting := [] })).each (s.queue fn q).waiting (fun t e => match e.stream with
    | some id => t.freeId id
    | none => t)

/-- Steps 1 and 2 of R312 for a function: doorbells refused, requests abandoned, held egress discarded. A kind 3 request that is
abandoned is refused (R309; log 31). -/
def State.abandon (s : State) (fn : Nat) : State :=
  let s1 := s.modFn fn (fun f => { f with flr := true, ready := false })
  let s2 := s1.each (List.range (queuesOf fn)) (fun t q => (t.queueOffNow fn q).dropWaiting fn q)
  let walks := s2.host.walks.filter (fun w => w.tenant == fn)
  let uses := (s2.host.reads.filter (fun r => r.2.1 == fn)).map (·.2.2.2) ++
    (s2.host.readq.filter (fun r => r.1 == fn)).map (·.2.2.2)
  let asked := s2.host.kind3s.filter (fun k => k.head.tenant == fn)
  let out := s2.host.held.filter (fun o => o.fn == fn)
  let s3 := ((s2.dropReads (fun f _ => f == fn)).modHost (fun h => { h with
    held := h.held.filter (fun o => o.fn != fn), walks := h.walks.filter (fun w => w.tenant != fn),
    kind3s := h.kind3s.filter (fun k => k.head.tenant != fn) })).each out State.freeOf
  let s4 := s3.modSvc (fun v => { v with egress := v.egress.filter (fun e => match e with
    | .write t _ _ _ => t != fn
    | .nop f _ _ _ => f != fn) })
  (((s4.each walks (fun t w => t.dropWalk w.use)).each uses State.dropRead).each asked (fun t k =>
    t.nack k.port k.head k.access 0x45)).takeReads

/-- A VF is reset or disabled (R312): the tenant is withdrawn at the next committing seal, or at once in IDLE or HOLD; in doze
the manager is told and the slots are free at once, and the withdrawal runs in the wake (R391). -/
def State.disableVf (s : State) (n : Nat) : State :=
  if n = 0 ∨ (s.fn n).flr then s
  else
    let s1 := s.abandon n
    if s.dozing then ((s1.modTick (fun t => { t with withdrawals := addOnce t.withdrawals n })).signalFn n).modFn n (fun f =>
      { f with slots := [] })
    else if s.tick.state = .idle ∨ s.tick.state = .hold then s1.withdraw n
    else s1.modTick (fun t => { t with withdrawals := addOnce t.withdrawals n })

/-- Every ready VF is disabled (R312). -/
def State.disableVfs (s : State) : State :=
  s.each ((List.range 256).filter (fun n => n != 0 && (s.fn n).ready)) State.disableVf

/-- An FLR of PF0 (R313). -/
def State.flrPf (s : State) : State := (if (s.fn 0).flr then s else s.abandon 0).disableVfs

/-- The registers of a function's own pages return to reset values (R451); of the PF, a port reset's SLT page too. -/
def State.resetPages (s : State) (keep : Nat → Bool) : State := { s with
  regs := s.regs.filter (fun p => keep (p.1 / 1024 % 65536)), hidden := s.hidden.filter (fun p => keep (p.1 / 1024 % 65536)) }

/-- Whether a page is not one of function `n`'s own. -/
def notOwn (n pg : Nat) : Bool :=
  if n = 0 then !(pg == 5 || (decide (0x20 ≤ pg) && decide (pg < 0x60)))
  else !(decide (0x4000 + 16 * n ≤ pg) && decide (pg < 0x4010 + 16 * n))

/-- FLR: of a VF, or of PF0 (R312, R313). -/
def execFlr (fn : Fin 256) (s : State) : Res :=
  .next (((if fn.val = 0 then s.flrPf else s.disableVf fn).resetPages (notOwn fn)).atomicsDue.pump)

/-- VF_DISABLE: VF Enable is cleared (R312). -/
def execVfDisable (s : State) : Res :=
  let l := (List.range 256).filter (fun n => n != 0 && (s.fn n).ready)
  .next ((s.disableVfs.resetPages (fun pg => l.all (fun n => notOwn n pg))).atomicsDue.pump)

/-- PF_FLR: it clears VF Enable too (R313). -/
def execPfFlr (s : State) : Res :=
  .next ((s.flrPf.resetPages (fun pg => notOwn 0 pg && decide (pg < 0x4000))).atomicsDue.pump)

/-- FLR_COMPLETE: the function is ready, its queues OFF, its slots FREE with generation 0 (R312 step 5, Table 11-8). While
its tenant waits to be withdrawn or its footprints are zeroed, or the link is down, it is not. -/
def execFlrComplete (fn : Fin 256) (s : State) : Res :=
  .next (if (s.fn fn).flr = false ∨ (s.fn fn).zeroing ∨ s.tick.withdrawals.contains fn.val ∨ s.host.linkUp = false then s
    else s.modFn fn (fun _ => { Function.reset with ready := true }))

/-- The bytes a tenant owns: both halves of its footprints, as address and length, bank by bank, and its type 3 areas
(R312 step 5). -/
def ownedRuns (c : Nat) (e : HEntry) : List (Nat × Nat) :=
  if hType e = 1 then
    (List.range (2 ^ hK e)).map (fun i => (spAddr c ((hBank e + i) % 32 * 131072 + hLbase e), hF e))
  else if hType e = 3 then [(qsAddr (c / 128) (hQoff e), hLen e)]
  else []

/-- ZEROING_COMPLETE: every byte the withdrawn tenant owns is 0 (R312 step 5). -/
def execZeroingComplete (tenant : Fin 256) (s : State) : Res :=
  .next (if (s.fn tenant).zeroing = false then s
    else
      let own := s.clusters.flatMap (fun k => (k.2.handles.filter (fun h => hOwner h.2 == tenant.val)).flatMap (fun h =>
        ownedRuns k.1 h.2))
      ((s.each own (fun t r => t.zeroOut r.1 r.2)).modFn tenant (fun f => { f with zeroing := false })))

/-- HOST_PORT_RESET: PERST_N, a hot reset or link down (R370, R371): an FLR of PF0 and of every VF; the PF function page, every
queue page and the SLT page return to reset values (R451). -/
def execHostPortReset (s : State) : Res :=
  .next (if s.power.released = false then s
    else
      let s1 := s.flrPf.resetPages (fun pg => notOwn 0 pg && decide (pg < 0x4000) && pg != 6)
      ((s1.modHost (fun h => { h with linkUp := false, configs := h.configs + 1 })).modPower (fun p => { p with rstCause := 8 })).atomicsDue.pump)

/-! ### Credits and MSI-X (R27, R263, R310) -/

/-- CREDIT_STALL: the host has held posted credits for more than 1 ms (R27). -/
def execCreditStall (s : State) : Res := .next ((s.cnt R.hstCreditStall).modHost (fun h => { h with stalled := true }))

/-- POSTED_CREDIT_RETURN: credits for `n` writes; the oldest held ones leave (R263). -/
def execPostedCreditReturn (n : Nat) (s : State) : Res :=
  let s1 := s.modHost (fun h => { h with held := h.held.drop n, stalled := !(h.held.drop n).isEmpty })
  .next (s1.each (s.host.held.take n) State.post)

/-- MSIX_UNMASK: a vector is unmasked; the message it held is sent (R310). -/
def execMsixUnmask (fn : Fin 256) (vector : Fin 2048) (s : State) : Res :=
  let f := s.fn fn
  .next (if fn.val ≠ 0 ∧ 8 ≤ vector.val then s
    else
      let s1 := s.modFn fn (fun f => { f with
        unmasked := addOnce f.unmasked vector, pendingMsg := dropAll f.pendingMsg vector })
      if f.pendingMsg.contains vector.val then s1.toHost ⟨.msix fn vector, fn, none, none⟩ else s1)

end Sys2Proof.Machine
end

