-- ==== Sys2Proof/Machine/LinkCmds.lean ====
section
/-!
DEFINITION. A link's own frames (09): IDLE units (R236), STATUS, RETRY and probes (R240, 02 R39), the identity exchange with its
keys and fences (R258 to R262), and the move of a waiting frame to the escape VC (R254).
-/
namespace Sys2Proof.Machine

/-- IDLE_UNIT: a unit with a non-zero byte, or a frame of a reserved type, is discarded and counted (R236). -/
def execIdleUnit (port : Fin 16) (cw : Codewords) (u : IdleUnit) (s : State) : Res :=
  let s1 := if s.hears port then s.takeBlocks port cw else s
  .next (if s.portUp port = false ∨ s.hears port = false ∨ cw.any spoils then s1
    else match u with
      | .unit bytes => if bytes.any (fun b => b != 0#8) then s1.cnt R.fabFrameBad else s1
      | .reserved _ => s1.cnt R.fabFrameBad)

/-! ### STATUS and RETRY (R240, Table 09-9) -/

/-- An acknowledgement of a class in key phase `kp`: the frames it covers are kept no longer, and waiting ones go (R240; log 33). -/
def State.acked (s : State) (p cls h : Nat) (kp : Bool) : State :=
  if ackNone ≤ h then s
  else
    let t := s.modSeq p cls (fun x => { x with unacked := x.unacked.filter (fun f => f.kp != kp || decide (h < f.seq)) })
    t.drainWindow p cls (t.classSeq p cls).waiting.length

/-- The acknowledgements of all classes. -/
def State.ackedAll (s : State) (p : Nat) (acks : List Nat) (kp : Bool) : State :=
  s.each (ackClasses.zip acks) (fun t q => t.acked p q.1 q.2 kp)

/-- STATUS: credits and acknowledgements (Table 09-9). -/
def execStatus (port : Fin 16) (a : Arrival) (credits acks : List Nat) (s : State) : Res :=
  .next (match s.receive port 8 a with
    | (s1, .good) =>
      let s2 := s1.modPort port (fun x => { x with
        granted := (List.range 11).map (fun k => (k, credits.getD k (mget 0 x.granted k) % 65536)) })
      ((s2.ackedAll port acks a.kp).pumpPort port).pump
    | (s1, _) => s1)

/-- STATUS_TIMER: sent at least every 10 µs (R240). -/
def execStatusTimer (port : Fin 16) (s : State) : Res := .next (if s.portUp port then s.sendStatus port else s)

/-- Frames of a class kept for retry are sent again as they were (R240). -/
def State.resend (s : State) (p cls : Nat) (named : Frame → Bool) : State :=
  s.each ((s.classSeq p cls).unacked.filter named) (fun t f => t.transmit p f)

/-- RETRY: the frames of its key phase that it names are sent again (R240; log 33). -/
def execRetry (port : Fin 16) (a : Arrival) (cls first count : Nat) (s : State) : Res :=
  .next (match s.receive port 8 a with
    | (s1, .good) =>
      if retried cls ∧ 1 ≤ count ∧ count ≤ 128 then
        s1.resend port cls (fun f => f.kp == a.kp && decide (first ≤ f.seq) && decide (f.seq < first + count))
      else s1
    | (s1, _) => s1)

/-- RETRY_TIMEOUT: a frame outstanding for 4 µs is sent again (R240). -/
def execRetryTimeout (port : Fin 16) (cls seq : Nat) (s : State) : Res :=
  .next (if s.portUp port then
      (match (s.classSeq port cls).unacked.find? (fun f => f.seq == seq) with
        | some f => s.transmit port f
        | none => s)
    else s)

/-! ### Probes (02 R39) -/

/-- LINK_DELAY_PROBE: every 1 s the device probes the link (R39). -/
def execLinkDelayProbe (port : Fin 16) (t1 : Nat) (s : State) : Res := .next (s.sendOn port (.probe [t1]))

/-- PROBE: answered with its sending, arrival and answering times; the time the answer takes is the device's (log 14). -/
def execProbe (port : Fin 16) (a : Arrival) (t1 t2 : Nat) (s : State) : Res :=
  .next (match s.receive port 8 a with
    | (s1, .good) => (s1.sendOn port (.probe [t1, t2, t2 + Config.residence s1.freeCtr])).draw
    | (s1, _) => s1)

/-- PROBE_RSP: the link's delay is half of the round trip less the partner's residence (R39). -/
def execProbeRsp (port : Fin 16) (a : Arrival) (t1 t2 t3 t4 : Nat) (s : State) : Res :=
  .next (match s.receive port 8 a with
    | (s1, .good) => s1.modPort port (fun x => { x with delay := ((t4 - t1) - (t3 - t2)) / 2 % 2 ^ 32 })
    | (s1, _) => s1)

/-! ### Identity and keys (R258 to R261) -/

/-- Entry `i` of a list in a BAR0 table window (Table 17-4). -/
def State.listEntry (s : State) (base i : Nat) : Nat :=
  let w (a : Nat) : Nat := (mget 0#32 s.regs (a / 4)).toNat
  w (base + 8 * i) + w (base + 8 * i + 4) * 2 ^ 32

/-- A serial is among the first `n` entries of a list. -/
def State.listed (s : State) (base n serial : Nat) : Bool := (List.range n).any (fun i => s.listEntry base i == serial)

/-- The checks of R259 that a HELLO allows. -/
def State.helloGood (s : State) (p : Nat) (h : Hello) : Bool :=
  let m := s.fld R.fabMemberCnt 11 0
  h.version == 1 && Config.chainGood Config.rootDigest h.chain && !s.listed 0x68000 (min 256 (s.fld R.fabRevokeCnt 8 0)) h.serial &&
    (m == 0 || s.listed 0x60000 m h.serial) &&
    (match (s.port p).expected with
      | some n => h.device == 0x7FF || h.device == n
      | none => true)

/-- The partner is refused (R262): an AUTH violation, and the port is fenced. -/
def State.refusePartner (s : State) (p : Nat) : State := (s.violate .fab 0 ⟨0x16, 16, 0, 1, p⟩).fencePort p

/-- The info string of the key derivation, "RONBA-LINK-1" in ASCII (R260). -/
def linkInfo : List Byte := "RONBA-LINK-1".toList.map (fun c => BitVec.ofNat 8 c.toNat)

/-- The two HELLOs of an exchange, A's first: A is the end of the lower serial (R258). -/
def inOrder (ours theirs : Hello) : Hello × Hello := if ours.serial ≤ theirs.serial then (ours, theirs) else (theirs, ours)

/-- The digest that SIGN covers and that salts the keys (R258, R260). -/
def helloDigest (ours theirs : Hello) : List Byte :=
  let x := inOrder ours theirs
  sha384 (helloBytes x.1 ++ helloBytes x.2)

/-- The keys of an exchange: A's transmit key and salt, then B's (R260). -/
def State.deriveKeys (s : State) (p : Nat) (ours theirs : Hello) : State :=
  let x := inOrder ours theirs
  let k := hkdf384 (Config.ecdhSecret x.1.ecdh x.2.ecdh) (helloDigest ours theirs) linkInfo 72
  let isA := decide (ours.serial ≤ theirs.serial)
  s.modPort p (fun x => { x with secure := { x.secure with
    accepted := true, newTx := if isA then k.take 36 else k.drop 36, newRx := if isA then k.drop 36 else k.take 36 } })

/-- FINISH, with the acknowledgements of the previous key (Table 09-13). -/
def State.sendFinish (s : State) (p : Nat) : State := s.sendSecure p (.finish (s.acksOf p))

/-- This device's signature: a free value, since its device key is its own (log 8). -/
def State.sendSign (s : State) (p : Nat) : State :=
  (s.sendSecure p (.sign ((List.range 96).map (Config.freeByte s.freeCtr)))).draw

/-- A partner's HELLO during link-up: checked, then SIGN; during a rekey: checked, then FINISH with no SIGN (R258, R259,
R261). -/
def State.takeHello (s : State) (p : Nat) (h : Hello) : State :=
  let s1 := s.modPort p (fun x => { x with secure := { x.secure with theirs := some h } })
  if s.helloGood p h = false then s1.refusePartner p
  else match (s.port p).state, (s.port p).secure.hello with
    | .up, some o => (s1.deriveKeys p o h).sendFinish p
    | _, some _ => s1.sendSign p
    | _, none => s1

/-- A message of the exchange in clear on a port that is not UP: lost where a codeword that carried it is uncorrectable, else taken
(R241, R258). -/
def State.clearMessage (s : State) (p : Nat) (a : Arrival) : State × Bool :=
  if !s.hears p then (s, false) else (s.takeBlocks p a.codewords, !a.codewords.any spoils)

/-- A partner's HELLO under the current key: a rekey that the partner begins is answered with this device's HELLO first (R261). -/
def State.rekeyHello (s : State) (p : Nat) (h : Hello) : State :=
  let x := s.port p
  if x.secure.rekeying then (if x.secure.hello.isSome then s.takeHello p h else s)
  else
    let s1 := s.beginRekey p
    if (s1.port p).state = .up then s1.takeHello p h else s1

/-- HELLO (R258, R261): in clear during link-up, and under the current key for a rekey. -/
def execHello (port : Fin 16) (h : HelloFrame) (s : State) : Res :=
  .next (match (s.port port).state with
    | .secure | .retrain =>
      let r := s.clearMessage port h.arrival
      if r.2 && (s.port port).secure.hello.isSome then r.1.takeHello port h.hello else r.1
    | _ => match s.receive port 9 h.arrival with
      | (t, .good) => t.rekeyHello port h.hello
      | (t, _) => t)

/-- SIGN: a signature that verifies admits the partner; keys are derived and FINISH follows (R259, R260). -/
def execSign (port : Fin 16) (sig : SignFrame) (s : State) : Res :=
  let x := s.port port
  .next (if x.state ≠ .secure ∧ x.state ≠ .retrain then (s.receive port 9 sig.arrival).1
    else
      let r := s.clearMessage port sig.arrival
      if r.2 = false then r.1
      else match x.secure.hello, x.secure.theirs with
        | some o, some h =>
          if Config.sigGood h.chain (helloDigest o h) sig.signature then (r.1.deriveKeys port o h).sendFinish port else r.1.refusePartner port
        | _, _ => r.1)

/-- A class's state as a new key takes effect: numbers from 0; the frames of phase `kp` that the partner has not acknowledged, and
older ones, wait to be sent again (R238, R260). -/
def ClassSeq.rekey (c : ClassSeq) (kp : Bool) (h : Nat) : ClassSeq :=
  let l := c.unacked.filter (fun f => f.kp != kp || decide (ackNone ≤ h) || decide (h < f.seq))
  { ClassSeq.reset with waiting := l.map (fun f => f.content) ++ c.waiting }

/-- Class 9 as a new key takes effect: each end has sent one FINISH under it (R238, R258). -/
def ClassSeq.finished (q : Nat) : ClassSeq := { (seqAccept ClassSeq.reset q).getD ClassSeq.reset with next := 1 }

/-- The link is UP under new keys (R260): credits count from 0, sequence numbers begin anew, and what the partner has not
acknowledged is sent again. `q` is the number of the partner's FINISH. -/
def State.keyUp (s : State) (p q : Nat) (acks : List Nat) : State :=
  let ack (c : Nat) : Nat := (((ackClasses.zip acks).find? (fun x => x.1 == c)).map (·.2)).getD ackNone
  let s1 := s.modPort p (fun x => { x with
    seqs := mput (x.seqs.map (fun c => (c.1, c.2.rekey x.secure.kp (ack c.1)))) 9 (ClassSeq.finished q), freed := [], granted := [],
    spent := [],
    secure := { x.secure with
      txKey := x.secure.newTx, rxKey := x.secure.newRx, kp := false, rxKp := false, oldKey := none, oldSeqs := [],
      rekeying := false, switchAt := false } })
  let s2 := s1.each (List.range 16) (fun t q => t.modPort q (fun x => { x with
    queue := x.queue.map (fun f => (if f.1 = p then 16 else f.1, f.2)) }))
  ((s2.linkUp p).each ackClasses (fun t c => t.drainWindow p c (t.classSeq p c).waiting.length)).pumpPort p

/-- The partner's FINISH of a rekey: its acknowledgements count, and the sender turns to the new key at the next tick (R261). -/
def State.rekeyFinish (s : State) (p : Nat) (kp : Bool) (acks : List Nat) : State :=
  let s1 := s.ackedAll p acks kp
  if (s.port p).secure.rekeying && (s.port p).secure.accepted then
    s1.modPort p (fun y => { y with secure := { y.secure with switchAt := true, accepted := false, hello := none } })
  else s1

/-- FINISH: the exchange is complete; link-up enters UP, a rekey turns at the next tick (R258, R260, R261). A tag failure on clean
codewords counts like any frame's (R242). -/
def execFinish (port : Fin 16) (a : Arrival) (acks : List Nat) (s : State) : Res :=
  .next (match (s.port port).state with
    | .secure | .retrain =>
      let r := s.clearMessage port a
      if r.2 = false ∨ (s.port port).secure.accepted = false then r.1
      else if a.tagOk = false then r.1.authFail port
      else (r.1.keyUp port a.seq acks).pump
    | _ => match s.receive port 9 a with
      | (t, .good) => t.rekeyFinish port a.kp acks
      | (t, _) => t)

/-- The first frame of a tick under a new key: kp toggles and numbers begin at 0; what is kept for retry keeps its own phase (R261;
log 33). -/
def State.switchKey (s : State) (p : Nat) : State :=
  if (s.port p).secure.switchAt then
    s.modPort p (fun x => { x with
      seqs := x.seqs.map (fun c => (c.1, { c.2 with next := 0 })),
      secure := { x.secure with kp := !x.secure.kp, txKey := x.secure.newTx, switchAt := false } })
  else s

/-- SECURE_TIMEOUT: an exchange not complete 50 ms after it began (R262). -/
def execSecureTimeout (port : Fin 16) (s : State) : Res :=
  let x := s.port port
  .next (if x.state = .secure ∨ x.state = .retrain ∨ (x.state = .up ∧ x.secure.rekeying ∧ x.secure.hello.isSome) then
      s.fencePort port else s)

/-- FENCE_EXPIRY: the fence ends and the port returns to DETECT (R262). -/
def execFenceExpiry (port : Fin 16) (s : State) : Res :=
  .next (if (s.port port).state = .fenced then (s.dropLink port).retry port else s)

/-- The length of a port's fence in ms (R262). -/
def fenceMs (n : Nat) : Nat := min (1000 * 2 ^ (n - 1)) 64000

/-- REKEY_TIMER: 4 h, or a number past 2^47: HELLO under the current key (R261). -/
def execRekeyTimer (port : Fin 16) (s : State) : Res :=
  .next (if s.portUp port ∧ (s.port port).secure.rekeying = false then s.beginRekey port else s)

/-- OLD_PHASE_EXPIRY: 100 µs after the first frame of the new phase the old phase is over, and what was kept for retry in it goes
(R261; log 33). -/
def execOldPhaseExpiry (port : Fin 16) (s : State) : Res :=
  .next (s.modPort port (fun y => { y with
    seqs := y.seqs.map (fun c => (c.1, { c.2 with unacked := c.2.unacked.filter (fun f => f.kp == y.secure.kp) })),
    secure := { y.secure with oldKey := none, oldSeqs := [] } }))

/-! ### Escape (R254) -/

/-- ESCAPE_TIMEOUT: the frame at the head of a class's normal queue has waited 1 µs and moves to the escape VC (R254 step
5). -/
def execEscapeTimeout (port : Fin 16) (cls : RClass) (s : State) : Res :=
  .next (match (s.port port).queue.find? (fun q => q.2.cls == cls && q.2.head.vc == 0) with
    | none => s
    | some (i, f) =>
      let s1 := (s.modPort port (fun x => { x with queue := x.queue.erase (i, f) })).cnt R.fabEscCnt
      let g := { f with head := { f.head with hops := f.head.hops - 1 } }
      (match s1.escapeHop g with
        | .port p e => s1.enqueue i p e
        | _ => ((s1.cnt R.fabRouteErr).freeUnits i f).noHop i g).pump)

end Sys2Proof.Machine
end

