-- ==== Sys2Proof/Machine/LoadCmds.lean ====
section
/-!
DEFINITION. The load engine's commands (10 R265 to R286): records, verdicts and the operations behind WLD.CMD and WLD.REFILL.
-/
namespace Sys2Proof.Machine

/-! ### Records (R268, R269) -/

/-- A record of a kind arrives from a port's partner and is served (R267). One of another kind is another command. -/
def State.portRecord (s : State) (port kind : Nat) (r : LoadRecord) : State :=
  if r.kind ≠ kind then s else (s.serveRecord ⟨r, port, none, none⟩).pump

/-- SECTION_RECORD: it builds the keeper's section, or goes on (R268, R269). -/
def execSectionRecord (port : Fin 16) (r : LoadRecord) (s : State) : Res := .next (s.portRecord port 1 r)

/-- SHARE_RECORD: written to the share's extents, withheld until admission, or goes on, with parity (R268, R269). -/
def execShareRecord (port : Fin 16) (r : LoadRecord) (s : State) : Res := .next (s.portRecord port 2 r)

/-- STATE_RECORD: written to half 0 of the state list's handles, withheld, or goes on (R269). -/
def execStateRecord (port : Fin 16) (r : LoadRecord) (s : State) : Res := .next (s.portRecord port 3 r)

/-- END_RECORD: it closes the keeper's stream, or goes on (R268). -/
def execEndRecord (port : Fin 16) (r : LoadRecord) (s : State) : Res := .next (s.portRecord port 4 r)

/-- SHARE_VERDICT: after the END record, the share's hash is complete (R271, R273). -/
def execShareVerdict (s : State) : Res :=
  .next (if s.load.ended && s.image.admitPass && decide (s.load.verdict ≤ 1) then s.shareVerdict else s)

/-- REFILL_TIMEOUT: a chain hop has been unreachable for 1 s, or a second loss has taken the refill's source: the refill has
failed, unless the verdict is OK already (R284). -/
def execRefillTimeout (s : State) : Res :=
  .next (if s.load.verdict ≤ 1 then s.shareBad else s)

/-! ### WLD.CMD and WLD.REFILL (R265, R271, R282, R286) -/

/-- WLD.CMD.start of entry `e` (R266): a head-host entry reads from the start of its stream. -/
def State.startChain (s : State) (e : Nat) : State :=
  let s1 := (s.modChain e (fun _ => { Chain.reset with running := true })).restartWindow (s.chainId e)
  (s1.chainFill e 256).pump

/-- WLD.CMD.abort of entry `e`: it reads and sends no more. -/
def State.abortChain (s : State) (e : Nat) : State :=
  (s.modChain e (fun c => { c with running := false, parts := [] })).modFab (fun f => { f with
    sendq := f.sendq.filter (fun r => match r.use with
      | .record k _ => k != e
      | _ => true) })

/-- WLD.CMD.reload: the verdict is cleared, and a new share stream for the same section is accepted (R271), from record 0
(log 22). -/
def State.reloadShare (s : State) : State :=
  s.modLoad (fun l => { l with
    verdict := 0, share := [], shareBytes := 0, stateBytes := 0, ended := false, firstBad := 0, windows := [] })

/-- The head-store entry that a refill sends through: the selected one, else the lowest (log 22). -/
def State.storeEntry (s : State) : Option Nat :=
  let sel := s.fld R.wldChainSel 2 0
  if s.chainRole sel = 2 then some sel else (List.range 8).find? (fun e => s.chainRole e == 2)

/-- WLD.REFILL's group, target and source (R282): none where the device cannot do it. -/
def State.refillOf (s : State) (v : Nat) : Option (Nat × RGroup) :=
  match s.storeEntry, s.image.groups.find? (fun g => g.index == bits v 5 0) with
  | some e, some g => if s.mayLoad && (bits v 18 17 == 1 || bits v 18 17 == 2) then some (e, g) else none
  | _, _ => none

end Sys2Proof.Machine
end

