-- ==== Sys2Proof/Machine/Time.lean ====
section
/-!
DEFINITION. The time unit (13): references and their priority (R346 to R348), steering (R349 to R351), states (R352), the
PPS output (R353), slew and step (R354 to R357), quality and its notices (R358 to R360), and the latch (Table 13-6).
-/
namespace Sys2Proof.Machine

/-- The device's own time unit runs the states of Table 13-2: it is the keystone, or follows no markers yet. -/
def State.runsTime (s : State) : Bool := s.tick.keystone || !s.tick.joined

/-- A source's number (Table 13-5); 5 the 10 MHz input. -/
def sourceNo (x : TimeSource) : Nat :=
  match x with
  | .pps => 1
  | .ptp14 => 3
  | .ptp15 => 4
  | .tenMhz => 5

/-- TIM.STS.state's code (Table 13-6). -/
def timeCode (x : TimeState) : Nat :=
  match x with
  | .locked => 0
  | .holdover => 1
  | .freeRun => 2
  | .qualifying => 3

/-- The state a code of a notice names. -/
def timeOf (n : Nat) : TimeState :=
  match n % 4 with
  | 0 => .locked
  | 1 => .holdover
  | 2 => .freeRun
  | _ => .qualifying

/-- A 32-bit register's signed value. -/
def signed32 (x : Nat) : Int := sext 32 x

/-- A signed value in 32 bits, saturating (Table 13-6 OFFSET). -/
def satS32 (x : Int) : Nat := wrap 32 (max (-2147483648) (min 2147483647 x))

/-! ### Quality (R358) -/

/-- The least b for which 16 × 2^b ns covers a bound; 15 for none (R358). -/
def boundCode (n : Nat) : Nat := ((List.range 15).find? (fun b => decide (n ≤ 16 * 2 ^ b))).getD 15

/-- The bound in LOCKED (R358). -/
def State.lockBound (s : State) : Nat :=
  s.fld R.timRefErr (if 3 ≤ s.time.source then 31 else 15) (if 3 ≤ s.time.source then 16 else 0) + 20 + s.time.theta.natAbs

/-- The state whose quality shows: QUALIFYING shows the state it came from (Table 13-4). -/
def State.shownState (s : State) : TimeState := if s.time.state = .qualifying then s.time.came else s.time.state

/-- The keystone's bound in ns, none in FREE-RUN (R358): HO_PPB is in 0.01 ns/s. -/
def State.boundNs (s : State) : Option Nat :=
  match s.shownState with
  | .locked => some s.lockBound
  | .holdover => some (s.time.lockedBound + s.fld R.timHoPpb 15 0 * s.time.holdover / 100000000000)
  | _ => none

/-- The quality byte, with the slewing bit a notice announces (Table 13-4). -/
def State.qualityNow (s : State) (slew : Bool) : Nat :=
  timeCode s.shownState + 4 * b2n slew + 8 * b2n (s.shownState == .freeRun) +
    16 * (match s.boundNs with | some n => boundCode n | none => 15)

/-! ### Notices (R359) -/

/-- TIM.SQ_NOTE's word (Table 13-6). -/
def noteWord (quality event state tick : Nat) : Nat :=
  quality % 256 + event % 16 * 2 ^ 8 + state % 8 * 2 ^ 12 + tick % 65536 * 2 ^ 16

/-- The keystone announces a time event to every device, itself among them (R359). -/
def State.announce (s : State) (event : Nat) (slew : Bool) : State :=
  if !s.tick.keystone then s
  else
    let q := s.qualityNow slew
    let n := (s.tick.count + s.fld R.timQLead 12 0) % 65536
    (s.tellAll 0xC0B0 (noteWord q event (timeCode s.time.state) n)).modTime (fun t => { t with
      announced := q, notices := t.notices ++ [⟨q, event, timeCode t.state, n, true⟩] })

/-- The slew that the last notice announced (R356, R359). -/
def State.slewPlanned (s : State) : Bool := bit s.time.announced 2

/-- A changed quality byte is announced (R359). -/
def State.checkQuality (s : State) : State :=
  if s.tick.keystone && s.qualityNow s.slewPlanned != s.time.announced then s.announce 2 s.slewPlanned else s

/-- A change of the unit's state: the page event and the notice (R359, Table 17-9). -/
def State.timeState (s : State) (x : TimeState) : State :=
  if s.time.state = x then s
  else ((s.modTime (fun t => { t with state := x })).event .tim 0 1).announce 1 s.slewPlanned

/-- A notice written to TIM.SQ_NOTE; it becomes visible at the next commit while a tick runs (R359, R52). -/
def State.takeNote (s : State) (v : Nat) : State :=
  s.modTime (fun t => { t with
    notices := t.notices ++ [⟨bits v 7 0, bits v 11 8, bits v 14 12, bits v 31 16, s.tick.phase == .none⟩] })

/-! ### Slew and step (R354 to R356) -/

/-- The slew rate for an offset in ns/s (Table 13-3). -/
def State.rateFor (s : State) (θ : Int) : Int :=
  if θ.natAbs < 1000000 then (if θ < 0 then -1 else 1) * (1000 * s.fld R.timSlewRate 3 0)
  else if 0 < θ then 500000 else -500000

/-- A notice of an event waits for its tick. -/
def State.noticeWaits (s : State) (event : Nat) : Bool := s.time.notices.any (fun n => n.event == event)

/-- A new offset is measured: the adjustment is recomputed (R354); a step, or the start of a slew, waits for its notice's
tick (R356). In IDLE a step is made at once. -/
def State.measured (s : State) (θ : Int) : State :=
  let s1 := (s.wr R.timOffset (satS32 θ)).modTime (fun t => { t with theta := θ })
  if 1000000 ≤ θ ∧ s.flag R.timCtl 0 = true then
    if s.tick.state = .idle then (s1.setTai (s1.tai + θ)).modTime (fun t => { t with theta := 0 })
    else
      let s2 := s1.modTime (fun t => { t with stepDue := θ })
      if s.noticeWaits 3 then s2 else s2.announce 3 s.slewPlanned
  else if θ = 0 ∨ s.tick.keystone = false then s1
  else
    let s2 := s1.modTime (fun t => { t with slewRate := s.rateFor θ })
    if s.slewPlanned then s2 else s2.announce 4 true

/-- The adjustment a of a tick, at most the offset that remains, and the remainder carried on (R341, R354). -/
def State.adjust (s : State) : Int × Int :=
  if !s.time.slewing then (0, s.time.slewRemainder)
  else
    let n := s.time.slewRate * s.rd R.tckLen + s.time.slewRemainder
    let a := n.tdiv 1000000000
    if s.time.theta.natAbs ≤ a.natAbs then (s.time.theta, 0) else (a, n - a * 1000000000)

/-- A notice is due in the tick with number `c`: it is visible, and its effective tick is `c` or passed (R359). -/
def noticeDue (n : Notice) (c : Nat) : Bool := n.visible && decide ((c + 65536 - n.tick % 65536) % 65536 < 32768)

/-- The keystone's tick start with TCK.COUNT `c` (R341, R356): TAI advances by L + a, a step or a slew whose notice names
this tick takes effect, and the end of a slew is announced Q_LEAD ticks ahead. -/
def State.keystoneTai (s : State) (c : Nat) : State :=
  let due (e : Nat) : Bool := s.time.notices.any (fun n => n.event == e && noticeDue n c)
  let a := s.adjust
  let step := if due 3 then s.time.stepDue else 0
  let x := s.startTai + s.rd R.tckLen + a.1 + step
  let s1 := (s.modTime (fun t => { t with
    prevTai := s.startTai, startSec := (x / 1000000000).toNat, startNs := (x % 1000000000).toNat,
    theta := t.theta - a.1 - step, slewRemainder := a.2, stepDone := step, stepDue := t.stepDue - step,
    slewing := (t.slewing || due 4) && !due 5 }))
  let s2 := s1.setTai (max s1.tai x)
  let per := (s2.adjust).1.natAbs
  let s3 := if s2.time.slewing && s2.slewPlanned && decide (s2.time.theta.natAbs ≤ per * s.fld R.timQLead 12 0) then
      s2.announce 5 false else s2
  s3.checkQuality

/-- The step and the slew rate in ns/s applied in this tick (Table 13-5): the keystone's own, and on another device what the advance
of the markers' TAI from the last tick to this one shows beside L (log 35). -/
def State.applied (s : State) (n : Notice) : Int × Int :=
  let l : Int := s.rd R.tckLen
  let more := s.startTai - s.time.prevTai - l
  if s.tick.keystone then (s.time.stepDone, if s.time.slewing then s.time.slewRate else 0)
  else (if n.event = 3 then more else 0, if bit n.quality 2 && n.event != 3 then (more * 1000000000).tdiv (max 1 l) else 0)

/-- The TICK_TIME body of an applied notice (Table 13-5). -/
def State.tickTimeBody (s : State) (n : Notice) : List Byte :=
  let k := s.tick.keystone
  let l : Int := s.rd R.tckLen
  let bound := if k then s.boundNs.getD 0xFFFFFFFF else if n.quality / 16 = 15 then 0xFFFFFFFF else 16 * 2 ^ (n.quality / 16)
  let adv := if k then l + s.adjust.1 else s.startTai - s.time.prevTai
  leBytes 1 n.event ++ leBytes 1 n.state ++ leBytes 1 s.time.source ++ leBytes 1 (b2n k) ++ leBytes 4 (min bound 0xFFFFFFFF) ++
    leBytes 8 (if k then wrap 64 (signed32 (s.rd R.timOffset)) else 0) ++ leBytes 8 (wrap 64 (s.applied n).1) ++
    leBytes 4 (wrap 32 (s.applied n).2) ++ leBytes 4 (if k then wrap 32 s.time.freq else 0) ++ leBytes 4 (wrap 32 adv) ++
    leBytes 4 (if k then s.time.holdover / 1000000000 else 0)

/-- One notice is applied: from this tick on everything is stamped with its quality, and a TICK_TIME entry is written
(R359, R360). One that became visible after its effective tick counts in Q_LATE. -/
def State.applyNotice (s : State) (n : Notice) : State :=
  let s1 := s.when (decide (n.tick % 65536 ≠ s.tick.count % 65536)) (fun t => t.cnt R.timQLate)
  let s2 := s1.when (decide (n.quality ≠ s.time.quality)) (fun t => t.event .tim 0 2)
  let s3 := s2.modTime (fun t => { t with
    quality := n.quality, state := if s.tick.keystone then t.state else timeOf n.state })
  let s4 := s3.when (!s.tick.keystone && decide (timeOf n.state ≠ s.time.state)) (fun t => t.event .tim 0 1)
  s4.note 2 n.event 0 (s4.tickTimeBody n)

/-- NOTICE_APPLY: in the open phase, the notices whose effective tick has come are applied (R359). -/
def execNoticeApply (s : State) : Res :=
  .next (if s.tick.phase == .opening || s.tick.phase == .waiting then
    let l := s.time.notices.filter (fun n => noticeDue n s.tick.count)
    (s.each l State.applyNotice).modTime (fun t => { t with
      notices := t.notices.filter (fun n => !noticeDue n s.tick.count) })
  else s)

/-- ANCHOR: the keystone announces an anchor every ANCHOR_TICKS committed ticks (R359). -/
def execAnchor (s : State) : Res :=
  .next (if s.tick.keystone && decide (s.fld R.timAnchorTicks 23 0 ≤ s.time.anchorTicks) then
    (s.modTime (fun t => { t with anchorTicks := 0 })).announce 7 s.slewPlanned else s)

/-! ### Sources (R345 to R348) -/

/-- The time sources in priority order (Table 13-6 PRIO). -/
def State.prio (s : State) : List Nat := [s.fld R.timPrio 2 0, s.fld R.timPrio 6 4, s.fld R.timPrio 10 8]

/-- The source followed, by Table 13-5's numbers: the highest-priority trusted one, with the 10 MHz input beside PPS, or the
10 MHz input alone (R348, R351). -/
def State.chosen (s : State) : Nat :=
  match s.prio.find? (fun n => n != 0 && s.time.trusted.contains n) with
  | some 1 => if s.time.trusted.contains 5 then 2 else 1
  | some n => n
  | none => if s.time.trusted.contains 5 then 5 else 0

/-- A time source, not the 10 MHz input alone. -/
def timeSource (n : Nat) : Bool := n != 0 && n != 5

/-- The unit's source and state after a change of its trusted and qualifying sources (R348, Table 13-2). -/
def State.reselect (s : State) : State :=
  let old := s.time.source
  let new := s.chosen
  let s1 := s.modTime (fun t => { t with source := new, lockedBound := if timeSource old && !timeSource new then s.lockBound else t.lockedBound })
  let came := s1.shownState
  let s2 :=
    if timeSource new then (s1.modTime (fun t => { t with holdover := 0 })).timeState .locked
    else if s.time.state = .locked then
      let h := s1.modTime (fun t => { t with holdover := 0 })
      let g := h.timeState .holdover
      if s.time.qualifying.any timeSource then (g.modTime (fun t => { t with came := .holdover })).timeState .qualifying else g
    else if s.time.qualifying.any timeSource then
      if s.time.state = .qualifying then s1 else (s1.modTime (fun t => { t with came := came })).timeState .qualifying
    else if s.time.state = .qualifying then s1.timeState s1.time.came
    else s1
  (if old ≠ new then s2.announce 6 s2.slewPlanned else s2).checkQuality

/-- A source starts to qualify (Table 13-1). -/
def State.startQualifying (s : State) (n : Nat) : State :=
  if s.time.trusted.contains n || s.time.qualifying.contains n then s
  else (s.modTime (fun t => { t with qualifying := t.qualifying ++ [n] })).reselect

/-- A source is lost, trusted or while it qualified (Table 13-1, R348). -/
def State.loseSource (s : State) (n : Nat) : State :=
  if s.time.trusted.contains n || s.time.qualifying.contains n then
    ((s.cnt R.timRefLoss).modTime (fun t => { t with
      trusted := dropAll t.trusted n, qualifying := dropAll t.qualifying n, edgesGood := if n = 1 then 0 else t.edgesGood })).reselect
  else s

/-- REFERENCE_LOSS (R347). -/
def execReferenceLoss (src : TimeSource) (s : State) : Res :=
  .next (if s.runsTime then s.loseSource (sourceNo src) else s)

/-- QUALIFICATION_COMPLETE: the source is trusted from now on (R347). -/
def execQualificationComplete (src : TimeSource) (s : State) : Res :=
  let n := sourceNo src
  .next (if s.runsTime && !s.time.trusted.contains n then
    (s.modTime (fun t => { t with trusted := t.trusted ++ [n], qualifying := dropAll t.qualifying n })).reselect else s)

/-- The time of an edge now, with TIM.PPS_IN_COMP removed (13, References). -/
def State.edgeTime (s : State) : Int := s.tai - (signed32 (s.rd R.timPpsInComp)).tdiv 1000

/-- PPS_EDGE (R346): the edge gives a second boundary; TOD_NEXT.valid clears. An edge of a source not trusted lets it
qualify; edges missed since the last one are counted. -/
def execPpsEdge (s : State) : Res :=
  let t := s.edgeTime
  let tod : Int := ((s.rd R.timTodNextLo + s.fld R.timTodNextHi 15 0 * 2 ^ 32 : Nat) : Int)
  let sec : Int := if s.flag R.timTodNextHi 31 then tod else (t + 500000000) / 1000000000
  let s1 := s.wr R.timTodNextHi (s.rd R.timTodNextHi % 2 ^ 31)
  .next (if !s.runsTime then s1
    else
      let gap := match s.time.lastEdge with
        | some x => ((t - x + 500000000) / 1000000000 - 1).toNat
        | none => 0
      let s2 := (s1.when (gap != 0) (fun u => u.cnt R.timPpsMiss 0 gap)).modTime (fun u => { u with
        lastEdge := some t, missed := gap, edgesGood := if gap = 0 then u.edgesGood + 1 else 0 })
      if s.time.source = 1 ∨ s.time.source = 2 then s2.measured (sec * 1000000000 - t)
      else if s.prio.contains 1 then s2.startQualifying 1
      else s2)

/-- A receive timestamp of the device in ps, with PRT.ETH_ASYM added (R230). -/
def State.stampPs (s : State) (p : Nat) (t : Int) : Int := 250 * t + signed32 (s.rd R.prtEthAsym p)

/-- The mean path delay in ps that a delay exchange measures: over peers the device receives t4, end to end it receives t2 (R230,
R345). -/
def State.pathPs (s : State) (p : Nat) (peer : Bool) (t1 t2 t3 t4 : Int) : Int :=
  if peer then ((s.stampPs p t4 - 250 * t1) - (250 * t3 - 250 * t2)) / 2
  else ((s.stampPs p t2 - 250 * t1) + (250 * t4 - 250 * t3)) / 2

/-- Table 08-7 supports a message of the slave clock's on a transport: no one-step Sync over UDP/IPv6. -/
def ptpSupported (transport : Nat) (m : PtpMsg) : Bool :=
  match m with
  | .sync _ _ oneStep _ _ _ => !(oneStep && transport == 2)
  | .announce _ _ | .delay _ _ _ _ _ _ => true

/-- PTP_MESSAGE (R345): the slave-only clock of the port, where it is enabled and the domain is its own. One over a transport that
PTP_CFG does not name, or that Table 08-7 does not support, is dropped and counted (R228, R229). -/
def execPtpMessage (port : Fin 16) (m : PtpFrame) (s : State) : Res :=
  let n := if port.val = 14 then 3 else 4
  let eth := (s.port port).ethernet && (s.port port).ethUp
  let on := decide (14 ≤ port.val) && s.flag R.timPtpCfg (port.val - 2) && eth && s.runsTime
  let wrong := m.transport.val != s.fld R.timPtpCfg 9 8 || !ptpSupported m.transport m.msg
  let domain := s.fld R.timPtpCfg 7 0
  let classMax := s.fld R.timPtpCfg 23 16
  .next (if eth && wrong then s.cnt R.prtEthDrop port
    else if !on then s
    else match m.msg with
      | .announce d k =>
        if d ≠ domain then s
        else if classMax < k then (s.modTime (fun t => { t with clockClass := k })).loseSource n
        else (s.modTime (fun t => { t with clockClass := k })).startQualifying n
      | .sync d k _ sec ns rx =>
        if d ≠ domain then s
        else if classMax < k then s.loseSource n
        else if s.time.source = n then
          s.measured ((((sec : Int) * 1000000000 + ns) * 1000 + s.time.meanPath - s.stampPs port rx).tdiv 1000)
        else s.startQualifying n
      | .delay d peer t1 t2 t3 t4 =>
        if d ≠ domain ∨ peer ≠ s.flag R.timPtpCfg 10 then s
        else s.modTime (fun t => { t with meanPath := (s.pathPs port peer t1 t2 t3 t4).toNat }))

/-! ### Steering (R349, R350) -/

/-- A value within ± `n`. -/
def clampInt (n x : Int) : Int := max (-n) (min n x)

/-- The DAC code after a correction in 0.001 ppb (R349, R350): the gain is 0.001 ppb per code; with gain 0 the spec states
no code, and it is a free value within the limits (log 4). -/
def State.dacStep (s : State) (d : Int) : State :=
  let gain := sext 16 (s.fld R.timDacCfg 31 16)
  let old := s.fld R.timDacCode 15 0
  let lo := s.fld R.timDacLim 15 0
  let hi := s.fld R.timDacLim 31 16
  let want : Int := if gain = 0 then ((Config.freeWord s.freeCtr).toNat % 65536 : Nat) else (old : Int) + d.tdiv gain
  let code := (max (lo : Int) (min (hi : Int) want)).toNat
  let s1 := if gain = 0 then s.draw else s
  if code = old then s1
  else (s1.wr R.timDacCode code).send (.dac (if s.flag R.timDacCfg 8 then some (s.fld R.timDacCfg 7 0) else none) code)

/-- LOOP_UPDATE: once per second the loop corrects the frequency error it has estimated, in 0.001 ppb (R349): by at most
2 ppb, and digitally within ±100 ppm. -/
def execLoopUpdate (err : Int) (s : State) : Res :=
  .next (if !s.runsTime || s.time.source == 0 then s
    else
      let f := clampInt 100000000 (s.time.freq + clampInt 2000 err)
      let s1 := s.modTime (fun t => { t with freq := f })
      if s.flag R.timCtl 1 then s1.dacStep (clampInt 2000 err) else s1)

/-- HOLDOVER_LIMIT: the holdover timer reaches TIM.HO_LIMIT (Table 13-2). -/
def execHoldoverLimit (s : State) : Res :=
  let full (t : TimeUnit) : TimeUnit := { t with holdover := max t.holdover (s.fld R.timHoLimit 23 0 * 1000000000) }
  .next (if s.time.state = .holdover then ((s.modTime full).timeState .freeRun).checkQuality
    else if s.time.state = .qualifying ∧ s.time.came = .holdover then
      ((s.modTime full).modTime (fun t => { t with came := .freeRun })).checkQuality
    else s)

/-! ### The PPS output (R353) -/

/-- PPS_OUTPUT: a second boundary of the device's own time. -/
def execPpsOutput (s : State) : Res :=
  let t := s.tai
  .next (if s.flag R.timCtl 2 = false ∨ s.time.have_ = false ∨ (s.shownState = .freeRun ∧ s.flag R.timCtl 3 = true) then s
    else match s.time.lastPulse with
      | some x => if t < x + 500000000 then s.cnt R.timPpsOutSkip
          else s.modTime (fun u => { u with ppsOut := true, lastPulse := some t })
      | none => s.modTime (fun u => { u with ppsOut := true, lastPulse := some t }))

/-- PPS_OUT_END: TIM.PPS_WIDTH has passed since the pulse began (R353). -/
def execPpsOutEnd (s : State) : Res := .next (s.modTime (fun t => { t with ppsOut := false }))

/-! ### Setting and latching (R357, Table 13-6) -/

/-- TIM.CMD.set (R357): once after each reset, only in IDLE, and a legal time; false where it is refused. -/
def State.timeMaySet (s : State) : Bool :=
  !s.time.setDone && s.tick.state == .idle && decide (s.rd R.timSetNs < 1000000000)

/-- The set itself. -/
def State.setTime (s : State) : State :=
  s.modTime (fun t => { t with
    sec := s.rd R.timSetSecLo + s.fld R.timSetSecHi 15 0 * 2 ^ 32, ns := s.rd R.timSetNs, setDone := true })

/-- TIM.CMD.latch: NOW holds the device's time (Table 13-6). -/
def State.latchTime (s : State) : State :=
  ((s.wr R.timNowSecLo s.time.sec).wr R.timNowSecHi (s.time.sec / 2 ^ 32)).wr R.timNowNs s.time.ns

/-- A backup keystone takes over the time (R344). -/
def State.takeoverTime (s : State) : State :=
  let free := s.time.quality % 4 == 2
  let s1 := s.modTime (fun t => { t with
    state := if free then .freeRun else .holdover, holdover := 0, source := 0, trusted := [], qualifying := [], theta := 0,
    slewing := false, slewRate := 0, stepDue := 0, slewRemainder := 0, announced := t.quality,
    lockedBound := 16 * 2 ^ (t.quality / 16 % 16) })
  s1.announce 8 false

end Sys2Proof.Machine
end

