-- ==== Sys2Proof/Machine/Seal.lean ====
section
/-!
DEFINITION. The end of an attempt (02 R45 to R57): the local verdict and the vote, the commit with everything that takes
effect at it, and the undoing of an attempt.
-/
namespace Sys2Proof.Machine

/-! ### Keystone and backup (R19, R36) -/

/-- The keystone and the backup that TCK.KS_CFG designates. -/
def State.cfgKeystone (s : State) : Nat := bits (s.inForce R.tckKsCfg) 10 0
def State.cfgBackup (s : State) : Nat := bits (s.inForce R.tckKsCfg) 26 16

/-- The device is in spare role (Table 01-2). -/
def State.isSpare (s : State) : Bool := bit (s.inForce R.spnRole) 4

/-- The device is the backup keystone: designated beside another device, no spare, and not the keystone (R19, R36). -/
def State.isBackup (s : State) : Bool :=
  s.image.loaded && s.cfgBackup == s.self && s.cfgBackup != s.cfgKeystone && !s.tick.keystone && !s.isSpare

/-- The keystone has a backup: after a takeover it has none until another is designated (R42). -/
def State.hasBackup (s : State) : Bool := s.cfgBackup != s.cfgKeystone && s.cfgBackup != s.self

/-- The port of the direct link to a device (R36). -/
def State.linkTo (s : State) (dev : Nat) : Option Nat := s.upPorts.find? (fun p => (s.port p).expected == some dev)

/-! ### Faults found at seal start (R53, Table 02-6) -/

/-- A tenant whose context is not dead or being killed (R89). -/
def State.counts (s : State) (t : Nat) : Bool := !s.ctxDead t

/-- Contexts of a cluster that have not reached their end-of-tick word; the lease context is 8 (R172). -/
def State.lateCtxs (s : State) (c : Nat) : List Nat :=
  (List.range 9).filter (fun k =>
    ((s.ctx c k).state == .run || (s.ctx c k).state == .wait) && (k == 8 || s.counts (s.ctxEntry c k).tenant))

/-- An engine runs or holds a descriptor that counts. -/
def State.engineLate (s : State) (e : Engine) : Bool :=
  (e.running.toList ++ e.queued.toList).any (fun d => s.counts d.tenant)

/-- A group that waits for beyond-quad responses (R82). -/
def Group.onResponses (x : Group) : Bool :=
  match x.wait with
  | .response => true
  | .fence _ => x.remote != 0
  | .ready | .counter _ _ => false

/-- A cluster's unretired groups that count (Table 02-6). -/
def State.lateGroups (s : State) (c : Nat) : List Group :=
  ((s.cluster c).groups.map (·.2)).filter (fun g => s.counts g.tenant)

/-- A cluster's thread copies in flight that count. -/
def State.lateCopies (s : State) (c : Nat) : List ThreadCopy := (s.cluster c).copies.filter (fun x => s.counts x.tenant)

/-- An engine's descriptors that count. -/
def State.lateDescs (s : State) (e : Engine) : List Desc :=
  (e.running.toList ++ e.queued.toList).filter (fun d => s.counts d.tenant)

/-- Work of a cluster is not finished (Table 02-6, OVERRUN). Groups that wait for beyond-quad responses are no cause on their
own (R82). -/
def State.overran (s : State) (c : Nat) : Bool :=
  let k := s.cluster c
  !(s.lateCtxs c).isEmpty || (s.lateGroups c).any (fun g => !g.onResponses) || !(s.lateCopies c).isEmpty ||
    !(s.lateDescs k.tensor).isEmpty || !(s.lateDescs k.vector).isEmpty || !(s.lateDescs k.copier).isEmpty

/-- The late context's next word, captured in the SEQ page; the lowest index where several are late (R172). -/
def State.lateWord (s : State) (c : Nat) : List (Nat × Viol) :=
  match s.lateCtxs c with
  | [] => []
  | k :: _ => [(pageNo .seq c, ⟨1, 6, if k = 8 then 0 else (s.ctxEntry c k).tenant, 0, s.codeAddr c k (s.ctx c k).pc⟩)]

/-- What the pages of a cluster that overran log (R53, R172): the late context; each group not retired, at its next instruction,
and each copy, at its CPY, in TGP (03, When things go wrong); descriptors in their engine's page, the copy engine's in SEQ
(log 45). -/
def State.lateWork (s : State) (c : Nat) : List (Nat × Viol) :=
  let k := s.cluster c
  let desc (p : PageType) (src : Nat) (e : Engine) : List (Nat × Viol) :=
    (s.lateDescs e).map (fun d => (pageNo p c, ⟨1, src, d.tenant, 0, s.codeAddr c d.ctx d.addr⟩))
  s.lateWord c ++ (s.lateGroups c).map (fun g => (pageNo .tgp c, ⟨1, 7, g.tenant, 0, s.instrAddr c g⟩)) ++
    (s.lateCopies c).map (fun x => (pageNo .tgp c, ⟨1, 10, x.tenant, 0, x.addr⟩)) ++
    desc .ten 8 k.tensor ++ desc .vec 9 k.vector ++ desc .seq 10 k.copier

/-- The clusters that overran. -/
def State.overruns (s : State) : List Nat := (s.clusters.map (·.1)).filter s.overran

/-- The first outlet of the device, in collection order (R320). -/
def State.firstOutlet (s : State) : Option (StreamClass × Nat × Nat) :=
  (s.image.classes.flatMap (fun k => k.outlets.map (fun o => (k, o)))).head?

/-- An outlet collection still in flight (Table 02-6, OVERRUN): its cluster, and what PUB logs (R320). -/
def State.collectLate (s : State) : Option (Nat × Viol) :=
  if s.svc.collecting then
    s.firstOutlet.map (fun o => (o.2.1, ⟨1, 13, o.1.tenant, 0,
      spanScratch s.self o.2.1 (spdMap (s.entry o.2.1 o.2.2) 0 (hReadHalf (s.entry o.2.1 o.2.2)))⟩))
  else none

/-- The violation of a lost slot, in FAB (log 45): the kind 0 address that its first missing segment was to be written to, or
none where no context has armed it (Table 17-7). -/
def State.slotViol (s : State) (id : Nat) : Viol :=
  let x := s.slotEntry id
  match s.armedOf id false with
  | some a => ⟨2, 16, x.owner, 0, spanScratch s.self a.cluster
      (spdMap (s.entry a.cluster a.handle) (a.offset + (s.missing a).headD 0 * 65536) 0)⟩
  | none => ⟨2, 16, x.owner, 2, 0⟩

/-- Confirmed requests of threads with no response (Table 02-6, FREE_TIMEOUT): tenant and address. -/
def State.requestsLate (s : State) : List (Nat × Nat) :=
  (s.fabric.pending.filter (fun p => !p.discarded && p.use.ofThread)).map (fun p => (p.tenant, p.addr)) ++
    (s.fabric.sendq.filter (fun r => r.use.ofThread)).map (fun r => (r.tenant, r.access.addr))

/-- OVERRUN and SLOT_LOST that a halt causes fail nothing: in tick-stretch mode, once a group was halted in the attempt
(R59). -/
def State.excused (s : State) : Bool := s.tick.stretchEff && (s.tick.haltSeen || s.anyHalted)

/-- What the pages log of the faults that seal start finds, all in one clk (R7, R53). The spec names TCK.FAULT alone, or
SAF.GATE_CAUSE, for SLOT_LOST, an ECC_UE of hub SRAM, FREE_TIMEOUT, VIADUCT_UE, the ledger ring's EGRESS_FULL and VALID_GATE; their pages and
sources are the model's: FAB 16, FAB 13, FAB 7, FAB 16, LDG 13, SAF 15 (log 45). -/
def State.sealViols (s : State) : List (Nat × Viol) :=
  (if s.excused then [] else
    s.overruns.flatMap s.lateWork ++ s.collectLate.toList.map (fun x => (pageNo .pub 0, x.2)) ++
      s.lostSlots.map (fun x => (pageNo .fab 0, s.slotViol x.1))) ++
    (if s.tick.hubUe then [(pageNo .fab 0, ⟨3, 13, 0, 2, 0⟩)] else []) ++
    s.requestsLate.map (fun x => (pageNo .fab 0, ⟨4, 7, x.1, 0, x.2⟩)) ++
    (if s.tick.viaductUe then [(pageNo .fab 0, ⟨7, 16, 0, 2, 0⟩)] else []) ++
    (if s.ledgerFull then [(pageNo .ldg 0, ⟨9, 13, 0, 2, 0⟩)] else []) ++
    (if s.tick.gateSeen then [(pageNo .saf 0, ⟨0xA, 15, 0, 2, 0⟩)] else [])

/-- The tick faults that seal start finds, in ascending code (R53, R333, R398). -/
def State.sealCodes (s : State) : List TickFault :=
  (if s.excused then [] else
    s.overruns.map (fun c => ⟨1, .cluster c⟩) ++ s.collectLate.toList.map (fun x => ⟨1, .cluster x.1⟩) ++
      s.lostSlots.map (fun x => ⟨2, .link x.2⟩)) ++
    (if s.tick.hubUe then [⟨3, .device⟩] else []) ++
    (if s.requestsLate.isEmpty then [] else [⟨4, .none⟩]) ++ (if s.tick.viaductUe then [⟨7, .device⟩] else []) ++
    (if s.ledgerFull then [⟨9, .none⟩] else []) ++ (if s.tick.gateSeen then [⟨0xA, .device⟩] else [])

/-- The faults that a halt causes in tick-stretch mode, counted in TCK.DBG_CNT (R59). -/
def State.haltCount (s : State) : Nat :=
  if s.excused then s.overruns.length + s.collectLate.toList.length + s.lostSlots.length else 0

/-- Seal start finds its faults: logged together, recorded in ascending code, and the attempt's slots and collection are over
(R53). -/
def State.sealFaults (s : State) : State :=
  let s1 := (s.logTogether s.sealViols).each s.sealCodes (fun t f => t.sealFault f.code f.unit)
  ((s1.cnt R.tckDbgCnt 0 s.haltCount).slotsOver).modSvc (fun v => { v with collecting := false })

/-! ### Votes (R46, R56) -/

/-- The key of a unit in the counts of failed attempts. -/
def unitKey (u : FaultUnit) : Option Nat :=
  match u with
  | .cluster c => some c
  | .link p => some (512 + p)
  | .device => some 528
  | .none => none

/-- One more failed attempt for each unit that these faults charge (R56). -/
def State.countFails (s : State) (l : List TickFault) : State :=
  s.modTick (fun t => { t with
    fails := ((l.filterMap (fun f => unitKey f.unit)).dedup).foldl (fun m k => mput m k (mget 0 m k + 1)) t.fails })

/-- A vote that nothing failed. -/
def VoteSum.pass : VoteSum := ⟨false, false, 0, 0, 0, 0⟩

/-- The lower-numbered failing unit of two votes: by device, then unit (log 25). -/
def VoteSum.lower (a b : VoteSum) : Bool := decide (a.device < b.device) || (a.device == b.device && decide (a.unit ≤ b.unit))

/-- Two votes merged (R46). -/
def VoteSum.merge (a b : VoteSum) : VoteSum :=
  let w := if !a.fail then b else if !b.fail then a else if a.lower b then a else b
  ⟨a.fail || b.fail, a.escalate || b.escalate, min 4095 (a.count + b.count), w.code, w.unit, w.device⟩

/-- The device's own vote: its faults, and escalate where a unit has failed TCK.CTL.rerun_limit attempts (R46, R56). A missing
child's failure is counted as the child's. -/
def State.ownVote (s : State) : VoteSum :=
  let l := sortBy (fun (a b : TickFault) => decide (unitField a.unit ≤ unitField b.unit)) s.tick.faults
  let esc := s.tick.fails.any (fun p => decide (s.fld R.tckCtl 3 0 ≤ p.2))
  match l with
  | [] => ⟨false, esc, 0, 0, 0, 0⟩
  | f :: _ => ⟨true, esc, b2n (s.tick.faults.any (fun x => x.code != 6)) + (s.tick.faults.filter (fun x => x.code == 6)).length,
      f.code, unitField f.unit, s.self⟩

/-- The vote frame of a sum. -/
def State.voteOf (s : State) (v : VoteSum) : Vote :=
  ⟨s.tick.count, s.tick.attempt, 0, v.fail, v.escalate, 0, false, v.count, v.code, v.unit, v.device⟩

/-- The keystone decides (Table 02-5, R56, R65, R384): STOP on escalate or at the attempt cap, or where it is asked for; else
RERUN on a failure; else COMMIT. TCK.FAULT at the keystone names the failing unit (R279). The verdict goes to the backup
for its echo (R47). -/
def State.reachVerdict (s : State) (v : VoteSum) : State :=
  let n := if v.escalate || decide (s.fld R.tckCtl 23 16 ≤ s.tick.attempt) then 3
    else if v.fail then (if s.tick.stopAsked && !s.power.dozeAsked then 3 else 2)
    else if s.tick.stopAsked then 3 else 1
  let s1 := s.modTick (fun t => { t with
    decision := some n, echoed := false,
    faultReg := if v.fail then w32 (v.code % 256 + v.unit % 1024 * 2 ^ 8 + v.device % 2048 * 2 ^ 21) else t.faultReg })
  if s.hasBackup then match s.linkTo s.cfgBackup with
    | some p => s1.sendVote p ⟨s.tick.count, s.tick.attempt, 1, false, false, n, false, 0, 0, 0, 0⟩
    | none => s1
  else s1

/-- The merged vote goes up: to the parent, or at the keystone it is decided on (R46). -/
def State.sendUp (s : State) : State :=
  let v := s.tick.votes.merge s.ownVote
  let s1 := s.modTick (fun t => { t with voteSent := true })
  if s.tick.keystone then s1.reachVerdict v else s1.sendVote s.parentPort (s.voteOf v)

/-- Every known child has reported (R46). -/
def State.allReported (s : State) : Bool := s.tick.treeKnown && s.tick.children.all (fun p => s.tick.reported.contains p)

/-- The vote goes once the device's own verdict is fixed and every child has reported. -/
def State.tryVote (s : State) : State :=
  if s.tick.phase == .sealing && !s.tick.voteSent && s.allReported then s.sendUp else s

/-- At the seal the ID of a block that nothing joined is free (R76). -/
def State.freeBlocks (s : State) : State :=
  { s with clusters := s.clusters.map (fun p => (p.1, { p.2 with
    blocks := p.2.blocks.filter (fun b => b.2.groups != 0 || b.2.copies != 0) })) }

/-- Seal start: the local verdict is fixed; a step up that an OVERRUN asked for is taken at the seal after it (R45, R377). -/
def State.localVerdict (s : State) : State :=
  let s1 := s.sealFaults.freeBlocks
  let s2 := (s1.overrunSteps).noteOverruns
  ((s2.countFails s2.tick.faults).modTick (fun t => { t with phase := .sealing })).tryVote

/-- The vote deadline: a child that has not reported counts as failed (R46). -/
def State.voteDeadline (s : State) : State :=
  if s.tick.phase != .sealing || s.tick.voteSent then s
  else
    let l := s.tick.children.filter (fun p => !s.tick.reported.contains p)
    let s1 := s.each l (fun t p => (t.violate .tck 0 ⟨6, 16, 0, 2, 0⟩).sealFault 6 (.link p))
    ((s1.countFails (l.map (fun p => ⟨6, .link p⟩))).modTick (fun t => { t with treeKnown := true })).sendUp

/-! ### The commit (R33, R48, R90, R156, R169, R195) -/

/-- A tenant's paired entries toggle cur: it took its turn, was not killed and is not dead, and one of its contexts was not
HALTED (R195, R90). -/
def State.toggles (s : State) (t : Nat) : Bool :=
  s.inTurn t && !s.ctxDead t && s.clusters.any (fun p => p.2.ctxTab.any (fun e =>
    decide (e.1 < 8) && e.2.used && e.2.tenant == t && (mget Ctx.reset p.2.ctxs e.1).state != .halted))

/-- Toggle cur of the valid paired entries of owners in `l`. -/
def Cluster.toggle (k : Cluster) (l : List Nat) : Cluster :=
  { k with handles := k.handles.map (fun p =>
      if hType p.2 != 0 && hKind p.2 == 1 && l.contains (hOwner p.2) then (p.1, hSetCur p.2 (1 - hCur p.2)) else p) }

/-- The toggles of a commit. -/
def State.toggleCur (s : State) : State :=
  let l := (List.range 256).filter s.toggles
  { s with clusters := s.clusters.map (fun p => (p.1, p.2.toggle l)) }

/-- A killed tenant's context after the commit: DEAD, with what it held at the attempt's start (R89, R90). -/
def Ctx.asDead (x : Ctx) : Ctx := if x.state = .dead then x else { x with state := .dead, prior := x.state, wait := .none, hold := 0 }

/-- A context that a restart brings back (R90). -/
def Ctx.revive (x : Ctx) : Ctx := if x.state = .dead then { x with state := x.prior, wait := .none, hold := 0 } else x

/-- The contexts of tenants in `l` changed; `f` takes the index and the context. -/
def Cluster.mapCtxs (k : Cluster) (l : List Nat) (f : Nat → Ctx → Ctx) : Cluster :=
  { k with ctxs := k.ctxs.map (fun p =>
      if decide (p.1 < 8) && l.contains (mget CtxEntry.reset k.ctxTab p.1).tenant then (p.1, f p.1 p.2) else p) }

/-- Kills of a committing attempt stay, and restarts asked for bring dead tenants back (R89, R90). A restart written in the very
attempt that kills the tenant is dropped (log 47). -/
def State.settleDead (s : State) : State :=
  let back := s.tick.restarts.filter (fun t => s.tick.dead.contains t && !s.tick.killed.contains t && !(s.fn t).zeroing)
  { s with
    clusters := s.clusters.map (fun p => (p.1, (p.2.mapCtxs s.tick.killed (fun i _ =>
      (mget Ctx.reset p.2.saved.ctxs i).asDead)).mapCtxs back (fun _ x => x.revive))),
    tick := { s.tick with
      dead := (s.tick.killed.foldl addOnce s.tick.dead).filter (fun t => !back.contains t), killed := [], killCodes := [],
      restarts := [] } }

/-- A context that advances to its next program, DONE or OFF (R169, R275). -/
def State.advanceCtx (s : State) (c k : Nat) (r : Nat) : State :=
  let x := s.ctx c k
  let e := s.ctxEntry c k
  if x.state = .halted ∧ x.program + 1 < e.programs then
    s.setCtx c k { x with
      program := x.program + 1, pc := leNat (s.bytes (s.codeAt c k (e.list + 4 * (x.program + 1))) 4),
      state := if r = 0 then .done else .off }
  else s

/-- Refresh ticks of a tenant's program (R275). -/
def State.refreshTicks (s : State) (t p : Nat) : Nat :=
  ((s.image.refreshes.find? (fun r => r.tenant == t && r.program == p)).map (·.ticks)).getD 0

/-- The tenant contexts of a tenant, by cluster and index. -/
def State.ctxsOf (s : State) (t : Nat) : List (Nat × Nat) := s.clusters.flatMap (fun p => (p.2.ctxsOf t).map (fun k => (p.1, k)))

/-- A tenant's program boundary (R169, R275, R331). -/
def State.boundary (s : State) (t : Nat) : State :=
  let p := mget 0 s.image.epochs t + 1
  let r := s.refreshTicks t p
  let s1 := s.each (s.ctxsOf t) (fun u x => u.advanceCtx x.1 x.2 r)
  let s2 : State := { s1 with image := { s1.image with
    epochs := mput s1.image.epochs t p, staging := if r = 0 then merase s1.image.staging t else mput s1.image.staging t r } }
  s2.ledgerEvent (4 * 256 + 8, t, [])

/-- A staging refresh counts the committed ticks of its tenant's turn; with the last its contexts are DONE (R275). -/
def State.stage (s : State) : State :=
  s.each s.image.staging (fun u p =>
    if !u.turn p.1 u.tick.count then u
    else if 1 < p.2 then { u with image := { u.image with staging := mput u.image.staging p.1 (p.2 - 1) } }
    else
      let v : State := { u with image := { u.image with staging := merase u.image.staging p.1 } }
      v.each (v.ctxsOf p.1) (fun w x => if (w.ctx x.1 x.2).state = .off then
        w.setCtx x.1 x.2 { w.ctx x.1 x.2 with state := .done } else w))

/-- The placement in effect, with its lengths where it changes (R255, R281). -/
def State.takePlacement (s : State) : State :=
  let n := bits (s.inForce R.fabCtl) 3 0
  if n = s.fabric.detour then s
  else
    let s1 := s.modFab (fun f => { f with detour := n })
    match s.image.lengths[n]? with
    | some l => ((s1.wr R.tckLen l.1).wr R.tckRepair l.2.1).wr R.tckFreeTotal l.2.2
    | none => s1

/-- A pending role set is taken: SPN.ROLE.pending clears (R17). -/
def State.takeRole (s : State) : State :=
  s.when (s.flag R.spnRole 7) (fun t => t.wr R.spnRole (t.fld R.spnRole 4 0))

/-- A device in spare role is no keystone (R19): one that becomes spare stops emitting. -/
def State.spareStops (s : State) : State :=
  if s.isSpare then s.modTick (fun t => { t with keystone := false, starting := 0 }) else s

/-- Every write that waited for a seal comes into force (R33, R450). -/
def State.takeAll (s : State) : State := s.takeRole.takeEffect.takePlacement.spareStops

/-- The register keys of SPN.ROLE, SPN.SUBST and FAB.CTL.detour_sel (R281). -/
def resumedKey (k : Nat) : Bool :=
  match pageAt (k / 1024 % 65536) with
  | some (.spn, _) => k % 1024 * 4 == 0x48 || decide (0xF0 ≤ k % 1024 * 4)
  | some (.fab, _) => k % 1024 * 4 == 0x40
  | _ => false

/-- The writes that R281 names come into force as an attempt resumes from HOLD; every other one waits for the next committing
seal (R33; log 46). -/
def State.takeResumed (s : State) : State :=
  let s1 := s.takeRole
  ({ s1 with eff := (s1.regs.filter (fun p => deferredKey p.1 && resumedKey p.1)).foldl (fun m p => mput m p.1 p.2) s1.eff
    } : State).takePlacement.spareStops

/-- What a re-run restores of every cluster (R55, R156). -/
def State.snapshot (s : State) : State :=
  { s with clusters := s.clusters.map (fun p => (p.1, { p.2 with saved := ⟨p.2.ctxs, p.2.leases, p.2.sr⟩ })) }

/-- SEQ.SLACK of the committed tick; all ones with no live context, and where no live context has reached a word that
contributes (R173; log 47). -/
def State.keepSlack (s : State) : State :=
  { s with clusters := s.clusters.map (fun p => (p.1, { p.2 with slack := p.2.slackNow.getD 0xFFFFFF })) }

/-- The tick in progress commits (R48, R33). The cur bits toggle before written entries come into force, so a new paired entry
keeps its cur (log 47). Groups of a stretched attempt that are not retired stay (log 47). -/
def State.commitTick (s : State) : State :=
  let s1 := s.toggleCur.commitServices.selfCheckCommit
  let s2 := s1.each [0, 1, 2, 3] State.steerQuarter
  let s3 := s2.keepSlack.stage.settleDead
  let s4 := (s3.each s3.tick.advances State.boundary).takeAll
  let s5 := s4.each (s4.clusters.map (·.1)) State.entriesInForce
  let s6 := (s5.modTick (fun t => { t with
    count := t.count + 1, undecided := false, fails := [], advances := [] })).snapshot
  ({ s6 with written := [] } : State).modTime (fun t => { t with
    anchorTicks := t.anchorTicks + 1, notices := t.notices.map (fun n => { n with visible := true }) })

/-! ### Undoing an attempt (R48, R55) -/

/-- A cluster as it was at the attempt's start; dead tenants' contexts stay DEAD (R55, R90). -/
def Cluster.restore (k : Cluster) (dead : List Nat) : Cluster :=
  { k with
    ctxs := k.saved.ctxs, leases := k.saved.leases, grants := [], sr := k.saved.sr, groups := [], active := [], blocks := [], copies := [],
    arrivals := [],
    tensor := ⟨none, none⟩, vector := ⟨none, none⟩, copier := ⟨none, none⟩, slackNow := none }.mapCtxs dead (fun _ x => x.asDead)

/-- The attempt is undone: what Table 02-6's faults, or a STOP, leave of it is discarded (R55). Responses to its requests are
discarded as they arrive. -/
def State.undoTick (s : State) : State :=
  let s1 : State := { s with
    clusters := s.clusters.map (fun p => (p.1, p.2.restore s.tick.dead)), written := [],
    fabric := { s.fabric with
      pending := s.fabric.pending.map (fun p => match p.use with
        | .record _ _ | .mgmt _ => p
        | _ => { p with discarded := true }),
      sendq := s.fabric.sendq.filter (fun r => match r.use with
        | .record _ _ | .mgmt _ => true
        | _ => false),
      atomics := [], armed := [], replays := [], bad := [] } }
  (s1.undoServices).modTick (fun t => { t with undecided := false, killed := [], killCodes := [] })

end Sys2Proof.Machine
end

