-- ==== Sys2Proof/Machine/Flags.lean ====
section
/-!
DEFINITION. What the status registers show: the value of every register whose content is not stored in the register file
but follows from the block's state (Tables 02-7, 03-7, 05-11, 06-11, 07-4, 08-11, 09-14, 10-5, 11-9 to 11-11, 12-7, 13-6,
14-8, 15-9, 16-11, 17-1, 17-5, 17-6 and 17-10). Offsets are those of the tables.
-/
namespace Sys2Proof.Machine

/-- The word of which bit `i` is `f i`, for `i` below `n`. -/
def bitWord (n : Nat) (f : Nat → Bool) : Nat := natSum ((List.range n).map (fun i => b2n (f i) * 2 ^ i))

/-- Word `i` of a number, 32 bits each, the least significant first. -/
def word32 (v i : Nat) : Nat := v / 2 ^ (32 * i) % 2 ^ 32

/-! ### The tick and the span (02, 17) -/

/-- TCK.STS.state's code (Table 02-7). -/
def tickCode (x : TickState) : Nat :=
  match x with
  | .idle => 0
  | .run => 1
  | .hold => 2
  | .stretch => 3

/-- Status registers of the TCK page (Table 02-7). -/
def State.liveTck (s : State) (off : Nat) : Option Nat :=
  match off with
  | 0x050 => some (word32 s.tick.count 0)
  | 0x054 => some (word32 s.tick.count 1)
  | 0x058 => some (tickCode s.tick.state + 8 * b2n s.tick.undecided + 16 * (s.tick.attempt % 16))
  | 0x060 => some (s.tick.epoch % 65536)
  | 0x064 => some s.tick.faultReg.toNat
  | _ => none

/-- SPN.ROLE: the roles written, the designations, and whether a written role set waits for its seal (R17, Table 01-2). -/
def State.roleReg (s : State) : Nat :=
  s.fld R.spnRole 4 0 + 32 * b2n s.tick.keystone + 64 * b2n s.isBackup +
    128 * b2n (s.flag R.spnRole 7)

/-- Status registers of the SPN page (Table 17-5). -/
def State.liveSpn (s : State) (off : Nat) : Option Nat :=
  match off with
  | 0x044 => some (b2n s.tick.detEff + 2 * b2n s.image.loaded)
  | 0x048 => some s.roleReg
  | 0x04C => some (b2n s.image.admitDone + 2 * b2n s.image.admitPass + 256 * (s.image.admitCheck % 256) +
      65536 * (s.image.admitItem % 65536))
  | 0x060 => some s.self
  | _ =>
    if 0x070 ≤ off ∧ off < 0x090 then some (bitWord 32 (fun j => s.tick.dead.contains (8 * (off - 0x070) + j))) else none

/-- Status registers of the FAB page (Table 09-14). -/
def State.liveFab (s : State) (off : Nat) : Option Nat :=
  if off = 0x044 then some (s.fabric.detour % 16 + 16 * b2n (s.fld R.fabCtl 3 0 != s.fabric.detour)) else none

/-- Status registers of the WLD page (Table 10-5): the section is done once it has been checked, the state with every byte of
the state list. -/
def State.liveWld (s : State) (off : Nat) : Option Nat :=
  match off with
  | 0x040 => some (s.load.verdict % 4 + 4 * b2n s.image.admitDone +
      8 * b2n (s.image.loaded && decide (natSum (s.image.stateExtents.map (·.len)) ≤ s.load.stateBytes)) +
      16 * b2n s.load.clustersShort + 65536 * (s.load.firstBad % 65536))
  | 0x044 => some (word32 s.load.shareBytes 0)
  | 0x048 => some (word32 s.load.shareBytes 1)
  | _ => none

/-! ### The host port and the services (11, 12, 17) -/

/-- Slots of a function in a state (Table 11-6): 1 PENDING, 2 PUBLISHED, 3 FAULTED. -/
def State.slotCount (s : State) (fn st : Nat) : Nat := ((s.fn fn).slots.filter (fun p => p.2.state == st)).length

/-- Status registers of the SLT page (Table 17-6). -/
def State.liveSlt (s : State) (off : Nat) : Option Nat :=
  let fn := s.fld R.sltFnSel 7 0
  match off with
  | 0x044 => some (s.slotCount fn 1 + 65536 * s.slotCount fn 2)
  | 0x048 => some (s.slotCount fn 3)
  | _ => none

/-- Status registers of a function page (Table 11-9); LINK shows what the link trained to while it is up. -/
def State.liveHst (s : State) (n off : Nat) : Option Nat :=
  match off with
  | 0x040 => some (b2n (s.fn n).ready + 2 * b2n (s.fn n).flr + 4 * b2n (s.fn n).zeroing)
  | 0x050 => some (s.held n)
  | 0x060 => some (if s.host.linkUp then s.linkTrained else 0)
  | _ => none

/-- Status registers of a queue page (Table 11-10). -/
def State.liveHsq (s : State) (i off : Nat) : Option Nat :=
  let x := s.queue (i / 64) (i % 64)
  match off with
  | 0x060 => some ((match x.state with | .off => 0 | .run => 1 | .stopped => 2) + 256 * (x.status % 256))
  | 0x064 => some (x.head % 65536)
  | 0x068 => some (x.ringTail % 65536 + 65536 * b2n x.phase)
  | 0x070 => some (word32 x.faultVa 0)
  | 0x074 => some (word32 x.faultVa 1)
  | 0x078 => some (word32 x.faultEntry 0)
  | 0x07C => some (word32 x.faultEntry 1)
  | 0x080 => some x.faultCode.toNat
  | _ => none

/-- Status registers of the LDG page (Table 12-7, R333): near_full from 6,144 waiting entries. -/
def State.liveLdg (s : State) (off : Nat) : Option Nat :=
  if off = 0x054 then
    some (min 8191 s.svc.ledger.length + 65536 * b2n (decide (6144 ≤ s.svc.ledger.length)) + 131072 * b2n s.ledgerRingFull)
  else none

/-- Result bytes of finished streams whose digests are not complete (R338). -/
def State.resultBacklog (s : State) : Nat :=
  natSum ((s.svc.streams.filter (fun p => p.2.finished && !p.2.released)).map (fun p => p.2.output.length))

/-- Status registers of the PRV page (Table 17-6, R270). -/
def State.livePrv (s : State) (off : Nat) : Option Nat :=
  if off = 0x040 then
    some (b2n (s.load.verdict == 1) + 2 * b2n (s.svc.streams.any (fun p => p.2.finished && !p.2.released)))
  else if off = 0x044 then some (Config.loadRate s.power.uptime).toNat
  else if 0x048 ≤ off ∧ off < 0x068 then some (leAt s.image.imgDigest (off - 0x048) 4)
  else if 0x068 ≤ off ∧ off < 0x088 then some (leAt s.image.wgtDigest (off - 0x068) 4)
  else if off = 0x08C then some (min cntMax s.resultBacklog)
  else none

/-! ### Time and power (13, 14) -/

/-- Status registers of the TIM page (Table 13-6). -/
def State.liveTim (s : State) (off : Nat) : Option Nat :=
  let t := s.time
  match off with
  | 0x044 => some (timeCode t.state + 8 * b2n s.tick.keystone + 16 * (t.source % 8) + 128 * b2n t.slewing +
      256 * b2n t.setDone + 65536 * (t.quality % 256))
  | 0x070 => some (satS32 t.freq)
  | 0x074 => some (min cntMax t.holdover)
  | 0x0AC => some (min cntMax (t.meanPath / 1000))
  | _ => none

/-- Status registers of the PWR page (Table 14-8), those of a quarter for the selected one. -/
def State.livePwr (s : State) (off : Nat) : Option Nat :=
  let q := s.quarter (s.fld R.pwrQSel 1 0)
  match off with
  | 0x044 => some s.pwrSts
  | 0x054 => some (q.f % 2048 + 65536 * (s.floorMhz % 2048))
  | 0x058 => some (q.set % 1024 + 65536 * (q.readback % 1024))
  | 0x05C => some (min 0xFFFFFF q.slack)
  | 0x060 => some (min 4095 q.temp)
  | 0x084 => some (s.power.rstCause % 32)
  | 0x088 => some (min 65535 s.power.bootTime)
  | _ => none

/-! ### The safety island and the management paths (15, 16) -/

/-- The fault record that SAF.REC_SEL names, counted back from the newest (Table 15-9). -/
def State.selectedRecord (s : State) : Option FaultRecord := s.island.records.reverse[s.fld R.safRecSel 5 0]?

/-- Status registers of the SAF page (Table 15-9). -/
def State.liveSaf (s : State) (off : Nat) : Option Nat :=
  let i := s.island
  match off with
  | 0x040 => some s.safSts
  | 0x044 => some (bitWord 9 (fun n => i.causes.contains n))
  | 0x04C => some (bitWord 32 (fun n => i.sensorsFailed.contains n))
  | 0x050 => some (bitWord 4 (fun n => i.sensorsFailed.contains (32 + n)))
  | 0x054 => some (word32 i.cleanTick 0)
  | 0x058 => some (word32 i.cleanTick 1)
  | 0x064 => some (i.recHead % 65536)
  | _ =>
    if 0x06C ≤ off ∧ off < 0x07C then
      some (match s.selectedRecord with | some r => leAt r.bytes (off - 0x06C) 4 | none => 0)
    else none

/-- Status registers of the TRS, SPI, BTF and TAG pages (Table 16-11). -/
def State.liveMgmt (s : State) (p : PageType) (off : Nat) : Option Nat :=
  match p, off with
  | .trs, 0x044 => some s.trsSts
  | .trs, 0x048 => some (s.trestle.number % 2 ^ 32)
  | .spi, 0x040 => some (b2n s.spi.partialFrame + 2 * b2n s.spi.badCmd + 4 * b2n s.spi.mode3)
  | .btf, 0x040 => some s.btfSts
  | .btf, 0x044 => some (s.flash.version % 2 ^ 32)
  | .tag, 0x040 => some (b2n s.tag.field + 2 * b2n s.tag.ready)
  | .tag, 0x048 => some (leNat ((s.tagPages (s.fld R.tagPageSel 8 0) 512).take 4))
  | _, _ => none

/-! ### Ports, quarter stores and clusters (03 to 08, 17) -/

/-- Status registers of a port page (Table 08-11), those of a lane for the selected one. -/
def State.livePrt (s : State) (p off : Nat) : Option Nat :=
  let x := s.port p
  let l := s.fld R.prtLaneSel 3 0 p
  match off with
  | 0x044 => some (s.prtSts p)
  | 0x048 => some x.partnerReg
  | 0x04C => some (min 15 x.backoffN + 65536 * backoffMs x.backoffN)
  | 0x0B4 => some (x.lane l).eqReg
  | 0x0BC => some (min cntMax x.delay)
  | 0x0C4 => some (s.prbsSts p)
  | 0x0E4 => some (s.optSts p)
  | 0x0E8 => some (if s.optical p then (Config.rxPower p l s.power.uptime).toNat else 0)
  | _ => none

/-- SCRUB_STS of scrubber `k` (Table 07-4, R206). -/
def State.scrubSts (s : State) (k : Nat) : Nat := (s.scrub k).n % 32 + 32 * (s.scrub k).visit

/-- The physical cluster that serves logical cluster `c`, and whether it is a spare (R285, R68). -/
def State.cluMap (s : State) (c : Nat) : Nat :=
  match mfind s.image.spared c with
  | some p => p % 1024 + 1024
  | none => 136 * (c / 128) + c % 128

/-- CLU.STS (Table 17-6): a cluster is off in doze; the tenants are those of contexts 0 to 7 in use. -/
def State.cluSts (s : State) (c : Nat) : Nat :=
  let k := s.cluster c
  b2n (s.power.on && !s.dozing) + 2 * b2n (k.ctxs.any (fun p => p.2.state == .dead)) +
    65536 * ((k.ctxTab.filter (fun p => p.2.used && decide (p.1 < 8))).map (·.2.tenant)).dedup.length

/-- TGP.SLOTS (Table 03-7). -/
def State.tgpSlots (s : State) (c : Nat) : Nat :=
  let k := s.cluster c
  k.groups.length % 128 + 256 * (k.active.length % 16) + 65536 * bitWord 16 (fun b => (mfind k.blocks b).isSome)

/-- TEN.STS and VEC.STS of an engine (Table 05-11). -/
def Engine.sts (e : Engine) : Nat :=
  b2n e.running.isSome + 2 * b2n e.queued.isSome + 65536 * (match e.running with | some d => d.tenant % 256 | none => 0)

/-- SEQ.CTX_STS.state's code (Table 06-11). -/
def ctxCode (x : CtxState) : Nat :=
  match x with
  | .empty => 0
  | .run => 1
  | .wait => 2
  | .done => 3
  | .halted => 4
  | .dead => 5
  | .off => 6

/-- Status registers of the SEQ page (Table 06-11). A selected context of 9 to 15 reads 0. -/
def State.liveSeq (s : State) (c off : Nat) : Option Nat :=
  let k := s.cluster c
  let n := s.fld R.seqCtxSel 3 0 c
  let x := mget Ctx.reset k.ctxs n
  match off with
  | 0x040 => some (bitWord 9 (fun i => (mget CtxEntry.reset k.ctxTab i).used) + 65536 * bitWord 9 (fun i =>
      let st := (mget Ctx.reset k.ctxs i).state
      st == .done || st == .halted))
  | 0x048 => some (if 8 < n then 0 else
      ctxCode x.state + 16 * (x.program % 16) + 256 * ((mget CtxEntry.reset k.ctxTab n).tenant % 256))
  | 0x04C => some (if 8 < n then 0 else x.pc % 2 ^ 26)
  | 0x054 => some (min 0xFFFFFF k.slack)
  | 0x064 => some (k.traceIdx % 128)
  | _ => none

/-- Status registers of the cluster pages. -/
def State.liveCluster (s : State) (p : PageType) (c off : Nat) : Option Nat :=
  let k := s.cluster c
  match p, off with
  | .clu, 0x040 => some (s.cluMap c)
  | .clu, 0x044 => some (s.cluSts c)
  | .clu, 0x048 => some (c % 4 + 4 * (c % 128 / 4) + 128 * (c / 128))
  | .tgp, 0x044 => some (s.tgpSlots c)
  | .tgp, 0x068 => some (s.dbgSts c)
  | .tgp, 0x074 => some (s.dbgReg c).toNat
  | .ten, 0x040 => some k.tensor.sts
  | .vec, 0x040 => some k.vector.sts
  | .vec, 0x058 => some (word32 k.sr.toNat 0)
  | .vec, 0x05C => some (word32 k.sr.toNat 1)
  | .seq, off => s.liveSeq c off
  | .spd, 0x040 => some (k.leases.getD 0 0#32).toNat
  | .spd, 0x044 => some (k.leases.getD 1 0#32).toNat
  | .spd, 0x048 => some (k.leases.getD 2 0#32).toNat
  | .spd, 0x04C => some (k.leases.getD 3 0#32).toNat
  | .spd, 0x060 => some (s.scrubSts c)
  | .hdl, 0x058 => some (b2n (!k.handlePend.isEmpty) + 2 * b2n k.hdlRefused + 16 * (k.hdlReason % 16))
  | _, _ => none

/-! ### The ERR page (17) -/

/-- The page type at a cluster's place `j`, 0 to 6, raises (Table 17-10). -/
def State.cluLine (s : State) (c j : Nat) : Bool := s.pageLine (0x1000 + 8 * c + j)

/-- Status registers of the ERR page (Table 17-10). -/
def State.liveErr (s : State) (off : Nat) : Option Nat :=
  if off = 0x040 then some (bitWord 19 s.pageLine)
  else if off = 0x044 then some (bitWord 20 (fun i => s.pageLine (0x80 + i)))
  else if off = 0x048 then some (bitWord 32 (fun i => s.pageLine (0x20 + i)))
  else if off = 0x04C then some (bitWord 32 (fun i => s.pageLine (0x40 + i)))
  else if 0x050 ≤ off ∧ off < 0x090 then
    some (bitWord 32 (fun i => (List.range 7).any (fun j => s.cluLine (8 * (off - 0x050) + i) j)))
  else if off = 0x094 then some (bitWord 7 (fun j => s.cluLine (s.fld R.errCluSel 8 0) j))
  else if off = 0x09C then some (bitWord 29 s.routeLine)
  else none

/-! ### Every page -/

/-- The value a status register shows, of page type `p`, instance `i`; none for a register whose value is stored. -/
def State.live (s : State) (p : PageType) (i off : Nat) : Option Nat :=
  match p with
  | .err => s.liveErr off
  | .spn => s.liveSpn off
  | .tck => s.liveTck off
  | .fab => s.liveFab off
  | .wld => s.liveWld off
  | .hst => s.liveHst i off
  | .slt => s.liveSlt off
  | .xlt => if off = 0x060 then some (b2n s.host.inval.isSome) else none
  | .ldg => s.liveLdg off
  | .prv => s.livePrv off
  | .tim => s.liveTim off
  | .pwr => s.livePwr off
  | .saf => s.liveSaf off
  | .trs | .spi | .btf | .tag => s.liveMgmt p off
  | .hsq => s.liveHsq i off
  | .prt => s.livePrt i off
  | .qst => if off = 0x060 then some (s.scrubSts (512 + i)) else none
  | .clu | .tgp | .ten | .vec | .seq | .spd | .hdl => s.liveCluster p i off
  | .ing | .pub => none

/-- Header STS of a page (Table 17-1). -/
def State.headSts (s : State) (pg : Nat) : Nat :=
  b2n (bit (s.hdr pg hErrInfo) 31) + 2 * b2n (s.pageLine pg) + 4 * b2n (bit (s.hdr pg hLock) 0) + 8 * b2n (bit (s.hdr pg hCtl) 0)

/-- The instance that a page's ID shows: the VF number of a function page, q of a queue page (R453). -/
def idInstance (p : PageType) (i : Nat) : Nat := if p = .hsq then i % 64 else i

/-- CAP of a page (Table 17-1). -/
def capReg (p : PageType) (i : Nat) : Nat :=
  b2n (p == .prt && Config.variantO && decide (4 ≤ i) && decide (i < 12)) + 2 * b2n Config.hostAttached + 4 * b2n Config.variantO

/-- A header register's value (Table 17-1). -/
def State.headReg (s : State) (p : PageType) (i off : Nat) : Nat :=
  let pg := pageNo p i
  match off with
  | 0x00 => pageCode p + 65536 * idInstance p i
  | 0x04 => 1 + 256 * Config.stepping.toNat
  | 0x08 => capReg p i
  | 0x10 => s.headSts pg
  | _ => s.hdr pg off

/-- The copy that a register's selector picks (Tables 08-11, 10-5, 11-9, 11-11, 12-7, 14-8). -/
def State.bankOf (s : State) (b : Bank) (i : Nat) : Nat :=
  match b with
  | .none => 0
  | .chain => s.fld R.wldChainSel 2 0
  | .tsel => s.fld R.xltTsel 7 0
  | .psel => s.fld R.ingPsel 0 0
  | .dest => s.fld R.pubDestSel 2 0
  | .qsel => s.fld R.pwrQSel 1 0
  | .lane => s.fld R.prtLaneSel 3 0 i
  | .quota => s.fld R.hstQuotaSel 7 0

/-- The value that a read of a register returns (Table 00-3): 0 of a write-only register or an undefined offset (R448). -/
def State.regValue (s : State) (p : PageType) (i off : Nat) : Nat :=
  if off < 0x40 then s.headReg p i off
  else match regAt p off with
    | some d =>
      if d.acc = .wo then 0
      else ((s.live p i off).getD (s.rawAt p i off (s.bankOf d.bank i))) &&& d.mask
    | none => 0

end Sys2Proof.Machine
end

