-- ==== Sys2Proof/Machine/Tick.lean ====
section
/-!
DEFINITION. The tick from start to start (02 R30 to R66): markers and their verdicts, phases, votes, the keystone and its
takeover, tick-stretch mode, and the waits of 14 R376, R378, R389 and R390 that hold a start.
-/
namespace Sys2Proof.Machine

/-! ### An attempt opens -/

/-- The phase a tick start leads to: no tick runs in IDLE and HOLD. -/
def TickState.openPhase (x : TickState) : Phase :=
  match x with
  | .idle | .hold => .none
  | .run | .stretch => .opening

/-- A tick start (R41, R45): the flip is speculative, so an attempt that ran is undecided until its verdict comes (R48). -/
def Tick.starts (t : Tick) (gate : Bool) : Tick :=
  { t with
    phase := t.state.openPhase, ns := 0, marked := false, parentDamaged := t.damagedEarly, damagedEarly := false,
    silent := t.silent + 1,
    undecided := t.undecided || (t.marked && t.phase != .none && t.phase != .opening), fault := none, faults := [],
    votes := VoteSum.pass, reported := [], voteSent := false, decision := none, echoed := false, gateSeen := gate,
    haltSeen := !t.haltedBelow.isEmpty, viaductUe := false, hubUe := false }

/-- The tick starts: new link keys (R261), a comparator gate cause ends (Table 15-5), and the gate is sampled (R398). -/
def State.tickStart (s : State) : State :=
  let s1 := ((s.each s.upPorts State.switchKey).openGate gComparators).cleared 0x68
  s1.modTick (fun t => t.starts (!s1.island.causes.isEmpty))

/-! ### Verdicts (R48, R57) -/

/-- A marker's tick number cannot be reconciled: the device declares itself failed (R48). -/
def State.selfFail (s : State) : State :=
  (((s.modTick (fun t => { t with selfFailed := true, phase := .none, state := .hold })).violate .tck 0
    ⟨Config.tickGapCode, 16, 0, 2, 0⟩).note 4 6 0 []).chainsResume

/-- STOP: the span holds (R57), and load chains run again (R265). -/
def State.toHold (s : State) (attempt : Nat) : State :=
  let s1 := if s.tick.state = .hold then s else (s.event .tck 0 1).note 4 5 0 []
  (s1.modTick (fun t => { t with state := .hold, phase := .none, attempt := attempt, stopAsked := false })).chainsResume

/-- An attempt opens. One that a resume starts runs under the writes that R281 names, with the counts of failures cleared
(R33, R56, R57). -/
def State.toRun (s : State) (attempt : Nat) : State :=
  let s1 := if s.tick.state = .hold then
      (s.takeResumed.modTick (fun t => { t with fails := [] })).modPower (fun p => { p with woken := false })
    else s
  s1.modTick (fun t => { t with state := .run, phase := .opening, attempt := attempt, marked := true })

/-- A marker's verdict is applied, as its tick number shows it (R34, R48): the first marker after an image load is joined;
one above the device's own number commits an undecided attempt; the same number undoes it. -/
def State.applyVerdict (s : State) (tick attempt verdict : Nat) : State :=
  let next (t : State) : State := if verdict = 3 then t.toHold attempt else t.toRun attempt
  if !s.tick.joined then
    next (((s.modTick (fun t => { t with count := tick, joined := true, undecided := false })).note 3 0 0 []).snapshot)
  else if tick = s.tick.count + 1 ∧ s.tick.undecided = true then next s.commitTick
  else if tick = s.tick.count then
    next (if s.tick.undecided then s.undoTick.when (verdict != 3) (fun t => t.cnt R.tckRerunCnt) else s)
  else s.selfFail

/-- What an accepted marker leaves: modes effective for its tick (R58, R61), with stretch mode's entry and exit ledgered. -/
def State.noteMarker (s : State) (m : Marker) : State :=
  let s1 := if m.stretch = s.tick.stretchEff then s else s.note 4 (if m.stretch then 3 else 4) 0 []
  s1.modTick (fun t => { t with
    last := some m, silent := 0, heardUntil := s.power.uptime + 2 * m.len, parentDamaged := false, damagedEarly := false,
    detEff := m.detMode, stretchEff := m.stretch,
    state := if t.state = .run ∧ m.stretch then .stretch else t.state,
    echoSent := if m.verdict = 3 then t.echoSent else none })

/-- The device's time follows a marker (R342). -/
def State.markerTai (s : State) (m : Marker) : State :=
  let x : Int := m.sec * 1000000000 + m.ns
  let s1 := s.modTime (fun t => { t with
    prevTai := if t.have_ then s.startTai else x - s.rd R.tckLen, startSec := m.sec, startNs := m.ns, have_ := true })
  s1.setTai (max s1.tai x)

/-! ### The keystone's markers (R37, R42, R47) -/

/-- The keystone's marker of an attempt (Table 02-2). A takeover's carries the new keystone's own det_mode and stretch_req in
force (log 47). -/
def State.mkMarker (s : State) (tick attempt verdict : Nat) : Marker :=
  ⟨tick, attempt, verdict, bit (s.inForce R.spnCtl) 0, bit (s.inForce R.tckCtl) 8, 0, s.self, s.tick.epoch, s.time.startSec,
    s.time.startNs, 0, s.rd R.tckLen⟩

/-- A new keystone's time starts at its present time (R344). -/
def State.startNow (s : State) : State :=
  s.modTime (fun t => { t with prevTai := s.startTai, startSec := t.sec, startNs := t.ns, have_ := true })

/-- The keystone starts an attempt and emits its marker; `fresh` where its own time begins here. -/
def State.emit (s : State) (tick attempt verdict : Nat) (fresh : Bool) : State :=
  let s1 := s.tickStart.applyVerdict tick attempt verdict
  if s1.tick.selfFailed then s1
  else
    let s2 := if fresh then s1.startNow else s1.keystoneTai tick
    let m := s2.mkMarker tick attempt verdict
    (s2.noteMarker m).sendMarker 16 m

/-- A start or a resume may go: every quarter is at f_floor, and the device is awake (R378, R389). -/
def State.mayStart (s : State) : Bool := s.atFloor && s.power.state == .active

/-- The marker with which a new keystone goes on: what a verdict it echoed says, else the attempt again, or STOP at the
attempt cap (R42, R44). -/
def State.goOn (s : State) : Nat × Nat × Nat :=
  let n := match s.tick.last with
    | some m => (m.tick, m.attempt)
    | none => (s.tick.count, s.tick.attempt)
  match s.tick.echoSent with
  | some 1 => (n.1 + 1, 1, 1)
  | some 3 => (n.1, n.2, 3)
  | _ => if s.fld R.tckCtl 23 16 < n.2 + 1 then (n.1, n.2, 3) else (n.1, n.2 + 1, 2)

/-- The device becomes keystone in place of a lost one, its epoch one above the highest it has seen (R42 to R44). -/
def State.takeOver (s : State) : State :=
  let n := s.goOn
  let s1 := s.modTick (fun t => { t with keystone := true, epoch := t.epoch + 1 })
  s1.takeoverTime.emit n.1 n.2.1 n.2.2 true

/-- TCK.CMD.start goes on once the clocks allow it: the span's first marker, or a lost keystone's numbering (R35, R44, R378). -/
def State.tryStart (s : State) : State :=
  if s.tick.starting = 1 ∧ s.mayStart = true then
    let s1 := s.modTick (fun t => { t with starting := 0 })
    if s1.tick.joined then s1.takeOver else (s1.modTick (fun t => { t with keystone := true })).emit 1 1 0 true
  else s

/-- TCK.CMD.start accepted (R66, R378). -/
def State.startCmd (s : State) : State := ((s.modTick (fun t => { t with starting := 1 })).seekFloor).tryStart

/-- TCK.CMD.resume accepted in HOLD: the marker goes at a tick start once the clocks allow it (R57, R378). -/
def State.resumeCmd (s : State) : State :=
  if s.tick.state = .hold then (s.modTick (fun t => { t with starting := 2 })).seekFloor else s

/-- TCK.CMD.hold accepted: STOP at the next seal (R65). -/
def State.holdCmd (s : State) : State :=
  if s.running then s.modTick (fun t => { t with stopAsked := true }) else s

/-- A marker was accepted within the last two marker periods (R66). -/
def State.heard (s : State) : Bool := decide (s.tick.silent < 2) && decide (s.power.uptime < s.tick.heardUntil)

/-- Why TCK.CMD.start is refused (R31, R66, R19). -/
def State.startBad (s : State) : Bool :=
  !s.image.loaded || s.self != s.cfgKeystone || s.isSpare || s.heard || decide (50 * s.rd R.tckRepair < s.rd R.tckLen)

/-- The doze that STOP was given for (R384, R385). -/
def State.dozeNow (s : State) : State := if s.power.dozeAsked && s.tick.state == .hold then s.startDoze else s

/-- The keystone's verdict for the attempt that ends: its decision, taken now where votes are missing (R46). -/
def State.keystoneTick (s : State) : State :=
  match s.tick.phase with
  | .sealing =>
    let s1 := if s.tick.decision.isNone then s.voteDeadline else s
    match s1.tick.decision with
    | some 1 => s1.emit (s1.tick.count + 1) 1 1 false
    | some 3 => (s1.emit s1.tick.count s1.tick.attempt 3 false).dozeNow
    | _ => s1.emit s1.tick.count (s1.tick.attempt + 1) 2 false
  | .none =>
    if s.tick.starting = 2 ∧ s.mayStart = true then
      (s.modTick (fun t => { t with starting := 0 })).emit s.tick.count 1 2 false
    else s.emit s.tick.count s.tick.attempt 3 false
  | .body | .repair =>
    if s.tick.stretchEff then
      (s.modTick (fun t => { t with haltSeen := true })).sendMarker 16 (s.mkMarker s.tick.count s.tick.attempt (match s.tick.last with
        | some m => if m.verdict = 0 then 1 else m.verdict
        | none => 1))
    else s
  | _ => s

/-- LOCAL_TICK_START: the predicted tick start (R41). In stretch mode a nominal period passes within the attempt (R59). -/
def execLocalTickStart (s : State) : Res :=
  .next (if s.tick.state = .idle ∨ s.tick.selfFailed = true then s
    else if s.tick.keystone then s.keystoneTick
    else match s.tick.phase with
      | .sealing | .waiting | .none => s.tickStart
      | .body | .repair => if s.tick.stretchEff then (s.modTick (fun t => { t with silent := t.silent + 1, haltSeen := true })).sendHalt else s
      | .opening => s)

/-! ### Markers received (R38 to R43, R241) -/

/-- A marker goes on, with its hops and delay updated; none past 24 hops (R38). -/
def State.forwardMarker (s : State) (p : Nat) (m : Marker) : State :=
  if 24 ≤ m.hops then s
  else (s.sendMarker p { m with
    hops := m.hops + 1, accDelay := (m.accDelay + (s.port p).delay + Config.residence s.freeCtr) % 2 ^ 32 }).draw

/-- The alternate ports of TCK.MK_PARENT. -/
def State.alternates (s : State) : List Nat := [s.fld R.tckMkParent 7 4, s.fld R.tckMkParent 11 8]

/-- Events of TCK.LATE_MK at an accepted marker: late by more than 20 ns, a verdict missed before it, and a damaged parent's
(R41, R48, R241). `late` is the tick start that the marker gives, in ps after the predicted one. -/
def State.countLate (s : State) (late : Int) : State :=
  let n := b2n (decide (20000 < late)) + b2n (decide (2 ≤ s.tick.silent) && s.tick.state != .hold) + b2n (s.tick.parentDamaged || s.tick.damagedEarly)
  if n = 0 then s else s.cnt R.tckLateMk 0 n

/-- The device takes its tick from a marker, whose tick start lies `late` ps after the predicted one (R38, R39, R48). The timer
counts whole ns (log 48). -/
def State.takeMarker (s : State) (late : Int) (m : Marker) : State :=
  let s1 := (s.countLate late).applyVerdict m.tick m.attempt m.verdict
  if s1.tick.selfFailed then s1
  else ((s1.markerTai m).noteMarker m).modTick (fun t => { t with ns := ((t.ns : Int) - late / 1000).toNat })

/-- A marker that comes once its open phase has ended: its verdict is applied, but the body does not start (R41). -/
def State.takeLate (s : State) (late : Int) (m : Marker) : State :=
  let s1 := s.takeMarker late m
  if s1.tick.phase = .opening then s1.modTick (fun t => { t with phase := .waiting }) else s1

/-- A marker within an attempt of stretch mode (R59): the seal marker, with verdict 0, starts the seal; STOP ends the attempt;
any other keeps the alignment (log 26). -/
def State.stretchMarker (s : State) (late : Int) (m : Marker) : State :=
  if m.tick ≠ s.tick.count ∨ m.attempt ≠ s.tick.attempt then s
  else if m.verdict = 3 then s.tickStart.takeMarker late m
  else
    let s1 := s.modTick (fun t => { t with
      silent := 0, heardUntil := s.power.uptime + 2 * m.len, parentDamaged := false, damagedEarly := false })
    if m.verdict = 0 ∧ s.tick.phase = .repair then (s1.passTo s1.sealStart).localVerdict else s1

/-- A marker accepted from the port the tick is taken from, as the phase has it. -/
def State.acceptMarker (s : State) (late : Int) (m : Marker) : State :=
  match s.tick.phase with
  | .opening => if s.tick.marked then s else s.takeMarker late m
  | .body | .repair => if s.tick.stretchEff then s.stretchMarker late m else s
  | .waiting => if late ≤ 1000000 then s.tickStart.takeMarker late m else if s.tick.marked then s else s.takeLate late m
  | .sealing | .none => s.tickStart.takeMarker late m

/-- The epoch of a marker is followed; a keystone that sees a higher one stops emitting (R43). -/
def State.followEpoch (s : State) (m : Marker) : State :=
  if s.tick.epoch < m.epoch then s.modTick (fun t => { t with epoch := m.epoch, keystone := false, starting := 0 }) else s

/-- The tick start that a marker gives (R39): its arrival on port `p`, less its acc_delay and the link's delay, in ps after the
predicted start. -/
def State.markerStart (s : State) (p : Nat) (arrived : Int) (m : Marker) : Int :=
  arrived - (m.accDelay : Int) - ((s.port p).delay : Int)

/-- Two tick starts lie more than 5 ns apart (R38). -/
def disagree (a b : Int) : Bool := decide (5000 < (a - b).natAbs)

/-- The parent's marker is noted, and the markers of its attempt that came before it on other ports are checked against it
(R38). -/
def Tick.noteParent (t : Tick) (m : Marker) (start : Int) : Tick :=
  { t with
    mkParent := some (m.tick, m.attempt, start), mkOthers := [],
    disagree := t.disagree +
      (t.mkOthers.filter (fun x => x.1 == m.tick && x.2.1 == m.attempt && Machine.disagree x.2.2 start)).length }

/-- Another port's marker is checked against the parent's of its attempt, or kept until that comes (R38). -/
def Tick.noteOther (t : Tick) (m : Marker) (start : Int) : Tick :=
  match t.mkParent with
  | some (n, a, x) =>
    if n = m.tick ∧ a = m.attempt then { t with disagree := t.disagree + b2n (Machine.disagree x start) }
    else { t with mkOthers := t.mkOthers ++ [(m.tick, m.attempt, start)] }
  | none => { t with mkOthers := t.mkOthers ++ [(m.tick, m.attempt, start)] }

/-- The tick is taken from a marker on port `p`: the parent's, or an alternate's where the parent's was damaged (R38, R241). -/
def State.takesFrom (s : State) (p : Nat) : Bool :=
  p == s.parentPort || ((s.tick.parentDamaged || s.tick.damagedEarly) && s.alternates.contains p)

/-- A marker that arrived whole on port `p`, `arrived` ps after the predicted start (R38, R39, R43). -/
def State.markerIn (s : State) (p : Nat) (arrived : Int) (m : Marker) : State :=
  if m.epoch < s.tick.epoch then s.violate .tck 0 ⟨Config.staleEpochCode, 16, 0, 2, 0⟩
  else
    let s1 := s.followEpoch m
    let start := s.markerStart p arrived m
    if s1.tick.keystone then s1
    else if s1.takesFrom p then
      let s2 := s1.modTick (fun t => t.noteParent m start)
      if s2.tick.selfFailed then s2.forwardMarker p m else (s2.acceptMarker start m).forwardMarker p m
    else s1.modTick (fun t => t.noteOther m start)

/-- The parent's marker was damaged: of the tick in its open phase or stretched body, or of the one about to start (R241). -/
def Tick.parentLost (t : Tick) : Tick :=
  match t.phase with
  | .opening | .body | .repair => { t with parentDamaged := true }
  | .waiting | .sealing | .none => { t with damagedEarly := true }

/-- MARKER (R38). A damaged one on the parent port lets an alternate's stand in (R241). -/
def execMarker (port : Fin 16) (a : Arrival) (arrived : Int) (m : Marker) (s : State) : Res :=
  .next (match s.receive port 6 a with
    | (t, .good) => t.markerIn port arrived m
    | (t, .damaged) => if port.val = t.parentPort then t.modTick Tick.parentLost else t
    | (t, .dropped) => t)

/-! ### Phases (R31, R41) -/

/-- The device's clusters run programs: not a spare, nor unassigned (R18). -/
def State.runsPrograms (s : State) : Bool := bit (s.inForce R.spnRole) 0 || bit (s.inForce R.spnRole) 1

/-- A context at body start (R156): DONE runs; a tenant not taking its turn is OFF (R88, R275). -/
def Ctx.start (x : Ctx) (on : Bool) : Ctx :=
  let y : Ctx := { x with live := false, hold := 0, wait := .none }
  match x.state with
  | .done | .off => { y with state := if on then .run else .off }
  | _ => y

/-- A cluster at body start: the lease context runs every tick. -/
def State.startCluster (s : State) (k : Cluster) : Cluster :=
  { k with
    slackNow := none,
    ctxs := k.ctxs.map (fun p => (p.1, p.2.start (p.1 == 8 || s.inTurn (mget CtxEntry.reset k.ctxTab p.1).tenant))) }

/-- One refresh entry armed by the WLD engine at body start (R275): the checks of R163 but for the constant handle. -/
def State.armEntry (s : State) (t : Nat) (e : Nat × Nat × Nat × Nat) : State :=
  let x := s.slotEntry e.1
  let tx := x.dir == 1
  let s1 := s.touchEntry e.2.1 e.2.2.1 12 t
  if s.entryBad e.2.1 e.2.2.1 || x.owner != t || (x.dir != 1 && x.dir != 2) ||
      (s.descFault e.2.1 t false true true [⟨e.2.2.1, if tx then 5 else 6, false, e.2.2.2, e.2.2.2 + x.len⟩]).isSome then s1
  else s1.arm e.2.1 e.1 e.2.2.1 e.2.2.2 tx true

/-- The refresh entries of tenants under a staging refresh (R275). -/
def State.armRefresh (s : State) : State :=
  s.each (s.image.refreshes.filter (fun r =>
      mget 0 s.image.staging r.tenant != 0 && r.program == mget 0 s.image.epochs r.tenant && s.turn r.tenant s.tick.count))
    (fun t r => t.each r.entries (fun u e => u.armEntry r.tenant e))

/-- The body starts: inputs delivered (R318), clocks set (R376, R378), contexts run (R156), refreshes armed (R275). -/
def State.startBody (s : State) : State :=
  let s1 := ({ s with written := [] } : State).intake.applySteer.forceFloor
  let s2 := s1.each [0, 1, 2, 3] (fun t q => t.modQuarter q (fun x => { x with clk := 0, frac := 0 }))
  let s3 : State := if s2.runsPrograms then { s2 with clusters := s2.clusters.map (fun p => (p.1, s2.startCluster p.2)) } else s2
  ((s3.modIsland (fun i => { i with selfOk := false })).modTick (fun t => { t with phase := .body })).armRefresh

/-- The device may not run the attempt (Table 02-6, CONFIG_MISMATCH): the marker's length, the section, or the share. -/
def State.configBad (s : State) : Bool :=
  (match s.tick.last with
    | some m => m.len != s.rd R.tckLen
    | none => false) || !s.image.loaded || s.load.verdict != 2

/-- A fault of the open phase: the body does not start. -/
def State.holdBody (s : State) (code : Nat) (u : FaultUnit) : State :=
  ((s.violate .tck 0 ⟨code, 16, 0, 2, 0⟩).tickFault code u).modTick (fun t => { t with phase := .waiting })

/-- OPEN_END (R41, R30). -/
def execOpenEnd (s : State) : Res :=
  .next (if s.tick.phase ≠ .opening then s
    else
      let s1 := s.passTo 1000
      if !s1.tick.marked then s1.holdBody 5 (.link s1.parentPort)
      else if s1.configBad then s1.holdBody 0xB .device
      else s1.startBody)

/-- REPAIR_START: replays are sent and late receive arms ask (R246, R164), and the hub collects the outlets (R320). -/
def execRepairStart (s : State) : Res :=
  .next (if s.tick.phase ≠ .body then s
    else
      let s1 := (s.passTo s.repairStart).modTick (fun t => { t with phase := .repair })
      (s1.sendReplays.askLate).modSvc (fun v => { v with collecting := s1.firstOutlet.isSome }))

/-- SEAL_START (R45). In stretch mode the nominal seal time only reports halted groups: the seal waits for its marker (R59). -/
def execSealStart (s : State) : Res :=
  .next (if s.tick.phase = .repair ∨ s.tick.phase = .waiting then
      let s1 := s.passTo s.sealStart
      if s1.tick.stretchEff && s1.tick.phase == .repair then (if s1.tick.keystone then s1 else s1.sendHalt) else s1.localVerdict
    else s)

/-! ### Votes, echoes and halt reports (R46, R47, R59) -/

/-- A vote of the attempt in progress from a child. -/
def State.voteIn (s : State) (p : Nat) (v : Vote) : State :=
  if v.tick ≠ s.tick.count ∨ v.attempt ≠ s.tick.attempt ∨ s.tick.phase = .none then s
  else
    let s1 := s.modTick (fun t => { t with children := addOnce t.children p })
    if s.tick.voteSent ∨ p ∈ s.tick.reported then s1
    else (s1.modTick (fun t => { t with
      reported := t.reported ++ [p], votes := t.votes.merge ⟨v.fail, v.escalate, v.count, v.code, v.unit, v.device⟩ })).tryVote

/-- VOTE (R46). -/
def execVote (port : Fin 16) (a : Arrival) (v : Vote) (s : State) : Res :=
  .next (match s.receive port 7 a with
    | (t, .good) => if v.kind = 0 then t.voteIn port v else t
    | (t, _) => t)

/-- VOTE_DEADLINE (R46). -/
def execVoteDeadline (s : State) : Res := .next s.voteDeadline

/-- An echo: the keystone's verdict, which the backup sends back, or the backup's answer (R47). -/
def State.echoIn (s : State) (p : Nat) (v : Vote) : State :=
  if v.tick ≠ s.tick.count ∨ v.attempt ≠ s.tick.attempt then s
  else if s.tick.keystone then
    if s.tick.decision = some v.verdict then s.modTick (fun t => { t with echoed := true }) else s
  else if s.isBackup then (s.modTick (fun t => { t with echoSent := some v.verdict })).sendVote p v
  else s

/-- ECHO (R47). -/
def execEcho (port : Fin 16) (a : Arrival) (v : Vote) (s : State) : Res :=
  .next (match s.receive port 7 a with
    | (t, .good) => if v.kind = 1 then t.echoIn port v else t
    | (t, _) => t)

/-- ECHO_DEADLINE: the missing echo is counted and reported (R47). -/
def execEchoDeadline (s : State) : Res :=
  .next (if s.tick.keystone && s.tick.phase == .sealing && s.tick.decision.isSome && s.hasBackup && !s.tick.echoed then
      s.violate .tck 0 ⟨Config.missingEchoCode, 16, 0, 2, 0⟩
    else s)

/-- HALT_REPORT (R59). -/
def execHaltReport (port : Fin 16) (a : Arrival) (v : Vote) (s : State) : Res :=
  .next (match s.receive port 7 a with
    | (t, .good) =>
      if v.kind = 2 then (t.modTick (fun k => { k with
        haltedBelow := if v.halted then addOnce k.haltedBelow port else dropAll k.haltedBelow port })).haltNote t
      else t
    | (t, _) => t)

/-! ### Takeover and stretch mode (R42, R58 to R60) -/

/-- KEYSTONE_TAKEOVER: two marker periods after the last marker the backup received (R42). -/
def execKeystoneTakeover (s : State) : Res :=
  .next (if s.isBackup && s.tick.joined && !s.tick.selfFailed && decide (1 ≤ s.tick.silent) then
      let s1 := if s.tick.silent = 1 then s.tickStart else s
      (s1.takeOver.event .tck 0 2).note 4 2 0 []
    else s)

/-- STRETCH_SEAL_MARKER: after the nominal seal time, once no device reports a halted group (R59). -/
def execStretchSealMarker (s : State) : Res :=
  .next (if s.tick.keystone && s.tick.stretchEff && s.tick.phase == .repair && !s.anyHalted then
      let s1 := s.passTo s.sealStart
      (s1.sendMarker 16 (s1.mkMarker s1.tick.count s1.tick.attempt 0)).localVerdict
    else s)

/-- DBG_MAX_EXPIRY: the keystone gives STOP (R60). In stretch mode no seal comes while the group is halted, so the attempt
ends with STOP at the next tick start (log 26). -/
def execDbgMaxExpiry (s : State) : Res :=
  .next (if s.tick.keystone && s.anyHalted && s.running then
      if s.tick.stretchEff && (s.tick.phase == .body || s.tick.phase == .repair) then
        s.modTick (fun t => { t with phase := .sealing, voteSent := true, decision := some 3 })
      else s.modTick (fun t => { t with stopAsked := true })
    else s)

/-! ### Clocks, wake and time passing (R376, R378, R389, R390) -/

/-- VOLTAGE_REACHED: a raise goes at the next open phase, or at once while no schedule runs; a start that waits for it goes on
(R376, R378). -/
def execVoltageReached (q : Fin 4) (s : State) : Res :=
  let s1 := s.modQuarter q (fun x => { x with readback := x.set })
  .next (if s.running then s1
    else
      let s2 := s1.raiseNow q
      if s2.tick.starting = 0 then s2 else s2.seekFloor.tryStart)

/-- WAKE_COMPLETE: 400 µs after the wake event (R389); withdrawals of functions reset in doze run first (R391). -/
def execWakeComplete (s : State) : Res :=
  .next (if s.power.state ≠ .waking then s
    else
      let n := s.power.wakeNs + 400000 - s.power.uptime
      let s1 := (s.pass n).each s.tick.withdrawals State.withdrawNow
      ((s1.modTick (fun t => { t with withdrawals := [] })).wakeRails).tryStart)

/-- AUTO_RESUME: at a tick start at or after the keystone's wake event plus PWR.WAKE_GUARD it resumes the span (R390). -/
def execAutoResume (s : State) : Res :=
  .next (if s.tick.keystone && s.flag R.pwrCtl 1 && s.power.woken && s.power.state == .active && s.tick.state == .hold then
      (s.pass (s.power.wakeNs + 1000 * s.fld R.pwrWakeGuard 15 0 - s.power.uptime)).resumeCmd.modPower (fun p =>
        { p with woken := false })
    else s)

/-- One ns passes with no command, and the free plane moves on (log 1). -/
def State.elapse (s : State) : State := (s.pass 1).pump

end Sys2Proof.Machine
end

