-- ==== Sys2Proof/Machine/Registers.lean ====
section
/-!
DEFINITION. Register accesses by every path (00 R3 to R7; 11 R291, R292; 16 R428; 17 R443 to R459): which page an address
names, who may write, what a read returns and clears, and what each write does.
-/
namespace Sys2Proof.Machine

/-! ### Paths (Table 17-8, R291, R428) -/

/-- A path's source number (Table 17-8); the service cores are the hub's. -/
def pathSrc (p : Path) : Nat :=
  match p with
  | .pf | .debug => 0
  | .vf _ => 1
  | .spi => 2
  | .trestle => 3
  | .mgmt => 4
  | .cores => 13

/-- A path's tenant (R23): a VF's own, tenant 0 otherwise. -/
def pathTenant (p : Path) : Nat :=
  match p with
  | .vf n => n.val
  | _ => 0

/-- The path is a function's BAR0: it is answered with a PCIe error (R5). A halted-group debugger goes through PF0's (R91). -/
def pathHost (p : Path) : Bool :=
  match p with
  | .pf | .vf _ | .debug => true
  | .spi | .trestle | .mgmt | .cores => false

/-- Reads through the path clear RC fields: a host's, but not those of a halted-group debugger (R4). -/
def pathClears (p : Path) : Bool := pathHost p && p != .debug

/-- The number of the page that a byte address names on a path: a VF's BAR0 holds its own pages (Table 11-2), every other
path sees the PF's BAR0 (R452). Page 19 is a reserved slot. -/
def pathPage (p : Path) (addr : Nat) : Nat :=
  match p with
  | .vf n => if n.val ≠ 0 ∧ addr < 0x10000 then 0x4000 + 16 * n.val + addr / 4096 else 19
  | _ => addr % 2 ^ 26 / 4096

/-- A page of the PF's BAR0 is a table window (Table 17-4). -/
def inWindow (pg off : Nat) : Bool := (decide (0x60 ≤ pg) && decide (pg < 0x68)) || (pg == 0x68 && decide (off < 0x800))

/-- The page is one of a cluster's (R449). -/
def clusterPage (pg : Nat) : Bool := decide (0x1000 ≤ pg) && decide (pg < 0x2000)

/-- A page that RECOVERY serves: PWR, SAF, ERR, BTF and TAG (R369). -/
def recoveryPage (pg : Nat) : Bool := pg == 13 || pg == 14 || pg == 0 || pg == 17 || pg == 18

/-- A page that the SPI slave serves before firmware runs: PWR, SAF and ERR (Table 14-2). -/
def earlyPage (pg : Nat) : Bool := pg == 13 || pg == 14 || pg == 0

/-- The page is served to the path: none under reset; in RECOVERY those of R369; before firmware runs those of Table 14-2,
to the SPI slave alone. There is no VF 0. -/
def State.pageServed (s : State) (p : Path) (pg : Nat) : Bool :=
  s.power.on && s.power.released && p != .vf 0 &&
    (if s.power.state = .recovery then recoveryPage pg
    else s.island.firmware || (p == .spi && s.island.ready && earlyPage pg))

/-- Table 16-5: a word that the path may write. Tenant 0's paths may write every page; a VF sees its own alone. -/
def mayWrite (p : Path) (pg off : Nat) : Bool :=
  match p with
  | .spi => pg == 13 || pg == 16 || pg == 15 || pg == 17 || pg == 18 || (pg == 3 && (off == 0xA0 || off == 0xA4)) || inWindow pg off
  | .trestle => pg == 13 || pg == 15
  | _ => true

/-- An offset of a page type that holds a register: its header's, or one of its own that the path reaches (R291). -/
def regFor (p : Path) (t : PageType) (off : Nat) : Option RegDef :=
  match regAt t off with
  | some d => if d.pf && (match p with | .vf _ => true | _ => false) then none else some d
  | none => none

/-- The violation of a write through a path (Table 17-7): the register's kind 2 span address, or through a VF's BAR0 its
offset there. -/
def State.writeViol (s : State) (p : Path) (addr code : Nat) : Viol :=
  match p with
  | .vf n => ⟨code, 1, n.val, 1, addr % 2 ^ 20⟩
  | q => ⟨code, pathSrc q, 0, 0, spanReg s.self addr⟩

/-! ### Reads (Table 00-3, R4, R448, R449) -/

/-- What a read of the word at an address returns. -/
def State.readWord (s : State) (p : Path) (addr : Nat) : Nat :=
  let pg := pathPage p addr
  let off := addr % 4096
  if s.pageServed p pg = false then 0
  else if inWindow pg off then (mget 0#32 s.regs (pg * 1024 + off / 4)).toNat
  else match pageAt pg with
    | none => 0
    | some (t, i) =>
      if clusterPage pg && s.dozing then 0
      else if off < 0x40 ∨ (regFor p t off).isSome then s.regValue t i off
      else 0

/-- The register of an address is one that a read clears (Table 00-3): an RC counter, or ERR_CNT. -/
def State.readClears (s : State) (p : Path) (addr : Nat) : Option (PageType × Nat × Nat) :=
  let pg := pathPage p addr
  let off := addr % 4096
  if s.pageServed p pg = false ∨ (clusterPage pg && s.dozing) = true then none
  else match pageAt pg with
    | none => none
    | some (t, i) =>
      if off = hErrCnt then some (t, i, 0)
      else match regFor p t off with
        | some d => if d.acc = .rc then some (t, i, s.bankOf d.bank i) else none
        | none => none

/-- A host read of an RC field clears it (R4); the counts hidden by a freeze stay (R445). -/
def State.rcClear (s : State) (p : Path) (addr : Nat) : State :=
  match s.readClears p addr with
  | some (t, i, b) => s.setRaw t i (addr % 4096) b 0
  | none => s

/-- An access of a cluster page from doze entry to the end of the wake is counted (R449); an SPI read changes nothing (R430). -/
def State.dozeCount (s : State) (p : Path) (addr : Nat) : State :=
  let pg := pathPage p addr
  if s.pageServed p pg && clusterPage pg && (pageAt pg).isSome && s.dozing then s.cnt R.errDozeAcc else s

/-- A register read of one or two words: what it returns, and the state after it (R4, R447). A misaligned one returns 0. -/
def State.regRead (s : State) (p : Path) (addr : Nat) (wide : Bool) : State × Word × Option Word :=
  if addr % (if wide then 8 else 4) ≠ 0 then (s, 0#32, if wide then some 0#32 else none)
  else
    let lo := w32 (s.readWord p addr)
    let hi := if wide then some (w32 (s.readWord p (addr + 4))) else none
    let s1 := if p = .spi then s else s.dozeCount p addr
    let s2 := if pathClears p then (if wide then (s1.rcClear p addr).rcClear p (addr + 4) else s1.rcClear p addr) else s1
    (s2, lo, hi)

/-! ### What a write does -/

/-- How a write ends: done, refused as an illegal-encoding violation with nothing changed, or refused by an operation that
has logged it itself. -/
inductive Effect where
  | done (s : State)
  | refused
  | logged (s : State)

/-- The written value of a register that waits for a seal comes into force where none is coming (R33): in IDLE at once; in
HOLD at once but for SUBST, detour_sel and ROLE, which the resumed attempt takes (R281). -/
def State.deferred (s : State) (t : PageType) (i off bank : Nat) : State :=
  if deferredAt t off = false then s
  else match s.tick.state with
    | .idle => s.takeAll
    | .hold =>
      if (t = .spn ∧ (off = 0x48 ∨ 0xF0 ≤ off)) ∨ (t = .fab ∧ off = 0x40) then s
      else { s with eff := mput s.eff (regKey (pageNo t i) off bank) (w32 (s.rawAt t i off bank)) }
    | _ => s

/-- The dimensions are ones a span may have (R10). -/
def dimsOk (v : Nat) : Bool :=
  decide (1 ≤ bits v 4 0) && decide (bits v 4 0 ≤ 16) && decide (1 ≤ bits v 12 8) && decide (bits v 12 8 ≤ 16) &&
    decide (1 ≤ bits v 19 16) && decide (bits v 19 16 ≤ 8)

/-- A value outside a register's stated range (log 28). -/
def outside (x lo hi : Nat) : Bool := decide (x < lo) || decide (hi < x)

/-- The span's registers refuse a value: ROLE (R16), DIMS and POS (R455), SLICE's count (R87), TCK.CTL (R56), TCK.LEN (R30). -/
def State.spanValueBad (s : State) (t : PageType) (off v : Nat) : Bool :=
  match t with
  | .spn =>
    if off = 0x48 then !roleOk (bits v 4 0) ((s.port 14).ethernet || (s.port 15).ethernet)
    else if off = 0x58 then s.image.loaded || !dimsOk v
    else if off = 0x5C then s.image.loaded
    else decide (0xB0 ≤ off) && decide (off < 0xF0) && bit v 31 && bits v 15 8 == 0
  | .tck =>
    if off = 0x40 then outside (bits v 3 0) 1 15 || outside (bits v 23 16) 1 15 || decide (bits v 23 16 < bits v 3 0)
    else off == 0x44 && outside (bits v 23 0) 20000 10000000
  | _ => false

/-- The registers that refuse a value, of any page: those of the span; routes (R459); detour_sel and REVOKE_CNT (R255, R264);
HOLD_KIB, the time unit's ranges, PWR.DROOP (R374), WAKE_GUARD (R390), MAX_MHZ (R433); the host publication ring (R293, R329); PRT.CTL.test of a live port (R231). -/
def State.valueBad (s : State) (t : PageType) (i off v : Nat) : Bool :=
  match t, off with
  | .fab, 0x40 => decide (8 < bits v 3 0)
  | .fab, 0xA4 => decide (256 < bits v 8 0)
  | .ing, 0x68 => decide (4096 < bits v 12 0)
  | .tim, 0x4C => outside (bits v 3 0) 1 10
  | .tim, 0x5C => outside (bits v 13 0) 10 10000
  | .tim, 0xB4 => outside (bits v 12 0) 4 4096
  | .pwr, 0x4C => s.image.loaded && decide (1850 < floorFor s.image.fSched (bits v 7 0))
  | .pwr, 0x78 => decide (bits v 15 0 < 440)
  | .btf, 0x48 => outside (bits v 6 0) 25 100
  | .prt, 0x40 => bit v 2 && !s.flag R.prtCtl 2 i && s.testRefused i
  | .pub, 0x70 => bit v 8 && s.pubRingBad (bits v 4 0)
  | .err, off => decide (0x100 ≤ off) && (bits v 15 0 == 1 || decide (2047 < bits v 15 0))
  | t, off => s.spanValueBad t off v

/-- What a register keeps of a written value: bit 0 of TEN_EN_0 is always 1 and fused bits of CLU_BAD stay (Table 17-5,
R285); a role set waits as pending (R17). -/
def kept (t : PageType) (off v : Nat) : Nat :=
  if t = .spn ∧ off = 0x90 then v ||| 1
  else if t = .spn ∧ off = 0x48 then v % 32 + 128
  else if t = .wld ∧ 0x80 ≤ off ∧ off < 0xC4 then v ||| (Config.cluBadFuse ((off - 0x80) / 4)).toNat
  else v

/-- PRT.CTL is written (R213, R226, R231, R233): `old` is its value before. -/
def State.portCtl (s : State) (i old : Nat) : State :=
  let v := s.rd R.prtCtl i
  let s1 := if bit v 1 && !bit old 1 then s.optOff i else s
  if bit v 0 != bit old 0 then s1.portEnable i (bit v 0) else s1

/-- What a write of an RW register does beyond storing its value; `old` is the value before. -/
def State.afterWrite (s : State) (t : PageType) (i off old v : Nat) : State :=
  match t, off with
  | .prt, 0x40 => s.portCtl i old
  | .wld, 0x50 => s.chainConfig (s.fld R.wldChainSel 2 0)
  | .spn, 0x58 => s.followDims
  | .prt, 0xC0 => if bit v 16 then s.prbsRestart i else s
  | .pub, 0x70 => if bit v 8 && !bit old 8 then s.pubStart else s
  | .tim, 0x40 => if bit v 2 then s else s.modTime (fun t => { t with ppsOut := false })
  | .ldg, 0x40 | .ldg, 0x44 | .ldg, 0x48 => s.ledgerRestart
  | _, _ => s

/-- A write of an RW register (R450, R455): refused, or stored, with what follows from it, and in force at once or at the
next seal. TGP.DBG_REG_DATA and QCTL are registers of a group and of a queue. -/
def State.writeRw (s : State) (t : PageType) (i off : Nat) (d : RegDef) (v : Nat) : Effect :=
  if t = .tgp ∧ off = 0x74 then .done (s.dbgWrite i (w32 v))
  else if t = .hsq ∧ off = 0x58 then
    let s1 := s.setQueue (i / 64) (i % 64) (bit v 0)
    if bit v 0 && !s.flag R.hsqQctl 0 i && decide (i % 64 < queuesOf (i / 64)) && (s1.queue (i / 64) (i % 64)).state == .off then
      .logged s1 else .done s1
  else if s.valueBad t i off v then .refused
  else
    let b := s.bankOf d.bank i
    let old := s.rawAt t i off b
    let s1 := s.setRaw t i off b (kept t off (v &&& d.wmask))
    .done ((s1.afterWrite t i off old v).deferred t i off b)

/-- ERR.ACK: routes are armed again, and one whose line is still high sends at once (R459). -/
def State.ackRoutes (s : State) (v : Nat) : State :=
  s.each ((List.range 29).filter (bit v)) (fun u t =>
    let u1 := u.modHost (fun h => { h with disarmed := h.disarmed.filter (fun x => x != t) })
    if u1.routeLine t then u1.routeSend t else u1)

/-- SPN.PROG_ADV: the tenant's program boundary comes at the next committing seal, or at once where none is coming (R33, R169). -/
def State.progAdv (s : State) (t : Nat) : State :=
  if s.deferring then s.modTick (fun k => { k with advances := addOnce k.advances t }) else (s.boundary t).snapshot

/-- SPN.CTX_RESTART: the tenant's dead context runs again at the next committing seal, or at once where none is coming (R33,
R90). While its footprints are being zeroed it is not restarted (R312). -/
def State.ctxRestart (s : State) (t : Nat) : State :=
  let s1 := s.modTick (fun k => { k with restarts := addOnce k.restarts t })
  if s.deferring then s1 else s1.settleDead.snapshot

/-- TCK.CMD (R57, R65, R66): the lowest bit set counts (log 28). -/
def State.tckCmd (s : State) (v : Nat) : Effect :=
  if bit v 0 then (if s.startBad then .refused else .done s.startCmd)
  else if bit v 1 then (if s.tick.keystone && s.image.loaded then .done s.holdCmd else .refused)
  else if bit v 2 then (if s.tick.keystone && s.image.loaded then .done s.resumeCmd else .refused)
  else .done s

/-- WLD.CMD (R265, R271, R286). -/
def State.wldCmd (s : State) (v : Nat) : Effect :=
  let e := s.fld R.wldChainSel 2 0
  if bit v 0 then (if s.mayLoad then .done (s.startChain e) else .refused)
  else if bit v 1 then .done s.reloadShare
  else if bit v 2 then .done (s.abortChain e)
  else .done s

/-- WLD.REFILL (R282). -/
def State.wldRefill (s : State) (v : Nat) : Effect :=
  match s.refillOf v with
  | some (e, g) => .done (s.refill e (bits v 16 6) (bits v 18 17) g).pump
  | none => .refused

/-- TIM.CMD (R357, R361). -/
def State.timCmd (s : State) (v : Nat) : Effect :=
  if bit v 0 then (if s.timeMaySet then .done s.setTime else .refused)
  else if bit v 1 then .done s.latchTime
  else .done s

/-- PWR.CMD (R366, R372, R384, R388). -/
def State.pwrCmd (s : State) (v : Nat) : Effect :=
  if bit v 0 then (if s.mayDoze then .done s.askDoze else .refused)
  else if bit v 1 then .done (s.wake 0)
  else if bit v 2 then .done s.avsRetry
  else if bit v 3 then .done (s.warmReset 4 true)
  else .done s

/-- CMDQ_DB: a doorbell is also a wake source (R294, Table 14-6). -/
def State.writeDb (s : State) (i v : Nat) : Effect :=
  let x := s.queue (i / 64) (i % 64)
  let s1 := (s.cmdqDb (i / 64) (i % 64) v).wake 1
  if decide (i % 64 < queuesOf (i / 64)) && s.fnUp (i / 64) && x.state != .off && decide (2 ^ x.size ≤ v % 65536) then .logged s1
  else .done s1

/-- HDL.CMD (R199). -/
def State.writeHdl (s : State) (p : Path) (c v : Nat) : Effect :=
  let s1 := s.hdlCmd c v (pathSrc p)
  if bit v 0 && (s1.cluster c).hdlRefused then .logged s1 else .done s1

/-- A write of a hub page's WO register. Portal words are taken as whole records alone (Table 10-5), and DOZE_NOTE from the
keystone's service cores alone (Table 14-8). -/
def State.writeHubWo (s : State) (p : Path) (t : PageType) (off v : Nat) : Effect :=
  match t, off with
  | .tck, 0x80 => s.tckCmd v
  | .spn, 0x50 => .done (s.progAdv (bits v 7 0))
  | .spn, 0x54 => .done (s.ctxRestart (bits v 7 0))
  | .wld, 0x64 => s.wldCmd v
  | .wld, 0x68 => s.wldRefill v
  | .xlt, 0x50 => .done (s.invalidate (bits v 1 0))
  | .pub, 0x74 => .done (s.pubHead (bits v 15 0))
  | .ldg, 0x4C => .done (s.ledgerHead (bits v 15 0))
  | .ldg, 0x58 => .done (if bit v 0 then s.newNight else s)
  | .tim, 0x84 => s.timCmd v
  | .tim, 0xB0 => .done (s.takeNote v)
  | .pwr, 0x70 => s.pwrCmd v
  | .pwr, 0x7C => .done (if p = .mgmt ∨ p = .cores then s.enterDoze else s)
  | .saf, 0x48 => .done (s.kickIsland p)
  | .btf, 0x50 => if s.flashRefused v then .refused else .done (s.flashStart v)
  | .err, 0x98 => .done (s.ackRoutes v)
  | _, _ => .done s

/-- A write of a WO register. -/
def State.writeWo (s : State) (p : Path) (t : PageType) (i off v : Nat) : Effect :=
  match t, off with
  | .hst, 0x44 => .done (s.slotRel i v)
  | .hsq, 0x5C => .done (if bit v 0 then s.queueRestart (i / 64) (i % 64) else s)
  | .hsq, 0x100 => s.writeDb i v
  | .hsq, 0x104 => .done (s.ringDb (i / 64) (i % 64) v)
  | .tgp, 0x64 => .done (s.dbgCmd i v)
  | .hdl, 0x54 => s.writeHdl p i v
  | t, off => s.writeHubWo p t off v

/-- A W1C field of a block register: unc_alarm, SPI.STS, the island's alert (R211, R432, Table 15-9), or stored bits. -/
def State.writeW1c (s : State) (t : PageType) (i off v : Nat) : State :=
  match t, off with
  | .prt, 0x44 => if bit v 17 then s.modPort i (fun x => { x with uncAlarm := false }) else s
  | .spi, 0x40 => { s with spi := { s.spi with
      partialFrame := s.spi.partialFrame && !bit v 0, badCmd := s.spi.badCmd && !bit v 1 } }
  | .saf, 0x40 => if bit v 2 then s.alertAck else s
  | .hst, off =>
    let old := s.rawAt .hst i off 0
    s.setRaw .hst i off 0 (old - (old &&& v))
  | _, _ => s

/-! ### Headers (R443 to R446) -/

/-- The counts that a freeze hid are added to their counters (R445). -/
def State.unfreeze (s : State) (pg : Nat) : State :=
  { s with
    regs := (s.hidden.filter (fun p => p.1 / 1024 % 65536 == pg)).foldl (fun m p =>
      mput m p.1 (w32 (satAdd (mget 0#32 m p.1).toNat p.2))) s.regs
    hidden := s.hidden.filter (fun p => p.1 / 1024 % 65536 != pg) }

/-- CTL.freeze is written (R445). -/
def State.setFreeze (s : State) (pg : Nat) (on : Bool) : State :=
  let s1 := s.setHdr pg hCtl (b2n on)
  if on then s1 else s1.unfreeze pg

/-- ERR_INFO.valid written 1: valid and more clear, and the capture registers are released (R444). -/
def State.releaseCapture (s : State) (pg : Nat) : State := s.setHdr pg hErrInfo (s.hdr pg hErrInfo % 2 ^ 30)

/-- A header register's W1C and W1S fields, which a lock leaves working (R446). -/
def State.writeHead (s : State) (pg off v : Nat) : State :=
  if off = hCtl then s.setFreeze pg (bit v 0)
  else if off = hIrqEn then s.setIrq pg hIrqEn (v % 256)
  else if off = hIrqSts then s.setHdr pg hIrqSts (s.hdr pg hIrqSts - (s.hdr pg hIrqSts &&& v))
  else if off = hErrInfo ∧ bit v 31 = true then s.releaseCapture pg
  else if off = hLock ∧ bit v 0 = true then s.setHdr pg hLock 1
  else s

/-! ### One written word (R446 to R449) -/

/-- What became of one written word: the state, the violation to log and its page, whether the writer is answered with an
error, and whether that is for want of the right (Table 16-5). -/
structure Wrote where
  state : State
  viol : Option (Nat × Viol)
  refused : Bool
  denied : Bool

/-- A write with its effect. -/
def Wrote.ok (s : State) : Wrote := ⟨s, none, false, false⟩

/-- A write that a page refuses with a code. -/
def State.refuseWrite (s : State) (p : Path) (pg addr code : Nat) : Wrote := ⟨s, some (pg, s.writeViol p addr code), true, false⟩

/-- A word the path may not write is dropped and counted, unlogged (R432, R419, R448). -/
def State.denyWord (s : State) (p : Path) : Wrote :=
  ⟨if p = .spi then s.cnt R.spiWrDeny else s.cnt R.trsWrDeny, none, true, true⟩

/-- A write to a reserved page slot or an undefined offset (R448). -/
def State.unmapped (s : State) (p : Path) (addr : Nat) : Wrote :=
  match p with
  | .vf n => s.refuseWrite p (pageNo .hst n.val) addr 0x13
  | .spi | .trestle => s.denyWord p
  | _ => (s.cnt R.errUnmappedCnt).refuseWrite p 0 addr 0x13

/-- The page is locked (R446). -/
def State.locked (s : State) (pg : Nat) : Bool := bit (s.hdr pg hLock) 0

/-- An effect as a written word. -/
def Effect.wrote (e : Effect) (s : State) (p : Path) (pg addr : Nat) : Wrote :=
  match e with
  | .done t => .ok t
  | .refused => s.refuseWrite p pg addr 0x10
  | .logged t => ⟨t, none, true, false⟩

/-- A write of a block register by its access type (Table 00-3, R446): a read-only or RC field takes no write. The debug
registers are PF0's alone (R91). -/
def State.writeReg (s : State) (p : Path) (t : PageType) (i addr : Nat) (d : RegDef) (v : Nat) : Wrote :=
  let pg := pageNo t i
  let off := addr % 4096
  if t = .tgp ∧ 0x60 ≤ off ∧ p ≠ .pf ∧ p ≠ .debug then s.refuseWrite p pg addr 0x11
  else match d.acc with
    | .wo => (s.writeWo p t i off v).wrote s p pg addr
    | .w1c => .ok (s.writeW1c t i off v)
    | .rc => .ok s
    | _ =>
      let s1 := if d.w1c = 0 then s else s.writeW1c t i off v
      if d.wmask = 0 then .ok s1
      else if s.locked pg then
        (if t = .prt ∧ off = 0xC0 ∧ bit v 16 = true then s1.prbsRestart i else s1).refuseWrite p pg addr 0x12
      else (s1.writeRw t i off d v).wrote s1 p pg addr

/-- One word written at an address by a path. -/
def State.writeWord (s : State) (p : Path) (addr v : Nat) : Wrote :=
  let pg := pathPage p addr
  let off := addr % 4096
  if s.pageServed p pg = false then .ok s
  else if mayWrite p pg off = false then s.denyWord p
  else if inWindow pg off then .ok { s with regs := mput s.regs (pg * 1024 + off / 4) (w32 v) }
  else match pageAt pg with
    | none => s.unmapped p addr
    | some (t, i) =>
      if clusterPage pg && s.dozing then .ok (s.cnt R.errDozeAcc)
      else if off < 0x40 then
        if (off = hCtl ∨ off = hIrqEn) ∧ s.locked pg = true then s.refuseWrite p pg addr 0x12
        else .ok (s.writeHead pg off v)
      else match regFor p t off with
        | none => s.unmapped p addr
        | some d => s.writeReg p t i addr d v

/-- The violations of one access are logged; two that reach one page do so in one clk (R7). -/
def State.logViols (s : State) (a b : Option (Nat × Viol)) : State :=
  match a, b with
  | some (m, v), some (n, w) => if m = n then s.violateAll m v [w] else (s.violateAll m v []).violateAll n w []
  | some (m, v), none | none, some (m, v) => s.violateAll m v []
  | none, none => s

/-- A register write of one or two words (R447): the state, whether the writer is answered with an error, and whether for
want of the right. -/
def State.regWriteR (s : State) (p : Path) (addr : Nat) (v : Word) (hi : Option Word) : State × Bool × Bool :=
  let a := s.writeWord p addr v.toNat
  match hi with
  | none => (a.state.logViols a.viol none, a.refused, a.denied)
  | some w =>
    let b := a.state.writeWord p (addr + 4) w.toNat
    (b.state.logViols a.viol b.viol, a.refused || b.refused, a.denied || b.denied)

/-- A register write by a path (R447, R5): a misaligned one is R292's; the host's refused one is answered with an error. -/
def State.regWrite (s : State) (p : Path) (addr : Nat) (v : Word) (hi : Option Word) : State :=
  if addr % (match hi with | some _ => 8 | none => 4) ≠ 0 then s.badAccess p addr
  else
    let r := s.regWriteR p addr v hi
    if r.2.1 && pathHost p then r.1.send (.denied p addr) else r.1

/-- A register's address in the PF's BAR0 (Table 17-3). -/
def regAddr (r : Reg) (i : Nat) (idx : Nat) : Nat := pageNo r.page i * 4096 + r.off + 4 * idx

/-- A path writes a whole register. -/
def State.put (s : State) (p : Path) (r : Reg) (v : Nat) (i : Nat := 0) (idx : Nat := 0) : State :=
  s.regWrite p (regAddr r i idx) (w32 v) none

/-- A path writes one field of a register, its other fields as they stand. -/
def State.putField (s : State) (p : Path) (r : Reg) (hi lo v : Nat) (i : Nat := 0) : State :=
  s.put p r (setBits (s.rd r i) hi lo v) i

/-! ### The commands -/

/-- REGISTER_WRITE: a register by its address; an 8-byte write acts on two registers in one clk (R447, R450). -/
def execRegisterWrite (p : Path) (addr : Nat) (v : Word) (hi : Option Word) (s : State) : Res := .next (s.regWrite p addr v hi)

/-- RC_READ: a read of a register, or of two in one clk; a host read clears an RC field (R4, R447). -/
def execRcRead (p : Path) (addr : Nat) (wide : Bool) (s : State) : Res :=
  let r := s.regRead p addr wide
  .next (r.1.send (.regData p addr r.2.1 r.2.2))

/-- The address of a header register of the page that an address lies in. -/
def headAddr (addr off : Nat) : Nat := addr / 4096 * 4096 + off

/-- ERR_INFO_VALID_CLEAR (R444). -/
def execErrInfoValidClear (p : Path) (addr : Nat) (s : State) : Res :=
  .next (s.regWrite p (headAddr addr hErrInfo) (w32 (2 ^ 31)) none)

/-- FREEZE: CTL.freeze set or cleared (R445). -/
def execFreeze (p : Path) (addr : Nat) (on : Bool) (s : State) : Res :=
  .next (s.regWrite p (headAddr addr hCtl) (w32 (b2n on)) none)

/-- LOCK (R446). -/
def execLock (p : Path) (addr : Nat) (s : State) : Res := .next (s.regWrite p (headAddr addr hLock) 1#32 none)

/-- ACK (R459). -/
def execAck (p : Path) (v : Word) (s : State) : Res := .next (s.put p R.errAck v.toNat)

/-- ROUTE_WRITE (R459). -/
def execRouteWrite (p : Path) (t : Fin 29) (v : Word) (s : State) : Res := .next (s.put p R.errRoute v.toNat 0 t)

/-- ROLE_WRITE (R16, R17). -/
def execRoleWrite (p : Path) (v : Word) (s : State) : Res := .next (s.put p R.spnRole v.toNat)

/-- DIMS_WRITE (R455). -/
def execDimsWrite (p : Path) (v : Word) (s : State) : Res := .next (s.put p R.spnDims v.toNat)

/-- POS_WRITE (R455). -/
def execPosWrite (p : Path) (v : Word) (s : State) : Res := .next (s.put p R.spnPos v.toNat)

/-- START: TCK.CMD.start (R66). -/
def execStart (p : Path) (s : State) : Res := .next (s.put p R.tckCmd 1)

/-- HOLD: TCK.CMD.hold (R65). -/
def execHold (p : Path) (s : State) : Res := .next (s.put p R.tckCmd 2)

/-- RESUME: TCK.CMD.resume (R57). -/
def execResume (p : Path) (s : State) : Res := .next (s.put p R.tckCmd 4)

/-- STRETCH_REQ: TCK.CTL.stretch_req set or cleared (R58). -/
def execStretchReq (p : Path) (on : Bool) (s : State) : Res := .next (s.putField p R.tckCtl 8 8 (b2n on))

/-- RERUN_LIMIT_ATTEMPT_CAP_WRITE (R56). -/
def execRerunLimitAttemptCapWrite (p : Path) (limit cap : Nat) (s : State) : Res :=
  .next (s.put p R.tckCtl (setBits (setBits (s.rd R.tckCtl) 3 0 limit) 23 16 cap))

/-- DET_MODE_WRITE: SPN.CTL.det_mode (R61). -/
def execDetModeWrite (p : Path) (on : Bool) (s : State) : Res := .next (s.putField p R.spnCtl 0 0 (b2n on))

/-- CTX_RESTART (R90). -/
def execCtxRestart (p : Path) (tenant : Fin 256) (s : State) : Res := .next (s.put p R.spnCtxRestart tenant)

/-- DEBUG_HALT: TGP.DBG_CMD.halt (R91). -/
def execDebugHalt (p : Path) (c : Fin 512) (s : State) : Res := .next (s.put p R.tgpDbgCmd 1 c)

/-- DEBUG_STEP: TGP.DBG_CMD.step (R92). -/
def execDebugStep (p : Path) (c : Fin 512) (s : State) : Res := .next (s.put p R.tgpDbgCmd 2 c)

/-- DEBUG_RESUME: TGP.DBG_CMD.resume (R92). -/
def execDebugResume (p : Path) (c : Fin 512) (s : State) : Res := .next (s.put p R.tgpDbgCmd 4 c)

/-- DBG_REG_DATA_WRITE (R92). -/
def execDbgRegDataWrite (p : Path) (c : Fin 512) (v : Word) (s : State) : Res := .next (s.put p R.tgpDbgRegData v.toNat c)

/-- PROG_ADV (R169). -/
def execProgAdv (p : Path) (tenant : Fin 256) (s : State) : Res := .next (s.put p R.spnProgAdv tenant)

/-- HDL_WRITE: HDL.CMD.write (R199). -/
def execHdlWrite (p : Path) (c : Fin 512) (s : State) : Res := .next (s.put p R.hdlCmd 1 c)

/-- HDL_READ: HDL.CMD.read (R199). -/
def execHdlRead (p : Path) (c : Fin 512) (s : State) : Res := .next (s.put p R.hdlCmd 2 c)

/-- LASER_OFF: PRT.CTL.laser_off set or cleared (R226). -/
def execLaserOff (p : Path) (port : Fin 16) (on : Bool) (s : State) : Res := .next (s.putField p R.prtCtl 1 1 (b2n on) port)

/-- TEST: PRT.CTL.test set or cleared (R231). -/
def execTest (p : Path) (port : Fin 16) (on : Bool) (s : State) : Res := .next (s.putField p R.prtCtl 2 2 (b2n on) port)

/-- LOOPBACK: PRT.CTL.loopback (R233). -/
def execLoopback (p : Path) (port : Fin 16) (sel : Fin 4) (s : State) : Res := .next (s.putField p R.prtCtl 5 4 sel port)

/-- PRBS_RESTART: PRT.PRBS_CTL.restart (R232). -/
def execPrbsRestart (p : Path) (port : Fin 16) (s : State) : Res := .next (s.putField p R.prtPrbsCtl 16 16 1 port)

/-- SPC_ENABLE: PRT.SPC_CTL.enable (R234). -/
def execSpcEnable (p : Path) (port : Fin 16) (on : Bool) (s : State) : Res := .next (s.put p R.prtSpcCtl (b2n on) port)

/-- PORT_ENABLE: PRT.CTL.enable set or cleared (R213). -/
def execPortEnable (p : Path) (port : Fin 16) (on : Bool) (s : State) : Res := .next (s.putField p R.prtCtl 0 0 (b2n on) port)

/-- DETOUR_SELECT: FAB.CTL.detour_sel (R255). -/
def execDetourSelect (p : Path) (sel : Fin 16) (s : State) : Res := .next (s.put p R.fabCtl sel)

/-- REVOKE_CNT_WRITE (R264). -/
def execRevokeCntWrite (p : Path) (v : Word) (s : State) : Res := .next (s.put p R.fabRevokeCnt v.toNat)

/-- CHAIN_START: WLD.CMD.start (R265). -/
def execChainStart (p : Path) (s : State) : Res := .next (s.put p R.wldCmd 1)

/-- CHAIN_ABORT: WLD.CMD.abort (R286). -/
def execChainAbort (p : Path) (s : State) : Res := .next (s.put p R.wldCmd 4)

/-- RELOAD: WLD.CMD.reload (R271). -/
def execReload (p : Path) (s : State) : Res := .next (s.put p R.wldCmd 2)

/-- REFILL: WLD.REFILL (R282). -/
def execRefill (p : Path) (v : Word) (s : State) : Res := .next (s.put p R.wldRefill v.toNat)

/-- QUEUE_ENABLE: QCTL.enable set or cleared by the function's own path (R293). -/
def execQueueEnable (fn : Fin 256) (q : Fin 64) (on : Bool) (s : State) : Res :=
  .next (s.regWrite (fnPath fn) (queueOff fn q 0x58) (w32 (b2n on)) none)

/-- CMDQ_DOORBELL (R294). -/
def execCmdqDoorbell (fn : Fin 256) (q : Fin 64) (v : Word) (s : State) : Res :=
  .next (s.regWrite (fnPath fn) (queueOff fn q 0x100) v none)

/-- RING_DOORBELL (R298). -/
def execRingDoorbell (fn : Fin 256) (q : Fin 64) (v : Word) (s : State) : Res :=
  .next (s.regWrite (fnPath fn) (queueOff fn q 0x104) v none)

/-- QUEUE_RESTART: QCMD.restart (R307). -/
def execQueueRestart (fn : Fin 256) (q : Fin 64) (s : State) : Res :=
  .next (s.regWrite (fnPath fn) (queueOff fn q 0x5C) 1#32 none)

/-- SLOT_RELEASE: HST.SLOT_REL of the function's own page (R304). -/
def execSlotRelease (fn : Fin 256) (v : Word) (s : State) : Res :=
  .next (s.regWrite (fnPath fn) ((if fn.val = 0 then 0x5000 else 0) + 0x44) v none)

/-- INVALIDATE: XLT.INV_CTL (R308). -/
def execInvalidate (p : Path) (scope : Fin 4) (s : State) : Res := .next (s.put p R.xltInvCtl scope)

/-- PUB_RING_DOORBELL: PUB.RING_DB (R329). -/
def execPubRingDoorbell (p : Path) (v : Word) (s : State) : Res := .next (s.put p R.pubRingDb v.toNat)

/-- LEDGER_DOORBELL: LDG.HDB (R332). -/
def execLedgerDoorbell (p : Path) (v : Word) (s : State) : Res := .next (s.put p R.ldgHdb v.toNat)

/-- NEW_NIGHT: LDG.CMD.new_night (R331). -/
def execNewNight (p : Path) (s : State) : Res := .next (s.put p R.ldgCmd 1)

/-- TIME_SET: TIM.CMD.set (R357). -/
def execTimeSet (p : Path) (s : State) : Res := .next (s.put p R.timCmd 1)

/-- TIME_LATCH: TIM.CMD.latch (R361). -/
def execTimeLatch (p : Path) (s : State) : Res := .next (s.put p R.timCmd 2)

/-- SQ_NOTE: TIM.SQ_NOTE (R359). -/
def execSqNote (p : Path) (v : Word) (s : State) : Res := .next (s.put p R.timSqNote v.toNat)

/-- WARM: PWR.CMD.warm (R372). -/
def execWarm (p : Path) (s : State) : Res := .next (s.put p R.pwrCmd 8)

/-- AVS_RETRY: PWR.CMD.avs_retry (R366). -/
def execAvsRetry (p : Path) (s : State) : Res := .next (s.put p R.pwrCmd 4)

/-- DOZE: PWR.CMD.doze (R384). -/
def execDoze (p : Path) (s : State) : Res := .next (s.put p R.pwrCmd 1)

/-- DOZE_NOTE: PWR.DOZE_NOTE (R385). -/
def execDozeNote (p : Path) (s : State) : Res := .next (s.put p R.pwrDozeNote 1)

/-- WAKE: PWR.CMD.wake (R388). -/
def execWake (p : Path) (s : State) : Res := .next (s.put p R.pwrCmd 2)

/-- KICK: SAF.KICK (R409). -/
def execKick (p : Path) (v : Word) (s : State) : Res := .next (s.put p R.safKick v.toNat)

/-- ALERT_ACK: SAF.STS.alert written 1 (R409). -/
def execAlertAck (p : Path) (s : State) : Res := .next (s.put p R.safSts 4)

/-- FLASH_ERASE: BTF.CMD.erase (R436). -/
def execFlashErase (p : Path) (s : State) : Res := .next (s.put p R.btfCmd 1)

/-- FLASH_PROGRAM: BTF.CMD.program (R436). -/
def execFlashProgram (p : Path) (s : State) : Res := .next (s.put p R.btfCmd 2)

/-- FLASH_READ: BTF.CMD.read (R436). -/
def execFlashRead (p : Path) (s : State) : Res := .next (s.put p R.btfCmd 4)

end Sys2Proof.Machine
end

