-- ==== Sys2Proof/Machine/Paths.lean ====
section
/-!
DEFINITION. Frames of the free plane as they arrive (09 R236 to R257), and register accesses over the Trestle line and the
SPI slave (16 R419, R420, R428 to R432).
-/
namespace Sys2Proof.Machine

/-! ### MGMT requests (R250, R447) -/

/-- A MGMT request is refused with a code, and logged (R22, R251, Table 09-10). -/
def State.mgmtNack (s : State) (h : RHead) (b : Access) (code : Nat) : State :=
  ((s.violate .fab 0 ⟨code, 4, h.tenant, 0, b.addr⟩).cnt R.fabNackTx).respond true h b 1 code []

/-- The logical number of the keystone: of the last marker, or as TCK.KS_CFG names it. -/
def State.keystoneNo (s : State) : Nat :=
  if s.tick.keystone then s.self else match s.tick.last with
    | some m => m.keystone
    | none => bits (s.inForce R.tckKsCfg) 10 0

/-- A MGMT write of one word: answered OK, or with a NACK where the register refuses it (R5). A doze notice that is not the
keystone's is dropped (Table 14-8). -/
def State.mgmtWrite (s : State) (h : RHead) (b : Access) (data : List Byte) : State :=
  if b.addr % 2 ^ 26 = 0xD07C ∧ s.physical s.keystoneNo ≠ some h.src then s.respond true h b 0 0 []
  else
  let r := s.regWriteR .mgmt (b.addr % 2 ^ 26) (w32 (leAt data 0 4)) none
  if r.2.1 then (r.1.cnt R.fabNackTx).respond true h b 1 Config.refusalNack [] else r.1.respond true h b 0 0 []

/-- A MGMT write of SPN.ROLE by a tenant other than 0: NO_RIGHT, logged in SPN, and answered like any tenant's (R16, Table
17-7). -/
def State.roleDenied (s : State) (h : RHead) (b : Access) : State :=
  ((s.violate .spn 0 ⟨0x11, 4, h.tenant, 0, b.addr⟩).cnt R.fabNackTx).respond true h b 1 0x44 []

/-- The request writes SPN.ROLE. -/
def asksRole (b : Access) : Bool := b.op == 1 && b.size == 4 && b.addr % 2 ^ 26 == 0x1048

/-- A MGMT read of one word: it clears nothing (R4). -/
def State.mgmtRead (s : State) (h : RHead) (b : Access) : State :=
  let r := s.regRead .mgmt (b.addr % 2 ^ 26) false
  r.1.respond true h b 0 0 (leBytes 4 r.2.1.toNat)

/-- A MGMT request is served from the inbox and answered (R250, R447): 4 bytes of a kind 2 address, from tenant 0 alone. -/
def State.serveMgmt (s : State) (h : RHead) (b : Access) (data : List Byte) : State :=
  if spanBad b.addr ∨ bits b.addr 44 42 ≠ 2 then s.mgmtNack h b 0x40
  else if h.tenant ≠ 0 then (if asksRole b then s.roleDenied h b else s.mgmtNack h b 0x44)
  else if b.size ≠ 4 ∨ b.addr % 4 ≠ 0 ∨ 2 ≤ b.op then s.mgmtNack h b 0x47
  else if b.op = 1 then s.mgmtWrite h b data
  else s.mgmtRead h b

/-- This device's own MGMT requests to itself are served, and the free plane moves on (R250). -/
def State.serveOwn (s : State) : State :=
  let l := s.fabric.back.filter (fun f => f.cls == .mgmt)
  if l.isEmpty then s.pump
  else (((s.modFab (fun f => { f with back := f.back.filter (fun g => g.cls != .mgmt) })).each l
    (fun t f => t.serveMgmt f.head f.access f.data))).pump

/-! ### Routed frames (R248 to R254) -/

/-- The comparators disagree on a frame's tag, or on the tag a kind 2 address may have: the frame is refused as one whose tag
is not enabled (R22, R252, R402). -/
def State.refuseFrame (s : State) (port : Nat) (f : RFrame) : State :=
  match f.cls with
  | .req => s.refuseAccess .fab 0 port f.head f.access 0x41 0x15
  | .toss => s.refuseAccess .fab 0 17 f.head f.access 0x41 0x15
  | .mgmt => s.mgmtNack f.head f.access 0x44
  | .rsp | .mgmtRsp => s.tagOff f.head.tenant none

/-- A frame whose destination is this device (R251, R254 step 2). -/
def State.consume (s : State) (port : Nat) (f : RFrame) : State :=
  let h := f.head
  if s.island.disagree then s.disagreed.refuseFrame port f
  else match f.cls with
  | .req => s.serve port h f.access f.data
  | .toss => s.serve 17 h f.access f.data
  | .mgmt => s.serveMgmt h f.access f.data
  | .rsp | .mgmtRsp => if s.tagOn h.tenant then s.deliver f else s.tagOff h.tenant none

/-- A request with a malformed address met in transit is refused with ADDR (Table 09-10); a toss is dropped and counted. -/
def State.badInTransit (s : State) (port : Nat) (f : RFrame) : State :=
  match f.cls with
  | .req => s.refuseAccess .fab 0 port f.head f.access 0x40 0x40
  | .toss => s.refuseAccess .fab 0 17 f.head f.access 0x40 0x40
  | .mgmt => s.mgmtNack f.head f.access 0x40
  | _ => s

/-- The frame carries an access block (Table 09-4). -/
def hasAccess (c : RClass) : Bool := c == .req || c == .toss || c == .mgmt

/-- A frame received whole: discarded where its tag is not enabled span-wide (R252), delivered here, or forwarded (R254). -/
def State.frameAt (s : State) (port : Nat) (f : RFrame) : State :=
  if !s.spanTag f.head.tenant then
    (s.tagOff f.head.tenant (if hasAccess f.cls then some f.access.addr else none)).freeUnits port f
  else if f.head.dst = s.rd R.spnPos then (s.freeUnits port f).consume port f
  else if hasAccess f.cls && spanBad f.access.addr then (s.freeUnits port f).badInTransit port f
  else
    let r := s.forward port f
    if r.2 then r.1 else r.1.noHop port f

/-- A routed frame arrives on a port (R239 to R241): one that its codewords damaged comes again by link retry, but a toss is
lost and counted (R249). -/
def State.routedIn (s : State) (port : Nat) (a : Arrival) (f : RFrame) : State :=
  match s.receive port (clsNo f.cls) a with
  | (t, .good) => (t.frameAt port f).serveOwn
  | (t, .damaged) => if f.cls = .toss then t.cnt R.fabTossDrop else t
  | (t, .dropped) => t

/-- The response block of a frame that has none. -/
def noResp : Response := ⟨0, 0, 0, 0, 0⟩

/-- The access block of a frame that has none. -/
def noAccess : Access := ⟨0, 0, 0, 0, 0, 0, 0, 0, 0⟩

/-- REQ (R251). -/
def execReq (port : Fin 16) (a : Arrival) (h : RHead) (b : Access) (data : List Byte) (s : State) : Res :=
  .next (s.routedIn port a ⟨.req, h, b, noResp, data⟩)

/-- FRAME_FORWARD: a routed frame of any class (R254). -/
def execFrameForward (port : Fin 16) (a : Arrival) (f : RFrame) (s : State) : Res := .next (s.routedIn port a f)

/-- RSP (R248). -/
def execRsp (port : Fin 16) (a : Arrival) (h : RHead) (r : Response) (data : List Byte) (s : State) : Res :=
  .next (s.routedIn port a ⟨.rsp, h, noAccess, r, data⟩)

/-- MGMT (R250). -/
def execMgmt (port : Fin 16) (a : Arrival) (h : RHead) (b : Access) (data : List Byte) (s : State) : Res :=
  .next (s.routedIn port a ⟨.mgmt, h, b, noResp, data⟩)

/-- MGMT_RESPONSE (R250). -/
def execMgmtResponse (port : Fin 16) (a : Arrival) (h : RHead) (r : Response) (data : List Byte) (s : State) : Res :=
  .next (s.routedIn port a ⟨.mgmtRsp, h, noAccess, r, data⟩)

/-- TOSS (R251). -/
def execToss (port : Fin 16) (a : Arrival) (h : RHead) (b : Access) (data : List Byte) (s : State) : Res :=
  .next (s.routedIn port a ⟨.toss, h, b, noResp, data⟩)

/-- The earliest due time among the held atomics (R257). -/
def State.nextDue (s : State) : Option Nat :=
  match s.fabric.atomics.map (fun a => dueOf a.access) with
  | [] => none
  | d :: l => some (l.foldl min d)

/-- ATOMIC_DUE: the tick timer reaches the earliest due time; the atomics that are due are applied in ascending HSN (R257). -/
def execAtomicDue (s : State) : Res :=
  .next (match s.nextDue with
    | some d => (s.passTo d).atomicsDue.serveOwn
    | none => s)

/-! ### The Trestle line (R419, R420) -/

/-- A REQ's address and count are ones Table 16-4 allows. -/
def trsReqOk (count addr : Nat) : Bool := decide (1 ≤ count) && decide (count ≤ 30) && addr % 4 == 0 && decide (addr < 2 ^ 26)

/-- The RSP of a REQ: status 0 OK, 1 DENIED, 2 BAD (Table 16-4). -/
def trsRsp (status count : Nat) (words : List Nat) : List Byte :=
  leBytes 1 status ++ leBytes 1 count ++ zeros 2 ++ words.flatMap (leBytes 4)

/-- Read `n` words from an address over the Trestle line. -/
def State.trsWords (s : State) (addr n : Nat) : State × List Nat :=
  (List.range n).foldl (fun x i =>
    let r := x.1.regRead .trestle (addr + 4 * i) false
    (r.1, x.2 ++ [r.2.1.toNat])) (s, [])

/-- Write words in address order: the state, whether one was denied, and whether one was refused (R419, R5). -/
def State.trsStore (s : State) (addr : Nat) (words : List Word) : State × Bool × Bool :=
  words.zipIdx.foldl (fun x w =>
    let r := x.1.regWriteR .trestle (addr + 4 * w.2) w.1 none
    (r.1, x.2.1 || r.2.2, x.2.2 || (r.2.1 && !r.2.2))) (s, false, false)

/-- A REQ arrives: executed once, answered again from the cache, or dropped (R417, R420). A
REQ that resets the device leaves nothing of itself. -/
def State.trsReq (s : State) (h : TrsHead) (run : State → State × List Byte) : State :=
  if !s.trsOn then s
  else match s.trsReceive h with
    | none => s
    | some s1 =>
      if !s1.trsMine h then s1
      else match s1.reqSeen h with
        | .again p => s1.trsReply h.src h.seq p
        | .old => s1.cnt R.trsDupDrop
        | .fresh =>
          let r := run s1
          if r.1.trsOn then r.1.trsExecuted h r.2 else r.1

/-- TRESTLE_READ (R419). -/
def execTrestleRead (h : TrsHead) (count addr : Nat) (s : State) : Res :=
  .next (s.trsReq h (fun t =>
    if trsReqOk count addr then
      let r := t.trsWords addr count
      (r.1, trsRsp 0 count r.2)
    else (t, trsRsp 2 count [])))

/-- TRESTLE_WRITE (R419). -/
def execTrestleWrite (h : TrsHead) (addr : Nat) (words : List Word) (s : State) : Res :=
  .next (s.trsReq h (fun t =>
    if trsReqOk words.length addr then
      let r := t.trsStore addr words
      (r.1, trsRsp (if r.2.1 then 1 else if r.2.2 then 2 else 0) words.length [])
    else (t, trsRsp 2 words.length [])))

/-! ### The SPI slave (R429 to R432) -/

/-- The SPI slave runs (Table 14-2). -/
def State.spiOn (s : State) : Bool := s.power.on && s.power.released && (s.island.ready || s.island.firmware)

/-- SPI.STS (Table 16-11). -/
def State.spiSts (s : State) : Word := w32 (s.regValue .spi 0 0x40)

/-- Fields of a command word (R429). -/
def spiOp (cmd : Word) : Nat := bits cmd.toNat 31 28
def spiCount (cmd : Word) : Nat := bits cmd.toNat 10 0

/-- A bad command (R431). -/
def spiBad (cmd addr : Word) : Bool :=
  (spiOp cmd != 1 && spiOp cmd != 2) || bits cmd.toNat 27 24 != 15 - spiOp cmd || bits cmd.toNat 23 11 != 0 ||
    spiCount cmd == 0 || decide (1024 < spiCount cmd) || addr.toNat % 4 != 0 || bits addr.toNat 31 26 != 0

/-- Data words that lie within the count and within BAR0; the others are extra (R429, R432). -/
def spiRoom (cmd addr : Word) : Nat := min (spiCount cmd) ((2 ^ 26 - addr.toNat) / 4)

/-- Select rises: a frame that expected more is a partial one (R432). -/
def State.spiEnd (s : State) : State :=
  let s1 : State := { s with spi := { s.spi with
    inFrame := false, expected := 0, partialFrame := s.spi.partialFrame || (s.spi.inFrame && s.spi.expected != 0) } }
  if s.spi.inFrame && s.spi.expected != 0 then s1.cnt R.spiPartialCnt else s1

/-- A frame begins: select falls, and its mode is seen (R428, Table 16-11). -/
def State.spiBegin (s : State) (mode3 : Bool) : State :=
  let s1 := s.spiEnd
  { s1 with spi := { s1.spi with inFrame := true, mode3 := mode3 } }

/-- A bad command: the rest of the frame is ignored (R431). -/
def State.spiRefuse (s : State) (sts : Word) : State :=
  (({ s with spi := { s.spi with badCmd := true } } : State).cnt R.spiBadcmdCnt).send (.miso [sts, 0#32])

/-- What a frame still expects after the words it has had (R432). -/
def State.spiExpect (s : State) (n : Nat) : State := { s with spi := { s.spi with expected := n } }

/-- SPI_READ: the frame's data words, `words` of them clocked; extra words are counted. A read cut short has no side effect,
but one without a data word was partial (R430, R432). -/
def execSpiRead (cmd addr : Word) (words : Nat) (mode3 : Bool) (s : State) : Res :=
  let t := s.spiBegin mode3
  let sts := s.spiEnd.spiSts
  let n := min words (spiRoom cmd addr)
  .next (if s.spiOn = false then s
    else if spiBad cmd addr then t.spiRefuse sts
    else if spiOp cmd ≠ 1 then s
    else
      let data := (List.range n).map (fun i => (t.regRead .spi (addr.toNat + 4 * i) false).2.1)
      ((t.cnt R.spiExtraCnt 0 (words - n)).spiExpect (if words = 0 then 1 else 0)).send (.miso ([sts, 0#32, 0#32] ++ data)))

/-- SPI_WRITE: each complete word takes effect at its 32nd edge; extra words are counted (R432). -/
def execSpiWrite (cmd addr : Word) (words : List Word) (mode3 : Bool) (s : State) : Res :=
  let t := s.spiBegin mode3
  let sts := s.spiEnd.spiSts
  let n := spiRoom cmd addr
  .next (if s.spiOn = false then s
    else if spiBad cmd addr then t.spiRefuse sts
    else if spiOp cmd ≠ 2 then s
    else
      let t1 := (words.take n).zipIdx.foldl (fun u w => (u.regWriteR .spi (addr.toNat + 4 * w.2) w.1 none).1) t
      ((t1.cnt R.spiExtraCnt 0 (words.length - n)).spiExpect (n - words.length)).send
        (.miso (sts :: List.replicate (1 + min n words.length) 0#32)))

/-- SPI_SELECT_RISE: the frame ends; a partial word is discarded (R432). -/
def execSpiSelectRise (s : State) : Res := .next s.spiEnd

end Sys2Proof.Machine
end

