-- ==== Sys2Proof/Machine/Threads.lean ====
section
/-!
DEFINITION. The thread instructions that compute in registers (04 R102 to R110) and those that move the pc, the join stack
and the group's waits (R119 to R124, R92).
-/
namespace Sys2Proof.Machine

/-- A word operation on naturals. -/
def nat2 (f : Nat → Nat → Nat) (a b : Word) : Word := w32 (f a.toNat b.toNat)

/-- The lesser or greater of two words by an order (Table 04-5). -/
def pickBy (le : Bool) (a b : Word) : Word := if le then a else b

/-- cmp(cond, A, B) of ICMP (Table 04-6). -/
def icmpHolds (cond : Nat) (a b : Word) : Bool :=
  match cond with
  | 0 => a == b
  | 1 => a != b
  | 2 => a.slt b
  | 3 => a.sle b
  | 4 => b.slt a
  | 5 => b.sle a
  | 6 => a.ult b
  | _ => b.ule a

/-- Set p[pd] from a comparison on the executing lanes (R103). -/
def Group.compare (x : Group) (w : TWord) (f : Nat → Bool) : Group := x.putPred w (tw w 17 15) (laneMask (x.ex w) f)

/-- sysv(b) (Table 04-7). -/
def State.sysv (s : State) (c g : Nat) (x : Group) (code l : Nat) : Word :=
  match code with
  | 0 => w32 l
  | 1 => w32 g
  | 2 => w32 x.block
  | 3 => w32 (c % 4)
  | 4 => w32 x.tenant
  | 5 => w32 s.self
  | 6 => x.active
  | _ => w32 (s.tick.count / 2 ^ 32)

/-- PBOOL's operation (R104). -/
def pboolOp (x : Nat) (a b : Word) : Word :=
  match x with
  | 0 => a &&& b
  | 1 => a ||| b
  | 2 => a ^^^ b
  | _ => a &&& ~~~b

/-- LANEQ (R104). -/
def Group.laneq (x : Group) (w : TWord) : Group :=
  let ex := x.ex w
  let m := x.pred (tw w 11 9) &&& ex
  match wX w with
  | 0 => x.putPred w (tw w 17 15) (if m ≠ 0#32 then 0xFFFFFFFF#32 else 0#32)
  | 1 => x.putPred w (tw w 17 15) (if m = ex then 0xFFFFFFFF#32 else 0#32)
  | 2 => x.each w (wD w) (fun _ => m)
  | _ => x.each w (wD w) (fun _ => w32 (lanes m).length)

/-- LANEQ's fields: those its mode does not use are 0 (R104). -/
def laneqOk (w : TWord) : Bool :=
  if wX w < 2 then tw w 20 18 == 0 && tw w 14 12 == 0 && tw w 8 2 == 0 else tw w 14 12 == 0 && tw w 8 2 == 0

/-- XLANE's source lane (R105). -/
def xlaneSrc (x l : Nat) (k : Word) : Nat :=
  let n := k.toNat % 32
  match x with
  | 0 => n
  | 1 => (l + 32 - n) % 32
  | 2 => (l + n) % 32
  | _ => l ^^^ n

/-! ### Integer, predicate and lane instructions (R102 to R107) -/

/-- IADD (R102). -/
def execIadd (c : Fin 512) (g : Fin 64) (w : BitVec 26) (s : State) : Res :=
  .next (s.issueO c g 0x01 w (fun a b _ => a + b))

/-- ISUB (R102). -/
def execIsub (c : Fin 512) (g : Fin 64) (w : BitVec 26) (s : State) : Res :=
  .next (s.issueO c g 0x02 w (fun a b _ => a - b))

/-- IMUL (R102). -/
def execImul (c : Fin 512) (g : Fin 64) (w : BitVec 26) (s : State) : Res :=
  .next (s.issueO c g 0x03 w (fun a b _ => a * b))

/-- IMULHU (R102). -/
def execImulhu (c : Fin 512) (g : Fin 64) (w : BitVec 26) (s : State) : Res :=
  .next (s.issueO c g 0x04 w (fun a b _ => nat2 (fun m n => m * n / 2 ^ 32) a b))

/-- IMAC (R102). -/
def execImac (c : Fin 512) (g : Fin 64) (w : BitVec 26) (s : State) : Res :=
  .next (s.issueO c g 0x05 w (fun a b d => a * b + d))

/-- AND (R102). -/
def execAnd (c : Fin 512) (g : Fin 64) (w : BitVec 26) (s : State) : Res :=
  .next (s.issueO c g 0x06 w (fun a b _ => a &&& b))

/-- OR (R102). -/
def execOr (c : Fin 512) (g : Fin 64) (w : BitVec 26) (s : State) : Res :=
  .next (s.issueO c g 0x07 w (fun a b _ => a ||| b))

/-- XOR (R102). -/
def execXor (c : Fin 512) (g : Fin 64) (w : BitVec 26) (s : State) : Res :=
  .next (s.issueO c g 0x08 w (fun a b _ => a ^^^ b))

/-- SHL (R102). -/
def execShl (c : Fin 512) (g : Fin 64) (w : BitVec 26) (s : State) : Res :=
  .next (s.issueO c g 0x09 w (fun a b _ => a <<< (b.toNat % 32)))

/-- SHR (R102). -/
def execShr (c : Fin 512) (g : Fin 64) (w : BitVec 26) (s : State) : Res :=
  .next (s.issueO c g 0x0A w (fun a b _ => a >>> (b.toNat % 32)))

/-- SAR (R102). -/
def execSar (c : Fin 512) (g : Fin 64) (w : BitVec 26) (s : State) : Res :=
  .next (s.issueO c g 0x0B w (fun a b _ => a.sshiftRight (b.toNat % 32)))

/-- IMIN (R102). -/
def execImin (c : Fin 512) (g : Fin 64) (w : BitVec 26) (s : State) : Res :=
  .next (s.issueO c g 0x0C w (fun a b _ => pickBy (a.sle b) a b))

/-- IMAX (R102). -/
def execImax (c : Fin 512) (g : Fin 64) (w : BitVec 26) (s : State) : Res :=
  .next (s.issueO c g 0x0D w (fun a b _ => pickBy (b.sle a) a b))

/-- UMIN (R102). -/
def execUmin (c : Fin 512) (g : Fin 64) (w : BitVec 26) (s : State) : Res :=
  .next (s.issueO c g 0x0E w (fun a b _ => pickBy (a.ule b) a b))

/-- UMAX (R102). -/
def execUmax (c : Fin 512) (g : Fin 64) (w : BitVec 26) (s : State) : Res :=
  .next (s.issueO c g 0x0F w (fun a b _ => pickBy (b.ule a) a b))

/-- MOV (R102). -/
def execMov (c : Fin 512) (g : Fin 64) (w : BitVec 26) (s : State) : Res :=
  .next (s.issueGroup c g 0x10 w (guardOk w && bOk w && wX w == 0 && wA w == 0) (wD w :: if wBs w then [] else [wB w]) (fun _ x =>
    (x.each w (wD w) (fun l => x.opB w l)).next))

/-- ICMP (R103). -/
def execIcmp (c : Fin 512) (g : Fin 64) (w : BitVec 26) (s : State) : Res :=
  .next (s.issueGroup c g 0x11 w (guardOk w && bOk w && wX w == 0) (wA w :: if wBs w then [] else [wB w]) (fun _ x =>
    (x.compare w (fun l => icmpHolds (tw w 20 18) (x.treg (wA w) l) (x.opB w l))).next))

/-- PBOOL (R104). -/
def execPbool (c : Fin 512) (g : Fin 64) (w : BitVec 26) (s : State) : Res :=
  .next (s.issueGroup c g 0x12 w (guardOk w && tw w 20 18 == 0 && tw w 14 12 == 0 && tw w 8 6 == 0 && !wBs w) [] (fun _ x =>
    (x.putPred w (tw w 17 15) (pboolOp (wX w) (x.pred (tw w 11 9)) (x.pred (tw w 5 3)))).next))

/-- LANEQ (R104). -/
def execLaneq (c : Fin 512) (g : Fin 64) (w : BitVec 26) (s : State) : Res :=
  .next (s.issueGroup c g 0x13 w (guardOk w && laneqOk w) (if wX w < 2 then [] else [wD w]) (fun _ x => (x.laneq w).next))

/-- XLANE (R105). -/
def execXlane (c : Fin 512) (g : Fin 64) (w : BitVec 26) (s : State) : Res :=
  .next (s.issueGroup c g 0x14 w (guardOk w && bOk w) (oRegs w) (fun _ x =>
    (x.each w (wD w) (fun l => x.treg (wA w) (xlaneSrc (wX w) l (x.opB w l)))).next))

/-- SYSV (R106). -/
def execSysv (c : Fin 512) (g : Fin 64) (w : BitVec 26) (s : State) : Res :=
  .next (s.issueGroup c g 0x15 w (guardOk w && !wBs w && wX w == 0 && wA w == 0 && decide (wB w < 8)) [wD w] (fun t x =>
    (x.each w (wD w) (fun l => t.sysv c g x (wB w) l)).next))

/-! ### Floating point and conversions (R108 to R110) -/

/-- FADD (R108). -/
def execFadd (c : Fin 512) (g : Fin 64) (w : BitVec 26) (s : State) : Res :=
  .next (s.issueO c g 0x16 w (fun a b _ => nat2 fadd a b))

/-- FSUB (R108). -/
def execFsub (c : Fin 512) (g : Fin 64) (w : BitVec 26) (s : State) : Res :=
  .next (s.issueO c g 0x17 w (fun a b _ => nat2 (fun m n => fadd m (fneg n)) a b))

/-- FMUL (R108). -/
def execFmul (c : Fin 512) (g : Fin 64) (w : BitVec 26) (s : State) : Res :=
  .next (s.issueO c g 0x18 w (fun a b _ => nat2 fmul a b))

/-- FFMA (R108). -/
def execFfma (c : Fin 512) (g : Fin 64) (w : BitVec 26) (s : State) : Res :=
  .next (s.issueO c g 0x19 w (fun a b d => w32 (ffma a.toNat b.toNat d.toNat)))

/-- FMIN (R108). -/
def execFmin (c : Fin 512) (g : Fin 64) (w : BitVec 26) (s : State) : Res :=
  .next (s.issueO c g 0x1A w (fun a b _ => nat2 (fminmax false) a b))

/-- FMAX (R108). -/
def execFmax (c : Fin 512) (g : Fin 64) (w : BitVec 26) (s : State) : Res :=
  .next (s.issueO c g 0x1B w (fun a b _ => nat2 (fminmax true) a b))

/-- FCMP (R103). -/
def execFcmp (c : Fin 512) (g : Fin 64) (w : BitVec 26) (s : State) : Res :=
  .next (s.issueGroup c g 0x1C w (guardOk w && bOk w && wX w == 0) (wA w :: if wBs w then [] else [wB w]) (fun _ x =>
    (x.compare w (fun l => Sys2Proof.Machine.fcmp (tw w 20 18) (x.treg (wA w) l).toNat (x.opB w l).toNat)).next))

/-- CVT (R110). -/
def execCvt (c : Fin 512) (g : Fin 64) (w : BitVec 26) (s : State) : Res :=
  .next (s.issueGroup c g 0x1D w (guardOk w && !wBs w && wX w == 0 && cvtDefined (wB w)) [wD w, wA w] (fun _ x =>
    (x.each w (wD w) (fun l => w32 (Sys2Proof.Machine.cvt (wB w) (x.treg (wA w) l).toNat))).next))

/-- TFN (R109). -/
def execTfn (c : Fin 512) (g : Fin 64) (w : BitVec 26) (s : State) : Res :=
  .next (s.issueGroup c g 0x1E w (guardOk w && !wBs w && wB w == 0) [wD w, wA w] (fun _ x =>
    (x.each w (wD w) (fun l => w32 (Sys2Proof.Machine.tfn (wX w) (x.treg (wA w) l).toNat))).next))

/-! ### Immediate and uniform forms (R102, R103, R107) -/

/-- IADDI (R102). -/
def execIaddi (c : Fin 512) (g : Fin 64) (w : BitVec 26) (s : State) : Res :=
  .next (s.issueI c g 0x20 w true (fun a => a + imm9 w))

/-- ANDI (R102). -/
def execAndi (c : Fin 512) (g : Fin 64) (w : BitVec 26) (s : State) : Res :=
  .next (s.issueI c g 0x21 w true (fun a => a &&& imm9 w))

/-- ORI (R102). -/
def execOri (c : Fin 512) (g : Fin 64) (w : BitVec 26) (s : State) : Res :=
  .next (s.issueI c g 0x22 w true (fun a => a ||| imm9 w))

/-- XORI (R102). -/
def execXori (c : Fin 512) (g : Fin 64) (w : BitVec 26) (s : State) : Res :=
  .next (s.issueI c g 0x23 w true (fun a => a ^^^ imm9 w))

/-- SHLI (R102). -/
def execShli (c : Fin 512) (g : Fin 64) (w : BitVec 26) (s : State) : Res :=
  .next (s.issueI c g 0x24 w (tw w 8 5 == 0) (fun a => a <<< tw w 4 0))

/-- SHRI (R102). -/
def execShri (c : Fin 512) (g : Fin 64) (w : BitVec 26) (s : State) : Res :=
  .next (s.issueI c g 0x25 w (tw w 8 5 == 0) (fun a => a >>> tw w 4 0))

/-- SARI (R102). -/
def execSari (c : Fin 512) (g : Fin 64) (w : BitVec 26) (s : State) : Res :=
  .next (s.issueI c g 0x26 w (tw w 8 5 == 0) (fun a => a.sshiftRight (tw w 4 0)))

/-- ICMPI (R103). -/
def execIcmpi (c : Fin 512) (g : Fin 64) (w : BitVec 26) (s : State) : Res :=
  .next (s.issueGroup c g 0x27 w (guardOk w) [wA w] (fun _ x =>
    (x.compare w (fun l => icmpHolds (tw w 20 18) (x.treg (wA w) l) (imm9 w))).next))

/-- MOVL (R102). -/
def execMovl (c : Fin 512) (g : Fin 64) (w : BitVec 26) (s : State) : Res :=
  .next (s.issueGroup c g 0x28 w (guardOk w) [tw w 20 16] (fun _ x => (x.each w (tw w 20 16) (fun _ => w32 (wImm16 w))).next))

/-- MOVH (R102). -/
def execMovh (c : Fin 512) (g : Fin 64) (w : BitVec 26) (s : State) : Res :=
  .next (s.issueGroup c g 0x29 w (guardOk w) [tw w 20 16] (fun _ x =>
    (x.each w (tw w 20 16) (fun l => w32 (wImm16 w * 2 ^ 16 + (x.treg (tw w 20 16) l).toNat % 2 ^ 16))).next))

/-- UMOVL (R107). -/
def execUmovl (c : Fin 512) (g : Fin 64) (w : BitVec 26) (s : State) : Res :=
  .next (s.issueGroup c g 0x2A w (groupOk w && tw w 20 20 == 0) [] (fun _ x => (x.setU (tw w 19 16) (w32 (wImm16 w))).next))

/-- UMOVH (R107). -/
def execUmovh (c : Fin 512) (g : Fin 64) (w : BitVec 26) (s : State) : Res :=
  .next (s.issueGroup c g 0x2B w (groupOk w && tw w 20 20 == 0) [] (fun _ x =>
    (x.setU (tw w 19 16) (w32 (wImm16 w * 2 ^ 16 + (x.ureg (tw w 19 16)).toNat % 2 ^ 16))).next))

/-- UADDI (R107). -/
def execUaddi (c : Fin 512) (g : Fin 64) (w : BitVec 26) (s : State) : Res :=
  .next (s.issueGroup c g 0x2C w (groupOk w && tw w 20 19 == 0 && tw w 14 13 == 0) [] (fun _ x =>
    (x.setU (tw w 18 15) (x.ureg (tw w 12 9) + imm9 w)).next))

/-- RDLANE (R107). -/
def execRdlane (c : Fin 512) (g : Fin 64) (w : BitVec 26) (s : State) : Res :=
  .next (s.issueGroup c g 0x2D w (groupOk w && tw w 20 19 == 0 && tw w 8 5 == 0) [wA w] (fun _ x =>
    (x.setU (tw w 18 15) (x.treg (wA w) (tw w 4 0))).next))

/-! ### Branch, join and exit (R119, R121) -/

/-- The pc a branch targets (R119). -/
def Group.target (x : Group) (w : TWord) : Nat := wrap 32 (x.pc + 4 * sext 21 (wOff w))

/-- BRA's effect; none where the join stack would overflow (R119). -/
def Group.bra (x : Group) (w : TWord) : Option Group :=
  let take := x.ex w
  let pc4 := (x.pc + 4) % 2 ^ 32
  if take = x.active then some { x with pc := x.target w }
  else if take = 0#32 then some { x with pc := pc4 }
  else
    let rest := x.active &&& ~~~take
    let go (l : List JoinEntry) : Option Group := some { x with stk := l, active := take, pc := x.target w }
    match x.stk with
    | e :: r =>
      if e.path ∧ e.pc = pc4 then go ({ e with mask := e.mask ||| rest } :: r)
      else if 16 ≤ x.stk.length then none
      else go (⟨true, pc4, rest⟩ :: x.stk)
    | [] => go [⟨true, pc4, rest⟩]

/-- JMARK's effect; none where the join stack is full (R119). -/
def Group.jmark (x : Group) : Option Group :=
  if 16 ≤ x.stk.length then none else some { x with stk := ⟨false, 0, x.active⟩ :: x.stk, pc := (x.pc + 4) % 2 ^ 32 }

/-- JN's effect; none where the join stack is empty (R119). -/
def Group.jn (x : Group) : Option Group :=
  match x.stk with
  | [] => none
  | e :: r => some { x with stk := r, active := e.mask, pc := if e.path then e.pc else (x.pc + 4) % 2 ^ 32 }

/-- Issue an instruction that moves the group, or faults ILLEGAL_ENC and leaves it as it was (R119, R128). -/
def State.issueMove (s : State) (c g op : Nat) (w : TWord) (legal : Bool) (f : Group → Option Group) : State :=
  s.issue c g op w legal [] (fun t x => match f x with
    | some y => t.setGroup c g y
    | none => t.faultHere c g 0x20 x)

/-- A request of a retired group of block `blk` (R76). -/
def ReqUse.retired (u : ReqUse) (c g blk : Nat) : ReqUse :=
  match u with
  | .lane k j _ _ _ _ => if k = c ∧ j = g then .gone c g blk false else u
  | .store k j | .atom k j _ _ => if k = c ∧ j = g then .gone c g blk true else u
  | u => u

/-- A group retires (R76, R121): its slot is free; its outstanding requests go on as a retired group's. -/
def State.retire (s : State) (c g : Nat) : State :=
  match s.group c g with
  | none => s
  | some x => (s.removeGroup c g).modFab (fun f => { f with
      pending := f.pending.map (fun p => if p.discarded then p else { p with use := p.use.retired c g x.block }),
      sendq := f.sendq.map (fun r => { r with use := r.use.retired c g x.block }) })

/-- BRA (R119). -/
def execBra (c : Fin 512) (g : Fin 64) (w : BitVec 26) (s : State) : Res :=
  .next (s.issueMove c g 0x34 w (guardOk w) (fun x => x.bra w))

/-- JMARK (R119). -/
def execJmark (c : Fin 512) (g : Fin 64) (w : BitVec 26) (s : State) : Res :=
  .next (s.issueMove c g 0x35 w (groupOk w && wOff w == 0) (fun x => x.jmark))

/-- JN (R119). -/
def execJn (c : Fin 512) (g : Fin 64) (w : BitVec 26) (s : State) : Res :=
  .next (s.issueMove c g 0x36 w (groupOk w && wOff w == 0) (fun x => x.jn))

/-- EXIT (R121). -/
def execExit (c : Fin 512) (g : Fin 64) (w : BitVec 26) (s : State) : Res :=
  .next (s.issue c g 0x37 w (groupOk w && wOff w == 0) [] (fun t _ => t.retire c g))

/-! ### Fences and arrival counters (R122, R123) -/

/-- Every earlier access of the group is performed: no response is outstanding (R122). -/
def Group.performed (x : Group) : Bool := x.remote == 0

/-- WAITA's value (Table 04-12). -/
def Group.waitV (x : Group) (w : TWord) : Nat := if bit w.toNat 20 then tw w 19 4 else (x.ureg (tw w 7 4)).toNat % 2 ^ 16

/-- Arrival counter `k` of a block (R79). -/
def State.counter (s : State) (c blk k : Nat) : Nat :=
  match mfind (s.cluster c).blocks blk with
  | some b => mget 0 b.counters k
  | none => 0

/-- FENCE (R122). -/
def execFence (c : Fin 512) (g : Fin 64) (w : BitVec 26) (s : State) : Res :=
  .next (s.issueGroup c g 0x38 w (groupOk w && tw w 20 2 == 0) [] (fun _ x => { x.next with wait := .fence (tw w 1 0) }))

/-- FENCE_RELEASE (R122): every earlier access of the waiting group is performed. -/
def execFenceRelease (c : Fin 512) (g : Fin 64) (s : State) : Res :=
  .next (match s.group c g with
    | some x => match x.wait with
      | .fence _ => if x.performed then (s.setGroup c g { x with wait := .ready }).schedule c else s
      | _ => s
    | none => s)

/-- ARRIVE (R123): performed once the group's accesses before it are (R79). -/
def execArrive (c : Fin 512) (g : Fin 64) (w : BitVec 26) (s : State) : Res :=
  .next (s.issue c g 0x39 w (groupOk w && tw w 20 4 == 0) [] (fun t x =>
    ((t.setGroup c g x.next).modCluster c (fun k => { k with
      arrivals := k.arrivals ++ [⟨g, x.tenant, x.block, t.fabric.asked, tw w 3 0, t.instrAddr c x⟩] })).raiseDue c))

/-- WAITA (R123): a counter that has reached its value holds the group no longer (R80). -/
def execWaita (c : Fin 512) (g : Fin 64) (w : BitVec 26) (s : State) : Res :=
  .next (s.issueGroup c g 0x3A w (groupOk w && (bit w.toNat 20 || tw w 19 8 == 0)) [] (fun t x =>
    if x.waitV w ≤ t.counter c x.block (tw w 3 0) then x.next else { x.next with wait := .counter (tw w 3 0) (x.waitV w) }))

/-- WAITA_RELEASE (R123, R80): the counter the group waits for has reached its value. -/
def execWaitaRelease (c : Fin 512) (g : Fin 64) (s : State) : Res :=
  .next (match s.group c g with
    | some x => match x.wait with
      | .counter k v => if v ≤ s.counter c x.block k then (s.setGroup c g { x with wait := .ready }).schedule c else s
      | _ => s
    | none => s)

end Sys2Proof.Machine
end

