-- ==== Sys2Proof/Machine/Dispatch.lean ====
section
/-!
DEFINITION. The effect of each command on everything but the queue: one arm per command of the opcode table.
-/
namespace Sys2Proof.Machine

def exec (i : Instr) (s : State) : Host.Outcome State Fault Refusal :=
  match i with
  | .registerWrite p addr v hi => Sys2Proof.Machine.execRegisterWrite p addr v hi s
  | .rcRead p addr wide => Sys2Proof.Machine.execRcRead p addr wide s
  | .errInfoValidClear p addr => Sys2Proof.Machine.execErrInfoValidClear p addr s
  | .freeze p addr on => Sys2Proof.Machine.execFreeze p addr on s
  | .lock p addr => Sys2Proof.Machine.execLock p addr s
  | .ack p v => Sys2Proof.Machine.execAck p v s
  | .routeWrite p t v => Sys2Proof.Machine.execRouteWrite p t v s
  | .roleWrite p v => Sys2Proof.Machine.execRoleWrite p v s
  | .dimsWrite p v => Sys2Proof.Machine.execDimsWrite p v s
  | .posWrite p v => Sys2Proof.Machine.execPosWrite p v s
  | .localTickStart => Sys2Proof.Machine.execLocalTickStart s
  | .marker port a late m => Sys2Proof.Machine.execMarker port a late m s
  | .openEnd => Sys2Proof.Machine.execOpenEnd s
  | .repairStart => Sys2Proof.Machine.execRepairStart s
  | .sealStart => Sys2Proof.Machine.execSealStart s
  | .vote port a v => Sys2Proof.Machine.execVote port a v s
  | .voteDeadline => Sys2Proof.Machine.execVoteDeadline s
  | .echo port a v => Sys2Proof.Machine.execEcho port a v s
  | .echoDeadline => Sys2Proof.Machine.execEchoDeadline s
  | .keystoneTakeover => Sys2Proof.Machine.execKeystoneTakeover s
  | .start p => Sys2Proof.Machine.execStart p s
  | .hold p => Sys2Proof.Machine.execHold p s
  | .resume p => Sys2Proof.Machine.execResume p s
  | .stretchReq p on => Sys2Proof.Machine.execStretchReq p on s
  | .rerunLimitAttemptCapWrite p limit cap => Sys2Proof.Machine.execRerunLimitAttemptCapWrite p limit cap s
  | .stretchSealMarker => Sys2Proof.Machine.execStretchSealMarker s
  | .haltReport port a v => Sys2Proof.Machine.execHaltReport port a v s
  | .dbgMaxExpiry => Sys2Proof.Machine.execDbgMaxExpiry s
  | .detModeWrite p on => Sys2Proof.Machine.execDetModeWrite p on s
  | .launch c k w => Sys2Proof.Machine.execLaunch c k w s
  | .join c k w => Sys2Proof.Machine.execJoin c k w s
  | .joinComplete c blk => Sys2Proof.Machine.execJoinComplete c blk s
  | .copyComplete c id => Sys2Proof.Machine.execCopyComplete c id s
  | .ctxRestart p tenant => Sys2Proof.Machine.execCtxRestart p tenant s
  | .debugHalt p c => Sys2Proof.Machine.execDebugHalt p c s
  | .debugStep p c => Sys2Proof.Machine.execDebugStep p c s
  | .debugResume p c => Sys2Proof.Machine.execDebugResume p c s
  | .stepComplete c => Sys2Proof.Machine.execStepComplete c s
  | .dbgRegDataWrite p c v => Sys2Proof.Machine.execDbgRegDataWrite p c v s
  | .iadd c g w => Sys2Proof.Machine.execIadd c g w s
  | .isub c g w => Sys2Proof.Machine.execIsub c g w s
  | .imul c g w => Sys2Proof.Machine.execImul c g w s
  | .imulhu c g w => Sys2Proof.Machine.execImulhu c g w s
  | .imac c g w => Sys2Proof.Machine.execImac c g w s
  | .and c g w => Sys2Proof.Machine.execAnd c g w s
  | .or c g w => Sys2Proof.Machine.execOr c g w s
  | .xor c g w => Sys2Proof.Machine.execXor c g w s
  | .shl c g w => Sys2Proof.Machine.execShl c g w s
  | .shr c g w => Sys2Proof.Machine.execShr c g w s
  | .sar c g w => Sys2Proof.Machine.execSar c g w s
  | .imin c g w => Sys2Proof.Machine.execImin c g w s
  | .imax c g w => Sys2Proof.Machine.execImax c g w s
  | .umin c g w => Sys2Proof.Machine.execUmin c g w s
  | .umax c g w => Sys2Proof.Machine.execUmax c g w s
  | .mov c g w => Sys2Proof.Machine.execMov c g w s
  | .icmp c g w => Sys2Proof.Machine.execIcmp c g w s
  | .pbool c g w => Sys2Proof.Machine.execPbool c g w s
  | .laneq c g w => Sys2Proof.Machine.execLaneq c g w s
  | .xlane c g w => Sys2Proof.Machine.execXlane c g w s
  | .sysv c g w => Sys2Proof.Machine.execSysv c g w s
  | .fadd c g w => Sys2Proof.Machine.execFadd c g w s
  | .fsub c g w => Sys2Proof.Machine.execFsub c g w s
  | .fmul c g w => Sys2Proof.Machine.execFmul c g w s
  | .ffma c g w => Sys2Proof.Machine.execFfma c g w s
  | .fmin c g w => Sys2Proof.Machine.execFmin c g w s
  | .fmax c g w => Sys2Proof.Machine.execFmax c g w s
  | .fcmp c g w => Sys2Proof.Machine.execFcmp c g w s
  | .cvt c g w => Sys2Proof.Machine.execCvt c g w s
  | .tfn c g w => Sys2Proof.Machine.execTfn c g w s
  | .iaddi c g w => Sys2Proof.Machine.execIaddi c g w s
  | .andi c g w => Sys2Proof.Machine.execAndi c g w s
  | .ori c g w => Sys2Proof.Machine.execOri c g w s
  | .xori c g w => Sys2Proof.Machine.execXori c g w s
  | .shli c g w => Sys2Proof.Machine.execShli c g w s
  | .shri c g w => Sys2Proof.Machine.execShri c g w s
  | .sari c g w => Sys2Proof.Machine.execSari c g w s
  | .icmpi c g w => Sys2Proof.Machine.execIcmpi c g w s
  | .movl c g w => Sys2Proof.Machine.execMovl c g w s
  | .movh c g w => Sys2Proof.Machine.execMovh c g w s
  | .umovl c g w => Sys2Proof.Machine.execUmovl c g w s
  | .umovh c g w => Sys2Proof.Machine.execUmovh c g w s
  | .uaddi c g w => Sys2Proof.Machine.execUaddi c g w s
  | .rdlane c g w => Sys2Proof.Machine.execRdlane c g w s
  | .ld c g w => Sys2Proof.Machine.execLd c g w s
  | .st c g w => Sys2Proof.Machine.execSt c g w s
  | .atom c g w => Sys2Proof.Machine.execAtom c g w s
  | .bra c g w => Sys2Proof.Machine.execBra c g w s
  | .jmark c g w => Sys2Proof.Machine.execJmark c g w s
  | .jn c g w => Sys2Proof.Machine.execJn c g w s
  | .exit c g w => Sys2Proof.Machine.execExit c g w s
  | .fence c g w => Sys2Proof.Machine.execFence c g w s
  | .fenceRelease c g => Sys2Proof.Machine.execFenceRelease c g s
  | .arrive c g w => Sys2Proof.Machine.execArrive c g w s
  | .waita c g w => Sys2Proof.Machine.execWaita c g w s
  | .waitaRelease c g => Sys2Proof.Machine.execWaitaRelease c g s
  | .cpy c g w => Sys2Proof.Machine.execCpy c g w s
  | .issueT c k w => Sys2Proof.Machine.execIssueT c k w s
  | .issueV c k w => Sys2Proof.Machine.execIssueV c k w s
  | .issueD c k w => Sys2Proof.Machine.execIssueD c k w s
  | .tensorComplete c => Sys2Proof.Machine.execTensorComplete c s
  | .vectorComplete c => Sys2Proof.Machine.execVectorComplete c s
  | .copyDescriptorComplete c => Sys2Proof.Machine.execCopyDescriptorComplete c s
  | .waitAt c k w => Sys2Proof.Machine.execWaitAt c k w s
  | .waitFor c k w => Sys2Proof.Machine.execWaitFor c k w s
  | .waitIdle c k w => Sys2Proof.Machine.execWaitIdle c k w s
  | .waitRelease c k => Sys2Proof.Machine.execWaitRelease c k s
  | .slotTx c k w => Sys2Proof.Machine.execSlotTx c k w s
  | .slotRx c k w => Sys2Proof.Machine.execSlotRx c k w s
  | .lease c k w => Sys2Proof.Machine.execLease c k w s
  | .markEnd c k w => Sys2Proof.Machine.execMarkEnd c k w s
  | .markTrace c k w => Sys2Proof.Machine.execMarkTrace c k w s
  | .loopSet c k w => Sys2Proof.Machine.execLoopSet c k w s
  | .loopBack c k w => Sys2Proof.Machine.execLoopBack c k w s
  | .halt c k w => Sys2Proof.Machine.execHalt c k w s
  | .progAdv p tenant => Sys2Proof.Machine.execProgAdv p tenant s
  | .admissionComplete => Sys2Proof.Machine.execAdmissionComplete s
  | .hdlWrite p c => Sys2Proof.Machine.execHdlWrite p c s
  | .hdlRead p c => Sys2Proof.Machine.execHdlRead p c s
  | .scrubVisit u => Sys2Proof.Machine.execScrubVisit u s
  | .scrubEvaluation u => Sys2Proof.Machine.execScrubEvaluation u s
  | .portStartTime port => Sys2Proof.Machine.execPortStartTime port s
  | .trainingFrame port lane cw => Sys2Proof.Machine.execTrainingFrame port lane cw s
  | .detectTimeout port => Sys2Proof.Machine.execDetectTimeout port s
  | .trainTimeout port => Sys2Proof.Machine.execTrainTimeout port s
  | .alignLock port => Sys2Proof.Machine.execAlignLock port s
  | .alignTimeout port => Sys2Proof.Machine.execAlignTimeout port s
  | .measureDone port delayPs => Sys2Proof.Machine.execMeasureDone port delayPs s
  | .backoffExpiry port => Sys2Proof.Machine.execBackoffExpiry port s
  | .lossOfLock port => Sys2Proof.Machine.execLossOfLock port s
  | .retrainTimeout port => Sys2Proof.Machine.execRetrainTimeout port s
  | .uncWindow port => Sys2Proof.Machine.execUncWindow port s
  | .adaptationUpdate port lane a => Sys2Proof.Machine.execAdaptationUpdate port lane a s
  | .burstGuardWindow port errors => Sys2Proof.Machine.execBurstGuardWindow port errors s
  | .loopFreezeEnd port => Sys2Proof.Machine.execLoopFreezeEnd port s
  | .freezeLimit port => Sys2Proof.Machine.execFreezeLimit port s
  | .offTimeout port => Sys2Proof.Machine.execOffTimeout port s
  | .lightAnyLoss port => Sys2Proof.Machine.execLightAnyLoss port s
  | .beaconQualified port => Sys2Proof.Machine.execBeaconQualified port s
  | .lightFullReached port => Sys2Proof.Machine.execLightFullReached port s
  | .raiseTimeout port => Sys2Proof.Machine.execRaiseTimeout port s
  | .lightFullLoss port => Sys2Proof.Machine.execLightFullLoss port s
  | .islandLightCheck port => Sys2Proof.Machine.execIslandLightCheck port s
  | .laserDisableRelease port => Sys2Proof.Machine.execLaserDisableRelease port s
  | .optInhibitN low => Sys2Proof.Machine.execOptInhibitN low s
  | .laserOff p port on => Sys2Proof.Machine.execLaserOff p port on s
  | .engineCaseOverheat port => Sys2Proof.Machine.execEngineCaseOverheat port s
  | .engineCaseCooled port => Sys2Proof.Machine.execEngineCaseCooled port s
  | .ethernetFrame port f => Sys2Proof.Machine.execEthernetFrame port f s
  | .ptpMessage port m => Sys2Proof.Machine.execPtpMessage port m s
  | .tile port t => Sys2Proof.Machine.execTile port t s
  | .test p port on => Sys2Proof.Machine.execTest p port on s
  | .loopback p port sel => Sys2Proof.Machine.execLoopback p port sel s
  | .prbsRestart p port => Sys2Proof.Machine.execPrbsRestart p port s
  | .spcEnable p port on => Sys2Proof.Machine.execSpcEnable p port on s
  | .portEnable p port on => Sys2Proof.Machine.execPortEnable p port on s
  | .idleUnit port cw u => Sys2Proof.Machine.execIdleUnit port cw u s
  | .slotFrame port a f => Sys2Proof.Machine.execSlotFrame port a f s
  | .slotStart slot => Sys2Proof.Machine.execSlotStart slot s
  | .slotCheck slot => Sys2Proof.Machine.execSlotCheck slot s
  | .req port a h b data => Sys2Proof.Machine.execReq port a h b data s
  | .frameForward port a f => Sys2Proof.Machine.execFrameForward port a f s
  | .escapeTimeout port cls => Sys2Proof.Machine.execEscapeTimeout port cls s
  | .rsp port a h r data => Sys2Proof.Machine.execRsp port a h r data s
  | .mgmt port a h b data => Sys2Proof.Machine.execMgmt port a h b data s
  | .mgmtResponse port a h r data => Sys2Proof.Machine.execMgmtResponse port a h r data s
  | .toss port a h b data => Sys2Proof.Machine.execToss port a h b data s
  | .atomicDue => Sys2Proof.Machine.execAtomicDue s
  | .status port a credits acks => Sys2Proof.Machine.execStatus port a credits acks s
  | .statusTimer port => Sys2Proof.Machine.execStatusTimer port s
  | .retry port a cls first count => Sys2Proof.Machine.execRetry port a cls first count s
  | .retryTimeout port cls seq => Sys2Proof.Machine.execRetryTimeout port cls seq s
  | .replayReq port a slot tick => Sys2Proof.Machine.execReplayReq port a slot tick s
  | .probe port a t1 t2 => Sys2Proof.Machine.execProbe port a t1 t2 s
  | .probeRsp port a t1 t2 t3 t4 => Sys2Proof.Machine.execProbeRsp port a t1 t2 t3 t4 s
  | .hello port h => Sys2Proof.Machine.execHello port h s
  | .sign port sig => Sys2Proof.Machine.execSign port sig s
  | .finish port a acks => Sys2Proof.Machine.execFinish port a acks s
  | .secureTimeout port => Sys2Proof.Machine.execSecureTimeout port s
  | .fenceExpiry port => Sys2Proof.Machine.execFenceExpiry port s
  | .rekeyTimer port => Sys2Proof.Machine.execRekeyTimer port s
  | .oldPhaseExpiry port => Sys2Proof.Machine.execOldPhaseExpiry port s
  | .detourSelect p sel => Sys2Proof.Machine.execDetourSelect p sel s
  | .revokeCntWrite p v => Sys2Proof.Machine.execRevokeCntWrite p v s
  | .chainStart p => Sys2Proof.Machine.execChainStart p s
  | .chainAbort p => Sys2Proof.Machine.execChainAbort p s
  | .reload p => Sys2Proof.Machine.execReload p s
  | .refill p v => Sys2Proof.Machine.execRefill p v s
  | .sectionRecord port r => Sys2Proof.Machine.execSectionRecord port r s
  | .shareRecord port r => Sys2Proof.Machine.execShareRecord port r s
  | .stateRecord port r => Sys2Proof.Machine.execStateRecord port r s
  | .endRecord port r => Sys2Proof.Machine.execEndRecord port r s
  | .shareVerdict => Sys2Proof.Machine.execShareVerdict s
  | .refillTimeout => Sys2Proof.Machine.execRefillTimeout s
  | .configRequest fn => Sys2Proof.Machine.execConfigRequest fn s
  | .hostReadCompletion tag r => Sys2Proof.Machine.execHostReadCompletion tag r s
  | .completionTimeout tag => Sys2Proof.Machine.execCompletionTimeout tag s
  | .bar0BadAccess p addr len write => Sys2Proof.Machine.execBar0BadAccess p addr len write s
  | .bar2Write fn addr => Sys2Proof.Machine.execBar2Write fn addr s
  | .resultSlotRead fn addr len => Sys2Proof.Machine.execResultSlotRead fn addr len s
  | .queueEnable fn q on => Sys2Proof.Machine.execQueueEnable fn q on s
  | .cmdqDoorbell fn q v => Sys2Proof.Machine.execCmdqDoorbell fn q v s
  | .nop fn q => Sys2Proof.Machine.execNop fn q s
  | .submit fn q => Sys2Proof.Machine.execSubmit fn q s
  | .ringDoorbell fn q v => Sys2Proof.Machine.execRingDoorbell fn q v s
  | .queueRestart fn q => Sys2Proof.Machine.execQueueRestart fn q s
  | .slotRelease fn v => Sys2Proof.Machine.execSlotRelease fn v s
  | .invalidate p scope => Sys2Proof.Machine.execInvalidate p scope s
  | .invalidateComplete => Sys2Proof.Machine.execInvalidateComplete s
  | .flr fn => Sys2Proof.Machine.execFlr fn s
  | .vfDisable => Sys2Proof.Machine.execVfDisable s
  | .pfFlr => Sys2Proof.Machine.execPfFlr s
  | .flrComplete fn => Sys2Proof.Machine.execFlrComplete fn s
  | .zeroingComplete tenant => Sys2Proof.Machine.execZeroingComplete tenant s
  | .creditStall => Sys2Proof.Machine.execCreditStall s
  | .postedCreditReturn n => Sys2Proof.Machine.execPostedCreditReturn n s
  | .msixUnmask fn vector => Sys2Proof.Machine.execMsixUnmask fn vector s
  | .hostPortReset => Sys2Proof.Machine.execHostPortReset s
  | .collectionComplete crcOk => Sys2Proof.Machine.execCollectionComplete crcOk s
  | .streamLifetime stream => Sys2Proof.Machine.execStreamLifetime stream s
  | .frameOpen => Sys2Proof.Machine.execFrameOpen s
  | .frameWindowClose exposure sensor => Sys2Proof.Machine.execFrameWindowClose exposure sensor s
  | .pubRingDoorbell p v => Sys2Proof.Machine.execPubRingDoorbell p v s
  | .digestComplete stream => Sys2Proof.Machine.execDigestComplete stream s
  | .ledgerCheckpoint => Sys2Proof.Machine.execLedgerCheckpoint s
  | .ledgerDoorbell p v => Sys2Proof.Machine.execLedgerDoorbell p v s
  | .newNight p => Sys2Proof.Machine.execNewNight p s
  | .ppsEdge => Sys2Proof.Machine.execPpsEdge s
  | .referenceLoss src => Sys2Proof.Machine.execReferenceLoss src s
  | .qualificationComplete src => Sys2Proof.Machine.execQualificationComplete src s
  | .loopUpdate err => Sys2Proof.Machine.execLoopUpdate err s
  | .holdoverLimit => Sys2Proof.Machine.execHoldoverLimit s
  | .ppsOutput => Sys2Proof.Machine.execPpsOutput s
  | .ppsOutEnd => Sys2Proof.Machine.execPpsOutEnd s
  | .timeSet p => Sys2Proof.Machine.execTimeSet p s
  | .timeLatch p => Sys2Proof.Machine.execTimeLatch p s
  | .anchor => Sys2Proof.Machine.execAnchor s
  | .sqNote p v => Sys2Proof.Machine.execSqNote p v s
  | .noticeApply => Sys2Proof.Machine.execNoticeApply s
  | .coldReset => Sys2Proof.Machine.execColdReset s
  | .sysRstNAssert => Sys2Proof.Machine.execSysRstNAssert s
  | .warm p => Sys2Proof.Machine.execWarm p s
  | .resetRelease trsId => Sys2Proof.Machine.execResetRelease trsId s
  | .islandBooted => Sys2Proof.Machine.execIslandBooted s
  | .bistComplete b f => Sys2Proof.Machine.execBistComplete b f s
  | .firmwareLoaded a b => Sys2Proof.Machine.execFirmwareLoaded a b s
  | .avsbusFailure rail => Sys2Proof.Machine.execAvsbusFailure rail s
  | .avsRetry p => Sys2Proof.Machine.execAvsRetry p s
  | .telemetryRead vout pout => Sys2Proof.Machine.execTelemetryRead vout pout s
  | .voltageReached q => Sys2Proof.Machine.execVoltageReached q s
  | .idleStepDown => Sys2Proof.Machine.execIdleStepDown s
  | .droop q => Sys2Proof.Machine.execDroop q s
  | .droopEnd q => Sys2Proof.Machine.execDroopEnd q s
  | .thermalThreshold temps => Sys2Proof.Machine.execThermalThreshold temps s
  | .doze p => Sys2Proof.Machine.execDoze p s
  | .dozeNote p => Sys2Proof.Machine.execDozeNote p s
  | .dozeEntryComplete => Sys2Proof.Machine.execDozeEntryComplete s
  | .wake p => Sys2Proof.Machine.execWake p s
  | .exitSignal port => Sys2Proof.Machine.execExitSignal port s
  | .wakeComplete => Sys2Proof.Machine.execWakeComplete s
  | .autoResume => Sys2Proof.Machine.execAutoResume s
  | .lockstepMismatch => Sys2Proof.Machine.execLockstepMismatch s
  | .islandRebootComplete => Sys2Proof.Machine.execIslandRebootComplete s
  | .junctionTrip sensor temp => Sys2Proof.Machine.execJunctionTrip sensor temp s
  | .sensorImplausible sensor temp => Sys2Proof.Machine.execSensorImplausible sensor temp s
  | .railOvervoltage rail mv => Sys2Proof.Machine.execRailOvervoltage rail mv s
  | .coreUndervoltage q mv => Sys2Proof.Machine.execCoreUndervoltage q mv s
  | .retentionUndervoltage mv => Sys2Proof.Machine.execRetentionUndervoltage mv s
  | .regulatorFault => Sys2Proof.Machine.execRegulatorFault s
  | .quarterClockFault q mhz => Sys2Proof.Machine.execQuarterClockFault q mhz s
  | .islandOscillatorFault mhz => Sys2Proof.Machine.execIslandOscillatorFault mhz s
  | .hubWatchdog => Sys2Proof.Machine.execHubWatchdog s
  | .launchPowerTrip port => Sys2Proof.Machine.execLaunchPowerTrip port s
  | .gateCauseClear cause => Sys2Proof.Machine.execGateCauseClear cause s
  | .kick p v => Sys2Proof.Machine.execKick p v s
  | .alertAck p => Sys2Proof.Machine.execAlertAck p s
  | .selfCheckComplete bad => Sys2Proof.Machine.execSelfCheckComplete bad s
  | .selfCheckAbandon => Sys2Proof.Machine.execSelfCheckAbandon s
  | .vddOptFault mv => Sys2Proof.Machine.execVddOptFault mv s
  | .vddOptRestore => Sys2Proof.Machine.execVddOptRestore s
  | .blackBoxWrite => Sys2Proof.Machine.execBlackBoxWrite s
  | .beacon h number source handover acks grants offUs => Sys2Proof.Machine.execBeacon h number source handover acks grants offUs s
  | .beaconMiss => Sys2Proof.Machine.execBeaconMiss s
  | .listenTimeout => Sys2Proof.Machine.execListenTimeout s
  | .election => Sys2Proof.Machine.execElection s
  | .superframeStart => Sys2Proof.Machine.execSuperframeStart s
  | .assignedSlot => Sys2Proof.Machine.execAssignedSlot s
  | .contentionSlot slot => Sys2Proof.Machine.execContentionSlot slot s
  | .claim h => Sys2Proof.Machine.execClaim h s
  | .trestleRead h count addr => Sys2Proof.Machine.execTrestleRead h count addr s
  | .trestleWrite h addr words => Sys2Proof.Machine.execTrestleWrite h addr words s
  | .trestleWake h => Sys2Proof.Machine.execTrestleWake h s
  | .spiRead cmd addr words mode3 => Sys2Proof.Machine.execSpiRead cmd addr words mode3 s
  | .spiWrite cmd addr words mode3 => Sys2Proof.Machine.execSpiWrite cmd addr words mode3 s
  | .spiSelectRise => Sys2Proof.Machine.execSpiSelectRise s
  | .flashErase p => Sys2Proof.Machine.execFlashErase p s
  | .flashProgram p => Sys2Proof.Machine.execFlashProgram p s
  | .flashRead p => Sys2Proof.Machine.execFlashRead p s
  | .flashOperationComplete => Sys2Proof.Machine.execFlashOperationComplete s
  | .tagRead page crcOk => Sys2Proof.Machine.execTagRead page crcOk s
  | .tagWrite page data crcOk => Sys2Proof.Machine.execTagWrite page data crcOk s
  | .readWide page crcOk => Sys2Proof.Machine.execReadWide page crcOk s
  | .writeBlock blk data crcOk => Sys2Proof.Machine.execWriteBlock blk data crcOk s
  | .getState crcOk => Sys2Proof.Machine.execGetState crcOk s
  | .tagCommitComplete => Sys2Proof.Machine.execTagCommitComplete s
  | .fieldCollapse point => Sys2Proof.Machine.execFieldCollapse point s
  | .serviceRecordUpdate => Sys2Proof.Machine.execServiceRecordUpdate s
  | .prbsCheckerLock port lane => Sys2Proof.Machine.execPrbsCheckerLock port lane s
  | .prbsCheckerLockLoss port lane => Sys2Proof.Machine.execPrbsCheckerLockLoss port lane s
  | .linkDelayProbe port t1 => Sys2Proof.Machine.execLinkDelayProbe port t1 s
  | .ethernetLinkUp port => Sys2Proof.Machine.execEthernetLinkUp port s
  | .ethernetLinkDown port => Sys2Proof.Machine.execEthernetLinkDown port s
  | .pcieLinkReturnsToL0 => Sys2Proof.Machine.execPcieLinkReturnsToL0 s
  | .powerRemoval => Sys2Proof.Machine.execPowerRemoval s

end Sys2Proof.Machine
end

