-- ==== Sys2Proof/Safety.lean ====
section
/-!
DEFINITION. The terms that claims use: when a path may write a page, when a thread group, a context or a link frame is
served, what a command leaves unchanged, and the invariant of memory.
-/
namespace Sys2Proof.Machine

/-! ### Registers -/

/-- A path that is no VF's may write offset `off` of page `pg` now: the page is served to it, Table 16-5 lets it, and no
cluster page sleeps (R369, R419, R432, R449). -/
def MayPut (s : State) (p : Path) (pg off : Nat) : Prop :=
  (∀ n, p ≠ .vf n) ∧ s.pageServed p pg = true ∧ mayWrite p pg off = true ∧ (clusterPage pg && s.dozing) = false

/-- A path that is no VF's may write offset `off` of the page of type `t`, instance `i`, which lies in the PF's BAR0. -/
def WritesAt (s : State) (p : Path) (t : PageType) (i off : Nat) : Prop :=
  MayPut s p (pageNo t i) off ∧ pageNo t i < 2 ^ 14 ∧ pageAt (pageNo t i) = some (t, i) ∧
    inWindow (pageNo t i) off = false ∧ off < 4096 ∧ off % 4 = 0

/-- A path may write register `r` of instance `i`, entry `idx` of an array. -/
def Writes (s : State) (p : Path) (r : Reg) (i : Nat := 0) (idx : Nat := 0) : Prop := WritesAt s p r.page i (r.off + 4 * idx)

/-- A path's access at an aligned address names offset `off` of the page of type `t`, instance `i`, which is served to the path now:
neither a table window nor a sleeping cluster's page (R291, R369, R449, R452). -/
def Lands (s : State) (p : Path) (addr : Nat) (t : PageType) (i off : Nat) : Prop :=
  pathPage p addr = pageNo t i ∧ addr % 4096 = off ∧ off % 4 = 0 ∧ pageAt (pageNo t i) = some (t, i) ∧
    s.pageServed p (pageNo t i) = true ∧ inWindow (pageNo t i) off = false ∧ (clusterPage (pageNo t i) && s.dozing) = false

/-- The access lands, and Table 16-5 lets the path write there. -/
def LandsWrite (s : State) (p : Path) (addr : Nat) (t : PageType) (i off : Nat) : Prop :=
  Lands s p addr t i off ∧ mayWrite p (pageNo t i) off = true

/-- The page of register `r` of instance `i` is not locked (R446). -/
def Unlocked (s : State) (r : Reg) (i : Nat := 0) : Prop := s.locked (pageNo r.page i) = false

/-- The address of an offset of a page of the PF's BAR0 (Table 17-3). -/
def pageAddr (t : PageType) (i off : Nat) : Nat := pageNo t i * 4096 + off

/-- The host sees a refused write as an error response; the other paths of tenant 0 do not (R5, R8). -/
def State.answered (s : State) (p : Path) (addr : Nat) : State := if pathHost p then s.send (.denied p addr) else s

/-- A write at an address is refused with a code, which page `pg` logs: it changes no register but the page's capture, count and
interrupt status (R5, Table 17-7). -/
def State.refusesAt (s : State) (p : Path) (addr pg code : Nat) : State :=
  (s.violateAll pg (s.writeViol p addr code) []).answered p addr

/-- A write of an offset of a page is refused with a code. -/
def State.refuses (s : State) (p : Path) (t : PageType) (i off code : Nat) : State :=
  s.refusesAt p (pageAddr t i off) (pageNo t i) code

/-- A register that a write only stores: no selector, nothing that follows, and in force at once. -/
def plainReg (t : PageType) (off : Nat) (d : RegDef) : Bool :=
  d.acc == .rw && d.bank == .none && d.w1c == 0 && d.wmask != 0 && !deferredAt t off &&
    !((t == .tgp && decide (0x60 ≤ off)) || t == .hsq || (t == .prt && (off == 0x40 || off == 0xC0)) ||
      (t == .pub && off == 0x70) || (t == .tim && off == 0x40) || t == .ldg || t == .spn || (t == .wld && decide (0x80 ≤ off)))

/-- A command answers a next state of which `P` holds. -/
def Gives (i : Instr) (s : State) (P : State → Prop) : Prop := ∃ t, exec i s = .next t ∧ P t

/-- A counter that its page does not freeze has counted `n` events, saturating (R445, R472). -/
def Counts (s t : State) (r : Reg) (i n : Nat) : Prop :=
  bit (s.hdr (pageNo r.page i) hCtl) 0 = false → t.rd r i = satAdd (s.rd r i) n

/-- A page event shows: its bit and bit 0 of the page's IRQ_STS are 1 (R457). -/
def Signals (t : State) (p : PageType) (i n : Nat) : Prop :=
  bit (t.hdr (pageNo p i) hIrqSts) n = true ∧ bit (t.hdr (pageNo p i) hIrqSts) 0 = true

/-- Queue pair `q` of a function exists, and its page is served to the function (Table 11-2, R452). -/
def QueueServed (s : State) (fn : Fin 256) (q : Nat) : Prop :=
  q < queuesOf fn ∧ s.pageServed (fnPath fn) (pageNo .hsq (fn * 64 + q)) = true

/-- Of the ports only `p` has changed. -/
def OnlyPort (s t : State) (p : Nat) : Prop := ∀ q, q ≠ p → t.port q = s.port q

/-- Memory and the compute array are as before. -/
def SameArray (s t : State) : Prop := t.mem = s.mem ∧ t.clusters = s.clusters ∧ t.image = s.image

/-! ### Thread groups -/

/-- The fetch of instruction `w` of opcode `op` meets no SECDED error, neither in the code handle's entry nor in the instruction's
word, and that word is the one at pc (R128, R201). -/
def CleanFetch (s : State) (c op : Nat) (w : TWord) (x : Group) : Prop :=
  mget 0 s.ecc (hEccKey c x.code 0) = 0 ∧ mget 0 s.ecc (hEccKey c x.code 1) = 0 ∧
    (∀ a ∈ wordsOf (s.pcAddrs c x), s.eccOf a = 0) ∧ s.fetched c x op w = .this

/-- Group `g` of cluster `c` issues instruction `w` of opcode `op` now, which uses the registers `regs`: it may issue, no
breakpoint stands at it, its code handle covers the word, none of the registers awaits a response, and the fetch is clean and
finds it (R70, R71, R92, R97, R128). -/
def Runs (s : State) (c g op : Nat) (w : TWord) (x : Group) (regs : List Nat) : Prop :=
  s.mayIssue c g = some x ∧ s.breaks c x = false ∧ hType (s.entry c x.code) = 1 ∧ x.pc + 4 ≤ hLen (s.entry c x.code) ∧
    (∀ r ∈ regs, r ∉ s.awaited c g) ∧ CleanFetch s c op w x

/-- What the issue of one group's instruction leaves: the whole device but cluster `c`, its TGP.NDC count and the free values'
counter, and of the cluster all but that group, the active set and its pointer. -/
def OnlyGroup (s t : State) (c g : Nat) : Prop :=
  t = { s with clusters := t.clusters, regs := t.regs, hidden := t.hidden, freeCtr := t.freeCtr } ∧
    (∀ d, d ≠ c → t.cluster d = s.cluster d) ∧
    t.cluster c = { s.cluster c with
      groups := (t.cluster c).groups, active := (t.cluster c).active, rotate := (t.cluster c).rotate } ∧
    (∀ h, h ≠ g → t.group c h = s.group c h) ∧
    (∀ k, k ≠ regKey (pageNo .tgp c) R.tgpNdc.off 0 → mfind t.regs k = mfind s.regs k) ∧
    (∀ k, k ≠ regKey (pageNo .tgp c) R.tgpNdc.off 0 → mfind t.hidden k = mfind s.hidden k)

/-- A group after its instruction: where a debugger steps it, it halts again once its results are written (R92). -/
def Group.issuedOnce (y : Group) : Group := { y with stepped := y.stepping, bpHit := false }

/-- The command answers a state in which group `g` is `y` (about to halt again where a debugger steps it, R92) and nothing else of
the device has changed. -/
def GroupBecomes (s : State) (c g : Nat) (y : Group) (r : Res) : Prop :=
  ∃ t, r = .next t ∧ t.group c g = some y.issuedOnce ∧ OnlyGroup s t c g

/-- `y` is `x` past its instruction `w`, with t[d][l] = f(l) in the executing lanes and no other register changed (R96). -/
def LanesSet (x y : Group) (w : TWord) (d : Nat) (f : Nat → Word) : Prop :=
  y = { x with pc := (x.pc + 4) % 2 ^ 32, t := y.t } ∧
    (∀ l, l < 32 → y.treg d l = if (x.ex w).getLsbD l then f l else x.treg d l) ∧
    (∀ r l, r ≠ d → l < 32 → y.treg r l = x.treg r l)

/-- `y` is `x` past its instruction `w`, with p[k] set from `f` in the executing lanes and no other predicate changed
(R103, R104). -/
def PredSet (x y : Group) (w : TWord) (k : Nat) (f : Nat → Bool) : Prop :=
  y = { x with pc := (x.pc + 4) % 2 ^ 32, p := y.p } ∧
    (∀ l, l < 32 → (y.pred k).getLsbD l = if (x.ex w).getLsbD l then f l else (x.pred k).getLsbD l) ∧
    (∀ j, j ≠ k → y.pred j = x.pred j)

/-- `y` is `x` past its instruction, with u[k] = v and no other uniform register changed (R107). -/
def UniformSet (x y : Group) (k : Nat) (v : Word) : Prop :=
  y = { x with pc := (x.pc + 4) % 2 ^ 32, u := y.u } ∧ y.ureg k = v ∧ ∀ j, j ≠ k → y.ureg j = x.ureg j

/-- A thread command: the constructor of one opcode. -/
abbrev ThreadCmd := Fin 512 → Fin 64 → BitVec 26 → Instr

/-- An O-format command of opcode `code` sets t[d][l] to `op` of A, B and t[d][l] in the executing lanes, and does nothing else (R96, R101,
R102, R108). -/
def OForm (mk : ThreadCmd) (code : Nat) (op : Word → Word → Word → Word) : Prop :=
  ∀ (s : State) (c : Fin 512) (g : Fin 64) (w : BitVec 26) (x : Group),
    guardOk w = true → bOk w = true → wX w = 0 → Runs s c g code w x (oRegs w) →
      ∃ y, LanesSet x y w (wD w) (fun l => op (x.treg (wA w) l) (x.opB w l) (x.treg (wD w) l)) ∧
        GroupBecomes s c g y (exec (mk c g w) s)

/-- A command of another format sets t[d][l] from the lane, the group and the device, where its fields are `legal`, and does
nothing else. -/
def LaneForm (mk : ThreadCmd) (code : Nat) (legal : TWord → Bool) (regs : TWord → List Nat) (d : TWord → Nat)
    (f : State → Nat → Nat → Group → TWord → Nat → Word) : Prop :=
  ∀ (s : State) (c : Fin 512) (g : Fin 64) (w : BitVec 26) (x : Group),
    guardOk w = true → legal w = true → Runs s c g code w x (regs w) →
      ∃ y, LanesSet x y w (d w) (f s c g x w) ∧ GroupBecomes s c g y (exec (mk c g w) s)

/-- A command sets p[pd] in the executing lanes from a test of the lane, and does nothing else. -/
def PredForm (mk : ThreadCmd) (code : Nat) (legal : TWord → Bool) (regs : TWord → List Nat) (f : Group → TWord → Nat → Bool) : Prop :=
  ∀ (s : State) (c : Fin 512) (g : Fin 64) (w : BitVec 26) (x : Group),
    guardOk w = true → legal w = true → Runs s c g code w x (regs w) →
      ∃ y, PredSet x y w (tw w 17 15) (f x w) ∧ GroupBecomes s c g y (exec (mk c g w) s)

/-- A group-level command sets one uniform register, and does nothing else (R100, R107). -/
def UniformForm (mk : ThreadCmd) (code : Nat) (legal : TWord → Bool) (regs : TWord → List Nat) (k : TWord → Nat)
    (f : Group → TWord → Word) : Prop :=
  ∀ (s : State) (c : Fin 512) (g : Fin 64) (w : BitVec 26) (x : Group),
    groupOk w = true → legal w = true → Runs s c g code w x (regs w) →
      ∃ y, UniformSet x y (k w) (f x w) ∧ GroupBecomes s c g y (exec (mk c g w) s)

/-- The thread registers that operand b names. -/
def bReg (w : TWord) : List Nat := if wBs w then [] else [wB w]

/-! ### Sequencer words -/

/-- Context `k` of cluster `c` issues word `w` of a kind now: it runs, its last word's hold is over, no other context contends, its
code region covers the word at its pc, which is `w`, of that kind with its reserved field 0, and the word is read without error
(R154 to R158, R170, R171). -/
def SeqRuns (s : State) (c k : Nat) (w : QWord) (kind : Nat) : Prop :=
  s.ctxRuns c k = true ∧ (s.ctx c k).hold = 0 ∧ s.rivals c k = [] ∧ (s.ctx c k).pc + 8 ≤ (s.ctxEntry c k).len ∧ qKind w = kind ∧
    qw w 55 48 = 0 ∧ s.eccOf (s.codeAt c k (s.ctx c k).pc) = 0 ∧ s.wordAt c k = w.toNat

/-- A context past its word: the pc moves on, the hold of the word applies (R170), and in the body it is live (R173). -/
def pastWord (s : State) (c k : Nat) (w : QWord) : Ctx :=
  let x := s.ctx c k
  { x with pc := x.pc + 8, hold := qHold w, live := x.live || s.tick.phase == .body }

/-- `t` is `s` with context `k` of cluster `c` become `y`: no other context, cluster, group or tick state has changed. -/
def CtxBecomes (s t : State) (c k : Nat) (y : Ctx) : Prop :=
  t.ctx c k = y ∧ (∀ j, j ≠ k → t.ctx c j = s.ctx c j) ∧ (∀ d, d ≠ c → t.cluster d = s.cluster d) ∧
    (t.cluster c).groups = (s.cluster c).groups ∧ t.tick = s.tick

/-- The least slack of a cluster after a context adds `v` ns, which only a live one does (R173). -/
def leastSlack (s : State) (c : Nat) (live : Bool) (v : Nat) : Option Nat :=
  if live then some (match (s.cluster c).slackNow with | some x => min x v | none => v) else (s.cluster c).slackNow

/-- A content of class `cls` goes out at once on port `p`: the port is UP, its engine lit, its low-power idle no bar, and its class
has room and nothing waiting (R224, R231, R238, R240, R386). -/
def CanSend (s : State) (p cls : Nat) : Prop :=
  s.portUp p = true ∧ s.lit p = true ∧ ((s.port p).lpi = true → dozeClass cls = true) ∧ s.mayEmit p cls = true ∧
    (s.classSeq p cls).waiting = []

/-- A port outside UP can send the messages of an exchange: its engine is lit, and it is neither in test nor in low-power idle. -/
def CanMeet (s : State) (p : Nat) : Prop := s.lit p = true ∧ s.flag R.prtCtl 2 p = false ∧ (s.port p).lpi = false

/-- A port takes a frame whole: it hears the partner, and no codeword that carried the frame is uncorrectable (R233, R241). -/
def Whole (s : State) (p : Nat) (l : Codewords) : Prop := s.hears p = true ∧ l.any spoils = false

/-- No frame waits at a torus port. -/
def PortsFree (s : State) : Prop := ∀ p, p < 12 → (s.port p).queue = []

/-- No request of the device waits to be sent, none of its answers to itself waits, and no frame waits at a torus port: the free
plane is at rest. -/
def AtRest (s : State) : Prop := s.fabric.sendq = [] ∧ (∀ f ∈ s.fabric.back, f.cls = .mgmt) ∧ PortsFree s

/-- Nothing waits on the device's free plane, neither to be sent, nor at a torus port, nor to be delivered to itself. -/
def Quiet (s : State) : Prop := s.fabric.sendq = [] ∧ s.fabric.back = [] ∧ PortsFree s

/-- No word of these byte addresses has a SECDED error, and each lies in a bank leased to port group `g` or outside the
scratchpads (R187, R201). -/
def CleanBytes (s : State) (g : Nat) (as : List Nat) : Prop :=
  ∀ a ∈ as, s.eccOf a = 0 ∧ (a < 2 ^ 31 → s.leased (a / 2 ^ 22) g (a % 2 ^ 22 / 2 ^ 17) = true)

/-- A handle entry is read without error. -/
def CleanEntry (s : State) (c i : Nat) : Prop := mget 0 s.ecc (hEccKey c i 0) = 0 ∧ mget 0 s.ecc (hEccKey c i 1) = 0

/-! ### Memory instructions -/

/-- A memory instruction of opcode `op` of group `g` passes every check with its handle resolved to `r`: a lane executes, no
earlier access of the group to its bytes is outstanding, the tenant's tag is enabled, the entries are read without error, the
comparators agree, and no request of the device waits (R24, R85, R96, R112, R402, Table 04-10). -/
def MemRuns (s : State) (c g op : Nat) (w : TWord) (x : Group) (regs need : List Nat) (n : Nat) (r : Resolved) : Prop :=
  let i := (x.ureg (wH w)).toNat % 1024
  Runs s c g op w x regs ∧ s.clashes c g w n (need.contains 1) x = false ∧ AtRest s ∧ x.ex w ≠ 0#32 ∧
    s.tagOn x.tenant = true ∧ s.resolve c i x.tenant = some r ∧ r.right c need = true ∧
    firstFault r.entry (need.contains 1) n ((x.offsets w).map (·.2)) = none ∧ CleanEntry s c i ∧
    CleanEntry s r.cluster r.index ∧ s.island.disagree = false

/-- Port group `g` reads the bytes at these addresses as memory holds them: no SECDED error, the bank leased to the group, and
in a local handle each written in this attempt (R49, R187, R188, R201). -/
def ReadsMemory (s : State) (g : Nat) (loc : Bool) (as : List Nat) : Prop :=
  CleanBytes s g as ∧ (loc = true → ∀ a ∈ as, a ∈ s.written)

/-- The group is `y`, about to halt again where a debugger steps it (R92). -/
def State.groupIs (t : State) (c g : Nat) (y : Group) : Prop := t.group c g = some y.issuedOnce

/-- Memory after each (address, byte) pair of a list is stored, in order. -/
def storedIn (m : List Host.Cell) (l : List (Nat × Byte)) : List Host.Cell := l.foldl (fun m p => mset 0#8 m p.1 p.2) m

/-- The words of the lanes of an atomic, ascending: each lane reads its word, writes the new value, and keeps the old one
(R117). -/
def atomRun (r : Resolved) (op reg : Nat) (m : List Host.Cell) (x : Group) (l : List (Nat × Nat)) : List Host.Cell × Group :=
  match l with
  | [] => (m, x)
  | (ln, o) :: rest =>
    let as := laneAddrs r o 4 true
    let old := w32 (leNat (as.map (mget 0#8 m)))
    let new := atomNew op old (x.treg reg ln) (x.treg (reg + 1) ln)
    atomRun r op reg (storedIn m (as.zip (leBytes 4 new.toNat))) (x.setT reg ln old) rest

/-- The confirmed request of a thread's access (R116): its entry, offset, operation, size, data and use. -/
def threadReq (s : State) (c t : Nat) (e : HEntry) (o op atom n cas hsn : Nat) (data : List Byte) (use : ReqUse) : Request :=
  ⟨t, c, ⟨hSaddr e + o, op, atom, n, s.tick.ns, c, 0, cas, hsn⟩, data, use, s.fabric.asked, false, none⟩

/-! ### Routed frames -/

/-- A routed frame of class `cls` arrives whole and verified on port `i`, of a tag enabled span-wide, while nothing
waits on the device's own free plane (R239 to R242, R252). -/
def Comes (s : State) (i cls : Nat) (a : Arrival) (tenant : Nat) : Prop :=
  (s.receive i cls a).2 = .good ∧ (s.receive i cls a).1.spanTag tenant = true ∧ Quiet s

/-- The frame is for this device, from another, and the comparators agree (R402). -/
def ForHere (s : State) (i cls : Nat) (a : Arrival) (h : RHead) : Prop :=
  Comes s i cls a h.tenant ∧ h.dst = s.rd R.spnPos ∧ h.src ≠ s.rd R.spnPos ∧ s.island.disagree = false

/-- The device once it has received a frame and freed its buffer units (R249). -/
def State.taken (s : State) (i cls : Nat) (a : Arrival) (f : RFrame) : State := (s.receive i cls a).1.freeUnits i f

/-- An access block that names bytes of this device's memory for an enabled tag, in a legal form (R21, R22, R251). -/
def MemoryAccess (s : State) (h : RHead) (b : Access) : Prop :=
  spanBad b.addr = false ∧ s.tagOn h.tenant = true ∧ bits b.addr 44 42 < 2 ∧ s.physical (b.addr / 2 ^ 45) = some (s.rd R.spnPos) ∧ 0 < b.size ∧
    b.size ≤ 4096 ∧ b.addr % b.size = 0 ∧ (b.op = 2 → b.size = 4 ∧ s.tick.detEff = false) ∧ (s.fn h.tenant).zeroing = false

/-- What the check of an access of memory answers (R190, R198). -/
def State.checked (s : State) (h : RHead) (b : Access) : Served :=
  if bits b.addr 44 42 = 0 then s.kind0 (bits b.addr 41 33) (bits b.addr 21 0) b.size h.tenant (b.op != 1) (b.op != 0)
  else s.kind1 (bits b.addr 41 40) (bits b.addr 25 0) b.size h.tenant (b.op != 1) (b.op != 0)

/-- The handle entry that decides an access of a scratchpad is read without error (R198, R201). -/
def CleanDecider (s : State) (h : RHead) (b : Access) : Prop :=
  bits b.addr 44 42 = 0 → ∀ j, s.decider (bits b.addr 41 33) (bits b.addr 21 0) b.size h.tenant (b.op != 1) (b.op != 0) = some j →
    CleanEntry s (bits b.addr 41 33) j

/-! ### What a command leaves -/

/-- Memory, the tenants' image and every unit outside the compute array are as before. -/
def SameStores (s t : State) : Prop :=
  t.mem = s.mem ∧ t.written = s.written ∧ t.eff = s.eff ∧ t.image = s.image ∧ t.load = s.load ∧ t.svc = s.svc ∧
    t.time = s.time ∧ t.power = s.power ∧ t.island = s.island ∧ t.trestle = s.trestle ∧ t.spi = s.spi ∧ t.flash =
    s.flash ∧ t.tag = s.tag ∧ t.pins = s.pins

/-- `SameStores` of a next state. -/
def SameStoresRes (s : State) (r : Res) : Prop :=
  match r with
  | .next t => SameStores s t
  | .fault _ => True
  | .refused _ => True

/-- The image, the services, time, power, safety and management are as before. -/
def SameUnits (s t : State) : Prop :=
  t.eff = s.eff ∧ t.image = s.image ∧ t.load = s.load ∧ t.svc = s.svc ∧ t.time = s.time ∧ t.power = s.power ∧
    t.island = s.island ∧ t.trestle = s.trestle ∧ t.spi = s.spi ∧ t.flash = s.flash ∧ t.tag = s.tag ∧ t.pins =
    s.pins

/-- `SameUnits` of a next state. -/
def SameUnitsRes (s : State) (r : Res) : Prop :=
  match r with
  | .next t => SameUnits s t
  | .fault _ => True
  | .refused _ => True

/-- Time, power, safety and management are as before. -/
def SamePlant (s t : State) : Prop :=
  t.eff = s.eff ∧ t.time = s.time ∧ t.power = s.power ∧ t.island = s.island ∧ t.trestle = s.trestle ∧ t.spi =
    s.spi ∧ t.flash = s.flash ∧ t.tag = s.tag ∧ t.pins = s.pins

/-- `SamePlant` of a next state. -/
def SamePlantRes (s : State) (r : Res) : Prop :=
  match r with
  | .next t => SamePlant s t
  | .fault _ => True
  | .refused _ => True

/-- Everything is as before but ports, the host port, the safety island, the Trestle node and what these show. -/
def SameButPorts (s t : State) : Prop :=
  t.eff = s.eff ∧ t.tick = s.tick ∧ t.image = s.image ∧ t.clusters = s.clusters ∧ t.fabric = s.fabric ∧ t.load =
    s.load ∧ t.svc = s.svc ∧ t.time = s.time ∧ t.power = s.power ∧ t.spi = s.spi ∧ t.flash = s.flash ∧ t.tag = s.tag
    ∧ t.mem = s.mem ∧ t.written = s.written ∧ t.ecc = s.ecc ∧ t.scrubs = s.scrubs

/-- `SameButPorts` of a next state. -/
def SameButPortsRes (s : State) (r : Res) : Prop :=
  match r with
  | .next t => SameButPorts s t
  | .fault _ => True
  | .refused _ => True

/-- The compute array, memory, the fabric and the image are as before. -/
def SameButPower (s t : State) : Prop :=
  t.eff = s.eff ∧ t.image = s.image ∧ t.clusters = s.clusters ∧ t.fabric = s.fabric ∧ t.load = s.load ∧ t.time =
    s.time ∧ t.spi = s.spi ∧ t.flash = s.flash ∧ t.tag = s.tag ∧ t.mem = s.mem ∧ t.written = s.written ∧ t.ecc =
    s.ecc ∧ t.scrubs = s.scrubs

/-- `SameButPower` of a next state. -/
def SameButPowerRes (s : State) (r : Res) : Prop :=
  match r with
  | .next t => SameButPower s t
  | .fault _ => True
  | .refused _ => True

/-- Memory, the image, power, safety and management are as before. -/
def SameButServices (s t : State) : Prop :=
  t.eff = s.eff ∧ t.image = s.image ∧ t.power = s.power ∧ t.island = s.island ∧ t.trestle = s.trestle ∧ t.spi =
    s.spi ∧ t.flash = s.flash ∧ t.tag = s.tag ∧ t.pins = s.pins ∧ t.mem = s.mem ∧ t.written = s.written

/-- `SameButServices` of a next state. -/
def SameButServicesRes (s : State) (r : Res) : Prop :=
  match r with
  | .next t => SameButServices s t
  | .fault _ => True
  | .refused _ => True

/-- The compute array, memory, the fabric, ports, the services and time are as before. -/
def SameButManagement (s t : State) : Prop :=
  t.eff = s.eff ∧ t.tick = s.tick ∧ t.image = s.image ∧ t.clusters = s.clusters ∧ t.ports = s.ports ∧ t.fabric =
    s.fabric ∧ t.load = s.load ∧ t.host = s.host ∧ t.svc = s.svc ∧ t.time = s.time ∧ t.mem = s.mem ∧ t.written =
    s.written ∧ t.ecc = s.ecc ∧ t.scrubs = s.scrubs ∧ t.pins = s.pins

/-- `SameButManagement` of a next state. -/
def SameButManagementRes (s : State) (r : Res) : Prop :=
  match r with
  | .next t => SameButManagement s t
  | .fault _ => True
  | .refused _ => True

/-- Memory, the load engine, flash, the tag and the pins are as before. -/
def SameButTick (s t : State) : Prop :=
  t.load = s.load ∧ t.spi = s.spi ∧ t.flash = s.flash ∧ t.tag = s.tag ∧ t.pins = s.pins ∧ t.mem = s.mem

/-- `SameButTick` of a next state. -/
def SameButTickRes (s : State) (r : Res) : Prop :=
  match r with
  | .next t => SameButTick s t
  | .fault _ => True
  | .refused _ => True

/-- The SPI slave, flash, the tag and the pins are as before. -/
def SameButSpan (s t : State) : Prop := t.spi = s.spi ∧ t.flash = s.flash ∧ t.tag = s.tag ∧ t.pins = s.pins

/-- `SameButSpan` of a next state. -/
def SameButSpanRes (s : State) (r : Res) : Prop :=
  match r with
  | .next t => SameButSpan s t
  | .fault _ => True
  | .refused _ => True

/-- Commands whose next state is `SameStores`. -/
def leavesStores (i : Instr) : Bool :=
  match i with
  | .stepComplete .. | .scrubVisit .. | .scrubEvaluation .. | .iadd .. | .isub .. | .imul .. | .imulhu .. | .imac
    .. | .and .. | .or .. | .xor .. | .shl .. | .shr .. | .sar .. | .imin .. | .imax .. | .umin .. | .umax .. | .mov
    .. | .icmp .. | .pbool .. | .laneq .. | .xlane .. | .sysv .. | .fadd .. | .fsub .. | .fmul .. | .ffma .. | .fmin
    .. | .fmax .. | .fcmp .. | .cvt .. | .tfn .. | .iaddi .. | .andi .. | .ori .. | .xori .. | .shli .. | .shri .. |
    .sari .. | .icmpi .. | .movl .. | .movh .. | .umovl .. | .umovh .. | .uaddi .. | .rdlane .. | .bra .. | .jmark
    .. | .jn .. | .exit .. | .fence .. | .fenceRelease .. | .arrive .. | .waita .. | .waitaRelease .. | .replayReq
    .. | .waitAt .. | .waitFor .. | .waitIdle .. | .issueT .. | .issueV .. | .issueD .. | .slotTx .. | .slotRx .. |
    .lease .. | .launch .. | .join .. | .joinComplete .. | .markEnd .. | .markTrace .. | .loopSet .. | .loopBack ..
    | .halt .. | .vote .. | .voteDeadline .. | .echo .. | .haltReport .. | .dbgMaxExpiry .. => true
  | _ => false

/-- Commands whose next state is `SameUnits`. -/
def leavesUnits (i : Instr) : Bool :=
  match i with
  | .copyComplete .. | .tensorComplete .. | .vectorComplete .. | .copyDescriptorComplete .. | .slotFrame .. |
    .zeroingComplete .. => true
  | _ => false

/-- Commands whose next state is `SamePlant`. -/
def leavesPlant (i : Instr) : Bool :=
  match i with
  | .ld .. | .st .. | .atom .. | .cpy .. | .status .. | .finish .. | .escapeTimeout .. | .admissionComplete .. |
    .sectionRecord .. | .shareRecord .. | .stateRecord .. | .endRecord .. | .shareVerdict .. | .refillTimeout .. |
    .hostReadCompletion .. | .completionTimeout .. | .flr .. | .vfDisable .. | .pfFlr .. => true
  | _ => false

/-- Commands whose next state is `SameButPorts`. -/
def portsOnly (i : Instr) : Bool :=
  match i with
  | .islandRebootComplete .. | .junctionTrip .. | .railOvervoltage .. | .regulatorFault .. | .launchPowerTrip .. |
    .gateCauseClear .. | .selfCheckAbandon .. | .vddOptFault .. | .vddOptRestore .. | .beacon .. | .beaconMiss .. |
    .listenTimeout .. | .election .. | .superframeStart .. | .assignedSlot .. | .contentionSlot .. | .claim .. |
    .pcieLinkReturnsToL0 .. | .portStartTime .. | .detectTimeout .. | .trainTimeout .. | .alignLock .. |
    .alignTimeout .. | .measureDone .. | .backoffExpiry .. | .lossOfLock .. | .retrainTimeout .. | .trainingFrame ..
    | .uncWindow .. | .adaptationUpdate .. | .burstGuardWindow .. | .loopFreezeEnd .. | .freezeLimit .. |
    .offTimeout .. | .lightAnyLoss .. | .beaconQualified .. | .lightFullReached .. | .raiseTimeout .. |
    .lightFullLoss .. | .islandLightCheck .. | .laserDisableRelease .. | .optInhibitN .. | .engineCaseOverheat .. |
    .engineCaseCooled .. | .ethernetFrame .. | .ethernetLinkUp .. | .ethernetLinkDown .. | .prbsCheckerLock .. |
    .prbsCheckerLockLoss .. | .idleUnit .. | .statusTimer .. | .retry .. | .retryTimeout .. | .linkDelayProbe .. |
    .probe .. | .probeRsp .. | .hello .. | .sign .. | .secureTimeout .. | .fenceExpiry .. | .rekeyTimer .. |
    .oldPhaseExpiry .. | .configRequest .. | .bar2Write .. | .resultSlotRead .. | .bar0BadAccess .. |
    .invalidateComplete .. | .flrComplete .. | .creditStall .. | .msixUnmask .. |
    .echoDeadline .. | .rcRead .. | .trestleRead .. => true
  | _ => false

/-- Commands whose next state is `SameButPower`. -/
def powerOnly (i : Instr) : Bool :=
  match i with
  | .ledgerCheckpoint .. | .streamLifetime .. | .frameOpen .. | .frameWindowClose .. | .avsbusFailure .. |
    .thermalThreshold .. | .telemetryRead .. | .dozeEntryComplete .. | .exitSignal .. | .tile .. | .lockstepMismatch
    .. | .sensorImplausible .. | .coreUndervoltage .. | .retentionUndervoltage .. | .quarterClockFault .. |
    .islandOscillatorFault .. | .hubWatchdog .. | .selfCheckComplete .. | .trestleWake .. => true
  | _ => false

/-- Commands whose next state is `SameButServices`. -/
def servicesOnly (i : Instr) : Bool :=
  match i with
  | .collectionComplete .. | .digestComplete .. | .noticeApply .. | .anchor .. | .referenceLoss .. |
    .qualificationComplete .. | .ppsEdge .. | .ptpMessage .. | .loopUpdate .. | .holdoverLimit .. | .ppsOutput .. |
    .ppsOutEnd .. | .nop .. | .submit .. | .postedCreditReturn .. => true
  | _ => false

/-- Commands whose next state is `SameButManagement`. -/
def managementOnly (i : Instr) : Bool :=
  match i with
  | .idleStepDown .. | .droop .. | .droopEnd .. | .tagRead .. | .readWide .. | .getState .. | .tagWrite .. |
    .writeBlock .. | .tagCommitComplete .. | .fieldCollapse .. | .blackBoxWrite .. | .serviceRecordUpdate .. |
    .flashOperationComplete .. | .resetRelease .. | .spiRead .. | .spiSelectRise .. => true
  | _ => false

/-- Commands whose next state is `SameButTick`. -/
def tickOnly (i : Instr) : Bool :=
  match i with
  | .slotStart .. | .slotCheck .. | .waitRelease .. | .repairStart .. | .sealStart .. | .stretchSealMarker .. | .autoResume ..
    => true
  | _ => false

/-- Commands whose next state is `SameButSpan`: they may hold the schedule, or let held load chains run on. -/
def spanOnly (i : Instr) : Bool :=
  match i with
  | .localTickStart .. | .marker .. | .keystoneTakeover .. | .voltageReached .. | .wakeComplete .. => true
  | _ => false

/-- A command that makes an isolation check finds the comparators agreed (R402), and a sequencer word the hold of the word before
it run out (R170). -/
def Agrees (i : Instr) (s : State) : Prop :=
  match i with
  | .ld .. | .st .. | .atom .. | .cpy .. | .slotFrame .. => s.island.disagree = false
  | .issueT c k _ | .issueV c k _ | .issueD c k _ | .slotTx c k _ | .slotRx c k _ =>
    s.island.disagree = false ∧ (s.ctx c k).hold = 0
  | .waitAt c k _ | .waitFor c k _ | .waitIdle c k _ | .lease c k _ | .launch c k _ | .join c k _ | .markEnd c k _ |
    .markTrace c k _ | .loopSet c k _ | .loopBack c k _ | .halt c k _ => (s.ctx c k).hold = 0
  | _ => True

/-! ### Memory -/

/-- Memory is in its canonical form: addresses strictly rising, no listed 0. -/
def State.Inv (s : State) : Prop := memWf s.mem = true

end Sys2Proof.Machine
end

