-- ==== Sys2Proof/Certificates/Slice0/Obligations.lean ====
section
/-!
DEFINITION. The statements for the provers.
-/
open Sys2Proof Sys2Proof.Machine

/-- R102: the integer O-format instructions compute 32-bit results in the executing lanes, write t[d] there and nowhere else,
and leave the rest of the device but the fetch's own pointers. R108 to R110: the floating-point, transcendental and conversion
instructions write t[d] in the executing lanes and nothing else; FSUB is FADD of the negated operand. R102, R107: the
immediate forms: the 9-bit immediate is sign-extended, a shift takes its low 5 bits, MOVL writes the 16-bit immediate, MOVH
puts it above the low half, and MOV copies operand b. Completes: IADD, ISUB, IMUL, IMULHU, IMAC, AND, OR, XOR, SHL, SHR, SAR,
IMIN, IMAX, UMIN, UMAX, MOV, FADD, FSUB, FMUL, FFMA, FMIN, FMAX, CVT, TFN, IADDI, ANDI, ORI, XORI, SHLI, SHRI, SARI, MOVL,
MOVH. Where it rests on the model's own choices or readings: log 7. -/
def Obligations.ArithmeticOps : Prop :=
  (
    OForm .iadd 0x01 (fun a b _ => a + b) ∧ OForm .isub 0x02 (fun a b _ => a - b) ∧ OForm .imul 0x03 (fun a b _ => a * b) ∧
      OForm .imulhu 0x04 (fun a b _ => BitVec.ofNat 32 (a.toNat * b.toNat / 2 ^ 32)) ∧ OForm .imac 0x05 (fun a b d => a * b + d) ∧
      OForm .and 0x06 (fun a b _ => a &&& b) ∧ OForm .or 0x07 (fun a b _ => a ||| b) ∧ OForm .xor 0x08 (fun a b _ => a ^^^ b) ∧
      OForm .shl 0x09 (fun a b _ => a <<< (b.toNat % 32)) ∧ OForm .shr 0x0A (fun a b _ => a >>> (b.toNat % 32)) ∧
      OForm .sar 0x0B (fun a b _ => a.sshiftRight (b.toNat % 32)) ∧ OForm .imin 0x0C (fun a b _ => if a.sle b then a else b) ∧
      OForm .imax 0x0D (fun a b _ => if b.sle a then a else b) ∧ OForm .umin 0x0E (fun a b _ => if a.ule b then a else b) ∧
      OForm .umax 0x0F (fun a b _ => if b.ule a then a else b)) ∧
  (
    OForm .fadd 0x16 (fun a b _ => w32 (fadd a.toNat b.toNat)) ∧ OForm .fsub 0x17 (fun a b _ => w32 (fadd a.toNat (fneg b.toNat))) ∧
      OForm .fmul 0x18 (fun a b _ => w32 (fmul a.toNat b.toNat)) ∧ OForm .ffma 0x19 (fun a b d => w32 (ffma a.toNat b.toNat d.toNat)) ∧
      OForm .fmin 0x1A (fun a b _ => w32 (fminmax false a.toNat b.toNat)) ∧ OForm .fmax 0x1B (fun a b _ => w32 (fminmax true a.toNat b.toNat)) ∧
      LaneForm .cvt 0x1D (fun w => !wBs w && wX w == 0 && cvtDefined (wB w)) (fun w => [wD w, wA w]) wD
        (fun _ _ _ x w l => w32 (cvt (wB w) (x.treg (wA w) l).toNat)) ∧
      LaneForm .tfn 0x1E (fun w => !wBs w && wB w == 0) (fun w => [wD w, wA w]) wD
        (fun _ _ _ x w l => w32 (tfn (wX w) (x.treg (wA w) l).toNat))) ∧
  (
    let rr := fun w : TWord => [wD w, wA w]
    let sh := fun w : TWord => tw w 8 5 == 0
    LaneForm .iaddi 0x20 (fun _ => true) rr wD (fun _ _ _ x w l => x.treg (wA w) l + imm9 w) ∧
      LaneForm .andi 0x21 (fun _ => true) rr wD (fun _ _ _ x w l => x.treg (wA w) l &&& imm9 w) ∧
      LaneForm .ori 0x22 (fun _ => true) rr wD (fun _ _ _ x w l => x.treg (wA w) l ||| imm9 w) ∧
      LaneForm .xori 0x23 (fun _ => true) rr wD (fun _ _ _ x w l => x.treg (wA w) l ^^^ imm9 w) ∧
      LaneForm .shli 0x24 sh rr wD (fun _ _ _ x w l => x.treg (wA w) l <<< tw w 4 0) ∧
      LaneForm .shri 0x25 sh rr wD (fun _ _ _ x w l => x.treg (wA w) l >>> tw w 4 0) ∧
      LaneForm .sari 0x26 sh rr wD (fun _ _ _ x w l => (x.treg (wA w) l).sshiftRight (tw w 4 0)) ∧
      LaneForm .movl 0x28 (fun _ => true) (fun w => [tw w 20 16]) (fun w => tw w 20 16) (fun _ _ _ _ w _ => w32 (wImm16 w)) ∧
      LaneForm .movh 0x29 (fun _ => true) (fun w => [tw w 20 16]) (fun w => tw w 20 16)
        (fun _ _ _ x w l => w32 (wImm16 w * 2 ^ 16 + (x.treg (tw w 20 16) l).toNat % 2 ^ 16)) ∧
      LaneForm .mov 0x10 (fun w => bOk w && wX w == 0 && wA w == 0) (fun w => wD w :: bReg w) wD (fun _ _ _ x w l => x.opB w l))

/-- R103, R104: comparisons and PBOOL set p[pd] in the executing lanes and leave it in the others; LANEQ's any and all give
one value for every executing lane, its mask and count go to t[d]. R105 to R107: XLANE reads the lane its mode names, SYSV the
group's place and tick, and the uniform instructions write one uniform register. Completes: ICMP, PBOOL, LANEQ, XLANE, SYSV,
FCMP, ICMPI, UMOVL, UMOVH, UADDI, RDLANE. -/
def Obligations.LaneQueries : Prop :=
  (
    PredForm .icmp 0x11 (fun w => bOk w && wX w == 0) (fun w => wA w :: bReg w)
        (fun x w l => icmpHolds (tw w 20 18) (x.treg (wA w) l) (x.opB w l)) ∧
      PredForm .icmpi 0x27 (fun _ => true) (fun w => [wA w]) (fun x w l => icmpHolds (tw w 20 18) (x.treg (wA w) l) (imm9 w)) ∧
      PredForm .fcmp 0x1C (fun w => bOk w && wX w == 0) (fun w => wA w :: bReg w)
        (fun x w l => fcmp (tw w 20 18) (x.treg (wA w) l).toNat (x.opB w l).toNat) ∧
      PredForm .pbool 0x12 (fun w => tw w 20 18 == 0 && tw w 14 12 == 0 && tw w 8 6 == 0 && !wBs w) (fun _ => [])
        (fun x w l => (pboolOp (wX w) (x.pred (tw w 11 9)) (x.pred (tw w 5 3))).getLsbD l) ∧
      PredForm .laneq 0x13 (fun w => laneqOk w && wX w == 0) (fun _ => [])
        (fun x w _ => x.pred (tw w 11 9) &&& x.ex w != 0#32) ∧
      PredForm .laneq 0x13 (fun w => laneqOk w && wX w == 1) (fun _ => [])
        (fun x w _ => x.pred (tw w 11 9) &&& x.ex w == x.ex w) ∧
      LaneForm .laneq 0x13 (fun w => laneqOk w && wX w == 2) (fun w => [wD w]) wD (fun _ _ _ x w _ => x.pred (tw w 11 9) &&& x.ex w) ∧
      LaneForm .laneq 0x13 (fun w => laneqOk w && wX w == 3) (fun w => [wD w]) wD
        (fun _ _ _ x w _ => w32 (lanes (x.pred (tw w 11 9) &&& x.ex w)).length)) ∧
  (
    LaneForm .xlane 0x14 bOk oRegs wD (fun _ _ _ x w l => x.treg (wA w) (xlaneSrc (wX w) l (x.opB w l))) ∧
      LaneForm .sysv 0x15 (fun w => !wBs w && wX w == 0 && wA w == 0 && decide (wB w < 8)) (fun w => [wD w]) wD
        (fun s c g x w l => match wB w with
          | 0 => w32 l
          | 1 => w32 g
          | 2 => w32 x.block
          | 3 => w32 (c % 4)
          | 4 => w32 x.tenant
          | 5 => w32 s.self
          | 6 => x.active
          | _ => w32 (s.tick.count / 2 ^ 32)) ∧
      UniformForm .rdlane 0x2D (fun w => tw w 20 19 == 0 && tw w 8 5 == 0) (fun w => [wA w]) (fun w => tw w 18 15)
        (fun x w => x.treg (wA w) (tw w 4 0)) ∧
      UniformForm .umovl 0x2A (fun w => tw w 20 20 == 0) (fun _ => []) (fun w => tw w 19 16) (fun _ w => w32 (wImm16 w)) ∧
      UniformForm .umovh 0x2B (fun w => tw w 20 20 == 0) (fun _ => []) (fun w => tw w 19 16)
        (fun x w => w32 (wImm16 w * 2 ^ 16 + (x.ureg (tw w 19 16)).toNat % 2 ^ 16)) ∧
      UniformForm .uaddi 0x2C (fun w => tw w 20 19 == 0 && tw w 14 13 == 0) (fun _ => []) (fun w => tw w 18 15)
        (fun x w => x.ureg (tw w 12 9) + imm9 w))

/-- R119: a branch that every active lane takes goes to its target, one that none takes goes on, and a divergent one runs the
taken lanes first with the others pushed, or added to the entry on top where that resumes at the same pc; JMARK pushes the
active mask, and JN pops the mask and, from a path entry, the pc. Completes: BRA, JMARK, JN. -/
def Obligations.BranchAndJoin : Prop :=
  ∀ (s : State) (c : Fin 512) (g : Fin 64) (w : BitVec 26) (x : Group),
    let pc4 := (x.pc + 4) % 2 ^ 32
    let target := wrap 32 (x.pc + 4 * sext 21 (tw w 20 0))
    let rest := x.active &&& ~~~(x.ex w)
    (Runs s c g 0x34 w x [] → guardOk w = true →
      (x.ex w = x.active → GroupBecomes s c g { x with pc := target } (exec (.bra c g w) s)) ∧
      (x.ex w = 0#32 → x.active ≠ 0#32 → GroupBecomes s c g { x with pc := pc4 } (exec (.bra c g w) s)) ∧
      (∀ e r, x.ex w ≠ x.active → x.ex w ≠ 0#32 → x.stk = e :: r → e.path = true → e.pc = pc4 →
        GroupBecomes s c g { x with stk := { e with mask := e.mask ||| rest } :: r, active := x.ex w, pc := target }
          (exec (.bra c g w) s)) ∧
      (x.ex w ≠ x.active → x.ex w ≠ 0#32 → x.stk.length < 16 → (∀ e r, x.stk = e :: r → ¬(e.path = true ∧ e.pc = pc4)) →
        GroupBecomes s c g { x with stk := ⟨true, pc4, rest⟩ :: x.stk, active := x.ex w, pc := target } (exec (.bra c g w) s))) ∧
    (Runs s c g 0x35 w x [] → groupOk w = true → tw w 20 0 = 0 → x.stk.length < 16 →
      GroupBecomes s c g { x with stk := ⟨false, 0, x.active⟩ :: x.stk, pc := pc4 } (exec (.jmark c g w) s)) ∧
    (∀ e r, Runs s c g 0x36 w x [] → groupOk w = true → tw w 20 0 = 0 → x.stk = e :: r →
      GroupBecomes s c g { x with stk := r, active := e.mask, pc := if e.path then e.pc else pc4 } (exec (.jn c g w) s))

/-- R76, R121: a group that executes EXIT retires: its slot is free, it has no place in the active set, its block counts one
group fewer, and no other group, cluster or byte of memory changes. Completes: EXIT. -/
def Obligations.ExitRetires : Prop :=
  ∀ (s : State) (c : Fin 512) (g : Fin 64) (w : BitVec 26) (x : Group), Runs s c g 0x37 w x [] → groupOk w = true → tw w 20 0 = 0 →
    ∃ t, exec (.exit c g w) s = .next t ∧ t.group c g = none ∧ (t.cluster c).entryOf g = none ∧
      (∀ h, h ≠ g.val → t.group c h = s.group c h) ∧ (∀ d, d ≠ c.val → t.cluster d = s.cluster d) ∧
      (∀ b, mfind (s.cluster c).blocks x.block = some b →
        mfind (t.cluster c).blocks x.block = some { b with groups := b.groups - 1 }) ∧
      t.mem = s.mem ∧ t.tick = s.tick ∧ t.host = s.host ∧ t.out = s.out

/-- R79, R80, R122, R123: FENCE makes the group wait, and WAITA where its counter has not reached the value; FENCE_RELEASE and
WAITA_RELEASE end the wait once every earlier access is performed, or the counter has reached the value, and nothing happens
before; ARRIVE counts one arrival, or is held while accesses issued before it have no response. Completes: FENCE,
FENCE_RELEASE, ARRIVE, WAITA, WAITA_RELEASE. Where it rests on the model's own choices or readings: log 2. -/
def Obligations.FencesAndArrivals : Prop :=
  ∀ (s : State) (c : Fin 512) (g : Fin 64) (w : BitVec 26) (x : Group),
    let pc4 := (x.pc + 4) % 2 ^ 32
    (Runs s c g 0x38 w x [] → groupOk w = true → tw w 20 2 = 0 →
      GroupBecomes s c g { x with pc := pc4, wait := .fence (tw w 1 0) } (exec (.fence c g w) s)) ∧
    (∀ sc, s.group c g = some x → x.wait = .fence sc → x.remote = 0 →
      ∃ t, exec (.fenceRelease c g) s = .next t ∧ t.group c g = some { x with wait := .ready } ∧ OnlyGroup s t c g) ∧
    (∀ sc, s.group c g = some x → x.wait = .fence sc → x.remote ≠ 0 → exec (.fenceRelease c g) s = .next s) ∧
    (Runs s c g 0x39 w x [] → groupOk w = true → tw w 20 4 = 0 → s.outstanding c g s.fabric.asked = true →
      (∀ a ∈ (s.cluster c).arrivals, s.outstanding c a.slot a.upto = true) →
      ∃ t, exec (.arrive c g w) s = .next t ∧ t.groupIs c g { x with pc := pc4 } ∧
        (t.cluster c).arrivals = (s.cluster c).arrivals ++
          [⟨g, x.tenant, x.block, s.fabric.asked, tw w 3 0, s.instrAddr c x⟩] ∧
        (t.cluster c).blocks = (s.cluster c).blocks ∧ (∀ h, h ≠ g.val → t.group c h = s.group c h) ∧ t.mem = s.mem ∧ t.tick = s.tick) ∧
    (∀ b, Runs s c g 0x39 w x [] → groupOk w = true → tw w 20 4 = 0 → s.outstanding c g s.fabric.asked = false →
      (s.cluster c).arrivals = [] → mfind (s.cluster c).blocks x.block = some b → mget 0 b.counters (tw w 3 0) < 65535 →
      ∃ t, exec (.arrive c g w) s = .next t ∧ t.groupIs c g { x with pc := pc4 } ∧ (t.cluster c).arrivals = [] ∧
        mfind (t.cluster c).blocks x.block =
          some { b with counters := mput b.counters (tw w 3 0) (mget 0 b.counters (tw w 3 0) + 1) } ∧
        (∀ j, j ≠ x.block → mfind (t.cluster c).blocks j = mfind (s.cluster c).blocks j) ∧
        (∀ h, h ≠ g.val → t.group c h = s.group c h) ∧ t.mem = s.mem ∧ t.tick = s.tick) ∧
    (Runs s c g 0x3A w x [] → groupOk w = true → (bit w.toNat 20 || tw w 19 8 == 0) = true →
      let v := if bit w.toNat 20 then tw w 19 4 else (x.ureg (tw w 7 4)).toNat % 2 ^ 16
      (s.counter c x.block (tw w 3 0) < v → GroupBecomes s c g { x with pc := pc4, wait := .counter (tw w 3 0) v }
        (exec (.waita c g w) s)) ∧
      (v ≤ s.counter c x.block (tw w 3 0) → GroupBecomes s c g { x with pc := pc4 } (exec (.waita c g w) s))) ∧
    (∀ k v, s.group c g = some x → x.wait = .counter k v → v ≤ s.counter c x.block k →
      ∃ t, exec (.waitaRelease c g) s = .next t ∧ t.group c g = some { x with wait := .ready } ∧ OnlyGroup s t c g) ∧
    (∀ k v, s.group c g = some x → x.wait = .counter k v → s.counter c x.block k < v →
      exec (.waitaRelease c g) s = .next s)

/-- R159: WAIT.AT waits for a time not yet reached and is late, and counted, at one that has passed; WAIT.FOR waits its clk;
WAIT.IDLE waits until the engines it names are idle; WAIT_RELEASE makes the context run again, one clk later than its hold.
R167 to R169, R173: MARK.END and HALT end the context's program for the tick and note its slack where it is live, MARK.TRACE
writes one record of four words and moves the trace index on, LOOP.SET loads a loop counter, and LOOP.BACK goes back while the
counter exceeds 1 and leaves it 0 on the last pass. Completes: WAIT_AT, WAIT_FOR, WAIT_IDLE, WAIT_RELEASE, MARK_END,
MARK_TRACE, LOOP_SET, LOOP_BACK, HALT. Where it rests on the model's own choices or readings: logs 2 and 15. -/
def Obligations.SequencerWords : Prop :=
  (
    ∀ (s : State) (c : Fin 512) (k : Fin 9) (w : BitVec 64),
      let y := pastWord s c k w
      let at_ := qw w 23 0
      (SeqRuns s c k w 1 → qw w 41 40 = 0 → qw w 47 42 = 0 → qw w 39 24 = 0 → at_ < s.repairStart →
        (s.tick.ns < at_ → ∃ t, exec (.waitAt c k w) s = .next t ∧
          CtxBecomes s t c k { y with state := .wait, wait := .until at_ } ∧
          (t.cluster c).slackNow = leastSlack s c y.live (at_ - s.tick.ns)) ∧
        (s.tick.ns = at_ → ∃ t, exec (.waitAt c k w) s = .next t ∧ CtxBecomes s t c k y ∧
          (t.cluster c).slackNow = leastSlack s c y.live 0) ∧
        (at_ < s.tick.ns → ∃ t, exec (.waitAt c k w) s = .next t ∧ CtxBecomes s t c k y ∧
          (t.cluster c).slackNow = leastSlack s c y.live 0 ∧
          (bit (s.hdr (pageNo .seq c) hCtl) 0 = false → t.rd R.seqLateAt c = min 0xFFFFFFFF (s.rd R.seqLateAt c + 1)))) ∧
      (SeqRuns s c k w 1 → qw w 41 40 = 1 → qw w 47 42 = 0 → qw w 39 32 = 0 → 1 ≤ qw w 31 0 →
        ∃ t, exec (.waitFor c k w) s = .next t ∧ CtxBecomes s t c k { y with state := .wait, wait := .clks (qw w 31 0) }) ∧
      (SeqRuns s c k w 1 → qw w 41 40 = 2 → qw w 47 42 = 0 → qw w 39 3 = 0 → 1 ≤ qw w 2 0 →
        ∃ t, exec (.waitIdle c k w) s = .next t ∧ CtxBecomes s t c k
          (if (s.cluster c).idleMask (qw w 2 0) then y else { y with state := .wait, wait := .idle (qw w 2 0) })) ∧
      (∀ ns, (s.ctx c k).state = .wait → (s.ctx c k).wait = .until ns → ns ≤ s.tick.ns →
        ∃ t, exec (.waitRelease c k) s = .next t ∧ CtxBecomes s t c k (s.ctx c k).released) ∧
      (∀ n, (s.ctx c k).state = .wait → (s.ctx c k).wait = .clks n →
        ∃ t, exec (.waitRelease c k) s = .next t ∧ (t.ctx c k).state = .run ∧ (t.ctx c k).wait = .none) ∧
      (∀ m, (s.ctx c k).state = .wait → (s.ctx c k).wait = .idle m → (s.cluster c).idleMask m = true →
        ∃ t, exec (.waitRelease c k) s = .next t ∧ CtxBecomes s t c k (s.ctx c k).released)) ∧
  (
    ∀ (s : State) (c : Fin 512) (k : Fin 9) (w : BitVec 64),
      let y := pastWord s c k w
      (SeqRuns s c k w 10 → qw w 35 32 = 0 → qw w 47 36 = 0 → qw w 31 0 = 0 →
        ∃ t, exec (.markEnd c k w) s = .next t ∧ CtxBecomes s t c k { y with state := .done } ∧
          (t.cluster c).slackNow = leastSlack s c y.live (s.sealStart - s.tick.ns)) ∧
      (SeqRuns s c k w 10 → qw w 35 32 = 1 → qw w 47 36 = 0 → qw w 31 16 = 0 →
        let i := (s.cluster c).traceIdx
        ∃ t, exec (.markTrace c k w) s = .next t ∧ CtxBecomes s t c k y ∧ (t.cluster c).traceIdx = (i + 1) % 128 ∧
          t.rd R.seqTrace c 0 (4 * i) = qw w 15 0 + k.val * 2 ^ 16 + s.tick.attempt % 16 * 2 ^ 20 ∧
          t.rd R.seqTrace c 0 (4 * i + 1) = min (s.clk c) 0xFFFFFFFF ∧
          t.rd R.seqTrace c 0 (4 * i + 2) = s.tick.count % 2 ^ 32 ∧
          t.rd R.seqTrace c 0 (4 * i + 3) = s.tick.count / 2 ^ 32 % 2 ^ 32) ∧
      (SeqRuns s c k w 11 → qw w 41 40 = 0 → qw w 47 42 = 0 → qw w 39 38 = 0 → qw w 35 32 = 0 → 1 ≤ qw w 31 0 →
        ∃ t, exec (.loopSet c k w) s = .next t ∧ CtxBecomes s t c k { y with lc := mput y.lc (qw w 37 36) (qw w 31 0) }) ∧
      (SeqRuns s c k w 11 → qw w 41 40 = 1 → qw w 47 42 = 0 → qw w 39 38 = 0 → qw w 35 16 = 0 → 1 ≤ qw w 15 0 →
        8 * qw w 15 0 ≤ (s.ctx c k).pc →
        let n := mget 0 (s.ctx c k).lc (qw w 37 36)
        (1 < n → ∃ t, exec (.loopBack c k w) s = .next t ∧ CtxBecomes s t c k
          { y with lc := mput y.lc (qw w 37 36) (n - 1), pc := (s.ctx c k).pc - 8 * qw w 15 0, hold := qw w 59 56 + 1 }) ∧
        (n ≤ 1 → ∃ t, exec (.loopBack c k w) s = .next t ∧
          CtxBecomes s t c k { y with lc := mput y.lc (qw w 37 36) 0 })) ∧
      (SeqRuns s c k w 12 → k ≠ 8 → qw w 47 0 = 0 →
        ∃ t, exec (.halt c k w) s = .next t ∧ CtxBecomes s t c k { y with state := .halted } ∧
          (t.cluster c).slackNow = leastSlack s c y.live (s.sealStart - s.tick.ns)))

/-- R165, R187: LEASE's grant takes effect 2 clk after it issues: it gives every bank of its mask to one port group and takes
it from the three others; it touches no other bank, so that banks each leased to exactly one group stay so. R73 to R76, R166:
LAUNCH starts every group of its block in the lowest free slots, ready at the entry with its uniform registers set and every
lane active, and leaves the other groups; JOIN waits for a live block and passes an absent one; JOIN_COMPLETE frees the
block's ID and lets the waiting contexts run, once no group or copy is left and every write of the block's retired groups is
performed. Completes: LAUNCH, JOIN, JOIN_COMPLETE, LEASE. Where it rests on the model's own choices or readings: log 2. -/
def Obligations.LeaseLaunchJoin : Prop :=
  (
    ∀ (s : State) (c : Fin 512) (w : BitVec 64), SeqRuns s c 8 w 7 → qw w 47 34 = 0 →
      ∃ t, exec (.lease c 8 w) s = .next t ∧ CtxBecomes s t c 8 (pastWord s c 8 w) ∧
        (t.cluster c).grants = (s.cluster c).grants ++ [(w32 (qw w 31 0), qw w 33 32, 2)] ∧
        (t.cluster c).leases = (s.cluster c).leases) ∧
  (
    ∀ (q : Cluster) (m : Word) (g d : Nat), q.grants = [(m, g, 2)] → g < 4 →
      let has := fun (k : Cluster) (h b : Nat) => bit (k.leases.getD h 0#32).toNat b
      (d < 2 → (q.after d).leases = q.leases ∧ (q.after d).grants = [(m, g, 2 - d)]) ∧
      (2 ≤ d → (q.after d).grants = [] ∧
        (∀ b, b < 32 → ∀ h, h < 4 → has (q.after d) h b = if m.getLsbD b then decide (h = g) else has q h b) ∧
        ((∀ b, b < 32 → ∃ g, g < 4 ∧ ∀ h, h < 4 → (has q h b = true ↔ h = g)) →
          ∀ b, b < 32 → ∃ g, g < 4 ∧ ∀ h, h < 4 → (has (q.after d) h b = true ↔ h = g)))) ∧
  (
    ∀ (s : State) (c : Fin 512) (k : Fin 9) (w : BitVec 64),
      let y := pastWord s c k w
      let e := s.ctxEntry c k
      let off := qw w 25 0
      let b := s.bytes (s.codeAt c k off) 64
      let slots := (s.cluster c).freeSlots
      (SeqRuns s c k w 8 → k ≠ 8 → qw w 47 26 = 0 → off % 64 = 0 → off + 64 ≤ e.len →
        (∀ a ∈ wordsOf ((List.range 64).map (fun i => s.codeAt c k off + i)), s.eccOf a = 0) →
        CleanEntry s c (lCode b) → CleanEntry s c (lWindow b) → s.launchFault c k b = none →
        ∃ t, exec (.launch c k w) s = .next t ∧ t.ctx c k = y ∧
          mfind (t.cluster c).blocks (lBlock b) = some ⟨e.tenant, lCount b, 0, []⟩ ∧
          (∀ i slot, i < lCount b → slots[i]? = some slot →
            ∃ x, t.group c slot = some x ∧ x.tenant = e.tenant ∧ x.block = lBlock b ∧ x.index = i ∧ x.code = lCode b ∧
              x.window = lWindow b ∧ x.pc = lEntry b ∧ x.active = 0xFFFFFFFF#32 ∧ x.wait = .ready ∧ x.stk = [] ∧
              x.ureg 0 = w32 i ∧ x.ureg 1 = w32 (lCount b) ∧ x.ureg 2 = w32 c ∧ x.ureg 3 = w32 s.tick.count ∧
              (∀ r l, x.treg r l = 0#32) ∧ (∀ p, x.pred p = 0#32)) ∧
          (∀ h x, s.group c h = some x → t.group c h = some x) ∧ t.tick = s.tick) ∧
      (SeqRuns s c k w 9 → k ≠ 8 → qw w 47 4 = 0 → bit e.blockMask (qw w 3 0) = true →
        ∃ t, exec (.join c k w) s = .next t ∧ CtxBecomes s t c k
          (if (mfind (s.cluster c).blocks (qw w 3 0)).isNone then y
           else { y with state := .wait, wait := .join (qw w 3 0) })) ∧
      (∀ (blk : Fin 16) x, mfind (s.cluster c).blocks blk = some x → x.groups = 0 → x.copies = 0 →
        s.writesOut c blk = false → (∃ p ∈ (s.cluster c).ctxs, p.2.state = .wait ∧ p.2.wait = .join blk) →
        ∃ t, exec (.joinComplete c blk) s = .next t ∧ mfind (t.cluster c).blocks blk = none ∧
          (∀ j, j ≠ blk.val → mfind (t.cluster c).blocks j = mfind (s.cluster c).blocks j) ∧
          (∀ j z, mfind (s.cluster c).ctxs j = some z → mfind (t.cluster c).ctxs j =
            some (if z.state = .wait ∧ z.wait = .join blk then z.released else z)) ∧
          (t.cluster c).groups = (s.cluster c).groups ∧ (∀ d, d ≠ c.val → t.cluster d = s.cluster d)) ∧
      (∀ (blk : Fin 16) x, mfind (s.cluster c).blocks blk = some x → x.groups ≠ 0 ∨ x.copies ≠ 0 ∨ s.writesOut c blk = true →
        exec (.joinComplete c blk) s = .next s))

/-- R143, R145, R160: an ISSUE whose descriptor passes its checks hands it to the engine: it runs at once on an idle engine
and waits in the queue entry behind a running one; while the entry is occupied the context stalls and nothing changes. R145,
R152, R153, R162: when an engine's running descriptor completes, its result is stored through the banks its engine held while
it ran, the queued one starts, and the tensor and the vector engine count it. Completes: ISSUE_T, ISSUE_V, ISSUE_D,
TENSOR_COMPLETE, VECTOR_COMPLETE, COPY_DESCRIPTOR_COMPLETE. Where it rests on the model's own choices or readings: logs 15, 39
and 44. -/
def Obligations.EngineDescriptors : Prop :=
  (
    ∀ (s : State) (c : Fin 512) (k : Fin 9) (w : BitVec 64) (n : Nat) (i : Instr),
      (n = 0 ∧ i = .issueT c k w) ∨ (n = 1 ∧ i = .issueV c k w) ∨ (n = 2 ∧ i = .issueD c k w) →
      let off := qw w 25 0
      let e := s.ctxEntry c k
      let b := s.bytes (s.codeAt c k off) (descSize n)
      let d : Desc := ⟨e.tenant, k, off, b, s.descClk c e.tenant n b, 0, false, s.fabric.asked,
        (s.cluster c).leases.getD n 0#32, (s.cluster c).leases.getD n 0#32⟩
      let en := (s.cluster c).engine n
      (SeqRuns s c k w (n + 2) → k ≠ 8 → qw w 47 26 = 0 → off % descSize n = 0 → off + descSize n ≤ e.len →
        en.queued = none →
        (∀ a ∈ wordsOf ((List.range (descSize n)).map (fun i => s.codeAt c k off + i)), s.eccOf a = 0) →
        (∀ p ∈ (opsOf n b).flatMap (fun o => s.operandEntries c e.tenant (n == 2) o), CleanEntry s p.1 p.2) →
        s.checkDesc c e.tenant n b = none →
        ∃ t, exec i s = .next t ∧ CtxBecomes s t c k (pastWord s c k w) ∧
          (t.cluster c).engine n = (if en.running = none then ⟨some d, none⟩ else ⟨en.running, some d⟩) ∧
          (∀ m, m < 3 → m ≠ n → (t.cluster c).engine m = (s.cluster c).engine m)) ∧
      (qKind w = n + 2 → en.queued ≠ none → exec i s = .next s)) ∧
  (
    ∀ (s : State) (c : Fin 512) (n : Nat) (i : Instr) (d : Desc),
      (n = 0 ∧ i = .tensorComplete c) ∨ (n = 1 ∧ i = .vectorComplete c) ∨ (n = 2 ∧ i = .copyDescriptorComplete c) →
      let m := (s.cluster c).leases.getD n 0#32
      let u := s.draw.holding c n (d.banks s.freeCtr)
      ((s.cluster c).engine n).running = some d →
        ∃ t, exec i s = .next t ∧
          ((t.cluster c).engine n).running = ((s.cluster c).engine n).queued.map (fun x => { x with held := m, had := m }) ∧
          ((t.cluster c).engine n).queued = none ∧ (t.cluster c).leases = (s.cluster c).leases ∧
          (n = 0 → t.mem = (u.tensorStore c d (s.undefinedResult c 0 d)).mem ∧ Counts s t R.tenDescCnt c 1) ∧
          (n = 1 → t.mem = (u.vectorStore c d (s.undefinedResult c 1 d)).mem ∧ Counts s t R.vecDescCnt c 1) ∧
          (n = 2 → t.mem = (u.copyStore c d (s.undefinedResult c 2 d)).mem))

/-- R163, R164: SLOT.TX and SLOT.RX arm a slot of the tenant in the direction its entry gives; an arm is late when a TX issues
less than 100 ns before the slot starts, or an RX not before it, and is then counted, and a late TX has its replay wanted.
Completes: SLOT_TX, SLOT_RX. -/
def Obligations.SlotArming : Prop :=
  ∀ (s : State) (c : Fin 512) (k : Fin 9) (w : BitVec 64),
    let id := qw w 15 0
    let h := qw w 25 16
    let off := qw w 47 26
    let e := s.ctxEntry c k
    let x := s.slotEntry id
    let arms := fun (t : State) (tx late : Bool) => CtxBecomes s t c k (pastWord s c k w) ∧
      t.fabric.armed = s.fabric.armed.filter (fun y => !(y.slot == id && y.tx == tx)) ++
        [⟨id, tx, c, h, off, late, false, false, false, [], [], false, false, false, false⟩] ∧
      (late = true → Counts s t R.seqLateSlot c 1)
    (SeqRuns s c k w 5 → k ≠ 8 → off % 64 = 0 → CleanEntry s c h → s.slotFault c e.tenant id h off true = none →
      s.tick.phase = .body →
      ∃ t, exec (.slotTx c k w) s = .next t ∧ arms t true (decide (x.start < s.tick.ns + 100)) ∧
        (x.start < s.tick.ns + 100 → ∃ n, (id, n) ∈ t.fabric.replays)) ∧
    (SeqRuns s c k w 6 → k ≠ 8 → off % 64 = 0 → CleanEntry s c h → s.slotFault c e.tenant id h off false = none →
      s.tick.phase = .body →
      ∃ t, exec (.slotRx c k w) s = .next t ∧ arms t false (decide (x.start ≤ s.tick.ns)))

/-- R96: with no executing lane a memory instruction goes on to the next word and does nothing else. R89, R128, R130: an
illegal encoding executes nothing: it is recorded in TGP.FAULT and counted as a kill of the tenant's context, and no group
of the tenant is left on the device. -/
def Obligations.KillsAndIdleLanes : Prop :=
  (
    ∀ (s : State) (c : Fin 512) (g : Fin 64) (w : BitVec 26) (x : Group) (i : Instr) (op : Nat),
      AtRest s → guardOk w = true → x.ex w = 0#32 →
      (op = 0x30 ∧ i = .ld c g w ∧ wS w = 0 ∧ wW w = 2 ∨ op = 0x31 ∧ i = .st c g w ∧ wS w = 0 ∧ wW w = 2 ∨
        op = 0x32 ∧ i = .atom c g w ∧ wS w ≠ 7 ∧ wW w = 2) →
      Runs s c g op w x [wR w, wA w] → GroupBecomes s c g { x with pc := (x.pc + 4) % 2 ^ 32 } (exec i s)) ∧
  (
    ∀ (s : State) (c : Fin 512) (g : Fin 64) (w : BitVec 26) (x : Group) (op : Nat) (mk : ThreadCmd),
      (op, mk) ∈ ([(0x01, .iadd), (0x02, .isub), (0x03, .imul), (0x16, .fadd), (0x10, .mov), (0x11, .icmp), (0x1D, .cvt),
        (0x20, .iaddi), (0x28, .movl), (0x30, .ld), (0x31, .st), (0x32, .atom), (0x34, .bra)] : List (Nat × ThreadCmd)) →
      Runs s c g op w x [] → AtRest s → guardOk w = false → s.ctxDead x.tenant = false →
      ∃ t, exec (mk c g w) s = .next t ∧ t.rd R.tgpFault c = 0x20 + g.val * 2 ^ 8 + x.tenant % 256 * 2 ^ 16 + 2 ^ 31 ∧
        x.tenant ∈ t.tick.killed ∧ t.mem = s.mem ∧ (∀ d h y, t.group d h = some y → y.tenant ≠ x.tenant))

/-- R111, R113: LD of a type 1 handle writes t[r] of every executing lane, and for a double t[r + 1], from the bytes of memory
at the lane's offset; memory and every other register are unchanged. R85, R111, R113: ST of a type 1 handle stores each
executing lane's bytes, lanes ascending, so that the highest lane's stay where two meet; every other byte of memory and every
register is unchanged. R117: ATOM on a type 1 handle runs its executing lanes in ascending order: each reads its word, writes
the new value of Table 04-11, and returns the old one in t[r]. Completes: LD, ST, ATOM. -/
def Obligations.LocalMemory : Prop :=
  (
    ∀ (s : State) (c : Fin 512) (g : Fin 64) (w : BitVec 26) (x : Group) (r : Resolved),
      let n := 2 ^ wW w
      let sx := bit (wS w) 2
      let v := fun l => loadWords n sx ((laneAddrs r (x.treg (wA w) l).toNat n false).map s.byte)
      guardOk w = true → wS w % 4 = 0 → (sx = true → wW w < 2) → (wW w = 3 → wR w % 2 = 0) →
      MemRuns s c g 0x30 w x ([wR w, wA w] ++ if wW w = 3 then [wR w + 1] else []) [0] n r → hType r.entry = 1 →
      (∀ p ∈ x.offsets w, ReadsMemory s 3 (hKind r.entry == 0) (laneAddrs r p.2 n false)) →
      ∃ t y, exec (.ld c g w) s = .next t ∧ t.groupIs c g y ∧ y = { x with pc := (x.pc + 4) % 2 ^ 32, t := y.t } ∧
        (∀ l, l < 32 → (x.ex w).getLsbD l = true →
          y.treg (wR w) l = (v l).headD 0#32 ∧ (wW w = 3 → y.treg (wR w + 1) l = (v l).getD 1 0#32)) ∧
        (∀ l, l < 32 → (x.ex w).getLsbD l = false → ∀ k, y.treg k l = x.treg k l) ∧
        (∀ k l, l < 32 → k ≠ wR w → (wW w = 3 → k ≠ wR w + 1) → y.treg k l = x.treg k l) ∧
        t.mem = s.mem ∧ t.written = s.written ∧ (∀ d, d ≠ c.val → ∀ h, t.group d h = s.group d h)) ∧
  (
    ∀ (s : State) (c : Fin 512) (g : Fin 64) (w : BitVec 26) (x : Group) (r : Resolved),
      let n := 2 ^ wW w
      let as := fun (p : Nat × Nat) => laneAddrs r p.2 n true
      let stores := (x.offsets w).flatMap (fun p => (as p).zip (x.storeBytes (wR w) n p.1))
      guardOk w = true → wS w = 0 → (wW w = 3 → wR w % 2 = 0) →
      MemRuns s c g 0x31 w x ([wR w, wA w] ++ if wW w = 3 then [wR w + 1] else []) [1] n r → hType r.entry = 1 →
      (∀ p ∈ x.offsets w, CleanBytes s 3 (as p)) →
      ∃ t, exec (.st c g w) s = .next t ∧ t.groupIs c g { x with pc := (x.pc + 4) % 2 ^ 32 } ∧
        t.mem = storedIn s.mem stores ∧ (∀ a, (∀ p ∈ x.offsets w, a ∉ as p) → t.byte a = s.byte a) ∧
        (∀ a ∈ stores.map (·.1), a < 2 ^ 31 → a ∈ t.written) ∧ (∀ d, d ≠ c.val → ∀ h, t.group d h = s.group d h)) ∧
  (
    ∀ (s : State) (c : Fin 512) (g : Fin 64) (w : BitVec 26) (x : Group) (r : Resolved),
      let as := fun (p : Nat × Nat) => laneAddrs r p.2 4 true
      guardOk w = true → wW w = 2 → (wS w = 7 → wR w % 2 = 0) →
      MemRuns s c g 0x32 w x ([wR w, wA w] ++ if wS w = 7 then [wR w + 1] else []) [0, 1] 4 r → hType r.entry = 1 →
      (∀ p ∈ x.offsets w, ReadsMemory s 3 (hKind r.entry == 0) (as p)) →
      ∃ t, exec (.atom c g w) s = .next t ∧
        t.mem = (atomRun r (wS w) (wR w) s.mem { x with pc := (x.pc + 4) % 2 ^ 32 } (x.offsets w)).1 ∧
        t.groupIs c g (atomRun r (wS w) (wR w) s.mem { x with pc := (x.pc + 4) % 2 ^ 32 } (x.offsets w)).2 ∧
        (∀ a, (∀ p ∈ x.offsets w, a ∉ as p) → t.byte a = s.byte a) ∧ (∀ d, d ≠ c.val → ∀ h, t.group d h = s.group d h))

/-- R116: an access of a type 4 handle sends one confirmed request for each executing lane and leaves memory and the
registers; the group counts the responses it awaits. Completes: LD, ST, ATOM. Where it rests on the model's own choices or
readings: log 16. -/
def Obligations.RemoteAccess : Prop :=
  ∀ (s : State) (c : Fin 512) (g : Fin 64) (w : BitVec 26) (x : Group) (r : Resolved),
    let n := 2 ^ wW w
    let e := r.entry
    let y := { x with pc := (x.pc + 4) % 2 ^ 32, remote := x.remote + (x.offsets w).length }
    let sends := fun (i : Instr) (req : Nat × Nat → Request) => ∃ t : State, exec i s = .next t.pump ∧ t.groupIs c g y ∧
      t.mem = s.mem ∧ t.fabric = { s.fabric with asked := s.fabric.asked + 1, sendq := (x.offsets w).map req }
    hType e = 4 → guardOk w = true →
    (wS w % 4 = 0 → (wS w = 4 → wW w < 2) → (wW w = 3 → wR w % 2 = 0) →
      MemRuns s c g 0x30 w x ([wR w, wA w] ++ if wW w = 3 then [wR w + 1] else []) [0] n r →
      sends (.ld c g w) (fun p =>
        threadReq s c x.tenant e p.2 0 0 n 0 0 [] (.lane c g p.1 (wR w) n (bit (wS w) 2)))) ∧
    (wS w = 0 → (wW w = 3 → wR w % 2 = 0) →
      MemRuns s c g 0x31 w x ([wR w, wA w] ++ if wW w = 3 then [wR w + 1] else []) [1] n r →
      sends (.st c g w) (fun p => threadReq s c x.tenant e p.2 1 0 n 0 0 (x.storeBytes (wR w) n p.1) (.store c g))) ∧
    (wW w = 2 → (wS w = 7 → wR w % 2 = 0) →
      MemRuns s c g 0x32 w x ([wR w, wA w] ++ if wS w = 7 then [wR w + 1] else []) [0, 1] 4 r →
      sends (.atom c g w) (fun p =>
        threadReq s c x.tenant e p.2 2 (wS w) 4 (if wS w = 7 then (x.treg (wR w + 1) p.1).toNat else 0)
          (s.hsnOf c g p.1 (hSaddr e + p.2)) (x.storeBytes (wR w) 4 p.1) (.atom c g p.1 (wR w))))

/-- R78, R79, R124, R125: CPY that passes its checks queues one copy of its block, described at issue by four uniform
registers, and the group goes on; COPY_COMPLETE writes a local copy's destination from its source, ends the copy, and raises
its arrival counter. Completes: COPY_COMPLETE, CPY. Where it rests on the model's own choices or readings: log 39. -/
def Obligations.ThreadCopies : Prop :=
  ∀ (s : State) (c : Fin 512),
    (∀ (g : Fin 64) (w : BitVec 26) (x : Group) b,
      let d := x.copyDesc (tw w 5 4)
      let k : ThreadCopy := ⟨(s.cluster c).copyIds, x.tenant, g, x.block, tw w 3 0, d.src, d.dst, d.srcOff, d.dstOff, d.len, 0,
        zeros d.len, x.order, s.instrAddr c x⟩
      Runs s c g 0x3B w x [] → AtRest s → groupOk w = true → tw w 20 6 = 0 → x.copies < 32 → s.copyFault c x.tenant d = none →
      mfind (s.cluster c).blocks x.block = some b →
      (d.len = 0 ∨ (hType (s.entry c d.src) ≠ 4 ∧ hType (s.entry c d.dst) ≠ 4)) →
      ∃ t, exec (.cpy c g w) s = .next t ∧ (t.cluster c).copies = (s.cluster c).copies ++ [k] ∧
        t.groupIs c g { x with pc := (x.pc + 4) % 2 ^ 32, copies := x.copies + 1 } ∧
        mfind (t.cluster c).blocks x.block = some { b with copies := b.copies + 1 } ∧ t.mem = s.mem) ∧
    (∀ id k rs rd b, (s.cluster c).copyOf id = some k → k.pieces = 0 → k.len ≠ 0 →
      s.resolve c k.src k.tenant = some rs → s.resolve c k.dst k.tenant = some rd →
      hType (s.entry c k.src) ≠ 4 → hType (s.entry c k.dst) ≠ 4 → rs.bad = false → rd.bad = false →
      CleanEntry s rs.cluster rs.index → CleanEntry s rd.cluster rd.index → ReadsMemory s 2 (hKind rs.entry == 0) (localAddrs rs k.srcOff k.len false) →
      CleanBytes s 2 (localAddrs rd k.dstOff k.len true) →
      mfind (s.cluster c).blocks k.block = some b → mget 0 b.counters k.counter < 65535 →
      ∃ t, exec (.copyComplete c id) s = .next t ∧
        t.mem = storedIn s.mem ((localAddrs rd k.dstOff k.len true).zip
          ((localAddrs rs k.srcOff k.len false).map s.byte)) ∧
        (t.cluster c).copies = (s.cluster c).copies.filter (fun y => y.id != k.id) ∧
        mfind (t.cluster c).blocks k.block = some { b with
          copies := b.copies - 1, counters := mput b.counters k.counter (mget 0 b.counters k.counter + 1) })

/-- R446 to R450: REGISTER_WRITE, through any path, stores the RW bits of a plain register and changes nothing else; an 8-byte write
acts on two; a locked register, a value a register refuses, and a read-only register keep their values; a table window takes
any word. R419, R432, R448: a word outside what Table 16-5 lets the SPI slave or the Trestle node write is dropped and
counted; tenant 0's write of a reserved page slot or an undefined offset is counted in ERR.UNMAPPED_CNT, a VF's is logged in
its own page, and both are refused. R449: a sleeping cluster's page takes no write, and ERR.DOZE_ACC counts it. R292: a
misaligned write is a bad access. Before release no page is served. Completes: REGISTER_WRITE. Where it rests on the model's own
choices or readings: log 17, 28 and 29. -/
def Obligations.RegisterWrites : Prop :=
  (
    ∀ (s : State) (p : Path) (addr : Nat) (t : PageType) (i off : Nat) (d : RegDef) (v : Word),
      LandsWrite s p addr t i off → 0x40 ≤ off → regFor p t off = some d →
      (plainReg t off d = true → s.locked (pageNo t i) = false → s.valueBad t i off v.toNat = false →
        exec (.registerWrite p addr v none) s = .next (s.setRaw t i off 0 (v.toNat &&& d.wmask))) ∧
      (∀ d2 v2, addr % 8 = 0 → LandsWrite s p (addr + 4) t i (off + 4) → regFor p t (off + 4) = some d2 →
        plainReg t off d = true → plainReg t (off + 4) d2 = true → s.locked (pageNo t i) = false →
        s.valueBad t i off v.toNat = false →
        (s.setRaw t i off 0 (v.toNat &&& d.wmask)).valueBad t i (off + 4) v2.toNat = false →
        exec (.registerWrite p addr v (some v2)) s =
          .next ((s.setRaw t i off 0 (v.toNat &&& d.wmask)).setRaw t i (off + 4) 0 (v2.toNat &&& d2.wmask))) ∧
      (plainReg t off d = true → s.locked (pageNo t i) = true →
        exec (.registerWrite p addr v none) s = .next (s.refusesAt p addr (pageNo t i) 0x12)) ∧
      (plainReg t off d = true → s.locked (pageNo t i) = false → s.valueBad t i off v.toNat = true →
        exec (.registerWrite p addr v none) s = .next (s.refusesAt p addr (pageNo t i) 0x10)) ∧
      (d.acc = .ro → d.wmask = 0 → d.w1c = 0 → (t = .tgp → off < 0x60 ∨ p = .pf ∨ p = .debug) →
        exec (.registerWrite p addr v none) s = .next s)) ∧
  (
    ∀ (s : State) (p : Path) (addr : Nat) (v : Word), addr % 4 = 0 → addr < 2 ^ 26 →
      let pg := pathPage p addr
      let off := addr % 4096
      let nothing := inWindow pg off = false ∧ (pageAt pg = none ∨ ∃ t i, pageAt pg = some (t, i) ∧ 0x40 ≤ off ∧
        regFor p t off = none ∧ (clusterPage pg && s.dozing) = false)
      (s.pageServed p pg = false → exec (.registerWrite p addr v none) s = .next s) ∧
      (s.pageServed p pg = true →
        (p = .spi → mayWrite p pg off = false → exec (.registerWrite p addr v none) s = .next (s.cnt R.spiWrDeny)) ∧
        (p = .trestle → mayWrite p pg off = false → exec (.registerWrite p addr v none) s = .next (s.cnt R.trsWrDeny)) ∧
        (p = .pf ∨ p = .debug ∨ p = .mgmt ∨ p = .cores → nothing →
          exec (.registerWrite p addr v none) s = .next ((s.cnt R.errUnmappedCnt).refusesAt p addr 0 0x13)) ∧
        (∀ n, p = .vf n → nothing →
          exec (.registerWrite p addr v none) s = .next (s.refusesAt p addr (pageNo .hst n) 0x13)) ∧
        (mayWrite p pg off = true → inWindow pg off = true →
          exec (.registerWrite p addr v none) s = .next { s with regs := mput s.regs (pg * 1024 + off / 4) v }) ∧
        (mayWrite p pg off = true → (pageAt pg).isSome = true → inWindow pg off = false → clusterPage pg = true →
          s.dozing = true → exec (.registerWrite p addr v none) s = .next (s.cnt R.errDozeAcc)))) ∧
  (
    ∀ (s : State) (p : Path) (addr : Nat) (v : Word), addr % 4 ≠ 0 → exec (.registerWrite p addr v none) s = .next (s.badAccess p addr))

/-- R4, R447, R449: a host read of an RC counter, or of ERR_CNT, answers its value and clears it; a read by another path, a
halted-group debugger's among them, or of another register, answers the value and leaves it; an 8-byte read clears both its
words. What no page serves reads as 0, as does a misaligned read and a sleeping cluster's page, which ERR.DOZE_ACC counts. R444
to R446, R472: clearing ERR_INFO.valid releases the page's capture; a freeze holds the page's counters while counts gather
aside, and its end adds them; a locked page stays locked, and refuses a freeze. Completes: RC_READ, ERR_INFO_VALID_CLEAR,
FREEZE, LOCK, each through any path. Where it rests on the model's own choices or readings: logs 17 and 29. -/
def Obligations.RegisterReadsAndHeaders : Prop :=
  (
    ∀ (s : State) (p : Path) (addr : Nat) (t : PageType) (i off : Nat), Lands s p addr t i off →
      let answers := fun (u : State) => exec (.rcRead p addr false) s = .next (u.send (.regData p addr (w32 (s.regValue t i off)) none))
      (∀ d, 0x40 ≤ off → regFor p t off = some d →
        (pathClears p = true → d.acc = .rc → answers (s.setRaw t i off (s.bankOf d.bank i) 0)) ∧
        (pathClears p = false ∨ d.acc ≠ .rc → answers s) ∧
        (∀ d2, addr % 8 = 0 → Lands s p (addr + 4) t i (off + 4) → regFor p t (off + 4) = some d2 →
          let both := Out.regData p addr (w32 (s.regValue t i off)) (some (w32 (s.regValue t i (off + 4))))
          let u := s.setRaw t i off (s.bankOf d.bank i) 0
          (pathClears p = true → d.acc = .rc → d2.acc = .rc → exec (.rcRead p addr true) s =
            .next ((u.setRaw t i (off + 4) (u.bankOf d2.bank i) 0).send both)) ∧
          (pathClears p = false ∨ (d.acc ≠ .rc ∧ d2.acc ≠ .rc) → exec (.rcRead p addr true) s = .next (s.send both)))) ∧
      (off = hErrCnt → pathClears p = true → answers (s.setHdr (pageNo t i) hErrCnt 0)) ∧
      (off < 0x40 → pathClears p = false ∨ off ≠ hErrCnt → answers s)) ∧
  (
    ∀ (s : State) (p : Path) (addr : Nat),
      let pg := pathPage p addr
      let zero := fun (u : State) => exec (.rcRead p addr false) s = .next (u.send (.regData p addr 0#32 none))
      (addr % 4 ≠ 0 → zero s) ∧
      (addr % 8 ≠ 0 → exec (.rcRead p addr true) s = .next (s.send (.regData p addr 0#32 (some 0#32)))) ∧
      (s.pageServed p pg = false ∨ (inWindow pg (addr % 4096) = false ∧ pageAt pg = none) → zero s) ∧
      (addr % 4 = 0 → s.pageServed p pg = true → (pageAt pg).isSome = true → inWindow pg (addr % 4096) = false →
        clusterPage pg = true → s.dozing = true → zero (if p = .spi then s else s.cnt R.errDozeAcc))) ∧
  (
    ∀ (s : State) (p : Path) (addr : Nat) (t : PageType) (i : Nat),
      let pg := pageNo t i
      (LandsWrite s p (headAddr addr hErrInfo) t i hErrInfo →
        exec (.errInfoValidClear p addr) s = .next (s.setHdr pg hErrInfo (s.hdr pg hErrInfo % 2 ^ 30))) ∧
      (LandsWrite s p (headAddr addr hCtl) t i hCtl →
        (s.locked pg = false → exec (.freeze p addr true) s = .next (s.setHdr pg hCtl 1) ∧
          Gives (.freeze p addr false) s (fun u => (mfind s.hidden (regKey pg hCtl 0) = none → u.hdr pg hCtl = 0) ∧ (∀ key, key / 1024 % 65536 = pg → mfind u.hidden key = none) ∧
            ((s.hidden.map Prod.fst).Nodup → ∀ off bank, 0x40 ≤ off → off < 4096 →
              mget 0#32 u.regs (regKey pg off bank) = w32 (satAdd (mget 0#32 s.regs (regKey pg off bank)).toNat
                (mget 0 s.hidden (regKey pg off bank)))))) ∧
        (s.locked pg = true → ∀ on, exec (.freeze p addr on) s = .next (s.refusesAt p (headAddr addr hCtl) pg 0x12))) ∧
      (LandsWrite s p (headAddr addr hLock) t i hLock → exec (.lock p addr) s = .next (s.setHdr pg hLock 1)) ∧
      (∀ (r : Reg) (idx n : Nat), r.page = t → bit (s.hdr pg hCtl) 0 = true →
        (s.cnt r i n 0 idx).regs = s.regs ∧ (s.cnt r i n 0 idx).rd r i 0 idx = s.rd r i 0 idx))

/-- R16, R17, R33, R56, R58, R61, R455: the span's configuration writes are stored; in RUN those that wait for a seal are not
yet in force; a ROLE, limit, cap or dimension the spec does not allow is refused, and the value kept. Completes: ROLE_WRITE,
DIMS_WRITE, POS_WRITE, STRETCH_REQ, RERUN_LIMIT_ATTEMPT_CAP_WRITE, DET_MODE_WRITE. Where it rests on the model's own choices
or readings: logs 17 and 28. -/
def Obligations.SpanRegisters : Prop :=
  ∀ (s : State) (p : Path) (v : Word) (on : Bool) (limit cap : Nat),
    let stored := fun (i : Instr) (r : Reg) (n : Nat) => Gives i s (fun t => t.rd r = n ∧ (s.tick.state = .run → t.eff = s.eff))
    let eth := (s.port 14).ethernet || (s.port 15).ethernet
    (Writes s p R.spnRole → Unlocked s R.spnRole →
      (roleOk (bits v.toNat 4 0) eth = true → s.tick.state = .run → stored (.roleWrite p v) R.spnRole (v.toNat % 32 + 128)) ∧
      (roleOk (bits v.toNat 4 0) eth = false → exec (.roleWrite p v) s = .next (s.refuses p .spn 0 0x48 0x10))) ∧
    (Writes s p R.spnDims → Unlocked s R.spnDims →
      (s.image.loaded = false → dimsOk v.toNat = true → stored (.dimsWrite p v) R.spnDims (v.toNat &&& 0xF1F1F)) ∧
      (s.image.loaded = true ∨ dimsOk v.toNat = false → exec (.dimsWrite p v) s = .next (s.refuses p .spn 0 0x58 0x10))) ∧
    (Writes s p R.spnPos → Unlocked s R.spnPos →
      (s.image.loaded = false → stored (.posWrite p v) R.spnPos (v.toNat &&& 0x7FF)) ∧
      (s.image.loaded = true → exec (.posWrite p v) s = .next (s.refuses p .spn 0 0x5C 0x10))) ∧
    (Writes s p R.tckCtl → Unlocked s R.tckCtl →
      let old := s.rd R.tckCtl
      let new := setBits (setBits old 3 0 limit) 23 16 cap
      (s.valueBad .tck 0 0x40 (w32 (setBits old 8 8 (b2n on))).toNat = false →
        stored (.stretchReq p on) R.tckCtl ((w32 (setBits old 8 8 (b2n on))).toNat &&& 0xFF010F)) ∧
      (1 ≤ limit → limit ≤ cap → cap ≤ 15 → old < 2 ^ 24 →
        stored (.rerunLimitAttemptCapWrite p limit cap) R.tckCtl (new &&& 0xFF010F)) ∧
      (limit = 0 ∨ cap < limit ∨ 15 < cap → limit ≤ 15 → cap < 256 → old < 2 ^ 24 →
        exec (.rerunLimitAttemptCapWrite p limit cap) s = .next (s.refuses p .tck 0 0x40 0x10))) ∧
    (Writes s p R.spnCtl → Unlocked s R.spnCtl →
      stored (.detModeWrite p on) R.spnCtl ((w32 (setBits (s.rd R.spnCtl) 0 0 (b2n on))).toNat &&& 1))

/-- R57, R65, R66: TCK.CMD at the keystone: start begins the span at tick 1, hold asks for STOP at the next seal, and resume
starts an attempt from HOLD once the clocks allow it; written elsewhere they are refused. R33, R90, R169: in RUN a program
advance and a context restart wait for the next committing seal; in IDLE the advance moves the tenant to its next program at
once. Completes: START, HOLD, RESUME, PROG_ADV, CTX_RESTART. Where it rests on the model's own choices or readings: logs 30 and
46. -/
def Obligations.TickAndProgramCommands : Prop :=
  (
    ∀ (s : State) (p : Path), Writes s p R.tckCmd →
      (s.startBad = false → s.tick.joined = false → s.seekFloor.mayStart = true → s.tick.selfFailed = false →
        Gives (.start p) s (fun t => t.tick.joined = true ∧ t.tick.count = 1 ∧ t.tick.attempt = 1 ∧
          t.tick.phase = .opening ∧ t.tick.marked = true ∧ t.tick.starting = 0 ∧ t.mem = s.mem ∧
          (s.tick.state ≠ .hold → t.tick.keystone = true))) ∧
      (s.startBad = false → s.seekFloor.mayStart = false →
        Gives (.start p) s (fun t => t.tick = { s.tick with starting := 1 } ∧ t.mem = s.mem)) ∧
      (s.startBad = true → exec (.start p) s = .next (s.refuses p .tck 0 0x80 0x10)) ∧
      (s.tick.keystone = true → s.image.loaded = true →
        (s.running = true → exec (.hold p) s = .next (s.modTick (fun t => { t with stopAsked := true }))) ∧
        (s.running = false → exec (.hold p) s = .next s) ∧
        (s.tick.state = .hold → Gives (.resume p) s (fun t => t.tick = { s.tick with starting := 2 } ∧ t.mem = s.mem)) ∧
        (s.tick.state ≠ .hold → exec (.resume p) s = .next s)) ∧
      (s.tick.keystone = false ∨ s.image.loaded = false →
        exec (.hold p) s = .next (s.refuses p .tck 0 0x80 0x10) ∧ exec (.resume p) s = .next (s.refuses p .tck 0 0x80 0x10))) ∧
  (
    ∀ (s : State) (p : Path) (n : Fin 256),
      (Writes s p R.spnProgAdv →
        (s.deferring = true → exec (.progAdv p n) s = .next (s.modTick (fun k => { k with advances := addOnce k.advances n }))) ∧
        (s.deferring = false → Gives (.progAdv p n) s (fun t =>
          mget 0 t.image.epochs n = mget 0 s.image.epochs n + 1 ∧ t.tick = s.tick ∧ t.mem = s.mem))) ∧
      (Writes s p R.spnCtxRestart →
        (s.deferring = true → exec (.ctxRestart p n) s = .next (s.modTick (fun k => { k with restarts := addOnce k.restarts n }))) ∧
        (s.deferring = false → s.tick.killed = [] → (s.fn n).zeroing = false →
          Gives (.ctxRestart p n) s (fun t => n.val ∉ t.tick.dead ∧ t.mem = s.mem))))

/-- R91, R92: PF0's paths halt, step and resume the group that TGP.DBG_SEL names; a halt or step while another group of the
cluster is halted only sets busy, and so does a write of DBG_REG_DATA to a group that is not halted; that of a halted one
writes a register. Every other path is refused. STEP_COMPLETE ends a step once its instruction has issued and its accesses are
answered. R192, R199: HDL.CMD.write takes ENT0 to ENT3 as entry IDX once the device accepts it, in force at the next committing
seal, or at once where none is coming; an entry it refuses is logged and the table kept; HDL.CMD.read loads ENT0 to ENT3, with
free values where the entry is uncorrectable. Completes: DEBUG_HALT, DEBUG_STEP, DEBUG_RESUME, DBG_REG_DATA_WRITE,
STEP_COMPLETE, HDL_WRITE, HDL_READ. Where it rests on the model's own choices or readings: logs 20 and 24. -/
def Obligations.DebugAndHandleCommands : Prop :=
  (
    ∀ (s : State) (p : Path) (c : Fin 512) (v : Word),
      let g := s.dbgSlot c
      let becomes := fun (i : Instr) (y : Option Group) => Gives i s (fun t => t.group c g = y ∧
        (∀ h, h ≠ g → t.group c h = s.group c h) ∧ (∀ d, d ≠ c.val → t.cluster d = s.cluster d) ∧ t.mem = s.mem ∧
        t.tick = { s.tick with haltSeen := t.tick.haltSeen })
      let pf := p = .pf ∨ p = .debug
      (Writes s p R.tgpDbgCmd c → pf →
        (∀ x, s.group c g = some x →
          becomes (.debugResume p c) (some { x with halted := false, stepping := false, stepped := false }) ∧
          (s.otherHalted c g = false →
            becomes (.debugHalt p c) (some { x with halted := true, stepping := false, stepped := false }) ∧
            (x.halted = true → becomes (.debugStep p c) (some { x with halted := false, stepping := true, stepped := false })) ∧
            (x.halted = false → becomes (.debugStep p c) (some x)))) ∧
        (s.group c g = none → becomes (.debugResume p c) none ∧
          (s.otherHalted c g = false → becomes (.debugHalt p c) none ∧ becomes (.debugStep p c) none)) ∧
        (s.otherHalted c g = true → ∀ i, i = .debugHalt p c ∨ i = .debugStep p c →
          Gives i s (fun t => t.group c g = s.group c g ∧ (t.cluster c).dbgBusy = true))) ∧
      (Writes s p R.tgpDbgRegData c → pf → s.locked (pageNo .tgp c) = false →
        (∀ x, s.group c g = some x → x.halted = true →
          becomes (.dbgRegDataWrite p c v) (some (x.dbgSet (s.rd R.tgpDbgRegSel c) v))) ∧
        ((∀ x, s.group c g = some x → x.halted = false) →
          Gives (.dbgRegDataWrite p c v) s (fun t => t.group c g = s.group c g ∧ (t.cluster c).dbgBusy = true))) ∧
      (Writes s p R.tgpDbgCmd c → p ≠ .pf → p ≠ .debug → ∀ i, i = .debugHalt p c ∨ i = .debugStep p c ∨ i = .debugResume p c →
        exec i s = .next (s.refuses p .tgp c 0x64 0x11)) ∧
      (Writes s p R.tgpDbgRegData c → p ≠ .pf → p ≠ .debug →
        exec (.dbgRegDataWrite p c v) s = .next (s.refuses p .tgp c 0x74 0x11)) ∧
      (∀ x, s.group c g = some x → s.otherHalted c g = false →
        (x.stepping = true → x.stepped = true → x.remote = 0 →
          becomes (.stepComplete c) (some { x with halted := true, stepping := false, stepped := false })) ∧
        (x.stepping = false ∨ x.stepped = false ∨ x.remote ≠ 0 → becomes (.stepComplete c) (some x)))) ∧
  (
    ∀ (s : State) (p : Path) (c : Fin 512), Writes s p R.hdlCmd c →
      let i := s.fld R.hdlIdx 9 0 c
      let e : HEntry := BitVec.ofNat 128 (s.rd R.hdlEnt c 0 0 + s.rd R.hdlEnt c 0 1 * 2 ^ 32 + s.rd R.hdlEnt c 0 2 * 2 ^ 64 +
        s.rd R.hdlEnt c 0 3 * 2 ^ 96)
      let ent := fun (t : State) => t.rd R.hdlEnt c 0 0 + t.rd R.hdlEnt c 0 1 * 2 ^ 32 + t.rd R.hdlEnt c 0 2 * 2 ^ 64 +
        t.rd R.hdlEnt c 0 3 * 2 ^ 96
      (s.entryReason c i e = 0 → s.deferring = true → Gives (.hdlWrite p c) s (fun t =>
        mfind (t.cluster c).handlePend i = some e ∧ (t.cluster c).handles = (s.cluster c).handles ∧
        (t.cluster c).hdlRefused = false ∧ (∀ d, d ≠ c.val → t.cluster d = s.cluster d))) ∧
      (s.entryReason c i e = 0 → s.deferring = false → Gives (.hdlWrite p c) s (fun t =>
        (∀ d, d ≠ c.val → t.cluster d = s.cluster d) ∧ ((s.cluster c).handlePend = [] →
          t.entry c i = hSetCur e (if hType (s.entry c i) ≠ 0 ∧ hKind (s.entry c i) = 1 then hCur (s.entry c i) else 0) ∧
          (∀ j, j ≠ i → t.entry c j = s.entry c j) ∧ (t.cluster c).handlePend = []))) ∧
      (s.entryReason c i e ≠ 0 → Gives (.hdlWrite p c) s (fun t =>
        (t.cluster c).handles = (s.cluster c).handles ∧ (t.cluster c).handlePend = (s.cluster c).handlePend ∧
        (t.cluster c).hdlRefused = true ∧ (t.cluster c).hdlReason = s.entryReason c i e)) ∧
      Gives (.hdlRead p c) s (fun t => t.mem = s.mem ∧ (CleanEntry s c i → t.clusters = s.clusters) ∧
        (s.entryBad c i = false → ent t = (s.entry c i).toNat) ∧
        (s.entryBad c i = true →
          ent t = (Config.freeWord s.freeCtr).toNat + (Config.freeWord (s.freeCtr + 1)).toNat * 2 ^ 64)))

/-- R213, R226, R231 to R234: PRT.CTL's fields: laser_off takes the engine OFF; test is refused of a live port; clearing
enable makes the port QUIET and drops its link, setting it starts DETECT with a training frame on every lane; PRBS_CTL.restart
clears the bits checked; SPC_CTL waits for a seal. Completes: TEST, LOOPBACK, LASER_OFF, PORT_ENABLE, PRBS_RESTART, SPC_ENABLE.
Where it rests on the model's own choices or readings: logs 33 and 55. -/
def Obligations.PortControls : Prop :=
  ∀ (s : State) (p : Path) (i : Fin 16) (on : Bool) (sel : Fin 4),
    let ctl := s.rd R.prtCtl i
    let new := fun hi lo v => (w32 (setBits ctl hi lo v)).toNat &&& 0x37
    (Writes s p R.prtCtl i → Unlocked s R.prtCtl i →
      (on = false ∨ bit ctl 2 = true ∨ s.testRefused i = false →
        exec (.test p i on) s = .next (s.setRaw .prt i 0x40 0 (new 2 2 (b2n on)))) ∧
      (bit ctl 2 = false → s.testRefused i = true → exec (.test p i true) s = .next (s.refuses p .prt i 0x40 0x10)) ∧
      exec (.loopback p i sel) s = .next (s.setRaw .prt i 0x40 0 (new 5 4 sel)) ∧
      exec (.laserOff p i false) s = .next (s.setRaw .prt i 0x40 0 (new 1 1 0)) ∧
      (bit ctl 1 = false → Gives (.laserOff p i true) s (fun t =>
        t.rd R.prtCtl i = new 1 1 1 ∧ (t.port i).opt = .off ∧ OnlyPort s t i ∧ SameArray s t)) ∧
      (bit ctl 0 = true → Gives (.portEnable p i false) s (fun t => t.rd R.prtCtl i = new 0 0 0 ∧
        (t.port i).state = .quiet ∧ (t.port i).seqs = [] ∧ (t.port i).secure.fences = 0 ∧ OnlyPort s t i ∧ SameArray s t)) ∧
      (bit ctl 0 = on ∨ (on = true ∧ ((s.port i).state ≠ .quiet ∨ (s.port i).started = false ∨ s.dimOne i = true ∨
          (s.port i).ethernet = true ∨ s.island.firmware = false)) →
        exec (.portEnable p i on) s = .next (s.setRaw .prt i 0x40 0 (new 0 0 (b2n on)))) ∧
      (bit ctl 0 = false → (s.port i).state = .quiet → (s.port i).started = true → s.dimOne i = false →
        (s.port i).ethernet = false → s.island.firmware = true →
        Gives (.portEnable p i true) s (fun t => t.rd R.prtCtl i = new 0 0 1 ∧ (t.port i).state = .detect ∧
          (t.port i).partner = none ∧ OnlyPort s t i ∧ SameArray s t ∧ (s.lit i = true → ∀ l, l < 12 →
            Out.training i l (cwMake l i s.self 0 0 0 false (bit ctl 2)) ∈ t.out)))) ∧
    (Writes s p R.prtPrbsCtl i → Unlocked s R.prtPrbsCtl i → Gives (.prbsRestart p i) s (fun t =>
      (∀ l, l < 12 → ((t.port i).lane l).prbsLock = false ∧ t.rd R.prtPrbsBitsLo i l = 0 ∧ t.rd R.prtPrbsBitsHi i l = 0) ∧
        OnlyPort s t i ∧ SameArray s t)) ∧
    (Writes s p R.prtSpcCtl i → Unlocked s R.prtSpcCtl i → Gives (.spcEnable p i on) s (fun t =>
      t.rd R.prtSpcCtl i = b2n on ∧ (s.deferring = true → t.eff = s.eff) ∧
        (s.tick.state = .hold → t.inForce R.prtSpcCtl 0 i = b2n on)))

/-- R255, R264, R265, R271, R282, R286: detour_sel above 8 and a revocation count above 256 are refused; WLD.CMD starts a
chain entry in IDLE or HOLD alone, with its chain's window anew, aborts one, or clears the share's verdict; WLD.REFILL sends the
group's records. Completes: DETOUR_SELECT, REVOKE_CNT_WRITE, CHAIN_START, CHAIN_ABORT, RELOAD, REFILL. Where it rests on the
model's own choices or readings: logs 22 and 28. -/
def Obligations.LoadRegisters : Prop :=
  ∀ (s : State) (p : Path) (v : Word) (sel : Fin 16),
    let e := s.fld R.wldChainSel 2 0
    (Writes s p R.fabCtl → Unlocked s R.fabCtl →
      (sel.val ≤ 8 → Gives (.detourSelect p sel) s (fun t =>
        t.rd R.fabCtl = sel ∧ (s.deferring = true → t.eff = s.eff ∧ t.fabric = s.fabric))) ∧
      (8 < sel.val → exec (.detourSelect p sel) s = .next (s.refuses p .fab 0 0x40 0x10))) ∧
    (Writes s p R.fabRevokeCnt → Unlocked s R.fabRevokeCnt →
      (v.toNat % 512 ≤ 256 → exec (.revokeCntWrite p v) s = .next (s.setRaw .fab 0 0xA4 0 (v.toNat &&& 0x1FF))) ∧
      (256 < v.toNat % 512 → exec (.revokeCntWrite p v) s = .next (s.refuses p .fab 0 0xA4 0x10))) ∧
    (Writes s p R.wldCmd →
      (s.mayLoad = true →
        let u := s.modLoad (fun l => { l with
          chains := mput l.chains e ⟨true, 0, 0, []⟩, windows := l.windows.filter (fun w => w.1 != s.chainId e) })
        (s.chainRole e ≠ 1 → AtRest s → exec (.chainStart p) s = .next u) ∧
        exec (.chainStart p) s = .next (u.chainFill e 256).pump) ∧
      (s.mayLoad = false → exec (.chainStart p) s = .next (s.refuses p .wld 0 0x64 0x10)) ∧
      Gives (.chainAbort p) s (fun t => (t.chain e).running = false ∧ (t.chain e).parts = [] ∧
        (∀ k, k ≠ e → t.chain k = s.chain k) ∧ (∀ r ∈ t.fabric.sendq, ∀ n, r.use ≠ .record e n) ∧ SameArray s t) ∧
      exec (.reload p) s = .next (s.modLoad (fun l => { l with
        verdict := 0, share := [], shareBytes := 0, stateBytes := 0, ended := false, firstBad := 0, windows := [] }))) ∧
    (Writes s p R.wldRefill →
      (∀ k g, s.refillOf v.toNat = some (k, g) →
        let u := s.refill k (bits v.toNat 16 6) (bits v.toNat 18 17) g
        exec (.refill p v) s = .next u.pump ∧ (u.chain k).running = true ∧ SameArray s u ∧
          ∃ l, u.fabric.sendq = s.fabric.sendq ++ l ∧ (∀ r ∈ l, ∃ n, r.use = .record k n) ∧
            (bits v.toNat 18 17 = 2 → s.chainVia k ≠ none → l ≠ [])) ∧
      (s.refillOf v.toNat = none → exec (.refill p v) s = .next (s.refuses p .wld 0 0x68 0x10)))

/-- R293, R294, R298, R304, R307: a function's own path enables and disables its queue pairs, rings their doorbells,
restarts a stopped queue and releases result slots; a slot release of another generation, or of a slot not finished, is
counted. Bases, sizes and the ring's configuration are latched at enable. R52: a doorbell of an attempt waits for the next commit;
R287: with 1,024 reads outstanding an entry's read waits. Completes: QUEUE_ENABLE, CMDQ_DOORBELL, RING_DOORBELL, QUEUE_RESTART,
SLOT_RELEASE. Where it rests on the model's own choices or readings: logs 31 and 54. -/
def Obligations.QueueRegisters : Prop :=
  ∀ (s : State) (fn : Fin 256) (q : Fin 64) (v : Word),
    let i := fn.val * 64 + q.val
    let x := s.queue fn q
    (QueueServed s fn q → s.locked (pageNo .hsq i) = false →
      (s.flag R.hsqQctl 0 i = false → s.queueGood i = true →
        let y : Queue := { Queue.reset with
          state := .run, base := s.queueBase R.hsqCmdqBaseLo R.hsqCmdqBaseHi i, size := s.fld R.hsqCmdqSize 4 0 i,
          ringBase := s.queueBase R.hsqRingBaseLo R.hsqRingBaseHi i, ringSize := s.fld R.hsqRingCfg 4 0 i,
          ringCfg := s.rd R.hsqRingCfg i }
        Gives (.queueEnable fn q true) s (fun t => t.rd R.hsqQctl i = 1 ∧ SameArray s t ∧ (x.waiting = [] → t.queue fn q = y) ∧
          (t.queue fn q).state = y.state ∧ (t.queue fn q).base = y.base ∧ (t.queue fn q).size = y.size ∧
          (t.queue fn q).ringBase = y.ringBase ∧ (t.queue fn q).ringSize = y.ringSize ∧ (t.queue fn q).ringCfg = y.ringCfg)) ∧
      (s.flag R.hsqQctl 0 i = false → s.queueGood i = false → Gives (.queueEnable fn q true) s (fun t =>
        t.rd R.hsqQctl i = 1 ∧ t.queue fn q = x ∧ SameArray s t)) ∧
      (s.flag R.hsqQctl 0 i = true → Gives (.queueEnable fn q false) s (fun t =>
        t.rd R.hsqQctl i = 0 ∧ t.queue fn q = { Queue.reset with waiting := x.waiting } ∧ SameArray s t)) ∧
      (∀ on, s.flag R.hsqQctl 0 i = on → exec (.queueEnable fn q on) s = .next s)) ∧
    (QueueServed s fn q → s.fnUp fn = true →
      (x.state ≠ .off → v.toNat % 65536 < 2 ^ x.size → s.inTick = false → s.host.doorbells = [] →
        Gives (.cmdqDoorbell fn q v) s (fun t =>
          (t.queue fn q).tail = v.toNat % 65536 ∧ (t.queue fn q).state = x.state ∧ SameArray s t ∧
          (x.state = .run → x.head ≠ v.toNat % 65536 → x.fetching = false → x.fetched = none → x.job = none →
            (t.queue fn q).fetching = true ∧ (s.host.reads.length < 1024 → Out.hostRead s.host.tags (x.base + 64 * x.head) 64 ∈ t.out) ∧
            (1024 ≤ s.host.reads.length → t.host.readq = s.host.readq ++ [(fn.val, x.base + 64 * x.head, 64, .entry fn q)])))) ∧
      (x.state ≠ .off → v.toNat % 65536 < 2 ^ x.size → s.inTick = true ∨ s.host.doorbells ≠ [] →
        Gives (.cmdqDoorbell fn q v) s (fun t => t.queue fn q = x ∧ SameArray s t ∧
          t.host.doorbells = s.host.doorbells ++ [(fn.val, q.val, v.toNat % 65536)])) ∧
      (x.state = .off ∨ 2 ^ x.size ≤ v.toNat % 65536 → Gives (.cmdqDoorbell fn q v) s (fun t => t.queue fn q = x ∧ SameArray s t)) ∧
      (x.state ≠ .off → x.waiting = [] → exec (.ringDoorbell fn q v) s =
        .next (s.modQueue fn q (fun y => { y with ringHead := v.toNat % 65536 }))) ∧
      (x.state ≠ .off → Gives (.ringDoorbell fn q v) s (fun t => (t.queue fn q).ringHead = v.toNat % 65536 ∧ SameArray s t)) ∧
      (x.state = .off → exec (.ringDoorbell fn q v) s = .next s) ∧
      (x.state = .stopped → Gives (.queueRestart fn q) s (fun t =>
        (t.queue fn q).state = .run ∧ (t.queue fn q).status = 0 ∧ SameArray s t)) ∧
      (x.state ≠ .stopped → exec (.queueRestart fn q) s = .next s)) ∧
    (s.pageServed (fnPath fn) (pageNo .hst fn) = true → s.fnUp fn = true →
      let k := v.toNat % 4096
      let y := s.slotOf fn k
      (2 ≤ y.state → y.generation = v.toNat / 65536 →
        exec (.slotRelease fn v) s = .next (s.setSlot fn k ⟨y.generation, 0, []⟩)) ∧
      (y.state < 2 ∨ y.generation ≠ v.toNat / 65536 → exec (.slotRelease fn v) s = .next (s.cnt R.hstRelBad fn)))

/-- R308, R329, R331, R332, R357, R359: invalidation drops the cached translations of its scope and marks the walks under
way, and a second one widens to all; the rings' heads are taken; a new night restarts the numbers; the time is set once, in
IDLE; notices are held. Completes: INVALIDATE, PUB_RING_DOORBELL, LEDGER_DOORBELL, NEW_NIGHT, TIME_SET, TIME_LATCH, SQ_NOTE.
Where it rests on the model's own choices or readings: logs 31, 34 and 35. -/
def Obligations.ServiceRegisters : Prop :=
  ∀ (s : State) (p : Path) (v : Word) (scope : Fin 4),
    (Writes s p R.xltInvCtl → scope.val < 3 → s.host.inval = none → Gives (.invalidate p scope) s (fun t =>
      (∃ a n, t.host.inval = some (scope.val, s.fld R.xltTsel 7 0, a, n)) ∧ (∀ w ∈ t.host.walks, w.stale = true) ∧
      (∀ e ∈ t.host.tlb, e ∈ s.host.tlb ∧ scope.val ≠ 0 ∧ (scope.val = 1 → e.tenant ≠ s.fld R.xltTsel 7 0)) ∧ SameArray s t)) ∧
    (Writes s p R.xltInvCtl → scope.val < 3 → s.host.inval ≠ none → Gives (.invalidate p scope) s (fun t =>
      t.host.inval = some (0, 0, 0, 0) ∧ t.host.tlb = [] ∧ (∀ w ∈ t.host.walks, w.stale = true) ∧ SameArray s t)) ∧
    (Writes s p R.xltInvCtl → scope.val = 3 → exec (.invalidate p scope) s = .next s) ∧
    (Writes s p R.pubRingDb → s.svc.pubWaiting = [] → exec (.pubRingDoorbell p v) s =
      .next (s.modSvc (fun x => { x with pubHead := v.toNat % 65536 }))) ∧
    (Writes s p R.pubRingDb → Gives (.pubRingDoorbell p v) s (fun t => t.svc.pubHead = v.toNat % 65536 ∧ SameArray s t)) ∧
    (Writes s p R.ldgHdb →
      let u := s.modSvc (fun x => { x with ledgerHead := v.toNat % 65536 })
      (s.svc.blockDue = false ∨ s.svc.ledger = [] ∨ u.ledgerRingFull = true → exec (.ledgerDoorbell p v) s = .next u) ∧
      (s.svc.blockDue = true → s.svc.ledger ≠ [] → u.ledgerRingFull = false → Gives (.ledgerDoorbell p v) s (fun t =>
        t.svc.blockNo = s.svc.blockNo + 1 ∧ t.svc.blockDue = false ∧ t.svc.ledger = s.svc.ledger.drop 1023 ∧ SameArray s t))) ∧
    (Writes s p R.ldgCmd → Gives (.newNight p) s (fun t =>
      t.svc = { s.svc with entryNo := 0, blockNo := 0, pubNo := 0, events := s.svc.events ++ [(1034, 0, [])] } ∧ SameArray s t)) ∧
    (Writes s p R.timCmd →
      (s.timeMaySet = true → exec (.timeSet p) s = .next (s.modTime (fun t => { t with
        sec := s.rd R.timSetSecLo + s.rd R.timSetSecHi % 65536 * 2 ^ 32, ns := s.rd R.timSetNs, setDone := true }))) ∧
      (s.timeMaySet = false → exec (.timeSet p) s = .next (s.refuses p .tim 0 0x84 0x10)) ∧
      Gives (.timeLatch p) s (fun t => t.rd R.timNowSecLo = s.time.sec % 2 ^ 32 ∧
        t.rd R.timNowSecHi = s.time.sec / 2 ^ 32 % 2 ^ 32 ∧ t.rd R.timNowNs = s.time.ns % 2 ^ 32 ∧ t.time = s.time)) ∧
    (Writes s p R.timSqNote → exec (.sqNote p v) s = .next (s.modTime (fun t => { t with
      notices := t.notices ++ [⟨v.toNat % 256, v.toNat / 256 % 16, v.toNat / 4096 % 8, v.toNat / 65536, s.tick.phase == .none⟩] })))

/-- R366, R372, R384, R385, R388: PWR.CMD resets the device, resumes steering, asks for doze where it may, and wakes a
dozing device; the doze notice goes to every other device, and begins the entry where the keystone's service cores write it.
Completes: WARM, AVS_RETRY, DOZE, WAKE, DOZE_NOTE. Where it rests on the model's own choices or readings: log 32 and 36. -/
def Obligations.PowerRegisters : Prop :=
  ∀ (s : State) (p : Path),
    (Writes s p R.pwrCmd →
      Gives (.warm p) s (fun t => t.power.rstCause = 4 ∧ t.power.released = true ∧ t.mem = [] ∧ t.regs = [] ∧
        t.tick = Tick.reset ∧ t.clusters = [] ∧ t.island.records = s.island.records ∧ t.tag = s.tag) ∧
      Gives (.avsRetry p) s (fun t => t.power.avsFault = false ∧ t.power.avsFails = [] ∧
        (∀ q, q < 4 → t.quarter q = { s.quarter q with avsStopped := false }) ∧ SameArray s t) ∧
      (s.mayDoze = false → exec (.doze p) s = .next (s.refuses p .pwr 0 0x70 0x10)) ∧
      (s.mayDoze = true → s.tick.state = .run → Gives (.doze p) s (fun t => t.power = { s.power with dozeAsked := true } ∧
        t.tick = { s.tick with stopAsked := true } ∧ SameArray s t)) ∧
      (s.mayDoze = true → s.tick.state ≠ .run → Gives (.doze p) s (fun t => t.power.state = .entering ∧
        t.tick = s.tick ∧ SameArray s t ∧
        (t.fabric.sendq.drop s.fabric.sendq.length).map (fun r => (r.use, r.access.addr, r.access.op)) =
          s.others.map (fun n => (.mgmt n, spanReg n 0xD07C, 1)))) ∧
      (s.flag R.pwrWakeEn 0 = true → s.power.state = .doze → Gives (.wake p) s (fun t => t.power.state = .waking ∧
        t.power.wakeSrc = 0 ∧ (∀ k, k < 16 → (t.port k).lpi = false) ∧ SameArray s t)) ∧
      (s.flag R.pwrWakeEn 0 = false ∨ s.power.state = .active → exec (.wake p) s = .next s)) ∧
    (Writes s p R.pwrDozeNote →
      (p = .mgmt ∨ p = .cores → s.power.state = .active → s.tick.state = .hold ∨ s.tick.state = .idle →
        Gives (.dozeNote p) s (fun t => t.power = { s.power with state := .entering } ∧ Counts s t R.pwrDozeCnt 0 1 ∧
          Signals t .pwr 0 4 ∧ SameArray s t)) ∧
      (s.power.state ≠ .active ∨ (s.tick.state ≠ .hold ∧ s.tick.state ≠ .idle) → exec (.dozeNote p) s = .next s) ∧
      (p ≠ .mgmt → p ≠ .cores → exec (.dozeNote p) s = .next s))

/-- R399, R409, R436, R459: the watchdog kick is the service cores' alone, and ends the watchdog and reset causes; alerts
are acknowledged; the boot flash erases a sector, programs a page or reads, never the copy booted from; routes are set and
armed. Completes: KICK, ALERT_ACK, FLASH_ERASE, FLASH_PROGRAM, FLASH_READ, ROUTE_WRITE, ACK. Where it rests on the model's own
choices or readings: logs 29, 37 and 38. -/
def Obligations.SafetyAndBootRegisters : Prop :=
  ∀ (s : State) (p : Path) (v : Word) (r : Fin 29),
    (Writes s p R.safKick →
      (p = .cores → s.island.firmware = true → Gives (.kick p v) s (fun t =>
        (∀ n, n ∈ t.island.causes ↔ n ∈ s.island.causes ∧ n ≠ 5 ∧ n ≠ 0) ∧ t.island.records = s.island.records ∧
          SameArray s t)) ∧
      (p ≠ .cores → exec (.kick p v) s = .next s)) ∧
    (Writes s p R.safSts → Gives (.alertAck p) s (fun t => t.island = { s.island with alert := false } ∧ SameArray s t)) ∧
    (Writes s p R.btfCmd → s.flash.op = none →
      let a := s.rd R.btfAddr
      let starts := fun (i : Instr) (k b : Nat) (l : List Byte) =>
        exec i s = .next { s with flash := { s.flash with op := some (k, b, l) } }
      (s.inBooted a = false → starts (.flashErase p) 1 (a / 4096 * 4096) [] ∧ starts (.flashProgram p) 2 (a / 256 * 256)
        ((List.range 64).flatMap (fun j => leBytes 4 (s.rd R.btfBuf 0 0 j)))) ∧
      (s.inBooted a = true → exec (.flashErase p) s = .next (s.refuses p .btf 0 0x50 0x10) ∧
        exec (.flashProgram p) s = .next (s.refuses p .btf 0 0x50 0x10)) ∧
      starts (.flashRead p) 3 a []) ∧
    (Writes s p R.errRoute 0 r → Unlocked s R.errRoute →
      let ok := v.toNat % 65536 ≠ 1 ∧ v.toNat % 65536 ≤ 2047
      (ok → exec (.routeWrite p r v) s = .next (s.setRaw .err 0 (0x100 + 4 * r) 0 (v.toNat &&& 0x107FF))) ∧
      (¬ok → exec (.routeWrite p r v) s = .next (s.refuses p .err 0 (0x100 + 4 * r) 0x10))) ∧
    (Writes s p R.errAck → Gives (.ack p v) s (fun t =>
      (∀ k, 29 ≤ k ∨ bit v.toNat k = false → (k ∈ t.host.disarmed ↔ k ∈ s.host.disarmed)) ∧
      (∀ k, k < 29 → bit v.toNat k = true → s.routeLine k = false → k ∉ t.host.disarmed) ∧ SameArray s t ∧
      (∀ k, k < 29 → bit v.toNat k = true → s.routeLine k = true → (s.fn 0).flr = false → s.host.stalled = false →
        let e := s.rawAt .err 0 (0x100 + 4 * k) 0
        bit e 16 = true → bits e 10 0 ∈ (s.fn 0).unmasked → k ∈ t.host.disarmed ∧ Out.msix 0 (bits e 10 0) ∈ t.out)))

/-- R213, R214, R220, R261 and Table 08-2: an enabled port leaves QUIET for DETECT at its start time; a timeout takes it to
BACKOFF with its reason, whose expiry takes it to DETECT; lock, measurement and the loss of lock move it on; the exchange begins
with HELLO, and the fifth within 100 ms is a BACKOFF. DETECT begins with a training frame on every lane. Completes:
PORT_START_TIME, DETECT_TIMEOUT, TRAIN_TIMEOUT, ALIGN_TIMEOUT, ALIGN_LOCK, BACKOFF_EXPIRY, RETRAIN_TIMEOUT, MEASURE_DONE,
LOSS_OF_LOCK. Where it rests on the model's own choices or readings: logs 2, 33 and 55. -/
def Obligations.PortStates : Prop :=
  ∀ (s : State) (i : Fin 16) (ps : Nat),
    let x := s.port i
    let moves := fun (c : Instr) (P : Port → Prop) =>
      Gives c s (fun t => P (t.port i) ∧ OnlyPort s t i ∧ SameButPorts s t)
    let backs := fun (c : Instr) (r : Nat) =>
      moves c (fun y => y.state = .backoff ∧ y.failReason = r ∧ y.backoffN = x.backoffN + 1 ∧ y.fecLock = false)
    let detects := fun (c : Instr) (P : Port → Prop) => Gives c s (fun t =>
      let y := t.port i
      y.state = .detect ∧ y.partner = none ∧ y.signal = 0 ∧ y.fecLock = false ∧ y.frozen = false ∧ P y ∧ OnlyPort s t i ∧
        SameButPorts s t ∧ (s.lit i = true → ∀ l, l < 12 →
          Out.training i l (cwMake l i s.self 0 0 0 false (s.flag R.prtCtl 2 i)) ∈ t.out))
    let starts := s.within 100000000 x.secure.starts
    (x.state = .quiet → s.flag R.prtCtl 0 i = true → s.dimOne i = false → x.ethernet = false → s.island.firmware = true →
      detects (.portStartTime i) (fun y => y.started = true)) ∧
    (x.state ≠ .quiet ∨ s.flag R.prtCtl 0 i = false ∨ s.dimOne i = true ∨ x.ethernet = true ∨ s.island.firmware = false →
      exec (.portStartTime i) s = .next (s.modPort i (fun y => { y with started := true }))) ∧
    (x.state = .detect → backs (.detectTimeout i) 1) ∧ (x.state = .train → backs (.trainTimeout i) 2) ∧
    (x.state = .align → backs (.alignTimeout i) 3 ∧
      moves (.alignLock i) (fun y => y = { x with fecLock := true, blocks := 0, state := .measure })) ∧
    (x.state = .backoff → (s.portMayRun i = true → detects (.backoffExpiry i) (fun _ => True)) ∧
      (s.portMayRun i = false → moves (.backoffExpiry i) (fun y => y = { x with state := .quiet }))) ∧
    (x.state = .retrain → moves (.alignLock i) (fun y => y = { x with fecLock := true, blocks := 0 }) ∧
      (s.portMayRun i = true → detects (.retrainTimeout i) (fun y => y.queue = x.queue ∧ y.seqs = [] ∧ y.spent = [])) ∧
      (s.portMayRun i = false → moves (.retrainTimeout i) (fun y => y.state = .quiet ∧ y.seqs = [] ∧ y.spent = []))) ∧
    (∀ c st, (c, st) ∈ [(Instr.detectTimeout i, PortState.detect), (.trainTimeout i, .train), (.alignTimeout i, .align),
        (.backoffExpiry i, .backoff), (.retrainTimeout i, .retrain)] → x.state ≠ st → exec c s = .next s) ∧
    (x.state ≠ .align → x.state ≠ .retrain → exec (.alignLock i) s = .next s) ∧
    (x.state = .measure ∨ (x.state = .retrain ∧ x.fecLock = true) →
      (starts.length < 4 → Gives (.measureDone i ps) s (fun t =>
        (t.port i).state = (if x.state = .measure then .secure else .retrain) ∧ (t.port i).delay = ps % 2 ^ 32 ∧
          (t.port i).secure.accepted = false ∧ (t.port i).secure.starts = starts ++ [s.power.uptime] ∧
          (∃ h, (t.port i).secure.hello = some h ∧ h.version = 1 ∧ h.serial = Config.serial.toNat ∧ h.device = s.self ∧
            h.port = i.val ∧ (CanMeet s i → t.out = s.out ++ [.frame i (s.carrier i (.hello h))])) ∧
          OnlyPort s t i ∧ SameButPorts s t)) ∧
      (4 ≤ starts.length → backs (.measureDone i ps) 5)) ∧
    (x.state ≠ .measure → (x.state = .retrain → x.fecLock = false) → exec (.measureDone i ps) s = .next s) ∧
    (x.state = .up → x.ethernet = false → Gives (.lossOfLock i) s (fun t => (t.port i).state = .retrain ∧
      (t.port i).fecLock = false ∧ (∀ k, (t.port i).lane k = (x.lane k).reload) ∧ Counts s t R.prtDownCnt i 1 ∧
        Signals t .prt i 2 ∧ OnlyPort s t i ∧ SameButPorts s t)) ∧
    (x.state ≠ .up ∨ x.ethernet = true → exec (.lossOfLock i) s = .next s)

/-- R216 to R218, R224, R233 and Table 08-3: a port that does not hear the partner takes no training word; a word in QUIET is
counted; one whose CRC fails is ignored; in DETECT it names the partner, and one that the routing table does not name is a wiring
error; in TRAIN its request is answered on its lane, this end's own request moves on, and 16 words of rx_ready on every lane, from
both ends, begin ALIGN. Every word taken is answered with the lane's next one; a remote loopback sends it back. Completes:
TRAINING_FRAME. Where it rests on the model's own choices or readings: logs 33 and 55. -/
def Obligations.Training : Prop :=
  ∀ (s : State) (i : Fin 16) (l : Fin 12) (cw : BitVec 64),
    let x := s.port i
    let m := x.lane l
    let dev := bits cw.toNat 18 8
    let u := s.when (s.remoteLoop i) (fun t => t.send (.training i l cw))
    let wrong := s.image.loaded = true ∧ dev ≠ 0x7FF ∧ ∃ n, x.expected = some n ∧ dev ≠ n
    let answers := fun (t : State) (y : Lane) => t.out = u.out ++ [.training i l
      (cwMake l i s.self y.request y.tap y.status y.trained (s.flag R.prtCtl 2 i))]
    (s.hears i = false → exec (.trainingFrame i l cw) s = .next s) ∧
    (s.hears i = true →
      (x.state = .quiet → exec (.trainingFrame i l cw) s = .next (u.cnt R.prtEarlyCnt i)) ∧
      (x.state ≠ .quiet → cwGood cw = false ∨ (x.state ≠ .detect ∧ x.state ≠ .train) → exec (.trainingFrame i l cw) s = .next u) ∧
      (x.state = .detect → cwGood cw = true → Gives (.trainingFrame i l cw) s (fun t =>
        (t.port i).partner = some (dev, bits cw.toNat 7 4) ∧ ((t.port i).lane l).seen = true ∧ OnlyPort s t i ∧ SameButPorts s t ∧
        (wrong → (t.port i).state = .backoff ∧ (t.port i).failReason = 4 ∧ Counts s t R.prtWireErr i 1) ∧
        (¬wrong → answers t m ∧
          ((t.port i).state = .train ↔ ∀ k, k < 12 → k ≠ l.val → (x.lane k).seen = true)))) ∧
      (x.state = .train → cwGood cw = true → Gives (.trainingFrame i l cw) s (fun t =>
        let y := (t.port i).lane l
        let a := m.respond (bits cw.toNat 21 19) (bits cw.toNat 24 22)
        y.taps = a.taps ∧ y.status = a.status ∧ y.ready = (if bit cw.toNat 28 then m.ready + 1 else 0) ∧
          y.ours = (if y.trained then m.ours + 1 else 0) ∧ answers t y ∧
          (m.request ≠ 0 → (y.request, y.tap) = if bits cw.toNat 27 25 = 0 then (m.request, m.tap) else (0, 0)) ∧
          (m.request = 0 → bits cw.toNat 27 25 ≠ 0 → y.request = 0) ∧
          (∀ k, k ≠ l.val → (t.port i).lane k = x.lane k) ∧
          ((t.port i).state = .align ↔ ∀ k, k < 12 → 16 ≤ ((t.port i).lane k).ready ∧ 16 ≤ ((t.port i).lane k).ours) ∧
          OnlyPort s t i ∧ SameButPorts s t)))

/-- R211, R221, R222: the window of uncorrectable codewords; the adaptation loops move one lane by single steps, but not while frozen
nor in doze; a step in a window's errors sets the loops back to what they held 10 windows before, or the oldest known, and freezes
them until the freeze ends or has lasted 16 ms. Completes: UNC_WINDOW, ADAPTATION_UPDATE, BURST_GUARD_WINDOW, LOOP_FREEZE_END,
FREEZE_LIMIT. Where it rests on the model's own choices or readings: logs 2 and 33. -/
def Obligations.AdaptationAndGuard : Prop :=
  ∀ (s : State) (i : Fin 16) (l : Fin 12) (errors : List Nat) (code : Nat) (a b c : Int),
    let x := s.port i
    let m := x.lane l
    let lane := fun (y : Adapt) (n : Lane) => Gives (.adaptationUpdate i l y) s (fun t =>
      (t.port i).lane l = n ∧ (∀ k, k ≠ l.val → (t.port i).lane k = x.lane k) ∧ OnlyPort s t i ∧ SameButPorts s t)
    let moves := (x.state = .train ∨ (x.state = .up ∧ s.dozing = false)) ∧ x.frozen = false
    let step := (List.range 12).any (fun k => isStep (x.lane k) (errors.getD k 0))
    let window := fun (P : State → Prop) => Gives (.burstGuardWindow i errors) s (fun t =>
      P t ∧ OnlyPort s t i ∧ SameButPorts s t ∧ ∀ k, k < 12 →
        let y := (t.port i).lane k
        y.held = ((y.ctle, y.dfe, y.slicer) :: (x.lane k).held).take 11)
    let kept := fun (t : State) => ∀ k, k < 12 →
      let y := (t.port i).lane k
      (y.ctle, y.dfe, y.slicer) = ((x.lane k).ctle, (x.lane k).dfe, (x.lane k).slicer)
    let restored := fun (t : State) => ∀ k, k < 12 →
      let y := (t.port i).lane k
      let z := x.lane k
      (y.ctle, y.dfe, y.slicer) = (z.held[10]? <|> z.held.getLast?).getD (z.ctle, z.dfe, z.slicer)
    let noted := fun (t : State) => ∀ k, k < 12 →
      ((t.port i).lane k).history = (errors.getD k 0 :: (x.lane k).history).take 1000
    Gives (.uncWindow i) s (fun t => (t.port i).uncWindow = 0 ∧ OnlyPort s t i ∧ SameButPorts s t ∧
      (s.fld R.prtUncThr 15 0 i < x.uncWindow → (t.port i).uncAlarm = true ∧ Signals t .prt i 1) ∧
      (x.uncWindow ≤ s.fld R.prtUncThr 15 0 i → (t.port i).uncAlarm = x.uncAlarm)) ∧
    (moves → lane (.ctle code) { m with ctle := min 15 (stepTo m.ctle code).toNat } ∧
      lane (.dfe a b c) { m with dfe := stepAll m.dfe a b c } ∧ lane (.slicer a b c) { m with slicer := stepAll m.slicer a b c }) ∧
    (¬moves → ∀ y, exec (.adaptationUpdate i l y) s = .next s) ∧
    (x.state = .up → x.frozen = false →
      (step = true → x.frozenFor = 0 → window (fun t => (t.port i).frozen = true ∧ (t.port i).frozenFor = 0 ∧
        Counts s t R.prtFreezeCnt i 1 ∧ restored t ∧ noted t)) ∧
      (step = false ∨ x.frozenFor ≠ 0 → window (fun t => (t.port i).frozen = false ∧ (t.port i).frozenFor = x.frozenFor ∧
        kept t ∧ noted t))) ∧
    (x.state = .up → x.frozen = true → window (fun t => (t.port i).frozen = true ∧ (t.port i).frozenFor = x.frozenFor + 1 ∧
      (step = true → restored t) ∧ (step = false → kept t))) ∧
    (x.state ≠ .up → exec (.burstGuardWindow i errors) s = .next s) ∧
    (x.frozen = true → exec (.freezeLimit i) s = .next (s.modPort i (fun y => { y with frozen := false, frozenFor := 16000 }))) ∧
    (x.frozen = false → exec (.freezeLimit i) s = .next s) ∧
    exec (.loopFreezeEnd i) s = .next (s.modPort i (fun y => { y with frozen := false, frozenFor := 0 }))

/-- R223 to R227, R405, R471 and Tables 00-2 and 08-6: an engine moves OFF, BEACON, RAISE, FULL and back as its commands say, on a
port with an engine alone, and in FULL a port in DETECT sends its training frames; the island's light check and a launch trip hold
the port's line, and their release ends it; while OPT_INHIBIT_N is low, or a case is hot, engines are OFF. Completes: OFF_TIMEOUT,
BEACON_QUALIFIED, LIGHT_FULL_REACHED, RAISE_TIMEOUT, LIGHT_FULL_LOSS, LIGHT_ANY_LOSS, ISLAND_LIGHT_CHECK, LAUNCH_POWER_TRIP,
ENGINE_CASE_OVERHEAT, ENGINE_CASE_COOLED, LASER_DISABLE_RELEASE, OPT_INHIBIT_N. Where it rests on the model's own choices or
readings: logs 2, 37 and 55. -/
def Obligations.OpticalInterlock : Prop :=
  ∀ (s : State) (i : Fin 16),
    let x := s.port i
    let free := s.islandLine i = false ∧ s.pins.optInhibit = false ∧ x.optHot = false ∧ s.flag R.prtCtl 1 i = false
    let goes := fun (c : Instr) (a b : OptState) => (s.optical i = true → x.opt = a →
      exec c s = .next (s.modPort i (fun y => { y with opt := b }))) ∧ (s.optical i = false ∨ x.opt ≠ a → exec c s = .next s)
    let line := fun (c : Instr) (n r : Nat) => Gives c s (fun t => t.islandLine i = true ∧ (t.port i).opt = .off ∧
      (i.val, r) ∈ t.island.lines ∧ (tripKey n i ∉ s.island.tripped → t.island.alert = true ∧
        (t.island.records.getLast?.map (fun z => (z.code, z.actions, z.unit))) = some (n, 2, i.val)) ∧ OnlyPort s t i ∧ SameButPorts s t)
    (free → goes (.offTimeout i) .off .beacon) ∧ (¬free → exec (.offTimeout i) s = .next s) ∧
    goes (.beaconQualified i) .beacon .raise ∧ goes (.raiseTimeout i) .raise .beacon ∧ goes (.lightFullLoss i) .full .beacon ∧
    (s.optical i = true → x.opt = .raise → Gives (.lightFullReached i) s (fun t => t.port i = { x with opt := .full } ∧
      OnlyPort s t i ∧ SameButPorts s t ∧ t.out = s.out ++ (if x.state = .detect then
        (List.range 12).map (fun l => .training i l (s.trainingWord i l)) else []))) ∧
    (x.opt ≠ .raise ∨ (s.optical i = false ∧ x.state ≠ .detect) → exec (.lightFullReached i) s = .next s) ∧
    (x.opt ≠ .off → Gives (.lightAnyLoss i) s (fun t => t.port i = { x with opt := .off } ∧ Counts s t R.prtOptTrip i 1 ∧
      Signals t .prt i 3 ∧ OnlyPort s t i ∧ SameButPorts s t)) ∧
    (x.opt = .off → exec (.lightAnyLoss i) s = .next s) ∧
    (s.optical i = true → (x.opt = .full ∨ x.opt = .raise → line (.islandLightCheck i) 0x6B 1) ∧ line (.launchPowerTrip i) 0x6A 3 ∧
      Gives (.engineCaseOverheat i) s (fun t => t.port i = { x with optHot := true, opt := .off } ∧ OnlyPort s t i ∧ SameButPorts s t) ∧
      Gives (.laserDisableRelease i) s (fun t =>
        (∀ z, z ∈ t.island.lines ↔ z ∈ s.island.lines ∧ z ≠ (i.val, 1) ∧ z ≠ (i.val, 3)) ∧
        (t.islandLine i = true ↔ ∃ r, (i.val, r) ∈ t.island.lines) ∧ t.ports = s.ports ∧ SameButPorts s t)) ∧
    (x.opt ≠ .full → x.opt ≠ .raise → exec (.islandLightCheck i) s = .next s) ∧
    (s.optical i = false → exec (.islandLightCheck i) s = .next s ∧ exec (.launchPowerTrip i) s = .next s ∧
      exec (.engineCaseOverheat i) s = .next s ∧
      Gives (.laserDisableRelease i) s (fun t => t.island.lines = s.island.lines ∧ t.ports = s.ports ∧ SameButPorts s t)) ∧
    exec (.engineCaseCooled i) s = .next (s.modPort i (fun y => { y with optHot := false })) ∧
    Gives (.optInhibitN true) s (fun t => t.pins.optInhibit = true ∧ (∀ p, 4 ≤ p → p < 12 → (t.port p).opt = .off) ∧ SameButPorts s t) ∧
    Gives (.optInhibitN false) s (fun t => t.pins.optInhibit = false ∧ t.ports = s.ports ∧ SameButPorts s t)

/-- R39, R228, R229, R232, R236 and Table 08-7: an Ethernet-mode port answers requests for its own addresses, drops and
counts what it does not support or no one takes, and follows its link; checkers lock and lose lock; a reserved frame, or an IDLE
unit that is not 0, is counted; a probe is sent. Completes: ETHERNET_FRAME, ETHERNET_LINK_UP, ETHERNET_LINK_DOWN,
PRBS_CHECKER_LOCK, PRBS_CHECKER_LOCK_LOSS, IDLE_UNIT, LINK_DELAY_PROBE. Where it rests on the model's own choices or readings: logs
2, 33, 56 and 57. -/
def Obligations.EthernetAndTest : Prop :=
  ∀ (s : State) (i : Fin 16) (l : Fin 12) (f : EthFrame) (cw : Codewords) (bytes : List Byte) (n t1 : Nat),
    let x := s.port i
    let ip := s.inForce R.ingIp4 0 0 (i.val - 14)
    let drops := s.cnt R.prtEthDrop i
    (x.ethernet = true → x.ethUp = true →
      (s.ethBad i f = true → exec (.ethernetFrame i f) s = .next drops) ∧
      (s.ethBad i f = false →
        (f.body = .arpRequest ip → exec (.ethernetFrame i f) s = .next (s.send (.neighbourReply i f.srcMac ip))) ∧
        (∀ a, f.body = .arpRequest a → a ≠ ip → exec (.ethernetFrame i f) s = .next drops) ∧
        (f.body = .neighbourSolicit (s.ownIp6 i) →
          exec (.ethernetFrame i f) s = .next (s.send (.neighbourReply i f.srcMac (s.ownIp6 i)))) ∧
        (∀ a, f.body = .neighbourSolicit a → a ≠ s.ownIp6 i → exec (.ethernetFrame i f) s = .next drops) ∧
        (∀ d dp si v6, f.body = .udp d dp si v6 →
          (dp ≠ 319 → dp ≠ 320 → s.tilePort i d dp si v6 = false →
            exec (.ethernetFrame i f) s = .next ((s.cnt R.ingDrop).cnt R.prtEthDrop i)) ∧
          (dp = 319 ∨ dp = 320 ∨ s.tilePort i d dp si v6 = true → exec (.ethernetFrame i f) s = .next s))) ∧
      exec (.ethernetLinkUp i) s = .next s ∧
      Gives (.ethernetLinkDown i) s (fun t => t.port i = { x with ethUp := false, state := .quiet } ∧ Signals t .prt i 2 ∧
        OnlyPort s t i ∧ SameButPorts s t)) ∧
    (x.ethernet = true → x.ethUp = false → exec (.ethernetFrame i f) s = .next s ∧ exec (.ethernetLinkDown i) s = .next s ∧
      Gives (.ethernetLinkUp i) s (fun t => t.port i = { x with ethUp := true, state := .up } ∧ Signals t .prt i 2 ∧
        OnlyPort s t i ∧ SameButPorts s t)) ∧
    (x.ethernet = false → exec (.ethernetFrame i f) s = .next s ∧ exec (.ethernetLinkUp i) s = .next s ∧
      exec (.ethernetLinkDown i) s = .next s) ∧
    (s.checkerOn i l = true → exec (.prbsCheckerLock i l) s = .next (s.modLane i l (fun k => { k with prbsLock := true }))) ∧
    (s.checkerOn i l = false → exec (.prbsCheckerLock i l) s = .next s) ∧
    (s.prbsLocked i l = true → exec (.prbsCheckerLockLoss i l) s =
      .next ((s.cnt R.prtPrbsErr i 64 l).modLane i l (fun k => { k with prbsLock := false }))) ∧
    (s.prbsLocked i l = false → exec (.prbsCheckerLockLoss i l) s = .next s) ∧
    (let u := if s.hears i then s.takeBlocks i cw else s;
      (s.portUp i = true → Whole s i cw →
        exec (.idleUnit i cw (.reserved n)) s = .next (u.cnt R.fabFrameBad) ∧
        exec (.idleUnit i cw (.unit bytes)) s = .next (if bytes.all (fun b => b == 0#8) then u else u.cnt R.fabFrameBad)) ∧
      (s.portUp i = false ∨ ¬Whole s i cw → ∀ y, exec (.idleUnit i cw y) s = .next u)) ∧
    (CanSend s i 8 → Gives (.linkDelayProbe i t1) s (fun t => t.out = s.out ++ [.frame i (s.carrier i (.probe [t1]))] ∧
      (t.classSeq i 8).next = (s.classSeq i 8).next + 1 ∧ OnlyPort s t i ∧ SameButPorts s t)) ∧
    (s.portUp i = false → exec (.linkDelayProbe i t1) s = .next s)

/-- R239: a number above the highest is accepted, and one of the 128 below it that has not come; a number once accepted, or
left behind, is never accepted again. R210, R239 to R242, R261: what a port hears that is not UP is counted and lost; a frame of an
uncorrectable codeword is damaged; one whose tag fails, or of no known key phase, counts as an authentication failure; a replayed
one is dropped and counted; any other goes on, a gap in a retried class asks for RETRY, and the first of a new phase turns the
receiver to its key. Where it rests on the model's own choices or readings: logs 8 and 33. -/
def Obligations.LinkReceipt : Prop :=
  (
    ∀ (c : ClassSeq) (q : Nat),
      (seqAccept c q ≠ none ↔ c.top < q ∨ (c.top < q + 128 ∧ (c.w1 ++ c.w0).getLsbD (c.top - q) = false)) ∧
      ∀ d, seqAccept c q = some d → d.top = max c.top q ∧ d.started = true ∧ seqAccept d q = none ∧
        (∀ x, seqAccept c x = none → seqAccept d x = none)) ∧
  (
    ∀ (s : State) (i : Fin 16) (cls : Nat) (a : Arrival),
      let u := s.takeBlocks i a.codewords
      let r := s.receive i cls a
      let sec := (s.port i).secure
      let z := s.classSeq i cls
      (s.hears i = false → r = (s, .dropped)) ∧
      (s.hears i = true → s.portUp i = false → r = (u, .dropped)) ∧
      (s.hears i = true → s.portUp i = true → a.codewords.any spoils = true → r = (u, .damaged)) ∧
      (Whole s i a.codewords → s.portUp i = true →
        (a.tagOk = false ∨ (a.kp ≠ sec.rxKp ∧ sec.oldKey = none ∧ sec.rekeying = false) → r = (u.authFail i, .damaged)) ∧
        (a.tagOk = true → a.kp = sec.rxKp →
          (seqAccept z a.seq = none → r = (u.cnt R.fabReplayDrop, .dropped)) ∧
          (∀ c, seqAccept z a.seq = some c → r.2 = .good ∧ r.1.classSeq i cls = c ∧ (r.1.port i).statusDue = true ∧
            OnlyPort s r.1 i ∧ SameButPorts s r.1 ∧
            (let n := if z.started then z.top + 1 else 0;
              (retried cls = false ∨ a.seq ≤ n → r.1.out = s.out) ∧
              (retried cls = true → n < a.seq → CanSend s i 8 →
                r.1.out = s.out ++ [.frame i (s.carrier i (.retry cls n (min 128 (a.seq - n))))])))) ∧
        (a.tagOk = true → a.kp ≠ sec.rxKp → sec.oldKey ≠ none →
          (seqAccept (mget ClassSeq.reset sec.oldSeqs cls) a.seq = none → r = (u.cnt R.fabReplayDrop, .dropped)) ∧
          (∀ c, seqAccept (mget ClassSeq.reset sec.oldSeqs cls) a.seq = some c → r.2 = .good ∧
            mget ClassSeq.reset (r.1.port i).secure.oldSeqs cls = c ∧ (r.1.port i).secure.rxKp = sec.rxKp)) ∧
        (a.tagOk = true → a.kp ≠ sec.rxKp → sec.oldKey = none → sec.rekeying = true → r.2 = .good ∧
          (r.1.port i).secure.rxKp = a.kp ∧ (r.1.port i).secure.rxKey = sec.newRx ∧ (r.1.port i).secure.oldKey = some sec.rxKey ∧
          (r.1.port i).secure.rekeying = false)))

/-- R39, R240 and Table 09-9: a STATUS frame brings credits and acknowledgements, and what they cover of its key phase is kept no
longer; a RETRY, or a timeout, sends the frames it names again as they were; a probe is answered, and its answer measures the
link. Completes: STATUS, RETRY, PROBE, PROBE_RSP, RETRY_TIMEOUT, STATUS_TIMER. Where it rests on the model's own choices or
readings: logs 14 and 33. -/
def Obligations.LinkFrames : Prop :=
  ∀ (s : State) (i : Fin 16) (a : Arrival) (credits acks : List Nat) (h2 h3 h4 h7 cls first count t1 t2 t3 t4 : Nat),
    let r := s.receive i 8 a
    let u := r.1
    let goes := fun (f : Frame) => !(s.port i).lpi || dozeClass f.content.cls
    let left := fun (c h : Nat) (l : List Frame) => l = (u.classSeq i c).unacked.filter (fun f => decide (ackNone ≤ h) ||
      f.kp != a.kp || decide (h < f.seq))
    (r.2 = .good →
      ((s.port i).queue = [] → (∀ c, (s.classSeq i c).waiting = []) → AtRest s →
        Gives (.status i a credits [h2, h3, h4, h7]) s (fun t =>
          (∀ k, k < 11 → mget 0 (t.port i).granted k = credits.getD k (mget 0 (s.port i).granted k) % 65536) ∧
          left 2 h2 (t.classSeq i 2).unacked ∧ left 3 h3 (t.classSeq i 3).unacked ∧ left 4 h4 (t.classSeq i 4).unacked ∧
          left 7 h7 (t.classSeq i 7).unacked ∧ t.out = u.out ∧ OnlyPort s t i)) ∧
      (retried cls = true → 1 ≤ count → count ≤ 128 →
        exec (.retry i a cls first count) s = .next { u with out := u.out ++ (((u.classSeq i cls).unacked.filter (fun f =>
          f.kp == a.kp && decide (first ≤ f.seq) && decide (f.seq < first + count))).filter goes).map (.frame i) }) ∧
      (retried cls = false ∨ count = 0 ∨ 128 < count → exec (.retry i a cls first count) s = .next u) ∧
      (CanSend s i 8 → Gives (.probe i a t1 t2) s (fun t =>
        t.out = u.out ++ [.frame i (u.carrier i (.probe [t1, t2, t2 + Config.residence u.freeCtr]))] ∧
        OnlyPort s t i ∧ SameButPorts s t)) ∧
      exec (.probeRsp i a t1 t2 t3 t4) s =
        .next (u.modPort i (fun x => { x with delay := ((t4 - t1) - (t3 - t2)) / 2 % 2 ^ 32 }))) ∧
    (r.2 ≠ .good → ∀ c, c ∈ [Instr.status i a credits acks, .retry i a cls first count, .probe i a t1 t2,
      .probeRsp i a t1 t2 t3 t4] → exec c s = .next u) ∧
    (s.portUp i = true → s.lit i = true →
      (∀ f, (s.classSeq i cls).unacked.find? (fun f => f.seq == first) = some f → goes f = true →
        exec (.retryTimeout i cls first) s = .next (s.send (.frame i f))) ∧
      ((s.classSeq i cls).unacked.find? (fun f => f.seq == first) = none → exec (.retryTimeout i cls first) s = .next s)) ∧
    (CanSend s i 8 → Gives (.statusTimer i) s (fun t => (t.port i).statusDue = false ∧ (t.port i).statusAt = s.power.uptime ∧
      t.out = s.out ++ [.frame i (s.carrier i (.status ((List.range 11).map (fun k => mget 0 (s.port i).freed k))
        ([2, 3, 4, 7].map (fun c => (ackOf (s.classSeq i c)).getD ackNone))))] ∧ OnlyPort s t i ∧ SameButPorts s t)) ∧
    (s.portUp i = false → exec (.retryTimeout i cls first) s = .next s ∧ exec (.statusTimer i) s = .next s)

/-- R242, R258 to R262: a HELLO that passes the checks of R259 is answered with SIGN, or in a rekey with FINISH; a rekey that the
partner begins is answered with this device's own HELLO first; a signature that verifies admits the partner; FINISH completes the
exchange: the link is UP under new keys, or turns to them at the next tick; one whose tag fails counts; a refused partner, or an
exchange too long under way, fences the port until the fence ends. Completes: HELLO, SIGN, FINISH, SECURE_TIMEOUT, FENCE_EXPIRY,
REKEY_TIMER, OLD_PHASE_EXPIRY. Where it rests on the model's own choices or readings: logs 4, 8 and 33. -/
def Obligations.IdentityExchange : Prop :=
  ∀ (s : State) (i : Fin 16) (a : Arrival) (h o : Hello) (sig : List Byte) (acks : List Nat),
    let x := s.port i
    let u := if s.hears i then s.takeBlocks i a.codewords else s
    let fenced := fun (c : Instr) => Gives c s (fun t => (t.port i).state = .fenced ∧ (t.port i).failReason = 5 ∧
      (t.port i).secure.fences = x.secure.fences + 1 ∧ OnlyPort s t i ∧ SameButPorts s t)
    let ok := Config.sigGood h.chain (helloDigest o h) sig
    let starts := (s.within 100000000 x.secure.starts).length
    let finishes := fun (t : State) (l : List Out) => ∃ f : Frame, t.out = s.out ++ l ++ [.frame i f] ∧ ∃ b, f.content = .finish b
    (x.state = .secure ∨ x.state = .retrain →
      (Whole s i a.codewords → x.secure.hello = some o →
        (s.helloGood i h = true → CanMeet s i → Gives (.hello i ⟨a, h⟩) s (fun t =>
          (t.port i).secure.theirs = some h ∧ (t.port i).state = x.state ∧
            (∃ b, t.out = s.out ++ [.frame i (s.carrier i (.sign b))]) ∧ OnlyPort s t i ∧ SameButPorts s t)) ∧
        (s.helloGood i h = false → fenced (.hello i ⟨a, h⟩)) ∧
        (x.secure.theirs = some h → ok = true → CanMeet s i → Gives (.sign i ⟨a, sig⟩) s (fun t =>
          (t.port i).secure.accepted = true ∧ (t.port i).state = x.state ∧
            t.out = s.out ++ [.frame i ⟨false, 0, (t.port i).secure.newTx, .finish (s.acksOf i)⟩] ∧ OnlyPort s t i ∧ SameButPorts s t)) ∧
        (x.secure.theirs = some h → ok = false → fenced (.sign i ⟨a, sig⟩))) ∧
      (Whole s i a.codewords → x.secure.accepted = true →
        (a.tagOk = true → AtRest s → Gives (.finish i a acks) s (fun t =>
          (t.port i).state = .up ∧ (t.port i).backoffN = 0 ∧ (t.port i).secure.fences = 0 ∧ (t.port i).secure.kp = false ∧
            (t.port i).secure.rxKp = false ∧ (t.port i).secure.rekeying = false ∧ (t.port i).secure.txKey = x.secure.newTx ∧
            (t.port i).secure.rxKey = x.secure.newRx ∧ t.mem = s.mem ∧ t.clusters = s.clusters)) ∧
        (a.tagOk = false → exec (.finish i a acks) s = .next (u.authFail i))) ∧
      (¬Whole s i a.codewords → ∀ c, c ∈ [Instr.hello i ⟨a, h⟩, .sign i ⟨a, sig⟩, .finish i a acks] → exec c s = .next u) ∧
      (x.secure.hello = none → exec (.hello i ⟨a, h⟩) s = .next u ∧ exec (.sign i ⟨a, sig⟩) s = .next u) ∧
      (x.secure.accepted = false → exec (.finish i a acks) s = .next u) ∧
      fenced (.secureTimeout i)) ∧
    (s.portUp i = true → (s.receive i 9 a).2 = .good → a.kp = x.secure.rxKp →
      (x.secure.rekeying = true → x.secure.hello = some o → x.lpi = false →
        (s.helloGood i h = true → Gives (.hello i ⟨a, h⟩) s (fun t =>
          (t.port i).secure.accepted = true ∧ (t.port i).state = .up ∧ finishes t [] ∧ OnlyPort s t i ∧ SameButPorts s t)) ∧
        (s.helloGood i h = false → fenced (.hello i ⟨a, h⟩))) ∧
      (x.secure.rekeying = false → starts < 4 → x.lpi = false → s.helloGood i h = true → Gives (.hello i ⟨a, h⟩) s (fun t =>
        (t.port i).secure.accepted = true ∧ (t.port i).secure.rekeying = true ∧ (t.port i).state = .up ∧
          (∃ (f : Frame) (b : Hello), f.content = .hello b ∧ finishes t [.frame i f]) ∧ OnlyPort s t i ∧ SameButPorts s t)) ∧
      (x.secure.rekeying = true → x.secure.accepted = true → Gives (.finish i a acks) s (fun t =>
        (t.port i).secure.switchAt = true ∧ (t.port i).secure.accepted = false ∧ (t.port i).secure.hello = none ∧
          (t.port i).state = .up ∧ OnlyPort s t i ∧ SameButPorts s t))) ∧
    (x.state = .up → x.secure.rekeying = true → x.secure.hello = some o → fenced (.secureTimeout i)) ∧
    (x.state = .fenced → Gives (.fenceExpiry i) s (fun t => (t.port i).state = (if s.portMayRun i then .detect else .quiet) ∧
      (t.port i).queue = x.queue ∧ (t.port i).seqs = [] ∧ OnlyPort s t i ∧ SameButPorts s t)) ∧
    (x.state ≠ .fenced → exec (.fenceExpiry i) s = .next s) ∧
    (s.portUp i = true → s.lit i = true → x.secure.rekeying = false → x.lpi = false → starts < 4 → Gives (.rekeyTimer i) s (fun t =>
      (t.port i).secure.rekeying = true ∧ (t.port i).state = .up ∧
        (∃ b, (t.port i).secure.hello = some b ∧ t.out = s.out ++ [.frame i (s.carrier i (.hello b))]) ∧ OnlyPort s t i ∧
        SameButPorts s t)) ∧
    (s.portUp i = false ∨ x.secure.rekeying = true ∨ x.lpi = true → exec (.rekeyTimer i) s = .next s) ∧
    exec (.oldPhaseExpiry i) s = .next (s.modPort i (fun y => { y with
      seqs := y.seqs.map (fun c => (c.1, { c.2 with unacked := c.2.unacked.filter (fun f => f.kp == y.secure.kp) })),
      secure := { y.secure with oldKey := none, oldSeqs := [] } }))

/-- R190, R198, R249, R251: a READ of memory is answered with the bytes memory holds; a WRITE stores its data, an ATOM its new
word beside the old one's answer, and nothing else of memory changes; an access the handles refuse stores nothing; a toss
stores as a WRITE does, and has no answer. Completes: REQ, TOSS. Where it rests on the model's own choices or readings: logs
16 and 19. -/
def Obligations.RequestService : Prop :=
  ∀ (s : State) (i : Fin 16) (a : Arrival) (h : RHead) (b : Access) (data : List Byte) (rd wr : List Nat) (loc : Bool),
    let v := s.taken i 2 a ⟨.req, h, b, noResp, data⟩
    let w := s.taken i 5 a ⟨.toss, h, b, noResp, data⟩
    (ForHere s i 2 a h → MemoryAccess v h b → v.checked h b = .ok rd wr loc → CleanDecider v h b →
      (∀ x ∈ rd, v.eccOf x = 0) → (loc = true → ∀ x ∈ rd, x ∈ v.written) →
      (b.op = 0 → exec (.req i a h b data) s = .next (v.draw.respond false h b 0 0 (rd.map v.byte))) ∧
      (b.op = 1 → exec (.req i a h b data) s =
        .next ((v.writeBytes 4 5 h.tenant wr (padTo b.size data)).respond false h b 0 0 [])) ∧
      (b.op = 1 → Gives (.req i a h b data) s (fun t => t.mem = storedIn s.mem (wr.zip (padTo b.size data)))) ∧
      (b.op = 2 → Gives (.req i a h b data) s (fun t => t.mem = storedIn s.mem (wr.zip (leBytes 4
        (atomNew b.atom (w32 (leNat (rd.map v.byte))) (w32 (leAt data 0 4)) (w32 b.cas)).toNat))))) ∧
    (ForHere s i 2 a h → MemoryAccess v h b → CleanDecider v h b → ∀ code, v.checked h b = .nack code →
      Gives (.req i a h b data) s (fun t => t.mem = s.mem ∧ t.written = s.written)) ∧
    (ForHere s i 5 a h → MemoryAccess w h b → b.op = 1 → w.checked h b = .ok rd wr loc → CleanDecider w h b →
      exec (.toss i a h b data) s = .next (w.writeBytes 4 5 h.tenant wr (padTo b.size data)) ∧
      (w.writeBytes 4 5 h.tenant wr (padTo b.size data)).mem = storedIn s.mem (wr.zip (padTo b.size data)))

/-- R79, R116, R248, R250: a response frees its home; a load's data, an atomic's old word or a write's answer reaches the group
that asked, which no longer waits on it; an ARRIVE is performed with the last of its group's earlier accesses, though the group has
retired; a MGMT response frees a request of its device. Completes: RSP, MGMT_RESPONSE. Where it rests on the model's own choices or
readings: log 16. -/
def Obligations.ResponseDelivery : Prop :=
  ∀ (s : State) (i : Fin 16) (a : Arrival) (h : RHead) (r : Response) (data : List Byte) (p : Pending) (c g l reg n b : Nat)
    (sx w : Bool) (x : Group) (z : Arrive) (k : Block),
    let v := s.taken i 3 a ⟨.rsp, h, noAccess, r, data⟩
    let u := s.taken i 4 a ⟨.mgmtRsp, h, noAccess, r, data⟩
    let home := s.fabric.pending.find? (fun q => q.unit == r.homeUnit && q.entry == r.homeEntry)
    let rest := s.fabric.pending.filter (fun q => !(q.unit == r.homeUnit && q.entry == r.homeEntry))
    let becomes := fun (y : Group) => Gives (.rsp i a h r data) s (fun t => t.group c g = some y.answered ∧
      t.fabric.pending = rest ∧ (∀ j, j ≠ g → t.group c j = s.group c j) ∧ t.mem = s.mem)
    (ForHere s i 3 a h → v.tagOn h.tenant = true → home = some p → p.discarded = false → r.status = 0 →
      (s.group c g = some x → (s.cluster c).arrivals = [] →
        (p.use = .lane c g l reg n sx → becomes (x.setWords reg l (loadWords n sx (padTo n data)))) ∧
        (p.use = .atom c g l reg → becomes (x.setT reg l (w32 (leAt (padTo 4 data) 0 4)))) ∧
        (p.use = .store c g → becomes x)) ∧
      (p.use = .gone c g b w → (s.cluster c).arrivals = [z] → z.slot = g → (∀ q ∈ rest, q.use.slot ≠ some (c, g)) →
        mfind (s.cluster c).blocks z.block = some k → mget 0 k.counters z.counter < 65535 →
        Gives (.rsp i a h r data) s (fun t => t.fabric.pending = rest ∧ (t.cluster c).arrivals = [] ∧
          (t.cluster c).groups = (s.cluster c).groups ∧ t.mem = s.mem ∧
          mfind (t.cluster c).blocks z.block = some { k with
            counters := mput k.counters z.counter (mget 0 k.counters z.counter + 1) })) ∧
      (p.use = .gone c g b w → (∀ j ∈ (s.cluster c).arrivals, ∃ q ∈ rest, q.discarded = false ∧ q.use.slot = some (c, j.slot) ∧ q.order < j.upto) →
        Gives (.rsp i a h r data) s (fun t => t.fabric.pending = rest ∧ t.cluster c = s.cluster c ∧ t.mem = s.mem))) ∧
    (ForHere s i 3 a h → v.tagOn h.tenant = true → home = some p → p.discarded = true → exec (.rsp i a h r data) s =
      .next (v.modFab (fun f => { f with pending := rest }))) ∧
    (ForHere s i 4 a h → u.tagOn h.tenant = true → home = some p → p.discarded = false → p.use = .mgmt c →
      r.status = 0 → exec (.mgmtResponse i a h r data) s = .next (u.modFab (fun f => { f with
        pending := rest, mgmtOut := mput f.mgmtOut c (mget 0 f.mgmtOut c - 1) })))

/-- R16, R250, R447: a MGMT request of tenant 0 reads or writes one register word of the device and is answered; one of another
tenant is refused with TENANT and changes no register it names, and where it writes SPN.ROLE that is NO_RIGHT of page SPN.
Completes: MGMT. Where it rests on the model's own choices or readings: logs 27, 29 and 36. -/
def Obligations.ManagementRequests : Prop :=
  ∀ (s : State) (i : Fin 16) (a : Arrival) (h : RHead) (b : Access) (data : List Byte),
    let v := s.taken i 4 a ⟨.mgmt, h, b, noResp, data⟩
    let addr := b.addr % 2 ^ 26
    let role := b.op = 1 ∧ b.size = 4 ∧ addr = 0x1048
    ForHere s i 4 a h → spanBad b.addr = false → bits b.addr 44 42 = 2 →
      (h.tenant = 0 → b.size = 4 → b.addr % 4 = 0 → b.op = 0 → exec (.mgmt i a h b data) s =
        .next ((v.regRead .mgmt addr false).1.respond true h b 0 0 (leBytes 4 (v.readWord .mgmt addr % 2 ^ 32)))) ∧
      (h.tenant = 0 → b.size = 4 → b.addr % 4 = 0 → b.op = 1 → (addr = 0xD07C → v.physical v.keystoneNo = some h.src) →
        ∀ t pg off d, WritesAt v .mgmt t pg off → 0x40 ≤ off → regAt t off = some d → plainReg t off d = true →
          addr = pageAddr t pg off → v.locked (pageNo t pg) = false → v.valueBad t pg off (leAt data 0 4) = false →
          exec (.mgmt i a h b data) s =
            .next ((v.setRaw t pg off 0 (leAt data 0 4 &&& d.wmask)).respond true h b 0 0 [])) ∧
      (h.tenant = 0 → b.size = 4 → b.op = 1 → addr = 0xD07C → v.physical v.keystoneNo ≠ some h.src →
        exec (.mgmt i a h b data) s = .next (v.respond true h b 0 0 [])) ∧
      (h.tenant ≠ 0 → ¬role → exec (.mgmt i a h b data) s = .next (v.mgmtNack h b 0x44)) ∧
      (h.tenant ≠ 0 → role → exec (.mgmt i a h b data) s =
        .next (((v.violate .spn 0 ⟨0x11, 4, h.tenant, 0, b.addr⟩).cnt R.fabNackTx).respond true h b 1 0x44 []))

/-- R249, R252 to R254: a frame for another device leaves on the port of its next hop, whose credit it takes, with the next
number of its class; with no admissible hop ROUTE_ERR counts; a frame of a tag not enabled is discarded; one that waited at
an output moves to the escape VC. R256, R257: the tick timer reaches the earliest due time, and every atomic due by then
leaves its home, but one to a line of the host window that another holds; with none held nothing happens. Completes: FRAME_FORWARD,
ESCAPE_TIMEOUT, ATOMIC_DUE. Where it rests on the model's own choices or readings: logs 2 and 31. -/
def Obligations.ForwardingAndAtomics : Prop :=
  (
    ∀ (s : State) (i p : Fin 16) (a : Arrival) (f g : RFrame) (n : Nat) (cls : RClass),
      let u := (s.receive i (clsNo f.cls) a).1
      let k := poolOf g.cls g.head.vc
      let e := ({ f with head := { f.head with hops := f.head.hops - 1 } } : RFrame)
      let o := (s.modPort i (fun x => { x with queue := x.queue.erase (n, f) })).cnt R.fabEscCnt
      let waits := (s.port i).queue.find? (fun q => q.2.cls == cls && q.2.head.vc == 0)
      (Comes s i (clsNo f.cls) a f.head.tenant → f.head.dst ≠ s.rd R.spnPos → (hasAccess f.cls && spanBad f.access.addr) = false →
        (u.nextHop f = (.port p g, false) → exec (.frameForward i a f) s = .next (u.enqueue i p g)) ∧
        (u.nextHop f = (.port p g, false) → CanSend u p (clsNo g.cls) → u.covered p g = true → Gives (.frameForward i a f) s (fun t =>
          t.out = u.out ++ [.frame p (u.carrier p (.routed g))] ∧ (t.port p).queue = [] ∧
          mget 0 (t.port p).spent k = (mget 0 (u.port p).spent k + frameUnits g) % 65536 ∧ t.mem = s.mem)) ∧
        (u.nextHop f = (.noRoute, false) → f.cls ≠ .req → exec (.frameForward i a f) s =
          .next ((u.cnt R.fabRouteErr).freeUnits i f))) ∧
      ((s.receive i (clsNo f.cls) a).2 = .good → Quiet s → u.spanTag f.head.tenant = false →
        exec (.frameForward i a f) s = .next ((u.tagOff f.head.tenant (if hasAccess f.cls then some f.access.addr else none)).freeUnits i f)) ∧
      ((s.receive i (clsNo f.cls) a).2 = .damaged → exec (.frameForward i a f) s =
        .next (if f.cls = .toss then u.cnt R.fabTossDrop else u)) ∧
      ((s.receive i (clsNo f.cls) a).2 = .dropped → exec (.frameForward i a f) s = .next u) ∧
      (waits = some (n, f) →
        (∀ r, o.escapeHop e = .port p r → exec (.escapeTimeout i cls) s = .next (o.enqueue n p r).pump) ∧
        (o.escapeHop e = .noRoute → f.cls ≠ .req → exec (.escapeTimeout i cls) s =
          .next ((o.cnt R.fabRouteErr).freeUnits n f).pump)) ∧
      (waits = none → exec (.escapeTimeout i cls) s = .next s)) ∧
  (
    ∀ (s : State),
      let w := fun (d : Nat) => s.passTo d
      let hostLine := fun (x : HeldAtomic) => bits x.access.addr 44 42 = 3
      (∀ d, s.nextDue = some d → s.tick.state ≠ .idle →
        exec .atomicDue s = .next (w d).atomicsDue.serveOwn ∧ d ≤ (w d).tick.ns ∧ (∀ x ∈ s.fabric.atomics, d ≤ dueOf x.access) ∧
        ((∀ x ∈ s.fabric.atomics, ¬hostLine x) → (w d).atomicsDue.fabric.atomics = s.fabric.atomics.filter (fun x =>
          s.tick.detEff && decide ((w d).tick.ns < dueOf x.access)))) ∧
      (s.fabric.atomics = [] → exec .atomicDue s = .next s) ∧
      (∀ x, s.fabric.atomics = [x] → Quiet s → s.tick.state ≠ .idle → s.tick.ns ≤ dueOf x.access →
        (¬hostLine x → x.head.src ≠ s.rd R.spnPos → exec .atomicDue s =
          .next (((w (dueOf x.access)).modFab (fun f => { f with atomics := [] })).serveMemory x.port x.head x.access x.data)) ∧
        (hostLine x → s.windowUp x.head.tenant = true → s.lineBusy x.access.addr = true →
          Gives .atomicDue s (fun t => t.fabric.atomics = [x] ∧ t.mem = s.mem ∧ t.host.kind3s = s.host.kind3s))))

/-- R365, R366, R376 to R379, R381, R383: droop stretches a quarter's clock; a raise follows its voltage; idle quarters step
down; a rail whose bus fails three times is held and its steering stops; temperatures and the board's power set throttling, and with
no schedule running that takes every quarter to 900 MHz. Completes: DROOP, DROOP_END, VOLTAGE_REACHED, IDLE_STEP_DOWN,
AVSBUS_FAILURE, TELEMETRY_READ, THERMAL_THRESHOLD. Where it rests on the model's own choices or readings: logs 2 and 36. -/
def Obligations.ClocksAndRails : Prop :=
  ∀ (s : State) (q : Fin 4) (rail : Fin 5) (vout pout temps : List Nat),
    let x := s.quarter q
    let fails := mget 0 s.power.avsFails rail + 1
    let cap := s.fld R.pwrPcap 11 0
    let above := cap != 0 && decide (cap < natSum (pout ++ s.power.pout.drop pout.length))
    let shown := s.modQuarter q (fun y => { y with readback := y.set })
    (x.stretched = false → exec (.droop q) s =
      .next ((s.cnt R.pwrDroopCnt 0 1 q).modQuarter q (fun y => { y with stretched := true }))) ∧
    (x.stretched = true → exec (.droop q) s = .next s) ∧
    exec (.droopEnd q) s = .next (s.modQuarter q (fun y => { y with stretched := false })) ∧
    (s.running = true → exec (.voltageReached q) s = .next shown) ∧
    (s.running = false → s.tick.starting = 0 →
      (x.raiseTo = none → exec (.voltageReached q) s = .next shown) ∧
      (∀ f, x.raiseTo = some f → x.set < vf q f → exec (.voltageReached q) s = .next shown) ∧
      (∀ f, x.raiseTo = some f → vf q f ≤ x.set →
        exec (.voltageReached q) s = .next (s.modQuarter q (fun y => { y with readback := y.set, f := f, raiseTo := none })))) ∧
    (s.running = true ∨ s.tick.starting ≠ 0 → exec .idleStepDown s = .next s) ∧
    (s.running = false → s.tick.starting = 0 → Gives .idleStepDown s (fun t => (x.avsStopped = false →
        (x.raiseTo = none → 900 < x.f → (t.quarter q).f = max 900 (x.f - 25) ∧ (t.quarter q).set = vf q (max 900 (x.f - 25))) ∧
        (x.raiseTo ≠ none → x.lowerTo = none → (t.quarter q).f = x.f ∧ (t.quarter q).set = vf q x.f ∧ (t.quarter q).raiseTo = none)) ∧
      SameButManagement s t)) ∧
    (fails < 3 → exec (.avsbusFailure rail) s =
      .next { s with power := { s.power with avsFails := mput s.power.avsFails rail fails } }) ∧
    (3 ≤ fails → Gives (.avsbusFailure rail) s (fun t => t.power.avsFault = true ∧ Signals t .pwr 0 3 ∧ SameButPower s t ∧
      (rail.val < 4 → (t.quarter rail).avsStopped = true ∧ (t.quarter rail).set = (s.quarter rail).readback ∧
        (t.quarter rail).raiseTo = none ∧ (t.quarter rail).lowerTo = none))) ∧
    Gives (.telemetryRead vout pout) s (fun t => (∀ v, vout[q.val]? = some v → (t.quarter q).readback = v) ∧
      t.power.pout = pout ++ s.power.pout.drop pout.length ∧ t.power.capOver = (if above then s.power.capOver + 1 else 0) ∧
      t.power.capped = (cap != 0 && (decide (10 ≤ t.power.capOver) || (s.power.capped && decide (t.power.capUnder < 100)))) ∧
      t.power.throttle = (s.power.hot || t.power.capped) ∧ SameButPower s t) ∧
    Gives (.thermalThreshold temps) s (fun t => (t.quarter q).temp = hottest temps (8 * q) 8 ∧
      t.power.hot = (decide (1050 ≤ hottest temps 0 36) || (s.power.hot && decide (1030 ≤ hottest temps 0 36))) ∧
      t.power.throttle = (t.power.hot || s.power.capped) ∧
      (t.power.throttle = true → s.running = false → x.avsStopped = false → (t.quarter q).f = 900) ∧
      t.power.thermalCrit = (decide (1100 ≤ hottest temps 0 36) || (s.power.thermalCrit && decide (1080 ≤ hottest temps 0 36)) ||
        s.island.sensorCrit) ∧ SameButPower s t)

/-- R385 to R391: doze entry ends with the rails at their doze values and the ports in low-power idle; a wake held during it
starts at once; a neighbour's exit signal wakes; a wake ends with the rails up and the clocks at the floor, and the keystone
may then resume. Completes: DOZE_ENTRY_COMPLETE, EXIT_SIGNAL, WAKE_COMPLETE, AUTO_RESUME. Where it rests on the model's own choices
or readings: logs 2 and 36. -/
def Obligations.DozeAndWake : Prop :=
  ∀ (s : State) (i : Fin 16) (q : Fin 4),
    (s.power.state ≠ .entering → exec .dozeEntryComplete s = .next s) ∧
    (s.power.state = .entering → s.power.wakeHeld = [] → Gives .dozeEntryComplete s (fun t => t.power.state = .doze ∧
      (t.quarter q).set = 620 ∧ Out.avs 4 550 ∈ t.out ∧
      (t.port i).lpi = ((s.port i).lpi || ((s.port i).state == .up && !(s.port i).ethernet)) ∧ Signals t .pwr 0 4 ∧ SameButPower s t)) ∧
    (s.power.state = .entering → ∀ n l, s.power.wakeHeld = n :: l → Gives .dozeEntryComplete s (fun t =>
      t.power.state = .waking ∧ t.power.wakeSrc = l.foldl min n ∧ t.power.wakeHeld = [] ∧ (t.port i).lpi = false ∧ SameButPower s t)) ∧
    (s.power.state ≠ .doze → s.power.state ≠ .entering → (s.power.state = .waking → s.power.uptime ≠ s.power.wakeNs) →
      exec (.exitSignal i) s = .next (s.modPort i (fun x => { x with lpi := false }))) ∧
    (s.power.state = .entering → Gives (.exitSignal i) s (fun t => t.power.wakeHeld = addOnce s.power.wakeHeld 4 ∧
      t.power.state = .entering ∧ (t.port i).lpi = false ∧ OnlyPort s t i ∧ SameButPower s t)) ∧
    (s.power.state = .doze → Gives (.exitSignal i) s (fun t => t.power.state = .waking ∧ t.power.wakeSrc = 4 ∧
      (t.port i).lpi = false ∧ SameButPower s t)) ∧
    (s.power.state ≠ .waking → exec .wakeComplete s = .next s) ∧
    (s.power.state = .waking → s.tick.starting ≠ 1 → s.tick.withdrawals = [] → Gives .wakeComplete s (fun t =>
      t.power.state = .active ∧ (t.quarter q).f = s.floorMhz ∧ (t.quarter q).set = vf q s.floorMhz ∧
        s.power.wakeNs + 400000 ≤ t.power.uptime ∧ Signals t .pwr 0 4 ∧ SameButTick s t)) ∧
    (s.tick.keystone = true → s.flag R.pwrCtl 1 = true → s.power.woken = true → s.power.state = .active → s.tick.state = .hold →
      Gives .autoResume s (fun t => t.tick.starting = 2 ∧ t.power.woken = false ∧ t.tick.state = .hold ∧
        s.power.wakeNs + 1000 * s.fld R.pwrWakeGuard 15 0 ≤ t.power.uptime ∧ SameButTick s t)) ∧
    (s.tick.keystone = false ∨ s.power.woken = false ∨ s.tick.state ≠ .hold → exec .autoResume s = .next s)

/-- R394 to R402, R405, R408 and Tables 15-2 and 15-3: each monitor's trip writes its record, asserts the alert and drives its
outputs: the gate's cause, the power kill, the laser-disable lines of ports that have one; a value within its limits trips nothing;
causes end as their own commands say; the self-check's result is taken at the seal; while the isolation comparators disagree a
thread's access, a slot frame and a request are refused, recorded, and close the gate. Completes: LOCKSTEP_MISMATCH,
ISLAND_REBOOT_COMPLETE, JUNCTION_TRIP, SENSOR_IMPLAUSIBLE, RAIL_OVERVOLTAGE, REGULATOR_FAULT, CORE_UNDERVOLTAGE,
RETENTION_UNDERVOLTAGE, QUARTER_CLOCK_FAULT, ISLAND_OSCILLATOR_FAULT, HUB_WATCHDOG, GATE_CAUSE_CLEAR, SELF_CHECK_COMPLETE,
SELF_CHECK_ABANDON, VDD_OPT_FAULT, VDD_OPT_RESTORE. Where it rests on the model's own choices or readings: logs 2, 37, 43 and 58. -/
def Obligations.IslandMonitors : Prop :=
  ∀ (s : State) (c : Fin 36) (q : Fin 4) (k : Fin 512) (cause : Fin 9) (rail : Fin 12) (n : Nat),
    let logs := fun (t : State) (code act unit : Nat) => tripKey code unit ∉ s.island.tripped → t.island.alert = true ∧
      (t.island.records.getLast?.map (fun z => (z.code, z.actions, z.unit))) = some (code, act, unit % 65536)
    let kills := fun (i : Instr) (code unit : Nat) =>
      Gives i s (fun t => t.island.kill = true ∧ logs t code 4 unit ∧ SameArray s t ∧ t.tick = s.tick)
    let closes := fun (i : Instr) (code act unit g : Nat) => Gives i s (fun t => g ∈ t.island.causes ∧ logs t code act unit ∧
      (s.sampling = true → t.tick.gateSeen = true) ∧ (∀ z, z ∈ s.island.causes → z ∈ t.island.causes) ∧ SameArray s t)
    let dark := fun (t : State) => ∀ p, 4 ≤ p → p < 12 → (s.optical p = true → t.islandLine p = true) ∧ (t.port p).opt = .off
    (s.island.firstMismatch = none → Gives .lockstepMismatch s (fun t => 1 ∈ t.island.causes ∧ t.island.ready = false ∧
      t.island.kill = s.island.kill ∧ t.island.firstMismatch = some s.power.uptime ∧ t.island.alert = true ∧ dark t ∧ SameArray s t)) ∧
    (∀ m, s.island.firstMismatch = some m → s.power.uptime ≤ m + 1000000000 → Gives .lockstepMismatch s (fun t =>
      t.island.kill = true ∧ 1 ∈ t.island.causes)) ∧
    (1 ∈ s.island.causes → Gives .islandRebootComplete s (fun t => t.island.ready = true ∧ 1 ∉ t.island.causes ∧
      (∀ p, 4 ≤ p → p < 12 → s.optical p = true → (p, 0) ∉ t.island.lines) ∧ SameArray s t)) ∧
    (c.val ∉ s.island.sensorsFailed → 1150 ≤ n → kills (.junctionTrip c n) 0x61 c) ∧
    (c.val ∈ s.island.sensorsFailed ∨ n < 1150 → exec (.junctionTrip c n) s = .next s) ∧
    (c.val ∉ s.island.sensorsFailed → Gives (.sensorImplausible c n) s (fun t =>
      t.island.sensorsFailed = s.island.sensorsFailed ++ [c.val] ∧ logs t 0x62 0 c ∧ SameArray s t ∧
      (((dieOf c).filter (fun d => !(s.island.sensorsFailed ++ [c.val]).contains d)).length < 4 →
        t.island.sensorCrit = true ∧ t.power.thermalCrit = true))) ∧
    (railTrips.getD rail 0 < n → (rail.val = 11 → Config.variantO = true) → kills (.railOvervoltage rail n) 0x63 rail) ∧
    (n ≤ railTrips.getD rail 0 → exec (.railOvervoltage rail n) s = .next s) ∧
    kills .regulatorFault 0x65 0 ∧
    (n < s.coreFloor q → closes (.coreUndervoltage q n) 0x64 1 q 2) ∧
    (s.coreFloor q ≤ n → exec (.coreUndervoltage q n) s = .next s) ∧
    (n < (if s.dozing then 500 else 700) → closes (.retentionUndervoltage n) 0x6E 1 0 8) ∧
    ((if s.dozing then 500 else 700) ≤ n → exec (.retentionUndervoltage n) s = .next s) ∧
    (offBy 8 n (s.quarter q).f = true → closes (.quarterClockFault q n) 0x66 1 q 3) ∧
    (offBy 8 n (s.quarter q).f = false → exec (.quarterClockFault q n) s = .next s) ∧
    (n < 190 ∨ 210 < n → closes (.islandOscillatorFault n) 0x6D 9 0 4) ∧
    (190 ≤ n → n ≤ 210 → exec (.islandOscillatorFault n) s = .next s) ∧
    closes .hubWatchdog 0x67 9 0 5 ∧
    (2 ≤ cause.val → cause.val ≤ 4 → Gives (.gateCauseClear cause) s (fun t =>
      (∀ z, z ∈ t.island.causes ↔ z ∈ s.island.causes ∧ z ≠ cause.val) ∧ t.island.records = s.island.records ∧ SameArray s t)) ∧
    (cause.val < 2 ∨ 4 < cause.val → exec (.gateCauseClear cause) s = .next s) ∧
    (s.tick.phase = .sealing →
      Gives (.selfCheckComplete none) s (fun t => t.island = { s.island with selfOk := true } ∧ SameArray s t) ∧
      Gives (.selfCheckComplete (some k)) s (fun t => t.island.latched = true ∧ 7 ∈ t.island.causes ∧ t.island.selfOk = false ∧
        logs t 0x69 1 k ∧ SameArray s t) ∧
      Gives .selfCheckAbandon s (fun t => t.island.selfOk = false ∧ Counts s t R.safSelfchkSkip 0 1 ∧ SameArray s t)) ∧
    (s.tick.phase ≠ .sealing → exec (.selfCheckComplete none) s = .next s ∧ exec .selfCheckAbandon s = .next s) ∧
    (n < 3000 ∨ 3630 < n → Gives (.vddOptFault n) s (fun t => dark t ∧
      (∀ p, 4 ≤ p → p < 12 → s.optical p = true → (p, 2) ∈ t.island.lines) ∧ SameArray s t)) ∧
    (3000 ≤ n → n ≤ 3630 → exec (.vddOptFault n) s = .next s) ∧
    Gives .vddOptRestore s (fun t => (∀ p, 4 ≤ p → p < 12 → s.optical p = true → (p, 2) ∉ t.island.lines ∧
      (t.islandLine p = true ↔ ∃ r, (p, r) ∈ t.island.lines)) ∧ SameArray s t) ∧
    (s.island.disagree = true →
      let refused := fun (t : State) => 6 ∈ t.island.causes ∧ logs t 0x68 1 0 ∧ (s.sampling = true → t.tick.gateSeen = true) ∧
        t.mem = s.mem
      (∀ (g : Fin 64) (w : BitVec 26) (x : Group) (i : Instr) (op : Nat), AtRest s → guardOk w = true → x.ex w ≠ 0#32 →
        (i = .ld k g w ∧ op = 0x30 ∧ wS w = 0 ∨ i = .st k g w ∧ op = 0x31 ∧ wS w = 0 ∨ i = .atom k g w ∧ op = 0x32 ∧ wS w ≠ 7) →
        wW w = 2 → s.clashes k g w 4 true x = false → Runs s k g op w x [wR w, wA w] → s.ctxDead x.tenant = false →
        Gives i s (fun t => refused t ∧ x.tenant ∈ t.tick.killed)) ∧
      (∀ (p : Fin 16) (a : Arrival) (f : SlotFrame), (s.receive p 1 a).2 = .good → (s.receive p 1 a).1.slotPhase = true →
        Gives (.slotFrame p a f) s refused) ∧
      (∀ (p : Fin 16) (a : Arrival) (h : RHead) (b : Access) (data : List Byte), Comes s p 2 a h.tenant →
        h.dst = s.rd R.spnPos → h.src ≠ s.rd R.spnPos → Gives (.req p a h b data) s refused))

/-- R320 to R322, R329, R332, R338: a record whose CRC agrees joins the attempt's results, one whose CRC fails fails the
tick; a stream whose lifetime has passed is to finish; a finished stream whose digest is complete is released, by its ring
entry and its slot or by publication; the ledger's waiting entries leave as a block. Completes: COLLECTION_COMPLETE,
STREAM_LIFETIME, DIGEST_COMPLETE, LEDGER_CHECKPOINT. Where it rests on the model's own choices or readings: logs 3, 4 and 34. -/
def Obligations.StreamServices : Prop :=
  ∀ (s : State) (crcs : List Bool) (id : Fin 65536) (x : Stream) (k : StreamClass) (h : HostCmd) (c : Nat) (e : HEntry)
    (data : List Byte) (off : Nat),
    let len := leAt data (off + 8) 4
    let rid := leAt data (off + 2) 2
    let ok := leAt data off 1 = 1 ∧ off + 64 + len ≤ data.length ∧ len ≤ k.outLimit ∧ s.egressFull len = false ∧
      (s.svc.records.any (fun r => !r.spawn && r.stream == rid)) = false
    let entry := entryOf h.cmdId id x.status h.queue (if h.toSlot then h.generation else 0) x.tick 0 x.quality x.detail
    let q := s.queue h.fn h.ring
    let due := (s.fld R.ldgCkptTicks 23 0 != 0 && (s.tick.count - 1) % s.fld R.ldgCkptTicks 23 0 == 0) ||
      decide (1023 ≤ s.svc.ledger.length)
    (s.svc.collecting = true → s.tick.phase = .repair → exec (.collectionComplete crcs) s =
      .next ((s.modSvc (fun v => { v with collecting := false })).collect crcs)) ∧
    (s.svc.collecting = true → s.tick.phase = .repair → (∀ m ∈ s.image.classes, m.outlets = []) →
      exec (.collectionComplete crcs) s = .next (s.modSvc (fun v => { v with collecting := false }))) ∧
    (s.svc.collecting = false ∨ s.tick.phase ≠ .repair → exec (.collectionComplete crcs) s = .next s) ∧
    (ok → s.stream rid = some x → x.tenant = k.tenant → x.finished = false → collectRecords 1 (s, [true]) k c e data off =
      (s.modSvc (fun v => { v with records := v.records ++
        [⟨false, leAt data (off + 1) 1, rid, k.cls, (data.drop (off + 64)).take len,
          (crc32c ((data.drop (off + 64)).take len)).toNat⟩] }), [])) ∧
    (ok → (collectRecords 1 (s, [false]) k c e data off).1.svc.records = s.svc.records ∧ (s.tick.phase = .repair →
      ⟨8, .cluster c⟩ ∈ (collectRecords 1 (s, [false]) k c e data off).1.tick.faults)) ∧
    (s.stream id = some x → s.classOf x.cls = some k → x.finished = false → k.life ≠ 0 → exec (.streamLifetime id) s =
      .next (s.modSvc (fun v => { v with expired := addOnce v.expired id }))) ∧
    (s.stream id = none ∨ s.stream id = some x ∧ x.finished = true → exec (.streamLifetime id) s = .next s) ∧
    (s.stream id = none ∨ s.stream id = some x ∧ (x.finished = false ∨ x.released = true) → exec (.digestComplete id) s = .next s) ∧
    (s.stream id = some x → x.finished = true → x.released = false →
      (x.host = none → Gives (.digestComplete id) s (fun t => t.stream id = none ∧ (∀ j, j ≠ id.val → t.stream j = s.stream j) ∧
        (x.status ≠ 0 → t.out = s.out ∧ Counts s t R.prvResCnt 0 1) ∧ t.mem = s.mem)) ∧
      (x.host = some h → h.toOut = false → q.state ≠ .off → q.waiting = [] → q.ringFull = false → (s.fn h.fn).flr = false →
        s.host.stalled = false → Gives (.digestComplete id) s (fun t => t.stream id = none ∧
          Out.hostWrite (q.ringBase + 32 * q.ringTail) (q.entryBytes ⟨x.tick, some id.val, entry⟩) false ∈ t.out ∧
          (t.queue h.fn h.ring).ringTail = (q.ringTail + 1) % 2 ^ q.ringSize ∧
          (h.toSlot = true → (t.slotOf h.fn h.slot).state = (if x.status = 0 then 2 else 3) ∧
            (t.slotOf h.fn h.slot).generation = h.generation) ∧ t.mem = s.mem))) ∧
    (due = true → s.svc.ledger ≠ [] → s.ledgerRingFull = false → Gives .ledgerCheckpoint s (fun t =>
      t.svc.blockNo = s.svc.blockNo + 1 ∧ t.svc.ledger = s.svc.ledger.drop 1023 ∧ t.svc.blockDue = false ∧ Signals t .ldg 0 2 ∧
        SameButPower s t)) ∧
    (due = true → s.svc.ledger ≠ [] → s.ledgerRingFull = true → exec .ledgerCheckpoint s =
      .next (s.modSvc (fun v => { v with blockDue := true }))) ∧
    (due = false ∨ s.svc.ledger = [] → exec .ledgerCheckpoint s = .next s)

/-- R323 to R326: an accepted tile joins its open frame once; one of a closed frame is late, a repeated one a duplicate, a
malformed or misdirected one is counted; one whose frame may not open yet waits in the hold, or is dropped where that is full; a
waiting frame opens when it may; a window's close makes the missing units. Completes: TILE, FRAME_OPEN, FRAME_WINDOW_CLOSE. Where it
rests on the model's own choices or readings: logs 34 and 57. -/
def Obligations.CameraIngest : Prop :=
  ∀ (s : State) (i : Fin 16) (y : Tile) (k : StreamClass) (f : OpenFrame) (t0 : Nat),
    let comes := (s.port i).ethernet = true ∧ (s.port i).ethUp = true
    let mine := bit (s.inForce R.spnRole) 2 = true ∧ s.tileAddressed i y = true
    let gives := fun (P : State → Prop) => Gives (.tile i y) s (fun t => P t ∧ SameButPower s t)
    let same := fun (x : Tile) => x.exposure == y.exposure && x.sensor == y.sensor
    let lateU := s.svc.arriving.filter (fun u => u.stream == f.stream)
    let got := f.got.filter (fun n => !lateU.any (fun u => u.index == n))
    let full := decide (min (s.fld R.ingHoldKib 12 0) 4096 * 1024 <
      natSum (s.svc.holdTiles.map (fun x => x.payload.length)) + y.payload.length)
    (¬comes → exec (.tile i y) s = .next s) ∧
    (comes → ¬mine → exec (.tile i y) s = .next ((s.cnt R.ingDrop).cnt R.prtEthDrop i)) ∧
    (comes → mine → s.tileClass y = none → exec (.tile i y) s = .next (s.cnt R.ingBad)) ∧
    (comes → mine → s.tileClass y = some k →
      ((y.exposure, y.sensor) ∈ s.svc.closed → gives (fun t => t.svc = s.svc ∧ Counts s t R.ingLate 0 1)) ∧
      ((y.exposure, y.sensor) ∉ s.svc.closed → s.frameOf y.exposure y.sensor = some f → f.closing = false →
        (y.index ∉ f.got → gives (fun t => t.frameOf y.exposure y.sensor = some { f with got := f.got ++ [y.index] } ∧
          Counts s t R.ingTileOk 0 1 ∧ t.svc.streams = s.svc.streams)) ∧
        (y.index ∈ f.got → gives (fun t => t.frameOf y.exposure y.sensor = some { f with dup := f.dup + 1 } ∧
          t.svc.arriving = s.svc.arriving ∧ Counts s t R.ingDup 0 1))) ∧
      ((y.exposure, y.sensor) ∉ s.svc.closed → s.frameOf y.exposure y.sensor = none → s.mayOpen k = false →
        (full = false → gives (fun t => t.svc.holdTiles = s.svc.holdTiles ++ [y] ∧ t.svc.frames = s.svc.frames)) ∧
        (full = true → gives (fun t => t.svc = s.svc ∧ Counts s t R.ingHoldDrop 0 1 ∧ Signals t .ing 0 1)))) ∧
    ((∀ x ∈ s.svc.holdTiles, ∀ m, s.sensorClass x.sensor = some m → s.mayOpen m = false) → exec .frameOpen s = .next s) ∧
    (s.svc.holdTiles.head? = some y → s.sensorClass y.sensor = some k → s.mayOpen k = true → Gives .frameOpen s (fun t =>
      (t.frameOf y.exposure y.sensor).isSome = true ∧ t.svc.holdTiles = s.svc.holdTiles.filter (fun x => !same x) ∧
        SameButPower s t)) ∧
    (s.frameOf y.exposure y.sensor = none → exec (.frameWindowClose y.exposure y.sensor) s = .next s) ∧
    (s.frameOf y.exposure y.sensor = some f → s.sensorClass y.sensor = some k → f.first = some t0 → f.closing = false →
      s.tick.phase = .opening ∨ s.tick.phase = .waiting → t0 + k.window ≤ s.tick.count →
      Gives (.frameWindowClose y.exposure y.sensor) s (fun t =>
        t.frameOf y.exposure y.sensor = some { f with closing := true, got := got, late := f.late + lateU.length } ∧
        (∀ x, s.stream f.stream = some x → x.finished = false → t.svc.units = s.svc.units ++ missingUnits k f got) ∧
        (∀ u ∈ t.svc.arriving, u.stream ≠ f.stream) ∧ SameButPower s t))

/-- R345 to R349, R353, R359 and Table 13-2: edges and messages measure the offset of the source followed, and let another
qualify; sources are lost and trusted; the loop corrects the frequency; the holdover limit ends holdover; the PPS output is
a pulse; notices take effect in the tick they name, and the keystone sends its own to every other device; a PTP message over a
transport that PTP_CFG does not name, or that Table 08-7 does not support, is dropped and counted (R228 to R230). Completes: PPS_EDGE,
REFERENCE_LOSS, QUALIFICATION_COMPLETE, LOOP_UPDATE, HOLDOVER_LIMIT, PPS_OUTPUT, PPS_OUT_END, ANCHOR, NOTICE_APPLY, PTP_MESSAGE. Where
it rests on the model's own choices or readings: logs 2, 35, 48 and 57. -/
def Obligations.TimeReferences : Prop :=
  ∀ (s : State) (src : TimeSource) (err : Int) (i : Fin 16) (tr : Fin 3) (pm : PtpMsg) (d k sec ns : Nat) (peer oneStep : Bool)
    (rx t1 t2 t3 t4 : Int),
    let n := sourceNo src
    let edge := s.edgeTime
    let tod : Int := ((s.rd R.timTodNextLo + s.fld R.timTodNextHi 15 0 * 2 ^ 32 : Nat) : Int)
    let second : Int := if s.flag R.timTodNextHi 31 then tod else (edge + 500000000) / 1000000000
    let port := if i.val = 14 then 3 else 4
    let eth := (s.port i).ethernet = true ∧ (s.port i).ethUp = true
    let takes := fun (m : PtpMsg) => tr.val = s.fld R.timPtpCfg 9 8 ∧ ∀ d k sec ns rx, tr.val = 2 → m ≠ .sync d k true sec ns rx
    let on := 14 ≤ i.val ∧ s.flag R.timPtpCfg (i.val - 2) = true ∧ eth ∧ s.runsTime = true
    let stamp := fun (t : Int) => 250 * t + signed32 (s.rd R.prtEthAsym i)
    let path : Int := if peer then ((stamp t4 - 250 * t1) - (250 * t3 - 250 * t2)) / 2
      else ((stamp t2 - 250 * t1) + (250 * t4 - 250 * t3)) / 2
    let offset : Int := (((sec : Int) * 1000000000 + ns) * 1000 + s.time.meanPath - stamp rx).tdiv 1000
    let sync := PtpMsg.sync d k oneStep sec ns rx
    let due := s.time.notices.filter (fun x => noticeDue x s.tick.count)
    (s.runsTime = false → exec .ppsEdge s = .next (s.wr R.timTodNextHi (s.rd R.timTodNextHi % 2 ^ 31))) ∧
    (s.runsTime = true → Gives .ppsEdge s (fun t => t.time.lastEdge = some edge ∧ t.rd R.timTodNextHi = s.rd R.timTodNextHi % 2 ^ 31 ∧
      (s.time.source = 1 ∨ s.time.source = 2 → second * 1000000000 - edge < 1000000 →
        t.time.theta = second * 1000000000 - edge ∧ t.rd R.timOffset = satS32 (second * 1000000000 - edge)) ∧
      (s.time.source ≠ 1 → s.time.source ≠ 2 → 1 ∈ s.prio → 1 ∈ t.time.trusted ∨ 1 ∈ t.time.qualifying) ∧ SameButServices s t)) ∧
    (s.runsTime = true → n ∈ s.time.trusted ∨ n ∈ s.time.qualifying → Gives (.referenceLoss src) s (fun t =>
      n ∉ t.time.trusted ∧ n ∉ t.time.qualifying ∧ Counts s t R.timRefLoss 0 1 ∧ SameButServices s t)) ∧
    (s.runsTime = true → n ∉ s.time.trusted → Gives (.qualificationComplete src) s (fun t =>
      t.time.trusted = s.time.trusted ++ [n] ∧ n ∉ t.time.qualifying ∧ SameButServices s t)) ∧
    (s.runsTime = false → exec (.referenceLoss src) s = .next s ∧ exec (.qualificationComplete src) s = .next s) ∧
    (s.runsTime = true → s.time.source ≠ 0 → Gives (.loopUpdate err) s (fun t =>
      t.time.freq = clampInt 100000000 (s.time.freq + clampInt 2000 err) ∧
        (s.flag R.timCtl 1 = false → t.regs = s.regs ∧ t.out = s.out) ∧ SameButServices s t)) ∧
    (s.time.source = 0 → exec (.loopUpdate err) s = .next s) ∧
    (s.time.state = .holdover → Gives .holdoverLimit s (fun t => t.time.state = .freeRun ∧ Signals t .tim 0 1 ∧ SameButServices s t)) ∧
    (s.time.state ≠ .holdover → s.time.state ≠ .qualifying → exec .holdoverLimit s = .next s) ∧
    (s.flag R.timCtl 2 = true → s.time.have_ = true → s.shownState ≠ .freeRun →
      (∀ z, s.time.lastPulse = some z → s.tai < z + 500000000 → exec .ppsOutput s = .next (s.cnt R.timPpsOutSkip)) ∧
      ((∀ z, s.time.lastPulse = some z → z + 500000000 ≤ s.tai) → exec .ppsOutput s =
        .next (s.modTime (fun t => { t with ppsOut := true, lastPulse := some s.tai })))) ∧
    (s.flag R.timCtl 2 = false ∨ s.time.have_ = false → exec .ppsOutput s = .next s) ∧
    exec .ppsOutEnd s = .next (s.modTime (fun t => { t with ppsOut := false })) ∧
    (s.tick.keystone = true → s.fld R.timAnchorTicks 23 0 ≤ s.time.anchorTicks → Gives .anchor s (fun t =>
      t.time.anchorTicks = 0 ∧ t.time.notices.length = s.time.notices.length + 1 ∧
        (∃ l v, t.fabric.sendq = s.fabric.sendq ++ l ∧ l.map (·.use) = s.others.map .mgmt ∧ ∀ r ∈ l, r.tenant = 0 ∧ r.mgmt = true ∧
          r.access.op = 1 ∧ r.access.size = 4 ∧ r.access.addr % 2 ^ 26 = 0xC0B0 ∧ r.data = leBytes 4 v) ∧ SameButServices s t)) ∧
    (s.tick.keystone = false ∨ s.time.anchorTicks < s.fld R.timAnchorTicks 23 0 → exec .anchor s = .next s) ∧
    (s.tick.phase = .opening ∨ s.tick.phase = .waiting → Gives .noticeApply s (fun t =>
      t.time.notices = s.time.notices.filter (fun x => !noticeDue x s.tick.count) ∧
      t.svc.events.length = s.svc.events.length + due.length ∧ (∀ l x, due = l ++ [x] → t.time.quality = x.quality) ∧
      SameButServices s t)) ∧
    (s.tick.phase ≠ .opening → s.tick.phase ≠ .waiting → exec .noticeApply s = .next s) ∧
    (eth → ¬takes pm → exec (.ptpMessage i ⟨tr, pm⟩) s = .next (s.cnt R.prtEthDrop i)) ∧
    (¬eth ∨ takes pm → ¬on → exec (.ptpMessage i ⟨tr, pm⟩) s = .next s) ∧
    (on → d = s.fld R.timPtpCfg 7 0 →
      (takes (.delay d peer t1 t2 t3 t4) → peer = s.flag R.timPtpCfg 10 →
        exec (.ptpMessage i ⟨tr, .delay d peer t1 t2 t3 t4⟩) s = .next (s.modTime (fun t => { t with meanPath := path.toNat }))) ∧
      (takes (.announce d k) → Gives (.ptpMessage i ⟨tr, .announce d k⟩) s (fun t => t.time.clockClass = k ∧
        (s.fld R.timPtpCfg 23 16 < k → port ∉ t.time.trusted ∧ port ∉ t.time.qualifying) ∧
        (k ≤ s.fld R.timPtpCfg 23 16 → port ∈ t.time.trusted ∨ port ∈ t.time.qualifying) ∧ SameButServices s t)) ∧
      (takes sync → k ≤ s.fld R.timPtpCfg 23 16 → s.time.source = port → offset < 1000000 → Gives (.ptpMessage i ⟨tr, sync⟩) s
        (fun t => t.time.theta = offset ∧ t.rd R.timOffset = satS32 offset ∧ SameButServices s t)))

/-- R202 to R205 and Table 07-4: a visit reads one row, the oldest queued repair of the rotation's bank first; a corrected
word is written back by the next visit, and the rotation moves on; a pass that ends is counted; a scrubber that is not
enabled, or dozes, does nothing. An evaluation moves n by at most 1, within its bounds. Completes: SCRUB_VISIT,
SCRUB_EVALUATION. Where it rests on the model's own choices or readings: log 2 and 13. -/
def Obligations.Scrubbing : Prop :=
  ∀ (s : State) (u : ScrubUnit) (w : Nat),
    let k := (scrubPlace u).1
    let x := s.scrub k
    let ctl := s.scrubCtl u
    let gives := fun (P : State → Prop) => Gives (.scrubVisit u) s (fun t => P t ∧ t.mem = s.mem ∧ t.written = s.written ∧
      ∀ j, j ≠ k → j < 516 → t.scrub j = s.scrub j)
    let works := bit ctl 24 = true ∧ s.power.state = .active ∧ x.visit < (scrubPlace u).2
    let passed := match u with
      | .cluster _ => R.spdScrubPass
      | .quarter _ => R.qstScrubPass
    let calm := fun (v : Nat) => ∀ z ∈ rowWords (visitByte u v), s.eccOf z = 0
    (works → x.row = none → x.repair = [] → calm x.visit →
      (x.visit + 1 < (scrubPlace u).2 → gives (fun t => t.scrub k = { x with visit := x.visit + 1 })) ∧
      ((scrubPlace u).2 ≤ x.visit + 1 → gives (fun t => t.scrub k = { x with visit := 0, started := s.tick.count } ∧
        Counts s t passed (k % 512) 1))) ∧
    (works → x.row = none → x.repair = [] → s.eccOf (visitByte u x.visit) = 1 →
      gives (fun t => (t.scrub k).row = some x.visit ∧ (t.scrub k).visit = x.visit)) ∧
    (works → x.row = none → x.repair = [w] → scrubAt (8 * w) = k → wordVisit u w % scrubBanks u = x.visit % scrubBanks u →
      s.eccOf (8 * w) = 1 → gives (fun t => (t.scrub k).row = some (wordVisit u w) ∧ (t.scrub k).visit = x.visit)) ∧
    (works → x.row = some x.visit → x.repair = [] → x.visit + 2 < (scrubPlace u).2 → calm (x.visit + 1) →
      gives (fun t => (∀ z ∈ rowWords (visitByte u x.visit), t.eccOf z ≠ 1) ∧ (t.scrub k).row = none ∧
        (t.scrub k).visit = x.visit + 2)) ∧
    (bit ctl 24 = false ∨ s.power.state = .entering ∨ s.power.state = .doze ∨ s.power.state = .waking →
      exec (.scrubVisit u) s = .next s) ∧
    ((s.tick.count - 1) % 1024 = 0 → 2 ≤ s.tick.count → Gives (.scrubEvaluation u) s (fun t =>
      (t.scrub k).n = max (bits ctl 12 8) (min (bits ctl 4 0) (if bits ctl 23 16 ≤ x.errors then x.n - 1
        else if x.errors = 0 ∧ 15 ≤ x.clean then x.n + 1 else x.n)) ∧
      (t.scrub k).errors = 0 ∧ (t.scrub k).visit = x.visit ∧ t.mem = s.mem ∧ t.ecc = s.ecc ∧
      ∀ j, j ≠ k → j < 516 → t.scrub j = s.scrub j)) ∧
    ((s.tick.count - 1) % 1024 ≠ 0 → exec (.scrubEvaluation u) s = .next s)

/-- R244 to R246, R234, R89: at its start a slot armed in time is sent whole, one frame for each segment, or as poison where
its owner is dead; a frame that its entry accepts is written to the armed handle, relayed, or discarded for its flag or because its
slot has been checked, and one that fails a check is counted; the check asks once for a slot with a segment missing; a request of
this tick replays the slot in the repair phase. Completes: SLOT_START, SLOT_FRAME, SLOT_CHECK, REPLAY_REQ. Where it rests on the
model's own choices or readings: logs 2 and 19. -/
def Obligations.SlotTraffic : Prop :=
  ∀ (s : State) (i : Fin 16) (slot : Fin 65536) (a : Arrival) (f : SlotFrame) (am : Armed) (tick : Nat),
    let v := (s.receive i 1 a).1
    let r := (s.receive i 8 a).1
    let x := s.slotEntry slot
    let y := s.slotEntry f.slot
    let data := fun (g : Nat × Nat × Nat) => s.armedAddrs am g.2.1 g.2.2
    let frames := fun (dead replay : Bool) => x.segments.map (fun g => Out.frame x.port { s.carrier x.port (.slot
      ⟨x.owner, slot, g.1, dead, false, replay, if dead then [] else (data g).map s.byte⟩) with
        seq := (s.classSeq x.port 1).next + g.1 })
    let readable := s.armedOf slot true = some am ∧ s.ctxDead x.owner = false ∧ s.spc x.port = false ∧
      ∀ g ∈ x.segments, ReadsMemory s 2 (hKind (s.entry am.cluster am.handle) == 0) (data g)
    let again := f.replay && !am.replay
    let due := x.start + x.occ + ((s.port x.port).delay + 999) / 1000 + 50
    let asks := exec (.replayReq i a slot tick) s
    (s.tick.phase = .body → x.dir = 1 → x.start ≤ s.tick.ns →
      (readable → am.late = false → am.sent = false → CanSend s x.port 1 → Gives (.slotStart slot) s (fun t =>
        t.out = s.out ++ frames false false ∧ t.armedOf slot true = some { am with sent := true } ∧ t.mem = s.mem)) ∧
      (s.ctxDead x.owner = true → CanSend s x.port 1 → Gives (.slotStart slot) s (fun t => t.out = s.out ++ frames true false ∧
        t.fabric = s.fabric ∧ t.mem = s.mem)) ∧
      (s.ctxDead x.owner = false → (∀ z, s.armedOf slot true = some z → z.late = true ∨ z.sent = true) →
        exec (.slotStart slot) s = .next s)) ∧
    (s.tick.phase ≠ .body ∨ x.dir ≠ 1 → exec (.slotStart slot) s = .next s) ∧
    ((s.receive i 1 a).2 = .good → v.slotPhase = true → s.island.disagree = false →
      (accepts y i f = false → Gives (.slotFrame i a f) s (fun t => Counts v t R.fabSlotBad 0 1 ∧ t.mem = s.mem)) ∧
      (accepts y i f = true → y.dir = 3 → v.spc y.outPort = false →
        exec (.slotFrame i a f) s = .next (v.sendOn y.outPort (.slot f))) ∧
      (accepts y i f = true → y.dir = 2 → s.armedOf f.slot false = some am →
        (f.replay = false → am.closed = true → exec (.slotFrame i a f) s = .next v) ∧
        (f.replay = true ∨ am.closed = false →
          (f.poison = true → s.ctxDead y.owner = false → Gives (.slotFrame i a f) s (fun t => y.owner ∈ t.tick.killed ∧ t.mem = s.mem)) ∧
          (f.poison = false → f.corrupt = true → Gives (.slotFrame i a f) s (fun t => t.mem = s.mem ∧
            (t.armedOf f.slot false).map (·.exc) = some (addOnce (if again then [] else am.exc) f.seg) ∧ t.out = v.out)) ∧
          (f.poison = false → f.corrupt = false → f.replay = true ∨ am.late = false → s.spc y.port = false →
            (∀ b ∈ s.armedAddrs am (f.seg * 65536) f.data.length, b < 2 ^ 31 →
              s.leased (b / 2 ^ 22) 2 (b % 2 ^ 22 / 2 ^ 17) = true) →
            Gives (.slotFrame i a f) s (fun t =>
              t.mem = storedIn s.mem ((s.armedAddrs am (f.seg * 65536) f.data.length).zip f.data) ∧
              (t.armedOf f.slot false).map (·.got) = some (addOnce (if again then [] else am.got) f.seg)))))) ∧
    ((s.receive i 1 a).2 ≠ .good ∨ v.slotPhase = false → exec (.slotFrame i a f) s = .next v) ∧
    (s.slotPhase = true → x.dir = 2 → due ≤ s.tick.ns →
      (s.armedOf slot false = none → exec (.slotCheck slot) s = .next s) ∧
      (s.armedOf slot false = some am →
        (am.closed = true → exec (.slotCheck slot) s = .next s) ∧
        (am.closed = false → s.spc x.port = false ∨ am.sent = true → am.late = true ∨ s.missing am = [] →
          exec (.slotCheck slot) s = .next (s.modArmed slot false (fun z => { z with closed := true }))) ∧
        (am.closed = false → s.spc x.port = true → am.sent = false → Gives (.slotCheck slot) s (fun t =>
          Counts s t R.prtSpcMiss x.port 1 ∧ t.mem = s.mem)) ∧
        (am.closed = false → s.spc x.port = false → am.late = false → s.missing am ≠ [] → s.ctxDead x.owner = false →
          CanSend s x.port 8 → Gives (.slotCheck slot) s (fun t =>
            t.out = s.out ++ [.frame x.port (s.carrier x.port (.replayReq slot s.tick.count))] ∧
            t.armedOf slot false = some { am with closed := true, asked := true } ∧ t.mem = s.mem)))) ∧
    (s.slotPhase = false ∨ x.dir ≠ 2 → exec (.slotCheck slot) s = .next s) ∧
    ((s.receive i 8 a).2 = .good → s.slotPhase = true →
      (tick = s.tick.count → x.dir = 1 → x.port = i.val → asks = .next (r.want slot)) ∧
      (tick = s.tick.count → x.dir = 3 → x.outPort = i.val → asks = .next (r.sendOn x.port (.replayReq slot tick))) ∧
      (tick ≠ s.tick.count ∨ ((x.dir = 1 → x.port ≠ i.val) ∧ (x.dir = 3 → x.outPort ≠ i.val)) → asks = .next r)) ∧
    ((s.receive i 8 a).2 ≠ .good ∨ s.slotPhase = false → asks = .next r) ∧
    (s.tick.phase = .body → (∀ z ∈ s.fabric.replays, z.1 ≠ slot) →
      s.want slot = s.modFab (fun q => { q with replays := q.replays ++ [(slot.val, 0)] })) ∧
    (s.tick.phase = .repair → s.fabric.replays = [] → readable → CanSend s x.port 1 →
      max s.tick.ns s.repairStart + x.occ ≤ s.sealStart → (s.want slot).out = s.out ++ frames false true ∧
        Counts s (s.want slot) R.fabSlotReplay 0 1 ∧ (s.want slot).mem = s.mem)

/-- R37 to R43, R45, R48, R53, R55, R57, R82, R241 and Table 02-6: a tick starts at its predicted time, marker or not; the
keystone's marker and the marker a device accepts carry the verdict, which commits the attempt, undoes it, or holds the span, and the
timer is set by the tick start that the marker gives; a marker on another port is checked against the parent's; the open phase ends
in the body, or in a fault; the repair phase and the seal follow at their times; the backup takes over a lost keystone's markers.
Completes: LOCAL_TICK_START, MARKER, OPEN_END, REPAIR_START, SEAL_START, KEYSTONE_TAKEOVER. Where it rests on the model's own choices
or readings: logs 2, 12, 14, 25, 30, 45, 46 and 48. -/
def Obligations.TickPhases : Prop :=
  ∀ (s : State) (i : Fin 16) (a : Arrival) (arrived : Int) (m : Marker),
    let k := s.tick
    let r := (s.receive i 6 a).1
    let start : Int := arrived - m.accDelay - (s.port i).delay
    let mk := Instr.marker i a arrived m
    let good := (s.receive i 6 a).2 = .good
    let damaged := (s.receive i 6 a).2 = .damaged
    let ran := k.joined = true ∧ k.phase = .sealing ∧ k.marked = true
    let still := AtRest s ∧ s.load.held = [] ∧ s.load.chains = []
    let commits := fun (c : Instr) (n : Nat) => Gives c s (fun t => t.tick.count = k.count + 1 ∧ t.tick.attempt = n ∧
      t.tick.phase = .opening ∧ t.tick.marked = true ∧ t.tick.undecided = false ∧ t.tick.killed = [] ∧ t.tick.fails = [] ∧
      t.mem = s.mem)
    let undoes := fun (c : Instr) (n : Nat) => Gives c s (fun t => t.tick.count = k.count ∧ t.tick.attempt = n ∧
      t.tick.phase = .opening ∧ t.tick.marked = true ∧ t.tick.undecided = false ∧ Counts s t R.tckRerunCnt 0 1 ∧
      (∀ c, (t.cluster c).groups = []) ∧ t.tick.dead = k.dead ∧ t.mem = s.mem)
    let holds := fun (c : Instr) => Gives c s (fun t => t.tick.count = k.count ∧ t.tick.state = .hold ∧ t.tick.phase = .none ∧
      (still → t.mem = s.mem))
    (k.state ≠ .idle → k.selfFailed = false → k.keystone = false → k.phase = .sealing ∨ k.phase = .waiting ∨ k.phase = .none →
      Gives .localTickStart s (fun t => t.tick.phase = k.state.openPhase ∧ t.tick.ns = 0 ∧ t.tick.marked = false ∧
        t.tick.faults = [] ∧ t.tick.fault = none ∧ t.tick.silent = k.silent + 1 ∧ t.tick.count = k.count ∧
        t.tick.undecided = (k.undecided || (k.marked && k.phase != .none)) ∧ t.clusters = s.clusters ∧ t.mem = s.mem)) ∧
    (k.state = .idle ∨ k.selfFailed = true → exec .localTickStart s = .next s) ∧
    (k.state ≠ .idle → k.selfFailed = false → k.keystone = true → ran →
      (k.decision = some 1 → commits .localTickStart 1) ∧ (k.decision = some 2 → undoes .localTickStart (k.attempt + 1)) ∧
      (k.decision = some 3 → s.power.dozeAsked = false → holds .localTickStart)) ∧
    (good → k.keystone = false → k.selfFailed = false → m.epoch = k.epoch → i.val = s.parentPort →
      (k.phase = .opening → k.marked = false → k.undecided = true → k.joined = true →
        (m.tick = k.count + 1 → m.verdict ≠ 3 → commits mk m.attempt) ∧ (m.tick = k.count → m.verdict ≠ 3 → undoes mk m.attempt) ∧
        (m.tick = k.count ∨ m.tick = k.count + 1 → m.verdict ≠ 3 → Gives mk s (fun t =>
          t.tick.ns = ((k.ns : Int) - start / 1000).toNat ∧ t.tick.detEff = m.detMode ∧ t.tick.stretchEff = m.stretch)) ∧
        (m.tick = k.count → m.verdict = 3 → holds mk) ∧
        (m.tick ≠ k.count → m.tick ≠ k.count + 1 → Gives mk s (fun t => t.tick.selfFailed = true ∧
          t.tick.state = .hold ∧ (still → t.mem = s.mem)))) ∧
      (k.joined = false → k.phase = .none → m.verdict ≠ 3 → Gives mk s (fun t => t.tick.joined = true ∧
        t.tick.count = m.tick ∧ t.tick.attempt = m.attempt ∧ t.tick.phase = .opening ∧ t.mem = s.mem))) ∧
    (good → m.epoch < k.epoch → exec mk s = .next (r.violate .tck 0 ⟨Config.staleEpochCode, 16, 0, 2, 0⟩)) ∧
    (good → k.keystone = true → k.epoch < m.epoch → i.val ≠ s.parentPort → k.parentDamaged = false → k.damagedEarly = false →
      Gives mk s (fun t => t.tick.keystone = false ∧ t.tick.epoch = m.epoch ∧ t.mem = s.mem)) ∧
    (good → k.keystone = false → m.epoch = k.epoch → i.val ≠ s.parentPort → k.parentDamaged = false → k.damagedEarly = false →
      Gives mk s (fun t => (t.tick = { k with mkOthers := t.tick.mkOthers, disagree := t.tick.disagree }) ∧
        (∀ x, k.mkParent = some (m.tick, m.attempt, x) →
          t.tick.disagree = k.disagree + (if 5000 < (x - start).natAbs then 1 else 0)) ∧ t.clusters = s.clusters ∧ t.mem = s.mem)) ∧
    (damaged → i.val = r.parentPort →
      (k.phase = .opening ∨ k.phase = .body ∨ k.phase = .repair →
        exec mk s = .next (r.modTick (fun t => { t with parentDamaged := true }))) ∧
      (k.phase = .waiting ∨ k.phase = .sealing ∨ k.phase = .none →
        exec mk s = .next (r.modTick (fun t => { t with damagedEarly := true })))) ∧
    (¬good → ¬(damaged ∧ i.val = r.parentPort) → exec mk s = .next r) ∧
    (k.phase = .opening → k.state ≠ .idle →
      (k.marked = true → s.configBad = false → Gives .openEnd s (fun t => t.tick.phase = .body ∧ 1000 ≤ t.tick.ns ∧
        t.tick.count = k.count ∧ (∀ q : Fin 4, (t.quarter q).clk = 0 ∧ (t.quarter q).frac = 0) ∧ t.tick.detEff = k.detEff)) ∧
      (k.marked = true → s.configBad = true → Gives .openEnd s (fun t => t.tick.phase = .waiting ∧ ⟨0xB, .device⟩ ∈ t.tick.faults ∧
        t.clusters = s.clusters ∧ t.mem = s.mem)) ∧
      (k.marked = false → Gives .openEnd s (fun t => t.tick.phase = .waiting ∧ ⟨5, .link s.parentPort⟩ ∈ t.tick.faults ∧
        t.clusters = s.clusters ∧ t.mem = s.mem))) ∧
    (k.phase ≠ .opening → exec .openEnd s = .next s) ∧
    (k.phase = .body → Gives .repairStart s (fun t => t.tick.phase = .repair ∧ t.svc.collecting = s.firstOutlet.isSome ∧
      (k.state ≠ .idle → s.repairStart ≤ t.tick.ns) ∧ t.mem = s.mem)) ∧
    (k.phase ≠ .body → exec .repairStart s = .next s) ∧
    (k.phase = .repair → k.stretchEff = false → Gives .sealStart s (fun t => t.tick.phase = .sealing ∧
      (s.sealStart ≤ k.ns →
        (∀ c, c ∈ s.clusters.map (·.1) → s.overran c = true → ⟨1, .cluster c⟩ ∈ t.tick.faults) ∧
        (∀ x ∈ s.lostSlots, ⟨2, .link x.2⟩ ∈ t.tick.faults) ∧ (s.requestsLate ≠ [] → ⟨4, .none⟩ ∈ t.tick.faults)) ∧
      (k.gateSeen = true → ⟨0xA, .device⟩ ∈ t.tick.faults) ∧ t.fabric.armed = [] ∧ t.mem = s.mem)) ∧
    (k.phase ≠ .repair → k.phase ≠ .waiting → exec .sealStart s = .next s) ∧
    (s.isBackup = true → k.joined = true → k.selfFailed = false → 1 ≤ k.silent → bit (s.rd R.spnRole) 4 = false →
      Gives .keystoneTakeover s (fun t => t.tick.keystone = true ∧ t.tick.epoch = k.epoch + 1 ∧ Signals t .tck 0 2 ∧
        (∀ x, k.last = some x → x.tick = k.count → k.echoSent = none → x.attempt + 1 ≤ s.fld R.tckCtl 23 16 →
          t.tick.count = k.count ∧ t.tick.attempt = x.attempt + 1 ∧ t.tick.phase = .opening ∧ t.mem = s.mem))) ∧
    (s.isBackup = false ∨ k.joined = false ∨ k.silent = 0 → exec .keystoneTakeover s = .next s)

/-- R46, R47, R56, R58 to R60 and Table 02-5: a child's vote is merged, and once every child has reported the vote goes up;
at the deadline a missing child counts as failed; the keystone decides STOP, RERUN or COMMIT, and the backup echoes; in
tick-stretch mode the seal waits for its marker, and a halted group is reported. Completes: VOTE, VOTE_DEADLINE, ECHO, ECHO_DEADLINE,
HALT_REPORT, STRETCH_SEAL_MARKER, DBG_MAX_EXPIRY. Where it rests on the model's own choices or readings: logs 11, 12, 25 and 26. -/
def Obligations.VotesAndVerdicts : Prop :=
  ∀ (s : State) (i : Fin 16) (a : Arrival) (v : Vote),
    let k := s.tick
    let r := (s.receive i 7 a).1
    let good := (s.receive i 7 a).2 = .good
    let now := v.tick = k.count ∧ v.attempt = k.attempt
    let sum : VoteSum := ⟨v.fail, v.escalate, v.count, v.code, v.unit, v.device⟩
    let all := k.votes.merge s.ownVote
    let missing := k.children.filter (fun p => !k.reported.contains p)
    let verdict := if all.escalate || decide (s.fld R.tckCtl 23 16 ≤ k.attempt) then 3
      else if all.fail then (if k.stopAsked && !s.power.dozeAsked then 3 else 2) else if k.stopAsked then 3 else 1
    (good → v.kind = 0 → now → k.phase ≠ .none →
      (k.voteSent = false → i.val ∉ k.reported → k.phase ≠ .sealing → exec (.vote i a v) s = .next (r.modTick (fun t => { t with
        children := addOnce t.children i, reported := t.reported ++ [i.val], votes := t.votes.merge sum }))) ∧
      (k.voteSent = true ∨ i.val ∈ k.reported → exec (.vote i a v) s = .next (r.modTick (fun t => { t with
        children := addOnce t.children i })))) ∧
    (good → v.kind = 0 → ¬now ∨ k.phase = .none → exec (.vote i a v) s = .next r) ∧
    (k.phase = .sealing → k.voteSent = false →
      (missing = [] → k.keystone = true → Gives .voteDeadline s (fun t => t.tick.voteSent = true ∧ t.tick.decision = some verdict ∧
        t.tick.treeKnown = true ∧ t.tick.fails = k.fails ∧ t.mem = s.mem)) ∧
      (missing = [] → k.keystone = false → CanSend s s.parentPort 7 → Gives .voteDeadline s (fun t => t.tick.voteSent = true ∧
        t.out = s.out ++ [.frame s.parentPort (s.carrier s.parentPort (.vote (s.voteOf all)))] ∧ t.mem = s.mem)) ∧
      (∀ p ∈ missing, Gives .voteDeadline s (fun t => ⟨6, .link p⟩ ∈ t.tick.faults ∧ t.tick.voteSent = true ∧ t.mem = s.mem))) ∧
    (k.phase ≠ .sealing ∨ k.voteSent = true → exec .voteDeadline s = .next s) ∧
    (good → v.kind = 1 → now →
      (k.keystone = true → k.decision = some v.verdict → exec (.echo i a v) s = .next (r.modTick (fun t => { t with echoed := true }))) ∧
      (k.keystone = true → k.decision ≠ some v.verdict → exec (.echo i a v) s = .next r) ∧
      (k.keystone = false → s.isBackup = true → exec (.echo i a v) s =
        .next ((r.modTick (fun t => { t with echoSent := some v.verdict })).sendVote i v))) ∧
    (good → v.kind = 1 → ¬now → exec (.echo i a v) s = .next r) ∧
    (k.keystone = true → k.phase = .sealing → k.decision ≠ none → s.hasBackup = true →
      (k.echoed = false → exec .echoDeadline s = .next (s.violate .tck 0 ⟨Config.missingEchoCode, 16, 0, 2, 0⟩)) ∧
      (k.echoed = true → exec .echoDeadline s = .next s)) ∧
    (good → v.kind = 2 → Gives (.haltReport i a v) s (fun t => (i.val ∈ t.tick.haltedBelow ↔ v.halted = true) ∧
      (∀ p, p ≠ i.val → (p ∈ t.tick.haltedBelow ↔ p ∈ k.haltedBelow)) ∧ t.clusters = s.clusters ∧ t.mem = s.mem)) ∧
    (k.keystone = true → k.stretchEff = true → k.phase = .repair → s.anyHalted = false → Gives .stretchSealMarker s (fun t =>
      t.tick.phase = .sealing ∧ t.tick.count = k.count ∧ t.tick.attempt = k.attempt ∧ t.mem = s.mem)) ∧
    (s.anyHalted = true → exec .stretchSealMarker s = .next s) ∧
    (k.keystone = true → s.anyHalted = true → s.running = true →
      (k.stretchEff = false → exec .dbgMaxExpiry s = .next (s.modTick (fun t => { t with stopAsked := true }))) ∧
      (k.stretchEff = true → k.phase = .body ∨ k.phase = .repair → exec .dbgMaxExpiry s =
        .next (s.modTick (fun t => { t with phase := .sealing, voteSent := true, decision := some 3 })))) ∧
    (s.anyHalted = false → exec .dbgMaxExpiry s = .next s)

/-- R178, R179, R196, R265 to R271, R284 and Table 06-8: a record of the window is taken once and answered: the keeper's
section is built, its share and state are written to their extents or withheld until admission, END closes the stream, and a
record for another keeper goes on. Admission installs the image with memory cleared and its contexts DONE, or discards the
section. The share's verdict is OK once every STATE byte has come, or BAD with the share cleared. While the span runs, a record
waits. Completes: SECTION_RECORD, SHARE_RECORD, STATE_RECORD, END_RECORD, SHARE_VERDICT, REFILL_TIMEOUT, ADMISSION_COMPLETE. Where it
rests on the model's own choices or readings: logs 22 and 23. -/
def Obligations.ImageLoad : Prop :=
  ∀ (s : State) (i : Fin 16) (r : LoadRecord) (c : Fin 512),
    let w := s.window r.chain
    let inside := w.1 ≤ r.number ∧ r.number < w.1 + 256 ∧ r.number ∉ w.2 ∧ AtRest s
    let fresh := inside ∧ s.mayLoad = true
    let withheld := s.modLoad (fun l => { l with held := l.held ++ [⟨r, i.val, none, none⟩] })
    let mine := r.keeper = s.rd R.spnPos
    let noted := s.noteRecord r.chain r.number
    let reply := fun (n : Nat) => Out.recordReply i r.chain r.number n
    let load : Instr := match r.kind with
      | 1 => .sectionRecord i r
      | 2 => .shareRecord i r
      | 3 => .stateRecord i r
      | _ => .endRecord i r
    let known := 1 ≤ r.kind ∧ r.kind ≤ 4
    let share := s.rangeAddrs s.image.shareExtents r.offset r.payload.length
    let state := s.rangeAddrs s.image.stateExtents r.offset r.payload.length
    let stored := fun (as : List Nat) (P : State → Prop) => Gives load s (fun t => t.mem = storedIn s.mem (as.zip r.payload) ∧
      t.load.verdict = max 1 s.load.verdict ∧ reply 0 ∈ t.out ∧ P t)
    let lost := s.rangeAddrs s.image.shareExtents 0 s.image.shareLen
    let bad := fun (i : Instr) => Gives i s (fun t => t.load.verdict = 3 ∧ (∀ a ∈ lost, t.byte a = 0#8) ∧
      (∀ a, a ∉ lost → t.byte a = s.byte a) ∧ Signals t .wld 0 1 ∧ t.image = s.image ∧ t.load.section_ = s.load.section_)
    let ok := shareDigest (joinRuns s.load.share) = s.image.shareDigest ∧ s.load.shareBytes = s.image.shareLen
    let done := s.load.stateBytes = natSum (s.image.stateExtents.map (·.len))
    let b := joinRuns s.load.section_
    let admits := s.image.admitDone = false ∧ s.load.section_ ≠ [] ∧ s.load.verdict = 1 ∧ s.mayLoad = true ∧ s.load.held = [] ∧
      AtRest s
    let refused := fun (k n : Nat) (P : State → Prop) => Gives .admissionComplete s (fun t => t.image.admitDone = true ∧
      t.image.admitPass = false ∧ t.image.loaded = false ∧ t.image.admitCheck = k ∧ t.image.admitItem = n % 65536 ∧
      t.load.section_ = [] ∧ Signals t .spn 0 1 ∧ t.clusters = s.clusters ∧ t.mem = s.mem ∧ P t)
    (known → fresh → mine →
      (r.kind = 1 → s.image.admitDone = false → s.load.verdict ≠ 0 → exec load s =
        .next ((noted.modLoad (fun l => { l with section_ := mput l.section_ r.offset r.payload })).send (reply 0))) ∧
      (r.kind = 1 → s.image.admitDone = true ∨ s.load.verdict = 0 → Gives load s (fun t =>
        t.load.section_ = mput [] r.offset r.payload ∧ t.load.verdict = 1 ∧ t.image.admitDone = false ∧ t.image.loaded = false ∧
        t.out = s.out ++ [reply 0] ∧ t.mem = s.mem)) ∧
      (r.kind = 2 ∨ r.kind = 3 → s.image.admitDone = false → exec load s = .next withheld) ∧
      (r.kind = 2 → r.xor = false → s.image.admitDone = true → s.image.admitPass = true → stored share (fun t =>
        t.load.shareBytes = s.load.shareBytes + r.payload.length ∧ mget [] t.load.share r.offset = r.payload)) ∧
      (r.kind = 3 → s.image.admitDone = true → s.image.admitPass = true → stored state (fun t =>
        t.load.stateBytes = s.load.stateBytes + r.payload.length)) ∧
      (r.kind = 2 ∨ r.kind = 3 → s.image.admitDone = true → s.image.admitPass = false → exec load s =
        .next ((noted.cnt R.wldChainErr).send (reply 0))) ∧
      (r.kind = 4 → exec load s = .next ((noted.modLoad (fun l => { l with ended := true })).send (reply 0)))) ∧
    (known → fresh → ¬mine →
      (∀ e, s.chainOf r.chain = some e → s.chainVia e ≠ none → r.xor = false ∨ s.chainRole e ≠ 3 → exec load s =
        .next ((noted.sendRecord e r).send (reply 0)).pump) ∧
      (∀ e, s.chainOf r.chain = some e → s.chainVia e ≠ none → r.xor = true → s.chainRole e = 3 → exec load s =
        .next ((noted.sendRecord e (noted.parity r)).send (reply 0)).pump) ∧
      (s.chainOf r.chain = none ∨ (∃ e, s.chainOf r.chain = some e ∧ s.chainVia e = none) →
        exec load s = .next ((noted.cnt R.wldChainErr).send (reply 0)))) ∧
    (known → inside → s.mayLoad = false → exec load s = .next withheld) ∧
    (known → AtRest s → (r.number < w.1 ∨ w.1 + 256 ≤ r.number → exec load s = .next ((s.cnt R.wldChainErr).send (reply 0x47))) ∧
      (w.1 ≤ r.number → r.number < w.1 + 256 → r.number ∈ w.2 → exec load s = .next (s.send (reply 0)))) ∧
    (r.kind ≠ 1 → exec (.sectionRecord i r) s = .next s) ∧ (r.kind ≠ 2 → exec (.shareRecord i r) s = .next s) ∧
    (r.kind ≠ 3 → exec (.stateRecord i r) s = .next s) ∧ (r.kind ≠ 4 → exec (.endRecord i r) s = .next s) ∧
    (s.load.ended = true → s.image.admitPass = true → s.load.verdict ≤ 1 →
      (ok → done → exec .shareVerdict s = .next ((s.modLoad (fun l => { l with verdict := 2 })).event .wld 0 1)) ∧
      (ok → ¬done → exec .shareVerdict s = .next s) ∧ (¬ok → bad .shareVerdict)) ∧
    (s.load.ended = false ∨ s.image.admitPass = false ∨ 1 < s.load.verdict → exec .shareVerdict s = .next s) ∧
    (s.load.verdict ≤ 1 → bad .refillTimeout) ∧
    (2 ≤ s.load.verdict → exec .refillTimeout s = .next s) ∧
    (admits →
      (∀ k n, s.admission b = some (k, n) → refused k n (fun _ => True)) ∧
      (s.admission b = none → s.sparesShort = true → refused 0 0 (fun t => t.load.clustersShort = true)) ∧
      (s.admission b = none → s.sparesShort = false → Gives .admissionComplete s (fun t => t.image.admitPass = true ∧
        t.image.loaded = true ∧ t.image.self = secSelf b ∧ Signals t .spn 0 1 ∧ (∀ a, a < 2 ^ 31 → t.byte a = 0#8) ∧
        (∀ p ∈ (t.cluster c).ctxs, p.2.state = .done ∧ p.2.program = 0) ∧ (t.cluster c).groups = [] ∧
        (t.cluster c).leases = [0#32, 0#32, 0xFFFFFFFF#32, 0#32] ∧ t.tick.joined = false ∧ t.tick.dead = []))) ∧
    (s.image.admitDone = true ∨ s.load.section_ = [] ∨ s.mayLoad = false → exec .admissionComplete s = .next s)

/-- R25, R27, R263, R289, R290, R292, R294 to R297, R302, R305, R308, R309, R310: a configuration request, a BAR2 or misaligned
access is answered or counted; a completed read reaches its use and a failed one stops its queue; a fetched NOP or SUBMIT is
checked and acts; an invalidation ends once nothing it meets is left; held writes leave as credits return, and a stream whose
completion entry leaves falls free; an unmasked vector sends the message it held. Completes: CONFIG_REQUEST, BAR2_WRITE,
RESULT_SLOT_READ, BAR0_BAD_ACCESS, HOST_READ_COMPLETION, COMPLETION_TIMEOUT, NOP, SUBMIT, INVALIDATE_COMPLETE, CREDIT_STALL,
POSTED_CREDIT_RETURN, MSIX_UNMASK. Where it rests on the model's own choices or readings: logs 6, 16, 21 and 31. -/
def Obligations.HostRequests : Prop :=
  ∀ (s : State) (fn : Fin 256) (q : Fin 64) (addr len tag n id pa : Nat) (wr : Bool) (data : List Byte) (bad : HostRead)
    (v : Fin 2048) (e : List Byte) (j : Submit) (part : Nat) (port : Nat) (h : RHead) (b : Access) (y : Part),
    let f := s.fn fn
    let x := s.queue fn q
    let left := s.host.reads.filter (fun r => r.1 != tag)
    let waits := fun (u : ReadUse) => AtRest s ∧ s.host.readq = [] ∧ s.fabric.atomics = [] ∧
      s.host.reads.find? (fun r => r.1 == tag) = some (tag, fn.val, addr, u)
    let slot := s.slotOf fn (addr / 256)
    let within := 1 ≤ len ∧ addr % 256 + len ≤ 256 ∧ addr < 1048576
    let fails := fun (i : Instr) (k : Nat) => Gives i s (fun t => t.host.reads = left ∧ (t.queue fn q).state = .stopped ∧
      (t.queue fn q).status = 9 ∧ (t.queue fn q).fetching = false ∧ Out.aer k ∈ t.out ∧ Signals t .hsq (fn * 64 + q) 1 ∧
      t.mem = s.mem)
    let misaligned := ¬((len = 4 ∨ len = 8) ∧ addr % len = 0)
    let fetched := x.fetched = some e ∧ x.state = .run ∧ s.fnUp fn = true
    let refused := ((s.modQueue fn q (fun z => { z with fetched := none })).refuse fn q e (s.checkEntry fn e) 0).fetch fn q
    let p := (pages (cmdAt e 0x10 8) (cmdAt e 8 4) false ++ pages (cmdAt e 0x18 8) (cmdAt e 12 4) true).head?
    let taken := s.modQueue fn q (fun z => { z with fetched := none })
    (s.power.released = true → exec (.configRequest fn) s =
      .next ((s.modHost (fun z => { z with configs := z.configs + 1 })).send (.config fn (f.ready && !f.flr)))) ∧
    (s.power.released = false → exec (.configRequest fn) s = .next s) ∧
    exec (.bar2Write fn addr) s = .next (s.cnt R.hstRelBad fn) ∧
    (within → exec (.resultSlotRead fn addr len) s = .next (s.send (.bar2Data fn (((padTo 256
      (if slot.state = 0 then leBytes 2 slot.generation ++ [0#8] else slot.bytes)).drop (addr % 256)).take len)))) ∧
    (¬within → exec (.resultSlotRead fn addr len) s = .next (s.send (.bar2Data fn (zeros len)))) ∧
    (misaligned → exec (.bar0BadAccess .pf addr len false) s = .next (s.send (.regData .pf addr 0#32 none)) ∧
      ((pageAt (addr / 4096)).isSome = true → addr / 4096 < 0x4000 → exec (.bar0BadAccess .pf addr len true) s =
        .next ((s.violateAll (addr / 4096) ⟨0x10, 0, 0, 0, spanReg s.self addr⟩ []).send (.denied .pf addr))) ∧
      (addr / 4096 ≤ 8 → exec (.bar0BadAccess (.vf fn) addr len true) s =
        .next ((s.violateAll (0x4000 + 16 * fn + addr / 4096) ⟨0x10, 1, fn, 1, addr % 2 ^ 20⟩ []).send (.denied (.vf fn) addr)))) ∧
    (¬misaligned → exec (.bar0BadAccess .pf addr len wr) s = .next s) ∧
    (waits (.entry fn q) → exec (.hostReadCompletion tag (.ok data)) s =
        .next ((s.modHost (fun y => { y with reads := left })).modQueue fn q (fun y => { y with
          fetching := false, fetched := some (padTo 64 data), head := (y.head + 1) % 2 ^ y.size })) ∧
      (bad = .poisoned → fails (.hostReadCompletion tag bad) 1) ∧
      ((∀ d, bad ≠ .ok d) → bad ≠ .poisoned → fails (.hostReadCompletion tag bad) 0) ∧ fails (.completionTimeout tag) 0) ∧
    (waits (.kind3 id 0) → s.host.kind3s.find? (fun k => k.id == id) = some ⟨id, port, h, b, [], [(pa, y)], []⟩ → port ≠ 17 →
      b.op = 0 → exec (.hostReadCompletion tag (.ok data)) s =
        .next (((s.modHost (fun z => { z with reads := left })).dropKind3 id).respond false h b 0 0 (padTo y.len data)).pump) ∧
    (waits (.input fn q part) → x.job = some j →
      (mput j.got part (padTo ((j.parts.getD part (0, ⟨0, 0, false⟩)).2.len) data)).length = j.parts.length →
      s.checkEntry fn j.entry = 0 → Gives (.hostReadCompletion tag (.ok data)) s (fun t =>
        (t.queue fn q).job = none ∧ (∃ id z, t.stream id = some z ∧ z.tenant = fn.val ∧ z.cls = cmdAt j.entry 5 1 ∧
          ∀ k, k ≠ id → t.stream k = s.stream k) ∧
        (bit (cmdAt j.entry 1 1) 0 = true → (t.slotOf fn (cmdAt j.entry 6 2)).state = 1) ∧ t.mem = s.mem)) ∧
    (s.host.reads.find? (fun r => r.1 == tag) = none →
      exec (.hostReadCompletion tag (.ok data)) s = .next s ∧ exec (.completionTimeout tag) s = .next s) ∧
    (fetched → cmdAt e 0 1 ≠ 2 →
      (s.checkEntry fn e = 0 → s.inTick = true → Gives (.nop fn q) s (fun t => (t.queue fn q).fetched = none ∧
        t.svc.egress = s.svc.egress ++ [.nop fn q (cmdAt e 4 1) (cmdAt e 2 2)] ∧ t.mem = s.mem)) ∧
      (s.checkEntry fn e ≠ 0 → exec (.nop fn q) s = .next refused) ∧ exec (.submit fn q) s = .next s ∧
      (s.checkEntry fn e = 0 → s.inTick = false → exec (.nop fn q) s = .next
        ((taken.complete fn (cmdAt e 4 1) ⟨s.tick.count, none, entryOf (cmdAt e 2 2) 0xFFFF 0 q 0 s.tick.count 0 s.time.quality 0⟩).fetch
          fn q))) ∧
    (fetched → cmdAt e 0 1 = 2 →
      (s.checkEntry fn e ≠ 0 → exec (.submit fn q) s = .next refused) ∧ exec (.nop fn q) s = .next s ∧
      (∀ z, s.checkEntry fn e = 0 → p = some z → s.hit fn (s.va fn z.off) z.write = none → s.rootOn fn = true →
        s.inBars (s.root fn) 4096 = false → s.host.reads.length < 1024 → Gives (.submit fn q) s (fun t => (t.queue fn q).fetched = none ∧
          (t.queue fn q).job = some ⟨e, [], []⟩ ∧ t.host.walkIds = s.host.walkIds + 1 ∧
          t.out = s.out ++ [.hostRead s.host.tags (entryAddr (s.root fn) (s.va fn z.off) 1) 8] ∧
          (∃ w ∈ t.host.walks, w.id = s.host.walkIds ∧ w.tenant = fn.val ∧ w.part = z ∧ w.level = 1 ∧ w.table = s.root fn ∧
            w.use = .submit fn q ∧ w.stale = false) ∧ Counts s t R.xltWalks 0 1 ∧ t.mem = s.mem))) ∧
    (x.fetched = none → exec (.nop fn q) s = .next s ∧ exec (.submit fn q) s = .next s) ∧
    (∀ k, s.host.inval = some k → (∀ w ∈ s.host.walks, w.stale = false) → (∀ o ∈ s.host.held, o.meets k = false) →
      s.svc.egress = [] → exec .invalidateComplete s = .next (s.modHost (fun y => { y with inval := none }))) ∧
    ((∃ w ∈ s.host.walks, w.stale = true) ∨ s.host.inval = none → exec .invalidateComplete s = .next s) ∧
    exec .creditStall s = .next ((s.cnt R.hstCreditStall).modHost (fun y => { y with stalled := true })) ∧
    Gives (.postedCreditReturn n) s (fun t => t.out = s.out ++ (s.host.held.take n).map (·.out) ∧
      t.host = { s.host with held := s.host.held.drop n, stalled := !(s.host.held.drop n).isEmpty } ∧ t.regs = s.regs ∧
      (∀ k, t.stream k = if (s.host.held.take n).any (fun o => o.stream == some k) then none else s.stream k) ∧ t.mem = s.mem) ∧
    (fn.val = 0 ∨ v.val < 8 → Gives (.msixUnmask fn v) s (fun t => v.val ∈ (t.fn fn).unmasked ∧
      v.val ∉ (t.fn fn).pendingMsg ∧ t.mem = s.mem ∧ (v.val ∉ f.pendingMsg → t.out = s.out) ∧
      (v.val ∈ f.pendingMsg → f.flr = false → s.host.stalled = false → t.out = s.out ++ [.msix fn v]))) ∧
    (fn.val ≠ 0 → 8 ≤ v.val → exec (.msixUnmask fn v) s = .next s)

/-- R312, R313, R370, R371, R391, R451: a reset or disabled function abandons what it asked for, its queues are OFF, its
pages at reset values, and its tenant is withdrawn at once or at the next committing seal; it is ready again once that is
done; every byte its tenant owned becomes 0. Completes: FLR, VF_DISABLE, PF_FLR, HOST_PORT_RESET, PCIE_LINK_RETURNS_TO_L0,
FLR_COMPLETE, ZEROING_COMPLETE. Where it rests on the model's own choices or readings: logs 6 and 31. -/
def Obligations.FunctionReset : Prop :=
  ∀ (s : State) (fn vf : Fin 256) (q off a : Nat),
    let f := s.fn fn
    let calm := AtRest s ∧ s.host.reads = [] ∧ s.host.readq = [] ∧ s.host.walks = [] ∧ s.host.kind3s = [] ∧ s.fabric.atomics = []
    let cleared := fun (t : State) (keep : Nat → Bool) => ∀ k, keep (k / 1024 % 65536) = false → mfind t.regs k = none
    let down := fun (t : State) (n : Nat) => (t.fn n).flr = true ∧ (t.fn n).ready = false ∧
      ∀ q, q < queuesOf n → (t.queue n q).state = .off
    let runs := s.clusters.flatMap (fun k => (k.2.handles.filter (fun h => hOwner h.2 == fn.val)).flatMap (fun h => ownedRuns k.1 h.2))
    (calm → fn.val ≠ 0 → f.flr = false → Gives (.flr fn) s (fun t => down t fn ∧ cleared t (notOwn fn) ∧ t.mem = s.mem ∧
      (s.dozing = false → s.tick.state = .idle ∨ s.tick.state = .hold → fn.val ∈ t.tick.dead ∧ (t.fn fn).zeroing = true ∧
        Signals t .hst 0 0) ∧
      (s.tick.state = .run ∨ s.tick.state = .stretch → fn.val ∈ t.tick.withdrawals ∧ t.tick.dead = s.tick.dead))) ∧
    (calm → fn.val = 0 → f.flr = false → Gives (.flr fn) s (fun t => down t 0 ∧ cleared t (notOwn 0) ∧
      (vf.val ≠ 0 → (s.fn vf).ready = true → (s.fn vf).flr = false → down t vf) ∧ t.mem = s.mem)) ∧
    (calm → Gives .vfDisable s (fun t => (t.fn 0).flr = (s.fn 0).flr ∧
      (vf.val ≠ 0 → (s.fn vf).ready = true → (s.fn vf).flr = false → down t vf ∧ cleared t (notOwn vf)) ∧ t.mem = s.mem)) ∧
    (calm → (s.fn 0).flr = false → Gives .pfFlr s (fun t => down t 0 ∧
      cleared t (fun pg => notOwn 0 pg && decide (pg < 0x4000)) ∧
      (vf.val ≠ 0 → (s.fn vf).ready = true → (s.fn vf).flr = false → down t vf) ∧ t.mem = s.mem)) ∧
    (calm → s.power.released = true → (s.fn 0).flr = false → Gives .hostPortReset s (fun t => down t 0 ∧
      t.host.linkUp = false ∧ t.power.rstCause = 8 ∧ (vf.val ≠ 0 → (s.fn vf).ready = true → (s.fn vf).flr = false → down t vf) ∧
      cleared t (fun pg => notOwn 0 pg && decide (pg < 0x4000) && pg != 6) ∧ t.mem = s.mem)) ∧
    (s.power.released = false → exec .hostPortReset s = .next s) ∧
    (s.power.on = true → s.power.released = true → exec .pcieLinkReturnsToL0 s =
      .next (s.modHost (fun y => { y with linkUp := true, configs := y.configs + 1 }))) ∧
    (s.power.on = false ∨ s.power.released = false → exec .pcieLinkReturnsToL0 s = .next s) ∧
    (f.flr = true → f.zeroing = false → fn.val ∉ s.tick.withdrawals → s.host.linkUp = true → exec (.flrComplete fn) s =
      .next (s.modFn fn (fun _ => { Function.reset with ready := true }))) ∧
    (f.flr = false ∨ f.zeroing = true ∨ fn.val ∈ s.tick.withdrawals ∨ s.host.linkUp = false → exec (.flrComplete fn) s = .next s) ∧
    (f.zeroing = true → Gives (.zeroingComplete fn) s (fun t => t.fn fn = { f with zeroing := false } ∧
      ((∃ r ∈ runs, r.1 ≤ a ∧ a < r.1 + r.2) → t.byte a = 0#8) ∧
      ((∀ r ∈ runs, ¬(r.1 ≤ a ∧ a < r.1 + r.2)) → t.byte a = s.byte a) ∧ t.clusters = s.clusters ∧ t.tick = s.tick)) ∧
    (f.zeroing = false → exec (.zeroingComplete fn) s = .next s)

/-- R225, R367, R369, R370, R372, R397, R433, R435 and Tables 14-2 and 14-3: what each reset clears and keeps, and its
cause; the first second: release with the straps, the island's lines, BIST with its marked clusters, the firmware copy that
boots, or RECOVERY with PF0 alone. Completes: COLD_RESET, POWER_REMOVAL, SYS_RST_N_ASSERT, RESET_RELEASE, ISLAND_BOOTED,
BIST_COMPLETE, FIRMWARE_LOADED. Where it rests on the model's own choices or readings: logs 6, 10 and 32. -/
def Obligations.ResetsAndBoot : Prop :=
  ∀ (s : State) (strap n : Nat) (id : Fin 64) (b : Bist) (f : Sfdp) (x y : FwCopy) (fn : Fin 256),
    let gone := fun (t : State) => t.regs = [] ∧ t.eff = [] ∧ t.mem = [] ∧ t.clusters = [] ∧ t.ports = [] ∧ t.tick = Tick.reset ∧
      t.image = Image.reset ∧ t.host = { HostPort.reset with configs := s.host.configs + 1 } ∧ t.svc = Service.reset ∧ t.time = TimeUnit.reset ∧
      t.flash.bytes = s.flash.bytes ∧ t.trestle.strap = s.trestle.strap ∧ t.out = s.out ∧ t.pending = s.pending
    let recovers := fun (i : Instr) => Gives i s (fun t => t.power.state = .recovery ∧ t.power.bootFail = true ∧
      (t.fn 0).ready = true ∧ t.island.firmware = s.island.firmware ∧ (fn.val ≠ 0 → (t.fn fn).ready = (s.fn fn).ready))
    let tests := s.power.released = true ∧ s.power.state = .boot ∧ s.power.bistDone = false
    let loads := s.power.state = .boot ∧ s.power.bistDone = true
    let useB := copyGood y && (!copyGood x || decide (x.version < y.version))
    Gives .coldReset s (fun t => gone t ∧ t.power = { Power.reset with rstCause := 1 + 16 * b2n s.island.kill } ∧
      t.island = Island.reset) ∧
    Gives .powerRemoval s (fun t => gone t ∧ t.power = { Power.reset with rstCause := 0, on := false } ∧ t.island = Island.reset) ∧
    (s.power.on = true → Gives .sysRstNAssert s (fun t => gone t ∧
      t.power = { Power.reset with rstCause := 2, released := false } ∧ t.tag = s.tag ∧
      t.island.records = s.island.records ∧ t.island.alert = s.island.alert ∧ t.island.kill = s.island.kill ∧
      t.island.causes = [0] ∧ t.island.ready = false)) ∧
    (s.power.on = false → exec .sysRstNAssert s = .next s) ∧
    (s.power.on = true → s.power.released = false → exec (.resetRelease id) s = .next { s with
      power := { s.power with released := true, uptime := 0 }, trestle := { s.trestle with strap := id.val } }) ∧
    (s.power.on = false ∨ s.power.released = true → exec (.resetRelease id) s = .next s) ∧
    (s.power.released = true → s.island.ready = false → 1 ∉ s.island.causes → Gives .islandBooted s (fun t =>
      t.island.ready = true ∧ t.tag.ready = true ∧ (∀ p, s.optical p = true → (p, 0) ∉ t.island.lines ∧
        (t.islandLine p = true ↔ ∃ r, r ≠ 0 ∧ (p, r) ∈ s.island.lines)) ∧ SameArray s t ∧ t.regs = s.regs)) ∧
    (s.power.released = false ∨ s.island.ready = true → exec .islandBooted s = .next s) ∧
    (tests → b.fatal = false → f.sigOk = true → 16 ≤ f.mib → Gives (.bistComplete b f) s (fun t => t.mem = [] ∧ t.ecc = [] ∧
      t.power = { s.power with bistDone := true } ∧ t.flash.width = flashWidth f ∧
      t.flash.clock = min 100 (s.fld R.btfMaxMhz 6 0) ∧
      (∀ c ∈ b.badClusters, t.cluBad c.val = true) ∧ (∀ k, k < 544 → s.cluBad k = true → t.cluBad k = true))) ∧
    (tests → b.fatal = true ∨ f.sigOk = false ∨ f.mib < 16 → recovers (.bistComplete b f)) ∧
    (¬tests → exec (.bistComplete b f) s = .next s) ∧
    (loads → copyGood x = false → copyGood y = false → recovers (.firmwareLoaded x y)) ∧
    (loads → copyGood x = true ∨ copyGood y = true → Gives (.firmwareLoaded x y) s (fun t => t.power.state = .active ∧
      t.island.firmware = true ∧ (t.fn fn).ready = true ∧ t.host.linkUp = true ∧ t.flash.aValid = copyGood x ∧
      t.flash.bValid = copyGood y ∧ t.flash.booted = b2n useB ∧ t.flash.version = (if useB then y.version else x.version) ∧
      t.tag.boots = s.tag.boots + 1 ∧ t.mem = s.mem ∧ t.regs = s.regs ∧
      (∀ p, p < 16 → (s.port p).state = .quiet →
        (s.modIsland (fun i => { i with firmware := true })).portMayRun p = true → (t.port p).state = .detect) ∧
      (∀ p, (s.port p).state ≠ .quiet → t.port p = s.port p))) ∧
    (¬loads → exec (.firmwareLoaded x y) s = .next s)

/-- R408, R433 to R441 and Tables 16-8 to 16-11: a tag read returns 16 bytes that wrap; a write of a block a reader may
write begins its commit and any other has a NAK, as has a command with a CRC error; a commit ends with the block's new data,
and one cut off leaves the old or the new; operations wait while one runs; the island stores its records and the device its
service record; a flash operation erases, programs or reads. Completes: TAG_READ, READ_WIDE, GET_STATE, TAG_WRITE, WRITE_BLOCK,
TAG_COMMIT_COMPLETE, FIELD_COLLAPSE, BLACK_BOX_WRITE, SERVICE_RECORD_UPDATE, FLASH_OPERATION_COMPLETE. Where it rests on the
model's own choices or readings: logs 4 and 38. -/
def Obligations.TagAndFlash : Prop :=
  ∀ (s : State) (page blk a : Nat) (data : List Byte) (p : TearPoint) (reader : Bool) (r : FaultRecord),
    let u := s.modTag (fun t => { t with field := true })
    let idle := s.tag.op = none
    let begins := fun (i : Instr) (b : Nat) (d : List Byte) => exec i s = .next (u.modTag (fun t => { t with op := some (b, d, true) }))
    let nak := fun (i : Instr) => exec i s = .next (u.tagNak 0)
    let waits := fun (i : Instr) (j : TagJob) => exec i s = .next (u.modTag (fun t => { t with queue := t.queue ++ [j] }))
    let old := (s.tagBlock (page / 4)).data
    let same := fun (t : State) (b : Nat) => ∀ k, k ≠ b → t.tagBlock k = s.tagBlock k
    let left := fun (t : State) (n : Nat) => ∀ k, (k < a ∨ a + n ≤ k) → t.flashByte k = s.flashByte k
    (idle →
      (page < 256 → exec (.tagRead page true) s = .next (u.send (.tagData (s.tagPages page 256)))) ∧
      (256 ≤ page → nak (.tagRead page true)) ∧
      (page < 512 → exec (.readWide page true) s = .next (u.send (.tagData (s.tagPages page 512)))) ∧
      (512 ≤ page → nak (.readWide page true)) ∧
      exec (.getState true) s = .next (u.send (.tagData (leBytes 4 s.tag.commits ++ (s.tagBlock 32).data.take 2 ++
        leBytes 1 (b2n s.power.on) ++ zeros 9))) ∧
      (page < 256 → data.length = 4 → old.length = 16 → s.tagWritable (page / 4) = true → page / 4 ≠ 63 →
        begins (.tagWrite page data true) (page / 4) (old.take (page % 4 * 4) ++ data ++ old.drop (page % 4 * 4 + 4))) ∧
      (256 ≤ page ∨ data.length ≠ 4 ∨ s.tagWritable (page / 4) = false → nak (.tagWrite page data true)) ∧
      (blk < 128 → data.length = 16 → s.tagWritable blk = true → blk ≠ 63 → begins (.writeBlock blk data true) blk data) ∧
      (128 ≤ blk ∨ data.length ≠ 16 ∨ s.tagWritable blk = false → nak (.writeBlock blk data true)) ∧
      (data.length = 16 → (data.drop 1).all (fun x => x == 0#8) = true →
        begins (.writeBlock 63 data true) 63 (((data.getD 0 0#8) ||| BitVec.ofNat 8 s.tagLock) :: zeros 15))) ∧
    (s.tag.op ≠ none → waits (.tagRead page true) (.read page 256) ∧ waits (.readWide page true) (.read page 512) ∧
      waits (.getState true) .state ∧ waits (.tagWrite page data true) (.page page data) ∧ waits (.writeBlock blk data true) (.block blk data)) ∧
    (∀ i ∈ ([.tagRead page false, .readWide page false, .getState false, .tagWrite page data false, .writeBlock blk data false] :
      List Instr), exec i s = .next (u.tagNak 1)) ∧
    (idle → exec .tagCommitComplete s = .next s) ∧
    (s.tag.op = some (blk, data, reader) → s.tag.queue = [] → Gives .tagCommitComplete s (fun t => t.tag.op = none ∧
      (t.tagBlock blk).data = data ∧ (t.tagBlock blk).counter = (s.tagBlock blk).counter + 1 ∧ same t blk ∧
      t.tag.commits = s.tag.commits + 1 ∧
      (reader = true → t.out = s.out ++ [.tagAck] ∧ Counts s t R.tagReaderWr 0 1) ∧ (reader = false → t.out = s.out))) ∧
    (s.tag.op = some (blk, data, true) → s.tag.queue = [] → Gives (.fieldCollapse p) s (fun t => t.tag.op = none ∧
      t.tag.field = false ∧ same t blk ∧
      ((t.tagBlock blk).data = (s.tagBlock blk).data ∨ (t.tagBlock blk).data = data) ∧
      (p = .command ∨ p = .erase ∨ p = .program → (t.tagBlock blk).data = (s.tagBlock blk).data) ∧
      (p = .reply → (t.tagBlock blk).data = data))) ∧
    (idle → exec (.fieldCollapse p) s = .next (s.modTag (fun t => { t with field := false }))) ∧
    (s.power.on = true → s.island.copied ≠ s.island.recHead → idle → s.tag.queue = [] →
      s.island.records.find? (fun x => x.number == s.island.copied) = some r → Gives .blackBoxWrite s (fun t =>
        t.tag.op = some (16 + r.number % 16, r.bytes, false) ∧ t.tag.queue = [.head r.number] ∧
        t.island.copied = (r.number + 1) % 65536 ∧ SameButManagement s t)) ∧
    (s.power.on = false ∨ s.island.copied = s.island.recHead → exec .blackBoxWrite s = .next s) ∧
    (s.power.on = true → idle → s.tag.queue = [] → Gives .serviceRecordUpdate s (fun t =>
      (∃ d, t.tag.op = some (64, d, false) ∧ d.take 8 = leBytes 4 s.flash.version ++ leBytes 4 s.tag.boots) ∧
      (∃ d, t.tag.queue = [.store 65 d]) ∧ t.tag.fresh = false ∧
      t.tag.hours = (if s.tag.fresh then s.tag.hours else s.tag.hours + 1) ∧ SameButManagement s t)) ∧
    (s.power.on = false → exec .serviceRecordUpdate s = .next s) ∧
    (s.flash.op = none → exec .flashOperationComplete s = .next s) ∧
    (s.flash.op = some (1, a, data) → Gives .flashOperationComplete s (fun t => t.flash.op = none ∧ left t 4096 ∧
      (∀ i, i < 4096 → t.flashByte (a + i) = 0xFF#8) ∧ SameButManagement s t)) ∧
    (s.flash.op = some (2, a, data) → Gives .flashOperationComplete s (fun t => t.flash.op = none ∧ left t data.length ∧
      (∀ i v, data[i]? = some v → s.flashByte (a + i) = 0xFF#8 → t.flashByte (a + i) = v) ∧ SameButManagement s t)) ∧
    (s.flash.op = some (3, a, data) → Gives .flashOperationComplete s (fun t => t.flash = { s.flash with op := none } ∧
      (∀ i, i < 64 → t.rd R.btfBuf 0 0 i = leNat ((List.range 4).map (fun j => s.flashByte (a + 4 * i + j)))) ∧
      SameButManagement s t))

/-- R413 to R427 and Tables 16-4, 16-6 and 16-11: a node follows a good beacon, coasts without one, is silent after four,
and may be elected source; frames leave in assigned or contention slots; a REQ is executed once and answered, again from its
kept RSP, and an old one is dropped; a damaged frame is counted, and a frame of the node's own ID is a conflict. Completes:
BEACON, BEACON_MISS, LISTEN_TIMEOUT, ELECTION, SUPERFRAME_START, ASSIGNED_SLOT, CONTENTION_SLOT, CLAIM, TRESTLE_WAKE,
TRESTLE_READ, TRESTLE_WRITE. Where it rests on the model's own choices or readings: log 38. -/
def Obligations.TrestleNode : Prop :=
  ∀ (s : State) (h : TrsHead) (number source acks grants count addr : Nat) (hand : Bool) (off : Int) (words : List Word)
    (slot : Fin 15) (g : TrsFrame) (c : Nat),
    let x := s.trestle
    let on := s.trsOn = true
    let whole := on ∧ (h.fcsOk && h.lenOk && h.reservedOk) = true
    let mine := whole ∧ x.slot = none ∧ h.src ≠ s.trsId ∧ (h.dst = s.trsId ∨ h.dst = 0xFF)
    let beacon : Instr := .beacon h number source hand acks grants off
    let good := (x.state ≠ .source → x.state = .listen ∨ x.state = .silent ∨ (-10 ≤ off ∧ off ≤ 10)) ∧
      (x.state = .source → source < s.trsId)
    let follows : Trestle := { x with
      state := .follow, number := number, lastGood := number, source := source, grants := grants, acks := acks, missed := 0,
      handover := false, slot := none }
    let sends := fun (t : State) (f : TrsFrame) => t.out = s.out ++ [.trestle f.type f.dst s.trsId f.seq f.payload] ∧
      Counts s t R.trsTxFrames 0 1
    let beats := fun (i : Instr) (n : Nat) (y : TrsState) => Gives i s (fun t => t.trestle.state = y ∧ t.trestle.number = n ∧
      t.trestle.handover = false ∧ t.trestle.heard = 0 ∧ t.out = s.out ++ [.trestle 1 0xFF s.trsId 0 (leBytes 4 n ++
        leBytes 1 s.trsId ++ leBytes 1 (b2n x.handover) ++ leBytes 2 x.heard ++ leBytes 8 (2 ^ 64 - 1))])
    let seen := x.lastReq.find? (fun p => p.1 == h.src)
    let fresh := ∀ p, seen = some p → (h.seq + 65536 - p.2.1 % 65536) % 65536 ≠ 0 ∧ (h.seq + 65536 - p.2.1 % 65536) % 65536 < 32768
    let old := ∃ p, seen = some p ∧ 32768 ≤ (h.seq + 65536 - p.2.1 % 65536) % 65536
    let next := x.held.find? (fun f => decide (f.due ≤ s.power.uptime))
    let read : Instr := .trestleRead h count addr
    let write : Instr := .trestleWrite h addr words
    (mine → good → x.held = [] → exec beacon s = .next (s.modTrs (fun _ => follows))) ∧
    (mine → good → x.held = [g] → g.usedSlot = some c →
      (bit acks c = true → exec beacon s = .next (s.modTrs (fun _ => { follows with held := [] }))) ∧
      (bit acks c = false → g.attempts < 7 → exec beacon s = .next (s.modTrs (fun _ => { follows with
        held := [{ g with attempts := g.attempts + 1, usedSlot := none }] }))) ∧
      (bit acks c = false → 7 ≤ g.attempts → exec beacon s =
        .next ((s.modTrs (fun _ => { follows with held := [] })).cnt R.trsContFail))) ∧
    (mine → ¬good → exec beacon s = .next s) ∧
    (on → ¬whole → exec beacon s = .next (s.cnt R.trsFcsErr) ∧ exec read s = .next (s.cnt R.trsFcsErr) ∧
      exec write s = .next (s.cnt R.trsFcsErr) ∧ exec (.claim h) s = .next (s.cnt R.trsFcsErr) ∧
      exec (.trestleWake h) s = .next (s.cnt R.trsFcsErr)) ∧
    (whole → h.src = s.trsId → Gives beacon s (fun t => t.trestle.idConflict = true)) ∧
    (¬on → exec beacon s = .next s ∧ exec .beaconMiss s = .next s ∧ exec .superframeStart s = .next s ∧ exec read s = .next s ∧
      exec write s = .next s) ∧
    (on → (x.state = .follow → exec .beaconMiss s = .next ((s.modTrs (fun t => { t with state := .coast, missed := 1 })).cnt R.trsBcnMiss)) ∧
      (x.state = .coast → x.missed < 3 → exec .beaconMiss s =
        .next ((s.modTrs (fun t => { t with missed := t.missed + 1 })).cnt R.trsBcnMiss)) ∧
      (x.state = .coast → 3 ≤ x.missed → exec .beaconMiss s = .next (s.modTrs (fun t => { t with state := .silent }))) ∧
      (x.state = .listen → exec .listenTimeout s = .next (s.modTrs (fun t => { t with state := .silent }))) ∧
      (x.state ≠ .listen → exec .listenTimeout s = .next s) ∧
      (x.state = .silent → s.flag R.trsCfg 7 = true → beats .election ((x.lastGood + 8 + s.trsId) % 2 ^ 32)
        (if x.handover then .follow else .source)) ∧
      (x.state ≠ .silent ∨ s.flag R.trsCfg 7 = false → exec .election s = .next s) ∧
      (x.state = .source → beats .superframeStart ((x.number + 1) % 2 ^ 32) (if x.handover then .follow else .source)) ∧
      (x.state ≠ .source → Gives .superframeStart s (fun t => t.trestle.number = (x.number + 1) % 2 ^ 32 ∧ t.trestle.slot = none ∧
        t.trestle.state = (if x.state = .coast ∧ 3 ≤ x.missed then .silent else x.state) ∧ t.out = s.out))) ∧
    (on → s.trsSends = true → s.trsGranted = true → next = some g → Gives .assignedSlot s (fun t => sends t g ∧
      t.trestle.held = x.held.erase g ∧ t.trestle.wait = none ∧ t.mem = s.mem)) ∧
    (next = none ∨ s.trsGranted = false ∨ s.trsSends = false → exec .assignedSlot s = .next (s.modTrs (fun t => { t with slot := none }))) ∧
    (on → x.state = .follow → s.trsGranted = false → x.held.find? (fun f => f.usedSlot.isNone) = some g →
      (x.wait = some 0 → Gives (.contentionSlot slot) s (fun t => sends t g ∧ t.trestle.wait = none ∧ t.trestle.slot = some slot.val ∧
        t.trestle.held = x.held.map (fun y => if y = g then { y with usedSlot := some slot.val } else y))) ∧
      (∀ n, x.wait = some (n + 1) → exec (.contentionSlot slot) s =
        .next (s.modTrs (fun t => { t with slot := some slot.val, wait := some n })))) ∧
    (x.state ≠ .follow ∨ s.trsGranted = true → exec (.contentionSlot slot) s = .next (s.modTrs (fun t => { t with slot := some slot.val }))) ∧
    (mine → (h.src = 0 → x.state = .source → exec (.claim h) s = .next (s.modTrs (fun t => { t with handover := true }))) ∧
      (h.src ≠ 0 ∨ x.state ≠ .source → exec (.claim h) s = .next s) ∧
      (s.flag R.pwrWakeEn 3 = true → s.power.state = .doze → Gives (.trestleWake h) s (fun t => t.power.state = .waking ∧
        t.power.wakeSrc = 3 ∧ t.mem = s.mem)) ∧
      (s.flag R.pwrWakeEn 3 = false → exec (.trestleWake h) s = .next s)) ∧
    (mine → fresh →
      (trsReqOk count addr = true → exec read s = .next ((s.trsWords addr count).1.trsExecuted h (trsRsp 0 count
        (s.trsWords addr count).2)) ∧ (s.dozing = false → (s.trsWords addr count).2 =
          (List.range count).map (fun i => s.readWord .trestle (addr + 4 * i) % 2 ^ 32))) ∧
      (trsReqOk count addr = false → exec read s = .next (s.trsExecuted h (trsRsp 2 count []))) ∧
      (trsReqOk words.length addr = false → exec write s = .next (s.trsExecuted h (trsRsp 2 words.length []))) ∧
      (∀ t i o d v, WritesAt s .trestle t i o → 0x40 ≤ o → regAt t o = some d → plainReg t o d = true → addr = pageAddr t i o →
        s.locked (pageNo t i) = false → s.valueBad t i o v.toNat = false → words = [v] →
        (s.setRaw t i o 0 (v.toNat &&& d.wmask)).trsOn = true →
        exec write s = .next ((s.setRaw t i o 0 (v.toNat &&& d.wmask)).trsExecuted h (trsRsp 0 1 []))) ∧
      (∀ v, words = [v] → addr % 4 = 0 → addr < 2 ^ 26 → s.pageServed .trestle (addr / 4096) = true →
        mayWrite .trestle (addr / 4096) (addr % 4096) = false → s.flag R.trsCfg 8 = true →
        exec write s = .next ((s.cnt R.trsWrDeny).trsExecuted h (trsRsp 1 1 [])))) ∧
    (mine → old → exec read s = .next (s.cnt R.trsDupDrop) ∧ exec write s = .next (s.cnt R.trsDupDrop)) ∧
    (mine → ∀ p, seen = some p → p.2.1 < 65536 → h.seq = p.2.1 → exec read s = .next (s.trsReply h.src h.seq p.2.2) ∧
      exec write s = .next (s.trsReply h.src h.seq p.2.2))

/-- R428 to R432: a good SPI frame reads or writes words in address order, each written word as another path's would; a bad
command is latched and counted; words beyond the count are counted; a frame that expected more when select rises was
partial. Completes: SPI_READ, SPI_WRITE, SPI_SELECT_RISE. Where it rests on the model's own choices or readings: log 38. -/
def Obligations.SpiFrames : Prop :=
  ∀ (s : State) (cmd addr : Word) (n : Nat) (v : Word) (mode3 : Bool),
    let t := s.spiBegin mode3
    let sts := s.spiEnd.spiSts
    let room := spiRoom cmd addr
    (s.spiOn = true → spiBad cmd addr = false → spiOp cmd = 1 → Gives (.spiRead cmd addr n mode3) s (fun u =>
      u.out = s.out ++ [.miso ([sts, 0#32, 0#32] ++ (List.range (min n room)).map (fun i =>
        w32 (t.readWord .spi (addr.toNat + 4 * i))))] ∧
      u.spi = { t.spi with expected := if n = 0 then 1 else 0 } ∧ Counts t u R.spiExtraCnt 0 (n - room) ∧
      u.mem = s.mem)) ∧
    (s.spiOn = true → spiBad cmd addr = false → spiOp cmd = 2 →
      ∀ pt i o d, WritesAt t .spi pt i o → 0x40 ≤ o → regAt pt o = some d → plainReg pt o d = true → addr.toNat = pageAddr pt i o →
        t.locked (pageNo pt i) = false → t.valueBad pt i o v.toNat = false → Gives (.spiWrite cmd addr [v] mode3) s (fun u =>
          u.rawAt pt i o 0 = v.toNat &&& d.wmask ∧ u.spi = { t.spi with expected := room - 1 } ∧
          u.out = s.out ++ [.miso [sts, 0#32, 0#32]] ∧ u.mem = s.mem)) ∧
    (s.spiOn = true → spiBad cmd addr = true → ∀ i : Instr, i = .spiRead cmd addr n mode3 ∨ i = .spiWrite cmd addr [v] mode3 →
      Gives i s (fun u => u.spi = { t.spi with badCmd := true } ∧ Counts t u R.spiBadcmdCnt 0 1 ∧ u.out = s.out ++ [.miso [sts, 0#32]] ∧
        u.mem = s.mem)) ∧
    (s.spiOn = false → exec (.spiRead cmd addr n mode3) s = .next s ∧ exec (.spiWrite cmd addr [v] mode3) s = .next s) ∧
    (s.spi.inFrame = true → s.spi.expected ≠ 0 → exec .spiSelectRise s = .next (({ s with
      spi := { s.spi with inFrame := false, expected := 0, partialFrame := true } } : State).cnt R.spiPartialCnt)) ∧
    (s.spi.inFrame = false ∨ s.spi.expected = 0 → exec .spiSelectRise s = .next { s with
      spi := { s.spi with inFrame := false, expected := 0 } })

/-- R99: with ge = 0 every lane passes the guard, and gn and gp must be 0; with ge = 1 lane l passes by bit l of p[gp],
turned about by gn. -/
def Obligations.GuardMask : Prop :=
  ∀ (x : Group) (w : BitVec 26), (wGe w = false → (∀ l, l < 32 → (x.gmask w).getLsbD l = true) ∧
      (guardOk w = true ↔ wGn w = false ∧ wGp w = 0)) ∧
    (wGe w = true → guardOk w = true ∧ ∀ l, l < 32 → ((x.gmask w).getLsbD l = true ↔ (x.pred (wGp w)).getLsbD l = !wGn w))

/-- R417: a Trestle frame whose FCS fails, whose length disagrees, or which sets a reserved field or type is dropped and
counted, whatever it carries, and has no other effect. -/
def Obligations.DroppedFrames : Prop :=
  ∀ (s : State) (h : TrsHead) (number source acks grants count addr : Nat) (hand : Bool) (off : Int) (words : List Word),
    s.trsOn = true → h.fcsOk = false ∨ h.lenOk = false ∨ h.reservedOk = false →
    ∀ i ∈ ([.beacon h number source hand acks grants off, .claim h, .trestleRead h count addr, .trestleWrite h addr words,
      .trestleWake h] : List Instr), exec i s = .next (s.cnt R.trsFcsErr)

/-- A step carries out the command at the front of the queue with the queue's rest. With no command waiting 1 ns passes: the
model's choice (log 1). What the device sends then of itself is added to what it has sent. -/
def Obligations.StepTakesTheFront : Prop :=
  ∀ (s : State), (∀ (c : Instr) (l : List Instr), s.pending = c :: l → step s = exec c { s with pending := l }) ∧
    (s.pending = [] → step s = .next s.elapse ∧ s.elapse.pending = [] ∧ s.out <+: s.elapse.out ∧
      (AtRest s → s.elapse.mem = s.mem ∧ s.elapse.power.uptime = s.power.uptime + 1))

/-- The frame of every command: its family's other units keep their state, the queue is left alone, and what was sent stays
sent. Each list of commands stands beside what it leaves as it was. Where it rests on the model's own choices or readings:
logs 3 and 43. -/
def Obligations.CommandFrames : Prop :=
  ∀ (i : Instr) (s t : State), exec i s = .next t → t.pending = s.pending ∧ s.out <+: t.out ∧
    (leavesStores i = true → Agrees i s → SameStores s t) ∧ (leavesUnits i = true → Agrees i s → SameUnits s t) ∧
    (leavesPlant i = true → Agrees i s → SamePlant s t) ∧ (portsOnly i = true → SameButPorts s t) ∧
    (powerOnly i = true → SameButPower s t) ∧ (servicesOnly i = true → SameButServices s t) ∧
    (managementOnly i = true → SameButManagement s t) ∧ (tickOnly i = true → SameButTick s t) ∧
    (spanOnly i = true → SameButSpan s t)

/-- What a cold reset leaves, of what the spec gives: no tick runs and no image is loaded, memory is 0, every bank is leased
to D, the gate and the lasers are held, the power unit boots, and registers hold the reset values of Tables 02-7, 07-4 and
17-5. -/
def Obligations.ResetState : Prop :=
  let s := State.reset
  s.tick.state = .idle ∧ s.tick.count = 0 ∧ s.image.loaded = false ∧ s.power.state = .boot ∧ s.power.rstCause = 1 ∧
    s.power.released = false ∧ s.island.causes = [0] ∧ s.island.kill = false ∧ s.island.ready = false ∧ s.pending = [] ∧
    (∀ a, s.byte a = 0#8) ∧ (∀ c b, b < 32 → s.leased c 2 b = true ∧ s.leased c 0 b = false) ∧
    (∀ p, s.optical p = true → s.islandLine p = true) ∧ (∀ p, (s.port p).state = .quiet) ∧ s.trestle.state = .listen ∧
    s.rd R.tckCtl = 0x00080003 ∧ s.rd R.tckLen = 0x7A120 ∧ s.rd R.tckRepair = 0x2710 ∧ s.regValue .tck 0 0x70 = 950 ∧
    s.regValue .tck 0 0x78 = 60000 ∧ s.rd R.spnPos = 0x7FF ∧ s.regValue .spn 0 0x60 = 0x7FF ∧
    (∀ c, c < 512 → s.rd R.spdScrubCtl c = 0x0104080E ∧ s.regValue .spd c 0x60 = 0xE ∧ s.regValue .spd c 0x48 = 0xFFFFFFFF)

/-- Memory is in its canonical form after reset. Where it rests on the model's own choices or readings: log 9. -/
def Obligations.ResetInvariant : Prop :=
 State.reset.Inv

/-- Every step keeps memory in its canonical form: addresses strictly rising, and no 0 listed. Where it rests on the model's
own choices or readings: log 9. -/
def Obligations.StepKeepsInvariant : Prop :=
 ∀ (s t : State), s.Inv → step s = .next t → t.Inv
end

