-- ==== Sys2Proof/Laws/Kept.lean ====
section
/-!
SUPPORT. What every operation keeps: the waiting commands, what has been sent, and memory's canonical form; with the laws of
sparse tables they rest on.
-/
namespace Sys2Proof.Machine

/-! ### Sparse tables -/

@[simp] theorem mfind_mput_self {α : Type} (m : NMap α) (k : Nat) (v : α) : mfind (mput m k v) k = some v := by
  induction m with
  | nil => simp [mput, mfind]
  | cons p r ih =>
    obtain ⟨a, w⟩ := p
    simp only [mput]
    split
    · simp [mfind]
    · split
      · simp [mfind]
      · rename_i h1 h2
        simp only [mfind, Ne.symm h2, if_false, ih]

theorem mfind_mput_ne {α : Type} (m : NMap α) {j k : Nat} (v : α) (h : j ≠ k) : mfind (mput m k v) j = mfind m j := by
  induction m with
  | nil => simp [mput, mfind, Ne.symm h]
  | cons p r ih =>
    obtain ⟨a, w⟩ := p
    simp only [mput]
    split
    · simp [mfind, Ne.symm h]
    · split
      · rename_i h1 h2
        subst h2
        simp [mfind, Ne.symm h]
      · simp only [mfind, ih]

@[simp] theorem mget_mput_self {α : Type} (d : α) (m : NMap α) (k : Nat) (v : α) : mget d (mput m k v) k = v := by
  simp [mget]

theorem mget_mput_ne {α : Type} (d : α) (m : NMap α) {j k : Nat} (v : α) (h : j ≠ k) :
    mget d (mput m k v) j = mget d m j := by
  simp [mget, mfind_mput_ne m v h]

theorem mget_mput {α : Type} (d : α) (m : NMap α) (j k : Nat) (v : α) :
    mget d (mput m k v) j = if j = k then v else mget d m j := by
  split
  · rename_i h; simp [h]
  · rename_i h; exact mget_mput_ne d m v h

/-! ### The canonical form -/

theorem mwfFrom_le {α : Type} [DecidableEq α] {d : α} {lo lo' : Nat} {m : NMap α} (h : lo' ≤ lo)
    (w : mwfFrom d lo m = true) : mwfFrom d lo' m = true := by
  cases m with
  | nil => rfl
  | cons p r =>
    obtain ⟨a, v⟩ := p
    simp only [mwfFrom, Bool.and_eq_true, decide_eq_true_eq] at w ⊢
    exact ⟨⟨by omega, w.1.2⟩, w.2⟩

theorem mwfFrom_mput {α : Type} [DecidableEq α] {d v : α} {lo k : Nat} {m : NMap α} (hk : lo ≤ k) (hv : v ≠ d)
    (w : mwfFrom d lo m = true) : mwfFrom d lo (mput m k v) = true := by
  induction m generalizing lo with
  | nil => simp [mput, mwfFrom, hk, hv]
  | cons p r ih =>
    obtain ⟨a, x⟩ := p
    simp only [mwfFrom, Bool.and_eq_true, decide_eq_true_eq] at w
    simp only [mput]
    split
    · simp only [mwfFrom, Bool.and_eq_true, decide_eq_true_eq]
      exact ⟨⟨hk, hv⟩, ⟨⟨by omega, w.1.2⟩, w.2⟩⟩
    · split
      · rename_i h1 h2
        subst h2
        simp only [mwfFrom, Bool.and_eq_true, decide_eq_true_eq]
        exact ⟨⟨hk, hv⟩, w.2⟩
      · simp only [mwfFrom, Bool.and_eq_true, decide_eq_true_eq]
        exact ⟨w.1, ih (by omega) w.2⟩

theorem mwfFrom_filter {α : Type} [DecidableEq α] {d : α} {lo : Nat} {m : NMap α} (f : Nat × α → Bool)
    (w : mwfFrom d lo m = true) : mwfFrom d lo (m.filter f) = true := by
  induction m generalizing lo with
  | nil => rfl
  | cons p r ih =>
    obtain ⟨a, x⟩ := p
    simp only [mwfFrom, Bool.and_eq_true, decide_eq_true_eq] at w
    simp only [List.filter_cons]
    split
    · simp only [mwfFrom, Bool.and_eq_true, decide_eq_true_eq]
      exact ⟨w.1, ih w.2⟩
    · exact mwfFrom_le (by omega) (ih w.2)

theorem mwfFrom_merase {α : Type} [DecidableEq α] {d : α} {lo k : Nat} {m : NMap α}
    (w : mwfFrom d lo m = true) : mwfFrom d lo (merase m k) = true := mwfFrom_filter _ w

/-- Storing in canonical form keeps it. -/
theorem mwf_mset {α : Type} [DecidableEq α] {d v : α} {k : Nat} {m : NMap α} (w : mwf d m = true) :
    mwf d (mset d m k v) = true := by
  simp only [mwf, mset] at *
  split
  · exact mwfFrom_merase w
  · rename_i h; exact mwfFrom_mput (Nat.zero_le k) h w

theorem mfind_merase {α : Type} (m : NMap α) (j k : Nat) : mfind (merase m k) j = if j = k then none else mfind m j := by
  induction m with
  | nil => simp [merase, mfind]
  | cons p r ih =>
    obtain ⟨a, w⟩ := p
    simp only [merase] at ih
    simp only [merase, List.filter_cons]
    by_cases h : a = k
    · subst h
      simp only [bne_self_eq_false, Bool.false_eq_true, if_false, mfind, ih]
      by_cases hj : j = a
      · simp [hj]
      · simp [hj, Ne.symm hj]
    · have hb : (a != k) = true := by simpa using h
      simp only [hb, if_true, mfind, ih]
      by_cases hj : j = k
      · subst hj
        simp [h]
      · simp [hj]

@[simp] theorem mfind_merase_self {α : Type} (m : NMap α) (k : Nat) : mfind (merase m k) k = none := by
  simp [mfind_merase]

theorem mfind_merase_ne {α : Type} (m : NMap α) {j k : Nat} (h : j ≠ k) : mfind (merase m k) j = mfind m j := by
  simp [mfind_merase, h]

/-- A byte stored is the byte read. -/
@[simp] theorem mget_mset_self {α : Type} [DecidableEq α] (d : α) (m : NMap α) (k : Nat) (v : α) :
    mget d (mset d m k v) k = v := by
  simp only [mset]
  split
  · rename_i h; simp [mget, h]
  · simp

/-- Storing leaves every other key. -/
theorem mget_mset_ne {α : Type} [DecidableEq α] (d : α) (m : NMap α) {j k : Nat} (v : α) (h : j ≠ k) :
    mget d (mset d m k v) j = mget d m j := by
  simp only [mset]
  split
  · simp [mget, mfind_merase_ne m h]
  · exact mget_mput_ne d m v h

/-! ### What is kept -/

/-- `t` keeps of `s` the waiting commands, what was sent, and memory's canonical form. -/
def Kept (s t : State) : Prop :=
  t.pending = s.pending ∧ s.out <+: t.out ∧ (memWf s.mem = true → memWf t.mem = true)

/-- An outcome keeps, where it is a next state. -/
def Keeps (s : State) (r : Res) : Prop :=
  match r with
  | .next t => Kept s t
  | .fault _ => True
  | .refused _ => True

theorem Kept.refl (s : State) : Kept s s := ⟨rfl, List.prefix_refl _, id⟩

theorem Kept.trans {s t u : State} (h : Kept s t) (k : Kept t u) : Kept s u :=
  ⟨k.1.trans h.1, h.2.1.trans k.2.1, fun w => k.2.2 (h.2.2 w)⟩

theorem Keeps.next {s t : State} (h : Kept s t) : Keeps s (.next t) := h

/-- An update of any other field keeps. -/
theorem Kept.mk {s u : State} {regs' : NMap Word} {eff' : NMap Word} {hidden' : NMap Nat} {ecc' : NMap Nat} {written' : List Nat} {freeCtr'
    : Nat} {tick' : Tick} {image' : Image} {clusters' : NMap Cluster} {scrubs' : NMap Scrub} {ports' : NMap Port}
    {fabric' : Fabric} {load' : Load} {host' : HostPort} {svc' : Service} {time' : TimeUnit} {power' : Power}
    {island' : Island} {trestle' : Trestle} {spi' : Spi} {flash' : Flash} {tag' : Tag} {pins' : Pins} (h : Kept s
    u) :
    Kept s (State.mk u.pending regs' eff' hidden' u.mem ecc' written' freeCtr' u.out tick' image' clusters' scrubs' ports' fabric'
    load' host' svc' time' power' island' trestle' spi' flash' tag' pins') := h

/-- Emptying memory keeps. -/
theorem Kept.clear {s u : State} {regs' : NMap Word} {eff' : NMap Word} {hidden' : NMap Nat} {ecc' : NMap Nat} {written' : List Nat} {freeCtr'
    : Nat} {tick' : Tick} {image' : Image} {clusters' : NMap Cluster} {scrubs' : NMap Scrub} {ports' : NMap Port}
    {fabric' : Fabric} {load' : Load} {host' : HostPort} {svc' : Service} {time' : TimeUnit} {power' : Power}
    {island' : Island} {trestle' : Trestle} {spi' : Spi} {flash' : Flash} {tag' : Tag} {pins' : Pins} (h : Kept s
    u) :
    Kept s (State.mk u.pending regs' eff' hidden' [] ecc' written' freeCtr' u.out tick' image' clusters' scrubs' ports' fabric'
    load' host' svc' time' power' island' trestle' spi' flash' tag' pins') := ⟨h.1, h.2.1, fun _ => rfl⟩

theorem Kept.each {α : Type} {s u : State} {l : List α} {f : State → α → State} (h : Kept s u)
    (k : ∀ t x, Kept t (f t x)) : Kept s (u.each l f) := by
  unfold State.each
  induction l generalizing u with
  | nil => exact h
  | cons x r ih => exact ih (h.trans (k u x))

theorem Kept.foldl {α : Type} {s u : State} {l : List α} {f : State → α → State} (h : Kept s u)
    (k : ∀ t x, Kept t (f t x)) : Kept s (l.foldl f u) := by
  induction l generalizing u with
  | nil => exact h
  | cons x r ih => exact ih (h.trans (k u x))

theorem Kept.foldlFst {α β : Type} {s : State} {u : State × β} {l : List α} {f : State × β → α → State × β}
    (h : Kept s u.1) (k : ∀ t x, Kept t.1 (f t x).1) : Kept s (l.foldl f u).1 := by
  induction l generalizing u with
  | nil => exact h
  | cons x r ih => exact ih (h.trans (k u x))

theorem Kept.when {s u : State} {c : Bool} {f : State → State} (h : Kept s u) (k : ∀ t, Kept t (f t)) :
    Kept s (u.when c f) := by
  unfold State.when
  split
  · exact h.trans (k u)
  · exact h

theorem State.send_kept (s : State) (o : Out) : Kept s (s.send o) := ⟨rfl, List.prefix_append _ _, id⟩

theorem State.setByte_kept (s : State) (a : Nat) (b : Byte) : Kept s (s.setByte a b) :=
  ⟨rfl, List.prefix_refl _, fun w => mwf_mset w⟩

theorem State.setBytes_kept (s : State) (a : Nat) (l : List Byte) : Kept s (s.setBytes a l) := by
  induction l generalizing s a with
  | nil => exact Kept.refl s
  | cons b r ih => exact (s.setByte_kept a b).trans (ih _ _)

theorem State.zero_kept (s : State) (a n : Nat) : Kept s (s.zero a n) :=
  ⟨rfl, List.prefix_refl _, fun w => mwfFrom_filter _ w⟩

end Sys2Proof.Machine
end

