-- ==== Sys2Proof/Laws/KeptOps.lean ====
section
/-!
SUPPORT. What is kept by the operations over registers, memory, links, groups and streams.
-/
namespace Sys2Proof.Machine

/-! ### Ops -/

theorem State.setHdr_kept (s : State) (pg off v : Nat) : Kept s (State.setHdr s pg off v) := by
  unfold State.setHdr
  refine Kept.mk ?_
  exact Kept.refl _

theorem State.capture_kept (s : State) (pg : Nat) (v : Viol) (more : Bool) : Kept s (State.capture s pg v more) := by
  unfold State.capture
  extract_lets k0
  clear_value k0
  refine Kept.trans ?_ (State.setHdr_kept ..)
  refine Kept.trans ?_ (State.setHdr_kept ..)
  refine Kept.trans ?_ (State.setHdr_kept ..)
  refine Kept.trans ?_ (State.setHdr_kept ..)
  exact State.setHdr_kept ..

theorem State.modSvc_kept (s : State) (f : Service → Service) : Kept s (State.modSvc s f) := by
  unfold State.modSvc
  refine Kept.mk ?_
  exact Kept.refl _

theorem State.freeId_kept (s : State) (id : Nat) : Kept s (State.freeId s id) := by
  unfold State.freeId
  exact State.modSvc_kept ..

theorem State.freeOf_kept (s : State) (o : HostOut) : Kept s (State.freeOf s o) := by
  unfold State.freeOf
  split
  · exact State.freeId_kept ..
  · exact Kept.refl _

theorem State.modHost_kept (s : State) (f : HostPort → HostPort) : Kept s (State.modHost s f) := by
  unfold State.modHost
  refine Kept.mk ?_
  exact Kept.refl _

theorem State.post_kept (s : State) (o : HostOut) : Kept s (State.post s o) := by
  unfold State.post
  refine Kept.trans ?_ (State.freeOf_kept ..)
  exact State.send_kept ..

theorem State.toHost_kept (s : State) (o : HostOut) : Kept s (State.toHost s o) := by
  unfold State.toHost
  split
  · exact State.freeOf_kept ..
  · split
    · exact State.modHost_kept ..
    · exact State.post_kept ..

theorem State.modFn_kept (s : State) (n : Nat) (f : Function → Function) : Kept s (State.modFn s n f) := by
  unfold State.modFn
  refine Kept.mk ?_
  exact Kept.refl _

theorem State.msix_kept (s : State) (fn v : Nat) : Kept s (State.msix s fn v) := by
  unfold State.msix
  split
  · exact State.toHost_kept ..
  · exact State.modFn_kept ..

theorem State.routeSend_kept (s : State) (t : Nat) : Kept s (State.routeSend s t) := by
  unfold State.routeSend
  extract_lets k0
  clear_value k0
  split
  · refine Kept.trans ?_ (State.modHost_kept ..)
    exact State.msix_kept ..
  · exact Kept.refl _

theorem State.setIrq_kept (s : State) (pg off v : Nat) : Kept s (State.setIrq s pg off v) := by
  unfold State.setIrq
  extract_lets u0 k0
  clear_value k0
  have hu0 : Kept s u0 := by
    dsimp only [u0]
    exact State.setHdr_kept ..
  clear_value u0
  split
  · split
    · refine Kept.trans ?_ (State.msix_kept ..)
      assumption
    · assumption
  · split
    · extract_lets k1
      clear_value k1
      split
      · refine Kept.trans ?_ (State.routeSend_kept ..)
        assumption
      · assumption
    · assumption

theorem State.irq_kept (s : State) (pg m : Nat) : Kept s (State.irq s pg m) := by
  unfold State.irq
  exact State.setIrq_kept ..

theorem State.violateAll_kept (s : State) (pg : Nat) (v : Viol) (vs : List Viol) :
    Kept s (State.violateAll s pg v vs) := by
  unfold State.violateAll
  extract_lets k0 u0
  clear_value k0
  have hu0 : Kept s u0 := by
    dsimp only [u0]
    split
    · exact State.setHdr_kept ..
    · exact State.capture_kept ..
  clear_value u0
  refine Kept.trans ?_ (State.irq_kept ..)
  refine Kept.trans ?_ (State.setHdr_kept ..)
  assumption

theorem State.violate_kept (s : State) (p : PageType) (i : Nat) (v : Viol) : Kept s (State.violate s p i v) := by
  unfold State.violate
  exact State.violateAll_kept ..

theorem State.setRaw_kept (s : State) (p : PageType) (i off bank v : Nat) : Kept s (State.setRaw s p i off bank v)
    := by
  unfold State.setRaw
  refine Kept.mk ?_
  exact Kept.refl _

theorem State.wr_kept (s : State) (r : Reg) (v i bank idx : Nat) : Kept s (State.wr s r v i bank idx) := by
  unfold State.wr
  exact State.setRaw_kept ..

theorem State.cnt_kept (s : State) (r : Reg) (i n bank idx : Nat) : Kept s (State.cnt s r i n bank idx) := by
  unfold State.cnt
  extract_lets k0 k1
  clear_value k0 k1
  split
  · refine Kept.mk ?_
    exact Kept.refl _
  · exact State.wr_kept ..

theorem State.modQueue_kept (s : State) (n q : Nat) (f : Queue → Queue) : Kept s (State.modQueue s n q f) := by
  unfold State.modQueue
  refine Kept.mk ?_
  exact Kept.refl _

theorem State.event_kept (s : State) (p : PageType) (i n : Nat) : Kept s (State.event s p i n) := by
  unfold State.event
  exact State.irq_kept ..

theorem State.noteStatus_kept (s old : State) : Kept s (State.noteStatus s old) := by
  unfold State.noteStatus
  split
  · exact Kept.refl _
  · refine Kept.mk ?_
    exact Kept.refl _

theorem State.modPower_kept (s : State) (f : Power → Power) : Kept s (State.modPower s f) := by
  unfold State.modPower
  exact State.noteStatus_kept ..

theorem State.modPort_kept (s : State) (p : Nat) (f : Port → Port) : Kept s (State.modPort s p f) := by
  unfold State.modPort
  refine Kept.mk ?_
  exact Kept.refl _

theorem State.setCluster_kept (s : State) (c : Nat) (x : Cluster) : Kept s (State.setCluster s c x) := by
  unfold State.setCluster
  refine Kept.mk ?_
  exact Kept.refl _

theorem State.modCluster_kept (s : State) (c : Nat) (f : Cluster → Cluster) : Kept s (State.modCluster s c f) := by
  unfold State.modCluster
  exact State.setCluster_kept ..

theorem State.modTick_kept (s : State) (f : Tick → Tick) : Kept s (State.modTick s f) := by
  unfold State.modTick
  refine Kept.mk ?_
  exact Kept.refl _

theorem State.sealFault_kept (s : State) (code : Nat) (u : FaultUnit) : Kept s (State.sealFault s code u) := by
  unfold State.sealFault
  extract_lets u0
  have hu0 : Kept s u0 := by
    dsimp only [u0]
    exact State.modTick_kept ..
  clear_value u0
  split
  · assumption
  · refine Kept.trans ?_ (State.modTick_kept ..)
    assumption

theorem State.tickFault_kept (s : State) (code : Nat) (u : FaultUnit) : Kept s (State.tickFault s code u) := by
  unfold State.tickFault
  split
  · exact Kept.refl _
  · exact State.sealFault_kept ..

theorem State.draw_kept (s : State) : Kept s (State.draw s) := by
  unfold State.draw
  refine Kept.mk ?_
  exact Kept.refl _

theorem State.note_kept (s : State) (kind detail tenant : Nat) (body : List Byte) :
    Kept s (State.note s kind detail tenant body) := by
  unfold State.note
  exact State.modSvc_kept ..

theorem State.modFab_kept (s : State) (f : Fabric → Fabric) : Kept s (State.modFab s f) := by
  unfold State.modFab
  refine Kept.mk ?_
  exact Kept.refl _

theorem State.writeHost_kept (s : State) (fn : Nat) (trans : Option (Nat × Nat)) (relaxed : Bool) (a : Nat) (d :
    List Byte) :
    Kept s (State.writeHost s fn trans relaxed a d) := by
  unfold State.writeHost
  refine Kept.each ?_ (fun t x => ?_)
  · exact Kept.refl _
  · exact State.toHost_kept ..

theorem State.modLoad_kept (s : State) (f : Load → Load) : Kept s (State.modLoad s f) := by
  unfold State.modLoad
  refine Kept.mk ?_
  exact Kept.refl _

theorem State.modIsland_kept (s : State) (f : Island → Island) : Kept s (State.modIsland s f) := by
  unfold State.modIsland
  exact State.noteStatus_kept ..

theorem State.modQuarter_kept (s : State) (q : Nat) (f : Quarter → Quarter) : Kept s (State.modQuarter s q f) := by
  unfold State.modQuarter
  refine Kept.mk ?_
  exact Kept.refl _

theorem State.takeEffect_kept (s : State) : Kept s (State.takeEffect s) := by
  unfold State.takeEffect
  refine Kept.mk ?_
  exact Kept.refl _

theorem State.modTime_kept (s : State) (f : TimeUnit → TimeUnit) : Kept s (State.modTime s f) := by
  unfold State.modTime
  refine Kept.mk ?_
  exact Kept.refl _

theorem State.logTogether_kept (s : State) (l : List (Nat × Viol)) : Kept s (State.logTogether s l) := by
  unfold State.logTogether
  refine Kept.each ?_ (fun t x => ?_)
  · exact Kept.refl _
  · split
    · exact Kept.refl _
    · exact State.violateAll_kept ..

/-! ### Scratchpad -/

theorem State.entryInForce_kept (s : State) (c i : Nat) (e : HEntry) : Kept s (State.entryInForce s c i e) := by
  unfold State.entryInForce
  extract_lets k0 k1 u0
  clear_value k0 k1
  have hu0 : Kept s u0 := by
    dsimp only [u0]
    exact State.modCluster_kept ..
  clear_value u0
  refine Kept.mk ?_
  assumption

theorem State.entriesInForce_kept (s : State) (c : Nat) : Kept s (State.entriesInForce s c) := by
  unfold State.entriesInForce
  refine Kept.each ?_ (fun t x => ?_)
  · exact Kept.refl _
  · exact State.entryInForce_kept ..

theorem State.touchEntryWord_kept (s : State) (c i w src tenant : Nat) :
    Kept s (State.touchEntryWord s c i w src tenant) := by
  unfold State.touchEntryWord
  split
  · exact Kept.refl _
  · refine Kept.trans ?_ (State.modCluster_kept ..)
    extract_lets u0
    have hu0 : Kept s u0 := by
      dsimp only [u0]
      exact State.cnt_kept ..
    clear_value u0
    refine Kept.mk ?_
    assumption
  · refine Kept.trans ?_ (State.tickFault_kept ..)
    refine Kept.trans ?_ (State.violate_kept ..)
    exact State.cnt_kept ..

theorem State.touchEntry_kept (s : State) (c i src tenant : Nat) : Kept s (State.touchEntry s c i src tenant) := by
  unfold State.touchEntry
  refine Kept.trans ?_ (State.touchEntryWord_kept ..)
  exact State.touchEntryWord_kept ..

theorem State.hdlRead_kept (s : State) (c i src : Nat) : Kept s (State.hdlRead s c i src) := by
  unfold State.hdlRead
  extract_lets k0 u0
  clear_value k0
  have hu0 : Kept s u0 := by
    dsimp only [u0]
    refine Kept.when ?_ (fun t => ?_)
    · exact State.touchEntry_kept ..
    · refine Kept.trans ?_ (State.draw_kept ..)
      exact State.draw_kept ..
  clear_value u0
  refine Kept.trans ?_ (State.wr_kept ..)
  refine Kept.trans ?_ (State.wr_kept ..)
  refine Kept.trans ?_ (State.wr_kept ..)
  refine Kept.trans ?_ (State.wr_kept ..)
  assumption

theorem State.hdlCmd_kept (s : State) (c v src : Nat) : Kept s (State.hdlCmd s c v src) := by
  unfold State.hdlCmd
  extract_lets k0 k1 k2 u0 u1
  clear_value k0 k1 k2
  have hu0 : Kept s u0 := by
    dsimp only [u0]
    exact State.modCluster_kept ..
  clear_value u0
  have hu1 : Kept s u1 := by
    dsimp only [u1]
    split
    · split
      · refine Kept.trans ?_ (State.violate_kept ..)
        exact State.modCluster_kept ..
      · split
        · assumption
        · refine Kept.trans ?_ (State.entriesInForce_kept ..)
          assumption
    · exact Kept.refl _
  clear_value u1
  split
  · refine Kept.trans ?_ (State.hdlRead_kept ..)
    assumption
  · assumption

theorem State.modScrub_kept (s : State) (k : Nat) (f : Scrub → Scrub) : Kept s (State.modScrub s k f) := by
  unfold State.modScrub
  split
  · exact State.modCluster_kept ..
  · refine Kept.mk ?_
    exact Kept.refl _

theorem State.wbCancel_kept (s : State) (a : Nat) : Kept s (State.wbCancel s a) := by
  unfold State.wbCancel
  extract_lets k0 k1 k2 k3 u0
  clear_value k0 k1 k2 k3
  have hu0 : Kept s u0 := by
    dsimp only [u0]
    exact State.modScrub_kept ..
  clear_value u0
  split
  · split
    · refine Kept.trans ?_ (State.cnt_kept ..)
      assumption
    · assumption
  · exact Kept.refl _

theorem State.corrected_kept (s : State) (a : Nat) : Kept s (State.corrected s a) := by
  unfold State.corrected
  extract_lets k0 k1 u0
  clear_value k0 k1
  have hu0 : Kept s u0 := by
    dsimp only [u0]
    refine Kept.trans ?_ (State.wr_kept ..)
    exact State.cnt_kept ..
  clear_value u0
  refine Kept.trans ?_ (State.modScrub_kept ..)
  assumption

theorem State.uncorrectable_kept (s : State) (a src tenant : Nat) (fails : Bool) :
    Kept s (State.uncorrectable s a src tenant fails) := by
  unfold State.uncorrectable
  extract_lets k0 k1 u0
  clear_value k0 k1
  have hu0 : Kept s u0 := by
    dsimp only [u0]
    refine Kept.trans ?_ (State.violate_kept ..)
    exact State.cnt_kept ..
  clear_value u0
  split
  · refine Kept.trans ?_ (State.tickFault_kept ..)
    assumption
  · assumption

theorem State.wordWritten_kept (s : State) (a : Nat) (full : Bool) (src tenant : Nat) :
    Kept s (State.wordWritten s a full src tenant) := by
  unfold State.wordWritten
  extract_lets u0 u1
  have hu0 : Kept s u0 := by
    dsimp only [u0]
    exact State.wbCancel_kept ..
  clear_value u0
  have hu1 : Kept s u1 := by
    dsimp only [u1]
    refine Kept.trans ?_ (State.corrected_kept ..)
    assumption
  clear_value u1
  split
  · refine Kept.mk ?_
    assumption
  · split
    · assumption
    · refine Kept.mk ?_
      assumption
    · refine Kept.trans ?_ (State.uncorrectable_kept ..)
      assumption

theorem State.storeAt_kept (s : State) (l : List (Nat × Byte)) : Kept s (State.storeAt s l) := by
  induction l generalizing s
  · unfold State.storeAt
    exact Kept.refl _
  · rename_i x r ih
    unfold State.storeAt
    refine Kept.trans ?_ (ih ..)
    extract_lets u0
    have hu0 : Kept s u0 := by
      dsimp only [u0]
      exact State.setByte_kept ..
    clear_value u0
    refine Kept.mk ?_
    assumption

theorem State.writeBytes_kept (s : State) (g src tenant : Nat) (as : List Nat) (data : List Byte) :
    Kept s (State.writeBytes s g src tenant as data) := by
  unfold State.writeBytes
  extract_lets k0 k1 u0
  clear_value k0 k1
  have hu0 : Kept s u0 := by
    dsimp only [u0]
    refine Kept.each ?_ (fun t x => ?_)
    · exact Kept.refl _
    · exact State.wordWritten_kept ..
  clear_value u0
  refine Kept.trans ?_ (State.draw_kept ..)
  refine Kept.trans ?_ (State.storeAt_kept ..)
  assumption

theorem State.touch_kept (s : State) (a src tenant : Nat) : Kept s (State.touch s a src tenant) := by
  unfold State.touch
  split
  · exact Kept.refl _
  · exact State.corrected_kept ..
  · exact State.uncorrectable_kept ..

theorem State.afterRead_kept (s : State) (g src tenant : Nat) (as : List Nat) :
    Kept s (State.afterRead s g src tenant as) := by
  unfold State.afterRead
  refine Kept.trans ?_ (State.draw_kept ..)
  refine Kept.each ?_ (fun t x => ?_)
  · exact Kept.refl _
  · exact State.touch_kept ..

theorem State.wbCancelIn_kept (s : State) (a n : Nat) : Kept s (State.wbCancelIn s a n) := by
  unfold State.wbCancelIn
  extract_lets k0 k1
  clear_value k0 k1
  refine Kept.each ?_ (fun t x => ?_)
  · exact Kept.refl _
  · exact State.wbCancel_kept ..

theorem State.rotated_kept (s : State) (u : ScrubUnit) (v : Nat) : Kept s (State.rotated s u v) := by
  unfold State.rotated
  extract_lets k0 k1 k2
  clear_value k0 k1 k2
  split
  · exact Kept.refl _
  · split
    · exact State.modScrub_kept ..
    · refine Kept.trans ?_ (State.modScrub_kept ..)
      refine Kept.trans ?_ (State.wr_kept ..)
      exact State.cnt_kept ..

theorem State.scrubWrite_kept (s : State) (a : Nat) : Kept s (State.scrubWrite s a) := by
  unfold State.scrubWrite
  refine Kept.mk ?_
  exact Kept.refl _

theorem State.finishWb_kept (s : State) (u : ScrubUnit) : Kept s (State.finishWb s u) := by
  unfold State.finishWb
  extract_lets k0
  clear_value k0
  split
  · exact Kept.refl _
  · refine Kept.trans ?_ (State.rotated_kept ..)
    refine Kept.trans ?_ (State.modScrub_kept ..)
    exact State.scrubWrite_kept ..

theorem State.scrubRead_kept (s : State) (a : Nat) : Kept s (State.scrubRead s a) := by
  unfold State.scrubRead
  refine Kept.each ?_ (fun t x => ?_)
  · exact Kept.refl _
  · split
    · exact Kept.refl _
    · exact State.corrected_kept ..
    · exact State.uncorrectable_kept ..

theorem State.zeroOut_kept (s : State) (a n : Nat) : Kept s (State.zeroOut s a n) := by
  unfold State.zeroOut
  refine Kept.trans ?_ (State.zero_kept ..)
  exact State.wbCancelIn_kept ..

/-! ### Link -/

theorem State.modSeq_kept (s : State) (p cls : Nat) (f : ClassSeq → ClassSeq) : Kept s (State.modSeq s p cls f) := by
  unfold State.modSeq
  exact State.modPort_kept ..

theorem State.transmit_kept (s : State) (p : Nat) (f : Frame) : Kept s (State.transmit s p f) := by
  unfold State.transmit
  split
  · exact State.send_kept ..
  · exact Kept.refl _

theorem State.spend_kept (s : State) (p pool n : Nat) : Kept s (State.spend s p pool n) := by
  unfold State.spend
  exact State.modPort_kept ..

theorem State.sendNow_kept (s : State) (p : Nat) (c : Content) : Kept s (State.sendNow s p c) := by
  unfold State.sendNow
  extract_lets k0 u0
  clear_value k0
  have hu0 : Kept s u0 := by
    dsimp only [u0]
    exact State.modSeq_kept ..
  clear_value u0
  refine Kept.trans ?_ (State.transmit_kept ..)
  refine Kept.when ?_ (fun t => ?_)
  · assumption
  · exact State.spend_kept ..

theorem State.sendOn_kept (s : State) (p : Nat) (c : Content) : Kept s (State.sendOn s p c) := by
  unfold State.sendOn
  split
  · exact Kept.refl _
  · split
    · exact State.sendNow_kept ..
    · exact State.modSeq_kept ..

theorem State.sendVote_kept (s : State) (p : Nat) (v : Vote) : Kept s (State.sendVote s p v) := by
  unfold State.sendVote
  exact State.sendOn_kept ..

theorem State.release_kept (s : State) (p pool n : Nat) : Kept s (State.release s p pool n) := by
  unfold State.release
  exact State.modPort_kept ..

theorem State.freeUnits_kept (s : State) (p : Nat) (f : RFrame) : Kept s (State.freeUnits s p f) := by
  unfold State.freeUnits
  split
  · exact Kept.refl _
  · exact State.release_kept ..

theorem State.pumpList_fst (s : State) (p : Nat) (l : List (Nat × RFrame)) (blocked : List Nat) :
    Kept s (State.pumpList s p l blocked).1 := by
  induction l generalizing s p blocked
  · unfold State.pumpList
    dsimp only
    exact Kept.refl _
  · rename_i x r ih
    unfold State.pumpList
    extract_lets k0 k1
    clear_value k0
    split
    · dsimp only
      dsimp only [k1]
      exact ih ..
    · refine Kept.trans ?_ (ih ..)
      refine Kept.trans ?_ (State.freeUnits_kept ..)
      refine Kept.trans ?_ (State.sendOn_kept ..)
      exact State.spend_kept ..

theorem State.pumpPort_kept (s : State) (p : Nat) : Kept s (State.pumpPort s p) := by
  unfold State.pumpPort
  split
  · exact Kept.refl _
  · extract_lets k0
    have hk0 : Kept s k0.1 := by
      dsimp only [k0]
      exact State.pumpList_fst ..
    clear_value k0
    refine Kept.trans ?_ (State.modPort_kept ..)
    assumption

theorem State.enqueue_kept (s : State) (inp p : Nat) (f : RFrame) : Kept s (State.enqueue s inp p f) := by
  unfold State.enqueue
  refine Kept.trans ?_ (State.pumpPort_kept ..)
  exact State.modPort_kept ..

theorem State.forward_fst (s : State) (inp : Nat) (f : RFrame) : Kept s (State.forward s inp f).1 := by
  unfold State.forward
  extract_lets k0 u0
  clear_value k0
  have hu0 : Kept s u0 := by
    dsimp only [u0]
    split
    · exact State.cnt_kept ..
    · exact Kept.refl _
  clear_value u0
  split
  · dsimp only
    refine Kept.trans ?_ (State.enqueue_kept ..)
    assumption
  · dsimp only
    refine Kept.trans ?_ (State.freeUnits_kept ..)
    refine Kept.trans ?_ (State.cnt_kept ..)
    assumption
  · dsimp only
    refine Kept.trans ?_ (State.freeUnits_kept ..)
    refine Kept.trans ?_ (State.cnt_kept ..)
    assumption

theorem State.tagOff_kept (s : State) (tenant : Nat) (addr : Option Nat) : Kept s (State.tagOff s tenant addr) := by
  unfold State.tagOff
  exact State.violate_kept ..

theorem State.tellAll_kept (s : State) (off v : Nat) : Kept s (State.tellAll s off v) := by
  unfold State.tellAll
  refine Kept.each ?_ (fun t x => ?_)
  · exact Kept.refl _
  · exact State.modFab_kept ..

theorem State.sendMarker_kept (s : State) (skip : Nat) (m : Marker) : Kept s (State.sendMarker s skip m) := by
  unfold State.sendMarker
  refine Kept.each ?_ (fun t x => ?_)
  · exact Kept.refl _
  · exact State.sendOn_kept ..

theorem State.modLane_kept (s : State) (p l : Nat) (f : Lane → Lane) : Kept s (State.modLane s p l f) := by
  unfold State.modLane
  exact State.modPort_kept ..

theorem State.portState_kept (s : State) (p : Nat) (x : PortState) : Kept s (State.portState s p x) := by
  unfold State.portState
  extract_lets u0
  have hu0 : Kept s u0 := by
    dsimp only [u0]
    exact State.modPort_kept ..
  clear_value u0
  split
  · refine Kept.trans ?_ (State.event_kept ..)
    assumption
  · assumption

theorem State.sendTraining_kept (s : State) (p l : Nat) : Kept s (State.sendTraining s p l) := by
  unfold State.sendTraining
  split
  · exact State.send_kept ..
  · exact Kept.refl _

theorem State.toDetect_kept (s : State) (p : Nat) : Kept s (State.toDetect s p) := by
  unfold State.toDetect
  refine Kept.each ?_ (fun t x => ?_)
  · refine Kept.trans ?_ (State.portState_kept ..)
    exact State.modPort_kept ..
  · exact State.sendTraining_kept ..

theorem State.dropLink_kept (s : State) (p : Nat) : Kept s (State.dropLink s p) := by
  unfold State.dropLink
  exact State.modPort_kept ..

theorem State.followDims_kept (s : State) : Kept s (State.followDims s) := by
  unfold State.followDims
  refine Kept.each ?_ (fun t x => ?_)
  · exact Kept.refl _
  · split
    · refine Kept.trans ?_ (State.portState_kept ..)
      exact State.dropLink_kept ..
    · split
      · exact State.toDetect_kept ..
      · exact Kept.refl _

theorem State.backoff_kept (s : State) (p reason : Nat) : Kept s (State.backoff s p reason) := by
  unfold State.backoff
  refine Kept.trans ?_ (State.portState_kept ..)
  exact State.modPort_kept ..

theorem State.sendSecure_kept (s : State) (p : Nat) (c : Content) : Kept s (State.sendSecure s p c) := by
  unfold State.sendSecure
  refine Kept.trans ?_ (State.transmit_kept ..)
  exact State.modSeq_kept ..

theorem State.startExchange_kept (s : State) (p : Nat) : Kept s (State.startExchange s p) := by
  unfold State.startExchange
  extract_lets k0 k1
  clear_value k0 k1
  split
  · exact State.backoff_kept ..
  · refine Kept.trans ?_ (State.sendSecure_kept ..)
    refine Kept.trans ?_ (State.draw_kept ..)
    exact State.modPort_kept ..

theorem State.beginRekey_kept (s : State) (p : Nat) : Kept s (State.beginRekey s p) := by
  unfold State.beginRekey
  split
  · exact Kept.refl _
  · refine Kept.trans ?_ (State.startExchange_kept ..)
    exact State.modPort_kept ..

theorem State.dueRekey_kept (s : State) : Kept s (State.dueRekey s) := by
  unfold State.dueRekey
  refine Kept.each ?_ (fun t x => ?_)
  · exact Kept.refl _
  · exact State.beginRekey_kept ..

theorem State.sendStatus_kept (s : State) (p : Nat) : Kept s (State.sendStatus s p) := by
  unfold State.sendStatus
  refine Kept.trans ?_ (State.modPort_kept ..)
  exact State.sendOn_kept ..

theorem State.dueStatus_kept (s : State) : Kept s (State.dueStatus s) := by
  unfold State.dueStatus
  refine Kept.each ?_ (fun t x => ?_)
  · exact Kept.refl _
  · exact State.sendStatus_kept ..

theorem State.prbsLane_kept (s : State) (p n l : Nat) : Kept s (State.prbsLane s p n l) := by
  unfold State.prbsLane
  extract_lets k0 k1
  clear_value k0 k1
  refine Kept.trans ?_ (State.draw_kept ..)
  refine Kept.when ?_ (fun t => ?_)
  · refine Kept.trans ?_ (State.wr_kept ..)
    exact State.wr_kept ..
  · exact State.cnt_kept ..

theorem State.prbsRun_kept (s : State) (n : Nat) : Kept s (State.prbsRun s n) := by
  unfold State.prbsRun
  refine Kept.each ?_ (fun t x => ?_)
  · exact Kept.refl _
  · refine Kept.each ?_ (fun t x => ?_)
    · exact Kept.refl _
    · exact State.prbsLane_kept ..

theorem State.codeword_kept (s : State) (p : Nat) (errs : List Nat) : Kept s (State.codeword s p errs) := by
  unfold State.codeword
  extract_lets k0 k1 u0 k2
  clear_value k0 k1 k2
  have hu0 : Kept s u0 := by
    dsimp only [u0]
    split
    · split
      · exact Kept.refl _
      · refine Kept.trans ?_ (State.wr_kept ..)
        exact State.wr_kept ..
    · exact State.wr_kept ..
  clear_value u0
  split
  · assumption
  · split
    · refine Kept.trans ?_ (State.modPort_kept ..)
      refine Kept.trans ?_ (State.cnt_kept ..)
      assumption
    · refine Kept.each ?_ (fun t x => ?_)
      · refine Kept.trans ?_ (State.cnt_kept ..)
        refine Kept.trans ?_ (State.cnt_kept ..)
        assumption
      · exact State.cnt_kept ..

theorem State.codeBlock_kept (s : State) (p : Nat) (b : CwBlock) : Kept s (State.codeBlock s p b) := by
  unfold State.codeBlock
  split
  · exact Kept.refl _
  · refine Kept.each ?_ (fun t x => ?_)
    · exact State.modPort_kept ..
    · exact State.codeword_kept ..

theorem State.takeBlocks_kept (s : State) (p : Nat) (l : Codewords) : Kept s (State.takeBlocks s p l) := by
  unfold State.takeBlocks
  refine Kept.each ?_ (fun t x => ?_)
  · exact Kept.refl _
  · exact State.codeBlock_kept ..

theorem State.fencePort_kept (s : State) (p : Nat) : Kept s (State.fencePort s p) := by
  unfold State.fencePort
  extract_lets k0 u0
  clear_value k0
  have hu0 : Kept s u0 := by
    dsimp only [u0]
    refine Kept.trans ?_ (State.event_kept ..)
    refine Kept.trans ?_ (State.modPort_kept ..)
    exact State.cnt_kept ..
  clear_value u0
  split
  · refine Kept.trans ?_ (State.event_kept ..)
    assumption
  · assumption

theorem State.authFail_kept (s : State) (p : Nat) : Kept s (State.authFail s p) := by
  unfold State.authFail
  extract_lets k0 u0
  clear_value k0
  have hu0 : Kept s u0 := by
    dsimp only [u0]
    refine Kept.trans ?_ (State.modPort_kept ..)
    exact State.cnt_kept ..
  clear_value u0
  split
  · assumption
  · refine Kept.trans ?_ (State.fencePort_kept ..)
    assumption

theorem State.accept_fst (s : State) (p cls q : Nat) (old : Bool) : Kept s (State.accept s p cls q old).1 := by
  unfold State.accept
  extract_lets k0 k1
  clear_value k0 k1
  split
  · dsimp only
    exact State.cnt_kept ..
  · extract_lets u0 u1
    have hu0 : Kept s u0 := by
      dsimp only [u0]
      split
      · exact State.modPort_kept ..
      · refine Kept.trans ?_ (State.modPort_kept ..)
        exact State.modSeq_kept ..
    clear_value u0
    have hu1 : Kept s u1 := by
      dsimp only [u1]
      refine Kept.when ?_ (fun t => ?_)
      · assumption
      · exact State.sendOn_kept ..
    clear_value u1
    dsimp only
    refine Kept.when ?_ (fun t => ?_)
    · assumption
    · exact State.release_kept ..

theorem State.turnKey_kept (s : State) (p : Nat) : Kept s (State.turnKey s p) := by
  unfold State.turnKey
  exact State.modPort_kept ..

theorem State.receive_fst (s : State) (p cls : Nat) (a : Arrival) : Kept s (State.receive s p cls a).1 := by
  unfold State.receive
  split
  · dsimp only
    exact Kept.refl _
  · extract_lets u0 k0 k1 k2
    clear_value k0 k1 k2
    have hu0 : Kept s u0 := by
      dsimp only [u0]
      exact State.takeBlocks_kept ..
    clear_value u0
    split
    · dsimp only
      assumption
    · split
      · dsimp only
        assumption
      · split
        · dsimp only
          refine Kept.trans ?_ (State.authFail_kept ..)
          assumption
        · refine Kept.trans ?_ (State.accept_fst ..)
          refine Kept.when ?_ (fun t => ?_)
          · assumption
          · exact State.turnKey_kept ..

theorem State.retry_kept (s : State) (p : Nat) : Kept s (State.retry s p) := by
  unfold State.retry
  split
  · exact State.toDetect_kept ..
  · exact State.portState_kept ..

theorem State.drainWindow_kept (s : State) (p cls n : Nat) : Kept s (State.drainWindow s p cls n) := by
  induction n generalizing s p cls
  · unfold State.drainWindow
    exact Kept.refl _
  · rename_i n ih
    unfold State.drainWindow
    split
    · exact Kept.refl _
    · split
      · exact Kept.refl _
      · refine Kept.trans ?_ (ih ..)
        refine Kept.trans ?_ (State.sendNow_kept ..)
        exact State.modSeq_kept ..

/-! ### Groups -/

theorem State.setGroup_kept (s : State) (c g : Nat) (x : Group) : Kept s (State.setGroup s c g x) := by
  unfold State.setGroup
  exact State.modCluster_kept ..

theorem State.modGroup_kept (s : State) (c g : Nat) (f : Group → Group) : Kept s (State.modGroup s c g f) := by
  unfold State.modGroup
  split
  · exact State.setGroup_kept ..
  · exact Kept.refl _

theorem State.schedule_kept (s : State) (c : Nat) : Kept s (State.schedule s c) := by
  unfold State.schedule
  exact State.modCluster_kept ..

theorem State.killDraws_kept (s : State) (c t : Nat) : Kept s (State.killDraws s c t) := by
  unfold State.killDraws
  split
  · split
    · refine Kept.trans ?_ (State.draw_kept ..)
      exact State.modCluster_kept ..
    · exact Kept.refl _
  · exact Kept.refl _

theorem State.killContext_kept (s : State) (c t code : Nat) : Kept s (State.killContext s c t code) := by
  unfold State.killContext
  split
  · exact Kept.refl _
  · extract_lets u0 u1 k0
    clear_value k0
    have hu0 : Kept s u0 := by
      dsimp only [u0]
      refine Kept.trans ?_ (State.modTick_kept ..)
      exact State.cnt_kept ..
    clear_value u0
    have hu1 : Kept s u1 := by
      dsimp only [u1]
      refine Kept.each ?_ (fun t x => ?_)
      · assumption
      · exact State.killDraws_kept ..
    clear_value u1
    refine Kept.mk ?_
    assumption

theorem State.threadFault_kept (s : State) (c g t code form addr : Nat) :
    Kept s (State.threadFault s c g t code form addr) := by
  unfold State.threadFault
  extract_lets u0
  have hu0 : Kept s u0 := by
    dsimp only [u0]
    refine Kept.trans ?_ (State.violate_kept ..)
    exact State.wr_kept ..
  clear_value u0
  refine Kept.trans ?_ (State.killContext_kept ..)
  assumption

theorem State.seqFault_kept (s : State) (c k code : Nat) : Kept s (State.seqFault s c k code) := by
  unfold State.seqFault
  extract_lets k0 k1 u0
  clear_value k0 k1
  have hu0 : Kept s u0 := by
    dsimp only [u0]
    refine Kept.trans ?_ (State.violate_kept ..)
    exact State.wr_kept ..
  clear_value u0
  refine Kept.trans ?_ (State.killContext_kept ..)
  assumption

theorem State.removeGroup_kept (s : State) (c g : Nat) : Kept s (State.removeGroup s c g) := by
  unfold State.removeGroup
  exact State.modCluster_kept ..

theorem State.poisonKill_kept (s : State) (c t form addr : Nat) : Kept s (State.poisonKill s c t form addr) := by
  unfold State.poisonKill
  extract_lets u0
  have hu0 : Kept s u0 := by
    dsimp only [u0]
    refine Kept.trans ?_ (State.violate_kept ..)
    exact State.wr_kept ..
  clear_value u0
  refine Kept.trans ?_ (State.killContext_kept ..)
  assumption

/-! ### Streams -/

theorem State.setStream_kept (s : State) (id : Nat) (x : Stream) : Kept s (State.setStream s id x) := by
  unfold State.setStream
  exact State.modSvc_kept ..

theorem State.createStream_fst (s : State) (cls t : Nat) (host : Option HostCmd) (inputs : List Byte) :
    Kept s (State.createStream s cls t host inputs).1 := by
  unfold State.createStream
  extract_lets k0
  clear_value k0
  dsimp only
  refine Kept.trans ?_ (State.setStream_kept ..)
  exact State.draw_kept ..

theorem State.streamRefused_kept (s : State) (pg : PageType) (i src tenant refusal : Nat) :
    Kept s (State.streamRefused s pg i src tenant refusal) := by
  unfold State.streamRefused
  split
  · exact State.violate_kept ..
  · exact Kept.refl _

theorem State.arrive_kept (s : State) (l : List Unit_) : Kept s (State.arrive s l) := by
  unfold State.arrive
  exact State.modSvc_kept ..

theorem State.ledger_kept (s : State) (kind detail tenant tick : Nat) (body : List Byte) :
    Kept s (State.ledger s kind detail tenant tick body) := by
  unfold State.ledger
  split
  · exact State.cnt_kept ..
  · extract_lets k0 k1 u0
    clear_value k0 k1
    have hu0 : Kept s u0 := by
      dsimp only [u0]
      exact State.modSvc_kept ..
    clear_value u0
    split
    · refine Kept.trans ?_ (State.event_kept ..)
      assumption
    · assumption

theorem State.finish_kept (s : State) (id tick status detail rstatus : Nat) (payload : List Byte) (crc : Nat) :
    Kept s (State.finish s id tick status detail rstatus payload crc) := by
  unfold State.finish
  split
  · exact Kept.refl _
  · split
    · exact Kept.refl _
    · extract_lets k0 k1 k2 k3 k4 u0 u1
      clear_value k0 k1 k2 k3 k4
      have hu0 : Kept s u0 := by
        dsimp only [u0]
        exact State.setStream_kept ..
      clear_value u0
      have hu1 : Kept s u1 := by
        dsimp only [u1]
        refine Kept.when ?_ (fun t => ?_)
        · split
          · refine Kept.trans ?_ (State.modSvc_kept ..)
            assumption
          · refine Kept.trans ?_ (State.draw_kept ..)
            assumption
        · exact State.cnt_kept ..
      clear_value u1
      refine Kept.trans ?_ (State.ledger_kept ..)
      refine Kept.trans ?_ (State.modSvc_kept ..)
      assumption

/-! ### Gate -/

theorem State.cleared_kept (s : State) (code : Nat) : Kept s (State.cleared s code) := by
  unfold State.cleared
  exact State.modIsland_kept ..

theorem State.openGate_kept (s : State) (n : Nat) : Kept s (State.openGate s n) := by
  unfold State.openGate
  exact State.modIsland_kept ..

theorem State.closeGate_kept (s : State) (n : Nat) : Kept s (State.closeGate s n) := by
  unfold State.closeGate
  extract_lets u0 u1
  have hu0 : Kept s u0 := by
    dsimp only [u0]
    exact State.modIsland_kept ..
  clear_value u0
  have hu1 : Kept s u1 := by
    dsimp only [u1]
    split
    · refine Kept.trans ?_ (State.event_kept ..)
      assumption
    · assumption
  clear_value u1
  split
  · refine Kept.trans ?_ (State.modTick_kept ..)
    assumption
  · assumption

theorem State.record_kept (s : State) (code actions detail unit : Nat) :
    Kept s (State.record s code actions detail unit) := by
  unfold State.record
  split
  · exact Kept.refl _
  · extract_lets k0 k1 u0
    clear_value k0 k1
    have hu0 : Kept s u0 := by
      dsimp only [u0]
      exact State.modIsland_kept ..
    clear_value u0
    refine Kept.trans ?_ (State.violate_kept ..)
    refine Kept.trans ?_ (State.event_kept ..)
    assumption

theorem State.disagreed_kept (s : State) : Kept s (State.disagreed s) := by
  unfold State.disagreed
  split
  · refine Kept.trans ?_ (State.closeGate_kept ..)
    refine Kept.trans ?_ (State.record_kept ..)
    exact State.cnt_kept ..
  · exact Kept.refl _

end Sys2Proof.Machine
end

