-- ==== Sys2Proof/Laws/KeptHost.lean ====
section
/-!
SUPPORT. What is kept by the operations of the host port, the load engine, the fabric's requests and debug.
-/
namespace Sys2Proof.Machine

/-! ### HostOps -/

theorem State.setSlot_kept (s : State) (fn i : Nat) (x : ResultSlot) : Kept s (State.setSlot s fn i x) := by
  unfold State.setSlot
  exact State.modFn_kept ..

theorem State.readHost_kept (s : State) (fn addr len : Nat) (use : ReadUse) :
    Kept s (State.readHost s fn addr len use) := by
  unfold State.readHost
  extract_lets k0
  clear_value k0
  split
  · refine Kept.trans ?_ (State.send_kept ..)
    exact State.modHost_kept ..
  · exact State.modHost_kept ..

theorem State.fetch_kept (s : State) (fn q : Nat) : Kept s (State.fetch s fn q) := by
  unfold State.fetch
  extract_lets k0
  clear_value k0
  split
  · refine Kept.trans ?_ (State.readHost_kept ..)
    exact State.modQueue_kept ..
  · exact Kept.refl _

theorem State.setTail_kept (s : State) (fn q v : Nat) : Kept s (State.setTail s fn q v) := by
  unfold State.setTail
  split
  · exact Kept.refl _
  · refine Kept.trans ?_ (State.fetch_kept ..)
    exact State.modQueue_kept ..

theorem State.ringMessage_kept (s : State) (fn r tick : Nat) : Kept s (State.ringMessage s fn r tick) := by
  unfold State.ringMessage
  extract_lets k0
  clear_value k0
  split
  · exact Kept.refl _
  · split
    · exact State.msix_kept ..
    · split
      · exact Kept.refl _
      · refine Kept.trans ?_ (State.msix_kept ..)
        exact State.modQueue_kept ..

theorem State.writeEntry_kept (s : State) (fn r : Nat) (e : RingEntry) : Kept s (State.writeEntry s fn r e) := by
  unfold State.writeEntry
  extract_lets k0 k1 u0
  clear_value k0 k1
  have hu0 : Kept s u0 := by
    dsimp only [u0]
    exact State.toHost_kept ..
  clear_value u0
  refine Kept.trans ?_ (State.ringMessage_kept ..)
  refine Kept.trans ?_ (State.modQueue_kept ..)
  assumption

theorem State.drainRing_kept (s : State) (fn r : Nat) (l : List RingEntry) : Kept s (State.drainRing s fn r l) := by
  induction l generalizing s fn r
  · unfold State.drainRing
    exact Kept.refl _
  · rename_i x r ih
    unfold State.drainRing
    split
    · exact Kept.refl _
    · refine Kept.trans ?_ (ih ..)
      refine Kept.trans ?_ (State.writeEntry_kept ..)
      exact State.modQueue_kept ..

theorem State.serveRing_kept (s : State) (fn r : Nat) : Kept s (State.serveRing s fn r) := by
  unfold State.serveRing
  split
  · exact Kept.refl _
  · exact State.drainRing_kept ..

theorem State.respond_kept (s : State) (mgmt : Bool) (h : RHead) (b : Access) (status nack : Nat) (data : List Byte) :
    Kept s (State.respond s mgmt h b status nack data) := by
  unfold State.respond
  extract_lets k0
  clear_value k0
  split
  · exact State.modFab_kept ..
  · exact State.forward_fst ..

theorem State.nack_kept (s : State) (port : Nat) (h : RHead) (b : Access) (code : Nat) :
    Kept s (State.nack s port h b code) := by
  unfold State.nack
  split
  · exact State.cnt_kept ..
  · refine Kept.trans ?_ (State.respond_kept ..)
    exact State.cnt_kept ..

theorem State.readLevel_kept (s : State) (w : Walk) : Kept s (State.readLevel s w) := by
  unfold State.readLevel
  refine Kept.trans ?_ (State.readHost_kept ..)
  exact State.modHost_kept ..

theorem State.translate_fst (s : State) (id t : Nat) (use : WalkUse) (done : List (Nat × Part)) (l : List Part) :
    Kept s (State.translate s id t use done l).1 := by
  induction l generalizing s id t use done
  · unfold State.translate
    dsimp only
    exact Kept.refl _
  · rename_i x r ih
    unfold State.translate
    extract_lets k0 u0 u1
    clear_value k0
    have hu0 : Kept s u0 := by
      dsimp only [u0]
      exact State.cnt_kept ..
    clear_value u0
    have hu1 : Kept s u1 := by
      dsimp only [u1]
      exact State.cnt_kept ..
    clear_value u1
    split
    · extract_lets k1
      clear_value k1
      split
      · dsimp only
        refine Kept.trans ?_ (State.cnt_kept ..)
        assumption
      · refine Kept.trans ?_ (ih ..)
        assumption
    · split
      · dsimp only
        refine Kept.trans ?_ (State.cnt_kept ..)
        assumption
      · split
        · dsimp only
          refine Kept.trans ?_ (State.cnt_kept ..)
          assumption
        · dsimp only
          refine Kept.trans ?_ (State.readLevel_kept ..)
          assumption

theorem State.bindSlot_fst (s : State) (fn i stream : Nat) : Kept s (State.bindSlot s fn i stream).1 := by
  unfold State.bindSlot
  extract_lets k0 k1
  clear_value k0 k1
  dsimp only
  refine Kept.trans ?_ (State.cnt_kept ..)
  exact State.setSlot_kept ..

theorem State.complete_kept (s : State) (fn r : Nat) (e : RingEntry) : Kept s (State.complete s fn r e) := by
  unfold State.complete
  refine Kept.trans ?_ (State.serveRing_kept ..)
  exact State.modQueue_kept ..

theorem State.refuse_kept (s : State) (fn q : Nat) (e : List Byte) (status detail : Nat) :
    Kept s (State.refuse s fn q e status detail) := by
  unfold State.refuse
  extract_lets k0
  clear_value k0
  refine Kept.trans ?_ (State.complete_kept ..)
  refine Kept.trans ?_ (State.cnt_kept ..)
  exact State.streamRefused_kept ..

theorem State.acceptSubmit_kept (s : State) (fn q : Nat) (j : Submit) : Kept s (State.acceptSubmit s fn q j) := by
  unfold State.acceptSubmit
  extract_lets k0 u0 k1 k2 k3 k4 k5 k6 k7 u1 k8
  clear_value k0 k1 k2 k3 k4 k6 k8
  have hu0 : Kept s u0 := by
    dsimp only [u0]
    exact State.modQueue_kept ..
  clear_value u0
  have hk5 : Kept s k5.1 := by
    dsimp only [k5]
    refine Kept.trans ?_ (State.createStream_fst ..)
    assumption
  clear_value k5
  have hk7 : Kept s k7.1 := by
    dsimp only [k7]
    refine Kept.trans ?_ (State.bindSlot_fst ..)
    assumption
  clear_value k7
  have hu1 : Kept s u1 := by
    dsimp only [u1]
    split
    · refine Kept.trans ?_ (State.setStream_kept ..)
      assumption
    · assumption
  clear_value u1
  split
  · refine Kept.trans ?_ (State.fetch_kept ..)
    refine Kept.trans ?_ (State.refuse_kept ..)
    assumption
  · refine Kept.trans ?_ (State.fetch_kept ..)
    refine Kept.trans ?_ (State.arrive_kept ..)
    assumption

theorem State.submitWalked_kept (s : State) (fn q : Nat) (l : List (Nat × Part)) :
    Kept s (State.submitWalked s fn q l) := by
  unfold State.submitWalked
  split
  · exact Kept.refl _
  · extract_lets k0 k1
    clear_value k0 k1
    split
    · exact State.acceptSubmit_kept ..
    · refine Kept.each ?_ (fun t x => ?_)
      · exact State.modQueue_kept ..
      · exact State.readHost_kept ..

theorem State.publishSlot_kept (s : State) (h : HostCmd) (id : Nat) (x : Stream) :
    Kept s (State.publishSlot s h id x) := by
  unfold State.publishSlot
  split
  · extract_lets k0
    clear_value k0
    refine Kept.trans ?_ (State.cnt_kept ..)
    exact State.setSlot_kept ..
  · exact State.setSlot_kept ..

theorem State.releaseEnd_kept (s : State) (id : Nat) (x : Stream) (h : HostCmd) (status detail written : Nat) :
    Kept s (State.releaseEnd s id x h status detail written) := by
  unfold State.releaseEnd
  extract_lets u0 u1
  have hu0 : Kept s u0 := by
    dsimp only [u0]
    split
    · exact State.publishSlot_kept ..
    · exact Kept.refl _
  clear_value u0
  have hu1 : Kept s u1 := by
    dsimp only [u1]
    refine Kept.trans ?_ (State.setStream_kept ..)
    assumption
  clear_value u1
  refine Kept.trans ?_ (State.complete_kept ..)
  assumption

theorem State.outputWalked_kept (s : State) (id : Nat) (l : List (Nat × Part)) : Kept s (State.outputWalked s id l)
    := by
  unfold State.outputWalked
  split
  · exact Kept.refl _
  · split
    · exact Kept.refl _
    · extract_lets k0 u0
      clear_value k0
      have hu0 : Kept s u0 := by
        dsimp only [u0]
        refine Kept.each ?_ (fun t x => ?_)
        · exact Kept.refl _
        · exact State.writeHost_kept ..
      clear_value u0
      refine Kept.trans ?_ (State.releaseEnd_kept ..)
      assumption

theorem State.windowWrite_kept (s : State) (k : Kind3) (l : List (Nat × Part)) (data old : List Byte) :
    Kept s (State.windowWrite s k l data old) := by
  unfold State.windowWrite
  extract_lets k0 k1
  clear_value k0
  split
  · dsimp only [k1]
    split
    · refine Kept.trans ?_ (State.tickFault_kept ..)
      exact State.violate_kept ..
    · refine Kept.trans ?_ (State.respond_kept ..)
      refine Kept.trans ?_ (State.tickFault_kept ..)
      exact State.violate_kept ..
  · split
    · dsimp only [k1]
      split
      · exact State.modSvc_kept ..
      · refine Kept.trans ?_ (State.respond_kept ..)
        exact State.modSvc_kept ..
    · dsimp only [k1]
      split
      · refine Kept.each ?_ (fun t x => ?_)
        · exact Kept.refl _
        · exact State.writeHost_kept ..
      · refine Kept.trans ?_ (State.respond_kept ..)
        refine Kept.each ?_ (fun t x => ?_)
        · exact Kept.refl _
        · exact State.writeHost_kept ..

theorem State.dropKind3_kept (s : State) (id : Nat) : Kept s (State.dropKind3 s id) := by
  unfold State.dropKind3
  exact State.modHost_kept ..

theorem State.kind3Walked_kept (s : State) (id : Nat) (l : List (Nat × Part)) : Kept s (State.kind3Walked s id l)
    := by
  unfold State.kind3Walked
  split
  · exact Kept.refl _
  · split
    · refine Kept.trans ?_ (State.windowWrite_kept ..)
      exact State.dropKind3_kept ..
    · refine Kept.each ?_ (fun t x => ?_)
      · exact State.modHost_kept ..
      · exact State.readHost_kept ..

theorem State.walkViolation_kept (s : State) (fn src code off : Nat) :
    Kept s (State.walkViolation s fn src code off) := by
  unfold State.walkViolation
  exact State.violate_kept ..

theorem State.stopQueue_kept (s : State) (fn q status : Nat) : Kept s (State.stopQueue s fn q status) := by
  unfold State.stopQueue
  refine Kept.trans ?_ (State.event_kept ..)
  exact State.modQueue_kept ..

theorem State.queueFault_kept (s : State) (fn q code level entry off : Nat) :
    Kept s (State.queueFault s fn q code level entry off) := by
  unfold State.queueFault
  refine Kept.trans ?_ (State.stopQueue_kept ..)
  exact State.modQueue_kept ..

theorem State.outputFault_kept (s : State) (id code level entry off : Nat) :
    Kept s (State.outputFault s id code level entry off) := by
  unfold State.outputFault
  split
  · exact Kept.refl _
  · split
    · exact Kept.refl _
    · refine Kept.trans ?_ (State.releaseEnd_kept ..)
      refine Kept.trans ?_ (State.walkViolation_kept ..)
      exact State.queueFault_kept ..

theorem State.kind3Refused_kept (s : State) (id : Nat) : Kept s (State.kind3Refused s id) := by
  unfold State.kind3Refused
  split
  · exact Kept.refl _
  · refine Kept.trans ?_ (State.nack_kept ..)
    exact State.dropKind3_kept ..

theorem State.walkEnd_kept (s : State) (t : Nat) (use : WalkUse) (e : WalkEnd) : Kept s (State.walkEnd s t use e)
    := by
  unfold State.walkEnd
  split
  · exact Kept.refl _
  · split
    · exact State.submitWalked_kept ..
    · exact State.outputWalked_kept ..
    · exact State.kind3Walked_kept ..
    · refine Kept.each ?_ (fun t x => ?_)
      · exact Kept.refl _
      · exact State.readHost_kept ..
  · split
    · split
      · exact Kept.refl _
      · refine Kept.trans ?_ (State.refuse_kept ..)
        refine Kept.trans ?_ (State.walkViolation_kept ..)
        refine Kept.trans ?_ (State.queueFault_kept ..)
        exact State.modQueue_kept ..
    · exact State.outputFault_kept ..
    · refine Kept.trans ?_ (State.kind3Refused_kept ..)
      exact State.walkViolation_kept ..
    · refine Kept.trans ?_ (State.modLoad_kept ..)
      refine Kept.trans ?_ (State.cnt_kept ..)
      exact State.walkViolation_kept ..

theorem State.walk_kept (s : State) (t : Nat) (use : WalkUse) (l : List Part) : Kept s (State.walk s t use l) := by
  unfold State.walk
  extract_lets k0 k1
  clear_value k0
  have hk1 : Kept s k1.1 := by
    dsimp only [k1]
    refine Kept.trans ?_ (State.translate_fst ..)
    exact State.modHost_kept ..
  clear_value k1
  refine Kept.trans ?_ (State.walkEnd_kept ..)
  assumption

theorem State.startKind3_kept (s : State) (port : Nat) (h : RHead) (b : Access) (data : List Byte) :
    Kept s (State.startKind3 s port h b data) := by
  unfold State.startKind3
  extract_lets k0
  clear_value k0
  refine Kept.trans ?_ (State.walk_kept ..)
  exact State.modHost_kept ..

theorem State.nopDone_kept (s : State) (fn q ring cmdId tick : Nat) :
    Kept s (State.nopDone s fn q ring cmdId tick) := by
  unfold State.nopDone
  exact State.complete_kept ..

theorem State.ringDoorbells_kept (s : State) : Kept s (State.ringDoorbells s) := by
  unfold State.ringDoorbells
  refine Kept.each ?_ (fun t x => ?_)
  · exact State.modHost_kept ..
  · exact State.setTail_kept ..

theorem State.dropReads_kept (s : State) (f : Nat → ReadUse → Bool) : Kept s (State.dropReads s f) := by
  unfold State.dropReads
  exact State.modHost_kept ..

theorem State.takeReads_kept (s : State) : Kept s (State.takeReads s) := by
  unfold State.takeReads
  refine Kept.each ?_ (fun t x => ?_)
  · exact State.modHost_kept ..
  · exact State.readHost_kept ..

theorem State.walkEntry_fst (s : State) (w : Walk) (e : Nat) : Kept s (State.walkEntry s w e).1 := by
  unfold State.walkEntry
  extract_lets k0 k1 k2 k3 k4 k5 k6
  clear_value k0 k1 k2 k3 k4 k6
  split
  · exact State.translate_fst ..
  · split
    · dsimp only [k5]
      exact State.cnt_kept ..
    · split
      · dsimp only [k5]
        exact State.cnt_kept ..
      · split
        · dsimp only [k5]
          exact State.cnt_kept ..
        · split
          · split
            · dsimp only [k5]
              exact State.cnt_kept ..
            · split
              · dsimp only [k5]
                exact State.cnt_kept ..
              · split
                · dsimp only [k5]
                  exact State.cnt_kept ..
                · refine Kept.trans ?_ (State.translate_fst ..)
                  exact State.modHost_kept ..
          · split
            · dsimp only [k5]
              exact State.cnt_kept ..
            · dsimp only
              exact State.readLevel_kept ..

theorem State.kind3Read_kept (s : State) (id part : Nat) (data : List Byte) :
    Kept s (State.kind3Read s id part data) := by
  unfold State.kind3Read
  split
  · exact Kept.refl _
  · extract_lets k0 k1 k2 u0 k3 k4
    clear_value k0 k1 k2 k3 k4
    have hu0 : Kept s u0 := by
      dsimp only [u0]
      exact State.dropKind3_kept ..
    clear_value u0
    split
    · exact State.modHost_kept ..
    · split
      · refine Kept.trans ?_ (State.windowWrite_kept ..)
        assumption
      · split
        · assumption
        · refine Kept.trans ?_ (State.respond_kept ..)
          assumption

theorem State.readDone_kept (s : State) (use : ReadUse) (data : List Byte) : Kept s (State.readDone s use data) := by
  unfold State.readDone
  split
  · exact State.modQueue_kept ..
  · split
    · exact Kept.refl _
    · extract_lets k0
      clear_value k0
      split
      · exact State.acceptSubmit_kept ..
      · exact State.modQueue_kept ..
  · split
    · exact Kept.refl _
    · extract_lets k0
      have hk0 : Kept s k0.1 := by
        dsimp only [k0]
        refine Kept.trans ?_ (State.walkEntry_fst ..)
        exact State.modHost_kept ..
      clear_value k0
      refine Kept.trans ?_ (State.walkEnd_kept ..)
      assumption
  · exact State.kind3Read_kept ..
  · exact Kept.refl _

theorem State.kind3Failed_kept (s : State) (fn id : Nat) : Kept s (State.kind3Failed s fn id) := by
  unfold State.kind3Failed
  split
  · exact Kept.refl _
  · extract_lets u0
    have hu0 : Kept s u0 := by
      dsimp only [u0]
      refine Kept.trans ?_ (State.violate_kept ..)
      exact State.dropKind3_kept ..
    clear_value u0
    split
    · assumption
    · refine Kept.trans ?_ (State.respond_kept ..)
      assumption

theorem State.readFailed_kept (s : State) (fn addr : Nat) (use : ReadUse) :
    Kept s (State.readFailed s fn addr use) := by
  unfold State.readFailed
  split
  · refine Kept.trans ?_ (State.stopQueue_kept ..)
    refine Kept.trans ?_ (State.violate_kept ..)
    exact State.modQueue_kept ..
  · split
    · exact Kept.refl _
    · refine Kept.trans ?_ (State.fetch_kept ..)
      refine Kept.trans ?_ (State.refuse_kept ..)
      refine Kept.trans ?_ (State.modQueue_kept ..)
      exact State.dropReads_kept ..
  · split
    · exact Kept.refl _
    · refine Kept.trans ?_ (State.walkEnd_kept ..)
      refine Kept.trans ?_ (State.cnt_kept ..)
      exact State.modHost_kept ..
  · exact State.kind3Failed_kept ..
  · refine Kept.trans ?_ (State.modLoad_kept ..)
    refine Kept.trans ?_ (State.cnt_kept ..)
    exact State.violate_kept ..

theorem State.process_kept (s : State) (fn q : Nat) (submit : Bool) : Kept s (State.process s fn q submit) := by
  unfold State.process
  extract_lets k0 u0
  clear_value k0
  have hu0 : Kept s u0 := by
    dsimp only [u0]
    exact State.modQueue_kept ..
  clear_value u0
  split
  · exact Kept.refl _
  · split
    · exact Kept.refl _
    · extract_lets k1
      clear_value k1
      split
      · refine Kept.trans ?_ (State.fetch_kept ..)
        refine Kept.trans ?_ (State.refuse_kept ..)
        assumption
      · split
        · refine Kept.trans ?_ (State.walk_kept ..)
          refine Kept.trans ?_ (State.modQueue_kept ..)
          assumption
        · split
          · refine Kept.trans ?_ (State.fetch_kept ..)
            refine Kept.trans ?_ (State.modSvc_kept ..)
            assumption
          · refine Kept.trans ?_ (State.fetch_kept ..)
            refine Kept.trans ?_ (State.nopDone_kept ..)
            assumption

/-! ### Load -/

theorem State.modChain_kept (s : State) (e : Nat) (f : Chain → Chain) : Kept s (State.modChain s e f) := by
  unfold State.modChain
  exact State.modLoad_kept ..

theorem State.chainFill_kept (s : State) (e n : Nat) : Kept s (State.chainFill s e n) := by
  induction n generalizing s e
  · unfold State.chainFill
    exact Kept.refl _
  · rename_i n ih
    unfold State.chainFill
    extract_lets k0
    clear_value k0
    split
    · refine Kept.trans ?_ (ih ..)
      refine Kept.trans ?_ (State.walk_kept ..)
      exact State.modChain_kept ..
    · exact Kept.refl _

theorem State.recordAnswered_kept (s : State) (e : Nat) : Kept s (State.recordAnswered s e) := by
  unfold State.recordAnswered
  split
  · refine Kept.trans ?_ (State.chainFill_kept ..)
    exact State.modChain_kept ..
  · exact Kept.refl _

theorem State.beginLoad_kept (s : State) : Kept s (State.beginLoad s) := by
  unfold State.beginLoad
  refine Kept.mk ?_
  exact Kept.refl _

theorem State.storeRecord_kept (s : State) (r : LoadRecord) : Kept s (State.storeRecord s r) := by
  unfold State.storeRecord
  extract_lets u0 k0 k1 k2
  clear_value k0 k1 k2
  have hu0 : Kept s u0 := by
    dsimp only [u0]
    exact State.modLoad_kept ..
  clear_value u0
  split
  · refine Kept.trans ?_ (State.modLoad_kept ..)
    refine Kept.trans ?_ (State.writeBytes_kept ..)
    assumption
  · refine Kept.trans ?_ (State.modLoad_kept ..)
    refine Kept.trans ?_ (State.writeBytes_kept ..)
    assumption

theorem State.keep_fst (s : State) (r : LoadRecord) : Kept s (State.keep s r).1 := by
  unfold State.keep
  split
  · extract_lets u0
    have hu0 : Kept s u0 := by
      dsimp only [u0]
      split
      · exact State.beginLoad_kept ..
      · exact Kept.refl _
    clear_value u0
    dsimp only
    refine Kept.trans ?_ (State.modLoad_kept ..)
    assumption
  · split
    · dsimp only
      exact Kept.refl _
    · split
      · dsimp only
        exact State.cnt_kept ..
      · dsimp only
        exact State.storeRecord_kept ..
  · split
    · dsimp only
      exact Kept.refl _
    · split
      · dsimp only
        exact State.cnt_kept ..
      · dsimp only
        exact State.storeRecord_kept ..
  · dsimp only
    exact State.modLoad_kept ..
  · dsimp only
    exact State.cnt_kept ..

theorem State.sendRecord_kept (s : State) (e : Nat) (r : LoadRecord) : Kept s (State.sendRecord s e r) := by
  unfold State.sendRecord
  split
  · exact State.cnt_kept ..
  · refine Kept.trans ?_ (State.modFab_kept ..)
    exact State.cnt_kept ..

theorem State.actRecord_fst (s : State) (r : LoadRecord) : Kept s (State.actRecord s r).1 := by
  unfold State.actRecord
  extract_lets k0
  clear_value k0
  split
  · exact State.keep_fst ..
  · split
    · dsimp only
      exact State.cnt_kept ..
    · dsimp only
      exact State.sendRecord_kept ..

theorem State.noteRecord_kept (s : State) (id number : Nat) : Kept s (State.noteRecord s id number) := by
  unfold State.noteRecord
  extract_lets k0
  clear_value k0
  exact State.modLoad_kept ..

theorem State.takeRecord_fst (s : State) (r : LoadRecord) : Kept s (State.takeRecord s r).1 := by
  unfold State.takeRecord
  extract_lets k0 k1
  clear_value k0
  have hk1 : Kept s k1.1 := by
    dsimp only [k1]
    exact State.actRecord_fst ..
  clear_value k1
  split
  · dsimp only
    exact State.cnt_kept ..
  · split
    · dsimp only
      exact Kept.refl _
    · split
      · dsimp only
        exact Kept.refl _
      · split
        · assumption
        · dsimp only
          refine Kept.trans ?_ (State.noteRecord_kept ..)
          assumption

theorem State.answerRecord_kept (s : State) (h : HeldRecord) (nack : Nat) : Kept s (State.answerRecord s h nack) := by
  unfold State.answerRecord
  split
  · exact State.recordAnswered_kept ..
  · exact State.respond_kept ..
  · exact State.send_kept ..

theorem State.serveRecord_kept (s : State) (h : HeldRecord) : Kept s (State.serveRecord s h) := by
  unfold State.serveRecord
  extract_lets k0
  have hk0 : Kept s k0.1 := by
    dsimp only [k0]
    split
    · split
      · exact State.keep_fst ..
      · dsimp only
        exact Kept.refl _
    · exact State.takeRecord_fst ..
  clear_value k0
  split
  · refine Kept.trans ?_ (State.answerRecord_kept ..)
    assumption
  · refine Kept.trans ?_ (State.answerRecord_kept ..)
    assumption
  · refine Kept.trans ?_ (State.modLoad_kept ..)
    assumption

theorem State.releaseHeld_kept (s : State) : Kept s (State.releaseHeld s) := by
  unfold State.releaseHeld
  refine Kept.each ?_ (fun t x => ?_)
  · exact State.modLoad_kept ..
  · exact State.serveRecord_kept ..

theorem State.chainAct_kept (s : State) (e n : Nat) : Kept s (State.chainAct s e n) := by
  unfold State.chainAct
  extract_lets k0 k1 k2 u0
  clear_value k0 k1 k2
  have hu0 : Kept s u0 := by
    dsimp only [u0]
    exact State.modChain_kept ..
  clear_value u0
  split
  · exact Kept.refl _
  · split
    · refine Kept.trans ?_ (State.serveRecord_kept ..)
      assumption
    · split
      · refine Kept.trans ?_ (State.recordAnswered_kept ..)
        refine Kept.trans ?_ (State.sendRecord_kept ..)
        assumption
      · refine Kept.trans ?_ (State.sendRecord_kept ..)
        assumption

theorem State.chainOn_kept (s : State) (e : Nat) : Kept s (State.chainOn s e) := by
  unfold State.chainOn
  split
  · refine Kept.trans ?_ (State.chainFill_kept ..)
    refine Kept.each ?_ (fun t x => ?_)
    · exact Kept.refl _
    · exact State.chainAct_kept ..
  · exact Kept.refl _

theorem State.chainsGo_kept (s : State) : Kept s (State.chainsGo s) := by
  unfold State.chainsGo
  refine Kept.each ?_ (fun t x => ?_)
  · exact State.releaseHeld_kept ..
  · exact State.chainOn_kept ..

theorem State.restartWindow_kept (s : State) (id : Nat) : Kept s (State.restartWindow s id) := by
  unfold State.restartWindow
  exact State.modLoad_kept ..

theorem State.refill_kept (s : State) (e target what : Nat) (g : RGroup) : Kept s (State.refill s e target what g)
    := by
  unfold State.refill
  extract_lets k0 k1 k2 k3 k4 k5 k6
  clear_value k0 k1 k2 k3 k4 k5 k6
  refine Kept.each ?_ (fun t x => ?_)
  · refine Kept.trans ?_ (State.modChain_kept ..)
    exact State.draw_kept ..
  · exact State.sendRecord_kept ..

theorem State.chainConfig_kept (s : State) (e : Nat) : Kept s (State.chainConfig s e) := by
  unfold State.chainConfig
  refine Kept.trans ?_ (State.restartWindow_kept ..)
  exact State.modChain_kept ..

theorem State.shareBad_kept (s : State) : Kept s (State.shareBad s) := by
  unfold State.shareBad
  extract_lets u0
  have hu0 : Kept s u0 := by
    dsimp only [u0]
    exact State.writeBytes_kept ..
  clear_value u0
  refine Kept.trans ?_ (State.event_kept ..)
  refine Kept.trans ?_ (State.violate_kept ..)
  refine Kept.trans ?_ (State.modLoad_kept ..)
  refine Kept.trans ?_ (State.draw_kept ..)
  assumption

theorem State.shareVerdict_kept (s : State) : Kept s (State.shareVerdict s) := by
  unfold State.shareVerdict
  split
  · exact State.shareBad_kept ..
  · split
    · refine Kept.trans ?_ (State.event_kept ..)
      exact State.modLoad_kept ..
    · exact Kept.refl _

theorem State.chainRead_kept (s : State) (e n part : Nat) (data : List Byte) :
    Kept s (State.chainRead s e n part data) := by
  unfold State.chainRead
  split
  · exact Kept.refl _
  · refine Kept.trans ?_ (State.chainAct_kept ..)
    exact State.modChain_kept ..

/-! ### Serve -/

theorem State.refuseAccess_kept (s : State) (p : PageType) (i port : Nat) (h : RHead) (b : Access) (code log : Nat) :
    Kept s (State.refuseAccess s p i port h b code log) := by
  unfold State.refuseAccess
  refine Kept.trans ?_ (State.nack_kept ..)
  exact State.violate_kept ..

theorem State.noHop_kept (s : State) (inp : Nat) (f : RFrame) : Kept s (State.noHop s inp f) := by
  unfold State.noHop
  split
  · exact State.refuseAccess_kept ..
  · exact Kept.refl _

theorem State.rerouteOne_kept (s : State) (p : Nat) (x : Nat × RFrame) : Kept s (State.rerouteOne s p x) := by
  unfold State.rerouteOne
  extract_lets k0 k1 k2 k3 k4
  clear_value k1 k2 k3
  have hk4 : Kept s k4.1 := by
    dsimp only [k4]
    refine Kept.trans ?_ (State.forward_fst ..)
    dsimp only [k0]
    exact State.modPort_kept ..
  clear_value k4
  split
  · split
    · assumption
    · refine Kept.trans ?_ (State.noHop_kept ..)
      assumption
  · split
    · refine Kept.trans ?_ (State.enqueue_kept ..)
      dsimp only [k0]
      exact State.modPort_kept ..
    · exact Kept.refl _

theorem State.reroute_kept (s : State) : Kept s (State.reroute s) := by
  unfold State.reroute
  refine Kept.each ?_ (fun t x => ?_)
  · exact Kept.refl _
  · refine Kept.each ?_ (fun t x => ?_)
    · exact Kept.refl _
    · exact State.rerouteOne_kept ..

theorem State.raise_kept (s : State) (c g t blk k addr : Nat) : Kept s (State.raise s c g t blk k addr) := by
  unfold State.raise
  split
  · exact Kept.refl _
  · extract_lets k0
    clear_value k0
    split
    · exact State.threadFault_kept ..
    · exact State.modCluster_kept ..

theorem State.raiseDue_kept (s : State) (c : Nat) : Kept s (State.raiseDue s c) := by
  unfold State.raiseDue
  extract_lets k0
  clear_value k0
  refine Kept.each ?_ (fun t x => ?_)
  · exact State.modCluster_kept ..
  · exact State.raise_kept ..

theorem State.modCopy_kept (s : State) (c id : Nat) (f : ThreadCopy → ThreadCopy) :
    Kept s (State.modCopy s c id f) := by
  unfold State.modCopy
  exact State.modCluster_kept ..

theorem State.ask_kept (s : State) (c tenant addr op size : Nat) (data : List Byte) (use : ReqUse) :
    Kept s (State.ask s c tenant addr op size data use) := by
  unfold State.ask
  exact State.modFab_kept ..

theorem State.copyWrites_kept (s : State) (c : Nat) (k : ThreadCopy) : Kept s (State.copyWrites s c k) := by
  unfold State.copyWrites
  extract_lets k0 k1
  clear_value k0 k1
  refine Kept.each ?_ (fun t x => ?_)
  · exact State.modCopy_kept ..
  · exact State.ask_kept ..

theorem State.copyRead_kept (s : State) (c id off : Nat) (d : List Byte) : Kept s (State.copyRead s c id off d) := by
  unfold State.copyRead
  split
  · exact Kept.refl _
  · extract_lets k0 u0
    clear_value k0
    have hu0 : Kept s u0 := by
      dsimp only [u0]
      exact State.modCopy_kept ..
    clear_value u0
    split
    · refine Kept.trans ?_ (State.copyWrites_kept ..)
      assumption
    · assumption

theorem State.useRsp_kept (s : State) (p : Pending) (r : Response) (data : List Byte) :
    Kept s (State.useRsp s p r data) := by
  unfold State.useRsp
  extract_lets k0 k1 u0
  clear_value k0 k1
  have hu0 : Kept s u0 := by
    dsimp only [u0]
    split
    · exact State.draw_kept ..
    · exact Kept.refl _
  clear_value u0
  split
  · split
    · exact State.recordAnswered_kept ..
    · exact State.modFab_kept ..
    · split
      · exact State.threadFault_kept ..
      · exact Kept.refl _
  · split
    · refine Kept.trans ?_ (State.schedule_kept ..)
      refine Kept.trans ?_ (State.raiseDue_kept ..)
      refine Kept.trans ?_ (State.modGroup_kept ..)
      assumption
    · refine Kept.trans ?_ (State.schedule_kept ..)
      refine Kept.trans ?_ (State.raiseDue_kept ..)
      refine Kept.trans ?_ (State.modGroup_kept ..)
      assumption
    · refine Kept.trans ?_ (State.schedule_kept ..)
      refine Kept.trans ?_ (State.raiseDue_kept ..)
      refine Kept.trans ?_ (State.modGroup_kept ..)
      assumption
    · refine Kept.trans ?_ (State.raiseDue_kept ..)
      assumption
    · split
      · refine Kept.trans ?_ (State.modCopy_kept ..)
        assumption
      · split
        · extract_lets k2
          clear_value k2
          refine Kept.trans ?_ (State.copyRead_kept ..)
          assumption
        · assumption
    · refine Kept.trans ?_ (State.recordAnswered_kept ..)
      assumption
    · refine Kept.trans ?_ (State.modFab_kept ..)
      assumption

theorem State.deliver_kept (s : State) (f : RFrame) : Kept s (State.deliver s f) := by
  unfold State.deliver
  extract_lets k0 u0
  clear_value k0
  have hu0 : Kept s u0 := by
    dsimp only [u0]
    exact State.modFab_kept ..
  clear_value u0
  split
  · exact Kept.refl _
  · split
    · assumption
    · refine Kept.trans ?_ (State.useRsp_kept ..)
      assumption

theorem State.selfNack_kept (s : State) (h : RHead) (b : Access) (mgmt : Bool) (code : Nat) :
    Kept s (State.selfNack s h b mgmt code) := by
  unfold State.selfNack
  extract_lets u0
  have hu0 : Kept s u0 := by
    dsimp only [u0]
    exact State.violate_kept ..
  clear_value u0
  refine Kept.trans ?_ (State.modFab_kept ..)
  assumption

theorem State.served_kept (s : State) (port : Nat) (h : RHead) (b : Access) (status : Nat) (data : List Byte) :
    Kept s (State.served s port h b status data) := by
  unfold State.served
  split
  · exact Kept.refl _
  · exact State.respond_kept ..

theorem State.meetEntry_fst (s : State) (c i port : Nat) (h : RHead) (b : Access) :
    Kept s (State.meetEntry s c i port h b).1 := by
  unfold State.meetEntry
  extract_lets u0
  have hu0 : Kept s u0 := by
    dsimp only [u0]
    exact State.touchEntry_kept ..
  clear_value u0
  split
  · dsimp only
    refine Kept.trans ?_ (State.served_kept ..)
    assumption
  · dsimp only
    assumption

theorem State.access_kept (s : State) (port : Nat) (h : RHead) (b : Access) (data : List Byte) (rd wr : List Nat)
    (loc : Bool) :
    Kept s (State.access s port h b data rd wr loc) := by
  unfold State.access
  extract_lets k0 k1 k2
  clear_value k0 k1 k2
  split
  · refine Kept.trans ?_ (State.served_kept ..)
    exact State.afterRead_kept ..
  · refine Kept.trans ?_ (State.served_kept ..)
    exact State.writeBytes_kept ..
  · refine Kept.trans ?_ (State.served_kept ..)
    refine Kept.trans ?_ (State.writeBytes_kept ..)
    exact State.afterRead_kept ..

theorem State.serveMemory_kept (s : State) (port : Nat) (h : RHead) (b : Access) (data : List Byte) :
    Kept s (State.serveMemory s port h b data) := by
  unfold State.serveMemory
  extract_lets k0 k1 k2 k3 k4 k5 k6
  clear_value k0 k1 k2 k3 k5 k6
  have hk4 : Kept s k4.1 := by
    dsimp only [k4]
    split
    · exact State.meetEntry_fst ..
    · dsimp only
      exact Kept.refl _
  clear_value k4
  split
  · split
    · assumption
    · split
      · exact State.refuseAccess_kept ..
      · split
        · refine Kept.trans ?_ (State.refuseAccess_kept ..)
          assumption
        · refine Kept.trans ?_ (State.access_kept ..)
          assumption
  · split
    · exact State.refuseAccess_kept ..
    · split
      · exact State.refuseAccess_kept ..
      · exact State.access_kept ..

theorem State.applyAtomic_kept (s : State) (a : HeldAtomic) : Kept s (State.applyAtomic s a) := by
  unfold State.applyAtomic
  split
  · exact State.serveMemory_kept ..
  · split
    · exact State.refuseAccess_kept ..
    · split
      · exact State.modFab_kept ..
      · exact State.startKind3_kept ..

theorem State.takeAtomic_kept (s : State) (a : HeldAtomic) : Kept s (State.takeAtomic s a) := by
  unfold State.takeAtomic
  split
  · exact State.applyAtomic_kept ..
  · split
    · exact State.modFab_kept ..
    · exact State.cnt_kept ..

theorem State.serve_kept (s : State) (port : Nat) (h : RHead) (b : Access) (data : List Byte) :
    Kept s (State.serve s port h b data) := by
  unfold State.serve
  extract_lets k0
  clear_value k0
  split
  · exact State.refuseAccess_kept ..
  · split
    · exact State.refuseAccess_kept ..
    · split
      · split
        · exact State.refuseAccess_kept ..
        · split
          · exact State.serveRecord_kept ..
          · exact State.refuseAccess_kept ..
      · split
        · exact State.refuseAccess_kept ..
        · split
          · exact State.refuseAccess_kept ..
          · split
            · split
              · exact State.refuseAccess_kept ..
              · split
                · exact State.refuseAccess_kept ..
                · split
                  · exact State.takeAtomic_kept ..
                  · exact State.startKind3_kept ..
            · split
              · exact State.takeAtomic_kept ..
              · exact State.serveMemory_kept ..

theorem State.sendRequest_kept (s : State) (r : Request) (entry : Nat) : Kept s (State.sendRequest s r entry) := by
  unfold State.sendRequest
  extract_lets k0 k1 k2 k3 k4 k5 u0
  clear_value k0 k1 k2 k3 k4 k5
  have hu0 : Kept s u0 := by
    dsimp only [u0]
    exact State.modFab_kept ..
  clear_value u0
  split
  · refine Kept.trans ?_ (State.tagOff_kept ..)
    assumption
  · split
    · refine Kept.trans ?_ (State.selfNack_kept ..)
      assumption
    · split
      · refine Kept.trans ?_ (State.enqueue_kept ..)
        assumption
      · split
        · split
          · refine Kept.trans ?_ (State.modFab_kept ..)
            assumption
          · refine Kept.trans ?_ (State.serve_kept ..)
            assumption
        · extract_lets k6
          have hk6 : Kept s k6.1 := by
            dsimp only [k6]
            refine Kept.trans ?_ (State.forward_fst ..)
            assumption
          clear_value k6
          split
          · assumption
          · refine Kept.trans ?_ (State.selfNack_kept ..)
            assumption

theorem State.sendAll_kept (s : State) (l : List Request) : Kept s (State.sendAll s l) := by
  induction l generalizing s
  · unfold State.sendAll
    exact Kept.refl _
  · rename_i x r ih
    unfold State.sendAll
    refine Kept.trans ?_ (ih ..)
    split
    · exact State.modFab_kept ..
    · exact State.sendRequest_kept ..

theorem State.pumpN_kept (s : State) (n : Nat) : Kept s (State.pumpN s n) := by
  induction n generalizing s
  · unfold State.pumpN
    exact Kept.refl _
  · rename_i n ih
    unfold State.pumpN
    extract_lets k0 u0
    clear_value k0
    have hu0 : Kept s u0 := by
      dsimp only [u0]
      refine Kept.each ?_ (fun t x => ?_)
      · exact State.modFab_kept ..
      · exact State.deliver_kept ..
    clear_value u0
    split
    · exact Kept.refl _
    · refine Kept.trans ?_ (ih ..)
      refine Kept.trans ?_ (State.sendAll_kept ..)
      refine Kept.trans ?_ (State.modFab_kept ..)
      assumption

theorem State.pump_kept (s : State) : Kept s (State.pump s) := by
  unfold State.pump
  extract_lets u0
  have hu0 : Kept s u0 := by
    dsimp only [u0]
    exact State.reroute_kept ..
  clear_value u0
  refine Kept.trans ?_ (State.pumpN_kept ..)
  assumption

theorem State.chainsResume_kept (s : State) : Kept s (State.chainsResume s) := by
  unfold State.chainsResume
  refine Kept.trans ?_ (State.pump_kept ..)
  exact State.chainsGo_kept ..

theorem State.atomicsDue_kept (s : State) : Kept s (State.atomicsDue s) := by
  unfold State.atomicsDue
  extract_lets k0
  clear_value k0
  refine Kept.each ?_ (fun t x => ?_)
  · exact State.modFab_kept ..
  · exact State.applyAtomic_kept ..

/-! ### Debug -/

theorem State.setBusy_kept (s : State) (c : Nat) (b : Bool) : Kept s (State.setBusy s c b) := by
  unfold State.setBusy
  exact State.modCluster_kept ..

theorem State.sendHalt_kept (s : State) : Kept s (State.sendHalt s) := by
  unfold State.sendHalt
  exact State.sendVote_kept ..

theorem State.haltNote_kept (s old : State) : Kept s (State.haltNote s old) := by
  unfold State.haltNote
  extract_lets u0
  have hu0 : Kept s u0 := by
    dsimp only [u0]
    exact State.modTick_kept ..
  clear_value u0
  split
  · refine Kept.trans ?_ (State.sendHalt_kept ..)
    assumption
  · assumption

theorem State.dbgCmd_kept (s : State) (c v : Nat) : Kept s (State.dbgCmd s c v) := by
  unfold State.dbgCmd
  extract_lets k0 u0
  clear_value k0
  have hu0 : Kept s u0 := by
    dsimp only [u0]
    split
    · split
      · exact State.setBusy_kept ..
      · refine Kept.trans ?_ (State.modGroup_kept ..)
        exact State.setBusy_kept ..
    · split
      · refine Kept.trans ?_ (State.modGroup_kept ..)
        exact State.setBusy_kept ..
      · exact Kept.refl _
  clear_value u0
  refine Kept.trans ?_ (State.haltNote_kept ..)
  refine Kept.trans ?_ (State.schedule_kept ..)
  assumption

theorem State.dbgWrite_kept (s : State) (c : Nat) (v : Word) : Kept s (State.dbgWrite s c v) := by
  unfold State.dbgWrite
  split
  · split
    · exact State.setGroup_kept ..
    · exact State.setBusy_kept ..
  · exact State.setBusy_kept ..

theorem execStepComplete_keeps (c : Fin 512) (s : State) : Keeps s (execStepComplete c s) := by
  unfold execStepComplete
  refine Keeps.next ?_
  exact State.setCluster_kept ..

theorem execScrubVisit_keeps (u : ScrubUnit) (s : State) : Keeps s (execScrubVisit u s) := by
  unfold execScrubVisit
  extract_lets k0 u0 k1 k2 u1
  clear_value k0 k1 k2
  have hu0 : Kept s u0 := by
    dsimp only [u0]
    exact State.finishWb_kept ..
  clear_value u0
  have hu1 : Kept s u1 := by
    dsimp only [u1]
    refine Kept.trans ?_ (State.scrubRead_kept ..)
    assumption
  clear_value u1
  refine Keeps.next ?_
  split
  · exact Kept.refl _
  · split
    · refine Kept.trans ?_ (State.modScrub_kept ..)
      assumption
    · refine Kept.trans ?_ (State.rotated_kept ..)
      refine Kept.trans ?_ (State.modScrub_kept ..)
      assumption

theorem execScrubEvaluation_keeps (u : ScrubUnit) (s : State) : Keeps s (execScrubEvaluation u s) := by
  unfold execScrubEvaluation
  refine Keeps.next ?_
  split
  · exact Kept.refl _
  · exact State.modScrub_kept ..

end Sys2Proof.Machine
end

