-- ==== Sys2Proof/Laws/KeptThreads.lean ====
section
/-!
SUPPORT. What is kept by the thread, engine, slot and sequencer commands.
-/
namespace Sys2Proof.Machine

/-! ### Clock -/

theorem State.setTai_kept (s : State) (x : Int) : Kept s (State.setTai s x) := by
  unfold State.setTai
  exact State.modTime_kept ..

theorem State.clusterClk_kept (s : State) (c d : Nat) : Kept s (State.clusterClk s c d) := by
  unfold State.clusterClk
  extract_lets k0
  clear_value k0
  refine Kept.trans ?_ (State.setCluster_kept ..)
  refine Kept.when ?_ (fun t => ?_)
  · refine Kept.when ?_ (fun t => ?_)
    · exact Kept.refl _
    · exact State.cnt_kept ..
  · exact State.cnt_kept ..

theorem State.quarterNs_kept (s : State) (q n : Nat) : Kept s (State.quarterNs s q n) := by
  unfold State.quarterNs
  extract_lets k0 k1 k2 u0
  clear_value k0 k1 k2
  have hu0 : Kept s u0 := by
    dsimp only [u0]
    exact State.modQuarter_kept ..
  clear_value u0
  refine Kept.each ?_ (fun t x => ?_)
  · refine Kept.when ?_ (fun t => ?_)
    · assumption
    · exact State.cnt_kept ..
  · exact State.clusterClk_kept ..

theorem State.pass_kept (s : State) (n : Nat) : Kept s (State.pass s n) := by
  unfold State.pass
  extract_lets u0 u1 k0 u2
  clear_value k0
  have hu0 : Kept s u0 := by
    dsimp only [u0]
    split
    · exact Kept.refl _
    · exact State.modTick_kept ..
  clear_value u0
  have hu1 : Kept s u1 := by
    dsimp only [u1]
    refine Kept.trans ?_ (State.modTime_kept ..)
    refine Kept.trans ?_ (State.setTai_kept ..)
    assumption
  clear_value u1
  have hu2 : Kept s u2 := by
    dsimp only [u2]
    refine Kept.mk ?_
    assumption
  clear_value u2
  refine Kept.trans ?_ (State.dueRekey_kept ..)
  refine Kept.trans ?_ (State.dueStatus_kept ..)
  refine Kept.trans ?_ (State.prbsRun_kept ..)
  split
  · refine Kept.each ?_ (fun t x => ?_)
    · assumption
    · exact State.quarterNs_kept ..
  · assumption

theorem State.passTo_kept (s : State) (ns : Nat) : Kept s (State.passTo s ns) := by
  unfold State.passTo
  split
  · exact State.pass_kept ..
  · exact Kept.refl _

/-! ### Slots -/

theorem State.slotsOver_kept (s : State) : Kept s (State.slotsOver s) := by
  unfold State.slotsOver
  exact State.modFab_kept ..

theorem State.modArmed_kept (s : State) (id : Nat) (tx : Bool) (f : Armed → Armed) :
    Kept s (State.modArmed s id tx f) := by
  unfold State.modArmed
  exact State.modFab_kept ..

theorem State.sendSeg_kept (s : State) (x : Slot) (a : Armed) (replay : Bool) (g : Nat × Nat × Nat) :
    Kept s (State.sendSeg s x a replay g) := by
  unfold State.sendSeg
  extract_lets k0 k1 k2
  clear_value k0 k1 k2
  refine Kept.trans ?_ (State.sendOn_kept ..)
  exact State.afterRead_kept ..

theorem State.sendSlot_kept (s : State) (id : Nat) (replay : Bool) : Kept s (State.sendSlot s id replay) := by
  unfold State.sendSlot
  extract_lets k0
  clear_value k0
  split
  · refine Kept.each ?_ (fun t x => ?_)
    · exact Kept.refl _
    · exact State.sendOn_kept ..
  · split
    · refine Kept.trans ?_ (State.modArmed_kept ..)
      refine Kept.each ?_ (fun t x => ?_)
      · exact Kept.refl _
      · exact State.sendSeg_kept ..
    · exact Kept.refl _

theorem State.sendReplay_kept (s : State) (id : Nat) : Kept s (State.sendReplay s id) := by
  unfold State.sendReplay
  extract_lets k0 k1
  clear_value k0 k1
  split
  · exact Kept.refl _
  · refine Kept.trans ?_ (State.cnt_kept ..)
    refine Kept.trans ?_ (State.sendSlot_kept ..)
    exact State.modFab_kept ..

theorem State.sendReplays_kept (s : State) : Kept s (State.sendReplays s) := by
  unfold State.sendReplays
  split
  · refine Kept.each ?_ (fun t x => ?_)
    · exact Kept.refl _
    · exact State.sendReplay_kept ..
  · exact Kept.refl _

theorem State.want_kept (s : State) (id : Nat) : Kept s (State.want s id) := by
  unfold State.want
  refine Kept.trans ?_ (State.sendReplays_kept ..)
  split
  · exact Kept.refl _
  · exact State.modFab_kept ..

theorem State.askReplay_kept (s : State) (id : Nat) : Kept s (State.askReplay s id) := by
  unfold State.askReplay
  extract_lets k0
  clear_value k0
  split
  · exact Kept.refl _
  · refine Kept.trans ?_ (State.modArmed_kept ..)
    exact State.sendOn_kept ..

theorem State.askLate_kept (s : State) : Kept s (State.askLate s) := by
  unfold State.askLate
  split
  · refine Kept.each ?_ (fun t x => ?_)
    · exact Kept.refl _
    · exact State.askReplay_kept ..
  · exact Kept.refl _

theorem State.arm_kept (s : State) (c id h off : Nat) (tx refresh : Bool) :
    Kept s (State.arm s c id h off tx refresh) := by
  unfold State.arm
  extract_lets k0 k1 u0
  clear_value k0 k1
  have hu0 : Kept s u0 := by
    dsimp only [u0]
    refine Kept.trans ?_ (State.modFab_kept ..)
    refine Kept.when ?_ (fun t => ?_)
    · exact Kept.refl _
    · exact State.cnt_kept ..
  clear_value u0
  split
  · split
    · refine Kept.trans ?_ (State.want_kept ..)
      assumption
    · refine Kept.trans ?_ (State.sendReplays_kept ..)
      assumption
  · refine Kept.trans ?_ (State.askLate_kept ..)
    assumption

theorem State.replayBegins_kept (s : State) (f : SlotFrame) : Kept s (State.replayBegins s f) := by
  unfold State.replayBegins
  exact State.modArmed_kept ..

theorem State.excSeg_kept (s : State) (f : SlotFrame) : Kept s (State.excSeg s f) := by
  unfold State.excSeg
  exact State.modArmed_kept ..

theorem State.badSlot_kept (s : State) (p : Nat) (f : SlotFrame) : Kept s (State.badSlot s p f) := by
  unfold State.badSlot
  extract_lets u0
  have hu0 : Kept s u0 := by
    dsimp only [u0]
    refine Kept.trans ?_ (State.violate_kept ..)
    exact State.cnt_kept ..
  clear_value u0
  split
  · refine Kept.trans ?_ (State.modArmed_kept ..)
    refine Kept.trans ?_ (State.excSeg_kept ..)
    assumption
  · refine Kept.trans ?_ (State.modFab_kept ..)
    assumption

theorem State.poisoned_kept (s : State) (x : Slot) (f : SlotFrame) : Kept s (State.poisoned s x f) := by
  unfold State.poisoned
  extract_lets u0
  have hu0 : Kept s u0 := by
    dsimp only [u0]
    refine Kept.trans ?_ (State.violate_kept ..)
    exact State.excSeg_kept ..
  clear_value u0
  split
  · refine Kept.trans ?_ (State.poisonKill_kept ..)
    assumption
  · refine Kept.trans ?_ (State.poisonKill_kept ..)
    assumption

theorem State.unarmedReplay_kept (s : State) (p : Nat) (f : SlotFrame) : Kept s (State.unarmedReplay s p f) := by
  unfold State.unarmedReplay
  split
  · exact State.modFab_kept ..
  · exact Kept.refl _

theorem State.gotSeg_kept (s : State) (x : Slot) (f : SlotFrame) : Kept s (State.gotSeg s x f) := by
  unfold State.gotSeg
  extract_lets u0
  have hu0 : Kept s u0 := by
    dsimp only [u0]
    exact State.modArmed_kept ..
  clear_value u0
  split
  · split
    · refine Kept.trans ?_ (State.cnt_kept ..)
      assumption
    · assumption
  · assumption

theorem State.takeSeg_kept (s : State) (x : Slot) (a : Armed) (f : SlotFrame) : Kept s (State.takeSeg s x a f) := by
  unfold State.takeSeg
  extract_lets k0 k1
  clear_value k0 k1
  split
  · refine Kept.trans ?_ (State.modArmed_kept ..)
    refine Kept.when ?_ (fun t => ?_)
    · exact Kept.refl _
    · exact State.cnt_kept ..
  · exact State.writeBytes_kept ..

theorem State.slotIn_kept (s : State) (p : Nat) (f : SlotFrame) : Kept s (State.slotIn s p f) := by
  unfold State.slotIn
  extract_lets k0 u0
  clear_value k0
  have hu0 : Kept s u0 := by
    dsimp only [u0]
    exact State.replayBegins_kept ..
  clear_value u0
  split
  · refine Kept.trans ?_ (State.badSlot_kept ..)
    exact State.disagreed_kept ..
  · split
    · exact State.badSlot_kept ..
    · split
      · exact State.sendOn_kept ..
      · split
        · exact Kept.refl _
        · split
          · refine Kept.trans ?_ (State.poisoned_kept ..)
            assumption
          · split
            · refine Kept.trans ?_ (State.excSeg_kept ..)
              assumption
            · split
              · refine Kept.trans ?_ (State.unarmedReplay_kept ..)
                assumption
              · split
                · assumption
                · refine Kept.trans ?_ (State.gotSeg_kept ..)
                  refine Kept.trans ?_ (State.takeSeg_kept ..)
                  assumption

theorem execSlotFrame_keeps (port : Fin 16) (a : Arrival) (f : SlotFrame) (s : State) :
    Keeps s (execSlotFrame port a f s) := by
  unfold execSlotFrame
  refine Keeps.next ?_
  split
  · split
    · refine Kept.trans ?_ (State.slotIn_kept ..)
      rename_i hq _
      have hk := congrArg Prod.fst hq
      dsimp only at hk
      rw [← hk]
      exact State.receive_fst ..
    · rename_i hq _
      have hk := congrArg Prod.fst hq
      dsimp only at hk
      rw [← hk]
      exact State.receive_fst ..
  · rename_i hq
    have hk := congrArg Prod.fst hq
    dsimp only at hk
    rw [← hk]
    exact State.receive_fst ..

theorem execSlotStart_keeps (slot : Fin 65536) (s : State) : Keeps s (execSlotStart slot s) := by
  unfold execSlotStart
  extract_lets k0 u0
  clear_value k0
  have hu0 : Kept s u0 := by
    dsimp only [u0]
    exact State.passTo_kept ..
  clear_value u0
  refine Keeps.next ?_
  split
  · exact Kept.refl _
  · split
    · refine Kept.trans ?_ (State.sendSlot_kept ..)
      assumption
    · split
      · split
        · assumption
        · refine Kept.trans ?_ (State.sendSlot_kept ..)
          assumption
      · assumption

theorem execSlotCheck_keeps (slot : Fin 65536) (s : State) : Keeps s (execSlotCheck slot s) := by
  unfold execSlotCheck
  extract_lets k0 u0 u1
  clear_value k0
  have hu0 : Kept s u0 := by
    dsimp only [u0]
    exact State.passTo_kept ..
  clear_value u0
  have hu1 : Kept s u1 := by
    dsimp only [u1]
    refine Kept.trans ?_ (State.modArmed_kept ..)
    assumption
  clear_value u1
  refine Keeps.next ?_
  split
  · exact Kept.refl _
  · split
    · assumption
    · split
      · assumption
      · extract_lets u2
        have hu2 : Kept s u2 := by
          dsimp only [u2]
          split
          · refine Kept.trans ?_ (State.cnt_kept ..)
            assumption
          · assumption
        clear_value u2
        split
        · assumption
        · refine Kept.trans ?_ (State.askReplay_kept ..)
          assumption

theorem execReplayReq_keeps (port : Fin 16) (a : Arrival) (slot tick : Nat) (s : State) :
    Keeps s (execReplayReq port a slot tick s) := by
  unfold execReplayReq
  refine Keeps.next ?_
  split
  · extract_lets k0
    clear_value k0
    split
    · rename_i hq _
      have hk := congrArg Prod.fst hq
      dsimp only at hk
      rw [← hk]
      exact State.receive_fst ..
    · split
      · refine Kept.trans ?_ (State.want_kept ..)
        rename_i hq _ _
        have hk := congrArg Prod.fst hq
        dsimp only at hk
        rw [← hk]
        exact State.receive_fst ..
      · split
        · refine Kept.trans ?_ (State.sendOn_kept ..)
          rename_i hq _ _ _
          have hk := congrArg Prod.fst hq
          dsimp only at hk
          rw [← hk]
          exact State.receive_fst ..
        · rename_i hq _ _ _
          have hk := congrArg Prod.fst hq
          dsimp only at hk
          rw [← hk]
          exact State.receive_fst ..
  · rename_i hq
    have hk := congrArg Prod.fst hq
    dsimp only at hk
    rw [← hk]
    exact State.receive_fst ..

/-! ### Operands -/

theorem State.breakHalt_kept (s : State) (c g : Nat) (x : Group) : Kept s (State.breakHalt s c g x) := by
  unfold State.breakHalt
  split
  · exact State.setBusy_kept ..
  · exact State.haltNote_kept ..

theorem State.faultHere_kept (s : State) (c g code : Nat) (x : Group) : Kept s (State.faultHere s c g code x) := by
  unfold State.faultHere
  exact State.threadFault_kept ..

theorem State.fetchTouch_kept (s : State) (c : Nat) (x : Group) : Kept s (State.fetchTouch s c x) := by
  unfold State.fetchTouch
  refine Kept.each ?_ (fun t x => ?_)
  · exact State.touchEntry_kept ..
  · exact State.touch_kept ..

theorem State.afterIssue_kept (s : State) (c g : Nat) : Kept s (State.afterIssue s c g) := by
  unfold State.afterIssue
  refine Kept.trans ?_ (State.schedule_kept ..)
  exact State.modGroup_kept ..

theorem State.issued_kept (s : State) (c g : Nat) : Kept s (State.issued s c g) := by
  unfold State.issued
  split
  · exact Kept.refl _
  · extract_lets k0 u0
    clear_value k0
    have hu0 : Kept s u0 := by
      dsimp only [u0]
      split
      · exact State.cnt_kept ..
      · exact Kept.refl _
    clear_value u0
    refine Kept.trans ?_ (State.draw_kept ..)
    refine Kept.trans ?_ (State.modCluster_kept ..)
    assumption

theorem State.issueHeld_kept (s : State) (c g op : Nat) (w : TWord) (legal : Bool) (regs : List Nat) (hold : Group
    → Bool) (body : State → Group → State) (hb : ∀ t y, Kept t (body t y)) :
    Kept s (State.issueHeld s c g op w legal regs hold body) := by
  unfold State.issueHeld
  split
  · exact Kept.refl _
  · extract_lets k0
    clear_value k0
    split
    · exact State.breakHalt_kept ..
    · split
      · refine Kept.trans ?_ (State.schedule_kept ..)
        exact State.faultHere_kept ..
      · split
        · exact Kept.refl _
        · refine Kept.trans ?_ (State.schedule_kept ..)
          refine Kept.trans ?_ (State.faultHere_kept ..)
          exact State.fetchTouch_kept ..
        · split
          · refine Kept.trans ?_ (State.schedule_kept ..)
            refine Kept.trans ?_ (State.faultHere_kept ..)
            exact State.fetchTouch_kept ..
          · split
            · refine Kept.trans ?_ (State.schedule_kept ..)
              exact State.setGroup_kept ..
            · refine Kept.trans ?_ (State.afterIssue_kept ..)
              refine Kept.trans ?_ (hb ..)
              refine Kept.trans ?_ (State.issued_kept ..)
              exact State.fetchTouch_kept ..

theorem State.issue_kept (s : State) (c g op : Nat) (w : TWord) (legal : Bool) (regs : List Nat) (body : State →
    Group → State) (hb : ∀ t y, Kept t (body t y)) :
    Kept s (State.issue s c g op w legal regs body) := by
  unfold State.issue
  refine State.issueHeld_kept (hb := fun t y => ?_) ..
  exact hb ..

theorem State.issueGroup_kept (s : State) (c g op : Nat) (w : TWord) (legal : Bool) (regs : List Nat) (f : State →
    Group → Group) :
    Kept s (State.issueGroup s c g op w legal regs f) := by
  unfold State.issueGroup
  refine State.issue_kept (hb := fun t y => ?_) ..
  exact State.setGroup_kept ..

theorem State.issueO_kept (s : State) (c g code : Nat) (w : TWord) (op : Word → Word → Word → Word) :
    Kept s (State.issueO s c g code w op) := by
  unfold State.issueO
  exact State.issueGroup_kept ..

theorem State.issueI_kept (s : State) (c g code : Nat) (w : TWord) (legal : Bool) (op : Word → Word) :
    Kept s (State.issueI s c g code w legal op) := by
  unfold State.issueI
  exact State.issueGroup_kept ..

/-! ### ThreadMem -/

theorem State.copySource_fst (s : State) (c t : Nat) (k : ThreadCopy) : Kept s (State.copySource s c t k).1 := by
  unfold State.copySource
  split
  · dsimp only
    exact Kept.refl _
  · extract_lets k0 u0
    clear_value k0
    have hu0 : Kept s u0 := by
      dsimp only [u0]
      exact State.touchEntry_kept ..
    clear_value u0
    split
    · dsimp only
      refine Kept.trans ?_ (State.draw_kept ..)
      assumption
    · dsimp only
      refine Kept.trans ?_ (State.afterRead_kept ..)
      assumption

theorem State.copyDest_kept (s : State) (c t : Nat) (k : ThreadCopy) (d : List Byte) :
    Kept s (State.copyDest s c t k d) := by
  unfold State.copyDest
  split
  · exact Kept.refl _
  · extract_lets u0
    have hu0 : Kept s u0 := by
      dsimp only [u0]
      exact State.touchEntry_kept ..
    clear_value u0
    split
    · assumption
    · refine Kept.trans ?_ (State.writeBytes_kept ..)
      assumption

theorem State.endCopy_kept (s : State) (c : Nat) (k : ThreadCopy) : Kept s (State.endCopy s c k) := by
  unfold State.endCopy
  exact State.modCluster_kept ..

theorem execCopyComplete_keeps (c : Fin 512) (id : Nat) (s : State) : Keeps s (execCopyComplete c id s) := by
  unfold execCopyComplete
  refine Keeps.next ?_
  split
  · exact Kept.refl _
  · split
    · exact Kept.refl _
    · extract_lets k0 k1 k2 u0
      clear_value k0 k1
      have hk2 : Kept s k2.1 := by
        dsimp only [k2]
        split
        · dsimp only
          exact Kept.refl _
        · exact State.copySource_fst ..
      clear_value k2
      have hu0 : Kept s u0 := by
        dsimp only [u0]
        split
        · exact Kept.refl _
        · refine Kept.trans ?_ (State.copyDest_kept ..)
          assumption
      clear_value u0
      refine Kept.trans ?_ (State.schedule_kept ..)
      refine Kept.trans ?_ (State.raise_kept ..)
      refine Kept.trans ?_ (State.endCopy_kept ..)
      assumption

theorem State.memory_kept (s : State) (c g : Nat) (w : TWord) (x : Group) (need : List Nat) (n : Nat) (act : State
    → Resolved → List (Nat × Nat) → State) (hb : ∀ t y z, Kept t (act t y z)) :
    Kept s (State.memory s c g w x need n act) := by
  unfold State.memory
  extract_lets k0 k1 u0
  clear_value k0 k1
  have hu0 : Kept s u0 := by
    dsimp only [u0]
    exact State.setGroup_kept ..
  clear_value u0
  split
  · assumption
  · split
    · refine Kept.trans ?_ (State.faultHere_kept ..)
      exact State.disagreed_kept ..
    · split
      · exact State.threadFault_kept ..
      · split
        · exact State.faultHere_kept ..
        · extract_lets u1
          have hu1 : Kept s u1 := by
            dsimp only [u1]
            split
            · exact Kept.refl _
            · exact State.touchEntry_kept ..
          clear_value u1
          split
          · refine Kept.trans ?_ (State.threadFault_kept ..)
            assumption
          · split
            · refine Kept.trans ?_ (State.threadFault_kept ..)
              assumption
            · refine Kept.trans ?_ (hb ..)
              refine Kept.trans ?_ (State.setGroup_kept ..)
              refine Kept.trans ?_ (State.touchEntry_kept ..)
              assumption

theorem State.remoteLanes_kept (s : State) (c g t op atom n : Nat) (e : HEntry) (l : List (Nat × Nat)) (data : Nat
    → List Byte) (cas : Nat → Nat) (use : Nat → ReqUse) :
    Kept s (State.remoteLanes s c g t op atom n e l data cas use) := by
  unfold State.remoteLanes
  refine Kept.trans ?_ (State.modFab_kept ..)
  exact State.modGroup_kept ..

theorem State.afterLoad_kept (s : State) (r : Resolved) (t n : Nat) (offs : List (Nat × Nat)) :
    Kept s (State.afterLoad s r t n offs) := by
  unfold State.afterLoad
  split
  · exact State.draw_kept ..
  · exact State.afterRead_kept ..

theorem execLd_keeps (c : Fin 512) (g : Fin 64) (w : BitVec 26) (s : State) : Keeps s (execLd c g w s) := by
  unfold execLd
  extract_lets k0 k1
  clear_value k0 k1
  refine Keeps.next ?_
  refine Kept.trans ?_ (State.pump_kept ..)
  refine State.issueHeld_kept (hb := fun t y => ?_) ..
  refine State.memory_kept (hb := fun t y z => ?_) ..
  split
  · exact State.remoteLanes_kept ..
  · refine Kept.trans ?_ (State.setGroup_kept ..)
    exact State.afterLoad_kept ..

theorem State.storeLanes_kept (s : State) (r : Resolved) (t : Nat) (l : List (Nat × List Byte)) :
    Kept s (State.storeLanes s r t l) := by
  unfold State.storeLanes
  split
  · exact Kept.refl _
  · exact State.writeBytes_kept ..

theorem execSt_keeps (c : Fin 512) (g : Fin 64) (w : BitVec 26) (s : State) : Keeps s (execSt c g w s) := by
  unfold execSt
  extract_lets k0
  clear_value k0
  refine Keeps.next ?_
  refine Kept.trans ?_ (State.pump_kept ..)
  refine State.issueHeld_kept (hb := fun t y => ?_) ..
  refine State.memory_kept (hb := fun t y z => ?_) ..
  split
  · exact State.remoteLanes_kept ..
  · exact State.storeLanes_kept ..

theorem State.atomLane_fst (s : State) (r : Resolved) (t op o : Nat) (v cas : Word) :
    Kept s (State.atomLane s r t op o v cas).1 := by
  unfold State.atomLane
  extract_lets k0 k1
  clear_value k0 k1
  split
  · dsimp only
    exact State.draw_kept ..
  · dsimp only
    refine Kept.trans ?_ (State.writeBytes_kept ..)
    exact State.afterRead_kept ..

theorem State.atomLanes_fst (s : State) (r : Resolved) (t op reg : Nat) (x : Group) (l : List (Nat × Nat)) :
    Kept s (State.atomLanes s r t op reg x l).1 := by
  induction l generalizing s r t op reg x
  · unfold State.atomLanes
    dsimp only
    exact Kept.refl _
  · rename_i x r ih
    unfold State.atomLanes
    extract_lets k0
    have hk0 : Kept s k0.1 := by
      dsimp only [k0]
      exact State.atomLane_fst ..
    clear_value k0
    refine Kept.trans ?_ (ih ..)
    assumption

theorem execAtom_keeps (c : Fin 512) (g : Fin 64) (w : BitVec 26) (s : State) : Keeps s (execAtom c g w s) := by
  unfold execAtom
  extract_lets k0
  clear_value k0
  refine Keeps.next ?_
  refine Kept.trans ?_ (State.pump_kept ..)
  refine State.issueHeld_kept (hb := fun t y => ?_) ..
  refine State.memory_kept (hb := fun t y z => ?_) ..
  split
  · exact State.remoteLanes_kept ..
  · extract_lets k1
    have hk1 : Kept t k1.1 := by
      dsimp only [k1]
      exact State.atomLanes_fst ..
    clear_value k1
    refine Kept.trans ?_ (State.setGroup_kept ..)
    assumption

theorem State.startCopy_kept (s : State) (c g : Nat) (x : Group) (d : CopyDesc) (counter : Nat) :
    Kept s (State.startCopy s c g x d counter) := by
  unfold State.startCopy
  extract_lets k0 k1 k2 u0 k3 k4 k5 k6 k7 k8
  clear_value k0 k1 k2 k3 k4 k5 k6 k8
  have hu0 : Kept s u0 := by
    dsimp only [u0]
    refine Kept.trans ?_ (State.setGroup_kept ..)
    exact State.modCluster_kept ..
  clear_value u0
  have hk7 : Kept s k7.1 := by
    dsimp only [k7]
    refine Kept.trans ?_ (State.copySource_fst ..)
    assumption
  clear_value k7
  split
  · refine Kept.trans ?_ (State.touchEntry_kept ..)
    refine Kept.trans ?_ (State.touchEntry_kept ..)
    assumption
  · split
    · refine Kept.each ?_ (fun t x => ?_)
      · refine Kept.trans ?_ (State.modCopy_kept ..)
        assumption
      · exact State.ask_kept ..
    · split
      · refine Kept.trans ?_ (State.copyWrites_kept ..)
        refine Kept.trans ?_ (State.modCopy_kept ..)
        assumption
      · assumption

theorem execCpy_keeps (c : Fin 512) (g : Fin 64) (w : BitVec 26) (s : State) : Keeps s (execCpy c g w s) := by
  unfold execCpy
  refine Keeps.next ?_
  split
  · split
    · exact Kept.refl _
    · refine Kept.trans ?_ (State.pump_kept ..)
      refine State.issue_kept (hb := fun t y => ?_) ..
      extract_lets k0
      clear_value k0
      split
      · exact State.threadFault_kept ..
      · split
        · refine Kept.trans ?_ (State.threadFault_kept ..)
          exact State.disagreed_kept ..
        · exact State.startCopy_kept ..
  · split
    · exact Kept.refl _
    · refine Kept.trans ?_ (State.pump_kept ..)
      refine State.issue_kept (hb := fun t y => ?_) ..
      extract_lets k0
      clear_value k0
      split
      · exact State.threadFault_kept ..
      · split
        · refine Kept.trans ?_ (State.threadFault_kept ..)
          exact State.disagreed_kept ..
        · exact State.startCopy_kept ..

/-! ### Engines -/

theorem State.holding_kept (s : State) (c n : Nat) (m : Word) : Kept s (State.holding s c n m) := by
  unfold State.holding
  exact State.modCluster_kept ..

theorem State.tensorStore_kept (s : State) (c : Nat) (d : Desc) (undef : Bool) :
    Kept s (State.tensorStore s c d undef) := by
  unfold State.tensorStore
  extract_lets k0 k1 k2 u0 u1 k3 k4
  clear_value k0 k1 k2 k3 k4
  have hu0 : Kept s u0 := by
    dsimp only [u0]
    exact State.afterRead_kept ..
  clear_value u0
  have hu1 : Kept s u1 := by
    dsimp only [u1]
    refine Kept.trans ?_ (State.afterRead_kept ..)
    assumption
  clear_value u1
  refine Kept.trans ?_ (State.writeBytes_kept ..)
  assumption

theorem State.vWrite_kept (s : State) (c t : Nat) (b : List Byte) (vals : List Nat) :
    Kept s (State.vWrite s c t b vals) := by
  unfold State.vWrite
  extract_lets k0 k1 k2 k3 k4 k5
  clear_value k0 k1 k2 k3 k4 k5
  split
  · exact State.writeBytes_kept ..
  · exact State.writeBytes_kept ..

theorem State.vectorStore_kept (s : State) (c : Nat) (d : Desc) (undef : Bool) :
    Kept s (State.vectorStore s c d undef) := by
  unfold State.vectorStore
  extract_lets k0 k1 u0 k2 u1 k3 u2
  clear_value k0 k1 k2 k3
  have hu0 : Kept s u0 := by
    dsimp only [u0]
    exact State.afterRead_kept ..
  clear_value u0
  have hu1 : Kept s u1 := by
    dsimp only [u1]
    split
    · refine Kept.trans ?_ (State.afterRead_kept ..)
      assumption
    · assumption
  clear_value u1
  have hu2 : Kept s u2 := by
    dsimp only [u2]
    refine Kept.trans ?_ (State.modCluster_kept ..)
    assumption
  clear_value u2
  refine Kept.trans ?_ (State.vWrite_kept ..)
  assumption

theorem State.copyStore_kept (s : State) (c : Nat) (d : Desc) (undef : Bool) :
    Kept s (State.copyStore s c d undef) := by
  unfold State.copyStore
  extract_lets k0 k1 k2 u0
  clear_value k0 k1 k2
  have hu0 : Kept s u0 := by
    dsimp only [u0]
    exact State.afterRead_kept ..
  clear_value u0
  refine Kept.trans ?_ (State.writeBytes_kept ..)
  assumption

theorem State.race_kept (s : State) (c n : Nat) (wr : List Nat) : Kept s (State.race s c n wr) := by
  unfold State.race
  refine Kept.each ?_ (fun t x => ?_)
  · exact Kept.refl _
  · extract_lets k0
    clear_value k0
    split
    · split
      · exact State.modCluster_kept ..
      · exact Kept.refl _
    · exact Kept.refl _

theorem State.engineComplete_kept (s : State) (c n : Nat) : Kept s (State.engineComplete s c n) := by
  unfold State.engineComplete
  extract_lets k0 k1
  clear_value k0 k1
  split
  · exact Kept.refl _
  · extract_lets k2 k3 u0 u1
    clear_value k2 k3
    have hu0 : Kept s u0 := by
      dsimp only [u0]
      refine Kept.trans ?_ (State.holding_kept ..)
      exact State.draw_kept ..
    clear_value u0
    have hu1 : Kept s u1 := by
      dsimp only [u1]
      split
      · refine Kept.trans ?_ (State.cnt_kept ..)
        refine Kept.trans ?_ (State.cnt_kept ..)
        refine Kept.trans ?_ (State.tensorStore_kept ..)
        assumption
      · refine Kept.trans ?_ (State.cnt_kept ..)
        refine Kept.trans ?_ (State.cnt_kept ..)
        refine Kept.trans ?_ (State.vectorStore_kept ..)
        assumption
      · refine Kept.trans ?_ (State.copyStore_kept ..)
        assumption
    clear_value u1
    refine Kept.trans ?_ (State.modCluster_kept ..)
    refine Kept.trans ?_ (State.race_kept ..)
    refine Kept.trans ?_ (State.holding_kept ..)
    assumption

theorem execTensorComplete_keeps (c : Fin 512) (s : State) : Keeps s (execTensorComplete c s) := by
  unfold execTensorComplete
  refine Keeps.next ?_
  exact State.engineComplete_kept ..

theorem execVectorComplete_keeps (c : Fin 512) (s : State) : Keeps s (execVectorComplete c s) := by
  unfold execVectorComplete
  refine Keeps.next ?_
  exact State.engineComplete_kept ..

theorem execCopyDescriptorComplete_keeps (c : Fin 512) (s : State) : Keeps s (execCopyDescriptorComplete c s) := by
  unfold execCopyDescriptorComplete
  refine Keeps.next ?_
  exact State.engineComplete_kept ..

/-! ### Sequencer -/

theorem State.setCtx_kept (s : State) (c k : Nat) (x : Ctx) : Kept s (State.setCtx s c k x) := by
  unfold State.setCtx
  exact State.modCluster_kept ..

theorem State.passHold_kept (s : State) (c k : Nat) : Kept s (State.passHold s c k) := by
  unfold State.passHold
  extract_lets k0
  clear_value k0
  split
  · exact Kept.refl _
  · exact State.pass_kept ..

theorem State.leaseStuck_kept (s : State) (c : Nat) : Kept s (State.leaseStuck s c) := by
  unfold State.leaseStuck
  exact State.setCtx_kept ..

theorem State.issueSeq_kept (s0 : State) (c k : Nat) (w : QWord) (kind : Nat) (legal lease tenant : Bool) (body :
    State → Ctx → State) (hb : ∀ t y, Kept t (body t y)) :
    Kept s0 (State.issueSeq s0 c k w kind legal lease tenant body) := by
  unfold State.issueSeq
  extract_lets u0 u1 k0 k1 k2 k3 u2
  clear_value k0 k1 k2 k3
  have hu0 : Kept s0 u0 := by
    dsimp only [u0]
    exact State.passHold_kept ..
  clear_value u0
  have hu1 : Kept s0 u1 := by
    dsimp only [u1]
    refine Kept.when ?_ (fun t => ?_)
    · assumption
    · exact State.cnt_kept ..
  clear_value u1
  have hu2 : Kept s0 u2 := by
    dsimp only [u2]
    refine Kept.trans ?_ (State.touch_kept ..)
    assumption
  clear_value u2
  split
  · exact Kept.refl _
  · split
    · assumption
    · split
      · split
        · refine Kept.trans ?_ (State.leaseStuck_kept ..)
          assumption
        · refine Kept.trans ?_ (State.seqFault_kept ..)
          assumption
      · split
        · split
          · refine Kept.trans ?_ (State.leaseStuck_kept ..)
            assumption
          · refine Kept.trans ?_ (hb ..)
            assumption
        · split
          · refine Kept.trans ?_ (State.seqFault_kept ..)
            assumption
          · refine Kept.trans ?_ (hb ..)
            assumption

theorem State.launchBlock_kept (s : State) (c t : Nat) (b : List Byte) : Kept s (State.launchBlock s c t b) := by
  unfold State.launchBlock
  extract_lets k0 k1
  clear_value k0 k1
  refine Kept.trans ?_ (State.schedule_kept ..)
  exact State.modCluster_kept ..

theorem State.launchOf_kept (s : State) (c k t : Nat) (w : QWord) (b : List Byte) :
    Kept s (State.launchOf s c k t w b) := by
  unfold State.launchOf
  split
  · exact State.seqFault_kept ..
  · extract_lets u0 u1
    have hu0 : Kept s u0 := by
      dsimp only [u0]
      refine Kept.trans ?_ (State.touchEntry_kept ..)
      exact State.touchEntry_kept ..
    clear_value u0
    have hu1 : Kept s u1 := by
      dsimp only [u1]
      refine Kept.trans ?_ (State.setCtx_kept ..)
      assumption
    clear_value u1
    split
    · assumption
    · refine Kept.trans ?_ (State.launchBlock_kept ..)
      assumption

theorem execLaunch_keeps (c : Fin 512) (k : Fin 9) (w : BitVec 64) (s : State) : Keeps s (execLaunch c k w s) := by
  unfold execLaunch
  extract_lets k0
  clear_value k0
  refine Keeps.next ?_
  refine State.issueSeq_kept (hb := fun t y => ?_) ..
  extract_lets k1 k2
  clear_value k1 k2
  split
  · exact State.seqFault_kept ..
  · refine Kept.trans ?_ (State.launchOf_kept ..)
    refine Kept.each ?_ (fun t x => ?_)
    · exact Kept.refl _
    · exact State.touch_kept ..

theorem execJoin_keeps (c : Fin 512) (k : Fin 9) (w : BitVec 64) (s : State) : Keeps s (execJoin c k w s) := by
  unfold execJoin
  extract_lets k0
  clear_value k0
  refine Keeps.next ?_
  refine State.issueSeq_kept (hb := fun t y => ?_) ..
  split
  · exact State.seqFault_kept ..
  · extract_lets k1
    clear_value k1
    split
    · exact State.setCtx_kept ..
    · exact State.setCtx_kept ..

theorem execJoinComplete_keeps (c : Fin 512) (blk : Fin 16) (s : State) : Keeps s (execJoinComplete c blk s) := by
  unfold execJoinComplete
  extract_lets k0
  clear_value k0
  refine Keeps.next ?_
  split
  · split
    · exact State.setCluster_kept ..
    · exact Kept.refl _
  · exact Kept.refl _

theorem State.hand_kept (s : State) (c k n off : Nat) (w : QWord) : Kept s (State.hand s c k n off w) := by
  unfold State.hand
  extract_lets k0 k1 k2 k3 u0 k4 k5 u1
  clear_value k0 k1 k2 k3 k4 k5
  have hu0 : Kept s u0 := by
    dsimp only [u0]
    refine Kept.each ?_ (fun t x => ?_)
    · exact Kept.refl _
    · exact State.touch_kept ..
  clear_value u0
  have hu1 : Kept s u1 := by
    dsimp only [u1]
    refine Kept.each ?_ (fun t x => ?_)
    · assumption
    · exact State.touchEntry_kept ..
  clear_value u1
  split
  · refine Kept.trans ?_ (State.setCtx_kept ..)
    assumption
  · split
    · extract_lets u2 u3
      have hu2 : Kept s u2 := by
        dsimp only [u2]
        split
        · refine Kept.trans ?_ (State.disagreed_kept ..)
          assumption
        · assumption
      clear_value u2
      have hu3 : Kept s u3 := by
        dsimp only [u3]
        split
        · assumption
        · refine Kept.trans ?_ (State.violate_kept ..)
          assumption
      clear_value u3
      refine Kept.trans ?_ (State.seqFault_kept ..)
      assumption
    · refine Kept.trans ?_ (State.modFab_kept ..)
      refine Kept.trans ?_ (State.modCluster_kept ..)
      refine Kept.trans ?_ (State.setCtx_kept ..)
      assumption

theorem State.issueEngine_kept (s : State) (c k : Nat) (w : QWord) (n : Nat) : Kept s (State.issueEngine s c k w n)
    := by
  unfold State.issueEngine
  extract_lets k0
  clear_value k0
  split
  · exact Kept.refl _
  · refine State.issueSeq_kept (hb := fun t y => ?_) ..
    split
    · exact State.seqFault_kept ..
    · exact State.hand_kept ..

theorem execIssueT_keeps (c : Fin 512) (k : Fin 9) (w : BitVec 64) (s : State) : Keeps s (execIssueT c k w s) := by
  unfold execIssueT
  refine Keeps.next ?_
  exact State.issueEngine_kept ..

theorem execIssueV_keeps (c : Fin 512) (k : Fin 9) (w : BitVec 64) (s : State) : Keeps s (execIssueV c k w s) := by
  unfold execIssueV
  refine Keeps.next ?_
  exact State.issueEngine_kept ..

theorem execIssueD_keeps (c : Fin 512) (k : Fin 9) (w : BitVec 64) (s : State) : Keeps s (execIssueD c k w s) := by
  unfold execIssueD
  refine Keeps.next ?_
  exact State.issueEngine_kept ..

theorem State.issueWord_kept (s : State) (c k : Nat) (w : QWord) (kind : Nat) (legal lease tenant : Bool) (f :
    State → Ctx → State) (hb : ∀ t y, Kept t (f t y)) :
    Kept s (State.issueWord s c k w kind legal lease tenant f) := by
  unfold State.issueWord
  refine State.issueSeq_kept (hb := fun t y => ?_) ..
  extract_lets k0
  clear_value k0
  exact hb ..

theorem State.noteSlack_kept (s : State) (c : Nat) (live : Bool) (v : Nat) : Kept s (State.noteSlack s c live v) := by
  unfold State.noteSlack
  split
  · exact Kept.refl _
  · exact State.modCluster_kept ..

theorem execWaitAt_keeps (c : Fin 512) (k : Fin 9) (w : BitVec 64) (s : State) : Keeps s (execWaitAt c k w s) := by
  unfold execWaitAt
  refine Keeps.next ?_
  split
  · exact Kept.refl _
  · refine State.issueWord_kept (hb := fun t y => ?_) ..
    extract_lets u0
    have hu0 : Kept t u0 := by
      dsimp only [u0]
      exact State.noteSlack_kept ..
    clear_value u0
    split
    · refine Kept.trans ?_ (State.cnt_kept ..)
      assumption
    · split
      · assumption
      · refine Kept.trans ?_ (State.setCtx_kept ..)
        assumption

theorem execWaitFor_keeps (c : Fin 512) (k : Fin 9) (w : BitVec 64) (s : State) : Keeps s (execWaitFor c k w s) := by
  unfold execWaitFor
  refine Keeps.next ?_
  split
  · exact Kept.refl _
  · refine State.issueWord_kept (hb := fun t y => ?_) ..
    exact State.setCtx_kept ..

theorem execWaitIdle_keeps (c : Fin 512) (k : Fin 9) (w : BitVec 64) (s : State) :
    Keeps s (execWaitIdle c k w s) := by
  unfold execWaitIdle
  refine Keeps.next ?_
  split
  · exact Kept.refl _
  · refine State.issueWord_kept (hb := fun t y => ?_) ..
    split
    · exact Kept.refl _
    · exact State.setCtx_kept ..

theorem execWaitRelease_keeps (c : Fin 512) (k : Fin 9) (s : State) : Keeps s (execWaitRelease c k s) := by
  unfold execWaitRelease
  extract_lets k0 k1
  clear_value k0
  refine Keeps.next ?_
  split
  · exact Kept.refl _
  · split
    · dsimp only [k1]
      refine Kept.trans ?_ (State.setCtx_kept ..)
      exact State.passTo_kept ..
    · dsimp only [k1]
      refine Kept.trans ?_ (State.setCtx_kept ..)
      exact State.pass_kept ..
    · split
      · dsimp only [k1]
        exact State.setCtx_kept ..
      · exact Kept.refl _
    · exact Kept.refl _
    · exact Kept.refl _

theorem State.issueSlot_kept (s : State) (c k : Nat) (w : QWord) (kind : Nat) (tx : Bool) :
    Kept s (State.issueSlot s c k w kind tx) := by
  unfold State.issueSlot
  extract_lets k0 k1 k2
  clear_value k0 k1 k2
  refine State.issueSeq_kept (hb := fun t y => ?_) ..
  extract_lets k3 u0
  clear_value k3
  have hu0 : Kept t u0 := by
    dsimp only [u0]
    exact State.touchEntry_kept ..
  clear_value u0
  split
  · refine Kept.trans ?_ (State.setCtx_kept ..)
    assumption
  · split
    · refine Kept.trans ?_ (State.seqFault_kept ..)
      refine Kept.trans ?_ (State.disagreed_kept ..)
      assumption
    · refine Kept.trans ?_ (State.arm_kept ..)
      refine Kept.trans ?_ (State.setCtx_kept ..)
      assumption

theorem execSlotTx_keeps (c : Fin 512) (k : Fin 9) (w : BitVec 64) (s : State) : Keeps s (execSlotTx c k w s) := by
  unfold execSlotTx
  refine Keeps.next ?_
  exact State.issueSlot_kept ..

theorem execSlotRx_keeps (c : Fin 512) (k : Fin 9) (w : BitVec 64) (s : State) : Keeps s (execSlotRx c k w s) := by
  unfold execSlotRx
  refine Keeps.next ?_
  exact State.issueSlot_kept ..

theorem execLease_keeps (c : Fin 512) (k : Fin 9) (w : BitVec 64) (s : State) : Keeps s (execLease c k w s) := by
  unfold execLease
  refine Keeps.next ?_
  refine State.issueWord_kept (hb := fun t y => ?_) ..
  exact State.modCluster_kept ..

theorem execMarkEnd_keeps (c : Fin 512) (k : Fin 9) (w : BitVec 64) (s : State) : Keeps s (execMarkEnd c k w s) := by
  unfold execMarkEnd
  refine Keeps.next ?_
  split
  · exact Kept.refl _
  · refine State.issueWord_kept (hb := fun t y => ?_) ..
    refine Kept.trans ?_ (State.setCtx_kept ..)
    exact State.noteSlack_kept ..

theorem execMarkTrace_keeps (c : Fin 512) (k : Fin 9) (w : BitVec 64) (s : State) :
    Keeps s (execMarkTrace c k w s) := by
  unfold execMarkTrace
  refine Keeps.next ?_
  split
  · exact Kept.refl _
  · refine State.issueWord_kept (hb := fun t y => ?_) ..
    extract_lets k0
    clear_value k0
    refine Kept.trans ?_ (State.modCluster_kept ..)
    refine Kept.foldl ?_ (fun t x => ?_)
    · exact Kept.refl _
    · exact State.wr_kept ..

theorem execLoopSet_keeps (c : Fin 512) (k : Fin 9) (w : BitVec 64) (s : State) : Keeps s (execLoopSet c k w s) := by
  unfold execLoopSet
  refine Keeps.next ?_
  split
  · exact Kept.refl _
  · refine State.issueWord_kept (hb := fun t y => ?_) ..
    exact State.setCtx_kept ..

theorem execLoopBack_keeps (c : Fin 512) (k : Fin 9) (w : BitVec 64) (s : State) :
    Keeps s (execLoopBack c k w s) := by
  unfold execLoopBack
  extract_lets k0 k1
  clear_value k0 k1
  refine Keeps.next ?_
  split
  · exact Kept.refl _
  · refine State.issueSeq_kept (hb := fun t y => ?_) ..
    split
    · split
      · exact State.leaseStuck_kept ..
      · exact State.seqFault_kept ..
    · extract_lets k2 k3
      clear_value k2 k3
      split
      · exact State.setCtx_kept ..
      · exact State.setCtx_kept ..

theorem execHalt_keeps (c : Fin 512) (k : Fin 9) (w : BitVec 64) (s : State) : Keeps s (execHalt c k w s) := by
  unfold execHalt
  refine Keeps.next ?_
  refine State.issueWord_kept (hb := fun t y => ?_) ..
  refine Kept.trans ?_ (State.setCtx_kept ..)
  exact State.noteSlack_kept ..

/-! ### Threads -/

theorem execIadd_keeps (c : Fin 512) (g : Fin 64) (w : BitVec 26) (s : State) : Keeps s (execIadd c g w s) := by
  unfold execIadd
  refine Keeps.next ?_
  exact State.issueO_kept ..

theorem execIsub_keeps (c : Fin 512) (g : Fin 64) (w : BitVec 26) (s : State) : Keeps s (execIsub c g w s) := by
  unfold execIsub
  refine Keeps.next ?_
  exact State.issueO_kept ..

theorem execImul_keeps (c : Fin 512) (g : Fin 64) (w : BitVec 26) (s : State) : Keeps s (execImul c g w s) := by
  unfold execImul
  refine Keeps.next ?_
  exact State.issueO_kept ..

theorem execImulhu_keeps (c : Fin 512) (g : Fin 64) (w : BitVec 26) (s : State) : Keeps s (execImulhu c g w s) := by
  unfold execImulhu
  refine Keeps.next ?_
  exact State.issueO_kept ..

theorem execImac_keeps (c : Fin 512) (g : Fin 64) (w : BitVec 26) (s : State) : Keeps s (execImac c g w s) := by
  unfold execImac
  refine Keeps.next ?_
  exact State.issueO_kept ..

theorem execAnd_keeps (c : Fin 512) (g : Fin 64) (w : BitVec 26) (s : State) : Keeps s (execAnd c g w s) := by
  unfold execAnd
  refine Keeps.next ?_
  exact State.issueO_kept ..

theorem execOr_keeps (c : Fin 512) (g : Fin 64) (w : BitVec 26) (s : State) : Keeps s (execOr c g w s) := by
  unfold execOr
  refine Keeps.next ?_
  exact State.issueO_kept ..

theorem execXor_keeps (c : Fin 512) (g : Fin 64) (w : BitVec 26) (s : State) : Keeps s (execXor c g w s) := by
  unfold execXor
  refine Keeps.next ?_
  exact State.issueO_kept ..

theorem execShl_keeps (c : Fin 512) (g : Fin 64) (w : BitVec 26) (s : State) : Keeps s (execShl c g w s) := by
  unfold execShl
  refine Keeps.next ?_
  exact State.issueO_kept ..

theorem execShr_keeps (c : Fin 512) (g : Fin 64) (w : BitVec 26) (s : State) : Keeps s (execShr c g w s) := by
  unfold execShr
  refine Keeps.next ?_
  exact State.issueO_kept ..

theorem execSar_keeps (c : Fin 512) (g : Fin 64) (w : BitVec 26) (s : State) : Keeps s (execSar c g w s) := by
  unfold execSar
  refine Keeps.next ?_
  exact State.issueO_kept ..

theorem execImin_keeps (c : Fin 512) (g : Fin 64) (w : BitVec 26) (s : State) : Keeps s (execImin c g w s) := by
  unfold execImin
  refine Keeps.next ?_
  exact State.issueO_kept ..

theorem execImax_keeps (c : Fin 512) (g : Fin 64) (w : BitVec 26) (s : State) : Keeps s (execImax c g w s) := by
  unfold execImax
  refine Keeps.next ?_
  exact State.issueO_kept ..

theorem execUmin_keeps (c : Fin 512) (g : Fin 64) (w : BitVec 26) (s : State) : Keeps s (execUmin c g w s) := by
  unfold execUmin
  refine Keeps.next ?_
  exact State.issueO_kept ..

theorem execUmax_keeps (c : Fin 512) (g : Fin 64) (w : BitVec 26) (s : State) : Keeps s (execUmax c g w s) := by
  unfold execUmax
  refine Keeps.next ?_
  exact State.issueO_kept ..

theorem execMov_keeps (c : Fin 512) (g : Fin 64) (w : BitVec 26) (s : State) : Keeps s (execMov c g w s) := by
  unfold execMov
  refine Keeps.next ?_
  exact State.issueGroup_kept ..

theorem execIcmp_keeps (c : Fin 512) (g : Fin 64) (w : BitVec 26) (s : State) : Keeps s (execIcmp c g w s) := by
  unfold execIcmp
  refine Keeps.next ?_
  exact State.issueGroup_kept ..

theorem execPbool_keeps (c : Fin 512) (g : Fin 64) (w : BitVec 26) (s : State) : Keeps s (execPbool c g w s) := by
  unfold execPbool
  refine Keeps.next ?_
  exact State.issueGroup_kept ..

theorem execLaneq_keeps (c : Fin 512) (g : Fin 64) (w : BitVec 26) (s : State) : Keeps s (execLaneq c g w s) := by
  unfold execLaneq
  refine Keeps.next ?_
  exact State.issueGroup_kept ..

theorem execXlane_keeps (c : Fin 512) (g : Fin 64) (w : BitVec 26) (s : State) : Keeps s (execXlane c g w s) := by
  unfold execXlane
  refine Keeps.next ?_
  exact State.issueGroup_kept ..

theorem execSysv_keeps (c : Fin 512) (g : Fin 64) (w : BitVec 26) (s : State) : Keeps s (execSysv c g w s) := by
  unfold execSysv
  refine Keeps.next ?_
  exact State.issueGroup_kept ..

theorem execFadd_keeps (c : Fin 512) (g : Fin 64) (w : BitVec 26) (s : State) : Keeps s (execFadd c g w s) := by
  unfold execFadd
  refine Keeps.next ?_
  exact State.issueO_kept ..

theorem execFsub_keeps (c : Fin 512) (g : Fin 64) (w : BitVec 26) (s : State) : Keeps s (execFsub c g w s) := by
  unfold execFsub
  refine Keeps.next ?_
  exact State.issueO_kept ..

theorem execFmul_keeps (c : Fin 512) (g : Fin 64) (w : BitVec 26) (s : State) : Keeps s (execFmul c g w s) := by
  unfold execFmul
  refine Keeps.next ?_
  exact State.issueO_kept ..

theorem execFfma_keeps (c : Fin 512) (g : Fin 64) (w : BitVec 26) (s : State) : Keeps s (execFfma c g w s) := by
  unfold execFfma
  refine Keeps.next ?_
  exact State.issueO_kept ..

theorem execFmin_keeps (c : Fin 512) (g : Fin 64) (w : BitVec 26) (s : State) : Keeps s (execFmin c g w s) := by
  unfold execFmin
  refine Keeps.next ?_
  exact State.issueO_kept ..

theorem execFmax_keeps (c : Fin 512) (g : Fin 64) (w : BitVec 26) (s : State) : Keeps s (execFmax c g w s) := by
  unfold execFmax
  refine Keeps.next ?_
  exact State.issueO_kept ..

theorem execFcmp_keeps (c : Fin 512) (g : Fin 64) (w : BitVec 26) (s : State) : Keeps s (execFcmp c g w s) := by
  unfold execFcmp
  refine Keeps.next ?_
  exact State.issueGroup_kept ..

theorem execCvt_keeps (c : Fin 512) (g : Fin 64) (w : BitVec 26) (s : State) : Keeps s (execCvt c g w s) := by
  unfold execCvt
  refine Keeps.next ?_
  exact State.issueGroup_kept ..

theorem execTfn_keeps (c : Fin 512) (g : Fin 64) (w : BitVec 26) (s : State) : Keeps s (execTfn c g w s) := by
  unfold execTfn
  refine Keeps.next ?_
  exact State.issueGroup_kept ..

theorem execIaddi_keeps (c : Fin 512) (g : Fin 64) (w : BitVec 26) (s : State) : Keeps s (execIaddi c g w s) := by
  unfold execIaddi
  refine Keeps.next ?_
  exact State.issueI_kept ..

theorem execAndi_keeps (c : Fin 512) (g : Fin 64) (w : BitVec 26) (s : State) : Keeps s (execAndi c g w s) := by
  unfold execAndi
  refine Keeps.next ?_
  exact State.issueI_kept ..

theorem execOri_keeps (c : Fin 512) (g : Fin 64) (w : BitVec 26) (s : State) : Keeps s (execOri c g w s) := by
  unfold execOri
  refine Keeps.next ?_
  exact State.issueI_kept ..

theorem execXori_keeps (c : Fin 512) (g : Fin 64) (w : BitVec 26) (s : State) : Keeps s (execXori c g w s) := by
  unfold execXori
  refine Keeps.next ?_
  exact State.issueI_kept ..

theorem execShli_keeps (c : Fin 512) (g : Fin 64) (w : BitVec 26) (s : State) : Keeps s (execShli c g w s) := by
  unfold execShli
  refine Keeps.next ?_
  exact State.issueI_kept ..

theorem execShri_keeps (c : Fin 512) (g : Fin 64) (w : BitVec 26) (s : State) : Keeps s (execShri c g w s) := by
  unfold execShri
  refine Keeps.next ?_
  exact State.issueI_kept ..

theorem execSari_keeps (c : Fin 512) (g : Fin 64) (w : BitVec 26) (s : State) : Keeps s (execSari c g w s) := by
  unfold execSari
  refine Keeps.next ?_
  exact State.issueI_kept ..

theorem execIcmpi_keeps (c : Fin 512) (g : Fin 64) (w : BitVec 26) (s : State) : Keeps s (execIcmpi c g w s) := by
  unfold execIcmpi
  refine Keeps.next ?_
  exact State.issueGroup_kept ..

theorem execMovl_keeps (c : Fin 512) (g : Fin 64) (w : BitVec 26) (s : State) : Keeps s (execMovl c g w s) := by
  unfold execMovl
  refine Keeps.next ?_
  exact State.issueGroup_kept ..

theorem execMovh_keeps (c : Fin 512) (g : Fin 64) (w : BitVec 26) (s : State) : Keeps s (execMovh c g w s) := by
  unfold execMovh
  refine Keeps.next ?_
  exact State.issueGroup_kept ..

theorem execUmovl_keeps (c : Fin 512) (g : Fin 64) (w : BitVec 26) (s : State) : Keeps s (execUmovl c g w s) := by
  unfold execUmovl
  refine Keeps.next ?_
  exact State.issueGroup_kept ..

theorem execUmovh_keeps (c : Fin 512) (g : Fin 64) (w : BitVec 26) (s : State) : Keeps s (execUmovh c g w s) := by
  unfold execUmovh
  refine Keeps.next ?_
  exact State.issueGroup_kept ..

theorem execUaddi_keeps (c : Fin 512) (g : Fin 64) (w : BitVec 26) (s : State) : Keeps s (execUaddi c g w s) := by
  unfold execUaddi
  refine Keeps.next ?_
  exact State.issueGroup_kept ..

theorem execRdlane_keeps (c : Fin 512) (g : Fin 64) (w : BitVec 26) (s : State) : Keeps s (execRdlane c g w s) := by
  unfold execRdlane
  refine Keeps.next ?_
  exact State.issueGroup_kept ..

theorem State.issueMove_kept (s : State) (c g op : Nat) (w : TWord) (legal : Bool) (f : Group → Option Group) :
    Kept s (State.issueMove s c g op w legal f) := by
  unfold State.issueMove
  refine State.issue_kept (hb := fun t y => ?_) ..
  split
  · exact State.setGroup_kept ..
  · exact State.faultHere_kept ..

theorem execBra_keeps (c : Fin 512) (g : Fin 64) (w : BitVec 26) (s : State) : Keeps s (execBra c g w s) := by
  unfold execBra
  refine Keeps.next ?_
  exact State.issueMove_kept ..

theorem execJmark_keeps (c : Fin 512) (g : Fin 64) (w : BitVec 26) (s : State) : Keeps s (execJmark c g w s) := by
  unfold execJmark
  refine Keeps.next ?_
  exact State.issueMove_kept ..

theorem execJn_keeps (c : Fin 512) (g : Fin 64) (w : BitVec 26) (s : State) : Keeps s (execJn c g w s) := by
  unfold execJn
  refine Keeps.next ?_
  exact State.issueMove_kept ..

theorem State.retire_kept (s : State) (c g : Nat) : Kept s (State.retire s c g) := by
  unfold State.retire
  split
  · exact Kept.refl _
  · refine Kept.trans ?_ (State.modFab_kept ..)
    exact State.removeGroup_kept ..

theorem execExit_keeps (c : Fin 512) (g : Fin 64) (w : BitVec 26) (s : State) : Keeps s (execExit c g w s) := by
  unfold execExit
  refine Keeps.next ?_
  refine State.issue_kept (hb := fun t y => ?_) ..
  exact State.retire_kept ..

theorem execFence_keeps (c : Fin 512) (g : Fin 64) (w : BitVec 26) (s : State) : Keeps s (execFence c g w s) := by
  unfold execFence
  refine Keeps.next ?_
  exact State.issueGroup_kept ..

theorem execFenceRelease_keeps (c : Fin 512) (g : Fin 64) (s : State) : Keeps s (execFenceRelease c g s) := by
  unfold execFenceRelease
  refine Keeps.next ?_
  split
  · split
    · split
      · refine Kept.trans ?_ (State.schedule_kept ..)
        exact State.setGroup_kept ..
      · exact Kept.refl _
    · exact Kept.refl _
  · exact Kept.refl _

theorem execArrive_keeps (c : Fin 512) (g : Fin 64) (w : BitVec 26) (s : State) : Keeps s (execArrive c g w s) := by
  unfold execArrive
  refine Keeps.next ?_
  refine State.issue_kept (hb := fun t y => ?_) ..
  refine Kept.trans ?_ (State.raiseDue_kept ..)
  refine Kept.trans ?_ (State.modCluster_kept ..)
  exact State.setGroup_kept ..

theorem execWaita_keeps (c : Fin 512) (g : Fin 64) (w : BitVec 26) (s : State) : Keeps s (execWaita c g w s) := by
  unfold execWaita
  refine Keeps.next ?_
  exact State.issueGroup_kept ..

theorem execWaitaRelease_keeps (c : Fin 512) (g : Fin 64) (s : State) : Keeps s (execWaitaRelease c g s) := by
  unfold execWaitaRelease
  refine Keeps.next ?_
  split
  · split
    · split
      · refine Kept.trans ?_ (State.schedule_kept ..)
        exact State.setGroup_kept ..
      · exact Kept.refl _
    · exact Kept.refl _
  · exact Kept.refl _

end Sys2Proof.Machine
end

