-- ==== Sys2Proof/Laws/KeptServices.lean ====
section
/-!
SUPPORT. What is kept by the services, time, power, the safety island, the tag, Trestle and boot.
-/
namespace Sys2Proof.Machine

/-! ### Services -/

theorem State.signalFn_kept (s : State) (t : Nat) : Kept s (State.signalFn s t) := by
  unfold State.signalFn
  refine Kept.trans ?_ (State.msix_kept ..)
  refine Kept.trans ?_ (State.event_kept ..)
  exact State.wr_kept ..

theorem State.withdrawStream_kept (s : State) (tick id : Nat) (x : Stream) :
    Kept s (State.withdrawStream s tick id x) := by
  unfold State.withdrawStream
  extract_lets k0 u0
  clear_value k0
  have hu0 : Kept s u0 := by
    dsimp only [u0]
    split
    · exact State.ledger_kept ..
    · split
      · refine Kept.trans ?_ (State.draw_kept ..)
        exact State.ledger_kept ..
      · exact Kept.refl _
  clear_value u0
  refine Kept.trans ?_ (State.freeId_kept ..)
  assumption

theorem State.withdrawNow_kept (s : State) (t : Nat) : Kept s (State.withdrawNow s t) := by
  unfold State.withdrawNow
  extract_lets u0 k0 u1 u2 u3 u4
  clear_value k0
  have hu0 : Kept s u0 := by
    dsimp only [u0]
    refine Kept.each ?_ (fun t x => ?_)
    · exact Kept.refl _
    · exact State.killDraws_kept ..
  clear_value u0
  have hu1 : Kept s u1 := by
    dsimp only [u1]
    refine Kept.mk ?_
    assumption
  clear_value u1
  have hu2 : Kept s u2 := by
    dsimp only [u2]
    refine Kept.trans ?_ (State.modTick_kept ..)
    assumption
  clear_value u2
  have hu3 : Kept s u3 := by
    dsimp only [u3]
    refine Kept.each ?_ (fun t x => ?_)
    · assumption
    · exact State.withdrawStream_kept ..
  clear_value u3
  have hu4 : Kept s u4 := by
    dsimp only [u4]
    refine Kept.trans ?_ (State.modSvc_kept ..)
    assumption
  clear_value u4
  refine Kept.trans ?_ (State.modFn_kept ..)
  assumption

theorem State.withdraw_kept (s : State) (t : Nat) : Kept s (State.withdraw s t) := by
  unfold State.withdraw
  refine Kept.trans ?_ (State.signalFn_kept ..)
  exact State.withdrawNow_kept ..

theorem State.delivered_kept (s : State) : Kept s (State.delivered s) := by
  unfold State.delivered
  extract_lets k0 u0 k1
  clear_value k0 k1
  have hu0 : Kept s u0 := by
    dsimp only [u0]
    refine Kept.each ?_ (fun t x => ?_)
    · exact Kept.refl _
    · split
      · exact Kept.refl _
      · exact State.setStream_kept ..
  clear_value u0
  refine Kept.trans ?_ (State.modSvc_kept ..)
  refine Kept.when ?_ (fun t => ?_)
  · assumption
  · exact State.cnt_kept ..

theorem State.closeFrame_kept (s : State) (f : OpenFrame) : Kept s (State.closeFrame s f) := by
  unfold State.closeFrame
  extract_lets k0 k1
  clear_value k0 k1
  refine Kept.trans ?_ (State.modSvc_kept ..)
  exact State.ledger_kept ..

theorem State.spawn_kept (s : State) (r : OutRecord) : Kept s (State.spawn s r) := by
  unfold State.spawn
  split
  · exact Kept.refl _
  · split
    · refine Kept.trans ?_ (State.draw_kept ..)
      refine Kept.trans ?_ (State.ledger_kept ..)
      exact State.cnt_kept ..
    · extract_lets k0 k1
      clear_value k1
      have hk0 : Kept s k0.1 := by
        dsimp only [k0]
        exact State.createStream_fst ..
      clear_value k0
      refine Kept.trans ?_ (State.arrive_kept ..)
      assumption

theorem State.applyRecord_kept (s : State) (r : OutRecord) : Kept s (State.applyRecord s r) := by
  unfold State.applyRecord
  split
  · exact Kept.refl _
  · split
    · exact Kept.refl _
    · split
      · exact State.spawn_kept ..
      · split
        · refine Kept.trans ?_ (State.freeId_kept ..)
          exact State.cnt_kept ..
        · exact State.finish_kept ..

theorem State.faulted_kept (s : State) (id code : Nat) : Kept s (State.faulted s id code) := by
  unfold State.faulted
  split
  · exact Kept.refl _
  · split
    · exact Kept.refl _
    · split
      · refine Kept.trans ?_ (State.freeId_kept ..)
        exact State.cnt_kept ..
      · exact State.finish_kept ..

theorem State.ledgerEvent_kept (s : State) (e : Nat × Nat × List Byte) : Kept s (State.ledgerEvent s e) := by
  unfold State.ledgerEvent
  exact State.ledger_kept ..

theorem State.releaseEgress_kept (s : State) (e : Egress) : Kept s (State.releaseEgress s e) := by
  unfold State.releaseEgress
  split
  · exact State.cnt_kept ..
  · split
    · split
      · exact Kept.refl _
      · exact State.writeHost_kept ..
    · exact State.nopDone_kept ..

theorem State.commitServices_kept (s : State) : Kept s (State.commitServices s) := by
  unfold State.commitServices
  extract_lets u0 u1 u2 u3 u4 u5 u6 u7
  have hu0 : Kept s u0 := by
    dsimp only [u0]
    refine Kept.each ?_ (fun t x => ?_)
    · exact Kept.refl _
    · exact State.withdraw_kept ..
  clear_value u0
  have hu1 : Kept s u1 := by
    dsimp only [u1]
    refine Kept.trans ?_ (State.delivered_kept ..)
    assumption
  clear_value u1
  have hu2 : Kept s u2 := by
    dsimp only [u2]
    refine Kept.each ?_ (fun t x => ?_)
    · assumption
    · exact State.closeFrame_kept ..
  clear_value u2
  have hu3 : Kept s u3 := by
    dsimp only [u3]
    refine Kept.each ?_ (fun t x => ?_)
    · assumption
    · exact State.applyRecord_kept ..
  clear_value u3
  have hu4 : Kept s u4 := by
    dsimp only [u4]
    refine Kept.each ?_ (fun t x => ?_)
    · assumption
    · split
      · exact State.faulted_kept ..
      · exact Kept.refl _
  clear_value u4
  have hu5 : Kept s u5 := by
    dsimp only [u5]
    refine Kept.each ?_ (fun t x => ?_)
    · assumption
    · exact State.faulted_kept ..
  clear_value u5
  have hu6 : Kept s u6 := by
    dsimp only [u6]
    refine Kept.each ?_ (fun t x => ?_)
    · assumption
    · exact State.ledgerEvent_kept ..
  clear_value u6
  have hu7 : Kept s u7 := by
    dsimp only [u7]
    refine Kept.each ?_ (fun t x => ?_)
    · assumption
    · exact State.releaseEgress_kept ..
  clear_value u7
  refine Kept.trans ?_ (State.ringDoorbells_kept ..)
  refine Kept.trans ?_ (State.modTick_kept ..)
  refine Kept.trans ?_ (State.modSvc_kept ..)
  assumption

theorem State.intakeAgain_kept (s : State) : Kept s (State.intakeAgain s) := by
  unfold State.intakeAgain
  exact State.modSvc_kept ..

theorem State.undoServices_kept (s : State) : Kept s (State.undoServices s) := by
  unfold State.undoServices
  refine Kept.trans ?_ (State.intakeAgain_kept ..)
  exact State.modSvc_kept ..

theorem State.pubDrain_kept (s : State) (l : List (List Byte)) : Kept s (State.pubDrain s l) := by
  induction l generalizing s
  · unfold State.pubDrain
    exact Kept.refl _
  · rename_i r r ih
    unfold State.pubDrain
    split
    · exact Kept.refl _
    · extract_lets k0 k1 k2 u0
      clear_value k0 k1 k2
      have hu0 : Kept s u0 := by
        dsimp only [u0]
        refine Kept.trans ?_ (State.writeHost_kept ..)
        exact State.writeHost_kept ..
      clear_value u0
      refine Kept.trans ?_ (ih ..)
      refine Kept.trans ?_ (State.modSvc_kept ..)
      assumption

theorem State.pubHead_kept (s : State) (v : Nat) : Kept s (State.pubHead s v) := by
  unfold State.pubHead
  extract_lets u0
  have hu0 : Kept s u0 := by
    dsimp only [u0]
    exact State.modSvc_kept ..
  clear_value u0
  refine Kept.trans ?_ (State.pubDrain_kept ..)
  assumption

theorem State.writeBlock_kept (s : State) : Kept s (State.writeBlock s) := by
  unfold State.writeBlock
  split
  · exact Kept.refl _
  · split
    · exact State.modSvc_kept ..
    · extract_lets k0 k1 k2 k3 k4 u0
      clear_value k0 k1 k2 k3 k4
      have hu0 : Kept s u0 := by
        dsimp only [u0]
        refine Kept.trans ?_ (State.writeHost_kept ..)
        exact State.writeHost_kept ..
      clear_value u0
      refine Kept.trans ?_ (State.event_kept ..)
      refine Kept.trans ?_ (State.modSvc_kept ..)
      assumption

theorem State.ledgerHead_kept (s : State) (v : Nat) : Kept s (State.ledgerHead s v) := by
  unfold State.ledgerHead
  extract_lets u0
  have hu0 : Kept s u0 := by
    dsimp only [u0]
    exact State.modSvc_kept ..
  clear_value u0
  split
  · refine Kept.trans ?_ (State.writeBlock_kept ..)
    assumption
  · assumption

theorem State.newNight_kept (s : State) : Kept s (State.newNight s) := by
  unfold State.newNight
  refine Kept.trans ?_ (State.note_kept ..)
  exact State.modSvc_kept ..

theorem State.pubStart_kept (s : State) : Kept s (State.pubStart s) := by
  unfold State.pubStart
  extract_lets u0
  have hu0 : Kept s u0 := by
    dsimp only [u0]
    exact State.modSvc_kept ..
  clear_value u0
  refine Kept.trans ?_ (State.pubDrain_kept ..)
  assumption

theorem State.ledgerRestart_kept (s : State) : Kept s (State.ledgerRestart s) := by
  unfold State.ledgerRestart
  exact State.modSvc_kept ..

theorem State.hubTagOff_kept (s : State) (pg : PageType) (tenant : Nat) : Kept s (State.hubTagOff s pg tenant) := by
  unfold State.hubTagOff
  exact State.violate_kept ..

theorem State.intakeTarget_kept (s : State) (p : Nat × Nat) : Kept s (State.intakeTarget s p) := by
  unfold State.intakeTarget
  extract_lets k0 u0 k1 k2 k3 k4 k5
  clear_value k0 k1 k2 k3 k4 k5
  have hu0 : Kept s u0 := by
    dsimp only [u0]
    exact State.touchEntry_kept ..
  clear_value u0
  split
  · exact Kept.refl _
  · split
    · exact State.hubTagOff_kept ..
    · split
      · assumption
      · refine Kept.trans ?_ (State.writeBytes_kept ..)
        refine Kept.trans ?_ (State.modSvc_kept ..)
        assumption

theorem State.intake_kept (s : State) : Kept s (State.intake s) := by
  unfold State.intake
  refine Kept.each ?_ (fun t x => ?_)
  · exact Kept.refl _
  · exact State.intakeTarget_kept ..

theorem State.modFrame_kept (s : State) (exposure sensor : Nat) (f : OpenFrame → OpenFrame) :
    Kept s (State.modFrame s exposure sensor f) := by
  unfold State.modFrame
  exact State.modSvc_kept ..

theorem State.acceptTile_kept (s : State) (t : Tile) (k : StreamClass) (f : OpenFrame) :
    Kept s (State.acceptTile s t k f) := by
  unfold State.acceptTile
  split
  · refine Kept.trans ?_ (State.modFrame_kept ..)
    exact State.cnt_kept ..
  · split
    · refine Kept.trans ?_ (State.modFrame_kept ..)
      exact State.cnt_kept ..
    · extract_lets u0
      have hu0 : Kept s u0 := by
        dsimp only [u0]
        refine Kept.trans ?_ (State.modFrame_kept ..)
        exact State.cnt_kept ..
      clear_value u0
      split
      · assumption
      · split
        · assumption
        · refine Kept.trans ?_ (State.arrive_kept ..)
          assumption

theorem State.openFrame_kept (s : State) (t : Tile) (k : StreamClass) : Kept s (State.openFrame s t k) := by
  unfold State.openFrame
  extract_lets k0
  have hk0 : Kept s k0.1 := by
    dsimp only [k0]
    exact State.createStream_fst ..
  clear_value k0
  refine Kept.trans ?_ (State.modSvc_kept ..)
  assumption

theorem State.placeTile_kept (s : State) (t : Tile) (k : StreamClass) : Kept s (State.placeTile s t k) := by
  unfold State.placeTile
  split
  · exact State.cnt_kept ..
  · split
    · exact State.acceptTile_kept ..
    · split
      · extract_lets u0
        have hu0 : Kept s u0 := by
          dsimp only [u0]
          exact State.openFrame_kept ..
        clear_value u0
        split
        · refine Kept.trans ?_ (State.acceptTile_kept ..)
          assumption
        · assumption
      · extract_lets u0
        have hu0 : Kept s u0 := by
          dsimp only [u0]
          refine Kept.when ?_ (fun t => ?_)
          · exact Kept.refl _
          · exact State.streamRefused_kept ..
        clear_value u0
        split
        · refine Kept.trans ?_ (State.event_kept ..)
          refine Kept.trans ?_ (State.cnt_kept ..)
          assumption
        · refine Kept.trans ?_ (State.modSvc_kept ..)
          assumption

theorem State.badRecord_kept (s : State) (tenant addr : Nat) : Kept s (State.badRecord s tenant addr) := by
  unfold State.badRecord
  refine Kept.trans ?_ (State.violate_kept ..)
  exact State.cnt_kept ..

theorem collectRecords_fst (n : Nat) (x : Collect) (k : StreamClass) (c : Nat) (e : HEntry) (data : List Byte) (off
    : Nat) :
    Kept x.1 (collectRecords n x k c e data off).1 := by
  induction n generalizing x k c e data off
  · unfold collectRecords
    exact Kept.refl _
  · rename_i n ih
    unfold collectRecords
    extract_lets u0 k0 k1 k2 k3 k4 k5 k6 k7 u1
    clear_value k0 k1 k2 k3 k4 k5 k6 k7
    have hu0 : Kept (Prod.fst x) u0 := by
      dsimp only [u0]
      exact Kept.refl _
    clear_value u0
    have hu1 : Kept (Prod.fst x) u1 := by
      dsimp only [u1]
      split
      · refine Kept.trans ?_ (State.tickFault_kept ..)
        refine Kept.trans ?_ (State.violate_kept ..)
        assumption
      · split
        · refine Kept.trans ?_ (State.badRecord_kept ..)
          assumption
        · split
          · refine Kept.trans ?_ (State.tickFault_kept ..)
            refine Kept.trans ?_ (State.violate_kept ..)
            assumption
          · refine Kept.trans ?_ (State.modSvc_kept ..)
            assumption
    clear_value u1
    split
    · dsimp only
      refine Kept.trans ?_ (State.badRecord_kept ..)
      assumption
    · refine Kept.trans ?_ (ih ..)
      dsimp only
      assumption

theorem collectOutlet_fst (x : Collect) (k : StreamClass) (o : Nat × Nat) : Kept x.1 (collectOutlet x k o).1 := by
  unfold collectOutlet
  extract_lets u0 k0 u1 k1 k2 k3
  clear_value k0 k1 k2 k3
  have hu0 : Kept (Prod.fst x) u0 := by
    dsimp only [u0]
    exact Kept.refl _
  clear_value u0
  have hu1 : Kept (Prod.fst x) u1 := by
    dsimp only [u1]
    refine Kept.trans ?_ (State.touchEntry_kept ..)
    assumption
  clear_value u1
  split
  · exact Kept.refl _
  · split
    · dsimp only
      refine Kept.trans ?_ (State.hubTagOff_kept ..)
      assumption
    · split
      · dsimp only
        assumption
      · refine Kept.trans ?_ (collectRecords_fst ..)
        dsimp only
        refine Kept.trans ?_ (State.afterRead_kept ..)
        assumption

theorem State.collect_kept (s : State) (crcOk : List Bool) : Kept s (State.collect s crcOk) := by
  unfold State.collect
  extract_lets k0
  clear_value k0
  refine Kept.foldlFst ?_ (fun t x => ?_)
  · dsimp only
    exact Kept.refl _
  · refine Kept.foldlFst ?_ (fun t x => ?_)
    · exact Kept.refl _
    · exact collectOutlet_fst ..

theorem execCollectionComplete_keeps (crcOk : List Bool) (s : State) : Keeps s (execCollectionComplete crcOk s) := by
  unfold execCollectionComplete
  refine Keeps.next ?_
  split
  · refine Kept.trans ?_ (State.collect_kept ..)
    exact State.modSvc_kept ..
  · exact Kept.refl _

theorem execStreamLifetime_keeps (stream : Fin 65536) (s : State) : Keeps s (execStreamLifetime stream s) := by
  unfold execStreamLifetime
  refine Keeps.next ?_
  split
  · exact Kept.refl _
  · split
    · exact Kept.refl _
    · split
      · exact Kept.refl _
      · exact State.modSvc_kept ..

theorem execFrameOpen_keeps (s : State) : Keeps s (execFrameOpen s) := by
  unfold execFrameOpen
  refine Keeps.next ?_
  split
  · exact Kept.refl _
  · split
    · exact Kept.refl _
    · extract_lets k0 u0
      clear_value k0
      have hu0 : Kept s u0 := by
        dsimp only [u0]
        refine Kept.trans ?_ (State.openFrame_kept ..)
        exact State.modSvc_kept ..
      clear_value u0
      refine Kept.each ?_ (fun t x => ?_)
      · assumption
      · split
        · exact State.acceptTile_kept ..
        · exact Kept.refl _

theorem execFrameWindowClose_keeps (exposure sensor : Nat) (s : State) :
    Keeps s (execFrameWindowClose exposure sensor s) := by
  unfold execFrameWindowClose
  refine Keeps.next ?_
  split
  · exact Kept.refl _
  · split
    · split
      · exact Kept.refl _
      · extract_lets k0 k1 k2 k3
        clear_value k0 k1 k2 k3
        refine Kept.trans ?_ (State.modSvc_kept ..)
        refine Kept.trans ?_ (State.modFrame_kept ..)
        refine Kept.when ?_ (fun t => ?_)
        · exact Kept.refl _
        · exact State.cnt_kept ..
    · exact Kept.refl _

theorem State.pubDatagram_kept (s : State) (d : Nat) (rec1 : List Byte) : Kept s (State.pubDatagram s d rec1) := by
  unfold State.pubDatagram
  extract_lets k0 k1
  clear_value k0 k1
  split
  · exact State.send_kept ..
  · exact State.cnt_kept ..

theorem State.publish_kept (s : State) (id : Nat) (x : Stream) : Kept s (State.publish s id x) := by
  unfold State.publish
  split
  · exact State.freeId_kept ..
  · extract_lets k0 u0 u1 u2
    clear_value k0
    have hu0 : Kept s u0 := by
      dsimp only [u0]
      refine Kept.when ?_ (fun t => ?_)
      · exact State.cnt_kept ..
      · exact State.pubDatagram_kept ..
    clear_value u0
    have hu1 : Kept s u1 := by
      dsimp only [u1]
      refine Kept.trans ?_ (State.modSvc_kept ..)
      assumption
    clear_value u1
    have hu2 : Kept s u2 := by
      dsimp only [u2]
      split
      · refine Kept.trans ?_ (State.pubDrain_kept ..)
        assumption
      · assumption
    clear_value u2
    refine Kept.trans ?_ (State.freeId_kept ..)
    assumption

theorem execDigestComplete_keeps (stream : Fin 65536) (s : State) : Keeps s (execDigestComplete stream s) := by
  unfold execDigestComplete
  refine Keeps.next ?_
  split
  · exact Kept.refl _
  · split
    · exact Kept.refl _
    · extract_lets u0
      have hu0 : Kept s u0 := by
        dsimp only [u0]
        refine Kept.trans ?_ (State.setStream_kept ..)
        exact State.cnt_kept ..
      clear_value u0
      split
      · split
        · refine Kept.trans ?_ (State.walk_kept ..)
          assumption
        · refine Kept.trans ?_ (State.releaseEnd_kept ..)
          assumption
      · split
        · refine Kept.trans ?_ (State.publish_kept ..)
          assumption
        · refine Kept.trans ?_ (State.freeId_kept ..)
          assumption

theorem execLedgerCheckpoint_keeps (s : State) : Keeps s (execLedgerCheckpoint s) := by
  unfold execLedgerCheckpoint
  extract_lets k0
  clear_value k0
  refine Keeps.next ?_
  split
  · exact State.writeBlock_kept ..
  · exact Kept.refl _

/-! ### Power -/

theorem State.powerState_kept (s : State) (x : PowerState) : Kept s (State.powerState s x) := by
  unfold State.powerState
  refine Kept.trans ?_ (State.event_kept ..)
  exact State.modPower_kept ..

theorem State.startWake_kept (s : State) (src : Nat) : Kept s (State.startWake s src) := by
  unfold State.startWake
  extract_lets u0
  have hu0 : Kept s u0 := by
    dsimp only [u0]
    refine Kept.trans ?_ (State.powerState_kept ..)
    exact State.modPower_kept ..
  clear_value u0
  refine Kept.each ?_ (fun t x => ?_)
  · assumption
  · refine Kept.trans ?_ (State.modPort_kept ..)
    exact State.send_kept ..

theorem State.wake_kept (s : State) (src : Nat) : Kept s (State.wake s src) := by
  unfold State.wake
  split
  · exact Kept.refl _
  · split
    · exact State.startWake_kept ..
    · exact State.modPower_kept ..
    · split
      · exact State.modPower_kept ..
      · exact Kept.refl _
    · exact Kept.refl _

theorem State.avsWrite_kept (s : State) (q mv : Nat) : Kept s (State.avsWrite s q mv) := by
  unfold State.avsWrite
  refine Kept.trans ?_ (State.send_kept ..)
  refine Kept.trans ?_ (State.modPower_kept ..)
  exact State.modQuarter_kept ..

theorem State.stepDown_kept (s : State) (q low : Nat) : Kept s (State.stepDown s q low) := by
  unfold State.stepDown
  extract_lets k0
  clear_value k0
  split
  · exact Kept.refl _
  · split
    · refine Kept.trans ?_ (State.avsWrite_kept ..)
      exact State.modQuarter_kept ..
    · split
      · exact Kept.refl _
      · exact State.modQuarter_kept ..

theorem State.stepUp_kept (s : State) (q : Nat) : Kept s (State.stepUp s q) := by
  unfold State.stepUp
  extract_lets k0
  clear_value k0
  split
  · exact Kept.refl _
  · refine Kept.trans ?_ (State.avsWrite_kept ..)
    exact State.modQuarter_kept ..

theorem State.steerQuarter_kept (s : State) (q : Nat) : Kept s (State.steerQuarter s q) := by
  unfold State.steerQuarter
  extract_lets k0 k1 k2 u0 k3
  clear_value k0 k1 k2
  have hu0 : Kept s u0 := by
    dsimp only [u0]
    exact State.modQuarter_kept ..
  clear_value u0
  split
  · assumption
  · split
    · dsimp only [k3]
      split
      · assumption
      · refine Kept.trans ?_ (State.stepDown_kept ..)
        assumption
    · split
      · dsimp only [k3]
        split
        · assumption
        · refine Kept.trans ?_ (State.stepDown_kept ..)
          assumption
      · split
        · refine Kept.trans ?_ (State.stepUp_kept ..)
          assumption
        · split
          · dsimp only [k3]
            split
            · assumption
            · refine Kept.trans ?_ (State.stepDown_kept ..)
              assumption
          · assumption

theorem State.seekFloor_kept (s : State) : Kept s (State.seekFloor s) := by
  unfold State.seekFloor
  refine Kept.each ?_ (fun t x => ?_)
  · exact Kept.refl _
  · split
    · exact State.stepUp_kept ..
    · exact Kept.refl _

theorem State.enterDoze_kept (s : State) : Kept s (State.enterDoze s) := by
  unfold State.enterDoze
  split
  · refine Kept.trans ?_ (State.powerState_kept ..)
    exact State.cnt_kept ..
  · exact Kept.refl _

theorem State.startDoze_kept (s : State) : Kept s (State.startDoze s) := by
  unfold State.startDoze
  refine Kept.trans ?_ (State.enterDoze_kept ..)
  refine Kept.trans ?_ (State.tellAll_kept ..)
  exact State.modPower_kept ..

theorem State.askDoze_kept (s : State) : Kept s (State.askDoze s) := by
  unfold State.askDoze
  split
  · refine Kept.trans ?_ (State.modTick_kept ..)
    exact State.modPower_kept ..
  · exact State.startDoze_kept ..

theorem State.avsRetry_kept (s : State) : Kept s (State.avsRetry s) := by
  unfold State.avsRetry
  refine Kept.each ?_ (fun t x => ?_)
  · exact State.modPower_kept ..
  · exact State.modQuarter_kept ..

theorem State.noteOverruns_kept (s : State) : Kept s (State.noteOverruns s) := by
  unfold State.noteOverruns
  refine Kept.each ?_ (fun t x => ?_)
  · exact Kept.refl _
  · split
    · split
      · exact State.modQuarter_kept ..
      · exact Kept.refl _
    · exact Kept.refl _

theorem State.overrunSteps_kept (s : State) : Kept s (State.overrunSteps s) := by
  unfold State.overrunSteps
  refine Kept.each ?_ (fun t x => ?_)
  · exact Kept.refl _
  · split
    · refine Kept.trans ?_ (State.stepUp_kept ..)
      exact State.modQuarter_kept ..
    · exact Kept.refl _

theorem State.forceFloor_kept (s : State) : Kept s (State.forceFloor s) := by
  unfold State.forceFloor
  refine Kept.each ?_ (fun t x => ?_)
  · exact Kept.refl _
  · split
    · refine Kept.trans ?_ (State.avsWrite_kept ..)
      exact State.modQuarter_kept ..
    · exact Kept.refl _

theorem State.raiseNow_kept (s : State) (q : Nat) : Kept s (State.raiseNow s q) := by
  unfold State.raiseNow
  extract_lets k0
  clear_value k0
  split
  · exact Kept.refl _
  · split
    · exact Kept.refl _
    · exact State.modQuarter_kept ..

theorem State.lowerNow_kept (s : State) (q : Nat) : Kept s (State.lowerNow s q) := by
  unfold State.lowerNow
  split
  · exact Kept.refl _
  · refine Kept.trans ?_ (State.avsWrite_kept ..)
    exact State.modQuarter_kept ..

theorem State.applySteer_kept (s : State) : Kept s (State.applySteer s) := by
  unfold State.applySteer
  refine Kept.each ?_ (fun t x => ?_)
  · exact Kept.refl _
  · refine Kept.trans ?_ (State.raiseNow_kept ..)
    exact State.lowerNow_kept ..

theorem execTile_keeps (port : Fin 16) (t : Tile) (s : State) : Keeps s (execTile port t s) := by
  unfold execTile
  refine Keeps.next ?_
  split
  · exact Kept.refl _
  · split
    · split
      · refine Kept.trans ?_ (State.wake_kept ..)
        exact State.placeTile_kept ..
      · exact State.cnt_kept ..
    · refine Kept.trans ?_ (State.cnt_kept ..)
      exact State.cnt_kept ..

theorem execAvsbusFailure_keeps (rail : Fin 5) (s : State) : Keeps s (execAvsbusFailure rail s) := by
  unfold execAvsbusFailure
  extract_lets k0 k1 u0 u1
  clear_value k0 k1
  have hu0 : Kept s u0 := by
    dsimp only [u0]
    refine Kept.mk ?_
    exact Kept.refl _
  clear_value u0
  have hu1 : Kept s u1 := by
    dsimp only [u1]
    refine Kept.trans ?_ (State.violate_kept ..)
    refine Kept.trans ?_ (State.event_kept ..)
    refine Kept.trans ?_ (State.modPower_kept ..)
    assumption
  clear_value u1
  refine Keeps.next ?_
  split
  · assumption
  · split
    · assumption
    · refine Kept.trans ?_ (State.modQuarter_kept ..)
      assumption

theorem State.setThrottle_kept (s : State) (hot capped : Bool) : Kept s (State.setThrottle s hot capped) := by
  unfold State.setThrottle
  extract_lets k0 u0 u1
  clear_value k0
  have hu0 : Kept s u0 := by
    dsimp only [u0]
    exact State.modPower_kept ..
  clear_value u0
  have hu1 : Kept s u1 := by
    dsimp only [u1]
    split
    · refine Kept.trans ?_ (State.event_kept ..)
      assumption
    · assumption
  clear_value u1
  split
  · refine Kept.each ?_ (fun t x => ?_)
    · assumption
    · split
      · exact Kept.refl _
      · refine Kept.trans ?_ (State.avsWrite_kept ..)
        exact State.modQuarter_kept ..
  · assumption

theorem execTelemetryRead_keeps (vout pout : List Nat) (s : State) : Keeps s (execTelemetryRead vout pout s) := by
  unfold execTelemetryRead
  extract_lets u0 k0 k1 k2 k3 k4 k5 u1 u2
  clear_value k0 k1 k2 k3 k4 k5
  have hu0 : Kept s u0 := by
    dsimp only [u0]
    refine Kept.each ?_ (fun t x => ?_)
    · exact Kept.refl _
    · split
      · exact State.modQuarter_kept ..
      · exact Kept.refl _
  clear_value u0
  have hu1 : Kept s u1 := by
    dsimp only [u1]
    refine Kept.mk ?_
    assumption
  clear_value u1
  have hu2 : Kept s u2 := by
    dsimp only [u2]
    split
    · refine Kept.trans ?_ (State.violate_kept ..)
      assumption
    · assumption
  clear_value u2
  refine Keeps.next ?_
  refine Kept.trans ?_ (State.setThrottle_kept ..)
  assumption

theorem execIdleStepDown_keeps (s : State) : Keeps s (execIdleStepDown s) := by
  unfold execIdleStepDown
  refine Keeps.next ?_
  split
  · exact Kept.refl _
  · refine Kept.each ?_ (fun t x => ?_)
    · exact Kept.refl _
    · refine Kept.trans ?_ (State.lowerNow_kept ..)
      exact State.stepDown_kept ..

theorem execDroop_keeps (q : Fin 4) (s : State) : Keeps s (execDroop q s) := by
  unfold execDroop
  refine Keeps.next ?_
  split
  · exact Kept.refl _
  · refine Kept.trans ?_ (State.modQuarter_kept ..)
    exact State.cnt_kept ..

theorem execDroopEnd_keeps (q : Fin 4) (s : State) : Keeps s (execDroopEnd q s) := by
  unfold execDroopEnd
  refine Keeps.next ?_
  exact State.modQuarter_kept ..

theorem State.setCrit_kept (s : State) (crit : Bool) : Kept s (State.setCrit s crit) := by
  unfold State.setCrit
  extract_lets u0
  have hu0 : Kept s u0 := by
    dsimp only [u0]
    exact State.modPower_kept ..
  clear_value u0
  split
  · refine Kept.trans ?_ (State.event_kept ..)
    assumption
  · assumption

theorem execThermalThreshold_keeps (temps : List Nat) (s : State) : Keeps s (execThermalThreshold temps s) := by
  unfold execThermalThreshold
  extract_lets k0 u0 u1
  clear_value k0
  have hu0 : Kept s u0 := by
    dsimp only [u0]
    refine Kept.each ?_ (fun t x => ?_)
    · exact Kept.refl _
    · exact State.modQuarter_kept ..
  clear_value u0
  have hu1 : Kept s u1 := by
    dsimp only [u1]
    refine Kept.trans ?_ (State.setThrottle_kept ..)
    assumption
  clear_value u1
  refine Keeps.next ?_
  refine Kept.trans ?_ (State.setCrit_kept ..)
  assumption

theorem execDozeEntryComplete_keeps (s : State) : Keeps s (execDozeEntryComplete s) := by
  unfold execDozeEntryComplete
  refine Keeps.next ?_
  split
  · exact Kept.refl _
  · extract_lets u0 u1 u2
    have hu0 : Kept s u0 := by
      dsimp only [u0]
      refine Kept.trans ?_ (State.send_kept ..)
      refine Kept.each ?_ (fun t x => ?_)
      · exact Kept.refl _
      · refine Kept.trans ?_ (State.avsWrite_kept ..)
        exact State.modQuarter_kept ..
    clear_value u0
    have hu1 : Kept s u1 := by
      dsimp only [u1]
      refine Kept.each ?_ (fun t x => ?_)
      · assumption
      · exact State.modPort_kept ..
    clear_value u1
    have hu2 : Kept s u2 := by
      dsimp only [u2]
      refine Kept.trans ?_ (State.powerState_kept ..)
      assumption
    clear_value u2
    split
    · assumption
    · refine Kept.trans ?_ (State.startWake_kept ..)
      assumption

theorem execExitSignal_keeps (port : Fin 16) (s : State) : Keeps s (execExitSignal port s) := by
  unfold execExitSignal
  refine Keeps.next ?_
  refine Kept.trans ?_ (State.wake_kept ..)
  exact State.modPort_kept ..

theorem State.wakeRails_kept (s : State) : Kept s (State.wakeRails s) := by
  unfold State.wakeRails
  refine Kept.trans ?_ (State.powerState_kept ..)
  refine Kept.each ?_ (fun t x => ?_)
  · exact State.send_kept ..
  · refine Kept.trans ?_ (State.avsWrite_kept ..)
    exact State.modQuarter_kept ..

/-! ### Island -/

theorem State.selfCheckCommit_kept (s : State) : Kept s (State.selfCheckCommit s) := by
  unfold State.selfCheckCommit
  exact State.modIsland_kept ..

theorem State.kickIsland_kept (s : State) (p : Path) : Kept s (State.kickIsland s p) := by
  unfold State.kickIsland
  split
  · refine Kept.trans ?_ (State.cleared_kept ..)
    refine Kept.trans ?_ (State.openGate_kept ..)
    exact State.openGate_kept ..
  · exact Kept.refl _

theorem State.alertAck_kept (s : State) : Kept s (State.alertAck s) := by
  unfold State.alertAck
  exact State.modIsland_kept ..

theorem State.optOff_kept (s : State) (p : Nat) : Kept s (State.optOff s p) := by
  unfold State.optOff
  split
  · exact Kept.refl _
  · refine Kept.trans ?_ (State.event_kept ..)
    refine Kept.trans ?_ (State.cnt_kept ..)
    exact State.modPort_kept ..

theorem State.lineOn_kept (s : State) (p reason : Nat) : Kept s (State.lineOn s p reason) := by
  unfold State.lineOn
  refine Kept.trans ?_ (State.optOff_kept ..)
  exact State.modIsland_kept ..

theorem State.lineOff_kept (s : State) (p reason : Nat) : Kept s (State.lineOff s p reason) := by
  unfold State.lineOff
  exact State.modIsland_kept ..

theorem State.linesOff_kept (s : State) (reason : Nat) : Kept s (State.linesOff s reason) := by
  unfold State.linesOff
  refine Kept.each ?_ (fun t x => ?_)
  · exact Kept.refl _
  · exact State.lineOff_kept ..

theorem State.linesOn_kept (s : State) (reason : Nat) : Kept s (State.linesOn s reason) := by
  unfold State.linesOn
  refine Kept.each ?_ (fun t x => ?_)
  · exact Kept.refl _
  · exact State.lineOn_kept ..

theorem State.kill_kept (s : State) : Kept s (State.kill s) := by
  unfold State.kill
  exact State.modIsland_kept ..

theorem execLockstepMismatch_keeps (s : State) : Keeps s (execLockstepMismatch s) := by
  unfold execLockstepMismatch
  extract_lets k0 u0 u1 u2
  clear_value k0
  have hu0 : Kept s u0 := by
    dsimp only [u0]
    refine Kept.trans ?_ (State.cleared_kept ..)
    refine Kept.trans ?_ (State.closeGate_kept ..)
    exact State.linesOn_kept ..
  clear_value u0
  have hu1 : Kept s u1 := by
    dsimp only [u1]
    refine Kept.trans ?_ (State.modIsland_kept ..)
    assumption
  clear_value u1
  have hu2 : Kept s u2 := by
    dsimp only [u2]
    refine Kept.trans ?_ (State.record_kept ..)
    assumption
  clear_value u2
  refine Keeps.next ?_
  split
  · refine Kept.trans ?_ (State.kill_kept ..)
    assumption
  · assumption

theorem execIslandRebootComplete_keeps (s : State) : Keeps s (execIslandRebootComplete s) := by
  unfold execIslandRebootComplete
  refine Keeps.next ?_
  split
  · refine Kept.trans ?_ (State.linesOff_kept ..)
    refine Kept.trans ?_ (State.openGate_kept ..)
    exact State.modIsland_kept ..
  · exact Kept.refl _

theorem execJunctionTrip_keeps (sensor : Fin 36) (temp : Nat) (s : State) :
    Keeps s (execJunctionTrip sensor temp s) := by
  unfold execJunctionTrip
  refine Keeps.next ?_
  split
  · exact Kept.refl _
  · refine Kept.trans ?_ (State.kill_kept ..)
    exact State.record_kept ..

theorem execSensorImplausible_keeps (sensor : Fin 36) (temp : Nat) (s : State) :
    Keeps s (execSensorImplausible sensor temp s) := by
  unfold execSensorImplausible
  split
  · refine Keeps.next ?_
    exact Kept.refl _
  · extract_lets u0 k0
    clear_value k0
    have hu0 : Kept s u0 := by
      dsimp only [u0]
      refine Kept.trans ?_ (State.record_kept ..)
      exact State.modIsland_kept ..
    clear_value u0
    refine Keeps.next ?_
    split
    · refine Kept.trans ?_ (State.setCrit_kept ..)
      refine Kept.trans ?_ (State.modIsland_kept ..)
      assumption
    · assumption

theorem execRailOvervoltage_keeps (rail : Fin 12) (mv : Nat) (s : State) : Keeps s (execRailOvervoltage rail mv s)
    := by
  unfold execRailOvervoltage
  refine Keeps.next ?_
  split
  · exact Kept.refl _
  · refine Kept.trans ?_ (State.kill_kept ..)
    exact State.record_kept ..

theorem execCoreUndervoltage_keeps (q : Fin 4) (mv : Nat) (s : State) : Keeps s (execCoreUndervoltage q mv s) := by
  unfold execCoreUndervoltage
  refine Keeps.next ?_
  split
  · exact Kept.refl _
  · refine Kept.trans ?_ (State.closeGate_kept ..)
    exact State.record_kept ..

theorem execRetentionUndervoltage_keeps (mv : Nat) (s : State) : Keeps s (execRetentionUndervoltage mv s) := by
  unfold execRetentionUndervoltage
  refine Keeps.next ?_
  split
  · split
    · exact Kept.refl _
    · refine Kept.trans ?_ (State.closeGate_kept ..)
      exact State.record_kept ..
  · split
    · exact Kept.refl _
    · refine Kept.trans ?_ (State.closeGate_kept ..)
      exact State.record_kept ..

theorem execRegulatorFault_keeps (s : State) : Keeps s (execRegulatorFault s) := by
  unfold execRegulatorFault
  extract_lets k0 u0
  clear_value k0
  have hu0 : Kept s u0 := by
    dsimp only [u0]
    refine Kept.mk ?_
    exact Kept.refl _
  clear_value u0
  refine Keeps.next ?_
  refine Kept.trans ?_ (State.kill_kept ..)
  refine Kept.trans ?_ (State.record_kept ..)
  assumption

theorem execQuarterClockFault_keeps (q : Fin 4) (mhz : Nat) (s : State) : Keeps s (execQuarterClockFault q mhz s)
    := by
  unfold execQuarterClockFault
  refine Keeps.next ?_
  split
  · refine Kept.trans ?_ (State.closeGate_kept ..)
    exact State.record_kept ..
  · exact Kept.refl _

theorem execIslandOscillatorFault_keeps (mhz : Nat) (s : State) : Keeps s (execIslandOscillatorFault mhz s) := by
  unfold execIslandOscillatorFault
  refine Keeps.next ?_
  split
  · refine Kept.trans ?_ (State.closeGate_kept ..)
    exact State.record_kept ..
  · exact Kept.refl _

theorem execHubWatchdog_keeps (s : State) : Keeps s (execHubWatchdog s) := by
  unfold execHubWatchdog
  refine Keeps.next ?_
  refine Kept.trans ?_ (State.closeGate_kept ..)
  exact State.record_kept ..

theorem execLaunchPowerTrip_keeps (port : Fin 16) (s : State) : Keeps s (execLaunchPowerTrip port s) := by
  unfold execLaunchPowerTrip
  refine Keeps.next ?_
  split
  · refine Kept.trans ?_ (State.lineOn_kept ..)
    exact State.record_kept ..
  · exact Kept.refl _

theorem execGateCauseClear_keeps (cause : Fin 9) (s : State) : Keeps s (execGateCauseClear cause s) := by
  unfold execGateCauseClear
  refine Keeps.next ?_
  split
  · refine Kept.trans ?_ (State.cleared_kept ..)
    exact State.openGate_kept ..
  · refine Kept.trans ?_ (State.cleared_kept ..)
    exact State.openGate_kept ..
  · refine Kept.trans ?_ (State.cleared_kept ..)
    exact State.openGate_kept ..
  · exact Kept.refl _

theorem execSelfCheckComplete_keeps (bad : Option (Fin 512)) (s : State) : Keeps s (execSelfCheckComplete bad s) := by
  unfold execSelfCheckComplete
  refine Keeps.next ?_
  split
  · split
    · exact State.modIsland_kept ..
    · refine Kept.trans ?_ (State.closeGate_kept ..)
      refine Kept.trans ?_ (State.modIsland_kept ..)
      exact State.record_kept ..
  · exact Kept.refl _

theorem execSelfCheckAbandon_keeps (s : State) : Keeps s (execSelfCheckAbandon s) := by
  unfold execSelfCheckAbandon
  refine Keeps.next ?_
  split
  · refine Kept.trans ?_ (State.cnt_kept ..)
    exact State.modIsland_kept ..
  · exact Kept.refl _

theorem execVddOptFault_keeps (mv : Nat) (s : State) : Keeps s (execVddOptFault mv s) := by
  unfold execVddOptFault
  refine Keeps.next ?_
  split
  · exact State.linesOn_kept ..
  · exact Kept.refl _

theorem execVddOptRestore_keeps (s : State) : Keeps s (execVddOptRestore s) := by
  unfold execVddOptRestore
  refine Keeps.next ?_
  exact State.linesOff_kept ..

/-! ### Tag -/

theorem State.flashStart_kept (s : State) (v : Nat) : Kept s (State.flashStart s v) := by
  unfold State.flashStart
  extract_lets k0 k1 k2
  clear_value k0 k1 k2
  split
  · exact Kept.refl _
  · split
    · refine Kept.mk ?_
      exact Kept.refl _
    · split
      · refine Kept.mk ?_
        exact Kept.refl _
      · split
        · refine Kept.mk ?_
          exact Kept.refl _
        · exact Kept.refl _

theorem State.modTag_kept (s : State) (f : Tag → Tag) : Kept s (State.modTag s f) := by
  unfold State.modTag
  refine Kept.mk ?_
  exact Kept.refl _

theorem State.setTagBlock_kept (s : State) (b : Nat) (x : TagBlock) : Kept s (State.setTagBlock s b x) := by
  unfold State.setTagBlock
  exact State.modTag_kept ..

theorem State.tagPowerLoss_kept (s : State) : Kept s (State.tagPowerLoss s) := by
  unfold State.tagPowerLoss
  split
  · extract_lets k0
    clear_value k0
    refine Kept.trans ?_ (State.modTag_kept ..)
    refine Kept.trans ?_ (State.draw_kept ..)
    exact State.setTagBlock_kept ..
  · exact State.modTag_kept ..

theorem State.tagNak_kept (s : State) (code : Nat) : Kept s (State.tagNak s code) := by
  unfold State.tagNak
  refine Kept.trans ?_ (State.send_kept ..)
  exact State.cnt_kept ..

theorem State.tagBegin_kept (s : State) (b : Nat) (data : List Byte) : Kept s (State.tagBegin s b data) := by
  unfold State.tagBegin
  split
  · exact State.tagNak_kept ..
  · split
    · split
      · exact State.tagNak_kept ..
      · exact State.modTag_kept ..
    · exact State.modTag_kept ..

theorem State.tagRun_kept (s : State) (j : TagJob) : Kept s (State.tagRun s j) := by
  unfold State.tagRun
  split
  · split
    · exact State.send_kept ..
    · exact State.tagNak_kept ..
  · exact State.send_kept ..
  · split
    · exact State.tagNak_kept ..
    · extract_lets k0
      clear_value k0
      exact State.tagBegin_kept ..
  · split
    · exact State.tagNak_kept ..
    · exact State.tagBegin_kept ..
  · exact State.modTag_kept ..
  · exact State.modTag_kept ..

theorem State.tagJob_kept (s : State) (j : TagJob) : Kept s (State.tagJob s j) := by
  unfold State.tagJob
  split
  · exact State.modTag_kept ..
  · exact State.tagRun_kept ..

theorem execBlackBoxWrite_keeps (s : State) : Keeps s (execBlackBoxWrite s) := by
  unfold execBlackBoxWrite
  extract_lets k0
  clear_value k0
  refine Keeps.next ?_
  split
  · exact Kept.refl _
  · split
    · exact Kept.refl _
    · refine Kept.trans ?_ (State.tagJob_kept ..)
      refine Kept.trans ?_ (State.tagJob_kept ..)
      exact State.modIsland_kept ..

theorem State.setFlash_kept (s : State) (a : Nat) (l : List Byte) : Kept s (State.setFlash s a l) := by
  induction l generalizing s a
  · unfold State.setFlash
    exact Kept.refl _
  · rename_i x r ih
    unfold State.setFlash
    exact ih ..

theorem execFlashOperationComplete_keeps (s : State) : Keeps s (execFlashOperationComplete s) := by
  unfold execFlashOperationComplete
  extract_lets k0 u0
  clear_value k0
  have hu0 : Kept s u0 := by
    dsimp only [u0]
    refine Kept.mk ?_
    exact Kept.refl _
  clear_value u0
  refine Keeps.next ?_
  split
  · exact Kept.refl _
  · refine Kept.trans ?_ (State.setFlash_kept ..)
    assumption
  · refine Kept.trans ?_ (State.draw_kept ..)
    refine Kept.trans ?_ (State.setFlash_kept ..)
    assumption
  · refine Kept.each ?_ (fun t x => ?_)
    · assumption
    · exact State.wr_kept ..

theorem State.tagReader_kept (s : State) (crcOk : Bool) (j : TagJob) : Kept s (State.tagReader s crcOk j) := by
  unfold State.tagReader
  extract_lets u0
  have hu0 : Kept s u0 := by
    dsimp only [u0]
    exact State.modTag_kept ..
  clear_value u0
  split
  · refine Kept.trans ?_ (State.tagJob_kept ..)
    assumption
  · refine Kept.trans ?_ (State.tagNak_kept ..)
    assumption

theorem execTagRead_keeps (page : Nat) (crcOk : Bool) (s : State) : Keeps s (execTagRead page crcOk s) := by
  unfold execTagRead
  refine Keeps.next ?_
  exact State.tagReader_kept ..

theorem execTagWrite_keeps (page : Nat) (data : List Byte) (crcOk : Bool) (s : State) :
    Keeps s (execTagWrite page data crcOk s) := by
  unfold execTagWrite
  refine Keeps.next ?_
  exact State.tagReader_kept ..

theorem execReadWide_keeps (page : Nat) (crcOk : Bool) (s : State) : Keeps s (execReadWide page crcOk s) := by
  unfold execReadWide
  refine Keeps.next ?_
  exact State.tagReader_kept ..

theorem execWriteBlock_keeps (blk : Nat) (data : List Byte) (crcOk : Bool) (s : State) :
    Keeps s (execWriteBlock blk data crcOk s) := by
  unfold execWriteBlock
  refine Keeps.next ?_
  exact State.tagReader_kept ..

theorem execGetState_keeps (crcOk : Bool) (s : State) : Keeps s (execGetState crcOk s) := by
  unfold execGetState
  refine Keeps.next ?_
  exact State.tagReader_kept ..

theorem State.tagNext_kept (s : State) (l : List TagJob) : Kept s (State.tagNext s l) := by
  induction l generalizing s
  · unfold State.tagNext
    exact State.modTag_kept ..
  · rename_i x r ih
    unfold State.tagNext
    split
    · exact State.modTag_kept ..
    · refine Kept.trans ?_ (ih ..)
      exact State.tagRun_kept ..

theorem execTagCommitComplete_keeps (s : State) : Keeps s (execTagCommitComplete s) := by
  unfold execTagCommitComplete
  refine Keeps.next ?_
  split
  · exact Kept.refl _
  · extract_lets u0 u1
    have hu0 : Kept s u0 := by
      dsimp only [u0]
      refine Kept.trans ?_ (State.modTag_kept ..)
      exact State.setTagBlock_kept ..
    clear_value u0
    have hu1 : Kept s u1 := by
      dsimp only [u1]
      split
      · refine Kept.trans ?_ (State.send_kept ..)
        refine Kept.trans ?_ (State.cnt_kept ..)
        assumption
      · assumption
    clear_value u1
    refine Kept.trans ?_ (State.tagNext_kept ..)
    assumption

theorem execFieldCollapse_keeps (point : TearPoint) (s : State) : Keeps s (execFieldCollapse point s) := by
  unfold execFieldCollapse
  extract_lets u0
  have hu0 : Kept s u0 := by
    dsimp only [u0]
    exact State.modTag_kept ..
  clear_value u0
  refine Keeps.next ?_
  split
  · extract_lets k0 u1 u2
    clear_value k0
    have hu1 : Kept s u1 := by
      dsimp only [u1]
      refine Kept.trans ?_ (State.modTag_kept ..)
      refine Kept.trans ?_ (State.draw_kept ..)
      refine Kept.trans ?_ (State.setTagBlock_kept ..)
      assumption
    clear_value u1
    have hu2 : Kept s u2 := by
      dsimp only [u2]
      split
      · refine Kept.trans ?_ (State.send_kept ..)
        assumption
      · assumption
    clear_value u2
    refine Kept.trans ?_ (State.tagNext_kept ..)
    assumption
  · assumption

theorem execServiceRecordUpdate_keeps (s : State) : Keeps s (execServiceRecordUpdate s) := by
  unfold execServiceRecordUpdate
  extract_lets u0 k0
  clear_value k0
  have hu0 : Kept s u0 := by
    dsimp only [u0]
    exact State.modTag_kept ..
  clear_value u0
  refine Keeps.next ?_
  split
  · refine Kept.trans ?_ (State.tagJob_kept ..)
    refine Kept.trans ?_ (State.tagJob_kept ..)
    assumption
  · exact Kept.refl _

/-! ### Trestle -/

theorem State.modTrs_kept (s : State) (f : Trestle → Trestle) : Kept s (State.modTrs s f) := by
  unfold State.modTrs
  refine Kept.mk ?_
  exact Kept.refl _

theorem State.trsReceive_eq {s : State} {h : TrsHead} {t' : State} (hq : State.trsReceive s h = some t') :
    Kept s t' := by
  unfold State.trsReceive at hq
  split at hq
  · cases hq
  · split at hq
    · cases hq
      exact State.cnt_kept ..
    · extract_lets u0 k0 at hq
      have hu0 : Kept s u0 := by
        dsimp only [u0]
        split
        · exact State.modTrs_kept ..
        · exact Kept.refl _
      clear_value u0
      cases hq
      split
      · refine Kept.trans ?_ (State.modTrs_kept ..)
        assumption
      · assumption

theorem State.trsAcks_kept (s : State) (acks : Nat) : Kept s (State.trsAcks s acks) := by
  unfold State.trsAcks
  refine Kept.each ?_ (fun t x => ?_)
  · exact Kept.refl _
  · split
    · exact Kept.refl _
    · extract_lets k0
      clear_value k0
      split
      · exact State.modTrs_kept ..
      · split
        · refine Kept.trans ?_ (State.cnt_kept ..)
          exact State.modTrs_kept ..
        · exact State.modTrs_kept ..

theorem execBeacon_keeps (h : TrsHead) (number source : Nat) (handover : Bool) (acks grants : Nat) (offUs : Int) (s
    : State) :
    Keeps s (execBeacon h number source handover acks grants offUs s) := by
  unfold execBeacon
  refine Keeps.next ?_
  split
  · exact Kept.refl _
  · split
    · exact State.trsReceive_eq (by assumption)
    · refine Kept.trans ?_ (State.trsAcks_kept ..)
      refine Kept.trans ?_ (State.modTrs_kept ..)
      exact State.trsReceive_eq (by assumption)

theorem execBeaconMiss_keeps (s : State) : Keeps s (execBeaconMiss s) := by
  unfold execBeaconMiss
  refine Keeps.next ?_
  split
  · exact Kept.refl _
  · split
    · refine Kept.trans ?_ (State.cnt_kept ..)
      exact State.modTrs_kept ..
    · split
      · refine Kept.trans ?_ (State.cnt_kept ..)
        exact State.modTrs_kept ..
      · exact State.modTrs_kept ..
    · exact Kept.refl _

theorem execListenTimeout_keeps (s : State) : Keeps s (execListenTimeout s) := by
  unfold execListenTimeout
  refine Keeps.next ?_
  split
  · exact State.modTrs_kept ..
  · exact Kept.refl _

theorem State.trsSend_kept (s : State) (type dst seq : Nat) (payload : List Byte) :
    Kept s (State.trsSend s type dst seq payload) := by
  unfold State.trsSend
  refine Kept.trans ?_ (State.send_kept ..)
  exact State.cnt_kept ..

theorem State.sendBeacon_kept (s : State) : Kept s (State.sendBeacon s) := by
  unfold State.sendBeacon
  extract_lets k0 k1
  clear_value k0 k1
  refine Kept.trans ?_ (State.modTrs_kept ..)
  exact State.trsSend_kept ..

theorem execElection_keeps (s : State) : Keeps s (execElection s) := by
  unfold execElection
  refine Keeps.next ?_
  split
  · refine Kept.trans ?_ (State.sendBeacon_kept ..)
    exact State.modTrs_kept ..
  · exact Kept.refl _

theorem execSuperframeStart_keeps (s : State) : Keeps s (execSuperframeStart s) := by
  unfold execSuperframeStart
  refine Keeps.next ?_
  split
  · exact Kept.refl _
  · extract_lets u0
    have hu0 : Kept s u0 := by
      dsimp only [u0]
      exact State.modTrs_kept ..
    clear_value u0
    split
    · refine Kept.trans ?_ (State.sendBeacon_kept ..)
      assumption
    · split
      · refine Kept.trans ?_ (State.modTrs_kept ..)
        assumption
      · assumption
    · assumption

theorem execAssignedSlot_keeps (s : State) : Keeps s (execAssignedSlot s) := by
  unfold execAssignedSlot
  refine Keeps.next ?_
  split
  · split
    · exact State.modTrs_kept ..
    · refine Kept.trans ?_ (State.trsSend_kept ..)
      exact State.modTrs_kept ..
  · exact State.modTrs_kept ..

theorem execContentionSlot_keeps (slot : Fin 15) (s : State) : Keeps s (execContentionSlot slot s) := by
  unfold execContentionSlot
  extract_lets u0
  have hu0 : Kept s u0 := by
    dsimp only [u0]
    exact State.modTrs_kept ..
  clear_value u0
  refine Keeps.next ?_
  split
  · assumption
  · split
    · assumption
    · dsimp only
      split
      · split
        · refine Kept.trans ?_ (State.trsSend_kept ..)
          refine Kept.trans ?_ (State.modTrs_kept ..)
          dsimp only
          assumption
        · refine Kept.trans ?_ (State.modTrs_kept ..)
          dsimp only
          assumption
      · split
        · refine Kept.trans ?_ (State.trsSend_kept ..)
          refine Kept.trans ?_ (State.modTrs_kept ..)
          dsimp only
          refine Kept.trans ?_ (State.draw_kept ..)
          assumption
        · refine Kept.trans ?_ (State.modTrs_kept ..)
          dsimp only
          refine Kept.trans ?_ (State.draw_kept ..)
          assumption

theorem execClaim_keeps (h : TrsHead) (s : State) : Keeps s (execClaim h s) := by
  unfold execClaim
  refine Keeps.next ?_
  split
  · exact Kept.refl _
  · split
    · refine Kept.trans ?_ (State.modTrs_kept ..)
      exact State.trsReceive_eq (by assumption)
    · exact State.trsReceive_eq (by assumption)

theorem State.trsReply_kept (s : State) (dst seq : Nat) (payload : List Byte) :
    Kept s (State.trsReply s dst seq payload) := by
  unfold State.trsReply
  exact State.modTrs_kept ..

theorem State.trsExecuted_kept (s : State) (h : TrsHead) (payload : List Byte) :
    Kept s (State.trsExecuted s h payload) := by
  unfold State.trsExecuted
  refine Kept.trans ?_ (State.trsReply_kept ..)
  exact State.modTrs_kept ..

theorem execTrestleWake_keeps (h : TrsHead) (s : State) : Keeps s (execTrestleWake h s) := by
  unfold execTrestleWake
  refine Keeps.next ?_
  split
  · exact Kept.refl _
  · split
    · refine Kept.trans ?_ (State.wake_kept ..)
      exact State.trsReceive_eq (by assumption)
    · exact State.trsReceive_eq (by assumption)

/-! ### Boot -/

theorem State.resetTo_kept (s : State) (cause : Nat) (island : Island) : Kept s (State.resetTo s cause island) := by
  exact ⟨rfl, List.prefix_refl _, fun _ => rfl⟩

theorem State.warmReset_kept (s : State) (cause : Nat) (high : Bool) : Kept s (State.warmReset s cause high) := by
  unfold State.warmReset
  extract_lets u0 k0
  clear_value k0
  have hu0 : Kept s u0 := by
    dsimp only [u0]
    exact State.resetTo_kept ..
  clear_value u0
  refine Kept.mk ?_
  assumption

theorem execColdReset_keeps (s : State) : Keeps s (execColdReset s) := by
  unfold execColdReset
  refine Keeps.next ?_
  refine Kept.trans ?_ (State.resetTo_kept ..)
  exact State.tagPowerLoss_kept ..

theorem execSysRstNAssert_keeps (s : State) : Keeps s (execSysRstNAssert s) := by
  unfold execSysRstNAssert
  refine Keeps.next ?_
  split
  · exact State.warmReset_kept ..
  · exact Kept.refl _

theorem execResetRelease_keeps (trsId : Fin 64) (s : State) : Keeps s (execResetRelease trsId s) := by
  unfold execResetRelease
  refine Keeps.next ?_
  split
  · refine Kept.mk ?_
    exact Kept.refl _
  · exact Kept.refl _

theorem execIslandBooted_keeps (s : State) : Keeps s (execIslandBooted s) := by
  unfold execIslandBooted
  refine Keeps.next ?_
  split
  · refine Kept.trans ?_ (State.modTag_kept ..)
    refine Kept.trans ?_ (State.linesOff_kept ..)
    exact State.modIsland_kept ..
  · exact Kept.refl _

theorem State.markBad_kept (s : State) (c : Nat) : Kept s (State.markBad s c) := by
  unfold State.markBad
  exact State.wr_kept ..

theorem State.recovery_kept (s : State) (step : Nat) : Kept s (State.recovery s step) := by
  unfold State.recovery
  refine Kept.trans ?_ (State.modHost_kept ..)
  refine Kept.trans ?_ (State.modFn_kept ..)
  refine Kept.mk ?_
  exact Kept.refl _

theorem execBistComplete_keeps (b : Bist) (f : Sfdp) (s : State) : Keeps s (execBistComplete b f s) := by
  unfold execBistComplete
  refine Keeps.next ?_
  split
  · exact Kept.refl _
  · extract_lets k0 u0 u1 k1
    clear_value k0 k1
    have hu0 : Kept s u0 := by
      dsimp only [u0]
      refine Kept.clear ?_
      exact Kept.refl _
    clear_value u0
    have hu1 : Kept s u1 := by
      dsimp only [u1]
      refine Kept.each ?_ (fun t x => ?_)
      · assumption
      · exact State.markBad_kept ..
    clear_value u1
    split
    · refine Kept.trans ?_ (State.recovery_kept ..)
      assumption
    · split
      · refine Kept.trans ?_ (State.recovery_kept ..)
        assumption
      · refine Kept.mk ?_
        assumption

theorem execPcieLinkReturnsToL0_keeps (s : State) : Keeps s (execPcieLinkReturnsToL0 s) := by
  unfold execPcieLinkReturnsToL0
  refine Keeps.next ?_
  split
  · exact State.modHost_kept ..
  · exact Kept.refl _

theorem execPowerRemoval_keeps (s : State) : Keeps s (execPowerRemoval s) := by
  unfold execPowerRemoval
  extract_lets u0 k0
  clear_value k0
  have hu0 : Kept s u0 := by
    dsimp only [u0]
    refine Kept.trans ?_ (State.resetTo_kept ..)
    exact State.tagPowerLoss_kept ..
  clear_value u0
  refine Keeps.next ?_
  refine Kept.mk ?_
  assumption

/-! ### Time -/

theorem State.announce_kept (s : State) (event : Nat) (slew : Bool) : Kept s (State.announce s event slew) := by
  unfold State.announce
  split
  · exact Kept.refl _
  · extract_lets k0 k1
    clear_value k0 k1
    refine Kept.trans ?_ (State.modTime_kept ..)
    exact State.tellAll_kept ..

theorem State.checkQuality_kept (s : State) : Kept s (State.checkQuality s) := by
  unfold State.checkQuality
  split
  · exact State.announce_kept ..
  · exact Kept.refl _

theorem State.keystoneTai_kept (s : State) (c : Nat) : Kept s (State.keystoneTai s c) := by
  unfold State.keystoneTai
  extract_lets k0 k1 k2 k3 u0 u1 k4 u2
  clear_value k0 k1 k2 k3 k4
  have hu0 : Kept s u0 := by
    dsimp only [u0]
    exact State.modTime_kept ..
  clear_value u0
  have hu1 : Kept s u1 := by
    dsimp only [u1]
    refine Kept.trans ?_ (State.setTai_kept ..)
    assumption
  clear_value u1
  have hu2 : Kept s u2 := by
    dsimp only [u2]
    split
    · refine Kept.trans ?_ (State.announce_kept ..)
      assumption
    · assumption
  clear_value u2
  refine Kept.trans ?_ (State.checkQuality_kept ..)
  assumption

theorem State.takeoverTime_kept (s : State) : Kept s (State.takeoverTime s) := by
  unfold State.takeoverTime
  extract_lets k0 u0
  clear_value k0
  have hu0 : Kept s u0 := by
    dsimp only [u0]
    exact State.modTime_kept ..
  clear_value u0
  refine Kept.trans ?_ (State.announce_kept ..)
  assumption

theorem State.setTime_kept (s : State) : Kept s (State.setTime s) := by
  unfold State.setTime
  exact State.modTime_kept ..

theorem State.latchTime_kept (s : State) : Kept s (State.latchTime s) := by
  unfold State.latchTime
  refine Kept.trans ?_ (State.wr_kept ..)
  refine Kept.trans ?_ (State.wr_kept ..)
  exact State.wr_kept ..

theorem State.takeNote_kept (s : State) (v : Nat) : Kept s (State.takeNote s v) := by
  unfold State.takeNote
  exact State.modTime_kept ..

theorem State.timeState_kept (s : State) (x : TimeState) : Kept s (State.timeState s x) := by
  unfold State.timeState
  split
  · exact Kept.refl _
  · refine Kept.trans ?_ (State.announce_kept ..)
    refine Kept.trans ?_ (State.event_kept ..)
    exact State.modTime_kept ..

theorem State.reselect_kept (s : State) : Kept s (State.reselect s) := by
  unfold State.reselect
  extract_lets k0 k1 u0 k2 u1 u2 u3
  clear_value k0 k1 k2
  have hu0 : Kept s u0 := by
    dsimp only [u0]
    exact State.modTime_kept ..
  clear_value u0
  have hu1 : Kept s u1 := by
    dsimp only [u1]
    refine Kept.trans ?_ (State.modTime_kept ..)
    assumption
  clear_value u1
  have hu2 : Kept s u2 := by
    dsimp only [u2]
    refine Kept.trans ?_ (State.timeState_kept ..)
    assumption
  clear_value u2
  have hu3 : Kept s u3 := by
    dsimp only [u3]
    split
    · refine Kept.trans ?_ (State.timeState_kept ..)
      refine Kept.trans ?_ (State.modTime_kept ..)
      assumption
    · split
      · split
        · refine Kept.trans ?_ (State.timeState_kept ..)
          refine Kept.trans ?_ (State.modTime_kept ..)
          assumption
        · assumption
      · split
        · split
          · assumption
          · refine Kept.trans ?_ (State.timeState_kept ..)
            refine Kept.trans ?_ (State.modTime_kept ..)
            assumption
        · split
          · refine Kept.trans ?_ (State.timeState_kept ..)
            assumption
          · assumption
  clear_value u3
  refine Kept.trans ?_ (State.checkQuality_kept ..)
  split
  · refine Kept.trans ?_ (State.announce_kept ..)
    assumption
  · assumption

theorem State.loseSource_kept (s : State) (n : Nat) : Kept s (State.loseSource s n) := by
  unfold State.loseSource
  split
  · refine Kept.trans ?_ (State.reselect_kept ..)
    refine Kept.trans ?_ (State.modTime_kept ..)
    exact State.cnt_kept ..
  · exact Kept.refl _

theorem State.startQualifying_kept (s : State) (n : Nat) : Kept s (State.startQualifying s n) := by
  unfold State.startQualifying
  split
  · exact Kept.refl _
  · refine Kept.trans ?_ (State.reselect_kept ..)
    exact State.modTime_kept ..

theorem State.measured_kept (s : State) (θ : Int) : Kept s (State.measured s θ) := by
  unfold State.measured
  extract_lets u0 u1 u2
  have hu0 : Kept s u0 := by
    dsimp only [u0]
    refine Kept.trans ?_ (State.modTime_kept ..)
    exact State.wr_kept ..
  clear_value u0
  have hu1 : Kept s u1 := by
    dsimp only [u1]
    refine Kept.trans ?_ (State.modTime_kept ..)
    assumption
  clear_value u1
  have hu2 : Kept s u2 := by
    dsimp only [u2]
    refine Kept.trans ?_ (State.modTime_kept ..)
    assumption
  clear_value u2
  split
  · split
    · refine Kept.trans ?_ (State.modTime_kept ..)
      refine Kept.trans ?_ (State.setTai_kept ..)
      assumption
    · split
      · assumption
      · refine Kept.trans ?_ (State.announce_kept ..)
        assumption
  · split
    · assumption
    · split
      · assumption
      · refine Kept.trans ?_ (State.announce_kept ..)
        assumption

theorem execPtpMessage_keeps (port : Fin 16) (m : PtpFrame) (s : State) :
    Keeps s (execPtpMessage port m s) := by
  unfold execPtpMessage
  extract_lets k0 k1 k2 k3 k4 k5
  clear_value k0 k1 k2 k3 k4 k5
  refine Keeps.next ?_
  split
  · exact State.cnt_kept ..
  · split
    · exact Kept.refl _
    · split
      · split
        · exact Kept.refl _
        · split
          · refine Kept.trans ?_ (State.loseSource_kept ..)
            exact State.modTime_kept ..
          · refine Kept.trans ?_ (State.startQualifying_kept ..)
            exact State.modTime_kept ..
      · split
        · exact Kept.refl _
        · split
          · exact State.loseSource_kept ..
          · split
            · exact State.measured_kept ..
            · exact State.startQualifying_kept ..
      · split
        · exact Kept.refl _
        · exact State.modTime_kept ..

theorem execPpsEdge_keeps (s : State) : Keeps s (execPpsEdge s) := by
  unfold execPpsEdge
  extract_lets k0 k1 k2 u0 k3 u1
  clear_value k0 k1 k2 k3
  have hu0 : Kept s u0 := by
    dsimp only [u0]
    exact State.wr_kept ..
  clear_value u0
  have hu1 : Kept s u1 := by
    dsimp only [u1]
    refine Kept.trans ?_ (State.modTime_kept ..)
    refine Kept.when ?_ (fun t => ?_)
    · assumption
    · exact State.cnt_kept ..
  clear_value u1
  refine Keeps.next ?_
  split
  · assumption
  · split
    · refine Kept.trans ?_ (State.measured_kept ..)
      assumption
    · split
      · refine Kept.trans ?_ (State.startQualifying_kept ..)
        assumption
      · assumption

theorem execReferenceLoss_keeps (src : TimeSource) (s : State) : Keeps s (execReferenceLoss src s) := by
  unfold execReferenceLoss
  refine Keeps.next ?_
  split
  · exact State.loseSource_kept ..
  · exact Kept.refl _

theorem execQualificationComplete_keeps (src : TimeSource) (s : State) :
    Keeps s (execQualificationComplete src s) := by
  unfold execQualificationComplete
  extract_lets k0
  clear_value k0
  refine Keeps.next ?_
  split
  · refine Kept.trans ?_ (State.reselect_kept ..)
    exact State.modTime_kept ..
  · exact Kept.refl _

theorem State.dacStep_kept (s : State) (d : Int) : Kept s (State.dacStep s d) := by
  unfold State.dacStep
  extract_lets k0 k1 k2 k3 k4 k5 u0
  clear_value k0 k1 k2 k3 k4 k5
  have hu0 : Kept s u0 := by
    dsimp only [u0]
    split
    · exact State.draw_kept ..
    · exact Kept.refl _
  clear_value u0
  split
  · assumption
  · refine Kept.trans ?_ (State.send_kept ..)
    refine Kept.trans ?_ (State.wr_kept ..)
    assumption

theorem execLoopUpdate_keeps (err : Int) (s : State) : Keeps s (execLoopUpdate err s) := by
  unfold execLoopUpdate
  refine Keeps.next ?_
  split
  · exact Kept.refl _
  · extract_lets k0 u0
    clear_value k0
    have hu0 : Kept s u0 := by
      dsimp only [u0]
      exact State.modTime_kept ..
    clear_value u0
    split
    · refine Kept.trans ?_ (State.dacStep_kept ..)
      assumption
    · assumption

theorem execHoldoverLimit_keeps (s : State) : Keeps s (execHoldoverLimit s) := by
  unfold execHoldoverLimit
  extract_lets k0
  clear_value k0
  refine Keeps.next ?_
  split
  · refine Kept.trans ?_ (State.checkQuality_kept ..)
    refine Kept.trans ?_ (State.timeState_kept ..)
    exact State.modTime_kept ..
  · split
    · refine Kept.trans ?_ (State.checkQuality_kept ..)
      refine Kept.trans ?_ (State.modTime_kept ..)
      exact State.modTime_kept ..
    · exact Kept.refl _

theorem execPpsOutput_keeps (s : State) : Keeps s (execPpsOutput s) := by
  unfold execPpsOutput
  extract_lets k0
  clear_value k0
  refine Keeps.next ?_
  split
  · exact Kept.refl _
  · split
    · split
      · exact State.cnt_kept ..
      · exact State.modTime_kept ..
    · exact State.modTime_kept ..

theorem execPpsOutEnd_keeps (s : State) : Keeps s (execPpsOutEnd s) := by
  unfold execPpsOutEnd
  refine Keeps.next ?_
  exact State.modTime_kept ..

theorem execAnchor_keeps (s : State) : Keeps s (execAnchor s) := by
  unfold execAnchor
  refine Keeps.next ?_
  split
  · refine Kept.trans ?_ (State.announce_kept ..)
    exact State.modTime_kept ..
  · exact Kept.refl _

theorem State.applyNotice_kept (s : State) (n : Notice) : Kept s (State.applyNotice s n) := by
  unfold State.applyNotice
  extract_lets u0 u1 u2 u3
  have hu0 : Kept s u0 := by
    dsimp only [u0]
    refine Kept.when ?_ (fun t => ?_)
    · exact Kept.refl _
    · exact State.cnt_kept ..
  clear_value u0
  have hu1 : Kept s u1 := by
    dsimp only [u1]
    refine Kept.when ?_ (fun t => ?_)
    · assumption
    · exact State.event_kept ..
  clear_value u1
  have hu2 : Kept s u2 := by
    dsimp only [u2]
    refine Kept.trans ?_ (State.modTime_kept ..)
    assumption
  clear_value u2
  have hu3 : Kept s u3 := by
    dsimp only [u3]
    refine Kept.when ?_ (fun t => ?_)
    · assumption
    · exact State.event_kept ..
  clear_value u3
  refine Kept.trans ?_ (State.note_kept ..)
  assumption

theorem execNoticeApply_keeps (s : State) : Keeps s (execNoticeApply s) := by
  unfold execNoticeApply
  refine Keeps.next ?_
  split
  · extract_lets k0
    clear_value k0
    refine Kept.trans ?_ (State.modTime_kept ..)
    refine Kept.each ?_ (fun t x => ?_)
    · exact Kept.refl _
    · exact State.applyNotice_kept ..
  · exact Kept.refl _

end Sys2Proof.Machine
end

