-- ==== Sys2Proof/Laws/KeptLinks.lean ====
section
/-!
SUPPORT. What is kept by the ports, links, images, admission and the host's commands.
-/
namespace Sys2Proof.Machine

/-! ### Ports -/

theorem State.prbsRestart_kept (s : State) (p : Nat) : Kept s (State.prbsRestart s p) := by
  unfold State.prbsRestart
  refine Kept.each ?_ (fun t x => ?_)
  · exact Kept.refl _
  · refine Kept.trans ?_ (State.modLane_kept ..)
    refine Kept.trans ?_ (State.wr_kept ..)
    exact State.wr_kept ..

theorem State.portEnable_kept (s : State) (p : Nat) (on : Bool) : Kept s (State.portEnable s p on) := by
  unfold State.portEnable
  split
  · split
    · exact State.toDetect_kept ..
    · exact Kept.refl _
  · refine Kept.trans ?_ (State.portState_kept ..)
    refine Kept.trans ?_ (State.dropLink_kept ..)
    exact State.modPort_kept ..

theorem execPortStartTime_keeps (port : Fin 16) (s : State) : Keeps s (execPortStartTime port s) := by
  unfold execPortStartTime
  extract_lets u0
  have hu0 : Kept s u0 := by
    dsimp only [u0]
    exact State.modPort_kept ..
  clear_value u0
  refine Keeps.next ?_
  split
  · refine Kept.trans ?_ (State.toDetect_kept ..)
    assumption
  · assumption

theorem State.detected_kept (s : State) (p : Nat) : Kept s (State.detected s p) := by
  unfold State.detected
  split
  · exact State.portState_kept ..
  · exact Kept.refl _

theorem State.detectFrame_kept (s : State) (p lane : Nat) (cw : BitVec 64) :
    Kept s (State.detectFrame s p lane cw) := by
  unfold State.detectFrame
  extract_lets k0 u0
  clear_value k0
  have hu0 : Kept s u0 := by
    dsimp only [u0]
    refine Kept.trans ?_ (State.modLane_kept ..)
    exact State.modPort_kept ..
  clear_value u0
  split
  · refine Kept.trans ?_ (State.backoff_kept ..)
    refine Kept.trans ?_ (State.cnt_kept ..)
    assumption
  · refine Kept.trans ?_ (State.detected_kept ..)
    refine Kept.trans ?_ (State.sendTraining_kept ..)
    assumption

theorem State.trainFrame_kept (s : State) (p lane : Nat) (cw : BitVec 64) : Kept s (State.trainFrame s p lane cw)
    := by
  unfold State.trainFrame
  extract_lets u0
  have hu0 : Kept s u0 := by
    dsimp only [u0]
    refine Kept.trans ?_ (State.draw_kept ..)
    refine Kept.trans ?_ (State.sendTraining_kept ..)
    exact State.modLane_kept ..
  clear_value u0
  split
  · refine Kept.trans ?_ (State.portState_kept ..)
    assumption
  · assumption

theorem execTrainingFrame_keeps (port : Fin 16) (lane : Fin 12) (cw : BitVec 64) (s : State) :
    Keeps s (execTrainingFrame port lane cw s) := by
  unfold execTrainingFrame
  refine Keeps.next ?_
  split
  · exact Kept.refl _
  · extract_lets u0
    have hu0 : Kept s u0 := by
      dsimp only [u0]
      refine Kept.when ?_ (fun t => ?_)
      · exact Kept.refl _
      · exact State.send_kept ..
    clear_value u0
    split
    · refine Kept.trans ?_ (State.cnt_kept ..)
      assumption
    · split
      · refine Kept.trans ?_ (State.detectFrame_kept ..)
        assumption
      · assumption
    · split
      · refine Kept.trans ?_ (State.trainFrame_kept ..)
        assumption
      · assumption
    · assumption

theorem execDetectTimeout_keeps (port : Fin 16) (s : State) : Keeps s (execDetectTimeout port s) := by
  unfold execDetectTimeout
  refine Keeps.next ?_
  split
  · exact State.backoff_kept ..
  · exact Kept.refl _

theorem execTrainTimeout_keeps (port : Fin 16) (s : State) : Keeps s (execTrainTimeout port s) := by
  unfold execTrainTimeout
  refine Keeps.next ?_
  split
  · exact State.backoff_kept ..
  · exact Kept.refl _

theorem execAlignLock_keeps (port : Fin 16) (s : State) : Keeps s (execAlignLock port s) := by
  unfold execAlignLock
  extract_lets u0
  have hu0 : Kept s u0 := by
    dsimp only [u0]
    exact State.modPort_kept ..
  clear_value u0
  refine Keeps.next ?_
  split
  · refine Kept.trans ?_ (State.portState_kept ..)
    assumption
  · assumption
  · exact Kept.refl _

theorem execAlignTimeout_keeps (port : Fin 16) (s : State) : Keeps s (execAlignTimeout port s) := by
  unfold execAlignTimeout
  refine Keeps.next ?_
  split
  · exact State.backoff_kept ..
  · exact Kept.refl _

theorem execMeasureDone_keeps (port : Fin 16) (delayPs : Nat) (s : State) :
    Keeps s (execMeasureDone port delayPs s) := by
  unfold execMeasureDone
  extract_lets u0
  have hu0 : Kept s u0 := by
    dsimp only [u0]
    exact State.modPort_kept ..
  clear_value u0
  refine Keeps.next ?_
  split
  · refine Kept.trans ?_ (State.startExchange_kept ..)
    refine Kept.trans ?_ (State.portState_kept ..)
    assumption
  · split
    · refine Kept.trans ?_ (State.startExchange_kept ..)
      assumption
    · exact Kept.refl _
  · exact Kept.refl _

theorem execBackoffExpiry_keeps (port : Fin 16) (s : State) : Keeps s (execBackoffExpiry port s) := by
  unfold execBackoffExpiry
  refine Keeps.next ?_
  split
  · exact State.retry_kept ..
  · exact Kept.refl _

theorem execLossOfLock_keeps (port : Fin 16) (s : State) : Keeps s (execLossOfLock port s) := by
  unfold execLossOfLock
  refine Keeps.next ?_
  split
  · refine Kept.trans ?_ (State.portState_kept ..)
    refine Kept.trans ?_ (State.modPort_kept ..)
    exact State.cnt_kept ..
  · exact Kept.refl _

theorem execRetrainTimeout_keeps (port : Fin 16) (s : State) : Keeps s (execRetrainTimeout port s) := by
  unfold execRetrainTimeout
  refine Keeps.next ?_
  split
  · refine Kept.trans ?_ (State.retry_kept ..)
    exact State.dropLink_kept ..
  · exact Kept.refl _

theorem execUncWindow_keeps (port : Fin 16) (s : State) : Keeps s (execUncWindow port s) := by
  unfold execUncWindow
  extract_lets u0
  have hu0 : Kept s u0 := by
    dsimp only [u0]
    split
    · refine Kept.trans ?_ (State.event_kept ..)
      exact State.modPort_kept ..
    · exact Kept.refl _
  clear_value u0
  refine Keeps.next ?_
  refine Kept.trans ?_ (State.modPort_kept ..)
  assumption

theorem execAdaptationUpdate_keeps (port : Fin 16) (lane : Fin 12) (a : Adapt) (s : State) :
    Keeps s (execAdaptationUpdate port lane a s) := by
  unfold execAdaptationUpdate
  extract_lets k0
  clear_value k0
  refine Keeps.next ?_
  split
  · exact Kept.refl _
  · exact State.modLane_kept ..

theorem execBurstGuardWindow_keeps (port : Fin 16) (errors : List Nat) (s : State) :
    Keeps s (execBurstGuardWindow port errors s) := by
  unfold execBurstGuardWindow
  extract_lets k0 k1 u0 k2 k3 u1
  clear_value k0 k1 k2
  have hu0 : Kept s u0 := by
    dsimp only [u0]
    split
    · exact State.modPort_kept ..
    · refine Kept.each ?_ (fun t x => ?_)
      · exact Kept.refl _
      · exact State.modLane_kept ..
  clear_value u0
  have hu1 : Kept s u1 := by
    dsimp only [u1]
    dsimp only [k3]
    refine Kept.each ?_ (fun t x => ?_)
    · refine Kept.each ?_ (fun t x => ?_)
      · assumption
      · exact State.modLane_kept ..
    · exact State.modLane_kept ..
  clear_value u1
  refine Keeps.next ?_
  split
  · exact Kept.refl _
  · split
    · split
      · assumption
      · refine Kept.trans ?_ (State.cnt_kept ..)
        refine Kept.trans ?_ (State.modPort_kept ..)
        assumption
    · dsimp only [k3]
      refine Kept.each ?_ (fun t x => ?_)
      · assumption
      · exact State.modLane_kept ..

theorem execLoopFreezeEnd_keeps (port : Fin 16) (s : State) : Keeps s (execLoopFreezeEnd port s) := by
  unfold execLoopFreezeEnd
  refine Keeps.next ?_
  exact State.modPort_kept ..

theorem execFreezeLimit_keeps (port : Fin 16) (s : State) : Keeps s (execFreezeLimit port s) := by
  unfold execFreezeLimit
  refine Keeps.next ?_
  split
  · exact State.modPort_kept ..
  · exact Kept.refl _

theorem State.optMove_kept (s : State) (p : Nat) (a b : OptState) : Kept s (State.optMove s p a b) := by
  unfold State.optMove
  split
  · exact State.modPort_kept ..
  · exact Kept.refl _

theorem execOffTimeout_keeps (port : Fin 16) (s : State) : Keeps s (execOffTimeout port s) := by
  unfold execOffTimeout
  refine Keeps.next ?_
  split
  · exact Kept.refl _
  · exact State.optMove_kept ..

theorem execLightAnyLoss_keeps (port : Fin 16) (s : State) : Keeps s (execLightAnyLoss port s) := by
  unfold execLightAnyLoss
  refine Keeps.next ?_
  exact State.optOff_kept ..

theorem execBeaconQualified_keeps (port : Fin 16) (s : State) : Keeps s (execBeaconQualified port s) := by
  unfold execBeaconQualified
  refine Keeps.next ?_
  exact State.optMove_kept ..

theorem execLightFullReached_keeps (port : Fin 16) (s : State) : Keeps s (execLightFullReached port s) := by
  unfold execLightFullReached
  extract_lets u0
  have hu0 : Kept s u0 := by
    dsimp only [u0]
    exact State.optMove_kept ..
  clear_value u0
  refine Keeps.next ?_
  split
  · refine Kept.each ?_ (fun t x => ?_)
    · assumption
    · exact State.sendTraining_kept ..
  · assumption

theorem execRaiseTimeout_keeps (port : Fin 16) (s : State) : Keeps s (execRaiseTimeout port s) := by
  unfold execRaiseTimeout
  refine Keeps.next ?_
  exact State.optMove_kept ..

theorem execLightFullLoss_keeps (port : Fin 16) (s : State) : Keeps s (execLightFullLoss port s) := by
  unfold execLightFullLoss
  refine Keeps.next ?_
  exact State.optMove_kept ..

theorem execIslandLightCheck_keeps (port : Fin 16) (s : State) : Keeps s (execIslandLightCheck port s) := by
  unfold execIslandLightCheck
  refine Keeps.next ?_
  split
  · refine Kept.trans ?_ (State.lineOn_kept ..)
    exact State.record_kept ..
  · exact Kept.refl _

theorem execLaserDisableRelease_keeps (port : Fin 16) (s : State) : Keeps s (execLaserDisableRelease port s) := by
  unfold execLaserDisableRelease
  refine Keeps.next ?_
  refine Kept.trans ?_ (State.modIsland_kept ..)
  refine Kept.trans ?_ (State.lineOff_kept ..)
  exact State.lineOff_kept ..

theorem execOptInhibitN_keeps (low : Bool) (s : State) : Keeps s (execOptInhibitN low s) := by
  unfold execOptInhibitN
  extract_lets k0 u0
  clear_value k0
  have hu0 : Kept s u0 := by
    dsimp only [u0]
    refine Kept.mk ?_
    exact Kept.refl _
  clear_value u0
  refine Keeps.next ?_
  split
  · refine Kept.each ?_ (fun t x => ?_)
    · refine Kept.trans ?_ (State.record_kept ..)
      assumption
    · exact State.optOff_kept ..
  · refine Kept.trans ?_ (State.cleared_kept ..)
    assumption

theorem execEngineCaseOverheat_keeps (port : Fin 16) (s : State) : Keeps s (execEngineCaseOverheat port s) := by
  unfold execEngineCaseOverheat
  refine Keeps.next ?_
  split
  · refine Kept.trans ?_ (State.optOff_kept ..)
    exact State.modPort_kept ..
  · exact Kept.refl _

theorem execEngineCaseCooled_keeps (port : Fin 16) (s : State) : Keeps s (execEngineCaseCooled port s) := by
  unfold execEngineCaseCooled
  refine Keeps.next ?_
  exact State.modPort_kept ..

theorem execEthernetFrame_keeps (port : Fin 16) (f : EthFrame) (s : State) :
    Keeps s (execEthernetFrame port f s) := by
  unfold execEthernetFrame
  extract_lets k0
  clear_value k0
  refine Keeps.next ?_
  split
  · exact Kept.refl _
  · split
    · exact State.cnt_kept ..
    · split
      · split
        · exact State.send_kept ..
        · exact State.cnt_kept ..
      · split
        · exact State.send_kept ..
        · exact State.cnt_kept ..
      · split
        · exact Kept.refl _
        · refine Kept.trans ?_ (State.cnt_kept ..)
          exact State.cnt_kept ..
      · exact Kept.refl _

theorem State.linkUp_kept (s : State) (p : Nat) : Kept s (State.linkUp s p) := by
  unfold State.linkUp
  refine Kept.trans ?_ (State.portState_kept ..)
  exact State.modPort_kept ..

theorem execFirmwareLoaded_keeps (a b : FwCopy) (s : State) : Keeps s (execFirmwareLoaded a b s) := by
  unfold execFirmwareLoaded
  refine Keeps.next ?_
  split
  · exact Kept.refl _
  · extract_lets k0 k1 u0 k2 k3 k4 u1
    clear_value k0 k1 k2 k3 k4
    have hu0 : Kept s u0 := by
      dsimp only [u0]
      refine Kept.mk ?_
      exact Kept.refl _
    clear_value u0
    have hu1 : Kept s u1 := by
      dsimp only [u1]
      refine Kept.mk ?_
      assumption
    clear_value u1
    split
    · refine Kept.trans ?_ (State.recovery_kept ..)
      assumption
    · refine Kept.each ?_ (fun t x => ?_)
      · refine Kept.trans ?_ (State.modTag_kept ..)
        refine Kept.trans ?_ (State.modIsland_kept ..)
        assumption
      · split
        · exact State.toDetect_kept ..
        · exact Kept.refl _

theorem execPrbsCheckerLock_keeps (port : Fin 16) (lane : Fin 12) (s : State) :
    Keeps s (execPrbsCheckerLock port lane s) := by
  unfold execPrbsCheckerLock
  refine Keeps.next ?_
  split
  · exact State.modLane_kept ..
  · exact Kept.refl _

theorem execPrbsCheckerLockLoss_keeps (port : Fin 16) (lane : Fin 12) (s : State) :
    Keeps s (execPrbsCheckerLockLoss port lane s) := by
  unfold execPrbsCheckerLockLoss
  refine Keeps.next ?_
  split
  · refine Kept.trans ?_ (State.modLane_kept ..)
    exact State.cnt_kept ..
  · exact Kept.refl _

theorem State.ethLink_kept (s : State) (p : Nat) (up : Bool) : Kept s (State.ethLink s p up) := by
  unfold State.ethLink
  split
  · exact Kept.refl _
  · refine Kept.trans ?_ (State.event_kept ..)
    exact State.modPort_kept ..

theorem execEthernetLinkUp_keeps (port : Fin 16) (s : State) : Keeps s (execEthernetLinkUp port s) := by
  unfold execEthernetLinkUp
  refine Keeps.next ?_
  exact State.ethLink_kept ..

theorem execEthernetLinkDown_keeps (port : Fin 16) (s : State) : Keeps s (execEthernetLinkDown port s) := by
  unfold execEthernetLinkDown
  refine Keeps.next ?_
  exact State.ethLink_kept ..

/-! ### Admission -/

theorem State.discardSection_kept (s : State) (check item : Nat) : Kept s (State.discardSection s check item) := by
  unfold State.discardSection
  refine Kept.mk ?_
  exact Kept.refl _

theorem State.loadPort_kept (s : State) (b : List Byte) (p : Nat) : Kept s (State.loadPort s b p) := by
  unfold State.loadPort
  extract_lets k0 k1 u0 u1
  clear_value k0 k1
  have hu0 : Kept s u0 := by
    dsimp only [u0]
    exact State.modPort_kept ..
  clear_value u0
  have hu1 : Kept s u1 := by
    dsimp only [u1]
    refine Kept.trans ?_ (State.modPort_kept ..)
    refine Kept.trans ?_ (State.portState_kept ..)
    refine Kept.trans ?_ (State.dropLink_kept ..)
    assumption
  clear_value u1
  split
  · assumption
  · split
    · refine Kept.trans ?_ (State.toDetect_kept ..)
      assumption
    · assumption

theorem State.install_kept (s : State) (b : List Byte) : Kept s (State.install s b) := by
  unfold State.install
  extract_lets k0 k1 k2 u0 k3 k4 k5 u1 u2
  clear_value k0 k1 k2 k3 k4 k5
  have hu0 : Kept s u0 := by
    dsimp only [u0]
    exact State.wbCancelIn_kept ..
  clear_value u0
  have hu1 : Kept s u1 := by
    dsimp only [u1]
    refine Kept.clear ?_
    assumption
  clear_value u1
  have hu2 : Kept s u2 := by
    dsimp only [u2]
    refine Kept.each ?_ (fun t x => ?_)
    · assumption
    · exact State.setBytes_kept ..
  clear_value u2
  refine Kept.trans ?_ (State.note_kept ..)
  refine Kept.each ?_ (fun t x => ?_)
  · refine Kept.trans ?_ (State.wr_kept ..)
    assumption
  · exact State.loadPort_kept ..

theorem execAdmissionComplete_keeps (s : State) : Keeps s (execAdmissionComplete s) := by
  unfold execAdmissionComplete
  refine Keeps.next ?_
  split
  · exact Kept.refl _
  · extract_lets k0 u0
    clear_value k0
    have hu0 : Kept s u0 := by
      dsimp only [u0]
      split
      · exact State.discardSection_kept ..
      · split
        · refine Kept.trans ?_ (State.modLoad_kept ..)
          exact State.discardSection_kept ..
        · exact State.install_kept ..
    clear_value u0
    refine Kept.trans ?_ (State.pump_kept ..)
    refine Kept.trans ?_ (State.releaseHeld_kept ..)
    refine Kept.trans ?_ (State.event_kept ..)
    assumption

/-! ### HostCmds -/

theorem State.badAccess_kept (s : State) (p : Path) (addr : Nat) : Kept s (State.badAccess s p addr) := by
  unfold State.badAccess
  extract_lets k0 k1
  clear_value k0 k1
  split
  · refine Kept.trans ?_ (State.send_kept ..)
    split
    · exact State.violateAll_kept ..
    · exact State.violate_kept ..
  · refine Kept.trans ?_ (State.send_kept ..)
    split
    · exact State.violateAll_kept ..
    · exact State.violate_kept ..
  · extract_lets k2
    clear_value k2
    refine Kept.trans ?_ (State.send_kept ..)
    split
    · exact State.violateAll_kept ..
    · exact State.violate_kept ..
  · exact Kept.refl _

theorem State.slotRel_kept (s : State) (fn v : Nat) : Kept s (State.slotRel s fn v) := by
  unfold State.slotRel
  extract_lets k0 k1
  clear_value k0 k1
  split
  · exact Kept.refl _
  · split
    · exact State.setSlot_kept ..
    · exact State.cnt_kept ..

theorem State.queueRestart_kept (s : State) (fn q : Nat) : Kept s (State.queueRestart s fn q) := by
  unfold State.queueRestart
  split
  · exact Kept.refl _
  · refine Kept.trans ?_ (State.fetch_kept ..)
    exact State.modQueue_kept ..

theorem State.cmdqDb_kept (s : State) (fn q v : Nat) : Kept s (State.cmdqDb s fn q v) := by
  unfold State.cmdqDb
  extract_lets k0
  clear_value k0
  split
  · exact Kept.refl _
  · split
    · exact State.violate_kept ..
    · split
      · exact State.modHost_kept ..
      · exact State.setTail_kept ..

theorem State.ringDb_kept (s : State) (fn q v : Nat) : Kept s (State.ringDb s fn q v) := by
  unfold State.ringDb
  split
  · exact Kept.refl _
  · refine Kept.trans ?_ (State.serveRing_kept ..)
    exact State.modQueue_kept ..

theorem State.invalidate_kept (s : State) (scope : Nat) : Kept s (State.invalidate s scope) := by
  unfold State.invalidate
  split
  · exact Kept.refl _
  · extract_lets k0 k1
    clear_value k0 k1
    exact State.modHost_kept ..

theorem State.queueOffNow_kept (s : State) (fn q : Nat) : Kept s (State.queueOffNow s fn q) := by
  unfold State.queueOffNow
  extract_lets k0 u0 k1
  clear_value k0 k1
  have hu0 : Kept s u0 := by
    dsimp only [u0]
    refine Kept.trans ?_ (State.modHost_kept ..)
    exact State.dropReads_kept ..
  clear_value u0
  refine Kept.trans ?_ (State.modQueue_kept ..)
  assumption

theorem State.setQueue_kept (s : State) (fn q : Nat) (on : Bool) : Kept s (State.setQueue s fn q on) := by
  unfold State.setQueue
  extract_lets k0 k1 u0 k2
  clear_value k0 k1 k2
  have hu0 : Kept s u0 := by
    dsimp only [u0]
    exact State.wr_kept ..
  clear_value u0
  split
  · exact Kept.refl _
  · split
    · refine Kept.trans ?_ (State.queueOffNow_kept ..)
      assumption
    · split
      · refine Kept.trans ?_ (State.violate_kept ..)
        assumption
      · refine Kept.trans ?_ (State.serveRing_kept ..)
        refine Kept.trans ?_ (State.modQueue_kept ..)
        assumption

theorem execConfigRequest_keeps (fn : Fin 256) (s : State) : Keeps s (execConfigRequest fn s) := by
  unfold execConfigRequest
  refine Keeps.next ?_
  split
  · refine Kept.trans ?_ (State.send_kept ..)
    exact State.modHost_kept ..
  · exact Kept.refl _

theorem State.readNext_kept (s : State) : Kept s (State.readNext s) := by
  unfold State.readNext
  refine Kept.trans ?_ (State.pump_kept ..)
  refine Kept.trans ?_ (State.atomicsDue_kept ..)
  exact State.takeReads_kept ..

theorem execHostReadCompletion_keeps (tag : Nat) (r : HostRead) (s : State) :
    Keeps s (execHostReadCompletion tag r s) := by
  unfold execHostReadCompletion
  refine Keeps.next ?_
  split
  · exact Kept.refl _
  · extract_lets u0
    have hu0 : Kept s u0 := by
      dsimp only [u0]
      exact State.modHost_kept ..
    clear_value u0
    refine Kept.trans ?_ (State.readNext_kept ..)
    split
    · split
      · refine Kept.trans ?_ (State.chainRead_kept ..)
        assumption
      · refine Kept.trans ?_ (State.readDone_kept ..)
        assumption
    · refine Kept.trans ?_ (State.readFailed_kept ..)
      refine Kept.trans ?_ (State.send_kept ..)
      assumption
    · refine Kept.trans ?_ (State.readFailed_kept ..)
      refine Kept.trans ?_ (State.send_kept ..)
      assumption

theorem execCompletionTimeout_keeps (tag : Nat) (s : State) : Keeps s (execCompletionTimeout tag s) := by
  unfold execCompletionTimeout
  refine Keeps.next ?_
  split
  · exact Kept.refl _
  · refine Kept.trans ?_ (State.readNext_kept ..)
    refine Kept.trans ?_ (State.readFailed_kept ..)
    refine Kept.trans ?_ (State.send_kept ..)
    exact State.modHost_kept ..

theorem execBar0BadAccess_keeps (p : Path) (addr len : Nat) (write : Bool) (s : State) :
    Keeps s (execBar0BadAccess p addr len write s) := by
  unfold execBar0BadAccess
  refine Keeps.next ?_
  split
  · exact Kept.refl _
  · split
    · exact State.badAccess_kept ..
    · exact State.send_kept ..

theorem execBar2Write_keeps (fn : Fin 256) (addr : Nat) (s : State) : Keeps s (execBar2Write fn addr s) := by
  unfold execBar2Write
  refine Keeps.next ?_
  exact State.cnt_kept ..

theorem execResultSlotRead_keeps (fn : Fin 256) (addr len : Nat) (s : State) :
    Keeps s (execResultSlotRead fn addr len s) := by
  unfold execResultSlotRead
  extract_lets k0 k1
  clear_value k0 k1
  refine Keeps.next ?_
  exact State.send_kept ..

theorem execNop_keeps (fn : Fin 256) (q : Fin 64) (s : State) : Keeps s (execNop fn q s) := by
  unfold execNop
  refine Keeps.next ?_
  exact State.process_kept ..

theorem execSubmit_keeps (fn : Fin 256) (q : Fin 64) (s : State) : Keeps s (execSubmit fn q s) := by
  unfold execSubmit
  refine Keeps.next ?_
  exact State.process_kept ..

theorem execInvalidateComplete_keeps (s : State) : Keeps s (execInvalidateComplete s) := by
  unfold execInvalidateComplete
  refine Keeps.next ?_
  split
  · exact Kept.refl _
  · split
    · exact Kept.refl _
    · exact State.modHost_kept ..

theorem State.resetPages_kept (s : State) (keep : Nat → Bool) : Kept s (State.resetPages s keep) := by
  unfold State.resetPages
  refine Kept.mk ?_
  exact Kept.refl _

theorem State.dropWaiting_kept (s : State) (fn q : Nat) : Kept s (State.dropWaiting s fn q) := by
  unfold State.dropWaiting
  refine Kept.each ?_ (fun t x => ?_)
  · exact State.modQueue_kept ..
  · split
    · exact State.freeId_kept ..
    · exact Kept.refl _

theorem State.dropWalk_kept (s : State) (u : WalkUse) : Kept s (State.dropWalk s u) := by
  unfold State.dropWalk
  split
  · exact Kept.refl _
  · split
    · split
      · exact State.releaseEnd_kept ..
      · exact Kept.refl _
    · exact Kept.refl _
  · exact Kept.refl _
  · refine Kept.trans ?_ (State.cnt_kept ..)
    exact State.modChain_kept ..

theorem State.dropRead_kept (s : State) (u : ReadUse) : Kept s (State.dropRead s u) := by
  unfold State.dropRead
  split
  · refine Kept.trans ?_ (State.cnt_kept ..)
    exact State.modChain_kept ..
  · exact Kept.refl _

theorem State.abandon_kept (s : State) (fn : Nat) : Kept s (State.abandon s fn) := by
  unfold State.abandon
  extract_lets u0 u1 k0 k1 k2 k3 u2 u3
  clear_value k0 k1 k2 k3
  have hu0 : Kept s u0 := by
    dsimp only [u0]
    exact State.modFn_kept ..
  clear_value u0
  have hu1 : Kept s u1 := by
    dsimp only [u1]
    refine Kept.each ?_ (fun t x => ?_)
    · assumption
    · refine Kept.trans ?_ (State.dropWaiting_kept ..)
      exact State.queueOffNow_kept ..
  clear_value u1
  have hu2 : Kept s u2 := by
    dsimp only [u2]
    refine Kept.each ?_ (fun t x => ?_)
    · refine Kept.trans ?_ (State.modHost_kept ..)
      refine Kept.trans ?_ (State.dropReads_kept ..)
      assumption
    · exact State.freeOf_kept ..
  clear_value u2
  have hu3 : Kept s u3 := by
    dsimp only [u3]
    refine Kept.trans ?_ (State.modSvc_kept ..)
    assumption
  clear_value u3
  refine Kept.trans ?_ (State.takeReads_kept ..)
  refine Kept.each ?_ (fun t x => ?_)
  · refine Kept.each ?_ (fun t x => ?_)
    · refine Kept.each ?_ (fun t x => ?_)
      · assumption
      · exact State.dropWalk_kept ..
    · exact State.dropRead_kept ..
  · exact State.nack_kept ..

theorem State.disableVf_kept (s : State) (n : Nat) : Kept s (State.disableVf s n) := by
  unfold State.disableVf
  split
  · exact Kept.refl _
  · extract_lets u0
    have hu0 : Kept s u0 := by
      dsimp only [u0]
      exact State.abandon_kept ..
    clear_value u0
    split
    · refine Kept.trans ?_ (State.modFn_kept ..)
      refine Kept.trans ?_ (State.signalFn_kept ..)
      refine Kept.trans ?_ (State.modTick_kept ..)
      assumption
    · split
      · refine Kept.trans ?_ (State.withdraw_kept ..)
        assumption
      · refine Kept.trans ?_ (State.modTick_kept ..)
        assumption

theorem State.disableVfs_kept (s : State) : Kept s (State.disableVfs s) := by
  unfold State.disableVfs
  refine Kept.each ?_ (fun t x => ?_)
  · exact Kept.refl _
  · exact State.disableVf_kept ..

theorem State.flrPf_kept (s : State) : Kept s (State.flrPf s) := by
  unfold State.flrPf
  refine Kept.trans ?_ (State.disableVfs_kept ..)
  split
  · exact Kept.refl _
  · exact State.abandon_kept ..

theorem execFlr_keeps (fn : Fin 256) (s : State) : Keeps s (execFlr fn s) := by
  unfold execFlr
  refine Keeps.next ?_
  refine Kept.trans ?_ (State.pump_kept ..)
  refine Kept.trans ?_ (State.atomicsDue_kept ..)
  refine Kept.trans ?_ (State.resetPages_kept ..)
  split
  · exact State.flrPf_kept ..
  · exact State.disableVf_kept ..

theorem execVfDisable_keeps (s : State) : Keeps s (execVfDisable s) := by
  unfold execVfDisable
  extract_lets k0
  clear_value k0
  refine Keeps.next ?_
  refine Kept.trans ?_ (State.pump_kept ..)
  refine Kept.trans ?_ (State.atomicsDue_kept ..)
  refine Kept.trans ?_ (State.resetPages_kept ..)
  exact State.disableVfs_kept ..

theorem execPfFlr_keeps (s : State) : Keeps s (execPfFlr s) := by
  unfold execPfFlr
  refine Keeps.next ?_
  refine Kept.trans ?_ (State.pump_kept ..)
  refine Kept.trans ?_ (State.atomicsDue_kept ..)
  refine Kept.trans ?_ (State.resetPages_kept ..)
  exact State.flrPf_kept ..

theorem execFlrComplete_keeps (fn : Fin 256) (s : State) : Keeps s (execFlrComplete fn s) := by
  unfold execFlrComplete
  refine Keeps.next ?_
  split
  · exact Kept.refl _
  · exact State.modFn_kept ..

theorem execZeroingComplete_keeps (tenant : Fin 256) (s : State) : Keeps s (execZeroingComplete tenant s) := by
  unfold execZeroingComplete
  refine Keeps.next ?_
  split
  · exact Kept.refl _
  · extract_lets k0
    clear_value k0
    refine Kept.trans ?_ (State.modFn_kept ..)
    refine Kept.each ?_ (fun t x => ?_)
    · exact Kept.refl _
    · exact State.zeroOut_kept ..

theorem execCreditStall_keeps (s : State) : Keeps s (execCreditStall s) := by
  unfold execCreditStall
  refine Keeps.next ?_
  refine Kept.trans ?_ (State.modHost_kept ..)
  exact State.cnt_kept ..

theorem execPostedCreditReturn_keeps (n : Nat) (s : State) : Keeps s (execPostedCreditReturn n s) := by
  unfold execPostedCreditReturn
  extract_lets u0
  have hu0 : Kept s u0 := by
    dsimp only [u0]
    exact State.modHost_kept ..
  clear_value u0
  refine Keeps.next ?_
  refine Kept.each ?_ (fun t x => ?_)
  · assumption
  · exact State.post_kept ..

theorem execMsixUnmask_keeps (fn : Fin 256) (vector : Fin 2048) (s : State) :
    Keeps s (execMsixUnmask fn vector s) := by
  unfold execMsixUnmask
  extract_lets k0 u0
  clear_value k0
  have hu0 : Kept s u0 := by
    dsimp only [u0]
    exact State.modFn_kept ..
  clear_value u0
  refine Keeps.next ?_
  split
  · exact Kept.refl _
  · split
    · refine Kept.trans ?_ (State.toHost_kept ..)
      assumption
    · assumption

theorem execHostPortReset_keeps (s : State) : Keeps s (execHostPortReset s) := by
  unfold execHostPortReset
  refine Keeps.next ?_
  split
  · exact Kept.refl _
  · extract_lets u0
    have hu0 : Kept s u0 := by
      dsimp only [u0]
      refine Kept.trans ?_ (State.resetPages_kept ..)
      exact State.flrPf_kept ..
    clear_value u0
    refine Kept.trans ?_ (State.pump_kept ..)
    refine Kept.trans ?_ (State.atomicsDue_kept ..)
    refine Kept.trans ?_ (State.modPower_kept ..)
    refine Kept.trans ?_ (State.modHost_kept ..)
    assumption

/-! ### LinkCmds -/

theorem State.switchKey_kept (s : State) (p : Nat) : Kept s (State.switchKey s p) := by
  unfold State.switchKey
  split
  · exact State.modPort_kept ..
  · exact Kept.refl _

theorem execIdleUnit_keeps (port : Fin 16) (cw : Codewords) (u : IdleUnit) (s : State) :
    Keeps s (execIdleUnit port cw u s) := by
  unfold execIdleUnit
  extract_lets u0
  have hu0 : Kept s u0 := by
    dsimp only [u0]
    split
    · exact State.takeBlocks_kept ..
    · exact Kept.refl _
  clear_value u0
  refine Keeps.next ?_
  split
  · assumption
  · split
    · split
      · refine Kept.trans ?_ (State.cnt_kept ..)
        assumption
      · assumption
    · refine Kept.trans ?_ (State.cnt_kept ..)
      assumption

theorem execEscapeTimeout_keeps (port : Fin 16) (cls : RClass) (s : State) :
    Keeps s (execEscapeTimeout port cls s) := by
  unfold execEscapeTimeout
  refine Keeps.next ?_
  split
  · exact Kept.refl _
  · extract_lets u0 k0 k1
    clear_value k0 k1
    have hu0 : Kept s u0 := by
      dsimp only [u0]
      refine Kept.trans ?_ (State.cnt_kept ..)
      exact State.modPort_kept ..
    clear_value u0
    refine Kept.trans ?_ (State.pump_kept ..)
    split
    · refine Kept.trans ?_ (State.enqueue_kept ..)
      assumption
    · refine Kept.trans ?_ (State.noHop_kept ..)
      refine Kept.trans ?_ (State.freeUnits_kept ..)
      refine Kept.trans ?_ (State.cnt_kept ..)
      assumption

theorem State.acked_kept (s : State) (p cls h : Nat) (kp : Bool) : Kept s (State.acked s p cls h kp) := by
  unfold State.acked
  split
  · exact Kept.refl _
  · extract_lets u0
    have hu0 : Kept s u0 := by
      dsimp only [u0]
      exact State.modSeq_kept ..
    clear_value u0
    refine Kept.trans ?_ (State.drainWindow_kept ..)
    assumption

theorem State.ackedAll_kept (s : State) (p : Nat) (acks : List Nat) (kp : Bool) :
    Kept s (State.ackedAll s p acks kp) := by
  unfold State.ackedAll
  refine Kept.each ?_ (fun t x => ?_)
  · exact Kept.refl _
  · exact State.acked_kept ..

theorem execStatus_keeps (port : Fin 16) (a : Arrival) (credits acks : List Nat) (s : State) :
    Keeps s (execStatus port a credits acks s) := by
  unfold execStatus
  refine Keeps.next ?_
  split
  · extract_lets u0
    have hu0 : Kept s u0 := by
      dsimp only [u0]
      refine Kept.trans ?_ (State.modPort_kept ..)
      rename_i hq
      have hk := congrArg Prod.fst hq
      dsimp only at hk
      rw [← hk]
      exact State.receive_fst ..
    clear_value u0
    refine Kept.trans ?_ (State.pump_kept ..)
    refine Kept.trans ?_ (State.pumpPort_kept ..)
    refine Kept.trans ?_ (State.ackedAll_kept ..)
    assumption
  · rename_i hq
    have hk := congrArg Prod.fst hq
    dsimp only at hk
    rw [← hk]
    exact State.receive_fst ..

theorem execStatusTimer_keeps (port : Fin 16) (s : State) : Keeps s (execStatusTimer port s) := by
  unfold execStatusTimer
  refine Keeps.next ?_
  split
  · exact State.sendStatus_kept ..
  · exact Kept.refl _

theorem State.resend_kept (s : State) (p cls : Nat) (named : Frame → Bool) : Kept s (State.resend s p cls named) := by
  unfold State.resend
  refine Kept.each ?_ (fun t x => ?_)
  · exact Kept.refl _
  · exact State.transmit_kept ..

theorem execRetry_keeps (port : Fin 16) (a : Arrival) (cls first count : Nat) (s : State) :
    Keeps s (execRetry port a cls first count s) := by
  unfold execRetry
  refine Keeps.next ?_
  split
  · split
    · refine Kept.trans ?_ (State.resend_kept ..)
      rename_i hq _
      have hk := congrArg Prod.fst hq
      dsimp only at hk
      rw [← hk]
      exact State.receive_fst ..
    · rename_i hq _
      have hk := congrArg Prod.fst hq
      dsimp only at hk
      rw [← hk]
      exact State.receive_fst ..
  · rename_i hq
    have hk := congrArg Prod.fst hq
    dsimp only at hk
    rw [← hk]
    exact State.receive_fst ..

theorem execRetryTimeout_keeps (port : Fin 16) (cls seq : Nat) (s : State) :
    Keeps s (execRetryTimeout port cls seq s) := by
  unfold execRetryTimeout
  refine Keeps.next ?_
  split
  · split
    · exact State.transmit_kept ..
    · exact Kept.refl _
  · exact Kept.refl _

theorem execProbe_keeps (port : Fin 16) (a : Arrival) (t1 t2 : Nat) (s : State) :
    Keeps s (execProbe port a t1 t2 s) := by
  unfold execProbe
  refine Keeps.next ?_
  split
  · refine Kept.trans ?_ (State.draw_kept ..)
    refine Kept.trans ?_ (State.sendOn_kept ..)
    rename_i hq
    have hk := congrArg Prod.fst hq
    dsimp only at hk
    rw [← hk]
    exact State.receive_fst ..
  · rename_i hq
    have hk := congrArg Prod.fst hq
    dsimp only at hk
    rw [← hk]
    exact State.receive_fst ..

theorem execProbeRsp_keeps (port : Fin 16) (a : Arrival) (t1 t2 t3 t4 : Nat) (s : State) :
    Keeps s (execProbeRsp port a t1 t2 t3 t4 s) := by
  unfold execProbeRsp
  refine Keeps.next ?_
  split
  · refine Kept.trans ?_ (State.modPort_kept ..)
    rename_i hq
    have hk := congrArg Prod.fst hq
    dsimp only at hk
    rw [← hk]
    exact State.receive_fst ..
  · rename_i hq
    have hk := congrArg Prod.fst hq
    dsimp only at hk
    rw [← hk]
    exact State.receive_fst ..

theorem State.clearMessage_fst (s : State) (p : Nat) (a : Arrival) : Kept s (State.clearMessage s p a).1 := by
  unfold State.clearMessage
  split
  · dsimp only
    exact Kept.refl _
  · dsimp only
    exact State.takeBlocks_kept ..

theorem State.refusePartner_kept (s : State) (p : Nat) : Kept s (State.refusePartner s p) := by
  unfold State.refusePartner
  refine Kept.trans ?_ (State.fencePort_kept ..)
  exact State.violate_kept ..

theorem State.sendFinish_kept (s : State) (p : Nat) : Kept s (State.sendFinish s p) := by
  unfold State.sendFinish
  exact State.sendSecure_kept ..

theorem State.deriveKeys_kept (s : State) (p : Nat) (ours theirs : Hello) :
    Kept s (State.deriveKeys s p ours theirs) := by
  unfold State.deriveKeys
  extract_lets k0 k1 k2
  clear_value k0 k1 k2
  exact State.modPort_kept ..

theorem State.sendSign_kept (s : State) (p : Nat) : Kept s (State.sendSign s p) := by
  unfold State.sendSign
  refine Kept.trans ?_ (State.draw_kept ..)
  exact State.sendSecure_kept ..

theorem State.takeHello_kept (s : State) (p : Nat) (h : Hello) : Kept s (State.takeHello s p h) := by
  unfold State.takeHello
  extract_lets u0
  have hu0 : Kept s u0 := by
    dsimp only [u0]
    exact State.modPort_kept ..
  clear_value u0
  split
  · refine Kept.trans ?_ (State.refusePartner_kept ..)
    assumption
  · split
    · refine Kept.trans ?_ (State.sendFinish_kept ..)
      refine Kept.trans ?_ (State.deriveKeys_kept ..)
      assumption
    · refine Kept.trans ?_ (State.sendSign_kept ..)
      assumption
    · assumption

theorem State.rekeyHello_kept (s : State) (p : Nat) (h : Hello) : Kept s (State.rekeyHello s p h) := by
  unfold State.rekeyHello
  extract_lets k0 u0
  clear_value k0
  have hu0 : Kept s u0 := by
    dsimp only [u0]
    exact State.beginRekey_kept ..
  clear_value u0
  split
  · split
    · exact State.takeHello_kept ..
    · exact Kept.refl _
  · split
    · refine Kept.trans ?_ (State.takeHello_kept ..)
      assumption
    · assumption

theorem execHello_keeps (port : Fin 16) (h : HelloFrame) (s : State) : Keeps s (execHello port h s) := by
  unfold execHello
  refine Keeps.next ?_
  split
  · extract_lets k0
    have hk0 : Kept s k0.1 := by
      dsimp only [k0]
      exact State.clearMessage_fst ..
    clear_value k0
    split
    · refine Kept.trans ?_ (State.takeHello_kept ..)
      assumption
    · assumption
  · extract_lets k0
    have hk0 : Kept s k0.1 := by
      dsimp only [k0]
      exact State.clearMessage_fst ..
    clear_value k0
    split
    · refine Kept.trans ?_ (State.takeHello_kept ..)
      assumption
    · assumption
  · split
    · refine Kept.trans ?_ (State.rekeyHello_kept ..)
      rename_i hq
      have hk := congrArg Prod.fst hq
      dsimp only at hk
      rw [← hk]
      exact State.receive_fst ..
    · rename_i hq
      have hk := congrArg Prod.fst hq
      dsimp only at hk
      rw [← hk]
      exact State.receive_fst ..

theorem execSign_keeps (port : Fin 16) (sig : SignFrame) (s : State) :
    Keeps s (execSign port sig s) := by
  unfold execSign
  extract_lets k0 k1
  clear_value k0
  have hk1 : Kept s k1.1 := by
    dsimp only [k1]
    exact State.clearMessage_fst ..
  clear_value k1
  refine Keeps.next ?_
  split
  · exact State.receive_fst ..
  · split
    · assumption
    · split
      · split
        · refine Kept.trans ?_ (State.sendFinish_kept ..)
          refine Kept.trans ?_ (State.deriveKeys_kept ..)
          assumption
        · refine Kept.trans ?_ (State.refusePartner_kept ..)
          assumption
      · assumption

theorem State.keyUp_kept (s : State) (p q : Nat) (acks : List Nat) : Kept s (State.keyUp s p q acks) := by
  unfold State.keyUp
  extract_lets k0 u0 u1
  clear_value k0
  have hu0 : Kept s u0 := by
    dsimp only [u0]
    exact State.modPort_kept ..
  clear_value u0
  have hu1 : Kept s u1 := by
    dsimp only [u1]
    refine Kept.each ?_ (fun t x => ?_)
    · assumption
    · exact State.modPort_kept ..
  clear_value u1
  refine Kept.trans ?_ (State.pumpPort_kept ..)
  refine Kept.each ?_ (fun t x => ?_)
  · refine Kept.trans ?_ (State.linkUp_kept ..)
    assumption
  · exact State.drainWindow_kept ..

theorem State.rekeyFinish_kept (s : State) (p : Nat) (kp : Bool) (acks : List Nat) :
    Kept s (State.rekeyFinish s p kp acks) := by
  unfold State.rekeyFinish
  extract_lets u0
  have hu0 : Kept s u0 := by
    dsimp only [u0]
    exact State.ackedAll_kept ..
  clear_value u0
  split
  · refine Kept.trans ?_ (State.modPort_kept ..)
    assumption
  · assumption

theorem execFinish_keeps (port : Fin 16) (a : Arrival) (acks : List Nat) (s : State) :
    Keeps s (execFinish port a acks s) := by
  unfold execFinish
  refine Keeps.next ?_
  split
  · extract_lets k0
    have hk0 : Kept s k0.1 := by
      dsimp only [k0]
      exact State.clearMessage_fst ..
    clear_value k0
    split
    · assumption
    · split
      · refine Kept.trans ?_ (State.authFail_kept ..)
        assumption
      · refine Kept.trans ?_ (State.pump_kept ..)
        refine Kept.trans ?_ (State.keyUp_kept ..)
        assumption
  · extract_lets k0
    have hk0 : Kept s k0.1 := by
      dsimp only [k0]
      exact State.clearMessage_fst ..
    clear_value k0
    split
    · assumption
    · split
      · refine Kept.trans ?_ (State.authFail_kept ..)
        assumption
      · refine Kept.trans ?_ (State.pump_kept ..)
        refine Kept.trans ?_ (State.keyUp_kept ..)
        assumption
  · split
    · refine Kept.trans ?_ (State.rekeyFinish_kept ..)
      rename_i hq
      have hk := congrArg Prod.fst hq
      dsimp only at hk
      rw [← hk]
      exact State.receive_fst ..
    · rename_i hq
      have hk := congrArg Prod.fst hq
      dsimp only at hk
      rw [← hk]
      exact State.receive_fst ..

theorem execSecureTimeout_keeps (port : Fin 16) (s : State) : Keeps s (execSecureTimeout port s) := by
  unfold execSecureTimeout
  extract_lets k0
  clear_value k0
  refine Keeps.next ?_
  split
  · exact State.fencePort_kept ..
  · exact Kept.refl _

theorem execFenceExpiry_keeps (port : Fin 16) (s : State) : Keeps s (execFenceExpiry port s) := by
  unfold execFenceExpiry
  refine Keeps.next ?_
  split
  · refine Kept.trans ?_ (State.retry_kept ..)
    exact State.dropLink_kept ..
  · exact Kept.refl _

theorem execRekeyTimer_keeps (port : Fin 16) (s : State) : Keeps s (execRekeyTimer port s) := by
  unfold execRekeyTimer
  refine Keeps.next ?_
  split
  · exact State.beginRekey_kept ..
  · exact Kept.refl _

theorem execOldPhaseExpiry_keeps (port : Fin 16) (s : State) : Keeps s (execOldPhaseExpiry port s) := by
  unfold execOldPhaseExpiry
  refine Keeps.next ?_
  exact State.modPort_kept ..

theorem execLinkDelayProbe_keeps (port : Fin 16) (t1 : Nat) (s : State) : Keeps s (execLinkDelayProbe port t1 s) := by
  unfold execLinkDelayProbe
  refine Keeps.next ?_
  exact State.sendOn_kept ..

/-! ### LoadCmds -/

theorem State.startChain_kept (s : State) (e : Nat) : Kept s (State.startChain s e) := by
  unfold State.startChain
  extract_lets k0 u0
  clear_value k0
  have hu0 : Kept s u0 := by
    dsimp only [u0]
    refine Kept.trans ?_ (State.restartWindow_kept ..)
    exact State.modChain_kept ..
  clear_value u0
  refine Kept.trans ?_ (State.pump_kept ..)
  refine Kept.trans ?_ (State.chainFill_kept ..)
  assumption

theorem State.reloadShare_kept (s : State) : Kept s (State.reloadShare s) := by
  unfold State.reloadShare
  exact State.modLoad_kept ..

theorem State.abortChain_kept (s : State) (e : Nat) : Kept s (State.abortChain s e) := by
  unfold State.abortChain
  refine Kept.trans ?_ (State.modFab_kept ..)
  exact State.modChain_kept ..

theorem State.portRecord_kept (s : State) (port kind : Nat) (r : LoadRecord) :
    Kept s (State.portRecord s port kind r) := by
  unfold State.portRecord
  split
  · exact Kept.refl _
  · refine Kept.trans ?_ (State.pump_kept ..)
    exact State.serveRecord_kept ..

theorem execSectionRecord_keeps (port : Fin 16) (r : LoadRecord) (s : State) :
    Keeps s (execSectionRecord port r s) := by
  unfold execSectionRecord
  refine Keeps.next ?_
  exact State.portRecord_kept ..

theorem execShareRecord_keeps (port : Fin 16) (r : LoadRecord) (s : State) : Keeps s (execShareRecord port r s) := by
  unfold execShareRecord
  refine Keeps.next ?_
  exact State.portRecord_kept ..

theorem execStateRecord_keeps (port : Fin 16) (r : LoadRecord) (s : State) : Keeps s (execStateRecord port r s) := by
  unfold execStateRecord
  refine Keeps.next ?_
  exact State.portRecord_kept ..

theorem execEndRecord_keeps (port : Fin 16) (r : LoadRecord) (s : State) : Keeps s (execEndRecord port r s) := by
  unfold execEndRecord
  refine Keeps.next ?_
  exact State.portRecord_kept ..

theorem execShareVerdict_keeps (s : State) : Keeps s (execShareVerdict s) := by
  unfold execShareVerdict
  refine Keeps.next ?_
  split
  · exact State.shareVerdict_kept ..
  · exact Kept.refl _

theorem execRefillTimeout_keeps (s : State) : Keeps s (execRefillTimeout s) := by
  unfold execRefillTimeout
  refine Keeps.next ?_
  split
  · exact State.shareBad_kept ..
  · exact Kept.refl _

end Sys2Proof.Machine
end

