-- ==== Sys2Proof/Laws/KeptTick.lean ====
section
/-!
SUPPORT. What is kept by the tick, and registers by every path.
-/
namespace Sys2Proof.Machine

/-! ### Seal -/

theorem State.snapshot_kept (s : State) : Kept s (State.snapshot s) := by
  unfold State.snapshot
  refine Kept.mk ?_
  exact Kept.refl _

theorem State.takeRole_kept (s : State) : Kept s (State.takeRole s) := by
  unfold State.takeRole
  refine Kept.when ?_ (fun t => ?_)
  · exact Kept.refl _
  · exact State.wr_kept ..

theorem State.spareStops_kept (s : State) : Kept s (State.spareStops s) := by
  unfold State.spareStops
  split
  · exact State.modTick_kept ..
  · exact Kept.refl _

theorem State.takePlacement_kept (s : State) : Kept s (State.takePlacement s) := by
  unfold State.takePlacement
  extract_lets k0 u0
  clear_value k0
  have hu0 : Kept s u0 := by
    dsimp only [u0]
    exact State.modFab_kept ..
  clear_value u0
  split
  · exact Kept.refl _
  · split
    · refine Kept.trans ?_ (State.wr_kept ..)
      refine Kept.trans ?_ (State.wr_kept ..)
      refine Kept.trans ?_ (State.wr_kept ..)
      assumption
    · assumption

theorem State.takeResumed_kept (s : State) : Kept s (State.takeResumed s) := by
  unfold State.takeResumed
  extract_lets u0
  have hu0 : Kept s u0 := by
    dsimp only [u0]
    exact State.takeRole_kept ..
  clear_value u0
  refine Kept.trans ?_ (State.spareStops_kept ..)
  refine Kept.trans ?_ (State.takePlacement_kept ..)
  refine Kept.mk ?_
  assumption

theorem State.toggleCur_kept (s : State) : Kept s (State.toggleCur s) := by
  unfold State.toggleCur
  extract_lets k0
  clear_value k0
  refine Kept.mk ?_
  exact Kept.refl _

theorem State.settleDead_kept (s : State) : Kept s (State.settleDead s) := by
  unfold State.settleDead
  extract_lets k0 k1
  clear_value k0 k1
  refine Kept.mk ?_
  exact Kept.refl _

theorem State.stage_kept (s : State) : Kept s (State.stage s) := by
  unfold State.stage
  refine Kept.each ?_ (fun t x => ?_)
  · exact Kept.refl _
  · split
    · exact Kept.refl _
    · split
      · refine Kept.mk ?_
        exact Kept.refl _
      · extract_lets k0 u0
        clear_value k0
        have hu0 : Kept t u0 := by
          dsimp only [u0]
          refine Kept.mk ?_
          exact Kept.refl _
        clear_value u0
        refine Kept.each ?_ (fun t x => ?_)
        · assumption
        · split
          · exact State.setCtx_kept ..
          · exact Kept.refl _

theorem State.keepSlack_kept (s : State) : Kept s (State.keepSlack s) := by
  unfold State.keepSlack
  refine Kept.mk ?_
  exact Kept.refl _

theorem State.takeAll_kept (s : State) : Kept s (State.takeAll s) := by
  unfold State.takeAll
  refine Kept.trans ?_ (State.spareStops_kept ..)
  refine Kept.trans ?_ (State.takePlacement_kept ..)
  refine Kept.trans ?_ (State.takeEffect_kept ..)
  exact State.takeRole_kept ..

theorem State.advanceCtx_kept (s : State) (c k r : Nat) : Kept s (State.advanceCtx s c k r) := by
  unfold State.advanceCtx
  extract_lets k0 k1
  clear_value k0 k1
  split
  · exact State.setCtx_kept ..
  · exact Kept.refl _

theorem State.boundary_kept (s : State) (t : Nat) : Kept s (State.boundary s t) := by
  unfold State.boundary
  extract_lets k0 k1 u0 k2 u1
  clear_value k0 k1 k2
  have hu0 : Kept s u0 := by
    dsimp only [u0]
    refine Kept.each ?_ (fun t x => ?_)
    · exact Kept.refl _
    · exact State.advanceCtx_kept ..
  clear_value u0
  have hu1 : Kept s u1 := by
    dsimp only [u1]
    refine Kept.mk ?_
    assumption
  clear_value u1
  refine Kept.trans ?_ (State.ledgerEvent_kept ..)
  assumption

theorem State.commitTick_kept (s : State) : Kept s (State.commitTick s) := by
  unfold State.commitTick
  extract_lets u0 u1 u2 u3 u4 u5
  have hu0 : Kept s u0 := by
    dsimp only [u0]
    refine Kept.trans ?_ (State.selfCheckCommit_kept ..)
    refine Kept.trans ?_ (State.commitServices_kept ..)
    exact State.toggleCur_kept ..
  clear_value u0
  have hu1 : Kept s u1 := by
    dsimp only [u1]
    refine Kept.each ?_ (fun t x => ?_)
    · assumption
    · exact State.steerQuarter_kept ..
  clear_value u1
  have hu2 : Kept s u2 := by
    dsimp only [u2]
    refine Kept.trans ?_ (State.settleDead_kept ..)
    refine Kept.trans ?_ (State.stage_kept ..)
    refine Kept.trans ?_ (State.keepSlack_kept ..)
    assumption
  clear_value u2
  have hu3 : Kept s u3 := by
    dsimp only [u3]
    refine Kept.trans ?_ (State.takeAll_kept ..)
    refine Kept.each ?_ (fun t x => ?_)
    · assumption
    · exact State.boundary_kept ..
  clear_value u3
  have hu4 : Kept s u4 := by
    dsimp only [u4]
    refine Kept.each ?_ (fun t x => ?_)
    · assumption
    · exact State.entriesInForce_kept ..
  clear_value u4
  have hu5 : Kept s u5 := by
    dsimp only [u5]
    refine Kept.trans ?_ (State.snapshot_kept ..)
    refine Kept.trans ?_ (State.modTick_kept ..)
    assumption
  clear_value u5
  refine Kept.trans ?_ (State.modTime_kept ..)
  refine Kept.mk ?_
  assumption

theorem State.undoTick_kept (s : State) : Kept s (State.undoTick s) := by
  unfold State.undoTick
  extract_lets k0 u0
  clear_value k0
  have hu0 : Kept s u0 := by
    dsimp only [u0]
    refine Kept.mk ?_
    exact Kept.refl _
  clear_value u0
  refine Kept.trans ?_ (State.modTick_kept ..)
  refine Kept.trans ?_ (State.undoServices_kept ..)
  assumption

theorem State.reachVerdict_kept (s : State) (v : VoteSum) : Kept s (State.reachVerdict s v) := by
  unfold State.reachVerdict
  extract_lets k0 u0
  clear_value k0
  have hu0 : Kept s u0 := by
    dsimp only [u0]
    exact State.modTick_kept ..
  clear_value u0
  split
  · split
    · refine Kept.trans ?_ (State.sendVote_kept ..)
      assumption
    · assumption
  · assumption

theorem State.sendUp_kept (s : State) : Kept s (State.sendUp s) := by
  unfold State.sendUp
  extract_lets k0 u0
  clear_value k0
  have hu0 : Kept s u0 := by
    dsimp only [u0]
    exact State.modTick_kept ..
  clear_value u0
  split
  · refine Kept.trans ?_ (State.reachVerdict_kept ..)
    assumption
  · refine Kept.trans ?_ (State.sendVote_kept ..)
    assumption

theorem State.countFails_kept (s : State) (l : List TickFault) : Kept s (State.countFails s l) := by
  unfold State.countFails
  exact State.modTick_kept ..

theorem State.voteDeadline_kept (s : State) : Kept s (State.voteDeadline s) := by
  unfold State.voteDeadline
  split
  · exact Kept.refl _
  · extract_lets k0 u0
    clear_value k0
    have hu0 : Kept s u0 := by
      dsimp only [u0]
      refine Kept.each ?_ (fun t x => ?_)
      · exact Kept.refl _
      · refine Kept.trans ?_ (State.sealFault_kept ..)
        exact State.violate_kept ..
    clear_value u0
    refine Kept.trans ?_ (State.sendUp_kept ..)
    refine Kept.trans ?_ (State.modTick_kept ..)
    refine Kept.trans ?_ (State.countFails_kept ..)
    assumption

theorem State.freeBlocks_kept (s : State) : Kept s (State.freeBlocks s) := by
  unfold State.freeBlocks
  refine Kept.mk ?_
  exact Kept.refl _

theorem State.sealFaults_kept (s : State) : Kept s (State.sealFaults s) := by
  unfold State.sealFaults
  extract_lets u0
  have hu0 : Kept s u0 := by
    dsimp only [u0]
    refine Kept.each ?_ (fun t x => ?_)
    · exact State.logTogether_kept ..
    · exact State.sealFault_kept ..
  clear_value u0
  refine Kept.trans ?_ (State.modSvc_kept ..)
  refine Kept.trans ?_ (State.slotsOver_kept ..)
  refine Kept.trans ?_ (State.cnt_kept ..)
  assumption

theorem State.tryVote_kept (s : State) : Kept s (State.tryVote s) := by
  unfold State.tryVote
  split
  · exact State.sendUp_kept ..
  · exact Kept.refl _

theorem State.localVerdict_kept (s : State) : Kept s (State.localVerdict s) := by
  unfold State.localVerdict
  extract_lets u0 u1
  have hu0 : Kept s u0 := by
    dsimp only [u0]
    refine Kept.trans ?_ (State.freeBlocks_kept ..)
    exact State.sealFaults_kept ..
  clear_value u0
  have hu1 : Kept s u1 := by
    dsimp only [u1]
    refine Kept.trans ?_ (State.noteOverruns_kept ..)
    refine Kept.trans ?_ (State.overrunSteps_kept ..)
    assumption
  clear_value u1
  refine Kept.trans ?_ (State.tryVote_kept ..)
  refine Kept.trans ?_ (State.modTick_kept ..)
  refine Kept.trans ?_ (State.countFails_kept ..)
  assumption

/-! ### Tick -/

theorem State.toHold_kept (s : State) (attempt : Nat) : Kept s (State.toHold s attempt) := by
  unfold State.toHold
  extract_lets u0
  have hu0 : Kept s u0 := by
    dsimp only [u0]
    split
    · exact Kept.refl _
    · refine Kept.trans ?_ (State.note_kept ..)
      exact State.event_kept ..
  clear_value u0
  refine Kept.trans ?_ (State.chainsResume_kept ..)
  refine Kept.trans ?_ (State.modTick_kept ..)
  assumption

theorem State.toRun_kept (s : State) (attempt : Nat) : Kept s (State.toRun s attempt) := by
  unfold State.toRun
  extract_lets u0
  have hu0 : Kept s u0 := by
    dsimp only [u0]
    split
    · refine Kept.trans ?_ (State.modPower_kept ..)
      refine Kept.trans ?_ (State.modTick_kept ..)
      exact State.takeResumed_kept ..
    · exact Kept.refl _
  clear_value u0
  refine Kept.trans ?_ (State.modTick_kept ..)
  assumption

theorem State.selfFail_kept (s : State) : Kept s (State.selfFail s) := by
  unfold State.selfFail
  refine Kept.trans ?_ (State.chainsResume_kept ..)
  refine Kept.trans ?_ (State.note_kept ..)
  refine Kept.trans ?_ (State.violate_kept ..)
  exact State.modTick_kept ..

theorem State.applyVerdict_kept (s : State) (tick attempt verdict : Nat) :
    Kept s (State.applyVerdict s tick attempt verdict) := by
  unfold State.applyVerdict
  extract_lets k0
  split
  · dsimp only [k0]
    split
    · refine Kept.trans ?_ (State.toHold_kept ..)
      refine Kept.trans ?_ (State.snapshot_kept ..)
      refine Kept.trans ?_ (State.note_kept ..)
      exact State.modTick_kept ..
    · refine Kept.trans ?_ (State.toRun_kept ..)
      refine Kept.trans ?_ (State.snapshot_kept ..)
      refine Kept.trans ?_ (State.note_kept ..)
      exact State.modTick_kept ..
  · split
    · dsimp only [k0]
      split
      · refine Kept.trans ?_ (State.toHold_kept ..)
        exact State.commitTick_kept ..
      · refine Kept.trans ?_ (State.toRun_kept ..)
        exact State.commitTick_kept ..
    · split
      · dsimp only [k0]
        split
        · refine Kept.trans ?_ (State.toHold_kept ..)
          split
          · refine Kept.when ?_ (fun t => ?_)
            · exact State.undoTick_kept ..
            · exact State.cnt_kept ..
          · exact Kept.refl _
        · refine Kept.trans ?_ (State.toRun_kept ..)
          split
          · refine Kept.when ?_ (fun t => ?_)
            · exact State.undoTick_kept ..
            · exact State.cnt_kept ..
          · exact Kept.refl _
      · exact State.selfFail_kept ..

theorem State.tickStart_kept (s : State) : Kept s (State.tickStart s) := by
  unfold State.tickStart
  extract_lets u0
  have hu0 : Kept s u0 := by
    dsimp only [u0]
    refine Kept.trans ?_ (State.cleared_kept ..)
    refine Kept.trans ?_ (State.openGate_kept ..)
    refine Kept.each ?_ (fun t x => ?_)
    · exact Kept.refl _
    · exact State.switchKey_kept ..
  clear_value u0
  refine Kept.trans ?_ (State.modTick_kept ..)
  assumption

theorem State.startNow_kept (s : State) : Kept s (State.startNow s) := by
  unfold State.startNow
  exact State.modTime_kept ..

theorem State.noteMarker_kept (s : State) (m : Marker) : Kept s (State.noteMarker s m) := by
  unfold State.noteMarker
  extract_lets u0
  have hu0 : Kept s u0 := by
    dsimp only [u0]
    split
    · exact Kept.refl _
    · exact State.note_kept ..
  clear_value u0
  refine Kept.trans ?_ (State.modTick_kept ..)
  assumption

theorem State.emit_kept (s : State) (tick attempt verdict : Nat) (fresh : Bool) :
    Kept s (State.emit s tick attempt verdict fresh) := by
  unfold State.emit
  extract_lets u0 u1 k0
  clear_value k0
  have hu0 : Kept s u0 := by
    dsimp only [u0]
    refine Kept.trans ?_ (State.applyVerdict_kept ..)
    exact State.tickStart_kept ..
  clear_value u0
  have hu1 : Kept s u1 := by
    dsimp only [u1]
    split
    · refine Kept.trans ?_ (State.startNow_kept ..)
      assumption
    · refine Kept.trans ?_ (State.keystoneTai_kept ..)
      assumption
  clear_value u1
  split
  · assumption
  · refine Kept.trans ?_ (State.sendMarker_kept ..)
    refine Kept.trans ?_ (State.noteMarker_kept ..)
    assumption

theorem State.takeOver_kept (s : State) : Kept s (State.takeOver s) := by
  unfold State.takeOver
  extract_lets k0 u0
  clear_value k0
  have hu0 : Kept s u0 := by
    dsimp only [u0]
    exact State.modTick_kept ..
  clear_value u0
  refine Kept.trans ?_ (State.emit_kept ..)
  refine Kept.trans ?_ (State.takeoverTime_kept ..)
  assumption

theorem State.tryStart_kept (s : State) : Kept s (State.tryStart s) := by
  unfold State.tryStart
  split
  · extract_lets u0
    have hu0 : Kept s u0 := by
      dsimp only [u0]
      exact State.modTick_kept ..
    clear_value u0
    split
    · refine Kept.trans ?_ (State.takeOver_kept ..)
      assumption
    · refine Kept.trans ?_ (State.emit_kept ..)
      refine Kept.trans ?_ (State.modTick_kept ..)
      assumption
  · exact Kept.refl _

theorem State.startCmd_kept (s : State) : Kept s (State.startCmd s) := by
  unfold State.startCmd
  refine Kept.trans ?_ (State.tryStart_kept ..)
  refine Kept.trans ?_ (State.seekFloor_kept ..)
  exact State.modTick_kept ..

theorem State.holdCmd_kept (s : State) : Kept s (State.holdCmd s) := by
  unfold State.holdCmd
  split
  · exact State.modTick_kept ..
  · exact Kept.refl _

theorem State.resumeCmd_kept (s : State) : Kept s (State.resumeCmd s) := by
  unfold State.resumeCmd
  split
  · refine Kept.trans ?_ (State.seekFloor_kept ..)
    exact State.modTick_kept ..
  · exact Kept.refl _

theorem State.dozeNow_kept (s : State) : Kept s (State.dozeNow s) := by
  unfold State.dozeNow
  split
  · exact State.startDoze_kept ..
  · exact Kept.refl _

theorem State.keystoneTick_kept (s : State) : Kept s (State.keystoneTick s) := by
  unfold State.keystoneTick
  split
  · extract_lets u0
    have hu0 : Kept s u0 := by
      dsimp only [u0]
      split
      · exact State.voteDeadline_kept ..
      · exact Kept.refl _
    clear_value u0
    split
    · refine Kept.trans ?_ (State.emit_kept ..)
      assumption
    · refine Kept.trans ?_ (State.dozeNow_kept ..)
      refine Kept.trans ?_ (State.emit_kept ..)
      assumption
    · refine Kept.trans ?_ (State.emit_kept ..)
      assumption
  · split
    · refine Kept.trans ?_ (State.emit_kept ..)
      exact State.modTick_kept ..
    · exact State.emit_kept ..
  · split
    · refine Kept.trans ?_ (State.sendMarker_kept ..)
      exact State.modTick_kept ..
    · exact Kept.refl _
  · split
    · refine Kept.trans ?_ (State.sendMarker_kept ..)
      exact State.modTick_kept ..
    · exact Kept.refl _
  · exact Kept.refl _

theorem execLocalTickStart_keeps (s : State) : Keeps s (execLocalTickStart s) := by
  unfold execLocalTickStart
  refine Keeps.next ?_
  split
  · exact Kept.refl _
  · split
    · exact State.keystoneTick_kept ..
    · split
      · exact State.tickStart_kept ..
      · exact State.tickStart_kept ..
      · exact State.tickStart_kept ..
      · split
        · refine Kept.trans ?_ (State.sendHalt_kept ..)
          exact State.modTick_kept ..
        · exact Kept.refl _
      · split
        · refine Kept.trans ?_ (State.sendHalt_kept ..)
          exact State.modTick_kept ..
        · exact Kept.refl _
      · exact Kept.refl _

theorem State.followEpoch_kept (s : State) (m : Marker) : Kept s (State.followEpoch s m) := by
  unfold State.followEpoch
  split
  · exact State.modTick_kept ..
  · exact Kept.refl _

theorem State.forwardMarker_kept (s : State) (p : Nat) (m : Marker) : Kept s (State.forwardMarker s p m) := by
  unfold State.forwardMarker
  split
  · exact Kept.refl _
  · refine Kept.trans ?_ (State.draw_kept ..)
    exact State.sendMarker_kept ..

theorem State.countLate_kept (s : State) (late : Int) : Kept s (State.countLate s late) := by
  unfold State.countLate
  extract_lets k0
  clear_value k0
  split
  · exact Kept.refl _
  · exact State.cnt_kept ..

theorem State.markerTai_kept (s : State) (m : Marker) : Kept s (State.markerTai s m) := by
  unfold State.markerTai
  extract_lets k0 u0
  clear_value k0
  have hu0 : Kept s u0 := by
    dsimp only [u0]
    exact State.modTime_kept ..
  clear_value u0
  refine Kept.trans ?_ (State.setTai_kept ..)
  assumption

theorem State.takeMarker_kept (s : State) (late : Int) (m : Marker) : Kept s (State.takeMarker s late m) := by
  unfold State.takeMarker
  extract_lets u0
  have hu0 : Kept s u0 := by
    dsimp only [u0]
    refine Kept.trans ?_ (State.applyVerdict_kept ..)
    exact State.countLate_kept ..
  clear_value u0
  split
  · assumption
  · refine Kept.trans ?_ (State.modTick_kept ..)
    refine Kept.trans ?_ (State.noteMarker_kept ..)
    refine Kept.trans ?_ (State.markerTai_kept ..)
    assumption

theorem State.stretchMarker_kept (s : State) (late : Int) (m : Marker) : Kept s (State.stretchMarker s late m) := by
  unfold State.stretchMarker
  split
  · exact Kept.refl _
  · split
    · refine Kept.trans ?_ (State.takeMarker_kept ..)
      exact State.tickStart_kept ..
    · extract_lets u0
      have hu0 : Kept s u0 := by
        dsimp only [u0]
        exact State.modTick_kept ..
      clear_value u0
      split
      · refine Kept.trans ?_ (State.localVerdict_kept ..)
        refine Kept.trans ?_ (State.passTo_kept ..)
        assumption
      · assumption

theorem State.takeLate_kept (s : State) (late : Int) (m : Marker) : Kept s (State.takeLate s late m) := by
  unfold State.takeLate
  extract_lets u0
  have hu0 : Kept s u0 := by
    dsimp only [u0]
    exact State.takeMarker_kept ..
  clear_value u0
  split
  · refine Kept.trans ?_ (State.modTick_kept ..)
    assumption
  · assumption

theorem State.acceptMarker_kept (s : State) (late : Int) (m : Marker) : Kept s (State.acceptMarker s late m) := by
  unfold State.acceptMarker
  split
  · split
    · exact Kept.refl _
    · exact State.takeMarker_kept ..
  · split
    · exact State.stretchMarker_kept ..
    · exact Kept.refl _
  · split
    · exact State.stretchMarker_kept ..
    · exact Kept.refl _
  · split
    · refine Kept.trans ?_ (State.takeMarker_kept ..)
      exact State.tickStart_kept ..
    · split
      · exact Kept.refl _
      · exact State.takeLate_kept ..
  · refine Kept.trans ?_ (State.takeMarker_kept ..)
    exact State.tickStart_kept ..
  · refine Kept.trans ?_ (State.takeMarker_kept ..)
    exact State.tickStart_kept ..

theorem State.markerIn_kept (s : State) (p : Nat) (arrived : Int) (m : Marker) :
    Kept s (State.markerIn s p arrived m) := by
  unfold State.markerIn
  split
  · exact State.violate_kept ..
  · extract_lets u0 k0 u1
    clear_value k0
    have hu0 : Kept s u0 := by
      dsimp only [u0]
      exact State.followEpoch_kept ..
    clear_value u0
    have hu1 : Kept s u1 := by
      dsimp only [u1]
      refine Kept.trans ?_ (State.modTick_kept ..)
      assumption
    clear_value u1
    split
    · assumption
    · split
      · split
        · refine Kept.trans ?_ (State.forwardMarker_kept ..)
          assumption
        · refine Kept.trans ?_ (State.forwardMarker_kept ..)
          refine Kept.trans ?_ (State.acceptMarker_kept ..)
          assumption
      · refine Kept.trans ?_ (State.modTick_kept ..)
        assumption

theorem execMarker_keeps (port : Fin 16) (a : Arrival) (arrived : Int) (m : Marker) (s : State) :
    Keeps s (execMarker port a arrived m s) := by
  unfold execMarker
  refine Keeps.next ?_
  split
  · refine Kept.trans ?_ (State.markerIn_kept ..)
    rename_i hq
    have hk := congrArg Prod.fst hq
    dsimp only at hk
    rw [← hk]
    exact State.receive_fst ..
  · split
    · refine Kept.trans ?_ (State.modTick_kept ..)
      rename_i hq _
      have hk := congrArg Prod.fst hq
      dsimp only at hk
      rw [← hk]
      exact State.receive_fst ..
    · rename_i hq _
      have hk := congrArg Prod.fst hq
      dsimp only at hk
      rw [← hk]
      exact State.receive_fst ..
  · rename_i hq
    have hk := congrArg Prod.fst hq
    dsimp only at hk
    rw [← hk]
    exact State.receive_fst ..

theorem State.holdBody_kept (s : State) (code : Nat) (u : FaultUnit) : Kept s (State.holdBody s code u) := by
  unfold State.holdBody
  refine Kept.trans ?_ (State.modTick_kept ..)
  refine Kept.trans ?_ (State.tickFault_kept ..)
  exact State.violate_kept ..

theorem State.armEntry_kept (s : State) (t : Nat) (e : Nat × Nat × Nat × Nat) : Kept s (State.armEntry s t e) := by
  unfold State.armEntry
  extract_lets k0 k1 u0
  clear_value k0 k1
  have hu0 : Kept s u0 := by
    dsimp only [u0]
    exact State.touchEntry_kept ..
  clear_value u0
  split
  · split
    · assumption
    · refine Kept.trans ?_ (State.arm_kept ..)
      assumption
  · split
    · assumption
    · refine Kept.trans ?_ (State.arm_kept ..)
      assumption

theorem State.armRefresh_kept (s : State) : Kept s (State.armRefresh s) := by
  unfold State.armRefresh
  refine Kept.each ?_ (fun t x => ?_)
  · exact Kept.refl _
  · refine Kept.each ?_ (fun t x => ?_)
    · exact Kept.refl _
    · exact State.armEntry_kept ..

theorem State.startBody_kept (s : State) : Kept s (State.startBody s) := by
  unfold State.startBody
  extract_lets u0 u1 u2
  have hu0 : Kept s u0 := by
    dsimp only [u0]
    refine Kept.trans ?_ (State.forceFloor_kept ..)
    refine Kept.trans ?_ (State.applySteer_kept ..)
    refine Kept.trans ?_ (State.intake_kept ..)
    refine Kept.mk ?_
    exact Kept.refl _
  clear_value u0
  have hu1 : Kept s u1 := by
    dsimp only [u1]
    refine Kept.each ?_ (fun t x => ?_)
    · assumption
    · exact State.modQuarter_kept ..
  clear_value u1
  have hu2 : Kept s u2 := by
    dsimp only [u2]
    split
    · refine Kept.mk ?_
      assumption
    · assumption
  clear_value u2
  refine Kept.trans ?_ (State.armRefresh_kept ..)
  refine Kept.trans ?_ (State.modTick_kept ..)
  refine Kept.trans ?_ (State.modIsland_kept ..)
  assumption

theorem execOpenEnd_keeps (s : State) : Keeps s (execOpenEnd s) := by
  unfold execOpenEnd
  refine Keeps.next ?_
  split
  · exact Kept.refl _
  · extract_lets u0
    have hu0 : Kept s u0 := by
      dsimp only [u0]
      exact State.passTo_kept ..
    clear_value u0
    split
    · refine Kept.trans ?_ (State.holdBody_kept ..)
      assumption
    · split
      · refine Kept.trans ?_ (State.holdBody_kept ..)
        assumption
      · refine Kept.trans ?_ (State.startBody_kept ..)
        assumption

theorem execRepairStart_keeps (s : State) : Keeps s (execRepairStart s) := by
  unfold execRepairStart
  refine Keeps.next ?_
  split
  · exact Kept.refl _
  · extract_lets u0
    have hu0 : Kept s u0 := by
      dsimp only [u0]
      refine Kept.trans ?_ (State.modTick_kept ..)
      exact State.passTo_kept ..
    clear_value u0
    refine Kept.trans ?_ (State.modSvc_kept ..)
    refine Kept.trans ?_ (State.askLate_kept ..)
    refine Kept.trans ?_ (State.sendReplays_kept ..)
    assumption

theorem execSealStart_keeps (s : State) : Keeps s (execSealStart s) := by
  unfold execSealStart
  refine Keeps.next ?_
  split
  · extract_lets u0
    have hu0 : Kept s u0 := by
      dsimp only [u0]
      exact State.passTo_kept ..
    clear_value u0
    split
    · split
      · assumption
      · refine Kept.trans ?_ (State.sendHalt_kept ..)
        assumption
    · refine Kept.trans ?_ (State.localVerdict_kept ..)
      assumption
  · exact Kept.refl _

theorem State.voteIn_kept (s : State) (p : Nat) (v : Vote) : Kept s (State.voteIn s p v) := by
  unfold State.voteIn
  split
  · exact Kept.refl _
  · extract_lets u0
    have hu0 : Kept s u0 := by
      dsimp only [u0]
      exact State.modTick_kept ..
    clear_value u0
    split
    · assumption
    · refine Kept.trans ?_ (State.tryVote_kept ..)
      refine Kept.trans ?_ (State.modTick_kept ..)
      assumption

theorem execVote_keeps (port : Fin 16) (a : Arrival) (v : Vote) (s : State) : Keeps s (execVote port a v s) := by
  unfold execVote
  refine Keeps.next ?_
  split
  · split
    · refine Kept.trans ?_ (State.voteIn_kept ..)
      rename_i hq _
      have hk := congrArg Prod.fst hq
      dsimp only at hk
      rw [← hk]
      exact State.receive_fst ..
    · rename_i hq _
      have hk := congrArg Prod.fst hq
      dsimp only at hk
      rw [← hk]
      exact State.receive_fst ..
  · rename_i hq
    have hk := congrArg Prod.fst hq
    dsimp only at hk
    rw [← hk]
    exact State.receive_fst ..

theorem execVoteDeadline_keeps (s : State) : Keeps s (execVoteDeadline s) := by
  unfold execVoteDeadline
  refine Keeps.next ?_
  exact State.voteDeadline_kept ..

theorem State.echoIn_kept (s : State) (p : Nat) (v : Vote) : Kept s (State.echoIn s p v) := by
  unfold State.echoIn
  split
  · exact Kept.refl _
  · split
    · split
      · exact State.modTick_kept ..
      · exact Kept.refl _
    · split
      · refine Kept.trans ?_ (State.sendVote_kept ..)
        exact State.modTick_kept ..
      · exact Kept.refl _

theorem execEcho_keeps (port : Fin 16) (a : Arrival) (v : Vote) (s : State) : Keeps s (execEcho port a v s) := by
  unfold execEcho
  refine Keeps.next ?_
  split
  · split
    · refine Kept.trans ?_ (State.echoIn_kept ..)
      rename_i hq _
      have hk := congrArg Prod.fst hq
      dsimp only at hk
      rw [← hk]
      exact State.receive_fst ..
    · rename_i hq _
      have hk := congrArg Prod.fst hq
      dsimp only at hk
      rw [← hk]
      exact State.receive_fst ..
  · rename_i hq
    have hk := congrArg Prod.fst hq
    dsimp only at hk
    rw [← hk]
    exact State.receive_fst ..

theorem execEchoDeadline_keeps (s : State) : Keeps s (execEchoDeadline s) := by
  unfold execEchoDeadline
  refine Keeps.next ?_
  split
  · exact State.violate_kept ..
  · exact Kept.refl _

theorem execKeystoneTakeover_keeps (s : State) : Keeps s (execKeystoneTakeover s) := by
  unfold execKeystoneTakeover
  refine Keeps.next ?_
  split
  · extract_lets u0
    have hu0 : Kept s u0 := by
      dsimp only [u0]
      split
      · exact State.tickStart_kept ..
      · exact Kept.refl _
    clear_value u0
    refine Kept.trans ?_ (State.note_kept ..)
    refine Kept.trans ?_ (State.event_kept ..)
    refine Kept.trans ?_ (State.takeOver_kept ..)
    assumption
  · exact Kept.refl _

theorem execStretchSealMarker_keeps (s : State) : Keeps s (execStretchSealMarker s) := by
  unfold execStretchSealMarker
  refine Keeps.next ?_
  split
  · extract_lets u0
    have hu0 : Kept s u0 := by
      dsimp only [u0]
      exact State.passTo_kept ..
    clear_value u0
    refine Kept.trans ?_ (State.localVerdict_kept ..)
    refine Kept.trans ?_ (State.sendMarker_kept ..)
    assumption
  · exact Kept.refl _

theorem execHaltReport_keeps (port : Fin 16) (a : Arrival) (v : Vote) (s : State) :
    Keeps s (execHaltReport port a v s) := by
  unfold execHaltReport
  refine Keeps.next ?_
  split
  · split
    · refine Kept.trans ?_ (State.haltNote_kept ..)
      refine Kept.trans ?_ (State.modTick_kept ..)
      rename_i hq _
      have hk := congrArg Prod.fst hq
      dsimp only at hk
      rw [← hk]
      exact State.receive_fst ..
    · rename_i hq _
      have hk := congrArg Prod.fst hq
      dsimp only at hk
      rw [← hk]
      exact State.receive_fst ..
  · rename_i hq
    have hk := congrArg Prod.fst hq
    dsimp only at hk
    rw [← hk]
    exact State.receive_fst ..

theorem execDbgMaxExpiry_keeps (s : State) : Keeps s (execDbgMaxExpiry s) := by
  unfold execDbgMaxExpiry
  refine Keeps.next ?_
  split
  · split
    · exact State.modTick_kept ..
    · exact State.modTick_kept ..
  · exact Kept.refl _

theorem execVoltageReached_keeps (q : Fin 4) (s : State) : Keeps s (execVoltageReached q s) := by
  unfold execVoltageReached
  extract_lets u0 u1
  have hu0 : Kept s u0 := by
    dsimp only [u0]
    exact State.modQuarter_kept ..
  clear_value u0
  have hu1 : Kept s u1 := by
    dsimp only [u1]
    refine Kept.trans ?_ (State.raiseNow_kept ..)
    assumption
  clear_value u1
  refine Keeps.next ?_
  split
  · assumption
  · split
    · assumption
    · refine Kept.trans ?_ (State.tryStart_kept ..)
      refine Kept.trans ?_ (State.seekFloor_kept ..)
      assumption

theorem execWakeComplete_keeps (s : State) : Keeps s (execWakeComplete s) := by
  unfold execWakeComplete
  refine Keeps.next ?_
  split
  · exact Kept.refl _
  · extract_lets k0 u0
    clear_value k0
    have hu0 : Kept s u0 := by
      dsimp only [u0]
      refine Kept.each ?_ (fun t x => ?_)
      · exact State.pass_kept ..
      · exact State.withdrawNow_kept ..
    clear_value u0
    refine Kept.trans ?_ (State.tryStart_kept ..)
    refine Kept.trans ?_ (State.wakeRails_kept ..)
    refine Kept.trans ?_ (State.modTick_kept ..)
    assumption

theorem execAutoResume_keeps (s : State) : Keeps s (execAutoResume s) := by
  unfold execAutoResume
  refine Keeps.next ?_
  split
  · refine Kept.trans ?_ (State.modPower_kept ..)
    refine Kept.trans ?_ (State.resumeCmd_kept ..)
    exact State.pass_kept ..
  · exact Kept.refl _

/-! ### Registers -/

/-- An effect keeps, where it leaves a state. -/
def Effect.Keeps (s : State) (e : Effect) : Prop :=
  match e with
  | .done t => Kept s t
  | .refused => True
  | .logged t => Kept s t

theorem Effect.Keeps.done {s t : State} (h : Kept s t) : Effect.Keeps s (.done t) := h

theorem Effect.Keeps.trans {s t : State} {e : Effect} (h : Kept s t) (k : Effect.Keeps t e) : Effect.Keeps s e := by
  cases e with
  | done u => exact Kept.trans h k
  | refused => trivial
  | logged u => exact Kept.trans h k

theorem Effect.Keeps.logged {s t : State} (h : Kept s t) : Effect.Keeps s (.logged t) := h

theorem Wrote.ok_kept (s : State) : Kept s (Wrote.ok s).state := by
  unfold Wrote.ok
  dsimp only
  exact Kept.refl _

theorem State.denyWord_kept (s : State) (p : Path) : Kept s (State.denyWord s p).state := by
  unfold State.denyWord
  dsimp only
  split
  · exact State.cnt_kept ..
  · exact State.cnt_kept ..

theorem State.refuseWrite_kept (s : State) (p : Path) (pg addr code : Nat) :
    Kept s (State.refuseWrite s p pg addr code).state := by
  unfold State.refuseWrite
  dsimp only
  exact Kept.refl _

theorem State.unmapped_kept (s : State) (p : Path) (addr : Nat) : Kept s (State.unmapped s p addr).state := by
  cases p with
  | vf n => exact State.refuseWrite_kept ..
  | spi => exact State.denyWord_kept ..
  | trestle => exact State.denyWord_kept ..
  | pf => exact Kept.trans (State.cnt_kept ..) (State.refuseWrite_kept ..)
  | mgmt => exact Kept.trans (State.cnt_kept ..) (State.refuseWrite_kept ..)
  | cores => exact Kept.trans (State.cnt_kept ..) (State.refuseWrite_kept ..)
  | debug => exact Kept.trans (State.cnt_kept ..) (State.refuseWrite_kept ..)

theorem State.unfreeze_kept (s : State) (pg : Nat) : Kept s (State.unfreeze s pg) := by
  unfold State.unfreeze
  refine Kept.mk ?_
  exact Kept.refl _

theorem State.setFreeze_kept (s : State) (pg : Nat) (on : Bool) : Kept s (State.setFreeze s pg on) := by
  unfold State.setFreeze
  extract_lets u0
  have hu0 : Kept s u0 := by
    dsimp only [u0]
    exact State.setHdr_kept ..
  clear_value u0
  split
  · assumption
  · refine Kept.trans ?_ (State.unfreeze_kept ..)
    assumption

theorem State.releaseCapture_kept (s : State) (pg : Nat) : Kept s (State.releaseCapture s pg) := by
  unfold State.releaseCapture
  exact State.setHdr_kept ..

theorem State.writeHead_kept (s : State) (pg off v : Nat) : Kept s (State.writeHead s pg off v) := by
  unfold State.writeHead
  split
  · exact State.setFreeze_kept ..
  · split
    · exact State.setIrq_kept ..
    · split
      · exact State.setHdr_kept ..
      · split
        · exact State.releaseCapture_kept ..
        · split
          · exact State.setHdr_kept ..
          · exact Kept.refl _

theorem State.writeDb_keeps (s : State) (i v : Nat) : Effect.Keeps s (State.writeDb s i v) := by
  unfold State.writeDb
  extract_lets k0 u0
  clear_value k0
  have hu0 : Kept s u0 := by
    dsimp only [u0]
    refine Kept.trans ?_ (State.wake_kept ..)
    exact State.cmdqDb_kept ..
  clear_value u0
  split
  · refine Effect.Keeps.logged ?_
    assumption
  · refine Effect.Keeps.done ?_
    assumption

theorem State.writeHdl_keeps (s : State) (p : Path) (c v : Nat) : Effect.Keeps s (State.writeHdl s p c v) := by
  unfold State.writeHdl
  extract_lets u0
  have hu0 : Kept s u0 := by
    dsimp only [u0]
    exact State.hdlCmd_kept ..
  clear_value u0
  split
  · refine Effect.Keeps.logged ?_
    assumption
  · refine Effect.Keeps.done ?_
    assumption

theorem State.tckCmd_keeps (s : State) (v : Nat) : Effect.Keeps s (State.tckCmd s v) := by
  unfold State.tckCmd
  split
  · split
    · exact trivial
    · refine Effect.Keeps.done ?_
      exact State.startCmd_kept ..
  · split
    · split
      · refine Effect.Keeps.done ?_
        exact State.holdCmd_kept ..
      · exact trivial
    · split
      · split
        · refine Effect.Keeps.done ?_
          exact State.resumeCmd_kept ..
        · exact trivial
      · refine Effect.Keeps.done ?_
        exact Kept.refl _

theorem State.progAdv_kept (s : State) (t : Nat) : Kept s (State.progAdv s t) := by
  unfold State.progAdv
  split
  · exact State.modTick_kept ..
  · refine Kept.trans ?_ (State.snapshot_kept ..)
    exact State.boundary_kept ..

theorem State.ctxRestart_kept (s : State) (t : Nat) : Kept s (State.ctxRestart s t) := by
  unfold State.ctxRestart
  extract_lets u0
  have hu0 : Kept s u0 := by
    dsimp only [u0]
    exact State.modTick_kept ..
  clear_value u0
  split
  · assumption
  · refine Kept.trans ?_ (State.snapshot_kept ..)
    refine Kept.trans ?_ (State.settleDead_kept ..)
    assumption

theorem State.wldCmd_keeps (s : State) (v : Nat) : Effect.Keeps s (State.wldCmd s v) := by
  unfold State.wldCmd
  extract_lets k0
  clear_value k0
  split
  · split
    · refine Effect.Keeps.done ?_
      exact State.startChain_kept ..
    · exact trivial
  · split
    · refine Effect.Keeps.done ?_
      exact State.reloadShare_kept ..
    · split
      · refine Effect.Keeps.done ?_
        exact State.abortChain_kept ..
      · refine Effect.Keeps.done ?_
        exact Kept.refl _

theorem State.wldRefill_keeps (s : State) (v : Nat) : Effect.Keeps s (State.wldRefill s v) := by
  unfold State.wldRefill
  split
  · refine Effect.Keeps.done ?_
    refine Kept.trans ?_ (State.pump_kept ..)
    exact State.refill_kept ..
  · exact trivial

theorem State.timCmd_keeps (s : State) (v : Nat) : Effect.Keeps s (State.timCmd s v) := by
  unfold State.timCmd
  split
  · split
    · refine Effect.Keeps.done ?_
      exact State.setTime_kept ..
    · exact trivial
  · split
    · refine Effect.Keeps.done ?_
      exact State.latchTime_kept ..
    · refine Effect.Keeps.done ?_
      exact Kept.refl _

theorem State.pwrCmd_keeps (s : State) (v : Nat) : Effect.Keeps s (State.pwrCmd s v) := by
  unfold State.pwrCmd
  split
  · split
    · refine Effect.Keeps.done ?_
      exact State.askDoze_kept ..
    · exact trivial
  · split
    · refine Effect.Keeps.done ?_
      exact State.wake_kept ..
    · split
      · refine Effect.Keeps.done ?_
        exact State.avsRetry_kept ..
      · split
        · refine Effect.Keeps.done ?_
          exact State.warmReset_kept ..
        · refine Effect.Keeps.done ?_
          exact Kept.refl _

theorem State.ackRoutes_kept (s : State) (v : Nat) : Kept s (State.ackRoutes s v) := by
  unfold State.ackRoutes
  refine Kept.each ?_ (fun t x => ?_)
  · exact Kept.refl _
  · extract_lets u0
    have hu0 : Kept t u0 := by
      dsimp only [u0]
      exact State.modHost_kept ..
    clear_value u0
    split
    · refine Kept.trans ?_ (State.routeSend_kept ..)
      assumption
    · assumption

theorem State.writeHubWo_keeps (s : State) (p : Path) (t : PageType) (off v : Nat) :
    Effect.Keeps s (State.writeHubWo s p t off v) := by
  unfold State.writeHubWo
  split
  · exact State.tckCmd_keeps ..
  · refine Effect.Keeps.done ?_
    exact State.progAdv_kept ..
  · refine Effect.Keeps.done ?_
    exact State.ctxRestart_kept ..
  · exact State.wldCmd_keeps ..
  · exact State.wldRefill_keeps ..
  · refine Effect.Keeps.done ?_
    exact State.invalidate_kept ..
  · refine Effect.Keeps.done ?_
    exact State.pubHead_kept ..
  · refine Effect.Keeps.done ?_
    exact State.ledgerHead_kept ..
  · refine Effect.Keeps.done ?_
    split
    · exact State.newNight_kept ..
    · exact Kept.refl _
  · exact State.timCmd_keeps ..
  · refine Effect.Keeps.done ?_
    exact State.takeNote_kept ..
  · exact State.pwrCmd_keeps ..
  · refine Effect.Keeps.done ?_
    split
    · exact State.enterDoze_kept ..
    · exact Kept.refl _
  · refine Effect.Keeps.done ?_
    exact State.kickIsland_kept ..
  · split
    · exact trivial
    · refine Effect.Keeps.done ?_
      exact State.flashStart_kept ..
  · refine Effect.Keeps.done ?_
    exact State.ackRoutes_kept ..
  · refine Effect.Keeps.done ?_
    exact Kept.refl _

theorem State.writeWo_keeps (s : State) (p : Path) (t : PageType) (i off v : Nat) :
    Effect.Keeps s (State.writeWo s p t i off v) := by
  unfold State.writeWo
  split
  · refine Effect.Keeps.done ?_
    exact State.slotRel_kept ..
  · refine Effect.Keeps.done ?_
    split
    · exact State.queueRestart_kept ..
    · exact Kept.refl _
  · exact State.writeDb_keeps ..
  · refine Effect.Keeps.done ?_
    exact State.ringDb_kept ..
  · refine Effect.Keeps.done ?_
    exact State.dbgCmd_kept ..
  · exact State.writeHdl_keeps ..
  · exact State.writeHubWo_keeps ..

theorem State.writeW1c_kept (s : State) (t : PageType) (i off v : Nat) : Kept s (State.writeW1c s t i off v) := by
  unfold State.writeW1c
  split
  · split
    · exact State.modPort_kept ..
    · exact Kept.refl _
  · refine Kept.mk ?_
    exact Kept.refl _
  · split
    · exact State.alertAck_kept ..
    · exact Kept.refl _
  · extract_lets k0
    clear_value k0
    exact State.setRaw_kept ..
  · exact Kept.refl _

theorem State.deferred_kept (s : State) (t : PageType) (i off bank : Nat) : Kept s (State.deferred s t i off bank)
    := by
  unfold State.deferred
  split
  · exact Kept.refl _
  · split
    · exact State.takeAll_kept ..
    · split
      · exact Kept.refl _
      · refine Kept.mk ?_
        exact Kept.refl _
    · exact Kept.refl _

theorem State.portCtl_kept (s : State) (i old : Nat) : Kept s (State.portCtl s i old) := by
  unfold State.portCtl
  extract_lets k0 u0
  clear_value k0
  have hu0 : Kept s u0 := by
    dsimp only [u0]
    split
    · exact State.optOff_kept ..
    · exact Kept.refl _
  clear_value u0
  split
  · refine Kept.trans ?_ (State.portEnable_kept ..)
    assumption
  · assumption

theorem State.afterWrite_kept (s : State) (t : PageType) (i off old v : Nat) :
    Kept s (State.afterWrite s t i off old v) := by
  unfold State.afterWrite
  split
  · exact State.portCtl_kept ..
  · exact State.chainConfig_kept ..
  · exact State.followDims_kept ..
  · split
    · exact State.prbsRestart_kept ..
    · exact Kept.refl _
  · split
    · exact State.pubStart_kept ..
    · exact Kept.refl _
  · split
    · exact Kept.refl _
    · exact State.modTime_kept ..
  · exact State.ledgerRestart_kept ..
  · exact State.ledgerRestart_kept ..
  · exact State.ledgerRestart_kept ..
  · exact Kept.refl _

theorem State.writeRw_keeps (s : State) (t : PageType) (i off : Nat) (d : RegDef) (v : Nat) :
    Effect.Keeps s (State.writeRw s t i off d v) := by
  unfold State.writeRw
  split
  · refine Effect.Keeps.done ?_
    exact State.dbgWrite_kept ..
  · split
    · extract_lets u0
      have hu0 : Kept s u0 := by
        dsimp only [u0]
        exact State.setQueue_kept ..
      clear_value u0
      split
      · refine Effect.Keeps.logged ?_
        assumption
      · refine Effect.Keeps.done ?_
        assumption
    · split
      · exact trivial
      · extract_lets k0 k1 u0
        clear_value k0 k1
        have hu0 : Kept s u0 := by
          dsimp only [u0]
          exact State.setRaw_kept ..
        clear_value u0
        refine Effect.Keeps.done ?_
        refine Kept.trans ?_ (State.deferred_kept ..)
        refine Kept.trans ?_ (State.afterWrite_kept ..)
        assumption

theorem Effect.wrote_kept (e : Effect) (s : State) (p : Path) (pg addr : Nat) (u : State) (h : Kept u s) (k :
    Effect.Keeps u e) :
    Kept u (Effect.wrote e s p pg addr).state := by
  cases e with
  | done t => exact k
  | refused => exact h
  | logged t => exact k

theorem State.writeReg_kept (s : State) (p : Path) (t : PageType) (i addr : Nat) (d : RegDef) (v : Nat) :
    Kept s (State.writeReg s p t i addr d v).state := by
  unfold State.writeReg
  extract_lets k0 k1 u0
  clear_value k0 k1
  have hu0 : Kept s u0 := by
    dsimp only [u0]
    split
    · exact Kept.refl _
    · exact State.writeW1c_kept ..
  clear_value u0
  split
  · exact State.refuseWrite_kept ..
  · split
    · refine Effect.wrote_kept _ _ _ _ _ _ ?_ ?_
      · exact Kept.refl _
      · exact State.writeWo_keeps ..
    · refine Kept.trans ?_ (Wrote.ok_kept ..)
      exact State.writeW1c_kept ..
    · exact Wrote.ok_kept ..
    · split
      · refine Kept.trans ?_ (Wrote.ok_kept ..)
        assumption
      · split
        · refine Kept.trans ?_ (State.refuseWrite_kept ..)
          split
          · refine Kept.trans ?_ (State.prbsRestart_kept ..)
            assumption
          · assumption
        · refine Effect.wrote_kept _ _ _ _ _ _ ?_ ?_
          · assumption
          · refine Effect.Keeps.trans ?_ (State.writeRw_keeps ..)
            assumption

theorem State.writeWord_kept (s : State) (p : Path) (addr v : Nat) : Kept s (State.writeWord s p addr v).state := by
  unfold State.writeWord
  extract_lets k0 k1
  clear_value k0 k1
  split
  · exact Wrote.ok_kept ..
  · split
    · exact State.denyWord_kept ..
    · split
      · refine Kept.trans ?_ (Wrote.ok_kept ..)
        refine Kept.mk ?_
        exact Kept.refl _
      · split
        · exact State.unmapped_kept ..
        · split
          · refine Kept.trans ?_ (Wrote.ok_kept ..)
            exact State.cnt_kept ..
          · split
            · split
              · exact State.refuseWrite_kept ..
              · refine Kept.trans ?_ (Wrote.ok_kept ..)
                exact State.writeHead_kept ..
            · split
              · exact State.unmapped_kept ..
              · exact State.writeReg_kept ..

theorem State.logViols_kept (s : State) (a b : Option (Nat × Viol)) : Kept s (State.logViols s a b) := by
  unfold State.logViols
  split
  · split
    · exact State.violateAll_kept ..
    · refine Kept.trans ?_ (State.violateAll_kept ..)
      exact State.violateAll_kept ..
  · exact State.violateAll_kept ..
  · exact State.violateAll_kept ..
  · exact Kept.refl _

theorem State.regWriteR_fst (s : State) (p : Path) (addr : Nat) (v : Word) (hi : Option Word) :
    Kept s (State.regWriteR s p addr v hi).1 := by
  unfold State.regWriteR
  extract_lets k0
  have hk0 : Kept s k0.state := by
    dsimp only [k0]
    exact State.writeWord_kept ..
  clear_value k0
  split
  · dsimp only
    refine Kept.trans ?_ (State.logViols_kept ..)
    assumption
  · extract_lets k1
    have hk1 : Kept s k1.state := by
      dsimp only [k1]
      refine Kept.trans ?_ (State.writeWord_kept ..)
      assumption
    clear_value k1
    dsimp only
    refine Kept.trans ?_ (State.logViols_kept ..)
    assumption

theorem State.regWrite_kept (s : State) (p : Path) (addr : Nat) (v : Word) (hi : Option Word) :
    Kept s (State.regWrite s p addr v hi) := by
  unfold State.regWrite
  split
  · split
    · exact State.badAccess_kept ..
    · extract_lets k0
      have hk0 : Kept s k0.1 := by
        dsimp only [k0]
        exact State.regWriteR_fst ..
      clear_value k0
      split
      · refine Kept.trans ?_ (State.send_kept ..)
        assumption
      · assumption
  · split
    · exact State.badAccess_kept ..
    · extract_lets k0
      have hk0 : Kept s k0.1 := by
        dsimp only [k0]
        exact State.regWriteR_fst ..
      clear_value k0
      split
      · refine Kept.trans ?_ (State.send_kept ..)
        assumption
      · assumption

theorem execRegisterWrite_keeps (p : Path) (addr : Nat) (v : Word) (hi : Option Word) (s : State) :
    Keeps s (execRegisterWrite p addr v hi s) := by
  unfold execRegisterWrite
  refine Keeps.next ?_
  exact State.regWrite_kept ..

theorem State.dozeCount_kept (s : State) (p : Path) (addr : Nat) : Kept s (State.dozeCount s p addr) := by
  unfold State.dozeCount
  extract_lets k0
  clear_value k0
  split
  · exact State.cnt_kept ..
  · exact Kept.refl _

theorem State.rcClear_kept (s : State) (p : Path) (addr : Nat) : Kept s (State.rcClear s p addr) := by
  unfold State.rcClear
  split
  · exact State.setRaw_kept ..
  · exact Kept.refl _

theorem State.regRead_fst (s : State) (p : Path) (addr : Nat) (wide : Bool) :
    Kept s (State.regRead s p addr wide).1 := by
  unfold State.regRead
  split
  · split
    · dsimp only
      exact Kept.refl _
    · extract_lets k0 k1 u0 u1
      clear_value k0 k1
      have hu0 : Kept s u0 := by
        dsimp only [u0]
        split
        · exact Kept.refl _
        · exact State.dozeCount_kept ..
      clear_value u0
      have hu1 : Kept s u1 := by
        dsimp only [u1]
        split
        · refine Kept.trans ?_ (State.rcClear_kept ..)
          refine Kept.trans ?_ (State.rcClear_kept ..)
          assumption
        · assumption
      clear_value u1
      dsimp only
      assumption
  · split
    · dsimp only
      exact Kept.refl _
    · extract_lets k0 k1 u0 u1
      clear_value k0 k1
      have hu0 : Kept s u0 := by
        dsimp only [u0]
        split
        · exact Kept.refl _
        · exact State.dozeCount_kept ..
      clear_value u0
      have hu1 : Kept s u1 := by
        dsimp only [u1]
        split
        · refine Kept.trans ?_ (State.rcClear_kept ..)
          assumption
        · assumption
      clear_value u1
      dsimp only
      assumption

theorem execRcRead_keeps (p : Path) (addr : Nat) (wide : Bool) (s : State) : Keeps s (execRcRead p addr wide s) := by
  unfold execRcRead
  extract_lets k0
  have hk0 : Kept s k0.1 := by
    dsimp only [k0]
    exact State.regRead_fst ..
  clear_value k0
  refine Keeps.next ?_
  refine Kept.trans ?_ (State.send_kept ..)
  assumption

theorem execErrInfoValidClear_keeps (p : Path) (addr : Nat) (s : State) : Keeps s (execErrInfoValidClear p addr s)
    := by
  unfold execErrInfoValidClear
  refine Keeps.next ?_
  exact State.regWrite_kept ..

theorem execFreeze_keeps (p : Path) (addr : Nat) (on : Bool) (s : State) : Keeps s (execFreeze p addr on s) := by
  unfold execFreeze
  refine Keeps.next ?_
  exact State.regWrite_kept ..

theorem execLock_keeps (p : Path) (addr : Nat) (s : State) : Keeps s (execLock p addr s) := by
  unfold execLock
  refine Keeps.next ?_
  exact State.regWrite_kept ..

theorem State.put_kept (s : State) (p : Path) (r : Reg) (v i idx : Nat) : Kept s (State.put s p r v i idx) := by
  unfold State.put
  exact State.regWrite_kept ..

theorem execAck_keeps (p : Path) (v : Word) (s : State) : Keeps s (execAck p v s) := by
  unfold execAck
  refine Keeps.next ?_
  exact State.put_kept ..

theorem execRouteWrite_keeps (p : Path) (t : Fin 29) (v : Word) (s : State) : Keeps s (execRouteWrite p t v s) := by
  unfold execRouteWrite
  refine Keeps.next ?_
  exact State.put_kept ..

theorem execRoleWrite_keeps (p : Path) (v : Word) (s : State) : Keeps s (execRoleWrite p v s) := by
  unfold execRoleWrite
  refine Keeps.next ?_
  exact State.put_kept ..

theorem execDimsWrite_keeps (p : Path) (v : Word) (s : State) : Keeps s (execDimsWrite p v s) := by
  unfold execDimsWrite
  refine Keeps.next ?_
  exact State.put_kept ..

theorem execPosWrite_keeps (p : Path) (v : Word) (s : State) : Keeps s (execPosWrite p v s) := by
  unfold execPosWrite
  refine Keeps.next ?_
  exact State.put_kept ..

theorem execStart_keeps (p : Path) (s : State) : Keeps s (execStart p s) := by
  unfold execStart
  refine Keeps.next ?_
  exact State.put_kept ..

theorem execHold_keeps (p : Path) (s : State) : Keeps s (execHold p s) := by
  unfold execHold
  refine Keeps.next ?_
  exact State.put_kept ..

theorem execResume_keeps (p : Path) (s : State) : Keeps s (execResume p s) := by
  unfold execResume
  refine Keeps.next ?_
  exact State.put_kept ..

theorem State.putField_kept (s : State) (p : Path) (r : Reg) (hi lo v i : Nat) :
    Kept s (State.putField s p r hi lo v i) := by
  unfold State.putField
  exact State.put_kept ..

theorem execStretchReq_keeps (p : Path) (on : Bool) (s : State) : Keeps s (execStretchReq p on s) := by
  unfold execStretchReq
  refine Keeps.next ?_
  exact State.putField_kept ..

theorem execRerunLimitAttemptCapWrite_keeps (p : Path) (limit cap : Nat) (s : State) :
    Keeps s (execRerunLimitAttemptCapWrite p limit cap s) := by
  unfold execRerunLimitAttemptCapWrite
  refine Keeps.next ?_
  exact State.put_kept ..

theorem execDetModeWrite_keeps (p : Path) (on : Bool) (s : State) : Keeps s (execDetModeWrite p on s) := by
  unfold execDetModeWrite
  refine Keeps.next ?_
  exact State.putField_kept ..

theorem execCtxRestart_keeps (p : Path) (tenant : Fin 256) (s : State) : Keeps s (execCtxRestart p tenant s) := by
  unfold execCtxRestart
  refine Keeps.next ?_
  exact State.put_kept ..

theorem execDebugHalt_keeps (p : Path) (c : Fin 512) (s : State) : Keeps s (execDebugHalt p c s) := by
  unfold execDebugHalt
  refine Keeps.next ?_
  exact State.put_kept ..

theorem execDebugStep_keeps (p : Path) (c : Fin 512) (s : State) : Keeps s (execDebugStep p c s) := by
  unfold execDebugStep
  refine Keeps.next ?_
  exact State.put_kept ..

theorem execDebugResume_keeps (p : Path) (c : Fin 512) (s : State) : Keeps s (execDebugResume p c s) := by
  unfold execDebugResume
  refine Keeps.next ?_
  exact State.put_kept ..

theorem execDbgRegDataWrite_keeps (p : Path) (c : Fin 512) (v : Word) (s : State) :
    Keeps s (execDbgRegDataWrite p c v s) := by
  unfold execDbgRegDataWrite
  refine Keeps.next ?_
  exact State.put_kept ..

theorem execProgAdv_keeps (p : Path) (tenant : Fin 256) (s : State) : Keeps s (execProgAdv p tenant s) := by
  unfold execProgAdv
  refine Keeps.next ?_
  exact State.put_kept ..

theorem execHdlWrite_keeps (p : Path) (c : Fin 512) (s : State) : Keeps s (execHdlWrite p c s) := by
  unfold execHdlWrite
  refine Keeps.next ?_
  exact State.put_kept ..

theorem execHdlRead_keeps (p : Path) (c : Fin 512) (s : State) : Keeps s (execHdlRead p c s) := by
  unfold execHdlRead
  refine Keeps.next ?_
  exact State.put_kept ..

theorem execLaserOff_keeps (p : Path) (port : Fin 16) (on : Bool) (s : State) :
    Keeps s (execLaserOff p port on s) := by
  unfold execLaserOff
  refine Keeps.next ?_
  exact State.putField_kept ..

theorem execTest_keeps (p : Path) (port : Fin 16) (on : Bool) (s : State) : Keeps s (execTest p port on s) := by
  unfold execTest
  refine Keeps.next ?_
  exact State.putField_kept ..

theorem execLoopback_keeps (p : Path) (port : Fin 16) (sel : Fin 4) (s : State) :
    Keeps s (execLoopback p port sel s) := by
  unfold execLoopback
  refine Keeps.next ?_
  exact State.putField_kept ..

theorem execPrbsRestart_keeps (p : Path) (port : Fin 16) (s : State) : Keeps s (execPrbsRestart p port s) := by
  unfold execPrbsRestart
  refine Keeps.next ?_
  exact State.putField_kept ..

theorem execSpcEnable_keeps (p : Path) (port : Fin 16) (on : Bool) (s : State) :
    Keeps s (execSpcEnable p port on s) := by
  unfold execSpcEnable
  refine Keeps.next ?_
  exact State.put_kept ..

theorem execPortEnable_keeps (p : Path) (port : Fin 16) (on : Bool) (s : State) :
    Keeps s (execPortEnable p port on s) := by
  unfold execPortEnable
  refine Keeps.next ?_
  exact State.putField_kept ..

theorem execDetourSelect_keeps (p : Path) (sel : Fin 16) (s : State) : Keeps s (execDetourSelect p sel s) := by
  unfold execDetourSelect
  refine Keeps.next ?_
  exact State.put_kept ..

theorem execRevokeCntWrite_keeps (p : Path) (v : Word) (s : State) : Keeps s (execRevokeCntWrite p v s) := by
  unfold execRevokeCntWrite
  refine Keeps.next ?_
  exact State.put_kept ..

theorem execChainStart_keeps (p : Path) (s : State) : Keeps s (execChainStart p s) := by
  unfold execChainStart
  refine Keeps.next ?_
  exact State.put_kept ..

theorem execChainAbort_keeps (p : Path) (s : State) : Keeps s (execChainAbort p s) := by
  unfold execChainAbort
  refine Keeps.next ?_
  exact State.put_kept ..

theorem execReload_keeps (p : Path) (s : State) : Keeps s (execReload p s) := by
  unfold execReload
  refine Keeps.next ?_
  exact State.put_kept ..

theorem execRefill_keeps (p : Path) (v : Word) (s : State) : Keeps s (execRefill p v s) := by
  unfold execRefill
  refine Keeps.next ?_
  exact State.put_kept ..

theorem execQueueEnable_keeps (fn : Fin 256) (q : Fin 64) (on : Bool) (s : State) :
    Keeps s (execQueueEnable fn q on s) := by
  unfold execQueueEnable
  refine Keeps.next ?_
  exact State.regWrite_kept ..

theorem execCmdqDoorbell_keeps (fn : Fin 256) (q : Fin 64) (v : Word) (s : State) :
    Keeps s (execCmdqDoorbell fn q v s) := by
  unfold execCmdqDoorbell
  refine Keeps.next ?_
  exact State.regWrite_kept ..

theorem execRingDoorbell_keeps (fn : Fin 256) (q : Fin 64) (v : Word) (s : State) :
    Keeps s (execRingDoorbell fn q v s) := by
  unfold execRingDoorbell
  refine Keeps.next ?_
  exact State.regWrite_kept ..

theorem execQueueRestart_keeps (fn : Fin 256) (q : Fin 64) (s : State) : Keeps s (execQueueRestart fn q s) := by
  unfold execQueueRestart
  refine Keeps.next ?_
  exact State.regWrite_kept ..

theorem execSlotRelease_keeps (fn : Fin 256) (v : Word) (s : State) : Keeps s (execSlotRelease fn v s) := by
  unfold execSlotRelease
  refine Keeps.next ?_
  exact State.regWrite_kept ..

theorem execInvalidate_keeps (p : Path) (scope : Fin 4) (s : State) : Keeps s (execInvalidate p scope s) := by
  unfold execInvalidate
  refine Keeps.next ?_
  exact State.put_kept ..

theorem execPubRingDoorbell_keeps (p : Path) (v : Word) (s : State) : Keeps s (execPubRingDoorbell p v s) := by
  unfold execPubRingDoorbell
  refine Keeps.next ?_
  exact State.put_kept ..

theorem execLedgerDoorbell_keeps (p : Path) (v : Word) (s : State) : Keeps s (execLedgerDoorbell p v s) := by
  unfold execLedgerDoorbell
  refine Keeps.next ?_
  exact State.put_kept ..

theorem execNewNight_keeps (p : Path) (s : State) : Keeps s (execNewNight p s) := by
  unfold execNewNight
  refine Keeps.next ?_
  exact State.put_kept ..

theorem execTimeSet_keeps (p : Path) (s : State) : Keeps s (execTimeSet p s) := by
  unfold execTimeSet
  refine Keeps.next ?_
  exact State.put_kept ..

theorem execTimeLatch_keeps (p : Path) (s : State) : Keeps s (execTimeLatch p s) := by
  unfold execTimeLatch
  refine Keeps.next ?_
  exact State.put_kept ..

theorem execSqNote_keeps (p : Path) (v : Word) (s : State) : Keeps s (execSqNote p v s) := by
  unfold execSqNote
  refine Keeps.next ?_
  exact State.put_kept ..

theorem execWarm_keeps (p : Path) (s : State) : Keeps s (execWarm p s) := by
  unfold execWarm
  refine Keeps.next ?_
  exact State.put_kept ..

theorem execAvsRetry_keeps (p : Path) (s : State) : Keeps s (execAvsRetry p s) := by
  unfold execAvsRetry
  refine Keeps.next ?_
  exact State.put_kept ..

theorem execDoze_keeps (p : Path) (s : State) : Keeps s (execDoze p s) := by
  unfold execDoze
  refine Keeps.next ?_
  exact State.put_kept ..

theorem execDozeNote_keeps (p : Path) (s : State) : Keeps s (execDozeNote p s) := by
  unfold execDozeNote
  refine Keeps.next ?_
  exact State.put_kept ..

theorem execWake_keeps (p : Path) (s : State) : Keeps s (execWake p s) := by
  unfold execWake
  refine Keeps.next ?_
  exact State.put_kept ..

theorem execKick_keeps (p : Path) (v : Word) (s : State) : Keeps s (execKick p v s) := by
  unfold execKick
  refine Keeps.next ?_
  exact State.put_kept ..

theorem execAlertAck_keeps (p : Path) (s : State) : Keeps s (execAlertAck p s) := by
  unfold execAlertAck
  refine Keeps.next ?_
  exact State.put_kept ..

theorem execFlashErase_keeps (p : Path) (s : State) : Keeps s (execFlashErase p s) := by
  unfold execFlashErase
  refine Keeps.next ?_
  exact State.put_kept ..

theorem execFlashProgram_keeps (p : Path) (s : State) : Keeps s (execFlashProgram p s) := by
  unfold execFlashProgram
  refine Keeps.next ?_
  exact State.put_kept ..

theorem execFlashRead_keeps (p : Path) (s : State) : Keeps s (execFlashRead p s) := by
  unfold execFlashRead
  refine Keeps.next ?_
  exact State.put_kept ..

/-! ### Paths -/

theorem State.mgmtNack_kept (s : State) (h : RHead) (b : Access) (code : Nat) : Kept s (State.mgmtNack s h b code)
    := by
  unfold State.mgmtNack
  refine Kept.trans ?_ (State.respond_kept ..)
  refine Kept.trans ?_ (State.cnt_kept ..)
  exact State.violate_kept ..

theorem State.roleDenied_kept (s : State) (h : RHead) (b : Access) : Kept s (State.roleDenied s h b) := by
  unfold State.roleDenied
  refine Kept.trans ?_ (State.respond_kept ..)
  refine Kept.trans ?_ (State.cnt_kept ..)
  exact State.violate_kept ..

theorem State.mgmtWrite_kept (s : State) (h : RHead) (b : Access) (data : List Byte) :
    Kept s (State.mgmtWrite s h b data) := by
  unfold State.mgmtWrite
  split
  · exact State.respond_kept ..
  · extract_lets k0
    have hk0 : Kept s k0.1 := by
      dsimp only [k0]
      exact State.regWriteR_fst ..
    clear_value k0
    split
    · refine Kept.trans ?_ (State.respond_kept ..)
      refine Kept.trans ?_ (State.cnt_kept ..)
      assumption
    · refine Kept.trans ?_ (State.respond_kept ..)
      assumption

theorem State.mgmtRead_kept (s : State) (h : RHead) (b : Access) : Kept s (State.mgmtRead s h b) := by
  unfold State.mgmtRead
  extract_lets k0
  have hk0 : Kept s k0.1 := by
    dsimp only [k0]
    exact State.regRead_fst ..
  clear_value k0
  refine Kept.trans ?_ (State.respond_kept ..)
  assumption

theorem State.serveMgmt_kept (s : State) (h : RHead) (b : Access) (data : List Byte) :
    Kept s (State.serveMgmt s h b data) := by
  unfold State.serveMgmt
  split
  · exact State.mgmtNack_kept ..
  · split
    · split
      · exact State.roleDenied_kept ..
      · exact State.mgmtNack_kept ..
    · split
      · exact State.mgmtNack_kept ..
      · split
        · exact State.mgmtWrite_kept ..
        · exact State.mgmtRead_kept ..

theorem State.serveOwn_kept (s : State) : Kept s (State.serveOwn s) := by
  unfold State.serveOwn
  extract_lets k0
  clear_value k0
  split
  · exact State.pump_kept ..
  · refine Kept.trans ?_ (State.pump_kept ..)
    refine Kept.each ?_ (fun t x => ?_)
    · exact State.modFab_kept ..
    · exact State.serveMgmt_kept ..

theorem State.refuseFrame_kept (s : State) (port : Nat) (f : RFrame) : Kept s (State.refuseFrame s port f) := by
  unfold State.refuseFrame
  split
  · exact State.refuseAccess_kept ..
  · exact State.refuseAccess_kept ..
  · exact State.mgmtNack_kept ..
  · exact State.tagOff_kept ..
  · exact State.tagOff_kept ..

theorem State.consume_kept (s : State) (port : Nat) (f : RFrame) : Kept s (State.consume s port f) := by
  unfold State.consume
  extract_lets k0
  clear_value k0
  split
  · refine Kept.trans ?_ (State.refuseFrame_kept ..)
    exact State.disagreed_kept ..
  · split
    · exact State.serve_kept ..
    · exact State.serve_kept ..
    · exact State.serveMgmt_kept ..
    · split
      · exact State.deliver_kept ..
      · exact State.tagOff_kept ..
    · split
      · exact State.deliver_kept ..
      · exact State.tagOff_kept ..

theorem State.badInTransit_kept (s : State) (port : Nat) (f : RFrame) : Kept s (State.badInTransit s port f) := by
  unfold State.badInTransit
  split
  · exact State.refuseAccess_kept ..
  · exact State.refuseAccess_kept ..
  · exact State.mgmtNack_kept ..
  · exact Kept.refl _

theorem State.frameAt_kept (s : State) (port : Nat) (f : RFrame) : Kept s (State.frameAt s port f) := by
  unfold State.frameAt
  split
  · refine Kept.trans ?_ (State.freeUnits_kept ..)
    exact State.tagOff_kept ..
  · split
    · refine Kept.trans ?_ (State.consume_kept ..)
      exact State.freeUnits_kept ..
    · split
      · refine Kept.trans ?_ (State.badInTransit_kept ..)
        exact State.freeUnits_kept ..
      · extract_lets k0
        have hk0 : Kept s k0.1 := by
          dsimp only [k0]
          exact State.forward_fst ..
        clear_value k0
        split
        · assumption
        · refine Kept.trans ?_ (State.noHop_kept ..)
          assumption

theorem State.routedIn_kept (s : State) (port : Nat) (a : Arrival) (f : RFrame) :
    Kept s (State.routedIn s port a f) := by
  unfold State.routedIn
  split
  · refine Kept.trans ?_ (State.serveOwn_kept ..)
    refine Kept.trans ?_ (State.frameAt_kept ..)
    rename_i hq
    have hk := congrArg Prod.fst hq
    dsimp only at hk
    rw [← hk]
    exact State.receive_fst ..
  · split
    · refine Kept.trans ?_ (State.cnt_kept ..)
      rename_i hq _
      have hk := congrArg Prod.fst hq
      dsimp only at hk
      rw [← hk]
      exact State.receive_fst ..
    · rename_i hq _
      have hk := congrArg Prod.fst hq
      dsimp only at hk
      rw [← hk]
      exact State.receive_fst ..
  · rename_i hq
    have hk := congrArg Prod.fst hq
    dsimp only at hk
    rw [← hk]
    exact State.receive_fst ..

theorem execReq_keeps (port : Fin 16) (a : Arrival) (h : RHead) (b : Access) (data : List Byte) (s : State) :
    Keeps s (execReq port a h b data s) := by
  unfold execReq
  refine Keeps.next ?_
  exact State.routedIn_kept ..

theorem execFrameForward_keeps (port : Fin 16) (a : Arrival) (f : RFrame) (s : State) :
    Keeps s (execFrameForward port a f s) := by
  unfold execFrameForward
  refine Keeps.next ?_
  exact State.routedIn_kept ..

theorem execRsp_keeps (port : Fin 16) (a : Arrival) (h : RHead) (r : Response) (data : List Byte) (s : State) :
    Keeps s (execRsp port a h r data s) := by
  unfold execRsp
  refine Keeps.next ?_
  exact State.routedIn_kept ..

theorem execMgmt_keeps (port : Fin 16) (a : Arrival) (h : RHead) (b : Access) (data : List Byte) (s : State) :
    Keeps s (execMgmt port a h b data s) := by
  unfold execMgmt
  refine Keeps.next ?_
  exact State.routedIn_kept ..

theorem execMgmtResponse_keeps (port : Fin 16) (a : Arrival) (h : RHead) (r : Response) (data : List Byte) (s :
    State) :
    Keeps s (execMgmtResponse port a h r data s) := by
  unfold execMgmtResponse
  refine Keeps.next ?_
  exact State.routedIn_kept ..

theorem execToss_keeps (port : Fin 16) (a : Arrival) (h : RHead) (b : Access) (data : List Byte) (s : State) :
    Keeps s (execToss port a h b data s) := by
  unfold execToss
  refine Keeps.next ?_
  exact State.routedIn_kept ..

theorem execAtomicDue_keeps (s : State) : Keeps s (execAtomicDue s) := by
  unfold execAtomicDue
  refine Keeps.next ?_
  split
  · refine Kept.trans ?_ (State.serveOwn_kept ..)
    refine Kept.trans ?_ (State.atomicsDue_kept ..)
    exact State.passTo_kept ..
  · exact Kept.refl _

theorem State.trsReq_kept (s : State) (h : TrsHead) (run : State → State × List Byte) (hb : ∀ t, Kept t (run t).1) :
    Kept s (State.trsReq s h run) := by
  unfold State.trsReq
  split
  · exact Kept.refl _
  · split
    · exact Kept.refl _
    · split
      · exact State.trsReceive_eq (by assumption)
      · split
        · refine Kept.trans ?_ (State.trsReply_kept ..)
          exact State.trsReceive_eq (by assumption)
        · refine Kept.trans ?_ (State.cnt_kept ..)
          exact State.trsReceive_eq (by assumption)
        · extract_lets k0
          have hk0 : Kept s k0.1 := by
            dsimp only [k0]
            refine Kept.trans ?_ (hb ..)
            exact State.trsReceive_eq (by assumption)
          clear_value k0
          split
          · refine Kept.trans ?_ (State.trsExecuted_kept ..)
            assumption
          · assumption

theorem State.trsWords_fst (s : State) (addr n : Nat) : Kept s (State.trsWords s addr n).1 := by
  unfold State.trsWords
  refine Kept.foldlFst ?_ (fun t x => ?_)
  · dsimp only
    exact Kept.refl _
  · extract_lets k0
    have hk0 : Kept (Prod.fst t) k0.1 := by
      dsimp only [k0]
      exact State.regRead_fst ..
    clear_value k0
    dsimp only
    assumption

theorem execTrestleRead_keeps (h : TrsHead) (count addr : Nat) (s : State) :
    Keeps s (execTrestleRead h count addr s) := by
  unfold execTrestleRead
  refine Keeps.next ?_
  refine State.trsReq_kept (hb := fun t => ?_) ..
  split
  · extract_lets k0
    have hk0 : Kept t k0.1 := by
      dsimp only [k0]
      exact State.trsWords_fst ..
    clear_value k0
    dsimp only
    assumption
  · dsimp only
    exact Kept.refl _

theorem State.trsStore_fst (s : State) (addr : Nat) (words : List Word) : Kept s (State.trsStore s addr words).1 := by
  unfold State.trsStore
  refine Kept.foldlFst ?_ (fun t x => ?_)
  · dsimp only
    exact Kept.refl _
  · extract_lets k0
    have hk0 : Kept (Prod.fst t) k0.1 := by
      dsimp only [k0]
      exact State.regWriteR_fst ..
    clear_value k0
    dsimp only
    assumption

theorem execTrestleWrite_keeps (h : TrsHead) (addr : Nat) (words : List Word) (s : State) :
    Keeps s (execTrestleWrite h addr words s) := by
  unfold execTrestleWrite
  refine Keeps.next ?_
  refine State.trsReq_kept (hb := fun t => ?_) ..
  split
  · extract_lets k0
    have hk0 : Kept t k0.1 := by
      dsimp only [k0]
      exact State.trsStore_fst ..
    clear_value k0
    dsimp only
    assumption
  · dsimp only
    exact Kept.refl _

theorem State.spiEnd_kept (s : State) : Kept s (State.spiEnd s) := by
  unfold State.spiEnd
  extract_lets k0 u0
  clear_value k0
  have hu0 : Kept s u0 := by
    dsimp only [u0]
    refine Kept.mk ?_
    exact Kept.refl _
  clear_value u0
  split
  · refine Kept.trans ?_ (State.cnt_kept ..)
    assumption
  · assumption

theorem State.spiBegin_kept (s : State) (mode3 : Bool) : Kept s (State.spiBegin s mode3) := by
  unfold State.spiBegin
  extract_lets u0 k0
  clear_value k0
  have hu0 : Kept s u0 := by
    dsimp only [u0]
    exact State.spiEnd_kept ..
  clear_value u0
  refine Kept.mk ?_
  assumption

theorem State.spiRefuse_kept (s : State) (sts : Word) : Kept s (State.spiRefuse s sts) := by
  unfold State.spiRefuse
  refine Kept.trans ?_ (State.send_kept ..)
  refine Kept.trans ?_ (State.cnt_kept ..)
  refine Kept.mk ?_
  exact Kept.refl _

theorem State.spiExpect_kept (s : State) (n : Nat) : Kept s (State.spiExpect s n) := by
  unfold State.spiExpect
  refine Kept.mk ?_
  exact Kept.refl _

theorem execSpiRead_keeps (cmd addr : Word) (words : Nat) (mode3 : Bool) (s : State) :
    Keeps s (execSpiRead cmd addr words mode3 s) := by
  unfold execSpiRead
  extract_lets u0 k0 k1 k2
  clear_value k0 k1 k2
  have hu0 : Kept s u0 := by
    dsimp only [u0]
    exact State.spiBegin_kept ..
  clear_value u0
  refine Keeps.next ?_
  split
  · exact Kept.refl _
  · split
    · refine Kept.trans ?_ (State.spiRefuse_kept ..)
      assumption
    · split
      · exact Kept.refl _
      · refine Kept.trans ?_ (State.send_kept ..)
        refine Kept.trans ?_ (State.spiExpect_kept ..)
        refine Kept.trans ?_ (State.cnt_kept ..)
        assumption

theorem execSpiWrite_keeps (cmd addr : Word) (words : List Word) (mode3 : Bool) (s : State) :
    Keeps s (execSpiWrite cmd addr words mode3 s) := by
  unfold execSpiWrite
  extract_lets u0 k0 k1 u1
  clear_value k0 k1
  have hu0 : Kept s u0 := by
    dsimp only [u0]
    exact State.spiBegin_kept ..
  clear_value u0
  have hu1 : Kept s u1 := by
    dsimp only [u1]
    refine Kept.foldl ?_ (fun t x => ?_)
    · assumption
    · exact State.regWriteR_fst ..
  clear_value u1
  refine Keeps.next ?_
  split
  · exact Kept.refl _
  · split
    · refine Kept.trans ?_ (State.spiRefuse_kept ..)
      assumption
    · split
      · exact Kept.refl _
      · refine Kept.trans ?_ (State.send_kept ..)
        refine Kept.trans ?_ (State.spiExpect_kept ..)
        refine Kept.trans ?_ (State.cnt_kept ..)
        assumption

theorem execSpiSelectRise_keeps (s : State) : Keeps s (execSpiSelectRise s) := by
  unfold execSpiSelectRise
  refine Keeps.next ?_
  exact State.spiEnd_kept ..

end Sys2Proof.Machine
end

