-- ==== Sys2Proof/Laws/State.lean ====
section
/-!
SUPPORT. The fields that each update of the state leaves, and what it writes.
-/
set_option Elab.async false

namespace Sys2Proof.Machine

@[simp] theorem State.setCluster_pending (s : State) (c : Nat) (x : Cluster) :
    (State.setCluster s c x).pending = s.pending := rfl
@[simp] theorem State.setCluster_regs (s : State) (c : Nat) (x : Cluster) : (State.setCluster s c x).regs = s.regs := rfl
@[simp] theorem State.setCluster_eff (s : State) (c : Nat) (x : Cluster) : (State.setCluster s c x).eff = s.eff := rfl
@[simp] theorem State.setCluster_hidden (s : State) (c : Nat) (x : Cluster) :
    (State.setCluster s c x).hidden = s.hidden := rfl
@[simp] theorem State.setCluster_mem (s : State) (c : Nat) (x : Cluster) : (State.setCluster s c x).mem = s.mem := rfl
@[simp] theorem State.setCluster_ecc (s : State) (c : Nat) (x : Cluster) : (State.setCluster s c x).ecc = s.ecc := rfl
@[simp] theorem State.setCluster_written (s : State) (c : Nat) (x : Cluster) :
    (State.setCluster s c x).written = s.written := rfl
@[simp] theorem State.setCluster_freeCtr (s : State) (c : Nat) (x : Cluster) :
    (State.setCluster s c x).freeCtr = s.freeCtr := rfl
@[simp] theorem State.setCluster_out (s : State) (c : Nat) (x : Cluster) : (State.setCluster s c x).out = s.out := rfl
@[simp] theorem State.setCluster_tick (s : State) (c : Nat) (x : Cluster) : (State.setCluster s c x).tick = s.tick := rfl
@[simp] theorem State.setCluster_image (s : State) (c : Nat) (x : Cluster) :
    (State.setCluster s c x).image = s.image := rfl
@[simp] theorem State.setCluster_scrubs (s : State) (c : Nat) (x : Cluster) :
    (State.setCluster s c x).scrubs = s.scrubs := rfl
@[simp] theorem State.setCluster_ports (s : State) (c : Nat) (x : Cluster) :
    (State.setCluster s c x).ports = s.ports := rfl
@[simp] theorem State.setCluster_fabric (s : State) (c : Nat) (x : Cluster) :
    (State.setCluster s c x).fabric = s.fabric := rfl
@[simp] theorem State.setCluster_load (s : State) (c : Nat) (x : Cluster) : (State.setCluster s c x).load = s.load := rfl
@[simp] theorem State.setCluster_host (s : State) (c : Nat) (x : Cluster) : (State.setCluster s c x).host = s.host := rfl
@[simp] theorem State.setCluster_svc (s : State) (c : Nat) (x : Cluster) : (State.setCluster s c x).svc = s.svc := rfl
@[simp] theorem State.setCluster_time (s : State) (c : Nat) (x : Cluster) : (State.setCluster s c x).time = s.time := rfl
@[simp] theorem State.setCluster_power (s : State) (c : Nat) (x : Cluster) :
    (State.setCluster s c x).power = s.power := rfl
@[simp] theorem State.setCluster_island (s : State) (c : Nat) (x : Cluster) :
    (State.setCluster s c x).island = s.island := rfl
@[simp] theorem State.setCluster_trestle (s : State) (c : Nat) (x : Cluster) :
    (State.setCluster s c x).trestle = s.trestle := rfl
@[simp] theorem State.setCluster_spi (s : State) (c : Nat) (x : Cluster) : (State.setCluster s c x).spi = s.spi := rfl
@[simp] theorem State.setCluster_flash (s : State) (c : Nat) (x : Cluster) :
    (State.setCluster s c x).flash = s.flash := rfl
@[simp] theorem State.setCluster_tag (s : State) (c : Nat) (x : Cluster) : (State.setCluster s c x).tag = s.tag := rfl
@[simp] theorem State.setCluster_pins (s : State) (c : Nat) (x : Cluster) : (State.setCluster s c x).pins = s.pins := rfl
@[simp] theorem State.modCluster_pending (s : State) (c : Nat) (f : Cluster → Cluster) :
    (State.modCluster s c f).pending = s.pending := rfl
@[simp] theorem State.modCluster_regs (s : State) (c : Nat) (f : Cluster → Cluster) :
    (State.modCluster s c f).regs = s.regs := rfl
@[simp] theorem State.modCluster_eff (s : State) (c : Nat) (f : Cluster → Cluster) :
    (State.modCluster s c f).eff = s.eff := rfl
@[simp] theorem State.modCluster_hidden (s : State) (c : Nat) (f : Cluster → Cluster) :
    (State.modCluster s c f).hidden = s.hidden := rfl
@[simp] theorem State.modCluster_mem (s : State) (c : Nat) (f : Cluster → Cluster) :
    (State.modCluster s c f).mem = s.mem := rfl
@[simp] theorem State.modCluster_ecc (s : State) (c : Nat) (f : Cluster → Cluster) :
    (State.modCluster s c f).ecc = s.ecc := rfl
@[simp] theorem State.modCluster_written (s : State) (c : Nat) (f : Cluster → Cluster) :
    (State.modCluster s c f).written = s.written := rfl
@[simp] theorem State.modCluster_freeCtr (s : State) (c : Nat) (f : Cluster → Cluster) :
    (State.modCluster s c f).freeCtr = s.freeCtr := rfl
@[simp] theorem State.modCluster_out (s : State) (c : Nat) (f : Cluster → Cluster) :
    (State.modCluster s c f).out = s.out := rfl
@[simp] theorem State.modCluster_tick (s : State) (c : Nat) (f : Cluster → Cluster) :
    (State.modCluster s c f).tick = s.tick := rfl
@[simp] theorem State.modCluster_image (s : State) (c : Nat) (f : Cluster → Cluster) :
    (State.modCluster s c f).image = s.image := rfl
@[simp] theorem State.modCluster_scrubs (s : State) (c : Nat) (f : Cluster → Cluster) :
    (State.modCluster s c f).scrubs = s.scrubs := rfl
@[simp] theorem State.modCluster_ports (s : State) (c : Nat) (f : Cluster → Cluster) :
    (State.modCluster s c f).ports = s.ports := rfl
@[simp] theorem State.modCluster_fabric (s : State) (c : Nat) (f : Cluster → Cluster) :
    (State.modCluster s c f).fabric = s.fabric := rfl
@[simp] theorem State.modCluster_load (s : State) (c : Nat) (f : Cluster → Cluster) :
    (State.modCluster s c f).load = s.load := rfl
@[simp] theorem State.modCluster_host (s : State) (c : Nat) (f : Cluster → Cluster) :
    (State.modCluster s c f).host = s.host := rfl
@[simp] theorem State.modCluster_svc (s : State) (c : Nat) (f : Cluster → Cluster) :
    (State.modCluster s c f).svc = s.svc := rfl
@[simp] theorem State.modCluster_time (s : State) (c : Nat) (f : Cluster → Cluster) :
    (State.modCluster s c f).time = s.time := rfl
@[simp] theorem State.modCluster_power (s : State) (c : Nat) (f : Cluster → Cluster) :
    (State.modCluster s c f).power = s.power := rfl
@[simp] theorem State.modCluster_island (s : State) (c : Nat) (f : Cluster → Cluster) :
    (State.modCluster s c f).island = s.island := rfl
@[simp] theorem State.modCluster_trestle (s : State) (c : Nat) (f : Cluster → Cluster) :
    (State.modCluster s c f).trestle = s.trestle := rfl
@[simp] theorem State.modCluster_spi (s : State) (c : Nat) (f : Cluster → Cluster) :
    (State.modCluster s c f).spi = s.spi := rfl
@[simp] theorem State.modCluster_flash (s : State) (c : Nat) (f : Cluster → Cluster) :
    (State.modCluster s c f).flash = s.flash := rfl
@[simp] theorem State.modCluster_tag (s : State) (c : Nat) (f : Cluster → Cluster) :
    (State.modCluster s c f).tag = s.tag := rfl
@[simp] theorem State.modCluster_pins (s : State) (c : Nat) (f : Cluster → Cluster) :
    (State.modCluster s c f).pins = s.pins := rfl
@[simp] theorem State.modPort_pending (s : State) (p : Nat) (f : Port → Port) :
    (State.modPort s p f).pending = s.pending := rfl
@[simp] theorem State.modPort_regs (s : State) (p : Nat) (f : Port → Port) : (State.modPort s p f).regs = s.regs := rfl
@[simp] theorem State.modPort_eff (s : State) (p : Nat) (f : Port → Port) : (State.modPort s p f).eff = s.eff := rfl
@[simp] theorem State.modPort_hidden (s : State) (p : Nat) (f : Port → Port) :
    (State.modPort s p f).hidden = s.hidden := rfl
@[simp] theorem State.modPort_mem (s : State) (p : Nat) (f : Port → Port) : (State.modPort s p f).mem = s.mem := rfl
@[simp] theorem State.modPort_ecc (s : State) (p : Nat) (f : Port → Port) : (State.modPort s p f).ecc = s.ecc := rfl
@[simp] theorem State.modPort_written (s : State) (p : Nat) (f : Port → Port) :
    (State.modPort s p f).written = s.written := rfl
@[simp] theorem State.modPort_freeCtr (s : State) (p : Nat) (f : Port → Port) :
    (State.modPort s p f).freeCtr = s.freeCtr := rfl
@[simp] theorem State.modPort_out (s : State) (p : Nat) (f : Port → Port) : (State.modPort s p f).out = s.out := rfl
@[simp] theorem State.modPort_tick (s : State) (p : Nat) (f : Port → Port) : (State.modPort s p f).tick = s.tick := rfl
@[simp] theorem State.modPort_image (s : State) (p : Nat) (f : Port → Port) : (State.modPort s p f).image = s.image := rfl
@[simp] theorem State.modPort_clusters (s : State) (p : Nat) (f : Port → Port) :
    (State.modPort s p f).clusters = s.clusters := rfl
@[simp] theorem State.modPort_scrubs (s : State) (p : Nat) (f : Port → Port) :
    (State.modPort s p f).scrubs = s.scrubs := rfl
@[simp] theorem State.modPort_fabric (s : State) (p : Nat) (f : Port → Port) :
    (State.modPort s p f).fabric = s.fabric := rfl
@[simp] theorem State.modPort_load (s : State) (p : Nat) (f : Port → Port) : (State.modPort s p f).load = s.load := rfl
@[simp] theorem State.modPort_host (s : State) (p : Nat) (f : Port → Port) : (State.modPort s p f).host = s.host := rfl
@[simp] theorem State.modPort_svc (s : State) (p : Nat) (f : Port → Port) : (State.modPort s p f).svc = s.svc := rfl
@[simp] theorem State.modPort_time (s : State) (p : Nat) (f : Port → Port) : (State.modPort s p f).time = s.time := rfl
@[simp] theorem State.modPort_power (s : State) (p : Nat) (f : Port → Port) : (State.modPort s p f).power = s.power := rfl
@[simp] theorem State.modPort_island (s : State) (p : Nat) (f : Port → Port) :
    (State.modPort s p f).island = s.island := rfl
@[simp] theorem State.modPort_trestle (s : State) (p : Nat) (f : Port → Port) :
    (State.modPort s p f).trestle = s.trestle := rfl
@[simp] theorem State.modPort_spi (s : State) (p : Nat) (f : Port → Port) : (State.modPort s p f).spi = s.spi := rfl
@[simp] theorem State.modPort_flash (s : State) (p : Nat) (f : Port → Port) : (State.modPort s p f).flash = s.flash := rfl
@[simp] theorem State.modPort_tag (s : State) (p : Nat) (f : Port → Port) : (State.modPort s p f).tag = s.tag := rfl
@[simp] theorem State.modPort_pins (s : State) (p : Nat) (f : Port → Port) : (State.modPort s p f).pins = s.pins := rfl
@[simp] theorem State.modFn_pending (s : State) (n : Nat) (f : Function → Function) :
    (State.modFn s n f).pending = s.pending := rfl
@[simp] theorem State.modFn_regs (s : State) (n : Nat) (f : Function → Function) :
    (State.modFn s n f).regs = s.regs := rfl
@[simp] theorem State.modFn_eff (s : State) (n : Nat) (f : Function → Function) : (State.modFn s n f).eff = s.eff := rfl
@[simp] theorem State.modFn_hidden (s : State) (n : Nat) (f : Function → Function) :
    (State.modFn s n f).hidden = s.hidden := rfl
@[simp] theorem State.modFn_mem (s : State) (n : Nat) (f : Function → Function) : (State.modFn s n f).mem = s.mem := rfl
@[simp] theorem State.modFn_ecc (s : State) (n : Nat) (f : Function → Function) : (State.modFn s n f).ecc = s.ecc := rfl
@[simp] theorem State.modFn_written (s : State) (n : Nat) (f : Function → Function) :
    (State.modFn s n f).written = s.written := rfl
@[simp] theorem State.modFn_freeCtr (s : State) (n : Nat) (f : Function → Function) :
    (State.modFn s n f).freeCtr = s.freeCtr := rfl
@[simp] theorem State.modFn_out (s : State) (n : Nat) (f : Function → Function) : (State.modFn s n f).out = s.out := rfl
@[simp] theorem State.modFn_tick (s : State) (n : Nat) (f : Function → Function) :
    (State.modFn s n f).tick = s.tick := rfl
@[simp] theorem State.modFn_image (s : State) (n : Nat) (f : Function → Function) :
    (State.modFn s n f).image = s.image := rfl
@[simp] theorem State.modFn_clusters (s : State) (n : Nat) (f : Function → Function) :
    (State.modFn s n f).clusters = s.clusters := rfl
@[simp] theorem State.modFn_scrubs (s : State) (n : Nat) (f : Function → Function) :
    (State.modFn s n f).scrubs = s.scrubs := rfl
@[simp] theorem State.modFn_ports (s : State) (n : Nat) (f : Function → Function) :
    (State.modFn s n f).ports = s.ports := rfl
@[simp] theorem State.modFn_fabric (s : State) (n : Nat) (f : Function → Function) :
    (State.modFn s n f).fabric = s.fabric := rfl
@[simp] theorem State.modFn_load (s : State) (n : Nat) (f : Function → Function) :
    (State.modFn s n f).load = s.load := rfl
@[simp] theorem State.modFn_svc (s : State) (n : Nat) (f : Function → Function) : (State.modFn s n f).svc = s.svc := rfl
@[simp] theorem State.modFn_time (s : State) (n : Nat) (f : Function → Function) :
    (State.modFn s n f).time = s.time := rfl
@[simp] theorem State.modFn_power (s : State) (n : Nat) (f : Function → Function) :
    (State.modFn s n f).power = s.power := rfl
@[simp] theorem State.modFn_island (s : State) (n : Nat) (f : Function → Function) :
    (State.modFn s n f).island = s.island := rfl
@[simp] theorem State.modFn_trestle (s : State) (n : Nat) (f : Function → Function) :
    (State.modFn s n f).trestle = s.trestle := rfl
@[simp] theorem State.modFn_spi (s : State) (n : Nat) (f : Function → Function) : (State.modFn s n f).spi = s.spi := rfl
@[simp] theorem State.modFn_flash (s : State) (n : Nat) (f : Function → Function) :
    (State.modFn s n f).flash = s.flash := rfl
@[simp] theorem State.modFn_tag (s : State) (n : Nat) (f : Function → Function) : (State.modFn s n f).tag = s.tag := rfl
@[simp] theorem State.modFn_pins (s : State) (n : Nat) (f : Function → Function) :
    (State.modFn s n f).pins = s.pins := rfl
@[simp] theorem State.modQueue_pending (s : State) (n q : Nat) (f : Queue → Queue) :
    (State.modQueue s n q f).pending = s.pending := rfl
@[simp] theorem State.modQueue_regs (s : State) (n q : Nat) (f : Queue → Queue) :
    (State.modQueue s n q f).regs = s.regs := rfl
@[simp] theorem State.modQueue_eff (s : State) (n q : Nat) (f : Queue → Queue) :
    (State.modQueue s n q f).eff = s.eff := rfl
@[simp] theorem State.modQueue_hidden (s : State) (n q : Nat) (f : Queue → Queue) :
    (State.modQueue s n q f).hidden = s.hidden := rfl
@[simp] theorem State.modQueue_mem (s : State) (n q : Nat) (f : Queue → Queue) :
    (State.modQueue s n q f).mem = s.mem := rfl
@[simp] theorem State.modQueue_ecc (s : State) (n q : Nat) (f : Queue → Queue) :
    (State.modQueue s n q f).ecc = s.ecc := rfl
@[simp] theorem State.modQueue_written (s : State) (n q : Nat) (f : Queue → Queue) :
    (State.modQueue s n q f).written = s.written := rfl
@[simp] theorem State.modQueue_freeCtr (s : State) (n q : Nat) (f : Queue → Queue) :
    (State.modQueue s n q f).freeCtr = s.freeCtr := rfl
@[simp] theorem State.modQueue_out (s : State) (n q : Nat) (f : Queue → Queue) :
    (State.modQueue s n q f).out = s.out := rfl
@[simp] theorem State.modQueue_tick (s : State) (n q : Nat) (f : Queue → Queue) :
    (State.modQueue s n q f).tick = s.tick := rfl
@[simp] theorem State.modQueue_image (s : State) (n q : Nat) (f : Queue → Queue) :
    (State.modQueue s n q f).image = s.image := rfl
@[simp] theorem State.modQueue_clusters (s : State) (n q : Nat) (f : Queue → Queue) :
    (State.modQueue s n q f).clusters = s.clusters := rfl
@[simp] theorem State.modQueue_scrubs (s : State) (n q : Nat) (f : Queue → Queue) :
    (State.modQueue s n q f).scrubs = s.scrubs := rfl
@[simp] theorem State.modQueue_ports (s : State) (n q : Nat) (f : Queue → Queue) :
    (State.modQueue s n q f).ports = s.ports := rfl
@[simp] theorem State.modQueue_fabric (s : State) (n q : Nat) (f : Queue → Queue) :
    (State.modQueue s n q f).fabric = s.fabric := rfl
@[simp] theorem State.modQueue_load (s : State) (n q : Nat) (f : Queue → Queue) :
    (State.modQueue s n q f).load = s.load := rfl
@[simp] theorem State.modQueue_svc (s : State) (n q : Nat) (f : Queue → Queue) :
    (State.modQueue s n q f).svc = s.svc := rfl
@[simp] theorem State.modQueue_time (s : State) (n q : Nat) (f : Queue → Queue) :
    (State.modQueue s n q f).time = s.time := rfl
@[simp] theorem State.modQueue_power (s : State) (n q : Nat) (f : Queue → Queue) :
    (State.modQueue s n q f).power = s.power := rfl
@[simp] theorem State.modQueue_island (s : State) (n q : Nat) (f : Queue → Queue) :
    (State.modQueue s n q f).island = s.island := rfl
@[simp] theorem State.modQueue_trestle (s : State) (n q : Nat) (f : Queue → Queue) :
    (State.modQueue s n q f).trestle = s.trestle := rfl
@[simp] theorem State.modQueue_spi (s : State) (n q : Nat) (f : Queue → Queue) :
    (State.modQueue s n q f).spi = s.spi := rfl
@[simp] theorem State.modQueue_flash (s : State) (n q : Nat) (f : Queue → Queue) :
    (State.modQueue s n q f).flash = s.flash := rfl
@[simp] theorem State.modQueue_tag (s : State) (n q : Nat) (f : Queue → Queue) :
    (State.modQueue s n q f).tag = s.tag := rfl
@[simp] theorem State.modQueue_pins (s : State) (n q : Nat) (f : Queue → Queue) :
    (State.modQueue s n q f).pins = s.pins := rfl
@[simp] theorem State.modQuarter_pending (s : State) (q : Nat) (f : Quarter → Quarter) :
    (State.modQuarter s q f).pending = s.pending := rfl
@[simp] theorem State.modQuarter_regs (s : State) (q : Nat) (f : Quarter → Quarter) :
    (State.modQuarter s q f).regs = s.regs := rfl
@[simp] theorem State.modQuarter_eff (s : State) (q : Nat) (f : Quarter → Quarter) :
    (State.modQuarter s q f).eff = s.eff := rfl
@[simp] theorem State.modQuarter_hidden (s : State) (q : Nat) (f : Quarter → Quarter) :
    (State.modQuarter s q f).hidden = s.hidden := rfl
@[simp] theorem State.modQuarter_mem (s : State) (q : Nat) (f : Quarter → Quarter) :
    (State.modQuarter s q f).mem = s.mem := rfl
@[simp] theorem State.modQuarter_ecc (s : State) (q : Nat) (f : Quarter → Quarter) :
    (State.modQuarter s q f).ecc = s.ecc := rfl
@[simp] theorem State.modQuarter_written (s : State) (q : Nat) (f : Quarter → Quarter) :
    (State.modQuarter s q f).written = s.written := rfl
@[simp] theorem State.modQuarter_freeCtr (s : State) (q : Nat) (f : Quarter → Quarter) :
    (State.modQuarter s q f).freeCtr = s.freeCtr := rfl
@[simp] theorem State.modQuarter_out (s : State) (q : Nat) (f : Quarter → Quarter) :
    (State.modQuarter s q f).out = s.out := rfl
@[simp] theorem State.modQuarter_tick (s : State) (q : Nat) (f : Quarter → Quarter) :
    (State.modQuarter s q f).tick = s.tick := rfl
@[simp] theorem State.modQuarter_image (s : State) (q : Nat) (f : Quarter → Quarter) :
    (State.modQuarter s q f).image = s.image := rfl
@[simp] theorem State.modQuarter_clusters (s : State) (q : Nat) (f : Quarter → Quarter) :
    (State.modQuarter s q f).clusters = s.clusters := rfl
@[simp] theorem State.modQuarter_scrubs (s : State) (q : Nat) (f : Quarter → Quarter) :
    (State.modQuarter s q f).scrubs = s.scrubs := rfl
@[simp] theorem State.modQuarter_ports (s : State) (q : Nat) (f : Quarter → Quarter) :
    (State.modQuarter s q f).ports = s.ports := rfl
@[simp] theorem State.modQuarter_fabric (s : State) (q : Nat) (f : Quarter → Quarter) :
    (State.modQuarter s q f).fabric = s.fabric := rfl
@[simp] theorem State.modQuarter_load (s : State) (q : Nat) (f : Quarter → Quarter) :
    (State.modQuarter s q f).load = s.load := rfl
@[simp] theorem State.modQuarter_host (s : State) (q : Nat) (f : Quarter → Quarter) :
    (State.modQuarter s q f).host = s.host := rfl
@[simp] theorem State.modQuarter_svc (s : State) (q : Nat) (f : Quarter → Quarter) :
    (State.modQuarter s q f).svc = s.svc := rfl
@[simp] theorem State.modQuarter_time (s : State) (q : Nat) (f : Quarter → Quarter) :
    (State.modQuarter s q f).time = s.time := rfl
@[simp] theorem State.modQuarter_island (s : State) (q : Nat) (f : Quarter → Quarter) :
    (State.modQuarter s q f).island = s.island := rfl
@[simp] theorem State.modQuarter_trestle (s : State) (q : Nat) (f : Quarter → Quarter) :
    (State.modQuarter s q f).trestle = s.trestle := rfl
@[simp] theorem State.modQuarter_spi (s : State) (q : Nat) (f : Quarter → Quarter) :
    (State.modQuarter s q f).spi = s.spi := rfl
@[simp] theorem State.modQuarter_flash (s : State) (q : Nat) (f : Quarter → Quarter) :
    (State.modQuarter s q f).flash = s.flash := rfl
@[simp] theorem State.modQuarter_tag (s : State) (q : Nat) (f : Quarter → Quarter) :
    (State.modQuarter s q f).tag = s.tag := rfl
@[simp] theorem State.modQuarter_pins (s : State) (q : Nat) (f : Quarter → Quarter) :
    (State.modQuarter s q f).pins = s.pins := rfl
@[simp] theorem State.modTick_pending (s : State) (f : Tick → Tick) : (State.modTick s f).pending = s.pending := rfl
@[simp] theorem State.modTick_regs (s : State) (f : Tick → Tick) : (State.modTick s f).regs = s.regs := rfl
@[simp] theorem State.modTick_eff (s : State) (f : Tick → Tick) : (State.modTick s f).eff = s.eff := rfl
@[simp] theorem State.modTick_hidden (s : State) (f : Tick → Tick) : (State.modTick s f).hidden = s.hidden := rfl
@[simp] theorem State.modTick_mem (s : State) (f : Tick → Tick) : (State.modTick s f).mem = s.mem := rfl
@[simp] theorem State.modTick_ecc (s : State) (f : Tick → Tick) : (State.modTick s f).ecc = s.ecc := rfl
@[simp] theorem State.modTick_written (s : State) (f : Tick → Tick) : (State.modTick s f).written = s.written := rfl
@[simp] theorem State.modTick_freeCtr (s : State) (f : Tick → Tick) : (State.modTick s f).freeCtr = s.freeCtr := rfl
@[simp] theorem State.modTick_out (s : State) (f : Tick → Tick) : (State.modTick s f).out = s.out := rfl
@[simp] theorem State.modTick_image (s : State) (f : Tick → Tick) : (State.modTick s f).image = s.image := rfl
@[simp] theorem State.modTick_clusters (s : State) (f : Tick → Tick) : (State.modTick s f).clusters = s.clusters := rfl
@[simp] theorem State.modTick_scrubs (s : State) (f : Tick → Tick) : (State.modTick s f).scrubs = s.scrubs := rfl
@[simp] theorem State.modTick_ports (s : State) (f : Tick → Tick) : (State.modTick s f).ports = s.ports := rfl
@[simp] theorem State.modTick_fabric (s : State) (f : Tick → Tick) : (State.modTick s f).fabric = s.fabric := rfl
@[simp] theorem State.modTick_load (s : State) (f : Tick → Tick) : (State.modTick s f).load = s.load := rfl
@[simp] theorem State.modTick_host (s : State) (f : Tick → Tick) : (State.modTick s f).host = s.host := rfl
@[simp] theorem State.modTick_svc (s : State) (f : Tick → Tick) : (State.modTick s f).svc = s.svc := rfl
@[simp] theorem State.modTick_time (s : State) (f : Tick → Tick) : (State.modTick s f).time = s.time := rfl
@[simp] theorem State.modTick_power (s : State) (f : Tick → Tick) : (State.modTick s f).power = s.power := rfl
@[simp] theorem State.modTick_island (s : State) (f : Tick → Tick) : (State.modTick s f).island = s.island := rfl
@[simp] theorem State.modTick_trestle (s : State) (f : Tick → Tick) : (State.modTick s f).trestle = s.trestle := rfl
@[simp] theorem State.modTick_spi (s : State) (f : Tick → Tick) : (State.modTick s f).spi = s.spi := rfl
@[simp] theorem State.modTick_flash (s : State) (f : Tick → Tick) : (State.modTick s f).flash = s.flash := rfl
@[simp] theorem State.modTick_tag (s : State) (f : Tick → Tick) : (State.modTick s f).tag = s.tag := rfl
@[simp] theorem State.modTick_pins (s : State) (f : Tick → Tick) : (State.modTick s f).pins = s.pins := rfl
@[simp] theorem State.modSvc_pending (s : State) (f : Service → Service) : (State.modSvc s f).pending = s.pending := rfl
@[simp] theorem State.modSvc_regs (s : State) (f : Service → Service) : (State.modSvc s f).regs = s.regs := rfl
@[simp] theorem State.modSvc_eff (s : State) (f : Service → Service) : (State.modSvc s f).eff = s.eff := rfl
@[simp] theorem State.modSvc_hidden (s : State) (f : Service → Service) : (State.modSvc s f).hidden = s.hidden := rfl
@[simp] theorem State.modSvc_mem (s : State) (f : Service → Service) : (State.modSvc s f).mem = s.mem := rfl
@[simp] theorem State.modSvc_ecc (s : State) (f : Service → Service) : (State.modSvc s f).ecc = s.ecc := rfl
@[simp] theorem State.modSvc_written (s : State) (f : Service → Service) : (State.modSvc s f).written = s.written := rfl
@[simp] theorem State.modSvc_freeCtr (s : State) (f : Service → Service) : (State.modSvc s f).freeCtr = s.freeCtr := rfl
@[simp] theorem State.modSvc_out (s : State) (f : Service → Service) : (State.modSvc s f).out = s.out := rfl
@[simp] theorem State.modSvc_tick (s : State) (f : Service → Service) : (State.modSvc s f).tick = s.tick := rfl
@[simp] theorem State.modSvc_image (s : State) (f : Service → Service) : (State.modSvc s f).image = s.image := rfl
@[simp] theorem State.modSvc_clusters (s : State) (f : Service → Service) :
    (State.modSvc s f).clusters = s.clusters := rfl
@[simp] theorem State.modSvc_scrubs (s : State) (f : Service → Service) : (State.modSvc s f).scrubs = s.scrubs := rfl
@[simp] theorem State.modSvc_ports (s : State) (f : Service → Service) : (State.modSvc s f).ports = s.ports := rfl
@[simp] theorem State.modSvc_fabric (s : State) (f : Service → Service) : (State.modSvc s f).fabric = s.fabric := rfl
@[simp] theorem State.modSvc_load (s : State) (f : Service → Service) : (State.modSvc s f).load = s.load := rfl
@[simp] theorem State.modSvc_host (s : State) (f : Service → Service) : (State.modSvc s f).host = s.host := rfl
@[simp] theorem State.modSvc_time (s : State) (f : Service → Service) : (State.modSvc s f).time = s.time := rfl
@[simp] theorem State.modSvc_power (s : State) (f : Service → Service) : (State.modSvc s f).power = s.power := rfl
@[simp] theorem State.modSvc_island (s : State) (f : Service → Service) : (State.modSvc s f).island = s.island := rfl
@[simp] theorem State.modSvc_trestle (s : State) (f : Service → Service) : (State.modSvc s f).trestle = s.trestle := rfl
@[simp] theorem State.modSvc_spi (s : State) (f : Service → Service) : (State.modSvc s f).spi = s.spi := rfl
@[simp] theorem State.modSvc_flash (s : State) (f : Service → Service) : (State.modSvc s f).flash = s.flash := rfl
@[simp] theorem State.modSvc_tag (s : State) (f : Service → Service) : (State.modSvc s f).tag = s.tag := rfl
@[simp] theorem State.modSvc_pins (s : State) (f : Service → Service) : (State.modSvc s f).pins = s.pins := rfl
@[simp] theorem State.modFab_pending (s : State) (f : Fabric → Fabric) : (State.modFab s f).pending = s.pending := rfl
@[simp] theorem State.modFab_regs (s : State) (f : Fabric → Fabric) : (State.modFab s f).regs = s.regs := rfl
@[simp] theorem State.modFab_eff (s : State) (f : Fabric → Fabric) : (State.modFab s f).eff = s.eff := rfl
@[simp] theorem State.modFab_hidden (s : State) (f : Fabric → Fabric) : (State.modFab s f).hidden = s.hidden := rfl
@[simp] theorem State.modFab_mem (s : State) (f : Fabric → Fabric) : (State.modFab s f).mem = s.mem := rfl
@[simp] theorem State.modFab_ecc (s : State) (f : Fabric → Fabric) : (State.modFab s f).ecc = s.ecc := rfl
@[simp] theorem State.modFab_written (s : State) (f : Fabric → Fabric) : (State.modFab s f).written = s.written := rfl
@[simp] theorem State.modFab_freeCtr (s : State) (f : Fabric → Fabric) : (State.modFab s f).freeCtr = s.freeCtr := rfl
@[simp] theorem State.modFab_out (s : State) (f : Fabric → Fabric) : (State.modFab s f).out = s.out := rfl
@[simp] theorem State.modFab_tick (s : State) (f : Fabric → Fabric) : (State.modFab s f).tick = s.tick := rfl
@[simp] theorem State.modFab_image (s : State) (f : Fabric → Fabric) : (State.modFab s f).image = s.image := rfl
@[simp] theorem State.modFab_clusters (s : State) (f : Fabric → Fabric) : (State.modFab s f).clusters = s.clusters := rfl
@[simp] theorem State.modFab_scrubs (s : State) (f : Fabric → Fabric) : (State.modFab s f).scrubs = s.scrubs := rfl
@[simp] theorem State.modFab_ports (s : State) (f : Fabric → Fabric) : (State.modFab s f).ports = s.ports := rfl
@[simp] theorem State.modFab_load (s : State) (f : Fabric → Fabric) : (State.modFab s f).load = s.load := rfl
@[simp] theorem State.modFab_host (s : State) (f : Fabric → Fabric) : (State.modFab s f).host = s.host := rfl
@[simp] theorem State.modFab_svc (s : State) (f : Fabric → Fabric) : (State.modFab s f).svc = s.svc := rfl
@[simp] theorem State.modFab_time (s : State) (f : Fabric → Fabric) : (State.modFab s f).time = s.time := rfl
@[simp] theorem State.modFab_power (s : State) (f : Fabric → Fabric) : (State.modFab s f).power = s.power := rfl
@[simp] theorem State.modFab_island (s : State) (f : Fabric → Fabric) : (State.modFab s f).island = s.island := rfl
@[simp] theorem State.modFab_trestle (s : State) (f : Fabric → Fabric) : (State.modFab s f).trestle = s.trestle := rfl
@[simp] theorem State.modFab_spi (s : State) (f : Fabric → Fabric) : (State.modFab s f).spi = s.spi := rfl
@[simp] theorem State.modFab_flash (s : State) (f : Fabric → Fabric) : (State.modFab s f).flash = s.flash := rfl
@[simp] theorem State.modFab_tag (s : State) (f : Fabric → Fabric) : (State.modFab s f).tag = s.tag := rfl
@[simp] theorem State.modFab_pins (s : State) (f : Fabric → Fabric) : (State.modFab s f).pins = s.pins := rfl
@[simp] theorem State.modHost_pending (s : State) (f : HostPort → HostPort) :
    (State.modHost s f).pending = s.pending := rfl
@[simp] theorem State.modHost_regs (s : State) (f : HostPort → HostPort) : (State.modHost s f).regs = s.regs := rfl
@[simp] theorem State.modHost_eff (s : State) (f : HostPort → HostPort) : (State.modHost s f).eff = s.eff := rfl
@[simp] theorem State.modHost_hidden (s : State) (f : HostPort → HostPort) : (State.modHost s f).hidden = s.hidden := rfl
@[simp] theorem State.modHost_mem (s : State) (f : HostPort → HostPort) : (State.modHost s f).mem = s.mem := rfl
@[simp] theorem State.modHost_ecc (s : State) (f : HostPort → HostPort) : (State.modHost s f).ecc = s.ecc := rfl
@[simp] theorem State.modHost_written (s : State) (f : HostPort → HostPort) :
    (State.modHost s f).written = s.written := rfl
@[simp] theorem State.modHost_freeCtr (s : State) (f : HostPort → HostPort) :
    (State.modHost s f).freeCtr = s.freeCtr := rfl
@[simp] theorem State.modHost_out (s : State) (f : HostPort → HostPort) : (State.modHost s f).out = s.out := rfl
@[simp] theorem State.modHost_tick (s : State) (f : HostPort → HostPort) : (State.modHost s f).tick = s.tick := rfl
@[simp] theorem State.modHost_image (s : State) (f : HostPort → HostPort) : (State.modHost s f).image = s.image := rfl
@[simp] theorem State.modHost_clusters (s : State) (f : HostPort → HostPort) :
    (State.modHost s f).clusters = s.clusters := rfl
@[simp] theorem State.modHost_scrubs (s : State) (f : HostPort → HostPort) : (State.modHost s f).scrubs = s.scrubs := rfl
@[simp] theorem State.modHost_ports (s : State) (f : HostPort → HostPort) : (State.modHost s f).ports = s.ports := rfl
@[simp] theorem State.modHost_fabric (s : State) (f : HostPort → HostPort) : (State.modHost s f).fabric = s.fabric := rfl
@[simp] theorem State.modHost_load (s : State) (f : HostPort → HostPort) : (State.modHost s f).load = s.load := rfl
@[simp] theorem State.modHost_svc (s : State) (f : HostPort → HostPort) : (State.modHost s f).svc = s.svc := rfl
@[simp] theorem State.modHost_time (s : State) (f : HostPort → HostPort) : (State.modHost s f).time = s.time := rfl
@[simp] theorem State.modHost_power (s : State) (f : HostPort → HostPort) : (State.modHost s f).power = s.power := rfl
@[simp] theorem State.modHost_island (s : State) (f : HostPort → HostPort) : (State.modHost s f).island = s.island := rfl
@[simp] theorem State.modHost_trestle (s : State) (f : HostPort → HostPort) :
    (State.modHost s f).trestle = s.trestle := rfl
@[simp] theorem State.modHost_spi (s : State) (f : HostPort → HostPort) : (State.modHost s f).spi = s.spi := rfl
@[simp] theorem State.modHost_flash (s : State) (f : HostPort → HostPort) : (State.modHost s f).flash = s.flash := rfl
@[simp] theorem State.modHost_tag (s : State) (f : HostPort → HostPort) : (State.modHost s f).tag = s.tag := rfl
@[simp] theorem State.modHost_pins (s : State) (f : HostPort → HostPort) : (State.modHost s f).pins = s.pins := rfl
@[simp] theorem State.modLoad_pending (s : State) (f : Load → Load) : (State.modLoad s f).pending = s.pending := rfl
@[simp] theorem State.modLoad_regs (s : State) (f : Load → Load) : (State.modLoad s f).regs = s.regs := rfl
@[simp] theorem State.modLoad_eff (s : State) (f : Load → Load) : (State.modLoad s f).eff = s.eff := rfl
@[simp] theorem State.modLoad_hidden (s : State) (f : Load → Load) : (State.modLoad s f).hidden = s.hidden := rfl
@[simp] theorem State.modLoad_mem (s : State) (f : Load → Load) : (State.modLoad s f).mem = s.mem := rfl
@[simp] theorem State.modLoad_ecc (s : State) (f : Load → Load) : (State.modLoad s f).ecc = s.ecc := rfl
@[simp] theorem State.modLoad_written (s : State) (f : Load → Load) : (State.modLoad s f).written = s.written := rfl
@[simp] theorem State.modLoad_freeCtr (s : State) (f : Load → Load) : (State.modLoad s f).freeCtr = s.freeCtr := rfl
@[simp] theorem State.modLoad_out (s : State) (f : Load → Load) : (State.modLoad s f).out = s.out := rfl
@[simp] theorem State.modLoad_tick (s : State) (f : Load → Load) : (State.modLoad s f).tick = s.tick := rfl
@[simp] theorem State.modLoad_image (s : State) (f : Load → Load) : (State.modLoad s f).image = s.image := rfl
@[simp] theorem State.modLoad_clusters (s : State) (f : Load → Load) : (State.modLoad s f).clusters = s.clusters := rfl
@[simp] theorem State.modLoad_scrubs (s : State) (f : Load → Load) : (State.modLoad s f).scrubs = s.scrubs := rfl
@[simp] theorem State.modLoad_ports (s : State) (f : Load → Load) : (State.modLoad s f).ports = s.ports := rfl
@[simp] theorem State.modLoad_fabric (s : State) (f : Load → Load) : (State.modLoad s f).fabric = s.fabric := rfl
@[simp] theorem State.modLoad_host (s : State) (f : Load → Load) : (State.modLoad s f).host = s.host := rfl
@[simp] theorem State.modLoad_svc (s : State) (f : Load → Load) : (State.modLoad s f).svc = s.svc := rfl
@[simp] theorem State.modLoad_time (s : State) (f : Load → Load) : (State.modLoad s f).time = s.time := rfl
@[simp] theorem State.modLoad_power (s : State) (f : Load → Load) : (State.modLoad s f).power = s.power := rfl
@[simp] theorem State.modLoad_island (s : State) (f : Load → Load) : (State.modLoad s f).island = s.island := rfl
@[simp] theorem State.modLoad_trestle (s : State) (f : Load → Load) : (State.modLoad s f).trestle = s.trestle := rfl
@[simp] theorem State.modLoad_spi (s : State) (f : Load → Load) : (State.modLoad s f).spi = s.spi := rfl
@[simp] theorem State.modLoad_flash (s : State) (f : Load → Load) : (State.modLoad s f).flash = s.flash := rfl
@[simp] theorem State.modLoad_tag (s : State) (f : Load → Load) : (State.modLoad s f).tag = s.tag := rfl
@[simp] theorem State.modLoad_pins (s : State) (f : Load → Load) : (State.modLoad s f).pins = s.pins := rfl
@[simp] theorem State.modTime_pending (s : State) (f : TimeUnit → TimeUnit) :
    (State.modTime s f).pending = s.pending := rfl
@[simp] theorem State.modTime_regs (s : State) (f : TimeUnit → TimeUnit) : (State.modTime s f).regs = s.regs := rfl
@[simp] theorem State.modTime_eff (s : State) (f : TimeUnit → TimeUnit) : (State.modTime s f).eff = s.eff := rfl
@[simp] theorem State.modTime_hidden (s : State) (f : TimeUnit → TimeUnit) : (State.modTime s f).hidden = s.hidden := rfl
@[simp] theorem State.modTime_mem (s : State) (f : TimeUnit → TimeUnit) : (State.modTime s f).mem = s.mem := rfl
@[simp] theorem State.modTime_ecc (s : State) (f : TimeUnit → TimeUnit) : (State.modTime s f).ecc = s.ecc := rfl
@[simp] theorem State.modTime_written (s : State) (f : TimeUnit → TimeUnit) :
    (State.modTime s f).written = s.written := rfl
@[simp] theorem State.modTime_freeCtr (s : State) (f : TimeUnit → TimeUnit) :
    (State.modTime s f).freeCtr = s.freeCtr := rfl
@[simp] theorem State.modTime_out (s : State) (f : TimeUnit → TimeUnit) : (State.modTime s f).out = s.out := rfl
@[simp] theorem State.modTime_tick (s : State) (f : TimeUnit → TimeUnit) : (State.modTime s f).tick = s.tick := rfl
@[simp] theorem State.modTime_image (s : State) (f : TimeUnit → TimeUnit) : (State.modTime s f).image = s.image := rfl
@[simp] theorem State.modTime_clusters (s : State) (f : TimeUnit → TimeUnit) :
    (State.modTime s f).clusters = s.clusters := rfl
@[simp] theorem State.modTime_scrubs (s : State) (f : TimeUnit → TimeUnit) : (State.modTime s f).scrubs = s.scrubs := rfl
@[simp] theorem State.modTime_ports (s : State) (f : TimeUnit → TimeUnit) : (State.modTime s f).ports = s.ports := rfl
@[simp] theorem State.modTime_fabric (s : State) (f : TimeUnit → TimeUnit) : (State.modTime s f).fabric = s.fabric := rfl
@[simp] theorem State.modTime_load (s : State) (f : TimeUnit → TimeUnit) : (State.modTime s f).load = s.load := rfl
@[simp] theorem State.modTime_host (s : State) (f : TimeUnit → TimeUnit) : (State.modTime s f).host = s.host := rfl
@[simp] theorem State.modTime_svc (s : State) (f : TimeUnit → TimeUnit) : (State.modTime s f).svc = s.svc := rfl
@[simp] theorem State.modTime_power (s : State) (f : TimeUnit → TimeUnit) : (State.modTime s f).power = s.power := rfl
@[simp] theorem State.modTime_island (s : State) (f : TimeUnit → TimeUnit) : (State.modTime s f).island = s.island := rfl
@[simp] theorem State.modTime_trestle (s : State) (f : TimeUnit → TimeUnit) :
    (State.modTime s f).trestle = s.trestle := rfl
@[simp] theorem State.modTime_spi (s : State) (f : TimeUnit → TimeUnit) : (State.modTime s f).spi = s.spi := rfl
@[simp] theorem State.modTime_flash (s : State) (f : TimeUnit → TimeUnit) : (State.modTime s f).flash = s.flash := rfl
@[simp] theorem State.modTime_tag (s : State) (f : TimeUnit → TimeUnit) : (State.modTime s f).tag = s.tag := rfl
@[simp] theorem State.modTime_pins (s : State) (f : TimeUnit → TimeUnit) : (State.modTime s f).pins = s.pins := rfl
@[simp] theorem State.send_pending (s : State) (o : Out) : (State.send s o).pending = s.pending := rfl
@[simp] theorem State.send_regs (s : State) (o : Out) : (State.send s o).regs = s.regs := rfl
@[simp] theorem State.send_eff (s : State) (o : Out) : (State.send s o).eff = s.eff := rfl
@[simp] theorem State.send_hidden (s : State) (o : Out) : (State.send s o).hidden = s.hidden := rfl
@[simp] theorem State.send_mem (s : State) (o : Out) : (State.send s o).mem = s.mem := rfl
@[simp] theorem State.send_ecc (s : State) (o : Out) : (State.send s o).ecc = s.ecc := rfl
@[simp] theorem State.send_written (s : State) (o : Out) : (State.send s o).written = s.written := rfl
@[simp] theorem State.send_freeCtr (s : State) (o : Out) : (State.send s o).freeCtr = s.freeCtr := rfl
@[simp] theorem State.send_tick (s : State) (o : Out) : (State.send s o).tick = s.tick := rfl
@[simp] theorem State.send_image (s : State) (o : Out) : (State.send s o).image = s.image := rfl
@[simp] theorem State.send_clusters (s : State) (o : Out) : (State.send s o).clusters = s.clusters := rfl
@[simp] theorem State.send_scrubs (s : State) (o : Out) : (State.send s o).scrubs = s.scrubs := rfl
@[simp] theorem State.send_ports (s : State) (o : Out) : (State.send s o).ports = s.ports := rfl
@[simp] theorem State.send_fabric (s : State) (o : Out) : (State.send s o).fabric = s.fabric := rfl
@[simp] theorem State.send_load (s : State) (o : Out) : (State.send s o).load = s.load := rfl
@[simp] theorem State.send_host (s : State) (o : Out) : (State.send s o).host = s.host := rfl
@[simp] theorem State.send_svc (s : State) (o : Out) : (State.send s o).svc = s.svc := rfl
@[simp] theorem State.send_time (s : State) (o : Out) : (State.send s o).time = s.time := rfl
@[simp] theorem State.send_power (s : State) (o : Out) : (State.send s o).power = s.power := rfl
@[simp] theorem State.send_island (s : State) (o : Out) : (State.send s o).island = s.island := rfl
@[simp] theorem State.send_trestle (s : State) (o : Out) : (State.send s o).trestle = s.trestle := rfl
@[simp] theorem State.send_spi (s : State) (o : Out) : (State.send s o).spi = s.spi := rfl
@[simp] theorem State.send_flash (s : State) (o : Out) : (State.send s o).flash = s.flash := rfl
@[simp] theorem State.send_tag (s : State) (o : Out) : (State.send s o).tag = s.tag := rfl
@[simp] theorem State.send_pins (s : State) (o : Out) : (State.send s o).pins = s.pins := rfl
@[simp] theorem State.draw_pending (s : State) : (State.draw s).pending = s.pending := rfl
@[simp] theorem State.draw_regs (s : State) : (State.draw s).regs = s.regs := rfl
@[simp] theorem State.draw_eff (s : State) : (State.draw s).eff = s.eff := rfl
@[simp] theorem State.draw_hidden (s : State) : (State.draw s).hidden = s.hidden := rfl
@[simp] theorem State.draw_mem (s : State) : (State.draw s).mem = s.mem := rfl
@[simp] theorem State.draw_ecc (s : State) : (State.draw s).ecc = s.ecc := rfl
@[simp] theorem State.draw_written (s : State) : (State.draw s).written = s.written := rfl
@[simp] theorem State.draw_out (s : State) : (State.draw s).out = s.out := rfl
@[simp] theorem State.draw_tick (s : State) : (State.draw s).tick = s.tick := rfl
@[simp] theorem State.draw_image (s : State) : (State.draw s).image = s.image := rfl
@[simp] theorem State.draw_clusters (s : State) : (State.draw s).clusters = s.clusters := rfl
@[simp] theorem State.draw_scrubs (s : State) : (State.draw s).scrubs = s.scrubs := rfl
@[simp] theorem State.draw_ports (s : State) : (State.draw s).ports = s.ports := rfl
@[simp] theorem State.draw_fabric (s : State) : (State.draw s).fabric = s.fabric := rfl
@[simp] theorem State.draw_load (s : State) : (State.draw s).load = s.load := rfl
@[simp] theorem State.draw_host (s : State) : (State.draw s).host = s.host := rfl
@[simp] theorem State.draw_svc (s : State) : (State.draw s).svc = s.svc := rfl
@[simp] theorem State.draw_time (s : State) : (State.draw s).time = s.time := rfl
@[simp] theorem State.draw_power (s : State) : (State.draw s).power = s.power := rfl
@[simp] theorem State.draw_island (s : State) : (State.draw s).island = s.island := rfl
@[simp] theorem State.draw_trestle (s : State) : (State.draw s).trestle = s.trestle := rfl
@[simp] theorem State.draw_spi (s : State) : (State.draw s).spi = s.spi := rfl
@[simp] theorem State.draw_flash (s : State) : (State.draw s).flash = s.flash := rfl
@[simp] theorem State.draw_tag (s : State) : (State.draw s).tag = s.tag := rfl
@[simp] theorem State.draw_pins (s : State) : (State.draw s).pins = s.pins := rfl
@[simp] theorem State.setRaw_pending (s : State) (p : PageType) (i off bank v : Nat) :
    (State.setRaw s p i off bank v).pending = s.pending := rfl
@[simp] theorem State.setRaw_eff (s : State) (p : PageType) (i off bank v : Nat) :
    (State.setRaw s p i off bank v).eff = s.eff := rfl
@[simp] theorem State.setRaw_hidden (s : State) (p : PageType) (i off bank v : Nat) :
    (State.setRaw s p i off bank v).hidden = s.hidden := rfl
@[simp] theorem State.setRaw_mem (s : State) (p : PageType) (i off bank v : Nat) :
    (State.setRaw s p i off bank v).mem = s.mem := rfl
@[simp] theorem State.setRaw_ecc (s : State) (p : PageType) (i off bank v : Nat) :
    (State.setRaw s p i off bank v).ecc = s.ecc := rfl
@[simp] theorem State.setRaw_written (s : State) (p : PageType) (i off bank v : Nat) :
    (State.setRaw s p i off bank v).written = s.written := rfl
@[simp] theorem State.setRaw_freeCtr (s : State) (p : PageType) (i off bank v : Nat) :
    (State.setRaw s p i off bank v).freeCtr = s.freeCtr := rfl
@[simp] theorem State.setRaw_out (s : State) (p : PageType) (i off bank v : Nat) :
    (State.setRaw s p i off bank v).out = s.out := rfl
@[simp] theorem State.setRaw_tick (s : State) (p : PageType) (i off bank v : Nat) :
    (State.setRaw s p i off bank v).tick = s.tick := rfl
@[simp] theorem State.setRaw_image (s : State) (p : PageType) (i off bank v : Nat) :
    (State.setRaw s p i off bank v).image = s.image := rfl
@[simp] theorem State.setRaw_clusters (s : State) (p : PageType) (i off bank v : Nat) :
    (State.setRaw s p i off bank v).clusters = s.clusters := rfl
@[simp] theorem State.setRaw_scrubs (s : State) (p : PageType) (i off bank v : Nat) :
    (State.setRaw s p i off bank v).scrubs = s.scrubs := rfl
@[simp] theorem State.setRaw_ports (s : State) (p : PageType) (i off bank v : Nat) :
    (State.setRaw s p i off bank v).ports = s.ports := rfl
@[simp] theorem State.setRaw_fabric (s : State) (p : PageType) (i off bank v : Nat) :
    (State.setRaw s p i off bank v).fabric = s.fabric := rfl
@[simp] theorem State.setRaw_load (s : State) (p : PageType) (i off bank v : Nat) :
    (State.setRaw s p i off bank v).load = s.load := rfl
@[simp] theorem State.setRaw_host (s : State) (p : PageType) (i off bank v : Nat) :
    (State.setRaw s p i off bank v).host = s.host := rfl
@[simp] theorem State.setRaw_svc (s : State) (p : PageType) (i off bank v : Nat) :
    (State.setRaw s p i off bank v).svc = s.svc := rfl
@[simp] theorem State.setRaw_time (s : State) (p : PageType) (i off bank v : Nat) :
    (State.setRaw s p i off bank v).time = s.time := rfl
@[simp] theorem State.setRaw_power (s : State) (p : PageType) (i off bank v : Nat) :
    (State.setRaw s p i off bank v).power = s.power := rfl
@[simp] theorem State.setRaw_island (s : State) (p : PageType) (i off bank v : Nat) :
    (State.setRaw s p i off bank v).island = s.island := rfl
@[simp] theorem State.setRaw_trestle (s : State) (p : PageType) (i off bank v : Nat) :
    (State.setRaw s p i off bank v).trestle = s.trestle := rfl
@[simp] theorem State.setRaw_spi (s : State) (p : PageType) (i off bank v : Nat) :
    (State.setRaw s p i off bank v).spi = s.spi := rfl
@[simp] theorem State.setRaw_flash (s : State) (p : PageType) (i off bank v : Nat) :
    (State.setRaw s p i off bank v).flash = s.flash := rfl
@[simp] theorem State.setRaw_tag (s : State) (p : PageType) (i off bank v : Nat) :
    (State.setRaw s p i off bank v).tag = s.tag := rfl
@[simp] theorem State.setRaw_pins (s : State) (p : PageType) (i off bank v : Nat) :
    (State.setRaw s p i off bank v).pins = s.pins := rfl
@[simp] theorem State.wr_pending (s : State) (r : Reg) (v : Nat) (i : Nat) (bank : Nat) (idx : Nat) :
    (State.wr s r v i bank idx).pending = s.pending := rfl
@[simp] theorem State.wr_eff (s : State) (r : Reg) (v : Nat) (i : Nat) (bank : Nat) (idx : Nat) :
    (State.wr s r v i bank idx).eff = s.eff := rfl
@[simp] theorem State.wr_hidden (s : State) (r : Reg) (v : Nat) (i : Nat) (bank : Nat) (idx : Nat) :
    (State.wr s r v i bank idx).hidden = s.hidden := rfl
@[simp] theorem State.wr_mem (s : State) (r : Reg) (v : Nat) (i : Nat) (bank : Nat) (idx : Nat) :
    (State.wr s r v i bank idx).mem = s.mem := rfl
@[simp] theorem State.wr_ecc (s : State) (r : Reg) (v : Nat) (i : Nat) (bank : Nat) (idx : Nat) :
    (State.wr s r v i bank idx).ecc = s.ecc := rfl
@[simp] theorem State.wr_written (s : State) (r : Reg) (v : Nat) (i : Nat) (bank : Nat) (idx : Nat) :
    (State.wr s r v i bank idx).written = s.written := rfl
@[simp] theorem State.wr_freeCtr (s : State) (r : Reg) (v : Nat) (i : Nat) (bank : Nat) (idx : Nat) :
    (State.wr s r v i bank idx).freeCtr = s.freeCtr := rfl
@[simp] theorem State.wr_out (s : State) (r : Reg) (v : Nat) (i : Nat) (bank : Nat) (idx : Nat) :
    (State.wr s r v i bank idx).out = s.out := rfl
@[simp] theorem State.wr_tick (s : State) (r : Reg) (v : Nat) (i : Nat) (bank : Nat) (idx : Nat) :
    (State.wr s r v i bank idx).tick = s.tick := rfl
@[simp] theorem State.wr_image (s : State) (r : Reg) (v : Nat) (i : Nat) (bank : Nat) (idx : Nat) :
    (State.wr s r v i bank idx).image = s.image := rfl
@[simp] theorem State.wr_clusters (s : State) (r : Reg) (v : Nat) (i : Nat) (bank : Nat) (idx : Nat) :
    (State.wr s r v i bank idx).clusters = s.clusters := rfl
@[simp] theorem State.wr_scrubs (s : State) (r : Reg) (v : Nat) (i : Nat) (bank : Nat) (idx : Nat) :
    (State.wr s r v i bank idx).scrubs = s.scrubs := rfl
@[simp] theorem State.wr_ports (s : State) (r : Reg) (v : Nat) (i : Nat) (bank : Nat) (idx : Nat) :
    (State.wr s r v i bank idx).ports = s.ports := rfl
@[simp] theorem State.wr_fabric (s : State) (r : Reg) (v : Nat) (i : Nat) (bank : Nat) (idx : Nat) :
    (State.wr s r v i bank idx).fabric = s.fabric := rfl
@[simp] theorem State.wr_load (s : State) (r : Reg) (v : Nat) (i : Nat) (bank : Nat) (idx : Nat) :
    (State.wr s r v i bank idx).load = s.load := rfl
@[simp] theorem State.wr_host (s : State) (r : Reg) (v : Nat) (i : Nat) (bank : Nat) (idx : Nat) :
    (State.wr s r v i bank idx).host = s.host := rfl
@[simp] theorem State.wr_svc (s : State) (r : Reg) (v : Nat) (i : Nat) (bank : Nat) (idx : Nat) :
    (State.wr s r v i bank idx).svc = s.svc := rfl
@[simp] theorem State.wr_time (s : State) (r : Reg) (v : Nat) (i : Nat) (bank : Nat) (idx : Nat) :
    (State.wr s r v i bank idx).time = s.time := rfl
@[simp] theorem State.wr_power (s : State) (r : Reg) (v : Nat) (i : Nat) (bank : Nat) (idx : Nat) :
    (State.wr s r v i bank idx).power = s.power := rfl
@[simp] theorem State.wr_island (s : State) (r : Reg) (v : Nat) (i : Nat) (bank : Nat) (idx : Nat) :
    (State.wr s r v i bank idx).island = s.island := rfl
@[simp] theorem State.wr_trestle (s : State) (r : Reg) (v : Nat) (i : Nat) (bank : Nat) (idx : Nat) :
    (State.wr s r v i bank idx).trestle = s.trestle := rfl
@[simp] theorem State.wr_spi (s : State) (r : Reg) (v : Nat) (i : Nat) (bank : Nat) (idx : Nat) :
    (State.wr s r v i bank idx).spi = s.spi := rfl
@[simp] theorem State.wr_flash (s : State) (r : Reg) (v : Nat) (i : Nat) (bank : Nat) (idx : Nat) :
    (State.wr s r v i bank idx).flash = s.flash := rfl
@[simp] theorem State.wr_tag (s : State) (r : Reg) (v : Nat) (i : Nat) (bank : Nat) (idx : Nat) :
    (State.wr s r v i bank idx).tag = s.tag := rfl
@[simp] theorem State.wr_pins (s : State) (r : Reg) (v : Nat) (i : Nat) (bank : Nat) (idx : Nat) :
    (State.wr s r v i bank idx).pins = s.pins := rfl
@[simp] theorem State.takeEffect_pending (s : State) : (State.takeEffect s).pending = s.pending := rfl
@[simp] theorem State.takeEffect_regs (s : State) : (State.takeEffect s).regs = s.regs := rfl
@[simp] theorem State.takeEffect_hidden (s : State) : (State.takeEffect s).hidden = s.hidden := rfl
@[simp] theorem State.takeEffect_mem (s : State) : (State.takeEffect s).mem = s.mem := rfl
@[simp] theorem State.takeEffect_ecc (s : State) : (State.takeEffect s).ecc = s.ecc := rfl
@[simp] theorem State.takeEffect_written (s : State) : (State.takeEffect s).written = s.written := rfl
@[simp] theorem State.takeEffect_freeCtr (s : State) : (State.takeEffect s).freeCtr = s.freeCtr := rfl
@[simp] theorem State.takeEffect_out (s : State) : (State.takeEffect s).out = s.out := rfl
@[simp] theorem State.takeEffect_tick (s : State) : (State.takeEffect s).tick = s.tick := rfl
@[simp] theorem State.takeEffect_image (s : State) : (State.takeEffect s).image = s.image := rfl
@[simp] theorem State.takeEffect_clusters (s : State) : (State.takeEffect s).clusters = s.clusters := rfl
@[simp] theorem State.takeEffect_scrubs (s : State) : (State.takeEffect s).scrubs = s.scrubs := rfl
@[simp] theorem State.takeEffect_ports (s : State) : (State.takeEffect s).ports = s.ports := rfl
@[simp] theorem State.takeEffect_fabric (s : State) : (State.takeEffect s).fabric = s.fabric := rfl
@[simp] theorem State.takeEffect_load (s : State) : (State.takeEffect s).load = s.load := rfl
@[simp] theorem State.takeEffect_host (s : State) : (State.takeEffect s).host = s.host := rfl
@[simp] theorem State.takeEffect_svc (s : State) : (State.takeEffect s).svc = s.svc := rfl
@[simp] theorem State.takeEffect_time (s : State) : (State.takeEffect s).time = s.time := rfl
@[simp] theorem State.takeEffect_power (s : State) : (State.takeEffect s).power = s.power := rfl
@[simp] theorem State.takeEffect_island (s : State) : (State.takeEffect s).island = s.island := rfl
@[simp] theorem State.takeEffect_trestle (s : State) : (State.takeEffect s).trestle = s.trestle := rfl
@[simp] theorem State.takeEffect_spi (s : State) : (State.takeEffect s).spi = s.spi := rfl
@[simp] theorem State.takeEffect_flash (s : State) : (State.takeEffect s).flash = s.flash := rfl
@[simp] theorem State.takeEffect_tag (s : State) : (State.takeEffect s).tag = s.tag := rfl
@[simp] theorem State.takeEffect_pins (s : State) : (State.takeEffect s).pins = s.pins := rfl
@[simp] theorem State.setHdr_pending (s : State) (pg off v : Nat) : (State.setHdr s pg off v).pending = s.pending := rfl
@[simp] theorem State.setHdr_eff (s : State) (pg off v : Nat) : (State.setHdr s pg off v).eff = s.eff := rfl
@[simp] theorem State.setHdr_hidden (s : State) (pg off v : Nat) : (State.setHdr s pg off v).hidden = s.hidden := rfl
@[simp] theorem State.setHdr_mem (s : State) (pg off v : Nat) : (State.setHdr s pg off v).mem = s.mem := rfl
@[simp] theorem State.setHdr_ecc (s : State) (pg off v : Nat) : (State.setHdr s pg off v).ecc = s.ecc := rfl
@[simp] theorem State.setHdr_written (s : State) (pg off v : Nat) : (State.setHdr s pg off v).written = s.written := rfl
@[simp] theorem State.setHdr_freeCtr (s : State) (pg off v : Nat) : (State.setHdr s pg off v).freeCtr = s.freeCtr := rfl
@[simp] theorem State.setHdr_out (s : State) (pg off v : Nat) : (State.setHdr s pg off v).out = s.out := rfl
@[simp] theorem State.setHdr_tick (s : State) (pg off v : Nat) : (State.setHdr s pg off v).tick = s.tick := rfl
@[simp] theorem State.setHdr_image (s : State) (pg off v : Nat) : (State.setHdr s pg off v).image = s.image := rfl
@[simp] theorem State.setHdr_clusters (s : State) (pg off v : Nat) :
    (State.setHdr s pg off v).clusters = s.clusters := rfl
@[simp] theorem State.setHdr_scrubs (s : State) (pg off v : Nat) : (State.setHdr s pg off v).scrubs = s.scrubs := rfl
@[simp] theorem State.setHdr_ports (s : State) (pg off v : Nat) : (State.setHdr s pg off v).ports = s.ports := rfl
@[simp] theorem State.setHdr_fabric (s : State) (pg off v : Nat) : (State.setHdr s pg off v).fabric = s.fabric := rfl
@[simp] theorem State.setHdr_load (s : State) (pg off v : Nat) : (State.setHdr s pg off v).load = s.load := rfl
@[simp] theorem State.setHdr_host (s : State) (pg off v : Nat) : (State.setHdr s pg off v).host = s.host := rfl
@[simp] theorem State.setHdr_svc (s : State) (pg off v : Nat) : (State.setHdr s pg off v).svc = s.svc := rfl
@[simp] theorem State.setHdr_time (s : State) (pg off v : Nat) : (State.setHdr s pg off v).time = s.time := rfl
@[simp] theorem State.setHdr_power (s : State) (pg off v : Nat) : (State.setHdr s pg off v).power = s.power := rfl
@[simp] theorem State.setHdr_island (s : State) (pg off v : Nat) : (State.setHdr s pg off v).island = s.island := rfl
@[simp] theorem State.setHdr_trestle (s : State) (pg off v : Nat) : (State.setHdr s pg off v).trestle = s.trestle := rfl
@[simp] theorem State.setHdr_spi (s : State) (pg off v : Nat) : (State.setHdr s pg off v).spi = s.spi := rfl
@[simp] theorem State.setHdr_flash (s : State) (pg off v : Nat) : (State.setHdr s pg off v).flash = s.flash := rfl
@[simp] theorem State.setHdr_tag (s : State) (pg off v : Nat) : (State.setHdr s pg off v).tag = s.tag := rfl
@[simp] theorem State.setHdr_pins (s : State) (pg off v : Nat) : (State.setHdr s pg off v).pins = s.pins := rfl
@[simp] theorem State.setByte_pending (s : State) (a : Nat) (b : Byte) : (State.setByte s a b).pending = s.pending := rfl
@[simp] theorem State.setByte_regs (s : State) (a : Nat) (b : Byte) : (State.setByte s a b).regs = s.regs := rfl
@[simp] theorem State.setByte_eff (s : State) (a : Nat) (b : Byte) : (State.setByte s a b).eff = s.eff := rfl
@[simp] theorem State.setByte_hidden (s : State) (a : Nat) (b : Byte) : (State.setByte s a b).hidden = s.hidden := rfl
@[simp] theorem State.setByte_ecc (s : State) (a : Nat) (b : Byte) : (State.setByte s a b).ecc = s.ecc := rfl
@[simp] theorem State.setByte_written (s : State) (a : Nat) (b : Byte) : (State.setByte s a b).written = s.written := rfl
@[simp] theorem State.setByte_freeCtr (s : State) (a : Nat) (b : Byte) : (State.setByte s a b).freeCtr = s.freeCtr := rfl
@[simp] theorem State.setByte_out (s : State) (a : Nat) (b : Byte) : (State.setByte s a b).out = s.out := rfl
@[simp] theorem State.setByte_tick (s : State) (a : Nat) (b : Byte) : (State.setByte s a b).tick = s.tick := rfl
@[simp] theorem State.setByte_image (s : State) (a : Nat) (b : Byte) : (State.setByte s a b).image = s.image := rfl
@[simp] theorem State.setByte_clusters (s : State) (a : Nat) (b : Byte) :
    (State.setByte s a b).clusters = s.clusters := rfl
@[simp] theorem State.setByte_scrubs (s : State) (a : Nat) (b : Byte) : (State.setByte s a b).scrubs = s.scrubs := rfl
@[simp] theorem State.setByte_ports (s : State) (a : Nat) (b : Byte) : (State.setByte s a b).ports = s.ports := rfl
@[simp] theorem State.setByte_fabric (s : State) (a : Nat) (b : Byte) : (State.setByte s a b).fabric = s.fabric := rfl
@[simp] theorem State.setByte_load (s : State) (a : Nat) (b : Byte) : (State.setByte s a b).load = s.load := rfl
@[simp] theorem State.setByte_host (s : State) (a : Nat) (b : Byte) : (State.setByte s a b).host = s.host := rfl
@[simp] theorem State.setByte_svc (s : State) (a : Nat) (b : Byte) : (State.setByte s a b).svc = s.svc := rfl
@[simp] theorem State.setByte_time (s : State) (a : Nat) (b : Byte) : (State.setByte s a b).time = s.time := rfl
@[simp] theorem State.setByte_power (s : State) (a : Nat) (b : Byte) : (State.setByte s a b).power = s.power := rfl
@[simp] theorem State.setByte_island (s : State) (a : Nat) (b : Byte) : (State.setByte s a b).island = s.island := rfl
@[simp] theorem State.setByte_trestle (s : State) (a : Nat) (b : Byte) : (State.setByte s a b).trestle = s.trestle := rfl
@[simp] theorem State.setByte_spi (s : State) (a : Nat) (b : Byte) : (State.setByte s a b).spi = s.spi := rfl
@[simp] theorem State.setByte_flash (s : State) (a : Nat) (b : Byte) : (State.setByte s a b).flash = s.flash := rfl
@[simp] theorem State.setByte_tag (s : State) (a : Nat) (b : Byte) : (State.setByte s a b).tag = s.tag := rfl
@[simp] theorem State.setByte_pins (s : State) (a : Nat) (b : Byte) : (State.setByte s a b).pins = s.pins := rfl
@[simp] theorem State.zero_pending (s : State) (a n : Nat) : (State.zero s a n).pending = s.pending := rfl
@[simp] theorem State.zero_regs (s : State) (a n : Nat) : (State.zero s a n).regs = s.regs := rfl
@[simp] theorem State.zero_eff (s : State) (a n : Nat) : (State.zero s a n).eff = s.eff := rfl
@[simp] theorem State.zero_hidden (s : State) (a n : Nat) : (State.zero s a n).hidden = s.hidden := rfl
@[simp] theorem State.zero_written (s : State) (a n : Nat) : (State.zero s a n).written = s.written := rfl
@[simp] theorem State.zero_freeCtr (s : State) (a n : Nat) : (State.zero s a n).freeCtr = s.freeCtr := rfl
@[simp] theorem State.zero_out (s : State) (a n : Nat) : (State.zero s a n).out = s.out := rfl
@[simp] theorem State.zero_tick (s : State) (a n : Nat) : (State.zero s a n).tick = s.tick := rfl
@[simp] theorem State.zero_image (s : State) (a n : Nat) : (State.zero s a n).image = s.image := rfl
@[simp] theorem State.zero_clusters (s : State) (a n : Nat) : (State.zero s a n).clusters = s.clusters := rfl
@[simp] theorem State.zero_scrubs (s : State) (a n : Nat) : (State.zero s a n).scrubs = s.scrubs := rfl
@[simp] theorem State.zero_ports (s : State) (a n : Nat) : (State.zero s a n).ports = s.ports := rfl
@[simp] theorem State.zero_fabric (s : State) (a n : Nat) : (State.zero s a n).fabric = s.fabric := rfl
@[simp] theorem State.zero_load (s : State) (a n : Nat) : (State.zero s a n).load = s.load := rfl
@[simp] theorem State.zero_host (s : State) (a n : Nat) : (State.zero s a n).host = s.host := rfl
@[simp] theorem State.zero_svc (s : State) (a n : Nat) : (State.zero s a n).svc = s.svc := rfl
@[simp] theorem State.zero_time (s : State) (a n : Nat) : (State.zero s a n).time = s.time := rfl
@[simp] theorem State.zero_power (s : State) (a n : Nat) : (State.zero s a n).power = s.power := rfl
@[simp] theorem State.zero_island (s : State) (a n : Nat) : (State.zero s a n).island = s.island := rfl
@[simp] theorem State.zero_trestle (s : State) (a n : Nat) : (State.zero s a n).trestle = s.trestle := rfl
@[simp] theorem State.zero_spi (s : State) (a n : Nat) : (State.zero s a n).spi = s.spi := rfl
@[simp] theorem State.zero_flash (s : State) (a n : Nat) : (State.zero s a n).flash = s.flash := rfl
@[simp] theorem State.zero_tag (s : State) (a n : Nat) : (State.zero s a n).tag = s.tag := rfl
@[simp] theorem State.zero_pins (s : State) (a n : Nat) : (State.zero s a n).pins = s.pins := rfl
@[simp] theorem State.note_pending (s : State) (kind detail tenant : Nat) (body : List Byte) :
    (State.note s kind detail tenant body).pending = s.pending := rfl
@[simp] theorem State.note_regs (s : State) (kind detail tenant : Nat) (body : List Byte) :
    (State.note s kind detail tenant body).regs = s.regs := rfl
@[simp] theorem State.note_eff (s : State) (kind detail tenant : Nat) (body : List Byte) :
    (State.note s kind detail tenant body).eff = s.eff := rfl
@[simp] theorem State.note_hidden (s : State) (kind detail tenant : Nat) (body : List Byte) :
    (State.note s kind detail tenant body).hidden = s.hidden := rfl
@[simp] theorem State.note_mem (s : State) (kind detail tenant : Nat) (body : List Byte) :
    (State.note s kind detail tenant body).mem = s.mem := rfl
@[simp] theorem State.note_ecc (s : State) (kind detail tenant : Nat) (body : List Byte) :
    (State.note s kind detail tenant body).ecc = s.ecc := rfl
@[simp] theorem State.note_written (s : State) (kind detail tenant : Nat) (body : List Byte) :
    (State.note s kind detail tenant body).written = s.written := rfl
@[simp] theorem State.note_freeCtr (s : State) (kind detail tenant : Nat) (body : List Byte) :
    (State.note s kind detail tenant body).freeCtr = s.freeCtr := rfl
@[simp] theorem State.note_out (s : State) (kind detail tenant : Nat) (body : List Byte) :
    (State.note s kind detail tenant body).out = s.out := rfl
@[simp] theorem State.note_tick (s : State) (kind detail tenant : Nat) (body : List Byte) :
    (State.note s kind detail tenant body).tick = s.tick := rfl
@[simp] theorem State.note_image (s : State) (kind detail tenant : Nat) (body : List Byte) :
    (State.note s kind detail tenant body).image = s.image := rfl
@[simp] theorem State.note_clusters (s : State) (kind detail tenant : Nat) (body : List Byte) :
    (State.note s kind detail tenant body).clusters = s.clusters := rfl
@[simp] theorem State.note_scrubs (s : State) (kind detail tenant : Nat) (body : List Byte) :
    (State.note s kind detail tenant body).scrubs = s.scrubs := rfl
@[simp] theorem State.note_ports (s : State) (kind detail tenant : Nat) (body : List Byte) :
    (State.note s kind detail tenant body).ports = s.ports := rfl
@[simp] theorem State.note_fabric (s : State) (kind detail tenant : Nat) (body : List Byte) :
    (State.note s kind detail tenant body).fabric = s.fabric := rfl
@[simp] theorem State.note_load (s : State) (kind detail tenant : Nat) (body : List Byte) :
    (State.note s kind detail tenant body).load = s.load := rfl
@[simp] theorem State.note_host (s : State) (kind detail tenant : Nat) (body : List Byte) :
    (State.note s kind detail tenant body).host = s.host := rfl
@[simp] theorem State.note_time (s : State) (kind detail tenant : Nat) (body : List Byte) :
    (State.note s kind detail tenant body).time = s.time := rfl
@[simp] theorem State.note_power (s : State) (kind detail tenant : Nat) (body : List Byte) :
    (State.note s kind detail tenant body).power = s.power := rfl
@[simp] theorem State.note_island (s : State) (kind detail tenant : Nat) (body : List Byte) :
    (State.note s kind detail tenant body).island = s.island := rfl
@[simp] theorem State.note_trestle (s : State) (kind detail tenant : Nat) (body : List Byte) :
    (State.note s kind detail tenant body).trestle = s.trestle := rfl
@[simp] theorem State.note_spi (s : State) (kind detail tenant : Nat) (body : List Byte) :
    (State.note s kind detail tenant body).spi = s.spi := rfl
@[simp] theorem State.note_flash (s : State) (kind detail tenant : Nat) (body : List Byte) :
    (State.note s kind detail tenant body).flash = s.flash := rfl
@[simp] theorem State.note_tag (s : State) (kind detail tenant : Nat) (body : List Byte) :
    (State.note s kind detail tenant body).tag = s.tag := rfl
@[simp] theorem State.note_pins (s : State) (kind detail tenant : Nat) (body : List Byte) :
    (State.note s kind detail tenant body).pins = s.pins := rfl
@[simp] theorem State.setBytes_pending (s : State) (a : Nat) (l : List Byte) :
    (State.setBytes s a l).pending = s.pending := by
  induction l generalizing s a with
  | nil => rfl
  | cons b r ih => simp [State.setBytes, ih]
@[simp] theorem State.setBytes_regs (s : State) (a : Nat) (l : List Byte) : (State.setBytes s a l).regs = s.regs := by
  induction l generalizing s a with
  | nil => rfl
  | cons b r ih => simp [State.setBytes, ih]
@[simp] theorem State.setBytes_eff (s : State) (a : Nat) (l : List Byte) : (State.setBytes s a l).eff = s.eff := by
  induction l generalizing s a with
  | nil => rfl
  | cons b r ih => simp [State.setBytes, ih]
@[simp] theorem State.setBytes_hidden (s : State) (a : Nat) (l : List Byte) :
    (State.setBytes s a l).hidden = s.hidden := by
  induction l generalizing s a with
  | nil => rfl
  | cons b r ih => simp [State.setBytes, ih]
@[simp] theorem State.setBytes_ecc (s : State) (a : Nat) (l : List Byte) : (State.setBytes s a l).ecc = s.ecc := by
  induction l generalizing s a with
  | nil => rfl
  | cons b r ih => simp [State.setBytes, ih]
@[simp] theorem State.setBytes_written (s : State) (a : Nat) (l : List Byte) :
    (State.setBytes s a l).written = s.written := by
  induction l generalizing s a with
  | nil => rfl
  | cons b r ih => simp [State.setBytes, ih]
@[simp] theorem State.setBytes_freeCtr (s : State) (a : Nat) (l : List Byte) :
    (State.setBytes s a l).freeCtr = s.freeCtr := by
  induction l generalizing s a with
  | nil => rfl
  | cons b r ih => simp [State.setBytes, ih]
@[simp] theorem State.setBytes_out (s : State) (a : Nat) (l : List Byte) : (State.setBytes s a l).out = s.out := by
  induction l generalizing s a with
  | nil => rfl
  | cons b r ih => simp [State.setBytes, ih]
@[simp] theorem State.setBytes_tick (s : State) (a : Nat) (l : List Byte) : (State.setBytes s a l).tick = s.tick := by
  induction l generalizing s a with
  | nil => rfl
  | cons b r ih => simp [State.setBytes, ih]
@[simp] theorem State.setBytes_image (s : State) (a : Nat) (l : List Byte) : (State.setBytes s a l).image = s.image := by
  induction l generalizing s a with
  | nil => rfl
  | cons b r ih => simp [State.setBytes, ih]
@[simp] theorem State.setBytes_clusters (s : State) (a : Nat) (l : List Byte) :
    (State.setBytes s a l).clusters = s.clusters := by
  induction l generalizing s a with
  | nil => rfl
  | cons b r ih => simp [State.setBytes, ih]
@[simp] theorem State.setBytes_scrubs (s : State) (a : Nat) (l : List Byte) :
    (State.setBytes s a l).scrubs = s.scrubs := by
  induction l generalizing s a with
  | nil => rfl
  | cons b r ih => simp [State.setBytes, ih]
@[simp] theorem State.setBytes_ports (s : State) (a : Nat) (l : List Byte) : (State.setBytes s a l).ports = s.ports := by
  induction l generalizing s a with
  | nil => rfl
  | cons b r ih => simp [State.setBytes, ih]
@[simp] theorem State.setBytes_fabric (s : State) (a : Nat) (l : List Byte) :
    (State.setBytes s a l).fabric = s.fabric := by
  induction l generalizing s a with
  | nil => rfl
  | cons b r ih => simp [State.setBytes, ih]
@[simp] theorem State.setBytes_load (s : State) (a : Nat) (l : List Byte) : (State.setBytes s a l).load = s.load := by
  induction l generalizing s a with
  | nil => rfl
  | cons b r ih => simp [State.setBytes, ih]
@[simp] theorem State.setBytes_host (s : State) (a : Nat) (l : List Byte) : (State.setBytes s a l).host = s.host := by
  induction l generalizing s a with
  | nil => rfl
  | cons b r ih => simp [State.setBytes, ih]
@[simp] theorem State.setBytes_svc (s : State) (a : Nat) (l : List Byte) : (State.setBytes s a l).svc = s.svc := by
  induction l generalizing s a with
  | nil => rfl
  | cons b r ih => simp [State.setBytes, ih]
@[simp] theorem State.setBytes_time (s : State) (a : Nat) (l : List Byte) : (State.setBytes s a l).time = s.time := by
  induction l generalizing s a with
  | nil => rfl
  | cons b r ih => simp [State.setBytes, ih]
@[simp] theorem State.setBytes_power (s : State) (a : Nat) (l : List Byte) : (State.setBytes s a l).power = s.power := by
  induction l generalizing s a with
  | nil => rfl
  | cons b r ih => simp [State.setBytes, ih]
@[simp] theorem State.setBytes_island (s : State) (a : Nat) (l : List Byte) :
    (State.setBytes s a l).island = s.island := by
  induction l generalizing s a with
  | nil => rfl
  | cons b r ih => simp [State.setBytes, ih]
@[simp] theorem State.setBytes_trestle (s : State) (a : Nat) (l : List Byte) :
    (State.setBytes s a l).trestle = s.trestle := by
  induction l generalizing s a with
  | nil => rfl
  | cons b r ih => simp [State.setBytes, ih]
@[simp] theorem State.setBytes_spi (s : State) (a : Nat) (l : List Byte) : (State.setBytes s a l).spi = s.spi := by
  induction l generalizing s a with
  | nil => rfl
  | cons b r ih => simp [State.setBytes, ih]
@[simp] theorem State.setBytes_flash (s : State) (a : Nat) (l : List Byte) : (State.setBytes s a l).flash = s.flash := by
  induction l generalizing s a with
  | nil => rfl
  | cons b r ih => simp [State.setBytes, ih]
@[simp] theorem State.setBytes_tag (s : State) (a : Nat) (l : List Byte) : (State.setBytes s a l).tag = s.tag := by
  induction l generalizing s a with
  | nil => rfl
  | cons b r ih => simp [State.setBytes, ih]
@[simp] theorem State.setBytes_pins (s : State) (a : Nat) (l : List Byte) : (State.setBytes s a l).pins = s.pins := by
  induction l generalizing s a with
  | nil => rfl
  | cons b r ih => simp [State.setBytes, ih]
@[simp] theorem State.cnt_pending (s : State) (r : Reg) (i : Nat) (n : Nat) (bank : Nat) (idx : Nat) :
    (State.cnt s r i n bank idx).pending = s.pending := by
  simp only [State.cnt]
  split <;> simp
@[simp] theorem State.cnt_eff (s : State) (r : Reg) (i : Nat) (n : Nat) (bank : Nat) (idx : Nat) :
    (State.cnt s r i n bank idx).eff = s.eff := by
  simp only [State.cnt]
  split <;> simp
@[simp] theorem State.cnt_mem (s : State) (r : Reg) (i : Nat) (n : Nat) (bank : Nat) (idx : Nat) :
    (State.cnt s r i n bank idx).mem = s.mem := by
  simp only [State.cnt]
  split <;> simp
@[simp] theorem State.cnt_ecc (s : State) (r : Reg) (i : Nat) (n : Nat) (bank : Nat) (idx : Nat) :
    (State.cnt s r i n bank idx).ecc = s.ecc := by
  simp only [State.cnt]
  split <;> simp
@[simp] theorem State.cnt_written (s : State) (r : Reg) (i : Nat) (n : Nat) (bank : Nat) (idx : Nat) :
    (State.cnt s r i n bank idx).written = s.written := by
  simp only [State.cnt]
  split <;> simp
@[simp] theorem State.cnt_freeCtr (s : State) (r : Reg) (i : Nat) (n : Nat) (bank : Nat) (idx : Nat) :
    (State.cnt s r i n bank idx).freeCtr = s.freeCtr := by
  simp only [State.cnt]
  split <;> simp
@[simp] theorem State.cnt_out (s : State) (r : Reg) (i : Nat) (n : Nat) (bank : Nat) (idx : Nat) :
    (State.cnt s r i n bank idx).out = s.out := by
  simp only [State.cnt]
  split <;> simp
@[simp] theorem State.cnt_tick (s : State) (r : Reg) (i : Nat) (n : Nat) (bank : Nat) (idx : Nat) :
    (State.cnt s r i n bank idx).tick = s.tick := by
  simp only [State.cnt]
  split <;> simp
@[simp] theorem State.cnt_image (s : State) (r : Reg) (i : Nat) (n : Nat) (bank : Nat) (idx : Nat) :
    (State.cnt s r i n bank idx).image = s.image := by
  simp only [State.cnt]
  split <;> simp
@[simp] theorem State.cnt_clusters (s : State) (r : Reg) (i : Nat) (n : Nat) (bank : Nat) (idx : Nat) :
    (State.cnt s r i n bank idx).clusters = s.clusters := by
  simp only [State.cnt]
  split <;> simp
@[simp] theorem State.cnt_scrubs (s : State) (r : Reg) (i : Nat) (n : Nat) (bank : Nat) (idx : Nat) :
    (State.cnt s r i n bank idx).scrubs = s.scrubs := by
  simp only [State.cnt]
  split <;> simp
@[simp] theorem State.cnt_ports (s : State) (r : Reg) (i : Nat) (n : Nat) (bank : Nat) (idx : Nat) :
    (State.cnt s r i n bank idx).ports = s.ports := by
  simp only [State.cnt]
  split <;> simp
@[simp] theorem State.cnt_fabric (s : State) (r : Reg) (i : Nat) (n : Nat) (bank : Nat) (idx : Nat) :
    (State.cnt s r i n bank idx).fabric = s.fabric := by
  simp only [State.cnt]
  split <;> simp
@[simp] theorem State.cnt_load (s : State) (r : Reg) (i : Nat) (n : Nat) (bank : Nat) (idx : Nat) :
    (State.cnt s r i n bank idx).load = s.load := by
  simp only [State.cnt]
  split <;> simp
@[simp] theorem State.cnt_host (s : State) (r : Reg) (i : Nat) (n : Nat) (bank : Nat) (idx : Nat) :
    (State.cnt s r i n bank idx).host = s.host := by
  simp only [State.cnt]
  split <;> simp
@[simp] theorem State.cnt_svc (s : State) (r : Reg) (i : Nat) (n : Nat) (bank : Nat) (idx : Nat) :
    (State.cnt s r i n bank idx).svc = s.svc := by
  simp only [State.cnt]
  split <;> simp
@[simp] theorem State.cnt_time (s : State) (r : Reg) (i : Nat) (n : Nat) (bank : Nat) (idx : Nat) :
    (State.cnt s r i n bank idx).time = s.time := by
  simp only [State.cnt]
  split <;> simp
@[simp] theorem State.cnt_power (s : State) (r : Reg) (i : Nat) (n : Nat) (bank : Nat) (idx : Nat) :
    (State.cnt s r i n bank idx).power = s.power := by
  simp only [State.cnt]
  split <;> simp
@[simp] theorem State.cnt_island (s : State) (r : Reg) (i : Nat) (n : Nat) (bank : Nat) (idx : Nat) :
    (State.cnt s r i n bank idx).island = s.island := by
  simp only [State.cnt]
  split <;> simp
@[simp] theorem State.cnt_trestle (s : State) (r : Reg) (i : Nat) (n : Nat) (bank : Nat) (idx : Nat) :
    (State.cnt s r i n bank idx).trestle = s.trestle := by
  simp only [State.cnt]
  split <;> simp
@[simp] theorem State.cnt_spi (s : State) (r : Reg) (i : Nat) (n : Nat) (bank : Nat) (idx : Nat) :
    (State.cnt s r i n bank idx).spi = s.spi := by
  simp only [State.cnt]
  split <;> simp
@[simp] theorem State.cnt_flash (s : State) (r : Reg) (i : Nat) (n : Nat) (bank : Nat) (idx : Nat) :
    (State.cnt s r i n bank idx).flash = s.flash := by
  simp only [State.cnt]
  split <;> simp
@[simp] theorem State.cnt_tag (s : State) (r : Reg) (i : Nat) (n : Nat) (bank : Nat) (idx : Nat) :
    (State.cnt s r i n bank idx).tag = s.tag := by
  simp only [State.cnt]
  split <;> simp
@[simp] theorem State.cnt_pins (s : State) (r : Reg) (i : Nat) (n : Nat) (bank : Nat) (idx : Nat) :
    (State.cnt s r i n bank idx).pins = s.pins := by
  simp only [State.cnt]
  split <;> simp
@[simp] theorem State.freeId_pending (s : State) (id : Nat) : (State.freeId s id).pending = s.pending := rfl
@[simp] theorem State.freeId_regs (s : State) (id : Nat) : (State.freeId s id).regs = s.regs := rfl
@[simp] theorem State.freeId_eff (s : State) (id : Nat) : (State.freeId s id).eff = s.eff := rfl
@[simp] theorem State.freeId_hidden (s : State) (id : Nat) : (State.freeId s id).hidden = s.hidden := rfl
@[simp] theorem State.freeId_mem (s : State) (id : Nat) : (State.freeId s id).mem = s.mem := rfl
@[simp] theorem State.freeId_ecc (s : State) (id : Nat) : (State.freeId s id).ecc = s.ecc := rfl
@[simp] theorem State.freeId_written (s : State) (id : Nat) : (State.freeId s id).written = s.written := rfl
@[simp] theorem State.freeId_freeCtr (s : State) (id : Nat) : (State.freeId s id).freeCtr = s.freeCtr := rfl
@[simp] theorem State.freeId_out (s : State) (id : Nat) : (State.freeId s id).out = s.out := rfl
@[simp] theorem State.freeId_tick (s : State) (id : Nat) : (State.freeId s id).tick = s.tick := rfl
@[simp] theorem State.freeId_image (s : State) (id : Nat) : (State.freeId s id).image = s.image := rfl
@[simp] theorem State.freeId_clusters (s : State) (id : Nat) : (State.freeId s id).clusters = s.clusters := rfl
@[simp] theorem State.freeId_scrubs (s : State) (id : Nat) : (State.freeId s id).scrubs = s.scrubs := rfl
@[simp] theorem State.freeId_ports (s : State) (id : Nat) : (State.freeId s id).ports = s.ports := rfl
@[simp] theorem State.freeId_fabric (s : State) (id : Nat) : (State.freeId s id).fabric = s.fabric := rfl
@[simp] theorem State.freeId_load (s : State) (id : Nat) : (State.freeId s id).load = s.load := rfl
@[simp] theorem State.freeId_host (s : State) (id : Nat) : (State.freeId s id).host = s.host := rfl
@[simp] theorem State.freeId_time (s : State) (id : Nat) : (State.freeId s id).time = s.time := rfl
@[simp] theorem State.freeId_power (s : State) (id : Nat) : (State.freeId s id).power = s.power := rfl
@[simp] theorem State.freeId_island (s : State) (id : Nat) : (State.freeId s id).island = s.island := rfl
@[simp] theorem State.freeId_trestle (s : State) (id : Nat) : (State.freeId s id).trestle = s.trestle := rfl
@[simp] theorem State.freeId_spi (s : State) (id : Nat) : (State.freeId s id).spi = s.spi := rfl
@[simp] theorem State.freeId_flash (s : State) (id : Nat) : (State.freeId s id).flash = s.flash := rfl
@[simp] theorem State.freeId_tag (s : State) (id : Nat) : (State.freeId s id).tag = s.tag := rfl
@[simp] theorem State.freeId_pins (s : State) (id : Nat) : (State.freeId s id).pins = s.pins := rfl
@[simp] theorem State.freeOf_pending (s : State) (o : HostOut) : (State.freeOf s o).pending = s.pending := by
  unfold State.freeOf
  split <;> simp
@[simp] theorem State.freeOf_regs (s : State) (o : HostOut) : (State.freeOf s o).regs = s.regs := by
  unfold State.freeOf
  split <;> simp
@[simp] theorem State.freeOf_eff (s : State) (o : HostOut) : (State.freeOf s o).eff = s.eff := by
  unfold State.freeOf
  split <;> simp
@[simp] theorem State.freeOf_hidden (s : State) (o : HostOut) : (State.freeOf s o).hidden = s.hidden := by
  unfold State.freeOf
  split <;> simp
@[simp] theorem State.freeOf_mem (s : State) (o : HostOut) : (State.freeOf s o).mem = s.mem := by
  unfold State.freeOf
  split <;> simp
@[simp] theorem State.freeOf_ecc (s : State) (o : HostOut) : (State.freeOf s o).ecc = s.ecc := by
  unfold State.freeOf
  split <;> simp
@[simp] theorem State.freeOf_written (s : State) (o : HostOut) : (State.freeOf s o).written = s.written := by
  unfold State.freeOf
  split <;> simp
@[simp] theorem State.freeOf_freeCtr (s : State) (o : HostOut) : (State.freeOf s o).freeCtr = s.freeCtr := by
  unfold State.freeOf
  split <;> simp
@[simp] theorem State.freeOf_out (s : State) (o : HostOut) : (State.freeOf s o).out = s.out := by
  unfold State.freeOf
  split <;> simp
@[simp] theorem State.freeOf_tick (s : State) (o : HostOut) : (State.freeOf s o).tick = s.tick := by
  unfold State.freeOf
  split <;> simp
@[simp] theorem State.freeOf_image (s : State) (o : HostOut) : (State.freeOf s o).image = s.image := by
  unfold State.freeOf
  split <;> simp
@[simp] theorem State.freeOf_clusters (s : State) (o : HostOut) : (State.freeOf s o).clusters = s.clusters := by
  unfold State.freeOf
  split <;> simp
@[simp] theorem State.freeOf_scrubs (s : State) (o : HostOut) : (State.freeOf s o).scrubs = s.scrubs := by
  unfold State.freeOf
  split <;> simp
@[simp] theorem State.freeOf_ports (s : State) (o : HostOut) : (State.freeOf s o).ports = s.ports := by
  unfold State.freeOf
  split <;> simp
@[simp] theorem State.freeOf_fabric (s : State) (o : HostOut) : (State.freeOf s o).fabric = s.fabric := by
  unfold State.freeOf
  split <;> simp
@[simp] theorem State.freeOf_load (s : State) (o : HostOut) : (State.freeOf s o).load = s.load := by
  unfold State.freeOf
  split <;> simp
@[simp] theorem State.freeOf_host (s : State) (o : HostOut) : (State.freeOf s o).host = s.host := by
  unfold State.freeOf
  split <;> simp
@[simp] theorem State.freeOf_time (s : State) (o : HostOut) : (State.freeOf s o).time = s.time := by
  unfold State.freeOf
  split <;> simp
@[simp] theorem State.freeOf_power (s : State) (o : HostOut) : (State.freeOf s o).power = s.power := by
  unfold State.freeOf
  split <;> simp
@[simp] theorem State.freeOf_island (s : State) (o : HostOut) : (State.freeOf s o).island = s.island := by
  unfold State.freeOf
  split <;> simp
@[simp] theorem State.freeOf_trestle (s : State) (o : HostOut) : (State.freeOf s o).trestle = s.trestle := by
  unfold State.freeOf
  split <;> simp
@[simp] theorem State.freeOf_spi (s : State) (o : HostOut) : (State.freeOf s o).spi = s.spi := by
  unfold State.freeOf
  split <;> simp
@[simp] theorem State.freeOf_flash (s : State) (o : HostOut) : (State.freeOf s o).flash = s.flash := by
  unfold State.freeOf
  split <;> simp
@[simp] theorem State.freeOf_tag (s : State) (o : HostOut) : (State.freeOf s o).tag = s.tag := by
  unfold State.freeOf
  split <;> simp
@[simp] theorem State.freeOf_pins (s : State) (o : HostOut) : (State.freeOf s o).pins = s.pins := by
  unfold State.freeOf
  split <;> simp
@[simp] theorem State.post_pending (s : State) (o : HostOut) : (State.post s o).pending = s.pending := by simp [State.post]
@[simp] theorem State.post_regs (s : State) (o : HostOut) : (State.post s o).regs = s.regs := by simp [State.post]
@[simp] theorem State.post_eff (s : State) (o : HostOut) : (State.post s o).eff = s.eff := by simp [State.post]
@[simp] theorem State.post_hidden (s : State) (o : HostOut) : (State.post s o).hidden = s.hidden := by simp [State.post]
@[simp] theorem State.post_mem (s : State) (o : HostOut) : (State.post s o).mem = s.mem := by simp [State.post]
@[simp] theorem State.post_ecc (s : State) (o : HostOut) : (State.post s o).ecc = s.ecc := by simp [State.post]
@[simp] theorem State.post_written (s : State) (o : HostOut) : (State.post s o).written = s.written := by simp [State.post]
@[simp] theorem State.post_freeCtr (s : State) (o : HostOut) : (State.post s o).freeCtr = s.freeCtr := by simp [State.post]
@[simp] theorem State.post_tick (s : State) (o : HostOut) : (State.post s o).tick = s.tick := by simp [State.post]
@[simp] theorem State.post_image (s : State) (o : HostOut) : (State.post s o).image = s.image := by simp [State.post]
@[simp] theorem State.post_clusters (s : State) (o : HostOut) : (State.post s o).clusters = s.clusters := by simp [State.post]
@[simp] theorem State.post_scrubs (s : State) (o : HostOut) : (State.post s o).scrubs = s.scrubs := by simp [State.post]
@[simp] theorem State.post_ports (s : State) (o : HostOut) : (State.post s o).ports = s.ports := by simp [State.post]
@[simp] theorem State.post_fabric (s : State) (o : HostOut) : (State.post s o).fabric = s.fabric := by simp [State.post]
@[simp] theorem State.post_load (s : State) (o : HostOut) : (State.post s o).load = s.load := by simp [State.post]
@[simp] theorem State.post_host (s : State) (o : HostOut) : (State.post s o).host = s.host := by simp [State.post]
@[simp] theorem State.post_time (s : State) (o : HostOut) : (State.post s o).time = s.time := by simp [State.post]
@[simp] theorem State.post_power (s : State) (o : HostOut) : (State.post s o).power = s.power := by simp [State.post]
@[simp] theorem State.post_island (s : State) (o : HostOut) : (State.post s o).island = s.island := by simp [State.post]
@[simp] theorem State.post_trestle (s : State) (o : HostOut) : (State.post s o).trestle = s.trestle := by simp [State.post]
@[simp] theorem State.post_spi (s : State) (o : HostOut) : (State.post s o).spi = s.spi := by simp [State.post]
@[simp] theorem State.post_flash (s : State) (o : HostOut) : (State.post s o).flash = s.flash := by simp [State.post]
@[simp] theorem State.post_tag (s : State) (o : HostOut) : (State.post s o).tag = s.tag := by simp [State.post]
@[simp] theorem State.post_pins (s : State) (o : HostOut) : (State.post s o).pins = s.pins := by simp [State.post]
@[simp] theorem State.post_out (s : State) (o : HostOut) : (State.post s o).out = s.out ++ [o.out] := by
  simp [State.post, State.send]
@[simp] theorem State.toHost_pending (s : State) (o : HostOut) : (State.toHost s o).pending = s.pending := by
  unfold State.toHost
  repeat' split
  all_goals simp
@[simp] theorem State.toHost_regs (s : State) (o : HostOut) : (State.toHost s o).regs = s.regs := by
  unfold State.toHost
  repeat' split
  all_goals simp
@[simp] theorem State.toHost_eff (s : State) (o : HostOut) : (State.toHost s o).eff = s.eff := by
  unfold State.toHost
  repeat' split
  all_goals simp
@[simp] theorem State.toHost_hidden (s : State) (o : HostOut) : (State.toHost s o).hidden = s.hidden := by
  unfold State.toHost
  repeat' split
  all_goals simp
@[simp] theorem State.toHost_mem (s : State) (o : HostOut) : (State.toHost s o).mem = s.mem := by
  unfold State.toHost
  repeat' split
  all_goals simp
@[simp] theorem State.toHost_ecc (s : State) (o : HostOut) : (State.toHost s o).ecc = s.ecc := by
  unfold State.toHost
  repeat' split
  all_goals simp
@[simp] theorem State.toHost_written (s : State) (o : HostOut) : (State.toHost s o).written = s.written := by
  unfold State.toHost
  repeat' split
  all_goals simp
@[simp] theorem State.toHost_freeCtr (s : State) (o : HostOut) : (State.toHost s o).freeCtr = s.freeCtr := by
  unfold State.toHost
  repeat' split
  all_goals simp
@[simp] theorem State.toHost_tick (s : State) (o : HostOut) : (State.toHost s o).tick = s.tick := by
  unfold State.toHost
  repeat' split
  all_goals simp
@[simp] theorem State.toHost_image (s : State) (o : HostOut) : (State.toHost s o).image = s.image := by
  unfold State.toHost
  repeat' split
  all_goals simp
@[simp] theorem State.toHost_clusters (s : State) (o : HostOut) : (State.toHost s o).clusters = s.clusters := by
  unfold State.toHost
  repeat' split
  all_goals simp
@[simp] theorem State.toHost_scrubs (s : State) (o : HostOut) : (State.toHost s o).scrubs = s.scrubs := by
  unfold State.toHost
  repeat' split
  all_goals simp
@[simp] theorem State.toHost_ports (s : State) (o : HostOut) : (State.toHost s o).ports = s.ports := by
  unfold State.toHost
  repeat' split
  all_goals simp
@[simp] theorem State.toHost_fabric (s : State) (o : HostOut) : (State.toHost s o).fabric = s.fabric := by
  unfold State.toHost
  repeat' split
  all_goals simp
@[simp] theorem State.toHost_load (s : State) (o : HostOut) : (State.toHost s o).load = s.load := by
  unfold State.toHost
  repeat' split
  all_goals simp
@[simp] theorem State.toHost_time (s : State) (o : HostOut) : (State.toHost s o).time = s.time := by
  unfold State.toHost
  repeat' split
  all_goals simp
@[simp] theorem State.toHost_power (s : State) (o : HostOut) : (State.toHost s o).power = s.power := by
  unfold State.toHost
  repeat' split
  all_goals simp
@[simp] theorem State.toHost_island (s : State) (o : HostOut) : (State.toHost s o).island = s.island := by
  unfold State.toHost
  repeat' split
  all_goals simp
@[simp] theorem State.toHost_trestle (s : State) (o : HostOut) : (State.toHost s o).trestle = s.trestle := by
  unfold State.toHost
  repeat' split
  all_goals simp
@[simp] theorem State.toHost_spi (s : State) (o : HostOut) : (State.toHost s o).spi = s.spi := by
  unfold State.toHost
  repeat' split
  all_goals simp
@[simp] theorem State.toHost_flash (s : State) (o : HostOut) : (State.toHost s o).flash = s.flash := by
  unfold State.toHost
  repeat' split
  all_goals simp
@[simp] theorem State.toHost_tag (s : State) (o : HostOut) : (State.toHost s o).tag = s.tag := by
  unfold State.toHost
  repeat' split
  all_goals simp
@[simp] theorem State.toHost_pins (s : State) (o : HostOut) : (State.toHost s o).pins = s.pins := by
  unfold State.toHost
  repeat' split
  all_goals simp
@[simp] theorem State.msix_pending (s : State) (fn v : Nat) : (State.msix s fn v).pending = s.pending := by
  unfold State.msix
  repeat' split
  all_goals simp
@[simp] theorem State.msix_regs (s : State) (fn v : Nat) : (State.msix s fn v).regs = s.regs := by
  unfold State.msix
  repeat' split
  all_goals simp
@[simp] theorem State.msix_eff (s : State) (fn v : Nat) : (State.msix s fn v).eff = s.eff := by
  unfold State.msix
  repeat' split
  all_goals simp
@[simp] theorem State.msix_hidden (s : State) (fn v : Nat) : (State.msix s fn v).hidden = s.hidden := by
  unfold State.msix
  repeat' split
  all_goals simp
@[simp] theorem State.msix_mem (s : State) (fn v : Nat) : (State.msix s fn v).mem = s.mem := by
  unfold State.msix
  repeat' split
  all_goals simp
@[simp] theorem State.msix_ecc (s : State) (fn v : Nat) : (State.msix s fn v).ecc = s.ecc := by
  unfold State.msix
  repeat' split
  all_goals simp
@[simp] theorem State.msix_written (s : State) (fn v : Nat) : (State.msix s fn v).written = s.written := by
  unfold State.msix
  repeat' split
  all_goals simp
@[simp] theorem State.msix_freeCtr (s : State) (fn v : Nat) : (State.msix s fn v).freeCtr = s.freeCtr := by
  unfold State.msix
  repeat' split
  all_goals simp
@[simp] theorem State.msix_tick (s : State) (fn v : Nat) : (State.msix s fn v).tick = s.tick := by
  unfold State.msix
  repeat' split
  all_goals simp
@[simp] theorem State.msix_image (s : State) (fn v : Nat) : (State.msix s fn v).image = s.image := by
  unfold State.msix
  repeat' split
  all_goals simp
@[simp] theorem State.msix_clusters (s : State) (fn v : Nat) : (State.msix s fn v).clusters = s.clusters := by
  unfold State.msix
  repeat' split
  all_goals simp
@[simp] theorem State.msix_scrubs (s : State) (fn v : Nat) : (State.msix s fn v).scrubs = s.scrubs := by
  unfold State.msix
  repeat' split
  all_goals simp
@[simp] theorem State.msix_ports (s : State) (fn v : Nat) : (State.msix s fn v).ports = s.ports := by
  unfold State.msix
  repeat' split
  all_goals simp
@[simp] theorem State.msix_fabric (s : State) (fn v : Nat) : (State.msix s fn v).fabric = s.fabric := by
  unfold State.msix
  repeat' split
  all_goals simp
@[simp] theorem State.msix_load (s : State) (fn v : Nat) : (State.msix s fn v).load = s.load := by
  unfold State.msix
  repeat' split
  all_goals simp
@[simp] theorem State.msix_svc (s : State) (fn v : Nat) : (State.msix s fn v).svc = s.svc := by
  simp only [State.msix, State.toHost, State.post, State.freeOf]
  repeat' split
  all_goals simp
@[simp] theorem State.msix_time (s : State) (fn v : Nat) : (State.msix s fn v).time = s.time := by
  unfold State.msix
  repeat' split
  all_goals simp
@[simp] theorem State.msix_power (s : State) (fn v : Nat) : (State.msix s fn v).power = s.power := by
  unfold State.msix
  repeat' split
  all_goals simp
@[simp] theorem State.msix_island (s : State) (fn v : Nat) : (State.msix s fn v).island = s.island := by
  unfold State.msix
  repeat' split
  all_goals simp
@[simp] theorem State.msix_trestle (s : State) (fn v : Nat) : (State.msix s fn v).trestle = s.trestle := by
  unfold State.msix
  repeat' split
  all_goals simp
@[simp] theorem State.msix_spi (s : State) (fn v : Nat) : (State.msix s fn v).spi = s.spi := by
  unfold State.msix
  repeat' split
  all_goals simp
@[simp] theorem State.msix_flash (s : State) (fn v : Nat) : (State.msix s fn v).flash = s.flash := by
  unfold State.msix
  repeat' split
  all_goals simp
@[simp] theorem State.msix_tag (s : State) (fn v : Nat) : (State.msix s fn v).tag = s.tag := by
  unfold State.msix
  repeat' split
  all_goals simp
@[simp] theorem State.msix_pins (s : State) (fn v : Nat) : (State.msix s fn v).pins = s.pins := by
  unfold State.msix
  repeat' split
  all_goals simp
@[simp] theorem State.routeSend_pending (s : State) (t : Nat) : (State.routeSend s t).pending = s.pending := by
  simp only [State.routeSend]
  split <;> simp
@[simp] theorem State.routeSend_regs (s : State) (t : Nat) : (State.routeSend s t).regs = s.regs := by
  simp only [State.routeSend]
  split <;> simp
@[simp] theorem State.routeSend_eff (s : State) (t : Nat) : (State.routeSend s t).eff = s.eff := by
  simp only [State.routeSend]
  split <;> simp
@[simp] theorem State.routeSend_hidden (s : State) (t : Nat) : (State.routeSend s t).hidden = s.hidden := by
  simp only [State.routeSend]
  split <;> simp
@[simp] theorem State.routeSend_mem (s : State) (t : Nat) : (State.routeSend s t).mem = s.mem := by
  simp only [State.routeSend]
  split <;> simp
@[simp] theorem State.routeSend_ecc (s : State) (t : Nat) : (State.routeSend s t).ecc = s.ecc := by
  simp only [State.routeSend]
  split <;> simp
@[simp] theorem State.routeSend_written (s : State) (t : Nat) : (State.routeSend s t).written = s.written := by
  simp only [State.routeSend]
  split <;> simp
@[simp] theorem State.routeSend_freeCtr (s : State) (t : Nat) : (State.routeSend s t).freeCtr = s.freeCtr := by
  simp only [State.routeSend]
  split <;> simp
@[simp] theorem State.routeSend_tick (s : State) (t : Nat) : (State.routeSend s t).tick = s.tick := by
  simp only [State.routeSend]
  split <;> simp
@[simp] theorem State.routeSend_image (s : State) (t : Nat) : (State.routeSend s t).image = s.image := by
  simp only [State.routeSend]
  split <;> simp
@[simp] theorem State.routeSend_clusters (s : State) (t : Nat) : (State.routeSend s t).clusters = s.clusters := by
  simp only [State.routeSend]
  split <;> simp
@[simp] theorem State.routeSend_scrubs (s : State) (t : Nat) : (State.routeSend s t).scrubs = s.scrubs := by
  simp only [State.routeSend]
  split <;> simp
@[simp] theorem State.routeSend_ports (s : State) (t : Nat) : (State.routeSend s t).ports = s.ports := by
  simp only [State.routeSend]
  split <;> simp
@[simp] theorem State.routeSend_fabric (s : State) (t : Nat) : (State.routeSend s t).fabric = s.fabric := by
  simp only [State.routeSend]
  split <;> simp
@[simp] theorem State.routeSend_load (s : State) (t : Nat) : (State.routeSend s t).load = s.load := by
  simp only [State.routeSend]
  split <;> simp
@[simp] theorem State.routeSend_svc (s : State) (t : Nat) : (State.routeSend s t).svc = s.svc := by
  simp only [State.routeSend]
  split <;> simp
@[simp] theorem State.routeSend_time (s : State) (t : Nat) : (State.routeSend s t).time = s.time := by
  simp only [State.routeSend]
  split <;> simp
@[simp] theorem State.routeSend_power (s : State) (t : Nat) : (State.routeSend s t).power = s.power := by
  simp only [State.routeSend]
  split <;> simp
@[simp] theorem State.routeSend_island (s : State) (t : Nat) : (State.routeSend s t).island = s.island := by
  simp only [State.routeSend]
  split <;> simp
@[simp] theorem State.routeSend_trestle (s : State) (t : Nat) : (State.routeSend s t).trestle = s.trestle := by
  simp only [State.routeSend]
  split <;> simp
@[simp] theorem State.routeSend_spi (s : State) (t : Nat) : (State.routeSend s t).spi = s.spi := by
  simp only [State.routeSend]
  split <;> simp
@[simp] theorem State.routeSend_flash (s : State) (t : Nat) : (State.routeSend s t).flash = s.flash := by
  simp only [State.routeSend]
  split <;> simp
@[simp] theorem State.routeSend_tag (s : State) (t : Nat) : (State.routeSend s t).tag = s.tag := by
  simp only [State.routeSend]
  split <;> simp
@[simp] theorem State.routeSend_pins (s : State) (t : Nat) : (State.routeSend s t).pins = s.pins := by
  simp only [State.routeSend]
  split <;> simp
@[simp] theorem State.setIrq_pending (s : State) (pg off v : Nat) : (State.setIrq s pg off v).pending = s.pending := by
  simp only [State.setIrq]
  repeat' split
  all_goals simp
@[simp] theorem State.setIrq_eff (s : State) (pg off v : Nat) : (State.setIrq s pg off v).eff = s.eff := by
  simp only [State.setIrq]
  repeat' split
  all_goals simp
@[simp] theorem State.setIrq_hidden (s : State) (pg off v : Nat) : (State.setIrq s pg off v).hidden = s.hidden := by
  simp only [State.setIrq]
  repeat' split
  all_goals simp
@[simp] theorem State.setIrq_mem (s : State) (pg off v : Nat) : (State.setIrq s pg off v).mem = s.mem := by
  simp only [State.setIrq]
  repeat' split
  all_goals simp
@[simp] theorem State.setIrq_ecc (s : State) (pg off v : Nat) : (State.setIrq s pg off v).ecc = s.ecc := by
  simp only [State.setIrq]
  repeat' split
  all_goals simp
@[simp] theorem State.setIrq_written (s : State) (pg off v : Nat) : (State.setIrq s pg off v).written = s.written := by
  simp only [State.setIrq]
  repeat' split
  all_goals simp
@[simp] theorem State.setIrq_freeCtr (s : State) (pg off v : Nat) : (State.setIrq s pg off v).freeCtr = s.freeCtr := by
  simp only [State.setIrq]
  repeat' split
  all_goals simp
@[simp] theorem State.setIrq_tick (s : State) (pg off v : Nat) : (State.setIrq s pg off v).tick = s.tick := by
  simp only [State.setIrq]
  repeat' split
  all_goals simp
@[simp] theorem State.setIrq_image (s : State) (pg off v : Nat) : (State.setIrq s pg off v).image = s.image := by
  simp only [State.setIrq]
  repeat' split
  all_goals simp
@[simp] theorem State.setIrq_clusters (s : State) (pg off v : Nat) :
    (State.setIrq s pg off v).clusters = s.clusters := by
  simp only [State.setIrq]
  repeat' split
  all_goals simp
@[simp] theorem State.setIrq_scrubs (s : State) (pg off v : Nat) : (State.setIrq s pg off v).scrubs = s.scrubs := by
  simp only [State.setIrq]
  repeat' split
  all_goals simp
@[simp] theorem State.setIrq_ports (s : State) (pg off v : Nat) : (State.setIrq s pg off v).ports = s.ports := by
  simp only [State.setIrq]
  repeat' split
  all_goals simp
@[simp] theorem State.setIrq_fabric (s : State) (pg off v : Nat) : (State.setIrq s pg off v).fabric = s.fabric := by
  simp only [State.setIrq]
  repeat' split
  all_goals simp
@[simp] theorem State.setIrq_load (s : State) (pg off v : Nat) : (State.setIrq s pg off v).load = s.load := by
  simp only [State.setIrq]
  repeat' split
  all_goals simp
@[simp] theorem State.setIrq_svc (s : State) (pg off v : Nat) : (State.setIrq s pg off v).svc = s.svc := by
  simp only [State.setIrq]
  repeat' split
  all_goals simp
@[simp] theorem State.setIrq_time (s : State) (pg off v : Nat) : (State.setIrq s pg off v).time = s.time := by
  simp only [State.setIrq]
  repeat' split
  all_goals simp
@[simp] theorem State.setIrq_power (s : State) (pg off v : Nat) : (State.setIrq s pg off v).power = s.power := by
  simp only [State.setIrq]
  repeat' split
  all_goals simp
@[simp] theorem State.setIrq_island (s : State) (pg off v : Nat) : (State.setIrq s pg off v).island = s.island := by
  simp only [State.setIrq]
  repeat' split
  all_goals simp
@[simp] theorem State.setIrq_trestle (s : State) (pg off v : Nat) : (State.setIrq s pg off v).trestle = s.trestle := by
  simp only [State.setIrq]
  repeat' split
  all_goals simp
@[simp] theorem State.setIrq_spi (s : State) (pg off v : Nat) : (State.setIrq s pg off v).spi = s.spi := by
  simp only [State.setIrq]
  repeat' split
  all_goals simp
@[simp] theorem State.setIrq_flash (s : State) (pg off v : Nat) : (State.setIrq s pg off v).flash = s.flash := by
  simp only [State.setIrq]
  repeat' split
  all_goals simp
@[simp] theorem State.setIrq_tag (s : State) (pg off v : Nat) : (State.setIrq s pg off v).tag = s.tag := by
  simp only [State.setIrq]
  repeat' split
  all_goals simp
@[simp] theorem State.setIrq_pins (s : State) (pg off v : Nat) : (State.setIrq s pg off v).pins = s.pins := by
  simp only [State.setIrq]
  repeat' split
  all_goals simp
@[simp] theorem State.irq_pending (s : State) (pg m : Nat) : (State.irq s pg m).pending = s.pending := by
  simp [State.irq]
@[simp] theorem State.irq_eff (s : State) (pg m : Nat) : (State.irq s pg m).eff = s.eff := by
  simp [State.irq]
@[simp] theorem State.irq_hidden (s : State) (pg m : Nat) : (State.irq s pg m).hidden = s.hidden := by
  simp [State.irq]
@[simp] theorem State.irq_mem (s : State) (pg m : Nat) : (State.irq s pg m).mem = s.mem := by
  simp [State.irq]
@[simp] theorem State.irq_ecc (s : State) (pg m : Nat) : (State.irq s pg m).ecc = s.ecc := by
  simp [State.irq]
@[simp] theorem State.irq_written (s : State) (pg m : Nat) : (State.irq s pg m).written = s.written := by
  simp [State.irq]
@[simp] theorem State.irq_freeCtr (s : State) (pg m : Nat) : (State.irq s pg m).freeCtr = s.freeCtr := by
  simp [State.irq]
@[simp] theorem State.irq_tick (s : State) (pg m : Nat) : (State.irq s pg m).tick = s.tick := by
  simp [State.irq]
@[simp] theorem State.irq_image (s : State) (pg m : Nat) : (State.irq s pg m).image = s.image := by
  simp [State.irq]
@[simp] theorem State.irq_clusters (s : State) (pg m : Nat) : (State.irq s pg m).clusters = s.clusters := by
  simp [State.irq]
@[simp] theorem State.irq_scrubs (s : State) (pg m : Nat) : (State.irq s pg m).scrubs = s.scrubs := by
  simp [State.irq]
@[simp] theorem State.irq_ports (s : State) (pg m : Nat) : (State.irq s pg m).ports = s.ports := by
  simp [State.irq]
@[simp] theorem State.irq_fabric (s : State) (pg m : Nat) : (State.irq s pg m).fabric = s.fabric := by
  simp [State.irq]
@[simp] theorem State.irq_load (s : State) (pg m : Nat) : (State.irq s pg m).load = s.load := by
  simp [State.irq]
@[simp] theorem State.irq_svc (s : State) (pg m : Nat) : (State.irq s pg m).svc = s.svc := by
  simp [State.irq]
@[simp] theorem State.irq_time (s : State) (pg m : Nat) : (State.irq s pg m).time = s.time := by
  simp [State.irq]
@[simp] theorem State.irq_power (s : State) (pg m : Nat) : (State.irq s pg m).power = s.power := by
  simp [State.irq]
@[simp] theorem State.irq_island (s : State) (pg m : Nat) : (State.irq s pg m).island = s.island := by
  simp [State.irq]
@[simp] theorem State.irq_trestle (s : State) (pg m : Nat) : (State.irq s pg m).trestle = s.trestle := by
  simp [State.irq]
@[simp] theorem State.irq_spi (s : State) (pg m : Nat) : (State.irq s pg m).spi = s.spi := by
  simp [State.irq]
@[simp] theorem State.irq_flash (s : State) (pg m : Nat) : (State.irq s pg m).flash = s.flash := by
  simp [State.irq]
@[simp] theorem State.irq_tag (s : State) (pg m : Nat) : (State.irq s pg m).tag = s.tag := by
  simp [State.irq]
@[simp] theorem State.irq_pins (s : State) (pg m : Nat) : (State.irq s pg m).pins = s.pins := by
  simp [State.irq]
@[simp] theorem State.event_pending (s : State) (p : PageType) (i n : Nat) :
    (State.event s p i n).pending = s.pending := by
  simp [State.event]
@[simp] theorem State.event_eff (s : State) (p : PageType) (i n : Nat) : (State.event s p i n).eff = s.eff := by
  simp [State.event]
@[simp] theorem State.event_hidden (s : State) (p : PageType) (i n : Nat) : (State.event s p i n).hidden = s.hidden := by
  simp [State.event]
@[simp] theorem State.event_mem (s : State) (p : PageType) (i n : Nat) : (State.event s p i n).mem = s.mem := by
  simp [State.event]
@[simp] theorem State.event_ecc (s : State) (p : PageType) (i n : Nat) : (State.event s p i n).ecc = s.ecc := by
  simp [State.event]
@[simp] theorem State.event_written (s : State) (p : PageType) (i n : Nat) :
    (State.event s p i n).written = s.written := by
  simp [State.event]
@[simp] theorem State.event_freeCtr (s : State) (p : PageType) (i n : Nat) :
    (State.event s p i n).freeCtr = s.freeCtr := by
  simp [State.event]
@[simp] theorem State.event_tick (s : State) (p : PageType) (i n : Nat) : (State.event s p i n).tick = s.tick := by
  simp [State.event]
@[simp] theorem State.event_image (s : State) (p : PageType) (i n : Nat) : (State.event s p i n).image = s.image := by
  simp [State.event]
@[simp] theorem State.event_clusters (s : State) (p : PageType) (i n : Nat) :
    (State.event s p i n).clusters = s.clusters := by
  simp [State.event]
@[simp] theorem State.event_scrubs (s : State) (p : PageType) (i n : Nat) : (State.event s p i n).scrubs = s.scrubs := by
  simp [State.event]
@[simp] theorem State.event_ports (s : State) (p : PageType) (i n : Nat) : (State.event s p i n).ports = s.ports := by
  simp [State.event]
@[simp] theorem State.event_fabric (s : State) (p : PageType) (i n : Nat) : (State.event s p i n).fabric = s.fabric := by
  simp [State.event]
@[simp] theorem State.event_load (s : State) (p : PageType) (i n : Nat) : (State.event s p i n).load = s.load := by
  simp [State.event]
@[simp] theorem State.event_svc (s : State) (p : PageType) (i n : Nat) : (State.event s p i n).svc = s.svc := by
  simp [State.event]
@[simp] theorem State.event_time (s : State) (p : PageType) (i n : Nat) : (State.event s p i n).time = s.time := by
  simp [State.event]
@[simp] theorem State.event_power (s : State) (p : PageType) (i n : Nat) : (State.event s p i n).power = s.power := by
  simp [State.event]
@[simp] theorem State.event_island (s : State) (p : PageType) (i n : Nat) : (State.event s p i n).island = s.island := by
  simp [State.event]
@[simp] theorem State.event_trestle (s : State) (p : PageType) (i n : Nat) :
    (State.event s p i n).trestle = s.trestle := by
  simp [State.event]
@[simp] theorem State.event_spi (s : State) (p : PageType) (i n : Nat) : (State.event s p i n).spi = s.spi := by
  simp [State.event]
@[simp] theorem State.event_flash (s : State) (p : PageType) (i n : Nat) : (State.event s p i n).flash = s.flash := by
  simp [State.event]
@[simp] theorem State.event_tag (s : State) (p : PageType) (i n : Nat) : (State.event s p i n).tag = s.tag := by
  simp [State.event]
@[simp] theorem State.event_pins (s : State) (p : PageType) (i n : Nat) : (State.event s p i n).pins = s.pins := by
  simp [State.event]
@[simp] theorem State.capture_pending (s : State) (pg : Nat) (v : Viol) (more : Bool) :
    (State.capture s pg v more).pending = s.pending := by
  simp [State.capture]
@[simp] theorem State.capture_eff (s : State) (pg : Nat) (v : Viol) (more : Bool) :
    (State.capture s pg v more).eff = s.eff := by
  simp [State.capture]
@[simp] theorem State.capture_hidden (s : State) (pg : Nat) (v : Viol) (more : Bool) :
    (State.capture s pg v more).hidden = s.hidden := by
  simp [State.capture]
@[simp] theorem State.capture_mem (s : State) (pg : Nat) (v : Viol) (more : Bool) :
    (State.capture s pg v more).mem = s.mem := by
  simp [State.capture]
@[simp] theorem State.capture_ecc (s : State) (pg : Nat) (v : Viol) (more : Bool) :
    (State.capture s pg v more).ecc = s.ecc := by
  simp [State.capture]
@[simp] theorem State.capture_written (s : State) (pg : Nat) (v : Viol) (more : Bool) :
    (State.capture s pg v more).written = s.written := by
  simp [State.capture]
@[simp] theorem State.capture_freeCtr (s : State) (pg : Nat) (v : Viol) (more : Bool) :
    (State.capture s pg v more).freeCtr = s.freeCtr := by
  simp [State.capture]
@[simp] theorem State.capture_out (s : State) (pg : Nat) (v : Viol) (more : Bool) :
    (State.capture s pg v more).out = s.out := by
  simp [State.capture]
@[simp] theorem State.capture_tick (s : State) (pg : Nat) (v : Viol) (more : Bool) :
    (State.capture s pg v more).tick = s.tick := by
  simp [State.capture]
@[simp] theorem State.capture_image (s : State) (pg : Nat) (v : Viol) (more : Bool) :
    (State.capture s pg v more).image = s.image := by
  simp [State.capture]
@[simp] theorem State.capture_clusters (s : State) (pg : Nat) (v : Viol) (more : Bool) :
    (State.capture s pg v more).clusters = s.clusters := by
  simp [State.capture]
@[simp] theorem State.capture_scrubs (s : State) (pg : Nat) (v : Viol) (more : Bool) :
    (State.capture s pg v more).scrubs = s.scrubs := by
  simp [State.capture]
@[simp] theorem State.capture_ports (s : State) (pg : Nat) (v : Viol) (more : Bool) :
    (State.capture s pg v more).ports = s.ports := by
  simp [State.capture]
@[simp] theorem State.capture_fabric (s : State) (pg : Nat) (v : Viol) (more : Bool) :
    (State.capture s pg v more).fabric = s.fabric := by
  simp [State.capture]
@[simp] theorem State.capture_load (s : State) (pg : Nat) (v : Viol) (more : Bool) :
    (State.capture s pg v more).load = s.load := by
  simp [State.capture]
@[simp] theorem State.capture_host (s : State) (pg : Nat) (v : Viol) (more : Bool) :
    (State.capture s pg v more).host = s.host := by
  simp [State.capture]
@[simp] theorem State.capture_svc (s : State) (pg : Nat) (v : Viol) (more : Bool) :
    (State.capture s pg v more).svc = s.svc := by
  simp [State.capture]
@[simp] theorem State.capture_time (s : State) (pg : Nat) (v : Viol) (more : Bool) :
    (State.capture s pg v more).time = s.time := by
  simp [State.capture]
@[simp] theorem State.capture_power (s : State) (pg : Nat) (v : Viol) (more : Bool) :
    (State.capture s pg v more).power = s.power := by
  simp [State.capture]
@[simp] theorem State.capture_island (s : State) (pg : Nat) (v : Viol) (more : Bool) :
    (State.capture s pg v more).island = s.island := by
  simp [State.capture]
@[simp] theorem State.capture_trestle (s : State) (pg : Nat) (v : Viol) (more : Bool) :
    (State.capture s pg v more).trestle = s.trestle := by
  simp [State.capture]
@[simp] theorem State.capture_spi (s : State) (pg : Nat) (v : Viol) (more : Bool) :
    (State.capture s pg v more).spi = s.spi := by
  simp [State.capture]
@[simp] theorem State.capture_flash (s : State) (pg : Nat) (v : Viol) (more : Bool) :
    (State.capture s pg v more).flash = s.flash := by
  simp [State.capture]
@[simp] theorem State.capture_tag (s : State) (pg : Nat) (v : Viol) (more : Bool) :
    (State.capture s pg v more).tag = s.tag := by
  simp [State.capture]
@[simp] theorem State.capture_pins (s : State) (pg : Nat) (v : Viol) (more : Bool) :
    (State.capture s pg v more).pins = s.pins := by
  simp [State.capture]
@[simp] theorem State.violateAll_pending (s : State) (pg : Nat) (v : Viol) (vs : List Viol) :
    (State.violateAll s pg v vs).pending = s.pending := by
  simp only [State.violateAll]
  split <;> simp
@[simp] theorem State.violateAll_eff (s : State) (pg : Nat) (v : Viol) (vs : List Viol) :
    (State.violateAll s pg v vs).eff = s.eff := by
  simp only [State.violateAll]
  split <;> simp
@[simp] theorem State.violateAll_hidden (s : State) (pg : Nat) (v : Viol) (vs : List Viol) :
    (State.violateAll s pg v vs).hidden = s.hidden := by
  simp only [State.violateAll]
  split <;> simp
@[simp] theorem State.violateAll_mem (s : State) (pg : Nat) (v : Viol) (vs : List Viol) :
    (State.violateAll s pg v vs).mem = s.mem := by
  simp only [State.violateAll]
  split <;> simp
@[simp] theorem State.violateAll_ecc (s : State) (pg : Nat) (v : Viol) (vs : List Viol) :
    (State.violateAll s pg v vs).ecc = s.ecc := by
  simp only [State.violateAll]
  split <;> simp
@[simp] theorem State.violateAll_written (s : State) (pg : Nat) (v : Viol) (vs : List Viol) :
    (State.violateAll s pg v vs).written = s.written := by
  simp only [State.violateAll]
  split <;> simp
@[simp] theorem State.violateAll_freeCtr (s : State) (pg : Nat) (v : Viol) (vs : List Viol) :
    (State.violateAll s pg v vs).freeCtr = s.freeCtr := by
  simp only [State.violateAll]
  split <;> simp
@[simp] theorem State.violateAll_tick (s : State) (pg : Nat) (v : Viol) (vs : List Viol) :
    (State.violateAll s pg v vs).tick = s.tick := by
  simp only [State.violateAll]
  split <;> simp
@[simp] theorem State.violateAll_image (s : State) (pg : Nat) (v : Viol) (vs : List Viol) :
    (State.violateAll s pg v vs).image = s.image := by
  simp only [State.violateAll]
  split <;> simp
@[simp] theorem State.violateAll_clusters (s : State) (pg : Nat) (v : Viol) (vs : List Viol) :
    (State.violateAll s pg v vs).clusters = s.clusters := by
  simp only [State.violateAll]
  split <;> simp
@[simp] theorem State.violateAll_scrubs (s : State) (pg : Nat) (v : Viol) (vs : List Viol) :
    (State.violateAll s pg v vs).scrubs = s.scrubs := by
  simp only [State.violateAll]
  split <;> simp
@[simp] theorem State.violateAll_ports (s : State) (pg : Nat) (v : Viol) (vs : List Viol) :
    (State.violateAll s pg v vs).ports = s.ports := by
  simp only [State.violateAll]
  split <;> simp
@[simp] theorem State.violateAll_fabric (s : State) (pg : Nat) (v : Viol) (vs : List Viol) :
    (State.violateAll s pg v vs).fabric = s.fabric := by
  simp only [State.violateAll]
  split <;> simp
@[simp] theorem State.violateAll_load (s : State) (pg : Nat) (v : Viol) (vs : List Viol) :
    (State.violateAll s pg v vs).load = s.load := by
  simp only [State.violateAll]
  split <;> simp
@[simp] theorem State.violateAll_svc (s : State) (pg : Nat) (v : Viol) (vs : List Viol) :
    (State.violateAll s pg v vs).svc = s.svc := by
  simp only [State.violateAll]
  split <;> simp
@[simp] theorem State.violateAll_time (s : State) (pg : Nat) (v : Viol) (vs : List Viol) :
    (State.violateAll s pg v vs).time = s.time := by
  simp only [State.violateAll]
  split <;> simp
@[simp] theorem State.violateAll_power (s : State) (pg : Nat) (v : Viol) (vs : List Viol) :
    (State.violateAll s pg v vs).power = s.power := by
  simp only [State.violateAll]
  split <;> simp
@[simp] theorem State.violateAll_island (s : State) (pg : Nat) (v : Viol) (vs : List Viol) :
    (State.violateAll s pg v vs).island = s.island := by
  simp only [State.violateAll]
  split <;> simp
@[simp] theorem State.violateAll_trestle (s : State) (pg : Nat) (v : Viol) (vs : List Viol) :
    (State.violateAll s pg v vs).trestle = s.trestle := by
  simp only [State.violateAll]
  split <;> simp
@[simp] theorem State.violateAll_spi (s : State) (pg : Nat) (v : Viol) (vs : List Viol) :
    (State.violateAll s pg v vs).spi = s.spi := by
  simp only [State.violateAll]
  split <;> simp
@[simp] theorem State.violateAll_flash (s : State) (pg : Nat) (v : Viol) (vs : List Viol) :
    (State.violateAll s pg v vs).flash = s.flash := by
  simp only [State.violateAll]
  split <;> simp
@[simp] theorem State.violateAll_tag (s : State) (pg : Nat) (v : Viol) (vs : List Viol) :
    (State.violateAll s pg v vs).tag = s.tag := by
  simp only [State.violateAll]
  split <;> simp
@[simp] theorem State.violateAll_pins (s : State) (pg : Nat) (v : Viol) (vs : List Viol) :
    (State.violateAll s pg v vs).pins = s.pins := by
  simp only [State.violateAll]
  split <;> simp
@[simp] theorem State.violate_pending (s : State) (p : PageType) (i : Nat) (v : Viol) :
    (State.violate s p i v).pending = s.pending := by
  simp [State.violate]
@[simp] theorem State.violate_eff (s : State) (p : PageType) (i : Nat) (v : Viol) :
    (State.violate s p i v).eff = s.eff := by
  simp [State.violate]
@[simp] theorem State.violate_hidden (s : State) (p : PageType) (i : Nat) (v : Viol) :
    (State.violate s p i v).hidden = s.hidden := by
  simp [State.violate]
@[simp] theorem State.violate_mem (s : State) (p : PageType) (i : Nat) (v : Viol) :
    (State.violate s p i v).mem = s.mem := by
  simp [State.violate]
@[simp] theorem State.violate_ecc (s : State) (p : PageType) (i : Nat) (v : Viol) :
    (State.violate s p i v).ecc = s.ecc := by
  simp [State.violate]
@[simp] theorem State.violate_written (s : State) (p : PageType) (i : Nat) (v : Viol) :
    (State.violate s p i v).written = s.written := by
  simp [State.violate]
@[simp] theorem State.violate_freeCtr (s : State) (p : PageType) (i : Nat) (v : Viol) :
    (State.violate s p i v).freeCtr = s.freeCtr := by
  simp [State.violate]
@[simp] theorem State.violate_tick (s : State) (p : PageType) (i : Nat) (v : Viol) :
    (State.violate s p i v).tick = s.tick := by
  simp [State.violate]
@[simp] theorem State.violate_image (s : State) (p : PageType) (i : Nat) (v : Viol) :
    (State.violate s p i v).image = s.image := by
  simp [State.violate]
@[simp] theorem State.violate_clusters (s : State) (p : PageType) (i : Nat) (v : Viol) :
    (State.violate s p i v).clusters = s.clusters := by
  simp [State.violate]
@[simp] theorem State.violate_scrubs (s : State) (p : PageType) (i : Nat) (v : Viol) :
    (State.violate s p i v).scrubs = s.scrubs := by
  simp [State.violate]
@[simp] theorem State.violate_ports (s : State) (p : PageType) (i : Nat) (v : Viol) :
    (State.violate s p i v).ports = s.ports := by
  simp [State.violate]
@[simp] theorem State.violate_fabric (s : State) (p : PageType) (i : Nat) (v : Viol) :
    (State.violate s p i v).fabric = s.fabric := by
  simp [State.violate]
@[simp] theorem State.violate_load (s : State) (p : PageType) (i : Nat) (v : Viol) :
    (State.violate s p i v).load = s.load := by
  simp [State.violate]
@[simp] theorem State.violate_svc (s : State) (p : PageType) (i : Nat) (v : Viol) :
    (State.violate s p i v).svc = s.svc := by
  simp [State.violate]
@[simp] theorem State.violate_time (s : State) (p : PageType) (i : Nat) (v : Viol) :
    (State.violate s p i v).time = s.time := by
  simp [State.violate]
@[simp] theorem State.violate_power (s : State) (p : PageType) (i : Nat) (v : Viol) :
    (State.violate s p i v).power = s.power := by
  simp [State.violate]
@[simp] theorem State.violate_island (s : State) (p : PageType) (i : Nat) (v : Viol) :
    (State.violate s p i v).island = s.island := by
  simp [State.violate]
@[simp] theorem State.violate_trestle (s : State) (p : PageType) (i : Nat) (v : Viol) :
    (State.violate s p i v).trestle = s.trestle := by
  simp [State.violate]
@[simp] theorem State.violate_spi (s : State) (p : PageType) (i : Nat) (v : Viol) :
    (State.violate s p i v).spi = s.spi := by
  simp [State.violate]
@[simp] theorem State.violate_flash (s : State) (p : PageType) (i : Nat) (v : Viol) :
    (State.violate s p i v).flash = s.flash := by
  simp [State.violate]
@[simp] theorem State.violate_tag (s : State) (p : PageType) (i : Nat) (v : Viol) :
    (State.violate s p i v).tag = s.tag := by
  simp [State.violate]
@[simp] theorem State.violate_pins (s : State) (p : PageType) (i : Nat) (v : Viol) :
    (State.violate s p i v).pins = s.pins := by
  simp [State.violate]
@[simp] theorem State.sealFault_pending (s : State) (code : Nat) (u : FaultUnit) :
    (State.sealFault s code u).pending = s.pending := by
  simp only [State.sealFault]
  split <;> simp
@[simp] theorem State.sealFault_regs (s : State) (code : Nat) (u : FaultUnit) :
    (State.sealFault s code u).regs = s.regs := by
  simp only [State.sealFault]
  split <;> simp
@[simp] theorem State.sealFault_eff (s : State) (code : Nat) (u : FaultUnit) :
    (State.sealFault s code u).eff = s.eff := by
  simp only [State.sealFault]
  split <;> simp
@[simp] theorem State.sealFault_hidden (s : State) (code : Nat) (u : FaultUnit) :
    (State.sealFault s code u).hidden = s.hidden := by
  simp only [State.sealFault]
  split <;> simp
@[simp] theorem State.sealFault_mem (s : State) (code : Nat) (u : FaultUnit) :
    (State.sealFault s code u).mem = s.mem := by
  simp only [State.sealFault]
  split <;> simp
@[simp] theorem State.sealFault_ecc (s : State) (code : Nat) (u : FaultUnit) :
    (State.sealFault s code u).ecc = s.ecc := by
  simp only [State.sealFault]
  split <;> simp
@[simp] theorem State.sealFault_written (s : State) (code : Nat) (u : FaultUnit) :
    (State.sealFault s code u).written = s.written := by
  simp only [State.sealFault]
  split <;> simp
@[simp] theorem State.sealFault_freeCtr (s : State) (code : Nat) (u : FaultUnit) :
    (State.sealFault s code u).freeCtr = s.freeCtr := by
  simp only [State.sealFault]
  split <;> simp
@[simp] theorem State.sealFault_out (s : State) (code : Nat) (u : FaultUnit) :
    (State.sealFault s code u).out = s.out := by
  simp only [State.sealFault]
  split <;> simp
@[simp] theorem State.sealFault_image (s : State) (code : Nat) (u : FaultUnit) :
    (State.sealFault s code u).image = s.image := by
  simp only [State.sealFault]
  split <;> simp
@[simp] theorem State.sealFault_clusters (s : State) (code : Nat) (u : FaultUnit) :
    (State.sealFault s code u).clusters = s.clusters := by
  simp only [State.sealFault]
  split <;> simp
@[simp] theorem State.sealFault_scrubs (s : State) (code : Nat) (u : FaultUnit) :
    (State.sealFault s code u).scrubs = s.scrubs := by
  simp only [State.sealFault]
  split <;> simp
@[simp] theorem State.sealFault_ports (s : State) (code : Nat) (u : FaultUnit) :
    (State.sealFault s code u).ports = s.ports := by
  simp only [State.sealFault]
  split <;> simp
@[simp] theorem State.sealFault_fabric (s : State) (code : Nat) (u : FaultUnit) :
    (State.sealFault s code u).fabric = s.fabric := by
  simp only [State.sealFault]
  split <;> simp
@[simp] theorem State.sealFault_load (s : State) (code : Nat) (u : FaultUnit) :
    (State.sealFault s code u).load = s.load := by
  simp only [State.sealFault]
  split <;> simp
@[simp] theorem State.sealFault_host (s : State) (code : Nat) (u : FaultUnit) :
    (State.sealFault s code u).host = s.host := by
  simp only [State.sealFault]
  split <;> simp
@[simp] theorem State.sealFault_svc (s : State) (code : Nat) (u : FaultUnit) :
    (State.sealFault s code u).svc = s.svc := by
  simp only [State.sealFault]
  split <;> simp
@[simp] theorem State.sealFault_time (s : State) (code : Nat) (u : FaultUnit) :
    (State.sealFault s code u).time = s.time := by
  simp only [State.sealFault]
  split <;> simp
@[simp] theorem State.sealFault_power (s : State) (code : Nat) (u : FaultUnit) :
    (State.sealFault s code u).power = s.power := by
  simp only [State.sealFault]
  split <;> simp
@[simp] theorem State.sealFault_island (s : State) (code : Nat) (u : FaultUnit) :
    (State.sealFault s code u).island = s.island := by
  simp only [State.sealFault]
  split <;> simp
@[simp] theorem State.sealFault_trestle (s : State) (code : Nat) (u : FaultUnit) :
    (State.sealFault s code u).trestle = s.trestle := by
  simp only [State.sealFault]
  split <;> simp
@[simp] theorem State.sealFault_spi (s : State) (code : Nat) (u : FaultUnit) :
    (State.sealFault s code u).spi = s.spi := by
  simp only [State.sealFault]
  split <;> simp
@[simp] theorem State.sealFault_flash (s : State) (code : Nat) (u : FaultUnit) :
    (State.sealFault s code u).flash = s.flash := by
  simp only [State.sealFault]
  split <;> simp
@[simp] theorem State.sealFault_tag (s : State) (code : Nat) (u : FaultUnit) :
    (State.sealFault s code u).tag = s.tag := by
  simp only [State.sealFault]
  split <;> simp
@[simp] theorem State.sealFault_pins (s : State) (code : Nat) (u : FaultUnit) :
    (State.sealFault s code u).pins = s.pins := by
  simp only [State.sealFault]
  split <;> simp
@[simp] theorem State.tickFault_pending (s : State) (code : Nat) (u : FaultUnit) :
    (State.tickFault s code u).pending = s.pending := by
  unfold State.tickFault
  split <;> simp
@[simp] theorem State.tickFault_regs (s : State) (code : Nat) (u : FaultUnit) :
    (State.tickFault s code u).regs = s.regs := by
  unfold State.tickFault
  split <;> simp
@[simp] theorem State.tickFault_eff (s : State) (code : Nat) (u : FaultUnit) :
    (State.tickFault s code u).eff = s.eff := by
  unfold State.tickFault
  split <;> simp
@[simp] theorem State.tickFault_hidden (s : State) (code : Nat) (u : FaultUnit) :
    (State.tickFault s code u).hidden = s.hidden := by
  unfold State.tickFault
  split <;> simp
@[simp] theorem State.tickFault_mem (s : State) (code : Nat) (u : FaultUnit) :
    (State.tickFault s code u).mem = s.mem := by
  unfold State.tickFault
  split <;> simp
@[simp] theorem State.tickFault_ecc (s : State) (code : Nat) (u : FaultUnit) :
    (State.tickFault s code u).ecc = s.ecc := by
  unfold State.tickFault
  split <;> simp
@[simp] theorem State.tickFault_written (s : State) (code : Nat) (u : FaultUnit) :
    (State.tickFault s code u).written = s.written := by
  unfold State.tickFault
  split <;> simp
@[simp] theorem State.tickFault_freeCtr (s : State) (code : Nat) (u : FaultUnit) :
    (State.tickFault s code u).freeCtr = s.freeCtr := by
  unfold State.tickFault
  split <;> simp
@[simp] theorem State.tickFault_out (s : State) (code : Nat) (u : FaultUnit) :
    (State.tickFault s code u).out = s.out := by
  unfold State.tickFault
  split <;> simp
@[simp] theorem State.tickFault_image (s : State) (code : Nat) (u : FaultUnit) :
    (State.tickFault s code u).image = s.image := by
  unfold State.tickFault
  split <;> simp
@[simp] theorem State.tickFault_clusters (s : State) (code : Nat) (u : FaultUnit) :
    (State.tickFault s code u).clusters = s.clusters := by
  unfold State.tickFault
  split <;> simp
@[simp] theorem State.tickFault_scrubs (s : State) (code : Nat) (u : FaultUnit) :
    (State.tickFault s code u).scrubs = s.scrubs := by
  unfold State.tickFault
  split <;> simp
@[simp] theorem State.tickFault_ports (s : State) (code : Nat) (u : FaultUnit) :
    (State.tickFault s code u).ports = s.ports := by
  unfold State.tickFault
  split <;> simp
@[simp] theorem State.tickFault_fabric (s : State) (code : Nat) (u : FaultUnit) :
    (State.tickFault s code u).fabric = s.fabric := by
  unfold State.tickFault
  split <;> simp
@[simp] theorem State.tickFault_load (s : State) (code : Nat) (u : FaultUnit) :
    (State.tickFault s code u).load = s.load := by
  unfold State.tickFault
  split <;> simp
@[simp] theorem State.tickFault_host (s : State) (code : Nat) (u : FaultUnit) :
    (State.tickFault s code u).host = s.host := by
  unfold State.tickFault
  split <;> simp
@[simp] theorem State.tickFault_svc (s : State) (code : Nat) (u : FaultUnit) :
    (State.tickFault s code u).svc = s.svc := by
  unfold State.tickFault
  split <;> simp
@[simp] theorem State.tickFault_time (s : State) (code : Nat) (u : FaultUnit) :
    (State.tickFault s code u).time = s.time := by
  unfold State.tickFault
  split <;> simp
@[simp] theorem State.tickFault_power (s : State) (code : Nat) (u : FaultUnit) :
    (State.tickFault s code u).power = s.power := by
  unfold State.tickFault
  split <;> simp
@[simp] theorem State.tickFault_island (s : State) (code : Nat) (u : FaultUnit) :
    (State.tickFault s code u).island = s.island := by
  unfold State.tickFault
  split <;> simp
@[simp] theorem State.tickFault_trestle (s : State) (code : Nat) (u : FaultUnit) :
    (State.tickFault s code u).trestle = s.trestle := by
  unfold State.tickFault
  split <;> simp
@[simp] theorem State.tickFault_spi (s : State) (code : Nat) (u : FaultUnit) :
    (State.tickFault s code u).spi = s.spi := by
  unfold State.tickFault
  split <;> simp
@[simp] theorem State.tickFault_flash (s : State) (code : Nat) (u : FaultUnit) :
    (State.tickFault s code u).flash = s.flash := by
  unfold State.tickFault
  split <;> simp
@[simp] theorem State.tickFault_tag (s : State) (code : Nat) (u : FaultUnit) :
    (State.tickFault s code u).tag = s.tag := by
  unfold State.tickFault
  split <;> simp
@[simp] theorem State.tickFault_pins (s : State) (code : Nat) (u : FaultUnit) :
    (State.tickFault s code u).pins = s.pins := by
  unfold State.tickFault
  split <;> simp
@[simp] theorem State.noteStatus_pending (s old : State) : (State.noteStatus s old).pending = s.pending := by
  unfold State.noteStatus
  split <;> simp
@[simp] theorem State.noteStatus_regs (s old : State) : (State.noteStatus s old).regs = s.regs := by
  unfold State.noteStatus
  split <;> simp
@[simp] theorem State.noteStatus_eff (s old : State) : (State.noteStatus s old).eff = s.eff := by
  unfold State.noteStatus
  split <;> simp
@[simp] theorem State.noteStatus_hidden (s old : State) : (State.noteStatus s old).hidden = s.hidden := by
  unfold State.noteStatus
  split <;> simp
@[simp] theorem State.noteStatus_mem (s old : State) : (State.noteStatus s old).mem = s.mem := by
  unfold State.noteStatus
  split <;> simp
@[simp] theorem State.noteStatus_ecc (s old : State) : (State.noteStatus s old).ecc = s.ecc := by
  unfold State.noteStatus
  split <;> simp
@[simp] theorem State.noteStatus_written (s old : State) : (State.noteStatus s old).written = s.written := by
  unfold State.noteStatus
  split <;> simp
@[simp] theorem State.noteStatus_freeCtr (s old : State) : (State.noteStatus s old).freeCtr = s.freeCtr := by
  unfold State.noteStatus
  split <;> simp
@[simp] theorem State.noteStatus_out (s old : State) : (State.noteStatus s old).out = s.out := by
  unfold State.noteStatus
  split <;> simp
@[simp] theorem State.noteStatus_tick (s old : State) : (State.noteStatus s old).tick = s.tick := by
  unfold State.noteStatus
  split <;> simp
@[simp] theorem State.noteStatus_image (s old : State) : (State.noteStatus s old).image = s.image := by
  unfold State.noteStatus
  split <;> simp
@[simp] theorem State.noteStatus_clusters (s old : State) : (State.noteStatus s old).clusters = s.clusters := by
  unfold State.noteStatus
  split <;> simp
@[simp] theorem State.noteStatus_scrubs (s old : State) : (State.noteStatus s old).scrubs = s.scrubs := by
  unfold State.noteStatus
  split <;> simp
@[simp] theorem State.noteStatus_ports (s old : State) : (State.noteStatus s old).ports = s.ports := by
  unfold State.noteStatus
  split <;> simp
@[simp] theorem State.noteStatus_fabric (s old : State) : (State.noteStatus s old).fabric = s.fabric := by
  unfold State.noteStatus
  split <;> simp
@[simp] theorem State.noteStatus_load (s old : State) : (State.noteStatus s old).load = s.load := by
  unfold State.noteStatus
  split <;> simp
@[simp] theorem State.noteStatus_host (s old : State) : (State.noteStatus s old).host = s.host := by
  unfold State.noteStatus
  split <;> simp
@[simp] theorem State.noteStatus_svc (s old : State) : (State.noteStatus s old).svc = s.svc := by
  unfold State.noteStatus
  split <;> simp
@[simp] theorem State.noteStatus_time (s old : State) : (State.noteStatus s old).time = s.time := by
  unfold State.noteStatus
  split <;> simp
@[simp] theorem State.noteStatus_power (s old : State) : (State.noteStatus s old).power = s.power := by
  unfold State.noteStatus
  split <;> simp
@[simp] theorem State.noteStatus_island (s old : State) : (State.noteStatus s old).island = s.island := by
  unfold State.noteStatus
  split <;> simp
@[simp] theorem State.noteStatus_spi (s old : State) : (State.noteStatus s old).spi = s.spi := by
  unfold State.noteStatus
  split <;> simp
@[simp] theorem State.noteStatus_flash (s old : State) : (State.noteStatus s old).flash = s.flash := by
  unfold State.noteStatus
  split <;> simp
@[simp] theorem State.noteStatus_tag (s old : State) : (State.noteStatus s old).tag = s.tag := by
  unfold State.noteStatus
  split <;> simp
@[simp] theorem State.noteStatus_pins (s old : State) : (State.noteStatus s old).pins = s.pins := by
  unfold State.noteStatus
  split <;> simp
@[simp] theorem State.modPower_pending (s : State) (f : Power → Power) : (State.modPower s f).pending = s.pending := by
  simp [State.modPower]
@[simp] theorem State.modPower_regs (s : State) (f : Power → Power) : (State.modPower s f).regs = s.regs := by
  simp [State.modPower]
@[simp] theorem State.modPower_eff (s : State) (f : Power → Power) : (State.modPower s f).eff = s.eff := by
  simp [State.modPower]
@[simp] theorem State.modPower_hidden (s : State) (f : Power → Power) : (State.modPower s f).hidden = s.hidden := by
  simp [State.modPower]
@[simp] theorem State.modPower_mem (s : State) (f : Power → Power) : (State.modPower s f).mem = s.mem := by
  simp [State.modPower]
@[simp] theorem State.modPower_ecc (s : State) (f : Power → Power) : (State.modPower s f).ecc = s.ecc := by
  simp [State.modPower]
@[simp] theorem State.modPower_written (s : State) (f : Power → Power) : (State.modPower s f).written = s.written := by
  simp [State.modPower]
@[simp] theorem State.modPower_freeCtr (s : State) (f : Power → Power) : (State.modPower s f).freeCtr = s.freeCtr := by
  simp [State.modPower]
@[simp] theorem State.modPower_out (s : State) (f : Power → Power) : (State.modPower s f).out = s.out := by
  simp [State.modPower]
@[simp] theorem State.modPower_tick (s : State) (f : Power → Power) : (State.modPower s f).tick = s.tick := by
  simp [State.modPower]
@[simp] theorem State.modPower_image (s : State) (f : Power → Power) : (State.modPower s f).image = s.image := by
  simp [State.modPower]
@[simp] theorem State.modPower_clusters (s : State) (f : Power → Power) :
    (State.modPower s f).clusters = s.clusters := by
  simp [State.modPower]
@[simp] theorem State.modPower_scrubs (s : State) (f : Power → Power) : (State.modPower s f).scrubs = s.scrubs := by
  simp [State.modPower]
@[simp] theorem State.modPower_ports (s : State) (f : Power → Power) : (State.modPower s f).ports = s.ports := by
  simp [State.modPower]
@[simp] theorem State.modPower_fabric (s : State) (f : Power → Power) : (State.modPower s f).fabric = s.fabric := by
  simp [State.modPower]
@[simp] theorem State.modPower_load (s : State) (f : Power → Power) : (State.modPower s f).load = s.load := by
  simp [State.modPower]
@[simp] theorem State.modPower_host (s : State) (f : Power → Power) : (State.modPower s f).host = s.host := by
  simp [State.modPower]
@[simp] theorem State.modPower_svc (s : State) (f : Power → Power) : (State.modPower s f).svc = s.svc := by
  simp [State.modPower]
@[simp] theorem State.modPower_time (s : State) (f : Power → Power) : (State.modPower s f).time = s.time := by
  simp [State.modPower]
@[simp] theorem State.modPower_island (s : State) (f : Power → Power) : (State.modPower s f).island = s.island := by
  simp [State.modPower]
@[simp] theorem State.modPower_spi (s : State) (f : Power → Power) : (State.modPower s f).spi = s.spi := by
  simp [State.modPower]
@[simp] theorem State.modPower_flash (s : State) (f : Power → Power) : (State.modPower s f).flash = s.flash := by
  simp [State.modPower]
@[simp] theorem State.modPower_tag (s : State) (f : Power → Power) : (State.modPower s f).tag = s.tag := by
  simp [State.modPower]
@[simp] theorem State.modPower_pins (s : State) (f : Power → Power) : (State.modPower s f).pins = s.pins := by
  simp [State.modPower]
@[simp] theorem State.modIsland_pending (s : State) (f : Island → Island) :
    (State.modIsland s f).pending = s.pending := by
  simp [State.modIsland]
@[simp] theorem State.modIsland_regs (s : State) (f : Island → Island) : (State.modIsland s f).regs = s.regs := by
  simp [State.modIsland]
@[simp] theorem State.modIsland_eff (s : State) (f : Island → Island) : (State.modIsland s f).eff = s.eff := by
  simp [State.modIsland]
@[simp] theorem State.modIsland_hidden (s : State) (f : Island → Island) : (State.modIsland s f).hidden = s.hidden := by
  simp [State.modIsland]
@[simp] theorem State.modIsland_mem (s : State) (f : Island → Island) : (State.modIsland s f).mem = s.mem := by
  simp [State.modIsland]
@[simp] theorem State.modIsland_ecc (s : State) (f : Island → Island) : (State.modIsland s f).ecc = s.ecc := by
  simp [State.modIsland]
@[simp] theorem State.modIsland_written (s : State) (f : Island → Island) :
    (State.modIsland s f).written = s.written := by
  simp [State.modIsland]
@[simp] theorem State.modIsland_freeCtr (s : State) (f : Island → Island) :
    (State.modIsland s f).freeCtr = s.freeCtr := by
  simp [State.modIsland]
@[simp] theorem State.modIsland_out (s : State) (f : Island → Island) : (State.modIsland s f).out = s.out := by
  simp [State.modIsland]
@[simp] theorem State.modIsland_tick (s : State) (f : Island → Island) : (State.modIsland s f).tick = s.tick := by
  simp [State.modIsland]
@[simp] theorem State.modIsland_image (s : State) (f : Island → Island) : (State.modIsland s f).image = s.image := by
  simp [State.modIsland]
@[simp] theorem State.modIsland_clusters (s : State) (f : Island → Island) :
    (State.modIsland s f).clusters = s.clusters := by
  simp [State.modIsland]
@[simp] theorem State.modIsland_scrubs (s : State) (f : Island → Island) : (State.modIsland s f).scrubs = s.scrubs := by
  simp [State.modIsland]
@[simp] theorem State.modIsland_ports (s : State) (f : Island → Island) : (State.modIsland s f).ports = s.ports := by
  simp [State.modIsland]
@[simp] theorem State.modIsland_fabric (s : State) (f : Island → Island) : (State.modIsland s f).fabric = s.fabric := by
  simp [State.modIsland]
@[simp] theorem State.modIsland_load (s : State) (f : Island → Island) : (State.modIsland s f).load = s.load := by
  simp [State.modIsland]
@[simp] theorem State.modIsland_host (s : State) (f : Island → Island) : (State.modIsland s f).host = s.host := by
  simp [State.modIsland]
@[simp] theorem State.modIsland_svc (s : State) (f : Island → Island) : (State.modIsland s f).svc = s.svc := by
  simp [State.modIsland]
@[simp] theorem State.modIsland_time (s : State) (f : Island → Island) : (State.modIsland s f).time = s.time := by
  simp [State.modIsland]
@[simp] theorem State.modIsland_power (s : State) (f : Island → Island) : (State.modIsland s f).power = s.power := by
  simp [State.modIsland]
@[simp] theorem State.modIsland_spi (s : State) (f : Island → Island) : (State.modIsland s f).spi = s.spi := by
  simp [State.modIsland]
@[simp] theorem State.modIsland_flash (s : State) (f : Island → Island) : (State.modIsland s f).flash = s.flash := by
  simp [State.modIsland]
@[simp] theorem State.modIsland_tag (s : State) (f : Island → Island) : (State.modIsland s f).tag = s.tag := by
  simp [State.modIsland]
@[simp] theorem State.modIsland_pins (s : State) (f : Island → Island) : (State.modIsland s f).pins = s.pins := by
  simp [State.modIsland]
@[simp] theorem State.setGroup_pending (s : State) (c g : Nat) (x : Group) :
    (State.setGroup s c g x).pending = s.pending := rfl
@[simp] theorem State.setGroup_regs (s : State) (c g : Nat) (x : Group) : (State.setGroup s c g x).regs = s.regs := rfl
@[simp] theorem State.setGroup_eff (s : State) (c g : Nat) (x : Group) : (State.setGroup s c g x).eff = s.eff := rfl
@[simp] theorem State.setGroup_hidden (s : State) (c g : Nat) (x : Group) :
    (State.setGroup s c g x).hidden = s.hidden := rfl
@[simp] theorem State.setGroup_mem (s : State) (c g : Nat) (x : Group) : (State.setGroup s c g x).mem = s.mem := rfl
@[simp] theorem State.setGroup_ecc (s : State) (c g : Nat) (x : Group) : (State.setGroup s c g x).ecc = s.ecc := rfl
@[simp] theorem State.setGroup_written (s : State) (c g : Nat) (x : Group) :
    (State.setGroup s c g x).written = s.written := rfl
@[simp] theorem State.setGroup_freeCtr (s : State) (c g : Nat) (x : Group) :
    (State.setGroup s c g x).freeCtr = s.freeCtr := rfl
@[simp] theorem State.setGroup_out (s : State) (c g : Nat) (x : Group) : (State.setGroup s c g x).out = s.out := rfl
@[simp] theorem State.setGroup_tick (s : State) (c g : Nat) (x : Group) : (State.setGroup s c g x).tick = s.tick := rfl
@[simp] theorem State.setGroup_image (s : State) (c g : Nat) (x : Group) : (State.setGroup s c g x).image = s.image := rfl
@[simp] theorem State.setGroup_scrubs (s : State) (c g : Nat) (x : Group) :
    (State.setGroup s c g x).scrubs = s.scrubs := rfl
@[simp] theorem State.setGroup_ports (s : State) (c g : Nat) (x : Group) : (State.setGroup s c g x).ports = s.ports := rfl
@[simp] theorem State.setGroup_fabric (s : State) (c g : Nat) (x : Group) :
    (State.setGroup s c g x).fabric = s.fabric := rfl
@[simp] theorem State.setGroup_load (s : State) (c g : Nat) (x : Group) : (State.setGroup s c g x).load = s.load := rfl
@[simp] theorem State.setGroup_host (s : State) (c g : Nat) (x : Group) : (State.setGroup s c g x).host = s.host := rfl
@[simp] theorem State.setGroup_svc (s : State) (c g : Nat) (x : Group) : (State.setGroup s c g x).svc = s.svc := rfl
@[simp] theorem State.setGroup_time (s : State) (c g : Nat) (x : Group) : (State.setGroup s c g x).time = s.time := rfl
@[simp] theorem State.setGroup_power (s : State) (c g : Nat) (x : Group) : (State.setGroup s c g x).power = s.power := rfl
@[simp] theorem State.setGroup_island (s : State) (c g : Nat) (x : Group) :
    (State.setGroup s c g x).island = s.island := rfl
@[simp] theorem State.setGroup_trestle (s : State) (c g : Nat) (x : Group) :
    (State.setGroup s c g x).trestle = s.trestle := rfl
@[simp] theorem State.setGroup_spi (s : State) (c g : Nat) (x : Group) : (State.setGroup s c g x).spi = s.spi := rfl
@[simp] theorem State.setGroup_flash (s : State) (c g : Nat) (x : Group) : (State.setGroup s c g x).flash = s.flash := rfl
@[simp] theorem State.setGroup_tag (s : State) (c g : Nat) (x : Group) : (State.setGroup s c g x).tag = s.tag := rfl
@[simp] theorem State.setGroup_pins (s : State) (c g : Nat) (x : Group) : (State.setGroup s c g x).pins = s.pins := rfl
@[simp] theorem State.schedule_pending (s : State) (c : Nat) : (State.schedule s c).pending = s.pending := rfl
@[simp] theorem State.schedule_regs (s : State) (c : Nat) : (State.schedule s c).regs = s.regs := rfl
@[simp] theorem State.schedule_eff (s : State) (c : Nat) : (State.schedule s c).eff = s.eff := rfl
@[simp] theorem State.schedule_hidden (s : State) (c : Nat) : (State.schedule s c).hidden = s.hidden := rfl
@[simp] theorem State.schedule_mem (s : State) (c : Nat) : (State.schedule s c).mem = s.mem := rfl
@[simp] theorem State.schedule_ecc (s : State) (c : Nat) : (State.schedule s c).ecc = s.ecc := rfl
@[simp] theorem State.schedule_written (s : State) (c : Nat) : (State.schedule s c).written = s.written := rfl
@[simp] theorem State.schedule_freeCtr (s : State) (c : Nat) : (State.schedule s c).freeCtr = s.freeCtr := rfl
@[simp] theorem State.schedule_out (s : State) (c : Nat) : (State.schedule s c).out = s.out := rfl
@[simp] theorem State.schedule_tick (s : State) (c : Nat) : (State.schedule s c).tick = s.tick := rfl
@[simp] theorem State.schedule_image (s : State) (c : Nat) : (State.schedule s c).image = s.image := rfl
@[simp] theorem State.schedule_scrubs (s : State) (c : Nat) : (State.schedule s c).scrubs = s.scrubs := rfl
@[simp] theorem State.schedule_ports (s : State) (c : Nat) : (State.schedule s c).ports = s.ports := rfl
@[simp] theorem State.schedule_fabric (s : State) (c : Nat) : (State.schedule s c).fabric = s.fabric := rfl
@[simp] theorem State.schedule_load (s : State) (c : Nat) : (State.schedule s c).load = s.load := rfl
@[simp] theorem State.schedule_host (s : State) (c : Nat) : (State.schedule s c).host = s.host := rfl
@[simp] theorem State.schedule_svc (s : State) (c : Nat) : (State.schedule s c).svc = s.svc := rfl
@[simp] theorem State.schedule_time (s : State) (c : Nat) : (State.schedule s c).time = s.time := rfl
@[simp] theorem State.schedule_power (s : State) (c : Nat) : (State.schedule s c).power = s.power := rfl
@[simp] theorem State.schedule_island (s : State) (c : Nat) : (State.schedule s c).island = s.island := rfl
@[simp] theorem State.schedule_trestle (s : State) (c : Nat) : (State.schedule s c).trestle = s.trestle := rfl
@[simp] theorem State.schedule_spi (s : State) (c : Nat) : (State.schedule s c).spi = s.spi := rfl
@[simp] theorem State.schedule_flash (s : State) (c : Nat) : (State.schedule s c).flash = s.flash := rfl
@[simp] theorem State.schedule_tag (s : State) (c : Nat) : (State.schedule s c).tag = s.tag := rfl
@[simp] theorem State.schedule_pins (s : State) (c : Nat) : (State.schedule s c).pins = s.pins := rfl
@[simp] theorem State.removeGroup_pending (s : State) (c g : Nat) : (State.removeGroup s c g).pending = s.pending := rfl
@[simp] theorem State.removeGroup_regs (s : State) (c g : Nat) : (State.removeGroup s c g).regs = s.regs := rfl
@[simp] theorem State.removeGroup_eff (s : State) (c g : Nat) : (State.removeGroup s c g).eff = s.eff := rfl
@[simp] theorem State.removeGroup_hidden (s : State) (c g : Nat) : (State.removeGroup s c g).hidden = s.hidden := rfl
@[simp] theorem State.removeGroup_mem (s : State) (c g : Nat) : (State.removeGroup s c g).mem = s.mem := rfl
@[simp] theorem State.removeGroup_ecc (s : State) (c g : Nat) : (State.removeGroup s c g).ecc = s.ecc := rfl
@[simp] theorem State.removeGroup_written (s : State) (c g : Nat) : (State.removeGroup s c g).written = s.written := rfl
@[simp] theorem State.removeGroup_freeCtr (s : State) (c g : Nat) : (State.removeGroup s c g).freeCtr = s.freeCtr := rfl
@[simp] theorem State.removeGroup_out (s : State) (c g : Nat) : (State.removeGroup s c g).out = s.out := rfl
@[simp] theorem State.removeGroup_tick (s : State) (c g : Nat) : (State.removeGroup s c g).tick = s.tick := rfl
@[simp] theorem State.removeGroup_image (s : State) (c g : Nat) : (State.removeGroup s c g).image = s.image := rfl
@[simp] theorem State.removeGroup_scrubs (s : State) (c g : Nat) : (State.removeGroup s c g).scrubs = s.scrubs := rfl
@[simp] theorem State.removeGroup_ports (s : State) (c g : Nat) : (State.removeGroup s c g).ports = s.ports := rfl
@[simp] theorem State.removeGroup_fabric (s : State) (c g : Nat) : (State.removeGroup s c g).fabric = s.fabric := rfl
@[simp] theorem State.removeGroup_load (s : State) (c g : Nat) : (State.removeGroup s c g).load = s.load := rfl
@[simp] theorem State.removeGroup_host (s : State) (c g : Nat) : (State.removeGroup s c g).host = s.host := rfl
@[simp] theorem State.removeGroup_svc (s : State) (c g : Nat) : (State.removeGroup s c g).svc = s.svc := rfl
@[simp] theorem State.removeGroup_time (s : State) (c g : Nat) : (State.removeGroup s c g).time = s.time := rfl
@[simp] theorem State.removeGroup_power (s : State) (c g : Nat) : (State.removeGroup s c g).power = s.power := rfl
@[simp] theorem State.removeGroup_island (s : State) (c g : Nat) : (State.removeGroup s c g).island = s.island := rfl
@[simp] theorem State.removeGroup_trestle (s : State) (c g : Nat) : (State.removeGroup s c g).trestle = s.trestle := rfl
@[simp] theorem State.removeGroup_spi (s : State) (c g : Nat) : (State.removeGroup s c g).spi = s.spi := rfl
@[simp] theorem State.removeGroup_flash (s : State) (c g : Nat) : (State.removeGroup s c g).flash = s.flash := rfl
@[simp] theorem State.removeGroup_tag (s : State) (c g : Nat) : (State.removeGroup s c g).tag = s.tag := rfl
@[simp] theorem State.removeGroup_pins (s : State) (c g : Nat) : (State.removeGroup s c g).pins = s.pins := rfl
@[simp] theorem State.modGroup_pending (s : State) (c g : Nat) (f : Group → Group) :
    (State.modGroup s c g f).pending = s.pending := by
  unfold State.modGroup
  split <;> simp
@[simp] theorem State.modGroup_regs (s : State) (c g : Nat) (f : Group → Group) :
    (State.modGroup s c g f).regs = s.regs := by
  unfold State.modGroup
  split <;> simp
@[simp] theorem State.modGroup_eff (s : State) (c g : Nat) (f : Group → Group) :
    (State.modGroup s c g f).eff = s.eff := by
  unfold State.modGroup
  split <;> simp
@[simp] theorem State.modGroup_hidden (s : State) (c g : Nat) (f : Group → Group) :
    (State.modGroup s c g f).hidden = s.hidden := by
  unfold State.modGroup
  split <;> simp
@[simp] theorem State.modGroup_mem (s : State) (c g : Nat) (f : Group → Group) :
    (State.modGroup s c g f).mem = s.mem := by
  unfold State.modGroup
  split <;> simp
@[simp] theorem State.modGroup_ecc (s : State) (c g : Nat) (f : Group → Group) :
    (State.modGroup s c g f).ecc = s.ecc := by
  unfold State.modGroup
  split <;> simp
@[simp] theorem State.modGroup_written (s : State) (c g : Nat) (f : Group → Group) :
    (State.modGroup s c g f).written = s.written := by
  unfold State.modGroup
  split <;> simp
@[simp] theorem State.modGroup_freeCtr (s : State) (c g : Nat) (f : Group → Group) :
    (State.modGroup s c g f).freeCtr = s.freeCtr := by
  unfold State.modGroup
  split <;> simp
@[simp] theorem State.modGroup_out (s : State) (c g : Nat) (f : Group → Group) :
    (State.modGroup s c g f).out = s.out := by
  unfold State.modGroup
  split <;> simp
@[simp] theorem State.modGroup_tick (s : State) (c g : Nat) (f : Group → Group) :
    (State.modGroup s c g f).tick = s.tick := by
  unfold State.modGroup
  split <;> simp
@[simp] theorem State.modGroup_image (s : State) (c g : Nat) (f : Group → Group) :
    (State.modGroup s c g f).image = s.image := by
  unfold State.modGroup
  split <;> simp
@[simp] theorem State.modGroup_scrubs (s : State) (c g : Nat) (f : Group → Group) :
    (State.modGroup s c g f).scrubs = s.scrubs := by
  unfold State.modGroup
  split <;> simp
@[simp] theorem State.modGroup_ports (s : State) (c g : Nat) (f : Group → Group) :
    (State.modGroup s c g f).ports = s.ports := by
  unfold State.modGroup
  split <;> simp
@[simp] theorem State.modGroup_fabric (s : State) (c g : Nat) (f : Group → Group) :
    (State.modGroup s c g f).fabric = s.fabric := by
  unfold State.modGroup
  split <;> simp
@[simp] theorem State.modGroup_load (s : State) (c g : Nat) (f : Group → Group) :
    (State.modGroup s c g f).load = s.load := by
  unfold State.modGroup
  split <;> simp
@[simp] theorem State.modGroup_host (s : State) (c g : Nat) (f : Group → Group) :
    (State.modGroup s c g f).host = s.host := by
  unfold State.modGroup
  split <;> simp
@[simp] theorem State.modGroup_svc (s : State) (c g : Nat) (f : Group → Group) :
    (State.modGroup s c g f).svc = s.svc := by
  unfold State.modGroup
  split <;> simp
@[simp] theorem State.modGroup_time (s : State) (c g : Nat) (f : Group → Group) :
    (State.modGroup s c g f).time = s.time := by
  unfold State.modGroup
  split <;> simp
@[simp] theorem State.modGroup_power (s : State) (c g : Nat) (f : Group → Group) :
    (State.modGroup s c g f).power = s.power := by
  unfold State.modGroup
  split <;> simp
@[simp] theorem State.modGroup_island (s : State) (c g : Nat) (f : Group → Group) :
    (State.modGroup s c g f).island = s.island := by
  unfold State.modGroup
  split <;> simp
@[simp] theorem State.modGroup_trestle (s : State) (c g : Nat) (f : Group → Group) :
    (State.modGroup s c g f).trestle = s.trestle := by
  unfold State.modGroup
  split <;> simp
@[simp] theorem State.modGroup_spi (s : State) (c g : Nat) (f : Group → Group) :
    (State.modGroup s c g f).spi = s.spi := by
  unfold State.modGroup
  split <;> simp
@[simp] theorem State.modGroup_flash (s : State) (c g : Nat) (f : Group → Group) :
    (State.modGroup s c g f).flash = s.flash := by
  unfold State.modGroup
  split <;> simp
@[simp] theorem State.modGroup_tag (s : State) (c g : Nat) (f : Group → Group) :
    (State.modGroup s c g f).tag = s.tag := by
  unfold State.modGroup
  split <;> simp
@[simp] theorem State.modGroup_pins (s : State) (c g : Nat) (f : Group → Group) :
    (State.modGroup s c g f).pins = s.pins := by
  unfold State.modGroup
  split <;> simp
@[simp] theorem State.issued_pending (s : State) (c g : Nat) : (State.issued s c g).pending = s.pending := by
  simp only [State.issued]
  repeat' split
  all_goals simp
@[simp] theorem State.issued_eff (s : State) (c g : Nat) : (State.issued s c g).eff = s.eff := by
  simp only [State.issued]
  repeat' split
  all_goals simp
@[simp] theorem State.issued_mem (s : State) (c g : Nat) : (State.issued s c g).mem = s.mem := by
  simp only [State.issued]
  repeat' split
  all_goals simp
@[simp] theorem State.issued_ecc (s : State) (c g : Nat) : (State.issued s c g).ecc = s.ecc := by
  simp only [State.issued]
  repeat' split
  all_goals simp
@[simp] theorem State.issued_written (s : State) (c g : Nat) : (State.issued s c g).written = s.written := by
  simp only [State.issued]
  repeat' split
  all_goals simp
@[simp] theorem State.issued_out (s : State) (c g : Nat) : (State.issued s c g).out = s.out := by
  simp only [State.issued]
  repeat' split
  all_goals simp
@[simp] theorem State.issued_tick (s : State) (c g : Nat) : (State.issued s c g).tick = s.tick := by
  simp only [State.issued]
  repeat' split
  all_goals simp
@[simp] theorem State.issued_image (s : State) (c g : Nat) : (State.issued s c g).image = s.image := by
  simp only [State.issued]
  repeat' split
  all_goals simp
@[simp] theorem State.issued_scrubs (s : State) (c g : Nat) : (State.issued s c g).scrubs = s.scrubs := by
  simp only [State.issued]
  repeat' split
  all_goals simp
@[simp] theorem State.issued_ports (s : State) (c g : Nat) : (State.issued s c g).ports = s.ports := by
  simp only [State.issued]
  repeat' split
  all_goals simp
@[simp] theorem State.issued_fabric (s : State) (c g : Nat) : (State.issued s c g).fabric = s.fabric := by
  simp only [State.issued]
  repeat' split
  all_goals simp
@[simp] theorem State.issued_load (s : State) (c g : Nat) : (State.issued s c g).load = s.load := by
  simp only [State.issued]
  repeat' split
  all_goals simp
@[simp] theorem State.issued_host (s : State) (c g : Nat) : (State.issued s c g).host = s.host := by
  simp only [State.issued]
  repeat' split
  all_goals simp
@[simp] theorem State.issued_svc (s : State) (c g : Nat) : (State.issued s c g).svc = s.svc := by
  simp only [State.issued]
  repeat' split
  all_goals simp
@[simp] theorem State.issued_time (s : State) (c g : Nat) : (State.issued s c g).time = s.time := by
  simp only [State.issued]
  repeat' split
  all_goals simp
@[simp] theorem State.issued_power (s : State) (c g : Nat) : (State.issued s c g).power = s.power := by
  simp only [State.issued]
  repeat' split
  all_goals simp
@[simp] theorem State.issued_island (s : State) (c g : Nat) : (State.issued s c g).island = s.island := by
  simp only [State.issued]
  repeat' split
  all_goals simp
@[simp] theorem State.issued_trestle (s : State) (c g : Nat) : (State.issued s c g).trestle = s.trestle := by
  simp only [State.issued]
  repeat' split
  all_goals simp
@[simp] theorem State.issued_spi (s : State) (c g : Nat) : (State.issued s c g).spi = s.spi := by
  simp only [State.issued]
  repeat' split
  all_goals simp
@[simp] theorem State.issued_flash (s : State) (c g : Nat) : (State.issued s c g).flash = s.flash := by
  simp only [State.issued]
  repeat' split
  all_goals simp
@[simp] theorem State.issued_tag (s : State) (c g : Nat) : (State.issued s c g).tag = s.tag := by
  simp only [State.issued]
  repeat' split
  all_goals simp
@[simp] theorem State.issued_pins (s : State) (c g : Nat) : (State.issued s c g).pins = s.pins := by
  simp only [State.issued]
  repeat' split
  all_goals simp

@[simp] theorem State.modTick_tick (s : State) (f : Tick → Tick) : (s.modTick f).tick = f s.tick := rfl
@[simp] theorem State.modSvc_svc (s : State) (f : Service → Service) : (s.modSvc f).svc = f s.svc := rfl
@[simp] theorem State.modFab_fabric (s : State) (f : Fabric → Fabric) : (s.modFab f).fabric = f s.fabric := rfl
@[simp] theorem State.modHost_host (s : State) (f : HostPort → HostPort) : (s.modHost f).host = f s.host := rfl
@[simp] theorem State.modLoad_load (s : State) (f : Load → Load) : (s.modLoad f).load = f s.load := rfl
@[simp] theorem State.modTime_time (s : State) (f : TimeUnit → TimeUnit) : (s.modTime f).time = f s.time := rfl
@[simp] theorem State.modPower_power (s : State) (f : Power → Power) : (s.modPower f).power = f s.power := by
  simp only [State.modPower, State.noteStatus_power]
@[simp] theorem State.modIsland_island (s : State) (f : Island → Island) : (s.modIsland f).island = f s.island := by
  simp only [State.modIsland, State.noteStatus_island]
@[simp] theorem State.send_out (s : State) (o : Out) : (s.send o).out = s.out ++ [o] := rfl
@[simp] theorem State.draw_freeCtr (s : State) : s.draw.freeCtr = s.freeCtr + 1 := rfl

theorem State.modCluster_cluster (s : State) (c d : Nat) (f : Cluster → Cluster) :
    (s.modCluster c f).cluster d = if d = c then f (s.cluster c) else s.cluster d := by
  simp only [State.cluster, State.modCluster, State.setCluster, mget_mput]

@[simp] theorem State.modCluster_self (s : State) (c : Nat) (f : Cluster → Cluster) :
    (s.modCluster c f).cluster c = f (s.cluster c) := by
  simp [State.modCluster_cluster]

theorem State.modPort_port (s : State) (p q : Nat) (f : Port → Port) :
    (s.modPort p f).port q = if q = p then f (s.port p) else s.port q := by
  simp only [State.port, State.modPort, mget_mput]

@[simp] theorem State.modPort_self (s : State) (p : Nat) (f : Port → Port) : (s.modPort p f).port p = f (s.port p) := by
  simp [State.modPort_port]

theorem State.modFn_fn (s : State) (n m : Nat) (f : Function → Function) :
    (s.modFn n f).fn m = if m = n then f (s.fn n) else s.fn m := by
  simp only [State.fn, State.modFn, mget_mput]

@[simp] theorem State.modFn_self (s : State) (n : Nat) (f : Function → Function) : (s.modFn n f).fn n = f (s.fn n) := by
  simp [State.modFn_fn]

@[simp] theorem State.modQueue_self (s : State) (n q : Nat) (f : Queue → Queue) :
    (s.modQueue n q f).queue n q = f (s.queue n q) := by
  simp only [State.queue, State.modQueue, mget_mput_self]

@[simp] theorem State.modQuarter_self (s : State) (q : Nat) (f : Quarter → Quarter) :
    (s.modQuarter q f).quarter q = f (s.quarter q) := by
  simp only [State.quarter, State.modQuarter, mget_mput_self]

/-- A register stored is the register read, as a 32-bit word. -/
theorem State.setRaw_rawAt (s : State) (p : PageType) (i off bank v : Nat) :
    (s.setRaw p i off bank v).rawAt p i off bank = v % 2 ^ 32 := by
  simp [State.rawAt, State.setRaw, w32]

theorem State.wr_rd (s : State) (r : Reg) (v i bank idx : Nat) :
    (s.wr r v i bank idx).rd r i bank idx = v % 2 ^ 32 := by
  simp only [State.rd, State.wr, State.setRaw_rawAt]

/-- Storing a register leaves the others: those of another key. -/
theorem State.setRaw_rawAt_ne (s : State) {p q : PageType} {i j o u bank b : Nat} (v : Nat)
    (h : regKey (pageNo q j) u b ≠ regKey (pageNo p i) o bank) :
    (s.setRaw p i o bank v).rawAt q j u b = s.rawAt q j u b := by
  simp [State.rawAt, State.setRaw, mfind_mput_ne _ _ h]

theorem State.setHdr_hdr (s : State) (pg off v : Nat) : (s.setHdr pg off v).hdr pg off = v % 2 ^ 32 := by
  simp [State.hdr, State.setHdr, w32]

/-- A byte stored is the byte read. -/
@[simp] theorem State.setByte_byte (s : State) (a : Nat) (b : Byte) : (s.setByte a b).byte a = b := by
  simp only [State.byte, State.setByte, mget_mset_self]

/-- Storing a byte leaves every other byte. -/
theorem State.setByte_byte_ne (s : State) {a j : Nat} (b : Byte) (h : j ≠ a) : (s.setByte a b).byte j = s.byte j := by
  simp only [State.byte, State.setByte]
  exact mget_mset_ne 0#8 s.mem b h

end Sys2Proof.Machine
end

