-- ==== Sys2Proof/Laws/Threads.lean ====
section
/-!
SUPPORT. What the issue of a thread instruction does.
-/
namespace Sys2Proof.Machine

theorem State.touchEntry_clean {s : State} {c i src t : Nat} (h0 : mget 0 s.ecc (hEccKey c i 0) = 0)
    (h1 : mget 0 s.ecc (hEccKey c i 1) = 0) : s.touchEntry c i src t = s := by
  simp only [State.touchEntry, State.touchEntryWord, h0, h1]

theorem State.each_same {α : Type} {s : State} {l : List α} {f : State → α → State} (h : ∀ a ∈ l, f s a = s) :
    s.each l f = s := by
  unfold State.each
  induction l with
  | nil => rfl
  | cons a r ih =>
    rw [List.foldl_cons, h a (by simp)]
    exact ih (fun b hb => h b (by simp [hb]))

theorem State.touch_clean {s : State} {a src t : Nat} (h : s.eccOf a = 0) : s.touch a src t = s := by
  simp only [State.touch, h]

/-- The fetch of a group that runs changes nothing. -/
theorem CleanFetch.fetch {s : State} {c op : Nat} {w : TWord} {x : Group} (h : CleanFetch s c op w x) :
    s.fetchTouch c x = s := by
  rw [State.fetchTouch, State.touchEntry_clean h.1 h.2.1]
  exact State.each_same (fun a ha => State.touch_clean (h.2.2.1 a ha))

/-- A legal instruction of a group that runs, held back by no earlier access, takes its effect. -/
theorem Runs.issueHeld {s : State} {c g op : Nat} {w : TWord} {x : Group} {regs : List Nat} (h : Runs s c g op w x regs)
    {hold : Group → Bool} (hh : hold x = false) (body : State → Group → State) :
    s.issueHeld c g op w true regs hold body = (body (s.issued c g) x).afterIssue c g := by
  obtain ⟨h1, h2, h3, h4, h5, h6⟩ := h
  have h7 : regs.any (fun r => (s.awaited c g).contains r) = false := by
    rw [List.any_eq_false]
    intro r hr
    simpa using h5 r hr
  simp only [State.issueHeld, h1, h2, h3, h7, hh, h6.fetch, h6.2.2.2]
  simp [Nat.not_lt.mpr h4]

/-- A legal instruction of a group that runs takes its effect. -/
theorem Runs.issue {s : State} {c g op : Nat} {w : TWord} {x : Group} {regs : List Nat} (h : Runs s c g op w x regs)
    (body : State → Group → State) :
    s.issue c g op w true regs body = (body (s.issued c g) x).afterIssue c g :=
  h.issueHeld rfl body

/-- The issue of an instruction moves only the pointer of the active set, TGP.NDC and the free values' counter. -/
theorem State.issued_fields (s : State) (c g : Nat) :
    (s.issued c g) = { s with
        clusters := (s.issued c g).clusters, regs := (s.issued c g).regs
        hidden := (s.issued c g).hidden, freeCtr := (s.issued c g).freeCtr } ∧
      (∀ d, d ≠ c → (s.issued c g).cluster d = s.cluster d) ∧
      (∃ r, (s.issued c g).cluster c = { s.cluster c with rotate := r }) ∧
      (∀ k, k ≠ regKey (pageNo .tgp c) R.tgpNdc.off 0 → mfind (s.issued c g).regs k = mfind s.regs k) ∧
      (∀ k, k ≠ regKey (pageNo .tgp c) R.tgpNdc.off 0 → mfind (s.issued c g).hidden k = mfind s.hidden k) := by
  have key : ∀ (t : State) (f : Cluster → Cluster), (∀ y, ∃ r, f y = { y with rotate := r }) →
      t = { s with regs := t.regs, hidden := t.hidden } →
      (∀ k, k ≠ regKey (pageNo .tgp c) R.tgpNdc.off 0 → mfind t.regs k = mfind s.regs k) →
      (∀ k, k ≠ regKey (pageNo .tgp c) R.tgpNdc.off 0 → mfind t.hidden k = mfind s.hidden k) →
      let u := (t.modCluster c f).draw
      u = { s with clusters := u.clusters, regs := u.regs, hidden := u.hidden, freeCtr := u.freeCtr } ∧
        (∀ d, d ≠ c → u.cluster d = s.cluster d) ∧ (∃ r, u.cluster c = { s.cluster c with rotate := r }) ∧
        (∀ k, k ≠ regKey (pageNo .tgp c) R.tgpNdc.off 0 → mfind u.regs k = mfind s.regs k) ∧
        (∀ k, k ≠ regKey (pageNo .tgp c) R.tgpNdc.off 0 → mfind u.hidden k = mfind s.hidden k) := by
    intro t f hf h1 h2 h3
    have hc : ∀ d, t.cluster d = s.cluster d := by
      intro d
      rw [h1]
      rfl
    refine ⟨?_, ?_, ?_, h2, h3⟩
    · rw [h1]
      rfl
    · intro d hd
      show (t.modCluster c f).cluster d = _
      rw [State.modCluster_cluster, if_neg hd, hc]
    · show ∃ r, (t.modCluster c f).cluster c = _
      rw [State.modCluster_self, hc]
      exact hf _
  unfold State.issued
  cases he : (s.cluster c).entryOf g with
  | none =>
    refine ⟨rfl, fun _ _ => rfl, ⟨(s.cluster c).rotate, rfl⟩, fun _ _ => rfl, fun _ _ => rfl⟩
  | some e =>
    dsimp only
    split
    · apply key _ _ (fun y => ⟨_, rfl⟩)
      · simp only [State.cnt]
        split <;> rfl
      · intro j hj
        simp only [State.cnt]
        split
        · rfl
        · exact mfind_mput_ne _ _ hj
      · intro j hj
        simp only [State.cnt]
        split
        · exact mfind_mput_ne _ _ hj
        · rfl
    · exact key s _ (fun y => ⟨_, rfl⟩) rfl (fun _ _ => rfl) (fun _ _ => rfl)

/-- A group instruction: the group becomes what its effect says. -/
theorem Runs.becomes {s : State} {c g op : Nat} {w : TWord} {x : Group} {regs : List Nat} (h : Runs s c g op w x regs)
    (f : State → Group → Group) :
    GroupBecomes s c g (f (s.issued c g) x) (.next (s.issueGroup c g op w true regs f)) := by
  refine ⟨_, rfl, ?_⟩
  rw [State.issueGroup, h.issue]
  obtain ⟨h1, h2, ⟨r, h3⟩, h4, h5⟩ := s.issued_fields c g
  generalize f (s.issued c g) x = y
  generalize s.issued c g = u at *
  have hg : ∀ z : Group, (u.setGroup c g z).group c g = some z := by
    intro z
    simp only [State.group, State.setGroup, State.modCluster_self, mfind_mput_self]
  have ha : (u.setGroup c g y).afterIssue c g =
      ((u.setGroup c g y).setGroup c g y.issuedOnce).schedule c := by
    simp only [State.afterIssue, State.modGroup, hg, Group.issuedOnce]
  rw [ha]
  set z : Group := y.issuedOnce with hz
  have hk : ((u.setGroup c g y).setGroup c g z).cluster c =
      { u.cluster c with groups := mput (mput (u.cluster c).groups g y) g z } := by
    simp only [State.setGroup, State.modCluster_self]
  have hs : (((u.setGroup c g y).setGroup c g z).schedule c).cluster c =
      ({ u.cluster c with groups := mput (mput (u.cluster c).groups g y) g z } : Cluster).schedule := by
    simp only [State.schedule, State.modCluster_self, hk]
  refine ⟨?_, ?_, ?_, ?_, ?_, ?_, ?_⟩
  · simp only [State.group, hs, Cluster.schedule, mfind_mput_self]
  · rw [h1]
    rfl
  · intro d hd
    simp only [State.schedule, State.setGroup, State.modCluster_cluster, if_neg hd]
    exact h2 d hd
  · rw [hs, h3]
    rfl
  · intro j hj
    simp only [State.group, hs, Cluster.schedule, mfind_mput_ne _ _ hj, h3]
  · exact h4
  · exact h5

/-! ### Registers of a group -/

theorem lanes_mem {ex : Word} {l : Nat} : l ∈ lanes ex ↔ l < 32 ∧ ex.getLsbD l = true := by
  simp [lanes]

theorem Group.setT_treg (x : Group) (r l q j : Nat) (v : Word) :
    (x.setT r l v).treg q j = if q * 32 + j = r * 32 + l then v else x.treg q j := by
  simp only [Group.treg, Group.setT, mget_mput]

theorem Group.foldT_treg (x : Group) (d : Nat) (f : Nat → Word) (ls : List Nat) (hl : ∀ l ∈ ls, l < 32) (r l : Nat)
    (h : l < 32) : (ls.foldl (fun y l => y.setT d l (f l)) x).treg r l = if r = d ∧ l ∈ ls then f l else x.treg r l := by
  induction ls generalizing x with
  | nil => simp
  | cons a t ih =>
    rw [List.foldl_cons, ih _ (fun b hb => hl b (by simp [hb])), Group.setT_treg]
    have ha : a < 32 := hl a (by simp)
    by_cases hr : r = d
    · subst hr
      by_cases hm : l ∈ t
      · simp [hm]
      · by_cases he : l = a
        · subst he; simp
        · simp [hm, he]
    · have : ¬(r * 32 + l = d * 32 + a) := by omega
      simp [hr, this]

theorem Group.foldT_fields (x : Group) (d : Nat) (f : Nat → Word) (ls : List Nat) :
    (ls.foldl (fun y l => y.setT d l (f l)) x) = { x with t := (ls.foldl (fun y l => y.setT d l (f l)) x).t } := by
  induction ls generalizing x with
  | nil => rfl
  | cons a t ih =>
    rw [List.foldl_cons, ih]
    rfl

/-- A lane instruction's effect on its group. -/
theorem Group.each_lanes (x : Group) (w : TWord) (d : Nat) (f : Nat → Word) : LanesSet x (x.each w d f).next w d f := by
  refine ⟨?_, ?_, ?_⟩
  · unfold Group.next Group.each
    rw [Group.foldT_fields]
  · intro l h
    have : (x.each w d f).treg d l = if d = d ∧ l ∈ lanes (x.ex w) then f l else x.treg d l :=
      Group.foldT_treg x d f _ (fun l hl => (lanes_mem.mp hl).1) d l h
    show (x.each w d f).treg d l = _
    rw [this]
    simp only [lanes_mem, h, true_and]
  · intro r l hr h
    have : (x.each w d f).treg r l = if r = d ∧ l ∈ lanes (x.ex w) then f l else x.treg r l :=
      Group.foldT_treg x d f _ (fun l hl => (lanes_mem.mp hl).1) r l h
    show (x.each w d f).treg r l = _
    rw [this]
    simp only [hr, false_and, if_false]

theorem laneMask_fold (f : Nat → Bool) (ls : List Nat) (m : Word) (l : Nat) (h : l < 32) (hl : ∀ a ∈ ls, a < 32) :
    (ls.foldl (fun m l => if f l then m ||| (1#32 <<< l) else m) m).getLsbD l = (m.getLsbD l || (decide (l ∈ ls) && f l)) := by
  induction ls generalizing m with
  | nil => simp
  | cons a t ih =>
    rw [List.foldl_cons, ih _ (fun b hb => hl b (by simp [hb]))]
    have ha : a < 32 := hl a (by simp)
    by_cases he : l = a
    · subst he
      by_cases hf : f l = true
      · simp [hf, h]
      · simp [hf]
    · have hne : ¬(a = l) := fun h => he h.symm
      by_cases hf : f a = true
      · simp only [hf, if_true]
        have : (m ||| 1#32 <<< a).getLsbD l = m.getLsbD l := by
          simp only [BitVec.getLsbD_or, BitVec.getLsbD_shiftLeft, BitVec.getLsbD_one]
          by_cases hla : l < a
          · simp [hla]
          · have : ¬(l - a = 0) := by omega
            simp [this]
        rw [this]
        simp [he]
      · simp [hf, he]

/-- The mask of a lane test. -/
theorem laneMask_bit (ex : Word) (f : Nat → Bool) (l : Nat) (h : l < 32) :
    (laneMask ex f).getLsbD l = (ex.getLsbD l && f l) := by
  unfold laneMask
  rw [laneMask_fold f _ _ l h (fun a ha => (lanes_mem.mp ha).1)]
  simp [lanes_mem, h]

/-- An instruction that sets a predicate from a mask. -/
theorem Group.putPred_set (x : Group) (w : TWord) (k : Nat) (m : Word) (f : Nat → Bool)
    (hf : ∀ l, l < 32 → (x.ex w).getLsbD l = true → m.getLsbD l = f l) : PredSet x (x.putPred w k m).next w k f := by
  refine ⟨rfl, ?_, ?_⟩
  · intro l h
    have hp : ((x.putPred w k m).next).pred k = (x.pred k &&& ~~~(x.ex w)) ||| (m &&& x.ex w) := by
      simp [Group.putPred, Group.next, Group.setP, Group.pred]
    rw [hp]
    simp only [BitVec.getLsbD_or, BitVec.getLsbD_and, BitVec.getLsbD_not, h, decide_true, Bool.true_and]
    by_cases he : (x.ex w).getLsbD l = true
    · simp only [he, hf l h he, if_true, Bool.not_true, Bool.and_false, Bool.and_true, Bool.false_or]
    · simp only [Bool.not_eq_true] at he
      simp only [he, Bool.not_false, Bool.and_true, Bool.and_false, Bool.or_false, Bool.false_eq_true, if_false]
  · intro j hj
    simp only [Group.putPred, Group.next, Group.setP, Group.pred, mget_mput_ne _ _ _ hj]

/-- A comparison's effect on its group. -/
theorem Group.compare_set (x : Group) (w : TWord) (f : Nat → Bool) : PredSet x (x.compare w f).next w (tw w 17 15) f := by
  refine Group.putPred_set x w _ _ f (fun l h he => ?_)
  simp [laneMask_bit _ _ l h, he]

/-- An instruction that sets a uniform register. -/
theorem Group.setU_set (x : Group) (k : Nat) (v : Word) : UniformSet x (x.setU k v).next k v := by
  refine ⟨rfl, ?_, ?_⟩
  · simp [Group.setU, Group.next, Group.ureg]
  · intro j hj
    simp only [Group.setU, Group.next, Group.ureg, mget_mput_ne _ _ _ hj]

end Sys2Proof.Machine
end

