-- ==== Sys2Proof/Laws/Memory.lean ====
section
/-!
SUPPORT. What the memory instructions of a group do once every check passes.
-/
namespace Sys2Proof.Machine

theorem State.pumpN_rest {s : State} (h : AtRest s) (n : Nat) : s.pumpN n = s := by
  cases n with
  | zero => rfl
  | succ n =>
    have hb : s.fabric.back.filter (fun f => f.cls != .mgmt) = [] := by
      rw [List.filter_eq_nil_iff]
      intro f hf
      simp [h.2.1 f hf]
    simp only [State.pumpN, hb, h.1, List.isEmpty_nil, Bool.and_self, if_true]

/-- Where no frame waits at a torus port, none is sent another way. -/
theorem State.reroute_free {s : State} (h : PortsFree s) : s.reroute = s := by
  refine State.each_same (fun p hp => ?_)
  rw [h p (List.mem_range.mp hp)]
  rfl

/-- Where no request waits, the free plane stays as it is. -/
theorem State.pump_rest {s : State} (h : AtRest s) : s.pump = s := by
  unfold State.pump
  rw [State.reroute_free h.2.2]
  exact State.pumpN_rest h _

/-- Handle entries, who owns them, and the comparators that check them are as before. -/
def SameHandles (s t : State) : Prop :=
  (∀ c, (t.cluster c).handles = (s.cluster c).handles) ∧ t.eff = s.eff ∧ t.host = s.host ∧ t.ecc = s.ecc ∧ t.image = s.image ∧
    t.island = s.island

theorem SameHandles.entry {s t : State} (h : SameHandles s t) (c i : Nat) : t.entry c i = s.entry c i := by
  simp only [State.entry, h.1]

theorem SameHandles.owned {s t : State} (h : SameHandles s t) (e : HEntry) (k : Nat) : t.owned e k = s.owned e k := by
  simp only [State.owned, State.tagOn, State.tenantBit, State.inForce, State.fn, h.2.1, h.2.2.1]

theorem SameHandles.entryBad {s t : State} (h : SameHandles s t) (c i : Nat) : t.entryBad c i = s.entryBad c i := by
  simp only [State.entryBad, h.2.2.2.1]

theorem SameHandles.tagOn {s t : State} (h : SameHandles s t) (k : Nat) : t.tagOn k = s.tagOn k := by
  simp only [State.tagOn, State.tenantBit, State.inForce, h.2.1]

theorem SameHandles.resolve {s t : State} (h : SameHandles s t) (c i k : Nat) : t.resolve c i k = s.resolve c i k := by
  simp only [State.resolve, h.entry, h.owned, h.entryBad]

theorem SameHandles.issued (s : State) (c g : Nat) : SameHandles s (s.issued c g) := by
  obtain ⟨h1, h2, ⟨r, h3⟩, -, -⟩ := s.issued_fields c g
  refine ⟨?_, ?_, ?_, ?_, ?_, ?_⟩
  · intro d
    by_cases hd : d = c
    · rw [hd, h3]
    · rw [h2 d hd]
  all_goals rw [h1]

theorem CleanEntry.touch {s : State} {c i : Nat} (h : CleanEntry s c i) (src t : Nat) : s.touchEntry c i src t = s :=
  State.touchEntry_clean h.1 h.2

theorem CleanEntry.good {s : State} {c i : Nat} (h : CleanEntry s c i) : s.entryBad c i = false := by
  simp [State.entryBad, h.1, h.2]

theorem CleanEntry.of {s t : State} {c i : Nat} (h : CleanEntry s c i) (he : t.ecc = s.ecc) : CleanEntry t c i := by
  simpa only [CleanEntry, he] using h

theorem offsets_nil {x : Group} {w : TWord} : x.offsets w = [] ↔ x.ex w = 0#32 := by
  unfold Group.offsets
  rw [List.map_eq_nil_iff, List.eq_nil_iff_forall_not_mem]
  constructor
  · intro h
    apply BitVec.eq_of_getLsbD_eq
    intro i hi
    have := h i
    rw [lanes_mem] at this
    simp only [BitVec.getLsbD_zero]
    cases hb : (x.ex w).getLsbD i with
    | false => rfl
    | true => exact absurd ⟨hi, hb⟩ this
  · intro h a
    rw [lanes_mem, h]
    simp

/-- With no executing lane the group goes on (R96). -/
theorem State.memory_none {s : State} {c g : Nat} {w : TWord} {x : Group} {need : List Nat} {n : Nat}
    {act : State → Resolved → List (Nat × Nat) → State} (h : x.ex w = 0#32) :
    s.memory c g w x need n act = s.setGroup c g x.next := by
  simp only [State.memory, offsets_nil.mpr h]

/-- A memory instruction that passes its checks has its effect with the group past it. -/
theorem MemRuns.memory {s t : State} {c g op : Nat} {w : TWord} {x : Group} {regs need : List Nat} {n : Nat} {r : Resolved}
    (h : MemRuns s c g op w x regs need n r) (ht : SameHandles s t) (act : State → Resolved → List (Nat × Nat) → State) :
    t.memory c g w x need n act = act (t.setGroup c g x.next) r (x.offsets w) := by
  obtain ⟨-, -, -, h3, h11, h4, h5, h6, h7, h8, h10⟩ := h
  have k7 : CleanEntry t c ((x.ureg (wH w)).toNat % 1024) := h7.of ht.2.2.2.1
  have k8 : CleanEntry t r.cluster r.index := h8.of ht.2.2.2.1
  have q7 : t.touchEntry c ((x.ureg (wH w)).toNat % 1024) 7 x.tenant = t := k7.touch 7 x.tenant
  have q8 : t.touchEntry r.cluster r.index 7 x.tenant = t := k8.touch 7 x.tenant
  have h9 : x.offsets w ≠ [] := fun e => h3 (offsets_nil.mp e)
  unfold State.memory
  extract_lets offs i here
  have hi : t.resolve c i x.tenant = some r := (ht.resolve c i x.tenant).trans h4
  cases ho : x.offsets w with
  | nil => exact absurd ho h9
  | cons p l =>
    have hoffs : offs = p :: l := ho
    have k6 : firstFault r.entry (need.contains 1) n (offs.map (·.2)) = none := h6
    rw [hoffs] at k6
    rw [hoffs]
    have hs : (if r.cluster = c then t else t.touchEntry c i 7 x.tenant) = t := by
      rw [q7, ite_self]
    have hd : t.island.disagree = false := by rw [ht.2.2.2.2.2]; exact h10
    have hg : t.tagOn x.tenant = true := (ht.tagOn _).trans h11
    simp only [hd, hg, hi, h5, Bool.not_true, Bool.false_eq_true, if_false, k6]
    rw [hs, q8]

/-- A memory instruction that runs. -/
theorem MemRuns.issue {s : State} {c g op : Nat} {w : TWord} {x : Group} {regs need : List Nat} {n : Nat} {r : Resolved}
    (h : MemRuns s c g op w x regs need n r) (act : Group → State → Resolved → List (Nat × Nat) → State) :
    s.issueHeld c g op w true regs (s.clashes c g w n (need.contains 1)) (fun t x => t.memory c g w x need n (act x)) =
      (act x ((s.issued c g).setGroup c g x.next) r (x.offsets w)).afterIssue c g := by
  rw [h.1.issueHeld h.2.1, h.memory (SameHandles.issued s c g)]

/-! ### Clean bytes -/

theorem CleanBytes.lost {s : State} {g : Nat} {as : List Nat} (h : CleanBytes s g as) {a : Nat} (ha : a ∈ as) :
    s.lost g a = false := by
  obtain ⟨-, h2⟩ := h a ha
  unfold State.lost
  by_cases hm : a < 2 ^ 31
  · rw [h2 hm]
    simp only [Bool.not_true, Bool.and_false, Bool.false_and]
  · simp only [hm, decide_false, Bool.false_and]

theorem ReadsMemory.byte {s : State} {g : Nat} {loc : Bool} {as : List Nat} (h : ReadsMemory s g loc as) {a : Nat}
    (ha : a ∈ as) (i : Nat) : s.readByte g loc i a = s.byte a := by
  have h1 := (h.1 a ha).1
  have h2 := h.1.lost ha
  unfold State.readByte
  cases loc with
  | false => simp [h1, h2]
  | true => simp [h1, h2, h.2 rfl a ha]

theorem zipIdx_map_fst {α β : Type} (f : α → β) (g : α × Nat → β) (l : List α) (n : Nat) (h : ∀ p : α × Nat, p.1 ∈ l → g p = f p.1) :
    (l.zipIdx n).map g = l.map f := by
  induction l generalizing n with
  | nil => rfl
  | cons a t ih =>
    rw [List.zipIdx_cons, List.map_cons, List.map_cons, h (a, n) (by simp), ih (n + 1) (fun p hp => h p (by simp [hp]))]

theorem ReadsMemory.bytes {s : State} {g : Nat} {loc : Bool} {as : List Nat} (h : ReadsMemory s g loc as) :
    s.readBytes g loc as = as.map s.byte :=
  zipIdx_map_fst s.byte _ as 0 (fun p hp => h.byte hp p.2)

theorem wordsOf_clean {s : State} {g : Nat} {as : List Nat} (h : CleanBytes s g as) : ∀ a ∈ wordsOf as, s.eccOf a = 0 := by
  intro a ha
  simp only [wordsOf, List.mem_dedup, List.mem_map] at ha
  obtain ⟨b, hb, rfl⟩ := ha
  have := (h b hb).1
  simpa [State.eccOf] using this

theorem wordsOf_sub {l m : List Nat} (h : ∀ a ∈ l, a ∈ m) : ∀ a ∈ wordsOf l, a ∈ wordsOf m := by
  intro a ha
  simp only [wordsOf, List.mem_dedup, List.mem_map] at ha ⊢
  obtain ⟨b, hb, e⟩ := ha
  exact ⟨b, h b hb, e⟩

/-- A clean read takes one free draw and does nothing else. -/
theorem CleanBytes.afterRead {s : State} {g src t : Nat} {as : List Nat} (h : CleanBytes s g as) :
    s.afterRead g src t as = s.draw := by
  unfold State.afterRead
  rw [State.each_same]
  intro a ha
  exact State.touch_clean (wordsOf_clean h a (wordsOf_sub (fun b hb => (List.mem_filter.mp hb).1) a ha))

theorem CleanBytes.of {s t : State} {g : Nat} {as : List Nat} (h : CleanBytes s g as) (he : t.ecc = s.ecc)
    (hl : ∀ c, (t.cluster c).leases = (s.cluster c).leases) : CleanBytes t g as := by
  intro a ha
  simpa only [State.eccOf, State.leased, he, hl] using h a ha

theorem ReadsMemory.of {s t : State} {g : Nat} {loc : Bool} {as : List Nat} (h : ReadsMemory s g loc as) (he : t.ecc = s.ecc)
    (hl : ∀ c, (t.cluster c).leases = (s.cluster c).leases) (hw : t.written = s.written) : ReadsMemory t g loc as := by
  refine ⟨h.1.of he hl, ?_⟩
  rw [hw]
  exact h.2

theorem State.storeAt_mem (s : State) (l : List (Nat × Byte)) : (s.storeAt l).mem = storedIn s.mem l := by
  induction l generalizing s with
  | nil => rfl
  | cons p r ih =>
    obtain ⟨a, b⟩ := p
    rw [State.storeAt, ih]
    rfl

theorem storedIn_ne {m : List Host.Cell} {l : List (Nat × Byte)} {a : Nat} (h : ∀ p ∈ l, p.1 ≠ a) :
    mget 0#8 (storedIn m l) a = mget 0#8 m a := by
  induction l generalizing m with
  | nil => rfl
  | cons p r ih =>
    unfold storedIn
    rw [List.foldl_cons]
    exact (ih (fun q hq => h q (by simp [hq]))).trans (mget_mset_ne _ _ _ (fun e => h p (by simp) e.symm))

end Sys2Proof.Machine
end

