-- ==== Sys2Proof/Laws/Registers.lean ====
section
/-!
SUPPORT. What a register write does: the word that a path may write reaches its register.
-/
namespace Sys2Proof.Machine

theorem pathPage_plain {p : Path} (h : ∀ n, p ≠ .vf n) (addr : Nat) : pathPage p addr = addr % 2 ^ 26 / 4096 := by
  cases p <;> simp_all [pathPage]

theorem regFor_plain {p : Path} (h : ∀ n, p ≠ .vf n) (t : PageType) (off : Nat) : regFor p t off = regAt t off := by
  unfold regFor
  cases p <;> simp_all
  all_goals cases regAt t off <;> rfl

/-- A word at a served register above the header that the path may write reaches it (R446, R447). -/
theorem State.writeWord_reg {s : State} {p : Path} {t : PageType} {i off v : Nat} {d : RegDef}
    (h : MayPut s p (pageNo t i) off) (hp : pageNo t i < 2 ^ 14) (h1 : off < 4096) (h2 : 0x40 ≤ off)
    (hw : inWindow (pageNo t i) off = false) (ha : pageAt (pageNo t i) = some (t, i)) (hr : regAt t off = some d) :
    s.writeWord p (pageNo t i * 4096 + off) v = s.writeReg p t i (pageNo t i * 4096 + off) d v := by
  obtain ⟨a, b, c, e⟩ := h
  have q : pathPage p (pageNo t i * 4096 + off) = pageNo t i := by rw [pathPage_plain a]; omega
  have r : (pageNo t i * 4096 + off) % 4096 = off := by omega
  unfold State.writeWord
  simp only [q, r, b, c, hw, ha, e, regFor_plain a, hr, Bool.true_eq_false, Bool.false_eq_true, if_false, Nat.not_lt.mpr h2]

/-- A header register that the path may write (R443 to R446). -/
theorem State.writeWord_head {s : State} {p : Path} {t : PageType} {i off v : Nat}
    (h : MayPut s p (pageNo t i) off) (hp : pageNo t i < 2 ^ 14) (h2 : off < 0x40)
    (hw : inWindow (pageNo t i) off = false) (ha : pageAt (pageNo t i) = some (t, i))
    (hl : s.locked (pageNo t i) = false ∨ ¬(off = hCtl ∨ off = hIrqEn)) :
    s.writeWord p (pageNo t i * 4096 + off) v = .ok (s.writeHead (pageNo t i) off v) := by
  obtain ⟨a, b, c, e⟩ := h
  have q : pathPage p (pageNo t i * 4096 + off) = pageNo t i := by rw [pathPage_plain a]; omega
  have r : (pageNo t i * 4096 + off) % 4096 = off := by omega
  unfold State.writeWord
  simp only [q, r, b, c, hw, ha, e, h2, Bool.true_eq_false, Bool.false_eq_true, if_false, if_true]
  cases hl with
  | inl hl => simp [hl]
  | inr hl => simp [hl]

theorem State.regWrite_ok {s t : State} {p : Path} {addr : Nat} {v : Word} (h : addr % 4 = 0)
    (hw : s.writeWord p addr v.toNat = .ok t) : s.regWrite p addr v none = t := by
  simp [State.regWrite, h, State.regWriteR, hw, Wrote.ok, State.logViols]

theorem State.regWrite_refused {s u : State} {p : Path} {addr : Nat} {v : Word} {pg : Nat} {x : Viol} {b : Bool}
    (h : addr % 4 = 0) (hw : s.writeWord p addr v.toNat = ⟨u, some (pg, x), true, b⟩) :
    s.regWrite p addr v none = (u.violateAll pg x []).answered p addr := by
  simp only [State.regWrite, h, State.regWriteR, hw, State.logViols, State.answered]
  cases pathHost p <;> simp

theorem State.regWrite_logged {s u : State} {p : Path} {addr : Nat} {v : Word} {b : Bool}
    (h : addr % 4 = 0) (hw : s.writeWord p addr v.toNat = ⟨u, none, true, b⟩) :
    s.regWrite p addr v none = u.answered p addr := by
  simp only [State.regWrite, h, State.regWriteR, hw, State.logViols, State.answered]
  cases pathHost p <;> simp

/-- The register `r` of instance `i`, entry `idx`, is one of the PF's BAR0, above the header. -/
def Reaches (r : Reg) (i idx : Nat) (d : RegDef) : Prop :=
  pageNo r.page i < 2 ^ 14 ∧ r.off + 4 * idx < 4096 ∧ 0x40 ≤ r.off + 4 * idx ∧ (r.off + 4 * idx) % 4 = 0 ∧
    inWindow (pageNo r.page i) (r.off + 4 * idx) = false ∧ pageAt (pageNo r.page i) = some (r.page, i) ∧
    regAt r.page (r.off + 4 * idx) = some d

theorem State.put_word {s : State} {p : Path} {r : Reg} {v i idx : Nat} {d : RegDef} (hr : Reaches r i idx d)
    (h : MayPut s p (pageNo r.page i) (r.off + 4 * idx)) :
    s.writeWord p (regAddr r i idx) (w32 v).toNat = s.writeReg p r.page i (regAddr r i idx) d (w32 v).toNat := by
  obtain ⟨a1, a2, a3, a4, a5, a6, a7⟩ := hr
  have := State.writeWord_reg (v := (w32 v).toNat) h a1 a2 a3 a5 a6 a7
  simpa [regAddr, Nat.add_assoc] using this

theorem regAddr_aligned {r : Reg} {i idx : Nat} {d : RegDef} (hr : Reaches r i idx d) : regAddr r i idx % 4 = 0 := by
  have := hr.2.2.2.1
  unfold regAddr
  omega

theorem regAddr_off {r : Reg} {i idx : Nat} {d : RegDef} (hr : Reaches r i idx d) : regAddr r i idx % 4096 = r.off + 4 * idx := by
  have := hr.2.1
  unfold regAddr
  omega

/-- A write of a register whose effect is done. -/
theorem State.put_ok {s t : State} {p : Path} {r : Reg} {v i idx : Nat} {d : RegDef} (hr : Reaches r i idx d)
    (h : MayPut s p (pageNo r.page i) (r.off + 4 * idx))
    (he : s.writeReg p r.page i (regAddr r i idx) d (w32 v).toNat = .ok t) : s.put p r v i idx = t :=
  State.regWrite_ok (regAddr_aligned hr) ((State.put_word hr h).trans he)

/-- A write that its register refuses. -/
theorem State.put_refused {s u : State} {p : Path} {r : Reg} {v i idx pg : Nat} {d : RegDef} {x : Viol} {b : Bool}
    (hr : Reaches r i idx d) (h : MayPut s p (pageNo r.page i) (r.off + 4 * idx))
    (he : s.writeReg p r.page i (regAddr r i idx) d (w32 v).toNat = ⟨u, some (pg, x), true, b⟩) :
    s.put p r v i idx = (u.violateAll pg x []).answered p (regAddr r i idx) :=
  State.regWrite_refused (regAddr_aligned hr) ((State.put_word hr h).trans he)

/-- A write that an operation refuses and logs itself. -/
theorem State.put_logged {s u : State} {p : Path} {r : Reg} {v i idx : Nat} {d : RegDef} {b : Bool}
    (hr : Reaches r i idx d) (h : MayPut s p (pageNo r.page i) (r.off + 4 * idx))
    (he : s.writeReg p r.page i (regAddr r i idx) d (w32 v).toNat = ⟨u, none, true, b⟩) :
    s.put p r v i idx = u.answered p (regAddr r i idx) :=
  State.regWrite_logged (regAddr_aligned hr) ((State.put_word hr h).trans he)

/-- A write of a write-only register does what `State.writeWo` says. -/
theorem State.put_wo {s t : State} {p : Path} {r : Reg} {v : Nat} {i : Nat} {d : RegDef} (hr : Reaches r i 0 d) (hd : d.acc = .wo)
    (hn : r.page ≠ .tgp) (h : Writes s p r i) (he : s.writeWo p r.page i r.off (w32 v).toNat = .done t) : s.put p r v i = t := by
  refine State.put_ok hr h.1 ?_
  have e := regAddr_off hr
  simp only [Nat.mul_zero, Nat.add_zero] at e
  simp [State.writeReg, hn, hd, e, he, Effect.wrote]

/-- A write of a write-only register that refuses the value. -/
theorem State.put_wo_refused {s : State} {p : Path} {r : Reg} {v : Nat} {i : Nat} {d : RegDef} (hr : Reaches r i 0 d)
    (hd : d.acc = .wo) (hn : r.page ≠ .tgp) (h : Writes s p r i) (he : s.writeWo p r.page i r.off (w32 v).toNat = .refused) :
    s.put p r v i = s.refuses p r.page i r.off 0x10 := by
  have e := regAddr_off hr
  simp only [Nat.mul_zero, Nat.add_zero] at e
  have f := State.put_refused (v := v) (u := s) (pg := pageNo r.page i) (x := s.writeViol p (regAddr r i 0) 0x10) (b := false)
    hr h.1 (by simp [State.writeReg, hn, hd, e, he, Effect.wrote, State.refuseWrite])
  rw [f]
  have g : regAddr r i 0 = pageAddr r.page i r.off := by simp [regAddr, pageAddr]
  rw [g]
  rfl

/-- A read of an aligned word by a path that is not the host's leaves the state, outside a sleeping cluster's pages. -/
theorem State.regRead_value {s : State} {p : Path} {addr : Nat} (h : addr % 4 = 0) :
    (s.regRead p addr false).2 = (w32 (s.readWord p addr), none) := by
  simp [State.regRead, h]

end Sys2Proof.Machine
end

