-- ==== Sys2Proof/Laws/Same.lean ====
section
/-!
SUPPORT. The relations of Safety that say what is left unchanged are closed under the ways operations are put together.
-/
namespace Sys2Proof.Machine

/-- Comparators that agree leave the device alone. -/
@[simp] theorem State.disagreed_agree {s : State} (h : s.island.disagree = false) : s.disagreed = s := by
  simp [State.disagreed, h]



theorem SameStores.refl (s : State) : SameStores s s := ⟨rfl, rfl, rfl, rfl, rfl, rfl, rfl, rfl, rfl, rfl, rfl, rfl, rfl, rfl⟩

theorem SameStores.trans {s t u : State} (h : SameStores s t) (k : SameStores t u) : SameStores s u := ⟨Eq.trans k.1 h.1, Eq.trans k.2.1 h.2.1, Eq.trans k.2.2.1 h.2.2.1, Eq.trans k.2.2.2.1 h.2.2.2.1, Eq.trans k.2.2.2.2.1 h.2.2.2.2.1, Eq.trans k.2.2.2.2.2.1 h.2.2.2.2.2.1, Eq.trans k.2.2.2.2.2.2.1 h.2.2.2.2.2.2.1, Eq.trans k.2.2.2.2.2.2.2.1 h.2.2.2.2.2.2.2.1, Eq.trans k.2.2.2.2.2.2.2.2.1 h.2.2.2.2.2.2.2.2.1, Eq.trans k.2.2.2.2.2.2.2.2.2.1 h.2.2.2.2.2.2.2.2.2.1, Eq.trans k.2.2.2.2.2.2.2.2.2.2.1 h.2.2.2.2.2.2.2.2.2.2.1, Eq.trans k.2.2.2.2.2.2.2.2.2.2.2.1 h.2.2.2.2.2.2.2.2.2.2.2.1, Eq.trans k.2.2.2.2.2.2.2.2.2.2.2.2.1 h.2.2.2.2.2.2.2.2.2.2.2.2.1, Eq.trans k.2.2.2.2.2.2.2.2.2.2.2.2.2 h.2.2.2.2.2.2.2.2.2.2.2.2.2⟩

theorem SameStores.island {s t : State} (h : SameStores s t) : t.island = s.island := h.2.2.2.2.2.2.2.2.1

theorem SameStoresRes.next {s t : State} (h : SameStores s t) : SameStoresRes s (.next t) := h

theorem SameStores.each {α : Type} {s u : State} {l : List α} {f : State → α → State} (h : SameStores s u)
    (k : ∀ t x, SameStores t (f t x)) : SameStores s (u.each l f) := by
  unfold State.each
  induction l generalizing u with
  | nil => exact h
  | cons x r ih => exact ih (h.trans (k u x))

theorem SameStores.foldl {α : Type} {s u : State} {l : List α} {f : State → α → State} (h : SameStores s u)
    (k : ∀ t x, SameStores t (f t x)) : SameStores s (l.foldl f u) := by
  induction l generalizing u with
  | nil => exact h
  | cons x r ih => exact ih (h.trans (k u x))

theorem SameStores.foldlFst {α β : Type} {s : State} {u : State × β} {l : List α} {f : State × β → α → State × β}
    (h : SameStores s u.1) (k : ∀ t x, SameStores t.1 (f t x).1) : SameStores s (l.foldl f u).1 := by
  induction l generalizing u with
  | nil => exact h
  | cons x r ih => exact ih (h.trans (k u x))

theorem SameStores.when {s u : State} {c : Bool} {f : State → State} (h : SameStores s u) (k : ∀ t, SameStores t (f t)) :
    SameStores s (u.when c f) := by
  unfold State.when
  split
  · exact h.trans (k u)
  · exact h

theorem SameStores.mk {s u : State} {pending' : List Instr} {regs' : NMap Word} {hidden' : NMap Nat} {ecc' : NMap
    Nat} {freeCtr' : Nat} {out' : List Out} {tick' : Tick} {clusters' : NMap Cluster} {scrubs' : NMap Scrub} {ports' :
    NMap Port} {fabric' : Fabric} {host' : HostPort} (h : SameStores s u) : SameStores s (State.mk pending' regs' u.eff
    hidden' u.mem ecc' u.written freeCtr' out' tick' u.image clusters' scrubs' ports' fabric' u.load host' u.svc u.time
    u.power u.island u.trestle u.spi u.flash u.tag u.pins) := h



theorem SameUnits.refl (s : State) : SameUnits s s := ⟨rfl, rfl, rfl, rfl, rfl, rfl, rfl, rfl, rfl, rfl, rfl, rfl⟩

theorem SameUnits.trans {s t u : State} (h : SameUnits s t) (k : SameUnits t u) : SameUnits s u := ⟨Eq.trans k.1 h.1, Eq.trans k.2.1 h.2.1, Eq.trans k.2.2.1 h.2.2.1, Eq.trans k.2.2.2.1 h.2.2.2.1, Eq.trans k.2.2.2.2.1 h.2.2.2.2.1, Eq.trans k.2.2.2.2.2.1 h.2.2.2.2.2.1, Eq.trans k.2.2.2.2.2.2.1 h.2.2.2.2.2.2.1, Eq.trans k.2.2.2.2.2.2.2.1 h.2.2.2.2.2.2.2.1, Eq.trans k.2.2.2.2.2.2.2.2.1 h.2.2.2.2.2.2.2.2.1, Eq.trans k.2.2.2.2.2.2.2.2.2.1 h.2.2.2.2.2.2.2.2.2.1, Eq.trans k.2.2.2.2.2.2.2.2.2.2.1 h.2.2.2.2.2.2.2.2.2.2.1, Eq.trans k.2.2.2.2.2.2.2.2.2.2.2 h.2.2.2.2.2.2.2.2.2.2.2⟩

theorem SameUnits.island {s t : State} (h : SameUnits s t) : t.island = s.island := h.2.2.2.2.2.2.1

theorem SameUnitsRes.next {s t : State} (h : SameUnits s t) : SameUnitsRes s (.next t) := h

theorem SameUnits.each {α : Type} {s u : State} {l : List α} {f : State → α → State} (h : SameUnits s u)
    (k : ∀ t x, SameUnits t (f t x)) : SameUnits s (u.each l f) := by
  unfold State.each
  induction l generalizing u with
  | nil => exact h
  | cons x r ih => exact ih (h.trans (k u x))

theorem SameUnits.foldl {α : Type} {s u : State} {l : List α} {f : State → α → State} (h : SameUnits s u)
    (k : ∀ t x, SameUnits t (f t x)) : SameUnits s (l.foldl f u) := by
  induction l generalizing u with
  | nil => exact h
  | cons x r ih => exact ih (h.trans (k u x))

theorem SameUnits.foldlFst {α β : Type} {s : State} {u : State × β} {l : List α} {f : State × β → α → State × β}
    (h : SameUnits s u.1) (k : ∀ t x, SameUnits t.1 (f t x).1) : SameUnits s (l.foldl f u).1 := by
  induction l generalizing u with
  | nil => exact h
  | cons x r ih => exact ih (h.trans (k u x))

theorem SameUnits.when {s u : State} {c : Bool} {f : State → State} (h : SameUnits s u) (k : ∀ t, SameUnits t (f t)) :
    SameUnits s (u.when c f) := by
  unfold State.when
  split
  · exact h.trans (k u)
  · exact h

theorem SameUnits.mk {s u : State} {pending' : List Instr} {regs' : NMap Word} {hidden' : NMap Nat} {mem' : List
    Host.Cell} {ecc' : NMap Nat} {written' : List Nat} {freeCtr' : Nat} {out' : List Out} {tick' : Tick} {clusters' :
    NMap Cluster} {scrubs' : NMap Scrub} {ports' : NMap Port} {fabric' : Fabric} {host' : HostPort} (h : SameUnits s u)
    : SameUnits s (State.mk pending' regs' u.eff hidden' mem' ecc' written' freeCtr' out' tick' u.image clusters'
    scrubs' ports' fabric' u.load host' u.svc u.time u.power u.island u.trestle u.spi u.flash u.tag u.pins) := h



theorem SamePlant.refl (s : State) : SamePlant s s := ⟨rfl, rfl, rfl, rfl, rfl, rfl, rfl, rfl, rfl⟩

theorem SamePlant.trans {s t u : State} (h : SamePlant s t) (k : SamePlant t u) : SamePlant s u := ⟨Eq.trans k.1 h.1, Eq.trans k.2.1 h.2.1, Eq.trans k.2.2.1 h.2.2.1, Eq.trans k.2.2.2.1 h.2.2.2.1, Eq.trans k.2.2.2.2.1 h.2.2.2.2.1, Eq.trans k.2.2.2.2.2.1 h.2.2.2.2.2.1, Eq.trans k.2.2.2.2.2.2.1 h.2.2.2.2.2.2.1, Eq.trans k.2.2.2.2.2.2.2.1 h.2.2.2.2.2.2.2.1, Eq.trans k.2.2.2.2.2.2.2.2 h.2.2.2.2.2.2.2.2⟩

theorem SamePlant.island {s t : State} (h : SamePlant s t) : t.island = s.island := h.2.2.2.1

theorem SamePlantRes.next {s t : State} (h : SamePlant s t) : SamePlantRes s (.next t) := h

theorem SamePlant.each {α : Type} {s u : State} {l : List α} {f : State → α → State} (h : SamePlant s u)
    (k : ∀ t x, SamePlant t (f t x)) : SamePlant s (u.each l f) := by
  unfold State.each
  induction l generalizing u with
  | nil => exact h
  | cons x r ih => exact ih (h.trans (k u x))

theorem SamePlant.foldl {α : Type} {s u : State} {l : List α} {f : State → α → State} (h : SamePlant s u)
    (k : ∀ t x, SamePlant t (f t x)) : SamePlant s (l.foldl f u) := by
  induction l generalizing u with
  | nil => exact h
  | cons x r ih => exact ih (h.trans (k u x))

theorem SamePlant.foldlFst {α β : Type} {s : State} {u : State × β} {l : List α} {f : State × β → α → State × β}
    (h : SamePlant s u.1) (k : ∀ t x, SamePlant t.1 (f t x).1) : SamePlant s (l.foldl f u).1 := by
  induction l generalizing u with
  | nil => exact h
  | cons x r ih => exact ih (h.trans (k u x))

theorem SamePlant.when {s u : State} {c : Bool} {f : State → State} (h : SamePlant s u) (k : ∀ t, SamePlant t (f t)) :
    SamePlant s (u.when c f) := by
  unfold State.when
  split
  · exact h.trans (k u)
  · exact h

theorem SamePlant.mk {s u : State} {pending' : List Instr} {regs' : NMap Word} {hidden' : NMap Nat} {mem' : List
    Host.Cell} {ecc' : NMap Nat} {written' : List Nat} {freeCtr' : Nat} {out' : List Out} {tick' : Tick} {image' :
    Image} {clusters' : NMap Cluster} {scrubs' : NMap Scrub} {ports' : NMap Port} {fabric' : Fabric} {load' : Load}
    {host' : HostPort} {svc' : Service} (h : SamePlant s u) : SamePlant s (State.mk pending' regs' u.eff hidden' mem'
    ecc' written' freeCtr' out' tick' image' clusters' scrubs' ports' fabric' load' host' svc' u.time u.power u.island
    u.trestle u.spi u.flash u.tag u.pins) := h



theorem SameButPorts.refl (s : State) : SameButPorts s s := ⟨rfl, rfl, rfl, rfl, rfl, rfl, rfl, rfl, rfl, rfl, rfl, rfl, rfl, rfl, rfl, rfl⟩

theorem SameButPorts.trans {s t u : State} (h : SameButPorts s t) (k : SameButPorts t u) : SameButPorts s u := ⟨Eq.trans k.1 h.1, Eq.trans k.2.1 h.2.1, Eq.trans k.2.2.1 h.2.2.1, Eq.trans k.2.2.2.1 h.2.2.2.1, Eq.trans k.2.2.2.2.1 h.2.2.2.2.1, Eq.trans k.2.2.2.2.2.1 h.2.2.2.2.2.1, Eq.trans k.2.2.2.2.2.2.1 h.2.2.2.2.2.2.1, Eq.trans k.2.2.2.2.2.2.2.1 h.2.2.2.2.2.2.2.1, Eq.trans k.2.2.2.2.2.2.2.2.1 h.2.2.2.2.2.2.2.2.1, Eq.trans k.2.2.2.2.2.2.2.2.2.1 h.2.2.2.2.2.2.2.2.2.1, Eq.trans k.2.2.2.2.2.2.2.2.2.2.1 h.2.2.2.2.2.2.2.2.2.2.1, Eq.trans k.2.2.2.2.2.2.2.2.2.2.2.1 h.2.2.2.2.2.2.2.2.2.2.2.1, Eq.trans k.2.2.2.2.2.2.2.2.2.2.2.2.1 h.2.2.2.2.2.2.2.2.2.2.2.2.1, Eq.trans k.2.2.2.2.2.2.2.2.2.2.2.2.2.1 h.2.2.2.2.2.2.2.2.2.2.2.2.2.1, Eq.trans k.2.2.2.2.2.2.2.2.2.2.2.2.2.2.1 h.2.2.2.2.2.2.2.2.2.2.2.2.2.2.1, Eq.trans k.2.2.2.2.2.2.2.2.2.2.2.2.2.2.2 h.2.2.2.2.2.2.2.2.2.2.2.2.2.2.2⟩

theorem SameButPortsRes.next {s t : State} (h : SameButPorts s t) : SameButPortsRes s (.next t) := h

theorem SameButPorts.each {α : Type} {s u : State} {l : List α} {f : State → α → State} (h : SameButPorts s u)
    (k : ∀ t x, SameButPorts t (f t x)) : SameButPorts s (u.each l f) := by
  unfold State.each
  induction l generalizing u with
  | nil => exact h
  | cons x r ih => exact ih (h.trans (k u x))

theorem SameButPorts.foldl {α : Type} {s u : State} {l : List α} {f : State → α → State} (h : SameButPorts s u)
    (k : ∀ t x, SameButPorts t (f t x)) : SameButPorts s (l.foldl f u) := by
  induction l generalizing u with
  | nil => exact h
  | cons x r ih => exact ih (h.trans (k u x))

theorem SameButPorts.foldlFst {α β : Type} {s : State} {u : State × β} {l : List α} {f : State × β → α → State × β}
    (h : SameButPorts s u.1) (k : ∀ t x, SameButPorts t.1 (f t x).1) : SameButPorts s (l.foldl f u).1 := by
  induction l generalizing u with
  | nil => exact h
  | cons x r ih => exact ih (h.trans (k u x))

theorem SameButPorts.when {s u : State} {c : Bool} {f : State → State} (h : SameButPorts s u) (k : ∀ t, SameButPorts t (f t)) :
    SameButPorts s (u.when c f) := by
  unfold State.when
  split
  · exact h.trans (k u)
  · exact h

theorem SameButPorts.mk {s u : State} {pending' : List Instr} {regs' : NMap Word} {hidden' : NMap Nat} {freeCtr' :
    Nat} {out' : List Out} {ports' : NMap Port} {host' : HostPort} {island' : Island} {trestle' : Trestle} {pins' :
    Pins} (h : SameButPorts s u) : SameButPorts s (State.mk pending' regs' u.eff hidden' u.mem u.ecc u.written freeCtr'
    out' u.tick u.image u.clusters u.scrubs ports' u.fabric u.load host' u.svc u.time u.power island' trestle' u.spi
    u.flash u.tag pins') := h



theorem SameButPower.refl (s : State) : SameButPower s s := ⟨rfl, rfl, rfl, rfl, rfl, rfl, rfl, rfl, rfl, rfl, rfl, rfl, rfl⟩

theorem SameButPower.trans {s t u : State} (h : SameButPower s t) (k : SameButPower t u) : SameButPower s u := ⟨Eq.trans k.1 h.1, Eq.trans k.2.1 h.2.1, Eq.trans k.2.2.1 h.2.2.1, Eq.trans k.2.2.2.1 h.2.2.2.1, Eq.trans k.2.2.2.2.1 h.2.2.2.2.1, Eq.trans k.2.2.2.2.2.1 h.2.2.2.2.2.1, Eq.trans k.2.2.2.2.2.2.1 h.2.2.2.2.2.2.1, Eq.trans k.2.2.2.2.2.2.2.1 h.2.2.2.2.2.2.2.1, Eq.trans k.2.2.2.2.2.2.2.2.1 h.2.2.2.2.2.2.2.2.1, Eq.trans k.2.2.2.2.2.2.2.2.2.1 h.2.2.2.2.2.2.2.2.2.1, Eq.trans k.2.2.2.2.2.2.2.2.2.2.1 h.2.2.2.2.2.2.2.2.2.2.1, Eq.trans k.2.2.2.2.2.2.2.2.2.2.2.1 h.2.2.2.2.2.2.2.2.2.2.2.1, Eq.trans k.2.2.2.2.2.2.2.2.2.2.2.2 h.2.2.2.2.2.2.2.2.2.2.2.2⟩

theorem SameButPowerRes.next {s t : State} (h : SameButPower s t) : SameButPowerRes s (.next t) := h

theorem SameButPower.each {α : Type} {s u : State} {l : List α} {f : State → α → State} (h : SameButPower s u)
    (k : ∀ t x, SameButPower t (f t x)) : SameButPower s (u.each l f) := by
  unfold State.each
  induction l generalizing u with
  | nil => exact h
  | cons x r ih => exact ih (h.trans (k u x))

theorem SameButPower.foldl {α : Type} {s u : State} {l : List α} {f : State → α → State} (h : SameButPower s u)
    (k : ∀ t x, SameButPower t (f t x)) : SameButPower s (l.foldl f u) := by
  induction l generalizing u with
  | nil => exact h
  | cons x r ih => exact ih (h.trans (k u x))

theorem SameButPower.foldlFst {α β : Type} {s : State} {u : State × β} {l : List α} {f : State × β → α → State × β}
    (h : SameButPower s u.1) (k : ∀ t x, SameButPower t.1 (f t x).1) : SameButPower s (l.foldl f u).1 := by
  induction l generalizing u with
  | nil => exact h
  | cons x r ih => exact ih (h.trans (k u x))

theorem SameButPower.when {s u : State} {c : Bool} {f : State → State} (h : SameButPower s u) (k : ∀ t, SameButPower t (f t)) :
    SameButPower s (u.when c f) := by
  unfold State.when
  split
  · exact h.trans (k u)
  · exact h

theorem SameButPower.mk {s u : State} {pending' : List Instr} {regs' : NMap Word} {hidden' : NMap Nat} {freeCtr' :
    Nat} {out' : List Out} {tick' : Tick} {ports' : NMap Port} {host' : HostPort} {svc' : Service} {power' : Power}
    {island' : Island} {trestle' : Trestle} {pins' : Pins} (h : SameButPower s u) : SameButPower s (State.mk pending'
    regs' u.eff hidden' u.mem u.ecc u.written freeCtr' out' tick' u.image u.clusters u.scrubs ports' u.fabric u.load
    host' svc' u.time power' island' trestle' u.spi u.flash u.tag pins') := h



theorem SameButServices.refl (s : State) : SameButServices s s := ⟨rfl, rfl, rfl, rfl, rfl, rfl, rfl, rfl, rfl, rfl, rfl⟩

theorem SameButServices.trans {s t u : State} (h : SameButServices s t) (k : SameButServices t u) : SameButServices s u := ⟨Eq.trans k.1 h.1, Eq.trans k.2.1 h.2.1, Eq.trans k.2.2.1 h.2.2.1, Eq.trans k.2.2.2.1 h.2.2.2.1, Eq.trans k.2.2.2.2.1 h.2.2.2.2.1, Eq.trans k.2.2.2.2.2.1 h.2.2.2.2.2.1, Eq.trans k.2.2.2.2.2.2.1 h.2.2.2.2.2.2.1, Eq.trans k.2.2.2.2.2.2.2.1 h.2.2.2.2.2.2.2.1, Eq.trans k.2.2.2.2.2.2.2.2.1 h.2.2.2.2.2.2.2.2.1, Eq.trans k.2.2.2.2.2.2.2.2.2.1 h.2.2.2.2.2.2.2.2.2.1, Eq.trans k.2.2.2.2.2.2.2.2.2.2 h.2.2.2.2.2.2.2.2.2.2⟩

theorem SameButServicesRes.next {s t : State} (h : SameButServices s t) : SameButServicesRes s (.next t) := h

theorem SameButServices.each {α : Type} {s u : State} {l : List α} {f : State → α → State} (h : SameButServices s u)
    (k : ∀ t x, SameButServices t (f t x)) : SameButServices s (u.each l f) := by
  unfold State.each
  induction l generalizing u with
  | nil => exact h
  | cons x r ih => exact ih (h.trans (k u x))

theorem SameButServices.foldl {α : Type} {s u : State} {l : List α} {f : State → α → State} (h : SameButServices s u)
    (k : ∀ t x, SameButServices t (f t x)) : SameButServices s (l.foldl f u) := by
  induction l generalizing u with
  | nil => exact h
  | cons x r ih => exact ih (h.trans (k u x))

theorem SameButServices.foldlFst {α β : Type} {s : State} {u : State × β} {l : List α} {f : State × β → α → State × β}
    (h : SameButServices s u.1) (k : ∀ t x, SameButServices t.1 (f t x).1) : SameButServices s (l.foldl f u).1 := by
  induction l generalizing u with
  | nil => exact h
  | cons x r ih => exact ih (h.trans (k u x))

theorem SameButServices.when {s u : State} {c : Bool} {f : State → State} (h : SameButServices s u) (k : ∀ t, SameButServices t (f t)) :
    SameButServices s (u.when c f) := by
  unfold State.when
  split
  · exact h.trans (k u)
  · exact h

theorem SameButServices.mk {s u : State} {pending' : List Instr} {regs' : NMap Word} {hidden' : NMap Nat} {ecc' :
    NMap Nat} {freeCtr' : Nat} {out' : List Out} {tick' : Tick} {clusters' : NMap Cluster} {scrubs' : NMap Scrub}
    {ports' : NMap Port} {fabric' : Fabric} {load' : Load} {host' : HostPort} {svc' : Service} {time' : TimeUnit} (h :
    SameButServices s u) : SameButServices s (State.mk pending' regs' u.eff hidden' u.mem ecc' u.written freeCtr' out'
    tick' u.image clusters' scrubs' ports' fabric' load' host' svc' time' u.power u.island u.trestle u.spi u.flash
    u.tag u.pins) := h



theorem SameButManagement.refl (s : State) : SameButManagement s s := ⟨rfl, rfl, rfl, rfl, rfl, rfl, rfl, rfl, rfl, rfl, rfl, rfl, rfl, rfl, rfl⟩

theorem SameButManagement.trans {s t u : State} (h : SameButManagement s t) (k : SameButManagement t u) : SameButManagement s u := ⟨Eq.trans k.1 h.1, Eq.trans k.2.1 h.2.1, Eq.trans k.2.2.1 h.2.2.1, Eq.trans k.2.2.2.1 h.2.2.2.1, Eq.trans k.2.2.2.2.1 h.2.2.2.2.1, Eq.trans k.2.2.2.2.2.1 h.2.2.2.2.2.1, Eq.trans k.2.2.2.2.2.2.1 h.2.2.2.2.2.2.1, Eq.trans k.2.2.2.2.2.2.2.1 h.2.2.2.2.2.2.2.1, Eq.trans k.2.2.2.2.2.2.2.2.1 h.2.2.2.2.2.2.2.2.1, Eq.trans k.2.2.2.2.2.2.2.2.2.1 h.2.2.2.2.2.2.2.2.2.1, Eq.trans k.2.2.2.2.2.2.2.2.2.2.1 h.2.2.2.2.2.2.2.2.2.2.1, Eq.trans k.2.2.2.2.2.2.2.2.2.2.2.1 h.2.2.2.2.2.2.2.2.2.2.2.1, Eq.trans k.2.2.2.2.2.2.2.2.2.2.2.2.1 h.2.2.2.2.2.2.2.2.2.2.2.2.1, Eq.trans k.2.2.2.2.2.2.2.2.2.2.2.2.2.1 h.2.2.2.2.2.2.2.2.2.2.2.2.2.1, Eq.trans k.2.2.2.2.2.2.2.2.2.2.2.2.2.2 h.2.2.2.2.2.2.2.2.2.2.2.2.2.2⟩

theorem SameButManagementRes.next {s t : State} (h : SameButManagement s t) : SameButManagementRes s (.next t) := h

theorem SameButManagement.each {α : Type} {s u : State} {l : List α} {f : State → α → State} (h : SameButManagement s u)
    (k : ∀ t x, SameButManagement t (f t x)) : SameButManagement s (u.each l f) := by
  unfold State.each
  induction l generalizing u with
  | nil => exact h
  | cons x r ih => exact ih (h.trans (k u x))

theorem SameButManagement.foldl {α : Type} {s u : State} {l : List α} {f : State → α → State} (h : SameButManagement s u)
    (k : ∀ t x, SameButManagement t (f t x)) : SameButManagement s (l.foldl f u) := by
  induction l generalizing u with
  | nil => exact h
  | cons x r ih => exact ih (h.trans (k u x))

theorem SameButManagement.foldlFst {α β : Type} {s : State} {u : State × β} {l : List α} {f : State × β → α → State × β}
    (h : SameButManagement s u.1) (k : ∀ t x, SameButManagement t.1 (f t x).1) : SameButManagement s (l.foldl f u).1 := by
  induction l generalizing u with
  | nil => exact h
  | cons x r ih => exact ih (h.trans (k u x))

theorem SameButManagement.when {s u : State} {c : Bool} {f : State → State} (h : SameButManagement s u) (k : ∀ t, SameButManagement t (f t)) :
    SameButManagement s (u.when c f) := by
  unfold State.when
  split
  · exact h.trans (k u)
  · exact h

theorem SameButManagement.mk {s u : State} {pending' : List Instr} {regs' : NMap Word} {hidden' : NMap Nat}
    {freeCtr' : Nat} {out' : List Out} {power' : Power} {island' : Island} {trestle' : Trestle} {spi' : Spi} {flash' :
    Flash} {tag' : Tag} (h : SameButManagement s u) : SameButManagement s (State.mk pending' regs' u.eff hidden' u.mem
    u.ecc u.written freeCtr' out' u.tick u.image u.clusters u.scrubs u.ports u.fabric u.load u.host u.svc u.time power'
    island' trestle' spi' flash' tag' u.pins) := h



theorem SameButTick.refl (s : State) : SameButTick s s := ⟨rfl, rfl, rfl, rfl, rfl, rfl⟩

theorem SameButTick.trans {s t u : State} (h : SameButTick s t) (k : SameButTick t u) : SameButTick s u := ⟨Eq.trans k.1 h.1, Eq.trans k.2.1 h.2.1, Eq.trans k.2.2.1 h.2.2.1, Eq.trans k.2.2.2.1 h.2.2.2.1, Eq.trans k.2.2.2.2.1 h.2.2.2.2.1, Eq.trans k.2.2.2.2.2 h.2.2.2.2.2⟩

theorem SameButTickRes.next {s t : State} (h : SameButTick s t) : SameButTickRes s (.next t) := h

theorem SameButTick.each {α : Type} {s u : State} {l : List α} {f : State → α → State} (h : SameButTick s u)
    (k : ∀ t x, SameButTick t (f t x)) : SameButTick s (u.each l f) := by
  unfold State.each
  induction l generalizing u with
  | nil => exact h
  | cons x r ih => exact ih (h.trans (k u x))

theorem SameButTick.foldl {α : Type} {s u : State} {l : List α} {f : State → α → State} (h : SameButTick s u)
    (k : ∀ t x, SameButTick t (f t x)) : SameButTick s (l.foldl f u) := by
  induction l generalizing u with
  | nil => exact h
  | cons x r ih => exact ih (h.trans (k u x))

theorem SameButTick.foldlFst {α β : Type} {s : State} {u : State × β} {l : List α} {f : State × β → α → State × β}
    (h : SameButTick s u.1) (k : ∀ t x, SameButTick t.1 (f t x).1) : SameButTick s (l.foldl f u).1 := by
  induction l generalizing u with
  | nil => exact h
  | cons x r ih => exact ih (h.trans (k u x))

theorem SameButTick.when {s u : State} {c : Bool} {f : State → State} (h : SameButTick s u) (k : ∀ t, SameButTick t (f t)) :
    SameButTick s (u.when c f) := by
  unfold State.when
  split
  · exact h.trans (k u)
  · exact h

theorem SameButTick.mk {s u : State} {pending' : List Instr} {regs' : NMap Word} {eff' : NMap Word} {hidden' : NMap
    Nat} {ecc' : NMap Nat} {written' : List Nat} {freeCtr' : Nat} {out' : List Out} {tick' : Tick} {image' : Image}
    {clusters' : NMap Cluster} {scrubs' : NMap Scrub} {ports' : NMap Port} {fabric' : Fabric} {host' : HostPort} {svc'
    : Service} {time' : TimeUnit} {power' : Power} {island' : Island} {trestle' : Trestle} (h : SameButTick s u) :
    SameButTick s (State.mk pending' regs' eff' hidden' u.mem ecc' written' freeCtr' out' tick' image' clusters'
    scrubs' ports' fabric' u.load host' svc' time' power' island' trestle' u.spi u.flash u.tag u.pins) := h


theorem SameButSpan.refl (s : State) : SameButSpan s s := ⟨rfl, rfl, rfl, rfl⟩

theorem SameButSpan.trans {s t u : State} (h : SameButSpan s t) (k : SameButSpan t u) : SameButSpan s u :=
  ⟨k.1.trans h.1, k.2.1.trans h.2.1, k.2.2.1.trans h.2.2.1, k.2.2.2.trans h.2.2.2⟩

theorem SameButSpanRes.next {s t : State} (h : SameButSpan s t) : SameButSpanRes s (.next t) := h

theorem SameButSpan.each {α : Type} {s u : State} {l : List α} {f : State → α → State} (h : SameButSpan s u)
    (k : ∀ t x, SameButSpan t (f t x)) : SameButSpan s (u.each l f) := by
  unfold State.each
  induction l generalizing u with
  | nil => exact h
  | cons x r ih => exact ih (h.trans (k u x))

theorem SameButSpan.foldl {α : Type} {s u : State} {l : List α} {f : State → α → State} (h : SameButSpan s u)
    (k : ∀ t x, SameButSpan t (f t x)) : SameButSpan s (l.foldl f u) := by
  induction l generalizing u with
  | nil => exact h
  | cons x r ih => exact ih (h.trans (k u x))

theorem SameButSpan.foldlFst {α β : Type} {s : State} {u : State × β} {l : List α} {f : State × β → α → State × β}
    (h : SameButSpan s u.1) (k : ∀ t x, SameButSpan t.1 (f t x).1) : SameButSpan s (l.foldl f u).1 := by
  induction l generalizing u with
  | nil => exact h
  | cons x r ih => exact ih (h.trans (k u x))

theorem SameButSpan.when {s u : State} {c : Bool} {f : State → State} (h : SameButSpan s u) (k : ∀ t, SameButSpan t (f t)) :
    SameButSpan s (u.when c f) := by
  unfold State.when
  split
  · exact h.trans (k u)
  · exact h

theorem SameButSpan.mk {s u : State} {pending' : List Instr} {regs' : NMap Word} {eff' : NMap Word} {hidden' : NMap Nat}
    {mem' : List Host.Cell} {ecc' : NMap Nat} {written' : List Nat} {freeCtr' : Nat} {out' : List Out} {tick' : Tick}
    {image' : Image} {clusters' : NMap Cluster} {scrubs' : NMap Scrub} {ports' : NMap Port} {fabric' : Fabric} {load' : Load}
    {host' : HostPort} {svc' : Service} {time' : TimeUnit} {power' : Power} {island' : Island} {trestle' : Trestle}
    (h : SameButSpan s u) : SameButSpan s (State.mk pending' regs' eff' hidden' mem' ecc' written' freeCtr' out' tick' image'
    clusters' scrubs' ports' fabric' load' host' svc' time' power' island' trestle' u.spi u.flash u.tag u.pins) := h

end Sys2Proof.Machine
end

