-- ==== Sys2Proof/Laws/SameButManagement.lean ====
section
/-!
SUPPORT. The operations and commands that leave what `SameButManagement` names.
-/
namespace Sys2Proof.Machine

theorem State.send_sameButManagement (s : State) (o : Out) : SameButManagement s (State.send s o) := by
  exact SameButManagement.refl _

theorem State.noteStatus_sameButManagement (s old : State) : SameButManagement s (State.noteStatus s old) := by
  unfold State.noteStatus
  split
  · exact SameButManagement.refl _
  · refine SameButManagement.mk ?_
    exact SameButManagement.refl _

theorem State.modPower_sameButManagement (s : State) (f : Power → Power) :
    SameButManagement s (State.modPower s f) := by
  unfold State.modPower
  exact State.noteStatus_sameButManagement ..

theorem State.modQuarter_sameButManagement (s : State) (q : Nat) (f : Quarter → Quarter) :
    SameButManagement s (State.modQuarter s q f) := by
  unfold State.modQuarter
  refine SameButManagement.mk ?_
  exact SameButManagement.refl _

theorem State.avsWrite_sameButManagement (s : State) (q mv : Nat) : SameButManagement s (State.avsWrite s q mv) := by
  unfold State.avsWrite
  refine SameButManagement.trans ?_ (State.send_sameButManagement ..)
  refine SameButManagement.trans ?_ (State.modPower_sameButManagement ..)
  exact State.modQuarter_sameButManagement ..

theorem State.lowerNow_sameButManagement (s : State) (q : Nat) : SameButManagement s (State.lowerNow s q) := by
  unfold State.lowerNow
  split
  · exact SameButManagement.refl _
  · refine SameButManagement.trans ?_ (State.avsWrite_sameButManagement ..)
    exact State.modQuarter_sameButManagement ..

theorem State.stepDown_sameButManagement (s : State) (q low : Nat) : SameButManagement s (State.stepDown s q low)
    := by
  unfold State.stepDown
  extract_lets k0
  clear_value k0
  split
  · exact SameButManagement.refl _
  · split
    · refine SameButManagement.trans ?_ (State.avsWrite_sameButManagement ..)
      exact State.modQuarter_sameButManagement ..
    · split
      · exact SameButManagement.refl _
      · exact State.modQuarter_sameButManagement ..

theorem execIdleStepDown_sameButManagementRes (s : State) : SameButManagementRes s (execIdleStepDown s) := by
  unfold execIdleStepDown
  refine SameButManagementRes.next ?_
  split
  · exact SameButManagement.refl _
  · refine SameButManagement.each ?_ (fun t x => ?_)
    · exact SameButManagement.refl _
    · refine SameButManagement.trans ?_ (State.lowerNow_sameButManagement ..)
      exact State.stepDown_sameButManagement ..

theorem State.setRaw_sameButManagement (s : State) (p : PageType) (i off bank v : Nat) :
    SameButManagement s (State.setRaw s p i off bank v) := by
  unfold State.setRaw
  refine SameButManagement.mk ?_
  exact SameButManagement.refl _

theorem State.wr_sameButManagement (s : State) (r : Reg) (v i bank idx : Nat) :
    SameButManagement s (State.wr s r v i bank idx) := by
  unfold State.wr
  exact State.setRaw_sameButManagement ..

theorem State.cnt_sameButManagement (s : State) (r : Reg) (i n bank idx : Nat) :
    SameButManagement s (State.cnt s r i n bank idx) := by
  unfold State.cnt
  extract_lets k0 k1
  clear_value k0 k1
  split
  · refine SameButManagement.mk ?_
    exact SameButManagement.refl _
  · exact State.wr_sameButManagement ..

theorem execDroop_sameButManagementRes (q : Fin 4) (s : State) : SameButManagementRes s (execDroop q s) := by
  unfold execDroop
  refine SameButManagementRes.next ?_
  split
  · exact SameButManagement.refl _
  · refine SameButManagement.trans ?_ (State.modQuarter_sameButManagement ..)
    exact State.cnt_sameButManagement ..

theorem execDroopEnd_sameButManagementRes (q : Fin 4) (s : State) : SameButManagementRes s (execDroopEnd q s) := by
  unfold execDroopEnd
  refine SameButManagementRes.next ?_
  exact State.modQuarter_sameButManagement ..

theorem State.modTag_sameButManagement (s : State) (f : Tag → Tag) : SameButManagement s (State.modTag s f) := by
  unfold State.modTag
  refine SameButManagement.mk ?_
  exact SameButManagement.refl _

theorem State.tagNak_sameButManagement (s : State) (code : Nat) : SameButManagement s (State.tagNak s code) := by
  unfold State.tagNak
  refine SameButManagement.trans ?_ (State.send_sameButManagement ..)
  exact State.cnt_sameButManagement ..

theorem State.tagBegin_sameButManagement (s : State) (b : Nat) (data : List Byte) :
    SameButManagement s (State.tagBegin s b data) := by
  unfold State.tagBegin
  split
  · exact State.tagNak_sameButManagement ..
  · split
    · split
      · exact State.tagNak_sameButManagement ..
      · exact State.modTag_sameButManagement ..
    · exact State.modTag_sameButManagement ..

theorem State.tagRun_sameButManagement (s : State) (j : TagJob) : SameButManagement s (State.tagRun s j) := by
  unfold State.tagRun
  split
  · split
    · exact State.send_sameButManagement ..
    · exact State.tagNak_sameButManagement ..
  · exact State.send_sameButManagement ..
  · split
    · exact State.tagNak_sameButManagement ..
    · extract_lets k0
      clear_value k0
      exact State.tagBegin_sameButManagement ..
  · split
    · exact State.tagNak_sameButManagement ..
    · exact State.tagBegin_sameButManagement ..
  · exact State.modTag_sameButManagement ..
  · exact State.modTag_sameButManagement ..

theorem State.tagJob_sameButManagement (s : State) (j : TagJob) : SameButManagement s (State.tagJob s j) := by
  unfold State.tagJob
  split
  · exact State.modTag_sameButManagement ..
  · exact State.tagRun_sameButManagement ..

theorem State.tagReader_sameButManagement (s : State) (crcOk : Bool) (j : TagJob) :
    SameButManagement s (State.tagReader s crcOk j) := by
  unfold State.tagReader
  extract_lets u0
  have hu0 : SameButManagement s u0 := by
    dsimp only [u0]
    exact State.modTag_sameButManagement ..
  clear_value u0
  split
  · refine SameButManagement.trans ?_ (State.tagJob_sameButManagement ..)
    assumption
  · refine SameButManagement.trans ?_ (State.tagNak_sameButManagement ..)
    assumption

theorem execTagRead_sameButManagementRes (page : Nat) (crcOk : Bool) (s : State) :
    SameButManagementRes s (execTagRead page crcOk s) := by
  unfold execTagRead
  refine SameButManagementRes.next ?_
  exact State.tagReader_sameButManagement ..

theorem execReadWide_sameButManagementRes (page : Nat) (crcOk : Bool) (s : State) :
    SameButManagementRes s (execReadWide page crcOk s) := by
  unfold execReadWide
  refine SameButManagementRes.next ?_
  exact State.tagReader_sameButManagement ..

theorem execGetState_sameButManagementRes (crcOk : Bool) (s : State) :
    SameButManagementRes s (execGetState crcOk s) := by
  unfold execGetState
  refine SameButManagementRes.next ?_
  exact State.tagReader_sameButManagement ..

theorem execTagWrite_sameButManagementRes (page : Nat) (data : List Byte) (crcOk : Bool) (s : State) :
    SameButManagementRes s (execTagWrite page data crcOk s) := by
  unfold execTagWrite
  refine SameButManagementRes.next ?_
  exact State.tagReader_sameButManagement ..

theorem execWriteBlock_sameButManagementRes (blk : Nat) (data : List Byte) (crcOk : Bool) (s : State) :
    SameButManagementRes s (execWriteBlock blk data crcOk s) := by
  unfold execWriteBlock
  refine SameButManagementRes.next ?_
  exact State.tagReader_sameButManagement ..

theorem State.setTagBlock_sameButManagement (s : State) (b : Nat) (x : TagBlock) :
    SameButManagement s (State.setTagBlock s b x) := by
  unfold State.setTagBlock
  exact State.modTag_sameButManagement ..

theorem State.tagNext_sameButManagement (s : State) (l : List TagJob) : SameButManagement s (State.tagNext s l) := by
  induction l generalizing s
  · unfold State.tagNext
    exact State.modTag_sameButManagement ..
  · rename_i x r ih
    unfold State.tagNext
    split
    · exact State.modTag_sameButManagement ..
    · refine SameButManagement.trans ?_ (ih ..)
      exact State.tagRun_sameButManagement ..

theorem execTagCommitComplete_sameButManagementRes (s : State) :
    SameButManagementRes s (execTagCommitComplete s) := by
  unfold execTagCommitComplete
  refine SameButManagementRes.next ?_
  split
  · exact SameButManagement.refl _
  · extract_lets u0 u1
    have hu0 : SameButManagement s u0 := by
      dsimp only [u0]
      refine SameButManagement.trans ?_ (State.modTag_sameButManagement ..)
      exact State.setTagBlock_sameButManagement ..
    clear_value u0
    have hu1 : SameButManagement s u1 := by
      dsimp only [u1]
      split
      · refine SameButManagement.trans ?_ (State.send_sameButManagement ..)
        refine SameButManagement.trans ?_ (State.cnt_sameButManagement ..)
        assumption
      · assumption
    clear_value u1
    refine SameButManagement.trans ?_ (State.tagNext_sameButManagement ..)
    assumption

theorem State.draw_sameButManagement (s : State) : SameButManagement s (State.draw s) := by
  unfold State.draw
  refine SameButManagement.mk ?_
  exact SameButManagement.refl _

theorem execFieldCollapse_sameButManagementRes (point : TearPoint) (s : State) :
    SameButManagementRes s (execFieldCollapse point s) := by
  unfold execFieldCollapse
  extract_lets u0
  have hu0 : SameButManagement s u0 := by
    dsimp only [u0]
    exact State.modTag_sameButManagement ..
  clear_value u0
  refine SameButManagementRes.next ?_
  split
  · extract_lets k0 u1 u2
    clear_value k0
    have hu1 : SameButManagement s u1 := by
      dsimp only [u1]
      refine SameButManagement.trans ?_ (State.modTag_sameButManagement ..)
      refine SameButManagement.trans ?_ (State.draw_sameButManagement ..)
      refine SameButManagement.trans ?_ (State.setTagBlock_sameButManagement ..)
      assumption
    clear_value u1
    have hu2 : SameButManagement s u2 := by
      dsimp only [u2]
      split
      · refine SameButManagement.trans ?_ (State.send_sameButManagement ..)
        assumption
      · assumption
    clear_value u2
    refine SameButManagement.trans ?_ (State.tagNext_sameButManagement ..)
    assumption
  · assumption

theorem State.modIsland_sameButManagement (s : State) (f : Island → Island) :
    SameButManagement s (State.modIsland s f) := by
  unfold State.modIsland
  exact State.noteStatus_sameButManagement ..

theorem execBlackBoxWrite_sameButManagementRes (s : State) : SameButManagementRes s (execBlackBoxWrite s) := by
  unfold execBlackBoxWrite
  extract_lets k0
  clear_value k0
  refine SameButManagementRes.next ?_
  split
  · exact SameButManagement.refl _
  · split
    · exact SameButManagement.refl _
    · refine SameButManagement.trans ?_ (State.tagJob_sameButManagement ..)
      refine SameButManagement.trans ?_ (State.tagJob_sameButManagement ..)
      exact State.modIsland_sameButManagement ..

theorem execServiceRecordUpdate_sameButManagementRes (s : State) :
    SameButManagementRes s (execServiceRecordUpdate s) := by
  unfold execServiceRecordUpdate
  extract_lets u0 k0
  clear_value k0
  have hu0 : SameButManagement s u0 := by
    dsimp only [u0]
    exact State.modTag_sameButManagement ..
  clear_value u0
  refine SameButManagementRes.next ?_
  split
  · refine SameButManagement.trans ?_ (State.tagJob_sameButManagement ..)
    refine SameButManagement.trans ?_ (State.tagJob_sameButManagement ..)
    assumption
  · exact SameButManagement.refl _

theorem State.setFlash_sameButManagement (s : State) (a : Nat) (l : List Byte) :
    SameButManagement s (State.setFlash s a l) := by
  induction l generalizing s a
  · unfold State.setFlash
    exact SameButManagement.refl _
  · rename_i x r ih
    unfold State.setFlash
    exact ih ..

theorem execFlashOperationComplete_sameButManagementRes (s : State) :
    SameButManagementRes s (execFlashOperationComplete s) := by
  unfold execFlashOperationComplete
  extract_lets k0 u0
  clear_value k0
  have hu0 : SameButManagement s u0 := by
    dsimp only [u0]
    refine SameButManagement.mk ?_
    exact SameButManagement.refl _
  clear_value u0
  refine SameButManagementRes.next ?_
  split
  · exact SameButManagement.refl _
  · refine SameButManagement.trans ?_ (State.setFlash_sameButManagement ..)
    assumption
  · refine SameButManagement.trans ?_ (State.draw_sameButManagement ..)
    refine SameButManagement.trans ?_ (State.setFlash_sameButManagement ..)
    assumption
  · refine SameButManagement.each ?_ (fun t x => ?_)
    · assumption
    · exact State.wr_sameButManagement ..

theorem execResetRelease_sameButManagementRes (trsId : Fin 64) (s : State) :
    SameButManagementRes s (execResetRelease trsId s) := by
  unfold execResetRelease
  refine SameButManagementRes.next ?_
  split
  · refine SameButManagement.mk ?_
    exact SameButManagement.refl _
  · exact SameButManagement.refl _

theorem State.spiEnd_sameButManagement (s : State) : SameButManagement s (State.spiEnd s) := by
  unfold State.spiEnd
  extract_lets k0 u0
  clear_value k0
  have hu0 : SameButManagement s u0 := by
    dsimp only [u0]
    refine SameButManagement.mk ?_
    exact SameButManagement.refl _
  clear_value u0
  split
  · refine SameButManagement.trans ?_ (State.cnt_sameButManagement ..)
    assumption
  · assumption

theorem State.spiBegin_sameButManagement (s : State) (mode3 : Bool) :
    SameButManagement s (State.spiBegin s mode3) := by
  unfold State.spiBegin
  extract_lets u0 k0
  clear_value k0
  have hu0 : SameButManagement s u0 := by
    dsimp only [u0]
    exact State.spiEnd_sameButManagement ..
  clear_value u0
  refine SameButManagement.mk ?_
  assumption

theorem State.spiRefuse_sameButManagement (s : State) (sts : Word) : SameButManagement s (State.spiRefuse s sts) := by
  unfold State.spiRefuse
  refine SameButManagement.trans ?_ (State.send_sameButManagement ..)
  refine SameButManagement.trans ?_ (State.cnt_sameButManagement ..)
  refine SameButManagement.mk ?_
  exact SameButManagement.refl _

theorem State.spiExpect_sameButManagement (s : State) (n : Nat) : SameButManagement s (State.spiExpect s n) := by
  unfold State.spiExpect
  refine SameButManagement.mk ?_
  exact SameButManagement.refl _

theorem execSpiRead_sameButManagementRes (cmd addr : Word) (words : Nat) (mode3 : Bool) (s : State) :
    SameButManagementRes s (execSpiRead cmd addr words mode3 s) := by
  unfold execSpiRead
  extract_lets u0 k0 k1 k2
  clear_value k0 k1 k2
  have hu0 : SameButManagement s u0 := by
    dsimp only [u0]
    exact State.spiBegin_sameButManagement ..
  clear_value u0
  refine SameButManagementRes.next ?_
  split
  · exact SameButManagement.refl _
  · split
    · refine SameButManagement.trans ?_ (State.spiRefuse_sameButManagement ..)
      assumption
    · split
      · exact SameButManagement.refl _
      · refine SameButManagement.trans ?_ (State.send_sameButManagement ..)
        refine SameButManagement.trans ?_ (State.spiExpect_sameButManagement ..)
        refine SameButManagement.trans ?_ (State.cnt_sameButManagement ..)
        assumption

theorem execSpiSelectRise_sameButManagementRes (s : State) : SameButManagementRes s (execSpiSelectRise s) := by
  unfold execSpiSelectRise
  refine SameButManagementRes.next ?_
  exact State.spiEnd_sameButManagement ..

end Sys2Proof.Machine
end

