-- ==== Sys2Proof/Laws/SameButPorts.lean ====
section
/-!
SUPPORT. The operations and commands that leave what `SameButPorts` names.
-/
namespace Sys2Proof.Machine

theorem State.noteStatus_sameButPorts (s old : State) : SameButPorts s (State.noteStatus s old) := by
  unfold State.noteStatus
  split
  · exact SameButPorts.refl _
  · refine SameButPorts.mk ?_
    exact SameButPorts.refl _

theorem State.modIsland_sameButPorts (s : State) (f : Island → Island) : SameButPorts s (State.modIsland s f) := by
  unfold State.modIsland
  exact State.noteStatus_sameButPorts ..

theorem State.lineOff_sameButPorts (s : State) (p reason : Nat) : SameButPorts s (State.lineOff s p reason) := by
  unfold State.lineOff
  exact State.modIsland_sameButPorts ..

theorem State.linesOff_sameButPorts (s : State) (reason : Nat) : SameButPorts s (State.linesOff s reason) := by
  unfold State.linesOff
  refine SameButPorts.each ?_ (fun t x => ?_)
  · exact SameButPorts.refl _
  · exact State.lineOff_sameButPorts ..

theorem State.openGate_sameButPorts (s : State) (n : Nat) : SameButPorts s (State.openGate s n) := by
  unfold State.openGate
  exact State.modIsland_sameButPorts ..

theorem execIslandRebootComplete_sameButPortsRes (s : State) : SameButPortsRes s (execIslandRebootComplete s) := by
  unfold execIslandRebootComplete
  refine SameButPortsRes.next ?_
  split
  · refine SameButPorts.trans ?_ (State.linesOff_sameButPorts ..)
    refine SameButPorts.trans ?_ (State.openGate_sameButPorts ..)
    exact State.modIsland_sameButPorts ..
  · exact SameButPorts.refl _

theorem State.kill_sameButPorts (s : State) : SameButPorts s (State.kill s) := by
  unfold State.kill
  exact State.modIsland_sameButPorts ..

theorem State.setHdr_sameButPorts (s : State) (pg off v : Nat) : SameButPorts s (State.setHdr s pg off v) := by
  unfold State.setHdr
  refine SameButPorts.mk ?_
  exact SameButPorts.refl _

theorem State.capture_sameButPorts (s : State) (pg : Nat) (v : Viol) (more : Bool) :
    SameButPorts s (State.capture s pg v more) := by
  unfold State.capture
  extract_lets k0
  clear_value k0
  refine SameButPorts.trans ?_ (State.setHdr_sameButPorts ..)
  refine SameButPorts.trans ?_ (State.setHdr_sameButPorts ..)
  refine SameButPorts.trans ?_ (State.setHdr_sameButPorts ..)
  refine SameButPorts.trans ?_ (State.setHdr_sameButPorts ..)
  exact State.setHdr_sameButPorts ..

theorem State.modHost_sameButPorts (s : State) (f : HostPort → HostPort) : SameButPorts s (State.modHost s f) := by
  unfold State.modHost
  refine SameButPorts.mk ?_
  exact SameButPorts.refl _

theorem State.send_sameButPorts (s : State) (o : Out) : SameButPorts s (State.send s o) := by
  exact SameButPorts.refl _

theorem State.modFn_sameButPorts (s : State) (n : Nat) (f : Function → Function) :
    SameButPorts s (State.modFn s n f) := by
  unfold State.modFn
  refine SameButPorts.mk ?_
  exact SameButPorts.refl _

theorem State.msix_sameButPorts (s : State) (fn v : Nat) : SameButPorts s (State.msix s fn v) := by
  unfold State.msix
  split
  · unfold State.toHost State.post State.freeOf
    dsimp only
    split
    · exact SameButPorts.refl _
    · split
      · exact State.modHost_sameButPorts ..
      · exact State.send_sameButPorts ..
  · exact State.modFn_sameButPorts ..

theorem State.routeSend_sameButPorts (s : State) (t : Nat) : SameButPorts s (State.routeSend s t) := by
  unfold State.routeSend
  extract_lets k0
  clear_value k0
  split
  · refine SameButPorts.trans ?_ (State.modHost_sameButPorts ..)
    exact State.msix_sameButPorts ..
  · exact SameButPorts.refl _

theorem State.setIrq_sameButPorts (s : State) (pg off v : Nat) : SameButPorts s (State.setIrq s pg off v) := by
  unfold State.setIrq
  extract_lets u0 k0
  clear_value k0
  have hu0 : SameButPorts s u0 := by
    dsimp only [u0]
    exact State.setHdr_sameButPorts ..
  clear_value u0
  split
  · split
    · refine SameButPorts.trans ?_ (State.msix_sameButPorts ..)
      assumption
    · assumption
  · split
    · extract_lets k1
      clear_value k1
      split
      · refine SameButPorts.trans ?_ (State.routeSend_sameButPorts ..)
        assumption
      · assumption
    · assumption

theorem State.irq_sameButPorts (s : State) (pg m : Nat) : SameButPorts s (State.irq s pg m) := by
  unfold State.irq
  exact State.setIrq_sameButPorts ..

theorem State.violateAll_sameButPorts (s : State) (pg : Nat) (v : Viol) (vs : List Viol) :
    SameButPorts s (State.violateAll s pg v vs) := by
  unfold State.violateAll
  extract_lets k0 u0
  clear_value k0
  have hu0 : SameButPorts s u0 := by
    dsimp only [u0]
    split
    · exact State.setHdr_sameButPorts ..
    · exact State.capture_sameButPorts ..
  clear_value u0
  refine SameButPorts.trans ?_ (State.irq_sameButPorts ..)
  refine SameButPorts.trans ?_ (State.setHdr_sameButPorts ..)
  assumption

theorem State.violate_sameButPorts (s : State) (p : PageType) (i : Nat) (v : Viol) :
    SameButPorts s (State.violate s p i v) := by
  unfold State.violate
  exact State.violateAll_sameButPorts ..

theorem State.event_sameButPorts (s : State) (p : PageType) (i n : Nat) : SameButPorts s (State.event s p i n) := by
  unfold State.event
  exact State.irq_sameButPorts ..

theorem State.record_sameButPorts (s : State) (code actions detail unit : Nat) :
    SameButPorts s (State.record s code actions detail unit) := by
  unfold State.record
  split
  · exact SameButPorts.refl _
  · extract_lets k0 k1 u0
    clear_value k0 k1
    have hu0 : SameButPorts s u0 := by
      dsimp only [u0]
      exact State.modIsland_sameButPorts ..
    clear_value u0
    refine SameButPorts.trans ?_ (State.violate_sameButPorts ..)
    refine SameButPorts.trans ?_ (State.event_sameButPorts ..)
    assumption

theorem execJunctionTrip_sameButPortsRes (sensor : Fin 36) (temp : Nat) (s : State) :
    SameButPortsRes s (execJunctionTrip sensor temp s) := by
  unfold execJunctionTrip
  refine SameButPortsRes.next ?_
  split
  · exact SameButPorts.refl _
  · refine SameButPorts.trans ?_ (State.kill_sameButPorts ..)
    exact State.record_sameButPorts ..

theorem execRailOvervoltage_sameButPortsRes (rail : Fin 12) (mv : Nat) (s : State) :
    SameButPortsRes s (execRailOvervoltage rail mv s) := by
  unfold execRailOvervoltage
  refine SameButPortsRes.next ?_
  split
  · exact SameButPorts.refl _
  · refine SameButPorts.trans ?_ (State.kill_sameButPorts ..)
    exact State.record_sameButPorts ..

theorem execRegulatorFault_sameButPortsRes (s : State) : SameButPortsRes s (execRegulatorFault s) := by
  unfold execRegulatorFault
  extract_lets k0 u0
  clear_value k0
  have hu0 : SameButPorts s u0 := by
    dsimp only [u0]
    refine SameButPorts.mk ?_
    exact SameButPorts.refl _
  clear_value u0
  refine SameButPortsRes.next ?_
  refine SameButPorts.trans ?_ (State.kill_sameButPorts ..)
  refine SameButPorts.trans ?_ (State.record_sameButPorts ..)
  assumption

theorem State.setRaw_sameButPorts (s : State) (p : PageType) (i off bank v : Nat) :
    SameButPorts s (State.setRaw s p i off bank v) := by
  unfold State.setRaw
  refine SameButPorts.mk ?_
  exact SameButPorts.refl _

theorem State.wr_sameButPorts (s : State) (r : Reg) (v i bank idx : Nat) :
    SameButPorts s (State.wr s r v i bank idx) := by
  unfold State.wr
  exact State.setRaw_sameButPorts ..

theorem State.cnt_sameButPorts (s : State) (r : Reg) (i n bank idx : Nat) :
    SameButPorts s (State.cnt s r i n bank idx) := by
  unfold State.cnt
  extract_lets k0 k1
  clear_value k0 k1
  split
  · refine SameButPorts.mk ?_
    exact SameButPorts.refl _
  · exact State.wr_sameButPorts ..

theorem State.modPort_sameButPorts (s : State) (p : Nat) (f : Port → Port) : SameButPorts s (State.modPort s p f)
    := by
  unfold State.modPort
  refine SameButPorts.mk ?_
  exact SameButPorts.refl _

theorem State.optOff_sameButPorts (s : State) (p : Nat) : SameButPorts s (State.optOff s p) := by
  unfold State.optOff
  split
  · exact SameButPorts.refl _
  · refine SameButPorts.trans ?_ (State.event_sameButPorts ..)
    refine SameButPorts.trans ?_ (State.cnt_sameButPorts ..)
    exact State.modPort_sameButPorts ..

theorem State.lineOn_sameButPorts (s : State) (p reason : Nat) : SameButPorts s (State.lineOn s p reason) := by
  unfold State.lineOn
  refine SameButPorts.trans ?_ (State.optOff_sameButPorts ..)
  exact State.modIsland_sameButPorts ..

theorem execLaunchPowerTrip_sameButPortsRes (port : Fin 16) (s : State) :
    SameButPortsRes s (execLaunchPowerTrip port s) := by
  unfold execLaunchPowerTrip
  refine SameButPortsRes.next ?_
  split
  · refine SameButPorts.trans ?_ (State.lineOn_sameButPorts ..)
    exact State.record_sameButPorts ..
  · exact SameButPorts.refl _

theorem State.cleared_sameButPorts (s : State) (code : Nat) : SameButPorts s (State.cleared s code) := by
  unfold State.cleared
  exact State.modIsland_sameButPorts ..

theorem execGateCauseClear_sameButPortsRes (cause : Fin 9) (s : State) :
    SameButPortsRes s (execGateCauseClear cause s) := by
  unfold execGateCauseClear
  refine SameButPortsRes.next ?_
  split
  · refine SameButPorts.trans ?_ (State.cleared_sameButPorts ..)
    exact State.openGate_sameButPorts ..
  · refine SameButPorts.trans ?_ (State.cleared_sameButPorts ..)
    exact State.openGate_sameButPorts ..
  · refine SameButPorts.trans ?_ (State.cleared_sameButPorts ..)
    exact State.openGate_sameButPorts ..
  · exact SameButPorts.refl _

theorem execSelfCheckAbandon_sameButPortsRes (s : State) : SameButPortsRes s (execSelfCheckAbandon s) := by
  unfold execSelfCheckAbandon
  refine SameButPortsRes.next ?_
  split
  · refine SameButPorts.trans ?_ (State.cnt_sameButPorts ..)
    exact State.modIsland_sameButPorts ..
  · exact SameButPorts.refl _

theorem State.linesOn_sameButPorts (s : State) (reason : Nat) : SameButPorts s (State.linesOn s reason) := by
  unfold State.linesOn
  refine SameButPorts.each ?_ (fun t x => ?_)
  · exact SameButPorts.refl _
  · exact State.lineOn_sameButPorts ..

theorem execVddOptFault_sameButPortsRes (mv : Nat) (s : State) : SameButPortsRes s (execVddOptFault mv s) := by
  unfold execVddOptFault
  refine SameButPortsRes.next ?_
  split
  · exact State.linesOn_sameButPorts ..
  · exact SameButPorts.refl _

theorem execVddOptRestore_sameButPortsRes (s : State) : SameButPortsRes s (execVddOptRestore s) := by
  unfold execVddOptRestore
  refine SameButPortsRes.next ?_
  exact State.linesOff_sameButPorts ..

theorem State.modTrs_sameButPorts (s : State) (f : Trestle → Trestle) : SameButPorts s (State.modTrs s f) := by
  unfold State.modTrs
  refine SameButPorts.mk ?_
  exact SameButPorts.refl _

theorem State.trsReceive_sameButPortsEq {s : State} {h : TrsHead} {t' : State} (hq : State.trsReceive s h = some t') :
    SameButPorts s t' := by
  unfold State.trsReceive at hq
  split at hq
  · cases hq
  · split at hq
    · cases hq
      exact State.cnt_sameButPorts ..
    · extract_lets u0 k0 at hq
      have hu0 : SameButPorts s u0 := by
        dsimp only [u0]
        split
        · exact State.modTrs_sameButPorts ..
        · exact SameButPorts.refl _
      clear_value u0
      cases hq
      split
      · refine SameButPorts.trans ?_ (State.modTrs_sameButPorts ..)
        assumption
      · assumption

theorem State.trsAcks_sameButPorts (s : State) (acks : Nat) : SameButPorts s (State.trsAcks s acks) := by
  unfold State.trsAcks
  refine SameButPorts.each ?_ (fun t x => ?_)
  · exact SameButPorts.refl _
  · split
    · exact SameButPorts.refl _
    · extract_lets k0
      clear_value k0
      split
      · exact State.modTrs_sameButPorts ..
      · split
        · refine SameButPorts.trans ?_ (State.cnt_sameButPorts ..)
          exact State.modTrs_sameButPorts ..
        · exact State.modTrs_sameButPorts ..

theorem execBeacon_sameButPortsRes (h : TrsHead) (number source : Nat) (handover : Bool) (acks grants : Nat) (offUs
    : Int) (s : State) :
    SameButPortsRes s (execBeacon h number source handover acks grants offUs s) := by
  unfold execBeacon
  refine SameButPortsRes.next ?_
  split
  · exact SameButPorts.refl _
  · split
    · exact State.trsReceive_sameButPortsEq (by assumption)
    · refine SameButPorts.trans ?_ (State.trsAcks_sameButPorts ..)
      refine SameButPorts.trans ?_ (State.modTrs_sameButPorts ..)
      exact State.trsReceive_sameButPortsEq (by assumption)

theorem execBeaconMiss_sameButPortsRes (s : State) : SameButPortsRes s (execBeaconMiss s) := by
  unfold execBeaconMiss
  refine SameButPortsRes.next ?_
  split
  · exact SameButPorts.refl _
  · split
    · refine SameButPorts.trans ?_ (State.cnt_sameButPorts ..)
      exact State.modTrs_sameButPorts ..
    · split
      · refine SameButPorts.trans ?_ (State.cnt_sameButPorts ..)
        exact State.modTrs_sameButPorts ..
      · exact State.modTrs_sameButPorts ..
    · exact SameButPorts.refl _

theorem execListenTimeout_sameButPortsRes (s : State) : SameButPortsRes s (execListenTimeout s) := by
  unfold execListenTimeout
  refine SameButPortsRes.next ?_
  split
  · exact State.modTrs_sameButPorts ..
  · exact SameButPorts.refl _

theorem State.trsSend_sameButPorts (s : State) (type dst seq : Nat) (payload : List Byte) :
    SameButPorts s (State.trsSend s type dst seq payload) := by
  unfold State.trsSend
  refine SameButPorts.trans ?_ (State.send_sameButPorts ..)
  exact State.cnt_sameButPorts ..

theorem State.sendBeacon_sameButPorts (s : State) : SameButPorts s (State.sendBeacon s) := by
  unfold State.sendBeacon
  extract_lets k0 k1
  clear_value k0 k1
  refine SameButPorts.trans ?_ (State.modTrs_sameButPorts ..)
  exact State.trsSend_sameButPorts ..

theorem execElection_sameButPortsRes (s : State) : SameButPortsRes s (execElection s) := by
  unfold execElection
  refine SameButPortsRes.next ?_
  split
  · refine SameButPorts.trans ?_ (State.sendBeacon_sameButPorts ..)
    exact State.modTrs_sameButPorts ..
  · exact SameButPorts.refl _

theorem execSuperframeStart_sameButPortsRes (s : State) : SameButPortsRes s (execSuperframeStart s) := by
  unfold execSuperframeStart
  refine SameButPortsRes.next ?_
  split
  · exact SameButPorts.refl _
  · extract_lets u0
    have hu0 : SameButPorts s u0 := by
      dsimp only [u0]
      exact State.modTrs_sameButPorts ..
    clear_value u0
    split
    · refine SameButPorts.trans ?_ (State.sendBeacon_sameButPorts ..)
      assumption
    · split
      · refine SameButPorts.trans ?_ (State.modTrs_sameButPorts ..)
        assumption
      · assumption
    · assumption

theorem execAssignedSlot_sameButPortsRes (s : State) : SameButPortsRes s (execAssignedSlot s) := by
  unfold execAssignedSlot
  refine SameButPortsRes.next ?_
  split
  · split
    · exact State.modTrs_sameButPorts ..
    · refine SameButPorts.trans ?_ (State.trsSend_sameButPorts ..)
      exact State.modTrs_sameButPorts ..
  · exact State.modTrs_sameButPorts ..

theorem State.draw_sameButPorts (s : State) : SameButPorts s (State.draw s) := by
  unfold State.draw
  refine SameButPorts.mk ?_
  exact SameButPorts.refl _

theorem execContentionSlot_sameButPortsRes (slot : Fin 15) (s : State) :
    SameButPortsRes s (execContentionSlot slot s) := by
  unfold execContentionSlot
  extract_lets u0
  have hu0 : SameButPorts s u0 := by
    dsimp only [u0]
    exact State.modTrs_sameButPorts ..
  clear_value u0
  refine SameButPortsRes.next ?_
  split
  · assumption
  · split
    · assumption
    · dsimp only
      split
      · split
        · refine SameButPorts.trans ?_ (State.trsSend_sameButPorts ..)
          refine SameButPorts.trans ?_ (State.modTrs_sameButPorts ..)
          dsimp only
          assumption
        · refine SameButPorts.trans ?_ (State.modTrs_sameButPorts ..)
          dsimp only
          assumption
      · split
        · refine SameButPorts.trans ?_ (State.trsSend_sameButPorts ..)
          refine SameButPorts.trans ?_ (State.modTrs_sameButPorts ..)
          dsimp only
          refine SameButPorts.trans ?_ (State.draw_sameButPorts ..)
          assumption
        · refine SameButPorts.trans ?_ (State.modTrs_sameButPorts ..)
          dsimp only
          refine SameButPorts.trans ?_ (State.draw_sameButPorts ..)
          assumption

theorem execClaim_sameButPortsRes (h : TrsHead) (s : State) : SameButPortsRes s (execClaim h s) := by
  unfold execClaim
  refine SameButPortsRes.next ?_
  split
  · exact SameButPorts.refl _
  · split
    · refine SameButPorts.trans ?_ (State.modTrs_sameButPorts ..)
      exact State.trsReceive_sameButPortsEq (by assumption)
    · exact State.trsReceive_sameButPortsEq (by assumption)

theorem execPcieLinkReturnsToL0_sameButPortsRes (s : State) : SameButPortsRes s (execPcieLinkReturnsToL0 s) := by
  unfold execPcieLinkReturnsToL0
  refine SameButPortsRes.next ?_
  split
  · exact State.modHost_sameButPorts ..
  · exact SameButPorts.refl _

theorem State.portState_sameButPorts (s : State) (p : Nat) (x : PortState) :
    SameButPorts s (State.portState s p x) := by
  unfold State.portState
  extract_lets u0
  have hu0 : SameButPorts s u0 := by
    dsimp only [u0]
    exact State.modPort_sameButPorts ..
  clear_value u0
  split
  · refine SameButPorts.trans ?_ (State.event_sameButPorts ..)
    assumption
  · assumption

theorem State.sendTraining_sameButPorts (s : State) (p l : Nat) : SameButPorts s (State.sendTraining s p l) := by
  unfold State.sendTraining
  split
  · exact State.send_sameButPorts ..
  · exact SameButPorts.refl _

theorem State.toDetect_sameButPorts (s : State) (p : Nat) : SameButPorts s (State.toDetect s p) := by
  unfold State.toDetect
  refine SameButPorts.each ?_ (fun t x => ?_)
  · refine SameButPorts.trans ?_ (State.portState_sameButPorts ..)
    exact State.modPort_sameButPorts ..
  · exact State.sendTraining_sameButPorts ..

theorem execPortStartTime_sameButPortsRes (port : Fin 16) (s : State) :
    SameButPortsRes s (execPortStartTime port s) := by
  unfold execPortStartTime
  extract_lets u0
  have hu0 : SameButPorts s u0 := by
    dsimp only [u0]
    exact State.modPort_sameButPorts ..
  clear_value u0
  refine SameButPortsRes.next ?_
  split
  · refine SameButPorts.trans ?_ (State.toDetect_sameButPorts ..)
    assumption
  · assumption

theorem State.backoff_sameButPorts (s : State) (p reason : Nat) : SameButPorts s (State.backoff s p reason) := by
  unfold State.backoff
  refine SameButPorts.trans ?_ (State.portState_sameButPorts ..)
  exact State.modPort_sameButPorts ..

theorem execDetectTimeout_sameButPortsRes (port : Fin 16) (s : State) :
    SameButPortsRes s (execDetectTimeout port s) := by
  unfold execDetectTimeout
  refine SameButPortsRes.next ?_
  split
  · exact State.backoff_sameButPorts ..
  · exact SameButPorts.refl _

theorem execTrainTimeout_sameButPortsRes (port : Fin 16) (s : State) :
    SameButPortsRes s (execTrainTimeout port s) := by
  unfold execTrainTimeout
  refine SameButPortsRes.next ?_
  split
  · exact State.backoff_sameButPorts ..
  · exact SameButPorts.refl _

theorem execAlignLock_sameButPortsRes (port : Fin 16) (s : State) : SameButPortsRes s (execAlignLock port s) := by
  unfold execAlignLock
  extract_lets u0
  have hu0 : SameButPorts s u0 := by
    dsimp only [u0]
    exact State.modPort_sameButPorts ..
  clear_value u0
  refine SameButPortsRes.next ?_
  split
  · refine SameButPorts.trans ?_ (State.portState_sameButPorts ..)
    assumption
  · assumption
  · exact SameButPorts.refl _

theorem execAlignTimeout_sameButPortsRes (port : Fin 16) (s : State) :
    SameButPortsRes s (execAlignTimeout port s) := by
  unfold execAlignTimeout
  refine SameButPortsRes.next ?_
  split
  · exact State.backoff_sameButPorts ..
  · exact SameButPorts.refl _

theorem State.transmit_sameButPorts (s : State) (p : Nat) (f : Frame) : SameButPorts s (State.transmit s p f) := by
  unfold State.transmit
  split
  · exact State.send_sameButPorts ..
  · exact SameButPorts.refl _

theorem State.modSeq_sameButPorts (s : State) (p cls : Nat) (f : ClassSeq → ClassSeq) :
    SameButPorts s (State.modSeq s p cls f) := by
  unfold State.modSeq
  exact State.modPort_sameButPorts ..

theorem State.sendSecure_sameButPorts (s : State) (p : Nat) (c : Content) :
    SameButPorts s (State.sendSecure s p c) := by
  unfold State.sendSecure
  refine SameButPorts.trans ?_ (State.transmit_sameButPorts ..)
  exact State.modSeq_sameButPorts ..

theorem State.startExchange_sameButPorts (s : State) (p : Nat) : SameButPorts s (State.startExchange s p) := by
  unfold State.startExchange
  extract_lets k0 k1
  clear_value k0 k1
  split
  · exact State.backoff_sameButPorts ..
  · refine SameButPorts.trans ?_ (State.sendSecure_sameButPorts ..)
    refine SameButPorts.trans ?_ (State.draw_sameButPorts ..)
    exact State.modPort_sameButPorts ..

theorem execMeasureDone_sameButPortsRes (port : Fin 16) (delayPs : Nat) (s : State) :
    SameButPortsRes s (execMeasureDone port delayPs s) := by
  unfold execMeasureDone
  extract_lets u0
  have hu0 : SameButPorts s u0 := by
    dsimp only [u0]
    exact State.modPort_sameButPorts ..
  clear_value u0
  refine SameButPortsRes.next ?_
  split
  · refine SameButPorts.trans ?_ (State.startExchange_sameButPorts ..)
    refine SameButPorts.trans ?_ (State.portState_sameButPorts ..)
    assumption
  · split
    · refine SameButPorts.trans ?_ (State.startExchange_sameButPorts ..)
      assumption
    · exact SameButPorts.refl _
  · exact SameButPorts.refl _

theorem State.retry_sameButPorts (s : State) (p : Nat) : SameButPorts s (State.retry s p) := by
  unfold State.retry
  split
  · exact State.toDetect_sameButPorts ..
  · exact State.portState_sameButPorts ..

theorem execBackoffExpiry_sameButPortsRes (port : Fin 16) (s : State) :
    SameButPortsRes s (execBackoffExpiry port s) := by
  unfold execBackoffExpiry
  refine SameButPortsRes.next ?_
  split
  · exact State.retry_sameButPorts ..
  · exact SameButPorts.refl _

theorem execLossOfLock_sameButPortsRes (port : Fin 16) (s : State) : SameButPortsRes s (execLossOfLock port s) := by
  unfold execLossOfLock
  refine SameButPortsRes.next ?_
  split
  · refine SameButPorts.trans ?_ (State.portState_sameButPorts ..)
    refine SameButPorts.trans ?_ (State.modPort_sameButPorts ..)
    exact State.cnt_sameButPorts ..
  · exact SameButPorts.refl _

theorem State.dropLink_sameButPorts (s : State) (p : Nat) : SameButPorts s (State.dropLink s p) := by
  unfold State.dropLink
  exact State.modPort_sameButPorts ..

theorem execRetrainTimeout_sameButPortsRes (port : Fin 16) (s : State) :
    SameButPortsRes s (execRetrainTimeout port s) := by
  unfold execRetrainTimeout
  refine SameButPortsRes.next ?_
  split
  · refine SameButPorts.trans ?_ (State.retry_sameButPorts ..)
    exact State.dropLink_sameButPorts ..
  · exact SameButPorts.refl _

theorem State.modLane_sameButPorts (s : State) (p l : Nat) (f : Lane → Lane) :
    SameButPorts s (State.modLane s p l f) := by
  unfold State.modLane
  exact State.modPort_sameButPorts ..

theorem State.detected_sameButPorts (s : State) (p : Nat) : SameButPorts s (State.detected s p) := by
  unfold State.detected
  split
  · exact State.portState_sameButPorts ..
  · exact SameButPorts.refl _

theorem State.detectFrame_sameButPorts (s : State) (p lane : Nat) (cw : BitVec 64) :
    SameButPorts s (State.detectFrame s p lane cw) := by
  unfold State.detectFrame
  extract_lets k0 u0
  clear_value k0
  have hu0 : SameButPorts s u0 := by
    dsimp only [u0]
    refine SameButPorts.trans ?_ (State.modLane_sameButPorts ..)
    exact State.modPort_sameButPorts ..
  clear_value u0
  split
  · refine SameButPorts.trans ?_ (State.backoff_sameButPorts ..)
    refine SameButPorts.trans ?_ (State.cnt_sameButPorts ..)
    assumption
  · refine SameButPorts.trans ?_ (State.detected_sameButPorts ..)
    refine SameButPorts.trans ?_ (State.sendTraining_sameButPorts ..)
    assumption

theorem State.trainFrame_sameButPorts (s : State) (p lane : Nat) (cw : BitVec 64) :
    SameButPorts s (State.trainFrame s p lane cw) := by
  unfold State.trainFrame
  extract_lets u0
  have hu0 : SameButPorts s u0 := by
    dsimp only [u0]
    refine SameButPorts.trans ?_ (State.draw_sameButPorts ..)
    refine SameButPorts.trans ?_ (State.sendTraining_sameButPorts ..)
    exact State.modLane_sameButPorts ..
  clear_value u0
  split
  · refine SameButPorts.trans ?_ (State.portState_sameButPorts ..)
    assumption
  · assumption

theorem execTrainingFrame_sameButPortsRes (port : Fin 16) (lane : Fin 12) (cw : BitVec 64) (s : State) :
    SameButPortsRes s (execTrainingFrame port lane cw s) := by
  unfold execTrainingFrame
  refine SameButPortsRes.next ?_
  split
  · exact SameButPorts.refl _
  · extract_lets u0
    have hu0 : SameButPorts s u0 := by
      dsimp only [u0]
      refine SameButPorts.when ?_ (fun t => ?_)
      · exact SameButPorts.refl _
      · exact State.send_sameButPorts ..
    clear_value u0
    split
    · refine SameButPorts.trans ?_ (State.cnt_sameButPorts ..)
      assumption
    · split
      · refine SameButPorts.trans ?_ (State.detectFrame_sameButPorts ..)
        assumption
      · assumption
    · split
      · refine SameButPorts.trans ?_ (State.trainFrame_sameButPorts ..)
        assumption
      · assumption
    · assumption

theorem execUncWindow_sameButPortsRes (port : Fin 16) (s : State) : SameButPortsRes s (execUncWindow port s) := by
  unfold execUncWindow
  extract_lets u0
  have hu0 : SameButPorts s u0 := by
    dsimp only [u0]
    split
    · refine SameButPorts.trans ?_ (State.event_sameButPorts ..)
      exact State.modPort_sameButPorts ..
    · exact SameButPorts.refl _
  clear_value u0
  refine SameButPortsRes.next ?_
  refine SameButPorts.trans ?_ (State.modPort_sameButPorts ..)
  assumption

theorem execAdaptationUpdate_sameButPortsRes (port : Fin 16) (lane : Fin 12) (a : Adapt) (s : State) :
    SameButPortsRes s (execAdaptationUpdate port lane a s) := by
  unfold execAdaptationUpdate
  extract_lets k0
  clear_value k0
  refine SameButPortsRes.next ?_
  split
  · exact SameButPorts.refl _
  · exact State.modLane_sameButPorts ..

theorem execBurstGuardWindow_sameButPortsRes (port : Fin 16) (errors : List Nat) (s : State) :
    SameButPortsRes s (execBurstGuardWindow port errors s) := by
  unfold execBurstGuardWindow
  extract_lets k0 k1 u0 k2 k3 u1
  clear_value k0 k1 k2
  have hu0 : SameButPorts s u0 := by
    dsimp only [u0]
    split
    · exact State.modPort_sameButPorts ..
    · refine SameButPorts.each ?_ (fun t x => ?_)
      · exact SameButPorts.refl _
      · exact State.modLane_sameButPorts ..
  clear_value u0
  have hu1 : SameButPorts s u1 := by
    dsimp only [u1]
    dsimp only [k3]
    refine SameButPorts.each ?_ (fun t x => ?_)
    · refine SameButPorts.each ?_ (fun t x => ?_)
      · assumption
      · exact State.modLane_sameButPorts ..
    · exact State.modLane_sameButPorts ..
  clear_value u1
  refine SameButPortsRes.next ?_
  split
  · exact SameButPorts.refl _
  · split
    · split
      · assumption
      · refine SameButPorts.trans ?_ (State.cnt_sameButPorts ..)
        refine SameButPorts.trans ?_ (State.modPort_sameButPorts ..)
        assumption
    · dsimp only [k3]
      refine SameButPorts.each ?_ (fun t x => ?_)
      · assumption
      · exact State.modLane_sameButPorts ..

theorem execLoopFreezeEnd_sameButPortsRes (port : Fin 16) (s : State) :
    SameButPortsRes s (execLoopFreezeEnd port s) := by
  unfold execLoopFreezeEnd
  refine SameButPortsRes.next ?_
  exact State.modPort_sameButPorts ..

theorem execFreezeLimit_sameButPortsRes (port : Fin 16) (s : State) : SameButPortsRes s (execFreezeLimit port s) := by
  unfold execFreezeLimit
  refine SameButPortsRes.next ?_
  split
  · exact State.modPort_sameButPorts ..
  · exact SameButPorts.refl _

theorem State.optMove_sameButPorts (s : State) (p : Nat) (a b : OptState) : SameButPorts s (State.optMove s p a b)
    := by
  unfold State.optMove
  split
  · exact State.modPort_sameButPorts ..
  · exact SameButPorts.refl _

theorem execOffTimeout_sameButPortsRes (port : Fin 16) (s : State) : SameButPortsRes s (execOffTimeout port s) := by
  unfold execOffTimeout
  refine SameButPortsRes.next ?_
  split
  · exact SameButPorts.refl _
  · exact State.optMove_sameButPorts ..

theorem execLightAnyLoss_sameButPortsRes (port : Fin 16) (s : State) :
    SameButPortsRes s (execLightAnyLoss port s) := by
  unfold execLightAnyLoss
  refine SameButPortsRes.next ?_
  exact State.optOff_sameButPorts ..

theorem execBeaconQualified_sameButPortsRes (port : Fin 16) (s : State) :
    SameButPortsRes s (execBeaconQualified port s) := by
  unfold execBeaconQualified
  refine SameButPortsRes.next ?_
  exact State.optMove_sameButPorts ..

theorem execLightFullReached_sameButPortsRes (port : Fin 16) (s : State) :
    SameButPortsRes s (execLightFullReached port s) := by
  unfold execLightFullReached
  extract_lets u0
  have hu0 : SameButPorts s u0 := by
    dsimp only [u0]
    exact State.optMove_sameButPorts ..
  clear_value u0
  refine SameButPortsRes.next ?_
  split
  · refine SameButPorts.each ?_ (fun t x => ?_)
    · assumption
    · exact State.sendTraining_sameButPorts ..
  · assumption

theorem execRaiseTimeout_sameButPortsRes (port : Fin 16) (s : State) :
    SameButPortsRes s (execRaiseTimeout port s) := by
  unfold execRaiseTimeout
  refine SameButPortsRes.next ?_
  exact State.optMove_sameButPorts ..

theorem execLightFullLoss_sameButPortsRes (port : Fin 16) (s : State) :
    SameButPortsRes s (execLightFullLoss port s) := by
  unfold execLightFullLoss
  refine SameButPortsRes.next ?_
  exact State.optMove_sameButPorts ..

theorem execIslandLightCheck_sameButPortsRes (port : Fin 16) (s : State) :
    SameButPortsRes s (execIslandLightCheck port s) := by
  unfold execIslandLightCheck
  refine SameButPortsRes.next ?_
  split
  · refine SameButPorts.trans ?_ (State.lineOn_sameButPorts ..)
    exact State.record_sameButPorts ..
  · exact SameButPorts.refl _

theorem execLaserDisableRelease_sameButPortsRes (port : Fin 16) (s : State) :
    SameButPortsRes s (execLaserDisableRelease port s) := by
  unfold execLaserDisableRelease
  refine SameButPortsRes.next ?_
  refine SameButPorts.trans ?_ (State.modIsland_sameButPorts ..)
  refine SameButPorts.trans ?_ (State.lineOff_sameButPorts ..)
  exact State.lineOff_sameButPorts ..

theorem execOptInhibitN_sameButPortsRes (low : Bool) (s : State) : SameButPortsRes s (execOptInhibitN low s) := by
  unfold execOptInhibitN
  extract_lets k0 u0
  clear_value k0
  have hu0 : SameButPorts s u0 := by
    dsimp only [u0]
    refine SameButPorts.mk ?_
    exact SameButPorts.refl _
  clear_value u0
  refine SameButPortsRes.next ?_
  split
  · refine SameButPorts.each ?_ (fun t x => ?_)
    · refine SameButPorts.trans ?_ (State.record_sameButPorts ..)
      assumption
    · exact State.optOff_sameButPorts ..
  · refine SameButPorts.trans ?_ (State.cleared_sameButPorts ..)
    assumption

theorem execEngineCaseOverheat_sameButPortsRes (port : Fin 16) (s : State) :
    SameButPortsRes s (execEngineCaseOverheat port s) := by
  unfold execEngineCaseOverheat
  refine SameButPortsRes.next ?_
  split
  · refine SameButPorts.trans ?_ (State.optOff_sameButPorts ..)
    exact State.modPort_sameButPorts ..
  · exact SameButPorts.refl _

theorem execEngineCaseCooled_sameButPortsRes (port : Fin 16) (s : State) :
    SameButPortsRes s (execEngineCaseCooled port s) := by
  unfold execEngineCaseCooled
  refine SameButPortsRes.next ?_
  exact State.modPort_sameButPorts ..

theorem execEthernetFrame_sameButPortsRes (port : Fin 16) (f : EthFrame) (s : State) :
    SameButPortsRes s (execEthernetFrame port f s) := by
  unfold execEthernetFrame
  extract_lets k0
  clear_value k0
  refine SameButPortsRes.next ?_
  split
  · exact SameButPorts.refl _
  · split
    · exact State.cnt_sameButPorts ..
    · split
      · split
        · exact State.send_sameButPorts ..
        · exact State.cnt_sameButPorts ..
      · split
        · exact State.send_sameButPorts ..
        · exact State.cnt_sameButPorts ..
      · split
        · exact SameButPorts.refl _
        · refine SameButPorts.trans ?_ (State.cnt_sameButPorts ..)
          exact State.cnt_sameButPorts ..
      · exact SameButPorts.refl _

theorem State.ethLink_sameButPorts (s : State) (p : Nat) (up : Bool) : SameButPorts s (State.ethLink s p up) := by
  unfold State.ethLink
  split
  · exact SameButPorts.refl _
  · refine SameButPorts.trans ?_ (State.event_sameButPorts ..)
    exact State.modPort_sameButPorts ..

theorem execEthernetLinkUp_sameButPortsRes (port : Fin 16) (s : State) :
    SameButPortsRes s (execEthernetLinkUp port s) := by
  unfold execEthernetLinkUp
  refine SameButPortsRes.next ?_
  exact State.ethLink_sameButPorts ..

theorem execEthernetLinkDown_sameButPortsRes (port : Fin 16) (s : State) :
    SameButPortsRes s (execEthernetLinkDown port s) := by
  unfold execEthernetLinkDown
  refine SameButPortsRes.next ?_
  exact State.ethLink_sameButPorts ..

theorem execPrbsCheckerLock_sameButPortsRes (port : Fin 16) (lane : Fin 12) (s : State) :
    SameButPortsRes s (execPrbsCheckerLock port lane s) := by
  unfold execPrbsCheckerLock
  refine SameButPortsRes.next ?_
  split
  · exact State.modLane_sameButPorts ..
  · exact SameButPorts.refl _

theorem execPrbsCheckerLockLoss_sameButPortsRes (port : Fin 16) (lane : Fin 12) (s : State) :
    SameButPortsRes s (execPrbsCheckerLockLoss port lane s) := by
  unfold execPrbsCheckerLockLoss
  refine SameButPortsRes.next ?_
  split
  · refine SameButPorts.trans ?_ (State.modLane_sameButPorts ..)
    exact State.cnt_sameButPorts ..
  · exact SameButPorts.refl _

theorem State.codeword_sameButPorts (s : State) (p : Nat) (errs : List Nat) :
    SameButPorts s (State.codeword s p errs) := by
  unfold State.codeword
  extract_lets k0 k1 u0 k2
  clear_value k0 k1 k2
  have hu0 : SameButPorts s u0 := by
    dsimp only [u0]
    split
    · split
      · exact SameButPorts.refl _
      · refine SameButPorts.trans ?_ (State.wr_sameButPorts ..)
        exact State.wr_sameButPorts ..
    · exact State.wr_sameButPorts ..
  clear_value u0
  split
  · assumption
  · split
    · refine SameButPorts.trans ?_ (State.modPort_sameButPorts ..)
      refine SameButPorts.trans ?_ (State.cnt_sameButPorts ..)
      assumption
    · refine SameButPorts.each ?_ (fun t x => ?_)
      · refine SameButPorts.trans ?_ (State.cnt_sameButPorts ..)
        refine SameButPorts.trans ?_ (State.cnt_sameButPorts ..)
        assumption
      · exact State.cnt_sameButPorts ..

theorem State.codeBlock_sameButPorts (s : State) (p : Nat) (b : CwBlock) : SameButPorts s (State.codeBlock s p b)
    := by
  unfold State.codeBlock
  split
  · exact SameButPorts.refl _
  · refine SameButPorts.each ?_ (fun t x => ?_)
    · exact State.modPort_sameButPorts ..
    · exact State.codeword_sameButPorts ..

theorem State.takeBlocks_sameButPorts (s : State) (p : Nat) (l : Codewords) :
    SameButPorts s (State.takeBlocks s p l) := by
  unfold State.takeBlocks
  refine SameButPorts.each ?_ (fun t x => ?_)
  · exact SameButPorts.refl _
  · exact State.codeBlock_sameButPorts ..

theorem execIdleUnit_sameButPortsRes (port : Fin 16) (cw : Codewords) (u : IdleUnit) (s : State) :
    SameButPortsRes s (execIdleUnit port cw u s) := by
  unfold execIdleUnit
  extract_lets u0
  have hu0 : SameButPorts s u0 := by
    dsimp only [u0]
    split
    · exact State.takeBlocks_sameButPorts ..
    · exact SameButPorts.refl _
  clear_value u0
  refine SameButPortsRes.next ?_
  split
  · assumption
  · split
    · split
      · refine SameButPorts.trans ?_ (State.cnt_sameButPorts ..)
        assumption
      · assumption
    · refine SameButPorts.trans ?_ (State.cnt_sameButPorts ..)
      assumption

theorem State.spend_sameButPorts (s : State) (p pool n : Nat) : SameButPorts s (State.spend s p pool n) := by
  unfold State.spend
  exact State.modPort_sameButPorts ..

theorem State.sendNow_sameButPorts (s : State) (p : Nat) (c : Content) : SameButPorts s (State.sendNow s p c) := by
  unfold State.sendNow
  extract_lets k0 u0
  clear_value k0
  have hu0 : SameButPorts s u0 := by
    dsimp only [u0]
    exact State.modSeq_sameButPorts ..
  clear_value u0
  refine SameButPorts.trans ?_ (State.transmit_sameButPorts ..)
  refine SameButPorts.when ?_ (fun t => ?_)
  · assumption
  · exact State.spend_sameButPorts ..

theorem State.sendOn_sameButPorts (s : State) (p : Nat) (c : Content) : SameButPorts s (State.sendOn s p c) := by
  unfold State.sendOn
  split
  · exact SameButPorts.refl _
  · split
    · exact State.sendNow_sameButPorts ..
    · exact State.modSeq_sameButPorts ..

theorem State.sendStatus_sameButPorts (s : State) (p : Nat) : SameButPorts s (State.sendStatus s p) := by
  unfold State.sendStatus
  refine SameButPorts.trans ?_ (State.modPort_sameButPorts ..)
  exact State.sendOn_sameButPorts ..

theorem execStatusTimer_sameButPortsRes (port : Fin 16) (s : State) : SameButPortsRes s (execStatusTimer port s) := by
  unfold execStatusTimer
  refine SameButPortsRes.next ?_
  split
  · exact State.sendStatus_sameButPorts ..
  · exact SameButPorts.refl _

theorem State.resend_sameButPorts (s : State) (p cls : Nat) (named : Frame → Bool) :
    SameButPorts s (State.resend s p cls named) := by
  unfold State.resend
  refine SameButPorts.each ?_ (fun t x => ?_)
  · exact SameButPorts.refl _
  · exact State.transmit_sameButPorts ..

theorem State.fencePort_sameButPorts (s : State) (p : Nat) : SameButPorts s (State.fencePort s p) := by
  unfold State.fencePort
  extract_lets k0 u0
  clear_value k0
  have hu0 : SameButPorts s u0 := by
    dsimp only [u0]
    refine SameButPorts.trans ?_ (State.event_sameButPorts ..)
    refine SameButPorts.trans ?_ (State.modPort_sameButPorts ..)
    exact State.cnt_sameButPorts ..
  clear_value u0
  split
  · refine SameButPorts.trans ?_ (State.event_sameButPorts ..)
    assumption
  · assumption

theorem State.authFail_sameButPorts (s : State) (p : Nat) : SameButPorts s (State.authFail s p) := by
  unfold State.authFail
  extract_lets k0 u0
  clear_value k0
  have hu0 : SameButPorts s u0 := by
    dsimp only [u0]
    refine SameButPorts.trans ?_ (State.modPort_sameButPorts ..)
    exact State.cnt_sameButPorts ..
  clear_value u0
  split
  · assumption
  · refine SameButPorts.trans ?_ (State.fencePort_sameButPorts ..)
    assumption

theorem State.release_sameButPorts (s : State) (p pool n : Nat) : SameButPorts s (State.release s p pool n) := by
  unfold State.release
  exact State.modPort_sameButPorts ..

theorem State.accept_sameButPortsFst (s : State) (p cls q : Nat) (old : Bool) :
    SameButPorts s (State.accept s p cls q old).1 := by
  unfold State.accept
  extract_lets k0 k1
  clear_value k0 k1
  split
  · dsimp only
    exact State.cnt_sameButPorts ..
  · extract_lets u0 u1
    have hu0 : SameButPorts s u0 := by
      dsimp only [u0]
      split
      · exact State.modPort_sameButPorts ..
      · refine SameButPorts.trans ?_ (State.modPort_sameButPorts ..)
        exact State.modSeq_sameButPorts ..
    clear_value u0
    have hu1 : SameButPorts s u1 := by
      dsimp only [u1]
      refine SameButPorts.when ?_ (fun t => ?_)
      · assumption
      · exact State.sendOn_sameButPorts ..
    clear_value u1
    dsimp only
    refine SameButPorts.when ?_ (fun t => ?_)
    · assumption
    · exact State.release_sameButPorts ..

theorem State.turnKey_sameButPorts (s : State) (p : Nat) : SameButPorts s (State.turnKey s p) := by
  unfold State.turnKey
  exact State.modPort_sameButPorts ..

theorem State.receive_sameButPortsFst (s : State) (p cls : Nat) (a : Arrival) :
    SameButPorts s (State.receive s p cls a).1 := by
  unfold State.receive
  split
  · dsimp only
    exact SameButPorts.refl _
  · extract_lets u0 k0 k1 k2
    clear_value k0 k1 k2
    have hu0 : SameButPorts s u0 := by
      dsimp only [u0]
      exact State.takeBlocks_sameButPorts ..
    clear_value u0
    split
    · dsimp only
      assumption
    · split
      · dsimp only
        assumption
      · split
        · dsimp only
          refine SameButPorts.trans ?_ (State.authFail_sameButPorts ..)
          assumption
        · refine SameButPorts.trans ?_ (State.accept_sameButPortsFst ..)
          refine SameButPorts.when ?_ (fun t => ?_)
          · assumption
          · exact State.turnKey_sameButPorts ..

theorem execRetry_sameButPortsRes (port : Fin 16) (a : Arrival) (cls first count : Nat) (s : State) :
    SameButPortsRes s (execRetry port a cls first count s) := by
  unfold execRetry
  refine SameButPortsRes.next ?_
  split
  · split
    · refine SameButPorts.trans ?_ (State.resend_sameButPorts ..)
      rename_i hq _
      have hk := congrArg Prod.fst hq
      dsimp only at hk
      rw [← hk]
      exact State.receive_sameButPortsFst ..
    · rename_i hq _
      have hk := congrArg Prod.fst hq
      dsimp only at hk
      rw [← hk]
      exact State.receive_sameButPortsFst ..
  · rename_i hq
    have hk := congrArg Prod.fst hq
    dsimp only at hk
    rw [← hk]
    exact State.receive_sameButPortsFst ..

theorem execRetryTimeout_sameButPortsRes (port : Fin 16) (cls seq : Nat) (s : State) :
    SameButPortsRes s (execRetryTimeout port cls seq s) := by
  unfold execRetryTimeout
  refine SameButPortsRes.next ?_
  split
  · split
    · exact State.transmit_sameButPorts ..
    · exact SameButPorts.refl _
  · exact SameButPorts.refl _

theorem execLinkDelayProbe_sameButPortsRes (port : Fin 16) (t1 : Nat) (s : State) :
    SameButPortsRes s (execLinkDelayProbe port t1 s) := by
  unfold execLinkDelayProbe
  refine SameButPortsRes.next ?_
  exact State.sendOn_sameButPorts ..

theorem execProbe_sameButPortsRes (port : Fin 16) (a : Arrival) (t1 t2 : Nat) (s : State) :
    SameButPortsRes s (execProbe port a t1 t2 s) := by
  unfold execProbe
  refine SameButPortsRes.next ?_
  split
  · refine SameButPorts.trans ?_ (State.draw_sameButPorts ..)
    refine SameButPorts.trans ?_ (State.sendOn_sameButPorts ..)
    rename_i hq
    have hk := congrArg Prod.fst hq
    dsimp only at hk
    rw [← hk]
    exact State.receive_sameButPortsFst ..
  · rename_i hq
    have hk := congrArg Prod.fst hq
    dsimp only at hk
    rw [← hk]
    exact State.receive_sameButPortsFst ..

theorem execProbeRsp_sameButPortsRes (port : Fin 16) (a : Arrival) (t1 t2 t3 t4 : Nat) (s : State) :
    SameButPortsRes s (execProbeRsp port a t1 t2 t3 t4 s) := by
  unfold execProbeRsp
  refine SameButPortsRes.next ?_
  split
  · refine SameButPorts.trans ?_ (State.modPort_sameButPorts ..)
    rename_i hq
    have hk := congrArg Prod.fst hq
    dsimp only at hk
    rw [← hk]
    exact State.receive_sameButPortsFst ..
  · rename_i hq
    have hk := congrArg Prod.fst hq
    dsimp only at hk
    rw [← hk]
    exact State.receive_sameButPortsFst ..

theorem State.clearMessage_sameButPortsFst (s : State) (p : Nat) (a : Arrival) :
    SameButPorts s (State.clearMessage s p a).1 := by
  unfold State.clearMessage
  split
  · dsimp only
    exact SameButPorts.refl _
  · dsimp only
    exact State.takeBlocks_sameButPorts ..

theorem State.refusePartner_sameButPorts (s : State) (p : Nat) : SameButPorts s (State.refusePartner s p) := by
  unfold State.refusePartner
  refine SameButPorts.trans ?_ (State.fencePort_sameButPorts ..)
  exact State.violate_sameButPorts ..

theorem State.sendFinish_sameButPorts (s : State) (p : Nat) : SameButPorts s (State.sendFinish s p) := by
  unfold State.sendFinish
  exact State.sendSecure_sameButPorts ..

theorem State.deriveKeys_sameButPorts (s : State) (p : Nat) (ours theirs : Hello) :
    SameButPorts s (State.deriveKeys s p ours theirs) := by
  unfold State.deriveKeys
  extract_lets k0 k1 k2
  clear_value k0 k1 k2
  exact State.modPort_sameButPorts ..

theorem State.sendSign_sameButPorts (s : State) (p : Nat) : SameButPorts s (State.sendSign s p) := by
  unfold State.sendSign
  refine SameButPorts.trans ?_ (State.draw_sameButPorts ..)
  exact State.sendSecure_sameButPorts ..

theorem State.takeHello_sameButPorts (s : State) (p : Nat) (h : Hello) : SameButPorts s (State.takeHello s p h) := by
  unfold State.takeHello
  extract_lets u0
  have hu0 : SameButPorts s u0 := by
    dsimp only [u0]
    exact State.modPort_sameButPorts ..
  clear_value u0
  split
  · refine SameButPorts.trans ?_ (State.refusePartner_sameButPorts ..)
    assumption
  · split
    · refine SameButPorts.trans ?_ (State.sendFinish_sameButPorts ..)
      refine SameButPorts.trans ?_ (State.deriveKeys_sameButPorts ..)
      assumption
    · refine SameButPorts.trans ?_ (State.sendSign_sameButPorts ..)
      assumption
    · assumption

theorem State.beginRekey_sameButPorts (s : State) (p : Nat) : SameButPorts s (State.beginRekey s p) := by
  unfold State.beginRekey
  split
  · exact SameButPorts.refl _
  · refine SameButPorts.trans ?_ (State.startExchange_sameButPorts ..)
    exact State.modPort_sameButPorts ..

theorem State.rekeyHello_sameButPorts (s : State) (p : Nat) (h : Hello) : SameButPorts s (State.rekeyHello s p h)
    := by
  unfold State.rekeyHello
  extract_lets k0 u0
  clear_value k0
  have hu0 : SameButPorts s u0 := by
    dsimp only [u0]
    exact State.beginRekey_sameButPorts ..
  clear_value u0
  split
  · split
    · exact State.takeHello_sameButPorts ..
    · exact SameButPorts.refl _
  · split
    · refine SameButPorts.trans ?_ (State.takeHello_sameButPorts ..)
      assumption
    · assumption

theorem execHello_sameButPortsRes (port : Fin 16) (h : HelloFrame) (s : State) :
    SameButPortsRes s (execHello port h s) := by
  unfold execHello
  refine SameButPortsRes.next ?_
  split
  · extract_lets k0
    have hk0 : SameButPorts s k0.1 := by
      dsimp only [k0]
      exact State.clearMessage_sameButPortsFst ..
    clear_value k0
    split
    · refine SameButPorts.trans ?_ (State.takeHello_sameButPorts ..)
      assumption
    · assumption
  · extract_lets k0
    have hk0 : SameButPorts s k0.1 := by
      dsimp only [k0]
      exact State.clearMessage_sameButPortsFst ..
    clear_value k0
    split
    · refine SameButPorts.trans ?_ (State.takeHello_sameButPorts ..)
      assumption
    · assumption
  · split
    · refine SameButPorts.trans ?_ (State.rekeyHello_sameButPorts ..)
      rename_i hq
      have hk := congrArg Prod.fst hq
      dsimp only at hk
      rw [← hk]
      exact State.receive_sameButPortsFst ..
    · rename_i hq
      have hk := congrArg Prod.fst hq
      dsimp only at hk
      rw [← hk]
      exact State.receive_sameButPortsFst ..

theorem execSign_sameButPortsRes (port : Fin 16) (sig : SignFrame) (s : State) :
    SameButPortsRes s (execSign port sig s) := by
  unfold execSign
  extract_lets k0 k1
  clear_value k0
  have hk1 : SameButPorts s k1.1 := by
    dsimp only [k1]
    exact State.clearMessage_sameButPortsFst ..
  clear_value k1
  refine SameButPortsRes.next ?_
  split
  · exact State.receive_sameButPortsFst ..
  · split
    · assumption
    · split
      · split
        · refine SameButPorts.trans ?_ (State.sendFinish_sameButPorts ..)
          refine SameButPorts.trans ?_ (State.deriveKeys_sameButPorts ..)
          assumption
        · refine SameButPorts.trans ?_ (State.refusePartner_sameButPorts ..)
          assumption
      · assumption

theorem execSecureTimeout_sameButPortsRes (port : Fin 16) (s : State) :
    SameButPortsRes s (execSecureTimeout port s) := by
  unfold execSecureTimeout
  extract_lets k0
  clear_value k0
  refine SameButPortsRes.next ?_
  split
  · exact State.fencePort_sameButPorts ..
  · exact SameButPorts.refl _

theorem execFenceExpiry_sameButPortsRes (port : Fin 16) (s : State) : SameButPortsRes s (execFenceExpiry port s) := by
  unfold execFenceExpiry
  refine SameButPortsRes.next ?_
  split
  · refine SameButPorts.trans ?_ (State.retry_sameButPorts ..)
    exact State.dropLink_sameButPorts ..
  · exact SameButPorts.refl _

theorem execRekeyTimer_sameButPortsRes (port : Fin 16) (s : State) : SameButPortsRes s (execRekeyTimer port s) := by
  unfold execRekeyTimer
  refine SameButPortsRes.next ?_
  split
  · exact State.beginRekey_sameButPorts ..
  · exact SameButPorts.refl _

theorem execOldPhaseExpiry_sameButPortsRes (port : Fin 16) (s : State) :
    SameButPortsRes s (execOldPhaseExpiry port s) := by
  unfold execOldPhaseExpiry
  refine SameButPortsRes.next ?_
  exact State.modPort_sameButPorts ..

theorem execConfigRequest_sameButPortsRes (fn : Fin 256) (s : State) :
    SameButPortsRes s (execConfigRequest fn s) := by
  unfold execConfigRequest
  refine SameButPortsRes.next ?_
  split
  · refine SameButPorts.trans ?_ (State.send_sameButPorts ..)
    exact State.modHost_sameButPorts ..
  · exact SameButPorts.refl _

theorem execBar2Write_sameButPortsRes (fn : Fin 256) (addr : Nat) (s : State) :
    SameButPortsRes s (execBar2Write fn addr s) := by
  unfold execBar2Write
  refine SameButPortsRes.next ?_
  exact State.cnt_sameButPorts ..

theorem execResultSlotRead_sameButPortsRes (fn : Fin 256) (addr len : Nat) (s : State) :
    SameButPortsRes s (execResultSlotRead fn addr len s) := by
  unfold execResultSlotRead
  extract_lets k0 k1
  clear_value k0 k1
  refine SameButPortsRes.next ?_
  exact State.send_sameButPorts ..

theorem State.badAccess_sameButPorts (s : State) (p : Path) (addr : Nat) :
    SameButPorts s (State.badAccess s p addr) := by
  unfold State.badAccess
  extract_lets k0 k1
  clear_value k0 k1
  split
  · refine SameButPorts.trans ?_ (State.send_sameButPorts ..)
    split
    · exact State.violateAll_sameButPorts ..
    · exact State.violate_sameButPorts ..
  · refine SameButPorts.trans ?_ (State.send_sameButPorts ..)
    split
    · exact State.violateAll_sameButPorts ..
    · exact State.violate_sameButPorts ..
  · extract_lets k2
    clear_value k2
    refine SameButPorts.trans ?_ (State.send_sameButPorts ..)
    split
    · exact State.violateAll_sameButPorts ..
    · exact State.violate_sameButPorts ..
  · exact SameButPorts.refl _

theorem execBar0BadAccess_sameButPortsRes (p : Path) (addr len : Nat) (write : Bool) (s : State) :
    SameButPortsRes s (execBar0BadAccess p addr len write s) := by
  unfold execBar0BadAccess
  refine SameButPortsRes.next ?_
  split
  · exact SameButPorts.refl _
  · split
    · exact State.badAccess_sameButPorts ..
    · exact State.send_sameButPorts ..

theorem execInvalidateComplete_sameButPortsRes (s : State) : SameButPortsRes s (execInvalidateComplete s) := by
  unfold execInvalidateComplete
  refine SameButPortsRes.next ?_
  split
  · exact SameButPorts.refl _
  · split
    · exact SameButPorts.refl _
    · exact State.modHost_sameButPorts ..

theorem execFlrComplete_sameButPortsRes (fn : Fin 256) (s : State) : SameButPortsRes s (execFlrComplete fn s) := by
  unfold execFlrComplete
  refine SameButPortsRes.next ?_
  split
  · exact SameButPorts.refl _
  · exact State.modFn_sameButPorts ..

theorem execCreditStall_sameButPortsRes (s : State) : SameButPortsRes s (execCreditStall s) := by
  unfold execCreditStall
  refine SameButPortsRes.next ?_
  refine SameButPorts.trans ?_ (State.modHost_sameButPorts ..)
  exact State.cnt_sameButPorts ..

theorem execMsixUnmask_sameButPortsRes (fn : Fin 256) (vector : Fin 2048) (s : State) :
    SameButPortsRes s (execMsixUnmask fn vector s) := by
  unfold execMsixUnmask
  extract_lets k0 u0
  clear_value k0
  have hu0 : SameButPorts s u0 := by
    dsimp only [u0]
    exact State.modFn_sameButPorts ..
  clear_value u0
  refine SameButPortsRes.next ?_
  split
  · exact SameButPorts.refl _
  · split
    · unfold State.toHost State.post State.freeOf
      dsimp only
      split
      · assumption
      · split
        · refine SameButPorts.trans ?_ (State.modHost_sameButPorts ..)
          assumption
        · refine SameButPorts.trans ?_ (State.send_sameButPorts ..)
          assumption
    · assumption

theorem execEchoDeadline_sameButPortsRes (s : State) : SameButPortsRes s (execEchoDeadline s) := by
  unfold execEchoDeadline
  refine SameButPortsRes.next ?_
  split
  · exact State.violate_sameButPorts ..
  · exact SameButPorts.refl _

theorem State.dozeCount_sameButPorts (s : State) (p : Path) (addr : Nat) :
    SameButPorts s (State.dozeCount s p addr) := by
  unfold State.dozeCount
  extract_lets k0
  clear_value k0
  split
  · exact State.cnt_sameButPorts ..
  · exact SameButPorts.refl _

theorem State.rcClear_sameButPorts (s : State) (p : Path) (addr : Nat) : SameButPorts s (State.rcClear s p addr) := by
  unfold State.rcClear
  split
  · exact State.setRaw_sameButPorts ..
  · exact SameButPorts.refl _

theorem State.regRead_sameButPortsFst (s : State) (p : Path) (addr : Nat) (wide : Bool) :
    SameButPorts s (State.regRead s p addr wide).1 := by
  unfold State.regRead
  split
  · split
    · dsimp only
      exact SameButPorts.refl _
    · extract_lets k0 k1 u0 u1
      clear_value k0 k1
      have hu0 : SameButPorts s u0 := by
        dsimp only [u0]
        split
        · exact SameButPorts.refl _
        · exact State.dozeCount_sameButPorts ..
      clear_value u0
      have hu1 : SameButPorts s u1 := by
        dsimp only [u1]
        split
        · refine SameButPorts.trans ?_ (State.rcClear_sameButPorts ..)
          refine SameButPorts.trans ?_ (State.rcClear_sameButPorts ..)
          assumption
        · assumption
      clear_value u1
      dsimp only
      assumption
  · split
    · dsimp only
      exact SameButPorts.refl _
    · extract_lets k0 k1 u0 u1
      clear_value k0 k1
      have hu0 : SameButPorts s u0 := by
        dsimp only [u0]
        split
        · exact SameButPorts.refl _
        · exact State.dozeCount_sameButPorts ..
      clear_value u0
      have hu1 : SameButPorts s u1 := by
        dsimp only [u1]
        split
        · refine SameButPorts.trans ?_ (State.rcClear_sameButPorts ..)
          assumption
        · assumption
      clear_value u1
      dsimp only
      assumption

theorem execRcRead_sameButPortsRes (p : Path) (addr : Nat) (wide : Bool) (s : State) :
    SameButPortsRes s (execRcRead p addr wide s) := by
  unfold execRcRead
  extract_lets k0
  have hk0 : SameButPorts s k0.1 := by
    dsimp only [k0]
    exact State.regRead_sameButPortsFst ..
  clear_value k0
  refine SameButPortsRes.next ?_
  refine SameButPorts.trans ?_ (State.send_sameButPorts ..)
  assumption

theorem State.trsReply_sameButPorts (s : State) (dst seq : Nat) (payload : List Byte) :
    SameButPorts s (State.trsReply s dst seq payload) := by
  unfold State.trsReply
  exact State.modTrs_sameButPorts ..

theorem State.trsExecuted_sameButPorts (s : State) (h : TrsHead) (payload : List Byte) :
    SameButPorts s (State.trsExecuted s h payload) := by
  unfold State.trsExecuted
  refine SameButPorts.trans ?_ (State.trsReply_sameButPorts ..)
  exact State.modTrs_sameButPorts ..

theorem State.trsReq_sameButPorts (s : State) (h : TrsHead) (run : State → State × List Byte) (hb : ∀ t,
    SameButPorts t (run t).1) :
    SameButPorts s (State.trsReq s h run) := by
  unfold State.trsReq
  split
  · exact SameButPorts.refl _
  · split
    · exact SameButPorts.refl _
    · split
      · exact State.trsReceive_sameButPortsEq (by assumption)
      · split
        · refine SameButPorts.trans ?_ (State.trsReply_sameButPorts ..)
          exact State.trsReceive_sameButPortsEq (by assumption)
        · refine SameButPorts.trans ?_ (State.cnt_sameButPorts ..)
          exact State.trsReceive_sameButPortsEq (by assumption)
        · extract_lets k0
          have hk0 : SameButPorts s k0.1 := by
            dsimp only [k0]
            refine SameButPorts.trans ?_ (hb ..)
            exact State.trsReceive_sameButPortsEq (by assumption)
          clear_value k0
          split
          · refine SameButPorts.trans ?_ (State.trsExecuted_sameButPorts ..)
            assumption
          · assumption

theorem State.trsWords_sameButPortsFst (s : State) (addr n : Nat) : SameButPorts s (State.trsWords s addr n).1 := by
  unfold State.trsWords
  refine SameButPorts.foldlFst ?_ (fun t x => ?_)
  · dsimp only
    exact SameButPorts.refl _
  · extract_lets k0
    have hk0 : SameButPorts (Prod.fst t) k0.1 := by
      dsimp only [k0]
      exact State.regRead_sameButPortsFst ..
    clear_value k0
    dsimp only
    assumption

theorem execTrestleRead_sameButPortsRes (h : TrsHead) (count addr : Nat) (s : State) :
    SameButPortsRes s (execTrestleRead h count addr s) := by
  unfold execTrestleRead
  refine SameButPortsRes.next ?_
  refine State.trsReq_sameButPorts (hb := fun t => ?_) ..
  split
  · extract_lets k0
    have hk0 : SameButPorts t k0.1 := by
      dsimp only [k0]
      exact State.trsWords_sameButPortsFst ..
    clear_value k0
    dsimp only
    assumption
  · dsimp only
    exact SameButPorts.refl _

end Sys2Proof.Machine
end

