-- ==== Sys2Proof/Laws/SameButPower.lean ====
section
/-!
SUPPORT. The operations and commands that leave what `SameButPower` names.
-/
namespace Sys2Proof.Machine

theorem State.modSvc_sameButPower (s : State) (f : Service → Service) : SameButPower s (State.modSvc s f) := by
  unfold State.modSvc
  refine SameButPower.mk ?_
  exact SameButPower.refl _

theorem State.freeId_sameButPower (s : State) (id : Nat) : SameButPower s (State.freeId s id) := by
  unfold State.freeId
  exact State.modSvc_sameButPower ..

theorem State.freeOf_sameButPower (s : State) (o : HostOut) : SameButPower s (State.freeOf s o) := by
  unfold State.freeOf
  split
  · exact State.freeId_sameButPower ..
  · exact SameButPower.refl _

theorem State.modHost_sameButPower (s : State) (f : HostPort → HostPort) : SameButPower s (State.modHost s f) := by
  unfold State.modHost
  refine SameButPower.mk ?_
  exact SameButPower.refl _

theorem State.send_sameButPower (s : State) (o : Out) : SameButPower s (State.send s o) := by
  exact SameButPower.refl _

theorem State.post_sameButPower (s : State) (o : HostOut) : SameButPower s (State.post s o) := by
  unfold State.post
  refine SameButPower.trans ?_ (State.freeOf_sameButPower ..)
  exact State.send_sameButPower ..

theorem State.toHost_sameButPower (s : State) (o : HostOut) : SameButPower s (State.toHost s o) := by
  unfold State.toHost
  split
  · exact State.freeOf_sameButPower ..
  · split
    · exact State.modHost_sameButPower ..
    · exact State.post_sameButPower ..

theorem State.writeHost_sameButPower (s : State) (fn : Nat) (trans : Option (Nat × Nat)) (relaxed : Bool) (a : Nat)
    (d : List Byte) :
    SameButPower s (State.writeHost s fn trans relaxed a d) := by
  unfold State.writeHost
  refine SameButPower.each ?_ (fun t x => ?_)
  · exact SameButPower.refl _
  · exact State.toHost_sameButPower ..

theorem State.setHdr_sameButPower (s : State) (pg off v : Nat) : SameButPower s (State.setHdr s pg off v) := by
  unfold State.setHdr
  refine SameButPower.mk ?_
  exact SameButPower.refl _

theorem State.modFn_sameButPower (s : State) (n : Nat) (f : Function → Function) :
    SameButPower s (State.modFn s n f) := by
  unfold State.modFn
  refine SameButPower.mk ?_
  exact SameButPower.refl _

theorem State.msix_sameButPower (s : State) (fn v : Nat) : SameButPower s (State.msix s fn v) := by
  unfold State.msix
  split
  · exact State.toHost_sameButPower ..
  · exact State.modFn_sameButPower ..

theorem State.routeSend_sameButPower (s : State) (t : Nat) : SameButPower s (State.routeSend s t) := by
  unfold State.routeSend
  extract_lets k0
  clear_value k0
  split
  · refine SameButPower.trans ?_ (State.modHost_sameButPower ..)
    exact State.msix_sameButPower ..
  · exact SameButPower.refl _

theorem State.setIrq_sameButPower (s : State) (pg off v : Nat) : SameButPower s (State.setIrq s pg off v) := by
  unfold State.setIrq
  extract_lets u0 k0
  clear_value k0
  have hu0 : SameButPower s u0 := by
    dsimp only [u0]
    exact State.setHdr_sameButPower ..
  clear_value u0
  split
  · split
    · refine SameButPower.trans ?_ (State.msix_sameButPower ..)
      assumption
    · assumption
  · split
    · extract_lets k1
      clear_value k1
      split
      · refine SameButPower.trans ?_ (State.routeSend_sameButPower ..)
        assumption
      · assumption
    · assumption

theorem State.irq_sameButPower (s : State) (pg m : Nat) : SameButPower s (State.irq s pg m) := by
  unfold State.irq
  exact State.setIrq_sameButPower ..

theorem State.event_sameButPower (s : State) (p : PageType) (i n : Nat) : SameButPower s (State.event s p i n) := by
  unfold State.event
  exact State.irq_sameButPower ..

theorem State.writeBlock_sameButPower (s : State) : SameButPower s (State.writeBlock s) := by
  unfold State.writeBlock
  split
  · exact SameButPower.refl _
  · split
    · exact State.modSvc_sameButPower ..
    · extract_lets k0 k1 k2 k3 k4 u0
      clear_value k0 k1 k2 k3 k4
      have hu0 : SameButPower s u0 := by
        dsimp only [u0]
        refine SameButPower.trans ?_ (State.writeHost_sameButPower ..)
        exact State.writeHost_sameButPower ..
      clear_value u0
      refine SameButPower.trans ?_ (State.event_sameButPower ..)
      refine SameButPower.trans ?_ (State.modSvc_sameButPower ..)
      assumption

theorem execLedgerCheckpoint_sameButPowerRes (s : State) : SameButPowerRes s (execLedgerCheckpoint s) := by
  unfold execLedgerCheckpoint
  extract_lets k0
  clear_value k0
  refine SameButPowerRes.next ?_
  split
  · exact State.writeBlock_sameButPower ..
  · exact SameButPower.refl _

theorem execStreamLifetime_sameButPowerRes (stream : Fin 65536) (s : State) :
    SameButPowerRes s (execStreamLifetime stream s) := by
  unfold execStreamLifetime
  refine SameButPowerRes.next ?_
  split
  · exact SameButPower.refl _
  · split
    · exact SameButPower.refl _
    · split
      · exact SameButPower.refl _
      · exact State.modSvc_sameButPower ..

theorem State.setStream_sameButPower (s : State) (id : Nat) (x : Stream) : SameButPower s (State.setStream s id x)
    := by
  unfold State.setStream
  exact State.modSvc_sameButPower ..

theorem State.draw_sameButPower (s : State) : SameButPower s (State.draw s) := by
  unfold State.draw
  refine SameButPower.mk ?_
  exact SameButPower.refl _

theorem State.createStream_sameButPowerFst (s : State) (cls t : Nat) (host : Option HostCmd) (inputs : List Byte) :
    SameButPower s (State.createStream s cls t host inputs).1 := by
  unfold State.createStream
  extract_lets k0
  clear_value k0
  dsimp only
  refine SameButPower.trans ?_ (State.setStream_sameButPower ..)
  exact State.draw_sameButPower ..

theorem State.openFrame_sameButPower (s : State) (t : Tile) (k : StreamClass) :
    SameButPower s (State.openFrame s t k) := by
  unfold State.openFrame
  extract_lets k0
  have hk0 : SameButPower s k0.1 := by
    dsimp only [k0]
    exact State.createStream_sameButPowerFst ..
  clear_value k0
  refine SameButPower.trans ?_ (State.modSvc_sameButPower ..)
  assumption

theorem State.modFrame_sameButPower (s : State) (exposure sensor : Nat) (f : OpenFrame → OpenFrame) :
    SameButPower s (State.modFrame s exposure sensor f) := by
  unfold State.modFrame
  exact State.modSvc_sameButPower ..

theorem State.setRaw_sameButPower (s : State) (p : PageType) (i off bank v : Nat) :
    SameButPower s (State.setRaw s p i off bank v) := by
  unfold State.setRaw
  refine SameButPower.mk ?_
  exact SameButPower.refl _

theorem State.wr_sameButPower (s : State) (r : Reg) (v i bank idx : Nat) :
    SameButPower s (State.wr s r v i bank idx) := by
  unfold State.wr
  exact State.setRaw_sameButPower ..

theorem State.cnt_sameButPower (s : State) (r : Reg) (i n bank idx : Nat) :
    SameButPower s (State.cnt s r i n bank idx) := by
  unfold State.cnt
  extract_lets k0 k1
  clear_value k0 k1
  split
  · refine SameButPower.mk ?_
    exact SameButPower.refl _
  · exact State.wr_sameButPower ..

theorem State.arrive_sameButPower (s : State) (l : List Unit_) : SameButPower s (State.arrive s l) := by
  unfold State.arrive
  exact State.modSvc_sameButPower ..

theorem State.acceptTile_sameButPower (s : State) (t : Tile) (k : StreamClass) (f : OpenFrame) :
    SameButPower s (State.acceptTile s t k f) := by
  unfold State.acceptTile
  split
  · refine SameButPower.trans ?_ (State.modFrame_sameButPower ..)
    exact State.cnt_sameButPower ..
  · split
    · refine SameButPower.trans ?_ (State.modFrame_sameButPower ..)
      exact State.cnt_sameButPower ..
    · extract_lets u0
      have hu0 : SameButPower s u0 := by
        dsimp only [u0]
        refine SameButPower.trans ?_ (State.modFrame_sameButPower ..)
        exact State.cnt_sameButPower ..
      clear_value u0
      split
      · assumption
      · split
        · assumption
        · refine SameButPower.trans ?_ (State.arrive_sameButPower ..)
          assumption

theorem execFrameOpen_sameButPowerRes (s : State) : SameButPowerRes s (execFrameOpen s) := by
  unfold execFrameOpen
  refine SameButPowerRes.next ?_
  split
  · exact SameButPower.refl _
  · split
    · exact SameButPower.refl _
    · extract_lets k0 u0
      clear_value k0
      have hu0 : SameButPower s u0 := by
        dsimp only [u0]
        refine SameButPower.trans ?_ (State.openFrame_sameButPower ..)
        exact State.modSvc_sameButPower ..
      clear_value u0
      refine SameButPower.each ?_ (fun t x => ?_)
      · assumption
      · split
        · exact State.acceptTile_sameButPower ..
        · exact SameButPower.refl _

theorem execFrameWindowClose_sameButPowerRes (exposure sensor : Nat) (s : State) :
    SameButPowerRes s (execFrameWindowClose exposure sensor s) := by
  unfold execFrameWindowClose
  refine SameButPowerRes.next ?_
  split
  · exact SameButPower.refl _
  · split
    · split
      · exact SameButPower.refl _
      · extract_lets k0 k1 k2 k3
        clear_value k0 k1 k2 k3
        refine SameButPower.trans ?_ (State.modSvc_sameButPower ..)
        refine SameButPower.trans ?_ (State.modFrame_sameButPower ..)
        refine SameButPower.when ?_ (fun t => ?_)
        · exact SameButPower.refl _
        · exact State.cnt_sameButPower ..
    · exact SameButPower.refl _

theorem State.capture_sameButPower (s : State) (pg : Nat) (v : Viol) (more : Bool) :
    SameButPower s (State.capture s pg v more) := by
  unfold State.capture
  extract_lets k0
  clear_value k0
  refine SameButPower.trans ?_ (State.setHdr_sameButPower ..)
  refine SameButPower.trans ?_ (State.setHdr_sameButPower ..)
  refine SameButPower.trans ?_ (State.setHdr_sameButPower ..)
  refine SameButPower.trans ?_ (State.setHdr_sameButPower ..)
  exact State.setHdr_sameButPower ..

theorem State.violateAll_sameButPower (s : State) (pg : Nat) (v : Viol) (vs : List Viol) :
    SameButPower s (State.violateAll s pg v vs) := by
  unfold State.violateAll
  extract_lets k0 u0
  clear_value k0
  have hu0 : SameButPower s u0 := by
    dsimp only [u0]
    split
    · exact State.setHdr_sameButPower ..
    · exact State.capture_sameButPower ..
  clear_value u0
  refine SameButPower.trans ?_ (State.irq_sameButPower ..)
  refine SameButPower.trans ?_ (State.setHdr_sameButPower ..)
  assumption

theorem State.violate_sameButPower (s : State) (p : PageType) (i : Nat) (v : Viol) :
    SameButPower s (State.violate s p i v) := by
  unfold State.violate
  exact State.violateAll_sameButPower ..

theorem State.noteStatus_sameButPower (s old : State) : SameButPower s (State.noteStatus s old) := by
  unfold State.noteStatus
  split
  · exact SameButPower.refl _
  · refine SameButPower.mk ?_
    exact SameButPower.refl _

theorem State.modPower_sameButPower (s : State) (f : Power → Power) : SameButPower s (State.modPower s f) := by
  unfold State.modPower
  exact State.noteStatus_sameButPower ..

theorem State.modQuarter_sameButPower (s : State) (q : Nat) (f : Quarter → Quarter) :
    SameButPower s (State.modQuarter s q f) := by
  unfold State.modQuarter
  refine SameButPower.mk ?_
  exact SameButPower.refl _

theorem execAvsbusFailure_sameButPowerRes (rail : Fin 5) (s : State) :
    SameButPowerRes s (execAvsbusFailure rail s) := by
  unfold execAvsbusFailure
  extract_lets k0 k1 u0 u1
  clear_value k0 k1
  have hu0 : SameButPower s u0 := by
    dsimp only [u0]
    refine SameButPower.mk ?_
    exact SameButPower.refl _
  clear_value u0
  have hu1 : SameButPower s u1 := by
    dsimp only [u1]
    refine SameButPower.trans ?_ (State.violate_sameButPower ..)
    refine SameButPower.trans ?_ (State.event_sameButPower ..)
    refine SameButPower.trans ?_ (State.modPower_sameButPower ..)
    assumption
  clear_value u1
  refine SameButPowerRes.next ?_
  split
  · assumption
  · split
    · assumption
    · refine SameButPower.trans ?_ (State.modQuarter_sameButPower ..)
      assumption

theorem State.avsWrite_sameButPower (s : State) (q mv : Nat) : SameButPower s (State.avsWrite s q mv) := by
  unfold State.avsWrite
  refine SameButPower.trans ?_ (State.send_sameButPower ..)
  refine SameButPower.trans ?_ (State.modPower_sameButPower ..)
  exact State.modQuarter_sameButPower ..

theorem State.setThrottle_sameButPower (s : State) (hot capped : Bool) :
    SameButPower s (State.setThrottle s hot capped) := by
  unfold State.setThrottle
  extract_lets k0 u0 u1
  clear_value k0
  have hu0 : SameButPower s u0 := by
    dsimp only [u0]
    exact State.modPower_sameButPower ..
  clear_value u0
  have hu1 : SameButPower s u1 := by
    dsimp only [u1]
    split
    · refine SameButPower.trans ?_ (State.event_sameButPower ..)
      assumption
    · assumption
  clear_value u1
  split
  · refine SameButPower.each ?_ (fun t x => ?_)
    · assumption
    · split
      · exact SameButPower.refl _
      · refine SameButPower.trans ?_ (State.avsWrite_sameButPower ..)
        exact State.modQuarter_sameButPower ..
  · assumption

theorem State.setCrit_sameButPower (s : State) (crit : Bool) : SameButPower s (State.setCrit s crit) := by
  unfold State.setCrit
  extract_lets u0
  have hu0 : SameButPower s u0 := by
    dsimp only [u0]
    exact State.modPower_sameButPower ..
  clear_value u0
  split
  · refine SameButPower.trans ?_ (State.event_sameButPower ..)
    assumption
  · assumption

theorem execThermalThreshold_sameButPowerRes (temps : List Nat) (s : State) :
    SameButPowerRes s (execThermalThreshold temps s) := by
  unfold execThermalThreshold
  extract_lets k0 u0 u1
  clear_value k0
  have hu0 : SameButPower s u0 := by
    dsimp only [u0]
    refine SameButPower.each ?_ (fun t x => ?_)
    · exact SameButPower.refl _
    · exact State.modQuarter_sameButPower ..
  clear_value u0
  have hu1 : SameButPower s u1 := by
    dsimp only [u1]
    refine SameButPower.trans ?_ (State.setThrottle_sameButPower ..)
    assumption
  clear_value u1
  refine SameButPowerRes.next ?_
  refine SameButPower.trans ?_ (State.setCrit_sameButPower ..)
  assumption

theorem execTelemetryRead_sameButPowerRes (vout pout : List Nat) (s : State) :
    SameButPowerRes s (execTelemetryRead vout pout s) := by
  unfold execTelemetryRead
  extract_lets u0 k0 k1 k2 k3 k4 k5 u1 u2
  clear_value k0 k1 k2 k3 k4 k5
  have hu0 : SameButPower s u0 := by
    dsimp only [u0]
    refine SameButPower.each ?_ (fun t x => ?_)
    · exact SameButPower.refl _
    · split
      · exact State.modQuarter_sameButPower ..
      · exact SameButPower.refl _
  clear_value u0
  have hu1 : SameButPower s u1 := by
    dsimp only [u1]
    refine SameButPower.mk ?_
    assumption
  clear_value u1
  have hu2 : SameButPower s u2 := by
    dsimp only [u2]
    split
    · refine SameButPower.trans ?_ (State.violate_sameButPower ..)
      assumption
    · assumption
  clear_value u2
  refine SameButPowerRes.next ?_
  refine SameButPower.trans ?_ (State.setThrottle_sameButPower ..)
  assumption

theorem State.modPort_sameButPower (s : State) (p : Nat) (f : Port → Port) : SameButPower s (State.modPort s p f)
    := by
  unfold State.modPort
  refine SameButPower.mk ?_
  exact SameButPower.refl _

theorem State.powerState_sameButPower (s : State) (x : PowerState) : SameButPower s (State.powerState s x) := by
  unfold State.powerState
  refine SameButPower.trans ?_ (State.event_sameButPower ..)
  exact State.modPower_sameButPower ..

theorem State.startWake_sameButPower (s : State) (src : Nat) : SameButPower s (State.startWake s src) := by
  unfold State.startWake
  extract_lets u0
  have hu0 : SameButPower s u0 := by
    dsimp only [u0]
    refine SameButPower.trans ?_ (State.powerState_sameButPower ..)
    exact State.modPower_sameButPower ..
  clear_value u0
  refine SameButPower.each ?_ (fun t x => ?_)
  · assumption
  · refine SameButPower.trans ?_ (State.modPort_sameButPower ..)
    exact State.send_sameButPower ..

theorem execDozeEntryComplete_sameButPowerRes (s : State) : SameButPowerRes s (execDozeEntryComplete s) := by
  unfold execDozeEntryComplete
  refine SameButPowerRes.next ?_
  split
  · exact SameButPower.refl _
  · extract_lets u0 u1 u2
    have hu0 : SameButPower s u0 := by
      dsimp only [u0]
      refine SameButPower.trans ?_ (State.send_sameButPower ..)
      refine SameButPower.each ?_ (fun t x => ?_)
      · exact SameButPower.refl _
      · refine SameButPower.trans ?_ (State.avsWrite_sameButPower ..)
        exact State.modQuarter_sameButPower ..
    clear_value u0
    have hu1 : SameButPower s u1 := by
      dsimp only [u1]
      refine SameButPower.each ?_ (fun t x => ?_)
      · assumption
      · exact State.modPort_sameButPower ..
    clear_value u1
    have hu2 : SameButPower s u2 := by
      dsimp only [u2]
      refine SameButPower.trans ?_ (State.powerState_sameButPower ..)
      assumption
    clear_value u2
    split
    · assumption
    · refine SameButPower.trans ?_ (State.startWake_sameButPower ..)
      assumption

theorem State.wake_sameButPower (s : State) (src : Nat) : SameButPower s (State.wake s src) := by
  unfold State.wake
  split
  · exact SameButPower.refl _
  · split
    · exact State.startWake_sameButPower ..
    · exact State.modPower_sameButPower ..
    · split
      · exact State.modPower_sameButPower ..
      · exact SameButPower.refl _
    · exact SameButPower.refl _

theorem execExitSignal_sameButPowerRes (port : Fin 16) (s : State) : SameButPowerRes s (execExitSignal port s) := by
  unfold execExitSignal
  refine SameButPowerRes.next ?_
  refine SameButPower.trans ?_ (State.wake_sameButPower ..)
  exact State.modPort_sameButPower ..

theorem State.streamRefused_sameButPower (s : State) (pg : PageType) (i src tenant refusal : Nat) :
    SameButPower s (State.streamRefused s pg i src tenant refusal) := by
  unfold State.streamRefused
  split
  · exact State.violate_sameButPower ..
  · exact SameButPower.refl _

theorem State.placeTile_sameButPower (s : State) (t : Tile) (k : StreamClass) :
    SameButPower s (State.placeTile s t k) := by
  unfold State.placeTile
  split
  · exact State.cnt_sameButPower ..
  · split
    · exact State.acceptTile_sameButPower ..
    · split
      · extract_lets u0
        have hu0 : SameButPower s u0 := by
          dsimp only [u0]
          exact State.openFrame_sameButPower ..
        clear_value u0
        split
        · refine SameButPower.trans ?_ (State.acceptTile_sameButPower ..)
          assumption
        · assumption
      · extract_lets u0
        have hu0 : SameButPower s u0 := by
          dsimp only [u0]
          refine SameButPower.when ?_ (fun t => ?_)
          · exact SameButPower.refl _
          · exact State.streamRefused_sameButPower ..
        clear_value u0
        split
        · refine SameButPower.trans ?_ (State.event_sameButPower ..)
          refine SameButPower.trans ?_ (State.cnt_sameButPower ..)
          assumption
        · refine SameButPower.trans ?_ (State.modSvc_sameButPower ..)
          assumption

theorem execTile_sameButPowerRes (port : Fin 16) (t : Tile) (s : State) : SameButPowerRes s (execTile port t s) := by
  unfold execTile
  refine SameButPowerRes.next ?_
  split
  · exact SameButPower.refl _
  · split
    · split
      · refine SameButPower.trans ?_ (State.wake_sameButPower ..)
        exact State.placeTile_sameButPower ..
      · exact State.cnt_sameButPower ..
    · refine SameButPower.trans ?_ (State.cnt_sameButPower ..)
      exact State.cnt_sameButPower ..

theorem State.modIsland_sameButPower (s : State) (f : Island → Island) : SameButPower s (State.modIsland s f) := by
  unfold State.modIsland
  exact State.noteStatus_sameButPower ..

theorem State.cleared_sameButPower (s : State) (code : Nat) : SameButPower s (State.cleared s code) := by
  unfold State.cleared
  exact State.modIsland_sameButPower ..

theorem State.modTick_sameButPower (s : State) (f : Tick → Tick) : SameButPower s (State.modTick s f) := by
  unfold State.modTick
  refine SameButPower.mk ?_
  exact SameButPower.refl _

theorem State.closeGate_sameButPower (s : State) (n : Nat) : SameButPower s (State.closeGate s n) := by
  unfold State.closeGate
  extract_lets u0 u1
  have hu0 : SameButPower s u0 := by
    dsimp only [u0]
    exact State.modIsland_sameButPower ..
  clear_value u0
  have hu1 : SameButPower s u1 := by
    dsimp only [u1]
    split
    · refine SameButPower.trans ?_ (State.event_sameButPower ..)
      assumption
    · assumption
  clear_value u1
  split
  · refine SameButPower.trans ?_ (State.modTick_sameButPower ..)
    assumption
  · assumption

theorem State.optOff_sameButPower (s : State) (p : Nat) : SameButPower s (State.optOff s p) := by
  unfold State.optOff
  split
  · exact SameButPower.refl _
  · refine SameButPower.trans ?_ (State.event_sameButPower ..)
    refine SameButPower.trans ?_ (State.cnt_sameButPower ..)
    exact State.modPort_sameButPower ..

theorem State.lineOn_sameButPower (s : State) (p reason : Nat) : SameButPower s (State.lineOn s p reason) := by
  unfold State.lineOn
  refine SameButPower.trans ?_ (State.optOff_sameButPower ..)
  exact State.modIsland_sameButPower ..

theorem State.linesOn_sameButPower (s : State) (reason : Nat) : SameButPower s (State.linesOn s reason) := by
  unfold State.linesOn
  refine SameButPower.each ?_ (fun t x => ?_)
  · exact SameButPower.refl _
  · exact State.lineOn_sameButPower ..

theorem State.record_sameButPower (s : State) (code actions detail unit : Nat) :
    SameButPower s (State.record s code actions detail unit) := by
  unfold State.record
  split
  · exact SameButPower.refl _
  · extract_lets k0 k1 u0
    clear_value k0 k1
    have hu0 : SameButPower s u0 := by
      dsimp only [u0]
      exact State.modIsland_sameButPower ..
    clear_value u0
    refine SameButPower.trans ?_ (State.violate_sameButPower ..)
    refine SameButPower.trans ?_ (State.event_sameButPower ..)
    assumption

theorem State.kill_sameButPower (s : State) : SameButPower s (State.kill s) := by
  unfold State.kill
  exact State.modIsland_sameButPower ..

theorem execLockstepMismatch_sameButPowerRes (s : State) : SameButPowerRes s (execLockstepMismatch s) := by
  unfold execLockstepMismatch
  extract_lets k0 u0 u1 u2
  clear_value k0
  have hu0 : SameButPower s u0 := by
    dsimp only [u0]
    refine SameButPower.trans ?_ (State.cleared_sameButPower ..)
    refine SameButPower.trans ?_ (State.closeGate_sameButPower ..)
    exact State.linesOn_sameButPower ..
  clear_value u0
  have hu1 : SameButPower s u1 := by
    dsimp only [u1]
    refine SameButPower.trans ?_ (State.modIsland_sameButPower ..)
    assumption
  clear_value u1
  have hu2 : SameButPower s u2 := by
    dsimp only [u2]
    refine SameButPower.trans ?_ (State.record_sameButPower ..)
    assumption
  clear_value u2
  refine SameButPowerRes.next ?_
  split
  · refine SameButPower.trans ?_ (State.kill_sameButPower ..)
    assumption
  · assumption

theorem execSensorImplausible_sameButPowerRes (sensor : Fin 36) (temp : Nat) (s : State) :
    SameButPowerRes s (execSensorImplausible sensor temp s) := by
  unfold execSensorImplausible
  split
  · refine SameButPowerRes.next ?_
    exact SameButPower.refl _
  · extract_lets u0 k0
    clear_value k0
    have hu0 : SameButPower s u0 := by
      dsimp only [u0]
      refine SameButPower.trans ?_ (State.record_sameButPower ..)
      exact State.modIsland_sameButPower ..
    clear_value u0
    refine SameButPowerRes.next ?_
    split
    · refine SameButPower.trans ?_ (State.setCrit_sameButPower ..)
      refine SameButPower.trans ?_ (State.modIsland_sameButPower ..)
      assumption
    · assumption

theorem execCoreUndervoltage_sameButPowerRes (q : Fin 4) (mv : Nat) (s : State) :
    SameButPowerRes s (execCoreUndervoltage q mv s) := by
  unfold execCoreUndervoltage
  refine SameButPowerRes.next ?_
  split
  · exact SameButPower.refl _
  · refine SameButPower.trans ?_ (State.closeGate_sameButPower ..)
    exact State.record_sameButPower ..

theorem execRetentionUndervoltage_sameButPowerRes (mv : Nat) (s : State) :
    SameButPowerRes s (execRetentionUndervoltage mv s) := by
  unfold execRetentionUndervoltage
  refine SameButPowerRes.next ?_
  split
  · split
    · exact SameButPower.refl _
    · refine SameButPower.trans ?_ (State.closeGate_sameButPower ..)
      exact State.record_sameButPower ..
  · split
    · exact SameButPower.refl _
    · refine SameButPower.trans ?_ (State.closeGate_sameButPower ..)
      exact State.record_sameButPower ..

theorem execQuarterClockFault_sameButPowerRes (q : Fin 4) (mhz : Nat) (s : State) :
    SameButPowerRes s (execQuarterClockFault q mhz s) := by
  unfold execQuarterClockFault
  refine SameButPowerRes.next ?_
  split
  · refine SameButPower.trans ?_ (State.closeGate_sameButPower ..)
    exact State.record_sameButPower ..
  · exact SameButPower.refl _

theorem execIslandOscillatorFault_sameButPowerRes (mhz : Nat) (s : State) :
    SameButPowerRes s (execIslandOscillatorFault mhz s) := by
  unfold execIslandOscillatorFault
  refine SameButPowerRes.next ?_
  split
  · refine SameButPower.trans ?_ (State.closeGate_sameButPower ..)
    exact State.record_sameButPower ..
  · exact SameButPower.refl _

theorem execHubWatchdog_sameButPowerRes (s : State) : SameButPowerRes s (execHubWatchdog s) := by
  unfold execHubWatchdog
  refine SameButPowerRes.next ?_
  refine SameButPower.trans ?_ (State.closeGate_sameButPower ..)
  exact State.record_sameButPower ..

theorem execSelfCheckComplete_sameButPowerRes (bad : Option (Fin 512)) (s : State) :
    SameButPowerRes s (execSelfCheckComplete bad s) := by
  unfold execSelfCheckComplete
  refine SameButPowerRes.next ?_
  split
  · split
    · exact State.modIsland_sameButPower ..
    · refine SameButPower.trans ?_ (State.closeGate_sameButPower ..)
      refine SameButPower.trans ?_ (State.modIsland_sameButPower ..)
      exact State.record_sameButPower ..
  · exact SameButPower.refl _

theorem State.modTrs_sameButPower (s : State) (f : Trestle → Trestle) : SameButPower s (State.modTrs s f) := by
  unfold State.modTrs
  refine SameButPower.mk ?_
  exact SameButPower.refl _

theorem State.trsReceive_sameButPowerEq {s : State} {h : TrsHead} {t' : State} (hq : State.trsReceive s h = some t') :
    SameButPower s t' := by
  unfold State.trsReceive at hq
  split at hq
  · cases hq
  · split at hq
    · cases hq
      exact State.cnt_sameButPower ..
    · extract_lets u0 k0 at hq
      have hu0 : SameButPower s u0 := by
        dsimp only [u0]
        split
        · exact State.modTrs_sameButPower ..
        · exact SameButPower.refl _
      clear_value u0
      cases hq
      split
      · refine SameButPower.trans ?_ (State.modTrs_sameButPower ..)
        assumption
      · assumption

theorem execTrestleWake_sameButPowerRes (h : TrsHead) (s : State) : SameButPowerRes s (execTrestleWake h s) := by
  unfold execTrestleWake
  refine SameButPowerRes.next ?_
  split
  · exact SameButPower.refl _
  · split
    · refine SameButPower.trans ?_ (State.wake_sameButPower ..)
      exact State.trsReceive_sameButPowerEq (by assumption)
    · exact State.trsReceive_sameButPowerEq (by assumption)

end Sys2Proof.Machine
end

