-- ==== Sys2Proof/Laws/SameButServices.lean ====
section
/-!
SUPPORT. The operations and commands that leave what `SameButServices` names.
-/
namespace Sys2Proof.Machine

theorem State.setCluster_sameButServices (s : State) (c : Nat) (x : Cluster) :
    SameButServices s (State.setCluster s c x) := by
  unfold State.setCluster
  refine SameButServices.mk ?_
  exact SameButServices.refl _

theorem State.modCluster_sameButServices (s : State) (c : Nat) (f : Cluster → Cluster) :
    SameButServices s (State.modCluster s c f) := by
  unfold State.modCluster
  exact State.setCluster_sameButServices ..

theorem State.setRaw_sameButServices (s : State) (p : PageType) (i off bank v : Nat) :
    SameButServices s (State.setRaw s p i off bank v) := by
  unfold State.setRaw
  refine SameButServices.mk ?_
  exact SameButServices.refl _

theorem State.wr_sameButServices (s : State) (r : Reg) (v i bank idx : Nat) :
    SameButServices s (State.wr s r v i bank idx) := by
  unfold State.wr
  exact State.setRaw_sameButServices ..

theorem State.cnt_sameButServices (s : State) (r : Reg) (i n bank idx : Nat) :
    SameButServices s (State.cnt s r i n bank idx) := by
  unfold State.cnt
  extract_lets k0 k1
  clear_value k0 k1
  split
  · refine SameButServices.mk ?_
    exact SameButServices.refl _
  · exact State.wr_sameButServices ..

theorem State.modTick_sameButServices (s : State) (f : Tick → Tick) : SameButServices s (State.modTick s f) := by
  unfold State.modTick
  refine SameButServices.mk ?_
  exact SameButServices.refl _

theorem State.sealFault_sameButServices (s : State) (code : Nat) (u : FaultUnit) :
    SameButServices s (State.sealFault s code u) := by
  unfold State.sealFault
  extract_lets u0
  have hu0 : SameButServices s u0 := by
    dsimp only [u0]
    exact State.modTick_sameButServices ..
  clear_value u0
  split
  · assumption
  · refine SameButServices.trans ?_ (State.modTick_sameButServices ..)
    assumption

theorem State.tickFault_sameButServices (s : State) (code : Nat) (u : FaultUnit) :
    SameButServices s (State.tickFault s code u) := by
  unfold State.tickFault
  split
  · exact SameButServices.refl _
  · exact State.sealFault_sameButServices ..

theorem State.setHdr_sameButServices (s : State) (pg off v : Nat) : SameButServices s (State.setHdr s pg off v) := by
  unfold State.setHdr
  refine SameButServices.mk ?_
  exact SameButServices.refl _

theorem State.capture_sameButServices (s : State) (pg : Nat) (v : Viol) (more : Bool) :
    SameButServices s (State.capture s pg v more) := by
  unfold State.capture
  extract_lets k0
  clear_value k0
  refine SameButServices.trans ?_ (State.setHdr_sameButServices ..)
  refine SameButServices.trans ?_ (State.setHdr_sameButServices ..)
  refine SameButServices.trans ?_ (State.setHdr_sameButServices ..)
  refine SameButServices.trans ?_ (State.setHdr_sameButServices ..)
  exact State.setHdr_sameButServices ..

theorem State.modSvc_sameButServices (s : State) (f : Service → Service) : SameButServices s (State.modSvc s f) := by
  unfold State.modSvc
  refine SameButServices.mk ?_
  exact SameButServices.refl _

theorem State.freeId_sameButServices (s : State) (id : Nat) : SameButServices s (State.freeId s id) := by
  unfold State.freeId
  exact State.modSvc_sameButServices ..

theorem State.freeOf_sameButServices (s : State) (o : HostOut) : SameButServices s (State.freeOf s o) := by
  unfold State.freeOf
  split
  · exact State.freeId_sameButServices ..
  · exact SameButServices.refl _

theorem State.modHost_sameButServices (s : State) (f : HostPort → HostPort) :
    SameButServices s (State.modHost s f) := by
  unfold State.modHost
  refine SameButServices.mk ?_
  exact SameButServices.refl _

theorem State.send_sameButServices (s : State) (o : Out) : SameButServices s (State.send s o) := by
  exact SameButServices.refl _

theorem State.post_sameButServices (s : State) (o : HostOut) : SameButServices s (State.post s o) := by
  unfold State.post
  refine SameButServices.trans ?_ (State.freeOf_sameButServices ..)
  exact State.send_sameButServices ..

theorem State.toHost_sameButServices (s : State) (o : HostOut) : SameButServices s (State.toHost s o) := by
  unfold State.toHost
  split
  · exact State.freeOf_sameButServices ..
  · split
    · exact State.modHost_sameButServices ..
    · exact State.post_sameButServices ..

theorem State.modFn_sameButServices (s : State) (n : Nat) (f : Function → Function) :
    SameButServices s (State.modFn s n f) := by
  unfold State.modFn
  refine SameButServices.mk ?_
  exact SameButServices.refl _

theorem State.msix_sameButServices (s : State) (fn v : Nat) : SameButServices s (State.msix s fn v) := by
  unfold State.msix
  split
  · exact State.toHost_sameButServices ..
  · exact State.modFn_sameButServices ..

theorem State.routeSend_sameButServices (s : State) (t : Nat) : SameButServices s (State.routeSend s t) := by
  unfold State.routeSend
  extract_lets k0
  clear_value k0
  split
  · refine SameButServices.trans ?_ (State.modHost_sameButServices ..)
    exact State.msix_sameButServices ..
  · exact SameButServices.refl _

theorem State.setIrq_sameButServices (s : State) (pg off v : Nat) : SameButServices s (State.setIrq s pg off v) := by
  unfold State.setIrq
  extract_lets u0 k0
  clear_value k0
  have hu0 : SameButServices s u0 := by
    dsimp only [u0]
    exact State.setHdr_sameButServices ..
  clear_value u0
  split
  · split
    · refine SameButServices.trans ?_ (State.msix_sameButServices ..)
      assumption
    · assumption
  · split
    · extract_lets k1
      clear_value k1
      split
      · refine SameButServices.trans ?_ (State.routeSend_sameButServices ..)
        assumption
      · assumption
    · assumption

theorem State.irq_sameButServices (s : State) (pg m : Nat) : SameButServices s (State.irq s pg m) := by
  unfold State.irq
  exact State.setIrq_sameButServices ..

theorem State.violateAll_sameButServices (s : State) (pg : Nat) (v : Viol) (vs : List Viol) :
    SameButServices s (State.violateAll s pg v vs) := by
  unfold State.violateAll
  extract_lets k0 u0
  clear_value k0
  have hu0 : SameButServices s u0 := by
    dsimp only [u0]
    split
    · exact State.setHdr_sameButServices ..
    · exact State.capture_sameButServices ..
  clear_value u0
  refine SameButServices.trans ?_ (State.irq_sameButServices ..)
  refine SameButServices.trans ?_ (State.setHdr_sameButServices ..)
  assumption

theorem State.violate_sameButServices (s : State) (p : PageType) (i : Nat) (v : Viol) :
    SameButServices s (State.violate s p i v) := by
  unfold State.violate
  exact State.violateAll_sameButServices ..

theorem State.touchEntryWord_sameButServices (s : State) (c i w src tenant : Nat) :
    SameButServices s (State.touchEntryWord s c i w src tenant) := by
  unfold State.touchEntryWord
  split
  · exact SameButServices.refl _
  · refine SameButServices.trans ?_ (State.modCluster_sameButServices ..)
    extract_lets u0
    have hu0 : SameButServices s u0 := by
      dsimp only [u0]
      exact State.cnt_sameButServices ..
    clear_value u0
    refine SameButServices.mk ?_
    assumption
  · refine SameButServices.trans ?_ (State.tickFault_sameButServices ..)
    refine SameButServices.trans ?_ (State.violate_sameButServices ..)
    exact State.cnt_sameButServices ..

theorem State.touchEntry_sameButServices (s : State) (c i src tenant : Nat) :
    SameButServices s (State.touchEntry s c i src tenant) := by
  unfold State.touchEntry
  refine SameButServices.trans ?_ (State.touchEntryWord_sameButServices ..)
  exact State.touchEntryWord_sameButServices ..

theorem State.hubTagOff_sameButServices (s : State) (pg : PageType) (tenant : Nat) :
    SameButServices s (State.hubTagOff s pg tenant) := by
  unfold State.hubTagOff
  exact State.violate_sameButServices ..

theorem State.badRecord_sameButServices (s : State) (tenant addr : Nat) :
    SameButServices s (State.badRecord s tenant addr) := by
  unfold State.badRecord
  refine SameButServices.trans ?_ (State.violate_sameButServices ..)
  exact State.cnt_sameButServices ..

theorem collectRecords_sameButServicesFst (n : Nat) (x : Collect) (k : StreamClass) (c : Nat) (e : HEntry) (data :
    List Byte) (off : Nat) :
    SameButServices x.1 (collectRecords n x k c e data off).1 := by
  induction n generalizing x k c e data off
  · unfold collectRecords
    exact SameButServices.refl _
  · rename_i n ih
    unfold collectRecords
    extract_lets u0 k0 k1 k2 k3 k4 k5 k6 k7 u1
    clear_value k0 k1 k2 k3 k4 k5 k6 k7
    have hu0 : SameButServices (Prod.fst x) u0 := by
      dsimp only [u0]
      exact SameButServices.refl _
    clear_value u0
    have hu1 : SameButServices (Prod.fst x) u1 := by
      dsimp only [u1]
      split
      · refine SameButServices.trans ?_ (State.tickFault_sameButServices ..)
        refine SameButServices.trans ?_ (State.violate_sameButServices ..)
        assumption
      · split
        · refine SameButServices.trans ?_ (State.badRecord_sameButServices ..)
          assumption
        · split
          · refine SameButServices.trans ?_ (State.tickFault_sameButServices ..)
            refine SameButServices.trans ?_ (State.violate_sameButServices ..)
            assumption
          · refine SameButServices.trans ?_ (State.modSvc_sameButServices ..)
            assumption
    clear_value u1
    split
    · dsimp only
      refine SameButServices.trans ?_ (State.badRecord_sameButServices ..)
      assumption
    · refine SameButServices.trans ?_ (ih ..)
      dsimp only
      assumption

theorem State.draw_sameButServices (s : State) : SameButServices s (State.draw s) := by
  unfold State.draw
  refine SameButServices.mk ?_
  exact SameButServices.refl _

theorem State.modScrub_sameButServices (s : State) (k : Nat) (f : Scrub → Scrub) :
    SameButServices s (State.modScrub s k f) := by
  unfold State.modScrub
  split
  · exact State.modCluster_sameButServices ..
  · refine SameButServices.mk ?_
    exact SameButServices.refl _

theorem State.corrected_sameButServices (s : State) (a : Nat) : SameButServices s (State.corrected s a) := by
  unfold State.corrected
  extract_lets k0 k1 u0
  clear_value k0 k1
  have hu0 : SameButServices s u0 := by
    dsimp only [u0]
    refine SameButServices.trans ?_ (State.wr_sameButServices ..)
    exact State.cnt_sameButServices ..
  clear_value u0
  refine SameButServices.trans ?_ (State.modScrub_sameButServices ..)
  assumption

theorem State.uncorrectable_sameButServices (s : State) (a src tenant : Nat) (fails : Bool) :
    SameButServices s (State.uncorrectable s a src tenant fails) := by
  unfold State.uncorrectable
  extract_lets k0 k1 u0
  clear_value k0 k1
  have hu0 : SameButServices s u0 := by
    dsimp only [u0]
    refine SameButServices.trans ?_ (State.violate_sameButServices ..)
    exact State.cnt_sameButServices ..
  clear_value u0
  split
  · refine SameButServices.trans ?_ (State.tickFault_sameButServices ..)
    assumption
  · assumption

theorem State.touch_sameButServices (s : State) (a src tenant : Nat) :
    SameButServices s (State.touch s a src tenant) := by
  unfold State.touch
  split
  · exact SameButServices.refl _
  · exact State.corrected_sameButServices ..
  · exact State.uncorrectable_sameButServices ..

theorem State.afterRead_sameButServices (s : State) (g src tenant : Nat) (as : List Nat) :
    SameButServices s (State.afterRead s g src tenant as) := by
  unfold State.afterRead
  refine SameButServices.trans ?_ (State.draw_sameButServices ..)
  refine SameButServices.each ?_ (fun t x => ?_)
  · exact SameButServices.refl _
  · exact State.touch_sameButServices ..

theorem collectOutlet_sameButServicesFst (x : Collect) (k : StreamClass) (o : Nat × Nat) :
    SameButServices x.1 (collectOutlet x k o).1 := by
  unfold collectOutlet
  extract_lets u0 k0 u1 k1 k2 k3
  clear_value k0 k1 k2 k3
  have hu0 : SameButServices (Prod.fst x) u0 := by
    dsimp only [u0]
    exact SameButServices.refl _
  clear_value u0
  have hu1 : SameButServices (Prod.fst x) u1 := by
    dsimp only [u1]
    refine SameButServices.trans ?_ (State.touchEntry_sameButServices ..)
    assumption
  clear_value u1
  split
  · exact SameButServices.refl _
  · split
    · dsimp only
      refine SameButServices.trans ?_ (State.hubTagOff_sameButServices ..)
      assumption
    · split
      · dsimp only
        assumption
      · refine SameButServices.trans ?_ (collectRecords_sameButServicesFst ..)
        dsimp only
        refine SameButServices.trans ?_ (State.afterRead_sameButServices ..)
        assumption

theorem State.collect_sameButServices (s : State) (crcOk : List Bool) :
    SameButServices s (State.collect s crcOk) := by
  unfold State.collect
  extract_lets k0
  clear_value k0
  refine SameButServices.foldlFst ?_ (fun t x => ?_)
  · dsimp only
    exact SameButServices.refl _
  · refine SameButServices.foldlFst ?_ (fun t x => ?_)
    · exact SameButServices.refl _
    · exact collectOutlet_sameButServicesFst ..

theorem execCollectionComplete_sameButServicesRes (crcOk : List Bool) (s : State) :
    SameButServicesRes s (execCollectionComplete crcOk s) := by
  unfold execCollectionComplete
  refine SameButServicesRes.next ?_
  split
  · refine SameButServices.trans ?_ (State.collect_sameButServices ..)
    exact State.modSvc_sameButServices ..
  · exact SameButServices.refl _

theorem State.setStream_sameButServices (s : State) (id : Nat) (x : Stream) :
    SameButServices s (State.setStream s id x) := by
  unfold State.setStream
  exact State.modSvc_sameButServices ..

theorem State.readHost_sameButServices (s : State) (fn addr len : Nat) (use : ReadUse) :
    SameButServices s (State.readHost s fn addr len use) := by
  unfold State.readHost
  extract_lets k0
  clear_value k0
  split
  · refine SameButServices.trans ?_ (State.send_sameButServices ..)
    exact State.modHost_sameButServices ..
  · exact State.modHost_sameButServices ..

theorem State.readLevel_sameButServices (s : State) (w : Walk) : SameButServices s (State.readLevel s w) := by
  unfold State.readLevel
  refine SameButServices.trans ?_ (State.readHost_sameButServices ..)
  exact State.modHost_sameButServices ..

theorem State.translate_sameButServicesFst (s : State) (id t : Nat) (use : WalkUse) (done : List (Nat × Part)) (l :
    List Part) :
    SameButServices s (State.translate s id t use done l).1 := by
  induction l generalizing s id t use done
  · unfold State.translate
    dsimp only
    exact SameButServices.refl _
  · rename_i x r ih
    unfold State.translate
    extract_lets k0 u0 u1
    clear_value k0
    have hu0 : SameButServices s u0 := by
      dsimp only [u0]
      exact State.cnt_sameButServices ..
    clear_value u0
    have hu1 : SameButServices s u1 := by
      dsimp only [u1]
      exact State.cnt_sameButServices ..
    clear_value u1
    split
    · extract_lets k1
      clear_value k1
      split
      · dsimp only
        refine SameButServices.trans ?_ (State.cnt_sameButServices ..)
        assumption
      · refine SameButServices.trans ?_ (ih ..)
        assumption
    · split
      · dsimp only
        refine SameButServices.trans ?_ (State.cnt_sameButServices ..)
        assumption
      · split
        · dsimp only
          refine SameButServices.trans ?_ (State.cnt_sameButServices ..)
          assumption
        · dsimp only
          refine SameButServices.trans ?_ (State.readLevel_sameButServices ..)
          assumption

theorem State.modQueue_sameButServices (s : State) (n q : Nat) (f : Queue → Queue) :
    SameButServices s (State.modQueue s n q f) := by
  unfold State.modQueue
  refine SameButServices.mk ?_
  exact SameButServices.refl _

theorem State.createStream_sameButServicesFst (s : State) (cls t : Nat) (host : Option HostCmd) (inputs : List Byte) :
    SameButServices s (State.createStream s cls t host inputs).1 := by
  unfold State.createStream
  extract_lets k0
  clear_value k0
  dsimp only
  refine SameButServices.trans ?_ (State.setStream_sameButServices ..)
  exact State.draw_sameButServices ..

theorem State.setSlot_sameButServices (s : State) (fn i : Nat) (x : ResultSlot) :
    SameButServices s (State.setSlot s fn i x) := by
  unfold State.setSlot
  exact State.modFn_sameButServices ..

theorem State.bindSlot_sameButServicesFst (s : State) (fn i stream : Nat) :
    SameButServices s (State.bindSlot s fn i stream).1 := by
  unfold State.bindSlot
  extract_lets k0 k1
  clear_value k0 k1
  dsimp only
  refine SameButServices.trans ?_ (State.cnt_sameButServices ..)
  exact State.setSlot_sameButServices ..

theorem State.fetch_sameButServices (s : State) (fn q : Nat) : SameButServices s (State.fetch s fn q) := by
  unfold State.fetch
  extract_lets k0
  clear_value k0
  split
  · refine SameButServices.trans ?_ (State.readHost_sameButServices ..)
    exact State.modQueue_sameButServices ..
  · exact SameButServices.refl _

theorem State.ringMessage_sameButServices (s : State) (fn r tick : Nat) :
    SameButServices s (State.ringMessage s fn r tick) := by
  unfold State.ringMessage
  extract_lets k0
  clear_value k0
  split
  · exact SameButServices.refl _
  · split
    · exact State.msix_sameButServices ..
    · split
      · exact SameButServices.refl _
      · refine SameButServices.trans ?_ (State.msix_sameButServices ..)
        exact State.modQueue_sameButServices ..

theorem State.writeEntry_sameButServices (s : State) (fn r : Nat) (e : RingEntry) :
    SameButServices s (State.writeEntry s fn r e) := by
  unfold State.writeEntry
  extract_lets k0 k1 u0
  clear_value k0 k1
  have hu0 : SameButServices s u0 := by
    dsimp only [u0]
    exact State.toHost_sameButServices ..
  clear_value u0
  refine SameButServices.trans ?_ (State.ringMessage_sameButServices ..)
  refine SameButServices.trans ?_ (State.modQueue_sameButServices ..)
  assumption

theorem State.drainRing_sameButServices (s : State) (fn r : Nat) (l : List RingEntry) :
    SameButServices s (State.drainRing s fn r l) := by
  induction l generalizing s fn r
  · unfold State.drainRing
    exact SameButServices.refl _
  · rename_i x r ih
    unfold State.drainRing
    split
    · exact SameButServices.refl _
    · refine SameButServices.trans ?_ (ih ..)
      refine SameButServices.trans ?_ (State.writeEntry_sameButServices ..)
      exact State.modQueue_sameButServices ..

theorem State.serveRing_sameButServices (s : State) (fn r : Nat) : SameButServices s (State.serveRing s fn r) := by
  unfold State.serveRing
  split
  · exact SameButServices.refl _
  · exact State.drainRing_sameButServices ..

theorem State.complete_sameButServices (s : State) (fn r : Nat) (e : RingEntry) :
    SameButServices s (State.complete s fn r e) := by
  unfold State.complete
  refine SameButServices.trans ?_ (State.serveRing_sameButServices ..)
  exact State.modQueue_sameButServices ..

theorem State.streamRefused_sameButServices (s : State) (pg : PageType) (i src tenant refusal : Nat) :
    SameButServices s (State.streamRefused s pg i src tenant refusal) := by
  unfold State.streamRefused
  split
  · exact State.violate_sameButServices ..
  · exact SameButServices.refl _

theorem State.refuse_sameButServices (s : State) (fn q : Nat) (e : List Byte) (status detail : Nat) :
    SameButServices s (State.refuse s fn q e status detail) := by
  unfold State.refuse
  extract_lets k0
  clear_value k0
  refine SameButServices.trans ?_ (State.complete_sameButServices ..)
  refine SameButServices.trans ?_ (State.cnt_sameButServices ..)
  exact State.streamRefused_sameButServices ..

theorem State.arrive_sameButServices (s : State) (l : List Unit_) : SameButServices s (State.arrive s l) := by
  unfold State.arrive
  exact State.modSvc_sameButServices ..

theorem State.acceptSubmit_sameButServices (s : State) (fn q : Nat) (j : Submit) :
    SameButServices s (State.acceptSubmit s fn q j) := by
  unfold State.acceptSubmit
  extract_lets k0 u0 k1 k2 k3 k4 k5 k6 k7 u1 k8
  clear_value k0 k1 k2 k3 k4 k6 k8
  have hu0 : SameButServices s u0 := by
    dsimp only [u0]
    exact State.modQueue_sameButServices ..
  clear_value u0
  have hk5 : SameButServices s k5.1 := by
    dsimp only [k5]
    refine SameButServices.trans ?_ (State.createStream_sameButServicesFst ..)
    assumption
  clear_value k5
  have hk7 : SameButServices s k7.1 := by
    dsimp only [k7]
    refine SameButServices.trans ?_ (State.bindSlot_sameButServicesFst ..)
    assumption
  clear_value k7
  have hu1 : SameButServices s u1 := by
    dsimp only [u1]
    split
    · refine SameButServices.trans ?_ (State.setStream_sameButServices ..)
      assumption
    · assumption
  clear_value u1
  split
  · refine SameButServices.trans ?_ (State.fetch_sameButServices ..)
    refine SameButServices.trans ?_ (State.refuse_sameButServices ..)
    assumption
  · refine SameButServices.trans ?_ (State.fetch_sameButServices ..)
    refine SameButServices.trans ?_ (State.arrive_sameButServices ..)
    assumption

theorem State.submitWalked_sameButServices (s : State) (fn q : Nat) (l : List (Nat × Part)) :
    SameButServices s (State.submitWalked s fn q l) := by
  unfold State.submitWalked
  split
  · exact SameButServices.refl _
  · extract_lets k0 k1
    clear_value k0 k1
    split
    · exact State.acceptSubmit_sameButServices ..
    · refine SameButServices.each ?_ (fun t x => ?_)
      · exact State.modQueue_sameButServices ..
      · exact State.readHost_sameButServices ..

theorem State.writeHost_sameButServices (s : State) (fn : Nat) (trans : Option (Nat × Nat)) (relaxed : Bool) (a :
    Nat) (d : List Byte) :
    SameButServices s (State.writeHost s fn trans relaxed a d) := by
  unfold State.writeHost
  refine SameButServices.each ?_ (fun t x => ?_)
  · exact SameButServices.refl _
  · exact State.toHost_sameButServices ..

theorem State.publishSlot_sameButServices (s : State) (h : HostCmd) (id : Nat) (x : Stream) :
    SameButServices s (State.publishSlot s h id x) := by
  unfold State.publishSlot
  split
  · extract_lets k0
    clear_value k0
    refine SameButServices.trans ?_ (State.cnt_sameButServices ..)
    exact State.setSlot_sameButServices ..
  · exact State.setSlot_sameButServices ..

theorem State.releaseEnd_sameButServices (s : State) (id : Nat) (x : Stream) (h : HostCmd) (status detail written :
    Nat) :
    SameButServices s (State.releaseEnd s id x h status detail written) := by
  unfold State.releaseEnd
  extract_lets u0 u1
  have hu0 : SameButServices s u0 := by
    dsimp only [u0]
    split
    · exact State.publishSlot_sameButServices ..
    · exact SameButServices.refl _
  clear_value u0
  have hu1 : SameButServices s u1 := by
    dsimp only [u1]
    refine SameButServices.trans ?_ (State.setStream_sameButServices ..)
    assumption
  clear_value u1
  refine SameButServices.trans ?_ (State.complete_sameButServices ..)
  assumption

theorem State.outputWalked_sameButServices (s : State) (id : Nat) (l : List (Nat × Part)) :
    SameButServices s (State.outputWalked s id l) := by
  unfold State.outputWalked
  split
  · exact SameButServices.refl _
  · split
    · exact SameButServices.refl _
    · extract_lets k0 u0
      clear_value k0
      have hu0 : SameButServices s u0 := by
        dsimp only [u0]
        refine SameButServices.each ?_ (fun t x => ?_)
        · exact SameButServices.refl _
        · exact State.writeHost_sameButServices ..
      clear_value u0
      refine SameButServices.trans ?_ (State.releaseEnd_sameButServices ..)
      assumption

theorem State.modFab_sameButServices (s : State) (f : Fabric → Fabric) : SameButServices s (State.modFab s f) := by
  unfold State.modFab
  refine SameButServices.mk ?_
  exact SameButServices.refl _

theorem State.modPort_sameButServices (s : State) (p : Nat) (f : Port → Port) :
    SameButServices s (State.modPort s p f) := by
  unfold State.modPort
  refine SameButServices.mk ?_
  exact SameButServices.refl _

theorem State.release_sameButServices (s : State) (p pool n : Nat) : SameButServices s (State.release s p pool n)
    := by
  unfold State.release
  exact State.modPort_sameButServices ..

theorem State.freeUnits_sameButServices (s : State) (p : Nat) (f : RFrame) :
    SameButServices s (State.freeUnits s p f) := by
  unfold State.freeUnits
  split
  · exact SameButServices.refl _
  · exact State.release_sameButServices ..

theorem State.modSeq_sameButServices (s : State) (p cls : Nat) (f : ClassSeq → ClassSeq) :
    SameButServices s (State.modSeq s p cls f) := by
  unfold State.modSeq
  exact State.modPort_sameButServices ..

theorem State.transmit_sameButServices (s : State) (p : Nat) (f : Frame) :
    SameButServices s (State.transmit s p f) := by
  unfold State.transmit
  split
  · exact State.send_sameButServices ..
  · exact SameButServices.refl _

theorem State.spend_sameButServices (s : State) (p pool n : Nat) : SameButServices s (State.spend s p pool n) := by
  unfold State.spend
  exact State.modPort_sameButServices ..

theorem State.sendNow_sameButServices (s : State) (p : Nat) (c : Content) :
    SameButServices s (State.sendNow s p c) := by
  unfold State.sendNow
  extract_lets k0 u0
  clear_value k0
  have hu0 : SameButServices s u0 := by
    dsimp only [u0]
    exact State.modSeq_sameButServices ..
  clear_value u0
  refine SameButServices.trans ?_ (State.transmit_sameButServices ..)
  refine SameButServices.when ?_ (fun t => ?_)
  · assumption
  · exact State.spend_sameButServices ..

theorem State.sendOn_sameButServices (s : State) (p : Nat) (c : Content) : SameButServices s (State.sendOn s p c)
    := by
  unfold State.sendOn
  split
  · exact SameButServices.refl _
  · split
    · exact State.sendNow_sameButServices ..
    · exact State.modSeq_sameButServices ..

theorem State.pumpList_sameButServicesFst (s : State) (p : Nat) (l : List (Nat × RFrame)) (blocked : List Nat) :
    SameButServices s (State.pumpList s p l blocked).1 := by
  induction l generalizing s p blocked
  · unfold State.pumpList
    dsimp only
    exact SameButServices.refl _
  · rename_i x r ih
    unfold State.pumpList
    extract_lets k0 k1
    clear_value k0
    split
    · dsimp only
      dsimp only [k1]
      exact ih ..
    · refine SameButServices.trans ?_ (ih ..)
      refine SameButServices.trans ?_ (State.freeUnits_sameButServices ..)
      refine SameButServices.trans ?_ (State.sendOn_sameButServices ..)
      exact State.spend_sameButServices ..

theorem State.pumpPort_sameButServices (s : State) (p : Nat) : SameButServices s (State.pumpPort s p) := by
  unfold State.pumpPort
  split
  · exact SameButServices.refl _
  · extract_lets k0
    have hk0 : SameButServices s k0.1 := by
      dsimp only [k0]
      exact State.pumpList_sameButServicesFst ..
    clear_value k0
    refine SameButServices.trans ?_ (State.modPort_sameButServices ..)
    assumption

theorem State.enqueue_sameButServices (s : State) (inp p : Nat) (f : RFrame) :
    SameButServices s (State.enqueue s inp p f) := by
  unfold State.enqueue
  refine SameButServices.trans ?_ (State.pumpPort_sameButServices ..)
  exact State.modPort_sameButServices ..

theorem State.forward_sameButServicesFst (s : State) (inp : Nat) (f : RFrame) :
    SameButServices s (State.forward s inp f).1 := by
  unfold State.forward
  extract_lets k0 u0
  clear_value k0
  have hu0 : SameButServices s u0 := by
    dsimp only [u0]
    split
    · exact State.cnt_sameButServices ..
    · exact SameButServices.refl _
  clear_value u0
  split
  · dsimp only
    refine SameButServices.trans ?_ (State.enqueue_sameButServices ..)
    assumption
  · dsimp only
    refine SameButServices.trans ?_ (State.freeUnits_sameButServices ..)
    refine SameButServices.trans ?_ (State.cnt_sameButServices ..)
    assumption
  · dsimp only
    refine SameButServices.trans ?_ (State.freeUnits_sameButServices ..)
    refine SameButServices.trans ?_ (State.cnt_sameButServices ..)
    assumption

theorem State.respond_sameButServices (s : State) (mgmt : Bool) (h : RHead) (b : Access) (status nack : Nat) (data
    : List Byte) :
    SameButServices s (State.respond s mgmt h b status nack data) := by
  unfold State.respond
  extract_lets k0
  clear_value k0
  split
  · exact State.modFab_sameButServices ..
  · exact State.forward_sameButServicesFst ..

theorem State.windowWrite_sameButServices (s : State) (k : Kind3) (l : List (Nat × Part)) (data old : List Byte) :
    SameButServices s (State.windowWrite s k l data old) := by
  unfold State.windowWrite
  extract_lets k0 k1
  clear_value k0
  split
  · dsimp only [k1]
    split
    · refine SameButServices.trans ?_ (State.tickFault_sameButServices ..)
      exact State.violate_sameButServices ..
    · refine SameButServices.trans ?_ (State.respond_sameButServices ..)
      refine SameButServices.trans ?_ (State.tickFault_sameButServices ..)
      exact State.violate_sameButServices ..
  · split
    · dsimp only [k1]
      split
      · exact State.modSvc_sameButServices ..
      · refine SameButServices.trans ?_ (State.respond_sameButServices ..)
        exact State.modSvc_sameButServices ..
    · dsimp only [k1]
      split
      · refine SameButServices.each ?_ (fun t x => ?_)
        · exact SameButServices.refl _
        · exact State.writeHost_sameButServices ..
      · refine SameButServices.trans ?_ (State.respond_sameButServices ..)
        refine SameButServices.each ?_ (fun t x => ?_)
        · exact SameButServices.refl _
        · exact State.writeHost_sameButServices ..

theorem State.dropKind3_sameButServices (s : State) (id : Nat) : SameButServices s (State.dropKind3 s id) := by
  unfold State.dropKind3
  exact State.modHost_sameButServices ..

theorem State.kind3Walked_sameButServices (s : State) (id : Nat) (l : List (Nat × Part)) :
    SameButServices s (State.kind3Walked s id l) := by
  unfold State.kind3Walked
  split
  · exact SameButServices.refl _
  · split
    · refine SameButServices.trans ?_ (State.windowWrite_sameButServices ..)
      exact State.dropKind3_sameButServices ..
    · refine SameButServices.each ?_ (fun t x => ?_)
      · exact State.modHost_sameButServices ..
      · exact State.readHost_sameButServices ..

theorem State.walkViolation_sameButServices (s : State) (fn src code off : Nat) :
    SameButServices s (State.walkViolation s fn src code off) := by
  unfold State.walkViolation
  exact State.violate_sameButServices ..

theorem State.event_sameButServices (s : State) (p : PageType) (i n : Nat) :
    SameButServices s (State.event s p i n) := by
  unfold State.event
  exact State.irq_sameButServices ..

theorem State.stopQueue_sameButServices (s : State) (fn q status : Nat) :
    SameButServices s (State.stopQueue s fn q status) := by
  unfold State.stopQueue
  refine SameButServices.trans ?_ (State.event_sameButServices ..)
  exact State.modQueue_sameButServices ..

theorem State.queueFault_sameButServices (s : State) (fn q code level entry off : Nat) :
    SameButServices s (State.queueFault s fn q code level entry off) := by
  unfold State.queueFault
  refine SameButServices.trans ?_ (State.stopQueue_sameButServices ..)
  exact State.modQueue_sameButServices ..

theorem State.outputFault_sameButServices (s : State) (id code level entry off : Nat) :
    SameButServices s (State.outputFault s id code level entry off) := by
  unfold State.outputFault
  split
  · exact SameButServices.refl _
  · split
    · exact SameButServices.refl _
    · refine SameButServices.trans ?_ (State.releaseEnd_sameButServices ..)
      refine SameButServices.trans ?_ (State.walkViolation_sameButServices ..)
      exact State.queueFault_sameButServices ..

theorem State.nack_sameButServices (s : State) (port : Nat) (h : RHead) (b : Access) (code : Nat) :
    SameButServices s (State.nack s port h b code) := by
  unfold State.nack
  split
  · exact State.cnt_sameButServices ..
  · refine SameButServices.trans ?_ (State.respond_sameButServices ..)
    exact State.cnt_sameButServices ..

theorem State.kind3Refused_sameButServices (s : State) (id : Nat) : SameButServices s (State.kind3Refused s id) := by
  unfold State.kind3Refused
  split
  · exact SameButServices.refl _
  · refine SameButServices.trans ?_ (State.nack_sameButServices ..)
    exact State.dropKind3_sameButServices ..

theorem State.modLoad_sameButServices (s : State) (f : Load → Load) : SameButServices s (State.modLoad s f) := by
  unfold State.modLoad
  refine SameButServices.mk ?_
  exact SameButServices.refl _

theorem State.walkEnd_sameButServices (s : State) (t : Nat) (use : WalkUse) (e : WalkEnd) :
    SameButServices s (State.walkEnd s t use e) := by
  unfold State.walkEnd
  split
  · exact SameButServices.refl _
  · split
    · exact State.submitWalked_sameButServices ..
    · exact State.outputWalked_sameButServices ..
    · exact State.kind3Walked_sameButServices ..
    · refine SameButServices.each ?_ (fun t x => ?_)
      · exact SameButServices.refl _
      · exact State.readHost_sameButServices ..
  · split
    · split
      · exact SameButServices.refl _
      · refine SameButServices.trans ?_ (State.refuse_sameButServices ..)
        refine SameButServices.trans ?_ (State.walkViolation_sameButServices ..)
        refine SameButServices.trans ?_ (State.queueFault_sameButServices ..)
        exact State.modQueue_sameButServices ..
    · exact State.outputFault_sameButServices ..
    · refine SameButServices.trans ?_ (State.kind3Refused_sameButServices ..)
      exact State.walkViolation_sameButServices ..
    · refine SameButServices.trans ?_ (State.modLoad_sameButServices ..)
      refine SameButServices.trans ?_ (State.cnt_sameButServices ..)
      exact State.walkViolation_sameButServices ..

theorem State.walk_sameButServices (s : State) (t : Nat) (use : WalkUse) (l : List Part) :
    SameButServices s (State.walk s t use l) := by
  unfold State.walk
  extract_lets k0 k1
  clear_value k0
  have hk1 : SameButServices s k1.1 := by
    dsimp only [k1]
    refine SameButServices.trans ?_ (State.translate_sameButServicesFst ..)
    exact State.modHost_sameButServices ..
  clear_value k1
  refine SameButServices.trans ?_ (State.walkEnd_sameButServices ..)
  assumption

theorem State.pubDatagram_sameButServices (s : State) (d : Nat) (rec1 : List Byte) :
    SameButServices s (State.pubDatagram s d rec1) := by
  unfold State.pubDatagram
  extract_lets k0 k1
  clear_value k0 k1
  split
  · exact State.send_sameButServices ..
  · exact State.cnt_sameButServices ..

theorem State.pubDrain_sameButServices (s : State) (l : List (List Byte)) :
    SameButServices s (State.pubDrain s l) := by
  induction l generalizing s
  · unfold State.pubDrain
    exact SameButServices.refl _
  · rename_i r r ih
    unfold State.pubDrain
    split
    · exact SameButServices.refl _
    · extract_lets k0 k1 k2 u0
      clear_value k0 k1 k2
      have hu0 : SameButServices s u0 := by
        dsimp only [u0]
        refine SameButServices.trans ?_ (State.writeHost_sameButServices ..)
        exact State.writeHost_sameButServices ..
      clear_value u0
      refine SameButServices.trans ?_ (ih ..)
      refine SameButServices.trans ?_ (State.modSvc_sameButServices ..)
      assumption

theorem State.publish_sameButServices (s : State) (id : Nat) (x : Stream) :
    SameButServices s (State.publish s id x) := by
  unfold State.publish
  split
  · exact State.freeId_sameButServices ..
  · extract_lets k0 u0 u1 u2
    clear_value k0
    have hu0 : SameButServices s u0 := by
      dsimp only [u0]
      refine SameButServices.when ?_ (fun t => ?_)
      · exact State.cnt_sameButServices ..
      · exact State.pubDatagram_sameButServices ..
    clear_value u0
    have hu1 : SameButServices s u1 := by
      dsimp only [u1]
      refine SameButServices.trans ?_ (State.modSvc_sameButServices ..)
      assumption
    clear_value u1
    have hu2 : SameButServices s u2 := by
      dsimp only [u2]
      split
      · refine SameButServices.trans ?_ (State.pubDrain_sameButServices ..)
        assumption
      · assumption
    clear_value u2
    refine SameButServices.trans ?_ (State.freeId_sameButServices ..)
    assumption

theorem execDigestComplete_sameButServicesRes (stream : Fin 65536) (s : State) :
    SameButServicesRes s (execDigestComplete stream s) := by
  unfold execDigestComplete
  refine SameButServicesRes.next ?_
  split
  · exact SameButServices.refl _
  · split
    · exact SameButServices.refl _
    · extract_lets u0
      have hu0 : SameButServices s u0 := by
        dsimp only [u0]
        refine SameButServices.trans ?_ (State.setStream_sameButServices ..)
        exact State.cnt_sameButServices ..
      clear_value u0
      split
      · split
        · refine SameButServices.trans ?_ (State.walk_sameButServices ..)
          assumption
        · refine SameButServices.trans ?_ (State.releaseEnd_sameButServices ..)
          assumption
      · split
        · refine SameButServices.trans ?_ (State.publish_sameButServices ..)
          assumption
        · refine SameButServices.trans ?_ (State.freeId_sameButServices ..)
          assumption

theorem State.modTime_sameButServices (s : State) (f : TimeUnit → TimeUnit) :
    SameButServices s (State.modTime s f) := by
  unfold State.modTime
  refine SameButServices.mk ?_
  exact SameButServices.refl _

theorem State.note_sameButServices (s : State) (kind detail tenant : Nat) (body : List Byte) :
    SameButServices s (State.note s kind detail tenant body) := by
  unfold State.note
  exact State.modSvc_sameButServices ..

theorem State.applyNotice_sameButServices (s : State) (n : Notice) : SameButServices s (State.applyNotice s n) := by
  unfold State.applyNotice
  extract_lets u0 u1 u2 u3
  have hu0 : SameButServices s u0 := by
    dsimp only [u0]
    refine SameButServices.when ?_ (fun t => ?_)
    · exact SameButServices.refl _
    · exact State.cnt_sameButServices ..
  clear_value u0
  have hu1 : SameButServices s u1 := by
    dsimp only [u1]
    refine SameButServices.when ?_ (fun t => ?_)
    · assumption
    · exact State.event_sameButServices ..
  clear_value u1
  have hu2 : SameButServices s u2 := by
    dsimp only [u2]
    refine SameButServices.trans ?_ (State.modTime_sameButServices ..)
    assumption
  clear_value u2
  have hu3 : SameButServices s u3 := by
    dsimp only [u3]
    refine SameButServices.when ?_ (fun t => ?_)
    · assumption
    · exact State.event_sameButServices ..
  clear_value u3
  refine SameButServices.trans ?_ (State.note_sameButServices ..)
  assumption

theorem execNoticeApply_sameButServicesRes (s : State) : SameButServicesRes s (execNoticeApply s) := by
  unfold execNoticeApply
  refine SameButServicesRes.next ?_
  split
  · extract_lets k0
    clear_value k0
    refine SameButServices.trans ?_ (State.modTime_sameButServices ..)
    refine SameButServices.each ?_ (fun t x => ?_)
    · exact SameButServices.refl _
    · exact State.applyNotice_sameButServices ..
  · exact SameButServices.refl _

theorem State.tellAll_sameButServices (s : State) (off v : Nat) : SameButServices s (State.tellAll s off v) := by
  unfold State.tellAll
  refine SameButServices.each ?_ (fun t x => ?_)
  · exact SameButServices.refl _
  · exact State.modFab_sameButServices ..

theorem State.announce_sameButServices (s : State) (event : Nat) (slew : Bool) :
    SameButServices s (State.announce s event slew) := by
  unfold State.announce
  split
  · exact SameButServices.refl _
  · extract_lets k0 k1
    clear_value k0 k1
    refine SameButServices.trans ?_ (State.modTime_sameButServices ..)
    exact State.tellAll_sameButServices ..

theorem execAnchor_sameButServicesRes (s : State) : SameButServicesRes s (execAnchor s) := by
  unfold execAnchor
  refine SameButServicesRes.next ?_
  split
  · refine SameButServices.trans ?_ (State.announce_sameButServices ..)
    exact State.modTime_sameButServices ..
  · exact SameButServices.refl _

theorem State.timeState_sameButServices (s : State) (x : TimeState) : SameButServices s (State.timeState s x) := by
  unfold State.timeState
  split
  · exact SameButServices.refl _
  · refine SameButServices.trans ?_ (State.announce_sameButServices ..)
    refine SameButServices.trans ?_ (State.event_sameButServices ..)
    exact State.modTime_sameButServices ..

theorem State.checkQuality_sameButServices (s : State) : SameButServices s (State.checkQuality s) := by
  unfold State.checkQuality
  split
  · exact State.announce_sameButServices ..
  · exact SameButServices.refl _

theorem State.reselect_sameButServices (s : State) : SameButServices s (State.reselect s) := by
  unfold State.reselect
  extract_lets k0 k1 u0 k2 u1 u2 u3
  clear_value k0 k1 k2
  have hu0 : SameButServices s u0 := by
    dsimp only [u0]
    exact State.modTime_sameButServices ..
  clear_value u0
  have hu1 : SameButServices s u1 := by
    dsimp only [u1]
    refine SameButServices.trans ?_ (State.modTime_sameButServices ..)
    assumption
  clear_value u1
  have hu2 : SameButServices s u2 := by
    dsimp only [u2]
    refine SameButServices.trans ?_ (State.timeState_sameButServices ..)
    assumption
  clear_value u2
  have hu3 : SameButServices s u3 := by
    dsimp only [u3]
    split
    · refine SameButServices.trans ?_ (State.timeState_sameButServices ..)
      refine SameButServices.trans ?_ (State.modTime_sameButServices ..)
      assumption
    · split
      · split
        · refine SameButServices.trans ?_ (State.timeState_sameButServices ..)
          refine SameButServices.trans ?_ (State.modTime_sameButServices ..)
          assumption
        · assumption
      · split
        · split
          · assumption
          · refine SameButServices.trans ?_ (State.timeState_sameButServices ..)
            refine SameButServices.trans ?_ (State.modTime_sameButServices ..)
            assumption
        · split
          · refine SameButServices.trans ?_ (State.timeState_sameButServices ..)
            assumption
          · assumption
  clear_value u3
  refine SameButServices.trans ?_ (State.checkQuality_sameButServices ..)
  split
  · refine SameButServices.trans ?_ (State.announce_sameButServices ..)
    assumption
  · assumption

theorem State.loseSource_sameButServices (s : State) (n : Nat) : SameButServices s (State.loseSource s n) := by
  unfold State.loseSource
  split
  · refine SameButServices.trans ?_ (State.reselect_sameButServices ..)
    refine SameButServices.trans ?_ (State.modTime_sameButServices ..)
    exact State.cnt_sameButServices ..
  · exact SameButServices.refl _

theorem execReferenceLoss_sameButServicesRes (src : TimeSource) (s : State) :
    SameButServicesRes s (execReferenceLoss src s) := by
  unfold execReferenceLoss
  refine SameButServicesRes.next ?_
  split
  · exact State.loseSource_sameButServices ..
  · exact SameButServices.refl _

theorem execQualificationComplete_sameButServicesRes (src : TimeSource) (s : State) :
    SameButServicesRes s (execQualificationComplete src s) := by
  unfold execQualificationComplete
  extract_lets k0
  clear_value k0
  refine SameButServicesRes.next ?_
  split
  · refine SameButServices.trans ?_ (State.reselect_sameButServices ..)
    exact State.modTime_sameButServices ..
  · exact SameButServices.refl _

theorem State.setTai_sameButServices (s : State) (x : Int) : SameButServices s (State.setTai s x) := by
  unfold State.setTai
  exact State.modTime_sameButServices ..

theorem State.measured_sameButServices (s : State) (θ : Int) : SameButServices s (State.measured s θ) := by
  unfold State.measured
  extract_lets u0 u1 u2
  have hu0 : SameButServices s u0 := by
    dsimp only [u0]
    refine SameButServices.trans ?_ (State.modTime_sameButServices ..)
    exact State.wr_sameButServices ..
  clear_value u0
  have hu1 : SameButServices s u1 := by
    dsimp only [u1]
    refine SameButServices.trans ?_ (State.modTime_sameButServices ..)
    assumption
  clear_value u1
  have hu2 : SameButServices s u2 := by
    dsimp only [u2]
    refine SameButServices.trans ?_ (State.modTime_sameButServices ..)
    assumption
  clear_value u2
  split
  · split
    · refine SameButServices.trans ?_ (State.modTime_sameButServices ..)
      refine SameButServices.trans ?_ (State.setTai_sameButServices ..)
      assumption
    · split
      · assumption
      · refine SameButServices.trans ?_ (State.announce_sameButServices ..)
        assumption
  · split
    · assumption
    · split
      · assumption
      · refine SameButServices.trans ?_ (State.announce_sameButServices ..)
        assumption

theorem State.startQualifying_sameButServices (s : State) (n : Nat) :
    SameButServices s (State.startQualifying s n) := by
  unfold State.startQualifying
  split
  · exact SameButServices.refl _
  · refine SameButServices.trans ?_ (State.reselect_sameButServices ..)
    exact State.modTime_sameButServices ..

theorem execPpsEdge_sameButServicesRes (s : State) : SameButServicesRes s (execPpsEdge s) := by
  unfold execPpsEdge
  extract_lets k0 k1 k2 u0 k3 u1
  clear_value k0 k1 k2 k3
  have hu0 : SameButServices s u0 := by
    dsimp only [u0]
    exact State.wr_sameButServices ..
  clear_value u0
  have hu1 : SameButServices s u1 := by
    dsimp only [u1]
    refine SameButServices.trans ?_ (State.modTime_sameButServices ..)
    refine SameButServices.when ?_ (fun t => ?_)
    · assumption
    · exact State.cnt_sameButServices ..
  clear_value u1
  refine SameButServicesRes.next ?_
  split
  · assumption
  · split
    · refine SameButServices.trans ?_ (State.measured_sameButServices ..)
      assumption
    · split
      · refine SameButServices.trans ?_ (State.startQualifying_sameButServices ..)
        assumption
      · assumption

theorem execPtpMessage_sameButServicesRes (port : Fin 16) (m : PtpFrame) (s : State) :
    SameButServicesRes s (execPtpMessage port m s) := by
  unfold execPtpMessage
  extract_lets k0 k1 k2 k3 k4 k5
  clear_value k0 k1 k2 k3 k4 k5
  refine SameButServicesRes.next ?_
  split
  · exact State.cnt_sameButServices ..
  · split
    · exact SameButServices.refl _
    · split
      · split
        · exact SameButServices.refl _
        · split
          · refine SameButServices.trans ?_ (State.loseSource_sameButServices ..)
            exact State.modTime_sameButServices ..
          · refine SameButServices.trans ?_ (State.startQualifying_sameButServices ..)
            exact State.modTime_sameButServices ..
      · split
        · exact SameButServices.refl _
        · split
          · exact State.loseSource_sameButServices ..
          · split
            · exact State.measured_sameButServices ..
            · exact State.startQualifying_sameButServices ..
      · split
        · exact SameButServices.refl _
        · exact State.modTime_sameButServices ..

theorem State.dacStep_sameButServices (s : State) (d : Int) : SameButServices s (State.dacStep s d) := by
  unfold State.dacStep
  extract_lets k0 k1 k2 k3 k4 k5 u0
  clear_value k0 k1 k2 k3 k4 k5
  have hu0 : SameButServices s u0 := by
    dsimp only [u0]
    split
    · exact State.draw_sameButServices ..
    · exact SameButServices.refl _
  clear_value u0
  split
  · assumption
  · refine SameButServices.trans ?_ (State.send_sameButServices ..)
    refine SameButServices.trans ?_ (State.wr_sameButServices ..)
    assumption

theorem execLoopUpdate_sameButServicesRes (err : Int) (s : State) : SameButServicesRes s (execLoopUpdate err s) := by
  unfold execLoopUpdate
  refine SameButServicesRes.next ?_
  split
  · exact SameButServices.refl _
  · extract_lets k0 u0
    clear_value k0
    have hu0 : SameButServices s u0 := by
      dsimp only [u0]
      exact State.modTime_sameButServices ..
    clear_value u0
    split
    · refine SameButServices.trans ?_ (State.dacStep_sameButServices ..)
      assumption
    · assumption

theorem execHoldoverLimit_sameButServicesRes (s : State) : SameButServicesRes s (execHoldoverLimit s) := by
  unfold execHoldoverLimit
  extract_lets k0
  clear_value k0
  refine SameButServicesRes.next ?_
  split
  · refine SameButServices.trans ?_ (State.checkQuality_sameButServices ..)
    refine SameButServices.trans ?_ (State.timeState_sameButServices ..)
    exact State.modTime_sameButServices ..
  · split
    · refine SameButServices.trans ?_ (State.checkQuality_sameButServices ..)
      refine SameButServices.trans ?_ (State.modTime_sameButServices ..)
      exact State.modTime_sameButServices ..
    · exact SameButServices.refl _

theorem execPpsOutput_sameButServicesRes (s : State) : SameButServicesRes s (execPpsOutput s) := by
  unfold execPpsOutput
  extract_lets k0
  clear_value k0
  refine SameButServicesRes.next ?_
  split
  · exact SameButServices.refl _
  · split
    · split
      · exact State.cnt_sameButServices ..
      · exact State.modTime_sameButServices ..
    · exact State.modTime_sameButServices ..

theorem execPpsOutEnd_sameButServicesRes (s : State) : SameButServicesRes s (execPpsOutEnd s) := by
  unfold execPpsOutEnd
  refine SameButServicesRes.next ?_
  exact State.modTime_sameButServices ..

theorem State.nopDone_sameButServices (s : State) (fn q ring cmdId tick : Nat) :
    SameButServices s (State.nopDone s fn q ring cmdId tick) := by
  unfold State.nopDone
  exact State.complete_sameButServices ..

theorem State.process_sameButServices (s : State) (fn q : Nat) (submit : Bool) :
    SameButServices s (State.process s fn q submit) := by
  unfold State.process
  extract_lets k0 u0
  clear_value k0
  have hu0 : SameButServices s u0 := by
    dsimp only [u0]
    exact State.modQueue_sameButServices ..
  clear_value u0
  split
  · exact SameButServices.refl _
  · split
    · exact SameButServices.refl _
    · extract_lets k1
      clear_value k1
      split
      · refine SameButServices.trans ?_ (State.fetch_sameButServices ..)
        refine SameButServices.trans ?_ (State.refuse_sameButServices ..)
        assumption
      · split
        · refine SameButServices.trans ?_ (State.walk_sameButServices ..)
          refine SameButServices.trans ?_ (State.modQueue_sameButServices ..)
          assumption
        · split
          · refine SameButServices.trans ?_ (State.fetch_sameButServices ..)
            refine SameButServices.trans ?_ (State.modSvc_sameButServices ..)
            assumption
          · refine SameButServices.trans ?_ (State.fetch_sameButServices ..)
            refine SameButServices.trans ?_ (State.nopDone_sameButServices ..)
            assumption

theorem execNop_sameButServicesRes (fn : Fin 256) (q : Fin 64) (s : State) :
    SameButServicesRes s (execNop fn q s) := by
  unfold execNop
  refine SameButServicesRes.next ?_
  exact State.process_sameButServices ..

theorem execSubmit_sameButServicesRes (fn : Fin 256) (q : Fin 64) (s : State) :
    SameButServicesRes s (execSubmit fn q s) := by
  unfold execSubmit
  refine SameButServicesRes.next ?_
  exact State.process_sameButServices ..

theorem execPostedCreditReturn_sameButServicesRes (n : Nat) (s : State) :
    SameButServicesRes s (execPostedCreditReturn n s) := by
  unfold execPostedCreditReturn
  extract_lets u0
  have hu0 : SameButServices s u0 := by
    dsimp only [u0]
    exact State.modHost_sameButServices ..
  clear_value u0
  refine SameButServicesRes.next ?_
  refine SameButServices.each ?_ (fun t x => ?_)
  · assumption
  · exact State.post_sameButServices ..

end Sys2Proof.Machine
end

