-- ==== Sys2Proof/Laws/SameButSpan.lean ====
section
/-!
SUPPORT. The operations and commands that leave what `SameButSpan` names.
-/
namespace Sys2Proof.Machine

theorem State.modTick_sameButSpan (s : State) (f : Tick → Tick) : SameButSpan s (State.modTick s f) := by
  unfold State.modTick
  refine SameButSpan.mk ?_
  exact SameButSpan.refl _

theorem State.sealFault_sameButSpan (s : State) (code : Nat) (u : FaultUnit) :
    SameButSpan s (State.sealFault s code u) := by
  unfold State.sealFault
  extract_lets u0
  have hu0 : SameButSpan s u0 := by
    dsimp only [u0]
    exact State.modTick_sameButSpan ..
  clear_value u0
  split
  · assumption
  · refine SameButSpan.trans ?_ (State.modTick_sameButSpan ..)
    assumption

theorem State.setHdr_sameButSpan (s : State) (pg off v : Nat) : SameButSpan s (State.setHdr s pg off v) := by
  unfold State.setHdr
  refine SameButSpan.mk ?_
  exact SameButSpan.refl _

theorem State.capture_sameButSpan (s : State) (pg : Nat) (v : Viol) (more : Bool) :
    SameButSpan s (State.capture s pg v more) := by
  unfold State.capture
  extract_lets k0
  clear_value k0
  refine SameButSpan.trans ?_ (State.setHdr_sameButSpan ..)
  refine SameButSpan.trans ?_ (State.setHdr_sameButSpan ..)
  refine SameButSpan.trans ?_ (State.setHdr_sameButSpan ..)
  refine SameButSpan.trans ?_ (State.setHdr_sameButSpan ..)
  exact State.setHdr_sameButSpan ..

theorem State.modSvc_sameButSpan (s : State) (f : Service → Service) : SameButSpan s (State.modSvc s f) := by
  unfold State.modSvc
  refine SameButSpan.mk ?_
  exact SameButSpan.refl _

theorem State.freeId_sameButSpan (s : State) (id : Nat) : SameButSpan s (State.freeId s id) := by
  unfold State.freeId
  exact State.modSvc_sameButSpan ..

theorem State.freeOf_sameButSpan (s : State) (o : HostOut) : SameButSpan s (State.freeOf s o) := by
  unfold State.freeOf
  split
  · exact State.freeId_sameButSpan ..
  · exact SameButSpan.refl _

theorem State.modHost_sameButSpan (s : State) (f : HostPort → HostPort) : SameButSpan s (State.modHost s f) := by
  unfold State.modHost
  refine SameButSpan.mk ?_
  exact SameButSpan.refl _

theorem State.send_sameButSpan (s : State) (o : Out) : SameButSpan s (State.send s o) := by
  exact SameButSpan.refl _

theorem State.post_sameButSpan (s : State) (o : HostOut) : SameButSpan s (State.post s o) := by
  unfold State.post
  refine SameButSpan.trans ?_ (State.freeOf_sameButSpan ..)
  exact State.send_sameButSpan ..

theorem State.toHost_sameButSpan (s : State) (o : HostOut) : SameButSpan s (State.toHost s o) := by
  unfold State.toHost
  split
  · exact State.freeOf_sameButSpan ..
  · split
    · exact State.modHost_sameButSpan ..
    · exact State.post_sameButSpan ..

theorem State.modFn_sameButSpan (s : State) (n : Nat) (f : Function → Function) :
    SameButSpan s (State.modFn s n f) := by
  unfold State.modFn
  refine SameButSpan.mk ?_
  exact SameButSpan.refl _

theorem State.msix_sameButSpan (s : State) (fn v : Nat) : SameButSpan s (State.msix s fn v) := by
  unfold State.msix
  split
  · exact State.toHost_sameButSpan ..
  · exact State.modFn_sameButSpan ..

theorem State.routeSend_sameButSpan (s : State) (t : Nat) : SameButSpan s (State.routeSend s t) := by
  unfold State.routeSend
  extract_lets k0
  clear_value k0
  split
  · refine SameButSpan.trans ?_ (State.modHost_sameButSpan ..)
    exact State.msix_sameButSpan ..
  · exact SameButSpan.refl _

theorem State.setIrq_sameButSpan (s : State) (pg off v : Nat) : SameButSpan s (State.setIrq s pg off v) := by
  unfold State.setIrq
  extract_lets u0 k0
  clear_value k0
  have hu0 : SameButSpan s u0 := by
    dsimp only [u0]
    exact State.setHdr_sameButSpan ..
  clear_value u0
  split
  · split
    · refine SameButSpan.trans ?_ (State.msix_sameButSpan ..)
      assumption
    · assumption
  · split
    · extract_lets k1
      clear_value k1
      split
      · refine SameButSpan.trans ?_ (State.routeSend_sameButSpan ..)
        assumption
      · assumption
    · assumption

theorem State.irq_sameButSpan (s : State) (pg m : Nat) : SameButSpan s (State.irq s pg m) := by
  unfold State.irq
  exact State.setIrq_sameButSpan ..

theorem State.violateAll_sameButSpan (s : State) (pg : Nat) (v : Viol) (vs : List Viol) :
    SameButSpan s (State.violateAll s pg v vs) := by
  unfold State.violateAll
  extract_lets k0 u0
  clear_value k0
  have hu0 : SameButSpan s u0 := by
    dsimp only [u0]
    split
    · exact State.setHdr_sameButSpan ..
    · exact State.capture_sameButSpan ..
  clear_value u0
  refine SameButSpan.trans ?_ (State.irq_sameButSpan ..)
  refine SameButSpan.trans ?_ (State.setHdr_sameButSpan ..)
  assumption

theorem State.violate_sameButSpan (s : State) (p : PageType) (i : Nat) (v : Viol) :
    SameButSpan s (State.violate s p i v) := by
  unfold State.violate
  exact State.violateAll_sameButSpan ..

theorem State.modPort_sameButSpan (s : State) (p : Nat) (f : Port → Port) : SameButSpan s (State.modPort s p f) := by
  unfold State.modPort
  refine SameButSpan.mk ?_
  exact SameButSpan.refl _

theorem State.modSeq_sameButSpan (s : State) (p cls : Nat) (f : ClassSeq → ClassSeq) :
    SameButSpan s (State.modSeq s p cls f) := by
  unfold State.modSeq
  exact State.modPort_sameButSpan ..

theorem State.transmit_sameButSpan (s : State) (p : Nat) (f : Frame) : SameButSpan s (State.transmit s p f) := by
  unfold State.transmit
  split
  · exact State.send_sameButSpan ..
  · exact SameButSpan.refl _

theorem State.spend_sameButSpan (s : State) (p pool n : Nat) : SameButSpan s (State.spend s p pool n) := by
  unfold State.spend
  exact State.modPort_sameButSpan ..

theorem State.sendNow_sameButSpan (s : State) (p : Nat) (c : Content) : SameButSpan s (State.sendNow s p c) := by
  unfold State.sendNow
  extract_lets k0 u0
  clear_value k0
  have hu0 : SameButSpan s u0 := by
    dsimp only [u0]
    exact State.modSeq_sameButSpan ..
  clear_value u0
  refine SameButSpan.trans ?_ (State.transmit_sameButSpan ..)
  refine SameButSpan.when ?_ (fun t => ?_)
  · assumption
  · exact State.spend_sameButSpan ..

theorem State.sendOn_sameButSpan (s : State) (p : Nat) (c : Content) : SameButSpan s (State.sendOn s p c) := by
  unfold State.sendOn
  split
  · exact SameButSpan.refl _
  · split
    · exact State.sendNow_sameButSpan ..
    · exact State.modSeq_sameButSpan ..

theorem State.sendVote_sameButSpan (s : State) (p : Nat) (v : Vote) : SameButSpan s (State.sendVote s p v) := by
  unfold State.sendVote
  exact State.sendOn_sameButSpan ..

theorem State.reachVerdict_sameButSpan (s : State) (v : VoteSum) : SameButSpan s (State.reachVerdict s v) := by
  unfold State.reachVerdict
  extract_lets k0 u0
  clear_value k0
  have hu0 : SameButSpan s u0 := by
    dsimp only [u0]
    exact State.modTick_sameButSpan ..
  clear_value u0
  split
  · split
    · refine SameButSpan.trans ?_ (State.sendVote_sameButSpan ..)
      assumption
    · assumption
  · assumption

theorem State.sendUp_sameButSpan (s : State) : SameButSpan s (State.sendUp s) := by
  unfold State.sendUp
  extract_lets k0 u0
  clear_value k0
  have hu0 : SameButSpan s u0 := by
    dsimp only [u0]
    exact State.modTick_sameButSpan ..
  clear_value u0
  split
  · refine SameButSpan.trans ?_ (State.reachVerdict_sameButSpan ..)
    assumption
  · refine SameButSpan.trans ?_ (State.sendVote_sameButSpan ..)
    assumption

theorem State.countFails_sameButSpan (s : State) (l : List TickFault) : SameButSpan s (State.countFails s l) := by
  unfold State.countFails
  exact State.modTick_sameButSpan ..

theorem State.voteDeadline_sameButSpan (s : State) : SameButSpan s (State.voteDeadline s) := by
  unfold State.voteDeadline
  split
  · exact SameButSpan.refl _
  · extract_lets k0 u0
    clear_value k0
    have hu0 : SameButSpan s u0 := by
      dsimp only [u0]
      refine SameButSpan.each ?_ (fun t x => ?_)
      · exact SameButSpan.refl _
      · refine SameButSpan.trans ?_ (State.sealFault_sameButSpan ..)
        exact State.violate_sameButSpan ..
    clear_value u0
    refine SameButSpan.trans ?_ (State.sendUp_sameButSpan ..)
    refine SameButSpan.trans ?_ (State.modTick_sameButSpan ..)
    refine SameButSpan.trans ?_ (State.countFails_sameButSpan ..)
    assumption

theorem State.note_sameButSpan (s : State) (kind detail tenant : Nat) (body : List Byte) :
    SameButSpan s (State.note s kind detail tenant body) := by
  unfold State.note
  exact State.modSvc_sameButSpan ..

theorem State.event_sameButSpan (s : State) (p : PageType) (i n : Nat) : SameButSpan s (State.event s p i n) := by
  unfold State.event
  exact State.irq_sameButSpan ..

theorem State.setRaw_sameButSpan (s : State) (p : PageType) (i off bank v : Nat) :
    SameButSpan s (State.setRaw s p i off bank v) := by
  unfold State.setRaw
  refine SameButSpan.mk ?_
  exact SameButSpan.refl _

theorem State.wr_sameButSpan (s : State) (r : Reg) (v i bank idx : Nat) :
    SameButSpan s (State.wr s r v i bank idx) := by
  unfold State.wr
  exact State.setRaw_sameButSpan ..

theorem State.cnt_sameButSpan (s : State) (r : Reg) (i n bank idx : Nat) :
    SameButSpan s (State.cnt s r i n bank idx) := by
  unfold State.cnt
  extract_lets k0 k1
  clear_value k0 k1
  split
  · refine SameButSpan.mk ?_
    exact SameButSpan.refl _
  · exact State.wr_sameButSpan ..

theorem State.release_sameButSpan (s : State) (p pool n : Nat) : SameButSpan s (State.release s p pool n) := by
  unfold State.release
  exact State.modPort_sameButSpan ..

theorem State.freeUnits_sameButSpan (s : State) (p : Nat) (f : RFrame) : SameButSpan s (State.freeUnits s p f) := by
  unfold State.freeUnits
  split
  · exact SameButSpan.refl _
  · exact State.release_sameButSpan ..

theorem State.pumpList_sameButSpanFst (s : State) (p : Nat) (l : List (Nat × RFrame)) (blocked : List Nat) :
    SameButSpan s (State.pumpList s p l blocked).1 := by
  induction l generalizing s p blocked
  · unfold State.pumpList
    dsimp only
    exact SameButSpan.refl _
  · rename_i x r ih
    unfold State.pumpList
    extract_lets k0 k1
    clear_value k0
    split
    · dsimp only
      dsimp only [k1]
      exact ih ..
    · refine SameButSpan.trans ?_ (ih ..)
      refine SameButSpan.trans ?_ (State.freeUnits_sameButSpan ..)
      refine SameButSpan.trans ?_ (State.sendOn_sameButSpan ..)
      exact State.spend_sameButSpan ..

theorem State.pumpPort_sameButSpan (s : State) (p : Nat) : SameButSpan s (State.pumpPort s p) := by
  unfold State.pumpPort
  split
  · exact SameButSpan.refl _
  · extract_lets k0
    have hk0 : SameButSpan s k0.1 := by
      dsimp only [k0]
      exact State.pumpList_sameButSpanFst ..
    clear_value k0
    refine SameButSpan.trans ?_ (State.modPort_sameButSpan ..)
    assumption

theorem State.enqueue_sameButSpan (s : State) (inp p : Nat) (f : RFrame) : SameButSpan s (State.enqueue s inp p f)
    := by
  unfold State.enqueue
  refine SameButSpan.trans ?_ (State.pumpPort_sameButSpan ..)
  exact State.modPort_sameButSpan ..

theorem State.forward_sameButSpanFst (s : State) (inp : Nat) (f : RFrame) :
    SameButSpan s (State.forward s inp f).1 := by
  unfold State.forward
  extract_lets k0 u0
  clear_value k0
  have hu0 : SameButSpan s u0 := by
    dsimp only [u0]
    split
    · exact State.cnt_sameButSpan ..
    · exact SameButSpan.refl _
  clear_value u0
  split
  · dsimp only
    refine SameButSpan.trans ?_ (State.enqueue_sameButSpan ..)
    assumption
  · dsimp only
    refine SameButSpan.trans ?_ (State.freeUnits_sameButSpan ..)
    refine SameButSpan.trans ?_ (State.cnt_sameButSpan ..)
    assumption
  · dsimp only
    refine SameButSpan.trans ?_ (State.freeUnits_sameButSpan ..)
    refine SameButSpan.trans ?_ (State.cnt_sameButSpan ..)
    assumption

theorem State.modFab_sameButSpan (s : State) (f : Fabric → Fabric) : SameButSpan s (State.modFab s f) := by
  unfold State.modFab
  refine SameButSpan.mk ?_
  exact SameButSpan.refl _

theorem State.respond_sameButSpan (s : State) (mgmt : Bool) (h : RHead) (b : Access) (status nack : Nat) (data :
    List Byte) :
    SameButSpan s (State.respond s mgmt h b status nack data) := by
  unfold State.respond
  extract_lets k0
  clear_value k0
  split
  · exact State.modFab_sameButSpan ..
  · exact State.forward_sameButSpanFst ..

theorem State.nack_sameButSpan (s : State) (port : Nat) (h : RHead) (b : Access) (code : Nat) :
    SameButSpan s (State.nack s port h b code) := by
  unfold State.nack
  split
  · exact State.cnt_sameButSpan ..
  · refine SameButSpan.trans ?_ (State.respond_sameButSpan ..)
    exact State.cnt_sameButSpan ..

theorem State.refuseAccess_sameButSpan (s : State) (p : PageType) (i port : Nat) (h : RHead) (b : Access) (code log
    : Nat) :
    SameButSpan s (State.refuseAccess s p i port h b code log) := by
  unfold State.refuseAccess
  refine SameButSpan.trans ?_ (State.nack_sameButSpan ..)
  exact State.violate_sameButSpan ..

theorem State.noHop_sameButSpan (s : State) (inp : Nat) (f : RFrame) : SameButSpan s (State.noHop s inp f) := by
  unfold State.noHop
  split
  · exact State.refuseAccess_sameButSpan ..
  · exact SameButSpan.refl _

theorem State.rerouteOne_sameButSpan (s : State) (p : Nat) (x : Nat × RFrame) :
    SameButSpan s (State.rerouteOne s p x) := by
  unfold State.rerouteOne
  extract_lets k0 k1 k2 k3 k4
  clear_value k1 k2 k3
  have hk4 : SameButSpan s k4.1 := by
    dsimp only [k4]
    refine SameButSpan.trans ?_ (State.forward_sameButSpanFst ..)
    dsimp only [k0]
    exact State.modPort_sameButSpan ..
  clear_value k4
  split
  · split
    · assumption
    · refine SameButSpan.trans ?_ (State.noHop_sameButSpan ..)
      assumption
  · split
    · refine SameButSpan.trans ?_ (State.enqueue_sameButSpan ..)
      dsimp only [k0]
      exact State.modPort_sameButSpan ..
    · exact SameButSpan.refl _

theorem State.reroute_sameButSpan (s : State) : SameButSpan s (State.reroute s) := by
  unfold State.reroute
  refine SameButSpan.each ?_ (fun t x => ?_)
  · exact SameButSpan.refl _
  · refine SameButSpan.each ?_ (fun t x => ?_)
    · exact SameButSpan.refl _
    · exact State.rerouteOne_sameButSpan ..

theorem State.draw_sameButSpan (s : State) : SameButSpan s (State.draw s) := by
  unfold State.draw
  refine SameButSpan.mk ?_
  exact SameButSpan.refl _

theorem State.readHost_sameButSpan (s : State) (fn addr len : Nat) (use : ReadUse) :
    SameButSpan s (State.readHost s fn addr len use) := by
  unfold State.readHost
  extract_lets k0
  clear_value k0
  split
  · refine SameButSpan.trans ?_ (State.send_sameButSpan ..)
    exact State.modHost_sameButSpan ..
  · exact State.modHost_sameButSpan ..

theorem State.readLevel_sameButSpan (s : State) (w : Walk) : SameButSpan s (State.readLevel s w) := by
  unfold State.readLevel
  refine SameButSpan.trans ?_ (State.readHost_sameButSpan ..)
  exact State.modHost_sameButSpan ..

theorem State.translate_sameButSpanFst (s : State) (id t : Nat) (use : WalkUse) (done : List (Nat × Part)) (l :
    List Part) :
    SameButSpan s (State.translate s id t use done l).1 := by
  induction l generalizing s id t use done
  · unfold State.translate
    dsimp only
    exact SameButSpan.refl _
  · rename_i x r ih
    unfold State.translate
    extract_lets k0 u0 u1
    clear_value k0
    have hu0 : SameButSpan s u0 := by
      dsimp only [u0]
      exact State.cnt_sameButSpan ..
    clear_value u0
    have hu1 : SameButSpan s u1 := by
      dsimp only [u1]
      exact State.cnt_sameButSpan ..
    clear_value u1
    split
    · extract_lets k1
      clear_value k1
      split
      · dsimp only
        refine SameButSpan.trans ?_ (State.cnt_sameButSpan ..)
        assumption
      · refine SameButSpan.trans ?_ (ih ..)
        assumption
    · split
      · dsimp only
        refine SameButSpan.trans ?_ (State.cnt_sameButSpan ..)
        assumption
      · split
        · dsimp only
          refine SameButSpan.trans ?_ (State.cnt_sameButSpan ..)
          assumption
        · dsimp only
          refine SameButSpan.trans ?_ (State.readLevel_sameButSpan ..)
          assumption

theorem State.modQueue_sameButSpan (s : State) (n q : Nat) (f : Queue → Queue) :
    SameButSpan s (State.modQueue s n q f) := by
  unfold State.modQueue
  refine SameButSpan.mk ?_
  exact SameButSpan.refl _

theorem State.setStream_sameButSpan (s : State) (id : Nat) (x : Stream) : SameButSpan s (State.setStream s id x) := by
  unfold State.setStream
  exact State.modSvc_sameButSpan ..

theorem State.createStream_sameButSpanFst (s : State) (cls t : Nat) (host : Option HostCmd) (inputs : List Byte) :
    SameButSpan s (State.createStream s cls t host inputs).1 := by
  unfold State.createStream
  extract_lets k0
  clear_value k0
  dsimp only
  refine SameButSpan.trans ?_ (State.setStream_sameButSpan ..)
  exact State.draw_sameButSpan ..

theorem State.setSlot_sameButSpan (s : State) (fn i : Nat) (x : ResultSlot) :
    SameButSpan s (State.setSlot s fn i x) := by
  unfold State.setSlot
  exact State.modFn_sameButSpan ..

theorem State.bindSlot_sameButSpanFst (s : State) (fn i stream : Nat) :
    SameButSpan s (State.bindSlot s fn i stream).1 := by
  unfold State.bindSlot
  extract_lets k0 k1
  clear_value k0 k1
  dsimp only
  refine SameButSpan.trans ?_ (State.cnt_sameButSpan ..)
  exact State.setSlot_sameButSpan ..

theorem State.fetch_sameButSpan (s : State) (fn q : Nat) : SameButSpan s (State.fetch s fn q) := by
  unfold State.fetch
  extract_lets k0
  clear_value k0
  split
  · refine SameButSpan.trans ?_ (State.readHost_sameButSpan ..)
    exact State.modQueue_sameButSpan ..
  · exact SameButSpan.refl _

theorem State.ringMessage_sameButSpan (s : State) (fn r tick : Nat) :
    SameButSpan s (State.ringMessage s fn r tick) := by
  unfold State.ringMessage
  extract_lets k0
  clear_value k0
  split
  · exact SameButSpan.refl _
  · split
    · exact State.msix_sameButSpan ..
    · split
      · exact SameButSpan.refl _
      · refine SameButSpan.trans ?_ (State.msix_sameButSpan ..)
        exact State.modQueue_sameButSpan ..

theorem State.writeEntry_sameButSpan (s : State) (fn r : Nat) (e : RingEntry) :
    SameButSpan s (State.writeEntry s fn r e) := by
  unfold State.writeEntry
  extract_lets k0 k1 u0
  clear_value k0 k1
  have hu0 : SameButSpan s u0 := by
    dsimp only [u0]
    exact State.toHost_sameButSpan ..
  clear_value u0
  refine SameButSpan.trans ?_ (State.ringMessage_sameButSpan ..)
  refine SameButSpan.trans ?_ (State.modQueue_sameButSpan ..)
  assumption

theorem State.drainRing_sameButSpan (s : State) (fn r : Nat) (l : List RingEntry) :
    SameButSpan s (State.drainRing s fn r l) := by
  induction l generalizing s fn r
  · unfold State.drainRing
    exact SameButSpan.refl _
  · rename_i x r ih
    unfold State.drainRing
    split
    · exact SameButSpan.refl _
    · refine SameButSpan.trans ?_ (ih ..)
      refine SameButSpan.trans ?_ (State.writeEntry_sameButSpan ..)
      exact State.modQueue_sameButSpan ..

theorem State.serveRing_sameButSpan (s : State) (fn r : Nat) : SameButSpan s (State.serveRing s fn r) := by
  unfold State.serveRing
  split
  · exact SameButSpan.refl _
  · exact State.drainRing_sameButSpan ..

theorem State.complete_sameButSpan (s : State) (fn r : Nat) (e : RingEntry) :
    SameButSpan s (State.complete s fn r e) := by
  unfold State.complete
  refine SameButSpan.trans ?_ (State.serveRing_sameButSpan ..)
  exact State.modQueue_sameButSpan ..

theorem State.streamRefused_sameButSpan (s : State) (pg : PageType) (i src tenant refusal : Nat) :
    SameButSpan s (State.streamRefused s pg i src tenant refusal) := by
  unfold State.streamRefused
  split
  · exact State.violate_sameButSpan ..
  · exact SameButSpan.refl _

theorem State.refuse_sameButSpan (s : State) (fn q : Nat) (e : List Byte) (status detail : Nat) :
    SameButSpan s (State.refuse s fn q e status detail) := by
  unfold State.refuse
  extract_lets k0
  clear_value k0
  refine SameButSpan.trans ?_ (State.complete_sameButSpan ..)
  refine SameButSpan.trans ?_ (State.cnt_sameButSpan ..)
  exact State.streamRefused_sameButSpan ..

theorem State.arrive_sameButSpan (s : State) (l : List Unit_) : SameButSpan s (State.arrive s l) := by
  unfold State.arrive
  exact State.modSvc_sameButSpan ..

theorem State.acceptSubmit_sameButSpan (s : State) (fn q : Nat) (j : Submit) :
    SameButSpan s (State.acceptSubmit s fn q j) := by
  unfold State.acceptSubmit
  extract_lets k0 u0 k1 k2 k3 k4 k5 k6 k7 u1 k8
  clear_value k0 k1 k2 k3 k4 k6 k8
  have hu0 : SameButSpan s u0 := by
    dsimp only [u0]
    exact State.modQueue_sameButSpan ..
  clear_value u0
  have hk5 : SameButSpan s k5.1 := by
    dsimp only [k5]
    refine SameButSpan.trans ?_ (State.createStream_sameButSpanFst ..)
    assumption
  clear_value k5
  have hk7 : SameButSpan s k7.1 := by
    dsimp only [k7]
    refine SameButSpan.trans ?_ (State.bindSlot_sameButSpanFst ..)
    assumption
  clear_value k7
  have hu1 : SameButSpan s u1 := by
    dsimp only [u1]
    split
    · refine SameButSpan.trans ?_ (State.setStream_sameButSpan ..)
      assumption
    · assumption
  clear_value u1
  split
  · refine SameButSpan.trans ?_ (State.fetch_sameButSpan ..)
    refine SameButSpan.trans ?_ (State.refuse_sameButSpan ..)
    assumption
  · refine SameButSpan.trans ?_ (State.fetch_sameButSpan ..)
    refine SameButSpan.trans ?_ (State.arrive_sameButSpan ..)
    assumption

theorem State.submitWalked_sameButSpan (s : State) (fn q : Nat) (l : List (Nat × Part)) :
    SameButSpan s (State.submitWalked s fn q l) := by
  unfold State.submitWalked
  split
  · exact SameButSpan.refl _
  · extract_lets k0 k1
    clear_value k0 k1
    split
    · exact State.acceptSubmit_sameButSpan ..
    · refine SameButSpan.each ?_ (fun t x => ?_)
      · exact State.modQueue_sameButSpan ..
      · exact State.readHost_sameButSpan ..

theorem State.writeHost_sameButSpan (s : State) (fn : Nat) (trans : Option (Nat × Nat)) (relaxed : Bool) (a : Nat)
    (d : List Byte) :
    SameButSpan s (State.writeHost s fn trans relaxed a d) := by
  unfold State.writeHost
  refine SameButSpan.each ?_ (fun t x => ?_)
  · exact SameButSpan.refl _
  · exact State.toHost_sameButSpan ..

theorem State.publishSlot_sameButSpan (s : State) (h : HostCmd) (id : Nat) (x : Stream) :
    SameButSpan s (State.publishSlot s h id x) := by
  unfold State.publishSlot
  split
  · extract_lets k0
    clear_value k0
    refine SameButSpan.trans ?_ (State.cnt_sameButSpan ..)
    exact State.setSlot_sameButSpan ..
  · exact State.setSlot_sameButSpan ..

theorem State.releaseEnd_sameButSpan (s : State) (id : Nat) (x : Stream) (h : HostCmd) (status detail written : Nat) :
    SameButSpan s (State.releaseEnd s id x h status detail written) := by
  unfold State.releaseEnd
  extract_lets u0 u1
  have hu0 : SameButSpan s u0 := by
    dsimp only [u0]
    split
    · exact State.publishSlot_sameButSpan ..
    · exact SameButSpan.refl _
  clear_value u0
  have hu1 : SameButSpan s u1 := by
    dsimp only [u1]
    refine SameButSpan.trans ?_ (State.setStream_sameButSpan ..)
    assumption
  clear_value u1
  refine SameButSpan.trans ?_ (State.complete_sameButSpan ..)
  assumption

theorem State.outputWalked_sameButSpan (s : State) (id : Nat) (l : List (Nat × Part)) :
    SameButSpan s (State.outputWalked s id l) := by
  unfold State.outputWalked
  split
  · exact SameButSpan.refl _
  · split
    · exact SameButSpan.refl _
    · extract_lets k0 u0
      clear_value k0
      have hu0 : SameButSpan s u0 := by
        dsimp only [u0]
        refine SameButSpan.each ?_ (fun t x => ?_)
        · exact SameButSpan.refl _
        · exact State.writeHost_sameButSpan ..
      clear_value u0
      refine SameButSpan.trans ?_ (State.releaseEnd_sameButSpan ..)
      assumption

theorem State.tickFault_sameButSpan (s : State) (code : Nat) (u : FaultUnit) :
    SameButSpan s (State.tickFault s code u) := by
  unfold State.tickFault
  split
  · exact SameButSpan.refl _
  · exact State.sealFault_sameButSpan ..

theorem State.windowWrite_sameButSpan (s : State) (k : Kind3) (l : List (Nat × Part)) (data old : List Byte) :
    SameButSpan s (State.windowWrite s k l data old) := by
  unfold State.windowWrite
  extract_lets k0 k1
  clear_value k0
  split
  · dsimp only [k1]
    split
    · refine SameButSpan.trans ?_ (State.tickFault_sameButSpan ..)
      exact State.violate_sameButSpan ..
    · refine SameButSpan.trans ?_ (State.respond_sameButSpan ..)
      refine SameButSpan.trans ?_ (State.tickFault_sameButSpan ..)
      exact State.violate_sameButSpan ..
  · split
    · dsimp only [k1]
      split
      · exact State.modSvc_sameButSpan ..
      · refine SameButSpan.trans ?_ (State.respond_sameButSpan ..)
        exact State.modSvc_sameButSpan ..
    · dsimp only [k1]
      split
      · refine SameButSpan.each ?_ (fun t x => ?_)
        · exact SameButSpan.refl _
        · exact State.writeHost_sameButSpan ..
      · refine SameButSpan.trans ?_ (State.respond_sameButSpan ..)
        refine SameButSpan.each ?_ (fun t x => ?_)
        · exact SameButSpan.refl _
        · exact State.writeHost_sameButSpan ..

theorem State.dropKind3_sameButSpan (s : State) (id : Nat) : SameButSpan s (State.dropKind3 s id) := by
  unfold State.dropKind3
  exact State.modHost_sameButSpan ..

theorem State.kind3Walked_sameButSpan (s : State) (id : Nat) (l : List (Nat × Part)) :
    SameButSpan s (State.kind3Walked s id l) := by
  unfold State.kind3Walked
  split
  · exact SameButSpan.refl _
  · split
    · refine SameButSpan.trans ?_ (State.windowWrite_sameButSpan ..)
      exact State.dropKind3_sameButSpan ..
    · refine SameButSpan.each ?_ (fun t x => ?_)
      · exact State.modHost_sameButSpan ..
      · exact State.readHost_sameButSpan ..

theorem State.walkViolation_sameButSpan (s : State) (fn src code off : Nat) :
    SameButSpan s (State.walkViolation s fn src code off) := by
  unfold State.walkViolation
  exact State.violate_sameButSpan ..

theorem State.stopQueue_sameButSpan (s : State) (fn q status : Nat) :
    SameButSpan s (State.stopQueue s fn q status) := by
  unfold State.stopQueue
  refine SameButSpan.trans ?_ (State.event_sameButSpan ..)
  exact State.modQueue_sameButSpan ..

theorem State.queueFault_sameButSpan (s : State) (fn q code level entry off : Nat) :
    SameButSpan s (State.queueFault s fn q code level entry off) := by
  unfold State.queueFault
  refine SameButSpan.trans ?_ (State.stopQueue_sameButSpan ..)
  exact State.modQueue_sameButSpan ..

theorem State.outputFault_sameButSpan (s : State) (id code level entry off : Nat) :
    SameButSpan s (State.outputFault s id code level entry off) := by
  unfold State.outputFault
  split
  · exact SameButSpan.refl _
  · split
    · exact SameButSpan.refl _
    · refine SameButSpan.trans ?_ (State.releaseEnd_sameButSpan ..)
      refine SameButSpan.trans ?_ (State.walkViolation_sameButSpan ..)
      exact State.queueFault_sameButSpan ..

theorem State.kind3Refused_sameButSpan (s : State) (id : Nat) : SameButSpan s (State.kind3Refused s id) := by
  unfold State.kind3Refused
  split
  · exact SameButSpan.refl _
  · refine SameButSpan.trans ?_ (State.nack_sameButSpan ..)
    exact State.dropKind3_sameButSpan ..

theorem State.modLoad_sameButSpan (s : State) (f : Load → Load) : SameButSpan s (State.modLoad s f) := by
  unfold State.modLoad
  refine SameButSpan.mk ?_
  exact SameButSpan.refl _

theorem State.walkEnd_sameButSpan (s : State) (t : Nat) (use : WalkUse) (e : WalkEnd) :
    SameButSpan s (State.walkEnd s t use e) := by
  unfold State.walkEnd
  split
  · exact SameButSpan.refl _
  · split
    · exact State.submitWalked_sameButSpan ..
    · exact State.outputWalked_sameButSpan ..
    · exact State.kind3Walked_sameButSpan ..
    · refine SameButSpan.each ?_ (fun t x => ?_)
      · exact SameButSpan.refl _
      · exact State.readHost_sameButSpan ..
  · split
    · split
      · exact SameButSpan.refl _
      · refine SameButSpan.trans ?_ (State.refuse_sameButSpan ..)
        refine SameButSpan.trans ?_ (State.walkViolation_sameButSpan ..)
        refine SameButSpan.trans ?_ (State.queueFault_sameButSpan ..)
        exact State.modQueue_sameButSpan ..
    · exact State.outputFault_sameButSpan ..
    · refine SameButSpan.trans ?_ (State.kind3Refused_sameButSpan ..)
      exact State.walkViolation_sameButSpan ..
    · refine SameButSpan.trans ?_ (State.modLoad_sameButSpan ..)
      refine SameButSpan.trans ?_ (State.cnt_sameButSpan ..)
      exact State.walkViolation_sameButSpan ..

theorem State.walk_sameButSpan (s : State) (t : Nat) (use : WalkUse) (l : List Part) :
    SameButSpan s (State.walk s t use l) := by
  unfold State.walk
  extract_lets k0 k1
  clear_value k0
  have hk1 : SameButSpan s k1.1 := by
    dsimp only [k1]
    refine SameButSpan.trans ?_ (State.translate_sameButSpanFst ..)
    exact State.modHost_sameButSpan ..
  clear_value k1
  refine SameButSpan.trans ?_ (State.walkEnd_sameButSpan ..)
  assumption

theorem State.modChain_sameButSpan (s : State) (e : Nat) (f : Chain → Chain) :
    SameButSpan s (State.modChain s e f) := by
  unfold State.modChain
  exact State.modLoad_sameButSpan ..

theorem State.chainFill_sameButSpan (s : State) (e n : Nat) : SameButSpan s (State.chainFill s e n) := by
  induction n generalizing s e
  · unfold State.chainFill
    exact SameButSpan.refl _
  · rename_i n ih
    unfold State.chainFill
    extract_lets k0
    clear_value k0
    split
    · refine SameButSpan.trans ?_ (ih ..)
      refine SameButSpan.trans ?_ (State.walk_sameButSpan ..)
      exact State.modChain_sameButSpan ..
    · exact SameButSpan.refl _

theorem State.recordAnswered_sameButSpan (s : State) (e : Nat) : SameButSpan s (State.recordAnswered s e) := by
  unfold State.recordAnswered
  split
  · refine SameButSpan.trans ?_ (State.chainFill_sameButSpan ..)
    exact State.modChain_sameButSpan ..
  · exact SameButSpan.refl _

theorem State.setCluster_sameButSpan (s : State) (c : Nat) (x : Cluster) : SameButSpan s (State.setCluster s c x)
    := by
  unfold State.setCluster
  refine SameButSpan.mk ?_
  exact SameButSpan.refl _

theorem State.modCluster_sameButSpan (s : State) (c : Nat) (f : Cluster → Cluster) :
    SameButSpan s (State.modCluster s c f) := by
  unfold State.modCluster
  exact State.setCluster_sameButSpan ..

theorem State.killDraws_sameButSpan (s : State) (c t : Nat) : SameButSpan s (State.killDraws s c t) := by
  unfold State.killDraws
  split
  · split
    · refine SameButSpan.trans ?_ (State.draw_sameButSpan ..)
      exact State.modCluster_sameButSpan ..
    · exact SameButSpan.refl _
  · exact SameButSpan.refl _

theorem State.killContext_sameButSpan (s : State) (c t code : Nat) : SameButSpan s (State.killContext s c t code)
    := by
  unfold State.killContext
  split
  · exact SameButSpan.refl _
  · extract_lets u0 u1 k0
    clear_value k0
    have hu0 : SameButSpan s u0 := by
      dsimp only [u0]
      refine SameButSpan.trans ?_ (State.modTick_sameButSpan ..)
      exact State.cnt_sameButSpan ..
    clear_value u0
    have hu1 : SameButSpan s u1 := by
      dsimp only [u1]
      refine SameButSpan.each ?_ (fun t x => ?_)
      · assumption
      · exact State.killDraws_sameButSpan ..
    clear_value u1
    refine SameButSpan.mk ?_
    assumption

theorem State.threadFault_sameButSpan (s : State) (c g t code form addr : Nat) :
    SameButSpan s (State.threadFault s c g t code form addr) := by
  unfold State.threadFault
  extract_lets u0
  have hu0 : SameButSpan s u0 := by
    dsimp only [u0]
    refine SameButSpan.trans ?_ (State.violate_sameButSpan ..)
    exact State.wr_sameButSpan ..
  clear_value u0
  refine SameButSpan.trans ?_ (State.killContext_sameButSpan ..)
  assumption

theorem State.schedule_sameButSpan (s : State) (c : Nat) : SameButSpan s (State.schedule s c) := by
  unfold State.schedule
  exact State.modCluster_sameButSpan ..

theorem State.raise_sameButSpan (s : State) (c g t blk k addr : Nat) :
    SameButSpan s (State.raise s c g t blk k addr) := by
  unfold State.raise
  split
  · exact SameButSpan.refl _
  · extract_lets k0
    clear_value k0
    split
    · exact State.threadFault_sameButSpan ..
    · exact State.modCluster_sameButSpan ..

theorem State.raiseDue_sameButSpan (s : State) (c : Nat) : SameButSpan s (State.raiseDue s c) := by
  unfold State.raiseDue
  extract_lets k0
  clear_value k0
  refine SameButSpan.each ?_ (fun t x => ?_)
  · exact State.modCluster_sameButSpan ..
  · exact State.raise_sameButSpan ..

theorem State.setGroup_sameButSpan (s : State) (c g : Nat) (x : Group) : SameButSpan s (State.setGroup s c g x) := by
  unfold State.setGroup
  exact State.modCluster_sameButSpan ..

theorem State.modGroup_sameButSpan (s : State) (c g : Nat) (f : Group → Group) :
    SameButSpan s (State.modGroup s c g f) := by
  unfold State.modGroup
  split
  · exact State.setGroup_sameButSpan ..
  · exact SameButSpan.refl _

theorem State.modCopy_sameButSpan (s : State) (c id : Nat) (f : ThreadCopy → ThreadCopy) :
    SameButSpan s (State.modCopy s c id f) := by
  unfold State.modCopy
  exact State.modCluster_sameButSpan ..

theorem State.ask_sameButSpan (s : State) (c tenant addr op size : Nat) (data : List Byte) (use : ReqUse) :
    SameButSpan s (State.ask s c tenant addr op size data use) := by
  unfold State.ask
  exact State.modFab_sameButSpan ..

theorem State.copyWrites_sameButSpan (s : State) (c : Nat) (k : ThreadCopy) :
    SameButSpan s (State.copyWrites s c k) := by
  unfold State.copyWrites
  extract_lets k0 k1
  clear_value k0 k1
  refine SameButSpan.each ?_ (fun t x => ?_)
  · exact State.modCopy_sameButSpan ..
  · exact State.ask_sameButSpan ..

theorem State.copyRead_sameButSpan (s : State) (c id off : Nat) (d : List Byte) :
    SameButSpan s (State.copyRead s c id off d) := by
  unfold State.copyRead
  split
  · exact SameButSpan.refl _
  · extract_lets k0 u0
    clear_value k0
    have hu0 : SameButSpan s u0 := by
      dsimp only [u0]
      exact State.modCopy_sameButSpan ..
    clear_value u0
    split
    · refine SameButSpan.trans ?_ (State.copyWrites_sameButSpan ..)
      assumption
    · assumption

theorem State.useRsp_sameButSpan (s : State) (p : Pending) (r : Response) (data : List Byte) :
    SameButSpan s (State.useRsp s p r data) := by
  unfold State.useRsp
  extract_lets k0 k1 u0
  clear_value k0 k1
  have hu0 : SameButSpan s u0 := by
    dsimp only [u0]
    split
    · exact State.draw_sameButSpan ..
    · exact SameButSpan.refl _
  clear_value u0
  split
  · split
    · exact State.recordAnswered_sameButSpan ..
    · exact State.modFab_sameButSpan ..
    · split
      · exact State.threadFault_sameButSpan ..
      · exact SameButSpan.refl _
  · split
    · refine SameButSpan.trans ?_ (State.schedule_sameButSpan ..)
      refine SameButSpan.trans ?_ (State.raiseDue_sameButSpan ..)
      refine SameButSpan.trans ?_ (State.modGroup_sameButSpan ..)
      assumption
    · refine SameButSpan.trans ?_ (State.schedule_sameButSpan ..)
      refine SameButSpan.trans ?_ (State.raiseDue_sameButSpan ..)
      refine SameButSpan.trans ?_ (State.modGroup_sameButSpan ..)
      assumption
    · refine SameButSpan.trans ?_ (State.schedule_sameButSpan ..)
      refine SameButSpan.trans ?_ (State.raiseDue_sameButSpan ..)
      refine SameButSpan.trans ?_ (State.modGroup_sameButSpan ..)
      assumption
    · refine SameButSpan.trans ?_ (State.raiseDue_sameButSpan ..)
      assumption
    · split
      · refine SameButSpan.trans ?_ (State.modCopy_sameButSpan ..)
        assumption
      · split
        · extract_lets k2
          clear_value k2
          refine SameButSpan.trans ?_ (State.copyRead_sameButSpan ..)
          assumption
        · assumption
    · refine SameButSpan.trans ?_ (State.recordAnswered_sameButSpan ..)
      assumption
    · refine SameButSpan.trans ?_ (State.modFab_sameButSpan ..)
      assumption

theorem State.deliver_sameButSpan (s : State) (f : RFrame) : SameButSpan s (State.deliver s f) := by
  unfold State.deliver
  extract_lets k0 u0
  clear_value k0
  have hu0 : SameButSpan s u0 := by
    dsimp only [u0]
    exact State.modFab_sameButSpan ..
  clear_value u0
  split
  · exact SameButSpan.refl _
  · split
    · assumption
    · refine SameButSpan.trans ?_ (State.useRsp_sameButSpan ..)
      assumption

theorem State.tagOff_sameButSpan (s : State) (tenant : Nat) (addr : Option Nat) :
    SameButSpan s (State.tagOff s tenant addr) := by
  unfold State.tagOff
  exact State.violate_sameButSpan ..

theorem State.selfNack_sameButSpan (s : State) (h : RHead) (b : Access) (mgmt : Bool) (code : Nat) :
    SameButSpan s (State.selfNack s h b mgmt code) := by
  unfold State.selfNack
  extract_lets u0
  have hu0 : SameButSpan s u0 := by
    dsimp only [u0]
    exact State.violate_sameButSpan ..
  clear_value u0
  refine SameButSpan.trans ?_ (State.modFab_sameButSpan ..)
  assumption

theorem State.beginLoad_sameButSpan (s : State) : SameButSpan s (State.beginLoad s) := by
  unfold State.beginLoad
  refine SameButSpan.mk ?_
  exact SameButSpan.refl _

theorem State.modScrub_sameButSpan (s : State) (k : Nat) (f : Scrub → Scrub) :
    SameButSpan s (State.modScrub s k f) := by
  unfold State.modScrub
  split
  · exact State.modCluster_sameButSpan ..
  · refine SameButSpan.mk ?_
    exact SameButSpan.refl _

theorem State.wbCancel_sameButSpan (s : State) (a : Nat) : SameButSpan s (State.wbCancel s a) := by
  unfold State.wbCancel
  extract_lets k0 k1 k2 k3 u0
  clear_value k0 k1 k2 k3
  have hu0 : SameButSpan s u0 := by
    dsimp only [u0]
    exact State.modScrub_sameButSpan ..
  clear_value u0
  split
  · split
    · refine SameButSpan.trans ?_ (State.cnt_sameButSpan ..)
      assumption
    · assumption
  · exact SameButSpan.refl _

theorem State.corrected_sameButSpan (s : State) (a : Nat) : SameButSpan s (State.corrected s a) := by
  unfold State.corrected
  extract_lets k0 k1 u0
  clear_value k0 k1
  have hu0 : SameButSpan s u0 := by
    dsimp only [u0]
    refine SameButSpan.trans ?_ (State.wr_sameButSpan ..)
    exact State.cnt_sameButSpan ..
  clear_value u0
  refine SameButSpan.trans ?_ (State.modScrub_sameButSpan ..)
  assumption

theorem State.uncorrectable_sameButSpan (s : State) (a src tenant : Nat) (fails : Bool) :
    SameButSpan s (State.uncorrectable s a src tenant fails) := by
  unfold State.uncorrectable
  extract_lets k0 k1 u0
  clear_value k0 k1
  have hu0 : SameButSpan s u0 := by
    dsimp only [u0]
    refine SameButSpan.trans ?_ (State.violate_sameButSpan ..)
    exact State.cnt_sameButSpan ..
  clear_value u0
  split
  · refine SameButSpan.trans ?_ (State.tickFault_sameButSpan ..)
    assumption
  · assumption

theorem State.wordWritten_sameButSpan (s : State) (a : Nat) (full : Bool) (src tenant : Nat) :
    SameButSpan s (State.wordWritten s a full src tenant) := by
  unfold State.wordWritten
  extract_lets u0 u1
  have hu0 : SameButSpan s u0 := by
    dsimp only [u0]
    exact State.wbCancel_sameButSpan ..
  clear_value u0
  have hu1 : SameButSpan s u1 := by
    dsimp only [u1]
    refine SameButSpan.trans ?_ (State.corrected_sameButSpan ..)
    assumption
  clear_value u1
  split
  · refine SameButSpan.mk ?_
    assumption
  · split
    · assumption
    · refine SameButSpan.mk ?_
      assumption
    · refine SameButSpan.trans ?_ (State.uncorrectable_sameButSpan ..)
      assumption

theorem State.storeAt_sameButSpan (s : State) (l : List (Nat × Byte)) : SameButSpan s (State.storeAt s l) := by
  induction l generalizing s
  · unfold State.storeAt
    exact SameButSpan.refl _
  · rename_i x r ih
    unfold State.storeAt
    exact ih ..

theorem State.writeBytes_sameButSpan (s : State) (g src tenant : Nat) (as : List Nat) (data : List Byte) :
    SameButSpan s (State.writeBytes s g src tenant as data) := by
  unfold State.writeBytes
  extract_lets k0 k1 u0
  clear_value k0 k1
  have hu0 : SameButSpan s u0 := by
    dsimp only [u0]
    refine SameButSpan.each ?_ (fun t x => ?_)
    · exact SameButSpan.refl _
    · exact State.wordWritten_sameButSpan ..
  clear_value u0
  refine SameButSpan.trans ?_ (State.draw_sameButSpan ..)
  refine SameButSpan.trans ?_ (State.storeAt_sameButSpan ..)
  assumption

theorem State.storeRecord_sameButSpan (s : State) (r : LoadRecord) : SameButSpan s (State.storeRecord s r) := by
  unfold State.storeRecord
  extract_lets u0 k0 k1 k2
  clear_value k0 k1 k2
  have hu0 : SameButSpan s u0 := by
    dsimp only [u0]
    exact State.modLoad_sameButSpan ..
  clear_value u0
  split
  · refine SameButSpan.trans ?_ (State.modLoad_sameButSpan ..)
    refine SameButSpan.trans ?_ (State.writeBytes_sameButSpan ..)
    assumption
  · refine SameButSpan.trans ?_ (State.modLoad_sameButSpan ..)
    refine SameButSpan.trans ?_ (State.writeBytes_sameButSpan ..)
    assumption

theorem State.keep_sameButSpanFst (s : State) (r : LoadRecord) : SameButSpan s (State.keep s r).1 := by
  unfold State.keep
  split
  · extract_lets u0
    have hu0 : SameButSpan s u0 := by
      dsimp only [u0]
      split
      · exact State.beginLoad_sameButSpan ..
      · exact SameButSpan.refl _
    clear_value u0
    dsimp only
    refine SameButSpan.trans ?_ (State.modLoad_sameButSpan ..)
    assumption
  · split
    · dsimp only
      exact SameButSpan.refl _
    · split
      · dsimp only
        exact State.cnt_sameButSpan ..
      · dsimp only
        exact State.storeRecord_sameButSpan ..
  · split
    · dsimp only
      exact SameButSpan.refl _
    · split
      · dsimp only
        exact State.cnt_sameButSpan ..
      · dsimp only
        exact State.storeRecord_sameButSpan ..
  · dsimp only
    exact State.modLoad_sameButSpan ..
  · dsimp only
    exact State.cnt_sameButSpan ..

theorem State.sendRecord_sameButSpan (s : State) (e : Nat) (r : LoadRecord) :
    SameButSpan s (State.sendRecord s e r) := by
  unfold State.sendRecord
  split
  · exact State.cnt_sameButSpan ..
  · refine SameButSpan.trans ?_ (State.modFab_sameButSpan ..)
    exact State.cnt_sameButSpan ..

theorem State.actRecord_sameButSpanFst (s : State) (r : LoadRecord) : SameButSpan s (State.actRecord s r).1 := by
  unfold State.actRecord
  extract_lets k0
  clear_value k0
  split
  · exact State.keep_sameButSpanFst ..
  · split
    · dsimp only
      exact State.cnt_sameButSpan ..
    · dsimp only
      exact State.sendRecord_sameButSpan ..

theorem State.noteRecord_sameButSpan (s : State) (id number : Nat) : SameButSpan s (State.noteRecord s id number)
    := by
  unfold State.noteRecord
  extract_lets k0
  clear_value k0
  exact State.modLoad_sameButSpan ..

theorem State.takeRecord_sameButSpanFst (s : State) (r : LoadRecord) : SameButSpan s (State.takeRecord s r).1 := by
  unfold State.takeRecord
  extract_lets k0 k1
  clear_value k0
  have hk1 : SameButSpan s k1.1 := by
    dsimp only [k1]
    exact State.actRecord_sameButSpanFst ..
  clear_value k1
  split
  · dsimp only
    exact State.cnt_sameButSpan ..
  · split
    · dsimp only
      exact SameButSpan.refl _
    · split
      · dsimp only
        exact SameButSpan.refl _
      · split
        · assumption
        · dsimp only
          refine SameButSpan.trans ?_ (State.noteRecord_sameButSpan ..)
          assumption

theorem State.answerRecord_sameButSpan (s : State) (h : HeldRecord) (nack : Nat) :
    SameButSpan s (State.answerRecord s h nack) := by
  unfold State.answerRecord
  split
  · exact State.recordAnswered_sameButSpan ..
  · exact State.respond_sameButSpan ..
  · exact State.send_sameButSpan ..

theorem State.serveRecord_sameButSpan (s : State) (h : HeldRecord) : SameButSpan s (State.serveRecord s h) := by
  unfold State.serveRecord
  extract_lets k0
  have hk0 : SameButSpan s k0.1 := by
    dsimp only [k0]
    split
    · split
      · exact State.keep_sameButSpanFst ..
      · dsimp only
        exact SameButSpan.refl _
    · exact State.takeRecord_sameButSpanFst ..
  clear_value k0
  split
  · refine SameButSpan.trans ?_ (State.answerRecord_sameButSpan ..)
    assumption
  · refine SameButSpan.trans ?_ (State.answerRecord_sameButSpan ..)
    assumption
  · refine SameButSpan.trans ?_ (State.modLoad_sameButSpan ..)
    assumption

theorem State.touchEntryWord_sameButSpan (s : State) (c i w src tenant : Nat) :
    SameButSpan s (State.touchEntryWord s c i w src tenant) := by
  unfold State.touchEntryWord
  split
  · exact SameButSpan.refl _
  · refine SameButSpan.trans ?_ (State.modCluster_sameButSpan ..)
    extract_lets u0
    have hu0 : SameButSpan s u0 := by
      dsimp only [u0]
      exact State.cnt_sameButSpan ..
    clear_value u0
    refine SameButSpan.mk ?_
    assumption
  · refine SameButSpan.trans ?_ (State.tickFault_sameButSpan ..)
    refine SameButSpan.trans ?_ (State.violate_sameButSpan ..)
    exact State.cnt_sameButSpan ..

theorem State.touchEntry_sameButSpan (s : State) (c i src tenant : Nat) :
    SameButSpan s (State.touchEntry s c i src tenant) := by
  unfold State.touchEntry
  refine SameButSpan.trans ?_ (State.touchEntryWord_sameButSpan ..)
  exact State.touchEntryWord_sameButSpan ..

theorem State.served_sameButSpan (s : State) (port : Nat) (h : RHead) (b : Access) (status : Nat) (data : List Byte) :
    SameButSpan s (State.served s port h b status data) := by
  unfold State.served
  split
  · exact SameButSpan.refl _
  · exact State.respond_sameButSpan ..

theorem State.meetEntry_sameButSpanFst (s : State) (c i port : Nat) (h : RHead) (b : Access) :
    SameButSpan s (State.meetEntry s c i port h b).1 := by
  unfold State.meetEntry
  extract_lets u0
  have hu0 : SameButSpan s u0 := by
    dsimp only [u0]
    exact State.touchEntry_sameButSpan ..
  clear_value u0
  split
  · dsimp only
    refine SameButSpan.trans ?_ (State.served_sameButSpan ..)
    assumption
  · dsimp only
    assumption

theorem State.touch_sameButSpan (s : State) (a src tenant : Nat) : SameButSpan s (State.touch s a src tenant) := by
  unfold State.touch
  split
  · exact SameButSpan.refl _
  · exact State.corrected_sameButSpan ..
  · exact State.uncorrectable_sameButSpan ..

theorem State.afterRead_sameButSpan (s : State) (g src tenant : Nat) (as : List Nat) :
    SameButSpan s (State.afterRead s g src tenant as) := by
  unfold State.afterRead
  refine SameButSpan.trans ?_ (State.draw_sameButSpan ..)
  refine SameButSpan.each ?_ (fun t x => ?_)
  · exact SameButSpan.refl _
  · exact State.touch_sameButSpan ..

theorem State.access_sameButSpan (s : State) (port : Nat) (h : RHead) (b : Access) (data : List Byte) (rd wr : List
    Nat) (loc : Bool) :
    SameButSpan s (State.access s port h b data rd wr loc) := by
  unfold State.access
  extract_lets k0 k1 k2
  clear_value k0 k1 k2
  split
  · refine SameButSpan.trans ?_ (State.served_sameButSpan ..)
    exact State.afterRead_sameButSpan ..
  · refine SameButSpan.trans ?_ (State.served_sameButSpan ..)
    exact State.writeBytes_sameButSpan ..
  · refine SameButSpan.trans ?_ (State.served_sameButSpan ..)
    refine SameButSpan.trans ?_ (State.writeBytes_sameButSpan ..)
    exact State.afterRead_sameButSpan ..

theorem State.serveMemory_sameButSpan (s : State) (port : Nat) (h : RHead) (b : Access) (data : List Byte) :
    SameButSpan s (State.serveMemory s port h b data) := by
  unfold State.serveMemory
  extract_lets k0 k1 k2 k3 k4 k5 k6
  clear_value k0 k1 k2 k3 k5 k6
  have hk4 : SameButSpan s k4.1 := by
    dsimp only [k4]
    split
    · exact State.meetEntry_sameButSpanFst ..
    · dsimp only
      exact SameButSpan.refl _
  clear_value k4
  split
  · split
    · assumption
    · split
      · exact State.refuseAccess_sameButSpan ..
      · split
        · refine SameButSpan.trans ?_ (State.refuseAccess_sameButSpan ..)
          assumption
        · refine SameButSpan.trans ?_ (State.access_sameButSpan ..)
          assumption
  · split
    · exact State.refuseAccess_sameButSpan ..
    · split
      · exact State.refuseAccess_sameButSpan ..
      · exact State.access_sameButSpan ..

theorem State.startKind3_sameButSpan (s : State) (port : Nat) (h : RHead) (b : Access) (data : List Byte) :
    SameButSpan s (State.startKind3 s port h b data) := by
  unfold State.startKind3
  extract_lets k0
  clear_value k0
  refine SameButSpan.trans ?_ (State.walk_sameButSpan ..)
  exact State.modHost_sameButSpan ..

theorem State.applyAtomic_sameButSpan (s : State) (a : HeldAtomic) : SameButSpan s (State.applyAtomic s a) := by
  unfold State.applyAtomic
  split
  · exact State.serveMemory_sameButSpan ..
  · split
    · exact State.refuseAccess_sameButSpan ..
    · split
      · exact State.modFab_sameButSpan ..
      · exact State.startKind3_sameButSpan ..

theorem State.takeAtomic_sameButSpan (s : State) (a : HeldAtomic) : SameButSpan s (State.takeAtomic s a) := by
  unfold State.takeAtomic
  split
  · exact State.applyAtomic_sameButSpan ..
  · split
    · exact State.modFab_sameButSpan ..
    · exact State.cnt_sameButSpan ..

theorem State.serve_sameButSpan (s : State) (port : Nat) (h : RHead) (b : Access) (data : List Byte) :
    SameButSpan s (State.serve s port h b data) := by
  unfold State.serve
  extract_lets k0
  clear_value k0
  split
  · exact State.refuseAccess_sameButSpan ..
  · split
    · exact State.refuseAccess_sameButSpan ..
    · split
      · split
        · exact State.refuseAccess_sameButSpan ..
        · split
          · exact State.serveRecord_sameButSpan ..
          · exact State.refuseAccess_sameButSpan ..
      · split
        · exact State.refuseAccess_sameButSpan ..
        · split
          · exact State.refuseAccess_sameButSpan ..
          · split
            · split
              · exact State.refuseAccess_sameButSpan ..
              · split
                · exact State.refuseAccess_sameButSpan ..
                · split
                  · exact State.takeAtomic_sameButSpan ..
                  · exact State.startKind3_sameButSpan ..
            · split
              · exact State.takeAtomic_sameButSpan ..
              · exact State.serveMemory_sameButSpan ..

theorem State.sendRequest_sameButSpan (s : State) (r : Request) (entry : Nat) :
    SameButSpan s (State.sendRequest s r entry) := by
  unfold State.sendRequest
  extract_lets k0 k1 k2 k3 k4 k5 u0
  clear_value k0 k1 k2 k3 k4 k5
  have hu0 : SameButSpan s u0 := by
    dsimp only [u0]
    exact State.modFab_sameButSpan ..
  clear_value u0
  split
  · refine SameButSpan.trans ?_ (State.tagOff_sameButSpan ..)
    assumption
  · split
    · refine SameButSpan.trans ?_ (State.selfNack_sameButSpan ..)
      assumption
    · split
      · refine SameButSpan.trans ?_ (State.enqueue_sameButSpan ..)
        assumption
      · split
        · split
          · refine SameButSpan.trans ?_ (State.modFab_sameButSpan ..)
            assumption
          · refine SameButSpan.trans ?_ (State.serve_sameButSpan ..)
            assumption
        · extract_lets k6
          have hk6 : SameButSpan s k6.1 := by
            dsimp only [k6]
            refine SameButSpan.trans ?_ (State.forward_sameButSpanFst ..)
            assumption
          clear_value k6
          split
          · assumption
          · refine SameButSpan.trans ?_ (State.selfNack_sameButSpan ..)
            assumption

theorem State.sendAll_sameButSpan (s : State) (l : List Request) : SameButSpan s (State.sendAll s l) := by
  induction l generalizing s
  · unfold State.sendAll
    exact SameButSpan.refl _
  · rename_i x r ih
    unfold State.sendAll
    refine SameButSpan.trans ?_ (ih ..)
    split
    · exact State.modFab_sameButSpan ..
    · exact State.sendRequest_sameButSpan ..

theorem State.pumpN_sameButSpan (s : State) (n : Nat) : SameButSpan s (State.pumpN s n) := by
  induction n generalizing s
  · unfold State.pumpN
    exact SameButSpan.refl _
  · rename_i n ih
    unfold State.pumpN
    extract_lets k0 u0
    clear_value k0
    have hu0 : SameButSpan s u0 := by
      dsimp only [u0]
      refine SameButSpan.each ?_ (fun t x => ?_)
      · exact State.modFab_sameButSpan ..
      · exact State.deliver_sameButSpan ..
    clear_value u0
    split
    · exact SameButSpan.refl _
    · refine SameButSpan.trans ?_ (ih ..)
      refine SameButSpan.trans ?_ (State.sendAll_sameButSpan ..)
      refine SameButSpan.trans ?_ (State.modFab_sameButSpan ..)
      assumption

theorem State.pump_sameButSpan (s : State) : SameButSpan s (State.pump s) := by
  unfold State.pump
  extract_lets u0
  have hu0 : SameButSpan s u0 := by
    dsimp only [u0]
    exact State.reroute_sameButSpan ..
  clear_value u0
  refine SameButSpan.trans ?_ (State.pumpN_sameButSpan ..)
  assumption

theorem State.releaseHeld_sameButSpan (s : State) : SameButSpan s (State.releaseHeld s) := by
  unfold State.releaseHeld
  refine SameButSpan.each ?_ (fun t x => ?_)
  · exact State.modLoad_sameButSpan ..
  · exact State.serveRecord_sameButSpan ..

theorem State.chainAct_sameButSpan (s : State) (e n : Nat) : SameButSpan s (State.chainAct s e n) := by
  unfold State.chainAct
  extract_lets k0 k1 k2 u0
  clear_value k0 k1 k2
  have hu0 : SameButSpan s u0 := by
    dsimp only [u0]
    exact State.modChain_sameButSpan ..
  clear_value u0
  split
  · exact SameButSpan.refl _
  · split
    · refine SameButSpan.trans ?_ (State.serveRecord_sameButSpan ..)
      assumption
    · split
      · refine SameButSpan.trans ?_ (State.recordAnswered_sameButSpan ..)
        refine SameButSpan.trans ?_ (State.sendRecord_sameButSpan ..)
        assumption
      · refine SameButSpan.trans ?_ (State.sendRecord_sameButSpan ..)
        assumption

theorem State.chainOn_sameButSpan (s : State) (e : Nat) : SameButSpan s (State.chainOn s e) := by
  unfold State.chainOn
  split
  · refine SameButSpan.trans ?_ (State.chainFill_sameButSpan ..)
    refine SameButSpan.each ?_ (fun t x => ?_)
    · exact SameButSpan.refl _
    · exact State.chainAct_sameButSpan ..
  · exact SameButSpan.refl _

theorem State.chainsGo_sameButSpan (s : State) : SameButSpan s (State.chainsGo s) := by
  unfold State.chainsGo
  refine SameButSpan.each ?_ (fun t x => ?_)
  · exact State.releaseHeld_sameButSpan ..
  · exact State.chainOn_sameButSpan ..

theorem State.chainsResume_sameButSpan (s : State) : SameButSpan s (State.chainsResume s) := by
  unfold State.chainsResume
  refine SameButSpan.trans ?_ (State.pump_sameButSpan ..)
  exact State.chainsGo_sameButSpan ..

theorem State.toHold_sameButSpan (s : State) (attempt : Nat) : SameButSpan s (State.toHold s attempt) := by
  unfold State.toHold
  extract_lets u0
  have hu0 : SameButSpan s u0 := by
    dsimp only [u0]
    split
    · exact SameButSpan.refl _
    · refine SameButSpan.trans ?_ (State.note_sameButSpan ..)
      exact State.event_sameButSpan ..
  clear_value u0
  refine SameButSpan.trans ?_ (State.chainsResume_sameButSpan ..)
  refine SameButSpan.trans ?_ (State.modTick_sameButSpan ..)
  assumption

theorem State.snapshot_sameButSpan (s : State) : SameButSpan s (State.snapshot s) := by
  unfold State.snapshot
  refine SameButSpan.mk ?_
  exact SameButSpan.refl _

theorem State.noteStatus_sameButSpan (s old : State) : SameButSpan s (State.noteStatus s old) := by
  unfold State.noteStatus
  split
  · exact SameButSpan.refl _
  · refine SameButSpan.mk ?_
    exact SameButSpan.refl _

theorem State.modPower_sameButSpan (s : State) (f : Power → Power) : SameButSpan s (State.modPower s f) := by
  unfold State.modPower
  exact State.noteStatus_sameButSpan ..

theorem State.takeRole_sameButSpan (s : State) : SameButSpan s (State.takeRole s) := by
  unfold State.takeRole
  refine SameButSpan.when ?_ (fun t => ?_)
  · exact SameButSpan.refl _
  · exact State.wr_sameButSpan ..

theorem State.spareStops_sameButSpan (s : State) : SameButSpan s (State.spareStops s) := by
  unfold State.spareStops
  split
  · exact State.modTick_sameButSpan ..
  · exact SameButSpan.refl _

theorem State.takePlacement_sameButSpan (s : State) : SameButSpan s (State.takePlacement s) := by
  unfold State.takePlacement
  extract_lets k0 u0
  clear_value k0
  have hu0 : SameButSpan s u0 := by
    dsimp only [u0]
    exact State.modFab_sameButSpan ..
  clear_value u0
  split
  · exact SameButSpan.refl _
  · split
    · refine SameButSpan.trans ?_ (State.wr_sameButSpan ..)
      refine SameButSpan.trans ?_ (State.wr_sameButSpan ..)
      refine SameButSpan.trans ?_ (State.wr_sameButSpan ..)
      assumption
    · assumption

theorem State.takeResumed_sameButSpan (s : State) : SameButSpan s (State.takeResumed s) := by
  unfold State.takeResumed
  extract_lets u0
  have hu0 : SameButSpan s u0 := by
    dsimp only [u0]
    exact State.takeRole_sameButSpan ..
  clear_value u0
  refine SameButSpan.trans ?_ (State.spareStops_sameButSpan ..)
  refine SameButSpan.trans ?_ (State.takePlacement_sameButSpan ..)
  refine SameButSpan.mk ?_
  assumption

theorem State.toRun_sameButSpan (s : State) (attempt : Nat) : SameButSpan s (State.toRun s attempt) := by
  unfold State.toRun
  extract_lets u0
  have hu0 : SameButSpan s u0 := by
    dsimp only [u0]
    split
    · refine SameButSpan.trans ?_ (State.modPower_sameButSpan ..)
      refine SameButSpan.trans ?_ (State.modTick_sameButSpan ..)
      exact State.takeResumed_sameButSpan ..
    · exact SameButSpan.refl _
  clear_value u0
  refine SameButSpan.trans ?_ (State.modTick_sameButSpan ..)
  assumption

theorem State.modIsland_sameButSpan (s : State) (f : Island → Island) : SameButSpan s (State.modIsland s f) := by
  unfold State.modIsland
  exact State.noteStatus_sameButSpan ..

theorem State.selfCheckCommit_sameButSpan (s : State) : SameButSpan s (State.selfCheckCommit s) := by
  unfold State.selfCheckCommit
  exact State.modIsland_sameButSpan ..

theorem State.signalFn_sameButSpan (s : State) (t : Nat) : SameButSpan s (State.signalFn s t) := by
  unfold State.signalFn
  refine SameButSpan.trans ?_ (State.msix_sameButSpan ..)
  refine SameButSpan.trans ?_ (State.event_sameButSpan ..)
  exact State.wr_sameButSpan ..

theorem State.ledger_sameButSpan (s : State) (kind detail tenant tick : Nat) (body : List Byte) :
    SameButSpan s (State.ledger s kind detail tenant tick body) := by
  unfold State.ledger
  split
  · exact State.cnt_sameButSpan ..
  · extract_lets k0 k1 u0
    clear_value k0 k1
    have hu0 : SameButSpan s u0 := by
      dsimp only [u0]
      exact State.modSvc_sameButSpan ..
    clear_value u0
    split
    · refine SameButSpan.trans ?_ (State.event_sameButSpan ..)
      assumption
    · assumption

theorem State.withdrawStream_sameButSpan (s : State) (tick id : Nat) (x : Stream) :
    SameButSpan s (State.withdrawStream s tick id x) := by
  unfold State.withdrawStream
  extract_lets k0 u0
  clear_value k0
  have hu0 : SameButSpan s u0 := by
    dsimp only [u0]
    split
    · exact State.ledger_sameButSpan ..
    · split
      · refine SameButSpan.trans ?_ (State.draw_sameButSpan ..)
        exact State.ledger_sameButSpan ..
      · exact SameButSpan.refl _
  clear_value u0
  refine SameButSpan.trans ?_ (State.freeId_sameButSpan ..)
  assumption

theorem State.withdrawNow_sameButSpan (s : State) (t : Nat) : SameButSpan s (State.withdrawNow s t) := by
  unfold State.withdrawNow
  extract_lets u0 k0 u1 u2 u3 u4
  clear_value k0
  have hu0 : SameButSpan s u0 := by
    dsimp only [u0]
    refine SameButSpan.each ?_ (fun t x => ?_)
    · exact SameButSpan.refl _
    · exact State.killDraws_sameButSpan ..
  clear_value u0
  have hu1 : SameButSpan s u1 := by
    dsimp only [u1]
    refine SameButSpan.mk ?_
    assumption
  clear_value u1
  have hu2 : SameButSpan s u2 := by
    dsimp only [u2]
    refine SameButSpan.trans ?_ (State.modTick_sameButSpan ..)
    assumption
  clear_value u2
  have hu3 : SameButSpan s u3 := by
    dsimp only [u3]
    refine SameButSpan.each ?_ (fun t x => ?_)
    · assumption
    · exact State.withdrawStream_sameButSpan ..
  clear_value u3
  have hu4 : SameButSpan s u4 := by
    dsimp only [u4]
    refine SameButSpan.trans ?_ (State.modSvc_sameButSpan ..)
    assumption
  clear_value u4
  refine SameButSpan.trans ?_ (State.modFn_sameButSpan ..)
  assumption

theorem State.withdraw_sameButSpan (s : State) (t : Nat) : SameButSpan s (State.withdraw s t) := by
  unfold State.withdraw
  refine SameButSpan.trans ?_ (State.signalFn_sameButSpan ..)
  exact State.withdrawNow_sameButSpan ..

theorem State.delivered_sameButSpan (s : State) : SameButSpan s (State.delivered s) := by
  unfold State.delivered
  extract_lets k0 u0 k1
  clear_value k0 k1
  have hu0 : SameButSpan s u0 := by
    dsimp only [u0]
    refine SameButSpan.each ?_ (fun t x => ?_)
    · exact SameButSpan.refl _
    · split
      · exact SameButSpan.refl _
      · exact State.setStream_sameButSpan ..
  clear_value u0
  refine SameButSpan.trans ?_ (State.modSvc_sameButSpan ..)
  refine SameButSpan.when ?_ (fun t => ?_)
  · assumption
  · exact State.cnt_sameButSpan ..

theorem State.closeFrame_sameButSpan (s : State) (f : OpenFrame) : SameButSpan s (State.closeFrame s f) := by
  unfold State.closeFrame
  extract_lets k0 k1
  clear_value k0 k1
  refine SameButSpan.trans ?_ (State.modSvc_sameButSpan ..)
  exact State.ledger_sameButSpan ..

theorem State.spawn_sameButSpan (s : State) (r : OutRecord) : SameButSpan s (State.spawn s r) := by
  unfold State.spawn
  split
  · exact SameButSpan.refl _
  · split
    · refine SameButSpan.trans ?_ (State.draw_sameButSpan ..)
      refine SameButSpan.trans ?_ (State.ledger_sameButSpan ..)
      exact State.cnt_sameButSpan ..
    · extract_lets k0 k1
      clear_value k1
      have hk0 : SameButSpan s k0.1 := by
        dsimp only [k0]
        exact State.createStream_sameButSpanFst ..
      clear_value k0
      refine SameButSpan.trans ?_ (State.arrive_sameButSpan ..)
      assumption

theorem State.finish_sameButSpan (s : State) (id tick status detail rstatus : Nat) (payload : List Byte) (crc : Nat) :
    SameButSpan s (State.finish s id tick status detail rstatus payload crc) := by
  unfold State.finish
  split
  · exact SameButSpan.refl _
  · split
    · exact SameButSpan.refl _
    · extract_lets k0 k1 k2 k3 k4 u0 u1
      clear_value k0 k1 k2 k3 k4
      have hu0 : SameButSpan s u0 := by
        dsimp only [u0]
        exact State.setStream_sameButSpan ..
      clear_value u0
      have hu1 : SameButSpan s u1 := by
        dsimp only [u1]
        refine SameButSpan.when ?_ (fun t => ?_)
        · split
          · refine SameButSpan.trans ?_ (State.modSvc_sameButSpan ..)
            assumption
          · refine SameButSpan.trans ?_ (State.draw_sameButSpan ..)
            assumption
        · exact State.cnt_sameButSpan ..
      clear_value u1
      refine SameButSpan.trans ?_ (State.ledger_sameButSpan ..)
      refine SameButSpan.trans ?_ (State.modSvc_sameButSpan ..)
      assumption

theorem State.applyRecord_sameButSpan (s : State) (r : OutRecord) : SameButSpan s (State.applyRecord s r) := by
  unfold State.applyRecord
  split
  · exact SameButSpan.refl _
  · split
    · exact SameButSpan.refl _
    · split
      · exact State.spawn_sameButSpan ..
      · split
        · refine SameButSpan.trans ?_ (State.freeId_sameButSpan ..)
          exact State.cnt_sameButSpan ..
        · exact State.finish_sameButSpan ..

theorem State.faulted_sameButSpan (s : State) (id code : Nat) : SameButSpan s (State.faulted s id code) := by
  unfold State.faulted
  split
  · exact SameButSpan.refl _
  · split
    · exact SameButSpan.refl _
    · split
      · refine SameButSpan.trans ?_ (State.freeId_sameButSpan ..)
        exact State.cnt_sameButSpan ..
      · exact State.finish_sameButSpan ..

theorem State.ledgerEvent_sameButSpan (s : State) (e : Nat × Nat × List Byte) :
    SameButSpan s (State.ledgerEvent s e) := by
  unfold State.ledgerEvent
  exact State.ledger_sameButSpan ..

theorem State.nopDone_sameButSpan (s : State) (fn q ring cmdId tick : Nat) :
    SameButSpan s (State.nopDone s fn q ring cmdId tick) := by
  unfold State.nopDone
  exact State.complete_sameButSpan ..

theorem State.releaseEgress_sameButSpan (s : State) (e : Egress) : SameButSpan s (State.releaseEgress s e) := by
  unfold State.releaseEgress
  split
  · exact State.cnt_sameButSpan ..
  · split
    · split
      · exact SameButSpan.refl _
      · exact State.writeHost_sameButSpan ..
    · exact State.nopDone_sameButSpan ..

theorem State.setTail_sameButSpan (s : State) (fn q v : Nat) : SameButSpan s (State.setTail s fn q v) := by
  unfold State.setTail
  split
  · exact SameButSpan.refl _
  · refine SameButSpan.trans ?_ (State.fetch_sameButSpan ..)
    exact State.modQueue_sameButSpan ..

theorem State.ringDoorbells_sameButSpan (s : State) : SameButSpan s (State.ringDoorbells s) := by
  unfold State.ringDoorbells
  refine SameButSpan.each ?_ (fun t x => ?_)
  · exact State.modHost_sameButSpan ..
  · exact State.setTail_sameButSpan ..

theorem State.commitServices_sameButSpan (s : State) : SameButSpan s (State.commitServices s) := by
  unfold State.commitServices
  extract_lets u0 u1 u2 u3 u4 u5 u6 u7
  have hu0 : SameButSpan s u0 := by
    dsimp only [u0]
    refine SameButSpan.each ?_ (fun t x => ?_)
    · exact SameButSpan.refl _
    · exact State.withdraw_sameButSpan ..
  clear_value u0
  have hu1 : SameButSpan s u1 := by
    dsimp only [u1]
    refine SameButSpan.trans ?_ (State.delivered_sameButSpan ..)
    assumption
  clear_value u1
  have hu2 : SameButSpan s u2 := by
    dsimp only [u2]
    refine SameButSpan.each ?_ (fun t x => ?_)
    · assumption
    · exact State.closeFrame_sameButSpan ..
  clear_value u2
  have hu3 : SameButSpan s u3 := by
    dsimp only [u3]
    refine SameButSpan.each ?_ (fun t x => ?_)
    · assumption
    · exact State.applyRecord_sameButSpan ..
  clear_value u3
  have hu4 : SameButSpan s u4 := by
    dsimp only [u4]
    refine SameButSpan.each ?_ (fun t x => ?_)
    · assumption
    · split
      · exact State.faulted_sameButSpan ..
      · exact SameButSpan.refl _
  clear_value u4
  have hu5 : SameButSpan s u5 := by
    dsimp only [u5]
    refine SameButSpan.each ?_ (fun t x => ?_)
    · assumption
    · exact State.faulted_sameButSpan ..
  clear_value u5
  have hu6 : SameButSpan s u6 := by
    dsimp only [u6]
    refine SameButSpan.each ?_ (fun t x => ?_)
    · assumption
    · exact State.ledgerEvent_sameButSpan ..
  clear_value u6
  have hu7 : SameButSpan s u7 := by
    dsimp only [u7]
    refine SameButSpan.each ?_ (fun t x => ?_)
    · assumption
    · exact State.releaseEgress_sameButSpan ..
  clear_value u7
  refine SameButSpan.trans ?_ (State.ringDoorbells_sameButSpan ..)
  refine SameButSpan.trans ?_ (State.modTick_sameButSpan ..)
  refine SameButSpan.trans ?_ (State.modSvc_sameButSpan ..)
  assumption

theorem State.toggleCur_sameButSpan (s : State) : SameButSpan s (State.toggleCur s) := by
  unfold State.toggleCur
  extract_lets k0
  clear_value k0
  refine SameButSpan.mk ?_
  exact SameButSpan.refl _

theorem State.modQuarter_sameButSpan (s : State) (q : Nat) (f : Quarter → Quarter) :
    SameButSpan s (State.modQuarter s q f) := by
  unfold State.modQuarter
  refine SameButSpan.mk ?_
  exact SameButSpan.refl _

theorem State.avsWrite_sameButSpan (s : State) (q mv : Nat) : SameButSpan s (State.avsWrite s q mv) := by
  unfold State.avsWrite
  refine SameButSpan.trans ?_ (State.send_sameButSpan ..)
  refine SameButSpan.trans ?_ (State.modPower_sameButSpan ..)
  exact State.modQuarter_sameButSpan ..

theorem State.stepDown_sameButSpan (s : State) (q low : Nat) : SameButSpan s (State.stepDown s q low) := by
  unfold State.stepDown
  extract_lets k0
  clear_value k0
  split
  · exact SameButSpan.refl _
  · split
    · refine SameButSpan.trans ?_ (State.avsWrite_sameButSpan ..)
      exact State.modQuarter_sameButSpan ..
    · split
      · exact SameButSpan.refl _
      · exact State.modQuarter_sameButSpan ..

theorem State.stepUp_sameButSpan (s : State) (q : Nat) : SameButSpan s (State.stepUp s q) := by
  unfold State.stepUp
  extract_lets k0
  clear_value k0
  split
  · exact SameButSpan.refl _
  · refine SameButSpan.trans ?_ (State.avsWrite_sameButSpan ..)
    exact State.modQuarter_sameButSpan ..

theorem State.steerQuarter_sameButSpan (s : State) (q : Nat) : SameButSpan s (State.steerQuarter s q) := by
  unfold State.steerQuarter
  extract_lets k0 k1 k2 u0 k3
  clear_value k0 k1 k2
  have hu0 : SameButSpan s u0 := by
    dsimp only [u0]
    exact State.modQuarter_sameButSpan ..
  clear_value u0
  split
  · assumption
  · split
    · dsimp only [k3]
      split
      · assumption
      · refine SameButSpan.trans ?_ (State.stepDown_sameButSpan ..)
        assumption
    · split
      · dsimp only [k3]
        split
        · assumption
        · refine SameButSpan.trans ?_ (State.stepDown_sameButSpan ..)
          assumption
      · split
        · refine SameButSpan.trans ?_ (State.stepUp_sameButSpan ..)
          assumption
        · split
          · dsimp only [k3]
            split
            · assumption
            · refine SameButSpan.trans ?_ (State.stepDown_sameButSpan ..)
              assumption
          · assumption

theorem State.settleDead_sameButSpan (s : State) : SameButSpan s (State.settleDead s) := by
  unfold State.settleDead
  extract_lets k0 k1
  clear_value k0 k1
  refine SameButSpan.mk ?_
  exact SameButSpan.refl _

theorem State.setCtx_sameButSpan (s : State) (c k : Nat) (x : Ctx) : SameButSpan s (State.setCtx s c k x) := by
  unfold State.setCtx
  exact State.modCluster_sameButSpan ..

theorem State.stage_sameButSpan (s : State) : SameButSpan s (State.stage s) := by
  unfold State.stage
  refine SameButSpan.each ?_ (fun t x => ?_)
  · exact SameButSpan.refl _
  · split
    · exact SameButSpan.refl _
    · split
      · refine SameButSpan.mk ?_
        exact SameButSpan.refl _
      · extract_lets k0 u0
        clear_value k0
        have hu0 : SameButSpan t u0 := by
          dsimp only [u0]
          refine SameButSpan.mk ?_
          exact SameButSpan.refl _
        clear_value u0
        refine SameButSpan.each ?_ (fun t x => ?_)
        · assumption
        · split
          · exact State.setCtx_sameButSpan ..
          · exact SameButSpan.refl _

theorem State.keepSlack_sameButSpan (s : State) : SameButSpan s (State.keepSlack s) := by
  unfold State.keepSlack
  refine SameButSpan.mk ?_
  exact SameButSpan.refl _

theorem State.takeEffect_sameButSpan (s : State) : SameButSpan s (State.takeEffect s) := by
  unfold State.takeEffect
  refine SameButSpan.mk ?_
  exact SameButSpan.refl _

theorem State.takeAll_sameButSpan (s : State) : SameButSpan s (State.takeAll s) := by
  unfold State.takeAll
  refine SameButSpan.trans ?_ (State.spareStops_sameButSpan ..)
  refine SameButSpan.trans ?_ (State.takePlacement_sameButSpan ..)
  refine SameButSpan.trans ?_ (State.takeEffect_sameButSpan ..)
  exact State.takeRole_sameButSpan ..

theorem State.advanceCtx_sameButSpan (s : State) (c k r : Nat) : SameButSpan s (State.advanceCtx s c k r) := by
  unfold State.advanceCtx
  extract_lets k0 k1
  clear_value k0 k1
  split
  · exact State.setCtx_sameButSpan ..
  · exact SameButSpan.refl _

theorem State.boundary_sameButSpan (s : State) (t : Nat) : SameButSpan s (State.boundary s t) := by
  unfold State.boundary
  extract_lets k0 k1 u0 k2 u1
  clear_value k0 k1 k2
  have hu0 : SameButSpan s u0 := by
    dsimp only [u0]
    refine SameButSpan.each ?_ (fun t x => ?_)
    · exact SameButSpan.refl _
    · exact State.advanceCtx_sameButSpan ..
  clear_value u0
  have hu1 : SameButSpan s u1 := by
    dsimp only [u1]
    refine SameButSpan.mk ?_
    assumption
  clear_value u1
  refine SameButSpan.trans ?_ (State.ledgerEvent_sameButSpan ..)
  assumption

theorem State.entryInForce_sameButSpan (s : State) (c i : Nat) (e : HEntry) :
    SameButSpan s (State.entryInForce s c i e) := by
  unfold State.entryInForce
  extract_lets k0 k1 u0
  clear_value k0 k1
  have hu0 : SameButSpan s u0 := by
    dsimp only [u0]
    exact State.modCluster_sameButSpan ..
  clear_value u0
  refine SameButSpan.mk ?_
  assumption

theorem State.entriesInForce_sameButSpan (s : State) (c : Nat) : SameButSpan s (State.entriesInForce s c) := by
  unfold State.entriesInForce
  refine SameButSpan.each ?_ (fun t x => ?_)
  · exact SameButSpan.refl _
  · exact State.entryInForce_sameButSpan ..

theorem State.modTime_sameButSpan (s : State) (f : TimeUnit → TimeUnit) : SameButSpan s (State.modTime s f) := by
  unfold State.modTime
  refine SameButSpan.mk ?_
  exact SameButSpan.refl _

theorem State.commitTick_sameButSpan (s : State) : SameButSpan s (State.commitTick s) := by
  unfold State.commitTick
  extract_lets u0 u1 u2 u3 u4 u5
  have hu0 : SameButSpan s u0 := by
    dsimp only [u0]
    refine SameButSpan.trans ?_ (State.selfCheckCommit_sameButSpan ..)
    refine SameButSpan.trans ?_ (State.commitServices_sameButSpan ..)
    exact State.toggleCur_sameButSpan ..
  clear_value u0
  have hu1 : SameButSpan s u1 := by
    dsimp only [u1]
    refine SameButSpan.each ?_ (fun t x => ?_)
    · assumption
    · exact State.steerQuarter_sameButSpan ..
  clear_value u1
  have hu2 : SameButSpan s u2 := by
    dsimp only [u2]
    refine SameButSpan.trans ?_ (State.settleDead_sameButSpan ..)
    refine SameButSpan.trans ?_ (State.stage_sameButSpan ..)
    refine SameButSpan.trans ?_ (State.keepSlack_sameButSpan ..)
    assumption
  clear_value u2
  have hu3 : SameButSpan s u3 := by
    dsimp only [u3]
    refine SameButSpan.trans ?_ (State.takeAll_sameButSpan ..)
    refine SameButSpan.each ?_ (fun t x => ?_)
    · assumption
    · exact State.boundary_sameButSpan ..
  clear_value u3
  have hu4 : SameButSpan s u4 := by
    dsimp only [u4]
    refine SameButSpan.each ?_ (fun t x => ?_)
    · assumption
    · exact State.entriesInForce_sameButSpan ..
  clear_value u4
  have hu5 : SameButSpan s u5 := by
    dsimp only [u5]
    refine SameButSpan.trans ?_ (State.snapshot_sameButSpan ..)
    refine SameButSpan.trans ?_ (State.modTick_sameButSpan ..)
    assumption
  clear_value u5
  refine SameButSpan.trans ?_ (State.modTime_sameButSpan ..)
  refine SameButSpan.mk ?_
  assumption

theorem State.intakeAgain_sameButSpan (s : State) : SameButSpan s (State.intakeAgain s) := by
  unfold State.intakeAgain
  exact State.modSvc_sameButSpan ..

theorem State.undoServices_sameButSpan (s : State) : SameButSpan s (State.undoServices s) := by
  unfold State.undoServices
  refine SameButSpan.trans ?_ (State.intakeAgain_sameButSpan ..)
  exact State.modSvc_sameButSpan ..

theorem State.undoTick_sameButSpan (s : State) : SameButSpan s (State.undoTick s) := by
  unfold State.undoTick
  extract_lets k0 u0
  clear_value k0
  have hu0 : SameButSpan s u0 := by
    dsimp only [u0]
    refine SameButSpan.mk ?_
    exact SameButSpan.refl _
  clear_value u0
  refine SameButSpan.trans ?_ (State.modTick_sameButSpan ..)
  refine SameButSpan.trans ?_ (State.undoServices_sameButSpan ..)
  assumption

theorem State.selfFail_sameButSpan (s : State) : SameButSpan s (State.selfFail s) := by
  unfold State.selfFail
  refine SameButSpan.trans ?_ (State.chainsResume_sameButSpan ..)
  refine SameButSpan.trans ?_ (State.note_sameButSpan ..)
  refine SameButSpan.trans ?_ (State.violate_sameButSpan ..)
  exact State.modTick_sameButSpan ..

theorem State.applyVerdict_sameButSpan (s : State) (tick attempt verdict : Nat) :
    SameButSpan s (State.applyVerdict s tick attempt verdict) := by
  unfold State.applyVerdict
  extract_lets k0
  split
  · dsimp only [k0]
    split
    · refine SameButSpan.trans ?_ (State.toHold_sameButSpan ..)
      refine SameButSpan.trans ?_ (State.snapshot_sameButSpan ..)
      refine SameButSpan.trans ?_ (State.note_sameButSpan ..)
      exact State.modTick_sameButSpan ..
    · refine SameButSpan.trans ?_ (State.toRun_sameButSpan ..)
      refine SameButSpan.trans ?_ (State.snapshot_sameButSpan ..)
      refine SameButSpan.trans ?_ (State.note_sameButSpan ..)
      exact State.modTick_sameButSpan ..
  · split
    · dsimp only [k0]
      split
      · refine SameButSpan.trans ?_ (State.toHold_sameButSpan ..)
        exact State.commitTick_sameButSpan ..
      · refine SameButSpan.trans ?_ (State.toRun_sameButSpan ..)
        exact State.commitTick_sameButSpan ..
    · split
      · dsimp only [k0]
        split
        · refine SameButSpan.trans ?_ (State.toHold_sameButSpan ..)
          split
          · refine SameButSpan.when ?_ (fun t => ?_)
            · exact State.undoTick_sameButSpan ..
            · exact State.cnt_sameButSpan ..
          · exact SameButSpan.refl _
        · refine SameButSpan.trans ?_ (State.toRun_sameButSpan ..)
          split
          · refine SameButSpan.when ?_ (fun t => ?_)
            · exact State.undoTick_sameButSpan ..
            · exact State.cnt_sameButSpan ..
          · exact SameButSpan.refl _
      · exact State.selfFail_sameButSpan ..

theorem State.cleared_sameButSpan (s : State) (code : Nat) : SameButSpan s (State.cleared s code) := by
  unfold State.cleared
  exact State.modIsland_sameButSpan ..

theorem State.openGate_sameButSpan (s : State) (n : Nat) : SameButSpan s (State.openGate s n) := by
  unfold State.openGate
  exact State.modIsland_sameButSpan ..

theorem State.switchKey_sameButSpan (s : State) (p : Nat) : SameButSpan s (State.switchKey s p) := by
  unfold State.switchKey
  split
  · exact State.modPort_sameButSpan ..
  · exact SameButSpan.refl _

theorem State.tickStart_sameButSpan (s : State) : SameButSpan s (State.tickStart s) := by
  unfold State.tickStart
  extract_lets u0
  have hu0 : SameButSpan s u0 := by
    dsimp only [u0]
    refine SameButSpan.trans ?_ (State.cleared_sameButSpan ..)
    refine SameButSpan.trans ?_ (State.openGate_sameButSpan ..)
    refine SameButSpan.each ?_ (fun t x => ?_)
    · exact SameButSpan.refl _
    · exact State.switchKey_sameButSpan ..
  clear_value u0
  refine SameButSpan.trans ?_ (State.modTick_sameButSpan ..)
  assumption

theorem State.startNow_sameButSpan (s : State) : SameButSpan s (State.startNow s) := by
  unfold State.startNow
  exact State.modTime_sameButSpan ..

theorem State.setTai_sameButSpan (s : State) (x : Int) : SameButSpan s (State.setTai s x) := by
  unfold State.setTai
  exact State.modTime_sameButSpan ..

theorem State.tellAll_sameButSpan (s : State) (off v : Nat) : SameButSpan s (State.tellAll s off v) := by
  unfold State.tellAll
  refine SameButSpan.each ?_ (fun t x => ?_)
  · exact SameButSpan.refl _
  · exact State.modFab_sameButSpan ..

theorem State.announce_sameButSpan (s : State) (event : Nat) (slew : Bool) :
    SameButSpan s (State.announce s event slew) := by
  unfold State.announce
  split
  · exact SameButSpan.refl _
  · extract_lets k0 k1
    clear_value k0 k1
    refine SameButSpan.trans ?_ (State.modTime_sameButSpan ..)
    exact State.tellAll_sameButSpan ..

theorem State.checkQuality_sameButSpan (s : State) : SameButSpan s (State.checkQuality s) := by
  unfold State.checkQuality
  split
  · exact State.announce_sameButSpan ..
  · exact SameButSpan.refl _

theorem State.keystoneTai_sameButSpan (s : State) (c : Nat) : SameButSpan s (State.keystoneTai s c) := by
  unfold State.keystoneTai
  extract_lets k0 k1 k2 k3 u0 u1 k4 u2
  clear_value k0 k1 k2 k3 k4
  have hu0 : SameButSpan s u0 := by
    dsimp only [u0]
    exact State.modTime_sameButSpan ..
  clear_value u0
  have hu1 : SameButSpan s u1 := by
    dsimp only [u1]
    refine SameButSpan.trans ?_ (State.setTai_sameButSpan ..)
    assumption
  clear_value u1
  have hu2 : SameButSpan s u2 := by
    dsimp only [u2]
    split
    · refine SameButSpan.trans ?_ (State.announce_sameButSpan ..)
      assumption
    · assumption
  clear_value u2
  refine SameButSpan.trans ?_ (State.checkQuality_sameButSpan ..)
  assumption

theorem State.sendMarker_sameButSpan (s : State) (skip : Nat) (m : Marker) :
    SameButSpan s (State.sendMarker s skip m) := by
  unfold State.sendMarker
  refine SameButSpan.each ?_ (fun t x => ?_)
  · exact SameButSpan.refl _
  · exact State.sendOn_sameButSpan ..

theorem State.noteMarker_sameButSpan (s : State) (m : Marker) : SameButSpan s (State.noteMarker s m) := by
  unfold State.noteMarker
  extract_lets u0
  have hu0 : SameButSpan s u0 := by
    dsimp only [u0]
    split
    · exact SameButSpan.refl _
    · exact State.note_sameButSpan ..
  clear_value u0
  refine SameButSpan.trans ?_ (State.modTick_sameButSpan ..)
  assumption

theorem State.emit_sameButSpan (s : State) (tick attempt verdict : Nat) (fresh : Bool) :
    SameButSpan s (State.emit s tick attempt verdict fresh) := by
  unfold State.emit
  extract_lets u0 u1 k0
  clear_value k0
  have hu0 : SameButSpan s u0 := by
    dsimp only [u0]
    refine SameButSpan.trans ?_ (State.applyVerdict_sameButSpan ..)
    exact State.tickStart_sameButSpan ..
  clear_value u0
  have hu1 : SameButSpan s u1 := by
    dsimp only [u1]
    split
    · refine SameButSpan.trans ?_ (State.startNow_sameButSpan ..)
      assumption
    · refine SameButSpan.trans ?_ (State.keystoneTai_sameButSpan ..)
      assumption
  clear_value u1
  split
  · assumption
  · refine SameButSpan.trans ?_ (State.sendMarker_sameButSpan ..)
    refine SameButSpan.trans ?_ (State.noteMarker_sameButSpan ..)
    assumption

theorem State.powerState_sameButSpan (s : State) (x : PowerState) : SameButSpan s (State.powerState s x) := by
  unfold State.powerState
  refine SameButSpan.trans ?_ (State.event_sameButSpan ..)
  exact State.modPower_sameButSpan ..

theorem State.enterDoze_sameButSpan (s : State) : SameButSpan s (State.enterDoze s) := by
  unfold State.enterDoze
  split
  · refine SameButSpan.trans ?_ (State.powerState_sameButSpan ..)
    exact State.cnt_sameButSpan ..
  · exact SameButSpan.refl _

theorem State.startDoze_sameButSpan (s : State) : SameButSpan s (State.startDoze s) := by
  unfold State.startDoze
  refine SameButSpan.trans ?_ (State.enterDoze_sameButSpan ..)
  refine SameButSpan.trans ?_ (State.tellAll_sameButSpan ..)
  exact State.modPower_sameButSpan ..

theorem State.dozeNow_sameButSpan (s : State) : SameButSpan s (State.dozeNow s) := by
  unfold State.dozeNow
  split
  · exact State.startDoze_sameButSpan ..
  · exact SameButSpan.refl _

theorem State.keystoneTick_sameButSpan (s : State) : SameButSpan s (State.keystoneTick s) := by
  unfold State.keystoneTick
  split
  · extract_lets u0
    have hu0 : SameButSpan s u0 := by
      dsimp only [u0]
      split
      · exact State.voteDeadline_sameButSpan ..
      · exact SameButSpan.refl _
    clear_value u0
    split
    · refine SameButSpan.trans ?_ (State.emit_sameButSpan ..)
      assumption
    · refine SameButSpan.trans ?_ (State.dozeNow_sameButSpan ..)
      refine SameButSpan.trans ?_ (State.emit_sameButSpan ..)
      assumption
    · refine SameButSpan.trans ?_ (State.emit_sameButSpan ..)
      assumption
  · split
    · refine SameButSpan.trans ?_ (State.emit_sameButSpan ..)
      exact State.modTick_sameButSpan ..
    · exact State.emit_sameButSpan ..
  · split
    · refine SameButSpan.trans ?_ (State.sendMarker_sameButSpan ..)
      exact State.modTick_sameButSpan ..
    · exact SameButSpan.refl _
  · split
    · refine SameButSpan.trans ?_ (State.sendMarker_sameButSpan ..)
      exact State.modTick_sameButSpan ..
    · exact SameButSpan.refl _
  · exact SameButSpan.refl _

theorem State.sendHalt_sameButSpan (s : State) : SameButSpan s (State.sendHalt s) := by
  unfold State.sendHalt
  exact State.sendVote_sameButSpan ..

theorem execLocalTickStart_sameButSpanRes (s : State) : SameButSpanRes s (execLocalTickStart s) := by
  unfold execLocalTickStart
  refine SameButSpanRes.next ?_
  split
  · exact SameButSpan.refl _
  · split
    · exact State.keystoneTick_sameButSpan ..
    · split
      · exact State.tickStart_sameButSpan ..
      · exact State.tickStart_sameButSpan ..
      · exact State.tickStart_sameButSpan ..
      · split
        · refine SameButSpan.trans ?_ (State.sendHalt_sameButSpan ..)
          exact State.modTick_sameButSpan ..
        · exact SameButSpan.refl _
      · split
        · refine SameButSpan.trans ?_ (State.sendHalt_sameButSpan ..)
          exact State.modTick_sameButSpan ..
        · exact SameButSpan.refl _
      · exact SameButSpan.refl _

theorem State.followEpoch_sameButSpan (s : State) (m : Marker) : SameButSpan s (State.followEpoch s m) := by
  unfold State.followEpoch
  split
  · exact State.modTick_sameButSpan ..
  · exact SameButSpan.refl _

theorem State.forwardMarker_sameButSpan (s : State) (p : Nat) (m : Marker) :
    SameButSpan s (State.forwardMarker s p m) := by
  unfold State.forwardMarker
  split
  · exact SameButSpan.refl _
  · refine SameButSpan.trans ?_ (State.draw_sameButSpan ..)
    exact State.sendMarker_sameButSpan ..

theorem State.countLate_sameButSpan (s : State) (late : Int) : SameButSpan s (State.countLate s late) := by
  unfold State.countLate
  extract_lets k0
  clear_value k0
  split
  · exact SameButSpan.refl _
  · exact State.cnt_sameButSpan ..

theorem State.markerTai_sameButSpan (s : State) (m : Marker) : SameButSpan s (State.markerTai s m) := by
  unfold State.markerTai
  extract_lets k0 u0
  clear_value k0
  have hu0 : SameButSpan s u0 := by
    dsimp only [u0]
    exact State.modTime_sameButSpan ..
  clear_value u0
  refine SameButSpan.trans ?_ (State.setTai_sameButSpan ..)
  assumption

theorem State.takeMarker_sameButSpan (s : State) (late : Int) (m : Marker) :
    SameButSpan s (State.takeMarker s late m) := by
  unfold State.takeMarker
  extract_lets u0
  have hu0 : SameButSpan s u0 := by
    dsimp only [u0]
    refine SameButSpan.trans ?_ (State.applyVerdict_sameButSpan ..)
    exact State.countLate_sameButSpan ..
  clear_value u0
  split
  · assumption
  · refine SameButSpan.trans ?_ (State.modTick_sameButSpan ..)
    refine SameButSpan.trans ?_ (State.noteMarker_sameButSpan ..)
    refine SameButSpan.trans ?_ (State.markerTai_sameButSpan ..)
    assumption

theorem State.freeBlocks_sameButSpan (s : State) : SameButSpan s (State.freeBlocks s) := by
  unfold State.freeBlocks
  refine SameButSpan.mk ?_
  exact SameButSpan.refl _

theorem State.logTogether_sameButSpan (s : State) (l : List (Nat × Viol)) : SameButSpan s (State.logTogether s l)
    := by
  unfold State.logTogether
  refine SameButSpan.each ?_ (fun t x => ?_)
  · exact SameButSpan.refl _
  · split
    · exact SameButSpan.refl _
    · exact State.violateAll_sameButSpan ..

theorem State.slotsOver_sameButSpan (s : State) : SameButSpan s (State.slotsOver s) := by
  unfold State.slotsOver
  exact State.modFab_sameButSpan ..

theorem State.sealFaults_sameButSpan (s : State) : SameButSpan s (State.sealFaults s) := by
  unfold State.sealFaults
  extract_lets u0
  have hu0 : SameButSpan s u0 := by
    dsimp only [u0]
    refine SameButSpan.each ?_ (fun t x => ?_)
    · exact State.logTogether_sameButSpan ..
    · exact State.sealFault_sameButSpan ..
  clear_value u0
  refine SameButSpan.trans ?_ (State.modSvc_sameButSpan ..)
  refine SameButSpan.trans ?_ (State.slotsOver_sameButSpan ..)
  refine SameButSpan.trans ?_ (State.cnt_sameButSpan ..)
  assumption

theorem State.noteOverruns_sameButSpan (s : State) : SameButSpan s (State.noteOverruns s) := by
  unfold State.noteOverruns
  refine SameButSpan.each ?_ (fun t x => ?_)
  · exact SameButSpan.refl _
  · split
    · split
      · exact State.modQuarter_sameButSpan ..
      · exact SameButSpan.refl _
    · exact SameButSpan.refl _

theorem State.overrunSteps_sameButSpan (s : State) : SameButSpan s (State.overrunSteps s) := by
  unfold State.overrunSteps
  refine SameButSpan.each ?_ (fun t x => ?_)
  · exact SameButSpan.refl _
  · split
    · refine SameButSpan.trans ?_ (State.stepUp_sameButSpan ..)
      exact State.modQuarter_sameButSpan ..
    · exact SameButSpan.refl _

theorem State.tryVote_sameButSpan (s : State) : SameButSpan s (State.tryVote s) := by
  unfold State.tryVote
  split
  · exact State.sendUp_sameButSpan ..
  · exact SameButSpan.refl _

theorem State.localVerdict_sameButSpan (s : State) : SameButSpan s (State.localVerdict s) := by
  unfold State.localVerdict
  extract_lets u0 u1
  have hu0 : SameButSpan s u0 := by
    dsimp only [u0]
    refine SameButSpan.trans ?_ (State.freeBlocks_sameButSpan ..)
    exact State.sealFaults_sameButSpan ..
  clear_value u0
  have hu1 : SameButSpan s u1 := by
    dsimp only [u1]
    refine SameButSpan.trans ?_ (State.noteOverruns_sameButSpan ..)
    refine SameButSpan.trans ?_ (State.overrunSteps_sameButSpan ..)
    assumption
  clear_value u1
  refine SameButSpan.trans ?_ (State.tryVote_sameButSpan ..)
  refine SameButSpan.trans ?_ (State.modTick_sameButSpan ..)
  refine SameButSpan.trans ?_ (State.countFails_sameButSpan ..)
  assumption

theorem State.portState_sameButSpan (s : State) (p : Nat) (x : PortState) : SameButSpan s (State.portState s p x)
    := by
  unfold State.portState
  extract_lets u0
  have hu0 : SameButSpan s u0 := by
    dsimp only [u0]
    exact State.modPort_sameButSpan ..
  clear_value u0
  split
  · refine SameButSpan.trans ?_ (State.event_sameButSpan ..)
    assumption
  · assumption

theorem State.backoff_sameButSpan (s : State) (p reason : Nat) : SameButSpan s (State.backoff s p reason) := by
  unfold State.backoff
  refine SameButSpan.trans ?_ (State.portState_sameButSpan ..)
  exact State.modPort_sameButSpan ..

theorem State.sendSecure_sameButSpan (s : State) (p : Nat) (c : Content) : SameButSpan s (State.sendSecure s p c)
    := by
  unfold State.sendSecure
  refine SameButSpan.trans ?_ (State.transmit_sameButSpan ..)
  exact State.modSeq_sameButSpan ..

theorem State.startExchange_sameButSpan (s : State) (p : Nat) : SameButSpan s (State.startExchange s p) := by
  unfold State.startExchange
  extract_lets k0 k1
  clear_value k0 k1
  split
  · exact State.backoff_sameButSpan ..
  · refine SameButSpan.trans ?_ (State.sendSecure_sameButSpan ..)
    refine SameButSpan.trans ?_ (State.draw_sameButSpan ..)
    exact State.modPort_sameButSpan ..

theorem State.beginRekey_sameButSpan (s : State) (p : Nat) : SameButSpan s (State.beginRekey s p) := by
  unfold State.beginRekey
  split
  · exact SameButSpan.refl _
  · refine SameButSpan.trans ?_ (State.startExchange_sameButSpan ..)
    exact State.modPort_sameButSpan ..

theorem State.dueRekey_sameButSpan (s : State) : SameButSpan s (State.dueRekey s) := by
  unfold State.dueRekey
  refine SameButSpan.each ?_ (fun t x => ?_)
  · exact SameButSpan.refl _
  · exact State.beginRekey_sameButSpan ..

theorem State.sendStatus_sameButSpan (s : State) (p : Nat) : SameButSpan s (State.sendStatus s p) := by
  unfold State.sendStatus
  refine SameButSpan.trans ?_ (State.modPort_sameButSpan ..)
  exact State.sendOn_sameButSpan ..

theorem State.dueStatus_sameButSpan (s : State) : SameButSpan s (State.dueStatus s) := by
  unfold State.dueStatus
  refine SameButSpan.each ?_ (fun t x => ?_)
  · exact SameButSpan.refl _
  · exact State.sendStatus_sameButSpan ..

theorem State.prbsLane_sameButSpan (s : State) (p n l : Nat) : SameButSpan s (State.prbsLane s p n l) := by
  unfold State.prbsLane
  extract_lets k0 k1
  clear_value k0 k1
  refine SameButSpan.trans ?_ (State.draw_sameButSpan ..)
  refine SameButSpan.when ?_ (fun t => ?_)
  · refine SameButSpan.trans ?_ (State.wr_sameButSpan ..)
    exact State.wr_sameButSpan ..
  · exact State.cnt_sameButSpan ..

theorem State.prbsRun_sameButSpan (s : State) (n : Nat) : SameButSpan s (State.prbsRun s n) := by
  unfold State.prbsRun
  refine SameButSpan.each ?_ (fun t x => ?_)
  · exact SameButSpan.refl _
  · refine SameButSpan.each ?_ (fun t x => ?_)
    · exact SameButSpan.refl _
    · exact State.prbsLane_sameButSpan ..

theorem State.clusterClk_sameButSpan (s : State) (c d : Nat) : SameButSpan s (State.clusterClk s c d) := by
  unfold State.clusterClk
  extract_lets k0
  clear_value k0
  refine SameButSpan.trans ?_ (State.setCluster_sameButSpan ..)
  refine SameButSpan.when ?_ (fun t => ?_)
  · refine SameButSpan.when ?_ (fun t => ?_)
    · exact SameButSpan.refl _
    · exact State.cnt_sameButSpan ..
  · exact State.cnt_sameButSpan ..

theorem State.quarterNs_sameButSpan (s : State) (q n : Nat) : SameButSpan s (State.quarterNs s q n) := by
  unfold State.quarterNs
  extract_lets k0 k1 k2 u0
  clear_value k0 k1 k2
  have hu0 : SameButSpan s u0 := by
    dsimp only [u0]
    exact State.modQuarter_sameButSpan ..
  clear_value u0
  refine SameButSpan.each ?_ (fun t x => ?_)
  · refine SameButSpan.when ?_ (fun t => ?_)
    · assumption
    · exact State.cnt_sameButSpan ..
  · exact State.clusterClk_sameButSpan ..

theorem State.pass_sameButSpan (s : State) (n : Nat) : SameButSpan s (State.pass s n) := by
  unfold State.pass
  extract_lets u0 u1 k0 u2
  clear_value k0
  have hu0 : SameButSpan s u0 := by
    dsimp only [u0]
    split
    · exact SameButSpan.refl _
    · exact State.modTick_sameButSpan ..
  clear_value u0
  have hu1 : SameButSpan s u1 := by
    dsimp only [u1]
    refine SameButSpan.trans ?_ (State.modTime_sameButSpan ..)
    refine SameButSpan.trans ?_ (State.setTai_sameButSpan ..)
    assumption
  clear_value u1
  have hu2 : SameButSpan s u2 := by
    dsimp only [u2]
    refine SameButSpan.mk ?_
    assumption
  clear_value u2
  refine SameButSpan.trans ?_ (State.dueRekey_sameButSpan ..)
  refine SameButSpan.trans ?_ (State.dueStatus_sameButSpan ..)
  refine SameButSpan.trans ?_ (State.prbsRun_sameButSpan ..)
  split
  · refine SameButSpan.each ?_ (fun t x => ?_)
    · assumption
    · exact State.quarterNs_sameButSpan ..
  · assumption

theorem State.passTo_sameButSpan (s : State) (ns : Nat) : SameButSpan s (State.passTo s ns) := by
  unfold State.passTo
  split
  · exact State.pass_sameButSpan ..
  · exact SameButSpan.refl _

theorem State.stretchMarker_sameButSpan (s : State) (late : Int) (m : Marker) :
    SameButSpan s (State.stretchMarker s late m) := by
  unfold State.stretchMarker
  split
  · exact SameButSpan.refl _
  · split
    · refine SameButSpan.trans ?_ (State.takeMarker_sameButSpan ..)
      exact State.tickStart_sameButSpan ..
    · extract_lets u0
      have hu0 : SameButSpan s u0 := by
        dsimp only [u0]
        exact State.modTick_sameButSpan ..
      clear_value u0
      split
      · refine SameButSpan.trans ?_ (State.localVerdict_sameButSpan ..)
        refine SameButSpan.trans ?_ (State.passTo_sameButSpan ..)
        assumption
      · assumption

theorem State.takeLate_sameButSpan (s : State) (late : Int) (m : Marker) : SameButSpan s (State.takeLate s late m)
    := by
  unfold State.takeLate
  extract_lets u0
  have hu0 : SameButSpan s u0 := by
    dsimp only [u0]
    exact State.takeMarker_sameButSpan ..
  clear_value u0
  split
  · refine SameButSpan.trans ?_ (State.modTick_sameButSpan ..)
    assumption
  · assumption

theorem State.acceptMarker_sameButSpan (s : State) (late : Int) (m : Marker) :
    SameButSpan s (State.acceptMarker s late m) := by
  unfold State.acceptMarker
  split
  · split
    · exact SameButSpan.refl _
    · exact State.takeMarker_sameButSpan ..
  · split
    · exact State.stretchMarker_sameButSpan ..
    · exact SameButSpan.refl _
  · split
    · exact State.stretchMarker_sameButSpan ..
    · exact SameButSpan.refl _
  · split
    · refine SameButSpan.trans ?_ (State.takeMarker_sameButSpan ..)
      exact State.tickStart_sameButSpan ..
    · split
      · exact SameButSpan.refl _
      · exact State.takeLate_sameButSpan ..
  · refine SameButSpan.trans ?_ (State.takeMarker_sameButSpan ..)
    exact State.tickStart_sameButSpan ..
  · refine SameButSpan.trans ?_ (State.takeMarker_sameButSpan ..)
    exact State.tickStart_sameButSpan ..

theorem State.markerIn_sameButSpan (s : State) (p : Nat) (arrived : Int) (m : Marker) :
    SameButSpan s (State.markerIn s p arrived m) := by
  unfold State.markerIn
  split
  · exact State.violate_sameButSpan ..
  · extract_lets u0 k0 u1
    clear_value k0
    have hu0 : SameButSpan s u0 := by
      dsimp only [u0]
      exact State.followEpoch_sameButSpan ..
    clear_value u0
    have hu1 : SameButSpan s u1 := by
      dsimp only [u1]
      refine SameButSpan.trans ?_ (State.modTick_sameButSpan ..)
      assumption
    clear_value u1
    split
    · assumption
    · split
      · split
        · refine SameButSpan.trans ?_ (State.forwardMarker_sameButSpan ..)
          assumption
        · refine SameButSpan.trans ?_ (State.forwardMarker_sameButSpan ..)
          refine SameButSpan.trans ?_ (State.acceptMarker_sameButSpan ..)
          assumption
      · refine SameButSpan.trans ?_ (State.modTick_sameButSpan ..)
        assumption

theorem State.codeword_sameButSpan (s : State) (p : Nat) (errs : List Nat) : SameButSpan s (State.codeword s p
    errs) := by
  unfold State.codeword
  extract_lets k0 k1 u0 k2
  clear_value k0 k1 k2
  have hu0 : SameButSpan s u0 := by
    dsimp only [u0]
    split
    · split
      · exact SameButSpan.refl _
      · refine SameButSpan.trans ?_ (State.wr_sameButSpan ..)
        exact State.wr_sameButSpan ..
    · exact State.wr_sameButSpan ..
  clear_value u0
  split
  · assumption
  · split
    · refine SameButSpan.trans ?_ (State.modPort_sameButSpan ..)
      refine SameButSpan.trans ?_ (State.cnt_sameButSpan ..)
      assumption
    · refine SameButSpan.each ?_ (fun t x => ?_)
      · refine SameButSpan.trans ?_ (State.cnt_sameButSpan ..)
        refine SameButSpan.trans ?_ (State.cnt_sameButSpan ..)
        assumption
      · exact State.cnt_sameButSpan ..

theorem State.codeBlock_sameButSpan (s : State) (p : Nat) (b : CwBlock) : SameButSpan s (State.codeBlock s p b) := by
  unfold State.codeBlock
  split
  · exact SameButSpan.refl _
  · refine SameButSpan.each ?_ (fun t x => ?_)
    · exact State.modPort_sameButSpan ..
    · exact State.codeword_sameButSpan ..

theorem State.takeBlocks_sameButSpan (s : State) (p : Nat) (l : Codewords) :
    SameButSpan s (State.takeBlocks s p l) := by
  unfold State.takeBlocks
  refine SameButSpan.each ?_ (fun t x => ?_)
  · exact SameButSpan.refl _
  · exact State.codeBlock_sameButSpan ..

theorem State.fencePort_sameButSpan (s : State) (p : Nat) : SameButSpan s (State.fencePort s p) := by
  unfold State.fencePort
  extract_lets k0 u0
  clear_value k0
  have hu0 : SameButSpan s u0 := by
    dsimp only [u0]
    refine SameButSpan.trans ?_ (State.event_sameButSpan ..)
    refine SameButSpan.trans ?_ (State.modPort_sameButSpan ..)
    exact State.cnt_sameButSpan ..
  clear_value u0
  split
  · refine SameButSpan.trans ?_ (State.event_sameButSpan ..)
    assumption
  · assumption

theorem State.authFail_sameButSpan (s : State) (p : Nat) : SameButSpan s (State.authFail s p) := by
  unfold State.authFail
  extract_lets k0 u0
  clear_value k0
  have hu0 : SameButSpan s u0 := by
    dsimp only [u0]
    refine SameButSpan.trans ?_ (State.modPort_sameButSpan ..)
    exact State.cnt_sameButSpan ..
  clear_value u0
  split
  · assumption
  · refine SameButSpan.trans ?_ (State.fencePort_sameButSpan ..)
    assumption

theorem State.accept_sameButSpanFst (s : State) (p cls q : Nat) (old : Bool) :
    SameButSpan s (State.accept s p cls q old).1 := by
  unfold State.accept
  extract_lets k0 k1
  clear_value k0 k1
  split
  · dsimp only
    exact State.cnt_sameButSpan ..
  · extract_lets u0 u1
    have hu0 : SameButSpan s u0 := by
      dsimp only [u0]
      split
      · exact State.modPort_sameButSpan ..
      · refine SameButSpan.trans ?_ (State.modPort_sameButSpan ..)
        exact State.modSeq_sameButSpan ..
    clear_value u0
    have hu1 : SameButSpan s u1 := by
      dsimp only [u1]
      refine SameButSpan.when ?_ (fun t => ?_)
      · assumption
      · exact State.sendOn_sameButSpan ..
    clear_value u1
    dsimp only
    refine SameButSpan.when ?_ (fun t => ?_)
    · assumption
    · exact State.release_sameButSpan ..

theorem State.turnKey_sameButSpan (s : State) (p : Nat) : SameButSpan s (State.turnKey s p) := by
  unfold State.turnKey
  exact State.modPort_sameButSpan ..

theorem State.receive_sameButSpanFst (s : State) (p cls : Nat) (a : Arrival) :
    SameButSpan s (State.receive s p cls a).1 := by
  unfold State.receive
  split
  · dsimp only
    exact SameButSpan.refl _
  · extract_lets u0 k0 k1 k2
    clear_value k0 k1 k2
    have hu0 : SameButSpan s u0 := by
      dsimp only [u0]
      exact State.takeBlocks_sameButSpan ..
    clear_value u0
    split
    · dsimp only
      assumption
    · split
      · dsimp only
        assumption
      · split
        · dsimp only
          refine SameButSpan.trans ?_ (State.authFail_sameButSpan ..)
          assumption
        · refine SameButSpan.trans ?_ (State.accept_sameButSpanFst ..)
          refine SameButSpan.when ?_ (fun t => ?_)
          · assumption
          · exact State.turnKey_sameButSpan ..

theorem execMarker_sameButSpanRes (port : Fin 16) (a : Arrival) (arrived : Int) (m : Marker) (s : State) :
    SameButSpanRes s (execMarker port a arrived m s) := by
  unfold execMarker
  refine SameButSpanRes.next ?_
  split
  · refine SameButSpan.trans ?_ (State.markerIn_sameButSpan ..)
    rename_i hq
    have hk := congrArg Prod.fst hq
    dsimp only at hk
    rw [← hk]
    exact State.receive_sameButSpanFst ..
  · split
    · refine SameButSpan.trans ?_ (State.modTick_sameButSpan ..)
      rename_i hq _
      have hk := congrArg Prod.fst hq
      dsimp only at hk
      rw [← hk]
      exact State.receive_sameButSpanFst ..
    · rename_i hq _
      have hk := congrArg Prod.fst hq
      dsimp only at hk
      rw [← hk]
      exact State.receive_sameButSpanFst ..
  · rename_i hq
    have hk := congrArg Prod.fst hq
    dsimp only at hk
    rw [← hk]
    exact State.receive_sameButSpanFst ..

theorem State.takeoverTime_sameButSpan (s : State) : SameButSpan s (State.takeoverTime s) := by
  unfold State.takeoverTime
  extract_lets k0 u0
  clear_value k0
  have hu0 : SameButSpan s u0 := by
    dsimp only [u0]
    exact State.modTime_sameButSpan ..
  clear_value u0
  refine SameButSpan.trans ?_ (State.announce_sameButSpan ..)
  assumption

theorem State.takeOver_sameButSpan (s : State) : SameButSpan s (State.takeOver s) := by
  unfold State.takeOver
  extract_lets k0 u0
  clear_value k0
  have hu0 : SameButSpan s u0 := by
    dsimp only [u0]
    exact State.modTick_sameButSpan ..
  clear_value u0
  refine SameButSpan.trans ?_ (State.emit_sameButSpan ..)
  refine SameButSpan.trans ?_ (State.takeoverTime_sameButSpan ..)
  assumption

theorem execKeystoneTakeover_sameButSpanRes (s : State) : SameButSpanRes s (execKeystoneTakeover s) := by
  unfold execKeystoneTakeover
  refine SameButSpanRes.next ?_
  split
  · extract_lets u0
    have hu0 : SameButSpan s u0 := by
      dsimp only [u0]
      split
      · exact State.tickStart_sameButSpan ..
      · exact SameButSpan.refl _
    clear_value u0
    refine SameButSpan.trans ?_ (State.note_sameButSpan ..)
    refine SameButSpan.trans ?_ (State.event_sameButSpan ..)
    refine SameButSpan.trans ?_ (State.takeOver_sameButSpan ..)
    assumption
  · exact SameButSpan.refl _

theorem State.raiseNow_sameButSpan (s : State) (q : Nat) : SameButSpan s (State.raiseNow s q) := by
  unfold State.raiseNow
  extract_lets k0
  clear_value k0
  split
  · exact SameButSpan.refl _
  · split
    · exact SameButSpan.refl _
    · exact State.modQuarter_sameButSpan ..

theorem State.tryStart_sameButSpan (s : State) : SameButSpan s (State.tryStart s) := by
  unfold State.tryStart
  split
  · extract_lets u0
    have hu0 : SameButSpan s u0 := by
      dsimp only [u0]
      exact State.modTick_sameButSpan ..
    clear_value u0
    split
    · refine SameButSpan.trans ?_ (State.takeOver_sameButSpan ..)
      assumption
    · refine SameButSpan.trans ?_ (State.emit_sameButSpan ..)
      refine SameButSpan.trans ?_ (State.modTick_sameButSpan ..)
      assumption
  · exact SameButSpan.refl _

theorem State.seekFloor_sameButSpan (s : State) : SameButSpan s (State.seekFloor s) := by
  unfold State.seekFloor
  refine SameButSpan.each ?_ (fun t x => ?_)
  · exact SameButSpan.refl _
  · split
    · exact State.stepUp_sameButSpan ..
    · exact SameButSpan.refl _

theorem execVoltageReached_sameButSpanRes (q : Fin 4) (s : State) : SameButSpanRes s (execVoltageReached q s) := by
  unfold execVoltageReached
  extract_lets u0 u1
  have hu0 : SameButSpan s u0 := by
    dsimp only [u0]
    exact State.modQuarter_sameButSpan ..
  clear_value u0
  have hu1 : SameButSpan s u1 := by
    dsimp only [u1]
    refine SameButSpan.trans ?_ (State.raiseNow_sameButSpan ..)
    assumption
  clear_value u1
  refine SameButSpanRes.next ?_
  split
  · assumption
  · split
    · assumption
    · refine SameButSpan.trans ?_ (State.tryStart_sameButSpan ..)
      refine SameButSpan.trans ?_ (State.seekFloor_sameButSpan ..)
      assumption

theorem State.wakeRails_sameButSpan (s : State) : SameButSpan s (State.wakeRails s) := by
  unfold State.wakeRails
  refine SameButSpan.trans ?_ (State.powerState_sameButSpan ..)
  refine SameButSpan.each ?_ (fun t x => ?_)
  · exact State.send_sameButSpan ..
  · refine SameButSpan.trans ?_ (State.avsWrite_sameButSpan ..)
    exact State.modQuarter_sameButSpan ..

theorem execWakeComplete_sameButSpanRes (s : State) : SameButSpanRes s (execWakeComplete s) := by
  unfold execWakeComplete
  refine SameButSpanRes.next ?_
  split
  · exact SameButSpan.refl _
  · extract_lets k0 u0
    clear_value k0
    have hu0 : SameButSpan s u0 := by
      dsimp only [u0]
      refine SameButSpan.each ?_ (fun t x => ?_)
      · exact State.pass_sameButSpan ..
      · exact State.withdrawNow_sameButSpan ..
    clear_value u0
    refine SameButSpan.trans ?_ (State.tryStart_sameButSpan ..)
    refine SameButSpan.trans ?_ (State.wakeRails_sameButSpan ..)
    refine SameButSpan.trans ?_ (State.modTick_sameButSpan ..)
    assumption

end Sys2Proof.Machine
end

