-- ==== Sys2Proof/Laws/SameButTick.lean ====
section
/-!
SUPPORT. The operations and commands that leave what `SameButTick` names.
-/
namespace Sys2Proof.Machine

theorem State.modTick_sameButTick (s : State) (f : Tick → Tick) : SameButTick s (State.modTick s f) := by
  unfold State.modTick
  refine SameButTick.mk ?_
  exact SameButTick.refl _

theorem State.modTime_sameButTick (s : State) (f : TimeUnit → TimeUnit) : SameButTick s (State.modTime s f) := by
  unfold State.modTime
  refine SameButTick.mk ?_
  exact SameButTick.refl _

theorem State.setTai_sameButTick (s : State) (x : Int) : SameButTick s (State.setTai s x) := by
  unfold State.setTai
  exact State.modTime_sameButTick ..

theorem State.modPort_sameButTick (s : State) (p : Nat) (f : Port → Port) : SameButTick s (State.modPort s p f) := by
  unfold State.modPort
  refine SameButTick.mk ?_
  exact SameButTick.refl _

theorem State.setHdr_sameButTick (s : State) (pg off v : Nat) : SameButTick s (State.setHdr s pg off v) := by
  unfold State.setHdr
  refine SameButTick.mk ?_
  exact SameButTick.refl _

theorem State.modSvc_sameButTick (s : State) (f : Service → Service) : SameButTick s (State.modSvc s f) := by
  unfold State.modSvc
  refine SameButTick.mk ?_
  exact SameButTick.refl _

theorem State.freeId_sameButTick (s : State) (id : Nat) : SameButTick s (State.freeId s id) := by
  unfold State.freeId
  exact State.modSvc_sameButTick ..

theorem State.freeOf_sameButTick (s : State) (o : HostOut) : SameButTick s (State.freeOf s o) := by
  unfold State.freeOf
  split
  · exact State.freeId_sameButTick ..
  · exact SameButTick.refl _

theorem State.modHost_sameButTick (s : State) (f : HostPort → HostPort) : SameButTick s (State.modHost s f) := by
  unfold State.modHost
  refine SameButTick.mk ?_
  exact SameButTick.refl _

theorem State.send_sameButTick (s : State) (o : Out) : SameButTick s (State.send s o) := by
  exact SameButTick.refl _

theorem State.post_sameButTick (s : State) (o : HostOut) : SameButTick s (State.post s o) := by
  unfold State.post
  refine SameButTick.trans ?_ (State.freeOf_sameButTick ..)
  exact State.send_sameButTick ..

theorem State.toHost_sameButTick (s : State) (o : HostOut) : SameButTick s (State.toHost s o) := by
  unfold State.toHost
  split
  · exact State.freeOf_sameButTick ..
  · split
    · exact State.modHost_sameButTick ..
    · exact State.post_sameButTick ..

theorem State.modFn_sameButTick (s : State) (n : Nat) (f : Function → Function) :
    SameButTick s (State.modFn s n f) := by
  unfold State.modFn
  refine SameButTick.mk ?_
  exact SameButTick.refl _

theorem State.msix_sameButTick (s : State) (fn v : Nat) : SameButTick s (State.msix s fn v) := by
  unfold State.msix
  split
  · exact State.toHost_sameButTick ..
  · exact State.modFn_sameButTick ..

theorem State.routeSend_sameButTick (s : State) (t : Nat) : SameButTick s (State.routeSend s t) := by
  unfold State.routeSend
  extract_lets k0
  clear_value k0
  split
  · refine SameButTick.trans ?_ (State.modHost_sameButTick ..)
    exact State.msix_sameButTick ..
  · exact SameButTick.refl _

theorem State.setIrq_sameButTick (s : State) (pg off v : Nat) : SameButTick s (State.setIrq s pg off v) := by
  unfold State.setIrq
  extract_lets u0 k0
  clear_value k0
  have hu0 : SameButTick s u0 := by
    dsimp only [u0]
    exact State.setHdr_sameButTick ..
  clear_value u0
  split
  · split
    · refine SameButTick.trans ?_ (State.msix_sameButTick ..)
      assumption
    · assumption
  · split
    · extract_lets k1
      clear_value k1
      split
      · refine SameButTick.trans ?_ (State.routeSend_sameButTick ..)
        assumption
      · assumption
    · assumption

theorem State.irq_sameButTick (s : State) (pg m : Nat) : SameButTick s (State.irq s pg m) := by
  unfold State.irq
  exact State.setIrq_sameButTick ..

theorem State.event_sameButTick (s : State) (p : PageType) (i n : Nat) : SameButTick s (State.event s p i n) := by
  unfold State.event
  exact State.irq_sameButTick ..

theorem State.portState_sameButTick (s : State) (p : Nat) (x : PortState) : SameButTick s (State.portState s p x)
    := by
  unfold State.portState
  extract_lets u0
  have hu0 : SameButTick s u0 := by
    dsimp only [u0]
    exact State.modPort_sameButTick ..
  clear_value u0
  split
  · refine SameButTick.trans ?_ (State.event_sameButTick ..)
    assumption
  · assumption

theorem State.backoff_sameButTick (s : State) (p reason : Nat) : SameButTick s (State.backoff s p reason) := by
  unfold State.backoff
  refine SameButTick.trans ?_ (State.portState_sameButTick ..)
  exact State.modPort_sameButTick ..

theorem State.transmit_sameButTick (s : State) (p : Nat) (f : Frame) : SameButTick s (State.transmit s p f) := by
  unfold State.transmit
  split
  · exact State.send_sameButTick ..
  · exact SameButTick.refl _

theorem State.modSeq_sameButTick (s : State) (p cls : Nat) (f : ClassSeq → ClassSeq) :
    SameButTick s (State.modSeq s p cls f) := by
  unfold State.modSeq
  exact State.modPort_sameButTick ..

theorem State.sendSecure_sameButTick (s : State) (p : Nat) (c : Content) : SameButTick s (State.sendSecure s p c)
    := by
  unfold State.sendSecure
  refine SameButTick.trans ?_ (State.transmit_sameButTick ..)
  exact State.modSeq_sameButTick ..

theorem State.draw_sameButTick (s : State) : SameButTick s (State.draw s) := by
  unfold State.draw
  refine SameButTick.mk ?_
  exact SameButTick.refl _

theorem State.startExchange_sameButTick (s : State) (p : Nat) : SameButTick s (State.startExchange s p) := by
  unfold State.startExchange
  extract_lets k0 k1
  clear_value k0 k1
  split
  · exact State.backoff_sameButTick ..
  · refine SameButTick.trans ?_ (State.sendSecure_sameButTick ..)
    refine SameButTick.trans ?_ (State.draw_sameButTick ..)
    exact State.modPort_sameButTick ..

theorem State.beginRekey_sameButTick (s : State) (p : Nat) : SameButTick s (State.beginRekey s p) := by
  unfold State.beginRekey
  split
  · exact SameButTick.refl _
  · refine SameButTick.trans ?_ (State.startExchange_sameButTick ..)
    exact State.modPort_sameButTick ..

theorem State.dueRekey_sameButTick (s : State) : SameButTick s (State.dueRekey s) := by
  unfold State.dueRekey
  refine SameButTick.each ?_ (fun t x => ?_)
  · exact SameButTick.refl _
  · exact State.beginRekey_sameButTick ..

theorem State.spend_sameButTick (s : State) (p pool n : Nat) : SameButTick s (State.spend s p pool n) := by
  unfold State.spend
  exact State.modPort_sameButTick ..

theorem State.sendNow_sameButTick (s : State) (p : Nat) (c : Content) : SameButTick s (State.sendNow s p c) := by
  unfold State.sendNow
  extract_lets k0 u0
  clear_value k0
  have hu0 : SameButTick s u0 := by
    dsimp only [u0]
    exact State.modSeq_sameButTick ..
  clear_value u0
  refine SameButTick.trans ?_ (State.transmit_sameButTick ..)
  refine SameButTick.when ?_ (fun t => ?_)
  · assumption
  · exact State.spend_sameButTick ..

theorem State.sendOn_sameButTick (s : State) (p : Nat) (c : Content) : SameButTick s (State.sendOn s p c) := by
  unfold State.sendOn
  split
  · exact SameButTick.refl _
  · split
    · exact State.sendNow_sameButTick ..
    · exact State.modSeq_sameButTick ..

theorem State.sendStatus_sameButTick (s : State) (p : Nat) : SameButTick s (State.sendStatus s p) := by
  unfold State.sendStatus
  refine SameButTick.trans ?_ (State.modPort_sameButTick ..)
  exact State.sendOn_sameButTick ..

theorem State.dueStatus_sameButTick (s : State) : SameButTick s (State.dueStatus s) := by
  unfold State.dueStatus
  refine SameButTick.each ?_ (fun t x => ?_)
  · exact SameButTick.refl _
  · exact State.sendStatus_sameButTick ..

theorem State.setRaw_sameButTick (s : State) (p : PageType) (i off bank v : Nat) :
    SameButTick s (State.setRaw s p i off bank v) := by
  unfold State.setRaw
  refine SameButTick.mk ?_
  exact SameButTick.refl _

theorem State.wr_sameButTick (s : State) (r : Reg) (v i bank idx : Nat) :
    SameButTick s (State.wr s r v i bank idx) := by
  unfold State.wr
  exact State.setRaw_sameButTick ..

theorem State.cnt_sameButTick (s : State) (r : Reg) (i n bank idx : Nat) :
    SameButTick s (State.cnt s r i n bank idx) := by
  unfold State.cnt
  extract_lets k0 k1
  clear_value k0 k1
  split
  · refine SameButTick.mk ?_
    exact SameButTick.refl _
  · exact State.wr_sameButTick ..

theorem State.prbsLane_sameButTick (s : State) (p n l : Nat) : SameButTick s (State.prbsLane s p n l) := by
  unfold State.prbsLane
  extract_lets k0 k1
  clear_value k0 k1
  refine SameButTick.trans ?_ (State.draw_sameButTick ..)
  refine SameButTick.when ?_ (fun t => ?_)
  · refine SameButTick.trans ?_ (State.wr_sameButTick ..)
    exact State.wr_sameButTick ..
  · exact State.cnt_sameButTick ..

theorem State.prbsRun_sameButTick (s : State) (n : Nat) : SameButTick s (State.prbsRun s n) := by
  unfold State.prbsRun
  refine SameButTick.each ?_ (fun t x => ?_)
  · exact SameButTick.refl _
  · refine SameButTick.each ?_ (fun t x => ?_)
    · exact SameButTick.refl _
    · exact State.prbsLane_sameButTick ..

theorem State.modQuarter_sameButTick (s : State) (q : Nat) (f : Quarter → Quarter) :
    SameButTick s (State.modQuarter s q f) := by
  unfold State.modQuarter
  refine SameButTick.mk ?_
  exact SameButTick.refl _

theorem State.setCluster_sameButTick (s : State) (c : Nat) (x : Cluster) : SameButTick s (State.setCluster s c x)
    := by
  unfold State.setCluster
  refine SameButTick.mk ?_
  exact SameButTick.refl _

theorem State.clusterClk_sameButTick (s : State) (c d : Nat) : SameButTick s (State.clusterClk s c d) := by
  unfold State.clusterClk
  extract_lets k0
  clear_value k0
  refine SameButTick.trans ?_ (State.setCluster_sameButTick ..)
  refine SameButTick.when ?_ (fun t => ?_)
  · refine SameButTick.when ?_ (fun t => ?_)
    · exact SameButTick.refl _
    · exact State.cnt_sameButTick ..
  · exact State.cnt_sameButTick ..

theorem State.quarterNs_sameButTick (s : State) (q n : Nat) : SameButTick s (State.quarterNs s q n) := by
  unfold State.quarterNs
  extract_lets k0 k1 k2 u0
  clear_value k0 k1 k2
  have hu0 : SameButTick s u0 := by
    dsimp only [u0]
    exact State.modQuarter_sameButTick ..
  clear_value u0
  refine SameButTick.each ?_ (fun t x => ?_)
  · refine SameButTick.when ?_ (fun t => ?_)
    · assumption
    · exact State.cnt_sameButTick ..
  · exact State.clusterClk_sameButTick ..

theorem State.pass_sameButTick (s : State) (n : Nat) : SameButTick s (State.pass s n) := by
  unfold State.pass
  extract_lets u0 u1 k0 u2
  clear_value k0
  have hu0 : SameButTick s u0 := by
    dsimp only [u0]
    split
    · exact SameButTick.refl _
    · exact State.modTick_sameButTick ..
  clear_value u0
  have hu1 : SameButTick s u1 := by
    dsimp only [u1]
    refine SameButTick.trans ?_ (State.modTime_sameButTick ..)
    refine SameButTick.trans ?_ (State.setTai_sameButTick ..)
    assumption
  clear_value u1
  have hu2 : SameButTick s u2 := by
    dsimp only [u2]
    refine SameButTick.mk ?_
    assumption
  clear_value u2
  refine SameButTick.trans ?_ (State.dueRekey_sameButTick ..)
  refine SameButTick.trans ?_ (State.dueStatus_sameButTick ..)
  refine SameButTick.trans ?_ (State.prbsRun_sameButTick ..)
  split
  · refine SameButTick.each ?_ (fun t x => ?_)
    · assumption
    · exact State.quarterNs_sameButTick ..
  · assumption

theorem State.passTo_sameButTick (s : State) (ns : Nat) : SameButTick s (State.passTo s ns) := by
  unfold State.passTo
  split
  · exact State.pass_sameButTick ..
  · exact SameButTick.refl _

theorem State.modFab_sameButTick (s : State) (f : Fabric → Fabric) : SameButTick s (State.modFab s f) := by
  unfold State.modFab
  refine SameButTick.mk ?_
  exact SameButTick.refl _

theorem State.modArmed_sameButTick (s : State) (id : Nat) (tx : Bool) (f : Armed → Armed) :
    SameButTick s (State.modArmed s id tx f) := by
  unfold State.modArmed
  exact State.modFab_sameButTick ..

theorem State.modCluster_sameButTick (s : State) (c : Nat) (f : Cluster → Cluster) :
    SameButTick s (State.modCluster s c f) := by
  unfold State.modCluster
  exact State.setCluster_sameButTick ..

theorem State.modScrub_sameButTick (s : State) (k : Nat) (f : Scrub → Scrub) :
    SameButTick s (State.modScrub s k f) := by
  unfold State.modScrub
  split
  · exact State.modCluster_sameButTick ..
  · refine SameButTick.mk ?_
    exact SameButTick.refl _

theorem State.corrected_sameButTick (s : State) (a : Nat) : SameButTick s (State.corrected s a) := by
  unfold State.corrected
  extract_lets k0 k1 u0
  clear_value k0 k1
  have hu0 : SameButTick s u0 := by
    dsimp only [u0]
    refine SameButTick.trans ?_ (State.wr_sameButTick ..)
    exact State.cnt_sameButTick ..
  clear_value u0
  refine SameButTick.trans ?_ (State.modScrub_sameButTick ..)
  assumption

theorem State.capture_sameButTick (s : State) (pg : Nat) (v : Viol) (more : Bool) :
    SameButTick s (State.capture s pg v more) := by
  unfold State.capture
  extract_lets k0
  clear_value k0
  refine SameButTick.trans ?_ (State.setHdr_sameButTick ..)
  refine SameButTick.trans ?_ (State.setHdr_sameButTick ..)
  refine SameButTick.trans ?_ (State.setHdr_sameButTick ..)
  refine SameButTick.trans ?_ (State.setHdr_sameButTick ..)
  exact State.setHdr_sameButTick ..

theorem State.violateAll_sameButTick (s : State) (pg : Nat) (v : Viol) (vs : List Viol) :
    SameButTick s (State.violateAll s pg v vs) := by
  unfold State.violateAll
  extract_lets k0 u0
  clear_value k0
  have hu0 : SameButTick s u0 := by
    dsimp only [u0]
    split
    · exact State.setHdr_sameButTick ..
    · exact State.capture_sameButTick ..
  clear_value u0
  refine SameButTick.trans ?_ (State.irq_sameButTick ..)
  refine SameButTick.trans ?_ (State.setHdr_sameButTick ..)
  assumption

theorem State.violate_sameButTick (s : State) (p : PageType) (i : Nat) (v : Viol) :
    SameButTick s (State.violate s p i v) := by
  unfold State.violate
  exact State.violateAll_sameButTick ..

theorem State.sealFault_sameButTick (s : State) (code : Nat) (u : FaultUnit) :
    SameButTick s (State.sealFault s code u) := by
  unfold State.sealFault
  extract_lets u0
  have hu0 : SameButTick s u0 := by
    dsimp only [u0]
    exact State.modTick_sameButTick ..
  clear_value u0
  split
  · assumption
  · refine SameButTick.trans ?_ (State.modTick_sameButTick ..)
    assumption

theorem State.tickFault_sameButTick (s : State) (code : Nat) (u : FaultUnit) :
    SameButTick s (State.tickFault s code u) := by
  unfold State.tickFault
  split
  · exact SameButTick.refl _
  · exact State.sealFault_sameButTick ..

theorem State.uncorrectable_sameButTick (s : State) (a src tenant : Nat) (fails : Bool) :
    SameButTick s (State.uncorrectable s a src tenant fails) := by
  unfold State.uncorrectable
  extract_lets k0 k1 u0
  clear_value k0 k1
  have hu0 : SameButTick s u0 := by
    dsimp only [u0]
    refine SameButTick.trans ?_ (State.violate_sameButTick ..)
    exact State.cnt_sameButTick ..
  clear_value u0
  split
  · refine SameButTick.trans ?_ (State.tickFault_sameButTick ..)
    assumption
  · assumption

theorem State.touch_sameButTick (s : State) (a src tenant : Nat) : SameButTick s (State.touch s a src tenant) := by
  unfold State.touch
  split
  · exact SameButTick.refl _
  · exact State.corrected_sameButTick ..
  · exact State.uncorrectable_sameButTick ..

theorem State.afterRead_sameButTick (s : State) (g src tenant : Nat) (as : List Nat) :
    SameButTick s (State.afterRead s g src tenant as) := by
  unfold State.afterRead
  refine SameButTick.trans ?_ (State.draw_sameButTick ..)
  refine SameButTick.each ?_ (fun t x => ?_)
  · exact SameButTick.refl _
  · exact State.touch_sameButTick ..

theorem State.sendSeg_sameButTick (s : State) (x : Slot) (a : Armed) (replay : Bool) (g : Nat × Nat × Nat) :
    SameButTick s (State.sendSeg s x a replay g) := by
  unfold State.sendSeg
  extract_lets k0 k1 k2
  clear_value k0 k1 k2
  refine SameButTick.trans ?_ (State.sendOn_sameButTick ..)
  exact State.afterRead_sameButTick ..

theorem State.sendSlot_sameButTick (s : State) (id : Nat) (replay : Bool) :
    SameButTick s (State.sendSlot s id replay) := by
  unfold State.sendSlot
  extract_lets k0
  clear_value k0
  split
  · refine SameButTick.each ?_ (fun t x => ?_)
    · exact SameButTick.refl _
    · exact State.sendOn_sameButTick ..
  · split
    · refine SameButTick.trans ?_ (State.modArmed_sameButTick ..)
      refine SameButTick.each ?_ (fun t x => ?_)
      · exact SameButTick.refl _
      · exact State.sendSeg_sameButTick ..
    · exact SameButTick.refl _

theorem execSlotStart_sameButTickRes (slot : Fin 65536) (s : State) : SameButTickRes s (execSlotStart slot s) := by
  unfold execSlotStart
  extract_lets k0 u0
  clear_value k0
  have hu0 : SameButTick s u0 := by
    dsimp only [u0]
    exact State.passTo_sameButTick ..
  clear_value u0
  refine SameButTickRes.next ?_
  split
  · exact SameButTick.refl _
  · split
    · refine SameButTick.trans ?_ (State.sendSlot_sameButTick ..)
      assumption
    · split
      · split
        · assumption
        · refine SameButTick.trans ?_ (State.sendSlot_sameButTick ..)
          assumption
      · assumption

theorem State.askReplay_sameButTick (s : State) (id : Nat) : SameButTick s (State.askReplay s id) := by
  unfold State.askReplay
  extract_lets k0
  clear_value k0
  split
  · exact SameButTick.refl _
  · refine SameButTick.trans ?_ (State.modArmed_sameButTick ..)
    exact State.sendOn_sameButTick ..

theorem execSlotCheck_sameButTickRes (slot : Fin 65536) (s : State) : SameButTickRes s (execSlotCheck slot s) := by
  unfold execSlotCheck
  extract_lets k0 u0 u1
  clear_value k0
  have hu0 : SameButTick s u0 := by
    dsimp only [u0]
    exact State.passTo_sameButTick ..
  clear_value u0
  have hu1 : SameButTick s u1 := by
    dsimp only [u1]
    refine SameButTick.trans ?_ (State.modArmed_sameButTick ..)
    assumption
  clear_value u1
  refine SameButTickRes.next ?_
  split
  · exact SameButTick.refl _
  · split
    · assumption
    · split
      · assumption
      · extract_lets u2
        have hu2 : SameButTick s u2 := by
          dsimp only [u2]
          split
          · refine SameButTick.trans ?_ (State.cnt_sameButTick ..)
            assumption
          · assumption
        clear_value u2
        split
        · assumption
        · refine SameButTick.trans ?_ (State.askReplay_sameButTick ..)
          assumption

theorem State.setCtx_sameButTick (s : State) (c k : Nat) (x : Ctx) : SameButTick s (State.setCtx s c k x) := by
  unfold State.setCtx
  exact State.modCluster_sameButTick ..

theorem execWaitRelease_sameButTickRes (c : Fin 512) (k : Fin 9) (s : State) :
    SameButTickRes s (execWaitRelease c k s) := by
  unfold execWaitRelease
  extract_lets k0 k1
  clear_value k0
  refine SameButTickRes.next ?_
  split
  · exact SameButTick.refl _
  · split
    · dsimp only [k1]
      refine SameButTick.trans ?_ (State.setCtx_sameButTick ..)
      exact State.passTo_sameButTick ..
    · dsimp only [k1]
      refine SameButTick.trans ?_ (State.setCtx_sameButTick ..)
      exact State.pass_sameButTick ..
    · split
      · dsimp only [k1]
        exact State.setCtx_sameButTick ..
      · exact SameButTick.refl _
    · exact SameButTick.refl _
    · exact SameButTick.refl _

theorem State.askLate_sameButTick (s : State) : SameButTick s (State.askLate s) := by
  unfold State.askLate
  split
  · refine SameButTick.each ?_ (fun t x => ?_)
    · exact SameButTick.refl _
    · exact State.askReplay_sameButTick ..
  · exact SameButTick.refl _

theorem State.sendReplay_sameButTick (s : State) (id : Nat) : SameButTick s (State.sendReplay s id) := by
  unfold State.sendReplay
  extract_lets k0 k1
  clear_value k0 k1
  split
  · exact SameButTick.refl _
  · refine SameButTick.trans ?_ (State.cnt_sameButTick ..)
    refine SameButTick.trans ?_ (State.sendSlot_sameButTick ..)
    exact State.modFab_sameButTick ..

theorem State.sendReplays_sameButTick (s : State) : SameButTick s (State.sendReplays s) := by
  unfold State.sendReplays
  split
  · refine SameButTick.each ?_ (fun t x => ?_)
    · exact SameButTick.refl _
    · exact State.sendReplay_sameButTick ..
  · exact SameButTick.refl _

theorem execRepairStart_sameButTickRes (s : State) : SameButTickRes s (execRepairStart s) := by
  unfold execRepairStart
  refine SameButTickRes.next ?_
  split
  · exact SameButTick.refl _
  · extract_lets u0
    have hu0 : SameButTick s u0 := by
      dsimp only [u0]
      refine SameButTick.trans ?_ (State.modTick_sameButTick ..)
      exact State.passTo_sameButTick ..
    clear_value u0
    refine SameButTick.trans ?_ (State.modSvc_sameButTick ..)
    refine SameButTick.trans ?_ (State.askLate_sameButTick ..)
    refine SameButTick.trans ?_ (State.sendReplays_sameButTick ..)
    assumption

theorem State.sendVote_sameButTick (s : State) (p : Nat) (v : Vote) : SameButTick s (State.sendVote s p v) := by
  unfold State.sendVote
  exact State.sendOn_sameButTick ..

theorem State.sendHalt_sameButTick (s : State) : SameButTick s (State.sendHalt s) := by
  unfold State.sendHalt
  exact State.sendVote_sameButTick ..

theorem State.freeBlocks_sameButTick (s : State) : SameButTick s (State.freeBlocks s) := by
  unfold State.freeBlocks
  refine SameButTick.mk ?_
  exact SameButTick.refl _

theorem State.logTogether_sameButTick (s : State) (l : List (Nat × Viol)) : SameButTick s (State.logTogether s l)
    := by
  unfold State.logTogether
  refine SameButTick.each ?_ (fun t x => ?_)
  · exact SameButTick.refl _
  · split
    · exact SameButTick.refl _
    · exact State.violateAll_sameButTick ..

theorem State.slotsOver_sameButTick (s : State) : SameButTick s (State.slotsOver s) := by
  unfold State.slotsOver
  exact State.modFab_sameButTick ..

theorem State.sealFaults_sameButTick (s : State) : SameButTick s (State.sealFaults s) := by
  unfold State.sealFaults
  extract_lets u0
  have hu0 : SameButTick s u0 := by
    dsimp only [u0]
    refine SameButTick.each ?_ (fun t x => ?_)
    · exact State.logTogether_sameButTick ..
    · exact State.sealFault_sameButTick ..
  clear_value u0
  refine SameButTick.trans ?_ (State.modSvc_sameButTick ..)
  refine SameButTick.trans ?_ (State.slotsOver_sameButTick ..)
  refine SameButTick.trans ?_ (State.cnt_sameButTick ..)
  assumption

theorem State.noteOverruns_sameButTick (s : State) : SameButTick s (State.noteOverruns s) := by
  unfold State.noteOverruns
  refine SameButTick.each ?_ (fun t x => ?_)
  · exact SameButTick.refl _
  · split
    · split
      · exact State.modQuarter_sameButTick ..
      · exact SameButTick.refl _
    · exact SameButTick.refl _

theorem State.noteStatus_sameButTick (s old : State) : SameButTick s (State.noteStatus s old) := by
  unfold State.noteStatus
  split
  · exact SameButTick.refl _
  · refine SameButTick.mk ?_
    exact SameButTick.refl _

theorem State.modPower_sameButTick (s : State) (f : Power → Power) : SameButTick s (State.modPower s f) := by
  unfold State.modPower
  exact State.noteStatus_sameButTick ..

theorem State.avsWrite_sameButTick (s : State) (q mv : Nat) : SameButTick s (State.avsWrite s q mv) := by
  unfold State.avsWrite
  refine SameButTick.trans ?_ (State.send_sameButTick ..)
  refine SameButTick.trans ?_ (State.modPower_sameButTick ..)
  exact State.modQuarter_sameButTick ..

theorem State.stepUp_sameButTick (s : State) (q : Nat) : SameButTick s (State.stepUp s q) := by
  unfold State.stepUp
  extract_lets k0
  clear_value k0
  split
  · exact SameButTick.refl _
  · refine SameButTick.trans ?_ (State.avsWrite_sameButTick ..)
    exact State.modQuarter_sameButTick ..

theorem State.overrunSteps_sameButTick (s : State) : SameButTick s (State.overrunSteps s) := by
  unfold State.overrunSteps
  refine SameButTick.each ?_ (fun t x => ?_)
  · exact SameButTick.refl _
  · split
    · refine SameButTick.trans ?_ (State.stepUp_sameButTick ..)
      exact State.modQuarter_sameButTick ..
    · exact SameButTick.refl _

theorem State.reachVerdict_sameButTick (s : State) (v : VoteSum) : SameButTick s (State.reachVerdict s v) := by
  unfold State.reachVerdict
  extract_lets k0 u0
  clear_value k0
  have hu0 : SameButTick s u0 := by
    dsimp only [u0]
    exact State.modTick_sameButTick ..
  clear_value u0
  split
  · split
    · refine SameButTick.trans ?_ (State.sendVote_sameButTick ..)
      assumption
    · assumption
  · assumption

theorem State.sendUp_sameButTick (s : State) : SameButTick s (State.sendUp s) := by
  unfold State.sendUp
  extract_lets k0 u0
  clear_value k0
  have hu0 : SameButTick s u0 := by
    dsimp only [u0]
    exact State.modTick_sameButTick ..
  clear_value u0
  split
  · refine SameButTick.trans ?_ (State.reachVerdict_sameButTick ..)
    assumption
  · refine SameButTick.trans ?_ (State.sendVote_sameButTick ..)
    assumption

theorem State.tryVote_sameButTick (s : State) : SameButTick s (State.tryVote s) := by
  unfold State.tryVote
  split
  · exact State.sendUp_sameButTick ..
  · exact SameButTick.refl _

theorem State.countFails_sameButTick (s : State) (l : List TickFault) : SameButTick s (State.countFails s l) := by
  unfold State.countFails
  exact State.modTick_sameButTick ..

theorem State.localVerdict_sameButTick (s : State) : SameButTick s (State.localVerdict s) := by
  unfold State.localVerdict
  extract_lets u0 u1
  have hu0 : SameButTick s u0 := by
    dsimp only [u0]
    refine SameButTick.trans ?_ (State.freeBlocks_sameButTick ..)
    exact State.sealFaults_sameButTick ..
  clear_value u0
  have hu1 : SameButTick s u1 := by
    dsimp only [u1]
    refine SameButTick.trans ?_ (State.noteOverruns_sameButTick ..)
    refine SameButTick.trans ?_ (State.overrunSteps_sameButTick ..)
    assumption
  clear_value u1
  refine SameButTick.trans ?_ (State.tryVote_sameButTick ..)
  refine SameButTick.trans ?_ (State.modTick_sameButTick ..)
  refine SameButTick.trans ?_ (State.countFails_sameButTick ..)
  assumption

theorem execSealStart_sameButTickRes (s : State) : SameButTickRes s (execSealStart s) := by
  unfold execSealStart
  refine SameButTickRes.next ?_
  split
  · extract_lets u0
    have hu0 : SameButTick s u0 := by
      dsimp only [u0]
      exact State.passTo_sameButTick ..
    clear_value u0
    split
    · split
      · assumption
      · refine SameButTick.trans ?_ (State.sendHalt_sameButTick ..)
        assumption
    · refine SameButTick.trans ?_ (State.localVerdict_sameButTick ..)
      assumption
  · exact SameButTick.refl _

theorem State.sendMarker_sameButTick (s : State) (skip : Nat) (m : Marker) :
    SameButTick s (State.sendMarker s skip m) := by
  unfold State.sendMarker
  refine SameButTick.each ?_ (fun t x => ?_)
  · exact SameButTick.refl _
  · exact State.sendOn_sameButTick ..

theorem execStretchSealMarker_sameButTickRes (s : State) : SameButTickRes s (execStretchSealMarker s) := by
  unfold execStretchSealMarker
  refine SameButTickRes.next ?_
  split
  · extract_lets u0
    have hu0 : SameButTick s u0 := by
      dsimp only [u0]
      exact State.passTo_sameButTick ..
    clear_value u0
    refine SameButTick.trans ?_ (State.localVerdict_sameButTick ..)
    refine SameButTick.trans ?_ (State.sendMarker_sameButTick ..)
    assumption
  · exact SameButTick.refl _

theorem State.seekFloor_sameButTick (s : State) : SameButTick s (State.seekFloor s) := by
  unfold State.seekFloor
  refine SameButTick.each ?_ (fun t x => ?_)
  · exact SameButTick.refl _
  · split
    · exact State.stepUp_sameButTick ..
    · exact SameButTick.refl _

theorem State.resumeCmd_sameButTick (s : State) : SameButTick s (State.resumeCmd s) := by
  unfold State.resumeCmd
  split
  · refine SameButTick.trans ?_ (State.seekFloor_sameButTick ..)
    exact State.modTick_sameButTick ..
  · exact SameButTick.refl _

theorem execAutoResume_sameButTickRes (s : State) : SameButTickRes s (execAutoResume s) := by
  unfold execAutoResume
  refine SameButTickRes.next ?_
  split
  · refine SameButTick.trans ?_ (State.modPower_sameButTick ..)
    refine SameButTick.trans ?_ (State.resumeCmd_sameButTick ..)
    exact State.pass_sameButTick ..
  · exact SameButTick.refl _

end Sys2Proof.Machine
end

