-- ==== Sys2Proof/Laws/SamePlant.lean ====
section
/-!
SUPPORT. The operations and commands that leave what `SamePlant` names.
-/
namespace Sys2Proof.Machine

theorem State.setRaw_samePlant (s : State) (p : PageType) (i off bank v : Nat) :
    SamePlant s (State.setRaw s p i off bank v) := by
  unfold State.setRaw
  refine SamePlant.mk ?_
  exact SamePlant.refl _

theorem State.wr_samePlant (s : State) (r : Reg) (v i bank idx : Nat) : SamePlant s (State.wr s r v i bank idx) := by
  unfold State.wr
  exact State.setRaw_samePlant ..

theorem State.cnt_samePlant (s : State) (r : Reg) (i n bank idx : Nat) : SamePlant s (State.cnt s r i n bank idx)
    := by
  unfold State.cnt
  extract_lets k0 k1
  clear_value k0 k1
  split
  · refine SamePlant.mk ?_
    exact SamePlant.refl _
  · exact State.wr_samePlant ..

theorem State.modPort_samePlant (s : State) (p : Nat) (f : Port → Port) : SamePlant s (State.modPort s p f) := by
  unfold State.modPort
  refine SamePlant.mk ?_
  exact SamePlant.refl _

theorem State.release_samePlant (s : State) (p pool n : Nat) : SamePlant s (State.release s p pool n) := by
  unfold State.release
  exact State.modPort_samePlant ..

theorem State.freeUnits_samePlant (s : State) (p : Nat) (f : RFrame) : SamePlant s (State.freeUnits s p f) := by
  unfold State.freeUnits
  split
  · exact SamePlant.refl _
  · exact State.release_samePlant ..

theorem State.modSeq_samePlant (s : State) (p cls : Nat) (f : ClassSeq → ClassSeq) :
    SamePlant s (State.modSeq s p cls f) := by
  unfold State.modSeq
  exact State.modPort_samePlant ..

theorem State.send_samePlant (s : State) (o : Out) : SamePlant s (State.send s o) := by
  exact SamePlant.refl _

theorem State.transmit_samePlant (s : State) (p : Nat) (f : Frame) : SamePlant s (State.transmit s p f) := by
  unfold State.transmit
  split
  · exact State.send_samePlant ..
  · exact SamePlant.refl _

theorem State.spend_samePlant (s : State) (p pool n : Nat) : SamePlant s (State.spend s p pool n) := by
  unfold State.spend
  exact State.modPort_samePlant ..

theorem State.sendNow_samePlant (s : State) (p : Nat) (c : Content) : SamePlant s (State.sendNow s p c) := by
  unfold State.sendNow
  extract_lets k0 u0
  clear_value k0
  have hu0 : SamePlant s u0 := by
    dsimp only [u0]
    exact State.modSeq_samePlant ..
  clear_value u0
  refine SamePlant.trans ?_ (State.transmit_samePlant ..)
  refine SamePlant.when ?_ (fun t => ?_)
  · assumption
  · exact State.spend_samePlant ..

theorem State.sendOn_samePlant (s : State) (p : Nat) (c : Content) : SamePlant s (State.sendOn s p c) := by
  unfold State.sendOn
  split
  · exact SamePlant.refl _
  · split
    · exact State.sendNow_samePlant ..
    · exact State.modSeq_samePlant ..

theorem State.pumpList_samePlantFst (s : State) (p : Nat) (l : List (Nat × RFrame)) (blocked : List Nat) :
    SamePlant s (State.pumpList s p l blocked).1 := by
  induction l generalizing s p blocked
  · unfold State.pumpList
    dsimp only
    exact SamePlant.refl _
  · rename_i x r ih
    unfold State.pumpList
    extract_lets k0 k1
    clear_value k0
    split
    · dsimp only
      dsimp only [k1]
      exact ih ..
    · refine SamePlant.trans ?_ (ih ..)
      refine SamePlant.trans ?_ (State.freeUnits_samePlant ..)
      refine SamePlant.trans ?_ (State.sendOn_samePlant ..)
      exact State.spend_samePlant ..

theorem State.pumpPort_samePlant (s : State) (p : Nat) : SamePlant s (State.pumpPort s p) := by
  unfold State.pumpPort
  split
  · exact SamePlant.refl _
  · extract_lets k0
    have hk0 : SamePlant s k0.1 := by
      dsimp only [k0]
      exact State.pumpList_samePlantFst ..
    clear_value k0
    refine SamePlant.trans ?_ (State.modPort_samePlant ..)
    assumption

theorem State.enqueue_samePlant (s : State) (inp p : Nat) (f : RFrame) : SamePlant s (State.enqueue s inp p f) := by
  unfold State.enqueue
  refine SamePlant.trans ?_ (State.pumpPort_samePlant ..)
  exact State.modPort_samePlant ..

theorem State.forward_samePlantFst (s : State) (inp : Nat) (f : RFrame) : SamePlant s (State.forward s inp f).1 := by
  unfold State.forward
  extract_lets k0 u0
  clear_value k0
  have hu0 : SamePlant s u0 := by
    dsimp only [u0]
    split
    · exact State.cnt_samePlant ..
    · exact SamePlant.refl _
  clear_value u0
  split
  · dsimp only
    refine SamePlant.trans ?_ (State.enqueue_samePlant ..)
    assumption
  · dsimp only
    refine SamePlant.trans ?_ (State.freeUnits_samePlant ..)
    refine SamePlant.trans ?_ (State.cnt_samePlant ..)
    assumption
  · dsimp only
    refine SamePlant.trans ?_ (State.freeUnits_samePlant ..)
    refine SamePlant.trans ?_ (State.cnt_samePlant ..)
    assumption

theorem State.modFab_samePlant (s : State) (f : Fabric → Fabric) : SamePlant s (State.modFab s f) := by
  unfold State.modFab
  refine SamePlant.mk ?_
  exact SamePlant.refl _

theorem State.respond_samePlant (s : State) (mgmt : Bool) (h : RHead) (b : Access) (status nack : Nat) (data : List
    Byte) :
    SamePlant s (State.respond s mgmt h b status nack data) := by
  unfold State.respond
  extract_lets k0
  clear_value k0
  split
  · exact State.modFab_samePlant ..
  · exact State.forward_samePlantFst ..

theorem State.nack_samePlant (s : State) (port : Nat) (h : RHead) (b : Access) (code : Nat) :
    SamePlant s (State.nack s port h b code) := by
  unfold State.nack
  split
  · exact State.cnt_samePlant ..
  · refine SamePlant.trans ?_ (State.respond_samePlant ..)
    exact State.cnt_samePlant ..

theorem State.setHdr_samePlant (s : State) (pg off v : Nat) : SamePlant s (State.setHdr s pg off v) := by
  unfold State.setHdr
  refine SamePlant.mk ?_
  exact SamePlant.refl _

theorem State.capture_samePlant (s : State) (pg : Nat) (v : Viol) (more : Bool) :
    SamePlant s (State.capture s pg v more) := by
  unfold State.capture
  extract_lets k0
  clear_value k0
  refine SamePlant.trans ?_ (State.setHdr_samePlant ..)
  refine SamePlant.trans ?_ (State.setHdr_samePlant ..)
  refine SamePlant.trans ?_ (State.setHdr_samePlant ..)
  refine SamePlant.trans ?_ (State.setHdr_samePlant ..)
  exact State.setHdr_samePlant ..

theorem State.modSvc_samePlant (s : State) (f : Service → Service) : SamePlant s (State.modSvc s f) := by
  unfold State.modSvc
  refine SamePlant.mk ?_
  exact SamePlant.refl _

theorem State.freeId_samePlant (s : State) (id : Nat) : SamePlant s (State.freeId s id) := by
  unfold State.freeId
  exact State.modSvc_samePlant ..

theorem State.freeOf_samePlant (s : State) (o : HostOut) : SamePlant s (State.freeOf s o) := by
  unfold State.freeOf
  split
  · exact State.freeId_samePlant ..
  · exact SamePlant.refl _

theorem State.modHost_samePlant (s : State) (f : HostPort → HostPort) : SamePlant s (State.modHost s f) := by
  unfold State.modHost
  refine SamePlant.mk ?_
  exact SamePlant.refl _

theorem State.post_samePlant (s : State) (o : HostOut) : SamePlant s (State.post s o) := by
  unfold State.post
  refine SamePlant.trans ?_ (State.freeOf_samePlant ..)
  exact State.send_samePlant ..

theorem State.toHost_samePlant (s : State) (o : HostOut) : SamePlant s (State.toHost s o) := by
  unfold State.toHost
  split
  · exact State.freeOf_samePlant ..
  · split
    · exact State.modHost_samePlant ..
    · exact State.post_samePlant ..

theorem State.modFn_samePlant (s : State) (n : Nat) (f : Function → Function) : SamePlant s (State.modFn s n f) := by
  unfold State.modFn
  refine SamePlant.mk ?_
  exact SamePlant.refl _

theorem State.msix_samePlant (s : State) (fn v : Nat) : SamePlant s (State.msix s fn v) := by
  unfold State.msix
  split
  · exact State.toHost_samePlant ..
  · exact State.modFn_samePlant ..

theorem State.routeSend_samePlant (s : State) (t : Nat) : SamePlant s (State.routeSend s t) := by
  unfold State.routeSend
  extract_lets k0
  clear_value k0
  split
  · refine SamePlant.trans ?_ (State.modHost_samePlant ..)
    exact State.msix_samePlant ..
  · exact SamePlant.refl _

theorem State.setIrq_samePlant (s : State) (pg off v : Nat) : SamePlant s (State.setIrq s pg off v) := by
  unfold State.setIrq
  extract_lets u0 k0
  clear_value k0
  have hu0 : SamePlant s u0 := by
    dsimp only [u0]
    exact State.setHdr_samePlant ..
  clear_value u0
  split
  · split
    · refine SamePlant.trans ?_ (State.msix_samePlant ..)
      assumption
    · assumption
  · split
    · extract_lets k1
      clear_value k1
      split
      · refine SamePlant.trans ?_ (State.routeSend_samePlant ..)
        assumption
      · assumption
    · assumption

theorem State.irq_samePlant (s : State) (pg m : Nat) : SamePlant s (State.irq s pg m) := by
  unfold State.irq
  exact State.setIrq_samePlant ..

theorem State.violateAll_samePlant (s : State) (pg : Nat) (v : Viol) (vs : List Viol) :
    SamePlant s (State.violateAll s pg v vs) := by
  unfold State.violateAll
  extract_lets k0 u0
  clear_value k0
  have hu0 : SamePlant s u0 := by
    dsimp only [u0]
    split
    · exact State.setHdr_samePlant ..
    · exact State.capture_samePlant ..
  clear_value u0
  refine SamePlant.trans ?_ (State.irq_samePlant ..)
  refine SamePlant.trans ?_ (State.setHdr_samePlant ..)
  assumption

theorem State.violate_samePlant (s : State) (p : PageType) (i : Nat) (v : Viol) :
    SamePlant s (State.violate s p i v) := by
  unfold State.violate
  exact State.violateAll_samePlant ..

theorem State.refuseAccess_samePlant (s : State) (p : PageType) (i port : Nat) (h : RHead) (b : Access) (code log :
    Nat) :
    SamePlant s (State.refuseAccess s p i port h b code log) := by
  unfold State.refuseAccess
  refine SamePlant.trans ?_ (State.nack_samePlant ..)
  exact State.violate_samePlant ..

theorem State.noHop_samePlant (s : State) (inp : Nat) (f : RFrame) : SamePlant s (State.noHop s inp f) := by
  unfold State.noHop
  split
  · exact State.refuseAccess_samePlant ..
  · exact SamePlant.refl _

theorem State.rerouteOne_samePlant (s : State) (p : Nat) (x : Nat × RFrame) : SamePlant s (State.rerouteOne s p x)
    := by
  unfold State.rerouteOne
  extract_lets k0 k1 k2 k3 k4
  clear_value k1 k2 k3
  have hk4 : SamePlant s k4.1 := by
    dsimp only [k4]
    refine SamePlant.trans ?_ (State.forward_samePlantFst ..)
    dsimp only [k0]
    exact State.modPort_samePlant ..
  clear_value k4
  split
  · split
    · assumption
    · refine SamePlant.trans ?_ (State.noHop_samePlant ..)
      assumption
  · split
    · refine SamePlant.trans ?_ (State.enqueue_samePlant ..)
      dsimp only [k0]
      exact State.modPort_samePlant ..
    · exact SamePlant.refl _

theorem State.reroute_samePlant (s : State) : SamePlant s (State.reroute s) := by
  unfold State.reroute
  refine SamePlant.each ?_ (fun t x => ?_)
  · exact SamePlant.refl _
  · refine SamePlant.each ?_ (fun t x => ?_)
    · exact SamePlant.refl _
    · exact State.rerouteOne_samePlant ..

theorem State.draw_samePlant (s : State) : SamePlant s (State.draw s) := by
  unfold State.draw
  refine SamePlant.mk ?_
  exact SamePlant.refl _

theorem State.readHost_samePlant (s : State) (fn addr len : Nat) (use : ReadUse) :
    SamePlant s (State.readHost s fn addr len use) := by
  unfold State.readHost
  extract_lets k0
  clear_value k0
  split
  · refine SamePlant.trans ?_ (State.send_samePlant ..)
    exact State.modHost_samePlant ..
  · exact State.modHost_samePlant ..

theorem State.readLevel_samePlant (s : State) (w : Walk) : SamePlant s (State.readLevel s w) := by
  unfold State.readLevel
  refine SamePlant.trans ?_ (State.readHost_samePlant ..)
  exact State.modHost_samePlant ..

theorem State.translate_samePlantFst (s : State) (id t : Nat) (use : WalkUse) (done : List (Nat × Part)) (l : List
    Part) :
    SamePlant s (State.translate s id t use done l).1 := by
  induction l generalizing s id t use done
  · unfold State.translate
    dsimp only
    exact SamePlant.refl _
  · rename_i x r ih
    unfold State.translate
    extract_lets k0 u0 u1
    clear_value k0
    have hu0 : SamePlant s u0 := by
      dsimp only [u0]
      exact State.cnt_samePlant ..
    clear_value u0
    have hu1 : SamePlant s u1 := by
      dsimp only [u1]
      exact State.cnt_samePlant ..
    clear_value u1
    split
    · extract_lets k1
      clear_value k1
      split
      · dsimp only
        refine SamePlant.trans ?_ (State.cnt_samePlant ..)
        assumption
      · refine SamePlant.trans ?_ (ih ..)
        assumption
    · split
      · dsimp only
        refine SamePlant.trans ?_ (State.cnt_samePlant ..)
        assumption
      · split
        · dsimp only
          refine SamePlant.trans ?_ (State.cnt_samePlant ..)
          assumption
        · dsimp only
          refine SamePlant.trans ?_ (State.readLevel_samePlant ..)
          assumption

theorem State.modQueue_samePlant (s : State) (n q : Nat) (f : Queue → Queue) :
    SamePlant s (State.modQueue s n q f) := by
  unfold State.modQueue
  refine SamePlant.mk ?_
  exact SamePlant.refl _

theorem State.setStream_samePlant (s : State) (id : Nat) (x : Stream) : SamePlant s (State.setStream s id x) := by
  unfold State.setStream
  exact State.modSvc_samePlant ..

theorem State.createStream_samePlantFst (s : State) (cls t : Nat) (host : Option HostCmd) (inputs : List Byte) :
    SamePlant s (State.createStream s cls t host inputs).1 := by
  unfold State.createStream
  extract_lets k0
  clear_value k0
  dsimp only
  refine SamePlant.trans ?_ (State.setStream_samePlant ..)
  exact State.draw_samePlant ..

theorem State.setSlot_samePlant (s : State) (fn i : Nat) (x : ResultSlot) : SamePlant s (State.setSlot s fn i x) := by
  unfold State.setSlot
  exact State.modFn_samePlant ..

theorem State.bindSlot_samePlantFst (s : State) (fn i stream : Nat) : SamePlant s (State.bindSlot s fn i stream).1
    := by
  unfold State.bindSlot
  extract_lets k0 k1
  clear_value k0 k1
  dsimp only
  refine SamePlant.trans ?_ (State.cnt_samePlant ..)
  exact State.setSlot_samePlant ..

theorem State.fetch_samePlant (s : State) (fn q : Nat) : SamePlant s (State.fetch s fn q) := by
  unfold State.fetch
  extract_lets k0
  clear_value k0
  split
  · refine SamePlant.trans ?_ (State.readHost_samePlant ..)
    exact State.modQueue_samePlant ..
  · exact SamePlant.refl _

theorem State.ringMessage_samePlant (s : State) (fn r tick : Nat) : SamePlant s (State.ringMessage s fn r tick) := by
  unfold State.ringMessage
  extract_lets k0
  clear_value k0
  split
  · exact SamePlant.refl _
  · split
    · exact State.msix_samePlant ..
    · split
      · exact SamePlant.refl _
      · refine SamePlant.trans ?_ (State.msix_samePlant ..)
        exact State.modQueue_samePlant ..

theorem State.writeEntry_samePlant (s : State) (fn r : Nat) (e : RingEntry) :
    SamePlant s (State.writeEntry s fn r e) := by
  unfold State.writeEntry
  extract_lets k0 k1 u0
  clear_value k0 k1
  have hu0 : SamePlant s u0 := by
    dsimp only [u0]
    exact State.toHost_samePlant ..
  clear_value u0
  refine SamePlant.trans ?_ (State.ringMessage_samePlant ..)
  refine SamePlant.trans ?_ (State.modQueue_samePlant ..)
  assumption

theorem State.drainRing_samePlant (s : State) (fn r : Nat) (l : List RingEntry) :
    SamePlant s (State.drainRing s fn r l) := by
  induction l generalizing s fn r
  · unfold State.drainRing
    exact SamePlant.refl _
  · rename_i x r ih
    unfold State.drainRing
    split
    · exact SamePlant.refl _
    · refine SamePlant.trans ?_ (ih ..)
      refine SamePlant.trans ?_ (State.writeEntry_samePlant ..)
      exact State.modQueue_samePlant ..

theorem State.serveRing_samePlant (s : State) (fn r : Nat) : SamePlant s (State.serveRing s fn r) := by
  unfold State.serveRing
  split
  · exact SamePlant.refl _
  · exact State.drainRing_samePlant ..

theorem State.complete_samePlant (s : State) (fn r : Nat) (e : RingEntry) : SamePlant s (State.complete s fn r e)
    := by
  unfold State.complete
  refine SamePlant.trans ?_ (State.serveRing_samePlant ..)
  exact State.modQueue_samePlant ..

theorem State.streamRefused_samePlant (s : State) (pg : PageType) (i src tenant refusal : Nat) :
    SamePlant s (State.streamRefused s pg i src tenant refusal) := by
  unfold State.streamRefused
  split
  · exact State.violate_samePlant ..
  · exact SamePlant.refl _

theorem State.refuse_samePlant (s : State) (fn q : Nat) (e : List Byte) (status detail : Nat) :
    SamePlant s (State.refuse s fn q e status detail) := by
  unfold State.refuse
  extract_lets k0
  clear_value k0
  refine SamePlant.trans ?_ (State.complete_samePlant ..)
  refine SamePlant.trans ?_ (State.cnt_samePlant ..)
  exact State.streamRefused_samePlant ..

theorem State.arrive_samePlant (s : State) (l : List Unit_) : SamePlant s (State.arrive s l) := by
  unfold State.arrive
  exact State.modSvc_samePlant ..

theorem State.acceptSubmit_samePlant (s : State) (fn q : Nat) (j : Submit) :
    SamePlant s (State.acceptSubmit s fn q j) := by
  unfold State.acceptSubmit
  extract_lets k0 u0 k1 k2 k3 k4 k5 k6 k7 u1 k8
  clear_value k0 k1 k2 k3 k4 k6 k8
  have hu0 : SamePlant s u0 := by
    dsimp only [u0]
    exact State.modQueue_samePlant ..
  clear_value u0
  have hk5 : SamePlant s k5.1 := by
    dsimp only [k5]
    refine SamePlant.trans ?_ (State.createStream_samePlantFst ..)
    assumption
  clear_value k5
  have hk7 : SamePlant s k7.1 := by
    dsimp only [k7]
    refine SamePlant.trans ?_ (State.bindSlot_samePlantFst ..)
    assumption
  clear_value k7
  have hu1 : SamePlant s u1 := by
    dsimp only [u1]
    split
    · refine SamePlant.trans ?_ (State.setStream_samePlant ..)
      assumption
    · assumption
  clear_value u1
  split
  · refine SamePlant.trans ?_ (State.fetch_samePlant ..)
    refine SamePlant.trans ?_ (State.refuse_samePlant ..)
    assumption
  · refine SamePlant.trans ?_ (State.fetch_samePlant ..)
    refine SamePlant.trans ?_ (State.arrive_samePlant ..)
    assumption

theorem State.submitWalked_samePlant (s : State) (fn q : Nat) (l : List (Nat × Part)) :
    SamePlant s (State.submitWalked s fn q l) := by
  unfold State.submitWalked
  split
  · exact SamePlant.refl _
  · extract_lets k0 k1
    clear_value k0 k1
    split
    · exact State.acceptSubmit_samePlant ..
    · refine SamePlant.each ?_ (fun t x => ?_)
      · exact State.modQueue_samePlant ..
      · exact State.readHost_samePlant ..

theorem State.writeHost_samePlant (s : State) (fn : Nat) (trans : Option (Nat × Nat)) (relaxed : Bool) (a : Nat) (d
    : List Byte) :
    SamePlant s (State.writeHost s fn trans relaxed a d) := by
  unfold State.writeHost
  refine SamePlant.each ?_ (fun t x => ?_)
  · exact SamePlant.refl _
  · exact State.toHost_samePlant ..

theorem State.publishSlot_samePlant (s : State) (h : HostCmd) (id : Nat) (x : Stream) :
    SamePlant s (State.publishSlot s h id x) := by
  unfold State.publishSlot
  split
  · extract_lets k0
    clear_value k0
    refine SamePlant.trans ?_ (State.cnt_samePlant ..)
    exact State.setSlot_samePlant ..
  · exact State.setSlot_samePlant ..

theorem State.releaseEnd_samePlant (s : State) (id : Nat) (x : Stream) (h : HostCmd) (status detail written : Nat) :
    SamePlant s (State.releaseEnd s id x h status detail written) := by
  unfold State.releaseEnd
  extract_lets u0 u1
  have hu0 : SamePlant s u0 := by
    dsimp only [u0]
    split
    · exact State.publishSlot_samePlant ..
    · exact SamePlant.refl _
  clear_value u0
  have hu1 : SamePlant s u1 := by
    dsimp only [u1]
    refine SamePlant.trans ?_ (State.setStream_samePlant ..)
    assumption
  clear_value u1
  refine SamePlant.trans ?_ (State.complete_samePlant ..)
  assumption

theorem State.outputWalked_samePlant (s : State) (id : Nat) (l : List (Nat × Part)) :
    SamePlant s (State.outputWalked s id l) := by
  unfold State.outputWalked
  split
  · exact SamePlant.refl _
  · split
    · exact SamePlant.refl _
    · extract_lets k0 u0
      clear_value k0
      have hu0 : SamePlant s u0 := by
        dsimp only [u0]
        refine SamePlant.each ?_ (fun t x => ?_)
        · exact SamePlant.refl _
        · exact State.writeHost_samePlant ..
      clear_value u0
      refine SamePlant.trans ?_ (State.releaseEnd_samePlant ..)
      assumption

theorem State.modTick_samePlant (s : State) (f : Tick → Tick) : SamePlant s (State.modTick s f) := by
  unfold State.modTick
  refine SamePlant.mk ?_
  exact SamePlant.refl _

theorem State.sealFault_samePlant (s : State) (code : Nat) (u : FaultUnit) :
    SamePlant s (State.sealFault s code u) := by
  unfold State.sealFault
  extract_lets u0
  have hu0 : SamePlant s u0 := by
    dsimp only [u0]
    exact State.modTick_samePlant ..
  clear_value u0
  split
  · assumption
  · refine SamePlant.trans ?_ (State.modTick_samePlant ..)
    assumption

theorem State.tickFault_samePlant (s : State) (code : Nat) (u : FaultUnit) :
    SamePlant s (State.tickFault s code u) := by
  unfold State.tickFault
  split
  · exact SamePlant.refl _
  · exact State.sealFault_samePlant ..

theorem State.windowWrite_samePlant (s : State) (k : Kind3) (l : List (Nat × Part)) (data old : List Byte) :
    SamePlant s (State.windowWrite s k l data old) := by
  unfold State.windowWrite
  extract_lets k0 k1
  clear_value k0
  split
  · dsimp only [k1]
    split
    · refine SamePlant.trans ?_ (State.tickFault_samePlant ..)
      exact State.violate_samePlant ..
    · refine SamePlant.trans ?_ (State.respond_samePlant ..)
      refine SamePlant.trans ?_ (State.tickFault_samePlant ..)
      exact State.violate_samePlant ..
  · split
    · dsimp only [k1]
      split
      · exact State.modSvc_samePlant ..
      · refine SamePlant.trans ?_ (State.respond_samePlant ..)
        exact State.modSvc_samePlant ..
    · dsimp only [k1]
      split
      · refine SamePlant.each ?_ (fun t x => ?_)
        · exact SamePlant.refl _
        · exact State.writeHost_samePlant ..
      · refine SamePlant.trans ?_ (State.respond_samePlant ..)
        refine SamePlant.each ?_ (fun t x => ?_)
        · exact SamePlant.refl _
        · exact State.writeHost_samePlant ..

theorem State.dropKind3_samePlant (s : State) (id : Nat) : SamePlant s (State.dropKind3 s id) := by
  unfold State.dropKind3
  exact State.modHost_samePlant ..

theorem State.kind3Walked_samePlant (s : State) (id : Nat) (l : List (Nat × Part)) :
    SamePlant s (State.kind3Walked s id l) := by
  unfold State.kind3Walked
  split
  · exact SamePlant.refl _
  · split
    · refine SamePlant.trans ?_ (State.windowWrite_samePlant ..)
      exact State.dropKind3_samePlant ..
    · refine SamePlant.each ?_ (fun t x => ?_)
      · exact State.modHost_samePlant ..
      · exact State.readHost_samePlant ..

theorem State.walkViolation_samePlant (s : State) (fn src code off : Nat) :
    SamePlant s (State.walkViolation s fn src code off) := by
  unfold State.walkViolation
  exact State.violate_samePlant ..

theorem State.event_samePlant (s : State) (p : PageType) (i n : Nat) : SamePlant s (State.event s p i n) := by
  unfold State.event
  exact State.irq_samePlant ..

theorem State.stopQueue_samePlant (s : State) (fn q status : Nat) : SamePlant s (State.stopQueue s fn q status) := by
  unfold State.stopQueue
  refine SamePlant.trans ?_ (State.event_samePlant ..)
  exact State.modQueue_samePlant ..

theorem State.queueFault_samePlant (s : State) (fn q code level entry off : Nat) :
    SamePlant s (State.queueFault s fn q code level entry off) := by
  unfold State.queueFault
  refine SamePlant.trans ?_ (State.stopQueue_samePlant ..)
  exact State.modQueue_samePlant ..

theorem State.outputFault_samePlant (s : State) (id code level entry off : Nat) :
    SamePlant s (State.outputFault s id code level entry off) := by
  unfold State.outputFault
  split
  · exact SamePlant.refl _
  · split
    · exact SamePlant.refl _
    · refine SamePlant.trans ?_ (State.releaseEnd_samePlant ..)
      refine SamePlant.trans ?_ (State.walkViolation_samePlant ..)
      exact State.queueFault_samePlant ..

theorem State.kind3Refused_samePlant (s : State) (id : Nat) : SamePlant s (State.kind3Refused s id) := by
  unfold State.kind3Refused
  split
  · exact SamePlant.refl _
  · refine SamePlant.trans ?_ (State.nack_samePlant ..)
    exact State.dropKind3_samePlant ..

theorem State.modLoad_samePlant (s : State) (f : Load → Load) : SamePlant s (State.modLoad s f) := by
  unfold State.modLoad
  refine SamePlant.mk ?_
  exact SamePlant.refl _

theorem State.walkEnd_samePlant (s : State) (t : Nat) (use : WalkUse) (e : WalkEnd) :
    SamePlant s (State.walkEnd s t use e) := by
  unfold State.walkEnd
  split
  · exact SamePlant.refl _
  · split
    · exact State.submitWalked_samePlant ..
    · exact State.outputWalked_samePlant ..
    · exact State.kind3Walked_samePlant ..
    · refine SamePlant.each ?_ (fun t x => ?_)
      · exact SamePlant.refl _
      · exact State.readHost_samePlant ..
  · split
    · split
      · exact SamePlant.refl _
      · refine SamePlant.trans ?_ (State.refuse_samePlant ..)
        refine SamePlant.trans ?_ (State.walkViolation_samePlant ..)
        refine SamePlant.trans ?_ (State.queueFault_samePlant ..)
        exact State.modQueue_samePlant ..
    · exact State.outputFault_samePlant ..
    · refine SamePlant.trans ?_ (State.kind3Refused_samePlant ..)
      exact State.walkViolation_samePlant ..
    · refine SamePlant.trans ?_ (State.modLoad_samePlant ..)
      refine SamePlant.trans ?_ (State.cnt_samePlant ..)
      exact State.walkViolation_samePlant ..

theorem State.walk_samePlant (s : State) (t : Nat) (use : WalkUse) (l : List Part) :
    SamePlant s (State.walk s t use l) := by
  unfold State.walk
  extract_lets k0 k1
  clear_value k0
  have hk1 : SamePlant s k1.1 := by
    dsimp only [k1]
    refine SamePlant.trans ?_ (State.translate_samePlantFst ..)
    exact State.modHost_samePlant ..
  clear_value k1
  refine SamePlant.trans ?_ (State.walkEnd_samePlant ..)
  assumption

theorem State.modChain_samePlant (s : State) (e : Nat) (f : Chain → Chain) : SamePlant s (State.modChain s e f) := by
  unfold State.modChain
  exact State.modLoad_samePlant ..

theorem State.chainFill_samePlant (s : State) (e n : Nat) : SamePlant s (State.chainFill s e n) := by
  induction n generalizing s e
  · unfold State.chainFill
    exact SamePlant.refl _
  · rename_i n ih
    unfold State.chainFill
    extract_lets k0
    clear_value k0
    split
    · refine SamePlant.trans ?_ (ih ..)
      refine SamePlant.trans ?_ (State.walk_samePlant ..)
      exact State.modChain_samePlant ..
    · exact SamePlant.refl _

theorem State.recordAnswered_samePlant (s : State) (e : Nat) : SamePlant s (State.recordAnswered s e) := by
  unfold State.recordAnswered
  split
  · refine SamePlant.trans ?_ (State.chainFill_samePlant ..)
    exact State.modChain_samePlant ..
  · exact SamePlant.refl _

theorem State.setCluster_samePlant (s : State) (c : Nat) (x : Cluster) : SamePlant s (State.setCluster s c x) := by
  unfold State.setCluster
  refine SamePlant.mk ?_
  exact SamePlant.refl _

theorem State.modCluster_samePlant (s : State) (c : Nat) (f : Cluster → Cluster) :
    SamePlant s (State.modCluster s c f) := by
  unfold State.modCluster
  exact State.setCluster_samePlant ..

theorem State.killDraws_samePlant (s : State) (c t : Nat) : SamePlant s (State.killDraws s c t) := by
  unfold State.killDraws
  split
  · split
    · refine SamePlant.trans ?_ (State.draw_samePlant ..)
      exact State.modCluster_samePlant ..
    · exact SamePlant.refl _
  · exact SamePlant.refl _

theorem State.killContext_samePlant (s : State) (c t code : Nat) : SamePlant s (State.killContext s c t code) := by
  unfold State.killContext
  split
  · exact SamePlant.refl _
  · extract_lets u0 u1 k0
    clear_value k0
    have hu0 : SamePlant s u0 := by
      dsimp only [u0]
      refine SamePlant.trans ?_ (State.modTick_samePlant ..)
      exact State.cnt_samePlant ..
    clear_value u0
    have hu1 : SamePlant s u1 := by
      dsimp only [u1]
      refine SamePlant.each ?_ (fun t x => ?_)
      · assumption
      · exact State.killDraws_samePlant ..
    clear_value u1
    refine SamePlant.mk ?_
    assumption

theorem State.threadFault_samePlant (s : State) (c g t code form addr : Nat) :
    SamePlant s (State.threadFault s c g t code form addr) := by
  unfold State.threadFault
  extract_lets u0
  have hu0 : SamePlant s u0 := by
    dsimp only [u0]
    refine SamePlant.trans ?_ (State.violate_samePlant ..)
    exact State.wr_samePlant ..
  clear_value u0
  refine SamePlant.trans ?_ (State.killContext_samePlant ..)
  assumption

theorem State.schedule_samePlant (s : State) (c : Nat) : SamePlant s (State.schedule s c) := by
  unfold State.schedule
  exact State.modCluster_samePlant ..

theorem State.raise_samePlant (s : State) (c g t blk k addr : Nat) : SamePlant s (State.raise s c g t blk k addr)
    := by
  unfold State.raise
  split
  · exact SamePlant.refl _
  · extract_lets k0
    clear_value k0
    split
    · exact State.threadFault_samePlant ..
    · exact State.modCluster_samePlant ..

theorem State.raiseDue_samePlant (s : State) (c : Nat) : SamePlant s (State.raiseDue s c) := by
  unfold State.raiseDue
  extract_lets k0
  clear_value k0
  refine SamePlant.each ?_ (fun t x => ?_)
  · exact State.modCluster_samePlant ..
  · exact State.raise_samePlant ..

theorem State.setGroup_samePlant (s : State) (c g : Nat) (x : Group) : SamePlant s (State.setGroup s c g x) := by
  unfold State.setGroup
  exact State.modCluster_samePlant ..

theorem State.modGroup_samePlant (s : State) (c g : Nat) (f : Group → Group) :
    SamePlant s (State.modGroup s c g f) := by
  unfold State.modGroup
  split
  · exact State.setGroup_samePlant ..
  · exact SamePlant.refl _

theorem State.modCopy_samePlant (s : State) (c id : Nat) (f : ThreadCopy → ThreadCopy) :
    SamePlant s (State.modCopy s c id f) := by
  unfold State.modCopy
  exact State.modCluster_samePlant ..

theorem State.ask_samePlant (s : State) (c tenant addr op size : Nat) (data : List Byte) (use : ReqUse) :
    SamePlant s (State.ask s c tenant addr op size data use) := by
  unfold State.ask
  exact State.modFab_samePlant ..

theorem State.copyWrites_samePlant (s : State) (c : Nat) (k : ThreadCopy) : SamePlant s (State.copyWrites s c k) := by
  unfold State.copyWrites
  extract_lets k0 k1
  clear_value k0 k1
  refine SamePlant.each ?_ (fun t x => ?_)
  · exact State.modCopy_samePlant ..
  · exact State.ask_samePlant ..

theorem State.copyRead_samePlant (s : State) (c id off : Nat) (d : List Byte) :
    SamePlant s (State.copyRead s c id off d) := by
  unfold State.copyRead
  split
  · exact SamePlant.refl _
  · extract_lets k0 u0
    clear_value k0
    have hu0 : SamePlant s u0 := by
      dsimp only [u0]
      exact State.modCopy_samePlant ..
    clear_value u0
    split
    · refine SamePlant.trans ?_ (State.copyWrites_samePlant ..)
      assumption
    · assumption

theorem State.useRsp_samePlant (s : State) (p : Pending) (r : Response) (data : List Byte) :
    SamePlant s (State.useRsp s p r data) := by
  unfold State.useRsp
  extract_lets k0 k1 u0
  clear_value k0 k1
  have hu0 : SamePlant s u0 := by
    dsimp only [u0]
    split
    · exact State.draw_samePlant ..
    · exact SamePlant.refl _
  clear_value u0
  split
  · split
    · exact State.recordAnswered_samePlant ..
    · exact State.modFab_samePlant ..
    · split
      · exact State.threadFault_samePlant ..
      · exact SamePlant.refl _
  · split
    · refine SamePlant.trans ?_ (State.schedule_samePlant ..)
      refine SamePlant.trans ?_ (State.raiseDue_samePlant ..)
      refine SamePlant.trans ?_ (State.modGroup_samePlant ..)
      assumption
    · refine SamePlant.trans ?_ (State.schedule_samePlant ..)
      refine SamePlant.trans ?_ (State.raiseDue_samePlant ..)
      refine SamePlant.trans ?_ (State.modGroup_samePlant ..)
      assumption
    · refine SamePlant.trans ?_ (State.schedule_samePlant ..)
      refine SamePlant.trans ?_ (State.raiseDue_samePlant ..)
      refine SamePlant.trans ?_ (State.modGroup_samePlant ..)
      assumption
    · refine SamePlant.trans ?_ (State.raiseDue_samePlant ..)
      assumption
    · split
      · refine SamePlant.trans ?_ (State.modCopy_samePlant ..)
        assumption
      · split
        · extract_lets k2
          clear_value k2
          refine SamePlant.trans ?_ (State.copyRead_samePlant ..)
          assumption
        · assumption
    · refine SamePlant.trans ?_ (State.recordAnswered_samePlant ..)
      assumption
    · refine SamePlant.trans ?_ (State.modFab_samePlant ..)
      assumption

theorem State.deliver_samePlant (s : State) (f : RFrame) : SamePlant s (State.deliver s f) := by
  unfold State.deliver
  extract_lets k0 u0
  clear_value k0
  have hu0 : SamePlant s u0 := by
    dsimp only [u0]
    exact State.modFab_samePlant ..
  clear_value u0
  split
  · exact SamePlant.refl _
  · split
    · assumption
    · refine SamePlant.trans ?_ (State.useRsp_samePlant ..)
      assumption

theorem State.tagOff_samePlant (s : State) (tenant : Nat) (addr : Option Nat) :
    SamePlant s (State.tagOff s tenant addr) := by
  unfold State.tagOff
  exact State.violate_samePlant ..

theorem State.selfNack_samePlant (s : State) (h : RHead) (b : Access) (mgmt : Bool) (code : Nat) :
    SamePlant s (State.selfNack s h b mgmt code) := by
  unfold State.selfNack
  extract_lets u0
  have hu0 : SamePlant s u0 := by
    dsimp only [u0]
    exact State.violate_samePlant ..
  clear_value u0
  refine SamePlant.trans ?_ (State.modFab_samePlant ..)
  assumption

theorem State.beginLoad_samePlant (s : State) : SamePlant s (State.beginLoad s) := by
  unfold State.beginLoad
  refine SamePlant.mk ?_
  exact SamePlant.refl _

theorem State.modScrub_samePlant (s : State) (k : Nat) (f : Scrub → Scrub) : SamePlant s (State.modScrub s k f) := by
  unfold State.modScrub
  split
  · exact State.modCluster_samePlant ..
  · refine SamePlant.mk ?_
    exact SamePlant.refl _

theorem State.wbCancel_samePlant (s : State) (a : Nat) : SamePlant s (State.wbCancel s a) := by
  unfold State.wbCancel
  extract_lets k0 k1 k2 k3 u0
  clear_value k0 k1 k2 k3
  have hu0 : SamePlant s u0 := by
    dsimp only [u0]
    exact State.modScrub_samePlant ..
  clear_value u0
  split
  · split
    · refine SamePlant.trans ?_ (State.cnt_samePlant ..)
      assumption
    · assumption
  · exact SamePlant.refl _

theorem State.corrected_samePlant (s : State) (a : Nat) : SamePlant s (State.corrected s a) := by
  unfold State.corrected
  extract_lets k0 k1 u0
  clear_value k0 k1
  have hu0 : SamePlant s u0 := by
    dsimp only [u0]
    refine SamePlant.trans ?_ (State.wr_samePlant ..)
    exact State.cnt_samePlant ..
  clear_value u0
  refine SamePlant.trans ?_ (State.modScrub_samePlant ..)
  assumption

theorem State.uncorrectable_samePlant (s : State) (a src tenant : Nat) (fails : Bool) :
    SamePlant s (State.uncorrectable s a src tenant fails) := by
  unfold State.uncorrectable
  extract_lets k0 k1 u0
  clear_value k0 k1
  have hu0 : SamePlant s u0 := by
    dsimp only [u0]
    refine SamePlant.trans ?_ (State.violate_samePlant ..)
    exact State.cnt_samePlant ..
  clear_value u0
  split
  · refine SamePlant.trans ?_ (State.tickFault_samePlant ..)
    assumption
  · assumption

theorem State.wordWritten_samePlant (s : State) (a : Nat) (full : Bool) (src tenant : Nat) :
    SamePlant s (State.wordWritten s a full src tenant) := by
  unfold State.wordWritten
  extract_lets u0 u1
  have hu0 : SamePlant s u0 := by
    dsimp only [u0]
    exact State.wbCancel_samePlant ..
  clear_value u0
  have hu1 : SamePlant s u1 := by
    dsimp only [u1]
    refine SamePlant.trans ?_ (State.corrected_samePlant ..)
    assumption
  clear_value u1
  split
  · refine SamePlant.mk ?_
    assumption
  · split
    · assumption
    · refine SamePlant.mk ?_
      assumption
    · refine SamePlant.trans ?_ (State.uncorrectable_samePlant ..)
      assumption

theorem State.storeAt_samePlant (s : State) (l : List (Nat × Byte)) : SamePlant s (State.storeAt s l) := by
  induction l generalizing s
  · unfold State.storeAt
    exact SamePlant.refl _
  · rename_i x r ih
    unfold State.storeAt
    exact ih ..

theorem State.writeBytes_samePlant (s : State) (g src tenant : Nat) (as : List Nat) (data : List Byte) :
    SamePlant s (State.writeBytes s g src tenant as data) := by
  unfold State.writeBytes
  extract_lets k0 k1 u0
  clear_value k0 k1
  have hu0 : SamePlant s u0 := by
    dsimp only [u0]
    refine SamePlant.each ?_ (fun t x => ?_)
    · exact SamePlant.refl _
    · exact State.wordWritten_samePlant ..
  clear_value u0
  refine SamePlant.trans ?_ (State.draw_samePlant ..)
  refine SamePlant.trans ?_ (State.storeAt_samePlant ..)
  assumption

theorem State.storeRecord_samePlant (s : State) (r : LoadRecord) : SamePlant s (State.storeRecord s r) := by
  unfold State.storeRecord
  extract_lets u0 k0 k1 k2
  clear_value k0 k1 k2
  have hu0 : SamePlant s u0 := by
    dsimp only [u0]
    exact State.modLoad_samePlant ..
  clear_value u0
  split
  · refine SamePlant.trans ?_ (State.modLoad_samePlant ..)
    refine SamePlant.trans ?_ (State.writeBytes_samePlant ..)
    assumption
  · refine SamePlant.trans ?_ (State.modLoad_samePlant ..)
    refine SamePlant.trans ?_ (State.writeBytes_samePlant ..)
    assumption

theorem State.keep_samePlantFst (s : State) (r : LoadRecord) : SamePlant s (State.keep s r).1 := by
  unfold State.keep
  split
  · extract_lets u0
    have hu0 : SamePlant s u0 := by
      dsimp only [u0]
      split
      · exact State.beginLoad_samePlant ..
      · exact SamePlant.refl _
    clear_value u0
    dsimp only
    refine SamePlant.trans ?_ (State.modLoad_samePlant ..)
    assumption
  · split
    · dsimp only
      exact SamePlant.refl _
    · split
      · dsimp only
        exact State.cnt_samePlant ..
      · dsimp only
        exact State.storeRecord_samePlant ..
  · split
    · dsimp only
      exact SamePlant.refl _
    · split
      · dsimp only
        exact State.cnt_samePlant ..
      · dsimp only
        exact State.storeRecord_samePlant ..
  · dsimp only
    exact State.modLoad_samePlant ..
  · dsimp only
    exact State.cnt_samePlant ..

theorem State.sendRecord_samePlant (s : State) (e : Nat) (r : LoadRecord) : SamePlant s (State.sendRecord s e r) := by
  unfold State.sendRecord
  split
  · exact State.cnt_samePlant ..
  · refine SamePlant.trans ?_ (State.modFab_samePlant ..)
    exact State.cnt_samePlant ..

theorem State.actRecord_samePlantFst (s : State) (r : LoadRecord) : SamePlant s (State.actRecord s r).1 := by
  unfold State.actRecord
  extract_lets k0
  clear_value k0
  split
  · exact State.keep_samePlantFst ..
  · split
    · dsimp only
      exact State.cnt_samePlant ..
    · dsimp only
      exact State.sendRecord_samePlant ..

theorem State.noteRecord_samePlant (s : State) (id number : Nat) : SamePlant s (State.noteRecord s id number) := by
  unfold State.noteRecord
  extract_lets k0
  clear_value k0
  exact State.modLoad_samePlant ..

theorem State.takeRecord_samePlantFst (s : State) (r : LoadRecord) : SamePlant s (State.takeRecord s r).1 := by
  unfold State.takeRecord
  extract_lets k0 k1
  clear_value k0
  have hk1 : SamePlant s k1.1 := by
    dsimp only [k1]
    exact State.actRecord_samePlantFst ..
  clear_value k1
  split
  · dsimp only
    exact State.cnt_samePlant ..
  · split
    · dsimp only
      exact SamePlant.refl _
    · split
      · dsimp only
        exact SamePlant.refl _
      · split
        · assumption
        · dsimp only
          refine SamePlant.trans ?_ (State.noteRecord_samePlant ..)
          assumption

theorem State.answerRecord_samePlant (s : State) (h : HeldRecord) (nack : Nat) :
    SamePlant s (State.answerRecord s h nack) := by
  unfold State.answerRecord
  split
  · exact State.recordAnswered_samePlant ..
  · exact State.respond_samePlant ..
  · exact State.send_samePlant ..

theorem State.serveRecord_samePlant (s : State) (h : HeldRecord) : SamePlant s (State.serveRecord s h) := by
  unfold State.serveRecord
  extract_lets k0
  have hk0 : SamePlant s k0.1 := by
    dsimp only [k0]
    split
    · split
      · exact State.keep_samePlantFst ..
      · dsimp only
        exact SamePlant.refl _
    · exact State.takeRecord_samePlantFst ..
  clear_value k0
  split
  · refine SamePlant.trans ?_ (State.answerRecord_samePlant ..)
    assumption
  · refine SamePlant.trans ?_ (State.answerRecord_samePlant ..)
    assumption
  · refine SamePlant.trans ?_ (State.modLoad_samePlant ..)
    assumption

theorem State.touchEntryWord_samePlant (s : State) (c i w src tenant : Nat) :
    SamePlant s (State.touchEntryWord s c i w src tenant) := by
  unfold State.touchEntryWord
  split
  · exact SamePlant.refl _
  · refine SamePlant.trans ?_ (State.modCluster_samePlant ..)
    extract_lets u0
    have hu0 : SamePlant s u0 := by
      dsimp only [u0]
      exact State.cnt_samePlant ..
    clear_value u0
    refine SamePlant.mk ?_
    assumption
  · refine SamePlant.trans ?_ (State.tickFault_samePlant ..)
    refine SamePlant.trans ?_ (State.violate_samePlant ..)
    exact State.cnt_samePlant ..

theorem State.touchEntry_samePlant (s : State) (c i src tenant : Nat) :
    SamePlant s (State.touchEntry s c i src tenant) := by
  unfold State.touchEntry
  refine SamePlant.trans ?_ (State.touchEntryWord_samePlant ..)
  exact State.touchEntryWord_samePlant ..

theorem State.served_samePlant (s : State) (port : Nat) (h : RHead) (b : Access) (status : Nat) (data : List Byte) :
    SamePlant s (State.served s port h b status data) := by
  unfold State.served
  split
  · exact SamePlant.refl _
  · exact State.respond_samePlant ..

theorem State.meetEntry_samePlantFst (s : State) (c i port : Nat) (h : RHead) (b : Access) :
    SamePlant s (State.meetEntry s c i port h b).1 := by
  unfold State.meetEntry
  extract_lets u0
  have hu0 : SamePlant s u0 := by
    dsimp only [u0]
    exact State.touchEntry_samePlant ..
  clear_value u0
  split
  · dsimp only
    refine SamePlant.trans ?_ (State.served_samePlant ..)
    assumption
  · dsimp only
    assumption

theorem State.touch_samePlant (s : State) (a src tenant : Nat) : SamePlant s (State.touch s a src tenant) := by
  unfold State.touch
  split
  · exact SamePlant.refl _
  · exact State.corrected_samePlant ..
  · exact State.uncorrectable_samePlant ..

theorem State.afterRead_samePlant (s : State) (g src tenant : Nat) (as : List Nat) :
    SamePlant s (State.afterRead s g src tenant as) := by
  unfold State.afterRead
  refine SamePlant.trans ?_ (State.draw_samePlant ..)
  refine SamePlant.each ?_ (fun t x => ?_)
  · exact SamePlant.refl _
  · exact State.touch_samePlant ..

theorem State.access_samePlant (s : State) (port : Nat) (h : RHead) (b : Access) (data : List Byte) (rd wr : List
    Nat) (loc : Bool) :
    SamePlant s (State.access s port h b data rd wr loc) := by
  unfold State.access
  extract_lets k0 k1 k2
  clear_value k0 k1 k2
  split
  · refine SamePlant.trans ?_ (State.served_samePlant ..)
    exact State.afterRead_samePlant ..
  · refine SamePlant.trans ?_ (State.served_samePlant ..)
    exact State.writeBytes_samePlant ..
  · refine SamePlant.trans ?_ (State.served_samePlant ..)
    refine SamePlant.trans ?_ (State.writeBytes_samePlant ..)
    exact State.afterRead_samePlant ..

theorem State.serveMemory_samePlant (s : State) (port : Nat) (h : RHead) (b : Access) (data : List Byte) :
    SamePlant s (State.serveMemory s port h b data) := by
  unfold State.serveMemory
  extract_lets k0 k1 k2 k3 k4 k5 k6
  clear_value k0 k1 k2 k3 k5 k6
  have hk4 : SamePlant s k4.1 := by
    dsimp only [k4]
    split
    · exact State.meetEntry_samePlantFst ..
    · dsimp only
      exact SamePlant.refl _
  clear_value k4
  split
  · split
    · assumption
    · split
      · exact State.refuseAccess_samePlant ..
      · split
        · refine SamePlant.trans ?_ (State.refuseAccess_samePlant ..)
          assumption
        · refine SamePlant.trans ?_ (State.access_samePlant ..)
          assumption
  · split
    · exact State.refuseAccess_samePlant ..
    · split
      · exact State.refuseAccess_samePlant ..
      · exact State.access_samePlant ..

theorem State.startKind3_samePlant (s : State) (port : Nat) (h : RHead) (b : Access) (data : List Byte) :
    SamePlant s (State.startKind3 s port h b data) := by
  unfold State.startKind3
  extract_lets k0
  clear_value k0
  refine SamePlant.trans ?_ (State.walk_samePlant ..)
  exact State.modHost_samePlant ..

theorem State.applyAtomic_samePlant (s : State) (a : HeldAtomic) : SamePlant s (State.applyAtomic s a) := by
  unfold State.applyAtomic
  split
  · exact State.serveMemory_samePlant ..
  · split
    · exact State.refuseAccess_samePlant ..
    · split
      · exact State.modFab_samePlant ..
      · exact State.startKind3_samePlant ..

theorem State.takeAtomic_samePlant (s : State) (a : HeldAtomic) : SamePlant s (State.takeAtomic s a) := by
  unfold State.takeAtomic
  split
  · exact State.applyAtomic_samePlant ..
  · split
    · exact State.modFab_samePlant ..
    · exact State.cnt_samePlant ..

theorem State.serve_samePlant (s : State) (port : Nat) (h : RHead) (b : Access) (data : List Byte) :
    SamePlant s (State.serve s port h b data) := by
  unfold State.serve
  extract_lets k0
  clear_value k0
  split
  · exact State.refuseAccess_samePlant ..
  · split
    · exact State.refuseAccess_samePlant ..
    · split
      · split
        · exact State.refuseAccess_samePlant ..
        · split
          · exact State.serveRecord_samePlant ..
          · exact State.refuseAccess_samePlant ..
      · split
        · exact State.refuseAccess_samePlant ..
        · split
          · exact State.refuseAccess_samePlant ..
          · split
            · split
              · exact State.refuseAccess_samePlant ..
              · split
                · exact State.refuseAccess_samePlant ..
                · split
                  · exact State.takeAtomic_samePlant ..
                  · exact State.startKind3_samePlant ..
            · split
              · exact State.takeAtomic_samePlant ..
              · exact State.serveMemory_samePlant ..

theorem State.sendRequest_samePlant (s : State) (r : Request) (entry : Nat) :
    SamePlant s (State.sendRequest s r entry) := by
  unfold State.sendRequest
  extract_lets k0 k1 k2 k3 k4 k5 u0
  clear_value k0 k1 k2 k3 k4 k5
  have hu0 : SamePlant s u0 := by
    dsimp only [u0]
    exact State.modFab_samePlant ..
  clear_value u0
  split
  · refine SamePlant.trans ?_ (State.tagOff_samePlant ..)
    assumption
  · split
    · refine SamePlant.trans ?_ (State.selfNack_samePlant ..)
      assumption
    · split
      · refine SamePlant.trans ?_ (State.enqueue_samePlant ..)
        assumption
      · split
        · split
          · refine SamePlant.trans ?_ (State.modFab_samePlant ..)
            assumption
          · refine SamePlant.trans ?_ (State.serve_samePlant ..)
            assumption
        · extract_lets k6
          have hk6 : SamePlant s k6.1 := by
            dsimp only [k6]
            refine SamePlant.trans ?_ (State.forward_samePlantFst ..)
            assumption
          clear_value k6
          split
          · assumption
          · refine SamePlant.trans ?_ (State.selfNack_samePlant ..)
            assumption

theorem State.sendAll_samePlant (s : State) (l : List Request) : SamePlant s (State.sendAll s l) := by
  induction l generalizing s
  · unfold State.sendAll
    exact SamePlant.refl _
  · rename_i x r ih
    unfold State.sendAll
    refine SamePlant.trans ?_ (ih ..)
    split
    · exact State.modFab_samePlant ..
    · exact State.sendRequest_samePlant ..

theorem State.pumpN_samePlant (s : State) (n : Nat) : SamePlant s (State.pumpN s n) := by
  induction n generalizing s
  · unfold State.pumpN
    exact SamePlant.refl _
  · rename_i n ih
    unfold State.pumpN
    extract_lets k0 u0
    clear_value k0
    have hu0 : SamePlant s u0 := by
      dsimp only [u0]
      refine SamePlant.each ?_ (fun t x => ?_)
      · exact State.modFab_samePlant ..
      · exact State.deliver_samePlant ..
    clear_value u0
    split
    · exact SamePlant.refl _
    · refine SamePlant.trans ?_ (ih ..)
      refine SamePlant.trans ?_ (State.sendAll_samePlant ..)
      refine SamePlant.trans ?_ (State.modFab_samePlant ..)
      assumption

theorem State.pump_samePlant (s : State) : SamePlant s (State.pump s) := by
  unfold State.pump
  extract_lets u0
  have hu0 : SamePlant s u0 := by
    dsimp only [u0]
    exact State.reroute_samePlant ..
  clear_value u0
  refine SamePlant.trans ?_ (State.pumpN_samePlant ..)
  assumption

theorem State.setBusy_samePlant (s : State) (c : Nat) (b : Bool) : SamePlant s (State.setBusy s c b) := by
  unfold State.setBusy
  exact State.modCluster_samePlant ..

theorem State.sendVote_samePlant (s : State) (p : Nat) (v : Vote) : SamePlant s (State.sendVote s p v) := by
  unfold State.sendVote
  exact State.sendOn_samePlant ..

theorem State.sendHalt_samePlant (s : State) : SamePlant s (State.sendHalt s) := by
  unfold State.sendHalt
  exact State.sendVote_samePlant ..

theorem State.haltNote_samePlant (s old : State) : SamePlant s (State.haltNote s old) := by
  unfold State.haltNote
  extract_lets u0
  have hu0 : SamePlant s u0 := by
    dsimp only [u0]
    exact State.modTick_samePlant ..
  clear_value u0
  split
  · refine SamePlant.trans ?_ (State.sendHalt_samePlant ..)
    assumption
  · assumption

theorem State.breakHalt_samePlant (s : State) (c g : Nat) (x : Group) : SamePlant s (State.breakHalt s c g x) := by
  unfold State.breakHalt
  split
  · exact State.setBusy_samePlant ..
  · exact State.haltNote_samePlant ..

theorem State.faultHere_samePlant (s : State) (c g code : Nat) (x : Group) :
    SamePlant s (State.faultHere s c g code x) := by
  unfold State.faultHere
  exact State.threadFault_samePlant ..

theorem State.fetchTouch_samePlant (s : State) (c : Nat) (x : Group) : SamePlant s (State.fetchTouch s c x) := by
  unfold State.fetchTouch
  refine SamePlant.each ?_ (fun t x => ?_)
  · exact State.touchEntry_samePlant ..
  · exact State.touch_samePlant ..

theorem State.afterIssue_samePlant (s : State) (c g : Nat) : SamePlant s (State.afterIssue s c g) := by
  unfold State.afterIssue
  refine SamePlant.trans ?_ (State.schedule_samePlant ..)
  exact State.modGroup_samePlant ..

theorem State.issued_samePlant (s : State) (c g : Nat) : SamePlant s (State.issued s c g) := by
  unfold State.issued
  split
  · exact SamePlant.refl _
  · extract_lets k0 u0
    clear_value k0
    have hu0 : SamePlant s u0 := by
      dsimp only [u0]
      split
      · exact State.cnt_samePlant ..
      · exact SamePlant.refl _
    clear_value u0
    refine SamePlant.trans ?_ (State.draw_samePlant ..)
    refine SamePlant.trans ?_ (State.modCluster_samePlant ..)
    assumption

theorem State.issueHeld_samePlant (s : State) (c g op : Nat) (w : TWord) (legal : Bool) (regs : List Nat) (hold :
    Group → Bool) (body : State → Group → State) (hb : ∀ t y, t.island = s.island → SamePlant t (body t y)) :
    SamePlant s (State.issueHeld s c g op w legal regs hold body) := by
  unfold State.issueHeld
  split
  · exact SamePlant.refl _
  · extract_lets k0
    clear_value k0
    split
    · exact State.breakHalt_samePlant ..
    · split
      · refine SamePlant.trans ?_ (State.schedule_samePlant ..)
        exact State.faultHere_samePlant ..
      · split
        · exact SamePlant.refl _
        · refine SamePlant.trans ?_ (State.schedule_samePlant ..)
          refine SamePlant.trans ?_ (State.faultHere_samePlant ..)
          exact State.fetchTouch_samePlant ..
        · split
          · refine SamePlant.trans ?_ (State.schedule_samePlant ..)
            refine SamePlant.trans ?_ (State.faultHere_samePlant ..)
            exact State.fetchTouch_samePlant ..
          · split
            · refine SamePlant.trans ?_ (State.schedule_samePlant ..)
              exact State.setGroup_samePlant ..
            · have hu := SamePlant.trans (State.fetchTouch_samePlant s c ‹Group›) (State.issued_samePlant _ c g)
              refine SamePlant.trans ?_ (State.afterIssue_samePlant ..)
              exact SamePlant.trans hu (hb _ _ hu.island)

theorem State.memory_samePlant (s : State) (c g : Nat) (w : TWord) (x : Group) (need : List Nat) (n : Nat) (act :
    State → Resolved → List (Nat × Nat) → State) (ha : s.island.disagree = false) (hb : ∀ t y z, SamePlant t (act t
      y z)) :
    SamePlant s (State.memory s c g w x need n act) := by
  unfold State.memory
  extract_lets k0 k1 u0
  clear_value k0 k1
  have hu0 : SamePlant s u0 := by
    dsimp only [u0]
    exact State.setGroup_samePlant ..
  clear_value u0
  split
  · assumption
  · split
    · rename_i h
      simp [ha] at h
    · split
      · exact State.threadFault_samePlant ..
      · split
        · exact State.faultHere_samePlant ..
        · extract_lets u1
          have hu1 : SamePlant s u1 := by
            dsimp only [u1]
            split
            · exact SamePlant.refl _
            · exact State.touchEntry_samePlant ..
          clear_value u1
          split
          · refine SamePlant.trans ?_ (State.threadFault_samePlant ..)
            assumption
          · split
            · refine SamePlant.trans ?_ (State.threadFault_samePlant ..)
              assumption
            · refine SamePlant.trans ?_ (hb ..)
              refine SamePlant.trans ?_ (State.setGroup_samePlant ..)
              refine SamePlant.trans ?_ (State.touchEntry_samePlant ..)
              assumption

theorem State.remoteLanes_samePlant (s : State) (c g t op atom n : Nat) (e : HEntry) (l : List (Nat × Nat)) (data :
    Nat → List Byte) (cas : Nat → Nat) (use : Nat → ReqUse) :
    SamePlant s (State.remoteLanes s c g t op atom n e l data cas use) := by
  unfold State.remoteLanes
  refine SamePlant.trans ?_ (State.modFab_samePlant ..)
  exact State.modGroup_samePlant ..

theorem State.afterLoad_samePlant (s : State) (r : Resolved) (t n : Nat) (offs : List (Nat × Nat)) :
    SamePlant s (State.afterLoad s r t n offs) := by
  unfold State.afterLoad
  split
  · exact State.draw_samePlant ..
  · exact State.afterRead_samePlant ..

theorem execLd_samePlantRes (c : Fin 512) (g : Fin 64) (w : BitVec 26) (s : State) (ha : s.island.disagree = false) :
    SamePlantRes s (execLd c g w s) := by
  unfold execLd
  extract_lets k0 k1
  clear_value k0 k1
  refine SamePlantRes.next ?_
  refine SamePlant.trans ?_ (State.pump_samePlant ..)
  refine State.issueHeld_samePlant (hb := fun t y ht => ?_) ..
  refine State.memory_samePlant (ha := by rw [ht]; exact ha) (hb := fun t y z => ?_) ..
  split
  · exact State.remoteLanes_samePlant ..
  · refine SamePlant.trans ?_ (State.setGroup_samePlant ..)
    exact State.afterLoad_samePlant ..

theorem State.storeLanes_samePlant (s : State) (r : Resolved) (t : Nat) (l : List (Nat × List Byte)) :
    SamePlant s (State.storeLanes s r t l) := by
  unfold State.storeLanes
  split
  · exact SamePlant.refl _
  · exact State.writeBytes_samePlant ..

theorem execSt_samePlantRes (c : Fin 512) (g : Fin 64) (w : BitVec 26) (s : State) (ha : s.island.disagree = false) :
    SamePlantRes s (execSt c g w s) := by
  unfold execSt
  extract_lets k0
  clear_value k0
  refine SamePlantRes.next ?_
  refine SamePlant.trans ?_ (State.pump_samePlant ..)
  refine State.issueHeld_samePlant (hb := fun t y ht => ?_) ..
  refine State.memory_samePlant (ha := by rw [ht]; exact ha) (hb := fun t y z => ?_) ..
  split
  · exact State.remoteLanes_samePlant ..
  · exact State.storeLanes_samePlant ..

theorem State.atomLane_samePlantFst (s : State) (r : Resolved) (t op o : Nat) (v cas : Word) :
    SamePlant s (State.atomLane s r t op o v cas).1 := by
  unfold State.atomLane
  extract_lets k0 k1
  clear_value k0 k1
  split
  · dsimp only
    exact State.draw_samePlant ..
  · dsimp only
    refine SamePlant.trans ?_ (State.writeBytes_samePlant ..)
    exact State.afterRead_samePlant ..

theorem State.atomLanes_samePlantFst (s : State) (r : Resolved) (t op reg : Nat) (x : Group) (l : List (Nat × Nat)) :
    SamePlant s (State.atomLanes s r t op reg x l).1 := by
  induction l generalizing s r t op reg x
  · unfold State.atomLanes
    dsimp only
    exact SamePlant.refl _
  · rename_i x r ih
    unfold State.atomLanes
    extract_lets k0
    have hk0 : SamePlant s k0.1 := by
      dsimp only [k0]
      exact State.atomLane_samePlantFst ..
    clear_value k0
    refine SamePlant.trans ?_ (ih ..)
    assumption

theorem execAtom_samePlantRes (c : Fin 512) (g : Fin 64) (w : BitVec 26) (s : State) (ha : s.island.disagree =
    false) :
    SamePlantRes s (execAtom c g w s) := by
  unfold execAtom
  extract_lets k0
  clear_value k0
  refine SamePlantRes.next ?_
  refine SamePlant.trans ?_ (State.pump_samePlant ..)
  refine State.issueHeld_samePlant (hb := fun t y ht => ?_) ..
  refine State.memory_samePlant (ha := by rw [ht]; exact ha) (hb := fun t y z => ?_) ..
  split
  · exact State.remoteLanes_samePlant ..
  · extract_lets k1
    have hk1 : SamePlant t k1.1 := by
      dsimp only [k1]
      exact State.atomLanes_samePlantFst ..
    clear_value k1
    refine SamePlant.trans ?_ (State.setGroup_samePlant ..)
    assumption

theorem State.issue_samePlant (s : State) (c g op : Nat) (w : TWord) (legal : Bool) (regs : List Nat) (body : State
    → Group → State) (hb : ∀ t y, t.island = s.island → SamePlant t (body t y)) :
    SamePlant s (State.issue s c g op w legal regs body) := by
  unfold State.issue
  exact State.issueHeld_samePlant (hb := hb) ..

theorem State.copySource_samePlantFst (s : State) (c t : Nat) (k : ThreadCopy) :
    SamePlant s (State.copySource s c t k).1 := by
  unfold State.copySource
  split
  · dsimp only
    exact SamePlant.refl _
  · extract_lets k0 u0
    clear_value k0
    have hu0 : SamePlant s u0 := by
      dsimp only [u0]
      exact State.touchEntry_samePlant ..
    clear_value u0
    split
    · dsimp only
      refine SamePlant.trans ?_ (State.draw_samePlant ..)
      assumption
    · dsimp only
      refine SamePlant.trans ?_ (State.afterRead_samePlant ..)
      assumption

theorem State.startCopy_samePlant (s : State) (c g : Nat) (x : Group) (d : CopyDesc) (counter : Nat) :
    SamePlant s (State.startCopy s c g x d counter) := by
  unfold State.startCopy
  extract_lets k0 k1 k2 u0 k3 k4 k5 k6 k7 k8
  clear_value k0 k1 k2 k3 k4 k5 k6 k8
  have hu0 : SamePlant s u0 := by
    dsimp only [u0]
    refine SamePlant.trans ?_ (State.setGroup_samePlant ..)
    exact State.modCluster_samePlant ..
  clear_value u0
  have hk7 : SamePlant s k7.1 := by
    dsimp only [k7]
    refine SamePlant.trans ?_ (State.copySource_samePlantFst ..)
    assumption
  clear_value k7
  split
  · refine SamePlant.trans ?_ (State.touchEntry_samePlant ..)
    refine SamePlant.trans ?_ (State.touchEntry_samePlant ..)
    assumption
  · split
    · refine SamePlant.each ?_ (fun t x => ?_)
      · refine SamePlant.trans ?_ (State.modCopy_samePlant ..)
        assumption
      · exact State.ask_samePlant ..
    · split
      · refine SamePlant.trans ?_ (State.copyWrites_samePlant ..)
        refine SamePlant.trans ?_ (State.modCopy_samePlant ..)
        assumption
      · assumption

theorem execCpy_samePlantRes (c : Fin 512) (g : Fin 64) (w : BitVec 26) (s : State) (ha : s.island.disagree = false) :
    SamePlantRes s (execCpy c g w s) := by
  unfold execCpy
  refine SamePlantRes.next ?_
  split
  · split
    · exact SamePlant.refl _
    · refine SamePlant.trans ?_ (State.pump_samePlant ..)
      refine State.issue_samePlant (hb := fun t y ht => ?_) ..
      extract_lets k0
      clear_value k0
      split
      · exact State.threadFault_samePlant ..
      · split
        · refine SamePlant.trans ?_ (State.threadFault_samePlant ..)
          rw [State.disagreed_agree (by rw [ht]; exact ha)]
          exact SamePlant.refl _
        · exact State.startCopy_samePlant ..
  · split
    · exact SamePlant.refl _
    · refine SamePlant.trans ?_ (State.pump_samePlant ..)
      refine State.issue_samePlant (hb := fun t y ht => ?_) ..
      extract_lets k0
      clear_value k0
      split
      · exact State.threadFault_samePlant ..
      · split
        · refine SamePlant.trans ?_ (State.threadFault_samePlant ..)
          rw [State.disagreed_agree (by rw [ht]; exact ha)]
          exact SamePlant.refl _
        · exact State.startCopy_samePlant ..

theorem State.codeword_samePlant (s : State) (p : Nat) (errs : List Nat) : SamePlant s (State.codeword s p errs) := by
  unfold State.codeword
  extract_lets k0 k1 u0 k2
  clear_value k0 k1 k2
  have hu0 : SamePlant s u0 := by
    dsimp only [u0]
    split
    · split
      · exact SamePlant.refl _
      · refine SamePlant.trans ?_ (State.wr_samePlant ..)
        exact State.wr_samePlant ..
    · exact State.wr_samePlant ..
  clear_value u0
  split
  · assumption
  · split
    · refine SamePlant.trans ?_ (State.modPort_samePlant ..)
      refine SamePlant.trans ?_ (State.cnt_samePlant ..)
      assumption
    · refine SamePlant.each ?_ (fun t x => ?_)
      · refine SamePlant.trans ?_ (State.cnt_samePlant ..)
        refine SamePlant.trans ?_ (State.cnt_samePlant ..)
        assumption
      · exact State.cnt_samePlant ..

theorem State.codeBlock_samePlant (s : State) (p : Nat) (b : CwBlock) : SamePlant s (State.codeBlock s p b) := by
  unfold State.codeBlock
  split
  · exact SamePlant.refl _
  · refine SamePlant.each ?_ (fun t x => ?_)
    · exact State.modPort_samePlant ..
    · exact State.codeword_samePlant ..

theorem State.takeBlocks_samePlant (s : State) (p : Nat) (l : Codewords) : SamePlant s (State.takeBlocks s p l) := by
  unfold State.takeBlocks
  refine SamePlant.each ?_ (fun t x => ?_)
  · exact SamePlant.refl _
  · exact State.codeBlock_samePlant ..

theorem State.fencePort_samePlant (s : State) (p : Nat) : SamePlant s (State.fencePort s p) := by
  unfold State.fencePort
  extract_lets k0 u0
  clear_value k0
  have hu0 : SamePlant s u0 := by
    dsimp only [u0]
    refine SamePlant.trans ?_ (State.event_samePlant ..)
    refine SamePlant.trans ?_ (State.modPort_samePlant ..)
    exact State.cnt_samePlant ..
  clear_value u0
  split
  · refine SamePlant.trans ?_ (State.event_samePlant ..)
    assumption
  · assumption

theorem State.authFail_samePlant (s : State) (p : Nat) : SamePlant s (State.authFail s p) := by
  unfold State.authFail
  extract_lets k0 u0
  clear_value k0
  have hu0 : SamePlant s u0 := by
    dsimp only [u0]
    refine SamePlant.trans ?_ (State.modPort_samePlant ..)
    exact State.cnt_samePlant ..
  clear_value u0
  split
  · assumption
  · refine SamePlant.trans ?_ (State.fencePort_samePlant ..)
    assumption

theorem State.accept_samePlantFst (s : State) (p cls q : Nat) (old : Bool) :
    SamePlant s (State.accept s p cls q old).1 := by
  unfold State.accept
  extract_lets k0 k1
  clear_value k0 k1
  split
  · dsimp only
    exact State.cnt_samePlant ..
  · extract_lets u0 u1
    have hu0 : SamePlant s u0 := by
      dsimp only [u0]
      split
      · exact State.modPort_samePlant ..
      · refine SamePlant.trans ?_ (State.modPort_samePlant ..)
        exact State.modSeq_samePlant ..
    clear_value u0
    have hu1 : SamePlant s u1 := by
      dsimp only [u1]
      refine SamePlant.when ?_ (fun t => ?_)
      · assumption
      · exact State.sendOn_samePlant ..
    clear_value u1
    dsimp only
    refine SamePlant.when ?_ (fun t => ?_)
    · assumption
    · exact State.release_samePlant ..

theorem State.turnKey_samePlant (s : State) (p : Nat) : SamePlant s (State.turnKey s p) := by
  unfold State.turnKey
  exact State.modPort_samePlant ..

theorem State.receive_samePlantFst (s : State) (p cls : Nat) (a : Arrival) :
    SamePlant s (State.receive s p cls a).1 := by
  unfold State.receive
  split
  · dsimp only
    exact SamePlant.refl _
  · extract_lets u0 k0 k1 k2
    clear_value k0 k1 k2
    have hu0 : SamePlant s u0 := by
      dsimp only [u0]
      exact State.takeBlocks_samePlant ..
    clear_value u0
    split
    · dsimp only
      assumption
    · split
      · dsimp only
        assumption
      · split
        · dsimp only
          refine SamePlant.trans ?_ (State.authFail_samePlant ..)
          assumption
        · refine SamePlant.trans ?_ (State.accept_samePlantFst ..)
          refine SamePlant.when ?_ (fun t => ?_)
          · assumption
          · exact State.turnKey_samePlant ..

theorem State.drainWindow_samePlant (s : State) (p cls n : Nat) : SamePlant s (State.drainWindow s p cls n) := by
  induction n generalizing s p cls
  · unfold State.drainWindow
    exact SamePlant.refl _
  · rename_i n ih
    unfold State.drainWindow
    split
    · exact SamePlant.refl _
    · split
      · exact SamePlant.refl _
      · refine SamePlant.trans ?_ (ih ..)
        refine SamePlant.trans ?_ (State.sendNow_samePlant ..)
        exact State.modSeq_samePlant ..

theorem State.acked_samePlant (s : State) (p cls h : Nat) (kp : Bool) : SamePlant s (State.acked s p cls h kp) := by
  unfold State.acked
  split
  · exact SamePlant.refl _
  · extract_lets u0
    have hu0 : SamePlant s u0 := by
      dsimp only [u0]
      exact State.modSeq_samePlant ..
    clear_value u0
    refine SamePlant.trans ?_ (State.drainWindow_samePlant ..)
    assumption

theorem State.ackedAll_samePlant (s : State) (p : Nat) (acks : List Nat) (kp : Bool) :
    SamePlant s (State.ackedAll s p acks kp) := by
  unfold State.ackedAll
  refine SamePlant.each ?_ (fun t x => ?_)
  · exact SamePlant.refl _
  · exact State.acked_samePlant ..

theorem execStatus_samePlantRes (port : Fin 16) (a : Arrival) (credits acks : List Nat) (s : State) :
    SamePlantRes s (execStatus port a credits acks s) := by
  unfold execStatus
  refine SamePlantRes.next ?_
  split
  · extract_lets u0
    have hu0 : SamePlant s u0 := by
      dsimp only [u0]
      refine SamePlant.trans ?_ (State.modPort_samePlant ..)
      rename_i hq
      have hk := congrArg Prod.fst hq
      dsimp only at hk
      rw [← hk]
      exact State.receive_samePlantFst ..
    clear_value u0
    refine SamePlant.trans ?_ (State.pump_samePlant ..)
    refine SamePlant.trans ?_ (State.pumpPort_samePlant ..)
    refine SamePlant.trans ?_ (State.ackedAll_samePlant ..)
    assumption
  · rename_i hq
    have hk := congrArg Prod.fst hq
    dsimp only at hk
    rw [← hk]
    exact State.receive_samePlantFst ..

theorem State.clearMessage_samePlantFst (s : State) (p : Nat) (a : Arrival) :
    SamePlant s (State.clearMessage s p a).1 := by
  unfold State.clearMessage
  split
  · dsimp only
    exact SamePlant.refl _
  · dsimp only
    exact State.takeBlocks_samePlant ..

theorem State.portState_samePlant (s : State) (p : Nat) (x : PortState) : SamePlant s (State.portState s p x) := by
  unfold State.portState
  extract_lets u0
  have hu0 : SamePlant s u0 := by
    dsimp only [u0]
    exact State.modPort_samePlant ..
  clear_value u0
  split
  · refine SamePlant.trans ?_ (State.event_samePlant ..)
    assumption
  · assumption

theorem State.linkUp_samePlant (s : State) (p : Nat) : SamePlant s (State.linkUp s p) := by
  unfold State.linkUp
  refine SamePlant.trans ?_ (State.portState_samePlant ..)
  exact State.modPort_samePlant ..

theorem State.keyUp_samePlant (s : State) (p q : Nat) (acks : List Nat) : SamePlant s (State.keyUp s p q acks) := by
  unfold State.keyUp
  extract_lets k0 u0 u1
  clear_value k0
  have hu0 : SamePlant s u0 := by
    dsimp only [u0]
    exact State.modPort_samePlant ..
  clear_value u0
  have hu1 : SamePlant s u1 := by
    dsimp only [u1]
    refine SamePlant.each ?_ (fun t x => ?_)
    · assumption
    · exact State.modPort_samePlant ..
  clear_value u1
  refine SamePlant.trans ?_ (State.pumpPort_samePlant ..)
  refine SamePlant.each ?_ (fun t x => ?_)
  · refine SamePlant.trans ?_ (State.linkUp_samePlant ..)
    assumption
  · exact State.drainWindow_samePlant ..

theorem State.rekeyFinish_samePlant (s : State) (p : Nat) (kp : Bool) (acks : List Nat) :
    SamePlant s (State.rekeyFinish s p kp acks) := by
  unfold State.rekeyFinish
  extract_lets u0
  have hu0 : SamePlant s u0 := by
    dsimp only [u0]
    exact State.ackedAll_samePlant ..
  clear_value u0
  split
  · refine SamePlant.trans ?_ (State.modPort_samePlant ..)
    assumption
  · assumption

theorem execFinish_samePlantRes (port : Fin 16) (a : Arrival) (acks : List Nat) (s : State) :
    SamePlantRes s (execFinish port a acks s) := by
  unfold execFinish
  refine SamePlantRes.next ?_
  split
  · extract_lets k0
    have hk0 : SamePlant s k0.1 := by
      dsimp only [k0]
      exact State.clearMessage_samePlantFst ..
    clear_value k0
    split
    · assumption
    · split
      · refine SamePlant.trans ?_ (State.authFail_samePlant ..)
        assumption
      · refine SamePlant.trans ?_ (State.pump_samePlant ..)
        refine SamePlant.trans ?_ (State.keyUp_samePlant ..)
        assumption
  · extract_lets k0
    have hk0 : SamePlant s k0.1 := by
      dsimp only [k0]
      exact State.clearMessage_samePlantFst ..
    clear_value k0
    split
    · assumption
    · split
      · refine SamePlant.trans ?_ (State.authFail_samePlant ..)
        assumption
      · refine SamePlant.trans ?_ (State.pump_samePlant ..)
        refine SamePlant.trans ?_ (State.keyUp_samePlant ..)
        assumption
  · split
    · refine SamePlant.trans ?_ (State.rekeyFinish_samePlant ..)
      rename_i hq
      have hk := congrArg Prod.fst hq
      dsimp only at hk
      rw [← hk]
      exact State.receive_samePlantFst ..
    · rename_i hq
      have hk := congrArg Prod.fst hq
      dsimp only at hk
      rw [← hk]
      exact State.receive_samePlantFst ..

theorem execEscapeTimeout_samePlantRes (port : Fin 16) (cls : RClass) (s : State) :
    SamePlantRes s (execEscapeTimeout port cls s) := by
  unfold execEscapeTimeout
  refine SamePlantRes.next ?_
  split
  · exact SamePlant.refl _
  · extract_lets u0 k0 k1
    clear_value k0 k1
    have hu0 : SamePlant s u0 := by
      dsimp only [u0]
      refine SamePlant.trans ?_ (State.cnt_samePlant ..)
      exact State.modPort_samePlant ..
    clear_value u0
    refine SamePlant.trans ?_ (State.pump_samePlant ..)
    split
    · refine SamePlant.trans ?_ (State.enqueue_samePlant ..)
      assumption
    · refine SamePlant.trans ?_ (State.noHop_samePlant ..)
      refine SamePlant.trans ?_ (State.freeUnits_samePlant ..)
      refine SamePlant.trans ?_ (State.cnt_samePlant ..)
      assumption

theorem State.discardSection_samePlant (s : State) (check item : Nat) :
    SamePlant s (State.discardSection s check item) := by
  unfold State.discardSection
  refine SamePlant.mk ?_
  exact SamePlant.refl _

theorem State.wbCancelIn_samePlant (s : State) (a n : Nat) : SamePlant s (State.wbCancelIn s a n) := by
  unfold State.wbCancelIn
  extract_lets k0 k1
  clear_value k0 k1
  refine SamePlant.each ?_ (fun t x => ?_)
  · exact SamePlant.refl _
  · exact State.wbCancel_samePlant ..

theorem State.setByte_samePlant (s : State) (a : Nat) (b : Byte) : SamePlant s (State.setByte s a b) := by
  exact SamePlant.refl _

theorem State.setBytes_samePlant (s : State) (a : Nat) (l : List Byte) : SamePlant s (State.setBytes s a l) := by
  induction l generalizing s a with
  | nil => exact SamePlant.refl s
  | cons b r ih => exact (State.setByte_samePlant s a b).trans (ih _ _)

theorem State.note_samePlant (s : State) (kind detail tenant : Nat) (body : List Byte) :
    SamePlant s (State.note s kind detail tenant body) := by
  unfold State.note
  exact State.modSvc_samePlant ..

theorem State.dropLink_samePlant (s : State) (p : Nat) : SamePlant s (State.dropLink s p) := by
  unfold State.dropLink
  exact State.modPort_samePlant ..

theorem State.sendTraining_samePlant (s : State) (p l : Nat) : SamePlant s (State.sendTraining s p l) := by
  unfold State.sendTraining
  split
  · exact State.send_samePlant ..
  · exact SamePlant.refl _

theorem State.toDetect_samePlant (s : State) (p : Nat) : SamePlant s (State.toDetect s p) := by
  unfold State.toDetect
  refine SamePlant.each ?_ (fun t x => ?_)
  · refine SamePlant.trans ?_ (State.portState_samePlant ..)
    exact State.modPort_samePlant ..
  · exact State.sendTraining_samePlant ..

theorem State.loadPort_samePlant (s : State) (b : List Byte) (p : Nat) : SamePlant s (State.loadPort s b p) := by
  unfold State.loadPort
  extract_lets k0 k1 u0 u1
  clear_value k0 k1
  have hu0 : SamePlant s u0 := by
    dsimp only [u0]
    exact State.modPort_samePlant ..
  clear_value u0
  have hu1 : SamePlant s u1 := by
    dsimp only [u1]
    refine SamePlant.trans ?_ (State.modPort_samePlant ..)
    refine SamePlant.trans ?_ (State.portState_samePlant ..)
    refine SamePlant.trans ?_ (State.dropLink_samePlant ..)
    assumption
  clear_value u1
  split
  · assumption
  · split
    · refine SamePlant.trans ?_ (State.toDetect_samePlant ..)
      assumption
    · assumption

theorem State.install_samePlant (s : State) (b : List Byte) : SamePlant s (State.install s b) := by
  unfold State.install
  extract_lets k0 k1 k2 u0 k3 k4 k5 u1 u2
  clear_value k0 k1 k2 k3 k4 k5
  have hu0 : SamePlant s u0 := by
    dsimp only [u0]
    exact State.wbCancelIn_samePlant ..
  clear_value u0
  have hu1 : SamePlant s u1 := by
    dsimp only [u1]
    refine SamePlant.mk ?_
    assumption
  clear_value u1
  have hu2 : SamePlant s u2 := by
    dsimp only [u2]
    refine SamePlant.each ?_ (fun t x => ?_)
    · assumption
    · exact State.setBytes_samePlant ..
  clear_value u2
  refine SamePlant.trans ?_ (State.note_samePlant ..)
  refine SamePlant.each ?_ (fun t x => ?_)
  · refine SamePlant.trans ?_ (State.wr_samePlant ..)
    assumption
  · exact State.loadPort_samePlant ..

theorem State.releaseHeld_samePlant (s : State) : SamePlant s (State.releaseHeld s) := by
  unfold State.releaseHeld
  refine SamePlant.each ?_ (fun t x => ?_)
  · exact State.modLoad_samePlant ..
  · exact State.serveRecord_samePlant ..

theorem execAdmissionComplete_samePlantRes (s : State) : SamePlantRes s (execAdmissionComplete s) := by
  unfold execAdmissionComplete
  refine SamePlantRes.next ?_
  split
  · exact SamePlant.refl _
  · extract_lets k0 u0
    clear_value k0
    have hu0 : SamePlant s u0 := by
      dsimp only [u0]
      split
      · exact State.discardSection_samePlant ..
      · split
        · refine SamePlant.trans ?_ (State.modLoad_samePlant ..)
          exact State.discardSection_samePlant ..
        · exact State.install_samePlant ..
    clear_value u0
    refine SamePlant.trans ?_ (State.pump_samePlant ..)
    refine SamePlant.trans ?_ (State.releaseHeld_samePlant ..)
    refine SamePlant.trans ?_ (State.event_samePlant ..)
    assumption

theorem State.portRecord_samePlant (s : State) (port kind : Nat) (r : LoadRecord) :
    SamePlant s (State.portRecord s port kind r) := by
  unfold State.portRecord
  split
  · exact SamePlant.refl _
  · refine SamePlant.trans ?_ (State.pump_samePlant ..)
    exact State.serveRecord_samePlant ..

theorem execSectionRecord_samePlantRes (port : Fin 16) (r : LoadRecord) (s : State) :
    SamePlantRes s (execSectionRecord port r s) := by
  unfold execSectionRecord
  refine SamePlantRes.next ?_
  exact State.portRecord_samePlant ..

theorem execShareRecord_samePlantRes (port : Fin 16) (r : LoadRecord) (s : State) :
    SamePlantRes s (execShareRecord port r s) := by
  unfold execShareRecord
  refine SamePlantRes.next ?_
  exact State.portRecord_samePlant ..

theorem execStateRecord_samePlantRes (port : Fin 16) (r : LoadRecord) (s : State) :
    SamePlantRes s (execStateRecord port r s) := by
  unfold execStateRecord
  refine SamePlantRes.next ?_
  exact State.portRecord_samePlant ..

theorem execEndRecord_samePlantRes (port : Fin 16) (r : LoadRecord) (s : State) :
    SamePlantRes s (execEndRecord port r s) := by
  unfold execEndRecord
  refine SamePlantRes.next ?_
  exact State.portRecord_samePlant ..

theorem State.shareBad_samePlant (s : State) : SamePlant s (State.shareBad s) := by
  unfold State.shareBad
  extract_lets u0
  have hu0 : SamePlant s u0 := by
    dsimp only [u0]
    exact State.writeBytes_samePlant ..
  clear_value u0
  refine SamePlant.trans ?_ (State.event_samePlant ..)
  refine SamePlant.trans ?_ (State.violate_samePlant ..)
  refine SamePlant.trans ?_ (State.modLoad_samePlant ..)
  refine SamePlant.trans ?_ (State.draw_samePlant ..)
  assumption

theorem State.shareVerdict_samePlant (s : State) : SamePlant s (State.shareVerdict s) := by
  unfold State.shareVerdict
  split
  · exact State.shareBad_samePlant ..
  · split
    · refine SamePlant.trans ?_ (State.event_samePlant ..)
      exact State.modLoad_samePlant ..
    · exact SamePlant.refl _

theorem execShareVerdict_samePlantRes (s : State) : SamePlantRes s (execShareVerdict s) := by
  unfold execShareVerdict
  refine SamePlantRes.next ?_
  split
  · exact State.shareVerdict_samePlant ..
  · exact SamePlant.refl _

theorem execRefillTimeout_samePlantRes (s : State) : SamePlantRes s (execRefillTimeout s) := by
  unfold execRefillTimeout
  refine SamePlantRes.next ?_
  split
  · exact State.shareBad_samePlant ..
  · exact SamePlant.refl _

theorem State.atomicsDue_samePlant (s : State) : SamePlant s (State.atomicsDue s) := by
  unfold State.atomicsDue
  extract_lets k0
  clear_value k0
  refine SamePlant.each ?_ (fun t x => ?_)
  · exact State.modFab_samePlant ..
  · exact State.applyAtomic_samePlant ..

theorem State.takeReads_samePlant (s : State) : SamePlant s (State.takeReads s) := by
  unfold State.takeReads
  refine SamePlant.each ?_ (fun t x => ?_)
  · exact State.modHost_samePlant ..
  · exact State.readHost_samePlant ..

theorem State.readNext_samePlant (s : State) : SamePlant s (State.readNext s) := by
  unfold State.readNext
  refine SamePlant.trans ?_ (State.pump_samePlant ..)
  refine SamePlant.trans ?_ (State.atomicsDue_samePlant ..)
  exact State.takeReads_samePlant ..

theorem State.chainAct_samePlant (s : State) (e n : Nat) : SamePlant s (State.chainAct s e n) := by
  unfold State.chainAct
  extract_lets k0 k1 k2 u0
  clear_value k0 k1 k2
  have hu0 : SamePlant s u0 := by
    dsimp only [u0]
    exact State.modChain_samePlant ..
  clear_value u0
  split
  · exact SamePlant.refl _
  · split
    · refine SamePlant.trans ?_ (State.serveRecord_samePlant ..)
      assumption
    · split
      · refine SamePlant.trans ?_ (State.recordAnswered_samePlant ..)
        refine SamePlant.trans ?_ (State.sendRecord_samePlant ..)
        assumption
      · refine SamePlant.trans ?_ (State.sendRecord_samePlant ..)
        assumption

theorem State.chainRead_samePlant (s : State) (e n part : Nat) (data : List Byte) :
    SamePlant s (State.chainRead s e n part data) := by
  unfold State.chainRead
  split
  · exact SamePlant.refl _
  · refine SamePlant.trans ?_ (State.chainAct_samePlant ..)
    exact State.modChain_samePlant ..

theorem State.walkEntry_samePlantFst (s : State) (w : Walk) (e : Nat) : SamePlant s (State.walkEntry s w e).1 := by
  unfold State.walkEntry
  extract_lets k0 k1 k2 k3 k4 k5 k6
  clear_value k0 k1 k2 k3 k4 k6
  split
  · exact State.translate_samePlantFst ..
  · split
    · dsimp only [k5]
      exact State.cnt_samePlant ..
    · split
      · dsimp only [k5]
        exact State.cnt_samePlant ..
      · split
        · dsimp only [k5]
          exact State.cnt_samePlant ..
        · split
          · split
            · dsimp only [k5]
              exact State.cnt_samePlant ..
            · split
              · dsimp only [k5]
                exact State.cnt_samePlant ..
              · split
                · dsimp only [k5]
                  exact State.cnt_samePlant ..
                · refine SamePlant.trans ?_ (State.translate_samePlantFst ..)
                  exact State.modHost_samePlant ..
          · split
            · dsimp only [k5]
              exact State.cnt_samePlant ..
            · dsimp only
              exact State.readLevel_samePlant ..

theorem State.kind3Read_samePlant (s : State) (id part : Nat) (data : List Byte) :
    SamePlant s (State.kind3Read s id part data) := by
  unfold State.kind3Read
  split
  · exact SamePlant.refl _
  · extract_lets k0 k1 k2 u0 k3 k4
    clear_value k0 k1 k2 k3 k4
    have hu0 : SamePlant s u0 := by
      dsimp only [u0]
      exact State.dropKind3_samePlant ..
    clear_value u0
    split
    · exact State.modHost_samePlant ..
    · split
      · refine SamePlant.trans ?_ (State.windowWrite_samePlant ..)
        assumption
      · split
        · assumption
        · refine SamePlant.trans ?_ (State.respond_samePlant ..)
          assumption

theorem State.readDone_samePlant (s : State) (use : ReadUse) (data : List Byte) :
    SamePlant s (State.readDone s use data) := by
  unfold State.readDone
  split
  · exact State.modQueue_samePlant ..
  · split
    · exact SamePlant.refl _
    · extract_lets k0
      clear_value k0
      split
      · exact State.acceptSubmit_samePlant ..
      · exact State.modQueue_samePlant ..
  · split
    · exact SamePlant.refl _
    · extract_lets k0
      have hk0 : SamePlant s k0.1 := by
        dsimp only [k0]
        refine SamePlant.trans ?_ (State.walkEntry_samePlantFst ..)
        exact State.modHost_samePlant ..
      clear_value k0
      refine SamePlant.trans ?_ (State.walkEnd_samePlant ..)
      assumption
  · exact State.kind3Read_samePlant ..
  · exact SamePlant.refl _

theorem State.dropReads_samePlant (s : State) (f : Nat → ReadUse → Bool) : SamePlant s (State.dropReads s f) := by
  unfold State.dropReads
  exact State.modHost_samePlant ..

theorem State.kind3Failed_samePlant (s : State) (fn id : Nat) : SamePlant s (State.kind3Failed s fn id) := by
  unfold State.kind3Failed
  split
  · exact SamePlant.refl _
  · extract_lets u0
    have hu0 : SamePlant s u0 := by
      dsimp only [u0]
      refine SamePlant.trans ?_ (State.violate_samePlant ..)
      exact State.dropKind3_samePlant ..
    clear_value u0
    split
    · assumption
    · refine SamePlant.trans ?_ (State.respond_samePlant ..)
      assumption

theorem State.readFailed_samePlant (s : State) (fn addr : Nat) (use : ReadUse) :
    SamePlant s (State.readFailed s fn addr use) := by
  unfold State.readFailed
  split
  · refine SamePlant.trans ?_ (State.stopQueue_samePlant ..)
    refine SamePlant.trans ?_ (State.violate_samePlant ..)
    exact State.modQueue_samePlant ..
  · split
    · exact SamePlant.refl _
    · refine SamePlant.trans ?_ (State.fetch_samePlant ..)
      refine SamePlant.trans ?_ (State.refuse_samePlant ..)
      refine SamePlant.trans ?_ (State.modQueue_samePlant ..)
      exact State.dropReads_samePlant ..
  · split
    · exact SamePlant.refl _
    · refine SamePlant.trans ?_ (State.walkEnd_samePlant ..)
      refine SamePlant.trans ?_ (State.cnt_samePlant ..)
      exact State.modHost_samePlant ..
  · exact State.kind3Failed_samePlant ..
  · refine SamePlant.trans ?_ (State.modLoad_samePlant ..)
    refine SamePlant.trans ?_ (State.cnt_samePlant ..)
    exact State.violate_samePlant ..

theorem execHostReadCompletion_samePlantRes (tag : Nat) (r : HostRead) (s : State) :
    SamePlantRes s (execHostReadCompletion tag r s) := by
  unfold execHostReadCompletion
  refine SamePlantRes.next ?_
  split
  · exact SamePlant.refl _
  · extract_lets u0
    have hu0 : SamePlant s u0 := by
      dsimp only [u0]
      exact State.modHost_samePlant ..
    clear_value u0
    refine SamePlant.trans ?_ (State.readNext_samePlant ..)
    split
    · split
      · refine SamePlant.trans ?_ (State.chainRead_samePlant ..)
        assumption
      · refine SamePlant.trans ?_ (State.readDone_samePlant ..)
        assumption
    · refine SamePlant.trans ?_ (State.readFailed_samePlant ..)
      refine SamePlant.trans ?_ (State.send_samePlant ..)
      assumption
    · refine SamePlant.trans ?_ (State.readFailed_samePlant ..)
      refine SamePlant.trans ?_ (State.send_samePlant ..)
      assumption

theorem execCompletionTimeout_samePlantRes (tag : Nat) (s : State) : SamePlantRes s (execCompletionTimeout tag s)
    := by
  unfold execCompletionTimeout
  refine SamePlantRes.next ?_
  split
  · exact SamePlant.refl _
  · refine SamePlant.trans ?_ (State.readNext_samePlant ..)
    refine SamePlant.trans ?_ (State.readFailed_samePlant ..)
    refine SamePlant.trans ?_ (State.send_samePlant ..)
    exact State.modHost_samePlant ..

theorem State.resetPages_samePlant (s : State) (keep : Nat → Bool) : SamePlant s (State.resetPages s keep) := by
  unfold State.resetPages
  refine SamePlant.mk ?_
  exact SamePlant.refl _

theorem State.dropWaiting_samePlant (s : State) (fn q : Nat) : SamePlant s (State.dropWaiting s fn q) := by
  unfold State.dropWaiting
  refine SamePlant.each ?_ (fun t x => ?_)
  · exact State.modQueue_samePlant ..
  · split
    · exact State.freeId_samePlant ..
    · exact SamePlant.refl _

theorem State.queueOffNow_samePlant (s : State) (fn q : Nat) : SamePlant s (State.queueOffNow s fn q) := by
  unfold State.queueOffNow
  extract_lets k0 u0 k1
  clear_value k0 k1
  have hu0 : SamePlant s u0 := by
    dsimp only [u0]
    refine SamePlant.trans ?_ (State.modHost_samePlant ..)
    exact State.dropReads_samePlant ..
  clear_value u0
  refine SamePlant.trans ?_ (State.modQueue_samePlant ..)
  assumption

theorem State.dropWalk_samePlant (s : State) (u : WalkUse) : SamePlant s (State.dropWalk s u) := by
  unfold State.dropWalk
  split
  · exact SamePlant.refl _
  · split
    · split
      · exact State.releaseEnd_samePlant ..
      · exact SamePlant.refl _
    · exact SamePlant.refl _
  · exact SamePlant.refl _
  · refine SamePlant.trans ?_ (State.cnt_samePlant ..)
    exact State.modChain_samePlant ..

theorem State.dropRead_samePlant (s : State) (u : ReadUse) : SamePlant s (State.dropRead s u) := by
  unfold State.dropRead
  split
  · refine SamePlant.trans ?_ (State.cnt_samePlant ..)
    exact State.modChain_samePlant ..
  · exact SamePlant.refl _

theorem State.abandon_samePlant (s : State) (fn : Nat) : SamePlant s (State.abandon s fn) := by
  unfold State.abandon
  extract_lets u0 u1 k0 k1 k2 k3 u2 u3
  clear_value k0 k1 k2 k3
  have hu0 : SamePlant s u0 := by
    dsimp only [u0]
    exact State.modFn_samePlant ..
  clear_value u0
  have hu1 : SamePlant s u1 := by
    dsimp only [u1]
    refine SamePlant.each ?_ (fun t x => ?_)
    · assumption
    · refine SamePlant.trans ?_ (State.dropWaiting_samePlant ..)
      exact State.queueOffNow_samePlant ..
  clear_value u1
  have hu2 : SamePlant s u2 := by
    dsimp only [u2]
    refine SamePlant.each ?_ (fun t x => ?_)
    · refine SamePlant.trans ?_ (State.modHost_samePlant ..)
      refine SamePlant.trans ?_ (State.dropReads_samePlant ..)
      assumption
    · exact State.freeOf_samePlant ..
  clear_value u2
  have hu3 : SamePlant s u3 := by
    dsimp only [u3]
    refine SamePlant.trans ?_ (State.modSvc_samePlant ..)
    assumption
  clear_value u3
  refine SamePlant.trans ?_ (State.takeReads_samePlant ..)
  refine SamePlant.each ?_ (fun t x => ?_)
  · refine SamePlant.each ?_ (fun t x => ?_)
    · refine SamePlant.each ?_ (fun t x => ?_)
      · assumption
      · exact State.dropWalk_samePlant ..
    · exact State.dropRead_samePlant ..
  · exact State.nack_samePlant ..

theorem State.signalFn_samePlant (s : State) (t : Nat) : SamePlant s (State.signalFn s t) := by
  unfold State.signalFn
  refine SamePlant.trans ?_ (State.msix_samePlant ..)
  refine SamePlant.trans ?_ (State.event_samePlant ..)
  exact State.wr_samePlant ..

theorem State.ledger_samePlant (s : State) (kind detail tenant tick : Nat) (body : List Byte) :
    SamePlant s (State.ledger s kind detail tenant tick body) := by
  unfold State.ledger
  split
  · exact State.cnt_samePlant ..
  · extract_lets k0 k1 u0
    clear_value k0 k1
    have hu0 : SamePlant s u0 := by
      dsimp only [u0]
      exact State.modSvc_samePlant ..
    clear_value u0
    split
    · refine SamePlant.trans ?_ (State.event_samePlant ..)
      assumption
    · assumption

theorem State.withdrawStream_samePlant (s : State) (tick id : Nat) (x : Stream) :
    SamePlant s (State.withdrawStream s tick id x) := by
  unfold State.withdrawStream
  extract_lets k0 u0
  clear_value k0
  have hu0 : SamePlant s u0 := by
    dsimp only [u0]
    split
    · exact State.ledger_samePlant ..
    · split
      · refine SamePlant.trans ?_ (State.draw_samePlant ..)
        exact State.ledger_samePlant ..
      · exact SamePlant.refl _
  clear_value u0
  refine SamePlant.trans ?_ (State.freeId_samePlant ..)
  assumption

theorem State.withdrawNow_samePlant (s : State) (t : Nat) : SamePlant s (State.withdrawNow s t) := by
  unfold State.withdrawNow
  extract_lets u0 k0 u1 u2 u3 u4
  clear_value k0
  have hu0 : SamePlant s u0 := by
    dsimp only [u0]
    refine SamePlant.each ?_ (fun t x => ?_)
    · exact SamePlant.refl _
    · exact State.killDraws_samePlant ..
  clear_value u0
  have hu1 : SamePlant s u1 := by
    dsimp only [u1]
    refine SamePlant.mk ?_
    assumption
  clear_value u1
  have hu2 : SamePlant s u2 := by
    dsimp only [u2]
    refine SamePlant.trans ?_ (State.modTick_samePlant ..)
    assumption
  clear_value u2
  have hu3 : SamePlant s u3 := by
    dsimp only [u3]
    refine SamePlant.each ?_ (fun t x => ?_)
    · assumption
    · exact State.withdrawStream_samePlant ..
  clear_value u3
  have hu4 : SamePlant s u4 := by
    dsimp only [u4]
    refine SamePlant.trans ?_ (State.modSvc_samePlant ..)
    assumption
  clear_value u4
  refine SamePlant.trans ?_ (State.modFn_samePlant ..)
  assumption

theorem State.withdraw_samePlant (s : State) (t : Nat) : SamePlant s (State.withdraw s t) := by
  unfold State.withdraw
  refine SamePlant.trans ?_ (State.signalFn_samePlant ..)
  exact State.withdrawNow_samePlant ..

theorem State.disableVf_samePlant (s : State) (n : Nat) : SamePlant s (State.disableVf s n) := by
  unfold State.disableVf
  split
  · exact SamePlant.refl _
  · extract_lets u0
    have hu0 : SamePlant s u0 := by
      dsimp only [u0]
      exact State.abandon_samePlant ..
    clear_value u0
    split
    · refine SamePlant.trans ?_ (State.modFn_samePlant ..)
      refine SamePlant.trans ?_ (State.signalFn_samePlant ..)
      refine SamePlant.trans ?_ (State.modTick_samePlant ..)
      assumption
    · split
      · refine SamePlant.trans ?_ (State.withdraw_samePlant ..)
        assumption
      · refine SamePlant.trans ?_ (State.modTick_samePlant ..)
        assumption

theorem State.disableVfs_samePlant (s : State) : SamePlant s (State.disableVfs s) := by
  unfold State.disableVfs
  refine SamePlant.each ?_ (fun t x => ?_)
  · exact SamePlant.refl _
  · exact State.disableVf_samePlant ..

theorem State.flrPf_samePlant (s : State) : SamePlant s (State.flrPf s) := by
  unfold State.flrPf
  refine SamePlant.trans ?_ (State.disableVfs_samePlant ..)
  split
  · exact SamePlant.refl _
  · exact State.abandon_samePlant ..

theorem execFlr_samePlantRes (fn : Fin 256) (s : State) : SamePlantRes s (execFlr fn s) := by
  unfold execFlr
  refine SamePlantRes.next ?_
  refine SamePlant.trans ?_ (State.pump_samePlant ..)
  refine SamePlant.trans ?_ (State.atomicsDue_samePlant ..)
  refine SamePlant.trans ?_ (State.resetPages_samePlant ..)
  split
  · exact State.flrPf_samePlant ..
  · exact State.disableVf_samePlant ..

theorem execVfDisable_samePlantRes (s : State) : SamePlantRes s (execVfDisable s) := by
  unfold execVfDisable
  extract_lets k0
  clear_value k0
  refine SamePlantRes.next ?_
  refine SamePlant.trans ?_ (State.pump_samePlant ..)
  refine SamePlant.trans ?_ (State.atomicsDue_samePlant ..)
  refine SamePlant.trans ?_ (State.resetPages_samePlant ..)
  exact State.disableVfs_samePlant ..

theorem execPfFlr_samePlantRes (s : State) : SamePlantRes s (execPfFlr s) := by
  unfold execPfFlr
  refine SamePlantRes.next ?_
  refine SamePlant.trans ?_ (State.pump_samePlant ..)
  refine SamePlant.trans ?_ (State.atomicsDue_samePlant ..)
  refine SamePlant.trans ?_ (State.resetPages_samePlant ..)
  exact State.flrPf_samePlant ..

end Sys2Proof.Machine
end

