-- ==== Sys2Proof/Laws/SameStores.lean ====
section
/-!
SUPPORT. The operations and commands that leave what `SameStores` names.
-/
namespace Sys2Proof.Machine

theorem State.setCluster_sameStores (s : State) (c : Nat) (x : Cluster) : SameStores s (State.setCluster s c x) := by
  unfold State.setCluster
  refine SameStores.mk ?_
  exact SameStores.refl _

theorem execStepComplete_sameStoresRes (c : Fin 512) (s : State) : SameStoresRes s (execStepComplete c s) := by
  unfold execStepComplete
  refine SameStoresRes.next ?_
  exact State.setCluster_sameStores ..

theorem State.modCluster_sameStores (s : State) (c : Nat) (f : Cluster → Cluster) :
    SameStores s (State.modCluster s c f) := by
  unfold State.modCluster
  exact State.setCluster_sameStores ..

theorem State.modScrub_sameStores (s : State) (k : Nat) (f : Scrub → Scrub) : SameStores s (State.modScrub s k f)
    := by
  unfold State.modScrub
  split
  · exact State.modCluster_sameStores ..
  · refine SameStores.mk ?_
    exact SameStores.refl _

theorem State.setRaw_sameStores (s : State) (p : PageType) (i off bank v : Nat) :
    SameStores s (State.setRaw s p i off bank v) := by
  unfold State.setRaw
  refine SameStores.mk ?_
  exact SameStores.refl _

theorem State.wr_sameStores (s : State) (r : Reg) (v i bank idx : Nat) : SameStores s (State.wr s r v i bank idx)
    := by
  unfold State.wr
  exact State.setRaw_sameStores ..

theorem State.cnt_sameStores (s : State) (r : Reg) (i n bank idx : Nat) :
    SameStores s (State.cnt s r i n bank idx) := by
  unfold State.cnt
  extract_lets k0 k1
  clear_value k0 k1
  split
  · refine SameStores.mk ?_
    exact SameStores.refl _
  · exact State.wr_sameStores ..

theorem State.rotated_sameStores (s : State) (u : ScrubUnit) (v : Nat) : SameStores s (State.rotated s u v) := by
  unfold State.rotated
  extract_lets k0 k1 k2
  clear_value k0 k1 k2
  split
  · exact SameStores.refl _
  · split
    · exact State.modScrub_sameStores ..
    · refine SameStores.trans ?_ (State.modScrub_sameStores ..)
      refine SameStores.trans ?_ (State.wr_sameStores ..)
      exact State.cnt_sameStores ..

theorem State.scrubWrite_sameStores (s : State) (a : Nat) : SameStores s (State.scrubWrite s a) := by
  unfold State.scrubWrite
  refine SameStores.mk ?_
  exact SameStores.refl _

theorem State.finishWb_sameStores (s : State) (u : ScrubUnit) : SameStores s (State.finishWb s u) := by
  unfold State.finishWb
  extract_lets k0
  clear_value k0
  split
  · exact SameStores.refl _
  · refine SameStores.trans ?_ (State.rotated_sameStores ..)
    refine SameStores.trans ?_ (State.modScrub_sameStores ..)
    exact State.scrubWrite_sameStores ..

theorem State.corrected_sameStores (s : State) (a : Nat) : SameStores s (State.corrected s a) := by
  unfold State.corrected
  extract_lets k0 k1 u0
  clear_value k0 k1
  have hu0 : SameStores s u0 := by
    dsimp only [u0]
    refine SameStores.trans ?_ (State.wr_sameStores ..)
    exact State.cnt_sameStores ..
  clear_value u0
  refine SameStores.trans ?_ (State.modScrub_sameStores ..)
  assumption

theorem State.setHdr_sameStores (s : State) (pg off v : Nat) : SameStores s (State.setHdr s pg off v) := by
  unfold State.setHdr
  refine SameStores.mk ?_
  exact SameStores.refl _

theorem State.capture_sameStores (s : State) (pg : Nat) (v : Viol) (more : Bool) :
    SameStores s (State.capture s pg v more) := by
  unfold State.capture
  extract_lets k0
  clear_value k0
  refine SameStores.trans ?_ (State.setHdr_sameStores ..)
  refine SameStores.trans ?_ (State.setHdr_sameStores ..)
  refine SameStores.trans ?_ (State.setHdr_sameStores ..)
  refine SameStores.trans ?_ (State.setHdr_sameStores ..)
  exact State.setHdr_sameStores ..

theorem State.modHost_sameStores (s : State) (f : HostPort → HostPort) : SameStores s (State.modHost s f) := by
  unfold State.modHost
  refine SameStores.mk ?_
  exact SameStores.refl _

theorem State.send_sameStores (s : State) (o : Out) : SameStores s (State.send s o) := by
  exact SameStores.refl _

theorem State.modFn_sameStores (s : State) (n : Nat) (f : Function → Function) : SameStores s (State.modFn s n f)
    := by
  unfold State.modFn
  refine SameStores.mk ?_
  exact SameStores.refl _

theorem State.msix_sameStores (s : State) (fn v : Nat) : SameStores s (State.msix s fn v) := by
  unfold State.msix
  split
  · unfold State.toHost State.post State.freeOf
    dsimp only
    split
    · exact SameStores.refl _
    · split
      · exact State.modHost_sameStores ..
      · exact State.send_sameStores ..
  · exact State.modFn_sameStores ..

theorem State.routeSend_sameStores (s : State) (t : Nat) : SameStores s (State.routeSend s t) := by
  unfold State.routeSend
  extract_lets k0
  clear_value k0
  split
  · refine SameStores.trans ?_ (State.modHost_sameStores ..)
    exact State.msix_sameStores ..
  · exact SameStores.refl _

theorem State.setIrq_sameStores (s : State) (pg off v : Nat) : SameStores s (State.setIrq s pg off v) := by
  unfold State.setIrq
  extract_lets u0 k0
  clear_value k0
  have hu0 : SameStores s u0 := by
    dsimp only [u0]
    exact State.setHdr_sameStores ..
  clear_value u0
  split
  · split
    · refine SameStores.trans ?_ (State.msix_sameStores ..)
      assumption
    · assumption
  · split
    · extract_lets k1
      clear_value k1
      split
      · refine SameStores.trans ?_ (State.routeSend_sameStores ..)
        assumption
      · assumption
    · assumption

theorem State.irq_sameStores (s : State) (pg m : Nat) : SameStores s (State.irq s pg m) := by
  unfold State.irq
  exact State.setIrq_sameStores ..

theorem State.violateAll_sameStores (s : State) (pg : Nat) (v : Viol) (vs : List Viol) :
    SameStores s (State.violateAll s pg v vs) := by
  unfold State.violateAll
  extract_lets k0 u0
  clear_value k0
  have hu0 : SameStores s u0 := by
    dsimp only [u0]
    split
    · exact State.setHdr_sameStores ..
    · exact State.capture_sameStores ..
  clear_value u0
  refine SameStores.trans ?_ (State.irq_sameStores ..)
  refine SameStores.trans ?_ (State.setHdr_sameStores ..)
  assumption

theorem State.violate_sameStores (s : State) (p : PageType) (i : Nat) (v : Viol) :
    SameStores s (State.violate s p i v) := by
  unfold State.violate
  exact State.violateAll_sameStores ..

theorem State.modTick_sameStores (s : State) (f : Tick → Tick) : SameStores s (State.modTick s f) := by
  unfold State.modTick
  refine SameStores.mk ?_
  exact SameStores.refl _

theorem State.sealFault_sameStores (s : State) (code : Nat) (u : FaultUnit) :
    SameStores s (State.sealFault s code u) := by
  unfold State.sealFault
  extract_lets u0
  have hu0 : SameStores s u0 := by
    dsimp only [u0]
    exact State.modTick_sameStores ..
  clear_value u0
  split
  · assumption
  · refine SameStores.trans ?_ (State.modTick_sameStores ..)
    assumption

theorem State.tickFault_sameStores (s : State) (code : Nat) (u : FaultUnit) :
    SameStores s (State.tickFault s code u) := by
  unfold State.tickFault
  split
  · exact SameStores.refl _
  · exact State.sealFault_sameStores ..

theorem State.uncorrectable_sameStores (s : State) (a src tenant : Nat) (fails : Bool) :
    SameStores s (State.uncorrectable s a src tenant fails) := by
  unfold State.uncorrectable
  extract_lets k0 k1 u0
  clear_value k0 k1
  have hu0 : SameStores s u0 := by
    dsimp only [u0]
    refine SameStores.trans ?_ (State.violate_sameStores ..)
    exact State.cnt_sameStores ..
  clear_value u0
  split
  · refine SameStores.trans ?_ (State.tickFault_sameStores ..)
    assumption
  · assumption

theorem State.scrubRead_sameStores (s : State) (a : Nat) : SameStores s (State.scrubRead s a) := by
  unfold State.scrubRead
  refine SameStores.each ?_ (fun t x => ?_)
  · exact SameStores.refl _
  · split
    · exact SameStores.refl _
    · exact State.corrected_sameStores ..
    · exact State.uncorrectable_sameStores ..

theorem execScrubVisit_sameStoresRes (u : ScrubUnit) (s : State) : SameStoresRes s (execScrubVisit u s) := by
  unfold execScrubVisit
  extract_lets k0 u0 k1 k2 u1
  clear_value k0 k1 k2
  have hu0 : SameStores s u0 := by
    dsimp only [u0]
    exact State.finishWb_sameStores ..
  clear_value u0
  have hu1 : SameStores s u1 := by
    dsimp only [u1]
    refine SameStores.trans ?_ (State.scrubRead_sameStores ..)
    assumption
  clear_value u1
  refine SameStoresRes.next ?_
  split
  · exact SameStores.refl _
  · split
    · refine SameStores.trans ?_ (State.modScrub_sameStores ..)
      assumption
    · refine SameStores.trans ?_ (State.rotated_sameStores ..)
      refine SameStores.trans ?_ (State.modScrub_sameStores ..)
      assumption

theorem execScrubEvaluation_sameStoresRes (u : ScrubUnit) (s : State) :
    SameStoresRes s (execScrubEvaluation u s) := by
  unfold execScrubEvaluation
  refine SameStoresRes.next ?_
  split
  · exact SameStores.refl _
  · exact State.modScrub_sameStores ..

theorem State.setBusy_sameStores (s : State) (c : Nat) (b : Bool) : SameStores s (State.setBusy s c b) := by
  unfold State.setBusy
  exact State.modCluster_sameStores ..

theorem State.modPort_sameStores (s : State) (p : Nat) (f : Port → Port) : SameStores s (State.modPort s p f) := by
  unfold State.modPort
  refine SameStores.mk ?_
  exact SameStores.refl _

theorem State.modSeq_sameStores (s : State) (p cls : Nat) (f : ClassSeq → ClassSeq) :
    SameStores s (State.modSeq s p cls f) := by
  unfold State.modSeq
  exact State.modPort_sameStores ..

theorem State.transmit_sameStores (s : State) (p : Nat) (f : Frame) : SameStores s (State.transmit s p f) := by
  unfold State.transmit
  split
  · exact State.send_sameStores ..
  · exact SameStores.refl _

theorem State.spend_sameStores (s : State) (p pool n : Nat) : SameStores s (State.spend s p pool n) := by
  unfold State.spend
  exact State.modPort_sameStores ..

theorem State.sendNow_sameStores (s : State) (p : Nat) (c : Content) : SameStores s (State.sendNow s p c) := by
  unfold State.sendNow
  extract_lets k0 u0
  clear_value k0
  have hu0 : SameStores s u0 := by
    dsimp only [u0]
    exact State.modSeq_sameStores ..
  clear_value u0
  refine SameStores.trans ?_ (State.transmit_sameStores ..)
  refine SameStores.when ?_ (fun t => ?_)
  · assumption
  · exact State.spend_sameStores ..

theorem State.sendOn_sameStores (s : State) (p : Nat) (c : Content) : SameStores s (State.sendOn s p c) := by
  unfold State.sendOn
  split
  · exact SameStores.refl _
  · split
    · exact State.sendNow_sameStores ..
    · exact State.modSeq_sameStores ..

theorem State.sendVote_sameStores (s : State) (p : Nat) (v : Vote) : SameStores s (State.sendVote s p v) := by
  unfold State.sendVote
  exact State.sendOn_sameStores ..

theorem State.sendHalt_sameStores (s : State) : SameStores s (State.sendHalt s) := by
  unfold State.sendHalt
  exact State.sendVote_sameStores ..

theorem State.haltNote_sameStores (s old : State) : SameStores s (State.haltNote s old) := by
  unfold State.haltNote
  extract_lets u0
  have hu0 : SameStores s u0 := by
    dsimp only [u0]
    exact State.modTick_sameStores ..
  clear_value u0
  split
  · refine SameStores.trans ?_ (State.sendHalt_sameStores ..)
    assumption
  · assumption

theorem State.breakHalt_sameStores (s : State) (c g : Nat) (x : Group) : SameStores s (State.breakHalt s c g x) := by
  unfold State.breakHalt
  split
  · exact State.setBusy_sameStores ..
  · exact State.haltNote_sameStores ..

theorem State.schedule_sameStores (s : State) (c : Nat) : SameStores s (State.schedule s c) := by
  unfold State.schedule
  exact State.modCluster_sameStores ..

theorem State.draw_sameStores (s : State) : SameStores s (State.draw s) := by
  unfold State.draw
  refine SameStores.mk ?_
  exact SameStores.refl _

theorem State.killDraws_sameStores (s : State) (c t : Nat) : SameStores s (State.killDraws s c t) := by
  unfold State.killDraws
  split
  · split
    · refine SameStores.trans ?_ (State.draw_sameStores ..)
      exact State.modCluster_sameStores ..
    · exact SameStores.refl _
  · exact SameStores.refl _

theorem State.killContext_sameStores (s : State) (c t code : Nat) : SameStores s (State.killContext s c t code) := by
  unfold State.killContext
  split
  · exact SameStores.refl _
  · extract_lets u0 u1 k0
    clear_value k0
    have hu0 : SameStores s u0 := by
      dsimp only [u0]
      refine SameStores.trans ?_ (State.modTick_sameStores ..)
      exact State.cnt_sameStores ..
    clear_value u0
    have hu1 : SameStores s u1 := by
      dsimp only [u1]
      refine SameStores.each ?_ (fun t x => ?_)
      · assumption
      · exact State.killDraws_sameStores ..
    clear_value u1
    refine SameStores.mk ?_
    assumption

theorem State.threadFault_sameStores (s : State) (c g t code form addr : Nat) :
    SameStores s (State.threadFault s c g t code form addr) := by
  unfold State.threadFault
  extract_lets u0
  have hu0 : SameStores s u0 := by
    dsimp only [u0]
    refine SameStores.trans ?_ (State.violate_sameStores ..)
    exact State.wr_sameStores ..
  clear_value u0
  refine SameStores.trans ?_ (State.killContext_sameStores ..)
  assumption

theorem State.faultHere_sameStores (s : State) (c g code : Nat) (x : Group) :
    SameStores s (State.faultHere s c g code x) := by
  unfold State.faultHere
  exact State.threadFault_sameStores ..

theorem State.touchEntryWord_sameStores (s : State) (c i w src tenant : Nat) :
    SameStores s (State.touchEntryWord s c i w src tenant) := by
  unfold State.touchEntryWord
  split
  · exact SameStores.refl _
  · refine SameStores.trans ?_ (State.modCluster_sameStores ..)
    extract_lets u0
    have hu0 : SameStores s u0 := by
      dsimp only [u0]
      exact State.cnt_sameStores ..
    clear_value u0
    refine SameStores.mk ?_
    assumption
  · refine SameStores.trans ?_ (State.tickFault_sameStores ..)
    refine SameStores.trans ?_ (State.violate_sameStores ..)
    exact State.cnt_sameStores ..

theorem State.touchEntry_sameStores (s : State) (c i src tenant : Nat) :
    SameStores s (State.touchEntry s c i src tenant) := by
  unfold State.touchEntry
  refine SameStores.trans ?_ (State.touchEntryWord_sameStores ..)
  exact State.touchEntryWord_sameStores ..

theorem State.touch_sameStores (s : State) (a src tenant : Nat) : SameStores s (State.touch s a src tenant) := by
  unfold State.touch
  split
  · exact SameStores.refl _
  · exact State.corrected_sameStores ..
  · exact State.uncorrectable_sameStores ..

theorem State.fetchTouch_sameStores (s : State) (c : Nat) (x : Group) : SameStores s (State.fetchTouch s c x) := by
  unfold State.fetchTouch
  refine SameStores.each ?_ (fun t x => ?_)
  · exact State.touchEntry_sameStores ..
  · exact State.touch_sameStores ..

theorem State.setGroup_sameStores (s : State) (c g : Nat) (x : Group) : SameStores s (State.setGroup s c g x) := by
  unfold State.setGroup
  exact State.modCluster_sameStores ..

theorem State.modGroup_sameStores (s : State) (c g : Nat) (f : Group → Group) :
    SameStores s (State.modGroup s c g f) := by
  unfold State.modGroup
  split
  · exact State.setGroup_sameStores ..
  · exact SameStores.refl _

theorem State.afterIssue_sameStores (s : State) (c g : Nat) : SameStores s (State.afterIssue s c g) := by
  unfold State.afterIssue
  refine SameStores.trans ?_ (State.schedule_sameStores ..)
  exact State.modGroup_sameStores ..

theorem State.issued_sameStores (s : State) (c g : Nat) : SameStores s (State.issued s c g) := by
  unfold State.issued
  split
  · exact SameStores.refl _
  · extract_lets k0 u0
    clear_value k0
    have hu0 : SameStores s u0 := by
      dsimp only [u0]
      split
      · exact State.cnt_sameStores ..
      · exact SameStores.refl _
    clear_value u0
    refine SameStores.trans ?_ (State.draw_sameStores ..)
    refine SameStores.trans ?_ (State.modCluster_sameStores ..)
    assumption

theorem State.issueHeld_sameStores (s : State) (c g op : Nat) (w : TWord) (legal : Bool) (regs : List Nat) (hold :
    Group → Bool) (body : State → Group → State) (hb : ∀ t y, SameStores t (body t y)) :
    SameStores s (State.issueHeld s c g op w legal regs hold body) := by
  unfold State.issueHeld
  split
  · exact SameStores.refl _
  · extract_lets k0
    clear_value k0
    split
    · exact State.breakHalt_sameStores ..
    · split
      · refine SameStores.trans ?_ (State.schedule_sameStores ..)
        exact State.faultHere_sameStores ..
      · split
        · exact SameStores.refl _
        · refine SameStores.trans ?_ (State.schedule_sameStores ..)
          refine SameStores.trans ?_ (State.faultHere_sameStores ..)
          exact State.fetchTouch_sameStores ..
        · split
          · refine SameStores.trans ?_ (State.schedule_sameStores ..)
            refine SameStores.trans ?_ (State.faultHere_sameStores ..)
            exact State.fetchTouch_sameStores ..
          · split
            · refine SameStores.trans ?_ (State.schedule_sameStores ..)
              exact State.setGroup_sameStores ..
            · refine SameStores.trans ?_ (State.afterIssue_sameStores ..)
              refine SameStores.trans ?_ (hb ..)
              refine SameStores.trans ?_ (State.issued_sameStores ..)
              exact State.fetchTouch_sameStores ..

theorem State.issue_sameStores (s : State) (c g op : Nat) (w : TWord) (legal : Bool) (regs : List Nat) (body :
    State → Group → State) (hb : ∀ t y, SameStores t (body t y)) :
    SameStores s (State.issue s c g op w legal regs body) := by
  unfold State.issue
  refine State.issueHeld_sameStores (hb := fun t y => ?_) ..
  exact hb ..

theorem State.issueGroup_sameStores (s : State) (c g op : Nat) (w : TWord) (legal : Bool) (regs : List Nat) (f :
    State → Group → Group) :
    SameStores s (State.issueGroup s c g op w legal regs f) := by
  unfold State.issueGroup
  refine State.issue_sameStores (hb := fun t y => ?_) ..
  exact State.setGroup_sameStores ..

theorem State.issueO_sameStores (s : State) (c g code : Nat) (w : TWord) (op : Word → Word → Word → Word) :
    SameStores s (State.issueO s c g code w op) := by
  unfold State.issueO
  exact State.issueGroup_sameStores ..

theorem execIadd_sameStoresRes (c : Fin 512) (g : Fin 64) (w : BitVec 26) (s : State) :
    SameStoresRes s (execIadd c g w s) := by
  unfold execIadd
  refine SameStoresRes.next ?_
  exact State.issueO_sameStores ..

theorem execIsub_sameStoresRes (c : Fin 512) (g : Fin 64) (w : BitVec 26) (s : State) :
    SameStoresRes s (execIsub c g w s) := by
  unfold execIsub
  refine SameStoresRes.next ?_
  exact State.issueO_sameStores ..

theorem execImul_sameStoresRes (c : Fin 512) (g : Fin 64) (w : BitVec 26) (s : State) :
    SameStoresRes s (execImul c g w s) := by
  unfold execImul
  refine SameStoresRes.next ?_
  exact State.issueO_sameStores ..

theorem execImulhu_sameStoresRes (c : Fin 512) (g : Fin 64) (w : BitVec 26) (s : State) :
    SameStoresRes s (execImulhu c g w s) := by
  unfold execImulhu
  refine SameStoresRes.next ?_
  exact State.issueO_sameStores ..

theorem execImac_sameStoresRes (c : Fin 512) (g : Fin 64) (w : BitVec 26) (s : State) :
    SameStoresRes s (execImac c g w s) := by
  unfold execImac
  refine SameStoresRes.next ?_
  exact State.issueO_sameStores ..

theorem execAnd_sameStoresRes (c : Fin 512) (g : Fin 64) (w : BitVec 26) (s : State) :
    SameStoresRes s (execAnd c g w s) := by
  unfold execAnd
  refine SameStoresRes.next ?_
  exact State.issueO_sameStores ..

theorem execOr_sameStoresRes (c : Fin 512) (g : Fin 64) (w : BitVec 26) (s : State) :
    SameStoresRes s (execOr c g w s) := by
  unfold execOr
  refine SameStoresRes.next ?_
  exact State.issueO_sameStores ..

theorem execXor_sameStoresRes (c : Fin 512) (g : Fin 64) (w : BitVec 26) (s : State) :
    SameStoresRes s (execXor c g w s) := by
  unfold execXor
  refine SameStoresRes.next ?_
  exact State.issueO_sameStores ..

theorem execShl_sameStoresRes (c : Fin 512) (g : Fin 64) (w : BitVec 26) (s : State) :
    SameStoresRes s (execShl c g w s) := by
  unfold execShl
  refine SameStoresRes.next ?_
  exact State.issueO_sameStores ..

theorem execShr_sameStoresRes (c : Fin 512) (g : Fin 64) (w : BitVec 26) (s : State) :
    SameStoresRes s (execShr c g w s) := by
  unfold execShr
  refine SameStoresRes.next ?_
  exact State.issueO_sameStores ..

theorem execSar_sameStoresRes (c : Fin 512) (g : Fin 64) (w : BitVec 26) (s : State) :
    SameStoresRes s (execSar c g w s) := by
  unfold execSar
  refine SameStoresRes.next ?_
  exact State.issueO_sameStores ..

theorem execImin_sameStoresRes (c : Fin 512) (g : Fin 64) (w : BitVec 26) (s : State) :
    SameStoresRes s (execImin c g w s) := by
  unfold execImin
  refine SameStoresRes.next ?_
  exact State.issueO_sameStores ..

theorem execImax_sameStoresRes (c : Fin 512) (g : Fin 64) (w : BitVec 26) (s : State) :
    SameStoresRes s (execImax c g w s) := by
  unfold execImax
  refine SameStoresRes.next ?_
  exact State.issueO_sameStores ..

theorem execUmin_sameStoresRes (c : Fin 512) (g : Fin 64) (w : BitVec 26) (s : State) :
    SameStoresRes s (execUmin c g w s) := by
  unfold execUmin
  refine SameStoresRes.next ?_
  exact State.issueO_sameStores ..

theorem execUmax_sameStoresRes (c : Fin 512) (g : Fin 64) (w : BitVec 26) (s : State) :
    SameStoresRes s (execUmax c g w s) := by
  unfold execUmax
  refine SameStoresRes.next ?_
  exact State.issueO_sameStores ..

theorem execMov_sameStoresRes (c : Fin 512) (g : Fin 64) (w : BitVec 26) (s : State) :
    SameStoresRes s (execMov c g w s) := by
  unfold execMov
  refine SameStoresRes.next ?_
  exact State.issueGroup_sameStores ..

theorem execIcmp_sameStoresRes (c : Fin 512) (g : Fin 64) (w : BitVec 26) (s : State) :
    SameStoresRes s (execIcmp c g w s) := by
  unfold execIcmp
  refine SameStoresRes.next ?_
  exact State.issueGroup_sameStores ..

theorem execPbool_sameStoresRes (c : Fin 512) (g : Fin 64) (w : BitVec 26) (s : State) :
    SameStoresRes s (execPbool c g w s) := by
  unfold execPbool
  refine SameStoresRes.next ?_
  exact State.issueGroup_sameStores ..

theorem execLaneq_sameStoresRes (c : Fin 512) (g : Fin 64) (w : BitVec 26) (s : State) :
    SameStoresRes s (execLaneq c g w s) := by
  unfold execLaneq
  refine SameStoresRes.next ?_
  exact State.issueGroup_sameStores ..

theorem execXlane_sameStoresRes (c : Fin 512) (g : Fin 64) (w : BitVec 26) (s : State) :
    SameStoresRes s (execXlane c g w s) := by
  unfold execXlane
  refine SameStoresRes.next ?_
  exact State.issueGroup_sameStores ..

theorem execSysv_sameStoresRes (c : Fin 512) (g : Fin 64) (w : BitVec 26) (s : State) :
    SameStoresRes s (execSysv c g w s) := by
  unfold execSysv
  refine SameStoresRes.next ?_
  exact State.issueGroup_sameStores ..

theorem execFadd_sameStoresRes (c : Fin 512) (g : Fin 64) (w : BitVec 26) (s : State) :
    SameStoresRes s (execFadd c g w s) := by
  unfold execFadd
  refine SameStoresRes.next ?_
  exact State.issueO_sameStores ..

theorem execFsub_sameStoresRes (c : Fin 512) (g : Fin 64) (w : BitVec 26) (s : State) :
    SameStoresRes s (execFsub c g w s) := by
  unfold execFsub
  refine SameStoresRes.next ?_
  exact State.issueO_sameStores ..

theorem execFmul_sameStoresRes (c : Fin 512) (g : Fin 64) (w : BitVec 26) (s : State) :
    SameStoresRes s (execFmul c g w s) := by
  unfold execFmul
  refine SameStoresRes.next ?_
  exact State.issueO_sameStores ..

theorem execFfma_sameStoresRes (c : Fin 512) (g : Fin 64) (w : BitVec 26) (s : State) :
    SameStoresRes s (execFfma c g w s) := by
  unfold execFfma
  refine SameStoresRes.next ?_
  exact State.issueO_sameStores ..

theorem execFmin_sameStoresRes (c : Fin 512) (g : Fin 64) (w : BitVec 26) (s : State) :
    SameStoresRes s (execFmin c g w s) := by
  unfold execFmin
  refine SameStoresRes.next ?_
  exact State.issueO_sameStores ..

theorem execFmax_sameStoresRes (c : Fin 512) (g : Fin 64) (w : BitVec 26) (s : State) :
    SameStoresRes s (execFmax c g w s) := by
  unfold execFmax
  refine SameStoresRes.next ?_
  exact State.issueO_sameStores ..

theorem execFcmp_sameStoresRes (c : Fin 512) (g : Fin 64) (w : BitVec 26) (s : State) :
    SameStoresRes s (execFcmp c g w s) := by
  unfold execFcmp
  refine SameStoresRes.next ?_
  exact State.issueGroup_sameStores ..

theorem execCvt_sameStoresRes (c : Fin 512) (g : Fin 64) (w : BitVec 26) (s : State) :
    SameStoresRes s (execCvt c g w s) := by
  unfold execCvt
  refine SameStoresRes.next ?_
  exact State.issueGroup_sameStores ..

theorem execTfn_sameStoresRes (c : Fin 512) (g : Fin 64) (w : BitVec 26) (s : State) :
    SameStoresRes s (execTfn c g w s) := by
  unfold execTfn
  refine SameStoresRes.next ?_
  exact State.issueGroup_sameStores ..

theorem State.issueI_sameStores (s : State) (c g code : Nat) (w : TWord) (legal : Bool) (op : Word → Word) :
    SameStores s (State.issueI s c g code w legal op) := by
  unfold State.issueI
  exact State.issueGroup_sameStores ..

theorem execIaddi_sameStoresRes (c : Fin 512) (g : Fin 64) (w : BitVec 26) (s : State) :
    SameStoresRes s (execIaddi c g w s) := by
  unfold execIaddi
  refine SameStoresRes.next ?_
  exact State.issueI_sameStores ..

theorem execAndi_sameStoresRes (c : Fin 512) (g : Fin 64) (w : BitVec 26) (s : State) :
    SameStoresRes s (execAndi c g w s) := by
  unfold execAndi
  refine SameStoresRes.next ?_
  exact State.issueI_sameStores ..

theorem execOri_sameStoresRes (c : Fin 512) (g : Fin 64) (w : BitVec 26) (s : State) :
    SameStoresRes s (execOri c g w s) := by
  unfold execOri
  refine SameStoresRes.next ?_
  exact State.issueI_sameStores ..

theorem execXori_sameStoresRes (c : Fin 512) (g : Fin 64) (w : BitVec 26) (s : State) :
    SameStoresRes s (execXori c g w s) := by
  unfold execXori
  refine SameStoresRes.next ?_
  exact State.issueI_sameStores ..

theorem execShli_sameStoresRes (c : Fin 512) (g : Fin 64) (w : BitVec 26) (s : State) :
    SameStoresRes s (execShli c g w s) := by
  unfold execShli
  refine SameStoresRes.next ?_
  exact State.issueI_sameStores ..

theorem execShri_sameStoresRes (c : Fin 512) (g : Fin 64) (w : BitVec 26) (s : State) :
    SameStoresRes s (execShri c g w s) := by
  unfold execShri
  refine SameStoresRes.next ?_
  exact State.issueI_sameStores ..

theorem execSari_sameStoresRes (c : Fin 512) (g : Fin 64) (w : BitVec 26) (s : State) :
    SameStoresRes s (execSari c g w s) := by
  unfold execSari
  refine SameStoresRes.next ?_
  exact State.issueI_sameStores ..

theorem execIcmpi_sameStoresRes (c : Fin 512) (g : Fin 64) (w : BitVec 26) (s : State) :
    SameStoresRes s (execIcmpi c g w s) := by
  unfold execIcmpi
  refine SameStoresRes.next ?_
  exact State.issueGroup_sameStores ..

theorem execMovl_sameStoresRes (c : Fin 512) (g : Fin 64) (w : BitVec 26) (s : State) :
    SameStoresRes s (execMovl c g w s) := by
  unfold execMovl
  refine SameStoresRes.next ?_
  exact State.issueGroup_sameStores ..

theorem execMovh_sameStoresRes (c : Fin 512) (g : Fin 64) (w : BitVec 26) (s : State) :
    SameStoresRes s (execMovh c g w s) := by
  unfold execMovh
  refine SameStoresRes.next ?_
  exact State.issueGroup_sameStores ..

theorem execUmovl_sameStoresRes (c : Fin 512) (g : Fin 64) (w : BitVec 26) (s : State) :
    SameStoresRes s (execUmovl c g w s) := by
  unfold execUmovl
  refine SameStoresRes.next ?_
  exact State.issueGroup_sameStores ..

theorem execUmovh_sameStoresRes (c : Fin 512) (g : Fin 64) (w : BitVec 26) (s : State) :
    SameStoresRes s (execUmovh c g w s) := by
  unfold execUmovh
  refine SameStoresRes.next ?_
  exact State.issueGroup_sameStores ..

theorem execUaddi_sameStoresRes (c : Fin 512) (g : Fin 64) (w : BitVec 26) (s : State) :
    SameStoresRes s (execUaddi c g w s) := by
  unfold execUaddi
  refine SameStoresRes.next ?_
  exact State.issueGroup_sameStores ..

theorem execRdlane_sameStoresRes (c : Fin 512) (g : Fin 64) (w : BitVec 26) (s : State) :
    SameStoresRes s (execRdlane c g w s) := by
  unfold execRdlane
  refine SameStoresRes.next ?_
  exact State.issueGroup_sameStores ..

theorem State.issueMove_sameStores (s : State) (c g op : Nat) (w : TWord) (legal : Bool) (f : Group → Option Group) :
    SameStores s (State.issueMove s c g op w legal f) := by
  unfold State.issueMove
  refine State.issue_sameStores (hb := fun t y => ?_) ..
  split
  · exact State.setGroup_sameStores ..
  · exact State.faultHere_sameStores ..

theorem execBra_sameStoresRes (c : Fin 512) (g : Fin 64) (w : BitVec 26) (s : State) :
    SameStoresRes s (execBra c g w s) := by
  unfold execBra
  refine SameStoresRes.next ?_
  exact State.issueMove_sameStores ..

theorem execJmark_sameStoresRes (c : Fin 512) (g : Fin 64) (w : BitVec 26) (s : State) :
    SameStoresRes s (execJmark c g w s) := by
  unfold execJmark
  refine SameStoresRes.next ?_
  exact State.issueMove_sameStores ..

theorem execJn_sameStoresRes (c : Fin 512) (g : Fin 64) (w : BitVec 26) (s : State) :
    SameStoresRes s (execJn c g w s) := by
  unfold execJn
  refine SameStoresRes.next ?_
  exact State.issueMove_sameStores ..

theorem State.modFab_sameStores (s : State) (f : Fabric → Fabric) : SameStores s (State.modFab s f) := by
  unfold State.modFab
  refine SameStores.mk ?_
  exact SameStores.refl _

theorem State.removeGroup_sameStores (s : State) (c g : Nat) : SameStores s (State.removeGroup s c g) := by
  unfold State.removeGroup
  exact State.modCluster_sameStores ..

theorem State.retire_sameStores (s : State) (c g : Nat) : SameStores s (State.retire s c g) := by
  unfold State.retire
  split
  · exact SameStores.refl _
  · refine SameStores.trans ?_ (State.modFab_sameStores ..)
    exact State.removeGroup_sameStores ..

theorem execExit_sameStoresRes (c : Fin 512) (g : Fin 64) (w : BitVec 26) (s : State) :
    SameStoresRes s (execExit c g w s) := by
  unfold execExit
  refine SameStoresRes.next ?_
  refine State.issue_sameStores (hb := fun t y => ?_) ..
  exact State.retire_sameStores ..

theorem execFence_sameStoresRes (c : Fin 512) (g : Fin 64) (w : BitVec 26) (s : State) :
    SameStoresRes s (execFence c g w s) := by
  unfold execFence
  refine SameStoresRes.next ?_
  exact State.issueGroup_sameStores ..

theorem execFenceRelease_sameStoresRes (c : Fin 512) (g : Fin 64) (s : State) :
    SameStoresRes s (execFenceRelease c g s) := by
  unfold execFenceRelease
  refine SameStoresRes.next ?_
  split
  · split
    · split
      · refine SameStores.trans ?_ (State.schedule_sameStores ..)
        exact State.setGroup_sameStores ..
      · exact SameStores.refl _
    · exact SameStores.refl _
  · exact SameStores.refl _

theorem State.raise_sameStores (s : State) (c g t blk k addr : Nat) :
    SameStores s (State.raise s c g t blk k addr) := by
  unfold State.raise
  split
  · exact SameStores.refl _
  · extract_lets k0
    clear_value k0
    split
    · exact State.threadFault_sameStores ..
    · exact State.modCluster_sameStores ..

theorem State.raiseDue_sameStores (s : State) (c : Nat) : SameStores s (State.raiseDue s c) := by
  unfold State.raiseDue
  extract_lets k0
  clear_value k0
  refine SameStores.each ?_ (fun t x => ?_)
  · exact State.modCluster_sameStores ..
  · exact State.raise_sameStores ..

theorem execArrive_sameStoresRes (c : Fin 512) (g : Fin 64) (w : BitVec 26) (s : State) :
    SameStoresRes s (execArrive c g w s) := by
  unfold execArrive
  refine SameStoresRes.next ?_
  refine State.issue_sameStores (hb := fun t y => ?_) ..
  refine SameStores.trans ?_ (State.raiseDue_sameStores ..)
  refine SameStores.trans ?_ (State.modCluster_sameStores ..)
  exact State.setGroup_sameStores ..

theorem execWaita_sameStoresRes (c : Fin 512) (g : Fin 64) (w : BitVec 26) (s : State) :
    SameStoresRes s (execWaita c g w s) := by
  unfold execWaita
  refine SameStoresRes.next ?_
  exact State.issueGroup_sameStores ..

theorem execWaitaRelease_sameStoresRes (c : Fin 512) (g : Fin 64) (s : State) :
    SameStoresRes s (execWaitaRelease c g s) := by
  unfold execWaitaRelease
  refine SameStoresRes.next ?_
  split
  · split
    · split
      · refine SameStores.trans ?_ (State.schedule_sameStores ..)
        exact State.setGroup_sameStores ..
      · exact SameStores.refl _
    · exact SameStores.refl _
  · exact SameStores.refl _

theorem State.codeword_sameStores (s : State) (p : Nat) (errs : List Nat) : SameStores s (State.codeword s p errs)
    := by
  unfold State.codeword
  extract_lets k0 k1 u0 k2
  clear_value k0 k1 k2
  have hu0 : SameStores s u0 := by
    dsimp only [u0]
    split
    · split
      · exact SameStores.refl _
      · refine SameStores.trans ?_ (State.wr_sameStores ..)
        exact State.wr_sameStores ..
    · exact State.wr_sameStores ..
  clear_value u0
  split
  · assumption
  · split
    · refine SameStores.trans ?_ (State.modPort_sameStores ..)
      refine SameStores.trans ?_ (State.cnt_sameStores ..)
      assumption
    · refine SameStores.each ?_ (fun t x => ?_)
      · refine SameStores.trans ?_ (State.cnt_sameStores ..)
        refine SameStores.trans ?_ (State.cnt_sameStores ..)
        assumption
      · exact State.cnt_sameStores ..

theorem State.codeBlock_sameStores (s : State) (p : Nat) (b : CwBlock) : SameStores s (State.codeBlock s p b) := by
  unfold State.codeBlock
  split
  · exact SameStores.refl _
  · refine SameStores.each ?_ (fun t x => ?_)
    · exact State.modPort_sameStores ..
    · exact State.codeword_sameStores ..

theorem State.takeBlocks_sameStores (s : State) (p : Nat) (l : Codewords) : SameStores s (State.takeBlocks s p l)
    := by
  unfold State.takeBlocks
  refine SameStores.each ?_ (fun t x => ?_)
  · exact SameStores.refl _
  · exact State.codeBlock_sameStores ..

theorem State.event_sameStores (s : State) (p : PageType) (i n : Nat) : SameStores s (State.event s p i n) := by
  unfold State.event
  exact State.irq_sameStores ..

theorem State.fencePort_sameStores (s : State) (p : Nat) : SameStores s (State.fencePort s p) := by
  unfold State.fencePort
  extract_lets k0 u0
  clear_value k0
  have hu0 : SameStores s u0 := by
    dsimp only [u0]
    refine SameStores.trans ?_ (State.event_sameStores ..)
    refine SameStores.trans ?_ (State.modPort_sameStores ..)
    exact State.cnt_sameStores ..
  clear_value u0
  split
  · refine SameStores.trans ?_ (State.event_sameStores ..)
    assumption
  · assumption

theorem State.authFail_sameStores (s : State) (p : Nat) : SameStores s (State.authFail s p) := by
  unfold State.authFail
  extract_lets k0 u0
  clear_value k0
  have hu0 : SameStores s u0 := by
    dsimp only [u0]
    refine SameStores.trans ?_ (State.modPort_sameStores ..)
    exact State.cnt_sameStores ..
  clear_value u0
  split
  · assumption
  · refine SameStores.trans ?_ (State.fencePort_sameStores ..)
    assumption

theorem State.release_sameStores (s : State) (p pool n : Nat) : SameStores s (State.release s p pool n) := by
  unfold State.release
  exact State.modPort_sameStores ..

theorem State.accept_sameStoresFst (s : State) (p cls q : Nat) (old : Bool) :
    SameStores s (State.accept s p cls q old).1 := by
  unfold State.accept
  extract_lets k0 k1
  clear_value k0 k1
  split
  · dsimp only
    exact State.cnt_sameStores ..
  · extract_lets u0 u1
    have hu0 : SameStores s u0 := by
      dsimp only [u0]
      split
      · exact State.modPort_sameStores ..
      · refine SameStores.trans ?_ (State.modPort_sameStores ..)
        exact State.modSeq_sameStores ..
    clear_value u0
    have hu1 : SameStores s u1 := by
      dsimp only [u1]
      refine SameStores.when ?_ (fun t => ?_)
      · assumption
      · exact State.sendOn_sameStores ..
    clear_value u1
    dsimp only
    refine SameStores.when ?_ (fun t => ?_)
    · assumption
    · exact State.release_sameStores ..

theorem State.turnKey_sameStores (s : State) (p : Nat) : SameStores s (State.turnKey s p) := by
  unfold State.turnKey
  exact State.modPort_sameStores ..

theorem State.receive_sameStoresFst (s : State) (p cls : Nat) (a : Arrival) :
    SameStores s (State.receive s p cls a).1 := by
  unfold State.receive
  split
  · dsimp only
    exact SameStores.refl _
  · extract_lets u0 k0 k1 k2
    clear_value k0 k1 k2
    have hu0 : SameStores s u0 := by
      dsimp only [u0]
      exact State.takeBlocks_sameStores ..
    clear_value u0
    split
    · dsimp only
      assumption
    · split
      · dsimp only
        assumption
      · split
        · dsimp only
          refine SameStores.trans ?_ (State.authFail_sameStores ..)
          assumption
        · refine SameStores.trans ?_ (State.accept_sameStoresFst ..)
          refine SameStores.when ?_ (fun t => ?_)
          · assumption
          · exact State.turnKey_sameStores ..

theorem State.modArmed_sameStores (s : State) (id : Nat) (tx : Bool) (f : Armed → Armed) :
    SameStores s (State.modArmed s id tx f) := by
  unfold State.modArmed
  exact State.modFab_sameStores ..

theorem State.afterRead_sameStores (s : State) (g src tenant : Nat) (as : List Nat) :
    SameStores s (State.afterRead s g src tenant as) := by
  unfold State.afterRead
  refine SameStores.trans ?_ (State.draw_sameStores ..)
  refine SameStores.each ?_ (fun t x => ?_)
  · exact SameStores.refl _
  · exact State.touch_sameStores ..

theorem State.sendSeg_sameStores (s : State) (x : Slot) (a : Armed) (replay : Bool) (g : Nat × Nat × Nat) :
    SameStores s (State.sendSeg s x a replay g) := by
  unfold State.sendSeg
  extract_lets k0 k1 k2
  clear_value k0 k1 k2
  refine SameStores.trans ?_ (State.sendOn_sameStores ..)
  exact State.afterRead_sameStores ..

theorem State.sendSlot_sameStores (s : State) (id : Nat) (replay : Bool) :
    SameStores s (State.sendSlot s id replay) := by
  unfold State.sendSlot
  extract_lets k0
  clear_value k0
  split
  · refine SameStores.each ?_ (fun t x => ?_)
    · exact SameStores.refl _
    · exact State.sendOn_sameStores ..
  · split
    · refine SameStores.trans ?_ (State.modArmed_sameStores ..)
      refine SameStores.each ?_ (fun t x => ?_)
      · exact SameStores.refl _
      · exact State.sendSeg_sameStores ..
    · exact SameStores.refl _

theorem State.sendReplay_sameStores (s : State) (id : Nat) : SameStores s (State.sendReplay s id) := by
  unfold State.sendReplay
  extract_lets k0 k1
  clear_value k0 k1
  split
  · exact SameStores.refl _
  · refine SameStores.trans ?_ (State.cnt_sameStores ..)
    refine SameStores.trans ?_ (State.sendSlot_sameStores ..)
    exact State.modFab_sameStores ..

theorem State.sendReplays_sameStores (s : State) : SameStores s (State.sendReplays s) := by
  unfold State.sendReplays
  split
  · refine SameStores.each ?_ (fun t x => ?_)
    · exact SameStores.refl _
    · exact State.sendReplay_sameStores ..
  · exact SameStores.refl _

theorem State.want_sameStores (s : State) (id : Nat) : SameStores s (State.want s id) := by
  unfold State.want
  refine SameStores.trans ?_ (State.sendReplays_sameStores ..)
  split
  · exact SameStores.refl _
  · exact State.modFab_sameStores ..

theorem execReplayReq_sameStoresRes (port : Fin 16) (a : Arrival) (slot tick : Nat) (s : State) :
    SameStoresRes s (execReplayReq port a slot tick s) := by
  unfold execReplayReq
  refine SameStoresRes.next ?_
  split
  · extract_lets k0
    clear_value k0
    split
    · rename_i hq _
      have hk := congrArg Prod.fst hq
      dsimp only at hk
      rw [← hk]
      exact State.receive_sameStoresFst ..
    · split
      · refine SameStores.trans ?_ (State.want_sameStores ..)
        rename_i hq _ _
        have hk := congrArg Prod.fst hq
        dsimp only at hk
        rw [← hk]
        exact State.receive_sameStoresFst ..
      · split
        · refine SameStores.trans ?_ (State.sendOn_sameStores ..)
          rename_i hq _ _ _
          have hk := congrArg Prod.fst hq
          dsimp only at hk
          rw [← hk]
          exact State.receive_sameStoresFst ..
        · rename_i hq _ _ _
          have hk := congrArg Prod.fst hq
          dsimp only at hk
          rw [← hk]
          exact State.receive_sameStoresFst ..
  · rename_i hq
    have hk := congrArg Prod.fst hq
    dsimp only at hk
    rw [← hk]
    exact State.receive_sameStoresFst ..

theorem State.setCtx_sameStores (s : State) (c k : Nat) (x : Ctx) : SameStores s (State.setCtx s c k x) := by
  unfold State.setCtx
  exact State.modCluster_sameStores ..

theorem State.leaseStuck_sameStores (s : State) (c : Nat) : SameStores s (State.leaseStuck s c) := by
  unfold State.leaseStuck
  exact State.setCtx_sameStores ..

theorem State.seqFault_sameStores (s : State) (c k code : Nat) : SameStores s (State.seqFault s c k code) := by
  unfold State.seqFault
  extract_lets k0 k1 u0
  clear_value k0 k1
  have hu0 : SameStores s u0 := by
    dsimp only [u0]
    refine SameStores.trans ?_ (State.violate_sameStores ..)
    exact State.wr_sameStores ..
  clear_value u0
  refine SameStores.trans ?_ (State.killContext_sameStores ..)
  assumption

theorem State.issueSeq_sameStores (s0 : State) (c k : Nat) (w : QWord) (kind : Nat) (legal lease tenant : Bool)
    (body : State → Ctx → State) (ha : (s0.ctx c k).hold = 0) (hb : ∀ t y, t.island = s0.island → SameStores t
      (body t y)) :
    SameStores s0 (State.issueSeq s0 c k w kind legal lease tenant body) := by
  have h0 : s0.passHold c k = s0 := by simp only [State.passHold, ha, if_true]
  unfold State.issueSeq
  rw [h0]
  extract_lets u0 u1 k0 k1 k2 k3 u2
  clear_value k0 k1 k2 k3
  have hu0 : SameStores s0 u0 := by
    dsimp only [u0]
    exact SameStores.refl _
  clear_value u0
  have hu1 : SameStores s0 u1 := by
    dsimp only [u1]
    refine SameStores.when ?_ (fun t => ?_)
    · assumption
    · exact State.cnt_sameStores ..
  clear_value u1
  have hu2 : SameStores s0 u2 := by
    dsimp only [u2]
    refine SameStores.trans ?_ (State.touch_sameStores ..)
    assumption
  clear_value u2
  split
  · exact SameStores.refl _
  · split
    · assumption
    · split
      · split
        · refine SameStores.trans ?_ (State.leaseStuck_sameStores ..)
          assumption
        · refine SameStores.trans ?_ (State.seqFault_sameStores ..)
          assumption
      · split
        · split
          · refine SameStores.trans ?_ (State.leaseStuck_sameStores ..)
            assumption
          · refine SameStores.trans ?_ (hb _ _ hu2.island)
            assumption
        · split
          · refine SameStores.trans ?_ (State.seqFault_sameStores ..)
            assumption
          · refine SameStores.trans ?_ (hb _ _ hu2.island)
            assumption

theorem State.issueWord_sameStores (s : State) (c k : Nat) (w : QWord) (kind : Nat) (legal lease tenant : Bool) (f
    : State → Ctx → State) (ha : (s.ctx c k).hold = 0) (hb : ∀ t y, SameStores t (f t y)) :
    SameStores s (State.issueWord s c k w kind legal lease tenant f) := by
  unfold State.issueWord
  refine State.issueSeq_sameStores (ha := ha) (hb := fun t y ht => ?_) ..
  refine SameStores.trans ?_ (hb ..)
  exact State.setCtx_sameStores ..

theorem State.noteSlack_sameStores (s : State) (c : Nat) (live : Bool) (v : Nat) :
    SameStores s (State.noteSlack s c live v) := by
  unfold State.noteSlack
  split
  · exact SameStores.refl _
  · exact State.modCluster_sameStores ..

theorem execWaitAt_sameStoresRes (c : Fin 512) (k : Fin 9) (w : BitVec 64) (s : State) (ha : (s.ctx c k).hold = 0) :
    SameStoresRes s (execWaitAt c k w s) := by
  unfold execWaitAt
  refine SameStoresRes.next ?_
  split
  · exact SameStores.refl _
  · refine State.issueWord_sameStores (ha := ha) (hb := fun t y => ?_) ..
    extract_lets u0
    have hu0 : SameStores t u0 := by
      dsimp only [u0]
      exact State.noteSlack_sameStores ..
    clear_value u0
    split
    · refine SameStores.trans ?_ (State.cnt_sameStores ..)
      assumption
    · split
      · assumption
      · refine SameStores.trans ?_ (State.setCtx_sameStores ..)
        assumption

theorem execWaitFor_sameStoresRes (c : Fin 512) (k : Fin 9) (w : BitVec 64) (s : State) (ha : (s.ctx c k).hold = 0) :
    SameStoresRes s (execWaitFor c k w s) := by
  unfold execWaitFor
  refine SameStoresRes.next ?_
  split
  · exact SameStores.refl _
  · refine State.issueWord_sameStores (ha := ha) (hb := fun t y => ?_) ..
    exact State.setCtx_sameStores ..

theorem execWaitIdle_sameStoresRes (c : Fin 512) (k : Fin 9) (w : BitVec 64) (s : State) (ha : (s.ctx c k).hold = 0) :
    SameStoresRes s (execWaitIdle c k w s) := by
  unfold execWaitIdle
  refine SameStoresRes.next ?_
  split
  · exact SameStores.refl _
  · refine State.issueWord_sameStores (ha := ha) (hb := fun t y => ?_) ..
    split
    · exact SameStores.refl _
    · exact State.setCtx_sameStores ..

theorem State.hand_sameStores (s : State) (c k n off : Nat) (w : QWord) (ha : s.island.disagree = false) :
    SameStores s (State.hand s c k n off w) := by
  unfold State.hand
  extract_lets k0 k1 k2 k3 u0 k4 k5 u1
  clear_value k0 k1 k2 k3 k4 k5
  have hu0 : SameStores s u0 := by
    dsimp only [u0]
    refine SameStores.each ?_ (fun t x => ?_)
    · exact SameStores.refl _
    · exact State.touch_sameStores ..
  clear_value u0
  have hu1 : SameStores s u1 := by
    dsimp only [u1]
    refine SameStores.each ?_ (fun t x => ?_)
    · assumption
    · exact State.touchEntry_sameStores ..
  clear_value u1
  split
  · refine SameStores.trans ?_ (State.setCtx_sameStores ..)
    assumption
  · split
    · extract_lets u2 u3
      have h2 : u2 = u1 := by
        dsimp only [u2]
        rw [State.disagreed_agree (by rw [hu1.island]; exact ha), ite_self]
      clear_value u2
      subst h2
      have hu3 : SameStores s u3 := by
        dsimp only [u3]
        split
        · assumption
        · refine SameStores.trans ?_ (State.violate_sameStores ..)
          assumption
      clear_value u3
      refine SameStores.trans ?_ (State.seqFault_sameStores ..)
      assumption
    · refine SameStores.trans ?_ (State.modFab_sameStores ..)
      refine SameStores.trans ?_ (State.modCluster_sameStores ..)
      refine SameStores.trans ?_ (State.setCtx_sameStores ..)
      assumption

theorem State.issueEngine_sameStores (s : State) (c k : Nat) (w : QWord) (n : Nat) (ha : s.island.disagree = false
    ∧ (s.ctx c k).hold = 0) :
    SameStores s (State.issueEngine s c k w n) := by
  unfold State.issueEngine
  extract_lets k0
  clear_value k0
  split
  · exact SameStores.refl _
  · refine State.issueSeq_sameStores (ha := ha.2) (hb := fun t y ht => ?_) ..
    split
    · exact State.seqFault_sameStores ..
    · exact State.hand_sameStores (ha := by rw [ht]; exact ha.1) ..

theorem execIssueT_sameStoresRes (c : Fin 512) (k : Fin 9) (w : BitVec 64) (s : State) (ha : s.island.disagree =
    false ∧ (s.ctx c k).hold = 0) :
    SameStoresRes s (execIssueT c k w s) := by
  unfold execIssueT
  refine SameStoresRes.next ?_
  exact State.issueEngine_sameStores (ha := ha) ..

theorem execIssueV_sameStoresRes (c : Fin 512) (k : Fin 9) (w : BitVec 64) (s : State) (ha : s.island.disagree =
    false ∧ (s.ctx c k).hold = 0) :
    SameStoresRes s (execIssueV c k w s) := by
  unfold execIssueV
  refine SameStoresRes.next ?_
  exact State.issueEngine_sameStores (ha := ha) ..

theorem execIssueD_sameStoresRes (c : Fin 512) (k : Fin 9) (w : BitVec 64) (s : State) (ha : s.island.disagree =
    false ∧ (s.ctx c k).hold = 0) :
    SameStoresRes s (execIssueD c k w s) := by
  unfold execIssueD
  refine SameStoresRes.next ?_
  exact State.issueEngine_sameStores (ha := ha) ..

theorem State.askReplay_sameStores (s : State) (id : Nat) : SameStores s (State.askReplay s id) := by
  unfold State.askReplay
  extract_lets k0
  clear_value k0
  split
  · exact SameStores.refl _
  · refine SameStores.trans ?_ (State.modArmed_sameStores ..)
    exact State.sendOn_sameStores ..

theorem State.askLate_sameStores (s : State) : SameStores s (State.askLate s) := by
  unfold State.askLate
  split
  · refine SameStores.each ?_ (fun t x => ?_)
    · exact SameStores.refl _
    · exact State.askReplay_sameStores ..
  · exact SameStores.refl _

theorem State.arm_sameStores (s : State) (c id h off : Nat) (tx refresh : Bool) :
    SameStores s (State.arm s c id h off tx refresh) := by
  unfold State.arm
  extract_lets k0 k1 u0
  clear_value k0 k1
  have hu0 : SameStores s u0 := by
    dsimp only [u0]
    refine SameStores.trans ?_ (State.modFab_sameStores ..)
    refine SameStores.when ?_ (fun t => ?_)
    · exact SameStores.refl _
    · exact State.cnt_sameStores ..
  clear_value u0
  split
  · split
    · refine SameStores.trans ?_ (State.want_sameStores ..)
      assumption
    · refine SameStores.trans ?_ (State.sendReplays_sameStores ..)
      assumption
  · refine SameStores.trans ?_ (State.askLate_sameStores ..)
    assumption

theorem State.issueSlot_sameStores (s : State) (c k : Nat) (w : QWord) (kind : Nat) (tx : Bool) (ha :
    s.island.disagree = false ∧ (s.ctx c k).hold = 0) :
    SameStores s (State.issueSlot s c k w kind tx) := by
  unfold State.issueSlot
  extract_lets k0 k1 k2
  clear_value k0 k1 k2
  refine State.issueSeq_sameStores (ha := ha.2) (hb := fun t y ht => ?_) ..
  extract_lets k3 u0
  clear_value k3
  have hu0 : SameStores t u0 := by
    dsimp only [u0]
    exact State.touchEntry_sameStores ..
  clear_value u0
  split
  · refine SameStores.trans ?_ (State.setCtx_sameStores ..)
    assumption
  · split
    · refine SameStores.trans ?_ (State.seqFault_sameStores ..)
      rw [State.disagreed_agree (by rw [hu0.island, ht]; exact ha.1)]
      assumption
    · refine SameStores.trans ?_ (State.arm_sameStores ..)
      refine SameStores.trans ?_ (State.setCtx_sameStores ..)
      assumption

theorem execSlotTx_sameStoresRes (c : Fin 512) (k : Fin 9) (w : BitVec 64) (s : State) (ha : s.island.disagree =
    false ∧ (s.ctx c k).hold = 0) :
    SameStoresRes s (execSlotTx c k w s) := by
  unfold execSlotTx
  refine SameStoresRes.next ?_
  exact State.issueSlot_sameStores (ha := ha) ..

theorem execSlotRx_sameStoresRes (c : Fin 512) (k : Fin 9) (w : BitVec 64) (s : State) (ha : s.island.disagree =
    false ∧ (s.ctx c k).hold = 0) :
    SameStoresRes s (execSlotRx c k w s) := by
  unfold execSlotRx
  refine SameStoresRes.next ?_
  exact State.issueSlot_sameStores (ha := ha) ..

theorem execLease_sameStoresRes (c : Fin 512) (k : Fin 9) (w : BitVec 64) (s : State) (ha : (s.ctx c k).hold = 0) :
    SameStoresRes s (execLease c k w s) := by
  unfold execLease
  refine SameStoresRes.next ?_
  refine State.issueWord_sameStores (ha := ha) (hb := fun t y => ?_) ..
  exact State.modCluster_sameStores ..

theorem State.launchBlock_sameStores (s : State) (c t : Nat) (b : List Byte) :
    SameStores s (State.launchBlock s c t b) := by
  unfold State.launchBlock
  extract_lets k0 k1
  clear_value k0 k1
  refine SameStores.trans ?_ (State.schedule_sameStores ..)
  exact State.modCluster_sameStores ..

theorem State.launchOf_sameStores (s : State) (c k t : Nat) (w : QWord) (b : List Byte) :
    SameStores s (State.launchOf s c k t w b) := by
  unfold State.launchOf
  split
  · exact State.seqFault_sameStores ..
  · extract_lets u0 u1
    have hu0 : SameStores s u0 := by
      dsimp only [u0]
      refine SameStores.trans ?_ (State.touchEntry_sameStores ..)
      exact State.touchEntry_sameStores ..
    clear_value u0
    have hu1 : SameStores s u1 := by
      dsimp only [u1]
      refine SameStores.trans ?_ (State.setCtx_sameStores ..)
      assumption
    clear_value u1
    split
    · assumption
    · refine SameStores.trans ?_ (State.launchBlock_sameStores ..)
      assumption

theorem execLaunch_sameStoresRes (c : Fin 512) (k : Fin 9) (w : BitVec 64) (s : State) (ha : (s.ctx c k).hold = 0) :
    SameStoresRes s (execLaunch c k w s) := by
  unfold execLaunch
  extract_lets k0
  clear_value k0
  refine SameStoresRes.next ?_
  refine State.issueSeq_sameStores (ha := ha) (hb := fun t y ht => ?_) ..
  extract_lets k1 k2
  clear_value k1 k2
  split
  · exact State.seqFault_sameStores ..
  · refine SameStores.trans ?_ (State.launchOf_sameStores ..)
    refine SameStores.each ?_ (fun t x => ?_)
    · exact SameStores.refl _
    · exact State.touch_sameStores ..

theorem execJoin_sameStoresRes (c : Fin 512) (k : Fin 9) (w : BitVec 64) (s : State) (ha : (s.ctx c k).hold = 0) :
    SameStoresRes s (execJoin c k w s) := by
  unfold execJoin
  extract_lets k0
  clear_value k0
  refine SameStoresRes.next ?_
  refine State.issueSeq_sameStores (ha := ha) (hb := fun t y ht => ?_) ..
  split
  · exact State.seqFault_sameStores ..
  · extract_lets k1
    clear_value k1
    split
    · exact State.setCtx_sameStores ..
    · exact State.setCtx_sameStores ..

theorem execJoinComplete_sameStoresRes (c : Fin 512) (blk : Fin 16) (s : State) :
    SameStoresRes s (execJoinComplete c blk s) := by
  unfold execJoinComplete
  extract_lets k0
  clear_value k0
  refine SameStoresRes.next ?_
  split
  · split
    · exact State.setCluster_sameStores ..
    · exact SameStores.refl _
  · exact SameStores.refl _

theorem execMarkEnd_sameStoresRes (c : Fin 512) (k : Fin 9) (w : BitVec 64) (s : State) (ha : (s.ctx c k).hold = 0) :
    SameStoresRes s (execMarkEnd c k w s) := by
  unfold execMarkEnd
  refine SameStoresRes.next ?_
  split
  · exact SameStores.refl _
  · refine State.issueWord_sameStores (ha := ha) (hb := fun t y => ?_) ..
    refine SameStores.trans ?_ (State.setCtx_sameStores ..)
    exact State.noteSlack_sameStores ..

theorem execMarkTrace_sameStoresRes (c : Fin 512) (k : Fin 9) (w : BitVec 64) (s : State) (ha : (s.ctx c k).hold =
    0) :
    SameStoresRes s (execMarkTrace c k w s) := by
  unfold execMarkTrace
  refine SameStoresRes.next ?_
  split
  · exact SameStores.refl _
  · refine State.issueWord_sameStores (ha := ha) (hb := fun t y => ?_) ..
    extract_lets k0
    clear_value k0
    refine SameStores.trans ?_ (State.modCluster_sameStores ..)
    refine SameStores.foldl ?_ (fun t x => ?_)
    · exact SameStores.refl _
    · exact State.wr_sameStores ..

theorem execLoopSet_sameStoresRes (c : Fin 512) (k : Fin 9) (w : BitVec 64) (s : State) (ha : (s.ctx c k).hold = 0) :
    SameStoresRes s (execLoopSet c k w s) := by
  unfold execLoopSet
  refine SameStoresRes.next ?_
  split
  · exact SameStores.refl _
  · refine State.issueWord_sameStores (ha := ha) (hb := fun t y => ?_) ..
    exact State.setCtx_sameStores ..

theorem execLoopBack_sameStoresRes (c : Fin 512) (k : Fin 9) (w : BitVec 64) (s : State) (ha : (s.ctx c k).hold = 0) :
    SameStoresRes s (execLoopBack c k w s) := by
  unfold execLoopBack
  extract_lets k0 k1
  clear_value k0 k1
  refine SameStoresRes.next ?_
  split
  · exact SameStores.refl _
  · refine State.issueSeq_sameStores (ha := ha) (hb := fun t y ht => ?_) ..
    split
    · split
      · exact State.leaseStuck_sameStores ..
      · exact State.seqFault_sameStores ..
    · extract_lets k2 k3
      clear_value k2 k3
      split
      · exact State.setCtx_sameStores ..
      · exact State.setCtx_sameStores ..

theorem execHalt_sameStoresRes (c : Fin 512) (k : Fin 9) (w : BitVec 64) (s : State) (ha : (s.ctx c k).hold = 0) :
    SameStoresRes s (execHalt c k w s) := by
  unfold execHalt
  refine SameStoresRes.next ?_
  refine State.issueWord_sameStores (ha := ha) (hb := fun t y => ?_) ..
  refine SameStores.trans ?_ (State.setCtx_sameStores ..)
  exact State.noteSlack_sameStores ..

theorem State.reachVerdict_sameStores (s : State) (v : VoteSum) : SameStores s (State.reachVerdict s v) := by
  unfold State.reachVerdict
  extract_lets k0 u0
  clear_value k0
  have hu0 : SameStores s u0 := by
    dsimp only [u0]
    exact State.modTick_sameStores ..
  clear_value u0
  split
  · split
    · refine SameStores.trans ?_ (State.sendVote_sameStores ..)
      assumption
    · assumption
  · assumption

theorem State.sendUp_sameStores (s : State) : SameStores s (State.sendUp s) := by
  unfold State.sendUp
  extract_lets k0 u0
  clear_value k0
  have hu0 : SameStores s u0 := by
    dsimp only [u0]
    exact State.modTick_sameStores ..
  clear_value u0
  split
  · refine SameStores.trans ?_ (State.reachVerdict_sameStores ..)
    assumption
  · refine SameStores.trans ?_ (State.sendVote_sameStores ..)
    assumption

theorem State.tryVote_sameStores (s : State) : SameStores s (State.tryVote s) := by
  unfold State.tryVote
  split
  · exact State.sendUp_sameStores ..
  · exact SameStores.refl _

theorem State.voteIn_sameStores (s : State) (p : Nat) (v : Vote) : SameStores s (State.voteIn s p v) := by
  unfold State.voteIn
  split
  · exact SameStores.refl _
  · extract_lets u0
    have hu0 : SameStores s u0 := by
      dsimp only [u0]
      exact State.modTick_sameStores ..
    clear_value u0
    split
    · assumption
    · refine SameStores.trans ?_ (State.tryVote_sameStores ..)
      refine SameStores.trans ?_ (State.modTick_sameStores ..)
      assumption

theorem execVote_sameStoresRes (port : Fin 16) (a : Arrival) (v : Vote) (s : State) :
    SameStoresRes s (execVote port a v s) := by
  unfold execVote
  refine SameStoresRes.next ?_
  split
  · split
    · refine SameStores.trans ?_ (State.voteIn_sameStores ..)
      rename_i hq _
      have hk := congrArg Prod.fst hq
      dsimp only at hk
      rw [← hk]
      exact State.receive_sameStoresFst ..
    · rename_i hq _
      have hk := congrArg Prod.fst hq
      dsimp only at hk
      rw [← hk]
      exact State.receive_sameStoresFst ..
  · rename_i hq
    have hk := congrArg Prod.fst hq
    dsimp only at hk
    rw [← hk]
    exact State.receive_sameStoresFst ..

theorem State.countFails_sameStores (s : State) (l : List TickFault) : SameStores s (State.countFails s l) := by
  unfold State.countFails
  exact State.modTick_sameStores ..

theorem State.voteDeadline_sameStores (s : State) : SameStores s (State.voteDeadline s) := by
  unfold State.voteDeadline
  split
  · exact SameStores.refl _
  · extract_lets k0 u0
    clear_value k0
    have hu0 : SameStores s u0 := by
      dsimp only [u0]
      refine SameStores.each ?_ (fun t x => ?_)
      · exact SameStores.refl _
      · refine SameStores.trans ?_ (State.sealFault_sameStores ..)
        exact State.violate_sameStores ..
    clear_value u0
    refine SameStores.trans ?_ (State.sendUp_sameStores ..)
    refine SameStores.trans ?_ (State.modTick_sameStores ..)
    refine SameStores.trans ?_ (State.countFails_sameStores ..)
    assumption

theorem execVoteDeadline_sameStoresRes (s : State) : SameStoresRes s (execVoteDeadline s) := by
  unfold execVoteDeadline
  refine SameStoresRes.next ?_
  exact State.voteDeadline_sameStores ..

theorem State.echoIn_sameStores (s : State) (p : Nat) (v : Vote) : SameStores s (State.echoIn s p v) := by
  unfold State.echoIn
  split
  · exact SameStores.refl _
  · split
    · split
      · exact State.modTick_sameStores ..
      · exact SameStores.refl _
    · split
      · refine SameStores.trans ?_ (State.sendVote_sameStores ..)
        exact State.modTick_sameStores ..
      · exact SameStores.refl _

theorem execEcho_sameStoresRes (port : Fin 16) (a : Arrival) (v : Vote) (s : State) :
    SameStoresRes s (execEcho port a v s) := by
  unfold execEcho
  refine SameStoresRes.next ?_
  split
  · split
    · refine SameStores.trans ?_ (State.echoIn_sameStores ..)
      rename_i hq _
      have hk := congrArg Prod.fst hq
      dsimp only at hk
      rw [← hk]
      exact State.receive_sameStoresFst ..
    · rename_i hq _
      have hk := congrArg Prod.fst hq
      dsimp only at hk
      rw [← hk]
      exact State.receive_sameStoresFst ..
  · rename_i hq
    have hk := congrArg Prod.fst hq
    dsimp only at hk
    rw [← hk]
    exact State.receive_sameStoresFst ..

theorem execHaltReport_sameStoresRes (port : Fin 16) (a : Arrival) (v : Vote) (s : State) :
    SameStoresRes s (execHaltReport port a v s) := by
  unfold execHaltReport
  refine SameStoresRes.next ?_
  split
  · split
    · refine SameStores.trans ?_ (State.haltNote_sameStores ..)
      refine SameStores.trans ?_ (State.modTick_sameStores ..)
      rename_i hq _
      have hk := congrArg Prod.fst hq
      dsimp only at hk
      rw [← hk]
      exact State.receive_sameStoresFst ..
    · rename_i hq _
      have hk := congrArg Prod.fst hq
      dsimp only at hk
      rw [← hk]
      exact State.receive_sameStoresFst ..
  · rename_i hq
    have hk := congrArg Prod.fst hq
    dsimp only at hk
    rw [← hk]
    exact State.receive_sameStoresFst ..

theorem execDbgMaxExpiry_sameStoresRes (s : State) : SameStoresRes s (execDbgMaxExpiry s) := by
  unfold execDbgMaxExpiry
  refine SameStoresRes.next ?_
  split
  · split
    · exact State.modTick_sameStores ..
    · exact State.modTick_sameStores ..
  · exact SameStores.refl _

end Sys2Proof.Machine
end

