-- ==== Sys2Proof/Laws/SameUnits.lean ====
section
/-!
SUPPORT. The operations and commands that leave what `SameUnits` names.
-/
namespace Sys2Proof.Machine

theorem State.setCluster_sameUnits (s : State) (c : Nat) (x : Cluster) : SameUnits s (State.setCluster s c x) := by
  unfold State.setCluster
  refine SameUnits.mk ?_
  exact SameUnits.refl _

theorem State.modCluster_sameUnits (s : State) (c : Nat) (f : Cluster → Cluster) :
    SameUnits s (State.modCluster s c f) := by
  unfold State.modCluster
  exact State.setCluster_sameUnits ..

theorem State.setRaw_sameUnits (s : State) (p : PageType) (i off bank v : Nat) :
    SameUnits s (State.setRaw s p i off bank v) := by
  unfold State.setRaw
  refine SameUnits.mk ?_
  exact SameUnits.refl _

theorem State.wr_sameUnits (s : State) (r : Reg) (v i bank idx : Nat) : SameUnits s (State.wr s r v i bank idx) := by
  unfold State.wr
  exact State.setRaw_sameUnits ..

theorem State.cnt_sameUnits (s : State) (r : Reg) (i n bank idx : Nat) : SameUnits s (State.cnt s r i n bank idx)
    := by
  unfold State.cnt
  extract_lets k0 k1
  clear_value k0 k1
  split
  · refine SameUnits.mk ?_
    exact SameUnits.refl _
  · exact State.wr_sameUnits ..

theorem State.modTick_sameUnits (s : State) (f : Tick → Tick) : SameUnits s (State.modTick s f) := by
  unfold State.modTick
  refine SameUnits.mk ?_
  exact SameUnits.refl _

theorem State.sealFault_sameUnits (s : State) (code : Nat) (u : FaultUnit) :
    SameUnits s (State.sealFault s code u) := by
  unfold State.sealFault
  extract_lets u0
  have hu0 : SameUnits s u0 := by
    dsimp only [u0]
    exact State.modTick_sameUnits ..
  clear_value u0
  split
  · assumption
  · refine SameUnits.trans ?_ (State.modTick_sameUnits ..)
    assumption

theorem State.tickFault_sameUnits (s : State) (code : Nat) (u : FaultUnit) :
    SameUnits s (State.tickFault s code u) := by
  unfold State.tickFault
  split
  · exact SameUnits.refl _
  · exact State.sealFault_sameUnits ..

theorem State.setHdr_sameUnits (s : State) (pg off v : Nat) : SameUnits s (State.setHdr s pg off v) := by
  unfold State.setHdr
  refine SameUnits.mk ?_
  exact SameUnits.refl _

theorem State.capture_sameUnits (s : State) (pg : Nat) (v : Viol) (more : Bool) :
    SameUnits s (State.capture s pg v more) := by
  unfold State.capture
  extract_lets k0
  clear_value k0
  refine SameUnits.trans ?_ (State.setHdr_sameUnits ..)
  refine SameUnits.trans ?_ (State.setHdr_sameUnits ..)
  refine SameUnits.trans ?_ (State.setHdr_sameUnits ..)
  refine SameUnits.trans ?_ (State.setHdr_sameUnits ..)
  exact State.setHdr_sameUnits ..

theorem State.modHost_sameUnits (s : State) (f : HostPort → HostPort) : SameUnits s (State.modHost s f) := by
  unfold State.modHost
  refine SameUnits.mk ?_
  exact SameUnits.refl _

theorem State.send_sameUnits (s : State) (o : Out) : SameUnits s (State.send s o) := by
  exact SameUnits.refl _

theorem State.modFn_sameUnits (s : State) (n : Nat) (f : Function → Function) : SameUnits s (State.modFn s n f) := by
  unfold State.modFn
  refine SameUnits.mk ?_
  exact SameUnits.refl _

theorem State.msix_sameUnits (s : State) (fn v : Nat) : SameUnits s (State.msix s fn v) := by
  unfold State.msix
  split
  · unfold State.toHost State.post State.freeOf
    dsimp only
    split
    · exact SameUnits.refl _
    · split
      · exact State.modHost_sameUnits ..
      · exact State.send_sameUnits ..
  · exact State.modFn_sameUnits ..

theorem State.routeSend_sameUnits (s : State) (t : Nat) : SameUnits s (State.routeSend s t) := by
  unfold State.routeSend
  extract_lets k0
  clear_value k0
  split
  · refine SameUnits.trans ?_ (State.modHost_sameUnits ..)
    exact State.msix_sameUnits ..
  · exact SameUnits.refl _

theorem State.setIrq_sameUnits (s : State) (pg off v : Nat) : SameUnits s (State.setIrq s pg off v) := by
  unfold State.setIrq
  extract_lets u0 k0
  clear_value k0
  have hu0 : SameUnits s u0 := by
    dsimp only [u0]
    exact State.setHdr_sameUnits ..
  clear_value u0
  split
  · split
    · refine SameUnits.trans ?_ (State.msix_sameUnits ..)
      assumption
    · assumption
  · split
    · extract_lets k1
      clear_value k1
      split
      · refine SameUnits.trans ?_ (State.routeSend_sameUnits ..)
        assumption
      · assumption
    · assumption

theorem State.irq_sameUnits (s : State) (pg m : Nat) : SameUnits s (State.irq s pg m) := by
  unfold State.irq
  exact State.setIrq_sameUnits ..

theorem State.violateAll_sameUnits (s : State) (pg : Nat) (v : Viol) (vs : List Viol) :
    SameUnits s (State.violateAll s pg v vs) := by
  unfold State.violateAll
  extract_lets k0 u0
  clear_value k0
  have hu0 : SameUnits s u0 := by
    dsimp only [u0]
    split
    · exact State.setHdr_sameUnits ..
    · exact State.capture_sameUnits ..
  clear_value u0
  refine SameUnits.trans ?_ (State.irq_sameUnits ..)
  refine SameUnits.trans ?_ (State.setHdr_sameUnits ..)
  assumption

theorem State.violate_sameUnits (s : State) (p : PageType) (i : Nat) (v : Viol) :
    SameUnits s (State.violate s p i v) := by
  unfold State.violate
  exact State.violateAll_sameUnits ..

theorem State.touchEntryWord_sameUnits (s : State) (c i w src tenant : Nat) :
    SameUnits s (State.touchEntryWord s c i w src tenant) := by
  unfold State.touchEntryWord
  split
  · exact SameUnits.refl _
  · refine SameUnits.trans ?_ (State.modCluster_sameUnits ..)
    extract_lets u0
    have hu0 : SameUnits s u0 := by
      dsimp only [u0]
      exact State.cnt_sameUnits ..
    clear_value u0
    refine SameUnits.mk ?_
    assumption
  · refine SameUnits.trans ?_ (State.tickFault_sameUnits ..)
    refine SameUnits.trans ?_ (State.violate_sameUnits ..)
    exact State.cnt_sameUnits ..

theorem State.touchEntry_sameUnits (s : State) (c i src tenant : Nat) :
    SameUnits s (State.touchEntry s c i src tenant) := by
  unfold State.touchEntry
  refine SameUnits.trans ?_ (State.touchEntryWord_sameUnits ..)
  exact State.touchEntryWord_sameUnits ..

theorem State.draw_sameUnits (s : State) : SameUnits s (State.draw s) := by
  unfold State.draw
  refine SameUnits.mk ?_
  exact SameUnits.refl _

theorem State.modScrub_sameUnits (s : State) (k : Nat) (f : Scrub → Scrub) : SameUnits s (State.modScrub s k f) := by
  unfold State.modScrub
  split
  · exact State.modCluster_sameUnits ..
  · refine SameUnits.mk ?_
    exact SameUnits.refl _

theorem State.corrected_sameUnits (s : State) (a : Nat) : SameUnits s (State.corrected s a) := by
  unfold State.corrected
  extract_lets k0 k1 u0
  clear_value k0 k1
  have hu0 : SameUnits s u0 := by
    dsimp only [u0]
    refine SameUnits.trans ?_ (State.wr_sameUnits ..)
    exact State.cnt_sameUnits ..
  clear_value u0
  refine SameUnits.trans ?_ (State.modScrub_sameUnits ..)
  assumption

theorem State.uncorrectable_sameUnits (s : State) (a src tenant : Nat) (fails : Bool) :
    SameUnits s (State.uncorrectable s a src tenant fails) := by
  unfold State.uncorrectable
  extract_lets k0 k1 u0
  clear_value k0 k1
  have hu0 : SameUnits s u0 := by
    dsimp only [u0]
    refine SameUnits.trans ?_ (State.violate_sameUnits ..)
    exact State.cnt_sameUnits ..
  clear_value u0
  split
  · refine SameUnits.trans ?_ (State.tickFault_sameUnits ..)
    assumption
  · assumption

theorem State.touch_sameUnits (s : State) (a src tenant : Nat) : SameUnits s (State.touch s a src tenant) := by
  unfold State.touch
  split
  · exact SameUnits.refl _
  · exact State.corrected_sameUnits ..
  · exact State.uncorrectable_sameUnits ..

theorem State.afterRead_sameUnits (s : State) (g src tenant : Nat) (as : List Nat) :
    SameUnits s (State.afterRead s g src tenant as) := by
  unfold State.afterRead
  refine SameUnits.trans ?_ (State.draw_sameUnits ..)
  refine SameUnits.each ?_ (fun t x => ?_)
  · exact SameUnits.refl _
  · exact State.touch_sameUnits ..

theorem State.copySource_sameUnitsFst (s : State) (c t : Nat) (k : ThreadCopy) :
    SameUnits s (State.copySource s c t k).1 := by
  unfold State.copySource
  split
  · dsimp only
    exact SameUnits.refl _
  · extract_lets k0 u0
    clear_value k0
    have hu0 : SameUnits s u0 := by
      dsimp only [u0]
      exact State.touchEntry_sameUnits ..
    clear_value u0
    split
    · dsimp only
      refine SameUnits.trans ?_ (State.draw_sameUnits ..)
      assumption
    · dsimp only
      refine SameUnits.trans ?_ (State.afterRead_sameUnits ..)
      assumption

theorem State.wbCancel_sameUnits (s : State) (a : Nat) : SameUnits s (State.wbCancel s a) := by
  unfold State.wbCancel
  extract_lets k0 k1 k2 k3 u0
  clear_value k0 k1 k2 k3
  have hu0 : SameUnits s u0 := by
    dsimp only [u0]
    exact State.modScrub_sameUnits ..
  clear_value u0
  split
  · split
    · refine SameUnits.trans ?_ (State.cnt_sameUnits ..)
      assumption
    · assumption
  · exact SameUnits.refl _

theorem State.wordWritten_sameUnits (s : State) (a : Nat) (full : Bool) (src tenant : Nat) :
    SameUnits s (State.wordWritten s a full src tenant) := by
  unfold State.wordWritten
  extract_lets u0 u1
  have hu0 : SameUnits s u0 := by
    dsimp only [u0]
    exact State.wbCancel_sameUnits ..
  clear_value u0
  have hu1 : SameUnits s u1 := by
    dsimp only [u1]
    refine SameUnits.trans ?_ (State.corrected_sameUnits ..)
    assumption
  clear_value u1
  split
  · refine SameUnits.mk ?_
    assumption
  · split
    · assumption
    · refine SameUnits.mk ?_
      assumption
    · refine SameUnits.trans ?_ (State.uncorrectable_sameUnits ..)
      assumption

theorem State.storeAt_sameUnits (s : State) (l : List (Nat × Byte)) : SameUnits s (State.storeAt s l) := by
  induction l generalizing s
  · unfold State.storeAt
    exact SameUnits.refl _
  · rename_i x r ih
    unfold State.storeAt
    exact ih ..

theorem State.writeBytes_sameUnits (s : State) (g src tenant : Nat) (as : List Nat) (data : List Byte) :
    SameUnits s (State.writeBytes s g src tenant as data) := by
  unfold State.writeBytes
  extract_lets k0 k1 u0
  clear_value k0 k1
  have hu0 : SameUnits s u0 := by
    dsimp only [u0]
    refine SameUnits.each ?_ (fun t x => ?_)
    · exact SameUnits.refl _
    · exact State.wordWritten_sameUnits ..
  clear_value u0
  refine SameUnits.trans ?_ (State.draw_sameUnits ..)
  refine SameUnits.trans ?_ (State.storeAt_sameUnits ..)
  assumption

theorem State.copyDest_sameUnits (s : State) (c t : Nat) (k : ThreadCopy) (d : List Byte) :
    SameUnits s (State.copyDest s c t k d) := by
  unfold State.copyDest
  split
  · exact SameUnits.refl _
  · extract_lets u0
    have hu0 : SameUnits s u0 := by
      dsimp only [u0]
      exact State.touchEntry_sameUnits ..
    clear_value u0
    split
    · assumption
    · refine SameUnits.trans ?_ (State.writeBytes_sameUnits ..)
      assumption

theorem State.schedule_sameUnits (s : State) (c : Nat) : SameUnits s (State.schedule s c) := by
  unfold State.schedule
  exact State.modCluster_sameUnits ..

theorem State.killDraws_sameUnits (s : State) (c t : Nat) : SameUnits s (State.killDraws s c t) := by
  unfold State.killDraws
  split
  · split
    · refine SameUnits.trans ?_ (State.draw_sameUnits ..)
      exact State.modCluster_sameUnits ..
    · exact SameUnits.refl _
  · exact SameUnits.refl _

theorem State.killContext_sameUnits (s : State) (c t code : Nat) : SameUnits s (State.killContext s c t code) := by
  unfold State.killContext
  split
  · exact SameUnits.refl _
  · extract_lets u0 u1 k0
    clear_value k0
    have hu0 : SameUnits s u0 := by
      dsimp only [u0]
      refine SameUnits.trans ?_ (State.modTick_sameUnits ..)
      exact State.cnt_sameUnits ..
    clear_value u0
    have hu1 : SameUnits s u1 := by
      dsimp only [u1]
      refine SameUnits.each ?_ (fun t x => ?_)
      · assumption
      · exact State.killDraws_sameUnits ..
    clear_value u1
    refine SameUnits.mk ?_
    assumption

theorem State.threadFault_sameUnits (s : State) (c g t code form addr : Nat) :
    SameUnits s (State.threadFault s c g t code form addr) := by
  unfold State.threadFault
  extract_lets u0
  have hu0 : SameUnits s u0 := by
    dsimp only [u0]
    refine SameUnits.trans ?_ (State.violate_sameUnits ..)
    exact State.wr_sameUnits ..
  clear_value u0
  refine SameUnits.trans ?_ (State.killContext_sameUnits ..)
  assumption

theorem State.raise_sameUnits (s : State) (c g t blk k addr : Nat) : SameUnits s (State.raise s c g t blk k addr)
    := by
  unfold State.raise
  split
  · exact SameUnits.refl _
  · extract_lets k0
    clear_value k0
    split
    · exact State.threadFault_sameUnits ..
    · exact State.modCluster_sameUnits ..

theorem State.endCopy_sameUnits (s : State) (c : Nat) (k : ThreadCopy) : SameUnits s (State.endCopy s c k) := by
  unfold State.endCopy
  exact State.modCluster_sameUnits ..

theorem execCopyComplete_sameUnitsRes (c : Fin 512) (id : Nat) (s : State) :
    SameUnitsRes s (execCopyComplete c id s) := by
  unfold execCopyComplete
  refine SameUnitsRes.next ?_
  split
  · exact SameUnits.refl _
  · split
    · exact SameUnits.refl _
    · extract_lets k0 k1 k2 u0
      clear_value k0 k1
      have hk2 : SameUnits s k2.1 := by
        dsimp only [k2]
        split
        · dsimp only
          exact SameUnits.refl _
        · exact State.copySource_sameUnitsFst ..
      clear_value k2
      have hu0 : SameUnits s u0 := by
        dsimp only [u0]
        split
        · exact SameUnits.refl _
        · refine SameUnits.trans ?_ (State.copyDest_sameUnits ..)
          assumption
      clear_value u0
      refine SameUnits.trans ?_ (State.schedule_sameUnits ..)
      refine SameUnits.trans ?_ (State.raise_sameUnits ..)
      refine SameUnits.trans ?_ (State.endCopy_sameUnits ..)
      assumption

theorem State.holding_sameUnits (s : State) (c n : Nat) (m : Word) : SameUnits s (State.holding s c n m) := by
  unfold State.holding
  exact State.modCluster_sameUnits ..

theorem State.tensorStore_sameUnits (s : State) (c : Nat) (d : Desc) (undef : Bool) :
    SameUnits s (State.tensorStore s c d undef) := by
  unfold State.tensorStore
  extract_lets k0 k1 k2 u0 u1 k3 k4
  clear_value k0 k1 k2 k3 k4
  have hu0 : SameUnits s u0 := by
    dsimp only [u0]
    exact State.afterRead_sameUnits ..
  clear_value u0
  have hu1 : SameUnits s u1 := by
    dsimp only [u1]
    refine SameUnits.trans ?_ (State.afterRead_sameUnits ..)
    assumption
  clear_value u1
  refine SameUnits.trans ?_ (State.writeBytes_sameUnits ..)
  assumption

theorem State.vWrite_sameUnits (s : State) (c t : Nat) (b : List Byte) (vals : List Nat) :
    SameUnits s (State.vWrite s c t b vals) := by
  unfold State.vWrite
  extract_lets k0 k1 k2 k3 k4 k5
  clear_value k0 k1 k2 k3 k4 k5
  split
  · exact State.writeBytes_sameUnits ..
  · exact State.writeBytes_sameUnits ..

theorem State.vectorStore_sameUnits (s : State) (c : Nat) (d : Desc) (undef : Bool) :
    SameUnits s (State.vectorStore s c d undef) := by
  unfold State.vectorStore
  extract_lets k0 k1 u0 k2 u1 k3 u2
  clear_value k0 k1 k2 k3
  have hu0 : SameUnits s u0 := by
    dsimp only [u0]
    exact State.afterRead_sameUnits ..
  clear_value u0
  have hu1 : SameUnits s u1 := by
    dsimp only [u1]
    split
    · refine SameUnits.trans ?_ (State.afterRead_sameUnits ..)
      assumption
    · assumption
  clear_value u1
  have hu2 : SameUnits s u2 := by
    dsimp only [u2]
    refine SameUnits.trans ?_ (State.modCluster_sameUnits ..)
    assumption
  clear_value u2
  refine SameUnits.trans ?_ (State.vWrite_sameUnits ..)
  assumption

theorem State.copyStore_sameUnits (s : State) (c : Nat) (d : Desc) (undef : Bool) :
    SameUnits s (State.copyStore s c d undef) := by
  unfold State.copyStore
  extract_lets k0 k1 k2 u0
  clear_value k0 k1 k2
  have hu0 : SameUnits s u0 := by
    dsimp only [u0]
    exact State.afterRead_sameUnits ..
  clear_value u0
  refine SameUnits.trans ?_ (State.writeBytes_sameUnits ..)
  assumption

theorem State.race_sameUnits (s : State) (c n : Nat) (wr : List Nat) : SameUnits s (State.race s c n wr) := by
  unfold State.race
  refine SameUnits.each ?_ (fun t x => ?_)
  · exact SameUnits.refl _
  · extract_lets k0
    clear_value k0
    split
    · split
      · exact State.modCluster_sameUnits ..
      · exact SameUnits.refl _
    · exact SameUnits.refl _

theorem State.engineComplete_sameUnits (s : State) (c n : Nat) : SameUnits s (State.engineComplete s c n) := by
  unfold State.engineComplete
  extract_lets k0 k1
  clear_value k0 k1
  split
  · exact SameUnits.refl _
  · extract_lets k2 k3 u0 u1
    clear_value k2 k3
    have hu0 : SameUnits s u0 := by
      dsimp only [u0]
      refine SameUnits.trans ?_ (State.holding_sameUnits ..)
      exact State.draw_sameUnits ..
    clear_value u0
    have hu1 : SameUnits s u1 := by
      dsimp only [u1]
      split
      · refine SameUnits.trans ?_ (State.cnt_sameUnits ..)
        refine SameUnits.trans ?_ (State.cnt_sameUnits ..)
        refine SameUnits.trans ?_ (State.tensorStore_sameUnits ..)
        assumption
      · refine SameUnits.trans ?_ (State.cnt_sameUnits ..)
        refine SameUnits.trans ?_ (State.cnt_sameUnits ..)
        refine SameUnits.trans ?_ (State.vectorStore_sameUnits ..)
        assumption
      · refine SameUnits.trans ?_ (State.copyStore_sameUnits ..)
        assumption
    clear_value u1
    refine SameUnits.trans ?_ (State.modCluster_sameUnits ..)
    refine SameUnits.trans ?_ (State.race_sameUnits ..)
    refine SameUnits.trans ?_ (State.holding_sameUnits ..)
    assumption

theorem execTensorComplete_sameUnitsRes (c : Fin 512) (s : State) : SameUnitsRes s (execTensorComplete c s) := by
  unfold execTensorComplete
  refine SameUnitsRes.next ?_
  exact State.engineComplete_sameUnits ..

theorem execVectorComplete_sameUnitsRes (c : Fin 512) (s : State) : SameUnitsRes s (execVectorComplete c s) := by
  unfold execVectorComplete
  refine SameUnitsRes.next ?_
  exact State.engineComplete_sameUnits ..

theorem execCopyDescriptorComplete_sameUnitsRes (c : Fin 512) (s : State) :
    SameUnitsRes s (execCopyDescriptorComplete c s) := by
  unfold execCopyDescriptorComplete
  refine SameUnitsRes.next ?_
  exact State.engineComplete_sameUnits ..

theorem State.modPort_sameUnits (s : State) (p : Nat) (f : Port → Port) : SameUnits s (State.modPort s p f) := by
  unfold State.modPort
  refine SameUnits.mk ?_
  exact SameUnits.refl _

theorem State.codeword_sameUnits (s : State) (p : Nat) (errs : List Nat) : SameUnits s (State.codeword s p errs) := by
  unfold State.codeword
  extract_lets k0 k1 u0 k2
  clear_value k0 k1 k2
  have hu0 : SameUnits s u0 := by
    dsimp only [u0]
    split
    · split
      · exact SameUnits.refl _
      · refine SameUnits.trans ?_ (State.wr_sameUnits ..)
        exact State.wr_sameUnits ..
    · exact State.wr_sameUnits ..
  clear_value u0
  split
  · assumption
  · split
    · refine SameUnits.trans ?_ (State.modPort_sameUnits ..)
      refine SameUnits.trans ?_ (State.cnt_sameUnits ..)
      assumption
    · refine SameUnits.each ?_ (fun t x => ?_)
      · refine SameUnits.trans ?_ (State.cnt_sameUnits ..)
        refine SameUnits.trans ?_ (State.cnt_sameUnits ..)
        assumption
      · exact State.cnt_sameUnits ..

theorem State.codeBlock_sameUnits (s : State) (p : Nat) (b : CwBlock) : SameUnits s (State.codeBlock s p b) := by
  unfold State.codeBlock
  split
  · exact SameUnits.refl _
  · refine SameUnits.each ?_ (fun t x => ?_)
    · exact State.modPort_sameUnits ..
    · exact State.codeword_sameUnits ..

theorem State.takeBlocks_sameUnits (s : State) (p : Nat) (l : Codewords) : SameUnits s (State.takeBlocks s p l) := by
  unfold State.takeBlocks
  refine SameUnits.each ?_ (fun t x => ?_)
  · exact SameUnits.refl _
  · exact State.codeBlock_sameUnits ..

theorem State.event_sameUnits (s : State) (p : PageType) (i n : Nat) : SameUnits s (State.event s p i n) := by
  unfold State.event
  exact State.irq_sameUnits ..

theorem State.fencePort_sameUnits (s : State) (p : Nat) : SameUnits s (State.fencePort s p) := by
  unfold State.fencePort
  extract_lets k0 u0
  clear_value k0
  have hu0 : SameUnits s u0 := by
    dsimp only [u0]
    refine SameUnits.trans ?_ (State.event_sameUnits ..)
    refine SameUnits.trans ?_ (State.modPort_sameUnits ..)
    exact State.cnt_sameUnits ..
  clear_value u0
  split
  · refine SameUnits.trans ?_ (State.event_sameUnits ..)
    assumption
  · assumption

theorem State.authFail_sameUnits (s : State) (p : Nat) : SameUnits s (State.authFail s p) := by
  unfold State.authFail
  extract_lets k0 u0
  clear_value k0
  have hu0 : SameUnits s u0 := by
    dsimp only [u0]
    refine SameUnits.trans ?_ (State.modPort_sameUnits ..)
    exact State.cnt_sameUnits ..
  clear_value u0
  split
  · assumption
  · refine SameUnits.trans ?_ (State.fencePort_sameUnits ..)
    assumption

theorem State.modSeq_sameUnits (s : State) (p cls : Nat) (f : ClassSeq → ClassSeq) :
    SameUnits s (State.modSeq s p cls f) := by
  unfold State.modSeq
  exact State.modPort_sameUnits ..

theorem State.transmit_sameUnits (s : State) (p : Nat) (f : Frame) : SameUnits s (State.transmit s p f) := by
  unfold State.transmit
  split
  · exact State.send_sameUnits ..
  · exact SameUnits.refl _

theorem State.spend_sameUnits (s : State) (p pool n : Nat) : SameUnits s (State.spend s p pool n) := by
  unfold State.spend
  exact State.modPort_sameUnits ..

theorem State.sendNow_sameUnits (s : State) (p : Nat) (c : Content) : SameUnits s (State.sendNow s p c) := by
  unfold State.sendNow
  extract_lets k0 u0
  clear_value k0
  have hu0 : SameUnits s u0 := by
    dsimp only [u0]
    exact State.modSeq_sameUnits ..
  clear_value u0
  refine SameUnits.trans ?_ (State.transmit_sameUnits ..)
  refine SameUnits.when ?_ (fun t => ?_)
  · assumption
  · exact State.spend_sameUnits ..

theorem State.sendOn_sameUnits (s : State) (p : Nat) (c : Content) : SameUnits s (State.sendOn s p c) := by
  unfold State.sendOn
  split
  · exact SameUnits.refl _
  · split
    · exact State.sendNow_sameUnits ..
    · exact State.modSeq_sameUnits ..

theorem State.release_sameUnits (s : State) (p pool n : Nat) : SameUnits s (State.release s p pool n) := by
  unfold State.release
  exact State.modPort_sameUnits ..

theorem State.accept_sameUnitsFst (s : State) (p cls q : Nat) (old : Bool) :
    SameUnits s (State.accept s p cls q old).1 := by
  unfold State.accept
  extract_lets k0 k1
  clear_value k0 k1
  split
  · dsimp only
    exact State.cnt_sameUnits ..
  · extract_lets u0 u1
    have hu0 : SameUnits s u0 := by
      dsimp only [u0]
      split
      · exact State.modPort_sameUnits ..
      · refine SameUnits.trans ?_ (State.modPort_sameUnits ..)
        exact State.modSeq_sameUnits ..
    clear_value u0
    have hu1 : SameUnits s u1 := by
      dsimp only [u1]
      refine SameUnits.when ?_ (fun t => ?_)
      · assumption
      · exact State.sendOn_sameUnits ..
    clear_value u1
    dsimp only
    refine SameUnits.when ?_ (fun t => ?_)
    · assumption
    · exact State.release_sameUnits ..

theorem State.turnKey_sameUnits (s : State) (p : Nat) : SameUnits s (State.turnKey s p) := by
  unfold State.turnKey
  exact State.modPort_sameUnits ..

theorem State.receive_sameUnitsFst (s : State) (p cls : Nat) (a : Arrival) :
    SameUnits s (State.receive s p cls a).1 := by
  unfold State.receive
  split
  · dsimp only
    exact SameUnits.refl _
  · extract_lets u0 k0 k1 k2
    clear_value k0 k1 k2
    have hu0 : SameUnits s u0 := by
      dsimp only [u0]
      exact State.takeBlocks_sameUnits ..
    clear_value u0
    split
    · dsimp only
      assumption
    · split
      · dsimp only
        assumption
      · split
        · dsimp only
          refine SameUnits.trans ?_ (State.authFail_sameUnits ..)
          assumption
        · refine SameUnits.trans ?_ (State.accept_sameUnitsFst ..)
          refine SameUnits.when ?_ (fun t => ?_)
          · assumption
          · exact State.turnKey_sameUnits ..

theorem State.modFab_sameUnits (s : State) (f : Fabric → Fabric) : SameUnits s (State.modFab s f) := by
  unfold State.modFab
  refine SameUnits.mk ?_
  exact SameUnits.refl _

theorem State.modArmed_sameUnits (s : State) (id : Nat) (tx : Bool) (f : Armed → Armed) :
    SameUnits s (State.modArmed s id tx f) := by
  unfold State.modArmed
  exact State.modFab_sameUnits ..

theorem State.replayBegins_sameUnits (s : State) (f : SlotFrame) : SameUnits s (State.replayBegins s f) := by
  unfold State.replayBegins
  exact State.modArmed_sameUnits ..

theorem State.excSeg_sameUnits (s : State) (f : SlotFrame) : SameUnits s (State.excSeg s f) := by
  unfold State.excSeg
  exact State.modArmed_sameUnits ..

theorem State.badSlot_sameUnits (s : State) (p : Nat) (f : SlotFrame) : SameUnits s (State.badSlot s p f) := by
  unfold State.badSlot
  extract_lets u0
  have hu0 : SameUnits s u0 := by
    dsimp only [u0]
    refine SameUnits.trans ?_ (State.violate_sameUnits ..)
    exact State.cnt_sameUnits ..
  clear_value u0
  split
  · refine SameUnits.trans ?_ (State.modArmed_sameUnits ..)
    refine SameUnits.trans ?_ (State.excSeg_sameUnits ..)
    assumption
  · refine SameUnits.trans ?_ (State.modFab_sameUnits ..)
    assumption

theorem State.poisonKill_sameUnits (s : State) (c t form addr : Nat) :
    SameUnits s (State.poisonKill s c t form addr) := by
  unfold State.poisonKill
  extract_lets u0
  have hu0 : SameUnits s u0 := by
    dsimp only [u0]
    refine SameUnits.trans ?_ (State.violate_sameUnits ..)
    exact State.wr_sameUnits ..
  clear_value u0
  refine SameUnits.trans ?_ (State.killContext_sameUnits ..)
  assumption

theorem State.poisoned_sameUnits (s : State) (x : Slot) (f : SlotFrame) : SameUnits s (State.poisoned s x f) := by
  unfold State.poisoned
  extract_lets u0
  have hu0 : SameUnits s u0 := by
    dsimp only [u0]
    refine SameUnits.trans ?_ (State.violate_sameUnits ..)
    exact State.excSeg_sameUnits ..
  clear_value u0
  split
  · refine SameUnits.trans ?_ (State.poisonKill_sameUnits ..)
    assumption
  · refine SameUnits.trans ?_ (State.poisonKill_sameUnits ..)
    assumption

theorem State.unarmedReplay_sameUnits (s : State) (p : Nat) (f : SlotFrame) :
    SameUnits s (State.unarmedReplay s p f) := by
  unfold State.unarmedReplay
  split
  · exact State.modFab_sameUnits ..
  · exact SameUnits.refl _

theorem State.gotSeg_sameUnits (s : State) (x : Slot) (f : SlotFrame) : SameUnits s (State.gotSeg s x f) := by
  unfold State.gotSeg
  extract_lets u0
  have hu0 : SameUnits s u0 := by
    dsimp only [u0]
    exact State.modArmed_sameUnits ..
  clear_value u0
  split
  · split
    · refine SameUnits.trans ?_ (State.cnt_sameUnits ..)
      assumption
    · assumption
  · assumption

theorem State.takeSeg_sameUnits (s : State) (x : Slot) (a : Armed) (f : SlotFrame) :
    SameUnits s (State.takeSeg s x a f) := by
  unfold State.takeSeg
  extract_lets k0 k1
  clear_value k0 k1
  split
  · refine SameUnits.trans ?_ (State.modArmed_sameUnits ..)
    refine SameUnits.when ?_ (fun t => ?_)
    · exact SameUnits.refl _
    · exact State.cnt_sameUnits ..
  · exact State.writeBytes_sameUnits ..

theorem State.slotIn_sameUnits (s : State) (p : Nat) (f : SlotFrame) (ha : s.island.disagree = false) :
    SameUnits s (State.slotIn s p f) := by
  unfold State.slotIn
  extract_lets k0 u0
  clear_value k0
  have hu0 : SameUnits s u0 := by
    dsimp only [u0]
    exact State.replayBegins_sameUnits ..
  clear_value u0
  split
  · rename_i h
    simp [ha] at h
  · split
    · exact State.badSlot_sameUnits ..
    · split
      · exact State.sendOn_sameUnits ..
      · split
        · exact SameUnits.refl _
        · split
          · refine SameUnits.trans ?_ (State.poisoned_sameUnits ..)
            assumption
          · split
            · refine SameUnits.trans ?_ (State.excSeg_sameUnits ..)
              assumption
            · split
              · refine SameUnits.trans ?_ (State.unarmedReplay_sameUnits ..)
                assumption
              · split
                · assumption
                · refine SameUnits.trans ?_ (State.gotSeg_sameUnits ..)
                  refine SameUnits.trans ?_ (State.takeSeg_sameUnits ..)
                  assumption

theorem execSlotFrame_sameUnitsRes (port : Fin 16) (a : Arrival) (f : SlotFrame) (s : State) (ha :
    s.island.disagree = false) :
    SameUnitsRes s (execSlotFrame port a f s) := by
  unfold execSlotFrame
  refine SameUnitsRes.next ?_
  split
  · have hr := State.receive_sameUnitsFst s port.val 1 a
    rename_i hq
    rw [hq] at hr
    split
    · exact hr.trans (State.slotIn_sameUnits (ha := by rw [hr.island]; exact ha) ..)
    · exact hr
  · have hr := State.receive_sameUnitsFst s port.val 1 a
    rename_i hq
    rw [hq] at hr
    exact hr

theorem State.zero_sameUnits (s : State) (a n : Nat) : SameUnits s (State.zero s a n) := by
  exact SameUnits.refl _

theorem State.wbCancelIn_sameUnits (s : State) (a n : Nat) : SameUnits s (State.wbCancelIn s a n) := by
  unfold State.wbCancelIn
  extract_lets k0 k1
  clear_value k0 k1
  refine SameUnits.each ?_ (fun t x => ?_)
  · exact SameUnits.refl _
  · exact State.wbCancel_sameUnits ..

theorem State.zeroOut_sameUnits (s : State) (a n : Nat) : SameUnits s (State.zeroOut s a n) := by
  unfold State.zeroOut
  refine SameUnits.trans ?_ (State.zero_sameUnits ..)
  exact State.wbCancelIn_sameUnits ..

theorem execZeroingComplete_sameUnitsRes (tenant : Fin 256) (s : State) :
    SameUnitsRes s (execZeroingComplete tenant s) := by
  unfold execZeroingComplete
  refine SameUnitsRes.next ?_
  split
  · exact SameUnits.refl _
  · extract_lets k0
    clear_value k0
    refine SameUnits.trans ?_ (State.modFn_sameUnits ..)
    refine SameUnits.each ?_ (fun t x => ?_)
    · exact SameUnits.refl _
    · exact State.zeroOut_sameUnits ..

end Sys2Proof.Machine
end

