-- ==== Sys2Proof/Laws/Step.lean ====
section
/-!
SUPPORT. What every command and every step keeps.
-/
namespace Sys2Proof.Machine

/-- Every command keeps the waiting commands, what was sent, and memory's canonical form. -/
theorem exec_keeps (i : Instr) (s : State) : Keeps s (exec i s) := by
  cases i with
  | registerWrite _ _ _ _ => exact execRegisterWrite_keeps ..
  | rcRead _ _ _ => exact execRcRead_keeps ..
  | errInfoValidClear _ _ => exact execErrInfoValidClear_keeps ..
  | freeze _ _ _ => exact execFreeze_keeps ..
  | lock _ _ => exact execLock_keeps ..
  | ack _ _ => exact execAck_keeps ..
  | routeWrite _ _ _ => exact execRouteWrite_keeps ..
  | roleWrite _ _ => exact execRoleWrite_keeps ..
  | dimsWrite _ _ => exact execDimsWrite_keeps ..
  | posWrite _ _ => exact execPosWrite_keeps ..
  | localTickStart => exact execLocalTickStart_keeps ..
  | marker _ _ _ _ => exact execMarker_keeps ..
  | openEnd => exact execOpenEnd_keeps ..
  | repairStart => exact execRepairStart_keeps ..
  | sealStart => exact execSealStart_keeps ..
  | vote _ _ _ => exact execVote_keeps ..
  | voteDeadline => exact execVoteDeadline_keeps ..
  | echo _ _ _ => exact execEcho_keeps ..
  | echoDeadline => exact execEchoDeadline_keeps ..
  | keystoneTakeover => exact execKeystoneTakeover_keeps ..
  | start _ => exact execStart_keeps ..
  | hold _ => exact execHold_keeps ..
  | resume _ => exact execResume_keeps ..
  | stretchReq _ _ => exact execStretchReq_keeps ..
  | rerunLimitAttemptCapWrite _ _ _ => exact execRerunLimitAttemptCapWrite_keeps ..
  | stretchSealMarker => exact execStretchSealMarker_keeps ..
  | haltReport _ _ _ => exact execHaltReport_keeps ..
  | dbgMaxExpiry => exact execDbgMaxExpiry_keeps ..
  | detModeWrite _ _ => exact execDetModeWrite_keeps ..
  | launch _ _ _ => exact execLaunch_keeps ..
  | join _ _ _ => exact execJoin_keeps ..
  | joinComplete _ _ => exact execJoinComplete_keeps ..
  | copyComplete _ _ => exact execCopyComplete_keeps ..
  | ctxRestart _ _ => exact execCtxRestart_keeps ..
  | debugHalt _ _ => exact execDebugHalt_keeps ..
  | debugStep _ _ => exact execDebugStep_keeps ..
  | debugResume _ _ => exact execDebugResume_keeps ..
  | stepComplete _ => exact execStepComplete_keeps ..
  | dbgRegDataWrite _ _ _ => exact execDbgRegDataWrite_keeps ..
  | iadd _ _ _ => exact execIadd_keeps ..
  | isub _ _ _ => exact execIsub_keeps ..
  | imul _ _ _ => exact execImul_keeps ..
  | imulhu _ _ _ => exact execImulhu_keeps ..
  | imac _ _ _ => exact execImac_keeps ..
  | and _ _ _ => exact execAnd_keeps ..
  | or _ _ _ => exact execOr_keeps ..
  | xor _ _ _ => exact execXor_keeps ..
  | shl _ _ _ => exact execShl_keeps ..
  | shr _ _ _ => exact execShr_keeps ..
  | sar _ _ _ => exact execSar_keeps ..
  | imin _ _ _ => exact execImin_keeps ..
  | imax _ _ _ => exact execImax_keeps ..
  | umin _ _ _ => exact execUmin_keeps ..
  | umax _ _ _ => exact execUmax_keeps ..
  | mov _ _ _ => exact execMov_keeps ..
  | icmp _ _ _ => exact execIcmp_keeps ..
  | pbool _ _ _ => exact execPbool_keeps ..
  | laneq _ _ _ => exact execLaneq_keeps ..
  | xlane _ _ _ => exact execXlane_keeps ..
  | sysv _ _ _ => exact execSysv_keeps ..
  | fadd _ _ _ => exact execFadd_keeps ..
  | fsub _ _ _ => exact execFsub_keeps ..
  | fmul _ _ _ => exact execFmul_keeps ..
  | ffma _ _ _ => exact execFfma_keeps ..
  | fmin _ _ _ => exact execFmin_keeps ..
  | fmax _ _ _ => exact execFmax_keeps ..
  | fcmp _ _ _ => exact execFcmp_keeps ..
  | cvt _ _ _ => exact execCvt_keeps ..
  | tfn _ _ _ => exact execTfn_keeps ..
  | iaddi _ _ _ => exact execIaddi_keeps ..
  | andi _ _ _ => exact execAndi_keeps ..
  | ori _ _ _ => exact execOri_keeps ..
  | xori _ _ _ => exact execXori_keeps ..
  | shli _ _ _ => exact execShli_keeps ..
  | shri _ _ _ => exact execShri_keeps ..
  | sari _ _ _ => exact execSari_keeps ..
  | icmpi _ _ _ => exact execIcmpi_keeps ..
  | movl _ _ _ => exact execMovl_keeps ..
  | movh _ _ _ => exact execMovh_keeps ..
  | umovl _ _ _ => exact execUmovl_keeps ..
  | umovh _ _ _ => exact execUmovh_keeps ..
  | uaddi _ _ _ => exact execUaddi_keeps ..
  | rdlane _ _ _ => exact execRdlane_keeps ..
  | ld _ _ _ => exact execLd_keeps ..
  | st _ _ _ => exact execSt_keeps ..
  | atom _ _ _ => exact execAtom_keeps ..
  | bra _ _ _ => exact execBra_keeps ..
  | jmark _ _ _ => exact execJmark_keeps ..
  | jn _ _ _ => exact execJn_keeps ..
  | exit _ _ _ => exact execExit_keeps ..
  | fence _ _ _ => exact execFence_keeps ..
  | fenceRelease _ _ => exact execFenceRelease_keeps ..
  | arrive _ _ _ => exact execArrive_keeps ..
  | waita _ _ _ => exact execWaita_keeps ..
  | waitaRelease _ _ => exact execWaitaRelease_keeps ..
  | cpy _ _ _ => exact execCpy_keeps ..
  | issueT _ _ _ => exact execIssueT_keeps ..
  | issueV _ _ _ => exact execIssueV_keeps ..
  | issueD _ _ _ => exact execIssueD_keeps ..
  | tensorComplete _ => exact execTensorComplete_keeps ..
  | vectorComplete _ => exact execVectorComplete_keeps ..
  | copyDescriptorComplete _ => exact execCopyDescriptorComplete_keeps ..
  | waitAt _ _ _ => exact execWaitAt_keeps ..
  | waitFor _ _ _ => exact execWaitFor_keeps ..
  | waitIdle _ _ _ => exact execWaitIdle_keeps ..
  | waitRelease _ _ => exact execWaitRelease_keeps ..
  | slotTx _ _ _ => exact execSlotTx_keeps ..
  | slotRx _ _ _ => exact execSlotRx_keeps ..
  | lease _ _ _ => exact execLease_keeps ..
  | markEnd _ _ _ => exact execMarkEnd_keeps ..
  | markTrace _ _ _ => exact execMarkTrace_keeps ..
  | loopSet _ _ _ => exact execLoopSet_keeps ..
  | loopBack _ _ _ => exact execLoopBack_keeps ..
  | halt _ _ _ => exact execHalt_keeps ..
  | progAdv _ _ => exact execProgAdv_keeps ..
  | admissionComplete => exact execAdmissionComplete_keeps ..
  | hdlWrite _ _ => exact execHdlWrite_keeps ..
  | hdlRead _ _ => exact execHdlRead_keeps ..
  | scrubVisit _ => exact execScrubVisit_keeps ..
  | scrubEvaluation _ => exact execScrubEvaluation_keeps ..
  | portStartTime _ => exact execPortStartTime_keeps ..
  | trainingFrame _ _ _ => exact execTrainingFrame_keeps ..
  | detectTimeout _ => exact execDetectTimeout_keeps ..
  | trainTimeout _ => exact execTrainTimeout_keeps ..
  | alignLock _ => exact execAlignLock_keeps ..
  | alignTimeout _ => exact execAlignTimeout_keeps ..
  | measureDone _ _ => exact execMeasureDone_keeps ..
  | backoffExpiry _ => exact execBackoffExpiry_keeps ..
  | lossOfLock _ => exact execLossOfLock_keeps ..
  | retrainTimeout _ => exact execRetrainTimeout_keeps ..
  | uncWindow _ => exact execUncWindow_keeps ..
  | adaptationUpdate _ _ _ => exact execAdaptationUpdate_keeps ..
  | burstGuardWindow _ _ => exact execBurstGuardWindow_keeps ..
  | loopFreezeEnd _ => exact execLoopFreezeEnd_keeps ..
  | freezeLimit _ => exact execFreezeLimit_keeps ..
  | offTimeout _ => exact execOffTimeout_keeps ..
  | lightAnyLoss _ => exact execLightAnyLoss_keeps ..
  | beaconQualified _ => exact execBeaconQualified_keeps ..
  | lightFullReached _ => exact execLightFullReached_keeps ..
  | raiseTimeout _ => exact execRaiseTimeout_keeps ..
  | lightFullLoss _ => exact execLightFullLoss_keeps ..
  | islandLightCheck _ => exact execIslandLightCheck_keeps ..
  | laserDisableRelease _ => exact execLaserDisableRelease_keeps ..
  | optInhibitN _ => exact execOptInhibitN_keeps ..
  | laserOff _ _ _ => exact execLaserOff_keeps ..
  | engineCaseOverheat _ => exact execEngineCaseOverheat_keeps ..
  | engineCaseCooled _ => exact execEngineCaseCooled_keeps ..
  | ethernetFrame _ _ => exact execEthernetFrame_keeps ..
  | ptpMessage _ _ => exact execPtpMessage_keeps ..
  | tile _ _ => exact execTile_keeps ..
  | test _ _ _ => exact execTest_keeps ..
  | loopback _ _ _ => exact execLoopback_keeps ..
  | prbsRestart _ _ => exact execPrbsRestart_keeps ..
  | spcEnable _ _ _ => exact execSpcEnable_keeps ..
  | portEnable _ _ _ => exact execPortEnable_keeps ..
  | idleUnit _ _ _ => exact execIdleUnit_keeps ..
  | slotFrame _ _ _ => exact execSlotFrame_keeps ..
  | slotStart _ => exact execSlotStart_keeps ..
  | slotCheck _ => exact execSlotCheck_keeps ..
  | req _ _ _ _ _ => exact execReq_keeps ..
  | frameForward _ _ _ => exact execFrameForward_keeps ..
  | escapeTimeout _ _ => exact execEscapeTimeout_keeps ..
  | rsp _ _ _ _ _ => exact execRsp_keeps ..
  | mgmt _ _ _ _ _ => exact execMgmt_keeps ..
  | mgmtResponse _ _ _ _ _ => exact execMgmtResponse_keeps ..
  | toss _ _ _ _ _ => exact execToss_keeps ..
  | atomicDue => exact execAtomicDue_keeps ..
  | status _ _ _ _ => exact execStatus_keeps ..
  | statusTimer _ => exact execStatusTimer_keeps ..
  | retry _ _ _ _ _ => exact execRetry_keeps ..
  | retryTimeout _ _ _ => exact execRetryTimeout_keeps ..
  | replayReq _ _ _ _ => exact execReplayReq_keeps ..
  | probe _ _ _ _ => exact execProbe_keeps ..
  | probeRsp _ _ _ _ _ _ => exact execProbeRsp_keeps ..
  | hello _ _ => exact execHello_keeps ..
  | sign _ _ => exact execSign_keeps ..
  | finish _ _ _ => exact execFinish_keeps ..
  | secureTimeout _ => exact execSecureTimeout_keeps ..
  | fenceExpiry _ => exact execFenceExpiry_keeps ..
  | rekeyTimer _ => exact execRekeyTimer_keeps ..
  | oldPhaseExpiry _ => exact execOldPhaseExpiry_keeps ..
  | detourSelect _ _ => exact execDetourSelect_keeps ..
  | revokeCntWrite _ _ => exact execRevokeCntWrite_keeps ..
  | chainStart _ => exact execChainStart_keeps ..
  | chainAbort _ => exact execChainAbort_keeps ..
  | reload _ => exact execReload_keeps ..
  | refill _ _ => exact execRefill_keeps ..
  | sectionRecord _ _ => exact execSectionRecord_keeps ..
  | shareRecord _ _ => exact execShareRecord_keeps ..
  | stateRecord _ _ => exact execStateRecord_keeps ..
  | endRecord _ _ => exact execEndRecord_keeps ..
  | shareVerdict => exact execShareVerdict_keeps ..
  | refillTimeout => exact execRefillTimeout_keeps ..
  | configRequest _ => exact execConfigRequest_keeps ..
  | hostReadCompletion _ _ => exact execHostReadCompletion_keeps ..
  | completionTimeout _ => exact execCompletionTimeout_keeps ..
  | bar0BadAccess _ _ _ _ => exact execBar0BadAccess_keeps ..
  | bar2Write fn addr => exact execBar2Write_keeps fn addr s
  | resultSlotRead _ _ _ => exact execResultSlotRead_keeps ..
  | queueEnable _ _ _ => exact execQueueEnable_keeps ..
  | cmdqDoorbell _ _ _ => exact execCmdqDoorbell_keeps ..
  | nop _ _ => exact execNop_keeps ..
  | submit _ _ => exact execSubmit_keeps ..
  | ringDoorbell _ _ _ => exact execRingDoorbell_keeps ..
  | queueRestart _ _ => exact execQueueRestart_keeps ..
  | slotRelease _ _ => exact execSlotRelease_keeps ..
  | invalidate _ _ => exact execInvalidate_keeps ..
  | invalidateComplete => exact execInvalidateComplete_keeps ..
  | flr _ => exact execFlr_keeps ..
  | vfDisable => exact execVfDisable_keeps ..
  | pfFlr => exact execPfFlr_keeps ..
  | flrComplete _ => exact execFlrComplete_keeps ..
  | zeroingComplete _ => exact execZeroingComplete_keeps ..
  | creditStall => exact execCreditStall_keeps ..
  | postedCreditReturn _ => exact execPostedCreditReturn_keeps ..
  | msixUnmask _ _ => exact execMsixUnmask_keeps ..
  | hostPortReset => exact execHostPortReset_keeps ..
  | collectionComplete _ => exact execCollectionComplete_keeps ..
  | streamLifetime _ => exact execStreamLifetime_keeps ..
  | frameOpen => exact execFrameOpen_keeps ..
  | frameWindowClose _ _ => exact execFrameWindowClose_keeps ..
  | pubRingDoorbell _ _ => exact execPubRingDoorbell_keeps ..
  | digestComplete _ => exact execDigestComplete_keeps ..
  | ledgerCheckpoint => exact execLedgerCheckpoint_keeps ..
  | ledgerDoorbell _ _ => exact execLedgerDoorbell_keeps ..
  | newNight _ => exact execNewNight_keeps ..
  | ppsEdge => exact execPpsEdge_keeps ..
  | referenceLoss _ => exact execReferenceLoss_keeps ..
  | qualificationComplete _ => exact execQualificationComplete_keeps ..
  | loopUpdate _ => exact execLoopUpdate_keeps ..
  | holdoverLimit => exact execHoldoverLimit_keeps ..
  | ppsOutput => exact execPpsOutput_keeps ..
  | ppsOutEnd => exact execPpsOutEnd_keeps ..
  | timeSet _ => exact execTimeSet_keeps ..
  | timeLatch _ => exact execTimeLatch_keeps ..
  | anchor => exact execAnchor_keeps ..
  | sqNote _ _ => exact execSqNote_keeps ..
  | noticeApply => exact execNoticeApply_keeps ..
  | coldReset => exact execColdReset_keeps ..
  | sysRstNAssert => exact execSysRstNAssert_keeps ..
  | warm _ => exact execWarm_keeps ..
  | resetRelease _ => exact execResetRelease_keeps ..
  | islandBooted => exact execIslandBooted_keeps ..
  | bistComplete _ _ => exact execBistComplete_keeps ..
  | firmwareLoaded _ _ => exact execFirmwareLoaded_keeps ..
  | avsbusFailure _ => exact execAvsbusFailure_keeps ..
  | avsRetry _ => exact execAvsRetry_keeps ..
  | telemetryRead _ _ => exact execTelemetryRead_keeps ..
  | voltageReached _ => exact execVoltageReached_keeps ..
  | idleStepDown => exact execIdleStepDown_keeps ..
  | droop _ => exact execDroop_keeps ..
  | droopEnd _ => exact execDroopEnd_keeps ..
  | thermalThreshold _ => exact execThermalThreshold_keeps ..
  | doze _ => exact execDoze_keeps ..
  | dozeNote _ => exact execDozeNote_keeps ..
  | dozeEntryComplete => exact execDozeEntryComplete_keeps ..
  | wake _ => exact execWake_keeps ..
  | exitSignal _ => exact execExitSignal_keeps ..
  | wakeComplete => exact execWakeComplete_keeps ..
  | autoResume => exact execAutoResume_keeps ..
  | lockstepMismatch => exact execLockstepMismatch_keeps ..
  | islandRebootComplete => exact execIslandRebootComplete_keeps ..
  | junctionTrip _ _ => exact execJunctionTrip_keeps ..
  | sensorImplausible _ _ => exact execSensorImplausible_keeps ..
  | railOvervoltage _ _ => exact execRailOvervoltage_keeps ..
  | coreUndervoltage _ _ => exact execCoreUndervoltage_keeps ..
  | retentionUndervoltage _ => exact execRetentionUndervoltage_keeps ..
  | regulatorFault => exact execRegulatorFault_keeps ..
  | quarterClockFault _ _ => exact execQuarterClockFault_keeps ..
  | islandOscillatorFault _ => exact execIslandOscillatorFault_keeps ..
  | hubWatchdog => exact execHubWatchdog_keeps ..
  | launchPowerTrip _ => exact execLaunchPowerTrip_keeps ..
  | gateCauseClear _ => exact execGateCauseClear_keeps ..
  | kick _ _ => exact execKick_keeps ..
  | alertAck _ => exact execAlertAck_keeps ..
  | selfCheckComplete _ => exact execSelfCheckComplete_keeps ..
  | selfCheckAbandon => exact execSelfCheckAbandon_keeps ..
  | vddOptFault _ => exact execVddOptFault_keeps ..
  | vddOptRestore => exact execVddOptRestore_keeps ..
  | blackBoxWrite => exact execBlackBoxWrite_keeps ..
  | beacon a b c d e f g => exact execBeacon_keeps a b c d e f g s
  | beaconMiss => exact execBeaconMiss_keeps ..
  | listenTimeout => exact execListenTimeout_keeps ..
  | election => exact execElection_keeps ..
  | superframeStart => exact execSuperframeStart_keeps ..
  | assignedSlot => exact execAssignedSlot_keeps ..
  | contentionSlot _ => exact execContentionSlot_keeps ..
  | claim _ => exact execClaim_keeps ..
  | trestleRead _ _ _ => exact execTrestleRead_keeps ..
  | trestleWrite _ _ _ => exact execTrestleWrite_keeps ..
  | trestleWake _ => exact execTrestleWake_keeps ..
  | spiRead _ _ _ _ => exact execSpiRead_keeps ..
  | spiWrite _ _ _ _ => exact execSpiWrite_keeps ..
  | spiSelectRise => exact execSpiSelectRise_keeps ..
  | flashErase _ => exact execFlashErase_keeps ..
  | flashProgram _ => exact execFlashProgram_keeps ..
  | flashRead _ => exact execFlashRead_keeps ..
  | flashOperationComplete => exact execFlashOperationComplete_keeps ..
  | tagRead _ _ => exact execTagRead_keeps ..
  | tagWrite _ _ _ => exact execTagWrite_keeps ..
  | readWide _ _ => exact execReadWide_keeps ..
  | writeBlock _ _ _ => exact execWriteBlock_keeps ..
  | getState _ => exact execGetState_keeps ..
  | tagCommitComplete => exact execTagCommitComplete_keeps ..
  | fieldCollapse _ => exact execFieldCollapse_keeps ..
  | serviceRecordUpdate => exact execServiceRecordUpdate_keeps ..
  | prbsCheckerLock _ _ => exact execPrbsCheckerLock_keeps ..
  | prbsCheckerLockLoss _ _ => exact execPrbsCheckerLockLoss_keeps ..
  | linkDelayProbe _ _ => exact execLinkDelayProbe_keeps ..
  | ethernetLinkUp _ => exact execEthernetLinkUp_keeps ..
  | ethernetLinkDown _ => exact execEthernetLinkDown_keeps ..
  | pcieLinkReturnsToL0 => exact execPcieLinkReturnsToL0_keeps ..
  | powerRemoval => exact execPowerRemoval_keeps ..

/-- What a command that answers a next state keeps. -/
theorem exec_kept {i : Instr} {s t : State} (h : exec i s = .next t) : Kept s t := by
  have k := exec_keeps i s
  rw [h] at k
  exact k

/-- A command leaves the waiting commands. -/
theorem exec_pending {i : Instr} {s t : State} (h : exec i s = .next t) : t.pending = s.pending := (exec_kept h).1

/-- What was sent stays sent. -/
theorem exec_out {i : Instr} {s t : State} (h : exec i s = .next t) : s.out <+: t.out := (exec_kept h).2.1

/-- A command keeps memory's canonical form. -/
theorem exec_memWf {i : Instr} {s t : State} (h : exec i s = .next t) (w : memWf s.mem = true) : memWf t.mem = true :=
  (exec_kept h).2.2 w

/-- A step with a command in front carries it out with the queue's rest. -/
theorem step_cons {s : State} {c : Instr} {r : List Instr} (h : s.pending = c :: r) :
    step s = exec c { s with pending := r } := by
  simp [step, h]

/-- A step on an empty queue lets one nanosecond pass. -/
theorem step_nil {s : State} (h : s.pending = []) : step s = .next s.elapse := by
  simp [step, h]

/-- Time that passes keeps what was sent and memory's canonical form. -/
theorem State.elapse_kept (s : State) : Kept s s.elapse :=
  (State.pass_kept s 1).trans (State.pump_kept _)

/-- A step keeps memory's canonical form, and what was sent. -/
theorem step_kept {s t : State} (h : step s = .next t) :
    s.out <+: t.out ∧ (memWf s.mem = true → memWf t.mem = true) := by
  cases p : s.pending with
  | nil =>
    have e : s.elapse = t := by
      have h' := (step_nil p).symm.trans h
      injection h'
    exact e ▸ (State.elapse_kept s).2
  | cons c r =>
    rw [step_cons p] at h
    exact (exec_kept h).2

end Sys2Proof.Machine
end

