-- ==== Sys2Proof/WellFormed.lean ====
section
/-!
DEFINITION. Well-formed commands: every operand lies within the field that carries it (02 Table 02-2; 09 Tables 09-1 to 09-9
and 09-13; 10 Table 10-1; 11 Table 11-2; 12 Table 12-3; 16 Tables 16-2 to 16-4, 16-8; 17 R447).
-/
namespace Sys2Proof

/-- A number fits a field of `w` bits. -/
def fits (w x : Nat) : Bool := decide (x < 2 ^ w)

/-- Every number of a list fits a field of `w` bits, and the list has `n` of them. -/
def listFits (n w : Nat) (l : List Nat) : Bool := l.length == n && l.all (fits w)

/-- Marker fields (Table 02-2). -/
def Marker.wf (m : Marker) : Bool :=
  fits 64 m.tick && decide (1 ≤ m.attempt) && fits 4 m.attempt && fits 2 m.verdict && fits 5 m.hops && fits 11 m.keystone &&
    fits 16 m.epoch && fits 48 m.sec && decide (m.ns < 1000000000) && fits 32 m.accDelay && fits 24 m.len

/-- Vote fields (Table 09-8). -/
def Vote.wf (v : Vote) : Bool :=
  fits 64 v.tick && fits 4 v.attempt && decide (v.kind ≤ 2) && fits 2 v.verdict && fits 12 v.count && fits 8 v.code &&
    fits 10 v.unit && fits 11 v.device

/-- A block of four codewords (R208): its wrong symbols and the codewords that carry the frame, each named once in order; some
codeword of it carries the frame. -/
def CwBlock.wf (b : CwBlock) : Bool :=
  decide (b.errs.Pairwise (· < ·)) && decide (b.carry.Pairwise (· < ·)) && !b.carry.isEmpty

/-- Blocks that follow one another on the wire. -/
def blocksWf (l : Codewords) : Bool :=
  match l with
  | [] => true
  | b :: r => b.wf && (match r.head? with | some d => d.number == b.number + 1 | none => true) && blocksWf r

/-- Arrival (Table 09-1): a 48-bit sequence number, and at least one codeword. -/
def Arrival.wf (a : Arrival) : Bool := fits 48 a.seq && !a.codewords.isEmpty && blocksWf a.codewords

/-- Type fields of a routed frame (Table 09-3). -/
def RHead.wf (h : RHead) : Bool :=
  fits 8 h.tenant && fits 11 h.dst && fits 11 h.src && decide (h.vc ≤ 2) && fits 16 h.rank && fits 5 h.hops

/-- An access block (Table 09-5). -/
def Access.wf (b : Access) : Bool :=
  fits 56 b.addr && decide (b.op ≤ 2) && fits 3 b.atom && fits 13 b.size && fits 32 b.issue && fits 10 b.homeUnit &&
    fits 10 b.homeEntry && fits 32 b.cas && fits 64 b.hsn

/-- A response block (Table 09-6). -/
def Response.wf (r : Response) : Bool :=
  fits 10 r.homeUnit && fits 10 r.homeEntry && decide (r.status ≤ 3) && fits 8 r.nack && fits 13 r.len

/-- A frame's data: at most 4,096 bytes (Table 09-5). -/
def dataWf (d : List Byte) : Bool := decide (d.length ≤ 4096)

/-- A routed frame. -/
def RFrame.wf (f : RFrame) : Bool := f.head.wf && f.access.wf && f.resp.wf && dataWf f.data

/-- A SLOT frame (Tables 09-2 and 09-3); its body holds at most 2,048 units of 32 bytes. -/
def SlotFrame.wf (f : SlotFrame) : Bool :=
  fits 8 f.tenant && fits 16 f.slot && fits 16 f.seg && decide (f.data.length ≤ 65536) && (!f.poison || f.data.isEmpty)

/-- A HELLO message (Table 09-13). -/
def Hello.wf (h : Hello) : Bool := fits 64 h.serial && fits 11 h.device && decide (h.port < 16) && h.nonce.length == 32

/-- A load record (Table 10-1). -/
def LoadRecord.wf (r : LoadRecord) : Bool :=
  fits 16 r.chain && fits 8 r.kind && fits 11 r.keeper && decide (r.len ≤ 1984) && fits 64 r.offset && fits 64 r.number &&
    r.payload.length == r.len

/-- A tile datagram (Table 12-3). -/
def Tile.wf (t : Tile) : Bool :=
  fits 128 t.dstIp && fits 16 t.dstPort && fits 128 t.srcIp && fits 32 t.magic && fits 8 t.version && fits 8 t.sensor &&
    fits 16 t.len && fits 32 t.exposure && fits 32 t.index && fits 32 t.count && fits 48 t.sec && decide (t.ns < 1000000000)

/-- A Trestle header (Table 16-3). -/
def TrsHead.wf (h : TrsHead) : Bool := fits 8 h.dst && fits 8 h.src && fits 16 h.seq

/-- A register address on a path: within the PF's 64 MiB, or a VF's 1 MiB, of BAR0 (Table 11-2), and there is no VF 0. -/
def pathOk (p : Path) (addr : Nat) : Bool :=
  match p with
  | .vf n => n != 0 && fits 20 addr
  | _ => fits 26 addr

/-- A path exists: there is no VF 0. -/
def Path.wf (p : Path) : Bool := p != .vf 0

/-- Temperatures of the 36 junction sensors, in 0.1 °C (Table 14-8). -/
def tempsWf (l : List Nat) : Bool := listFits 36 12 l

/-- The operands of a command lie within the fields that carry them. -/
def Instr.wf (i : Instr) : Bool :=
  match i with
  | .registerWrite p addr _ hi => pathOk p addr && addr % (match hi with | some _ => 8 | none => 4) == 0
  | .rcRead p addr wide => pathOk p addr && addr % (if wide then 8 else 4) == 0
  | .errInfoValidClear p addr => pathOk p addr
  | .freeze p addr _ => pathOk p addr
  | .lock p addr => pathOk p addr
  | .ack p _ => p.wf
  | .routeWrite p _ _ => p.wf
  | .roleWrite p _ => p.wf
  | .dimsWrite p _ => p.wf
  | .posWrite p _ => p.wf
  | .marker _ a _ m => a.wf && m.wf
  | .vote _ a v => a.wf && v.wf
  | .echo _ a v => a.wf && v.wf
  | .start p => p.wf
  | .hold p => p.wf
  | .resume p => p.wf
  | .stretchReq p _ => p.wf
  | .rerunLimitAttemptCapWrite p limit cap => p.wf && fits 4 limit && fits 8 cap
  | .haltReport _ a v => a.wf && v.wf
  | .detModeWrite p _ => p.wf
  | .ctxRestart p _ => p.wf
  | .debugHalt p _ => p.wf
  | .debugStep p _ => p.wf
  | .debugResume p _ => p.wf
  | .dbgRegDataWrite p _ _ => p.wf
  | .progAdv p _ => p.wf
  | .hdlWrite p _ => p.wf
  | .hdlRead p _ => p.wf
  | .measureDone _ delayPs => fits 32 delayPs
  | .burstGuardWindow _ errors => errors.length == 12
  | .laserOff p _ _ => p.wf
  | .tile _ t => t.wf
  | .test p _ _ => p.wf
  | .loopback p _ _ => p.wf
  | .prbsRestart p _ => p.wf
  | .spcEnable p _ _ => p.wf
  | .portEnable p _ _ => p.wf
  | .slotFrame _ a f => a.wf && f.wf
  | .req _ a h b data => a.wf && h.wf && b.wf && dataWf data
  | .frameForward _ a f => a.wf && f.wf
  | .rsp _ a h r data => a.wf && h.wf && r.wf && dataWf data
  | .mgmt _ a h b data => a.wf && h.wf && b.wf && dataWf data
  | .mgmtResponse _ a h r data => a.wf && h.wf && r.wf && dataWf data
  | .toss _ a h b data => a.wf && h.wf && b.wf && dataWf data
  | .status _ a credits acks => a.wf && listFits 11 16 credits && listFits 4 48 acks
  | .retry _ a cls first count => a.wf && decide (cls < 16) && fits 48 first && decide (1 ≤ count) && decide (count ≤ 128)
  | .retryTimeout _ cls seq => decide (cls < 16) && fits 48 seq
  | .replayReq _ a slot tick => a.wf && fits 16 slot && fits 64 tick
  | .probe _ a t1 t2 => a.wf && fits 64 t1 && fits 64 t2
  | .probeRsp _ a t1 t2 t3 t4 => a.wf && fits 64 t1 && fits 64 t2 && fits 64 t3 && fits 64 t4
  | .hello _ h => h.arrival.wf && h.hello.wf
  | .sign _ x => x.arrival.wf
  | .idleUnit _ cw _ => !cw.isEmpty && blocksWf cw
  | .finish _ a acks => a.wf && listFits 4 48 acks
  | .detourSelect p _ => p.wf
  | .revokeCntWrite p _ => p.wf
  | .chainStart p => p.wf
  | .chainAbort p => p.wf
  | .reload p => p.wf
  | .refill p _ => p.wf
  | .sectionRecord _ r => r.wf
  | .shareRecord _ r => r.wf
  | .stateRecord _ r => r.wf
  | .endRecord _ r => r.wf
  | .hostReadCompletion tag _ => fits 14 tag
  | .completionTimeout tag => fits 14 tag
  | .bar0BadAccess p addr _ _ => pathOk p addr
  | .bar2Write _ addr => fits 20 addr
  | .resultSlotRead _ addr _ => fits 20 addr
  | .invalidate p _ => p.wf
  | .frameWindowClose exposure sensor => fits 32 exposure && fits 8 sensor
  | .pubRingDoorbell p _ => p.wf
  | .ledgerDoorbell p _ => p.wf
  | .newNight p => p.wf
  | .timeSet p => p.wf
  | .timeLatch p => p.wf
  | .sqNote p _ => p.wf
  | .warm p => p.wf
  | .avsRetry p => p.wf
  | .telemetryRead vout pout => vout.all (fits 16) && pout.all (fits 16)
  | .thermalThreshold temps => tempsWf temps
  | .doze p => p.wf
  | .dozeNote p => p.wf
  | .wake p => p.wf
  | .junctionTrip _ temp => fits 12 temp
  | .sensorImplausible _ temp => fits 12 temp
  | .kick p _ => p.wf
  | .alertAck p => p.wf
  | .beacon h number source _ acks grants _ => h.wf && fits 32 number && fits 8 source && fits 15 acks && fits 64 grants
  | .claim h => h.wf
  | .trestleRead h count addr => h.wf && fits 8 count && fits 32 addr
  | .trestleWrite h addr words => h.wf && fits 32 addr && decide (words.length ≤ 30)
  | .trestleWake h => h.wf
  | .spiRead _ _ words _ => decide (words ≤ 2 ^ 24)
  | .flashErase p => p.wf
  | .flashProgram p => p.wf
  | .flashRead p => p.wf
  | .tagRead page _ => fits 8 page
  | .tagWrite page data _ => fits 8 page && data.length == 4
  | .readWide page _ => fits 16 page
  | .writeBlock blk data _ => fits 8 blk && data.length == 16
  | .localTickStart .. | .openEnd .. | .repairStart .. | .sealStart .. | .voteDeadline .. | .echoDeadline ..
  | .keystoneTakeover .. | .stretchSealMarker .. | .dbgMaxExpiry .. | .launch .. | .join .. | .joinComplete ..
  | .copyComplete .. | .stepComplete .. | .iadd .. | .isub .. | .imul .. | .imulhu .. | .imac .. | .and .. | .or ..
  | .xor .. | .shl .. | .shr .. | .sar .. | .imin .. | .imax .. | .umin .. | .umax .. | .mov .. | .icmp ..
  | .pbool .. | .laneq .. | .xlane .. | .sysv .. | .fadd .. | .fsub .. | .fmul .. | .ffma .. | .fmin .. | .fmax ..
  | .fcmp .. | .cvt .. | .tfn .. | .iaddi .. | .andi .. | .ori .. | .xori .. | .shli .. | .shri .. | .sari ..
  | .icmpi .. | .movl .. | .movh .. | .umovl .. | .umovh .. | .uaddi .. | .rdlane .. | .ld .. | .st .. | .atom ..
  | .bra .. | .jmark .. | .jn .. | .exit .. | .fence .. | .fenceRelease .. | .arrive .. | .waita ..
  | .waitaRelease .. | .cpy .. | .issueT .. | .issueV .. | .issueD .. | .tensorComplete .. | .vectorComplete ..
  | .copyDescriptorComplete .. | .waitAt .. | .waitFor .. | .waitIdle .. | .waitRelease .. | .slotTx .. | .slotRx ..
  | .lease .. | .markEnd .. | .markTrace .. | .loopSet .. | .loopBack .. | .halt .. | .admissionComplete ..
  | .scrubVisit .. | .scrubEvaluation .. | .portStartTime .. | .trainingFrame .. | .detectTimeout ..
  | .trainTimeout .. | .alignLock .. | .alignTimeout .. | .backoffExpiry .. | .lossOfLock .. | .retrainTimeout ..
  | .uncWindow .. | .adaptationUpdate .. | .loopFreezeEnd .. | .freezeLimit .. | .offTimeout .. | .lightAnyLoss ..
  | .beaconQualified .. | .lightFullReached .. | .raiseTimeout .. | .lightFullLoss .. | .islandLightCheck ..
  | .laserDisableRelease .. | .optInhibitN .. | .engineCaseOverheat .. | .engineCaseCooled .. | .ethernetFrame ..
  | .ptpMessage .. | .slotStart .. | .slotCheck .. | .escapeTimeout .. | .atomicDue ..
  | .statusTimer .. | .secureTimeout .. | .fenceExpiry .. | .rekeyTimer .. | .oldPhaseExpiry ..
  | .shareVerdict .. | .refillTimeout .. | .configRequest .. | .queueEnable .. | .cmdqDoorbell .. | .nop ..
  | .submit .. | .ringDoorbell .. | .queueRestart .. | .slotRelease .. | .invalidateComplete .. | .flr ..
  | .vfDisable .. | .pfFlr .. | .flrComplete .. | .zeroingComplete .. | .creditStall .. | .postedCreditReturn ..
  | .msixUnmask .. | .hostPortReset .. | .collectionComplete .. | .streamLifetime .. | .frameOpen ..
  | .digestComplete .. | .ledgerCheckpoint .. | .ppsEdge .. | .referenceLoss .. | .qualificationComplete ..
  | .loopUpdate .. | .holdoverLimit .. | .ppsOutput .. | .ppsOutEnd .. | .anchor .. | .noticeApply .. | .coldReset ..
  | .sysRstNAssert .. | .resetRelease .. | .islandBooted .. | .bistComplete .. | .firmwareLoaded ..
  | .avsbusFailure .. | .voltageReached .. | .idleStepDown .. | .droop .. | .droopEnd .. | .dozeEntryComplete ..
  | .exitSignal .. | .wakeComplete .. | .autoResume .. | .lockstepMismatch .. | .islandRebootComplete ..
  | .railOvervoltage .. | .coreUndervoltage .. | .retentionUndervoltage .. | .regulatorFault ..
  | .quarterClockFault .. | .islandOscillatorFault .. | .hubWatchdog .. | .launchPowerTrip .. | .gateCauseClear ..
  | .selfCheckComplete .. | .selfCheckAbandon .. | .vddOptFault .. | .vddOptRestore .. | .blackBoxWrite ..
  | .beaconMiss .. | .listenTimeout .. | .election .. | .superframeStart .. | .assignedSlot .. | .contentionSlot ..
  | .spiWrite .. | .spiSelectRise .. | .flashOperationComplete .. | .getState .. | .tagCommitComplete ..
  | .fieldCollapse .. | .serviceRecordUpdate .. | .prbsCheckerLock .. | .prbsCheckerLockLoss .. | .linkDelayProbe ..
  | .ethernetLinkUp .. | .ethernetLinkDown .. | .pcieLinkReturnsToL0 .. | .powerRemoval .. => true

end Sys2Proof
end

