-- ==== Sys2Proof/Tests/Slice0.lean ====
section
/-!
SUPPORT. Tests of one step on small states: well-formedness refuses what it should, and for every statement's hypotheses a
concrete state and operands that meet them.
-/
namespace Sys2Proof.Tests
open Sys2Proof.Machine

set_option Elab.async false

/-! ### Thread groups -/

/-- A type 1 handle of tenant 1 with every right: `n` bytes at local base `b`, bank 0, k = 0 (Table 07-2). -/
def local1 (b n : Nat) : HEntry := BitVec.ofNat 128 (1 + 1 * 2 ^ 8 + 255 * 2 ^ 16 + b * 2 ^ 32 + n * 2 ^ 64)

/-- A type 4 handle of tenant 1: `n` bytes at a span address (Table 07-2). -/
def remote4 (a n : Nat) : HEntry :=
  BitVec.ofNat 128 (4 + 1 * 2 ^ 8 + 255 * 2 ^ 16 + a % 2 ^ 32 * 2 ^ 32 + n * 2 ^ 64 + a / 2 ^ 32 * 2 ^ 96)

/-- A ready group of tenant 1 in block 0, every lane active. -/
def grp : Group :=
  { tenant := 1, block := 0, index := 0, code := 0, window := 0, order := 0, t := [], p := [], u := [], pc := 0,
    active := 0xFFFFFFFF#32, stk := [], wait := .ready, remote := 0, copies := 0, halted := false, stepping := false,
    stepped := false, bpHit := false }

/-- Memory that holds the bytes `l` from address `a` on. -/
def cells (a : Nat) (l : List Byte) : List Host.Cell :=
  (l.zipIdx.map (fun b => (a + b.2, b.1))).filter (fun b => b.2 != 0#8)

/-- Cluster 511 with the group in its last slot: handle 0 its code, handle 1 data, handle 2 remote memory. -/
def thrCluster (x : Group) : Cluster :=
  { Cluster.reset with
    handles := [(0, local1 0 4096), (1, local1 4096 4096), (2, remote4 (2 ^ 45) 4096)], groups := [(63, x)],
    active := [(7, 63)], blocks := [(0, ⟨1, 1, 0, []⟩)], leases := [0#32, 0#32, 0#32, 0xFFFFFFFF#32] }

/-- The device in a tick's body with that cluster, whose first code word is instruction `w` of opcode `op`. -/
def thr (op : Nat) (w : TWord) (x : Group) : State :=
  { State.reset with
    clusters := [(511, thrCluster x)], mem := cells (spAddr 511 0) (leBytes 4 (threadWord op w))
    tick := { Tick.reset with state := .run, phase := .body, count := 5 } }

/-- A thread word of d, a, b, bs and x, unguarded (Table 04-2). -/
def tword (d a b bs x : Nat) : TWord := BitVec.ofNat 26 (d * 2 ^ 15 + a * 2 ^ 9 + b * 2 ^ 3 + bs * 4 + x)

/-- The state a command answers. -/
def after (i : Instr) (s : State) : State :=
  match exec i s with
  | .next t => t
  | .fault _ => s
  | .refused _ => s

theorem witness_ArithmeticOps :
    (∀ op ∈ [0x01, 0x0F, 0x10, 0x16, 0x1D, 0x1E, 0x20, 0x29],
      Runs (thr op 0x3F8FE7C#26 grp) 511 63 op 0x3F8FE7C#26 grp (List.range 64)) ∧
      (guardOk 0x3F8FE7C#26 = true ∧ bOk 0x3F8FE7C#26 = true ∧ wX 0x3F8FE7C#26 = 0 ∧ wGp 0x3F8FE7C#26 = 7) ∧
      (!wBs (tword 0 63 0 0 0) && wX (tword 0 63 0 0 0) == 0 && cvtDefined (wB (tword 0 63 0 0 0))) = true ∧
      (!wBs (tword 0 63 0 0 3) && wB (tword 0 63 0 0 3) == 0) = true ∧ tw (tword 63 63 3 1 3) 8 5 = 0 ∧
      (let w := tword 63 0 15 1 0; (bOk w && wX w == 0 && wA w == 0) = true) := by
  dsimp only [Runs, CleanFetch]; decide +kernel

theorem witness_LaneQueries :
    (∀ op ∈ [0x11, 0x12, 0x13, 0x14, 0x15, 0x1C, 0x27, 0x2A, 0x2D],
      Runs (thr op (tword 15 15 3 1 0) grp) 511 63 op (tword 15 15 3 1 0) grp (List.range 64)) ∧
      (let w := tword 63 63 15 1 0; (bOk w && wX w == 0) = true) ∧
      (let w := tword 7 7 7 0 3; (tw w 20 18 == 0 && tw w 14 12 == 0 && tw w 8 6 == 0 && !wBs w) = true) ∧
      (laneqOk (tword 7 7 0 0 0) && wX (tword 7 7 0 0 0) == 0) = true ∧
      (laneqOk (tword 7 7 0 0 1) && wX (tword 7 7 0 0 1) == 1) = true ∧
      (laneqOk (tword 63 7 0 0 2) && wX (tword 63 7 0 0 2) == 2) = true ∧
      (laneqOk (tword 63 7 0 0 3) && wX (tword 63 7 0 0 3) == 3) = true ∧
      (∀ b ∈ List.range 8, let w := tword 63 0 b 0 0; (!wBs w && wX w == 0 && wA w == 0 && decide (wB w < 8)) = true) ∧
      (let w := tword 15 63 3 1 3; groupOk w = true ∧ (tw w 20 19 == 0 && tw w 8 5 == 0) = true) ∧
      (let w := tword 31 63 63 1 3; groupOk w = true ∧ tw w 20 20 = 0) ∧
      (let w := tword 15 15 63 1 3; (tw w 20 19 == 0 && tw w 14 13 == 0) = true) := by
  dsimp only [Runs, CleanFetch]; decide +kernel

/-- IADD wraps (R102); d is also a source. -/
theorem test_iadd_wraps :
    let x := { grp with t := [(63 * 32 + 31, 0xFFFFFFFF#32)] }
    ((after (.iadd 511 63 (tword 63 63 63 0 0)) (thr 0x01 (tword 63 63 63 0 0) x)).group 511 63).map (fun y => (y.treg 63 31, y.treg 63 30, y.pc)) =
      some (0xFFFFFFFE#32, 0#32, 4) := by decide +kernel

/-- SAR keeps the sign (R102). -/
theorem test_sar_sign :
    let x := { grp with t := [(0, 0x80000000#32), (32, 31#32)] }
    ((after (.sar 511 63 (tword 2 0 1 0 0)) (thr 0x0B (tword 2 0 1 0 0) x)).group 511 63).map (fun y => y.treg 2 0) = some 0xFFFFFFFF#32 := by
  decide +kernel

/-- FADD: 1 + 2 = 3 (R108). -/
theorem test_fadd :
    let x := { grp with t := [(0, 0x3F800000#32), (32, 0x40000000#32)] }
    ((after (.fadd 511 63 (tword 2 0 1 0 0)) (thr 0x16 (tword 2 0 1 0 0) x)).group 511 63).map (fun y => y.treg 2 0) = some 0x40400000#32 := by
  decide +kernel

/-- 2^1 = 2, 2^0.5, 2^−149, log₂ 8 = 3, log₂ 10 and log₂ 0.5 = −1, before the device's own choice within 2 ulp (R109). -/
theorem test_exp2_log2 :
    ubits (exp2Near false 1 0) = 0x40000000 ∧ ubits (exp2Near false 1 (-1)) = 0x3FB504F3 ∧ ubits (exp2Near true 149 0) = 1 ∧
    ubits (log2Near 1 3) = 0x40400000 ∧ ubits (log2Near 5 1) = 0x40549A78 ∧ ubits (log2Near 1 (-1)) = 0xBF800000 := by decide +kernel

/-- A guard of p[7], turned about: only the lanes where it is 0 execute (R99). -/
theorem test_guard_turned :
    let x := { grp with p := [(7, 1#32)] }
    ((after (.movl 511 63 0x3E0FFFF#26) (thr 0x28 0x3E0FFFF#26 x)).group 511 63).map (fun y => (y.treg 0 0, y.treg 0 1)) =
      some (0#32, 0xFFFF#32) := by decide +kernel

theorem witness_GuardMask :
    let w : TWord := tword 0 0 0 0 0
    let v : TWord := 0x3E00000#26
    (wGe w = false ∧ guardOk w = true) ∧ wGe v = true ∧ wGn v = true ∧ wGp v = 7 ∧ (31 < 32) := by decide +kernel

/-- A register's value is in force. -/
def force (s : State) (r : Reg) (v : Nat) (idx : Nat := 0) (i : Nat := 0) : State :=
  { s with eff := mput s.eff (regKey (pageNo r.page i) (r.off + 4 * idx) 0) (w32 v) }

/-- The group with tenant 1's tag enabled, and the bytes of handles 0 and 1 written. -/
def mem (op : Nat) (w : TWord) (x : Group) : State :=
  let s := force (thr op w x) R.spnTenEn 2
  { s with written := (hAddrs 511 (local1 4096 4096) 0 64 0) }

/-- Handle 1, and handle 2, resolved. -/
def h1 : Resolved := ⟨511, local1 4096 4096, 1, false⟩
def h2 : Resolved := ⟨511, remote4 (2 ^ 45) 4096, 2, false⟩

/-- Two lanes execute, at offset `o`, and u[i] names handle `n`. -/
def two (i n o : Nat) : Group :=
  { grp with active := 0x80000001#32, u := [(i, w32 n)], t := [(63 * 32, w32 o), (63 * 32 + 31, w32 o)] }

theorem witness_BranchAndJoin :
    (∀ op ∈ [0x34, 0x35], Runs (thr op 0#26 grp) 511 63 op 0#26 grp []) ∧
      Runs (thr 0x34 0x2000000#26 grp) 511 63 0x34 0x2000000#26 grp [] ∧ guardOk 0#26 = true ∧ guardOk 0x2000000#26 = true ∧
      grp.ex 0#26 = grp.active ∧ grp.ex 0x2000000#26 = 0#32 ∧ grp.active ≠ 0#32 ∧ groupOk 0#26 = true ∧ tw 0#26 20 0 = 0 ∧
      grp.stk.length < 16 ∧
      (let x := { grp with stk := [⟨true, 8, 1#32⟩] }; Runs (thr 0x36 0#26 x) 511 63 0x36 0#26 x [] ∧ x.stk = [⟨true, 8, 1#32⟩]) := by
  dsimp only [Runs, CleanFetch]; decide +kernel

/-- A branch that lane 0 takes alone, with 15 entries on the stack, and with a path entry that resumes at the same pc. -/
theorem witness_BranchAndJoin_divergent :
    let x := { grp with p := [(0, 1#32)], stk := List.replicate 15 ⟨false, 0, 0#32⟩ }
    let y := { grp with p := [(0, 1#32)], stk := [⟨true, 4, 0#32⟩] }
    let w : TWord := 0x2000000#26
    (Runs (thr 0x34 w x) 511 63 0x34 w x [] ∧ guardOk w = true ∧ x.ex w ≠ x.active ∧ x.ex w ≠ 0#32 ∧ x.stk.length < 16 ∧
      x.stk.head? = some ⟨false, 0, 0#32⟩) ∧
    (Runs (thr 0x34 w y) 511 63 0x34 w y [] ∧ y.ex w ≠ y.active ∧ y.ex w ≠ 0#32 ∧ y.stk = ⟨true, 4, 0#32⟩ :: []) := by
  dsimp only [Runs, CleanFetch]; decide +kernel

theorem witness_ExitRetires :
    Runs (thr 0x37 0#26 grp) 511 63 0x37 0#26 grp [] ∧ groupOk 0#26 = true ∧ tw 0#26 20 0 = 0 ∧
      mfind ((thr 0x37 0#26 grp).cluster 511).blocks grp.block = some ⟨1, 1, 0, []⟩ := by
  dsimp only [Runs, CleanFetch]; decide +kernel

/-- An access of group 63 of cluster 511 awaits its response. -/
def asked : Pending := ⟨511, 65535, 1, 0, 4, .store 511 63, 0, false⟩

theorem witness_FencesAndArrivals :
    let x := { grp with wait := .fence 3 }
    let z := { grp with wait := .counter 15 0 }
    let u := { grp with wait := .counter 15 65535 }
    let s := { (thr 0x39 15#26 grp) with fabric := { Fabric.reset with pending := [asked], asked := 1 } }
    (Runs (thr 0x38 3#26 grp) 511 63 0x38 3#26 grp [] ∧ groupOk 3#26 = true ∧ tw 3#26 20 2 = 0) ∧
    ((thr 0x38 3#26 x).group 511 63 = some x ∧ x.wait = .fence 3 ∧ x.remote = 0) ∧
    ((thr 0x38 3#26 { x with remote := 1 }).group 511 63 = some { x with remote := 1 } ∧ (1 ≠ 0)) ∧
    (Runs (thr 0x39 15#26 grp) 511 63 0x39 15#26 grp [] ∧ groupOk 15#26 = true ∧ tw 15#26 20 4 = 0 ∧
      (thr 0x39 15#26 grp).outstanding 511 63 (thr 0x39 15#26 grp).fabric.asked = false ∧
      ((thr 0x39 15#26 grp).cluster 511).arrivals = [] ∧
      mfind ((thr 0x39 15#26 grp).cluster 511).blocks grp.block = some ⟨1, 1, 0, []⟩ ∧
      mget 0 (⟨1, 1, 0, []⟩ : Block).counters (tw 15#26 3 0) < 65535) ∧
    (Runs s 511 63 0x39 15#26 grp [] ∧ s.outstanding 511 63 s.fabric.asked = true ∧ (s.cluster 511).arrivals = []) ∧
    (Runs (thr 0x3A 0x1FFFFF#26 grp) 511 63 0x3A 0x1FFFFF#26 grp [] ∧ groupOk 0x1FFFFF#26 = true ∧
      (bit (0x1FFFFF#26).toNat 20 || tw 0x1FFFFF#26 19 8 == 0) = true ∧
      (thr 0x3A 0x1FFFFF#26 grp).counter 511 grp.block 15 < tw 0x1FFFFF#26 19 4) ∧
    (Runs (thr 0x3A 0x10000F#26 grp) 511 63 0x3A 0x10000F#26 grp [] ∧
      tw 0x10000F#26 19 4 ≤ (thr 0x3A 0x10000F#26 grp).counter 511 grp.block 15) ∧
    ((thr 0 0#26 z).group 511 63 = some z ∧ 0 ≤ (thr 0 0#26 z).counter 511 z.block 15) ∧
    ((thr 0 0#26 u).group 511 63 = some u ∧ (thr 0 0#26 u).counter 511 u.block 15 < 65535) := by
  dsimp only [Runs, CleanFetch]; and_intros <;> decide +kernel

theorem witness_KillsAndIdleLanes :
    let x := { grp with active := 0#32 }
    (∀ op ∈ [0x30, 0x31], AtRest (thr op 0x10#26 x) ∧ Runs (thr op 0x10#26 x) 511 63 op 0x10#26 x [wR 0x10#26, wA 0x10#26] ∧
      guardOk 0x10#26 = true ∧ x.ex 0x10#26 = 0#32 ∧ wS 0x10#26 = 0 ∧ wW 0x10#26 = 2) ∧
    (AtRest (thr 0x32 0x16#26 x) ∧ Runs (thr 0x32 0x16#26 x) 511 63 0x32 0x16#26 x [wR 0x16#26, wA 0x16#26] ∧
      wS 0x16#26 ≠ 7 ∧ wW 0x16#26 = 2 ∧ guardOk 0x16#26 = true ∧ x.ex 0x16#26 = 0#32) ∧
    (∀ op ∈ [0x01, 0x02, 0x03, 0x16, 0x10, 0x11, 0x1D, 0x20, 0x28, 0x30, 0x31, 0x32, 0x34],
      Runs (thr op 0x1FFFFFF#26 grp) 511 63 op 0x1FFFFFF#26 grp [] ∧ AtRest (thr op 0x1FFFFFF#26 grp) ∧
      guardOk 0x1FFFFFF#26 = false ∧ (thr op 0x1FFFFFF#26 grp).ctxDead 1 = false) := by
  dsimp only [Runs, CleanFetch, AtRest, PortsFree]; and_intros <;> decide +kernel

/-- A double from the handle's first bytes and a word at its last, on lanes 0 and 31. -/
theorem witness_LocalMemory :
    let x := two 0 1 0
    let w : TWord := BitVec.ofNat 26 (62 * 2 ^ 15 + 63 * 2 ^ 9 + 3 * 2 ^ 3)
    let y := two 15 1 4092
    let v : TWord := BitVec.ofNat 26 (63 * 2 ^ 15 + 63 * 2 ^ 9 + 15 * 2 ^ 5 + 2 * 2 ^ 3)
    let z := two 0 1 60
    let a : TWord := BitVec.ofNat 26 (62 * 2 ^ 15 + 63 * 2 ^ 9 + 2 * 2 ^ 3 + 7)
    (guardOk w = true ∧ wS w % 4 = 0 ∧ (wW w = 3 ∧ wR w % 2 = 0) ∧ MemRuns (mem 0x30 w x) 511 63 0x30 w x [62, 63, 63] [0] 8 h1 ∧
      hType h1.entry = 1 ∧ ∀ p ∈ x.offsets w, ReadsMemory (mem 0x30 w x) 3 (hKind h1.entry == 0) (laneAddrs h1 p.2 8 false)) ∧
    (wS v = 0 ∧ MemRuns (mem 0x31 v y) 511 63 0x31 v y [63, 63] [1] 4 h1 ∧
      ∀ p ∈ y.offsets v, CleanBytes (mem 0x31 v y) 3 (laneAddrs h1 p.2 4 true)) ∧
    (wW a = 2 ∧ wS a = 7 ∧ MemRuns (mem 0x32 a z) 511 63 0x32 a z [62, 63, 63] [0, 1] 4 h1 ∧
      ∀ p ∈ z.offsets a, ReadsMemory (mem 0x32 a z) 3 (hKind h1.entry == 0) (laneAddrs h1 p.2 4 true)) := by
  dsimp only [MemRuns, Runs, CleanFetch, AtRest, PortsFree, ReadsMemory, CleanBytes, CleanEntry]; and_intros <;> decide +kernel

/-- The device at torus number 1, where handle 2 leads, its tenant with 2 homes of the cluster. -/
def home (op : Nat) (w : TWord) (x : Group) : State :=
  { (mem op w x).wr R.spnPos 1 with fabric := { Fabric.reset with homes := [(511 * 256 + 1, 2)] } }

theorem witness_RemoteAccess :
    let x := two 15 2 4088
    let w : TWord := BitVec.ofNat 26 (62 * 2 ^ 15 + 63 * 2 ^ 9 + 15 * 2 ^ 5 + 3 * 2 ^ 3)
    let y := two 15 2 4092
    let a : TWord := BitVec.ofNat 26 (62 * 2 ^ 15 + 63 * 2 ^ 9 + 15 * 2 ^ 5 + 2 * 2 ^ 3 + 7)
    (hType h2.entry = 4 ∧ guardOk w = true ∧ wS w = 0 ∧ wW w = 3 ∧ wR w % 2 = 0 ∧
      MemRuns (home 0x30 w x) 511 63 0x30 w x [62, 63, 63] [0] 8 h2 ∧ MemRuns (home 0x31 w x) 511 63 0x31 w x [62, 63, 63] [1] 8 h2) ∧
    (wW a = 2 ∧ wS a = 7 ∧ MemRuns (home 0x32 a y) 511 63 0x32 a y [62, 63, 63] [0, 1] 4 h2) := by
  dsimp only [MemRuns, Runs, CleanFetch, AtRest, PortsFree, CleanEntry]; and_intros <;> decide +kernel

/-- A CPY's group: its copy of 8 bytes from offset 56 to the start of handle 1. -/
def copier : Group := { grp with u := [(12, w32 (1 + 1 * 2 ^ 16)), (13, 0#32), (14, 56#32), (15, 8#32)] }

/-- The copy itself, as the engine holds it. -/
def thrCopy : ThreadCopy := ⟨0, 1, 63, 0, 15, 1, 1, 56, 0, 8, 0, zeros 8, 0, spanScratch 0 511 0⟩

/-- The device with that copy under way. -/
def copying : State :=
  let s := mem 0 0#26 grp
  { s with clusters := [(511, { thrCluster grp with copies := [thrCopy], leases := leasesReset, copyIds := 1 })] }

theorem witness_ThreadCopies :
    (copier.copyDesc (tw 0x3F#26 5 4) = ⟨1, 1, 0, 56, 8⟩ ∧ Runs (mem 0x3B 0x3F#26 copier) 511 63 0x3B 0x3F#26 copier [] ∧ AtRest (mem 0x3B 0x3F#26 copier) ∧
      groupOk 0x3F#26 = true ∧ tw 0x3F#26 20 6 = 0 ∧ copier.copies < 32 ∧
      (mem 0x3B 0x3F#26 copier).copyFault 511 1 (copier.copyDesc 3) = none ∧
      mfind ((mem 0x3B 0x3F#26 copier).cluster 511).blocks 0 = some ⟨1, 1, 0, []⟩ ∧ hType ((mem 0x3B 0x3F#26 copier).entry 511 1) ≠ 4) ∧
    ((copying.cluster 511).copyOf 0 = some thrCopy ∧ thrCopy.len ≠ 0 ∧ h1.bad = false ∧ copying.resolve 511 1 1 = some h1 ∧ hType (copying.entry 511 1) ≠ 4 ∧
      CleanEntry copying 511 1 ∧ ReadsMemory copying 2 (hKind h1.entry == 0) (localAddrs h1 56 8 false) ∧
      CleanBytes copying 2 (localAddrs h1 0 8 true) ∧ mfind (copying.cluster 511).blocks 0 = some ⟨1, 1, 0, []⟩) := by
  dsimp only [Runs, CleanFetch, AtRest, PortsFree, ReadsMemory, CleanBytes, CleanEntry]; decide +kernel

/-- Where two lanes store to one byte, the highest lane's stays (R85). -/
theorem test_st_highest_lane :
    let x := { two 0 1 0 with t := [(0, 5#32), (31, 7#32), (63 * 32, 0#32), (63 * 32 + 31, 0#32)] }
    ((after (.st 511 63 (BitVec.ofNat 26 (63 * 2 ^ 9 + 2 * 2 ^ 3))) (mem 0x31 (BitVec.ofNat 26 (63 * 2 ^ 9 + 2 * 2 ^ 3)) x)).bytes (spAddr 511 4096) 4) =
      [7#8, 0#8, 0#8, 0#8] := by decide +kernel

/-! ### Sequencer -/

/-- Context `k` of cluster 511 runs at `pc` of a code region of 4096 bytes; its tenant 1 may use every block. -/
def seqCluster (k pc : Nat) (state : CtxState) (wait : CtxWait) : Cluster :=
  { Cluster.reset with
    handles := [(0, local1 0 4096), (1, local1 4096 1048576), (1023, local1 4096 65536)]
    ctxTab := [(k, ⟨1, true, 0xFFFF, 16, 1, 0, 4096, 0⟩)]
    ctxs := [(k, { Ctx.reset with pc := pc, state := state, wait := wait, lc := [(3, 2)] })] }

/-- The device at `ns` of a tick's body with that cluster. -/
def seqState (q : Cluster) (ns : Nat) : State :=
  force { State.reset with
    clusters := [(511, q)]
    tick := { Tick.reset with state := .run, phase := .body, ns := ns, count := 5 } } R.spnTenEn 2

/-- A running context 7 whose next word is `w`, and the lease context. -/
def seq7 (pc ns : Nat) (w : QWord) : State :=
  { seqState (seqCluster 7 pc .run .none) ns with mem := cells (qsAddr 3 pc) (leBytes 8 w.toNat) }
def seq8 (w : QWord) : State :=
  { seqState (seqCluster 8 4088 .run .none) 5000 with mem := cells (qsAddr 3 4088) (leBytes 8 w.toNat) }

/-- A sequencer word: kind, hold and operand (Table 06-1). -/
def sword (kind hold x : Nat) : QWord := BitVec.ofNat 64 (kind * 2 ^ 60 + hold * 2 ^ 56 + x)

theorem witness_SequencerWords_waits :
    let w := sword 1 15 5000
    (SeqRuns (seq7 4088 4999 w) 511 7 w 1 ∧ SeqRuns (seq7 4088 5000 w) 511 7 w 1 ∧ SeqRuns (seq7 4088 5001 w) 511 7 w 1 ∧
      qw w 41 40 = 0 ∧ qw w 47 42 = 0 ∧ qw w 39 24 = 0 ∧ qw w 23 0 = 5000 ∧ 5000 < (seq7 4088 5000 w).repairStart ∧
      (seq7 4088 4999 w).tick.ns < 5000 ∧ (seq7 4088 5000 w).tick.ns = 5000 ∧ 5000 < (seq7 4088 5001 w).tick.ns) ∧
    (let v := sword 1 0 (2 ^ 40 + 0xFFFFFFFF); SeqRuns (seq7 0 0 v) 511 7 v 1 ∧ qw v 41 40 = 1 ∧ qw v 47 42 = 0 ∧
      qw v 39 32 = 0 ∧ 1 ≤ qw v 31 0) ∧
    (let v := sword 1 0 (2 * 2 ^ 40 + 7); SeqRuns (seq7 0 0 v) 511 7 v 1 ∧ qw v 41 40 = 2 ∧ qw v 47 42 = 0 ∧
      qw v 39 3 = 0 ∧ 1 ≤ qw v 2 0) ∧
    (let s := seqState (seqCluster 7 8 .wait (.until 5000)) 5000;
      (s.ctx 511 7).state = .wait ∧ (s.ctx 511 7).wait = .until 5000 ∧ 5000 ≤ s.tick.ns) ∧
    (let s := seqState (seqCluster 7 8 .wait (.clks 1)) 5000; (s.ctx 511 7).state = .wait ∧ (s.ctx 511 7).wait = .clks 1) ∧
    (let s := seqState (seqCluster 7 8 .wait (.idle 7)) 5000;
      (s.ctx 511 7).state = .wait ∧ (s.ctx 511 7).wait = .idle 7 ∧ (s.cluster 511).idleMask 7 = true) := by
  dsimp only [SeqRuns]; and_intros <;> decide +kernel

theorem witness_SequencerWords_marks :
    (let w := sword 10 0 0; SeqRuns (seq7 4088 0 w) 511 7 w 10 ∧ qw w 35 32 = 0 ∧ qw w 47 36 = 0 ∧ qw w 31 0 = 0) ∧
    (let w := sword 10 0 (2 ^ 32 + 0xFFFF); SeqRuns (seq7 4088 0 w) 511 7 w 10 ∧ qw w 35 32 = 1 ∧ qw w 47 36 = 0 ∧ qw w 31 16 = 0) ∧
    (let w := sword 11 0 (3 * 2 ^ 36 + 0xFFFFFFFF); SeqRuns (seq7 0 0 w) 511 7 w 11 ∧ qw w 41 40 = 0 ∧ qw w 47 42 = 0 ∧
      qw w 39 38 = 0 ∧ qw w 35 32 = 0 ∧ 1 ≤ qw w 31 0) ∧
    (let w := sword 11 15 (2 ^ 40 + 3 * 2 ^ 36 + 511); SeqRuns (seq7 4088 0 w) 511 7 w 11 ∧ qw w 41 40 = 1 ∧ qw w 47 42 = 0 ∧
      qw w 39 38 = 0 ∧ qw w 35 16 = 0 ∧ 1 ≤ qw w 15 0 ∧ 8 * qw w 15 0 ≤ ((seq7 4088 0 w).ctx 511 7).pc ∧
      1 < mget 0 ((seq7 4088 0 w).ctx 511 7).lc (qw w 37 36)) ∧
    (let w := sword 11 15 (2 ^ 40 + 2 * 2 ^ 36 + 1); SeqRuns (seq7 8 0 w) 511 7 w 11 ∧ qw w 41 40 = 1 ∧ qw w 47 42 = 0 ∧
      qw w 39 38 = 0 ∧ qw w 35 16 = 0 ∧ 1 ≤ qw w 15 0 ∧ 8 * qw w 15 0 ≤ ((seq7 8 0 w).ctx 511 7).pc ∧
      mget 0 ((seq7 8 0 w).ctx 511 7).lc (qw w 37 36) ≤ 1) ∧
    (let w := sword 12 0 0; SeqRuns (seq7 0 0 w) 511 7 w 12 ∧ qw w 47 0 = 0) := by
  dsimp only [SeqRuns]; and_intros <;> decide +kernel

/-- The bytes of a launch record in the quarter store: code handle 0, window handle 1, block 15, 16 groups (Table 03-2). -/
def launchCells : List Host.Cell := [(qsAddr 3 4034, 1#8), (qsAddr 3 4040, 15#8), (qsAddr 3 4041, 16#8)]

/-- A context that waits for block 15, whose last group has retired. -/
def joining : Cluster :=
  { seqCluster 7 8 .wait (.join 15) with blocks := [(15, ⟨1, 0, 0, []⟩)] }

theorem witness_LeaseLaunchJoin :
    (let w := sword 7 0 (3 * 2 ^ 32 + 0xFFFFFFFF); SeqRuns (seq8 w) 511 8 w 7 ∧ qw w 47 34 = 0) ∧
    (let w := sword 8 0 4032
      let s := { seq7 0 0 w with mem := (seq7 0 0 w).mem ++ launchCells }
      let b := s.bytes (s.codeAt 511 7 4032) 64
      SeqRuns s 511 7 w 8 ∧ qw w 47 26 = 0 ∧ qw w 25 0 % 64 = 0 ∧ qw w 25 0 + 64 ≤ (s.ctxEntry 511 7).len ∧
        (∀ a ∈ wordsOf ((List.range 64).map (fun i => s.codeAt 511 7 4032 + i)), s.eccOf a = 0) ∧
        CleanEntry s 511 (lCode b) ∧ CleanEntry s 511 (lWindow b) ∧ s.launchFault 511 7 b = none ∧ lCount b = 16) ∧
    (let w := sword 9 0 15; SeqRuns (seq7 0 0 w) 511 7 w 9 ∧ qw w 47 4 = 0 ∧
      bit ((seq7 0 0 w).ctxEntry 511 7).blockMask (qw w 3 0) = true) ∧
    (let s := seqState joining 0; mfind (s.cluster 511).blocks 15 = some ⟨1, 0, 0, []⟩ ∧
      (s.cluster 511).ctxs.any (fun p => decide (p.2.state = .wait ∧ p.2.wait = .join 15)) = true ∧ s.writesOut 511 15 = false) ∧
    (let q : Cluster := { Cluster.reset with grants := [(1#32, 0, 2)] };
      q.grants = [(1#32, 0, 2)] ∧ ∀ b, b < 32 → ∃ g, g < 4 ∧ ∀ h, h < 4 → (bit (q.leases.getD h 0#32).toNat b = true ↔ h = g)) := by
  dsimp only [SeqRuns, CleanEntry]; and_intros <;> decide +kernel

/-- A copy descriptor of one row of 8 bytes from handle 1 to handle 1023 (Table 06-3). -/
def copyCells : List Host.Cell :=
  [(qsAddr 3 0, 1#8), (qsAddr 3 2, 0xFF#8), (qsAddr 3 3, 3#8), (qsAddr 3 12, 8#8), (qsAddr 3 16, 1#8)]

/-- A tensor descriptor of one FP8 row and one tile, A and B in handle 1, C in handle 1023 (Table 05-6). -/
def tensorCells : List Host.Cell :=
  [(qsAddr 3 2, 1#8), (qsAddr 3 4, 1#8), (qsAddr 3 6, 1#8), (qsAddr 3 8, 1#8), (qsAddr 3 10, 1#8), (qsAddr 3 12, 0xFF#8),
    (qsAddr 3 13, 3#8), (qsAddr 3 20, 128#8), (qsAddr 3 33, 1#8)]

/-- A vector descriptor of one element and one stage: RELU of handle 1 into handle 1023 (Table 05-8). -/
def vectorCells : List Host.Cell :=
  [(qsAddr 3 0, 1#8), (qsAddr 3 4, 1#8), (qsAddr 3 8, 1#8), (qsAddr 3 12, 1#8), (qsAddr 3 16, 1#8), (qsAddr 3 20, 1#8),
    (qsAddr 3 22, 0x10#8), (qsAddr 3 60, 0xFF#8), (qsAddr 3 61, 3#8), (qsAddr 3 62, 0x10#8), (qsAddr 3 80, 7#8)]

/-- An engine that runs a descriptor of context 7, and one with a second waiting. -/
def runs1 : Engine := ⟨some ⟨1, 7, 0, [], 100, 0, false, 0, 0#32, 0#32⟩, none⟩
def runs2 : Engine := { runs1 with queued := some ⟨1, 7, 64, [], 100, 0, false, 1, 0#32, 0#32⟩ }

/-- What an ISSUE to engine `n` of the descriptor in `m` needs. -/
def mayIssueDesc (n : Nat) (m : List Host.Cell) : Bool :=
  let s := { seq7 4088 0 0#64 with mem := m }
  let b := s.bytes (s.codeAt 511 7 0) (descSize n)
  ((s.cluster 511).engine n).queued.isNone && (s.checkDesc 511 1 n b).isNone && s.ecc.isEmpty

theorem witness_EngineDescriptors :
    (∀ n, n < 3 → SeqRuns (seq7 4088 0 (sword (n + 2) 0 0)) 511 7 (sword (n + 2) 0 0) (n + 2) ∧ qw (sword (n + 2) 0 0) 25 0 = 0) ∧
      mayIssueDesc 0 tensorCells = true ∧ mayIssueDesc 1 vectorCells = true ∧ mayIssueDesc 2 copyCells = true ∧
      (let s := seqState { seqCluster 7 4088 .run .none with tensor := runs2 } 0;
        ((s.cluster 511).engine 0).queued ≠ none ∧ ((s.cluster 511).engine 0).running = runs1.running ∧
          qKind (sword 2 0 0) = 0 + 2) := by
  dsimp only [SeqRuns]; and_intros <;> decide +kernel

/-- Slot 65,535 of tenant 1, a transmit slot and then a receive slot of 64 bytes at 6,000 ns on port 15. -/
def slotState (dir ns : Nat) (w : QWord) : State :=
  { seq7 0 ns w with fabric := { Fabric.reset with slots := [(65535, ⟨dir, 15, 0, 0, 1, 6000, 64, 0⟩)] } }

theorem witness_SlotArming :
    let w := sword 5 0 (0xFFFF + 1023 * 2 ^ 16)
    let v := sword 6 0 (0xFFFF + 1023 * 2 ^ 16)
    (∀ ns ∈ [5900, 5901], SeqRuns (slotState 1 ns w) 511 7 w 5 ∧ qw w 47 26 % 64 = 0 ∧ CleanEntry (slotState 1 ns w) 511 1023 ∧
      (slotState 1 ns w).slotFault 511 1 65535 1023 0 true = none ∧ (slotState 1 ns w).tick.phase = .body) ∧
    (∀ ns ∈ [5999, 6000], SeqRuns (slotState 2 ns v) 511 7 v 6 ∧ CleanEntry (slotState 2 ns v) 511 1023 ∧
      (slotState 2 ns v).slotFault 511 1 65535 1023 0 false = none) := by
  dsimp only [SeqRuns, CleanEntry]; and_intros <;> decide +kernel

/-- LOOP.BACK goes back 511 words while the counter exceeds 1 (R168). -/
theorem test_loop_back :
    let w := sword 11 0 (2 ^ 40 + 3 * 2 ^ 36 + 511)
    ((after (.loopBack 511 7 w) (seq7 4088 0 w)).ctx 511 7).pc = 0 ∧
      ((after (.loopBack 511 7 w) (seq7 4088 0 w)).ctx 511 7).lc = [(3, 1)] := by
  decide +kernel

/-- LEASE of banks 0 and 31 to T takes them from D, 2 clk after it issues (R165). -/
theorem test_lease :
    let q := (after (.lease 511 8 (sword 7 0 0x80000001)) (seq8 (sword 7 0 0x80000001))).cluster 511
    q.leases = [0#32, 0#32, 0xFFFFFFFF#32, 0#32] ∧ (q.after 1).leases = q.leases ∧
      (q.after 2).leases = [0x80000001#32, 0#32, 0x7FFFFFFE#32, 0#32] := by decide +kernel

/-! ### Registers -/

/-- The device booted and released: every page is served (R369). -/
def up : State :=
  { State.reset with
    power := { Power.reset with released := true, state := .active, bistDone := true }
    island := { Island.reset with ready := true, firmware := true }
    host := { HostPort.reset with linkUp := true, fns := [(0, { Function.reset with ready := true }), (255, { Function.reset with ready := true })] } }

/-- The booted device in RUN, in HOLD, and with an image as device 0 that is its own keystone. -/
def upRun : State := { up with tick := { Tick.reset with state := .run, phase := .body, count := 5, attempt := 1 } }
def upHold : State := { up with tick := { Tick.reset with state := .hold, count := 5 } }
def imaged : State :=
  force { up with image := { Image.reset with loaded := true, self := 0, fSched := 1 } } R.tckKsCfg 0

/-- The keystone of a span in a state. -/
def keystone (x : TickState) : State := { imaged with tick := { Tick.reset with state := x, keystone := true, joined := true } }

/-- The booted device asleep, and with TCK's page locked. -/
def asleep : State := { up with power := { up.power with state := .doze } }
def lockedTck : State := up.setHdr (pageNo .tck 0) hLock 1

theorem witness_RegisterWrites :
    (LandsWrite up .pf (pageAddr .tck 0 0x44) .tck 0 0x44 ∧ (regFor .pf .tck 0x44).map (plainReg .tck 0x44) = some true ∧
      up.locked (pageNo .tck 0) = false ∧ up.valueBad .tck 0 0x44 500000 = false ∧ up.valueBad .tck 0 0x44 0xFFFFFFFF = true) ∧
    (LandsWrite up .pf (pageAddr .tim 0 0x88) .tim 0 0x88 ∧ LandsWrite up .pf (pageAddr .tim 0 0x88 + 4) .tim 0 0x8C ∧
      pageAddr .tim 0 0x88 % 8 = 0 ∧ (regFor .pf .tim 0x88).map (plainReg .tim 0x88) = some true ∧
      (regFor .pf .tim 0x8C).map (plainReg .tim 0x8C) = some true ∧ up.locked (pageNo .tim 0) = false ∧
      up.valueBad .tim 0 0x88 1 = false ∧ (up.setRaw .tim 0 0x88 0 1).valueBad .tim 0 0x8C 1 = false) ∧
    (LandsWrite lockedTck .pf (pageAddr .tck 0 0x44) .tck 0 0x44 ∧ lockedTck.locked (pageNo .tck 0) = true) ∧
    (LandsWrite up .pf (pageAddr .tck 0 0x4C) .tck 0 0x4C ∧
      (regFor .pf .tck 0x4C).map (fun d => (d.acc, d.wmask, d.w1c)) = some (.ro, 0, 0)) ∧
    (up.pageServed .spi (pathPage .spi 0x10) = true ∧ mayWrite .spi (pathPage .spi 0x10) 0x10 = false ∧
      up.pageServed .trestle (pathPage .trestle 0x10) = true ∧ mayWrite .trestle (pathPage .trestle 0x10) 0x10 = false) ∧
    (let a := 31 * 4096; up.pageServed .pf (pathPage .pf a) = true ∧ inWindow (pathPage .pf a) 0 = false ∧
      pageAt (pathPage .pf a) = none ∧ a < 2 ^ 26) ∧
    (let a := 9 * 4096; up.pageServed (.vf 255) (pathPage (.vf 255) a) = true ∧ inWindow (pathPage (.vf 255) a) 0 = false ∧
      pageAt (pathPage (.vf 255) a) = none) ∧
    (let a := 0x68 * 4096 + 0x7FC; up.pageServed .pf (pathPage .pf a) = true ∧ mayWrite .pf (pathPage .pf a) (a % 4096) = true ∧
      inWindow (pathPage .pf a) (a % 4096) = true) ∧
    (let a := pageAddr .seq 511 0x58; asleep.pageServed .pf (pathPage .pf a) = true ∧ (pageAt (pathPage .pf a)).isSome = true ∧
      inWindow (pathPage .pf a) (a % 4096) = false ∧ clusterPage (pathPage .pf a) = true ∧ asleep.dozing = true) ∧
    State.reset.pageServed .pf (pathPage .pf 0) = false := by
  dsimp only [LandsWrite, Lands]; and_intros <;> decide +kernel

theorem witness_RegisterReadsAndHeaders :
    (∀ p ∈ [Path.pf, .mgmt, .debug], Lands up p (pageAddr .seq 511 0x58) .seq 511 0x58) ∧
    (regFor .pf .seq 0x58).map (fun d => d.acc) = some .rc ∧ pathClears .pf = true ∧ pathClears .debug = false ∧
    (pageAddr .seq 511 0x58 % 8 = 0 ∧ Lands up .pf (pageAddr .seq 511 0x58 + 4) .seq 511 0x5C ∧
      (regFor .pf .seq 0x5C).map (fun d => d.acc) = some .rc) ∧
    (pageAddr .tim 0 0x88 % 8 = 0 ∧ Lands up .pf (pageAddr .tim 0 0x88) .tim 0 0x88 ∧
      Lands up .pf (pageAddr .tim 0 0x88 + 4) .tim 0 0x8C ∧
      (regFor .pf .tim 0x88).map (fun d => decide (d.acc = .rc)) = some false ∧
      (regFor .pf .tim 0x8C).map (fun d => decide (d.acc = .rc)) = some false) ∧
    (Lands up .pf (pageAddr .seq 511 hErrCnt) .seq 511 hErrCnt ∧ Lands up .pf (pageAddr .seq 511 hErrInfo) .seq 511 hErrInfo ∧
      hErrInfo < 0x40 ∧ hErrInfo ≠ hErrCnt) ∧
    (State.reset.pageServed .pf (pathPage .pf 0) = false ∧ inWindow (pathPage .pf (31 * 4096)) 0 = false ∧
      pageAt (pathPage .pf (31 * 4096)) = none) ∧
    (let a := pageAddr .seq 511 0x58; asleep.pageServed .pf (pathPage .pf a) = true ∧ (pageAt (pathPage .pf a)).isSome = true ∧
      inWindow (pathPage .pf a) (a % 4096) = false ∧ clusterPage (pathPage .pf a) = true ∧ asleep.dozing = true) ∧
    (let a := pageAddr .tck 0 0x44;
      (∀ off ∈ [hErrInfo, hCtl, hLock], LandsWrite up .pf (headAddr a off) .tck 0 off) ∧ up.locked (pageNo .tck 0) = false ∧
        mfind up.hidden (regKey (pageNo .tck 0) hCtl 0) = none ∧ (up.hidden.map Prod.fst).Nodup ∧
        LandsWrite lockedTck .pf (headAddr a hCtl) .tck 0 hCtl ∧ lockedTck.locked (pageNo .tck 0) = true) ∧
    (bit ((up.setHdr (pageNo .seq 0) hCtl 1).hdr (pageNo .seq 0) hCtl) 0 = true ∧ R.seqLateAt.page = .seq) := by
  dsimp only [LandsWrite, Lands]; and_intros <;> decide +kernel

theorem witness_SpanRegisters :
    (∀ s ∈ [up, upRun, imaged], ∀ r ∈ [R.spnRole, R.spnDims, R.spnPos, R.tckCtl, R.spnCtl], Writes s .pf r ∧ Unlocked s r) ∧
    (roleOk 3 false = false ∧ roleOk 16 false = true ∧ roleOk 15 true = false ∧ roleOk 13 true = true ∧ upRun.tick.state = .run) ∧
    (up.image.loaded = false ∧ dimsOk 0x81010 = true ∧ dimsOk 0x10100 = false ∧ imaged.image.loaded = true) ∧
    up.valueBad .tck 0 0x40 (w32 (setBits (up.rd R.tckCtl) 8 8 1)).toNat = false ∧ up.rd R.tckCtl < 2 ^ 24 ∧ 1 ≤ 15 ∧ 15 ≤ 15 := by
  dsimp only [Writes, WritesAt, MayPut, Unlocked]; and_intros <;> decide +kernel

theorem witness_TickAndProgramCommands :
    (Writes imaged .pf R.tckCmd ∧ imaged.startBad = false ∧ imaged.tick.joined = false ∧ imaged.seekFloor.mayStart = true ∧
      imaged.tick.selfFailed = false) ∧
    (let s := { imaged with power := { imaged.power with state := .doze } };
      Writes s .pf R.tckCmd ∧ s.startBad = false ∧ s.seekFloor.mayStart = false) ∧
    (Writes up .pf R.tckCmd ∧ up.startBad = true ∧ up.tick.keystone = false) ∧
    (Writes (keystone .run) .pf R.tckCmd ∧ (keystone .run).tick.keystone = true ∧ (keystone .run).image.loaded = true ∧
      (keystone .run).running = true ∧ (keystone .run).tick.state ≠ .hold) ∧
    (Writes (keystone .hold) .pf R.tckCmd ∧ (keystone .hold).tick.state = .hold ∧ (keystone .hold).tick.keystone = true ∧
      (keystone .hold).image.loaded = true ∧ (keystone .hold).running = false) ∧
    (Writes upRun .pf R.spnProgAdv ∧ Writes upRun .pf R.spnCtxRestart ∧ upRun.deferring = true) ∧
    (Writes up .pf R.spnProgAdv ∧ Writes up .pf R.spnCtxRestart ∧ up.deferring = false ∧ up.tick.killed = [] ∧
      (up.fn 255).zeroing = false) := by
  dsimp only [Writes, WritesAt, MayPut]; and_intros <;> decide +kernel

/-- Cluster 511 with groups 0 and 63; DBG_SEL is 63. -/
def dbg (x y : Group) : State :=
  ({ up with clusters := [(511, { Cluster.reset with groups := [(0, y), (63, x)] })] }).wr R.tgpDbgSel 63 511

theorem witness_DebugAndHandleCommands :
    (let s := dbg grp grp;
      s.dbgSlot 511 = 63 ∧ s.group 511 63 = some grp ∧ s.otherHalted 511 63 = false ∧ s.locked (pageNo .tgp 511) = false ∧
      (∀ p ∈ [Path.pf, .debug, .mgmt], Writes s p R.tgpDbgCmd 511 ∧ Writes s p R.tgpDbgRegData 511) ∧ grp.halted = false ∧
      grp.stepping = false) ∧
    (up.dbgSlot 0 = 0 ∧ up.group 0 0 = none ∧ up.otherHalted 0 0 = false ∧ Writes up .pf R.tgpDbgCmd 0 ∧
      up.locked (pageNo .tgp 0) = false ∧ Writes up .pf R.tgpDbgRegData 0) ∧
    (let x := { grp with halted := true };
      (dbg x grp).group 511 63 = some x ∧ x.halted = true ∧ (dbg x grp).otherHalted 511 63 = false ∧
      Writes (dbg x grp) .pf R.tgpDbgRegData 511 ∧ Writes (dbg grp x) .pf R.tgpDbgCmd 511 ∧
      (dbg grp x).otherHalted 511 63 = true) ∧
    (let x := { grp with stepping := true, stepped := true };
      (dbg x grp).group 511 63 = some x ∧ (dbg x grp).otherHalted 511 63 = false ∧ x.stepping = true ∧ x.stepped = true ∧ x.remote = 0) ∧
    (Writes up .pf R.hdlCmd 511 ∧ up.entryReason 511 0 0#128 = 0 ∧ up.deferring = false ∧ (up.cluster 511).handlePend = [] ∧
      up.fld R.hdlIdx 9 0 511 = 0) ∧
    (Writes upRun .pf R.hdlCmd 511 ∧ upRun.entryReason 511 0 0#128 = 0 ∧ upRun.deferring = true) ∧
    (let s := up.wr R.hdlEnt 7 511; Writes s .pf R.hdlCmd 511 ∧ s.entryReason 511 0 7#128 ≠ 0 ∧ s.rd R.hdlEnt 511 = 7) ∧
    (up.entryBad 511 0 = false ∧ CleanEntry up 511 0) ∧
    (let s := { up with ecc := [(hEccKey 511 0 1, 2)] }; Writes s .pf R.hdlCmd 511 ∧ s.entryBad 511 0 = true) := by
  dsimp only [Writes, WritesAt, MayPut, CleanEntry]; and_intros <;> decide +kernel

/-- Port 15 in a state, enabled or not, its start time passed. -/
def port15 (s : State) (x : PortState) (ctl : Nat) : State :=
  ({ s with ports := [(15, { Port.reset with state := x, started := true })] }).wr R.prtCtl ctl 15

theorem witness_PortControls :
    (∀ s ∈ [port15 up .quiet 0, port15 up .up 1, port15 upRun .up 3], ∀ r ∈ [R.prtCtl, R.prtPrbsCtl, R.prtSpcCtl],
      Writes s .pf r 15 ∧ Unlocked s r 15) ∧
    ((port15 up .quiet 0).testRefused 15 = false ∧ (port15 upRun .up 3).testRefused 15 = true ∧
      bit ((port15 upRun .up 3).rd R.prtCtl 15) 2 = false ∧ bit ((port15 up .up 1).rd R.prtCtl 15) 1 = false ∧
      bit ((port15 up .up 1).rd R.prtCtl 15) 0 = true) ∧
    (let s := port15 up .quiet 0;
      bit (s.rd R.prtCtl 15) 0 = false ∧ (s.port 15).state = .quiet ∧ (s.port 15).started = true ∧
      s.dimOne 15 = false ∧ (s.port 15).ethernet = false ∧ s.island.firmware = true ∧ s.lit 15 = true) ∧
    upRun.deferring = true ∧ upHold.tick.state = .hold ∧ Writes upHold .pf R.prtSpcCtl 15 := by
  dsimp only [Writes, WritesAt, MayPut, Unlocked]; and_intros <;> decide +kernel

/-- A keeper in IDLE with its own record store as chain entry 7, in a group of two. -/
def keeper : State :=
  (({ up with image := { Image.reset with groups := [⟨63, 1, [1, 2], [⟨0, 0, 0, 64⟩], []⟩] } }).wr R.wldChainSel 7).wr
    R.wldChainCfg (2 * 2 ^ 16 + 3 * 2 ^ 20) 0 7

theorem witness_LoadRegisters :
    (∀ r ∈ [R.fabCtl, R.fabRevokeCnt, R.wldCmd, R.wldRefill], Writes up .pf r ∧ Unlocked up r ∧ Writes keeper .pf r) ∧
    ((8 : Fin 16).val ≤ 8 ∧ 8 < (9 : Fin 16).val ∧ (0x100#32).toNat % 512 ≤ 256 ∧ 256 < (0x101#32).toNat % 512) ∧
    (up.mayLoad = true ∧ up.chainRole 0 ≠ 1 ∧ AtRest up ∧ Writes upRun .pf R.wldCmd ∧ upRun.mayLoad = false) ∧
    (let s := up.wr R.wldChainCfg (2 ^ 16); Writes s .pf R.wldCmd ∧ s.mayLoad = true ∧ s.chainRole 0 = 1) ∧
    ((keeper.refillOf (63 + 2 * 2 ^ 17)).isSome = true ∧ keeper.chainVia 7 ≠ none ∧ up.refillOf 0 = none) := by
  dsimp only [Writes, WritesAt, MayPut, Unlocked, AtRest, PortsFree]; and_intros <;> decide +kernel

/-- Queue pair 63 of the PF and of VF 255 in a state, with four entries' room. -/
def withQueue (fn : Fin 256) (x : Queue) : State :=
  { up with host := { up.host with queues := [(fn.val * 64 + 63, x)] } }
def running4 : Queue := { Queue.reset with state := .run, size := 4, ringSize := 4, base := 4096, ringBase := 8192 }

theorem witness_QueueRegisters :
    (QueueServed up 0 15 ∧ QueueServed up 255 3 ∧ up.locked (pageNo .hsq 15) = false ∧ up.flag R.hsqQctl 0 15 = false ∧
      (up.wr R.hsqQctl 1 15).flag R.hsqQctl 0 15 = true) ∧
    (let s := { up with host := { up.host with queues := [(15, running4)] } };
      QueueServed s 0 15 ∧ s.fnUp 0 = true ∧ (s.queue 0 15).state = .run ∧ (0xF#32).toNat % 65536 < 2 ^ (s.queue 0 15).size ∧
      (s.queue 0 15).head ≠ 15 ∧ (s.queue 0 15).fetching = false ∧ (s.queue 0 15).fetched = none ∧ (s.queue 0 15).job = none ∧
      (s.queue 0 15).waiting = [] ∧ s.inTick = false ∧ s.host.doorbells = [] ∧ s.host.reads.length < 1024 ∧
      2 ^ (s.queue 0 15).size ≤ (0x10#32).toNat % 65536) ∧
    (let s := { upRun with host := { up.host with queues := [(15, running4)] } };
      QueueServed s 0 15 ∧ s.fnUp 0 = true ∧ (s.queue 0 15).state ≠ .off ∧ (3#32).toNat % 65536 < 2 ^ (s.queue 0 15).size ∧
      s.inTick = true) ∧
    (up.fnUp 0 = true ∧ (up.queue 0 15).state = .off ∧ up.queueGood 15 = false) ∧
    (let s := { up with host := { up.host with queues := [(15, { running4 with state := .stopped })] } };
      QueueServed s 0 15 ∧ s.fnUp 0 = true ∧ (s.queue 0 15).state = .stopped) ∧
    (let s := up.setSlot 255 4095 ⟨65535, 2, []⟩;
      s.pageServed (fnPath 255) (pageNo .hst 255) = true ∧ s.fnUp 255 = true ∧ 2 ≤ (s.slotOf 255 4095).state ∧
      (s.slotOf 255 4095).generation = (0xFFFF0FFF#32).toNat / 65536 ∧ (0xFFFF0FFF#32).toNat % 4096 = 4095) ∧
    (up.slotOf 0 0).state < 2 := by
  dsimp only [QueueServed]; and_intros <;> decide +kernel

/-- With 1,024 reads outstanding an entry's read waits. -/
theorem witness_QueueRegisters_full :
    let s := { up with host := { up.host with queues := [(15, running4)], reads := List.replicate 1024 (0, 0, 0, .entry 0 15) } };
    QueueServed s 0 15 ∧ s.fnUp 0 = true ∧ (s.queue 0 15).state = .run ∧ (3#32).toNat % 65536 < 2 ^ (s.queue 0 15).size ∧
      s.inTick = false ∧ s.host.doorbells = [] ∧ 1024 ≤ s.host.reads.length := by
  dsimp only [QueueServed]; and_intros <;> decide +kernel

/-- The configuration of a queue that no BAR of the device holds is good: whichever addresses the BARs have but these two. -/
theorem witness_QueueRegisters_enable (h : ∀ k a n, Config.inDeviceBars k a n = false) :
    (((up.wr R.hsqCmdqBaseLo 4096 15).wr R.hsqCmdqSize 4 15).wr R.hsqRingCfg 16 15).queueGood 15 = true := by
  simp only [State.queueGood, State.inBars, h]; decide +kernel

theorem witness_ServiceRegisters :
    (∀ r ∈ [R.xltInvCtl, R.pubRingDb, R.ldgHdb, R.ldgCmd, R.timCmd, R.timSqNote], Writes up .pf r) ∧
    (up.host.inval = none ∧ (2 : Fin 4).val < 3 ∧ up.svc.pubWaiting = [] ∧ up.svc.blockDue = false ∧ up.timeMaySet = true ∧
      upRun.timeMaySet = false ∧ Writes upRun .pf R.timCmd) ∧
    (let s := ({ up with svc := { Service.reset with blockDue := true, ledger := [⟨0, 1, 4, 1, 0xFB, 0, 0, 0, []⟩] } }).wr R.ldgHsize 1;
      Writes s .pf R.ldgHdb ∧ s.svc.blockDue = true ∧ s.svc.ledger ≠ [] ∧
      (s.modSvc (fun x => { x with ledgerHead := (0#32).toNat % 65536 })).ledgerRingFull = false) ∧
    (let s := { up with host := { up.host with inval := some (2, 0, 0, 0) } };
      Writes s .pf R.xltInvCtl ∧ s.host.inval ≠ none ∧ (3 : Fin 4).val = 3) := by
  dsimp only [Writes, WritesAt, MayPut]; and_intros <;> decide +kernel

theorem witness_PowerRegisters :
    (Writes up .pf R.pwrCmd ∧ up.mayDoze = false ∧ Writes imaged .pf R.pwrCmd ∧ imaged.mayDoze = true ∧ imaged.tick.state ≠ .run ∧
      Writes (keystone .run) .pf R.pwrCmd ∧ (keystone .run).mayDoze = true ∧ (keystone .run).tick.state = .run) ∧
    (let s := ({ up with power := { up.power with state := .doze } }).wr R.pwrWakeEn 1;
      Writes s .pf R.pwrCmd ∧ s.flag R.pwrWakeEn 0 = true ∧ s.power.state = .doze) ∧
    (Writes upHold .mgmt R.pwrDozeNote ∧ Writes upHold .cores R.pwrDozeNote ∧ Writes upHold .pf R.pwrDozeNote ∧
      upHold.power.state = .active ∧ upHold.tick.state = .hold) := by
  dsimp only [Writes, WritesAt, MayPut]; and_intros <;> decide +kernel

theorem witness_SafetyAndBootRegisters :
    (Writes up .cores R.safKick ∧ up.island.firmware = true ∧ Writes up .pf R.safKick ∧ Writes up .pf R.safSts ∧
      Writes up .pf R.btfCmd ∧ up.flash.op = none ∧ up.inBooted (up.rd R.btfAddr) = true ∧
      (up.wr R.btfAddr 0x800000).inBooted ((up.wr R.btfAddr 0x800000).rd R.btfAddr) = false ∧
      Writes (up.wr R.btfAddr 0x800000) .pf R.btfCmd ∧ Writes up .pf R.errRoute 0 28 ∧ Unlocked up R.errRoute ∧ Writes up .pf R.errAck) ∧
    ((0x107FF#32).toNat % 65536 ≤ 2047 ∧ (1#32).toNat % 65536 = 1) ∧
    (let s := ((up.setHdr (pageNo .seq 0) hIrqEn 1).setHdr (pageNo .seq 0) hIrqSts 1).wr R.errRoute 0x10000 0 0 (pageCode .seq);
      let u := { s with host := { s.host with fns := [(0, { Function.reset with ready := true, unmasked := [0] })] } };
      pageCode .seq < 29 ∧ Writes u .pf R.errAck ∧ u.routeLine (pageCode .seq) = true ∧ (u.fn 0).flr = false ∧
      u.host.stalled = false ∧ bit (u.rawAt .err 0 (0x100 + 4 * pageCode .seq) 0) 16 = true ∧
      bits (u.rawAt .err 0 (0x100 + 4 * pageCode .seq) 0) 10 0 ∈ (u.fn 0).unmasked ∧ up.routeLine 28 = false) := by
  dsimp only [Writes, WritesAt, MayPut, Unlocked]; and_intros <;> decide +kernel

/-! ### Ports and links -/

/-- The booted device with port 3 in a state and enabled, `f` applied to it. -/
def linked (x : PortState) (f : Port → Port := id) : State :=
  ({ up with ports := [(3, f { Port.reset with state := x })] }).wr R.prtCtl 1 3

/-- An optical engine's state on port 11, nothing holding it. -/
def engine (x : OptState) : State :=
  { up with ports := [(11, { Port.reset with state := .detect, opt := x })], island := { up.island with lines := [] } }

theorem witness_PortStates :
    (let s := (linked .quiet).wr R.spnDims 0x20202;
      (s.port 3).state = .quiet ∧ s.flag R.prtCtl 0 3 = true ∧ s.dimOne 3 = false ∧ (s.port 3).ethernet = false ∧
      s.island.firmware = true ∧ s.lit 3 = true) ∧
    (∀ x ∈ [PortState.backoff, .retrain],
      let s := (linked x (fun y => { y with started := true })).wr R.spnDims 0x20202;
      (s.port 3).state = x ∧ s.portMayRun 3 = true ∧ s.lit 3 = true ∧ (linked x).portMayRun 3 = false) ∧
    (up.wr R.prtCtl 0 3).flag R.prtCtl 0 3 = false ∧ (∀ x ∈ [PortState.detect, .train, .align, .measure, .up],
      ((linked x).port 3).state = x ∧ ((linked x).port 3).ethernet = false) ∧
    (let s := linked .retrain (fun y => { y with fecLock := true });
      (s.port 3).state = .retrain ∧ (s.port 3).fecLock = true ∧ s.within 100000000 (s.port 3).secure.starts = [] ∧ CanMeet s 3) ∧
    (let s := linked .measure (fun y => { y with secure := { y.secure with starts := [0, 0, 0, 0] } });
      (s.port 3).state = .measure ∧ (s.within 100000000 (s.port 3).secure.starts).length = 4) := by
  dsimp only [CanMeet]; decide +kernel

/-- Every lane but the last has named its partner. -/
def seen3 : State :=
  linked .detect (fun y => { y with lanes := (List.range 11).map (fun k => (k, { Lane.reset with seen := true })) })

theorem witness_Training :
    (let w := cwMake 11 4 5 0 0 0 false false;
      bits w.toNat 18 8 = 5 ∧ cwGood w = true ∧ cwGood 0#64 = false ∧
      (∀ x ∈ [PortState.quiet, .detect, .train, .align], ((linked x).port 3).state = x ∧ (linked x).hears 3 = true) ∧
      ((linked .train).wr R.prtCtl 0x15 3).hears 3 = false ∧
      (let s := linked .detect (fun y => { y with expected := some 6 });
        let u := { s with image := { Image.reset with loaded := true } };
        (u.port 3).state = .detect ∧ u.hears 3 = true ∧ u.image.loaded = true ∧ (5 : Nat) ≠ 0x7FF ∧ (u.port 3).expected = some 6)) ∧
    ((seen3.port 3).expected = none ∧ seen3.image.loaded = false ∧ (seen3.port 3).state = .detect ∧
      (∀ k, k < 12 → k ≠ (11 : Fin 12).val → ((seen3.port 3).lane k).seen = true)) ∧
    (let s := linked .train (fun y => { y with lanes := [(11, { Lane.reset with request := 1, tap := 2 })] });
      ((s.port 3).lane 11).request ≠ 0 ∧ ((s.port 3).lane 0).request = 0 ∧
        bits (cwMake 11 4 5 0 0 1 false false).toNat 27 25 ≠ 0) := by decide +kernel

theorem witness_AdaptationAndGuard :
    (let s := linked .up (fun y => { y with uncWindow := 65536 }); s.fld R.prtUncThr 15 0 3 < (s.port 3).uncWindow) ∧
      ((linked .up).port 3).uncWindow ≤ (linked .up).fld R.prtUncThr 15 0 3 ∧ ((linked .up).port 3).frozen = false ∧
      ((linked .up).port 3).frozenFor = 0 ∧ ((linked .up).port 3).state = .up ∧ (linked .up).dozing = false ∧
      ((linked .train).port 3).state = .train ∧ ((linked .train).port 3).frozen = false ∧ ((linked .quiet).port 3).state = .quiet ∧
      ((linked .up (fun y => { y with frozenFor := 3 })).port 3).frozenFor ≠ 0 ∧
      ((linked .up (fun y => { y with frozen := true })).port 3).frozen = true ∧
      (List.range 12).any (fun k => isStep (((linked .up).port 3).lane k) ([8].getD k 0)) = true ∧
      (List.range 12).any (fun k => isStep (((linked .up).port 3).lane k) ([7].getD k 0)) = false := by decide +kernel

/-- Ports 4 to 11 of an AKL512-O have an engine; the witnesses for them ask that the device is one. -/
theorem witness_OpticalInterlock :
    (Config.variantO = true → (engine .off).optical 11 = true ∧ (engine .full).optical 11 = true) ∧ (engine .off).optical 12 = false ∧
      (engine .off).optical 3 = false ∧
      (let s := engine .off; s.islandLine 11 = false ∧ s.pins.optInhibit = false ∧ (s.port 11).optHot = false ∧
        s.flag R.prtCtl 1 11 = false ∧ tripKey 0x6B 11 ∉ s.island.tripped ∧ tripKey 0x6A 11 ∉ s.island.tripped) ∧
      (∀ x ∈ [OptState.off, .beacon, .raise, .full], ((engine x).port 11).opt = x ∧ ((engine x).port 11).state = .detect) ∧
      (let s := { up with ports := [(11, { Port.reset with opt := .raise })] }; (s.port 11).opt = .raise ∧ (s.port 11).state ≠ .detect) ∧
      (let s := { engine .off with pins := { (engine .off).pins with optInhibit := true } }; s.pins.optInhibit = true) := by
  refine ⟨fun h => ?_, ?_, ?_, ?_, by decide +kernel, by decide +kernel, by decide +kernel⟩
  · simp [State.optical, h]
  · simp [State.optical]
  · simp [State.optical]
  · and_intros <;> first | decide +kernel | (simp only [State.islandLine]; have : (engine .off).island.lines = [] := by decide +kernel
                                             simp [this])

/-- An Ethernet-mode port 15, up or not, with its checker on lane 11 set up. -/
def eth (x : Bool) : State :=
  (({ up with ports := [(15, { Port.reset with ethernet := true, ethUp := x, lanes := [(11, { Lane.reset with prbsLock := true })] })] }).wr
    R.prtEthCtl (9216 * 2 ^ 16) 15).wr R.prtPrbsCtl (4 + 2 ^ 15) 15

/-- A block of four codewords whose first carries the frame, with errors at the given symbols of its stream. -/
def block4 (l : List (Fin 2176)) : CwBlock := ⟨0, l, [0]⟩
/-- The symbols of codeword 0 of a block, one in four of the interleaved stream (R208). -/
def ofFirst (n : Nat) : List (Fin 2176) := (List.range n).map (fun k => Fin.ofNat 2176 (4 * k))

/-- The address that every Ethernet port takes. -/
def broadcast : Nat := 2 ^ 48 - 1

theorem witness_EthernetAndTest :
    (let f : EthFrame := ⟨64, true, broadcast, [], 7, .arpRequest 0⟩;
      ((eth true).port 15).ethernet = true ∧ ((eth true).port 15).ethUp = true ∧ (eth true).ethBad 15 f = false ∧
      (eth true).ethBad 15 { f with len := 63 } = true ∧ f.body = .arpRequest ((eth true).inForce R.ingIp4 0 0 (15 - 14)) ∧
      (eth true).ethBad 15 { f with body := .arpRequest 1 } = false ∧ (1 : Nat) ≠ (eth true).inForce R.ingIp4 0 0 (15 - 14) ∧
      (eth true).ethBad 15 { f with body := .neighbourSolicit 0 } = false ∧ (eth true).ownIp6 15 = 0 ∧
      (eth true).ethBad 15 { f with body := .neighbourSolicit 1 } = false ∧
      (eth true).ethBad 15 { f with body := .udp 1 5000 0 false } = false ∧ (eth true).tilePort 15 1 5000 0 false = false ∧
      (eth true).ethBad 15 { f with body := .udp 1 319 0 false } = false) ∧
    ((eth false).port 15).ethernet = true ∧ ((eth false).port 15).ethUp = false ∧ (up.port 15).ethernet = false ∧
    ((eth true).wr R.prtCtl 4 15).checkerOn 15 11 = true ∧ (eth true).checkerOn 15 11 = false ∧
    ((eth true).wr R.prtCtl 4 15).prbsLocked 15 11 = true ∧ (eth true).prbsLocked 15 11 = false ∧
    (linked .up).portUp 3 = true ∧ Whole (linked .up) 3 [block4 (ofFirst 15)] ∧ ¬Whole (linked .up) 3 [block4 (ofFirst 16)] ∧
    CanSend (linked .up) 3 8 ∧ (linked .quiet).portUp 3 = false := by dsimp only [Whole, CanSend]; decide +kernel

theorem witness_LinkReceipt :
    (let c : ClassSeq := { ClassSeq.reset with top := 200, w0 := 1#64, started := true };
      (seqAccept c 201).isSome = true ∧ (seqAccept c 73).isSome = true ∧ seqAccept c 72 = none ∧ seqAccept c 200 = none) ∧
    ((linked .quiet).hears 3 = true ∧ (linked .quiet).portUp 3 = false ∧ ((linked .up).wr R.prtCtl 0x15 3).hears 3 = false) ∧
    (let s := linked .up; s.portUp 3 = true ∧ [block4 (ofFirst 16)].any spoils = true ∧ Whole s 3 [block4 (ofFirst 15)] ∧
      (s.port 3).secure.rxKp = false ∧ (s.port 3).secure.oldKey = none ∧ (s.port 3).secure.rekeying = false ∧
      (seqAccept (s.classSeq 3 2) 1).isSome = true ∧ (s.classSeq 3 2).started = false ∧ retried 2 = true ∧ CanSend s 3 8) ∧
    (let s := linked .up (fun y => { y with seqs := [(2, { ClassSeq.reset with top := 5, w0 := 1#64, started := true })] });
      s.portUp 3 = true ∧ seqAccept (s.classSeq 3 2) 5 = none) ∧
    (let s := linked .up (fun y => { y with secure := { y.secure with
        oldKey := some [], oldSeqs := [(2, { ClassSeq.reset with top := 5, w0 := 1#64, started := true })] } });
      s.portUp 3 = true ∧ (s.port 3).secure.oldKey ≠ none ∧
      seqAccept (mget ClassSeq.reset (s.port 3).secure.oldSeqs 2) 5 = none ∧
      (seqAccept (mget ClassSeq.reset (s.port 3).secure.oldSeqs 2) 6).isSome = true) ∧
    (let s := linked .up (fun y => { y with secure := { y.secure with rekeying := true } });
      s.portUp 3 = true ∧ (s.port 3).secure.oldKey = none ∧ (s.port 3).secure.rekeying = true) := by
  dsimp only [Whole, CanSend]; decide +kernel

/-- A good frame's arrival with a class sequence number. -/
def good (n : Nat) : Arrival := ⟨n, false, [block4 []], true⟩

/-- Port 3 up, with frame 5 of class 2 unacknowledged. -/
def unacked5 : State :=
  linked .up (fun y => { y with seqs := [(2, { ClassSeq.reset with unacked := [⟨false, 5, [], .probe []⟩] })] })

theorem witness_LinkFrames :
    (let s := linked .up; (s.receive 3 8 (good 1)).2 = .good ∧ (s.port 3).queue = [] ∧ (s.port 3).seqs = [] ∧ AtRest s ∧
      retried 7 = true ∧ retried 5 = false ∧ (s.receive 3 8 { good 1 with tagOk := false }).2 ≠ .good ∧ s.portUp 3 = true ∧
      CanSend s 3 8) ∧
    (unacked5.portUp 3 = true ∧ unacked5.lit 3 = true ∧ (unacked5.port 3).lpi = false ∧
      (unacked5.classSeq 3 2).unacked.find? (fun f => f.seq == 5) = some ⟨false, 5, [], .probe []⟩ ∧
      (unacked5.classSeq 3 2).unacked.find? (fun f => f.seq == 6) = none) := by
  dsimp only [AtRest, PortsFree, CanSend]; decide +kernel

/-- No class of a port without sequence state has a waiting frame. -/
theorem witness_LinkFrames_waiting (c : Nat) : ((linked .up).classSeq 3 c).waiting = [] := by
  have h : ((linked .up).port 3).seqs = [] := by decide +kernel
  simp [State.classSeq, h, mget, mfind, ClassSeq.reset]

/-- Two HELLO messages of one certificate chain. -/
def ours : Hello := ⟨1, 1, 0x7FF, 3, [], [], []⟩
def theirs : Hello := ⟨1, 2, 0x7FF, 4, [], [], []⟩

/-- A port in an exchange: our HELLO sent, and with `t` theirs received. -/
def exchange (x : PortState) (t : Option Hello) (accepted rekeying : Bool) : State :=
  linked x (fun y => { y with secure :=
    { Secure.reset with hello := some ours, theirs := t, accepted := accepted, rekeying := rekeying } })

/-- A HELLO is good where its chain verifies; one of another version never is. -/
theorem witness_IdentityExchange :
    (Config.chainGood Config.rootDigest [] = true → (exchange .secure none false false).helloGood 3 theirs = true ∧
      (exchange .up none false true).helloGood 3 theirs = true ∧ (linked .up).helloGood 3 theirs = true) ∧
    (exchange .secure none false false).helloGood 3 { theirs with version := 2 } = false ∧
    (∀ x ∈ [PortState.secure, .retrain], let s := exchange x (some theirs) true false;
      (s.port 3).state = x ∧ (s.port 3).secure.hello = some ours ∧ (s.port 3).secure.theirs = some theirs ∧
      (s.port 3).secure.accepted = true ∧ Whole s 3 (good 1).codewords ∧ ¬Whole s 3 [block4 (ofFirst 16)] ∧ CanMeet s 3 ∧
      (linked x).hears 3 = true ∧ ((linked x).port 3).secure.hello = none ∧ ((linked x).port 3).secure.accepted = false) ∧
    (∀ b ∈ [false, true], let s := exchange .up none b true;
      s.portUp 3 = true ∧ (s.receive 3 9 (good 1)).2 = .good ∧ (good 1).kp = (s.port 3).secure.rxKp ∧ (s.port 3).state = .up ∧
      (s.port 3).secure.rekeying = true ∧ (s.port 3).secure.hello = some ours ∧ (s.port 3).secure.accepted = b ∧ (s.port 3).lpi = false) ∧
    (((linked .fenced).port 3).state = .fenced ∧ ((linked .up).port 3).state ≠ .fenced) ∧
    (let s := linked .up; s.portUp 3 = true ∧ s.lit 3 = true ∧ (s.receive 3 9 (good 1)).2 = .good ∧
      (good 1).kp = (s.port 3).secure.rxKp ∧ (s.port 3).secure.rekeying = false ∧ (s.port 3).lpi = false ∧
      (s.within 100000000 (s.port 3).secure.starts).length < 4) := by
  refine ⟨fun h => ⟨?_, ?_, ?_⟩, ?_, ?_⟩
  · simp only [State.helloGood, theirs, h]; decide +kernel
  · simp only [State.helloGood, theirs, h]; decide +kernel
  · simp only [State.helloGood, theirs, h]; decide +kernel
  · simp [State.helloGood]
  · dsimp only [Whole, CanMeet]; decide +kernel

/-- The exchange's own nothing waits. -/
theorem witness_IdentityExchange_rest : AtRest (exchange .secure (some theirs) true false) := by
  dsimp only [AtRest, PortsFree]; decide +kernel

/-! ### Requests and responses -/

/-- The map of a placement that has device 5 at torus number 0. -/
def placed : Fabric := { Fabric.reset with detours := [(0, { Detour.reset with map := [(5, 0x8000)] })] }

/-- Device 5, at torus number 0, with port 3 up, tag 1 enabled span-wide and on the device, and handle 1 of cluster 511. -/
def served : State :=
  force (force (({ (linked .up) with
    image := { Image.reset with loaded := true, self := 5 }
    clusters := [(511, thrCluster grp)]
    fabric := placed
    tick := { Tick.reset with state := .run, phase := .body, count := 5, keystone := true }
    written := (List.range 4).map (fun n => spAddr 511 4096 + n) }).wr R.spnPos 0) R.fabTenSpan 3) R.spnTenEn 2

/-- A header of tag 1 from torus number 7, and an access of handle 1's first word. -/
def head1 : RHead := ⟨1, 0, 7, 0, 0, 1⟩
def word1 (op : Nat) : Access := ⟨5 * 2 ^ 45 + 511 * 2 ^ 33 + 4096, op, 0, 4, 0, 0, 0, 0, 0⟩

theorem witness_RequestService :
    (∀ cls ∈ [2, 5], ForHere served 3 cls (good 1) head1) ∧
    (∀ op, op < 3 → let b := word1 op
      let v := served.taken 3 2 (good 1) ⟨.req, head1, b, noResp, [1#8, 0#8, 0#8, 0#8]⟩;
      MemoryAccess v head1 b ∧
      v.checked head1 b = .ok ((List.range 4).map (fun n => spAddr 511 4096 + n)) ((List.range 4).map (fun n => spAddr 511 4096 + n)) true ∧
      (∀ x ∈ (List.range 4).map (fun n => spAddr 511 4096 + n), v.eccOf x = 0 ∧ x ∈ v.written) ∧
      v.decider 511 4096 4 1 (b.op != 1) (b.op != 0) = some 1 ∧ CleanEntry v 511 1) ∧
    (let b := word1 1
      let w := served.taken 3 5 (good 1) ⟨.toss, head1, b, noResp, [1#8, 0#8, 0#8, 0#8]⟩;
      MemoryAccess w head1 b ∧ w.checked head1 b =
        .ok ((List.range 4).map (fun n => spAddr 511 4096 + n)) ((List.range 4).map (fun n => spAddr 511 4096 + n)) true ∧
      CleanEntry w 511 1) ∧
    (let b : Access := { word1 0 with addr := 5 * 2 ^ 45 + 511 * 2 ^ 33 + 8192 };
      MemoryAccess (served.taken 3 2 (good 1) ⟨.req, head1, b, noResp, []⟩) head1 b ∧
      (served.taken 3 2 (good 1) ⟨.req, head1, b, noResp, []⟩).checked head1 b = .nack 0x42) := by
  dsimp only [ForHere, Comes, Quiet, PortsFree, MemoryAccess, CleanEntry]; and_intros <;> decide +kernel

/-- The device with one request outstanding, of a use. -/
def awaiting (u : ReqUse) (discarded : Bool) : State :=
  { served with fabric := { placed with pending := [⟨511, 65535, 1, 0, 8, u, 4, discarded⟩], mgmtOut := [(9, 1)] } }

/-- An ARRIVE of group 63 on its block's last counter, behind the requests before the fifth. -/
def arrive63 : Arrive := ⟨63, 1, 65535, 5, 15, 0⟩

theorem witness_ResponseDelivery :
    (∀ u ∈ [ReqUse.lane 511 63 31 62 8 false, .atom 511 63 31 63, .store 511 63, .gone 511 63 65535 true, .mgmt 9], ∀ cls ∈ [3, 4],
      ForHere (awaiting u false) 3 cls (good 1) head1) ∧
    (∀ u ∈ [ReqUse.lane 511 63 31 62 8 false, .atom 511 63 31 63, .store 511 63, .gone 511 63 65535 true], ∀ d ∈ [false, true],
      let r : Response := ⟨511, 65535, 0, 0, 8⟩
      let s := awaiting u d;
      (s.taken 3 3 (good 1) ⟨.rsp, head1, noAccess, r, zeros 8⟩).tagOn 1 = true ∧
      s.fabric.pending.find? (fun q => q.unit == r.homeUnit && q.entry == r.homeEntry) = some ⟨511, 65535, 1, 0, 8, u, 4, d⟩ ∧
      s.group 511 63 = some grp ∧ (s.cluster 511).arrivals = []) ∧
    (let r : Response := ⟨511, 65535, 0, 0, 0⟩
      let s := awaiting (.mgmt 9) false;
      (s.taken 3 4 (good 1) ⟨.mgmtRsp, head1, noAccess, r, []⟩).tagOn 1 = true) ∧
    (let s : State := { awaiting (.gone 511 63 65535 true) false with
        clusters := [(511, { thrCluster grp with arrivals := [arrive63], blocks := [(65535, ⟨1, 1, 0, []⟩)] })] };
      (s.cluster 511).arrivals = [arrive63] ∧ ForHere s 3 3 (good 1) head1 ∧
      mfind (s.cluster 511).blocks 65535 = some ⟨1, 1, 0, []⟩) ∧
    (let q : Pending := ⟨511, 0, 1, 0, 8, .store 511 63, 3, false⟩
      let s : State := { awaiting (.gone 511 63 65535 true) false with
        clusters := [(511, { thrCluster grp with arrivals := [arrive63] })]
        fabric := { (awaiting (.gone 511 63 65535 true) false).fabric with
          pending := q :: (awaiting (.gone 511 63 65535 true) false).fabric.pending } };
      (s.cluster 511).arrivals = [arrive63] ∧ ForHere s 3 3 (good 1) head1 ∧ q ∈ s.fabric.pending ∧ q.discarded = false ∧
      q.use.slot = some (511, 63) ∧ q.order < 5) := by
  dsimp only [ForHere, Comes, Quiet, PortsFree]; and_intros <;> decide +kernel

/-- A MGMT access of register word `o`. -/
def mgmt1 (op o : Nat) : Access := ⟨5 * 2 ^ 45 + 2 * 2 ^ 42 + o, op, 0, 4, 0, 0, 0, 0, 0⟩

theorem witness_ManagementRequests :
    ForHere served 3 4 (good 1) { head1 with tenant := 0 } ∧ ForHere served 3 4 (good 1) head1 ∧
    (∀ o ∈ [0x1048, 0xD07C, pageAddr .tck 0 0x44], ∀ op ∈ [0, 1],
      spanBad (mgmt1 op o).addr = false ∧ bits (mgmt1 op o).addr 44 42 = 2 ∧ (mgmt1 op o).addr % 4 = 0 ∧
      (mgmt1 op o).addr % 2 ^ 26 = o ∧ (mgmt1 op o).size = 4) ∧
    (served.taken 3 4 (good 1) ⟨.mgmt, { head1 with tenant := 0 }, mgmt1 1 0xD07C, noResp, []⟩).physical
      (served.taken 3 4 (good 1) ⟨.mgmt, { head1 with tenant := 0 }, mgmt1 1 0xD07C, noResp, []⟩).keystoneNo ≠ some head1.src ∧
    (let h : RHead := ⟨0, 0, 7, 0, 0, 1⟩
      let o := pageAddr .tck 0 0x44
      let v := served.taken 3 4 (good 1) ⟨.mgmt, h, mgmt1 1 o, noResp, leBytes 4 500000⟩;
      WritesAt v .mgmt .tck 0 0x44 ∧ (mgmt1 1 o).addr % 2 ^ 26 = o ∧
      (regAt .tck 0x44).map (fun d => plainReg .tck 0x44 d) = some true ∧ v.locked (pageNo .tck 0) = false ∧
      v.valueBad .tck 0 0x44 (leAt (leBytes 4 500000) 0 4) = false) := by
  dsimp only [ForHere, Comes, Quiet, PortsFree, WritesAt, MayPut]; and_intros <;> decide +kernel

/-- A frame of an escape VC for torus number 1, and the device whose escape table sends it on port 2, with credit. -/
def through : RFrame := ⟨.req, ⟨1, 1, 7, 1, 0, 1⟩, word1 0, noResp, []⟩
def forwarder (queue : List (Nat × RFrame)) : State :=
  ({ served with
    ports := [(2, { Port.reset with state := .up }),
      (3, { Port.reset with state := .up, queue := queue })]
    fabric := { placed with detours := [(0, { Detour.reset with map := [(5, 0x8000)], escape := [(1, 0x82)], ranks := [(4, 1)] })] } }).wr
    R.prtCtl 1 2

theorem witness_ForwardingAndAtomics :
    (let s := forwarder []
      let u := (s.receive 3 2 (good 1)).1
      let g : RFrame := { through with head := ⟨1, 1, 7, 1, 1, 2⟩ };
      Comes s 3 2 (good 1) 1 ∧ through.head.dst ≠ s.rd R.spnPos ∧ spanBad through.access.addr = false ∧
      u.nextHop through = (.port 2 g, false) ∧ u.portUp 2 = true ∧ (u.port 2).queue = [] ∧ u.covered 2 g = true ∧
      CanSend u 2 2) ∧
    (let f : RFrame := { through with cls := .rsp, head := ⟨1, 2, 7, 1, 0, 1⟩ };
      ((forwarder []).receive 3 3 (good 1)).1.nextHop f = (.noRoute, false) ∧ f.cls ≠ .req ∧
      Comes (forwarder []) 3 3 (good 1) 1) ∧
    (((forwarder []).receive 3 2 (good 1)).1.spanTag 2 = false ∧ ((forwarder []).receive 3 2 (good 1)).2 = .good) ∧
    (served.receive 3 5 ⟨1, false, [block4 (ofFirst 16)], true⟩).2 = .damaged ∧ (served.receive 2 5 (good 1)).2 = .dropped ∧
    (let f : RFrame := { through with head := ⟨1, 1, 7, 0, 0, 1⟩ }
      let s := forwarder [(16, f)]
      let o := (s.modPort 3 (fun x => { x with queue := x.queue.erase (16, f) })).cnt R.fabEscCnt;
      (s.port 3).queue.find? (fun q => q.2.cls == .req && q.2.head.vc == 0) = some (16, f) ∧
      o.escapeHop { f with head := { f.head with hops := f.head.hops - 1 } } = .port 2 { f with head := ⟨1, 1, 7, 1, 1, 1⟩ }) ∧
    (let x : HeldAtomic := ⟨3, head1, { word1 2 with hsn := 6000 * 2 ^ 32 }, zeros 4⟩
      let s := { served with fabric := { placed with atomics := [x] } };
      s.nextDue = some 6000 ∧ s.tick.state ≠ .idle ∧ s.fabric.atomics = [x] ∧ Quiet s ∧ s.tick.ns ≤ dueOf x.access ∧
      bits x.access.addr 44 42 ≠ 3 ∧ x.head.src ≠ s.rd R.spnPos) ∧ served.fabric.atomics = [] ∧
    (let x : HeldAtomic := ⟨3, { head1 with tenant := 255 }, ⟨5 * 2 ^ 45 + 3 * 2 ^ 42 + 64, 2, 0, 4, 0, 0, 0, 0, 6000 * 2 ^ 32⟩, zeros 4⟩
      let s := { served with
        fabric := { placed with atomics := [x] }
        host := { up.host with kind3s := [⟨0, 3, x.head, x.access, zeros 4, [], []⟩] } };
      s.fabric.atomics = [x] ∧ Quiet s ∧ s.tick.state ≠ .idle ∧ s.tick.ns ≤ dueOf x.access ∧ bits x.access.addr 44 42 = 3 ∧
      s.windowUp x.head.tenant = true ∧ s.lineBusy x.access.addr = true) := by
  dsimp only [Comes, Quiet, PortsFree, CanSend]; and_intros <;> decide +kernel

/-! ### Power, doze and the safety island -/

/-- A quarter of the booted device, its other fields at reset. -/
def quarter3 (f : Quarter → Quarter) : State :=
  { up with power := { up.power with quarters := [(3, f Quarter.reset)], avsFails := [(3, 1), (4, 2)] } }

/-- A raise waits for its voltage, which the set point covers: set to the highest the V/F table can name. -/
theorem witness_ClocksAndRails :
    ((quarter3 id).quarter 3).stretched = false ∧ ((quarter3 (fun x => { x with stretched := true })).quarter 3).stretched = true ∧
      (keystone .run).running = true ∧ (quarter3 id).running = false ∧ (quarter3 id).tick.starting = 0 ∧
      (let s := quarter3 (fun x => { x with raiseTo := some 925, set := 1023 }); (s.quarter 3).raiseTo = some 925 ∧
        ∀ v, v % 1024 ≤ (s.quarter 3).set) ∧
      (let s := quarter3 (fun x => { x with f := 901 }); (s.quarter 3).avsStopped = false ∧ 900 < (s.quarter 3).f ∧
        (s.quarter 3).raiseTo = none) ∧
      (let s := quarter3 (fun x => { x with raiseTo := some 925 }); (s.quarter 3).raiseTo ≠ none ∧ (s.quarter 3).lowerTo = none) ∧
      mget 0 (quarter3 id).power.avsFails 3 + 1 < 3 ∧ 3 ≤ mget 0 (quarter3 id).power.avsFails 4 + 1 := by
  refine ⟨by decide +kernel, by decide +kernel, by decide +kernel, by decide +kernel, by decide +kernel,
    ⟨by decide +kernel, fun v => ?_⟩, by decide +kernel, by decide +kernel, by decide +kernel, by decide +kernel⟩
  have h : ((quarter3 (fun x => { x with raiseTo := some 925, set := 1023 })).quarter 3).set = 1023 := by decide +kernel
  simp only [h]; omega

/-- The device in a power state, with wakes held. -/
def inPower (x : PowerState) (held : List Nat) : State :=
  { up with power := { up.power with state := x, wakeHeld := held } }

theorem witness_DozeAndWake :
    (inPower .active []).power.state ≠ .entering ∧ (inPower .entering []).power.wakeHeld = [] ∧
      (inPower .entering [4, 0]).power.wakeHeld = 4 :: [0] ∧ (inPower .doze []).power.state = .doze ∧
      (inPower .active []).power.state ≠ .doze ∧ (inPower .active []).power.state ≠ .waking ∧
      (inPower .waking []).power.state = .waking ∧ (inPower .waking []).tick.starting ≠ 1 ∧
      (inPower .waking []).tick.withdrawals = [] ∧
      (let s := ({ (keystone .hold) with power := { up.power with woken := true } }).wr R.pwrCtl 2;
        s.tick.keystone = true ∧ s.flag R.pwrCtl 1 = true ∧ s.power.woken = true ∧ s.power.state = .active ∧ s.tick.state = .hold) ∧
      up.tick.keystone = false := by decide +kernel

theorem witness_IslandMonitors :
    (let s := { up with island := { up.island with firstMismatch := some 0 }, power := { up.power with uptime := 1000000000 } };
      s.island.firstMismatch = some 0 ∧ s.power.uptime ≤ 0 + 1000000000) ∧
    up.island.firstMismatch = none ∧ (1 ∈ ({ up with island := { up.island with causes := [1] } }).island.causes) ∧
    (35 : Fin 36).val ∉ up.island.sensorsFailed ∧ 1150 ≤ 1150 ∧ 1149 < 1150 ∧ tripKey 0x6D 0 ∉ up.island.tripped ∧
    (let s := { up with island := { up.island with sensorsFailed := [32] } };
      ((dieOf 35).filter (fun d => !(s.island.sensorsFailed ++ [35]).contains d)).length < 4 ∧ 35 ∉ s.island.sensorsFailed) ∧
    upRun.sampling = true ∧ 2 ≤ (4 : Fin 9).val ∧ (4 : Fin 9).val ≤ 4 ∧
    ({ upRun with tick := { upRun.tick with phase := .sealing } } : State).tick.phase = .sealing ∧ upRun.tick.phase ≠ .sealing ∧
    2999 < 3000 ∧ 3630 < 3631 ∧ 3000 ≤ 3630 ∧ railTrips.getD (11 : Fin 12) 0 < 3631 ∧ 3630 ≤ railTrips.getD (11 : Fin 12) 0 ∧
    (let s := quarter3 (fun x => { x with f := 1000 }); offBy 8 920 (s.quarter 3).f = false ∧ offBy 8 919 (s.quarter 3).f = true) ∧
    up.dozing = false ∧ asleep.dozing = true := by decide +kernel

/-! ### Services and time -/

/-- Class 3 of tenant 1, host-submitted, of sensor 2 (Table 06-22), with stream 65,535 in a state. -/
def class3 (source : Nat) : StreamClass := ⟨3, 1, source, 0, 4096, 1024, 1, 4, 2, [(511, 1, 2)], [(511, 1)]⟩
def stream1 (host : Option HostCmd) (finished : Bool) (status : Nat) : Stream :=
  ⟨3, 1, host, [], some 5, finished, status, 0, [], 0, 5, 0, 0, 0xFB, [], [], [], 0, false⟩
def toSlot : HostCmd := ⟨0, 15, 15, 7, true, 4095, 3, false, 0, 0⟩

/-- The device in the repair phase with that class and stream, its ring ready. -/
def serving (source : Nat) (x : Stream) : State :=
  force { up with
    image := { Image.reset with loaded := true, self := 5, classes := [class3 source] }
    tick := { Tick.reset with state := .run, phase := .repair, count := 5 }
    host := { up.host with queues := [(15, running4)] }
    svc := { Service.reset with streams := [(65535, x)], collecting := true } } R.spnTenEn 2

/-- An outlet's record of the stream: a RESULT of no payload at offset 64 (Table 12-3). -/
def outlet : List Byte := padTo 128 (zeros 64 ++ [1#8, 0#8, 0xFF#8, 0xFF#8])

theorem witness_StreamServices :
    (let s := serving 1 (stream1 none false 0)
      let k := class3 1;
      s.svc.collecting = true ∧ s.tick.phase = .repair ∧ leAt outlet 64 1 = 1 ∧ 64 + 64 + leAt outlet 72 4 ≤ outlet.length ∧
      leAt outlet 72 4 ≤ k.outLimit ∧ s.egressFull (leAt outlet 72 4) = false ∧ leAt outlet 66 2 = 65535 ∧ s.svc.records = [] ∧
      s.stream 65535 = some (stream1 none false 0) ∧ (stream1 none false 0).tenant = k.tenant ∧
      s.classOf 3 = some k ∧ k.life ≠ 0) ∧
    up.svc.collecting = false ∧ (∀ m ∈ up.image.classes, m.outlets = []) ∧ up.stream 65535 = none ∧
    ((stream1 none true 10).finished = true ∧ (stream1 none true 10).released = false ∧ (stream1 none true 10).status ≠ 0) ∧
    (let s := serving 1 (stream1 (some toSlot) true 0)
      let q := s.queue 0 15;
      s.stream 65535 = some (stream1 (some toSlot) true 0) ∧ toSlot.toOut = false ∧ q.state ≠ .off ∧ q.waiting = [] ∧
      q.ringFull = false ∧ (s.fn 0).flr = false ∧ s.host.stalled = false) ∧
    (let s := ({ up with tick := { Tick.reset with count := 11 }, svc := { Service.reset with ledger := [⟨0, 1, 4, 1, 0xFB, 0, 0, 0, []⟩] } }).wr R.ldgCkptTicks 10;
      (s.fld R.ldgCkptTicks 23 0 != 0 && (s.tick.count - 1) % s.fld R.ldgCkptTicks 23 0 == 0) = true ∧ s.svc.ledger ≠ [] ∧
      s.ledgerRingFull = true ∧ (s.wr R.ldgHsize 1).ledgerRingFull = false) ∧
    (up.wr R.ldgCkptTicks 0).fld R.ldgCkptTicks 23 0 = 0 ∧ up.svc.ledger.length < 1023 := by decide +kernel

/-- The tile of sensor 2 with two bytes of payload, sent to port 15 (Table 12-1). -/
def tile1 (index : Nat) : Tile :=
  { magic := 0x4F54494C, version := 1, sensor := 2, exposure := 9, index := index, count := 4, len := 2, sec := 0, ns := 0,
    crc := crc32c [1#8, 2#8], payload := [1#8, 2#8], dstIp := 0, dstPort := 5000, srcIp := 0, v6 := false }

/-- A device with Ethernet port 15 up, the ingest role, UDP port 5,000 and open frames. -/
def camera (frames : List OpenFrame) (held : List Tile) : State :=
  ((force { serving 2 (stream1 none false 0) with
    ports := [(15, { Port.reset with ethernet := true, ethUp := true })]
    tick := { Tick.reset with state := .run, phase := .opening, count := 7 }
    svc := { Service.reset with streams := [(65535, stream1 none false 0)], frames := frames, holdTiles := held } } R.spnRole 13).wr
    R.ingUdpPort 5000).wr R.hstQuotaSet 16 0 1

/-- An open frame of the tile's exposure and sensor that has tile 0, its window ending in tick 7. -/
def frame1 : OpenFrame := ⟨9, 2, 65535, [0], some 5, 0, 0, false⟩

theorem witness_CameraIngest :
    (let s := camera [frame1] [];
      (s.port 15).ethernet = true ∧ (s.port 15).ethUp = true ∧ bit (s.inForce R.spnRole) 2 = true ∧
      s.tileAddressed 15 (tile1 3) = true ∧ s.tileAddressed 15 { tile1 3 with dstPort := 1 } = false ∧
      s.tileClass (tile1 3) = some (class3 2) ∧ s.tileClass (tile1 4) = none ∧ (9, 2) ∉ s.svc.closed ∧
      s.frameOf 9 2 = some frame1 ∧ frame1.closing = false ∧ 3 ∉ frame1.got ∧ 0 ∈ frame1.got ∧
      s.sensorClass 2 = some (class3 2) ∧ frame1.first = some 5 ∧ s.tick.phase = .opening ∧ 5 + (class3 2).window ≤ s.tick.count ∧
      s.stream frame1.stream = some (stream1 none false 0) ∧ s.frameOf 8 2 = none) ∧
    (let s := { camera [] [] with svc := { Service.reset with closed := [(9, 2)] } }; (9, 2) ∈ s.svc.closed ∧
      s.tileClass (tile1 3) = some (class3 2) ∧ bit (s.inForce R.spnRole) 2 = true) ∧
    (let s := camera [] [tile1 0]; s.svc.holdTiles.head? = some (tile1 0) ∧ s.sensorClass 2 = some (class3 2) ∧
      s.mayOpen (class3 2) = true) ∧
    (∀ z ∈ [(0, true), (1, false)],
      let s := (camera (List.replicate 16 { frame1 with exposure := 8 }) []).wr R.ingHoldKib z.1;
      s.tileClass (tile1 3) = some (class3 2) ∧ (9, 2) ∉ s.svc.closed ∧ s.frameOf 9 2 = none ∧ s.mayOpen (class3 2) = false ∧
      decide (min (s.fld R.ingHoldKib 12 0) 4096 * 1024 <
        natSum (s.svc.holdTiles.map (fun x => x.payload.length)) + (tile1 3).payload.length) = z.2) ∧
    up.svc.holdTiles = [] ∧ (up.port 15).ethernet = false := by
  and_intros <;> decide +kernel

/-- A device whose time unit runs and follows a source, with some of them trusted. -/
def timed (source : Nat) (trusted : List Nat) (x : TimeState) : State :=
  (({ up with
    ports := [(15, { Port.reset with ethernet := true, ethUp := true })]
    time := { TimeUnit.reset with source := source, trusted := trusted, state := x, have_ := true, clockClass := 6 } }).wr
    R.timPtpCfg (3 * 2 ^ 12 + 6 * 2 ^ 16 + 255)).wr R.timPrio 1

theorem witness_TimeReferences :
    (let s := { upRun with tick := { upRun.tick with joined := true } }; s.runsTime = false) ∧
    (let s := timed 1 [1] .locked;
      s.runsTime = true ∧ s.time.source = 1 ∧ (s.edgeTime + 500000000) / 1000000000 * 1000000000 - s.edgeTime < 1000000 ∧
      sourceNo .pps ∈ s.time.trusted) ∧
    (let s := timed 0 [] .freeRun; s.runsTime = true ∧ s.time.source ≠ 1 ∧ s.time.source ≠ 2 ∧ 1 ∈ s.prio ∧
      sourceNo .ptp15 ∉ s.time.trusted) ∧
    (timed 1 [1] .holdover).time.state = .holdover ∧ (timed 1 [1] .locked).time.state ≠ .holdover ∧
    (timed 1 [1] .locked).time.state ≠ .qualifying ∧
    (let s := (timed 1 [1] .locked).wr R.timCtl 4; s.flag R.timCtl 2 = true ∧ s.time.have_ = true ∧ s.shownState ≠ .freeRun ∧
      s.time.lastPulse = none) ∧
    (let s := ({ timed 1 [1] .locked with time := { (timed 1 [1] .locked).time with lastPulse := some 0 } }).wr R.timCtl 4;
      s.flag R.timCtl 2 = true ∧ s.time.lastPulse = some 0 ∧ s.tai < 0 + 500000000) ∧
    (keystone .run).tick.keystone = true ∧ ((keystone .run).wr R.timAnchorTicks 0).fld R.timAnchorTicks 23 0 ≤ 0 ∧
    (let s := { upRun with tick := { upRun.tick with phase := .opening }, time := { TimeUnit.reset with notices := [⟨0x10, 1, 0, 5, true⟩] } };
      s.tick.phase = .opening ∧ s.time.notices.filter (fun x => noticeDue x s.tick.count) = [] ++ [⟨0x10, 1, 0, 5, true⟩]) ∧
    (let s := timed 4 [4] .locked; 14 ≤ (15 : Fin 16).val ∧ s.flag R.timPtpCfg (15 - 2) = true ∧ (s.port 15).ethernet = true ∧
      (s.port 15).ethUp = true ∧ s.runsTime = true ∧ s.fld R.timPtpCfg 7 0 = 255 ∧ s.fld R.timPtpCfg 23 16 = 6 ∧ s.time.source = 4 ∧
      (0 : Fin 3).val = s.fld R.timPtpCfg 9 8 ∧ (1 : Fin 3).val ≠ s.fld R.timPtpCfg 9 8 ∧ s.flag R.timPtpCfg 10 = false ∧
      ((((0 : Nat) : Int) * 1000000000 + 0) * 1000 + s.time.meanPath - (250 * 0 + signed32 (s.rd R.prtEthAsym 15))).tdiv 1000 < 1000000) ∧
    up.flag R.timPtpCfg 13 = false := by decide +kernel

/-! ### Scrubbers and slots -/

/-- The booted device in tick `count` with the scrubber of cluster 511 at a point, the words of `bad` with one wrong bit. -/
def scrubbed (count ctl : Nat) (f : Scrub → Scrub) (bad : List Nat) : State :=
  (({ up with tick := { upRun.tick with count := count }, ecc := bad.map (fun a => (a / 8, 1)) }).modScrub 511 f).wr
    R.spdScrubCtl ctl 511

theorem witness_Scrubbing :
    let u := ScrubUnit.cluster 511
    let at_ := fun (n : Nat) => visitByte u n
    let on := 2 ^ 24
    ((scrubPlace u).1 = 511 ∧ bit ((scrubbed 5 on id []).scrubCtl u) 24 = true ∧ (scrubbed 5 on id []).power.state = .active) ∧
    (∀ n ∈ [131070, 131071], let s := scrubbed 5 on (fun x => { x with visit := n }) [];
      (s.scrub 511).visit < (scrubPlace u).2 ∧ (s.scrub 511).row = none ∧ (s.scrub 511).repair = [] ∧
      ∀ z ∈ rowWords (at_ n), s.eccOf z = 0) ∧
    131070 + 1 < (scrubPlace u).2 ∧ (scrubPlace u).2 ≤ 131071 + 1 ∧
    (let s := scrubbed 5 on (fun x => { x with visit := 131071 }) [at_ 131071];
      (s.scrub 511).visit < (scrubPlace u).2 ∧ (s.scrub 511).row = none ∧ (s.scrub 511).repair = [] ∧ s.eccOf (at_ 131071) = 1) ∧
    (let w := at_ 131071 / 8
      let s := scrubbed 5 on (fun x => { x with visit := 31, repair := [w] }) [at_ 131071];
      (s.scrub 511).visit < (scrubPlace u).2 ∧ (s.scrub 511).row = none ∧ (s.scrub 511).repair = [w] ∧
      scrubAt (8 * w) = 511 ∧ wordVisit u w % scrubBanks u = 31 % scrubBanks u ∧ s.eccOf (8 * w) = 1) ∧
    (let s := scrubbed 5 on (fun x => { x with visit := 31, row := some 31 }) [at_ 31];
      (s.scrub 511).row = some (s.scrub 511).visit ∧ (s.scrub 511).repair = [] ∧ (s.scrub 511).visit + 2 < (scrubPlace u).2 ∧
      ∀ z ∈ rowWords (at_ 32), s.eccOf z = 0) ∧
    bit ((scrubbed 5 0 id []).scrubCtl u) 24 = false ∧
    ((scrubbed 1025 on id []).tick.count - 1) % 1024 = 0 ∧ 2 ≤ (scrubbed 1025 on id []).tick.count ∧
    ((scrubbed 1024 on id []).tick.count - 1) % 1024 ≠ 0 := by
  and_intros <;> decide +kernel

/-- Device 5 in a phase at `ns`, its cluster's external port leased every bank, with slot 65,535 of tenant 1 (64 bytes at
6,000 ns on port 3, out on port 2) in a direction, and what armed it. -/
def slotted (p : Phase) (ns dir : Nat) (m : List Armed) : State :=
  { served with
    clusters := [(511, { thrCluster grp with leases := [0#32, 0#32, 0xFFFFFFFF#32, 0#32] })]
    tick := { served.tick with phase := p, ns := ns }
    fabric := { placed with slots := [(65535, ⟨dir, 3, 2, 511, 1, 6000, 64, 0⟩)], armed := m }
    written := (List.range 64).map (fun n => spAddr 511 4096 + n) }

/-- Slot 65,535 armed for handle 1 of cluster 511. -/
def armed (tx : Bool) : Armed := ⟨65535, tx, 511, 1, 0, false, false, false, false, [], [], false, false, false, false⟩

/-- The slot's one segment, as it arrives. -/
def segment0 : SlotFrame := ⟨1, 65535, 0, false, false, false, zeros 64⟩

theorem witness_SlotTraffic :
    (let s := slotted .body 6000 1 [armed true]
      let x := s.slotEntry 65535;
      s.tick.phase = .body ∧ x.dir = 1 ∧ x.start ≤ s.tick.ns ∧ CanSend s x.port 1 ∧ s.armedOf 65535 true = some (armed true) ∧
      s.ctxDead x.owner = false ∧ s.spc x.port = false ∧
      ∀ g ∈ x.segments, ReadsMemory s 2 (hKind (s.entry 511 1) == 0) (s.armedAddrs (armed true) g.2.1 g.2.2)) ∧
    (let s := { slotted .body 6000 1 [armed true] with tick := { served.tick with ns := 6000, dead := [1] } };
      s.ctxDead (s.slotEntry 65535).owner = true ∧ (s.slotEntry 65535).dir = 1 ∧ CanSend s 3 1 ∧ s.tick.phase = .body) ∧
    (∀ z ∈ [{ armed true with late := true }, { armed true with sent := true }],
      (slotted .body 6000 1 [z]).armedOf 65535 true = some z ∧ (z.late = true ∨ z.sent = true)) ∧
    (let v := slotted .body 900000 2 [{ armed false with closed := true }];
      v.armedOf 65535 false = some { armed false with closed := true } ∧ segment0.replay = false ∧ segment0.poison = false ∧
      v.slotPhase = true) ∧
    (let v := force (slotted .body 900000 2 [armed false]) R.prtSpcCtl 1 (i := 3);
      v.spc 3 = true ∧ v.slotPhase = true ∧ v.armedOf 65535 false = some (armed false) ∧ (armed false).sent = false) ∧
    ((slotted .opening 0 1 []).tick.phase ≠ .body) ∧
    (let v := slotted .repair 6000 3 [];
      (v.receive 3 1 (good 1)).2 = .good ∧ (v.receive 3 1 (good 1)).1.slotPhase = true ∧ v.island.disagree = false ∧
      accepts (v.slotEntry 65535) 3 segment0 = true ∧ (v.slotEntry 65535).dir = 3 ∧ v.spc 2 = false ∧
      accepts (v.slotEntry 65535) 3 { segment0 with seg := 1 } = false ∧
      accepts (v.slotEntry 65535) 3 { segment0 with data := zeros 63 } = false) ∧
    (let v := slotted .body 6000 2 [armed false]
      let b := v.armedAddrs (armed false) 0 64;
      (v.receive 3 1 (good 1)).2 = .good ∧ accepts (v.slotEntry 65535) 3 segment0 = true ∧
      accepts (v.slotEntry 65535) 3 { segment0 with poison := true, data := [] } = true ∧ v.ctxDead 1 = false ∧
      v.armedOf 65535 false = some (armed false) ∧ (armed false).late = false ∧ (armed false).closed = false ∧ v.spc 3 = false ∧
      (∀ z ∈ b, z < 2 ^ 31 → v.leased (z / 2 ^ 22) 2 (z % 2 ^ 22 / 2 ^ 17) = true)) ∧
    ((slotted .body 6000 2 []).receive 3 1 { good 1 with tagOk := false }).2 ≠ .good ∧ (slotted .opening 0 2 []).slotPhase = false := by
  dsimp only [ReadsMemory, CleanBytes, CanSend]; and_intros <;> decide +kernel

/-- The device with its isolation comparators in disagreement. -/
def split2 (s : State) : State := { s with island := { s.island with disagree := true } }

theorem witness_IslandMonitors_disagree :
    (let x := two 0 1 0
      let w : TWord := BitVec.ofNat 26 (62 * 2 ^ 15 + 63 * 2 ^ 9 + 2 * 2 ^ 3)
      let a : TWord := BitVec.ofNat 26 (62 * 2 ^ 15 + 63 * 2 ^ 9 + 2 * 2 ^ 3 + 6)
      guardOk w = true ∧ x.ex w ≠ 0#32 ∧ wS w = 0 ∧ wW w = 2 ∧ guardOk a = true ∧ x.ex a ≠ 0#32 ∧ wS a ≠ 7 ∧ wW a = 2 ∧
      (∀ z ∈ [(0x30, w), (0x31, w), (0x32, a)],
        let s := split2 (mem z.1 z.2 x);
        AtRest s ∧ s.clashes 511 63 z.2 4 true x = false ∧ Runs s 511 63 z.1 z.2 x [wR z.2, wA z.2] ∧ s.ctxDead 1 = false ∧
          tripKey 0x68 0 ∉ s.island.tripped) ∧
      (let t := after (.ld 511 63 w) (split2 (mem 0x30 w x)); 6 ∈ t.island.causes ∧ 1 ∈ t.tick.killed)) ∧
    (let v := split2 (slotted .body 6000 2 [armed false]);
      (v.receive 3 1 (good 1)).2 = .good ∧ (v.receive 3 1 (good 1)).1.slotPhase = true ∧
      (after (.slotFrame 3 (good 1) segment0) v).tick.gateSeen = true) ∧
    (let s := split2 served;
      (s.receive 3 2 (good 1)).2 = .good ∧ (s.receive 3 2 (good 1)).1.spanTag head1.tenant = true ∧ Quiet s ∧
      head1.dst = s.rd R.spnPos ∧ head1.src ≠ s.rd R.spnPos ∧
      (after (.req 3 (good 1) head1 (word1 0) []) s).rd R.safChkDis = 1) := by
  dsimp only [Runs, CleanFetch, AtRest, Quiet, PortsFree]; and_intros <;> decide +kernel

theorem witness_SlotTraffic_replay :
    (let s := fun z => slotted .repair 900000 2 [z]
      let x := (s (armed false)).slotEntry 65535;
      (s (armed false)).slotPhase = true ∧ x.dir = 2 ∧ x.start + x.occ + (((s (armed false)).port 3).delay + 999) / 1000 + 50 ≤ 900000 ∧
      (s (armed false)).spc 3 = false ∧ CanSend (s (armed false)) 3 8 ∧ (armed false).closed = false ∧ (s (armed false)).ctxDead 1 = false ∧
      (s (armed false)).armedOf 65535 false = some (armed false) ∧ (s (armed false)).missing (armed false) ≠ [] ∧
      (s (armed false)).missing { armed false with got := [0] } = []) ∧
    (slotted .body 0 1 []).slotPhase = true ∧ ((slotted .body 0 1 []).receive 3 8 (good 1)).2 = .good ∧
    (5 = (slotted .body 0 1 []).tick.count) ∧ ((slotted .body 0 1 []).slotEntry 65535).port = (3 : Fin 16).val ∧
    ((slotted .body 0 3 []).slotEntry 65535).outPort = (2 : Fin 16).val ∧ ((slotted .body 0 1 []).slotEntry 65535).dir = 1 ∧
    (let s := { forwarder [] with tick := (slotted .body 0 3 []).tick, fabric := (slotted .body 0 3 []).fabric };
      (s.receive 2 8 (good 1)).2 = .good ∧ s.slotPhase = true ∧ (s.slotEntry 65535).dir = 3) ∧
    ((slotted .body 0 1 []).receive 3 8 { good 1 with tagOk := false }).2 ≠ .good ∧
    (∀ z ∈ (slotted .body 0 1 []).fabric.replays, z.1 ≠ 65535) ∧
    (let s := slotted .repair 0 1 [armed true];
      s.tick.phase = .repair ∧ s.fabric.replays = [] ∧ CanSend s 3 1 ∧ s.armedOf 65535 true = some (armed true) ∧
      s.ctxDead 1 = false ∧ s.spc 3 = false ∧ (∀ g ∈ (s.slotEntry 65535).segments,
        ReadsMemory s 2 (hKind (s.entry 511 1) == 0) (s.armedAddrs (armed true) g.2.1 g.2.2)) ∧
      max s.tick.ns s.repairStart + (s.slotEntry 65535).occ ≤ s.sealStart) := by
  dsimp only [CanSend, ReadsMemory, CleanBytes]; and_intros <;> decide +kernel

/-! ### The tick -/

/-- Device 5 in RUN, its marker-tree parent on port 3, in a phase of attempt 1 of tick 5, its image fit for a body. -/
def following (p : Phase) (f : Tick → Tick) : State :=
  (({ served with
    image := { served.image with loaded := true }
    load := { Load.reset with verdict := 2 }
    tick := f { Tick.reset with state := .run, phase := p, count := 5, attempt := 1, joined := true, epoch := 3 } }).wr
    R.tckMkParent 3).wr R.tckCtl 0x30000

/-- A marker of epoch 3 for a tick. -/
def mark (tick verdict : Nat) : Marker := ⟨tick, 2, verdict, false, false, 1, 0, 3, 0, 0, 0, 1000000⟩

theorem witness_TickPhases :
    (∀ p ∈ [Phase.sealing, .waiting, .none], (following p id).tick.phase = p ∧ (following p id).tick.state ≠ .idle ∧
      (following p id).tick.selfFailed = false ∧ (following p id).tick.keystone = false) ∧
    (∀ d ∈ [1, 2, 3], let k := (following .sealing (fun t => { t with marked := true, keystone := true, decision := some d })).tick;
      k.joined = true ∧ k.phase = .sealing ∧ k.marked = true ∧ k.decision = some d ∧ k.keystone = true) ∧
    ((following .none id).power.dozeAsked = false ∧ State.reset.tick.state = .idle) ∧
    (let s := following .opening (fun t => { t with undecided := true });
      (s.receive 3 6 (good 1)).2 = .good ∧ (mark 6 1).epoch = s.tick.epoch ∧ (3 : Fin 16).val = s.parentPort ∧
      s.tick.marked = false ∧ s.tick.undecided = true ∧ s.tick.joined = true ∧ (mark 6 1).tick = s.tick.count + 1 ∧
      (mark 5 2).tick = s.tick.count ∧ (mark 6 1).verdict ≠ 3 ∧ (mark 5 2).verdict ≠ 3 ∧ (mark 5 3).verdict = 3 ∧
      (mark 7 1).tick ≠ s.tick.count ∧ (mark 7 1).tick ≠ s.tick.count + 1 ∧ (mark 4 1).tick ≠ s.tick.count ∧
      { mark 6 1 with epoch := 2 }.epoch < s.tick.epoch) ∧
    ((following .none (fun t => { t with joined := false })).tick.joined = false) ∧
    (let s := (following .body (fun t => { t with keystone := true })).wr R.tckMkParent 2;
      (s.receive 3 6 (good 1)).2 = .good ∧ s.tick.epoch < { mark 6 1 with epoch := 4 }.epoch ∧ (3 : Fin 16).val ≠ s.parentPort ∧
      s.tick.parentDamaged = false ∧ s.tick.damagedEarly = false ∧ s.tick.keystone = true) ∧
    (let s := (following .body (fun t => { t with mkParent := some (6, 2, -5001) })).wr R.tckMkParent 2;
      (s.receive 3 6 (good 1)).2 = .good ∧ (mark 6 1).epoch = s.tick.epoch ∧ (3 : Fin 16).val ≠ s.parentPort ∧
      s.tick.parentDamaged = false ∧ s.tick.damagedEarly = false ∧ s.tick.keystone = false ∧
      s.tick.mkParent = some ((mark 6 1).tick, (mark 6 1).attempt, -5001) ∧
      5000 < ((-5001 : Int) - (0 - (mark 6 1).accDelay - (s.port 3).delay)).natAbs) ∧
    (let s := following .opening (fun t => { t with undecided := true }); AtRest s ∧ s.load.held = [] ∧ s.load.chains = []) ∧
    (∀ p ∈ [Phase.opening, .body, .repair, .waiting, .sealing, .none], let s := following p id;
      (s.receive 3 6 { good 1 with tagOk := false }).2 = .damaged ∧
      (3 : Fin 16).val = (s.receive 3 6 { good 1 with tagOk := false }).1.parentPort ∧
      (2 : Fin 16).val ≠ (s.receive 2 6 { good 1 with tagOk := false }).1.parentPort) ∧
    ((following .opening (fun t => { t with marked := true })).configBad = false ∧
      (following .opening (fun t => { t with marked := true, last := some { mark 6 1 with len := 999999 } })).configBad = true ∧
      (following .opening id).tick.marked = false ∧ (following .body id).tick.phase ≠ .opening) ∧
    ((following .body id).tick.phase = .body ∧ (following .repair id).tick.phase = .repair ∧
      (following .repair id).tick.stretchEff = false ∧ (following .repair (fun t => { t with gateSeen := true })).tick.gateSeen = true) ∧
    (let s := following .repair (fun t => { t with ns := 999000 }); s.sealStart ≤ s.tick.ns ∧
      (let s := { s with clusters := [(511, thrCluster grp)] }; 511 ∈ s.clusters.map (·.1) ∧ s.overran 511 = true)) ∧
    (let s := force (following .none (fun t => { t with silent := 1, last := some (mark 5 1) })) R.tckKsCfg 0x50000;
      s.isBackup = true ∧ s.tick.joined = true ∧ s.tick.selfFailed = false ∧ 1 ≤ s.tick.silent ∧
      (mark 5 1).tick = s.tick.count ∧ s.tick.echoSent = none ∧ (mark 5 1).attempt + 1 ≤ s.fld R.tckCtl 23 16) ∧
    State.reset.isBackup = false := by
  dsimp only [AtRest, PortsFree]; and_intros <;> decide +kernel

/-- A child's vote for attempt 1 of tick 5, of a kind. -/
def ballot (kind : Nat) : Vote := ⟨5, 1, kind, true, false, 1, true, 1, 6, 0, 7⟩

/-- The device halts a group while it is the keystone. -/
def haltedTick (p : Phase) (stretch : Bool) : State :=
  { following p (fun t => { t with keystone := true, stretchEff := stretch }) with
    clusters := [(511, thrCluster { grp with halted := true })] }

theorem witness_VotesAndVerdicts :
    (let s := following .body id;
      (s.receive 3 7 (good 1)).2 = .good ∧ (ballot 0).tick = s.tick.count ∧ (ballot 0).attempt = s.tick.attempt ∧
      s.tick.phase ≠ .none ∧ s.tick.voteSent = false ∧ (3 : Fin 16).val ∉ s.tick.reported ∧ s.tick.phase ≠ .sealing) ∧
    ((following .body (fun t => { t with voteSent := true })).tick.voteSent = true) ∧
    (3 : Fin 16).val ∈ (following .body (fun t => { t with reported := [3] })).tick.reported ∧
    { ballot 0 with tick := 4 }.tick ≠ (following .body id).tick.count ∧ (following .none id).tick.phase = .none ∧
    (let s := following .sealing (fun t => { t with children := [3], reported := [3] });
      s.tick.phase = .sealing ∧ s.tick.voteSent = false ∧ s.tick.children.filter (fun p => !s.tick.reported.contains p) = [] ∧
      s.tick.keystone = false ∧ s.portUp s.parentPort = true ∧ CanSend s s.parentPort 7) ∧
    (following .sealing (fun t => { t with keystone := true })).tick.keystone = true ∧
    (let k := (following .sealing (fun t => { t with children := [3] })).tick;
      3 ∈ k.children.filter (fun p => !k.reported.contains p)) ∧
    (let s := following .sealing (fun t => { t with keystone := true, decision := some 1 });
      s.tick.decision = some (ballot 1).verdict ∧ s.tick.decision ≠ some { ballot 1 with verdict := 2 }.verdict ∧
      s.tick.decision ≠ none ∧ s.tick.echoed = false ∧ (force s R.tckKsCfg 0x70005).hasBackup = true) ∧
    (following .sealing (fun t => { t with keystone := true, echoed := true })).tick.echoed = true ∧
    (force (following .sealing id) R.tckKsCfg 0x50000).isBackup = true ∧
    (let s := following .repair (fun t => { t with keystone := true, stretchEff := true }); s.anyHalted = false ∧
      s.tick.stretchEff = true ∧ s.tick.phase = .repair) ∧
    (∀ p ∈ [Phase.body, .repair], (haltedTick p true).anyHalted = true ∧ (haltedTick p true).running = true ∧
      (haltedTick p true).tick.stretchEff = true ∧ (haltedTick p true).tick.phase = p) ∧
    (haltedTick .body false).tick.stretchEff = false := by
  dsimp only [CanSend]; and_intros <;> decide +kernel

/-! ### Image loading -/

/-- A directory entry (Table 06-13). -/
def dirBytes (t n off len : Nat) : List Byte := leBytes 2 t ++ leBytes 2 0 ++ leBytes 4 n ++ leBytes 8 off ++ leBytes 8 len

/-- The image header of a span of one device: a tick of 1 ms, a repair phase of 0.1 ms, 1,000 MHz, one tenant (Table 06-6). -/
def headerBytes (digest : List Byte) : List Byte :=
  leBytes 4 0x49534B41 ++ leBytes 2 1 ++ leBytes 2 0 ++ leBytes 4 0x010101 ++ leBytes 4 1000000 ++ leBytes 4 100000 ++ zeros 8 ++
    leBytes 2 1000 ++ leBytes 2 1 ++ digest ++ zeros 8 ++ leBytes 4 1 ++ zeros 52

/-- The image digest of that header and its one section table entry, by SHA-256 (R334). -/
def digest0 : List Byte := (leBytes 32 0x94a9c6876cd45b95b38c9569ce0cf9e5c757ac08412a93060a464216bf4509ae).reverse

/-- The least section: header, directory, and the five elements that Table 06-14 always asks for. -/
def leastFront : List Byte :=
  leBytes 4 0x5345434B ++ leBytes 2 1 ++ zeros 2 ++ leBytes 4 5 ++ zeros 4 ++ leBytes 8 64 ++ zeros 40 ++
    dirBytes 1 1 184 128 ++ dirBytes 2 1 312 56 ++ dirBytes 4 1 368 112 ++ dirBytes 0xB 9 528 58320 ++ dirBytes 0xD 1 480 42 ++
    headerBytes digest0 ++ (zeros 16 ++ leBytes 8 58848 ++ zeros 32) ++ zeros 112 ++ zeros 48
def leastSection : List Byte := leastFront ++ zeros 58320

/-- A 1 × 1 × 1 span's device with a section delivered and no cluster marked bad. -/
def delivered (b : List Byte) : State :=
  (((List.range 17).foldl (fun s i => s.wr R.wldCluBad 0 0 0 i) up).wr R.spnDims 0x10101).modLoad (fun _ =>
    { Load.reset with verdict := 1, section_ := [(0, b)] })

theorem joinRuns_delivered (b : List Byte) : joinRuns (delivered b).load.section_ = b := by
  have h : (delivered b).load.section_ = [(0, b)] := rfl
  simp [h, joinRuns, padTo]

/-- Runs of zeros. -/
theorem chunks_zeros (k n r : Nat) : chunks k n (zeros (k * n + r)) = List.replicate n (zeros k) := by
  induction n with
  | zero => rfl
  | succ n ih =>
    have h : zeros (k * (n + 1) + r) = zeros k ++ zeros (k * n + r) := by
      simp only [zeros, List.replicate_append_replicate]
      congr 1
      rw [Nat.mul_succ]; omega
    have hk : (zeros k).length = k := List.length_replicate
    rw [h, chunks, List.take_left' hk, List.drop_left' hk, ih, List.replicate_succ]

theorem allZero_zeros (n : Nat) : allZero (zeros n) = true := by
  simp [allZero, zeros]

/-- Where every range lies before place `a`, the last range may as well be cut off with its bytes. -/
theorem gapsZero_last (l : List (Nat × Nat)) (a n pos : Nat) (x z : List Byte) (hz : z.length = n) (hp : pos + x.length = a)
    (hl : ∀ r ∈ l, r.1 ≤ a ∧ r.1 + r.2 ≤ a) : gapsZero (l ++ [(a, n)]) pos (x ++ z) = gapsZero l pos x := by
  induction l generalizing pos x with
  | nil =>
    have h1 : a - pos = x.length := by omega
    have h2 : max pos (a + n) - pos = (x ++ z).length := by rw [List.length_append, hz]; omega
    rw [List.nil_append, gapsZero, gapsZero, gapsZero, h1, h2, List.take_left' rfl, List.drop_length]
    simp [allZero]
  | cons r l ih =>
    obtain ⟨p, k⟩ := r
    have hr := hl (p, k) List.mem_cons_self
    simp only at hr
    rw [List.cons_append, gapsZero, gapsZero, List.take_append_of_le_length (by omega), List.drop_append_of_le_length (by omega)]
    rw [ih _ _ (by rw [List.length_drop]; omega) (fun r h => hl r (List.mem_cons_of_mem _ h))]

theorem witness_ImageLoad_routes : items leastSection 0xB = List.replicate 9 (zeros 6480) := by
  have h : dirEntry leastSection 0xB = some ⟨0xB, 0, 9, 528, 58320⟩ := by decide +kernel
  have e : elem leastSection 0xB = zeros 58320 := by
    have hf : leastFront.length = 528 := by decide +kernel
    have hl : (zeros 58320).length = 58320 := List.length_replicate
    rw [elem, h]
    change (leastSection.drop 528).take 58320 = zeros 58320
    rw [leastSection, List.drop_left' hf, List.take_of_length_le (Nat.le_of_eq hl)]
  rw [items, e, elemCount, h]
  exact chunks_zeros 6480 9 0

theorem witness_ImageLoad_directory : dirOf leastSection =
    [⟨1, 0, 1, 184, 128⟩, ⟨2, 0, 1, 312, 56⟩, ⟨4, 0, 1, 368, 112⟩, ⟨0xB, 0, 9, 528, 58320⟩, ⟨0xD, 0, 1, 480, 42⟩] := by decide +kernel

theorem leastSection_length : leastSection.length = 58848 := by
  have hf : leastFront.length = 528 := by decide +kernel
  have hz : (zeros 58320).length = 58320 := List.length_replicate
  rw [leastSection, List.length_append, hf, hz]

theorem witness_ImageLoad_frame : secHeaderOk leastSection = true ∧ dirPairs (dirOf leastSection) = true ∧
    firstBad (dirOf leastSection) (fun d => !dirOk leastSection d) = none := by
  simp only [secHeaderOk, dirOk, leastSection_length]
  and_intros <;> decide +kernel

theorem witness_ImageLoad_gaps :
    gapsZero (sortBy (fun x y => decide (x.1 ≤ y.1)) ((0, 64) :: (leAt leastSection 0x10 8, 24 * (dirOf leastSection).length) ::
      (dirOf leastSection).map (fun d => (d.off, d.len)))) 0 leastSection = true := by
  have h : sortBy (fun x y => decide (x.1 ≤ y.1)) ((0, 64) :: (leAt leastSection 0x10 8, 24 * (dirOf leastSection).length) ::
      (dirOf leastSection).map (fun d => (d.off, d.len))) =
      [(0, 64), (64, 120), (184, 128), (312, 56), (368, 112), (480, 42)] ++ [(528, 58320)] := by decide +kernel
  have hf : 0 + leastFront.length = 528 := by decide +kernel
  rw [h, leastSection, gapsZero_last _ 528 58320 0 leastFront (zeros 58320) List.length_replicate hf (by decide)]
  decide +kernel

/-- A route element of zeros is one that Table 06-18 allows. -/
theorem routes_zeros (b : List Byte) (hs : List (Nat × HEntry)) (i : Nat) : itemOk b hs 0xB i (zeros 6480) = true := by
  have d (k : Nat) : (zeros 6480).drop k = zeros (6480 - k) := List.drop_replicate
  have t (k n : Nat) : (zeros n).take k = zeros (min k n) := List.take_replicate
  have c1 : chunks 2 2048 (zeros 6480) = List.replicate 2048 (zeros 2) := chunks_zeros 2 2048 2384
  have c2 : chunks 1 2048 (zeros (6480 - 0x1000)) = List.replicate 2048 (zeros 1) := chunks_zeros 1 2048 336
  have c3 : chunks 4 64 (zeros (6480 - 0x1850)) = List.replicate 64 (zeros 4) := chunks_zeros 4 64 0
  have z1 : (leNat (zeros 2) &&& 0x7800 == 0) = true := by decide
  have z2 : (leNat (zeros 1) &&& 0x60 == 0) = true := by decide
  have z3 : (leNat (zeros 4) &&& 0xFFF0F800 == 0) = true := by decide
  have z4 : decide (leNat (zeros (min 2 (6480 - 0x1842))) ≤ 64) = true := by decide
  simp only [itemOk, leAt, zeroIn, d, t, c1, c2, c3, List.all_replicate, z1, z2, z3, z4, allZero_zeros, Bool.and_self]
  decide

theorem witness_ImageLoad_items : firstBad (dirOf leastSection) (fun d =>
    !((if itemSize d.type = 0 then varItems leastSection d.type else items leastSection d.type).zipIdx.all (fun p =>
      itemOk leastSection [] d.type p.2 p.1))) = none := by
  have h : (items leastSection 0xB).zipIdx.all (fun p => itemOk leastSection [] 0xB p.2 p.1) = true := by
    rw [List.all_eq_true]
    intro p hp
    have hm : p.1 ∈ items leastSection 0xB := List.fst_mem_of_mem_zipIdx hp
    rw [witness_ImageLoad_routes] at hm
    rw [List.eq_of_mem_replicate hm]
    exact routes_zeros ..
  have k : ∀ t ∈ [1, 2, 4, 0xD], (items leastSection t).zipIdx.all (fun p => itemOk leastSection [] t p.2 p.1) = true := by
    decide +kernel
  simp only [witness_ImageLoad_directory, firstBad, List.findIdx?_eq_none_iff, List.mem_cons, List.not_mem_nil, or_false]
  rintro d (rfl | rfl | rfl | rfl | rfl)
  · simpa [itemSize] using k 1 (by decide)
  · simpa [itemSize] using k 2 (by decide)
  · simpa [itemSize] using k 4 (by decide)
  · simpa [itemSize] using h
  · simpa [itemSize] using k 0xD (by decide)

theorem witness_ImageLoad_layout : check01 leastSection = none := by
  obtain ⟨h1, h2, h3⟩ := witness_ImageLoad_frame
  have h4 : (!imgHeaderOk leastSection || !(required leastSection).all (fun t => (dirEntry leastSection t).isSome) ||
    (tableEntry leastSection (secSelf leastSection)).isNone) = false := by decide +kernel
  have h5 : secHandles leastSection = [] ∧ secSlots leastSection = [] := by decide +kernel
  simp only [check01, h1, h2, h3, h4, h5.1, h5.2, witness_ImageLoad_gaps, witness_ImageLoad_items, Bool.not_true, Bool.or_self,
    Bool.false_eq_true, if_false, List.map_nil, List.dedup_nil, List.length_nil, lt_irrefl, decide_false]

theorem witness_ImageLoad_digest : leAt ((tableEntry leastSection (secSelf leastSection)).getD []) 0x10 8 = leastSection.length ∧
    (((tableEntry leastSection (secSelf leastSection)).getD []).drop 0x18).take 32 = zeros 32 ∧
    imageDigest leastSection = ihDigest leastSection := by
  rw [leastSection_length]
  and_intros <;> decide +kernel

theorem witness_ImageLoad_checks (b : List Byte) (h : b = leastSection) :
    (delivered b).check03 leastSection = none ∧ (delivered b).check04 leastSection = none ∧ check05 leastSection = none ∧
    check06 leastSection = none ∧ check07 leastSection = none ∧ check08 leastSection = none ∧ check09 leastSection = none ∧
    check0A leastSection = none ∧ check0B leastSection = none ∧ check0C leastSection = none ∧ check0D leastSection = none ∧
    check0E leastSection = none := by subst h; and_intros <;> decide +kernel

theorem delivered_sparesShort (b : List Byte) : (delivered b).sparesShort = false := by
  have h : (delivered []).sparesShort = false := by decide +kernel
  have e : (delivered b).sparesShort = (delivered []).sparesShort := rfl
  rw [e, h]

theorem delivered_ready (b : List Byte) :
    let s := delivered b
    s.image.admitDone = false ∧ s.load.section_ ≠ [] ∧ s.load.verdict = 1 ∧ s.mayLoad = true ∧ s.load.held = [] ∧ AtRest s := by
  have h : (delivered b).load.section_ = [(0, b)] := rfl
  have p : PortsFree (delivered b) := by
    have e : PortsFree (delivered []) := by dsimp only [PortsFree]; decide +kernel
    exact e
  refine ⟨rfl, ?_, rfl, rfl, rfl, rfl, List.forall_mem_nil _, p⟩
  rw [h]; exact List.cons_ne_nil _ _

/-- The section's own digest is what the spec leaves open (log 23): where it is the one the table entry states, the least
section is admitted. -/
theorem witness_ImageLoad_admitted (h : Config.sectionDigest leastSection = zeros 32) :
    let s := delivered leastSection
    (s.image.admitDone = false ∧ s.load.section_ ≠ [] ∧ s.load.verdict = 1 ∧ s.mayLoad = true ∧ s.load.held = [] ∧ AtRest s) ∧
      joinRuns s.load.section_ = leastSection ∧ s.admission leastSection = none ∧ s.sparesShort = false := by
  obtain ⟨h3, h4, h5, h6, h7, h8, h9, hA, hB, hC, hD, hE⟩ := witness_ImageLoad_checks leastSection rfl
  obtain ⟨d1, d2, d3⟩ := witness_ImageLoad_digest
  have h2 : check02 leastSection = none := by
    unfold check02; simp only [d1, d2, d3, h, ne_eq, not_true_eq_false, or_self, if_false]
  refine ⟨delivered_ready _, joinRuns_delivered _, ?_, delivered_sparesShort _⟩
  rw [State.admission, State.checks, witness_ImageLoad_layout, h2, h3, h4, h5, h6, h7, h8, h9, hA, hB, hC, hD, hE]
  rfl

/-- A section of one byte fails check 0x01; with a quarter's nine clusters marked, spares are short. -/
theorem witness_ImageLoad_refused :
    (let s := delivered [1#8];
      s.admission [1#8] = some (1, 0) ∧ joinRuns s.load.section_ = [1#8] ∧ s.load.section_ ≠ [] ∧ s.mayLoad = true ∧
      s.load.verdict = 1 ∧ s.image.admitDone = false ∧ s.load.held = [] ∧ AtRest s) ∧
    ((delivered []).wr R.wldCluBad 0x1FF).sparesShort = true := by dsimp only [AtRest, PortsFree]; and_intros <;> decide +kernel

/-- A record of 8 bytes for a keeper, number 256 of chain 0xFFFF. -/
def record8 (kind keeper number : Nat) (xor : Bool) : LoadRecord := ⟨0xFFFF, kind, xor, keeper, 8, 0, number, zeros 7 ++ [1#8]⟩

/-- The device, torus number 0, with a chain entry 7 of a role downstream by port 10, its share and state in handle 1. -/
def loading (done pass : Bool) (role : Nat) (f : Load → Load) : State :=
  ({ served with
    image := { served.image with admitDone := done, admitPass := pass, shareExtents := [⟨511, 1, 0, 8⟩],
                                 stateExtents := [⟨511, 1, 8, 8⟩], shareLen := 0, shareDigest := shareDigest [] }
    tick := Tick.reset
    load := f { Load.reset with windows := [(0xFFFF, 1, [2])] } }).wr R.wldChainCfg (0xFFFF + role * 65536 + 10 * 2 ^ 20) 0 7

theorem witness_ImageLoad :
    (let w := (loading false false 2 id).window 0xFFFF;
      (∀ n ∈ [1, 256], w.1 ≤ n ∧ n < w.1 + 256 ∧ n ∉ w.2) ∧ 0 < w.1 ∧ w.1 + 256 ≤ 257 ∧ 2 ∈ w.2) ∧
    AtRest (loading false false 2 id) ∧ (loading false false 2 id).mayLoad = true ∧
    ({ loading false false 2 id with tick := upRun.tick } : State).mayLoad = false ∧ (record8 1 0 256 false).keeper = (loading false false 2 id).rd R.spnPos ∧
    (record8 1 7 256 false).keeper ≠ (loading false false 2 id).rd R.spnPos ∧
    (let s := loading false false 2 (fun l => { l with verdict := 1 }); s.image.admitDone = false ∧ s.load.verdict ≠ 0) ∧
    (loading false false 2 id).load.verdict = 0 ∧
    ((loading true true 2 id).image.admitDone = true ∧ (loading true true 2 id).image.admitPass = true ∧
      (loading true false 2 id).image.admitPass = false) ∧
    (let s := loading true true 2 id; s.chainOf 0xFFFF = some 7 ∧ s.chainVia 7 ≠ none ∧ s.chainRole 7 ≠ 3) ∧
    (let s := loading true true 3 id; s.chainOf 0xFFFF = some 7 ∧ s.chainVia 7 ≠ none ∧ s.chainRole 7 = 3) ∧
    (loading true true 0 id).chainOf 0xFFFF = none ∧
    (let s := loading true true 2 (fun l => { l with ended := true, verdict := 1, stateBytes := 8 });
      s.load.ended = true ∧ s.image.admitPass = true ∧ s.load.verdict ≤ 1 ∧
      shareDigest (joinRuns s.load.share) = s.image.shareDigest ∧ s.load.shareBytes = s.image.shareLen ∧
      s.load.stateBytes = natSum (s.image.stateExtents.map (·.len))) ∧
    (let s := loading true true 2 (fun l => { l with ended := true, verdict := 1 });
      s.load.stateBytes ≠ natSum (s.image.stateExtents.map (·.len))) ∧
    (let s := loading true true 2 (fun l => { l with ended := true, verdict := 1, shareBytes := 1 });
      s.load.shareBytes ≠ s.image.shareLen) ∧
    (loading true true 2 id).load.ended = false ∧ (loading true true 2 (fun l => { l with verdict := 2 })).load.verdict = 2 := by
  dsimp only [AtRest, PortsFree]; and_intros <;> decide +kernel

/-! ### The host -/

/-- A SUBMIT of class 3 to result slot 4,095, its 4,096 bytes of input from window offset 4,095 on; and a NOP (Table 11-3). -/
def submit3 : List Byte :=
  [2#8, 1#8] ++ leBytes 2 7 ++ [7#8, 3#8] ++ leBytes 2 4095 ++ leBytes 4 4096 ++ leBytes 4 1024 ++ leBytes 8 4095 ++ zeros 40
def nop7 : List Byte := [1#8, 0#8] ++ leBytes 2 7 ++ [7#8] ++ zeros 59

/-- A device whose VF 1 has its last queue, 7, in a state, its root table at 4,096, and reads of the host under way. -/
def hosted (phase : Phase) (x : Queue) (f : HostPort → HostPort) : State :=
  (({ serving 1 (stream1 none false 0) with
    tick := { Tick.reset with state := .run, phase := phase, count := 5 }
    svc := Service.reset
    host := f { up.host with fns := [(0, { Function.reset with ready := true }), (1, { Function.reset with ready := true })],
                             queues := [(64 + 7, x)] } }).wr R.hstQuotaSet 1 0 1).wr R.xltRootLo 4097 0 1

/-- A read of a use under tag 255. -/
def reading (u : ReadUse) : State := hosted .body { running4 with fetching := true } (fun y => { y with reads := [(255, 1, 4096, u)] })

theorem witness_HostRequests :
    up.power.released = true ∧ State.reset.power.released = false ∧ (1 ≤ 256 ∧ 1048320 % 256 + 256 ≤ 256 ∧ 1048320 < 1048576) ∧
    1048576 % 256 + 1 ≤ 256 ∧ ¬1048576 < 1048576 ∧
    (¬((2 = 4 ∨ 2 = 8) ∧ 0 % 2 = 0) ∧ ¬((4 = 4 ∨ 4 = 8) ∧ 2 % 4 = 0) ∧ ¬¬((8 = 4 ∨ 8 = 8) ∧ 0 % 8 = 0)) ∧
    ((pageAt (0 / 4096)).isSome = true ∧ (pageAt (0x1FF6000 / 4096)).isSome = true ∧ 0x8FFF / 4096 ≤ 8) ∧
    (let s := reading (.entry 1 7);
      AtRest s ∧ s.host.readq = [] ∧ s.fabric.atomics = [] ∧
      s.host.reads.find? (fun r => r.1 == 255) = some (255, (1 : Fin 256).val, 4096, .entry 1 7)) ∧
    ((HostRead.unsupported ≠ .poisoned) ∧ ∀ d, HostRead.unsupported ≠ .ok d) ∧
    (let k : Kind3 := ⟨9, 3, head1, word1 0, [], [(4096, ⟨0, 4, false⟩)], []⟩
      let s := hosted .body running4 (fun y => { y with reads := [(255, 1, 4096, .kind3 9 0)], kind3s := [k] });
      AtRest s ∧ s.host.readq = [] ∧ s.fabric.atomics = [] ∧ s.host.reads.find? (fun r => r.1 == 255) = some (255, 1, 4096, .kind3 9 0) ∧
      s.host.kind3s.find? (fun k => k.id == 9) = some k ∧ 3 ≠ 17 ∧ (word1 0).op = 0) ∧
    (let j : Submit := ⟨submit3, [(0, ⟨4095, 1, false⟩), (4096, ⟨4096, 4095, false⟩)], [(0, [1#8])]⟩
      let s := hosted .body { running4 with job := some j } (fun y => { y with reads := [(255, 1, 4096, .input 1 7 1)] });
      s.host.reads.find? (fun r => r.1 == 255) = some (255, 1, 4096, .input 1 7 1) ∧ (s.queue 1 7).job = some j ∧
      (mput j.got 1 (padTo ((j.parts.getD 1 (0, ⟨0, 0, false⟩)).2.len) [2#8])).length = j.parts.length ∧
      s.checkEntry 1 j.entry = 0) ∧
    (up.host.reads.find? (fun r => r.1 == 255) = none) ∧
    (let s := hosted .body { running4 with fetched := some nop7 } id;
      (s.queue 1 7).fetched = some nop7 ∧ (s.queue 1 7).state = .run ∧ s.fnUp 1 = true ∧ cmdAt nop7 0 1 ≠ 2 ∧
      s.checkEntry 1 nop7 = 0 ∧ s.inTick = true ∧ s.checkEntry 1 (0#8 :: nop7.drop 1) ≠ 0 ∧ s.checkEntry 1 (nop7.take 5 ++ [1#8]) ≠ 0) ∧
    (let s := hosted .none { running4 with fetched := some nop7 } id;
      (s.queue 1 7).fetched = some nop7 ∧ s.fnUp 1 = true ∧ s.checkEntry 1 nop7 = 0 ∧ s.inTick = false) ∧
    (up.queue 1 7).fetched = none ∧ cmdAt submit3 0 1 = 2 ∧ (hosted .body running4 id).checkEntry 1 (submit3.set 1 0#8) ≠ 0 := by
  dsimp only [AtRest, PortsFree]; and_intros
  all_goals first
    | decide +kernel
    | (intro d; exact nofun)

/-- Where the BARs do not hold the root table, a SUBMIT's walk begins. -/
theorem witness_HostRequests_walk (h : Config.inDeviceBars 0 4096 4096 = false) :
    let s := hosted .body { running4 with fetched := some submit3 } id
    (s.queue 1 7).fetched = some submit3 ∧ s.checkEntry 1 submit3 = 0 ∧
      (pages (cmdAt submit3 0x10 8) (cmdAt submit3 8 4) false).head? = some ⟨4095, 1, false⟩ ∧
      s.hit 1 (s.va 1 4095) false = none ∧ s.rootOn 1 = true ∧ s.host.reads.length < 1024 ∧ s.inBars (s.root 1) 4096 = false := by
  refine ⟨?_, ?_, ?_, ?_, ?_, ?_, ?_⟩
  · decide +kernel
  · decide +kernel
  · decide +kernel
  · decide +kernel
  · decide +kernel
  · decide +kernel
  · have e : (hosted .body { running4 with fetched := some submit3 } id).root 1 = 4096 := by decide +kernel
    have c : (hosted .body { running4 with fetched := some submit3 } id).host.configs = 0 := by decide +kernel
    rw [State.inBars, e, c]; exact h

theorem witness_HostRequests_invalidation :
    (let s := hosted .none running4 (fun y => { y with inval := some (0, 0, 0, 0) });
      s.host.inval = some (0, 0, 0, 0) ∧ (∀ w ∈ s.host.walks, w.stale = false) ∧ (∀ o ∈ s.host.held, o.meets (0, 0, 0, 0) = false) ∧
      s.svc.egress = []) ∧
    (∃ w ∈ (hosted .none running4 (fun y => { y with walks := [⟨0, 1, ⟨0, 1, false⟩, 1, 4096, [], [], .submit 1 7, true⟩] })).host.walks,
      w.stale = true) ∧
    up.host.inval = none ∧ ((255 : Fin 256).val ≠ 0 ∧ (7 : Fin 2048).val < 8 ∧ 8 ≤ (8 : Fin 2048).val) ∧
    (let s := hosted .none running4 (fun y => { y with fns := [(1, { Function.reset with ready := true, pendingMsg := [7] })] });
      (7 : Fin 2048).val ∈ (s.fn 1).pendingMsg ∧ (s.fn 1).flr = false ∧ s.host.stalled = false ∧
      (6 : Fin 2048).val ∉ (s.fn 1).pendingMsg) := by
  and_intros <;> decide +kernel

/-- A function in reset: its tenant being zeroed, withdrawn, or neither. -/
def resetFn (zeroing : Bool) (withdrawn : List Nat) : State :=
  { up with
    clusters := [(511, thrCluster grp)]
    tick := { Tick.reset with withdrawals := withdrawn }
    host := { up.host with fns := [(255, { Function.reset with flr := true, zeroing := zeroing })] } }

theorem witness_FunctionReset :
    (∀ x ∈ [TickState.idle, .run, .stretch, .hold], let s := { up with tick := { Tick.reset with state := x } };
      AtRest s ∧ s.host.reads = [] ∧ s.host.readq = [] ∧ s.host.walks = [] ∧ s.host.kind3s = [] ∧ s.fabric.atomics = [] ∧
      s.dozing = false ∧ s.tick.state = x) ∧
    ((255 : Fin 256).val ≠ 0 ∧ (up.fn 0).flr = false ∧ (up.fn 255).flr = false ∧ (up.fn 255).ready = true) ∧
    up.power.released = true ∧ up.power.on = true ∧ State.reset.power.released = false ∧
    ({ up with power := { up.power with on := false } } : State).power.on = false ∧
    (((resetFn false []).fn 255).flr = true ∧ ((resetFn false []).fn 255).zeroing = false ∧
      (255 : Fin 256).val ∉ (resetFn false []).tick.withdrawals ∧ (resetFn false []).host.linkUp = true) ∧
    ((resetFn true []).fn 255).zeroing = true ∧ (255 : Fin 256).val ∈ (resetFn false [255]).tick.withdrawals ∧
    (let f := fun (h : Nat × HEntry) => ownedRuns 511 h.2;
      ∃ r ∈ ((thrCluster grp).handles.filter (fun h => hOwner h.2 == 1)).flatMap f, r.1 ≤ spAddr 511 4096 ∧ spAddr 511 4096 < r.1 + r.2) := by
  dsimp only [AtRest, PortsFree]; and_intros <;> decide +kernel

/-! ### Reset, boot and the management paths -/

/-- Firmware of a version, its signature good or not; a flash device of 16 MiB; BIST with its last cluster bad. -/
def copyOf (version : Nat) (sigOk : Bool) : FwCopy := ⟨true, true, true, sigOk, true, version⟩
def flash16 (mib : Nat) : Sfdp := ⟨true, mib, true, true, 5⟩
def bist (fatal : Bool) : Bist := ⟨[543], fatal⟩

/-- A device being booted, BIST ended or not. -/
def booting (bistDone : Bool) : State :=
  { State.reset with power := { Power.reset with released := true, bistDone := bistDone }, island := { Island.reset with ready := true } }

theorem witness_ResetsAndBoot :
    up.power.on = true ∧ ({ up with power := { up.power with on := false } } : State).power.on = false ∧
    (State.reset.power.on = true ∧ State.reset.power.released = false) ∧
    (let s := { State.reset with power := { Power.reset with released := true } };
      s.power.released = true ∧ s.island.ready = false ∧ 1 ∉ s.island.causes) ∧
    ((booting false).power.released = true ∧ (booting false).power.state = .boot ∧ (booting false).power.bistDone = false ∧
      (bist false).fatal = false ∧ (flash16 16).sigOk = true ∧ 16 ≤ (flash16 16).mib ∧ (flash16 15).mib < 16 ∧ (bist true).fatal = true ∧
      543 ∈ (bist false).badClusters) ∧
    ((booting true).power.state = .boot ∧ (booting true).power.bistDone = true ∧ copyGood (copyOf 1 false) = false ∧
      copyGood (copyOf 1 true) = true ∧ (255 : Fin 256).val ≠ 0 ∧ up.power.state ≠ .boot) ∧
    (let s := (({ booting true with ports := [(15, { Port.reset with started := true })] }).wr R.prtCtl 1 15);
      (s.port 15).state = .quiet ∧ (s.modIsland (fun i => { i with firmware := true })).portMayRun 15 = true ∧
      s.power.state = .boot ∧ s.power.bistDone = true) ∧
    ((booting false).power.state = .boot ∧ (booting false).power.bistDone ≠ true) := by decide +kernel

/-- The booted device with a tag operation. -/
def tagged (op : Option (Nat × List Byte × Bool)) : State := up.modTag (fun t => { t with op := op, ready := true })

theorem witness_TagAndFlash :
    (tagged none).tag.op = none ∧ 255 < 256 ∧ 256 < 512 ∧
    (∀ page ∈ [4 * 33, 4 * 47 + 3], page < 256 ∧ ((tagged none).tagBlock (page / 4)).data.length = 16 ∧
      (tagged none).tagWritable (page / 4) = true ∧ page / 4 ≠ 63) ∧
    (∀ b ∈ [32, 48, 79], (tagged none).tagWritable b = false) ∧ (tagged none).tagWritable 127 = true ∧ (zeros 4).length = 4 ∧
    ((3#8 :: zeros 15).length = 16 ∧ ((3#8 :: zeros 15).drop 1).all (fun x => x == 0#8) = true) ∧
    (let s := tagged (some (127, zeros 16, true)); s.tag.op ≠ none ∧ s.tag.op = some (127, zeros 16, true) ∧ s.tag.queue = []) ∧
    (tagged (some (64, zeros 16, false))).tag.op = some (64, zeros 16, false) ∧
    (let r : FaultRecord := ⟨65535, 0x61, 0, 0, 0, 0⟩
      let s := (tagged none).modIsland (fun i => { i with records := [r], recHead := 0, copied := 65535 });
      s.power.on = true ∧ s.island.copied ≠ s.island.recHead ∧ s.tag.op = none ∧ s.tag.queue = [] ∧
      s.island.records.find? (fun x => x.number == s.island.copied) = some r) ∧
    ({ up with power := { up.power with on := false } } : State).power.on = false ∧ up.island.copied = up.island.recHead ∧
    up.flash.op = none ∧ (∀ o ∈ [1, 2, 3], ({ up with flash := { up.flash with op := some (o, 4096, [0#8]) } } : State).flash.op =
      some (o, 4096, [0#8])) ∧
    (let s := { up with flash := { up.flash with bytes := [(4096, 0xFF#8)] } }; s.flashByte 4096 = 0xFF#8 ∧ [0#8][0]? = some 0#8) := by
  and_intros <;> decide +kernel

/-- Trestle node 60 in a state, with frames held; and a good frame's header for it. -/
def node (x : TrsState) (f : Trestle → Trestle) : State :=
  ({ up with trestle := f { Trestle.reset with strap := 60, state := x } }).wr R.trsCfg 0x180
def trsHead (dst src seq : Nat) : TrsHead := ⟨true, true, true, dst, src, seq⟩
def heldFrame (attempts : Nat) (used : Option Nat) : TrsFrame := ⟨3, 0, 7, zeros 4, attempts, used, 0⟩

theorem witness_TrestleNode :
    ((node .follow id).trsOn = true ∧ (node .follow id).trestle.slot = none ∧ (node .follow id).trsId = 60 ∧ State.reset.trsOn = false) ∧
    (∀ dst ∈ [60, 0xFF], let h := trsHead dst 0 7;
      (h.fcsOk && h.lenOk && h.reservedOk) = true ∧ h.src ≠ (node .follow id).trsId ∧ (h.dst = (node .follow id).trsId ∨ h.dst = 0xFF)) ∧
    (∀ off ∈ [(-10 : Int), 10], -10 ≤ off ∧ off ≤ 10) ∧ ¬(11 : Int) ≤ 10 ∧ (node .source id).trestle.state = .source ∧ 59 < 60 ∧
    (∀ x ∈ [TrsState.listen, .silent, .follow, .coast], (node x id).trestle.state = x) ∧
    (let s := node .follow (fun t => { t with held := [heldFrame 6 (some 14)] });
      s.trestle.held = [heldFrame 6 (some 14)] ∧ (heldFrame 6 (some 14)).usedSlot = some 14 ∧ bit (2 ^ 14) 14 = true ∧
      bit 0 14 = false ∧ (heldFrame 6 (some 14)).attempts < 7 ∧ 7 ≤ (heldFrame 7 (some 14)).attempts) ∧
    ({ trsHead 60 0 7 with fcsOk := false }.fcsOk = false ∧ (trsHead 60 60 7).src = (node .follow id).trsId) ∧
    (2 < 3 ∧ 3 ≤ (node .coast (fun t => { t with missed := 3 })).trestle.missed ∧ (node .coast id).trestle.missed < 3) ∧
    ((node .silent id).flag R.trsCfg 7 = true ∧ ((node .silent id).wr R.trsCfg 0x100).flag R.trsCfg 7 = false) ∧
    (let s := node .follow (fun t => { t with grants := 2 ^ 60, held := [heldFrame 0 none] });
      s.trsSends = true ∧ s.trsGranted = true ∧
      s.trestle.held.find? (fun f => decide (f.due ≤ s.power.uptime)) = some (heldFrame 0 none)) ∧
    (node .silent id).trsSends = false ∧ (node .follow id).trsGranted = false ∧
    (∀ n ∈ [0, 1], let s := node .follow (fun t => { t with wait := some n, held := [heldFrame 0 none] });
      s.trestle.wait = some n ∧ s.trestle.held.find? (fun f => f.usedSlot.isNone) = some (heldFrame 0 none)) ∧
    (let s := ({ node .follow id with power := { up.power with state := .doze } }).wr R.pwrWakeEn 8;
      s.flag R.pwrWakeEn 3 = true ∧ s.power.state = .doze) ∧ ((node .follow id).wr R.pwrWakeEn 0).flag R.pwrWakeEn 3 = false := by
  and_intros <;> decide +kernel

theorem witness_TrestleNode_requests :
    (let s := node .follow id
      let o := R.pwrWakeEn.off;
      s.trestle.lastReq.find? (fun p => p.1 == 0) = none ∧ s.dozing = false ∧ trsReqOk 30 0xD040 = true ∧ trsReqOk 31 0xD040 = false ∧
      trsReqOk 0 0xD040 = false ∧ trsReqOk 1 (2 ^ 26 - 4) = true ∧ trsReqOk 1 (2 ^ 26) = false ∧ 0x40 ≤ o ∧
      WritesAt s .trestle .pwr 0 o ∧ (regAt .pwr o).map (fun d => plainReg .pwr o d) = some true ∧
      s.locked (pageNo .pwr 0) = false ∧ s.valueBad .pwr 0 o 8 = false ∧
      (∀ d ∈ regAt .pwr o, (s.setRaw .pwr 0 o 0 (8 &&& d.wmask)).trsOn = true) ∧
      s.pageServed .trestle 0 = true ∧ mayWrite .trestle 0 0x40 = false ∧ s.flag R.trsCfg 8 = true) ∧
    (let s := node .follow (fun t => { t with lastReq := [(0, 65535, zeros 4)] })
      let diff := fun (seq : Nat) => (seq + 65536 - 65535 % 65536) % 65536;
      s.trestle.lastReq.find? (fun p => p.1 == 0) = some (0, 65535, zeros 4) ∧ diff 0 ≠ 0 ∧ diff 0 < 32768 ∧ diff 32766 ≠ 0 ∧
      diff 32766 < 32768 ∧ 32768 ≤ diff 32767 ∧ 32768 ≤ diff 65534 ∧ (trsHead 60 0 65535).seq = 65535) := by
  dsimp only [WritesAt, MayPut]; and_intros <;> decide +kernel

theorem witness_SpiFrames :
    up.spiOn = true ∧ State.reset.spiOn = false ∧
    (∀ n ∈ [1, 1024], let c := w32 (1 * 2 ^ 28 + 14 * 2 ^ 24 + n); spiBad c 0x3FFFFFC#32 = false ∧ spiOp c = 1) ∧
    (∀ n ∈ [0, 1025], spiBad (w32 (1 * 2 ^ 28 + 14 * 2 ^ 24 + n)) 0#32 = true) ∧
    (let c := w32 (2 * 2 ^ 28 + 13 * 2 ^ 24 + 1)
      let o := R.pwrWakeEn.off
      let t := up.spiBegin true;
      spiOp c = 2 ∧ spiBad c (w32 (pageAddr .pwr 0 o)) = false ∧ WritesAt t .spi .pwr 0 o ∧ 0x40 ≤ o ∧
      (regAt .pwr o).map (fun d => plainReg .pwr o d) = some true ∧ (w32 (pageAddr .pwr 0 o)).toNat = pageAddr .pwr 0 o ∧
      t.locked (pageNo .pwr 0) = false ∧ t.valueBad .pwr 0 o 8 = false) ∧
    (let s := { up with spi := { up.spi with inFrame := true, expected := 1 } }; s.spi.inFrame = true ∧ s.spi.expected ≠ 0) ∧
    up.spi.inFrame = false := by
  dsimp only [WritesAt, MayPut]; and_intros <;> decide +kernel

/-! ### The block -/

theorem witness_DroppedFrames : (node .follow id).trsOn = true ∧ { trsHead 60 0 7 with fcsOk := false }.fcsOk = false ∧
    { trsHead 60 0 7 with lenOk := false }.lenOk = false ∧ { trsHead 60 0 7 with reservedOk := false }.reservedOk = false := by
  decide +kernel

theorem witness_StepTakesTheFront :
    ({ up with pending := [.openEnd, .claim (trsHead 60 0 7)] } : State).pending = .openEnd :: [.claim (trsHead 60 0 7)] ∧
      State.reset.pending = [] := ⟨rfl, rfl⟩

/-- Each list of commands has one that answers a next state. -/
theorem witness_CommandFrames :
    (∃ i t, exec i up = .next t ∧ leavesStores i = true) ∧ (∃ i t, exec i up = .next t ∧ leavesUnits i = true) ∧
    (∃ i t, exec i up = .next t ∧ leavesPlant i = true) ∧ (∃ i t, exec i up = .next t ∧ portsOnly i = true) ∧
    (∃ i t, exec i up = .next t ∧ powerOnly i = true) ∧ (∃ i t, exec i up = .next t ∧ servicesOnly i = true) ∧
    (∃ i t, exec i up = .next t ∧ managementOnly i = true) ∧ (∃ i t, exec i up = .next t ∧ tickOnly i = true) ∧
    (∃ i t, exec i up = .next t ∧ spanOnly i = true) ∧ (up.ctx 511 7).hold = 0 ∧
    Agrees (.ld 511 63 0#26) up ∧ Agrees (.slotTx 511 7 0#64) up ∧ Agrees (.slotFrame 3 (good 0) segment0) up :=
  ⟨⟨.scrubVisit (.cluster 511), _, rfl, rfl⟩, ⟨.zeroingComplete 255, _, rfl, rfl⟩, ⟨.shareVerdict, _, rfl, rfl⟩,
    ⟨.claim (trsHead 60 0 7), _, rfl, rfl⟩, ⟨.dozeEntryComplete, _, rfl, rfl⟩, ⟨.holdoverLimit, _, rfl, rfl⟩,
    ⟨.getState true, _, rfl, rfl⟩, ⟨.repairStart, _, rfl, rfl⟩, ⟨.localTickStart, _, rfl, rfl⟩, rfl, rfl, ⟨rfl, rfl⟩, rfl⟩

/-- Memory of one byte is in canonical form, and a step from it answers a next state. -/
theorem witness_StepKeepsInvariant :
    let s : State := { up with mem := [(4096, 1#8)], pending := [.openEnd] }
    s.Inv ∧ ∃ t, step s = .next t := by
  refine ⟨?_, _, rfl⟩
  show memWf [(4096, 1#8)] = true
  decide

/-! ### Well-formedness: for each check, a term it refuses -/

/-- There is no VF 0: every command of a path refuses it (Table 11-2). -/
theorem refused_vf_0 : ([.ack (.vf 0) 0, .routeWrite (.vf 0) 0 0, .roleWrite (.vf 0) 0, .dimsWrite (.vf 0) 0, .posWrite (.vf 0) 0,
    .start (.vf 0), .hold (.vf 0), .resume (.vf 0), .stretchReq (.vf 0) true, .rerunLimitAttemptCapWrite (.vf 0) 0 0,
    .detModeWrite (.vf 0) true, .ctxRestart (.vf 0) 0, .debugHalt (.vf 0) 0, .debugStep (.vf 0) 0, .debugResume (.vf 0) 0,
    .dbgRegDataWrite (.vf 0) 0 0, .progAdv (.vf 0) 0, .hdlWrite (.vf 0) 0, .hdlRead (.vf 0) 0, .laserOff (.vf 0) 0 true,
    .test (.vf 0) 0 true, .loopback (.vf 0) 0 0, .prbsRestart (.vf 0) 0, .spcEnable (.vf 0) 0 true,
    .portEnable (.vf 0) 0 true] : List Instr).all (fun i => !i.wf) = true := by decide +kernel

theorem refused_vf_0_rest : ([.detourSelect (.vf 0) 0, .revokeCntWrite (.vf 0) 0, .chainStart (.vf 0), .chainAbort (.vf 0), .reload (.vf 0),
    .refill (.vf 0) 0, .invalidate (.vf 0) 0, .pubRingDoorbell (.vf 0) 0, .ledgerDoorbell (.vf 0) 0, .newNight (.vf 0),
    .timeSet (.vf 0), .timeLatch (.vf 0), .sqNote (.vf 0) 0, .warm (.vf 0), .avsRetry (.vf 0), .doze (.vf 0), .dozeNote (.vf 0),
    .wake (.vf 0), .kick (.vf 0) 0, .alertAck (.vf 0), .flashErase (.vf 0), .flashProgram (.vf 0), .flashRead (.vf 0)] :
    List Instr).all (fun i => !i.wf) = true := by decide +kernel

/-- Register addresses: within BAR0, of a whole word or pair (Table 00-2, Table 11-2). -/
theorem refused_addresses : ([.registerWrite .pf (2 ^ 26) 0 none, .registerWrite (.vf 1) (2 ^ 20) 0 none, .registerWrite (.vf 0) 0 0 none,
    .registerWrite .pf 2 0 none, .registerWrite .pf 4 0 (some 0), .rcRead .spi (2 ^ 26) false, .rcRead .pf 2 false, .rcRead .pf 4 true,
    .errInfoValidClear .mgmt (2 ^ 26), .freeze .pf (2 ^ 26) true, .lock .pf (2 ^ 26), .bar0BadAccess .pf (2 ^ 26) 2 true,
    .bar2Write 1 (2 ^ 20), .resultSlotRead 1 (2 ^ 20) 4] : List Instr).all (fun i => !i.wf) = true := by decide +kernel

/-- An arrival's sequence number has 48 bits, and a frame comes in at least one codeword; a block's symbols and codewords are
named once, in order, and blocks follow one another. -/
theorem refused_arrivals : ([⟨2 ^ 48, false, [block4 []], true⟩, ⟨0, false, [], true⟩, ⟨0, false, [⟨0, [], []⟩], true⟩,
    ⟨0, false, [⟨0, [5, 5], [0]⟩], true⟩, ⟨0, false, [⟨0, [], [1, 0]⟩], true⟩, ⟨0, false, [block4 [], block4 []], true⟩] :
      List Arrival).all (fun a =>
    !a.wf && !(Instr.marker 0 a 0 (mark 6 1)).wf && !(Instr.vote 0 a (ballot 0)).wf && !(Instr.echo 0 a (ballot 1)).wf &&
      !(Instr.haltReport 0 a (ballot 2)).wf && !(Instr.slotFrame 0 a segment0).wf && !(Instr.req 0 a head1 (word1 0) []).wf &&
      !(Instr.frameForward 0 a through).wf && !(Instr.rsp 0 a head1 noResp []).wf && !(Instr.mgmt 0 a head1 (word1 0) []).wf &&
      !(Instr.mgmtResponse 0 a head1 noResp []).wf && !(Instr.toss 0 a head1 (word1 0) []).wf &&
      !(Instr.status 0 a (List.replicate 11 0) [0, 0, 0, 0]).wf && !(Instr.retry 0 a 0 0 1).wf && !(Instr.replayReq 0 a 0 0).wf &&
      !(Instr.probe 0 a 0 0).wf && !(Instr.probeRsp 0 a 0 0 0 0).wf && !(Instr.finish 0 a [0, 0, 0, 0]).wf &&
      !(Instr.hello 0 ⟨a, { ours with nonce := zeros 32 }⟩).wf && !(Instr.sign 0 ⟨a, []⟩).wf &&
      (!(Instr.idleUnit 0 a.codewords (.unit [])).wf || a.seq == 2 ^ 48)) = true := by
  decide +kernel

/-- A marker's and a vote's fields, one past the largest each. -/
theorem refused_markers : ([{ mark 6 1 with tick := 2 ^ 64 }, { mark 6 1 with attempt := 0 }, { mark 6 1 with attempt := 16 },
    { mark 6 1 with verdict := 4 }, { mark 6 1 with hops := 32 }, { mark 6 1 with keystone := 2048 }, { mark 6 1 with epoch := 65536 },
    { mark 6 1 with sec := 2 ^ 48 }, { mark 6 1 with ns := 1000000000 }, { mark 6 1 with accDelay := 2 ^ 32 },
    { mark 6 1 with len := 2 ^ 24 }] : List Marker).all (fun m => !(Instr.marker 0 (good 1) 0 m).wf) = true ∧
    ([{ ballot 0 with tick := 2 ^ 64 }, { ballot 0 with attempt := 16 }, { ballot 0 with kind := 3 }, { ballot 0 with verdict := 4 },
      { ballot 0 with count := 4096 }, { ballot 0 with code := 256 }, { ballot 0 with unit := 1024 }, { ballot 0 with device := 2048 }] :
      List Vote).all (fun v => !(Instr.vote 0 (good 1) v).wf && !(Instr.echo 0 (good 1) v).wf && !(Instr.haltReport 0 (good 1) v).wf) = true := by
  decide +kernel

/-- The fields of routed and SLOT frames. -/
theorem refused_frames : ([{ head1 with tenant := 256 }, { head1 with dst := 2048 }, { head1 with src := 2048 }, { head1 with vc := 3 },
      { head1 with rank := 65536 }, { head1 with hops := 32 }] : List RHead).all (fun h => !(Instr.req 0 (good 1) h (word1 0) []).wf &&
        !(Instr.frameForward 0 (good 1) { through with head := h }).wf && !(Instr.rsp 0 (good 1) h noResp []).wf &&
        !(Instr.mgmt 0 (good 1) h (word1 0) []).wf && !(Instr.mgmtResponse 0 (good 1) h noResp []).wf &&
        !(Instr.toss 0 (good 1) h (word1 0) []).wf) = true ∧
    ([{ word1 0 with addr := 2 ^ 56 }, word1 3, { word1 0 with atom := 8 }, { word1 0 with size := 8192 }, { word1 0 with issue := 2 ^ 32 },
      { word1 0 with homeUnit := 1024 }, { word1 0 with homeEntry := 1024 }, { word1 0 with cas := 2 ^ 32 }, { word1 0 with hsn := 2 ^ 64 }] :
      List Access).all (fun b => !(Instr.req 0 (good 1) head1 b []).wf && !(Instr.mgmt 0 (good 1) head1 b []).wf &&
        !(Instr.toss 0 (good 1) head1 b []).wf && !(Instr.frameForward 0 (good 1) { through with access := b }).wf) = true ∧
    ([{ noResp with homeUnit := 1024 }, { noResp with homeEntry := 1024 }, { noResp with status := 4 }, { noResp with nack := 256 },
      { noResp with len := 8192 }] : List Response).all (fun r => !(Instr.rsp 0 (good 1) head1 r []).wf &&
        !(Instr.mgmtResponse 0 (good 1) head1 r []).wf && !(Instr.frameForward 0 (good 1) { through with resp := r }).wf) = true ∧
    dataWf (zeros 4097) = false ∧
    ([{ segment0 with tenant := 256 }, { segment0 with slot := 65536 }, { segment0 with seg := 65536 }, { segment0 with poison := true }] :
      List SlotFrame).all (fun f => !(Instr.slotFrame 0 (good 1) f).wf) = true := by
  and_intros <;> decide +kernel

theorem refused_long_data : (Instr.req 0 (good 1) head1 (word1 0) (zeros 4097)).wf = false ∧
    (Instr.frameForward 0 (good 1) { through with data := zeros 4097 }).wf = false ∧
    (Instr.rsp 0 (good 1) head1 noResp (zeros 4097)).wf = false ∧ (Instr.mgmt 0 (good 1) head1 (word1 0) (zeros 4097)).wf = false ∧
    (Instr.mgmtResponse 0 (good 1) head1 noResp (zeros 4097)).wf = false ∧
    (Instr.toss 0 (good 1) head1 (word1 0) (zeros 4097)).wf = false := by and_intros <;> decide +kernel

/-- The lists and numbers of the link's own frames and events. -/
theorem refused_link : ([.measureDone 0 (2 ^ 32), .burstGuardWindow 0 (List.replicate 11 0), .status 0 (good 1) (List.replicate 10 0) [0, 0, 0, 0],
    .status 0 (good 1) (List.replicate 11 65536) [0, 0, 0, 0], .status 0 (good 1) (List.replicate 11 0) [0, 0, 0],
    .status 0 (good 1) (List.replicate 11 0) [0, 0, 0, 2 ^ 48], .retry 0 (good 1) 16 0 1, .retry 0 (good 1) 0 (2 ^ 48) 1,
    .retry 0 (good 1) 0 0 0, .retry 0 (good 1) 0 0 129, .retryTimeout 0 16 0, .retryTimeout 0 0 (2 ^ 48), .replayReq 0 (good 1) 65536 0,
    .replayReq 0 (good 1) 0 (2 ^ 64), .probe 0 (good 1) (2 ^ 64) 0, .probe 0 (good 1) 0 (2 ^ 64), .probeRsp 0 (good 1) (2 ^ 64) 0 0 0,
    .probeRsp 0 (good 1) 0 (2 ^ 64) 0 0, .probeRsp 0 (good 1) 0 0 (2 ^ 64) 0, .probeRsp 0 (good 1) 0 0 0 (2 ^ 64),
    .finish 0 (good 1) [0, 0, 0], .finish 0 (good 1) [2 ^ 48, 0, 0, 0]] : List Instr).all (fun i => !i.wf) = true ∧
    ([{ ours with nonce := zeros 32, serial := 2 ^ 64 }, { ours with nonce := zeros 32, device := 2048 },
      { ours with nonce := zeros 32, port := 16 }, { ours with nonce := zeros 31 }] : List Hello).all (fun h =>
        !(Instr.hello 0 ⟨good 1, h⟩).wf) = true := by and_intros <;> decide +kernel

/-- Records, tiles and the host's numbers. -/
theorem refused_records : (let r := record8 1 0 0 false;
      ([{ r with chain := 65536 }, { r with kind := 256 }, { r with keeper := 2048 }, { r with len := 1985, payload := zeros 1985 },
        { r with offset := 2 ^ 64 }, { r with number := 2 ^ 64 }, { r with len := 9 }] : List LoadRecord).all (fun r =>
        !(Instr.sectionRecord 0 r).wf && !(Instr.shareRecord 0 r).wf && !(Instr.stateRecord 0 r).wf && !(Instr.endRecord 0 r).wf) = true) ∧
    (let t := tile1 0;
      ([{ t with dstIp := 2 ^ 128 }, { t with dstPort := 65536 }, { t with srcIp := 2 ^ 128 }, { t with magic := 2 ^ 32 },
        { t with version := 256 }, { t with sensor := 256 }, { t with len := 65536 }, { t with exposure := 2 ^ 32 },
        { t with index := 2 ^ 32 }, { t with count := 2 ^ 32 }, { t with sec := 2 ^ 48 }, { t with ns := 1000000000 }] : List Tile).all
        (fun t => !(Instr.tile 0 t).wf) = true) ∧
    ([.hostReadCompletion 16384 .unsupported, .completionTimeout 16384, .frameWindowClose (2 ^ 32) 0, .frameWindowClose 0 256] :
      List Instr).all (fun i => !i.wf) = true := by and_intros <;> decide +kernel

/-- Tick control, power, Trestle, SPI and tag operands. -/
theorem refused_management : ([.rerunLimitAttemptCapWrite .pf 16 0, .rerunLimitAttemptCapWrite .pf 0 256, .telemetryRead [65536] [],
    .telemetryRead [] [65536], .thermalThreshold (List.replicate 35 0), .thermalThreshold (List.replicate 36 4096), .junctionTrip 0 4096,
    .sensorImplausible 0 4096, .beacon (trsHead 256 0 0) 0 0 false 0 0 0, .beacon (trsHead 0 0 0) (2 ^ 32) 0 false 0 0 0,
    .beacon (trsHead 0 0 0) 0 256 false 0 0 0, .beacon (trsHead 0 0 0) 0 0 false (2 ^ 15) 0 0, .beacon (trsHead 0 0 0) 0 0 false 0 (2 ^ 64) 0,
    .claim (trsHead 0 256 0), .trestleRead (trsHead 0 0 65536) 1 0, .trestleRead (trsHead 0 0 0) 256 0, .trestleRead (trsHead 0 0 0) 1 (2 ^ 32),
    .trestleWrite (trsHead 256 0 0) 0 [], .trestleWrite (trsHead 0 0 0) (2 ^ 32) [], .trestleWrite (trsHead 0 0 0) 0 (List.replicate 31 0),
    .trestleWake (trsHead 256 0 0), .spiRead 0 0 (2 ^ 24 + 1) false, .tagRead 256 true, .tagWrite 256 (zeros 4) true,
    .tagWrite 0 (zeros 3) true, .readWide 65536 true, .writeBlock 256 (zeros 16) true, .writeBlock 0 (zeros 15) true] : List Instr).all (fun i => !i.wf) = true := by decide +kernel

/-! ### Functions with check values in the spec or in print -/

/-- R189: an aligned access of 128 bytes has c = 1 with k = 2 to 5, 2 with k = 1 and 4 with k = 0, in every hash mode. -/
theorem test_bank_conflicts :
    let e (hash k : Nat) : HEntry := BitVec.ofNat 128 (1 + hash * 2 ^ 5 + k * 2 ^ (32 + 22) + 4096 * 2 ^ 64)
    [0, 1, 2].all (fun h => [(0, 4), (1, 2), (2, 1), (3, 1), (4, 1), (5, 1)].all (fun p =>
      [0, 128, 1152].all (fun o => clkOf (hAddrs 3 (e h p.1) o 128 0) == p.2))) = true := by decide +kernel

/-- SHA-256 of "abc" (R334 uses FIPS 180-4's function). -/
theorem test_sha256 : sha256 [0x61#8, 0x62#8, 0x63#8] =
    (leBytes 32 0xba7816bf8f01cfea414140de5dae2223b00361a396177a9cb410ff61f20015ad).reverse := by decide +kernel

/-- CRC-32C of "123456789" (Table 12-3). -/
theorem test_crc32c : crc32c (((List.range 9).map (fun i => BitVec.ofNat 8 (0x31 + i)))) = 0xE3069283 := by decide +kernel

/-- No row of the opcode table has bits, so no word spells a command. -/
theorem test_no_word : decodeTableWord 32 0x12345678 = none ∧ State.reset.pending = [] := ⟨rfl, rfl⟩

end Sys2Proof.Tests
end

section
/-!
PROOF. Register reads and page headers (00 R4; 17 R444 to R449): what a read by any path answers and clears, and what a write of
a page's header does. Settles O15.
-/
namespace Sys2Proof.Machine

/-! ### Sparse tables cut by key -/

/-- Keeping the entries whose keys satisfy `q`. -/
theorem mfind_filter {α : Type} (q : Nat → Bool) (m : NMap α) (k : Nat) :
    mfind (m.filter (fun x => q x.1)) k = if q k then mfind m k else none := by
  induction m with
  | nil => simp [mfind]
  | cons x r ih =>
    obtain ⟨a, v⟩ := x
    by_cases e : a = k
    · subst e
      cases ha : q a <;> simp [mfind, ih, ha]
    · cases ha : q a <;> simp [mfind, ih, ha, e]

/-- A key is absent where no entry has it. -/
theorem mfind_eq_none_iff {α : Type} (m : NMap α) (k : Nat) : mfind m k = none ↔ k ∉ m.map Prod.fst := by
  induction m with
  | nil => simp [mfind]
  | cons x r ih =>
    obtain ⟨a, v⟩ := x
    by_cases e : a = k
    · simp [mfind, e]
    · rw [List.map_cons, List.mem_cons, not_or, ← ih]
      simp [mfind, e, Ne.symm e]

/-! ### Register keys -/

/-- Every page of the map has a 16-bit number (Table 17-3, Table 11-2). -/
theorem lt_of_pageAt {n : Nat} {x : PageType × Nat} (h : pageAt n = some x) : n < 65536 := by
  by_contra hn
  have far : 0x5000 ≤ n := by omega
  simp [pageAt, show ¬ n < 19 by omega, show ¬ n < 0x60 by omega, show ¬ n < 0x90 by omega, show ¬ n < 0x94 by omega,
    show ¬ n < 0x2000 by omega, show ¬ n < 0x5000 by omega] at h

/-- A register's key names its page. -/
theorem regKey_page {pg off : Nat} (bank : Nat) (hp : pg < 65536) (ho : off < 4096) :
    regKey pg off bank / 1024 % 65536 = pg := by
  unfold regKey
  omega

/-- No register above a page's header has the key of the header's CTL. -/
theorem regKey_ne_ctl {pg off : Nat} (bank : Nat) (h : 0x40 ≤ off) (ho : off < 4096) :
    regKey pg off bank ≠ regKey pg hCtl 0 := by
  unfold regKey hCtl
  omega

theorem le_off_of_mem_regsOf (t : PageType) : ∀ d ∈ regsOf t, 0x40 ≤ d.off := by
  cases t <;> decide

/-- The header holds none of a page's own registers (R443). -/
theorem regFor_header {off : Nat} (p : Path) (t : PageType) (h : off < 0x40) : regFor p t off = none := by
  have none_at : regAt t off = none := by
    refine List.find?_eq_none.mpr fun d hd => ?_
    have := le_off_of_mem_regsOf t d hd
    simp [show ¬ d.off ≤ off by omega]
  simp [regFor, none_at]

/-! ### Accesses that land -/

theorem Lands.aligned {s : State} {p : Path} {addr i off : Nat} {t : PageType} (h : Lands s p addr t i off) : addr % 4 = 0 := by
  obtain ⟨-, ho, hm, -⟩ := h
  omega

/-- Where an access lands rests on power and the island alone. -/
theorem Lands.of_same {s u : State} {p : Path} {addr i off : Nat} {t : PageType} (hp : u.power = s.power)
    (hi : u.island = s.island) (h : Lands s p addr t i off) : Lands u p addr t i off := by
  simpa [Lands, State.pageServed, State.dozing, hp, hi] using h

/-- A read that lands on a register answers its value. -/
theorem State.readWord_lands {s : State} {p : Path} {addr i off : Nat} {t : PageType} (h : Lands s p addr t i off)
    (hr : off < 0x40 ∨ (regFor p t off).isSome) : s.readWord p addr = s.regValue t i off := by
  obtain ⟨hpg, rfl, -, hat, hserved, hwin, hawake⟩ := h
  simp [State.readWord, hpg, hat, hserved, hwin, hawake, hr]

/-- An access that lands is none of a sleeping cluster's pages. -/
theorem State.dozeCount_lands {s : State} {p : Path} {addr i off : Nat} {t : PageType} (h : Lands s p addr t i off) :
    s.dozeCount p addr = s := by
  obtain ⟨hpg, -, -, hat, hserved, -, hawake⟩ := h
  have uncounted : ¬(clusterPage (pageNo t i) = true ∧ s.dozing = true) := by simpa using hawake
  simp [State.dozeCount, hpg, hat, hserved, uncounted]

/-- A host read of ERR_CNT clears it. -/
theorem State.rcClear_errCnt {s : State} {p : Path} {addr i : Nat} {t : PageType} (h : Lands s p addr t i hErrCnt) :
    s.rcClear p addr = s.setHdr (pageNo t i) hErrCnt 0 := by
  obtain ⟨hpg, ho, -, hat, hserved, -, hawake⟩ := h
  simp [State.rcClear, State.readClears, hpg, ho, hat, hserved, hawake, State.setRaw, State.setHdr]

/-- A host read of an RC counter clears it. -/
theorem State.rcClear_rc {s : State} {p : Path} {addr i off : Nat} {t : PageType} {d : RegDef} (h : Lands s p addr t i off)
    (h40 : 0x40 ≤ off) (hd : regFor p t off = some d) (hrc : d.acc = .rc) :
    s.rcClear p addr = s.setRaw t i off (s.bankOf d.bank i) 0 := by
  obtain ⟨hpg, rfl, -, hat, hserved, -, hawake⟩ := h
  have hne : addr % 4096 ≠ hErrCnt := by unfold hErrCnt; omega
  simp [State.rcClear, State.readClears, hpg, hne, hat, hserved, hawake, hd, hrc]

/-- A read of any other register clears nothing. -/
theorem State.rcClear_other {s : State} {p : Path} {addr i off : Nat} {t : PageType} (h : Lands s p addr t i off)
    (hne : off ≠ hErrCnt) (hrc : ∀ d, regFor p t off = some d → d.acc ≠ .rc) : s.rcClear p addr = s := by
  obtain ⟨hpg, rfl, -, hat, hserved, -, hawake⟩ := h
  have none_cleared : s.readClears p addr = none := by
    simp only [State.readClears, hpg, hat, hserved, hawake, hne]
    cases hd : regFor p t (addr % 4096) with
    | none => rfl
    | some d => simp [hrc d hd]
  simp [State.rcClear, none_cleared]

/-! ### Reads -/

/-- What a word's read by a path leaves: a host's read clears (R4). -/
def State.leftByRead (s : State) (p : Path) (addr : Nat) : State := if pathClears p then s.rcClear p addr else s

theorem State.leftByRead_clears {s : State} {p : Path} (addr : Nat) (h : pathClears p = true) :
    s.leftByRead p addr = s.rcClear p addr := by simp [State.leftByRead, h]

/-- A read by a path that clears nothing, or of a register that none clears, leaves the state. -/
theorem State.leftByRead_other {s : State} {p : Path} {addr i off : Nat} {t : PageType} (h : Lands s p addr t i off)
    (hk : pathClears p = false ∨ (off ≠ hErrCnt ∧ ∀ d, regFor p t off = some d → d.acc ≠ .rc)) : s.leftByRead p addr = s := by
  unfold State.leftByRead
  split
  case isFalse => rfl
  case isTrue hc =>
    obtain hk | ⟨hne, hrc⟩ := hk
    · simp [hk] at hc
    · exact State.rcClear_other h hne hrc

theorem exec_rcRead (p : Path) (addr : Nat) (wide : Bool) (s : State) :
    exec (.rcRead p addr wide) s = execRcRead p addr wide s := rfl

/-- RC_READ of one word, where it lands on a register. -/
theorem exec_rcRead_lands {s : State} {p : Path} {addr i off : Nat} {t : PageType} (h : Lands s p addr t i off)
    (hr : off < 0x40 ∨ (regFor p t off).isSome) :
    exec (.rcRead p addr false) s =
      .next ((s.leftByRead p addr).send (.regData p addr (w32 (s.regValue t i off)) none)) := by
  simp [exec_rcRead, execRcRead, State.regRead, h.aligned, State.readWord_lands h hr, State.dozeCount_lands h, State.leftByRead]

/-- RC_READ of two words, where both land on registers: in one clk, the low word's first (R447). -/
theorem exec_rcRead_lands_wide {s : State} {p : Path} {addr i off : Nat} {t : PageType} (h8 : addr % 8 = 0)
    (h : Lands s p addr t i off) (h' : Lands s p (addr + 4) t i (off + 4)) (hr : (regFor p t off).isSome)
    (hr' : (regFor p t (off + 4)).isSome) :
    exec (.rcRead p addr true) s = .next (((s.leftByRead p addr).leftByRead p (addr + 4)).send
      (.regData p addr (w32 (s.regValue t i off)) (some (w32 (s.regValue t i (off + 4)))))) := by
  simp only [exec_rcRead, execRcRead, State.regRead, h8, State.readWord_lands h (.inr hr), State.readWord_lands h' (.inr hr'),
    State.dozeCount_lands h, State.leftByRead, ite_self, if_true, ne_eq, not_true_eq_false, if_false]
  cases pathClears p <;> rfl

/-- A misaligned read answers 0 and changes nothing (R447). -/
theorem exec_rcRead_misaligned (s : State) (p : Path) {addr : Nat} {wide : Bool} (h : addr % (if wide then 8 else 4) ≠ 0) :
    exec (.rcRead p addr wide) s = .next (s.send (.regData p addr 0#32 (if wide then some 0#32 else none))) := by
  simp [exec_rcRead, execRcRead, State.regRead, h]

/-- An aligned read where the word reads as 0 and nothing is cleared: only the doze count may change. -/
theorem exec_rcRead_zero {s : State} {p : Path} {addr : Nat} (h4 : addr % 4 = 0) (hv : s.readWord p addr = 0)
    (hc : ((if p = .spi then s else s.dozeCount p addr) : State).readClears p addr = none) :
    exec (.rcRead p addr false) s =
      .next ((if p = .spi then s else s.dozeCount p addr).send (.regData p addr 0#32 none)) := by
  simp [exec_rcRead, execRcRead, State.regRead, h4, hv, w32, State.rcClear, hc]

/-- What no page serves reads as 0, and its read changes nothing (R448, R369). -/
theorem exec_rcRead_unserved {s : State} {p : Path} {addr : Nat}
    (h : s.pageServed p (pathPage p addr) = false ∨
      (inWindow (pathPage p addr) (addr % 4096) = false ∧ pageAt (pathPage p addr) = none)) :
    exec (.rcRead p addr false) s = .next (s.send (.regData p addr 0#32 none)) := by
  by_cases h4 : addr % 4 = 0
  case neg => exact exec_rcRead_misaligned s p (wide := false) h4
  have zero : s.readWord p addr = 0 := by
    obtain h | ⟨hwin, hat⟩ := h
    · simp [State.readWord, h]
    · simp [State.readWord, hwin, hat]
  have uncounted : s.dozeCount p addr = s := by
    obtain h | ⟨-, hat⟩ := h
    · simp [State.dozeCount, h]
    · simp [State.dozeCount, hat]
  have uncleared : s.readClears p addr = none := by
    obtain h | ⟨-, hat⟩ := h
    · simp [State.readClears, h]
    · simp [State.readClears, hat]
  have e := exec_rcRead_zero h4 zero (by rwa [uncounted, ite_self])
  rwa [uncounted, ite_self] at e

/-- A sleeping cluster's page reads as 0, and every path but SPI's counts the access (R449, R430). -/
theorem exec_rcRead_asleep {s : State} {p : Path} {addr : Nat} (h4 : addr % 4 = 0)
    (hserved : s.pageServed p (pathPage p addr) = true) (hat : (pageAt (pathPage p addr)).isSome = true)
    (hwin : inWindow (pathPage p addr) (addr % 4096) = false) (hcluster : clusterPage (pathPage p addr) = true)
    (hdoze : s.dozing = true) :
    exec (.rcRead p addr false) s =
      .next ((if p = .spi then s else s.cnt R.errDozeAcc).send (.regData p addr 0#32 none)) := by
  obtain ⟨x, hx⟩ := Option.isSome_iff_exists.mp hat
  have zero : s.readWord p addr = 0 := by simp [State.readWord, hserved, hwin, hx, hcluster, hdoze]
  have counted : s.dozeCount p addr = s.cnt R.errDozeAcc := by simp [State.dozeCount, hserved, hcluster, hx, hdoze]
  have still : (s.cnt R.errDozeAcc).dozing = true := by simpa [State.dozing] using hdoze
  have e := exec_rcRead_zero h4 zero (by split <;> simp [counted, State.readClears, hcluster, hdoze, still])
  rwa [counted] at e

/-! ### Header writes (R443 to R446) -/

/-- A header write that lands and that no lock refuses. -/
theorem State.regWrite_head {s : State} {p : Path} {addr i off : Nat} {t : PageType} {v : Word}
    (h : LandsWrite s p addr t i off) (h40 : off < 0x40) (hl : s.locked (pageNo t i) = false ∨ (off ≠ hCtl ∧ off ≠ hIrqEn)) :
    s.regWrite p addr v none = s.writeHead (pageNo t i) off v.toNat := by
  refine State.regWrite_ok h.1.aligned ?_
  obtain ⟨⟨hpg, rfl, -, hat, hserved, hwin, hawake⟩, hmay⟩ := h
  obtain hl | ⟨hctl, hen⟩ := hl
  · simp [State.writeWord, hpg, hat, hserved, hwin, hawake, hmay, h40, hl]
  · simp [State.writeWord, hpg, hat, hserved, hwin, hawake, hmay, h40, hctl, hen]

/-- A locked page refuses a write of CTL (R446). -/
theorem State.regWrite_locked_ctl {s : State} {p : Path} {addr i : Nat} {t : PageType} (v : Word)
    (h : LandsWrite s p addr t i hCtl) (hl : s.locked (pageNo t i) = true) :
    s.regWrite p addr v none = s.refusesAt p addr (pageNo t i) 0x12 := by
  refine State.regWrite_refused (u := s) (b := false) h.1.aligned ?_
  obtain ⟨⟨hpg, ho, -, hat, hserved, hwin, hawake⟩, hmay⟩ := h
  have h40 : hCtl < 0x40 := by decide
  simp [State.writeWord, hpg, ho, hat, hserved, hwin, hawake, hmay, h40, hl, State.refuseWrite]

/-- R444: ERR_INFO.valid written 1 releases the capture. -/
theorem exec_errInfoValidClear {s : State} {p : Path} {addr i : Nat} {t : PageType}
    (h : LandsWrite s p (headAddr addr hErrInfo) t i hErrInfo) :
    exec (.errInfoValidClear p addr) s =
      .next (s.setHdr (pageNo t i) hErrInfo (s.hdr (pageNo t i) hErrInfo % 2 ^ 30)) := by
  change Host.Outcome.next (s.regWrite p (headAddr addr hErrInfo) (w32 (2 ^ 31)) none) = _
  rw [State.regWrite_head h (by decide) (.inr (by decide))]
  rfl

/-- R445: CTL.freeze of a page that is not locked. -/
theorem exec_freeze {s : State} {p : Path} {addr i : Nat} {t : PageType} (on : Bool)
    (h : LandsWrite s p (headAddr addr hCtl) t i hCtl) (hl : s.locked (pageNo t i) = false) :
    exec (.freeze p addr on) s = .next (s.setFreeze (pageNo t i) on) := by
  change Host.Outcome.next (s.regWrite p (headAddr addr hCtl) (w32 (b2n on)) none) = _
  rw [State.regWrite_head h (by decide) (.inl hl)]
  cases on <;> rfl

/-- R446: LOCK of a page, locked or not. -/
theorem exec_lock {s : State} {p : Path} {addr i : Nat} {t : PageType} (h : LandsWrite s p (headAddr addr hLock) t i hLock) :
    exec (.lock p addr) s = .next (s.setHdr (pageNo t i) hLock 1) := by
  change Host.Outcome.next (s.regWrite p (headAddr addr hLock) 1#32 none) = _
  rw [State.regWrite_head h (by decide) (.inr (by decide))]
  rfl

/-! ### The end of a freeze (R445) -/

/-- One hidden count is added to its counter. -/
def addHidden (m : NMap Word) (x : Nat × Nat) : NMap Word := mput m x.1 (w32 (satAdd (mget 0#32 m x.1).toNat x.2))

theorem State.unfreeze_regs (s : State) (pg : Nat) :
    (s.unfreeze pg).regs = (s.hidden.filter (fun x => x.1 / 1024 % 65536 == pg)).foldl addHidden s.regs := rfl

/-- Nothing is left hidden of the page. -/
theorem State.unfreeze_hidden_page (s : State) {pg key : Nat} (h : key / 1024 % 65536 = pg) :
    mfind (s.unfreeze pg).hidden key = none := by
  have e := mfind_filter (fun k => k / 1024 % 65536 != pg) s.hidden key
  simp only [h, bne_self_eq_false, Bool.false_eq_true, if_false] at e
  exact e

/-- Hidden counts of other keys leave a register. -/
theorem mget_addHidden_absent {key : Nat} (m : NMap Word) {l : NMap Nat} (h : mfind l key = none) :
    mget 0#32 (l.foldl addHidden m) key = mget 0#32 m key := by
  rw [mfind_eq_none_iff] at h
  induction l generalizing m with
  | nil => rfl
  | cons x r ih =>
    simp only [List.map_cons, List.mem_cons, not_or] at h
    obtain ⟨hx, hr⟩ := h
    rw [List.foldl_cons, ih _ hr]
    exact mget_mput_ne _ _ _ hx

theorem w32_satAdd_zero (w : Word) : w32 (satAdd w.toNat 0) = w := by
  have : satAdd w.toNat 0 = w.toNat := by
    have := w.isLt
    unfold satAdd cntMax
    omega
  rw [this]
  simp [w32]

/-- Each counter gains its hidden count, saturating (R472). -/
theorem mget_addHidden (key : Nat) (m : NMap Word) {l : NMap Nat} (hl : (l.map Prod.fst).Nodup) :
    mget 0#32 (l.foldl addHidden m) key = w32 (satAdd (mget 0#32 m key).toNat (mget 0 l key)) := by
  induction l generalizing m with
  | nil => exact (w32_satAdd_zero _).symm
  | cons x r ih =>
    obtain ⟨a, n⟩ := x
    rw [List.map_cons, List.nodup_cons] at hl
    obtain ⟨ha, hr⟩ := hl
    by_cases e : a = key
    · subst e
      rw [List.foldl_cons, mget_addHidden_absent _ ((mfind_eq_none_iff _ _).mpr ha)]
      simp [addHidden, mget, mfind]
    · rw [List.foldl_cons, ih _ hr]
      simp [addHidden, mget, mfind, e, mfind_mput_ne _ _ (Ne.symm e)]

/-- The end of a freeze leaves a register of which nothing is hidden. -/
theorem State.unfreeze_absent (s : State) (pg : Nat) {key : Nat} (h : mfind s.hidden key = none) :
    mget 0#32 (s.unfreeze pg).regs key = mget 0#32 s.regs key := by
  refine mget_addHidden_absent s.regs ?_
  have e := mfind_filter (fun k => k / 1024 % 65536 == pg) s.hidden key
  simpa [h] using e

/-- The end of a freeze adds to each of the page's counters what was hidden of it. -/
theorem State.unfreeze_counter (s : State) {pg key : Nat} (hs : (s.hidden.map Prod.fst).Nodup) (h : key / 1024 % 65536 = pg) :
    mget 0#32 (s.unfreeze pg).regs key = w32 (satAdd (mget 0#32 s.regs key).toNat (mget 0 s.hidden key)) := by
  have e := mfind_filter (fun k => k / 1024 % 65536 == pg) s.hidden key
  have found : mget 0 (s.hidden.filter (fun x => x.1 / 1024 % 65536 == pg)) key = mget 0 s.hidden key := by
    simp only [h, beq_self_eq_true, if_true] at e
    simp only [mget, e]
  rw [State.unfreeze_regs, mget_addHidden key s.regs (hs.sublist (List.filter_sublist.map _)), found]

theorem State.setHdr_regs_ne (s : State) {pg off v key : Nat} (h : key ≠ regKey pg off 0) :
    mget 0#32 (s.setHdr pg off v).regs key = mget 0#32 s.regs key := mget_mput_ne _ _ _ h

/-- While a page is frozen its counters stand, and a count gathers aside (R445). -/
theorem State.cnt_frozen (s : State) {r : Reg} {i : Nat} (n bank idx : Nat) (h : bit (s.hdr (pageNo r.page i) hCtl) 0 = true) :
    (s.cnt r i n bank idx).regs = s.regs := by
  simp [State.cnt, h]

/-! ### The obligation -/

/-- R4, R447: what a read that lands on a register leaves, by its path and the register's access. -/
theorem rcRead_reg {s : State} {p : Path} {addr i off : Nat} {t : PageType} {d : RegDef} (h : Lands s p addr t i off)
    (h40 : 0x40 ≤ off) (hd : regFor p t off = some d) :
    (pathClears p = true → d.acc = .rc → s.leftByRead p addr = s.setRaw t i off (s.bankOf d.bank i) 0) ∧
      (pathClears p = false ∨ d.acc ≠ .rc → s.leftByRead p addr = s) := by
  have hne : off ≠ hErrCnt := by unfold hErrCnt; omega
  refine ⟨fun hp hrc => ?_, fun hk => ?_⟩
  · rw [State.leftByRead_clears addr hp, State.rcClear_rc h h40 hd hrc]
  · refine State.leftByRead_other h (hk.imp_right fun hrc => ⟨hne, fun d' hd' => ?_⟩)
    obtain rfl : d = d' := Option.some.inj (hd.symm.trans hd')
    exact hrc

/-- R445: the end of a freeze of a page that is not locked. -/
theorem setFreeze_false_spec (s : State) {pg : Nat} (hpg : pg < 65536) :
    (mfind s.hidden (regKey pg hCtl 0) = none → (s.setFreeze pg false).hdr pg hCtl = 0) ∧
      (∀ key, key / 1024 % 65536 = pg → mfind (s.setFreeze pg false).hidden key = none) ∧
      ((s.hidden.map Prod.fst).Nodup → ∀ off bank, 0x40 ≤ off → off < 4096 →
        mget 0#32 (s.setFreeze pg false).regs (regKey pg off bank) =
          w32 (satAdd (mget 0#32 s.regs (regKey pg off bank)).toNat (mget 0 s.hidden (regKey pg off bank)))) := by
  have e : s.setFreeze pg false = (s.setHdr pg hCtl 0).unfreeze pg := rfl
  rw [e]
  refine ⟨fun hn => ?_, fun key hk => State.unfreeze_hidden_page _ hk, fun hs off bank h40 ho => ?_⟩
  · have stays := State.unfreeze_absent (s.setHdr pg hCtl 0) pg hn
    rw [State.hdr, stays]
    exact State.setHdr_hdr s pg hCtl 0
  · have added := State.unfreeze_counter (s.setHdr pg hCtl 0) hs (regKey_page bank hpg ho)
    rwa [State.setHdr_regs_ne s (regKey_ne_ctl bank h40 ho)] at added

/-- Settles O15: each read goes through what its landing word answers and clears, each header write through `State.writeHead`, and
the end of a freeze through the fold of the hidden counts, one addition a key. -/
theorem registerReadsAndHeaders : Obligations.RegisterReadsAndHeaders := by
  unfold Obligations.RegisterReadsAndHeaders
  refine ⟨fun s p addr t i off h => ?_, fun s p addr => ?_, fun s p addr t i => ?_⟩
  · refine ⟨fun d h40 hd => ?_, fun ho hp => ?_, fun h40 hk => ?_⟩
    · have read := exec_rcRead_lands h (.inr (Option.isSome_of_mem hd))
      obtain ⟨clears, keeps⟩ := rcRead_reg h h40 hd
      refine ⟨fun hp hrc => ?_, fun hk => ?_, fun d2 h8 h' hd2 => ?_⟩
      · rw [read, clears hp hrc]
      · rw [read, keeps hk]
      · have both := exec_rcRead_lands_wide h8 h h' (Option.isSome_of_mem hd) (Option.isSome_of_mem hd2)
        refine ⟨fun hp hrc hrc2 => ?_, fun hk => ?_⟩
        · have landsAfter := h'.of_same (u := s.setRaw t i off (s.bankOf d.bank i) 0) rfl rfl
          rw [both, clears hp hrc, (rcRead_reg landsAfter (by omega) hd2).1 hp hrc2]
        · rw [both, keeps (hk.imp_right And.left), (rcRead_reg h' (by omega) hd2).2 (hk.imp_right And.right)]
    · subst ho
      rw [exec_rcRead_lands h (.inl (by decide)), State.leftByRead_clears addr hp, State.rcClear_errCnt h]
    · rw [exec_rcRead_lands h (.inl h40),
        State.leftByRead_other h (hk.imp_right fun hne => ⟨hne, by simp [regFor_header p t h40]⟩)]
  · exact ⟨exec_rcRead_misaligned s p (wide := false), exec_rcRead_misaligned s p (wide := true), exec_rcRead_unserved,
      exec_rcRead_asleep⟩
  · refine ⟨exec_errInfoValidClear, fun h => ⟨fun hl => ⟨exec_freeze true h hl, ?_⟩, fun hl on => ?_⟩, exec_lock,
      fun r idx n hr hz => ?_⟩
    · obtain ⟨-, -, -, hat, -⟩ := h.1
      exact ⟨_, exec_freeze false h hl, setFreeze_false_spec s (lt_of_pageAt hat)⟩
    · exact congrArg Host.Outcome.next (State.regWrite_locked_ctl _ h hl)
    · subst hr
      have stands := State.cnt_frozen s n 0 idx hz
      exact ⟨stands, by simp only [State.rd, State.rawAt, stands]⟩

end Sys2Proof.Machine
end

section
/-!
PROOF. Stored registers above the page headers and the writes of RW registers (17 R443, R450, R455), and the span's
configuration writes (01 R16, R17; 02 R33, R56, R58, R61). Settles O16.
-/
namespace Sys2Proof.Machine

/-! ### Registers above the headers -/

/-- Every register above the page headers, behind every selector, stands as before. -/
def SameAbove (s t : State) : Prop := ∀ k, 16 ≤ k % 1024 → mfind t.regs k = mfind s.regs k

theorem SameAbove.of_regs {s t : State} (h : t.regs = s.regs) : SameAbove s t := fun k _ => by rw [h]

theorem SameAbove.trans {s t u : State} (h : SameAbove s t) (h' : SameAbove t u) : SameAbove s u :=
  fun k hk => (h' k hk).trans (h k hk)

/-- What is stored at an offset above the header is the same. -/
theorem SameAbove.rawAt {s t : State} (h : SameAbove s t) (p : PageType) (i bank : Nat) {off : Nat} (h40 : 0x40 ≤ off)
    (ho : off < 4096) : t.rawAt p i off bank = s.rawAt p i off bank := by
  have hk : 16 ≤ regKey (pageNo p i) off bank % 1024 := by unfold regKey; omega
  simp only [State.rawAt, h _ hk]

theorem State.setHdr_sameAbove (s : State) (pg v : Nat) {off : Nat} (ho : off < 0x40) : SameAbove s (s.setHdr pg off v) := by
  intro k hk
  refine mfind_mput_ne _ _ ?_
  unfold regKey
  omega

/-- An interrupt register is stored; what it signals stores nothing. -/
theorem State.setIrq_regs (s : State) (pg off v : Nat) : (s.setIrq pg off v).regs = (s.setHdr pg off v).regs := by
  simp only [State.setIrq]
  repeat' split
  all_goals simp

theorem State.setIrq_sameAbove (s : State) (pg v : Nat) {off : Nat} (ho : off < 0x40) : SameAbove s (s.setIrq pg off v) :=
  (s.setHdr_sameAbove pg v ho).trans (.of_regs (s.setIrq_regs pg off v))

theorem State.event_sameAbove (s : State) (p : PageType) (i n : Nat) : SameAbove s (s.event p i n) :=
  State.setIrq_sameAbove _ _ _ (by decide)

/-- Steps that each keep the registers above the headers, folded over a list. -/
theorem State.each_sameAbove {α : Type} (l : List α) {f : State → α → State} (h : ∀ s a, SameAbove s (f s a)) (s : State) :
    SameAbove s (s.each l f) := by
  induction l generalizing s with
  | nil => exact .of_regs rfl
  | cons a l ih => exact (h s a).trans (ih _)

/-! ### The ports follow SPN.DIMS (R13) -/

theorem State.portState_sameAbove (s : State) (p : Nat) (x : PortState) : SameAbove s (s.portState p x) := by
  simp only [State.portState]
  split
  · exact .trans (.of_regs rfl) (State.event_sameAbove _ .prt p 2)
  · exact .of_regs rfl

theorem State.toDetect_sameAbove (s : State) (p : Nat) : SameAbove s (s.toDetect p) := by
  refine SameAbove.trans (.trans (.of_regs rfl) (State.portState_sameAbove (s.modPort p _) p .detect))
    (State.each_sameAbove _ (fun t l => ?_) _)
  unfold State.sendTraining
  split <;> exact .of_regs rfl

theorem State.followDims_sameAbove (s : State) : SameAbove s s.followDims := by
  refine State.each_sameAbove _ (fun t p => ?_) s
  split
  · exact .trans (.of_regs rfl) (State.portState_sameAbove (t.dropLink p) p .quiet)
  · split
    · exact State.toDetect_sameAbove t p
    · exact .of_regs rfl

theorem State.followDims_sameButPorts (s : State) : SameButPorts s s.followDims := by
  refine SameButPorts.each (SameButPorts.refl s) (fun t p => ?_)
  split
  · exact (State.modPort_sameButPorts t p _).trans (State.portState_sameButPorts ..)
  · split
    · exact State.toDetect_sameButPorts t p
    · exact SameButPorts.refl t

/-! ### RW registers (R450, R455) -/

/-- A write stores the value's RW bits: the register holds no W1C bit, and no selector picks a copy of it. -/
def Storing (d : RegDef) : Prop := (d.acc = .rw ∨ d.acc = .ro) ∧ d.wmask ≠ 0 ∧ d.w1c = 0 ∧ d.bank = .none

/-- The state once a written value is stored, with what follows from it, and in force where no seal is to come (R33). -/
def State.stores (s : State) (t : PageType) (i off : Nat) (d : RegDef) (v : Nat) : State :=
  ((s.setRaw t i off 0 (kept t off (v &&& d.wmask))).afterWrite t i off (s.rawAt t i off 0) v).deferred t i off 0

/-- A write of a storing register of a page that is not locked is the write of its RW bits. -/
theorem State.writeReg_storing {s : State} {p : Path} {t : PageType} {i addr off v : Nat} {d : RegDef} (ho : addr % 4096 = off)
    (hd : Storing d) (ht : t ≠ .tgp ∨ off < 0x60) (hl : s.locked (pageNo t i) = false) :
    s.writeReg p t i addr d v = (s.writeRw t i off d v).wrote s p (pageNo t i) addr := by
  obtain ⟨hacc, hmask, hw1c, -⟩ := hd
  have noDebug : ¬(t = .tgp ∧ 0x60 ≤ off ∧ p ≠ .pf ∧ p ≠ .debug) := by
    rintro ⟨rfl, h, -⟩
    obtain ht | ht := ht
    · exact ht rfl
    · omega
  obtain hacc | hacc := hacc <;> simp [State.writeReg, ho, noDebug, hacc, hmask, hw1c, hl]

/-- A value the register accepts is stored. -/
theorem State.writeRw_stores {s : State} {t : PageType} {i off v : Nat} {d : RegDef} (hd : Storing d) (ht : t ≠ .tgp ∨ off < 0x60)
    (hq : t ≠ .hsq) (hv : s.valueBad t i off v = false) : s.writeRw t i off d v = .done (s.stores t i off d v) := by
  obtain ⟨-, -, -, hbank⟩ := hd
  have noDebug : ¬(t = .tgp ∧ off = 0x74) := by
    rintro ⟨rfl, rfl⟩
    simp at ht
  simp [State.writeRw, noDebug, hq, hv, hbank, State.bankOf, State.stores]

/-- A value the register refuses leaves it. -/
theorem State.writeRw_refused {s : State} {t : PageType} {i off v : Nat} {d : RegDef} (ht : t ≠ .tgp) (hq : t ≠ .hsq)
    (hv : s.valueBad t i off v = true) : s.writeRw t i off d v = .refused := by
  simp [State.writeRw, ht, hq, hv]

/-- In RUN a value that waits for a seal is not in force. -/
theorem State.deferred_run {s : State} (h : s.tick.state = .run) (t : PageType) (i off bank : Nat) :
    s.deferred t i off bank = s := by
  simp [State.deferred, h]

/-! ### What comes into force in IDLE or HOLD -/

/-- The registers that a seal's effect stores into: SPN.ROLE loses `pending` (R17), and a new placement brings its lengths (R281). -/
def sealStores : List Reg := [R.spnRole, R.tckLen, R.tckRepair, R.tckFreeTotal]

/-- A register's key. -/
def Reg.key (r : Reg) : Nat := regKey (pageNo r.page 0) r.off 0

theorem State.wr_mfind_ne (s : State) {r : Reg} (v : Nat) {k : Nat} (h : k ≠ r.key) :
    mfind (s.wr r v).regs k = mfind s.regs k := mfind_mput_ne _ _ h

theorem State.takeAll_mfind (s : State) {k : Nat} (h : ∀ r ∈ sealStores, k ≠ r.key) :
    mfind s.takeAll.regs k = mfind s.regs k := by
  obtain ⟨hrole, hlen, hrepair, hfree⟩ : k ≠ R.spnRole.key ∧ k ≠ R.tckLen.key ∧ k ≠ R.tckRepair.key ∧ k ≠ R.tckFreeTotal.key := by
    simpa [sealStores] using h
  have role : mfind s.takeRole.regs k = mfind s.regs k := by
    simp only [State.takeRole, State.when]
    split
    · exact State.wr_mfind_ne _ _ hrole
    · rfl
  have placement (u : State) : mfind u.takePlacement.regs k = mfind u.regs k := by
    simp only [State.takePlacement]
    split
    · rfl
    · split
      · rw [State.wr_mfind_ne _ _ hfree, State.wr_mfind_ne _ _ hrepair, State.wr_mfind_ne _ _ hlen]
        rfl
      · rfl
  have spare (u : State) : u.spareStops.regs = u.regs := by
    unfold State.spareStops
    split <;> rfl
  rw [State.takeAll, spare, placement]
  exact role

/-- Coming into force leaves every register that no seal stores into. -/
theorem State.deferred_rd (s : State) {r : Reg} (h : ∀ x ∈ sealStores, r.key ≠ x.key) (t : PageType) (i off bank : Nat) :
    (s.deferred t i off bank).rd r = s.rd r := by
  have same : mfind (s.deferred t i off bank).regs r.key = mfind s.regs r.key := by
    unfold State.deferred
    split
    · rfl
    · split
      · exact State.takeAll_mfind s h
      · split <;> rfl
      · rfl
  change (match mfind (s.deferred t i off bank).regs r.key with | some w => w.toNat | none => _) = _
  rw [same]
  rfl

/-! ### The span's registers -/

/-- A storing register of the SPN or the TCK page, and its definition. -/
def SpanReg (r : Reg) (d : RegDef) : Prop := Reaches r 0 0 d ∧ Storing d ∧ (r.page = .spn ∨ r.page = .tck)

theorem SpanReg.page_ne {r : Reg} {d : RegDef} (h : SpanReg r d) : r.page ≠ .tgp ∧ r.page ≠ .hsq := by
  obtain ⟨-, -, h | h⟩ := h <;> simp [h]

/-- A value that a span register accepts is stored. -/
theorem State.put_stores {s : State} {p : Path} {r : Reg} {d : RegDef} {v : Nat} (hr : SpanReg r d) (hw : Writes s p r)
    (hl : Unlocked s r) (hv : s.valueBad r.page 0 r.off (w32 v).toNat = false) :
    s.put p r v = s.stores r.page 0 r.off d (w32 v).toNat := by
  obtain ⟨noDebug, noQueue⟩ := hr.page_ne
  obtain ⟨hreach, hd, -⟩ := hr
  have ho : regAddr r 0 0 % 4096 = r.off := regAddr_off hreach
  refine State.put_ok hreach hw.1 ?_
  rw [State.writeReg_storing ho hd (.inl noDebug) hl, State.writeRw_stores hd (.inl noDebug) noQueue hv]
  rfl

/-- A value that a span register refuses is logged, and the register kept. -/
theorem State.put_valueBad {s : State} {p : Path} {r : Reg} {d : RegDef} {v : Nat} (hr : SpanReg r d) (hw : Writes s p r)
    (hl : Unlocked s r) (hv : s.valueBad r.page 0 r.off (w32 v).toNat = true) :
    s.put p r v = s.refuses p r.page 0 r.off 0x10 := by
  obtain ⟨noDebug, noQueue⟩ := hr.page_ne
  obtain ⟨hreach, hd, -⟩ := hr
  have ho : regAddr r 0 0 % 4096 = r.off := regAddr_off hreach
  have wrote : s.writeReg p r.page 0 (regAddr r 0 0) d (w32 v).toNat =
      s.refuseWrite p (pageNo r.page 0) (regAddr r 0 0) 0x10 := by
    rw [State.writeReg_storing ho hd (.inl noDebug) hl, State.writeRw_refused noDebug noQueue hv]
    rfl
  rw [State.put_refused hreach hw.1 wrote]
  simp [State.refuses, State.refusesAt, pageAddr, regAddr]

/-- A stored value that no register follows reads back; in RUN nothing comes into force. -/
theorem State.stores_spec {s : State} {r : Reg} {d : RegDef} {v n : Nat}
    (hn : kept r.page r.off (v &&& d.wmask) % 2 ^ 32 = n)
    (hfollow : ∀ u old, State.afterWrite u r.page 0 r.off old v = u)
    (hdefer : s.tick.state = .run ∨ deferredAt r.page r.off = false ∨ ∀ x ∈ sealStores, r.key ≠ x.key) :
    (s.stores r.page 0 r.off d v).rd r = n ∧ (s.tick.state = .run → (s.stores r.page 0 r.off d v).eff = s.eff) := by
  subst hn
  have stored (u : State) : (u.setRaw r.page 0 r.off 0 (kept r.page r.off (v &&& d.wmask))).rd r =
    kept r.page r.off (v &&& d.wmask) % 2 ^ 32 := State.setRaw_rawAt ..
  simp only [State.stores, hfollow]
  refine ⟨?_, fun h => by rw [State.deferred_run (by simpa using h)]; simp⟩
  obtain h | h | h := hdefer
  · rw [State.deferred_run (by simpa using h), stored]
  · simp only [State.deferred, h, if_true, stored]
  · rw [State.deferred_rd _ h, stored]

theorem spnRole_spanReg : SpanReg R.spnRole ⟨0x048, 1, 4, .ro, 0x0, 0xFF, 0x1F, 0x0, .none, false⟩ := by
  simp only [SpanReg, Reaches, Storing]; decide

theorem spnDims_spanReg : SpanReg R.spnDims ⟨0x058, 1, 4, .rw, 0x0, 0xF1F1F, 0xF1F1F, 0x0, .none, false⟩ := by
  simp only [SpanReg, Reaches, Storing]; decide

theorem spnPos_spanReg : SpanReg R.spnPos ⟨0x05C, 1, 4, .rw, 0x7FF, 0x7FF, 0x7FF, 0x0, .none, false⟩ := by
  simp only [SpanReg, Reaches, Storing]; decide

theorem spnCtl_spanReg : SpanReg R.spnCtl ⟨0x040, 1, 4, .rw, 0x0, 0x1, 0x1, 0x0, .none, false⟩ := by
  simp only [SpanReg, Reaches, Storing]; decide

theorem tckCtl_spanReg : SpanReg R.tckCtl ⟨0x040, 1, 4, .rw, 0x80003, 0xFF010F, 0xFF010F, 0x0, .none, false⟩ := by
  simp only [SpanReg, Reaches, Storing]; decide

/-! ### TCK.CTL's fields (R56) -/

/-- TCK.CTL with rerun_limit and attempt_cap set holds them, within 24 bits. -/
theorem limitCap_bits {old limit cap : Nat} (hl : limit ≤ 15) (hc : cap < 256) (ho : old < 2 ^ 24) :
    let new := setBits (setBits old 3 0 limit) 23 16 cap
    bits new 3 0 = limit ∧ bits new 23 16 = cap ∧ new < 2 ^ 32 := by
  simp only [setBits, bits]
  norm_num at ho ⊢
  omega

/-- TCK.CTL refuses a limit of 0, a cap above 15 and a cap below the limit. -/
theorem State.tckCtl_valueBad {s : State} {v limit cap : Nat} (hl : bits v 3 0 = limit) (hc : bits v 23 16 = cap)
    (hlimit : limit ≤ 15) : s.valueBad .tck 0 0x40 v = !decide (1 ≤ limit ∧ limit ≤ cap ∧ cap ≤ 15) := by
  have e : s.valueBad .tck 0 0x40 v = (outside limit 1 15 || outside cap 1 15 || decide (cap < limit)) := by
    simp [State.valueBad, State.spanValueBad, hl, hc]
  rw [e, Bool.eq_iff_iff]
  simp only [outside, Bool.or_eq_true, decide_eq_true_eq, Bool.not_eq_true', decide_eq_false_iff_not]
  omega

/-! ### The obligation -/

theorem w32_toNat_of_lt {n : Nat} (h : n < 2 ^ 32) : (w32 n).toNat = n := by simpa [w32] using h

theorem w32_toNat (v : Word) : w32 v.toNat = v := by simp [w32]

theorem and_mod_of_lt (x : Nat) {m : Nat} (h : m < 2 ^ 32) : (x &&& m) % 2 ^ 32 = x &&& m :=
  Nat.mod_eq_of_lt (Nat.lt_of_le_of_lt Nat.and_le_right h)

/-- R16, R17: a role set the spec allows waits as pending; another is refused. -/
theorem roleWrite_spec {s : State} {p : Path} {v : Word} (hw : Writes s p R.spnRole) (hl : Unlocked s R.spnRole) :
    (roleOk (bits v.toNat 4 0) ((s.port 14).ethernet || (s.port 15).ethernet) = true → s.tick.state = .run →
      Gives (.roleWrite p v) s (fun t => t.rd R.spnRole = v.toNat % 32 + 128 ∧ (s.tick.state = .run → t.eff = s.eff))) ∧
    (roleOk (bits v.toNat 4 0) ((s.port 14).ethernet || (s.port 15).ethernet) = false →
      exec (.roleWrite p v) s = .next (s.refuses p .spn 0 0x48 0x10)) := by
  have bad : s.valueBad .spn 0 0x48 v.toNat = !roleOk (bits v.toNat 4 0) ((s.port 14).ethernet || (s.port 15).ethernet) := rfl
  refine ⟨fun hok hrun => ⟨_, rfl, ?_⟩, fun hbad => congrArg Host.Outcome.next ?_⟩
  · rw [State.put_stores spnRole_spanReg hw hl (by rw [w32_toNat]; simp [R.spnRole, bad, hok]), w32_toNat]
    refine State.stores_spec ?_ (fun _ _ => rfl) (.inl hrun)
    have low : v.toNat &&& 0x1F = v.toNat % 32 := Nat.and_two_pow_sub_one_eq_mod v.toNat 5
    simp only [R.spnRole, kept, low]
    norm_num
    omega
  · exact State.put_valueBad spnRole_spanReg hw hl (by rw [w32_toNat]; simp [R.spnRole, bad, hbad])


/-- R455: dimensions the spec allows are stored while no image is loaded, and the ports follow; others are refused. -/
theorem dimsWrite_spec {s : State} {p : Path} {v : Word} (hw : Writes s p R.spnDims) (hl : Unlocked s R.spnDims) :
    (s.image.loaded = false → dimsOk v.toNat = true → Gives (.dimsWrite p v) s (fun t =>
      t.rd R.spnDims = v.toNat &&& 0xF1F1F ∧ (s.tick.state = .run → t.eff = s.eff))) ∧
    (s.image.loaded = true ∨ dimsOk v.toNat = false → exec (.dimsWrite p v) s = .next (s.refuses p .spn 0 0x58 0x10)) := by
  have bad : s.valueBad .spn 0 0x58 v.toNat = (s.image.loaded || !dimsOk v.toNat) := rfl
  refine ⟨fun hi hok => ⟨_, rfl, ?_⟩, fun h => congrArg Host.Outcome.next ?_⟩
  · have follows : s.put p R.spnDims v.toNat = (s.setRaw .spn 0 0x58 0 (v.toNat &&& 0xF1F1F)).followDims := by
      rw [State.put_stores spnDims_spanReg hw hl (by rw [w32_toNat]; simp [R.spnDims, bad, hi, hok]), w32_toNat]
      rfl
    have stands := (State.followDims_sameAbove (s.setRaw .spn 0 0x58 0 (v.toNat &&& 0xF1F1F))).rawAt .spn 0 0
      (off := 0x58) (by decide) (by decide)
    rw [follows]
    refine ⟨stands.trans ?_, fun _ => (State.followDims_sameButPorts _).1⟩
    rw [State.setRaw_rawAt, and_mod_of_lt _ (by decide)]
  · exact State.put_valueBad spnDims_spanReg hw hl (by rw [w32_toNat]; simpa [R.spnDims, bad] using h)

/-- R455: the device's position is stored while no image is loaded. -/
theorem posWrite_spec {s : State} {p : Path} {v : Word} (hw : Writes s p R.spnPos) (hl : Unlocked s R.spnPos) :
    (s.image.loaded = false → Gives (.posWrite p v) s (fun t =>
      t.rd R.spnPos = v.toNat &&& 0x7FF ∧ (s.tick.state = .run → t.eff = s.eff))) ∧
    (s.image.loaded = true → exec (.posWrite p v) s = .next (s.refuses p .spn 0 0x5C 0x10)) := by
  have bad : s.valueBad .spn 0 0x5C v.toNat = s.image.loaded := rfl
  refine ⟨fun hi => ⟨_, rfl, ?_⟩, fun hi => congrArg Host.Outcome.next ?_⟩
  · rw [State.put_stores spnPos_spanReg hw hl (by rw [w32_toNat]; exact bad.trans hi), w32_toNat]
    exact State.stores_spec (and_mod_of_lt _ (by decide)) (fun _ _ => rfl) (.inr (.inl rfl))
  · exact State.put_valueBad spnPos_spanReg hw hl (by rw [w32_toNat]; exact bad.trans hi)

/-- R56, R58: a value of TCK.CTL that it accepts is stored, and in RUN waits for a seal. -/
theorem tckCtl_stored {s : State} {p : Path} {v : Nat} (hw : Writes s p R.tckCtl) (hl : Unlocked s R.tckCtl)
    (hv : s.valueBad .tck 0 0x40 (w32 v).toNat = false) :
    (s.put p R.tckCtl v).rd R.tckCtl = (w32 v).toNat &&& 0xFF010F ∧
      (s.tick.state = .run → (s.put p R.tckCtl v).eff = s.eff) := by
  rw [State.put_stores tckCtl_spanReg hw hl hv]
  exact State.stores_spec (and_mod_of_lt _ (by decide)) (fun _ _ => rfl) (.inr (.inr (by decide)))

/-- R56: a rerun limit from 1 to the attempt cap, and a cap to 15, are stored; others are refused. -/
theorem rerunLimitAttemptCapWrite_spec {s : State} {p : Path} {limit cap : Nat} (hw : Writes s p R.tckCtl)
    (hl : Unlocked s R.tckCtl) (ho : s.rd R.tckCtl < 2 ^ 24) :
    (1 ≤ limit → limit ≤ cap → cap ≤ 15 → Gives (.rerunLimitAttemptCapWrite p limit cap) s (fun t =>
      t.rd R.tckCtl = setBits (setBits (s.rd R.tckCtl) 3 0 limit) 23 16 cap &&& 0xFF010F ∧
      (s.tick.state = .run → t.eff = s.eff))) ∧
    (limit = 0 ∨ cap < limit ∨ 15 < cap → limit ≤ 15 → cap < 256 →
      exec (.rerunLimitAttemptCapWrite p limit cap) s = .next (s.refuses p .tck 0 0x40 0x10)) := by
  refine ⟨fun h1 h2 h3 => ⟨_, rfl, ?_⟩, fun h h4 h5 => congrArg Host.Outcome.next ?_⟩
  · obtain ⟨hlimit, hcap, hlt⟩ := limitCap_bits (by omega : limit ≤ 15) (by omega : cap < 256) ho
    have word := w32_toNat_of_lt hlt
    have stored := tckCtl_stored (v := setBits (setBits (s.rd R.tckCtl) 3 0 limit) 23 16 cap) hw hl (by
      rw [word, State.tckCtl_valueBad hlimit hcap (by omega)]
      simp [h1, h2, h3])
    rwa [word] at stored
  · obtain ⟨hlimit, hcap, hlt⟩ := limitCap_bits h4 h5 ho
    refine State.put_valueBad tckCtl_spanReg hw hl ?_
    rw [w32_toNat_of_lt hlt]
    refine (State.tckCtl_valueBad hlimit hcap h4).trans ?_
    have refused : ¬(1 ≤ limit ∧ limit ≤ cap ∧ cap ≤ 15) := by omega
    simp [refused]

/-- R61: det_mode is stored, and in RUN waits for a seal. -/
theorem detModeWrite_spec {s : State} {p : Path} (on : Bool) (hw : Writes s p R.spnCtl) (hl : Unlocked s R.spnCtl) :
    Gives (.detModeWrite p on) s (fun t => t.rd R.spnCtl = (w32 (setBits (s.rd R.spnCtl) 0 0 (b2n on))).toNat &&& 1 ∧
      (s.tick.state = .run → t.eff = s.eff)) := by
  refine ⟨_, rfl, ?_⟩
  rw [State.putField, State.put_stores spnCtl_spanReg hw hl rfl]
  exact State.stores_spec (and_mod_of_lt _ (by decide)) (fun _ _ => rfl) (.inr (.inr (by decide)))

/-- Settles O16: each write reaches its register, whose page accepts or refuses the value; an accepted one is stored, and what
`State.deferred` brings into force in IDLE or HOLD leaves it. -/
theorem spanRegisters : Obligations.SpanRegisters := by
  unfold Obligations.SpanRegisters
  intro s p v on limit cap
  refine ⟨fun hw hl => roleWrite_spec hw hl, fun hw hl => dimsWrite_spec hw hl, fun hw hl => posWrite_spec hw hl,
    fun hw hl => ⟨fun hv => ⟨_, rfl, tckCtl_stored hw hl hv⟩, fun h1 h2 h3 ho => ?_, fun h h4 h5 ho => ?_⟩,
    fun hw hl => detModeWrite_spec on hw hl⟩
  · exact (rerunLimitAttemptCapWrite_spec hw hl ho).1 h1 h2 h3
  · exact (rerunLimitAttemptCapWrite_spec hw hl ho).2 h h4 h5

end Sys2Proof.Machine
end

section
/-!
PROOF. The free plane (09 R239, R249, R251, R253, R254): what a port's sending and receipt leave, when nothing moves of
itself, and that an answer which waits at an output stays there.
-/
namespace Sys2Proof.Machine

/-! ### What a port's work leaves -/

/-- Ports, registers, their hidden counts and what is sent apart, nothing of the device has changed. -/
def LinkOnly (s t : State) : Prop := ∃ ports out regs hidden, t = { s with ports := ports, out := out, regs := regs, hidden := hidden }

theorem LinkOnly.refl (s : State) : LinkOnly s s := ⟨_, _, _, _, rfl⟩

theorem LinkOnly.trans {s t u : State} (h : LinkOnly s t) (h' : LinkOnly t u) : LinkOnly s u := by
  obtain ⟨_, _, _, _, rfl⟩ := h
  obtain ⟨_, _, _, _, rfl⟩ := h'
  exact ⟨_, _, _, _, rfl⟩

theorem LinkOnly.fabric {s t : State} (h : LinkOnly s t) : t.fabric = s.fabric := by
  obtain ⟨_, _, _, _, rfl⟩ := h; rfl

theorem LinkOnly.host {s t : State} (h : LinkOnly s t) : t.host = s.host := by
  obtain ⟨_, _, _, _, rfl⟩ := h; rfl

theorem LinkOnly.island {s t : State} (h : LinkOnly s t) : t.island = s.island := by
  obtain ⟨_, _, _, _, rfl⟩ := h; rfl

theorem State.modPort_linkOnly (s : State) (p : Nat) (f : Port → Port) : LinkOnly s (s.modPort p f) := ⟨_, _, _, _, rfl⟩

theorem State.wr_linkOnly (s : State) (r : Reg) (v i bank idx : Nat) : LinkOnly s (s.wr r v i bank idx) := ⟨_, _, _, _, rfl⟩

theorem State.cnt_linkOnly (s : State) (r : Reg) (i n bank idx : Nat) : LinkOnly s (s.cnt r i n bank idx) := by
  simp only [State.cnt]
  split
  · exact ⟨_, _, _, _, rfl⟩
  · exact State.wr_linkOnly ..

theorem State.transmit_linkOnly (s : State) (p : Nat) (f : Frame) : LinkOnly s (s.transmit p f) := by
  unfold State.transmit
  split
  · exact ⟨_, _, _, _, rfl⟩
  · exact .refl s

/-- A port's work that leaves also every output's queue and the registers of the pages ERR and SPN. -/
structure LinkStep (s t : State) : Prop where
  only : LinkOnly s t
  queues : ∀ q, (t.port q).queue = (s.port q).queue
  regs : ∀ k, k < 2048 → mfind t.regs k = mfind s.regs k

theorem LinkStep.refl (s : State) : LinkStep s s := ⟨.refl s, fun _ => rfl, fun _ _ => rfl⟩

theorem LinkStep.trans {s t u : State} (h : LinkStep s t) (h' : LinkStep t u) : LinkStep s u :=
  ⟨h.only.trans h'.only, fun q => (h'.queues q).trans (h.queues q), fun k hk => (h'.regs k hk).trans (h.regs k hk)⟩

theorem LinkStep.when {s t : State} {f : State → State} (c : Bool) (h : LinkStep s t) (hf : LinkStep t (f t)) :
    LinkStep s (t.when c f) := by
  cases c
  · exact h
  · exact h.trans hf

theorem LinkStep.each {α : Type} {l : List α} {f : State → α → State} (h : ∀ s a, LinkStep s (f s a)) (s : State) :
    LinkStep s (s.each l f) := by
  induction l generalizing s with
  | nil => exact .refl s
  | cons a l ih => exact (h s a).trans (ih _)

theorem LinkStep.pos {s t : State} (h : LinkStep s t) : t.rd R.spnPos = s.rd R.spnPos := by
  have same := h.regs (regKey (pageNo .spn 0) 0x5C 0) (by decide)
  change (match mfind t.regs (regKey (pageNo .spn 0) 0x5C 0) with | some w => w.toNat | none => _) = _
  rw [same]
  rfl

/-- A port changed but for its queue. -/
theorem State.modPort_linkStep (s : State) (p : Nat) {f : Port → Port} (h : ∀ x, (f x).queue = x.queue) :
    LinkStep s (s.modPort p f) := by
  refine ⟨State.modPort_linkOnly s p f, fun q => ?_, fun _ _ => rfl⟩
  rw [State.modPort_port]
  split
  · rename_i e; rw [h, e]
  · rfl

/-- A register of a page above SPN's, stored. -/
theorem State.wr_linkStep (s : State) (r : Reg) (v i bank idx : Nat) (h : 2 ≤ pageNo r.page i) :
    LinkStep s (s.wr r v i bank idx) := by
  refine ⟨State.wr_linkOnly .., fun _ => rfl, fun k hk => mfind_mput_ne _ _ ?_⟩
  unfold regKey
  omega

theorem State.cnt_linkStep (s : State) (r : Reg) (i n bank idx : Nat) (h : 2 ≤ pageNo r.page i) :
    LinkStep s (s.cnt r i n bank idx) := by
  simp only [State.cnt]
  split
  · exact ⟨⟨_, _, _, _, rfl⟩, fun _ => rfl, fun _ _ => rfl⟩
  · exact State.wr_linkStep _ _ _ _ _ _ h

/-! ### Sending on a port (R238, R240) -/

theorem State.transmit_linkStep (s : State) (p : Nat) (f : Frame) : LinkStep s (s.transmit p f) := by
  refine ⟨State.transmit_linkOnly s p f, fun _ => ?_, fun _ _ => ?_⟩ <;> (unfold State.transmit; split <;> rfl)

theorem State.modSeq_linkStep (s : State) (p cls : Nat) (f : ClassSeq → ClassSeq) : LinkStep s (s.modSeq p cls f) :=
  s.modPort_linkStep p fun _ => rfl

theorem State.spend_linkStep (s : State) (p pool n : Nat) : LinkStep s (s.spend p pool n) := s.modPort_linkStep p fun _ => rfl

theorem State.release_linkStep (s : State) (p pool n : Nat) : LinkStep s (s.release p pool n) := s.modPort_linkStep p fun _ => rfl

theorem State.freeUnits_linkStep (s : State) (p : Nat) (f : RFrame) : LinkStep s (s.freeUnits p f) := by
  unfold State.freeUnits
  split
  · exact .refl s
  · exact State.release_linkStep ..

theorem State.sendNow_linkStep (s : State) (p : Nat) (c : Content) : LinkStep s (s.sendNow p c) :=
  ((State.modSeq_linkStep s p c.cls _).when _ (State.spend_linkStep ..)).trans (State.transmit_linkStep ..)

theorem State.sendOn_linkStep (s : State) (p : Nat) (c : Content) : LinkStep s (s.sendOn p c) := by
  unfold State.sendOn
  split
  · exact .refl s
  · split
    · exact State.sendNow_linkStep ..
    · exact State.modSeq_linkStep ..

/-! ### Receipt of a frame that is good (R210, R239, R241) -/

theorem State.codeword_linkStep (s : State) (p : Nat) (errs : List Nat) : LinkStep s (s.codeword p errs) := by
  have prt : 2 ≤ pageNo .prt p := by simp only [pageNo]; omega
  unfold State.codeword
  extract_lets lo hi s1 k
  have counted : LinkStep s s1 := by
    dsimp only [s1]
    split
    · split
      · exact .refl s
      · exact (State.wr_linkStep s R.prtCwLo _ p 0 0 prt).trans (State.wr_linkStep _ R.prtCwHi _ p 0 0 prt)
    · exact State.wr_linkStep s R.prtCwLo _ p 0 0 prt
  split
  · exact counted
  · refine counted.trans ?_
    split
    · exact (State.cnt_linkStep s1 R.prtUncCnt p 1 0 0 prt).trans (State.modPort_linkStep _ p (by intro; rfl))
    · exact ((State.cnt_linkStep s1 R.prtCorrCnt p 1 0 0 prt).trans (State.cnt_linkStep _ R.prtHist p 1 0 _ prt)).trans
        (LinkStep.each (fun t l => State.cnt_linkStep t R.prtLaneSym p 1 l 0 prt) _)

theorem State.takeBlocks_linkStep (s : State) (p : Nat) (l : Codewords) : LinkStep s (s.takeBlocks p l) := by
  refine LinkStep.each (fun t b => ?_) s
  unfold State.codeBlock
  split
  · exact .refl t
  · exact (State.modPort_linkStep t p (by intro; rfl)).trans (LinkStep.each (fun u i => State.codeword_linkStep u p (lanesOf b i)) _)

/-- A frame whose number is accepted, of the phase in use or of the old one. -/
theorem State.accept_good {s t : State} {p cls q : Nat} {old : Bool} (h : s.accept p cls q old = (t, .good)) : LinkStep s t := by
  unfold State.accept at h
  dsimp only at h
  split at h
  · simp at h
  · rename_i c' hc
    obtain ⟨rfl, -⟩ := Prod.mk.inj h
    refine LinkStep.when _ (LinkStep.when _ ?_ (State.sendOn_linkStep ..)) (State.release_linkStep ..)
    split
    · exact State.modPort_linkStep s p fun _ => rfl
    · exact (State.modSeq_linkStep s p cls _).trans (State.modPort_linkStep _ p (by intro; rfl))

/-- A frame that is received whole and goes on. -/
theorem State.receive_good {s : State} {p cls : Nat} {a : Arrival} (h : (s.receive p cls a).2 = .good) :
    LinkStep s (s.receive p cls a).1 := by
  obtain ⟨t, ht⟩ : ∃ t, s.receive p cls a = (t, .good) := ⟨_, Prod.ext rfl h⟩
  rw [ht]
  unfold State.receive at ht
  split at ht
  · simp at ht
  · dsimp only at ht
    split at ht
    · simp at ht
    · split at ht
      · simp at ht
      · split at ht
        · simp at ht
        · exact (LinkStep.when _ (State.takeBlocks_linkStep s p _) (State.modPort_linkStep _ p (by intro; rfl))).trans
            (State.accept_good ht)

/-! ### The plane at rest -/

/-- Where every frame that waits at a torus port stays, none moves. -/
theorem State.reroute_same {s : State} (h : ∀ p < 12, ∀ x ∈ (s.port p).queue, s.rerouteOne p x = s) : s.reroute = s :=
  State.each_same fun p hp => State.each_same (h p (List.mem_range.mp hp))

/-- With no request and none of its answers waiting, and every frame staying where it waits, the plane does not move. -/
theorem State.pump_same {s : State} (hr : s.reroute = s) (hq : s.fabric.sendq = []) (hb : ∀ f ∈ s.fabric.back, f.cls = .mgmt) :
    s.pump = s := by
  have none_back : s.fabric.back.filter (fun f => f.cls != .mgmt) = [] := by
    rw [List.filter_eq_nil_iff]
    intro f hf
    simp [hb f hf]
  simp only [State.pump, hr, State.pumpN, none_back, hq, List.isEmpty_nil, Bool.and_self, if_true]

theorem AtRest.of_same {s t : State} (hf : t.fabric = s.fabric) (hp : t.ports = s.ports) (h : AtRest s) : AtRest t := by
  simpa [AtRest, PortsFree, State.port, hf, hp] using h

theorem Quiet.of_same {s t : State} (hf : t.fabric = s.fabric) (hp : t.ports = s.ports) (h : Quiet s) : Quiet t := by
  simpa [Quiet, PortsFree, State.port, hf, hp] using h

theorem Quiet.of_linkStep {s t : State} (h : LinkStep s t) (hs : Quiet s) : Quiet t := by
  obtain ⟨hq, hb, hp⟩ := hs
  refine ⟨by rw [h.only.fabric, hq], by rw [h.only.fabric, hb], fun p hlt => ?_⟩
  rw [h.queues, hp p hlt]

/-! ### Where a frame goes (R254) -/

/-- The places a frame may wait at depend on the registers, the fabric, and the ports' states and credits. -/
theorem State.betterPort_congr {s u : State} (hr : u.regs = s.regs) (hf : u.fabric = s.fabric)
    (hup : u.portUp = s.portUp) (hc : u.credit = s.credit) (p : Nat) (f : RFrame) : u.betterPort p f = s.betterPort p f := by
  have table : u.table = s.table := by simp only [State.table, hf]
  have covered : u.covered = s.covered := by funext q g; simp only [State.covered, hc]
  have rd (r : Reg) : u.rd r = s.rd r := by simp only [State.rd, State.rawAt, hr]
  have dim : u.dim = s.dim := by funext d; simp only [State.dim, State.fld, rd]
  have minimal : u.minimal = s.minimal := by
    funext d
    simp only [State.minimal, State.dist, State.neighbour, State.dimOne, dim, rd, hup, table]
    rfl
  have most : u.mostCredit = s.mostCredit := by funext k l; simp only [State.mostCredit, hc]
  simp only [State.betterPort, covered, table, minimal, most]

/-- The port that has most credit is one of those offered. -/
theorem State.mostCredit_mem {s : State} {k p : Nat} {l : List Nat} (h : s.mostCredit k l = some p) : p ∈ l := by
  refine List.foldlRecOn (motive := fun b => ∀ p, b = some p → p ∈ l) l _ (by simp) (fun b hb a ha q hq => ?_) p h
  split at hq
  · exact Option.some.inj hq ▸ ha
  · split at hq
    · exact Option.some.inj hq ▸ ha
    · exact hb q hq

theorem State.escapeHop_port {s : State} {f g : RFrame} {p : Nat} (h : s.escapeHop f = .port p g) :
    s.portUp p = true ∧ g.head.vc ≠ 0 := by
  unfold State.escapeHop at h
  dsimp only at h
  split at h
  · rename_i he
    obtain ⟨rfl, rfl⟩ := Hop.port.inj h
    simp only [Bool.and_eq_true] at he
    exact ⟨he.1.2, by simp⟩
  · cases h

/-- A frame one hop further. -/
def oneHop (f : RFrame) : RFrame := { f with head := { f.head with hops := f.head.hops + 1 } }

/-- On the escape VC a frame waits for its port (R254). -/
theorem State.betterPort_escape {s : State} {f : RFrame} (p : Nat) (h : f.head.vc ≠ 0) : s.betterPort p f = none := by
  simp [State.betterPort, h]

/-- An express entry's port is not left for another. -/
theorem State.betterPort_express {s : State} {f : RFrame} {e : Nat × Nat}
    (h : s.table.express.find? (fun e => e.1 == f.head.dst && s.portUp e.2) = some e) : s.betterPort e.2 (oneHop f) = none := by
  have found := List.find?_some h
  simp only [Bool.and_eq_true, beq_iff_eq] at found
  have listed : s.table.express.any (fun x => x.1 == (oneHop f).head.dst && x.2 == e.2) = true :=
    List.any_eq_true.mpr ⟨e, List.mem_of_find?_eq_some h, by simpa [oneHop] using found.1⟩
  simp [State.betterPort, listed]

/-- The minimal port with most credit is not left for another: it covers the frame, or no minimal port does. -/
theorem State.betterPort_minimal {s : State} {f : RFrame} {p k : Nat}
    (h : s.mostCredit k (if ((s.minimal f.head.dst).filter (fun p => s.covered p f)).isEmpty then s.minimal f.head.dst
      else (s.minimal f.head.dst).filter (fun p => s.covered p f)) = some p) :
    s.portUp p = true ∧ s.betterPort p (oneHop f) = none := by
  have covers (q : Nat) : s.covered q (oneHop f) = s.covered q f := rfl
  have offered := State.mostCredit_mem h
  have up : ∀ q ∈ s.minimal f.head.dst, s.portUp q = true := fun q hq => by
    simp only [State.minimal, List.mem_filter, Bool.and_eq_true] at hq
    exact hq.2.1.1.1
  split at offered
  · rename_i none_covers
    have empty : (s.minimal f.head.dst).filter (fun q => q != p && s.covered q f) = [] := by
      rw [List.isEmpty_iff, List.filter_eq_nil_iff] at none_covers
      rw [List.filter_eq_nil_iff]
      intro q hq
      simp [none_covers q hq]
    refine ⟨up p offered, ?_⟩
    simp only [State.betterPort, covers]
    split
    · rfl
    · change s.mostCredit _ ((s.minimal f.head.dst).filter (fun q => q != p && s.covered q f)) = none
      rw [empty]
      rfl
  · obtain ⟨hmem, hcov⟩ := List.mem_filter.mp offered
    exact ⟨up p hmem, by simp [State.betterPort, covers, hcov]⟩

/-- A frame sent to a port goes to one that is UP, where no other serves it better; one that moved to the escape VC is no more
of VC 0. -/
theorem State.nextHop_port {s : State} {f g : RFrame} {p : Nat} {e : Bool} (h : s.nextHop f = (.port p g, e)) :
    s.portUp p = true ∧ s.betterPort p g = none ∧ (e = true → g.head.vc ≠ 0) := by
  unfold State.nextHop at h
  dsimp only at h
  split at h
  · obtain ⟨hop, rfl⟩ := Prod.mk.inj h
    split at hop
    · rename_i q x hx
      split at hop
      · cases hop
      · obtain ⟨rfl, rfl⟩ := Hop.port.inj hop
        obtain ⟨up, vc⟩ := State.escapeHop_port hx
        exact ⟨up, State.betterPort_escape _ vc, by simp⟩
    · rename_i other
      exact absurd hop (other p g)
  · split at h
    · rename_i x hx
      obtain ⟨hop, rfl⟩ := Prod.mk.inj h
      split at hop
      · cases hop
      · obtain ⟨rfl, rfl⟩ := Hop.port.inj hop
        have up := List.find?_some hx
        simp only [Bool.and_eq_true] at up
        exact ⟨up.2, State.betterPort_express hx, by simp⟩
    · split at h
      · rename_i q hq
        obtain ⟨hop, rfl⟩ := Prod.mk.inj h
        split at hop
        · cases hop
        · obtain ⟨rfl, rfl⟩ := Hop.port.inj hop
          obtain ⟨up, better⟩ := State.betterPort_minimal hq
          exact ⟨up, better, by simp⟩
      · split at h
        · cases h
        · obtain ⟨hop, rfl⟩ := Prod.mk.inj h
          obtain ⟨up, vc⟩ := State.escapeHop_port hop
          exact ⟨up, State.betterPort_escape _ vc, fun _ => vc⟩

/-! ### Frames that this device sends (R253, R254) -/

theorem State.pumpList_linkStep (s : State) (p : Nat) (l : List (Nat × RFrame)) (blocked : List Nat) :
    LinkStep s (s.pumpList p l blocked).1 := by
  induction l generalizing s blocked with
  | nil => exact .refl s
  | cons x l ih =>
    obtain ⟨i, f⟩ := x
    unfold State.pumpList
    dsimp only
    split
    · exact ih s _
    · exact (((State.spend_linkStep s p _ _).trans (State.sendOn_linkStep ..)).trans (State.freeUnits_linkStep ..)).trans (ih _ _)

theorem State.pumpPort_linkOnly (s : State) (p : Nat) : LinkOnly s (s.pumpPort p) := by
  unfold State.pumpPort
  split
  · exact .refl s
  · exact (State.pumpList_linkStep s p _ _).only.trans (State.modPort_linkOnly ..)

theorem State.enqueue_linkOnly (s : State) (inp p : Nat) (f : RFrame) : LinkOnly s (s.enqueue inp p f) :=
  (State.modPort_linkOnly s p _).trans (State.pumpPort_linkOnly ..)

theorem State.forward_linkOnly (s : State) (inp : Nat) (f : RFrame) : LinkOnly s (s.forward inp f).1 := by
  have counted : LinkOnly s (if (s.nextHop f).2 then s.cnt R.fabEscCnt else s) := by
    split
    · exact State.cnt_linkOnly ..
    · exact .refl s
  unfold State.forward
  dsimp only
  split
  · exact counted.trans (State.enqueue_linkOnly ..)
  · exact (counted.trans (State.cnt_linkOnly ..)).trans (State.freeUnits_linkStep ..).only
  · exact (counted.trans (State.cnt_linkOnly ..)).trans (State.freeUnits_linkStep ..).only

/-- A frame put at output `p` leaves the queues of the others. -/
theorem State.enqueue_others (s : State) (inp p : Nat) (f : RFrame) {q : Nat} (h : q ≠ p) :
    ((s.enqueue inp p f).port q).queue = (s.port q).queue := by
  unfold State.enqueue State.pumpPort
  split
  · simp [State.modPort_port, h]
  · dsimp only
    rw [State.modPort_port, if_neg h, (State.pumpList_linkStep _ p _ _).queues, State.modPort_port, if_neg h]

/-- A frame put at an empty output that is UP goes out, or waits there alone. -/
theorem State.enqueue_empty {s : State} {inp p : Nat} {f : RFrame} (hup : s.portUp p = true) (hq : (s.port p).queue = []) :
    ((s.enqueue inp p f).port p).queue = [] ∨ (LinkOnly s (s.enqueue inp p f) ∧ (s.enqueue inp p f).regs = s.regs ∧
      ∀ q, (s.enqueue inp p f).port q = if q = p then { s.port p with queue := [(inp, f)] } else s.port q) := by
  have up : (s.modPort p (fun x => { x with queue := insFrame (inp, f) x.queue })).portUp p = true := by
    simpa [State.portUp, State.modPort_port, State.flag, State.rd, State.rawAt] using hup
  unfold State.enqueue State.pumpPort
  simp only [up, Bool.not_true, Bool.false_eq_true, if_false, State.modPort_self, hq, insFrame, State.pumpList]
  split
  · refine .inr ⟨(State.modPort_linkOnly ..).trans (State.modPort_linkOnly ..), rfl, fun q => ?_⟩
    by_cases e : q = p <;> simp [State.modPort_port, e]
  · exact .inl rfl

/-- A frame that goes to an output which no other betters stays there, where nothing else waits. -/
theorem State.enqueue_settled {s : State} {p : Nat} {f : RFrame} (hp : PortsFree s) (hup : s.portUp p = true)
    (hb : s.betterPort p f = none) : (s.enqueue 16 p f).reroute = s.enqueue 16 p f := by
  have others : ∀ q, q < 12 → q ≠ p → ((s.enqueue 16 p f).port q).queue = [] := fun q hlt hne => by
    rw [State.enqueue_others s 16 p f hne, hp q hlt]
  by_cases hlt : p < 12
  case neg => exact State.reroute_free fun q hq => others q hq (by omega)
  obtain sent | ⟨only, regs, ports⟩ := State.enqueue_empty (inp := 16) (f := f) hup (hp p hlt)
  · refine State.reroute_free fun q hq => ?_
    by_cases e : q = p
    · rw [e, sent]
    · exact others q hq e
  · have up : (s.enqueue 16 p f).portUp = s.portUp := by
      funext q
      by_cases e : q = p <;> simp [State.portUp, State.flag, State.rd, State.rawAt, regs, ports, e]
    have credit : (s.enqueue 16 p f).credit = s.credit := by
      funext q k
      by_cases e : q = p <;> simp [State.credit, ports, e]
    refine State.reroute_same fun q hq x hx => ?_
    by_cases e : q = p
    case neg => simp [others q hq e] at hx
    subst e
    obtain rfl : x = (16, f) := by simpa [ports] using hx
    have stays := State.betterPort_congr regs only.fabric up credit q f
    simp [State.rerouteOne, up, hup, stays, hb]

/-- A count leaves every register of another key. -/
theorem State.cnt_rawAt_ne (s : State) {r : Reg} {i n bank idx j off b : Nat} {t : PageType}
    (h : regKey (pageNo t j) off b ≠ regKey (pageNo r.page i) (r.off + 4 * idx) bank) :
    (s.cnt r i n bank idx).rawAt t j off b = s.rawAt t j off b := by
  simp only [State.cnt]
  split
  · rfl
  · exact State.setRaw_rawAt_ne s _ h

theorem State.cnt_portUp (s : State) (p : Nat) : (s.cnt R.fabEscCnt).portUp p = s.portUp p := by
  have ctl : (s.cnt R.fabEscCnt).rd R.prtCtl p = s.rd R.prtCtl p := by
    refine State.cnt_rawAt_ne s ?_
    simp only [regKey, pageNo, pageCode, R.prtCtl, R.fabEscCnt]
    omega
  simp [State.portUp, State.flag, State.port, ctl]

/-- A frame of this device's own, forwarded where no frame waited, settles. -/
theorem State.forward_settled {s : State} (f : RFrame) (hp : PortsFree s) :
    (s.forward 16 f).1.reroute = (s.forward 16 f).1 := by
  have counted (u : State) (hu : PortsFree u) (r : Reg) : PortsFree (u.cnt r) := by simpa [PortsFree, State.port] using hu
  have first (e : Bool) : PortsFree (if e = true then s.cnt R.fabEscCnt else s) := by
    cases e
    · exact hp
    · exact counted s hp _
  have own (u : State) : u.freeUnits 16 f = u := by simp [State.freeUnits]
  obtain ⟨⟨hop, e⟩, hn⟩ : ∃ x, s.nextHop f = x := ⟨_, rfl⟩
  simp only [State.forward, hn, own]
  cases hop with
  | port p g =>
    obtain ⟨up, better, escapes⟩ := State.nextHop_port hn
    cases e with
    | false => exact State.enqueue_settled hp up better
    | true => exact State.enqueue_settled (first true) ((s.cnt_portUp p).trans up) (State.betterPort_escape p (escapes rfl))
  | lost => exact State.reroute_free (counted _ (first e) _)
  | noRoute => exact State.reroute_free (counted _ (first e) _)

/-! ### Answers (R251) -/

/-- An answer to another device is forwarded. -/
theorem State.respond_forward {s : State} {h : RHead} (hs : h.src ≠ s.rd R.spnPos) (mgmt : Bool) (b : Access) (status nack : Nat)
    (data : List Byte) : s.respond mgmt h b status nack data = (s.forward 16 (responseTo mgmt h b status nack data)).1 := by
  simp [State.respond, hs]

/-- An answer leaves the host port and the atomics that wait for their time. -/
theorem State.respond_leaves (s : State) (mgmt : Bool) (h : RHead) (b : Access) (status nack : Nat) (data : List Byte) :
    (s.respond mgmt h b status nack data).host = s.host ∧
      (s.respond mgmt h b status nack data).fabric.atomics = s.fabric.atomics := by
  by_cases hs : h.src = s.rd R.spnPos
  · simp [State.respond, hs, State.modFab]
  · rw [State.respond_forward hs]
    exact ⟨(State.forward_linkOnly s 16 _).host, congrArg Fabric.atomics (State.forward_linkOnly s 16 _).fabric⟩

/-- With nothing waiting on the free plane, an answer to another device is all that moves. -/
theorem State.respond_serveOwn {s : State} {h : RHead} (hq : Quiet s) (hs : h.src ≠ s.rd R.spnPos) (mgmt : Bool) (b : Access)
    (status nack : Nat) (data : List Byte) :
    (s.respond mgmt h b status nack data).serveOwn = s.respond mgmt h b status nack data := by
  obtain ⟨hsend, hback, hports⟩ := hq
  rw [State.respond_forward hs]
  have fabric := (State.forward_linkOnly s 16 (responseTo mgmt h b status nack data)).fabric
  have stays := State.pump_same (State.forward_settled (responseTo mgmt h b status nack data) hports)
    (by rw [fabric, hsend]) (by simp [fabric, hback])
  simp [State.serveOwn, fabric, hback, stays]

end Sys2Proof.Machine
end

section
/-!
PROOF. MGMT requests (00 R16; 09 R250; 17 R447): a frame for this device is served and answered, and one register word is read or
written. Settles O35.
-/
namespace Sys2Proof.Machine

/-! ### A frame for this device -/

/-- Receiving a frame for this device moves nothing of the free plane, and the device is where it was. -/
theorem ForHere.taken_linkStep {s : State} {i cls : Nat} {a : Arrival} {h : RHead} (hf : ForHere s i cls a h) (f : RFrame) :
    LinkStep s (s.taken i cls a f) := by
  obtain ⟨⟨good, -, -⟩, -⟩ := hf
  exact (State.receive_good good).trans (State.freeUnits_linkStep ..)

/-- A frame for this device, which is received whole, is consumed, and the free plane moves on (R251, R254). -/
theorem ForHere.routedIn {s : State} {i : Nat} {a : Arrival} {f : RFrame} (hf : ForHere s i (clsNo f.cls) a f.head) :
    s.routedIn i a f = ((s.taken i (clsNo f.cls) a f).consume i f).serveOwn := by
  obtain ⟨⟨good, enabled, -⟩, here, -, -⟩ := hf
  have pos := (State.receive_good good).pos
  have received : s.receive i (clsNo f.cls) a = ((s.receive i (clsNo f.cls) a).1, .good) := Prod.ext rfl good
  rw [State.routedIn, received]
  simp [State.frameAt, enabled, here, pos, State.taken]

/-- A MGMT request for this device is served (R250). -/
theorem exec_mgmt {s : State} {i : Fin 16} {a : Arrival} {h : RHead} {b : Access} {data : List Byte} (hf : ForHere s i 4 a h) :
    exec (.mgmt i a h b data) s =
      .next ((s.taken i 4 a ⟨.mgmt, h, b, noResp, data⟩).serveMgmt h b data).serveOwn := by
  have agrees : (s.taken i 4 a ⟨.mgmt, h, b, noResp, data⟩).island.disagree = false := by
    rw [(hf.taken_linkStep _).only.island]
    exact hf.2.2.2
  change Host.Outcome.next (s.routedIn i a ⟨.mgmt, h, b, noResp, data⟩) = _
  rw [ForHere.routedIn (f := ⟨.mgmt, h, b, noResp, data⟩) hf]
  simp [clsNo, State.consume, agrees]

/-- The free plane and the device's place are as before. -/
structure SamePlane (s t : State) : Prop where
  fabric : t.fabric = s.fabric
  ports : t.ports = s.ports
  pos : t.rd R.spnPos = s.rd R.spnPos

/-- A MGMT request that is answered, by what leaves the free plane as it is. -/
theorem exec_mgmt_answered {s u : State} {i : Fin 16} {a : Arrival} {h : RHead} {b : Access} {data answer : List Byte}
    {status nack : Nat} (hf : ForHere s i 4 a h) (hu : SamePlane (s.taken i 4 a ⟨.mgmt, h, b, noResp, data⟩) u)
    (hs : (s.taken i 4 a ⟨.mgmt, h, b, noResp, data⟩).serveMgmt h b data = u.respond true h b status nack answer) :
    exec (.mgmt i a h b data) s = .next (u.respond true h b status nack answer) := by
  have taken := hf.taken_linkStep ⟨.mgmt, h, b, noResp, data⟩
  have served := exec_mgmt (b := b) (data := data) hf
  obtain ⟨⟨-, -, quiet⟩, -, away, -⟩ := hf
  have src : h.src ≠ u.rd R.spnPos := by rwa [hu.pos, taken.pos]
  rw [served, hs, State.respond_serveOwn ((quiet.of_linkStep taken).of_same hu.fabric hu.ports) src]

/-! ### What leaves the free plane -/

theorem SamePlane.refl (s : State) : SamePlane s s := ⟨rfl, rfl, rfl⟩

theorem SamePlane.trans {s t u : State} (h : SamePlane s t) (h' : SamePlane t u) : SamePlane s u :=
  ⟨h'.fabric.trans h.fabric, h'.ports.trans h.ports, h'.pos.trans h.pos⟩

/-- A count in another page than SPN's. -/
theorem State.cnt_samePlane (s : State) {r : Reg} (ho : r.off < 4096) (h0 : pageNo r.page 0 ≠ 1) :
    SamePlane s (s.cnt r) := by
  refine ⟨by simp, by simp, State.cnt_rawAt_ne s ?_⟩
  simp only [regKey, R.spnPos, show pageNo .spn 0 = 1 from rfl]
  omega

theorem State.capture_sameAbove (s : State) (pg : Nat) (x : Viol) (more : Bool) : SameAbove s (s.capture pg x more) :=
  have header (u : State) (v : Nat) {off : Nat} (ho : off < 0x40) := u.setHdr_sameAbove pg v ho
  ((((header _ _ (by decide)).trans (header _ _ (by decide))).trans (header _ _ (by decide))).trans
    (header _ _ (by decide))).trans (header _ _ (by decide))

/-- A violation is logged in its page's header alone (R5, R6). -/
theorem State.violate_sameAbove (s : State) (p : PageType) (i : Nat) (x : Viol) : SameAbove s (s.violate p i x) := by
  simp only [State.violate, State.violateAll]
  refine SameAbove.trans (.trans ?_ (State.setHdr_sameAbove _ _ _ (by decide))) (State.setIrq_sameAbove _ _ _ (by decide))
  split
  · exact State.setHdr_sameAbove _ _ _ (by decide)
  · exact State.capture_sameAbove s _ _ _

theorem State.violate_samePlane (s : State) (p : PageType) (i : Nat) (x : Viol) : SamePlane s (s.violate p i x) :=
  ⟨by simp, by simp, (State.violate_sameAbove s p i x).rawAt .spn 0 0 (by decide) (by decide)⟩

theorem State.setRaw_samePlane (s : State) {t : PageType} {pg off : Nat} (v : Nat) (ht : t ≠ .spn)
    (hat : pageAt (pageNo t pg) = some (t, pg)) (ho : off < 4096) : SamePlane s (s.setRaw t pg off 0 v) := by
  have page : pageNo t pg ≠ 1 := fun e => by
    rw [e] at hat
    exact ht (congrArg Prod.fst (Option.some.inj hat)).symm
  refine ⟨rfl, rfl, State.setRaw_rawAt_ne s v ?_⟩
  simp only [regKey, R.spnPos, show pageNo .spn 0 = 1 from rfl]
  omega

/-- A MGMT read counts at most an access of a sleeping cluster's page (R4, R449). -/
theorem State.regRead_mgmt {s : State} {addr : Nat} (h : addr % 4 = 0) : (s.regRead .mgmt addr false).1 = s.dozeCount .mgmt addr := by
  simp [State.regRead, h, pathClears, pathHost]

theorem State.dozeCount_samePlane (s : State) (p : Path) (addr : Nat) : SamePlane s (s.dozeCount p addr) := by
  simp only [State.dozeCount]
  split
  · exact State.cnt_samePlane s (by decide) (by decide)
  · exact .refl s

/-! ### Plain registers -/

/-- What makes a register plain. -/
theorem plainReg_parts {t : PageType} {off : Nat} {d : RegDef} (h : plainReg t off d = true) :
    (d.acc = .rw ∧ d.bank = .none ∧ d.w1c = 0 ∧ d.wmask ≠ 0 ∧ deferredAt t off = false) ∧
    (t ≠ .tgp ∨ off < 0x60) ∧ t ≠ .hsq ∧ (t ≠ .prt ∨ (off ≠ 0x40 ∧ off ≠ 0xC0)) ∧ (t ≠ .pub ∨ off ≠ 0x70) ∧
    (t ≠ .tim ∨ off ≠ 0x40) ∧ t ≠ .ldg ∧ t ≠ .spn ∧ (t ≠ .wld ∨ off < 0x80) := by
  simpa [plainReg, and_assoc] using h

theorem storing_of_plainReg {t : PageType} {off : Nat} {d : RegDef} (h : plainReg t off d = true) : Storing d := by
  obtain ⟨⟨hacc, hbank, hw1c, hmask, -⟩, -⟩ := plainReg_parts h
  exact ⟨.inl hacc, hmask, hw1c, hbank⟩

/-- The registers that something follows a write of. -/
def followed : List (PageType × Nat) :=
  [(.prt, 0x40), (.wld, 0x50), (.spn, 0x58), (.prt, 0xC0), (.pub, 0x70), (.tim, 0x40), (.ldg, 0x40), (.ldg, 0x44), (.ldg, 0x48)]

theorem State.afterWrite_same (s : State) {t : PageType} {off : Nat} (h : (t, off) ∉ followed) (i old v : Nat) :
    s.afterWrite t i off old v = s := by
  unfold State.afterWrite
  split
  case h_10 => rfl
  all_goals simp [followed] at h

theorem plainReg_not_followed {t : PageType} {off : Nat} {d : RegDef} (hd : regAt t off = some d) (h : plainReg t off d = true) :
    (t, off) ∉ followed := by
  obtain ⟨⟨-, hbank, -⟩, -, -, hprt, hpub, htim, hldg, hspn, -⟩ := plainReg_parts h
  have chains : ¬(t = .wld ∧ off = 0x50) := by
    rintro ⟨rfl, rfl⟩
    have bank : (regAt .wld 0x50).map (fun d => d.bank) = some .chain := by decide
    rw [hd, Option.map_some, hbank] at bank
    cases bank
  simp only [followed, List.mem_cons, Prod.mk.injEq, List.not_mem_nil, or_false, not_or]
  simp only [← not_and_or] at *
  tauto

/-- Nothing follows a write of a plain register, and it is in force at once. -/
theorem State.stores_plain {s : State} {t : PageType} {i off v : Nat} {d : RegDef} (hd : regAt t off = some d)
    (h : plainReg t off d = true) : s.stores t i off d v = s.setRaw t i off 0 (v &&& d.wmask) := by
  have follows := plainReg_not_followed hd h
  obtain ⟨⟨-, -, -, -, hnow⟩, -, -, -, -, -, -, hspn, hwld⟩ := plainReg_parts h
  have whole : kept t off (v &&& d.wmask) = v &&& d.wmask := by
    have unfused : ¬(t = .wld ∧ 0x80 ≤ off ∧ off < 0xC4) := fun ⟨e, h80, _⟩ => by
      obtain hwld | hwld := hwld
      · exact hwld e
      · omega
    simp [kept, hspn, unfused]
  simp [State.stores, whole, State.afterWrite_same _ follows, State.deferred, hnow]

/-- R450: a write of one word to a plain register of a page of the PF's BAR0 stores its RW bits. -/
theorem State.regWriteR_plain {s : State} {p : Path} {t : PageType} {pg off : Nat} {d : RegDef} {v : Word}
    (hw : WritesAt s p t pg off) (h40 : 0x40 ≤ off) (hd : regAt t off = some d) (h : plainReg t off d = true)
    (hl : s.locked (pageNo t pg) = false) (hv : s.valueBad t pg off v.toNat = false) :
    s.regWriteR p (pageAddr t pg off) v none = (s.setRaw t pg off 0 (v.toNat &&& d.wmask), false, false) := by
  obtain ⟨hmay, hbar, hat, hwin, hlt, -⟩ := hw
  obtain ⟨-, hdebug, hqueue, -⟩ := plainReg_parts h
  have wrote : s.writeWord p (pageAddr t pg off) v.toNat = .ok (s.setRaw t pg off 0 (v.toNat &&& d.wmask)) := by
    rw [pageAddr, State.writeWord_reg hmay hbar hlt h40 hwin hat hd,
      State.writeReg_storing (by omega) (storing_of_plainReg h) hdebug hl,
      State.writeRw_stores (storing_of_plainReg h) hdebug hqueue hv, State.stores_plain hd h]
    rfl
  simp [State.regWriteR, wrote, Wrote.ok, State.logViols]

theorem leNat_lt (l : List Byte) : leNat l < 256 ^ l.length := by
  induction l with
  | nil => simp [leNat]
  | cons b l ih =>
    have := b.isLt
    simp only [leNat, List.length_cons, pow_succ]
    omega

theorem leAt_lt (l : List Byte) (o n : Nat) : leAt l o n < 256 ^ n :=
  (leNat_lt _).trans_le (Nat.pow_le_pow_right (by decide) (by simp))

/-! ### The cases of a request -/

/-- A request that names a register of the device is served by its tenant, its form and its operation. -/
theorem State.serveMgmt_register {s : State} {h : RHead} {b : Access} (hspan : spanBad b.addr = false) (hkind : bits b.addr 44 42 = 2)
    (data : List Byte) : s.serveMgmt h b data =
      if h.tenant ≠ 0 then (if asksRole b then s.roleDenied h b else s.mgmtNack h b 0x44)
      else if b.size ≠ 4 ∨ b.addr % 4 ≠ 0 ∨ 2 ≤ b.op then s.mgmtNack h b 0x47
      else if b.op = 1 then s.mgmtWrite h b data else s.mgmtRead h b := by
  simp [State.serveMgmt, hspan, hkind]

theorem asksRole_iff (b : Access) : asksRole b = true ↔ b.op = 1 ∧ b.size = 4 ∧ b.addr % 2 ^ 26 = 0x1048 := by
  simp [asksRole, and_assoc]

theorem State.mgmtRead_word {s : State} {h : RHead} {b : Access} (h4 : b.addr % 4 = 0) : s.mgmtRead h b =
    (s.regRead .mgmt (b.addr % 2 ^ 26) false).1.respond true h b 0 0 (leBytes 4 (s.readWord .mgmt (b.addr % 2 ^ 26) % 2 ^ 32)) := by
  have word : b.addr % 2 ^ 26 % 4 = 0 := by omega
  simp only [State.mgmtRead, State.regRead_value word, w32, BitVec.toNat_ofNat]

theorem State.mgmtWrite_plain {s : State} {h : RHead} {b : Access} {data : List Byte} {t : PageType} {pg off : Nat} {d : RegDef}
    (hnote : b.addr % 2 ^ 26 = 0xD07C → s.physical s.keystoneNo = some h.src) (hw : WritesAt s .mgmt t pg off)
    (h40 : 0x40 ≤ off) (hd : regAt t off = some d) (hp : plainReg t off d = true) (ha : b.addr % 2 ^ 26 = pageAddr t pg off)
    (hl : s.locked (pageNo t pg) = false) (hv : s.valueBad t pg off (leAt data 0 4) = false) :
    s.mgmtWrite h b data = (s.setRaw t pg off 0 (leAt data 0 4 &&& d.wmask)).respond true h b 0 0 [] := by
  have word : (w32 (leAt data 0 4)).toNat = leAt data 0 4 := w32_toNat_of_lt (leAt_lt data 0 4)
  have noted : ¬(b.addr % 2 ^ 26 = 0xD07C ∧ s.physical s.keystoneNo ≠ some h.src) := fun ⟨e, hne⟩ => hne (hnote e)
  have stored := State.regWriteR_plain hw h40 hd hp hl (v := w32 (leAt data 0 4)) (by rwa [word])
  rw [word, ← ha] at stored
  simp only [State.mgmtWrite, noted, stored, if_false, Bool.false_eq_true]

/-- A doze notice that is not the keystone's is dropped (Table 14-8). -/
theorem State.mgmtWrite_dropped {s : State} {h : RHead} {b : Access} {data : List Byte} (ha : b.addr % 2 ^ 26 = 0xD07C)
    (hks : s.physical s.keystoneNo ≠ some h.src) : s.mgmtWrite h b data = s.respond true h b 0 0 [] := by
  simp only [State.mgmtWrite, ha, hks, ne_eq, not_false_eq_true, and_self, if_true]

/-! ### The obligation -/

/-- Settles O35: the frame is served as it comes, each request goes to its case of `State.serveMgmt`, and its answer is all that
moves on the free plane. -/
theorem managementRequests : Obligations.ManagementRequests := by
  unfold Obligations.ManagementRequests
  intro s i a h b data v addr role hf hspan hkind
  have serves := State.serveMgmt_register (s := v) (h := h) hspan hkind data
  have logged (p : PageType) (x : Viol) : SamePlane v ((v.violate p 0 x).cnt R.fabNackTx) :=
    (v.violate_samePlane p 0 x).trans (State.cnt_samePlane _ (by decide) (by decide))
  refine ⟨fun ht hsize h4 hop => ?_, fun ht hsize h4 hop hnote t pg off d hw h40 hd hp ha hl hv => ?_,
    fun ht hsize hop ha hks => ?_, fun ht hrole => ?_, fun ht hrole => ?_⟩
  · have form : ¬(b.size ≠ 4 ∨ b.addr % 4 ≠ 0 ∨ 2 ≤ b.op) := by omega
    have word : addr % 4 = 0 := by omega
    refine exec_mgmt_answered hf (State.regRead_mgmt word ▸ v.dozeCount_samePlane .mgmt addr) ?_
    rw [serves, if_neg (not_not.mpr ht), if_neg form, if_neg (by omega), State.mgmtRead_word h4]
  · have form : ¬(b.size ≠ 4 ∨ b.addr % 4 ≠ 0 ∨ 2 ≤ b.op) := by omega
    obtain ⟨-, -, -, -, -, -, -, hspn, -⟩ := plainReg_parts hp
    obtain ⟨-, -, hat, -, hlt, -⟩ := id hw
    refine exec_mgmt_answered hf (v.setRaw_samePlane _ hspn hat hlt) ?_
    rw [serves, if_neg (not_not.mpr ht), if_neg form, if_pos hop, State.mgmtWrite_plain hnote hw h40 hd hp ha hl hv]
  · have form : ¬(b.size ≠ 4 ∨ b.addr % 4 ≠ 0 ∨ 2 ≤ b.op) := by omega
    refine exec_mgmt_answered hf (.refl v) ?_
    rw [serves, if_neg (not_not.mpr ht), if_neg form, if_pos hop, State.mgmtWrite_dropped ha hks]
  · refine exec_mgmt_answered hf (logged _ _) ?_
    rw [serves, if_pos ht, if_neg (mt (asksRole_iff b).mp hrole)]
    rfl
  · refine exec_mgmt_answered hf (logged _ _) ?_
    rw [serves, if_pos ht, if_pos ((asksRole_iff b).mpr hrole)]
    rfl

end Sys2Proof.Machine
end

section
/-!
PROOF. Requests of the host port (01 R25, R27; 11 R289, R290, R292, R294 to R297, R302, R305, R308 to R310): answers and counts,
completed and failed reads, fetched entries, invalidation, credits and MSI-X. Settles O48.
-/
namespace Sys2Proof.Machine

/-! ### Messages to the host -/

/-- Of the host port only its functions, held writes and disarmed routes have changed. -/
def HostSignals (s t : State) : Prop :=
  ∃ fns held disarmed, t.host = { s.host with fns := fns, held := held, disarmed := disarmed }

theorem HostSignals.of_host {s t : State} (h : t.host = s.host) : HostSignals s t := ⟨_, _, _, h⟩

theorem HostSignals.trans {s t u : State} (h : HostSignals s t) (h' : HostSignals t u) : HostSignals s u := by
  obtain ⟨_, _, _, h⟩ := h
  obtain ⟨_, _, _, h'⟩ := h'
  rw [h] at h'
  exact ⟨_, _, _, h'⟩

theorem HostSignals.reads {s t : State} (h : HostSignals s t) : t.host.reads = s.host.reads ∧ t.host.readq = s.host.readq := by
  obtain ⟨_, _, _, h⟩ := h
  rw [h]
  exact ⟨rfl, rfl⟩

theorem HostSignals.queue {s t : State} (h : HostSignals s t) (fn q : Nat) : t.queue fn q = s.queue fn q := by
  obtain ⟨_, _, _, h⟩ := h
  rw [State.queue, h]
  rfl

theorem State.toHost_hostSignals (s : State) (o : HostOut) : HostSignals s (s.toHost o) := by
  unfold State.toHost
  split
  · exact .of_host (by simp)
  · split
    · exact ⟨_, _, _, rfl⟩
    · exact .of_host (by simp [State.post])

theorem State.msix_hostSignals (s : State) (fn v : Nat) : HostSignals s (s.msix fn v) := by
  unfold State.msix
  split
  · exact State.toHost_hostSignals ..
  · exact ⟨_, _, _, rfl⟩

theorem State.routeSend_hostSignals (s : State) (t : Nat) : HostSignals s (s.routeSend t) := by
  simp only [State.routeSend]
  split
  · exact (State.msix_hostSignals s 0 _).trans ⟨_, _, _, rfl⟩
  · exact .of_host rfl

theorem State.setIrq_hostSignals (s : State) (pg off v : Nat) : HostSignals s (s.setIrq pg off v) := by
  refine HostSignals.trans (t := s.setHdr pg off v) (.of_host rfl) ?_
  simp only [State.setIrq]
  split
  · split
    · exact State.msix_hostSignals ..
    · exact .of_host rfl
  · split
    · split
      · exact State.routeSend_hostSignals ..
      · exact .of_host rfl
    · exact .of_host rfl

theorem State.violate_hostSignals (s : State) (p : PageType) (i : Nat) (x : Viol) : HostSignals s (s.violate p i x) := by
  simp only [State.violate, State.violateAll]
  refine HostSignals.trans (.of_host ?_) (State.setIrq_hostSignals _ _ _ _)
  simp only [State.setHdr]
  split <;> rfl

/-- The interrupt status of an event, which its page shows (R457). -/
theorem State.event_signals (s : State) (p : PageType) (i : Nat) {n : Nat} (hn : n < 32) : Signals (s.event p i n) p i n := by
  have shown : (s.event p i n).hdr (pageNo p i) hIrqSts = (s.hdr (pageNo p i) hIrqSts ||| (2 ^ n ||| 1)) % 2 ^ 32 := by
    rw [State.event, State.irq, State.hdr, State.setIrq_regs]
    exact State.setHdr_hdr ..
  have low (k x : Nat) (hk : k < 32) : bit (x % 2 ^ 32) k = x.testBit k := by
    have asTest (y : Nat) : bit y k = y.testBit k := by rw [Nat.testBit_eq_decide_div_mod_eq]; rfl
    rw [asTest, Nat.testBit_mod_two_pow]
    simp [hk]
  rw [Signals, shown, low n _ hn, low 0 _ (by decide)]
  simp

/-! ### Reads -/

/-- Reads are asked for, or wait; nothing else has changed. -/
def AsksReads (s t : State) : Prop :=
  ∃ tags reads readq out, t = { s with host := { s.host with tags := tags, reads := reads, readq := readq }, out := out }

theorem AsksReads.refl (s : State) : AsksReads s s := ⟨_, _, _, _, rfl⟩

theorem AsksReads.trans {s t u : State} (h : AsksReads s t) (h' : AsksReads t u) : AsksReads s u := by
  obtain ⟨_, _, _, _, rfl⟩ := h
  obtain ⟨_, _, _, _, rfl⟩ := h'
  exact ⟨_, _, _, _, rfl⟩

theorem State.readHost_asks (s : State) (fn addr len : Nat) (use : ReadUse) : AsksReads s (s.readHost fn addr len use) := by
  simp only [State.readHost]
  split <;> exact ⟨_, _, _, _, rfl⟩

theorem State.takeReads_asks (s : State) : AsksReads s s.takeReads := by
  have each (l : List (Nat × Nat × Nat × ReadUse)) (u : State) :
      AsksReads u (u.each l (fun t r => t.readHost r.1 r.2.1 r.2.2.1 r.2.2.2)) := by
    induction l generalizing u with
    | nil => exact .refl u
    | cons r l ih => exact (State.readHost_asks u ..).trans (ih _)
  exact AsksReads.trans ⟨_, _, _, _, rfl⟩ (each s.host.readq _)

theorem State.takeReads_none {s : State} (h : s.host.readq = []) : s.takeReads = s := by
  have same : s.modHost (fun x => { x with readq := [] }) = s := by
    simp only [State.modHost]
    rw [← h]
  rw [State.takeReads, same, h]
  rfl

theorem State.atomicsDue_none {s : State} (h : s.fabric.atomics = []) : s.atomicsDue = s := by
  have same : s.modFab (fun f => { f with atomics := f.atomics.filter (fun a => !s.atomicDue a) }) = s := by
    simp only [State.modFab, h, List.filter_nil]
    rw [← h]
  simp [State.atomicsDue, same, h, State.each]

/-- The read that has ended was the last thing to wait: nothing goes on by itself. -/
theorem State.readNext_rest {s : State} (h : AtRest s) (hq : s.host.readq = []) (ha : s.fabric.atomics = []) : s.readNext = s := by
  rw [State.readNext, State.takeReads_none hq, State.atomicsDue_none ha, State.pump_rest h]

/-- At most waiting reads are issued as a read ends, where the free plane is at rest and no atomic waits. -/
theorem State.readNext_asks {s : State} (h : AtRest s) (ha : s.fabric.atomics = []) : AsksReads s s.readNext := by
  obtain ⟨tags, reads, readq, out, e⟩ := s.takeReads_asks
  have fabric : s.takeReads.fabric = s.fabric := by rw [e]
  have ports : s.takeReads.ports = s.ports := by rw [e]
  rw [State.readNext, State.atomicsDue_none (by rw [fabric, ha]), State.pump_rest (h.of_same fabric ports)]
  exact s.takeReads_asks

/-- The next entry is fetched, or nothing happens. -/
theorem State.fetch_asks (s : State) (fn q : Nat) :
    s.fetch fn q = s ∨ AsksReads (s.modQueue fn q (fun y => { y with fetching := true })) (s.fetch fn q) := by
  simp only [State.fetch]
  split
  · exact .inr (State.readHost_asks ..)
  · exact .inl rfl

/-! ### Requests answered at once (R289, R292, R302) -/

/-- An access that BAR0 does not take: neither one word nor two, or not at their alignment (R292). -/
def Misaligned (addr len : Nat) : Prop := ¬((len = 4 ∨ len = 8) ∧ addr % len = 0)

theorem exec_configRequest (s : State) (fn : Fin 256) :
    (s.power.released = true → exec (.configRequest fn) s = .next
      ((s.modHost (fun z => { z with configs := z.configs + 1 })).send (.config fn ((s.fn fn).ready && !(s.fn fn).flr)))) ∧
    (s.power.released = false → exec (.configRequest fn) s = .next s) := by
  have e : exec (.configRequest fn) s = execConfigRequest fn s := rfl
  refine ⟨fun h => ?_, fun h => ?_⟩ <;> simp [e, execConfigRequest, h]

theorem exec_resultSlotRead (s : State) (fn : Fin 256) (addr len : Nat) :
    (1 ≤ len ∧ addr % 256 + len ≤ 256 ∧ addr < 1048576 → exec (.resultSlotRead fn addr len) s =
      .next (s.send (.bar2Data fn (((padTo 256 (if (s.slotOf fn (addr / 256)).state = 0 then
        leBytes 2 (s.slotOf fn (addr / 256)).generation ++ [0#8] else (s.slotOf fn (addr / 256)).bytes)).drop (addr % 256)).take len)))) ∧
    (¬(1 ≤ len ∧ addr % 256 + len ≤ 256 ∧ addr < 1048576) → exec (.resultSlotRead fn addr len) s =
      .next (s.send (.bar2Data fn (zeros len)))) := by
  have e : exec (.resultSlotRead fn addr len) s = execResultSlotRead fn addr len s := rfl
  refine ⟨fun h => ?_, fun h => ?_⟩
  · rw [e, execResultSlotRead, if_pos h]
    rfl
  · rw [e, execResultSlotRead, if_neg h]

theorem exec_bar0BadAccess (s : State) (fn : Fin 256) {addr len : Nat} (h : Misaligned addr len) :
    exec (.bar0BadAccess .pf addr len false) s = .next (s.send (.regData .pf addr 0#32 none)) ∧
    ((pageAt (addr / 4096)).isSome = true → addr / 4096 < 0x4000 → exec (.bar0BadAccess .pf addr len true) s =
      .next ((s.violateAll (addr / 4096) ⟨0x10, 0, 0, 0, spanReg s.self addr⟩ []).send (.denied .pf addr))) ∧
    (addr / 4096 ≤ 8 → exec (.bar0BadAccess (.vf fn) addr len true) s =
      .next ((s.violateAll (0x4000 + 16 * fn + addr / 4096) ⟨0x10, 1, fn, 1, addr % 2 ^ 20⟩ []).send (.denied (.vf fn) addr))) := by
  have e (p : Path) (write : Bool) : exec (.bar0BadAccess p addr len write) s =
      .next (if write then s.badAccess p addr else s.send (.regData p addr 0#32 none)) := by
    change execBar0BadAccess p addr len write s = _
    rw [execBar0BadAccess, if_neg h]
  refine ⟨e .pf false, fun hpage hpf => ?_, fun hvf => ?_⟩
  · rw [e]
    simp [State.badAccess, hpage, hpf]
  · rw [e]
    simp [State.badAccess, hvf]

theorem exec_bar0BadAccess_aligned (s : State) {addr len : Nat} (wr : Bool) (h : ¬Misaligned addr len) :
    exec (.bar0BadAccess .pf addr len wr) s = .next s := by
  change execBar0BadAccess .pf addr len wr s = _
  rw [execBar0BadAccess, if_pos (not_not.mp h)]

/-! ### Completions (R290) -/

/-- A read of function `fn` at `addr` for a use is outstanding under a tag, and nothing else waits: neither reads, nor atomics, nor
anything of the free plane. -/
def Awaits (s : State) (tag fn addr : Nat) (u : ReadUse) : Prop :=
  AtRest s ∧ s.host.readq = [] ∧ s.fabric.atomics = [] ∧ s.host.reads.find? (fun r => r.1 == tag) = some (tag, fn, addr, u)

/-- The state without the outstanding read of a tag. -/
def State.endRead (s : State) (tag : Nat) : State :=
  s.modHost (fun h => { h with reads := h.reads.filter (fun x => x.1 != tag) })

/-- Data of a read that is none of a load chain's. -/
theorem exec_readCompleted {s : State} {tag fn addr : Nat} {u : ReadUse} (h : Awaits s tag fn addr u)
    (hu : ∀ e k part, u ≠ .chain e k part) (data : List Byte) :
    exec (.hostReadCompletion tag (.ok data)) s = .next ((s.endRead tag).readDone u data).readNext := by
  obtain ⟨-, -, -, found⟩ := h
  change execHostReadCompletion tag (.ok data) s = _
  simp only [execHostReadCompletion, found]
  cases u with
  | chain e k part => exact absurd rfl (hu e k part)
  | _ => rfl

/-- The error of PCIe that a failed completion is reported as: poisoned data, or an uncorrectable non-fatal error. -/
def aerOf (r : HostRead) : Nat :=
  match r with
  | .poisoned => 1
  | _ => 0

theorem exec_readFailed {s : State} {tag fn addr : Nat} {u : ReadUse} (h : Awaits s tag fn addr u) {r : HostRead}
    (hr : ∀ d, r ≠ .ok d) : exec (.hostReadCompletion tag r) s =
      .next (((s.endRead tag).send (.aer (aerOf r))).readFailed fn addr u).readNext := by
  obtain ⟨-, -, -, found⟩ := h
  change execHostReadCompletion tag r s = _
  simp only [execHostReadCompletion, found]
  cases r with
  | ok d => exact absurd rfl (hr d)
  | _ => rfl

theorem exec_completionTimeout {s : State} {tag fn addr : Nat} {u : ReadUse} (h : Awaits s tag fn addr u) :
    exec (.completionTimeout tag) s = .next (((s.endRead tag).send (.aer 0)).readFailed fn addr u).readNext := by
  obtain ⟨-, -, -, found⟩ := h
  change execCompletionTimeout tag s = _
  simp only [execCompletionTimeout, found]
  rfl

/-- A completion of no outstanding read is discarded. -/
theorem exec_completion_none {s : State} {tag : Nat} (h : s.host.reads.find? (fun r => r.1 == tag) = none) (r : HostRead) :
    exec (.hostReadCompletion tag r) s = .next s ∧ exec (.completionTimeout tag) s = .next s := by
  refine ⟨?_, ?_⟩
  · change execHostReadCompletion tag r s = _
    simp only [execHostReadCompletion, h]
  · change execCompletionTimeout tag s = _
    simp only [execCompletionTimeout, h]

/-- An entry that has been read is fetched. -/
theorem exec_entryRead {s : State} {tag fn addr q : Nat} (h : Awaits s tag fn addr (.entry fn q)) (data : List Byte) :
    exec (.hostReadCompletion tag (.ok data)) s = .next ((s.endRead tag).modQueue fn q (fun y => { y with
      fetching := false, fetched := some (padTo 64 data), head := (y.head + 1) % 2 ^ y.size })) := by
  rw [exec_readCompleted h (by simp)]
  obtain ⟨rest, hq, ha, -⟩ := h
  exact congrArg Host.Outcome.next (State.readNext_rest (rest.of_same rfl rfl) hq ha)

/-- What a failed read of a queue's entry leaves (R290): the queue is stopped with DMA_ERROR, and shows its event. -/
def EntryFails (s : State) (tag fn q k : Nat) (t : State) : Prop :=
  t.host.reads = s.host.reads.filter (fun r => r.1 != tag) ∧ (t.queue fn q).state = .stopped ∧ (t.queue fn q).status = 9 ∧
    (t.queue fn q).fetching = false ∧ Out.aer k ∈ t.out ∧ Signals t .hsq (fn * 64 + q) 1 ∧ t.mem = s.mem

/-- A queue stops, and its page shows it (R307). -/
theorem State.stopQueue_spec (s : State) (fn q status : Nat) :
    HostSignals (s.modQueue fn q (fun x => { x with state := .stopped, status := status })) (s.stopQueue fn q status) ∧
      Signals (s.stopQueue fn q status) .hsq (fn * 64 + q) 1 :=
  ⟨State.setIrq_hostSignals .., State.event_signals _ _ _ (by decide)⟩

/-- A queue whose entry could not be read: DMA_ERROR, logged in the function's page (R290). -/
theorem State.entryFailed_spec (s : State) (fn q addr : Nat) :
    let t := s.readFailed fn addr (.entry fn q)
    (t.host.reads = s.host.reads ∧ t.host.readq = s.host.readq) ∧
      t.queue fn q = { s.queue fn q with fetching := false, state := .stopped, status := 9 } ∧
      Signals t .hsq (fn * 64 + q) 1 ∧ t.fabric = s.fabric ∧ t.ports = s.ports ∧ t.mem = s.mem := by
  intro t
  have logged := (s.modQueue fn q (fun x => { x with fetching := false })).violate_hostSignals .hst fn
    ⟨0x58, fnSrc fn, fn, 1, addr % 2 ^ 56⟩
  obtain ⟨stopped, shown⟩ := ((s.modQueue fn q (fun x => { x with fetching := false })).violate .hst fn
    ⟨0x58, fnSrc fn, fn, 1, addr % 2 ^ 56⟩).stopQueue_spec fn q 9
  obtain ⟨reads, readq⟩ := stopped.reads
  refine ⟨⟨reads.trans logged.reads.1, readq.trans logged.reads.2⟩, ?_, shown, ?_, ?_, ?_⟩
  · refine (stopped.queue fn q).trans ?_
    rw [State.modQueue_self, logged.queue, State.modQueue_self]
  all_goals simp [t, State.readFailed, State.stopQueue]

theorem entryFails {s : State} {tag fn addr q k : Nat} (h : Awaits s tag fn addr (.entry fn q)) :
    EntryFails s tag fn q k (((s.endRead tag).send (.aer k)).readFailed fn addr (.entry fn q)).readNext := by
  obtain ⟨rest, hq, ha, -⟩ := h
  obtain ⟨⟨reads, readq⟩, queue, shown, fabric, ports, mem⟩ := ((s.endRead tag).send (.aer k)).entryFailed_spec fn q addr
  have reported : Out.aer k ∈ (((s.endRead tag).send (.aer k)).readFailed fn addr (.entry fn q)).out :=
    (State.readFailed_kept _ fn addr (.entry fn q)).2.1.subset (by simp [State.send])
  rw [State.readNext_rest (rest.of_same fabric ports) (readq.trans hq) (by rw [fabric]; exact ha)]
  exact ⟨reads, by rw [queue], by rw [queue], by rw [queue], reported, shown, mem⟩

/-! ### Reads of the host window and of a SUBMIT's input (R295, R309) -/

/-- A READ of the host window whose one part has been read is answered. -/
theorem exec_windowRead {s : State} {tag fn addr id port pa : Nat} {h : RHead} {b : Access} {y : Part}
    (hw : Awaits s tag fn addr (.kind3 id 0))
    (hk : s.host.kind3s.find? (fun k => k.id == id) = some ⟨id, port, h, b, [], [(pa, y)], []⟩) (hp : port ≠ 17) (ho : b.op = 0)
    (data : List Byte) : exec (.hostReadCompletion tag (.ok data)) s =
      .next (((s.endRead tag).dropKind3 id).respond false h b 0 0 (padTo y.len data)).pump := by
  have served : (s.endRead tag).readDone (.kind3 id 0) data =
      ((s.endRead tag).dropKind3 id).respond false h b 0 0 (padTo y.len data) := by
    have found : (s.endRead tag).host.kind3s.find? (fun k => k.id == id) = some ⟨id, port, h, b, [], [(pa, y)], []⟩ := hk
    simp [State.readDone, State.kind3Read, found, ho, hp, mput]
  rw [exec_readCompleted hw (by simp), served]
  obtain ⟨-, hq, ha, -⟩ := hw
  obtain ⟨host, atomics⟩ := ((s.endRead tag).dropKind3 id).respond_leaves false h b 0 0 (padTo y.len data)
  rw [State.readNext, State.takeReads_none (by rw [host]; exact hq), State.atomicsDue_none (by rw [atomics]; exact ha)]

/-- The checks of an entry rest on what the rings, the tenant's enable, the classes, the streams and the slots are. -/
theorem State.checkEntry_congr {s u : State} {fn : Nat} (hring : u.ringOn fn = s.ringOn fn) (heff : u.eff = s.eff)
    (himage : u.image = s.image) (hregs : u.regs = s.regs) (hsvc : u.svc = s.svc) (hfns : u.host.fns = s.host.fns)
    (e : List Byte) : u.checkEntry fn e = s.checkEntry fn e := by
  have slot (i : Nat) : u.slotOf fn i = s.slotOf fn i := by simp only [State.slotOf, State.fn, hfns]
  have tag : u.tagOn fn = s.tagOn fn := by simp only [State.tagOn, State.tenantBit, State.inForce, heff]
  have create (cls src i o : Nat) : u.createRefusal fn cls src i o = s.createRefusal fn cls src i o := by
    have cls' : u.classOf cls = s.classOf cls := by simp only [State.classOf, himage]
    have quota : u.rd R.hstQuotaSet 0 fn = s.rd R.hstQuotaSet 0 fn := by simp only [State.rd, State.rawAt, hregs]
    have held : u.held fn = s.held fn := by simp only [State.held, hsvc]
    unfold State.createRefusal
    rw [cls', quota, held, hsvc]
  simp only [State.checkEntry, hring, tag, create, slot]

theorem State.modQueue_ringOn (s : State) (fn q : Nat) {f : Queue → Queue} (h : ∀ x, (f x).state = x.state) (k : Nat) :
    (s.modQueue fn q f).ringOn k = s.ringOn k := by
  funext r
  have state : ((s.modQueue fn q f).queue k r).state = (s.queue k r).state := by
    simp only [State.queue, State.modQueue, mget_mput]
    split
    · rename_i key; rw [h, key]
    · rfl
  simp only [State.ringOn, state]

/-- What a queue's entry or job is does not change a check. -/
theorem State.modQueue_checkEntry (s : State) (fn q : Nat) {f : Queue → Queue} (h : ∀ x, (f x).state = x.state) (e : List Byte) :
    (s.modQueue fn q f).checkEntry fn e = s.checkEntry fn e :=
  State.checkEntry_congr (s.modQueue_ringOn fn q h fn) rfl rfl rfl rfl rfl e

/-- What is still asked for does not change a check. -/
theorem State.endRead_checkEntry (s : State) (tag fn : Nat) (e : List Byte) :
    (s.endRead tag).checkEntry fn e = s.checkEntry fn e :=
  State.checkEntry_congr rfl rfl rfl rfl rfl rfl e

/-! ### A SUBMIT whose input is complete (R295) -/

/-- The stream that a SUBMIT of class `cls` has created under an ID, all others as they were. -/
def Created (s t : State) (fn cls : Nat) : Prop :=
  ∃ id z, t.stream id = some z ∧ z.tenant = fn ∧ z.cls = cls ∧ ∀ k, k ≠ id → t.stream k = s.stream k

theorem State.setStream_stream (s : State) (id k : Nat) (x : Stream) :
    (s.setStream id x).stream k = if k = id then some x else s.stream k := by
  by_cases h : k = id
  · simp [State.stream, State.setStream, State.modSvc, h]
  · simp [State.stream, State.setStream, State.modSvc, h, mfind_mput_ne]

/-- Reads that are asked for leave queues, slots, streams, memory, the fabric and the ports. -/
theorem AsksReads.leaves {s t : State} (h : AsksReads s t) :
    (∀ fn q, t.queue fn q = s.queue fn q) ∧ t.host.fns = s.host.fns ∧ t.svc = s.svc ∧ t.mem = s.mem ∧ t.fabric = s.fabric ∧
      t.ports = s.ports := by
  obtain ⟨_, _, _, _, rfl⟩ := h
  exact ⟨fun _ _ => rfl, rfl, rfl, rfl, rfl, rfl⟩

/-- The next fetch leaves of its queue all but `fetching`, and slots, streams, memory, the fabric and the ports. -/
theorem State.fetch_leaves (s : State) (fn q : Nat) :
    (((s.fetch fn q).queue fn q).fetched = (s.queue fn q).fetched ∧ ((s.fetch fn q).queue fn q).job = (s.queue fn q).job) ∧
      (s.fetch fn q).host.fns = s.host.fns ∧ (s.fetch fn q).svc = s.svc ∧ (s.fetch fn q).mem = s.mem ∧
      (s.fetch fn q).fabric = s.fabric ∧ (s.fetch fn q).ports = s.ports := by
  obtain e | asks := s.fetch_asks fn q
  · rw [e]
    exact ⟨⟨rfl, rfl⟩, rfl, rfl, rfl, rfl, rfl⟩
  · obtain ⟨queue, fns, svc, mem, fabric, ports⟩ := asks.leaves
    refine ⟨?_, fns, svc, mem, fabric, ports⟩
    rw [queue, State.modQueue_self]
    exact ⟨rfl, rfl⟩

/-- A slot that is bound is PENDING; its function's other state, queues, streams, memory, the fabric and the ports stand (R302). -/
theorem State.bindSlot_spec (s : State) (fn i stream : Nat) :
    ((s.bindSlot fn i stream).1.slotOf fn i).state = 1 ∧ (∀ k q, (s.bindSlot fn i stream).1.queue k q = s.queue k q) ∧
      (s.bindSlot fn i stream).1.svc = s.svc ∧ (s.bindSlot fn i stream).1.mem = s.mem ∧
      (s.bindSlot fn i stream).1.fabric = s.fabric ∧ (s.bindSlot fn i stream).1.ports = s.ports := by
  simp [State.bindSlot, State.slotOf, State.setSlot, State.fn, State.queue, State.modFn]

/-- What a SUBMIT leaves once its entry `e` is accepted (R295): its stream, and where it asks for one a PENDING slot. -/
structure Accepted (s t : State) (fn q : Nat) (e : List Byte) : Prop where
  job : (t.queue fn q).job = none
  stream : Created s t fn (cmdAt e 5 1)
  slot : bit (cmdAt e 1 1) 0 = true → (t.slotOf fn (cmdAt e 6 2)).state = 1
  mem : t.mem = s.mem
  fabric : t.fabric = s.fabric
  ports : t.ports = s.ports

/-- The state in which a SUBMIT's stream is about to be stored under an ID. -/
structure Submitting (s u : State) (fn q id : Nat) : Prop where
  job : (u.queue fn q).job = none
  streams : ∀ k, k ≠ id → u.stream k = s.stream k
  mem : u.mem = s.mem
  fabric : u.fabric = s.fabric
  ports : u.ports = s.ports

theorem Submitting.setStream {s u : State} {fn q id : Nat} (h : Submitting s u fn q id) (x : Stream) :
    Submitting s (u.setStream id x) fn q id :=
  ⟨h.job, fun k hk => by rw [State.setStream_stream, if_neg hk, h.streams k hk], h.mem, h.fabric, h.ports⟩

theorem Submitting.created {s u : State} {fn q id cls : Nat} (h : Submitting s u fn q id) {x : Stream} (ht : x.tenant = fn)
    (hc : x.cls = cls) : Created s (u.setStream id x) fn cls :=
  ⟨id, x, by simp [State.setStream_stream], ht, hc, (h.setStream x).streams⟩

/-- A SUBMIT without a slot. -/
theorem Submitting.accepted {s u : State} {fn q id : Nat} (h : Submitting s u fn q id) {e : List Byte} {x : Stream}
    (ht : x.tenant = fn) (hc : x.cls = cmdAt e 5 1) (hs : bit (cmdAt e 1 1) 0 ≠ true) : Accepted s (u.setStream id x) fn q e :=
  ⟨h.job, h.created ht hc, fun hb => absurd hb hs, h.mem, h.fabric, h.ports⟩

/-- A SUBMIT with a slot, which is bound to its stream. -/
theorem Submitting.acceptedBound {s u : State} {fn q id : Nat} (h : Submitting s u fn q id) {e : List Byte} {x : Stream}
    (ht : x.tenant = fn) (hc : x.cls = cmdAt e 5 1) :
    Accepted s ((u.bindSlot fn (cmdAt e 6 2) id).1.setStream id x) fn q e := by
  obtain ⟨slot, queue, svc, mem, fabric, ports⟩ := u.bindSlot_spec fn (cmdAt e 6 2) id
  have bound : Submitting s (u.bindSlot fn (cmdAt e 6 2) id).1 fn q id :=
    ⟨by rw [queue, h.job], fun k hk => by rw [← h.streams k hk, State.stream, svc]; rfl, mem.trans h.mem,
      fabric.trans h.fabric, ports.trans h.ports⟩
  exact ⟨bound.job, bound.created ht hc, fun _ => slot, bound.mem, bound.fabric, bound.ports⟩

/-- Units that wait for a commit, and the next fetch, leave what was accepted. -/
theorem Accepted.arriveFetch {s t : State} {fn q : Nat} {e : List Byte} (h : Accepted s t fn q e) (l : List Unit_) :
    Accepted s ((t.arrive l).fetch fn q) fn q e := by
  obtain ⟨⟨-, job⟩, fns, svc, mem, fabric, ports⟩ := (t.arrive l).fetch_leaves fn q
  have stream (k : Nat) : ((t.arrive l).fetch fn q).stream k = t.stream k := by rw [State.stream, svc]; rfl
  have slot (i : Nat) : ((t.arrive l).fetch fn q).slotOf fn i = t.slotOf fn i := by rw [State.slotOf, State.fn, fns]; rfl
  exact ⟨job.trans h.job, by simpa only [Created, stream] using h.stream, by simpa only [slot] using h.slot, mem.trans h.mem,
    fabric.trans h.fabric, ports.trans h.ports⟩

/-- A SUBMIT that still passes its checks is accepted. -/
theorem State.acceptSubmit_accepted (s : State) (fn q : Nat) (j : Submit) (h : s.checkEntry fn j.entry = 0) :
    Accepted s (s.acceptSubmit fn q j) fn q j.entry := by
  have passes := (s.modQueue_checkEntry fn q (f := fun x => { x with job := none }) (by intro; rfl) j.entry).trans h
  unfold State.acceptSubmit
  dsimp only
  rw [if_neg (not_not.mpr passes)]
  refine Accepted.arriveFetch ?_ _
  have begun (id : Nat) : Submitting s (s.modQueue fn q (fun x => { x with job := none })).draw fn q id :=
    ⟨congrArg Queue.job (s.modQueue_self fn q (fun x => { x with job := none })), fun _ _ => rfl, rfl, rfl, rfl⟩
  split
  · exact ((begun _).setStream _).acceptedBound rfl rfl
  · rename_i hs
    exact (begun _).accepted rfl rfl hs

/-- The last part of a SUBMIT's input has been read, and the SUBMIT still passes its checks. -/
theorem exec_inputRead {s : State} {tag fn addr q part : Nat} {j : Submit} {data : List Byte}
    (hw : Awaits s tag fn addr (.input fn q part)) (hj : (s.queue fn q).job = some j)
    (hl : (mput j.got part (padTo ((j.parts.getD part (0, ⟨0, 0, false⟩)).2.len) data)).length = j.parts.length)
    (hc : s.checkEntry fn j.entry = 0) :
    Gives (.hostReadCompletion tag (.ok data)) s (fun t => (t.queue fn q).job = none ∧ Created s t fn (cmdAt j.entry 5 1) ∧
      (bit (cmdAt j.entry 1 1) 0 = true → (t.slotOf fn (cmdAt j.entry 6 2)).state = 1) ∧ t.mem = s.mem) := by
  have accepted := (s.endRead tag).acceptSubmit_accepted fn q
    { j with got := mput j.got part (padTo ((j.parts.getD part (0, ⟨0, 0, false⟩)).2.len) data) }
    ((s.endRead_checkEntry tag fn j.entry).trans hc)
  have done : (s.endRead tag).readDone (.input fn q part) data = (s.endRead tag).acceptSubmit fn q
      { j with got := mput j.got part (padTo ((j.parts.getD part (0, ⟨0, 0, false⟩)).2.len) data) } := by
    have job : ((s.endRead tag).queue fn q).job = some j := hj
    simp only [State.readDone, job, hl, if_true]
  refine ⟨_, exec_readCompleted hw (by simp) data, ?_⟩
  rw [done]
  obtain ⟨rest, -, ha, -⟩ := hw
  obtain ⟨job, stream, slot, mem, fabric, ports⟩ := accepted
  obtain ⟨queue, fns, svc, mem', -, -⟩ := (State.readNext_asks (rest.of_same fabric ports) (by rw [fabric]; exact ha)).leaves
  refine ⟨by rw [queue, job], ?_, ?_, mem'.trans mem⟩
  · obtain ⟨id, z, hz, ht, hcls, others⟩ := stream
    refine ⟨id, z, ?_, ht, hcls, fun k hk => ?_⟩
    · rw [State.stream, svc]; exact hz
    · rw [State.stream, svc]; exact others k hk
  · rw [State.slotOf, State.fn, fns]
    exact slot

/-! ### Fetched entries (R294 to R296) -/

/-- Queue `q` of a function that is up runs, with entry `e` fetched. -/
def HasFetched (s : State) (fn q : Nat) (e : List Byte) : Prop :=
  (s.queue fn q).fetched = some e ∧ (s.queue fn q).state = .run ∧ s.fnUp fn = true

/-- The state with a queue's fetched entry taken. -/
def State.takeEntry (s : State) (fn q : Nat) : State := s.modQueue fn q (fun z => { z with fetched := none })

/-- The state in which a SUBMIT has become its queue's job. -/
def State.takeJob (s : State) (fn q : Nat) (e : List Byte) : State :=
  (s.takeEntry fn q).modQueue fn q (fun y => { y with job := some ⟨e, [], []⟩ })

theorem State.takeJob_queue (s : State) (fn q : Nat) (e : List Byte) :
    (s.takeJob fn q e).queue fn q = { s.queue fn q with fetched := none, job := some ⟨e, [], []⟩ } := by
  rw [State.takeJob, State.modQueue_self, State.takeEntry, State.modQueue_self]

/-- The parts of a SUBMIT's input and output ranges. -/
def submitParts (e : List Byte) : List Part :=
  pages (cmdAt e 0x10 8) (cmdAt e 8 4) false ++ pages (cmdAt e 0x18 8) (cmdAt e 12 4) true

theorem State.takeEntry_checkEntry (s : State) (fn q : Nat) (e : List Byte) :
    (s.takeEntry fn q).checkEntry fn e = s.checkEntry fn e :=
  s.modQueue_checkEntry fn q (by intro; rfl) e

theorem State.process_nothing {s : State} {fn q : Nat} (h : (s.queue fn q).fetched = none) (submit : Bool) :
    s.process fn q submit = s := by
  simp only [State.process, h]

/-- The other command's entry is left. -/
theorem State.process_other {s : State} {fn q : Nat} {e : List Byte} (h : HasFetched s fn q e) {submit : Bool}
    (ho : (cmdAt e 0 1 == 2) ≠ submit) : s.process fn q submit = s := by
  obtain ⟨hf, -, -⟩ := h
  simp [State.process, hf, ho]

/-- An entry of the command's own is taken and checked. -/
theorem State.process_own {s : State} {fn q : Nat} {e : List Byte} (h : HasFetched s fn q e) {submit : Bool}
    (ho : (cmdAt e 0 1 == 2) = submit) : s.process fn q submit =
      if s.checkEntry fn e ≠ 0 then ((s.takeEntry fn q).refuse fn q e (s.checkEntry fn e) 0).fetch fn q
      else if submit then (s.takeJob fn q e).walk fn (.submit fn q) (submitParts e)
      else if s.inTick then ((s.takeEntry fn q).modSvc (fun v => { v with
        egress := v.egress ++ [.nop fn q (cmdAt e 4 1) (cmdAt e 2 2)] })).fetch fn q
      else ((s.takeEntry fn q).nopDone fn q (cmdAt e 4 1) (cmdAt e 2 2) s.tick.count).fetch fn q := by
  obtain ⟨hf, hs, hu⟩ := h
  have own : ¬((cmdAt e 0 1 == 2) != submit || (s.queue fn q).state != .run || !s.fnUp fn) = true := by simp [ho, hs, hu]
  simp only [State.process, hf]
  rw [if_neg own, ← s.takeEntry_checkEntry fn q e]
  rfl

/-- A NOP that passes its checks in a tick waits for the commit (R296). -/
theorem State.nopHeld (s : State) (fn q ring cmdId : Nat) :
    let t := ((s.takeEntry fn q).modSvc (fun v => { v with egress := v.egress ++ [.nop fn q ring cmdId] })).fetch fn q
    (t.queue fn q).fetched = none ∧ t.svc.egress = s.svc.egress ++ [.nop fn q ring cmdId] ∧ t.mem = s.mem := by
  intro t
  obtain ⟨⟨fetched, -⟩, -, svc, mem, -, -⟩ := ((s.takeEntry fn q).modSvc (fun v => { v with
    egress := v.egress ++ [.nop fn q ring cmdId] })).fetch_leaves fn q
  have taken := congrArg Queue.fetched (s.modQueue_self fn q (fun z => { z with fetched := none }))
  exact ⟨fetched.trans taken, congrArg Service.egress svc, mem⟩

end Sys2Proof.Machine
end

section
/-!
PROOF. The host port's walks, invalidation, credits and unmasked vectors (01 R25, R27; 11 R263, R297, R305, R308, R310), and the
settling of O48.
-/
namespace Sys2Proof.Machine

/-! ### A SUBMIT's first walk (R295, R305) -/

/-- A walk under way reads its level's entry. -/
theorem State.readLevel_reads (s : State) (w : Walk) (h : s.host.reads.length < 1024) : s.readLevel w =
    (s.modHost (fun x => { x with
      walks := x.walks ++ [w], tags := (x.tags + 1) % 16384,
      reads := x.reads ++ [(x.tags, w.tenant, entryAddr w.table (s.va w.tenant w.part.off) w.level, .walk w.id)] })).send
        (.hostRead s.host.tags (entryAddr w.table (s.va w.tenant w.part.off) w.level) 8) := by
  rw [State.readLevel, State.readHost]
  exact if_pos h

/-- The state with one walk more numbered and counted. -/
def State.countWalk (s : State) : State :=
  (s.modHost (fun h => { h with walkIds := s.host.walkIds + 1 })).cnt R.xltWalks

/-- No cached leaf serves the part that is next: its walk begins at the tenant's root table. -/
theorem State.translate_miss {s : State} {fn : Nat} {z : Part} (miss : s.hit fn (s.va fn z.off) z.write = none)
    (on : s.rootOn fn = true) (outside : s.inBars (s.root fn) 4096 = false) (id : Nat) (use : WalkUse)
    (done : List (Nat × Part)) (l : List Part) : s.translate id fn use done (z :: l) =
      ((s.cnt R.xltWalks).readLevel ⟨id, fn, z, 1, s.root fn, l, done, use, false⟩, .going) := by
  simp [State.translate, miss, on, outside]

/-- No cached leaf serves the first part of all: a walk begins with it. -/
theorem State.walk_begins {s : State} {fn : Nat} {z : Part} {l : List Part} (use : WalkUse) (hz : l.head? = some z)
    (miss : s.hit fn (s.va fn z.off) z.write = none) (on : s.rootOn fn = true) (outside : s.inBars (s.root fn) 4096 = false) :
    s.walk fn use l = s.countWalk.readLevel ⟨s.host.walkIds, fn, z, 1, s.root fn, l.tail, [], use, false⟩ := by
  obtain ⟨r, rfl⟩ := List.head?_eq_some_iff.mp hz
  have begun := State.translate_miss (s := s.modHost (fun h => { h with walkIds := s.host.walkIds + 1 })) miss on outside
    s.host.walkIds use [] r
  simp only [State.walk, begun, State.walkEnd]
  rfl

/-- Where its page is not frozen, a counter has counted once it is stored. -/
theorem State.cnt_counts (s : State) (r : Reg) (i n : Nat) : Counts s (s.cnt r i n) r i n := by
  intro unfrozen
  have saturates : satAdd (s.rd r i) n < 2 ^ 32 := by simp only [satAdd, cntMax]; omega
  have counted : s.cnt r i n = s.wr r (satAdd (s.rd r i) n) i := by simp [State.cnt, unfrozen]
  rw [counted, State.wr_rd, Nat.mod_eq_of_lt saturates]

theorem State.countWalk_host (s : State) : s.countWalk.host = { s.host with walkIds := s.host.walkIds + 1 } :=
  State.cnt_host ..

theorem State.countWalk_out (s : State) : s.countWalk.out = s.out := State.cnt_out ..

theorem State.countWalk_mem (s : State) : s.countWalk.mem = s.mem := State.cnt_mem ..

theorem State.countWalk_counts (s : State) : Counts s s.countWalk R.xltWalks 0 1 :=
  State.cnt_counts (s.modHost (fun h => { h with walkIds := s.host.walkIds + 1 })) R.xltWalks 0 1

/-- The count of walks leaves the tenant's base. -/
theorem State.countWalk_va (s : State) (t off : Nat) : s.countWalk.va t off = s.va t off := by
  have base : s.countWalk.rd R.xltBase 0 t = s.rd R.xltBase 0 t := by
    refine State.cnt_rawAt_ne _ ?_
    simp only [regKey, pageNo, pageCode, R.xltBase, R.xltWalks]
    omega
  simp only [State.va, base]

/-- What a SUBMIT leaves whose first part `z` no cached leaf serves: its job, and the walk of that part, begun. -/
def WalkBegins (s : State) (fn q : Nat) (e : List Byte) (z : Part) (t : State) : Prop :=
  (t.queue fn q).fetched = none ∧ (t.queue fn q).job = some ⟨e, [], []⟩ ∧ t.host.walkIds = s.host.walkIds + 1 ∧
    t.out = s.out ++ [.hostRead s.host.tags (entryAddr (s.root fn) (s.va fn z.off) 1) 8] ∧
    (∃ w ∈ t.host.walks, w.id = s.host.walkIds ∧ w.tenant = fn ∧ w.part = z ∧ w.level = 1 ∧ w.table = s.root fn ∧
      w.use = .submit fn q ∧ w.stale = false) ∧ Counts s t R.xltWalks 0 1 ∧ t.mem = s.mem

theorem walkBegins {s : State} {fn q : Nat} {e : List Byte} {z : Part} (h : HasFetched s fn q e) (ho : cmdAt e 0 1 = 2)
    (hc : s.checkEntry fn e = 0) (hz : (submitParts e).head? = some z) (miss : s.hit fn (s.va fn z.off) z.write = none)
    (on : s.rootOn fn = true) (outside : s.inBars (s.root fn) 4096 = false) (room : s.host.reads.length < 1024) :
    WalkBegins s fn q e z (s.process fn q true) := by
  have begins : s.process fn q true = (s.takeJob fn q e).countWalk.readLevel
      ⟨s.host.walkIds, fn, z, 1, s.root fn, (submitParts e).tail, [], .submit fn q, false⟩ := by
    rw [State.process_own h (by simp [ho]), if_neg (not_not.mpr hc), if_pos rfl]
    exact State.walk_begins (s := s.takeJob fn q e) (.submit fn q) hz miss on outside
  have host := (s.takeJob fn q e).countWalk_host
  have counts : Counts s (s.takeJob fn q e).countWalk R.xltWalks 0 1 := State.countWalk_counts (s.takeJob fn q e)
  have va : (s.takeJob fn q e).countWalk.va fn z.off = s.va fn z.off := State.countWalk_va ..
  have out : (s.takeJob fn q e).countWalk.out = s.out := State.countWalk_out _
  have queue : (s.takeJob fn q e).countWalk.queue fn q = (s.takeJob fn q e).queue fn q := by rw [State.queue, host]; rfl
  rw [State.takeJob_queue] at queue
  rw [begins, State.readLevel_reads _ _ (by rw [host]; exact room)]
  refine ⟨congrArg Queue.fetched queue, congrArg Queue.job queue, congrArg HostPort.walkIds host, ?_,
    ⟨⟨s.host.walkIds, fn, z, 1, s.root fn, (submitParts e).tail, [], .submit fn q, false⟩, by simp [State.modHost, State.send],
      rfl, rfl, rfl, rfl, rfl, rfl, rfl⟩, counts, State.countWalk_mem _⟩
  rw [State.send_out, State.modHost_out, out, host, va]
  rfl

/-! ### Invalidation (R308) -/

theorem exec_invalidateComplete {s : State} {k : Nat × Nat × Nat × Nat} (busy : s.host.inval = some k)
    (walks : ∀ w ∈ s.host.walks, w.stale = false) (held : ∀ o ∈ s.host.held, o.meets k = false) (egress : s.svc.egress = []) :
    exec .invalidateComplete s = .next (s.modHost (fun y => { y with inval := none })) := by
  change execInvalidateComplete s = _
  have noWalk : s.host.walks.any (fun w => w.stale) = false := by simpa using walks
  have noWrite : s.host.held.any (fun o => o.meets k) = false := by simpa using held
  simp [execInvalidateComplete, busy, noWalk, noWrite, egress]

/-- A walk that was under way remains, or no invalidation does. -/
theorem exec_invalidateComplete_waits {s : State} (h : (∃ w ∈ s.host.walks, w.stale = true) ∨ s.host.inval = none) :
    exec .invalidateComplete s = .next s := by
  change execInvalidateComplete s = _
  obtain walk | idle := h
  · have stale : s.host.walks.any (fun w => w.stale) = true := by simpa using walk
    cases busy : s.host.inval with
    | none => simp [execInvalidateComplete, busy]
    | some k => simp [execInvalidateComplete, busy, stale]
  · simp [execInvalidateComplete, idle]

/-! ### Posted credits (R25, R263, R297) -/

theorem State.freeId_stream (s : State) (id k : Nat) : (s.freeId id).stream k = if k = id then none else s.stream k :=
  mfind_merase ..

/-- The stream whose completion entry leaves falls free. -/
theorem State.post_stream (s : State) (o : HostOut) (k : Nat) :
    (s.post o).stream k = if o.stream == some k then none else s.stream k := by
  unfold State.post State.freeOf
  split
  · rename_i id hid
    rw [State.freeId_stream, hid]
    by_cases same : k = id
    · simp [same]
    · have other : id ≠ k := fun h => same h.symm
      simp [same, other]
      rfl
  · rename_i bare
    simp [bare]
    rfl

/-- Held writes leave in their order, and each stream whose completion entry is among them falls free. -/
theorem State.eachPost (l : List HostOut) (s : State) :
    (s.each l State.post).out = s.out ++ l.map (·.out) ∧ (s.each l State.post).host = s.host ∧
      (s.each l State.post).regs = s.regs ∧
      (∀ k, (s.each l State.post).stream k = if l.any (fun o => o.stream == some k) then none else s.stream k) ∧
      (s.each l State.post).mem = s.mem := by
  induction l generalizing s with
  | nil => exact ⟨by simp [State.each], rfl, rfl, fun _ => rfl, rfl⟩
  | cons o l ih =>
    obtain ⟨out, host, regs, stream, mem⟩ := ih (s.post o)
    have first : s.each (o :: l) State.post = (s.post o).each l State.post := rfl
    rw [first]
    refine ⟨by simp [out], by simp [host], by simp [regs], fun k => ?_, by simp [mem]⟩
    rw [stream, State.post_stream, List.any_cons]
    cases o.stream == some k <;> simp

/-! ### MSI-X (R310) -/

theorem mem_addOnce (l : List Nat) (x : Nat) : x ∈ addOnce l x := by
  unfold addOnce
  split
  · simp_all
  · simp

theorem notMem_dropAll (l : List Nat) (x : Nat) : x ∉ dropAll l x := by simp [dropAll]

/-- A message to the host leaves every function's state. -/
theorem State.toHost_fn (s : State) (o : HostOut) (k : Nat) : (s.toHost o).fn k = s.fn k := by
  unfold State.toHost
  split
  · simp [State.fn]
  · split
    · rfl
    · simp [State.fn]

/-- A message of a function not being reset leaves at once where posted credits are not short. -/
theorem State.toHost_leaves {s : State} {o : HostOut} (reset : (s.fn o.fn).flr = false) (flows : s.host.stalled = false) :
    s.toHost o = s.post o := by
  simp [State.toHost, reset, flows]

/-- The function's state with a vector unmasked, its message no longer held. -/
def Function.unmask (f : Function) (v : Nat) : Function :=
  { f with unmasked := addOnce f.unmasked v, pendingMsg := dropAll f.pendingMsg v }

theorem exec_msixUnmask (s : State) (fn : Fin 256) (v : Fin 2048) (own : fn.val = 0 ∨ v.val < 8) :
    (v.val ∈ (s.fn fn).pendingMsg → exec (.msixUnmask fn v) s =
      .next ((s.modFn fn (fun f => f.unmask v)).toHost ⟨.msix fn v, fn, none, none⟩)) ∧
    (v.val ∉ (s.fn fn).pendingMsg → exec (.msixUnmask fn v) s = .next (s.modFn fn (fun f => f.unmask v))) := by
  have has : ¬(fn.val ≠ 0 ∧ 8 ≤ v.val) := by omega
  refine ⟨fun held => ?_, fun free => ?_⟩
  · change execMsixUnmask fn v s = _
    rw [execMsixUnmask, if_neg has, if_pos (by simpa using held)]
    rfl
  · change execMsixUnmask fn v s = _
    rw [execMsixUnmask, if_neg has, if_neg (by simpa using free)]
    rfl

/-- A vector's message is no longer held once the vector is unmasked. -/
def Unmasked (s : State) (fn v : Nat) (t : State) : Prop :=
  v ∈ (t.fn fn).unmasked ∧ v ∉ (t.fn fn).pendingMsg ∧ t.mem = s.mem ∧ (v ∉ (s.fn fn).pendingMsg → t.out = s.out) ∧
    (v ∈ (s.fn fn).pendingMsg → (s.fn fn).flr = false → s.host.stalled = false → t.out = s.out ++ [.msix fn v])

theorem unmasked (s : State) (fn : Fin 256) (v : Fin 2048) (own : fn.val = 0 ∨ v.val < 8) :
    Gives (.msixUnmask fn v) s (Unmasked s fn v) := by
  obtain ⟨sends, keeps⟩ := exec_msixUnmask s fn v own
  have fn' : (s.modFn fn (fun f => f.unmask v)).fn fn = (s.fn fn).unmask v := State.modFn_self ..
  by_cases held : v.val ∈ (s.fn fn).pendingMsg
  · refine ⟨_, sends held, ?_, ?_, by simp, fun free => absurd held free, fun _ reset flows => ?_⟩
    · rw [State.toHost_fn, fn']
      exact mem_addOnce ..
    · rw [State.toHost_fn, fn']
      exact notMem_dropAll _ v
    · have starts : ((s.modFn fn (fun f => f.unmask v)).fn fn).flr = false := by rw [fn']; exact reset
      rw [State.toHost_leaves (o := ⟨.msix fn v, fn, none, none⟩) starts flows, State.post_out]
      rfl
  · refine ⟨_, keeps held, ?_, ?_, rfl, fun _ => rfl, fun h => absurd h held⟩
    · rw [fn']
      exact mem_addOnce ..
    · rw [fn']
      exact notMem_dropAll _ v

/-- A VF has no such vector. -/
theorem exec_msixUnmask_none (s : State) (fn : Fin 256) (v : Fin 2048) (vf : fn.val ≠ 0) (past : 8 ≤ v.val) :
    exec (.msixUnmask fn v) s = .next s := by
  change execMsixUnmask fn v s = _
  rw [execMsixUnmask, if_pos ⟨vf, past⟩]

/-! ### Fetched NOP and SUBMIT entries (R294 to R296) -/

/-- A queue's fetched entry, refused with its check's status. -/
def State.refuseEntry (s : State) (fn q : Nat) (e : List Byte) : State :=
  ((s.takeEntry fn q).refuse fn q e (s.checkEntry fn e) 0).fetch fn q

/-- An entry that does not pass its checks is refused, whichever command takes it. -/
theorem State.process_refused {s : State} {fn q : Nat} {e : List Byte} (h : HasFetched s fn q e) {submit : Bool}
    (ho : (cmdAt e 0 1 == 2) = submit) (hc : s.checkEntry fn e ≠ 0) : s.process fn q submit = s.refuseEntry fn q e := by
  rw [State.process_own h ho, if_pos hc, State.refuseEntry]

theorem exec_nop_checked {s : State} {fn : Fin 256} {q : Fin 64} {e : List Byte} (h : HasFetched s fn q e)
    (ho : cmdAt e 0 1 ≠ 2) (hc : s.checkEntry fn e = 0) :
    (s.inTick = true → exec (.nop fn q) s = .next (((s.takeEntry fn q).modSvc (fun v => { v with
      egress := v.egress ++ [.nop fn q (cmdAt e 4 1) (cmdAt e 2 2)] })).fetch fn q)) ∧
    (s.inTick = false → exec (.nop fn q) s = .next
      (((s.takeEntry fn q).nopDone fn q (cmdAt e 4 1) (cmdAt e 2 2) s.tick.count).fetch fn q)) := by
  have own : (cmdAt e 0 1 == 2) = false := by simpa using ho
  have taken (b : Bool) (hb : s.inTick = b) : exec (.nop fn q) s = .next (if b then ((s.takeEntry fn q).modSvc (fun v =>
      { v with egress := v.egress ++ [.nop fn q (cmdAt e 4 1) (cmdAt e 2 2)] })).fetch fn q
      else ((s.takeEntry fn q).nopDone fn q (cmdAt e 4 1) (cmdAt e 2 2) s.tick.count).fetch fn q) := by
    change Host.Outcome.next (s.process fn q false) = _
    rw [State.process_own h own, if_neg (not_not.mpr hc), if_neg Bool.false_ne_true, hb]
  exact ⟨taken true, taken false⟩

/-- Settles O48: each request is followed through the model to its answer, its count or what it leaves. -/
theorem hostRequests : Obligations.HostRequests := by
  unfold Obligations.HostRequests
  intro s fn q addr len tag n id pa wr data bad v e j part port h b y f x left waits slot within fails misaligned fetched refused p
    taken
  obtain ⟨config, unreleased⟩ := exec_configRequest s fn
  obtain ⟨slotRead, slotMissed⟩ := exec_resultSlotRead s fn addr len
  have entryLost (i : Instr) (k : Nat) (hw : waits (.entry fn q))
      (e : exec i s = .next ((((s.endRead tag).send (.aer k)).readFailed fn addr (.entry fn q)).readNext)) : fails i k :=
    ⟨_, e, entryFails hw⟩
  refine ⟨config, unreleased, rfl, slotRead, slotMissed, exec_bar0BadAccess s fn, exec_bar0BadAccess_aligned s wr, ?_, ?_,
    exec_inputRead, fun gone => exec_completion_none gone (.ok data), ?_, ?_, ?_,
    fun k => exec_invalidateComplete, exec_invalidateComplete_waits, rfl, ⟨_, rfl, State.eachPost _ _⟩, unmasked s fn v,
    exec_msixUnmask_none s fn v⟩
  · intro hw
    refine ⟨exec_entryRead hw data, ?_, ?_, entryLost _ 0 hw (exec_completionTimeout hw)⟩
    · rintro rfl
      exact entryLost _ 1 hw (exec_readFailed hw (by simp))
    · intro failed clean
      refine entryLost _ 0 hw ((exec_readFailed hw failed).trans ?_)
      cases bad with
      | poisoned => exact absurd rfl clean
      | _ => rfl
  · intro hw hk hp ho
    exact exec_windowRead hw hk hp ho data
  · intro hf ho
    refine ⟨fun hc inTick => ⟨_, (exec_nop_checked hf ho hc).1 inTick, s.nopHeld ..⟩, fun hc => ?_, ?_,
      fun hc => (exec_nop_checked hf ho hc).2⟩
    · exact congrArg Host.Outcome.next (State.process_refused hf (by simpa using ho) hc)
    · exact congrArg Host.Outcome.next (State.process_other hf (by simpa using ho))
  · intro hf ho
    refine ⟨fun hc => ?_, ?_, fun z hc hz miss on outside room => ⟨_, rfl, walkBegins hf ho hc hz miss on outside room⟩⟩
    · exact congrArg Host.Outcome.next (State.process_refused hf (by simpa using ho) hc)
    · exact congrArg Host.Outcome.next (State.process_other hf (by simp [ho]))
  · intro idle
    exact ⟨congrArg Host.Outcome.next (State.process_nothing idle false),
      congrArg Host.Outcome.next (State.process_nothing idle true)⟩

end Sys2Proof.Machine
end

section
/-!
PROOF. Ports in Ethernet mode, the test checkers, IDLE units and probes (02 R39; 08 R228, R229, R232, R236 and Table 08-7).
Settles O29.
-/
namespace Sys2Proof.Machine

/-! ### What a port's own command leaves of the others -/

theorem State.event_onlyPort (s : State) (p : PageType) (i n q : Nat) : OnlyPort s (s.event p i n) q := fun r _ => by
  simp [State.port]

theorem State.modPort_onlyPort (s : State) (p : Nat) (f : Port → Port) : OnlyPort s (s.modPort p f) p := fun q hq => by
  rw [State.modPort_port, if_neg hq]

theorem OnlyPort.refl (s : State) (p : Nat) : OnlyPort s s p := fun _ _ => rfl

theorem OnlyPort.trans {s t u : State} {p : Nat} (h : OnlyPort s t p) (h' : OnlyPort t u p) : OnlyPort s u p :=
  fun q hq => (h' q hq).trans (h q hq)

/-! ### Ethernet mode (R228) -/

/-- A frame on a port whose Ethernet link is up is dropped where Table 08-7 does not support it, else handled by its body. -/
theorem execEthernetFrame_up {s : State} {i : Fin 16} (hm : (s.port i).ethernet = true) (hu : (s.port i).ethUp = true)
    (f : EthFrame) :
    (s.ethBad i f = true → exec (.ethernetFrame i f) s = .next (s.cnt R.prtEthDrop i)) ∧
    (s.ethBad i f = false → exec (.ethernetFrame i f) s = .next (match f.body with
      | .arpRequest a => if a = s.inForce R.ingIp4 0 0 (i.val - 14) then s.send (.neighbourReply i f.srcMac a) else s.cnt R.prtEthDrop i
      | .neighbourSolicit a => if a = s.ownIp6 i then s.send (.neighbourReply i f.srcMac a) else s.cnt R.prtEthDrop i
      | .udp d dp si v6 => if dp = 319 ∨ dp = 320 ∨ s.tilePort i d dp si v6 then s else (s.cnt R.ingDrop).cnt R.prtEthDrop i
      | _ => s)) := by
  refine ⟨fun hb => ?_, fun hb => ?_⟩
  · change execEthernetFrame i f s = _
    simp [execEthernetFrame, hm, hu, hb]
  · change execEthernetFrame i f s = _
    simp only [execEthernetFrame, hm, hu, hb, Bool.true_eq_false, or_self, if_false, Bool.false_eq_true] <;> rfl

/-- A port that is not in Ethernet mode, or has no link, takes no frame. -/
theorem execEthernetFrame_down {s : State} {i : Fin 16} (h : (s.port i).ethernet = false ∨ (s.port i).ethUp = false)
    (f : EthFrame) : exec (.ethernetFrame i f) s = .next s := by
  change execEthernetFrame i f s = _
  rw [execEthernetFrame]
  exact congrArg Host.Outcome.next (if_pos h)

/-- A link that is as the command says, or a port in Ronba mode, is left. -/
theorem State.ethLink_same {s : State} {p : Nat} {up : Bool} (h : (s.port p).ethernet = false ∨ (s.port p).ethUp = up) :
    s.ethLink p up = s := if_pos h

/-- The link of a port in Ethernet mode changes: PRT.STS and its page event show it, and nothing else of the device changes. -/
theorem State.ethLink_changes {s : State} {p : Nat} {up : Bool} (hm : (s.port p).ethernet = true) (hu : (s.port p).ethUp = !up) :
    (s.ethLink p up).port p = { s.port p with ethUp := up, state := if up then .up else .quiet } ∧
      Signals (s.ethLink p up) .prt p 2 ∧ OnlyPort s (s.ethLink p up) p ∧ SameButPorts s (s.ethLink p up) := by
  have changes : s.ethLink p up =
      (s.modPort p (fun y => { y with ethUp := up, state := if up then .up else .quiet })).event .prt p 2 := by
    refine if_neg ?_
    simp [hm, hu]
  refine ⟨?_, ?_, ?_, s.ethLink_sameButPorts p up⟩
  · rw [changes]
    simp [State.port, State.modPort]
  · rw [changes]
    exact State.event_signals _ _ _ (by decide)
  · rw [changes]
    exact (s.modPort_onlyPort p _).trans (State.event_onlyPort _ _ _ _ _)

/-! ### IDLE units (R236) -/

/-- A unit's codewords are counted; one that arrives whole on a port that is UP, and is reserved or not 0, counts as a bad frame. -/
theorem exec_idleUnit (s : State) (i : Fin 16) (cw : Codewords) :
    (s.portUp i = true → Whole s i cw → ∀ y, exec (.idleUnit i cw y) s = .next (match y with
      | .unit bytes => if bytes.any (fun b => b != 0#8) then (s.takeBlocks i cw).cnt R.fabFrameBad else s.takeBlocks i cw
      | .reserved _ => (s.takeBlocks i cw).cnt R.fabFrameBad)) ∧
    (s.portUp i = false ∨ ¬Whole s i cw → ∀ y, exec (.idleUnit i cw y) s =
      .next (if s.hears i then s.takeBlocks i cw else s)) := by
  refine ⟨fun hup ⟨hears, clean⟩ y => ?_, fun h y => ?_⟩
  · change execIdleUnit i cw y s = _
    simp only [execIdleUnit, hup, hears, clean, Bool.true_eq_false, Bool.false_eq_true, or_self, if_false, if_true] <;> rfl
  · change execIdleUnit i cw y s = _
    refine congrArg Host.Outcome.next (if_pos ?_)
    obtain down | spoilt := h
    · exact .inl down
    · by_cases hears : s.hears i = true
      · simp only [Whole, hears, true_and, Bool.not_eq_false] at spoilt
        exact .inr (.inr spoilt)
      · exact .inr (.inl (by simpa using hears))

theorem any_ne_zero (l : List Byte) : l.any (fun b => b != 0#8) = !l.all (fun b => b == 0#8) := by
  rw [List.not_all_eq_any_not]
  rfl

/-! ### Sending at once (R238) -/

theorem State.portUp_untested {s : State} {p : Nat} (h : s.portUp p = true) : s.flag R.prtCtl 2 p = false := by
  simp only [State.portUp, Bool.and_eq_true, Bool.not_eq_true'] at h
  exact h.2

/-- A port lets a frame out: in low-power idle only those that R386 names. -/
def Port.lets (x : Port) (f : Frame) : Bool := !x.lpi || dozeClass f.content.cls

theorem Port.lets_iff (x : Port) (f : Frame) : x.lets f = true ↔ (x.lpi = true → dozeClass f.content.cls = true) := by
  cases h : x.lpi <;> simp [Port.lets, h]

/-- A lit port that is not in test sends what it lets out (R224, R231, R386). -/
theorem State.transmit_lit {s : State} {p : Nat} (f : Frame) (lit : s.lit p = true) (untested : s.flag R.prtCtl 2 p = false) :
    s.transmit p f = if (s.port p).lets f then s.send (.frame p f) else s := by
  simp [State.transmit, lit, untested, Port.lets]

/-- The state in which a frame of class `cls` is numbered, kept where its class is retried, and its credit spent. -/
def State.numbered (s : State) (p cls : Nat) (f : Frame) : State :=
  (s.modSeq p cls (fun x => { x with next := x.next + 1, unacked := if retried cls then x.unacked ++ [f] else x.unacked })).when
    (cls == 7) (fun t => t.spend p votePool voteUnits)

/-- Numbering a frame changes the port's classes and the credit it has spent. -/
theorem State.numbered_port (s : State) (p cls : Nat) (f : Frame) : ∃ spent, (s.numbered p cls f).port p = { s.port p with
    seqs := mput (s.port p).seqs cls { s.classSeq p cls with
      next := (s.classSeq p cls).next + 1
      unacked := if retried cls then (s.classSeq p cls).unacked ++ [f] else (s.classSeq p cls).unacked }
    spent := spent } := by
  unfold State.numbered State.when
  split
  · exact ⟨_, by simp only [State.spend, State.modSeq, State.modPort_self]; rfl⟩
  · exact ⟨_, by simp only [State.modSeq, State.modPort_self]; rfl⟩

/-- Beyond the ports numbering changes nothing, and of the ports only the frame's. -/
theorem State.numbered_leaves (s : State) (p cls : Nat) (f : Frame) :
    s.numbered p cls f = { s with ports := (s.numbered p cls f).ports } ∧ OnlyPort s (s.numbered p cls f) p := by
  unfold State.numbered State.when
  split
  · exact ⟨rfl, OnlyPort.trans (s.modPort_onlyPort p _) (State.modPort_onlyPort _ p _)⟩
  · exact ⟨rfl, s.modPort_onlyPort p _⟩

/-- A content that can go out at once is numbered, and its frame leaves on the port (R238). -/
theorem State.sendOn_goes {s : State} {p : Nat} {c : Content} (h : CanSend s p c.cls) :
    s.sendOn p c = (s.numbered p c.cls (s.carrier p c)).send (.frame p (s.carrier p c)) := by
  obtain ⟨up, lit, idle, room, free⟩ := h
  obtain ⟨spent, port⟩ := s.numbered_port p c.cls (s.carrier p c)
  have regs : (s.numbered p c.cls (s.carrier p c)).regs = s.regs := by
    rw [(s.numbered_leaves p c.cls (s.carrier p c)).1]
  have sends : s.sendOn p c = (s.numbered p c.cls (s.carrier p c)).transmit p (s.carrier p c) := by
    simp only [State.sendOn, up, room, free, Bool.not_true, Bool.false_eq_true, if_false, List.isEmpty_nil, Bool.and_self, if_true]
    rfl
  rw [sends, State.transmit_lit, if_pos]
  · rw [port]
    exact (Port.lets_iff ..).mpr idle
  · simpa [State.lit, State.optical, port] using lit
  · simpa [State.flag, State.rd, State.rawAt, regs] using State.portUp_untested up

/-- What a content that goes out at once leaves: its frame is sent, its class's next number rises, and the other ports are as
before. -/
theorem State.sendOn_goes_spec {s : State} {p : Nat} {c : Content} (h : CanSend s p c.cls) :
    (s.sendOn p c).out = s.out ++ [.frame p (s.carrier p c)] ∧
      ((s.sendOn p c).classSeq p c.cls).next = (s.classSeq p c.cls).next + 1 ∧ OnlyPort s (s.sendOn p c) p ∧
      SameButPorts s (s.sendOn p c) := by
  obtain ⟨spent, port⟩ := s.numbered_port p c.cls (s.carrier p c)
  obtain ⟨leaves, only⟩ := s.numbered_leaves p c.cls (s.carrier p c)
  have goes := State.sendOn_goes h
  refine ⟨?_, ?_, ?_, s.sendOn_sameButPorts p c⟩
  · rw [goes, leaves]
    rfl
  · rw [goes, State.classSeq, show ((s.numbered p c.cls (s.carrier p c)).send _).port p =
      (s.numbered p c.cls (s.carrier p c)).port p from rfl, port, mget_mput_self]
  · rw [goes]
    exact only

/-- Settles O29: each command goes to its one effect, and what it leaves comes from the laws of its operation. -/
theorem ethernetAndTest : Obligations.EthernetAndTest := by
  unfold Obligations.EthernetAndTest
  intro s i l f cw bytes n t1 x ip drops
  obtain ⟨idleWhole, idleLost⟩ := exec_idleUnit s i cw
  refine ⟨fun hm hu => ?_, fun hm hu => ?_, fun hm => ?_, fun hc => ?_, fun hc => ?_, fun hl => ?_, fun hl => ?_, ⟨fun hup whole => ?_, ?_⟩,
    fun hs => ⟨_, rfl, State.sendOn_goes_spec (c := .probe [t1]) hs⟩, fun hd => ?_⟩
  · obtain ⟨bad, fine⟩ := execEthernetFrame_up hm hu f
    refine ⟨bad, fun hb => ?_, congrArg Host.Outcome.next (State.ethLink_same (.inr hu)), ⟨_, rfl, State.ethLink_changes hm hu⟩⟩
    have handled := fine hb
    refine ⟨fun e => ?_, fun a e ha => ?_, fun e => ?_, fun a e ha => ?_, fun d dp si v6 e => ⟨fun h1 h2 h3 => ?_, fun h => ?_⟩⟩
    · rw [handled, e]
      exact congrArg Host.Outcome.next (if_pos rfl)
    · rw [handled, e]
      exact congrArg Host.Outcome.next (if_neg ha)
    · rw [handled, e]
      exact congrArg Host.Outcome.next (if_pos rfl)
    · rw [handled, e]
      exact congrArg Host.Outcome.next (if_neg ha)
    · rw [handled, e]
      exact congrArg Host.Outcome.next (if_neg (by simp [h1, h2, h3]))
    · rw [handled, e]
      exact congrArg Host.Outcome.next (if_pos h)
  · exact ⟨execEthernetFrame_down (.inr hu) f, congrArg Host.Outcome.next (State.ethLink_same (.inr hu)),
      ⟨_, rfl, State.ethLink_changes hm hu⟩⟩
  · exact ⟨execEthernetFrame_down (.inl hm) f, congrArg Host.Outcome.next (State.ethLink_same (.inl hm)),
      congrArg Host.Outcome.next (State.ethLink_same (.inl hm))⟩
  · exact congrArg Host.Outcome.next (if_pos hc)
  · exact congrArg Host.Outcome.next (if_neg (by simp [hc]))
  · exact congrArg Host.Outcome.next (if_pos hl)
  · exact congrArg Host.Outcome.next (if_neg (by simp [hl]))
  · have hears : s.hears i = true := whole.1
    refine ⟨?_, ?_⟩
    · rw [idleWhole hup whole, if_pos hears]
    · rw [idleWhole hup whole, if_pos hears]
      cases h : bytes.all (fun b => b == 0#8) <;> simp [any_ne_zero, h]
  · exact idleLost
  · exact congrArg Host.Outcome.next (if_pos (by simp [hd]))

end Sys2Proof.Machine
end

section
/-!
PROOF. A link's own frames (02 R39; 09 R240, Table 09-9): STATUS with its credits and acknowledgements, RETRY and the retry
timeout, probes. Settles O31.
-/
namespace Sys2Proof.Machine

/-! ### What receipt leaves of a port (R210, R239, R241, R261) -/

/-- Of the ports only `p` has changed, and of it the counts of codewords, the classes' receive states and keys: no content waits
anew and none has gone, and every port's PRT.CTL stands. -/
structure Listened (s t : State) (p : Nat) : Prop where
  only : OnlyPort s t p
  ctl : ∀ q, t.rd R.prtCtl q = s.rd R.prtCtl q
  port : ∃ blocks unc seqs secure due, t.port p = { s.port p with
    blocks := blocks, uncWindow := unc, seqs := seqs, secure := secure, statusDue := due }
  waiting : ∀ c, (t.classSeq p c).waiting = (s.classSeq p c).waiting

theorem Listened.refl (s : State) (p : Nat) : Listened s s p := ⟨.refl s p, fun _ => rfl, ⟨_, _, _, _, _, rfl⟩, fun _ => rfl⟩

theorem Listened.trans {s t u : State} {p : Nat} (h : Listened s t p) (h' : Listened t u p) : Listened s u p := by
  refine ⟨h.only.trans h'.only, fun q => (h'.ctl q).trans (h.ctl q), ?_, fun c => (h'.waiting c).trans (h.waiting c)⟩
  obtain ⟨_, _, _, _, _, e⟩ := h.port
  obtain ⟨_, _, _, _, _, e'⟩ := h'.port
  exact ⟨_, _, _, _, _, by rw [e', e]⟩

theorem Listened.when {s t : State} {p : Nat} {f : State → State} (c : Bool) (h : Listened s t p) (hf : Listened t (f t) p) :
    Listened s (t.when c f) p := by
  cases c
  · exact h
  · exact h.trans hf

theorem Listened.each {α : Type} {p : Nat} {l : List α} {f : State → α → State} (h : ∀ s a, Listened s (f s a) p) (s : State) :
    Listened s (s.each l f) p := by
  induction l generalizing s with
  | nil => exact .refl s p
  | cons a l ih => exact (h s a).trans (ih _)

/-- A counter of port `p`, beyond PRT.CTL and within its page. -/
theorem State.cnt_listened (s : State) {r : Reg} (p n : Nat) {bank idx : Nat} (hlo : 0x44 ≤ r.off + 4 * idx) (hhi : r.off + 4 * idx < 4096) :
    Listened s (s.cnt r p n bank idx) p := by
  refine ⟨fun q _ => by simp [State.port], fun q => State.cnt_rawAt_ne s ?_, ⟨_, _, _, _, _, by simp [State.port]; rfl⟩,
    fun c => by simp [State.classSeq, State.port]⟩
  simp only [regKey, R.prtCtl]
  omega

theorem State.wr_listened (s : State) {r : Reg} (v p : Nat) (hlo : 0x44 ≤ r.off) (hhi : r.off < 4096) : Listened s (s.wr r v p) p := by
  refine ⟨fun _ _ => rfl, fun q => State.setRaw_rawAt_ne s v ?_, ⟨_, _, _, _, _, rfl⟩, fun _ => rfl⟩
  simp only [regKey, R.prtCtl]
  omega

/-- A change of the port that leaves its classes. -/
theorem State.modPort_listened (s : State) (p : Nat) {f : Port → Port} (h : ∃ blocks unc secure due, f (s.port p) = { s.port p with
    blocks := blocks, uncWindow := unc, secure := secure, statusDue := due }) : Listened s (s.modPort p f) p := by
  obtain ⟨_, _, _, _, e⟩ := h
  refine ⟨s.modPort_onlyPort p f, fun _ => rfl, ⟨_, _, (s.port p).seqs, _, _, by rw [State.modPort_self, e]⟩, fun c => ?_⟩
  rw [State.classSeq, State.modPort_self, e]
  rfl

theorem State.codeword_listened (s : State) (p : Nat) (errs : List Nat) : Listened s (s.codeword p errs) p := by
  unfold State.codeword
  extract_lets lo hi s1 k
  have counted : Listened s s1 p := by
    dsimp only [s1]
    split
    · split
      · exact .refl s p
      · exact (s.wr_listened (r := R.prtCwLo) _ p (by decide) (by decide)).trans
          (State.wr_listened _ (r := R.prtCwHi) _ p (by decide) (by decide))
    · exact s.wr_listened (r := R.prtCwLo) _ p (by decide) (by decide)
  split
  · exact counted
  · refine counted.trans ?_
    split
    · exact (s1.cnt_listened (r := R.prtUncCnt) p 1 (by decide) (by decide)).trans (State.modPort_listened _ p ⟨_, _, _, _, rfl⟩)
    · rename_i correctable
      have within : errs.length ≤ 15 := by simpa [badWord] using correctable
      refine ((s1.cnt_listened (r := R.prtCorrCnt) p 1 (by decide) (by decide)).trans
        (State.cnt_listened _ (r := R.prtHist) p 1 ?_ ?_)).trans
          (Listened.each (fun t l => t.cnt_listened (r := R.prtLaneSym) p 1 (by decide) (by decide)) _)
      all_goals simp only [R.prtHist, k]; omega

theorem State.takeBlocks_listened (s : State) (p : Nat) (l : Codewords) : Listened s (s.takeBlocks p l) p := by
  refine Listened.each (fun t b => ?_) s
  unfold State.codeBlock
  split
  · exact .refl t p
  · exact (t.modPort_listened p ⟨_, _, _, _, rfl⟩).trans (Listened.each (fun u i => u.codeword_listened p (lanesOf b i)) _)

/-- Looking a key up in a table whose values are mapped. -/
theorem mfind_map {α β : Type} (g : α → β) (m : NMap α) (k : Nat) :
    mfind (m.map (fun x => (x.1, g x.2))) k = (mfind m k).map g := by
  induction m with
  | nil => rfl
  | cons x r ih =>
    obtain ⟨a, v⟩ := x
    by_cases e : a = k <;> simp [mfind, e, ih]

/-- A class whose receive state starts anew under a new key. -/
def ClassSeq.restarted (c : ClassSeq) : ClassSeq := { c with top := 0, w0 := 0#64, w1 := 0#64, started := false }

/-- Turning to a new key restarts each class's receive state alone (R261). -/
theorem State.turnKey_listened (s : State) (p : Nat) : Listened s (s.turnKey p) p := by
  refine ⟨s.modPort_onlyPort p _, fun _ => rfl, ⟨_, _, _, _, _, State.modPort_self ..⟩, fun c => ?_⟩
  have seqs : ((s.turnKey p).port p).seqs = (s.port p).seqs.map (fun x => (x.1, x.2.restarted)) :=
    congrArg Port.seqs (State.modPort_self ..)
  rw [State.classSeq, seqs, mget, mfind_map ClassSeq.restarted, State.classSeq, mget]
  cases mfind (s.port p).seqs c <;> rfl

/-- An accepted number leaves what waits in its class (R239). -/
theorem seqAccept_waiting {c d : ClassSeq} {q : Nat} (h : seqAccept c q = some d) : d.waiting = c.waiting := by
  unfold seqAccept at h
  dsimp only at h
  split at h
  · exact (Option.some.inj h) ▸ rfl
  · split at h
    · cases h
    · split at h
      · cases h
      · exact (Option.some.inj h) ▸ rfl

/-- A frame of a class that is not retried, whose number is accepted. -/
theorem State.accept_listened {s t : State} {p cls q : Nat} {old : Bool} (hc : retried cls = false)
    (h : s.accept p cls q old = (t, .good)) : Listened s t p := by
  have plain : (cls == 7) = false := by
    rw [Bool.eq_false_iff]
    intro e
    simp [retried, e] at hc
  unfold State.accept at h
  dsimp only at h
  split at h
  · simp at h
  · rename_i c' hs
    simp only [hc, plain, Bool.false_and, State.when, Bool.false_eq_true, if_false, Prod.mk.injEq, and_true] at h
    subst h
    cases old with
    | true =>
      rw [if_pos rfl]
      exact s.modPort_listened p ⟨_, _, _, _, rfl⟩
    | false =>
      rw [if_neg Bool.false_ne_true]
      refine Listened.trans ⟨s.modPort_onlyPort p _, fun _ => rfl, ⟨_, _, _, _, _, State.modPort_self ..⟩, fun c => ?_⟩
        (State.modPort_listened (s.modSeq p cls (fun _ => c')) p ⟨_, _, _, _, rfl⟩)
      simp only [State.classSeq, State.modPort_self, mget_mput]
      split
      · rename_i e
        subst e
        exact seqAccept_waiting hs
      · rfl

/-- A frame of a class that is not retried, received whole. -/
theorem State.receive_listened {s : State} {p cls : Nat} {a : Arrival} (hc : retried cls = false)
    (h : (s.receive p cls a).2 = .good) : s.portUp p = true ∧ s.lit p = true ∧ Listened s (s.receive p cls a).1 p := by
  obtain ⟨t, ht⟩ : ∃ t, s.receive p cls a = (t, .good) := ⟨_, Prod.ext rfl h⟩
  rw [ht]
  unfold State.receive at ht
  split at ht
  · simp at ht
  · rename_i hears
    dsimp only at ht
    split at ht
    · simp at ht
    · rename_i up
      split at ht
      · simp at ht
      · split at ht
        · simp at ht
        · refine ⟨by simpa using up, ?_, (Listened.when _ (s.takeBlocks_listened p _) (State.turnKey_listened _ p)).trans
            (State.accept_listened hc ht)⟩
          simp only [State.hears, Bool.not_eq_true', Bool.not_eq_false, Bool.and_eq_true] at hears
          exact hears.1

/-- A frame of a class that is not retried leaves, by its receipt, that a content of the class goes out at once. -/
theorem Listened.canSend {s t : State} {p cls : Nat} (h : Listened s t p) (hc : retried cls = false) (hs : CanSend s p cls) :
    CanSend t p cls := by
  obtain ⟨up, lit, idle, -, free⟩ := hs
  obtain ⟨_, _, _, _, _, port⟩ := h.port
  refine ⟨?_, ?_, ?_, by simp [State.mayEmit, hc], (h.waiting cls).trans free⟩
  · simpa [State.portUp, State.flag, port, h.ctl] using up
  · simpa [State.lit, State.optical, port] using lit
  · rw [port]
    exact idle

/-! ### Acknowledgements (R240, Table 09-9) -/

/-- Of the device only port `p`'s classes have changed. -/
structure ClassesOnly (s t : State) (p : Nat) : Prop where
  rest : t = { s with ports := t.ports }
  only : OnlyPort s t p
  port : ∃ seqs, t.port p = { s.port p with seqs := seqs }

theorem ClassesOnly.refl (s : State) (p : Nat) : ClassesOnly s s p := ⟨rfl, .refl s p, _, rfl⟩

theorem ClassesOnly.trans {s t u : State} {p : Nat} (h : ClassesOnly s t p) (h' : ClassesOnly t u p) : ClassesOnly s u p := by
  refine ⟨?_, h.only.trans h'.only, ?_⟩
  · rw [h'.rest, h.rest]
  · obtain ⟨_, e⟩ := h.port
    obtain ⟨_, e'⟩ := h'.port
    exact ⟨_, by rw [e', e]⟩

theorem State.modSeq_classesOnly (s : State) (p cls : Nat) (f : ClassSeq → ClassSeq) : ClassesOnly s (s.modSeq p cls f) p :=
  ⟨rfl, s.modPort_onlyPort p _, _, State.modPort_self ..⟩

theorem State.modSeq_classSeq (s : State) (p cls c : Nat) (f : ClassSeq → ClassSeq) :
    (s.modSeq p cls f).classSeq p c = if c = cls then f (s.classSeq p cls) else s.classSeq p c := by
  simp only [State.classSeq, State.modSeq, State.modPort_self, mget_mput]

/-- The frames that an acknowledgement of a key phase leaves to be retried. -/
def unackedPast (h : Nat) (kp : Bool) (l : List Frame) : List Frame :=
  l.filter (fun f => decide (ackNone ≤ h) || f.kp != kp || decide (h < f.seq))

/-- Where nothing waits, an acknowledgement drops the frames it covers, and does nothing else. -/
theorem State.acked_spec {s : State} {p : Nat} (free : ∀ c, (s.classSeq p c).waiting = []) (cls h : Nat) (kp : Bool) :
    ClassesOnly s (s.acked p cls h kp) p ∧ ∀ c, (s.acked p cls h kp).classSeq p c =
      if c = cls then { s.classSeq p c with unacked := unackedPast h kp (s.classSeq p c).unacked } else s.classSeq p c := by
  by_cases none : ackNone ≤ h
  · have same : s.acked p cls h kp = s := if_pos none
    rw [same]
    refine ⟨.refl s p, fun c => ?_⟩
    simp [unackedPast, none]
  · have drops : s.acked p cls h kp = s.modSeq p cls (fun x => { x with unacked := unackedPast h kp x.unacked }) := by
      simp only [State.acked, none, if_false, unackedPast, decide_false, Bool.false_or]
      rw [State.modSeq_classSeq, if_pos rfl, free cls]
      rfl
    rw [drops]
    refine ⟨State.modSeq_classesOnly .., fun c => ?_⟩
    rw [State.modSeq_classSeq]
    split
    · rename_i e; rw [e]
    · rfl

/-- The acknowledgements of a STATUS frame, one for each retried class. -/
theorem State.ackedAll_spec {s : State} {p : Nat} (free : ∀ c, (s.classSeq p c).waiting = []) (h2 h3 h4 h7 : Nat) (kp : Bool) :
    ClassesOnly s (s.ackedAll p [h2, h3, h4, h7] kp) p ∧ (∀ x ∈ [(2, h2), (3, h3), (4, h4), (7, h7)],
      ((s.ackedAll p [h2, h3, h4, h7] kp).classSeq p x.1).unacked = unackedPast x.2 kp (s.classSeq p x.1).unacked) := by
  have keeps {t : State} (ht : ∀ c, (t.classSeq p c).waiting = []) (cls h : Nat) :
      ∀ c, ((t.acked p cls h kp).classSeq p c).waiting = [] := fun c => by
    rw [(State.acked_spec ht cls h kp).2]
    split <;> exact ht c
  have f2 := keeps free 2 h2
  have f3 := keeps f2 3 h3
  have f4 := keeps f3 4 h4
  obtain ⟨o2, e2⟩ := State.acked_spec free 2 h2 kp
  obtain ⟨o3, e3⟩ := State.acked_spec f2 3 h3 kp
  obtain ⟨o4, e4⟩ := State.acked_spec f3 4 h4 kp
  obtain ⟨o7, e7⟩ := State.acked_spec f4 7 h7 kp
  refine ⟨((o2.trans o3).trans o4).trans o7, ?_⟩
  change ∀ x ∈ [(2, h2), (3, h3), (4, h4), (7, h7)],
    (((((s.acked p 2 h2 kp).acked p 3 h3 kp).acked p 4 h4 kp).acked p 7 h7 kp).classSeq p x.1).unacked = _
  simp [e2, e3, e4, e7]

/-- A port at which no frame waits sends none, and every port is as before. -/
theorem State.pumpPort_empty {s : State} {p : Nat} (h : (s.port p).queue = []) :
    s.pumpPort p = { s with ports := (s.pumpPort p).ports } ∧ ∀ q, (s.pumpPort p).port q = s.port q := by
  unfold State.pumpPort
  split
  · exact ⟨rfl, fun _ => rfl⟩
  · rw [h]
    refine ⟨rfl, fun q => ?_⟩
    change (s.modPort p (fun x => { x with queue := [] })).port q = _
    rw [State.modPort_port]
    split
    · rename_i e
      rw [e, ← h]
    · rfl

/-- Looking a listed key up in the table of a function. -/
theorem mfind_graph {α : Type} (f : Nat → α) {l : List Nat} {k : Nat} (h : k ∈ l) :
    mfind (l.map (fun j => (j, f j))) k = some (f k) := by
  induction l with
  | nil => cases h
  | cons a l ih =>
    by_cases e : a = k
    · simp [mfind, e]
    · have later : k ∈ l := by simpa [Ne.symm e] using h
      simp [mfind, e, ih later]

/-! ### A link's frames, received whole -/

/-- The port once a STATUS frame's credits are noted (Table 09-9). -/
def Port.credited (x : Port) (credits : List Nat) : Port :=
  { x with granted := (List.range 11).map (fun k => (k, credits.getD k (mget 0 x.granted k) % 65536)) }

theorem Port.credited_granted (x : Port) (credits : List Nat) {k : Nat} (h : k < 11) :
    mget 0 (x.credited credits).granted k = credits.getD k (mget 0 x.granted k) % 65536 := by
  have found := mfind_graph (fun j => credits.getD j (mget 0 x.granted j) % 65536) (List.mem_range.mpr h)
  rw [mget, Port.credited, found]

section
variable {s : State} {i : Fin 16} {a : Arrival} (good : (s.receive i 8 a).2 = .good)
include good

theorem State.receive_eq_good : s.receive i 8 a = ((s.receive i 8 a).1, .good) := Prod.ext rfl good

theorem exec_status_good (credits acks : List Nat) : exec (.status i a credits acks) s = .next
    (((((s.receive i 8 a).1.modPort i (fun x => x.credited credits)).ackedAll i acks a.kp).pumpPort i).pump) := by
  change execStatus i a credits acks s = _
  rw [execStatus, State.receive_eq_good good]
  rfl

theorem exec_retry_good (cls first count : Nat) : exec (.retry i a cls first count) s = .next
    (if retried cls ∧ 1 ≤ count ∧ count ≤ 128 then (s.receive i 8 a).1.resend i cls (fun f =>
      f.kp == a.kp && decide (first ≤ f.seq) && decide (f.seq < first + count)) else (s.receive i 8 a).1) := by
  change execRetry i a cls first count s = _
  rw [execRetry, State.receive_eq_good good]

theorem exec_probe_good (t1 t2 : Nat) : exec (.probe i a t1 t2) s = .next (((s.receive i 8 a).1.sendOn i
    (.probe [t1, t2, t2 + Config.residence (s.receive i 8 a).1.freeCtr])).draw) := by
  change execProbe i a t1 t2 s = _
  rw [execProbe, State.receive_eq_good good]

theorem exec_probeRsp_good (t1 t2 t3 t4 : Nat) : exec (.probeRsp i a t1 t2 t3 t4) s = .next
    ((s.receive i 8 a).1.modPort i (fun x => { x with delay := ((t4 - t1) - (t3 - t2)) / 2 % 2 ^ 32 })) := by
  change execProbeRsp i a t1 t2 t3 t4 s = _
  rw [execProbeRsp, State.receive_eq_good good]

end

/-- A frame of the link that is damaged or dropped does nothing but what its receipt does. -/
theorem exec_link_lost {s : State} {i : Fin 16} {a : Arrival} (h : (s.receive i 8 a).2 ≠ .good) (credits acks : List Nat)
    (cls first count t1 t2 t3 t4 : Nat) :
    ∀ c ∈ [Instr.status i a credits acks, .retry i a cls first count, .probe i a t1 t2, .probeRsp i a t1 t2 t3 t4],
      exec c s = .next (s.receive i 8 a).1 := by
  obtain ⟨⟨u, found⟩, received⟩ : ∃ r, s.receive i 8 a = r := ⟨_, rfl⟩
  rw [received] at h ⊢
  simp only [List.forall_mem_cons, List.not_mem_nil, false_imp_iff, implies_true, and_true]
  refine ⟨?_, ?_, ?_, ?_⟩
  · change execStatus i a credits acks s = _
    cases found <;> simp_all [execStatus]
  · change execRetry i a cls first count s = _
    cases found <;> simp_all [execRetry]
  · change execProbe i a t1 t2 s = _
    cases found <;> simp_all [execProbe]
  · change execProbeRsp i a t1 t2 t3 t4 s = _
    cases found <;> simp_all [execProbeRsp]

/-! ### Frames sent again (R240) -/

/-- Frames sent in turn on a lit port that is not in test: those that its low-power idle lets go. -/
theorem State.eachTransmit {p : Nat} (l : List Frame) {s : State} (lit : s.lit p = true) (untested : s.flag R.prtCtl 2 p = false) :
    s.each l (fun t f => t.transmit p f) = { s with
      out := s.out ++ (l.filter (s.port p).lets).map (.frame p) } := by
  induction l generalizing s with
  | nil => simp [State.each]
  | cons f l ih =>
    have first : s.each (f :: l) (fun t f => t.transmit p f) = (s.transmit p f).each l (fun t f => t.transmit p f) := rfl
    rw [first, State.transmit_lit f lit untested, List.filter_cons]
    split
    · rw [ih (s := s.send (.frame p f)) lit untested]
      simp [State.send, State.port]
    · exact ih lit untested

/-- A plane at rest stays at rest where the requests, the answers and the queues are as before. -/
theorem AtRest.of_queues {s t : State} (hf : t.fabric = s.fabric) (hq : ∀ p, (t.port p).queue = (s.port p).queue)
    (h : AtRest s) : AtRest t := by
  obtain ⟨hsend, hback, hports⟩ := h
  exact ⟨by rw [hf, hsend], by rw [hf]; exact hback, fun p hlt => by rw [hq, hports p hlt]⟩

theorem ClassesOnly.queues {s t : State} {p : Nat} (h : ClassesOnly s t p) (q : Nat) : (t.port q).queue = (s.port q).queue := by
  obtain ⟨seqs, port⟩ := h.port
  by_cases e : q = p
  · rw [e, port]
  · rw [h.only q e]

/-! ### The obligation -/

/-- A STATUS frame, received whole where nothing waits on its port and the free plane is at rest: its credits are granted, and the
frames that its acknowledgements cover are kept no longer. -/
theorem status_spec {s : State} {i : Fin 16} {a : Arrival} (good : (s.receive i 8 a).2 = .good) (credits : List Nat) (h2 h3 h4 h7 : Nat)
    (empty : (s.port i).queue = []) (free : ∀ c, (s.classSeq i c).waiting = []) (rest : AtRest s) :
    let u := (s.receive i 8 a).1
    Gives (.status i a credits [h2, h3, h4, h7]) s (fun t =>
      (∀ k, k < 11 → mget 0 (t.port i).granted k = credits.getD k (mget 0 (s.port i).granted k) % 65536) ∧
        (∀ x ∈ [(2, h2), (3, h3), (4, h4), (7, h7)],
          (t.classSeq i x.1).unacked = unackedPast x.2 a.kp (u.classSeq i x.1).unacked) ∧ t.out = u.out ∧ OnlyPort s t i) := by
  intro u
  obtain ⟨-, -, heard⟩ := State.receive_listened rfl good
  have step := State.receive_good good
  obtain ⟨_, _, _, _, _, portU⟩ := heard.port
  let v := u.modPort i (fun x => x.credited credits)
  have portV : v.port i = (u.port i).credited credits := State.modPort_self ..
  have classes (c : Nat) : v.classSeq i c = u.classSeq i c := by rw [State.classSeq, portV]; rfl
  obtain ⟨acked, unacked⟩ := State.ackedAll_spec (s := v) (fun c => by rw [classes, heard.waiting, free]) h2 h3 h4 h7 a.kp
  let w := v.ackedAll i [h2, h3, h4, h7] a.kp
  obtain ⟨seqs, portW⟩ : ∃ seqs, w.port i = { v.port i with seqs := seqs } := acked.port
  have queues : ∀ p, (w.port p).queue = (s.port p).queue := fun p =>
    (acked.queues p).trans (((State.modPort_linkStep u i (f := fun x => x.credited credits) fun _ => rfl).queues p).trans (step.queues p))
  obtain ⟨served, ports⟩ := State.pumpPort_empty ((queues i).trans empty)
  have still : AtRest (w.pumpPort i) := by
    refine rest.of_queues ?_ fun p => by rw [ports, queues]
    rw [served, show w = _ from acked.rest]
    exact step.only.fabric
  refine ⟨w.pumpPort i, ?_, ?_, ?_, ?_, ?_⟩
  · rw [exec_status_good good, State.pump_rest still]
  · intro k hk
    rw [ports, portW, portV, portU]
    exact Port.credited_granted _ credits hk
  · intro x hx
    rw [State.classSeq, ports, ← classes]
    exact unacked x hx
  · rw [served, show w = _ from acked.rest]
    rfl
  · refine heard.only.trans fun q hq => ?_
    rw [ports, show w.port q = _ from acked.only q hq, u.modPort_onlyPort i _ q hq]

/-- A RETRY of a retried class, received whole, has the frames of its key phase that it names sent again. -/
theorem retry_spec {s : State} {i : Fin 16} {a : Arrival} (good : (s.receive i 8 a).2 = .good) {cls first count : Nat}
    (hr : retried cls = true) (h1 : 1 ≤ count) (h128 : count ≤ 128) :
    let u := (s.receive i 8 a).1
    exec (.retry i a cls first count) s = .next { u with out := u.out ++ (((u.classSeq i cls).unacked.filter (fun f =>
      f.kp == a.kp && decide (first ≤ f.seq) && decide (f.seq < first + count))).filter (s.port i).lets).map (.frame i) } := by
  intro u
  obtain ⟨up, lit, heard⟩ := State.receive_listened rfl good
  obtain ⟨_, _, _, _, _, port⟩ := heard.port
  have litU : u.lit i = true := by simpa [State.lit, State.optical, port, u] using lit
  have untested : u.flag R.prtCtl 2 i = false := by
    simpa [State.flag, heard.ctl, u] using State.portUp_untested up
  rw [exec_retry_good good, if_pos ⟨hr, h1, h128⟩, State.resend,
    State.eachTransmit _ litU untested]
  have lets : (u.port i).lets = (s.port i).lets := by rw [port]; rfl
  rw [lets]

/-- A probe, received whole, is answered at once with its times, where a frame of its class may go. -/
theorem probe_spec {s : State} {i : Fin 16} {a : Arrival} (good : (s.receive i 8 a).2 = .good) (t1 t2 : Nat) (h : CanSend s i 8) :
    let u := (s.receive i 8 a).1
    Gives (.probe i a t1 t2) s (fun t => t.out = u.out ++ [.frame i (u.carrier i (.probe [t1, t2, t2 + Config.residence u.freeCtr]))] ∧
      OnlyPort s t i ∧ SameButPorts s t) := by
  intro u
  obtain ⟨-, -, heard⟩ := State.receive_listened rfl good
  have sends : CanSend u i (Content.probe [t1, t2, t2 + Config.residence u.freeCtr]).cls := heard.canSend rfl h
  obtain ⟨out, -, only, same⟩ := State.sendOn_goes_spec sends
  exact ⟨_, exec_probe_good good t1 t2, out, heard.only.trans only, ((s.receive_sameButPortsFst i 8 a).trans same).trans (State.draw_sameButPorts _)⟩

/-- A retry timeout of a port that is UP and lit: the frame is sent again as it was, where it is still kept. -/
theorem retryTimeout_spec {s : State} {i : Fin 16} {cls first : Nat} (up : s.portUp i = true) (lit : s.lit i = true) :
    (∀ f, (s.classSeq i cls).unacked.find? (fun f => f.seq == first) = some f → (s.port i).lets f = true →
      exec (.retryTimeout i cls first) s = .next (s.send (.frame i f))) ∧
    ((s.classSeq i cls).unacked.find? (fun f => f.seq == first) = none → exec (.retryTimeout i cls first) s = .next s) := by
  refine ⟨fun f found lets => ?_, fun none => ?_⟩
  · change execRetryTimeout i cls first s = _
    simp only [execRetryTimeout, up, found, if_true]
    rw [State.transmit_lit f lit (State.portUp_untested up), if_pos lets]
  · change execRetryTimeout i cls first s = _
    simp only [execRetryTimeout, up, none, if_true]

/-- The status timer of a port that a frame of the link's class may leave: STATUS goes, and is no longer due. -/
theorem statusTimer_spec {s : State} {i : Fin 16} (h : CanSend s i 8) :
    Gives (.statusTimer i) s (fun t => (t.port i).statusDue = false ∧ (t.port i).statusAt = s.power.uptime ∧
      t.out = s.out ++ [.frame i (s.carrier i (.status ((List.range 11).map (fun k => mget 0 (s.port i).freed k)) (s.acksOf i)))] ∧
      OnlyPort s t i ∧ SameButPorts s t) := by
  have sends : exec (.statusTimer i) s = .next (s.sendStatus i) := congrArg Host.Outcome.next (if_pos h.1)
  obtain ⟨out, -, only, same⟩ := State.sendOn_goes_spec
    (c := .status ((List.range 11).map (fun k => mget 0 (s.port i).freed k)) (s.acksOf i)) h
  refine ⟨_, sends, ?_, ?_, out, only.trans (State.modPort_onlyPort _ i _), s.sendStatus_sameButPorts i⟩
  · rw [State.sendStatus, State.modPort_self]
  · rw [State.sendStatus, State.modPort_self]

/-- Settles O31: what receipt leaves of the port carries over to what each frame then does. -/
theorem linkFrames : Obligations.LinkFrames := by
  unfold Obligations.LinkFrames
  intro s i a credits acks h2 h3 h4 h7 cls first count t1 t2 t3 t4 r u goes left
  refine ⟨fun good => ⟨fun empty free rest => ?_, retry_spec good, fun unnamed => ?_, probe_spec good t1 t2,
    exec_probeRsp_good good t1 t2 t3 t4⟩,
    fun lost => exec_link_lost lost credits acks cls first count t1 t2 t3 t4, fun up lit => retryTimeout_spec up lit,
    statusTimer_spec, fun down => ?_⟩
  · obtain ⟨t, gives, granted, unacked, out, only⟩ := status_spec good credits h2 h3 h4 h7 empty free rest
    simp only [List.forall_mem_cons, List.not_mem_nil, false_imp_iff, implies_true, and_true] at unacked
    obtain ⟨u2, u3, u4, u7⟩ := unacked
    exact ⟨t, gives, granted, u2, u3, u4, u7, out, only⟩
  · refine (exec_retry_good good cls first count).trans (congrArg Host.Outcome.next (if_neg ?_))
    rintro ⟨hr, h1, h128⟩
    obtain h | h | h := unnamed
    · simp [hr] at h
    · omega
    · omega
  · have off : ¬ s.portUp i = true := by simp [down]
    exact ⟨congrArg Host.Outcome.next (if_neg off), congrArg Host.Outcome.next (if_neg off)⟩

end Sys2Proof.Machine
end

section
/-!
PROOF. Votes, the keystone's decision, echoes and tick-stretch (02 R46, R47, R56, R58 to R60, Table 02-5). Settles O46.
-/
namespace Sys2Proof.Machine

/-! ### What leaves the attempt -/

/-- A folded operation keeps what each of its steps keeps. -/
theorem State.each_keeps {α β : Type} (π : State → β) {l : List α} {f : State → α → State}
    (h : ∀ s a, π (f s a) = π s) (s : State) :
    π (s.each l f) = π s := by
  induction l generalizing s with
  | nil => rfl
  | cons a l ih => exact (ih _).trans (h s a)

theorem State.when_keeps {β : Type} (π : State → β) {s : State} (c : Bool) {f : State → State} (h : π (f s) = π s) :
    π (s.when c f) = π s := by
  cases c
  · rfl
  · exact h

/-- The phase and the numbers of the attempt are as before. -/
structure SameAttempt (s t : State) : Prop where
  phase : t.tick.phase = s.tick.phase
  count : t.tick.count = s.tick.count
  attempt : t.tick.attempt = s.tick.attempt

theorem SameAttempt.of_tick {s t : State} (h : t.tick = s.tick) : SameAttempt s t := by
  constructor <;> rw [h]

theorem SameAttempt.trans {s t u : State} (h : SameAttempt s t) (h' : SameAttempt t u) : SameAttempt s u :=
  ⟨h'.phase.trans h.phase, h'.count.trans h.count, h'.attempt.trans h.attempt⟩

theorem SameAttempt.each {α : Type} {l : List α} {f : State → α → State} (h : ∀ s a, SameAttempt s (f s a)) (s : State) :
    SameAttempt s (s.each l f) :=
  ⟨State.each_keeps (·.tick.phase) (fun s a => (h s a).phase) s, State.each_keeps (·.tick.count) (fun s a => (h s a).count) s,
    State.each_keeps (·.tick.attempt) (fun s a => (h s a).attempt) s⟩

/-! ### Time passing (R39) -/

theorem State.whenCnt_tick (s : State) (b : Bool) (r : Reg) (i n bank idx : Nat) :
    (s.when b fun t => t.cnt r i n bank idx).tick = s.tick :=
  State.when_keeps State.tick b (f := fun t => t.cnt r i n bank idx) (s.cnt_tick r i n bank idx)

theorem State.clusterClk_tick (s : State) (c d : Nat) : (s.clusterClk c d).tick = s.tick := by
  unfold State.clusterClk
  dsimp only
  rw [State.setCluster_tick, State.whenCnt_tick, State.whenCnt_tick]

theorem State.quarterNs_tick (s : State) (q n : Nat) : (s.quarterNs q n).tick = s.tick := by
  unfold State.quarterNs
  dsimp only
  rw [State.each_keeps State.tick fun t c => t.clusterClk_tick c _, State.whenCnt_tick,
    State.modQuarter_tick]

theorem State.prbsLane_tick (s : State) (p n l : Nat) : (s.prbsLane p n l).tick = s.tick := by
  unfold State.prbsLane
  dsimp only
  rw [State.draw_tick, State.whenCnt_tick, State.wr_tick, State.wr_tick]

theorem State.prbsRun_tick (s : State) (n : Nat) : (s.prbsRun n).tick = s.tick :=
  State.each_keeps State.tick (fun t p => State.each_keeps State.tick (fun u l => u.prbsLane_tick p n l) t) s

theorem SameButPorts.tick {s t : State} (h : SameButPorts s t) : t.tick = s.tick := h.2.1

/-- What links send of themselves leaves the tick (R240, R261). -/
theorem State.dueStatus_tick (s : State) : s.dueStatus.tick = s.tick :=
  State.each_keeps State.tick (fun t p => (t.sendStatus_sameButPorts p).tick) s

theorem State.dueRekey_tick (s : State) : s.dueRekey.tick = s.tick :=
  State.each_keeps State.tick (fun t p => (t.beginRekey_sameButPorts p).tick) s

/-- Of the tick machine only the timer runs (R39); in IDLE it does not. -/
theorem State.pass_tick (s : State) (n : Nat) :
    (s.pass n).tick = if s.tick.state = .idle then s.tick else { s.tick with ns := s.tick.ns + n } := by
  unfold State.pass
  dsimp only
  rw [State.dueRekey_tick, State.dueStatus_tick, State.prbsRun_tick]
  have clocks (t : State) (b : Bool) : (if b then t.each [0, 1, 2, 3] (fun u q => u.quarterNs q n) else t).tick = t.tick := by
    cases b
    · rfl
    · exact State.each_keeps State.tick (fun u q => u.quarterNs_tick q n) t
  rw [clocks]
  split <;> rfl

theorem State.passTo_sameAttempt (s : State) (n : Nat) : SameAttempt s (s.passTo n) := by
  unfold State.passTo
  split
  · constructor <;> (rw [State.pass_tick]; split <;> rfl)
  · exact .of_tick rfl

/-! ### Votes sent (R46) -/

theorem State.sendVote_tick (s : State) (p : Nat) (v : Vote) : (s.sendVote p v).tick = s.tick :=
  (s.sendOn_sameButPorts p (.vote v)).tick

/-- The keystone's verdict on a merged vote (Table 02-5, R56, R65). -/
def State.verdictOn (s : State) (v : VoteSum) : Nat :=
  if v.escalate || decide (s.fld R.tckCtl 23 16 ≤ s.tick.attempt) then 3
  else if v.fail then (if s.tick.stopAsked && !s.power.dozeAsked then 3 else 2) else if s.tick.stopAsked then 3 else 1

/-- The keystone's decision is the verdict; beside it only the echo and TCK.FAULT change. -/
theorem State.reachVerdict_tick (s : State) (v : VoteSum) : ∃ reg, (s.reachVerdict v).tick =
    { s.tick with decision := some (s.verdictOn v), echoed := false, faultReg := reg } := by
  refine ⟨if v.fail then w32 (v.code % 256 + v.unit % 1024 * 2 ^ 8 + v.device % 2048 * 2 ^ 21) else s.tick.faultReg, ?_⟩
  unfold State.reachVerdict
  dsimp only
  split
  · split
    · rw [State.sendVote_tick]
      rfl
    · rfl
  · rfl

/-- The merged vote goes up: the tick shows that it is sent, and at the keystone what is decided. -/
theorem State.sendUp_tick (s : State) : ∃ decision echoed reg, s.sendUp.tick =
    { s.tick with voteSent := true, decision := decision, echoed := echoed, faultReg := reg } := by
  unfold State.sendUp
  dsimp only
  split
  · obtain ⟨reg, e⟩ := (s.modTick (fun t => { t with voteSent := true })).reachVerdict_tick (s.tick.votes.merge s.ownVote)
    exact ⟨_, _, _, e⟩
  · exact ⟨s.tick.decision, s.tick.echoed, s.tick.faultReg, State.sendVote_tick ..⟩

theorem State.sendUp_sameAttempt (s : State) : SameAttempt s s.sendUp := by
  obtain ⟨_, _, _, e⟩ := s.sendUp_tick
  constructor <;> rw [e]

/-! ### Faults recorded (R53, R56) -/

/-- A recorded fault joins those of the attempt. -/
theorem State.sealFault_tick (s : State) (code : Nat) (u : FaultUnit) : ∃ fault reg, (s.sealFault code u).tick = { s.tick with
    faults := if s.tick.faults.contains ⟨code, u⟩ then s.tick.faults else s.tick.faults ++ [⟨code, u⟩]
    fault := fault
    faultReg := reg } := by
  unfold State.sealFault
  dsimp only
  split
  · exact ⟨s.tick.fault, s.tick.faultReg, rfl⟩
  · exact ⟨_, _, rfl⟩

theorem State.mem_sealFault (s : State) (code : Nat) (u : FaultUnit) (x : TickFault) :
    x ∈ (s.sealFault code u).tick.faults ↔ x ∈ s.tick.faults ∨ x = ⟨code, u⟩ := by
  obtain ⟨_, _, e⟩ := s.sealFault_tick code u
  rw [e]
  dsimp only
  split
  · rename_i listed
    simp only [List.contains_eq_mem, decide_eq_true_eq] at listed
    exact ⟨.inl, fun h => h.elim id fun h => h ▸ listed⟩
  · simp

theorem State.sealFault_sameAttempt (s : State) (code : Nat) (u : FaultUnit) : SameAttempt s (s.sealFault code u) := by
  obtain ⟨_, _, e⟩ := s.sealFault_tick code u
  constructor <;> rw [e]

/-- A child that has not reported is charged with its missing vote. -/
def State.missVote (s : State) (p : Nat) : State := (s.violate .tck 0 ⟨6, 16, 0, 2, 0⟩).sealFault 6 (.link p)

theorem State.mem_missVotes {l : List Nat} {s : State} {x : TickFault} (h : x ∈ s.tick.faults ∨ ∃ p ∈ l, x = ⟨6, .link p⟩) :
    x ∈ (s.each l State.missVote).tick.faults := by
  induction l generalizing s with
  | nil =>
    obtain h | ⟨p, hp, -⟩ := h
    · exact h
    · cases hp
  | cons q l ih =>
    refine ih (s := s.missVote q) ?_
    rw [State.missVote, State.mem_sealFault, State.violate_tick]
    obtain h | ⟨p, hp, e⟩ := h
    · exact .inl (.inl h)
    · obtain rfl | hp := List.mem_cons.mp hp
      · exact .inl (.inr e)
      · exact .inr ⟨p, hp, e⟩

/-! ### The vote deadline (R46) -/

/-- The children that have not reported. -/
def Tick.missing (k : Tick) : List Nat := k.children.filter (fun p => !k.reported.contains p)

section
variable {s : State} (sealing : s.tick.phase = .sealing) (unsent : s.tick.voteSent = false)
include sealing unsent

/-- Before the vote is sent the deadline charges the children that are missing, and the vote goes up. -/
theorem State.voteDeadline_sends : s.voteDeadline = (((s.each s.tick.missing State.missVote).countFails
    (s.tick.missing.map (fun p => ⟨6, .link p⟩))).modTick (fun t => { t with treeKnown := true })).sendUp := by
  refine if_neg ?_
  simp [sealing, unsent]

/-- With every child's vote in, the deadline only sends the vote up. -/
theorem State.voteDeadline_all (all : s.tick.missing = []) :
    s.voteDeadline = (s.modTick (fun t => { t with treeKnown := true })).sendUp := by
  rw [State.voteDeadline_sends sealing unsent, all]
  rfl

theorem voteDeadline_keystone (all : s.tick.missing = []) (ks : s.tick.keystone = true) :
    s.voteDeadline.tick.voteSent = true ∧ s.voteDeadline.tick.decision = some (s.verdictOn (s.tick.votes.merge s.ownVote)) ∧
      s.voteDeadline.tick.treeKnown = true ∧ s.voteDeadline.tick.fails = s.tick.fails := by
  let u := (s.modTick (fun t => { t with treeKnown := true })).modTick (fun t => { t with voteSent := true })
  have decides : s.voteDeadline = u.reachVerdict (s.tick.votes.merge s.ownVote) := by
    rw [State.voteDeadline_all sealing unsent all]
    exact if_pos ks
  obtain ⟨_, e⟩ := u.reachVerdict_tick (s.tick.votes.merge s.ownVote)
  rw [decides, e]
  exact ⟨rfl, rfl, rfl, rfl⟩

theorem voteDeadline_device (all : s.tick.missing = []) (ks : s.tick.keystone = false) (sends : CanSend s s.parentPort 7) :
    s.voteDeadline.tick.voteSent = true ∧ s.voteDeadline.out = s.out ++
      [.frame s.parentPort (s.carrier s.parentPort (.vote (s.voteOf (s.tick.votes.merge s.ownVote))))] := by
  let u := (s.modTick (fun t => { t with treeKnown := true })).modTick (fun t => { t with voteSent := true })
  have votes : s.voteDeadline = u.sendVote s.parentPort (s.voteOf (s.tick.votes.merge s.ownVote)) := by
    rw [State.voteDeadline_all sealing unsent all]
    exact if_neg (by rw [show (s.modTick _).tick.keystone = s.tick.keystone from rfl, ks]; decide)
  obtain ⟨out, -⟩ := State.sendOn_goes_spec (s := u) (c := .vote (s.voteOf (s.tick.votes.merge s.ownVote))) sends
  rw [votes, State.sendVote_tick]
  exact ⟨rfl, out⟩

theorem voteDeadline_missing {p : Nat} (hp : p ∈ s.tick.missing) :
    ⟨6, .link p⟩ ∈ s.voteDeadline.tick.faults ∧ s.voteDeadline.tick.voteSent = true := by
  rw [State.voteDeadline_sends sealing unsent]
  obtain ⟨_, _, _, e⟩ := State.sendUp_tick (((s.each s.tick.missing State.missVote).countFails
    (s.tick.missing.map (fun p => ⟨6, .link p⟩))).modTick (fun t => { t with treeKnown := true }))
  rw [e]
  exact ⟨State.mem_missVotes (.inr ⟨p, hp, rfl⟩), rfl⟩

end

/-! ### Votes, echoes and halt reports received (R46, R47, R59) -/

section
variable {s : State} {i : Fin 16} {a : Arrival} (good : (s.receive i 7 a).2 = .good)
include good

theorem State.receiveVote_eq : s.receive i 7 a = ((s.receive i 7 a).1, .good) := Prod.ext rfl good

theorem exec_vote_good (v : Vote) : exec (.vote i a v) s =
    .next (if v.kind = 0 then (s.receive i 7 a).1.voteIn i v else (s.receive i 7 a).1) := by
  change execVote i a v s = _
  rw [execVote, State.receiveVote_eq good]

theorem exec_echo_good (v : Vote) : exec (.echo i a v) s =
    .next (if v.kind = 1 then (s.receive i 7 a).1.echoIn i v else (s.receive i 7 a).1) := by
  change execEcho i a v s = _
  rw [execEcho, State.receiveVote_eq good]

theorem exec_haltReport_good (v : Vote) : exec (.haltReport i a v) s =
    .next (if v.kind = 2 then ((s.receive i 7 a).1.modTick (fun k => { k with
      haltedBelow := if v.halted then addOnce k.haltedBelow i else dropAll k.haltedBelow i })).haltNote (s.receive i 7 a).1
      else (s.receive i 7 a).1) := by
  change execHaltReport i a v s = _
  rw [execHaltReport, State.receiveVote_eq good]

end

/-- A vote of the attempt in progress. -/
theorem State.voteIn_now {r : State} {p : Nat} {v : Vote} (now : v.tick = r.tick.count ∧ v.attempt = r.tick.attempt)
    (running : r.tick.phase ≠ .none) :
    (r.tick.voteSent = false → p ∉ r.tick.reported → r.tick.phase ≠ .sealing → r.voteIn p v = r.modTick (fun t => { t with
      children := addOnce t.children p, reported := t.reported ++ [p]
      votes := t.votes.merge ⟨v.fail, v.escalate, v.count, v.code, v.unit, v.device⟩ })) ∧
    (r.tick.voteSent = true ∨ p ∈ r.tick.reported →
      r.voteIn p v = r.modTick (fun t => { t with children := addOnce t.children p })) := by
  have current : ¬(v.tick ≠ r.tick.count ∨ v.attempt ≠ r.tick.attempt ∨ r.tick.phase = .none) := by simp [now, running]
  refine ⟨fun unsent new body => ?_, fun old => ?_⟩
  · have late : ¬(r.tick.voteSent = true ∨ p ∈ r.tick.reported) := by simp [unsent, new]
    rw [State.voteIn, if_neg current]
    exact (if_neg late).trans (if_neg (by simp [State.modTick, body]))
  · rw [State.voteIn, if_neg current]
    exact if_pos old

theorem State.voteIn_stale {r : State} {p : Nat} {v : Vote}
    (h : ¬(v.tick = r.tick.count ∧ v.attempt = r.tick.attempt) ∨ r.tick.phase = .none) : r.voteIn p v = r := by
  refine if_pos ?_
  tauto

/-- An echo of the attempt in progress: the keystone compares it, the backup sends it back. -/
theorem State.echoIn_now {r : State} {p : Nat} {v : Vote} (now : v.tick = r.tick.count ∧ v.attempt = r.tick.attempt) :
    (r.tick.keystone = true → r.tick.decision = some v.verdict → r.echoIn p v = r.modTick (fun t => { t with echoed := true })) ∧
    (r.tick.keystone = true → r.tick.decision ≠ some v.verdict → r.echoIn p v = r) ∧
    (r.tick.keystone = false → r.isBackup = true →
      r.echoIn p v = (r.modTick (fun t => { t with echoSent := some v.verdict })).sendVote p v) := by
  have current : ¬(v.tick ≠ r.tick.count ∨ v.attempt ≠ r.tick.attempt) := by simp [now]
  refine ⟨fun ks same => ?_, fun ks other => ?_, fun ks backup => ?_⟩
  · rw [State.echoIn, if_neg current, if_pos ks, if_pos same]
  · rw [State.echoIn, if_neg current, if_pos ks, if_neg other]
  · rw [State.echoIn, if_neg current, if_neg (by simp [ks]), if_pos backup]

theorem State.echoIn_stale {r : State} {p : Nat} {v : Vote} (h : ¬(v.tick = r.tick.count ∧ v.attempt = r.tick.attempt)) :
    r.echoIn p v = r := by
  refine if_pos ?_
  tauto

/-- Who is backup rests on the registers in force, the tick and the image alone. -/
theorem State.isBackup_of_same {s t : State} (h : SameButPorts s t) : t.isBackup = s.isBackup := by
  obtain ⟨eff, tick, image, -⟩ := h
  simp [State.isBackup, State.cfgBackup, State.cfgKeystone, State.isSpare, State.inForce, State.self, eff, tick, image]

/-- A noted halt may be reported: beside what is sent only `haltSeen` changes. -/
theorem State.haltNote_spec (s old : State) : (s.haltNote old).tick = { s.tick with haltSeen := s.tick.haltSeen || s.anyHalted } ∧
    (s.haltNote old).clusters = s.clusters ∧ (s.haltNote old).mem = s.mem := by
  let u := s.modTick (fun t => { t with haltSeen := t.haltSeen || s.anyHalted })
  have sends (p : Nat) (v : Vote) := u.sendOn_sameButPorts p (.vote v)
  unfold State.haltNote
  dsimp only
  split
  · obtain ⟨-, tick, -, clusters, -, -, -, -, -, -, -, -, mem, -⟩ := sends u.parentPort
      ⟨u.tick.count, u.tick.attempt, 2, false, false, 0, u.anyHalted, 0, 0, 0, 0⟩
    exact ⟨tick, clusters, mem⟩
  · exact ⟨rfl, rfl, rfl⟩

theorem mem_addOnce_iff (l : List Nat) (x y : Nat) : y ∈ addOnce l x ↔ y ∈ l ∨ y = x := by
  unfold addOnce
  split
  · rename_i listed
    simp only [List.contains_eq_mem, decide_eq_true_eq] at listed
    exact ⟨.inl, fun h => h.elim id fun h => h ▸ listed⟩
  · simp

theorem mem_dropAll_iff (l : List Nat) (x y : Nat) : y ∈ dropAll l x ↔ y ∈ l ∧ y ≠ x := by simp [dropAll]

theorem haltReport_spec {s : State} {i : Fin 16} {a : Arrival} {v : Vote} (good : (s.receive i 7 a).2 = .good) (kind : v.kind = 2) :
    Gives (.haltReport i a v) s (fun t => (i.val ∈ t.tick.haltedBelow ↔ v.halted = true) ∧
      (∀ p, p ≠ i.val → (p ∈ t.tick.haltedBelow ↔ p ∈ s.tick.haltedBelow)) ∧ t.clusters = s.clusters ∧ t.mem = s.mem) := by
  obtain ⟨-, tickR, -, clustersR, -, -, -, -, -, -, -, -, memR, -⟩ := s.receive_sameButPortsFst i 7 a
  obtain ⟨tick, clusters, mem⟩ := ((s.receive i 7 a).1.modTick (fun k => { k with
    haltedBelow := if v.halted then addOnce k.haltedBelow i else dropAll k.haltedBelow i })).haltNote_spec (s.receive i 7 a).1
  refine ⟨_, (exec_haltReport_good good v).trans (congrArg Host.Outcome.next (if_pos kind)), ?_, fun p hp => ?_,
    clusters.trans clustersR, mem.trans memR⟩
  · rw [tick]
    cases h : v.halted <;> simp [State.modTick, mem_addOnce_iff, mem_dropAll_iff]
  · rw [tick]
    cases h : v.halted <;> simp [State.modTick, mem_addOnce_iff, mem_dropAll_iff, tickR, hp]

/-! ### The seal (R45, R53) -/

theorem State.logTogether_tick (s : State) (l : List (Nat × Viol)) : (s.logTogether l).tick = s.tick := by
  refine State.each_keeps State.tick (fun t pg => ?_) s
  split
  · rfl
  · exact State.violateAll_tick ..

theorem State.avsWrite_tick (s : State) (q mv : Nat) : (s.avsWrite q mv).tick = s.tick := by simp [State.avsWrite]

theorem State.stepUp_tick (s : State) (q : Nat) : (s.stepUp q).tick = s.tick := by
  unfold State.stepUp
  dsimp only
  split
  · rfl
  · exact State.avsWrite_tick ..

theorem State.overrunSteps_tick (s : State) : s.overrunSteps.tick = s.tick := by
  refine State.each_keeps State.tick (fun t q => ?_) s
  split
  · exact State.stepUp_tick ..
  · rfl

theorem State.noteOverruns_tick (s : State) : s.noteOverruns.tick = s.tick := by
  refine State.each_keeps State.tick (fun t f => ?_) s
  split
  · split <;> rfl
  · rfl

theorem State.sealFaults_sameAttempt (s : State) : SameAttempt s s.sealFaults := by
  unfold State.sealFaults
  dsimp only
  have charged : SameAttempt s ((s.logTogether s.sealViols).each s.sealCodes fun t f => t.sealFault f.code f.unit) :=
    (SameAttempt.of_tick (s.logTogether_tick s.sealViols)).trans
      (SameAttempt.each (fun t (f : TickFault) => t.sealFault_sameAttempt f.code f.unit) _)
  exact charged.trans (.of_tick (by rw [State.modSvc_tick, State.slotsOver, State.modFab_tick, State.cnt_tick]))

theorem State.tryVote_sameAttempt (s : State) : SameAttempt s s.tryVote := by
  unfold State.tryVote
  split
  · exact s.sendUp_sameAttempt
  · exact .of_tick rfl

/-- The local verdict is fixed in the sealing phase, of the same attempt. -/
theorem State.localVerdict_seals (s : State) : s.localVerdict.tick.phase = .sealing ∧
    s.localVerdict.tick.count = s.tick.count ∧ s.localVerdict.tick.attempt = s.tick.attempt := by
  obtain ⟨u, hu⟩ : ∃ u, u = s.sealFaults.freeBlocks.overrunSteps.noteOverruns := ⟨_, rfl⟩
  have found : SameAttempt s u := by
    refine s.sealFaults_sameAttempt.trans (.of_tick ?_)
    rw [hu, State.noteOverruns_tick, State.overrunSteps_tick, State.freeBlocks]
  have votes : s.localVerdict = ((u.countFails u.tick.faults).modTick (fun t => { t with phase := .sealing })).tryVote := by
    rw [hu, State.localVerdict]
  have voted := State.tryVote_sameAttempt ((u.countFails u.tick.faults).modTick (fun t => { t with phase := .sealing }))
  rw [votes]
  exact ⟨voted.phase, voted.count.trans found.count, voted.attempt.trans found.attempt⟩

/-! ### Tick-stretch (R58 to R60) -/

theorem State.sendMarker_tick (s : State) (skip : Nat) (m : Marker) : (s.sendMarker skip m).tick = s.tick :=
  State.each_keeps State.tick (fun t p => (t.sendOn_sameButPorts p (.marker m)).tick) s

/-- In tick-stretch mode, once no group is halted, the keystone's seal marker starts the seal of the same attempt. -/
theorem stretchSealMarker_spec {s : State} (ks : s.tick.keystone = true) (stretch : s.tick.stretchEff = true)
    (repair : s.tick.phase = .repair) (none : s.anyHalted = false) : Gives .stretchSealMarker s (fun t =>
      t.tick.phase = .sealing ∧ t.tick.count = s.tick.count ∧ t.tick.attempt = s.tick.attempt ∧ t.mem = s.mem) := by
  let u := s.passTo s.sealStart
  let m := u.mkMarker u.tick.count u.tick.attempt 0
  have passed := s.passTo_sameAttempt s.sealStart
  have marked := State.sendMarker_tick u 16 m
  obtain ⟨phase, count, attempt⟩ := (u.sendMarker 16 m).localVerdict_seals
  obtain ⟨-, -, -, -, -, mem⟩ := ((s.passTo_sameButTick s.sealStart).trans (u.sendMarker_sameButTick 16 m)).trans
    (u.sendMarker 16 m).localVerdict_sameButTick
  have seals : exec .stretchSealMarker s = .next (u.sendMarker 16 m).localVerdict := by
    change execStretchSealMarker s = _
    rw [execStretchSealMarker, if_pos (by simp [ks, stretch, repair, none])]
  refine ⟨_, seals, phase, ?_, ?_, mem⟩
  · rw [count, marked, passed.count]
  · rw [attempt, marked, passed.attempt]

/-! ### The obligation -/

/-- Settles O46: votes and echoes go by the attempt they are of, the deadline by the children that are missing, and the rest by what
the seal leaves of the attempt. -/
theorem votesAndVerdicts : Obligations.VotesAndVerdicts := by
  unfold Obligations.VotesAndVerdicts
  intro s i a v k r good now sum all missing verdict
  have same := s.receive_sameButPortsFst i 7 a
  have tick : r.tick = k := same.tick
  have deadlineMem : s.voteDeadline.mem = s.mem := s.voteDeadline_sameStores.1
  refine ⟨fun hg kind hnow running => ?_, fun hg kind stale => ?_, fun sealing unsent => ⟨fun none ks => ?_, fun none ks sends => ?_,
    fun p hp => ?_⟩, fun h => ?_, fun hg kind hnow => ?_, fun hg kind stale => ?_, fun ks sealing decided backup => ⟨fun silent => ?_,
    fun echoed => ?_⟩, haltReport_spec, stretchSealMarker_spec, fun h => ?_, fun ks halted running => ⟨fun plain => ?_,
    fun stretch phase => ?_⟩, fun none => ?_⟩
  · have takes : exec (.vote i a v) s = .next (r.voteIn i v) :=
      (exec_vote_good hg v).trans (congrArg Host.Outcome.next (if_pos kind))
    obtain ⟨new, old⟩ := State.voteIn_now (r := r) (p := i) (v := v) (by rwa [tick]) (by rwa [tick])
    rw [tick] at new old
    exact ⟨fun unsent unreported body => takes.trans (congrArg Host.Outcome.next (new unsent unreported body)),
      fun h => takes.trans (congrArg Host.Outcome.next (old h))⟩
  · refine (exec_vote_good hg v).trans (congrArg Host.Outcome.next ((if_pos kind).trans (State.voteIn_stale ?_)))
    rwa [show (s.receive i 7 a).1.tick = k from tick]
  · obtain ⟨sent, decision, known, fails⟩ := voteDeadline_keystone sealing unsent none ks
    exact ⟨_, rfl, sent, decision, known, fails, deadlineMem⟩
  · obtain ⟨sent, out⟩ := voteDeadline_device sealing unsent none ks sends
    exact ⟨_, rfl, sent, out, deadlineMem⟩
  · obtain ⟨charged, sent⟩ := voteDeadline_missing sealing unsent hp
    exact ⟨_, rfl, charged, sent, deadlineMem⟩
  · refine congrArg Host.Outcome.next (if_pos ?_)
    simpa [k] using h
  · have takes : exec (.echo i a v) s = .next (r.echoIn i v) :=
      (exec_echo_good hg v).trans (congrArg Host.Outcome.next (if_pos kind))
    obtain ⟨agrees, differs, backup⟩ := State.echoIn_now (r := r) (p := i) (v := v) (by rwa [tick])
    rw [tick] at agrees differs backup
    rw [State.isBackup_of_same same] at backup
    exact ⟨fun ks h => takes.trans (congrArg Host.Outcome.next (agrees ks h)),
      fun ks h => takes.trans (congrArg Host.Outcome.next (differs ks h)),
      fun ks h => takes.trans (congrArg Host.Outcome.next (backup ks h))⟩
  · refine (exec_echo_good hg v).trans (congrArg Host.Outcome.next ((if_pos kind).trans (State.echoIn_stale ?_)))
    rwa [show (s.receive i 7 a).1.tick = k from tick]
  · refine congrArg Host.Outcome.next (if_pos ?_)
    simp_all [k, Option.isSome_iff_ne_none]
  · refine congrArg Host.Outcome.next (if_neg ?_)
    simp_all [k]
  · exact congrArg Host.Outcome.next (if_neg (by simp [h]))
  · exact congrArg Host.Outcome.next ((if_pos (by simp_all [k])).trans (if_neg (by simp_all [k])))
  · exact congrArg Host.Outcome.next ((if_pos (by simp_all [k])).trans (if_pos (by simp_all [k])))
  · exact congrArg Host.Outcome.next (if_neg (by simp [none]))

end Sys2Proof.Machine
end

section
/-!
PROOF. TCK.CMD and the program commands (02 R57, R65, R66; 03 R90; 06 R169). Settles O17.
-/
namespace Sys2Proof.Machine

/-! ### The commands' registers -/

theorem tckCmd_reaches : Reaches R.tckCmd 0 0 ⟨0x080, 1, 4, .wo, 0x0, 0x0, 0x0, 0x0, .none, false⟩ := by
  simp only [Reaches]; decide

theorem spnProgAdv_reaches : Reaches R.spnProgAdv 0 0 ⟨0x050, 1, 4, .wo, 0x0, 0x0, 0x0, 0x0, .none, false⟩ := by
  simp only [Reaches]; decide

theorem spnCtxRestart_reaches : Reaches R.spnCtxRestart 0 0 ⟨0x054, 1, 4, .wo, 0x0, 0x0, 0x0, 0x0, .none, false⟩ := by
  simp only [Reaches]; decide

section
variable {s : State} {p : Path} (hw : Writes s p R.tckCmd)
include hw

theorem State.put_tckCmd {t : State} {v : Nat} (h : s.tckCmd (w32 v).toNat = .done t) : s.put p R.tckCmd v = t :=
  State.put_wo tckCmd_reaches rfl (by decide) hw h

theorem State.put_tckCmd_refused {v : Nat} (h : s.tckCmd (w32 v).toNat = .refused) :
    s.put p R.tckCmd v = s.refuses p .tck 0 0x80 0x10 :=
  State.put_wo_refused tckCmd_reaches rfl (by decide) hw h

omit hw in
theorem State.tckCmd_start : s.tckCmd (w32 1).toNat = if s.startBad then .refused else .done s.startCmd := rfl

omit hw in
theorem State.tckCmd_hold : s.tckCmd (w32 2).toNat = if s.tick.keystone && s.image.loaded then .done s.holdCmd else .refused := rfl

omit hw in
theorem State.tckCmd_resume :
    s.tckCmd (w32 4).toNat = if s.tick.keystone && s.image.loaded then .done s.resumeCmd else .refused := rfl

/-- START is the keystone's configured device's command, with an image loaded (R65). -/
theorem exec_start : exec (.start p) s =
    .next (if s.startBad then s.refuses p .tck 0 0x80 0x10 else s.startCmd) := by
  refine congrArg Host.Outcome.next ?_
  split
  · exact State.put_tckCmd_refused hw (State.tckCmd_start.trans (if_pos ‹_›))
  · exact State.put_tckCmd hw (State.tckCmd_start.trans (if_neg ‹_›))

/-- HOLD is the keystone's command (R57). -/
theorem exec_hold : exec (.hold p) s =
    .next (if s.tick.keystone && s.image.loaded then s.holdCmd else s.refuses p .tck 0 0x80 0x10) := by
  refine congrArg Host.Outcome.next ?_
  split
  · exact State.put_tckCmd hw (State.tckCmd_hold.trans (if_pos ‹_›))
  · exact State.put_tckCmd_refused hw (State.tckCmd_hold.trans (if_neg ‹_›))

/-- So is RESUME (R66). -/
theorem exec_resume : exec (.resume p) s =
    .next (if s.tick.keystone && s.image.loaded then s.resumeCmd else s.refuses p .tck 0 0x80 0x10) := by
  refine congrArg Host.Outcome.next ?_
  split
  · exact State.put_tckCmd hw (State.tckCmd_resume.trans (if_pos ‹_›))
  · exact State.put_tckCmd_refused hw (State.tckCmd_resume.trans (if_neg ‹_›))

end

theorem exec_progAdv {s : State} {p : Path} (hw : Writes s p R.spnProgAdv) (n : Fin 256) :
    exec (.progAdv p n) s = .next (s.progAdv n) := by
  refine congrArg Host.Outcome.next (State.put_wo spnProgAdv_reaches rfl (by decide) hw ?_)
  have whole : bits (w32 n).toNat 7 0 = n := by simp [bits, w32]
  change Effect.done (s.progAdv (bits (w32 n).toNat 7 0)) = _
  rw [whole]

theorem exec_ctxRestart {s : State} {p : Path} (hw : Writes s p R.spnCtxRestart) (n : Fin 256) :
    exec (.ctxRestart p n) s = .next (s.ctxRestart n) := by
  refine congrArg Host.Outcome.next (State.put_wo spnCtxRestart_reaches rfl (by decide) hw ?_)
  have whole : bits (w32 n).toNat 7 0 = n := by simp [bits, w32]
  change Effect.done (s.ctxRestart (bits (w32 n).toNat 7 0)) = _
  rw [whole]

/-! ### The clocks before a start (R66) -/

theorem State.seekFloor_tick (s : State) : s.seekFloor.tick = s.tick := by
  refine State.each_keeps State.tick (fun t q => ?_) s
  split
  · exact State.stepUp_tick ..
  · rfl

/-- What a start looks at is as before: the registers, the image, the power state and the frequencies. -/
structure SameClocks (s t : State) : Prop where
  regs : t.regs = s.regs
  image : t.image = s.image
  state : t.power.state = s.power.state
  freq : ∀ r, (t.quarter r).f = (s.quarter r).f

theorem State.stepUp_sameClocks (s : State) (q : Nat) : SameClocks s (s.stepUp q) := by
  unfold State.stepUp
  dsimp only
  split
  · exact ⟨rfl, rfl, rfl, fun _ => rfl⟩
  · refine ⟨by simp [State.avsWrite], by simp [State.avsWrite], by simp [State.avsWrite, State.modQuarter], fun r => ?_⟩
    simp only [State.quarter, State.avsWrite, State.send_power, State.modPower_power, State.modQuarter, mget_mput]
    split <;> simp_all

/-- Asking the clocks up to the floor does not bring them there. -/
theorem State.seekFloor_mayStart (s : State) : s.seekFloor.mayStart = s.mayStart := by
  have keeps {β : Type} (π : State → β) (h : ∀ t q, π (State.stepUp t q) = π t) : π s.seekFloor = π s := by
    refine State.each_keeps π (fun t q => ?_) s
    split
    · exact h t q
    · rfl
  have regs : s.seekFloor.regs = s.regs := keeps State.regs fun t q => (t.stepUp_sameClocks q).regs
  have image : s.seekFloor.image = s.image := keeps State.image fun t q => (t.stepUp_sameClocks q).image
  have state : s.seekFloor.power.state = s.power.state := keeps (·.power.state) fun t q => (t.stepUp_sameClocks q).state
  have clocks (r : Nat) : (s.seekFloor.quarter r).f = (s.quarter r).f :=
    keeps (fun t => (t.quarter r).f) fun t q => (t.stepUp_sameClocks q).freq r
  have floor : s.seekFloor.floorMhz = s.floorMhz := by
    rw [State.floorMhz, State.floorMhz, State.fld, State.fld, State.rd, State.rd, State.rawAt, State.rawAt, regs, image]
  simp only [State.mayStart, State.atFloor, floor, state, clocks]

/-! ### The first tick (R57, R65) -/

theorem State.switchKey_tick (s : State) (p : Nat) : (s.switchKey p).tick = s.tick := by
  unfold State.switchKey
  split <;> rfl

theorem State.switchKey_mem (s : State) (p : Nat) : (s.switchKey p).mem = s.mem := by
  unfold State.switchKey
  split <;> rfl

theorem State.tickStart_tick (s : State) : ∃ gate, s.tickStart.tick = s.tick.starts gate :=
  have keys : (s.each s.upPorts State.switchKey).tick = s.tick := State.each_keeps State.tick State.switchKey_tick s
  ⟨_, congrArg (Tick.starts · _) (((State.modIsland_tick ..).trans (State.modIsland_tick ..)).trans keys)⟩

theorem State.tickStart_mem (s : State) : s.tickStart.mem = s.mem := by
  unfold State.tickStart
  dsimp only
  rw [State.modTick_mem, State.cleared, State.modIsland_mem, State.openGate, State.modIsland_mem]
  exact State.each_keeps State.mem State.switchKey_mem s

theorem State.takePlacement_tick (s : State) : s.takePlacement.tick = s.tick := by
  unfold State.takePlacement
  dsimp only
  split
  · rfl
  · split <;> simp

theorem State.takePlacement_mem (s : State) : s.takePlacement.mem = s.mem := by
  unfold State.takePlacement
  dsimp only
  split
  · rfl
  · split <;> simp

/-- A spare is no keystone and starts nothing (R33). -/
theorem State.spareStops_tick (s : State) :
    s.spareStops.tick = if s.isSpare then { s.tick with keystone := false, starting := 0 } else s.tick := by
  unfold State.spareStops
  split <;> rfl

theorem State.spareStops_mem (s : State) : s.spareStops.mem = s.mem := by
  unfold State.spareStops
  split <;> rfl

/-- What ends HOLD takes the registers, and may stop a keystone whose role is now a spare's. -/
theorem State.takeResumed_tick (s : State) : ∃ spare : Bool,
    s.takeResumed.tick = if spare then { s.tick with keystone := false, starting := 0 } else s.tick := by
  have role : s.takeRole.tick = s.tick := State.when_keeps State.tick _ (State.wr_tick ..)
  unfold State.takeResumed
  dsimp only
  rw [State.spareStops_tick, State.takePlacement_tick]
  exact ⟨_, by rw [role]⟩

theorem State.takeResumed_mem (s : State) : s.takeResumed.mem = s.mem := by
  unfold State.takeResumed
  dsimp only
  rw [State.spareStops_mem, State.takePlacement_mem]
  exact State.when_keeps State.mem _ (State.wr_mem ..)

/-- The tick `k'` is in the opening phase of an attempt, under its marker; out of HOLD the keystone of `k` is still keystone. -/
structure Opens (k k' : Tick) (count attempt : Nat) : Prop where
  joined : k'.joined = true
  count : k'.count = count
  attempt : k'.attempt = attempt
  phase : k'.phase = .opening
  marked : k'.marked = true
  starting : k'.starting = 0
  sound : k'.selfFailed = false
  keystone : k.state ≠ .hold → k'.keystone = k.keystone

theorem State.toRun_opens {s : State} (attempt : Nat) (joined : s.tick.joined = true) (starting : s.tick.starting = 0)
    (sound : s.tick.selfFailed = false) : Opens s.tick (s.toRun attempt).tick s.tick.count attempt := by
  unfold State.toRun
  by_cases hold : s.tick.state = .hold
  · obtain ⟨spare, taken⟩ := s.takeResumed_tick
    simp only [if_pos hold, State.modTick_tick, State.modPower_tick, taken]
    cases spare
    · exact ⟨joined, rfl, rfl, rfl, rfl, starting, sound, fun _ => rfl⟩
    · exact ⟨joined, rfl, rfl, rfl, rfl, rfl, sound, fun run => absurd hold run⟩
  · simp only [if_neg hold, State.modTick_tick]
    exact ⟨joined, rfl, rfl, rfl, rfl, starting, sound, fun _ => rfl⟩

theorem State.toRun_mem (s : State) (attempt : Nat) : (s.toRun attempt).mem = s.mem := by
  unfold State.toRun
  dsimp only
  split
  · rw [State.modTick_mem, State.modPower_mem, State.modTick_mem, State.takeResumed_mem]
  · rfl

theorem State.noteMarker_mem (s : State) (m : Marker) : (s.noteMarker m).mem = s.mem := by
  unfold State.noteMarker
  dsimp only
  split <;> rfl

/-- Noting a marker opens no attempt and ends none. -/
theorem Opens.noteMarker {k : Tick} {s : State} {count attempt : Nat} (h : Opens k s.tick count attempt) (m : Marker) :
    Opens k (s.noteMarker m).tick count attempt := by
  obtain ⟨joined, hcount, hattempt, phase, marked, starting, sound, keystone⟩ := h
  unfold State.noteMarker
  dsimp only
  split <;> exact ⟨joined, hcount, hattempt, phase, marked, starting, sound, keystone⟩

/-- A marker with no tick joined makes its tick and attempt the device's. -/
theorem State.applyVerdict_first {s : State} {gate : Bool} {k : Tick} (began : s.tick = k.starts gate) (joined : k.joined = false)
    (starting : k.starting = 0) (sound : k.selfFailed = false) :
    Opens k (s.applyVerdict 1 1 0).tick 1 1 ∧ (s.applyVerdict 1 1 0).mem = s.mem := by
  let u := ((s.modTick (fun t => { t with count := 1, joined := true, undecided := false })).note 3 0 0 []).snapshot
  have tick : u.tick = { s.tick with count := 1, joined := true, undecided := false } := rfl
  have runs : s.applyVerdict 1 1 0 = u.toRun 1 := if_pos (by rw [began]; simp [Tick.starts, joined])
  obtain ⟨ujoined, count, attempt, phase, marked, ustarting, usound, keystone⟩ : Opens u.tick (u.toRun 1).tick u.tick.count 1 :=
    State.toRun_opens 1 rfl (by rw [tick, began]; exact starting) (by rw [tick, began]; exact sound)
  rw [tick, began] at keystone
  rw [runs]
  exact ⟨⟨ujoined, count, attempt, phase, marked, ustarting, usound, keystone⟩, State.toRun_mem ..⟩

/-- A keystone's fresh marker is noted and sent, unless its verdict failed the device. -/
theorem State.emit_sound {s : State} {tick attempt verdict : Nat}
    (sound : (s.tickStart.applyVerdict tick attempt verdict).tick.selfFailed = false) : ∃ m,
    s.emit tick attempt verdict true = ((s.tickStart.applyVerdict tick attempt verdict).startNow.noteMarker m).sendMarker 16 m := by
  refine ⟨(s.tickStart.applyVerdict tick attempt verdict).startNow.mkMarker tick attempt verdict, ?_⟩
  unfold State.emit
  dsimp only
  rw [if_neg (by simp [sound]), if_pos rfl]

/-- A keystone that has not joined opens attempt 1 of tick 1 with its marker. -/
theorem State.emit_first {s : State} (joined : s.tick.joined = false) (starting : s.tick.starting = 0)
    (sound : s.tick.selfFailed = false) : Opens s.tick (s.emit 1 1 0 true).tick 1 1 ∧ (s.emit 1 1 0 true).mem = s.mem := by
  obtain ⟨gate, began⟩ := s.tickStart_tick
  obtain ⟨opens, mem⟩ := State.applyVerdict_first began joined starting sound
  obtain ⟨m, marks⟩ := State.emit_sound opens.sound
  generalize s.tickStart.applyVerdict 1 1 0 = u at opens mem marks
  obtain ⟨-, -, -, -, -, sent⟩ := (u.startNow.noteMarker m).sendMarker_sameButTick 16 m
  rw [marks, State.sendMarker_tick]
  exact ⟨Opens.noteMarker (s := u.startNow) opens m,
    sent.trans ((State.noteMarker_mem ..).trans (mem.trans s.tickStart_mem))⟩

section
variable {s : State}

/-- Before the clocks allow it START only asks for the start. -/
theorem State.startCmd_waits (clocks : s.mayStart = false) :
    s.startCmd.tick = { s.tick with starting := 1 } ∧ s.startCmd.mem = s.mem := by
  let u := (s.modTick (fun t => { t with starting := 1 })).seekFloor
  obtain ⟨-, -, -, -, -, mem⟩ := (s.modTick (fun t => { t with starting := 1 })).seekFloor_sameButTick
  have floor : u.mayStart = s.mayStart := State.seekFloor_mayStart _
  have waits : s.startCmd = u := if_neg (by simp [u, floor, clocks])
  rw [waits]
  exact ⟨State.seekFloor_tick _, mem⟩

/-- A start that the clocks allow, on a device that has not joined. -/
theorem State.tryStart_first (asked : s.tick.starting = 1) (clocks : s.mayStart = true) (joined : s.tick.joined = false) :
    s.tryStart = (s.modTick (fun t => { t with starting := 0, keystone := true })).emit 1 1 0 true := by
  rw [State.tryStart, if_pos ⟨asked, clocks⟩]
  exact if_neg (by simp [joined])

/-- A device that has not joined starts the span as its keystone. -/
theorem State.startCmd_starts (joined : s.tick.joined = false) (clocks : s.mayStart = true) (sound : s.tick.selfFailed = false) :
    Opens { s.tick with starting := 0, keystone := true } s.startCmd.tick 1 1 ∧ s.startCmd.mem = s.mem := by
  let u := (s.modTick (fun t => { t with starting := 1 })).seekFloor
  obtain ⟨-, -, -, -, -, mem⟩ := (s.modTick (fun t => { t with starting := 1 })).seekFloor_sameButTick
  have floor : u.mayStart = s.mayStart := State.seekFloor_mayStart _
  have tick : u.tick = { s.tick with starting := 1 } := State.seekFloor_tick _
  have starts : s.startCmd = (u.modTick (fun t => { t with starting := 0, keystone := true })).emit 1 1 0 true :=
    State.tryStart_first (s := u) (by rw [tick]) (floor.trans clocks) (by rw [tick]; exact joined)
  have ready : (u.modTick (fun t => { t with starting := 0, keystone := true })).tick =
      { s.tick with starting := 0, keystone := true } := by rw [State.modTick_tick, tick]
  obtain ⟨opens, kept⟩ := State.emit_first (s := u.modTick (fun t => { t with starting := 0, keystone := true }))
    (by rw [ready]; exact joined) (by rw [ready]) (by rw [ready]; exact sound)
  rw [starts]
  rw [ready] at opens
  exact ⟨opens, kept.trans mem⟩

theorem State.resumeCmd_hold (hold : s.tick.state = .hold) :
    s.resumeCmd.tick = { s.tick with starting := 2 } ∧ s.resumeCmd.mem = s.mem := by
  obtain ⟨-, -, -, -, -, mem⟩ := s.resumeCmd_sameButTick
  refine ⟨?_, mem⟩
  rw [State.resumeCmd, if_pos hold, State.seekFloor_tick]
  rfl

end

/-! ### The program commands (R90, R169) -/

/-- A ledger record touches no program, tick or memory. -/
theorem State.ledgerEvent_leaves (s : State) (e : Nat × Nat × List Byte) :
    (s.ledgerEvent e).tick = s.tick ∧ (s.ledgerEvent e).mem = s.mem ∧ (s.ledgerEvent e).image = s.image := by
  unfold State.ledgerEvent State.ledger
  dsimp only
  split
  · simp
  · split <;> simp

theorem State.advanceCtx_tick (s : State) (c k r : Nat) : (s.advanceCtx c k r).tick = s.tick := by
  unfold State.advanceCtx
  dsimp only
  split <;> rfl

theorem State.advanceCtx_mem (s : State) (c k r : Nat) : (s.advanceCtx c k r).mem = s.mem := by
  unfold State.advanceCtx
  dsimp only
  split <;> rfl

/-- A tenant's boundary is one program on. -/
theorem State.boundary_spec (s : State) (n : Nat) :
    mget 0 (s.boundary n).image.epochs n = mget 0 s.image.epochs n + 1 ∧ (s.boundary n).tick = s.tick ∧
      (s.boundary n).mem = s.mem := by
  let r := s.refreshTicks n (mget 0 s.image.epochs n + 1)
  have contexts {β : Type} (π : State → β) (h : ∀ (t : State) (c k : Nat), π (t.advanceCtx c k r) = π t) :
      π (s.each (s.ctxsOf n) (fun t x => t.advanceCtx x.1 x.2 r)) = π s :=
    State.each_keeps π (fun t (x : Nat × Nat) => h t x.1 x.2) s
  unfold State.boundary
  dsimp only
  obtain ⟨tick, mem, image⟩ := State.ledgerEvent_leaves _ (4 * 256 + 8, n, [])
  rw [tick, mem, image]
  refine ⟨?_, contexts State.tick fun t c k => t.advanceCtx_tick c k r, contexts State.mem fun t c k => t.advanceCtx_mem c k r⟩
  dsimp only
  rw [mget_mput_self]

/-- A tenant that waits for a restart and is not killed or zeroing is dead no more. -/
theorem State.settleDead_revives {s : State} {n : Nat} (asked : n ∈ s.tick.restarts) (none : s.tick.killed = [])
    (zeroed : (s.fn n).zeroing = false) : n ∉ s.settleDead.tick.dead := by
  simp [State.settleDead, none, asked, zeroed]

/-! ### The obligation -/

/-- Settles O17: a start that may run opens attempt 1 of tick 1, and the other commands wait or act as their registers say. -/
theorem tickAndProgramCommands : Obligations.TickAndProgramCommands := by
  unfold Obligations.TickAndProgramCommands
  refine ⟨fun s p hw => ⟨fun fit joined clocks sound => ?_, fun fit clocks => ?_, fun bad => ?_, fun ks loaded =>
    ⟨fun running => ?_, fun running => ?_, fun hold => ?_, fun hold => ?_⟩, fun h => ?_⟩,
    fun s p n => ⟨fun hw => ⟨fun waits => ?_, fun now => ?_⟩, fun hw => ⟨fun waits => ?_, fun now none zeroed => ?_⟩⟩⟩
  · obtain ⟨⟨joins, count, attempt, phase, marked, starting, -, keystone⟩, mem⟩ :=
      State.startCmd_starts joined (s.seekFloor_mayStart ▸ clocks) sound
    refine ⟨_, (exec_start hw).trans ?_, joins, count, attempt, phase, marked, starting, mem, keystone⟩
    rw [if_neg (by simp [fit])]
  · exact ⟨_, (exec_start hw).trans (by rw [if_neg (by simp [fit])]), State.startCmd_waits (s.seekFloor_mayStart ▸ clocks)⟩
  · rw [exec_start hw, if_pos bad]
  · rw [exec_hold hw, if_pos (by simp [ks, loaded]), State.holdCmd, if_pos running]
  · rw [exec_hold hw, if_pos (by simp [ks, loaded]), State.holdCmd, if_neg (by simp [running])]
  · exact ⟨_, (exec_resume hw).trans (by rw [if_pos (by simp [ks, loaded])]), State.resumeCmd_hold hold⟩
  · rw [exec_resume hw, if_pos (by simp [ks, loaded]), State.resumeCmd, if_neg hold]
  · have refused : ¬(s.tick.keystone && s.image.loaded) = true := by
      obtain h | h := h <;> simp [h]
    exact ⟨by rw [exec_hold hw, if_neg refused], by rw [exec_resume hw, if_neg refused]⟩
  · rw [exec_progAdv hw, State.progAdv, if_pos waits]
  · refine ⟨(s.boundary n).snapshot, ?_, s.boundary_spec n⟩
    rw [exec_progAdv hw, State.progAdv, if_neg (by simp [now])]
  · rw [exec_ctxRestart hw, State.ctxRestart, if_pos waits]
  · let u := s.modTick (fun k => { k with restarts := addOnce k.restarts n })
    refine ⟨u.settleDead.snapshot, ?_, State.settleDead_revives (s := u) ?_ none zeroed, rfl⟩
    · rw [exec_ctxRestart hw, State.ctxRestart, if_neg (by simp [now])]
    · exact (mem_addOnce_iff ..).mpr (.inr rfl)

end Sys2Proof.Machine
end

section
/-!
PROOF. The keystone's takeover (02 R48) in a state whose register map lists one register twice. Refutes O45.
-/
namespace Sys2Proof.Machine

/-- The backup in HOLD, one tick without the keystone's marker, whose stored registers list SPN.ROLE twice: a read finds the first
entry, which is no spare's, and the copy taken when HOLD ends (R66) leaves the last, which is a spare's. -/
def backupOfTwoRoles : State :=
  let key (r : Reg) : Nat := regKey (pageNo r.page 0) r.off 0
  { State.reset with
    image := { Image.reset with loaded := true, self := 5 }
    eff := mput State.reset.eff (key R.tckKsCfg) 0x50000
    regs := [(key R.spnRole, 0x01), (key R.spnRole, 0x10), (key R.tckCtl, 0x30000)]
    tick := { Tick.reset with state := .hold, count := 5, attempt := 1, joined := true, epoch := 3, silent := 1 } }

/-- It meets the takeover's hypotheses. -/
theorem backupOfTwoRoles_takesOver : backupOfTwoRoles.isBackup = true ∧ backupOfTwoRoles.tick.joined = true ∧
    backupOfTwoRoles.tick.selfFailed = false ∧ 1 ≤ backupOfTwoRoles.tick.silent ∧
    bit (backupOfTwoRoles.rd R.spnRole) 4 = false := by decide +kernel

/-- The takeover's RERUN ends HOLD, and the role copied then makes the device a spare, which is no keystone (R33). -/
theorem keystoneTakeover_backupOfTwoRoles : Gives .keystoneTakeover backupOfTwoRoles (fun t => t.tick.keystone = false) :=
  ⟨_, rfl, by decide +kernel⟩

/-- Refutes O45: KEYSTONE_TAKEOVER need not leave a keystone when the register map lists SPN.ROLE twice, since a read finds the first
entry and the copy at the end of HOLD keeps the last. The statement lacks the hypothesis that the map lists a key once, as
`mput` keeps it; about such states the refutation says nothing. -/
theorem not_tickPhases : ¬ Obligations.TickPhases := by
  intro h
  obtain ⟨-, -, -, -, -, -, -, -, -, -, -, -, -, -, -, takeover, -⟩ := h backupOfTwoRoles 0 ⟨0, false, [], true⟩ 0
    ⟨5, 1, 2, false, false, 1, 0, 3, 0, 0, 0, 1000000⟩
  obtain ⟨backup, joined, sound, silent, role⟩ := backupOfTwoRoles_takesOver
  obtain ⟨t, runs, keystone, -⟩ := takeover backup joined sound silent role
  obtain ⟨t', runs', spare⟩ := keystoneTakeover_backupOfTwoRoles
  obtain rfl : t = t' := Host.Outcome.next.inj (runs.symm.trans runs')
  exact absurd (keystone.symm.trans spare) (by decide)

end Sys2Proof.Machine
end

section
/-!
PROOF. What the operations on thread groups, blocks and ARRIVEs do to the cluster they are of (03 R70 to R80).
-/
namespace Sys2Proof.Machine

/-! ### One cluster changed -/

/-- What a change of a cluster leaves of each, it leaves of every cluster. -/
theorem State.modCluster_same {β : Type} (π : Cluster → β) {f : Cluster → Cluster} (h : ∀ k, π (f k) = π k)
    (s : State) (c d : Nat) :
    π ((s.modCluster c f).cluster d) = π (s.cluster d) := by
  rw [State.modCluster_cluster]
  split
  · rename_i e; rw [h, e]
  · rfl

theorem State.modCluster_others (s : State) {c d : Nat} (f : Cluster → Cluster) (h : d ≠ c) :
    (s.modCluster c f).cluster d = s.cluster d := by
  rw [State.modCluster_cluster, if_neg h]

theorem State.cluster_of_clusters {s t : State} (h : t.clusters = s.clusters) : t.cluster = s.cluster := by
  funext c
  rw [State.cluster, State.cluster, h]

theorem State.group_of_cluster {s t : State} {c : Nat} (h : (t.cluster c).groups = (s.cluster c).groups) : t.group c = s.group c := by
  funext g
  rw [State.group, State.group, h]

@[simp] theorem State.modFab_cluster (s : State) (f : Fabric → Fabric) : (s.modFab f).cluster = s.cluster := rfl
@[simp] theorem State.modFab_group (s : State) (f : Fabric → Fabric) : (s.modFab f).group = s.group := rfl

/-! ### The issue of an instruction (R70, R71) -/

/-- An issue leaves all of a cluster but its rotating pointer. -/
theorem State.issued_same {β : Type} (π : Cluster → β) (h : ∀ (k : Cluster) r, π { k with rotate := r } = π k)
    (s : State) (c g d : Nat) :
    π ((s.issued c g).cluster d) = π (s.cluster d) := by
  obtain ⟨-, others, ⟨r, own⟩, -⟩ := s.issued_fields c g
  by_cases e : d = c
  · rw [e, own, h]
  · rw [others d e]

theorem State.issued_others (s : State) {c d : Nat} (g : Nat) (h : d ≠ c) : (s.issued c g).cluster d = s.cluster d :=
  (s.issued_fields c g).2.1 d h

section
variable (s : State) (c g d : Nat)

@[simp] theorem State.issued_group : (s.issued c g).group d = s.group d :=
  State.group_of_cluster (s.issued_same Cluster.groups (fun _ _ => rfl) c g d)
@[simp] theorem State.issued_blocks : ((s.issued c g).cluster d).blocks = (s.cluster d).blocks :=
  s.issued_same Cluster.blocks (fun _ _ => rfl) c g d
@[simp] theorem State.issued_copies : ((s.issued c g).cluster d).copies = (s.cluster d).copies :=
  s.issued_same Cluster.copies (fun _ _ => rfl) c g d
@[simp] theorem State.issued_copyIds : ((s.issued c g).cluster d).copyIds = (s.cluster d).copyIds :=
  s.issued_same Cluster.copyIds (fun _ _ => rfl) c g d
@[simp] theorem State.issued_arrivals : ((s.issued c g).cluster d).arrivals = (s.cluster d).arrivals :=
  s.issued_same Cluster.arrivals (fun _ _ => rfl) c g d

end

/-- A group that runs is in its slot. -/
theorem Runs.group {s : State} {c g op : Nat} {w : TWord} {x : Group} {regs : List Nat} (h : Runs s c g op w x regs) :
    s.group c g = some x := by
  obtain ⟨issues, -⟩ := h
  unfold State.mayIssue at issues
  split at issues
  · split at issues
    · rwa [← issues]
    · cases issues
  · cases issues

/-- The address of an instruction rests on the device's number and the handle tables. -/
theorem State.issued_instrAddr (s : State) (c g : Nat) (x : Group) : (s.issued c g).instrAddr c x = s.instrAddr c x := by
  simp [State.instrAddr, State.self, (SameHandles.issued s c g).entry]

/-! ### Groups stored (R70) -/

section
variable (s : State) (c g d : Nat) (x : Group)

theorem State.setGroup_group (h : Nat) : (s.setGroup c g x).group d h = if d = c ∧ h = g then some x else s.group d h := by
  simp only [State.group, State.setGroup, State.modCluster_cluster]
  by_cases e : d = c
  · subst e
    by_cases k : h = g
    · simp [k]
    · simp [k, mfind_mput_ne]
  · simp [e]

@[simp] theorem State.setGroup_self : (s.setGroup c g x).group c g = some x := by
  simp [State.setGroup_group]

theorem State.setGroup_other {h : Nat} (k : h ≠ g) : (s.setGroup c g x).group d h = s.group d h := by
  simp [State.setGroup_group, k]

theorem State.setGroup_same {β : Type} (π : Cluster → β) (h : ∀ (k : Cluster) gs, π { k with groups := gs } = π k) :
    π ((s.setGroup c g x).cluster d) = π (s.cluster d) :=
  State.modCluster_same π (fun k => h k _) s c d

@[simp] theorem State.setGroup_blocks : ((s.setGroup c g x).cluster d).blocks = (s.cluster d).blocks :=
  s.setGroup_same c g d x Cluster.blocks fun _ _ => rfl
@[simp] theorem State.setGroup_copies : ((s.setGroup c g x).cluster d).copies = (s.cluster d).copies :=
  s.setGroup_same c g d x Cluster.copies fun _ _ => rfl
@[simp] theorem State.setGroup_arrivals : ((s.setGroup c g x).cluster d).arrivals = (s.cluster d).arrivals :=
  s.setGroup_same c g d x Cluster.arrivals fun _ _ => rfl

end

/-- A group changed where there is one is stored. -/
theorem State.modGroup_of_some {s : State} {c g : Nat} {x : Group} (h : s.group c g = some x) (f : Group → Group) :
    s.modGroup c g f = s.setGroup c g (f x) := by
  simp only [State.modGroup, h]

theorem State.modGroup_of_none {s : State} {c g : Nat} (h : s.group c g = none) (f : Group → Group) : s.modGroup c g f = s := by
  simp only [State.modGroup, h]

/-! ### Demotion and promotion (R72) -/

section
variable (s : State) (c d : Nat)

/-- Demotion and promotion leave all of a cluster but its active set. -/
theorem State.schedule_same {β : Type} (π : Cluster → β) (h : ∀ (k : Cluster) l, π { k with active := l } = π k) :
    π ((s.schedule c).cluster d) = π (s.cluster d) :=
  State.modCluster_same π (fun k => h k _) s c d

@[simp] theorem State.schedule_group : (s.schedule c).group d = s.group d :=
  State.group_of_cluster (s.schedule_same c d Cluster.groups fun _ _ => rfl)
@[simp] theorem State.schedule_blocks : ((s.schedule c).cluster d).blocks = (s.cluster d).blocks :=
  s.schedule_same c d Cluster.blocks fun _ _ => rfl
@[simp] theorem State.schedule_copies : ((s.schedule c).cluster d).copies = (s.cluster d).copies :=
  s.schedule_same c d Cluster.copies fun _ _ => rfl
@[simp] theorem State.schedule_arrivals : ((s.schedule c).cluster d).arrivals = (s.cluster d).arrivals :=
  s.schedule_same c d Cluster.arrivals fun _ _ => rfl

end

theorem mem_mput {α : Type} {m : NMap α} {k : Nat} {v : α} {p : Nat × α} (h : p ∈ mput m k v) : p = (k, v) ∨ p ∈ m := by
  induction m with
  | nil => simpa [mput] using h
  | cons q r ih =>
    obtain ⟨a, w⟩ := q
    simp only [mput] at h
    split at h
    · simpa using h
    · split at h
      · rename_i e
        subst e
        obtain rfl | h := List.mem_cons.mp h
        · exact .inl rfl
        · exact .inr (List.mem_cons_of_mem _ h)
      · obtain rfl | h := List.mem_cons.mp h
        · exact .inr List.mem_cons_self
        · exact (ih h).imp_right (List.mem_cons_of_mem _)

/-- An active entry after the promotion stood before it, or has a group that waited. -/
theorem mem_fillActive {act : NMap Nat} {free pend : List Nat} {p : Nat × Nat} (h : p ∈ fillActive act free pend) :
    p ∈ act ∨ p.2 ∈ pend := by
  induction free generalizing act pend with
  | nil => exact .inl (by simpa [fillActive] using h)
  | cons e fs ih =>
    cases pend with
    | nil => exact .inl (by simpa [fillActive] using h)
    | cons g ps =>
      obtain h | h := ih h
      · obtain rfl | h := mem_mput h
        · exact .inr List.mem_cons_self
        · exact .inl h
      · exact .inr (List.mem_cons_of_mem _ h)

theorem mem_insBy {α : Type} {le : α → α → Bool} {x y : α} {l : List α} (h : y ∈ insBy le x l) : y = x ∨ y ∈ l := by
  induction l with
  | nil => simpa [insBy] using h
  | cons z r ih =>
    simp only [insBy] at h
    split at h
    · obtain rfl | h := List.mem_cons.mp h
      · exact .inr List.mem_cons_self
      · exact (ih h).imp_right (List.mem_cons_of_mem _)
    · exact List.mem_cons.mp h

theorem mem_sortBy {α : Type} {le : α → α → Bool} {y : α} {l : List α} (h : y ∈ sortBy le l) : y ∈ l :=
  List.foldlRecOn (motive := fun r => ∀ y ∈ r, y ∈ l) l _ (by simp)
    (fun _ hr _ ha _ hy => (mem_insBy hy).elim (fun e => e ▸ ha) (hr _)) y h

/-- A group that waits to be promoted is in its slot. -/
theorem Cluster.mem_readyPending {k : Cluster} {g : Nat} (h : g ∈ k.readyPending) : ∃ x, (g, x) ∈ k.groups := by
  simp only [Cluster.readyPending, List.mem_map] at h
  obtain ⟨⟨_, x⟩, listed, rfl⟩ := h
  exact ⟨x, (List.mem_filter.mp (mem_sortBy listed)).1⟩

/-- A slot with no group has no place in the active set. -/
theorem Cluster.schedule_entryOf_none {k : Cluster} {g : Nat} (h : mfind k.groups g = none) : k.schedule.entryOf g = none := by
  simp only [Cluster.entryOf, Option.map_eq_none_iff, List.find?_eq_none, beq_iff_eq]
  rintro ⟨e, g'⟩ active rfl
  obtain kept | promoted := mem_fillActive active
  · simp [h] at kept
  · obtain ⟨x, listed⟩ := Cluster.mem_readyPending promoted
    exact (mfind_eq_none_iff k.groups g').mp h (List.mem_map_of_mem (f := Prod.fst) listed)

/-! ### After an issue (R72, R92) -/

theorem State.afterIssue_of_some {s : State} {c g : Nat} {y : Group} (h : s.group c g = some y) :
    s.afterIssue c g = (s.setGroup c g y.issuedOnce).schedule c := by
  rw [State.afterIssue, State.modGroup_of_some h]
  rfl

theorem State.afterIssue_of_none {s : State} {c g : Nat} (h : s.group c g = none) : s.afterIssue c g = s.schedule c := by
  rw [State.afterIssue, State.modGroup_of_none h]

/-- A group after its instruction, with the others where they were. -/
theorem State.afterIssue_groups {s : State} {c g : Nat} {y : Group} (h : s.group c g = some y) :
    (s.afterIssue c g).groupIs c g y ∧ ∀ j, j ≠ g → (s.afterIssue c g).group c j = s.group c j := by
  rw [State.afterIssue_of_some h]
  exact ⟨by simp [State.groupIs], fun j hj => by simp [State.setGroup_other _ _ _ _ _ hj]⟩

section
variable {s : State} {c g : Nat} {y : Group} (h : s.group c g = some y)
include h

theorem State.afterIssue_blocks : ((s.afterIssue c g).cluster c).blocks = (s.cluster c).blocks := by
  simp [State.afterIssue_of_some h]

theorem State.afterIssue_copies : ((s.afterIssue c g).cluster c).copies = (s.cluster c).copies := by
  simp [State.afterIssue_of_some h]

theorem State.afterIssue_arrivals : ((s.afterIssue c g).cluster c).arrivals = (s.cluster c).arrivals := by
  simp [State.afterIssue_of_some h]

end

@[simp] theorem State.afterIssue_mem (s : State) (c g : Nat) : (s.afterIssue c g).mem = s.mem := by simp [State.afterIssue]
@[simp] theorem State.afterIssue_tick (s : State) (c g : Nat) : (s.afterIssue c g).tick = s.tick := by simp [State.afterIssue]
@[simp] theorem State.afterIssue_fabric (s : State) (c g : Nat) : (s.afterIssue c g).fabric = s.fabric := by
  simp [State.afterIssue]
@[simp] theorem State.afterIssue_ports (s : State) (c g : Nat) : (s.afterIssue c g).ports = s.ports := by
  simp [State.afterIssue]

/-! ### Arrival counters (R79, R80) -/

/-- The block with counter `k` one higher. -/
def Block.counted (b : Block) (k : Nat) : Block := { b with counters := mput b.counters k (mget 0 b.counters k + 1) }

/-- A counter below its limit rises by 1, and nothing else changes. -/
theorem State.raise_below {s : State} {c blk k : Nat} {b : Block} (hb : mfind (s.cluster c).blocks blk = some b)
    (hk : mget 0 b.counters k < 65535) (g t addr : Nat) :
    s.raise c g t blk k addr = s.modCluster c (fun x => { x with blocks := mput x.blocks blk (b.counted k) }) := by
  simp only [State.raise, hb, if_neg (Nat.not_le.mpr hk)]
  rfl

/-- ARRIVEs that all wait go on waiting. -/
theorem State.raiseDue_waiting {s : State} {c : Nat} (h : ∀ a ∈ (s.cluster c).arrivals, s.outstanding c a.slot a.upto = true) :
    s.raiseDue c = s.setCluster c (s.cluster c) := by
  have stay : (s.cluster c).arrivals.filter (fun a => s.outstanding c a.slot a.upto) = (s.cluster c).arrivals :=
    List.filter_eq_self.mpr h
  have due : (s.cluster c).arrivals.filter (fun a => !s.outstanding c a.slot a.upto) = [] := by
    rw [List.filter_eq_nil_iff]
    intro a ha
    simp [h a ha]
  simp only [State.raiseDue, due, State.modCluster, stay]
  rfl

/-- The one ARRIVE that waits is performed once its group's earlier accesses are. -/
theorem State.raiseDue_one {s : State} {c : Nat} {z : Arrive} (hz : (s.cluster c).arrivals = [z])
    (h : s.outstanding c z.slot z.upto = false) :
    s.raiseDue c = (s.modCluster c (fun k => { k with arrivals := [] })).raise c z.slot z.tenant z.block z.counter z.addr := by
  have none_waits : [z].filter (fun a => s.outstanding c a.slot a.upto) = [] := by simp [h]
  have due : [z].filter (fun a => !s.outstanding c a.slot a.upto) = [z] := by simp [h]
  simp only [State.raiseDue, State.modCluster, hz, none_waits, due]
  rfl

theorem State.setCluster_same (s : State) (c d : Nat) : (s.setCluster c (s.cluster c)).cluster d = s.cluster d :=
  State.modCluster_same id (f := id) (fun _ => rfl) s c d

end Sys2Proof.Machine
end

section
/-!
PROOF. EXIT, fences and arrival counters (03 R76, R79, R80; 04 R121 to R123). Settles O4 and O5.
-/
namespace Sys2Proof.Machine

/-! ### EXIT (R76, R121) -/

/-- A cluster without group `g`, which its block no longer counts (R76). -/
theorem State.removeGroup_spec {s : State} {c g : Nat} {x : Group} (h : s.group c g = some x) :
    (s.removeGroup c g).group c g = none ∧ (∀ j, j ≠ g → (s.removeGroup c g).group c j = s.group c j) ∧
      (∀ b, mfind (s.cluster c).blocks x.block = some b →
        mfind ((s.removeGroup c g).cluster c).blocks x.block = some { b with groups := b.groups - 1 }) ∧
      ∀ d, d ≠ c → (s.removeGroup c g).cluster d = s.cluster d := by
  have slot : mfind (s.cluster c).groups g = some x := h
  refine ⟨by simp [State.removeGroup, State.group], fun j hj => ?_, fun b hb => ?_, fun d hd => State.modCluster_others _ _ hd⟩
  · simp [State.removeGroup, State.group, mfind_merase_ne _ hj]
  · simp [State.removeGroup, slot, hb]

/-- A group that retires leaves its slot, and its requests go on (R76). -/
theorem State.retire_of_some {s : State} {c g : Nat} {x : Group} (h : s.group c g = some x) :
    ∃ f, s.retire c g = (s.removeGroup c g).modFab f := by
  simp only [State.retire, h]
  exact ⟨_, rfl⟩

/-- EXIT issued: the group retires, and the active set closes up (R72, R121). -/
theorem exec_exit {s : State} {c : Fin 512} {g : Fin 64} {w : BitVec 26} {x : Group} (hr : Runs s c g 0x37 w x [])
    (hg : groupOk w = true) (h0 : tw w 20 0 = 0) :
    exec (.exit c g w) s = .next (((s.issued c g).retire c g).afterIssue c g) := by
  have legal : (groupOk w && wOff w == 0) = true := by simp [hg, wOff, h0]
  change Host.Outcome.next (s.issue c g 0x37 w (groupOk w && wOff w == 0) [] _) = _
  rw [legal, hr.issue]

/-- Settles O4: the group is removed from its slot, and what follows an issue changes the active set alone. -/
theorem exitRetires : Obligations.ExitRetires := by
  unfold Obligations.ExitRetires
  intro s c g w x hr hg h0
  have here : (s.issued c g).group c g = some x := by rw [State.issued_group]; exact hr.group
  obtain ⟨left, others, blocks, clusters⟩ := State.removeGroup_spec here
  obtain ⟨f, retired⟩ := State.retire_of_some here
  have after : ((s.issued c g).retire c g).afterIssue c g = (((s.issued c g).removeGroup c g).modFab f).schedule c := by
    rw [retired]
    exact State.afterIssue_of_none left
  refine ⟨_, exec_exit hr hg h0, ?_⟩
  rw [after]
  refine ⟨by simpa using left, ?_, fun j hj => by simpa using others j hj, fun d hd => ?_, fun b hb => ?_,
    by simp, by simp, by simp, by simp⟩
  · rw [State.schedule, State.modCluster_self]
    exact Cluster.schedule_entryOf_none left
  · rw [State.schedule, State.modCluster_others _ _ hd]
    exact (clusters d hd).trans (s.issued_others _ hd)
  · simpa using blocks b (by simpa using hb)

/-! ### Waits that end (R122, R123) -/

/-- A group stored, with what follows of the active set, is all that changes. -/
theorem State.setGroup_schedule_onlyGroup (s : State) (c g : Nat) (y : Group) :
    ((s.setGroup c g y).schedule c).group c g = some y ∧ OnlyGroup s ((s.setGroup c g y).schedule c) c g := by
  refine ⟨by simp, rfl, fun d hd => ?_, ?_, fun j hj => ?_, fun _ _ => rfl, fun _ _ => rfl⟩
  · rw [State.schedule, State.modCluster_others _ _ hd, State.setGroup, State.modCluster_others _ _ hd]
  · simp only [State.schedule, State.setGroup, State.modCluster_self, Cluster.schedule]
  · simp [State.setGroup_other _ _ _ _ _ hj]

section
variable {s : State} {c : Fin 512} {g : Fin 64} {x : Group} (hx : s.group c g = some x)
include hx

theorem exec_fenceRelease {sc : Nat} (hw : x.wait = .fence sc) : exec (.fenceRelease c g) s =
    .next (if x.remote = 0 then (s.setGroup c g { x with wait := .ready }).schedule c else s) := by
  change execFenceRelease c g s = _
  simp [execFenceRelease, hx, hw, Group.performed]

theorem exec_waitaRelease {k v : Nat} (hw : x.wait = .counter k v) : exec (.waitaRelease c g) s =
    .next (if v ≤ s.counter c x.block k then (s.setGroup c g { x with wait := .ready }).schedule c else s) := by
  change execWaitaRelease c g s = _
  simp only [execWaitaRelease, hx, hw]

end

/-! ### FENCE and WAITA (R122, R123) -/

theorem exec_fence {s : State} {c : Fin 512} {g : Fin 64} {w : BitVec 26} {x : Group} (hr : Runs s c g 0x38 w x [])
    (hg : groupOk w = true) (h0 : tw w 20 2 = 0) :
    GroupBecomes s c g { x.next with wait := .fence (tw w 1 0) } (exec (.fence c g w) s) := by
  have legal : (groupOk w && tw w 20 2 == 0) = true := by simp [hg, h0]
  change GroupBecomes s c g _ (.next (s.issueGroup c g 0x38 w (groupOk w && tw w 20 2 == 0) [] _))
  rw [legal]
  exact hr.becomes (fun _ x => { x.next with wait := .fence (tw w 1 0) })

/-- A group past its WAITA, which waits where counter `n` has not reached the value. -/
def Group.waited (x : Group) (w : TWord) (n : Nat) : Group :=
  if x.waitV w ≤ n then x.next else { x.next with wait := .counter (tw w 3 0) (x.waitV w) }

theorem exec_waita {s : State} {c : Fin 512} {g : Fin 64} {w : BitVec 26} {x : Group} (hr : Runs s c g 0x3A w x [])
    (hg : groupOk w = true) (h0 : (bit w.toNat 20 || tw w 19 8 == 0) = true) :
    GroupBecomes s c g (x.waited w (s.counter c x.block (tw w 3 0))) (exec (.waita c g w) s) := by
  have legal : (groupOk w && (bit w.toNat 20 || tw w 19 8 == 0)) = true := by rw [hg, h0]; rfl
  have counter : (s.issued c g).counter c x.block (tw w 3 0) = s.counter c x.block (tw w 3 0) := by simp [State.counter]
  change GroupBecomes s c g _ (.next (s.issueGroup c g 0x3A w (groupOk w && (bit w.toNat 20 || tw w 19 8 == 0)) [] _))
  rw [legal, ← counter]
  exact hr.becomes (fun t x => x.waited w (t.counter c x.block (tw w 3 0)))

/-! ### ARRIVE (R79, R123) -/

/-- The ARRIVE that a group issues now. -/
def State.arriveOf (s : State) (c g : Nat) (x : Group) (w : TWord) : Arrive :=
  ⟨g, x.tenant, x.block, s.fabric.asked, tw w 3 0, s.instrAddr c x⟩

/-- The group goes on past its ARRIVE, which joins those that wait. -/
def State.arrived (s : State) (c g : Nat) (x : Group) (w : TWord) : State :=
  ((s.issued c g).setGroup c g x.next).modCluster c (fun k => { k with arrivals := k.arrivals ++ [s.arriveOf c g x w] })

theorem exec_arrive {s : State} {c : Fin 512} {g : Fin 64} {w : BitVec 26} {x : Group} (hr : Runs s c g 0x39 w x [])
    (hg : groupOk w = true) (h0 : tw w 20 4 = 0) :
    exec (.arrive c g w) s = .next (((s.arrived c g x w).raiseDue c).afterIssue c g) := by
  have legal : (groupOk w && tw w 20 4 == 0) = true := by simp [hg, h0]
  change Host.Outcome.next (s.issue c g 0x39 w (groupOk w && tw w 20 4 == 0) [] _) = _
  rw [legal, hr.issue, State.arrived, State.arriveOf, ← s.issued_instrAddr c g x, ← s.issued_fabric c g]

section
variable (s : State) (c g : Nat) (x : Group) (w : TWord)

theorem State.arrived_outstanding (j upto : Nat) : (s.arrived c g x w).outstanding c j upto = s.outstanding c j upto := by
  simp [State.arrived, State.outstanding]

theorem State.arrived_arrivals :
    ((s.arrived c g x w).cluster c).arrivals = (s.cluster c).arrivals ++ [s.arriveOf c g x w] := by
  simp [State.arrived]

theorem State.arrived_blocks : ((s.arrived c g x w).cluster c).blocks = (s.cluster c).blocks := by
  simp [State.arrived]

theorem State.arrived_groups : (s.arrived c g x w).group c g = some x.next ∧
    ∀ j, j ≠ g → (s.arrived c g x w).group c j = s.group c j := by
  have groups : (s.arrived c g x w).group c = ((s.issued c g).setGroup c g x.next).group c :=
    State.group_of_cluster (by simp [State.arrived])
  rw [groups]
  exact ⟨by simp, fun j hj => by simp [State.setGroup_other _ _ _ _ _ hj]⟩

end

/-- An ARRIVE with an earlier access of its group's outstanding waits behind the others (R79). -/
theorem State.arrived_waits {s : State} {c g : Nat} {x : Group} {w : TWord} (out : s.outstanding c g s.fabric.asked = true)
    (waiting : ∀ a ∈ (s.cluster c).arrivals, s.outstanding c a.slot a.upto = true) :
    (s.arrived c g x w).raiseDue c = (s.arrived c g x w).setCluster c ((s.arrived c g x w).cluster c) := by
  refine State.raiseDue_waiting fun a ha => ?_
  rw [State.arrived_arrivals] at ha
  rw [State.arrived_outstanding]
  obtain ha | ha := List.mem_append.mp ha
  · exact waiting a ha
  · rw [List.mem_singleton.mp ha]
    exact out

/-- An ARRIVE whose group has no access outstanding is performed at once where no other waits (R79). -/
theorem State.arrived_counts {s : State} {c g : Nat} {x : Group} {w : TWord} {b : Block}
    (done : s.outstanding c g s.fabric.asked = false) (none_waits : (s.cluster c).arrivals = [])
    (hb : mfind (s.cluster c).blocks x.block = some b) (hk : mget 0 b.counters (tw w 3 0) < 65535) :
    (s.arrived c g x w).raiseDue c = ((s.arrived c g x w).modCluster c (fun k => { k with arrivals := [] })).modCluster c
      (fun k => { k with blocks := mput k.blocks x.block (b.counted (tw w 3 0)) }) := by
  have one : ((s.arrived c g x w).cluster c).arrivals = [s.arriveOf c g x w] := by rw [State.arrived_arrivals, none_waits]; rfl
  rw [State.raiseDue_one one ((State.arrived_outstanding ..).trans done)]
  exact State.raise_below (by rw [State.modCluster_self]; exact (s.arrived_blocks c g x w).symm ▸ hb) hk _ _ _

/-- Once the ARRIVEs that are due are performed, the group goes on past its own, and no other group changes. -/
theorem State.arrived_afterIssue {s u : State} {c g : Nat} {x : Group} {w : TWord}
    (groups : (u.cluster c).groups = ((s.arrived c g x w).cluster c).groups) :
    (u.afterIssue c g).groupIs c g x.next ∧ (∀ j, j ≠ g → (u.afterIssue c g).group c j = s.group c j) ∧
      ((u.afterIssue c g).cluster c).arrivals = (u.cluster c).arrivals ∧
      ((u.afterIssue c g).cluster c).blocks = (u.cluster c).blocks := by
  have same := State.group_of_cluster groups
  obtain ⟨self, others⟩ := s.arrived_groups c g x w
  rw [← same] at self
  obtain ⟨is, rest⟩ := State.afterIssue_groups self
  exact ⟨is, fun j hj => by rw [rest j hj, same, others j hj], State.afterIssue_arrivals self, State.afterIssue_blocks self⟩

/-- Settles O5: FENCE and WAITA are effects on the group alone, their releases end the wait alone, and an ARRIVE waits with the
others or raises its counter. -/
theorem fencesAndArrivals : Obligations.FencesAndArrivals := by
  unfold Obligations.FencesAndArrivals
  intro s c g w x pc4
  have arrived_mem : (s.arrived c g x w).mem = s.mem := by simp [State.arrived]
  have arrived_tick : (s.arrived c g x w).tick = s.tick := by simp [State.arrived]
  refine ⟨exec_fence, fun sc hx hw hp => ?_, fun sc hx hw hp => ?_, fun hr hg h0 out waiting => ?_,
    fun b hr hg h0 out none_waits hb hk => ?_, fun hr hg h0 => ⟨fun below => ?_, fun reached => ?_⟩,
    fun k v hx hw reached => ?_, fun k v hx hw below => ?_⟩
  · exact ⟨_, by rw [exec_fenceRelease hx hw, if_pos hp], s.setGroup_schedule_onlyGroup c g _⟩
  · rw [exec_fenceRelease hx hw, if_neg hp]
  · have waits := State.arrived_waits (x := x) (w := w) out waiting
    have kept := State.setCluster_same (s.arrived c g x w) c c
    obtain ⟨is, others, arrivals, blocks⟩ := State.arrived_afterIssue (congrArg Cluster.groups kept)
    refine ⟨_, exec_arrive hr hg h0, ?_⟩
    rw [waits]
    refine ⟨is, ?_, ?_, others, by simp [arrived_mem], by simp [arrived_tick]⟩
    · rw [arrivals, kept, State.arrived_arrivals]
      rfl
    · rw [blocks, kept, State.arrived_blocks]
  · have counts := State.arrived_counts (x := x) (w := w) out none_waits hb hk
    obtain ⟨is, others, arrivals, blocks⟩ := State.arrived_afterIssue (s := s) (x := x) (w := w)
      (u := (s.arrived c g x w).raiseDue c) (c := c) (g := g) (by simp [counts])
    have counted : (((s.arrived c g x w).raiseDue c).cluster c).blocks =
        mput (s.cluster c).blocks x.block (b.counted (tw w 3 0)) := by simp [counts, State.arrived_blocks]
    refine ⟨_, exec_arrive hr hg h0, is, ?_, ?_, fun j hj => ?_, others, ?_, ?_⟩
    · rw [arrivals, counts]
      simp
    · rw [blocks, counted, mfind_mput_self]
      rfl
    · rw [blocks, counted, mfind_mput_ne _ _ hj]
    · rw [State.afterIssue_mem, counts]
      exact arrived_mem
    · rw [State.afterIssue_tick, counts]
      exact arrived_tick
  · have waits := exec_waita hr hg h0
    rwa [Group.waited, if_neg (Nat.not_le.mpr (show s.counter c x.block (tw w 3 0) < x.waitV w from below))] at waits
  · have goes := exec_waita hr hg h0
    rwa [Group.waited, if_pos (show x.waitV w ≤ s.counter c x.block (tw w 3 0) from reached)] at goes
  · exact ⟨_, by rw [exec_waitaRelease hx hw, if_pos reached], s.setGroup_schedule_onlyGroup c g _⟩
  · rw [exec_waitaRelease hx hw, if_neg (Nat.not_le.mpr below)]

end Sys2Proof.Machine
end

section
/-!
PROOF. Responses (03 R79; 04 R116; 09 R248, R250): a response frees its home and reaches the lane, group or device that asked.
Settles O34.
-/
namespace Sys2Proof.Machine

/-! ### A response for this device (R248, R252) -/

/-- With nothing waiting on the free plane, serving what the device sent itself moves nothing. -/
theorem Quiet.serveOwn {s : State} (h : Quiet s) : s.serveOwn = s := by
  obtain ⟨send, back, ports⟩ := h
  have rest : s.pump = s := State.pump_rest ⟨send, by simp [back], ports⟩
  simp [State.serveOwn, back, rest]

/-- The device with the home that a response names free again. -/
def State.homeFreed (s : State) (r : Response) : State :=
  s.modFab (fun x => { x with pending := x.pending.filter (fun q => !(q.unit == r.homeUnit && q.entry == r.homeEntry)) })

/-- The request that a response answers. -/
def State.asker (s : State) (r : Response) : Option Pending :=
  s.fabric.pending.find? (fun q => q.unit == r.homeUnit && q.entry == r.homeEntry)

/-- A response whose request goes on reaches the requester, its home free; a discarded request's response only frees it (R89). -/
theorem State.deliver_asker {s : State} {f : RFrame} {p : Pending} (h : s.asker f.resp = some p) :
    s.deliver f = if p.discarded then s.homeFreed f.resp else (s.homeFreed f.resp).useRsp p f.resp f.data := by
  unfold State.asker at h
  simp only [State.deliver, h]
  rfl

/-- The device once it has received a response and freed the home that it names. -/
def State.rspTaken (s : State) (i : Nat) (a : Arrival) (f : RFrame) : State := (s.taken i (clsNo f.cls) a f).homeFreed f.resp

section
variable {s : State} {i : Fin 16} {a : Arrival} {f : RFrame} (hf : ForHere s i (clsNo f.cls) a f.head)
include hf

/-- A response of an enabled tag whose request is outstanding reaches it, unless the request is discarded. -/
theorem ForHere.delivers {p : Pending} (hc : f.cls = .rsp ∨ f.cls = .mgmtRsp)
    (tag : (s.taken i (clsNo f.cls) a f).tagOn f.head.tenant = true) (asks : s.asker f.resp = some p) :
    s.routedIn i a f = (if p.discarded then s.rspTaken i a f else (s.rspTaken i a f).useRsp p f.resp f.data).serveOwn := by
  have step := hf.taken_linkStep f
  have agrees : (s.taken i (clsNo f.cls) a f).island.disagree = false := step.only.island ▸ hf.2.2.2
  have asked : (s.taken i (clsNo f.cls) a f).asker f.resp = some p := by
    rw [State.asker, step.only.fabric]
    exact asks
  rw [hf.routedIn, State.rspTaken]
  generalize s.taken i (clsNo f.cls) a f = t at *
  have consumed : t.consume i f = t.deliver f := by
    obtain hc | hc := hc <;> simp [State.consume, agrees, hc, tag]
  rw [consumed, State.deliver_asker asked]

/-- The home that a response frees is the one its request had when it came. -/
theorem ForHere.rspTaken_eq : s.rspTaken i a f = (s.taken i (clsNo f.cls) a f).modFab (fun x => { x with
    pending := s.fabric.pending.filter (fun q => !(q.unit == f.resp.homeUnit && q.entry == f.resp.homeEntry)) }) := by
  rw [State.rspTaken, State.homeFreed, State.modFab, State.modFab, (hf.taken_linkStep f).only.fabric]

/-- What the device holds once the home of a response is free: the other requests, and all else as before it came. -/
theorem ForHere.rspTaken_spec : (s.rspTaken i a f).fabric.pending =
      s.fabric.pending.filter (fun q => !(q.unit == f.resp.homeUnit && q.entry == f.resp.homeEntry)) ∧
    (s.rspTaken i a f).cluster = s.cluster ∧ (s.rspTaken i a f).mem = s.mem ∧ Quiet (s.rspTaken i a f) := by
  have step := hf.taken_linkStep f
  obtain ⟨⟨-, -, quiet⟩, -⟩ := id hf
  obtain ⟨send, back, ports⟩ := quiet.of_linkStep step
  obtain ⟨_, _, _, _, only⟩ := step.only
  refine ⟨by rw [hf.rspTaken_eq, State.modFab_fabric], ?_, ?_, send, back, ports⟩ <;> (rw [State.rspTaken, only]; rfl)

end

section
variable {s : State} {i : Fin 16} {a : Arrival} {h : RHead} {r : Response} {data : List Byte} {p : Pending}
  (asks : s.asker r = some p)
include asks

theorem exec_rsp (hf : ForHere s i 3 a h) (tag : (s.taken i 3 a ⟨.rsp, h, noAccess, r, data⟩).tagOn h.tenant = true) :
    exec (.rsp i a h r data) s = .next (if p.discarded then s.rspTaken i a ⟨.rsp, h, noAccess, r, data⟩
      else (s.rspTaken i a ⟨.rsp, h, noAccess, r, data⟩).useRsp p r data).serveOwn :=
  congrArg Host.Outcome.next (ForHere.delivers (f := ⟨.rsp, h, noAccess, r, data⟩) hf (.inl rfl) tag asks)

theorem exec_mgmtResponse (hf : ForHere s i 4 a h)
    (tag : (s.taken i 4 a ⟨.mgmtRsp, h, noAccess, r, data⟩).tagOn h.tenant = true) :
    exec (.mgmtResponse i a h r data) s = .next (if p.discarded then s.rspTaken i a ⟨.mgmtRsp, h, noAccess, r, data⟩
      else (s.rspTaken i a ⟨.mgmtRsp, h, noAccess, r, data⟩).useRsp p r data).serveOwn :=
  congrArg Host.Outcome.next (ForHere.delivers (f := ⟨.mgmtRsp, h, noAccess, r, data⟩) hf (.inr rfl) tag asks)

end

/-! ### What a response does to the requester (R79, R116, R250) -/

section
variable {s : State} {p : Pending} {r : Response} {data : List Byte} (ok : r.status = 0)
include ok

theorem State.useRsp_lane {c g l reg n : Nat} {sx : Bool} (hu : p.use = .lane c g l reg n sx) : s.useRsp p r data =
    ((s.modGroup c g (fun x => (x.setWords reg l (loadWords n sx (padTo n data))).answered)).raiseDue c).schedule c := by
  simp [State.useRsp, ok, hu]

theorem State.useRsp_atom {c g l reg : Nat} (hu : p.use = .atom c g l reg) : s.useRsp p r data =
    ((s.modGroup c g (fun x => (x.setT reg l (w32 (leAt (padTo 4 data) 0 4))).answered)).raiseDue c).schedule c := by
  simp [State.useRsp, ok, hu]

theorem State.useRsp_store {c g : Nat} (hu : p.use = .store c g) :
    s.useRsp p r data = ((s.modGroup c g Group.answered).raiseDue c).schedule c := by
  simp [State.useRsp, ok, hu]

theorem State.useRsp_gone {c g b : Nat} {w : Bool} (hu : p.use = .gone c g b w) : s.useRsp p r data = s.raiseDue c := by
  simp [State.useRsp, ok, hu]

theorem State.useRsp_mgmt {c : Nat} (hu : p.use = .mgmt c) :
    s.useRsp p r data = s.modFab (fun f => { f with mgmtOut := mput f.mgmtOut c (mget 0 f.mgmtOut c - 1) }) := by
  simp [State.useRsp, ok, hu]

end

/-- A group that its response changes, where no ARRIVE waits: no other group changes, nor memory, nor the free plane. -/
theorem State.answer_spec {s : State} {c g : Nat} {x : Group} (hx : s.group c g = some x) (none_waits : (s.cluster c).arrivals = [])
    (f : Group → Group) :
    let t := ((s.modGroup c g f).raiseDue c).schedule c
    t.group c g = some (f x) ∧ (∀ j, j ≠ g → t.group c j = s.group c j) ∧ t.mem = s.mem ∧ t.fabric = s.fabric ∧ t.ports = s.ports := by
  intro t
  have stored := State.modGroup_of_some hx f
  have due : (s.setGroup c g (f x)).raiseDue c = (s.setGroup c g (f x)).setCluster c ((s.setGroup c g (f x)).cluster c) :=
    State.raiseDue_waiting (by simp [none_waits])
  have group : t.group c = (s.setGroup c g (f x)).group c := by
    simp only [t, stored, due, State.schedule_group]
    exact State.group_of_cluster (congrArg _ (State.setCluster_same ..))
  refine ⟨by simp [group], fun j hj => by rw [group, State.setGroup_other _ _ _ _ _ hj], ?_, ?_, ?_⟩ <;> simp [t, stored, due]

/-- With no request waiting to be sent, an access is outstanding where a request that has no response is an earlier one. -/
theorem State.outstanding_iff {s : State} (send : s.fabric.sendq = []) (c g upto : Nat) : s.outstanding c g upto = true ↔
    ∃ q ∈ s.fabric.pending, q.discarded = false ∧ q.use.slot = some (c, g) ∧ q.order < upto := by
  simp [State.outstanding, send, and_assoc]

/-! ### The obligation -/

/-- Settles O34: a response whose request goes on frees the home and reaches the requester; a group then takes its answer, and an
ARRIVE with no earlier access left raises its counter. -/
theorem responseDelivery : Obligations.ResponseDelivery := by
  unfold Obligations.ResponseDelivery
  intro s i a h r data p c g l reg n b sx w x z k v u home rest becomes
  let freed := s.rspTaken i a ⟨.rsp, h, noAccess, r, data⟩
  refine ⟨fun hf tag hp live ok => ?_, fun hf tag hp dead => ?_, fun hf tag hp live hu ok => ?_⟩
  · have runs : exec (.rsp i a h r data) s = .next (freed.useRsp p r data).serveOwn := by
      rw [exec_rsp hp hf tag, live]
      rfl
    obtain ⟨pending, cluster, mem, quiet⟩ : freed.fabric.pending = rest ∧ freed.cluster = s.cluster ∧ freed.mem = s.mem ∧ Quiet freed :=
      ForHere.rspTaken_spec (f := ⟨.rsp, h, noAccess, r, data⟩) hf
    have group : freed.group = s.group := by funext d; exact State.group_of_cluster (by rw [cluster])
    refine ⟨fun hx none_waits => ?_, fun hu one slot done hb hk => ?_, fun hu waiting => ?_⟩
    · have answers (f : Group → Group) (hd : freed.useRsp p r data = ((freed.modGroup c g f).raiseDue c).schedule c) :
          Gives (.rsp i a h r data) s (fun t => t.group c g = some (f x) ∧ t.fabric.pending = rest ∧
            (∀ j, j ≠ g → t.group c j = s.group c j) ∧ t.mem = s.mem) := by
        obtain ⟨self, others, mem', fabric, ports⟩ := State.answer_spec (s := freed) (by rw [group]; exact hx)
          (by rw [cluster]; exact none_waits) f
        refine ⟨_, runs, ?_⟩
        rw [hd, (quiet.of_same fabric ports).serveOwn]
        exact ⟨self, by rw [fabric, pending], fun j hj => by rw [others j hj, group], mem'.trans mem⟩
      exact ⟨fun hu => answers _ (State.useRsp_lane ok hu), fun hu => answers _ (State.useRsp_atom ok hu),
        fun hu => answers _ (State.useRsp_store ok hu)⟩
    · have performed : freed.outstanding c z.slot z.upto = false := by
        rw [Bool.eq_false_iff, ne_eq, State.outstanding_iff quiet.1, pending]
        rintro ⟨q, hq, -, e, -⟩
        exact done q hq (slot ▸ e)
      have raised := State.raiseDue_one (s := freed) (c := c) (by rw [cluster]; exact one) performed
      rw [State.raise_below (by simpa [cluster] using hb) hk] at raised
      refine ⟨_, runs, ?_⟩
      rw [State.useRsp_gone ok hu, raised, Quiet.serveOwn (quiet.of_same (by simp) (by simp))]
      refine ⟨by simpa using pending, by simp, by simp [cluster], by simpa using mem, ?_⟩
      rw [State.modCluster_self, mfind_mput_self]
      rfl
    · have wait : freed.raiseDue c = freed.setCluster c (freed.cluster c) := by
        refine State.raiseDue_waiting fun j hj => ?_
        rw [State.outstanding_iff quiet.1, pending]
        exact waiting j (by rwa [cluster] at hj)
      refine ⟨_, runs, ?_⟩
      rw [State.useRsp_gone ok hu, wait, Quiet.serveOwn (quiet.of_same (by simp) (by simp))]
      exact ⟨by simpa using pending, by rw [State.setCluster_same, cluster], by simpa using mem⟩
  · obtain ⟨-, -, -, quiet⟩ := ForHere.rspTaken_spec (f := ⟨.rsp, h, noAccess, r, data⟩) hf
    rw [exec_rsp hp hf tag, if_pos dead, quiet.serveOwn, ForHere.rspTaken_eq (f := ⟨.rsp, h, noAccess, r, data⟩) hf]
    rfl
  · obtain ⟨-, -, -, quiet⟩ := ForHere.rspTaken_spec (f := ⟨.mgmtRsp, h, noAccess, r, data⟩) hf
    rw [exec_mgmtResponse hp hf tag, live, if_neg (by decide), State.useRsp_mgmt ok hu]
    refine congrArg Host.Outcome.next (Eq.trans (Quiet.serveOwn quiet) ?_)
    rw [ForHere.rspTaken_eq (f := ⟨.mgmtRsp, h, noAccess, r, data⟩) hf]
    rfl

end Sys2Proof.Machine
end

section
/-!
PROOF. Asynchronous copies of thread groups (03 R78, R79; 04 R124, R125). Settles O13.
-/
namespace Sys2Proof.Machine

/-! ### Reads and writes of memory, and what they leave -/

/-- The free plane, its ports and every cluster but for its scrubber are as before. -/
structure ScrubOnly (s t : State) : Prop where
  clusters : ∀ d, ∃ x, t.cluster d = { s.cluster d with scrub := x }
  fabric : t.fabric = s.fabric
  ports : t.ports = s.ports

theorem ScrubOnly.of_clusters {s t : State} (hc : t.clusters = s.clusters) (hf : t.fabric = s.fabric) (hp : t.ports = s.ports) :
    ScrubOnly s t :=
  ⟨fun d => ⟨(s.cluster d).scrub, by rw [State.cluster_of_clusters hc]⟩, hf, hp⟩

theorem ScrubOnly.refl (s : State) : ScrubOnly s s := .of_clusters rfl rfl rfl

theorem ScrubOnly.trans {s t u : State} (h : ScrubOnly s t) (h' : ScrubOnly t u) : ScrubOnly s u := by
  refine ⟨fun d => ?_, h'.fabric.trans h.fabric, h'.ports.trans h.ports⟩
  obtain ⟨x, hx⟩ := h.clusters d
  obtain ⟨y, hy⟩ := h'.clusters d
  exact ⟨y, by rw [hy, hx]⟩

theorem ScrubOnly.each {α : Type} {l : List α} {f : State → α → State} (h : ∀ s a, ScrubOnly s (f s a)) (s : State) :
    ScrubOnly s (s.each l f) := by
  induction l generalizing s with
  | nil => exact .refl s
  | cons a l ih => exact (h s a).trans (ih _)

/-- Any part of a cluster but its scrubber is as before. -/
theorem ScrubOnly.same {s t : State} (h : ScrubOnly s t) {β : Type} (π : Cluster → β)
    (hπ : ∀ (k : Cluster) x, π { k with scrub := x } = π k) (d : Nat) : π (t.cluster d) = π (s.cluster d) := by
  obtain ⟨x, e⟩ := h.clusters d
  rw [e, hπ]

theorem State.cnt_scrubOnly (s : State) (r : Reg) (i n bank idx : Nat) : ScrubOnly s (s.cnt r i n bank idx) :=
  .of_clusters (by simp) (by simp) (by simp)

theorem State.draw_scrubOnly (s : State) : ScrubOnly s s.draw := .of_clusters rfl rfl rfl

theorem State.modCluster_scrubOnly (s : State) (c : Nat) (f : Scrub → Scrub) :
    ScrubOnly s (s.modCluster c (fun k => { k with scrub := f k.scrub })) := by
  refine ⟨fun d => ?_, rfl, rfl⟩
  by_cases e : d = c
  · exact ⟨f (s.cluster c).scrub, by rw [e, State.modCluster_self]⟩
  · exact ⟨(s.cluster d).scrub, by rw [State.modCluster_others _ _ e]⟩

theorem State.modScrub_scrubOnly (s : State) (k : Nat) (f : Scrub → Scrub) : ScrubOnly s (s.modScrub k f) := by
  unfold State.modScrub
  split
  · exact State.modCluster_scrubOnly ..
  · exact .of_clusters rfl rfl rfl

theorem State.touchEntryWord_scrubOnly (s : State) (c i w src tenant : Nat) : ScrubOnly s (s.touchEntryWord c i w src tenant) := by
  unfold State.touchEntryWord
  split
  · exact .refl s
  · refine ScrubOnly.trans ?_ (State.modCluster_scrubOnly _ c (fun x => { x with errors := x.errors + 1 }))
    exact (State.cnt_scrubOnly s R.spdCeCnt c 1 0 0).trans (.of_clusters rfl rfl rfl)
  · exact .of_clusters (by simp) (by simp) (by simp)

theorem State.touchEntry_scrubOnly (s : State) (c i src tenant : Nat) : ScrubOnly s (s.touchEntry c i src tenant) :=
  (State.touchEntryWord_scrubOnly ..).trans (State.touchEntryWord_scrubOnly ..)

@[simp] theorem State.touchEntryWord_mem (s : State) (c i w src tenant : Nat) : (s.touchEntryWord c i w src tenant).mem = s.mem := by
  unfold State.touchEntryWord
  split <;> simp

@[simp] theorem State.touchEntry_mem (s : State) (c i src tenant : Nat) : (s.touchEntry c i src tenant).mem = s.mem := by
  simp [State.touchEntry]

theorem State.corrected_scrubOnly (s : State) (a : Nat) : ScrubOnly s (s.corrected a) := by
  unfold State.corrected
  extract_lets h i s1
  have counted : ScrubOnly s s1 := (State.cnt_scrubOnly s h.1 i 1 0 0).trans (.of_clusters rfl rfl rfl)
  exact counted.trans (State.modScrub_scrubOnly ..)

theorem State.uncorrectable_scrubOnly (s : State) (a src tenant : Nat) (fails : Bool) :
    ScrubOnly s (s.uncorrectable a src tenant fails) := by
  unfold State.uncorrectable
  dsimp only
  split <;> exact .of_clusters (by simp) (by simp) (by simp)

theorem State.wbCancel_scrubOnly (s : State) (a : Nat) : ScrubOnly s (s.wbCancel a) := by
  unfold State.wbCancel
  extract_lets c p b v s1
  split
  · refine (State.modScrub_scrubOnly s c (fun x => { x with row := none })).trans ?_
    split
    · exact State.cnt_scrubOnly ..
    · exact .refl _
  · exact .refl s

theorem State.wordWritten_scrubOnly (s : State) (a : Nat) (full : Bool) (src tenant : Nat) :
    ScrubOnly s (s.wordWritten a full src tenant) := by
  refine (State.wbCancel_scrubOnly s a).trans ?_
  unfold State.wordWritten
  dsimp only
  split
  · exact .of_clusters rfl rfl rfl
  · split
    · exact .refl _
    · exact (State.corrected_scrubOnly ..).trans (.of_clusters rfl rfl rfl)
    · exact State.uncorrectable_scrubOnly ..

theorem State.storeAt_scrubOnly (s : State) (l : List (Nat × Byte)) : ScrubOnly s (s.storeAt l) := by
  induction l generalizing s with
  | nil => exact .refl s
  | cons p l ih =>
    obtain ⟨a, b⟩ := p
    refine ScrubOnly.trans ?_ (ih { s.setByte a b with written := addOnce s.written a })
    exact .of_clusters rfl rfl rfl

/-- A write of bytes leaves all of a cluster but its scrubber. -/
theorem State.writeBytes_scrubOnly (s : State) (g src tenant : Nat) (as : List Nat) (data : List Byte) :
    ScrubOnly s (s.writeBytes g src tenant as data) :=
  ((ScrubOnly.each (fun t a => State.wordWritten_scrubOnly t a _ src tenant) s).trans (State.storeAt_scrubOnly ..)).trans
    (State.draw_scrubOnly _)

@[simp] theorem State.modScrub_mem (s : State) (k : Nat) (f : Scrub → Scrub) : (s.modScrub k f).mem = s.mem := by
  unfold State.modScrub
  split <;> rfl

@[simp] theorem State.wbCancel_mem (s : State) (a : Nat) : (s.wbCancel a).mem = s.mem := by
  unfold State.wbCancel
  extract_lets c p b v s1
  have kept : s1.mem = s.mem := s.modScrub_mem ..
  split
  · split
    · rw [State.cnt_mem, kept]
    · exact kept
  · rfl

theorem State.wordWritten_mem (s : State) (a : Nat) (full : Bool) (src tenant : Nat) :
    (s.wordWritten a full src tenant).mem = s.mem := by
  unfold State.wordWritten
  dsimp only
  split
  · simp
  · split
    · simp
    · simp [State.corrected]
    · simp [State.uncorrectable]

/-- A write of bytes whose banks all serve it stores them in order. -/
theorem State.writeBytes_mem {s : State} {g : Nat} {as : List Nat} (h : CleanBytes s g as) (src tenant : Nat) (data : List Byte) :
    (s.writeBytes g src tenant as data).mem = storedIn s.mem (as.zip data) := by
  have served : (as.zip data).filter (fun p => !s.lost g p.1) = as.zip data := by
    rw [List.filter_eq_self]
    rintro ⟨a, b⟩ hp
    simp [h.lost (List.of_mem_zip hp).1]
  simp only [State.writeBytes, served, State.draw_mem, State.storeAt_mem]
  rw [State.each_keeps State.mem (fun t a => State.wordWritten_mem ..)]

/-! ### CPY (R124, R125) -/

/-- A tenant's handle resolves while its tag is enabled (R24). -/
theorem State.tagOn_of_resolve {s : State} {c i t : Nat} (h : s.resolve c i t ≠ none) : s.tagOn t = true := by
  unfold State.resolve at h
  dsimp only at h
  simp only [State.owned, Bool.and_eq_true] at h
  split at h
  · split at h
    · rename_i owned
      exact owned.2.1.2
    · exact absurd rfl h
  · split at h
    · rename_i owned
      exact owned.1.2
    · exact absurd rfl h

/-- A copy that passes its checks has a source that its tenant owns. -/
theorem State.tagOn_of_copyFault {s : State} {c t : Nat} {d : CopyDesc} (h : s.copyFault c t d = none) : s.tagOn t = true := by
  have source : s.copyStep c t 1 d.src d.srcOff d.len false = true := by
    by_contra fails
    rw [Bool.not_eq_true] at fails
    unfold State.copyFault at h
    split at h
    · cases h
    · simp [List.findSome?, fails] at h
  refine State.tagOn_of_resolve (c := c) (i := d.src) fun unresolved => ?_
  simp [State.copyStep, unresolved] at source

theorem SameHandles.copyFault {s t : State} (h : SameHandles s t) (c k : Nat) (d : CopyDesc) :
    t.copyFault c k d = s.copyFault c k d := by
  obtain ⟨-, -, -, -, -, island⟩ := id h
  simp only [State.copyFault, State.copyStep, island, h.resolve]

/-- The copy that a group's CPY describes now. -/
def State.copyFor (s : State) (c g : Nat) (x : Group) (d : CopyDesc) (n : Nat) : ThreadCopy :=
  ⟨(s.cluster c).copyIds, x.tenant, g, x.block, n, d.src, d.dst, d.srcOff, d.dstOff, d.len, 0, zeros d.len, x.order, s.instrAddr c x⟩

/-- The copy stands in its cluster's queue, its block counts it, and the group goes on. -/
def State.copyQueued (s : State) (c g : Nat) (x : Group) (d : CopyDesc) (n : Nat) : State :=
  (s.modCluster c (fun q => { q with
    copies := q.copies ++ [s.copyFor c g x d n], copyIds := (s.cluster c).copyIds + 1
    blocks := match mfind q.blocks x.block with
      | some b => mput q.blocks x.block { b with copies := b.copies + 1 }
      | none => q.blocks })).setGroup c g { x.next with copies := x.copies + 1 }

/-- A copy with no remote side, or of no bytes, is queued, and asks nothing of the free plane. -/
theorem State.startCopy_local {s : State} {c g : Nat} {x : Group} {d : CopyDesc} {n : Nat}
    (h : d.len = 0 ∨ (hType (s.entry c d.src) ≠ 4 ∧ hType (s.entry c d.dst) ≠ 4)) :
    ScrubOnly (s.copyQueued c g x d n) (s.startCopy c g x d n) ∧ (s.startCopy c g x d n).mem = s.mem := by
  have queued : (s.copyQueued c g x d n).mem = s.mem := by simp [State.copyQueued]
  by_cases empty : d.len = 0
  · have touched : s.startCopy c g x d n =
        ((s.copyQueued c g x d n).touchEntry c d.src 10 x.tenant).touchEntry c d.dst 10 x.tenant := if_pos (by simp [empty])
    rw [touched]
    exact ⟨(State.touchEntry_scrubOnly ..).trans (State.touchEntry_scrubOnly ..), by simp [queued]⟩
  · obtain ⟨src, dst⟩ := h.resolve_left empty
    have same : s.startCopy c g x d n = s.copyQueued c g x d n :=
      (if_neg (by simp [empty, src, dst])).trans ((if_neg src).trans (if_neg dst))
    rw [same]
    exact ⟨.refl _, queued⟩

theorem State.copyQueued_spec {s : State} {c g : Nat} {x : Group} {d : CopyDesc} {n : Nat} {b : Block}
    (hb : mfind (s.cluster c).blocks x.block = some b) :
    (s.copyQueued c g x d n).group c g = some { x.next with copies := x.copies + 1 } ∧
      ((s.copyQueued c g x d n).cluster c).copies = (s.cluster c).copies ++ [s.copyFor c g x d n] ∧
      mfind ((s.copyQueued c g x d n).cluster c).blocks x.block = some { b with copies := b.copies + 1 } := by
  simp [State.copyQueued, hb]

/-- CPY issued, where its checks pass (R24, R124, R125). -/
theorem exec_cpy {s : State} {c : Fin 512} {g : Fin 64} {w : BitVec 26} {x : Group} (hr : Runs s c g 0x3B w x [])
    (hg : groupOk w = true) (h0 : tw w 20 6 = 0) (few : x.copies < 32)
    (passes : s.copyFault c x.tenant (x.copyDesc (tw w 5 4)) = none) :
    exec (.cpy c g w) s =
      .next (((s.issued c g).startCopy c g x (x.copyDesc (tw w 5 4)) (tw w 3 0)).afterIssue c g).pump := by
  have legal : (groupOk w && tw w 20 6 == 0) = true := by simp [hg, h0]
  have handles := SameHandles.issued s c g
  have passes' := (handles.copyFault c x.tenant (x.copyDesc (tw w 5 4))).trans passes
  have enabled : (s.issued c g).tagOn x.tenant = true := (handles.tagOn _).trans (State.tagOn_of_copyFault passes)
  change execCpy c g w s = _
  unfold execCpy
  rw [hr.group, legal, hr.issue]
  simp [Nat.not_le.mpr few, enabled, passes']

/-! ### COPY_COMPLETE (R79, R125) -/

/-- A local source that is read without error: its bytes, and one free draw. -/
theorem State.copySource_clean {s : State} {c t : Nat} {k : ThreadCopy} {r : Resolved} (hr : s.resolve c k.src t = some r)
    (good : r.bad = false) (clean : CleanEntry s r.cluster r.index)
    (reads : ReadsMemory s 2 (hKind r.entry == 0) (localAddrs r k.srcOff k.len false)) :
    s.copySource c t k = (s.draw, (localAddrs r k.srcOff k.len false).map s.byte) := by
  simp [State.copySource, hr, clean.touch, good, reads.1.afterRead, reads.bytes]

/-- A local destination whose entry is read without error takes the bytes. -/
theorem State.copyDest_clean {s : State} {c t : Nat} {k : ThreadCopy} {r : Resolved} (hr : s.resolve c k.dst t = some r)
    (good : r.bad = false) (clean : CleanEntry s r.cluster r.index) (data : List Byte) :
    s.copyDest c t k data = s.writeBytes 2 10 t (localAddrs r k.dstOff k.len true) data := by
  simp [State.copyDest, hr, clean.touch, good]

/-- A copy whose requests are all answered, between local sides, writes its destination; then it ends and its counter rises. -/
theorem exec_copyComplete {s : State} {c : Fin 512} {id : Nat} {k : ThreadCopy} (hk : (s.cluster c).copyOf id = some k)
    (pieces : k.pieces = 0) (some_bytes : k.len ≠ 0) (src : hType (s.entry c k.src) ≠ 4) (dst : hType (s.entry c k.dst) ≠ 4) :
    let d := s.copySource c k.tenant k
    exec (.copyComplete c id) s = .next ((((d.1.copyDest c k.tenant k d.2).endCopy c k).raise c k.slot k.tenant k.block k.counter
      k.addr).schedule c) := by
  intro d
  change execCopyComplete c id s = _
  unfold execCopyComplete
  rw [hk]
  simp only [pieces, some_bytes, src, dst, ne_eq, not_true_eq_false, or_self, if_false]
  rfl

/-- A copy that ends leaves its cluster's queue, and its block counts one fewer. -/
theorem State.endCopy_spec {s : State} {c : Nat} {k : ThreadCopy} {b : Block} (hb : mfind (s.cluster c).blocks k.block = some b) :
    ((s.endCopy c k).cluster c).copies = (s.cluster c).copies.filter (fun y => y.id != k.id) ∧
      mfind ((s.endCopy c k).cluster c).blocks k.block = some { b with copies := b.copies - 1 } := by
  simp [State.endCopy, hb]

/-! ### The obligation -/

/-- Settles O13: a copy between local sides is queued with its block and group counting it, and as it completes its bytes are
written, it leaves the queue, and its counter rises. -/
theorem threadCopies : Obligations.ThreadCopies := by
  unfold Obligations.ThreadCopies
  intro s c
  constructor
  · intro g w x b d k hr rest hg h0 few passes hb sides
    let u := s.issued c g
    have handles := SameHandles.issued s c g
    have sides' : d.len = 0 ∨ (hType (u.entry c d.src) ≠ 4 ∧ hType (u.entry c d.dst) ≠ 4) := by
      simpa only [u, handles.entry] using sides
    have copy : u.copyFor c g x d (tw w 3 0) = k := by simp [u, State.copyFor, k, State.issued_instrAddr]
    obtain ⟨starts, mem⟩ := State.startCopy_local (g := g) (x := x) (n := tw w 3 0) sides'
    obtain ⟨group, copies, blocks⟩ := State.copyQueued_spec (s := u) (c := c) (g := g) (d := d) (n := tw w 3 0)
      (by simpa [u] using hb)
    have started : (u.startCopy c g x d (tw w 3 0)).group c g = some { x.next with copies := x.copies + 1 } := by
      rw [State.group_of_cluster (starts.same Cluster.groups (fun _ _ => rfl) c)]
      exact group
    have stays : ((u.startCopy c g x d (tw w 3 0)).afterIssue c g).pump = (u.startCopy c g x d (tw w 3 0)).afterIssue c g := by
      refine State.pump_rest (rest.of_same ?_ ?_)
      · simp [starts.fabric, u, State.copyQueued]
      · simp [starts.ports, u, State.copyQueued]
    refine ⟨_, exec_cpy hr hg h0 few passes, ?_⟩
    rw [stays]
    refine ⟨?_, (State.afterIssue_groups started).1, ?_, ?_⟩
    · rw [State.afterIssue_copies started, starts.same Cluster.copies (fun _ _ => rfl), copies, copy]
      simp [u]
    · rw [State.afterIssue_blocks started, starts.same Cluster.blocks (fun _ _ => rfl), blocks]
    · simp [mem, u]
  · intro id k rs rd b hk pieces some_bytes hrs hrd src dst good_s good_d clean_s clean_d reads writes hb below
    have source := State.copySource_clean hrs good_s clean_s reads
    have dest := State.copyDest_clean (s := s.draw) (k := k) hrd good_d clean_d ((localAddrs rs k.srcOff k.len false).map s.byte)
    let u := s.draw.writeBytes 2 10 k.tenant (localAddrs rd k.dstOff k.len true) ((localAddrs rs k.srcOff k.len false).map s.byte)
    have written : ScrubOnly s u := s.draw_scrubOnly.trans (State.writeBytes_scrubOnly ..)
    have hb' : mfind (u.cluster c).blocks k.block = some b := by rw [written.same Cluster.blocks (fun _ _ => rfl)]; exact hb
    obtain ⟨copies, blocks⟩ := State.endCopy_spec hb'
    refine ⟨_, exec_copyComplete hk pieces some_bytes src dst, ?_⟩
    rw [source, dest, State.raise_below blocks below]
    refine ⟨?_, ?_, ?_⟩
    · have stored : u.mem = _ := State.writeBytes_mem (s := s.draw) (writes.of rfl (fun _ => rfl)) 10 k.tenant _
      simpa [State.endCopy] using stored
    · simpa [written.same Cluster.copies (fun _ _ => rfl)] using copies
    · simp [Block.counted]

end Sys2Proof.Machine
end

section
/-!
PROOF. Debugging a group, and the handle table's commands (03 R91, R92; 07 R192, R199). Settles O18.
-/
namespace Sys2Proof.Machine

/-! ### Writes of the clusters' registers -/

/-- A register above the header that a path may write is reached. -/
theorem Writes.reaches {s : State} {p : Path} {r : Reg} {i : Nat} {d : RegDef} (h : Writes s p r i) (h40 : 0x40 ≤ r.off)
    (hd : regAt r.page r.off = some d) : Reaches r i 0 d := by
  obtain ⟨-, bar, at_, window, within, aligned⟩ := h
  exact ⟨bar, within, h40, aligned, window, at_, hd⟩

/-- The definition of a write-only register at offset `off`. -/
def woDef (off : Nat) : RegDef := ⟨off, 1, 4, .wo, 0x0, 0x0, 0x0, 0x0, .none, false⟩

/-- The definition of TGP.DBG_REG_DATA. -/
def dbgRegDataDef : RegDef := ⟨0x074, 1, 4, .rw, 0x0, 0xFFFFFFFF, 0xFFFFFFFF, 0x0, .none, false⟩

section
variable {s : State} {p : Path} {c v : Nat}

/-- The debug registers are PF0's alone: another path's write is refused (R91). -/
theorem State.put_debug_refused {r : Reg} {d : RegDef} (hw : Writes s p r c) (hr : Reaches r c 0 d) (tgp : r.page = .tgp)
    (debug : 0x60 ≤ r.off) (not_pf : p ≠ .pf) (not_debug : p ≠ .debug) :
    s.put p r v c = s.refuses p .tgp c r.off 0x11 := by
  have off := regAddr_off hr
  simp only [Nat.mul_zero, Nat.add_zero] at off
  rw [State.put_refused (u := s) (pg := pageNo r.page c) (x := s.writeViol p (regAddr r c 0) 0x11) (b := false) hr hw.1
    (by simp [State.writeReg, tgp, off, debug, not_pf, not_debug, State.refuseWrite])]
  simp [State.refuses, State.refusesAt, pageAddr, regAddr, tgp]

theorem State.put_dbgCmd (hw : Writes s p R.tgpDbgCmd c) (pf : p = .pf ∨ p = .debug) :
    s.put p R.tgpDbgCmd v c = s.dbgCmd c (w32 v).toNat := by
  have hr := hw.reaches (d := woDef 0x64) (by decide) (by decide)
  have off : regAddr R.tgpDbgCmd c 0 % 4096 = 0x64 := regAddr_off hr
  refine State.put_ok hr hw.1 ?_
  change s.writeReg p .tgp c (regAddr R.tgpDbgCmd c 0) _ _ = _
  generalize regAddr R.tgpDbgCmd c 0 = addr at off
  obtain rfl | rfl := pf <;> simp [State.writeReg, off, woDef, State.writeWo, Effect.wrote]

theorem State.put_dbgRegData (hw : Writes s p R.tgpDbgRegData c) (pf : p = .pf ∨ p = .debug)
    (unlocked : s.locked (pageNo .tgp c) = false) (x : Word) :
    s.put p R.tgpDbgRegData x.toNat c = s.dbgWrite c x := by
  have hr := hw.reaches (d := dbgRegDataDef) (by decide) (by decide)
  have off : regAddr R.tgpDbgRegData c 0 % 4096 = 0x74 := regAddr_off hr
  refine State.put_ok hr hw.1 ?_
  change s.writeReg p .tgp c (regAddr R.tgpDbgRegData c 0) _ _ = _
  generalize regAddr R.tgpDbgRegData c 0 = addr at off
  obtain rfl | rfl := pf <;> simp [State.writeReg, off, dbgRegDataDef, unlocked, State.writeRw, Effect.wrote, w32]

end

/-! ### Debug commands (R91, R92) -/

/-- Of the groups only `g` of cluster `c` has changed, and of the tick what has been seen of halts. -/
def Debugged (s : State) (c g : Nat) (y : Option Group) (t : State) : Prop :=
  t.group c g = y ∧ (∀ h, h ≠ g → t.group c h = s.group c h) ∧ (∀ d, d ≠ c → t.cluster d = s.cluster d) ∧ t.mem = s.mem ∧
    t.tick = { s.tick with haltSeen := t.tick.haltSeen }

theorem Debugged.haltNote {s t : State} {c g : Nat} {y : Option Group} (h : Debugged s c g y t) (old : State) :
    Debugged s c g y (t.haltNote old) := by
  obtain ⟨tick, clusters, mem⟩ := t.haltNote_spec old
  have cluster := State.cluster_of_clusters clusters
  have group : (t.haltNote old).group c = t.group c := State.group_of_cluster (by rw [cluster])
  obtain ⟨self, others, elsewhere, bytes, ticks⟩ := h
  refine ⟨by rw [group, self], fun j hj => by rw [group, others j hj], fun d hd => by rw [cluster, elsewhere d hd],
    mem.trans bytes, ?_⟩
  rw [tick, ticks]

/-- A group changed where there is one. -/
theorem State.modGroup_debugged (s : State) (c g : Nat) (f : Group → Group) :
    Debugged s c g ((s.group c g).map f) (s.modGroup c g f) := by
  cases hx : s.group c g with
  | none =>
    rw [State.modGroup_of_none hx]
    exact ⟨hx, fun _ _ => rfl, fun _ _ => rfl, rfl, rfl⟩
  | some x =>
    rw [State.modGroup_of_some hx]
    exact ⟨by simp, fun j hj => State.setGroup_other _ _ _ _ _ hj, fun d hd => State.modCluster_others _ _ hd, rfl, rfl⟩

theorem Debugged.schedule {s t : State} {c g : Nat} {y : Option Group} (h : Debugged s c g y t) : Debugged s c g y (t.schedule c) := by
  obtain ⟨self, others, elsewhere, rest⟩ := h
  refine ⟨by simpa using self, by simpa using others, fun d hd => ?_, rest⟩
  rw [State.schedule, State.modCluster_others _ _ hd, elsewhere d hd]

theorem State.setBusy_group (s : State) (c : Nat) (b : Bool) : (s.setBusy c b).group c = s.group c := by
  refine State.group_of_cluster ?_
  rw [State.setBusy, State.modCluster_self]

/-- DBG_STS.busy is no part of what a debug command changes. -/
theorem Debugged.of_setBusy {s t : State} {c g : Nat} {b : Bool} {y : Option Group} (h : Debugged (s.setBusy c b) c g y t) :
    Debugged s c g y t := by
  obtain ⟨self, others, elsewhere, rest⟩ := h
  refine ⟨self, fun j hj => by rw [others j hj, State.setBusy_group], fun d hd => ?_, rest⟩
  rw [elsewhere d hd, State.setBusy, State.modCluster_others _ _ hd]

/-- A debug command's effect on the selected group. -/
def State.dbgEffect (s : State) (c : Nat) (f : Group → Group) : State :=
  (((s.setBusy c false).modGroup c (s.dbgSlot c) f).schedule c).haltNote s

theorem State.dbgEffect_debugged (s : State) (c : Nat) (f : Group → Group) :
    Debugged s c (s.dbgSlot c) ((s.group c (s.dbgSlot c)).map f) (s.dbgEffect c f) := by
  have changed := (s.setBusy c false).modGroup_debugged c (s.dbgSlot c) f
  rw [State.setBusy_group] at changed
  exact changed.of_setBusy.schedule.haltNote s

/-- A halt or a step that another group's halt holds off: busy is all that shows of it (R91). -/
def State.dbgHeldOff (s : State) (c : Nat) : State := ((s.setBusy c true).schedule c).haltNote s

theorem State.dbgHeldOff_spec (s : State) (c : Nat) :
    (s.dbgHeldOff c).group c = s.group c ∧ ((s.dbgHeldOff c).cluster c).dbgBusy = true := by
  obtain ⟨-, clusters, -⟩ := ((s.setBusy c true).schedule c).haltNote_spec s
  have cluster := State.cluster_of_clusters clusters
  refine ⟨?_, ?_⟩
  · rw [← State.setBusy_group s c true, ← State.schedule_group (s.setBusy c true) c c]
    exact State.group_of_cluster (by rw [State.dbgHeldOff, cluster])
  · rw [State.dbgHeldOff, cluster, State.schedule_same _ c c Cluster.dbgBusy (fun _ _ => rfl), State.setBusy, State.modCluster_self]

section
variable (s : State) (c : Nat)

theorem State.dbgCmd_halt : s.dbgCmd c (w32 1).toNat =
    if s.otherHalted c (s.dbgSlot c) then s.dbgHeldOff c else s.dbgEffect c Group.dbgHalt := by
  simp only [State.dbgCmd, show bit (w32 1).toNat 0 = true by decide, Bool.true_or, if_true]
  split <;> rfl

theorem State.dbgCmd_step : s.dbgCmd c (w32 2).toNat =
    if s.otherHalted c (s.dbgSlot c) then s.dbgHeldOff c else s.dbgEffect c Group.dbgStep := by
  simp only [State.dbgCmd, show bit (w32 2).toNat 0 = false by decide, show bit (w32 2).toNat 1 = true by decide, Bool.or_true,
    if_true, Bool.false_eq_true, if_false]
  split <;> rfl

theorem State.dbgCmd_resume : s.dbgCmd c (w32 4).toNat = s.dbgEffect c Group.dbgResume := by
  simp only [State.dbgCmd, show bit (w32 4).toNat 0 = false by decide, show bit (w32 4).toNat 1 = false by decide,
    show bit (w32 4).toNat 2 = true by decide, Bool.or_self, if_true, Bool.false_eq_true, if_false]
  rfl

end

section
variable {s : State} {p : Path} {c : Fin 512} (hw : Writes s p R.tgpDbgCmd c) (pf : p = .pf ∨ p = .debug)
include hw pf

theorem exec_debugResume : Gives (.debugResume p c) s
    (Debugged s c (s.dbgSlot c) ((s.group c (s.dbgSlot c)).map Group.dbgResume)) :=
  ⟨_, congrArg Host.Outcome.next ((State.put_dbgCmd hw pf).trans (s.dbgCmd_resume c)), s.dbgEffect_debugged c _⟩

theorem exec_debugHalt (alone : s.otherHalted c (s.dbgSlot c) = false) : Gives (.debugHalt p c) s
    (Debugged s c (s.dbgSlot c) ((s.group c (s.dbgSlot c)).map Group.dbgHalt)) :=
  ⟨_, congrArg Host.Outcome.next ((State.put_dbgCmd hw pf).trans ((s.dbgCmd_halt c).trans (if_neg (by simp [alone])))),
    s.dbgEffect_debugged c _⟩

theorem exec_debugStep (alone : s.otherHalted c (s.dbgSlot c) = false) : Gives (.debugStep p c) s
    (Debugged s c (s.dbgSlot c) ((s.group c (s.dbgSlot c)).map Group.dbgStep)) :=
  ⟨_, congrArg Host.Outcome.next ((State.put_dbgCmd hw pf).trans ((s.dbgCmd_step c).trans (if_neg (by simp [alone])))),
    s.dbgEffect_debugged c _⟩

/-- While another group of the cluster is halted, a halt or a step only sets busy (R91). -/
theorem exec_debug_heldOff (held : s.otherHalted c (s.dbgSlot c) = true) {i : Instr} (hi : i = .debugHalt p c ∨ i = .debugStep p c) :
    exec i s = .next (s.dbgHeldOff c) := by
  obtain rfl | rfl := hi
  · exact congrArg Host.Outcome.next ((State.put_dbgCmd hw pf).trans ((s.dbgCmd_halt c).trans (if_pos held)))
  · exact congrArg Host.Outcome.next ((State.put_dbgCmd hw pf).trans ((s.dbgCmd_step c).trans (if_pos held)))

end

theorem exec_dbgRegDataWrite {s : State} {p : Path} {c : Fin 512} (hw : Writes s p R.tgpDbgRegData c) (pf : p = .pf ∨ p = .debug)
    (unlocked : s.locked (pageNo .tgp c) = false) (v : Word) : exec (.dbgRegDataWrite p c v) s = .next (s.dbgWrite c v) :=
  congrArg Host.Outcome.next (State.put_dbgRegData hw pf unlocked v)

/-- The debug commands of every other path are refused (R91). -/
theorem exec_debug_refused {s : State} {p : Path} {c : Fin 512} (hw : Writes s p R.tgpDbgCmd c) (not_pf : p ≠ .pf)
    (not_debug : p ≠ .debug) {i : Instr} (hi : i = .debugHalt p c ∨ i = .debugStep p c ∨ i = .debugResume p c) :
    exec i s = .next (s.refuses p .tgp c 0x64 0x11) := by
  have refused (v : Nat) : s.put p R.tgpDbgCmd v c = s.refuses p .tgp c 0x64 0x11 :=
    State.put_debug_refused hw (hw.reaches (d := woDef 0x64) (by decide) (by decide)) rfl (by decide) not_pf not_debug
  obtain rfl | rfl | rfl := hi <;> exact congrArg Host.Outcome.next (refused _)

/-- A register of a halted group is written (R92). -/
theorem State.dbgWrite_halted {s : State} {c : Nat} {x : Group} (hx : s.group c (s.dbgSlot c) = some x) (halted : x.halted = true)
    (v : Word) : Debugged s c (s.dbgSlot c) (some (x.dbgSet (s.rd R.tgpDbgRegSel c) v)) (s.dbgWrite c v) := by
  have stored : s.dbgWrite c v = s.modGroup c (s.dbgSlot c) (fun y => y.dbgSet (s.rd R.tgpDbgRegSel c) v) := by
    rw [State.modGroup_of_some hx]
    simp [State.dbgWrite, hx, halted]
  have changed := s.modGroup_debugged c (s.dbgSlot c) (fun y => y.dbgSet (s.rd R.tgpDbgRegSel c) v)
  rwa [hx, ← stored] at changed

/-- A write to a group that is not halted sets busy alone (R92). -/
theorem State.dbgWrite_running {s : State} {c : Nat} (h : ∀ x, s.group c (s.dbgSlot c) = some x → x.halted = false) (v : Word) :
    s.dbgWrite c v = s.setBusy c true := by
  unfold State.dbgWrite
  split
  · rename_i x hx
    simp [h x hx]
  · rfl

/-! ### The end of a step (R92) -/

/-- A group that is in no step stays as it is. -/
theorem Group.stepOver_same {x : Group} (h : x.stepping = false ∨ x.stepped = false ∨ x.remote ≠ 0) : x.stepOver = x := by
  have waits : (x.stepping && x.stepped && x.remote == 0) = false := by
    obtain h | h | h := h <;> simp [h]
  simp [Group.stepOver, waits]

theorem Group.stepOver_ends {x : Group} (stepping : x.stepping = true) (stepped : x.stepped = true) (answered : x.remote = 0) :
    x.stepOver = { x with halted := true, stepping := false, stepped := false } := by
  simp [Group.stepOver, stepping, stepped, answered]

theorem mem_of_mfind {α : Type} {m : NMap α} {k : Nat} {v : α} (h : mfind m k = some v) : (k, v) ∈ m := by
  induction m with
  | nil => cases h
  | cons p r ih =>
    obtain ⟨a, w⟩ := p
    simp only [mfind] at h
    split at h
    · rename_i e
      subst e
      exact Option.some.inj h ▸ List.mem_cons_self
    · exact List.mem_cons_of_mem _ (ih h)

/-- With no other group halted or in a step, STEP_COMPLETE is of the selected group alone (R91). -/
theorem exec_stepComplete {s : State} {c : Fin 512} {g : Nat} (alone : s.otherHalted c g = false) :
    Gives (.stepComplete c) s (Debugged s c g ((s.group c g).map Group.stepOver)) := by
  let t := s.setCluster c { s.cluster c with groups := (s.cluster c).groups.map (fun p => (p.1, p.2.stepOver)) }
  have group (j : Nat) : t.group c j = (s.group c j).map Group.stepOver := by
    simp [t, State.group, State.cluster, State.setCluster, mfind_map]
  refine ⟨t, rfl, group g, fun j hj => ?_, fun d hd => by simp [t, State.cluster, State.setCluster, mget_mput_ne _ _ _ hd], rfl, rfl⟩
  rw [group]
  cases hx : s.group c j with
  | none => rfl
  | some x =>
    have still := List.any_eq_false.mp alone (j, x) (mem_of_mfind hx)
    have stepping : x.stepping = false := by
      by_contra steps
      exact still (by simp [hj, steps])
    simp [Group.stepOver_same (.inl stepping)]

/-! ### HDL.CMD (R192, R199) -/

/-- The entry's index that HDL.IDX names. -/
def State.hdlIndex (s : State) (c : Nat) : Nat := s.fld R.hdlIdx 9 0 c

/-- The entry that ENT0 to ENT3 spell. -/
def State.hdlStaged (s : State) (c : Nat) : HEntry :=
  BitVec.ofNat 128 (s.rd R.hdlEnt c 0 0 + s.rd R.hdlEnt c 0 1 * 2 ^ 32 + s.rd R.hdlEnt c 0 2 * 2 ^ 64 + s.rd R.hdlEnt c 0 3 * 2 ^ 96)

/-- The device once it accepts the staged entry, before that is in force. -/
def State.hdlTaken (s : State) (c : Nat) : State :=
  s.modCluster c (fun x => { x with
    hdlRefused := false, hdlReason := 0, handlePend := mput x.handlePend (s.hdlIndex c) (s.hdlStaged c) })

theorem State.hdlTaken_spec (s : State) (c : Nat) :
    ((s.hdlTaken c).cluster c).handlePend = mput (s.cluster c).handlePend (s.hdlIndex c) (s.hdlStaged c) ∧
      ((s.hdlTaken c).cluster c).handles = (s.cluster c).handles ∧ ((s.hdlTaken c).cluster c).hdlRefused = false := by
  simp [State.hdlTaken]

/-- An entry taken is not yet in force. -/
theorem State.hdlTaken_entry (s : State) (c : Nat) : (s.hdlTaken c).entry c = s.entry c := by
  funext j
  simp only [State.entry, (s.hdlTaken_spec c).2.1]

/-- An answer to a writer touches no cluster. -/
theorem State.answered_cluster (s : State) (p : Path) (a : Nat) : (s.answered p a).cluster = s.cluster := by
  unfold State.answered
  split <;> rfl

/-- The device once it refuses the staged entry. -/
def State.hdlRefuse (s : State) (c src : Nat) : State :=
  (s.modCluster c (fun x => { x with hdlRefused := true, hdlReason := s.entryReason c (s.hdlIndex c) (s.hdlStaged c) })).violate .hdl c
    ⟨0x10, src, 0, 0, spanReg s.self (pageNo .hdl c * 4096 + 0x54)⟩

/-- A refused entry leaves the table and what is written of it, and its reason shows (R192). -/
theorem State.hdlRefuse_spec (s : State) (c src : Nat) :
    ((s.hdlRefuse c src).cluster c).handles = (s.cluster c).handles ∧
      ((s.hdlRefuse c src).cluster c).handlePend = (s.cluster c).handlePend ∧ ((s.hdlRefuse c src).cluster c).hdlRefused = true ∧
      ((s.hdlRefuse c src).cluster c).hdlReason = s.entryReason c (s.hdlIndex c) (s.hdlStaged c) := by
  have cluster : (s.hdlRefuse c src).cluster c = { s.cluster c with
      hdlRefused := true, hdlReason := s.entryReason c (s.hdlIndex c) (s.hdlStaged c) } := by
    rw [State.hdlRefuse, State.cluster_of_clusters (State.violate_clusters ..), State.modCluster_self]
  simp [cluster]

section
variable {s : State} {c : Nat} (src : Nat)

theorem State.hdlCmd_write_accepted (h : s.entryReason c (s.hdlIndex c) (s.hdlStaged c) = 0) : s.hdlCmd c (w32 1).toNat src =
    if s.deferring then s.hdlTaken c else (s.hdlTaken c).entriesInForce c := by
  simp only [State.hdlIndex, State.hdlStaged] at h
  simp only [State.hdlCmd, show bit (w32 1).toNat 0 = true by decide, show bit (w32 1).toNat 1 = false by decide, if_true,
    Bool.false_eq_true, if_false, h, ne_eq, not_true_eq_false]
  rfl

theorem State.hdlCmd_write_refused (h : s.entryReason c (s.hdlIndex c) (s.hdlStaged c) ≠ 0) :
    s.hdlCmd c (w32 1).toNat src = s.hdlRefuse c src := by
  simp only [State.hdlIndex, State.hdlStaged] at h
  simp only [State.hdlCmd, show bit (w32 1).toNat 0 = true by decide, show bit (w32 1).toNat 1 = false by decide, if_true,
    Bool.false_eq_true, if_false, h, ne_eq, not_false_eq_true]
  rfl

theorem State.hdlCmd_read : s.hdlCmd c (w32 2).toNat src = s.hdlRead c (s.hdlIndex c) src := by
  simp only [State.hdlCmd, show bit (w32 2).toNat 0 = false by decide, show bit (w32 2).toNat 1 = true by decide, if_true,
    Bool.false_eq_true, if_false]
  rfl

end

/-! ### Entries that come into force (R199) -/

/-- A written entry as it comes into force: a valid paired entry that it replaces passes its cur on. -/
def State.entryTaking (s : State) (c i : Nat) (e : HEntry) : HEntry :=
  hSetCur e (if hType (s.entry c i) ≠ 0 ∧ hKind (s.entry c i) = 1 then hCur (s.entry c i) else 0)

/-- A written entry comes into force in its cluster's table alone. -/
theorem State.entryInForce_cluster (s : State) (c i : Nat) (e : HEntry) (d : Nat) : (s.entryInForce c i e).cluster d =
    if d = c then { s.cluster c with
      handles := mset 0#128 (s.cluster c).handles i (s.entryTaking c i e), handlePend := merase (s.cluster c).handlePend i }
    else s.cluster d := by
  unfold State.entryInForce
  exact s.modCluster_cluster c d (fun x => { x with
    handles := mset 0#128 x.handles i (s.entryTaking c i e), handlePend := merase x.handlePend i })

theorem State.entriesInForce_others (s : State) {c d : Nat} (h : d ≠ c) : (s.entriesInForce c).cluster d = s.cluster d := by
  refine State.each_keeps (fun t => t.cluster d) (fun t p => ?_) s
  rw [State.entryInForce_cluster, if_neg h]

theorem State.entriesInForce_hdlRefused (s : State) (c : Nat) :
    ((s.entriesInForce c).cluster c).hdlRefused = (s.cluster c).hdlRefused := by
  refine State.each_keeps (fun t => (t.cluster c).hdlRefused) (fun t p => ?_) s
  rw [State.entryInForce_cluster, if_pos rfl]

/-- The one entry written comes into force, and no other changes. -/
theorem State.entriesInForce_one {s : State} {c i : Nat} {e : HEntry} (h : (s.cluster c).handlePend = [(i, e)]) :
    (s.entriesInForce c).entry c i = s.entryTaking c i e ∧ (∀ j, j ≠ i → (s.entriesInForce c).entry c j = s.entry c j) ∧
      ((s.entriesInForce c).cluster c).handlePend = [] := by
  have one : s.entriesInForce c = s.entryInForce c i e := by
    rw [State.entriesInForce, h]
    rfl
  rw [one]
  refine ⟨?_, fun j hj => ?_, ?_⟩
  · simp [State.entry, State.entryInForce_cluster]
  · simp [State.entry, State.entryInForce_cluster, mget_mset_ne _ _ _ hj]
  · simp [State.entryInForce_cluster, h, merase]

/-! ### Handle reads (R199) -/

/-- ENT0 to ENT3 as one number. -/
def State.hdlWords (t : State) (c : Nat) : Nat :=
  t.rd R.hdlEnt c 0 0 + t.rd R.hdlEnt c 0 1 * 2 ^ 32 + t.rd R.hdlEnt c 0 2 * 2 ^ 64 + t.rd R.hdlEnt c 0 3 * 2 ^ 96

/-- A word of ENT stored leaves the others. -/
theorem State.wr_hdlEnt_ne (s : State) (c v : Nat) {i j : Nat} (h : j ≠ i) :
    (s.wr R.hdlEnt v c 0 i).rd R.hdlEnt c 0 j = s.rd R.hdlEnt c 0 j := by
  refine State.setRaw_rawAt_ne s v ?_
  simp only [regKey, R.hdlEnt]
  omega

/-- The four words of a 128-bit number are read back as it. -/
theorem State.hdlWords_stored (s : State) (c : Nat) {f : Nat} (h : f < 2 ^ 128) :
    ((((s.wr R.hdlEnt f c 0 0).wr R.hdlEnt (f / 2 ^ 32) c 0 1).wr R.hdlEnt (f / 2 ^ 64) c 0 2).wr R.hdlEnt (f / 2 ^ 96) c 0 3).hdlWords c
      = f := by
  simp only [State.hdlWords, State.wr_rd, State.wr_hdlEnt_ne, ne_eq, Nat.reduceEqDiff, not_false_eq_true]
  omega

/-- What HDL.CMD.read loads: the entry in force, or free values where a word of it is uncorrectable. -/
def State.hdlLoaded (s : State) (c i : Nat) : Nat :=
  if s.entryBad c i then (Config.freeWord s.freeCtr).toNat + (Config.freeWord (s.freeCtr + 1)).toNat * 2 ^ 64 else (s.entry c i).toNat

theorem State.hdlLoaded_lt (s : State) (c i : Nat) : s.hdlLoaded c i < 2 ^ 128 := by
  unfold State.hdlLoaded
  split
  · have low := (Config.freeWord s.freeCtr).isLt
    have high := (Config.freeWord (s.freeCtr + 1)).isLt
    omega
  · exact (s.entry c i).isLt

theorem State.hdlRead_words (s : State) (c i src : Nat) : (s.hdlRead c i src).hdlWords c = s.hdlLoaded c i :=
  State.hdlWords_stored _ c (s.hdlLoaded_lt c i)

theorem State.hdlRead_mem (s : State) (c i src : Nat) : (s.hdlRead c i src).mem = s.mem := by
  have touched : (s.touchEntry c i src 0).mem = s.mem := s.touchEntry_mem c i src 0
  simp only [State.hdlRead, State.wr_mem]
  rw [State.when_keeps State.mem _ (by simp), touched]

/-- A read of an entry without error touches no cluster. -/
theorem State.hdlRead_clean {s : State} {c i : Nat} (h : CleanEntry s c i) (src : Nat) :
    (s.hdlRead c i src).clusters = s.clusters := by
  simp [State.hdlRead, h.touch, h.good, State.when]

/-! ### The commands -/

section
variable {s : State} {p : Path} {c : Fin 512} (hw : Writes s p R.hdlCmd c)
include hw

/-- A write of HDL.CMD does what the command says; where it refuses an entry the writer is answered too. -/
theorem State.put_hdlCmd (v : Nat) : s.put p R.hdlCmd v c =
    (let t := s.hdlCmd c (w32 v).toNat (pathSrc p)
    if bit (w32 v).toNat 0 && (t.cluster c).hdlRefused then t.answered p (regAddr R.hdlCmd c 0) else t) := by
  have hr := hw.reaches (d := woDef 0x54) (by decide) (by decide)
  have off : regAddr R.hdlCmd c 0 % 4096 = 0x54 := regAddr_off hr
  extract_lets t
  split
  · rename_i refused
    refine State.put_logged (b := false) hr hw.1 ?_
    change s.writeReg p .hdl c (regAddr R.hdlCmd c 0) _ _ = _
    generalize regAddr R.hdlCmd c 0 = addr at off
    simp [State.writeReg, off, woDef, State.writeWo, State.writeHdl, refused, t, Effect.wrote]
  · rename_i accepted
    refine State.put_wo hr rfl (by decide) hw ?_
    change s.writeHdl p c _ = _
    simp [State.writeHdl, accepted, t]

theorem exec_hdlRead : exec (.hdlRead p c) s = .next (s.hdlRead c (s.hdlIndex c) (pathSrc p)) := by
  refine congrArg Host.Outcome.next ((State.put_hdlCmd hw 2).trans ?_)
  rw [State.hdlCmd_read]
  exact if_neg (by simp [show bit (w32 2).toNat 0 = false by decide])

theorem exec_hdlWrite_accepted (h : s.entryReason c (s.hdlIndex c) (s.hdlStaged c) = 0) : exec (.hdlWrite p c) s =
    .next (if s.deferring then s.hdlTaken c else (s.hdlTaken c).entriesInForce c) := by
  refine congrArg Host.Outcome.next ((State.put_hdlCmd hw 1).trans ?_)
  rw [State.hdlCmd_write_accepted _ h]
  refine if_neg ?_
  have taken : ((s.hdlTaken c).cluster c).hdlRefused = false := by simp [State.hdlTaken]
  cases s.deferring <;> simp [taken, State.entriesInForce_hdlRefused]

theorem exec_hdlWrite_refused (h : s.entryReason c (s.hdlIndex c) (s.hdlStaged c) ≠ 0) : exec (.hdlWrite p c) s =
    .next ((s.hdlRefuse c (pathSrc p)).answered p (regAddr R.hdlCmd c 0)) := by
  refine congrArg Host.Outcome.next ((State.put_hdlCmd hw 1).trans ?_)
  rw [State.hdlCmd_write_refused _ h]
  exact if_pos (by rw [(s.hdlRefuse_spec c _).2.2.1]; decide)

end

/-! ### The obligation -/

/-- Settles O18: PF0's paths reach the selected group through `State.dbgCmd` and `State.dbgWrite`, others are refused; HDL.CMD takes or
refuses the staged entry, and a read loads the four words. -/
theorem debugAndHandleCommands : Obligations.DebugAndHandleCommands := by
  unfold Obligations.DebugAndHandleCommands
  refine ⟨fun s p c v => ?_, fun s p c hw => ?_⟩
  · intro g becomes pf
    refine ⟨fun hw hp => ⟨fun x hx => ?_, fun none_there => ?_, fun held i hi => ?_⟩,
      fun hw hp unlocked => ⟨fun x hx halted => ?_, fun running => ?_⟩,
      fun hw not_pf not_debug i hi => exec_debug_refused hw not_pf not_debug hi, fun hw not_pf not_debug => ?_,
      fun x hx alone => ?_⟩
    · have resumes := exec_debugResume hw hp
      have halts := exec_debugHalt hw hp
      have steps := exec_debugStep hw hp
      rw [hx] at resumes halts steps
      refine ⟨resumes, fun alone => ⟨halts alone, fun halted => ?_, fun runs => ?_⟩⟩
      · have stepped : x.dbgStep = { x with halted := false, stepping := true, stepped := false } := by simp [Group.dbgStep, halted]
        exact stepped ▸ steps alone
      · have still : x.dbgStep = x := by simp [Group.dbgStep, runs]
        have same := steps alone
        rwa [Option.map_some, still] at same
    · have resumes := exec_debugResume hw hp
      have halts := exec_debugHalt hw hp
      have steps := exec_debugStep hw hp
      rw [none_there] at resumes halts steps
      exact ⟨resumes, fun alone => ⟨halts alone, steps alone⟩⟩
    · obtain ⟨group, busy⟩ := s.dbgHeldOff_spec c
      exact ⟨_, exec_debug_heldOff hw hp held hi, by rw [group], busy⟩
    · exact ⟨_, exec_dbgRegDataWrite hw hp unlocked v, State.dbgWrite_halted hx halted v⟩
    · refine ⟨_, exec_dbgRegDataWrite hw hp unlocked v, ?_⟩
      rw [State.dbgWrite_running running]
      exact ⟨by rw [State.setBusy_group], by simp [State.setBusy]⟩
    · exact congrArg Host.Outcome.next (State.put_debug_refused hw (hw.reaches (d := dbgRegDataDef) (by decide) (by decide)) rfl
        (by decide) not_pf not_debug)
    · have ends := exec_stepComplete alone
      rw [hx, Option.map_some] at ends
      exact ⟨fun stepping stepped answered => Group.stepOver_ends stepping stepped answered ▸ ends,
        fun stays => Group.stepOver_same stays ▸ ends⟩
  · intro i e ent
    have reads : ent (s.hdlRead c i (pathSrc p)) = s.hdlLoaded c i := s.hdlRead_words c i (pathSrc p)
    refine ⟨fun ok defers => ?_, fun ok now => ?_, fun bad => ?_,
      _, exec_hdlRead hw, s.hdlRead_mem .., fun clean => State.hdlRead_clean clean _, fun good => ?_, fun bad => ?_⟩
    · have runs := exec_hdlWrite_accepted hw ok
      rw [if_pos defers] at runs
      obtain ⟨pending, handles, refused⟩ := s.hdlTaken_spec c
      exact ⟨_, runs, by rw [pending]; exact mfind_mput_self .., handles, refused, fun d hd => State.modCluster_others _ _ hd⟩
    · have runs := exec_hdlWrite_accepted hw ok
      rw [if_neg (by simp [now])] at runs
      refine ⟨_, runs, fun d hd => ?_, fun none_pending => ?_⟩
      · rw [State.entriesInForce_others _ hd, State.hdlTaken, State.modCluster_others _ _ hd]
      · have one : ((s.hdlTaken c).cluster c).handlePend = [(i, e)] := by
          rw [(s.hdlTaken_spec c).1, none_pending]
          rfl
        have inForce := State.entriesInForce_one one
        rwa [State.entryTaking, State.hdlTaken_entry] at inForce
    · exact ⟨_, exec_hdlWrite_refused hw bad, by simp only [State.answered_cluster]; exact s.hdlRefuse_spec c (pathSrc p)⟩
    · exact reads.trans (if_neg (by simp [good]))
    · exact reads.trans (if_pos bad)

end Sys2Proof.Machine
end

section
/-!
PROOF. Guards (04 R99), and the thread instructions that compute in registers (04 R102 to R110). Settles O54, O1 and O2.
-/
namespace Sys2Proof.Machine

/-! ### Guards (R99) -/

theorem guardOk_of_ge {w : TWord} (h : wGe w = true) : guardOk w = true := by simp [guardOk, h]

theorem guardOk_iff_of_not_ge {w : TWord} (h : wGe w = false) : guardOk w = true ↔ wGn w = false ∧ wGp w = 0 := by
  simp [guardOk, h]

/-- With ge = 0 no lane is held back. -/
theorem Group.gmask_of_not_ge (x : Group) {w : TWord} (h : wGe w = false) {l : Nat} (hl : l < 32) :
    (x.gmask w).getLsbD l = true := by
  have ones : (0xFFFFFFFF#32).getLsbD l = true := by
    rw [show (0xFFFFFFFF#32) = BitVec.allOnes 32 from rfl, BitVec.getLsbD_allOnes]
    simpa using hl
  simpa [Group.gmask, h] using ones

/-- With ge = 1 a lane passes by its bit of p[gp], turned about by gn. -/
theorem Group.gmask_of_ge (x : Group) {w : TWord} (h : wGe w = true) {l : Nat} (hl : l < 32) :
    (x.gmask w).getLsbD l = true ↔ (x.pred (wGp w)).getLsbD l = !wGn w := by
  cases hn : wGn w <;> simp [Group.gmask, h, hn, hl]

/-- Settles O54: the guard's fields select the predicate, its complement, or every lane. -/
theorem guardMask : Obligations.GuardMask := by
  unfold Obligations.GuardMask
  intro x w
  exact ⟨fun h => ⟨fun l hl => x.gmask_of_not_ge h hl, guardOk_iff_of_not_ge h⟩,
    fun h => ⟨guardOk_of_ge h, fun l hl => x.gmask_of_ge h hl⟩⟩

/-! ### Instructions that set registers in the executing lanes -/

section
variable {s : State} {c g op : Nat} {w : TWord} {x : Group} {regs : List Nat} (h : Runs s c g op w x regs)
include h

/-- A legal instruction whose effect sets t[d] from `f` in the executing lanes. -/
theorem Runs.sets_lanes {legal : Bool} (ok : legal = true) {d : Nat} {f : Nat → Word} {effect : State → Group → Group}
    (he : effect (s.issued c g) x = (x.each w d f).next) :
    ∃ y, LanesSet x y w d f ∧ GroupBecomes s c g y (.next (s.issueGroup c g op w legal regs effect)) := by
  subst ok
  exact ⟨_, x.each_lanes w d f, he ▸ h.becomes effect⟩

/-- A legal instruction whose effect sets p[k] from a mask that tests the executing lanes. -/
theorem Runs.sets_pred {legal : Bool} (ok : legal = true) {k : Nat} {m : Word} {f : Nat → Bool}
    {effect : State → Group → Group} (he : effect (s.issued c g) x = (x.putPred w k m).next)
    (hf : ∀ l, l < 32 → (x.ex w).getLsbD l = true → m.getLsbD l = f l) :
    ∃ y, PredSet x y w k f ∧ GroupBecomes s c g y (.next (s.issueGroup c g op w legal regs effect)) := by
  subst ok
  exact ⟨_, x.putPred_set w k m f hf, he ▸ h.becomes effect⟩

/-- A legal instruction whose effect sets u[k]. -/
theorem Runs.sets_uniform {legal : Bool} (ok : legal = true) {k : Nat} {v : Word} {effect : State → Group → Group}
    (he : effect (s.issued c g) x = (x.setU k v).next) :
    ∃ y, UniformSet x y k v ∧ GroupBecomes s c g y (.next (s.issueGroup c g op w legal regs effect)) := by
  subst ok
  exact ⟨_, x.setU_set k v, he ▸ h.becomes effect⟩

end

/-- A command that issues an O-format instruction. -/
theorem OForm.of_exec {mk : ThreadCmd} {code : Nat} {op : Word → Word → Word → Word}
    (h : ∀ c g w s, exec (mk c g w) s = .next (s.issueO c g code w op)) : OForm mk code op := by
  intro s c g w x hg hb hx runs
  rw [h]
  exact runs.sets_lanes (by simp [hg, hb, hx]) rfl

/-- A command that issues an instruction which sets t[d] in the executing lanes, whose fields `enc` checks. -/
theorem LaneForm.of_exec {mk : ThreadCmd} {code : Nat} {legal : TWord → Bool} {regs : TWord → List Nat} {d : TWord → Nat}
    {f : State → Nat → Nat → Group → TWord → Nat → Word} {enc : TWord → Bool}
    (h : ∀ c g w s, exec (mk c g w) s =
      .next (s.issueGroup c g code w (enc w) (regs w) (fun t x => (x.each w (d w) (f t c g x w)).next)))
    (henc : ∀ w, enc w = (guardOk w && legal w))
    (hf : ∀ s c g x w, f (s.issued c g) c g x w = f s c g x w) : LaneForm mk code legal regs d f := by
  intro s c g w x hg hl runs
  rw [h]
  exact runs.sets_lanes (by simp [henc, hg, hl]) (by rw [hf])

/-- A command that issues an instruction which compares in the executing lanes, whose fields `enc` checks. -/
theorem PredForm.of_compare {mk : ThreadCmd} {code : Nat} {legal : TWord → Bool} {regs : TWord → List Nat}
    {f : Group → TWord → Nat → Bool} {enc : TWord → Bool}
    (h : ∀ c g w s, exec (mk c g w) s =
      .next (s.issueGroup c g code w (enc w) (regs w) (fun _ x => (x.compare w (f x w)).next)))
    (henc : ∀ w, enc w = (guardOk w && legal w)) : PredForm mk code legal regs f := by
  intro s c g w x hg hl runs
  rw [h]
  exact runs.sets_pred (by simp [henc, hg, hl]) rfl (fun l hl he => by simp [laneMask_bit _ _ l hl, he])

/-- A command that issues a group-level instruction which sets a uniform register, whose fields `enc` checks. -/
theorem UniformForm.of_exec {mk : ThreadCmd} {code : Nat} {legal : TWord → Bool} {regs : TWord → List Nat} {k : TWord → Nat}
    {f : Group → TWord → Word} {enc : TWord → Bool}
    (h : ∀ c g w s, exec (mk c g w) s =
      .next (s.issueGroup c g code w (enc w) (regs w) (fun _ x => (x.setU (k w) (f x w)).next)))
    (henc : ∀ w, enc w = (groupOk w && legal w)) : UniformForm mk code legal regs k f := by
  intro s c g w x hg hl runs
  rw [h]
  exact runs.sets_uniform (by simp [henc, hg, hl]) rfl

/-- Settles O1: each O-format row is `State.issueO` of its operation, each other row the issue of an effect on t[d]. -/
theorem arithmeticOps : Obligations.ArithmeticOps := by
  unfold Obligations.ArithmeticOps
  refine ⟨?integer, ?float, ?immediate⟩
  case integer => and_intros <;> exact .of_exec fun _ _ _ _ => rfl
  case float =>
    refine ⟨?_, ?_, ?_, ?_, ?_, ?_, ?cvt, ?tfn⟩
    case cvt | tfn => exact .of_exec (fun _ _ _ _ => rfl) (fun w => by simp only [Bool.and_assoc]) (fun _ _ _ _ _ => rfl)
    all_goals exact .of_exec fun _ _ _ _ => rfl
  case immediate =>
    intro rr sh
    refine ⟨?_, ?_, ?_, ?_, ?_, ?_, ?_, ?movl, ?movh, ?mov⟩
    case movl | movh => exact .of_exec (fun _ _ _ _ => rfl) (fun w => (Bool.and_true _).symm) (fun _ _ _ _ _ => rfl)
    case mov => exact .of_exec (fun _ _ _ _ => rfl) (fun w => by simp only [Bool.and_assoc]) (fun _ _ _ _ _ => rfl)
    all_goals exact .of_exec (fun _ _ _ _ => rfl) (fun _ => rfl) (fun _ _ _ _ _ => rfl)

/-! ### Lane queries, XLANE, SYSV and the uniform instructions (R103 to R107) -/

/-- A mask that is all ones where `b` holds, else 0. -/
theorem getLsbD_allOnes_of (b : Prop) [Decidable b] {l : Nat} (hl : l < 32) :
    (if b then 0xFFFFFFFF#32 else 0#32).getLsbD l = decide b := by
  split
  · rename_i hb
    rw [show (0xFFFFFFFF#32) = BitVec.allOnes 32 from rfl, BitVec.getLsbD_allOnes]
    simp [hb, hl]
  · rename_i hb
    simp [hb]

/-- PBOOL's mask is its operation on the two predicates (R104). -/
theorem pbool_predForm : PredForm .pbool 0x12 (fun w => tw w 20 18 == 0 && tw w 14 12 == 0 && tw w 8 6 == 0 && !wBs w) (fun _ => [])
    (fun x w l => (pboolOp (wX w) (x.pred (tw w 11 9)) (x.pred (tw w 5 3))).getLsbD l) := by
  intro s c g w x hg hl runs
  change ∃ y, _ ∧ GroupBecomes s c g y (.next (s.issueGroup c g 0x12 w _ _ _))
  refine runs.sets_pred ?_ rfl (fun _ _ _ => rfl)
  simpa only [hg, Bool.true_and] using hl

section
variable {s : State} {c : Fin 512} {g : Fin 64} {w : BitVec 26} {x : Group} (hg : guardOk w = true) (hl : laneqOk w = true)
include hg hl

/-- LANEQ's any and all set p[pd] to one value in every executing lane, where `v` is the mask of that value (R104). -/
theorem exec_laneq_pred (runs : Runs s c g 0x13 w x []) (low : wX w < 2) {b : Prop} [Decidable b]
    (he : x.laneq w = x.putPred w (tw w 17 15) (if b then 0xFFFFFFFF#32 else 0#32)) :
    ∃ y, PredSet x y w (tw w 17 15) (fun _ => decide b) ∧ GroupBecomes s c g y (exec (.laneq c g w) s) := by
  change ∃ y, _ ∧ GroupBecomes s c g y (.next (s.issueGroup c g 0x13 w _ (if wX w < 2 then [] else [wD w]) _))
  rw [if_pos low]
  exact runs.sets_pred (by simp [hg, hl]) (congrArg Group.next he) (fun l h _ => getLsbD_allOnes_of b h)

/-- LANEQ's mask and count write t[d] (R104). -/
theorem exec_laneq_lanes (runs : Runs s c g 0x13 w x [wD w]) (high : ¬ wX w < 2) {v : Word}
    (he : x.laneq w = x.each w (wD w) (fun _ => v)) :
    ∃ y, LanesSet x y w (wD w) (fun _ => v) ∧ GroupBecomes s c g y (exec (.laneq c g w) s) := by
  change ∃ y, _ ∧ GroupBecomes s c g y (.next (s.issueGroup c g 0x13 w _ (if wX w < 2 then [] else [wD w]) _))
  rw [if_neg high]
  exact runs.sets_lanes (by simp [hg, hl]) (congrArg Group.next he)

end

/-- LANEQ in each of its four modes (R104). -/
theorem laneq_forms :
    PredForm .laneq 0x13 (fun w => laneqOk w && wX w == 0) (fun _ => []) (fun x w _ => x.pred (tw w 11 9) &&& x.ex w != 0#32) ∧
      PredForm .laneq 0x13 (fun w => laneqOk w && wX w == 1) (fun _ => []) (fun x w _ => x.pred (tw w 11 9) &&& x.ex w == x.ex w) ∧
      LaneForm .laneq 0x13 (fun w => laneqOk w && wX w == 2) (fun w => [wD w]) wD (fun _ _ _ x w _ => x.pred (tw w 11 9) &&& x.ex w) ∧
      LaneForm .laneq 0x13 (fun w => laneqOk w && wX w == 3) (fun w => [wD w]) wD
        (fun _ _ _ x w _ => w32 (lanes (x.pred (tw w 11 9) &&& x.ex w)).length) := by
  refine ⟨?any, ?all, ?mask, ?count⟩ <;> intro s c g w x hg hl runs <;>
    obtain ⟨fields, mode⟩ : laneqOk w = true ∧ _ := by simpa only [Bool.and_eq_true, beq_iff_eq] using hl
  case any =>
    have any := exec_laneq_pred hg fields runs (by omega) (b := x.pred (tw w 11 9) &&& x.ex w ≠ 0#32) (by simp only [Group.laneq, mode])
    simpa only [bne, beq_eq_decide, decide_not] using any
  case all =>
    have all := exec_laneq_pred hg fields runs (by omega) (b := x.pred (tw w 11 9) &&& x.ex w = x.ex w) (by simp only [Group.laneq, mode])
    simpa only [beq_eq_decide] using all
  case mask => exact exec_laneq_lanes hg fields runs (by omega) (by simp only [Group.laneq, mode])
  case count => exact exec_laneq_lanes hg fields runs (by omega) (by simp only [Group.laneq, mode])

/-- What SYSV reads, an issue leaves. -/
theorem State.issued_sysv (s : State) (c g k h : Nat) (x : Group) (code l : Nat) :
    (s.issued c g).sysv k h x code l = s.sysv k h x code l := by
  simp only [State.sysv, State.self, State.issued_image, State.issued_tick]

/-- Settles O2: each row is the issue of an effect on the predicates, on t[d] or on a uniform register. -/
theorem laneQueries : Obligations.LaneQueries := by
  unfold Obligations.LaneQueries
  obtain ⟨any, all, mask, count⟩ := laneq_forms
  refine ⟨⟨?icmp, ?icmpi, ?fcmp, pbool_predForm, any, all, mask, count⟩, ?xlane, ?sysv, ?rdlane, ?umovl, ?umovh, ?uaddi⟩
  case icmp | fcmp => exact .of_compare (fun _ _ _ _ => rfl) (fun w => by simp only [Bool.and_assoc])
  case icmpi => exact .of_compare (fun _ _ _ _ => rfl) (fun w => (Bool.and_true _).symm)
  case xlane => exact .of_exec (fun _ _ _ _ => rfl) (fun _ => rfl) (fun _ _ _ _ _ => rfl)
  case sysv =>
    exact .of_exec (f := fun s c g x w l => s.sysv c g x (wB w) l) (fun _ _ _ _ => rfl)
      (fun w => by simp only [Bool.and_assoc]) (fun s c g x w => funext fun l => s.issued_sysv c g c g x (wB w) l)
  case rdlane | uaddi => exact .of_exec (fun _ _ _ _ => rfl) (fun w => by simp only [Bool.and_assoc])
  case umovl | umovh => exact .of_exec (fun _ _ _ _ => rfl) (fun _ => rfl)

end Sys2Proof.Machine
end

section
/-!
PROOF. Branches and the join stack (04 R119). Settles O3.
-/
namespace Sys2Proof.Machine

/-- A legal instruction that moves its group makes it what it says, and nothing else changes. -/
theorem Runs.moves {s : State} {c g op : Nat} {w : TWord} {x y : Group} (h : Runs s c g op w x []) {legal : Bool}
    (ok : legal = true) {f : Group → Option Group} (hf : f x = some y) :
    GroupBecomes s c g y (.next (s.issueMove c g op w legal f)) := by
  subst ok
  have same : s.issueMove c g op w true f = s.issueGroup c g op w true [] (fun _ _ => y) := by
    rw [State.issueMove, State.issueGroup, h.issue, h.issue]
    simp only [hf]
  rw [same]
  exact h.becomes fun _ _ => y

/-! ### BRA, JMARK and JN on the group (R119) -/

section
variable {x : Group} {w : TWord}

theorem Group.bra_taken (h : x.ex w = x.active) : x.bra w = some { x with pc := x.target w } := by
  simp [Group.bra, h]

theorem Group.bra_not_taken (h : x.ex w = 0#32) (active : x.active ≠ 0#32) : x.bra w = some x.next := by
  simp [Group.bra, h, Ne.symm active, Group.next]

/-- The lanes not taken join the entry on top where that resumes after the branch. -/
theorem Group.bra_joins {e : JoinEntry} {r : List JoinEntry} (some_stay : x.ex w ≠ x.active) (some_go : x.ex w ≠ 0#32)
    (top : x.stk = e :: r) (path : e.path = true) (here : e.pc = (x.pc + 4) % 2 ^ 32) :
    x.bra w = some { x with
      stk := { e with mask := e.mask ||| (x.active &&& ~~~(x.ex w)) } :: r, active := x.ex w, pc := x.target w } := by
  simp [Group.bra, some_stay, some_go, top, path, here]

/-- The lanes not taken are pushed where no entry on top takes them and the stack has room. -/
theorem Group.bra_pushes (some_stay : x.ex w ≠ x.active) (some_go : x.ex w ≠ 0#32) (room : x.stk.length < 16)
    (apart : ∀ e r, x.stk = e :: r → ¬(e.path = true ∧ e.pc = (x.pc + 4) % 2 ^ 32)) :
    x.bra w = some { x with
      stk := ⟨true, (x.pc + 4) % 2 ^ 32, x.active &&& ~~~(x.ex w)⟩ :: x.stk, active := x.ex w, pc := x.target w } := by
  cases top : x.stk with
  | nil => simp [Group.bra, some_stay, some_go, top]
  | cons e r =>
    rw [top] at room
    have fits : r.length < 15 := Nat.lt_of_succ_lt_succ room
    simpa [Group.bra, some_stay, some_go, top, Nat.not_le.mpr fits] using not_and.mp (apart e r top)

theorem Group.jmark_pushes (room : x.stk.length < 16) :
    x.jmark = some { x with stk := ⟨false, 0, x.active⟩ :: x.stk, pc := (x.pc + 4) % 2 ^ 32 } :=
  if_neg (Nat.not_le.mpr room)

theorem Group.jn_pops {e : JoinEntry} {r : List JoinEntry} (top : x.stk = e :: r) :
    x.jn = some { x with stk := r, active := e.mask, pc := if e.path then e.pc else (x.pc + 4) % 2 ^ 32 } := by
  simp only [Group.jn, top]

end

/-- Settles O3: each move is the group's own, case by case of the lanes that take it and of the entry on top. -/
theorem branchAndJoin : Obligations.BranchAndJoin := by
  unfold Obligations.BranchAndJoin
  intro s c g w x pc4 target rest
  refine ⟨fun runs hg => ?bra, fun runs hg h0 room => ?jmark, fun e r runs hg h0 top => ?jn⟩
  case bra =>
    have moves {y : Group} (hf : x.bra w = some y) : GroupBecomes s c g y (exec (.bra c g w) s) := runs.moves hg hf
    exact ⟨fun all => moves (Group.bra_taken all), fun none active => moves (Group.bra_not_taken none active),
      fun e r stay go top path here => moves (Group.bra_joins stay go top path here),
      fun stay go room apart => moves (Group.bra_pushes stay go room apart)⟩
  all_goals have legal : (groupOk w && wOff w == 0) = true := by simp [hg, wOff, h0]
  case jmark => exact runs.moves legal (Group.jmark_pushes room)
  case jn => exact runs.moves legal (Group.jn_pops top)

end Sys2Proof.Machine
end

section
/-!
PROOF. What an illegal encoding does, and a memory instruction with no executing lane (03 R89; 04 R96, R128, R130). Settles O10.
-/
namespace Sys2Proof.Machine

/-! ### Memory instructions whose fields are legal (R111, R117) -/

/-- The registers that a memory instruction reads or writes: t[r + 1] too where it has a second word. -/
def memRegs (w : TWord) (wide : Prop) [Decidable wide] : List Nat := [wR w, wA w] ++ if wide then [wR w + 1] else []

/-- LD's access once its checks pass: requests through a remote handle, else the bytes of memory (R113, R116). -/
def State.ldAct (s : State) (c g : Nat) (w : TWord) (x : Group) (r : Resolved) (offs : List (Nat × Nat)) : State :=
  if hType r.entry = 4 ∧ r.bad = false then
    s.remoteLanes c g x.tenant 0 0 (2 ^ wW w) r.entry offs (fun _ => []) (fun _ => 0)
      (fun l => .lane c g l (wR w) (2 ^ wW w) (bit (wS w) 2))
  else
    (s.afterLoad r x.tenant (2 ^ wW w) offs).setGroup c g ((s.loadLanes r (2 ^ wW w) offs).foldl
      (fun y p => y.setWords (wR w) p.1 (loadWords (2 ^ wW w) (bit (wS w) 2) p.2)) x.next)

/-- ST's access once its checks pass (R113, R116). -/
def State.stAct (s : State) (c g : Nat) (w : TWord) (x : Group) (r : Resolved) (offs : List (Nat × Nat)) : State :=
  if hType r.entry = 4 ∧ r.bad = false then
    s.remoteLanes c g x.tenant 1 0 (2 ^ wW w) r.entry offs (fun l => x.storeBytes (wR w) (2 ^ wW w) l) (fun _ => 0)
      (fun _ => .store c g)
  else s.storeLanes r x.tenant (offs.map (fun p => (p.2, x.storeBytes (wR w) (2 ^ wW w) p.1)))

/-- ATOM's access once its checks pass (R116, R117). -/
def State.atomAct (s : State) (c g : Nat) (w : TWord) (x : Group) (r : Resolved) (offs : List (Nat × Nat)) : State :=
  if hType r.entry = 4 ∧ r.bad = false then
    s.remoteLanes c g x.tenant 2 (wS w) 4 r.entry offs (fun l => x.storeBytes (wR w) 4 l)
      (fun l => if wS w == 7 then (x.treg (wR w + 1) l).toNat else 0) (fun l => .atom c g l (wR w))
  else
    (s.atomLanes r x.tenant (wS w) (wR w) x.next offs).1.setGroup c g
      (s.atomLanes r x.tenant (wS w) (wR w) x.next offs).2

section
variable {s : State} {c : Fin 512} {g : Fin 64} {w : BitVec 26} (hg : guardOk w = true)
include hg

theorem exec_ld (field : wS w % 4 = 0) (narrow : bit (wS w) 2 = true → wW w < 2) (even : wW w = 3 → wR w % 2 = 0) :
    exec (.ld c g w) s = .next (s.issueHeld c g 0x30 w true (memRegs w (wW w = 3)) (s.clashes c g w (2 ^ wW w) false)
      (fun t x => t.memory c g w x [0] (2 ^ wW w) (fun t r offs => t.ldAct c g w x r offs))).pump := by
  have legal : (guardOk w && wS w % 4 == 0 && !(bit (wS w) 2 && decide (2 ≤ wW w)) && !(wW w == 3 && wR w % 2 == 1)) = true := by
    simp only [hg, field, Bool.and_eq_true, Bool.not_eq_true', Bool.and_eq_false_imp, decide_eq_false_iff_not, Nat.not_le,
      beq_iff_eq, beq_eq_false_iff_ne, and_self, true_and]
    exact ⟨narrow, fun wide => by simp [even wide]⟩
  change Host.Outcome.next (State.pump (s.issueHeld c g 0x30 w (guardOk w && wS w % 4 == 0 && !(bit (wS w) 2 && decide (2 ≤ wW w)) &&
    !(wW w == 3 && wR w % 2 == 1)) _ _ _)) = _
  rw [legal]
  rfl

theorem exec_st (field : wS w = 0) (even : wW w = 3 → wR w % 2 = 0) :
    exec (.st c g w) s = .next (s.issueHeld c g 0x31 w true (memRegs w (wW w = 3)) (s.clashes c g w (2 ^ wW w) true)
      (fun t x => t.memory c g w x [1] (2 ^ wW w) (fun t r offs => t.stAct c g w x r offs))).pump := by
  have legal : (guardOk w && wS w == 0 && !(wW w == 3 && wR w % 2 == 1)) = true := by
    simp only [hg, field, Bool.true_and, beq_self_eq_true, Bool.not_eq_true', Bool.and_eq_false_imp, beq_iff_eq]
    exact fun wide => by simp [even wide]
  change Host.Outcome.next (State.pump (s.issueHeld c g 0x31 w (guardOk w && wS w == 0 && !(wW w == 3 && wR w % 2 == 1)) _ _ _)) = _
  rw [legal]
  rfl

theorem exec_atom (word : wW w = 2) (even : wS w = 7 → wR w % 2 = 0) :
    exec (.atom c g w) s = .next (s.issueHeld c g 0x32 w true (memRegs w (wS w = 7)) (s.clashes c g w 4 true)
      (fun t x => t.memory c g w x [0, 1] 4 (fun t r offs => t.atomAct c g w x r offs))).pump := by
  have legal : (guardOk w && wW w == 2 && !(wS w == 7 && wR w % 2 == 1)) = true := by
    simp only [hg, word, Bool.true_and, beq_self_eq_true, Bool.not_eq_true', Bool.and_eq_false_imp, beq_iff_eq]
    exact fun wide => by simp [even wide]
  have regs : memRegs w (wS w = 7) = [wR w, wA w] ++ if (wS w == 7) = true then [wR w + 1] else [] := by
    simp only [memRegs, beq_iff_eq]
  change Host.Outcome.next (State.pump (s.issueHeld c g 0x32 w (guardOk w && wW w == 2 && !(wS w == 7 && wR w % 2 == 1)) _ _ _)) = _
  rw [legal, regs]
  rfl

end

/-! ### No executing lane (R96) -/

/-- With no executing lane an access meets no earlier one. -/
theorem State.clashes_none {c g : Nat} {w : TWord} {x : Group} (h : x.ex w = 0#32) (s : State) (n : Nat) (write : Bool) :
    s.clashes c g w n write x = false := by
  unfold State.clashes
  split
  · rfl
  · simp [offsets_nil.mpr h]

/-- A group's change leaves the free plane at rest, and the plane then does not move. -/
theorem GroupBecomes.pump {s t : State} {c g : Nat} {y : Group} (h : GroupBecomes s c g y (.next t)) (rest : AtRest s) :
    GroupBecomes s c g y (.next t.pump) := by
  obtain ⟨_, ⟨⟩, group, only⟩ := h
  obtain ⟨fields, -⟩ := id only
  have still : t.pump = t := State.pump_rest (rest.of_same (by rw [fields]) (by rw [fields]))
  exact ⟨t, by rw [still], group, only⟩

/-- A legal memory instruction with no executing lane goes on to the next word. -/
theorem Runs.idle {s : State} {c g op : Nat} {w : TWord} {x : Group} {regs : List Nat} (h : Runs s c g op w x regs)
    (idle : x.ex w = 0#32) (rest : AtRest s) {need : List Nat} {n m : Nat} {write : Bool}
    {act : Group → State → Resolved → List (Nat × Nat) → State} :
    GroupBecomes s c g x.next (.next (s.issueHeld c g op w true regs (s.clashes c g w n write)
      (fun t x => t.memory c g w x need m (act x))).pump) := by
  refine GroupBecomes.pump ?_ rest
  rw [h.issueHeld (State.clashes_none idle s n write), State.memory_none idle, ← h.issue (fun t x => t.setGroup c g x.next)]
  exact h.becomes fun _ x => x.next

theorem memRegs_narrow (w : TWord) {wide : Prop} [Decidable wide] (h : ¬wide) : memRegs w wide = [wR w, wA w] := by
  simp [memRegs, h]

/-- R96: LD, ST and ATOM of words with no executing lane. -/
theorem idle_spec {s : State} {c : Fin 512} {g : Fin 64} {w : BitVec 26} {x : Group} {i : Instr} {op : Nat} (rest : AtRest s)
    (hg : guardOk w = true) (idle : x.ex w = 0#32)
    (hi : op = 0x30 ∧ i = .ld c g w ∧ wS w = 0 ∧ wW w = 2 ∨ op = 0x31 ∧ i = .st c g w ∧ wS w = 0 ∧ wW w = 2 ∨
      op = 0x32 ∧ i = .atom c g w ∧ wS w ≠ 7 ∧ wW w = 2)
    (runs : Runs s c g op w x [wR w, wA w]) : GroupBecomes s c g x.next (exec i s) := by
  obtain ⟨rfl, rfl, field, word⟩ | ⟨rfl, rfl, field, word⟩ | ⟨rfl, rfl, field, word⟩ := hi
  · rw [exec_ld hg (by simp [field]) (by simp [field, bit]) (by simp [word]), memRegs_narrow w (by simp [word])]
    exact runs.idle idle rest
  · rw [exec_st hg field (by simp [word]), memRegs_narrow w (by simp [word])]
    exact runs.idle idle rest
  · rw [exec_atom hg word (fun cas => absurd cas field), memRegs_narrow w field]
    exact runs.idle idle rest

/-! ### The kill of a tenant's context (R89) -/

/-- The generator of a stopped vector descriptor is all that a kill's draws change, with the free values' counter. -/
theorem State.killDraws_spec (s : State) (c t : Nat) :
    ∃ cl n, s.killDraws c t = { s with clusters := cl, freeCtr := n } := by
  unfold State.killDraws
  split
  · split
    · exact ⟨_, _, rfl⟩
    · exact ⟨s.clusters, s.freeCtr, rfl⟩
  · exact ⟨s.clusters, s.freeCtr, rfl⟩

theorem State.each_killDraws_spec (s : State) (l : List Nat) (t : Nat) :
    ∃ cl n, s.each l (fun u k => u.killDraws k t) = { s with clusters := cl, freeCtr := n } := by
  induction l generalizing s with
  | nil => exact ⟨s.clusters, s.freeCtr, rfl⟩
  | cons k l ih =>
    obtain ⟨cl, n, first⟩ := s.killDraws_spec k t
    obtain ⟨cl', n', rest⟩ := ih (s.killDraws k t)
    exact ⟨cl', n', rest.trans (by rw [first])⟩

/-- A killed tenant has no group in a cluster. -/
theorem Cluster.kill_groups {k : Cluster} {t h : Nat} {y : Group} (hy : mfind (k.kill t).groups h = some y) : y.tenant ≠ t := by
  have kept : (h, y) ∈ k.groups.filter (fun p => p.2.tenant != t) := mem_of_mfind hy
  simpa using (List.mem_filter.mp kept).2

/-- Where every listed cluster is killed, no group of the tenant is left. -/
theorem State.group_of_killed {s : State} {m : NMap Cluster} {t : Nat}
    (hs : s.clusters = m.map (fun p => (p.1, (p.2.kill t).schedule))) {d h : Nat} {y : Group} (hy : s.group d h = some y) :
    y.tenant ≠ t := by
  rw [State.group, State.cluster, hs, mget, mfind_map (fun k => (Cluster.kill k t).schedule)] at hy
  cases hk : mfind m d with
  | none => simp [hk, Cluster.reset, mfind] at hy
  | some k => exact Cluster.kill_groups (k := k) (by simpa [hk, Cluster.schedule] using hy)

/-- The kill of a context that lives: it is noted and counted, no group of the tenant is left, and of the free plane only
requests of the tenant go (R89). -/
theorem State.killContext_spec {s : State} {c t : Nat} (lives : s.ctxDead t = false) (code : Nat) :
    let u := s.killContext c t code
    t ∈ u.tick.killed ∧ (∀ d h y, u.group d h = some y → y.tenant ≠ t) ∧ u.regs = (s.cnt R.tgpKillCnt c).regs ∧
      u.ports = s.ports ∧ u.fabric.back = s.fabric.back ∧ (s.fabric.sendq = [] → u.fabric.sendq = []) := by
  intro u
  have def_u : u = s.killContext c t code := rfl
  clear_value u
  simp only [State.killContext, lives, Bool.false_eq_true, if_false] at def_u
  generalize he : (s.cnt R.tgpKillCnt c).modTick _ = noted at def_u
  obtain ⟨cl, n, drawn⟩ := noted.each_killDraws_spec (noted.clusters.map (·.1)) t
  rw [drawn] at def_u
  subst he def_u
  refine ⟨mem_addOnce _ _, fun d h y hy => State.group_of_killed rfl hy, rfl, by simp, by simp, fun none => by simp [none]⟩

/-! ### A thread fault (R128, R130) -/

/-- A count of kills leaves TGP.FAULT. -/
theorem State.cnt_tgpKillCnt_rd (s : State) (c : Nat) : (s.cnt R.tgpKillCnt c).rd R.tgpFault c = s.rd R.tgpFault c := by
  refine State.cnt_rawAt_ne s ?_
  simp [regKey, R.tgpFault, R.tgpKillCnt]

theorem State.threadFault_spec {s : State} {c g t code : Nat} (lives : s.ctxDead t = false) (hc : code < 256) (form addr : Nat) :
    let u := s.threadFault c g t code form addr
    u.rd R.tgpFault c = code + g % 64 * 2 ^ 8 + t % 256 * 2 ^ 16 + 2 ^ 31 ∧ t ∈ u.tick.killed ∧ u.mem = s.mem ∧
      (∀ d h y, u.group d h = some y → y.tenant ≠ t) ∧ (AtRest s → AtRest u) := by
  intro u
  set v := code + g % 64 * 2 ^ 8 + t % 256 * 2 ^ 16 + 2 ^ 31 with hv
  set logged := (s.wr R.tgpFault v c).violate .tgp c ⟨code, 7, t, form, addr⟩ with hl
  have lives' : logged.ctxDead t = false := by simpa [hl, State.ctxDead] using lives
  obtain ⟨killed, groups, regs, ports, back, sendq⟩ := State.killContext_spec (c := c) lives' code
  have fault : logged.rd R.tgpFault c = v := by
    have stays := (State.violate_sameAbove (s.wr R.tgpFault v c) .tgp c ⟨code, 7, t, form, addr⟩).rawAt .tgp c 0 (off := R.tgpFault.off)
      (by decide) (by decide)
    have stored := s.wr_rd R.tgpFault v c 0 0
    rw [Nat.mod_eq_of_lt (by omega)] at stored
    exact stays.trans stored
  have same : u.rd R.tgpFault c = (logged.cnt R.tgpKillCnt c).rd R.tgpFault c := by
    simp only [State.rd, State.rawAt]
    rw [← regs]
    rfl
  refine ⟨same.trans ((State.cnt_tgpKillCnt_rd ..).trans fault), killed, (State.threadFault_sameStores ..).1, groups, fun rest => ?_⟩
  obtain ⟨none_waits, answers, free⟩ := rest
  have backs : u.fabric.back = s.fabric.back := by rw [show u.fabric.back = _ from back]; simp [hl]
  have queues : u.ports = s.ports := by rw [show u.ports = _ from ports]; simp [hl]
  exact ⟨sendq (by simpa [hl] using none_waits), by rwa [backs], by simpa [PortsFree, State.port, queues] using free⟩

/-- A group that would run, but for the illegal fields of its word, faults ILLEGAL_ENC (R128). -/
theorem Runs.illegal {s : State} {c g op : Nat} {w : TWord} {x : Group} {regs : List Nat} (h : Runs s c g op w x regs)
    (used : List Nat) (hold : Group → Bool) (body : State → Group → State) :
    s.issueHeld c g op w false used hold body = (s.faultHere c g 0x20 x).schedule c := by
  obtain ⟨issues, unbroken, type1, covered, -, clean⟩ := h
  obtain ⟨-, -, -, this⟩ := id clean
  simp only [State.issueHeld, issues, unbroken, type1, this, clean.fetch]
  simp [Nat.not_lt.mpr covered]

/-- What a command answers that issues the illegal word `w` of opcode `op`; the free plane may then move. -/
def IssuesIllegal (s : State) (c g op : Nat) (w : TWord) (r : Res) : Prop :=
  ∃ used hold body, r = .next (s.issueHeld c g op w false used hold body) ∨
    r = .next (s.issueHeld c g op w false used hold body).pump

section
variable {s : State} {c g op : Nat} {w : TWord} {legal : Bool} (hl : legal = false) {used : List Nat} {body : State → Group → State}
include hl

theorem IssuesIllegal.of_issue : IssuesIllegal s c g op w (.next (s.issue c g op w legal used body)) := by
  subst hl
  exact ⟨_, _, _, .inl rfl⟩

theorem IssuesIllegal.of_group {effect : State → Group → Group} :
    IssuesIllegal s c g op w (.next (s.issueGroup c g op w legal used effect)) := .of_issue hl

theorem IssuesIllegal.of_memory {hold : Group → Bool} :
    IssuesIllegal s c g op w (.next (s.issueHeld c g op w legal used hold body).pump) := by
  subst hl
  exact ⟨_, _, _, .inr rfl⟩

end

/-- A command of opcode `p.1` whose guard is checked before it does anything (R128). -/
def ChecksGuard (p : Nat × ThreadCmd) : Prop :=
  ∀ (s : State) (c : Fin 512) (g : Fin 64) (w : BitVec 26), guardOk w = false → IssuesIllegal s c g p.1 w (exec (p.2 c g w) s)

theorem checksGuard : ∀ p ∈ ([(0x01, .iadd), (0x02, .isub), (0x03, .imul), (0x16, .fadd), (0x10, .mov), (0x11, .icmp), (0x1D, .cvt),
    (0x20, .iaddi), (0x28, .movl), (0x30, .ld), (0x31, .st), (0x32, .atom), (0x34, .bra)] : List (Nat × ThreadCmd)), ChecksGuard p := by
  simp only [List.forall_mem_cons, List.not_mem_nil, false_implies, implies_true, and_true]
  refine ⟨?_, ?_, ?_, ?_, ?_, ?_, ?_, ?_, ?_, ?ld, ?st, ?atom, ?bra⟩ <;> intro s c g w hg
  case ld | st | atom => exact .of_memory (by simp only [hg, Bool.false_and])
  case bra => exact .of_issue hg
  all_goals exact .of_group (by simp only [hg, Bool.false_and])

/-- R89, R128, R130: an illegal guard's instruction kills its tenant's context. -/
theorem kill_spec {s : State} {c : Fin 512} {g : Fin 64} {w : BitVec 26} {x : Group} {op : Nat} {mk : ThreadCmd}
    (checks : ChecksGuard (op, mk)) (runs : Runs s c g op w x []) (rest : AtRest s) (hg : guardOk w = false)
    (lives : s.ctxDead x.tenant = false) :
    ∃ t, exec (mk c g w) s = .next t ∧ t.rd R.tgpFault c = 0x20 + g.val * 2 ^ 8 + x.tenant % 256 * 2 ^ 16 + 2 ^ 31 ∧
      x.tenant ∈ t.tick.killed ∧ t.mem = s.mem ∧ (∀ d h y, t.group d h = some y → y.tenant ≠ x.tenant) := by
  obtain ⟨fault, killed, mem, groups, still⟩ :=
    State.threadFault_spec (c := c) (g := g) lives (show 0x20 < 256 by decide) 0 (s.instrAddr c x)
  have quiet : ((s.faultHere c g 0x20 x).schedule c).pump = (s.faultHere c g 0x20 x).schedule c :=
    State.pump_rest ((still rest).of_same rfl rfl)
  refine ⟨(s.faultHere c g 0x20 x).schedule c, ?_, ?_, killed, mem, fun d h y hy => groups d h y (by rwa [State.schedule_group] at hy)⟩
  · obtain ⟨used, hold, body, issues | issues⟩ := checks s c g w hg <;> rw [issues, runs.illegal]
    rw [quiet]
  · rw [Nat.mod_eq_of_lt g.isLt] at fault
    exact fault

/-- Settles O10: an idle access leaves through its check of the lanes, an illegal guard through the kill of its context. -/
theorem killsAndIdleLanes : Obligations.KillsAndIdleLanes := by
  unfold Obligations.KillsAndIdleLanes
  exact ⟨fun s c g w x i op rest hg idle hi runs => idle_spec rest hg idle hi runs,
    fun s c g w x op mk listed runs rest hg lives => kill_spec (checksGuard _ listed) runs rest hg lives⟩

end Sys2Proof.Machine
end

section
/-!
PROOF. LD, ST and ATOM once their checks pass: requests through a remote handle (04 R116), and the bytes of the scratchpads (04
R111, R113, R117; 03 R85). Settles O12 and O11.
-/
namespace Sys2Proof.Machine

/-! ### An access that passes its checks -/

/-- An entry that resolves through entries read without error is good. -/
theorem State.resolve_good {s : State} {c i t : Nat} {r : Resolved} (h : s.resolve c i t = some r) (named : CleanEntry s c i)
    (decides : CleanEntry s r.cluster r.index) : r.bad = false := by
  unfold State.resolve at h
  dsimp only at h
  split at h
  · split at h
    · obtain rfl := Option.some.inj h
      simp [named.good, CleanEntry.good decides]
    · cases h
  · split at h
    · obtain rfl := Option.some.inj h
      exact named.good
    · cases h

/-- The device as an access takes effect: its group is past the instruction. -/
def State.accessing (s : State) (c g : Nat) (x : Group) : State := (s.issued c g).setGroup c g x.next

section
variable {s : State} {c g op : Nat} {w : TWord} {x : Group} {regs need : List Nat} {n : Nat} {r : Resolved}
  (h : MemRuns s c g op w x regs need n r)
include h

theorem MemRuns.atRest : AtRest s := by
  obtain ⟨-, -, rest, -⟩ := h
  exact rest

theorem MemRuns.good : r.bad = false := by
  obtain ⟨-, -, -, -, -, resolves, -, -, named, decides, -⟩ := h
  exact State.resolve_good resolves named decides

theorem MemRuns.remote (kind : hType r.entry = 4) : hType r.entry = 4 ∧ r.bad = false := ⟨kind, h.good⟩

theorem MemRuns.effect (act : Group → State → Resolved → List (Nat × Nat) → State) :
    s.issueHeld c g op w true regs (s.clashes c g w n (need.contains 1)) (fun t x => t.memory c g w x need n (act x)) =
      (act x (s.accessing c g x) r (x.offsets w)).afterIssue c g := h.issue act

end

section
variable {s : State} {c : Fin 512} {g : Fin 64} {w : BitVec 26} {x : Group} {r : Resolved} (hg : guardOk w = true)
include hg

theorem exec_ld_runs (field : wS w % 4 = 0) (narrow : bit (wS w) 2 = true → wW w < 2) (even : wW w = 3 → wR w % 2 = 0)
    (runs : MemRuns s c g 0x30 w x (memRegs w (wW w = 3)) [0] (2 ^ wW w) r) :
    exec (.ld c g w) s = .next (((s.accessing c g x).ldAct c g w x r (x.offsets w)).afterIssue c g).pump :=
  (exec_ld hg field narrow even).trans
    (congrArg (fun t => Host.Outcome.next (State.pump t)) (runs.effect fun x t r offs => t.ldAct c g w x r offs))

theorem exec_st_runs (field : wS w = 0) (even : wW w = 3 → wR w % 2 = 0)
    (runs : MemRuns s c g 0x31 w x (memRegs w (wW w = 3)) [1] (2 ^ wW w) r) :
    exec (.st c g w) s = .next (((s.accessing c g x).stAct c g w x r (x.offsets w)).afterIssue c g).pump :=
  (exec_st hg field even).trans
    (congrArg (fun t => Host.Outcome.next (State.pump t)) (runs.effect fun x t r offs => t.stAct c g w x r offs))

theorem exec_atom_runs (word : wW w = 2) (even : wS w = 7 → wR w % 2 = 0)
    (runs : MemRuns s c g 0x32 w x (memRegs w (wS w = 7)) [0, 1] 4 r) :
    exec (.atom c g w) s = .next (((s.accessing c g x).atomAct c g w x r (x.offsets w)).afterIssue c g).pump :=
  (exec_atom hg word even).trans
    (congrArg (fun t => Host.Outcome.next (State.pump t)) (runs.effect fun x t r offs => t.atomAct c g w x r offs))

end

section
variable (s : State) (c g : Nat) (x : Group)

@[simp] theorem State.accessing_mem : (s.accessing c g x).mem = s.mem := by simp [State.accessing]
@[simp] theorem State.accessing_ecc : (s.accessing c g x).ecc = s.ecc := by simp [State.accessing]
@[simp] theorem State.accessing_written : (s.accessing c g x).written = s.written := by simp [State.accessing]
@[simp] theorem State.accessing_fabric : (s.accessing c g x).fabric = s.fabric := by simp [State.accessing]
@[simp] theorem State.accessing_ports : (s.accessing c g x).ports = s.ports := by simp [State.accessing]
@[simp] theorem State.accessing_tick : (s.accessing c g x).tick = s.tick := by simp [State.accessing]
@[simp] theorem State.accessing_image : (s.accessing c g x).image = s.image := by simp [State.accessing]
@[simp] theorem State.accessing_self : (s.accessing c g x).group c g = some x.next := by simp [State.accessing]

theorem State.accessing_leases (d : Nat) : ((s.accessing c g x).cluster d).leases = (s.cluster d).leases := by
  rw [State.accessing, State.setGroup_same _ _ _ _ _ Cluster.leases fun _ _ => rfl]
  exact s.issued_same Cluster.leases (fun _ _ => rfl) c g d

theorem State.accessing_others {d : Nat} (hd : d ≠ c) (k : Nat) : (s.accessing c g x).group d k = s.group d k := by
  rw [State.accessing, State.setGroup_group, if_neg (fun e => hd e.1), State.issued_group]

end

/-! ### Requests of a remote handle (R116) -/

/-- The dimensions of the span are none of the registers that an issue moves. -/
theorem State.accessing_dim (s : State) (c : Fin 512) (g : Nat) (x : Group) (d : Nat) : (s.accessing c g x).dim d = s.dim d := by
  obtain ⟨-, -, -, regs, -⟩ := s.issued_fields c g
  have apart : regKey (pageNo .spn 0) (R.spnDims.off + 4 * 0) 0 ≠ regKey (pageNo .tgp c) R.tgpNdc.off 0 := by
    simp only [regKey, pageNo, pageCode, R.spnDims, R.tgpNdc]
    omega
  have kept : mfind (s.accessing c g x).regs (regKey (pageNo .spn 0) (R.spnDims.off + 4 * 0) 0) =
      mfind s.regs (regKey (pageNo .spn 0) (R.spnDims.off + 4 * 0) 0) := by
    rw [State.accessing, State.setGroup_regs]
    exact regs _ apart
  have page : R.spnDims.page = .spn := rfl
  simp only [State.dim, State.fld, State.rd, State.rawAt, page, kept]

theorem State.accessing_hsnOf (s : State) (c : Fin 512) (g : Nat) (x : Group) (k j l a : Nat) :
    (s.accessing c g x).hsnOf k j l a = s.hsnOf k j l a := by
  simp only [State.hsnOf, State.dist, State.self, State.accessing_dim, State.accessing_tick, State.accessing_image]

/-- Where nothing waits, the requests of the executing lanes are all that waits, and the group awaits each response. -/
theorem State.remoteLanes_spec {s : State} (none_waits : s.fabric.sendq = []) (c : Fin 512) (g : Nat) (x : Group)
    (t op atom n : Nat) (e : HEntry) (l : List (Nat × Nat)) (data : Nat → List Byte) (cas : Nat → Nat) (use : Nat → ReqUse) :
    let u := ((s.accessing c g x).remoteLanes c g t op atom n e l data cas use).afterIssue c g
    u.groupIs c g { x.next with remote := x.remote + l.length } ∧ u.mem = s.mem ∧ u.fabric = { s.fabric with
      asked := s.fabric.asked + 1
      sendq := l.map (fun p => threadReq s c t e p.2 op atom n (cas p.1)
        (if op = 2 then s.hsnOf c g p.1 (hSaddr e + p.2) else 0) (data p.1) (use p.1)) } := by
  intro u
  have waits : (s.accessing c g x).modGroup c g (fun x => { x with remote := x.remote + l.length }) =
      (s.accessing c g x).setGroup c g { x.next with remote := x.remote + l.length } :=
    State.modGroup_of_some (s.accessing_self c g x) _
  have group : ((s.accessing c g x).remoteLanes c g t op atom n e l data cas use).group c g =
      some { x.next with remote := x.remote + l.length } := by
    rw [State.remoteLanes, State.modFab_group, waits, State.setGroup_self]
  refine ⟨(State.afterIssue_groups group).1, by simp [u, State.remoteLanes], ?_⟩
  rw [State.afterIssue_fabric, State.remoteLanes, State.modFab_fabric, waits]
  simp only [State.setGroup_fabric, State.accessing_fabric, State.accessing_tick, State.accessing_hsnOf, none_waits,
    List.nil_append, threadReq]

/-- A load that sign-extends, with no reserved bit set, has s = 4 (Table 04-3). -/
theorem wS_of_signed {w : TWord} (field : wS w % 4 = 0) (sx : bit (wS w) 2 = true) : wS w = 4 := by
  have small : wS w < 8 := Nat.mod_lt _ (by decide)
  have signed : wS w / 2 ^ 2 % 2 = 1 := by simpa [bit] using sx
  omega

/-- Settles O12: the checks pass, and the executing lanes' requests join an empty queue. -/
theorem remoteAccess : Obligations.RemoteAccess := by
  unfold Obligations.RemoteAccess
  intro s c g w x r n e y sends kind hg
  have sent {i : Instr} {op atom m : Nat} {data : Nat → List Byte} {cas : Nat → Nat} {use : Nat → ReqUse} (rest : AtRest s)
      (runs : exec i s = .next (((s.accessing c g x).remoteLanes c g x.tenant op atom m e (x.offsets w) data cas use).afterIssue
        c g).pump) :
      sends i (fun p => threadReq s c x.tenant e p.2 op atom m (cas p.1)
        (if op = 2 then s.hsnOf c g p.1 (hSaddr e + p.2) else 0) (data p.1) (use p.1)) :=
    ⟨_, runs, State.remoteLanes_spec rest.1 ..⟩
  refine ⟨fun field narrow even runs => ?ld, fun field even runs => ?st, fun word even runs => ?atom⟩
  case ld =>
    have issued := exec_ld_runs hg field (fun sx => narrow (wS_of_signed field sx)) even runs
    rw [State.ldAct, if_pos (runs.remote kind)] at issued
    exact sent runs.atRest issued
  case st =>
    have issued := exec_st_runs hg field even runs
    rw [State.stAct, if_pos (runs.remote kind)] at issued
    exact sent runs.atRest issued
  case atom =>
    have issued := exec_atom_runs hg word even runs
    rw [State.atomAct, if_pos (runs.remote kind)] at issued
    simpa only [beq_iff_eq, if_true] using sent runs.atRest issued

end Sys2Proof.Machine
end

section
/-!
PROOF. LD, ST and ATOM on scratchpad memory (03 R85; 04 R111, R113, R117): what each reads and writes, and what it leaves.
Settles O11.
-/
namespace Sys2Proof.Machine

/-! ### After a local access -/

@[simp] theorem State.afterIssue_written (s : State) (c g : Nat) : (s.afterIssue c g).written = s.written := by
  simp [State.afterIssue]

theorem State.afterIssue_others (s : State) {c g d : Nat} {y : Group} (hy : s.group c g = some y) (hd : d ≠ c) (k : Nat) :
    (s.afterIssue c g).group d k = s.group d k := by
  rw [State.afterIssue_of_some hy, State.schedule_group, State.setGroup_group, if_neg (fun e => hd e.1)]

/-- An access that moves nothing of the free plane and no other cluster's group, with its group become `y`. -/
structure Accessed (s u : State) (c g : Nat) (y : Group) : Prop where
  group : u.group c g = some y
  others : ∀ d, d ≠ c → ∀ k, u.group d k = s.group d k
  fabric : u.fabric = s.fabric
  ports : u.ports = s.ports

/-- Reads and writes of memory leave the group past its instruction. -/
theorem ScrubOnly.accessed {s u : State} {c g : Nat} {x : Group} (h : ScrubOnly (s.accessing c g x) u) :
    Accessed s u c g x.next := by
  have groups (d : Nat) : u.group d = (s.accessing c g x).group d :=
    State.group_of_cluster (h.same Cluster.groups (fun _ _ => rfl) d)
  exact ⟨by rw [groups, State.accessing_self], fun d hd k => by rw [groups, State.accessing_others _ _ _ _ hd],
    by rw [h.fabric, State.accessing_fabric], by rw [h.ports, State.accessing_ports]⟩

theorem Accessed.setGroup {s u : State} {c g : Nat} {x : Group} (h : Accessed s u c g x) (y : Group) :
    Accessed s (u.setGroup c g y) c g y :=
  ⟨by simp, fun d hd k => by rw [State.setGroup_group, if_neg (fun e => hd e.1), h.others d hd], by simp [h.fabric],
    by simp [h.ports]⟩

/-- After its issue the free plane is at rest, and the group is `y`. -/
theorem Accessed.afterIssue {s u : State} {c g : Nat} {y : Group} (h : Accessed s u c g y) (rest : AtRest s) :
    (u.afterIssue c g).pump = u.afterIssue c g ∧ (u.afterIssue c g).groupIs c g y ∧
      ∀ d, d ≠ c → ∀ k, (u.afterIssue c g).group d k = s.group d k :=
  ⟨State.pump_rest (rest.of_same (by simp [h.fabric]) (by simp [h.ports])), (State.afterIssue_groups h.group).1,
    fun d hd k => (State.afterIssue_others u h.group hd k).trans (h.others d hd k)⟩

/-! ### LD (R111, R113) -/

theorem loadWords_length (n : Nat) (sx : Bool) (d : List Byte) : (loadWords n sx d).length = if n = 8 then 2 else 1 := by
  unfold loadWords
  dsimp only
  split
  · rfl
  · split <;> rfl

theorem two_pow_eq_eight {k : Nat} : 2 ^ k = 8 ↔ k = 3 := by
  rw [show 8 = 2 ^ 3 from rfl]
  exact Nat.pow_right_inj (le_refl 2)

/-- The words written to t[r] and up of lane `l`, and the registers left. -/
theorem Group.setWords_treg (x : Group) {r l q j : Nat} (v : List Word) (hl : l < 32) (hj : j < 32) :
    (x.setWords r l v).treg q j = if j = l ∧ r ≤ q ∧ q < r + v.length then v.getD (q - r) 0#32 else x.treg q j := by
  induction v generalizing x r with
  | nil => rw [if_neg (by simp)]; rfl
  | cons a v ih =>
    rw [Group.setWords, ih, Group.setT_treg, List.length_cons]
    by_cases lane : j = l
    case neg => simp [lane, show ¬ q * 32 + j = r * 32 + l by omega]
    subst lane
    by_cases first : q = r
    · subst first
      simp
    · by_cases below : q < r
      · simp [first, show ¬ r + 1 ≤ q by omega, show ¬ r ≤ q by omega]
      · simp [first, show r + 1 ≤ q by omega, show r ≤ q by omega, show q - r = q - (r + 1) + 1 by omega,
          show q < r + 1 + v.length ↔ q < r + (v.length + 1) by omega]

/-- Each lane of a load writes its own words. -/
theorem Group.foldWords_treg (x : Group) (r : Nat) (v : Nat → List Word) (ls : List Nat) (hl : ∀ l ∈ ls, l < 32) {q j : Nat}
    (hj : j < 32) : (ls.foldl (fun y l => y.setWords r l (v l)) x).treg q j =
      if j ∈ ls ∧ r ≤ q ∧ q < r + (v j).length then (v j).getD (q - r) 0#32 else x.treg q j := by
  induction ls generalizing x with
  | nil => simp
  | cons a ls ih =>
    rw [List.foldl_cons, ih _ (fun b hb => hl b (List.mem_cons_of_mem _ hb)), Group.setWords_treg x (v a) (hl a List.mem_cons_self) hj]
    simp only [List.mem_cons]
    by_cases lane : j = a
    · subst lane
      by_cases written : r ≤ q ∧ q < r + (v j).length <;> simp [written]
    · simp [lane]

theorem Group.setWords_fields (x : Group) (r l : Nat) (v : List Word) : x.setWords r l v = { x with t := (x.setWords r l v).t } := by
  induction v generalizing x r with
  | nil => rfl
  | cons a v ih =>
    rw [Group.setWords, ih]
    rfl

theorem Group.foldWords_fields (x : Group) (r : Nat) (v : Nat → List Word) (ls : List Nat) :
    ls.foldl (fun y l => y.setWords r l (v l)) x = { x with t := (ls.foldl (fun y l => y.setWords r l (v l)) x).t } := by
  induction ls generalizing x with
  | nil => rfl
  | cons a ls ih =>
    rw [List.foldl_cons, ih, Group.setWords_fields]

/-- The bytes that a lane of a load reads from memory. -/
def State.laneBytes (s : State) (r : Resolved) (o n : Nat) : List Byte := (laneAddrs r o n false).map s.byte

theorem State.accessing_byte (s : State) (c g : Nat) (x : Group) : (s.accessing c g x).byte = s.byte := by
  funext a
  rw [State.byte, State.accessing_mem, State.byte]

section
variable {s : State} {c g : Nat} {x : Group} {loc : Bool} {as : List Nat}

theorem CleanBytes.accessing (h : CleanBytes s 3 as) : CleanBytes (s.accessing c g x) 3 as :=
  h.of (s.accessing_ecc c g x) (s.accessing_leases c g x)

theorem ReadsMemory.accessing (h : ReadsMemory s 3 loc as) : ReadsMemory (s.accessing c g x) 3 loc as :=
  h.of (s.accessing_ecc c g x) (s.accessing_leases c g x) (s.accessing_written c g x)

end

theorem CleanBytes.flatMap {s : State} {g : Nat} {α : Type} {l : List α} {f : α → List Nat} (h : ∀ p ∈ l, CleanBytes s g (f p)) :
    CleanBytes s g (l.flatMap f) := by
  intro a ha
  obtain ⟨p, hp, hpa⟩ := List.mem_flatMap.mp ha
  exact h p hp a hpa

/-- A load whose lanes read memory as it stands takes one free draw and answers its bytes. -/
theorem State.load_clean {s : State} {r : Resolved} {n : Nat} {offs : List (Nat × Nat)} (good : r.bad = false)
    (reads : ∀ p ∈ offs, ReadsMemory s 3 (hKind r.entry == 0) (laneAddrs r p.2 n false)) (t : Nat) :
    s.afterLoad r t n offs = s.draw ∧ s.loadLanes r n offs = offs.map (fun p => (p.1, s.laneBytes r p.2 n)) := by
  constructor
  · simp only [State.afterLoad, good, Bool.false_eq_true, if_false]
    exact (CleanBytes.flatMap fun p hp => (reads p hp).1).afterRead
  · simp only [State.loadLanes, good, Bool.false_eq_true, if_false]
    refine List.map_congr_left fun p hp => congrArg (p.1, ·) ?_
    exact zipIdx_map_fst s.byte _ _ 0 fun a ha => (reads p hp).byte ha _

/-- A group past its load, where lane `l` writes the words `v l`. -/
def Group.loaded (x : Group) (w : TWord) (v : Nat → List Word) : Group :=
  (lanes (x.ex w)).foldl (fun y l => y.setWords (wR w) l (v l)) x.next

theorem Group.loaded_fields (x : Group) (w : TWord) (v : Nat → List Word) :
    x.loaded w v = { x with pc := (x.pc + 4) % 2 ^ 32, t := (x.loaded w v).t } :=
  Group.foldWords_fields x.next (wR w) v (lanes (x.ex w))

theorem Group.loaded_treg (x : Group) (w : TWord) (v : Nat → List Word) {q l : Nat} (hl : l < 32) :
    (x.loaded w v).treg q l = if (x.ex w).getLsbD l = true ∧ wR w ≤ q ∧ q < wR w + (v l).length then (v l).getD (q - wR w) 0#32
      else x.treg q l := by
  have written := Group.foldWords_treg x.next (wR w) v (lanes (x.ex w)) (fun k hk => (lanes_mem.mp hk).1) (q := q) hl
  simp only [lanes_mem, hl, true_and] at written
  exact written

/-- A load of a scratchpad leaves its group with each executing lane's words written (R111, R113). -/
theorem State.ldAct_local {s : State} {c g : Nat} {w : TWord} {x : Group} {r : Resolved} (local1 : hType r.entry = 1)
    (good : r.bad = false)
    (reads : ∀ p ∈ x.offsets w, ReadsMemory s 3 (hKind r.entry == 0) (laneAddrs r p.2 (2 ^ wW w) false)) :
    s.ldAct c g w x r (x.offsets w) = s.draw.setGroup c g (x.loaded w (fun l =>
      loadWords (2 ^ wW w) (bit (wS w) 2) (s.laneBytes r (x.treg (wA w) l).toNat (2 ^ wW w)))) := by
  obtain ⟨after, bytes⟩ := State.load_clean good reads x.tenant
  rw [State.ldAct, if_neg (by simp [local1]), after, bytes, Group.loaded, Group.offsets, List.map_map, List.foldl_map]
  rfl

/-- R111, R113: LD of a type 1 handle. -/
theorem ld_local_spec {s : State} {c : Fin 512} {g : Fin 64} {w : BitVec 26} {x : Group} {r : Resolved}
    (hg : guardOk w = true) (field : wS w % 4 = 0) (narrow : bit (wS w) 2 = true → wW w < 2) (even : wW w = 3 → wR w % 2 = 0)
    (runs : MemRuns s c g 0x30 w x (memRegs w (wW w = 3)) [0] (2 ^ wW w) r) (local1 : hType r.entry = 1)
    (reads : ∀ p ∈ x.offsets w, ReadsMemory s 3 (hKind r.entry == 0) (laneAddrs r p.2 (2 ^ wW w) false)) :
    ∃ t, exec (.ld c g w) s = .next t ∧ t.groupIs c g (x.loaded w (fun l =>
        loadWords (2 ^ wW w) (bit (wS w) 2) (s.laneBytes r (x.treg (wA w) l).toNat (2 ^ wW w)))) ∧
      t.mem = s.mem ∧ t.written = s.written ∧ ∀ d, d ≠ c.val → ∀ h, t.group d h = s.group d h := by
  have issued := exec_ld_runs hg field narrow even runs
  have bytes : (s.accessing c g x).laneBytes r = s.laneBytes r := by
    funext o n
    rw [State.laneBytes, State.accessing_byte, State.laneBytes]
  rw [State.ldAct_local local1 runs.good fun p hp => (reads p hp).accessing, bytes] at issued
  obtain ⟨rests, is, others⟩ := (((State.draw_scrubOnly _).accessed (s := s) (c := c) (g := g) (x := x)).setGroup _).afterIssue runs.atRest
  rw [rests] at issued
  exact ⟨_, issued, is, by simp, by simp, others⟩

/-! ### Writes of clean bytes (R83, R201) -/

/-- Words without a SECDED error still have none, and bytes written in the attempt stay so. -/
structure KeepsClean (s t : State) : Prop where
  ecc : ∀ a, s.eccOf a = 0 → t.eccOf a = 0
  written : ∀ a, a ∈ s.written → a ∈ t.written

theorem KeepsClean.of_same {s t : State} (he : t.ecc = s.ecc) (hw : t.written = s.written) : KeepsClean s t :=
  ⟨fun a h => by rwa [State.eccOf, he], fun a h => by rwa [hw]⟩

theorem KeepsClean.refl (s : State) : KeepsClean s s := .of_same rfl rfl

theorem KeepsClean.trans {s t u : State} (h : KeepsClean s t) (h' : KeepsClean t u) : KeepsClean s u :=
  ⟨fun a ha => h'.ecc a (h.ecc a ha), fun a ha => h'.written a (h.written a ha)⟩

theorem State.wbCancel_keepsClean (s : State) (a : Nat) : KeepsClean s (s.wbCancel a) := by
  unfold State.wbCancel
  extract_lets c p b v s1
  have same : s1.ecc = s.ecc ∧ s1.written = s.written := by
    simp only [s1, State.modScrub]
    split <;> exact ⟨rfl, rfl⟩
  obtain ⟨ecc, written⟩ := same
  split
  · split
    · exact .of_same (by rw [State.cnt_ecc, ecc]) (by rw [State.cnt_written, written])
    · exact .of_same ecc written
  · exact .refl s

/-- A write that reaches a clean word, fully or in part. -/
theorem State.wordWritten_keepsClean {s : State} {a : Nat} (clean : s.eccOf a = 0) (full : Bool) (src t : Nat) :
    KeepsClean s (s.wordWritten a full src t) := by
  have cancelled := s.wbCancel_keepsClean a
  unfold State.wordWritten
  cases full
  case false => simpa only [Bool.false_eq_true, if_false, cancelled.ecc a clean] using cancelled
  case true =>
    refine cancelled.trans ⟨fun b hb => ?_, fun b hb => hb⟩
    simp only [State.eccOf, mget, if_true, mfind_merase] at hb ⊢
    by_cases same : b / 8 = a / 8
    · simp [same]
    · simpa [same] using hb

theorem KeepsClean.each {l : List Nat} {f : State → Nat → State} (h : ∀ s a, s.eccOf a = 0 → KeepsClean s (f s a)) {s : State}
    (clean : ∀ a ∈ l, s.eccOf a = 0) : KeepsClean s (s.each l f) := by
  induction l generalizing s with
  | nil => exact .refl s
  | cons a l ih =>
    have first := h s a (clean a List.mem_cons_self)
    exact first.trans (ih fun b hb => first.ecc b (clean b (List.mem_cons_of_mem _ hb)))

theorem State.storeAt_keepsClean (s : State) (l : List (Nat × Byte)) :
    KeepsClean s (s.storeAt l) ∧ ∀ a ∈ l.map (·.1), a ∈ (s.storeAt l).written := by
  induction l generalizing s with
  | nil => exact ⟨.refl s, by simp⟩
  | cons p l ih =>
    obtain ⟨a, b⟩ := p
    obtain ⟨keeps, stored⟩ := ih { s.setByte a b with written := addOnce s.written a }
    have first : KeepsClean s { s.setByte a b with written := addOnce s.written a } :=
      ⟨fun _ h => h, fun _ h => (mem_addOnce_iff ..).mpr (.inl h)⟩
    refine ⟨first.trans keeps, fun k hk => ?_⟩
    obtain rfl | hk := List.mem_cons.mp hk
    · exact keeps.written _ (mem_addOnce ..)
    · exact stored k hk

/-- A write of clean bytes keeps words clean, and each of its bytes is written in the attempt. -/
theorem State.writeBytes_keepsClean {s : State} {g : Nat} {as : List Nat} (h : CleanBytes s g as) (src t : Nat) (data : List Byte) :
    KeepsClean s (s.writeBytes g src t as data) ∧ ∀ a ∈ (as.zip data).map (·.1), a ∈ (s.writeBytes g src t as data).written := by
  have served : (as.zip data).filter (fun p => !s.lost g p.1) = as.zip data := by
    rw [List.filter_eq_self]
    rintro ⟨a, b⟩ hp
    simp [h.lost (List.of_mem_zip hp).1]
  have clean : ∀ a ∈ wordsOf ((as.zip data).map (·.1)), s.eccOf a = 0 := fun a ha =>
    wordsOf_clean h a (wordsOf_sub (fun b hb => by
      obtain ⟨p, hp, rfl⟩ := List.mem_map.mp hb
      exact (List.of_mem_zip hp).1) a ha)
  simp only [State.writeBytes, served]
  generalize hv : s.each (wordsOf ((as.zip data).map (·.1))) _ = v
  have words : KeepsClean s v := hv ▸ KeepsClean.each (fun s a ha => State.wordWritten_keepsClean ha _ src t) clean
  obtain ⟨keeps, stored⟩ := v.storeAt_keepsClean (as.zip data)
  exact ⟨words.trans (keeps.trans (.of_same rfl rfl)), stored⟩

/-! ### ST (R85, R111, R113) -/

theorem length_leBytes (n x : Nat) : (leBytes n x).length = n := by
  induction n generalizing x with
  | zero => rfl
  | succ n ih => rw [leBytes, List.length_cons, ih]

/-- The bytes that the executing lanes of a store write, lanes ascending. -/
def Group.stores (x : Group) (w : TWord) (r : Resolved) (n : Nat) : List (Nat × Byte) :=
  (x.offsets w).flatMap (fun p => (laneAddrs r p.2 n true).zip (x.storeBytes (wR w) n p.1))

/-- Lists of equal lengths, joined, pair off as they do one by one. -/
theorem zip_flatMap {α β γ : Type} {f : α → List β} {h : α → List γ} (same : ∀ p, (f p).length = (h p).length) (l : List α) :
    (l.flatMap f).zip (l.flatMap h) = l.flatMap (fun p => (f p).zip (h p)) := by
  induction l with
  | nil => rfl
  | cons p l ih => rw [List.flatMap_cons, List.flatMap_cons, List.flatMap_cons, List.zip_append (same p), ih]

/-- A store to a scratchpad writes each executing lane's bytes, lanes ascending. -/
theorem State.stAct_local {s : State} {c g : Nat} {w : TWord} {x : Group} {r : Resolved} (local1 : hType r.entry = 1)
    (good : r.bad = false) : s.stAct c g w x r (x.offsets w) =
      s.writeBytes 3 7 x.tenant ((x.offsets w).flatMap (fun p => laneAddrs r p.2 (2 ^ wW w) true))
        ((x.offsets w).flatMap (fun p => x.storeBytes (wR w) (2 ^ wW w) p.1)) := by
  simp only [State.stAct, local1, State.storeLanes, good, Group.storeBytes, List.flatMap_map, length_leBytes]
  rfl

/-- Bytes at none of the addresses stored stay. -/
theorem State.byte_of_storedIn {s t : State} {l : List (Nat × Byte)} (h : t.mem = storedIn s.mem l) {a : Nat}
    (apart : a ∉ l.map (·.1)) : t.byte a = s.byte a := by
  rw [State.byte, h]
  exact storedIn_ne fun p hp e => apart (e ▸ List.mem_map_of_mem (f := (·.1)) hp)

theorem Group.stores_addr {x : Group} {w : TWord} {r : Resolved} {n a : Nat} (h : a ∈ (x.stores w r n).map (·.1)) :
    ∃ p ∈ x.offsets w, a ∈ laneAddrs r p.2 n true := by
  obtain ⟨q, hq, rfl⟩ := List.mem_map.mp h
  obtain ⟨p, hp, hz⟩ := List.mem_flatMap.mp hq
  exact ⟨p, hp, (List.of_mem_zip hz).1⟩

/-- R85, R111, R113: ST of a type 1 handle. -/
theorem st_local_spec {s : State} {c : Fin 512} {g : Fin 64} {w : BitVec 26} {x : Group} {r : Resolved}
    (hg : guardOk w = true) (field : wS w = 0) (even : wW w = 3 → wR w % 2 = 0)
    (runs : MemRuns s c g 0x31 w x (memRegs w (wW w = 3)) [1] (2 ^ wW w) r) (local1 : hType r.entry = 1)
    (clean : ∀ p ∈ x.offsets w, CleanBytes s 3 (laneAddrs r p.2 (2 ^ wW w) true)) :
    ∃ t, exec (.st c g w) s = .next t ∧ t.groupIs c g x.next ∧ t.mem = storedIn s.mem (x.stores w r (2 ^ wW w)) ∧
      (∀ a ∈ (x.stores w r (2 ^ wW w)).map (·.1), a ∈ t.written) ∧ ∀ d, d ≠ c.val → ∀ h, t.group d h = s.group d h := by
  have issued := exec_st_runs hg field even runs
  rw [State.stAct_local local1 runs.good] at issued
  have cleans := (CleanBytes.flatMap clean).accessing (c := c) (g := g) (x := x)
  set data := (x.offsets w).flatMap (fun p => x.storeBytes (wR w) (2 ^ wW w) p.1)
  have pairs : ((x.offsets w).flatMap (fun p => laneAddrs r p.2 (2 ^ wW w) true)).zip data = x.stores w r (2 ^ wW w) :=
    zip_flatMap (fun p => by simp [laneAddrs, hAddrs, Group.storeBytes, length_leBytes]) _
  have mem := State.writeBytes_mem cleans 7 x.tenant data
  obtain ⟨-, written⟩ := State.writeBytes_keepsClean cleans 7 x.tenant data
  rw [pairs] at mem written
  obtain ⟨rests, is, others⟩ := (State.writeBytes_scrubOnly ..).accessed.afterIssue (y := x.next) runs.atRest
  rw [rests] at issued
  exact ⟨_, issued, is, by simpa using mem, by simpa using written, others⟩

/-! ### ATOM (R117) -/

theorem KeepsClean.reads {s t : State} (h : KeepsClean s t) (leases : ∀ d, (t.cluster d).leases = (s.cluster d).leases)
    {g : Nat} {loc : Bool} {as : List Nat} (reads : ReadsMemory s g loc as) : ReadsMemory t g loc as := by
  obtain ⟨clean, written⟩ := reads
  refine ⟨fun a ha => ?_, fun hl a ha => h.written a (written hl a ha)⟩
  obtain ⟨ecc, leased⟩ := clean a ha
  exact ⟨h.ecc a ecc, by simpa only [State.leased, leases] using leased⟩

/-- One lane's atomic on memory as it stands: what it answers, and what it leaves (R117). -/
theorem State.atomLane_clean {s : State} {r : Resolved} {o : Nat} (good : r.bad = false)
    (reads : ReadsMemory s 3 (hKind r.entry == 0) (laneAddrs r o 4 true)) (t op : Nat) (v cas : Word) :
    let old := w32 (leNat ((laneAddrs r o 4 true).map (mget 0#8 s.mem)))
    let u := (s.atomLane r t op o v cas).1
    (s.atomLane r t op o v cas).2 = old ∧
      u.mem = storedIn s.mem ((laneAddrs r o 4 true).zip (leBytes 4 (atomNew op old v cas).toNat)) ∧
      ScrubOnly s u ∧ KeepsClean s u := by
  intro old u
  have drawn : CleanBytes s.draw 3 (laneAddrs r o 4 true) := reads.1
  have lane : s.atomLane r t op o v cas =
      (s.draw.writeBytes 3 7 t (laneAddrs r o 4 true) (leBytes 4 (atomNew op old v cas).toNat), old) := by
    simp only [State.atomLane, good, Bool.false_eq_true, if_false, reads.1.afterRead, reads.bytes]
    rfl
  have def_u : u = s.draw.writeBytes 3 7 t (laneAddrs r o 4 true) (leBytes 4 (atomNew op old v cas).toNat) :=
    congrArg Prod.fst lane
  rw [def_u]
  exact ⟨congrArg Prod.snd lane, State.writeBytes_mem drawn .., s.draw_scrubOnly.trans (State.writeBytes_scrubOnly ..),
    (KeepsClean.of_same rfl rfl : KeepsClean s s.draw).trans (State.writeBytes_keepsClean drawn ..).1⟩

/-- The lanes of an atomic run on memory as `atomRun` has them, one after the other. -/
theorem State.atomLanes_clean {r : Resolved} (good : r.bad = false) (t op reg : Nat) {l : List (Nat × Nat)} {s : State} {x : Group}
    (reads : ∀ p ∈ l, ReadsMemory s 3 (hKind r.entry == 0) (laneAddrs r p.2 4 true)) :
    (s.atomLanes r t op reg x l).1.mem = (atomRun r op reg s.mem x l).1 ∧
      (s.atomLanes r t op reg x l).2 = (atomRun r op reg s.mem x l).2 ∧ ScrubOnly s (s.atomLanes r t op reg x l).1 := by
  induction l generalizing s x with
  | nil => exact ⟨rfl, rfl, .refl s⟩
  | cons p l ih =>
    obtain ⟨ln, o⟩ := p
    have lane := State.atomLane_clean good (reads (ln, o) List.mem_cons_self) t op (x.treg reg ln) (x.treg (reg + 1) ln)
    simp only [State.atomLanes, atomRun]
    generalize s.atomLane r t op o (x.treg reg ln) (x.treg (reg + 1) ln) = answer at lane ⊢
    obtain ⟨u, word⟩ := answer
    obtain ⟨rfl, mem, scrub, clean⟩ := lane
    obtain ⟨mems, groups, scrubs⟩ := ih fun q hq =>
      clean.reads (scrub.same Cluster.leases fun _ _ => rfl) (reads q (List.mem_cons_of_mem _ hq))
    rw [← mem]
    exact ⟨mems, groups, scrub.trans scrubs⟩

/-- An atomic leaves the bytes that are none of its lanes'. -/
theorem atomRun_apart {r : Resolved} {op reg a : Nat} {l : List (Nat × Nat)} (apart : ∀ p ∈ l, a ∉ laneAddrs r p.2 4 true)
    (m : List Host.Cell) (x : Group) : mget 0#8 (atomRun r op reg m x l).1 a = mget 0#8 m a := by
  induction l generalizing m x with
  | nil => rfl
  | cons p l ih =>
    rw [atomRun, ih fun q hq => apart q (List.mem_cons_of_mem _ hq)]
    exact storedIn_ne fun q hq e => apart p List.mem_cons_self (e ▸ (List.of_mem_zip hq).1)

/-- R117: ATOM of a type 1 handle. -/
theorem atom_local_spec {s : State} {c : Fin 512} {g : Fin 64} {w : BitVec 26} {x : Group} {r : Resolved}
    (hg : guardOk w = true) (word : wW w = 2) (even : wS w = 7 → wR w % 2 = 0)
    (runs : MemRuns s c g 0x32 w x (memRegs w (wS w = 7)) [0, 1] 4 r) (local1 : hType r.entry = 1)
    (reads : ∀ p ∈ x.offsets w, ReadsMemory s 3 (hKind r.entry == 0) (laneAddrs r p.2 4 true)) :
    ∃ t, exec (.atom c g w) s = .next t ∧ t.mem = (atomRun r (wS w) (wR w) s.mem x.next (x.offsets w)).1 ∧
      t.groupIs c g (atomRun r (wS w) (wR w) s.mem x.next (x.offsets w)).2 ∧ ∀ d, d ≠ c.val → ∀ h, t.group d h = s.group d h := by
  have issued := exec_atom_runs hg word even runs
  obtain ⟨mem, group, scrub⟩ := State.atomLanes_clean runs.good x.tenant (wS w) (wR w) (x := x.next)
    fun p hp => (reads p hp).accessing (c := c) (g := g) (x := x)
  rw [State.accessing_mem] at mem group
  rw [State.atomAct, if_neg (by simp [local1]), group] at issued
  obtain ⟨rests, is, others⟩ := (scrub.accessed.setGroup _).afterIssue runs.atRest
  rw [rests] at issued
  exact ⟨_, issued, by simpa using mem, is, others⟩

/-! ### The obligation -/

/-- Settles O11: each access is one effect on memory and on its group, which the words written, the bytes stored and the lanes'
runs spell out register by register and byte by byte. -/
theorem localMemory : Obligations.LocalMemory := by
  unfold Obligations.LocalMemory
  refine ⟨fun s c g w x r => ?ld, fun s c g w x r => ?st, fun s c g w x r => ?atom⟩
  case ld =>
    intro n sx v hg field narrow even runs local1 reads
    obtain ⟨t, runs, is, mem, written, others⟩ := ld_local_spec hg field narrow even runs local1 reads
    have length (l : Nat) : (v l).length = if wW w = 3 then 2 else 1 := by
      simp only [v, loadWords_length, n, two_pow_eq_eight]
    refine ⟨t, x.loaded w v, runs, is, x.loaded_fields w v, fun l hl ex => ⟨?_, fun wide => ?_⟩, fun l hl idle k => ?_,
      fun k l hl first second => ?_, mem, written, others⟩
    · rw [x.loaded_treg w v hl, if_pos ⟨ex, le_rfl, by rw [length]; split <;> omega⟩, Nat.sub_self]
      cases v l <;> rfl
    · rw [x.loaded_treg w v hl, if_pos ⟨ex, by omega, by rw [length, if_pos wide]; omega⟩, Nat.add_sub_cancel_left]
    · rw [x.loaded_treg w v hl, if_neg (by simp [idle])]
    · rw [x.loaded_treg w v hl, if_neg]
      rintro ⟨-, above, below⟩
      rw [length] at below
      split at below
      · rename_i wide
        have := second wide
        omega
      · omega
  case st =>
    intro n as stores hg field even runs local1 clean
    obtain ⟨t, runs, is, mem, written, others⟩ := st_local_spec hg field even runs local1 clean
    refine ⟨t, runs, is, mem, fun a apart => State.byte_of_storedIn mem fun stored => ?_, fun a ha _ => written a ha, others⟩
    obtain ⟨p, hp, hpa⟩ := Group.stores_addr stored
    exact apart p hp hpa
  case atom =>
    intro as hg word even runs local1 reads
    obtain ⟨t, runs, mem, is, others⟩ := atom_local_spec hg word even runs local1 reads
    refine ⟨t, runs, mem, is, fun a apart => ?_, others⟩
    rw [State.byte, mem]
    exact atomRun_apart apart _ _

end Sys2Proof.Machine
end

section
/-!
PROOF. A sequencer word that issues, and the hand-over of a descriptor to its engine (05 R143, R145; 06 R154 to R160).
-/
namespace Sys2Proof.Machine

/-! ### A word that issues (R154 to R158, R170, R171) -/

/-- A context that runs may issue the word at its pc. -/
theorem SeqRuns.mayIssue {s : State} {c k kind : Nat} {w : QWord} (h : SeqRuns s c k w kind) : s.mayIssueSeq c k w = true := by
  obtain ⟨runs, -, -, covered, -, -, clean, word⟩ := h
  simp [State.mayIssueSeq, State.seqFetched, runs, Nat.not_lt.mpr covered, clean, word]

/-- A legal word that runs has its effect, in a context that may run it. -/
theorem SeqRuns.issueSeq {s : State} {c k kind : Nat} {w : QWord} (h : SeqRuns s c k w kind) {lease tenant : Bool}
    (allowed : (if k = 8 then lease else tenant) = true) (body : State → Ctx → State) :
    s.issueSeq c k w kind true lease tenant body = body s (s.ctx c k) := by
  have issues := h.mayIssue
  obtain ⟨-, held, alone, covered, kind_is, reserved, clean, -⟩ := h
  have past : s.passHold c k = s := by simp [State.passHold, held]
  have same : s.touch (s.codeAt c k (s.ctx c k).pc) 6 (s.ctxEntry c k).tenant = s := State.touch_clean clean
  simp [State.issueSeq, past, issues, otherKind, kind_is, alone, State.when, Nat.not_lt.mpr covered, reserved, allowed,
    clean, same]

/-! ### Engines of a cluster (R145) -/

theorem Cluster.setEngine_engine (k : Cluster) {n m : Nat} (e : Engine) (hn : n < 3) (hm : m < 3) :
    (k.setEngine n e).engine m = if m = n then e else k.engine m := by
  interval_cases n <;> interval_cases m <;> rfl

section
variable (k : Cluster) (n : Nat) (e : Engine)

@[simp] theorem Cluster.setEngine_ctxs : (k.setEngine n e).ctxs = k.ctxs := by unfold Cluster.setEngine; split <;> rfl
@[simp] theorem Cluster.setEngine_groups : (k.setEngine n e).groups = k.groups := by unfold Cluster.setEngine; split <;> rfl
@[simp] theorem Cluster.setEngine_leases : (k.setEngine n e).leases = k.leases := by unfold Cluster.setEngine; split <;> rfl

end

/-- An engine with a free queue entry runs a descriptor at once when it is idle, and queues it behind a running one. -/
theorem Engine.take_free {e : Engine} (h : e.queued = none) (d : Desc) :
    e.take d = if e.running = none then ⟨some d, none⟩ else ⟨e.running, some d⟩ := by
  obtain ⟨running, queued⟩ := e
  subst h
  cases running <;> rfl

/-! ### Hand-over (R143, R160) -/

/-- The descriptor at offset `off` of a context's code region, as engine `n` takes it. -/
def State.descAt (s : State) (c k n off : Nat) : Desc :=
  let b := s.bytes (s.codeAt c k off) (descSize n)
  ⟨(s.ctxEntry c k).tenant, k, off, b, s.descClk c (s.ctxEntry c k).tenant n b, 0, false, s.fabric.asked,
    (s.cluster c).leases.getD n 0#32, (s.cluster c).leases.getD n 0#32⟩

/-- The device with the context past its word and the descriptor with engine `n`. -/
def State.handed (s : State) (c k n : Nat) (w : QWord) (d : Desc) : State :=
  ((s.setCtx c k (pastWord s c k w)).modCluster c (fun q => q.setEngine n ((q.engine n).take d))).modFab
    (fun f => { f with asked := f.asked + 1 })

/-- A descriptor that is read without error, as the entries of its handles are, and passes its checks is handed over. -/
theorem State.hand_passes {s : State} {c k n off : Nat} (w : QWord)
    (clean : ∀ a ∈ wordsOf ((List.range (descSize n)).map (fun i => s.codeAt c k off + i)), s.eccOf a = 0)
    (entries : ∀ p ∈ (opsOf n (s.descAt c k n off).bytes).flatMap
      (fun o => s.operandEntries c (s.ctxEntry c k).tenant (n == 2) o), CleanEntry s p.1 p.2)
    (passes : s.checkDesc c (s.ctxEntry c k).tenant n (s.descAt c k n off).bytes = none) :
    s.hand c k n off w = s.handed c k n w (s.descAt c k n off) := by
  have read (t : Nat) : s.each (wordsOf ((List.range (descSize n)).map (fun i => s.codeAt c k off + i)))
      (fun u x => u.touch x 6 t) = s := State.each_same fun a ha => State.touch_clean (clean a ha)
  have named (src t : Nat) : s.each ((opsOf n (s.descAt c k n off).bytes).flatMap
      (fun o => s.operandEntries c (s.ctxEntry c k).tenant (n == 2) o)) (fun u p => u.touchEntry p.1 p.2 src t) = s :=
    State.each_same fun p hp => (entries p hp).touch src t
  have good : ((opsOf n (s.descAt c k n off).bytes).flatMap
      (fun o => s.operandEntries c (s.ctxEntry c k).tenant (n == 2) o)).any (fun p => s.entryBad p.1 p.2) = false := by
    rw [List.any_eq_false]
    intro p hp
    simp [(entries p hp).good]
  have leases : ((s.setCtx c k (s.passed c k w)).cluster c).leases = (s.cluster c).leases := by simp [State.setCtx]
  simp only [State.descAt] at named good passes
  simp only [State.hand, read, named, good, passes, Bool.false_eq_true, if_false, State.modCluster, leases]
  rfl

theorem State.handed_ctx {s : State} {c k n : Nat} (w : QWord) (d : Desc) :
    CtxBecomes s (s.handed c k n w d) c k (pastWord s c k w) := by
  refine ⟨?_, fun j hj => ?_, fun e he => ?_, ?_, rfl⟩
  · simp [State.handed, State.setCtx, State.ctx]
  · simp [State.handed, State.setCtx, State.ctx, mget_mput_ne _ _ _ hj]
  · simp [State.handed, State.setCtx, State.modCluster_others _ _ he]
  · simp [State.handed, State.setCtx]

theorem State.handed_engine {s : State} {c k n m : Nat} (w : QWord) (d : Desc) (hn : n < 3) (hm : m < 3) :
    ((s.handed c k n w d).cluster c).engine m =
      if m = n then ((s.cluster c).engine n).take d else (s.cluster c).engine m := by
  have same (j : Nat) : ((s.setCtx c k (pastWord s c k w)).cluster c).engine j = (s.cluster c).engine j :=
    State.modCluster_same (fun q => q.engine j) (f := fun q => { q with ctxs := mput q.ctxs k (pastWord s c k w) })
      (fun _ => rfl) s c c
  simp [State.handed, Cluster.setEngine_engine _ _ hn hm, same]

/-- The ISSUE of each engine. -/
theorem exec_issue {s : State} {c : Fin 512} {k : Fin 9} {w : BitVec 64} {n : Nat} {i : Instr}
    (h : (n = 0 ∧ i = .issueT c k w) ∨ (n = 1 ∧ i = .issueV c k w) ∨ (n = 2 ∧ i = .issueD c k w)) :
    n < 3 ∧ exec i s = .next (s.issueEngine c k w n) := by
  obtain ⟨rfl, rfl⟩ | ⟨rfl, rfl⟩ | ⟨rfl, rfl⟩ := h <;> exact ⟨by decide, rfl⟩

/-- An ISSUE whose word is legal, whose engine has a free queue entry and whose region covers the descriptor hands it over. -/
theorem SeqRuns.issueEngine {s : State} {c k n : Nat} {w : QWord} (h : SeqRuns s c k w (n + 2)) (tenant : k ≠ 8)
    (clear : qw w 47 26 = 0) (aligned : qw w 25 0 % descSize n = 0) (covered : qw w 25 0 + descSize n ≤ (s.ctxEntry c k).len)
    (free : ((s.cluster c).engine n).queued = none) : s.issueEngine c k w n = s.hand c k n (qw w 25 0) w := by
  obtain ⟨-, -, -, -, -, reserved, -⟩ := id h
  have legal : (qClear w 47 26 && qw w 25 0 % descSize n == 0) = true := by simp [qClear, reserved, clear, aligned]
  simp only [State.issueEngine, free, Option.isSome_none, Bool.false_and, Bool.false_eq_true, if_false, legal,
    h.issueSeq (if_neg tenant), Nat.not_lt.mpr covered]

/-- While the queue entry is occupied an ISSUE changes nothing (R160). -/
theorem State.issueEngine_stalled {s : State} {c k n : Nat} {w : QWord} (kind : qKind w = n + 2)
    (full : ((s.cluster c).engine n).queued ≠ none) : s.issueEngine c k w n = s := by
  have occupied : ((s.cluster c).engine n).queued.isSome = true := Option.isSome_iff_ne_none.mpr full
  cases may : s.mayIssueSeq c k w <;> simp [State.issueEngine, occupied, may, kind, State.issueSeq]

end Sys2Proof.Machine
end

section
/-!
PROOF. A descriptor that completes: what storing its result leaves of its cluster's engines and of the counters of descriptors
(05 R145, R152, R153; 06 R162). Settles O8.
-/
namespace Sys2Proof.Machine

/-! ### What an engine's accesses leave of a cluster -/

theorem State.touch_scrubOnly (s : State) (a src tenant : Nat) : ScrubOnly s (s.touch a src tenant) := by
  unfold State.touch
  split
  · exact .refl s
  · exact State.corrected_scrubOnly ..
  · exact State.uncorrectable_scrubOnly ..

/-- A read of bytes leaves all of a cluster but its scrubber. -/
theorem State.afterRead_scrubOnly (s : State) (g src tenant : Nat) (as : List Nat) : ScrubOnly s (s.afterRead g src tenant as) :=
  (ScrubOnly.each (fun t a => State.touch_scrubOnly t a src tenant) s).trans (State.draw_scrubOnly _)

/-- Engine `n` of cluster `c` is as before, and so are the cluster's leases. -/
structure SameEngine (s t : State) (c n : Nat) : Prop where
  engine : (t.cluster c).engine n = (s.cluster c).engine n
  leases : (t.cluster c).leases = (s.cluster c).leases

theorem SameEngine.refl (s : State) (c n : Nat) : SameEngine s s c n := ⟨rfl, rfl⟩

theorem SameEngine.trans {s t u : State} {c n : Nat} (h : SameEngine s t c n) (h' : SameEngine t u c n) : SameEngine s u c n :=
  ⟨h'.engine.trans h.engine, h'.leases.trans h.leases⟩

theorem ScrubOnly.sameEngine {s t : State} (h : ScrubOnly s t) (c n : Nat) : SameEngine s t c n :=
  ⟨h.same (fun q => q.engine n) (fun _ _ => rfl) c, h.same Cluster.leases (fun _ _ => rfl) c⟩

/-- The generator moves on (R138). -/
theorem State.modCluster_sr_sameEngine (s : State) (d : Nat) (x : BitVec 64) (c n : Nat) :
    SameEngine s (s.modCluster d (fun k => { k with sr := x })) c n :=
  ⟨State.modCluster_same (fun q => q.engine n) (f := fun k => { k with sr := x }) (fun _ => rfl) s d c,
    State.modCluster_same Cluster.leases (f := fun k => { k with sr := x }) (fun _ => rfl) s d c⟩

/-! ### What an engine's accesses leave of the registers -/

/-- Every page's CTL, and the register at offset 0x44, where a page of an engine counts its descriptors, are as before. -/
structure SameCounts (s t : State) : Prop where
  regs : ∀ k, k % 1024 = 3 ∨ k % 1024 = 17 → mfind t.regs k = mfind s.regs k

theorem SameCounts.of_regs {s t : State} (h : t.regs = s.regs) : SameCounts s t := ⟨fun k _ => by rw [h]⟩

theorem SameCounts.refl (s : State) : SameCounts s s := .of_regs rfl

theorem SameCounts.trans {s t u : State} (h : SameCounts s t) (h' : SameCounts t u) : SameCounts s u :=
  ⟨fun k hk => (h'.regs k hk).trans (h.regs k hk)⟩

theorem SameCounts.each {α : Type} {l : List α} {f : State → α → State} (h : ∀ s a, SameCounts s (f s a)) (s : State) :
    SameCounts s (s.each l f) := by
  induction l generalizing s with
  | nil => exact .refl s
  | cons a l ih => exact (h s a).trans (ih _)

/-- Another word of any page is stored. -/
theorem SameCounts.of_mput {s t : State} {pg off bank : Nat} {v : Word} (h : t.regs = mput s.regs (regKey pg off bank) v)
    (ctl : off / 4 % 1024 ≠ 3) (count : off / 4 % 1024 ≠ 17) : SameCounts s t := by
  refine ⟨fun k hk => ?_⟩
  rw [h]
  refine mfind_mput_ne _ _ ?_
  unfold regKey
  omega

theorem State.setHdr_sameCounts (s : State) (pg v : Nat) {off : Nat} (ctl : off / 4 % 1024 ≠ 3)
    (count : off / 4 % 1024 ≠ 17) : SameCounts s (s.setHdr pg off v) := .of_mput rfl ctl count

theorem State.wr_sameCounts (s : State) {r : Reg} (v i : Nat) (ctl : r.off / 4 % 1024 ≠ 3) (count : r.off / 4 % 1024 ≠ 17) :
    SameCounts s (s.wr r v i) := .of_mput rfl ctl count

theorem State.cnt_sameCounts (s : State) {r : Reg} (i n : Nat) (ctl : r.off / 4 % 1024 ≠ 3) (count : r.off / 4 % 1024 ≠ 17) :
    SameCounts s (s.cnt r i n) := by
  unfold State.cnt
  dsimp only
  split
  · exact .of_regs rfl
  · exact .of_mput rfl ctl count

theorem State.irq_sameCounts (s : State) (pg m : Nat) : SameCounts s (s.irq pg m) :=
  .of_mput (s.setIrq_regs pg hIrqSts _) (by decide) (by decide)

theorem State.capture_sameCounts (s : State) (pg : Nat) (x : Viol) (more : Bool) : SameCounts s (s.capture pg x more) :=
  ((((State.setHdr_sameCounts _ _ _ (by decide) (by decide)).trans (State.setHdr_sameCounts _ _ _ (by decide) (by decide))).trans
    (State.setHdr_sameCounts _ _ _ (by decide) (by decide))).trans (State.setHdr_sameCounts _ _ _ (by decide) (by decide))).trans
    (State.setHdr_sameCounts _ _ _ (by decide) (by decide))

theorem State.violate_sameCounts (s : State) (p : PageType) (i : Nat) (x : Viol) : SameCounts s (s.violate p i x) := by
  simp only [State.violate, State.violateAll]
  refine SameCounts.trans (.trans ?_ (State.setHdr_sameCounts _ _ _ (by decide) (by decide))) (State.irq_sameCounts ..)
  split
  · exact State.setHdr_sameCounts _ _ _ (by decide) (by decide)
  · exact State.capture_sameCounts ..

@[simp] theorem State.modScrub_regs (s : State) (k : Nat) (f : Scrub → Scrub) : (s.modScrub k f).regs = s.regs := by
  unfold State.modScrub
  split <;> rfl

/-- The registers that count a memory word's errors, at one offset in a scratchpad's page and in a quarter store's. -/
theorem State.wordHome_off (s : State) (a : Nat) :
    (s.wordHome a).1.off = 0x50 ∧ (s.wordHome a).2.1.off = 0x54 ∧ (s.wordHome a).2.2.1.off = 0x58 := by
  unfold State.wordHome
  split <;> exact ⟨rfl, rfl, rfl⟩

theorem State.corrected_sameCounts (s : State) (a : Nat) : SameCounts s (s.corrected a) := by
  obtain ⟨ce, at_, -⟩ := s.wordHome_off a
  have counted := s.cnt_sameCounts (r := (s.wordHome a).1) (s.wordHome a).2.2.2.1 1 (by simp [ce]) (by simp [ce])
  exact (counted.trans (State.wr_sameCounts _ _ _ (by simp [at_]) (by simp [at_]))).trans (.of_regs (State.modScrub_regs ..))

theorem State.uncorrectable_sameCounts (s : State) (a src tenant : Nat) (fails : Bool) :
    SameCounts s (s.uncorrectable a src tenant fails) := by
  obtain ⟨-, -, ue⟩ := s.wordHome_off a
  unfold State.uncorrectable
  extract_lets h i s1
  have counted : SameCounts s s1 :=
    (s.cnt_sameCounts i 1 (by simp [h, ue]) (by simp [h, ue])).trans (State.violate_sameCounts ..)
  split
  · exact counted.trans (.of_regs (by simp))
  · exact counted

theorem State.touch_sameCounts (s : State) (a src tenant : Nat) : SameCounts s (s.touch a src tenant) := by
  unfold State.touch
  split
  · exact .refl s
  · exact State.corrected_sameCounts ..
  · exact State.uncorrectable_sameCounts ..

theorem State.afterRead_sameCounts (s : State) (g src tenant : Nat) (as : List Nat) :
    SameCounts s (s.afterRead g src tenant as) :=
  (SameCounts.each (fun t a => State.touch_sameCounts t a src tenant) s).trans (.of_regs rfl)

theorem State.wbCancel_sameCounts (s : State) (a : Nat) : SameCounts s (s.wbCancel a) := by
  unfold State.wbCancel
  extract_lets c p b v s1
  have stopped : SameCounts s s1 := .of_regs (State.modScrub_regs ..)
  split
  · split
    · exact stopped.trans (State.cnt_sameCounts _ _ _ (by decide) (by decide))
    · exact stopped
  · exact .refl s

theorem State.wordWritten_sameCounts (s : State) (a : Nat) (full : Bool) (src tenant : Nat) :
    SameCounts s (s.wordWritten a full src tenant) := by
  refine (s.wbCancel_sameCounts a).trans ?_
  unfold State.wordWritten
  dsimp only
  split
  · exact .of_regs rfl
  · split
    · exact .refl _
    · exact (State.corrected_sameCounts ..).trans (.of_regs rfl)
    · exact State.uncorrectable_sameCounts ..

theorem State.storeAt_regs (s : State) (l : List (Nat × Byte)) : (s.storeAt l).regs = s.regs := by
  induction l generalizing s with
  | nil => rfl
  | cons p l ih => exact ih _

theorem State.writeBytes_sameCounts (s : State) (g src tenant : Nat) (as : List Nat) (data : List Byte) :
    SameCounts s (s.writeBytes g src tenant as data) :=
  (SameCounts.each (fun t a => State.wordWritten_sameCounts t a _ src tenant) s).trans (.of_regs (State.storeAt_regs ..))

/-- A page's CTL stands. -/
theorem SameCounts.hdr_ctl {s t : State} (h : SameCounts s t) (pg : Nat) : t.hdr pg hCtl = s.hdr pg hCtl := by
  have key : regKey pg hCtl 0 % 1024 = 3 := by unfold regKey hCtl; omega
  simp only [State.hdr, mget, h.regs _ (.inl key)]

/-- A counter of descriptors stands. -/
theorem SameCounts.rd {s t : State} (h : SameCounts s t) {r : Reg} (hr : r.off = 0x44) (i : Nat) : t.rd r i = s.rd r i := by
  have key : regKey (pageNo r.page i) (r.off + 4 * 0) 0 % 1024 = 17 := by unfold regKey; omega
  simp only [State.rd, State.rawAt, h.regs _ (.inr key)]

/-- A descriptor counted between steps that leave the counters. -/
theorem SameCounts.counts {s t u : State} (before : SameCounts s t) {r : Reg} (hr : r.off = 0x44) {i : Nat}
    (after : SameCounts (t.cnt r i) u) : Counts s u r i 1 := by
  intro unfrozen
  rw [after.rd hr, t.cnt_counts r i 1 (by rw [before.hdr_ctl, unfrozen]), before.rd hr]

/-! ### Results stored (R139, R146, R162) -/

/-- The accesses of one descriptor leave its cluster's engines and leases, and the counters of descriptors. -/
structure StoresOnly (s t : State) : Prop where
  engines : ∀ c n, SameEngine s t c n
  counts : SameCounts s t

theorem StoresOnly.trans {s t u : State} (h : StoresOnly s t) (h' : StoresOnly t u) : StoresOnly s u :=
  ⟨fun c n => (h.engines c n).trans (h'.engines c n), h.counts.trans h'.counts⟩

theorem State.afterRead_storesOnly (s : State) (g src tenant : Nat) (as : List Nat) :
    StoresOnly s (s.afterRead g src tenant as) :=
  ⟨(s.afterRead_scrubOnly g src tenant as).sameEngine, s.afterRead_sameCounts g src tenant as⟩

theorem State.writeBytes_storesOnly (s : State) (g src tenant : Nat) (as : List Nat) (data : List Byte) :
    StoresOnly s (s.writeBytes g src tenant as data) :=
  ⟨(s.writeBytes_scrubOnly g src tenant as data).sameEngine, s.writeBytes_sameCounts g src tenant as data⟩

theorem State.tensorStore_storesOnly (s : State) (c : Nat) (d : Desc) (undef : Bool) : StoresOnly s (s.tensorStore c d undef) :=
  ((s.afterRead_storesOnly ..).trans (State.afterRead_storesOnly ..)).trans (State.writeBytes_storesOnly ..)

theorem State.vWrite_storesOnly (s : State) (c t : Nat) (b : List Byte) (vals : List Nat) :
    StoresOnly s (s.vWrite c t b vals) := by
  unfold State.vWrite
  dsimp only
  split <;> exact State.writeBytes_storesOnly ..

theorem State.vectorStore_storesOnly (s : State) (c : Nat) (d : Desc) (undef : Bool) :
    StoresOnly s (s.vectorStore c d undef) := by
  unfold State.vectorStore
  extract_lets b xs s1 ys s2 r s3
  have x_read : StoresOnly s s1 := State.afterRead_storesOnly ..
  have y_read : StoresOnly s s2 := by
    dsimp only [s2]
    split
    · exact x_read.trans (State.afterRead_storesOnly ..)
    · exact x_read
  have drawn : StoresOnly s2 s3 := ⟨s2.modCluster_sr_sameEngine c r.1, .of_regs rfl⟩
  exact (y_read.trans drawn).trans (State.vWrite_storesOnly ..)

theorem State.copyStore_storesOnly (s : State) (c : Nat) (d : Desc) (undef : Bool) : StoresOnly s (s.copyStore c d undef) :=
  (s.afterRead_storesOnly ..).trans (State.writeBytes_storesOnly ..)

/-! ### The race with the other engines (R144) -/

/-- Another engine is replaced, of this cluster or of another one. -/
theorem State.modCluster_setEngine_sameEngine (s : State) {d m c n : Nat} (e : Engine) (hm : m < 3) (hn : n < 3)
    (other : d ≠ c ∨ m ≠ n) : SameEngine s (s.modCluster d (fun q => q.setEngine m e)) c n := by
  refine ⟨?_, State.modCluster_same Cluster.leases (fun k => k.setEngine_leases m e) s d c⟩
  rw [State.modCluster_cluster]
  split
  · rename_i same
    rw [Cluster.setEngine_engine _ _ hm hn, if_neg (Ne.symm (other.resolve_left (· same.symm))), same]
  · rfl

/-- Steps over a list that each leave an engine, for the entries it lists. -/
theorem SameEngine.each {α : Type} {l : List α} {f : State → α → State} {c n : Nat}
    (h : ∀ s, ∀ a ∈ l, SameEngine s (f s a) c n)
    (s : State) : SameEngine s (s.each l f) c n := by
  induction l generalizing s with
  | nil => exact .refl s c n
  | cons a l ih => exact (h s a List.mem_cons_self).trans (ih (fun t b hb => h t b (List.mem_cons_of_mem _ hb)) _)

/-- A write that races other engines leaves its own. -/
theorem State.race_sameEngine (s : State) (c : Nat) {n : Nat} (hn : n < 3) (wr : List Nat) :
    SameEngine s (s.race c n wr) c n := by
  refine SameEngine.each (fun t p hp => ?_) s
  obtain ⟨q, -, hp⟩ := List.mem_flatMap.mp hp
  obtain ⟨m, hm, rfl⟩ := List.mem_map.mp hp
  obtain ⟨engine, other⟩ := List.mem_filter.mp hm
  have hm : m < 3 := by
    simp only [List.mem_cons, List.not_mem_nil, or_false] at engine
    omega
  have other : q.1 ≠ c ∨ m ≠ n := by simpa using other
  dsimp only
  split
  · split
    · exact t.modCluster_setEngine_sameEngine _ hm hn other
    · exact .refl t c n
  · exact .refl t c n

/-- What a race leaves of the state, a part at a time. -/
theorem State.race_keeps {β : Type} (π : State → β) (h : ∀ (t : State) d f, π (t.modCluster d f) = π t)
    (s : State) (c n : Nat) (wr : List Nat) : π (s.race c n wr) = π s := by
  refine State.each_keeps π (fun t p => ?_) s
  dsimp only
  split
  · split
    · exact h ..
    · rfl
  · rfl

/-! ### Completion (R145, R152, R162) -/

/-- The result of engine `n`'s descriptor is stored, and the tensor and the vector engine count it (R153). -/
def State.resultStored (s : State) (c n : Nat) (d : Desc) (undef : Bool) : State :=
  match n with
  | 0 => ((s.tensorStore c d undef).cnt R.tenDescCnt c).cnt R.tenBusyClk c (d.total - d.ran)
  | 1 => ((s.vectorStore c d undef).cnt R.vecDescCnt c).cnt R.vecBusyClk c (d.total - d.ran)
  | _ => s.copyStore c d undef

/-- The descriptor that wrote `wr` ends: its engine's banks are `m`, other engines' results are raced, the queued one starts. -/
def State.engineEnded (s : State) (c n : Nat) (m : Word) (wr : List Nat) : State :=
  ((s.holding c n m).race c n wr).modCluster c (fun k => k.setEngine n ((k.engine n).finish m))

theorem State.engineComplete_running {s : State} {c n : Nat} {d : Desc} (h : ((s.cluster c).engine n).running = some d) :
    s.engineComplete c n = ((s.draw.holding c n (d.banks s.freeCtr)).resultStored c n d (s.undefinedResult c n d)).engineEnded
      c n ((s.cluster c).leases.getD n 0#32) (s.descWrites c d.tenant n d.bytes) := by
  simp only [State.engineComplete, h]
  rfl

theorem State.resultStored_sameEngine (s : State) (c n : Nat) (d : Desc) (undef : Bool) (e m : Nat) :
    SameEngine s (s.resultStored c n d undef) e m := by
  have counted (t : State) (r : Reg) (k : Nat) : SameEngine t (t.cnt r c k) e m := (t.cnt_scrubOnly r c k 0 0).sameEngine e m
  unfold State.resultStored
  split
  · exact (((s.tensorStore_storesOnly c d undef).engines e m).trans (counted ..)).trans (counted ..)
  · exact (((s.vectorStore_storesOnly c d undef).engines e m).trans (counted ..)).trans (counted ..)
  · exact (s.copyStore_storesOnly c d undef).engines e m

theorem State.holding_engine (s : State) (c n : Nat) (m : Word) (j : Nat) :
    ((s.holding c n m).cluster c).engine j = (s.cluster c).engine j :=
  State.modCluster_same (fun q => q.engine j) (f := fun k => { k with leases := k.leases.set n m }) (fun _ => rfl) s c c

theorem State.holding_leases (s : State) (c n : Nat) (m : Word) :
    ((s.holding c n m).cluster c).leases = (s.cluster c).leases.set n m := by
  simp [State.holding]

@[simp] theorem State.engineEnded_mem (s : State) (c n : Nat) (m : Word) (wr : List Nat) :
    (s.engineEnded c n m wr).mem = s.mem :=
  State.race_keeps State.mem (fun _ _ _ => rfl) (s.holding c n m) c n wr

@[simp] theorem State.engineEnded_regs (s : State) (c n : Nat) (m : Word) (wr : List Nat) :
    (s.engineEnded c n m wr).regs = s.regs :=
  State.race_keeps State.regs (fun _ _ _ => rfl) (s.holding c n m) c n wr

theorem set_getD_self {α : Type} (l : List α) (n : Nat) (d : α) : l.set n (l.getD n d) = l := by
  by_cases h : n < l.length
  · simp [h]
  · exact List.set_eq_of_length_le (by omega)

/-- Where the engine held other banks for its accesses, it has its leases again, and the queued descriptor runs with them. -/
theorem State.engineEnded_spec {s v : State} {c n : Nat} (hn : n < 3) {x : Word}
    (stored : SameEngine (s.draw.holding c n x) v c n) (wr : List Nat) :
    let m := (s.cluster c).leases.getD n 0#32
    let t := v.engineEnded c n m wr
    (t.cluster c).engine n = ((s.cluster c).engine n).finish m ∧ (t.cluster c).leases = (s.cluster c).leases := by
  intro m t
  have raced : SameEngine (v.holding c n m) ((v.holding c n m).race c n wr) c n := State.race_sameEngine _ c hn wr
  have engine : (((v.holding c n m).race c n wr).cluster c).engine n = (s.cluster c).engine n := by
    rw [raced.engine, v.holding_engine, stored.engine, State.holding_engine]
    rfl
  have leases : (((v.holding c n m).race c n wr).cluster c).leases = (s.cluster c).leases := by
    rw [raced.leases, v.holding_leases, stored.leases, State.holding_leases, List.set_set]
    exact set_getD_self _ n 0#32
  constructor
  · simp [t, State.engineEnded, Cluster.setEngine_engine _ _ hn hn, engine]
  · simp [t, State.engineEnded, leases]

/-- The completion of each engine's descriptor. -/
theorem exec_engineComplete {s : State} {c : Fin 512} {n : Nat} {i : Instr}
    (h : (n = 0 ∧ i = .tensorComplete c) ∨ (n = 1 ∧ i = .vectorComplete c) ∨ (n = 2 ∧ i = .copyDescriptorComplete c)) :
    n < 3 ∧ exec i s = .next (s.engineComplete c n) := by
  obtain ⟨rfl, rfl⟩ | ⟨rfl, rfl⟩ | ⟨rfl, rfl⟩ := h <;> exact ⟨by decide, rfl⟩

/-- What follows the count of a descriptor leaves it: the engine's busy clk are another register. -/
theorem State.counted_ended (s : State) {r : Reg} (hr : r.off = 0x48) (c n k : Nat) (m : Word) (wr : List Nat) :
    SameCounts s ((s.cnt r c k).engineEnded c n m wr) :=
  (s.cnt_sameCounts c k (by simp [hr]) (by simp [hr])).trans (.of_regs (State.engineEnded_regs ..))

/-! ### The obligation -/

/-- Settles O8: an ISSUE that passes its checks hands over the descriptor and one that stalls changes nothing; a completion stores
the result, which leaves the engines and the descriptors' counters, and then the queued descriptor starts. -/
theorem engineDescriptors : Obligations.EngineDescriptors := by
  unfold Obligations.EngineDescriptors
  constructor
  · intro s c k w n i h off e b d en
    obtain ⟨hn, issues⟩ := exec_issue (s := s) h
    rw [issues]
    constructor
    · intro runs not_lease clear aligned covered free clean entries passes
      have tenant : (k : Nat) ≠ 8 := fun lease => not_lease (Fin.ext lease)
      rw [runs.issueEngine tenant clear aligned covered free, State.hand_passes w clean entries passes]
      refine ⟨_, rfl, State.handed_ctx w _, ?_, fun m hm other => ?_⟩
      · rw [State.handed_engine w _ hn hn, if_pos rfl, Engine.take_free free]
        rfl
      · rw [State.handed_engine w _ hn hm, if_neg other]
    · intro kind full
      rw [State.issueEngine_stalled kind full]
  · intro s c n i d h m u running
    obtain ⟨hn, completes⟩ := exec_engineComplete (s := s) h
    rw [completes, State.engineComplete_running running]
    have stored := u.resultStored_sameEngine c n d (s.undefinedResult c n d) c n
    obtain ⟨engine, leases⟩ := State.engineEnded_spec hn stored (s.descWrites c d.tenant n d.bytes)
    have before {v : State} (stores : StoresOnly u v) : SameCounts s v := (SameCounts.of_regs (s := s) (t := u) rfl).trans stores.counts
    refine ⟨_, rfl, by rw [engine]; rfl, by rw [engine]; rfl, leases, ?tensor, ?vector, ?copy⟩
    case tensor =>
      rintro rfl
      exact ⟨by simp [State.resultStored, u],
        (before (u.tensorStore_storesOnly ..)).counts rfl (State.counted_ended _ rfl ..)⟩
    case vector =>
      rintro rfl
      exact ⟨by simp [State.resultStored, u],
        (before (u.vectorStore_storesOnly ..)).counts rfl (State.counted_ended _ rfl ..)⟩
    case copy =>
      rintro rfl
      simp [State.resultStored, u]

end Sys2Proof.Machine
end

section
/-!
PROOF. What a word that issues does to its context and to its cluster (06 R154 to R158, R170, R173), and the arming of slots (06
R163, R164). Settles O9.
-/
namespace Sys2Proof.Machine

/-! ### One context changed -/

section
variable {s t : State} {c k : Nat} {y : Ctx}

theorem State.setCtx_becomes (s : State) (c k : Nat) (y : Ctx) : CtxBecomes s (s.setCtx c k y) c k y := by
  refine ⟨?_, fun j hj => ?_, fun d hd => State.modCluster_others _ _ hd, ?_, rfl⟩
  · simp [State.setCtx, State.ctx]
  · simp [State.setCtx, State.ctx, mget_mput_ne _ _ _ hj]
  · simp [State.setCtx]

/-- A further change of the same context. -/
theorem CtxBecomes.setCtx (h : CtxBecomes s t c k y) (z : Ctx) : CtxBecomes s (t.setCtx c k z) c k z := by
  obtain ⟨-, ctxs, clusters, groups, tick⟩ := h
  obtain ⟨is, ctxs', clusters', groups', tick'⟩ := t.setCtx_becomes c k z
  exact ⟨is, fun j hj => (ctxs' j hj).trans (ctxs j hj), fun d hd => (clusters' d hd).trans (clusters d hd),
    groups'.trans groups, tick'.trans tick⟩

/-- What follows leaves the contexts and groups of the cluster, the other clusters and the tick. -/
theorem CtxBecomes.trans {u : State} (h : CtxBecomes s t c k y) (ctxs : (u.cluster c).ctxs = (t.cluster c).ctxs)
    (groups : (u.cluster c).groups = (t.cluster c).groups) (others : ∀ d, d ≠ c → u.cluster d = t.cluster d)
    (tick : u.tick = t.tick) : CtxBecomes s u c k y := by
  obtain ⟨is, others', clusters', groups', tick'⟩ := h
  have same (j : Nat) : u.ctx c j = t.ctx c j := by rw [State.ctx, ctxs]; rfl
  exact ⟨(same k).trans is, fun j hj => (same j).trans (others' j hj), fun d hd => (others d hd).trans (clusters' d hd),
    groups.trans groups', tick.trans tick'⟩

/-- What follows leaves the clusters and the tick. -/
theorem CtxBecomes.of_clusters {u : State} (h : CtxBecomes s t c k y) (clusters : u.clusters = t.clusters) (tick : u.tick = t.tick) :
    CtxBecomes s u c k y := by
  have same := State.cluster_of_clusters clusters
  exact h.trans (by rw [same]) (by rw [same]) (fun d _ => by rw [same]) tick

/-- What follows changes the cluster, but neither its contexts nor its groups. -/
theorem CtxBecomes.modCluster (h : CtxBecomes s t c k y) {f : Cluster → Cluster} (ctxs : ∀ q, (f q).ctxs = q.ctxs)
    (groups : ∀ q, (f q).groups = q.groups) : CtxBecomes s (t.modCluster c f) c k y :=
  h.trans (t.modCluster_same Cluster.ctxs ctxs c c) (t.modCluster_same Cluster.groups groups c c)
    (fun _ hd => State.modCluster_others _ _ hd) rfl

end

/-- A change of a context leaves the rest of its cluster. -/
theorem State.setCtx_same {β : Type} (π : Cluster → β) (h : ∀ (q : Cluster) l, π { q with ctxs := l } = π q)
    (s : State) (c k : Nat) (y : Ctx) (d : Nat) : π ((s.setCtx c k y).cluster d) = π (s.cluster d) :=
  State.modCluster_same π (fun _ => h _ _) s c d

/-- A word with a legal operand, in a context that may run it, leaves the context past it; its effect does the rest. -/
theorem SeqRuns.issueWord {s : State} {c k kind : Nat} {w : QWord} (h : SeqRuns s c k w kind) {legal lease tenant : Bool}
    (ok : legal = true) (allowed : (if k = 8 then lease else tenant) = true) (effect : State → Ctx → State) :
    s.issueWord c k w kind legal lease tenant effect = effect (s.setCtx c k (pastWord s c k w)) (pastWord s c k w) := by
  subst ok
  rw [State.issueWord, h.issueSeq allowed]
  rfl

/-! ### SLOT (R163, R164) -/

/-- What arming a slot in the body leaves and does. -/
structure Arms (s t : State) (c id h off : Nat) (tx late : Bool) : Prop where
  clusters : t.clusters = s.clusters
  tick : t.tick = s.tick
  armed : t.fabric.armed = s.fabric.armed.filter (fun y => !(y.slot == id && y.tx == tx)) ++
    [⟨id, tx, c, h, off, late, false, false, false, [], [], false, false, false, false⟩]
  counts : late = true → Counts s t R.seqLateSlot c 1
  wants : late = true → tx = true → ∃ n, (id, n) ∈ t.fabric.replays

theorem State.sendReplays_body {s : State} (h : s.tick.phase = .body) : s.sendReplays = s := by simp [State.sendReplays, h]

theorem State.askLate_body {s : State} (h : s.tick.phase = .body) : s.askLate = s := by simp [State.askLate, h]

/-- A replay that is wanted is listed. -/
theorem State.want_body {s : State} (h : s.tick.phase = .body) (id : Nat) :
    ∃ l, s.want id = s.modFab (fun f => { f with replays := l }) ∧ ∃ n, (id, n) ∈ l := by
  unfold State.want
  split
  · rename_i listed
    obtain ⟨r, hr, is⟩ := List.any_eq_true.mp listed
    obtain rfl : r.1 = id := by simpa using is
    exact ⟨s.fabric.replays, s.sendReplays_body h, r.2, hr⟩
  · exact ⟨_, State.sendReplays_body h, 0, by simp⟩

/-- What is armed, and counted where it is late, before a replay of it is wanted. -/
theorem State.armed_arms (s : State) (c id hd off : Nat) (tx late : Bool) (l : List (Nat × Nat))
    (wants : late = true → tx = true → ∃ n, (id, n) ∈ l) :
    Arms s ((s.when late (fun t => t.cnt R.seqLateSlot c)).modFab (fun f => { f with
      armed := f.armed.filter (fun y => !(y.slot == id && y.tx == tx)) ++
        [⟨id, tx, c, hd, off, late, false, false, false, [], [], false, false, false, false⟩],
      replays := l })) c id hd off tx late := by
  cases late with
  | false => exact ⟨rfl, rfl, rfl, (nomatch ·), wants⟩
  | true =>
    refine ⟨State.cnt_clusters .., State.cnt_tick .., ?_, fun _ => s.cnt_counts R.seqLateSlot c 1, wants⟩
    simp [State.when]

/-- Arming in the body, before the repair phase has begun to send or to ask (R164, R246). -/
theorem State.arms_inBody {s : State} (h : s.tick.phase = .body) (c id hd off : Nat) (tx : Bool) :
    Arms s (s.arm c id hd off tx false) c id hd off tx (lateArm tx s.tick.ns (s.slotEntry id).start) := by
  unfold State.arm
  simp only [Bool.not_false, Bool.and_true]
  generalize lateArm tx s.tick.ns (s.slotEntry id).start = late
  have body : ((s.when late (fun t => t.cnt R.seqLateSlot c)).tick).phase = .body := by
    cases late <;> simp [State.when, h]
  have replays : (s.when late (fun t => t.cnt R.seqLateSlot c)).fabric.replays = s.fabric.replays := by
    cases late <;> simp [State.when]
  have plain := s.armed_arms c id hd off tx late s.fabric.replays
  rw [← replays] at plain
  cases tx with
  | false =>
    rw [if_neg Bool.false_ne_true, State.askLate_body (by exact body)]
    exact plain fun _ tx => nomatch tx
  | true =>
    rw [if_pos rfl]
    split
    · obtain ⟨l, wanted, listed⟩ := State.want_body (s := (s.when late (fun t => t.cnt R.seqLateSlot c)).modFab _) body id
      rw [wanted]
      exact s.armed_arms c id hd off true late l fun _ _ => listed
    · rename_i not_late
      rw [State.sendReplays_body (by exact body)]
      exact plain fun late => absurd late not_late

/-- An SLOT word of a tenant's context, whose handle entry is read without error and whose arm passes its checks, arms. -/
theorem SeqRuns.issueSlot {s : State} {c k kind : Nat} {w : QWord} (h : SeqRuns s c k w kind) (tenant : k ≠ 8)
    (aligned : qw w 47 26 % 64 = 0) (clean : CleanEntry s c (qw w 25 16)) {tx : Bool}
    (passes : s.slotFault c (s.ctxEntry c k).tenant (qw w 15 0) (qw w 25 16) (qw w 47 26) tx = none) :
    s.issueSlot c k w kind tx =
      (s.setCtx c k (pastWord s c k w)).arm c (qw w 15 0) (qw w 25 16) (qw w 47 26) tx false := by
  have legal : (qw w 47 26 % 64 == 0) = true := by simp [aligned]
  rw [State.issueSlot, legal, h.issueSeq (if_neg tenant)]
  simp only [clean.touch, clean.good, passes, Bool.false_eq_true, if_false]
  rfl

/-- An arm in the body and the context that issued it. -/
theorem SeqRuns.arms {s : State} {c k kind : Nat} {w : QWord} (h : SeqRuns s c k w kind) (tenant : k ≠ 8)
    (aligned : qw w 47 26 % 64 = 0) (clean : CleanEntry s c (qw w 25 16)) {tx : Bool}
    (passes : s.slotFault c (s.ctxEntry c k).tenant (qw w 15 0) (qw w 25 16) (qw w 47 26) tx = none)
    (body : s.tick.phase = .body) :
    CtxBecomes s (s.issueSlot c k w kind tx) c k (pastWord s c k w) ∧
      Arms (s.setCtx c k (pastWord s c k w)) (s.issueSlot c k w kind tx) c (qw w 15 0) (qw w 25 16) (qw w 47 26) tx
        (lateArm tx s.tick.ns (s.slotEntry (qw w 15 0)).start) := by
  have arms := State.arms_inBody (s := s.setCtx c k (pastWord s c k w)) body c (qw w 15 0) (qw w 25 16) (qw w 47 26) tx
  rw [h.issueSlot tenant aligned clean passes]
  exact ⟨(s.setCtx_becomes c k _).of_clusters arms.clusters arms.tick, arms⟩

/-! ### The obligation -/

/-- Settles O9: a word that passes the checks of R163 leaves its context past it and arms, and an arm in the body is late by R164's
limits. -/
theorem slotArming : Obligations.SlotArming := by
  unfold Obligations.SlotArming
  intro s c k w id h off e x arms
  constructor
  · intro runs not_lease aligned clean passes body
    have tenant : (k : Nat) ≠ 8 := fun lease => not_lease (Fin.ext lease)
    obtain ⟨becomes, -, -, armed, counts, wants⟩ := runs.arms tenant aligned clean passes body
    exact ⟨_, rfl, ⟨becomes, armed, counts⟩, fun late => wants (decide_eq_true late) rfl⟩
  · intro runs not_lease aligned clean passes body
    have tenant : (k : Nat) ≠ 8 := fun lease => not_lease (Fin.ext lease)
    obtain ⟨becomes, -, -, armed, counts, -⟩ := runs.arms tenant aligned clean passes body
    exact ⟨_, rfl, becomes, armed, counts⟩

end Sys2Proof.Machine
end

section
/-!
PROOF. Waits, marks, traces and loops (06 R159, R167 to R169, R173). Settles O6.
-/
namespace Sys2Proof.Machine

/-! ### Slack (R173) -/

theorem CtxBecomes.noteSlack {s t : State} {c k : Nat} {y : Ctx} (h : CtxBecomes s t c k y) (live : Bool) (v : Nat) :
    CtxBecomes s (t.noteSlack c live v) c k y := by
  unfold State.noteSlack
  split
  · exact h
  · exact h.modCluster (fun _ => rfl) (fun _ => rfl)

theorem State.noteSlack_slackNow (s : State) (c : Nat) (live : Bool) (v : Nat) :
    ((s.noteSlack c live v).cluster c).slackNow = leastSlack s c live v := by
  cases live with
  | false => rfl
  | true => simp only [State.noteSlack, leastSlack, Bool.not_true, Bool.false_eq_true, if_false, if_true, State.modCluster_self]

theorem State.setCtx_slackNow (s : State) (c k : Nat) (y : Ctx) : ((s.setCtx c k y).cluster c).slackNow = (s.cluster c).slackNow :=
  s.setCtx_same Cluster.slackNow (fun _ _ => rfl) c k y c

/-- The device with context `k` past word `w` and `v` ns of slack noted. -/
def State.slackNoted (s : State) (c k : Nat) (w : QWord) (v : Nat) : State :=
  (s.setCtx c k (pastWord s c k w)).noteSlack c (pastWord s c k w).live v

theorem State.slackNoted_becomes (s : State) (c k : Nat) (w : QWord) (v : Nat) :
    CtxBecomes s (s.slackNoted c k w v) c k (pastWord s c k w) :=
  (s.setCtx_becomes c k _).noteSlack _ v

theorem State.slackNoted_slackNow (s : State) (c k : Nat) (w : QWord) (v : Nat) :
    ((s.slackNoted c k w v).cluster c).slackNow = leastSlack s c (pastWord s c k w).live v := by
  rw [State.slackNoted, State.noteSlack_slackNow, leastSlack, leastSlack, State.setCtx_slackNow]

/-- The context that notes its slack then waits, or its program is over. -/
theorem State.slackNoted_then (s : State) (c k : Nat) (w : QWord) (v : Nat) (z : Ctx) :
    let t := (s.slackNoted c k w v).setCtx c k z
    CtxBecomes s t c k z ∧ (t.cluster c).slackNow = leastSlack s c (pastWord s c k w).live v :=
  ⟨(s.slackNoted_becomes c k w v).setCtx z, (State.setCtx_slackNow ..).trans (s.slackNoted_slackNow c k w v)⟩

theorem State.slackNoted_regs (s : State) (c k : Nat) (w : QWord) (v : Nat) : (s.slackNoted c k w v).regs = s.regs := by
  unfold State.slackNoted State.noteSlack
  split <;> rfl

/-- What is counted after a step that leaves the registers. -/
theorem Counts.of_regs {s t u : State} {r : Reg} {i n : Nat} (h : Counts t u r i n) (regs : t.regs = s.regs) : Counts s u r i n := by
  intro unfrozen
  rw [h (by rw [State.hdr, regs]; exact unfrozen)]
  simp only [State.rd, State.rawAt, regs]

/-! ### WAIT (R159) -/

section
variable {s : State} {c : Fin 512} {k : Fin 9} {w : BitVec 64} {kind : Nat} (runs : SeqRuns s c k w kind)
include runs

/-- The operand bits [hi:lo] of a word that runs are clear with its reserved field. -/
theorem SeqRuns.qClear {hi lo : Nat} (clear : qw w hi lo = 0) : qClear w hi lo = true := by
  obtain ⟨-, -, -, -, -, reserved, -⟩ := runs
  simp [Machine.qClear, reserved, clear]

/-- A word that every context may run leaves its context past it. -/
theorem SeqRuns.word {legal : Bool} (ok : legal = true) (effect : State → Ctx → State) :
    s.issueWord c k w kind legal true true effect = effect (s.setCtx c k (pastWord s c k w)) (pastWord s c k w) :=
  runs.issueWord ok (ite_self _) effect

end

section
variable {s : State} {c : Fin 512} {k : Fin 9} {w : BitVec 64}

theorem exec_waitAt (runs : SeqRuns s c k w 1) (sub : qw w 41 40 = 0) (clear : qw w 47 42 = 0) (high : qw w 39 24 = 0)
    (early : qTarget w < s.repairStart) : exec (.waitAt c k w) s = .next (
      let t := s.slackNoted c k w (qTarget w - s.tick.ns)
      if qTarget w < s.tick.ns then t.cnt R.seqLateAt c
      else if qTarget w = s.tick.ns then t
      else t.setCtx c k { pastWord s c k w with state := .wait, wait := .until (qTarget w) }) := by
  show execWaitAt c k w s = _
  rw [execWaitAt, if_neg (by simp [sub]), runs.word (by simp [sub, runs.qClear clear, runs.qClear high, early])]
  rfl

theorem waitAt_spec (runs : SeqRuns s c k w 1) (sub : qw w 41 40 = 0) (clear : qw w 47 42 = 0) (high : qw w 39 24 = 0)
    (early : qTarget w < s.repairStart) :
    let y := pastWord s c k w
    (s.tick.ns < qTarget w → ∃ t, exec (.waitAt c k w) s = .next t ∧
      CtxBecomes s t c k { y with state := .wait, wait := .until (qTarget w) } ∧
      (t.cluster c).slackNow = leastSlack s c y.live (qTarget w - s.tick.ns)) ∧
    (s.tick.ns = qTarget w → ∃ t, exec (.waitAt c k w) s = .next t ∧ CtxBecomes s t c k y ∧
      (t.cluster c).slackNow = leastSlack s c y.live 0) ∧
    (qTarget w < s.tick.ns → ∃ t, exec (.waitAt c k w) s = .next t ∧ CtxBecomes s t c k y ∧
      (t.cluster c).slackNow = leastSlack s c y.live 0 ∧ Counts s t R.seqLateAt c 1) := by
  intro y
  rw [exec_waitAt runs sub clear high early]
  have becomes := s.slackNoted_becomes c k w (qTarget w - s.tick.ns)
  have none_left (due : qTarget w ≤ s.tick.ns) :
      ((s.slackNoted c k w (qTarget w - s.tick.ns)).cluster c).slackNow = leastSlack s c y.live 0 := by
    rw [State.slackNoted_slackNow, Nat.sub_eq_zero_of_le due]
  refine ⟨fun before => ⟨_, rfl, ?_⟩, fun now => ⟨_, rfl, ?_⟩, fun past => ⟨_, rfl, ?_⟩⟩
  · simp only [if_neg (Nat.not_lt.mpr (Nat.le_of_lt before)), if_neg (Nat.ne_of_gt before)]
    exact s.slackNoted_then ..
  · simp only [if_neg (Nat.not_lt.mpr (Nat.le_of_eq now)), if_pos now.symm]
    exact ⟨becomes, none_left (Nat.le_of_eq now.symm)⟩
  · simp only [if_pos past]
    refine ⟨becomes.of_clusters (State.cnt_clusters ..) (State.cnt_tick ..), ?_,
      (State.cnt_counts _ R.seqLateAt c 1).of_regs (s.slackNoted_regs ..)⟩
    rw [State.cluster_of_clusters (State.cnt_clusters ..)]
    exact none_left (Nat.le_of_lt past)

theorem exec_waitFor (runs : SeqRuns s c k w 1) (sub : qw w 41 40 = 1) (clear : qw w 47 42 = 0) (high : qw w 39 32 = 0)
    (some_clk : 1 ≤ qw w 31 0) : exec (.waitFor c k w) s = .next ((s.setCtx c k (pastWord s c k w)).setCtx c k
      { pastWord s c k w with state := .wait, wait := .clks (qw w 31 0) }) := by
  show execWaitFor c k w s = _
  rw [execWaitFor, if_neg (by simp [sub]), runs.word (by simp [sub, runs.qClear clear, runs.qClear high, some_clk])]

theorem exec_waitIdle (runs : SeqRuns s c k w 1) (sub : qw w 41 40 = 2) (clear : qw w 47 42 = 0) (high : qw w 39 3 = 0)
    (some_engine : 1 ≤ qw w 2 0) : exec (.waitIdle c k w) s = .next (
      let t := s.setCtx c k (pastWord s c k w)
      if (s.cluster c).idleMask (qw w 2 0) then t
      else t.setCtx c k { pastWord s c k w with state := .wait, wait := .idle (qw w 2 0) }) := by
  show execWaitIdle c k w s = _
  rw [execWaitIdle, if_neg (by simp [sub]), runs.word (by simp [sub, runs.qClear clear, runs.qClear high, some_engine])]
  rw [s.setCtx_same (fun q => q.idleMask (qw w 2 0)) (fun _ _ => rfl)]

/-- The context that waited runs again. -/
def State.releaseCtx (s : State) (c k : Nat) : State := s.setCtx c k (s.ctx c k).released

/-- A time that has been reached releases at once. -/
theorem exec_waitRelease_until {ns : Nat} (waits : (s.ctx c k).state = .wait) (wait : (s.ctx c k).wait = .until ns)
    (reached : ns ≤ s.tick.ns) : exec (.waitRelease c k) s = .next (s.releaseCtx c k) := by
  show execWaitRelease c k s = _
  simp only [execWaitRelease, waits, wait, State.passTo, Nat.not_lt.mpr reached]
  rfl

theorem exec_waitRelease_clks {n : Nat} (waits : (s.ctx c k).state = .wait) (wait : (s.ctx c k).wait = .clks n) :
    exec (.waitRelease c k) s = .next ((s.pass (s.nsOfClk (c.val / 128) n)).releaseCtx c k) := by
  show execWaitRelease c k s = _
  simp only [execWaitRelease, waits, wait]
  rfl

theorem exec_waitRelease_idle {m : Nat} (waits : (s.ctx c k).state = .wait) (wait : (s.ctx c k).wait = .idle m)
    (idle : (s.cluster c).idleMask m = true) : exec (.waitRelease c k) s = .next (s.releaseCtx c k) := by
  show execWaitRelease c k s = _
  simp only [execWaitRelease, waits, wait, idle]
  rfl

end

/-! ### MARK (R167, R173) -/

section
variable {s : State} {c : Fin 512} {k : Fin 9} {w : BitVec 64}

theorem exec_markEnd (runs : SeqRuns s c k w 10) (sub : qw w 35 32 = 0) (clear : qw w 47 36 = 0) (low : qw w 31 0 = 0) :
    exec (.markEnd c k w) s = .next ((s.slackNoted c k w (s.sealStart - s.tick.ns)).setCtx c k
      { pastWord s c k w with state := .done }) := by
  show execMarkEnd c k w s = _
  rw [execMarkEnd, if_neg (by simp [sub]), runs.word (by simp [sub, runs.qClear clear, runs.qClear low])]
  rfl

/-- A trace record's words stored, and the trace index moved on (R167, R184). -/
def State.traced (s : State) (c i : Nat) (l : List Nat) : State :=
  (l.zipIdx.foldl (fun u p => u.wr R.seqTrace p.1 c 0 (4 * i + p.2)) s).modCluster c (fun q => { q with traceIdx := (i + 1) % 128 })

theorem exec_markTrace (runs : SeqRuns s c k w 10) (sub : qw w 35 32 = 1) (clear : qw w 47 36 = 0) (high : qw w 31 16 = 0) :
    exec (.markTrace c k w) s = .next ((s.setCtx c k (pastWord s c k w)).traced c (s.cluster c).traceIdx
      (s.traceWords c k (qw w 15 0))) := by
  show execMarkTrace c k w s = _
  rw [execMarkTrace, if_neg (by simp [sub]), runs.word (by simp [sub, runs.qClear clear, runs.qClear high])]
  rw [s.setCtx_same Cluster.traceIdx (fun _ _ => rfl)]
  rfl

end

/-- An entry of a register array stored leaves the array's others. -/
theorem State.wr_rd_entry_ne (s : State) (r : Reg) (v c : Nat) {i j : Nat} (h : j ≠ i) :
    (s.wr r v c 0 i).rd r c 0 j = s.rd r c 0 j := by
  refine State.setRaw_rawAt_ne s v ?_
  simp only [regKey]
  omega

/-- The record that MARK.TRACE stores (Table 06-25). -/
theorem State.traced_rd (s : State) (c i : Nat) {k tag : Nat} (ctx : k < 16) (short : tag < 2 ^ 16) :
    let t := s.traced c i (s.traceWords c k tag)
    t.rd R.seqTrace c 0 (4 * i) = tag + k * 2 ^ 16 + s.tick.attempt % 16 * 2 ^ 20 ∧
      t.rd R.seqTrace c 0 (4 * i + 1) = min (s.clk c) cntMax ∧ t.rd R.seqTrace c 0 (4 * i + 2) = s.tick.count % 2 ^ 32 ∧
      t.rd R.seqTrace c 0 (4 * i + 3) = s.tick.count / 2 ^ 32 % 2 ^ 32 := by
  intro t
  have stored (j : Nat) : t.rd R.seqTrace c 0 j =
      ((((s.wr R.seqTrace (tag % 2 ^ 16 + k % 16 * 2 ^ 16 + s.tick.attempt % 16 * 2 ^ 20) c 0 (4 * i)).wr R.seqTrace
        (min (s.clk c) cntMax) c 0 (4 * i + 1)).wr R.seqTrace (s.tick.count % 2 ^ 32) c 0 (4 * i + 2)).wr R.seqTrace
        (s.tick.count / 2 ^ 32 % 2 ^ 32) c 0 (4 * i + 3)).rd R.seqTrace c 0 j := by
    simp only [State.rd, State.rawAt, t, State.traced, State.modCluster_regs, State.traceWords, List.zipIdx_cons, List.zipIdx_nil,
      List.foldl_cons, List.foldl_nil, Nat.add_zero, Nat.zero_add, Nat.reduceAdd]
  have clk_lt : min (s.clk c) cntMax < 2 ^ 32 := by simp only [cntMax]; omega
  simp only [stored]
  simp (disch := omega) only [State.wr_rd_entry_ne, State.wr_rd, Nat.mod_mod, Nat.mod_eq_of_lt clk_lt, and_true]
  omega

theorem CtxBecomes.traced {s t : State} {c k : Nat} {y : Ctx} (h : CtxBecomes s t c k y) (i j tag : Nat) :
    CtxBecomes s (t.traced c i (t.traceWords c j tag)) c k y :=
  (h.of_clusters (State.each_keeps State.clusters (fun _ _ => State.wr_clusters ..) t)
    (State.each_keeps State.tick (fun _ _ => State.wr_tick ..) t)).modCluster (fun _ => rfl) (fun _ => rfl)

/-! ### LOOP and HALT (R168, R169) -/

section
variable {s : State} {c : Fin 512} {k : Fin 9} {w : BitVec 64}

theorem exec_loopSet (runs : SeqRuns s c k w 11) (sub : qw w 41 40 = 0) (clear : qw w 47 42 = 0) (mid : qw w 39 38 = 0)
    (low : qw w 35 32 = 0) (some_pass : 1 ≤ qw w 31 0) :
    exec (.loopSet c k w) s = .next ((s.setCtx c k (pastWord s c k w)).setCtx c k
      { pastWord s c k w with lc := mput (pastWord s c k w).lc (qw w 37 36) (qw w 31 0) }) := by
  show execLoopSet c k w s = _
  rw [execLoopSet, if_neg (by simp [sub]),
    runs.word (by simp [sub, runs.qClear clear, runs.qClear mid, runs.qClear low, some_pass])]

theorem exec_loopBack (runs : SeqRuns s c k w 11) (sub : qw w 41 40 = 1) (clear : qw w 47 42 = 0) (mid : qw w 39 38 = 0)
    (low : qw w 35 16 = 0) (back : 1 ≤ qw w 15 0) (inside : 8 * qw w 15 0 ≤ (s.ctx c k).pc) :
    let y := pastWord s c k w
    let n := mget 0 (s.ctx c k).lc (qw w 37 36)
    exec (.loopBack c k w) s = .next (s.setCtx c k (if 1 < n then
        { y with lc := mput y.lc (qw w 37 36) (n - 1), pc := (s.ctx c k).pc - 8 * qw w 15 0, hold := qw w 59 56 + 1 }
      else { y with lc := mput y.lc (qw w 37 36) 0 })) := by
  intro y n
  show execLoopBack c k w s = _
  rw [execLoopBack, if_neg (by simp [sub])]
  have legal : (qw w 41 40 == 1 && Machine.qClear w 47 42 && Machine.qClear w 39 38 && Machine.qClear w 35 16 &&
      decide (1 ≤ qw w 15 0)) = true := by
    simp [sub, runs.qClear clear, runs.qClear mid, runs.qClear low, back]
  simp only [legal, runs.issueSeq (ite_self _), Nat.not_lt.mpr inside, if_false]
  rw [apply_ite (s.setCtx c k)]
  rfl

theorem exec_halt (runs : SeqRuns s c k w 12) (tenant : (k : Nat) ≠ 8) (clear : qw w 47 0 = 0) :
    exec (.halt c k w) s = .next ((s.slackNoted c k w (s.sealStart - s.tick.ns)).setCtx c k
      { pastWord s c k w with state := .halted }) := by
  show execHalt c k w s = _
  rw [execHalt, runs.issueWord (runs.qClear clear) (if_neg tenant)]
  rfl

end

/-! ### The obligation -/

/-- Settles O6: each word leaves its context past it and then has its one effect: on that context's wait, state or loop counter, on
its cluster's slack, or on the trace. -/
theorem sequencerWords : Obligations.SequencerWords := by
  unfold Obligations.SequencerWords
  refine ⟨fun s c k w => ⟨?waitAt, ?waitFor, ?waitIdle, ?untilTime, ?clks, ?idle⟩,
    fun s c k w => ⟨?markEnd, ?markTrace, ?loopSet, ?loopBack, ?halt⟩⟩
  case waitAt =>
    intro runs sub clear high early
    exact waitAt_spec runs sub clear high early
  case waitFor =>
    intro runs sub clear high some_clk
    exact ⟨_, exec_waitFor runs sub clear high some_clk, (s.setCtx_becomes ..).setCtx _⟩
  case waitIdle =>
    intro runs sub clear high some_engine
    refine ⟨_, exec_waitIdle runs sub clear high some_engine, ?_⟩
    dsimp only
    split
    · exact s.setCtx_becomes ..
    · exact (s.setCtx_becomes ..).setCtx _
  case untilTime =>
    intro ns waits wait reached
    exact ⟨_, exec_waitRelease_until waits wait reached, s.setCtx_becomes ..⟩
  case clks =>
    intro n waits wait
    refine ⟨_, exec_waitRelease_clks waits wait, ?_⟩
    rw [State.releaseCtx, (State.setCtx_becomes ..).1]
    exact ⟨rfl, rfl⟩
  case idle =>
    intro m waits wait idle
    exact ⟨_, exec_waitRelease_idle waits wait idle, s.setCtx_becomes ..⟩
  case markEnd =>
    intro runs sub clear low
    exact ⟨_, exec_markEnd runs sub clear low, s.slackNoted_then ..⟩
  case markTrace =>
    intro runs sub clear high i
    refine ⟨_, exec_markTrace runs sub clear high, (s.setCtx_becomes ..).traced .., ?_,
      State.traced_rd _ c i (Nat.lt_trans k.isLt (by decide)) (Nat.mod_lt _ (by decide))⟩
    rw [State.traced, State.modCluster_self]
  case loopSet =>
    intro runs sub clear mid low some_pass
    exact ⟨_, exec_loopSet runs sub clear mid low some_pass, (s.setCtx_becomes ..).setCtx _⟩
  case loopBack =>
    intro runs sub clear mid low back inside n
    have becomes := s.setCtx_becomes c k
    have loops := exec_loopBack runs sub clear mid low back inside
    exact ⟨fun more => ⟨_, loops, by rw [if_pos more]; exact becomes _⟩,
      fun last => ⟨_, loops, by rw [if_neg (Nat.not_lt.mpr last)]; exact becomes _⟩⟩
  case halt =>
    intro runs not_lease clear
    exact ⟨_, exec_halt runs (fun lease => not_lease (Fin.ext lease)) clear, s.slackNoted_then ..⟩

end Sys2Proof.Machine
end

section
/-!
PROOF. Leases of banks, blocks launched and joined (03 R73 to R76; 06 R165, R166; 07 R187). Settles O7.
-/
namespace Sys2Proof.Machine

/-! ### LEASE (R165, R187) -/

theorem exec_lease {s : State} {c : Fin 512} {w : BitVec 64} (runs : SeqRuns s c 8 w 7) (clear : qw w 47 34 = 0) :
    exec (.lease c 8 w) s = .next ((s.setCtx c 8 (pastWord s c 8 w)).modCluster c (fun q => { q with
      grants := q.grants ++ [(w32 (qw w 31 0), qw w 33 32, 2)] })) := by
  show execLease c 8 w s = _
  rw [execLease]
  exact congrArg Host.Outcome.next (runs.issueWord (k := 8) (runs.qClear (k := 8) clear) (if_pos rfl) _)

/-- Port group `h` has bank `b`. -/
def Cluster.has (q : Cluster) (h b : Nat) : Bool := bit (q.leases.getD h 0#32).toNat b

theorem bit_toNat {n : Nat} (x : BitVec n) (b : Nat) : bit x.toNat b = x.getLsbD b := by
  simp [bit, BitVec.getLsbD, Nat.testBit_eq_decide_div_mod_eq, beq_eq_decide]

/-- A grant gives the banks of its mask to its group alone. -/
theorem Cluster.grant_has (q : Cluster) (m : Word) (g : Nat) {h b : Nat} (hh : h < 4) (hb : b < 32) :
    (q.grant m g).has h b = if m.getLsbD b then decide (h = g) else q.has h b := by
  have lease : (leaseTo q.leases m g).getD h 0#32 =
      if h = g then q.leases.getD h 0#32 ||| m else q.leases.getD h 0#32 &&& ~~~m := by
    simp [leaseTo, List.getD_eq_getElem?_getD, hh]
  show bit ((leaseTo q.leases m g).getD h 0#32).toNat b = _
  rw [lease, Cluster.has, bit_toNat, bit_toNat]
  generalize q.leases.getD h 0#32 = held
  split
  · simp only [BitVec.getLsbD_or]
    cases m.getLsbD b <;> simp_all
  · simp only [BitVec.getLsbD_and, BitVec.getLsbD_not]
    cases m.getLsbD b <;> simp_all

/-- Before its 2 clk have passed the one grant waits. -/
theorem Cluster.after_waits {q : Cluster} {m : Word} {g d : Nat} (one : q.grants = [(m, g, 2)]) (early : d < 2) :
    (q.after d).leases = q.leases ∧ (q.after d).grants = [(m, g, 2 - d)] := by
  have left : 2 - d ≠ 0 := by omega
  simp [Cluster.after, Cluster.granted, one, left]

/-- Once its 2 clk have passed it takes effect. -/
theorem Cluster.after_takes {q : Cluster} {m : Word} {g d : Nat} (one : q.grants = [(m, g, 2)]) (late : 2 ≤ d) :
    (q.after d).leases = (q.grant m g).leases ∧ (q.after d).grants = [] := by
  have left : 2 - d = 0 := by omega
  simp [Cluster.after, Cluster.granted, one, left, Cluster.grant]

/-- A grant of banks that each have one holder leaves each with one. -/
theorem Cluster.grant_partitions {q : Cluster} {m : Word} {g : Nat} (hg : g < 4)
    (parts : ∀ b, b < 32 → ∃ g, g < 4 ∧ ∀ h, h < 4 → (q.has h b = true ↔ h = g)) :
    ∀ b, b < 32 → ∃ g', g' < 4 ∧ ∀ h, h < 4 → ((q.grant m g).has h b = true ↔ h = g') := by
  intro b hb
  cases masked : m.getLsbD b with
  | true => exact ⟨g, hg, fun h hh => by simp [q.grant_has m g hh hb, masked]⟩
  | false =>
    obtain ⟨holder, lt, only⟩ := parts b hb
    exact ⟨holder, lt, fun h hh => by simpa [q.grant_has m g hh hb, masked] using only h hh⟩

/-! ### Tables filled from a list -/

section
variable {α β : Type} (f : Nat × α → β)

theorem mfind_eachPut_ne {l : List (Nat × α)} {k : Nat} (h : k ∉ l.map Prod.fst) (m : NMap β) :
    mfind (l.foldl (fun m p => mput m p.1 (f p)) m) k = mfind m k := by
  induction l generalizing m with
  | nil => rfl
  | cons p l ih =>
    rw [List.map_cons, List.mem_cons, not_or] at h
    exact (ih h.2 _).trans (mfind_mput_ne _ _ h.1)

theorem mfind_eachPut_mem {l : List (Nat × α)} (once : (l.map Prod.fst).Nodup) {p : Nat × α} (h : p ∈ l) (m : NMap β) :
    mfind (l.foldl (fun m p => mput m p.1 (f p)) m) p.1 = some (f p) := by
  induction l generalizing m with
  | nil => cases h
  | cons q l ih =>
    obtain ⟨fresh, once⟩ := List.nodup_cons.mp once
    obtain rfl | h := List.mem_cons.mp h
    · exact (mfind_eachPut_ne f fresh _).trans (mfind_mput_self ..)
    · exact ih once h _

end

/-! ### LAUNCH (R73 to R75, R166) -/

theorem Cluster.mem_freeSlots {q : Cluster} {g : Nat} (h : g ∈ q.freeSlots) : mfind q.groups g = none := by
  simpa [Cluster.freeSlots] using (List.mem_filter.mp h).2

theorem Cluster.freeSlots_nodup (q : Cluster) : q.freeSlots.Nodup := List.nodup_range.filter _

/-- The slots that a launch of `n` groups takes, with the groups' indices. -/
def Cluster.taken (q : Cluster) (n : Nat) : List (Nat × Nat) := (q.freeSlots.take n).zipIdx

theorem Cluster.taken_slots (q : Cluster) (n : Nat) : (q.taken n).map Prod.fst = q.freeSlots.take n := List.zipIdx_map_fst ..

theorem Cluster.mem_taken {q : Cluster} {n i slot : Nat} (hi : i < n) (is : q.freeSlots[i]? = some slot) : (slot, i) ∈ q.taken n := by
  rw [Cluster.taken, List.mk_mem_zipIdx_iff_getElem?, List.getElem?_take, if_pos hi, is]

/-- A launched block: its groups in the slots it takes, and the groups that were. -/
theorem State.launchBlock_spec (s : State) (c t : Nat) (b : List Byte) :
    let u := s.launchBlock c t b
    let q := s.cluster c
    (u.cluster c).ctxs = q.ctxs ∧ u.tick = s.tick ∧ mfind (u.cluster c).blocks (lBlock b) = some ⟨t, lCount b, 0, []⟩ ∧
      (∀ i slot, i < lCount b → q.freeSlots[i]? = some slot → u.group c slot = some (s.newGroup c t b i q.launches)) ∧
      (∀ h x, s.group c h = some x → u.group c h = some x) := by
  intro u q
  have groups (h : Nat) : u.group c h = mfind ((q.taken (lCount b)).foldl
      (fun m p => mput m p.1 (s.newGroup c t b p.2 q.launches)) q.groups) h := by
    simp only [u, State.launchBlock, State.schedule_group]
    simp only [State.group, State.modCluster_self]
    rfl
  refine ⟨?_, rfl, ?_, fun i slot hi is => ?_, fun h x is => ?_⟩
  · exact (State.schedule_same _ c c Cluster.ctxs fun _ _ => rfl).trans (by rw [State.modCluster_self])
  · simp [u, State.launchBlock]
  · rw [groups]
    exact mfind_eachPut_mem _ (by rw [q.taken_slots]; exact q.freeSlots_nodup.sublist (List.take_sublist ..)) (Cluster.mem_taken hi is) _
  · rw [groups, mfind_eachPut_ne _ _ _]
    · exact is
    · rw [q.taken_slots]
      intro taken
      have free := Cluster.mem_freeSlots (List.mem_of_mem_take taken)
      rw [show mfind q.groups h = some x from is] at free
      cases free

/-- Bytes of a quarter store whose words have no error are read as memory holds them. -/
theorem State.readBytes_clean {s : State} {g : Nat} {as : List Nat} (above : ∀ a ∈ as, 2 ^ 31 ≤ a)
    (clean : ∀ a ∈ wordsOf as, s.eccOf a = 0) : s.readBytes g false as = as.map s.byte := by
  refine ReadsMemory.bytes ⟨fun a ha => ⟨?_, fun low => absurd low (Nat.not_lt.mpr (above a ha))⟩, fun h => nomatch h⟩
  have word : a / 8 * 8 ∈ wordsOf as := List.mem_dedup.mpr (List.mem_map_of_mem ha)
  simpa [State.eccOf] using clean _ word

/-- A context's code region holds the `n` bytes at offset `off`, in words without an error. -/
def CleanCode (s : State) (c k off n : Nat) : Prop :=
  ∀ a ∈ wordsOf ((List.range n).map (fun i => s.codeAt c k off + i)), s.eccOf a = 0

theorem CleanCode.bytes {s : State} {c k off n : Nat} (h : CleanCode s c k off n) :
    s.readBytes 4 false ((List.range n).map (fun i => s.codeAt c k off + i)) = s.bytes (s.codeAt c k off) n := by
  rw [State.readBytes_clean (fun a ha => ?_) h, List.map_map]
  · rfl
  · obtain ⟨i, -, rfl⟩ := List.mem_map.mp ha
    simp only [State.codeAt, qsAddr]
    omega

/-- A launch record that passes its checks, with handle entries that are read without error, launches its block. -/
theorem State.launchOf_passes {s : State} {c k t : Nat} (w : QWord) {b : List Byte} (code : CleanEntry s c (lCode b))
    (window : CleanEntry s c (lWindow b)) (passes : s.launchFault c k b = none) :
    s.launchOf c k t w b = (s.setCtx c k (pastWord s c k w)).launchBlock c t b := by
  simp only [State.launchOf, passes, code.touch, window.touch, code.good, window.good, Bool.or_self, Bool.false_eq_true, if_false]
  rfl

theorem exec_launch {s : State} {c : Fin 512} {k : Fin 9} {w : BitVec 64} (runs : SeqRuns s c k w 8) (tenant : (k : Nat) ≠ 8)
    (clear : qw w 47 26 = 0) (aligned : qw w 25 0 % 64 = 0) (covered : qw w 25 0 + 64 ≤ (s.ctxEntry c k).len)
    (clean : CleanCode s c k (qw w 25 0) 64) :
    exec (.launch c k w) s = .next (s.launchOf c k (s.ctxEntry c k).tenant w (s.bytes (s.codeAt c k (qw w 25 0)) 64)) := by
  show execLaunch c k w s = _
  have legal : (qClear w 47 26 && qw w 25 0 % 64 == 0) = true := by simp [runs.qClear clear, aligned]
  have read (t : Nat) : s.each (wordsOf ((List.range 64).map (fun i => s.codeAt c k (qw w 25 0) + i)))
      (fun u x => u.touch x 6 t) = s := State.each_same fun a ha => State.touch_clean (clean a ha)
  unfold execLaunch
  dsimp only
  rw [legal, runs.issueSeq (if_neg tenant), if_neg (Nat.not_lt.mpr covered), read, clean.bytes]

/-! ### JOIN (R76, R166) -/

theorem exec_join {s : State} {c : Fin 512} {k : Fin 9} {w : BitVec 64} (runs : SeqRuns s c k w 9) (tenant : (k : Nat) ≠ 8)
    (clear : qw w 47 4 = 0) (allowed : bit (s.ctxEntry c k).blockMask (qw w 3 0) = true) :
    exec (.join c k w) s = .next (s.setCtx c k (if (mfind (s.cluster c).blocks (qw w 3 0)).isNone then pastWord s c k w
      else { pastWord s c k w with state := .wait, wait := .join (qw w 3 0) })) := by
  show execJoin c k w s = _
  simp only [execJoin, runs.qClear clear, runs.issueSeq (if_neg tenant), allowed, Bool.not_true, Bool.false_eq_true, if_false]
  rw [apply_ite (s.setCtx c k)]
  rfl

section
variable {s : State} {c : Fin 512} {blk : Fin 16} {x : Block} (lives : mfind (s.cluster c).blocks blk = some x)
include lives

/-- A block with a group, a copy or a write left is not joined. -/
theorem exec_joinComplete_waits (left : x.groups ≠ 0 ∨ x.copies ≠ 0 ∨ s.writesOut c blk = true) :
    exec (.joinComplete c blk) s = .next s := by
  show execJoinComplete c blk s = _
  simp only [execJoinComplete, lives]
  rw [if_neg]
  rintro ⟨groups, copies, writes, -⟩
  simp [groups, copies, writes] at left

/-- A block with nothing left, which a context has joined, is gone, and its contexts run again. -/
theorem exec_joinComplete_ends (groups : x.groups = 0) (copies : x.copies = 0) (writes : s.writesOut c blk = false)
    (joined : ∃ p ∈ (s.cluster c).ctxs, p.2.state = .wait ∧ p.2.wait = .join blk) :
    exec (.joinComplete c blk) s = .next (s.modCluster c (fun q => { q with
      blocks := merase q.blocks blk, ctxs := q.ctxs.map (fun p => (p.1, p.2.joined blk)) })) := by
  have waits : (s.cluster c).ctxs.any (fun p => p.2.state == .wait && p.2.wait == .join blk) = true := by
    simpa [List.any_eq_true] using joined
  show execJoinComplete c blk s = _
  simp only [execJoinComplete, lives]
  rw [if_pos ⟨groups, copies, writes, waits⟩]
  rfl

end

/-! ### The obligation -/

/-- Settles O7: a grant gives the banks of its mask to one group; a launch fills free slots alone; a join waits on its block, which
ends once nothing of it is left. -/
theorem leaseLaunchJoin : Obligations.LeaseLaunchJoin := by
  unfold Obligations.LeaseLaunchJoin
  refine ⟨fun s c w => ?lease, fun q m g d => ?grant, fun s c k w => ⟨?launch, ?join, ?ends, ?waits⟩⟩
  case lease =>
    intro runs clear
    refine ⟨_, exec_lease runs clear, (s.setCtx_becomes ..).modCluster (fun _ => rfl) (fun _ => rfl), ?_, ?_⟩
    · rw [State.modCluster_self, s.setCtx_same Cluster.grants (fun _ _ => rfl)]
    · rw [State.modCluster_self, s.setCtx_same Cluster.leases (fun _ _ => rfl)]
  case grant =>
    intro one hg has
    refine ⟨Cluster.after_waits one, fun late => ?_⟩
    obtain ⟨leases, grants⟩ := Cluster.after_takes one late
    have same (h b : Nat) : has (q.after d) h b = (q.grant m g).has h b := by
      simp only [has, leases, Cluster.has]
    simp only [same]
    exact ⟨grants, fun b hb h hh => q.grant_has m g hh hb, Cluster.grant_partitions hg⟩
  case launch =>
    intro runs not_lease clear aligned covered clean code window passes
    have tenant : (k : Nat) ≠ 8 := fun lease => not_lease (Fin.ext lease)
    obtain ⟨ctxs, tick, blocks, started, kept⟩ :=
      (s.setCtx c k (pastWord s c k w)).launchBlock_spec c (s.ctxEntry c k).tenant (s.bytes (s.codeAt c k (qw w 25 0)) 64)
    have free := s.setCtx_same Cluster.freeSlots (fun _ _ => rfl) c k (pastWord s c k w) c
    rw [free] at started
    have launches := (exec_launch runs tenant clear aligned covered clean).trans
      (congrArg Host.Outcome.next (State.launchOf_passes w code window passes))
    refine ⟨_, launches, ?_, blocks, fun i slot hi is => ?_,
      fun h x is => kept h x ?_, tick⟩
    · rw [State.ctx, ctxs]
      exact (s.setCtx_becomes ..).1
    · refine ⟨_, started i slot hi is, rfl, rfl, rfl, rfl, rfl, rfl, rfl, rfl, rfl, rfl, rfl, rfl, rfl, fun _ _ => rfl, fun _ => rfl⟩
    · rwa [State.group_of_cluster (s.setCtx_same Cluster.groups (fun _ _ => rfl) c k _ c)]
  case join =>
    intro runs not_lease clear allowed
    exact ⟨_, exec_join runs (fun lease => not_lease (Fin.ext lease)) clear allowed, s.setCtx_becomes ..⟩
  case ends =>
    intro blk x lives groups copies writes joined
    refine ⟨_, exec_joinComplete_ends lives groups copies writes joined, ?_, fun j other => ?_, fun j z is => ?_, ?_,
      fun d other => State.modCluster_others _ _ other⟩
    · simp
    · rw [State.modCluster_self]
      exact mfind_merase_ne _ other
    · rw [State.modCluster_self]
      simp only [mfind_map (fun y => Ctx.joined y blk), is, Option.map_some]
      rfl
    · rw [State.modCluster_self]
  case waits =>
    intro blk x lives left
    exact exec_joinComplete_waits lives left

end Sys2Proof.Machine
end

section
/-!
PROOF. Load records (06 Table 06-8; 10 R265 to R269): what a record's window makes of it, and what a keeper or a chain's next hop
does with it.
-/
namespace Sys2Proof.Machine

/-! ### The load engine changed -/

/-- The load engine with a record of a chain noted as received (R267). -/
def Load.noted (l : Load) (id number : Nat) : Load :=
  let w := (lfind l.windows id).getD (0, [])
  { l with windows := lput l.windows id (slide 257 w.1 (addOnce w.2 number)) }

theorem State.noteRecord_eq (s : State) (id number : Nat) : s.noteRecord id number = s.modLoad (fun l => l.noted id number) := rfl

section
variable (s : State) (f : Load → Load)

/-- Counting and a change of the load engine change places. -/
theorem State.cnt_modLoad (r : Reg) : (s.modLoad f).cnt r = (s.cnt r).modLoad f := by
  unfold State.cnt
  dsimp only
  have frozen : (s.modLoad f).hdr (pageNo r.page 0) hCtl = s.hdr (pageNo r.page 0) hCtl := rfl
  rw [frozen]
  split <;> rfl

theorem State.logical_modLoad (phys : Nat) : (s.modLoad f).logical phys = s.logical phys := rfl

theorem State.hopDevice_modLoad (v : Bool × Nat) : (s.modLoad f).hopDevice v = s.hopDevice v := rfl

/-- Sending a record on reads nothing of the load engine. -/
theorem State.sendRecord_modLoad (e : Nat) (r : LoadRecord) : (s.modLoad f).sendRecord e r = (s.sendRecord e r).modLoad f := by
  unfold State.sendRecord
  have via : (s.modLoad f).chainVia e = s.chainVia e := rfl
  rw [via]
  split
  · exact s.cnt_modLoad f _
  · rw [s.cnt_modLoad f, s.logical_modLoad f, s.hopDevice_modLoad f]
    rfl

end

/-- The addresses of extents are those that the handle tables give. -/
theorem State.rangeAddrs_congr {s t : State} (h : t.clusters = s.clusters) (l : List Extent) (off n : Nat) :
    t.rangeAddrs l off n = s.rangeAddrs l off n := by
  have addrs (x : Extent) : t.extentAddrs x = s.extentAddrs x := by
    unfold State.extentAddrs
    rw [show t.entry x.cluster x.handle = s.entry x.cluster x.handle by simp only [State.entry, State.cluster_of_clusters h]]
  induction l generalizing off n with
  | nil => rfl
  | cons x l ih => simp only [State.rangeAddrs, addrs, ih]

theorem State.length_rangeAddrs (s : State) (l : List Extent) (off n : Nat) : (s.rangeAddrs l off n).length ≤ n := by
  induction l generalizing off n with
  | nil => exact Nat.zero_le n
  | cons x l ih =>
    unfold State.rangeAddrs
    split
    · exact ih ..
    · have first : ((List.drop off (s.extentAddrs x)).take n).length ≤ n := List.length_take_le ..
      have rest := ih 0 (n - ((List.drop off (s.extentAddrs x)).take n).length)
      simp only [List.length_append]
      omega

theorem State.parity_modLoad (s : State) (f : Load → Load) (r : LoadRecord) : (s.modLoad f).parity r = s.parity r := by
  unfold State.parity State.shareRead
  rw [State.rangeAddrs_congr (s := s) (t := s.modLoad f) rfl]
  rfl

/-! ### What is stored -/

/-- An access that waits for its bank is served (R188). -/
theorem State.lost_waits (s : State) (a : Nat) : s.lost 4 a = false := by simp [State.lost]

/-- A write that waits for its banks stores its bytes in order. -/
theorem State.writeBytes_waits_mem (s : State) (src tenant : Nat) (as : List Nat) (data : List Byte) :
    (s.writeBytes 4 src tenant as data).mem = storedIn s.mem (as.zip data) := by
  simp only [State.writeBytes, State.lost_waits, Bool.not_false, List.filter_true, State.draw_mem, State.storeAt_mem]
  rw [State.each_keeps State.mem (fun t a => State.wordWritten_mem ..)]

/-- Bytes stored as 0 are 0. -/
theorem storedIn_zero {l : List (Nat × Byte)} (zero : ∀ p ∈ l, p.2 = 0#8) {m : List Host.Cell} {a : Nat}
    (h : a ∈ l.map Prod.fst ∨ mget 0#8 m a = 0#8) : mget 0#8 (storedIn m l) a = 0#8 := by
  induction l generalizing m with
  | nil => simpa [storedIn] using h
  | cons p l ih =>
    refine ih (fun q hq => zero q (List.mem_cons_of_mem _ hq)) ?_
    by_cases here : a = p.1
    · exact .inr (by rw [here, mget_mset_self, zero p List.mem_cons_self])
    · rw [mget_mset_ne _ _ _ here]
      simpa [here] using h

/-! ### Windows (R267) -/

/-- The record's number lies in its chain's window and has not come (R267). -/
def InWindow (s : State) (r : LoadRecord) : Prop :=
  (s.window r.chain).1 ≤ r.number ∧ r.number < (s.window r.chain).1 + 256 ∧ r.number ∉ (s.window r.chain).2

/-- The answer to a record at a port. -/
def replyTo (port : Fin 16) (r : LoadRecord) (nack : Nat) : Out := .recordReply port r.chain r.number nack

/-- A record that waits for admission, or for the span to hold. -/
def State.withhold (s : State) (port : Fin 16) (r : LoadRecord) : State :=
  s.modLoad (fun l => { l with held := l.held ++ [⟨r, port.val, none, none⟩] })

/-- A record that has been taken: noted, and answered OK. -/
def State.answerOk (s : State) (port : Fin 16) (r : LoadRecord) : State :=
  (s.noteRecord r.chain r.number).send (replyTo port r 0)

section
variable {s : State} {port : Fin 16} {r : LoadRecord}

theorem State.serveRecord_outside (h : r.number < (s.window r.chain).1 ∨ (s.window r.chain).1 + 256 ≤ r.number) :
    s.serveRecord ⟨r, port, none, none⟩ = (s.cnt R.wldChainErr).send (replyTo port r 0x47) := by
  simp only [State.serveRecord, State.takeRecord, if_pos h]
  rfl

theorem State.serveRecord_again (low : (s.window r.chain).1 ≤ r.number) (high : r.number < (s.window r.chain).1 + 256)
    (known : r.number ∈ (s.window r.chain).2) : s.serveRecord ⟨r, port, none, none⟩ = s.send (replyTo port r 0) := by
  have inside : ¬(r.number < (s.window r.chain).1 ∨ (s.window r.chain).1 + 256 ≤ r.number) := by omega
  have listed : (s.window r.chain).2.contains r.number = true := by simpa using known
  simp only [State.serveRecord, State.takeRecord, if_neg inside, listed, if_true]
  rfl

theorem InWindow.takeRecord (h : InWindow s r) : s.takeRecord r = if !s.mayLoad then (s, .held)
    else if (s.actRecord r).2 = .held then s.actRecord r
    else ((s.actRecord r).1.noteRecord r.chain r.number, (s.actRecord r).2) := by
  obtain ⟨low, high, fresh⟩ := h
  have inside : ¬(r.number < (s.window r.chain).1 ∨ (s.window r.chain).1 + 256 ≤ r.number) := by omega
  have unlisted : (s.window r.chain).2.contains r.number = false := by simpa using fresh
  simp only [State.takeRecord, if_neg inside, unlisted, Bool.false_eq_true, if_false]

/-- While the span runs, a record waits (R265). -/
theorem InWindow.serve_running (h : InWindow s r) (running : s.mayLoad = false) :
    s.serveRecord ⟨r, port, none, none⟩ = s.withhold port r := by
  simp only [State.serveRecord, h.takeRecord, running]
  rfl

theorem InWindow.serve_held (h : InWindow s r) (may : s.mayLoad = true) (act : s.actRecord r = (s, .held)) :
    s.serveRecord ⟨r, port, none, none⟩ = s.withhold port r := by
  simp only [State.serveRecord, h.takeRecord, may, act]
  rfl

theorem InWindow.serve_ok (h : InWindow s r) (may : s.mayLoad = true) {t : State} (act : s.actRecord r = (t, .ok)) :
    s.serveRecord ⟨r, port, none, none⟩ = t.answerOk port r := by
  simp only [State.serveRecord, h.takeRecord, may, act]
  rfl

end

/-! ### The commands -/

/-- The command that brings a record of its kind. -/
def Brings (load : Instr) (port : Fin 16) (r : LoadRecord) : Prop :=
  r.kind = 1 ∧ load = .sectionRecord port r ∨ r.kind = 2 ∧ load = .shareRecord port r ∨
    r.kind = 3 ∧ load = .stateRecord port r ∨ r.kind = 4 ∧ load = .endRecord port r

section
variable {s : State} {port : Fin 16} {r : LoadRecord}

theorem exec_brings {load : Instr} (h : Brings load port r) (s : State) :
    exec load s = .next (s.serveRecord ⟨r, port, none, none⟩).pump := by
  have own {kind : Nat} (is : r.kind = kind) : s.portRecord port kind r = (s.serveRecord ⟨r, port, none, none⟩).pump :=
    if_neg (not_not_intro is)
  obtain ⟨is, rfl⟩ | ⟨is, rfl⟩ | ⟨is, rfl⟩ | ⟨is, rfl⟩ := h <;> exact congrArg Host.Outcome.next (own is)

/-- What is done with a record where the free plane is at rest and stays so. -/
theorem exec_brings_rest {load : Instr} (h : Brings load port r) {t : State} (serve : s.serveRecord ⟨r, port, none, none⟩ = t)
    (rest : AtRest t) : exec load s = .next t := by
  rw [exec_brings h, serve, State.pump_rest rest]

end

end Sys2Proof.Machine
end

section
/-!
PROOF. What becomes of a record that is taken (06 Table 06-8; 10 R268, R269), and the share's verdict (10 R270, R271, R284).
-/
namespace Sys2Proof.Machine

/-! ### A keeper's record (R269) -/

theorem AtRest.answerOk {t : State} (h : AtRest t) (port : Fin 16) (r : LoadRecord) : AtRest (t.answerOk port r) := h.of_same rfl rfl

section
variable {s : State} {r : LoadRecord}

theorem State.actRecord_mine (mine : r.keeper = s.rd R.spnPos) : s.actRecord r = s.keep r := by
  simp only [State.actRecord, if_pos mine]

theorem State.actRecord_onward (other : r.keeper ≠ s.rd R.spnPos) {e : Nat} (chain : s.chainOf r.chain = some e) :
    s.actRecord r = (s.sendRecord e (if r.xor && s.chainRole e == 3 then s.parity r else r), .ok) := by
  simp only [State.actRecord, if_neg other, chain]

theorem State.sendRecord_end {e : Nat} (last : s.chainVia e = none) (r : LoadRecord) : s.sendRecord e r = s.cnt R.wldChainErr := by
  simp only [State.sendRecord, last]

/-- A record that goes on from where it has no next hop is dropped and counted (R268). -/
theorem State.actRecord_dropped (other : r.keeper ≠ s.rd R.spnPos)
    (dropped : s.chainOf r.chain = none ∨ ∃ e, s.chainOf r.chain = some e ∧ s.chainVia e = none) :
    s.actRecord r = (s.cnt R.wldChainErr, .ok) := by
  obtain none_ | ⟨e, chain, last⟩ := dropped
  · simp only [State.actRecord, if_neg other, none_]
  · rw [State.actRecord_onward other chain, State.sendRecord_end last]

/-- A record of the section goes on with it (R269). -/
theorem State.keep_section (section_ : r.kind = 1) (open_ : s.image.admitDone = false) (loading : s.load.verdict ≠ 0) :
    s.keep r = (s.modLoad (fun l => { l with section_ := mput l.section_ r.offset r.payload }), .ok) := by
  simp [State.keep, section_, open_, loading]

/-- A record of the section where admission has ended, or nothing was loading, begins a load (R179). -/
theorem State.keep_sectionAnew (section_ : r.kind = 1) (anew : s.image.admitDone = true ∨ s.load.verdict = 0) :
    s.keep r = (s.beginLoad.modLoad (fun l => { l with section_ := mput l.section_ r.offset r.payload }), .ok) := by
  have begins : (s.image.admitDone || s.load.verdict == 0) = true := by simpa using anew
  simp only [State.keep, section_, begins, if_true]

theorem State.keep_early (kind : r.kind = 2 ∨ r.kind = 3) (open_ : s.image.admitDone = false) : s.keep r = (s, .held) := by
  obtain is | is := kind <;> simp [State.keep, is, open_]

theorem State.keep_refused (kind : r.kind = 2 ∨ r.kind = 3) (done : s.image.admitDone = true) (fails : s.image.admitPass = false) :
    s.keep r = (s.cnt R.wldChainErr, .ok) := by
  obtain is | is := kind <;> simp [State.keep, is, done, fails]

theorem State.keep_stored (kind : r.kind = 2 ∨ r.kind = 3) (done : s.image.admitDone = true) (passes : s.image.admitPass = true) :
    s.keep r = (s.storeRecord r, .ok) := by
  obtain is | is := kind <;> simp [State.keep, is, done, passes]

theorem State.keep_end (kind : r.kind = 4) : s.keep r = (s.modLoad (fun l => { l with ended := true }), .ok) := by
  simp only [State.keep, kind]

end

/-! ### Payloads stored (R269) -/

/-- The load engine with its verdict at least LOADING. -/
def Load.begun (l : Load) : Load := { l with verdict := if l.verdict = 0 then 1 else l.verdict }

theorem Load.begun_verdict (l : Load) : l.begun.verdict = max 1 l.verdict := by
  unfold Load.begun
  dsimp only
  split <;> omega

/-- A payload written to its extents: memory holds it, and the free plane rests as before. -/
structure Stores (s t : State) (as : List Nat) (data : List Byte) (f : Load → Load) : Prop where
  mem : t.mem = storedIn s.mem (as.zip data)
  load : t.load = f s.load.begun
  rest : AtRest s → AtRest t

theorem State.writeLoad_stores (s : State) (as : List Nat) (data : List Byte) (f : Load → Load) :
    Stores s (((s.modLoad Load.begun).writeBytes 4 12 0 as data).modLoad f) as data f := by
  have scrub := (s.modLoad Load.begun).writeBytes_scrubOnly 4 12 0 as data
  have units := (s.modLoad Load.begun).writeBytes_sameUnits 4 12 0 as data
  obtain ⟨-, -, load, -⟩ := units
  exact ⟨(s.modLoad Load.begun).writeBytes_waits_mem 12 0 as data, congrArg f load, fun rest =>
    AtRest.of_same scrub.fabric scrub.ports rest⟩

theorem State.storeRecord_share {s : State} {r : LoadRecord} (share : r.kind = 2) (plain : r.xor = false) :
    Stores s (s.storeRecord r) (s.rangeAddrs s.image.shareExtents r.offset r.payload.length) r.payload (fun l => { l with
      share := mput l.share r.offset r.payload, shareBytes := l.shareBytes + r.payload.length }) := by
  have addrs := State.rangeAddrs_congr (s := s) (t := s.modLoad Load.begun) rfl s.image.shareExtents r.offset r.payload.length
  rw [← addrs]
  have is : s.storeRecord r = ((s.modLoad Load.begun).writeBytes 4 12 0 ((s.modLoad Load.begun).rangeAddrs s.image.shareExtents r.offset
      r.payload.length) r.payload).modLoad (fun l => { l with
        share := mput l.share r.offset r.payload, shareBytes := l.shareBytes + r.payload.length }) := by
    rw [State.storeRecord, if_pos share, plain]
    rfl
  rw [is]
  exact s.writeLoad_stores ..

theorem State.storeRecord_state {s : State} {r : LoadRecord} (state : r.kind = 3) :
    Stores s (s.storeRecord r) (s.rangeAddrs s.image.stateExtents r.offset r.payload.length) r.payload (fun l => { l with
      stateBytes := l.stateBytes + r.payload.length }) := by
  have addrs := State.rangeAddrs_congr (s := s) (t := s.modLoad Load.begun) rfl s.image.stateExtents r.offset r.payload.length
  rw [← addrs]
  have is : s.storeRecord r = ((s.modLoad Load.begun).writeBytes 4 12 0 ((s.modLoad Load.begun).rangeAddrs s.image.stateExtents r.offset
      r.payload.length) r.payload).modLoad (fun l => { l with stateBytes := l.stateBytes + r.payload.length }) := by
    rw [State.storeRecord, state]
    rfl
  rw [is]
  exact s.writeLoad_stores ..

end Sys2Proof.Machine
end

section
/-!
PROOF. A record that is brought (10 R265 to R269), and the share's verdict (10 R270, R271, R284).
-/
namespace Sys2Proof.Machine

/-! ### A record for this keeper (R269) -/

theorem AtRest.cnt {s : State} (h : AtRest s) (r : Reg) (i n bank idx : Nat) : AtRest (s.cnt r i n bank idx) :=
  h.of_same (s.cnt_fabric ..) (s.cnt_ports ..)

/-- The command that a record's kind names. -/
theorem brings_of_kind {r : LoadRecord} {load : Instr} {i : Fin 16} (known : 1 ≤ r.kind ∧ r.kind ≤ 4)
    (one : r.kind = 1 → load = .sectionRecord i r) (two : r.kind = 2 → load = .shareRecord i r)
    (three : r.kind = 3 → load = .stateRecord i r) (four : r.kind = 4 → load = .endRecord i r) : Brings load i r := by
  have kinds : r.kind = 1 ∨ r.kind = 2 ∨ r.kind = 3 ∨ r.kind = 4 := by omega
  exact kinds.imp (fun h => ⟨h, one h⟩) (Or.imp (fun h => ⟨h, two h⟩) (Or.imp (fun h => ⟨h, three h⟩) (fun h => ⟨h, four h⟩)))

section
variable {s : State} {i : Fin 16} {r : LoadRecord} {load : Instr}

/-- A record whose effect leaves the free plane at rest is answered at once. -/
theorem Brings.answered (brings : Brings load i r) (window : InWindow s r) (may : s.mayLoad = true) {t : State}
    (act : s.actRecord r = (t, .ok)) (rest : AtRest t) : exec load s = .next (t.answerOk i r) :=
  exec_brings_rest brings (window.serve_ok may act) (rest.answerOk i r)

theorem Brings.section_ (brings : Brings load i r) (window : InWindow s r) (may : s.mayLoad = true) (rest : AtRest s)
    (mine : r.keeper = s.rd R.spnPos) (kind : r.kind = 1) (open_ : s.image.admitDone = false) (loading : s.load.verdict ≠ 0) :
    exec load s = .next (((s.noteRecord r.chain r.number).modLoad (fun l => { l with
      section_ := mput l.section_ r.offset r.payload })).send (replyTo i r 0)) := by
  rw [brings.answered window may ((State.actRecord_mine mine).trans (State.keep_section kind open_ loading)) (rest.of_same rfl rfl)]
  rfl

theorem Brings.sectionAnew (brings : Brings load i r) (window : InWindow s r) (may : s.mayLoad = true) (rest : AtRest s)
    (mine : r.keeper = s.rd R.spnPos) (kind : r.kind = 1) (anew : s.image.admitDone = true ∨ s.load.verdict = 0) :
    Gives load s (fun t => t.load.section_ = mput [] r.offset r.payload ∧ t.load.verdict = 1 ∧ t.image.admitDone = false ∧
      t.image.loaded = false ∧ t.out = s.out ++ [replyTo i r 0] ∧ t.mem = s.mem) :=
  ⟨_, brings.answered window may ((State.actRecord_mine mine).trans (State.keep_sectionAnew kind anew)) (rest.of_same rfl rfl),
    rfl, rfl, rfl, rfl, rfl, rfl⟩

theorem Brings.early (brings : Brings load i r) (window : InWindow s r) (may : s.mayLoad = true) (rest : AtRest s)
    (mine : r.keeper = s.rd R.spnPos) (kind : r.kind = 2 ∨ r.kind = 3) (open_ : s.image.admitDone = false) :
    exec load s = .next (s.withhold i r) :=
  exec_brings_rest brings (window.serve_held may ((State.actRecord_mine mine).trans (State.keep_early kind open_)))
    (rest.of_same rfl rfl)

/-- A record that is dropped is counted and answered (R268, R269). -/
theorem Brings.dropped (brings : Brings load i r) (window : InWindow s r) (may : s.mayLoad = true) (rest : AtRest s)
    (act : s.actRecord r = (s.cnt R.wldChainErr, .ok)) :
    exec load s = .next (((s.noteRecord r.chain r.number).cnt R.wldChainErr).send (replyTo i r 0)) := by
  rw [brings.answered window may act (rest.cnt ..), s.noteRecord_eq, s.cnt_modLoad, State.answerOk, State.noteRecord_eq]

/-- A payload that is stored is answered, and the load engine is at least LOADING. -/
theorem Brings.stored (brings : Brings load i r) (window : InWindow s r) (may : s.mayLoad = true) (rest : AtRest s) {t : State}
    (act : s.actRecord r = (t, .ok)) {as : List Nat} {f : Load → Load} (stores : Stores s t as r.payload f)
    (verdict : ∀ l, (f l).verdict = l.verdict) {P : State → Prop} (then_ : P (t.answerOk i r)) :
    Gives load s (fun t => t.mem = storedIn s.mem (as.zip r.payload) ∧ t.load.verdict = max 1 s.load.verdict ∧
      replyTo i r 0 ∈ t.out ∧ P t) := by
  obtain ⟨mem, engine, keepsRest⟩ := stores
  refine ⟨_, brings.answered window may act (keepsRest rest), mem, ?_, List.mem_append_right _ List.mem_cons_self, then_⟩
  calc (t.answerOk i r).load.verdict
      _ = t.load.verdict := rfl
      _ = max 1 s.load.verdict := by rw [engine, verdict, Load.begun_verdict]

theorem Brings.share (brings : Brings load i r) (window : InWindow s r) (may : s.mayLoad = true) (rest : AtRest s)
    (mine : r.keeper = s.rd R.spnPos) (kind : r.kind = 2) (plain : r.xor = false) (done : s.image.admitDone = true)
    (passes : s.image.admitPass = true) :
    Gives load s (fun t => t.mem = storedIn s.mem ((s.rangeAddrs s.image.shareExtents r.offset r.payload.length).zip r.payload) ∧
      t.load.verdict = max 1 s.load.verdict ∧ replyTo i r 0 ∈ t.out ∧
      t.load.shareBytes = s.load.shareBytes + r.payload.length ∧ mget [] t.load.share r.offset = r.payload) := by
  have stores := State.storeRecord_share (s := s) kind plain
  refine brings.stored window may rest ((State.actRecord_mine mine).trans (State.keep_stored (.inl kind) done passes)) stores
    (fun l => rfl) ⟨?_, ?_⟩
  · exact congrArg Load.shareBytes stores.load
  · rw [show ((s.storeRecord r).answerOk i r).load.share = (s.storeRecord r).load.share from rfl, stores.load]
    exact mget_mput_self ..

theorem Brings.state (brings : Brings load i r) (window : InWindow s r) (may : s.mayLoad = true) (rest : AtRest s)
    (mine : r.keeper = s.rd R.spnPos) (kind : r.kind = 3) (done : s.image.admitDone = true) (passes : s.image.admitPass = true) :
    Gives load s (fun t => t.mem = storedIn s.mem ((s.rangeAddrs s.image.stateExtents r.offset r.payload.length).zip r.payload) ∧
      t.load.verdict = max 1 s.load.verdict ∧ replyTo i r 0 ∈ t.out ∧
      t.load.stateBytes = s.load.stateBytes + r.payload.length) := by
  have stores := State.storeRecord_state (s := s) kind
  exact brings.stored window may rest ((State.actRecord_mine mine).trans (State.keep_stored (.inr kind) done passes)) stores
    (fun l => rfl) (congrArg Load.stateBytes stores.load)

theorem Brings.end_ (brings : Brings load i r) (window : InWindow s r) (may : s.mayLoad = true) (rest : AtRest s)
    (mine : r.keeper = s.rd R.spnPos) (kind : r.kind = 4) :
    exec load s = .next (((s.noteRecord r.chain r.number).modLoad (fun l => { l with ended := true })).send (replyTo i r 0)) := by
  rw [brings.answered window may ((State.actRecord_mine mine).trans (State.keep_end kind)) (rest.of_same rfl rfl)]
  rfl

/-! ### A record for another keeper (R268) -/

theorem Brings.onward (brings : Brings load i r) (window : InWindow s r) (may : s.mayLoad = true) (other : r.keeper ≠ s.rd R.spnPos)
    {e : Nat} (chain : s.chainOf r.chain = some e) {q : LoadRecord}
    (sent : (if r.xor && s.chainRole e == 3 then s.parity r else r) = q) :
    exec load s = .next (((s.noteRecord r.chain r.number).sendRecord e q).send (replyTo i r 0)).pump := by
  have act := State.actRecord_onward other chain
  rw [sent] at act
  rw [exec_brings brings, window.serve_ok may act, s.noteRecord_eq, s.sendRecord_modLoad, State.answerOk, State.noteRecord_eq]

end

/-! ### The share's verdict (R270, R271, R284) -/

theorem exec_shareVerdict (s : State) : exec .shareVerdict s =
    .next (if s.load.ended && s.image.admitPass && decide (s.load.verdict ≤ 1) then s.shareVerdict else s) := rfl

theorem exec_refillTimeout (s : State) : exec .refillTimeout s = .next (if s.load.verdict ≤ 1 then s.shareBad else s) := rfl

/-- The share is in memory as its manifest says (R271). -/
theorem State.shareGood_iff (s : State) : s.shareGood = true ↔
    shareDigest (joinRuns s.load.share) = s.image.shareDigest ∧ s.load.shareBytes = s.image.shareLen := by
  simp only [State.shareGood, Bool.and_eq_true, decide_eq_true_eq, beq_iff_eq]

theorem State.stateDone_iff (s : State) : s.stateDone = true ↔ s.load.stateBytes = natSum (s.image.stateExtents.map (·.len)) := by
  rw [State.stateDone, beq_iff_eq]

/-- What verdict BAD leaves of a state: the bytes at `lost` are 0, and the section stands. -/
structure ShareLost (s t : State) (lost : List Nat) : Prop where
  verdict : t.load.verdict = 3
  zero : ∀ a ∈ lost, t.byte a = 0#8
  others : ∀ a, a ∉ lost → t.byte a = s.byte a
  signals : Signals t .wld 0 1
  image : t.image = s.image
  section_ : t.load.section_ = s.load.section_

theorem State.shareBad_lost (s : State) : ShareLost s s.shareBad (s.rangeAddrs s.image.shareExtents 0 s.image.shareLen) := by
  let lost := s.rangeAddrs s.image.shareExtents 0 s.image.shareLen
  let cleared := lost.zip (zeros s.image.shareLen)
  let s1 := s.writeBytes 4 12 0 lost (zeros s.image.shareLen)
  have written : s1.mem = storedIn s.mem cleared := s.writeBytes_waits_mem ..
  have mem : s.shareBad.mem = storedIn s.mem cleared := by
    rw [← written, State.shareBad, State.event_mem, State.violate_mem]
    rfl
  have fits : lost.length ≤ (zeros s.image.shareLen).length := by
    rw [zeros, List.length_replicate]
    exact s.length_rangeAddrs ..
  have addrs : cleared.map Prod.fst = lost := List.map_fst_zip fits
  have allZero : ∀ p ∈ cleared, p.2 = 0#8 := fun p hp => List.eq_of_mem_replicate (List.of_mem_zip hp).2
  obtain ⟨-, image, load, -⟩ := s.writeBytes_sameUnits 4 12 0 lost (zeros s.image.shareLen)
  constructor
  case verdict => rw [State.shareBad, State.event_load, State.violate_load]; rfl
  case zero =>
    intro a ha
    rw [State.byte, mem]
    exact storedIn_zero allZero (.inl (addrs ▸ ha))
  case others => exact fun a ha => State.byte_of_storedIn mem (addrs.symm ▸ ha)
  case signals => exact State.event_signals _ _ _ (by decide)
  case image => rw [State.shareBad, State.event_image, State.violate_image]; exact image
  case section_ =>
    rw [State.shareBad, State.event_load, State.violate_load]
    exact (congrArg Load.section_ load : s1.load.section_ = s.load.section_)

end Sys2Proof.Machine
end

section
/-!
PROOF. Admission (05 R178, R179, R196): what a section that is discarded and one that is installed leave; and O47.
-/
namespace Sys2Proof.Machine

/-! ### Ports as an image is loaded (R15, R218) -/

/-- A port's own work: everything is as before but ports and what they show, and so is what waits at every port's output. -/
structure PortWork (s t : State) : Prop where
  same : SameButPorts s t
  queues : ∀ q, (t.port q).queue = (s.port q).queue

theorem PortWork.trans {s t u : State} (h : PortWork s t) (h' : PortWork t u) : PortWork s u :=
  ⟨h.same.trans h'.same, fun q => (h'.queues q).trans (h.queues q)⟩

section
variable {s t : State} (h : PortWork s t)
include h

theorem PortWork.image : t.image = s.image := h.same.2.2.1

theorem PortWork.clusters : t.clusters = s.clusters := h.same.2.2.2.1

theorem PortWork.fabric : t.fabric = s.fabric := h.same.2.2.2.2.1

theorem PortWork.load : t.load = s.load := h.same.2.2.2.2.2.1

theorem PortWork.mem : t.mem = s.mem := by
  obtain ⟨-, -, -, -, -, -, -, -, -, -, -, -, mem, -⟩ := h.same
  exact mem

end

theorem PortWork.each {α : Type} {l : List α} {f : State → α → State} (h : ∀ s a, PortWork s (f s a)) (s : State) :
    PortWork s (s.each l f) :=
  ⟨(SameButPorts.refl s).each fun t a => (h t a).same,
    fun q => State.each_keeps (fun t => (t.port q).queue) (fun t a => (h t a).queues q) s⟩

theorem State.modPort_portWork (s : State) (p : Nat) {f : Port → Port} (h : ∀ x, (f x).queue = x.queue) :
    PortWork s (s.modPort p f) := ⟨s.modPort_sameButPorts p f, (s.modPort_linkStep p h).queues⟩

theorem State.portState_portWork (s : State) (p : Nat) (x : PortState) : PortWork s (s.portState p x) := by
  refine ⟨s.portState_sameButPorts p x, fun q => ?_⟩
  have moved := (s.modPort_portWork p (f := fun y => { y with state := x }) fun _ => rfl).queues q
  rw [← moved, State.portState]
  split
  · rw [State.port, State.event_ports]; rfl
  · rfl

theorem State.sendTraining_portWork (s : State) (p l : Nat) : PortWork s (s.sendTraining p l) := by
  refine ⟨s.sendTraining_sameButPorts p l, fun q => ?_⟩
  unfold State.sendTraining
  split <;> rfl

theorem State.toDetect_portWork (s : State) (p : Nat) : PortWork s (s.toDetect p) := by
  unfold State.toDetect
  refine PortWork.trans (.trans (s.modPort_portWork p ?_) (State.portState_portWork _ p .detect))
    (PortWork.each (fun t l => t.sendTraining_portWork p l) _)
  exact fun _ => rfl

/-- A port whose mode or expected neighbour an image changes. -/
theorem State.loadPort_portWork (s : State) (b : List Byte) (p : Nat) : PortWork s (s.loadPort b p) := by
  unfold State.loadPort
  extract_lets eth n s1 s2
  have expects : PortWork s s1 := s.modPort_portWork p fun _ => rfl
  have dropped : PortWork s1 (s1.dropLink p) := s1.modPort_portWork p fun _ => rfl
  have anew : PortWork s1 s2 :=
    (dropped.trans (State.portState_portWork _ p .quiet)).trans (State.modPort_portWork _ p fun _ => rfl)
  split
  · exact expects
  · split
    · exact (expects.trans anew).trans (s2.toDetect_portWork p)
    · exact expects.trans anew

/-! ### Code regions and ports (R178) -/

theorem State.setBytes_byte_below (s : State) {a j : Nat} (h : j < a) (l : List Byte) : (s.setBytes a l).byte j = s.byte j := by
  induction l generalizing s a with
  | nil => rfl
  | cons b l ih => exact (ih (s.setByte a b) (by omega)).trans (s.setByte_byte_ne b (by omega))

/-- What follows once a section's tables stand: its code is written to its regions, and the ports take their modes. -/
def State.codeAndPorts (t : State) (b : List Byte) : State :=
  (((t.each (secRegions b) (fun t r => t.setBytes (qsAddr r.1 r.2.1) (r.2.2.2.take r.2.2.1))).wr R.tckFreeTotal (ihFree b)).each
    (List.range 16) (fun t p => t.loadPort b p)).note 4 1 0 []

/-- What the writes to quarter stores, the ports' work, a register and the device log each leave, the sequence leaves. -/
theorem State.codeAndPorts_keeps {β : Type} (π : State → β) (b : List Byte)
    (code : ∀ t q o l, π (State.setBytes t (qsAddr q o) l) = π t) (reg : ∀ t, π (State.wr t R.tckFreeTotal (ihFree b)) = π t)
    (work : ∀ t u, PortWork t u → π u = π t) (log : ∀ t, π (State.note t 4 1 0 []) = π t) (t : State) :
    π (t.codeAndPorts b) = π t := by
  rw [State.codeAndPorts, log, State.each_keeps π (fun t p => work t _ (t.loadPort_portWork b p)), reg,
    State.each_keeps π (fun t r => code t _ _ _)]

section
variable (t : State) (b : List Byte)

theorem State.codeAndPorts_image : (t.codeAndPorts b).image = t.image :=
  State.codeAndPorts_keeps State.image b (by simp) (by simp) (fun _ _ h => h.image) (by simp) t

theorem State.codeAndPorts_tick : (t.codeAndPorts b).tick = t.tick :=
  State.codeAndPorts_keeps State.tick b (by simp) (by simp) (fun _ _ h => h.same.tick) (by simp) t

theorem State.codeAndPorts_clusters : (t.codeAndPorts b).clusters = t.clusters :=
  State.codeAndPorts_keeps State.clusters b (by simp) (by simp) (fun _ _ h => h.clusters) (by simp) t

theorem State.codeAndPorts_fabric : (t.codeAndPorts b).fabric = t.fabric :=
  State.codeAndPorts_keeps State.fabric b (by simp) (by simp) (fun _ _ h => h.fabric) (by simp) t

theorem State.codeAndPorts_load : (t.codeAndPorts b).load = t.load :=
  State.codeAndPorts_keeps State.load b (by simp) (by simp) (fun _ _ h => h.load) (by simp) t

/-- Code lies in quarter stores alone. -/
theorem State.codeAndPorts_byte {a : Nat} (below : a < 2 ^ 31) : (t.codeAndPorts b).byte a = t.byte a :=
  State.codeAndPorts_keeps (fun t => t.byte a) b (fun t q o l => t.setBytes_byte_below (by rw [qsAddr]; omega) l)
    (by simp [State.byte]) (fun _ _ h => congrArg (mget 0#8 · a) h.mem) (by simp [State.byte]) t

theorem State.codeAndPorts_queues (q : Nat) : ((t.codeAndPorts b).port q).queue = (t.port q).queue :=
  State.codeAndPorts_keeps (fun t => (t.port q).queue) b (by simp [State.port]) (by simp [State.port]) (fun _ _ h => h.queues q)
    (by simp [State.port]) t

end

/-! ### Installation (R178) -/

/-- The tables of section `b` stand in `t` where `s` was: memory is 0, and every cluster is as the image leaves it. -/
structure TablesLoaded (s t : State) (b : List Byte) : Prop where
  mem : t.mem = []
  clusters : t.clusters = (List.range 512).map (fun c =>
    (c, (s.wbCancelIn 0 (2 ^ 64)).loadCluster b (secHandles b) (secCtxs b) c))
  passes : t.image.admitPass = true
  loaded : t.image.loaded = true
  self : t.image.self = secSelf b
  apart : t.tick.joined = false
  alive : t.tick.dead = []
  load : t.load = s.load
  rest : AtRest s → AtRest t

theorem State.wbCancelIn_ports (s : State) (a n : Nat) : (s.wbCancelIn a n).ports = s.ports :=
  (ScrubOnly.each (fun t _ => t.wbCancel_scrubOnly _) s).ports

theorem State.install_tables (s : State) (b : List Byte) : ∃ t, s.install b = t.codeAndPorts b ∧ TablesLoaded s t b := by
  obtain ⟨-, -, load, -⟩ := s.wbCancelIn_sameUnits 0 (2 ^ 64)
  have ports := s.wbCancelIn_ports 0 (2 ^ 64)
  refine ⟨_, rfl, rfl, by dsimp only, rfl, rfl, rfl, rfl, rfl, load, ?_⟩
  rintro ⟨unsent, unanswered, free⟩
  exact ⟨unsent, unanswered, fun p hp => (congrArg Port.queue (congrArg (mget Port.reset · p) ports)).trans (free p hp)⟩

/-- A cluster as an image load leaves it (R136, R156, R165). -/
theorem State.loadCluster_spec (s : State) (b : List Byte) (hs : List (Nat × HEntry)) (cs : List (Nat × CtxEntry)) (c : Nat) :
    (∀ p ∈ (s.loadCluster b hs cs c).ctxs, p.2.state = .done ∧ p.2.program = 0) ∧ (s.loadCluster b hs cs c).groups = [] ∧
      (s.loadCluster b hs cs c).leases = leasesReset := by
  refine ⟨fun p hp => ?_, rfl, rfl⟩
  obtain ⟨x, -, rfl⟩ := List.mem_map.mp hp
  exact ⟨rfl, rfl⟩

/-! ### ADMISSION_COMPLETE (R179) -/

/-- What the checks of section `b` make of a device: it is discarded, or installed. -/
def State.judged (s : State) (b : List Byte) : State :=
  (s.admission b).elim
    (if s.sparesShort then (s.discardSection 0 0).modLoad (fun l => { l with clustersShort := true }) else s.install b)
    (fun item => s.discardSection item.1 item.2)

section
variable {s : State} {b : List Byte}

theorem State.judged_failing {k n : Nat} (fails : s.admission b = some (k, n)) : s.judged b = s.discardSection k n := by
  rw [State.judged, fails, Option.elim_some]

theorem State.judged_short (passes : s.admission b = none) (short : s.sparesShort = true) :
    s.judged b = (s.discardSection 0 0).modLoad (fun l => { l with clustersShort := true }) := by
  rw [State.judged, passes, Option.elim_none, if_pos short]

theorem State.judged_passing (passes : s.admission b = none) (spared : s.sparesShort = false) : s.judged b = s.install b := by
  rw [State.judged, passes, Option.elim_none, if_neg (Bool.eq_false_iff.mp spared)]

end

/-- The load engine with no record withheld. -/
def Load.released (l : Load) : Load := { l with held := [] }

theorem exec_admissionComplete (s : State) : exec .admissionComplete s =
    .next (if s.image.admitDone || s.load.section_.isEmpty || !s.mayLoad then s
      else (((s.judged (joinRuns s.load.section_)).event .spn 0 1).releaseHeld).pump) := by
  change execAdmissionComplete s = _
  unfold execAdmissionComplete State.judged
  dsimp only
  cases s.admission (joinRuns s.load.section_) <;> rfl

theorem State.releaseHeld_none {s : State} (h : s.load.held = []) : s.releaseHeld = s.modLoad Load.released := by
  rw [State.releaseHeld, h]
  rfl

/-- `v` is `t` with admission's end shown as SPN's event, and no record withheld. -/
structure Announced (t v : State) : Prop where
  signals : Signals v .spn 0 1
  image : v.image = t.image
  load : v.load = t.load.released
  tick : v.tick = t.tick
  clusters : v.clusters = t.clusters
  mem : v.mem = t.mem

theorem State.event_announced (t : State) : Announced t ((t.event .spn 0 1).modLoad Load.released) :=
  ⟨State.event_signals _ _ _ (by decide), State.event_image .., congrArg Load.released (State.event_load ..), State.event_tick ..,
    State.event_clusters .., State.event_mem ..⟩

/-- A section has been delivered, and nothing waits on its admission. -/
structure Admits (s : State) : Prop where
  pending : s.image.admitDone = false
  delivered : s.load.section_ ≠ []
  may : s.mayLoad = true
  unheld : s.load.held = []
  rest : AtRest s

section
variable {s : State} (h : Admits s)
include h

/-- Where the judgement withholds nothing and leaves the free plane at rest, its event is all that follows. -/
theorem Admits.gives {t : State} (judged : s.judged (joinRuns s.load.section_) = t) (unheld : t.load.held = [])
    (rest : AtRest t) {P : State → Prop} (then_ : ∀ v, Announced t v → P v) : Gives .admissionComplete s P := by
  obtain ⟨pending, delivered, may, -, -⟩ := h
  have goes : (s.image.admitDone || s.load.section_.isEmpty || !s.mayLoad) = false := by
    simp [pending, delivered, may]
  have none_ : (t.event .spn 0 1).load.held = [] := by rw [State.event_load, unheld]
  have rests : AtRest ((t.event .spn 0 1).modLoad Load.released) :=
    rest.of_same (State.event_fabric t .spn 0 1) (State.event_ports t .spn 0 1)
  refine ⟨_, ?_, then_ _ t.event_announced⟩
  rw [exec_admissionComplete, goes, judged, State.releaseHeld_none none_, State.pump_rest rests]
  rfl

/-- A section that is discarded (R179). -/
theorem Admits.refused {k n : Nat} {f : Load → Load} (section_ : ∀ l, (f l).section_ = l.section_) (held : ∀ l, (f l).held = l.held)
    (judged : s.judged (joinRuns s.load.section_) = (s.discardSection k n).modLoad f) {P : State → Prop}
    (then_ : ∀ t : State, t.load = (f (s.discardSection k n).load).released → P t) :
    Gives .admissionComplete s (fun t => t.image.admitDone = true ∧ t.image.admitPass = false ∧ t.image.loaded = false ∧
      t.image.admitCheck = k ∧ t.image.admitItem = n % 65536 ∧ t.load.section_ = [] ∧ Signals t .spn 0 1 ∧
      t.clusters = s.clusters ∧ t.mem = s.mem ∧ P t) := by
  have unheld : ((s.discardSection k n).modLoad f).load.held = [] := (held _).trans h.unheld
  refine h.gives judged unheld (h.rest.of_same rfl rfl) fun t ⟨signals, image, load, _, clusters, mem⟩ => ?_
  rw [image, load]
  exact ⟨rfl, rfl, rfl, rfl, rfl, section_ _, signals, clusters, mem, then_ t load⟩

/-- A section that is installed (R178, R196). -/
theorem Admits.installed (judged : s.judged (joinRuns s.load.section_) = s.install (joinRuns s.load.section_)) (c : Fin 512) :
    Gives .admissionComplete s (fun t => t.image.admitPass = true ∧ t.image.loaded = true ∧
      t.image.self = secSelf (joinRuns s.load.section_) ∧ Signals t .spn 0 1 ∧ (∀ a, a < 2 ^ 31 → t.byte a = 0#8) ∧
      (∀ p ∈ (t.cluster c).ctxs, p.2.state = .done ∧ p.2.program = 0) ∧ (t.cluster c).groups = [] ∧
      (t.cluster c).leases = leasesReset ∧ t.tick.joined = false ∧ t.tick.dead = []) := by
  let b := joinRuns s.load.section_
  obtain ⟨u, install, tables⟩ := s.install_tables b
  have unheld : (u.codeAndPorts b).load.held = [] := by rw [u.codeAndPorts_load, tables.load, h.unheld]
  have rest : AtRest (u.codeAndPorts b) := (tables.rest h.rest).of_queues (u.codeAndPorts_fabric b) (u.codeAndPorts_queues b)
  refine h.gives (judged.trans install) unheld rest fun t ⟨signals, image, _, tick, clusters, mem⟩ => ?_
  have zero (a : Nat) (below : a < 2 ^ 31) : t.byte a = 0#8 := calc
    t.byte a = (u.codeAndPorts b).byte a := congrArg (mget 0#8 · a) mem
    _ = u.byte a := u.codeAndPorts_byte b below
    _ = 0#8 := congrArg (mget 0#8 · a) tables.mem
  have listed : t.clusters = _ := (clusters.trans (u.codeAndPorts_clusters b)).trans tables.clusters
  have cluster : t.cluster c = (s.wbCancelIn 0 (2 ^ 64)).loadCluster b (secHandles b) (secCtxs b) c := by
    rw [State.cluster, listed, mget, mfind_graph _ (List.mem_range.mpr c.isLt)]
  obtain ⟨ctxs, groups, leases⟩ := State.loadCluster_spec (s.wbCancelIn 0 (2 ^ 64)) b (secHandles b) (secCtxs b) c
  rw [image, tick, cluster, u.codeAndPorts_image, u.codeAndPorts_tick]
  exact ⟨tables.passes, tables.loaded, tables.self, signals, zero, ctxs, groups, leases, tables.apart, tables.alive⟩

end

end Sys2Proof.Machine
end

section
/-!
PROOF. O47: load records, admission and the share's verdict.
-/
namespace Sys2Proof.Machine

/-- Settles O47: a record of the window is noted and answered with what its keeper or its chain makes of it (R267 to R269); the
share's verdict and a refill's failure are R271's and R284's; admission discards a section or installs it (R178, R179). -/
theorem imageLoad : Obligations.ImageLoad := by
  unfold Obligations.ImageLoad
  intro s i r c w inside fresh withheld mine noted reply load known share state stored lost bad ok done b admits refused
  have brings (known : 1 ≤ r.kind ∧ r.kind ≤ 4) : Brings load i r := by
    refine brings_of_kind known ?_ ?_ ?_ ?_ <;> intro kind <;> simp only [load, kind]
  have failed {x : Instr} (fails : exec x s = .next s.shareBad) : bad x := by
    obtain ⟨verdict, zero, others, signals, image, section_⟩ := s.shareBad_lost
    exact ⟨_, fails, verdict, zero, others, signals, image, section_⟩
  refine ⟨?keeper, ?onward, ?running, ?window, ?notSection, ?notShare, ?notState, ?notEnd, ?verdict, ?noVerdict, ?timeout, ?noTimeout,
    ?admission, ?noAdmission⟩
  case keeper =>
    rintro known ⟨⟨low, high, new, rest⟩, may⟩ mine
    have window : InWindow s r := ⟨low, high, new⟩
    have brought := brings known
    exact ⟨brought.section_ window may rest mine, brought.sectionAnew window may rest mine, brought.early window may rest mine,
      brought.share window may rest mine, brought.state window may rest mine,
      fun kind done fails => brought.dropped window may rest ((State.actRecord_mine mine).trans (State.keep_refused kind done fails)),
      brought.end_ window may rest mine⟩
  case onward =>
    rintro known ⟨⟨low, high, new, rest⟩, may⟩ other
    have window : InWindow s r := ⟨low, high, new⟩
    have brought := brings known
    refine ⟨fun e chain _ plain => ?_, fun e chain _ xor role => ?_, fun dropped => ?_⟩
    · refine brought.onward window may other chain (if_neg ?_)
      obtain plain | role := plain
      · simp [plain]
      · simp [role]
    · refine brought.onward window may other chain ((if_pos ?_).trans (s.parity_modLoad _ r).symm)
      simp [xor, role]
    · exact brought.dropped window may rest (State.actRecord_dropped other dropped)
  case running =>
    rintro known ⟨low, high, new, rest⟩ runs
    exact exec_brings_rest (brings known) (InWindow.serve_running ⟨low, high, new⟩ runs) (rest.of_same rfl rfl)
  case window =>
    intro known rest
    exact ⟨fun outside => exec_brings_rest (brings known) (State.serveRecord_outside outside) ((rest.cnt ..).of_same rfl rfl),
      fun low high again => exec_brings_rest (brings known) (State.serveRecord_again low high again) (rest.of_same rfl rfl)⟩
  case notSection => exact fun other => congrArg Host.Outcome.next (if_pos other)
  case notShare => exact fun other => congrArg Host.Outcome.next (if_pos other)
  case notState => exact fun other => congrArg Host.Outcome.next (if_pos other)
  case notEnd => exact fun other => congrArg Host.Outcome.next (if_pos other)
  case verdict =>
    intro ended passes early
    have judges : exec .shareVerdict s = .next s.shareVerdict := by
      rw [exec_shareVerdict, ended, passes, decide_eq_true early]
      rfl
    refine ⟨fun good all => ?_, fun good some => ?_, fun differs => failed ?_⟩ <;> rw [judges, State.shareVerdict]
    · rw [s.shareGood_iff.mpr good, s.stateDone_iff.mpr all]
      rfl
    · rw [s.shareGood_iff.mpr good, Bool.eq_false_iff.mpr (mt s.stateDone_iff.mp some)]
      rfl
    · rw [Bool.eq_false_iff.mpr (mt s.shareGood_iff.mp differs)]
      rfl
  case noVerdict =>
    intro none_
    rw [exec_shareVerdict, if_neg]
    intro due
    simp only [Bool.and_eq_true, decide_eq_true_eq] at due
    obtain ⟨⟨ended, passes⟩, early⟩ := due
    simp [ended, passes, Nat.not_lt.mpr early] at none_
  case timeout =>
    intro early
    exact failed (by rw [exec_refillTimeout, if_pos early])
  case noTimeout =>
    intro late
    rw [exec_refillTimeout, if_neg (by omega)]
  case admission =>
    rintro ⟨pending, delivered, _, may, unheld, rest⟩
    have h : Admits s := ⟨pending, delivered, may, unheld, rest⟩
    exact ⟨fun k n fails => h.refused (f := id) (fun _ => rfl) (fun _ => rfl) (State.judged_failing fails) fun _ _ => trivial,
      fun passes short => h.refused (f := fun l => { l with clustersShort := true }) (fun _ => rfl) (fun _ => rfl)
        (State.judged_short passes short) fun _ load => congrArg Load.clustersShort load,
      fun passes spared => h.installed (State.judged_passing passes spared) c⟩
  case noAdmission =>
    intro none_
    rw [exec_admissionComplete, if_pos]
    obtain done | empty | runs := none_
    · simp [done]
    · simp [empty]
    · simp [runs]

end Sys2Proof.Machine
end

section
/-!
PROOF. Requests and tosses for memory (07 R190, R198, R201; 09 R249, R251): a frame for this device is checked, its bytes are read
or written, and its answer is all that moves on the free plane. Settles O33.
-/
namespace Sys2Proof.Machine

/-! ### Where the device is, after accesses of memory (R11) -/

@[simp] theorem State.modScrub_pos (s : State) (k : Nat) (f : Scrub → Scrub) : (s.modScrub k f).rd R.spnPos = s.rd R.spnPos := by
  simp [State.rd, State.rawAt]

/-- The pages that log a memory word's errors are no page of the span. -/
theorem State.wordHome_page (s : State) (a i : Nat) :
    2 ≤ pageNo (s.wordHome a).1.page i ∧ 2 ≤ pageNo (s.wordHome a).2.1.page i ∧
    2 ≤ pageNo (s.wordHome a).2.2.1.page i := by
  unfold State.wordHome
  split <;> simp only [pageNo, R.spdCeCnt, R.spdCeAddr, R.spdUeCnt, R.qstCeCnt, R.qstCeAddr, R.qstUeCnt] <;> omega

theorem State.corrected_pos (s : State) (a : Nat) : (s.corrected a).rd R.spnPos = s.rd R.spnPos := by
  obtain ⟨count, place, -⟩ := s.wordHome_page a (s.wordHome a).2.2.2.1
  rw [State.corrected, State.modScrub_pos, (State.wr_linkStep _ _ _ _ _ _ place).pos, (State.cnt_linkStep _ _ _ _ _ _ count).pos]

theorem State.uncorrectable_pos (s : State) (a src tenant : Nat) (fails : Bool) :
    (s.uncorrectable a src tenant fails).rd R.spnPos = s.rd R.spnPos := by
  obtain ⟨-, -, count⟩ := s.wordHome_page a (s.wordHome a).2.2.2.1
  unfold State.uncorrectable
  extract_lets h i s1
  have logged : s1.rd R.spnPos = s.rd R.spnPos :=
    (State.violate_samePlane ..).pos.trans (State.cnt_linkStep _ _ _ _ _ _ count).pos
  split
  · simpa only [State.rd, State.rawAt, State.tickFault_regs] using logged
  · exact logged

theorem State.wbCancel_pos (s : State) (a : Nat) : (s.wbCancel a).rd R.spnPos = s.rd R.spnPos := by
  unfold State.wbCancel
  extract_lets c p b v s1
  have stopped : s1.rd R.spnPos = s.rd R.spnPos := s.modScrub_pos ..
  have page : 2 ≤ pageNo R.spdWbCancel.page c := by simp only [pageNo, R.spdWbCancel]; omega
  split
  · split
    · exact (State.cnt_linkStep s1 R.spdWbCancel c 1 0 0 page).pos.trans stopped
    · exact stopped
  · rfl

theorem State.wordWritten_pos (s : State) (a : Nat) (full : Bool) (src tenant : Nat) :
    (s.wordWritten a full src tenant).rd R.spnPos = s.rd R.spnPos := by
  refine Eq.trans ?_ (s.wbCancel_pos a)
  unfold State.wordWritten
  dsimp only
  split
  · rfl
  · split
    · rfl
    · exact State.corrected_pos ..
    · exact State.uncorrectable_pos ..

theorem State.storeAt_pos (s : State) (l : List (Nat × Byte)) : (s.storeAt l).rd R.spnPos = s.rd R.spnPos := by
  simp only [State.rd, State.rawAt, State.storeAt_regs]

theorem State.draw_samePlane (s : State) : SamePlane s s.draw := ⟨rfl, rfl, rfl⟩

/-- A write of bytes leaves the free plane and the device's place. -/
theorem State.writeBytes_samePlane (s : State) (g src tenant : Nat) (as : List Nat) (data : List Byte) :
    SamePlane s (s.writeBytes g src tenant as data) := by
  obtain ⟨-, fabric, ports⟩ := State.writeBytes_scrubOnly s g src tenant as data
  refine ⟨fabric, ports, ?_⟩
  rw [State.writeBytes, (State.draw_samePlane _).pos, State.storeAt_pos]
  exact s.each_keeps (fun t => t.rd R.spnPos) fun t a => t.wordWritten_pos ..

/-! ### An access that waits for its banks (R188, R201) -/

section
variable {s : State} {as : List Nat} (clean : ∀ a ∈ as, s.eccOf a = 0)
include clean

/-- The words of bytes without a SECDED error have none. -/
theorem eccOf_wordsOf : ∀ a ∈ wordsOf as, s.eccOf a = 0 := by
  intro a ha
  simp only [wordsOf, List.mem_dedup, List.mem_map] at ha
  obtain ⟨b, hb, rfl⟩ := ha
  simpa [State.eccOf] using clean b hb

/-- A read of clean words takes one free draw. -/
theorem State.afterRead_waits (src tenant : Nat) : s.afterRead 4 src tenant as = s.draw := by
  simp only [State.afterRead, State.lost_waits, Bool.not_false, List.filter_true]
  rw [State.each_same fun a ha => State.touch_clean (eccOf_wordsOf clean a ha)]

/-- It answers the bytes that memory holds, those of a local handle being written in the attempt (R49). -/
theorem State.readBytes_waits {loc : Bool} (fresh : loc = true → ∀ a ∈ as, a ∈ s.written) :
    s.readBytes 4 loc as = as.map s.byte := by
  refine zipIdx_map_fst s.byte _ as 0 fun p hp => ?_
  cases loc with
  | false => simp [State.readByte, State.lost_waits, clean p.1 hp]
  | true => simp [State.readByte, State.lost_waits, clean p.1 hp, fresh rfl p.1 hp]

/-- None of them makes an answer a DATA_ERROR. -/
theorem no_dataError : (wordsOf as).any (fun a => decide (2 ≤ s.eccOf a)) = false := by
  rw [List.any_eq_false]
  intro a ha
  simp [eccOf_wordsOf clean a ha]

end

/-! ### A checked access (R198, R251) -/

section
variable {s : State} {h : RHead} {b : Access} {data : List Byte} {rd wr : List Nat} {loc : Bool}

theorem State.access_read {port : Nat} (hp : port ≠ 17) (op : b.op = 0) (clean : ∀ x ∈ rd, s.eccOf x = 0)
    (fresh : loc = true → ∀ x ∈ rd, x ∈ s.written) :
    s.access port h b data rd wr loc = s.draw.respond false h b 0 0 (rd.map s.byte) := by
  simp [State.access, op, State.afterRead_waits clean, State.readBytes_waits clean fresh, no_dataError clean, State.served, hp]

theorem State.access_write (port : Nat) (op : b.op = 1) : s.access port h b data rd wr loc =
    (s.writeBytes 4 5 h.tenant wr (padTo b.size data)).served port h b 0 [] := by
  simp [State.access, op]

/-- The word that an atomic stores over the bytes `old` (R117). -/
def newWord (b : Access) (data old : List Byte) : Word := atomNew b.atom (w32 (leNat old)) (w32 (leAt data 0 4)) (w32 b.cas)

theorem State.access_atom {port : Nat} (hp : port ≠ 17) (op : b.op = 2) (clean : ∀ x ∈ rd, s.eccOf x = 0)
    (fresh : loc = true → ∀ x ∈ rd, x ∈ s.written) :
    s.access port h b data rd wr loc = (s.draw.writeBytes 4 5 h.tenant wr
      (leBytes 4 (newWord b data (rd.map s.byte)).toNat)).respond false h b 0 0 (rd.map s.byte) := by
  simp [State.access, op, State.afterRead_waits clean, State.readBytes_waits clean fresh, no_dataError clean, State.served, hp,
    newWord]

end

/-! ### An access of memory, checked (R22, R190, R198, R257) -/

section
variable {s : State} {h : RHead} {b : Access}

/-- A well-formed access of memory reaches it: an atomic at once, where atomics do not wait for their time. -/
theorem MemoryAccess.serve (hm : MemoryAccess s h b) (port : Nat) (data : List Byte) :
    s.serve port h b data = s.serveMemory port h b data := by
  obtain ⟨span, tag, kind, place, nonzero, short, aligned, atomic, -⟩ := hm
  have form : ¬(b.size = 0 ∨ 4096 < b.size ∨ b.addr % b.size ≠ 0 ∨ (b.op = 2 ∧ b.size ≠ 4)) := by
    rintro (h | h | h | ⟨op, h⟩)
    · omega
    · omega
    · exact h aligned
    · exact h (atomic op).1
  have memory : bits b.addr 44 42 ≠ 2 ∧ bits b.addr 44 42 ≠ 3 := by omega
  obtain ⟨notRegs, notHost⟩ := memory
  simp only [State.serve, span, tag, notRegs, place, form, notHost, Bool.not_true, Bool.false_eq_true, ne_eq, not_true_eq_false,
    if_false]
  split
  · rename_i op
    simp [State.takeAtomic, (atomic op).2, State.applyAtomic, notHost]
  · rfl

/-- An entry that is read without error lets the access go on. -/
theorem State.meetEntry_clean {c i : Nat} (clean : CleanEntry s c i) (port : Nat) : s.meetEntry c i port h b = (s, true) := by
  simp [State.meetEntry, clean.touch, clean.good]

/-- Where its deciding entry is read without error, an access that passes the check is made (R190, R198). -/
theorem MemoryAccess.accesses (hm : MemoryAccess s h b) (clean : CleanDecider s h b) {rd wr : List Nat} {loc : Bool}
    (ok : s.checked h b = .ok rd wr loc) (port : Nat) (data : List Byte) :
    s.serve port h b data = s.access port h b data rd wr loc := by
  rw [hm.serve]
  obtain ⟨-, -, -, -, -, -, -, -, zeroing⟩ := hm
  unfold State.checked at ok
  split at ok
  · rename_i scratch
    cases decides : s.decider (bits b.addr 41 33) (bits b.addr 21 0) b.size h.tenant (b.op != 1) (b.op != 0) with
    | none => simp [State.serveMemory, scratch, decides, zeroing, ok]
    | some i => simp [State.serveMemory, scratch, decides, State.meetEntry_clean (clean scratch i decides), zeroing, ok]
  · rename_i store
    simp [State.serveMemory, store, zeroing, ok]

/-- One that the handles refuse is logged in a page, and answered with a NACK (R22, R251). -/
theorem MemoryAccess.refused (hm : MemoryAccess s h b) (clean : CleanDecider s h b) {code : Nat} (nack : s.checked h b = .nack code)
    (port : Nat) (data : List Byte) : ∃ p i log, s.serve port h b data = s.refuseAccess p i port h b code log := by
  rw [hm.serve]
  obtain ⟨-, -, -, -, -, -, -, -, zeroing⟩ := hm
  unfold State.checked at nack
  split at nack
  · rename_i scratch
    refine ⟨.hdl, bits b.addr 41 33, code, ?_⟩
    cases decides : s.decider (bits b.addr 41 33) (bits b.addr 21 0) b.size h.tenant (b.op != 1) (b.op != 0) with
    | none => simp [State.serveMemory, scratch, decides, zeroing, nack]
    | some i => simp [State.serveMemory, scratch, decides, State.meetEntry_clean (clean scratch i decides), zeroing, nack]
  · rename_i store
    exact ⟨.qst, bits b.addr 41 40, if b.op != 0 && s.inCode (bits b.addr 41 40) (bits b.addr 25 0) b.size then 0x14 else code,
      by simp only [State.serveMemory, store, zeroing, nack, Bool.false_eq_true, if_false]⟩

end

/-! ### A request and its answer (R249, R251) -/

/-- An answer to another device leaves memory. -/
theorem State.respond_mem {s : State} {h : RHead} (away : h.src ≠ s.rd R.spnPos) (mgmt : Bool) (b : Access) (status nack : Nat)
    (data : List Byte) : (s.respond mgmt h b status nack data).mem = s.mem ∧
      (s.respond mgmt h b status nack data).written = s.written := by
  rw [State.respond_forward away]
  obtain ⟨_, _, _, _, only⟩ := State.forward_linkOnly s 16 (responseTo mgmt h b status nack data)
  rw [only]
  exact ⟨rfl, rfl⟩

section
variable {s u : State} {i : Fin 16} {a : Arrival} {h : RHead} {b : Access} {data : List Byte}

/-- Receipt of a frame for this device leaves memory. -/
theorem ForHere.taken_mem {cls : Nat} (hf : ForHere s i cls a h) (f : RFrame) :
    (s.taken i cls a f).mem = s.mem ∧ (s.taken i cls a f).written = s.written := by
  obtain ⟨_, _, _, _, only⟩ := (hf.taken_linkStep f).only
  rw [only]
  exact ⟨rfl, rfl⟩

/-- A request or a toss for this device is served, a toss on the port that answers nothing (R251). -/
theorem ForHere.serves {f : RFrame} (hf : ForHere s i (clsNo f.cls) a f.head) (hc : f.cls = .req ∨ f.cls = .toss) :
    s.routedIn i a f = ((s.taken i (clsNo f.cls) a f).serve (if f.cls = .toss then 17 else i) f.head f.access f.data).serveOwn := by
  have agrees : (s.taken i (clsNo f.cls) a f).island.disagree = false := (hf.taken_linkStep f).only.island ▸ hf.2.2.2
  rw [hf.routedIn, State.consume, agrees]
  obtain hc | hc := hc <;> simp [hc]

theorem exec_req (hf : ForHere s i 2 a h) :
    exec (.req i a h b data) s = .next ((s.taken i 2 a ⟨.req, h, b, noResp, data⟩).serve i h b data).serveOwn :=
  congrArg Host.Outcome.next (ForHere.serves (f := ⟨.req, h, b, noResp, data⟩) hf (.inl rfl))

theorem exec_toss (hf : ForHere s i 5 a h) :
    exec (.toss i a h b data) s = .next ((s.taken i 5 a ⟨.toss, h, b, noResp, data⟩).serve 17 h b data).serveOwn :=
  congrArg Host.Outcome.next (ForHere.serves (f := ⟨.toss, h, b, noResp, data⟩) hf (.inr rfl))

/-- A request that is answered, by what leaves the free plane as it is: the answer is all that follows, and it leaves memory. -/
theorem exec_req_answered {status nack : Nat} {answer : List Byte} (hf : ForHere s i 2 a h)
    (hu : SamePlane (s.taken i 2 a ⟨.req, h, b, noResp, data⟩) u)
    (hs : (s.taken i 2 a ⟨.req, h, b, noResp, data⟩).serve i h b data = u.respond false h b status nack answer) :
    exec (.req i a h b data) s = .next (u.respond false h b status nack answer) ∧
      (u.respond false h b status nack answer).mem = u.mem ∧ (u.respond false h b status nack answer).written = u.written := by
  have taken := hf.taken_linkStep ⟨.req, h, b, noResp, data⟩
  have served := exec_req (b := b) (data := data) hf
  obtain ⟨⟨-, -, quiet⟩, -, away, -⟩ := hf
  have src : h.src ≠ u.rd R.spnPos := by rwa [hu.pos, taken.pos]
  refine ⟨?_, State.respond_mem src ..⟩
  rw [served, hs, State.respond_serveOwn ((quiet.of_linkStep taken).of_same hu.fabric hu.ports) src]

/-- A toss that is carried out by what leaves the free plane has no answer. -/
theorem exec_toss_silent (hf : ForHere s i 5 a h) (hu : SamePlane (s.taken i 5 a ⟨.toss, h, b, noResp, data⟩) u)
    (hs : (s.taken i 5 a ⟨.toss, h, b, noResp, data⟩).serve 17 h b data = u) : exec (.toss i a h b data) s = .next u := by
  have taken := hf.taken_linkStep ⟨.toss, h, b, noResp, data⟩
  obtain ⟨⟨-, -, quiet⟩, -⟩ := id hf
  rw [exec_toss hf, hs, ((quiet.of_linkStep taken).of_same hu.fabric hu.ports).serveOwn]

end

/-! ### The obligation -/

/-- Settles O33: the frame is served as it comes; its check passes it to the read, write or atomic of its bytes, or refuses it. -/
theorem requestService : Obligations.RequestService := by
  unfold Obligations.RequestService
  intro s i a h b data rd wr loc v w
  have port : (i : Nat) ≠ 17 := by omega
  refine ⟨fun hf hm ok decider clean fresh => ?served, fun hf hm decider code nack => ?refused, fun hf hm op ok decider => ?toss⟩
  case served =>
    obtain ⟨mem, -⟩ := hf.taken_mem ⟨.req, h, b, noResp, data⟩
    have stored {u : State} (hu : u.mem = v.mem) (bytes : List Byte) :
        (u.writeBytes 4 5 h.tenant wr bytes).mem = storedIn s.mem (wr.zip bytes) := by
      rw [State.writeBytes_waits_mem, hu, mem]
    have serves : v.serve i h b data = v.access i h b data rd wr loc := hm.accesses decider ok i data
    have writes (op : b.op = 1) := exec_req_answered hf (v.writeBytes_samePlane 4 5 h.tenant wr (padTo b.size data))
      (serves.trans (by rw [State.access_write i op, State.served, if_neg port]))
    refine ⟨fun op => ?_, fun op => (writes op).1, fun op => ?_, fun op => ?_⟩
    · exact (exec_req_answered hf v.draw_samePlane (serves.trans (State.access_read port op clean fresh))).1
    · obtain ⟨runs, left, -⟩ := writes op
      exact ⟨_, runs, left.trans (stored rfl _)⟩
    · obtain ⟨runs, left, -⟩ := exec_req_answered hf (v.draw_samePlane.trans (State.writeBytes_samePlane ..))
        (serves.trans (State.access_atom port op clean fresh))
      exact ⟨_, runs, left.trans (stored v.draw_mem _)⟩
  case refused =>
    obtain ⟨mem, written⟩ := hf.taken_mem ⟨.req, h, b, noResp, data⟩
    obtain ⟨p, j, log, serves⟩ := hm.refused decider nack i data
    have logged : SamePlane v ((v.violate p j ⟨log, 5, h.tenant, 0, b.addr⟩).cnt R.fabNackTx) :=
      (v.violate_samePlane p j _).trans (State.cnt_samePlane _ (by decide) (by decide))
    obtain ⟨runs, left, kept⟩ := exec_req_answered hf logged
      (serves.trans (by rw [State.refuseAccess, State.nack, if_neg port]))
    exact ⟨_, runs, left.trans (by simpa using mem), kept.trans (by simpa using written)⟩
  case toss =>
    obtain ⟨mem, -⟩ := hf.taken_mem ⟨.toss, h, b, noResp, data⟩
    have stores : w.serve 17 h b data = w.writeBytes 4 5 h.tenant wr (padTo b.size data) := by
      rw [hm.accesses decider ok 17 data, State.access_write 17 op, State.served, if_pos rfl]
    exact ⟨exec_toss_silent hf (w.writeBytes_samePlane ..) stores, by rw [State.writeBytes_waits_mem, mem]⟩

end Sys2Proof.Machine
end

section
/-!
PROOF. Scrub visits and evaluations (07 R202 to R205, Table 07-4): the row that a visit reads, the write-back that waits for the next
visit, the rotation, and the exponent. Settles O43.
-/
namespace Sys2Proof.Machine

/-! ### Rows and words of a scrubber's memory (R202, R204) -/

theorem visitByte_dvd (u : ScrubUnit) (v : Nat) : 8 ∣ visitByte u v := by
  cases u <;> simp only [visitByte, spAddr, qsAddr] <;> omega

/-- The words of a row of a scrubber's memory are that scrubber's. -/
theorem scrubAt_rowWords {u : ScrubUnit} {v a : Nat} (hv : v < (scrubPlace u).2) (ha : a ∈ rowWords (visitByte u v)) :
    scrubAt a = (scrubPlace u).1 := by
  have near : visitByte u v ≤ a ∧ a ≤ visitByte u v + 24 := by
    simp only [rowWords, List.mem_cons, List.not_mem_nil, or_false] at ha
    omega
  cases u <;> simp only [visitByte, spAddr, qsAddr, scrubAt, scrubPlace] at * <;> split <;> omega

/-- A word of a scrubber's memory lies in a visit of its pass. -/
theorem wordVisit_lt (u : ScrubUnit) (w : Nat) : wordVisit u w < (scrubPlace u).2 := by
  cases u <;> simp only [wordVisit, scrubPlace] <;> omega

/-- A word of a scrubber's memory is one of the row of its visit. -/
theorem mem_row_of_wordVisit {u : ScrubUnit} {w : Nat} (h : scrubAt (8 * w) = (scrubPlace u).1) :
    8 * w ∈ rowWords (visitByte u (wordVisit u w)) := by
  simp only [rowWords, List.mem_cons, List.not_mem_nil, or_false]
  cases u <;> simp only [wordVisit, visitByte, spAddr, qsAddr, scrubAt, scrubPlace] at * <;> split at h <;> omega

/-! ### A scrubber and the others -/

theorem State.modScrub_scrub (s : State) (k : Nat) (f : Scrub → Scrub) (j : Nat) :
    (s.modScrub k f).scrub j = if j = k then f (s.scrub k) else s.scrub j := by
  unfold State.modScrub
  split
  · rename_i low
    by_cases same : j = k
    · simp [State.scrub, same, low]
    · simp [State.scrub, same, State.modCluster_others]
  · rename_i high
    by_cases same : j = k
    · simp [State.scrub, same, high]
    · rw [if_neg same]
      unfold State.scrub
      split
      · rfl
      · exact mget_mput_ne _ _ _ (by omega)

@[simp] theorem State.modScrub_self (s : State) (k : Nat) (f : Scrub → Scrub) : (s.modScrub k f).scrub k = f (s.scrub k) := by
  simp [State.modScrub_scrub]

@[simp] theorem State.modScrub_ecc (s : State) (k : Nat) (f : Scrub → Scrub) : (s.modScrub k f).ecc = s.ecc := by
  unfold State.modScrub
  split <;> rfl

@[simp] theorem State.modScrub_tick (s : State) (k : Nat) (f : Scrub → Scrub) : (s.modScrub k f).tick = s.tick := by
  unfold State.modScrub
  split <;> rfl

theorem State.scrub_of_same {s t : State} (hc : t.clusters = s.clusters) (hs : t.scrubs = s.scrubs) : t.scrub = s.scrub := by
  funext j
  simp only [State.scrub, State.cluster_of_clusters hc, hs]

/-- Scrubber `k` stands at the same visit, and the others are as before. -/
structure SameVisit (s t : State) (k : Nat) : Prop where
  visit : (t.scrub k).visit = (s.scrub k).visit
  others : ∀ j, j ≠ k → t.scrub j = s.scrub j

theorem SameVisit.of_scrub {s t : State} (h : t.scrub = s.scrub) (k : Nat) : SameVisit s t k := ⟨by rw [h], fun j _ => by rw [h]⟩

theorem SameVisit.trans {s t u : State} {k : Nat} (h : SameVisit s t k) (h' : SameVisit t u k) : SameVisit s u k :=
  ⟨h'.visit.trans h.visit, fun j hj => (h'.others j hj).trans (h.others j hj)⟩

theorem State.modScrub_sameVisit (s : State) (k : Nat) {f : Scrub → Scrub} (h : ∀ x, (f x).visit = x.visit) :
    SameVisit s (s.modScrub k f) k :=
  ⟨by rw [State.modScrub_self, h], fun j hj => by rw [State.modScrub_scrub, if_neg hj]⟩

/-! ### A row is read (R201, R203) -/

theorem State.corrected_sameVisit (s : State) (a : Nat) : SameVisit s (s.corrected a) (scrubAt a) := by
  unfold State.corrected
  extract_lets h i s1
  exact (SameVisit.of_scrub (State.scrub_of_same (by simp [s1]) (by simp [s1])) _).trans
    (State.modScrub_sameVisit _ _ fun _ => rfl)

theorem State.uncorrectable_scrub (s : State) (a src tenant : Nat) (fails : Bool) :
    (s.uncorrectable a src tenant fails).scrub = s.scrub := by
  unfold State.uncorrectable
  dsimp only
  split <;> exact State.scrub_of_same (by simp) (by simp)

/-- The scrubber that reads words of its memory stays at its visit. -/
theorem State.scrubRead_sameVisit {s : State} {a k : Nat} (own : ∀ w ∈ rowWords a, scrubAt w = k) :
    SameVisit s (s.scrubRead a) k := by
  unfold State.scrubRead
  generalize rowWords a = l at own
  induction l generalizing s with
  | nil => exact .of_scrub rfl k
  | cons w l ih =>
    refine SameVisit.trans ?_ (ih fun z hz => own z (List.mem_cons_of_mem _ hz))
    dsimp only
    split
    · exact .of_scrub rfl k
    · exact own w List.mem_cons_self ▸ s.corrected_sameVisit w
    · exact .of_scrub (State.uncorrectable_scrub ..) k

/-- Reading a row without error changes nothing. -/
theorem State.scrubRead_calm {s : State} {a : Nat} (calm : ∀ w ∈ rowWords a, s.eccOf w = 0) : s.scrubRead a = s :=
  State.each_same fun w hw => by simp only [calm w hw]

/-! ### Corrected words are written back (R202) -/

/-- Entries that are 1 are taken out for the keys of `q`: a key that reads 0 still does, and one of `q` no longer reads 1. -/
theorem mget_drop_ones (q : Nat → Bool) (m : NMap Nat) (k : Nat) :
    (mget 0 m k = 0 → mget 0 (m.filter (fun p => !(q p.1 && p.2 == 1))) k = 0) ∧
      (q k = true → mget 0 (m.filter (fun p => !(q p.1 && p.2 == 1))) k ≠ 1) := by
  induction m with
  | nil => simp [mget, mfind]
  | cons p m ih =>
    obtain ⟨a, v⟩ := p
    obtain ⟨zero, one⟩ := ih
    cases drop : q a && v == 1
    case true =>
      simp only [Bool.and_eq_true, beq_iff_eq] at drop
      refine ⟨fun h => ?_, fun hk => by simpa [drop] using one hk⟩
      by_cases here : a = k
      · simp [mget, mfind, here, drop] at h
      · simpa [drop] using zero (by simpa [mget, mfind, here] using h)
    case false =>
      rw [List.filter_cons_of_pos (by simp [drop])]
      by_cases here : a = k
      · subst here
        refine ⟨fun h => by simpa [mget, mfind] using h, fun hk => ?_⟩
        simpa [mget, mfind, hk] using drop
      · simp only [mget, mfind, if_neg here]
        exact ⟨zero, one⟩

theorem State.scrubWrite_clean {s : State} {z : Nat} (a : Nat) (h : s.eccOf z = 0) : (s.scrubWrite a).eccOf z = 0 :=
  (mget_drop_ones (fun k => (rowWords a).contains (8 * k)) s.ecc (z / 8)).1 h

/-- A word of the row written back has no corrected error left. -/
theorem State.scrubWrite_row {s : State} {a z : Nat} (aligned : 8 ∣ a) (hz : z ∈ rowWords a) : (s.scrubWrite a).eccOf z ≠ 1 := by
  have word : 8 * (z / 8) = z := by
    simp only [rowWords, List.mem_cons, List.not_mem_nil, or_false] at hz
    omega
  refine (mget_drop_ones (fun k => (rowWords a).contains (8 * k)) s.ecc (z / 8)).2 ?_
  simpa [word] using hz

/-! ### The rotation (R204) -/

/-- Where a scrubber's passes are counted. -/
def passReg (u : ScrubUnit) : Reg :=
  match u with
  | .cluster _ => R.spdScrubPass
  | .quarter _ => R.qstScrubPass

/-- Where the ticks of a scrubber's last pass are given. -/
def lastPassReg (u : ScrubUnit) : Reg :=
  match u with
  | .cluster _ => R.spdScrubLast
  | .quarter _ => R.qstScrubLast

/-- The rotation goes on to the next visit of the pass. -/
theorem State.rotated_next {s : State} {u : ScrubUnit} {v : Nat} (here : (s.scrub (scrubPlace u).1).visit = v)
    (more : v + 1 < (scrubPlace u).2) :
    (s.rotated u v).scrub (scrubPlace u).1 = { s.scrub (scrubPlace u).1 with visit := v + 1 } ∧
      (∀ j, j ≠ (scrubPlace u).1 → (s.rotated u v).scrub j = s.scrub j) ∧ (s.rotated u v).ecc = s.ecc := by
  have goes : s.rotated u v = s.modScrub (scrubPlace u).1 (fun y => { y with visit := v + 1 }) := by
    simp [State.rotated, here, more]
  rw [goes]
  exact ⟨State.modScrub_self .., fun j hj => by rw [State.modScrub_scrub, if_neg hj], State.modScrub_ecc ..⟩

theorem State.rotated_pass {s : State} {u : ScrubUnit} {v : Nat} (here : (s.scrub (scrubPlace u).1).visit = v)
    (last : (scrubPlace u).2 ≤ v + 1) : s.rotated u v =
      ((s.cnt (passReg u) ((scrubPlace u).1 % 512)).wr (lastPassReg u) (s.tick.count - (s.scrub (scrubPlace u).1).started)
        ((scrubPlace u).1 % 512)).modScrub (scrubPlace u).1 (fun y => { y with visit := 0, started := s.tick.count }) := by
  unfold State.rotated
  dsimp only
  rw [if_neg (not_not.mpr here), if_neg (Nat.not_lt.mpr last)]
  cases u <;> rfl

/-- A pass that ends is counted, and the scrubber begins the next. -/
theorem State.rotated_pass_spec {s : State} {u : ScrubUnit} {v : Nat} (here : (s.scrub (scrubPlace u).1).visit = v)
    (last : (scrubPlace u).2 ≤ v + 1) :
    (s.rotated u v).scrub (scrubPlace u).1 = { s.scrub (scrubPlace u).1 with visit := 0, started := s.tick.count } ∧
      (∀ j, j ≠ (scrubPlace u).1 → (s.rotated u v).scrub j = s.scrub j) ∧
      Counts s (s.rotated u v) (passReg u) ((scrubPlace u).1 % 512) 1 := by
  rw [State.rotated_pass here last]
  generalize s.tick.count - _ = ticks
  set k := (scrubPlace u).1
  have counted : ((s.cnt (passReg u) (k % 512)).wr (lastPassReg u) ticks (k % 512)).scrub = s.scrub :=
    State.scrub_of_same (by simp) (by simp)
  have apart : ((s.cnt (passReg u) (k % 512)).wr (lastPassReg u) ticks (k % 512)).rd (passReg u) (k % 512) =
      (s.cnt (passReg u) (k % 512)).rd (passReg u) (k % 512) := by
    refine State.setRaw_rawAt_ne _ _ ?_
    cases u <;> simp only [passReg, lastPassReg, regKey, R.spdScrubPass, R.spdScrubLast, R.qstScrubPass,
      R.qstScrubLast] <;> omega
  refine ⟨by rw [State.modScrub_self, counted], fun j hj => by rw [State.modScrub_scrub, if_neg hj, counted], fun unfrozen => ?_⟩
  rw [← s.cnt_counts (passReg u) (k % 512) 1 unfrozen, ← apart]
  simp [State.rd, State.rawAt]

/-- The words of the row of visit `v` need no repair any more (R203). -/
def State.repaired (s : State) (u : ScrubUnit) (v : Nat) : State :=
  s.modScrub (scrubPlace u).1 (fun x => { x with repair := x.repair.filter (fun w => !(rowWords (visitByte u v)).contains (8 * w)) })

/-- Where no word needs repair, none is taken from the queue. -/
theorem State.repaired_scrub {s : State} {u : ScrubUnit} (h : (s.scrub (scrubPlace u).1).repair = []) (v : Nat) :
    (s.repaired u v).scrub = s.scrub := by
  funext j
  rw [State.repaired, State.modScrub_scrub]
  split
  · rename_i e
    rw [e]
    generalize s.scrub (scrubPlace u).1 = x at h
    cases x
    subst h
    rfl
  · rfl

/-- The row of a pending write-back lands, and the rotation moves past it where it stands there (R202). -/
theorem State.finishWb_row {s : State} {u : ScrubUnit} {v : Nat} (row : (s.scrub (scrubPlace u).1).row = some v) : s.finishWb u =
    ((s.scrubWrite (visitByte u v)).modScrub (scrubPlace u).1 (fun x => { x with
      row := none, repair := x.repair.filter (fun w => !(rowWords (visitByte u v)).contains (8 * w)) })).rotated u v := by
  simp [State.finishWb, row]

/-- With no repair queued, a write-back of the row at which the rotation stands lands and takes it to the next. -/
theorem State.finishWb_lands {s : State} {u : ScrubUnit} {v : Nat} (visit : (s.scrub (scrubPlace u).1).visit = v)
    (row : (s.scrub (scrubPlace u).1).row = some v) (repair : (s.scrub (scrubPlace u).1).repair = [])
    (more : v + 1 < (scrubPlace u).2) :
    (s.finishWb u).scrub (scrubPlace u).1 = { s.scrub (scrubPlace u).1 with row := none, visit := v + 1 } ∧
      (∀ j, j ≠ (scrubPlace u).1 → (s.finishWb u).scrub j = s.scrub j) ∧
      (s.finishWb u).ecc = (s.scrubWrite (visitByte u v)).ecc := by
  rw [State.finishWb_row row]
  generalize hl : (s.scrubWrite (visitByte u v)).modScrub (scrubPlace u).1 _ = landed
  have self : landed.scrub (scrubPlace u).1 = { s.scrub (scrubPlace u).1 with row := none } := by
    rw [← hl, State.modScrub_self, show (s.scrubWrite (visitByte u v)).scrub = s.scrub from rfl]
    simp only [repair, List.filter_nil]
  obtain ⟨moved, others, ecc⟩ := State.rotated_next (s := landed) (u := u) (by rw [self, visit]) more
  refine ⟨by rw [moved, self], fun j hj => ?_, by rw [ecc, ← hl, State.modScrub_ecc]⟩
  rw [others j hj, ← hl, State.modScrub_scrub, if_neg hj]
  rfl

theorem State.finishWb_none {s : State} {u : ScrubUnit} (row : (s.scrub (scrubPlace u).1).row = none) : s.finishWb u = s := by
  simp [State.finishWb, row]

/-! ### A visit (R202, R203) -/

theorem Scrub.next_idle {x : Scrub} (h : x.repair = []) (u : ScrubUnit) : x.next u = x.visit := by simp [Scrub.next, h]

/-- A queued word of the rotation's bank goes ahead of the rotation. -/
theorem Scrub.next_repair {x : Scrub} {u : ScrubUnit} {w : Nat} (h : x.repair = [w])
    (bank : wordVisit u w % scrubBanks u = x.visit % scrubBanks u) : x.next u = wordVisit u w := by
  simp [Scrub.next, h, bank]

section
variable {s : State} {u : ScrubUnit}

theorem exec_scrubVisit_off (off : bit (s.scrubCtl u) 24 = false ∨ s.power.state = .entering ∨ s.power.state = .doze ∨
    s.power.state = .waking) : exec (.scrubVisit u) s = .next s := by
  refine congrArg Host.Outcome.next (if_pos ?_)
  simpa [or_assoc] using off

/-- A visit leaves what memory holds. -/
theorem exec_scrubVisit_mem {t : State} (h : exec (.scrubVisit u) s = .next t) : t.mem = s.mem ∧ t.written = s.written := by
  have same := execScrubVisit_sameStoresRes u s
  rw [show execScrubVisit u s = .next t from h] at same
  obtain ⟨mem, written, -⟩ := same
  exact ⟨mem, written⟩

variable (on : bit (s.scrubCtl u) 24 = true) (active : s.power.state = .active)
include on active

/-- A row without error is left behind, its repairs done. -/
theorem exec_scrubVisit_calm {v : Nat} (next : ((s.finishWb u).scrub (scrubPlace u).1).next u = v)
    (calm : ∀ z ∈ rowWords (visitByte u v), (s.finishWb u).eccOf z = 0) :
    exec (.scrubVisit u) s = .next (((s.finishWb u).repaired u v).rotated u v) := by
  have none_bad : (rowWords (visitByte u v)).any (fun w => (s.finishWb u).eccOf w == 1) = false := by
    rw [List.any_eq_false]
    intro z hz
    simp [calm z hz]
  change execScrubVisit u s = _
  simp only [execScrubVisit, on, active, next, none_bad, State.scrubRead_calm calm, Bool.not_true, Bool.false_or,
    Bool.false_eq_true, if_false]
  rfl

/-- A row with a corrected word waits to be written back. -/
theorem exec_scrubVisit_repairs {v z : Nat} (next : ((s.finishWb u).scrub (scrubPlace u).1).next u = v)
    (hz : z ∈ rowWords (visitByte u v)) (bad : (s.finishWb u).eccOf z = 1) :
    exec (.scrubVisit u) s = .next (((s.finishWb u).scrubRead (visitByte u v)).modScrub (scrubPlace u).1
      (fun x => { x with row := some v })) := by
  have one_bad : (rowWords (visitByte u v)).any (fun w => (s.finishWb u).eccOf w == 1) = true :=
    List.any_eq_true.mpr ⟨z, hz, by simp [bad]⟩
  change execScrubVisit u s = _
  simp only [execScrubVisit, on, active, next, one_bad, Bool.not_true, Bool.false_or, if_true]
  rfl

/-- With no write-back pending, a row with a corrected word waits to be written back, and the rotation stands. -/
theorem exec_scrubVisit_waits {v z : Nat} (row : (s.scrub (scrubPlace u).1).row = none)
    (next : (s.scrub (scrubPlace u).1).next u = v) (hv : v < (scrubPlace u).2) (hz : z ∈ rowWords (visitByte u v))
    (bad : s.eccOf z = 1) : ∃ t, exec (.scrubVisit u) s = .next t ∧ (t.scrub (scrubPlace u).1).row = some v ∧
      SameVisit s t (scrubPlace u).1 := by
  have idle := State.finishWb_none row
  have runs := exec_scrubVisit_repairs on active (by rw [idle, next]) hz (by rw [idle, bad])
  rw [idle] at runs
  exact ⟨_, runs, by rw [State.modScrub_self],
    (State.scrubRead_sameVisit fun w hw => scrubAt_rowWords hv hw).trans (State.modScrub_sameVisit _ _ fun _ => rfl)⟩

/-- With no write-back pending and no repair queued, a row without error leaves the scrubber to its rotation. -/
theorem exec_scrubVisit_rotates (row : (s.scrub (scrubPlace u).1).row = none) (repair : (s.scrub (scrubPlace u).1).repair = [])
    (calm : ∀ z ∈ rowWords (visitByte u (s.scrub (scrubPlace u).1).visit), s.eccOf z = 0) :
    ∃ t : State, exec (.scrubVisit u) s = .next (t.rotated u (s.scrub (scrubPlace u).1).visit) ∧ t.scrub = s.scrub ∧
      t.regs = s.regs ∧ t.tick = s.tick := by
  have idle := State.finishWb_none row
  have runs := exec_scrubVisit_calm on active (by rw [idle, Scrub.next_idle repair]) (by rw [idle]; exact calm)
  rw [idle] at runs
  exact ⟨_, runs, State.repaired_scrub repair _, State.modScrub_regs .., State.modScrub_tick ..⟩

/-- A write-back pending at the rotation's visit lands, and the next row, without error, is left behind as well. -/
theorem exec_scrubVisit_lands {v : Nat} (visit : (s.scrub (scrubPlace u).1).visit = v)
    (row : (s.scrub (scrubPlace u).1).row = some v) (repair : (s.scrub (scrubPlace u).1).repair = [])
    (more : v + 2 < (scrubPlace u).2) (calm : ∀ z ∈ rowWords (visitByte u (v + 1)), s.eccOf z = 0) :
    ∃ t, exec (.scrubVisit u) s = .next t ∧ t.ecc = (s.scrubWrite (visitByte u v)).ecc ∧
      t.scrub (scrubPlace u).1 = { s.scrub (scrubPlace u).1 with row := none, visit := v + 2 } ∧
      ∀ j, j ≠ (scrubPlace u).1 → t.scrub j = s.scrub j := by
  obtain ⟨landed, others, ecc⟩ := State.finishWb_lands visit row repair (by omega)
  have still : ((s.finishWb u).scrub (scrubPlace u).1).repair = [] := by rw [landed]; exact repair
  have runs := exec_scrubVisit_calm on active (v := v + 1) (by rw [Scrub.next_idle still, landed]) (fun z hz => by
    rw [State.eccOf, ecc]
    exact State.scrubWrite_clean _ (calm z hz))
  have same := State.repaired_scrub still (v + 1)
  obtain ⟨moved, others', ecc'⟩ := State.rotated_next (s := (s.finishWb u).repaired u (v + 1)) (u := u) (by rw [same, landed])
    (by omega)
  refine ⟨_, runs, ?_, ?_, fun j hj => ?_⟩
  · rw [ecc', State.repaired, State.modScrub_ecc, ecc]
  · rw [moved, same, landed]
  · rw [others' j hj, same, others j hj]

end

/-! ### An evaluation (R203) -/

theorem exec_scrubEvaluation_due {s : State} (u : ScrubUnit) (due : (s.tick.count - 1) % 1024 = 0) (later : 2 ≤ s.tick.count) :
    exec (.scrubEvaluation u) s = .next (s.modScrub (scrubPlace u).1 (fun x => x.eval (s.scrubCtl u))) := by
  refine congrArg Host.Outcome.next (if_neg ?_)
  omega

/-- The exponent after an evaluation: less after errors, more after the sixteenth evaluation in a row without, within its bounds. -/
theorem Scrub.eval_n (x : Scrub) (ctl : Nat) : (x.eval ctl).n = max (bits ctl 12 8) (min (bits ctl 4 0)
    (if bits ctl 23 16 ≤ x.errors then x.n - 1 else if x.errors = 0 ∧ 15 ≤ x.clean then x.n + 1 else x.n)) := by
  have sixteenth : 16 ≤ (if x.errors = 0 then x.clean + 1 else 0) ↔ x.errors = 0 ∧ 15 ≤ x.clean := by split <;> omega
  simp only [Scrub.eval, sixteenth]

/-! ### The obligation -/

/-- Settles O43: a visit lands what waits, then reads the row that is next and leaves it behind or holds it for a write-back; an
evaluation changes its own scrubber alone. -/
theorem scrubbing : Obligations.Scrubbing := by
  unfold Obligations.Scrubbing
  intro s u w k x ctl gives works passed calm
  have leaves {P : State → Prop} {t : State} (runs : exec (.scrubVisit u) s = .next t) (is : P t)
      (others : ∀ j, j ≠ k → t.scrub j = s.scrub j) : gives P := by
    obtain ⟨mem, written⟩ := exec_scrubVisit_mem runs
    exact ⟨t, runs, is, mem, written, fun j hj _ => others j hj⟩
  refine ⟨?rotates, ?waits, ?repair, ?lands, exec_scrubVisit_off, ?evaluates, fun early => ?notDue⟩
  case rotates =>
    rintro ⟨on, active, -⟩ row repair clean
    obtain ⟨t, runs, scrub, regs, tick⟩ := exec_scrubVisit_rotates on active row repair clean
    have here : (t.scrub k).visit = x.visit := by rw [scrub]
    refine ⟨fun more => ?_, fun last => ?_⟩
    · obtain ⟨self, others, -⟩ := State.rotated_next here more
      exact leaves runs (by rw [self, scrub]) fun j hj => by rw [others j hj, scrub]
    · obtain ⟨self, others, counts⟩ := State.rotated_pass_spec here last
      refine leaves runs ⟨by rw [self, scrub, tick], ?_⟩ fun j hj => by rw [others j hj, scrub]
      have counter : passed = passReg u := by cases u <;> rfl
      exact counter ▸ counts.of_regs regs
  case waits =>
    rintro ⟨on, active, below⟩ row repair bad
    obtain ⟨t, runs, held, visit, others⟩ := exec_scrubVisit_waits on active row (Scrub.next_idle repair u) below
      List.mem_cons_self bad
    exact leaves runs ⟨held, visit⟩ others
  case repair =>
    rintro ⟨on, active, -⟩ row repair own bank bad
    obtain ⟨t, runs, held, visit, others⟩ := exec_scrubVisit_waits on active row (Scrub.next_repair repair bank)
      (wordVisit_lt u w) (mem_row_of_wordVisit own) bad
    exact leaves runs ⟨held, visit⟩ others
  case lands =>
    rintro ⟨on, active, -⟩ row repair more clean
    obtain ⟨t, runs, ecc, self, others⟩ := exec_scrubVisit_lands on active rfl row repair more clean
    refine leaves runs ⟨fun z hz => ?_, by rw [self], by rw [self]⟩ others
    rw [State.eccOf, ecc]
    exact State.scrubWrite_row (visitByte_dvd u _) hz
  case evaluates =>
    intro due later
    refine ⟨_, exec_scrubEvaluation_due u due later, ?_, ?_, ?_, State.modScrub_mem .., State.modScrub_ecc .., fun j hj _ => ?_⟩
    · rw [State.modScrub_self]
      exact Scrub.eval_n x ctl
    · rw [State.modScrub_self]
      rfl
    · rw [State.modScrub_self]
      rfl
    · rw [State.modScrub_scrub, if_neg hj]
  case notDue => exact congrArg Host.Outcome.next (if_pos (.inl early))

end Sys2Proof.Machine
end

section
/-!
PROOF. The port state machine (08 R213, R214, R220 and Table 08-2; 09 R261). Settles O25.
-/
namespace Sys2Proof.Machine

/-! ### A port takes a state -/

theorem SameButPortsRes.of_next {s t : State} {r : Res} (h : SameButPortsRes s r) (e : r = .next t) : SameButPorts s t := by
  rw [e] at h
  exact h

theorem State.portState_port (s : State) (p : Nat) (x : PortState) : (s.portState p x).port p = { s.port p with state := x } := by
  unfold State.portState
  split
  · rw [State.port, State.event_ports]
    exact State.modPort_self ..
  · exact State.modPort_self ..

theorem State.portState_onlyPort (s : State) (p : Nat) (x : PortState) : OnlyPort s (s.portState p x) p := by
  unfold State.portState
  split
  · exact (s.modPort_onlyPort p _).trans (State.event_onlyPort _ _ _ _ _)
  · exact s.modPort_onlyPort p _

/-- A port that neither leaves nor enters UP shows no page event (Table 17-9). -/
theorem State.portState_silent {s : State} {p : Nat} {x : PortState} (from_ : (s.port p).state ≠ .up) (to_ : x ≠ .up) :
    s.portState p x = s.modPort p (fun y => { y with state := x }) := if_neg (by simp [from_, to_])

/-- Leaving UP is a page event. -/
theorem State.portState_signals {s : State} {p : Nat} {x : PortState} (from_ : (s.port p).state = .up) (to_ : x ≠ .up) :
    Signals (s.portState p x) .prt p 2 := by
  have shown : s.portState p x = (s.modPort p (fun y => { y with state := x })).event .prt p 2 :=
    if_pos ⟨by rw [from_]; exact to_.symm, .inl from_⟩
  rw [shown]
  exact State.event_signals _ _ _ (by decide)

/-- What is stored above the page headers is the same after a port takes a state. -/
theorem State.portState_rd (s : State) (p : Nat) (x : PortState) {r : Reg} (h40 : 0x40 ≤ r.off) (ho : r.off < 4096) (i : Nat) :
    (s.portState p x).rd r i = s.rd r i :=
  (s.portState_sameAbove p x).rawAt r.page i 0 (off := r.off + 4 * 0) h40 ho

/-- A command leaves port `p` as `y`, and beyond it nothing but what a port shows has changed. -/
def PortGoes (c : Instr) (s : State) (p : Nat) (y : Port) : Prop :=
  Gives c s (fun t => t.port p = y ∧ OnlyPort s t p ∧ SameButPorts s t)

theorem PortGoes.modPort {c : Instr} {s : State} {p : Nat} {f : Port → Port} (e : exec c s = .next (s.modPort p f)) :
    PortGoes c s p (f (s.port p)) :=
  ⟨_, e, State.modPort_self .., s.modPort_onlyPort p f, s.modPort_sameButPorts p f⟩

theorem PortGoes.portState {c : Instr} {s u : State} {p : Nat} {x : PortState} (e : exec c s = .next (u.portState p x))
    (only : OnlyPort s u p) (same : SameButPorts s u) : PortGoes c s p { u.port p with state := x } :=
  ⟨_, e, State.portState_port .., only.trans (u.portState_onlyPort p x), same.trans (u.portState_sameButPorts p x)⟩

/-! ### Training frames sent (R216, R224) -/

theorem State.sendTraining_lit {s : State} {p : Nat} (lit : s.lit p = true) (l : Nat) :
    s.sendTraining p l = s.send (.training p l (s.trainingWord p l)) := if_pos lit

@[simp] theorem State.sendTraining_ports (s : State) (p l : Nat) : (s.sendTraining p l).ports = s.ports := by
  unfold State.sendTraining
  split <;> rfl

/-- Lanes of a lit port send each its next training frame, in turn. -/
theorem State.eachTraining_lit {p : Nat} (ls : List Nat) {s : State} (lit : s.lit p = true) :
    s.each ls (fun t l => t.sendTraining p l) =
      { s with out := s.out ++ ls.map (fun l => .training p l (s.trainingWord p l)) } := by
  induction ls generalizing s with
  | nil => simp [State.each]
  | cons l ls ih =>
    have first : s.each (l :: ls) (fun t l => t.sendTraining p l) =
      (s.sendTraining p l).each ls (fun t l => t.sendTraining p l) := rfl
    rw [first, State.sendTraining_lit lit, ih (s := s.send (.training p l (s.trainingWord p l))) lit]
    simp only [State.send, List.append_assoc, List.map_cons, List.singleton_append]
    rfl

/-! ### DETECT (Table 08-2) -/

/-- A port whose lanes have the preset, and which knows no partner. -/
def Port.presetLanes (x : Port) : Port :=
  { x with lanes := x.lanes.map (fun l => (l.1, l.2.preset)), partner := none, signal := 0, fecLock := false,
           frozen := false, frozenFor := 0 }

/-- A port as it begins DETECT. -/
def Port.detecting (x : Port) : Port := { x.presetLanes with state := .detect }

theorem State.toDetect_eq (s : State) (p : Nat) : s.toDetect p =
    ((s.modPort p Port.presetLanes).portState p .detect).each (List.range 12) (fun t l => t.sendTraining p l) := rfl

theorem State.toDetect_ports (s : State) (p : Nat) :
    (s.toDetect p).ports = ((s.modPort p Port.presetLanes).portState p .detect).ports :=
  State.each_keeps State.ports (fun t l => t.sendTraining_ports p l) _

theorem State.toDetect_port (s : State) (p : Nat) : (s.toDetect p).port p = (s.port p).detecting := by
  rw [State.port, State.toDetect_ports]
  refine (State.portState_port ..).trans ?_
  rw [State.modPort_self]
  rfl

theorem State.toDetect_onlyPort (s : State) (p : Nat) : OnlyPort s (s.toDetect p) p := by
  intro q hq
  rw [State.port, State.toDetect_ports]
  exact ((s.modPort_onlyPort p _).trans (State.portState_onlyPort _ p .detect)) q hq

/-- Every lane has the preset as DETECT begins: no request, no status, not trained. -/
theorem Port.detecting_lane (x : Port) (l : Nat) :
    (x.detecting.lane l).request = 0 ∧ (x.detecting.lane l).tap = 0 ∧ (x.detecting.lane l).status = 0 ∧
      (x.detecting.lane l).trained = false := by
  simp only [Port.lane, Port.detecting, Port.presetLanes, mget, mfind_map Lane.preset]
  cases mfind x.lanes l <;> exact ⟨rfl, rfl, rfl, rfl⟩

/-- A lit port that is not UP sends a training frame on every lane as DETECT begins (log 55). -/
theorem State.toDetect_trains {s : State} {p : Nat} (down : (s.port p).state ≠ .up) (lit : s.lit p = true) {l : Nat} (hl : l < 12) :
    Out.training p l (cwMake l p s.self 0 0 0 false (s.flag R.prtCtl 2 p)) ∈ (s.toDetect p).out := by
  let begun := (s.modPort p Port.presetLanes).modPort p (fun y => { y with state := .detect })
  have port : begun.port p = (s.port p).detecting := by simp only [begun, State.modPort_self]; rfl
  have detects : s.toDetect p = begun.each (List.range 12) (fun t l => t.sendTraining p l) := by
    rw [State.toDetect_eq, State.portState_silent]
    · rw [State.modPort_self]
      exact down
    · decide
  have litNow : begun.lit p = true := by simpa [State.lit, State.optical, port, Port.detecting, Port.presetLanes] using lit
  obtain ⟨request, tap, status, trained⟩ := (s.port p).detecting_lane l
  have word : begun.trainingWord p l = cwMake l p s.self 0 0 0 false (s.flag R.prtCtl 2 p) := by
    rw [State.trainingWord, port, request, tap, status, trained]
    rfl
  rw [detects, State.eachTraining_lit _ litNow, ← word]
  exact List.mem_append_right _ (List.mem_map.mpr ⟨l, List.mem_range.mpr hl, rfl⟩)

/-- What a command that begins DETECT of a port leaves, `P` being what it makes of the port beside. -/
def Detects (s t : State) (p : Nat) (P : Port → Prop) : Prop :=
  let y := t.port p
  y.state = .detect ∧ y.partner = none ∧ y.signal = 0 ∧ y.fecLock = false ∧ y.frozen = false ∧ P y ∧ OnlyPort s t p ∧
    SameButPorts s t ∧ (s.lit p = true → ∀ l, l < 12 →
      Out.training p l (cwMake l p s.self 0 0 0 false (s.flag R.prtCtl 2 p)) ∈ t.out)

/-- DETECT begins on a port that is not UP, once its links' state is changed. -/
theorem State.modPort_detects {s : State} {p : Nat} {f : Port → Port} {P : Port → Prop} (down : (s.port p).state ≠ .up)
    (state : (f (s.port p)).state = (s.port p).state) (opt : (f (s.port p)).opt = (s.port p).opt)
    (h : P (f (s.port p)).detecting) : Detects s ((s.modPort p f).toDetect p) p P := by
  have port : ((s.modPort p f).toDetect p).port p = (f (s.port p)).detecting := by rw [State.toDetect_port, State.modPort_self]
  refine ⟨by rw [port]; rfl, by rw [port]; rfl, by rw [port]; rfl, by rw [port]; rfl, by rw [port]; rfl, by rw [port]; exact h,
    (s.modPort_onlyPort p f).trans (State.toDetect_onlyPort _ p), (s.modPort_sameButPorts p f).trans (State.toDetect_sameButPorts _ p),
    fun lit l hl => ?_⟩
  refine State.toDetect_trains (s := s.modPort p f) ?_ ?_ hl
  · rw [State.modPort_self, state]
    exact down
  · simpa [State.lit, State.optical, opt] using lit

theorem State.toDetect_detects {s : State} {p : Nat} (down : (s.port p).state ≠ .up) :
    Detects s (s.toDetect p) p (fun _ => True) := by
  have port := s.toDetect_port p
  exact ⟨by rw [port]; rfl, by rw [port]; rfl, by rw [port]; rfl, by rw [port]; rfl, by rw [port]; rfl, trivial,
    s.toDetect_onlyPort p, s.toDetect_sameButPorts p, fun lit _ hl => State.toDetect_trains down lit hl⟩

theorem State.portMayRun_iff (s : State) (p : Nat) : s.portMayRun p = true ↔ s.flag R.prtCtl 0 p = true ∧ (s.port p).started = true ∧
    s.dimOne p = false ∧ (s.port p).ethernet = false ∧ s.island.firmware = true := by
  simp [State.portMayRun, and_assoc]

/-- Whether a port may run depends on its registers, its mode and start, and the firmware. -/
theorem State.portMayRun_modPort (s : State) (p : Nat) {f : Port → Port} (started : (f (s.port p)).started = (s.port p).started)
    (mode : (f (s.port p)).ethernet = (s.port p).ethernet) : (s.modPort p f).portMayRun p = s.portMayRun p := by
  simp only [State.portMayRun, State.modPort_self, started, mode]
  rfl

/-! ### BACKOFF (R214) -/

theorem State.backoff_port (s : State) (p reason : Nat) : (s.backoff p reason).port p =
    { s.port p with backoffN := (s.port p).backoffN + 1, failReason := reason, fecLock := false, state := .backoff } := by
  rw [State.backoff, State.portState_port, State.modPort_self]

theorem State.backoff_onlyPort (s : State) (p reason : Nat) : OnlyPort s (s.backoff p reason) p :=
  (s.modPort_onlyPort p _).trans (State.portState_onlyPort _ p .backoff)

theorem PortGoes.backoff {c : Instr} {s u : State} {p reason : Nat} (e : exec c s = .next (u.backoff p reason))
    (only : OnlyPort s u p) (same : SameButPorts s u) : PortGoes c s p
      { u.port p with backoffN := (u.port p).backoffN + 1, failReason := reason, fecLock := false, state := .backoff } :=
  ⟨_, e, State.backoff_port .., only.trans (u.backoff_onlyPort p reason), same.trans (u.backoff_sameButPorts p reason)⟩

/-! ### The identity exchange begins (R258, R261) -/

@[simp] theorem State.transmit_ports (s : State) (p : Nat) (f : Frame) : (s.transmit p f).ports = s.ports := by
  unfold State.transmit
  split <;> rfl

/-- A SECURE message changes its port's classes alone. -/
theorem State.sendSecure_port (s : State) (p : Nat) (c : Content) :
    (∃ seqs, (s.sendSecure p c).port p = { s.port p with seqs := seqs }) ∧ OnlyPort s (s.sendSecure p c) p := by
  have numbered := s.modSeq_classesOnly p 9 (fun x => { x with next := x.next + 1 })
  have sent (q : Nat) : (s.sendSecure p c).port q = (s.modSeq p 9 (fun x => { x with next := x.next + 1 })).port q := by
    rw [State.port, State.sendSecure, State.transmit_ports]
    rfl
  refine ⟨?_, fun q hq => (sent q).trans (numbered.only q hq)⟩
  rw [sent]
  exact numbered.port

/-- A message of an exchange goes out at once on a lit port that is neither in test nor in low-power idle. -/
theorem State.sendSecure_out {s : State} {p : Nat} (meets : CanMeet s p) (c : Content) :
    (s.sendSecure p c).out = s.out ++ [.frame p (s.carrier p c)] := by
  obtain ⟨lit, untested, awake⟩ := meets
  have port : ∃ seqs, (s.modSeq p 9 (fun x => { x with next := x.next + 1 })).port p = { s.port p with seqs := seqs } :=
    ⟨_, State.modPort_self ..⟩
  obtain ⟨seqs, port⟩ := port
  rw [State.sendSecure, State.transmit_lit, if_pos]
  · rfl
  · simp [Port.lets, port, awake]
  · simpa [State.lit, State.optical, port] using lit
  · exact untested

/-- A port as its exchange begins with HELLO `h`, the exchanges of the last 100 ms having started at `starts`. -/
def Port.opening (x : Port) (h : Hello) (starts : List Nat) : Port :=
  { x with secure := { x.secure with hello := some h, theirs := none, accepted := false, starts := starts } }

/-- The port of state `u` is as in `s` but for its state and its delay, and the rest of the device as before. -/
structure Measured (s u : State) (p : Nat) (st : PortState) (delay : Nat) : Prop where
  rest : u = { s with ports := u.ports }
  only : OnlyPort s u p
  port : u.port p = { s.port p with state := st, delay := delay }

/-- The content of HELLO goes in clear, under the class's next number, on a port that is not UP. -/
theorem Measured.carrier {s u : State} {p delay : Nat} {st : PortState} (m : Measured s u p st delay) (down : st ≠ .up)
    (before : (s.port p).state ≠ .up) (h : Hello) (starts : List Nat) :
    ((u.modPort p (fun y => y.opening h starts)).draw).carrier p (.hello h) = s.carrier p (.hello h) := by
  have port : ((u.modPort p (fun y => y.opening h starts)).draw).port p =
      Port.opening { s.port p with state := st, delay := delay } h starts := by
    rw [← m.port]
    exact u.modPort_self p (fun y => y.opening h starts)
  simp only [State.carrier, State.classSeq, port]
  simp [Port.opening, Port.keyFor, down, before]

/-- Where fewer than four exchanges started in the last 100 ms, one begins with HELLO. -/
theorem Measured.startExchange {s u : State} {p delay : Nat} {st : PortState} (m : Measured s u p st delay) (down : st ≠ .up)
    (before : (s.port p).state ≠ .up) (few : (s.within 100000000 (s.port p).secure.starts).length < 4) :
    let t := u.startExchange p
    (t.port p).state = st ∧ (t.port p).delay = delay ∧ (t.port p).secure.accepted = false ∧
      (t.port p).secure.starts = s.within 100000000 (s.port p).secure.starts ++ [s.power.uptime] ∧
      (t.port p).secure.hello = some (s.helloOf p) ∧
      (CanMeet s p → t.out = s.out ++ [.frame p (s.carrier p (.hello (s.helloOf p)))]) ∧ OnlyPort s t p := by
  intro t
  let starts := s.within 100000000 (s.port p).secure.starts ++ [s.power.uptime]
  let v := (u.modPort p (fun y => y.opening (s.helloOf p) starts)).draw
  have recent : u.within 100000000 (u.port p).secure.starts = s.within 100000000 (s.port p).secure.starts := by
    rw [m.port, m.rest]
    rfl
  have hello : u.helloOf p = s.helloOf p := by rw [m.rest]; rfl
  have uptime : u.power.uptime = s.power.uptime := by rw [m.rest]
  have begins : t = v.sendSecure p (.hello (s.helloOf p)) := by
    simp only [t, State.startExchange, recent, hello, uptime, Nat.not_le.mpr few, if_false]
    rfl
  have port : v.port p = Port.opening { s.port p with state := st, delay := delay } (s.helloOf p) starts := by
    rw [← m.port]
    exact u.modPort_self p (fun y => y.opening (s.helloOf p) starts)
  obtain ⟨⟨seqs, sent⟩, sentOnly⟩ := v.sendSecure_port p (.hello (s.helloOf p))
  rw [begins, sent, port]
  refine ⟨rfl, rfl, rfl, rfl, rfl, fun meets => ?_, ?_⟩
  · obtain ⟨lit, untested, awake⟩ := meets
    have meetsNow : CanMeet v p := by
      refine ⟨?_, ?_, by rw [port]; exact awake⟩
      · simpa [State.lit, State.optical, port, Port.opening] using lit
      · have regs : v.regs = s.regs := by change u.regs = s.regs; rw [m.rest]
        simpa [State.flag, State.rd, State.rawAt, regs] using untested
    have out : v.out = s.out := by change u.out = s.out; rw [m.rest]
    rw [State.sendSecure_out meetsNow, m.carrier down before, out]
  · exact (m.only.trans (u.modPort_onlyPort p (fun y => y.opening (s.helloOf p) starts))).trans sentOnly

/-- The fifth start within 100 ms is a BACKOFF. -/
theorem Measured.fifth {s u : State} {p delay : Nat} {st : PortState} (m : Measured s u p st delay)
    (many : 4 ≤ (s.within 100000000 (s.port p).secure.starts).length) : u.startExchange p = u.backoff p 5 := by
  have recent : u.within 100000000 (u.port p).secure.starts = s.within 100000000 (s.port p).secure.starts := by
    rw [m.port, m.rest]
    rfl
  exact if_pos (by rw [recent]; exact many)

/-- MEASURE_DONE begins the exchange of a port in MEASURE, or of one that has locked again in RETRAIN. -/
theorem exec_measureDone {s : State} {i : Fin 16} (ps : Nat)
    (h : (s.port i).state = .measure ∨ ((s.port i).state = .retrain ∧ (s.port i).fecLock = true)) :
    ∃ u, Measured s u i (if (s.port i).state = .measure then .secure else .retrain) (ps % 2 ^ 32) ∧
      exec (.measureDone i ps) s = .next (u.startExchange i) := by
  obtain measure | ⟨retrain, locked⟩ := h
  · refine ⟨(s.modPort i (fun y => { y with delay := ps % 2 ^ 32 })).portState i .secure, ⟨?_, ?_, ?_⟩, ?_⟩
    · rw [State.portState_silent (by rw [State.modPort_self, measure]; decide) (by decide)]
      rfl
    · exact (s.modPort_onlyPort i _).trans (State.portState_onlyPort _ i .secure)
    · rw [State.portState_port, State.modPort_self, if_pos measure]
    · change execMeasureDone i ps s = _
      simp only [execMeasureDone, measure]
  · refine ⟨s.modPort i (fun y => { y with delay := ps % 2 ^ 32 }), ⟨rfl, s.modPort_onlyPort i _, ?_⟩, ?_⟩
    · rw [State.modPort_self, if_neg (by rw [retrain]; decide)]
      exact congrArg (fun st => { s.port i with state := st, delay := ps % 2 ^ 32 }) retrain
    · change execMeasureDone i ps s = _
      simp only [execMeasureDone, retrain, locked, if_true]

theorem exec_measureDone_early {s : State} {i : Fin 16} (ps : Nat) (h : (s.port i).state ≠ .measure)
    (unlocked : (s.port i).state = .retrain → (s.port i).fecLock = false) : exec (.measureDone i ps) s = .next s := by
  change execMeasureDone i ps s = _
  unfold execMeasureDone
  cases state : (s.port i).state
  case measure => exact absurd state h
  case retrain => simp [unlocked state]
  all_goals rfl

/-- ALIGN_LOCK is taken in ALIGN and in RETRAIN alone. -/
theorem exec_alignLock_early {s : State} {i : Fin 16} (align : (s.port i).state ≠ .align) (retrain : (s.port i).state ≠ .retrain) :
    exec (.alignLock i) s = .next s := by
  change execAlignLock i s = _
  unfold execAlignLock
  cases state : (s.port i).state
  case align => exact absurd state align
  case retrain => exact absurd state retrain
  all_goals rfl

/-- Reloading every listed lane reloads every lane: one that is not listed has nothing stored. -/
theorem reloaded_lane (x : Port) (k : Nat) :
    mget Lane.reset (x.lanes.map (fun l => (l.1, l.2.reload))) k = (x.lane k).reload := by
  simp only [Port.lane, mget, mfind_map Lane.reload]
  cases mfind x.lanes k <;> rfl

theorem lossOfLock_spec {s : State} {i : Fin 16} (up : (s.port i).state = .up) (ronba : (s.port i).ethernet = false) :
    Gives (.lossOfLock i) s (fun t => (t.port i).state = .retrain ∧
      (t.port i).fecLock = false ∧ (∀ k, (t.port i).lane k = ((s.port i).lane k).reload) ∧ Counts s t R.prtDownCnt i 1 ∧
        Signals t .prt i 2 ∧ OnlyPort s t i ∧ SameButPorts s t) := by
  let c := s.cnt R.prtDownCnt i
  let u := c.modPort i (fun y => { y with fecLock := false, lanes := y.lanes.map (fun l => (l.1, l.2.reload)) })
  have e : exec (.lossOfLock i) s = .next (u.portState i .retrain) := congrArg Host.Outcome.next (if_pos ⟨up, ronba⟩)
  have counted : c.port i = s.port i := by simp [c, State.port]
  have port : (u.portState i .retrain).port i = { s.port i with
      fecLock := false, lanes := (s.port i).lanes.map (fun l => (l.1, l.2.reload)), state := .retrain } := by
    rw [State.portState_port, State.modPort_self, counted]
  have same : SameButPorts s _ := (execLossOfLock_sameButPortsRes i s).of_next e
  refine ⟨_, e, by rw [port], by rw [port], fun k => ?_, fun unfrozen => ?_, State.portState_signals ?_ (by decide), ?_, same⟩
  · rw [port]
    exact reloaded_lane (s.port i) k
  · rw [State.portState_rd _ _ _ (by decide) (by decide)]
    exact s.cnt_counts R.prtDownCnt i 1 unfrozen
  · rw [State.modPort_self, counted]
    exact up
  · exact (OnlyPort.trans (fun q _ => by simp [c, State.port]) (c.modPort_onlyPort i _)).trans (State.portState_onlyPort _ i .retrain)

/-- DETECT again, or QUIET, as a port's retry decides (R213, R214). -/
theorem State.retry_runs {s : State} {p : Nat} (h : s.portMayRun p = true) : s.retry p = s.toDetect p := if_pos h

theorem State.retry_rests {s : State} {p : Nat} (h : s.portMayRun p = false) : s.retry p = s.portState p .quiet :=
  if_neg (by simp [h])

/-- A port that starts over: what its link held is lost. -/
def Port.unlinked (x : Port) : Port := { x with seqs := [], freed := [], granted := [], spent := [] }

theorem State.dropLink_eq (s : State) (p : Nat) : s.dropLink p = s.modPort p Port.unlinked := rfl

theorem exec_retrainTimeout {s : State} {i : Fin 16} (retrain : (s.port i).state = .retrain) :
    exec (.retrainTimeout i) s = .next ((s.dropLink i).retry i) := congrArg Host.Outcome.next (if_pos retrain)

theorem exec_backoffExpiry {s : State} {i : Fin 16} (backoff : (s.port i).state = .backoff) :
    exec (.backoffExpiry i) s = .next (s.retry i) := congrArg Host.Outcome.next (if_pos backoff)

/-- PORT_START_TIME of a QUIET port that may run otherwise. -/
theorem exec_portStartTime_runs {s : State} {i : Fin 16} (quiet : (s.port i).state = .quiet)
    (runs : (s.modPort i (fun y => { y with started := true })).portMayRun i = true) :
    exec (.portStartTime i) s = .next ((s.modPort i (fun y => { y with started := true })).toDetect i) :=
  congrArg Host.Outcome.next (if_pos ⟨quiet, runs⟩)

theorem State.started_mayRun (s : State) (p : Nat) : (s.modPort p (fun y => { y with started := true })).portMayRun p = true ↔
    s.flag R.prtCtl 0 p = true ∧ s.dimOne p = false ∧ (s.port p).ethernet = false ∧ s.island.firmware = true := by
  rw [State.portMayRun_iff, State.modPort_self]
  simp only [true_and]
  rfl

/-- Settles O25: each command's effect is one move of the port, whose spec says what it leaves. -/
theorem portStates : Obligations.PortStates := by
  unfold Obligations.PortStates
  intro s i ps x moves backs detects starts
  have moved {c : Instr} {y : Port} {P : Port → Prop} (goes : PortGoes c s i y) (h : P y) : moves c P := by
    obtain ⟨t, e, port, only, same⟩ := goes
    exact ⟨t, e, by rw [port]; exact h, only, same⟩
  have detected {c : Instr} {t : State} {P : Port → Prop} (e : exec c s = .next t) (h : Detects s t i P) : detects c P := ⟨t, e, h⟩
  clear_value moves detects
  have times {c : Instr} {r : Nat} (e : exec c s = .next (s.backoff i r)) : backs c r :=
    moved (.backoff e (.refl s i) (.refl s)) ⟨rfl, rfl, rfl, rfl⟩
  have drops : (s.dropLink i).portMayRun i = s.portMayRun i := s.portMayRun_modPort i rfl rfl
  refine ⟨?starts, ?stays, fun h => times (congrArg Host.Outcome.next (if_pos h)),
    fun h => times (congrArg Host.Outcome.next (if_pos h)), ?align, ?backoff, ?retrain, ?early,
    exec_alignLock_early, ?measure, exec_measureDone_early ps, lossOfLock_spec, fun h => ?_⟩
  case starts =>
    intro quiet enabled dims ronba firmware
    have runs := (s.started_mayRun i).mpr ⟨enabled, dims, ronba, firmware⟩
    exact detected (exec_portStartTime_runs quiet runs) (State.modPort_detects (by rw [quiet]; decide) rfl rfl rfl)
  case stays =>
    intro h
    refine congrArg Host.Outcome.next (if_neg ?_)
    rw [State.started_mayRun]
    rintro ⟨quiet, enabled, dims, ronba, firmware⟩
    obtain h | h | h | h | h := h
    · exact h quiet
    · simp [enabled] at h
    · simp [dims] at h
    · simp [x, ronba] at h
    · simp [firmware] at h
  case align =>
    intro align
    refine ⟨times (congrArg Host.Outcome.next (if_pos align)), ?_⟩
    have e : exec (.alignLock i) s =
        .next ((s.modPort i (fun y => { y with fecLock := true, blocks := 0 })).portState i .measure) := by
      change execAlignLock i s = _
      simp only [execAlignLock, show (s.port i).state = .align from align]
    exact moved (.portState e (s.modPort_onlyPort i _) (s.modPort_sameButPorts i _)) (by rw [State.modPort_self])
  case backoff =>
    intro backoff
    have down : (s.port i).state ≠ .up := by rw [show (s.port i).state = .backoff from backoff]; decide
    exact ⟨fun runs => detected ((exec_backoffExpiry backoff).trans (by rw [State.retry_runs runs])) (State.toDetect_detects down),
      fun rests => moved (.portState ((exec_backoffExpiry backoff).trans (by rw [State.retry_rests rests])) (.refl s i) (.refl s)) rfl⟩
  case retrain =>
    intro retrain
    refine ⟨?_, fun runs => ?_, fun rests => ?_⟩
    · have e : exec (.alignLock i) s = .next (s.modPort i (fun y => { y with fecLock := true, blocks := 0 })) := by
        change execAlignLock i s = _
        simp only [execAlignLock, show (s.port i).state = .retrain from retrain]
      exact moved (.modPort e) rfl
    · refine detected ((exec_retrainTimeout retrain).trans (by rw [State.retry_runs (drops.trans runs), State.dropLink_eq])) ?_
      exact State.modPort_detects (by rw [show (s.port i).state = .retrain from retrain]; decide) rfl rfl ⟨rfl, rfl, rfl⟩
    · refine moved (.portState (u := s.dropLink i) ((exec_retrainTimeout retrain).trans (by rw [State.retry_rests (drops.trans rests)]))
        (State.modPort_onlyPort s i Port.unlinked) (s.dropLink_sameButPorts i)) ?_
      rw [State.dropLink_eq, State.modPort_self]
      exact ⟨rfl, rfl, rfl⟩
  case early =>
    simp only [List.mem_cons, List.not_mem_nil, Prod.mk.injEq, or_false]
    rintro c st (⟨rfl, rfl⟩ | ⟨rfl, rfl⟩ | ⟨rfl, rfl⟩ | ⟨rfl, rfl⟩ | ⟨rfl, rfl⟩) h
    all_goals exact congrArg Host.Outcome.next (if_neg h)
  case measure =>
    intro h
    obtain ⟨u, measured, e⟩ := exec_measureDone ps h
    have same : SameButPorts s (u.startExchange i) := (execMeasureDone_sameButPortsRes i ps s).of_next e
    have before : x.state ≠ .up := by
      obtain h | ⟨h, -⟩ := h <;> rw [h] <;> decide
    refine ⟨fun few => ?_, fun many => ?_⟩
    · have down : (if x.state = .measure then PortState.secure else .retrain) ≠ .up := by split <;> decide
      obtain ⟨state, delay, accepted, begun, hello, out, only⟩ := measured.startExchange down before few
      exact ⟨_, e, state, delay, accepted, begun, ⟨_, hello, rfl, rfl, rfl, rfl, out⟩, only, same⟩
    · have before : SameButPorts s u := by
        rw [measured.rest]
        exact SameButPorts.refl s
      refine moved (.backoff (e.trans (by rw [measured.fifth many])) measured.only before) ?_
      rw [measured.port]
      exact ⟨rfl, rfl, rfl, rfl⟩
  · refine congrArg Host.Outcome.next (if_neg ?_)
    rintro ⟨up, ronba⟩
    obtain h | h := h
    · exact h up
    · simp [x, ronba] at h

end Sys2Proof.Machine
end

section
/-!
PROOF. Codeword windows, adaptation and the burst guard (08 R211, R221, R222). Settles O27.
-/
namespace Sys2Proof.Machine

/-! ### A lane changes -/

theorem State.modLane_lane (s : State) (p l k : Nat) (f : Lane → Lane) :
    ((s.modLane p l f).port p).lane k = if k = l then f ((s.port p).lane l) else (s.port p).lane k := by
  simp only [State.modLane, State.modPort_self, Port.lane, mget_mput]

/-- Of the device only port `p`'s lanes have changed, and its first twelve are each made what `f` says. -/
structure LanesGo (s t : State) (p : Nat) (f : Nat → Lane → Lane) : Prop where
  rest : t = { s with ports := t.ports }
  only : OnlyPort s t p
  port : ∃ lanes, t.port p = { s.port p with lanes := lanes }
  lane : ∀ k, k < 12 → (t.port p).lane k = f k ((s.port p).lane k)

theorem LanesGo.trans {s t u : State} {p : Nat} {f g : Nat → Lane → Lane} (h : LanesGo s t p f) (h' : LanesGo t u p g) :
    LanesGo s u p (fun k l => g k (f k l)) := by
  refine ⟨?_, h.only.trans h'.only, ?_, fun k hk => by rw [h'.lane k hk, h.lane k hk]⟩
  · rw [h'.rest, h.rest]
  · obtain ⟨_, e⟩ := h.port
    obtain ⟨_, e'⟩ := h'.port
    exact ⟨_, by rw [e', e]⟩

/-- Lanes changed in turn, each once. -/
theorem State.eachLane_lane (p : Nat) (f : Nat → Lane → Lane) {ls : List Nat} (once : ls.Nodup) (s : State) (k : Nat) :
    ((s.each ls (fun t l => t.modLane p l (f l))).port p).lane k =
      if k ∈ ls then f k ((s.port p).lane k) else (s.port p).lane k := by
  induction ls generalizing s with
  | nil => simp [State.each]
  | cons a ls ih =>
    obtain ⟨fresh, once⟩ := List.nodup_cons.mp once
    have first : s.each (a :: ls) (fun t l => t.modLane p l (f l)) =
      (s.modLane p a (f a)).each ls (fun t l => t.modLane p l (f l)) := rfl
    rw [first, ih once, State.modLane_lane]
    by_cases e : k = a
    · subst e
      simp [fresh]
    · simp [e]

theorem State.eachLane_lanesGo (s : State) (p : Nat) (f : Nat → Lane → Lane) :
    LanesGo s (s.each (List.range 12) (fun t l => t.modLane p l (f l))) p f := by
  have step (ls : List Nat) (s : State) : let t := s.each ls (fun t l => t.modLane p l (f l))
      t = { s with ports := t.ports } ∧ OnlyPort s t p ∧ ∃ lanes, t.port p = { s.port p with lanes := lanes } := by
    induction ls generalizing s with
    | nil => exact ⟨rfl, .refl s p, _, rfl⟩
    | cons a ls ih =>
      obtain ⟨rest, only, lanes, port⟩ := ih (s.modLane p a (f a))
      refine ⟨rest, (s.modPort_onlyPort p _).trans only, lanes, port.trans ?_⟩
      rw [State.modLane, State.modPort_self]
  obtain ⟨rest, only, port⟩ := step (List.range 12) s
  exact ⟨rest, only, port, fun k hk => by rw [State.eachLane_lane p f List.nodup_range, if_pos (List.mem_range.mpr hk)]⟩

/-! ### The burst guard's steps (R222) -/

/-- A window's errors join the lane's history (R222). -/
def Lane.noting (l : Lane) (e : Nat) : Lane := { l with history := (e :: l.history).take 1000 }

/-- The adaptation values of a lane. -/
def Lane.values (l : Lane) : Nat × List Int × List Int := (l.ctle, l.dfe, l.slicer)

/-- A restored lane has the values held 10 windows before, or the oldest known, and what it holds and its history as they were. -/
theorem Lane.restore_spec (l : Lane) : l.restore.values = (l.held[10]? <|> l.held.getLast?).getD l.values ∧
    l.restore.held = l.held ∧ l.restore.history = l.history := by
  unfold Lane.restore
  cases l.held[10]? <|> l.held.getLast? <;> exact ⟨rfl, rfl, rfl⟩

/-- The lanes of a port in UP as a window of errors ends: noted where the loops run, restored where a step sets them back, and held. -/
def Lane.guarded (noted back : Bool) (e : Nat) (l : Lane) : Lane :=
  let m := if noted then l.noting e else l
  (if back then m.restore else m).hold

theorem Lane.guarded_held (noted back : Bool) (e : Nat) (l : Lane) :
    (l.guarded noted back e).held = ((l.guarded noted back e).values :: l.held).take 11 := by
  cases noted <;> cases back <;> simp only [Lane.guarded, Bool.false_eq_true, if_false, if_true]
  case false.false | true.false => rfl
  case false.true => rw [Lane.hold, l.restore_spec.2.1]; rfl
  case true.true => rw [Lane.hold, (l.noting e).restore_spec.2.1]; rfl

theorem Lane.guarded_restored (noted : Bool) (e : Nat) (l : Lane) :
    (l.guarded noted true e).values = (l.held[10]? <|> l.held.getLast?).getD l.values := by
  cases noted
  · exact l.restore_spec.1
  · exact (l.noting e).restore_spec.1

theorem Lane.guarded_kept (noted : Bool) (e : Nat) (l : Lane) : (l.guarded noted false e).values = l.values := by
  cases noted <;> rfl

theorem Lane.guarded_noted (back : Bool) (e : Nat) (l : Lane) :
    (l.guarded true back e).history = (e :: l.history).take 1000 := by
  cases back
  · rfl
  · exact (l.noting e).restore_spec.2.2

section
variable {s : State} {i : Fin 16} {errors : List Nat}

/-- A window's errors are a step on some lane (R222). -/
def State.windowSteps (s : State) (p : Nat) (errors : List Nat) : Bool :=
  (List.range 12).any (fun k => isStep ((s.port p).lane k) (errors.getD k 0))

/-- The lanes' work as a window ends: noting, restoring and holding. -/
def State.guarding (s : State) (p : Nat) (noted back : Bool) (errors : List Nat) : State :=
  let s1 := if noted then s.each (List.range 12) (fun t l => t.modLane p l (fun k => k.noting (errors.getD l 0))) else s
  let s2 := if back then s1.each (List.range 12) (fun t l => t.modLane p l Lane.restore) else s1
  s2.each (List.range 12) (fun t l => t.modLane p l Lane.hold)

theorem State.guarding_lanesGo (s : State) (p : Nat) (noted back : Bool) (errors : List Nat) :
    LanesGo s (s.guarding p noted back errors) p (fun k l => l.guarded noted back (errors.getD k 0)) := by
  have notes := s.eachLane_lanesGo p (fun l k => k.noting (errors.getD l 0))
  have restores (t : State) := t.eachLane_lanesGo p (fun _ => Lane.restore)
  have holds (t : State) := t.eachLane_lanesGo p (fun _ => Lane.hold)
  cases noted <;> cases back
  case false.false => exact holds s
  case false.true => exact (restores s).trans (holds _)
  case true.false => exact notes.trans (holds _)
  case true.true => exact (notes.trans (restores _)).trans (holds _)

/-- The lanes' work of a window in UP: a step restores them, unless an earlier freeze has lasted to its limit; one that finds the
loops running freezes them. -/
theorem exec_burstGuardWindow_up (up : (s.port i).state = .up) :
    let x := s.port i
    let s1 := if x.frozen then s.modPort i (fun y => { y with frozenFor := y.frozenFor + 1 })
      else s.each (List.range 12) (fun t l => t.modLane i l (fun k => k.noting (errors.getD l 0)))
    let restored := (s1.each (List.range 12) (fun t l => t.modLane i l Lane.restore)).each (List.range 12)
      (fun t l => t.modLane i l Lane.hold)
    exec (.burstGuardWindow i errors) s = .next (
      if s.windowSteps i errors = true ∧ (!x.frozen && x.frozenFor != 0) = false then
        if x.frozen then restored
        else (restored.modPort i (fun y => { y with frozen := true, frozenFor := 0 })).cnt R.prtFreezeCnt i
      else s1.each (List.range 12) (fun t l => t.modLane i l Lane.hold)) :=
  congrArg Host.Outcome.next (if_neg (not_not.mpr up))

/-- The freeze that a step begins is counted, and leaves the lanes. -/
theorem LanesGo.freeze {u : State} {p : Nat} {f : Nat → Lane → Lane} (went : LanesGo s u p f) :
    let t := (u.modPort p (fun y => { y with frozen := true, frozenFor := 0 })).cnt R.prtFreezeCnt p
    (t.port p).frozen = true ∧ (t.port p).frozenFor = 0 ∧ Counts s t R.prtFreezeCnt p 1 ∧ OnlyPort s t p ∧
      ∀ k, k < 12 → (t.port p).lane k = f k ((s.port p).lane k) := by
  intro t
  have ports (q : Nat) : t.port q = (u.modPort p (fun y => { y with frozen := true, frozenFor := 0 })).port q := by
    rw [State.port, State.cnt_ports]
    rfl
  have port : t.port p = { u.port p with frozen := true, frozenFor := 0 } := (ports p).trans (State.modPort_self ..)
  have regs : u.regs = s.regs := by rw [went.rest]
  refine ⟨by rw [port], by rw [port], (State.cnt_counts _ R.prtFreezeCnt p 1).of_regs regs, fun q hq => ?_, fun k hk => ?_⟩
  · rw [ports, u.modPort_onlyPort p _ q hq, went.only q hq]
  · rw [port]
    exact went.lane k hk

/-- A step while the loops run unlimited freezes them. -/
theorem exec_burstGuardWindow_freezes (up : (s.port i).state = .up) (runs : (s.port i).frozen = false)
    (unlimited : (s.port i).frozenFor = 0) (steps : s.windowSteps i errors = true) :
    exec (.burstGuardWindow i errors) s = .next (((s.guarding i true true errors).modPort i (fun y => { y with
      frozen := true, frozenFor := 0 })).cnt R.prtFreezeCnt i) := by
  rw [exec_burstGuardWindow_up up, if_pos ⟨steps, by simp [unlimited]⟩]
  simp only [runs, State.guarding, Bool.false_eq_true, if_false, if_true]

/-- A window without a step, or a step where the freeze has lasted to its limit, is noted. -/
theorem exec_burstGuardWindow_notes (up : (s.port i).state = .up) (runs : (s.port i).frozen = false)
    (calm : s.windowSteps i errors = false ∨ (s.port i).frozenFor ≠ 0) :
    exec (.burstGuardWindow i errors) s = .next (s.guarding i true false errors) := by
  rw [exec_burstGuardWindow_up up, if_neg (by rintro ⟨steps, unlimited⟩; simp_all)]
  simp only [runs, State.guarding, Bool.false_eq_true, if_false, if_true]

/-- While the loops are frozen the windows are counted, and a step sets the loops back again. -/
theorem exec_burstGuardWindow_frozen (up : (s.port i).state = .up) (frozen : (s.port i).frozen = true) :
    exec (.burstGuardWindow i errors) s = .next ((s.modPort i (fun y => { y with frozenFor := y.frozenFor + 1 })).guarding i false
      (s.windowSteps i errors) errors) := by
  rw [exec_burstGuardWindow_up up]
  cases steps : s.windowSteps i errors <;> 
    simp only [frozen, State.guarding, Bool.not_true, Bool.false_and, Bool.false_eq_true, false_and, and_self, if_false, if_true]

end

/-- UNC_WINDOW: the threshold alone is not yet an alarm (R211). -/
theorem uncWindow_spec (s : State) (i : Fin 16) : Gives (.uncWindow i) s (fun t =>
    (t.port i).uncWindow = 0 ∧ OnlyPort s t i ∧ SameButPorts s t ∧
      (s.fld R.prtUncThr 15 0 i < (s.port i).uncWindow → (t.port i).uncAlarm = true ∧ Signals t .prt i 1) ∧
      ((s.port i).uncWindow ≤ s.fld R.prtUncThr 15 0 i → (t.port i).uncAlarm = (s.port i).uncAlarm)) := by
  have same := execUncWindow_sameButPortsRes i s
  by_cases exceeds : s.fld R.prtUncThr 15 0 i < (s.port i).uncWindow
  · let alarmed := (s.modPort i (fun y => { y with uncAlarm := true })).event .prt i 1
    have e : exec (.uncWindow i) s = .next (alarmed.modPort i (fun y => { y with uncWindow := 0 })) := by
      change execUncWindow i s = _
      simp only [execUncWindow, exceeds, if_true]
      rfl
    have port : alarmed.port i = { s.port i with uncAlarm := true } := by
      rw [State.port, State.event_ports]
      exact State.modPort_self ..
    refine ⟨_, e, by rw [State.modPort_self], ?_, same.of_next e, fun _ => ⟨by rw [State.modPort_self, port], ?_⟩,
      fun under => absurd exceeds (Nat.not_lt.mpr under)⟩
    · exact ((s.modPort_onlyPort i _).trans (State.event_onlyPort _ .prt i 1 i)).trans (State.modPort_onlyPort _ i _)
    · exact State.event_signals _ .prt i (by decide)
  · have e : exec (.uncWindow i) s = .next (s.modPort i (fun y => { y with uncWindow := 0 })) := by
      change execUncWindow i s = _
      simp only [execUncWindow, exceeds, if_false]
    exact ⟨_, e, by rw [State.modPort_self], s.modPort_onlyPort i _, same.of_next e, fun h => absurd h exceeds,
      fun _ => by rw [State.modPort_self]⟩

/-- The loops of a port move: in TRAIN, and in UP but in doze, while they are not frozen (R221, R222). -/
theorem loopsRest_iff (s : State) (i : Fin 16) :
    (((s.port i).state ≠ .train ∧ (s.port i).state ≠ .up) ∨ (s.port i).frozen = true ∨ ((s.port i).state = .up ∧ s.dozing = true)) ↔
      ¬(((s.port i).state = .train ∨ ((s.port i).state = .up ∧ s.dozing = false)) ∧ (s.port i).frozen = false) := by
  cases (s.port i).state <;> cases (s.port i).frozen <;> cases s.dozing <;> decide

/-- Settles O27: the loops' moves are changes of lanes, and a window's end is noting, restoring and holding them. -/
theorem adaptationAndGuard : Obligations.AdaptationAndGuard := by
  unfold Obligations.AdaptationAndGuard
  intro s i l errors code a b c x m lane moves step window kept restored noted
  have rests := loopsRest_iff s i
  have moved {y : Adapt} {f : Lane → Lane} (e : exec (.adaptationUpdate i l y) s = .next (s.modLane i l f)) : lane y (f m) := by
    refine ⟨_, e, by rw [State.modLane_lane, if_pos rfl], fun k hk => by rw [State.modLane_lane, if_neg hk],
      s.modPort_onlyPort i _, s.modLane_sameButPorts i l f⟩
  have ends {P : State → Prop} {t : State} {noting back : Bool} (e : exec (.burstGuardWindow i errors) s = .next t)
      (only : OnlyPort s t i) (lanes : ∀ k, k < 12 → (t.port i).lane k = (x.lane k).guarded noting back (errors.getD k 0))
      (is : P t) : window P :=
    ⟨t, e, is, only, (execBurstGuardWindow_sameButPortsRes i errors s).of_next e, fun k hk => by
      rw [lanes k hk]
      exact Lane.guarded_held ..⟩
  have backs {t : State} {noting : Bool}
      (lanes : ∀ k, k < 12 → (t.port i).lane k = (x.lane k).guarded noting true (errors.getD k 0)) : restored t := fun k hk => by
    rw [lanes k hk]
    exact Lane.guarded_restored ..
  have stays {t : State} {noting : Bool}
      (lanes : ∀ k, k < 12 → (t.port i).lane k = (x.lane k).guarded noting false (errors.getD k 0)) : kept t := fun k hk => by
    rw [lanes k hk]
    exact Lane.guarded_kept ..
  have notes {t : State} {back : Bool}
      (lanes : ∀ k, k < 12 → (t.port i).lane k = (x.lane k).guarded true back (errors.getD k 0)) : noted t := fun k hk => by
    rw [lanes k hk]
    exact Lane.guarded_noted ..
  refine ⟨uncWindow_spec s i, fun works => ?moves, fun still y => ?still, fun up runs => ⟨fun steps unlimited => ?freezes, fun calm => ?notes⟩,
    fun up frozen => ?frozen, fun down => congrArg Host.Outcome.next (if_pos down), fun frozen => congrArg Host.Outcome.next (if_pos frozen),
    fun runs => congrArg Host.Outcome.next (if_neg (by simp [x, runs] )), rfl⟩
  case moves =>
    exact ⟨moved (congrArg Host.Outcome.next (if_neg fun h => rests.mp h works)),
      moved (congrArg Host.Outcome.next (if_neg fun h => rests.mp h works)),
      moved (congrArg Host.Outcome.next (if_neg fun h => rests.mp h works))⟩
  case still => exact congrArg Host.Outcome.next (if_pos (rests.mpr still))
  case freezes =>
    obtain ⟨frozen, anew, counts, only, lanes⟩ := (s.guarding_lanesGo i true true errors).freeze
    exact ends (exec_burstGuardWindow_freezes up runs unlimited steps) only lanes ⟨frozen, anew, counts, backs lanes, notes lanes⟩
  case notes =>
    have went := s.guarding_lanesGo i true false errors
    obtain ⟨_, port⟩ := went.port
    exact ends (exec_burstGuardWindow_notes up runs calm) went.only went.lane
      ⟨by rw [port]; exact runs, by rw [port], stays went.lane, notes went.lane⟩
  case frozen =>
    let u := s.modPort i (fun y => { y with frozenFor := y.frozenFor + 1 })
    have went := u.guarding_lanesGo i false step errors
    obtain ⟨_, port⟩ := went.port
    have counted : u.port i = { x with frozenFor := x.frozenFor + 1 } := State.modPort_self ..
    have lanes (k : Nat) (hk : k < 12) : ((u.guarding i false step errors).port i).lane k =
        (x.lane k).guarded false step (errors.getD k 0) := by
      rw [went.lane k hk, counted]
      rfl
    have e : exec (.burstGuardWindow i errors) s = .next (u.guarding i false step errors) := exec_burstGuardWindow_frozen up frozen
    have still : ((u.guarding i false step errors).port i).frozen = true ∧
        ((u.guarding i false step errors).port i).frozenFor = x.frozenFor + 1 := by
      rw [port, counted]
      exact ⟨frozen, rfl⟩
    refine ends e ((s.modPort_onlyPort i _).trans went.only) lanes ⟨still.1, still.2, fun steps => ?_, fun calm => ?_⟩
    · exact backs (noting := false) fun k hk => by rw [lanes k hk, steps]
    · exact stays (noting := false) fun k hk => by rw [lanes k hk, calm]

end Sys2Proof.Machine
end

section
/-!
PROOF. Optical engines and the laser interlock (08 R223 to R227 and Table 08-6; 15 R405; 18 R471). Settles O28.
-/
namespace Sys2Proof.Machine

/-! ### An engine moves (Table 08-6) -/

theorem State.optMove_goes {s : State} {p : Nat} {a b : OptState} (engine : s.optical p = true) (from_ : (s.port p).opt = a) :
    s.optMove p a b = s.modPort p (fun y => { y with opt := b }) := if_pos ⟨engine, from_⟩

theorem State.optMove_stays {s : State} {p : Nat} {a b : OptState} (h : s.optical p = false ∨ (s.port p).opt ≠ a) :
    s.optMove p a b = s := by
  refine if_neg ?_
  rintro ⟨engine, from_⟩
  obtain h | h := h
  · simp [engine] at h
  · exact h from_

/-- Nothing holds an engine in OFF (R225, R226, R471). -/
theorem State.engineHeld_iff (s : State) (i : Fin 16) :
    (s.islandLine i = true ∨ s.pins.optInhibit = true ∨ (s.port i).optHot = true ∨ s.flag R.prtCtl 1 i = true) ↔
      ¬(s.islandLine i = false ∧ s.pins.optInhibit = false ∧ (s.port i).optHot = false ∧ s.flag R.prtCtl 1 i = false) := by
  cases s.islandLine i <;> cases s.pins.optInhibit <;> cases (s.port i).optHot <;> cases s.flag R.prtCtl 1 i <;> decide

theorem exec_offTimeout_free {s : State} {i : Fin 16} (free : s.islandLine i = false ∧ s.pins.optInhibit = false ∧
    (s.port i).optHot = false ∧ s.flag R.prtCtl 1 i = false) : exec (.offTimeout i) s = .next (s.optMove i .off .beacon) :=
  congrArg Host.Outcome.next (if_neg fun h => (s.engineHeld_iff i).mp h free)

theorem exec_offTimeout_held {s : State} {i : Fin 16} (held : ¬(s.islandLine i = false ∧ s.pins.optInhibit = false ∧
    (s.port i).optHot = false ∧ s.flag R.prtCtl 1 i = false)) : exec (.offTimeout i) s = .next s :=
  congrArg Host.Outcome.next (if_pos ((s.engineHeld_iff i).mpr held))

/-- LIGHT_FULL_REACHED of an engine in RAISE: in FULL a port in DETECT sends its training frames (R216, R224). -/
theorem lightFullReached_spec {s : State} {i : Fin 16} (engine : s.optical i = true) (raise : (s.port i).opt = .raise) :
    Gives (.lightFullReached i) s (fun t => t.port i = { s.port i with opt := .full } ∧ OnlyPort s t i ∧ SameButPorts s t ∧
      t.out = s.out ++ (if (s.port i).state = .detect then
        (List.range 12).map (fun l => Out.training i l (s.trainingWord i l)) else [])) := by
  let u := s.modPort i (fun y => { y with opt := .full })
  have port : u.port i = { s.port i with opt := .full } := State.modPort_self ..
  have lit : u.lit i = true := by simp [State.lit, port]
  have words (l : Nat) : u.trainingWord i l = s.trainingWord i l := by
    rw [State.trainingWord, port]
    rfl
  have moves : s.optMove i .raise .full = u := State.optMove_goes engine raise
  have same := execLightFullReached_sameButPortsRes i s
  by_cases detect : (s.port i).state = .detect
  · have e : exec (.lightFullReached i) s = .next { u with
        out := u.out ++ (List.range 12).map (fun l => .training i l (u.trainingWord i l)) } := by
      change execLightFullReached i s = _
      rw [execLightFullReached, moves, if_pos ⟨detect, raise⟩, State.eachTraining_lit _ lit]
    refine ⟨_, e, port, s.modPort_onlyPort i (fun y => { y with opt := .full }), same.of_next e, ?_⟩
    rw [if_pos detect]
    simp only [words]
    rfl
  · have e : exec (.lightFullReached i) s = .next u := by
      change execLightFullReached i s = _
      rw [execLightFullReached, moves, if_neg fun h => detect h.1]
    refine ⟨_, e, port, s.modPort_onlyPort i _, same.of_next e, ?_⟩
    rw [if_neg detect]
    exact (List.append_nil s.out).symm

theorem exec_lightFullReached_stays {s : State} {i : Fin 16}
    (h : (s.port i).opt ≠ .raise ∨ (s.optical i = false ∧ (s.port i).state ≠ .detect)) : exec (.lightFullReached i) s = .next s := by
  change execLightFullReached i s = _
  rw [execLightFullReached, if_neg, State.optMove_stays]
  · exact h.symm.imp (fun h => h.1) id
  · rintro ⟨detect, raise⟩
    obtain h | ⟨-, h⟩ := h
    · exact h raise
    · exact h detect

/-! ### An engine goes OFF (R227) -/

theorem State.optOff_off {s : State} {p : Nat} (off : (s.port p).opt = .off) : s.optOff p = s := if_pos off

theorem State.optOff_trips {s : State} {p : Nat} (on : (s.port p).opt ≠ .off) :
    s.optOff p = ((s.modPort p (fun x => { x with opt := .off })).cnt R.prtOptTrip p).event .prt p 3 := if_neg on

theorem State.optOff_port (s : State) (p q : Nat) :
    (s.optOff p).port q = if q = p then { s.port p with opt := .off } else s.port q := by
  by_cases off : (s.port p).opt = .off
  · rw [State.optOff_off off]
    split
    · rename_i e
      rw [e, ← off]
    · rfl
  · rw [State.optOff_trips off, State.port, State.event_ports, State.cnt_ports]
    exact State.modPort_port ..

theorem State.optOff_self (s : State) (p : Nat) : (s.optOff p).port p = { s.port p with opt := .off } := by
  rw [State.optOff_port, if_pos rfl]

theorem State.optOff_onlyPort (s : State) (p : Nat) : OnlyPort s (s.optOff p) p := fun q hq => by
  rw [State.optOff_port, if_neg hq]

/-- What an engine's trip does not change, beside ports, registers and messages to the host. -/
theorem State.optOff_keeps {β : Type} (π : State → β) (port : ∀ t p f, π (State.modPort t p f) = π t)
    (cnt : ∀ t r i, π (State.cnt t r i) = π t) (event : ∀ t p i n, π (State.event t p i n) = π t) (s : State) (p : Nat) :
    π (s.optOff p) = π s := by
  unfold State.optOff
  split
  · rfl
  · rw [event, cnt, port]

@[simp] theorem State.optOff_island (s : State) (p : Nat) : (s.optOff p).island = s.island :=
  State.optOff_keeps State.island (by simp) (by simp) (by simp) s p

@[simp] theorem State.optOff_pins (s : State) (p : Nat) : (s.optOff p).pins = s.pins :=
  State.optOff_keeps State.pins (by simp) (by simp) (by simp) s p

theorem lightAnyLoss_spec {s : State} {i : Fin 16} (on : (s.port i).opt ≠ .off) : Gives (.lightAnyLoss i) s (fun t =>
    t.port i = { s.port i with opt := .off } ∧ Counts s t R.prtOptTrip i 1 ∧ Signals t .prt i 3 ∧ OnlyPort s t i ∧
      SameButPorts s t) := by
  refine ⟨_, rfl, s.optOff_self i, ?_, ?_, s.optOff_onlyPort i, s.optOff_sameButPorts i⟩
  · rw [State.optOff_trips on]
    intro unfrozen
    exact ((State.event_sameAbove _ .prt i 3).rawAt .prt i 0 (off := 0xEC) (by decide) (by decide)).trans
      ((s.modPort i (fun x => { x with opt := .off })).cnt_counts R.prtOptTrip i 1 unfrozen)
  · rw [State.optOff_trips on]
    exact State.event_signals _ _ _ (by decide)

/-! ### The laser-disable lines (R225, R405) -/

theorem State.islandLine_iff {s : State} {p : Nat} (engine : s.optical p = true) :
    s.islandLine p = true ↔ ∃ r, (p, r) ∈ s.island.lines := by
  simp [State.islandLine, engine]

theorem State.lineOn_ports (s : State) (p r q : Nat) :
    (s.lineOn p r).port q = if q = p then { s.port p with opt := .off } else s.port q := by
  rw [State.lineOn, State.optOff_port]
  simp only [State.port, State.modIsland_ports]

theorem State.lineOn_island (s : State) (p r : Nat) : (s.lineOn p r).island = { s.island with
    lines := if s.island.lines.contains (p, r) || !s.optical p then s.island.lines else s.island.lines ++ [(p, r)] } := by
  rw [State.lineOn, State.optOff_island, State.modIsland_island]

theorem State.lineOn_mem {s : State} {p : Nat} (engine : s.optical p = true) (r : Nat) : (p, r) ∈ (s.lineOn p r).island.lines := by
  rw [State.lineOn_island]
  simp only [engine, Bool.not_true, Bool.or_false, List.contains_iff_mem]
  split
  · assumption
  · simp

theorem State.lineOff_island (s : State) (p r : Nat) : (s.lineOff p r).island = { s.island with
    lines := if s.optical p then s.island.lines.filter (fun x => x != (p, r)) else s.island.lines } := by
  rw [State.lineOff, State.modIsland_island]

theorem State.lineOff_ports (s : State) (p r : Nat) : (s.lineOff p r).ports = s.ports := by
  rw [State.lineOff, State.modIsland_ports]

/-! ### Fault records (R408) -/

theorem State.record_again {s : State} {code unit : Nat} (h : tripKey code unit ∈ s.island.tripped) (actions detail : Nat) :
    s.record code actions detail unit = s := if_pos (by simpa using h)

theorem State.record_anew {s : State} {code unit : Nat} (h : tripKey code unit ∉ s.island.tripped) (actions detail : Nat) :
    s.record code actions detail unit =
      (((s.modIsland (fun i =>
        let l := i.records ++ [⟨i.recHead, code, actions, s.time.sec % 2 ^ 32, detail % 2 ^ 32, unit % 65536⟩]
        { i with
          records := l.drop (l.length - 64), recHead := (i.recHead + 1) % 65536, alert := true,
          tripped := i.tripped ++ [tripKey code unit] })).event .saf 0 1).violate .saf 0 ⟨code, 15, 0, 1, unit⟩) :=
  if_neg (by simpa using h)

/-- The last of the records kept is the newest. -/
theorem getLast?_drop_append {α : Type} (l : List α) (a : α) :
    ((l ++ [a]).drop ((l ++ [a]).length - 64)).getLast? = some a := by
  rw [List.getLast?_drop, if_neg (by simp)]
  simp

theorem State.record_keeps {β : Type} (π : State → β) (island : ∀ t f, π (State.modIsland t f) = π t)
    (event : ∀ t p i n, π (State.event t p i n) = π t) (violate : ∀ t p i v, π (State.violate t p i v) = π t)
    (s : State) (code actions detail unit : Nat) : π (s.record code actions detail unit) = π s := by
  by_cases h : tripKey code unit ∈ s.island.tripped
  · rw [State.record_again h]
  · rw [State.record_anew h, violate, event, island]

@[simp] theorem State.record_ports (s : State) (code actions detail unit : Nat) :
    (s.record code actions detail unit).ports = s.ports :=
  State.record_keeps State.ports (by simp) (by simp) (by simp) ..

@[simp] theorem State.record_pins (s : State) (code actions detail unit : Nat) :
    (s.record code actions detail unit).pins = s.pins :=
  State.record_keeps State.pins (by simp) (by simp) (by simp) ..

/-- A trip writes one record, with the alert, until its monitor clears. -/
theorem State.record_writes {s : State} {code unit : Nat} (h : tripKey code unit ∉ s.island.tripped) (actions detail : Nat) :
    (s.record code actions detail unit).island.alert = true ∧
      ((s.record code actions detail unit).island.records.getLast?.map (fun z => (z.code, z.actions, z.unit))) =
        some (code, actions, unit % 65536) := by
  rw [State.record_anew h]
  simp only [State.violate_island, State.event_island, State.modIsland_island, getLast?_drop_append]
  exact ⟨trivial, rfl⟩

/-- The island drives a port's line for a reason, with a record of code `n`. -/
theorem line_spec {s : State} {i : Fin 16} {c : Instr} {n r : Nat} (engine : s.optical i = true)
    (e : exec c s = .next ((s.record n actLine 0 i).lineOn i r)) : Gives c s (fun t => t.islandLine i = true ∧ (t.port i).opt = .off ∧
      (i.val, r) ∈ t.island.lines ∧ (tripKey n i ∉ s.island.tripped → t.island.alert = true ∧
        (t.island.records.getLast?.map (fun z => (z.code, z.actions, z.unit))) = some (n, 2, i.val)) ∧ OnlyPort s t i ∧
          SameButPorts s t) := by
  let u := s.record n actLine 0 i
  have mem : (i.val, r) ∈ (u.lineOn i r).island.lines := State.lineOn_mem (s := u) engine r
  have ports (q : Nat) : u.port q = s.port q := by rw [State.port, State.record_ports]; rfl
  refine ⟨_, e, (State.islandLine_iff (s := u.lineOn i r) engine).mpr ⟨r, mem⟩, ?_, mem, fun first => ?_, fun q hq => ?_,
    (s.record_sameButPorts n actLine 0 i).trans (u.lineOn_sameButPorts i r)⟩
  · rw [State.lineOn_ports, if_pos rfl]
  · obtain ⟨alert, newest⟩ := State.record_writes first actLine 0
    rw [State.lineOn_island]
    refine ⟨alert, newest.trans ?_⟩
    rw [Nat.mod_eq_of_lt (by omega)]
    rfl
  · rw [State.lineOn_ports, if_neg hq]
    exact ports q

/-! ### The release of a line (R225, R405) -/

/-- The line held for light or for launch power is released. -/
def State.laserReleased (s : State) (p : Nat) : State :=
  ((s.lineOff p 1).lineOff p 3).modIsland (fun i => { i with
    tripped := dropAll (dropAll i.tripped (tripKey 0x6B p)) (tripKey 0x6A p) })

theorem State.laserReleased_ports (s : State) (p : Nat) : (s.laserReleased p).ports = s.ports := by
  rw [State.laserReleased, State.modIsland_ports, State.lineOff_ports, State.lineOff_ports]

theorem State.laserReleased_lines (s : State) (p : Nat) : (s.laserReleased p).island.lines = if s.optical p then
    (s.island.lines.filter (fun x => x != (p, 1))).filter (fun x => x != (p, 3)) else s.island.lines := by
  rw [State.laserReleased, State.modIsland_island]
  change ((s.lineOff p 1).lineOff p 3).island.lines = _
  rw [State.lineOff_island, State.lineOff_island]
  change (if s.optical p then (if s.optical p then s.island.lines.filter (fun x => x != (p, 1)) else s.island.lines).filter
    (fun x => x != (p, 3)) else if s.optical p then s.island.lines.filter (fun x => x != (p, 1)) else s.island.lines) = _
  cases s.optical p <;> rfl

theorem laserDisableRelease_engine {s : State} {i : Fin 16} (engine : s.optical i = true) :
    Gives (.laserDisableRelease i) s (fun t =>
      (∀ z, z ∈ t.island.lines ↔ z ∈ s.island.lines ∧ z ≠ (i.val, 1) ∧ z ≠ (i.val, 3)) ∧
      (t.islandLine i = true ↔ ∃ r, (i.val, r) ∈ t.island.lines) ∧ t.ports = s.ports ∧ SameButPorts s t) := by
  refine ⟨s.laserReleased i, rfl, fun z => ?_, State.islandLine_iff (s := s.laserReleased i) engine, s.laserReleased_ports i,
    (execLaserDisableRelease_sameButPortsRes i s).of_next rfl⟩
  rw [State.laserReleased_lines, if_pos engine]
  simp only [List.mem_filter, bne_iff_ne, and_assoc]

/-! ### OPT_INHIBIT_N (R225) -/

theorem State.eachOff_port (ps : List Nat) (s : State) {p : Nat} (h : p ∈ ps ∨ (s.port p).opt = .off) :
    ((s.each ps State.optOff).port p).opt = .off := by
  induction ps generalizing s with
  | nil => exact h.resolve_left List.not_mem_nil
  | cons a ps ih =>
    refine ih (s.optOff a) ?_
    rw [State.optOff_port]
    by_cases e : p = a
    · exact .inr (by rw [if_pos e])
    · rw [if_neg e]
      exact h.imp (fun h => (List.mem_cons.mp h).resolve_left e) id

theorem optInhibitN_low (s : State) : Gives (.optInhibitN true) s (fun t =>
    t.pins.optInhibit = true ∧ (∀ p, 4 ≤ p → p < 12 → (t.port p).opt = .off) ∧ SameButPorts s t) := by
  let u : State := ({ s with pins := { s.pins with optInhibit := true } }).record 0x6C actLine 0 0
  have e : exec (.optInhibitN true) s = .next (u.each optPorts State.optOff) := rfl
  refine ⟨_, e, ?_, fun p from_ below => State.eachOff_port optPorts u (.inl ?_),
    (execOptInhibitN_sameButPortsRes true s).of_next e⟩
  · rw [State.each_keeps State.pins State.optOff_pins, State.record_pins]
  · simp only [optPorts, List.mem_cons, List.not_mem_nil]
    omega

theorem optInhibitN_high (s : State) : Gives (.optInhibitN false) s (fun t =>
    t.pins.optInhibit = false ∧ t.ports = s.ports ∧ SameButPorts s t) :=
  ⟨({ s with pins := { s.pins with optInhibit := false } } : State).cleared 0x6C, rfl,
    congrArg Pins.optInhibit (State.modIsland_pins ..), State.modIsland_ports ..,
    (execOptInhibitN_sameButPortsRes false s).of_next rfl⟩

theorem exec_lightAnyLoss_off {s : State} {i : Fin 16} (off : (s.port i).opt = .off) : exec (.lightAnyLoss i) s = .next s :=
  congrArg Host.Outcome.next (State.optOff_off off)

theorem exec_islandLightCheck_dark {s : State} {i : Fin 16}
    (h : ¬(s.optical i = true ∧ ((s.port i).opt = .full ∨ (s.port i).opt = .raise))) : exec (.islandLightCheck i) s = .next s :=
  congrArg Host.Outcome.next (if_neg h)

/-- A port without an engine has no line, light or case to watch (Table 00-2). -/
theorem engineless {s : State} {i : Fin 16} (none : s.optical i = false) :
    exec (.islandLightCheck i) s = .next s ∧ exec (.launchPowerTrip i) s = .next s ∧
      exec (.engineCaseOverheat i) s = .next s ∧
      Gives (.laserDisableRelease i) s (fun t => t.island.lines = s.island.lines ∧ t.ports = s.ports ∧ SameButPorts s t) := by
  have not : ¬s.optical i = true := by simp [none]
  refine ⟨exec_islandLightCheck_dark fun h => not h.1, congrArg Host.Outcome.next (if_neg not),
    congrArg Host.Outcome.next (if_neg not), s.laserReleased i, rfl, ?_, s.laserReleased_ports i,
    (execLaserDisableRelease_sameButPortsRes i s).of_next rfl⟩
  rw [State.laserReleased_lines, if_neg not]

theorem engineCaseOverheat_engine {s : State} {i : Fin 16} (engine : s.optical i = true) :
    Gives (.engineCaseOverheat i) s (fun t => t.port i = { s.port i with optHot := true, opt := .off } ∧ OnlyPort s t i ∧
      SameButPorts s t) := by
  let u := s.modPort i (fun y => { y with optHot := true })
  refine ⟨u.optOff i, congrArg Host.Outcome.next (if_pos engine), ?_,
    (s.modPort_onlyPort i (fun y => { y with optHot := true })).trans (u.optOff_onlyPort i),
    (s.modPort_sameButPorts i _).trans (u.optOff_sameButPorts i)⟩
  rw [State.optOff_self, State.modPort_self]

/-- Settles O28: each command is a move of the engine, a trip, or a change of the island's lines. -/
theorem opticalInterlock : Obligations.OpticalInterlock := by
  unfold Obligations.OpticalInterlock
  intro s i x free goes line
  have moves {c : Instr} {a b : OptState} (e : exec c s = .next (s.optMove i a b)) : goes c a b :=
    ⟨fun engine from_ => e.trans (by rw [State.optMove_goes engine from_]), fun h => e.trans (by rw [State.optMove_stays h])⟩
  clear_value goes
  have offTimeout : free → goes (.offTimeout i) .off .beacon := fun f => moves (exec_offTimeout_free f)
  have beacon : goes (.beaconQualified i) .beacon .raise := moves rfl
  have raise : goes (.raiseTimeout i) .raise .beacon := moves rfl
  have full : goes (.lightFullLoss i) .full .beacon := moves rfl
  have lines : s.optical i = true →
      (x.opt = .full ∨ x.opt = .raise → line (.islandLightCheck i) 0x6B 1) ∧ line (.launchPowerTrip i) 0x6A 3 := fun engine =>
    ⟨fun lit => line_spec engine (congrArg Host.Outcome.next (if_pos ⟨engine, lit⟩)),
      line_spec engine (congrArg Host.Outcome.next (if_pos engine))⟩
  exact ⟨offTimeout, exec_offTimeout_held, beacon, raise, full, lightFullReached_spec, exec_lightFullReached_stays,
    lightAnyLoss_spec, exec_lightAnyLoss_off,
    fun engine => ⟨(lines engine).1, (lines engine).2, engineCaseOverheat_engine engine, laserDisableRelease_engine engine⟩,
    fun full raise => exec_islandLightCheck_dark fun h => h.2.elim full raise, engineless, rfl, optInhibitN_low s,
    optInhibitN_high s⟩

end Sys2Proof.Machine
end

section
/-!
PROOF. Training frames in DETECT and TRAIN (08 R216 to R218, R224, R233 and Table 08-3). Settles O26.
-/
namespace Sys2Proof.Machine

/-! ### A lane in TRAIN (R217) -/

/-- The responder's answer leaves this end's own request. -/
theorem Lane.respond_request (l : Lane) (request tap : Nat) :
    (l.respond request tap).request = l.request ∧ (l.respond request tap).tap = l.tap := by
  unfold Lane.respond
  dsimp only
  split_ifs <;> exact ⟨rfl, rfl⟩

/-- The requester's next request leaves what this end answers. -/
theorem Lane.ask_taps (l : Lane) (status want : Nat) :
    (l.ask status want).taps = l.taps ∧ (l.ask status want).status = l.status := by
  unfold Lane.ask
  split_ifs <;> exact ⟨rfl, rfl⟩

/-- A request that waits is held until the partner's status leaves 0. -/
theorem Lane.ask_waiting {l : Lane} (waits : l.request ≠ 0) (status want : Nat) :
    ((l.ask status want).request, (l.ask status want).tap) = if status = 0 then (l.request, l.tap) else (0, 0) := by
  rw [Lane.ask, if_pos waits]
  split <;> rfl

/-- A new request waits for the partner's status to be back at 0. -/
theorem Lane.ask_idle {l : Lane} (idle : l.request = 0) {status : Nat} (answered : status ≠ 0) (want : Nat) :
    (l.ask status want).request = 0 := by
  rw [Lane.ask, if_neg (not_not_intro idle), if_neg answered, idle]

theorem Lane.train_eq (l : Lane) (cw : BitVec 64) (want : Nat) (trained : Bool) : l.train cw want trained =
    { (l.respond (bits cw.toNat 21 19) (bits cw.toNat 24 22)).ask (bits cw.toNat 27 25) want with
      ready := if bit cw.toNat 28 then l.ready + 1 else 0, trained := trained, ours := if trained then l.ours + 1 else 0 } := rfl

theorem Port.allLanes_iff (x : Port) (f : Lane → Bool) : x.allLanes f = true ↔ ∀ k, k < 12 → f (x.lane k) = true := by
  simp [Port.allLanes]

/-! ### A frame in TRAIN -/

section
variable {u : State} {i : Fin 16} {l : Fin 12} {cw : BitVec 64}

/-- The lane as a frame in TRAIN leaves it. -/
def State.trainedLane (u : State) (i : Fin 16) (l : Fin 12) (cw : BitVec 64) : Lane :=
  ((u.port i).lane l).train cw (Config.ffeWant u.freeCtr) (Config.rxTrained u.freeCtr)

/-- A lit port in TRAIN answers on the lane, which alone has moved on, and begins ALIGN where all are ready. -/
theorem State.trainFrame_goes (lit : u.lit i = true) (train : (u.port i).state = .train) : let t := u.trainFrame i l cw
    (∀ k, (t.port i).lane k = if k = l then u.trainedLane i l cw else (u.port i).lane k) ∧
      ((t.port i).state = .align ↔ ∀ k, k < 12 → 16 ≤ ((t.port i).lane k).ready ∧ 16 ≤ ((t.port i).lane k).ours) ∧
      OnlyPort u t i ∧ t.out = u.out ++ [.training i l (cwMake l i u.self (u.trainedLane i l cw).request
        (u.trainedLane i l cw).tap (u.trainedLane i l cw).status (u.trainedLane i l cw).trained (u.flag R.prtCtl 2 i))] := by
  intro t
  let v := u.modLane i l (fun y => y.train cw (Config.ffeWant u.freeCtr) (Config.rxTrained u.freeCtr))
  let w := (v.send (.training i l (v.trainingWord i l))).draw
  have port : v.port i = { u.port i with lanes := mput (u.port i).lanes l (u.trainedLane i l cw) } := u.modPort_self _ _
  have lane (k : Nat) : (v.port i).lane k = if k = l then u.trainedLane i l cw else (u.port i).lane k := u.modLane_lane ..
  have only : OnlyPort u v i := u.modPort_onlyPort _ _
  have litNow : v.lit i = true := by simpa [State.lit, State.optical, port] using lit
  have word : v.trainingWord i l = cwMake l i u.self (u.trainedLane i l cw).request (u.trainedLane i l cw).tap
      (u.trainedLane i l cw).status (u.trainedLane i l cw).trained (u.flag R.prtCtl 2 i) := by
    rw [State.trainingWord, lane, if_pos rfl]
    rfl
  have out : w.out = u.out ++ [.training i l (v.trainingWord i l)] := rfl
  have begins : t = if (v.port i).allLanes (fun l => decide (16 ≤ l.ready) && decide (16 ≤ l.ours)) then w.portState i .align
      else w := by
    change (if (((v.sendTraining i l).draw).port i).allLanes _ then ((v.sendTraining i l).draw).portState i .align
      else (v.sendTraining i l).draw) = _
    rw [State.sendTraining_lit litNow]
    rfl
  have state : (v.port i).state = .train := by rw [port]; exact train
  have all : (v.port i).allLanes (fun l => decide (16 ≤ l.ready) && decide (16 ≤ l.ours)) = true ↔
      ∀ k, k < 12 → 16 ≤ ((v.port i).lane k).ready ∧ 16 ≤ ((v.port i).lane k).ours := by simp [Port.allLanes_iff]
  rw [begins, ← word]
  by_cases ready : (v.port i).allLanes (fun l => decide (16 ≤ l.ready) && decide (16 ≤ l.ours)) = true
  · have silent : w.portState i .align = w.modPort i (fun y => { y with state := .align }) :=
      State.portState_silent (ne_of_eq_of_ne state (by decide)) (by decide)
    have aligned : (w.portState i .align).port i = { v.port i with state := .align } := State.portState_port ..
    rw [if_pos ready, aligned]
    exact ⟨lane, iff_of_true rfl (all.mp ready), only.trans (w.portState_onlyPort i .align), by rw [silent]; exact out⟩
  · rw [if_neg ready]
    exact ⟨lane, iff_of_false (ne_of_eq_of_ne state (by decide)) (mt all.mpr ready), only, out⟩

/-! ### A frame in DETECT (R216, R218) -/

theorem State.wiredWrong_iff (s : State) (p dev : Nat) : s.wiredWrong p dev = true ↔
    s.image.loaded = true ∧ dev ≠ 0x7FF ∧ ∃ n, (s.port p).expected = some n ∧ dev ≠ n := by
  cases expected : (s.port p).expected <;> simp [State.wiredWrong, expected, and_assoc]

/-- A port that has heard its partner on a lane. -/
def Port.heard (x : Port) (partner : Nat × Nat) (l : Nat) : Port :=
  { x with partner := some partner, signal := x.signal ||| 2 ^ l, lanes := mput x.lanes l { x.lane l with seen := true } }

theorem Port.heard_lane (x : Port) (partner : Nat × Nat) (l k : Nat) :
    (x.heard partner l).lane k = if k = l then { x.lane l with seen := true } else x.lane k := by
  simp only [Port.heard, Port.lane, mget_mput]

/-- The state as a frame in DETECT has named the partner. -/
def State.heardOn (u : State) (p l : Nat) (partner : Nat × Nat) : State :=
  (u.modPort p (fun y => { y with partner := some partner, signal := y.signal ||| 2 ^ l })).modLane p l
    (fun l => { l with seen := true })

theorem State.heardOn_port (u : State) (p l : Nat) (partner : Nat × Nat) :
    (u.heardOn p l partner).port p = (u.port p).heard partner l := by
  rw [State.heardOn, State.modLane, State.modPort_self, State.modPort_self]
  rfl

theorem State.heardOn_onlyPort (u : State) (p l : Nat) (partner : Nat × Nat) : OnlyPort u (u.heardOn p l partner) p :=
  (u.modPort_onlyPort p _).trans (State.modPort_onlyPort _ p _)

/-- The partner that a training word names. -/
def partnerOf (cw : BitVec 64) : Nat × Nat := (bits cw.toNat 18 8, bits cw.toNat 7 4)

/-- A frame from a device that the routing table does not name is a wiring error. -/
theorem State.detectFrame_wrong (wrong : u.wiredWrong i (bits cw.toNat 18 8) = true) : let t := u.detectFrame i l cw
    (t.port i).partner = some (partnerOf cw) ∧ ((t.port i).lane l).seen = true ∧ OnlyPort u t i ∧
      (t.port i).state = .backoff ∧ (t.port i).failReason = 4 ∧ Counts u t R.prtWireErr i 1 := by
  intro t
  let v := u.heardOn i l (partnerOf cw)
  have begins : t = (v.cnt R.prtWireErr i).backoff i 4 := if_pos (by simpa only [State.wiredWrong, State.heardOn_port] using wrong)
  have port : t.port i = { (u.port i).heard (partnerOf cw) l with
      backoffN := (u.port i).backoffN + 1, failReason := 4, fecLock := false, state := .backoff } := by
    rw [begins, State.backoff_port]
    simp only [State.port, State.cnt_ports]
    rw [← State.port, u.heardOn_port]
    rfl
  have seen : ((t.port i).lane l).seen = true := by
    rw [port]
    exact congrArg Lane.seen (((u.port i).heard_lane (partnerOf cw) l l).trans (if_pos rfl))
  refine ⟨by rw [port]; rfl, seen, ?_, by rw [port], by rw [port], fun unfrozen => ?_⟩
  · rw [begins]
    have counted : OnlyPort v (v.cnt R.prtWireErr i) i := fun q _ => by simp only [State.port, State.cnt_ports]
    exact (u.heardOn_onlyPort i l (partnerOf cw)).trans (counted.trans (State.backoff_onlyPort _ i 4))
  · rw [begins]
    exact (State.portState_rd _ i .backoff (by decide) (by decide) i).trans (v.cnt_counts R.prtWireErr i 1 unfrozen)

/-- Any other frame is answered on its lane, and with every lane seen TRAIN begins. -/
theorem State.detectFrame_goes (lit : u.lit i = true) (detect : (u.port i).state = .detect)
    (right : u.wiredWrong i (bits cw.toNat 18 8) = false) : let t := u.detectFrame i l cw
    let m := (u.port i).lane l
    (t.port i).partner = some (partnerOf cw) ∧ ((t.port i).lane l).seen = true ∧ OnlyPort u t i ∧
      t.out = u.out ++ [.training i l (cwMake l i u.self m.request m.tap m.status m.trained (u.flag R.prtCtl 2 i))] ∧
      ((t.port i).state = .train ↔ ∀ k, k < 12 → k ≠ l.val → ((u.port i).lane k).seen = true) := by
  intro t m
  let v := u.heardOn i l (partnerOf cw)
  let w := v.send (.training i l (v.trainingWord i l))
  have port : v.port i = (u.port i).heard (partnerOf cw) l := u.heardOn_port ..
  have lane : (v.port i).lane l = { m with seen := true } := by rw [port, Port.heard_lane, if_pos rfl]
  have only : OnlyPort u v i := u.heardOn_onlyPort i l (partnerOf cw)
  have litNow : v.lit i = true := by simpa [State.lit, State.optical, port, Port.heard] using lit
  have word : v.trainingWord i l = cwMake l i u.self m.request m.tap m.status m.trained (u.flag R.prtCtl 2 i) := by
    rw [State.trainingWord, lane]
    rfl
  have out : w.out = u.out ++ [.training i l (v.trainingWord i l)] := rfl
  have begins : t = if (v.port i).allLanes (fun l => l.seen) ∧ v.lit i then w.portState i .train else w := by
    have t_eq : t = (v.sendTraining i l).detected i :=
      if_neg (by simpa only [State.wiredWrong, State.heardOn_port, Bool.not_eq_true] using right)
    rw [t_eq, State.sendTraining_lit litNow]
    rfl
  have all : (v.port i).allLanes (fun l => l.seen) = true ↔ ∀ k, k < 12 → k ≠ l.val → ((u.port i).lane k).seen = true := by
    rw [Port.allLanes_iff, port]
    refine forall₂_congr fun k _ => ?_
    rw [Port.heard_lane]
    split <;> simp [*]
  have state : (v.port i).state = .detect := by rw [port]; exact detect
  have partner : (v.port i).partner = some (partnerOf cw) := by rw [port]; rfl
  have seen : ((v.port i).lane l).seen = true := by rw [lane]
  rw [begins, ← word, ← all]
  by_cases every : (v.port i).allLanes (fun l => l.seen) = true
  · have silent : w.portState i .train = w.modPort i (fun y => { y with state := .train }) :=
      State.portState_silent (ne_of_eq_of_ne state (by decide)) (by decide)
    have trains : (w.portState i .train).port i = { v.port i with state := .train } := State.portState_port ..
    rw [if_pos ⟨every, litNow⟩, trains]
    exact ⟨partner, seen, only.trans (w.portState_onlyPort i .train), by rw [silent]; exact out, iff_of_true rfl every⟩
  · rw [if_neg fun h => every h.1]
    exact ⟨partner, seen, only, out, iff_of_false (ne_of_eq_of_ne state (by decide)) every⟩

end

/-! ### TRAINING_FRAME -/

/-- The remote loopback of a port in test sends a frame's word back. -/
def State.echoed (s : State) (i : Fin 16) (l : Fin 12) (cw : BitVec 64) : State :=
  s.when (s.remoteLoop i) (fun t => t.send (.training i l cw))

theorem State.echoed_rest (s : State) (i : Fin 16) (l : Fin 12) (cw : BitVec 64) :
    s.echoed i l cw = { s with out := (s.echoed i l cw).out } := by
  unfold State.echoed State.when
  split <;> rfl

section
variable {s : State} {i : Fin 16} {l : Fin 12} {cw : BitVec 64}

theorem exec_trainingFrame_deaf (deaf : s.hears i = false) : exec (.trainingFrame i l cw) s = .next s :=
  congrArg Host.Outcome.next (if_pos (by simp [deaf]))

theorem exec_trainingFrame (hears : s.hears i = true) : exec (.trainingFrame i l cw) s = .next
    (match (s.port i).state with
      | .quiet => (s.echoed i l cw).cnt R.prtEarlyCnt i
      | .detect => if cwGood cw then (s.echoed i l cw).detectFrame i l cw else s.echoed i l cw
      | .train => if cwGood cw then (s.echoed i l cw).trainFrame i l cw else s.echoed i l cw
      | _ => s.echoed i l cw) :=
  congrArg Host.Outcome.next (if_neg (by simp [hears]))

theorem exec_trainingFrame_ignored (hears : s.hears i = true) (awake : (s.port i).state ≠ .quiet)
    (h : cwGood cw = false ∨ ((s.port i).state ≠ .detect ∧ (s.port i).state ≠ .train)) :
    exec (.trainingFrame i l cw) s = .next (s.echoed i l cw) := by
  rw [exec_trainingFrame hears]
  cases state : (s.port i).state
  case quiet => exact absurd state awake
  case detect | train => simp [(show cwGood cw = false by simpa [state] using h)]
  all_goals rfl

end

/-- Settles O26: the state decides what becomes of a word, and a loopback's echo adds nothing but a message sent. -/
theorem training : Obligations.Training := by
  unfold Obligations.Training
  intro s i l cw x m dev u wrong answers
  refine ⟨exec_trainingFrame_deaf, fun hears => ?_⟩
  have lit : s.lit i = true := by simp only [State.hears, Bool.and_eq_true] at hears; exact hears.1
  have rest : s.echoed i l cw = { s with out := u.out } := s.echoed_rest i l cw
  refine ⟨fun quiet => ?_, exec_trainingFrame_ignored hears, fun detect good => ?_, fun train good => ?_⟩
  · have e := exec_trainingFrame (l := l) (cw := cw) hears
    rw [show (s.port i).state = .quiet from quiet] at e
    exact e
  · have e : exec (.trainingFrame i l cw) s = .next (({ s with out := u.out } : State).detectFrame i l cw) := by
      rw [exec_trainingFrame hears, show (s.port i).state = .detect from detect, ← rest]
      exact congrArg Host.Outcome.next (if_pos good)
    have same := (execTrainingFrame_sameButPortsRes i l cw s).of_next e
    by_cases isWrong : s.wiredWrong i dev = true
    · obtain ⟨partner, seen, only, state, reason, counts⟩ :=
        State.detectFrame_wrong (u := { s with out := u.out }) (l := l) isWrong
      exact ⟨_, e, partner, seen, only, same, fun _ => ⟨state, reason, counts⟩, fun h => absurd ((s.wiredWrong_iff i dev).mp isWrong) h⟩
    · obtain ⟨partner, seen, only, out, trains⟩ := State.detectFrame_goes (u := { s with out := u.out }) (l := l) (cw := cw) lit detect
        (Bool.eq_false_iff.mpr isWrong)
      exact ⟨_, e, partner, seen, only, same, fun h => absurd ((s.wiredWrong_iff i dev).mpr h) isWrong, fun _ => ⟨out, trains⟩⟩
  · have e : exec (.trainingFrame i l cw) s = .next (({ s with out := u.out } : State).trainFrame i l cw) := by
      rw [exec_trainingFrame hears, show (s.port i).state = .train from train, ← rest]
      exact congrArg Host.Outcome.next (if_pos good)
    obtain ⟨lane, aligns, only, out⟩ := State.trainFrame_goes (u := { s with out := u.out }) (l := l) (cw := cw) lit train
    let t := ({ s with out := u.out } : State).trainFrame i l cw
    let y := (t.port i).lane l
    let a := m.respond (bits cw.toNat 21 19) (bits cw.toNat 24 22)
    have y_eq : y = m.train cw (Config.ffeWant s.freeCtr) (Config.rxTrained s.freeCtr) := (lane l).trans (if_pos rfl)
    obtain ⟨taps, status⟩ := a.ask_taps (bits cw.toNat 27 25) (Config.ffeWant s.freeCtr)
    obtain ⟨request, tap⟩ := m.respond_request (bits cw.toNat 21 19) (bits cw.toNat 24 22)
    have trained := y_eq.trans (m.train_eq ..)
    have ours : y.ours = if y.trained then m.ours + 1 else 0 := by rw [trained]
    have answer : answers t y := by rw [y_eq]; exact out
    refine ⟨t, e, ?_, ?_, ?_, ?_, answer, fun waits => ?_, fun idle answered => ?_, fun k hk => (lane k).trans (if_neg hk), aligns, only,
      (execTrainingFrame_sameButPortsRes i l cw s).of_next e⟩
    · exact (congrArg Lane.taps trained).trans taps
    · exact (congrArg Lane.status trained).trans status
    · exact congrArg Lane.ready trained
    · exact ours
    · have held := Lane.ask_waiting (l := a) (request.trans_ne waits) (bits cw.toNat 27 25) (Config.ffeWant s.freeCtr)
      rw [request, tap] at held
      exact (congrArg (fun z : Lane => (z.request, z.tap)) trained).trans held
    · exact (congrArg Lane.request trained).trans (Lane.ask_idle (l := a) (request.trans idle) answered _)

end Sys2Proof.Machine
end

section
/-!
PROOF. Sequence numbers and the fate of received frames (08 R210; 09 R239 to R242, R261). Settles O30.
-/
namespace Sys2Proof.Machine

/-! ### Sequence numbers (R239) -/

/-- Which of the 128 numbers from the highest down have come. -/
def ClassSeq.seen (c : ClassSeq) : BitVec 128 := c.w1 ++ c.w0

/-- A class's receive state with highest number `top` and window `m`. -/
def ClassSeq.took (c : ClassSeq) (m : BitVec 128) (top : Nat) : ClassSeq :=
  { c with top := top, w1 := m.extractLsb' 64 64, w0 := m.extractLsb' 0 64, started := true }

theorem ClassSeq.took_seen (c : ClassSeq) (m : BitVec 128) (top : Nat) : (c.took m top).seen = m := by
  apply BitVec.eq_of_getLsbD_eq
  intro j hj
  simp only [ClassSeq.seen, ClassSeq.took, BitVec.getLsbD_append, BitVec.getLsbD_extractLsb']
  split
  · simp [*]
  · rw [show 64 + (j - 64) = j by omega]
    simp
    omega

theorem seqAccept_above {c : ClassSeq} {q : Nat} (above : c.top < q) :
    seqAccept c q = some (c.took ((if 128 ≤ q - c.top then 0#128 else c.seen <<< (q - c.top)) ||| 1#128) q) := if_pos above

theorem seqAccept_below {c : ClassSeq} {q : Nat} (below : ¬c.top < q) :
    seqAccept c q = if 128 ≤ c.top - q then none else if c.seen.getLsbD (c.top - q) then none
      else some (c.took (c.seen ||| (1#128 <<< (c.top - q))) c.top) := if_neg below

/-- A number is dropped where it lies below the window, or has come. -/
theorem seqAccept_none_iff (c : ClassSeq) (q : Nat) :
    seqAccept c q = none ↔ q ≤ c.top ∧ (128 ≤ c.top - q ∨ c.seen.getLsbD (c.top - q) = true) := by
  by_cases above : c.top < q
  · rw [seqAccept_above above]
    exact iff_of_false (by simp) (by omega)
  · rw [seqAccept_below above]
    split_ifs with left came
    · exact iff_of_true rfl ⟨by omega, .inl left⟩
    · exact iff_of_true rfl ⟨by omega, .inr came⟩
    · exact iff_of_false (by simp) fun h => h.2.elim left came

theorem seqAccept_ne_none_iff (c : ClassSeq) (q : Nat) :
    seqAccept c q ≠ none ↔ c.top < q ∨ (c.top < q + 128 ∧ c.seen.getLsbD (c.top - q) = false) := by
  rw [Ne, seqAccept_none_iff]
  cases c.seen.getLsbD (c.top - q)
  · simp only [Bool.false_eq_true, or_false, and_true]
    omega
  · simp

theorem seqAccept_none_of_took {c : ClassSeq} {m : BitVec 128} {top q : Nat} (below : q ≤ top)
    (h : top - q < 128 → m.getLsbD (top - q) = true) : seqAccept (c.took m top) q = none := by
  refine (seqAccept_none_iff _ q).mpr ⟨below, ?_⟩
  rw [ClassSeq.took_seen]
  exact (Nat.lt_or_ge (top - q) 128).symm.imp id h

/-- A number accepted is the highest or has its place in the window, and nothing that was dropped before is accepted after. -/
theorem seqAccept_some {c d : ClassSeq} {q : Nat} (h : seqAccept c q = some d) : d.top = max c.top q ∧ d.started = true ∧
    seqAccept d q = none ∧ ∀ x, seqAccept c x = none → seqAccept d x = none := by
  by_cases above : c.top < q
  · rw [seqAccept_above above] at h
    obtain rfl := Option.some.inj h
    refine ⟨(Nat.max_eq_right above.le).symm, rfl, seqAccept_none_of_took le_rfl fun _ => by simp, fun x hx => ?_⟩
    obtain ⟨below, gone⟩ := (seqAccept_none_iff c x).mp hx
    refine seqAccept_none_of_took (by omega) fun within => ?_
    rw [if_neg (by omega), BitVec.getLsbD_or, BitVec.getLsbD_shiftLeft, show q - x - (q - c.top) = c.top - x by omega,
      gone.resolve_left (by omega)]
    simp
    omega
  · rw [seqAccept_below above] at h
    split_ifs at h with left came
    obtain rfl := Option.some.inj h
    refine ⟨(Nat.max_eq_left (not_lt.mp above)).symm, rfl, seqAccept_none_of_took (not_lt.mp above) fun within => ?_, fun x hx => ?_⟩
    · simp [within]
    · obtain ⟨below, gone⟩ := (seqAccept_none_iff c x).mp hx
      refine seqAccept_none_of_took below fun within => ?_
      rw [BitVec.getLsbD_or, gone.resolve_left (by omega), Bool.true_or]

/-- A class that starts anew accepts any number. -/
theorem seqAccept_fresh {c : ClassSeq} (top : c.top = 0) (seen : c.seen = 0#128) (q : Nat) : ∃ d, seqAccept c q = some d := by
  refine Option.ne_none_iff_exists'.mp fun h => ?_
  obtain ⟨below, gone⟩ := (seqAccept_none_iff c q).mp h
  rw [seen, top] at gone
  simp at gone

/-! ### Codewords leave what a port knows of its frames (R208, R210) -/

/-- Of port `p` only its codeword counts have changed, and nothing was sent. -/
structure CodewordsOnly (s t : State) (p : Nat) : Prop where
  out : t.out = s.out
  port : ∃ blocks unc, t.port p = { s.port p with blocks := blocks, uncWindow := unc }

theorem CodewordsOnly.refl (s : State) (p : Nat) : CodewordsOnly s s p := ⟨rfl, _, _, rfl⟩

theorem CodewordsOnly.trans {s t u : State} {p : Nat} (h : CodewordsOnly s t p) (h' : CodewordsOnly t u p) : CodewordsOnly s u p := by
  obtain ⟨out, _, _, e⟩ := h
  obtain ⟨out', _, _, e'⟩ := h'
  exact ⟨out'.trans out, _, _, by rw [e', e]⟩

theorem CodewordsOnly.each {α : Type} {p : Nat} {l : List α} {f : State → α → State} (h : ∀ s a, CodewordsOnly s (f s a) p)
    (s : State) : CodewordsOnly s (s.each l f) p := by
  induction l generalizing s with
  | nil => exact .refl s p
  | cons a l ih => exact (h s a).trans (ih _)

theorem State.cnt_codewordsOnly (s : State) (r : Reg) (i n bank idx p : Nat) : CodewordsOnly s (s.cnt r i n bank idx) p :=
  ⟨State.cnt_out .., _, _, by rw [State.port, State.cnt_ports]; rfl⟩

theorem State.codeword_codewordsOnly (s : State) (p : Nat) (errs : List Nat) : CodewordsOnly s (s.codeword p errs) p := by
  unfold State.codeword
  extract_lets lo hi s1 k
  have counted : CodewordsOnly s s1 p := by
    dsimp only [s1]
    split_ifs <;> exact ⟨rfl, _, _, rfl⟩
  split_ifs
  · exact counted
  · exact (counted.trans (s1.cnt_codewordsOnly R.prtUncCnt p 1 0 0 p)).trans ⟨rfl, _, _, State.modPort_self ..⟩
  · exact ((counted.trans (s1.cnt_codewordsOnly R.prtCorrCnt p 1 0 0 p)).trans (State.cnt_codewordsOnly _ R.prtHist p 1 0 (k - 1) p)).trans
      (CodewordsOnly.each (fun t l => t.cnt_codewordsOnly R.prtLaneSym p 1 l 0 p) _)

theorem State.takeBlocks_codewordsOnly (s : State) (p : Nat) (l : Codewords) : CodewordsOnly s (s.takeBlocks p l) p := by
  refine CodewordsOnly.each (fun t b => ?_) s
  unfold State.codeBlock
  split
  · exact .refl t p
  · exact CodewordsOnly.trans (t := t.modPort p (fun x => { x with blocks := b.number + 1 })) ⟨rfl, _, _, State.modPort_self ..⟩
      (CodewordsOnly.each (fun u i => u.codeword_codewordsOnly p _) _)

theorem CodewordsOnly.secure {s t : State} {p : Nat} (h : CodewordsOnly s t p) : (t.port p).secure = (s.port p).secure := by
  obtain ⟨-, _, _, e⟩ := h
  rw [e]

theorem CodewordsOnly.classSeq {s t : State} {p : Nat} (h : CodewordsOnly s t p) (c : Nat) : t.classSeq p c = s.classSeq p c := by
  obtain ⟨-, _, _, e⟩ := h
  rw [State.classSeq, e]
  rfl

/-! ### What a port sends of its own leaves (R238) -/

/-- A frame that port `p` sends, or holds for later, changes its class and the credit spent. -/
structure SendsOnly (s t : State) (p cls : Nat) : Prop where
  only : OnlyPort s t p
  port : ∃ seqs spent, t.port p = { s.port p with seqs := seqs, spent := spent }
  classSeq : ∀ c, c ≠ cls → t.classSeq p c = s.classSeq p c

theorem SendsOnly.refl (s : State) (p cls : Nat) : SendsOnly s s p cls := ⟨.refl s p, ⟨_, _, rfl⟩, fun _ _ => rfl⟩

theorem State.modSeq_sendsOnly (s : State) (p cls : Nat) (f : ClassSeq → ClassSeq) : SendsOnly s (s.modSeq p cls f) p cls :=
  ⟨s.modPort_onlyPort p _, ⟨_, _, State.modPort_self ..⟩, fun c hc => (s.modSeq_classSeq p cls c f).trans (if_neg hc)⟩

theorem State.numbered_sendsOnly (s : State) (p cls : Nat) (f : Frame) : SendsOnly s (s.numbered p cls f) p cls := by
  obtain ⟨spent, port⟩ := s.numbered_port p cls f
  refine ⟨(s.numbered_leaves p cls f).2, ⟨_, _, port⟩, fun c hc => ?_⟩
  rw [State.classSeq, port]
  exact mget_mput_ne _ _ _ hc

theorem State.sendOn_sendsOnly (s : State) (p : Nat) (c : Content) : SendsOnly s (s.sendOn p c) p c.cls := by
  unfold State.sendOn
  split_ifs
  · exact .refl s p c.cls
  · obtain ⟨only, port, classSeq⟩ := s.numbered_sendsOnly p c.cls (s.carrier p c)
    have sent (q : Nat) : (s.sendNow p c).port q = (s.numbered p c.cls (s.carrier p c)).port q := by
      rw [State.port, State.sendNow, State.transmit_ports]
      rfl
    exact ⟨fun q hq => (sent q).trans (only q hq), by rw [sent]; exact port,
      fun k hk => by rw [State.classSeq, sent]; exact classSeq k hk⟩
  · exact s.modSeq_sendsOnly p c.cls _

/-! ### A number accepted (R239, R240, R249) -/

section
variable {s : State} {p cls q : Nat}

/-- The state as the number of a frame is accepted, in the phase in use or in the old one, before what it brings about. -/
def State.numberTaken (s : State) (p cls : Nat) (old : Bool) (c : ClassSeq) : State :=
  if old then s.modPort p (fun x => { x with statusDue := true, secure := { x.secure with oldSeqs := mput x.secure.oldSeqs cls c } })
  else (s.modSeq p cls (fun _ => c)).modPort p (fun x => { x with statusDue := true })

theorem State.numberTaken_new (s : State) (p cls : Nat) (c : ClassSeq) : s.numberTaken p cls false c =
    (s.modSeq p cls (fun _ => c)).modPort p (fun x => { x with statusDue := true }) := if_neg Bool.false_ne_true

theorem State.numberTaken_old (s : State) (p cls : Nat) (c : ClassSeq) : s.numberTaken p cls true c = s.modPort p (fun x =>
    { x with statusDue := true, secure := { x.secure with oldSeqs := mput x.secure.oldSeqs cls c } }) := if_pos rfl

/-- A gap in a retried class asks for RETRY, and a vote's buffer falls free. -/
def State.numberFollowed (s : State) (p cls next q : Nat) : State :=
  (s.when (retried cls && decide (next < q)) (fun t => t.sendOn p (.retry cls next (min 128 (q - next))))).when (cls == 7)
    (fun t => t.release p votePool voteUnits)

/-- The number after the highest that has come. -/
def ClassSeq.expects (c : ClassSeq) : Nat := if c.started then c.top + 1 else 0

/-- The class's state that a frame of a phase is held against (R261). -/
def State.seqOf (s : State) (p cls : Nat) (old : Bool) : ClassSeq :=
  if old then mget ClassSeq.reset (s.port p).secure.oldSeqs cls else s.classSeq p cls

theorem State.accept_none {old : Bool} (h : seqAccept (s.seqOf p cls old) q = none) :
    s.accept p cls q old = (s.cnt R.fabReplayDrop, .dropped) := by
  unfold State.seqOf at h
  simp only [State.accept, h]

theorem State.accept_some {old : Bool} {c : ClassSeq} (h : seqAccept (s.seqOf p cls old) q = some c) :
    s.accept p cls q old = ((s.numberTaken p cls old c).numberFollowed p cls (s.seqOf p cls old).expects q, .good) := by
  have h' := h
  unfold State.seqOf at h'
  simp only [State.accept, h']
  rfl

/-- The request for a gap changes, of the port, only the class of LINK frames, which is not retried, and the credits. -/
theorem State.gapAsked_leaves (s : State) (p cls next q : Nat) :
    let u := s.when (retried cls && decide (next < q)) (fun t => t.sendOn p (.retry cls next (min 128 (q - next))))
    SendsOnly s u p 8 ∧ u.classSeq p cls = s.classSeq p cls := by
  intro u
  by_cases gap : (retried cls && decide (next < q)) = true
  · have asked : u = s.sendOn p (.retry cls next (min 128 (q - next))) := if_pos gap
    have sends : SendsOnly s u p 8 := by rw [asked]; exact s.sendOn_sendsOnly p _
    have link : cls ≠ 8 := by
      rintro rfl
      simp [retried] at gap
    exact ⟨sends, sends.classSeq cls link⟩
  · have same : u = s := if_neg gap
    exact ⟨by rw [same]; exact .refl s p 8, by rw [same]⟩

/-- What follows the number taken changes neither its class nor the keys. -/
theorem State.numberFollowed_leaves (s : State) (p cls next q : Nat) : let t := s.numberFollowed p cls next q
    OnlyPort s t p ∧ (t.port p).secure = (s.port p).secure ∧ t.classSeq p cls = s.classSeq p cls ∧
      ((s.port p).statusDue = true → (t.port p).statusDue = true) := by
  obtain ⟨⟨only, ⟨seqs, spent, port⟩, -⟩, classSeq⟩ := s.gapAsked_leaves p cls next q
  unfold State.numberFollowed
  generalize s.when (retried cls && decide (next < q)) (fun t => t.sendOn p (.retry cls next (min 128 (q - next)))) = u at *
  unfold State.when
  split
  · have released : (u.release p votePool voteUnits).port p = { u.port p with
        freed := mput (u.port p).freed votePool ((mget 0 (u.port p).freed votePool + voteUnits) % 65536), statusDue := true } :=
      State.modPort_self ..
    refine ⟨only.trans (u.modPort_onlyPort p _), ?_, ?_, fun _ => congrArg Port.statusDue released⟩
    · exact (congrArg Port.secure released).trans (by rw [port])
    · exact (congrArg (fun x : Port => mget ClassSeq.reset x.seqs cls) released).trans classSeq
  · exact ⟨only, by rw [port], classSeq, fun due => by rw [port]; exact due⟩

theorem State.numberFollowed_out (s : State) (p cls next q : Nat) : (s.numberFollowed p cls next q).out =
    (s.when (retried cls && decide (next < q)) (fun t => t.sendOn p (.retry cls next (min 128 (q - next))))).out := by
  unfold State.numberFollowed
  cases cls == 7 <;> rfl

/-- A content of a LINK frame goes out under what the port's keys and that class say. -/
theorem State.carrier_retry {s t : State} (state : (t.port p).state = (s.port p).state)
    (secure : (t.port p).secure = (s.port p).secure) (next : (t.classSeq p 8).next = (s.classSeq p 8).next) (c first n : Nat) :
    t.carrier p (.retry c first n) = s.carrier p (.retry c first n) := by
  simp only [State.carrier, Port.keyFor, state, secure, Content.cls, Content.type, next]

/-- A frame of the phase in use, whose number is accepted. -/
theorem State.accept_new {c : ClassSeq} (h : seqAccept (s.classSeq p cls) q = some c) :
    let r := s.accept p cls q false
    let n := (s.classSeq p cls).expects
    r.2 = .good ∧ r.1.classSeq p cls = c ∧ (r.1.port p).statusDue = true ∧ (r.1.port p).secure = (s.port p).secure ∧
      OnlyPort s r.1 p ∧ (retried cls = false ∨ q ≤ n → r.1.out = s.out) ∧
      (retried cls = true → n < q → CanSend s p 8 → r.1.out = s.out ++ [.frame p (s.carrier p (.retry cls n (min 128 (q - n))))]) := by
  intro r n
  let u := s.numberTaken p cls false c
  have r_eq : r = (u.numberFollowed p cls n q, .good) := State.accept_some (old := false) h
  have u_eq : u = _ := s.numberTaken_new p cls c
  have taken : u.port p = { s.port p with seqs := mput (s.port p).seqs cls c, statusDue := true } := by
    rw [u_eq, State.modPort_self, State.modSeq, State.modPort_self]
  have seq (k : Nat) : u.classSeq p k = if k = cls then c else s.classSeq p k := by
    simp only [State.classSeq, taken, mget_mput]
  have onlyTaken : OnlyPort s u p := by
    rw [u_eq]
    exact (s.modPort_onlyPort p _).trans (State.modPort_onlyPort _ p _)
  obtain ⟨only, secure, classSeq, due⟩ := u.numberFollowed_leaves p cls n q
  rw [r_eq]
  refine ⟨rfl, by rw [classSeq, seq, if_pos rfl], due (by rw [taken]), by rw [secure, taken], onlyTaken.trans only, fun no => ?_,
    fun again gap can => ?_⟩
  · rw [State.numberFollowed_out, State.when, if_neg]
    · rfl
    · rintro asked
      rw [Bool.and_eq_true, decide_eq_true_eq] at asked
      exact no.elim (fun no => by simp [asked.1] at no) (fun no => by omega)
  · have link : 8 ≠ cls := by
      rintro rfl
      exact absurd again (by decide)
    have listened : Listened s u p := ⟨onlyTaken, fun _ => rfl, ⟨_, _, _, _, _, taken⟩, fun k => by
      rw [seq]
      split
      · rename_i e
        rw [e, seqAccept_waiting h]
      · rfl⟩
    rw [State.numberFollowed_out, State.when, if_pos (by simpa [again] using gap),
      (State.sendOn_goes_spec (listened.canSend (cls := 8) (by decide) can)).1,
      State.carrier_retry (s := s) (by rw [taken]) (by rw [taken]) (by rw [seq, if_neg link])]
    rfl

/-- A frame of the old phase, whose number is accepted (R261). -/
theorem State.accept_old {c : ClassSeq} (h : seqAccept (mget ClassSeq.reset (s.port p).secure.oldSeqs cls) q = some c) :
    let r := s.accept p cls q true
    r.2 = .good ∧ mget ClassSeq.reset (r.1.port p).secure.oldSeqs cls = c ∧ (r.1.port p).secure.rxKp = (s.port p).secure.rxKp := by
  intro r
  let u := s.numberTaken p cls true c
  have r_eq : r = (u.numberFollowed p cls (mget ClassSeq.reset (s.port p).secure.oldSeqs cls).expects q, .good) :=
    State.accept_some (old := true) h
  have taken : u.port p = { s.port p with
      statusDue := true, secure := { (s.port p).secure with oldSeqs := mput (s.port p).secure.oldSeqs cls c } } := by
    rw [show u = _ from s.numberTaken_old p cls c, State.modPort_self]
  obtain ⟨-, secure, -, -⟩ := u.numberFollowed_leaves p cls (mget ClassSeq.reset (s.port p).secure.oldSeqs cls).expects q
  rw [r_eq]
  refine ⟨rfl, ?_, ?_⟩
  · rw [secure, taken]
    exact mget_mput_self ..
  · rw [secure, taken]

/-! ### The receiver turns to a new key (R261) -/

theorem State.turnKey_port (s : State) (p : Nat) : (s.turnKey p).port p = { s.port p with
    seqs := (s.port p).seqs.map (fun x => (x.1, x.2.restarted))
    secure := { (s.port p).secure with
      rxKp := !(s.port p).secure.rxKp, rekeying := false, oldKey := some (s.port p).secure.rxKey, rxKey := (s.port p).secure.newRx,
      oldSeqs := (s.port p).seqs } } := State.modPort_self ..

theorem ClassSeq.restarted_seen (c : ClassSeq) : c.restarted.seen = 0#128 := by
  change (0#64 ++ 0#64 : BitVec 128) = 0#128
  decide

/-- Every class starts anew under the new key, so the first frame is accepted. -/
theorem State.turnKey_accepts (s : State) (p cls q : Nat) : ∃ c, seqAccept ((s.turnKey p).classSeq p cls) q = some c := by
  have seqs : (s.turnKey p).classSeq p cls = ((mfind (s.port p).seqs cls).map ClassSeq.restarted).getD ClassSeq.reset := by
    rw [State.classSeq, s.turnKey_port]
    exact congrArg (Option.getD · ClassSeq.reset) (mfind_map ClassSeq.restarted _ cls)
  rw [seqs]
  cases mfind (s.port p).seqs cls
  · exact seqAccept_fresh rfl rfl q
  · exact seqAccept_fresh rfl (ClassSeq.restarted_seen _) q

end

/-! ### A frame arrives -/

section
variable {s : State} {i : Fin 16} {cls : Nat} {a : Arrival}

/-- A frame that a port hears UP, whole. -/
theorem State.receive_whole (whole : Whole s i a.codewords) (up : s.portUp i = true) : s.receive i cls a =
    (let u := s.takeBlocks i a.codewords
    let sec := (s.port i).secure
    let old := a.kp != sec.rxKp && sec.oldKey.isSome
    let new := a.kp != sec.rxKp && !sec.oldKey.isSome && sec.rekeying
    if !a.tagOk || (a.kp != sec.rxKp && !old && !new) then (u.authFail i, .damaged)
    else (u.when new (fun t => t.turnKey i)).accept i cls a.seq old) := by
  have secure := (s.takeBlocks_codewordsOnly i a.codewords).secure
  obtain ⟨hears, clean⟩ := whole
  simp only [State.receive, hears, up, clean, secure, Bool.not_true, Bool.false_eq_true, if_false]

/-- A tag that fails, or a key phase that is not known (R242). -/
theorem State.receive_unproved (whole : Whole s i a.codewords) (up : s.portUp i = true)
    (h : a.tagOk = false ∨ (a.kp ≠ (s.port i).secure.rxKp ∧ (s.port i).secure.oldKey = none ∧ (s.port i).secure.rekeying = false)) :
    s.receive i cls a = ((s.takeBlocks i a.codewords).authFail i, .damaged) := by
  rw [State.receive_whole whole up]
  refine if_pos ?_
  obtain tag | ⟨phase, old, rekeying⟩ := h
  · simp [tag]
  · simp [phase, old, rekeying]

/-- A frame of the phase in use (R239). -/
theorem State.receive_current (whole : Whole s i a.codewords) (up : s.portUp i = true) (tag : a.tagOk = true)
    (phase : a.kp = (s.port i).secure.rxKp) :
    s.receive i cls a = (s.takeBlocks i a.codewords).accept i cls a.seq false := by
  rw [State.receive_whole whole up]
  simp [tag, phase, State.when]

/-- A frame of the old phase, while it is accepted (R261). -/
theorem State.receive_late (whole : Whole s i a.codewords) (up : s.portUp i = true) (tag : a.tagOk = true)
    (phase : a.kp ≠ (s.port i).secure.rxKp) (old : (s.port i).secure.oldKey ≠ none) :
    s.receive i cls a = (s.takeBlocks i a.codewords).accept i cls a.seq true := by
  rw [State.receive_whole whole up]
  have known : (s.port i).secure.oldKey.isSome = true := Option.isSome_iff_ne_none.mpr old
  simp [tag, bne_iff_ne.mpr phase, known, State.when]

/-- The first frame of a new phase turns the receiver (R261). -/
theorem State.receive_turns (whole : Whole s i a.codewords) (up : s.portUp i = true) (tag : a.tagOk = true)
    (phase : a.kp ≠ (s.port i).secure.rxKp) (old : (s.port i).secure.oldKey = none) (rekeying : (s.port i).secure.rekeying = true) :
    s.receive i cls a = ((s.takeBlocks i a.codewords).turnKey i).accept i cls a.seq false := by
  rw [State.receive_whole whole up]
  simp [tag, phase, old, rekeying, State.when]

theorem State.accept_current (whole : Whole s i a.codewords) (up : s.portUp i = true) (tag : a.tagOk = true)
    (phase : a.kp = (s.port i).secure.rxKp) {c : ClassSeq} (h : seqAccept (s.classSeq i cls) a.seq = some c) :
    let r := s.receive i cls a
    let n := (s.classSeq i cls).expects
    r.2 = .good ∧ r.1.classSeq i cls = c ∧ (r.1.port i).statusDue = true ∧ OnlyPort s r.1 i ∧ SameButPorts s r.1 ∧
      (retried cls = false ∨ a.seq ≤ n → r.1.out = s.out) ∧ (retried cls = true → n < a.seq → CanSend s i 8 →
        r.1.out = s.out ++ [.frame i (s.carrier i (.retry cls n (min 128 (a.seq - n))))]) := by
  intro r n
  let u := s.takeBlocks i a.codewords
  have counts : CodewordsOnly s u i := s.takeBlocks_codewordsOnly i a.codewords
  have listened : Listened s u i := s.takeBlocks_listened i a.codewords
  have state : (u.port i).state = (s.port i).state := by
    obtain ⟨-, _, _, port⟩ := counts
    rw [port]
  have r_eq : r = u.accept i cls a.seq false := State.receive_current whole up tag phase
  have known : u.classSeq i cls = s.classSeq i cls := counts.classSeq cls
  obtain ⟨good, classSeq, due, -, only, silent, asks⟩ := State.accept_new (s := u) (p := i) (cls := cls) (known ▸ h)
  rw [known] at silent asks
  rw [← r_eq] at good classSeq due only silent asks
  refine ⟨good, classSeq, due, listened.only.trans only, s.receive_sameButPortsFst i cls a, fun no => (silent no).trans counts.out,
    fun again gap can => ?_⟩
  rw [asks again gap (listened.canSend (by decide) can), counts.out,
    State.carrier_retry (s := s) state counts.secure (by rw [counts.classSeq])]

theorem State.accept_late (whole : Whole s i a.codewords) (up : s.portUp i = true) (tag : a.tagOk = true)
    (phase : a.kp ≠ (s.port i).secure.rxKp) (old : (s.port i).secure.oldKey ≠ none) :
    let r := s.receive i cls a
    let z := mget ClassSeq.reset (s.port i).secure.oldSeqs cls
    (seqAccept z a.seq = none → r = ((s.takeBlocks i a.codewords).cnt R.fabReplayDrop, .dropped)) ∧
      (∀ c, seqAccept z a.seq = some c → r.2 = .good ∧
        mget ClassSeq.reset (r.1.port i).secure.oldSeqs cls = c ∧ (r.1.port i).secure.rxKp = (s.port i).secure.rxKp) := by
  intro r z
  have r_eq : r = (s.takeBlocks i a.codewords).accept i cls a.seq true := State.receive_late whole up tag phase old
  have secure := (s.takeBlocks_codewordsOnly i a.codewords).secure
  rw [r_eq]
  refine ⟨fun h => State.accept_none (old := true) ?_, fun c h => ?_⟩
  · rw [State.seqOf, if_pos rfl, secure]
    exact h
  · obtain ⟨good, seqs, rxKp⟩ := State.accept_old (s := s.takeBlocks i a.codewords) (p := i) (cls := cls)
      (by rw [secure]; exact h)
    exact ⟨good, seqs, rxKp.trans (congrArg Secure.rxKp secure)⟩

theorem State.accept_turns (whole : Whole s i a.codewords) (up : s.portUp i = true) (tag : a.tagOk = true)
    (phase : a.kp ≠ (s.port i).secure.rxKp) (old : (s.port i).secure.oldKey = none) (rekeying : (s.port i).secure.rekeying = true) :
    let r := s.receive i cls a
    let sec := (s.port i).secure
    r.2 = .good ∧ (r.1.port i).secure.rxKp = a.kp ∧ (r.1.port i).secure.rxKey = sec.newRx ∧
      (r.1.port i).secure.oldKey = some sec.rxKey ∧ (r.1.port i).secure.rekeying = false := by
  intro r sec
  let u := s.takeBlocks i a.codewords
  have r_eq : r = (u.turnKey i).accept i cls a.seq false := State.receive_turns whole up tag phase old rekeying
  have secure : (u.port i).secure = sec := (s.takeBlocks_codewordsOnly i a.codewords).secure
  obtain ⟨c, fresh⟩ := u.turnKey_accepts i cls a.seq
  obtain ⟨good, -, -, kept, -⟩ := State.accept_new fresh
  rw [← r_eq] at good kept
  have turned : (!sec.rxKp) = a.kp := (Bool.eq_not.mpr phase).symm
  rw [kept, u.turnKey_port, secure]
  exact ⟨good, turned, rfl, rfl, rfl⟩

end

/-- Settles O30: the receive window takes a number once, and each frame's fate follows from its codewords, tag and phase. -/
theorem linkReceipt : Obligations.LinkReceipt := by
  unfold Obligations.LinkReceipt
  refine ⟨fun c q => ⟨seqAccept_ne_none_iff c q, fun d => seqAccept_some⟩, ?_⟩
  · intro s i cls a u r sec z
    refine ⟨fun deaf => if_pos (by simp [deaf]), fun hears down => ?_, fun hears up spoilt => ?_, fun whole up =>
      ⟨State.receive_unproved whole up, fun tag phase => ⟨fun none => ?_, fun c h => ?_⟩,
        fun tag phase old => State.accept_late whole up tag phase old,
        fun tag phase old rekeying => State.accept_turns whole up tag phase old rekeying⟩⟩
    · simp only [r, State.receive, hears, down, Bool.not_true, Bool.not_false, Bool.false_eq_true, if_false, if_true]
      rfl
    · simp only [r, State.receive, hears, up, spoilt, Bool.not_true, Bool.false_eq_true, if_false, if_true]
      rfl
    · refine (State.receive_current whole up tag phase).trans (State.accept_none (old := false) ?_)
      rw [State.seqOf, if_neg Bool.false_ne_true, (s.takeBlocks_codewordsOnly i a.codewords).classSeq]
      exact none
    · exact State.accept_current whole up tag phase h

end Sys2Proof.Machine
end

section
/-!
PROOF. Resets and the first second (08 R225; 14 R367 to R372 with Tables 14-2 and 14-3; 15 R397; 16 R433, R435). Settles O50.
-/
namespace Sys2Proof.Machine

/-! ### Resets (Table 14-3) -/

/-- A commit that the loss of power cuts off changes the tag and draws a free value. -/
theorem State.tagPowerLoss_rest (s : State) :
    s.tagPowerLoss = { s with tag := s.tagPowerLoss.tag, freeCtr := s.tagPowerLoss.freeCtr } := by
  unfold State.tagPowerLoss
  split <;> rfl

/-- What a reset leaves of the device, beside its power unit, its island and the service tag. -/
def Cleared (s t : State) : Prop :=
  t.regs = [] ∧ t.eff = [] ∧ t.mem = [] ∧ t.clusters = [] ∧ t.ports = [] ∧ t.tick = Tick.reset ∧ t.image = Image.reset ∧
    t.host = { HostPort.reset with configs := s.host.configs + 1 } ∧ t.svc = Service.reset ∧ t.time = TimeUnit.reset ∧
    t.flash.bytes = s.flash.bytes ∧ t.trestle.strap = s.trestle.strap ∧ t.out = s.out ∧ t.pending = s.pending

theorem State.resetTo_cleared (s : State) (cause : Nat) (island : Island) : Cleared s (s.resetTo cause island) :=
  ⟨rfl, rfl, rfl, rfl, rfl, rfl, rfl, rfl, rfl, rfl, rfl, rfl, rfl, rfl⟩

/-- With the rails gone the tag's commit is cut off first. -/
theorem State.tagPowerLoss_resetTo_cleared (s : State) (cause : Nat) (island : Island) :
    Cleared s (s.tagPowerLoss.resetTo cause island) := by
  rw [s.tagPowerLoss_rest]
  exact State.resetTo_cleared { s with tag := s.tagPowerLoss.tag, freeCtr := s.tagPowerLoss.freeCtr } cause island

theorem coldReset_spec (s : State) : Gives .coldReset s (fun t => Cleared s t ∧
    t.power = { Power.reset with rstCause := 1 + 16 * b2n s.island.kill } ∧ t.island = Island.reset) :=
  ⟨_, rfl, s.tagPowerLoss_resetTo_cleared _ _, rfl, rfl⟩

theorem powerRemoval_spec (s : State) : Gives .powerRemoval s (fun t => Cleared s t ∧
    t.power = { Power.reset with rstCause := 0, on := false } ∧ t.island = Island.reset) :=
  ⟨_, rfl, s.tagPowerLoss_resetTo_cleared 0 Island.reset, rfl, rfl⟩

theorem sysRstNAssert_spec {s : State} (on : s.power.on = true) : Gives .sysRstNAssert s (fun t => Cleared s t ∧
    t.power = { Power.reset with rstCause := 2, released := false } ∧ t.tag = s.tag ∧
      t.island.records = s.island.records ∧ t.island.alert = s.island.alert ∧ t.island.kill = s.island.kill ∧
      t.island.causes = [0] ∧ t.island.ready = false) :=
  ⟨_, congrArg Host.Outcome.next (if_pos on), s.resetTo_cleared 2 s.warmIsland, rfl, rfl, rfl, rfl, rfl, rfl, rfl⟩

/-! ### The island boots (Table 14-2, R225) -/

/-- Ending a reason on a list of ports leaves the other reasons. -/
theorem State.eachLineOff_mem (r : Nat) (ps : List Nat) (s : State) (z : Nat × Nat) :
    z ∈ (s.each ps (fun t p => t.lineOff p r)).island.lines ↔
      z ∈ s.island.lines ∧ ∀ p ∈ ps, s.optical p = true → z ≠ (p, r) := by
  induction ps generalizing s with
  | nil => simp [State.each]
  | cons a ps ih =>
    refine (ih (s.lineOff a r)).trans ?_
    have first : z ∈ (s.lineOff a r).island.lines ↔ z ∈ s.island.lines ∧ (s.optical a = true → z ≠ (a, r)) := by
      rw [State.lineOff_island]
      cases s.optical a <;> simp
    rw [first, List.forall_mem_cons, and_assoc]
    rfl

theorem State.linesOff_keeps {β : Type} (π : State → β) (h : ∀ t p r, π (State.lineOff t p r) = π t) (s : State) (r : Nat) :
    π (s.linesOff r) = π s := by
  rw [State.linesOff, State.each_keeps π (fun t p => h t p r)]

theorem State.linesOff_ready (s : State) (r : Nat) : (s.linesOff r).island.ready = s.island.ready :=
  State.linesOff_keeps (fun t => t.island.ready) (fun t p r => by rw [State.lineOff_island]) s r

theorem State.linesOff_mem (s : State) (r : Nat) (z : Nat × Nat) : z ∈ (s.linesOff r).island.lines ↔
    z ∈ s.island.lines ∧ ∀ p ∈ optPorts, s.optical p = true → z ≠ (p, r) := by
  rw [State.linesOff, State.eachLineOff_mem]

theorem mem_optPorts_of_optical {s : State} {p : Nat} (engine : s.optical p = true) : p ∈ optPorts := by
  have inRange : 4 ≤ p ∧ p < 12 := by
    simp only [State.optical, Bool.and_eq_true, decide_eq_true_eq] at engine
    exact engine.1
  simp only [optPorts, List.mem_cons, List.not_mem_nil]
  omega

theorem islandBooted_spec {s : State} (released : s.power.released = true) (down : s.island.ready = false) (up : 1 ∉ s.island.causes) :
    Gives .islandBooted s (fun t => t.island.ready = true ∧ t.tag.ready = true ∧
      (∀ p, s.optical p = true → (p, 0) ∉ t.island.lines ∧ (t.islandLine p = true ↔ ∃ r, r ≠ 0 ∧ (p, r) ∈ s.island.lines)) ∧
      SameArray s t ∧ t.regs = s.regs) := by
  let u := s.modIsland (fun i => { i with ready := true })
  obtain ⟨v, v_eq⟩ : ∃ v, v = u.linesOff 0 := ⟨_, rfl⟩
  have keeps {β : Type} (π : State → β) (h : ∀ t f, π (State.modIsland t f) = π t) : π v = π s := by
    rw [v_eq, State.linesOff_keeps π (fun t p r => h t _) u 0, h]
  have island : u.island = { s.island with ready := true } := State.modIsland_island ..
  have ready : v.island.ready = true := by
    rw [v_eq, State.linesOff_ready, island]
  have lines (z : Nat × Nat) :
      z ∈ v.island.lines ↔ z ∈ s.island.lines ∧ ∀ p ∈ optPorts, s.optical p = true → z ≠ (p, 0) := by
    rw [v_eq, State.linesOff_mem, island]
    rfl
  have e : exec .islandBooted s = .next (v.modTag (fun t => { t with ready := true })) := by
    rw [v_eq]
    exact congrArg Host.Outcome.next (if_pos ⟨released, down, by simpa [gReboot] using up⟩)
  refine ⟨_, e, ready, rfl, fun p engine => ⟨fun h => ?_, ?_⟩, ?_, keeps State.regs (by simp)⟩
  · exact ((lines (p, 0)).mp h).2 p (mem_optPorts_of_optical engine) engine rfl
  · refine (State.islandLine_iff (s := v) engine).trans (exists_congr fun r => (lines (p, r)).trans ?_)
    refine ⟨fun ⟨held, h⟩ => ⟨?_, held⟩, fun ⟨other, held⟩ => ⟨held, fun q _ _ e => other (Prod.mk.inj e).2⟩⟩
    rintro rfl
    exact h p (mem_optPorts_of_optical engine) engine rfl
  · exact ⟨keeps State.mem (by simp), keeps State.clusters (by simp), keeps State.image (by simp)⟩

theorem exec_islandBooted_idle {s : State} (h : s.power.released = false ∨ s.island.ready = true) : exec .islandBooted s = .next s := by
  refine congrArg Host.Outcome.next (if_neg ?_)
  rintro ⟨released, down, -⟩
  simp [released, down] at h

/-! ### RECOVERY (R369) -/

/-- In RECOVERY PF0 alone becomes ready. -/
theorem State.recovery_fn (s : State) (step n : Nat) :
    ((s.recovery step).fn n).ready = if n = 0 then true else (s.fn n).ready := by
  have fns : (s.recovery step).fn n = if n = 0 then { s.fn 0 with ready := true } else s.fn n := mget_mput ..
  rw [fns]
  split <;> rfl

/-- A command that ends in RECOVERY. -/
def Recovers (c : Instr) (s : State) (fn : Fin 256) : Prop :=
  Gives c s (fun t => t.power.state = .recovery ∧ t.power.bootFail = true ∧
    (t.fn 0).ready = true ∧ t.island.firmware = s.island.firmware ∧ (fn.val ≠ 0 → (t.fn fn).ready = (s.fn fn).ready))

theorem Recovers.of_recovery {c : Instr} {s u : State} {step : Nat} (e : exec c s = .next (u.recovery step))
    (island : u.island = s.island) (host : u.host = s.host) (fn : Fin 256) : Recovers c s fn := by
  refine ⟨_, e, rfl, rfl, u.recovery_fn step 0, congrArg Island.firmware island, fun other => ?_⟩
  rw [State.recovery_fn, if_neg other, State.fn, host]
  rfl

/-! ### BIST (R369, R433) -/

theorem bit_eq_testBit (x k : Nat) : bit x k = x.testBit k := by
  rw [Nat.testBit_eq_decide_div_mod_eq]
  rfl

theorem State.markBad_cluBad (s : State) (c k : Nat) : (s.markBad c).cluBad k = (s.cluBad k || decide (k = c)) := by
  by_cases word : k / 32 = c / 32
  · have stored : (s.markBad c).rd R.wldCluBad 0 0 (k / 32) = (s.rd R.wldCluBad 0 0 (k / 32) ||| 2 ^ (c % 32)) % 2 ^ 32 := by
      rw [word]
      exact s.wr_rd ..
    have same : decide (c % 32 = k % 32) = decide (k = c) := decide_eq_decide.mpr (by omega)
    rw [State.cluBad, stored, bit_eq_testBit, Nat.testBit_mod_two_pow, Nat.testBit_or, Nat.testBit_two_pow, same, ← bit_eq_testBit,
      decide_eq_true (Nat.mod_lt k (by decide)), Bool.true_and]
    rfl
  · have other : (s.markBad c).rd R.wldCluBad 0 0 (k / 32) = s.rd R.wldCluBad 0 0 (k / 32) := s.wr_rd_entry_ne _ _ 0 word
    rw [State.cluBad, other, decide_eq_false (fun e => word (by rw [e])), Bool.or_false]
    rfl

/-- A cluster is marked after a list of marks where it was before, or is one of them. -/
theorem State.eachMarkBad_cluBad (l : List Nat) (s : State) (k : Nat) :
    (s.each l State.markBad).cluBad k = true ↔ s.cluBad k = true ∨ k ∈ l := by
  induction l generalizing s with
  | nil => simp [State.each]
  | cons c l ih =>
    refine (ih (s.markBad c)).trans ?_
    rw [State.markBad_cluBad]
    simp [or_assoc]

/-- WLD.CLU_BAD's words lie apart from the flash's registers. -/
theorem State.markBad_maxMhz (s : State) (c : Fin 544) : (s.markBad c).rd R.btfMaxMhz = s.rd R.btfMaxMhz := by
  refine State.setRaw_rawAt_ne s _ ?_
  have entry := c.isLt
  simp only [regKey, R.wldCluBad, R.btfMaxMhz, pageNo]
  omega

/-- The state once BIST is done: every SRAM word is 0, and the clusters found bad are marked. -/
def State.tested (s : State) (b : Bist) : State :=
  ({ s with mem := [], ecc := [], written := [], power := { s.power with bistDone := true } } : State).each
    (b.badClusters.map (·.val)) State.markBad

theorem State.tested_keeps {β : Type} (π : State → β) (mark : ∀ t (c : Fin 544), π (State.markBad t c) = π t) (s : State) (b : Bist) :
    π (s.tested b) = π { s with mem := [], ecc := [], written := [], power := { s.power with bistDone := true } } := by
  unfold State.tested State.each
  rw [List.foldl_map]
  exact State.each_keeps π (f := fun t (c : Fin 544) => t.markBad c) mark _

theorem exec_bistComplete {s : State} {b : Bist} {f : Sfdp} (tests : s.power.released = true ∧ s.power.state = .boot ∧
    s.power.bistDone = false) : exec (.bistComplete b f) s = .next (if b.fatal then (s.tested b).recovery 0
      else if f.sigOk = false ∨ f.mib < 16 then (s.tested b).recovery 1
      else { s.tested b with
        flash := { (s.tested b).flash with width := flashWidth f, clock := min 100 ((s.tested b).fld R.btfMaxMhz 6 0) } }) := by
  obtain ⟨released, boot, undone⟩ := tests
  exact congrArg Host.Outcome.next (if_neg (by simp [released, boot, undone]))

theorem bistComplete_passes {s : State} {b : Bist} {f : Sfdp} (tests : s.power.released = true ∧ s.power.state = .boot ∧
    s.power.bistDone = false) (sound : b.fatal = false) (sig : f.sigOk = true) (size : 16 ≤ f.mib) :
    Gives (.bistComplete b f) s (fun t => t.mem = [] ∧ t.ecc = [] ∧
      t.power = { s.power with bistDone := true } ∧ t.flash.width = flashWidth f ∧
      t.flash.clock = min 100 (s.fld R.btfMaxMhz 6 0) ∧
      (∀ c ∈ b.badClusters, t.cluBad c.val = true) ∧ (∀ k, k < 544 → s.cluBad k = true → t.cluBad k = true)) := by
  have maxMhz : (s.tested b).rd R.btfMaxMhz = s.rd R.btfMaxMhz := State.tested_keeps (fun t => t.rd R.btfMaxMhz) State.markBad_maxMhz s b
  have marked (k : Nat) := State.eachMarkBad_cluBad (b.badClusters.map (·.val))
    { s with mem := [], ecc := [], written := [], power := { s.power with bistDone := true } } k
  have e := exec_bistComplete (b := b) (f := f) tests
  rw [if_neg (by simp [sound]), if_neg (by simp [sig]; omega)] at e
  refine ⟨_, e, State.tested_keeps State.mem (fun _ _ => rfl) s b, State.tested_keeps State.ecc (fun _ _ => rfl) s b,
    State.tested_keeps State.power (fun _ _ => rfl) s b, rfl, ?_, fun c hc => (marked c).mpr (.inr (List.mem_map_of_mem hc)),
    fun k _ bad => (marked k).mpr (.inl bad)⟩
  simp only [State.fld, maxMhz]

theorem bistComplete_fails {s : State} {b : Bist} {f : Sfdp} (tests : s.power.released = true ∧ s.power.state = .boot ∧
    s.power.bistDone = false) (h : b.fatal = true ∨ f.sigOk = false ∨ f.mib < 16) (fn : Fin 256) :
    Recovers (.bistComplete b f) s fn := by
  have island : (s.tested b).island = s.island := State.tested_keeps State.island (fun _ _ => rfl) s b
  have host : (s.tested b).host = s.host := State.tested_keeps State.host (fun _ _ => rfl) s b
  have e := exec_bistComplete (b := b) (f := f) tests
  by_cases fatal : b.fatal = true
  · rw [if_pos fatal] at e
    exact .of_recovery e island host fn
  · rw [if_neg fatal, if_pos (h.resolve_left fatal)] at e
    exact .of_recovery e island host fn

theorem exec_bistComplete_idle {s : State} {b : Bist} {f : Sfdp} (h : ¬(s.power.released = true ∧ s.power.state = .boot ∧
    s.power.bistDone = false)) : exec (.bistComplete b f) s = .next s := by
  refine congrArg Host.Outcome.next (if_pos ?_)
  by_contra no
  simp only [not_or, Bool.not_eq_false, not_not, Bool.not_eq_true] at no
  exact h no

/-! ### The ports start (R213) -/

/-- The state beside its ports and what is sent. -/
def SameButTraining (s t : State) : Prop := t = { s with ports := t.ports, out := t.out }

theorem SameButTraining.trans {s t u : State} (h : SameButTraining s t) (h' : SameButTraining t u) : SameButTraining s u := by
  unfold SameButTraining at *
  rw [h', h]

theorem State.eachTraining_sameButTraining (ls : List Nat) (s : State) (p : Nat) :
    SameButTraining s (s.each ls (fun t l => t.sendTraining p l)) := by
  induction ls generalizing s with
  | nil => rfl
  | cons l ls ih =>
    refine SameButTraining.trans ?_ (ih (s.sendTraining p l))
    unfold State.sendTraining
    split <;> rfl

/-- DETECT begun on a port that is not UP changes nothing but the port. -/
theorem State.toDetect_sameButTraining {s : State} {p : Nat} (down : (s.port p).state ≠ .up) : SameButTraining s (s.toDetect p) := by
  rw [State.toDetect_eq, State.portState_silent]
  · exact SameButTraining.trans (t := (s.modPort p Port.presetLanes).modPort p (fun y => { y with state := .detect })) rfl
      (State.eachTraining_sameButTraining _ _ p)
  · rw [State.modPort_self]
    exact down
  · decide

/-- A quiet port that may run begins DETECT. -/
def State.startPort (s : State) (p : Nat) : State :=
  if (s.port p).state = .quiet ∧ s.portMayRun p then s.toDetect p else s

theorem State.startPort_leaves (s : State) (p : Nat) :
    SameButTraining s (s.startPort p) ∧ OnlyPort s (s.startPort p) p ∧
      ((s.port p).state ≠ .quiet → (s.startPort p).port p = s.port p) := by
  unfold State.startPort
  split
  · rename_i h
    exact ⟨State.toDetect_sameButTraining (by rw [h.1]; decide), s.toDetect_onlyPort p, fun awake => absurd h.1 awake⟩
  · exact ⟨rfl, .refl s p, fun _ => rfl⟩

theorem State.portMayRun_congr {s t : State} (h : SameButTraining s t) {p : Nat} (port : t.port p = s.port p) :
    t.portMayRun p = s.portMayRun p := by
  have regs : t.regs = s.regs := by rw [h]
  have island : t.island = s.island := by rw [h]
  simp only [State.portMayRun, port, island, State.flag, State.dimOne, State.dim, State.fld, State.rd, State.rawAt, regs]

/-- Each port of a list is started once. -/
theorem State.eachStartPort_spec {ps : List Nat} (once : ps.Nodup) (s : State) : let t := s.each ps State.startPort
    SameButTraining s t ∧ (∀ p, (s.port p).state ≠ .quiet → t.port p = s.port p) ∧ (∀ p, p ∉ ps → t.port p = s.port p) ∧
      (∀ p ∈ ps, (s.port p).state = .quiet → s.portMayRun p = true → (t.port p).state = .detect) := by
  induction ps generalizing s with
  | nil => exact ⟨rfl, fun _ _ => rfl, fun _ _ => rfl, by simp⟩
  | cons a ps ih =>
    obtain ⟨fresh, once⟩ := List.nodup_cons.mp once
    obtain ⟨first, onlyFirst, awakeFirst⟩ := s.startPort_leaves a
    obtain ⟨rest, awake, others, starts⟩ := ih once (s.startPort a)
    refine ⟨first.trans rest, fun p up => ?_, fun p out => ?_, fun p mem quiet may => ?_⟩
    · have before : (s.startPort a).port p = s.port p := by
        by_cases e : p = a
        · subst e; exact awakeFirst up
        · exact onlyFirst p e
      exact (awake p (by rw [before]; exact up)).trans before
    · rw [List.mem_cons, not_or] at out
      exact (others p out.2).trans (onlyFirst p out.1)
    · by_cases e : p = a
      · subst e
        have begun : s.startPort p = s.toDetect p := if_pos ⟨quiet, may⟩
        refine (congrArg Port.state (others p fresh)).trans ?_
        rw [begun, State.toDetect_port]
        rfl
      · have before : (s.startPort a).port p = s.port p := onlyFirst p e
        exact starts p ((List.mem_cons.mp mem).resolve_left e) (by rw [before]; exact quiet)
          (by rw [State.portMayRun_congr first before]; exact may)

/-! ### The firmware loads (Table 14-2, R435) -/

/-- The state as a valid copy boots, before the ports start. -/
def State.booted (s : State) (x y : FwCopy) : State :=
  let f := { s.flash with aValid := copyGood x, bValid := copyGood y }
  let useB := copyGood y && (!copyGood x || decide (x.version < y.version))
  (({ s with
    flash := { f with booted := b2n useB, version := if useB then y.version else x.version }
    power := { s.power with state := .active, bootTime := s.power.uptime / 1000000 }
    host := { s.host with linkUp := true, fns := (List.range 256).map (fun n => (n, { s.fn n with ready := true })) } } :
      State).modIsland (fun i => { i with firmware := true })).modTag (fun t => { t with boots := t.boots + 1, fresh := true })

section
variable (s : State) (x y : FwCopy)

theorem State.booted_power : (s.booted x y).power = { s.power with state := .active, bootTime := s.power.uptime / 1000000 } := by
  simp only [State.booted, State.modTag, State.modIsland_power]

theorem State.booted_island : (s.booted x y).island = { s.island with firmware := true } := by
  simp only [State.booted, State.modTag, State.modIsland_island]

theorem State.booted_host : (s.booted x y).host = { s.host with
    linkUp := true, fns := (List.range 256).map (fun n => (n, { s.fn n with ready := true })) } := by
  simp only [State.booted, State.modTag, State.modIsland_host]

theorem State.booted_flash : (s.booted x y).flash =
    (let useB := copyGood y && (!copyGood x || decide (x.version < y.version))
    { s.flash with
      aValid := copyGood x, bValid := copyGood y, booted := b2n useB, version := if useB then y.version else x.version }) := by
  simp only [State.booted, State.modTag, State.modIsland_flash]

theorem State.booted_tag : (s.booted x y).tag.boots = s.tag.boots + 1 := by
  simp only [State.booted, State.modTag, State.modIsland_tag]

theorem State.booted_mem : (s.booted x y).mem = s.mem := by
  simp only [State.booted, State.modTag, State.modIsland_mem]

theorem State.booted_regs : (s.booted x y).regs = s.regs := by
  simp only [State.booted, State.modTag, State.modIsland_regs]

theorem State.booted_ports : (s.booted x y).ports = s.ports := by
  simp only [State.booted, State.modTag, State.modIsland_ports]

theorem State.booted_portMayRun (p : Nat) :
    (s.booted x y).portMayRun p = (s.modIsland (fun i => { i with firmware := true })).portMayRun p := by
  simp only [State.portMayRun, State.port, s.booted_ports, State.modIsland_ports, s.booted_island, State.modIsland_island,
    State.flag, State.dimOne, State.dim, State.fld, State.rd, State.rawAt, s.booted_regs, State.modIsland_regs]

end

theorem exec_firmwareLoaded_boots {s : State} {x y : FwCopy} (loads : s.power.state = .boot ∧ s.power.bistDone = true)
    (good : copyGood x = true ∨ copyGood y = true) :
    exec (.firmwareLoaded x y) s = .next ((s.booted x y).each (List.range 16) State.startPort) := by
  obtain ⟨boot, done⟩ := loads
  change execFirmwareLoaded x y s = _
  rw [execFirmwareLoaded, if_neg (by simp [boot, done])]
  refine congrArg Host.Outcome.next (if_neg ?_)
  rintro ⟨a, b⟩
  exact good.elim (fun g => Bool.noConfusion (g.symm.trans a)) (fun g => Bool.noConfusion (g.symm.trans b))

theorem firmwareLoaded_fails {s : State} {x y : FwCopy} (loads : s.power.state = .boot ∧ s.power.bistDone = true)
    (badX : copyGood x = false) (badY : copyGood y = false) (fn : Fin 256) : Recovers (.firmwareLoaded x y) s fn := by
  obtain ⟨boot, done⟩ := loads
  let u : State := { s with flash := { s.flash with aValid := copyGood x, bValid := copyGood y } }
  have e : exec (.firmwareLoaded x y) s = .next (u.recovery 1) := by
    change execFirmwareLoaded x y s = _
    rw [execFirmwareLoaded, if_neg (by simp [boot, done])]
    exact congrArg Host.Outcome.next (if_pos ⟨badX, badY⟩)
  exact .of_recovery e rfl rfl fn

theorem exec_firmwareLoaded_idle {s : State} {x y : FwCopy} (h : ¬(s.power.state = .boot ∧ s.power.bistDone = true)) :
    exec (.firmwareLoaded x y) s = .next s := by
  refine congrArg Host.Outcome.next (if_pos ?_)
  by_contra no
  simp only [not_or, Bool.not_eq_false, ne_eq, not_not] at no
  exact h no

theorem firmwareLoaded_boots {s : State} {x y : FwCopy} (loads : s.power.state = .boot ∧ s.power.bistDone = true)
    (good : copyGood x = true ∨ copyGood y = true) (fn : Fin 256) :
    let useB := copyGood y && (!copyGood x || decide (x.version < y.version))
    Gives (.firmwareLoaded x y) s (fun t => t.power.state = .active ∧
      t.island.firmware = true ∧ (t.fn fn).ready = true ∧ t.host.linkUp = true ∧ t.flash.aValid = copyGood x ∧
      t.flash.bValid = copyGood y ∧ t.flash.booted = b2n useB ∧ t.flash.version = (if useB then y.version else x.version) ∧
      t.tag.boots = s.tag.boots + 1 ∧ t.mem = s.mem ∧ t.regs = s.regs ∧
      (∀ p, p < 16 → (s.port p).state = .quiet →
        (s.modIsland (fun i => { i with firmware := true })).portMayRun p = true → (t.port p).state = .detect) ∧
      (∀ p, (s.port p).state ≠ .quiet → t.port p = s.port p)) := by
  intro useB
  obtain ⟨t, e, rest, awake, starts⟩ : ∃ t, exec (.firmwareLoaded x y) s = .next t ∧ SameButTraining (s.booted x y) t ∧
      (∀ p, ((s.booted x y).port p).state ≠ .quiet → t.port p = (s.booted x y).port p) ∧
      (∀ p ∈ List.range 16, ((s.booted x y).port p).state = .quiet → (s.booted x y).portMayRun p = true →
        (t.port p).state = .detect) := by
    obtain ⟨rest, awake, -, starts⟩ := (s.booted x y).eachStartPort_spec (ps := List.range 16) List.nodup_range
    exact ⟨_, exec_firmwareLoaded_boots loads good, rest, awake, starts⟩
  have keeps {β : Type} (π : State → β) (h : ∀ t ports out, π { t with ports := ports, out := out } = π t) : π t = π (s.booted x y) :=
    (congrArg π rest).trans (h _ _ _)
  have port (p : Nat) : (s.booted x y).port p = s.port p := by rw [State.port, s.booted_ports]; rfl
  have ready : ((s.booted x y).fn fn).ready = true := by
    rw [State.fn, s.booted_host, mget, mfind_graph _ (List.mem_range.mpr fn.isLt)]
  refine ⟨t, e, ?_, ?_, ?_, ?_, ?_, ?_, ?_, ?_, ?_, ?_, ?_, fun p small quiet may => ?_, fun p up => ?_⟩
  · exact (keeps (fun t => t.power.state) fun _ _ _ => rfl).trans (by rw [s.booted_power])
  · exact (keeps (fun t => t.island.firmware) fun _ _ _ => rfl).trans (by rw [s.booted_island])
  · exact (keeps (fun t => (t.fn fn).ready) fun _ _ _ => rfl).trans ready
  · exact (keeps (fun t => t.host.linkUp) fun _ _ _ => rfl).trans (by rw [s.booted_host])
  · exact (keeps (fun t => t.flash.aValid) fun _ _ _ => rfl).trans (by rw [s.booted_flash])
  · exact (keeps (fun t => t.flash.bValid) fun _ _ _ => rfl).trans (by rw [s.booted_flash])
  · exact (keeps (fun t => t.flash.booted) fun _ _ _ => rfl).trans (by rw [s.booted_flash])
  · exact (keeps (fun t => t.flash.version) fun _ _ _ => rfl).trans (by rw [s.booted_flash])
  · exact (keeps (fun t => t.tag.boots) fun _ _ _ => rfl).trans (s.booted_tag x y)
  · exact (keeps State.mem fun _ _ _ => rfl).trans (s.booted_mem x y)
  · exact (keeps State.regs fun _ _ _ => rfl).trans (s.booted_regs x y)
  · exact starts p (List.mem_range.mpr small) (by rw [port]; exact quiet) (by rw [s.booted_portMayRun]; exact may)
  · exact (awake p (by rw [port]; exact up)).trans (port p)

/-- Settles O50: each reset rebuilds the device around what it keeps, and each command of the first second acts in its place alone. -/
theorem resetsAndBoot : Obligations.ResetsAndBoot := by
  unfold Obligations.ResetsAndBoot
  intro s strap n id b f x y fn gone recovers tests loads useB
  refine ⟨coldReset_spec s, powerRemoval_spec s, sysRstNAssert_spec, fun off => congrArg Host.Outcome.next (if_neg (by simp [off])),
    fun on low => congrArg Host.Outcome.next (if_pos ⟨on, low⟩), fun h => congrArg Host.Outcome.next (if_neg ?_),
    islandBooted_spec, exec_islandBooted_idle, bistComplete_passes, fun t h => bistComplete_fails t h fn, exec_bistComplete_idle,
    fun l badX badY => firmwareLoaded_fails l badX badY fn, fun l good => firmwareLoaded_boots l good fn, exec_firmwareLoaded_idle⟩
  rintro ⟨on, low⟩
  simp [on, low] at h

end Sys2Proof.Machine
end

section
/-!
PROOF. The port's control registers (08 R213, R226, R231 to R234). Settles O19.
-/
namespace Sys2Proof.Machine

/-! ### Fields of a register -/

/-- Setting a field leaves the bits beside it. -/
theorem testBit_setBits {hi lo : Nat} (h : lo ≤ hi) (x v n : Nat) :
    (setBits x hi lo v).testBit n = if lo ≤ n ∧ n ≤ hi then v.testBit (n - lo) else x.testBit n := by
  obtain ⟨w, rfl⟩ : ∃ w, hi = lo + w := ⟨hi - lo, by omega⟩
  have width : lo + w + 1 - lo = w + 1 := by omega
  have split : 2 ^ lo * (x / 2 ^ lo) + x % 2 ^ lo = x := Nat.div_add_mod ..
  have field : 2 ^ (w + 1) * (x / 2 ^ lo / 2 ^ (w + 1)) + x / 2 ^ lo % 2 ^ (w + 1) = x / 2 ^ lo := Nat.div_add_mod ..
  have low : x % 2 ^ lo < 2 ^ lo := Nat.mod_lt _ (by positivity)
  have set : setBits x (lo + w) lo v = 2 ^ lo * (2 ^ (w + 1) * (x / 2 ^ lo / 2 ^ (w + 1)) + v % 2 ^ (w + 1)) + x % 2 ^ lo := by
    have parts : x = 2 ^ lo * (2 ^ (w + 1) * (x / 2 ^ lo / 2 ^ (w + 1))) + x / 2 ^ lo % 2 ^ (w + 1) * 2 ^ lo + x % 2 ^ lo := by
      rw [Nat.mul_comm (x / 2 ^ lo % 2 ^ (w + 1)), ← Nat.mul_add, field, split]
    simp only [setBits, bits, width]
    rw [Nat.mul_add, Nat.mul_comm (v % 2 ^ (w + 1))]
    omega
  rw [set, Nat.testBit_two_pow_mul_add _ low, Nat.testBit_two_pow_mul_add _ (Nat.mod_lt _ (by positivity)),
    Nat.testBit_mod_two_pow, Nat.testBit_mod_two_pow]
  by_cases below : n < lo
  · rw [if_pos below, if_neg (by omega), decide_eq_true below, Bool.true_and]
  · rw [if_neg below]
    by_cases within : n - lo < w + 1
    · rw [if_pos within, if_pos (by omega), decide_eq_true within, Bool.true_and]
    · rw [if_neg within, if_neg (by omega), Nat.testBit_div_two_pow, Nat.testBit_div_two_pow]
      congr 1
      omega

theorem bit_setBits {hi lo : Nat} (h : lo ≤ hi) (x v n : Nat) :
    bit (setBits x hi lo v) n = if lo ≤ n ∧ n ≤ hi then bit v (n - lo) else bit x n := by
  simp only [bit_eq_testBit, testBit_setBits h]

theorem bit_w32 (x : Nat) {n : Nat} (h : n < 32) : bit (w32 x).toNat n = bit x n := by
  have low : (w32 x).toNat = x % 2 ^ 32 := BitVec.toNat_ofNat ..
  rw [low, bit_eq_testBit, Nat.testBit_mod_two_pow, decide_eq_true h, Bool.true_and, ← bit_eq_testBit]

/-- PRT.CTL's fields as a write of one of them leaves them. -/
def ctlWith (ctl hi lo v : Nat) : Nat := (w32 (setBits ctl hi lo v)).toNat &&& 0x37

/-- A field of PRT.CTL that is set takes its value, and the others stay. -/
theorem bit_ctlWith {hi lo n : Nat} (h : lo ≤ hi) (field : n < 32 ∧ bit 0x37 n = true) (ctl v : Nat) :
    bit (ctlWith ctl hi lo v) n = if lo ≤ n ∧ n ≤ hi then bit v (n - lo) else bit ctl n := by
  obtain ⟨small, kept⟩ := field
  rw [ctlWith, bit_eq_testBit, Nat.testBit_and, ← bit_eq_testBit, ← bit_eq_testBit, kept, Bool.and_true, bit_w32 _ small,
    bit_setBits h]

theorem ctlWith_lt (ctl hi lo v : Nat) : ctlWith ctl hi lo v < 2 ^ 32 := Nat.and_lt_two_pow _ (by decide)

/-! ### Writes of a port's registers -/

/-- A storing register of the PRT page, and its definition. -/
def PortReg (r : Reg) (d : RegDef) : Prop :=
  r.page = .prt ∧ 0x40 ≤ r.off ∧ regAt r.page r.off = some d ∧ Storing d

/-- The definition of an RW register of the PRT page with fields `mask`. -/
def prtDef (off reset mask : Nat) : RegDef := ⟨off, 1, 4, .rw, reset, mask, mask, 0x0, .none, false⟩

theorem prtCtl_portReg : PortReg R.prtCtl (prtDef 0x40 1 0x37) := by simp only [PortReg, Storing]; decide

theorem prtPrbsCtl_portReg : PortReg R.prtPrbsCtl (prtDef 0xC0 0 0xFFFF) := by simp only [PortReg, Storing]; decide

theorem prtSpcCtl_portReg : PortReg R.prtSpcCtl (prtDef 0xD4 0 0x1) := by simp only [PortReg, Storing]; decide

section
variable {s : State} {p : Path} {i : Fin 16} {r : Reg} {d : RegDef} {v : Nat}

theorem State.put_port (hr : PortReg r d) (hw : Writes s p r i) (hl : Unlocked s r i)
    (hv : s.valueBad r.page i r.off (w32 v).toNat = false) : s.put p r v i = s.stores r.page i r.off d (w32 v).toNat := by
  obtain ⟨prt, h40, reg, hd⟩ := hr
  have reaches := hw.reaches h40 reg
  refine State.put_ok reaches hw.1 ?_
  rw [State.writeReg_storing (off := r.off) (regAddr_off reaches) hd (.inl (by simp [prt])) hl,
    State.writeRw_stores hd (.inl (by simp [prt])) (by simp [prt]) hv]
  rfl

theorem State.put_port_refused (hr : PortReg r d) (hw : Writes s p r i) (hl : Unlocked s r i)
    (hv : s.valueBad r.page i r.off (w32 v).toNat = true) : s.put p r v i = s.refuses p r.page i r.off 0x10 := by
  obtain ⟨prt, h40, reg, hd⟩ := hr
  have reaches := hw.reaches h40 reg
  have wrote : s.writeReg p r.page i (regAddr r i 0) d (w32 v).toNat = s.refuseWrite p (pageNo r.page i) (regAddr r i 0) 0x10 := by
    rw [State.writeReg_storing (off := r.off) (regAddr_off reaches) hd (.inl (by simp [prt])) hl,
      State.writeRw_refused (by simp [prt]) (by simp [prt]) hv]
    rfl
  rw [State.put_refused reaches hw.1 wrote]
  simp [State.refuses, State.refusesAt, pageAddr, regAddr]

end

/-! ### PRT.CTL (R213, R226, R231, R233) -/

section
variable {s : State} {p : Path} {i : Fin 16} {hi lo v : Nat}

/-- The state with PRT.CTL stored. -/
def State.ctlStored (s : State) (i : Fin 16) (new : Nat) : State := s.setRaw .prt i 0x40 0 new

theorem State.ctlStored_rd (s : State) (i : Fin 16) {new : Nat} (h : new < 2 ^ 32) : (s.ctlStored i new).rd R.prtCtl i = new := by
  have stored : (s.ctlStored i new).rd R.prtCtl i = new % 2 ^ 32 := State.setRaw_rawAt ..
  rw [stored, Nat.mod_eq_of_lt h]

theorem State.ctlStored_dimOne (s : State) (i : Fin 16) (new : Nat) : (s.ctlStored i new).dimOne i = s.dimOne i := by
  have dims : (s.ctlStored i new).rd R.spnDims = s.rd R.spnDims := by
    refine State.setRaw_rawAt_ne s new ?_
    simp only [regKey, R.spnDims, pageNo]
    omega
  simp only [State.dimOne, State.dim, State.fld, dims]

/-- What follows a write of PRT.CTL is at once. -/
theorem State.stores_ctl (s : State) (i : Fin 16) (v : Nat) :
    s.stores .prt i 0x40 (prtDef 0x40 1 0x37) v = (s.ctlStored i (v &&& 0x37)).portCtl i (s.rd R.prtCtl i) := by
  have atOnce (u : State) : u.deferred .prt i 0x40 0 = u := if_pos (by decide)
  rw [State.stores, atOnce]
  rfl

/-- A field of PRT.CTL is written, where the value is one that the port takes. -/
theorem State.putField_ctl (hw : Writes s p R.prtCtl i) (hl : Unlocked s R.prtCtl i)
    (hv : (bit (w32 (setBits (s.rd R.prtCtl i) hi lo v)).toNat 2 && !s.flag R.prtCtl 2 i && s.testRefused i) = false) :
    s.putField p R.prtCtl hi lo v i =
      (s.ctlStored i (ctlWith (s.rd R.prtCtl i) hi lo v)).portCtl i (s.rd R.prtCtl i) := by
  rw [State.putField, State.put_port prtCtl_portReg hw hl hv]
  exact s.stores_ctl i _

/-- A write that leaves `test` as it stands is taken. -/
theorem State.putField_ctl_untested (hw : Writes s p R.prtCtl i) (hl : Unlocked s R.prtCtl i) (h : lo ≤ hi)
    (beside : ¬(lo ≤ 2 ∧ 2 ≤ hi)) : s.putField p R.prtCtl hi lo v i =
      (s.ctlStored i (ctlWith (s.rd R.prtCtl i) hi lo v)).portCtl i (s.rd R.prtCtl i) := by
  refine State.putField_ctl hw hl ?_
  rw [bit_w32 _ (by decide), bit_setBits h, if_neg beside, State.flag]
  cases bit (s.rd R.prtCtl i) 2 <;> rfl

section
variable {old new : Nat} (small : new < 2 ^ 32)
include small

/-- Where neither `laser_off` is newly set nor `enable` changes nothing follows. -/
theorem State.portCtl_same (laser : bit new 1 = true → bit old 1 = true) (enable : bit new 0 = bit old 0) :
    (s.ctlStored i new).portCtl i old = s.ctlStored i new := by
  have laserSame : (bit new 1 && !bit old 1) = false := by
    cases on : bit new 1
    · rfl
    · rw [laser on]; rfl
  simp only [State.portCtl, s.ctlStored_rd i small, laserSame, enable, bne_self_eq_false, Bool.false_eq_true, if_false]

theorem State.portCtl_laser (on : bit new 1 = true) (off : bit old 1 = false) (enable : bit new 0 = bit old 0) :
    (s.ctlStored i new).portCtl i old = (s.ctlStored i new).optOff i := by
  simp only [State.portCtl, s.ctlStored_rd i small, on, off, enable, bne_self_eq_false, Bool.false_eq_true, if_false, Bool.not_false,
    Bool.and_self, if_true]

theorem State.portCtl_enable (laser : bit new 1 = bit old 1) (enable : bit new 0 ≠ bit old 0) :
    (s.ctlStored i new).portCtl i old = (s.ctlStored i new).portEnable i (bit new 0) := by
  have laserSame : (bit old 1 && !bit old 1) = false := Bool.and_not_self _
  simp only [State.portCtl, s.ctlStored_rd i small, laser, laserSame, Bool.false_eq_true, if_false]
  exact if_pos (bne_iff_ne.mpr enable)

end

theorem SameButPorts.sameArray {s t : State} (h : SameButPorts s t) : SameArray s t := by
  obtain ⟨-, -, image, clusters, -, -, -, -, -, -, -, -, mem, -, -, -⟩ := h
  exact ⟨mem, clusters, image⟩

/-- An engine's trip leaves PRT.CTL. -/
theorem State.optOff_ctl (s : State) (i : Fin 16) : (s.optOff i).rd R.prtCtl i = s.rd R.prtCtl i := by
  by_cases off : (s.port i).opt = .off
  · rw [State.optOff_off off]
  · rw [State.optOff_trips off]
    refine ((State.event_sameAbove _ .prt i 3).rawAt .prt i 0 (off := 0x40) (by decide) (by decide)).trans
      ((State.cnt_rawAt_ne _ ?_).trans rfl)
    simp only [regKey, R.prtOptTrip]
    omega

/-! ### Setting and clearing `enable` (R213) -/

/-- A port whose `enable` is cleared is QUIET, with nothing of its link kept. -/
theorem State.portEnable_off (s : State) (i : Fin 16) : let t := s.portEnable i false
    (t.port i).state = .quiet ∧ (t.port i).seqs = [] ∧ (t.port i).secure.fences = 0 ∧ OnlyPort s t i ∧ SameArray s t ∧
      t.rd R.prtCtl i = s.rd R.prtCtl i := by
  intro t
  let u := s.modPort i (fun y => { y with secure := { y.secure with fences := 0 }, fecLock := false, signal := 0 })
  have t_eq : t = (u.dropLink i).portState i .quiet := if_neg Bool.false_ne_true
  have before : u.port i = { s.port i with
    secure := { (s.port i).secure with fences := 0 }, fecLock := false, signal := 0 } := State.modPort_self ..
  have port : t.port i = { (u.port i).unlinked with state := .quiet } := by
    rw [t_eq, State.portState_port, State.dropLink_eq, State.modPort_self]
  have only : OnlyPort s t i := by
    rw [t_eq]
    exact ((s.modPort_onlyPort i _).trans (u.modPort_onlyPort i Port.unlinked)).trans (State.portState_onlyPort _ i .quiet)
  have same : SameButPorts s t := by
    rw [t_eq]
    exact ((s.modPort_sameButPorts i _).trans (u.dropLink_sameButPorts i)).trans (State.portState_sameButPorts _ i .quiet)
  refine ⟨by rw [port], by rw [port]; rfl, by rw [port, before]; rfl, only, same.sameArray, ?_⟩
  rw [t_eq]
  exact (u.dropLink i).portState_rd i .quiet (r := R.prtCtl) (by decide) (by decide) i

/-- A port whose `enable` is set begins DETECT, where it is quiet and may run. -/
theorem State.portEnable_on {t : State} {i : Fin 16} (quiet : (t.port i).state = .quiet) (may : t.portMayRun i = true) :
    t.portEnable i true = t.toDetect i := (if_pos rfl).trans (if_pos ⟨quiet, may⟩)

theorem State.portEnable_rests {t : State} {i : Fin 16} (h : ¬((t.port i).state = .quiet ∧ t.portMayRun i = true)) :
    t.portEnable i true = t := (if_pos rfl).trans (if_neg h)

/-- A port may run once `enable` is stored. -/
theorem State.ctlStored_mayRun {new : Nat} (small : new < 2 ^ 32) (enable : bit new 0 = true) :
    (s.ctlStored i new).portMayRun i = true ↔ (s.port i).started = true ∧ s.dimOne i = false ∧ (s.port i).ethernet = false ∧
      s.island.firmware = true := by
  rw [State.portMayRun_iff, State.ctlStored_dimOne, State.flag, s.ctlStored_rd i small, enable]
  exact and_iff_right rfl

theorem laserOff_sets (hw : Writes s p R.prtCtl i) (hl : Unlocked s R.prtCtl i) (off : bit (s.rd R.prtCtl i) 1 = false) :
    Gives (.laserOff p i true) s (fun t => t.rd R.prtCtl i = ctlWith (s.rd R.prtCtl i) 1 1 1 ∧ (t.port i).opt = .off ∧
      OnlyPort s t i ∧ SameArray s t) := by
  let u := s.ctlStored i (ctlWith (s.rd R.prtCtl i) 1 1 1)
  have e : exec (.laserOff p i true) s = .next (u.optOff i) := by
    refine congrArg Host.Outcome.next ((State.putField_ctl_untested hw hl le_rfl (by decide)).trans ?_)
    exact State.portCtl_laser (ctlWith_lt ..) (bit_ctlWith le_rfl (by decide) _ _) off (bit_ctlWith le_rfl (by decide) _ _)
  refine ⟨_, e, (u.optOff_ctl i).trans (s.ctlStored_rd i (ctlWith_lt ..)), ?_, u.optOff_onlyPort i,
    (u.optOff_sameButPorts i).sameArray⟩
  rw [State.optOff_self]

theorem portEnable_clears (hw : Writes s p R.prtCtl i) (hl : Unlocked s R.prtCtl i) (on : bit (s.rd R.prtCtl i) 0 = true) :
    Gives (.portEnable p i false) s (fun t => t.rd R.prtCtl i = ctlWith (s.rd R.prtCtl i) 0 0 0 ∧
      (t.port i).state = .quiet ∧ (t.port i).seqs = [] ∧ (t.port i).secure.fences = 0 ∧ OnlyPort s t i ∧ SameArray s t) := by
  let u := s.ctlStored i (ctlWith (s.rd R.prtCtl i) 0 0 0)
  have cleared : bit (ctlWith (s.rd R.prtCtl i) 0 0 0) 0 = false := bit_ctlWith le_rfl (by decide) _ _
  have e : exec (.portEnable p i false) s = .next (u.portEnable i false) := by
    refine congrArg Host.Outcome.next ((State.putField_ctl_untested hw hl le_rfl (by decide)).trans ?_)
    change u.portCtl i _ = _
    rw [State.portCtl_enable (ctlWith_lt ..) (bit_ctlWith le_rfl (by decide) _ _) (by rw [cleared, on]; decide), cleared]
  obtain ⟨state, seqs, fences, only, array, ctl⟩ := u.portEnable_off i
  exact ⟨_, e, ctl.trans (s.ctlStored_rd i (ctlWith_lt ..)), state, seqs, fences, only, array⟩

theorem portEnable_rests (hw : Writes s p R.prtCtl i) (hl : Unlocked s R.prtCtl i) {on : Bool}
    (h : bit (s.rd R.prtCtl i) 0 = on ∨ (on = true ∧ ((s.port i).state ≠ .quiet ∨ (s.port i).started = false ∨ s.dimOne i = true ∨
      (s.port i).ethernet = true ∨ s.island.firmware = false))) :
    exec (.portEnable p i on) s = .next (s.ctlStored i (ctlWith (s.rd R.prtCtl i) 0 0 (b2n on))) := by
  have enable : bit (ctlWith (s.rd R.prtCtl i) 0 0 (b2n on)) 0 = on :=
    (bit_ctlWith le_rfl (by decide) _ _).trans (by cases on <;> rfl)
  have laser : bit (ctlWith (s.rd R.prtCtl i) 0 0 (b2n on)) 1 = bit (s.rd R.prtCtl i) 1 := bit_ctlWith le_rfl (by decide) _ _
  refine congrArg Host.Outcome.next ((State.putField_ctl_untested hw hl le_rfl (by decide)).trans ?_)
  by_cases same : bit (s.rd R.prtCtl i) 0 = on
  · exact State.portCtl_same (ctlWith_lt ..) (fun on => laser ▸ on) (enable.trans same.symm)
  · obtain ⟨rfl, rests⟩ := h.resolve_left same
    rw [State.portCtl_enable (ctlWith_lt ..) laser (by rw [enable]; exact Ne.symm same), enable]
    refine State.portEnable_rests ?_
    rintro ⟨quiet, may⟩
    obtain ⟨started, dims, mode, firmware⟩ := (State.ctlStored_mayRun (ctlWith_lt ..) enable).mp may
    have quiet : (s.port i).state = .quiet := quiet
    simp [quiet, started, dims, mode, firmware] at rests

theorem portEnable_starts (hw : Writes s p R.prtCtl i) (hl : Unlocked s R.prtCtl i) (off : bit (s.rd R.prtCtl i) 0 = false)
    (quiet : (s.port i).state = .quiet) (started : (s.port i).started = true) (dims : s.dimOne i = false)
    (mode : (s.port i).ethernet = false) (firmware : s.island.firmware = true) :
    Gives (.portEnable p i true) s (fun t => t.rd R.prtCtl i = ctlWith (s.rd R.prtCtl i) 0 0 1 ∧ (t.port i).state = .detect ∧
      (t.port i).partner = none ∧ OnlyPort s t i ∧ SameArray s t ∧ (s.lit i = true → ∀ l, l < 12 →
        Out.training i l (cwMake l i s.self 0 0 0 false (bit (s.rd R.prtCtl i) 2)) ∈ t.out)) := by
  let u := s.ctlStored i (ctlWith (s.rd R.prtCtl i) 0 0 1)
  have stored : u.rd R.prtCtl i = ctlWith (s.rd R.prtCtl i) 0 0 1 := s.ctlStored_rd i (ctlWith_lt ..)
  have enable : bit (ctlWith (s.rd R.prtCtl i) 0 0 1) 0 = true := bit_ctlWith le_rfl (by decide) _ _
  have may : u.portMayRun i = true := (State.ctlStored_mayRun (ctlWith_lt ..) enable).mpr ⟨started, dims, mode, firmware⟩
  have e : exec (.portEnable p i true) s = .next (u.toDetect i) := by
    refine congrArg Host.Outcome.next ((State.putField_ctl_untested hw hl le_rfl (by decide)).trans ?_)
    change u.portCtl i _ = _
    rw [State.portCtl_enable (ctlWith_lt ..) (bit_ctlWith le_rfl (by decide) _ _) (by rw [enable, off]; decide), enable]
    exact State.portEnable_on (t := u) quiet may
  have down : (u.port i).state ≠ .up := by
    change (s.port i).state ≠ .up
    rw [quiet]
    decide
  obtain ⟨state, partner, -, -, -, -, only, same, trains⟩ := State.toDetect_detects down
  have test : u.flag R.prtCtl 2 i = bit (s.rd R.prtCtl i) 2 := by
    rw [State.flag, stored]
    exact bit_ctlWith le_rfl (by decide) _ _
  rw [test] at trains
  exact ⟨_, e, ((u.toDetect_sameAbove i).rawAt .prt i 0 (off := 0x40) (by decide) (by decide)).trans stored, state, partner, only,
    same.sameArray, trains⟩

theorem exec_test_sets (hw : Writes s p R.prtCtl i) (hl : Unlocked s R.prtCtl i) {on : Bool}
    (h : on = false ∨ bit (s.rd R.prtCtl i) 2 = true ∨ s.testRefused i = false) :
    exec (.test p i on) s = .next (s.ctlStored i (ctlWith (s.rd R.prtCtl i) 2 2 (b2n on))) := by
  have test : bit (w32 (setBits (s.rd R.prtCtl i) 2 2 (b2n on))).toNat 2 = on := by
    rw [bit_w32 _ (by decide), bit_setBits le_rfl]
    cases on <;> rfl
  refine congrArg Host.Outcome.next ((State.putField_ctl hw hl ?_).trans ?_)
  · rw [test, State.flag]
    obtain h | h | h := h <;> simp [h]
  · exact State.portCtl_same (ctlWith_lt ..) (fun on => (bit_ctlWith le_rfl (by decide) _ _).symm.trans on)
      (bit_ctlWith le_rfl (by decide) _ _)

theorem exec_test_refused (hw : Writes s p R.prtCtl i) (hl : Unlocked s R.prtCtl i) (off : bit (s.rd R.prtCtl i) 2 = false)
    (refused : s.testRefused i = true) : exec (.test p i true) s = .next (s.refuses p .prt i 0x40 0x10) := by
  refine congrArg Host.Outcome.next (State.put_port_refused prtCtl_portReg hw hl ?_)
  change (bit (w32 (setBits (s.rd R.prtCtl i) 2 2 1)).toNat 2 && !s.flag R.prtCtl 2 i && s.testRefused i) = true
  rw [bit_w32 _ (by decide), bit_setBits le_rfl, State.flag, off, refused]
  rfl

theorem exec_loopback_sets (hw : Writes s p R.prtCtl i) (hl : Unlocked s R.prtCtl i) (sel : Fin 4) :
    exec (.loopback p i sel) s = .next (s.ctlStored i (ctlWith (s.rd R.prtCtl i) 5 4 sel)) := by
  refine congrArg Host.Outcome.next ((State.putField_ctl_untested hw hl (by decide) (by decide)).trans ?_)
  exact State.portCtl_same (ctlWith_lt ..) (fun on => (bit_ctlWith (by decide) (by decide) _ _).symm.trans on)
    (bit_ctlWith (by decide) (by decide) _ _)

theorem exec_laserOff_clears (hw : Writes s p R.prtCtl i) (hl : Unlocked s R.prtCtl i) :
    exec (.laserOff p i false) s = .next (s.ctlStored i (ctlWith (s.rd R.prtCtl i) 1 1 0)) := by
  refine congrArg Host.Outcome.next ((State.putField_ctl_untested hw hl le_rfl (by decide)).trans ?_)
  have cleared : bit (ctlWith (s.rd R.prtCtl i) 1 1 0) 1 = false := bit_ctlWith le_rfl (by decide) _ _
  exact State.portCtl_same (ctlWith_lt ..) (fun on => absurd (cleared.symm.trans on) (by decide)) (bit_ctlWith le_rfl (by decide) _ _)

end

/-! ### PRBS_CTL.restart (R232) -/

/-- A lane's checker is unlocked, and has checked no bits. -/
def LaneCleared (s : State) (p l : Nat) : Prop :=
  ((s.port p).lane l).prbsLock = false ∧ s.rd R.prtPrbsBitsLo p l = 0 ∧ s.rd R.prtPrbsBitsHi p l = 0

/-- Storing 0 leaves a register that holds 0 at 0. -/
theorem State.setRaw_zero {s : State} {q : PageType} {j u c : Nat} (h : s.rawAt q j u c = 0) (p : PageType) (i o b : Nat) :
    (s.setRaw p i o b 0).rawAt q j u c = 0 := by
  by_cases key : regKey (pageNo q j) u c = regKey (pageNo p i) o b
  · simp [State.rawAt, State.setRaw, key, w32]
  · exact (State.setRaw_rawAt_ne s 0 key).trans h

/-- The restart of one lane's checker. -/
def State.laneRestart (s : State) (p l : Nat) : State :=
  ((s.wr R.prtPrbsBitsLo 0 p l).wr R.prtPrbsBitsHi 0 p l).modLane p l (fun k => { k with prbsLock := false })

theorem State.laneRestart_clears (s : State) (p l : Nat) : LaneCleared (s.laneRestart p l) p l := by
  refine ⟨?_, State.setRaw_zero (s := s.wr R.prtPrbsBitsLo 0 p l) ((s.wr_rd R.prtPrbsBitsLo 0 p l 0).trans rfl) _ _ _ _,
    (State.wr_rd (s.wr R.prtPrbsBitsLo 0 p l) R.prtPrbsBitsHi 0 p l 0).trans rfl⟩
  rw [State.laneRestart, State.modLane_lane, if_pos rfl]

theorem LaneCleared.laneRestart {s : State} {p k : Nat} (h : LaneCleared s p k) (l : Nat) : LaneCleared (s.laneRestart p l) p k := by
  obtain ⟨lock, lo, hi⟩ := h
  refine ⟨?_, State.setRaw_zero (State.setRaw_zero lo _ _ _ _) _ _ _ _, State.setRaw_zero (State.setRaw_zero hi _ _ _ _) _ _ _ _⟩
  rw [State.laneRestart, State.modLane_lane]
  split
  · rfl
  · exact lock

/-- Every lane of a list is cleared, and beside the lanes only the counts change. -/
theorem State.eachLaneRestart_spec (p : Nat) (ls : List Nat) (s : State) :
    let t := s.each ls (fun t l => t.laneRestart p l)
    (∀ k, k ∈ ls ∨ LaneCleared s p k → LaneCleared t p k) ∧ OnlyPort s t p ∧ SameArray s t := by
  induction ls generalizing s with
  | nil => exact ⟨fun k h => h.resolve_left List.not_mem_nil, .refl s p, rfl, rfl, rfl⟩
  | cons l ls ih =>
    obtain ⟨clears, only, array⟩ := ih (s.laneRestart p l)
    have first : OnlyPort s (s.laneRestart p l) p :=
      State.modPort_onlyPort ((s.wr R.prtPrbsBitsLo 0 p l).wr R.prtPrbsBitsHi 0 p l) p _
    refine ⟨fun k h => clears k ?_, first.trans only, array⟩
    by_cases e : k = l
    · subst e
      exact .inr (s.laneRestart_clears p k)
    · exact h.imp (fun h => (List.mem_cons.mp h).resolve_left e) fun h => h.laneRestart l

theorem State.prbsRestart_clears (s : State) (p : Nat) :
    (∀ l, l < 12 → LaneCleared (s.prbsRestart p) p l) ∧ OnlyPort s (s.prbsRestart p) p ∧ SameArray s (s.prbsRestart p) := by
  obtain ⟨clears, only, array⟩ := State.eachLaneRestart_spec p (List.range 12) s
  exact ⟨fun l small => clears l (.inl (List.mem_range.mpr small)), only, array⟩

/-- The bits of PRBS_CTL with `restart` set. -/
def restartSet (ctl : Nat) : Nat := (w32 (setBits ctl 16 16 1)).toNat

theorem restart_set (ctl : Nat) : bit (restartSet ctl) 16 = true := by
  rw [restartSet, bit_w32 _ (by decide), bit_setBits le_rfl]
  rfl

/-- `restart` is not stored: it clears the bits checked. -/
theorem State.stores_prbsCtl (s : State) (i : Fin 16) {v : Nat} (restart : bit v 16 = true) :
    s.stores .prt i 0xC0 (prtDef 0xC0 0 0xFFFF) v = (s.setRaw .prt i 0xC0 0 (v &&& 0xFFFF)).prbsRestart i := by
  have atOnce (t : State) : t.deferred .prt i 0xC0 0 = t := if_pos (by decide)
  rw [State.stores, atOnce]
  exact if_pos restart

theorem prbsRestart_spec {s : State} {p : Path} {i : Fin 16} (hw : Writes s p R.prtPrbsCtl i) (hl : Unlocked s R.prtPrbsCtl i) :
    Gives (.prbsRestart p i) s (fun t =>
      (∀ l, l < 12 → ((t.port i).lane l).prbsLock = false ∧ t.rd R.prtPrbsBitsLo i l = 0 ∧ t.rd R.prtPrbsBitsHi i l = 0) ∧
        OnlyPort s t i ∧ SameArray s t) := by
  have e : exec (.prbsRestart p i) s = .next ((s.setRaw .prt i 0xC0 0 (restartSet (s.rd R.prtPrbsCtl i) &&& 0xFFFF)).prbsRestart i) :=
    congrArg Host.Outcome.next ((State.put_port prtPrbsCtl_portReg hw hl rfl).trans (State.stores_prbsCtl s i (restart_set _)))
  exact ⟨_, e, State.prbsRestart_clears _ i⟩

/-! ### SPC_CTL (R234) -/

/-- When SPC_CTL's value comes into force. -/
theorem State.deferred_spc (u : State) (i : Fin 16) : u.deferred .prt i 0xD4 0 = match u.tick.state with
    | .idle => u.takeAll
    | .hold => { u with eff := mput u.eff (regKey (pageNo .prt i) 0xD4 0) (w32 (u.rawAt .prt i 0xD4 0)) }
    | _ => u := by
  refine (if_neg (by decide)).trans ?_
  cases u.tick.state <;> simp

/-- No seal stores into SPC_CTL. -/
theorem State.takeAll_spc (u : State) (i : Fin 16) : u.takeAll.rawAt .prt i 0xD4 0 = u.rawAt .prt i 0xD4 0 := by
  have kept : mfind u.takeAll.regs (regKey (pageNo .prt i) 0xD4 0) = mfind u.regs (regKey (pageNo .prt i) 0xD4 0) := by
    refine u.takeAll_mfind fun r hr => ?_
    simp only [sealStores, List.mem_cons, List.not_mem_nil, or_false] at hr
    obtain rfl | rfl | rfl | rfl := hr
    all_goals
      simp only [Reg.key, R.spnRole, R.tckLen, R.tckRepair, R.tckFreeTotal, regKey, pageNo, pageCode]
      omega
  simp only [State.rawAt, kept]

/-- SPC_CTL is stored at once. It is in force at once in HOLD, and waits for a seal in RUN and in STRETCH (R33, R450). -/
theorem spcEnable_spec {s : State} {p : Path} {i : Fin 16} (hw : Writes s p R.prtSpcCtl i) (hl : Unlocked s R.prtSpcCtl i) (on : Bool) :
    Gives (.spcEnable p i on) s (fun t => t.rd R.prtSpcCtl i = b2n on ∧ (s.deferring = true → t.eff = s.eff) ∧
      (s.tick.state = .hold → t.inForce R.prtSpcCtl 0 i = b2n on)) := by
  let u := s.setRaw .prt i 0xD4 0 (b2n on)
  have value : (w32 (b2n on)).toNat &&& 1 = b2n on := by cases on <;> rfl
  have stored : u.rawAt .prt i 0xD4 0 = b2n on := (State.setRaw_rawAt ..).trans (by cases on <;> rfl)
  have stores : s.stores .prt i 0xD4 (prtDef 0xD4 0 1) (w32 (b2n on)).toNat = u.deferred .prt i 0xD4 0 := by
    rw [State.stores, State.afterWrite_same _ (by decide)]
    exact congrArg (fun n => (s.setRaw .prt i 0xD4 0 n).deferred .prt i 0xD4 0) value
  have e : exec (.spcEnable p i on) s = .next (u.deferred .prt i 0xD4 0) :=
    congrArg Host.Outcome.next ((State.put_port prtSpcCtl_portReg hw hl rfl).trans stores)
  have comes : u.deferred .prt i 0xD4 0 = match s.tick.state with
      | .idle => u.takeAll
      | .hold => { u with eff := mput u.eff (regKey (pageNo .prt i) 0xD4 0) (w32 (b2n on)) }
      | _ => u := by
    rw [← stored]
    exact u.deferred_spc i
  rw [comes] at e
  refine ⟨_, e, ?_, fun waits => ?_, fun hold => ?_⟩
  · cases s.tick.state
    case idle => exact (u.takeAll_spc i).trans stored
    all_goals exact stored
  · cases state : s.tick.state
    case run | stretch => rfl
    all_goals simp [State.deferring, state] at waits
  · rw [hold]
    simp only [State.inForce, R.prtSpcCtl, Nat.mul_zero, Nat.add_zero, mfind_mput_self]
    cases on <;> rfl

/-- Settles O19: each command writes one field, and what follows is what its register's write does. -/
theorem portControls : Obligations.PortControls := by
  unfold Obligations.PortControls
  intro s p i on sel ctl new
  exact ⟨fun hw hl => ⟨exec_test_sets hw hl, exec_test_refused hw hl, exec_loopback_sets hw hl sel, exec_laserOff_clears hw hl,
    laserOff_sets hw hl, portEnable_clears hw hl, portEnable_rests hw hl, portEnable_starts hw hl⟩, prbsRestart_spec,
    fun hw hl => spcEnable_spec hw hl on⟩

end Sys2Proof.Machine
end

section
/-!
PROOF. The detour and revocation registers, WLD.CMD and WLD.REFILL (09 R255, R264; 10 R265, R271, R282, R286). Settles O20.
-/
namespace Sys2Proof.Machine

/-! ### FAB.CTL and FAB.REVOKE_CNT (R255, R264) -/

/-- A storing register of the FAB page, and its definition. -/
def FabReg (r : Reg) (d : RegDef) : Prop := r.page = .fab ∧ Reaches r 0 0 d ∧ Storing d

/-- The definition of an RW register of the FAB page with fields `mask`. -/
def fabDef (off mask : Nat) : RegDef := ⟨off, 1, 4, .rw, 0x0, mask, mask, 0x0, .none, false⟩

theorem fabCtl_fabReg : FabReg R.fabCtl (fabDef 0x40 0xF) := by simp only [FabReg, Reaches, Storing]; decide

theorem fabRevokeCnt_fabReg : FabReg R.fabRevokeCnt (fabDef 0xA4 0x1FF) := by simp only [FabReg, Reaches, Storing]; decide

section
variable {s : State} {p : Path} {r : Reg} {d : RegDef} {v : Nat}

theorem State.put_fab (hr : FabReg r d) (hw : Writes s p r) (hl : Unlocked s r)
    (hv : s.valueBad r.page 0 r.off (w32 v).toNat = false) : s.put p r v = s.stores r.page 0 r.off d (w32 v).toNat := by
  obtain ⟨fab, reaches, hd⟩ := hr
  refine State.put_ok reaches hw.1 ?_
  rw [State.writeReg_storing (off := r.off) (regAddr_off reaches) hd (.inl (by simp [fab])) hl,
    State.writeRw_stores hd (.inl (by simp [fab])) (by simp [fab]) hv]
  rfl

theorem State.put_fab_refused (hr : FabReg r d) (hw : Writes s p r) (hl : Unlocked s r)
    (hv : s.valueBad r.page 0 r.off (w32 v).toNat = true) : s.put p r v = s.refuses p r.page 0 r.off 0x10 := by
  obtain ⟨fab, reaches, hd⟩ := hr
  have wrote : s.writeReg p r.page 0 (regAddr r 0 0) d (w32 v).toNat = s.refuseWrite p (pageNo r.page 0) (regAddr r 0 0) 0x10 := by
    rw [State.writeReg_storing (off := r.off) (regAddr_off reaches) hd (.inl (by simp [fab])) hl,
      State.writeRw_refused (by simp [fab]) (by simp [fab]) hv]
    rfl
  rw [State.put_refused reaches hw.1 wrote]
  simp [State.refuses, State.refusesAt, pageAddr, regAddr]

end

/-- Where a seal is to come, a value that waits for it is only stored (R33). -/
theorem State.deferred_deferring {s : State} (h : s.deferring = true) (t : PageType) (i off bank : Nat) :
    s.deferred t i off bank = s := by
  have waits : s.tick.state = .run ∨ s.tick.state = .stretch := by simpa [State.deferring] using h
  obtain h | h := waits <;> simp [State.deferred, h]

theorem kept_fabCtl : ∀ sel : Fin 16, kept .fab 0x40 (sel.val &&& 0xF) % 2 ^ 32 = sel := by decide

/-- A detour within the group's eight is stored, and is in force from a seal on (R255). -/
theorem detourSelect_spec {s : State} {p : Path} {sel : Fin 16} (hw : Writes s p R.fabCtl) (hl : Unlocked s R.fabCtl)
    (h : sel.val ≤ 8) : Gives (.detourSelect p sel) s (fun t =>
      t.rd R.fabCtl = sel ∧ (s.deferring = true → t.eff = s.eff ∧ t.fabric = s.fabric)) := by
  have value : (w32 sel.val).toNat = sel := w32_toNat_of_lt (by omega)
  have good : s.valueBad .fab 0 0x40 (w32 sel.val).toNat = false := by
    have field : bits sel.val 3 0 = sel := by simp only [bits]; omega
    rw [value]
    exact decide_eq_false (by rw [field]; omega)
  let u := s.setRaw .fab 0 0x40 0 (kept .fab 0x40 (sel.val &&& 0xF))
  obtain ⟨stored, -⟩ := State.stores_spec (s := s) (r := R.fabCtl) (d := fabDef 0x40 0xF) (kept_fabCtl sel) (fun _ _ => rfl)
    (.inr (.inr (by decide)))
  have e : exec (.detourSelect p sel) s = .next (s.stores .fab 0 0x40 (fabDef 0x40 0xF) sel) :=
    congrArg Host.Outcome.next ((State.put_fab fabCtl_fabReg hw hl good).trans (by rw [value]; rfl))
  refine ⟨_, e, stored, fun waits => ?_⟩
  have waiting : s.stores .fab 0 0x40 (fabDef 0x40 0xF) sel = u := State.deferred_deferring (s := u) waits ..
  rw [waiting]
  exact ⟨rfl, rfl⟩

theorem exec_detourSelect_refused {s : State} {p : Path} {sel : Fin 16} (hw : Writes s p R.fabCtl) (hl : Unlocked s R.fabCtl)
    (h : 8 < sel.val) : exec (.detourSelect p sel) s = .next (s.refuses p .fab 0 0x40 0x10) := by
  refine congrArg Host.Outcome.next (State.put_fab_refused fabCtl_fabReg hw hl ?_)
  have value : (w32 sel.val).toNat = sel := w32_toNat_of_lt (by omega)
  have field : bits sel.val 3 0 = sel := by simp only [bits]; omega
  rw [value]
  exact decide_eq_true (by rw [field]; exact h)

theorem exec_revokeCntWrite_stored {s : State} {p : Path} {v : Word} (hw : Writes s p R.fabRevokeCnt)
    (hl : Unlocked s R.fabRevokeCnt) (h : v.toNat % 512 ≤ 256) :
    exec (.revokeCntWrite p v) s = .next (s.setRaw .fab 0 0xA4 0 (v.toNat &&& 0x1FF)) := by
  have value : (w32 v.toNat).toNat = v.toNat := congrArg BitVec.toNat (w32_toNat v)
  have good : s.valueBad .fab 0 0xA4 (w32 v.toNat).toNat = false := by
    rw [value]
    exact decide_eq_false (by simp only [bits]; omega)
  have atOnce (u : State) : u.deferred .fab 0 0xA4 0 = u := if_pos (by decide)
  refine congrArg Host.Outcome.next ((State.put_fab fabRevokeCnt_fabReg hw hl good).trans ?_)
  rw [value]
  exact atOnce _

theorem exec_revokeCntWrite_refused {s : State} {p : Path} {v : Word} (hw : Writes s p R.fabRevokeCnt)
    (hl : Unlocked s R.fabRevokeCnt) (h : 256 < v.toNat % 512) :
    exec (.revokeCntWrite p v) s = .next (s.refuses p .fab 0 0xA4 0x10) := by
  refine congrArg Host.Outcome.next (State.put_fab_refused fabRevokeCnt_fabReg hw hl ?_)
  have value : (w32 v.toNat).toNat = v.toNat := congrArg BitVec.toNat (w32_toNat v)
  rw [value]
  exact decide_eq_true (by simp only [bits]; omega)

/-! ### WLD.CMD (R265, R271, R286) -/

theorem wldCmd_reaches : Reaches R.wldCmd 0 0 (woDef 0x64) := by simp only [Reaches]; decide

theorem wldRefill_reaches : Reaches R.wldRefill 0 0 (woDef 0x68) := by simp only [Reaches]; decide

/-- Chain entry `e` begun anew, with the window of its chain (R266; log 22). -/
def Load.started (l : Load) (e id : Nat) : Load :=
  { l with chains := mput l.chains e ⟨true, 0, 0, []⟩, windows := l.windows.filter (fun w => w.1 != id) }

/-- WLD.CMD.start of an entry: its stream begins anew and the head reads on. -/
theorem State.startChain_eq (s : State) (e : Nat) :
    s.startChain e = ((s.modLoad (·.started e (s.chainId e))).chainFill e 256).pump := rfl

/-- An entry that is no head-host's reads nothing. -/
theorem State.chainFill_none {s : State} {e : Nat} (h : s.chainRole e ≠ 1) (n : Nat) : s.chainFill e n = s := by
  cases n with
  | zero => rfl
  | succ n => exact if_neg (by simp [h])

/-- Aborting an entry stops it, and withdraws its records that wait to be sent; the other entries go on. -/
theorem State.abortChain_spec (s : State) (e : Nat) : let t := s.abortChain e
    (t.chain e).running = false ∧ (t.chain e).parts = [] ∧ (∀ k, k ≠ e → t.chain k = s.chain k) ∧
      (∀ r ∈ t.fabric.sendq, ∀ n, r.use ≠ .record e n) ∧ SameArray s t := by
  intro t
  let stopped : Chain := { s.chain e with running := false, parts := [] }
  have chain : t.chain e = stopped := mget_mput_self ..
  refine ⟨by rw [chain], by rw [chain], fun k hk => mget_mput_ne _ _ _ hk, fun r hr n use => ?_, rfl, rfl, rfl⟩
  have kept := (List.mem_filter.mp hr).2
  rw [use] at kept
  simp at kept

section
variable {s : State} {p : Path} (hw : Writes s p R.wldCmd)
include hw

omit hw in
theorem State.wldCmd_start : s.wldCmd (w32 1).toNat =
    if s.mayLoad then .done (s.startChain (s.fld R.wldChainSel 2 0)) else .refused := rfl

theorem exec_chainStart (may : s.mayLoad = true) :
    exec (.chainStart p) s = .next (s.startChain (s.fld R.wldChainSel 2 0)) :=
  congrArg Host.Outcome.next (State.put_wo wldCmd_reaches rfl (by decide) hw (State.wldCmd_start.trans (if_pos may)))

theorem exec_chainStart_refused (may : s.mayLoad = false) :
    exec (.chainStart p) s = .next (s.refuses p .wld 0 0x64 0x10) :=
  congrArg Host.Outcome.next (State.put_wo_refused wldCmd_reaches rfl (by decide) hw
    (State.wldCmd_start.trans (if_neg (by simp [may]))))

theorem exec_chainAbort : exec (.chainAbort p) s = .next (s.abortChain (s.fld R.wldChainSel 2 0)) :=
  congrArg Host.Outcome.next (State.put_wo wldCmd_reaches rfl (by decide) hw rfl)

theorem exec_reload : exec (.reload p) s = .next s.reloadShare :=
  congrArg Host.Outcome.next (State.put_wo wldCmd_reaches rfl (by decide) hw rfl)

end

/-! ### WLD.REFILL (R282) -/

section
variable {s : State} {p : Path} {v : Word} (hw : Writes s p R.wldRefill)
include hw

theorem exec_refill {k : Nat} {g : RGroup} (h : s.refillOf v.toNat = some (k, g)) :
    exec (.refill p v) s = .next (s.refill k (bits v.toNat 16 6) (bits v.toNat 18 17) g).pump := by
  have value : (w32 v.toNat).toNat = v.toNat := congrArg BitVec.toNat (w32_toNat v)
  refine congrArg Host.Outcome.next (State.put_wo wldRefill_reaches rfl (by decide) hw ?_)
  change s.wldRefill _ = _
  rw [value, State.wldRefill, h]

theorem exec_refill_refused (h : s.refillOf v.toNat = none) :
    exec (.refill p v) s = .next (s.refuses p .wld 0 0x68 0x10) := by
  have value : (w32 v.toNat).toNat = v.toNat := congrArg BitVec.toNat (w32_toNat v)
  refine congrArg Host.Outcome.next (State.put_wo_refused wldRefill_reaches rfl (by decide) hw ?_)
  change s.wldRefill _ = _
  rw [value, State.wldRefill, h]

end

/-- What sending records of entry `e` does: the requests `l` join the queue, and the load engine and the array stay. -/
structure Sends (e : Nat) (s t : State) (l : List Request) : Prop where
  sendq : t.fabric.sendq = s.fabric.sendq ++ l
  records : ∀ r ∈ l, ∃ n, r.use = .record e n
  load : t.load = s.load
  array : SameArray s t

theorem Sends.refl (e : Nat) (s : State) : Sends e s s [] := ⟨(List.append_nil _).symm, by simp, rfl, rfl, rfl, rfl⟩

theorem Sends.trans {e : Nat} {s t u : State} {l m : List Request} (h : Sends e s t l) (k : Sends e t u m) :
    Sends e s u (l ++ m) := by
  obtain ⟨mem, clusters, image⟩ := h.array
  obtain ⟨mem', clusters', image'⟩ := k.array
  refine ⟨by rw [k.sendq, h.sendq, List.append_assoc], fun r hr => ?_, k.load.trans h.load, mem'.trans mem,
    clusters'.trans clusters, image'.trans image⟩
  exact (List.mem_append.mp hr).elim (h.records r) (k.records r)

/-- The request that sends record `r` downstream by hop `v`, the device's `n`-th (R267). -/
def State.recordRequest (s : State) (e : Nat) (v : Bool × Nat) (r : LoadRecord) (n : Nat) : Request where
  tenant := 0
  unit := 512
  access := ⟨spanReg (s.logical (s.hopDevice v)) 0x4800, 1, 0, 2048, s.tick.ns, 0, 0, 0, 0⟩
  data := recordBytes r
  use := .record e r.number
  order := n
  mgmt := false
  via := some v

theorem State.sendRecord_some {s : State} {e : Nat} {v : Bool × Nat} (via : s.chainVia e = some v) (r : LoadRecord) :
    s.sendRecord e r = (s.cnt R.wldRecCnt).modFab (fun f => { f with
      asked := f.asked + 1, sendq := f.sendq ++ [s.recordRequest e v r f.asked] }) := by
  rw [State.sendRecord, via]
  rfl

/-- A record is one request, or none at the end of a chain (R267). -/
theorem State.sendRecord_sends (s : State) (e : Nat) (r : LoadRecord) :
    ∃ l, Sends e s (s.sendRecord e r) l ∧ (s.chainVia e ≠ none → l ≠ []) := by
  cases via : s.chainVia e with
  | none =>
    rw [State.sendRecord, via]
    exact ⟨[], ⟨by simp, by simp, by simp, by simp [SameArray]⟩, fun some => absurd rfl some⟩
  | some v =>
    rw [State.sendRecord_some via]
    exact ⟨[s.recordRequest e v r s.fabric.asked], ⟨by simp [State.modFab], by simp [State.recordRequest], by simp,
      by simp [SameArray]⟩, fun _ => by simp⟩

theorem State.eachRecord_sends (s : State) (e : Nat) (recs : List LoadRecord) :
    ∃ l, Sends e s (s.each recs (fun t r => t.sendRecord e r)) l ∧ (recs ≠ [] → s.chainVia e ≠ none → l ≠ []) := by
  induction recs generalizing s with
  | nil => exact ⟨[], .refl e s, fun some => absurd rfl some⟩
  | cons r recs ih =>
    obtain ⟨l, sends, first⟩ := s.sendRecord_sends e r
    obtain ⟨m, rest, -⟩ := ih (s.sendRecord e r)
    exact ⟨l ++ m, sends.trans rest, fun _ via => List.append_ne_nil_of_left_ne_nil (first via) m⟩

/-- A refill runs its entry and queues the group's records; the state's are followed by END, so that they are not none (R282). -/
theorem State.refill_sends (s : State) (k target what : Nat) (g : RGroup) : let u := s.refill k target what g
    (u.chain k).running = true ∧ SameArray s u ∧ ∃ l, u.fabric.sendq = s.fabric.sendq ++ l ∧
      (∀ r ∈ l, ∃ n, r.use = .record k n) ∧ (what = 2 → s.chainVia k ≠ none → l ≠ []) := by
  intro u
  obtain ⟨recs, c, eq, ends⟩ : ∃ (recs : List LoadRecord) (c : Chain → Chain),
      u = (s.draw.modChain k (fun x => { c x with running := true })).each recs (fun t r => t.sendRecord k r) ∧
        (what = 2 → recs ≠ []) := by
    refine ⟨_, fun x => { x with next := _ }, rfl, ?_⟩
    rintro rfl
    simp
  obtain ⟨l, sends, some⟩ := (s.draw.modChain k (fun x => { c x with running := true })).eachRecord_sends k recs
  rw [← eq] at sends
  refine ⟨?_, sends.array, l, sends.sendq, sends.records, fun two via => some (ends two) via⟩
  have chain : u.chain k = { c (s.chain k) with running := true } := by
    rw [State.chain, sends.load]
    exact mget_mput_self ..
  rw [chain]

/-- Settles O20: detour and revocation registers store what is in range; WLD.CMD and WLD.REFILL reach the load engine's
operations, or are refused. -/
theorem loadRegisters : Obligations.LoadRegisters := by
  unfold Obligations.LoadRegisters
  intro s p v sel e
  refine ⟨fun hw hl => ⟨detourSelect_spec hw hl, exec_detourSelect_refused hw hl⟩,
    fun hw hl => ⟨exec_revokeCntWrite_stored hw hl, exec_revokeCntWrite_refused hw hl⟩,
    fun hw => ⟨fun may => ?_, exec_chainStart_refused hw, ⟨_, exec_chainAbort hw, s.abortChain_spec e⟩, exec_reload hw⟩,
    fun hw => ⟨fun k g h => ⟨exec_refill hw h, s.refill_sends k _ _ g⟩, exec_refill_refused hw⟩⟩
  refine ⟨fun role rest => ?_, exec_chainStart hw may⟩
  rw [exec_chainStart hw may, State.startChain_eq, State.chainFill_none (by exact role)]
  exact congrArg Host.Outcome.next (State.pump_rest (rest.of_same rfl rfl))

end Sys2Proof.Machine
end

section
/-!
PROOF. A frame forwarded to an express port at which another frame waits (09 R249, R253, R254). Refutes O36.
-/
namespace Sys2Proof.Machine

/-- A request that waits at an output. -/
def waitingReq : Nat × RFrame := (16, ⟨.req, ⟨0, 1, 7, 0, 0, 1⟩, noAccess, noResp, []⟩)

/-- A device with ports 3 and 12 UP, whose table sends frames for torus number 1 on express port 12, where a request already waits
for credit of its pool. -/
def expressBusy : State :=
  { State.reset with
    ports := [(3, { Port.reset with state := .up }),
      (12, { Port.reset with state := .up, spent := [(0, 1024)], queue := [waitingReq] })]
    fabric := { Fabric.reset with detours := [(0, { Detour.reset with express := [(1, 12)] })] } }

/-- A response for torus number 1, and its arrival. -/
def expressRsp : RFrame := ⟨.rsp, ⟨0, 1, 7, 0, 0, 1⟩, noAccess, noResp, []⟩
def firstArrival : Arrival := ⟨0, false, [], true⟩

/-- The response comes while nothing waits on the free plane or at a torus port, and its class can go out on port 12 at once. -/
theorem expressBusy_forwards : Comes expressBusy 3 3 firstArrival 0 ∧ (1 : Nat) ≠ expressBusy.rd R.spnPos ∧
    (let u := (expressBusy.receive 3 3 firstArrival).1;
      u.nextHop expressRsp = (.port 12 (oneHop expressRsp), false) ∧ CanSend u 12 3 ∧ u.covered 12 (oneHop expressRsp) = true) := by
  dsimp only [Comes, Quiet, PortsFree, CanSend]
  and_intros <;> decide +kernel

/-- The response goes out, and the request waits on. -/
theorem frameForward_expressBusy : Gives (.frameForward 3 firstArrival expressRsp) expressBusy (fun t =>
    (t.port 12).queue = [waitingReq]) := ⟨_, rfl, by decide +kernel⟩

/-- Refutes O36: a frame forwarded on an express port need not leave the port's queue empty, since a frame of another pool may wait
there for credit. The statement's hypotheses say that nothing waits at a torus port (`PortsFree`), which an express port is
not; about frames that leave on a torus port the refutation says nothing. -/
theorem not_forwardingAndAtomics : ¬ Obligations.ForwardingAndAtomics := by
  intro h
  obtain ⟨comes, elsewhere, hop, sends, covers⟩ := expressBusy_forwards
  obtain ⟨forwards, -⟩ := h.1 expressBusy 3 12 firstArrival expressRsp (oneHop expressRsp) 0 .rsp
  obtain ⟨-, leaves, -⟩ := forwards comes elsewhere rfl
  obtain ⟨t, runs, -, empty, -⟩ := leaves hop sends covers
  obtain ⟨t', runs', waits⟩ := frameForward_expressBusy
  obtain rfl : t = t' := Host.Outcome.next.inj (runs.symm.trans runs')
  exact absurd (empty.symm.trans waits) (by decide)

end Sys2Proof.Machine
end

section
/-!
PROOF. Scheduled slots: sending, receipt, checks and replays (03 R89; 08 R234; 09 R244 to R246). Settles O44.
-/
namespace Sys2Proof.Machine

/-! ### What is armed for a slot -/

/-- A change of what is armed that keeps its slot and its direction. -/
def KeepsSlot (f : Armed → Armed) : Prop := ∀ a, (f a).slot = a.slot ∧ (f a).tx = a.tx

theorem State.modArmed_armedOf (s : State) (id : Nat) (tx : Bool) {f : Armed → Armed} (hf : KeepsSlot f) :
    (s.modArmed id tx f).armedOf id tx = (s.armedOf id tx).map f := by
  simp only [State.armedOf, State.modArmed, State.modFab]
  induction s.fabric.armed with
  | nil => rfl
  | cons a l ih =>
    obtain ⟨slot, dir⟩ := hf a
    by_cases named : (a.slot == id && a.tx == tx) = true
    · rw [List.map_cons, if_pos named, List.find?_cons_of_pos (by rw [slot, dir]; exact named),
        List.find?_cons_of_pos (by exact named)]
      rfl
    · rw [List.map_cons, if_neg named, List.find?_cons_of_neg (by exact named), List.find?_cons_of_neg (by exact named), ih]

theorem State.armedOf_slot {s : State} {id : Nat} {tx : Bool} {a : Armed} (h : s.armedOf id tx = some a) : a.slot = id := by
  have named := List.find?_some h
  simp only [Bool.and_eq_true, beq_iff_eq] at named
  exact named.1

/-! ### Frames of a slot in turn (R238, R244) -/

/-- The frame that carries `f` as the `n`-th SLOT frame from now on port `p`. -/
def State.slotOut (s : State) (p n : Nat) (f : SlotFrame) : Out :=
  .frame p { s.carrier p (.slot f) with seq := (s.classSeq p 1).next + n }

/-- `n` SLOT frames have gone out on port `p`, as `l`; more can go at once, and free values have been drawn. -/
structure SlotSent (s t : State) (p n : Nat) (l : List Out) : Prop where
  rest : t = { s with ports := t.ports, out := s.out ++ l, freeCtr := t.freeCtr }
  sends : CanSend t p 1
  next : (t.classSeq p 1).next = (s.classSeq p 1).next + n
  secure : (t.port p).secure = (s.port p).secure
  state : (t.port p).state = (s.port p).state

theorem SlotSent.refl {s : State} {p : Nat} (h : CanSend s p 1) : SlotSent s s p 0 [] := ⟨by simp, h, rfl, rfl, rfl⟩

theorem SlotSent.draw {s t : State} {p n : Nat} {l : List Out} (h : SlotSent s t p n l) : SlotSent s t.draw p n l := by
  obtain ⟨rest, sends, next, secure, state⟩ := h
  refine ⟨?_, sends, next, secure, state⟩
  rw [rest]
  rfl

/-- One more frame. -/
theorem SlotSent.sendOn {s t : State} {p n : Nat} {l : List Out} (h : SlotSent s t p n l) (f : SlotFrame) :
    SlotSent s (t.sendOn p (.slot f)) p (n + 1) (l ++ [s.slotOut p n f]) := by
  obtain ⟨rest, sends, next, secure, state⟩ := h
  have carrier : t.carrier p (.slot f) = { s.carrier p (.slot f) with seq := (s.classSeq p 1).next + n } := by
    have numbered : (t.classSeq p (Content.slot f).cls).next = (s.classSeq p 1).next + n := next
    simp only [State.carrier, Port.keyFor, secure, state, numbered]
    rfl
  have goes : t.sendOn p (.slot f) = _ := State.sendOn_goes (c := .slot f) sends
  obtain ⟨spent, port⟩ := t.numbered_port p 1 (t.carrier p (.slot f))
  obtain ⟨leaves, -⟩ := t.numbered_leaves p 1 (t.carrier p (.slot f))
  let u := t.sendOn p (.slot f)
  have u_rest : u = { t with ports := u.ports, out := t.out ++ [s.slotOut p n f] } := by
    rw [State.slotOut, ← carrier, show u = _ from goes]
    exact congrArg (fun x => State.send x _) leaves
  have u_port : u.port p = _ := (congrArg (State.port · p) goes).trans port
  have regs : u.regs = t.regs := by rw [u_rest]
  obtain ⟨up, lit, idle, -, free⟩ := sends
  refine ⟨?_, ⟨?_, ?_, ?_, by simp [State.mayEmit, retried], ?_⟩, ?_, ?_, ?_⟩
  · rw [show t.sendOn p (.slot f) = _ from u_rest, rest]
    simp
  · simpa [State.portUp, State.flag, State.rd, State.rawAt, u_port, regs, u] using up
  · simpa [State.lit, State.optical, u_port, u] using lit
  · rw [show (t.sendOn p (.slot f)).port p = _ from u_port]
    exact idle
  · rw [State.classSeq, show (t.sendOn p (.slot f)).port p = _ from u_port, mget_mput_self]
    exact free
  · rw [State.classSeq, show (t.sendOn p (.slot f)).port p = _ from u_port, mget_mput_self]
    exact congrArg (· + 1) next
  · rw [show (t.sendOn p (.slot f)).port p = _ from u_port]
    exact secure
  · rw [show (t.sendOn p (.slot f)).port p = _ from u_port]
    exact state

/-- Segment `i` of a slot (R244). -/
def Slot.segment (x : Slot) (i : Nat) : Nat × Nat × Nat := (i, i * 65536, min 65536 (x.len - i * 65536))

/-- A slot's segments, each sent as one frame, are numbered in turn. -/
theorem SlotSent.segments {s : State} {p : Nat} {x : Slot} {f : Nat × Nat × Nat → SlotFrame}
    {send : State → Nat × Nat × Nat → State} (can : CanSend s p 1) (one : ∀ g ∈ x.segments, ∀ t n l, SlotSent s t p n l →
      SlotSent s (send t g) p (n + 1) (l ++ [s.slotOut p n (f g)])) :
    ∃ n, SlotSent s (s.each x.segments send) p n (x.segments.map (fun g => s.slotOut p g.1 (f g))) := by
  refine ⟨(x.len + 65535) / 65536, ?_⟩
  have upTo : ∀ k ≤ (x.len + 65535) / 65536, SlotSent s (s.each ((List.range k).map x.segment) send) p k
      (((List.range k).map x.segment).map (fun g => s.slotOut p g.1 (f g))) := by
    intro k
    induction k with
    | zero => exact fun _ => .refl can
    | succ k ih =>
      intro within
      have listed : x.segment k ∈ x.segments := List.mem_map_of_mem (List.mem_range.mpr within)
      have sent := one _ listed _ _ _ (ih (by omega))
      simp only [List.range_succ, List.map_append, List.map_cons, List.map_nil, State.each, List.foldl_append, List.foldl_cons,
        List.foldl_nil]
      exact sent
  exact upTo _ le_rfl

/-! ### A slot sent whole (R89, R244) -/

/-- The SLOT frame of a segment of a slot that `a` arms: its bytes as memory holds them, or poison. -/
def State.segFrame (s : State) (a : Armed) (slot : Nat) (dead replay : Bool) (g : Nat × Nat × Nat) : SlotFrame :=
  ⟨(s.slotEntry slot).owner, slot, g.1, dead, false, replay, if dead then [] else (s.armedAddrs a g.2.1 g.2.2).map s.byte⟩

/-- The frames of a slot, in the order of its segments. -/
def State.slotFrames (s : State) (a : Armed) (slot : Nat) (dead replay : Bool) : List Out :=
  (s.slotEntry slot).segments.map (fun g => s.slotOut (s.slotEntry slot).port g.1 (s.segFrame a slot dead replay g))

/-- A slot is armed with bytes that port group 2 reads as memory holds them, its owner lives, and its port is not tested. -/
def Readable (s : State) (slot : Nat) (a : Armed) : Prop :=
  let x := s.slotEntry slot
  s.armedOf slot true = some a ∧ s.ctxDead x.owner = false ∧ s.spc x.port = false ∧
    ∀ g ∈ x.segments, ReadsMemory s 2 (hKind (s.entry a.cluster a.handle) == 0) (s.armedAddrs a g.2.1 g.2.2)

theorem State.sendSeg_clean {s : State} {x : Slot} {a : Armed} {replay : Bool} {g : Nat × Nat × Nat} (untested : s.spc x.port = false)
    (reads : ReadsMemory s 2 (hKind (s.entry a.cluster a.handle) == 0) (s.armedAddrs a g.2.1 g.2.2)) :
    s.sendSeg x a replay g = s.draw.sendOn x.port
      (.slot ⟨x.owner, a.slot, g.1, false, false, replay, (s.armedAddrs a g.2.1 g.2.2).map s.byte⟩) := by
  have sound : (wordsOf (s.armedAddrs a g.2.1 g.2.2)).any (fun w => decide (2 ≤ s.eccOf w)) = false := by
    rw [List.any_eq_false]
    intro w hw
    simp [wordsOf_clean reads.1 w hw]
  simp only [State.sendSeg, untested, sound, reads.bytes, reads.1.afterRead, Bool.false_eq_true, if_false]

section
variable {s : State} {slot : Nat} (can : CanSend s (s.slotEntry slot).port 1)
include can

theorem State.sendSlot_dead (dead : s.ctxDead (s.slotEntry slot).owner = true) (a : Armed) (replay : Bool) :
    ∃ n, SlotSent s (s.sendSlot slot replay) (s.slotEntry slot).port n (s.slotFrames a slot true replay) := by
  rw [State.sendSlot, if_pos dead]
  exact SlotSent.segments (f := s.segFrame a slot true replay) can fun g _ t n l h => h.sendOn _

/-- An armed slot goes whole, and is noted as sent. -/
theorem State.sendSlot_live {a : Armed} (h : Readable s slot a) (replay : Bool) : ∃ t n,
    s.sendSlot slot replay = t.modArmed slot true (fun y => { y with sent := true }) ∧
      SlotSent s t (s.slotEntry slot).port n (s.slotFrames a slot false replay) := by
  obtain ⟨armed, live, untested, reads⟩ := h
  obtain ⟨n, sent⟩ := SlotSent.segments (f := s.segFrame a slot false replay)
    (send := fun t g => t.sendSeg (s.slotEntry slot) a replay g) can fun g listed t n l h => by
      have reads_t : ReadsMemory t 2 (hKind (t.entry a.cluster a.handle) == 0) (t.armedAddrs a g.2.1 g.2.2) := by
        rw [h.rest]
        exact reads g listed
      have untested_t : t.spc (s.slotEntry slot).port = false := by
        rw [h.rest]
        exact untested
      have bytes : (t.armedAddrs a g.2.1 g.2.2).map t.byte = (s.armedAddrs a g.2.1 g.2.2).map s.byte := by
        rw [h.rest]
        rfl
      rw [State.sendSeg_clean untested_t reads_t, bytes, State.armedOf_slot armed]
      exact h.draw.sendOn (s.segFrame a slot false replay g)
  refine ⟨_, n, ?_, sent⟩
  rw [State.sendSlot, if_neg (by simp [live]), armed]

end

/-! ### SLOT_START (R244) -/

theorem State.passTo_past {s : State} {n : Nat} (h : n ≤ s.tick.ns) : s.passTo n = s := if_neg (Nat.not_lt.mpr h)

section
variable {s : State} {slot : Fin 65536} (body : s.tick.phase = .body) (tx : (s.slotEntry slot).dir = 1)
  (started : (s.slotEntry slot).start ≤ s.tick.ns)
include body tx started

theorem exec_slotStart_sends (h : s.ctxDead (s.slotEntry slot).owner = true ∨
    ∃ a, s.armedOf slot true = some a ∧ a.late = false ∧ a.sent = false) :
    exec (.slotStart slot) s = .next (s.sendSlot slot false) := by
  refine congrArg Host.Outcome.next ((if_neg (by simp [body, tx])).trans ?_)
  rw [State.passTo_past started]
  dsimp only
  split
  · rfl
  · rename_i live
    obtain ⟨a, armed, intime, unsent⟩ := h.resolve_left live
    simp [armed, intime, unsent]

theorem exec_slotStart_rests (live : s.ctxDead (s.slotEntry slot).owner = false)
    (h : ∀ a, s.armedOf slot true = some a → a.late = true ∨ a.sent = true) : exec (.slotStart slot) s = .next s := by
  refine congrArg Host.Outcome.next ((if_neg (by simp [body, tx])).trans ?_)
  rw [State.passTo_past started]
  dsimp only
  rw [if_neg (by simp [live])]
  split
  · rename_i a armed
    exact if_pos (by simpa using h a armed)
  · rfl

theorem slotStart_readable {a : Armed} (readable : Readable s slot a) (intime : a.late = false) (unsent : a.sent = false)
    (can : CanSend s (s.slotEntry slot).port 1) : Gives (.slotStart slot) s (fun t =>
      t.out = s.out ++ s.slotFrames a slot false false ∧ t.armedOf slot true = some { a with sent := true } ∧ t.mem = s.mem) := by
  obtain ⟨t, n, goes, sent⟩ := State.sendSlot_live can readable false
  have armed : t.armedOf slot true = some a := by
    rw [sent.rest]
    exact readable.1
  refine ⟨_, exec_slotStart_sends body tx started (.inr ⟨a, readable.1, intime, unsent⟩), ?_⟩
  rw [goes]
  refine ⟨?_, ?_, ?_⟩
  · change t.out = _
    rw [sent.rest]
  · rw [State.modArmed_armedOf (f := fun y => { y with sent := true }) t slot true fun _ => ⟨rfl, rfl⟩, armed]
    rfl
  · change t.mem = _
    rw [sent.rest]

theorem slotStart_dead (dead : s.ctxDead (s.slotEntry slot).owner = true) (can : CanSend s (s.slotEntry slot).port 1) (a : Armed) :
    Gives (.slotStart slot) s (fun t =>
      t.out = s.out ++ s.slotFrames a slot true false ∧ t.fabric = s.fabric ∧ t.mem = s.mem) := by
  obtain ⟨n, sent⟩ := State.sendSlot_dead can dead a false
  refine ⟨_, exec_slotStart_sends body tx started (.inl dead), ?_⟩
  refine ⟨?_, ?_, ?_⟩ <;> rw [sent.rest]

end

theorem exec_slotStart_elsewhere {s : State} {slot : Fin 65536} (h : s.tick.phase ≠ .body ∨ (s.slotEntry slot).dir ≠ 1) :
    exec (.slotStart slot) s = .next s := congrArg Host.Outcome.next (if_pos h)

/-! ### A SLOT frame received (R245) -/

theorem exec_slotFrame_good {s : State} {i : Fin 16} {a : Arrival} (good : (s.receive i 1 a).2 = .good)
    (inPhase : (s.receive i 1 a).1.slotPhase = true) (f : SlotFrame) :
    exec (.slotFrame i a f) s = .next ((s.receive i 1 a).1.slotIn i f) := by
  change execSlotFrame i a f s = _
  rw [execSlotFrame, show s.receive i 1 a = ((s.receive i 1 a).1, .good) from Prod.ext rfl good]
  exact congrArg Host.Outcome.next (if_pos inPhase)

theorem exec_slotFrame_lost {s : State} {i : Fin 16} {a : Arrival}
    (h : (s.receive i 1 a).2 ≠ .good ∨ (s.receive i 1 a).1.slotPhase = false) (f : SlotFrame) :
    exec (.slotFrame i a f) s = .next (s.receive i 1 a).1 := by
  change execSlotFrame i a f s = _
  rw [execSlotFrame]
  generalize s.receive i 1 a = r at h
  obtain ⟨t, found⟩ := r
  cases found with
  | good => exact congrArg Host.Outcome.next (if_neg (by simpa using h))
  | damaged | dropped => rfl

/-- What is armed once a frame of its slot has come: the first of a replay starts the receive state anew (R246). -/
def Armed.begun (a : Armed) (f : SlotFrame) : Armed :=
  if f.replay && !a.replay then { a with replay := true, got := [], exc := [] } else { a with sent := a.sent || !f.replay }

@[simp] theorem Armed.begun_slot (a : Armed) (f : SlotFrame) : (a.begun f).slot = a.slot := by unfold Armed.begun; split <;> rfl

@[simp] theorem Armed.begun_tx (a : Armed) (f : SlotFrame) : (a.begun f).tx = a.tx := by unfold Armed.begun; split <;> rfl

@[simp] theorem Armed.begun_late (a : Armed) (f : SlotFrame) : (a.begun f).late = a.late := by unfold Armed.begun; split <;> rfl

theorem Armed.begun_got (a : Armed) (f : SlotFrame) : (a.begun f).got = if f.replay && !a.replay then [] else a.got := by
  unfold Armed.begun; split <;> rfl

theorem Armed.begun_exc (a : Armed) (f : SlotFrame) : (a.begun f).exc = if f.replay && !a.replay then [] else a.exc := by
  unfold Armed.begun; split <;> rfl

theorem State.armedAddrs_begun (s : State) (a : Armed) (f : SlotFrame) (off n : Nat) :
    s.armedAddrs (a.begun f) off n = s.armedAddrs a off n := by
  unfold Armed.begun
  split <;> rfl

section
variable {s : State} {p : Nat} {f : SlotFrame} (agree : s.island.disagree = false)
include agree

theorem State.slotIn_rejected (bad : accepts (s.slotEntry f.slot) p f = false) : s.slotIn p f = s.badSlot p f := by
  simp [State.slotIn, agree, bad]

variable (good : accepts (s.slotEntry f.slot) p f = true)
include good

theorem State.slotIn_relayed (relay : (s.slotEntry f.slot).dir = 3) (untested : s.spc (s.slotEntry f.slot).outPort = false) :
    s.slotIn p f = s.sendOn (s.slotEntry f.slot).outPort (.slot f) := by
  simp [State.slotIn, agree, good, relay, untested]

variable (rx : (s.slotEntry f.slot).dir = 2) {a : Armed} (armed : s.armedOf f.slot false = some a)
include rx armed

theorem State.slotIn_past (first : f.replay = false) (closed : a.closed = true) : s.slotIn p f = s := by
  have past : s.pastCheck f = true := by simp [State.pastCheck, first, armed, closed]
  simp [State.slotIn, agree, good, rx, past]

variable (taken : f.replay = true ∨ a.closed = false)
include taken

theorem State.slotIn_poison (poison : f.poison = true) : s.slotIn p f = (s.replayBegins f).poisoned (s.slotEntry f.slot) f := by
  have now : s.pastCheck f = false := by
    obtain h | h := taken <;> simp [State.pastCheck, armed, h]
  simp [State.slotIn, agree, good, rx, now, poison]

theorem State.slotIn_corrupt (plain : f.poison = false) (corrupt : f.corrupt = true) : s.slotIn p f = (s.replayBegins f).excSeg f := by
  have now : s.pastCheck f = false := by
    obtain h | h := taken <;> simp [State.pastCheck, armed, h]
  simp [State.slotIn, agree, good, rx, now, plain, corrupt]

end

theorem State.replayBegins_armedOf (s : State) (f : SlotFrame) :
    (s.replayBegins f).armedOf f.slot false = (s.armedOf f.slot false).map (·.begun f) :=
  s.modArmed_armedOf f.slot false (f := fun a => a.begun f) fun a => ⟨a.begun_slot f, a.begun_tx f⟩

theorem State.slotIn_stored {s : State} {p : Nat} {f : SlotFrame} (agree : s.island.disagree = false)
    (good : accepts (s.slotEntry f.slot) p f = true) (rx : (s.slotEntry f.slot).dir = 2) {a : Armed}
    (armed : s.armedOf f.slot false = some a) (taken : f.replay = true ∨ a.closed = false) (plain : f.poison = false)
    (intact : f.corrupt = false) (intime : f.replay = true ∨ a.late = false) :
    s.slotIn p f = ((s.replayBegins f).takeSeg (s.slotEntry f.slot) (a.begun f) f).gotSeg (s.slotEntry f.slot) f := by
  have now : s.pastCheck f = false := by
    obtain h | h := taken <;> simp [State.pastCheck, armed, h]
  have begun : (s.replayBegins f).armedOf f.slot false = some (a.begun f) := by rw [s.replayBegins_armedOf, armed]; rfl
  have inTime : (!f.replay && a.late) = false := by
    obtain h | h := intime <;> simp [h]
  simp [State.slotIn, agree, good, rx, now, plain, intact, begun, inTime]

/-- A frame that fails an entry check is counted, and memory stays (R245). -/
theorem State.badSlot_spec (s : State) (p : Nat) (f : SlotFrame) :
    Counts s (s.badSlot p f) R.fabSlotBad 0 1 ∧ (s.badSlot p f).mem = s.mem := by
  have mem : ((s.cnt R.fabSlotBad).violate .fab 0 ⟨2, 16, f.tenant, 2, 0⟩).mem = s.mem := by simp
  have counted : Counts s ((s.cnt R.fabSlotBad).violate .fab 0 ⟨2, 16, f.tenant, 2, 0⟩) R.fabSlotBad 0 1 := fun unfrozen =>
    ((State.violate_sameAbove _ .fab 0 _).rawAt .fab 0 0 (by decide) (by decide)).trans (s.cnt_counts R.fabSlotBad 0 1 unfrozen)
  unfold State.badSlot
  dsimp only
  generalize (s.cnt R.fabSlotBad).violate .fab 0 ⟨2, 16, f.tenant, 2, 0⟩ = u at counted mem ⊢
  split <;> exact ⟨counted, mem⟩

theorem State.slotIn_rejected_spec {s : State} {p : Nat} {f : SlotFrame} (agree : s.island.disagree = false)
    (bad : accepts (s.slotEntry f.slot) p f = false) : Counts s (s.slotIn p f) R.fabSlotBad 0 1 ∧ (s.slotIn p f).mem = s.mem := by
  rw [State.slotIn_rejected agree bad]
  exact s.badSlot_spec p f

/-- Poison kills the context of an owner that lives, and leaves memory (R89). -/
theorem State.poisonKill_spec {s : State} {t : Nat} (lives : s.ctxDead t = false) (c form addr : Nat) :
    t ∈ (s.poisonKill c t form addr).tick.killed ∧ (s.poisonKill c t form addr).mem = s.mem := by
  let u := (s.wr R.tgpFault (0x29 + t % 256 * 2 ^ 16 + 2 ^ 31) c).violate .tgp c ⟨0x29, 16, t, form, addr⟩
  have lives_u : u.ctxDead t = false := by simpa [u, State.ctxDead] using lives
  have mem : u.mem = s.mem := by simp [u]
  obtain ⟨killed, -⟩ := State.killContext_spec (c := c) lives_u 0x29
  exact ⟨killed, (u.killContext_sameStores c t 0x29).1.trans mem⟩

theorem State.poisoned_spec {s : State} {x : Slot} (lives : s.ctxDead x.owner = false) (f : SlotFrame) :
    x.owner ∈ (s.poisoned x f).tick.killed ∧ (s.poisoned x f).mem = s.mem := by
  let u := (s.excSeg f).violate .fab 0 ⟨0x29, 16, x.owner, 2, 0⟩
  have lives_u : u.ctxDead x.owner = false := by
    rw [State.ctxDead, State.violate_tick]
    exact lives
  have mem : u.mem = s.mem := State.violate_mem ..
  unfold State.poisoned
  dsimp only
  split
  all_goals
    obtain ⟨killed, kept⟩ := State.poisonKill_spec lives_u _ _ _
    exact ⟨killed, kept.trans mem⟩

/-! ### A segment stored (R245) -/

/-- Bytes whose accesses are all served are stored in order, whatever the SECDED words they lie in. -/
theorem State.writeBytes_served {s : State} {g : Nat} {as : List Nat} (h : ∀ a ∈ as, s.lost g a = false) (src tenant : Nat)
    (data : List Byte) : (s.writeBytes g src tenant as data).mem = storedIn s.mem (as.zip data) := by
  have served : (as.zip data).filter (fun p => !s.lost g p.1) = as.zip data := by
    rw [List.filter_eq_self]
    rintro ⟨a, b⟩ hp
    simp [h a (List.of_mem_zip hp).1]
  simp only [State.writeBytes, served, State.draw_mem, State.storeAt_mem]
  rw [State.each_keeps State.mem (fun t a => State.wordWritten_mem ..)]

theorem State.lost_leased {s : State} {g a : Nat} (h : a < 2 ^ 31 → s.leased (a / 2 ^ 22) g (a % 2 ^ 22 / 2 ^ 17) = true) :
    s.lost g a = false := by
  unfold State.lost
  by_cases low : a < 2 ^ 31
  · rw [h low]
    simp only [Bool.not_true, Bool.and_false, Bool.false_and]
  · simp only [low, decide_false, Bool.false_and]

/-- A segment counts as received; where its port is not tested it does no more. -/
theorem State.gotSeg_untested {s : State} {x : Slot} (untested : s.spc x.port = false) (f : SlotFrame) :
    s.gotSeg x f = s.modArmed f.slot false (fun y => { y with got := addOnce y.got f.seg }) := by
  have same : (s.modArmed f.slot false (fun y => { y with got := addOnce y.got f.seg })).spc x.port = false := untested
  unfold State.gotSeg
  dsimp only
  rw [same]
  split <;> rfl

/-- A segment taken where its port is not tested is stored at the armed handle, and noted. -/
theorem State.takeSeg_stored {s : State} {x : Slot} {a : Armed} {f : SlotFrame} (untested : s.spc x.port = false)
    (armed : s.armedOf f.slot false = some a) (leased : ∀ b ∈ s.armedAddrs a (f.seg * 65536) f.data.length, b < 2 ^ 31 →
      s.leased (b / 2 ^ 22) 2 (b % 2 ^ 22 / 2 ^ 17) = true) :
    let t := (s.takeSeg x a f).gotSeg x f
    t.mem = storedIn s.mem ((s.armedAddrs a (f.seg * 65536) f.data.length).zip f.data) ∧
      (t.armedOf f.slot false).map (·.got) = some (addOnce a.got f.seg) := by
  intro t
  let u := s.writeBytes 2 16 x.owner (s.armedAddrs a (f.seg * 65536) f.data.length) f.data
  have takes : s.takeSeg x a f = u := if_neg (by simp [untested])
  have same : u.spc x.port = false := by
    have eff : u.eff = s.eff := (s.writeBytes_samePlant ..).1
    simpa [State.spc, State.inForce, eff] using untested
  have armed_u : u.armedOf f.slot false = some a := by
    rw [State.armedOf, (s.writeBytes_scrubOnly ..).fabric]
    exact armed
  have t_eq : t = u.modArmed f.slot false (fun y => { y with got := addOnce y.got f.seg }) := by
    rw [← State.gotSeg_untested same, ← takes]
  rw [t_eq]
  refine ⟨State.writeBytes_served (fun b hb => State.lost_leased (leased b hb)) .., ?_⟩
  rw [State.modArmed_armedOf (f := fun y => { y with got := addOnce y.got f.seg }) u _ _ fun _ => ⟨rfl, rfl⟩, armed_u]
  rfl

section
variable {s : State} {p : Nat} {f : SlotFrame} {a : Armed} (agree : s.island.disagree = false)
  (good : accepts (s.slotEntry f.slot) p f = true) (rx : (s.slotEntry f.slot).dir = 2) (armed : s.armedOf f.slot false = some a)
  (taken : f.replay = true ∨ a.closed = false)
include agree good rx armed taken

theorem State.slotIn_poison_spec (poison : f.poison = true) (lives : s.ctxDead (s.slotEntry f.slot).owner = false) :
    (s.slotEntry f.slot).owner ∈ (s.slotIn p f).tick.killed ∧ (s.slotIn p f).mem = s.mem := by
  rw [State.slotIn_poison agree good rx armed taken poison]
  exact State.poisoned_spec (s := s.replayBegins f) lives f

theorem State.slotIn_corrupt_spec (plain : f.poison = false) (corrupt : f.corrupt = true) : (s.slotIn p f).mem = s.mem ∧
    ((s.slotIn p f).armedOf f.slot false).map (·.exc) = some (addOnce (if f.replay && !a.replay then [] else a.exc) f.seg) ∧
    (s.slotIn p f).out = s.out := by
  rw [State.slotIn_corrupt agree good rx armed taken plain corrupt]
  refine ⟨rfl, ?_, rfl⟩
  rw [State.excSeg, State.modArmed_armedOf (f := fun y => { y with exc := addOnce y.exc f.seg }) _ _ _ fun _ => ⟨rfl, rfl⟩,
    s.replayBegins_armedOf, armed, ← a.begun_exc]
  rfl

theorem State.slotIn_stored_spec (plain : f.poison = false) (intact : f.corrupt = false)
    (intime : f.replay = true ∨ a.late = false) (untested : s.spc (s.slotEntry f.slot).port = false)
    (leased : ∀ b ∈ s.armedAddrs a (f.seg * 65536) f.data.length, b < 2 ^ 31 → s.leased (b / 2 ^ 22) 2 (b % 2 ^ 22 / 2 ^ 17) = true) :
    (s.slotIn p f).mem = storedIn s.mem ((s.armedAddrs a (f.seg * 65536) f.data.length).zip f.data) ∧
      ((s.slotIn p f).armedOf f.slot false).map (·.got) = some (addOnce (if f.replay && !a.replay then [] else a.got) f.seg) := by
  have begun : (s.replayBegins f).armedOf f.slot false = some (a.begun f) := by rw [s.replayBegins_armedOf, armed]; rfl
  have addrs : (s.replayBegins f).armedAddrs (a.begun f) (f.seg * 65536) f.data.length =
      s.armedAddrs a (f.seg * 65536) f.data.length := State.armedAddrs_begun ..
  rw [State.slotIn_stored agree good rx armed taken plain intact intime, ← a.begun_got, ← addrs]
  exact State.takeSeg_stored untested begun (by rw [addrs]; exact leased)

end

/-! ### SLOT_CHECK (R245) -/

/-- The state once a receive slot has been checked. -/
def State.slotClosed (s : State) (id : Nat) : State := s.modArmed id false (fun z => { z with closed := true })

theorem Counts.to_regs {s t u : State} {r : Reg} {i n : Nat} (h : Counts s t r i n) (regs : u.regs = t.regs) : Counts s u r i n := by
  intro unfrozen
  rw [← h unfrozen, State.rd, State.rawAt, regs]
  rfl

theorem State.sendOn_regs (s : State) (p : Nat) (c : Content) : (s.sendOn p c).regs = s.regs := by
  have transmitted (t : State) (f : Frame) : (t.transmit p f).regs = t.regs := by
    unfold State.transmit
    split <;> rfl
  unfold State.sendOn
  split_ifs
  · rfl
  · rw [State.sendNow, transmitted]
    unfold State.when
    split <;> rfl
  · rfl

theorem State.askReplay_regs (s : State) (id : Nat) : (s.askReplay id).regs = s.regs := by
  unfold State.askReplay
  dsimp only
  split
  · rfl
  · exact s.sendOn_regs ..

theorem State.askReplay_mem (s : State) (id : Nat) : (s.askReplay id).mem = s.mem := (s.askReplay_sameStores id).1

/-- A receive slot whose owner lives asks for its replay. -/
theorem State.askReplay_sends {s : State} {id : Nat} (lives : s.ctxDead (s.slotEntry id).owner = false)
    (can : CanSend s (s.slotEntry id).port 8) :
    (s.askReplay id).out = s.out ++ [.frame (s.slotEntry id).port (s.carrier (s.slotEntry id).port (.replayReq id s.tick.count))] ∧
      (s.askReplay id).armedOf id false = (s.armedOf id false).map (fun z => { z with asked := true }) ∧
      (s.askReplay id).mem = s.mem := by
  obtain ⟨out, -, -, same⟩ := State.sendOn_goes_spec (c := .replayReq id s.tick.count) can
  obtain ⟨-, -, -, -, fabric, -⟩ := same
  rw [State.askReplay, if_neg (by simp [lives])]
  refine ⟨out, ?_, ?_⟩
  · rw [State.modArmed_armedOf (f := fun z => { z with asked := true }) _ _ _ fun _ => ⟨rfl, rfl⟩, State.armedOf, fabric]
    rfl
  · exact (State.sendOn_sameStores ..).1

theorem exec_slotCheck_elsewhere {s : State} {slot : Fin 65536} (h : s.slotPhase = false ∨ (s.slotEntry slot).dir ≠ 2) :
    exec (.slotCheck slot) s = .next s := congrArg Host.Outcome.next (if_pos h)

section
variable {s : State} {slot : Fin 65536} (inPhase : s.slotPhase = true) (rx : (s.slotEntry slot).dir = 2)
  (due : (s.slotEntry slot).start + (s.slotEntry slot).occ + ((s.port (s.slotEntry slot).port).delay + 999) / 1000 + 50 ≤ s.tick.ns)
include inPhase rx due

theorem exec_slotCheck_unarmed (h : s.armedOf slot false = none) : exec (.slotCheck slot) s = .next s := by
  refine congrArg Host.Outcome.next ((if_neg (by simp [inPhase, rx])).trans ?_)
  rw [State.passTo_past due]
  simp only [h]

section
variable {a : Armed} (armed : s.armedOf slot false = some a)
include armed

theorem exec_slotCheck_closed (closed : a.closed = true) : exec (.slotCheck slot) s = .next s := by
  refine congrArg Host.Outcome.next ((if_neg (by simp [inPhase, rx])).trans ?_)
  rw [State.passTo_past due]
  simp only [armed, closed, if_true]

variable (unchecked : a.closed = false)
include unchecked

/-- A slot not checked before is marked so; with no frame on a tested port it counts, and with a segment missing it asks. -/
theorem exec_slotCheck_checks : exec (.slotCheck slot) s = .next (
    let t := if s.spc (s.slotEntry slot).port && !a.sent then (s.slotClosed slot).cnt R.prtSpcMiss (s.slotEntry slot).port
      else s.slotClosed slot
    if a.late || (t.missing a).isEmpty then t else t.askReplay slot) := by
  refine congrArg Host.Outcome.next ((if_neg (by simp [inPhase, rx])).trans ?_)
  rw [State.passTo_past due]
  simp only [armed, unchecked, Bool.false_eq_true, if_false]
  rfl

theorem exec_slotCheck_rests (quiet : s.spc (s.slotEntry slot).port = false ∨ a.sent = true)
    (whole : a.late = true ∨ s.missing a = []) : exec (.slotCheck slot) s = .next (s.slotClosed slot) := by
  have uncounted : (s.spc (s.slotEntry slot).port && !a.sent) = false := by
    obtain h | h := quiet <;> simp [h]
  have same : (s.slotClosed slot).missing a = s.missing a := rfl
  rw [exec_slotCheck_checks inPhase rx due armed unchecked, uncounted]
  refine congrArg Host.Outcome.next (if_pos ?_)
  obtain h | h := whole <;> simp [same, h]

/-- A slot of a tested port of which no frame came counts as missed (R234). -/
theorem slotCheck_missed (tested : s.spc (s.slotEntry slot).port = true) (unsent : a.sent = false) :
    Gives (.slotCheck slot) s (fun t => Counts s t R.prtSpcMiss (s.slotEntry slot).port 1 ∧ t.mem = s.mem) := by
  have counted : Counts s ((s.slotClosed slot).cnt R.prtSpcMiss (s.slotEntry slot).port) R.prtSpcMiss (s.slotEntry slot).port 1 :=
    Counts.of_regs ((s.slotClosed slot).cnt_counts R.prtSpcMiss (s.slotEntry slot).port 1) rfl
  have mem : ((s.slotClosed slot).cnt R.prtSpcMiss (s.slotEntry slot).port).mem = s.mem := State.cnt_mem ..
  have misses : (s.spc (s.slotEntry slot).port && !a.sent) = true := by simp [tested, unsent]
  refine ⟨_, exec_slotCheck_checks inPhase rx due armed unchecked, ?_⟩
  rw [misses]
  dsimp only
  rw [if_pos rfl]
  generalize (s.slotClosed slot).cnt R.prtSpcMiss (s.slotEntry slot).port = u at counted mem
  split
  · exact ⟨counted, mem⟩
  · exact ⟨counted.to_regs (u.askReplay_regs slot), (u.askReplay_mem slot).trans mem⟩

/-- A slot with a segment missing asks for its replay, once. -/
theorem slotCheck_asks (untested : s.spc (s.slotEntry slot).port = false) (intime : a.late = false) (lacking : s.missing a ≠ [])
    (lives : s.ctxDead (s.slotEntry slot).owner = false) (can : CanSend s (s.slotEntry slot).port 8) :
    Gives (.slotCheck slot) s (fun t =>
      t.out = s.out ++ [.frame (s.slotEntry slot).port (s.carrier (s.slotEntry slot).port (.replayReq slot s.tick.count))] ∧
      t.armedOf slot false = some { a with closed := true, asked := true } ∧ t.mem = s.mem) := by
  have closed : (s.slotClosed slot).armedOf slot false = some { a with closed := true } := by
    rw [State.slotClosed, State.modArmed_armedOf (f := fun z => { z with closed := true }) s _ _ fun _ => ⟨rfl, rfl⟩, armed]
    rfl
  have uncounted : (s.spc (s.slotEntry slot).port && !a.sent) = false := by simp [untested]
  have wanting : (a.late || ((s.slotClosed slot).missing a).isEmpty) = false := by
    have same : (s.slotClosed slot).missing a = s.missing a := rfl
    simp [intime, same, lacking]
  have goes : exec (.slotCheck slot) s = .next ((s.slotClosed slot).askReplay slot) := by
    rw [exec_slotCheck_checks inPhase rx due armed unchecked, uncounted]
    exact congrArg Host.Outcome.next (if_neg (by simp [wanting]))
  obtain ⟨out, armed_t, mem⟩ := State.askReplay_sends (s := s.slotClosed slot) (id := slot) lives can
  exact ⟨_, goes, out, by rw [armed_t, closed]; rfl, mem⟩

end

end

/-! ### REPLAY_REQ (R246) -/

theorem exec_replayReq_good {s : State} {i : Fin 16} {a : Arrival} (good : (s.receive i 8 a).2 = .good)
    (inPhase : s.slotPhase = true) (slot : Fin 65536) (tick : Nat) :
    exec (.replayReq i a slot tick) s = .next (
      let r := (s.receive i 8 a).1
      let x := s.slotEntry slot
      if tick ≠ s.tick.count then r
      else if x.dir = 1 ∧ x.port = i.val then r.want slot
      else if x.dir = 3 ∧ x.outPort = i.val then r.sendOn x.port (.replayReq slot tick)
      else r) := by
  have same : LinkOnly s (s.receive i 8 a).1 := (State.receive_good good).only
  change execReplayReq i a slot tick s = _
  rw [execReplayReq, show s.receive i 8 a = ((s.receive i 8 a).1, .good) from Prod.ext rfl good]
  generalize (s.receive i 8 a).1 = r at same
  obtain ⟨_, _, _, _, rfl⟩ := same
  have now (c : Prop) : (c ∨ s.slotPhase = false) ↔ c := by simp [inPhase]
  exact congrArg Host.Outcome.next (if_congr (now _) rfl rfl)

theorem exec_replayReq_lost {s : State} {i : Fin 16} {a : Arrival}
    (h : (s.receive i 8 a).2 ≠ .good ∨ s.slotPhase = false) (slot : Fin 65536) (tick : Nat) :
    exec (.replayReq i a slot tick) s = .next (s.receive i 8 a).1 := by
  have same (good : (s.receive i 8 a).2 = .good) : (s.receive i 8 a).1.slotPhase = s.slotPhase := by
    obtain ⟨_, _, _, _, e⟩ := (State.receive_good good).only
    rw [e]
    rfl
  change execReplayReq i a slot tick s = _
  rw [execReplayReq]
  generalize s.receive i 8 a = r at h same
  obtain ⟨t, found⟩ := r
  cases found with
  | good => exact congrArg Host.Outcome.next (if_pos (.inr ((same rfl).trans (h.resolve_left fun bad => bad rfl))))
  | damaged | dropped => rfl

section
variable {s : State} {slot : Nat}

/-- In the body a replay that was not wanted joins the list, and waits for the repair phase. -/
theorem State.want_body_fresh (body : s.tick.phase = .body) (fresh : ∀ z ∈ s.fabric.replays, z.1 ≠ slot) :
    s.want slot = s.modFab (fun q => { q with replays := q.replays ++ [(slot, 0)] }) := by
  have unwanted : s.fabric.replays.any (fun r => r.1 == slot) = false := by
    rw [List.any_eq_false]
    intro z hz
    simpa using fresh z hz
  rw [State.want, if_neg (by simp [unwanted])]
  exact State.sendReplays_body body

/-- In the repair phase, with no other replay wanted, one that ends before the seal goes at once, and counts. -/
theorem State.want_repair {a : Armed} (repair : s.tick.phase = .repair) (none_wanted : s.fabric.replays = [])
    (readable : Readable s slot a) (can : CanSend s (s.slotEntry slot).port 1)
    (fits : max s.tick.ns s.repairStart + (s.slotEntry slot).occ ≤ s.sealStart) :
    (s.want slot).out = s.out ++ s.slotFrames a slot false true ∧ Counts s (s.want slot) R.fabSlotReplay 0 1 ∧
      (s.want slot).mem = s.mem := by
  let u := s.modFab (fun q => { q with replays := [(slot, 0)] })
  let done := max s.tick.ns s.repairStart + (s.slotEntry slot).occ
  let w := u.modFab (fun q => { q with replays := lput q.replays slot done })
  have wants : s.want slot = u.sendReplay slot := by
    have fresh : s.fabric.replays.any (fun r => r.1 == slot) = false := by rw [none_wanted]; rfl
    have wanted : s.modFab (fun q => { q with replays := q.replays ++ [(slot, 0)] }) = u := by
      simp only [State.modFab, none_wanted, u, List.nil_append]
    rw [State.want, if_neg (by simp [fresh]), wanted]
    exact if_pos repair
  have free : u.replayFree (s.slotEntry slot).port = max s.tick.ns s.repairStart := by
    have mine : u.fabric.replays.filter (fun r => (u.slotEntry r.1).port == (s.slotEntry slot).port) = [(slot, 0)] := by
      exact List.filter_cons_of_pos (by exact beq_self_eq_true _)
    rw [State.replayFree, mine]
    exact Nat.max_zero _
  have goes : u.sendReplay slot = (w.sendSlot slot true).cnt R.fabSlotReplay := by
    have armed : (u.armedOf slot true).isNone = false := by
      rw [show u.armedOf slot true = some a from readable.1]
      rfl
    have ends : u.replayFree (u.slotEntry slot).port + (u.slotEntry slot).occ = done := congrArg (· + _) free
    have intime : ¬ u.sealStart < done := Nat.not_lt.mpr fits
    rw [State.sendReplay, ends, armed]
    exact if_neg (by simp [intime])
  obtain ⟨t, n, sends, sent⟩ := State.sendSlot_live (s := w) can readable true
  obtain ⟨out, regs, mem⟩ : t.out = s.out ++ s.slotFrames a slot false true ∧ t.regs = s.regs ∧ t.mem = s.mem := by
    rw [sent.rest]
    exact ⟨rfl, rfl, rfl⟩
  rw [wants, goes, sends]
  refine ⟨(State.cnt_out ..).trans out, ?_, (State.cnt_mem ..).trans mem⟩
  exact Counts.of_regs (State.cnt_counts _ R.fabSlotReplay 0 1) regs

end

section
variable {s : State} {i : Fin 16} {a : Arrival} (good : (s.receive i 8 a).2 = .good) (inPhase : s.slotPhase = true)
  {slot : Fin 65536}
include good inPhase

theorem exec_replayReq_wants (tx : (s.slotEntry slot).dir = 1) (onPort : (s.slotEntry slot).port = i.val) :
    exec (.replayReq i a slot s.tick.count) s = .next ((s.receive i 8 a).1.want slot) := by
  simp [exec_replayReq_good good inPhase, tx, onPort]

theorem exec_replayReq_passed (relay : (s.slotEntry slot).dir = 3) (onPort : (s.slotEntry slot).outPort = i.val) :
    exec (.replayReq i a slot s.tick.count) s =
      .next ((s.receive i 8 a).1.sendOn (s.slotEntry slot).port (.replayReq slot s.tick.count)) := by
  simp [exec_replayReq_good good inPhase, relay, onPort]

theorem exec_replayReq_other {tick : Nat} (h : tick ≠ s.tick.count ∨
    (((s.slotEntry slot).dir = 1 → (s.slotEntry slot).port ≠ i.val) ∧
      ((s.slotEntry slot).dir = 3 → (s.slotEntry slot).outPort ≠ i.val))) :
    exec (.replayReq i a slot tick) s = .next (s.receive i 8 a).1 := by
  rw [exec_replayReq_good good inPhase]
  refine congrArg Host.Outcome.next ?_
  dsimp only
  by_cases stale : tick ≠ s.tick.count
  · rw [if_pos stale]
  · obtain ⟨not_tx, not_relay⟩ := h.resolve_left stale
    rw [if_neg stale, if_neg fun c => not_tx c.1 c.2, if_neg fun c => not_relay c.1 c.2]

end

/-- Settles O44: each event's equation gives the state that follows, and the port's own work leaves the slots, the clusters and
memory. -/
theorem slotTraffic : Obligations.SlotTraffic := by
  unfold Obligations.SlotTraffic
  intro s i slot a f am tick v r x y data frames readable again due asks
  refine ⟨fun body tx started => ⟨?_, ?_, ?_⟩, exec_slotStart_elsewhere, ?_, fun h => exec_slotFrame_lost h f,
    fun inPhase rx reached => ⟨?_, fun armed => ⟨?_, ?_, ?_, ?_⟩⟩, exec_slotCheck_elsewhere, ?_,
    fun h => exec_replayReq_lost h slot tick, State.want_body_fresh, State.want_repair⟩
  · exact slotStart_readable body tx started
  · exact fun dead can => slotStart_dead body tx started dead can am
  · exact exec_slotStart_rests body tx started
  · intro good inPhase agree
    have goes : exec (.slotFrame i a f) s = .next (v.slotIn i f) := exec_slotFrame_good good inPhase f
    have link : LinkOnly s v := (State.receive_good good).only
    clear_value v
    obtain ⟨_, _, _, _, rfl⟩ := link
    refine ⟨fun bad => ⟨_, goes, ?_⟩, fun ok relay untested => ?_, fun ok rx armed => ⟨fun first closed => ?_, fun taken =>
      ⟨fun poison lives => ⟨_, goes, ?_⟩, fun plain corrupt => ⟨_, goes, ?_⟩,
        fun plain intact intime untested leased => ⟨_, goes, ?_⟩⟩⟩⟩
    · exact State.slotIn_rejected_spec agree bad
    · exact goes.trans (congrArg Host.Outcome.next (State.slotIn_relayed agree ok relay untested))
    · exact goes.trans (congrArg Host.Outcome.next (State.slotIn_past agree ok rx armed first closed))
    · exact State.slotIn_poison_spec agree ok rx armed taken poison lives
    · exact State.slotIn_corrupt_spec agree ok rx armed taken plain corrupt
    · exact State.slotIn_stored_spec agree ok rx armed taken plain intact intime untested leased
  · exact exec_slotCheck_unarmed inPhase rx reached
  · exact exec_slotCheck_closed inPhase rx reached armed
  · exact exec_slotCheck_rests inPhase rx reached armed
  · exact slotCheck_missed inPhase rx reached armed
  · exact fun unchecked untested intime wants => slotCheck_asks inPhase rx reached armed unchecked untested intime wants
  · intro good inPhase
    refine ⟨?_, ?_, exec_replayReq_other good inPhase⟩
    · rintro rfl
      exact exec_replayReq_wants good inPhase
    · rintro rfl
      exact exec_replayReq_passed good inPhase

end Sys2Proof.Machine
end

section
/-!
PROOF. The identity exchange: HELLO, SIGN, FINISH, rekeys and fences (09 R242, R258 to R262). Settles O32.
-/
namespace Sys2Proof.Machine

/-! ### A fence (R242, R262) -/

/-- Port `p` is fenced, counted once more, and nothing beyond what a port shows has changed. -/
def Fences (s t : State) (p : Nat) : Prop :=
  (t.port p).state = .fenced ∧ (t.port p).failReason = 5 ∧ (t.port p).secure.fences = (s.port p).secure.fences + 1 ∧
    OnlyPort s t p ∧ SameButPorts s t

theorem State.fencePort_fences (s : State) (p : Nat) : Fences s (s.fencePort p) p := by
  let f (x : Port) : Port :=
    { x with state := .fenced, failReason := 5, secure := { x.secure with fences := x.secure.fences + 1 } }
  have ports : (s.fencePort p).ports = (s.modPort p f).ports := by
    unfold State.fencePort
    dsimp only
    split <;> simp [State.modPort, State.port, f]
  have port (q : Nat) : (s.fencePort p).port q = (s.modPort p f).port q := by rw [State.port, ports]; rfl
  have self : (s.fencePort p).port p = f (s.port p) := by rw [port, State.modPort_self]
  refine ⟨by rw [self], by rw [self], by rw [self], fun q hq => ?_, s.fencePort_sameButPorts p⟩
  rw [port]
  exact s.modPort_onlyPort p f q hq

/-- What comes before the fence has left its count. -/
theorem Fences.after {s u t : State} {p : Nat} (h : Fences u t p) (count : (u.port p).secure.fences = (s.port p).secure.fences)
    (only : OnlyPort s u p) (same : SameButPorts s u) : Fences s t p := by
  obtain ⟨state, reason, fences, onlyFence, sameFence⟩ := h
  exact ⟨state, reason, fences.trans (congrArg (· + 1) count), only.trans onlyFence, same.trans sameFence⟩

/-- A refused partner's port is fenced. -/
theorem State.refusePartner_fences (s : State) (p : Nat) : Fences s (s.refusePartner p) p := by
  refine (State.fencePort_fences _ p).after ?_ (fun q _ => ?_) (State.violate_sameButPorts ..) <;> simp [State.port]

/-! ### The registers below the ports' (Table 17-4) -/

/-- The registers of the pages before PRT's, and the table windows, are as before. -/
def SameBelowPorts (s t : State) : Prop := ∀ k, k < 131072 → mfind t.regs k = mfind s.regs k

theorem SameBelowPorts.refl (s : State) : SameBelowPorts s s := fun _ _ => rfl

theorem SameBelowPorts.trans {s t u : State} (h : SameBelowPorts s t) (h' : SameBelowPorts t u) : SameBelowPorts s u :=
  fun k hk => (h' k hk).trans (h k hk)

theorem SameBelowPorts.each {α : Type} {l : List α} {f : State → α → State} (h : ∀ s a, SameBelowPorts s (f s a)) (s : State) :
    SameBelowPorts s (s.each l f) := by
  induction l generalizing s with
  | nil => exact .refl s
  | cons a l ih => exact (h s a).trans (ih _)

theorem State.wr_sameBelowPorts (s : State) {r : Reg} (v p : Nat) {bank idx : Nat} (prt : r.page = .prt) :
    SameBelowPorts s (s.wr r v p bank idx) := by
  refine fun k hk => mfind_mput_ne _ _ ?_
  rw [prt]
  simp only [regKey, pageNo]
  omega

theorem State.cnt_sameBelowPorts (s : State) {r : Reg} (p n : Nat) {bank idx : Nat} (prt : r.page = .prt) :
    SameBelowPorts s (s.cnt r p n bank idx) := by
  unfold State.cnt
  dsimp only
  split
  · exact fun _ _ => rfl
  · exact s.wr_sameBelowPorts _ p prt

theorem State.codeword_sameBelowPorts (s : State) (p : Nat) (errs : List Nat) : SameBelowPorts s (s.codeword p errs) := by
  unfold State.codeword
  extract_lets lo hi s1 k
  have counted : SameBelowPorts s s1 := by
    dsimp only [s1]
    split
    · split
      · exact .refl s
      · exact (s.wr_sameBelowPorts (r := R.prtCwLo) _ p rfl).trans (State.wr_sameBelowPorts _ (r := R.prtCwHi) _ p rfl)
    · exact s.wr_sameBelowPorts (r := R.prtCwLo) _ p rfl
  split
  · exact counted
  · refine counted.trans ?_
    split
    · exact s1.cnt_sameBelowPorts (r := R.prtUncCnt) p 1 rfl
    · exact ((s1.cnt_sameBelowPorts (r := R.prtCorrCnt) p 1 rfl).trans (State.cnt_sameBelowPorts _ (r := R.prtHist) p 1 rfl)).trans
        (SameBelowPorts.each (fun t l => t.cnt_sameBelowPorts (r := R.prtLaneSym) p 1 rfl) _)

theorem State.takeBlocks_sameBelowPorts (s : State) (p : Nat) (l : Codewords) : SameBelowPorts s (s.takeBlocks p l) := by
  refine SameBelowPorts.each (fun t b => ?_) s
  unfold State.codeBlock
  split
  · exact .refl t
  · exact SameBelowPorts.trans (t := t.modPort p (fun x => { x with blocks := b.number + 1 })) (fun _ _ => rfl)
      (SameBelowPorts.each (fun u i => u.codeword_sameBelowPorts p _) _)

section
variable {s t : State} (same : SameBelowPorts s t)
include same

theorem SameBelowPorts.listed {base n : Nat} (within : base + 8 * n ≤ 524288) (serial : Nat) :
    t.listed base n serial = s.listed base n serial := by
  unfold State.listed
  rw [Bool.eq_iff_iff]
  simp only [List.any_eq_true, List.mem_range]
  refine exists_congr fun i => and_congr_right fun hi => ?_
  have low := same ((base + 8 * i) / 4) (by omega)
  have high := same ((base + 8 * i + 4) / 4) (by omega)
  simp only [State.listEntry, mget, low, high]

/-- The checks of R259 depend on the lists of serials, and on the partner that the port expects. -/
theorem SameBelowPorts.helloGood {p : Nat} (expected : (t.port p).expected = (s.port p).expected) (h : Hello) :
    t.helloGood p h = s.helloGood p h := by
  have members : t.fld R.fabMemberCnt 11 0 = s.fld R.fabMemberCnt 11 0 := by
    simp only [State.fld, State.rd, State.rawAt, same (regKey (pageNo R.fabMemberCnt.page 0) (R.fabMemberCnt.off + 4 * 0) 0) (by decide)]
  have revoked : t.fld R.fabRevokeCnt 8 0 = s.fld R.fabRevokeCnt 8 0 := by
    simp only [State.fld, State.rd, State.rawAt, same (regKey (pageNo R.fabRevokeCnt.page 0) (R.fabRevokeCnt.off + 4 * 0) 0) (by decide)]
  have few : s.fld R.fabMemberCnt 11 0 < 4096 := Nat.mod_lt _ (by decide)
  simp only [State.helloGood, members, revoked, expected]
  rw [same.listed (base := 0x68000) (by omega), same.listed (base := 0x60000) (by omega)]

end

/-! ### What a port hears -/

/-- Port `p` has heard its partner: codewords are counted and a number is accepted, and the keys, what is sent, the registers that
an exchange reads, and all but what a port shows, are as before. -/
structure Heard (s t : State) (p : Nat) : Prop where
  only : OnlyPort s t p
  port : ∃ blocks unc seqs due, t.port p = { s.port p with blocks := blocks, uncWindow := unc, seqs := seqs, statusDue := due }
  out : t.out = s.out
  ctl : t.rd R.prtCtl p = s.rd R.prtCtl p
  below : SameBelowPorts s t
  same : SameButPorts s t

theorem State.takeBlocks_heard (s : State) (p : Nat) (l : Codewords) : Heard s (s.takeBlocks p l) p := by
  obtain ⟨out, blocks, unc, port⟩ := s.takeBlocks_codewordsOnly p l
  have listened := s.takeBlocks_listened p l
  exact ⟨listened.only, ⟨blocks, unc, _, _, port⟩, out, listened.ctl p, s.takeBlocks_sameBelowPorts p l,
    s.takeBlocks_sameButPorts p l⟩

theorem Heard.secure {s t : State} {p : Nat} (h : Heard s t p) : (t.port p).secure = (s.port p).secure := by
  obtain ⟨_, _, _, _, port⟩ := h.port
  rw [port]

theorem Heard.state {s t : State} {p : Nat} (h : Heard s t p) : (t.port p).state = (s.port p).state := by
  obtain ⟨_, _, _, _, port⟩ := h.port
  rw [port]

theorem Heard.helloGood {s t : State} {p : Nat} (h : Heard s t p) (x : Hello) : t.helloGood p x = s.helloGood p x := by
  obtain ⟨_, _, _, _, port⟩ := h.port
  exact h.below.helloGood (by rw [port]) x

theorem Heard.fences {s u t : State} {p : Nat} (h : Heard s u p) (f : Fences u t p) : Fences s t p :=
  f.after (by rw [h.secure]) h.only h.same

/-- A port meets its partner whatever its classes and keys are. -/
theorem CanMeet.of_port {s t : State} {p : Nat} (meets : CanMeet s p) (opt : (t.port p).opt = (s.port p).opt)
    (lpi : (t.port p).lpi = (s.port p).lpi) (ctl : t.rd R.prtCtl p = s.rd R.prtCtl p) : CanMeet t p := by
  obtain ⟨lit, untested, awake⟩ := meets
  refine ⟨?_, ?_, lpi.trans awake⟩
  · simpa [State.lit, State.optical, opt] using lit
  · simpa [State.flag, ctl] using untested

theorem Heard.canMeet {s t : State} {p : Nat} (h : Heard s t p) (meets : CanMeet s p) : CanMeet t p := by
  obtain ⟨_, _, _, _, port⟩ := h.port
  exact meets.of_port (by rw [port]) (by rw [port]) h.ctl

/-- A frame of class 9 in the phase in use that goes on is heard, on a lit port that is UP. -/
theorem State.receive_heard {s : State} {i : Fin 16} {a : Arrival} (good : (s.receive i 9 a).2 = .good)
    (phase : a.kp = (s.port i).secure.rxKp) : Heard s (s.receive i 9 a).1 i := by
  let u := s.takeBlocks i a.codewords
  obtain ⟨up, -, -⟩ := State.receive_listened (cls := 9) rfl good
  have hears : s.hears i = true := by
    by_contra deaf
    rw [State.receive, if_pos (by simpa using deaf)] at good
    cases good
  have clean : a.codewords.any spoils = false := by
    by_contra spoilt
    rw [Bool.not_eq_false] at spoilt
    simp only [State.receive, hears, up, spoilt, Bool.not_true, Bool.false_eq_true, if_false, if_true] at good
    cases good
  have tag : a.tagOk = true := by
    by_contra bad
    rw [State.receive_unproved ⟨hears, clean⟩ up (.inl (by simpa using bad))] at good
    cases good
  have accepts : s.receive i 9 a = u.accept i 9 a.seq false := State.receive_current ⟨hears, clean⟩ up tag phase
  have heard : Heard s u i := s.takeBlocks_heard i _
  obtain ⟨blocks, unc, seqs, due, port⟩ := heard.port
  cases number : seqAccept (u.seqOf i 9 false) a.seq with
  | none =>
    rw [accepts, State.accept_none number] at good
    cases good
  | some c =>
    let v := u.numberTaken i 9 false c
    have taken : (s.receive i 9 a).1 = v := by
      rw [accepts, State.accept_some number]
      rfl
    have taken_port : v.port i = { u.port i with seqs := mput (u.port i).seqs 9 c, statusDue := true } := by
      simp only [v, State.numberTaken_new, State.modSeq, State.modPort_self]
    have only : OnlyPort u v i := by
      rw [show v = _ from u.numberTaken_new i 9 c]
      exact OnlyPort.trans (t := u.modSeq i 9 (fun _ => c)) (u.modPort_onlyPort i _) (State.modPort_onlyPort _ i _)
    rw [taken]
    refine ⟨heard.only.trans only, ⟨blocks, unc, _, true, by rw [taken_port, port]⟩, heard.out, heard.ctl, heard.below, ?_⟩
    rw [← taken]
    exact s.receive_sameButPortsFst i 9 a

/-! ### Messages of an exchange (R258) -/

/-- A content goes out alike where the port's state, keys and phase, and its class's next number, are alike. -/
theorem State.carrier_same {s t : State} {p : Nat} {c : Content} (state : (t.port p).state = (s.port p).state)
    (kp : (t.port p).secure.kp = (s.port p).secure.kp) (txKey : (t.port p).secure.txKey = (s.port p).secure.txKey)
    (newTx : (t.port p).secure.newTx = (s.port p).secure.newTx) (next : (t.classSeq p c.cls).next = (s.classSeq p c.cls).next) :
    t.carrier p c = s.carrier p c := by
  simp only [State.carrier, Port.keyFor, state, kp, txKey, newTx, next]

theorem State.takeBlocks_carrier (s : State) (p : Nat) (l : Codewords) (c : Content) :
    (s.takeBlocks p l).carrier p c = s.carrier p c := by
  have heard := s.takeBlocks_heard p l
  have secure := heard.secure
  exact State.carrier_same heard.state (by rw [secure]) (by rw [secure]) (by rw [secure])
    (by rw [(s.takeBlocks_codewordsOnly p l).classSeq])

/-- The content `c` has gone out on port `p`, whose classes alone it changes. -/
structure Says (s t : State) (p : Nat) (c : Content) : Prop where
  out : t.out = s.out ++ [.frame p (s.carrier p c)]
  port : ∃ seqs, t.port p = { s.port p with seqs := seqs }
  regs : t.regs = s.regs
  only : OnlyPort s t p
  same : SameButPorts s t

theorem State.sendSecure_regs (s : State) (p : Nat) (c : Content) : (s.sendSecure p c).regs = s.regs := by
  unfold State.sendSecure State.transmit
  split <;> rfl

theorem State.sendSecure_says {s : State} {p : Nat} (meets : CanMeet s p) (c : Content) : Says s (s.sendSecure p c) p c := by
  obtain ⟨port, only⟩ := s.sendSecure_port p c
  exact ⟨State.sendSecure_out meets c, port, s.sendSecure_regs p c, only, s.sendSecure_sameButPorts p c⟩

/-- A change of a port's keys and of what its exchange knows. -/
def State.modSecure (s : State) (p : Nat) (f : Secure → Secure) : State := s.modPort p (fun x => { x with secure := f x.secure })

theorem State.modSecure_port (s : State) (p : Nat) (f : Secure → Secure) :
    (s.modSecure p f).port p = { s.port p with secure := f (s.port p).secure } := State.modPort_self ..

theorem State.modSecure_only (s : State) (p : Nat) (f : Secure → Secure) : OnlyPort s (s.modSecure p f) p := s.modPort_onlyPort p _

theorem CanMeet.modSecure {s : State} {p : Nat} (meets : CanMeet s p) (f : Secure → Secure) : CanMeet (s.modSecure p f) p :=
  meets.of_port (by rw [s.modSecure_port]) (by rw [s.modSecure_port]) rfl

/-- A message goes out once the port's keys have changed. -/
theorem State.modSecure_says {s : State} {p : Nat} (meets : CanMeet s p) (f : Secure → Secure) (c : Content) :
    let t := (s.modSecure p f).sendSecure p c
    t.out = s.out ++ [.frame p ((s.modSecure p f).carrier p c)] ∧
      (∃ seqs, t.port p = { s.port p with seqs := seqs, secure := f (s.port p).secure }) ∧ OnlyPort s t p ∧ SameButPorts s t := by
  obtain ⟨out, ⟨seqs, port⟩, -, only, same⟩ := State.sendSecure_says (meets.modSecure f) c
  exact ⟨out, ⟨seqs, by rw [port, s.modSecure_port]⟩, (s.modSecure_only p f).trans only, (s.modPort_sameButPorts p _).trans same⟩

/-- What an exchange knows once the partner's HELLO has come. -/
def Secure.known (x : Secure) (h : Hello) : Secure := { x with theirs := some h }

/-- What an exchange knows once the partner is admitted: both HELLOs give the new keys (R260). -/
def Secure.derived (x : Secure) (ours theirs : Hello) : Secure :=
  let h := inOrder ours theirs
  let k := hkdf384 (Config.ecdhSecret h.1.ecdh h.2.ecdh) (helloDigest ours theirs) linkInfo 72
  let isA := decide (ours.serial ≤ theirs.serial)
  { x with accepted := true, newTx := if isA then k.take 36 else k.drop 36, newRx := if isA then k.drop 36 else k.take 36 }

theorem State.deriveKeys_eq (s : State) (p : Nat) (ours theirs : Hello) :
    s.deriveKeys p ours theirs = s.modSecure p (·.derived ours theirs) := rfl

section
variable {s : State} {p : Nat} {h o : Hello}

/-- A HELLO that fails the checks fences the port. -/
theorem State.takeHello_refused (bad : s.helloGood p h = false) : Fences s (s.takeHello p h) p := by
  have refuses : s.takeHello p h = (s.modSecure p (·.known h)).refusePartner p := if_pos bad
  rw [refuses]
  exact (State.refusePartner_fences _ p).after (by rw [s.modSecure_port]; rfl) (s.modSecure_only p _) (s.modPort_sameButPorts p _)

variable (good : s.helloGood p h = true) (hello : (s.port p).secure.hello = some o)
include good hello

/-- A HELLO that passes is answered with SIGN while the link is not up. -/
theorem State.takeHello_signs (down : (s.port p).state ≠ .up) (meets : CanMeet s p) : let t := s.takeHello p h
    (t.port p).secure.theirs = some h ∧ (t.port p).state = (s.port p).state ∧
      (∃ b, t.out = s.out ++ [.frame p (s.carrier p (.sign b))]) ∧ OnlyPort s t p ∧ SameButPorts s t := by
  intro t
  let sig := (List.range 96).map (Config.freeByte s.freeCtr)
  have signs : t = ((s.modSecure p (·.known h)).sendSecure p (.sign sig)).draw := by
    have passes : ¬ s.helloGood p h = false := by simp [good]
    dsimp only [t]
    rw [State.takeHello, if_neg passes]
    split
    · rename_i up _
      exact absurd up down
    · rfl
    · rename_i none
      rw [hello] at none
      cases none
  obtain ⟨out, ⟨seqs, port⟩, only, same⟩ := State.modSecure_says meets (·.known h) (.sign sig)
  have keys := s.modSecure_port p (·.known h)
  have carrier : (s.modSecure p (·.known h)).carrier p (.sign sig) = s.carrier p (.sign sig) :=
    State.carrier_same (by rw [keys]) (by rw [keys]; rfl) (by rw [keys]; rfl) (by rw [keys]; rfl) (by rw [State.classSeq, keys]; rfl)
  rw [carrier] at out
  have port_t : t.port p = { s.port p with seqs := seqs, secure := (s.port p).secure.known h } := by rw [signs]; exact port
  refine ⟨by rw [port_t]; rfl, by rw [port_t], ⟨sig, by rw [signs]; exact out⟩, ?_, ?_⟩
  · rw [signs]
    exact only
  · rw [signs]
    exact same.trans (State.draw_sameButPorts _)

/-- A HELLO that passes on a link that is UP is answered with FINISH (R261). -/
theorem State.takeHello_finishes (up : (s.port p).state = .up) (meets : CanMeet s p) : let t := s.takeHello p h
    (t.port p).secure.accepted = true ∧ (t.port p).secure.rekeying = (s.port p).secure.rekeying ∧ (t.port p).state = .up ∧
      (∃ f : Frame, t.out = s.out ++ [.frame p f] ∧ ∃ b, f.content = .finish b) ∧ OnlyPort s t p ∧ SameButPorts s t := by
  intro t
  let v := s.modSecure p (·.known h)
  let c := Content.finish ((v.modSecure p (·.derived o h)).acksOf p)
  have finishes : t = (v.modSecure p (·.derived o h)).sendSecure p c := by
    have passes : ¬ s.helloGood p h = false := by simp [good]
    dsimp only [t]
    rw [State.takeHello, if_neg passes, up, hello]
    rfl
  obtain ⟨out, ⟨seqs, port⟩, only, same⟩ := State.modSecure_says (meets.modSecure (·.known h)) (·.derived o h) c
  rw [s.modSecure_port] at port
  rw [finishes]
  exact ⟨by rw [port]; rfl, by rw [port]; rfl, by rw [port]; exact up, ⟨_, out, _, rfl⟩, (s.modSecure_only p _).trans only,
    (s.modPort_sameButPorts p _).trans same⟩

end

/-! ### Rekeys begun (R261) -/

/-- A rekey is under way. -/
def Secure.rekeyed (x : Secure) : Secure := { x with rekeying := true }

/-- What an exchange knows once this device's HELLO has gone. -/
def Secure.opened (x : Secure) (h : Hello) (starts : List Nat) : Secure :=
  { x with hello := some h, theirs := none, accepted := false, starts := starts }

/-- The fifth exchange within 100 ms apart, a rekey begins with this device's HELLO under the current key. -/
theorem State.beginRekey_says {s : State} {p : Nat} (meets : CanMeet s p)
    (few : (s.within 100000000 (s.port p).secure.starts).length < 4) : let t := s.beginRekey p
    t.out = s.out ++ [.frame p (s.carrier p (.hello (s.helloOf p)))] ∧
      (∃ seqs starts, t.port p = { s.port p with seqs := seqs, secure := (s.port p).secure.rekeyed.opened (s.helloOf p) starts }) ∧
      t.regs = s.regs ∧ OnlyPort s t p ∧ SameButPorts s t := by
  intro t
  let v := s.modSecure p Secure.rekeyed
  let starts := v.within 100000000 (v.port p).secure.starts ++ [v.power.uptime]
  let w := (v.modSecure p (·.opened (s.helloOf p) starts)).draw
  have awake : (s.port p).lpi = false := meets.2.2
  have recent : ¬ 4 ≤ (v.within 100000000 (v.port p).secure.starts).length := by
    rw [s.modSecure_port]
    exact Nat.not_le.mpr few
  have begins : t = w.sendSecure p (.hello (s.helloOf p)) := by
    have rekeys : t = v.startExchange p := if_neg (by simp [awake])
    rw [rekeys]
    exact if_neg recent
  have port_w : w.port p = { s.port p with secure := (s.port p).secure.rekeyed.opened (s.helloOf p) starts } := by
    refine (v.modSecure_port p (·.opened (s.helloOf p) starts)).trans ?_
    rw [s.modSecure_port]
  have meets_w : CanMeet w p := meets.of_port (by rw [port_w]) (by rw [port_w]) rfl
  obtain ⟨out, ⟨seqs, port⟩, regs, only, same⟩ := State.sendSecure_says meets_w (.hello (s.helloOf p))
  have carrier : w.carrier p (.hello (s.helloOf p)) = s.carrier p (.hello (s.helloOf p)) :=
    State.carrier_same (by rw [port_w]) (by rw [port_w]; rfl) (by rw [port_w]; rfl) (by rw [port_w]; rfl)
      (by rw [State.classSeq, port_w]; rfl)
  rw [carrier] at out
  rw [begins]
  refine ⟨out, ⟨seqs, starts, by rw [port, port_w]⟩, regs, ?_, ?_⟩
  · exact ((s.modSecure_only p _).trans (v.modSecure_only p (·.opened (s.helloOf p) starts))).trans only
  · have modified : SameButPorts s (v.modSecure p (·.opened (s.helloOf p) starts)) :=
      (s.modPort_sameButPorts p _).trans (v.modPort_sameButPorts p _)
    exact (modified.trans (State.draw_sameButPorts _)).trans same

/-- A rekey that the partner begins is answered with this device's HELLO, and then with FINISH. -/
theorem State.rekeyHello_answers {s : State} {p : Nat} {h : Hello} (up : (s.port p).state = .up) (meets : CanMeet s p)
    (first : (s.port p).secure.rekeying = false) (few : (s.within 100000000 (s.port p).secure.starts).length < 4)
    (good : s.helloGood p h = true) : let t := s.rekeyHello p h
    (t.port p).secure.accepted = true ∧ (t.port p).secure.rekeying = true ∧ (t.port p).state = .up ∧
      (∃ (f : Frame) (b : Hello), f.content = .hello b ∧
        ∃ g : Frame, t.out = s.out ++ [.frame p f] ++ [.frame p g] ∧ ∃ b, g.content = .finish b) ∧
      OnlyPort s t p ∧ SameButPorts s t := by
  intro t
  let v := s.beginRekey p
  obtain ⟨out, ⟨seqs, starts, port⟩, regs, only, same⟩ := State.beginRekey_says meets few
  have up_v : (v.port p).state = .up := by rw [port]; exact up
  have answers : t = v.takeHello p h := by
    dsimp only [t]
    rw [State.rekeyHello, if_neg (by simp [first])]
    exact if_pos up_v
  have good_v : v.helloGood p h = true := by
    have below : SameBelowPorts s v := fun _ _ => by rw [regs]
    rw [below.helloGood (by rw [port])]
    exact good
  have meets_v : CanMeet v p := meets.of_port (by rw [port]) (by rw [port]) (by rw [State.rd, State.rawAt, regs]; rfl)
  obtain ⟨accepted, rekeying, state, ⟨g, finish, isFinish⟩, only_t, same_t⟩ :=
    State.takeHello_finishes (o := s.helloOf p) good_v (by rw [port]; rfl) up_v meets_v
  rw [answers]
  refine ⟨accepted, rekeying.trans (by rw [port]; rfl), state,
    ⟨s.carrier p (.hello (s.helloOf p)), s.helloOf p, rfl, g, ?_, isFinish⟩, only.trans only_t,
    same.trans same_t⟩
  rw [finish, out]

/-! ### Frames that go out on a port (R240, R249, R253) -/

/-- Port `p`'s classes, credits and queue have changed, and nothing beyond what a port shows; an output at which no frame waited has
none waiting. -/
structure Emits (s t : State) (p : Nat) : Prop where
  same : SameButPorts s t
  port : ∃ seqs spent freed due queue, t.port p =
    { s.port p with seqs := seqs, spent := spent, freed := freed, statusDue := due, queue := queue }
  free : ∀ q, (s.port q).queue = [] → (t.port q).queue = []

theorem Emits.refl (s : State) (p : Nat) : Emits s s p := ⟨.refl s, ⟨_, _, _, _, _, rfl⟩, fun _ h => h⟩

theorem Emits.trans {s t u : State} {p : Nat} (h : Emits s t p) (h' : Emits t u p) : Emits s u p := by
  obtain ⟨_, _, _, _, _, port⟩ := h.port
  obtain ⟨_, _, _, _, _, port'⟩ := h'.port
  exact ⟨h.same.trans h'.same, ⟨_, _, _, _, _, by rw [port', port]⟩, fun q hq => h'.free q (h.free q hq)⟩

theorem Emits.each {α : Type} {p : Nat} {l : List α} {f : State → α → State} (h : ∀ s a, Emits s (f s a) p) (s : State) :
    Emits s (s.each l f) p := by
  induction l generalizing s with
  | nil => exact .refl s p
  | cons a l ih => exact (h s a).trans (ih _)

theorem OnlyPort.each {α : Type} {p : Nat} {l : List α} {f : State → α → State} (h : ∀ s a, OnlyPort s (f s a) p) (s : State) :
    OnlyPort s (s.each l f) p := by
  induction l generalizing s with
  | nil => exact .refl s p
  | cons a l ih => exact (h s a).trans (ih _)

/-- A change of any port's classes, credits and queue. -/
theorem State.modPort_emits (s : State) (q p : Nat) {f : Port → Port} (change : ∀ x, ∃ seqs spent freed due queue, f x =
      { x with seqs := seqs, spent := spent, freed := freed, statusDue := due, queue := queue })
    (free : ∀ x, x.queue = [] → (f x).queue = []) : Emits s (s.modPort q f) p := by
  refine ⟨s.modPort_sameButPorts q f, ?_, fun r hr => ?_⟩
  · rw [State.modPort_port]
    split
    · rename_i e
      rw [e]
      exact change _
    · exact ⟨_, _, _, _, _, rfl⟩
  · rw [State.modPort_port]
    split
    · rename_i e
      exact free _ (e ▸ hr)
    · exact hr

theorem State.transmit_emits (s : State) (p : Nat) (f : Frame) : Emits s (s.transmit p f) p := by
  have port (q : Nat) : (s.transmit p f).port q = s.port q := by rw [State.port, s.transmit_ports]; rfl
  exact ⟨s.transmit_sameButPorts p f, ⟨_, _, _, _, _, port p⟩, fun q hq => (congrArg Port.queue (port q)).trans hq⟩

theorem State.modSeq_emits (s : State) (p cls : Nat) (f : ClassSeq → ClassSeq) : Emits s (s.modSeq p cls f) p :=
  s.modPort_emits p p (fun _ => ⟨_, _, _, _, _, rfl⟩) fun _ h => h

theorem State.spend_emits (s : State) (p pool n : Nat) : Emits s (s.spend p pool n) p :=
  s.modPort_emits p p (fun _ => ⟨_, _, _, _, _, rfl⟩) fun _ h => h

theorem State.freeUnits_emits (s : State) (i p : Nat) (f : RFrame) : Emits s (s.freeUnits i f) p := by
  unfold State.freeUnits
  split
  · exact .refl s p
  · exact s.modPort_emits i p (fun _ => ⟨_, _, _, _, _, rfl⟩) fun _ h => h

theorem State.sendNow_emits (s : State) (p : Nat) (c : Content) : Emits s (s.sendNow p c) p := by
  have spends (t : State) : Emits t (t.when (c.cls == 7) (fun t => t.spend p votePool voteUnits)) p := by
    unfold State.when
    split
    · exact t.spend_emits ..
    · exact .refl t p
  exact ((s.modSeq_emits p c.cls _).trans (spends _)).trans (State.transmit_emits ..)

theorem State.sendNow_onlyPort (s : State) (p : Nat) (c : Content) : OnlyPort s (s.sendNow p c) p := by
  intro q hq
  rw [State.port, State.sendNow, State.transmit_ports]
  exact (s.numbered_leaves p c.cls (s.carrier p c)).2 q hq

theorem State.sendOn_emits (s : State) (p : Nat) (c : Content) : Emits s (s.sendOn p c) p := by
  unfold State.sendOn
  split_ifs
  · exact .refl s p
  · exact s.sendNow_emits p c
  · exact s.modSeq_emits ..

theorem State.drainWindow_emits (s : State) (p cls n : Nat) :
    Emits s (s.drainWindow p cls n) p ∧ OnlyPort s (s.drainWindow p cls n) p := by
  induction n generalizing s with
  | zero => exact ⟨.refl s p, .refl s p⟩
  | succ n ih =>
    unfold State.drainWindow
    split
    · exact ⟨.refl s p, .refl s p⟩
    · rename_i c r _
      split
      · exact ⟨.refl s p, .refl s p⟩
      · obtain ⟨emits, only⟩ := ih ((s.modSeq p cls (fun x => { x with waiting := r })).sendNow p c)
        exact ⟨((s.modSeq_emits ..).trans (State.sendNow_emits ..)).trans emits,
          ((s.modSeq_classesOnly p cls _).only.trans (State.sendNow_onlyPort _ p c)).trans only⟩

theorem State.acked_emits (s : State) (p cls h : Nat) (kp : Bool) :
    Emits s (s.acked p cls h kp) p ∧ OnlyPort s (s.acked p cls h kp) p := by
  unfold State.acked
  split
  · exact ⟨.refl s p, .refl s p⟩
  · obtain ⟨emits, only⟩ := State.drainWindow_emits
      (s.modSeq p cls (fun x => { x with unacked := x.unacked.filter (fun f => f.kp != kp || decide (h < f.seq)) })) p cls _
    exact ⟨(s.modSeq_emits ..).trans emits, (s.modSeq_classesOnly p cls _).only.trans only⟩

theorem State.ackedAll_emits (s : State) (p : Nat) (acks : List Nat) (kp : Bool) :
    Emits s (s.ackedAll p acks kp) p ∧ OnlyPort s (s.ackedAll p acks kp) p := by
  unfold State.ackedAll
  exact ⟨Emits.each (fun t (q : Nat × Nat) => (t.acked_emits p q.1 q.2 kp).1) s,
    OnlyPort.each (fun t (q : Nat × Nat) => (t.acked_emits p q.1 q.2 kp).2) s⟩

theorem State.pumpList_emits (s : State) (p : Nat) (l : List (Nat × RFrame)) (blocked : List Nat) :
    Emits s (s.pumpList p l blocked).1 p := by
  induction l generalizing s blocked with
  | nil => exact .refl s p
  | cons x l ih =>
    obtain ⟨i, f⟩ := x
    unfold State.pumpList
    dsimp only
    split
    · exact ih s _
    · exact (((s.spend_emits p _ _).trans (State.sendOn_emits ..)).trans (State.freeUnits_emits ..)).trans (ih _ _)

theorem State.pumpPort_emits (s : State) (p : Nat) : Emits s (s.pumpPort p) p := by
  by_cases idle : (s.port p).queue = []
  · obtain ⟨rest, ports⟩ := State.pumpPort_empty idle
    have same : SameButPorts s (s.pumpPort p) := by rw [rest]; exact .refl s
    exact ⟨same, ⟨_, _, _, _, _, ports p⟩, fun q hq => (congrArg Port.queue (ports q)).trans hq⟩
  · unfold State.pumpPort
    split
    · exact .refl s p
    · obtain ⟨same, ⟨_, _, _, _, _, port⟩, free⟩ := s.pumpList_emits p (s.port p).queue []
      refine ⟨same.trans (State.modPort_sameButPorts ..), ⟨_, _, _, _, _, by rw [State.modPort_self, port]⟩, fun q hq => ?_⟩
      rw [State.modPort_port, if_neg (by rintro rfl; exact idle hq)]
      exact free q hq

/-! ### FINISH (R258, R260, R261) -/

/-- The keys of a link that is UP under the keys of its exchange. -/
def Secure.turned (x : Secure) : Secure :=
  { x with txKey := x.newTx, rxKey := x.newRx, kp := false, rxKp := false, oldKey := none, oldSeqs := [], rekeying := false,
           switchAt := false }

/-- What the frames that wait anywhere have come from, once the credits of port `p` count anew (R260). -/
def Port.requeued (x : Port) (p : Nat) : Port := { x with queue := x.queue.map (fun f => (if f.1 = p then 16 else f.1, f.2)) }

/-- A link that comes up forgets its failures. -/
theorem State.linkUp_port (s : State) (p : Nat) : ∃ lanes, (s.linkUp p).port p =
    { s.port p with state := .up, backoffN := 0, lanes := lanes, secure := { (s.port p).secure with fences := 0 } } :=
  ⟨_, (State.portState_port ..).trans (by rw [State.modPort_self])⟩

theorem State.linkUp_sameButPorts (s : State) (p : Nat) : SameButPorts s (s.linkUp p) :=
  (s.modPort_sameButPorts p _).trans (State.portState_sameButPorts ..)

theorem State.linkUp_onlyPort (s : State) (p : Nat) : OnlyPort s (s.linkUp p) p := by
  unfold State.linkUp
  exact (s.modPort_onlyPort p _).trans (State.portState_onlyPort _ p .up)

/-- The port of a link whose exchange is complete, before it is UP: the classes `seqs`, no credit, and the new keys. -/
def Port.keyed (x : Port) (seqs : NMap ClassSeq) : Port :=
  { x with seqs := seqs, freed := [], granted := [], spent := [], secure := x.secure.turned }

/-- The link is UP after the port's keys have turned, and what waited goes out then. -/
theorem State.keyUp_steps (s : State) (p q : Nat) (acks : List Nat) : ∃ (g : Port → NMap ClassSeq) (u : State),
    Emits (s.modPort p (fun x => x.keyed (g x))) u p ∧ Emits (u.linkUp p) (s.keyUp p q acks) p := by
  have requeues (t : State) : Emits t (t.each (List.range 16) (fun t i => t.modPort i (·.requeued p))) p :=
    Emits.each (fun t i => t.modPort_emits i p (fun _ => ⟨_, _, _, _, _, rfl⟩) fun x hx => by simp [hx]) t
  have drains (t : State) : Emits t ((t.each ackClasses
      (fun t c => t.drainWindow p c (t.classSeq p c).waiting.length)).pumpPort p) p :=
    (Emits.each (fun t c => (t.drainWindow_emits p c _).1) t).trans (State.pumpPort_emits ..)
  exact ⟨_, _, requeues _, drains _⟩


/-- A link whose exchange is complete is UP under the new keys, and a plane at rest stays so. -/
theorem State.keyUp_up {s : State} (rest : AtRest s) (p q : Nat) (acks : List Nat) : let t := s.keyUp p q acks
    AtRest t ∧ (t.port p).state = .up ∧ (t.port p).backoffN = 0 ∧
      (t.port p).secure = { (s.port p).secure.turned with fences := 0 } ∧ SameButPorts s t := by
  intro t
  obtain ⟨g, u, requeues, emits⟩ := s.keyUp_steps p q acks
  obtain ⟨_, _, _, _, _, port_u⟩ := requeues.port
  obtain ⟨_, _, _, _, _, port_t⟩ := emits.port
  obtain ⟨lanes, port_up⟩ := u.linkUp_port p
  have same : SameButPorts s t :=
    (((s.modPort_sameButPorts p _).trans requeues.same).trans (u.linkUp_sameButPorts p)).trans emits.same
  refine ⟨?_, by rw [port_t, port_up], by rw [port_t, port_up], ?_, same⟩
  · obtain ⟨none_sent, none_back, free⟩ := rest
    obtain ⟨-, -, -, -, fabric, -⟩ := same
    refine ⟨by rw [fabric]; exact none_sent, by rw [fabric]; exact none_back, fun r hr => emits.free r ?_⟩
    have free_u : (u.port r).queue = [] := by
      refine requeues.free r ?_
      rw [State.modPort_port]
      split
      · rename_i e
        exact e ▸ free r hr
      · exact free r hr
    by_cases e : r = p
    · rw [e, port_up]
      rw [e] at free_u
      exact free_u
    · rw [u.linkUp_onlyPort p r e]
      exact free_u
  · rw [port_t, port_up, port_u, State.modPort_self]
    rfl

/-- The partner's FINISH of a rekey turns this device's sender at the next tick. -/
theorem State.rekeyFinish_turns {s : State} {p : Nat} (up : (s.port p).state = .up) (rekeying : (s.port p).secure.rekeying = true)
    (accepted : (s.port p).secure.accepted = true) (kp : Bool) (acks : List Nat) : let t := s.rekeyFinish p kp acks
    (t.port p).secure.switchAt = true ∧ (t.port p).secure.accepted = false ∧ (t.port p).secure.hello = none ∧
      (t.port p).state = .up ∧ OnlyPort s t p ∧ SameButPorts s t := by
  intro t
  let u := s.ackedAll p acks kp
  let f (x : Secure) : Secure := { x with switchAt := true, accepted := false, hello := none }
  have turns : t = u.modSecure p f := if_pos (by simp [rekeying, accepted])
  obtain ⟨emits, only⟩ := s.ackedAll_emits p acks kp
  obtain ⟨_, _, _, _, _, port⟩ := emits.port
  have state : (u.port p).state = .up := by rw [port]; exact up
  rw [turns, u.modSecure_port]
  exact ⟨rfl, rfl, rfl, state, only.trans (u.modSecure_only p f), emits.same.trans (u.modPort_sameButPorts p _)⟩

/-! ### The commands of an exchange in clear (R258 to R260) -/

/-- The state once the codewords of a message have been counted, where the port hears it. -/
def State.overheard (s : State) (p : Nat) (l : Codewords) : State := if s.hears p then s.takeBlocks p l else s

theorem State.clearMessage_whole {s : State} {p : Nat} {a : Arrival} (whole : Whole s p a.codewords) :
    s.clearMessage p a = (s.takeBlocks p a.codewords, true) := by
  obtain ⟨hears, clean⟩ := whole
  simp [State.clearMessage, hears, clean]

theorem State.clearMessage_overheard (s : State) (p : Nat) (a : Arrival) : (s.clearMessage p a).1 = s.overheard p a.codewords := by
  unfold State.clearMessage State.overheard
  cases s.hears p <;> rfl

theorem State.clearMessage_lost {s : State} {p : Nat} {a : Arrival} (lost : ¬Whole s p a.codewords) : (s.clearMessage p a).2 = false := by
  unfold State.clearMessage
  cases hears : s.hears p with
  | false => rfl
  | true =>
    have spoilt : a.codewords.any spoils = true := by simpa [Whole, hears] using lost
    simp [spoilt]

section
variable {s : State} {i : Fin 16} {a : Arrival} (meeting : (s.port i).state = .secure ∨ (s.port i).state = .retrain)
include meeting

theorem exec_hello_clear (h : Hello) : exec (.hello i ⟨a, h⟩) s = .next (
    if (s.clearMessage i a).2 && (s.port i).secure.hello.isSome then (s.clearMessage i a).1.takeHello i h
    else (s.clearMessage i a).1) := by
  change execHello i ⟨a, h⟩ s = _
  rw [execHello]
  obtain state | state := meeting <;> rw [state]

theorem exec_sign_clear (sig : List Byte) : exec (.sign i ⟨a, sig⟩) s = .next (
    if (s.clearMessage i a).2 = false then (s.clearMessage i a).1
    else match (s.port i).secure.hello, (s.port i).secure.theirs with
      | some o, some h => if Config.sigGood h.chain (helloDigest o h) sig then ((s.clearMessage i a).1.deriveKeys i o h).sendFinish i
        else (s.clearMessage i a).1.refusePartner i
      | _, _ => (s.clearMessage i a).1) :=
  congrArg Host.Outcome.next (if_neg fun away => meeting.elim away.1 away.2)

theorem exec_finish_clear (acks : List Nat) : exec (.finish i a acks) s = .next (
    if (s.clearMessage i a).2 = false ∨ (s.port i).secure.accepted = false then (s.clearMessage i a).1
    else if a.tagOk = false then (s.clearMessage i a).1.authFail i
    else ((s.clearMessage i a).1.keyUp i a.seq acks).pump) := by
  change execFinish i a acks s = _
  rw [execFinish]
  obtain state | state := meeting <;> rw [state]

/-- A message that does not come whole is lost. -/
theorem exec_exchange_lost (lost : ¬Whole s i a.codewords) (h : Hello) (sig : List Byte) (acks : List Nat) :
    ∀ c, c ∈ [Instr.hello i ⟨a, h⟩, .sign i ⟨a, sig⟩, .finish i a acks] → exec c s = .next (s.overheard i a.codewords) := by
  have unheard := State.clearMessage_lost lost
  have counts := s.clearMessage_overheard i a
  simp only [List.forall_mem_cons, List.not_mem_nil, false_implies, implies_true, and_true]
  refine ⟨?_, ?_, ?_⟩
  · rw [exec_hello_clear meeting, unheard, counts]
    rfl
  · rw [exec_sign_clear meeting, if_pos unheard, counts]
  · rw [exec_finish_clear meeting, if_pos (.inl unheard), counts]

/-- Where this device has sent no HELLO, its partner's HELLO and SIGN are not taken. -/
theorem exec_exchange_unbegun (none : (s.port i).secure.hello = none) (h : Hello) (sig : List Byte) :
    exec (.hello i ⟨a, h⟩) s = .next (s.overheard i a.codewords) ∧
      exec (.sign i ⟨a, sig⟩) s = .next (s.overheard i a.codewords) := by
  refine ⟨?_, ?_⟩
  · rw [exec_hello_clear meeting, none, s.clearMessage_overheard i a]
    simp
  · rw [exec_sign_clear meeting, none, s.clearMessage_overheard i a]
    simp

theorem exec_finish_unadmitted (unadmitted : (s.port i).secure.accepted = false) (acks : List Nat) :
    exec (.finish i a acks) s = .next (s.overheard i a.codewords) := by
  rw [exec_finish_clear meeting, if_pos (.inr unadmitted), s.clearMessage_overheard i a]

section
variable (whole : Whole s i a.codewords) {h o : Hello}
include whole

theorem exec_hello_whole (hello : (s.port i).secure.hello = some o) :
    exec (.hello i ⟨a, h⟩) s = .next ((s.takeBlocks i a.codewords).takeHello i h) := by
  rw [exec_hello_clear meeting, State.clearMessage_whole whole, hello]
  rfl

theorem exec_sign_whole (hello : (s.port i).secure.hello = some o) (theirs : (s.port i).secure.theirs = some h) (sig : List Byte) :
    exec (.sign i ⟨a, sig⟩) s = .next (if Config.sigGood h.chain (helloDigest o h) sig then
      ((s.takeBlocks i a.codewords).deriveKeys i o h).sendFinish i else (s.takeBlocks i a.codewords).refusePartner i) := by
  rw [exec_sign_clear meeting, State.clearMessage_whole whole, hello, theirs]
  rfl

/-- A HELLO that passes is answered with SIGN. -/
theorem hello_signs (hello : (s.port i).secure.hello = some o) (good : s.helloGood i h = true) (meets : CanMeet s i) :
    Gives (.hello i ⟨a, h⟩) s (fun t => (t.port i).secure.theirs = some h ∧ (t.port i).state = (s.port i).state ∧
      (∃ b, t.out = s.out ++ [.frame i (s.carrier i (.sign b))]) ∧ OnlyPort s t i ∧ SameButPorts s t) := by
  have heard := s.takeBlocks_heard i a.codewords
  have down : (s.port i).state ≠ .up := by
    obtain state | state := meeting <;> simp [state]
  obtain ⟨theirs, state, ⟨b, out⟩, only, same⟩ := State.takeHello_signs (p := i) (s := s.takeBlocks i a.codewords)
    ((heard.helloGood h).trans good) (by rw [heard.secure]; exact hello) (by rw [heard.state]; exact down) (heard.canMeet meets)
  refine ⟨_, exec_hello_whole meeting whole hello, theirs, state.trans heard.state, ⟨b, ?_⟩,
    heard.only.trans only, heard.same.trans same⟩
  rw [out, heard.out, s.takeBlocks_carrier]

theorem hello_refused (hello : (s.port i).secure.hello = some o) (bad : s.helloGood i h = false) :
    Gives (.hello i ⟨a, h⟩) s (fun t => Fences s t i) := by
  have heard := s.takeBlocks_heard i a.codewords
  exact ⟨_, exec_hello_whole meeting whole hello, heard.fences (State.takeHello_refused ((heard.helloGood h).trans bad))⟩

/-- A signature that verifies admits the partner, and FINISH follows under the new key. -/
theorem sign_admits (hello : (s.port i).secure.hello = some o) (theirs : (s.port i).secure.theirs = some h) {sig : List Byte}
    (ok : Config.sigGood h.chain (helloDigest o h) sig = true) (meets : CanMeet s i) :
    Gives (.sign i ⟨a, sig⟩) s (fun t => (t.port i).secure.accepted = true ∧ (t.port i).state = (s.port i).state ∧
      t.out = s.out ++ [.frame i ⟨false, 0, (t.port i).secure.newTx, .finish (s.acksOf i)⟩] ∧ OnlyPort s t i ∧ SameButPorts s t) := by
  let u := s.takeBlocks i a.codewords
  let v := u.modSecure i (·.derived o h)
  have heard : Heard s u i := s.takeBlocks_heard i a.codewords
  have port_v : v.port i = { u.port i with secure := (u.port i).secure.derived o h } := u.modSecure_port ..
  have admits : exec (.sign i ⟨a, sig⟩) s = .next (v.sendSecure i (.finish (v.acksOf i))) :=
    (exec_sign_whole meeting whole hello theirs sig).trans (congrArg Host.Outcome.next (if_pos ok))
  have down : (v.port i).state ≠ .up := by
    rw [port_v, heard.state]
    obtain state | state := meeting <;> simp [state]
  have acks : v.acksOf i = s.acksOf i := by
    have class_u : u.classSeq i = s.classSeq i := funext (s.takeBlocks_codewordsOnly i a.codewords).classSeq
    have class_v : v.classSeq i = u.classSeq i := by
      funext c
      rw [State.classSeq, port_v]
      rfl
    rw [State.acksOf, class_v, class_u]
    rfl
  obtain ⟨out, ⟨seqs, port⟩, only, same⟩ := State.modSecure_says (heard.canMeet meets) (·.derived o h) (.finish (v.acksOf i))
  have carrier : v.carrier i (.finish (v.acksOf i)) = ⟨false, 0, (v.port i).secure.newTx, .finish (s.acksOf i)⟩ := by
    simp [State.carrier, Port.keyFor, down, acks]
  refine ⟨_, admits, by rw [port]; rfl, by rw [port]; exact heard.state, ?_, heard.only.trans only, heard.same.trans same⟩
  rw [out, carrier, heard.out, port, port_v]

theorem sign_refused (hello : (s.port i).secure.hello = some o) (theirs : (s.port i).secure.theirs = some h) {sig : List Byte}
    (bad : Config.sigGood h.chain (helloDigest o h) sig = false) : Gives (.sign i ⟨a, sig⟩) s (fun t => Fences s t i) := by
  refine ⟨_, (exec_sign_whole meeting whole hello theirs sig).trans (congrArg Host.Outcome.next (if_neg (by simp [bad]))), ?_⟩
  exact (s.takeBlocks_heard i a.codewords).fences (State.refusePartner_fences _ i)

/-- FINISH completes the exchange: the link is UP under the new keys. -/
theorem finish_up (admitted : (s.port i).secure.accepted = true) (tag : a.tagOk = true) (rest : AtRest s) (acks : List Nat) :
    Gives (.finish i a acks) s (fun t => (t.port i).state = .up ∧ (t.port i).backoffN = 0 ∧
      (t.port i).secure = { (s.port i).secure.turned with fences := 0 } ∧ SameButPorts s t) := by
  let u := s.takeBlocks i a.codewords
  have heard : Heard s u i := s.takeBlocks_heard i a.codewords
  have rest_u : AtRest u := by
    obtain ⟨-, -, -, -, fabric, -⟩ := heard.same
    refine rest.of_queues fabric fun q => ?_
    obtain ⟨_, _, _, _, port⟩ := heard.port
    by_cases e : q = i
    · rw [e, port]
    · rw [heard.only q e]
  obtain ⟨rest_t, state, backoff, secure, same⟩ := State.keyUp_up rest_u i a.seq acks
  have completes : exec (.finish i a acks) s = .next (u.keyUp i a.seq acks) := by
    rw [exec_finish_clear meeting, State.clearMessage_whole whole, if_neg (by simp [admitted]), if_neg (by simp [tag]),
      State.pump_rest rest_t]
  exact ⟨_, completes, state, backoff, by rw [secure, heard.secure], heard.same.trans same⟩

theorem finish_untagged (admitted : (s.port i).secure.accepted = true) (tag : a.tagOk = false) (acks : List Nat) :
    exec (.finish i a acks) s = .next ((s.overheard i a.codewords).authFail i) := by
  rw [exec_finish_clear meeting, State.clearMessage_whole whole, if_neg (by simp [admitted]), if_pos tag, State.overheard,
    if_pos whole.1]

end

end

/-! ### The commands of a rekey (R261) -/

/-- A port on which a frame of class 9 goes on can answer it where it is awake. -/
theorem State.receive_meets {s : State} {i : Fin 16} {a : Arrival} (good : (s.receive i 9 a).2 = .good)
    (phase : a.kp = (s.port i).secure.rxKp) (awake : (s.port i).lpi = false) : CanMeet (s.receive i 9 a).1 i := by
  obtain ⟨up, lit, -⟩ := State.receive_listened (cls := 9) rfl good
  exact (State.receive_heard good phase).canMeet ⟨lit, State.portUp_untested up, awake⟩

section
variable {s : State} {i : Fin 16} {a : Arrival} (up : s.portUp i = true) (good : (s.receive i 9 a).2 = .good)
include up

theorem State.portUp_state : (s.port i).state = .up := by
  simp only [State.portUp, Bool.and_eq_true, beq_iff_eq] at up
  exact up.1.1

include good

theorem exec_hello_rekey (h : Hello) : exec (.hello i ⟨a, h⟩) s = .next ((s.receive i 9 a).1.rekeyHello i h) := by
  change execHello i ⟨a, h⟩ s = _
  rw [execHello, State.portUp_state up, show s.receive i 9 a = ((s.receive i 9 a).1, .good) from Prod.ext rfl good]

theorem exec_finish_rekey (acks : List Nat) : exec (.finish i a acks) s = .next ((s.receive i 9 a).1.rekeyFinish i a.kp acks) := by
  change execFinish i a acks s = _
  rw [execFinish, State.portUp_state up, show s.receive i 9 a = ((s.receive i 9 a).1, .good) from Prod.ext rfl good]

variable (phase : a.kp = (s.port i).secure.rxKp) {h o : Hello}
include phase

section
variable (rekeying : (s.port i).secure.rekeying = true) (hello : (s.port i).secure.hello = some o)
include rekeying hello

theorem exec_hello_rekeying :
    exec (.hello i ⟨a, h⟩) s = .next ((s.receive i 9 a).1.takeHello i h) := by
  have secure := (State.receive_heard good phase).secure
  rw [exec_hello_rekey up good, State.rekeyHello]
  dsimp only
  rw [secure, if_pos rekeying, hello]
  rfl

theorem hello_finishes (passes : s.helloGood i h = true) (awake : (s.port i).lpi = false) :
    Gives (.hello i ⟨a, h⟩) s (fun t => (t.port i).secure.accepted = true ∧ (t.port i).state = .up ∧
      (∃ f : Frame, t.out = s.out ++ [.frame i f] ∧ ∃ b, f.content = .finish b) ∧ OnlyPort s t i ∧ SameButPorts s t) := by
  have heard := State.receive_heard good phase
  obtain ⟨accepted, -, state, finish, only, same⟩ := State.takeHello_finishes (p := i) (s := (s.receive i 9 a).1)
    ((heard.helloGood h).trans passes) (by rw [heard.secure]; exact hello) (by rw [heard.state]; exact State.portUp_state up)
    (State.receive_meets good phase awake)
  rw [heard.out] at finish
  exact ⟨_, exec_hello_rekeying up good phase rekeying hello, accepted, state, finish, heard.only.trans only, heard.same.trans same⟩

theorem hello_rekey_refused (bad : s.helloGood i h = false) : Gives (.hello i ⟨a, h⟩) s (fun t => Fences s t i) := by
  have heard := State.receive_heard good phase
  exact ⟨_, exec_hello_rekeying up good phase rekeying hello,
    heard.fences (State.takeHello_refused ((heard.helloGood h).trans bad))⟩

end

/-- A rekey that the partner begins. -/
theorem hello_answered (first : (s.port i).secure.rekeying = false)
    (few : (s.within 100000000 (s.port i).secure.starts).length < 4) (awake : (s.port i).lpi = false)
    (passes : s.helloGood i h = true) : Gives (.hello i ⟨a, h⟩) s (fun t => (t.port i).secure.accepted = true ∧
      (t.port i).secure.rekeying = true ∧ (t.port i).state = .up ∧ (∃ (f : Frame) (b : Hello), f.content = .hello b ∧
        ∃ g : Frame, t.out = s.out ++ [.frame i f] ++ [.frame i g] ∧ ∃ b, g.content = .finish b) ∧
      OnlyPort s t i ∧ SameButPorts s t) := by
  have heard := State.receive_heard good phase
  have recent : ((s.receive i 9 a).1.within 100000000 ((s.receive i 9 a).1.port i).secure.starts).length < 4 := by
    obtain ⟨-, -, -, -, -, -, -, -, power, -⟩ := heard.same
    rw [heard.secure, State.within, power]
    exact few
  obtain ⟨accepted, rekeying, state, frames, only, same⟩ := State.rekeyHello_answers (p := i) (s := (s.receive i 9 a).1)
    (by rw [heard.state]; exact State.portUp_state up) (State.receive_meets good phase awake) (by rw [heard.secure]; exact first)
    recent ((heard.helloGood h).trans passes)
  rw [heard.out] at frames
  exact ⟨_, exec_hello_rekey up good h, accepted, rekeying, state, frames, heard.only.trans only, heard.same.trans same⟩

theorem finish_turns (rekeying : (s.port i).secure.rekeying = true) (admitted : (s.port i).secure.accepted = true)
    (acks : List Nat) : Gives (.finish i a acks) s (fun t => (t.port i).secure.switchAt = true ∧ (t.port i).secure.accepted = false ∧
      (t.port i).secure.hello = none ∧ (t.port i).state = .up ∧ OnlyPort s t i ∧ SameButPorts s t) := by
  have heard := State.receive_heard good phase
  obtain ⟨switches, accepted, hello, state, only, same⟩ := State.rekeyFinish_turns (p := i) (s := (s.receive i 9 a).1)
    (by rw [heard.state]; exact State.portUp_state up) (by rw [heard.secure]; exact rekeying) (by rw [heard.secure]; exact admitted)
    a.kp acks
  exact ⟨_, exec_finish_rekey up good acks, switches, accepted, hello, state, heard.only.trans only, heard.same.trans same⟩

end

/-! ### Timers (R261, R262) -/

section
variable {s : State} {i : Fin 16}

/-- An exchange too long under way fences its port. -/
theorem secureTimeout_fences (h : (s.port i).state = .secure ∨ (s.port i).state = .retrain ∨
    ((s.port i).state = .up ∧ (s.port i).secure.rekeying = true ∧ (s.port i).secure.hello.isSome = true)) :
    Gives (.secureTimeout i) s (fun t => Fences s t i) :=
  ⟨_, congrArg Host.Outcome.next (if_pos h), s.fencePort_fences i⟩

/-- A fence that ends gives up what the link held, and the port tries again where it may run. -/
theorem fenceExpiry_retries (fenced : (s.port i).state = .fenced) : Gives (.fenceExpiry i) s (fun t =>
    (t.port i).state = (if s.portMayRun i then .detect else .quiet) ∧ (t.port i).queue = (s.port i).queue ∧ (t.port i).seqs = [] ∧
      OnlyPort s t i ∧ SameButPorts s t) := by
  have unlinks : s.dropLink i = s.modPort i Port.unlinked := s.dropLink_eq i
  have may : (s.dropLink i).portMayRun i = s.portMayRun i := s.portMayRun_modPort i rfl rfl
  have only : OnlyPort s (s.dropLink i) i := s.modPort_onlyPort i _
  have port : (s.dropLink i).port i = (s.port i).unlinked := by rw [unlinks, State.modPort_self]
  refine ⟨(s.dropLink i).retry i, congrArg Host.Outcome.next (if_pos fenced), ?_⟩
  rw [State.retry, may]
  split
  · have detects := (s.dropLink i).toDetect_port i
    rw [port] at detects
    rw [detects]
    exact ⟨rfl, rfl, rfl, only.trans ((s.dropLink i).toDetect_onlyPort i),
      (s.dropLink_sameButPorts i).trans (State.toDetect_sameButPorts ..)⟩
  · have quiets := (s.dropLink i).portState_port i .quiet
    rw [port] at quiets
    rw [quiets]
    exact ⟨rfl, rfl, rfl, only.trans ((s.dropLink i).portState_onlyPort i .quiet),
      (s.dropLink_sameButPorts i).trans (State.portState_sameButPorts ..)⟩

/-- A key that has served its time is replaced: a rekey begins. -/
theorem rekeyTimer_begins (up : s.portUp i = true) (lit : s.lit i = true) (first : (s.port i).secure.rekeying = false)
    (awake : (s.port i).lpi = false) (few : (s.within 100000000 (s.port i).secure.starts).length < 4) :
    Gives (.rekeyTimer i) s (fun t => (t.port i).secure.rekeying = true ∧ (t.port i).state = .up ∧
      (∃ b, (t.port i).secure.hello = some b ∧ t.out = s.out ++ [.frame i (s.carrier i (.hello b))]) ∧ OnlyPort s t i ∧
      SameButPorts s t) := by
  obtain ⟨out, ⟨seqs, starts, port⟩, -, only, same⟩ := State.beginRekey_says ⟨lit, State.portUp_untested up, awake⟩ few
  refine ⟨_, congrArg Host.Outcome.next (if_pos ⟨up, first⟩), by rw [port]; rfl, ?_, ⟨_, by rw [port]; rfl, out⟩, only, same⟩
  rw [port]
  exact State.portUp_state up

theorem exec_rekeyTimer_rests (h : s.portUp i = false ∨ (s.port i).secure.rekeying = true ∨ (s.port i).lpi = true) :
    exec (.rekeyTimer i) s = .next s := by
  by_cases due : s.portUp i = true ∧ (s.port i).secure.rekeying = false
  · have dozes : (s.port i).lpi = true := by simpa [due.1, due.2] using h
    exact (congrArg Host.Outcome.next (if_pos due)).trans (congrArg Host.Outcome.next (if_pos dozes))
  · exact congrArg Host.Outcome.next (if_neg due)

end

/-- Settles O32: each message's equation says what it answers or whom it refuses, once the port's own receipt is shown to leave the
keys and the lists of serials. -/
theorem identityExchange : Obligations.IdentityExchange := by
  unfold Obligations.IdentityExchange
  intro s i a h o sig acks x u fenced ok starts finishes
  refine ⟨fun meeting => ⟨fun whole hello => ⟨?_, ?_, ?_, ?_⟩, fun whole admitted => ⟨fun tag rest => ?_, ?_⟩, ?_, ?_, ?_, ?_⟩,
    fun up good phase => ⟨fun rekeying hello awake => ⟨?_, ?_⟩, ?_, ?_⟩, fun up rekeying hello => ?_, fenceExpiry_retries,
    fun state => congrArg Host.Outcome.next (if_neg state), rekeyTimer_begins, exec_rekeyTimer_rests, rfl⟩
  · exact hello_signs meeting whole hello
  · exact hello_refused meeting whole hello
  · exact fun theirs ok => sign_admits meeting whole hello theirs ok
  · exact fun theirs bad => sign_refused meeting whole hello theirs bad
  · obtain ⟨t, goes, state, backoff, secure, same⟩ := finish_up meeting whole admitted tag rest acks
    obtain ⟨-, -, -, clusters, -, -, -, -, -, -, -, -, mem, -⟩ := same
    exact ⟨t, goes, state, backoff, by rw [secure], by rw [secure]; rfl, by rw [secure]; rfl, by rw [secure]; rfl,
      by rw [secure]; rfl, by rw [secure]; rfl, mem, clusters⟩
  · exact fun tag => finish_untagged meeting whole admitted tag acks
  · exact fun lost => exec_exchange_lost meeting lost h sig acks
  · exact fun none => exec_exchange_unbegun meeting none h sig
  · exact fun unadmitted => exec_finish_unadmitted meeting unadmitted acks
  · exact secureTimeout_fences (meeting.imp_right .inl)
  · intro passes
    obtain ⟨t, goes, accepted, state, finish, only, same⟩ := hello_finishes up good phase rekeying hello passes awake
    exact ⟨t, goes, accepted, state, by simpa [finishes] using finish, only, same⟩
  · exact hello_rekey_refused up good phase rekeying hello
  · exact fun first few awake passes => hello_answered up good phase first few awake passes
  · exact fun rekeying admitted => finish_turns up good phase rekeying admitted acks
  · exact secureTimeout_fences (.inr (.inr ⟨up, rekeying, by rw [hello]; rfl⟩))

end Sys2Proof.Machine
end
